-- ==== Sys2Proof/Word.lean ====
section
/-! DEFINITION. The hub's word and byte (R4, R5). -/

namespace Sys2Proof

/-- A word: 48 bits, bit 0 the least significant (R4). -/
abbrev Word := BitVec 48

/-- A byte; byte k of a word is bits [8k+7:8k] (R5). -/
abbrev Byte := BitVec 8

end Sys2Proof
end

