-- ==== Sys2Proof/Syntax.lean ====
section
/-! DEFINITION. The commands of the hub and their operands. The hub is modelled as a block: it takes commands from
outside (a write or read on an access path, a frame, a pin event, a timer expiry the block's hardware reports) and
each changes its state. One constructor of `Instr` is one row of the spec's command table. -/

namespace Sys2Proof

/-- A ring port (R117). -/
inductive Port where
  | east | west
deriving DecidableEq, Repr

/-- One of the two counter-rotating rings (R117). -/
inductive RingId where
  | a | b
deriving DecidableEq, Repr

/-- The four Belfry traffic classes. -/
inductive Cls where
  | cy | ur | bk | mg
deriving DecidableEq, Repr

/-- An access path of the dictionary (Table 1 of The object dictionary, R76): the host port, one SDO server channel,
or one source hub of ring requests. -/
inductive Path where
  | host
  | sdo (ch : Fin 4)
  | ring (hub : Nat)
deriving DecidableEq, Repr

/-- A ring frame: the header fields of Tables 5 and 6 of Ring links and frames (R136, R137; `specific` is header word 1
bits [39:24]), the security header (R138), the payload words and the tag (R134). -/
structure Frame where
  version      : Nat
  ftype        : Nat
  cls          : Cls
  secured      : Bool
  confidential : Bool
  multicast    : Bool
  dst          : Nat
  src          : Nat
  seq          : Nat
  specific     : Nat
  group        : Nat
  slot         : Nat
  epoch        : Nat
  counter      : Nat
  payload      : List Word
  tag          : Nat
  /-- Words after the headers that carry the poison bit inside the hub, by their place; no frame on a ring carries one (R207). -/
  poison       : List Nat
deriving DecidableEq, Repr

/-- What a receiving port finds after a frame's START (Table 2 of Ring links and frames): a block of the frame marked as an error
(R127); a PAUSE, CONT or END with its fragment number; a preemptable START; an ERROR block; a control block of a type the
table does not hold (R123). -/
inductive FrameBlock where
  | marked
  | pause (k : Nat)
  | cont (k : Nat)
  | start
  | fin (k : Nat)
  | error
  | other
deriving DecidableEq, Repr

/-- What a receiving port found of a frame beside its header and payload: its CRC as received, its length in bytes, its blocks in
order. A frame whose blocks end neither with END nor with an abort is still arriving. -/
structure FrameCheck where
  crc    : Nat
  bytes  : Nat
  blocks : List FrameBlock
deriving DecidableEq, Repr

/-- An entry's slot: its index and subindex (R71). -/
structure SlotName where
  index : Nat
  sub   : Nat
deriving DecidableEq, Repr

/-- The bytes of a slot that an access touches: the offset of the first and how many (R85, R89). -/
structure ByteSpan where
  offset : Nat
  size   : Nat
deriving DecidableEq, Repr

/-- What a receive direction found in one second (R127, R165): errors, and with FEC on codewords it corrected. -/
structure ErrorCount where
  errors    : Nat
  corrected : Nat
deriving DecidableEq, Repr

/-- A ring port and how many bytes of the frame on its link it has sent (R143, R147). -/
structure SendPoint where
  port : Port
  sent : Nat
deriving DecidableEq, Repr

/-- What a contribution frame carries beside its tag and index, and its reception: its number of frames less one (Table 3 of Cyclic
exchange), the ring port, and how long ago in ns that port's receive island stamped the first bit of its START block (R31, R337). -/
structure ContributionHead where
  frames : Nat
  port   : Port
  age    : Nat
deriving DecidableEq, Repr

/-- What upsets have done to Belfry's buffer: cells lost from the free list, cells linked twice (R208), and words in error (cell, word of
the cell, whether two of its bits are wrong; R206). -/
structure CellUpset where
  lost  : List Nat
  twice : Nat
  words : List (Nat × Nat × Bool)
deriving DecidableEq, Repr

/-- What a COMMIT frame carries beside its handle (R278, R319): the binding generation, and the switch time T_s in ns (0 for none). -/
structure CommitTerms where
  gen      : Nat
  switchNs : Nat
deriving DecidableEq, Repr

/-- One word on a crossing (R23): data, poison bit, and for a FIFO the end mark and the valid-byte count. -/
structure XWord where
  data    : Word
  poison  : Bool
  endMark : Bool
  count   : Nat
deriving DecidableEq, Repr

/-- Which of the clock monitor's checks failed its window (R18): an island's clock, the two crystals against each
other, or one crystal against the RC oscillator. -/
inductive MonitorCheck where
  | island (code : Nat)
  | cross
  | rc25
  | rc32
deriving DecidableEq, Repr

/-- Why a receive direction fails (Table 11 of Ring links and frames; the error takedown is a command of its own). -/
inductive LinkCause where
  | signal | sync | align | hello
deriving DecidableEq, Repr

/-- What a Canopy request asks for (Table 4 of Canopy addressing). -/
inductive COp where
  | read | write | cas | fetchAdd
  | other (code : Nat)
deriving DecidableEq, Repr

/-- A Canopy request (R267, Table 4): requester port, tag, class, operation, Canopy address, word count n, byte enables
of the first and of the last word, operand words; for a request from the ring its source hub, binding generation, order
number, and whether it is through the home and wants fill. -/
structure CReq where
  port  : Nat
  tag   : Nat
  cls   : Cls
  op    : COp
  addr  : Nat
  count : Nat
  be0   : Nat
  be1   : Nat
  data  : List Word
  src   : Nat
  gen   : Nat
  order : Nat
  home  : Bool
  fill  : Bool
deriving DecidableEq, Repr

/-- The fill word of a relayed response (R269). -/
structure CFill where
  holder : Nat
  kind   : Nat
  gen    : Nat
  length : Nat
deriving DecidableEq, Repr

/-- A Canopy response (R269, Table 5): requester port, tag, responding hub, class, operation, status, words covered by a
write acknowledgement, data words, the fill word, and the address a refused write carries. `ack` marks a write
acknowledgement. -/
structure CResp where
  port   : Nat
  tag    : Nat
  src    : Nat
  cls    : Cls
  op     : COp
  ack    : Bool
  status : Nat
  count  : Nat
  data   : List Word
  fill   : Option CFill
  addr   : Nat
deriving DecidableEq, Repr

/-- What of an object's definition its holder needs (Tables 1 and 2 of Forester placement and migration): sizes, source
and consumer ends, options, capture selector, FIFO settings, rule record, fields 7 to 10 (pins and spares). -/
structure ObjDef where
  sizeA    : Nat
  sizeB    : Nat
  source   : Nat
  consumer : Nat
  options  : Nat
  selector : Nat
  fifo     : Nat
  rule     : List Nat
  pins     : List Nat
deriving DecidableEq, Repr

/-- One word of a stream data frame: its FIFO word and the index it has in the stream. -/
structure StreamWord where
  data      : Word
  poison    : Bool
  endMark   : Bool
  count     : Nat
deriving DecidableEq, Repr

/-- A CAN frame (R470, R487); `sof` is the bus aggregate's stamp of its SOF in ns, modulo 2^48 (R499). -/
structure CanFrame where
  id  : Nat
  ide : Bool
  rtr : Bool
  fdf : Bool
  brs : Bool
  esi : Bool
  dlc : Nat
  data : List Byte
  sof  : Nat
deriving DecidableEq, Repr

/-- How a received CAN frame ended: without error, or with one of the errors of 0x4810+c:07. -/
inductive CanError where
  | none | stuff | form | ack | bit1 | bit0 | crc | protocolException
deriving DecidableEq, Repr

/-- How a CAN transmission attempt ended. -/
inductive TxResult where
  | ok | lostArbitration | error (code : Nat) | protocolException
deriving DecidableEq, Repr

/-- The converter codes of one fuse channel in one conversion round (R634). -/
structure FuseSample where
  current : Nat
  vout    : Nat
  vin     : Nat
  gate    : Nat
deriving DecidableEq, Repr

/-- What another hub of the ring answers an activation query (R729). -/
structure HubAnswer where
  hub      : Nat
  answered : Bool
  state    : Nat
  mode     : Nat
  version  : Nat
deriving DecidableEq, Repr


/-- The commands of the hub: one constructor per row of the spec's command table, with the row's operands.
The docstrings name the row and the rule it cites. -/
inductive Instr where
  /-- POWER_ON (R54). -/
  | powerOn (straps : Nat) (testMode : Bool)
  /-- RESET_N_FALL (R44). -/
  | resetNFall (widthNs : Nat)
  /-- RESET_N_RISE (R61). -/
  | resetNRise (straps : Nat) (testMode : Bool)
  /-- BOOT_MEMORY_INIT_DONE (R61). -/
  | bootMemoryInitDone (ok : Bool)
  /-- KNOWN_ANSWER_TESTS_DONE (R622). -/
  | knownAnswerTestsDone (results : Nat)
  /-- IMAGE_VERIFY_DONE (R621). -/
  | imageVerifyDone (okA : Bool) (okB : Bool) (okHost : Bool)
  /-- FIRMWARE_SELFTEST_DONE (R63). -/
  | firmwareSelftestDone (channelsFailed : Nat) (enginesFailed : Nat)
  /-- FACTORY_AUTH_TIMEOUT (R56). -/
  | factoryAuthTimeout
  /-- FACTORY_ENTRY (R56). -/
  | factoryEntry
  /-- BOOT_CONTROL_WRITE (R593). -/
  | bootControlWrite (length : Nat)
  /-- MODE_REQUEST_COMMISSION (R44). -/
  | modeRequestCommission (path : Path)
  /-- MODE_REQUEST_RUN (R67). -/
  | modeRequestRun (path : Path)
  /-- MODE_REQUEST_CLEARING (R525). -/
  | modeRequestClearing (path : Path)
  /-- MODE_REQUEST_SERVICE (R44). -/
  | modeRequestService (path : Path)
  /-- LIMP_EXIT (R44). -/
  | limpExit
  /-- SOFTWARE_RESET (R60). -/
  | softwareReset (path : Path) (value : Nat)
  /-- RANGER_WATCHDOG_EXPIRY (R44). -/
  | rangerWatchdogExpiry
  /-- COMMISSION_BLOCKED_TIMEOUT (R67). -/
  | commissionBlockedTimeout
  /-- RUN_ENTRY (R69). -/
  | runEntry
  /-- CLOCK_MONITOR_WINDOW (R18). -/
  | clockMonitorWindow (check : MonitorCheck) (khz : Nat)
  /-- CROSSING_TRANSFER (R20). -/
  | crossingTransfer (src : Nat) (dst : Nat) (word : XWord) (parityOk : Bool)
  /-- CROSSING_TIMEOUT (R26). -/
  | crossingTimeout (src : Nat) (dst : Nat)
  /-- SPIRE_SYNC_EDGE (R30). -/
  | spireSyncEdge
  /-- BACKSTOP_TIMEOUT (R41). -/
  | backstopTimeout (heartbeat : Bool)
  /-- DICTIONARY_WRITE (R11). -/
  | dictionaryWrite (path : Path) (index : Nat) (sub : Nat) (span : ByteSpan) (value : Nat)
  /-- RC_READ (R13). -/
  | rcRead (path : Path) (index : Nat) (sub : Nat) (update : Nat)
  /-- W1C_WRITE (R14). -/
  | w1cWrite (path : Path) (index : Nat) (sub : Nat) (value : Nat) (hwSet : Nat)
  /-- TIME_LOWER_READ (R9). -/
  | timeLowerRead (path : Path) (index : Nat) (sub : Nat)
  /-- TIME_LOWER_WRITE (R10). -/
  | timeLowerWrite (path : Path) (index : Nat) (sub : Nat) (value : Nat)
  /-- TIME_UPPER_WRITE (R10). -/
  | timeUpperWrite (path : Path) (index : Nat) (sub : Nat) (value : Nat)
  /-- LONG_ENTRY_FIRST_READ (R74). -/
  | longEntryFirstRead (path : Path) (index : Nat) (sub : Nat)
  /-- LONG_ENTRY_SLOT_WRITE (R75). -/
  | longEntrySlotWrite (path : Path) (index : Nat) (sub : Nat) (value : Nat)
  /-- HOST_WINDOW_LOW_READ (R781). -/
  | hostWindowLowRead (slot : SlotName) (span : ByteSpan)
  /-- HOST_WINDOW_HALF_WRITE (R88). -/
  | hostWindowHalfWrite (index : Nat) (sub : Nat) (upper : Bool) (value : Nat)
  /-- RING_DICT_REQUEST (R94). -/
  | ringDictRequest (src : Nat) (dst : Nat) (op : Nat) (tag : Nat) (index : Nat) (sub : Nat) (count : Nat) (data : List Nat)
  /-- MAILBOX_READ (R99). -/
  | mailboxRead (path : Path)
  /-- MAILBOX_WRITE (R99). -/
  | mailboxWrite (path : Path)
  /-- MAILBOX_RESPONSE (R99). -/
  | mailboxResponse (tag : Nat) (status : Nat) (data : Nat)
  /-- MAILBOX_TIMEOUT (R99). -/
  | mailboxTimeout
  /-- STORE_PARAMETERS (R102). -/
  | storeParameters (path : Path) (value : Nat)
  /-- STORE_COMPLETE (R106). -/
  | storeComplete (ok : Bool)
  /-- RESTORE_DEFAULT_PARAMETERS (R110). -/
  | restoreDefaultParameters (path : Path) (value : Nat)
  /-- CONFIGURATION_LOAD_DONE (R107). -/
  | configurationLoadDone
  /-- CONFIGURATION_COMMIT (R109). -/
  | configurationCommit (path : Path) (value : Nat)
  /-- LINK_DOWN_RESTART (R128). -/
  | linkDownRestart (port : Port)
  /-- LINK_SIGNAL_DETECT (R128). -/
  | linkSignalDetect (port : Port)
  /-- BLOCK_LOCK (R128). -/
  | blockLock (port : Port)
  /-- ALIGN_LOCK (R124). -/
  | alignLock (port : Port) (skew : Nat)
  /-- FEC_LOCK (R128). -/
  | fecLock (port : Port)
  /-- HELLO_RECEIVED (R129). -/
  | helloReceived (port : Port) (version : Nat) (sender : Port) (remoteFault : Bool) (hub : Nat)
  /-- LINK_STATE_TIMEOUT (R128). -/
  | linkStateTimeout (port : Port)
  /-- HOLD_DOWN_EXPIRY (R128). -/
  | holdDownExpiry (port : Port)
  /-- HELLO_SEND (R128). -/
  | helloSend (port : Port)
  /-- LINK_TRAIN_FAIL_TIMER (R132). -/
  | linkTrainFailTimer (port : Port)
  /-- LINK_FAILURE (R166). -/
  | linkFailure (port : Port) (cause : LinkCause)
  /-- ERROR_TAKEDOWN (R165). -/
  | errorTakedown (port : Port) (found : ErrorCount)
  /-- FRAME_RECEIVE (R148). -/
  | frameReceive (port : Port) (frame : Frame) (hop : Nat) (check : FrameCheck)
  /-- FRAME_SEND (R147). -/
  | frameSend (point : SendPoint)
  /-- PRESENCE_SEND (R160). -/
  | presenceSend
  /-- PRESENCE (R164). -/
  | presence (ring : RingId) (src : Nat) (hop : Nat) (role : Nat) (mode : Nat) (serial : Nat)
  /-- PRESENCE_TIMEOUT (R164). -/
  | presenceTimeout (hub : Nat) (ring : RingId)
  /-- CLAIM_SEND (R160). -/
  | claimSend
  /-- CLAIM (R161). -/
  | claim (number : Nat) (role : Nat) (serial : Nat)
  /-- OFFER (R160). -/
  | offer (number : Nat) (serial : Nat)
  /-- CONFLICT (R66). -/
  | conflict (number : Nat) (serial : Nat)
  /-- CLAIM_TIMER_EXPIRY (R160). -/
  | claimTimerExpiry
  /-- LINK_STATE (R167). -/
  | linkState (src : Nat) (port : Port) (up : Bool)
  /-- RING_PORT_RETRAIN (R170). -/
  | ringPortRetrain (path : Path) (sub : Nat) (value : Nat)
  /-- TRANSMIT_DISABLE_WRITE (R170). -/
  | transmitDisableWrite (path : Path) (value : Nat)
  /-- RING_FRAME_ADMIT (R186). -/
  | ringFrameAdmit (port : Port) (frame : Frame)
  /-- CREDITED_FRAME_START (R184). -/
  | creditedFrameStart (port : Fin 8)
  /-- CELL_GRANT (R193). -/
  | cellGrant
  /-- OUTPUT_CREDIT_RETURN (R199). -/
  | outputCreditReturn (port : Fin 8) (cls : Cls)
  /-- AGEING_SCAN (R201). -/
  | ageingScan
  /-- BUFFER_CENSUS (R208). -/
  | bufferCensus (upsets : CellUpset) (skew : List Nat)
  /-- LOCATE_PASS (R210). -/
  | locatePass (lost : List Nat)
  /-- VOTE_MINORITY (R225). -/
  | voteMinority (channel : Fin 3) (group : Nat)
  /-- VOTE_SPLIT (R227). -/
  | voteSplit (cause : Nat) (group : Nat)
  /-- DIGEST_COMPARE (R229): `upsets`, the slices of a channel's control state that have changed by a fault since the last sweep
  (channel, slice). -/
  | digestCompare (upsets : List (Nat × Nat × Word))
  /-- CHANNEL_TREE_CHECK (R230). -/
  | channelTreeCheck (channel : Fin 3) (ok : Bool)
  /-- CHANNEL_SELFTEST_DONE (R231). -/
  | channelSelftestDone (channel : Fin 3) (pass : Bool)
  /-- CHECKPOINT_LOADED (R232). -/
  | checkpointLoaded (channel : Fin 3) (same : Bool)
  /-- REPLAY_CAUGHT_UP (R234). -/
  | replayCaughtUp (channel : Fin 3) (upsets : List (Nat × Word))
  /-- REPLAY_LOG_FULL (R235). -/
  | replayLogFull (channel : Fin 3)
  /-- PROBATION_EXPIRY (R231). -/
  | probationExpiry (channel : Fin 3)
  /-- CHANNEL_RELEASE (R240). -/
  | channelRelease (path : Path) (value : Nat)
  /-- CANOPY_REQUEST_ISSUE (R264). -/
  | canopyRequestIssue (req : CReq)
  /-- CANOPY_HOME_REQUEST (R264). -/
  | canopyHomeRequest (req : CReq)
  /-- CANOPY_HOLDER_REQUEST (R271). -/
  | canopyHolderRequest (req : CReq)
  /-- CANOPY_RESPONSE (R265). -/
  | canopyResponse (resp : CResp)
  /-- RETRY_DELAY_EXPIRY (R265). -/
  | retryDelayExpiry (port : Nat) (tag : Nat)
  /-- ORDER_GAP_TIMEOUT (R274). -/
  | orderGapTimeout (src : Nat) (port : Nat) (cls : Cls)
  /-- FLOW_STATE_EXPIRY (R275). -/
  | flowStateExpiry (src : Nat) (port : Nat) (cls : Cls)
  /-- WRITE_ACK_TIMER (R270). -/
  | writeAckTimer (src : Nat) (port : Nat) (cls : Cls)
  /-- COMPLETION_TIMEOUT (R281). -/
  | completionTimeout (port : Nat) (tag : Nat)
  /-- BARRIER (R276). -/
  | barrier (port : Nat)
  /-- REACH_LIFETIME_EXPIRY (R262). -/
  | reachLifetimeExpiry (handle : Nat)
  /-- REACH_FLUSH (R262). -/
  | reachFlush (path : Path) (value : Nat)
  /-- MOVE_TIME_LIMIT_EXPIRY (R280). -/
  | moveTimeLimitExpiry (slot : Nat)
  /-- DEFINITION_WRITE (R291). -/
  | definitionWrite (path : Path) (slot : Nat) (field : Nat) (value : Nat)
  /-- PLACEMENT_RUN (R301). -/
  | placementRun
  /-- PLACEMENT_RETRY (R306). -/
  | placementRetry
  /-- SCORING_INTERVAL (R297). -/
  | scoringInterval
  /-- MOVE_REQUEST_START (R308). -/
  | moveRequestStart (path : Path) (value : Nat)
  /-- MIGRATION_OFFER (R313). -/
  | migrationOffer (src : Nat) (tag : Nat) (handle : Nat) (kind : Nat) (length : Nat) (placement : Nat) (defn : ObjDef)
  /-- MIGRATION_ANSWER (R313). -/
  | migrationAnswer (src : Nat) (tag : Nat) (handle : Nat) (status : Nat) (base : Nat)
  /-- MIGRATION_DRAIN (R278). -/
  | migrationDrain (src : Nat) (tag : Nat) (handle : Nat) (target : Nat) (switchNs : Nat)
  /-- MIGRATION_DRAINED (R278). -/
  | migrationDrained (src : Nat) (tag : Nat) (handle : Nat) (status : Nat)
  /-- MIGRATION_DATA (R315). -/
  | migrationData (src : Nat) (tag : Nat) (handle : Nat) (first : Nat) (words : List Word)
  /-- MIGRATION_INSTALLED (R316). -/
  | migrationInstalled (src : Nat) (tag : Nat) (handle : Nat) (received : Nat)
  /-- MIGRATION_COMMIT (R278). -/
  | migrationCommit (src : Nat) (tag : Nat) (handle : Nat) (terms : CommitTerms)
  /-- MIGRATION_ABORT (R280). -/
  | migrationAbort (src : Nat) (tag : Nat) (handle : Nat)
  /-- MIGRATION_CENSUS (R302). -/
  | migrationCensus (src : Nat) (tag : Nat) (handles : List Nat)
  /-- MIGRATION_HELD (R302). -/
  | migrationHeld (src : Nat) (held : List (Nat × Nat))
  /-- MIGRATION_GROUP (R313). -/
  | migrationGroup (src : Nat) (tag : Nat) (handle : Nat) (install : Bool)
  /-- MIGRATION_SCORE (R297). -/
  | migrationScore (src : Nat) (handle : Nat) (scores : List (Nat × Nat))
  /-- MIGRATION_ACK (R313). -/
  | migrationAck (src : Nat) (tag : Nat) (handle : Nat)
  /-- MIGRATION_RESEND (R314). -/
  | migrationResend (tag : Nat)
  /-- CENSUS_TIMEOUT (R302). -/
  | censusTimeout
  /-- HANDOVER_HALT (R320). -/
  | handoverHalt (source : Fin 64) (readOk : Bool)
  /-- CYCLE_START (R331). -/
  | cycleStart
  /-- OUTPUT_INSTANT (R341). -/
  | outputInstant
  /-- CONTRIBUTION_RECEIVE (R337). -/
  | contributionReceive (src : Nat) (tag : Nat) (index : Nat) (head : ContributionHead) (words : List Word)
  /-- REBIND_NOTICE (R339). -/
  | rebindNotice (code : Nat) (handle : Nat) (holder : Nat) (slot : Nat) (cycle : Nat)
  /-- CYCLE_WORK_COMPLETE (R350). -/
  | cycleWorkComplete
  /-- CYCLE_WATCHDOG_EXPIRY (R354). -/
  | cycleWatchdogExpiry (contributions : Bool)
  /-- ANNOUNCE_SEND (R364). -/
  | announceSend
  /-- ANNOUNCE (R365). -/
  | announce (src : Nat) (cls : Nat) (locked : Bool)
  /-- ANNOUNCE_TIMEOUT (R366). -/
  | announceTimeout (hub : Nat)
  /-- SYNC_SEND (R373). -/
  | syncSend (ring : RingId)
  /-- SYNC (R380). -/
  | sync (ring : RingId) (master : Nat) (cls : Nat) (hops : Nat) (seq : Nat) (originPs : Nat) (pathNs : Nat) (rtNs : Nat) (arrivalPs : Nat)
  /-- SPIRE_STEP (R376). -/
  | spireStep
  /-- DELAY_REQ_SEND (R370). -/
  | delayReqSend (port : Port) (t1Ps : Nat)
  /-- DELAY_REQ (R370). -/
  | delayReq (port : Port) (src : Nat) (seq : Nat) (t2Ps : Nat)
  /-- DELAY_RESP (R371). -/
  | delayResp (port : Port) (seq : Nat) (t3Seq : Nat) (t2Ps : Nat) (t3Ps : Nat) (t4Ps : Nat) (errorBlock : Bool)
  /-- DELAY_RESP_TIMEOUT (R371). -/
  | delayRespTimeout (port : Port)
  /-- CHAIN_SWITCH (R383). -/
  | chainSwitch
  /-- HOLDOVER_ENTRY (R384). -/
  | holdoverEntry
  /-- HOLDOVER_LIMIT_EXPIRY (R386). -/
  | holdoverLimitExpiry
  /-- HOLDOVER_CALIBRATE (R387). -/
  | holdoverCalibrate (increment : Nat)
  /-- SPIRE_ISLAND_FAULT (R388). -/
  | spireIslandFault
  /-- PPS_OUT_EDGE (R390). -/
  | ppsOutEdge
  /-- PPS_OUT_WIDTH_END (R390). -/
  | ppsOutWidthEnd
  /-- PPS_IN_EDGE (R391). -/
  | ppsInEdge (stampNs : Nat)
  /-- PPS_IN_TIMEOUT (R393). -/
  | ppsInTimeout
  /-- SYS_NOP (R413). -/
  | sysNop (engine : Fin 64) (pins : Byte)
  /-- SYS_HALT (R413). -/
  | sysHalt (engine : Fin 64) (pins : Byte)
  /-- SYS_SIG (R413). -/
  | sysSig (engine : Fin 64) (pins : Byte) (code : Nat)
  /-- SYS_STAMP (R413). -/
  | sysStamp (engine : Fin 64) (pins : Byte)
  /-- SYS_CLRM (R413). -/
  | sysClrm (engine : Fin 64) (pins : Byte)
  /-- BR (R413). -/
  | br (engine : Fin 64) (pins : Byte) (cond : Nat) (target : Nat)
  /-- BRP (R413). -/
  | brp (engine : Fin 64) (pins : Byte) (level : Bool) (pin : Fin 8) (target : Nat)
  /-- DBNZ (R413). -/
  | dbnz (engine : Fin 64) (pins : Byte) (target : Nat)
  /-- AWAIT (R415). -/
  | await (engine : Fin 64) (pins : Byte) (flagForm : Bool) (event : Nat) (pin : Fin 8)
  /-- DRIVE_LOW (R413). -/
  | driveLow (engine : Fin 64) (pins : Byte) (mask : Byte)
  /-- DRIVE_HIGH (R413). -/
  | driveHigh (engine : Fin 64) (pins : Byte) (mask : Byte)
  /-- DRIVE_RELEASE (R413). -/
  | driveRelease (engine : Fin 64) (pins : Byte) (mask : Byte)
  /-- DRIVE_TOGGLE (R413). -/
  | driveToggle (engine : Fin 64) (pins : Byte) (mask : Byte)
  /-- SHIFT_IN (R413). -/
  | shiftIn (engine : Fin 64) (pins : Byte) (msbFirst : Bool) (pin : Fin 8)
  /-- SHIFT_OUT (R413). -/
  | shiftOut (engine : Fin 64) (pins : Byte) (msbFirst : Bool) (pin : Fin 8)
  /-- TAKE (R413). -/
  | take (engine : Fin 64) (pins : Byte) (dst : Fin 4)
  /-- PUT (R413). -/
  | put (engine : Fin 64) (pins : Byte) (src : Fin 4) (endMark : Bool) (count : Nat)
  /-- COPY (R413). -/
  | copy (engine : Fin 64) (pins : Byte) (dst : Nat) (src : Nat)
  /-- ALU_ADD (R413). -/
  | aluAdd (engine : Fin 64) (pins : Byte) (dst : Fin 4) (imm : Bool) (operand : Nat)
  /-- ALU_SUB (R413). -/
  | aluSub (engine : Fin 64) (pins : Byte) (dst : Fin 4) (imm : Bool) (operand : Nat)
  /-- ALU_AND (R413). -/
  | aluAnd (engine : Fin 64) (pins : Byte) (dst : Fin 4) (imm : Bool) (operand : Nat)
  /-- ALU_OR (R413). -/
  | aluOr (engine : Fin 64) (pins : Byte) (dst : Fin 4) (imm : Bool) (operand : Nat)
  /-- ALU_XOR (R413). -/
  | aluXor (engine : Fin 64) (pins : Byte) (dst : Fin 4) (imm : Bool) (operand : Nat)
  /-- ALU_SHL (R413). -/
  | aluShl (engine : Fin 64) (pins : Byte) (dst : Fin 4) (imm : Bool) (operand : Nat)
  /-- ALU_SHR (R413). -/
  | aluShr (engine : Fin 64) (pins : Byte) (dst : Fin 4) (imm : Bool) (operand : Nat)
  /-- ALU_NOT (R413). -/
  | aluNot (engine : Fin 64) (pins : Byte) (dst : Fin 4) (imm : Bool) (operand : Nat)
  /-- ALU_REV (R413). -/
  | aluRev (engine : Fin 64) (pins : Byte) (dst : Fin 4) (imm : Bool) (operand : Nat)
  /-- LDI (R413). -/
  | ldi (engine : Fin 64) (pins : Byte) (dst : Fin 4) (imm : Nat)
  /-- ARM (R413). -/
  | arm (engine : Fin 64) (pins : Byte) (fromCmp : Bool) (imm : Bool) (operand : Nat)
  /-- HALT (R425). -/
  | halt (path : Path) (engine : Fin 64)
  /-- RESUME (R425). -/
  | resume (path : Path) (engine : Fin 64)
  /-- LOAD (R426). -/
  | load (path : Path) (engine : Fin 64) (image : Nat)
  /-- LOAD_CLEAN (R426). -/
  | loadClean (path : Path) (engine : Fin 64) (image : Nat) (pins : Byte)
  /-- STEP (R425). -/
  | engineStep (path : Path) (engine : Fin 64) (pins : Byte)
  /-- FLUSH (R425). -/
  | flush (path : Path) (engine : Fin 64)
  /-- TXQ_REFILL (R418). -/
  | txqRefill (engine : Fin 64)
  /-- RXQ_DRAIN (R418). -/
  | rxqDrain (engine : Fin 64)
  /-- PIN_DRIVER_DIAGNOSIS (R410). -/
  | pinDriverDiagnosis (fio : Nat)
  /-- ENGINE_CHECK_FAILURE (R430). -/
  | engineCheckFailure (engine : Fin 64) (cause : Nat)
  /-- ENGINE_SELFTEST (R431). -/
  | engineSelftest (failed : List Nat)
  /-- FIFO_WORD_WRITE (R448). -/
  | fifoWordWrite (fifo : Fin 128) (word : XWord)
  /-- FIFO_NARROW_WRITE (R442). -/
  | fifoNarrowWrite (fifo : Fin 128) (wide : Bool) (value : Nat) (endMark : Bool)
  /-- FIFO_READ (R446). -/
  | fifoRead (fifo : Fin 128)
  /-- MARK (R446). -/
  | mark (path : Path) (fifo : Fin 128)
  /-- REWIND (R446). -/
  | rewind (path : Path) (fifo : Fin 128)
  /-- RELEASE (R446). -/
  | release (path : Path) (fifo : Fin 128) (count : Nat)
  /-- PAGE_BUDGET_WRITE (R439). -/
  | pageBudgetWrite (path : Path) (fifo : Fin 128) (value : Nat)
  /-- STOP_TIMEOUT (R455). -/
  | stopTimeout (fifo : Fin 128)
  /-- IDLE_TIMEOUT (R457). -/
  | idleTimeout (fifo : Fin 128)
  /-- STREAM_DATA_SEND (R462). -/
  | streamDataSend (fifo : Fin 128)
  /-- STREAM_DATA (R463). -/
  | streamData (src : Nat) (handle : Nat) (first : Nat) (words : List StreamWord)
  /-- STREAM_CREDIT (R462). -/
  | streamCredit (handle : Nat) (limit : Nat) (expected : Nat)
  /-- CREDIT_PERIODIC (R461). -/
  | creditPeriodic (fifo : Fin 128)
  /-- STREAM_RESEND_TIMEOUT (R462). -/
  | streamResendTimeout (fifo : Fin 128)
  /-- CAN_FRAME_RECEIVE (R486). -/
  | canFrameReceive (ctl : Fin 16) (frame : CanFrame) (err : CanError)
  /-- TRANSMIT_REQUEST (R481). -/
  | transmitRequest (path : Path) (ctl : Fin 16) (buf : Nat)
  /-- TRANSMIT_ABORT (R484). -/
  | transmitAbort (path : Path) (ctl : Fin 16) (buf : Nat)
  /-- CAN_TRANSMIT_ATTEMPT (R483). -/
  | canTransmitAttempt (ctl : Fin 16)
  /-- CAN_TRANSMIT_END (R484). -/
  | canTransmitEnd (ctl : Fin 16) (result : TxResult) (loopDelayNs : Nat)
  /-- BUS_OFF_RECOVERY_DONE (R491). -/
  | busOffRecoveryDone (ctl : Fin 16)
  /-- BUS_INTEGRATION_DONE (R477). -/
  | busIntegrationDone (ctl : Fin 16)
  /-- CAN_SETTINGS_WRITE (R477). -/
  | canSettingsWrite (path : Path) (ctl : Fin 16) (sub : Nat) (value : Nat)
  /-- BUS_OFF_RESTART (R493). -/
  | busOffRestart (path : Path) (ctl : Fin 16)
  /-- CLEAR_BUS_OFF_RECORD (R493). -/
  | clearBusOffRecord (path : Path) (ctl : Fin 16)
  /-- STUCK_DOMINANT (R494). -/
  | stuckDominant (ctl : Fin 16)
  /-- BUFFER_INFO_READ (R480). -/
  | bufferInfoRead (path : Path) (ctl : Fin 16) (buf : Fin 64)
  /-- SDO_DOWNLOAD_INITIATE (R502). -/
  | sdoDownloadInitiate (ch : Fin 4) (index : Nat) (sub : Nat) (expedited : Bool) (data : List Byte)
  /-- SDO_DOWNLOAD_SEGMENT (R502). -/
  | sdoDownloadSegment (ch : Fin 4) (toggle : Bool) (data : List Byte) (last : Bool)
  /-- SDO_UPLOAD_INITIATE (R502). -/
  | sdoUploadInitiate (ch : Fin 4) (index : Nat) (sub : Nat)
  /-- SDO_UPLOAD_SEGMENT (R502). -/
  | sdoUploadSegment (ch : Fin 4) (toggle : Bool)
  /-- SDO_BLOCK_DOWNLOAD (R502). -/
  | sdoBlockDownload (ch : Fin 4) (index : Nat) (sub : Nat) (data : List Byte) (crcOk : Bool)
  /-- SDO_BLOCK_UPLOAD (R502). -/
  | sdoBlockUpload (ch : Fin 4) (index : Nat) (sub : Nat) (blockSize : Nat)
  /-- SDO_ABORT_TRANSFER (R502). -/
  | sdoAbortTransfer (ch : Fin 4)
  /-- SDO_SEGMENT_TIMEOUT (R502). -/
  | sdoSegmentTimeout (ch : Fin 4)
  /-- HEARTBEAT_SEND (R503). -/
  | heartbeatSend
  /-- NODE_ID_WRITE (R500). -/
  | nodeIdWrite (path : Path) (value : Nat)
  /-- PROCESS_OBJECT_READ (R506). -/
  | processObjectRead (path : Path) (index : Nat) (sub : Nat)
  /-- PROCESS_OBJECT_WRITE (R507). -/
  | processObjectWrite (path : Path) (index : Nat) (sub : Nat) (value : Nat)
  /-- SLEEP_PROPOSE (R514). -/
  | sleepPropose (wakeIn : Nat)
  /-- PROPOSE (R513). -/
  | propose (origin : Nat) (round : Nat) (present : Nat) (wakeIn : Nat)
  /-- CONSENT (R514). -/
  | consent (src : Nat) (origin : Nat) (round : Nat)
  /-- REFUSE (R539). -/
  | refuse (src : Nat) (origin : Nat) (round : Nat) (reasons : Nat)
  /-- SLEEP_ROUND_TIMEOUT (R514). -/
  | sleepRoundTimeout
  /-- SLEEP_RETRY (R514). -/
  | sleepRetry (wakeIn : Nat)
  /-- COMMIT_RESEND (R516). -/
  | commitResend
  /-- COMMIT (R518). -/
  | commit (origin : Nat) (round : Nat) (tnNs : Nat)
  /-- ABORT (R521). -/
  | abort (src : Nat) (origin : Nat) (round : Nat) (reasons : Nat)
  /-- SLEEP_ABORT (R519). -/
  | sleepAbort (reasons : Nat)
  /-- DRAIN_TIME_START (R518). -/
  | drainTimeStart
  /-- ABORT_MARGIN_START (R518). -/
  | abortMarginStart
  /-- POINT_OF_NO_RETURN (R675). -/
  | pointOfNoReturn
  /-- DORMANT_REACHED (R676). -/
  | dormantReached
  /-- WAKE_ACCEPTED (R532). -/
  | wakeAccepted (source : Nat)
  /-- WAKE_PRODUCTIVITY_TIMEOUT (R534). -/
  | wakeProductivityTimeout (source : Nat)
  /-- WAKE_CONFIRMATION (R534). -/
  | wakeConfirmation (path : Path) (value : Nat)
  /-- WAKE_UNMASK (R536). -/
  | wakeUnmask (path : Path) (value : Nat)
  /-- PN_FRAME_DECODE (R529). -/
  | pnFrameDecode (ctl : Fin 16) (frame : CanFrame) (err : CanError)
  /-- DORMANT_WAKE (R679). -/
  | dormantWake (kat : Nat) (imageOk : Bool) (channelsFailed : Nat) (enginesFailed : Nat) (busOk : Bool) (domeOk : Bool)
  /-- POWER_GOOD_POLL (R679). -/
  | powerGoodPoll (rail : Fin 4) (status : Nat)
  /-- POWER_GOOD_TIMEOUT (R681). -/
  | powerGoodTimeout (rail : Fin 4)
  /-- T1S_FRAME_RECEIVE (R557). -/
  | t1sFrameReceive (port : Fin 4) (bytes : List Byte) (fcsOk : Bool) (sfdNs : Nat)
  /-- T1S_TRANSMIT_ATTEMPT (R551). -/
  | t1sTransmitAttempt (port : Fin 4) (mediumFree : Bool)
  /-- T1S_COLLISION (R549). -/
  | t1sCollision (port : Fin 4) (late : Bool)
  /-- BACKOFF_EXPIRY (R549). -/
  | backoffExpiry (port : Fin 4)
  /-- T1S_TRANSMIT_DONE (R564). -/
  | t1sTransmitDone (port : Fin 4)
  /-- BEACON (R553). -/
  | beacon (port : Fin 4)
  /-- BEACON_SEND (R552). -/
  | beaconSend (port : Fin 4)
  /-- TO_TIMER_EXPIRY (R552). -/
  | toTimerExpiry (port : Fin 4)
  /-- PLCA_BEACON_TIMEOUT (R553). -/
  | plcaBeaconTimeout (port : Fin 4)
  /-- TRANSMIT_DOORBELL (R566). -/
  | transmitDoorbell (path : Path) (port : Fin 4) (value : Nat)
  /-- POLL_INTERVAL (R566). -/
  | pollInterval (port : Fin 4)
  /-- BAR2_WRITE (R573). -/
  | bar2Write (offset : Nat) (bytes : List Byte) (poisoned : Bool) (requester : Nat)
  /-- BAR2_READ (R575). -/
  | bar2Read (offset : Nat) (length : Nat) (requester : Nat)
  /-- ATOMIC_FETCHADD (R578). -/
  | atomicFetchadd (bar2 : Bool) (offset : Nat) (addend : Nat)
  /-- ATOMIC_CAS (R578). -/
  | atomicCas (bar2 : Bool) (offset : Nat) (expected : Nat) (value : Nat)
  /-- HOST_WRITE_FAILURE (R579). -/
  | hostWriteFailure (address : Nat) (requester : Nat) (tag : Nat) (status : Nat)
  /-- BARRIER_READ (R581). -/
  | barrierRead (path : Path)
  /-- MSIX_MESSAGE (R584). -/
  | msixMessage (vector : Fin 32)
  /-- BRIDGE_RESET (R594). -/
  | bridgeReset
  /-- HOST_LINK_UP (R594). -/
  | hostLinkUp (speed : Nat) (width : Nat)
  /-- QSPI_WRITE (R591). -/
  | qspiWrite (address : Nat) (bytes : List Byte)
  /-- QSPI_READ (R590). -/
  | qspiRead (address : Nat) (length : Nat)
  /-- READ_RESULT (R590). -/
  | readResult (tag : Nat)
  /-- QSPI_FETCH_ADD (R588). -/
  | qspiFetchAdd (address : Nat) (addend : Nat)
  /-- QSPI_CAS (R588). -/
  | qspiCas (address : Nat) (expected : Nat) (value : Nat)
  /-- RESULT_HOLD_EXPIRY (R590). -/
  | resultHoldExpiry (tag : Nat)
  /-- SEAL_FRAME (R608). -/
  | sealFrame (frame : Frame)
  /-- OPEN_FRAME (R611). -/
  | openFrame (frame : Frame)
  /-- EPOCH_GRACE_EXPIRY (R611). -/
  | epochGraceExpiry (src : Nat) (slot : Nat)
  /-- REKEY_INTERVAL_EXPIRY (R606). -/
  | rekeyIntervalExpiry
  /-- EPOCH_ADVANCE (R606). -/
  | epochAdvance (path : Path)
  /-- SELF_TESTS (R623). -/
  | selfTests (path : Path) (results : Nat)
  /-- ZEROISE (R626). -/
  | zeroise (path : Path)
  /-- CEILING_WRITE_DONE (R603). -/
  | ceilingWriteDone (ok : Bool)
  /-- EPOCH_WRITE_RETRY (R604). -/
  | epochWriteRetry
  /-- INSTALL_COMMAND (R600). -/
  | installCommand (path : Path) (value : Nat)
  /-- SESSION_END (R619). -/
  | sessionEnd (path : Path)
  /-- OPERATOR_ROLE_REQUEST (R617). -/
  | operatorRoleRequest (path : Path)
  /-- CRYPTO_OFFICER_ROLE_REQUEST (R617). -/
  | cryptoOfficerRoleRequest (path : Path)
  /-- RESPONSE_WRITE (R617). -/
  | responseWrite (path : Path) (response : List Byte)
  /-- CHALLENGE_EXPIRY (R618). -/
  | challengeExpiry (path : Path)
  /-- ROLE_LOCKOUT_EXPIRY (R618). -/
  | roleLockoutExpiry (path : Path)
  /-- SESSION_IDLE_TIMEOUT (R619). -/
  | sessionIdleTimeout (path : Path)
  /-- TAMPER_EVENT (R625). -/
  | tamperEvent (kind : Nat)
  /-- CONVERSION_ROUND (R645). -/
  | conversionRound (samples : List FuseSample) (ain : List Nat) (die : List Int)
  /-- SOFT_START_STEP (R643). -/
  | softStartStep (ch : Fin 16) (atLimit : Bool)
  /-- ON_REQUEST_CHANGE (R641). -/
  | onRequestChange (ch : Fin 16) (on : Bool)
  /-- FAST_COMPARATOR_TRIP (R648). -/
  | fastComparatorTrip (ch : Fin 16)
  /-- RAMP_TIMEOUT (R644). -/
  | rampTimeout (ch : Fin 16)
  /-- OVERCURRENT_DELAY_EXPIRY (R648). -/
  | overcurrentDelayExpiry (ch : Fin 16)
  /-- GATE_SUSPECT_TIMEOUT (R656). -/
  | gateSuspectTimeout (ch : Fin 16)
  /-- COOLDOWN_EXPIRY (R651). -/
  | cooldownExpiry (ch : Fin 16)
  /-- RETRY_WINDOW_EXPIRY (R652). -/
  | retryWindowExpiry (ch : Fin 16)
  /-- PRESENCE_CHANGE (R654). -/
  | presenceChange (ch : Fin 16) (present : Bool)
  /-- CURRENT_LIMIT_WRITE (R655). -/
  | currentLimitWrite (path : Path) (ch : Fin 16) (value : Nat)
  /-- LIMIT_GRACE_EXPIRY (R655). -/
  | limitGraceExpiry (ch : Fin 16)
  /-- CHANNEL_ENABLE_WRITE (R784). -/
  | channelEnableWrite (path : Path) (ch : Fin 16) (value : Nat)
  /-- CLEAR_LOCKOUT (R656). -/
  | clearLockout (path : Path) (ch : Fin 16)
  /-- CLEAR_SUSPECT (R656). -/
  | clearSuspect (path : Path) (ch : Fin 16)
  /-- FET_SHORT_DETECT (R657). -/
  | fetShortDetect (ch : Fin 16)
  /-- GROVE_VOTE_CLEAR (R669). -/
  | groveVoteClear (grove : Fin 8) (vote : Nat)
  /-- OFF_DELAY_EXPIRY (R669). -/
  | offDelayExpiry (grove : Fin 8)
  /-- VOTE_RETURN (R670). -/
  | voteReturn (grove : Fin 8) (vote : Nat)
  /-- GROVE_SWITCH_ON (R671). -/
  | groveSwitchOn (grove : Fin 8) (listOk : Bool)
  /-- AVS_UPDATE (R683). -/
  | avsUpdate (ack : Nat) (currentMa : Nat)
  /-- AVS_RETRY (R684). -/
  | avsRetry (ack : Nat)
  /-- AVS_READBACK (R684). -/
  | avsReadback (mv : Nat)
  /-- PMBUS_RETRY (R686). -/
  | pmbusRetry (rail : Fin 4) (ok : Bool)
  /-- PMB_ALERT (R687). -/
  | pmbAlert (status : List Nat)
  /-- FAULT_RAISE (R691). -/
  | faultRaise (code : Nat) (island : Nat) (detailA : Nat) (detailB : Nat)
  /-- FAULT_CAUSE_GONE (R695). -/
  | faultCauseGone (code : Nat)
  /-- ACKNOWLEDGE (R704). -/
  | acknowledge (path : Path) (code : Nat)
  /-- ACKNOWLEDGE_ALL (R704). -/
  | acknowledgeAll (path : Path)
  /-- CAPTURE_REARM (R701). -/
  | captureRearm (path : Path) (value : Nat)
  /-- REACTION_WRITE (R780). -/
  | reactionWrite (path : Path) (code : Nat) (value : Nat)
  /-- INJECT (R710). -/
  | inject (path : Path)
  /-- WITHDRAW (R710). -/
  | withdraw (path : Path)
  /-- EVENT_RAISE (R712). -/
  | eventRaise (number : Nat) (inst : Nat) (value : Nat)
  /-- RING_EVENT (R715). -/
  | ringEvent (src : Nat) (channel : Fin 8) (number : Nat) (inst : Nat) (value : Nat) (sec : Nat) (ns : Nat)
  /-- BEGIN (R728). -/
  | updateBegin (path : Path) (flashOk : Bool)
  /-- FINISH (R728). -/
  | updateFinish (path : Path)
  /-- ACTIVATE (R732). -/
  | updateActivate (path : Path) (answers : List HubAnswer)
  /-- ABANDON (R728). -/
  | updateAbandon (path : Path)
  /-- CONFIRM (R725). -/
  | updateConfirm (path : Path)
  /-- REVERT (R727). -/
  | updateRevert (path : Path)
  /-- CONFIRM_DELAY_EXPIRY (R725). -/
  | confirmDelayExpiry
  /-- CHUNK_WRITE (R729). -/
  | chunkWrite (path : Path) (bytes : List Byte) (flashOk : Bool)
  /-- UPDATE_VERIFY_DONE (R730). -/
  | updateVerifyDone (result : Nat)
  /-- UPDATE_REQUEST (R731). -/
  | updateRequest (src : Nat) (tag : Nat) (staged : Bool) (offset : Nat) (length : Nat)
  /-- UPDATE_DATA (R731). -/
  | updateData (src : Nat) (tag : Nat) (status : Nat) (offset : Nat) (bytes : List Byte)
  /-- PULL_REQUEST_TIMEOUT (R731). -/
  | pullRequestTimeout (tag : Nat)
  /-- PULL_BUSY_WAIT (R731). -/
  | pullBusyWait
  /-- POWER_LOSS (R58). -/
  | powerLoss (aonHolds : Bool)
deriving DecidableEq, Repr

end Sys2Proof
end

