-- ==== Sys2Proof/Decode.lean ====
section
/-! DEFINITION. Decoding: no row of the opcode table gives bits, so no word spells a command (assumption log 1). -/

namespace Sys2Proof

/-- The command a word spells by the table's bits: none, since the table gives no row bits. -/
def decodeTableWord (nbits w : Nat) : Option Instr :=
  let _ := (nbits, w)
  none

end Sys2Proof
end

