-- ==== Sys2Proof/Config.lean ====
section
/-! DEFINITION. What a device fixes and the spec leaves to it (constants with no body: no proof can see their value),
the free values, and the cryptographic functions the spec names by their standards. -/

namespace Sys2Proof.Config

/-- 0x1018:02 bit [0]: the temperature grade (R1, R2, Table 1 of Scope and conventions). false: ZH4850, true: ZH4850-E. -/
opaque extendedGrade : Bool

/-- 0x1018:02, by grade (R2). -/
def productCode : BitVec 32 := if extendedGrade then 0x00004851 else 0x00004850

/-- The PCIe Device ID, by grade (R2, R571). -/
def pcieDeviceId : BitVec 16 := if extendedGrade then 0x4851 else 0x4850

/-- The JEP106 manufacturer code assigned to Larhal (R777). -/
opaque jep106Code : BitVec 11

/-- The JTAG IDCODE, by grade: stepping A1, part, manufacturer, 1 (R2, R777). -/
def jtagIdcode : BitVec 32 := (0x1 : BitVec 4) ++ pcieDeviceId ++ jep106Code ++ (1 : BitVec 1)

/-- The latch-up test temperature in °C, by grade (R2). -/
def latchUpTemperature : Nat := if extendedGrade then 125 else 105

/-- The default of 0x2E03:03, by grade (R716). -/
def dieTempDefault : Nat := if extendedGrade then 125 else 105

/-- 0x1018:04, per device (R116). -/
opaque serialNumber : BitVec 32

/-- 0x2001:01, per firmware (R116): [31:16] major, [15:0] minor. -/
opaque dictionaryFormat : BitVec 32

/-- 0x100A:00, per firmware (R116): its four slots. -/
opaque softwareVersion : Nat → BitVec 48

/-- 0x4F00:03 of the firmware the device was shipped with (R737). -/
opaque ringProtocolVersion : BitVec 16

/-- 0x4F00:04 of the firmware the device was shipped with (R737). -/
opaque firmwareVersion : BitVec 32

/-- 0x4D10:07, per device (R690). -/
opaque fusedCoreMv : BitVec 16

/-- 0x2910+p:02, per device and port (R568). -/
opaque macAddress : Nat → BitVec 48

/-- The device-unique key in one-time-programmable memory (R599). -/
opaque deviceKey : List (BitVec 8)

/-- AES-256 CMAC with a 128-bit tag (R597, NIST SP 800-38B): the function the standard names, its bytes in order from
bit [0]. -/
opaque cmac (key message : List (BitVec 8)) : BitVec 128

/-- The AES-256 GCM or GMAC tag (R597, NIST SP 800-38D): key, IV, additional authenticated data, ciphertext. -/
opaque gcmTag (key iv aad text : List (BitVec 8)) : BitVec 128

/-- Word `k` of the GCM key stream (R597, NIST SP 800-38D), which encryption and decryption both add to the payload. -/
opaque gcmStream (key iv : List (BitVec 8)) (k : Nat) : BitVec 48

/-- AES-256 KWP unwrapping (R597, RFC 5649): none where the integrity check fails. -/
opaque kwpUnwrap (key wrapped : List (BitVec 8)) : Option (List (BitVec 8))

/-- AES-256 KWP wrapping of a 256-bit key (R597, RFC 5649): 40 bytes. -/
opaque kwpWrap (key secret : List (BitVec 8)) : List (BitVec 8)

/-- The oldest migratable configuration format version of the firmware the device was shipped with (R718, R734). -/
opaque oldestMigratable : BitVec 32

/-- Byte `k` of the image the device was shipped with, and the image's length (R718). -/
opaque shippedImage : Nat → BitVec 8

/-- The length in bytes of the image the device was shipped with. -/
opaque shippedLength : Nat

/-- The conversion table of a firmware version (R734): the entry of this format that an entry of a record of an older format
becomes, none where the table does not map it. -/
opaque conversion (firmware record : Nat) (key : Nat) (value : BitVec 48) : Option (Nat × BitVec 48)

/-- The one-time-programmable key hash that an image's public key has under SHA-384 (R621, R718): none where it has none. -/
opaque otpKey (key : List (BitVec 8)) : Option (Fin 4)

/-- The 7 SECDED check bits every memory stores with a word (R33): the code is not given. -/
opaque checkBits : BitVec 48 → BitVec 7

/-- The next word of the 32-bit linear-feedback register that makes test words for Belfry's shadow slot (R228): no rule gives its taps. -/
opaque shadowPattern : BitVec 32 → BitVec 32

/-- The pinned hub in the definition of a PROGRAM homed elsewhere (R294): that definition is at its home, and no rule says how another
home learns it. -/
opaque pinnedHub : Nat → Nat

/-- The hub that holds a SIGNAL homed elsewhere (R299), for the same reason. -/
opaque signalHub : Nat → Nat

/-- The `n`-th free value the machine takes where the spec leaves a value open (assumption log 8). -/
opaque freeValue : Nat → BitVec 48

end Sys2Proof.Config
end

