-- ==== Sys2Proof/Machine/Entries.lean ====
section
/-! DEFINITION. The object dictionary's entry tables: for every index of the spec's entry tables its rows (first
subindex, stride and count of a pattern, type, access code, default, the bits its field map defines and the values
its range allows). One row here is one row of a table of the spec; R71 to R73 give the slot layout. -/

namespace Sys2Proof.Machine

/-- Entry types (Table 5 of Scope and conventions, R8). `slot` is a further slot of a long entry (R73): no entry of
its own. -/
inductive Ty where
  | bool | u8 | u16 | u32 | u48 | i48 | q24 | timeLo | timeHi
  | octets (bytes : Nat) | vstring (bytes : Nat) | slot
deriving DecidableEq, Repr

/-- Access codes (Table 6 of Scope and conventions, R12). -/
inductive Acc where
  | ro | rw | wo | rc | w1c | const | rwc
deriving DecidableEq, Repr

/-- One row of an entry table: subindices `sub + stride * m` for `m < reps`. -/
structure Row where
  sub    : Nat
  stride : Nat
  reps   : Nat
  ty     : Ty
  acc    : Acc
  dflt   : Nat
  /-- The bits the entry's field map defines; the others are reserved (R6). -/
  mask   : Nat
  /-- The values the range allows, as closed intervals; empty: any value of the type (R11). -/
  ok     : List (Nat × Nat)
deriving DecidableEq, Repr

/-- The rows of the indices `ix` to `ix + count - 1`. -/
structure Obj where
  ix    : Nat
  count : Nat
  rows  : List Row
deriving DecidableEq, Repr

/-- Bits of an entry type (R8). -/
def tyBits : Ty → Nat
  | .bool => 1
  | .u8 => 8
  | .u16 => 16
  | .u32 => 32
  | _ => 48

/-- A row whose field map defines every bit of its type. -/
def row (sub stride reps : Nat) (ty : Ty) (acc : Acc) (dflt : Nat) (ok : List (Nat × Nat)) : Row :=
  { sub, stride, reps, ty, acc, dflt, mask := 2 ^ tyBits ty - 1, ok }

/-- A row whose field map leaves bits reserved. -/
def rowM (sub stride reps : Nat) (ty : Ty) (acc : Acc) (dflt mask : Nat) (ok : List (Nat × Nat)) : Row :=
  { sub, stride, reps, ty, acc, dflt, mask, ok }

/-- Entry tables, part 0: indices 0x1000 to 0x2002. -/
def entries0 : List Obj :=
  [{ ix := 0x1000, count := 1, rows := [
     row 0 1 1 .u32 .const 0x1a1 []] },  -- Device type (R116)
   { ix := 0x1001, count := 1, rows := [
     row 0 1 1 .u8 .ro 0x0 []] },  -- Error register (R116)
   { ix := 0x1008, count := 1, rows := [
     row 0 1 1 (.vstring 24) .const 0x30353834485A [],  -- Device name (R116)
     row 1 1 1 .slot .const 0x6168726F5A20 [],  -- Device name (R116)
     row 2 1 1 .slot .const 0x627568206D [],  -- Device name (R116)
     row 3 1 1 .slot .const 0x0 []] },  -- Device name (R116)
   { ix := 0x1009, count := 1, rows := [
     row 0 1 1 (.vstring 6) .const 0x3141 []] },  -- Hardware version (R116)
   { ix := 0x100A, count := 1, rows := [
     row 0 1 1 (.vstring 24) .ro (Config.softwareVersion 0).toNat [],  -- Software version (R116)
     row 1 1 1 .slot .ro (Config.softwareVersion 1).toNat [],  -- Software version (R116)
     row 2 1 1 .slot .ro (Config.softwareVersion 2).toNat [],  -- Software version (R116)
     row 3 1 1 .slot .ro (Config.softwareVersion 3).toNat []] },  -- Software version (R116)
   { ix := 0x1010, count := 1, rows := [
     row 0 1 1 .u8 .const 0x1 [],  -- Highest subindex (R116)
     row 1 1 1 .u32 .rw 0x1 [(1702257011, 1702257011)]] },  -- Store parameters (R116)
   { ix := 0x1011, count := 1, rows := [
     row 0 1 1 .u8 .const 0x1 [],  -- Highest subindex (R116)
     row 1 1 1 .u32 .rwc 0x1 [(1684107116, 1684107116)]] },  -- Restore default parameters (R116)
   { ix := 0x1017, count := 1, rows := [
     row 0 1 1 .u16 .rw 1000 []] },  -- Producer heartbeat time (R508)
   { ix := 0x1018, count := 1, rows := [
     row 0 1 1 .u8 .const 0x4 [],  -- Highest subindex (R116)
     row 1 1 1 .u32 .const 0x4c7 [],  -- Vendor ID (R116)
     row 2 1 1 .u32 .const Config.productCode.toNat [],  -- Product code (R116)
     row 3 1 1 .u32 .const 0xa1 [],  -- Revision number (R116)
     row 4 1 1 .u32 .const Config.serialNumber.toNat []] },  -- Serial number (R116)
   { ix := 0x1200, count := 1, rows := [
     row 0 1 1 .u8 .const 0x2 [],  -- Highest subindex (R508)
     row 1 1 2 .u32 .ro 0 []] },  -- COB-ID client to server, server to client (R508); follows the node ID, R501
   { ix := 0x1201, count := 3, rows := [
     row 0 1 1 .u8 .const 0x3 [],  -- Highest subindex (R508)
     rowM 1 1 2 .u32 .rwc 0x80000000 0x800007FF [],  -- COB-ID client to server, server to client (R508)
     row 3 1 1 .u8 .rwc 0x0 [(0, 127)]] },  -- Node ID of the client (R508)
   { ix := 0x2000, count := 1, rows := [
     row 0 1 1 .u8 .const 0x14 [],  -- Highest subindex (R70)
     row 1 1 1 .u8 .ro 0x1 [],  -- Hub mode (R70)
     row 2 1 1 .u8 .wo 0x0 [(2, 2), (3, 3), (5, 5), (7, 7)],  -- Mode request (R70)
     row 3 1 1 .u8 .ro 0x0 [],  -- Previous mode (R70)
     row 4 1 1 .timeLo .ro 0 [],  -- Mode entry time, seconds (R70)
     row 5 1 1 .timeHi .ro 0 [],  -- Mode entry time, nanoseconds (R70)
     row 6 1 1 .u8 .ro 0x0 [],  -- LIMP causes (R70)
     row 7 1 1 .u8 .ro 0x1 [],  -- Reset cause (R70)
     row 8 1 1 .u16 .ro 0 [],  -- Sampled straps (R70)
     row 9 1 1 .u8 .ro 0x0 [],  -- Hub number (R70)
     row 10 1 1 .u8 .rwc 0 [(0, 254)],  -- Hub number request (R70)
     row 11 1 1 .u8 .rwc 0 [(0, 3)],  -- Ring role (R70)
     row 12 1 1 .u8 .ro 0 [],  -- Boot source (R70)
     row 13 1 1 .bool .ro 0 [],  -- Host interface (R70)
     row 14 1 1 .bool .ro 0 [],  -- Field-pin reset level (R70)
     row 15 1 1 .bool .rwc 0 [],  -- Autorun (R70)
     row 16 1 1 .bool .rwc 0 [],  -- CANopen node-ID source (R70)
     row 17 1 1 .u16 .ro 0x0 [],  -- Boot status (R70)
     row 18 1 1 .u16 .ro 0x0 [],  -- Commissioning gate (R70)
     row 19 1 1 .u16 .rwc 0x0 [],  -- Fuse channels powered outside RUN (R70)
     row 20 1 1 .u8 .wo 0x0 [(1, 1)]] },  -- Software reset (R70)
   { ix := 0x2001, count := 1, rows := [
     row 0 1 1 .u8 .const 0xc [],  -- Highest subindex (R116)
     row 1 1 1 .u32 .ro Config.dictionaryFormat.toNat [],  -- Dictionary format version (R116)
     row 2 1 1 .u32 .ro 0x0 [],  -- Loaded configuration format version (R116)
     row 3 1 1 .u8 .rwc 0x0 [(1, 1)],  -- Configuration commit (R116)
     row 4 1 1 .u8 .ro 0x0 [],  -- Store status (R116)
     row 5 1 1 .u32 .ro 0x0 [],  -- Store sequence number (R116)
     row 6 1 1 .timeLo .ro 0 [],  -- Store time, seconds (R116)
     row 7 1 1 .timeHi .ro 0 [],  -- Store time, nanoseconds (R116)
     row 8 1 1 .bool .rw 1 [],  -- SDO write enable (R116)
     row 9 1 4 .u8 .rw 0x0 [(0, 254)]] },  -- Managing hub 0 to 3 (R116)
   { ix := 0x2002, count := 1, rows := [
     row 0 1 1 .u8 .const 0x6 [],  -- Highest subindex (R116)
     row 1 1 1 .u8 .rw 0x0 [(1, 254)],  -- Mailbox target hub (R116)
     row 2 1 1 .u16 .rw 0x0 [],  -- Mailbox index (R116)
     row 3 1 1 .u8 .rw 0x0 [],  -- Mailbox subindex (R116)
     row 4 1 1 .u48 .rw 0 [],  -- Mailbox data (R116)
     row 5 1 1 .u8 .wo 0x0 [(1, 1), (2, 2)],  -- Mailbox operation (R116)
     row 6 1 1 .u8 .ro 0x0 []] }]  -- Mailbox status (R116)

/-- Entry tables, part 1: indices 0x2100 to 0x2206. -/
def entries1 : List Obj :=
  [{ ix := 0x2100, count := 1, rows := [
     row 0 1 1 .u8 .const 0x9 [],  -- Highest subindex (R170)
     row 1 1 1 .bool .rwc 0 [],  -- FEC, East port (R170)
     row 2 1 1 .bool .rwc 0 [],  -- FEC, West port (R170)
     rowM 3 1 1 .u8 .rwc 0x0 0xF [],  -- Lane polarity, East (R170)
     rowM 4 1 1 .u8 .rwc 0x0 0xF [],  -- Lane polarity, West (R170)
     row 5 1 1 .u8 .rw 0x0 [(0, 2)],  -- Single-ring choice (R170)
     row 6 1 1 .u8 .rw 4 [(1, 16)],  -- Local share (R170)
     row 7 1 1 .u16 .rw 100 [(10, 10000)],  -- Hold-down time (R170)
     row 8 1 1 .u16 .rw 1000 [(1, 65535)],  -- Error takedown limit (R170)
     rowM 9 1 1 .u8 .rw 0x0 0x3 []] },  -- Transmit disable (R170)
   { ix := 0x2201, count := 1, rows := [
     row 0 1 1 .u8 .const 0x4 [],  -- Highest subindex (R215)
     row 1 1 1 .u16 .rwc 9216 [(0, 32768)],  -- Class reserve CY, UR, BK, MG (R215)
     row 2 1 1 .u16 .rwc 2048 [(0, 32768)],
     row 3 1 1 .u16 .rwc 3072 [(0, 32768)],
     row 4 1 1 .u16 .rwc 1024 [(0, 32768)]] },
   { ix := 0x2202, count := 1, rows := [
     row 0 1 1 .u8 .const 0x4 [],  -- Highest subindex (R215)
     row 1 1 1 .u16 .rw 16384 [(0, 32768)],  -- Class quota CY, UR, BK, MG (R215)
     row 2 1 1 .u16 .rw 8192 [(0, 32768)],
     row 3 1 1 .u16 .rw 24576 [(0, 32768)],
     row 4 1 1 .u16 .rw 4096 [(0, 32768)]] },
   { ix := 0x2203, count := 1, rows := [
     row 0 1 1 .u8 .const 0x4 [],  -- Highest subindex (R215)
     row 1 1 1 .u32 .rw 1000 [(10, 10000000)],  -- Age limit CY, UR, BK, MG (R215)
     row 2 1 1 .u32 .rw 2000 [(10, 10000000)],
     row 3 1 1 .u32 .rw 100000 [(10, 10000000)],
     row 4 1 1 .u32 .rw 1000000 [(10, 10000000)]] },
   { ix := 0x2204, count := 1, rows := [
     row 0 1 1 .u8 .const 0x3 [],  -- Highest subindex (R215)
     row 1 1 1 .u8 .rw 3 [(1, 16)],  -- BK weight (R215)
     row 2 1 1 .u8 .rw 1 [(1, 16)],  -- MG weight (R215)
     row 3 1 1 .u16 .rw 256 [(16, 4096)]] },  -- Starvation limit (R215)
   { ix := 0x2205, count := 1, rows := [
     row 0 1 1 .u8 .const 0x20 [],  -- Highest subindex (R215)
     row 1 1 8 .u16 .const 0 [],  -- Input credits, East and West (R215)
     row 9 1 1 .u16 .rwc 0 [(0, 32768)],  -- Input credits, ports 2 to 7 (R215)
     row 10 1 1 .u16 .rwc 64 [(0, 32768)],
     row 11 1 1 .u16 .rwc 256 [(0, 32768)],
     row 12 1 1 .u16 .rwc 32 [(0, 32768)],
     row 13 1 1 .u16 .rwc 0 [(0, 32768)],
     row 14 1 1 .u16 .rwc 256 [(0, 32768)],
     row 15 1 1 .u16 .rwc 512 [(0, 32768)],
     row 16 1 1 .u16 .rwc 32 [(0, 32768)],
     row 17 1 1 .u16 .rwc 0 [(0, 32768)],
     row 18 1 1 .u16 .rwc 128 [(0, 32768)],
     row 19 1 1 .u16 .rwc 256 [(0, 32768)],
     row 20 1 1 .u16 .rwc 32 [(0, 32768)],
     row 21 1 1 .u16 .rwc 512 [(0, 32768)],
     row 22 1 1 .u16 .rwc 256 [(0, 32768)],
     row 23 1 1 .u16 .rwc 512 [(0, 32768)],
     row 24 1 1 .u16 .rwc 64 [(0, 32768)],
     row 25 1 1 .u16 .rwc 0 [(0, 32768)],
     row 26 1 1 .u16 .rwc 64 [(0, 32768)],
     row 27 1 1 .u16 .rwc 256 [(0, 32768)],
     row 28 1 1 .u16 .rwc 256 [(0, 32768)],
     row 29 1 1 .u16 .rwc 1024 [(0, 32768)],
     row 30 1 1 .u16 .rwc 256 [(0, 32768)],
     row 31 1 1 .u16 .rwc 512 [(0, 32768)],
     row 32 1 1 .u16 .rwc 64 [(0, 32768)]] },
   { ix := 0x2206, count := 1, rows := [
     row 0 1 1 .u8 .const 0x8 [],  -- Highest subindex (R215)
     row 1 1 1 .u8 .const 16 [],  -- Output credit depth, ports 0 to 7 (R215)
     row 2 1 1 .u8 .const 16 [],
     row 3 1 1 .u8 .const 8 [],
     row 4 1 1 .u8 .const 16 [],
     row 5 1 1 .u8 .const 8 [],
     row 6 1 1 .u8 .const 32 [],
     row 7 1 1 .u8 .const 8 [],
     row 8 1 1 .u8 .const 32 []] }]

/-- Entry tables, part 2: indices 0x2207 to 0x2501. -/
def entries2 : List Obj :=
  [{ ix := 0x2207, count := 1, rows := [
     row 0 1 1 .u8 .const 0x6 [],  -- Highest subindex (R246)
     row 1 1 1 .bool .rw 1 [],  -- Rejoin enable (R246)
     row 2 1 1 .u32 .rw 1000 [(100, 100000)],  -- Probation time (R246)
     row 3 1 1 .u8 .rw 3 [(1, 254)],  -- Rejoin limit (R246)
     row 4 1 1 .u32 .rw 86400 [(60, 2592000)],  -- Rejoin window (R246)
     row 5 1 1 .u16 .rw 1 [(1, 1000)],  -- Digest period (R246)
     row 6 1 1 .u8 .rwc 0x0 [(0, 2)]] },  -- Channel release (R246)
   { ix := 0x2301, count := 1, rows := [
     row 0 1 1 .u8 .const 0x6 [],  -- Highest subindex (R287)
     row 1 1 1 .u32 .rw 30000 [(1000, 1000000)],  -- Completion timeout (R287)
     row 2 1 1 .u16 .rw 50 [(10, 1000)],  -- Order gap time (R287)
     row 3 1 1 .bool .rwc 0 [],  -- Remote physical write enable (R287)
     row 4 1 1 .u16 .rw 1000 [(10, 2000)],  -- Reach lifetime (R287)
     row 5 1 1 .u8 .wo 0x0 [(1, 1)],  -- Reach flush (R287)
     row 6 1 1 .u16 .rw 10 [(1, 1000)]] },  -- Move time limit (R287)
   { ix := 0x2302, count := 1, rows := [
     row 0 1 1 .u8 .const 0x30 [],  -- Highest subindex (R287)
     row 1 3 16 .u48 .rw 0 [],  -- Window w base (R287)
     row 2 3 16 .u32 .rw 0 [(0, 67108864)],  -- Window w size (R287)
     row 3 3 16 .u8 .rw 2 [(1, 3)]] },  -- Window w class (R287)
   { ix := 0x2303, count := 1, rows := [
     row 0 1 1 .u8 .const 0x3 [],  -- Highest subindex (R287)
     row 1 1 1 .u16 .rw 0x0 [(0, 4095)],  -- Map inspection slot (R287)
     row 2 1 1 .u48 .ro 0 [],  -- Map entry word 0 (R287)
     row 3 1 1 .u48 .ro 0 []] },  -- Map entry word 1 (R287)
   { ix := 0x2310, count := 1, rows := [
     row 0 1 1 .u8 .const 0xd [],  -- Highest subindex (R325)
     row 1 1 1 .u8 .rwc 1 [(1, 255)],  -- Hub zone (R325)
     row 2 1 1 .u8 .rw 0 [(0, 2)],  -- Movement freeze (R325)
     row 3 1 1 .u16 .rw 1000 [(100, 60000)],  -- Scoring interval (R325)
     row 4 1 1 .u8 .rw 25 [(5, 90)],  -- Move hysteresis (R325)
     row 5 1 1 .u32 .rw 60 [(1, 86400)],  -- Minimum dwell (R325)
     row 6 1 1 .u8 .rw 4 [(1, 64)],  -- Move rate limit (R325)
     row 7 1 1 .u16 .rw 2000 [(100, 20000)],  -- Migration copy rate (R325)
     row 8 1 1 .u8 .rw 4 [(0, 255)],  -- Class weight CY, UR, BK, MG (R325)
     row 9 1 1 .u8 .rw 2 [(0, 255)],
     row 10 1 1 .u8 .rw 1 [(0, 255)],
     row 11 1 1 .u8 .rw 1 [(0, 255)],
     row 12 1 1 .bool .rw 1 [],  -- Grove compaction (R325)
     row 13 1 1 .u32 .rw 131072 [(0, 1048576)]] },  -- Foreign memory reserve (R325)
   { ix := 0x2311, count := 1, rows := [
     row 0 1 1 .u8 .const 0x5 [],  -- Highest subindex (R325)
     rowM 1 1 1 .u32 .rw 0 0x7FFFFF [],  -- Move request handle (R325)
     row 2 1 1 .u8 .rw 0x0 [(0, 254)],  -- Move request hub (R325)
     row 3 1 1 .u8 .rw 0xff [(0, 63), (255, 255)],  -- Move request engine (R325)
     row 4 1 1 .u8 .wo 0x0 [(1, 1)],  -- Move request start (R325)
     row 5 1 1 .u8 .ro 0xfe []] },  -- Move request status (R325)
   { ix := 0x2312, count := 1, rows := [
     row 0 1 1 .u8 .const 0x1 [],  -- Highest subindex (R325)
     rowM 1 1 1 .u32 .rw 0 0x7FFFFF []] },  -- Score inspection handle (R325)
   { ix := 0x2401, count := 1, rows := [
     row 0 1 1 .u8 .const 0x5 [],  -- Highest subindex (R358)
     row 1 1 1 .u32 .rwc 1000 [(62, 16000)],  -- Cycle period (R358)
     row 2 1 1 .u16 .rwc 20 [(2, 8000)],  -- Output offset (R358)
     row 3 1 1 .u32 .rwc 0 [(0, 260096)],  -- Declared ring load (R358)
     row 4 1 1 .u8 .rw 50 [(10, 90)],  -- Phase limit (R358)
     row 5 1 1 .u8 .rw 3 [(1, 255)]] },  -- Watchdog windows (R358)
   { ix := 0x2410, count := 16, rows := [
     row 0 1 1 .u8 .const 192 [],  -- Highest subindex (R71)
     rowM 1 3 64 .u32 .rwc 0 0x7FFFFF [],  -- Consumed SIGNAL (R358)
     row 2 3 64 .u48 .rwc 0 [],  -- Output target (R358)
     row 3 3 64 .u48 .rwc 0 []] },  -- Output safe value (R358)
   { ix := 0x2440, count := 32, rows := [
     row 0 1 1 .u8 .const 128 [],  -- Highest subindex (R71)
     row 1 1 128 .u16 .rwc 0 []] },  -- Capture selector (R358)
   { ix := 0x2460, count := 16, rows := [
     row 0 1 1 .u8 .const 192 [],  -- Highest subindex (R71)
     row 1 1 192 .u48 .rwc 0 []] },  -- Rule record fields 1–6 (R358)
   { ix := 0x2501, count := 1, rows := [
     row 0 1 1 .u8 .const 0xf [],  -- Highest subindex (R396)
     row 1 1 1 .u8 .rw 0 [(0, 1)],  -- Time ring (R396)
     row 2 1 1 .u32 .rwc 1000 [(125, 16000)],  -- Sync interval (R396)
     row 3 1 1 .u16 .rw 1 [(1, 1000)],  -- Delay interval (R396)
     row 4 1 1 .u16 .rw 1000 [(100, 60000)],  -- Servo time constant (R396)
     row 5 1 1 .u16 .rw 200 [(10, 200)],  -- Slew limit (R396)
     row 6 1 1 .u32 .rw 1000 [(100, 1000000)],  -- Slew threshold (R396)
     row 7 1 1 .u32 .rw 60 [(1, 86400)],  -- Holdover limit (R396)
     row 8 1 1 .i48 .rw 0 [(0, 1000000), (281474975710656, 281474976710655)],  -- Asymmetry, East (R396)
     row 9 1 1 .i48 .rw 0 [(0, 1000000), (281474975710656, 281474976710655)],  -- Asymmetry, West (R396)
     row 10 1 1 .u16 .rw 100 [(1, 500)],  -- PPS_OUT width (R396)
     row 11 1 1 .i48 .rw 0 [(0, 1000000), (281474975710656, 281474976710655)],  -- PPS_OUT offset (R396)
     row 12 1 1 .bool .rwc 0 [],  -- PPS_IN enable (R396)
     row 13 1 1 .i48 .rw 0 [(0, 1000000), (281474975710656, 281474976710655)],  -- PPS_IN cable delay (R396)
     row 14 1 1 .timeLo .rw 0 [],  -- Next PPS_IN time, seconds (R396)
     row 15 1 1 .timeHi .rw 0 []] }]  -- Next PPS_IN time, nanoseconds (R396)

/-- Entry tables, part 3: indices 0x2601 to 0x2911. -/
def entries3 : List Obj :=
  [{ ix := 0x2601, count := 1, rows := [
     row 0 1 1 .u8 .const 0x8 [],  -- Highest subindex (R432)
     row 1 1 8 .u32 .rwc 400000 [(10000, 400000)]] },  -- Grove clock 0 to 7 (R432)
   { ix := 0x2602, count := 1, rows := [
     row 0 1 1 .u8 .const 0x2 [],  -- Highest subindex (R432)
     row 1 1 1 .u16 .rw 10 [(1, 3600)],  -- Self-test interval (R432)
     row 2 1 1 .u8 .rw 16 [(4, 255)]] },  -- Diagnosis count (R432)
   { ix := 0x2604, count := 4, rows := [
     row 0 1 1 .u8 .const 0x40 [],  -- Highest subindex (R432)
     rowM 1 1 64 .u8 .rwc 0x1 0x1F []] },  -- Pad settings, FIO 64i + j (R432)
   { ix := 0x2701, count := 1, rows := [
     row 0 1 1 .u8 .const 0x10 [],  -- Highest subindex (R467)
     rowM 1 1 16 .u32 .rwc 0x0 0x17FFFFF []] },  -- FC0 to FC15 map (R467)
   { ix := 0x2702, count := 1, rows := [
     row 0 1 1 .u8 .const 0x1 [],  -- Highest subindex (R467)
     row 1 1 1 .u16 .rw 5 [(1, 1000)]] },  -- Resend time (R467)
   { ix := 0x2710, count := 32, rows := [
     row 0 1 1 .u8 .const 128 [],  -- Highest subindex (R71)
     rowM 1 1 128 .u48 .rwc 0x640a324b00 0xFFFFFF7F7F01 []] },  -- FIFO settings, slot 128i + j (R467)
   { ix := 0x2802, count := 1, rows := [
     row 0 1 1 .u8 .const 0x3 [],  -- Highest subindex (R508)
     row 1 1 1 .u8 .rwc 0x0 [(0, 15), (255, 255)],  -- CANopen controller (R508)
     row 2 1 1 .u8 .rwc 0x1 [(1, 127)],  -- Node ID (R508)
     row 3 1 1 .u16 .rw 1000 [(10, 60000)]] },  -- SDO segment timeout (R508)
   { ix := 0x2810, count := 16, rows := [
     row 0 1 1 .u8 .const 0xb [],  -- Highest subindex (R508)
     row 1 1 1 .u8 .rwc 0x0 [(0, 3)],  -- Controller mode (R508)
     rowM 2 1 1 .u8 .rwc 0x7 0x7 [],  -- Frame format (R508)
     row 3 1 1 .u32 .rwc 0xf1e7c07 [],  -- Nominal bit timing (R508)
     row 4 1 1 .u32 .rwc 0xf7fc0 [],  -- Data bit timing (R508)
     rowM 5 1 1 .u16 .rwc 0x4001 0x7F01 [],  -- Delay compensation (R508)
     row 6 1 1 .u8 .rw 8 [(0, 255)],  -- Bus-off return limit (R508)
     row 7 1 1 .u16 .rw 60 [(1, 3600)],  -- Return window (R508)
     row 8 1 1 .u8 .rw 0x0 [(0, 2)],  -- Safe action (R508)
     row 9 1 1 .u8 .wo 0x0 [(0, 63)],  -- Transmit request (R508)
     row 10 1 1 .u8 .wo 0x0 [(0, 63)],  -- Transmit abort (R508)
     row 11 1 1 .u8 .wo 0x0 [(1, 1), (2, 2)]] },  -- Controller command (R508)
   { ix := 0x2820, count := 4, rows := [
     row 0 1 1 .u8 .const 0x80 [],  -- Highest subindex (R508)
     rowM 1 2 64 .u48 .rw 0 0xFFFFFF7FFFFF [],  -- Mapping m, object (R508)
     rowM 2 2 64 .u16 .rw 0x0 0x73F []] },  -- Mapping m, field (R508)
   { ix := 0x2830, count := 16, rows := [
     row 0 1 1 .u8 .const 0x5 [],  -- Highest subindex (R541)
     rowM 1 1 1 .u32 .rwc 0x0 0x3FFFFFFF [],  -- Wake identifier (R541)
     rowM 2 1 1 .u32 .rwc 0x1fffffff 0x1FFFFFFF [],  -- Wake mask (R541)
     row 3 1 1 (.octets 8) .rwc 0 [],  -- Wake data mask (R541)
     row 4 1 1 .slot .rwc 0 [],  -- its further slots
     rowM 5 1 1 .u8 .rwc 0x0 0x1F []] },  -- Wake frame options (R541)
   { ix := 0x2910, count := 1, rows := [
     row 0 1 1 .u8 .const 0xc [],  -- Highest subindex (R568)
     row 1 1 1 .u8 .rwc 0x0 [(0, 1)],  -- Port mode (R568)
     row 2 1 1 .u48 .rwc (Config.macAddress 0).toNat [],  -- MAC address (R568)
     rowM 3 1 1 .u8 .rwc 0x1 0x7 [],  -- Address filter (R568)
     row 4 1 1 .u16 .rwc 1518 [(60, 1518)],  -- Maximum frame length (R568)
     rowM 5 1 1 .u16 .rwc 0xff00 0xFF01 [],  -- PLCA control (R568)
     row 6 1 1 .u8 .rwc 8 [(1, 255)],  -- PLCA node count (R568)
     rowM 7 1 1 .u32 .rwc 0x800020 0xFFFFFF [],  -- PLCA timers (R568)
     rowM 8 1 1 .u32 .rwc 0 0x7FFFFF [],  -- Descriptor BUFFER (R568)
     rowM 9 1 1 .u48 .rwc 0 0x7FFFFFFF [],  -- Transmit ring (R568)
     rowM 10 1 1 .u48 .rwc 0 0x7FFFFFFF [],  -- Receive ring (R568)
     row 11 1 1 .u16 .rw 100 [(10, 10000)],  -- Poll interval (R568)
     row 12 1 1 .u8 .rw 0x0 [(0, 1)]] },  -- Safe action (R568)
   { ix := 0x2911, count := 1, rows := [
     row 0 1 1 .u8 .const 0xc [],  -- Highest subindex (R568)
     row 1 1 1 .u8 .rwc 0x0 [(0, 1)],  -- Port mode (R568)
     row 2 1 1 .u48 .rwc (Config.macAddress 1).toNat [],  -- MAC address (R568)
     rowM 3 1 1 .u8 .rwc 0x1 0x7 [],  -- Address filter (R568)
     row 4 1 1 .u16 .rwc 1518 [(60, 1518)],  -- Maximum frame length (R568)
     rowM 5 1 1 .u16 .rwc 0xff00 0xFF01 [],  -- PLCA control (R568)
     row 6 1 1 .u8 .rwc 8 [(1, 255)],  -- PLCA node count (R568)
     rowM 7 1 1 .u32 .rwc 0x800020 0xFFFFFF [],  -- PLCA timers (R568)
     rowM 8 1 1 .u32 .rwc 0 0x7FFFFF [],  -- Descriptor BUFFER (R568)
     rowM 9 1 1 .u48 .rwc 0 0x7FFFFFFF [],  -- Transmit ring (R568)
     rowM 10 1 1 .u48 .rwc 0 0x7FFFFFFF [],  -- Receive ring (R568)
     row 11 1 1 .u16 .rw 100 [(10, 10000)],  -- Poll interval (R568)
     row 12 1 1 .u8 .rw 0x0 [(0, 1)]] }]  -- Safe action (R568)

/-- Entry tables, part 4: indices 0x2912 to 0x2C1F. -/
def entries4 : List Obj :=
  [{ ix := 0x2912, count := 1, rows := [
     row 0 1 1 .u8 .const 0xc [],  -- Highest subindex (R568)
     row 1 1 1 .u8 .rwc 0x0 [(0, 1)],  -- Port mode (R568)
     row 2 1 1 .u48 .rwc (Config.macAddress 2).toNat [],  -- MAC address (R568)
     rowM 3 1 1 .u8 .rwc 0x1 0x7 [],  -- Address filter (R568)
     row 4 1 1 .u16 .rwc 1518 [(60, 1518)],  -- Maximum frame length (R568)
     rowM 5 1 1 .u16 .rwc 0xff00 0xFF01 [],  -- PLCA control (R568)
     row 6 1 1 .u8 .rwc 8 [(1, 255)],  -- PLCA node count (R568)
     rowM 7 1 1 .u32 .rwc 0x800020 0xFFFFFF [],  -- PLCA timers (R568)
     rowM 8 1 1 .u32 .rwc 0 0x7FFFFF [],  -- Descriptor BUFFER (R568)
     rowM 9 1 1 .u48 .rwc 0 0x7FFFFFFF [],  -- Transmit ring (R568)
     rowM 10 1 1 .u48 .rwc 0 0x7FFFFFFF [],  -- Receive ring (R568)
     row 11 1 1 .u16 .rw 100 [(10, 10000)],  -- Poll interval (R568)
     row 12 1 1 .u8 .rw 0x0 [(0, 1)]] },  -- Safe action (R568)
   { ix := 0x2913, count := 1, rows := [
     row 0 1 1 .u8 .const 0xc [],  -- Highest subindex (R568)
     row 1 1 1 .u8 .rwc 0x0 [(0, 1)],  -- Port mode (R568)
     row 2 1 1 .u48 .rwc (Config.macAddress 3).toNat [],  -- MAC address (R568)
     rowM 3 1 1 .u8 .rwc 0x1 0x7 [],  -- Address filter (R568)
     row 4 1 1 .u16 .rwc 1518 [(60, 1518)],  -- Maximum frame length (R568)
     rowM 5 1 1 .u16 .rwc 0xff00 0xFF01 [],  -- PLCA control (R568)
     row 6 1 1 .u8 .rwc 8 [(1, 255)],  -- PLCA node count (R568)
     rowM 7 1 1 .u32 .rwc 0x800020 0xFFFFFF [],  -- PLCA timers (R568)
     rowM 8 1 1 .u32 .rwc 0 0x7FFFFF [],  -- Descriptor BUFFER (R568)
     rowM 9 1 1 .u48 .rwc 0 0x7FFFFFFF [],  -- Transmit ring (R568)
     rowM 10 1 1 .u48 .rwc 0 0x7FFFFFFF [],  -- Receive ring (R568)
     row 11 1 1 .u16 .rw 100 [(10, 10000)],  -- Poll interval (R568)
     row 12 1 1 .u8 .rw 0x0 [(0, 1)]] },  -- Safe action (R568)
   { ix := 0x2920, count := 4, rows := [
     row 0 1 1 .u8 .const 0x8 [],  -- Highest subindex (R568)
     row 1 2 4 .u48 .rwc 0 [],  -- Cyclic filter k, word A (R568)
     rowM 2 2 4 .u32 .rwc 0 0xFFFFF []] },  -- Cyclic filter k, word B (R568)
   { ix := 0x2A01, count := 1, rows := [
     row 0 1 1 .u8 .const 0x6 [],  -- Highest subindex (R595)
     row 1 1 1 .u8 .rwc 3 [(1, 3)],  -- Link speed limit (R595)
     row 2 1 1 .u8 .rwc 2 [(1, 2)],  -- Link width limit (R595)
     row 3 1 1 .u8 .rw 0 [(0, 2)],  -- Read error mode (R595)
     row 4 1 1 .u8 .rw 64 [(1, 64)],  -- Split-read limit (R595)
     row 5 1 1 .u8 .rw 32 [(8, 255)],  -- QSPI dummy clocks (R595)
     row 6 1 1 .u16 .rw 100 [(1, 10000)]] },  -- QSPI result hold (R595)
   { ix := 0x2A02, count := 1, rows := [
     row 0 1 1 .u8 .const 0x1 [],  -- Highest subindex (R595)
     row 1 1 1 .u32 .rc 0 []] },  -- Barrier (R595)
   { ix := 0x2B01, count := 1, rows := [
     row 0 1 1 .u8 .const 0x7 [],  -- Highest subindex (R629)
     row 1 1 4 .u8 .rwc 1 [(0, 2)],  -- Class protection CY, UR, BK, MG (R629)
     row 5 1 1 .u16 .rw 24 [(0, 8760)],  -- Rekey interval (R629)
     row 6 1 1 .u16 .rw 10 [(1, 1000)],  -- Epoch grace time (R629)
     row 7 1 1 .bool .rwc 0 []] },  -- Write lock (R629)
   { ix := 0x2B02, count := 1, rows := [
     row 0 1 1 .u8 .const 0x8 [],  -- Highest subindex (R629)
     row 1 1 1 .u8 .wo 0x0 [(0, 2)],  -- Role request (R629)
     row 2 1 2 .u48 .ro 0 [],  -- Challenge words 0, 1 (R629)
     row 4 1 1 (.octets 16) .wo 0 [],  -- Response (R629)
     row 5 1 2 .slot .wo 0 [],  -- its further slots
     row 7 1 1 .u8 .ro 0x0 [],  -- Session role (R629)
     row 8 1 1 .u16 .rw 600 [(10, 3600)]] },  -- Session idle limit (R629)
   { ix := 0x2B03, count := 1, rows := [
     row 0 1 1 .u8 .const 0x8 [],  -- Highest subindex (R629)
     row 1 1 1 (.octets 40) .wo 0 [],  -- Wrapped SRK (R629)
     row 2 1 6 .slot .wo 0 [],  -- its further slots
     row 8 1 1 .u8 .wo 0x0 [(1, 1)]] },  -- Install command (R629)
   { ix := 0x2B04, count := 1, rows := [
     row 0 1 1 .u8 .const 0x2 [],  -- Highest subindex (R629)
     row 1 1 1 .u8 .wo 0x0 [(1, 3)],  -- Dome command (R629)
     row 2 1 1 .u32 .wo 0 [(0x6F72657A, 0x6F72657A)]] },  -- Zeroise confirmation (R629)
   { ix := 0x2C10, count := 16, rows := [
     row 0 1 1 .u8 .const 0x11 [],  -- Highest subindex (R660)
     row 1 1 1 .bool .rwc 0 [],  -- Channel enable (R660)
     row 2 1 1 .u32 .rw 2000 [(10, 50000)],  -- Current limit (R660)
     row 3 1 1 .u16 .rw 100 [(0, 1000)],  -- Limit grace (R660)
     row 4 1 1 .u16 .rw 2000 [(20, 65535)],  -- Overcurrent delay (R660)
     row 5 1 1 .u32 .rwc 5000 [(100, 600000)],  -- Ramp time (R660)
     row 6 1 1 .u8 .rw 95 [(50, 99)],  -- Power-good level (R660)
     row 7 1 1 .u16 .rwc 3000 [(500, 15000)],  -- Gate threshold (R660)
     row 8 1 1 .u32 .rw 1000 [(100, 60000)],  -- Cool-down (R660)
     row 9 1 1 .u8 .rw 8 [(1, 255)],  -- Retry count (R660)
     rowM 10 1 1 .u8 .rwc 0x1 0x1 [],  -- Presence use (R660)
     row 11 1 1 .u16 .rw 50 [(0, 1000)],  -- Presence filter (R660)
     row 12 1 1 .u8 .rw 0x1 [(0, 1)],  -- Safe action (R660)
     row 13 1 1 .q24 .rwc 0x2000000 [],  -- Current scale (R660)
     row 14 1 1 .u16 .rwc 0 [(0, 4095)],  -- Current offset (R660)
     row 15 1 1 .q24 .rwc 0x8000000 [],  -- Output voltage scale (R660)
     row 16 1 1 .q24 .rwc 0x8000000 [],  -- Input voltage scale (R660)
     row 17 1 1 .q24 .rwc 0x8000000 []] }]  -- Gate voltage scale (R660)

/-- Entry tables, part 5: indices 0x2C20 to 0x2E01. -/
def entries5 : List Obj :=
  [{ ix := 0x2C20, count := 16, rows := [
     row 0 1 1 .u8 .const 0x7 [],  -- Highest subindex (R660)
     row 1 1 1 .q24 .rw 0xCCCCCD [(1, 140737488355327)],  -- R_jc (R660)
     row 2 1 1 .q24 .rw 0x51EB8 [(1, 140737488355327)],  -- C_j (R660)
     row 3 1 1 .q24 .rw 0x1E000000 [(1, 140737488355327)],  -- R_ca (R660)
     row 4 1 1 .q24 .rw 0x1000000 [(1, 140737488355327)],  -- C_c (R660)
     row 5 1 1 .q24 .rw 0x55000000 [],  -- Ambient T_a (R660)
     row 6 1 1 .q24 .rw 0x96000000 [],  -- Temperature limit (R660)
     row 7 1 1 .q24 .rw 0x64000000 []] },  -- Restart temperature (R660)
   { ix := 0x2D01, count := 1, rows := [
     row 0 1 1 .u8 .const 0x8 [],  -- Highest subindex (R541)
     row 1 1 1 .bool .rw 1 [],  -- Sleep enable (R541)
     row 2 1 1 .bool .rw 0 [],  -- Sleep request (R541)
     row 3 1 1 .bool .rw 0 [],  -- Keep-awake hold (R541)
     row 4 1 1 .u16 .rw 1000 [(100, 60000)],  -- Retry interval (R541)
     row 5 1 1 .u16 .rw 50 [(10, 10000)],  -- Commit lead (R541)
     row 6 1 1 .u16 .rw 10 [(0, 1000)],  -- Drain time (R541)
     row 7 1 1 .u16 .rw 5000 [],  -- Bus idle time (R541)
     row 8 1 1 .u16 .rw 5000 []] },  -- T1S idle time (R541)
   { ix := 0x2D02, count := 1, rows := [
     row 0 1 1 .u8 .const 0x3 [],  -- Highest subindex (R541)
     row 1 1 1 .u8 .rw 0x0 [],  -- Clearing Groves (R541)
     row 2 1 1 .u16 .rw 0x0 [],  -- Clearing CAN (R541)
     rowM 3 1 1 .u8 .rw 0x0 0xF []] },  -- Clearing T1S (R541)
   { ix := 0x2D03, count := 1, rows := [
     row 0 1 1 .u8 .const 0x1e [],  -- Highest subindex (R541)
     rowM 1 1 8 .u32 .rw 0x0 0xFFFFFF07 [],  -- Wake setup, source j (R541) sources 0 to 7
     rowM 9 1 16 .u32 .rw 0x8000501 0xFFFFFF07 [],  -- Wake setup, source j (R541) sources 8 to 23
     rowM 25 1 4 .u32 .rw 0x8000a01 0xFFFFFF07 [],  -- Wake setup, source j (R541) sources 24 to 27
     rowM 29 1 2 .u32 .rw 0xa01 0xFFFFFF07 []] },  -- Wake setup, source j (R541) sources 28 to 29
   { ix := 0x2D04, count := 1, rows := [
     row 0 1 1 .u8 .const 0x2 [],  -- Highest subindex (R541)
     row 1 1 1 .u8 .wo 0x0 [],  -- Wake confirmation (R541)
     rowM 2 1 1 .u32 .wo 0x0 0x3FFFFFFF []] },  -- Wake unmask (R541)
   { ix := 0x2D10, count := 1, rows := [
     row 0 1 1 .u8 .const 0xd [],  -- Highest subindex (R689)
     row 1 1 13 .bool .rw 0 []] },  -- Software vote, domain 0 to 12 (R689)
   { ix := 0x2D11, count := 1, rows := [
     row 0 1 1 .u8 .const 0x7 [],  -- Highest subindex (R689)
     row 1 1 1 .u16 .rw 10 [(0, 10000)],  -- Off delay (R689)
     row 2 1 1 .u8 .rwc 0 [(0, 15)],  -- AVS rail select (R689)
     row 3 1 1 .u16 .rwc 1000 [(100, 10000)],  -- AVS transition rate (R689)
     row 4 1 1 .u16 .rwc 850 [(850, 950)],  -- Core voltage minimum (R689)
     row 5 1 1 .u16 .rwc 950 [(850, 950)],  -- Core voltage maximum (R689)
     row 6 1 1 .u16 .rw 100 [(10, 10000)],  -- AVS update interval (R689)
     row 7 1 1 .u16 .rw 10 [(1, 100)]] },  -- Power-good timeout (R689)
   { ix := 0x2D12, count := 1, rows := [
     row 0 1 1 .u8 .const 0x4 [],  -- Highest subindex (R689)
     rowM 1 1 4 .u16 .rwc 0x100 0x17F []] },  -- Rail setup (R689)
   { ix := 0x2E01, count := 1, rows := [
     row 0 1 1 .u8 .const 0x1e [],  -- Highest subindex (R716)
     row 1 1 1 .u8 .rwc 2 [(0, 3)],  -- Reaction, fault 0x01 to 0x1E (R716)
     row 2 1 1 .u8 .rwc 0 [(0, 3)],
     row 3 1 1 .u8 .rwc 1 [(0, 3)],
     row 4 1 1 .u8 .rwc 1 [(0, 3)],
     row 5 1 1 .u8 .rwc 0 [(0, 3)],
     row 6 1 1 .u8 .rwc 0 [(0, 3)],
     row 7 1 1 .u8 .rwc 2 [(0, 3)],
     row 8 1 1 .u8 .rwc 3 [(0, 3)],
     row 9 1 1 .u8 .rwc 3 [(0, 3)],
     row 10 1 1 .u8 .rwc 0 [(0, 3)],
     row 11 1 1 .u8 .rwc 0 [(0, 3)],
     row 12 1 1 .u8 .rwc 2 [(0, 3)],
     row 13 1 1 .u8 .rwc 0 [(0, 3)],
     row 14 1 1 .u8 .rwc 2 [(0, 3)],
     row 15 1 1 .u8 .rwc 0 [(0, 3)],
     row 16 1 1 .u8 .rwc 0 [(0, 3)],
     row 17 1 1 .u8 .rwc 0 [(0, 3)],
     row 18 1 1 .u8 .rwc 0 [(0, 3)],
     row 19 1 1 .u8 .rwc 0 [(0, 3)],
     row 20 1 1 .u8 .rwc 3 [(0, 3)],
     row 21 1 1 .u8 .rwc 3 [(0, 3)],
     row 22 1 1 .u8 .rwc 0 [(0, 3)],
     row 23 1 1 .u8 .rwc 2 [(0, 3)],
     row 24 1 1 .u8 .rwc 0 [(0, 3)],
     row 25 1 1 .u8 .rwc 0 [(0, 3)],
     row 26 1 1 .u8 .rwc 0 [(0, 3)],
     row 27 1 1 .u8 .rwc 0 [(0, 3)],
     row 28 1 1 .u8 .rwc 2 [(0, 3)],
     row 29 1 1 .u8 .rwc 1 [(0, 3)],
     row 30 1 1 .u8 .rwc 0 [(0, 3)]] }]

/-- Entry tables, part 6: indices 0x2E02 to 0x2E20. -/
def entries6 : List Obj :=
  [{ ix := 0x2E02, count := 1, rows := [
     row 0 1 1 .u8 .const 0x2 [],  -- Highest subindex (R716)
     row 1 1 1 .u8 .wo 0x0 [(1, 30), (255, 255)],  -- Acknowledge (R716)
     row 2 1 1 .u8 .wo 0x0 [(1, 1)]] },  -- Capture rearm (R716)
   { ix := 0x2E03, count := 1, rows := [
     row 0 1 1 .u8 .const 0x3 [],  -- Highest subindex (R716)
     row 1 1 1 .u8 .rw 3 [(0, 255)],  -- Escalation count (R716)
     row 2 1 1 .u16 .rw 60 [(1, 65535)],  -- Escalation window (R716)
     row 3 1 1 .u8 .rw Config.dieTempDefault [(60, 135)]] },  -- Die temperature limit (R716)
   { ix := 0x2E05, count := 1, rows := [
     row 0 1 1 .u8 .const 0x3 [],  -- Highest subindex (R716)
     row 1 1 1 .u8 .rw 0x0 [],  -- Injection point (R716)
     row 2 1 1 .u32 .rw 0 [],  -- Injection parameter (R716)
     row 3 1 1 .u8 .wo 0x0 [(1, 1), (2, 2)]] },  -- Injection command (R716)
   { ix := 0x2E10, count := 1, rows := [
     row 0 1 1 .u8 .const 0x10 [],  -- Highest subindex (R716)
     rowM 1 1 8 .u8 .rw 0x40 0xDF [],  -- Routes of events 0 to 7 (R716)
     rowM 9 1 8 .u8 .rw 0x41 0xDF []] },  -- Routes of events 8 to 15 (R716)
   { ix := 0x2E11, count := 1, rows := [
     row 0 1 1 .u8 .const 0x10 [],  -- Highest subindex (R716)
     rowM 1 1 8 .u8 .rw 0x42 0xDF [],  -- Routes of events 16 to 23 (R716)
     rowM 9 1 8 .u8 .rw 0x43 0xDF []] },  -- Routes of events 24 to 31 (R716)
   { ix := 0x2E12, count := 1, rows := [
     row 0 1 1 .u8 .const 0x10 [],  -- Highest subindex (R716)
     rowM 1 1 8 .u8 .rw 0x44 0xDF [],  -- Routes of events 32 to 39 (R716)
     rowM 9 1 8 .u8 .rw 0x45 0xDF []] },  -- Routes of events 40 to 47 (R716)
   { ix := 0x2E13, count := 1, rows := [
     row 0 1 1 .u8 .const 0x10 [],  -- Highest subindex (R716)
     rowM 1 1 8 .u8 .rw 0x46 0xDF [],  -- Routes of events 48 to 55 (R716)
     rowM 9 1 8 .u8 .rw 0x47 0xDF []] },  -- Routes of events 56 to 63 (R716)
   { ix := 0x2E14, count := 1, rows := [
     row 0 1 1 .u8 .const 0x10 [],  -- Highest subindex (R716)
     rowM 1 1 8 .u8 .rw 0x48 0xDF [],  -- Routes of events 64 to 71 (R716)
     rowM 9 1 8 .u8 .rw 0x49 0xDF []] },  -- Routes of events 72 to 79 (R716)
   { ix := 0x2E15, count := 1, rows := [
     row 0 1 1 .u8 .const 0x10 [],  -- Highest subindex (R716)
     rowM 1 1 8 .u8 .rw 0x4a 0xDF [],  -- Routes of events 80 to 87 (R716)
     rowM 9 1 8 .u8 .rw 0x4b 0xDF []] },  -- Routes of events 88 to 95 (R716)
   { ix := 0x2E16, count := 1, rows := [
     row 0 1 1 .u8 .const 0x10 [],  -- Highest subindex (R716)
     rowM 1 1 8 .u8 .rw 0x4c 0xDF [],  -- Routes of events 96 to 103 (R716)
     rowM 9 1 8 .u8 .rw 0x4d 0xDF []] },  -- Routes of events 104 to 111 (R716)
   { ix := 0x2E17, count := 1, rows := [
     row 0 1 1 .u8 .const 0x10 [],  -- Highest subindex (R716)
     rowM 1 1 8 .u8 .rw 0x4e 0xDF [],  -- Routes of events 112 to 119 (R716)
     rowM 9 1 8 .u8 .rw 0x4f 0xDF []] },  -- Routes of events 120 to 127 (R716)
   { ix := 0x2E18, count := 1, rows := [
     row 0 1 1 .u8 .const 0x10 [],  -- Highest subindex (R716)
     rowM 1 1 8 .u8 .rw 0x50 0xDF [],  -- Routes of events 128 to 135 (R716)
     rowM 9 1 8 .u8 .rw 0x51 0xDF []] },  -- Routes of events 136 to 143 (R716)
   { ix := 0x2E19, count := 1, rows := [
     row 0 1 1 .u8 .const 0x10 [],  -- Highest subindex (R716)
     rowM 1 1 8 .u8 .rw 0x52 0xDF [],  -- Routes of events 144 to 151 (R716)
     rowM 9 1 8 .u8 .rw 0x53 0xDF []] },  -- Routes of events 152 to 159 (R716)
   { ix := 0x2E1A, count := 1, rows := [
     row 0 1 1 .u8 .const 0x10 [],  -- Highest subindex (R716)
     rowM 1 1 8 .u8 .rw 0x54 0xDF [],  -- Routes of events 160 to 167 (R716)
     rowM 9 1 8 .u8 .rw 0x55 0xDF []] },  -- Routes of events 168 to 175 (R716)
   { ix := 0x2E1B, count := 1, rows := [
     row 0 1 1 .u8 .const 0x10 [],  -- Highest subindex (R716)
     rowM 1 1 8 .u8 .rw 0x56 0xDF [],  -- Routes of events 176 to 183 (R716)
     rowM 9 1 8 .u8 .rw 0x57 0xDF []] },  -- Routes of events 184 to 191 (R716)
   { ix := 0x2E1C, count := 1, rows := [
     row 0 1 1 .u8 .const 0x10 [],  -- Highest subindex (R716)
     rowM 1 1 8 .u8 .rw 0x58 0xDF [],  -- Routes of events 192 to 199 (R716)
     rowM 9 1 8 .u8 .rw 0x59 0xDF []] },  -- Routes of events 200 to 207 (R716)
   { ix := 0x2E1D, count := 1, rows := [
     row 0 1 1 .u8 .const 0x10 [],  -- Highest subindex (R716)
     rowM 1 1 8 .u8 .rw 0x5a 0xDF [],  -- Routes of events 208 to 215 (R716)
     rowM 9 1 8 .u8 .rw 0x5b 0xDF []] },  -- Routes of events 216 to 223 (R716)
   { ix := 0x2E1E, count := 1, rows := [
     row 0 1 1 .u8 .const 0x10 [],  -- Highest subindex (R716)
     rowM 1 1 8 .u8 .rw 0x5c 0xDF [],  -- Routes of events 224 to 231 (R716)
     rowM 9 1 8 .u8 .rw 0x5d 0xDF []] },  -- Routes of events 232 to 239 (R716)
   { ix := 0x2E1F, count := 1, rows := [
     row 0 1 1 .u8 .const 0x10 [],  -- Highest subindex (R716)
     rowM 1 1 8 .u8 .rw 0x5e 0xDF [],  -- Routes of events 240 to 247 (R716)
     rowM 9 1 8 .u8 .rw 0x5f 0xDF []] },  -- Routes of events 248 to 255 (R716)
   { ix := 0x2E20, count := 1, rows := [
     row 0 1 1 .u8 .const 0x1 [],  -- Highest subindex (R716)
     row 1 1 1 .u8 .rw 0xff []] }]  -- Ring channel receive mask (R716)

/-- Entry tables, part 7: indices 0x2F01 to 0x343F. -/
def entries7 : List Obj :=
  [{ ix := 0x2F01, count := 1, rows := [
     row 0 1 1 .u8 .const 0x7 [],  -- Highest subindex (R736)
     row 1 1 1 .u8 .rwc 0x0 [(1, 6)],  -- Update command (R736)
     row 2 1 1 .u32 .rwc 0 [(512, 4194304)],  -- Image length (R736)
     row 3 1 1 .u8 .rwc 0x0 [(0, 254)],  -- Image source (R736)
     row 4 1 1 .u8 .rwc 0 [(0, 1)],  -- Source image (R736)
     row 5 1 1 .bool .rw 0 [(0, 1)],  -- Confirm policy (R736)
     row 6 1 1 .u16 .rw 60 [(10, 3600)],  -- Confirm delay (R736)
     row 7 1 1 .u8 .rw 8 [(1, 16)]] },  -- Pull window (R736)
   { ix := 0x2F02, count := 1, rows := [
     row 0 1 1 .u8 .const 0xca [],  -- Highest subindex (R736)
     row 1 1 1 .u32 .rwc 0 [],  -- Chunk offset (R736)
     row 2 1 1 .u16 .rwc 0 [(1, 1200)],  -- Chunk length (R736)
     row 3 1 1 (.octets 1200) .rwc 0 [],  -- Chunk data (R736)
     row 4 1 199 .slot .rwc 0 []] },  -- its further slots
   { ix := 0x3000, count := 64, rows := [
     row 0 1 1 .u8 .const 0x15 [],  -- Highest subindex (R433)
     row 1 1 1 .u8 .ro 0x1 [],  -- Engine state (R433)
     rowM 2 1 1 .u16 .rwc 0x0 0xFFFF [],  -- Engine control (R433)
     row 3 1 1 .u32 .rwc 0x100 [],  -- Divider (R433)
     row 4 1 1 .u8 .ro 0x0 [],  -- Program counter (R433)
     row 5 1 5 .u48 .ro 0 [],  -- SR, X, Y, CMP, TK (R433)
     row 10 1 1 .u16 .ro 0 [],  -- CNT (R433)
     row 11 1 1 .u8 .ro 48 [],  -- Shift length (R433)
     row 12 1 1 .u16 .ro 0x0 [],  -- Flags (R433)
     row 13 1 1 .u8 .ro 0x0 [],  -- Queue fill (R433)
     row 14 1 1 .u48 .ro 0 [],  -- IIR (R433)
     row 15 1 1 .u48 .ro 0 [],  -- IOR (R433)
     row 16 1 1 .u8 .ro 0x0 [],  -- Fault cause (R433)
     row 17 1 1 .u32 .rc 0 [],  -- Stall clocks (R433)
     row 18 1 1 .u32 .ro 0 [],  -- Bound PROGRAM (R433)
     row 19 1 1 .u8 .ro 0x0 [],  -- Loaded image (R433)
     row 20 1 1 .u16 .ro 0x0 [],  -- Pin outputs (R433)
     row 21 1 1 .u16 .ro 0x0 []] },  -- Load check (R433)
   { ix := 0x3100, count := 256, rows := [
     row 0 1 1 .u8 .const 0x4f [],  -- Highest subindex (R434)
     rowM 1 1 1 .u48 .rwc 0xc00 0x7F0FFFFFFF [],  -- Image settings (R434)
     row 2 1 4 .u48 .rwc 0 [],  -- SR, X, Y, CMP presets (R434)
     row 16 1 64 .u16 .rwc 0x0 []] },  -- Instruction 0 to 63 (R434)
   { ix := 0x3200, count := 128, rows := [
     row 0 1 1 .u8 .const 0x11 [],  -- Highest subindex (R468)
     row 1 1 1 .u8 .ro 0x0 [],  -- FIFO state (R468)
     row 2 1 1 .u32 .ro 0 [],  -- STREAM handle (R468)
     row 3 1 1 .u8 .rw 0 [(1, 64)],  -- Page budget (R468)
     row 4 1 1 .u8 .ro 0 [],  -- Pages held (R468)
     row 5 1 1 .u16 .ro 0 [],  -- Fill (R468)
     row 6 1 1 .u16 .ro 0 [],  -- Packet count (R468)
     row 7 1 1 .u8 .ro 0x0 [],  -- Flags (R468)
     rowM 8 1 1 .u32 .wo 0 0xFFFFFF [],  -- Read command (R468)
     row 9 1 1 .u16 .ro 0 [],  -- Held words (R468)
     row 10 1 1 .u32 .ro 0 [],  -- Next index (R468)
     row 11 1 1 .u32 .ro 0 [],  -- Credit limit (R468)
     row 12 1 1 .u16 .rc 0 [],  -- Peak fill (R468)
     row 13 1 1 .u32 .rc 0 [],  -- Words written (R468)
     row 14 1 1 .u32 .rc 0 [],  -- Words read (R468)
     row 15 1 1 .u32 .rc 0 [],  -- Frames discarded for space (R468)
     row 16 1 1 .u32 .rc 0 [],  -- Poisoned words delivered (R468)
     row 17 1 1 .u32 .rc 0 []] },  -- STOP entries (R468)
   { ix := 0x3400, count := 64, rows := [
     row 0 1 1 .u8 .const 255 [],  -- Highest subindex (R71)
     rowM 1 16 16 .u48 .rwc 0 0xF3F [],  -- Buffer setup (R509)
     rowM 2 16 16 .u32 .rw 0 0x1FFFFFFF [],  -- Identifier (R509)
     row 3 16 16 (.octets 64) .rw 0 [],  -- Data (R509)
     row 4 16 16 .slot .rw 0 [],
     row 5 16 16 .slot .rw 0 [],
     row 6 16 16 .slot .rw 0 [],
     row 7 16 16 .slot .rw 0 [],
     row 8 16 16 .slot .rw 0 [],
     row 9 16 16 .slot .rw 0 [],
     row 10 16 16 .slot .rw 0 [],
     row 11 16 16 .slot .rw 0 [],
     row 12 16 16 .slot .rw 0 [],
     row 13 16 16 .slot .rw 0 [],
     row 14 16 16 .u48 .ro 0 [],  -- Info (R509)
     row 15 16 16 .u48 .ro 0 []] }]  -- Stamp (R509)

/-- Entry tables, part 8: indices 0x3440 to 0x4100. -/
def entries8 : List Obj :=
  [{ ix := 0x3440, count := 16, rows := [
     row 0 1 1 .u8 .const 0x40 [],  -- Highest subindex (R509)
     rowM 1 2 32 .u48 .rwc 0 0x8003FFFFFFFF [],  -- Filter k, identifier (R509)
     rowM 2 2 32 .u48 .rwc 0 0xFF1FFFFFFF []] },  -- Filter k, mask and target (R509)
   { ix := 0x3500, count := 4, rows := [
     row 0 1 1 .u8 .const 0x4 [],  -- Highest subindex (R569)
     row 1 1 1 .u8 .wo 0x0 [(1, 1)],  -- Transmit doorbell (R569)
     row 2 1 1 .u16 .ro 0 [],  -- Transmit next descriptor (R569)
     row 3 1 1 .u16 .ro 0 [],  -- Receive next descriptor (R569)
     row 4 1 1 .u8 .ro 0x0 []] },  -- Port state (R569)
   { ix := 0x3600, count := 16, rows := [
     row 0 1 1 .u8 .const 0x12 [],  -- Highest subindex (R661)
     row 1 1 1 .u8 .ro 0x0 [],  -- Channel state (R661)
     row 2 1 1 .bool .rw 0 [],  -- On request (R661)
     row 3 1 1 .u8 .wo 0x0 [(1, 1), (2, 2)],  -- Channel command (R661)
     row 4 1 1 .u32 .ro 0 [],  -- Current (R661)
     row 5 1 1 .u32 .ro 0 [],  -- Output voltage (R661)
     row 6 1 1 .u32 .ro 0 [],  -- Input voltage (R661)
     row 7 1 1 .i48 .ro 0 [],  -- Gate-source voltage (R661)
     row 8 1 1 .q24 .ro 0x55000000 [],  -- Model junction temperature (R661)
     row 9 1 1 .q24 .ro 0x55000000 [],  -- Model case temperature (R661)
     row 10 1 1 .u8 .ro 0 [],  -- Failed retries (R661)
     row 11 1 1 .u32 .ro 0 [],  -- Cool-down remaining (R661)
     row 12 1 1 .u32 .ro 2000 [],  -- Limit in effect (R661)
     row 13 1 1 .u8 .ro 0x0 [],  -- Last trip cause (R661)
     row 14 1 1 .timeLo .ro 0 [],  -- Last trip time, seconds (R661)
     row 15 1 1 .timeHi .ro 0 [],  -- Last trip time, nanoseconds (R661)
     row 16 1 1 .u32 .rc 0 [],  -- Peak current (R661)
     row 17 1 1 .u32 .rc 0xffffffff [],  -- Minimum output voltage (R661)
     row 18 1 1 .u32 .rc 0 []] },  -- Trips (R661)
   { ix := 0x3800, count := 256, rows := [
     row 0 1 1 .u8 .const 255 [],  -- Highest subindex (R71)
     rowM 1 16 16 .u8 .rwc 0x7 0x3F [],  -- Definition (R290)
     row 2 16 16 .u32 .ro 0 [],  -- Handle (R290)
     row 3 16 16 .u32 .rwc 0 [],  -- Size A (R290)
     row 4 16 16 .u32 .rwc 0 [],  -- Size B (R290)
     row 5 16 16 .u48 .rwc 0 [],  -- Source or producer (R290)
     row 6 16 16 .u48 .rwc 0 [],  -- Consumer (R290)
     row 7 16 16 .u48 .rwc 0 [],  -- Pins 0–5 (R290)
     row 8 16 16 .u48 .rwc 0 [],  -- Pins 6–7 and safe levels, or GROUP members (R290)
     row 9 16 16 .u48 .rwc 0 [],  -- Spares 0–5 (R290)
     row 10 16 16 .u48 .rwc 0 [],  -- Spares 6–7, or GROUP members (R290)
     row 11 16 16 .u48 .rwc 0xff000000 [],  -- Placement (R290)
     rowM 12 16 16 .u48 .rwc 0x20014 0x3FFFF [],  -- Options (R290)
     row 13 16 16 .u48 .ro 0 [],  -- Binding (R290)
     row 14 16 16 .u32 .ro 0 [],  -- Moves (R290)
     row 15 16 16 .u32 .ro 0 []] },  -- Cost (R290)
   { ix := 0x4001, count := 1, rows := [
     row 0 1 1 .u8 .const 0xb [],  -- Highest subindex (R116)
     row 1 1 1 .u32 .rc 0 [],  -- Refusal count (R116)
     row 2 1 1 .u8 .ro 0x0 [],  -- Last refusal path (R116)
     row 3 1 1 .u16 .ro 0x0 [],  -- Last refusal index (R116)
     row 4 1 1 .u8 .ro 0x0 [],  -- Last refusal subindex (R116)
     row 5 1 1 .u8 .ro 0x0 [],  -- Last refusal code (R116)
     row 6 1 1 .timeLo .ro 0 [],  -- Last refusal time, seconds (R116)
     row 7 1 1 .timeHi .ro 0 [],  -- Last refusal time, nanoseconds (R116)
     row 8 1 1 .u32 .rc 0 [],  -- Ring requests served (R116)
     row 9 1 1 .u32 .rc 0 [],  -- Ring requests dropped or busy (R116)
     row 10 1 1 .u16 .ro 0x0 [],  -- Entries ignored at load (R116)
     row 11 1 1 .u8 .ro 0x0 []] },  -- Valid store copies (R116)
   { ix := 0x4100, count := 1, rows := [
     row 0 1 1 .u8 .const 0x16 [],  -- Highest subindex (R171)
     row 1 1 1 .u8 .ro 0x0 [],  -- East receive state (R171)
     row 2 1 1 .u8 .ro 0x0 [],  -- West receive state (R171)
     row 3 1 1 .u8 .ro 0x0 [],  -- Ring state (R171)
     row 4 1 1 .u8 .ro 0x0 [],  -- Head hub (R171)
     row 5 1 1 .u8 .ro 0x0 [],  -- Hubs present (R171)
     row 6 1 1 .u8 .ro 0 [],  -- Lane skew, East (R171)
     row 7 1 1 .u8 .ro 0 [],  -- Lane skew, West (R171)
     row 8 1 1 .u8 .ro 0x0 [],  -- East neighbour (R171)
     row 9 1 1 .u8 .ro 0x0 [],  -- West neighbour (R171)
     row 10 1 1 .u32 .rc 0 [],  -- CRC errors (R171)
     row 11 1 1 .u32 .rc 0 [],  -- Duplicates discarded (R171)
     row 12 1 1 .u32 .rc 0 [],  -- Old frames discarded (R171)
     row 13 1 1 .u32 .rc 0 [],  -- Hop-count discards (R171)
     row 14 1 1 .u32 .rc 0 [],  -- Format errors (R171)
     row 15 1 1 .u32 .rc 0 [],  -- FEC corrected, East (R171)
     row 16 1 1 .u32 .rc 0 [],  -- FEC corrected, West (R171)
     row 17 1 1 .u32 .rc 0 [],  -- FEC uncorrectable, East (R171)
     row 18 1 1 .u32 .rc 0 [],  -- FEC uncorrectable, West (R171)
     row 19 1 1 .u32 .rc 0 [],  -- Link-down count, East (R171)
     row 20 1 1 .u32 .rc 0 [],  -- Link-down count, West (R171)
     row 21 1 1 .u32 .rc 0 [],  -- Unicast returned to source (R171)
     row 22 1 1 .u32 .rc 0 []] }]  -- Frames without route (R171)

/-- Entry tables, part 9: indices 0x4101 to 0x4310. -/
def entries9 : List Obj :=
  [{ ix := 0x4101, count := 1, rows := [
     row 0 1 1 .u8 .const 0xFE [],  -- Highest subindex (R172)
     row 1 1 254 .u16 .ro 0xFFFF []] },  -- Ring map, hub n (R172)
   { ix := 0x4200, count := 1, rows := [
     row 0 1 1 .u8 .const 0x1a [],  -- Highest subindex (R216)
     row 1 1 4 .u16 .ro 0 [],  -- Class occupancy CY, UR, BK, MG (R216)
     row 5 1 1 .u16 .ro 32768 [],  -- Free cells (R216)
     row 6 1 1 .u16 .ro 17408 [],  -- Shared pool free (R216)
     row 7 1 4 .u32 .rc 0 [],  -- Admission refusals CY, UR, BK, MG (R216)
     row 11 1 3 .u32 .rc 0 [],  -- Push-outs of UR, BK, MG (R216)
     row 14 1 4 .u32 .rc 0 [],  -- Age drops CY, UR, BK, MG (R216)
     row 18 1 1 .u32 .rc 0 [],  -- Multicast copy timeouts (R216)
     row 19 1 1 .u32 .rc 0 [],  -- Leaked cells reclaimed (R216)
     row 20 1 1 .u32 .rc 0 [],  -- Census mismatches (R216)
     row 21 1 1 .u32 .rc 0 [],  -- Buffer words corrected (R216)
     row 22 1 1 .u32 .rc 0 [],  -- Buffer words uncorrectable (R216)
     row 23 1 1 .u32 .rc 0 [],  -- Frames discarded for poison (R216)
     row 24 1 1 .u32 .rc 0 [],  -- Starvation grants, BK (R216)
     row 25 1 1 .u32 .rc 0 [],  -- Starvation grants, MG (R216)
     row 26 1 1 .u16 .rc 0 []] },  -- Peak occupancy (R216)
   { ix := 0x4201, count := 1, rows := [
     row 0 1 1 .u8 .const 0x20 [],  -- Highest subindex (R216)
     row 1 1 32 .u16 .ro 0 []] },  -- Queued cells by output and class (R216)
   { ix := 0x4202, count := 1, rows := [
     row 0 1 1 .u8 .const 0x4 [],  -- Highest subindex (R247)
     row 1 1 1 .u8 .ro 0x3 [],  -- Vote mode (R247)
     row 2 1 1 .u32 .rc 0 [],  -- Exclusions (R247)
     row 3 1 1 .u8 .ro 0x0 [],  -- Split cause (R247)
     row 4 1 1 .u16 .rc 0 []] },  -- Replay log peak (R247)
   { ix := 0x4203, count := 3, rows := [
     row 0 1 1 .u8 .const 0xd [],  -- Highest subindex (R247)
     row 1 1 1 .u8 .ro 0x1 [],  -- Channel state (R247)
     row 2 1 1 .u32 .rc 0 [],  -- Output minority clocks (R247)
     row 3 1 1 .u32 .rc 0 [],  -- Shadow minority clocks (R247)
     row 4 1 1 .u32 .rc 0 [],  -- Digest minorities (R247)
     row 5 1 1 .u8 .ro 0 [],  -- Exclusions in window (R247)
     row 6 1 1 .u32 .ro 0 [],  -- Exclusions since reset (R247)
     row 7 1 1 .u32 .ro 0 [],  -- Rejoins since reset (R247)
     row 8 1 1 .u8 .ro 0x0 [],  -- Last cause (R247)
     row 9 1 1 .u8 .ro 0x0 [],  -- Last mismatch group (R247)
     row 10 1 1 .timeLo .ro 0 [],  -- Last exclusion time, seconds (R247)
     row 11 1 1 .timeHi .ro 0 [],  -- Last exclusion time, nanoseconds (R247)
     row 12 1 1 .u32 .ro 0 [],  -- Last resync time (R247)
     row 13 1 1 .u8 .ro 0x0 []] },  -- Self-test result (R247)
   { ix := 0x4300, count := 1, rows := [
     row 0 1 1 .u8 .const 0xb [],  -- Highest subindex (R288)
     row 1 1 1 .u32 .rc 0 [],  -- Reach hits (R288)
     row 2 1 1 .u32 .rc 0 [],  -- Reach misses (R288)
     row 3 1 1 .u32 .rc 0 [],  -- Stale faults (R288)
     row 4 1 1 .u32 .rc 0 [],  -- Retries (R288)
     row 5 1 1 .u32 .rc 0 [],  -- Order gaps (R288)
     row 6 1 1 .u32 .rc 0 [],  -- ORDER refusals (R288)
     row 7 1 1 .u32 .rc 0 [],  -- Timeouts (R288)
     row 8 1 1 .u16 .rc 0 [],  -- Held requests, peak (R288)
     row 9 1 1 .u32 .rc 0 [],  -- Moves aborted (R288)
     row 10 1 1 .u16 .ro 0 [],  -- Residence entries in use (R288)
     row 11 1 1 .u16 .ro 0 []] },  -- Reach entries valid (R288)
   { ix := 0x4301, count := 1, rows := [
     row 0 1 1 .u8 .const 0x40 [],  -- Highest subindex (R288)
     row 1 4 16 .u48 .ro 0 [],  -- Failed write k, address (R288)
     row 2 4 16 .u16 .ro 0x0 [],  -- Failed write k, origin (R288)
     row 3 4 16 .timeLo .ro 0 [],  -- Failed write k, time, seconds (R288)
     row 4 4 16 .timeHi .ro 0 []] },  -- Failed write k, time, nanoseconds (R288)
   { ix := 0x4310, count := 1, rows := [
     row 0 1 1 .u8 .const 0xa [],  -- Highest subindex (R326)
     row 1 1 1 .u16 .ro 0 [],  -- Objects defined (R326)
     row 2 1 1 .u16 .ro 0 [],  -- Objects unbound (R326)
     row 3 1 1 .u32 .rc 0 [],  -- Moves committed (R326)
     row 4 1 1 .u32 .rc 0 [],  -- Moves aborted (R326)
     row 5 1 1 .u32 .rc 0 [],  -- Moves refused (R326)
     row 6 1 1 .u32 .rc 0 [],  -- Failure moves (R326)
     row 7 1 1 .u32 .rc 0 [],  -- Pin rebinds (R326)
     row 8 1 1 .u32 .rc 0 [],  -- Program handovers (R326)
     row 9 1 1 .u16 .rc 0 [],  -- Longest output hold (R326)
     row 10 1 1 .u16 .ro 0 []] }]  -- Last placement run (R326)

/-- Entry tables, part 10: indices 0x4311 to 0x4700. -/
def entries10 : List Obj :=
  [{ ix := 0x4311, count := 1, rows := [
     row 0 1 1 .u8 .const 0x80 [],  -- Highest subindex (R326)
     row 1 4 32 .timeLo .ro 0 [],  -- Log entry k, time, seconds (R326)
     row 2 4 32 .timeHi .ro 0 [],  -- Log entry k, time, nanoseconds (R326)
     row 3 4 32 .u48 .ro 0 [],  -- Log entry k, object (R326)
     row 4 4 32 .u48 .ro 0 []] },  -- Log entry k, route (R326)
   { ix := 0x4312, count := 1, rows := [
     row 0 1 1 .u8 .const 0xa [],  -- Highest subindex (R326)
     row 1 1 8 .u48 .ro 0 [],  -- Requester 1 to 8 (R326)
     row 9 1 1 .u48 .ro 0 [],  -- Cost at holder (R326)
     row 10 1 1 .u48 .ro 0 []] },  -- Best candidate (R326)
   { ix := 0x4400, count := 1, rows := [
     row 0 1 1 .u8 .const 0xf [],  -- Highest subindex (R359)
     row 1 1 1 .u32 .ro 0 [],  -- Cycle number (R359)
     row 2 1 1 .u32 .ro 0 [],  -- Phase error (R359)
     row 3 1 1 .u32 .ro 62500 [],  -- Floor (R359)
     row 4 1 1 .u32 .rc 0 [],  -- Overruns (R359)
     row 5 1 1 .u32 .rc 0 [],  -- Shortened cycles (R359)
     row 6 1 1 .u32 .rc 0 [],  -- Late frames discarded (R359)
     row 7 1 1 .u32 .rc 0 [],  -- Early frames held (R359)
     row 8 1 1 .u32 .rc 0 [],  -- Outputs off the common instant (R359)
     row 9 1 1 .u32 .rc 0 [],  -- Stale reflex evaluations (R359)
     row 10 1 1 .u32 .rc 0 [],  -- Stale outputs (R359)
     row 11 1 1 .u16 .ro 0 [],  -- Contribution size (R359)
     row 12 1 1 .u32 .ro 0 [],  -- Words accepted, last window (R359)
     row 13 1 1 .u32 .ro 0 [],  -- Measured ring load (R359)
     row 14 1 1 .u16 .rc 0 [],  -- Longest evaluation (R359)
     row 15 1 1 .u32 .rc 0 []] },  -- Reflex write conflicts (R359)
   { ix := 0x4500, count := 1, rows := [
     row 0 1 1 .u8 .const 0x16 [],  -- Highest subindex (R397)
     row 1 1 1 .u8 .ro 0x1 [],  -- Spire state (R397)
     row 2 1 1 .u8 .ro 0x0 [],  -- Master hub (R397)
     row 3 1 1 .u8 .ro 0x2 [],  -- Source class (R397)
     row 4 1 1 .u8 .ro 0 [],  -- Hops from master (R397)
     row 5 1 1 .i48 .ro 0 [],  -- Offset (R397)
     row 6 1 1 .q24 .ro 0x0 [],  -- Frequency correction (R397)
     row 7 1 1 .q24 .ro 0x0 [],  -- Applied rate (R397)
     row 8 1 1 .u32 .ro 0 [],  -- East span delay (R397)
     row 9 1 1 .u32 .ro 0 [],  -- West span delay (R397)
     row 10 1 1 .u32 .ro 0 [],  -- Ring round trip (R397)
     row 11 1 1 .u8 .ro 0x0 [],  -- Chain followed (R397)
     row 12 1 1 .i48 .ro 0 [],  -- Last step (R397)
     row 13 1 1 .u32 .rc 0 [],  -- Slews (R397)
     row 14 1 1 .u32 .rc 0 [],  -- Holdover entries (R397)
     row 15 1 1 .u32 .ro 0 [],  -- Holdover time (R397)
     row 16 1 1 .u32 .rc 0 [],  -- SYNCs accepted (R397)
     row 17 1 1 .u32 .rc 0 [],  -- Delay exchanges rejected (R397)
     row 18 1 1 .timeLo .ro 0 [],  -- Last PPS_IN stamp, seconds (R397)
     row 19 1 1 .timeHi .ro 0 [],  -- Last PPS_IN stamp, nanoseconds (R397)
     row 20 1 1 .u32 .rc 0 [],  -- PPS_IN edges outside window (R397)
     row 21 1 1 .timeLo .ro 0 [],  -- Present time, seconds (R397)
     row 22 1 1 .timeHi .ro 0 []] },  -- Present time, nanoseconds (R397)
   { ix := 0x4600, count := 1, rows := [
     row 0 1 1 .u8 .const 0x7 [],  -- Highest subindex (R435)
     row 1 1 1 .u32 .rc 0 [],  -- Program memory corrections (R435)
     row 2 1 1 .u32 .rc 0 [],  -- Check failures (R435)
     row 3 1 1 .u32 .rc 0 [],  -- Program faults (R435)
     row 4 1 1 .u32 .rc 0 [],  -- Self-test failures (R435)
     row 5 1 1 .u32 .rc 0 [],  -- Pin-driver diagnoses (R435)
     row 6 1 1 .u32 .rc 0 [],  -- Queue words discarded (R435)
     row 7 1 1 .u8 .ro 0 []] },  -- Engines unusable (R435)
   { ix := 0x4601, count := 1, rows := [
     row 0 1 1 .u8 .const 0x6 [],  -- Highest subindex (R435)
     row 1 1 6 .u48 .ro 0 []] },  -- Failed pin drivers (R435)
   { ix := 0x4700, count := 1, rows := [
     row 0 1 1 .u8 .const 0xb [],  -- Highest subindex (R469)
     row 1 1 1 .u16 .ro 512 [],  -- Pages free (R469)
     row 2 1 1 .u8 .ro 0 [],  -- FIFOs in use (R469)
     row 3 1 1 .u32 .rc 0 [],  -- Words corrected (R469)
     row 4 1 1 .u32 .rc 0 [],  -- Words uncorrectable (R469)
     row 5 1 1 .u32 .rc 0 [],  -- Words discarded at sender (R469)
     row 6 1 1 .u32 .rc 0 [],  -- Words discarded (R469)
     row 7 1 1 .u32 .rc 0 [],  -- Stop timeouts (R469)
     row 8 1 1 .u32 .rc 0 [],  -- Idle deliveries (R469)
     row 9 1 1 .u32 .rc 0 [],  -- Stream format errors (R469)
     row 10 1 1 .u32 .rc 0 [],  -- Stream resends (R469)
     row 11 1 1 .u32 .rc 0 []] }]  -- Stream frames discarded (R469)

/-- Entry tables, part 11: indices 0x4800 to 0x4B00. -/
def entries11 : List Obj :=
  [{ ix := 0x4800, count := 1, rows := [
     row 0 1 1 .u8 .const 0x4 [],  -- Highest subindex (R510)
     row 1 1 1 .u8 .ro 0x0 [],  -- Node ID in use (R510)
     row 2 1 1 .u32 .rc 0 [],  -- NMT commands ignored (R510)
     row 3 1 1 .u32 .rc 0 [],  -- SDO aborts sent (R510)
     row 4 1 1 .u32 .rc 0 []] },  -- SDO transfers completed (R510)
   { ix := 0x4810, count := 16, rows := [
     row 0 1 1 .u8 .const 0x10 [],  -- Highest subindex (R510)
     row 1 1 1 .u8 .ro 0x0 [],  -- Controller state (R510)
     row 2 1 1 .u8 .ro 0 [],  -- Transmit error counter (R510)
     row 3 1 1 .u8 .ro 0 [],  -- Receive error counter (R510)
     row 4 1 1 .u32 .rc 0 [],  -- Frames received (R510)
     row 5 1 1 .u32 .rc 0 [],  -- Frames sent (R510)
     row 6 1 1 .u32 .rc 0 [],  -- Frames not routed (R510)
     row 7 1 1 .u8 .ro 0x0 [],  -- Last error code (R510)
     row 8 1 1 .u32 .rc 0 [],  -- Error frames (R510)
     row 9 1 1 .u32 .rc 0 [],  -- Bus-off entries (R510)
     row 10 1 1 .u8 .ro 0 [],  -- Entries in window (R510)
     row 11 1 1 .u32 .rc 0 [],  -- Transmit replacements (R510)
     row 12 1 1 .u32 .rc 0 [],  -- Arbitration losses (R510)
     row 13 1 1 .u32 .rc 0 [],  -- Protocol exceptions (R510)
     row 14 1 1 .u16 .ro 0 [],  -- Loop delay (R510)
     row 15 1 1 .u32 .rc 0 [],  -- Malformed transmit packets (R510)
     row 16 1 1 .u32 .rc 0 []] },  -- Stuck dominant (R510)
   { ix := 0x4910, count := 4, rows := [
     row 0 1 1 .u8 .const 0xf [],  -- Highest subindex (R569)
     row 1 1 1 .u32 .rc 0 [],  -- Frames received (R569)
     row 2 1 1 .u32 .rc 0 [],  -- Frames sent (R569)
     row 3 1 1 .u32 .rc 0 [],  -- FCS errors (R569)
     row 4 1 1 .u32 .rc 0 [],  -- Length errors (R569)
     row 5 1 1 .u32 .rc 0 [],  -- Frames not delivered (R569)
     row 6 1 1 .u32 .rc 0 [],  -- Collisions (R569)
     row 7 1 1 .u32 .rc 0 [],  -- Late collisions (R569)
     row 8 1 1 .u32 .rc 0 [],  -- Excessive-collision drops (R569)
     row 9 1 1 .u32 .rc 0 [],  -- PLCA status losses (R569)
     row 10 1 1 .u32 .rc 0 [],  -- Cyclic captures (R569)
     row 11 1 1 .u32 .rc 0 [],  -- Poison drops (R569)
     row 12 1 1 .u32 .rc 0 [],  -- Malformed transmit packets (R569)
     row 13 1 1 .u32 .rc 0 [],  -- Descriptor errors (R569)
     row 14 1 1 .u32 .rc 0 [],  -- Foreign BEACONs (R569)
     row 15 1 1 .u32 .rc 0 []] },  -- Frames filtered (R569)
   { ix := 0x4A00, count := 1, rows := [
     row 0 1 1 .u8 .const 0xe [],  -- Highest subindex (R596)
     row 1 1 1 .u8 .ro 0x0 [],  -- Link state (R596)
     row 2 1 1 .u8 .ro 0 [],  -- Link speed (R596)
     row 3 1 1 .u8 .ro 0 [],  -- Link width (R596)
     row 4 1 1 .u32 .rc 0 [],  -- Writes received (R596)
     row 5 1 1 .u32 .rc 0 [],  -- Reads received (R596)
     row 6 1 1 .u32 .rc 0 [],  -- Write failures (R596)
     row 7 1 1 .u32 .rc 0 [],  -- Read errors returned (R596)
     row 8 1 1 .u8 .rc 0 [],  -- Split reads, peak (R596)
     row 9 1 1 .u32 .rc 0 [],  -- Link-down count (R596)
     row 10 1 1 .u32 .rc 0 [],  -- Poisoned TLPs received (R596)
     row 11 1 1 .u32 .rc 0 [],  -- Unsupported Requests sent (R596)
     row 12 1 1 .u32 .rc 0 [],  -- Late results discarded (R596)
     row 13 1 1 .u32 .rc 0 [],  -- Correctable link errors (R596)
     row 14 1 1 .u32 .rc 0 []] },  -- Bridge resets (R596)
   { ix := 0x4A01, count := 1, rows := [
     row 0 1 1 .u8 .const 0x20 [],  -- Highest subindex (R596)
     row 1 4 8 .u48 .ro 0 [],  -- Failed write k, address (R596)
     row 2 4 8 .u32 .ro 0x0 [],  -- Failed write k, origin (R596)
     row 3 4 8 .timeLo .ro 0 [],  -- Failed write k, time, seconds (R596)
     row 4 4 8 .timeHi .ro 0 []] },  -- Failed write k, time, nanoseconds (R596)
   { ix := 0x4B00, count := 1, rows := [
     row 0 1 1 .u8 .const 0x17 [],  -- Highest subindex (R630)
     row 1 1 1 .bool .ro 0 [],  -- Approved mode (R630)
     row 2 1 1 .u8 .ro 0x1 [],  -- Dome state (R630)
     row 3 1 1 .u32 .ro 0 [],  -- Key epoch (R630)
     row 4 1 1 .u32 .ro 0 [],  -- Epoch ceiling (R630)
     row 5 1 1 .u8 .ro 0 [],  -- Zeroisation generation (R630)
     row 6 1 4 .u48 .ro 0 [],  -- Invocation counter CY, UR, BK, MG (R630)
     row 10 1 1 .u16 .ro 0x0 [],  -- Known-answer results (R630)
     row 11 1 1 .u32 .rc 0 [],  -- Frames sealed (R630)
     row 12 1 1 .u32 .rc 0 [],  -- Frames opened (R630)
     row 13 1 1 .u32 .rc 0 [],  -- Verification failures (R630)
     row 14 1 1 .u32 .rc 0 [],  -- Unsealed frames discarded (R630)
     row 15 1 1 .u32 .rc 0 [],  -- Key derivations (R630)
     row 16 1 1 .u32 .rc 0 [],  -- Context retrievals (R630)
     row 17 1 1 .u32 .rc 0 [],  -- Rekeys (R630)
     row 18 1 1 .u32 .rc 0 [],  -- Exhausted discards (R630)
     row 19 1 1 .u32 .ro 0 [],  -- Tamper events (R630)
     row 20 1 1 .timeLo .ro 0 [],  -- Last zeroisation, seconds (R630)
     row 21 1 1 .timeHi .ro 0 [],  -- Last zeroisation, nanoseconds (R630)
     row 22 1 1 .u32 .ro 0 [],  -- SRK check value (R630)
     row 23 1 1 .u32 .rc 0 []] }]  -- Authentication failures (R630)

/-- Entry tables, part 12: indices 0x4C00 to 0x4E01. -/
def entries12 : List Obj :=
  [{ ix := 0x4C00, count := 1, rows := [
     row 0 1 1 .u8 .const 0x6 [],  -- Highest subindex (R662)
     row 1 1 1 .u16 .ro 0x0 [],  -- Channels on (R662)
     row 2 1 1 .u16 .ro 0x0 [],  -- Channels latched (R662)
     row 3 1 1 .u32 .rc 0 [],  -- Trips, all channels (R662)
     row 4 1 1 .u32 .rc 0 [],  -- Lockouts (R662)
     row 5 1 1 .u32 .rc 0 [],  -- Gate suspects (R662)
     row 6 1 1 .u32 .rc 0 []] },  -- Shorted FET detections (R662)
   { ix := 0x4D01, count := 1, rows := [
     row 0 1 1 .u8 .const 0xc [],  -- Highest subindex (R542)
     row 1 1 1 .u8 .ro 0x0 [],  -- Round state (R542)
     row 2 1 1 .u16 .ro 0x0 [],  -- Keep-awake reasons (R542)
     row 3 1 1 .u8 .ro 0x0 [],  -- Round originator (R542)
     row 4 1 1 .u16 .ro 0x0 [],  -- Round number (R542)
     row 5 1 1 .timeLo .ro 0 [],  -- Point of no return, seconds (R542)
     row 6 1 1 .timeHi .ro 0 [],  -- Point of no return, nanoseconds (R542)
     row 7 1 1 .u32 .rc 0 [],  -- Rounds proposed (R542)
     row 8 1 1 .u32 .rc 0 [],  -- Rounds failed (R542)
     row 9 1 1 .u32 .rc 0 [],  -- Aborts (R542)
     row 10 1 1 .u8 .ro 0xff [],  -- Last wake source (R542)
     row 11 1 1 .timeLo .ro 0 [],  -- Last wake time, seconds (R542)
     row 12 1 1 .timeHi .ro 0 []] },  -- Last wake time, nanoseconds (R542)
   { ix := 0x4D02, count := 1, rows := [
     row 0 1 1 .u8 .const 0x40 [],  -- Highest subindex (R542)
     row 1 4 16 .u48 .ro 0 [],  -- Culprit k, record (R542)
     row 2 4 16 .u32 .ro 0 [],  -- Culprit k, span (R542)
     row 3 4 16 .timeLo .ro 0 [],  -- Culprit k, time, seconds (R542)
     row 4 4 16 .timeHi .ro 0 []] },  -- Culprit k, time, nanoseconds (R542)
   { ix := 0x4D03, count := 1, rows := [
     row 0 1 1 .u8 .const 0x1e [],  -- Highest subindex (R542)
     row 1 1 30 .u48 .ro 0 []] },  -- Wake source j status (R542)
   { ix := 0x4D10, count := 1, rows := [
     row 0 1 1 .u8 .const 0xc [],  -- Highest subindex (R690)
     row 1 1 1 .u16 .ro 0x1fff [],  -- Domains on (R690)
     row 2 1 1 .u32 .rc 0 [],  -- Domain switch-offs (R690)
     row 3 1 1 .u32 .rc 0 [],  -- Switch-offs aborted (R690)
     row 4 1 1 .u32 .rc 0 [],  -- Restore failures (R690)
     row 5 1 1 .u32 .rc 0 [],  -- AVS failures (R690)
     row 6 1 1 .u32 .rc 0 [],  -- PMBus failures (R690)
     row 7 1 1 .u16 .const Config.fusedCoreMv.toNat [],  -- Fused core voltage (R690)
     row 8 1 1 .u16 .ro 900 [],  -- Core voltage target (R690)
     row 9 1 1 .u16 .ro 0 [],  -- Core voltage measured (R690)
     row 10 1 1 .u32 .ro 0 [],  -- Last wake latency (R690)
     row 11 1 1 .u32 .rc 0 [],  -- Regulator alerts (R690)
     row 12 1 1 .u16 .ro 0 []] },  -- Core current (R690)
   { ix := 0x4D11, count := 1, rows := [
     row 0 1 1 .u8 .const 0xd [],  -- Highest subindex (R690)
     row 1 1 13 .u8 .ro 0x3 []] },  -- Domain state, domain 0 to 12 (R690)
   { ix := 0x4D12, count := 1, rows := [
     row 0 1 1 .u8 .const 0xd [],  -- Highest subindex (R690)
     row 1 1 13 .u32 .ro 0x1 []] },  -- Votes, domain 0 to 12 (R690)
   { ix := 0x4D13, count := 1, rows := [
     row 0 1 1 .u8 .const 0x4 [],  -- Highest subindex (R690)
     row 1 1 4 .u16 .ro 0x0 []] },  -- Rail status (R690)
   { ix := 0x4E00, count := 1, rows := [
     row 0 1 1 .u8 .const 0x8 [],  -- Highest subindex (R717)
     row 1 1 1 .u8 .ro 0 [],  -- Records held (R717)
     row 2 1 1 .u8 .ro 0xff [],  -- Reaction in effect (R717)
     row 3 1 1 .bool .ro 0 [],  -- SAFE_N level (R717)
     row 4 1 1 .u32 .rc 0 [],  -- Faults recorded (R717)
     row 5 1 1 .u32 .rc 0 [],  -- Escalations (R717)
     row 6 1 1 .u32 .rc 0 [],  -- Ring events sent (R717)
     row 7 1 1 .u32 .rc 0 [],  -- Ring events received (R717)
     row 8 1 1 .u32 .rc 0 []] },  -- Ring events dropped (R717)
   { ix := 0x4E01, count := 1, rows := [
     row 0 1 1 .u8 .const 0x6 [],  -- Highest subindex (R717)
     row 1 1 1 .u48 .ro 0 [],  -- First fault record (R717)
     row 2 1 2 .u48 .ro 0 [],  -- First fault detail A, B (R717)
     row 4 1 1 .timeLo .ro 0 [],  -- First fault time, seconds (R717)
     row 5 1 1 .timeHi .ro 0 [],  -- First fault time, nanoseconds (R717)
     row 6 1 1 .u32 .ro 0 []] }]  -- Later faults (R717)

/-- Entry tables, part 13: indices 0x4E02 to 0x5005. -/
def entries13 : List Obj :=
  [{ ix := 0x4E02, count := 1, rows := [
     row 0 1 1 .u8 .const 0x40 [],  -- Highest subindex (R717)
     row 1 4 16 .u48 .ro 0 [],  -- Log entry k, record (R717)
     row 2 4 16 .u48 .ro 0 [],  -- Log entry k, detail A (R717)
     row 3 4 16 .timeLo .ro 0 [],  -- Log entry k, time, seconds (R717)
     row 4 4 16 .timeHi .ro 0 []] },  -- Log entry k, time, nanoseconds (R717)
   { ix := 0x4E03, count := 1, rows := [
     row 0 1 1 .u8 .const 0x1e [],  -- Highest subindex (R717)
     row 1 1 30 .u48 .ro 0 []] },  -- Fault status, 0x01 to 0x1E (R717)
   { ix := 0x4E04, count := 1, rows := [
     row 0 1 1 .u8 .const 0x5 [],  -- Highest subindex (R717)
     row 1 1 1 .u48 .ro 0 [],  -- Previous capture (R717)
     row 2 1 1 .u48 .ro 0 [],  -- Previous capture (R717)
     row 3 1 1 .u48 .ro 0 [],  -- Previous capture (R717)
     row 4 1 1 .timeLo .ro 0 [],  -- Previous capture (R717)
     row 5 1 1 .timeHi .ro 0 []] },  -- Previous capture (R717)
   { ix := 0x4E10, count := 1, rows := [
     row 0 1 1 .u8 .const 0x6 [],  -- Highest subindex (R717)
     row 1 1 6 .u48 .w1c 0 []] },  -- Events pending (R717)
   { ix := 0x4E11, count := 1, rows := [
     row 0 1 1 .u8 .const 0x30 [],  -- Highest subindex (R717)
     row 1 3 16 .u48 .ro 0 [],  -- Event log k, record (R717)
     row 2 3 16 .timeLo .ro 0 [],  -- Event log k, time, seconds (R717)
     row 3 3 16 .timeHi .ro 0 []] },  -- Event log k, time, nanoseconds (R717)
   { ix := 0x4E12, count := 1, rows := [
     row 0 1 1 .u8 .const 0x18 [],  -- Highest subindex (R717)
     row 1 3 8 .u48 .ro 0 [],  -- Channel c, last frame (R717)
     row 2 3 8 .timeLo .ro 0 [],  -- Channel c, time, seconds (R717)
     row 3 3 8 .timeHi .ro 0 []] },  -- Channel c, time, nanoseconds (R717)
   { ix := 0x4F00, count := 1, rows := [
     row 0 1 1 .u8 .const 0xd [],  -- Highest subindex (R737)
     row 1 1 1 .u8 .ro 0x0 [],  -- Update state (R737)
     row 2 1 1 .u32 .ro 0 [],  -- Bytes received (R737)
     row 3 1 1 .u16 .ro Config.ringProtocolVersion.toNat [],  -- Running ring protocol version (R737)
     row 4 1 1 .u32 .ro Config.firmwareVersion.toNat [],  -- Running firmware version (R737)
     row 5 1 1 .u32 .ro 0 [],  -- Staged firmware version (R737)
     row 6 1 2 .u8 .ro 0 [],  -- Slot state A, B (R737)
     row 8 1 2 .u8 .ro 0 [],  -- Failed boots A, B (R737)
     row 10 1 1 .u8 .ro 0 [],  -- Running slot (R737)
     row 11 1 1 .u8 .ro 0 [],  -- Anti-rollback floor (R737)
     row 12 1 1 .u8 .ro 0x0 [],  -- Last update result (R737)
     row 13 1 1 .u8 .ro 0x0 []] },  -- Migration result (R737)
   { ix := 0x5000, count := 1, rows := [
     row 0 1 1 .u8 .const 4 [],  -- Capability 0, R114
     row 1 1 1 .u32 .const 1 [],
     row 2 1 1 .u16 .const 0x0100 [],
     row 3 1 1 .u16 .const 0x2000 [],
     row 4 1 1 .u16 .const 0x5001 []] },
   { ix := 0x5001, count := 1, rows := [
     row 0 1 1 .u8 .const 4 [],  -- Capability 1, R114
     row 1 1 1 .u32 .const 2 [],
     row 2 1 1 .u16 .const 0x0100 [],
     row 3 1 1 .u16 .const 0x2100 [],
     row 4 1 1 .u16 .const 0x5002 []] },
   { ix := 0x5002, count := 1, rows := [
     row 0 1 1 .u8 .const 4 [],  -- Capability 2, R114
     row 1 1 1 .u32 .const 3 [],
     row 2 1 1 .u16 .const 0x0100 [],
     row 3 1 1 .u16 .const 0x2a00 [],
     row 4 1 1 .u16 .const 0x5003 []] },
   { ix := 0x5003, count := 1, rows := [
     row 0 1 1 .u8 .const 4 [],  -- Capability 3, R114
     row 1 1 1 .u32 .const 4 [],
     row 2 1 1 .u16 .const 0x0100 [],
     row 3 1 1 .u16 .const 0x2900 [],
     row 4 1 1 .u16 .const 0x5004 []] },
   { ix := 0x5004, count := 1, rows := [
     row 0 1 1 .u8 .const 4 [],  -- Capability 4, R114
     row 1 1 1 .u32 .const 5 [],
     row 2 1 1 .u16 .const 0x0100 [],
     row 3 1 1 .u16 .const 0x2800 [],
     row 4 1 1 .u16 .const 0x5005 []] },
   { ix := 0x5005, count := 1, rows := [
     row 0 1 1 .u8 .const 4 [],  -- Capability 5, R114
     row 1 1 1 .u32 .const 6 [],
     row 2 1 1 .u16 .const 0x0100 [],
     row 3 1 1 .u16 .const 0x2d00 [],
     row 4 1 1 .u16 .const 0x5006 []] }]

/-- Entry tables, part 14: indices 0x5006 to 0x5009. -/
def entries14 : List Obj :=
  [{ ix := 0x5006, count := 1, rows := [
     row 0 1 1 .u8 .const 4 [],  -- Capability 6, R114
     row 1 1 1 .u32 .const 7 [],
     row 2 1 1 .u16 .const 0x0100 [],
     row 3 1 1 .u16 .const 0x2300 [],
     row 4 1 1 .u16 .const 0x5007 []] },
   { ix := 0x5007, count := 1, rows := [
     row 0 1 1 .u8 .const 4 [],  -- Capability 7, R114
     row 1 1 1 .u32 .const 8 [],
     row 2 1 1 .u16 .const 0x0100 [],
     row 3 1 1 .u16 .const 0x2b00 [],
     row 4 1 1 .u16 .const 0x5008 []] },
   { ix := 0x5008, count := 1, rows := [
     row 0 1 1 .u8 .const 4 [],  -- Capability 8, R114
     row 1 1 1 .u32 .const 9 [],
     row 2 1 1 .u16 .const 0x0100 [],
     row 3 1 1 .u16 .const 0x2c00 [],
     row 4 1 1 .u16 .const 0x5009 []] },
   { ix := 0x5009, count := 1, rows := [
     row 0 1 1 .u8 .const 4 [],  -- Capability 9, R114
     row 1 1 1 .u32 .const 10 [],
     row 2 1 1 .u16 .const 0x0100 [],
     row 3 1 1 .u16 .const 0x6000 [],
     row 4 1 1 .u16 .const 0x0 []] }]

/-- Every entry the spec's entry tables list. -/
def entryTable : List Obj :=
  entries0 ++ entries1 ++ entries2 ++ entries3 ++ entries4 ++ entries5 ++ entries6 ++ entries7 ++ entries8 ++ entries9 ++ entries10 ++ entries11 ++ entries12 ++ entries13 ++ entries14

end Sys2Proof.Machine
end

