-- ==== Sys2Proof/Machine/State.lean ====
section
/-! DEFINITION. The state of the hub as plain data: the object dictionary's register file, the internal state the spec
gives each block beside its entries, and the queue of waiting commands. INVENTORY.md lists every piece with the rule
that names it. -/

namespace Sys2Proof.Machine

/-- Reasons a step stops. No meaning of this model stops the machine: the hub turns every error into a refusal answer,
a counter, an event or a Watchtower fault, which are next states. -/
inductive Fault where
  /-- Raised by nothing; the type keeps the interface's second outcome inhabited. Safe: it never happens. -/
  | none
deriving DecidableEq, Repr

/-- Reasons a command has no meaning. -/
inductive Refusal where
  /-- The dispatch raises it for a command whose meaning is not written yet. Safe: the machine stops by name. -/
  | notModelled (mnemonic : String)
deriving DecidableEq, Repr

/-- What the last access answered: the output of the access paths (R81, R94, R579, R588); several words with their poison bits (R273). -/
inductive Answer where
  | none
  | accepted
  | value (v : Nat)
  | bytes (bs : List Byte)
  | poisoned (bs : List Byte)
  | words (ws : List (Word × Bool))
  | refused (code : Nat)
  | abort (code : Nat)
  | unsupported
  | completerAbort
  | status (code : Nat)
deriving DecidableEq, Repr

/-- A sparse table of per-instance state: instances not listed have their reset value. -/
abbrev Tab (α : Type) := List (Nat × α)

/-- The balls the board drives (R53, R54, R56, R58). -/
structure Env where
  straps   : Nat
  testMode : Bool
  resetLow : Bool
  supplies : Bool
deriving DecidableEq, Repr

/-- Progress of BOOT (R61, R62, R64, R782) and the boot window (R593). -/
structure Boot where
  latched     : Bool
  memDone     : Bool
  memOk       : Bool
  katDone     : Bool
  katOk       : Bool
  imageDone   : Bool
  complete    : Bool
  transit     : Bool
  factoryWait : Bool
  image       : List Byte
  control     : Nat
deriving DecidableEq, Repr

/-- What the mode rules remember beside 0x2000 (R67, R68, R69, R332). -/
structure Modes where
  runRequest    : Bool
  blocked       : Bool
  blockedGate   : Nat
  autoReturn    : Bool
  serviceCycles : Bool
deriving DecidableEq, Repr

/-- One crossing (R20 to R27): the transfers in its entries (their credits have not returned), those waiting for a free entry, words
the destination has taken so far, whether the sender has marked it broken, transfers discarded or refused. Whether it is closed
follows from the power state of its islands (R27). -/
structure Crossing where
  entries   : List XWord
  waiting   : List XWord
  delivered : List XWord
  broken    : Bool
  discarded : Nat
deriving DecidableEq, Repr

/-- What one access path holds (R76), by slot: latched upper and held lower words of TIME entries (R9, R10), latched long entries
(R74), the long entry it is writing (R75), the frames its info reads latched by buffer (R480). -/
structure PathState where
  timeLatch : Tab Nat
  timeHeld  : Tab Nat
  longLatch : Tab (List Word)
  longHeld  : Option (Nat × List Word)
  canLatch  : Tab (List Word)
deriving DecidableEq, Repr

/-- The host window's half-access latches (R781, R88). -/
structure HostHalf where
  latch : Option (Nat × Nat)
  half  : Option (Nat × Nat)
deriving DecidableEq, Repr

/-- The remote-access mailbox (R99): the tag of the pending operation, whether it is a read, the next tag. -/
structure Mailbox where
  pending : Option Nat
  isRead  : Bool
  nextTag : Nat
deriving DecidableEq, Repr

/-- One copy of the configuration record (R105) with its CMAC tag; `marked`: marked invalid, or its store did not end (R106, R110). -/
structure ConfigCopy where
  seq     : Nat
  version : Nat
  entries : List (Nat × Word)
  tag     : Nat
  marked  : Bool
deriving DecidableEq, Repr

/-- The store in progress (R102): its copy (slot A or B), sequence number and snapshot. -/
structure StoreJob where
  toB      : Bool
  seq      : Nat
  snapshot : List (Nat × Word)
deriving DecidableEq, Repr

/-- Storing and loading (R80, R102); `dirty`: a persistent entry was written since the last store (R677);
`loaded`: the configuration is loaded and its format version accepted (gate condition [3], R107). -/
structure Store where
  job     : Option StoreJob
  loading : Bool
  dirty   : Bool
  loaded  : Bool
deriving DecidableEq, Repr

/-- A held fault record (R691 to R709). `windowStart` is in nanoseconds of ring time. -/
structure FaultRec where
  island      : Nat
  detailA     : Nat
  detailB     : Nat
  chosen      : Nat
  level       : Nat
  escalated   : Bool
  injected    : Bool
  cause       : Bool
  windowStart : Nat
  windowCount : Nat
deriving DecidableEq, Repr

/-- What Watchtower holds beside 0x4E: records by code, occurrences since reset, the always-on capture copy (R702),
the always-on backstop and its record (R41, R699), held injections and armed one-shot injections (R710), a release
waiting for its output instant (R706), a HALT reaction seen since reset (R692), stamps of the last frame per ring channel (R714) and of the last raising per
rate-limited event and cause. -/
structure Watch where
  records      : Tab FaultRec
  occurrences  : Tab Nat
  previous     : List Word
  backstop     : Bool
  backstopRec  : Option Nat
  injected     : List Nat
  armed        : List (Nat × Nat)
  injecting    : Bool
  releasing    : Bool
  halted       : Bool
  channelStamp : Tab Nat
  rates        : Tab Nat
deriving DecidableEq, Repr

/-- Delay measurement at one port (R370, R371): its peer, the last sequence sent, the requests without a response (sequence, t1), oldest
first, exchanges that wait for their t3 (sequence, t1, t2, t4), the last 64 valid path delays in ps, newest first, valid
exchanges with this peer, the last response this port sent (sequence answered, the frame's number). Stamps are in ps. -/
structure SpanMeter where
  peer   : Nat
  seq    : Nat
  opened : List (Nat × Nat)
  pend   : List (Nat × Nat × Nat × Nat)
  delays : List Int
  valid  : Nat
  reply  : Nat × Nat
deriving DecidableEq, Repr

/-- One SYNC chain (R373, R380, R383): the last SYNC received (sequence, arrival in ps), the chain sequence and the frame's number of the
last SYNC sent, SYNCs accepted in a row. -/
structure Chain where
  last   : Option (Nat × Nat)
  seq    : Nat
  sent   : Option Nat
  row    : Nat
deriving DecidableEq, Repr

/-- The replica counter of one stamping island (R30, R32), in units of 2^-32 ns: its count, the value it shows until the count
has reached it, and what has passed of its island's present clock period, in units of 2^-32 ns times Hz. -/
structure Replica where
  count : Nat
  held  : Nat
  part  : Nat
deriving DecidableEq, Repr

/-- Spire (R360 to R394) beside 0x4500: time in units of 2^-32 ns, the replica counter of each stamping island (R30, R361);
delay meters by port, chains by ring, candidates heard (class, LOCKED, stamp in ns), loop times by ring in ns, a SYNC with
a nonzero RT accepted; the one step taken at this lock, the step pending in ps, SYNCs within 100 ns in a row, what is left
of a hold; since when candidates are listened for, and the last time in ns at which one was LOCKED (R365, R366); this hub's class,
PPS_OUT, the time of day written for the next edge in 2^-16 ns, the step in 2^-32 ns it gives at its edge, whether that
waits for the next COMMISSION (R394), whether a time of day was ever stepped to (R393), good edges in a row and edges outside the window
in a row; entry to HOLDOVER and time spent in it in ns; the holdover counter's increment and value in
units of 2^-32 ns, and the time since its last count (R387); a Spire island fault. -/
structure Spire where
  acc      : Nat
  replicas : Tab Replica
  spans    : Tab SpanMeter
  chains   : Tab Chain
  cands    : Tab (Nat × Bool × Nat)
  loops    : Tab Nat
  rtSeen   : Bool
  stepped  : Bool
  toStep   : Option Int
  good     : Nat
  hold     : Nat
  listenAt : Nat
  lockedAt : Nat
  cls      : Nat
  ppsOut   : Bool
  tod      : Option Nat
  todStep  : Option Int
  todWaits : Bool
  sourced  : Bool
  ppsGood  : Nat
  ppsBad   : Nat
  holdAt   : Nat
  holdSum  : Nat
  holdInc  : Nat
  holdTime : Nat
  holdPart : Nat
  faulted  : Bool
deriving DecidableEq, Repr

/-- A contribution frame held for the next window (R337). -/
structure Early where
  src   : Nat
  tag   : Nat
  first : Nat
  words : List Word
deriving DecidableEq, Repr

/-- Where a consumed SIGNAL's word comes from (R338, R339): holder and slot, the change announced for a cycle, and the holder and slot
before the last change. -/
structure Route where
  holder : Nat
  slot   : Nat
  next   : Option (Nat × Nat × Nat)
  old    : Option (Nat × Nat)
deriving DecidableEq, Repr

/-- A SIGNAL or REFLEX that has moved away and goes on here until its switch time in ns (R319), with the slot or table entry it keeps. -/
structure Leaving where
  handle : Nat
  kind   : Nat
  base   : Nat
  switch : Nat
  defn   : ObjDef
deriving DecidableEq, Repr

/-- The cyclic exchange (R327 to R357) beside 0x4400: whether cycles run; cycles started since RUN entry or since the last
release of a Watchtower reaction (outputs are applied from the second on: R69, R356); cycles started since reset, and how many there were at the last event of each EV_CYC_ kind and cause (R357); the period in
force, k, S_k, the start before it and P_k in ns; whether the work of cycle k is complete and its outputs applied; the words contributed next by slot; the words the
open window refreshed and image k - 1 with the window that last refreshed each word (keys hub × 1024 + slot); frames held
early; words accepted, frames and frames with another tag in the open window, the number, frames and frames with another tag of the one before;
whether the open window took a frame of
another hub, and consecutive windows that took none; routes of consumed SIGNALs by handle; consecutive stale windows of a
consumed SIGNAL; reflex results by table entry; slots a reflex wrote in the open window; SIGNALs and REFLEXes that start
or stop at T_s (handle, T_s in ns, starting), and those that have moved away but go on until then. -/
structure Cyc where
  running  : Bool
  since    : Nat
  cycles   : Nat
  limits   : Tab Nat
  period   : Nat
  number   : Nat
  start    : Nat
  prior    : Nat
  length   : Nat
  complete : Bool
  applied  : Bool
  own      : Tab Word
  opened   : Tab Word
  image    : Tab (Word × Nat)
  early    : List Early
  accepted : Nat
  frames   : Nat
  wrongTag : Nat
  closed   : Nat × Nat × Nat
  heard    : Bool
  missed   : Nat
  routes   : Tab Route
  stale    : Tab Nat
  results  : Tab Word
  written  : List Nat
  switches : List (Nat × Nat × Bool)
  leaving  : List Leaving
deriving DecidableEq, Repr

/-- One engine (Table 1 of I/O engines and Groves, R399) beside its entries at 0x3000 + e (state 01, divider 03, fault
cause 10, stall clocks 11, bound PROGRAM 12, loaded image 13, load check 15): `en`, `lvl` are the pin outputs, `acc` the
rate accumulator of R402, `pins` the FIO numbers, `safe` the safe levels, `spares` the spares not in use of the bound PROGRAM
(R404, R293) and `failed` those of its FIO numbers that a failed driver has taken out of use (R320), `iirNext`
an image word taken at the next O_k (R420, R671), `keepHalted` the HALT kept through a handover (R428), `badWord` an
injected error in program word 0 (1 single-bit, 2 double-bit; R710). -/
structure Engine where
  prog       : List Nat
  pc         : Nat
  sr         : Word
  x          : Word
  y          : Word
  cmp        : Word
  tk         : Word
  iir        : Word
  ior        : Word
  l          : Nat
  cnt        : Nat
  m          : Bool
  n          : Bool
  e          : Bool
  p          : Byte
  en         : Byte
  lvl        : Byte
  txq        : List XWord
  rxq        : List XWord
  cpin       : Nat
  caction    : Nat
  split      : Nat
  acc        : Nat
  pins       : List Nat
  safe       : Nat
  spares     : List Nat
  failed     : List Nat
  iirNext    : Option Word
  keepHalted : Bool
  badWord    : Nat
deriving DecidableEq, Repr

/-- One stream FIFO (R440 to R463) beside its entries at 0x3200 + f (state 01, STREAM 02, budget 03, counters): the held
words [B, W) with their stream indices, R - B, the mark, the packer's bytes, pages held and B's place in its page, next
index W, E, the next unsent index, the credit limit L, the L last sent in a CREDIT, STOP with its stamp and report, a
delivery that is due or not yet read, an oversize packet being discarded (R451), the FIFO settings and the two ends
(Table 3 of Forester placement and migration), the stamp of the last commit while the idle timeout runs, the indices of held words
with an error that no read has found yet, 1 a single-bit and 2 a double-bit error (R464). -/
structure Fifo where
  words     : List (XWord × Nat)
  read      : Nat
  mark      : Bool
  packer    : List Byte
  pages     : Nat
  off       : Nat
  wIdx      : Nat
  e         : Nat
  next      : Nat
  limit     : Nat
  sentLimit : Nat
  stop      : Bool
  stopAt    : Nat
  reported  : Bool
  due       : Bool
  notified  : Bool
  dropping  : Bool
  settings  : Nat
  producer  : Nat
  consumer  : Nat
  lastCommit : Option Nat
  errors    : List (Nat × Nat)
deriving DecidableEq, Repr

/-- A role session of one access path (R617 to R619): its role, the open challenge (role, words, stamp in ns),
consecutive wrong responses, whether the path is closed to role requests, the last access in ns. -/
structure Session where
  role       : Nat
  challenge  : Option (Nat × Nat × Nat × Nat)
  failures   : Nat
  closed     : Bool
  lastAccess : Nat
deriving DecidableEq, Repr

/-- One fuse channel beside its entries at 0x3600 + n: gate command G, t_0 and t_r, the retry attempt's window end while
it runs, the end of the cool-down while it runs, the latch kept through DISABLED (6 LOCKOUT, 7 SUSPECT, 0 none), the
limit waiting for its grace (R655), the board's presence as accepted, the request bit last applied by an output target,
whether the channel keeps its state until the first output instant (R640), an EV_FUSE_START_HELD raised for the present
hold, the stamp of the latest samples, since when the current is at its limit and since when a shorted output is low
(R657), the short diagnosed, the peaks of the open and of the closed cycle window (R636). Times are nanoseconds. -/
structure FuseCh where
  g         : Nat
  t0        : Nat
  tr        : Nat
  retryEnd  : Option Nat
  coolEnd   : Option Nat
  latch     : Nat
  pending   : Option Nat
  present   : Bool
  applied   : Bool
  waiting   : Bool
  startHeld : Bool
  sampleAt  : Option Nat
  overSince : Option Nat
  lowSince  : Option Nat
  shorted   : Bool
  peak      : Nat
  lastPeak  : Nat
deriving DecidableEq, Repr

/-- The shared converters (R634, R783): the codes of the analogue inputs in each round that the open cycle window may need, oldest
first, with the bus island's stamp in ns (the latest before that window, those since its start; no more than the latest while no cycle
runs), and the die temperatures in °C. -/
structure Adc where
  samples : List (Nat × List Nat)
  die     : List Int
deriving DecidableEq, Repr

/-- One word of the save memory with its check bits (R672). -/
structure SaveWord where
  word  : Word
  check : BitVec 7
deriving DecidableEq, Repr

/-- The save list of a domain, in its fixed slots of the save memory, and the CRC-32 stored with it (R672, R673). -/
structure SaveList where
  words : List SaveWord
  crc   : Nat
deriving DecidableEq, Repr

/-- Power (R666 to R687): the save memory's list of each domain (R672); engines a switch-off halted and a switch-on resumes; Groves that placement or a handover targets
(vote [16]); the AVSBus write in progress with its retries on busy and otherwise; PMBus retries per rail; the wake from
DORMANT: in progress, rails found power-good, attempts, its stamp in ns; the rail that failed a wake and its attempts; 4 ns ticks
since VDD_AON became valid (R769); whether the bus aggregate's save list was lost and the configuration is still to be loaded
(R674). -/
structure Power where
  save       : Tab SaveList
  resumed    : List Nat
  targets    : List Nat
  avsTarget  : Option Nat
  avsBusy    : Nat
  avsOther   : Nat
  pmbTries   : Tab Nat
  waking     : Bool
  railsGood  : List Nat
  wakeTries  : Nat
  wakeAt     : Nat
  railFailed : Option (Nat × Nat)
  aonTicks   : Nat
  busLost    : Bool
deriving DecidableEq, Repr

/-- One span of the culprit log (R539): the attempt's originator, the refusing hub, the stamp of its first REFUSE and, once
closed, of its end, and the OR of its reasons. -/
structure Span where
  origin  : Nat
  hub     : Nat
  start   : Nat
  ending  : Option Nat
  reasons : Nat
deriving DecidableEq, Repr

/-- The sleep round and wakes (R513 to R540): this hub's last round number, the round last answered per originator with
whether it was consented to, consents received, hubs present at PROPOSE and the stamp of the last PROPOSE, copies of COMMIT
still to send, requests held at their ports, entry to DORMANT in progress, a latched wake, sleeping resources (8 to 23 CAN,
24 to 27 T1S, 32 + g Groves), sources awaiting valid communication, originators of open attempts with their spans, stamps
of the last frame per CAN controller and T1S port, and the WAKE_IN levels as last sampled. -/
structure Sleep where
  ownRound : Nat
  heard    : Tab (Nat × Bool)
  consents : List Nat
  present  : List Nat
  roundAt  : Nat
  copies   : Nat
  holding  : Bool
  entering : Bool
  latched  : Option Nat
  asleep   : List Nat
  awaiting : List Nat
  attempts : List Nat
  spans    : List Span
  lastCan  : Tab Nat
  lastT1s  : Tab Nat
  wakeIn   : Nat
deriving DecidableEq, Repr

/-- One receive context of Dome (R611, R613): its source and slot, its epoch, and the previous epoch during the grace
time. Its keys follow from the SRK and these (R599). -/
structure RxContext where
  src  : Nat
  slot : Nat
  epoch : Nat
  prev : Option Nat
deriving DecidableEq, Repr

/-- Dome (R599 to R627). The SRK records (always-on and flash), the always-on epoch record with its validity, the flash
ceiling, the generation fuses and the tamper-proof error state survive a reset; the epoch waiting for the ceiling write,
whether that write runs, whether the advance is a rekey, whether the current epoch is persisted, the epoch each send
context has switched to, exhausted send contexts, hardware and private-store receive contexts (most recently used
first), the contexts saved for DORMANT, and the challenges issued in this epoch do not, but for the saved contexts. -/
structure Dome where
  srk        : Option (List Byte)
  epoch      : Nat
  epochValid : Bool
  ceiling    : Nat
  generation : Nat
  next       : Option Nat
  writing    : Bool
  rekeying   : Bool
  persisted  : Bool
  sendEpoch  : Tab Nat
  exhausted  : List Nat
  hardware   : List RxContext
  inner      : List RxContext
  saved      : List RxContext
  challenges : Nat
deriving DecidableEq, Repr

/-- One port's receive direction and transmitter beside 0x4100 (R128 to R133, R166, R170): the highest state reached, a
miswire in progress with the stamp of its last hello in ns (R130), a LINK STATE down sent whose up is due, the transmitter stopped for retraining, the
last hello sent, frames that are arriving with their hop counts, whose transit copies are on their way (R149), and of each
subtype of this hub's time frames the last that left: its number and the stamp of its START in ps (R368, R389). -/
structure Link where
  highest   : Nat
  miswire   : Bool
  miswireAt : Nat
  downSent  : Bool
  stopped   : Bool
  helloSent : Option Nat
  arriving  : List (Frame × Nat)
  left      : Tab (Nat × Nat)
deriving DecidableEq, Repr

/-- A frame to send with its hop count (R141); `error`: its copy ends with an ERROR block (R150); `crc`: the CRC part it came with, which
a transit copy keeps (R36, R134); none where this hub forms the CRC on sending (R174), or the frame's end has not come yet. -/
structure TxFrame where
  frame : Frame
  hop   : Nat
  error : Bool
  crc   : Option Nat
deriving DecidableEq, Repr

/-- A frame being sent: the number of its present or last fragment (R144), and the byte offset at which that fragment began or, of a
suspended frame, at which it was interrupted (R143). -/
structure Sending where
  item     : TxFrame
  fragment : Nat
  offset   : Nat
deriving DecidableEq, Repr

/-- A control block on the lanes that begins, interrupts, resumes or ends a frame (Table 2 of Ring links and frames). -/
inductive LineBlock where
  | start (hop : Nat) (express : Bool)
  | pause (k : Nat)
  | cont (k : Nat)
  | fin (k : Nat)
  | error
deriving DecidableEq, Repr

/-- One transmit direction (R142 to R147): express, transit and local preemptable frames that wait, in the order they became ready;
the frame on the link; the suspended frame; transit frames sent in a row; the control blocks sent since the direction last
turned to another frame. -/
structure Tx where
  express   : List TxFrame
  transit   : List TxFrame
  own       : List TxFrame
  onLink    : Option Sending
  suspended : Option Sending
  run       : Nat
  line      : List LineBlock
deriving DecidableEq, Repr

/-- A claim in progress (R160): the number asked for (0 to be offered one), the number claimed (0 while none is offered), and
whether a lower serial number claims it too. -/
structure Claim where
  asked  : Nat
  number : Nat
  lost   : Bool
deriving DecidableEq, Repr

/-- The ring beside its entries (R148 to R168): duplicate records (highest number H and the record of H - 1 to H - 256)
per stream, distances on each ring of the hubs whose PRESENCE arrives, their roles and modes, LINK STATE downs without their up
(hub, East, the hub's distance then), the last moment in ns at which another hub was present (R354), rings lost as last evaluated, the claim, whether a conflict ended it, the number held before DORMANT, the role in force, as it was at the ring join (0x2000:0B),
offers made (serial, number, stamp in ns), GROUPs this hub is in, frames accepted at a ring port and frames on their
way to Dome. -/
structure Ring where
  dups     : Tab (Nat × Nat)
  distA    : Tab Nat
  distB    : Tab Nat
  roles    : Tab Nat
  modes    : Tab Nat
  downs    : List (Nat × Bool × Nat)
  presentAt : Option Nat
  lostA    : Bool
  lostB    : Bool
  claim    : Option Claim
  conflict : Bool
  before   : Nat
  role     : Nat
  offers   : List (Nat × Nat × Nat)
  groups   : List Nat
  arrived  : List (Nat × Frame)
deriving DecidableEq, Repr

/-- A frame in Belfry's buffer (R174, R178, R186, R200): its number, input, the cells that hold it, how it is charged (0 credits, 1
ring part, 2 shared pool), its stamp in ns, whether it had several outputs, its copies (output, cells granted), cells freed,
and bit errors in its stored words (word, 1 single-bit, 2 double-bit, 3 and 4 the same by no injection; R206). -/
structure Stored where
  id     : Nat
  input  : Nat
  frame  : Frame
  cells  : List Nat
  charge : Nat
  stamp  : Nat
  multi  : Bool
  copies : List (Nat × Nat)
  freed  : Nat
  errors : List (Nat × Nat)
deriving DecidableEq, Repr

/-- An input of Belfry's control logic (R219): a frame arrival descriptor of a port, a credit return of an output and class, a write
of a Belfry entry, a Watchtower command. -/
inductive TickInput where
  | arrival (port : Nat) (frame : Frame)
  | credit (output cls : Nat)
  | entry (key value : Nat)
  | command (value : Nat)
deriving DecidableEq, Repr

/-- The tick register on the data tree (R219): the inputs of the last arbitration tick, the Belfry replica of Spire time in units
of 2^-32 ns, the pattern word of the shadow test. -/
structure TickReg where
  inputs  : List TickInput
  time    : Nat
  pattern : Nat
deriving DecidableEq, Repr

/-- Belfry (R173 to R212): the tick register, stored frames in admission order, the cells that are not on the free list, class counters of stored cells,
credits held and withheld per input port and class (key 4p + c), output credits in use, weighted round robin shares left per
output, starvation counters, round-robin pointers, the locate pass (the cells its first pass left unmarked), frames handed to a
consumer port, events raised in this census interval (event, class or port). -/
structure Belfry where
  tick      : TickReg
  nextId    : Nat
  taken     : List Nat
  raised    : List (Nat × Nat)
  stored    : List Stored
  counts    : Tab Nat
  credits   : Tab Nat
  withheld  : Tab Nat
  outUsed   : Tab Nat
  shares    : Tab (Nat × Nat)
  starve    : Tab Nat
  turn      : Tab Nat
  locating  : Option (Option (List Nat))
  delivered : List (Nat × Frame)
deriving DecidableEq, Repr

/-- One Belfry channel beside 0x4203 + n (R217, R229 to R241): stamps of its exclusions in ns (always-on), abandoned replays in a
row, the stamp of its replay point P, the stamp at which its checkpoint was loaded, waiting in EXCLUDED after a passed self-test. `copy`
is its own copy of the control state: each listed slice holds the voted state's (`Belfry`) with these bits inverted, any other slice the
same; none while the channel is in reset, in self-test or in replay. `point` is its checkpoint, the control state at P; `log` holds the
tick registers from P. -/
structure Channel where
  exclusions : List Nat
  abandoned  : Nat
  replayAt   : Nat
  loaded     : Option Nat
  passed     : Bool
  copy       : Option (Tab Word)
  point      : Option Belfry
  log        : List TickReg
deriving DecidableEq, Repr

/-- One Canopy map entry (R257, Table 3). States: 0 FREE, 1 BOUND, 2 MOVING, 3 UNBOUND. -/
structure MapEntry where
  state  : Nat
  kind   : Nat
  hgen   : Nat
  bgen   : Nat
  holder : Nat
  base   : Nat
  length : Nat
deriving DecidableEq, Repr

/-- One residence entry (R259): 0 VALID, 1 DRAINING, 2 PENDING; with what its holder needs of the definition, and its Placement field
(R294). -/
structure Residence where
  handle : Nat
  kind   : Nat
  base   : Nat
  length : Nat
  gen    : Nat
  state  : Nat
  defn   : ObjDef
  place  : Nat
deriving DecidableEq, Repr

/-- One translation of the Reach cache (R261, R262). -/
structure Translation where
  handle : Nat
  holder : Nat
  kind   : Nat
  length : Nat
  gen    : Nat
deriving DecidableEq, Repr

/-- Order state of a receiving flow (R274): the next number and the requests that came ahead of it. -/
structure Flow where
  expected : Nat
  ahead    : List CReq
deriving DecidableEq, Repr

/-- A request that a requester port has sent (R266, R283): to which hub, and waiting for its 10 µs retry (R265). -/
structure Outstanding where
  req   : CReq
  dest  : Nat
  retry : Bool
deriving DecidableEq, Repr

/-- What waits at a requester port, in issue order (R266, R276, R283). -/
inductive PortItem where
  | req (r : CReq)
  | barrier
deriving DecidableEq, Repr

/-- A request this home forwarded: the request as it arrived, its holder, and the tag and order number it went out under
(R264, R269). -/
structure Relay where
  orig   : CReq
  holder : Nat
  tag    : Nat
  order  : Nat
deriving DecidableEq, Repr

/-- Posted writes of a flow to acknowledge (R270): how many, the order number of the last, its binding generation, fill word and, where its
address is logical, handle. -/
structure Ack where
  count : Nat
  last  : Nat
  gen   : Nat
  fill  : Option CFill
  handle : Option Nat
deriving DecidableEq, Repr

/-- Canopy (R248 to R286). Map entries not listed are FREE; `reach` is most recently used first; `mem` holds one byte per
byte address of the local address space, in canonical form (unlisted bytes read 0), `poison` the poisoned word slots;
order numbers sent, order state received, writes to acknowledge, requests outstanding
and waiting at the ports, requests forwarded and held (with their slot), stamps in ns of slot releases and commits; map
slots and residences (by handle) with an uncorrectable error (R260); reflexes whose remote write went out under a tag (R347). -/
structure Canopy where
  map        : Tab MapEntry
  residences : List Residence
  reach      : List Translation
  mem        : List Host.Cell
  poison     : List Nat
  sent       : Tab Nat
  flows      : Tab Flow
  acks       : Tab Ack
  out        : List Outstanding
  ports      : Tab (List PortItem)
  relays     : List Relay
  nextTag    : Nat
  held       : List (Nat × CReq)
  released   : Tab Nat
  committed  : Tab Nat
  badMap     : List Nat
  badRes     : List Nat
  reflexTags : Tab Nat
deriving DecidableEq, Repr

/-- One piece of a host read or atomic (R573): its Canopy tag, its slots, its status and words once answered. -/
structure HostPiece where
  tag    : Nat
  slots  : Nat
  result : Option (Nat × List (Word × Bool))
deriving DecidableEq, Repr

/-- A host read or atomic in progress (R575, R590): its QSPI tag if it came by QSPI, its offset and length in bytes. -/
structure HostRead where
  qspi   : Option Nat
  offset : Nat
  length : Nat
  pieces : List HostPiece
deriving DecidableEq, Repr

/-- A barrier read that waits (R581): by QSPI its tag, the bytes its command read before it, its width in bytes, and offset and length of
what its command reads after it (R89). -/
structure BarrierRead where
  qspi   : Option Nat
  before : List Byte
  width  : Nat
  after  : Nat × Nat
deriving DecidableEq, Repr

/-- An access to the dictionary that waits until an earlier write of its path is applied or refused (R77, R90): a read or write of the host
window at an offset of the dictionary space by its length in bytes, by QSPI with its tag and the bytes its command has read; a read
or write of a slot, or a write of a whole entry, on a path; a request over the ring. -/
inductive HeldAccess where
  | hostRead (qspi : Option Nat) (before : List Byte) (offset length : Nat)
  | hostWrite (offset length value : Nat)
  | slotRead (path : Path) (index sub : Nat)
  | slotWrite (path : Path) (index sub value : Nat)
  | entryWrite (path : Path) (index sub value : Nat)
  | request (src op tag index sub count : Nat) (data : List Nat)
deriving DecidableEq, Repr

/-- The host bridge (R570 to R596): accesses to the dictionary that wait, oldest first, those of ring paths too; the next Canopy tag, reads in progress in arrival order, QSPI results not collected,
requester IDs of posted writes by Canopy tag, entries made in 0x4A01 since the last barrier read, barrier reads that wait,
the MSI-X table by 8-byte slot (R572). -/
structure HostBr where
  waiting : List HeldAccess
  nextTag : Nat
  reads   : List HostRead
  results : Tab (List Byte)
  writers : Tab Nat
  logged  : Nat
  barrier : List BarrierRead
  table   : Tab Nat
deriving DecidableEq, Repr

/-- A move in progress at its home (Table 7 of Canopy addressing, Table 7 of Forester placement and migration): map slot (4096 for a PROGRAM
homed elsewhere that changes its engine here), handle,
trigger, migration tag, target hub and engine, holder and engine before, start in ns, switch time T_s in ns (0 none), the
phase (1 OFFER, 2 DRAIN, 3 copy, 4 COMMIT, 5 ABORT sent, 6 GROUP installed at its members, 7 handover between engines, 8 and 9 a deleted
object drained at its holder and removed there, 10 a deleted GROUP removed at its members, 11 OFFER of a STREAM's sending FIFO after the
receiving one was taken), the result so far, and hubs whose ACK is awaited (in phase 11, the hub that took the receiving FIFO). -/
structure Move where
  slot    : Nat
  handle  : Nat
  trigger : Nat
  tag     : Nat
  target  : Nat
  engine  : Nat
  source  : Nat
  sourceE : Nat
  started : Nat
  switch  : Nat
  phase   : Nat
  result  : Nat
  acks    : List Nat
deriving DecidableEq, Repr

/-- An offer this hub accepted as target (R313, R316): home, tag, the residence being built, state words received. -/
structure Incoming where
  home  : Nat
  tag   : Nat
  entry : Residence
  words : Tab Word
deriving DecidableEq, Repr

/-- A move this hub takes part in as holder A: home, tag, handle, target, T_s in ns, whether the copy was sent (not where poison stopped it). -/
structure Outgoing where
  home   : Nat
  tag    : Nat
  handle : Nat
  target : Nat
  switch : Nat
  copied : Bool
deriving DecidableEq, Repr

/-- Forester (R289 to R326): moves, offers and drains in progress; traffic counts by handle (requester hub, words by class
CY, UR, BK, MG); scores by handle (hub, T_r); handles whose last interval showed a gain; stamps of moves started; result
codes reported by slot; slots that await a claim after a census, CENSUS frames without an answer (tag, hub, handles), whether a run has
taken place since reset; the next migration tag; the definition and Placement field each slot was bound under (R292); hubs that refused
a fresh placement (slot, hub); slots whose holder is lost; reflex table entries and
contribution slots in use (number, handle); slots whose definition was written since a placement run last took it into force; whether
EV_FORESTER_PLACEMENT_DONE stands; the tag of the move a request at 0x2311 started; slots whose placement waits for a move to end or
for a Grove to be switched on (R301); engines whose failure trigger waits for the rate limit, the last commit, a Grove or a handover
(engine, trigger 3, or 256 + FIO number of a failed pin; R308); the scores of the last interval by handle (R326). -/
structure Forester where
  moves     : List Move
  incoming  : List Incoming
  outgoing  : List Outgoing
  counts    : Tab (List (Nat × List Nat))
  scores    : Tab (List (Nat × Nat))
  gains     : List Nat
  starts    : List Nat
  reported  : Tab Nat
  census    : List Nat
  asked     : List (Nat × Nat × List Nat)
  placed    : Bool
  nextTag   : Nat
  defs      : Tab (ObjDef × Nat)
  refused   : List (Nat × Nat)
  lost      : List Nat
  reflexes  : Tab Nat
  slots     : Tab Nat
  changed   : List Nat
  done      : Bool
  request   : Option Nat
  waiting   : List Nat
  due       : List (Nat × Nat)
  last      : Tab (List (Nat × Nat))
deriving DecidableEq, Repr

/-- What a CAN controller's attempt sends (R483): a transmit buffer, the head packet of its STREAM, an SDO response, a
heartbeat or boot-up message. -/
inductive CanSource where
  | buffer (b : Nat)
  | stream
  | sdo
  | heartbeat
deriving DecidableEq, Repr

/-- One CAN controller (R470 to R499, R528 to R531) beside 0x4810 + c: buffers with a request pending; the source and the
frame of the attempt on the bus and the stamp of its SOF; field writes staged for the buffer on the bus (key, value);
an abort of the buffer on the bus; stamps in ns of the bus-off entries recorded; the frame error counter of partial
networking. -/
structure CanCtl where
  pending  : List Nat
  onBus    : Option CanSource
  frame    : CanFrame
  sof      : Nat
  staged   : Option (List (Nat × Word))
  aborted  : Bool
  entries  : List Nat
  pnErrors : Nat
deriving DecidableEq, Repr

/-- A transfer of one SDO channel (R502): its entry, its direction, the bytes collected or still to be
sent, the toggle bit expected next. -/
structure SdoTransfer where
  index  : Nat
  sub    : Nat
  upload : Bool
  data   : List Byte
  toggle : Bool
deriving DecidableEq, Repr

/-- What answers a process object's write once its Canopy WRITE ends: a ring response (to whom, its word 0 with status 0), an
SDO response (COB-ID, its bytes, the bytes of the abort), or the access path's refusal record alone. -/
inductive Reply where
  | none
  | ring (dst word : Nat)
  | sdo (cob : Nat) (ok bad : List Byte)
deriving DecidableEq, Repr

/-- A write of a process object that is neither applied nor refused (R507): SIGNAL, shift, width and value of the field it replaces in
the shadow, who wrote which entry, what answers it. -/
structure ShadowWrite where
  handle : Nat
  shift  : Nat
  width  : Nat
  value  : Nat
  path   : Path
  index  : Nat
  sub    : Nat
  reply  : Reply
deriving DecidableEq, Repr

/-- The CANopen server (R500 to R507): transfers by channel, requests received and not yet acted on (channel, bytes),
responses pending (COB-ID, bytes), state bytes of heartbeat and boot-up messages pending, shadow words by SIGNAL handle,
process object writes outstanding by Canopy tag, and by numbers from 256 up those that wait for one of the same SIGNAL. -/
structure CanOpen where
  transfers : Tab SdoTransfer
  received  : List (Nat × List Byte)
  responses : List (Nat × List Byte)
  heartbeat : List Nat
  shadows   : Tab Word
  writes    : Tab ShadowWrite
deriving DecidableEq, Repr

/-- A frame in a port's transmit staging (R551): its bytes padded to 60, its length L, and the descriptor it came from (word, index and
number of its ring), none for the STREAM. -/
structure T1sFrame where
  bytes  : List Byte
  length : Nat
  ring   : Option (Nat × Nat × Nat)
deriving DecidableEq, Repr

/-- One T1S port (R543 to R567) beside its entries: the frame held by each cyclic filter (payload, stamp in ns); the frame
in transmit staging; collisions of that frame; whether it
is on the medium and the stamp of its first bit; slot times still to wait; the last number drawn; the PLCA status, the
current transmit opportunity, frames sent in it; whether the descriptor ring has the next turn; a doorbell or poll
not yet answered; directions stopped for a ring outside its BUFFER; whether TX_DONE and RX_DONE may be raised; while a frame is on the
medium, the settings 0x2910+p:00 to :0C it began with, which act until it ends (R547). -/
structure T1sPort where
  held      : Tab (List Byte × Nat)
  frame     : Option T1sFrame
  collided  : Nat
  sending   : Bool
  sfd       : Nat
  backoff   : Option Nat
  drawn     : Nat
  plca      : Bool
  lost      : Bool
  current   : Nat
  burst     : Nat
  ringTurn  : Bool
  checked   : Bool
  txStopped : Bool
  rxStopped : Bool
  txArmed   : Bool
  rxArmed   : Bool
  inForce   : List Nat
deriving DecidableEq, Repr

/-- One flash slot (R718 to R724): its boot record (slot state 0 EMPTY, 1 STAGED, 2 TRIAL, 3 CONFIRMED, 4 BAD; failed-boot
count; security version), and what the header of its image holds; the image's bytes (none for the image the device was
shipped with, whose bytes no rule gives, and for an erased slot), the OTP key hash that verified it. -/
structure FlashSlot where
  state    : Nat
  failed   : Nat
  security : Nat
  version  : Nat
  protocol : Nat
  format   : Nat
  oldest   : Nat
  revoke   : Nat
  keyHash  : Nat
  image    : Option (List Byte)
deriving DecidableEq, Repr

/-- An image write that waits for the flash (R723): the copy and erasure of a begin, a chunk, the bytes of a DATA frame. -/
inductive ImageWrite where
  | start (flashOk : Bool)
  | chunk (bytes : List Byte) (flashOk : Bool)
  | data (offset : Nat) (bytes : List Byte)
deriving DecidableEq, Repr

/-- Firmware update (R718 to R737): the slots, the OTP floor and revoked key hashes, bytes received in order, image writes that wait
(R723), pull requests outstanding (tag, offset, length, times sent again), the next tag, a wait after a busy answer, hubs this hub
serves with the stamp of their last request in ns. -/
structure Update where
  slotA    : FlashSlot
  slotB    : FlashSlot
  floor    : Nat
  revoked  : Nat
  received : List Byte
  held     : List ImageWrite
  requests : List (Nat × Nat × Nat × Nat)
  nextTag  : Nat
  busy     : Bool
  pullers  : Tab Nat
deriving DecidableEq, Repr

/-- Everything of the hub but the command queue. -/
structure Hub where
  freeCount : Nat
  answer    : Answer
  dict      : Tab Word
  env       : Env
  boot      : Boot
  modes     : Modes
  stopped   : List Nat
  crossings : Tab Crossing
  paths     : Tab PathState
  hostHalf  : HostHalf
  mailbox   : Mailbox
  store     : Store
  copyA     : Option ConfigCopy
  copyB     : Option ConfigCopy
  watch     : Watch
  spire     : Spire
  portQ     : Tab (List Frame)
  seqs      : Tab Nat
  msix      : List Nat
  cyc       : Cyc
  engines   : Tab Engine
  pads      : Tab Nat
  fifos     : Tab Fifo
  sessions  : Tab Session
  fuses     : Tab FuseCh
  adc       : Adc
  power     : Power
  sleep     : Sleep
  dome      : Dome
  links     : Tab Link
  tx        : Tab Tx
  ring      : Ring
  belfry    : Belfry
  channels  : Tab Channel
  canopy : Canopy
  host : HostBr
  forester : Forester
  can : Tab CanCtl
  canopen : CanOpen
  t1s : Tab T1sPort
  update : Update
deriving DecidableEq, Repr

/-- The state: the commands that wait, first in first out, and the hub. -/
structure State where
  pending : List Instr
  hub     : Hub
deriving DecidableEq, Repr

/-- An erased flash slot. -/
def emptySlot : FlashSlot :=
  { state := 0, failed := 0, security := 0, version := 0, protocol := 0, format := 0, oldest := 0, revoke := 0, keyHash := 0,
    image := none }

/-- The slot that holds the image the device was shipped with (assumption log 10). -/
def shippedSlot : FlashSlot :=
  { emptySlot with
    state := 3, version := Config.firmwareVersion.toNat, protocol := Config.ringProtocolVersion.toNat,
    format := Config.dictionaryFormat.toNat, oldest := Config.oldestMigratable.toNat }

/-- The hub at power-on: supplies valid, RESET_N low, mode BOOT, nothing latched; every entry at its default. Values the spec
gives no reset for are named in assumption logs 3, 9 and 10. -/
def Hub.reset : Hub :=
  { freeCount := 0, answer := .none, dict := [],
    env := { straps := 0, testMode := false, resetLow := true, supplies := true },
    boot := { latched := false, memDone := false, memOk := false, katDone := false, katOk := false, imageDone := false,
              complete := false, transit := false, factoryWait := false, image := [], control := 0 },
    modes := { runRequest := false, blocked := false, blockedGate := 0, autoReturn := false, serviceCycles := false },
    stopped := [], crossings := [], paths := [], hostHalf := { latch := none, half := none },
    mailbox := { pending := none, isRead := false, nextTag := 0 },
    store := { job := none, loading := false, dirty := false, loaded := false }, copyA := none, copyB := none,
    watch := { records := [], occurrences := [], previous := [], backstop := false, backstopRec := none, injected := [],
               armed := [], injecting := false, releasing := false, halted := false, channelStamp := [], rates := [] },
    spire := { acc := 0, replicas := [], spans := [], chains := [], cands := [], loops := [], rtSeen := false, stepped := false,
               toStep := none, good := 0, hold := 0, listenAt := 0, lockedAt := 0, cls := 2, ppsOut := false, tod := none, todStep := none, todWaits := false,
               sourced := false, ppsGood := 0, ppsBad := 0,
               holdAt := 0, holdSum := 0, holdInc := 131072000000000, holdTime := 0, holdPart := 0, faulted := false },
    portQ := [], seqs := [], msix := [],
    cyc := { running := false, since := 0, cycles := 0, limits := [], period := 0, number := 0, start := 0, prior := 0, length := 0, complete := false,
             applied := false, own := [], opened := [], image := [], early := [], accepted := 0, frames := 0, wrongTag := 0, closed := (0, 0, 0),
             heard := false, missed := 0, routes := [], stale := [], results := [], written := [], switches := [], leaving := [] },
    engines := [], pads := [], fifos := [], sessions := [], fuses := [],
    adc := { samples := [], die := [] },
    power := { save := [], resumed := [], targets := [], avsTarget := none, avsBusy := 0, avsOther := 0, pmbTries := [],
               waking := false, railsGood := [], wakeTries := 0, wakeAt := 0, railFailed := none, aonTicks := 0, busLost := false },
    sleep := { ownRound := 0, heard := [], consents := [], present := [], roundAt := 0, copies := 0, holding := false,
               entering := false, latched := none, asleep := [], awaiting := [], attempts := [], spans := [], lastCan := [],
               lastT1s := [], wakeIn := 0 },
    dome := { srk := none, epoch := 0, epochValid := false, ceiling := 0, generation := 0, next := none, writing := false,
              rekeying := false, persisted := false, sendEpoch := [], exhausted := [], hardware := [], inner := [], saved := [],
              challenges := 0 },
    links := [], tx := [],
    ring := { dups := [], distA := [], distB := [], roles := [], modes := [], downs := [], presentAt := none, lostA := true,
              lostB := true, claim := none, conflict := false, before := 0, role := 0, offers := [], groups := [], arrived := [] },
    belfry := { tick := { inputs := [], time := 0, pattern := 0 }, nextId := 0, taken := [], raised := [], stored := [],
                counts := [], credits := [], withheld := [], outUsed := [], shares := [], starve := [], turn := [], locating := none, delivered := [] },
    channels := [],
    canopy := { map := [], residences := [], reach := [], mem := [], poison := [], sent := [], flows := [], acks := [], out := [],
                ports := [], relays := [], nextTag := 0, held := [], released := [], committed := [], badMap := [],
                badRes := [], reflexTags := [] },
    host := { waiting := [], nextTag := 0, reads := [], results := [], writers := [], logged := 0, barrier := [], table := [] },
    forester := { moves := [], incoming := [], outgoing := [], counts := [], scores := [], gains := [], starts := [],
                  reported := [], census := [], asked := [], placed := false, nextTag := 0, defs := [], refused := [], lost := [],
                  reflexes := [], slots := [], changed := [], done := false, request := none, waiting := [], due := [], last := [] },
    can := [], canopen := { transfers := [], received := [], responses := [], heartbeat := [], shadows := [], writes := [] },
    t1s := [],
    update := { slotA := shippedSlot, slotB := emptySlot, floor := 0, revoked := 0, received := [], held := [],
                requests := [], nextTag := 0, busy := false, pullers := [] } }

/-- The machine right after power-on, with no command waiting. -/
def State.reset : State := { pending := [], hub := Hub.reset }

end Sys2Proof.Machine
end

