-- ==== Sys2Proof/Machine/Ops.lean ====
section
/-! DEFINITION. The named operations over the hub's state: bit fields, sparse tables, the register file of the object
dictionary, free values, counters, stamps, and how a meaning becomes a step outcome. -/

namespace Sys2Proof.Machine

/-! ### Bit fields (notation of Numbers, bits and units) -/

/-- Bits [hi:lo] of a number. -/
def bits (x hi lo : Nat) : Nat := x / 2 ^ lo % 2 ^ (hi + 1 - lo)

/-- Bit [n] of a number. -/
def bit (x n : Nat) : Bool := x.testBit n

/-- A number with bits [hi:lo] replaced by the low bits of `v`. -/
def setField (x hi lo v : Nat) : Nat :=
  x - bits x hi lo * 2 ^ lo + v % 2 ^ (hi + 1 - lo) * 2 ^ lo

/-- A number with bit [n] set to `b`. -/
def setBit (x n : Nat) (b : Bool) : Nat := setField x n n b.toNat

/-- A Boolean as the field of an entry. -/
def b2n (b : Bool) : Nat := if b then 1 else 0

/-- Byte `k` of a word (R5). -/
def wordByte (w : Word) (k : Nat) : Byte := (w >>> (8 * k)).setWidth 8

/-- Up to six bytes as a word, byte 0 lowest (R5). -/
def bytesNat : List Byte → Nat
  | [] => 0
  | b :: bs => b.toNat + 256 * bytesNat bs

/-- The first `n` bytes of a number, byte 0 first (R5). -/
def natBytes : Nat → Nat → List Byte
  | 0, _ => []
  | n + 1, x => BitVec.ofNat 8 x :: natBytes n (x / 256)

/-- A byte string cut into slots of six bytes (R73). -/
def bytesWords : Nat → List Byte → List Word
  | 0, _ => []
  | n + 1, bs => BitVec.ofNat 48 (bytesNat (bs.take 6)) :: bytesWords n (bs.drop 6)

/-- The bytes of a run of slots, six each (R73). -/
def wordsBytes (ws : List Word) : List Byte := ws.flatMap fun w => natBytes 6 w.toNat

/-- One bit of the CRC-32 of IEEE 802.3, reflected. -/
def crc32Bit (c : Nat) : Nat := if c % 2 = 1 then Nat.xor (c / 2) 0xEDB88320 else c / 2

/-- One byte of it. -/
def crc32Byte (c : Nat) (b : Byte) : Nat :=
  crc32Bit (crc32Bit (crc32Bit (crc32Bit (crc32Bit (crc32Bit (crc32Bit (crc32Bit (Nat.xor c b.toNat))))))))

/-- The CRC-32 of IEEE 802.3 of a byte string (R135, R673). -/
def crc32 (bs : List Byte) : Nat := Nat.xor (bs.foldl crc32Byte 0xFFFFFFFF) 0xFFFFFFFF

/-- Two's complement reading of a 48-bit value (I48, Q24.24 of Table 5). -/
def signed (x : Nat) : Int := (BitVec.ofNat 48 x).toInt

/-- Two's complement 48-bit encoding of an integer. -/
def unsigned (x : Int) : Nat := (BitVec.ofInt 48 x).toNat

/-- The number of bits set among the first `n`. -/
def popCount : Nat → Nat → Nat
  | 0, _ => 0
  | n + 1, x => x % 2 + popCount n (x / 2)

/-! ### Sparse tables -/

/-- The first value listed for `k`, or `d`. -/
def tabGet {α : Type} (d : α) : Tab α → Nat → α
  | [], _ => d
  | (k', v) :: t, k => if k = k' then v else tabGet d t k

/-- Set the value of `k`, keeping keys that rise strictly in rising order. -/
def tabSet {α : Type} : Tab α → Nat → α → Tab α
  | [], k, v => [(k, v)]
  | (k', v') :: t, k, v =>
    if k < k' then (k, v) :: (k', v') :: t
    else if k = k' then (k, v) :: t
    else (k', v') :: tabSet t k v

/-- The value listed for `k`, if any. -/
def tabFind {α : Type} (t : Tab α) (k : Nat) : Option α := (t.find? fun e => e.1 == k).map (·.2)

/-- Remove `k`. -/
def tabErase {α : Type} (t : Tab α) (k : Nat) : Tab α := t.filter fun e => e.1 != k

/-- Whether `k` is listed. -/
def tabHas {α : Type} (t : Tab α) (k : Nat) : Bool := t.any fun e => e.1 == k

/-- A sparse map in canonical form: `d k` is what an unlisted key reads as; writing that value removes the entry. -/
def cellSet {α : Type} [DecidableEq α] (d : Nat → α) (t : Tab α) (k : Nat) (v : α) : Tab α :=
  if v = d k then tabErase t k else tabSet t k v

/-- What key `k` reads as. -/
def cellGet {α : Type} (d : Nat → α) (t : Tab α) (k : Nat) : α := tabGet (d k) t k

/-- Keys rise strictly. -/
def keysRise {α : Type} : Tab α → Bool
  | [] => true
  | [_] => true
  | (k, _) :: (k', v) :: t => decide (k < k') && keysRise ((k', v) :: t)

/-- The canonical form: keys rise strictly, and no entry equals what its key reads as unlisted. -/
def cellsWf {α : Type} [DecidableEq α] (d : Nat → α) (t : Tab α) : Bool :=
  keysRise t && t.all fun e => decide (e.2 ≠ d e.1)

/-! ### The register file of the object dictionary -/

/-- The key of index:subindex. A key written `0x2401_01` is entry 0x2401:01. -/
def slotKey (index sub : Nat) : Nat := index * 256 + sub

/-- The row of an index's rows that holds a subindex. -/
def findRow (sub : Nat) : List Row → Option Row
  | [] => none
  | r :: rs =>
    if r.sub ≤ sub ∧ (sub - r.sub) % r.stride = 0 ∧ (sub - r.sub) / r.stride < r.reps then some r
    else findRow sub rs

/-- The rows of an index. -/
def findObj (index : Nat) : List Obj → Option Obj
  | [] => none
  | o :: os => if o.ix ≤ index ∧ index < o.ix + o.count then some o else findObj index os

/-- The entry-table row of a slot. -/
def entryRow (index sub : Nat) : Option Row :=
  (findObj index entryTable).bind fun o => findRow sub o.rows

/-- What a slot reads as before anything writes it: its default. -/
def slotDefault (key : Nat) : Word :=
  match entryRow (key / 256) (key % 256) with
  | some r => BitVec.ofNat 48 r.dflt
  | none => 0

/-- The register of a slot. -/
def rdW (h : Hub) (key : Nat) : Word := cellGet slotDefault h.dict key

/-- The register of a slot, as a number. -/
def rd (h : Hub) (key : Nat) : Nat := (rdW h key).toNat

/-- A flag register. -/
def rdB (h : Hub) (key : Nat) : Bool := rd h key != 0

/-- Write the register of a slot. -/
def wrW (h : Hub) (key : Nat) (v : Word) : Hub := { h with dict := cellSet slotDefault h.dict key v }

/-- Write the register of a slot with a number's low 48 bits. -/
def wr (h : Hub) (key : Nat) (v : Nat) : Hub := wrW h key (BitVec.ofNat 48 v)

/-- Write several registers in order. -/
def wrs (h : Hub) : List (Nat × Nat) → Hub
  | [] => h
  | (k, v) :: t => wrs (wr h k v) t

/-- Add to a U32 counter that saturates at 2^32 - 1 (R81, R717 and the counters of each chapter). -/
def bumpBy (h : Hub) (key n : Nat) : Hub := wr h key (min (rd h key + n) (2 ^ 32 - 1))

/-- Count one. -/
def bump (h : Hub) (key : Nat) : Hub := bumpBy h key 1

/-- Keep the larger of a peak register and `v`. -/
def peak (h : Hub) (key v : Nat) : Hub := wr h key (max (rd h key) v)

/-- The value a persistent or other entry has by default. -/
def toDefault (h : Hub) (key : Nat) : Hub := wrW h key (slotDefault key)

/-- Take a free value: nothing constrains it (assumption log 8). -/
def takeFree (h : Hub) : Word × Hub := (Config.freeValue h.freeCount, { h with freeCount := h.freeCount + 1 })

/-! ### Meanings and outcomes -/

/-- The outcome of a command whose effect on the hub is `f`: the queue stays as it is. -/
def onHub (s : State) (f : Hub → Hub) : Host.Outcome State Fault Refusal := .next { s with hub := f s.hub }

/-- Apply `f` where `c` holds. -/
def whenDo (c : Bool) (f : Hub → Hub) (h : Hub) : Hub := if c then f h else h

/-- Apply an operation for each element of a list in order. -/
def forEach {α : Type} (l : List α) (f : α → Hub → Hub) (h : Hub) : Hub := l.foldl (fun a x => f x a) h

/-- Set the answer of the access in hand. -/
def answered (a : Answer) (h : Hub) : Hub := { h with answer := a }

/-! ### Modes (Table 1 of Operating modes and start-up) -/

/-- The mode code in 0x2000:01 (R43). -/
def mode (h : Hub) : Nat := rd h 0x2000_01

/-- RUN, LIMP or CLEARING: the modes that serve. -/
def serving (h : Hub) : Bool := mode h == 3 || mode h == 4 || mode h == 5

/-- The hub number in use, 0 before join. -/
def hubNumber (h : Hub) : Nat := rd h 0x2000_09

/-- The ring role in force: 0x2000:0B acts at the next ring join (Table 8 of Operating modes and start-up), so a joined hub keeps the role it
joined with. -/
def roleInForce (h : Hub) : Nat := if hubNumber h = 0 then rd h 0x2000_0B else h.ring.role

/-- Isolated bench role (Table 4 of Operating modes and start-up). -/
def bench (h : Hub) : Bool := roleInForce h == 3

/-! ### Ring time and stamps -/

/-- Units of 2^-32 ns in a second of ring time. -/
def accPerSecond : Nat := 1000000000 * 2 ^ 32

/-- Ring time as the hub goes by it: Spire time; in DORMANT and after a fault of the Spire island the holdover counter's (R40, R387, R388),
once that has come to Spire's last time, since Spire time never decreases (R362). -/
def spireTime (h : Hub) : Nat := if h.spire.faulted || mode h == 6 then max h.spire.acc h.spire.holdTime else h.spire.acc

/-- Ring time in whole nanoseconds. -/
def nowNs (h : Hub) : Nat := spireTime h / 2 ^ 32

/-- Island codes (Table 5 of Watchtower faults and events) of the islands that stamp (Table 5 of Architecture). -/
def stampIslands : List Nat := [0x00, 0x04, 0x05, 0x06, 0x08, 0x09, 0x0A, 0x0B, 0x0C, 0x0D, 0x0E, 0x0F, 0x10, 0x11, 0x12, 0x13, 0x14, 0x15]

/-- State of a power domain (0x4D11:d+1): 0 OFF, 1 SWITCHING ON, 2 RESTORING, 3 ON, 4 HOLD-OFF, 5 QUIESCING, 6 SAVING, 7 ISOLATED. -/
def domainState (h : Hub) (d : Nat) : Nat := rd h (0x4D11_01 + d)

/-- The set frequency of an island's clock in Hz (Table 2 of Architecture of the hub), nominal for the recovered ring clocks; 0 for
a Grove whose synthesiser is stopped (R669, R671). -/
def islandHz (h : Hub) (code : Nat) : Nat :=
  if code ≤ 3 then 800000000
  else if code ≤ 6 then 390625000
  else if 8 ≤ code ∧ code ≤ 15 then
    if domainState h (code - 8) ≤ 1 then 0 else rd h (0x2601_01 + (code - 8)) * 1000
  else if code = 0x10 then 160000000
  else if code = 0x11 ∨ code = 0x14 then 250000000
  else if code = 0x12 then 600000000
  else if code = 0x13 then 500000000
  else if code = 0x15 then 32768
  else 0

/-- A replica counter that has counted nothing. -/
def replicaInit : Replica := { count := 0, held := 0, part := 0 }

/-- The value a replica counter shows: it never moves backwards, and holds until its count reaches it (R32). -/
def replicaTime (r : Replica) : Nat := max r.count r.held

/-- A replica counts the periods of its own clock that end within `n` units of 2^-32 ns (R30). -/
def replicaCounts (hz n : Nat) (r : Replica) : Replica :=
  { r with count := r.count + (r.part + n * hz) / accPerSecond * (accPerSecond / hz), part := (r.part + n * hz) % accPerSecond }

/-- A replica loads a time (R30, R32). -/
def replicaLoads (v : Nat) (r : Replica) : Replica := { r with count := v, held := replicaTime r }

/-- The time of an island's replica counter, in units of 2^-32 ns, at the resolution of the island's clock (R30, Table 5 of
Architecture of the hub). -/
def replica (h : Hub) (island : Nat) : Nat := replicaTime (tabGet replicaInit h.spire.replicas island)

/-- An island's stamp in whole nanoseconds. -/
def stampNs (h : Hub) (island : Nat) : Nat := replica h island / 2 ^ 32

/-- An island's stamp in ps. -/
def stampPs (h : Hub) (island : Nat) : Nat := replica h island * 1000 / 2 ^ 32

/-- The lower word of a TIME: seconds (R8, Table 5). -/
def timeSec (acc : Nat) : Nat := acc / accPerSecond

/-- The upper word of a TIME: nanoseconds and a 16-bit fraction (R8, Table 5). -/
def timeFrac (acc : Nat) : Nat := acc % accPerSecond / 2 ^ 16

/-- Write an island's stamp into a TIME pair at `key` and `key + 1`. -/
def wrStamp (h : Hub) (key island : Nat) : Hub :=
  wr (wr h key (timeSec (replica h island))) (key + 1) (timeFrac (replica h island))

/-- Write ring time into a TIME pair at `key` and `key + 1`. -/
def wrTime (h : Hub) (key : Nat) : Hub :=
  wr (wr h key (timeSec (spireTime h))) (key + 1) (timeFrac (spireTime h))

/-- Shift a log of `n` entries of `w` words at subindices from `base` up by one entry, and put `ws` in entry 0 (the
newest; the oldest is dropped). -/
def pushLog (h : Hub) (base w n : Nat) (ws : List Nat) : Hub :=
  let old := (List.range ((n - 1) * w)).map fun j => rd h (base + j)
  wrs h (((ws ++ old).zipIdx).map fun p => (base + p.2, p.1))

/-! ### Injected memory errors -/

/-- An armed injection of a memory error (Table 6 of Watchtower faults and events): its error for the next write to the
memory `m`, taken. -/
def takeInjectionAt (m modulus : Nat) (h : Hub) : Nat × Hub :=
  match h.watch.armed.find? fun a => (a.1 == 4 || a.1 == 5) && a.2 % modulus == m with
  | none => (0, h)
  | some a => (a.1 - 3, { h with watch := { h.watch with armed := h.watch.armed.erase a } })

/-- The same for a memory of the whole hub, named by bits [7:0] of the parameter. -/
def takeInjection (m : Nat) (h : Hub) : Nat × Hub := takeInjectionAt m 256 h

/-- The same for the program memory of engine n, named by bits [15:8]. -/
def takeProgramInjection (n : Nat) (h : Hub) : Nat × Hub := takeInjectionAt (n * 256 + 5) 65536 h

end Sys2Proof.Machine
end

