-- ==== Sys2Proof/Machine/Flags.lean ====
section
/-! DEFINITION. Event flags: pending bits, the event log, routes to MSI-X, EVT_N and ring event channels (R711 to R715),
and the frames this hub originates (R136, R137, R153). -/

namespace Sys2Proof.Machine

/-! ### Frames this hub originates -/

/-- Number of a class: header bits [39:38] (Table 5 of Ring links and frames). -/
def clsNum : Cls → Nat
  | .cy => 0
  | .ur => 1
  | .bk => 2
  | .mg => 3

/-- The class with a number. -/
def numCls : Nat → Cls
  | 0 => .cy
  | 1 => .ur
  | 2 => .bk
  | _ => .mg

/-- Key of a stream: source hub, destination field and class (R153). -/
def streamKey (src dst : Nat) (c : Cls) : Nat := (src * 256 + dst) * 4 + clsNum c

/-- Words of a frame in the Belfry buffer: header, security header, payload and tag (R174). -/
def frameWords (f : Frame) : Nat := 2 + (if f.secured then 5 else 0) + f.payload.length

/-- Length of a frame in bytes (R134). -/
def frameBytes (f : Frame) : Nat := 12 + 6 * f.payload.length + 4 + (if f.secured then 28 else 0)

/-- Cells a frame occupies (R174). -/
def frameCells (f : Frame) : Nat := (frameWords f + 31) / 32

/-- An unsecured frame of this hub, numbered in its stream (R153). -/
def newFrame (h : Hub) (ftype : Nat) (c : Cls) (dst specific group : Nat) (payload : List Word) : Frame :=
  { version := 1, ftype, cls := c, secured := false, confidential := false, multicast := group != 0, dst,
    src := hubNumber h, seq := tabGet 0 h.seqs (streamKey (hubNumber h) dst c) % 65536, specific, group,
    slot := 0, epoch := 0, counter := 0, payload, tag := 0, poison := [] }

/-- Frames waiting at an internal Belfry port for their credits (R184). -/
def portFrames (h : Hub) (p : Nat) : List Frame := tabGet [] h.portQ p

/-- Put a frame in the queue of an internal port. -/
def enqueue (h : Hub) (p : Nat) (f : Frame) : Hub := { h with portQ := tabSet h.portQ p (portFrames h p ++ [f]) }

/-- A frame this hub may send: only a CLAIM has source 0 (Table 5 of Ring links and frames), so a hub without a number sends no other. -/
def mayOriginate (h : Hub) (ftype specific : Nat) : Bool := hubNumber h != 0 || (ftype == 5 && specific / 256 == 2)

/-- Originate a frame at internal port `p`: number it in its stream and queue it there. -/
def originate (h : Hub) (p ftype : Nat) (c : Cls) (dst specific group : Nat) (payload : List Word) : Hub :=
  if !mayOriginate h ftype specific then h
  else
  let f := newFrame h ftype c dst specific group payload
  let k := streamKey (hubNumber h) dst c
  enqueue { h with seqs := tabSet h.seqs k ((f.seq + 1) % 65536) } p f

/-! ### Event numbers (Table 7 of Watchtower faults and events) -/

/-- Slot of an event's pending bit (R712, 0x4E10). -/
def pendingKey (e : Nat) : Nat := 0x4E10_01 + e / 48

/-- Whether an event is pending. -/
def eventPending (h : Hub) (e : Nat) : Bool := bit (rd h (pendingKey e)) (e % 48)

/-- Slot of an event's route (R713, 0x2E10 + e / 16). -/
def routeKey (e : Nat) : Nat := slotKey (0x2E10 + e / 16) (e % 16 + 1)

/-- An event's route: [7:6] kind, [4:0] vector, channel or pin. -/
def route (h : Hub) (e : Nat) : Nat := rd h (routeKey e)

/-- EVT_N[i] is low (false) while an event routed to it is pending (R713). -/
def evtN (h : Hub) (i : Nat) : Bool :=
  !(List.range 256).any fun e => route h e / 64 == 3 && route h e % 32 == i && eventPending h e

/-- The host port is PCIe (0x2000:0D). -/
def pcie (h : Hub) : Bool := rd h 0x2000_0D == 0

/-- Request an MSI-X message, at most one pending per vector (R584); on QSPI only the pending bit remains (R713). -/
def requestMsix (h : Hub) (v : Nat) : Hub :=
  if pcie h && !h.msix.contains v then { h with msix := h.msix ++ [v] } else h

/-- Pending bit, log entry and MSI-X route of an event (R712, R713). -/
def raiseLocal (h : Hub) (e inst value : Nat) : Hub :=
  let a := wr h (pendingKey e) (setBit (rd h (pendingKey e)) (e % 48) true)
  let b := pushLog a 0x4E11_01 3 16
    [e % 256 * 2 ^ 40 + inst % 256 * 2 ^ 32 + value % 2 ^ 32, timeSec (replica h 0), timeFrac (replica h 0)]
  if route h e / 64 = 1 then requestMsix b (route h e % 32) else b

/-- Whether ring channel `c` sent a frame within the last 100 µs (R714). -/
def channelBusy (h : Hub) (c : Nat) : Bool :=
  tabHas h.watch.channelStamp c && decide (stampNs h 0 < tabGet 0 h.watch.channelStamp c + 100000)

/-- Send a ring event frame on channel `c`, or count it dropped (R714). -/
def ringEventFrame (h : Hub) (c e inst value : Nat) : Hub :=
  if hubNumber h = 0 ∨ channelBusy h c then
    raiseLocal (bump h 0x4E00_08) 0xAE 0 0
  else
    let a := originate h 6 0x8 .ur 255 (0x100 + c) 0
      [BitVec.ofNat 48 (e % 256 * 2 ^ 40 + inst % 256 * 2 ^ 32 + value % 2 ^ 32),
       BitVec.ofNat 48 (timeSec (replica h 0)), BitVec.ofNat 48 (timeFrac (replica h 0))]
    bump { a with watch := { a.watch with channelStamp := tabSet a.watch.channelStamp c (stampNs h 0) } } 0x4E00_06

/-- Raise event `e` with an instance and a value (R712, R713). -/
def raiseEvent (h : Hub) (e inst value : Nat) : Hub :=
  let a := raiseLocal h e inst value
  if route h e / 64 = 2 then ringEventFrame a (route h e % 32 % 8) e inst value else a

/-- Raise an event at most once in a period for each key. The period is in nanoseconds. -/
def raiseKeyed (h : Hub) (key e inst value period : Nat) : Hub :=
  if tabHas h.watch.rates key && decide (stampNs h 0 < tabGet 0 h.watch.rates key + period) then h
  else raiseEvent { h with watch := { h.watch with rates := tabSet h.watch.rates key (stampNs h 0) } } e inst value

/-- Raise an event at most once in a period for each cause (R212, R511, R567, R612, R659). `key` names event and
cause; the period is in nanoseconds. -/
def raiseLimited (h : Hub) (e inst value cause period : Nat) : Hub :=
  raiseKeyed h ((e * 65536 + inst) * 256 + cause) e inst value period

/-- An EV_CYC_ event: at most once in 1,000 cycles for each cause, output target or reflex (R357), so what is kept is the number of cycles
started by then. -/
def cycEvent (h : Hub) (e inst value cause : Nat) : Hub :=
  let key := e * 2 ^ 24 + cause % 2 ^ 24
  if tabHas h.cyc.limits key && decide (h.cyc.cycles < tabGet 0 h.cyc.limits key + 1000) then h
  else raiseEvent { h with cyc := { h.cyc with limits := tabSet h.cyc.limits key h.cyc.cycles } } e inst value

/-- The 16 ms limit of R511, R567, R612 and R659. -/
def raise16ms (h : Hub) (e inst value cause : Nat) : Hub := raiseLimited h e inst value cause 16000000

end Sys2Proof.Machine
end

