-- ==== Sys2Proof/Machine/Reactions.lean ====
section
/-! DEFINITION. Watchtower's records as read: fault classes, the reaction in effect, whether it holds the outputs or
SAFE_N (R691 to R695). -/

namespace Sys2Proof.Machine

/-- Class of each fault code (Table 3 of Watchtower faults and events). -/
def faultClass (code : Nat) : Nat :=
  if code = 0x08 ∨ code = 0x09 ∨ code = 0x14 ∨ code = 0x15 then 3
  else if code = 0x01 ∨ code = 0x03 ∨ code = 0x04 ∨ code = 0x07 ∨ code = 0x0C ∨ code = 0x0E ∨ code = 0x17
    ∨ code = 0x1C ∨ code = 0x1D then 2
  else 1

/-- Faults whose cause is gone as soon as the record is made (Table 3). -/
def goneAtOnce (code : Nat) : Bool :=
  [0x02, 0x04, 0x05, 0x06, 0x0F, 0x10, 0x11, 0x12, 0x18, 0x19, 0x1A, 0x1B, 0x1E].contains code

/-- Reactions a class allows (Table 2 of Watchtower faults and events). -/
def levelAllowed (cls level : Nat) : Bool :=
  if cls = 1 then decide (level ≤ 2) else if cls = 2 then decide (1 ≤ level ∧ level ≤ 3) else level == 3

/-- Whether a record of the code is held. -/
def recordHeld (h : Hub) (code : Nat) : Bool := tabHas h.watch.records code

/-- The reaction a record has in effect (R694, R695): an escalated record, the higher of its escalated and its chosen level (R780). -/
def effectiveLevel (code : Nat) (r : FaultRec) : Nat :=
  if r.escalated then max r.level r.chosen
  else if faultClass code = 1 ∧ ¬ r.cause then 0
  else r.level

/-- The reaction in effect at the hub: 0x0 to 0x3, 0xFF for none (R693; HALT is held until reset, R692). -/
def reaction (h : Hub) : Nat :=
  if h.watch.halted then 3
  else match h.watch.records with
    | [] => 0xFF
    | rs => rs.foldl (fun a e => max a (effectiveLevel e.1 e.2)) 0

/-- Outputs are held at their safe levels (R693, R41). -/
def outputsSafe (h : Hub) : Bool := h.watch.backstop || (decide (1 ≤ reaction h) && decide (reaction h ≤ 3))

/-- SAFE_N is held low by a reaction or the backstop (R693, R41). -/
def safeHeldLow (h : Hub) : Bool := h.watch.backstop || (decide (2 ≤ reaction h) && decide (reaction h ≤ 3))

/-- The level of SAFE_N (0x4E00:03). -/
def safeN (h : Hub) : Bool := rdB h 0x4E00_03

/-- Fault record word (Table 4 of Watchtower faults and events). -/
def recordWord (code : Nat) (r : FaultRec) : Nat :=
  code * 2 ^ 40 + effectiveLevel code r * 2 ^ 38 + b2n r.escalated * 2 ^ 37 + b2n r.injected * 2 ^ 36
    + r.island % 256 * 2 ^ 28

end Sys2Proof.Machine
end

