-- ==== Sys2Proof/Machine/FuseOps.lean ====
section
/-! DEFINITION. Fuse channels: the on request, what a channel may do in the present mode and under the present
reaction, and the start of a soft-start (R638 to R642, R658). -/

namespace Sys2Proof.Machine

/-- Key of fuse channel n's slot `sub` at 0x2C10 + n, at 0x2C20 + n, and at 0x3600 + n. -/
def fuseCfg (n sub : Nat) : Nat := slotKey (0x2C10 + n) sub
def fuseModel (n sub : Nat) : Nat := slotKey (0x2C20 + n) sub
def fuseKey (n sub : Nat) : Nat := slotKey (0x3600 + n) sub

/-- A channel after reset: idle, no board accepted (assumption log 9). -/
def fuseInit : FuseCh :=
  { g := 0, t0 := 0, tr := 0, retryEnd := none, coolEnd := none, latch := 0, pending := none, present := false,
    applied := false, waiting := false, startHeld := false, sampleAt := none, overSince := none, lowSince := none,
    shorted := false, peak := 0, lastPeak := 0 }

def fuse (h : Hub) (n : Nat) : FuseCh := tabGet fuseInit h.fuses n

def setFuse (h : Hub) (n : Nat) (c : FuseCh) : Hub := { h with fuses := tabSet h.fuses n c }

/-- Channel state (Table 4 of Fuse channels). -/
def fuseState (h : Hub) (n : Nat) : Nat := rd h (fuseKey n 1)

/-- GATE_EN is not low: GATE_RISE, RAMP or ON. -/
def fuseActive (st : Nat) : Bool := st == 2 || st == 3 || st == 4

/-- The level of GATE_EN[n]: low, gate command, or high (R632). While the backstop acts it is low (R658). -/
def gateCommand (h : Hub) (n : Nat) : Nat :=
  if h.watch.backstop then 0
  else if fuseState h n = 4 then 1024
  else if fuseState h n = 2 ∨ fuseState h n = 3 then (fuse h n).g else 0

/-- Stamp of the bus aggregate island, in nanoseconds. -/
def busNs (h : Hub) : Nat := stampNs h 0x10

/-- Consumption entries 0x2410 to 0x241F: slot of entry `j`'s handle; its target follows (R358). -/
def consumeKey (j : Nat) : Nat := slotKey (0x2410 + j / 64) (3 * (j % 64) + 1)

/-- Whether a consumption entry names the channel as its target (kind 0x3, R341). -/
def fuseNamed (h : Hub) (n : Nat) : Bool :=
  h.dict.any fun e =>
    decide (0x2410 ≤ e.1 / 256 ∧ e.1 / 256 ≤ 0x241F ∧ e.1 % 256 % 3 = 2 ∧ 2 ≤ e.1 % 256)
      && bits e.2.toNat 47 44 == 3 && bits e.2.toNat 3 0 == n && bits (rd h (e.1 - 1)) 22 0 != 0

/-- The on request (R639). -/
def fuseRequest (h : Hub) (n : Nat) : Bool :=
  if serving h && fuseNamed h n then (fuse h n).applied else rdB h (fuseKey n 2)

/-- Whether the mode allows the channel on (R640). -/
def fuseAllowed (h : Hub) (n : Nat) : Bool :=
  serving h || ((mode h == 2 || mode h == 7) && bit (rd h 0x2000_13) n)

/-- The channel is present, where presence is used (R654). -/
def fusePresent (h : Hub) (n : Nat) : Bool := (fuse h n).present || !bit (rd h (fuseCfg n 0x0A)) 0

/-- A reaction or the backstop holds the channel off (R658, R41). -/
def fuseHeldOff (h : Hub) (n : Nat) : Bool :=
  h.watch.backstop || (outputsSafe h && rd h (fuseCfg n 0x0C) == 1)

/-- The channel keeps its present state: safe action 0x00 under a reaction (R658), or entry to RUN before the first
output instant (R640). -/
def fuseFrozen (h : Hub) (n : Nat) : Bool := !fuseHeldOff h n && (outputsSafe h || (fuse h n).waiting)

/-- Everything R641 asks for but the temperature. -/
def fuseStartable (h : Hub) (n : Nat) : Bool :=
  rdB h (fuseCfg n 1) && fuseAllowed h n && fuseRequest h n && !fuseHeldOff h n && fusePresent h n

/-- The model junction temperature is below the restart temperature (R641). -/
def fuseCool (h : Hub) (n : Nat) : Bool := decide (signed (rd h (fuseKey n 8)) < signed (rd h (fuseModel n 7)))

/-- A soft-start begins at t_0 (R642); a retry attempt opens its window of the cool-down time ÷ 100 (R652), and a window still open
stays open. -/
def fuseStart (n : Nat) (retry : Bool) (h : Hub) : Hub :=
  let now := busNs h
  wr (setFuse h n { fuse h n with
    g := 0, t0 := now, startHeld := false, overSince := none,
    retryEnd := if retry then some (now + rd h (fuseCfg n 8) * 10000) else (fuse h n).retryEnd }) (fuseKey n 1) 2

/-- GATE_EN goes low and the channel enters `st`. -/
def fuseOff (n st : Nat) (h : Hub) : Hub := wr (setFuse h n { fuse h n with g := 0 }) (fuseKey n 1) st

/-- OFF and ABSENT follow presence; a channel in OFF starts as R641 states; EV_FUSE_START_HELD once. -/
def fuseIdle (n : Nat) (h : Hub) : Hub :=
  let want := if fusePresent h n then 1 else 8
  let a := if (fuseState h n = 1 ∨ fuseState h n = 8) ∧ fuseState h n ≠ want then wr h (fuseKey n 1) want else h
  if fuseState a n ≠ 1 ∨ fuseFrozen a n then a
  else if fuseStartable a n then
    if fuseCool a n then fuseStart n false a
    else if (fuse a n).startHeld then a
    else raise16ms (setFuse a n { fuse a n with startHeld := true }) 0x8C n 0 0
  else setFuse a n { fuse a n with startHeld := false }

/-- Apply R640, R641 and R658 to a channel. A disabled channel stays DISABLED. -/
def fuseEval (n : Nat) (h : Hub) : Hub :=
  if fuseState h n = 0 then h
  else
    let drop := fuseActive (fuseState h n)
      && (fuseHeldOff h n || (!fuseFrozen h n && !(fuseAllowed h n && fuseRequest h n)))
    fuseIdle n (whenDo drop (fuseOff n 1) h)

/-- Every channel. -/
def fuseEvalAll (h : Hub) : Hub := forEach (List.range 16) fuseEval h

end Sys2Proof.Machine
end

