-- ==== Sys2Proof/Machine/Faults.lean ====
section
/-! DEFINITION. Watchtower's shared operations: raising a fault, its record, capture, log and escalation, reactions and
their release (R691 to R709). -/

namespace Sys2Proof.Machine

/-- CAN controllers whose safe action was OFF integrate again when the reaction is released (R498). -/
def releaseCan (h : Hub) : Hub :=
  forEach (List.range 16) (fun c g =>
    if rd g (slotKey (0x2810 + c) 8) = 2 then wr g (slotKey (0x4810 + c) 1) 1 else g) h

/-- A reaction that holds outputs safe begins or ends; `wasOut` and `wasSafe` say what held before (R692, R693, R706).
While it holds no output is applied; after release the cycle restarts as R356 sets out. -/
def settle (wasOut wasSafe : Bool) (h0 : Hub) : Hub :=
  let h : Hub := if reaction h0 = 3 then { h0 with watch := { h0.watch with halted := true } } else h0
  let a := whenDo (safeHeldLow h) (fun x => wr x 0x4E00_03 0) h
  let b := whenDo (safeHeldLow h && !wasSafe) (fun x => raiseEvent x 0xAA 0 0) a
  if outputsSafe h && !wasOut then
    fuseEvalAll { b with watch := { b.watch with releasing := false }, cyc := { b.cyc with since := 0 } }
  else if !outputsSafe h && wasOut then
    let d := releaseCan b
    if serving h then
      fuseEvalAll { d with watch := { d.watch with releasing := true }, cyc := { d.cyc with since := 0 } }
    else raiseEvent (fuseEvalAll { d with cyc := { d.cyc with since := 0 } }) 0xAB 0 0
  else b

/-- Change the records with `f` and apply the reactions that follow. -/
def withReactions (f : Hub → Hub) (h : Hub) : Hub := settle (outputsSafe h) (safeHeldLow h) (f h)

/-- Store a record. -/
def putRecord (h : Hub) (code : Nat) (r : FaultRec) : Hub :=
  { h with watch := { h.watch with records := tabSet h.watch.records code r } }

/-- The level a record rises from: the higher of its escalated and its chosen level once escalated (R709, R780). -/
def standingLevel (r : FaultRec) : Nat := if r.escalated then max r.level r.chosen else r.level

/-- Escalation when the count reaches 0x2E03:01 within the window (R709). A record already at SAFE or HALT cannot rise
(assumption log 11). -/
def escalate (code : Nat) (r : FaultRec) (h : Hub) : Hub :=
  if faultClass code = 3 ∨ rd h 0x2E03_01 = 0 ∨ r.windowCount < rd h 0x2E03_01 ∨ 2 ≤ standingLevel r then putRecord h code r
  else
    let r' := { r with level := standingLevel r + 1, escalated := true, windowStart := stampNs h 0, windowCount := 1 }
    raiseEvent (bump (putRecord h code r') 0x4E00_05) 0xAC 0 code

/-- The first-error capture (R701). -/
def capture (code : Nat) (r : FaultRec) (h : Hub) : Hub :=
  let t := replica h 0
  let ws := [(0x4E01_01, recordWord code r), (0x4E01_02, r.detailA), (0x4E01_03, r.detailB),
    (0x4E01_04, timeSec t), (0x4E01_05, timeFrac t)]
  if rd h 0x4E01_01 = 0 then wrs h ws
  else
    let sameClock := rd h 0x4E01_04 == timeSec t && rd h 0x4E01_05 == timeFrac t
    let a := if sameClock && decide (code < rd h 0x4E01_01 / 2 ^ 40) then wrs h ws else h
    wr a 0x4E01_06 (min (rd a 0x4E01_06 + 1) (2 ^ 32 - 1))

/-- Count an occurrence since reset: 0x4E03 bits [31:16], saturating (R717). -/
def countOccurrence (code : Nat) (h : Hub) : Hub :=
  { h with watch := { h.watch with
      occurrences := tabSet h.watch.occurrences code (min (tabGet 0 h.watch.occurrences code + 1) 65535) } }

/-- Make a new record, capture, log and raise EV_WT_FAULT (R691, R701, R703, R709). -/
def newRecord (code island a b : Nat) (h : Hub) : Hub :=
  let lvl := rd h (slotKey 0x2E01 code)
  let r : FaultRec := { island, detailA := a, detailB := b, chosen := lvl, level := lvl, escalated := false,
                        injected := h.watch.injecting, cause := true, windowStart := stampNs h 0, windowCount := 1 }
  let h1 := capture code r (bump (putRecord h code r) 0x4E00_04)
  let h2 := pushLog h1 0x4E02_01 4 16 [recordWord code r, a, timeSec (replica h 0), timeFrac (replica h 0)]
  escalate code r (raiseEvent h2 0xA8 0 code)

/-- A further raising of a fault whose record is held (R691, R709). -/
def repeatRecord (code : Nat) (r : FaultRec) (h : Hub) : Hub :=
  let now := stampNs h 0
  let r' := if now < r.windowStart + rd h 0x2E03_02 * 1000000000 then
      { r with windowCount := r.windowCount + 1, cause := true, injected := r.injected || h.watch.injecting }
    else
      { r with windowStart := now, windowCount := 1, cause := true, injected := r.injected || h.watch.injecting }
  escalate code r' h

/-- The cause of a held record is gone (R695), unless an injection holds it (R710). -/
def markGone (code : Nat) (h : Hub) : Hub :=
  match h.watch.records.find? fun e => e.1 == code with
  | some (_, r) => if h.watch.injected.contains code then h else putRecord h code { r with cause := false }
  | none => h

/-- The cause of a fault is gone, and its reaction ends as its class says (R694, R695). -/
def causeGone (code : Nat) (h : Hub) : Hub := withReactions (markGone code) h

/-- Raise a fault: record or occurrence, capture, log, escalation and reaction (R691 to R709). `injecting` marks the
records an injection causes (R710). -/
def raiseFault (code island a b : Nat) (h : Hub) : Hub :=
  let h1 := withReactions (fun g =>
    let g1 := countOccurrence code g
    match g1.watch.records.find? fun e => e.1 == code with
    | some (_, r) => repeatRecord code r g1
    | none => newRecord code island a b g1) h
  if goneAtOnce code then causeGone code h1 else h1

/-- A fault that an injection causes: its record has the injected bit (R710). -/
def raiseInjected (code island a b : Nat) (h : Hub) : Hub :=
  let was := h.watch.injecting
  let x := raiseFault code island a b { h with watch := { h.watch with injecting := true } }
  { x with watch := { x.watch with injecting := was } }

/-- Whether the cause of a held record is present. -/
def causePresent (h : Hub) (code : Nat) : Bool :=
  match h.watch.records.find? fun e => e.1 == code with
  | some (_, r) => r.cause
  | none => false

/-- End one record and raise EV_WT_FAULT_CLEARED (R695, R704). -/
def dropRecord (code : Nat) (h : Hub) : Hub :=
  raiseEvent { h with watch := { h.watch with records := tabErase h.watch.records code } } 0xA9 0 code

/-- 0x4E03: the fault status of a code (R717). -/
def faultStatus (h : Hub) (code : Nat) : Nat :=
  let occ := tabGet 0 h.watch.occurrences code * 2 ^ 16
  match h.watch.records.find? fun e => e.1 == code with
  | some (_, r) => occ + b2n r.cause + 2 + effectiveLevel code r * 4 + b2n r.escalated * 16
  | none => occ

/-- A fault record that forbids RUN: class 2 while held, class 3 always (Table 2, gate condition [7]). -/
def gateSevenBlocked (h : Hub) : Bool :=
  h.watch.halted || h.watch.records.any fun e => decide (2 ≤ faultClass e.1)

end Sys2Proof.Machine
end

