-- ==== Sys2Proof/Machine/Crossings.lean ====
section
/-! DEFINITION. Crossings (R19 to R27): what a crossing between two islands takes, carries, poisons, refuses and loses, and the words
and frames that the hub's own transfers send over one. -/

namespace Sys2Proof.Machine

/-- Key of the crossing from one island to another. -/
def crossingKey (src dst : Nat) : Nat := src * 256 + dst

/-- A crossing that has carried nothing. -/
def crossingInit : Crossing := { entries := [], waiting := [], delivered := [], broken := false, discarded := 0 }

/-- A crossing. -/
def crossing (h : Hub) (src dst : Nat) : Crossing := tabGet crossingInit h.crossings (crossingKey src dst)

/-- Change a crossing. -/
def setCrossing (h : Hub) (src dst : Nat) (x : Crossing) : Hub :=
  { h with crossings := tabSet h.crossings (crossingKey src dst) x }

/-- The power domain of an island (Table 1 of Power domains and regulators), by island code; none for the always-on island. -/
def islandDomain (code : Nat) : Option Nat :=
  if 8 ≤ code ∧ code ≤ 15 then some (code - 8)
  else if code = 0x10 then some 8
  else if code = 0x11 then some 9
  else if code = 0x12 then some 10
  else if 4 ≤ code ∧ code ≤ 6 then some 11
  else if code ≤ 3 ∨ code = 0x13 ∨ code = 0x14 then some 12
  else none

/-- A domain's crossings are closed: of a Grove from QUIESCING until it is ON again (R27, R669, R671), of every domain in DORMANT
(R675). -/
def domainClosed (h : Hub) (d : Nat) : Bool :=
  mode h == 6 || (decide (d < 8) && domainState h d != 3 && domainState h d != 4)

/-- Whether an island is in a domain whose crossings are closed. -/
def islandClosed (h : Hub) (code : Nat) : Bool :=
  match islandDomain code with
  | some d => domainClosed h d
  | none => false

/-- A crossing is closed while a domain at one end of it is (R27). -/
def crossingClosed (h : Hub) (src dst : Nat) : Bool := islandClosed h src || islandClosed h dst

/-- An injected parity error for the next transfer over a crossing (Table 6 of Watchtower faults and events), taken. -/
def takeParity (src dst : Nat) (h : Hub) : Bool × Hub :=
  match h.watch.armed.find? fun a => a.1 == 6 && a.2 % 65536 == crossingKey src dst with
  | none => (false, h)
  | some a => (true, { h with watch := { h.watch with armed := h.watch.armed.erase a } })

/-- A word taken by its destination with a parity error is poisoned (R24). -/
def taken (word : XWord) (parityOk : Bool) : XWord := { word with poison := word.poison || !parityOk }

/-- A transfer takes a free entry, or waits for a credit (R21, R22). -/
def carried (x : Crossing) (w : XWord) : Crossing :=
  if x.entries.length < 4 ∧ x.waiting = [] then { x with entries := x.entries ++ [w] }
  else { x with waiting := x.waiting ++ [w] }

/-- The destination has taken what is in the entries: their credits return, and waiting transfers take the free entries in
order (R21, R22). -/
def creditsReturn (x : Crossing) : Crossing :=
  { x with entries := x.waiting.take 4, waiting := x.waiting.drop 4, delivered := x.delivered ++ x.entries }

/-- All that is in a crossing has been taken by the destination in order: it is drained (R27). -/
def drained (x : Crossing) : Crossing :=
  if x.broken then x else { x with entries := [], waiting := [], delivered := x.delivered ++ x.entries ++ x.waiting }

/-- FLT_XING_PARITY from the destination island (R24); `bad` says whether an injection caused it (R710). -/
def parityFault (src dst : Nat) (bad : Bool) (h : Hub) : Hub :=
  let injecting := h.watch.injecting
  let b := raiseFault 0x02 dst (crossingKey src dst) 0 { h with watch := { h.watch with injecting := injecting || bad } }
  { b with watch := { b.watch with injecting } }

/-- CROSSING_TRANSFER (R20 to R24, R26, R27). -/
def crossingMove (src dst : Nat) (word : XWord) (parityOk : Bool) (h0 : Hub) : Hub :=
  let x0 := crossing h0 src dst
  if x0.broken ∨ crossingClosed h0 src dst then setCrossing h0 src dst { x0 with discarded := x0.discarded + 1 }
  else
    let (bad, h) := takeParity src dst h0
    let ok := parityOk && !bad
    let a := setCrossing h src dst (carried x0 (taken word ok))
    if ok then a else parityFault src dst bad a

/-- The crossings as time passes (assumption log 34): the credits of every crossing that is not broken return. -/
def crossingsTick (h : Hub) : Hub :=
  { h with crossings := h.crossings.map fun e => (e.1, if e.2.broken then e.2 else creditsReturn e.2) }

/-- CROSSING_TIMEOUT (R26): the credit of a transfer in an entry has not returned. That transfer and all that follow it are discarded
and counted; no timeout runs while the crossing is closed (R27). -/
def crossingLate (src dst : Nat) (h : Hub) : Hub :=
  let x := crossing h src dst
  if x.broken ∨ crossingClosed h src dst ∨ x.entries = [] then h
  else
    let n := x.entries.length + x.waiting.length
    raiseFault 0x03 src (crossingKey src dst) n
      (setCrossing h src dst { x with broken := true, entries := [], waiting := [], discarded := x.discarded + n })

/-- Watchtower reopens a crossing (R697). -/
def reopen (key : Nat) (h : Hub) : Hub :=
  let x := crossing h (key / 256) (key % 256)
  if x.broken then setCrossing h (key / 256) (key % 256) { x with broken := false } else h

/-- Before a domain is switched off every crossing into and out of it is drained (R27). -/
def drainCrossings (d : Nat) (h : Hub) : Hub :=
  { h with crossings := h.crossings.map fun e =>
      (e.1, if islandDomain (e.1 / 256) = some d ∨ islandDomain (e.1 % 256) = some d then drained e.2 else e.2) }

/-! ### The hub's own transfers -/

/-- Whether the crossing between two islands takes no transfer: closed, or marked broken by its sender (R26, R27). -/
def crossingShut (h : Hub) (src dst : Nat) : Bool := (crossing h src dst).broken || crossingClosed h src dst

/-- A word that a block sends over a crossing (R19): it follows all that was sent before it, and arrives as the destination takes
it; none where the crossing is closed or broken, which the sender counts (R26, R27). -/
def crossWord (src dst : Nat) (w : XWord) (h : Hub) : Option XWord × Hub :=
  if crossingShut h src dst then
    (none, setCrossing h src dst { crossing h src dst with discarded := (crossing h src dst).discarded + 1 })
  else if (takeParity src dst h).1 then
    (some (taken w false), parityFault src dst true (setCrossing (takeParity src dst h).2 src dst (drained (crossing h src dst))))
  else if (crossing h src dst).entries = [] then (some w, h)
  else (some w, setCrossing h src dst (drained (crossing h src dst)))

/-- Words sent one after another; those refused are left out. -/
def crossWords (src dst : Nat) : List XWord → Hub → List XWord × Hub
  | [], h => ([], h)
  | w :: ws, h =>
    let a := crossWord src dst w h
    let b := crossWords src dst ws a.2
    (a.1.toList ++ b.1, b.2)

/-- A data word that is neither poisoned nor the end of a packet, as a crossing carries it. -/
def plainWord (w : Word) : XWord := { data := w, poison := false, endMark := false, count := 0 }

/-- A value that one unit sends another over a crossing: none where the crossing is shut, or the word arrives poisoned (R25), and then the
destination keeps what it has. -/
def crossValue (src dst : Nat) (w : Word) (h : Hub) : Option Word × Hub :=
  match crossWord src dst (plainWord w) h with
  | (some x, a) => (if x.poison then none else some x.data, a)
  | (none, a) => (none, a)

/-- Hand a value over a crossing to what its destination does with it. -/
def valueOver (src dst : Nat) (act : Word → Hub → Hub) (w : Word) (h : Hub) : Hub :=
  match crossValue src dst w h with
  | (some x, a) => act x a
  | (none, a) => a

/-! ### Frames as words (R134 to R138) -/

/-- Header word 0 (Table 5 of Ring links and frames). -/
def header0 (f : Frame) : Nat :=
  f.version % 16 * 2 ^ 44 + f.ftype % 16 * 2 ^ 40 + clsNum f.cls * 2 ^ 38 + b2n f.secured * 2 ^ 36
    + b2n f.confidential * 2 ^ 35 + b2n f.multicast * 2 ^ 34 + f.dst % 256 * 2 ^ 24 + f.src % 256 * 2 ^ 16 + f.seq % 65536

/-- Header word 1 (Table 6 of Ring links and frames). -/
def header1 (f : Frame) : Nat :=
  (f.payload.length - 1) % 256 * 2 ^ 40 + f.specific % 65536 * 2 ^ 24 + f.group % 2 ^ 23

/-- Security header words (Table 7 of Ring links and frames). -/
def security0 (f : Frame) : Nat := f.slot % 256 * 2 ^ 40 + f.epoch % 2 ^ 32 * 2 ^ 8
def security1 (f : Frame) : Nat := f.counter % 2 ^ 48

/-- Words of a frame before its payload. -/
def headWords (f : Frame) : Nat := 2 + (if f.secured then 2 else 0)

/-- A frame's words inside the hub (R174): header, security header, payload, and the tag in 3 words. -/
def insideWords (f : Frame) : List Word :=
  [BitVec.ofNat 48 (header0 f), BitVec.ofNat 48 (header1 f)]
    ++ (if f.secured then [BitVec.ofNat 48 (security0 f), BitVec.ofNat 48 (security1 f)] else []) ++ f.payload
    ++ (if f.secured then [BitVec.ofNat 48 f.tag, BitVec.ofNat 48 (f.tag / 2 ^ 48), BitVec.ofNat 48 (f.tag / 2 ^ 96)] else [])

/-- A frame sent over a crossing, word for word: none where the crossing is shut; one with a poisoned word in its headers is discarded at
once, and counted (R25, R207); else the frame, marked with its other words that arrived poisoned. -/
def crossFrame (src dst : Nat) (f : Frame) (h : Hub) : Option Frame × Hub :=
  let a := crossWords src dst ((insideWords f).map plainWord) h
  if crossingShut h src dst then (none, a.2)
  else
    let bad := (a.1.zipIdx.filter fun e => e.1.poison).map (·.2)
    if bad.any fun k => k < headWords f then (none, bump a.2 0x4200_17)
    else (some { f with poison := f.poison ++ bad.map fun k => k - headWords f }, a.2)

/-- Hand a frame over a crossing to what its destination does with it; one refused at the source goes nowhere (R26, R27). -/
def sendOver (src dst : Nat) (act : Frame → Hub → Hub) (f : Frame) (h : Hub) : Hub :=
  match crossFrame src dst f h with
  | (some g, a) => act g a
  | (none, a) => a

end Sys2Proof.Machine
end

