-- ==== Sys2Proof/Machine/Operands.lean ====
section
/-! DEFINITION. Operand forms of the access paths: which path an access comes by, whether the path is served, the
refusal causes in the order of Table 2 of The object dictionary, and the record of a refusal (R62, R76 to R97, R620). -/

namespace Sys2Proof.Machine

/-- Path code (Table 1 of The object dictionary). -/
def pathCode : Path → Nat
  | .host => 1
  | .sdo _ => 2
  | .ring _ => 3

/-- Key of one path's latches, held writes and session (R76). -/
def pathKey : Path → Nat
  | .host => 0
  | .sdo c => 1 + c.val
  | .ring n => 256 + n

/-- A path that holds nothing. -/
def pathInit : PathState :=
  { timeLatch := [], timeHeld := [], longLatch := [], longHeld := none, canLatch := [] }

/-- What a path holds. -/
def pathState (h : Hub) (p : Path) : PathState := tabGet pathInit h.paths (pathKey p)

/-- Change what a path holds. -/
def setPath (h : Hub) (p : Path) (x : PathState) : Hub := { h with paths := tabSet h.paths (pathKey p) x }

/-- No session. -/
def sessionInit : Session := { role := 0, challenge := none, failures := 0, closed := false, lastAccess := 0 }

/-- A path's session. -/
def session (h : Hub) (p : Path) : Session := tabGet sessionInit h.sessions (pathKey p)

/-- Change a path's session. -/
def setSession (h : Hub) (p : Path) (x : Session) : Hub := { h with sessions := tabSet h.sessions (pathKey p) x }

/-- Whether a path reaches the dictionary at all: the host port from BOOT step 6 and outside DORMANT; SDO outside BOOT,
FACTORY and DORMANT (R62, R472); the ring once joined, in the modes in which the hub sends frames of its own (Table 3 of
Operating modes and start-up, R64). -/
def served (h : Hub) (p : Path) : Bool :=
  match p with
  | .host => h.boot.latched && mode h != 6
  | .sdo _ => mode h != 1 && mode h != 8 && mode h != 6
  | .ring _ => hubNumber h != 0 && mode h != 1 && mode h != 8 && mode h != 6

/-- R62: until BOOT step 8 ends the host port serves only 0x1018, 0x2000:00 to 0x2000:12, and the role session entries
while TEST_MODE is high and STRAP[11:10] is 0b11. -/
def servedInBoot (h : Hub) (index sub : Nat) : Bool :=
  mode h != 1 || h.boot.complete || index == 0x1018 || (index == 0x2000 && decide (sub ≤ 0x12))
    || (index == 0x2B02 && decide (sub ≤ 8) && h.env.testMode && rd h 0x2000_0C == 3)

/-- Capabilities present (R114): the QSPI capability only on a hub strapped for QSPI. When another feature is usable the rule does not
say: the other nine are present always (DESIGN CHOICE, assumption log 64). -/
def capabilityPresent (h : Hub) (index : Nat) : Bool := index != 0x5002 || !pcie h

/-- Mapped process objects at 0x6000 to 0x6FFF: mapping m defines (index, subindex) (R505). -/
def mappingKey (m : Nat) : Nat := slotKey (0x2820 + m / 64) (2 * (m % 64) + 1)

/-- The mapping that defines a process object. -/
def findMapping (h : Hub) (index sub : Nat) : Option Nat :=
  (List.range 256).find? fun m =>
    let w := rd h (mappingKey m)
    bits w 22 0 != 0 && bits w 47 32 == index && bits w 31 24 == sub

/-- Whether the index has any entry, in the present mode. -/
def indexKnown (h : Hub) (index : Nat) : Bool :=
  ((findObj index entryTable).isSome && capabilityPresent h index)
    || (decide (0x6000 ≤ index ∧ index ≤ 0x6FFF)
        && (List.range 256).any fun m => bits (rd h (mappingKey m)) 22 0 != 0 && bits (rd h (mappingKey m)) 47 32 == index)

/-- Whether the subindex has an entry or a slot. -/
def subKnown (h : Hub) (index sub : Nat) : Bool :=
  (entryRow index sub).isSome || (findMapping h index sub).isSome || (decide (0x6000 ≤ index) && sub == 0)

/-- An access to an absent index, to an entry not served in BOOT, or to an unmapped process object (R62, R81, R505). -/
def absentEntry (h : Hub) (index sub : Nat) : Bool :=
  !indexKnown h index || !servedInBoot h index sub || (decide (0x6000 ≤ index) && !subKnown h index sub)

/-- A managing hub: listed in 0x2001:09 to 0x2001:0C, or any hub while all four are 0 (R97). -/
def managing (h : Hub) (n : Nat) : Bool :=
  let l := (List.range 4).map fun i => rd h (0x2001_09 + i)
  l.all (· == 0) || l.contains n

/-- Writes that need a crypto officer session (Table 3 of Dome security, R620, R629, R600, and Firmware update's opening for
update commands): 0x2B01, SRK installation, epoch advance and zeroisation, mode request 0x07, update commands. -/
def officerWrite (index sub value : Nat) : Bool :=
  index == 0x2B01 || (index == 0x2B03 && sub == 8) || (index == 0x2B04 && sub == 1 && value != 2)
    || (index == 0x2000 && sub == 2 && value == 7) || (index == 0x2F01 && sub == 1)

/-- Whether the path's session lacks the role a write needs: the officer, or any role while the write lock 0x2B01:07 is
1, role requests and their responses excepted (R620). -/
def lacksRole (h : Hub) (p : Path) (index sub value : Nat) : Bool :=
  (officerWrite index sub value && (session h p).role != 2)
    || (rdB h 0x2B01_07 && (session h p).role == 0 && index != 0x2B02)

/-- The causes of Table 2 of The object dictionary, each a flag. -/
structure Causes where
  absent  : Bool := false
  noSub   : Bool := false
  access  : Bool := false
  value   : Bool := false
  mode    : Bool := false
  role    : Bool := false
  size    : Bool := false
  busy    : Bool := false
  path    : Bool := false
  other   : Bool := false
deriving DecidableEq, Repr

/-- The first cause that applies gives the refusal code (R81). -/
def refusalCode (c : Causes) : Option Nat :=
  if c.absent then some 1 else if c.noSub then some 2 else if c.access then some 3 else if c.value then some 4
  else if c.mode then some 5 else if c.role then some 6 else if c.size then some 7 else if c.busy then some 8
  else if c.path then some 9 else if c.other then some 10 else none

/-- COMMISSION or SERVICE: the modes of RWC writes (R12, R79). -/
def rwcMode (h : Hub) : Bool := mode h == 2 || mode h == 7

/-- Writes a path may not make: SDO while 0x2001:08 is 0, except to that entry (R93); a ring write from a hub that is
not a managing hub (R97). -/
def pathForbidden (h : Hub) (p : Path) (index sub : Nat) : Bool :=
  match p with
  | .host => false
  | .sdo _ => rd h 0x2001_08 == 0 && !(index == 0x2001 && sub == 8)
  | .ring n => !managing h n

/-- The causes that hold for any write of `value` to a slot, before what its meaning adds. -/
def writeCauses (h : Hub) (p : Path) (index sub value : Nat) : Causes :=
  { absent := absentEntry h index sub
    noSub := !subKnown h index sub
    access := match entryRow index sub with
      | some r => r.acc == .ro || r.acc == .rc || r.acc == .const
      | none => sub == 0
    mode := match entryRow index sub with
      | some r => r.acc == .rwc && !rwcMode h
      | none => false
    role := lacksRole h p index sub value
    busy := h.store.loading
    path := pathForbidden h p index sub }

/-- The causes that hold for any read of a slot. -/
def readCauses (h : Hub) (index sub : Nat) : Causes :=
  { absent := absentEntry h index sub
    noSub := !subKnown h index sub }

/-- Record a refusal: answer, count, last-refusal record (R81); EV_DICT_WRITE_REFUSED for a refused write of the host
window (R82). -/
def refuse (p : Path) (index sub code : Nat) (write : Bool) (h : Hub) : Hub :=
  let a := wrStamp (wrs (bump h 0x4001_01)
    [(0x4001_02, pathCode p), (0x4001_03, index), (0x4001_04, sub), (0x4001_05, code)]) 0x4001_06 0x13
  let b := whenDo (write && p == .host) (fun x => raiseEvent x 0x03 0 0) a
  answered (.refused code) b

/-- A path's access, noted for its session's idle limit (R619). -/
def touch (p : Path) (h : Hub) : Hub :=
  if (session h p).role = 0 then h else setSession h p { session h p with lastAccess := nowNs h }

/-- A held write of the path is discarded when it writes another entry (R75); the discard counts as a refusal with code 0x07. A write
that is itself refused discards it too, and a refused write of its own last slot drops what is held; the refusal's record names the
first slot of the held entry (DESIGN CHOICE, assumption log 64). -/
def dropHeld (p : Path) (key : Nat) (h : Hub) : Hub :=
  let ps := pathState h p
  match ps.longHeld with
  | some (k, ws) =>
    if k ≤ key ∧ key < k + ws.length then h
    else refuse p (k / 256) (k % 256) 7 true (setPath h p { ps with longHeld := none })
  | none => h

/-- What the host window keeps for a slot when the access is to slot `key`. -/
def keepSlot (key : Nat) (x : Option (Nat × Nat)) : Option (Nat × Nat) := x.filter fun e => e.1 == key

/-- A host-window access to another slot ends the latched upper half of a 4-byte read (R781), and such a write discards the held
half of a 4-byte write (R88). -/
def dropHalf (p : Path) (write : Bool) (key : Nat) (h : Hub) : Hub :=
  if p = .host then
    { h with hostHalf := { latch := keepSlot key h.hostHalf.latch
                           half := if write then keepSlot key h.hostHalf.half else h.hostHalf.half } }
  else h

/-! ### The persistent set (R101) -/

/-- Entries that follow a strap (R70), and entries whose chapter states them volatile. -/
def volatileEntry (index sub : Nat) : Bool :=
  (index == 0x2000 && [0x0A, 0x0B, 0x0F, 0x10].contains sub) || (index == 0x2100 && sub == 9) || (index == 0x2207 && sub == 6)
    || (index == 0x2303)
    || index == 0x2311 || index == 0x2312 || (index == 0x2501 && (sub == 0x0E || sub == 0x0F))
    || decide (0x3000 ≤ index ∧ index < 0x3040) || decide (0x3200 ≤ index ∧ index < 0x3280)
    || (index == 0x2D01 && (sub == 2 || sub == 3)) || index == 0x2D04 || decide (0x3500 ≤ index ∧ index < 0x3504)
    || decide (0x2B02 ≤ index ∧ index ≤ 0x2B04) || decide (0x3600 ≤ index ∧ index < 0x3610) || index == 0x2D10
    || index == 0x2E02 || index == 0x2E05 || (index == 0x2F01 && decide (sub ≤ 4)) || index == 0x2F02

/-- A slot of the persistent set: RW or RWC, in 0x1000 to 0x3FFF. -/
def persistentEntry (index sub : Nat) : Bool :=
  decide (0x1000 ≤ index ∧ index ≤ 0x3FFF) && !volatileEntry index sub
    && (match entryRow index sub with
      | some r => r.acc == .rw || r.acc == .rwc
      | none => false)

/-- A write to a persistent entry is not stored yet (R677). -/
def noteUnstored (index sub : Nat) (h : Hub) : Hub :=
  if persistentEntry index sub then { h with store := { h.store with dirty := true } } else h

/-- The path of an access that waits. -/
def heldPath : HeldAccess → Path
  | .hostRead _ _ _ _ | .hostWrite _ _ _ => .host
  | .slotRead p _ _ | .slotWrite p _ _ _ | .entryWrite p _ _ _ => p
  | .request src _ _ _ _ _ _ => .ring src

/-- The accesses of a path are applied in their order (R77, R90): one waits while an earlier write of its path is neither applied nor
refused, that of a process object whose Canopy WRITE is outstanding (R507), and behind one that waits. The client of an SDO channel
waits for each answer itself. -/
def pathWaits (h : Hub) (p : Path) : Bool :=
  match p with
  | .sdo _ => false
  | _ => (h.canopen.writes.any fun e => e.2.path == p) || h.host.waiting.any fun a => heldPath a == p

/-- Put an access to those that wait. -/
def holdAccess (a : HeldAccess) (h : Hub) : Hub :=
  answered .none { h with host := { h.host with waiting := h.host.waiting ++ [a] } }

/-- The read of a slot as it waits. -/
def heldRead (p : Path) (index sub : Nat) : HeldAccess :=
  match p with
  | .host => .hostRead none [] (8 * slotKey index sub) 8
  | _ => .slotRead p index sub

/-- A TLP of the host is counted (R596): 0x4A00:04 a write, 0x4A00:05 a read. QSPI counts commands instead. -/
def hostTlp (p : Path) (key : Nat) (h : Hub) : Hub := if p = .host ∧ pcie h then bump h key else h

/-- What every served read does first. -/
def readTouch (p : Path) (index sub : Nat) (h : Hub) : Hub :=
  dropHalf p false (slotKey index sub) (touch p (hostTlp p 0x4A00_05 h))

/-- What every served write does first: its TLP is counted, its session is active, what the path held of another entry is dropped. -/
def writeBegun (p : Path) (index sub : Nat) (h : Hub) : Hub :=
  dropHalf p true (slotKey index sub) (dropHeld p (slotKey index sub) (touch p (hostTlp p 0x4A00_04 h)))

/-- A write on a path: nothing where the path is not served; else refused for the first cause, or applied by `f` and answered
as accepted. -/
def pathTry (p : Path) (index sub value : Nat) (causes : Hub → Causes → Causes) (f : Hub → Hub) (h0 : Hub) : Hub :=
  if served h0 p then
    let h := writeBegun p index sub h0
    match refusalCode (causes h (writeCauses h p index sub value)) with
    | some c => refuse p index sub c true h
    | none => f (answered .accepted h)
  else answered .none h0

/-- An accepted write of the host ends what the host window has latched of its slot: its later reads reflect the write (R78 before
R781). -/
def endHalf (p : Path) (h : Hub) : Hub := if p = .host then { h with hostHalf := { h.hostHalf with latch := none } } else h

/-- What every accepted write does that takes effect at once. -/
def writeTaken (p : Path) (index sub : Nat) (h : Hub) : Hub := noteUnstored index sub (endHalf p h)

/-- A write that takes effect at once, or waits for an earlier one of its path. -/
def pathWrite (p : Path) (index sub value : Nat) (causes : Hub → Causes → Causes) (f : Hub → Hub) (h0 : Hub) : Hub :=
  if served h0 p && pathWaits h0 p then holdAccess (.entryWrite p index sub value) h0
  else pathTry p index sub value causes (fun h => f (writeTaken p index sub h)) h0

end Sys2Proof.Machine
end

