-- ==== Sys2Proof/Machine/Fifos.lean ====
section
/-! DEFINITION. Stream FIFOs (R436 to R469): the stored word and its packer, pointers and marks, pages, watermarks and
STOP, deliveries, and streams between hubs. -/

namespace Sys2Proof.Machine

/-- A free FIFO. -/
def fifoInit : Fifo :=
  { words := [], read := 0, mark := false, packer := [], pages := 0, off := 0, wIdx := 0, e := 0, next := 0, limit := 0,
    sentLimit := 0, stop := false, stopAt := 0, reported := false, due := false, notified := false, dropping := false,
    settings := 0, producer := 0, consumer := 0, lastCommit := none, errors := [] }

/-- FIFO `f`. -/
def fifo (h : Hub) (f : Nat) : Fifo := tabGet fifoInit h.fifos f

/-- Store FIFO `f`. -/
def setFifo (h : Hub) (f : Nat) (x : Fifo) : Hub := { h with fifos := tabSet h.fifos f x }

/-- Slot `sub` of FIFO `f`'s instance entries 0x3200 + f. -/
def fifoKey (f sub : Nat) : Nat := slotKey (0x3200 + f) sub

/-- Capacity in words: page budget × 256 (R437). -/
def fifoCapacity (h : Hub) (f : Nat) : Nat := rd h (fifoKey f 3) * 256

/-- The fill: W - B, plus 1 while the packer holds bytes (R445). -/
def fifoFill (x : Fifo) : Nat := x.words.length + (if x.packer.isEmpty then 0 else 1)

/-- The packet count: end-marked words in [R, W) (R445). -/
def fifoPackets (x : Fifo) : Nat := (x.words.drop x.read).countP fun w => w.1.endMark

/-- Event class (settings bit [0]). -/
def fifoEvent (x : Fifo) : Bool := bit x.settings 0

/-- High watermark ⌈capacity × h ÷ 100⌉ (R452). -/
def fifoHigh (cap : Nat) (x : Fifo) : Nat := (cap * bits x.settings 14 8 + 99) / 100

/-- Low watermark ⌊capacity × l ÷ 100⌋ (R452). -/
def fifoLow (cap : Nat) (x : Fifo) : Nat := cap * bits x.settings 22 16 / 100

/-- The kind of an end (Table 3 of Forester placement and migration, bits [47:44]). -/
def endKind (e : Nat) : Nat := bits e 47 44

/-- Consumers that read whole packets (Table 3). -/
def wholePackets (x : Fifo) : Bool := endKind x.consumer == 2 || endKind x.consumer == 3

/-- Producers that a full or stopped FIFO holds back: PROGRAM and software (Table 3). -/
def heldBack (h : Hub) (f : Nat) : Bool :=
  let x := fifo h f
  decide (fifoCapacity h f ≤ fifoFill x) || (!fifoEvent x && x.stop)

/-- A delivery: for a software consumer EV_FIFO_DATA_READY, raised again only after a word was read; for a sending FIFO
the egress may send a short frame (R456). -/
def fifoDeliver (f : Nat) (h : Hub) : Hub :=
  let x := fifo h f
  if rd h (fifoKey f 1) = 2 then setFifo h f { x with due := true }
  else if endKind x.consumer = 0 ∧ ¬ x.notified then
    raiseEvent (setFifo h f { x with notified := true, due := true }) 0x40 f 0
  else h

/-- A STOP that has lasted the stop timeout or longer (R455, R31). -/
def stoppedLong (h : Hub) (x : Fifo) : Bool :=
  bits x.settings 31 24 != 0 && decide (x.stopAt + bits x.settings 31 24 * 10000000 ≤ stampNs h 0)

/-- The stop timeout's event and count, once in a STOP that has lasted it (R455). -/
def stopExpiry (f : Nat) (h : Hub) : Hub :=
  let x := fifo h f
  if x.stop && !x.reported && !fifoEvent x && stoppedLong h x then
    raiseEvent (bump (setFifo h f { x with reported := true }) 0x4700_07) 0x42 f 0
  else h

/-- The idle time has passed since the last word committed (R457, R31). -/
def idleLong (h : Hub) (x : Fifo) : Bool := x.lastCommit.any fun t => decide (t + bits x.settings 47 32 * 1000 ≤ stampNs h 0)

/-- The idle timeout of an event FIFO expires: it is counted, and a delivery is due for every readable word (R457). -/
def idleExpiry (f : Nat) (h : Hub) : Hub :=
  let x := fifo h f
  if fifoEvent x && rd h (fifoKey f 1) != 0 && idleLong h x then
    whenDo (decide (x.read < x.words.length)) (fifoDeliver f) (bump (setFifo h f { x with lastCommit := none }) 0x4700_08)
  else h

/-- Watermark state after a Belfry clock's write and read (R452, R455, R456); a return to GO stamped at or after the end of the stop
timeout comes too late to prevent its event (R455). -/
def fifoWatermark (f : Nat) (h : Hub) : Hub :=
  let x := fifo h f
  let cap := fifoCapacity h f
  if fifoEvent x then h
  else if !x.stop && decide (fifoHigh cap x ≤ fifoFill x) && rd h (fifoKey f 1) != 0 then
    fifoDeliver f (raise16ms (bump (setFifo h f { x with stop := true, stopAt := stampNs h 0, reported := false })
      (fifoKey f 0x11)) 0x41 f 0 0)
  else if x.stop && decide (fifoFill x ≤ fifoLow cap x) then
    let a := stopExpiry f h
    setFifo a f { fifo a f with stop := false, reported := false }
  else h

/-- Discard words of FIFO `f`: counted at 0x4700:06 (R438, R451). -/
def countDiscarded (n : Nat) (h : Hub) : Hub := bumpBy h 0x4700_06 n

/-- A full FIFO whose consumer reads whole packets, with packet count 0: discard [R, W) and what follows up to the next
end mark (R451). -/
def fifoOversize (f : Nat) (h : Hub) : Hub :=
  let x := fifo h f
  if wholePackets x && decide (fifoCapacity h f ≤ fifoFill x) && fifoPackets x == 0 then
    let lost := x.words.length - x.read
    let kept := x.words.take x.read
    raiseEvent (countDiscarded lost (setFifo (peak h (fifoKey f 0x0C) (fifoFill x)) f
      { x with words := kept, packer := [], dropping := true, errors := x.errors.filter fun e => kept.any (·.2 == e.1) }))
      0x44 f 0
  else h

/-- The data of a stored word: bytes at and above the count are 0 (R441). -/
def storedData (w : XWord) : Word :=
  BitVec.ofNat 48 (w.data.toNat % 2 ^ (8 * (if w.count = 0 ∨ 6 < w.count then 6 else w.count)))

/-- The stored form of a word: a count of 0 or 7 is never stored (R441). -/
def storedWord (w : XWord) : XWord :=
  { w with data := storedData w, count := if w.count = 0 ∨ 6 < w.count then 6 else w.count }

/-- What reading the word at index `e.1` finds of its error: a single-bit error corrected and counted; a double-bit error counted, with
its fault (R464). Only an injection (R710) puts an error into a word. -/
def fifoErrorFound (f : Nat) (e : Nat × Nat) (h : Hub) : Hub :=
  if e.2 = 2 then raiseInjected 0x12 0x00 f e.1 (bump h 0x4700_04) else bump h 0x4700_03

/-- The errors of the n words from R on. -/
def fifoErrorsIn (x : Fifo) (n : Nat) : List (Nat × Nat) := x.errors.filter fun e => ((x.words.drop x.read).take n).any (·.2 == e.1)

/-- The n words from R on are read: each error in them is found, and a double-bit error sets the stored poison bit (R464). -/
def fifoScan (f n : Nat) (h : Hub) : Hub :=
  let x := fifo h f
  let found := fifoErrorsIn x n
  if found.isEmpty then h
  else forEach found (fifoErrorFound f) (setFifo h f { x with
    errors := x.errors.filter fun e => !found.contains e
    words := x.words.map fun w => if found.contains (w.2, 2) then ({ w.1 with poison := true }, w.2) else w })

/-- Commit one word at W (R440, R441, R456, R457). A word stamped at or after the end of the idle timeout comes after its delivery; an
armed injection puts its error into the word (R710). -/
def fifoCommit (f : Nat) (w : XWord) (h0 : Hub) : Hub :=
  let h := idleExpiry f h0
  let x := fifo h f
  if x.dropping then
    countDiscarded 1 (setFifo h f { x with dropping := !w.endMark })
  else
    let i := takeInjection 2 h
    let h1 := setFifo i.2 f { x with
      words := x.words ++ [(storedWord w, x.wIdx)], errors := if i.1 = 0 then x.errors else x.errors ++ [(x.wIdx, i.1)],
      wIdx := (x.wIdx + 1) % 2 ^ 24, lastCommit := some (stampNs h 0) }
    let h2 := peak (bump h1 (fifoKey f 0x0D)) (fifoKey f 0x0C) (fifoFill (fifo h1 f))
    let h3 := if w.endMark then fifoDeliver f h2 else h2
    fifoWatermark f (fifoOversize f h3)

/-- Commit the packer's bytes as one word (R442, R443). -/
def fifoFlushPacker (f : Nat) (endMark : Bool) (h : Hub) : Hub :=
  let x := fifo h f
  if x.packer.isEmpty then h
  else fifoCommit f { data := BitVec.ofNat 48 (bytesNat x.packer), poison := false, endMark, count := x.packer.length }
    (setFifo h f { x with packer := [] })

/-- Write one whole word: the packer's bytes are committed first as a short word (R443). -/
def fifoStore (f : Nat) (w : XWord) (h : Hub) : Hub := fifoCommit f w (fifoFlushPacker f false h)

/-- One byte into the packer; a full packer commits with count 6 (R442). -/
def fifoPackByte (f : Nat) (b : Byte) (h : Hub) : Hub :=
  let x := fifo h f
  let h1 := setFifo h f { x with packer := x.packer ++ [b] }
  if 6 ≤ x.packer.length + 1 then fifoFlushPacker f false h1 else fifoWatermark f h1

/-- A narrow unit of 8 or 16 bits; with an end mark the packer word is committed with it (R442, R443). A unit that fills
the packer word exactly and carries the end mark commits it once, with the mark. -/
def fifoPackUnit (f : Nat) (bs : List Byte) (endMark : Bool) (h : Hub) : Hub :=
  match bs with
  | [] => h
  | b :: rest =>
    let x := fifo h f
    if rest.isEmpty && endMark then
      fifoFlushPacker f true (setFifo h f { x with packer := x.packer ++ [b] })
    else
      let h1 := fifoPackByte f b h
      match rest with
      | [] => h1
      | c :: _ =>
        if endMark then
          let y := fifo h1 f
          fifoFlushPacker f true (setFifo h1 f { y with packer := y.packer ++ [c] })
        else fifoPackByte f c h1

/-- Index arithmetic modulo 2^24: how far `a` lies ahead of `b`, when at most 2^23 (R460). -/
def idxAhead (a b : Nat) : Nat := (a + 2 ^ 24 - b % 2 ^ 24) % 2 ^ 24

/-- `i < L` in the sense of R460: L lies ahead of i by 1 to 2^23. -/
def idxBefore (i l : Nat) : Bool := decide (1 ≤ idxAhead l i ∧ idxAhead l i ≤ 2 ^ 23)

/-- The ring class of a STREAM's frames: options bits [17:16] of its definition, 0b01 UR, 0b10 BK; kept in bits
[49:48] of the FIFO's settings copy. -/
def streamClass (x : Fifo) : Cls := if x.settings / 2 ^ 48 % 4 = 1 then .ur else .bk

/-- The Belfry port of a FIFO's device: Bus aggregate for CAN and T1S, else Grove aggregate (Table 1 of Belfry). -/
def fifoPort (e : Nat) : Nat := if endKind e = 2 ∨ endKind e = 3 then 4 else 3

/-- The hub at the other end of a sending FIFO's STREAM: kept in bits [57:50] of the settings copy. -/
def streamPeer (x : Fifo) : Nat := x.settings / 2 ^ 50 % 256

/-- C: the index of the oldest held word (R461). -/
def fifoC (x : Fifo) : Nat :=
  match x.words with
  | (_, i) :: _ => i
  | [] => x.e

/-- L = C + capacity (R461). -/
def fifoL (h : Hub) (f : Nat) : Nat := (fifoC (fifo h f) + fifoCapacity h f) % 2 ^ 24

/-- Send a CREDIT with E and L (R459, R461). -/
def sendCredit (f : Nat) (h : Hub) : Hub :=
  let x := fifo h f
  let l := fifoL h f
  setFifo (originate h (fifoPort x.consumer) 0x1 (streamClass x) (streamPeer x) 0x0200 0
    [BitVec.ofNat 48 (l * 2 ^ 24 + rd h (fifoKey f 2)), BitVec.ofNat 48 (x.e * 2 ^ 24)]) f { x with sentLimit := l }

/-- L has advanced by a quarter of the capacity since the last CREDIT of a STREAM from another hub: one more is sent (R461). -/
def creditAdvance (f : Nat) (h : Hub) : Hub :=
  if rd h (fifoKey f 1) = 1 ∧ streamPeer (fifo h f) ≠ 0 ∧ fifoCapacity h f ≤ 4 * idxAhead (fifoL h f) (fifo h f).sentLimit then
    sendCredit f h
  else h

/-- Move B forward by `n` words and return pages whose words have all been released, while more pages are held than the
budget (R439, R446). -/
def fifoFree (f n : Nat) (h : Hub) : Hub :=
  let x := fifo h f
  let n := min n x.words.length
  let emptied := (x.off + n) / 256
  let surplus := x.pages - rd h (fifoKey f 3)
  let back := min emptied surplus
  let kept := x.words.drop n
  let h1 := setFifo (peak h (fifoKey f 0x0C) (fifoFill x)) f { x with
    words := kept, read := x.read - n, off := (x.off + n) % 256, pages := x.pages - back,
    errors := x.errors.filter fun e => kept.any (·.2 == e.1) }
  creditAdvance f (fifoWatermark f (wr h1 0x4700_01 (rd h1 0x4700_01 + back)))

/-- The read pointer advances by one word; while no mark is active B moves with it (R446). -/
def fifoAdvance (f : Nat) (h : Hub) : Hub :=
  let x := fifo h f
  let h1 := bump (setFifo h f { x with read := x.read + 1, notified := false }) (fifoKey f 0x0E)
  if x.mark then h1 else fifoFree f (x.read + 1) h1

/-- The word at R, where it may be read: any readable word; for a consumer of whole packets only with a packet. -/
def fifoHead (h : Hub) (f : Nat) : Option XWord :=
  let x := fifo h f
  if wholePackets x && fifoPackets x == 0 then none
  else match x.words.drop x.read with
    | (w, _) :: _ => some w
    | [] => none

/-- A poisoned word is delivered: counted and EV_FIFO_POISON (R465). -/
def fifoPoisoned (f : Nat) (h : Hub) : Hub := raise16ms (bump h (fifoKey f 0x10)) 0x45 f 0 0

/-- The words from R to the first end mark inclusive. -/
def packetLength : List (XWord × Nat) → Nat
  | [] => 0
  | (w, _) :: t => if w.endMark then 1 else packetLength t + 1

/-- The words a consumer reads at once: a packet, where it reads whole packets, else one. -/
def headLength (x : Fifo) : Nat := if wholePackets x then packetLength (x.words.drop x.read) else 1

/-- The word or packet at the consumer's end is read, where there is one: its errors are found (R464). -/
def readHead (f : Nat) (h : Hub) : Hub := if (fifoHead h f).isSome then fifoScan f (headLength (fifo h f)) h else h

/-- Read one word at the consumer's end, its poison as Table 5 states: a CAN or T1S consumer's packet is released up to
its end mark and not sent, any other consumer takes the word poisoned. -/
def fifoTake (f : Nat) (h0 : Hub) : Hub :=
  let h := readHead f h0
  match fifoHead h f with
  | none => answered (.status 0x09) h
  | some w =>
    let x := fifo h f
    if w.poison && wholePackets x then
      let n := packetLength (x.words.drop x.read)
      let h1 := fifoPoisoned f h
      answered .none (fifoFree f (x.read + n) (setFifo h1 f { fifo h1 f with read := x.read + n, notified := false }))
    else
      let a := fifoAdvance f (whenDo w.poison (fifoPoisoned f) h)
      answered (if w.poison then .poisoned (natBytes 6 w.data.toNat) else .value w.data.toNat) a

/-- FIFO_WORD_WRITE (R448): a PROGRAM or software word is not taken while the FIFO is full or a bulk FIFO is in STOP;
a device's word needs space. -/
def execFifoWordWrite (f : Fin 128) (word : XWord) (s : State) : Host.Outcome State Fault Refusal :=
  onHub s fun h =>
    let x := fifo h f
    if rd h (fifoKey f 1) = 0 then answered .none h
    else if endKind x.producer = 2 ∨ endKind x.producer = 3 then
      if fifoCapacity h f ≤ fifoFill x then raiseEvent (bump h (fifoKey f 0x0F)) 0x43 f 0
      else answered .accepted (fifoStore f word h)
    else if heldBack h f then answered (.status 0x0A) h
    else answered .accepted (fifoStore f word h)

/-- FIFO_NARROW_WRITE (R442, R443): an 8-bit or 16-bit unit goes into the packer. -/
def execFifoNarrowWrite (f : Fin 128) (wide : Bool) (value : Nat) (endMark : Bool) (s : State) :
    Host.Outcome State Fault Refusal :=
  onHub s fun h =>
    let x := fifo h f
    if rd h (fifoKey f 1) = 0 then h
    else if fifoCapacity h f ≤ x.words.length then raiseEvent (bump h (fifoKey f 0x0F)) 0x43 f 0
    else fifoPackUnit f (natBytes (if wide then 2 else 1) value) endMark h

/-- FIFO_READ (R446, R465). -/
def execFifoRead (f : Fin 128) (s : State) : Host.Outcome State Fault Refusal := onHub s (fifoTake f)

/-- The read command entry 0x32ff:08 serves only a FIFO whose consumer is software (R447). -/
def softwareConsumer (h : Hub) (f : Nat) : Bool := rd h (fifoKey f 1) == 1 && endKind (fifo h f).consumer == 0

/-- MARK: B stays where it is while R advances (Table 2). -/
def fifoMark (f : Nat) (h : Hub) : Hub := setFifo h f { fifo h f with mark := true }

/-- REWIND: R := B (Table 2). -/
def fifoRewind (f : Nat) (h : Hub) : Hub := setFifo h f { fifo h f with read := 0 }

/-- RELEASE n: B := B + n; n = 0 sets B := R and clears the mark (Table 2). -/
def fifoRelease (f n : Nat) (h : Hub) : Hub :=
  if n = 0 then
    let h1 := fifoFree f (fifo h f).read h
    setFifo h1 f { fifo h1 f with mark := false }
  else fifoFree f n h

/-- MARK (R446). -/
def execMark (p : Path) (f : Fin 128) (s : State) : Host.Outcome State Fault Refusal :=
  onHub s (pathWrite p (0x3200 + f.val) 8 1 (fun h c => { c with value := c.value || !softwareConsumer h f }) (fifoMark f))

/-- REWIND (R446, R447). -/
def execRewind (p : Path) (f : Fin 128) (s : State) : Host.Outcome State Fault Refusal :=
  onHub s (pathWrite p (0x3200 + f.val) 8 2
    (fun h c => { c with value := c.value || !softwareConsumer h f || !(fifo h f).mark }) (fifoRewind f))

/-- RELEASE n (R446, R447). -/
def execRelease (p : Path) (f : Fin 128) (count : Nat) (s : State) : Host.Outcome State Fault Refusal :=
  onHub s (pathWrite p (0x3200 + f.val) 8 (3 + 256 * count)
    (fun h c => { c with value := c.value || !softwareConsumer h f || decide ((fifo h f).read < count ∨ 65535 < count) })
    (fifoRelease f count))

/-- A page budget takes effect as capacity at once; extra pages are drawn, and pages with no held word return (R439). -/
def fifoSetBudget (f v : Nat) (h : Hub) : Hub :=
  let x := fifo h f
  if rd h (fifoKey f 1) = 0 then wr h (fifoKey f 3) v
  else
    let used := (x.off + x.words.length + 255) / 256
    let pages := if x.pages ≤ v then v else max v used
    let h1 := setFifo (wr h (fifoKey f 3) v) f { x with pages }
    creditAdvance f (fifoWatermark f (fifoOversize f (wr h1 0x4700_01 (rd h1 0x4700_01 + x.pages - pages))))

/-- PAGE_BUDGET_WRITE (R439): refused with 0x0A where the pool lacks the extra pages. -/
def execPageBudgetWrite (p : Path) (f : Fin 128) (value : Nat) (s : State) : Host.Outcome State Fault Refusal :=
  onHub s (pathWrite p (0x3200 + f.val) 3 value
    (fun h c => { c with
      value := c.value || decide (value < 1 ∨ 64 < value)
      other := c.other || (rd h (fifoKey f 1) != 0 && decide ((fifo h f).pages + rd h 0x4700_01 < value)) })
    (fifoSetBudget f value))

/-- STOP_TIMEOUT (R455): raises EV_FIFO_STOP_TIMEOUT once. -/
def execStopTimeout (f : Fin 128) (s : State) : Host.Outcome State Fault Refusal := onHub s (stopExpiry f)

/-- IDLE_TIMEOUT (R457): a delivery is due for every readable word of an event FIFO; the next word starts a new timeout. -/
def execIdleTimeout (f : Fin 128) (s : State) : Host.Outcome State Fault Refusal := onHub s (idleExpiry f)

/-! ### Traffic counts (R296) -/

/-- Add words of a class to a requester's count; a ninth requester drops the one with the fewest words. -/
def addTraffic (hub cls n : Nat) (l : List (Nat × List Nat)) : List (Nat × List Nat) :=
  let addTo := fun (c : List Nat) => c.zipIdx.map fun p => if p.2 = cls then p.1 + n else p.1
  if l.any fun e => e.1 == hub then l.map fun e => if e.1 = hub then (hub, addTo e.2) else e
  else
    let l := l ++ [(hub, addTo [0, 0, 0, 0])]
    if l.length ≤ 8 then l
    else match (l.dropLast.map fun e => e.2.sum).min? with
      | none => l
      | some m => match l.dropLast.find? fun e => e.2.sum == m with
        | none => l
        | some e => l.erase e

/-- Count an object's traffic; counting stops while the movement freeze is not 0. -/
def countTraffic (handle hub cls n : Nat) (h : Hub) : Hub :=
  if rd h 0x2310_02 ≠ 0 then h
  else { h with forester := { h.forester with
    counts := tabSet h.forester.counts handle (addTraffic hub cls n (tabGet [] h.forester.counts handle)) } }

/-! ### Streams between hubs (R458 to R463) -/

/-- Data words of the next DATA frame: from the next unsent index, below the credit limit, at most 226. -/
def sendable (x : Fifo) : List (XWord × Nat) :=
  ((x.words.drop x.read).takeWhile fun w => idxBefore w.2 x.limit).take 226

/-- Descriptor nibble of a data word; a poisoned word is sent as zero data with 0b0000 (R459, R465). -/
def streamNibble (w : XWord) : Nat := if w.poison then 0 else b2n w.endMark * 8 + w.count

/-- A group: one descriptor word, then up to 8 data words (Table 4). -/
def streamGroup (g : List XWord) : List Word :=
  BitVec.ofNat 48 ((g.zipIdx.map fun p => streamNibble p.1 * 2 ^ (4 * p.2)).sum)
    :: g.map fun w => if w.poison then 0 else w.data

/-- The groups of a DATA frame's words (`fuel` bounds the number of groups). -/
def streamGroups : Nat → List XWord → List Word
  | 0, _ => []
  | k + 1, ws => if ws.isEmpty then [] else streamGroup (ws.take 8) ++ streamGroups k (ws.drop 8)

/-- STREAM_DATA_SEND (R462): the egress sends a DATA frame when 226 words are ready within credit, or a delivery is
due. It reads with its mark kept at the oldest unacknowledged word. BK waits while requests are held before the point of
no return (step 2 of Table 3 of Network sleep, Clearing and wake). -/
def streamDataSend (f : Nat) (h0 : Hub) : Hub :=
  let x0 := fifo h0 f
  let n := (sendable x0).length
  if rd h0 (fifoKey f 1) ≠ 2 ∨ n = 0 ∨ (n < 226 ∧ ¬ x0.due) ∨ (h0.sleep.holding ∧ streamClass x0 = .bk) then h0
  else
    let h := fifoScan f n h0
    let x := fifo h f
    let ws := sendable x
    let first := match ws with
      | (_, i) :: _ => i
      | [] => 0
    let poisoned := ws.countP fun w => w.1.poison
    let payload := BitVec.ofNat 48 (first * 2 ^ 24 + rd h (fifoKey f 2)) :: streamGroups 32 (ws.map (·.1))
    let h1 := originate h (fifoPort x.producer) 0x1 (streamClass x) (streamPeer x) (0x0100 + (n - 1)) 0 payload
    let h2 := setFifo h1 f { x with read := x.read + n, next := (first + n) % 2 ^ 24, mark := true,
                                    due := x.due && decide (x.read + n < x.words.length) }
    let h3 := bumpBy (bumpBy h2 (fifoKey f 0x0E) n) 0x4700_05 poisoned
    forEach (List.range poisoned) (fun _ g => fifoPoisoned f g) h3

def execStreamDataSend (f : Fin 128) (s : State) : Host.Outcome State Fault Refusal := onHub s (streamDataSend f)

/-- The FIFO in a state (1 holding, 2 sending) with a STREAM handle. -/
def findFifo (h : Hub) (st handle : Nat) : Option Nat :=
  (h.fifos.find? fun e => rd h (fifoKey e.1 1) == st && rd h (fifoKey e.1 2) == handle && handle != 0).map (·.1)

/-- A stream word's count is 1 to 6, or the word is marked discarded at its sender with count and mark 0 (R459). -/
def streamWordOk (w : StreamWord) : Bool :=
  (decide (1 ≤ w.count ∧ w.count ≤ 6)) || (w.count == 0 && !w.endMark)

/-- Store one received stream word at index `i`: a word marked 0b0000 is not stored, but E passes it (R463). -/
def storeStreamWord (f i : Nat) (w : StreamWord) (h : Hub) : Hub :=
  let h1 := setFifo h f { fifo h f with wIdx := i }
  let h2 := if w.count = 0 then h1
    else fifoStore f { data := w.data, poison := w.poison, endMark := w.endMark, count := w.count } h1
  setFifo h2 f { fifo h2 f with e := (i + 1) % 2 ^ 24, wIdx := (i + 1) % 2 ^ 24 }

/-- STREAM_DATA (R463). -/
def streamData (handle first : Nat) (words : List StreamWord) (h : Hub) : Hub :=
  let n := words.length
  if n = 0 ∨ 226 < n ∨ ¬ words.all streamWordOk then bump h 0x4700_09
  else match findFifo h 1 handle with
    | none => h
    | some f =>
      let x := fifo h f
      let behind := idxAhead x.e first
      if behind < n then
        let new := words.drop behind
        sendCredit f (forEach new.zipIdx (fun p g => storeStreamWord f ((x.e + p.2) % 2 ^ 24) p.1 g) h)
      else if behind ≤ 2 ^ 23 then bump h 0x4700_0B
      else sendCredit f (bump h 0x4700_0B)

/-- Payload words of a DATA frame with n data words: word 0, and a descriptor for each 8 (R459). -/
def streamFrameWords (n : Nat) : Nat := 1 + n + (n + 7) / 8

/-- A DATA frame from a hub at the FIFO that receives it; its words count as traffic of the STREAM (R296). -/
def streamFrom (src handle first : Nat) (words : List StreamWord) (h : Hub) : Hub :=
  let a := streamData handle first words h
  match findFifo h 1 handle with
  | none => a
  | some f => countTraffic handle src (clsNum (streamClass (fifo h f))) (streamFrameWords words.length) a

def execStreamData (src handle first : Nat) (words : List StreamWord) (s : State) : Host.Outcome State Fault Refusal :=
  onHub s (whenDo (src != 0) (streamFrom src handle first words))

/-- STREAM_CREDIT (R462): releases the sending FIFO up to E, words to be sent again after a REWIND among them, and raises the credit
limit; an older CREDIT takes nothing back. -/
def streamCredit (handle limit expected : Nat) (h : Hub) : Hub :=
  match findFifo h 2 handle with
  | none => h
  | some f =>
    let x := fifo h f
    let done := (x.words.takeWhile fun w => idxBefore w.2 expected).length
    let e := if idxBefore x.e expected then expected % 2 ^ 24 else x.e
    let h1 := fifoFree f done (setFifo h f { x with e, next := if idxBefore x.next e then e else x.next })
    setFifo h1 f { fifo h1 f with limit := if idxBefore (fifo h1 f).limit limit then limit % 2 ^ 24 else (fifo h1 f).limit }

def execStreamCredit (handle limit expected : Nat) (s : State) : Host.Outcome State Fault Refusal :=
  onHub s (streamCredit handle limit expected)

/-- CREDIT_PERIODIC (R461): a receiving FIFO of a STREAM from another hub sends a CREDIT every 1 ms. -/
def execCreditPeriodic (f : Fin 128) (s : State) : Host.Outcome State Fault Refusal :=
  onHub s fun h => if rd h (fifoKey f 1) = 1 ∧ streamPeer (fifo h f) ≠ 0 then sendCredit f h else h

/-- STREAM_RESEND_TIMEOUT (R462): E has not advanced while words are unacknowledged, so the egress rewinds and sends
again from E. -/
def execStreamResendTimeout (f : Fin 128) (s : State) : Host.Outcome State Fault Refusal :=
  onHub s fun h =>
    let x := fifo h f
    if rd h (fifoKey f 1) = 2 ∧ 0 < x.read then
      let y := fifo (fifoRewind f h) f
      let h1 := setFifo (fifoRewind f h) f { y with due := true, next := fifoC x }
      streamDataSend f (raiseEvent (bump h1 0x4700_0A) 0x46 f 0)
    else h

/-- A binding ends: pages return, held words are discarded and counted (R438); a sending FIFO also raises
EV_FIFO_STREAM_LOST for words still held (R463). -/
def fifoUnbind (f : Nat) (h : Hub) : Hub :=
  let x := fifo h f
  if rd h (fifoKey f 1) = 0 then h
  else
    let sending := rd h (fifoKey f 1) == 2
    let h1 := countDiscarded x.words.length { h with fifos := tabErase h.fifos f }
    let h2 := wrs h1 [(0x4700_01, rd h1 0x4700_01 + x.pages), (0x4700_02, rd h1 0x4700_02 - 1), (fifoKey f 1, 0), (fifoKey f 2, 0)]
    whenDo (sending && !x.words.isEmpty) (fun g => raiseEvent g 0x47 f 0) h2

/-- The lowest free FIFO number (R437, R458). -/
def freeFifo (h : Hub) : Option Nat := (List.range 128).find? fun f => rd h (fifoKey f 1) == 0

/-- Bind a STREAM to the lowest free FIFO with `pages` pages (R437, R458). `settings` carries the FIFO settings, the
ring class at bits [49:48] and the other hub at bits [57:50]. -/
def fifoBind (st handle pages settings producer consumer : Nat) (h : Hub) : Option (Nat × Hub) :=
  match freeFifo h with
  | none => none
  | some f =>
    if rd h 0x4700_01 < pages then none
    else
      let h1 := setFifo h f { fifoInit with pages, settings, producer, consumer }
      some (f, wrs h1 [(fifoKey f 1, st), (fifoKey f 2, handle), (fifoKey f 3, pages),
        (0x4700_01, rd h1 0x4700_01 - pages), (0x4700_02, rd h1 0x4700_02 + 1)])

/-- The device at an end of a STREAM sleeps in CLEARING: its CAN bus, T1S port or Grove (R51). -/
def endAsleep (h : Hub) (e : Nat) : Bool :=
  let sleeps := fun (j : Nat) => h.sleep.asleep.contains j
  match endKind e with
  | 1 => (List.range 64).any fun n => rd h (slotKey (0x3000 + n) 0x12) == bits e 22 0 && sleeps (32 + n / 8)
  | 2 => bits e 31 24 == hubNumber h && sleeps (8 + bits e 3 0)
  | 3 => bits e 31 24 == hubNumber h && sleeps (24 + bits e 1 0)
  | _ => false

/-- FC pin i is at its stop level (R453, Table 3 of Operating modes and start-up). -/
def fcStopped (h : Hub) (i : Nat) : Bool :=
  let m := rd h (0x2701_01 + i)
  !serving h || match findFifo h 1 (bits m 22 0) with
    | none => true
    | some f => fifoEvent (fifo h f) || (fifo h f).stop || endAsleep h (fifo h f).producer || endAsleep h (fifo h f).consumer

/-- The level of FC pin i: its stop level is bit [24] of its map entry, low before the configuration is loaded. -/
def fcPin (h : Hub) (i : Nat) : Bool :=
  if fcStopped h i then bit (rd h (0x2701_01 + i)) 24 else !bit (rd h (0x2701_01 + i)) 24

end Sys2Proof.Machine
end

