-- ==== Sys2Proof/Machine/Engines.lean ====
section
/-! DEFINITION. I/O engines and Groves (R398 to R435): the engine clock edge, the instruction set, the engine commands,
queues, pads, checks and self-test. -/

namespace Sys2Proof.Machine

/-! ### State access -/

/-- An engine after reset: L 48, everything else 0 (Table 12, 0x30ee:0B). -/
def engineInit : Engine :=
  { prog := [], pc := 0, sr := 0, x := 0, y := 0, cmp := 0, tk := 0, iir := 0, ior := 0, l := 48, cnt := 0, m := false,
    n := false, e := false, p := 0, en := 0, lvl := 0, txq := [], rxq := [], cpin := 0, caction := 0, split := 0, acc := 0,
    pins := [], safe := 0, spares := [], failed := [], iirNext := none, keepHalted := false, badWord := 0 }

def engine (h : Hub) (n : Nat) : Engine := tabGet engineInit h.engines n

def setEngine (h : Hub) (n : Nat) (g : Engine) : Hub := { h with engines := tabSet h.engines n g }

/-- Slot `sub` of engine n's instance entries 0x3000 + n. -/
def engKey (n sub : Nat) : Nat := slotKey (0x3000 + n) sub

/-- The state code at 0x30ee:01 as stored: 1 FREE, 2 HALTED, 3 RUNNING, 4 STALLED, 5 FAULTED, 6 UNUSABLE. -/
def engState (h : Hub) (n : Nat) : Nat := rd h (engKey n 1)

/-- The Grove of an engine (R398). -/
def grove (n : Nat) : Nat := n / 8

/-- Island code of an engine's Grove (Table 5 of Watchtower faults and events). -/
def groveIsland (n : Nat) : Nat := 0x08 + grove n

/-- The pin count: that of the bound PROGRAM, 8 for an engine bound to none (R414). -/
def pinCount (h : Hub) (n : Nat) : Nat := if rd h (engKey n 0x12) = 0 then 8 else (engine h n).pins.length

/-- Queue shares by the queue split (Table 4a). -/
def txCap (split : Nat) : Nat := if split = 0 then 4 else if split = 1 then 8 else 0
def rxCap (split : Nat) : Nat := if split = 0 then 4 else if split = 2 then 8 else 0

/-! ### Pads -/

/-- An engine's outputs are gated to their safe levels: Table 3 of Operating modes and start-up outside the serving
modes, a sleeping Grove, a Watchtower reaction or the backstop (R408, R665). -/
def pinsGated (h : Hub) (n : Nat) : Bool :=
  outputsSafe h || !serving h || domainState h (grove n) != 3

/-- A pad's driver: 0 low, 1 high, 2 high impedance. An undriven engine output leaves the pad at high impedance. -/
def padOf (en lvl : Byte) (k : Nat) : Nat := if en.getLsbD k then b2n (lvl.getLsbD k) else 2

/-- Safe level code of engine pin k: 0 low, 1 high, 2 high impedance, 3 hold (R50, Table 1 of Forester placement and
migration). -/
def safeCode (g : Engine) (k : Nat) : Nat := bits g.safe (2 * k + 1) (2 * k)

/-- The reset level of a pin with no binding (R50): STRAP[13] as latched. -/
def padReset (h : Hub) : Nat := if rdB h 0x2000_0E then 2 else 0

/-- The level of pin k of engine n at FIO number `fio`: what its outputs drive, or its safe level while gated; hold keeps the level the
pad had. -/
def pinLevel (h : Hub) (n k fio : Nat) : Nat :=
  let g := engine h n
  if pinsGated h n then (if safeCode g k = 3 then tabGet (padReset h) h.pads fio else safeCode g k) else padOf g.en g.lvl k

/-- The pads of one engine's pins take their levels. -/
def syncPins (n : Nat) (h : Hub) : Hub :=
  forEach (engine h n).pins.zipIdx (fun pk a => { a with pads := tabSet a.pads pk.1 (pinLevel h n pk.2 pk.1) }) h

/-- Every bound engine's pads. -/
def syncPads (h : Hub) : Hub := forEach h.engines (fun e a => syncPins e.1 a) h

/-- FIO numbers at high impedance: spares that are not in use (R293), pins out of use (R320). -/
def releasePads (fios : List Nat) (h : Hub) : Hub := forEach fios (fun p a => { a with pads := tabSet a.pads p 2 }) h

/-- The engine and pin number an FIO number is bound to. -/
def pinOwner (h : Hub) (fio : Nat) : Option (Nat × Nat) :=
  h.engines.findSome? fun e => (e.2.pins.findIdx? (· == fio)).map fun k => (e.1, k)

/-- The level a pad is driven to: while RESET_N is low or in BOOT and FACTORY, that of STRAP[13] (R54, Table 3); a bound pin, its own; any
other, what it was left at, or its reset level where nothing was bound to it (R50). -/
def padLevel (h : Hub) (fio : Nat) : Nat :=
  if h.env.resetLow then (if bit h.env.straps 13 then 2 else 0)
  else if mode h = 1 ∨ mode h = 8 then padReset h
  else match pinOwner h fio with
    | some nk => pinLevel h nk.1 nk.2 fio
    | none => tabGet (padReset h) h.pads fio

/-! ### One engine clock (R411) -/

/-- What an instruction does at an edge: stalls, faults with a cause, or takes effect on the engine with a jump target,
and perhaps halts the engine or signals a code. -/
inductive Effect where
  | stall
  | fault (cause : Nat)
  | go (g : Engine) (target : Option Nat)
  | halt (g : Engine)
  | signal (g : Engine) (code : Nat)
deriving DecidableEq, Repr

/-- Set an engine pin's output: enabled, with a level. -/
def driveOut (g : Engine) (k : Nat) (b : Bool) : Engine :=
  { g with en := g.en ||| BitVec.ofNat 8 (2 ^ k)
           lvl := if b then g.lvl ||| BitVec.ofNat 8 (2 ^ k) else g.lvl &&& ~~~ BitVec.ofNat 8 (2 ^ k) }

/-- The compare action on the compare pin (R422). -/
def compareAction (g : Engine) : Engine :=
  if g.caction = 1 then driveOut g g.cpin true
  else if g.caction = 2 then driveOut g g.cpin false
  else if g.caction = 3 then driveOut g g.cpin (!g.lvl.getLsbD g.cpin)
  else g

/-- Steps 3 and 4 of R411: TK counts, a match sets M and applies the compare action, P takes the pin levels. `cmp` is
CMP as it stood before step 2. -/
def tickEngine (cmp : Word) (pins : Byte) (g : Engine) : Engine :=
  let t := { g with tk := g.tk + 1, p := pins }
  if t.tk = cmp then compareAction { t with m := true } else t

/-- PC of the next instruction: the jump target or PC + 1 modulo 64. -/
def nextPc (g : Engine) (target : Option Nat) : Nat :=
  match target with
  | some t => t % 64
  | none => (g.pc + 1) % 64

/-- The producer FIFO of an engine's bound PROGRAM (R417). -/
def producerFifo (h : Hub) (n : Nat) : Option Nat :=
  let p := rd h (engKey n 0x12)
  if p = 0 then none
  else (h.fifos.find? fun e => endKind e.2.producer == 1 && bits e.2.producer 22 0 == p && rd h (fifoKey e.1 1) != 0
          && !(rd h (fifoKey e.1 1) == 1 && streamPeer e.2 != 0)).map (·.1)

/-- The consumer FIFO of an engine's bound PROGRAM (R417). -/
def consumerFifo (h : Hub) (n : Nat) : Option Nat :=
  let p := rd h (engKey n 0x12)
  if p = 0 then none
  else (h.fifos.find? fun e => endKind e.2.consumer == 1 && bits e.2.consumer 22 0 == p && rd h (fifoKey e.1 1) == 1).map (·.1)

/-- RXQ words of a PROGRAM with no producer STREAM are discarded as they are pushed (R419). -/
def dropUnboundRxq (n : Nat) (h : Hub) : Hub :=
  let g := engine h n
  if g.rxq.isEmpty ∨ rd h (engKey n 0x12) = 0 ∨ (producerFifo h n).isSome then h
  else raiseLimited (bumpBy (setEngine h n { g with rxq := [] }) 0x4600_06 g.rxq.length) 0x32 n 0 0 1000000000

/-- An engine becomes UNUSABLE with a cause (R430, R431). -/
def markUnusable (n cause : Nat) (h : Hub) : Hub :=
  if engState h n = 6 then h
  else wrs h [(engKey n 1, 6), (engKey n 0x10, cause), (0x4600_07, rd h 0x4600_07 + 1)]

/-- A failure of an engine (3) or of a pin of it (256 + FIO number) that Forester has yet to act on (R308; assumption log 74). -/
def dueLater (n code : Nat) (h : Hub) : Hub :=
  { h with forester := { h.forester with due := h.forester.due.filter (· != (n, code)) ++ [(n, code)] } }

/-- ENGINE_CHECK_FAILURE (R429, R430): the engine halts before the edge's effects, its pins at their levels, and Forester is told. Cause
0x02 is an uncorrectable program memory word, 0x01 any other check. -/
def engineCheckFailure (n cause : Nat) (h : Hub) : Hub :=
  if engState h n = 3 ∨ engState h n = 4 then
    let c := if cause = 2 then 2 else 1
    raiseFault 0x10 (groveIsland n) n c (bump (markUnusable n c (dueLater n 3 h)) 0x4600_02)
  else h

/-- An injection for the engine's next edge: a decode difference (Table 6 of Watchtower faults and events, R429). -/
def decodeArmed (h : Hub) (n : Nat) : Bool := h.watch.armed.contains (7, n)

/-- The engine's checks at an edge find an injected error (R429, R430, R710); a corrected word is counted. The second component
says whether the edge's effects take hold. -/
def edgeChecks (n : Nat) (h : Hub) : Hub × Bool :=
  let g := engine h n
  let was := h.watch.injecting
  let marked := { h with watch := { h.watch with injecting := true } }
  let unmark : Hub → Hub := fun x => { x with watch := { x.watch with injecting := was } }
  if decodeArmed h n then
    let x := engineCheckFailure n 1 marked
    (unmark { x with watch := { x.watch with armed := x.watch.armed.erase (7, n) } }, false)
  else if g.pc = 0 ∧ g.badWord = 2 then (unmark (engineCheckFailure n 2 marked), false)
  else if g.pc = 0 ∧ g.badWord = 1 then (bump (setEngine h n { g with badWord := 0 }) 0x4600_01, true)
  else (h, true)

/-- The rate accumulator of divider `d` (256 × D) after the Grove clock edges from one engine clock edge to the next (R402). -/
def rateNext (d a : Nat) : Nat := a + (d - a + 255) / 256 * 256 - d

/-- The engine at its next clock edge. -/
def clocked (h : Hub) (n : Nat) : Engine := { engine h n with acc := rateNext (rd h (engKey n 3)) (engine h n).acc }

/-- The program word at PC. -/
def wordAtPc (h : Hub) (n : Nat) : Nat := (engine h n).prog.getD (engine h n).pc 0

/-- An engine runs: RUNNING or STALLED in a Grove that is ON. -/
def engineRuns (h : Hub) (n : Nat) : Bool := (engState h n == 3 || engState h n == 4) && domainState h (grove n) == 3

/-- One engine clock edge with the instruction's effect `eff`, the pin levels `pins` read at the edge (R411, R415,
R427). An engine that does not run does nothing. -/
def engineEdge (n : Nat) (pins : Byte) (eff : Engine → Effect) (h0 : Hub) : Hub :=
  if engineRuns h0 n then
    let (h, sound) := edgeChecks n (setEngine h0 n (clocked h0 n))
    let g := engine h n
    if ¬ sound then h
    else match eff g with
    | .fault c =>
      raiseFault 0x0F (groveIsland n) n c (bump (wrs h [(engKey n 1, 5), (engKey n 0x10, c)]) 0x4600_03)
    | .stall => syncPins n (bump (wr (setEngine h n (tickEngine g.cmp pins g)) (engKey n 1) 4) (engKey n 0x11))
    | .go g' t =>
      let g2 := tickEngine g.cmp pins { g' with pc := nextPc g t }
      syncPins n (dropUnboundRxq n (wr (setEngine h n g2) (engKey n 1) 3))
    | .halt g' =>
      let g2 := tickEngine g.cmp pins { g' with pc := nextPc g none }
      raiseEvent (syncPins n (wr (setEngine h n g2) (engKey n 1) 2)) 0x30 n 0
    | .signal g' code =>
      let g2 := tickEngine g.cmp pins { g' with pc := nextPc g none }
      raiseEvent (syncPins n (wr (setEngine h n g2) (engKey n 1) 3)) (0x38 + grove n) n code
  else h0

/-- A command that names the instruction an engine evaluates at its edge: the one at PC, whose encoding is `word` (R411). While another
word stands there the engine has no such edge. -/
def engineInstr (n : Nat) (pins : Byte) (word : Nat) (eff : Engine → Effect) (h : Hub) : Hub :=
  if wordAtPc h n = word then engineEdge n pins eff h else h

/-- An encoding with its fields in range; no program memory holds 0x10000. -/
def fieldsOk (ok : Bool) (w : Nat) : Nat := if ok then w else 0x10000

/-! ### The instruction set (Table 2 of I/O engines and Groves) -/

/-- Register by its 2-bit code: 0 SR, 1 X, 2 Y, 3 CMP (R413). -/
def regGet (g : Engine) (c : Nat) : Word :=
  if c = 0 then g.sr else if c = 1 then g.x else if c = 2 then g.y else g.cmp

def regSet (g : Engine) (c : Nat) (v : Word) : Engine :=
  if c = 0 then { g with sr := v } else if c = 1 then { g with x := v }
  else if c = 2 then { g with y := v } else { g with cmp := v }

/-- An operand: an immediate, or the register with the code. -/
def operandOf (g : Engine) (imm : Bool) (v : Nat) : Word := if imm then BitVec.ofNat 48 v else regGet g (v % 4)

/-- Whether RXQ is full, and TXQ empty, as they stood before the edge. -/
def rxFull (g : Engine) : Bool := decide (rxCap g.split ≤ g.rxq.length)
def txEmpty (g : Engine) : Bool := g.txq.isEmpty

/-- Branch conditions (Table 3). Code 0xF is reserved: no loaded program holds it (R414). -/
def condHolds (g : Engine) (c : Nat) : Bool :=
  match c with
  | 0x0 => true
  | 0x1 => g.x == 0
  | 0x2 => g.x != 0
  | 0x3 => g.x == g.y
  | 0x4 => g.x != g.y
  | 0x5 => decide (g.x.toNat < g.y.toNat)
  | 0x6 => decide (g.y.toNat ≤ g.x.toNat)
  | 0x7 => g.cnt == 0
  | 0x8 => g.cnt != 0
  | 0x9 => g.m
  | 0xA => !g.m
  | 0xB => g.e
  | 0xC => g.n
  | 0xD => !txEmpty g
  | 0xE => !rxFull g
  | _ => false

/-- BR: PC := target if the condition holds; finding M = 1 true under condition 0x9 clears M. -/
def effBr (cond target : Nat) (g : Engine) : Effect :=
  if condHolds g cond then .go (if cond = 9 then { g with m := false } else g) (some target) else .go g none

/-- BRP: PC := target if the pin reads the level. -/
def effBrp (level : Bool) (pin target : Nat) (pins : Byte) (g : Engine) : Effect :=
  .go g (if pins.getLsbD pin = level then some target else none)

/-- DBNZ: CNT := CNT - 1 modulo 2^16; PC := target if the new CNT is not 0. -/
def effDbnz (target : Nat) (g : Engine) : Effect :=
  let c := (g.cnt + 65535) % 65536
  .go { g with cnt := c } (if c = 0 then none else some target)

/-- Whether an AWAIT's event or flag holds. Reserved flag codes hold never. -/
def awaitHolds (flagForm : Bool) (event pin : Nat) (pins : Byte) (g : Engine) : Bool :=
  if flagForm then
    match event with
    | 0 => g.m
    | 1 => g.n
    | 2 => !txEmpty g
    | 3 => !rxFull g
    | _ => false
  else
    match event with
    | 0 => !pins.getLsbD pin
    | 1 => pins.getLsbD pin
    | 2 => pins.getLsbD pin && !g.p.getLsbD pin
    | 3 => !pins.getLsbD pin && g.p.getLsbD pin
    | _ => false

/-- AWAIT: stalls until the event or flag holds; a wait on M clears M when it ends. -/
def effAwait (flagForm : Bool) (event pin : Nat) (pins : Byte) (g : Engine) : Effect :=
  if awaitHolds flagForm event pin pins g then .go (if flagForm && event == 0 then { g with m := false } else g) none
  else .stall

/-- DRIVE: 0 low, 1 high, 2 release, 3 toggle; low, high and toggle enable the output. -/
def effDrive (action : Nat) (mask : Byte) (g : Engine) : Effect :=
  if action = 0 then .go { g with en := g.en ||| mask, lvl := g.lvl &&& ~~~ mask } none
  else if action = 1 then .go { g with en := g.en ||| mask, lvl := g.lvl ||| mask } none
  else if action = 2 then .go { g with en := g.en &&& ~~~ mask } none
  else .go { g with en := g.en ||| mask, lvl := g.lvl ^^^ mask } none

/-- 2^L - 1 as a word. -/
def lMask (l : Nat) : Word := BitVec.ofNat 48 (2 ^ l - 1)

/-- A pin level as a word. -/
def bWord (b : Bool) : Word := if b then 1 else 0

/-- SHIFT in. -/
def effShiftIn (msbFirst : Bool) (pin : Nat) (pins : Byte) (g : Engine) : Effect :=
  let b := bWord (pins.getLsbD pin)
  if msbFirst then .go { g with sr := ((g.sr <<< 1) ||| b) &&& lMask g.l } none
  else .go { g with sr := ((g.sr &&& lMask g.l) >>> 1) ||| (b <<< (g.l - 1)) } none

/-- SHIFT out: the bit goes to the pin, whose output is enabled. -/
def effShiftOut (msbFirst : Bool) (pin : Nat) (g : Engine) : Effect :=
  if msbFirst then
    .go { driveOut g pin (g.sr.getLsbD (g.l - 1)) with sr := (g.sr <<< 1) &&& lMask g.l } none
  else .go { driveOut g pin (g.sr.getLsbD 0) with sr := (g.sr &&& lMask g.l) >>> 1 } none

/-- TAKE: the head of TXQ into the register, its end mark into E; stalls while TXQ is empty; a poisoned word faults with
cause 0x04 and stays (R427). -/
def effTake (dst : Nat) (g : Engine) : Effect :=
  match g.txq with
  | [] => .stall
  | w :: t => if w.poison then .fault 4 else .go { regSet g dst w.data with txq := t, e := w.endMark } none

/-- PUT: append SR, X, Y or TK to RXQ; stalls while RXQ is full. -/
def effPut (src : Nat) (endMark : Bool) (count : Nat) (g : Engine) : Effect :=
  if rxFull g then .stall
  else .go { g with rxq := g.rxq ++ [{ data := if src = 3 then g.tk else regGet g src, poison := false, endMark, count }] } none

/-- PINS as a word: bits for pins beyond the pin count and bits [47:8] read 0. -/
def pinsWord (count : Nat) (pins : Byte) : Word := BitVec.ofNat 48 (pins.toNat % 2 ^ count)

/-- COPY source (Table 4). -/
def copySrc (count : Nat) (pins : Byte) (g : Engine) (c : Nat) : Word :=
  if c < 4 then regGet g c
  else match c with
    | 4 => BitVec.ofNat 48 g.cnt
    | 5 => BitVec.ofNat 48 g.l
    | 6 => g.tk
    | 7 => g.iir
    | 8 => g.ior
    | 9 => pinsWord count pins
    | _ => 0

/-- Write L: outside 1 to 48 faults with cause 0x03 (R427). -/
def setL (g : Engine) (v : Nat) : Effect := if 1 ≤ v ∧ v ≤ 48 then .go { g with l := v } none else .fault 3

/-- COPY (Table 4): IIR as source clears N. Reserved destinations change nothing: no loaded program holds them. -/
def effCopy (dst src count : Nat) (pins : Byte) (g : Engine) : Effect :=
  let v := copySrc count pins g src
  let g1 := if src = 7 then { g with n := false } else g
  if dst < 4 then .go (regSet g1 dst v) none
  else if dst = 4 then .go { g1 with cnt := v.toNat % 65536 } none
  else if dst = 5 then setL g1 v.toNat
  else if dst = 8 then .go { g1 with ior := v } none
  else .go g1 none

/-- Bits [n-1:0] of a word in reverse order, with the bits above cleared. -/
def reverseBits : Nat → Word → Word
  | 0, _ => 0
  | n + 1, w => (bWord (w.getLsbD 0) <<< n) ||| reverseBits n (w >>> 1)

/-- ALU with the operation as a function of the destination's and the operand's value. -/
def effAlu (op : Word → Word → Word) (dst : Nat) (imm : Bool) (v : Nat) (g : Engine) : Effect :=
  .go (regSet g dst (op (regGet g dst) (operandOf g imm v))) none

/-- A shift by 48 or more gives 0 (Table 2). -/
def shlWord (a b : Word) : Word := if 48 ≤ b.toNat then 0 else a <<< b.toNat
def shrWord (a b : Word) : Word := if 48 ≤ b.toNat then 0 else a >>> b.toNat

/-- LDI: 0 X, 1 Y, 2 CNT, 3 L. -/
def effLdi (dst imm : Nat) (g : Engine) : Effect :=
  if dst = 0 then .go { g with x := BitVec.ofNat 48 imm } none
  else if dst = 1 then .go { g with y := BitVec.ofNat 48 imm } none
  else if dst = 2 then .go { g with cnt := imm % 65536 } none
  else setL g imm

/-- ARM: CMP := base + operand, TK as it stood before this edge's increment. -/
def effArm (fromCmp imm : Bool) (v : Nat) (g : Engine) : Effect :=
  .go { g with cmp := (if fromCmp then g.cmp else g.tk) + operandOf g imm v } none

/-- STAMP: X := (s × 10^9 + n) mod 2^48 of the Grove replica at this edge. -/
def effStamp (ns : Nat) (g : Engine) : Effect := .go { g with x := BitVec.ofNat 48 ns } none

/-- Encodings of Table 2 by their fields. -/
def brWord (cond target : Nat) : Nat := fieldsOk (cond < 16 && target < 64) (0x1000 + cond * 256 + target)
def brpWord (level : Bool) (pin target : Nat) : Nat := fieldsOk (target < 64) (0x2000 + b2n level * 2048 + pin * 256 + target)
def awaitWord (flagForm : Bool) (event pin : Nat) : Nat :=
  fieldsOk (event < 4) (if flagForm then 0x4800 + event * 256 else 0x4000 + event * 512 + pin * 64)
def putWord (src : Nat) (endMark : Bool) (count : Nat) : Nat :=
  fieldsOk (count < 8) (0x8000 + src * 1024 + b2n endMark * 512 + count * 64)
def copyWord (dst src : Nat) : Nat := fieldsOk (dst < 16 && src < 16) (0x9000 + dst * 256 + src * 16)
def aluWord (op dst : Nat) (imm : Bool) (v : Nat) : Nat :=
  fieldsOk (v < if imm then 32 else 4) (0xA000 + op * 256 + dst * 64 + b2n imm * 32 + v)
def armWord (fromCmp imm : Bool) (v : Nat) : Nat :=
  fieldsOk (v < if imm then 1024 else 4) (0xC000 + b2n fromCmp * 2048 + b2n imm * 1024 + v)

def execSysNop (n : Fin 64) (pins : Byte) (s : State) : Host.Outcome State Fault Refusal :=
  onHub s (engineInstr n pins 0 fun g => .go g none)

def execSysHalt (n : Fin 64) (pins : Byte) (s : State) : Host.Outcome State Fault Refusal :=
  onHub s (engineInstr n pins 0x0100 .halt)

def execSysSig (n : Fin 64) (pins : Byte) (code : Nat) (s : State) : Host.Outcome State Fault Refusal :=
  onHub s (engineInstr n pins (fieldsOk (code < 256) (0x0200 + code)) fun g => .signal g (code % 256))

def execSysStamp (n : Fin 64) (pins : Byte) (s : State) : Host.Outcome State Fault Refusal :=
  onHub s fun h => engineInstr n pins 0x0300 (effStamp (stampNs h (groveIsland n))) h

def execSysClrm (n : Fin 64) (pins : Byte) (s : State) : Host.Outcome State Fault Refusal :=
  onHub s (engineInstr n pins 0x0400 fun g => .go { g with m := false } none)

def execBr (n : Fin 64) (pins : Byte) (cond target : Nat) (s : State) : Host.Outcome State Fault Refusal :=
  onHub s (engineInstr n pins (brWord cond target) (effBr cond target))

def execBrp (n : Fin 64) (pins : Byte) (level : Bool) (pin : Fin 8) (target : Nat) (s : State) :
    Host.Outcome State Fault Refusal :=
  onHub s (engineInstr n pins (brpWord level pin target) (effBrp level pin target pins))

def execDbnz (n : Fin 64) (pins : Byte) (target : Nat) (s : State) : Host.Outcome State Fault Refusal :=
  onHub s (engineInstr n pins (fieldsOk (target < 64) (0x3000 + target)) (effDbnz target))

def execAwait (n : Fin 64) (pins : Byte) (flagForm : Bool) (event : Nat) (pin : Fin 8) (s : State) :
    Host.Outcome State Fault Refusal :=
  onHub s (engineInstr n pins (awaitWord flagForm event pin) (effAwait flagForm event pin pins))

def execDriveLow (n : Fin 64) (pins mask : Byte) (s : State) : Host.Outcome State Fault Refusal :=
  onHub s (engineInstr n pins (0x5000 + 0 + mask.toNat) (effDrive 0 mask))

def execDriveHigh (n : Fin 64) (pins mask : Byte) (s : State) : Host.Outcome State Fault Refusal :=
  onHub s (engineInstr n pins (0x5000 + 1024 + mask.toNat) (effDrive 1 mask))

def execDriveRelease (n : Fin 64) (pins mask : Byte) (s : State) : Host.Outcome State Fault Refusal :=
  onHub s (engineInstr n pins (0x5000 + 2048 + mask.toNat) (effDrive 2 mask))

def execDriveToggle (n : Fin 64) (pins mask : Byte) (s : State) : Host.Outcome State Fault Refusal :=
  onHub s (engineInstr n pins (0x5000 + 3072 + mask.toNat) (effDrive 3 mask))

def execShiftIn (n : Fin 64) (pins : Byte) (msbFirst : Bool) (pin : Fin 8) (s : State) :
    Host.Outcome State Fault Refusal :=
  onHub s (engineInstr n pins (0x6000 + b2n msbFirst * 1024 + pin * 128) (effShiftIn msbFirst pin pins))

def execShiftOut (n : Fin 64) (pins : Byte) (msbFirst : Bool) (pin : Fin 8) (s : State) :
    Host.Outcome State Fault Refusal :=
  onHub s (engineInstr n pins (0x6800 + b2n msbFirst * 1024 + pin * 128) (effShiftOut msbFirst pin))

def execTake (n : Fin 64) (pins : Byte) (dst : Fin 4) (s : State) : Host.Outcome State Fault Refusal :=
  onHub s (engineInstr n pins (0x7000 + dst * 1024) (effTake dst))

def execPut (n : Fin 64) (pins : Byte) (src : Fin 4) (endMark : Bool) (count : Nat) (s : State) :
    Host.Outcome State Fault Refusal :=
  onHub s (engineInstr n pins (putWord src endMark count) (effPut src endMark count))

def execCopy (n : Fin 64) (pins : Byte) (dst src : Nat) (s : State) : Host.Outcome State Fault Refusal :=
  onHub s fun h => engineInstr n pins (copyWord dst src) (effCopy dst src (pinCount h n) pins) h

def execAluAdd (n : Fin 64) (pins : Byte) (dst : Fin 4) (imm : Bool) (v : Nat) (s : State) :
    Host.Outcome State Fault Refusal :=
  onHub s (engineInstr n pins (aluWord 0 dst imm v) (effAlu (fun a b => a + b) dst imm v))

def execAluSub (n : Fin 64) (pins : Byte) (dst : Fin 4) (imm : Bool) (v : Nat) (s : State) :
    Host.Outcome State Fault Refusal :=
  onHub s (engineInstr n pins (aluWord 1 dst imm v) (effAlu (fun a b => a - b) dst imm v))

def execAluAnd (n : Fin 64) (pins : Byte) (dst : Fin 4) (imm : Bool) (v : Nat) (s : State) :
    Host.Outcome State Fault Refusal :=
  onHub s (engineInstr n pins (aluWord 2 dst imm v) (effAlu (fun a b => a &&& b) dst imm v))

def execAluOr (n : Fin 64) (pins : Byte) (dst : Fin 4) (imm : Bool) (v : Nat) (s : State) :
    Host.Outcome State Fault Refusal :=
  onHub s (engineInstr n pins (aluWord 3 dst imm v) (effAlu (fun a b => a ||| b) dst imm v))

def execAluXor (n : Fin 64) (pins : Byte) (dst : Fin 4) (imm : Bool) (v : Nat) (s : State) :
    Host.Outcome State Fault Refusal :=
  onHub s (engineInstr n pins (aluWord 4 dst imm v) (effAlu (fun a b => a ^^^ b) dst imm v))

def execAluShl (n : Fin 64) (pins : Byte) (dst : Fin 4) (imm : Bool) (v : Nat) (s : State) :
    Host.Outcome State Fault Refusal :=
  onHub s (engineInstr n pins (aluWord 5 dst imm v) (effAlu shlWord dst imm v))

def execAluShr (n : Fin 64) (pins : Byte) (dst : Fin 4) (imm : Bool) (v : Nat) (s : State) :
    Host.Outcome State Fault Refusal :=
  onHub s (engineInstr n pins (aluWord 6 dst imm v) (effAlu shrWord dst imm v))

def execAluNot (n : Fin 64) (pins : Byte) (dst : Fin 4) (imm : Bool) (v : Nat) (s : State) :
    Host.Outcome State Fault Refusal :=
  onHub s (engineInstr n pins (aluWord 7 dst imm v) (effAlu (fun _ b => ~~~ b) dst imm v))

def execAluRev (n : Fin 64) (pins : Byte) (dst : Fin 4) (imm : Bool) (v : Nat) (s : State) :
    Host.Outcome State Fault Refusal :=
  onHub s (engineInstr n pins (aluWord 8 dst imm v) fun g => effAlu (fun _ b => reverseBits g.l b) dst imm v g)

def execLdi (n : Fin 64) (pins : Byte) (dst : Fin 4) (imm : Nat) (s : State) : Host.Outcome State Fault Refusal :=
  onHub s (engineInstr n pins (fieldsOk (imm < 1024) (0xB000 + dst * 1024 + imm)) (effLdi dst imm))

def execArm (n : Fin 64) (pins : Byte) (fromCmp imm : Bool) (v : Nat) (s : State) : Host.Outcome State Fault Refusal :=
  onHub s (engineInstr n pins (armWord fromCmp imm v) (effArm fromCmp imm v))

/-! ### Program memory (R413, R414): an instruction word's effect and its load check -/

/-- The ALU operation with a code; 0x7 NOT and 0x8 REV take only the operand. -/
def aluOp (op l : Nat) (a b : Word) : Word :=
  match op with
  | 0 => a + b
  | 1 => a - b
  | 2 => a &&& b
  | 3 => a ||| b
  | 4 => a ^^^ b
  | 5 => shlWord a b
  | 6 => shrWord a b
  | 7 => ~~~ b
  | _ => reverseBits l b

/-- The effect of the instruction word `w` (Table 2). `ns` is the Grove replica's time, `count` the pin count. -/
def wordEffect (w count ns : Nat) (pins : Byte) (g : Engine) : Effect :=
  match bits w 15 12 with
  | 0x0 =>
    match bits w 11 8 with
    | 1 => .halt g
    | 2 => .signal g (bits w 7 0)
    | 3 => effStamp ns g
    | 4 => .go { g with m := false } none
    | _ => .go g none
  | 0x1 => effBr (bits w 11 8) (bits w 5 0) g
  | 0x2 => effBrp (bit w 11) (bits w 10 8) (bits w 5 0) pins g
  | 0x3 => effDbnz (bits w 5 0) g
  | 0x4 => if bit w 11 then effAwait true (bits w 10 8) 0 pins g else effAwait false (bits w 10 9) (bits w 8 6) pins g
  | 0x5 => effDrive (bits w 11 10) (BitVec.ofNat 8 (bits w 7 0)) g
  | 0x6 => if bit w 11 then effShiftOut (bit w 10) (bits w 9 7) g else effShiftIn (bit w 10) (bits w 9 7) pins g
  | 0x7 => effTake (bits w 11 10) g
  | 0x8 => effPut (bits w 11 10) (bit w 9) (bits w 8 6) g
  | 0x9 => effCopy (bits w 11 8) (bits w 7 4) count pins g
  | 0xA => effAlu (aluOp (bits w 11 8) g.l) (bits w 7 6) (bit w 5) (bits w 4 0) g
  | 0xB => effLdi (bits w 11 10) (bits w 9 0) g
  | 0xC => effArm (bit w 11) (bit w 10) (bits w 9 0) g
  | _ => .go g none

/-- R414, code 0x01: a reserved opcode, sub-operation, condition, event, flag, location or operation, a reserved bit, or
a PUT with a count of 0 or 7. -/
def encodingBad (w : Nat) : Bool :=
  match bits w 15 12 with
  | 0x0 => decide (4 < bits w 11 8) || (bits w 11 8 != 2 && bits w 7 0 != 0)
  | 0x1 => bits w 11 8 == 15 || bits w 7 6 != 0
  | 0x2 => bits w 7 6 != 0
  | 0x3 => bits w 11 6 != 0
  | 0x4 => if bit w 11 then decide (3 < bits w 10 8) || bits w 7 0 != 0 else bits w 5 0 != 0
  | 0x5 => bits w 9 8 != 0
  | 0x6 => bits w 6 0 != 0
  | 0x7 => bits w 9 0 != 0
  | 0x8 => bits w 8 6 == 0 || bits w 8 6 == 7 || bits w 5 0 != 0
  | 0x9 => !(decide (bits w 11 8 ≤ 5) || bits w 11 8 == 8) || decide (10 < bits w 7 4) || bits w 3 0 != 0
  | 0xA => decide (8 < bits w 11 8) || (!bit w 5 && bits w 4 2 != 0)
  | 0xB => false
  | 0xC => !bit w 10 && bits w 9 2 != 0
  | _ => true

/-- R414, code 0x02: a pin index at or beyond the pin count in a BRP, AWAIT, SHIFT or DRIVE. -/
def pinBad (w count : Nat) : Bool :=
  match bits w 15 12 with
  | 0x2 => decide (count ≤ bits w 10 8)
  | 0x4 => !bit w 11 && decide (count ≤ bits w 8 6)
  | 0x5 => decide (2 ^ count ≤ bits w 7 0)
  | 0x6 => decide (count ≤ bits w 9 7)
  | _ => false

/-- R414, code 0x03: PUT or a test of RXQ under split 0b01, TAKE or a test of TXQ under split 0b10. -/
def splitBad (w split : Nat) : Bool :=
  let op := bits w 15 12
  let rx := op == 8 || (op == 1 && bits w 11 8 == 14) || (op == 4 && bit w 11 && bits w 10 8 == 3)
  let tx := op == 7 || (op == 1 && bits w 11 8 == 13) || (op == 4 && bit w 11 && bits w 10 8 == 2)
  (split == 1 && rx) || (split == 2 && tx)

/-- Code of the first rule an instruction breaks, in the order 0x01, 0x02, 0x03; 0 if none. -/
def instrCheck (w count split : Nat) : Nat :=
  if encodingBad w then 1 else if pinBad w count then 2 else if splitBad w split then 3 else 0

/-- The first faulty instruction in ascending address order: code at [15:8], address at [5:0]. -/
def progCheck (count split : Nat) : Nat → List Nat → Nat
  | _, [] => 0
  | a, w :: ws => if instrCheck w count split ≠ 0 then instrCheck w count split * 256 + a else progCheck count split (a + 1) ws

/-- Slot `sub` of image i at 0x3100 + i. -/
def imageKey (i sub : Nat) : Nat := slotKey (0x3100 + i) sub

/-- The 64 instruction words of an image. -/
def imageProg (h : Hub) (i : Nat) : List Nat := (List.range 64).map fun a => rd h (imageKey i (0x10 + a))

/-- The load check of image settings and instructions for an engine, as recorded at 0x30ee:15: 0 if it passes (R414,
R416). -/
def loadCheck (h : Hub) (n i : Nat) : Nat :=
  let st := rd h (imageKey i 1)
  let g := engine h n
  let split := bits st 38 37
  if st / 2 ^ 39 ≠ 0 ∨ bits st 31 28 ≠ 0 then 0x0180
  else if bits st 36 35 ≠ 0 ∧ pinCount h n ≤ bits st 34 32 then 0x0280
  else if split = 3 then 0x0380
  else if bits st 11 6 = 0 ∨ 48 < bits st 11 6 then 0x0480
  else if split ≠ g.split ∧ (txCap split < g.txq.length ∨ rxCap split < g.rxq.length) then 0x0380
  else progCheck (pinCount h n) split 0 (imageProg h i)

/-! ### Engine commands (Tables 5 and 6) -/

/-- A write of the engine control entry 0x30ee:02: refused with 0x04 in a state Table 5 does not allow, with 0x08 while
the Grove's domain is not ON (R425, R665). -/
def engineCommand (p : Path) (n code : Nat) (allowed : Nat → Bool) (f : Hub → Hub) (h : Hub) : Hub :=
  pathWrite p (0x3000 + n) 2 code (fun h c => { c with
    value := c.value || (domainState h (grove n) == 3 && !allowed (engState h n))
    busy := c.busy || domainState h (grove n) != 3 }) f h

/-- HALT: RUNNING or STALLED to HALTED at the next edge; otherwise no effect. A HALT that reaches an engine of a handover in
progress is kept, at the source engine (R428). -/
def engineHalt (n : Nat) (h : Hub) : Hub :=
  if engState h n = 3 ∨ engState h n = 4 then wr h (engKey n 1) 2
  else match h.forester.moves.find? fun m => m.phase == 7 && (m.sourceE == n || m.engine == n) with
  | none => h
  | some m => setEngine h m.sourceE { engine h m.sourceE with keepHalted := true }

/-- RESUME: RUNNING at PC; the rate accumulator starts from 0 (R402). -/
def engineResume (n : Nat) (h : Hub) : Hub :=
  wr (setEngine h n { engine h n with acc := 0, keepHalted := false }) (engKey n 1) 3

/-- The clean effects of LOAD_CLEAN (Table 6): presets, TK, M, E and IOR 0, P the pin levels, each pin at its safe
level. -/
def cleanState (h : Hub) (i : Nat) (pins : Byte) (g : Engine) : Engine :=
  let st := rd h (imageKey i 1)
  let out := fun (g : Engine) (k : Nat) =>
    if safeCode g k = 0 then driveOut g k false else if safeCode g k = 1 then driveOut g k true
    else if safeCode g k = 2 then { g with en := g.en &&& ~~~ BitVec.ofNat 8 (2 ^ k) } else g
  let g1 := { g with
    sr := rdW h (imageKey i 2), x := rdW h (imageKey i 3), y := rdW h (imageKey i 4), cmp := rdW h (imageKey i 5),
    l := bits st 11 6, cnt := bits st 27 12, tk := 0, m := false, e := false, p := pins, ior := 0 }
  (List.range g.pins.length).foldl out g1

/-- A load that passes its checks: program memory and settings from the image, PC at the entry point (R426). -/
def loadState (h : Hub) (i : Nat) (g : Engine) : Engine :=
  let st := rd h (imageKey i 1)
  { g with prog := imageProg h i, pc := bits st 5 0, cpin := bits st 34 32, caction := bits st 36 35,
           split := bits st 38 37, acc := 0 }

/-- LOAD or LOAD_CLEAN of image i into engine n, ending in state `st` (3 RUNNING, 2 HALTED); a refused load leaves the
engine as it was, with fault cause 0x05 (R414, R416, R426). -/
def engineLoad (n i st : Nat) (clean : Option Byte) (h : Hub) : Hub :=
  let chk := loadCheck h n i
  if chk ≠ 0 then wrs h [(engKey n 0x10, 5), (engKey n 0x15, chk)]
  else
    let g := loadState h i (engine h n)
    let g2 := match clean with
      | some pins => cleanState h i pins g
      | none => g
    let i2 := takeProgramInjection n h
    syncPins n (wrs (setEngine i2.2 n { g2 with badWord := i2.1 }) [(engKey n 1, st), (engKey n 0x10, 0), (engKey n 0x13, i), (engKey n 0x15, 0)])

/-- FREE, HALTED or FAULTED: the states that accept a load (Table 5). -/
def loadable (st : Nat) : Bool := st == 1 || st == 2 || st == 5

def execHalt (p : Path) (n : Fin 64) (s : State) : Host.Outcome State Fault Refusal :=
  onHub s (engineCommand p n 1 (fun _ => true) (engineHalt n))

def execResume (p : Path) (n : Fin 64) (s : State) : Host.Outcome State Fault Refusal :=
  onHub s (engineCommand p n 2 (· == 2) (engineResume n))

def execLoad (p : Path) (n : Fin 64) (image : Nat) (s : State) : Host.Outcome State Fault Refusal :=
  onHub s (engineCommand p n (3 + 256 * (image % 256)) loadable (engineLoad n (image % 256) 3 none))

def execLoadClean (p : Path) (n : Fin 64) (image : Nat) (pins : Byte) (s : State) : Host.Outcome State Fault Refusal :=
  onHub s (engineCommand p n (4 + 256 * (image % 256)) loadable (engineLoad n (image % 256) 3 (some pins)))

/-- STEP: one edge under R411 of the instruction at PC in program memory, then HALTED, unless the edge faults. -/
def engineStepOnce (n : Nat) (pins : Byte) (h : Hub) : Hub :=
  let g := engine h n
  let w := wordAtPc h n
  let h1 := engineEdge n pins (wordEffect w (pinCount h n) (stampNs h (groveIsland n)) pins) (wr h (engKey n 1) 3)
  if engState h1 n = 3 ∨ engState h1 n = 4 then wr h1 (engKey n 1) 2 else h1

def execEngineStep (p : Path) (n : Fin 64) (pins : Byte) (s : State) : Host.Outcome State Fault Refusal :=
  onHub s (engineCommand p n 5 (· == 2) (engineStepOnce n pins))

/-- FLUSH: empties TXQ and RXQ; words counted at 0x4600:06. -/
def engineFlush (n : Nat) (h : Hub) : Hub :=
  let g := engine h n
  bumpBy (setEngine h n { g with txq := [], rxq := [] }) 0x4600_06 (g.txq.length + g.rxq.length)

def execFlush (p : Path) (n : Fin 64) (s : State) : Host.Outcome State Fault Refusal :=
  onHub s (engineCommand p n 6 (fun st => st == 2 || st == 5) (engineFlush n))

/-! ### Queues (R417, R418) -/

/-- TXQ_REFILL: a free TXQ entry takes the next word of the consumer FIFO over the crossing to the Grove; a poisoned word is delivered
poisoned (R417, R418, R23, R24). A closed crossing refuses the word, which stays in the FIFO; a broken one loses it; both are counted
(R26, R27). -/
def txqRefill (n : Nat) (h0 : Hub) : Hub :=
  let g := engine h0 n
  match consumerFifo h0 n with
  | none => h0
  | some f =>
    let h := if txCap g.split ≤ g.txq.length then h0 else readHead f h0
    if txCap g.split ≤ g.txq.length then h0
    else match fifoHead h f with
      | none => h
      | some w =>
        let c := crossWord 0 (groveIsland n) w h
        if crossingClosed h 0 (groveIsland n) then c.2
        else
          let a := fifoAdvance f (whenDo (c.1.any fun x => x.poison) (fifoPoisoned f) c.2)
          setEngine a n { engine a n with txq := (engine a n).txq ++ c.1.toList }

def execTxqRefill (n : Fin 64) (s : State) : Host.Outcome State Fault Refusal := onHub s (txqRefill n)

/-- RXQ_DRAIN: the head of RXQ crosses to its producer FIFO if the FIFO accepts it; otherwise it stays (R418). A closed crossing refuses
it, and it stays; a broken one loses it; both are counted (R26, R27). -/
def rxqDrain (n : Nat) (h : Hub) : Hub :=
  let g := engine h n
  match producerFifo h n, g.rxq with
  | some f, w :: t =>
    if heldBack h f then h
    else if crossingClosed h (groveIsland n) 0 then (crossWord (groveIsland n) 0 w h).2
    else
      let c := crossWord (groveIsland n) 0 w (setEngine h n { g with rxq := t })
      forEach c.1.toList (fun x a => fifoStore f x a) c.2
  | _, _ => h

def execRxqDrain (n : Fin 64) (s : State) : Host.Outcome State Fault Refusal := onHub s (rxqDrain n)

/-! ### Checks and self-test -/

/-- PIN_DRIVER_DIAGNOSIS (R410): the pin's bit at 0x4601, the count and EV_GROVE_PIN_DRIVER; Forester takes trigger 0x04
from the failed-driver bit. A pin whose readback check is disabled, or that no engine drives, is not diagnosed. -/
def pinDriverDiagnosis (fio : Nat) (h : Hub) : Hub :=
  let checked := !bit (rd h (slotKey (0x2604 + fio / 64) (fio % 64 + 1))) 4
  let driving := h.engines.any fun e => !pinsGated h e.1
    && e.2.pins.zipIdx.any fun pk => pk.1 == fio && e.2.en.getLsbD pk.2
  if fio < 256 ∧ checked ∧ driving then
    let k := 0x4601_01 + fio / 48
    raiseEvent (bump (wr h k (setBit (rd h k) (fio % 48) true)) 0x4600_05) 0x31 0 fio
  else h

/-- ENGINE_SELFTEST (R431): each FREE engine of a powered Grove that fails becomes UNUSABLE with cause 0x06. -/
def execEngineSelftest (failed : List Nat) (s : State) : Host.Outcome State Fault Refusal :=
  onHub s (forEach (List.range 64) fun n h =>
    if failed.contains n && engState h n == 1 && domainState h (grove n) == 3 then
      raiseFault 0x11 (groveIsland n) n 0 (bump (markUnusable n 6 h) 0x4600_04)
    else h)

end Sys2Proof.Machine
end

