-- ==== Sys2Proof/Machine/Power.lean ====
section
/-! DEFINITION. Power domains and regulators (R663 to R690): votes, switching a Grove off and on, AVSBus and PMBus. -/

namespace Sys2Proof.Machine

/-! ### Votes (Table 2 of Power domains and regulators) -/

/-- Engine k of Grove g votes while HALTED, RUNNING, STALLED or FAULTED; an engine of a domain that is OFF reads 0x07 and
does not vote. -/
def engineVotes (h : Hub) (g : Nat) : Nat :=
  if domainState h g = 0 then 0
  else ((List.range 8).map fun k =>
    let st := engState h (8 * g + k)
    b2n (decide (2 ≤ st ∧ st ≤ 5)) * 2 ^ (8 + k)).sum

/-- The vote register of Grove g (0x4D12:g+1). -/
def votes (h : Hub) (g : Nat) : Nat :=
  b2n (mode h == 1 || mode h == 2 || mode h == 7 || mode h == 8) + 2 * b2n (rdB h (0x2D10_01 + g))
    + engineVotes h g + 2 ^ 16 * b2n (h.power.targets.contains g)

/-- Whether R667 forces a Grove off. -/
def forcedOff (h : Hub) (g : Nat) : Bool := h.sleep.asleep.contains (32 + g)

/-- A domain's state, with its bit of 0x4D10:01. -/
def setDomain (d st : Nat) (h : Hub) : Hub :=
  wrs h [(0x4D11_01 + d, st), (0x4D10_01, setBit (rd h 0x4D10_01) d (st == 3))]

/-! ### Save memory (R672 to R674) -/

/-- Length in words of a domain's save list (Table 1). -/
def saveLength (d : Nat) : Nat := if d < 8 then 544 else if d = 8 then 768 else if d = 10 then 540 else 0

/-- First of a list's fixed slots: the lists stand in the order of Table 1 and use 5,660 of the 8,192 slots (R672). -/
def saveFirst (d : Nat) : Nat := ((List.range d).map saveLength).sum

/-- A slot of the save memory, where a list has been saved in it. -/
def saveSlot (h : Hub) (k : Nat) : Option SaveWord :=
  (List.range 13).findSome? fun d =>
    if saveFirst d ≤ k ∧ k < saveFirst d + saveLength d then
      ((tabFind h.power.save d).bind fun l => l.words[k - saveFirst d]?)
    else none

/-- Words filled up with 0 to a length. -/
def padWords (n : Nat) (ws : List Word) : List Word := ws.take n ++ List.replicate (n - ws.length) 0

/-- Save a domain's list (R673): each word with its check bits, the CRC-32 over the list beside them. -/
def saveWords (d : Nat) (ws : List Word) (h : Hub) : Hub :=
  let l := padWords (saveLength d) ws
  let x : SaveList := { words := l.map fun w => { word := w, check := Config.checkBits w }, crc := crc32 (wordsBytes l) }
  { h with power := { h.power with save := tabSet h.power.save d x } }

/-- The check of a restore (R674): the CRC-32 over the list and the check bits of each word. -/
def saveGood (h : Hub) (d : Nat) : Bool :=
  match tabFind h.power.save d with
  | some l => l.words.all (fun w => w.check == Config.checkBits w.word) && l.crc == crc32 (wordsBytes (l.words.map (·.word)))
  | none => false

/-- What an engine's 68 words of its Grove's list hold: program memory three instructions to a word, the registers, the rest of Table 1 of
I/O engines and Groves, the queues with their marks, and what it is bound to (assumption log 70). -/
def engineSaved (h : Hub) (n : Nat) : List Word :=
  let e := engine h n
  let queue := fun (q : List XWord) => (List.range 8).flatMap fun k => match q[k]? with
    | some w => [w.data, BitVec.ofNat 48 (1 + 2 * b2n w.poison + 4 * b2n w.endMark + 8 * w.count)]
    | none => [0, 0]
  padWords 68 ((List.range 22).map (fun k =>
      BitVec.ofNat 48 (e.prog.getD (3 * k) 0 + 2 ^ 16 * e.prog.getD (3 * k + 1) 0 + 2 ^ 32 * e.prog.getD (3 * k + 2) 0))
    ++ [e.sr, e.x, e.y, e.cmp, e.tk, e.iir, e.ior, e.iirNext.getD 0]
    ++ [e.pc, e.l, e.cnt, b2n e.m + 2 * b2n e.n + 4 * b2n e.e, e.p.toNat + 2 ^ 8 * e.en.toNat + 2 ^ 16 * e.lvl.toNat, e.cpin, e.caction,
        e.split, e.acc, rd h (engKey n 1), rd h (engKey n 0x13)].map (BitVec.ofNat 48 ·)
    ++ (queue (e.txq ++ e.rxq)))

/-- A Grove's save list: its eight engines (Table 1). -/
def groveSaved (h : Hub) (g : Nat) : List Word := (List.range 8).flatMap fun k => engineSaved h (8 * g + k)

/-! ### Switching a Grove (R669 to R674) -/

/-- Step 2 of Table 3: RUNNING and STALLED engines are halted, to resume at switch-on. -/
def groveQuiesce (g : Nat) (h : Hub) : Hub :=
  forEach (List.range 8) (fun k a =>
    let n := 8 * g + k
    if engState a n = 3 ∨ engState a n = 4 then
      wr { a with power := { a.power with resumed := n :: a.power.resumed.filter (· != n) } } (engKey n 1) 2
    else a) h

/-- Steps 2 to 5 of Table 3: quiesced, its crossings drained and closed, its list saved, isolated with its pins at their safe levels,
switched off. What the list holds stays with the engines, which nothing reaches until it is restored (assumption log 70). -/
def groveOff (g : Nat) (h : Hub) : Hub :=
  let a := drainCrossings g (groveQuiesce g h)
  syncPads (bump (setDomain g 0 (saveWords g (groveSaved h g) a)) 0x4D10_02)

/-- Engines halted by the switch-off resume at their saved PC. -/
def groveResume (g : Nat) (h : Hub) : Hub :=
  let mine := h.power.resumed.filter fun n => grove n == g
  let a := forEach mine (fun n b => if engState b n = 2 then engineResume n b else b) h
  { a with power := { a.power with resumed := a.power.resumed.filter fun n => grove n != g } }

/-- Every engine of a Grove that was not FREE is loaded with LOAD_CLEAN from its loaded image (R674). The pin levels its
P takes are not known to the hub beforehand: free values. An UNUSABLE engine takes no load. -/
def groveReload (g : Nat) (h : Hub) : Hub :=
  let a := forEach (List.range 8) (fun k b =>
    let n := 8 * g + k
    if 2 ≤ engState b n ∧ engState b n ≤ 5 then
      let f := takeFree b
      engineLoad n (rd b (engKey n 0x13)) 3 (some (f.1.setWidth 8)) f.2
    else b) h
  { a with power := { a.power with resumed := a.power.resumed.filter fun n => grove n != g } }

/-- Steps 2 to 4 of Table 4: the list is restored, or discarded when its CRC or check bits fail (R671, R674); `listOk` is false when an
upset has reached the list since it was saved. -/
def groveOn (g : Nat) (listOk : Bool) (h : Hub) : Hub :=
  let a := setDomain g 3 h
  if listOk && saveGood h g then syncPads (groveResume g a)
  else syncPads (groveReload g (raiseFault 0x18 0x15 g 0 (bump a 0x4D10_04)))

/-- GROVE_VOTE_CLEAR (R669): the software vote [1] or Forester's vote [16] clears, or another has cleared by what the
hub holds; once no vote is left, hold-off starts. -/
def groveVoteClear (g vote : Nat) (h : Hub) : Hub :=
  let a := if vote = 1 then wr h (0x2D10_01 + g) 0
    else if vote = 16 then { h with power := { h.power with targets := h.power.targets.filter (· != g) } }
    else h
  if votes a g = 0 ∧ domainState a g = 3 then setDomain g 4 a else a

def execGroveVoteClear (g : Fin 8) (vote : Nat) (s : State) : Host.Outcome State Fault Refusal :=
  onHub s (groveVoteClear g vote)

/-- OFF_DELAY_EXPIRY (R669). -/
def execOffDelayExpiry (g : Fin 8) (s : State) : Host.Outcome State Fault Refusal :=
  onHub s fun h => if domainState h g = 4 ∧ votes h g = 0 then groveOff g h else h

/-- A vote returns: before isolation the switch-off is abandoned and counted (R670); in OFF the domain switches on. -/
def voteReturned (g : Nat) (h : Hub) : Hub :=
  let st := domainState h g
  if forcedOff h g ∨ votes h g = 0 then h
  else if st = 4 ∨ st = 5 ∨ st = 6 then
    raiseEvent (bump (groveResume g (setDomain g 3 h)) 0x4D10_03) 0xA0 g 0
  else if st = 0 then setDomain g 1 h
  else h

/-- VOTE_RETURN (R670): the software vote [1], Forester's vote [16], or a vote the hub's state gives. -/
def voteReturn (g vote : Nat) (h : Hub) : Hub :=
  voteReturned g (if vote = 1 then wr h (0x2D10_01 + g) 1
    else if vote = 16 then
      { h with power := { h.power with targets := g :: h.power.targets.filter (· != g) } }
    else h)

def execVoteReturn (g : Fin 8) (vote : Nat) (s : State) : Host.Outcome State Fault Refusal := onHub s (voteReturn g vote)

/-- GROVE_SWITCH_ON (R671): the first vote, or R667's release, switches the Grove on. -/
def execGroveSwitchOn (g : Fin 8) (listOk : Bool) (s : State) : Host.Outcome State Fault Refusal :=
  onHub s fun h =>
    if (domainState h g = 1 ∨ domainState h g = 0) ∧ ¬ forcedOff h g ∧ votes h g ≠ 0 then groveOn g listOk h else h

/-! ### AVSBus (R682 to R684) -/

/-- The target V of R683 in mV at die temperature `t`: V_f + 0.2 mV/°C × max(0, 60 °C - T), rounded up to 5 mV and bounded. -/
def avsTargetAt (t : Int) (h : Hub) : Nat :=
  let tenths := rd h 0x4D10_07 * 10 + 2 * (60 - t).toNat
  max (rd h 0x2D11_04) (min (rd h 0x2D11_05) ((tenths + 49) / 50 * 5))

/-- The target at the highest of the die temperatures. -/
def avsTargetOf (h : Hub) : Nat := avsTargetAt (h.adc.die.foldl max (h.adc.die.headD 0)) h

/-- The write is acknowledged: the last acknowledged target. -/
def avsAccepted (v : Nat) (h : Hub) : Hub :=
  wr { h with power := { h.power with avsTarget := none, avsBusy := 0, avsOther := 0 } } 0x4D10_08 v

/-- AVS_UPDATE (R683, Table 7): the target is written when it differs by 5 mV or more; the rail current is read. `ack` is
the slave acknowledge, with bit [2] for a response CRC error. -/
def avsUpdate (ack currentMa : Nat) (h : Hub) : Hub :=
  let a := wr h 0x4D10_0C (currentMa % 65536)
  let v := avsTargetOf a
  let old := rd a 0x4D10_08
  if v < old + 5 ∧ old < v + 5 then a
  else if ack = 0 then avsAccepted v a
  else { a with power := { a.power with avsTarget := some v, avsBusy := 0, avsOther := 0 } }

def execAvsUpdate (ack currentMa : Nat) (s : State) : Host.Outcome State Fault Refusal := onHub s (avsUpdate ack currentMa)

/-- AVS_RETRY (R684): up to 10 retries on busy and 3 otherwise, then FLT_PWR_AVS; the last acknowledged target stays. -/
def avsRetry (ack : Nat) (h : Hub) : Hub :=
  match h.power.avsTarget with
  | none => h
  | some v =>
    if ack = 0 then avsAccepted v h
    else
      let busy := h.power.avsBusy + b2n (ack == 1)
      let other := h.power.avsOther + b2n (ack != 1)
      if 10 ≤ busy ∨ 3 ≤ other then
        raiseFault 0x19 0x15 (ack % 4) (rd h 0x4D10_09)
          (bump { h with power := { h.power with avsTarget := none, avsBusy := 0, avsOther := 0 } } 0x4D10_05)
      else { h with power := { h.power with avsBusy := busy, avsOther := other } }

def execAvsRetry (ack : Nat) (s : State) : Host.Outcome State Fault Refusal := onHub s (avsRetry ack)

/-- AVS_READBACK (R684): a reading more than 15 mV from the target raises FLT_PWR_AVS. -/
def avsReadback (mv : Nat) (h : Hub) : Hub :=
  let a := wr h 0x4D10_09 (mv % 65536)
  let v := rd h 0x4D10_08
  if v + 15 < mv % 65536 ∨ mv % 65536 + 15 < v then raiseFault 0x19 0x15 0xFF (mv % 65536) a else a

def execAvsReadback (mv : Nat) (s : State) : Host.Outcome State Fault Refusal := onHub s (avsReadback mv)

/-! ### PMBus (R685 to R687) -/

/-- A rail whose PMBus address is 0 is not managed (R685). -/
def railManaged (h : Hub) (r : Nat) : Bool := bits (rd h (0x2D12_01 + r)) 6 0 != 0

/-- PMBUS_RETRY (R686): three retries, then FLT_PWR_PMBUS with the rail. -/
def pmbusRetry (r : Nat) (ok : Bool) (h : Hub) : Hub :=
  let tries := tabGet 0 h.power.pmbTries r
  if ¬ railManaged h r then h
  else if ok then { h with power := { h.power with pmbTries := tabErase h.power.pmbTries r } }
  else if 2 ≤ tries then
    raiseFault 0x1A 0x15 r 0 (bump { h with power := { h.power with pmbTries := tabErase h.power.pmbTries r } } 0x4D10_06)
  else { h with power := { h.power with pmbTries := tabSet h.power.pmbTries r (tries + 1) } }

def execPmbusRetry (r : Fin 4) (ok : Bool) (s : State) : Host.Outcome State Fault Refusal := onHub s (pmbusRetry r ok)

/-- STATUS_WORD shows bit [6] OFF or bit [11] POWER_GOOD#. -/
def railBad (status : Nat) : Bool := bit status 6 || bit status 11

/-- One managed rail's reading: recorded; with its domains on, FLT_PWR_RAIL, or its cause gone (R687, Table 3 of
Watchtower faults and events). -/
def railRead (r status : Nat) (h : Hub) : Hub :=
  let a := wr h (0x4D13_01 + r) (status % 65536)
  if mode h = 6 then a
  else if railBad status then raiseFault 0x1C 0x15 r (status % 65536) a
  else match h.watch.records.find? fun e => e.1 == 0x1C with
    | some (_, x) => if x.detailA = r then causeGone 0x1C a else a
    | none => a

/-- PMB_ALERT (R687): STATUS_WORD of each managed rail; in DORMANT recorded only. -/
def pmbAlert (status : List Nat) (h : Hub) : Hub :=
  let a := forEach (List.range 4) (fun r g => if railManaged g r then railRead r (status.getD r 0) g else g) h
  if mode h = 6 then a else raiseEvent (bump a 0x4D10_0B) 0xA2 0 0

def execPmbAlert (status : List Nat) (s : State) : Host.Outcome State Fault Refusal := onHub s (pmbAlert status)

end Sys2Proof.Machine
end

