-- ==== Sys2Proof/Machine/Clocks.lean ====
section
/-! DEFINITION. Clock islands (R15 to R27, R41, R769): the clock monitor, the crossing commands, the always-on backstop. -/

namespace Sys2Proof.Machine

/-! ### The clock monitor (R18) -/

/-- The 32.768 kHz crystal is checked: 1 s has passed since VDD_AON became valid (R769). -/
def crystalDue (h : Hub) : Bool := decide (250000000 ≤ h.power.aonTicks)

/-- The set frequency in Hz of an island's clock that the monitor checks, by island code: none for the recovered ring clocks, for a
Grove whose synthesiser is stopped, and for the 32.768 kHz clock before its time. -/
def setHz (h : Hub) (code : Nat) : Option Nat :=
  if code = 4 ∨ code = 5 ∨ islandHz h code = 0 ∨ (code = 0x15 ∧ crystalDue h = false) then none else some (islandHz h code)

/-- A frequency departs by more than one part in `part` of its set frequency. -/
def departs (hz set part : Nat) : Bool := decide (set < part * ((hz - set) + (set - hz)))

/-- The island code a failed check is reported under (R18). -/
def monitorFinding (h : Hub) (khz : Nat) : MonitorCheck → Option Nat
  | .island code =>
    match setHz h code with
    | some f => if departs (khz * 1000) f 20 then some code else none
    | none => none
  | .cross => if crystalDue h && departs (khz * 1000) 25000000 20 then some 0x16 else none
  | .rc25 => if departs (khz * 1000) 25000000 4 then some 0x16 else none
  | .rc32 => if crystalDue h && departs (khz * 1000) 32768 4 then some 0x17 else none

/-- The end of a monitor window. -/
def clockWindow (check : MonitorCheck) (khz : Nat) (h : Hub) : Hub :=
  match monitorFinding h khz check with
  | some code => raiseFault 0x01 code code khz h
  | none => h

def execClockMonitorWindow (check : MonitorCheck) (khz : Nat) (s : State) : Host.Outcome State Fault Refusal :=
  onHub s (clockWindow check khz)

/-! ### Crossings -/

def execCrossingTransfer (src dst : Nat) (word : XWord) (parityOk : Bool) (s : State) : Host.Outcome State Fault Refusal :=
  onHub s (crossingMove src dst word parityOk)

def execCrossingTimeout (src dst : Nat) (s : State) : Host.Outcome State Fault Refusal := onHub s (crossingLate src dst)

/-! ### The backstop (R41, R42, R699) -/

/-- The backstop acts: SAFE_N low, every field output at its safe level, a record of the cause in the always-on domain. No other
island takes part, so no event is raised. -/
def backstop (cause : Nat) (h : Hub) : Hub :=
  if h.env.resetLow ∨ ¬ h.env.supplies ∨ mode h = 6 ∨ h.watch.backstop then h
  else
    let a := wr { h with watch := { h.watch with backstop := true, backstopRec := some cause, releasing := false } } 0x4E00_03 0
    syncPads (fuseEvalAll a)

def execBackstopTimeout (heartbeat : Bool) (s : State) : Host.Outcome State Fault Refusal :=
  onHub s (backstop (if heartbeat then 2 else 1))

end Sys2Proof.Machine
end

