-- ==== Sys2Proof/Machine/Dome.lean ====
section
/-! DEFINITION. Dome (R597 to R630): key derivation, epochs and their ceiling, sealing and opening, contexts, roles and
sessions, self-tests, tamper and zeroisation. -/

namespace Sys2Proof.Machine

/-! ### Keys (R598, R599) -/

/-- `n` bytes of a number, most significant first (R598). -/
def bigBytes (n x : Nat) : List Byte := (natBytes n x).reverse

/-- AES-256 CMAC as 16 bytes. -/
def cmacBytes (key msg : List Byte) : List Byte := natBytes 16 (Config.cmac key msg).toNat

/-- An ASCII label as bytes. -/
def labelBytes (s : String) : List Byte := s.toList.map fun c => BitVec.ofNat 8 c.toNat

/-- The derivation of R598. -/
def derive (parent : List Byte) (label : String) (context : List Byte) : List Byte :=
  let body := labelBytes label ++ [0] ++ context ++ bigBytes 2 256
  cmacBytes parent (1 :: body) ++ cmacBytes parent (2 :: body)

/-- The serial number as a context (n, 32 bits). -/
def serialBytes : List Byte := bigBytes 4 Config.serialNumber.toNat

/-- The installation key IK of the present generation. -/
def installKey (h : Hub) : List Byte := derive Config.deviceKey "HQ-INSTALL" (bigBytes 1 h.dome.generation ++ serialBytes)

/-- The configuration-store key of the present generation. -/
def configKey (h : Hub) : List Byte := derive Config.deviceKey "HQ-CONFIG" (bigBytes 1 h.dome.generation ++ serialBytes)

/-- The bytes of a configuration record before its tag (R105); the spec gives no layout (assumption log 65). -/
def recordBytes (c : ConfigCopy) : List Byte :=
  natBytes 4 c.seq ++ natBytes 4 c.version ++ c.entries.flatMap fun e => natBytes 3 e.1 ++ natBytes 6 e.2.toNat

/-- The CMAC tag of a record under the configuration-store key (R105). -/
def recordTag (h : Hub) (c : ConfigCopy) : Nat := (Config.cmac (configKey h) (recordBytes c)).toNat

/-- The key of a role: 1 operator, 2 crypto officer (Table 2). No operator key exists without an SRK. -/
def roleKey (h : Hub) (role : Nat) : Option (List Byte) :=
  match h.dome.srk with
  | some k => some (derive k (if role = 1 then "HQ-OPERATOR" else "HQ-OFFICER") serialBytes)
  | none => if role = 2 then some (derive (installKey h) "HQ-OFFICER" serialBytes) else none

/-- The ring traffic key for source s, slot t and epoch e. -/
def ringKey (srk : List Byte) (s t e : Nat) : List Byte :=
  derive srk "HQ-RING" (bigBytes 1 s ++ bigBytes 1 t ++ bigBytes 4 e)

/-- The context wrap key for epoch e (R599, R615). -/
def contextWrapKey (h : Hub) (e : Nat) : List Byte :=
  derive Config.deviceKey "HQ-CTXWRAP" (bigBytes 1 h.dome.generation ++ bigBytes 4 e)

/-- A receive context as Dome's save list holds it (R615): 7 words of its key wrapped for the new epoch, 2 of s, t, epoch and state
(assumption log 70). -/
def contextSaved (srk : List Byte) (h : Hub) (c : RxContext) : List Word :=
  bytesWords 7 (Config.kwpWrap (contextWrapKey h (h.dome.epoch + 1)) (ringKey srk c.src c.slot c.epoch))
    ++ [BitVec.ofNat 48 (c.src + 2 ^ 8 * c.slot + 2 ^ 16 * c.epoch), BitVec.ofNat 48 (c.prev.elim 0 (· + 2 ^ 32))]

/-- Dome's save list: the receive contexts of its hardware slots (R615). -/
def domeSaved (h : Hub) : List Word := h.dome.hardware.flatMap (contextSaved (h.dome.srk.getD []) h)

/-- The SRK check value (R601): the first three bytes of CMAC(SRK, 16 zero bytes), byte 0 lowest (R5). -/
def srkCheck (h : Hub) : Nat :=
  match h.dome.srk with
  | some k => bytesNat ((cmacBytes k (List.replicate 16 0)).take 3)
  | none => 0

/-! ### State and approved mode -/

/-- Dome state 0x4B00:02: 2 operational. -/
def domeServes (h : Hub) : Bool := rd h 0x4B00_02 == 2

/-- Every known-answer test passed (Table 1a). -/
def allTests : Nat := 0x3FF

/-- Approved mode (R624). -/
def approved (h : Hub) : Bool :=
  rd h 0x4B00_0A == allTests && h.dome.srk.isSome && mode h != 8
    && (List.range 4).all fun c => rd h (0x2B01_01 + c) != 0

/-- A step after which a changed indicator raises EV_DOME_APPROVED_CHANGE (R624). -/
def withApproved (f : Hub → Hub) (h : Hub) : Hub :=
  let a := f h
  if approved a = approved h then a else raiseEvent a 0x85 0 0

/-! ### Epochs (R602 to R607) -/

/-- The epoch in waiting is persisted in the always-on record: send contexts switch to it at their next frame. -/
def epochPersisted (e : Nat) (h : Hub) : Hub :=
  let a := { h with dome := { h.dome with
    epoch := e, epochValid := true, next := none, writing := false, rekeying := false, persisted := true,
    exhausted := [], challenges := 0 } }
  if h.dome.rekeying then raiseEvent (bump a 0x4B00_11) 0x81 0 0 else a

/-- Take a new epoch (R603): e + 1 while the always-on record is valid, else the ceiling C. An epoch at or above C waits
for the flash writes of C = e + 16. Epoch 2^32 - 1 cannot be advanced: every context is exhausted (R607). -/
def advanceEpoch (rekey : Bool) (h : Hub) : Hub :=
  if h.dome.next ≠ none then h
  else if h.dome.epochValid && decide (2 ^ 32 - 1 ≤ h.dome.epoch) then
    raiseFault 0x13 0x12 h.dome.epoch 0 { h with dome := { h.dome with exhausted := [0, 1, 2, 3] } }
  else
    let e := if h.dome.epochValid then h.dome.epoch + 1 else h.dome.ceiling
    let a := { h with dome := { h.dome with next := some e, rekeying := rekey, writing := decide (h.dome.ceiling ≤ e) } }
    if e < h.dome.ceiling then epochPersisted e a else a

/-- CEILING_WRITE_DONE (R603, R604). -/
def ceilingWriteDone (ok : Bool) (h : Hub) : Hub :=
  match h.dome.next with
  | none => h
  | some e =>
    if ¬ h.dome.writing then h
    else if ok then causeGone 0x13 (epochPersisted e { h with dome := { h.dome with ceiling := e + 16 } })
    else raiseFault 0x13 0x12 e 0 { h with dome := { h.dome with writing := false } }

def execCeilingWriteDone (ok : Bool) (s : State) : Host.Outcome State Fault Refusal := onHub s (ceilingWriteDone ok)

/-- EPOCH_WRITE_RETRY (R604): every 1 s, a failed write of the ceiling is tried again. -/
def execEpochWriteRetry (s : State) : Host.Outcome State Fault Refusal :=
  onHub s fun h => if h.dome.next = none then h else { h with dome := { h.dome with writing := true } }

/-- REKEY_INTERVAL_EXPIRY (R606). -/
def execRekeyIntervalExpiry (s : State) : Host.Outcome State Fault Refusal :=
  onHub s fun h => if rd h 0x2B01_05 = 0 then h else advanceEpoch true h

/-- A Dome command at 0x2B04:01: Dome serves nothing in self-test, in its error state or while zeroising (R623, R626). -/
def domeCommand (p : Path) (v : Nat) (causes : Hub → Causes → Causes) (f : Hub → Hub) (h : Hub) : Hub :=
  pathWrite p 0x2B04 1 v (fun g c => causes g { c with other := c.other || !domeServes g }) f h

/-- EPOCH_ADVANCE (R606). -/
def execEpochAdvance (p : Path) (s : State) : Host.Outcome State Fault Refusal :=
  onHub s (domeCommand p 1 (fun _ c => c) (advanceEpoch true))

/-! ### Frames as bytes (R134 to R138, R609, R610) -/

/-- The IV (R609). -/
def frameIv (f : Frame) : List Byte := bigBytes 1 f.src ++ bigBytes 1 f.slot ++ bigBytes 4 f.epoch ++ bigBytes 6 f.counter

/-- The additional authenticated data (R610): the header and the security header; with GMAC the payload too. -/
def frameAad (f : Frame) : List Byte :=
  natBytes 6 (header0 f) ++ natBytes 6 (header1 f) ++ natBytes 6 (security0 f) ++ natBytes 6 (security1 f)
    ++ (if f.confidential then [] else wordsBytes f.payload)

/-- The bytes of a frame before its CRC, in the order they are sent (R134, R135). -/
def frameBody (f : Frame) : List Byte :=
  natBytes 6 (header0 f) ++ natBytes 6 (header1 f)
    ++ (if f.secured then natBytes 6 (security0 f) ++ natBytes 6 (security1 f) else [])
    ++ wordsBytes f.payload ++ (if f.secured then natBytes 16 f.tag else [])

/-- The CRC of a frame (R135). -/
def frameCrc (f : Frame) : Nat := crc32 (frameBody f)

/-- The bytes of a frame as a ring port sends them, its CRC last, bits [7:0] first (R135). -/
def frameWire (f : Frame) : List Byte := frameBody f ++ natBytes 4 (frameCrc f)

/-- The payload with the key stream added: encryption and decryption. -/
def applyStream (key : List Byte) (f : Frame) : List Word :=
  f.payload.zipIdx.map fun p => p.1 ^^^ Config.gcmStream key (frameIv f) p.2

/-- The tag of a sealed frame, whose payload stands as it is sent. -/
def frameTag (key : List Byte) (f : Frame) : Nat :=
  (Config.gcmTag key (frameIv f) (frameAad f) (if f.confidential then wordsBytes f.payload else [])).toNat

/-! ### Sealing (R605 to R608) -/

/-- Protection of a class: 0 none, 1 GMAC, 2 GCM (0x2B01:01 to 0x2B01:04). -/
def protection (h : Hub) (c : Cls) : Nat := rd h (0x2B01_01 + clsNum c)

/-- A ring control frame with source 0 goes unsealed (R608). -/
def sourceZeroControl (f : Frame) : Bool := f.ftype == 5 && f.src == 0

/-- Whether a frame of this hub is sealed (R608). -/
def sealNeeded (h : Hub) (f : Frame) : Bool := protection h f.cls != 0 && !sourceZeroControl f && h.dome.srk.isSome

/-- The frame under a key and counter. -/
def sealedFrame (h : Hub) (key : List Byte) (counter : Nat) (f : Frame) : Frame :=
  let g := { f with secured := true, confidential := protection h f.cls == 2, slot := clsNum f.cls,
                    epoch := h.dome.epoch, counter }
  let g' := if g.confidential then { g with payload := applyStream key g } else g
  { g' with tag := frameTag key g' }

/-- A send context switches to the current epoch at its first frame, with its counter at 0 (R606). -/
def sendContext (t : Nat) (h : Hub) : Hub :=
  if tabGet (2 ^ 32) h.dome.sendEpoch t = h.dome.epoch then h
  else wr { h with dome := { h.dome with sendEpoch := tabSet h.dome.sendEpoch t h.dome.epoch } } (0x4B00_06 + t) 0

/-- Mark a send context EXHAUSTED, discard the frame and raise EV_DOME_CONTEXT_EXHAUSTED (R607). -/
def exhaust (t : Nat) (h : Hub) : Hub :=
  let a := { h with dome := { h.dome with exhausted := t :: h.dome.exhausted.filter (· != t) } }
  raiseEvent (bump a 0x4B00_12) 0x82 t 0

/-- An outbound frame at Dome (R608): as it is where nothing protects it, sealed, or discarded. Before Dome serves, and
before the epoch is persisted, nothing leaves (R603, R622). -/
def sealing (f : Frame) (h : Hub) : Option Frame × Hub :=
  if ¬ domeServes h then (none, h)
  else match h.dome.srk with
    | none => (some f, h)
    | some srk =>
      if ¬ sealNeeded h f then (some f, h)
      else if ¬ h.dome.persisted then (none, h)
      else
        let t := clsNum f.cls
        let a := sendContext t h
        let c := rd a (0x4B00_06 + t)
        if a.dome.exhausted.contains t ∨ 2 ^ 48 - 1 ≤ c then (none, exhaust t a)
        else
          let g := sealedFrame a (ringKey srk (hubNumber a) t a.dome.epoch) c f
          let b := bump (wr a (0x4B00_06 + t) (c + 1)) 0x4B00_0B
          (some g, if c + 1 = 2 ^ 47 then advanceEpoch true b else b)

/-- SEAL_FRAME (R608): the frame crosses from Dome to Belfry and enters it at the Dome port. -/
def sealFrame (f : Frame) (h : Hub) : Hub :=
  match sealing f h with
  | (some g, a) => sendOver 0x12 0 (fun x b => enqueue b 5 x) g a
  | (none, a) => a

/-- The frame in front at Belfry's Dome output. -/
def domeFront (h : Hub) : Option Frame := (h.belfry.delivered.find? fun e => e.1 == 5).map (·.2)

/-- Dome acts on a frame that has crossed to it; one with a poisoned word is discarded and counted (R207). -/
def domeActs (act : Frame → Hub → Hub) (f : Frame) (h : Hub) : Hub := if f.poison = [] then act f h else bump h 0x4200_17

/-- Dome takes the frame in front at its Belfry output over the crossing and acts on it; a frame that is not in front there does not
reach it. -/
def domeTakes (act : Frame → Hub → Hub) (f : Frame) (h : Hub) : Hub :=
  if domeFront h = some f then
    sendOver 0 0x12 (domeActs act) f { h with belfry := { h.belfry with delivered := h.belfry.delivered.erase (5, f) } }
  else h

def execSealFrame (f : Frame) (s : State) : Host.Outcome State Fault Refusal := onHub s (domeTakes sealFrame f)

/-! ### Opening (R611 to R614) -/

/-- The receive context of a source and slot in a list. -/
def findContext (l : List RxContext) (s t : Nat) : Option RxContext := l.find? fun c => c.src == s && c.slot == t

def dropContext (l : List RxContext) (s t : Nat) : List RxContext := l.filter fun c => !(c.src == s && c.slot == t)

/-- Put a context in the hardware slots 4 to 63, most recently used first; the one they lose goes to the private store of
1,024, which drops its least recently used. -/
def putContext (c : RxContext) (h : Hub) : Hub :=
  let hw := c :: dropContext h.dome.hardware c.src c.slot
  { h with dome := { h.dome with
      hardware := hw.take 60
      inner := (hw.drop 60 ++ dropContext h.dome.inner c.src c.slot).take 1024 } }

/-- Look up a receive context: one from the private store is taken into the hardware slots and counted (R614). -/
def lookContext (s t : Nat) (h : Hub) : Option RxContext × Hub :=
  match findContext h.dome.hardware s t with
  | some c => (some c, putContext c h)
  | none =>
    match findContext h.dome.inner s t with
    | some c => (some c, putContext c (bump h 0x4B00_10))
    | none => (none, h)

/-- How the procedure of R611 gets the key for epoch e: the context's key, a candidate, or none because e is old. -/
inductive KeyChoice where
  | held | candidate | old
deriving DecidableEq, Repr

def keyChoice (c : Option RxContext) (e : Nat) : KeyChoice :=
  match c with
  | none => .candidate
  | some x => if x.epoch < e then .candidate else if e = x.epoch ∨ x.prev = some e then .held else .old

/-- The context after a frame under a candidate key verified. -/
def adopted (c : Option RxContext) (s t e : Nat) : RxContext :=
  { src := s, slot := t, epoch := e, prev := c.map (·.epoch) }

/-- A secured frame: find the key, verify the tag, decrypt (R611). -/
def openSecured (srk : List Byte) (f : Frame) (h : Hub) : Option Frame × Hub :=
  let l := lookContext f.src f.slot h
  match keyChoice l.1 f.epoch with
  | .old => (none, bump l.2 0x4B00_0D)
  | k =>
    let a := whenDo (k == .candidate) (fun g => bump g 0x4B00_0F) l.2
    let key := ringKey srk f.src f.slot f.epoch
    if frameTag key f ≠ f.tag then (none, raise16ms (bump a 0x4B00_0D) 0x83 f.src 0 0)
    else
      let b := whenDo (k == .candidate) (putContext (adopted l.1 f.src f.slot f.epoch)) a
      (some (if f.confidential then { f with payload := applyStream key f } else f), bump b 0x4B00_0C)

/-- The procedure of R611 for any received frame. -/
def openFrame (f : Frame) (h : Hub) : Option Frame × Hub :=
  match h.dome.srk with
  | none => if f.secured then (none, bump h 0x4B00_0D) else (some f, h)
  | some srk =>
    if f.secured then (if domeServes h then openSecured srk f h else (none, h))
    else if protection h f.cls ≠ 0 ∧ ¬ sourceZeroControl f then (none, bump h 0x4B00_0E)
    else (some f, h)

/-- EPOCH_GRACE_EXPIRY (R611): the previous key is dropped. -/
def execEpochGraceExpiry (src slot : Nat) (s : State) : Host.Outcome State Fault Refusal :=
  onHub s fun h =>
    let f := fun (c : RxContext) => if c.src = src ∧ c.slot = slot then { c with prev := none } else c
    { h with dome := { h.dome with hardware := h.dome.hardware.map f, inner := h.dome.inner.map f } }

/-! ### Roles and sessions (R617 to R620) -/

/-- A session ends: the path's role is none. -/
def endSession (p : Path) (h : Hub) : Hub := setSession h p { session h p with role := 0, challenge := none }

/-- SESSION_END (R619). -/
def execSessionEnd (p : Path) (s : State) : Host.Outcome State Fault Refusal :=
  onHub s (pathWrite p 0x2B02 1 0 (fun _ c => c) (endSession p))

/-- Place a challenge (R617): word 0 holds the epoch and the counter of challenges, word 1 Spire time in ns. -/
def placeChallenge (p : Path) (role : Nat) (h : Hub) : Hub :=
  let w0 := h.dome.epoch % 2 ^ 32 * 2 ^ 16 + h.dome.challenges % 65536
  setSession { h with dome := { h.dome with challenges := h.dome.challenges + 1 } } p
    { session h p with challenge := some (role, w0, nowNs h % 2 ^ 48, nowNs h) }

/-- A role request: refused with 0x08 while the path is closed (R618), and while Dome does not serve. -/
def roleRequest (p : Path) (role : Nat) (h : Hub) : Hub :=
  pathWrite p 0x2B02 1 role (fun g c => { c with busy := c.busy || (session g p).closed || !domeServes g })
    (placeChallenge p role) h

def execOperatorRoleRequest (p : Path) (s : State) : Host.Outcome State Fault Refusal := onHub s (roleRequest p 1)

def execCryptoOfficerRoleRequest (p : Path) (s : State) : Host.Outcome State Fault Refusal := onHub s (roleRequest p 2)

/-- The 14 bytes of R617 step 3. -/
def challengeBytes (p : Path) (role w0 w1 : Nat) : List Byte :=
  bigBytes 6 w0 ++ bigBytes 6 w1 ++ bigBytes 1 (pathCode p) ++ bigBytes 1 role

/-- A wrong response (R618): counted; the third in a row closes the path. -/
def wrongResponse (p : Path) (h : Hub) : Hub :=
  let x := session h p
  let a := setSession h p { x with
    challenge := none, failures := if x.failures = 2 then 0 else x.failures + 1, closed := x.closed || x.failures == 2 }
  raiseEvent (bump a 0x4B00_17) 0x84 0 0

/-- The response is compared: a match opens the session (R617). -/
def judgeResponse (p : Path) (response : List Byte) (h : Hub) : Hub :=
  let x := session h p
  match x.challenge with
  | none => h
  | some (role, w0, w1, _) =>
    if (roleKey h role).map (fun k => cmacBytes k (challengeBytes p role w0 w1)) = some response then
      setSession h p { x with role, challenge := none, failures := 0, lastAccess := nowNs h }
    else wrongResponse p h

/-- A challenge of the path stands and is not older than 10 s. -/
def challengeOpen (h : Hub) (p : Path) : Bool :=
  match (session h p).challenge with
  | some (_, _, _, t) => decide (nowNs h < t + 10000000000)
  | none => false

/-- A write of the response with its slot `sub`: one with no valid challenge is refused. -/
def responseWrite (p : Path) (sub : Nat) (response : List Byte) (h : Hub) : Hub :=
  let v := bytesNat response
  if response.length ≠ 16 then pathTry p 0x2B02 sub v (fun _ c => { c with size := true }) id h
  else pathWrite p 0x2B02 sub v (fun g c => { c with other := c.other || !challengeOpen g p }) (judgeResponse p response) h

/-- RESPONSE_WRITE (R617). -/
def execResponseWrite (p : Path) (response : List Byte) (s : State) : Host.Outcome State Fault Refusal :=
  onHub s (responseWrite p 4 response)

/-- CHALLENGE_EXPIRY (R618). -/
def execChallengeExpiry (p : Path) (s : State) : Host.Outcome State Fault Refusal :=
  onHub s fun h => setSession h p { session h p with challenge := none }

/-- ROLE_LOCKOUT_EXPIRY (R618). -/
def execRoleLockoutExpiry (p : Path) (s : State) : Host.Outcome State Fault Refusal :=
  onHub s fun h => setSession h p { session h p with closed := false }

/-- SESSION_IDLE_TIMEOUT (R619): no access from the path for the idle limit. -/
def execSessionIdleTimeout (p : Path) (s : State) : Host.Outcome State Fault Refusal :=
  onHub s fun h =>
    if (session h p).lastAccess + rd h 0x2B02_08 * 1000000000 ≤ nowNs h then endSession p h else h

/-! ### Installation, self-tests, zeroisation -/

/-- The 40 bytes at 0x2B03:01. -/
def wrappedSrk (h : Hub) : List Byte := (wordsBytes ((List.range 7).map fun k => rdW h (0x2B03_01 + k))).take 40

/-- INSTALL_COMMAND (R600): refused with 0x04 with an SRK installed or a record whose integrity check fails, with 0x05
outside COMMISSION and SERVICE. -/
def execInstallCommand (p : Path) (value : Nat) (s : State) : Host.Outcome State Fault Refusal :=
  onHub s (pathWrite p 0x2B03 8 value
    (fun h c => { c with
      value := (c.value || value != 1 || h.dome.srk.isSome || (Config.kwpUnwrap (installKey h) (wrappedSrk h)).isNone)
      mode := (c.mode || !(mode h == 2 || mode h == 7))
      other := (c.other || !domeServes h) })
    (withApproved fun h =>
      raiseEvent { h with dome := { h.dome with srk := Config.kwpUnwrap (installKey h) (wrappedSrk h) } } 0x80 0 0))

/-- Results of the known-answer tests (R622, R623): a failure puts Dome in its error state until a reset. -/
def testResults (results : Nat) (h : Hub) : Hub :=
  let r := results % 1024
  let a := wr h 0x4B00_0A r
  if h.dome.generation = 32 then wr a 0x4B00_02 3
  else if r = allTests then wr a 0x4B00_02 2
  else
    let b := raiseFault 0x14 0x12 (allTests - r) 0 (wr a 0x4B00_02 3)
    wr b 0x2000_11 6

/-- SELF_TESTS (R623). -/
def execSelfTests (p : Path) (results : Nat) (s : State) : Host.Outcome State Fault Refusal :=
  onHub s (domeCommand p 2 (fun _ c => c) (withApproved (testResults results)))

/-- Zeroisation (R626, R627): contexts, saved contexts with their save list and sessions cleared, the next generation fuse blown, the SRK
records erased, the time recorded. The 32nd fuse leaves Dome in its error state. Configuration records fail their tag
from now on, since their key has changed. -/
def zeroise (h : Hub) : Hub :=
  let g := min 32 (h.dome.generation + 1)
  let bad := fun (c : Option ConfigCopy) => c.map fun x => { x with marked := true }
  let a := { h with
    sessions := h.sessions.map fun e => (e.1, { e.2 with role := 0, challenge := none })
    dome := { h.dome with srk := none, generation := g, hardware := [], inner := [], saved := [], sendEpoch := [] }
    power := { h.power with save := tabErase h.power.save 10 }
    copyA := bad h.copyA, copyB := bad h.copyB }
  let b := forEach (List.range 4) (fun t x => wr x (0x4B00_06 + t) 0) (wr a 0x2B04_02 0)
  raiseEvent (wrStamp (whenDo (g == 32) (fun x => wr x 0x4B00_02 3) b) 0x4B00_14 0x12) 0x86 0 0

/-- ZEROISE (R625): the confirmation at 0x2B04:02 must stand. -/
def execZeroise (p : Path) (s : State) : Host.Outcome State Fault Refusal :=
  onHub s (domeCommand p 3 (fun h c => { c with value := c.value || rd h 0x2B04_02 != 0x6F72657A }) (withApproved zeroise))

/-- TAMPER_EVENT (R625): 1 mesh, 2 supply, 3 OTP parity. -/
def execTamperEvent (kind : Nat) (s : State) : Host.Outcome State Fault Refusal :=
  onHub s (withApproved fun h => zeroise (raiseFault 0x15 0x12 kind 0 (bump h 0x4B00_13)))

end Sys2Proof.Machine
end

