-- ==== Sys2Proof/Machine/Modes.lean ====
section
/-! DEFINITION. Changes of mode as one shared operation (R44 to R51, R68, R640), LIMP causes (R46), and the waking of
every sleeping resource on a transition out of CLEARING (R526, R667). -/

namespace Sys2Proof.Machine

/-- Key of CAN controller c's slot `sub` at 0x4810 + c. -/
def canStat (c sub : Nat) : Nat := slotKey (0x4810 + c) sub

/-- Wake one sleeping resource: a Grove (32 + g) is switched on and its list restored, with an outcome the hub cannot
know beforehand (a free bit); a CAN controller enters bus integration (R531); a T1S port is in normal operation. -/
def wakeResource (j : Nat) (h0 : Hub) : Hub :=
  let h := { h0 with sleep := { h0.sleep with asleep := h0.sleep.asleep.filter (· != j) } }
  if 32 ≤ j then
    let f := takeFree h
    groveOn (j - 32) (f.1.getLsbD 0) f.2
  else if 8 ≤ j ∧ j < 24 then wr h (canStat (j - 8) 1) 1
  else h

/-- Wake every sleeping resource (R526). -/
def wakeAll (h : Hub) : Hub := forEach h.sleep.asleep wakeResource h

/-- RUN, LIMP or CLEARING by mode code. -/
def servingCode (m : Nat) : Bool := m == 3 || m == 4 || m == 5

/-- The fuse channels at a change of mode: on entry to COMMISSION or SERVICE the present on request is copied into
0x36nn:02; a channel keeps its state from entry to a serving mode until the first output instant (R640). -/
def fuseModeEntry (old new : Nat) (req : Nat → Bool) (h : Hub) : Hub :=
  if new = 2 ∨ new = 7 then
    forEach (List.range 16) (fun n g => wr (setFuse g n { fuse g n with waiting := false }) (fuseKey n 2) (b2n (req n))) h
  else if servingCode new && !servingCode old then
    forEach (List.range 16) (fun n g => setFuse g n { fuse g n with waiting := true, applied := req n }) h
  else h

/-- A remote access pending when the hub can no longer serve is abandoned with status 0xFE (R99). -/
def abandonMailbox (h : Hub) : Hub :=
  if h.mailbox.pending = none then h
  else wr { h with mailbox := { h.mailbox with pending := none } } 0x2002_06 0xFE

/-- What the mode rules and the cyclic exchange take from a change of mode: a pending request and its blocked notice end,
SERVICE entered from a serving mode keeps the cycles (R332), any other mode that does not serve stops them. -/
def modeMemory (old new : Nat) (h : Hub) : Hub :=
  { h with
    modes := { h.modes with runRequest := false, blocked := false, blockedGate := 0,
                            serviceCycles := new == 7 && servingCode old }
    cyc := { h.cyc with running := h.cyc.running && (servingCode new || (new == 7 && servingCode old)) } }

/-- HOLDOVER ends: its time is added up and its fault's cause is gone (R385, Table 3 of Watchtower). -/
def holdoverEnds (h : Hub) : Hub :=
  let a := { h with spire := { h.spire with holdSum := h.spire.holdSum + (nowNs h - h.spire.holdAt) } }
  causeGone 0x0D (wr a 0x4500_0F (a.spire.holdSum / 1000000000))

/-- Entry to COMMISSION for Spire: FREE at ρ = 0, and it takes its one step again at the next lock (R68, Table 2 of Spire time). A hub
in LOCKING that has not stepped goes on from there (R379), one AHEAD stays so (R378). A held time of day may step now (R394). -/
def spireCommission (h : Hub) : Hub :=
  if rd h 0x4500_01 = 7 then h
  else
    let a := if rd h 0x4500_01 = 6 then holdoverEnds h else h
    let b := { a with spire := { a.spire with stepped := false, toStep := none, good := 0, todWaits := false } }
    if rd h 0x4500_01 = 3 ∧ ¬ h.spire.stepped then b else wrs b [(0x4500_01, 1), (0x4500_06, 0), (0x4500_07, 0)]

/-- The CANopen node ID (R53, R55, R500): STRAP[6:0], or the dictionary's where 0x2000:10 is 1 or the straps give 0. -/
def nodeId (h : Hub) : Nat :=
  if rdB h 0x2000_10 || bits (rd h 0x2000_08) 6 0 == 0 then rd h 0x2802_02 else bits (rd h 0x2000_08) 6 0

/-- A boot-up message (R503), where there is a CANopen controller. -/
def bootUp (h : Hub) : Hub :=
  if rd h 0x2802_01 = 0xFF then h
  else { h with canopen := { h.canopen with heartbeat := h.canopen.heartbeat ++ [0] } }

/-- The node ID taken into use; a change is announced with a boot-up message (R500). -/
def nodeIdUpdate (h : Hub) : Hub :=
  if rd h 0x4800_01 = nodeId h then h else bootUp (wr h 0x4800_01 (nodeId h))

/-- Entry to COMMISSION for CANopen (R500, R503). -/
def canopenCommission (h : Hub) : Hub := bootUp (wr h 0x4800_01 (nodeId h))

/-- Entry to COMMISSION for the ring: a hub without a number claims one afresh, and asks for the number it held before only where it comes
from DORMANT (R160, Table 10). -/
def claimAfresh (old : Nat) (h : Hub) : Hub :=
  if hubNumber h = 0 then
    { h with ring := { h.ring with claim := none, conflict := false, before := if old = 6 then h.ring.before else 0 } }
  else h

/-- The handle of a slot of a home hub (R253). -/
def handleOf (home slot gen : Nat) : Nat := home * 2 ^ 15 + slot * 8 + gen

/-- Slots of this hub's Canopy map whose object is UNBOUND (Table 3 of Canopy addressing). -/
def unboundSlots (h : Hub) : List Nat := (h.canopy.map.filter fun e => e.2.state == 3).map (·.1)

/-- Objects that are UNBOUND as the hub leaves COMMISSION set LIMP cause [3], and each raises EV_FORESTER_UNBOUND; in COMMISSION the cause
is clear (R324). -/
def unboundCause (old new : Nat) (h : Hub) : Hub :=
  if (old = 2) = (new = 2) then h
  else
    let a := wr h 0x2000_06 (setBit (rd h 0x2000_06) 3 (new != 2 && !(unboundSlots h).isEmpty))
    if new = 2 then a
    else forEach (h.canopy.map.filter fun e => e.2.state == 3)
      (fun e g => raiseEvent g 0x1F 0 (handleOf (hubNumber g) e.1 e.2.hgen)) a

/-- A change of mode (R45, R48): sleeping resources woken, the fuse requests copied, the mode written with the old mode
and the Spire time of entry, SAFE_N low outside the serving modes (Table 3), and then EV_GEN_MODE_CHANGE. -/
def changeMode (new : Nat) (h0 : Hub) : Hub :=
  let old := mode h0
  let a := modeMemory old new (fuseModeEntry old new (fuseRequest h0) (whenDo (old == 5) wakeAll h0))
  let b := wrTime (wrs a [(0x2000_03, old), (0x2000_01, new)]) 0x2000_04
  let c := whenDo (!servingCode new) (fun g => wr g 0x4E00_03 0) b
  let d := whenDo (new == 2) (fun g => canopenCommission (spireCommission (claimAfresh old g))) (whenDo (new == 1 || new == 8 || new == 6) abandonMailbox c)
  raiseEvent (syncPads (fuseEvalAll (unboundCause old new d))) 0x00 0 0

/-- Write a LIMP cause; a cause that becomes true takes RUN or CLEARING to LIMP (R44, R46). -/
def setLimpCause (b : Nat) (v : Bool) (h : Hub) : Hub :=
  let a := wr h 0x2000_06 (setBit (rd h 0x2000_06) b v)
  if v && (mode a == 3 || mode a == 5) then changeMode 4 a else a

end Sys2Proof.Machine
end

