-- ==== Sys2Proof/Machine/RingOps.lean ====
section
/-! DEFINITION. The ring map, ring state, route choice, ring control frames and the duplicate check (R148 to R172). -/

namespace Sys2Proof.Machine

/-- Port number: 0 East, 1 West. -/
def portNum : Port → Nat
  | .east => 0
  | .west => 1

def linkInit : Link :=
  { highest := 0, miswire := false, miswireAt := 0, downSent := false, stopped := false, helloSent := none, arriving := [], left := [] }

def link (h : Hub) (p : Nat) : Link := tabGet linkInit h.links p

def setLink (h : Hub) (p : Nat) (x : Link) : Hub := { h with links := tabSet h.links p x }

/-- Receive state of a port (Table 3 of Ring links and frames). -/
def rxState (h : Hub) (p : Nat) : Nat := rd h (0x4100_01 + p)

/-- The receive direction is UP. -/
def rxUp (h : Hub) (p : Nat) : Bool := rxState h p == 8

/-- The receive direction is LOCKED or UP (R131). -/
def rxRuns (h : Hub) (p : Nat) : Bool := rxState h p == 7 || rxState h p == 8

/-- Transmit marked failed (0x4100:03 bits [2], [3]; R133). -/
def txFailed (h : Hub) (p : Nat) : Bool := bit (rd h 0x4100_03) (2 + p)

/-- Modes in which the hub sends frames of its own (Table 3 of Operating modes and start-up). -/
def sendsOwn (h : Hub) : Bool := mode h != 1 && mode h != 8 && mode h != 6

/-! ### Ring map (R164, R167, R172) -/

/-- The distance heard on a ring. -/
def heard (h : Hub) (ringB : Bool) (n : Nat) : Option Nat :=
  ((if ringB then h.ring.distB else h.ring.distA).find? fun e => e.1 == n).map (·.2)

/-- A LINK STATE down from x (West port for ring A, East for ring B) makes n unreachable: its distance is at least that of x, as heard
now or, once x is heard no more, as it was when its notice came. -/
def beyondBreak (h : Hub) (ringB : Bool) (n : Nat) : Bool :=
  h.ring.downs.any fun d => d.2.1 == ringB &&
    match heard h ringB n with
    | some y => decide ((heard h ringB d.1).getD d.2.2 ≤ y)
    | none => false

/-- Distance of hub n on a ring, 0xFF unreachable. -/
def distance (h : Hub) (ringB : Bool) (n : Nat) : Nat :=
  match heard h ringB n with
  | some d => if beyondBreak h ringB n then 0xFF else d
  | none => 0xFF

def reachable (h : Hub) (ringB : Bool) (n : Nat) : Bool := distance h ringB n != 0xFF

/-- Hubs reachable on either ring, this hub not included. -/
def othersPresent (h : Hub) : List Nat :=
  (List.range 255).filter fun n => n != 0 && n != hubNumber h && (reachable h false n || reachable h true n)

/-- Hubs present, this hub included once it has a number. -/
def presentHubs (h : Hub) : List Nat := (if hubNumber h = 0 then [] else [hubNumber h]) ++ othersPresent h

/-- The ring map entry of hub n (R172). -/
def ringMapEntry (h : Hub) (n : Nat) : Nat :=
  if n = hubNumber h then 0 else distance h false n * 256 + distance h true n

/-- The head: the present hub with the head candidate role and the lowest number, 0 for none (R162). -/
def headHub (h : Hub) : Nat :=
  let heads := (presentHubs h).filter fun n =>
    (if n = hubNumber h then roleInForce h else tabGet 0 h.ring.roles n) == 1
  (heads.min?).getD 0

/-! ### Ring state (R168) -/

/-- Ring A (false) or B counts as lost. -/
def ringLost (h : Hub) (ringB : Bool) : Bool :=
  let rx := if ringB then 0 else 1
  let out := if ringB then 1 else 0
  !rxUp h rx || txFailed h out || h.ring.downs.any (fun d => d.2.1 == ringB)
    || (othersPresent h).any fun n => reachable h (!ringB) n && !reachable h ringB n

/-- The hub is isolated. -/
def isolated (h : Hub) : Bool := bench h || (!rxUp h 0 && !rxUp h 1) || (othersPresent h).isEmpty

/-- Evaluate the ring state: 0x4100:03 bits [0] and [1], LIMP causes [1] and [2], EV_RING_STATE_CHANGE on each change. -/
def ringUpdate (h : Hub) : Hub :=
  let a := ringLost h false
  let b := ringLost h true
  let i := isolated h
  let s := setBit (setBit (rd h 0x4100_03) 0 (!a && !i)) 1 (!b && !i)
  let changed := a != h.ring.lostA || b != h.ring.lostB
  let c := wr { h with ring := { h.ring with lostA := a, lostB := b } } 0x4100_03 s
  let d := setLimpCause 2 (b && !i) (setLimpCause 1 (a && !i) c)
  whenDo changed (fun g => raiseEvent g 0x0E 0 0) d

/-- The duplicate state of every stream of a source is cleared (R157). -/
def clearDups (src : Nat) (h : Hub) : Hub :=
  { h with ring := { h.ring with dups := h.ring.dups.filter fun e => e.1 / 1024 != src } }

/-- Another hub is present now (R354). -/
def noteOthers (h : Hub) : Hub :=
  if (othersPresent h).isEmpty then h else { h with ring := { h.ring with presentAt := some (stampNs h 0) } }

/-- Another hub is present in the ring map, or was in the last 3 ms (R354). -/
def othersLately (h : Hub) : Bool :=
  !(othersPresent h).isEmpty || h.ring.presentAt.any fun t => decide (stampNs h 0 < t + 3000000)

/-- A change of the ring map: the duplicate state of every hub that reappears in it is cleared (R157), and the ring state is
evaluated. -/
def mapChange (f : Hub → Hub) (h : Hub) : Hub :=
  let a := f (noteOthers h)
  ringUpdate (forEach ((othersPresent a).filter fun n => !(othersPresent h).contains n) clearDups a)

/-! ### Sending (R152, R159) -/

/-- A frame is dual-sent: class CY or UR, or destination 255; time frames never. -/
def dualSent (f : Frame) : Bool := f.ftype != 6 && (f.cls == .cy || f.cls == .ur || f.dst == 255)

/-- The distance a route may count on: a direction of this hub counts as running for route choice only once it is UP (R131). The
distance on ring A was heard by the East receive direction, that on ring B by the West one (R117, R164). -/
def routeDistance (h : Hub) (ringB : Bool) (n : Nat) : Nat := if rxUp h (b2n ringB) then distance h ringB n else 0xFF

/-- The ring of a single-ring frame: ports of the ring outputs, empty where the destination is unreachable on both. Ring A
leaves by East (0), ring B by West (1). -/
def singleRing (h : Hub) (dst : Nat) : List Nat :=
  let a := routeDistance h false dst
  let b := routeDistance h true dst
  let preferB := match rd h 0x2100_05 with
    | 1 => false
    | 2 => true
    | _ => decide (b < a)
  if preferB then (if b ≠ 0xFF then [1] else if a ≠ 0xFF then [0] else [])
  else (if a ≠ 0xFF then [0] else if b ≠ 0xFF then [1] else [])

/-- Ring outputs of an outbound frame. -/
def ringOutputs (h : Hub) (f : Frame) : List Nat := if dualSent f then [0, 1] else singleRing h f.dst

/-- Send a ring control frame (Table 9): type 0x5, class MG, to 255. -/
def ringControl (sub : Nat) (payload : List Nat) (h : Hub) : Hub :=
  originate h 6 0x5 .mg 255 (sub * 256) 0 (payload.map (BitVec.ofNat 48))

/-! ### Duplicate check (R153 to R155) -/

/-- Accept, discard as duplicate or discard as old. -/
inductive DupResult where
  | accept (hi rec : Nat)
  | duplicate
  | old
deriving DecidableEq, Repr

/-- The procedure of R153 on a record (H, bits b - 1 for H - b); a stream not seen yet accepts. -/
def dupJudge (rec : Option (Nat × Nat)) (s : Nat) : DupResult :=
  match rec with
  | none => .accept s 0
  | some (hi, r) =>
    let diff := (s + 65536 - hi) % 65536
    if diff = 0 then .duplicate
    else if diff ≤ 32768 then .accept s ((r * 2 + 1) * 2 ^ (diff - 1) % 2 ^ 256)
    else
      let b := 65536 - diff
      if 256 < b then .old
      else if bit r (b - 1) then .duplicate
      else .accept hi (setBit r (b - 1) true)

/-- Run the check on a frame; whether it is accepted. Frames of source 0 and frames that are not dual-sent pass. -/
def dupCheck (f : Frame) (h : Hub) : Bool × Hub :=
  if ¬ dualSent f ∨ f.src = 0 then (true, h)
  else
    let k := streamKey f.src f.dst f.cls
    match dupJudge ((h.ring.dups.find? fun e => e.1 == k).map (·.2)) (f.seq % 65536) with
    | .accept hi r => (true, { h with ring := { h.ring with dups := tabSet h.ring.dups k (hi, r) } })
    | .duplicate => (false, bump h 0x4100_0B)
    | .old => (false, bump h 0x4100_0C)

/-- A source's valid communication makes its wake productive: its unproductive count returns to 0 (R534). -/
def wakeProductive (j : Nat) (h : Hub) : Hub :=
  if h.sleep.awaiting.contains j then
    wr { h with sleep := { h.sleep with awaiting := h.sleep.awaiting.filter (· != j) } } (0x4D03_01 + j)
      (setField (rd h (0x4D03_01 + j)) 7 0 0)
  else h

end Sys2Proof.Machine
end

