-- ==== Sys2Proof/Machine/RingLinks.lean ====
section
/-! DEFINITION. Ring links and frames (R117 to R172): link bring-up and failure, frames received and sent, joining, and the
ring configuration writes. -/

namespace Sys2Proof.Machine

/-! ### Link bring-up (Table 3) -/

/-- The port's FEC option (0x2100:01, 0x2100:02). -/
def fecOn (h : Hub) (p : Nat) : Bool := rdB h (0x2100_01 + p)

/-- A receive direction enters a state; the highest reached is kept. -/
def setRx (p st : Nat) (h : Hub) : Hub :=
  wr (setLink h p { link h p with highest := max (link h p).highest st }) (0x4100_01 + p) st

/-- Move from one state of Table 3 to another, if there. -/
def rxStep (p src dst : Nat) (h : Hub) : Hub := if rxState h p = src then setRx p dst h else h

/-- A transmit direction, empty. -/
def txInit : Tx := { express := [], transit := [], own := [], onLink := none, suspended := none, run := 0, line := [] }

def tx (h : Hub) (p : Nat) : Tx := tabGet txInit h.tx p

def setTx (h : Hub) (p : Nat) (x : Tx) : Hub := { h with tx := tabSet h.tx p x }

/-- CY and UR frames are express (R142). -/
def isExpress (f : Frame) : Bool := f.cls == .cy || f.cls == .ur

/-- A frame joins the frames a transmit direction has to send; `local` ones are this hub's own (R147). -/
def queueTx (p : Nat) (own : Bool) (x : TxFrame) (h : Hub) : Hub :=
  let q := tx h p
  if isExpress x.frame then setTx h p { q with express := q.express ++ [x] }
  else if own then setTx h p { q with own := q.own ++ [x] }
  else setTx h p { q with transit := q.transit ++ [x] }

/-- Forward on the transit path with hop count one lower, or count the discard (R141, R148); `error`: the copy ends with an ERROR
block (R150); `crc`: the CRC part as it came, where it has come. -/
def forward (p hop : Nat) (error : Bool) (crc : Option Nat) (f : Frame) (h : Hub) : Hub :=
  if ¬ h.boot.transit then h
  else if hop ≤ 1 then bump h 0x4100_0D
  else queueTx (1 - p) false { frame := f, hop := hop - 1, error, crc } h

/-- This hub's own frame: it comes back on its ring and is stripped. -/
def ownFrame (h : Hub) (f : Frame) : Bool := f.src == hubNumber h && f.src != 0

/-- A frame has no copy to forward: it is this hub's own, or for this hub alone. -/
def endsHere (h : Hub) (f : Frame) : Bool := ownFrame h f || f.dst == hubNumber h

/-- This hub takes a copy of a frame (R148): it is addressed to this hub, to all, or to a GROUP this hub is in. In BOOT after step 10, of
which Table 3 of Operating modes and start-up says only that the hub sends nothing, a frame for this hub is neither delivered nor counted
(DESIGN CHOICE, assumption log 67). -/
def takesCopy (h : Hub) (f : Frame) : Bool :=
  !ownFrame h f && sendsOwn h && f.dst != 0
    && (f.dst == hubNumber h || (f.dst == 255 && (!f.multicast || h.ring.groups.contains f.group)))

/-- Change the copies of a frame that a transmit direction has to send, has on its link or has suspended. -/
def Tx.changeCopy (f : Frame) (g : TxFrame → TxFrame) (q : Tx) : Tx :=
  let on := fun (x : TxFrame) => if x.frame = f then g x else x
  { q with express := q.express.map on, transit := q.transit.map on,
           onLink := q.onLink.map fun x => { x with item := on x.item },
           suspended := q.suspended.map fun x => { x with item := on x.item } }

/-- The same for the transit copy of a frame that is arriving at port p. -/
def changeCopy (p : Nat) (f : Frame) (g : TxFrame → TxFrame) (h : Hub) : Hub := setTx h (1 - p) ((tx h (1 - p)).changeCopy f g)

/-- A frame's header and first blocks are here, its end is not. -/
def isArriving (h : Hub) (p : Nat) (f : Frame) : Bool := (link h p).arriving.any fun x => x.1 == f

/-- The forwarded copy of a frame that did not arrive whole ends with an ERROR block, whether a block of it was marked, its direction failed
(R150), or the frame was broken off as R123 and R145 say; those two name no ending of the copy, which cannot end otherwise (DESIGN CHOICE,
assumption log 67). -/
def forwardBroken (p : Nat) (x : Frame × Nat) (h : Hub) : Hub :=
  if endsHere h x.1 then h
  else if isArriving h p x.1 then changeCopy p x.1 (fun c => { c with error := true }) h
  else forward p x.2 true none x.1 h

/-- A frame is no longer arriving. -/
def arrived (p : Nat) (f : Frame) (h : Hub) : Hub :=
  if isArriving h p f then setLink h p { link h p with arriving := (link h p).arriving.filter fun x => x.1 != f } else h

/-- The receive direction of a port fails: a frame it was delivering is discarded and counted as a format error, the copy of one it
was forwarding ends with ERROR (R150, R166). -/
def breakArriving (p : Nat) (h : Hub) : Hub :=
  forEach (link h p).arriving (fun x g => arrived p x.1 (forwardBroken p x (whenDo (takesCopy g x.1) (fun k => bump k 0x4100_0E) g))) h

/-- A LOCKED or UP direction goes to DOWN (R166): frames in progress end, LINK STATE down, EV_RING_LINK_DOWN, counted; one that goes to OFF by
0x2100:09, of which no rule says what else happens, does the same (DESIGN CHOICE, assumption log 67). A training direction only changes
state. -/
def linkDown (p st : Nat) (h0 : Hub) : Hub :=
  let h := breakArriving p h0
  if rxRuns h p then
    let a := wr (setLink h p { link h p with highest := 0, downSent := true, miswire := false }) (0x4100_01 + p) st
    let b := whenDo (hubNumber a != 0 && sendsOwn a) (ringControl 5 [p * 2 ^ 47]) a
    ringUpdate (raiseEvent (bump b (0x4100_13 + p)) 0x0B p 0)
  else if rxState h p = 0 ∧ st = 1 then h
  else wr (setLink h p { link h p with miswire := false }) (0x4100_01 + p) st

/-- BOOT step 10, or entry to FACTORY: the SerDes start and both directions leave OFF, unless transmit is disabled or the
hub is an isolated bench hub (R61, R64, R128). -/
def startSerdes (h : Hub) : Hub :=
  forEach [0, 1] (fun p a =>
    if rxState a p = 0 ∧ ¬ bit (rd a 0x2100_09) p ∧ ¬ bench a then setRx p 1 a else a)
    { h with boot := { h.boot with transit := true } }

def execLinkDownRestart (port : Port) (s : State) : Host.Outcome State Fault Refusal :=
  onHub s fun h =>
    let p := portNum port
    if rxState h p = 1 then setRx p 2 (setLink h p { link h p with stopped := false }) else h

def execLinkSignalDetect (port : Port) (s : State) : Host.Outcome State Fault Refusal :=
  onHub s fun h => rxStep (portNum port) 2 (if fecOn h (portNum port) then 4 else 3) h

def execBlockLock (port : Port) (s : State) : Host.Outcome State Fault Refusal :=
  onHub s (rxStep (portNum port) 3 4)

/-- ALIGN_LOCK (R124): a skew above 80 ns does not lock. -/
def execAlignLock (port : Port) (skew : Nat) (s : State) : Host.Outcome State Fault Refusal :=
  onHub s fun h =>
    let p := portNum port
    if rxState h p = 4 ∧ skew ≤ 80 then setRx p (if fecOn h p then 5 else 6) (wr h (0x4100_06 + p) skew) else h

def execFecLock (port : Port) (s : State) : Host.Outcome State Fault Refusal :=
  onHub s (rxStep (portNum port) 5 6)

/-- A hello tells whether this hub's transmit direction on its port has failed (R133), whichever port sent it. -/
def remoteMark (p : Nat) (remoteFault : Bool) (h : Hub) : Hub := wr h 0x4100_03 (setBit (rd h 0x4100_03) (2 + p) remoteFault)

/-- A valid hello (R129): HELLO goes to LOCKED; neighbour and remote-fault mark are updated (R133). -/
def validHello (p : Nat) (remoteFault : Bool) (hub : Nat) (h : Hub) : Hub :=
  let a := setLink h p { link h p with miswire := false }
  ringUpdate (wakeProductive (28 + p) (rxStep p 6 7 (remoteMark p remoteFault (wr a (0x4100_08 + p) (hub % 256)))))

/-- A hello that names the receiving port (R130): EV_RING_MISWIRE on the first and every 60 s. -/
def miswiredHello (p : Nat) (h : Hub) : Hub :=
  if rxState h p ≠ 6 then h
  else
    let a := setLink h p { link h p with miswire := true, miswireAt := nowNs h }
    if (link h p).miswire then raiseLimited a 0x09 p 0 0 60000000000
    else raiseLimited { a with watch := { a.watch with rates := tabErase a.watch.rates ((0x09 * 65536 + p) * 256) } }
      0x09 p 0 0 60000000000

/-- HELLO_RECEIVED (R129): version 0x1 and the opposite port make it valid. A hello of another format version does nothing, whichever
port it names: its port field may not mean a port (DESIGN CHOICE, assumption log 67). -/
def helloReceived (p version : Nat) (sender : Port) (remoteFault : Bool) (hub : Nat) (h : Hub) : Hub :=
  if rxState h p < 6 ∨ version ≠ 1 then h
  else if portNum sender = p then ringUpdate (miswiredHello p (remoteMark p remoteFault h))
  else validHello p remoteFault hub h

def execHelloReceived (port : Port) (version : Nat) (sender : Port) (remoteFault : Bool) (hub : Nat) (s : State) :
    Host.Outcome State Fault Refusal :=
  onHub s (helloReceived (portNum port) version sender remoteFault hub)

/-- Miswired hellos keep arriving, at least one in every 50 µs (R130). -/
def miswiring (h : Hub) (p : Nat) : Bool := (link h p).miswire && decide (nowNs h < (link h p).miswireAt + 50000)

/-- LINK_STATE_TIMEOUT (R128): a training state returns to DOWN; HELLO does not time out while miswired hellos keep arriving. -/
def execLinkStateTimeout (port : Port) (s : State) : Host.Outcome State Fault Refusal :=
  onHub s fun h =>
    let p := portNum port
    let st := rxState h p
    if 2 ≤ st ∧ st ≤ 6 ∧ ¬ (st = 6 ∧ miswiring h p) then setRx p 1 (setLink h p { link h p with miswire := false }) else h

/-- HOLD_DOWN_EXPIRY (R128, R132, R166). -/
def holdDownExpiry (p : Nat) (h : Hub) : Hub :=
  if rxState h p ≠ 7 then h
  else
    let a := setRx p 8 h
    let b := whenDo ((link h p).downSent && hubNumber a != 0 && sendsOwn a) (ringControl 5 [p * 2 ^ 47 + 2 ^ 46]) a
    let c := setLink b p { link b p with downSent := false }
    ringUpdate (raiseEvent c 0x0A p (link c p).highest)

def execHoldDownExpiry (port : Port) (s : State) : Host.Outcome State Fault Refusal :=
  onHub s (holdDownExpiry (portNum port))

/-- The hello of a port (R129): version 1, the port, remote fault while its receive direction is neither LOCKED nor UP,
the hub number. -/
def helloWord (h : Hub) (p : Nat) : Nat :=
  0x4B + 0x0100 + 2 ^ 16 + p * 2 ^ 20 + b2n (!rxRuns h p) * 2 ^ 21 + hubNumber h * 2 ^ 24

/-- HELLO_SEND (R128): while the SerDes run and the port's lanes are not stopped. -/
def execHelloSend (port : Port) (s : State) : Host.Outcome State Fault Refusal :=
  onHub s fun h =>
    let p := portNum port
    if rxState h p = 0 ∨ (link h p).stopped then h
    else setLink h p { link h p with helloSent := some (helloWord h p) }

/-- LINK_TRAIN_FAIL_TIMER (R132): from DOWN to HELLO the direction is short of LOCKED; in OFF it is not training and raises nothing
(DESIGN CHOICE, assumption log 67). -/
def execLinkTrainFailTimer (port : Port) (s : State) : Host.Outcome State Fault Refusal :=
  onHub s fun h =>
    let p := portNum port
    if 1 ≤ rxState h p ∧ rxState h p ≤ 6 then raiseEvent h 0x0C p (link h p).highest else h

/-- A cause of Table 11 acts at a port: invalid sync headers are a cause only with FEC off; 50 µs without a valid hello are one only once a
valid hello has come, since before that they are every training direction's, and HELLO has its own timeout (R128, R130; DEDUCED, assumption
log 67). -/
def failureCounts (h : Hub) (p : Nat) (cause : LinkCause) : Bool :=
  match cause with
  | .sync => !fecOn h p
  | .hello => rxRuns h p
  | .signal | .align => true

/-- LINK_FAILURE (R165, R166). -/
def execLinkFailure (port : Port) (cause : LinkCause) (s : State) : Host.Outcome State Fault Refusal :=
  onHub s fun h =>
    if rxState h (portNum port) = 0 ∨ failureCounts h (portNum port) cause = false then h else linkDown (portNum port) 1 h

/-- ERROR_TAKEDOWN (R127, R165): errors of one second above 0x2100:08; with FEC on they are uncorrectable codewords, which are counted
beside the corrected ones. -/
def execErrorTakedown (port : Port) (found : ErrorCount) (s : State) : Host.Outcome State Fault Refusal :=
  onHub s fun h =>
    let p := portNum port
    let a := whenDo (fecOn h p) (fun g => bumpBy (bumpBy g (0x4100_11 + p) found.errors) (0x4100_0F + p) found.corrected) h
    if rd h 0x2100_08 < found.errors ∧ rxState h p ≠ 0 then raiseEvent (linkDown p 1 a) 0x0D p 0 else a

/-! ### Frames received (R139, R148 to R155) -/

/-- Classes Table 8 allows for a type; reserved types allow none. -/
def typeAllows (t : Nat) (c : Cls) : Bool :=
  match t with
  | 0x0 => c == .cy
  | 0x1 => c == .ur || c == .bk
  | 0x2 => c != .cy
  | 0x3 => c != .cy
  | 0x4 => c == .mg
  | 0x5 => c == .mg
  | 0x6 => c == .ur
  | 0x7 => c == .mg
  | 0x8 => c == .ur
  | 0x9 => c == .bk || c == .mg
  | 0xA => c == .bk
  | _ => false

/-- The format check of R151: version, length (R134) and Table 8. R151 does not name Table 5's conditions among the checks: a frame
that is confidential and not secured, to a GROUP with another destination than 255, or of source 0 outside CLAIM frames is
discarded and counted as a format error too (DESIGN CHOICE, assumption log 67). -/
def formatOk (f : Frame) (check : FrameCheck) : Bool :=
  f.version == 1 && check.bytes == frameBytes f && decide (1 ≤ f.payload.length ∧ f.payload.length ≤ 256)
    && typeAllows f.ftype f.cls && (!f.confidential || f.secured)
    && (!f.multicast || f.dst == 255) && (f.src != 0 || (f.ftype == 5 && f.specific / 256 == 2))

/-- How the blocks of a frame end (R123, R127, R145). -/
inductive Arrival where
  | underway
  | whole (marked : Bool)
  | broken
deriving DecidableEq, Repr

/-- Read the blocks after START: `susp` is the number of the last PAUSE while the frame is suspended, `marked` whether a block of the
frame was marked as an error. A CONT out of turn, a PAUSE in an express frame, an ERROR block and a control block of an unknown type break
the frame (R123, R145); so does any START before the frame's end, where R145 names only a preemptable one while a frame is suspended (DESIGN
CHOICE, assumption log 67). -/
def arrival (express : Bool) : Option Nat → Bool → List FrameBlock → Arrival
  | _, _, [] => .underway
  | susp, marked, b :: rest =>
    match b, susp with
    | .marked, none => arrival express none true rest
    | .marked, some k => arrival express (some k) marked rest
    | .pause k, none => if express then .broken else arrival express (some k) marked rest
    | .pause _, some k => arrival express (some k) marked rest
    | .cont j, some k => if j = (k + 1) % 8 then arrival express none marked rest else .broken
    | .cont _, none => .broken
    | .start, _ => .broken
    | .fin _, none => .whole marked
    | .fin _, some k => arrival express (some k) marked rest
    | .error, _ => .broken
    | .other, _ => .broken

/-- The CRC a port received is that of the frame, and no block of it was marked as an error (R127, R135). -/
def crcOk (f : Frame) (check : FrameCheck) (marked : Bool) : Bool := check.crc == frameCrc f && !marked

/-- A frame accepted at a ring port crosses from the port's receive island and waits for Belfry; a secured frame waits on its way to
Dome. -/
def arrive (p : Nat) : Frame → Hub → Hub :=
  sendOver (4 + p) 0 fun f h => { h with ring := { h.ring with arrived := h.ring.arrived ++ [(p, f)] } }

/-- The checks of R151 for a frame to deliver. Time frames go to Spire and enter no queue of Belfry (R177, Table 3 of Belfry switching
and buffers). A secured frame is verified by Dome, and passes the duplicate check, in OPEN_FRAME (R177). -/
def deliver (p : Nat) (f : Frame) (check : FrameCheck) (marked : Bool) (h : Hub) : Hub :=
  if ¬ crcOk f check marked then bump h 0x4100_0A
  else if ¬ formatOk f check then bump h 0x4100_0E
  else if f.ftype = 6 then h
  else if f.secured then arrive p f h
  else match openFrame f h with
    | (none, a) => a
    | (some g, a) =>
      let d := dupCheck g a
      if d.1 then arrive p g d.2 else d.2

/-- The transit copy of a frame that has arrived to its END: it goes on with the CRC part the frame came with, and ends with ERROR where a
block was marked (R36, R150). One that has been on its way since the frame's START (R149) learns both now. -/
def passOn (p : Nat) (f : Frame) (hop crc : Nat) (marked : Bool) (h : Hub) : Hub :=
  if isArriving h p f then changeCopy p f (fun c => { c with crc := some crc, error := marked }) h
  else forward p hop marked (some crc) f h

/-- A frame has arrived to its END: stripped, delivered, forwarded (R148). A frame for hub 0 is neither delivered nor, at a hub
without a number, forwarded. -/
def frameArrived (p : Nat) (f : Frame) (hop : Nat) (check : FrameCheck) (marked : Bool) (h : Hub) : Hub :=
  if ownFrame h f then whenDo (f.dst != 255) (fun g => bump g 0x4100_15) h
  else
    let a := whenDo (takesCopy h f) (deliver p f check marked) h
    if f.dst = hubNumber h then a else passOn p f hop check.crc marked a

/-- The start of a frame has arrived, its end has not: its transit copy goes on at once (R149, cut-through). -/
def frameBegins (p : Nat) (f : Frame) (hop : Nat) (h : Hub) : Hub :=
  if isArriving h p f then h
  else
    let a := setLink h p { link h p with arriving := (link h p).arriving ++ [(f, hop)] }
    if endsHere h f then a else forward p hop false none f a

/-- A time frame for this hub has arrived whole and passed the checks of a ring port: the port hands it to Spire (R151, R177, R368). -/
def timeFrameHere (p : Nat) (f : Frame) (check : FrameCheck) (h : Hub) : Bool :=
  rxRuns h p && f.ftype == 6 && takesCopy h f && formatOk f check
    && match arrival (isExpress f) none false check.blocks with
      | .whole marked => crcOk f check marked
      | _ => false

/-- A frame received at a ring port (R145, R148, R149): one whose end has not come is kept as arriving; a broken one is discarded, counted as a format
error, and its forwarded copy ends with ERROR. R123 counts no frame that a control block of an unknown type aborts; it is counted as a
format error too (DESIGN CHOICE, assumption log 67). -/
def frameReceive (p : Nat) (f : Frame) (hop : Nat) (check : FrameCheck) (h : Hub) : Hub :=
  if ¬ rxRuns h p then h
  else match arrival (isExpress f) none false check.blocks with
    | .underway => frameBegins p f hop h
    | .broken => arrived p f (forwardBroken p (f, hop) (bump h 0x4100_0E))
    | .whole marked => arrived p f (frameArrived p f hop check marked h)

/-- OPEN_FRAME (R611): Dome's procedure, then the duplicate check; an accepted frame crosses to Belfry and enters it at the Dome port. -/
def openAndDeliver (f : Frame) (h : Hub) : Hub :=
  match openFrame f h with
  | (none, a) => a
  | (some g, a) =>
    let d := dupCheck g a
    if d.1 then sendOver 0x12 0 (fun x b => enqueue b 5 x) g d.2 else d.2

def execOpenFrame (frame : Frame) (s : State) : Host.Outcome State Fault Refusal := onHub s (domeTakes openAndDeliver frame)

/-! ### Frames sent (R142 to R147) -/

/-- A frame goes on the link with its START (R140, R141). -/
def startFrame (x : TxFrame) (q : Tx) : Tx :=
  { q with onLink := some { item := x, fragment := 0, offset := 0 }, line := q.line ++ [.start x.hop (isExpress x.frame)] }

/-- The suspended frame resumes with the next fragment (R143, R144). -/
def resumeFrame (g : Sending) (q : Tx) : Tx :=
  { q with onLink := some { g with fragment := (g.fragment + 1) % 8 }, suspended := none,
           line := q.line ++ [.cont ((g.fragment + 1) % 8)] }

/-- The next frame of a direction whose link is free: express first, then the suspended one, then transit frames up to the local share
in a row, then local ones (R147). -/
def nextFrame (share : Nat) (q : Tx) : Tx :=
  match q.express, q.suspended with
  | x :: xs, _ => startFrame x { q with express := xs }
  | [], some g => resumeFrame g q
  | [], none =>
    match q.transit, q.own with
    | t :: ts, l :: ls =>
      if q.run < share then startFrame t { q with transit := ts, run := q.run + 1 } else startFrame l { q with own := ls, run := 0 }
    | t :: ts, [] => startFrame t { q with transit := ts, run := q.run + 1 }
    | [], l :: ls => startFrame l { q with own := ls, run := 0 }
    | [], [] => q

/-- A preemptable frame may be interrupted once `sent` bytes have gone: at a multiple of 48 past the start of its fragment, with 48
left, for an express frame that waits, while no other is suspended (R143, R144). -/
def interruptible (q : Tx) (g : Sending) (sent : Nat) : Bool :=
  !q.express.isEmpty && !isExpress g.item.frame && q.suspended.isNone
    && decide (sent % 48 = 0 ∧ g.offset < sent ∧ sent + 48 ≤ frameBytes g.item.frame)

/-- A direction turns to its next frame when `sent` bytes of the frame on the link have gone: that frame has ended with END, or with
ERROR (R150), or is interrupted with PAUSE; else it keeps the link. -/
def sendNext (share sent : Nat) (q0 : Tx) : Tx :=
  let q := { q0 with line := [] }
  match q.onLink with
  | none => nextFrame share q
  | some g =>
    if frameBytes g.item.frame ≤ sent then
      nextFrame share { q with onLink := none, line := [if g.item.error then .error else .fin g.fragment] }
    else if interruptible q g sent then
      nextFrame share { q with onLink := none, suspended := some { g with offset := sent }, line := [.pause g.fragment] }
    else q0

/-- Bytes of the frame on the link that can have been sent: the transit copy of a frame that is still arriving does not end before it
(R149). -/
def sentOf (h : Hub) (p sent : Nat) : Nat :=
  match (tx h p).onLink with
  | some g => if isArriving h (1 - p) g.item.frame then min sent (frameBytes g.item.frame - 1) else sent
  | none => sent

/-- A time frame of this hub whose START goes out now is stamped, at the balls (R368, R389). -/
def noteLeaving (p : Nat) (h : Hub) : Hub :=
  match (tx h p).onLink, (tx h p).line.getLast? with
  | some g, some (.start _ _) =>
    let f := g.item.frame
    if f.ftype = 6 ∧ f.src = hubNumber h then
      setLink h p { link h p with left := tabSet (link h p).left (f.specific / 256) (f.seq, stampPs h 6) } else h
  | _, _ => h

/-- FRAME_SEND (R143, R147): `sent` bytes of the frame on the link have been sent, and its port's transmit direction turns to its next frame
where it may. -/
def frameSend (p sent : Nat) (h : Hub) : Hub :=
  if rxState h p = 0 ∨ (link h p).stopped then h else noteLeaving p (setTx h p (sendNext (rd h 0x2100_06) (sentOf h p sent) (tx h p)))

def execFrameSend (point : SendPoint) (s : State) : Host.Outcome State Fault Refusal :=
  onHub s (frameSend (portNum point.port) point.sent)

/-! ### Joining (R160 to R164) -/

/-- PRESENCE_SEND (R160, Table 9). -/
def execPresenceSend (s : State) : Host.Outcome State Fault Refusal :=
  onHub s fun h =>
    if hubNumber h = 0 ∨ ¬ sendsOwn h then h
    else ringControl 1
      [roleInForce h * 2 ^ 40 + mode h * 2 ^ 32 + Config.serialNumber.toNat,
       b2n (rxUp h 0) + 2 * b2n (rxUp h 1) + 4 * b2n (!txFailed h 0) + 8 * b2n (!txFailed h 1)] h

/-- The ring map with a source heard on a ring: the copy received on one ring gives the distance on the other (R164). -/
def heardOn (ring : RingId) (src hop role md : Nat) (h : Hub) : Hub :=
  let r := { h.ring with roles := tabSet h.ring.roles src role, modes := tabSet h.ring.modes src md }
  { h with ring := match ring with
    | .b => { r with distA := tabSet h.ring.distA src (255 - hop) }
    | .a => { r with distB := tabSet h.ring.distB src (255 - hop) } }

/-- PRESENCE (R157, R164). -/
def presence (ring : RingId) (src hop role md : Nat) (h : Hub) : Hub :=
  if src = 0 ∨ src = hubNumber h ∨ 254 < src ∨ 254 < hop then h else mapChange (heardOn ring src hop role md) h

/-- PRESENCE_TIMEOUT (R164): the hub becomes unreachable on the ring. A notice of a break at it keeps the distance it had (R167). -/
def presenceTimeout (hub : Nat) (ring : RingId) (h : Hub) : Hub :=
  let ringB := ring == .b
  let downs := h.ring.downs.map fun d => if d.1 = hub ∧ d.2.1 = ringB then (d.1, d.2.1, (heard h ringB hub).getD d.2.2) else d
  let r := { (noteOthers h).ring with downs }
  ringUpdate { h with ring := match ring with
    | .a => { r with distA := tabErase h.ring.distA hub }
    | .b => { r with distB := tabErase h.ring.distB hub } }

/-- The number a hub asks for (R160). -/
def askedNumber (h : Hub) : Nat := if rd h 0x2000_0A = 0 then h.ring.before else rd h 0x2000_0A

/-- CLAIM_SEND (R160): in COMMISSION with a receive direction LOCKED, unjoined, not turned away by a conflict since entry to COMMISSION. A
claim keeps to the number it first asked for; one that asked for 0 asks for 0 again after its OFFER (DESIGN CHOICE,
assumption log 67). -/
def claimSend (h : Hub) : Hub :=
  if mode h = 2 ∧ hubNumber h = 0 ∧ (rxRuns h 0 ∨ rxRuns h 1) ∧ ¬ h.ring.conflict ∧ ¬ bench h then
    let c := h.ring.claim.getD { asked := askedNumber h, number := askedNumber h, lost := false }
    let a := { h with ring := { h.ring with claim := some c } }
    ringControl 2 [c.asked * 2 ^ 40 + rd h 0x2000_0B * 2 ^ 32 + Config.serialNumber.toNat] a
  else h

def execClaimSend (s : State) : Host.Outcome State Fault Refusal := onHub s claimSend

/-- The number the head offers a claimant: the one it got in the last 20 ms, else the lowest neither present nor offered
to another claimant in the last 20 ms. -/
def offerFor (h : Hub) (serial : Nat) : Option Nat :=
  let recent := h.ring.offers.filter fun o => decide (nowNs h < o.2.2 + 20000000)
  match recent.find? fun o => o.1 == serial with
  | some o => some o.2.1
  | none => (List.range 255).find? fun n =>
      n != 0 && !(presentHubs h).contains n && !recent.any fun o => o.2.1 == n

/-- CLAIM (R160 to R162). -/
def claimReceived (number serial : Nat) (h : Hub) : Hub :=
  let own := hubNumber h
  if number ≠ 0 ∧ number = own then ringControl 3 [number * 2 ^ 40 + serial % 2 ^ 32] h
  else if number = 0 ∧ own ≠ 0 ∧ headHub h = own then
    match offerFor h serial with
    | none => h
    | some n =>
      let fresh := h.ring.offers.filter fun o => decide (nowNs h < o.2.2 + 20000000)
      let offers := if fresh.any (fun o => o.1 == serial) then fresh else fresh ++ [(serial, n, nowNs h)]
      ringControl 4 [n * 2 ^ 40 + serial % 2 ^ 32] { h with ring := { h.ring with offers } }
  else match h.ring.claim with
    | some c =>
      if c.number ≠ 0 ∧ c.number = number ∧ serial < Config.serialNumber.toNat then
        { h with ring := { h.ring with claim := some { c with lost := true } } }
      else h
    | none => h

def execClaim (number _role serial : Nat) (s : State) : Host.Outcome State Fault Refusal :=
  onHub s (claimReceived number serial)

/-- OFFER (R160): the claimant that asks for 0 takes the number up. -/
def execOffer (number serial : Nat) (s : State) : Host.Outcome State Fault Refusal :=
  onHub s fun h =>
    match h.ring.claim with
    | some c =>
      if serial = Config.serialNumber.toNat ∧ c.asked = 0 ∧ c.number = 0 then
        { h with ring := { h.ring with claim := some { c with number } } } else h
    | none => h

/-- A hub that loses its claim (R66): hub number 0, EV_RING_NUMBER_CONFLICT, no further claim. -/
def claimLost (h : Hub) : Hub :=
  raiseEvent (wr { h with ring := { h.ring with claim := none, conflict := true } } 0x2000_09 0) 0x08 0 0

/-- CONFLICT (R66). -/
def execConflict (number serial : Nat) (s : State) : Host.Outcome State Fault Refusal :=
  onHub s fun h =>
    match h.ring.claim with
    | some c => if serial = Config.serialNumber.toNat ∧ c.number = number then claimLost h else h
    | none => h

/-- CLAIM_TIMER_EXPIRY (R160): 20 ms without a conflict, the hub takes its number, and has joined with the role that stands. -/
def claimTimerExpiry (h : Hub) : Hub :=
  match h.ring.claim with
  | none => h
  | some c =>
    if c.number = 0 then h
    else if c.lost then claimLost h
    else ringUpdate (wr { h with ring := { h.ring with claim := none, role := rd h 0x2000_0B } } 0x2000_09 c.number)

def execClaimTimerExpiry (s : State) : Host.Outcome State Fault Refusal := onHub s claimTimerExpiry

/-- LINK_STATE (R167). -/
def linkStateNotice (src : Nat) (east up : Bool) (h : Hub) : Hub :=
  if src = hubNumber h then h
  else
    let others := h.ring.downs.filter fun d => !(d.1 == src && d.2.1 == east)
    mapChange (fun g => { g with ring := { g.ring with
      downs := if up then others else others ++ [(src, east, (heard g east src).getD 0xFF)] } }) h

def execLinkState (src : Nat) (port : Port) (up : Bool) (s : State) : Host.Outcome State Fault Refusal :=
  onHub s (linkStateNotice src (portNum port == 0) up)

/-! ### Ring configuration (R170) -/

/-- Both directions of a port go back to training. -/
def retrain (p : Nat) (h : Hub) : Hub :=
  if rxState h p = 0 then h
  else
    let a := linkDown p 1 h
    setLink a p { link a p with stopped := true }

/-- RING_PORT_RETRAIN: 0x2100:01 to 0x2100:04; odd subindices East, even West. -/
def execRingPortRetrain (path : Path) (sub value : Nat) (s : State) : Host.Outcome State Fault Refusal :=
  onHub s (pathWrite path 0x2100 sub value
    (fun _ c => { c with noSub := (c.noSub || decide (sub < 1 ∨ 4 < sub)),
                         value := (c.value || decide ((if sub ≤ 2 then 1 else 255) < value)) })
    fun h => retrain ((sub + 1) % 2) (wr h (slotKey 0x2100 sub) (value % 16)))

/-- TRANSMIT_DISABLE_WRITE: a disabled port's directions go to OFF; a released one starts again. -/
def execTransmitDisableWrite (path : Path) (value : Nat) (s : State) : Host.Outcome State Fault Refusal :=
  onHub s (pathWrite path 0x2100 9 value (fun _ c => { c with value := (c.value || decide (255 < value)) })
    fun h => forEach [0, 1] (fun p a =>
      if bit value p then linkDown p 0 a
      else if rxState a p = 0 ∧ a.boot.transit ∧ ¬ bench a then setRx p 1 a else a) (wr h 0x2100_09 (value % 4)))

end Sys2Proof.Machine
end

