-- ==== Sys2Proof/Machine/Belfry.lean ====
section
/-! DEFINITION. Belfry switching and buffers (R173 to R216): output choice, admission, push-out, credits, grants, ageing,
census and locate pass. -/

namespace Sys2Proof.Machine

/-! ### Cells and credits -/

/-- Key of a port and class: 4p + c. -/
def pcKey (p c : Nat) : Nat := 4 * p + c

/-- Class number of a stored frame. -/
def Stored.cls (x : Stored) : Nat := clsNum x.frame.cls

/-- Cells a stored frame still holds. -/
def Stored.held (x : Stored) : Nat := x.cells.length - x.freed

/-- The class counter of stored cells. -/
def classCells (h : Hub) (c : Nat) : Nat := tabGet 0 h.belfry.counts c

/-- Credits an internal port holds. -/
def creditsHeld (h : Hub) (p c : Nat) : Nat := tabGet 0 h.belfry.credits (pcKey p c)

/-- Credits of a class issued and not used. -/
def creditsIssued (h : Hub) (c : Nat) : Nat := ((List.range 8).map fun p => creditsHeld h p c).sum

/-- Occupancy of a class (R182). -/
def occupancy (h : Hub) (c : Nat) : Nat := classCells h c + creditsIssued h c

/-- Reserve, quota and credit limit (R183, R184). -/
def reserve (h : Hub) (c : Nat) : Nat := rd h (0x2201_01 + c)
def quota (h : Hub) (c : Nat) : Nat := rd h (0x2202_01 + c)
def creditLimit (h : Hub) (p c : Nat) : Nat := if p < 2 then 0 else rd h (0x2205_01 + pcKey p c)

/-- The ring part of a class's reserve (R186). -/
def ringPart (h : Hub) (c : Nat) : Nat := reserve h c - ((List.range 8).map fun p => creditLimit h p c).sum

/-- Head and tail of the free list (R217), which holds the cells that are not taken in the order of their numbers. -/
def freeHead (h : Hub) : Option Nat := (List.range (h.belfry.taken.length + 1)).find? fun c => decide (c < 32768) && !h.belfry.taken.contains c
def freeTail (h : Hub) : Option Nat := ((List.range (h.belfry.taken.length + 1)).map fun k => 32767 - k).find? fun c => !h.belfry.taken.contains c

/-! ### The arbitration tick (R219 to R221) -/

/-- Slot of channel n's health report 0x4203 + n. -/
def chKey (n sub : Nat) : Nat := slotKey (0x4203 + n) sub

def channelInit : Channel :=
  { exclusions := [], abandoned := 0, replayAt := 0, loaded := none, passed := false, copy := some [], point := none, log := [] }

def channel (h : Hub) (n : Nat) : Channel := tabGet channelInit h.channels n

def setChannel (h : Hub) (n : Nat) (x : Channel) : Hub := { h with channels := tabSet h.channels n x }

/-- Channel state (Table 6 of Belfry voting): 1 VOTING, 2 EXCLUDED, 3 SELF-TEST, 4 REPLAY, 5 PROBATION, 6 FAILED. -/
def chState (h : Hub) (n : Nat) : Nat := rd h (chKey n 1)

/-- The replay log of a channel in REPLAY records a tick (R234). -/
def logTick (t : TickReg) (h : Hub) : Hub :=
  forEach (List.range 3) (fun n g =>
    if chState g n = 4 ∧ (channel g n).log.length < 8192 then setChannel g n { channel g n with log := (channel g n).log ++ [t] } else g) h

/-- An arbitration tick registers the inputs of the control logic once for all three channels (R219): a command of Belfry works on the
inputs of one tick (DESIGN CHOICE, assumption log 60). -/
def takeTick (inputs : List TickInput) (h : Hub) : Hub :=
  let t : TickReg := { inputs, time := replica h 0, pattern := (Config.shadowPattern (BitVec.ofNat 32 h.belfry.tick.pattern)).toNat }
  logTick t { h with belfry := { h.belfry with tick := t } }

/-- The Belfry time of the tick in whole nanoseconds: every channel stamps with it (R200, R219). -/
def tickNs (h : Hub) : Nat := h.belfry.tick.time / 2 ^ 32

/-- Cells of stored frames with a charge, of one class (or of every class: 4). -/
def chargedCells (h : Hub) (charge c : Nat) : Nat :=
  ((h.belfry.stored.filter fun x => x.charge == charge && (c == 4 || x.cls == c)).map Stored.held).sum

/-- Cells of the buffer that are no one's to take from the shared pool: the reserves, and what is charged to the pool (R183). -/
def sharedTaken (h : Hub) : Nat := ((List.range 4).map (reserve h)).sum + chargedCells h 2 4

/-- Free cells of the shared pool (R183, R186). -/
def sharedFree (h : Hub) : Nat := 32768 - sharedTaken h

/-- The shared pool has `k` cells free, once `freed` of those charged to it are: not while raised reserves leave it overcharged (R186,
R188). -/
def sharedFits (h : Hub) (k freed : Nat) : Bool := decide (sharedTaken h + k ≤ 32768 + freed)

/-- Free cells: on the free list, less credits issued (0x4200:05). -/
def freeCells (h : Hub) : Nat := 32768 - h.belfry.taken.length - ((List.range 4).map (creditsIssued h)).sum

/-- Occupancy of all classes together (0x4200:1A). -/
def totalOccupancy (h : Hub) : Nat := ((List.range 4).map (occupancy h)).sum

/-- Raise an EV_BELFRY_ event at most once in a census interval for each class or port it names (R212). -/
def raiseBelfry (h : Hub) (e inst value key : Nat) : Hub :=
  if h.belfry.raised.contains (e, key) then h
  else raiseEvent { h with belfry := { h.belfry with raised := (e, key) :: h.belfry.raised } } e inst value

/-- Belfry grants nothing, admits nothing and issues no credit in a split (R227). -/
def halted (h : Hub) : Bool := rd h 0x4202_01 == 0

/-- No credit of a class is issued: in a split, or at its quota (R185, R227). -/
def creditBarred (h : Hub) (c : Nat) : Bool := halted h || decide (quota h c ≤ occupancy h c)

/-- Cells queued for output p in class c (0x4201). -/
def queuedCells (h : Hub) (p c : Nat) : Nat :=
  (h.belfry.stored.map fun x =>
    if x.cls = c then ((x.copies.filter fun y => y.1 == p).map fun y => x.cells.length - y.2).sum else 0).sum

def setCredits (p c n : Nat) (h : Hub) : Hub :=
  { h with belfry := { h.belfry with credits := tabSet h.belfry.credits (pcKey p c) n } }

/-- Issue a credit to a port. -/
def issueCredit (p c : Nat) (h : Hub) : Hub :=
  let a := setCredits p c (creditsHeld h p c + 1) h
  peak a 0x4200_1A (totalOccupancy a)

/-- Issue one withheld credit of class c while the occupancy is below the quota (R185). Which port's goes first the rule does not say:
the lowest one's (DESIGN CHOICE, assumption log 60). -/
def reissueOne (c : Nat) (h : Hub) : Hub :=
  if creditBarred h c then h
  else match (List.range 8).find? fun p => tabGet 0 h.belfry.withheld (pcKey p c) != 0 && decide (creditsHeld h p c < creditLimit h p c) with
    | none => h
    | some p =>
      issueCredit p c { h with belfry := { h.belfry with
        withheld := tabSet h.belfry.withheld (pcKey p c) (tabGet 0 h.belfry.withheld (pcKey p c) - 1) } }

/-- Issue withheld credits of a class, at most `n` of them. -/
def reissue (c : Nat) : Nat → Hub → Hub
  | 0, h => h
  | n + 1, h => reissue c n (reissueOne c h)

/-- Credits of class c withheld at every port. -/
def withheldTotal (h : Hub) (c : Nat) : Nat := ((List.range 8).map fun p => tabGet 0 h.belfry.withheld (pcKey p c)).sum

/-- A cell of a credited frame of port p left the buffer: its credit returns to that port, or is withheld where the occupancy is at the
quota (R185); a port that holds its limit already gets none back (R189). -/
def creditBack (p c : Nat) (h : Hub) : Hub :=
  if creditLimit h p c ≤ creditsHeld h p c then reissueOne c h
  else if creditBarred h c then
    { h with belfry := { h.belfry with withheld := tabSet h.belfry.withheld (pcKey p c) (tabGet 0 h.belfry.withheld (pcKey p c) + 1) } }
  else issueCredit p c h

/-- Fill every credit limit, subject to the quota: with the first credits after a reset, which come with the configuration load
(assumption log 66), and after a raised limit (R184, R189); not in a split (R227). -/
def fillCredits (h : Hub) : Hub :=
  if halted h then h
  else forEach (List.range 4) (fun c a =>
    let b := forEach (List.range 8) (fun p x =>
      let inside := ((x.belfry.stored.filter fun y => y.charge == 0 && y.input == p && y.cls == c).map Stored.held).sum
      { x with belfry := { x.belfry with
          withheld := tabSet x.belfry.withheld (pcKey p c) (creditLimit x p c - creditsHeld x p c - inside) } }) a
    reissue c (withheldTotal b c) b) h

/-! ### Output choice (R177) -/

/-- A frame's route within the hub hangs on its first payload word: the STREAM's handle, the requester port (Table 3). -/
def routedByWord (f : Frame) : Bool := f.ftype == 1 || f.ftype == 3

/-- The consumer port of a frame type (Table 3). A Canopy response goes to the requester port it carries; stream data to
the aggregate whose device the receiving FIFO serves. -/
def consumerPort (h : Hub) (f : Frame) : Nat :=
  let w0 := (f.payload.headD 0).toNat
  match f.ftype with
  | 0x0 => 7
  | 0x1 =>
    match findFifo h 1 (bits w0 22 0), findFifo h 2 (bits w0 22 0) with
    | some g, _ => fifoPort (fifo h g).consumer
    | none, some g => fifoPort (fifo h g).producer
    | none, none => 3
  | 0x2 => 7
  | 0x3 => bits w0 43 41
  | _ => 6

/-- The consumer of a frame for this hub; none where the word it is routed by is poisoned (R25). -/
def consumers (h : Hub) (f : Frame) : List Nat := if routedByWord f && f.poison.contains 0 then [] else [consumerPort h f]

/-- Ring outputs of a frame of this hub: in COMMISSION only MG and BK go to the ring (R51, Table 3). -/
def ownOutputs (h : Hub) (f : Frame) : List Nat :=
  if mode h = 2 ∧ (f.cls = .cy ∨ f.cls = .ur) then [] else ringOutputs h f

/-- The output set of a frame that entered by `p`; never its own port (R176). -/
def outputSet (h : Hub) (p : Nat) (f : Frame) : List Nat :=
  let own := hubNumber h
  let out :=
    if p < 2 then (if f.secured then [5] else consumers h f)
    else if p = 5 then (if f.src = own ∧ f.dst ≠ own then ownOutputs h f else consumers h f)
    else if f.dst = own then consumers h f
    else if sealNeeded h f ∧ ¬ f.secured then [5]
    else ownOutputs h f
  out.filter (· != p)

/-! ### Admission (R182 to R192) -/

/-- The lowest `k` cells from cell `c` on that are on the free list (`fuel` bounds the search). -/
def pickCells : Nat → Nat → Nat → List Nat → List Nat
  | 0, _, _, _ => []
  | _ + 1, _, 0, _ => []
  | fuel + 1, c, k + 1, taken =>
    if taken.contains c then pickCells fuel (c + 1) (k + 1) taken else c :: pickCells fuel (c + 1) k taken

/-- Cells for a frame, of the buffer's 32,768 (R174). Which free cells a frame gets the rules leave open: the lowest (DESIGN CHOICE,
assumption log 60). -/
def newCells (h : Hub) (k : Nat) : List Nat := (pickCells (h.belfry.taken.length + k + 1) 0 k h.belfry.taken).filter fun c => c < 32768

/-- The free list holds `k` cells: a leak, or a reserve lowered under the cells it holds, can leave fewer than the counts admit. Such a frame
is refused, or waits at its port (DESIGN CHOICE, assumption log 60). -/
def hasCells (h : Hub) (k : Nat) : Bool := (newCells h k).length == k

/-- Store a frame with its output set and charge, and note the peak occupancy. An armed injection puts its error into the first
word written. -/
def storeFrame (input charge : Nat) (outs : List Nat) (f : Frame) (h : Hub) : Hub :=
  let i := takeInjection 1 h
  let k := frameCells f
  let cells := newCells h k
  let x : Stored := { id := h.belfry.nextId, input, frame := f, cells, charge, stamp := tickNs h,
                      multi := decide (1 < outs.length), copies := outs.map fun o => (o, 0), freed := 0,
                      errors := if i.1 = 0 then [] else [(0, i.1)] }
  let a := { i.2 with belfry := { i.2.belfry with
    nextId := h.belfry.nextId + 1, stored := h.belfry.stored ++ [x], taken := h.belfry.taken ++ cells,
    counts := tabSet h.belfry.counts x.cls (classCells h x.cls + k) } }
  peak a 0x4200_1A (totalOccupancy a)

/-- A class counter falls by freed cells; the occupancy before counts for the peak since the last read (0x4200:1A). -/
def uncount (c n : Nat) (h0 : Hub) : Hub :=
  let h := peak h0 0x4200_1A (totalOccupancy h0)
  { h with belfry := { h.belfry with counts := tabSet h.belfry.counts c (classCells h c - n) } }

/-- A freed cell lets a credit return: that of a credited frame to its port, that of a ring frame to a port it was withheld from
(R185). -/
def cellFreed (x : Stored) (h : Hub) : Hub := if x.charge = 0 then creditBack x.input x.cls h else reissueOne x.cls h

/-- Replace a stored frame, or remove it with no copy left; cells every copy has read go to the free list, and credits return
(R185, R204). -/
def updateStored (x : Stored) (h : Hub) : Hub :=
  let freed := (x.copies.map (·.2)).foldl min x.cells.length
  let n := freed - x.freed
  let back := (x.cells.drop x.freed).take n
  let y := { x with freed }
  let stored := if x.copies.isEmpty then h.belfry.stored.filter (fun z => z.id != x.id)
    else h.belfry.stored.map fun z => if z.id = x.id then y else z
  let a := { h with belfry := { h.belfry with stored, taken := h.belfry.taken.filter fun c => !back.contains c } }
  forEach (List.range n) (fun _ g => cellFreed x (uncount x.cls 1 g)) a

/-- Discard a frame whole. -/
def dropStored (x : Stored) (h : Hub) : Hub := updateStored { x with copies := [] } h

/-- Victim classes in the order of Table 4. -/
def victimClasses (c : Nat) : List Nat := if c = 0 then [2, 3, 1] else if c = 1 then [2, 3] else if c = 3 then [2] else []

/-- A frame that may be pushed out (R190). -/
def Stored.pushable (x : Stored) : Bool := x.charge == 2 && x.copies.all fun y => y.2 == 0

/-- The frame to push out in a class: at the tail of the queue with most cells, lowest input then output on a tie
(R191). -/
def victimIn (h : Hub) (c : Nat) : Option Stored :=
  let ofClass := h.belfry.stored.filter fun x => x.cls == c
  let queues := (List.range 64).map fun q => (q / 8, q % 8)
  let size := fun (q : Nat × Nat) =>
    ((ofClass.filter fun x => x.input == q.1).map fun x => ((x.copies.filter fun y => y.1 == q.2).map fun y => x.cells.length - y.2).sum).sum
  let tail := fun (q : Nat × Nat) =>
    (ofClass.filter fun x => x.input == q.1 && x.pushable && x.copies.any fun y => y.1 == q.2).getLast?
  queues.foldl (fun best q =>
    match tail q, best with
    | some x, none => some (x, size q)
    | some x, some b => if b.2 < size q then some (x, size q) else some b
    | none, b => b) none |>.map (·.1)

/-- Push out frames of the victim classes until `k` shared cells are free (R191, R192). -/
def pushOut (k : Nat) (classes : List Nat) : Nat → Hub → Hub
  | 0, h => h
  | n + 1, h =>
    if sharedFits h k 0 then h
    else match classes.findSome? (victimIn h) with
      | none => h
      | some x =>
        pushOut k classes n
          (raiseBelfry (bump (dropStored x h) (0x4200_0A + x.cls)) 0x11 x.input x.cls x.cls)

/-- Cells the victim classes can free. -/
def pushableCells (h : Hub) (classes : List Nat) : Nat :=
  ((h.belfry.stored.filter fun x => x.pushable && classes.contains x.cls).map Stored.held).sum

/-- The charge of an arriving ring frame, if admitted (R186); 3 asks for push-out. -/
def ringCharge (h : Hub) (f : Frame) : Option Nat :=
  let c := clsNum f.cls
  let k := frameCells f
  if quota h c < occupancy h c + k then none
  else if chargedCells h 1 c + k ≤ ringPart h c then some 1
  else if sharedFits h k 0 then some 2
  else if sharedFits h k (pushableCells h (victimClasses c)) then some 3
  else none

/-- The stream of a frame (R153). -/
def frameStream (f : Frame) : Nat := streamKey f.src f.dst f.cls

/-- The frame in front of those a ring port has accepted, while no frame of its stream was accepted before it at the other port (R156). -/
def ringFront (h : Hub) (p : Nat) : Option Frame :=
  match (h.ring.arrived.find? fun e => e.1 == p).map (·.2) with
  | some f => if (h.ring.arrived.find? fun e => frameStream e.2 == frameStream f) = some (p, f) then some f else none
  | none => none

/-- Belfry refuses a ring frame whole (R187). -/
def refuseRing (p : Nat) (f : Frame) (h : Hub) : Hub := raiseBelfry (bump h (0x4200_07 + clsNum f.cls)) 0x10 p (clsNum f.cls) (clsNum f.cls)

/-- Belfry stores a ring frame with its charge. -/
def takeRing (p charge : Nat) (f : Frame) (h : Hub) : Hub :=
  if hasCells h (frameCells f) then storeFrame p charge (outputSet h p f) f h else refuseRing p f h

/-- Belfry admits, or refuses whole, a frame at its first cell (R186, R187). One routed by a poisoned word goes nowhere: it is discarded and
counted (R25, R207). -/
def admitRing (p : Nat) (f : Frame) (h : Hub) : Hub :=
  if (outputSet h p f).isEmpty then bump h 0x4200_17
  else match ringCharge h f with
  | none => refuseRing p f h
  | some 3 => takeRing p 2 f (pushOut (frameCells f) (victimClasses (clsNum f.cls)) h.belfry.stored.length h)
  | some g => takeRing p g f h

/-- RING_FRAME_ADMIT: the frame in front at a ring port, in the order they were accepted (R156); any other is not there to admit. -/
def ringFrameAdmit (p : Nat) (f : Frame) (h : Hub) : Hub :=
  if ringFront h p = some f then
    whenDo (!halted h) (admitRing p f) { h with ring := { h.ring with arrived := h.ring.arrived.erase (p, f) } }
  else h

def execRingFrameAdmit (port : Port) (frame : Frame) (s : State) : Host.Outcome State Fault Refusal :=
  onHub s fun h => ringFrameAdmit (portNum port) frame (takeTick [.arrival (portNum port) frame] h)

/-- A frame without an output is discarded at its port: a single-ring frame without a route, which is counted (R159, R171); one routed by a
poisoned word, counted as such (R25, R207); and a CY or UR frame of this hub in COMMISSION, which may not leave (R51): the spec gives that
one neither discard nor count, and it is discarded and not counted (DESIGN CHOICE, assumption log 60). -/
def noOutput (f : Frame) (h : Hub) : Hub :=
  if f.dst = hubNumber h then bump h 0x4200_17
  else if dualSent f || (mode h == 2 && isExpress f) then h
  else bump h 0x4100_16

/-- CREDITED_FRAME_START (R184): the frame in front at an internal port starts once the port holds a credit per cell. A port keeps one queue
over all classes, so a frame in front that is short of credits holds back those of other classes, of which the rule says nothing (DESIGN
CHOICE, assumption log 60). -/
def creditedFrameStart (p : Nat) (h : Hub) : Hub :=
  match portFrames h p with
  | [] => h
  | f :: rest =>
    let c := clsNum f.cls
    let a := { h with portQ := tabSet h.portQ p rest }
    let outs := outputSet h p f
    if p < 2 ∨ halted h then h
    else if outs.isEmpty then noOutput f a
    else if creditsHeld h p c < frameCells f ∨ hasCells h (frameCells f) = false then h
    else storeFrame p 0 outs f (setCredits p c (creditsHeld h p c - frameCells f) a)

def execCreditedFrameStart (p : Fin 8) (s : State) : Host.Outcome State Fault Refusal :=
  onHub s fun h => creditedFrameStart p (takeTick ((portFrames h p).head?.toList.map (.arrival p)) h)

/-! ### Grants (R181, R193 to R195, R199) -/

/-- Output credits of a class (Table 5). -/
def outCredit (h : Hub) (o c : Nat) : Nat := rd h (0x2206_01 + o) - tabGet 0 h.belfry.outUsed (pcKey o c)

/-- Cells granted to the copy at an output, if the frame has one there. -/
def Stored.grantedAt (x : Stored) (o : Nat) : Option Nat := (x.copies.find? fun y => y.1 == o).map (·.2)

/-- The frame an output may grant in a class: the one in progress, else the head of the next input's queue in round
robin. -/
def nextAt (h : Hub) (o c : Nat) : Option Stored :=
  let mine := h.belfry.stored.filter fun x => x.cls == c && (x.grantedAt o).isSome
  match mine.find? fun x => (x.grantedAt o).getD 0 != 0 with
  | some x => some x
  | none =>
    let last := tabGet 7 h.belfry.turn (pcKey o c)
    (List.range 8).findSome? fun k => mine.find? fun x => x.input == (last + 1 + k) % 8

/-- A class has a cell ready at an output that holds its credit. -/
def readyAt (h : Hub) (o c : Nat) : Bool := (nextAt h o c).isSome && outCredit h o c != 0

/-- Weighted round robin (R194): the class granted and the shares left. -/
def wrrChoice (h : Hub) (o : Nat) : Option (Nat × Nat × Nat) :=
  let s := tabGet (rd h 0x2204_01, rd h 0x2204_02) h.belfry.shares o
  let b := readyAt h o 2
  let m := readyAt h o 3
  if b && decide (0 < s.1) then some (2, s.1 - 1, s.2)
  else if m && decide (0 < s.2) then some (3, 0, s.2 - 1)
  else if b then some (2, rd h 0x2204_01 - 1, rd h 0x2204_02)
  else if m then some (3, 0, rd h 0x2204_02 - 1)
  else none

/-- A starvation counter of an output. -/
def starveCount (h : Hub) (o c : Nat) : Nat := tabGet 0 h.belfry.starve (pcKey o c)

/-- What an output grants: a class, whether by starvation, and the shares left where weighted round robin chose. -/
structure Choice where
  cls    : Nat
  forced : Bool
  shares : Option (Nat × Nat)
deriving DecidableEq, Repr

/-- The order of R193. Where both starvation counters are at the limit BK takes the grant first, of which R195 says nothing (DESIGN CHOICE,
assumption log 60). -/
def grantChoice (h : Hub) (o : Nat) : Option Choice :=
  let starved := fun c => readyAt h o c && decide (rd h 0x2204_03 ≤ starveCount h o c)
  if readyAt h o 0 then some { cls := 0, forced := false, shares := none }
  else if starved 2 then some { cls := 2, forced := true, shares := none }
  else if starved 3 then some { cls := 3, forced := true, shares := none }
  else if readyAt h o 1 then some { cls := 1, forced := false, shares := none }
  else (wrrChoice h o).map fun w => { cls := w.1, forced := false, shares := some w.2 }

/-- A frame has left at an output: a ring port takes it over the crossing to its transmit direction with hop count 254, where one that
arrives with a poisoned word is discarded (R207); any other port to its consumer. -/
def leave (o : Nat) (f : Frame) (h : Hub) : Hub :=
  if o < 2 then
    sendOver 0 6 (fun g a => if g.poison = [] then queueTx o true { frame := g, hop := 254, error := false, crc := none } a else bump a 0x4200_17) f h
  else { h with belfry := { h.belfry with delivered := h.belfry.delivered ++ [(o, f)] } }

/-- Errors in the words of a stored frame's cell j. -/
def Stored.errorsIn (x : Stored) (j : Nat) : List (Nat × Nat) := x.errors.filter fun e => e.1 / 32 == j

/-- A stored word's error is of two bits. -/
def isDouble (e : Nat × Nat) : Bool := e.2 % 2 == 0

/-- Cell j of a stored frame once read: its errors corrected, or turned into poison bits (R206). -/
def Stored.afterRead (x : Stored) (j : Nat) : Stored :=
  let double := (x.errorsIn j).filter fun e => isDouble e && decide (headWords x.frame ≤ e.1)
  { x with errors := x.errors.filter (fun e => e.1 / 32 != j)
           frame := { x.frame with poison := x.frame.poison ++ double.map fun e => e.1 - headWords x.frame } }

/-- Read cell j of a stored frame: corrected words are counted; an uncorrectable one is counted and raises FLT_BELFRY_BUFFER_ECC with
its cell (R206). -/
def readCell (x : Stored) (j : Nat) (h : Hub) : Hub :=
  let es := x.errorsIn j
  let a := { h with belfry := { h.belfry with stored := h.belfry.stored.map fun z => if z.id = x.id then x.afterRead j else z } }
  let b := bumpBy a 0x4200_15 (es.countP fun e => !isDouble e)
  forEach (es.filter isDouble) (fun e g =>
    (if e.2 = 2 then raiseInjected else raiseFault) 0x06 0x00 (x.cells.getD j 0) 0 (bump g 0x4200_16)) b

/-- A frame is discarded on reading cell j for an output (R207): a word of its headers is in error, or the output is East, West or Dome
and a word in the cell is poisoned. -/
def poisonStops (o : Nat) (x : Stored) (j : Nat) : Bool :=
  (x.errorsIn j).any (fun e => isDouble e && decide (e.1 < headWords x.frame))
    || ((o < 2 || o == 5) && (x.afterRead j).frame.poison.any fun k => (k + headWords x.frame) / 32 == j)

/-- Grant one cell of a frame at an output. -/
def grantCell (o : Nat) (x0 : Stored) (h0 : Hub) : Hub :=
  let j := (x0.grantedAt o).getD 0
  let h := if (x0.errorsIn j).isEmpty then h0 else readCell x0 j h0
  let x := if (x0.errorsIn j).isEmpty then x0 else x0.afterRead j
  if poisonStops o x0 j then bump (dropStored x h) 0x4200_17
  else
    let k := pcKey o x.cls
    let a := { h with belfry := { h.belfry with
      outUsed := tabSet h.belfry.outUsed k (tabGet 0 h.belfry.outUsed k + 1), turn := tabSet h.belfry.turn k x.input } }
    if j + 1 < x.cells.length then
      updateStored { x with copies := x.copies.map fun y => if y.1 = o then (o, j + 1) else y } a
    else leave o x.frame (updateStored { x with copies := x.copies.filter fun y => y.1 != o } a)

/-- Starvation counters of BK and MG after an output's choice (R195). -/
def starveStep (o : Nat) (granted : Option Nat) (was : Nat → Bool) (h : Hub) : Hub :=
  forEach [2, 3] (fun c a =>
    let n := if granted = some c then 0 else if was c then starveCount a o c + 1 else starveCount a o c
    { a with belfry := { a.belfry with starve := tabSet a.belfry.starve (pcKey o c) n } }) h

/-- One output's grant of a cell time. -/
def grantOutput (o : Nat) (h : Hub) : Hub :=
  let was := readyAt h o
  match grantChoice h o with
  | none => h
  | some ch =>
    match nextAt h o ch.cls with
    | none => h
    | some x =>
      let a := grantCell o x h
      let b := whenDo ch.forced (fun g => bump g (0x4200_16 + ch.cls)) a
      let c := match ch.shares with
        | some s => { b with belfry := { b.belfry with shares := tabSet b.belfry.shares o s } }
        | none => b
      starveStep o (some ch.cls) was c

/-- CELL_GRANT (R193): each output grants one cell. -/
def cellGrant (h : Hub) : Hub := if halted h then h else forEach (List.range 8) grantOutput h

def execCellGrant (s : State) : Host.Outcome State Fault Refusal := onHub s fun h => cellGrant (takeTick [] h)

/-- OUTPUT_CREDIT_RETURN (R199). -/
def outputCreditReturn (p c : Nat) (h : Hub) : Hub :=
  { h with belfry := { h.belfry with outUsed := tabSet h.belfry.outUsed (pcKey p c) (tabGet 0 h.belfry.outUsed (pcKey p c) - 1) } }

def execOutputCreditReturn (p : Fin 8) (cls : Cls) (s : State) : Host.Outcome State Fault Refusal :=
  onHub s fun h => outputCreditReturn p (clsNum cls) (takeTick [.credit p (clsNum cls)] h)

/-! ### Ageing (R200 to R205) -/

/-- A stored frame's life is over. -/
def agedOut (h : Hub) (x : Stored) : Bool := decide (x.stamp + rd h (0x2203_01 + x.cls) * 1000 ≤ tickNs h)

/-- An aged copy is discarded, and counted and reported by kind (R202, R205). -/
def ageCopy (o : Nat) (x : Stored) (h : Hub) : Hub :=
  let a := updateStored { x with copies := x.copies.filter fun y => y.1 != o } h
  if x.multi then raiseBelfry (bump a 0x4200_12) 0x13 o (x.frame.src + 256 * x.cls) o
  else raiseBelfry (bump a (0x4200_0E + x.cls)) 0x12 o x.cls x.cls

/-- The head of one queue (input i, output o, class c) and what follows it, while aged out and not started. -/
def ageQueue (i o c : Nat) : Nat → Hub → Hub
  | 0, h => h
  | n + 1, h =>
    match h.belfry.stored.find? fun x => x.input == i && x.cls == c && (x.grantedAt o).isSome with
    | none => h
    | some x => if x.grantedAt o = some 0 ∧ agedOut h x then ageQueue i o c n (ageCopy o x h) else h

/-- AGEING_SCAN (R201): the head of every queue. -/
def ageingScan (h : Hub) : Hub :=
  if halted h then h
  else forEach (List.range 256) (fun q a => ageQueue (q / 32) (q / 4 % 8) (q % 4) a.belfry.stored.length a) h

def execAgeingScan (s : State) : Host.Outcome State Fault Refusal := onHub s fun h => ageingScan (takeTick [] h)

/-! ### Buffer integrity (R208 to R211) -/

/-- A class counter that differs from its recount is set to it, the difference counted (R209). -/
def recountClass (c n : Nat) (h0 : Hub) : Hub :=
  let old := classCells h0 c
  let h := peak h0 0x4200_1A (totalOccupancy h0)
  if old = n then h0
  else bumpBy { h with belfry := { h.belfry with counts := tabSet h.belfry.counts c n } } 0x4200_14 ((old - n) + (n - old))

/-- Cells held by stored frames, of one class or of every class. -/
def heldCells (h : Hub) (c : Option Nat) : Nat :=
  ((h.belfry.stored.filter fun x => c.isNone || c == some x.cls).map Stored.held).sum

/-- What upsets have done since the last census or pass: cells lost from the free list, class counters gone wrong. -/
def upset (lost skew : List Nat) (h : Hub) : Hub :=
  { h with belfry := { h.belfry with
    taken := h.belfry.taken ++ (lost.eraseDups.filter fun c => !h.belfry.taken.contains c)
    counts := (skew.zipIdx).foldl (fun t e => tabSet t e.2 e.1) h.belfry.counts } }

/-- The error that an upset of a buffer word puts into a stored frame, if the word is its. -/
def Stored.upsetBy (x : Stored) (w : Nat × Nat × Bool) : Option (Nat × Nat) :=
  match x.cells.findIdx? (fun c => c == w.1) with
  | some j => if x.freed ≤ j ∧ 32 * j + w.2.1 < frameWords x.frame then some (32 * j + w.2.1, if w.2.2 then 4 else 3) else none
  | none => none

/-- Words of stored frames that upsets have put in error: cell, word of the cell, whether two bits (R206). -/
def upsetWords (words : List (Nat × Nat × Bool)) (h : Hub) : Hub :=
  { h with belfry := { h.belfry with stored := h.belfry.stored.map fun x => { x with errors := x.errors ++ words.filterMap (x.upsetBy) } } }

/-- The census itself (R208 to R211): the cells of stored frames and of the free list, with those linked twice, and each class's
recount. -/
def census (twice : Nat) (h : Hub) : Hub :=
  let counted := heldCells h none + (32768 - h.belfry.taken.length) + twice
  let a := forEach (List.range 4) (fun c g => recountClass c (heldCells h (some c)) g)
    { h with belfry := { h.belfry with raised := [] } }
  if counted = 32768 then causeGone 0x07 { a with belfry := { a.belfry with locating := none } }
  else if counted < 32768 then { a with belfry := { a.belfry with locating := some none } }
  else raiseFault 0x07 0x00 counted 0 (bump a 0x4200_14)

/-- BUFFER_CENSUS: its operands are the upsets that the buffer and its control memory have suffered, not what the census finds. -/
def execBufferCensus (upsets : CellUpset) (skew : List Nat) (s : State) : Host.Outcome State Fault Refusal :=
  onHub s fun h => census upsets.twice (upsetWords upsets.words (upset upsets.lost skew (takeTick [] h)))

/-- Cells reachable neither from a stored frame nor from the free list. -/
def unmarked (h : Hub) : List Nat :=
  h.belfry.taken.filter fun c => !h.belfry.stored.any fun x => (x.cells.drop x.freed).contains c

/-- LOCATE_PASS (R210): the first pass notes its unmarked cells; the repeat returns those unmarked in both to the free list. -/
def locatePass (h : Hub) : Hub :=
  match h.belfry.locating with
  | none => h
  | some none => { h with belfry := { h.belfry with locating := some (some (unmarked h)) } }
  | some (some first) =>
    let leaked := first.filter fun c => (unmarked h).contains c
    let a := { h with belfry := { h.belfry with locating := none, taken := h.belfry.taken.filter fun c => !leaked.contains c } }
    if leaked.isEmpty then a else raiseBelfry (bumpBy a 0x4200_13 leaked.length) 0x14 0 leaked.length 0

/-- LOCATE_PASS: its operand is the cells that upsets have lost from the free list since, not what the pass finds. -/
def execLocatePass (lost : List Nat) (s : State) : Host.Outcome State Fault Refusal :=
  onHub s fun h => locatePass (upset lost [] (takeTick [] h))

end Sys2Proof.Machine
end

