-- ==== Sys2Proof/Machine/Objects.lean ====
section
/-! DEFINITION. Canopy addresses, the map, residences, Canopy memory and the operations on objects (R248 to R260, R271 to
R273). -/

namespace Sys2Proof.Machine

/-! ### Addresses (R248, R253) -/

def isLogical (a : Nat) : Bool := bit a 47
def addrHub (a : Nat) : Nat := bits a 46 39
def addrHandle (a : Nat) : Nat := bits a 46 24
def addrOffset (a : Nat) : Nat := bits a 23 0
def addrLocal (a : Nat) : Nat := bits a 38 0
def handleHome (h : Nat) : Nat := bits h 22 15
def handleSlot (h : Nat) : Nat := bits h 14 3
def handleGen (h : Nat) : Nat := bits h 2 0


/-! ### Map and residences (R257 to R259) -/

/-- A FREE map entry. -/
def mapInit : MapEntry := { state := 0, kind := 0, hgen := 0, bgen := 0, holder := 0, base := 0, length := 0 }

def mapEntry (h : Hub) (slot : Nat) : MapEntry := tabGet mapInit h.canopy.map slot

/-- FLT_CANOPY_MAP_ECC is gone once the last entry with an error is rewritten or removed; `was` is what held such an error before. -/
def mapMended (was : Bool) (h : Hub) : Hub :=
  whenDo (was && h.canopy.badMap.isEmpty && h.canopy.badRes.isEmpty) (causeGone 0x0B) h

/-- Write a map entry: an uncorrectable error of the old words ends, an injected one begins (R260, R710). -/
def setMap (slot : Nat) (e : MapEntry) (h : Hub) : Hub :=
  let i := takeInjection 3 h
  let bad := h.canopy.badMap.filter (· != slot)
  mapMended (h.canopy.badMap.contains slot) { i.2 with canopy := { i.2.canopy with
    map := tabSet h.canopy.map slot e, badMap := if i.1 = 2 then slot :: bad else bad } }

/-- Map entry word 0 (Table 3). -/
def mapWord0 (e : MapEntry) : Nat :=
  e.state * 2 ^ 46 + e.kind % 8 * 2 ^ 43 + e.hgen % 8 * 2 ^ 40 + e.bgen % 256 * 2 ^ 32 + e.holder % 256 * 2 ^ 24
    + e.base % 2 ^ 20

/-- Requests held for a map entry. -/
def heldFor (h : Hub) (slot : Nat) : Nat := h.canopy.held.countP fun x => x.1 == slot

/-- Map entry word 1 (Table 3). -/
def mapWord1 (h : Hub) (slot : Nat) : Nat := heldFor h slot * 2 ^ 39 + (mapEntry h slot).length % 2 ^ 22

/-- The handle of a slot's object homed here. -/
def slotHandle (h : Hub) (slot : Nat) : Nat := handleOf (hubNumber h) slot (mapEntry h slot).hgen

/-- The residence of a handle. -/
def residence (h : Hub) (handle : Nat) : Option Residence := h.canopy.residences.find? fun r => r.handle == handle

/-- Write a residence entry; the residence table takes injected errors as the Canopy map does (R260, R710; assumption log 22). -/
def setResidence (r : Residence) (h : Hub) : Hub :=
  let i := takeInjection 3 h
  let bad := h.canopy.badRes.filter (· != r.handle)
  mapMended (h.canopy.badRes.contains r.handle) { i.2 with canopy := { i.2.canopy with
      badRes := if i.1 = 2 then r.handle :: bad else bad
      residences := if (residence h r.handle).isSome then h.canopy.residences.map fun x => if x.handle = r.handle then r else x
        else h.canopy.residences ++ [r] } }

def dropResidence (handle : Nat) (h : Hub) : Hub :=
  mapMended (h.canopy.badRes.contains handle) { h with canopy := { h.canopy with
    badRes := h.canopy.badRes.filter (· != handle)
    residences := h.canopy.residences.filter fun x => x.handle != handle } }

/-- The map or residence entry that an access to a handle needs has an uncorrectable error: its index, and 0 for the map, 1 for a
residence (R260). -/
def entryError (h : Hub) (handle : Nat) : Option (Nat × Nat) :=
  if handleHome handle = hubNumber h then
    if h.canopy.badMap.contains (handleSlot handle) then some (handleSlot handle, 0) else none
  else if h.canopy.badRes.contains handle then (h.canopy.residences.findIdx? fun r => r.handle == handle).map fun i => (i, 1)
  else none

/-! ### Definitions (R289, R290, R358) -/

/-- Field f of the definition of slot s. -/
def defKey (s f : Nat) : Nat := slotKey (0x3800 + s / 16) (16 * (s % 16) + f)

/-- The capture selector of slot s. -/
def selectorKey (s : Nat) : Nat := slotKey (0x2440 + s / 128) (s % 128 + 1)

/-- The FIFO settings of slot s (R467). -/
def fifoSettingKey (s : Nat) : Nat := slotKey (0x2710 + s / 128) (s % 128 + 1)

/-- Field f of rule record r. -/
def ruleKey (r f : Nat) : Nat := slotKey (0x2460 + r / 32) (6 * (r % 32) + f)

/-- The rule record of a REFLEX. -/
def ruleFields (h : Hub) (r : Nat) : List Nat := (List.range 6).map fun f => rd h (ruleKey r (f + 1))

/-- Kind in a definition: 7 none. -/
def defKind (h : Hub) (s : Nat) : Nat := bits (rd h (defKey s 1)) 2 0

/-- What a holder needs of slot s's definition. -/
def ownDef (h : Hub) (s : Nat) : ObjDef :=
  { sizeA := rd h (defKey s 3), sizeB := rd h (defKey s 4), source := rd h (defKey s 5), consumer := rd h (defKey s 6),
    options := rd h (defKey s 12), selector := rd h (selectorKey s),
    fifo := rd h (fifoSettingKey s), rule := if defKind h s = 6 then ruleFields h (rd h (defKey s 3)) else [],
    pins := (List.range 4).map fun k => rd h (defKey s (7 + k)) }

def noDef : ObjDef :=
  { sizeA := 0, sizeB := 0, source := 0, consumer := 0, options := 0, selector := 0, fifo := 0, rule := [], pins := [] }

/-- The definition and Placement field of a slot that are in force: what is written later acts from a placement run on (R292). -/
def boundDef (h : Hub) (s : Nat) : ObjDef × Nat := tabGet (ownDef h s, rd h (defKey s 11)) h.forester.defs s

/-- The definition of an object held here. -/
def heldDef (h : Hub) (handle : Nat) : ObjDef :=
  if handleHome handle = hubNumber h then (boundDef h (handleSlot handle)).1
  else match residence h handle with
    | some r => r.defn
    | none => noDef

/-! ### Canopy memory (R33, R35, R250) -/

/-- Words of Canopy memory. -/
def memWords : Nat := 1048576

/-- What a byte of Canopy memory reads as before anything writes it (assumption log 6). -/
def memDefault (_ : Nat) : Byte := 0

/-- A byte of the local address space; bytes 6 and 7 of a slot read 0 (R35). -/
def memByte (m : List Host.Cell) (a : Nat) : Byte := if 6 ≤ a % 8 then 0 else cellGet memDefault m a

/-- Write a byte; writes to bytes 6 and 7 of a slot are ignored (R35). -/
def memSet (m : List Host.Cell) (a : Nat) (b : Byte) : List Host.Cell := if 6 ≤ a % 8 then m else cellSet memDefault m a b

/-- The canonical form of Canopy memory. -/
def Memory.wf (m : List Host.Cell) : Bool := cellsWf memDefault m

/-- The word at word index w. -/
def memWord (m : List Host.Cell) (w : Nat) : Word :=
  BitVec.ofNat 48 (bytesNat ((List.range 6).map fun k => memByte m (8 * w + k)))

/-- Write the bytes of word w that `mask` enables. -/
def memPut (m : List Host.Cell) (w : Nat) (v : Word) (mask : Nat) : List Host.Cell :=
  (List.range 6).foldl (fun m k => if bit mask k then memSet m (8 * w + k) (wordByte v k) else m) m

/-- Read a word with its poison bit. -/
def readWord (h : Hub) (w : Nat) : Word × Bool := (memWord h.canopy.mem w, h.canopy.poison.contains w)

/-- Write a word, whole or in part (R34): a whole write stores it unpoisoned; an injected double-bit error leaves it
uncorrectable, which a reader sees as poison (R710). -/
def writeWord (w : Nat) (v : Word) (mask : Nat) (h : Hub) : Hub :=
  let i := takeInjection 4 h
  let clean := if mask % 64 = 63 then h.canopy.poison.filter (· != w) else h.canopy.poison
  { i.2 with canopy := { i.2.canopy with
      mem := memPut h.canopy.mem w v mask
      poison := if i.1 = 2 ∧ ¬ clean.contains w then w :: clean else clean } }

/-- Write words in order from word index w. -/
def writeWords (w : Nat) : List Word → Hub → Hub
  | [], h => h
  | v :: vs, h => writeWords (w + 1) vs (writeWord w v 63 h)

/-! ### Performing an operation (R255, R256, R268, R271 to R273) -/

/-- What an operation answers: a status of Table 6 and words with their poison bits. -/
structure Done where
  status : Nat
  data   : List (Word × Bool)
deriving DecidableEq, Repr

def Done.code (c : Nat) : Done := { status := c, data := [] }

/-- Byte enables of word i of a WRITE of n words (R268). -/
def enables (r : CReq) (i : Nat) : Nat :=
  if r.count = 1 then (r.be0 &&& r.be1) % 64 else if i = 0 then r.be0 % 64 else if i + 1 = r.count then r.be1 % 64 else 63

/-- Refusals that need no object: an unknown operation, an address not on a slot, a count above 128, a CAS or FETCH-ADD
with n other than 1 or a byte disabled (R252, R268, Table 4; assumption log 20 on READ). -/
def badRequest (r : CReq) : Option Nat :=
  match r.op with
  | .other _ => some 0xD
  | op =>
    if bits r.addr 2 0 ≠ 0 ∨ r.count = 0 ∨ 128 < r.count then some 5
    else if (op == .cas || op == .fetchAdd) && (r.count != 1 || bits r.be0 5 0 != 63 || bits r.be1 5 0 != 63) then some 5
    else none

/-- A READ's answer: the requester on this hub gets poison bits, another hub status POISON and no data (R273). -/
def readDone (own : Bool) (ws : List (Word × Bool)) : Done :=
  if !own && ws.any (·.2) then .code 7 else { status := 0, data := ws }

/-- Operation on a region of Canopy memory, from word index w. An atomic on a poisoned word is not performed
(assumption log 21). -/
def performMemory (own : Bool) (w : Nat) (r : CReq) (h : Hub) : Done × Hub :=
  let old := readWord h w
  match r.op with
  | .read => (readDone own ((List.range r.count).map fun i => readWord h (w + i)), h)
  | .write =>
    (.code 0, forEach (List.range r.count) (fun i g => writeWord (w + i) (r.data.getD i 0) (enables r i) g) h)
  | .cas =>
    if old.2 then (readDone own [old], h)
    else (readDone own [old], if old.1 = r.data.getD 0 0 then writeWord w (r.data.getD 1 0) 63 h else h)
  | .fetchAdd => if old.2 then (readDone own [old], h) else (readDone own [old], writeWord w (old.1 + r.data.getD 0 0) 63 h)
  | .other _ => (.code 0xD, h)

/-- A physical access (R250, R251): `own` when this hub issues it. -/
def performPhysical (own : Bool) (r : CReq) (h : Hub) : Done × Hub :=
  if !own && r.op != .read && !rdB h 0x2301_03 then (.code 0xC, h)
  else if 8 * memWords < addrLocal r.addr + 8 * r.count then (.code 3, h)
  else performMemory own (addrLocal r.addr / 8) r h

/-- The value a SIGNAL held here contributes, by contribution slot. -/
def signalValue (h : Hub) (slot : Nat) : Word := tabGet 0 h.cyc.own slot

def setSignal (slot : Nat) (v : Word) (h : Hub) : Hub := { h with cyc := { h.cyc with own := tabSet h.cyc.own slot v } }

/-- A word with the bytes `mask` enables taken from v. -/
def mergeBytes (old v : Word) (mask : Nat) : Word :=
  BitVec.ofNat 48 (bytesNat ((List.range 6).map fun k => if bit mask k then wordByte v k else wordByte old k))

/-- Operations on a SIGNAL (Table 2): offset 0, one word; it is written only where its source is software. -/
def performSignal (base : Nat) (d : ObjDef) (r : CReq) (h : Hub) : Done × Hub :=
  let old := signalValue h base
  if addrOffset r.addr ≠ 0 ∨ r.count ≠ 1 then (.code 3, h)
  else if r.op = .read then ({ status := 0, data := [(old, false)] }, h)
  else if endKind d.source ≠ 0 then (.code 4, h)
  else match r.op with
    | .write => (.code 0, setSignal base (mergeBytes old (r.data.getD 0 0) (enables r 0)) h)
    | .cas => ({ status := 0, data := [(old, false)] }, if old = r.data.getD 0 0 then setSignal base (r.data.getD 1 0) h else h)
    | _ => ({ status := 0, data := [(old, false)] }, setSignal base (old + r.data.getD 0 0) h)

/-- Take up to n words from a FIFO's consumer end: up to the first end-marked word taken (R450), and ending before a
poisoned word, which is taken alone (R465). `taken` tells whether a word has been taken already. -/
def takeWords (f : Nat) : Nat → Bool → Hub → List (Word × Bool) × Hub
  | 0, _, h => ([], h)
  | n + 1, taken, h0 =>
    let h := readHead f h0
    match fifoHead h f with
    | none => ([], h)
    | some w =>
      if w.poison && taken then ([], h)
      else
        let a := fifoAdvance f (whenDo w.poison (fifoPoisoned f) h)
        if w.poison || w.endMark then ([(w.data, w.poison)], a)
        else
          let t := takeWords f n true a
          ((w.data, w.poison) :: t.1, t.2)

/-- Append words to a FIFO: count 6, but for the last, which takes the count c and the end mark (R450). -/
def appendWords (f c : Nat) : List Word → Hub → Hub
  | [], h => h
  | v :: vs, h =>
    appendWords f c vs (fifoStore f { data := v, poison := false, endMark := vs.isEmpty, count := if vs.isEmpty then c else 6 } h)

/-- The bytes enabled in the last word of a WRITE to a STREAM: bytes 0 to c - 1 (R450). -/
def lastCount (r : CReq) : Option Nat :=
  (List.range 7).find? fun c => decide (0 < c) && enables r (r.count - 1) == 2 ^ c - 1

/-- Operations on a STREAM's FIFO (Table 2): only an end that is software takes Canopy accesses. -/
def performStream (own : Bool) (f : Nat) (r : CReq) (h : Hub) : Done × Hub :=
  let x := fifo h f
  match r.op with
  | .read =>
    if endKind x.consumer ≠ 0 then (.code 4, h)
    else
      let t := takeWords f r.count false h
      if t.1.isEmpty then (.code 9, h) else (readDone own t.1, t.2)
  | .write =>
    if endKind x.producer ≠ 0 then (.code 4, h)
    else if heldBack h f || decide (fifoCapacity h f < fifoFill x + r.count) then (.code 0xA, h)
    else match lastCount r with
      | none => (.code 5, h)
      | some c => (.code 0, appendWords f c (r.data.take r.count) h)
  | _ => (.code 4, h)

/-- Operations on a QUEUE: messages of A words in B slots, then two pointer words, the head slot and the number of messages; a message
written with fewer words keeps the slot's other words (assumption log 22). With a poisoned pointer word nothing can be performed: a
poisoned word is no pointer (R25). -/
def performQueue (own : Bool) (base : Nat) (d : ObjDef) (r : CReq) (h : Hub) : Done × Hub :=
  let p := base + d.sizeA * d.sizeB
  let head := (readWord h p).1.toNat
  let n := (readWord h (p + 1)).1.toNat
  if (readWord h p).2 || (readWord h (p + 1)).2 then (.code 7, h)
  else match r.op with
  | .read =>
    if n = 0 then (.code 9, h)
    else
      let ws := (List.range (min r.count d.sizeA)).map fun i => readWord h (base + head % d.sizeB * d.sizeA + i)
      (readDone own ws, writeWords p [BitVec.ofNat 48 ((head + 1) % d.sizeB), BitVec.ofNat 48 (n - 1)] h)
  | .write =>
    if d.sizeA < r.count then (.code 3, h)
    else if d.sizeB ≤ n then (.code 0xA, h)
    else
      let w := base + (head + n) % d.sizeB * d.sizeA
      let a := forEach (List.range r.count) (fun i g => writeWord (w + i) (r.data.getD i 0) (enables r i) g) h
      (.code 0, writeWord (p + 1) (BitVec.ofNat 48 (n + 1)) 63 a)
  | _ => (.code 4, h)

/-- Perform a request on an object of a kind as one unit (R271): kind, base, length, definition. -/
def performObject (own : Bool) (kind base length : Nat) (d : ObjDef) (r : CReq) (h : Hub) : Done × Hub :=
  match kind with
  | 0 => performSignal base d r h
  | 1 => performStream own base r h
  | 2 => performQueue own base d r h
  | 3 =>
    if length * 8 < addrOffset r.addr + 8 * r.count then (.code 3, h)
    else performMemory own (base + addrOffset r.addr / 8) r h
  | _ => (.code 4, h)

/-! ### Traffic counts (R296) -/

/-- Payload words of a request that is performed and of its own response (R267, R269): status word, the refused address of a WRITE, data,
fill word; a WRITE of another hub that is performed has no response of its own but its flow's acknowledgement (R270). -/
def trafficWords (own fill : Bool) (r : CReq) (d : Done) : Nat :=
  2 + r.data.length
    + (if r.op = .write ∧ d.status = 0 ∧ ¬ own then 0
       else 1 + b2n (r.op == .write && d.status != 0) + d.data.length + b2n fill)

end Sys2Proof.Machine
end

