-- ==== Sys2Proof/Machine/Canopy.lean ====
section
/-! DEFINITION. Canopy requests and responses (R261 to R283): ports, flows, the home, the holder, retries, barriers,
acknowledgements and time limits; what the host bridge takes from a completed request (R576, R579, R581). -/

namespace Sys2Proof.Machine

/-! ### Reach cache (R261, R262) -/

/-- The set of a handle. -/
def reachSet (handle : Nat) : Nat := Nat.xor (bits handle 8 3) (bits handle 20 15)

def reachFind (h : Hub) (handle : Nat) : Option Translation := h.canopy.reach.find? fun t => t.handle == handle

/-- Remove a translation. -/
def reachDrop (handle : Nat) (h : Hub) : Hub :=
  { h with canopy := { h.canopy with reach := h.canopy.reach.filter fun t => t.handle != handle } }

/-- Fill or refresh a translation: most recently used first, 8 in a set. -/
def reachPut (t : Translation) (h : Hub) : Hub :=
  let rest := h.canopy.reach.filter fun x => x.handle != t.handle
  let sameSet := rest.filter fun x => reachSet x.handle == reachSet t.handle
  let rest := if 8 ≤ sameSet.length then
      match sameSet.getLast? with
      | some v => rest.erase v
      | none => rest
    else rest
  { h with canopy := { h.canopy with reach := t :: rest } }

/-- A fill word for a handle homed elsewhere fills the cache. -/
def reachFill (handle : Nat) (fill : Option CFill) (h : Hub) : Hub :=
  match fill with
  | some f =>
    if handleHome handle = hubNumber h then h
    else reachPut { handle, holder := f.holder, kind := f.kind, length := f.length, gen := f.gen } h
  | none => h

/-! ### Frames (R267, R269) -/

def opCode : COp → Nat
  | .read => 1
  | .write => 2
  | .cas => 3
  | .fetchAdd => 4
  | .other c => c

/-- Payload of a request frame (Table 4). -/
def requestWords (r : CReq) : List Word :=
  let w0 := opCode r.op * 2 ^ 44 + r.port % 8 * 2 ^ 41 + b2n r.home * 2 ^ 40 + b2n r.fill * 2 ^ 39 + r.be0 % 64 * 2 ^ 33
    + r.be1 % 64 * 2 ^ 27 + r.tag % 256 * 2 ^ 19 + (r.count - 1) % 128 * 2 ^ 11 + r.gen % 256 * 2 ^ 3
  [BitVec.ofNat 48 w0, BitVec.ofNat 48 r.addr] ++ (if r.op = .read then [] else r.data)

/-- Payload of a response frame (Table 5). -/
def responseWords (r : CResp) (gen : Nat) : List Word :=
  let n := if r.ack then r.count - 1 else r.data.length - 1
  let w0 := opCode r.op * 2 ^ 44 + r.port % 8 * 2 ^ 41 + b2n r.fill.isSome * 2 ^ 40 + r.status % 256 * 2 ^ 32
    + r.tag % 256 * 2 ^ 19 + n % 128 * 2 ^ 11 + gen % 256 * 2 ^ 3
  let fill := match r.fill with
    | some f => [BitVec.ofNat 48 (f.holder % 256 * 2 ^ 40 + f.kind % 8 * 2 ^ 37 + f.gen % 256 * 2 ^ 29 + f.length % 2 ^ 22)]
    | none => []
  let addr := if r.op = .write ∧ r.status ≠ 0 then [BitVec.ofNat 48 r.addr] else []
  [BitVec.ofNat 48 w0] ++ addr ++ r.data ++ fill

/-- Key of a flow: another hub, a requester port and a class (R274). -/
def flowKey (hub port : Nat) (c : Cls) : Nat := (hub * 8 + port) * 4 + clsNum c

/-- Number a request in its flow to hub `dest` and send it; its order number travels in header word 1 bits [39:24]. -/
def sendRequest (dest : Nat) (r : CReq) (h : Hub) : Nat × Hub :=
  let k := flowKey dest r.port r.cls
  let n := tabGet 0 h.canopy.sent k
  (n, originate { h with canopy := { h.canopy with sent := tabSet h.canopy.sent k ((n + 1) % 65536) } }
    r.port 2 r.cls dest n 0 (requestWords r))

/-- Send a response to a hub from the Canopy memory port. -/
def sendResponse (dest gen : Nat) (r : CResp) (h : Hub) : Hub := originate h 7 3 r.cls dest 0 0 (responseWords r gen)

/-- A response to a request. -/
def responseTo (h : Hub) (r : CReq) (d : Done) (fill : Option CFill) : CResp :=
  { port := r.port, tag := r.tag, src := hubNumber h, cls := r.cls, op := r.op, ack := false, status := d.status,
    count := d.data.length, data := d.data.map (·.1), fill, addr := r.addr }

/-! ### Completion at the requester (R276, R277, R281, R576, R579) -/

/-- A failed host write (R579): count, log entry, EV_HOST_WRITE_FAILED. -/
def hostWriteFailure (address requester tag status : Nat) (h : Hub) : Hub :=
  let a := pushLog (bump h 0x4A00_06) 0x4A01_01 4 8
    [address, requester % 65536 * 2 ^ 16 + tag % 256 * 2 ^ 8 + status % 256, timeSec (spireTime h), timeFrac (spireTime h)]
  raiseEvent { a with host := { a.host with logged := a.host.logged + 1 } } 0x78 0 0

/-- A failed posted write enters the requester's error log (R277). -/
def writeFailed (r : CReq) (status : Nat) (h : Hub) : Hub :=
  let a := raiseEvent (pushLog h 0x4301_01 4 16
    [r.addr, r.port * 256 + status, timeSec (replica h 0), timeFrac (replica h 0)]) 0x18 0 0
  if r.port = 2 then hostWriteFailure r.addr (tabGet 0 h.host.writers r.tag) r.tag status a else a

/-- Eight bytes of one slot returned to the host: the word, or the error pattern with a status (R575, R576). -/
def slotBytes (w : Word × Bool) : List Byte :=
  if w.2 then List.replicate 6 0xFF ++ [7, 0xFF] else natBytes 6 w.1.toNat ++ [0, 0]

def patternBytes (status : Nat) : List Byte := List.replicate 6 0xFF ++ [BitVec.ofNat 8 status, 0xFF]

/-- The slots of one piece (Table 2 of Host bridge, mode 0). -/
def pieceBytes (p : HostPiece) : List Byte :=
  match p.result with
  | some (0, ws) =>
    ((ws.take p.slots).flatMap slotBytes) ++ (List.replicate (p.slots - ws.length) (patternBytes 9)).flatten
  | some (st, _) => (List.replicate p.slots (patternBytes st)).flatten
  | none => []

/-- The status a read completes with: 0 where every slot came, 9 where fewer words than slots came, the first other status
otherwise; 7 for a poisoned word. -/
def pieceStatus (p : HostPiece) : Nat :=
  match p.result with
  | some (0, ws) => if ws.any (·.2) then 7 else if ws.length < p.slots then 9 else 0
  | some (st, _) => st
  | none => 0

/-- What the host gets for a finished read (R575, R576, R589): bytes from its offset, Unsupported Request or Completer Abort by
the read error mode, or the QSPI status byte with its data. -/
def hostAnswer (h : Hub) (x : HostRead) : Answer :=
  let st := (x.pieces.map pieceStatus).find? (· != 0) |>.getD 0
  let bs := ((x.pieces.flatMap pieceBytes).drop (x.offset % 8)).take x.length
  let hard := (x.pieces.map pieceStatus).any fun s => s != 0 && s != 9
  match x.qspi with
  | some _ =>
    let bad := (x.pieces.map pieceStatus).find? (fun s => s != 0 && s != 9)
    match bad with
    | some s => .bytes ([3, BitVec.ofNat 8 s] ++ bs)
    | none => .bytes (0 :: bs)
  | none => if st = 0 ∨ ¬ hard then .bytes bs
    else if rd h 0x2A01_03 = 0 then (if (x.pieces.map pieceStatus).contains 7 then .poisoned bs else .bytes bs)
    else if rd h 0x2A01_03 = 1 then .unsupported else .completerAbort

/-- A read's result is complete. -/
def readComplete (x : HostRead) : Bool := x.pieces.all fun p => p.result.isSome

/-- One finished read leaves: answered on PCIe; a QSPI read that was given a tag keeps its result for READ RESULT. Reads with
an error are counted. -/
def hostDeliver (x : HostRead) (h : Hub) : Hub :=
  let a := whenDo (x.pieces.any fun p => pieceStatus p != 0) (fun g => bump g 0x4A00_07) h
  let b := whenDo (hostAnswer h x == .unsupported) (fun g => bump g 0x4A00_0B) a
  match x.qspi, hostAnswer h x with
  | some q, .bytes bs => { b with host := { b.host with results := tabSet b.host.results q bs } }
  | _, ans => answered ans b

/-- Deliver finished reads: each as soon as its pieces are answered. -/
def hostDeliverAll (h : Hub) : Hub :=
  forEach (h.host.reads.filter readComplete) hostDeliver
    { h with host := { h.host with reads := h.host.reads.filter fun x => !readComplete x } }

/-- Note the answer of a piece of a host read; one no read waits for is discarded and counted (R594). -/
def hostPieceDone (tag status : Nat) (ws : List (Word × Bool)) (h : Hub) : Hub :=
  if h.host.reads.any fun x => x.pieces.any fun p => p.tag == tag && p.result.isNone then
    let fillP := fun (p : HostPiece) => if p.tag = tag ∧ p.result = none then { p with result := some (status, ws) } else p
    hostDeliverAll { h with host := { h.host with
      reads := h.host.reads.map fun x => { x with pieces := x.pieces.map fillP } } }
  else bump h 0x4A00_0C

/-- EV_CYC_REFLEX_WRITE_REFUSED for a reflex (R347, R357). -/
def reflexRefused (reflex : Nat) (h : Hub) : Hub :=
  cycEvent h 0x23 0 reflex reflex

/-- Answer a process object's write whose path waits for the Canopy WRITE: the ring response with its status, counted (R94), or
the SDO response or abort (R502). -/
def answerWrite (r : Reply) (ok : Bool) (h : Hub) : Hub :=
  match r with
  | .none => h
  | .ring dst w =>
    whenDo ok (fun g => bump g 0x4001_08) (originate h 6 4 .mg dst 0 0 [BitVec.ofNat 48 (if ok then w else w + 0x0A)])
  | .sdo cob good bad =>
    whenDo (!ok) (fun g => bump g 0x4800_03)
      { h with canopen := { h.canopen with responses := h.canopen.responses ++ [(cob, if ok then good else bad)] } }

/-- The shadow of a SIGNAL with a field of it replaced (R507). -/
def shadowWord (h : Hub) (w : ShadowWrite) : Word :=
  BitVec.ofNat 48 (setField (tabGet 0 h.canopen.shadows w.handle).toNat (w.shift + w.width - 1) w.shift w.value)

/-- The end of a process object's WRITE (R507): the shadow takes its new value, or keeps the old one and the write is
refused with code 0x0A. -/
def shadowDone (tag status : Nat) (w : ShadowWrite) (h : Hub) : Hub :=
  let o := h.canopen
  let a := { h with canopen := { o with
    writes := tabErase o.writes tag, shadows := if status = 0 then tabSet o.shadows w.handle (shadowWord h w) else o.shadows } }
  answerWrite w.reply (status == 0) (if status = 0 then answered .accepted a else refuse w.path w.index w.sub 0x0A true a)

/-- What the requester of a port other than the host bridge gets (R269, R273): nothing of a posted write, which was accepted as it was
issued (R277); a status; words, each with its poison bit where one met poison on its own hub. -/
def portAnswer (op : COp) (d : Done) : Answer :=
  if op = .write then .accepted
  else if d.status ≠ 0 then .status d.status
  else match d.data with
    | [w] => if w.2 then .poisoned (wordsBytes [w.1]) else .value w.1.toNat
    | ws => if ws.any (·.2) then .words ws else .bytes (wordsBytes (ws.map (·.1)))

/-- What a port does with the end of its request: the host bridge fills its read; a reflex write that was refused with KIND is
reported; any other port is answered. -/
def portDone (r : CReq) (d : Done) (h : Hub) : Hub :=
  if r.port = 2 ∧ r.op ≠ .write then hostPieceDone r.tag d.status d.data h
  else if r.port = 7 ∧ d.status = 4 ∧ tabHas h.canopy.reflexTags r.tag then
    reflexRefused (tabGet 0 h.canopy.reflexTags r.tag) h
  else if let some (_, w) := if r.port = 6 then h.canopen.writes.find? (fun e => e.1 == r.tag) else none then
    shadowDone r.tag d.status w h
  else answered (portAnswer r.op d) h

/-- An outstanding request is this one: requester port, tag, and posted or not. -/
def sameReq (r : CReq) (o : Outstanding) : Bool :=
  o.req.port == r.port && o.req.tag == r.tag && (o.req.op == .write) == (r.op == .write)

/-- Forget an outstanding request. -/
def dropOut (r : CReq) (h : Hub) : Hub :=
  { h with canopy := { h.canopy with out := h.canopy.out.filter fun o => !sameReq r o } }

/-- A request ends with a status. -/
def finish (r : CReq) (d : Done) (h : Hub) : Hub :=
  let a := dropOut r h
  let b := if isLogical r.addr ∧ d.status = 2 then reachDrop (addrHandle r.addr) a else a
  portDone r d (whenDo (r.op == .write && d.status != 0) (writeFailed r d.status) b)

/-! ### Sending -/

/-- Send an outstanding request to a hub, or end it with UNREACHABLE where no route leads there (R159). One sent through the home is a
Reach miss (R288). -/
def transmit (dest : Nat) (r : CReq) (h : Hub) : Hub :=
  if !reachable h false dest && !reachable h true dest then finish r (.code 0xFD) h
  else
    let s := sendRequest dest r (whenDo r.home (fun g => bump g 0x4300_02) h)
    let o : Outstanding := { req := { r with order := s.1 }, dest, retry := false }
    let a := dropOut r s.2
    { a with canopy := { a.canopy with out := a.canopy.out ++ [o] } }

/-- The form of a request that goes through the home. -/
def throughHome (r : CReq) : CReq := { r with home := true, fill := true, gen := 0 }

/-- STALE at the requester (R265): the translation goes, and the request is sent once more through the home. -/
def staleAt (r : CReq) (h : Hub) : Hub :=
  transmit (handleHome (addrHandle r.addr)) (throughHome r) (reachDrop (addrHandle r.addr) (bump h 0x4300_03))

/-- RETRY at the requester (R265): the request waits 10 µs. -/
def retryAt (r : CReq) (h : Hub) : Hub :=
  let a := dropOut r (bump h 0x4300_04)
  let o : Outstanding := { req := throughHome r, dest := handleHome (addrHandle r.addr), retry := true }
  { a with canopy := { a.canopy with out := a.canopy.out ++ [o] } }

/-- A response reaches the requester (R262, R265); one to a request that was ended already, by its timeout, ends nothing a second time
(R281). -/
def requesterGets (r : CReq) (d : Done) (fill : Option CFill) (h : Hub) : Hub :=
  let a := whenDo (isLogical r.addr) (reachFill (addrHandle r.addr) fill) h
  if !h.canopy.out.any (sameReq r) then a
  else if d.status = 1 then staleAt r a
  else if d.status = 8 then retryAt r a
  else finish r d a

/-- Send one acknowledgement for a flow's writes (R270); its words count for the last write's object (R296). -/
def sendAck (src port : Nat) (c : Cls) (h : Hub) : Hub :=
  let k := flowKey src port c
  match h.canopy.acks.find? fun e => e.1 == k with
  | none => h
  | some (_, x) =>
    let counted := match x.handle with
      | some hd => countTraffic hd src (clsNum c) (1 + b2n x.fill.isSome) h
      | none => h
    sendResponse src x.gen { port, tag := x.last % 256, src := hubNumber h, cls := c, op := .write, ack := true, status := 0,
                             count := x.count, data := [], fill := x.fill, addr := 0 }
      { counted with canopy := { counted.canopy with acks := tabErase counted.canopy.acks k } }

/-- Note a performed posted write with its binding generation and fill; 16 of a flow are acknowledged at once (R270). -/
def noteAck (r : CReq) (gen : Nat) (fill : Option CFill) (h : Hub) : Hub :=
  let k := flowKey r.src r.port r.cls
  let n := ((tabFind h.canopy.acks k).map (·.count)).getD 0 + 1
  let x : Ack := { count := n, last := r.order, gen, fill, handle := if isLogical r.addr then some (addrHandle r.addr) else none }
  let a := { h with canopy := { h.canopy with acks := tabSet h.canopy.acks k x } }
  if 16 ≤ n then sendAck r.src r.port r.cls a else a

/-- Answer a request: the local requester gets it; a remote one a response frame, and a performed write its flow's
acknowledgement, which is gathered. -/
def respond (r : CReq) (d : Done) (fill : Option CFill) (gen : Nat) (h : Hub) : Hub :=
  if r.src = hubNumber h then requesterGets r d fill h
  else if r.op = .write ∧ d.status = 0 then noteAck r gen fill h
  else sendResponse r.src gen (responseTo h r d fill) h

/-- Relay a holder's answer to whom this home forwarded for (R269): an acknowledgement of the write at once, for the holder has
gathered it. -/
def relayTo (r : CReq) (d : Done) (fill : Option CFill) (gen : Nat) (h : Hub) : Hub :=
  if r.src ≠ hubNumber h ∧ r.op = .write ∧ d.status = 0 then
    sendResponse r.src gen { responseTo h r d fill with tag := r.order % 256, ack := true, count := 1 } h
  else respond r d fill gen h

/-! ### The holder (R264) -/

/-- What this hub holds of a handle: kind, base, length, binding generation; none while DRAINING, PENDING, MOVING or absent. -/
def holding (h : Hub) (handle : Nat) : Option (Nat × Nat × Nat × Nat) :=
  if handleHome handle = hubNumber h then
    let e := mapEntry h (handleSlot handle)
    if e.state = 1 ∧ e.holder = hubNumber h ∧ e.hgen = handleGen handle then some (e.kind, e.base, e.length, e.bgen) else none
  else match residence h handle with
    | some x => if x.state = 0 then some (x.kind, x.base, x.length, x.gen) else none
    | none => none

/-- A reflex wrote the SIGNAL in a contribution slot: a second write in one window is a conflict (R349). -/
def noteReflexWrite (slot : Nat) (h : Hub) : Hub :=
  let again := h.cyc.written.contains slot
  let a := whenDo again (fun g => bump g 0x4400_0F) h
  { a with cyc := { a.cyc with written := if again then a.cyc.written else slot :: a.cyc.written } }

/-- A request is the WRITE of a reflex's result, of this hub or another (R347): from requester port 7 and of class UR, which a home that
forwards it keeps (assumption log 32). -/
def reflexWriteOf (r : CReq) : Bool := r.port == 7 && r.op == .write && r.cls == .ur

/-- Perform a request on an object held here and answer it, its traffic counted. -/
def performHere (r : CReq) (x : Nat × Nat × Nat × Nat) (fill : Option CFill) (h : Hub) : Hub :=
  let hd := addrHandle r.addr
  let p := performObject (r.src == hubNumber h) x.1 x.2.1 x.2.2.1 (heldDef h hd) r h
  let a := whenDo (x.1 == 0 && p.1.status == 0 && reflexWriteOf r) (noteReflexWrite x.2.1) p.2
  respond r p.1 fill x.2.2.2 (countTraffic hd r.src (clsNum r.cls) (trafficWords (r.src == hubNumber h) fill.isSome r p.1) a)

/-- A forwarded request this hub cannot perform goes back to the home. -/
def sendBack (r : CReq) (h : Hub) : Hub :=
  (sendRequest (handleHome (addrHandle r.addr)) { r with port := 7 } h).2

/-- The binding generation a hub that holds a handle, or held it, has for it (R269). -/
def holderGen (h : Hub) (handle : Nat) : Nat :=
  if handleHome handle = hubNumber h then (mapEntry h (handleSlot handle)).bgen
  else match residence h handle with
    | some x => x.gen
    | none => 0

/-- The binding generation a refusal carries (R269): the holder's; 0 where the access names no object, or its entry cannot be used (R260;
assumption log 21). -/
def refusalGen (r : CReq) (h : Hub) : Nat :=
  if !isLogical r.addr || (entryError h (addrHandle r.addr)).isSome then 0 else holderGen h (addrHandle r.addr)

/-- An access that needs an entry with an uncorrectable error is refused with FAULT (R260); any other goes on with `f`. -/
def withEntry (r : CReq) (f : Hub → Hub) (h : Hub) : Hub :=
  match entryError h (addrHandle r.addr) with
  | some e => respond r (.code 0xD) none 0 (raiseInjected 0x0B 0x00 e.1 e.2 h)
  | none => f h

/-- A holder's procedure for a logical address (R264). -/
def holderResolve (r : CReq) (h : Hub) : Hub :=
  match holding h (addrHandle r.addr) with
  | some x => if !r.home && x.2.2.2 != r.gen then respond r (.code 1) none x.2.2.2 h else performHere r x none h
  | none => if r.home then sendBack r h else respond r (.code 1) none (holderGen h (addrHandle r.addr)) h

/-- A holder's procedure (R264). -/
def holderServe (r : CReq) (h : Hub) : Hub :=
  match badRequest r with
  | some st => respond r (.code st) none (refusalGen r h) h
  | none =>
    if !isLogical r.addr then
      let p := performPhysical (r.src == hubNumber h) r h
      respond r p.1 none 0 p.2
    else withEntry r (holderResolve r) h

/-! ### The home (R264, R279) -/

/-- Forward a request to the holder, remembering whom to answer. -/
def forwardTo (holder : Nat) (r : CReq) (h : Hub) : Hub :=
  if !reachable h false holder && !reachable h true holder then respond r (.code 0xFD) none (refusalGen r h) h
  else
    let t := h.canopy.nextTag % 256
    let s := sendRequest holder { r with port := 7, tag := t, home := true, gen := 0 }
      { h with canopy := { h.canopy with nextTag := t + 1 } }
    { s.2 with canopy := { s.2.canopy with
      relays := s.2.canopy.relays ++ [{ orig := r, holder, tag := t, order := s.1 }] } }

/-- Hold a request for a MOVING entry, or answer RETRY with 256 held (R279). -/
def holdRequest (slot : Nat) (r : CReq) (h : Hub) : Hub :=
  if 256 ≤ h.canopy.held.length then respond r (.code 8) none (refusalGen r h) h
  else
    let a := { h with canopy := { h.canopy with held := h.canopy.held ++ [(slot, r)] } }
    peak a 0x4300_08 a.canopy.held.length

/-- Resolve a request in the Canopy map (R264); a GROUP has no holder to perform an operation and refuses each (R255). -/
def mapResolve (r : CReq) (h : Hub) : Hub :=
  let hd := addrHandle r.addr
  let slot := handleSlot hd
  let e := mapEntry h slot
  if e.state = 0 ∨ e.hgen ≠ handleGen hd then respond r (.code 2) none 0 h
  else if e.state = 3 then respond r (.code 0xB) none e.bgen h
  else if e.kind = 5 then respond r (.code 4) none e.bgen h
  else if e.state = 2 then holdRequest slot r h
  else if e.holder = hubNumber h then
    let fill := if r.fill && r.src != hubNumber h then
        some { holder := e.holder, kind := e.kind, gen := e.bgen, length := e.length } else none
    performHere r (e.kind, e.base, e.length, e.bgen) fill h
  else forwardTo e.holder r h

/-- The home's resolution, where its map entry can be used (R260). -/
def homeResolve (r : CReq) (h : Hub) : Hub := withEntry r (mapResolve r) h

/-- The home's procedure; a request its holder sent back is the one it forwarded. -/
def homeServe (r : CReq) (h : Hub) : Hub :=
  match badRequest r with
  | some st => respond r (.code st) none (refusalGen r h) h
  | none =>
    match h.canopy.relays.find? fun x => r.port == 7 && x.tag == r.tag && x.holder == r.src with
    | some x => homeResolve x.orig { h with canopy := { h.canopy with relays := h.canopy.relays.erase x } }
    | none => homeResolve r h

/-- A request at its destination hub: at the home if it went through the home, else at the holder. -/
def serveRequest (r : CReq) (h : Hub) : Hub :=
  if isLogical r.addr && r.home && handleHome (addrHandle r.addr) == hubNumber h then homeServe r h else holderServe r h

/-- Release the requests held for a slot, in the order they were held. -/
def releaseHeld (slot : Nat) (h : Hub) : Hub :=
  let mine := (h.canopy.held.filter fun x => x.1 == slot).map (·.2)
  forEach mine homeResolve { h with canopy := { h.canopy with held := h.canopy.held.filter fun x => x.1 != slot } }

/-! ### Requester ports (R266, R276, R283) -/

/-- A request leaves its port: checked, resolved and sent or performed (R249, R264). -/
def sendReq (r0 : CReq) (h : Hub) : Hub :=
  let r := { r0 with src := hubNumber h }
  let hd := addrHandle r.addr
  let put := fun (r : CReq) (g : Hub) =>
    { g with canopy := { g.canopy with out := g.canopy.out ++ [{ req := r, dest := hubNumber h, retry := false }] } }
  match badRequest r with
  | some st => finish r (.code st) h
  | none =>
    if !isLogical r.addr then
      let n := addrHub r.addr
      let r := { r with home := false, fill := false, gen := 0 }
      if n = 255 then finish r (.code 0xC) h
      else if n = 0 ∨ n = hubNumber h then
        let p := performPhysical true r h
        finish r p.1 p.2
      else transmit n r h
    else if handleHome hd = hubNumber h then homeResolve (throughHome r) (put (throughHome r) h)
    else match reachFind h hd with
      | some t =>
        let r := { r with home := false, fill := false, gen := t.gen }
        let a := reachPut t (bump h 0x4300_01)
        if t.holder = hubNumber h then holderServe r (put r a) else transmit t.holder r a
      | none => transmit (handleHome hd) (throughHome r) h

/-- Outstanding requests of a port: posted writes, or the others. -/
def outCount (h : Hub) (port : Nat) (posted : Bool) : Nat :=
  h.canopy.out.countP fun o => o.req.port == port && (o.req.op == .write) == posted

/-- Requests among what waits at a port: posted writes, or the others. -/
def keptCount (kept : List PortItem) (posted : Bool) : Nat :=
  kept.countP fun i => match i with
    | .req x => (x.op == .write) == posted
    | .barrier => false

/-- Most non-posted requests of a port (R283; the split-read limit at port 2, R586). -/
def readLimit (h : Hub) (port : Nat) : Nat := if port = 2 then min 64 (rd h 0x2A01_04) else 64

/-- Completion segments of the host bridge that hold the answer of a piece whose read is not complete yet (R586). -/
def heldSegments (h : Hub) : Nat := (h.host.reads.map fun x => x.pieces.countP fun p => p.result.isSome).sum

/-- A request must wait at its port: behind one to its handle that went through the home or waits (R266), at the limit of its kind,
against which those that wait count (R266, R283), a host read behind posted writes that wait (R582) or for one of the 64 completion
segments (R586); or it is held there before the point
of no return (step 2 of Table 3 of Network sleep, Clearing and wake). -/
def mustWait (h : Hub) (kept : List PortItem) (r : CReq) : Bool :=
  let hd := addrHandle r.addr
  let same := fun (x : CReq) => isLogical x.addr && addrHandle x.addr == hd
  (h.sleep.holding && (r.cls == .bk || r.cls == .mg))
    || (isLogical r.addr && (h.canopy.out.any (fun o => o.req.port == r.port && o.req.home && same o.req)
      || kept.any fun i => match i with
        | .req x => same x
        | .barrier => false))
    || (r.port == 2 && r.op != .write
      && (keptCount kept true != 0 || decide (64 ≤ outCount h 2 false + keptCount kept false + heldSegments h)))
    || (if r.op = .write then decide (256 ≤ outCount h r.port true + keptCount kept true)
        else decide (readLimit h r.port ≤ outCount h r.port false + keptCount kept false))

/-- A barrier at a port completes (R276); a waiting barrier read returns the failed writes since the previous one
(R581), and its QSPI command reads on (R89). -/
def barrierDone (port : Nat) (h : Hub) : Hub :=
  match h.host.barrier with
  | [] => answered .accepted h
  | x :: rest =>
    if port ≠ 2 then answered .accepted h
    else
      let a := { h with host := { h.host with barrier := rest, logged := 0 } }
      let bytes := x.before ++ natBytes x.width h.host.logged
      match x.qspi with
      | none => answered (.value h.host.logged) a
      | some q =>
        if x.after.2 = 0 then { a with host := { a.host with results := tabSet a.host.results q (0 :: bytes) } }
        else { a with host := { a.host with waiting := a.host.waiting ++ [.hostRead (some q) bytes x.after.1 x.after.2] } }

/-- Go through what waits at a port in issue order; `kept` is what still waits. A barrier completes once every posted write before it
has been answered, whatever else waits (R276). -/
def drainItems (port : Nat) : List PortItem → List PortItem → Hub → Hub
  | kept, [], h => { h with canopy := { h.canopy with ports := tabSet h.canopy.ports port kept } }
  | kept, .barrier :: rest, h =>
    if keptCount kept true == 0 && outCount h port true == 0 then drainItems port kept rest (barrierDone port h)
    else { h with canopy := { h.canopy with ports := tabSet h.canopy.ports port (kept ++ .barrier :: rest) } }
  | kept, .req r :: rest, h =>
    if mustWait h kept r then drainItems port (kept ++ [.req r]) rest h else drainItems port kept rest (sendReq r h)

def portItems (h : Hub) (port : Nat) : List PortItem := tabGet [] h.canopy.ports port

/-- Send what may now leave a port. -/
def drainPort (port : Nat) (h : Hub) : Hub :=
  let a := drainItems port [] (portItems h port) h
  whenDo (port == 2) (fun g => peak g 0x4A00_08 (outCount g 2 false)) a

/-- Every port. -/
def drainPorts (h : Hub) : Hub := forEach (h.canopy.ports.map (·.1)) drainPort h

/-- Put an item at a port and send what may leave. -/
def putItem (port : Nat) (i : PortItem) (h : Hub) : Hub :=
  drainPort port { h with canopy := { h.canopy with ports := tabSet h.canopy.ports port (portItems h port ++ [i]) } }

/-- CANOPY_REQUEST_ISSUE. -/
def execCanopyRequestIssue (req : CReq) (s : State) : Host.Outcome State Fault Refusal :=
  onHub s (putItem req.port (.req req))

/-- BARRIER (R276). -/
def execBarrier (port : Nat) (s : State) : Host.Outcome State Fault Refusal := onHub s (putItem port .barrier)

/-! ### Order (R274, R275) -/

def setFlow (k : Nat) (f : Flow) (h : Hub) : Hub := { h with canopy := { h.canopy with flows := tabSet h.canopy.flows k f } }

/-- Perform requests that came ahead, in number order, while the next one is there. -/
def drainFlow (k : Nat) : Nat → Hub → Hub
  | 0, h => h
  | n + 1, h =>
    match h.canopy.flows.find? fun e => e.1 == k with
    | none => h
    | some (_, f) =>
      match f.ahead.find? fun r => r.order == f.expected with
      | none => h
      | some r =>
        drainFlow k n (serveRequest r (setFlow k { expected := (f.expected + 1) % 65536, ahead := f.ahead.erase r } h))

/-- A request from the ring in its flow's order; a 1,025th flow is served without state. -/
def orderedRequest (r : CReq) (h : Hub) : Hub :=
  let k := flowKey r.src r.port r.cls
  match h.canopy.flows.find? fun e => e.1 == k with
  | none =>
    let a := if h.canopy.flows.length < 1024 then setFlow k { expected := (r.order + 1) % 65536, ahead := [] } h else h
    serveRequest r a
  | some (_, f) =>
    let diff := (r.order + 65536 - f.expected) % 65536
    if diff = 0 then
      drainFlow k f.ahead.length (serveRequest r (setFlow k { f with expected := (f.expected + 1) % 65536 } h))
    else if diff < 32768 then setFlow k { f with ahead := f.ahead ++ [r] } h
    else respond r (.code 6) none (refusalGen r h) (bump h 0x4300_06)

/-- A request arrives: one of this hub directly, one of another hub in its flow's order. -/
def arriveRequest (r : CReq) (h : Hub) : Hub :=
  if r.src = hubNumber h then serveRequest r h else orderedRequest { r with order := r.order % 65536 } h

/-- CANOPY_HOME_REQUEST: a request that came through the home. -/
def execCanopyHomeRequest (req : CReq) (s : State) : Host.Outcome State Fault Refusal :=
  onHub s fun h => drainPorts (arriveRequest { req with home := true } h)

/-- CANOPY_HOLDER_REQUEST: a direct or a forwarded request at a holder. -/
def execCanopyHolderRequest (req : CReq) (s : State) : Host.Outcome State Fault Refusal :=
  onHub s fun h => drainPorts (arriveRequest req h)

/-- The number a flow with a gap goes on with: the next one present. -/
def nextPresent (f : Flow) : Option Nat :=
  (f.ahead.map fun r => (r.order + 65536 - f.expected) % 65536).min?.map fun d => (f.expected + d) % 65536

/-- ORDER_GAP_TIMEOUT (R274). -/
def orderGap (src port : Nat) (c : Cls) (h : Hub) : Hub :=
  let k := flowKey src port c
  match h.canopy.flows.find? fun e => e.1 == k with
  | none => h
  | some (_, f) =>
    match nextPresent f with
    | none => h
    | some n => drainPorts (drainFlow k f.ahead.length (setFlow k { f with expected := n } (bump h 0x4300_05)))

def execOrderGapTimeout (src port : Nat) (cls : Cls) (s : State) : Host.Outcome State Fault Refusal :=
  onHub s (orderGap src port cls)

/-- FLOW_STATE_EXPIRY (R275). -/
def execFlowStateExpiry (src port : Nat) (cls : Cls) (s : State) : Host.Outcome State Fault Refusal :=
  onHub s fun h => { h with canopy := { h.canopy with flows := tabErase h.canopy.flows (flowKey src port cls) } }

/-- WRITE_ACK_TIMER (R270). -/
def execWriteAckTimer (src port : Nat) (cls : Cls) (s : State) : Host.Outcome State Fault Refusal :=
  onHub s (sendAck src port cls)

/-! ### Responses -/

/-- How far an order number lies before the last write an acknowledgement covers, modulo 256. -/
def ackBehind (resp : CResp) (order : Nat) : Nat := (resp.tag + 256 - order % 256) % 256

/-- An acknowledgement covers a write of a flow: of the writes with the given order numbers that wait for one it answers those nearest
to its last, as many as it counts (R269, R270). -/
def covered (resp : CResp) (waiting : List Nat) (order : Nat) : Bool :=
  decide (waiting.countP (fun o => decide (ackBehind resp o < ackBehind resp order)) < resp.count)

/-- A response to requests this home forwarded: relayed with fill (R269). -/
def relayResponse (resp : CResp) (xs : List Relay) (h : Hub) : Hub :=
  forEach xs (fun x g =>
    let e := mapEntry g (handleSlot (addrHandle x.orig.addr))
    let fill := some { holder := x.holder, kind := e.kind, gen := e.bgen, length := e.length }
    relayTo x.orig { status := resp.status, data := resp.data.map fun w => (w, false) } fill e.bgen
      { g with canopy := { g.canopy with relays := g.canopy.relays.erase x } }) h

/-- Requests of this hub a response answers. -/
def answeredBy (h : Hub) (resp : CResp) : List Outstanding :=
  let flow := h.canopy.out.filter fun o => o.req.port == resp.port && o.dest == resp.src && !o.retry
  if resp.ack then
    let writes := flow.filter fun o => o.req.op == .write && o.req.cls == resp.cls
    writes.filter fun o => covered resp (writes.map fun x => x.req.order) o.req.order
  else flow.filter fun o => o.req.tag == resp.tag && (o.req.op == .write) == (resp.op == .write)

/-- Requests this home forwarded that a response answers. -/
def relaysBy (h : Hub) (resp : CResp) : List Relay :=
  let flow := h.canopy.relays.filter fun x => resp.port == 7 && x.holder == resp.src
  if resp.ack then
    let writes := flow.filter fun x => x.orig.op == .write && x.orig.cls == resp.cls
    writes.filter fun x => covered resp (writes.map (·.order)) x.order
  else flow.filter fun x => x.tag == resp.tag

/-- The fill word of a response goes with the request it answers, of an acknowledgement with the last write it covers. -/
def fillFor (resp : CResp) (r : CReq) : Option CFill := if resp.ack ∧ r.order % 256 ≠ resp.tag then none else resp.fill

/-- CANOPY_RESPONSE (R264, R265, R270). -/
def canopyResponse (resp : CResp) (h : Hub) : Hub :=
  let relays := relaysBy h resp
  if !relays.isEmpty then drainPorts (relayResponse resp relays h)
  else if (answeredBy h resp).isEmpty then whenDo (resp.port == 2) (fun g => bump g 0x4A00_0C) h
  else drainPorts (forEach (answeredBy h resp) (fun o g =>
    requesterGets o.req { status := resp.status, data := resp.data.map fun w => (w, false) } (fillFor resp o.req) g) h)

def execCanopyResponse (resp : CResp) (s : State) : Host.Outcome State Fault Refusal := onHub s (canopyResponse resp)

/-- The first outstanding request of a port with a tag. -/
def outFind (h : Hub) (port tag : Nat) : Option Outstanding :=
  h.canopy.out.find? fun o => o.req.port == port && o.req.tag == tag

/-- RETRY_DELAY_EXPIRY (R265): the request goes again through the home. -/
def retryDelay (port tag : Nat) (h : Hub) : Hub :=
  match h.canopy.out.find? fun o => o.req.port == port && o.req.tag == tag && o.retry with
  | none => h
  | some o =>
    if o.dest = hubNumber h then
      homeResolve o.req { h with canopy := { h.canopy with
        out := h.canopy.out.map fun x => if x = o then { x with retry := false } else x } }
    else transmit o.dest o.req h

def execRetryDelayExpiry (port tag : Nat) (s : State) : Host.Outcome State Fault Refusal :=
  onHub s fun h => drainPorts (retryDelay port tag h)

/-- COMPLETION_TIMEOUT (R281). A request still held by this hub as home stays held and may be performed later. -/
def execCompletionTimeout (port tag : Nat) (s : State) : Host.Outcome State Fault Refusal :=
  onHub s fun h =>
    match outFind h port tag with
    | none => h
    | some o => drainPorts (finish o.req (.code 0xFE) (bump h 0x4300_07))

/-- REACH_LIFETIME_EXPIRY (R262). -/
def execReachLifetimeExpiry (handle : Nat) (s : State) : Host.Outcome State Fault Refusal := onHub s (reachDrop handle)

/-- REACH_FLUSH (R262): a write of 0x01 to 0x2301:05. -/
def execReachFlush (p : Path) (value : Nat) (s : State) : Host.Outcome State Fault Refusal :=
  onHub s (pathWrite p 0x2301 5 value (fun _ c => { c with value := c.value || value != 1 })
    fun h => { h with canopy := { h.canopy with reach := [] } })

end Sys2Proof.Machine
end

