-- ==== Sys2Proof/Machine/Place.lean ====
section
/-! DEFINITION. What a holder takes for an object, and gives back (R289 to R304, R403): constraints of Table 4, regions, FIFOs,
engines, contribution slots, reflex entries; the placement log and what an UNBOUND object causes. -/

namespace Sys2Proof.Machine

/-! ### Definitions -/

/-- Slots whose definition names a kind (R290): the stored definitions other than kind 7. -/
def definedSlots (h : Hub) : List Nat :=
  h.dict.filterMap fun e =>
    if 0x3800_00 ≤ e.1 ∧ e.1 < 0x3900_00 ∧ e.1 % 16 = 1 ∧ e.2.toNat % 8 ≠ 7 then
      some ((e.1 / 256 - 0x3800) * 16 + e.1 % 256 / 16) else none

/-- Handle generation in a definition. -/
def defGen (h : Hub) (s : Nat) : Nat := bits (rd h (defKey s 1)) 5 3

/-- The handle of a defined object; 0 while the kind is 7. -/
def defHandle (h : Hub) (s : Nat) : Nat := if defKind h s = 7 then 0 else handleOf (hubNumber h) s (defGen h s)

/-- The Placement field. -/
def placeField (h : Hub) (s : Nat) : Nat := rd h (defKey s 11)

/-- Slots with an object in force: a placement run has taken their definition up (R292). -/
def forceSlots (h : Hub) : List Nat := (h.canopy.map.filter fun e => e.2.state != 0).map (·.1)

/-- The kind in force: that of the map entry. -/
def forceKind (h : Hub) (s : Nat) : Nat := (mapEntry h s).kind

/-- The definition in force. -/
def forceDef (h : Hub) (s : Nat) : ObjDef := (boundDef h s).1

/-- The Placement field in force. -/
def forcePlace (h : Hub) (s : Nat) : Nat := (boundDef h s).2

/-- An end is one of Table 3, its other bits 0. -/
def endValid (e : Nat) (signal : Bool) : Bool :=
  match endKind e with
  | 0 => e == 0
  | 1 => e == 2 ^ 44 + bits e 22 0
  | 2 => e == 2 * 2 ^ 44 + bits e 31 24 * 2 ^ 24 + bits e 3 0
  | 3 => e == 3 * 2 ^ 44 + bits e 31 24 * 2 ^ 24 + bits e 1 0
  | 4 => signal && e == 4 * 2 ^ 44 + bits e 31 24 * 2 ^ 24 + bits e 2 0
  | 5 => signal && e == 5 * 2 ^ 44 + bits e 31 24 * 2 ^ 24 + bits e 3 0
  | _ => false

/-- A capture selector Table 5 of Cyclic exchange defines for a source (R343, R783). -/
def selectorValid (source sel : Nat) : Bool :=
  match endKind source with
  | 2 => decide (sel < 2 ^ 10 ∧ bits sel 9 6 ≤ 10)
  | 3 => decide (sel < 2 ^ 10)
  | 4 => decide (sel < 2)
  | 5 => decide (sel ≤ 5)
  | _ => sel == 0

/-- A definition keeps Tables 2 and 3 (R292, R783). -/
def defValid (kind : Nat) (d : ObjDef) : Bool :=
  match kind with
  | 0 => d.sizeA == 0 && d.sizeB == 0 && endValid d.source true && selectorValid d.source d.selector
  | 1 => decide (1 ≤ d.sizeA ∧ d.sizeA ≤ 64) && d.sizeB == 0 && endValid d.source false && endValid d.consumer false
  | 2 => decide (1 ≤ d.sizeA ∧ d.sizeA ≤ 256 ∧ 1 ≤ d.sizeB ∧ d.sizeB ≤ 4096)
  | 3 => decide (1 ≤ d.sizeA ∧ d.sizeA ≤ 1048576) && d.sizeB == 0
  | 4 => decide (d.sizeA ≤ 255 ∧ 1 ≤ d.sizeB ∧ d.sizeB ≤ 400000000)
      && decide (bits (d.pins.getD 1 0) 19 16 ≤ 8)
  | 5 => d.sizeA == 0 && d.sizeB == 0 && !bit d.source 0 && decide (d.pins.getD 3 0 < 2 ^ 15)
  | 6 => decide (d.sizeA ≤ 511) && d.sizeB == 0
  | _ => false

/-- Length of an object in words (Table 2; assumption log 23). -/
def objLength (kind : Nat) (d : ObjDef) : Nat :=
  match kind with
  | 0 => 1
  | 1 => d.sizeA * 256
  | 2 => d.sizeA * d.sizeB + 2
  | 3 => d.sizeA
  | _ => 0

/-- FIO numbers of a PROGRAM's pins, and the spare of each pin that has one. -/
def pinList (d : ObjDef) : List Nat :=
  let f := fun k => if k < 6 then bits (d.pins.getD 0 0) (8 * k + 7) (8 * k) else bits (d.pins.getD 1 0) (8 * (k - 6) + 7) (8 * (k - 6))
  (List.range (min 8 (bits (d.pins.getD 1 0) 19 16))).map f

def spareOf (d : ObjDef) (k : Nat) : Option Nat :=
  if bit (d.pins.getD 3 0) (16 + k) && decide (k < (pinList d).length) then
    some (if k < 6 then bits (d.pins.getD 2 0) (8 * k + 7) (8 * k) else bits (d.pins.getD 3 0) (8 * (k - 6) + 7) (8 * (k - 6)))
  else none

def spareList (d : ObjDef) : List Nat := (List.range 8).filterMap (spareOf d)

/-- Safe levels of the pins (R293). -/
def safeLevels (d : ObjDef) : Nat := bits (d.pins.getD 1 0) 39 24

/-! ### What a holder has left (Table 2, Table 4) -/

/-- Regions of Canopy memory in use: base and length. -/
def usedRegions (h : Hub) : List (Nat × Nat) :=
  (h.canopy.map.filterMap fun e =>
    if (e.2.state = 1 ∨ e.2.state = 2) ∧ e.2.holder = hubNumber h ∧ (e.2.kind = 2 ∨ e.2.kind = 3) then some (e.2.base, e.2.length) else none)
  ++ (h.canopy.residences.filterMap fun r => if r.kind = 2 ∨ r.kind = 3 then some (r.base, r.length) else none)
  ++ (h.forester.incoming.filterMap fun i => if i.entry.kind = 2 ∨ i.entry.kind = 3 then some (i.entry.base, i.entry.length) else none)

/-- The lowest base at which a region of n words is free (assumption log 24). -/
def freeRegion (h : Hub) (n : Nat) : Option Nat :=
  let used := usedRegions h
  let fits := fun b => decide (b + n ≤ memWords) && used.all fun u => decide (b + n ≤ u.1 ∨ u.1 + u.2 ≤ b)
  ((0 :: used.map fun u => u.1 + u.2).filter fits).min?

/-- Words of Canopy memory not in use. -/
def freeWords (h : Hub) : Nat := memWords - ((usedRegions h).map (·.2)).sum

/-- The lowest number below n not in a table. -/
def lowestFree (t : Tab Nat) (n : Nat) : Option Nat := (List.range n).find? fun k => !tabHas t k

/-- The divider closest to Size B on a Grove clock, the lower D on a tie (R403): 256 × D. -/
def dividerFor (groveHz b : Nat) : Nat :=
  let d := max 256 (min 0xFFFFFF (groveHz * 256 / b))
  let e := min 0xFFFFFF (d + 1)
  let err := fun x => (groveHz * 256 - b * x) + (b * x - groveHz * 256)
  if err e * d < err d * e then e else d

/-- The Grove clock, divided, lies within the tolerance of Size B. -/
def clockOk (groveHz b ppm : Nat) : Bool :=
  let d := dividerFor groveHz b
  decide (((groveHz * 256 - b * d) + (b * d - groveHz * 256)) * 1000000 ≤ ppm * b * d)

def groveHz (h : Hub) (g : Nat) : Nat := rd h (0x2601_01 + g) * 1000

/-- The pinned hub of a PROGRAM, which holds it (Table 4): of one homed elsewhere and not held here, a value this hub's state does not give
(assumption log 73). -/
def programHub (h : Hub) (p : Nat) : Nat :=
  if handleHome p = hubNumber h then bits (forcePlace h (handleSlot p)) 47 40
  else if (residence h p).isSome then hubNumber h
  else Config.pinnedHub p % 254 + 1

/-- The hub of a device or PROGRAM end, 0 for a software end. -/
def endHub (h : Hub) (e : Nat) : Nat :=
  if endKind e = 1 then programHub h (bits e 22 0) else if 2 ≤ endKind e then bits e 31 24 else 0

/-- The hub of the sending FIFO of a STREAM whose ends are devices on two hubs (R458), 0 for any other. -/
def producerHub (h : Hub) (kind : Nat) (d : ObjDef) : Nat :=
  if kind = 1 ∧ endHub h d.source ≠ 0 ∧ endHub h d.consumer ≠ 0 ∧ endHub h d.source ≠ endHub h d.consumer then endHub h d.source else 0

/-- Pins and spares that PROGRAMs bound here use. -/
def usedPins (h : Hub) (except : Nat) : List Nat :=
  (List.range 64).flatMap fun n =>
    let p := rd h (engKey n 0x12)
    if p = 0 ∨ p = except then [] else pinList (heldDef h p) ++ spareList (heldDef h p)

/-- PROGRAMs a Grove holds. -/
def programsIn (h : Hub) (g : Nat) : Nat := (List.range 8).countP fun k => rd h (engKey (8 * g + k) 0x12) != 0

/-- Engines a PROGRAM may take (Table 4): free and usable, pinned or asked for, clock in tolerance, outside Grove `avoid`. -/
def engineCandidates (h : Hub) (d : ObjDef) (wanted avoid : Nat) : List Nat :=
  (List.range 64).filter fun n =>
    engState h n == 1 && (wanted == 0xFF || n == wanted) && grove n != avoid
      && clockOk (groveHz h (grove n)) d.sizeB (bits d.options 15 8)

/-- R300: the Grove with most PROGRAMs, then the lowest engine number. -/
def bestEngine (h : Hub) (ns : List Nat) : Option Nat :=
  match (ns.map fun n => programsIn h (grove n)).max? with
  | none => none
  | some m => ns.find? fun n => programsIn h (grove n) == m

/-! ### Taking and giving back -/

/-- What an attempt to host an object gives: refused with a result code of Table 9, to be tried again (a Grove is being
switched on), or hosted with a base. -/
inductive Alloc where
  | no (code : Nat)
  | wait (h : Hub)
  | yes (base : Nat) (h : Hub)
deriving DecidableEq, Repr

/-- Bind a PROGRAM to an engine: pins connected, spares at high impedance, divider set, image loaded with LOAD_CLEAN (R293, R304, R403,
R404). The levels its P takes are free values. A load that its checks refuse binds nothing (assumption log 25). -/
def bindProgram (n handle : Nat) (d : ObjDef) (h : Hub) : Alloc :=
  let f := takeFree h
  let g := setEngine f.2 n { engineInit with pins := pinList d, safe := safeLevels d, spares := spareList d }
  let a := wrs g [(engKey n 0x12, handle), (engKey n 3, dividerFor (groveHz h (grove n)) d.sizeB)]
  let b := engineLoad n (d.sizeA % 256) 3 (some (f.1.setWidth 8)) a
  if rd b (engKey n 0x15) ≠ 0 then .no 2 else .yes n (releasePads (spareList d) b)

/-- FIO numbers that no PROGRAM uses any more take their reset level (R50). -/
def resetPads (fios : List Nat) (h : Hub) : Hub := { h with pads := h.pads.filter fun e => !fios.contains e.1 }

/-- Free an engine: state FREE (an UNUSABLE one stays so), bound to nothing; its pins and spares have no binding any more. -/
def freeEngine (n : Nat) (h : Hub) : Hub :=
  let g := engine h n
  let a := wr (resetPads (g.pins ++ g.spares ++ g.failed) { h with engines := tabErase h.engines n }) (engKey n 0x12) 0
  if engState h n = 6 then a else wr a (engKey n 1) 1

/-- Host a PROGRAM (Table 4, R300). -/
def hostProgram (handle : Nat) (d : ObjDef) (wanted : Nat) (h : Hub) : Alloc :=
  let pins := pinList d ++ spareList d
  if pins.any fun p => (usedPins h handle).contains p then .no 2
  else
    match bestEngine h (engineCandidates h d wanted 8) with
    | none => if (List.range 64).any fun n => engState h n == 1 then .no 2 else .no 3
    | some n =>
      if domainState h (grove n) ≠ 3 then .wait (voteReturn (grove n) 16 h) else bindProgram n handle d h

/-- FIFO settings copy: class and watermarks, ring class, the other hub. -/
def fifoWord (d : ObjDef) (peer : Nat) : Nat := d.fifo % 2 ^ 48 + bits d.options 17 16 * 2 ^ 48 + peer % 256 * 2 ^ 50


/-- Host a STREAM: the receiving or only FIFO here, or the sending FIFO where only the producer is here (R437, R458). -/
def hostStream (handle : Nat) (d : ObjDef) (h : Hub) : Alloc :=
  let own := hubNumber h
  let p := endHub h d.source
  let c := endHub h d.consumer
  if p = own ∧ c ≠ 0 ∧ c ≠ own then
    match fifoBind 2 handle 1 (fifoWord d c) d.source d.consumer h with
    | some (f, a) => .yes f a
    | none => .no 3
  else
    match fifoBind 1 handle d.sizeA (fifoWord d (if p = own then 0 else p)) d.source d.consumer h with
    | some (f, a) => .yes f a
    | none => .no 3

/-- A region starts with every word 0 (R304). -/
def clearRegion (base n : Nat) (h : Hub) : Hub :=
  { h with canopy := { h.canopy with
      mem := h.canopy.mem.filter fun c => !(decide (8 * base ≤ c.1 ∧ c.1 < 8 * (base + n)))
      poison := h.canopy.poison.filter fun w => !(decide (base ≤ w ∧ w < base + n)) } }

/-- Whether this hub holds an object. -/
def holdsHandle (h : Hub) (handle : Nat) : Bool :=
  if handleHome handle = hubNumber h then (holding h handle).isSome else (residence h handle).isSome

/-- The residences of this hub with those it has accepted and not yet installed. -/
def hosted (h : Hub) : List Residence := h.canopy.residences ++ h.forester.incoming.map (·.entry)

/-- A holder keeps an object apart from its partner, which either definition names (Table 4), as far as the hub holds or has accepted
it. -/
def apartHere (handle place : Nat) (h : Hub) : Bool :=
  let partner := bits place 22 0
  (partner == 0 || !(holdsHandle h partner || (hosted h).any fun r => r.handle == partner))
    && !((forceSlots h).any fun s => bits (forcePlace h s) 22 0 == handle && handle != 0 && holdsHandle h (slotHandle h s))
    && !((hosted h).any fun r => bits r.place 22 0 == handle && handle != 0 && r.handle != handle)

/-- Constraints of Table 4 that do not depend on capacity: zone, pinned hub, anti-affinity. -/
def constraintsOk (handle kind place : Nat) (h : Hub) : Bool :=
  kind == 5 ||
    ((bits place 39 32 == 0 || bits place 39 32 == rd h 0x2310_01)
      && (bits place 47 40 == 0 || bits place 47 40 == hubNumber h)
      && apartHere handle place h)

/-- Residence entries in use or promised to an offer this hub has accepted (R259). -/
def residencesTaken (h : Hub) : Nat :=
  h.canopy.residences.length + h.forester.incoming.countP fun i => handleHome i.entry.handle != hubNumber h

/-- Words of Canopy memory an object takes (Table 2). -/
def wordsTaken (kind : Nat) (d : ObjDef) : Nat := if kind = 2 ∨ kind = 3 then objLength kind d else 0

/-- Host an object here, if Table 4 allows: region, FIFO, engine, slot or entry taken, every word 0. An object homed elsewhere leaves the
foreign memory reserve free. -/
def hostObject (handle kind : Nat) (d : ObjDef) (place engineWanted : Nat) (h : Hub) : Alloc :=
  let foreign := handleHome handle != hubNumber h
  if !constraintsOk handle kind place h then .no 2
  else if foreign && (decide (1024 ≤ residencesTaken h) || decide (freeWords h < wordsTaken kind d + rd h 0x2310_0D)) then .no 3
  else match kind with
    | 0 =>
      match lowestFree h.forester.slots 1024 with
      | some b => .yes b (setSignal b 0 { h with forester := { h.forester with slots := tabSet h.forester.slots b handle } })
      | none => .no 3
    | 1 => hostStream handle d h
    | 2 | 3 =>
      let n := objLength kind d
      match freeRegion h n with
      | some b => .yes b (clearRegion b n h)
      | none => .no 3
    | 4 =>
      hostProgram handle d (if engineWanted ≠ 0xFF then engineWanted else bits place 31 24) h
    | 6 =>
      match lowestFree h.forester.reflexes 512 with
      | some b => .yes b { h with
          forester := { h.forester with reflexes := tabSet h.forester.reflexes b handle }
          cyc := { h.cyc with results := tabErase h.cyc.results b } }
      | none => .no 3
    | _ => .no 2

/-- Give back what an object of a kind held at `base`. -/
def releaseObject (kind base : Nat) (h : Hub) : Hub :=
  match kind with
  | 0 => { h with
      forester := { h.forester with slots := tabErase h.forester.slots base }
      cyc := { h.cyc with own := tabErase h.cyc.own base } }
  | 1 => fifoUnbind base h
  | 4 => freeEngine base h
  | 6 => { h with forester := { h.forester with reflexes := tabErase h.forester.reflexes base } }
  | _ => h

/-! ### Log, events and LIMP cause [3] (R306, R324, R326) -/

/-- An entry of the placement log. -/
def foresterLog (trigger result handle fromHub toHub fromE toE startNs : Nat) (h : Hub) : Hub :=
  pushLog h 0x4311_01 4 32
    [timeSec (replica h 0), timeFrac (replica h 0), trigger * 2 ^ 40 + result * 2 ^ 32 + handle,
     fromHub * 2 ^ 40 + toHub * 2 ^ 32 + fromE % 256 * 2 ^ 24 + toE % 256 * 2 ^ 16 + min 65535 ((stampNs h 0 - startNs) / 1000)]

/-- Every object in force BOUND: what gate condition [5] asks (R306). -/
def allBound (h : Hub) : Bool := (forceSlots h).all fun s => (mapEntry h s).state == 1

/-- Counts of objects, EV_FORESTER_PLACEMENT_DONE and LIMP cause [3] (R306, R324, R326). -/
def foresterUpdate (h : Hub) : Hub :=
  let a := wrs h [(0x4310_01, (definedSlots h).length), (0x4310_02, (unboundSlots h).length)]
  let now := allBound a && a.forester.placed
  let b := { a with forester := { a.forester with done := now } }
  let c := whenDo (now && !h.forester.done && mode h == 2) (fun g => raiseEvent g 0x1A 0 0) b
  setLimpCause 3 (!(unboundSlots c).isEmpty && mode c != 2) c

/-- An object loses its binding: UNBOUND, and EV_FORESTER_UNBOUND outside COMMISSION (R324). A map entry with an uncorrectable error is
not used (R260). -/
def unbind (slot : Nat) (h : Hub) : Hub :=
  if h.canopy.badMap.contains slot then h
  else
    let a := setMap slot { mapEntry h slot with state := 3 } h
    whenDo (mode h != 2) (fun g => raiseEvent g 0x1F 0 (slotHandle g slot)) a

/-- A failed placement is reported once per result code (R306). -/
def blockedAt (slot code : Nat) (h : Hub) : Hub :=
  if tabGet 256 h.forester.reported slot = code then h
  else raiseEvent { h with forester := { h.forester with reported := tabSet h.forester.reported slot code } } 0x19 0
    (code * 2 ^ 24 + slotHandle h slot)

/-- A placement run takes the definition of a slot that has no binding into force (R292). -/
def takeDef (s : Nat) (h : Hub) : Hub :=
  let e := mapEntry h s
  let f := h.forester
  let new := { e with state := 3, kind := defKind h s, hgen := defGen h s }
  if e.state = 1 ∨ e.state = 2 then h
  else whenDo (e != new) (setMap s new)
    { h with forester := { f with defs := tabSet f.defs s (ownDef h s, placeField h s), changed := f.changed.filter (· != s) } }

/-- Bind slot s to holder and base, under its definition in force (R292). -/
def bindSlot (s holder base : Nat) (h : Hub) : Hub :=
  let f := h.forester
  setMap s { mapEntry h s with state := 1, holder, base, length := objLength (forceKind h s) (forceDef h s) }
    { h with forester := { f with reported := tabErase f.reported s, refused := f.refused.filter fun x => x.1 != s } }

end Sys2Proof.Machine
end

