-- ==== Sys2Proof/Machine/Values.lean ====
section
/-! DEFINITION. The values an entry takes (R6, R8, R11): its type's width, its stated range, its defined bits. -/

namespace Sys2Proof.Machine

/-- A value outside the type or the stated range of an entry (R11). -/
def rowBad (r : Row) (v : Nat) : Bool :=
  decide (2 ^ tyBits r.ty ≤ v) || (!r.ok.isEmpty && !r.ok.any fun o => decide (o.1 ≤ v ∧ v ≤ o.2))

/-- The same, by entry. -/
def entryBad (index sub v : Nat) : Bool :=
  match entryRow index sub with
  | some r => rowBad r v
  | none => false

/-- What an entry keeps of a value: its reserved bits are stored as 0 (R6; assumption log 29). -/
def keptBits (index sub v : Nat) : Nat :=
  match entryRow index sub with
  | some r => v &&& r.mask
  | none => v

/-- Store a written value. -/
def storeEntry (index sub v : Nat) (h : Hub) : Hub := wr h (slotKey index sub) (keptBits index sub v)

end Sys2Proof.Machine
end

