-- ==== Sys2Proof/Machine/Forester.lean ====
section
/-! DEFINITION. Forester (R289 to R326): definitions, placement runs, moves and their migration frames, scoring, program
handover, holders that disappear. -/

namespace Sys2Proof.Machine

/-! ### Migration frames (R313) -/

/-- Send a migration frame from Ranger: class MG. -/
def migrate (dest op tag status handle : Nat) (more : List Word) (h : Hub) : Hub :=
  originate h 6 9 .mg dest 0 0
    (BitVec.ofNat 48 (op * 2 ^ 40 + tag % 256 * 2 ^ 32 + status % 256 * 2 ^ 24 + handle % 2 ^ 23) :: more)

def w48 (n : Nat) : Word := BitVec.ofNat 48 n

def setMove (m : Move) (h : Hub) : Hub :=
  { h with forester := { h.forester with
      moves := h.forester.moves.map fun x => if x.tag = m.tag then m else x } }

def dropMove (m : Move) (h : Hub) : Hub :=
  { h with forester := { h.forester with moves := h.forester.moves.filter fun x => x.tag != m.tag } }

def findMove (h : Hub) (tag : Nat) : Option Move := h.forester.moves.find? fun m => m.tag == tag

/-- The result of a move requested at 0x2311 (R325). -/
def requestResult (m : Move) (result : Nat) (h : Hub) : Hub :=
  if h.forester.request = some m.tag then
    wr { h with forester := { h.forester with request := none } } 0x2311_05 result
  else h

/-- A move ends with a result: counted, logged, answered to its request, and EV_FORESTER_MOVE_DONE or _ABORTED. A placement (trigger 1) is
no move: it is only logged. -/
def moveEnds (m : Move) (result : Nat) (h : Hub) : Hub :=
  let a := if m.trigger = 1 then h
    else if result = 0 ∨ result = 7 then whenDo (decide (m.slot < 4096)) (fun g => bump g (defKey m.slot 14)) (bump h 0x4310_03)
    else if result = 1 ∨ result = 5 then bump h 0x4310_04
    else if 2 ≤ result ∧ result ≤ 4 then bump h 0x4310_05 else h
  let b := whenDo ((m.trigger == 3 || m.trigger == 6) && (result == 0 || result == 7)) (fun g => bump g 0x4310_06) a
  let c := requestResult m result (foresterLog m.trigger result m.handle m.source m.target m.sourceE m.engine m.started b)
  if m.trigger = 1 then c
  else if result = 0 ∨ result = 7 then raiseEvent c 0x1B 0 result
  else if result = 1 ∨ result = 5 then raiseEvent c 0x1C 0 result
  else c

/-! ### Initial placement (R301 to R306) -/

/-- The anchor of an object (Table 4): none where it floats. -/
def anchor (h : Hub) (kind : Nat) (d : ObjDef) (place : Nat) : Option Nat :=
  match kind with
  | 4 => some (bits place 47 40)
  | 0 => if endKind d.source = 0 then none else some (endHub h d.source)
  | 1 =>
    if endKind d.consumer ≠ 0 then some (endHub h d.consumer)
    else if endKind d.source ≠ 0 then some (endHub h d.source) else none
  | _ => none

/-- Who holds a SIGNAL, as a placement run goes by it: its map entry, or, of one homed elsewhere, a value this hub's state does not give
(R299, R305; assumption log 73). -/
def signalHub (h : Hub) (handle : Nat) : Nat :=
  if handleHome handle = hubNumber h then (mapEntry h (handleSlot handle)).holder
  else if (residence h handle).isSome then hubNumber h
  else Config.signalHub handle % 254 + 1

/-- Who holds a SIGNAL now: the route it is consumed by, else a Reach translation, tell of one homed elsewhere that it has moved. -/
def signalHolder (h : Hub) (handle : Nat) : Nat :=
  if handleHome handle = hubNumber h ∨ (residence h handle).isSome then signalHub h handle
  else match tabFind h.cyc.routes handle with
    | some r => r.holder
    | none => ((reachFind h handle).map (·.holder)).getD (signalHub h handle)

/-- R299: the hub that holds most of a REFLEX's inputs, by what `holder` says of each; on a tie the present holder, else the lowest
number. -/
def bestReflexHub (h : Hub) (holder : Nat → Nat) (d : ObjDef) (present : Nat) : Nat :=
  let f1 := d.rule.getD 0 0
  let f2 := d.rule.getD 1 0
  let ins := [bits f1 22 0, bits f1 45 23, bits f2 22 0].filter (· != 0)
  let hubs := (ins.map holder).filter (· != 0)
  let count := fun n => hubs.countP (· == n)
  match (hubs.map count).max? with
  | none => if present = 0 then hubNumber h else present
  | some m =>
    if present ≠ 0 ∧ count present = m then present
    else ((hubs.filter fun n => count n == m).min?).getD (hubNumber h)

/-- Hubs a placement tries in order. -/
def placeTargets (h : Hub) (s : Nat) : List Nat :=
  let kind := forceKind h s
  let d := forceDef h s
  let pinned := bits (forcePlace h s) 47 40
  match anchor h kind d (forcePlace h s) with
  | some a => [a]
  | none =>
    if pinned ≠ 0 then [pinned]
    else if kind = 6 then [bestReflexHub h (signalHub h) d 0]
    else hubNumber h :: othersPresent h

/-- A fresh placement as a move without a holder A: trigger 1, or 6 after a lost holder. -/
def freshMove (trigger s target phase : Nat) (h : Hub) : Move :=
  { slot := s, handle := slotHandle h s, trigger, tag := h.forester.nextTag % 256, target, engine := 0xFF, source := 0, sourceE := 0xFF,
    started := stampNs h 0, switch := 0, phase, result := 0, acks := [] }

/-- Add a move to the list, its tag taken. -/
def listMove (m : Move) (h : Hub) : Hub :=
  { h with forester := { h.forester with moves := h.forester.moves ++ [m], nextTag := h.forester.nextTag % 256 + 1 } }

/-- Words 1 and 2 of the OFFER of a fresh placement. A STREAM's sending FIFO has no constraint of Table 4, for its hub is no holder. -/
def freshOffer (h : Hub) (s : Nat) (sending : Bool) : List Word :=
  let k := forceKind h s
  [w48 (k * 2 ^ 45 + objLength k (forceDef h s)), w48 (if sending then 0xFF000000 else forcePlace h s)]

/-- Offer a fresh placement to another hub. -/
def offerPlacement (trigger s target : Nat) (h : Hub) : Hub :=
  let m := freshMove trigger s target 1 h
  migrate target 1 m.tag 0 m.handle (freshOffer h s false) (listMove m h)

/-- Member hubs of a GROUP (Table 1). -/
def groupMembers (d : ObjDef) : List Nat :=
  let words := [d.source, d.consumer, d.pins.getD 0 0, d.pins.getD 1 0, d.pins.getD 2 0, d.pins.getD 3 0]
  (List.range 255).filter fun n => n != 0 && bit (words.getD (n / 48) 0) (n % 48)

/-- Add a GROUP to this hub's table of 256 (R148, Table 2); none where it is full. -/
def joinGroup (handle : Nat) (h : Hub) : Option Hub :=
  let rest := h.ring.groups.filter (· != handle)
  if rest.length < 256 then some { h with ring := { h.ring with groups := handle :: rest } } else none

/-- A fresh placement is done: bound at `holder` with `base`, and logged; a PROGRAM's engine is its base. -/
def placed (m : Move) (holder base : Nat) (h : Hub) : Hub :=
  moveEnds { m with target := holder, engine := if forceKind h m.slot = 4 then base else 0xFF } 0 (bindSlot m.slot holder base h)

/-- GROUP (Table 5 step 4): installed at each member hub, BOUND once all have acknowledged; blocked where the home's own table is full. -/
def placeGroup (trigger s : Nat) (h : Hub) : Hub :=
  let hd := slotHandle h s
  let members := groupMembers (forceDef h s)
  let others := members.filter (· != hubNumber h)
  match if members.contains (hubNumber h) then joinGroup hd h else some h with
  | none => blockedAt s 3 h
  | some a =>
    if others.isEmpty then placed (freshMove trigger s 0 6 a) 0 0 a
    else
      let m := { freshMove trigger s 0 6 a with acks := others }
      forEach others (fun n g => migrate n 0xB m.tag 0 hd [w48 1] g) (listMove m a)

/-- The hubs that have taken something of a placement that is not bound yet: the target of its OFFER, and the hub of the receiving FIFO. -/
def tookPart (m : Move) : List Nat := m.target :: m.acks

/-- A placement ends before it is bound: what was taken for it is given back, at other hubs by ABORT, and of a GROUP by its removal
(R280). -/
def cancelPlacement (m : Move) (h : Hub) : Hub :=
  let own := hubNumber h
  if m.phase = 6 then
    let others := (groupMembers (forceDef h m.slot)).filter (· != own)
    forEach others (fun n g => migrate n 0xB m.tag 0 m.handle [w48 0] g)
      (setMove { m with phase := 10, acks := others } { h with ring := { h.ring with groups := h.ring.groups.filter (· != m.handle) } })
  else
    let a := whenDo (m.phase == 11 && m.acks.isEmpty) (releaseObject 1 m.engine) h
    forEach (tookPart m) (fun n g => migrate n 8 m.tag 0 m.handle [] g) (setMove { m with phase := 5, acks := tookPart m } a)

/-- The receiving or only FIFO of a STREAM, or any other object, has been taken at `holder` with `base`: a STREAM between devices on two
hubs also takes a sending FIFO at the producer's hub (R458) before it is bound; `m` is the placement, `listed` whether it stands among
the moves. -/
def placeSending (m : Move) (listed : Bool) (holder base : Nat) (h : Hub) : Nat × Hub :=
  let own := hubNumber h
  let p := producerHub h (forceKind h m.slot) (forceDef h m.slot)
  let keep := fun (x : Move) (g : Hub) => if listed then setMove x g else listMove x g
  let commit := fun (g : Hub) =>
    if holder = own then placed m own base (if listed then dropMove m g else g)
    else placed m holder base (migrate holder 7 m.tag 0 m.handle [w48 (mapEntry g m.slot).bgen]
      (keep { m with phase := 4, target := holder, acks := [holder] } g))
  if p = 0 ∨ p = holder then (0, commit h)
  else if p = own then
    match hostStream m.handle (forceDef h m.slot) h with
    | .yes _ a => (0, commit a)
    | _ => (3, h)
  else
    let x := { m with phase := 11, target := p, engine := base, acks := if holder = own then [] else [holder] }
    (0, migrate p 1 m.tag 0 m.handle (freshOffer h m.slot true) (keep x h))

/-- Place slot s at one target: the result code where it cannot, 0 where it is placed or offered, 256 where it must wait, for a Grove to
be switched on or, with 4 moves in progress, for one of them (R311). -/
def placeAt (trigger s target : Nat) (h : Hub) : Nat × Hub :=
  if target = hubNumber h then
    match hostObject (slotHandle h s) (forceKind h s) (forceDef h s) (forcePlace h s) 0xFF h with
    | .no c => (c, h)
    | .wait a => (256, a)
    | .yes b a =>
      let r := placeSending (freshMove trigger s target 11 a) false target b a
      if r.1 = 0 then r else (r.1, h)
  else if !(othersPresent h).contains target then (4, h)
  else if 4 ≤ h.forester.moves.length then (256, h)
  else (0, offerPlacement trigger s target h)

/-- A placement that waits is tried again when a move has ended, or with time (assumption log 74). -/
def placeLater (s : Nat) (h : Hub) : Hub :=
  { h with forester := { h.forester with waiting := h.forester.waiting.filter (· != s) ++ [s] } }

/-- Try targets in order; the first failure code is reported where none does. -/
def placeFirst (trigger s : Nat) : List Nat → Nat → Hub → Hub
  | [], code, h => blockedAt s code h
  | t :: ts, code, h =>
    let r := placeAt trigger s t h
    if r.1 = 0 then r.2
    else if r.1 = 256 then placeLater s r.2
    else placeFirst trigger s ts (if code = 4 then r.1 else code) h

/-- The targets of a slot that have not refused it in this attempt (Table 5 step 5). -/
def targetsLeft (h : Hub) (s : Nat) : List Nat := (placeTargets h s).filter fun t => !h.forester.refused.contains (s, t)

/-- Try them. -/
def placeNext (trigger s code : Nat) (h : Hub) : Hub := placeFirst trigger s (targetsLeft h s) code h

/-- A target that did not take a slot is not asked again in this attempt. -/
def refusedBy (s target : Nat) (h : Hub) : Hub :=
  { h with forester := { h.forester with refused := (s, target) :: h.forester.refused } }

/-- One placement attempt of a slot (R254, R292, R294, R301). -/
def placeSlot (trigger s : Nat) (h : Hub) : Hub :=
  let released := tabHas h.canopy.released s && decide (stampNs h 0 < tabGet 0 h.canopy.released s + 2000000000)
  let busy := h.forester.moves.any fun m => m.slot == s
  let a := { h with forester := { h.forester with waiting := h.forester.waiting.filter (· != s) } }
  let tried := (h.forester.refused.any fun x => x.1 == s) && (targetsLeft h s).isEmpty
  if released || busy || tried || h.forester.census.contains s || (mapEntry h s).state != 3 then a
  else if !defValid (forceKind h s) (forceDef h s) then blockedAt s 2 a
  else if forceKind h s = 5 then placeGroup trigger s a
  else if forceKind h s = 4 ∧ bits (forcePlace h s) 47 40 = 0 then blockedAt s 2 a
  else placeNext trigger s 4 a

/-- Step of Table 5 a slot belongs to. -/
def placeStep (h : Hub) (s : Nat) : Nat :=
  let k := forceKind h s
  if k = 4 then 2
  else if k = 5 then 4
  else if k = 6 then 6
  else if (anchor h k (forceDef h s) (forcePlace h s)).isSome ∨ bits (forcePlace h s) 47 40 ≠ 0 then 3
  else 5

/-- A step of a placement run has not ended: an OFFER or a GROUP is unanswered, or a placement waits. -/
def stepOpen (h : Hub) : Bool :=
  !h.forester.waiting.isEmpty || h.forester.moves.any fun m => m.source == 0 && [1, 6, 11].contains m.phase

/-- The steps of Table 5 one after another, each in ascending slot order; a step begins once the one before it has ended. -/
def placeSteps : List Nat → Hub → Hub
  | [], h => h
  | st :: sts, h =>
    let a := forEach ((unboundSlots h).filter fun s => placeStep h s == st) (placeSlot 1) h
    if stepOpen a then a else placeSteps sts a

/-- Place what needs it, in the order of Table 5 (R301, R303); what is left of the run goes on when the answers come. -/
def placeAll (h : Hub) : Hub := foresterUpdate (placeSteps [2, 3, 4, 5, 6] h)

/-- A deleted object leaves a hub that holds it or its sending FIFO: it drains it to no hub. No rule names the frames: the home takes those
of a move to hub 0 (DESIGN CHOICE, assumption log 68). -/
def deleteAt (s hub : Nat) (h : Hub) : Hub :=
  let m := { freshMove 1 s 0 8 h with source := hub }
  migrate hub 3 m.tag 0 m.handle [w48 0] (listMove m h)

/-- The sending FIFO of a STREAM that is given back, if this hub has it (R458). -/
def releaseSending (handle : Nat) (h : Hub) : Hub :=
  match findFifo h 2 handle with
  | some f => releaseObject 1 f h
  | none => h

/-- What a bound object took is given back: here, at its holder, at the hub of its sending FIFO, at a GROUP's members. -/
def giveBack (s : Nat) (e : MapEntry) (h : Hub) : Hub :=
  let hd := slotHandle h s
  let own := hubNumber h
  if e.kind = 5 then
    let others := (groupMembers (forceDef h s)).filter (· != own)
    let m := { freshMove 1 s 0 10 h with acks := others }
    let a := { h with ring := { h.ring with groups := h.ring.groups.filter (· != hd) } }
    if others.isEmpty then a else forEach others (fun n g => migrate n 0xB m.tag 0 hd [w48 0] g) (listMove m a)
  else
    let p := producerHub h e.kind (forceDef h s)
    let a := if e.holder = own then releaseObject e.kind e.base h else if e.holder = 0 then h else deleteAt s e.holder h
    if p = 0 ∨ p = e.holder then a else if p = own then releaseSending hd a else deleteAt s p a

/-- The hub that holds an object, as this hub knows it: of one homed here by its map, of another by its residence here; 0 where it does
not know. -/
def knownHolder (h : Hub) (handle : Nat) : Nat :=
  if handleHome handle = hubNumber h then
    let e := mapEntry h (handleSlot handle)
    if (e.state = 1 ∨ e.state = 2) ∧ e.hgen = handleGen handle then e.holder else 0
  else if (residence h handle).isSome then hubNumber h else 0

/-- A binding still meets Table 4 (R303): anchor, pinned hub, zone, anti-affinity, and a PROGRAM's engine, clock and pins. Of a holder that
is another hub, its zone and what it holds beside this home's objects are not known here (assumption log 75). -/
def stillMeets (s : Nat) (e : MapEntry) (h : Hub) : Bool :=
  let own := hubNumber h
  let hd := slotHandle h s
  let d := forceDef h s
  let p := forcePlace h s
  e.kind == 5 ||
    ((match anchor h e.kind d p with
        | some a => a == e.holder
        | none => true)
      && (bits p 47 40 == 0 || bits p 47 40 == e.holder)
      && (bits p 39 32 == 0 || e.holder != own || bits p 39 32 == rd h 0x2310_01)
      && (bits p 22 0 == 0 || knownHolder h (bits p 22 0) != e.holder)
      && !((forceSlots h).any fun x => bits (forcePlace h x) 22 0 == hd && knownHolder h (slotHandle h x) == e.holder)
      && !(e.holder == own && (hosted h).any fun r => bits r.place 22 0 == hd)
      && (e.kind != 4 || e.holder != own || ((bits p 31 24 == 0xFF || bits p 31 24 == e.base) && engState h e.base != 6
        && clockOk (groveHz h (grove e.base)) d.sizeB (bits d.options 15 8)
        && !(pinList d ++ spareList d).any fun x => (usedPins h hd).contains x)))

/-- The pads of a PROGRAM that has no engine any more (Table 6) take their reset level when its definition goes, but for those another
PROGRAM uses (R50). -/
def retirePads (s : Nat) (e : MapEntry) (h : Hub) : Hub :=
  whenDo (e.kind == 4 && e.state == 3)
    (resetPads ((pinList (forceDef h s) ++ spareList (forceDef h s)).filter fun x => !(usedPins h 0).contains x)) h

/-- An object whose definition went, names another object or changed, or whose binding no longer meets Table 4, gives its binding back, or
what a placement in progress took for it (R291, R292, R303); a released slot keeps its stamp (R254). One that is being moved waits until
its move is over. -/
def retire (s : Nat) (h : Hub) : Hub :=
  let e := mapEntry h s
  let gone := defKind h s = 7 ∨ e.kind ≠ defKind h s ∨ e.hgen ≠ defGen h s
  if e.state = 0 ∨ e.state = 2 ∨ ¬ (gone ∨ h.forester.changed.contains s ∨ (e.state = 1 ∧ ¬ stillMeets s e h)) then h
  else
    let a := if e.state = 1 then giveBack s e h
      else forEach (h.forester.moves.filter fun m => m.slot == s && m.source == 0 && [1, 6, 11].contains m.phase) cancelPlacement h
    let b := setMap s { mapInit with state := if gone then 0 else 3, kind := e.kind, hgen := e.hgen, bgen := e.bgen } (retirePads s e a)
    if gone then { b with
        canopy := { b.canopy with released := tabSet b.canopy.released s (stampNs h 0) }
        forester := { b.forester with reported := tabErase b.forester.reported s, changed := b.forester.changed.filter (· != s)
                                      waiting := b.forester.waiting.filter (· != s) } }
    else b

/-- Send CENSUS frames to a hub for handles, 255 in a frame (R302). -/
def sendCensus (dest : Nat) : Nat → List Nat → Hub → Hub
  | 0, _, h => h
  | n + 1, handles, h =>
    if handles.isEmpty then h
    else
      let t := h.forester.nextTag % 256
      let l := handles.take 255
      sendCensus dest n (handles.drop 255) (migrate dest 9 t 0 0 (l.map w48)
        { h with forester := { h.forester with nextTag := t + 1, asked := h.forester.asked ++ [(t, dest, l)] } })

/-- Gate conditions [0] and [3] (Table 8 of Operating modes and start-up). -/
def gate0 (h : Hub) : Bool := (hubNumber h != 0 && !h.ring.conflict) || bench h
def gate3 (h : Hub) : Bool := h.store.loaded

/-- Placement may run (R301). -/
def placing (h : Hub) : Bool := mode h == 2 && gate0 h && gate3 h

/-- What no longer stands is given back, and the definitions as they stand are taken into force (R292, R303). -/
def takeDefs (h : Hub) : Hub := forEach (definedSlots h) takeDef (forEach (h.canopy.map.map (·.1)) retire h)

/-- A new attempt tries every hub again. -/
def freshTry (h : Hub) : Hub := { h with forester := { h.forester with refused := [] } }

/-- PLACEMENT_RUN (R301 to R305): after a reset the home first asks who still holds its objects; the run goes on when the
census ends. The run's duration is not modelled: 0x4310:0A takes a free value. -/
def placementRun (h : Hub) : Hub :=
  if placing h then
    let a := takeDefs (freshTry h)
    let f := takeFree a
    let b := wr f.2 0x4310_0A (f.1.toNat % 65536)
    let others := othersPresent b
    if b.forester.placed ∨ others.isEmpty then
      placeAll { b with forester := { b.forester with placed := true } }
    else
      let slots := unboundSlots b
      forEach others (fun n g => sendCensus n (slots.length / 255 + 1) (slots.map (slotHandle b)) g)
        { b with forester := { b.forester with placed := true, census := slots } }
  else h

def execPlacementRun (s : State) : Host.Outcome State Fault Refusal := onHub s placementRun

/-- PLACEMENT_RETRY (R306). -/
def execPlacementRetry (s : State) : Host.Outcome State Fault Refusal :=
  onHub s fun h => if placing h then placeAll (freshTry h) else h

/-- MIGRATION_CENSUS (R302): HELD for every listed handle with a VALID residence here; one with an uncorrectable error is not used
(R260). -/
def migrationCensus (src tag : Nat) (handles : List Nat) (h : Hub) : Hub :=
  let held := handles.filterMap fun x => (residence h x).bind fun r =>
    if r.state = 0 ∧ ¬ h.canopy.badRes.contains x then some (w48 (r.gen % 256 * 2 ^ 23 + x)) else none
  if held.isEmpty then h else migrate src 0xA tag 0 0 held h

def execMigrationCensus (src tag : Nat) (handles : List Nat) (s : State) : Host.Outcome State Fault Refusal :=
  onHub s (migrationCensus src tag handles)

/-- A slot's object was claimed by a hub: no census waits for it. -/
def claimed (src s handle : Nat) (h : Hub) : Hub :=
  { h with forester := { h.forester with
      census := h.forester.census.filter (· != s), lost := h.forester.lost.filter (· != s)
      asked := h.forester.asked.filter fun c => !(c.2.1 == src && c.2.2.contains handle) } }

/-- One handle of a HELD frame. After a reset of the home it rebinds the object to that holder with that generation (R302); the frame
carries no base, so the map's base is a free value. Of a holder that has reappeared it must match the binding, which then stands
(R323). -/
def heldBy (src : Nat) (x : Nat × Nat) (h : Hub) : Hub :=
  let s := handleSlot x.2
  let e := mapEntry h s
  if handleHome x.2 ≠ hubNumber h ∨ ¬ h.forester.census.contains s ∨ slotHandle h s ≠ x.2 then h
  else if e.state = 3 then
    let f := takeFree h
    let b := bindSlot s src (f.1.toNat % 2 ^ 20) (claimed src s x.2 f.2)
    setMap s { mapEntry b s with bgen := x.1 % 256 } b
  else if e.holder = src ∧ e.bgen = x.1 % 256 then claimed src s x.2 h
  else h

/-- MIGRATION_HELD (R302, R323). -/
def migrationHeld (src : Nat) (held : List (Nat × Nat)) (h : Hub) : Hub := foresterUpdate (forEach held (heldBy src) h)

def execMigrationHeld (src : Nat) (held : List (Nat × Nat)) (s : State) : Host.Outcome State Fault Refusal :=
  onHub s (migrationHeld src held)

/-! ### Definition writes (R291, R292) -/

/-- The value stored in the Definition field (R291). -/
def definitionValue (old value : Nat) : Nat :=
  let k := bits value 2 0
  let ko := bits old 2 0
  let g := if k = 7 then (if ko = 7 then bits value 5 3 else bits old 5 3)
    else if k = ko then bits old 5 3 else (bits old 5 3 + 1) % 8
  k + 8 * g

/-- The bits of a definition field that a kind has (Table 1): those of fields 8 and 10 beside a GROUP's members are reserved. -/
def fieldBits (kind field v : Nat) : Nat :=
  if kind = 5 ∨ kind = 7 then v
  else if field = 8 then v &&& 0xFFFF0FFFFF
  else if field = 10 then v &&& 0xFFFFFF
  else v

/-- A value names a hub that no GROUP may have as member: only bits 1 to 254 of the member set may be 1 (Table 1). -/
def memberBad (kind field v : Nat) : Bool := kind == 5 && ((field == 5 && bit v 0) || (field == 10 && decide (2 ^ 15 ≤ v)))

/-- Store a definition field, and place again in COMMISSION (R292, R301). -/
def definitionWrite (slot field value : Nat) (h : Hub) : Hub :=
  let k := defKey slot field
  let v := if field = 1 then definitionValue (rd h k) value
    else fieldBits (defKind h slot) field (keptBits (k / 256) (k % 256) value)
  let a0 := wr h k v
  let a := if field = 1 then
      wrs a0 ([8, 10].map fun f => (defKey slot f, fieldBits (defKind a0 slot) f (rd a0 (defKey slot f)))) else a0
  let b := wr a (defKey slot 2) (defHandle a slot)
  let c := { b with forester := { b.forester with changed := slot :: b.forester.changed.filter (· != slot) } }
  foresterUpdate (placementRun c)

def execDefinitionWrite (p : Path) (slot field value : Nat) (s : State) : Host.Outcome State Fault Refusal :=
  onHub s fun h =>
    pathWrite p (0x3800 + slot / 16) (16 * (slot % 16) + field) value (fun _ c => { c with
      noSub := c.noSub || decide (4096 ≤ slot) || field == 0 || decide (15 < field)
      value := c.value || entryBad (0x3800 + slot / 16) (16 * (slot % 16) + field) value || (field == 12 && !([0, 1, 2].contains (bits value 17 16)))
        || memberBad (defKind h slot) field value }) (definitionWrite slot field value) h

/-! ### Costs (R297, R298) -/

/-- Weighted traffic T_r of a requester's counts. -/
def weighted (h : Hub) (c : List Nat) : Nat := (c.zipIdx.map fun p => rd h (0x2310_08 + p.2) * p.1).sum

/-- Position of a hub on the ring from this home (R298). -/
def ringPos (h : Hub) (n : Nat) : Nat :=
  if n = hubNumber h then 0 else distance h (bit (rd h 0x4100_03) 0 == false) n

/-- Hop distance of R298. -/
def hopDistance (h : Hub) (x y : Nat) : Nat :=
  let n := max 1 (presentHubs h).length
  let a := (ringPos h y + n - ringPos h x % n) % n
  let b := (ringPos h x + n - ringPos h y % n) % n
  min a b

/-- The cost of a candidate hub. -/
def costAt (h : Hub) (c : Nat) (t : List (Nat × Nat)) : Nat := (t.map fun r => r.2 * hopDistance h c r.1).sum

/-- The lowest-cost candidate: the present holder and the requesters. -/
def bestCandidate (h : Hub) (holder : Nat) (t : List (Nat × Nat)) : Nat × Nat :=
  t.foldl (fun b r => if costAt h r.1 t < b.2 then (r.1, costAt h r.1 t) else b) (holder, costAt h holder t)

/-! ### Starting a move (R295, R308 to R312, R318) -/

/-- Objects that may move between hubs (R295). -/
def floating (h : Hub) (s : Nat) : Bool :=
  let d := (boundDef h s).1
  match (mapEntry h s).kind with
  | 0 => endKind d.source == 0 && endKind d.consumer == 0
  | 1 => endKind d.source == 0 && endKind d.consumer == 0
  | 2 | 3 | 6 => true
  | _ => false

/-- Words of object state a move copies (R315), of a STREAM none yet. -/
def stateWords (kind length : Nat) : Nat := if kind = 0 ∨ kind = 6 then 1 else if kind = 1 then 2 else length

/-- What the copy of an object would carry now (R315, R318, R466): of a STREAM held here its words in groups and two pointer words; of one
held elsewhere a number its home cannot know, a free value up to what its capacity gives (assumption log 76). -/
def copyWords (h : Hub) (kind holder base length : Nat) : Nat :=
  if kind ≠ 1 then stateWords kind length
  else if holder = hubNumber h then 2 + (streamGroups 4096 ((fifo h base).words.map (·.1))).length
  else 2 + (Config.freeValue h.freeCount).toNat % (length + (length + 7) / 8 + 1)

/-- Why no move of an object may start now, as a result code of Table 9; 0 where it may. `words` is what its copy carries. -/
def moveBarred (h : Hub) (handle trigger words : Nat) : Nat :=
  let freeze := rd h 0x2310_02
  let load := trigger == 2 || trigger == 7 || trigger == 8
  let recent := h.forester.starts.filter fun t => decide (stampNs h 0 < t + 1000000000)
  if freeze = 2 ∨ (freeze = 1 ∧ load) then 6
  else if h.forester.moves.any (fun m => m.handle == handle) then 2
  else if rd h 0x2310_06 ≤ recent.length ∨ 4 ≤ h.forester.moves.length then 3
  else if rd h 0x2310_07 * rd h 0x2301_06 * 1000 < 2 * 48 * words then 2
  else 0

/-- A new move of an object from its holder, its tag taken and its start noted (R311). -/
def newMove (handle source sourceE trigger target engine phase : Nat) (h : Hub) : Move × Hub :=
  let t := h.forester.nextTag % 256
  let m : Move := { slot := if handleHome handle = hubNumber h then handleSlot handle else 4096, handle, trigger, tag := t, target,
                    engine, source, sourceE, started := stampNs h 0, switch := 0, phase, result := 0, acks := [] }
  (m, { h with forester := { h.forester with
        moves := h.forester.moves ++ [m], nextTag := t + 1, starts := stampNs h 0 :: h.forester.starts.filter fun x =>
          decide (stampNs h 0 < x + 1000000000) } })

/-- Moves this hub takes part in as holder or target (R311): offers accepted and not committed, drains, and moves of its own objects from
or to it. -/
def takesPart (h : Hub) : Nat :=
  h.forester.incoming.length + h.forester.outgoing.length + h.canopy.residences.countP (fun r => r.state == 2)
    + h.forester.moves.countP fun m => [1, 2, 3].contains m.phase && m.source == hubNumber h && m.target != hubNumber h

/-- T_s of a SIGNAL or REFLEX: the first cycle start at least 3 periods after DRAIN (R319). -/
def switchTime (h : Hub) : Nat :=
  let p := max 1 h.cyc.period
  (nowNs h + 3 * p + p - 1) / p * p

/-- A rebind notice changes a route (R339): by code 1 to the new holder and slot for the windows from cycle `cycle` on; by code 2 back to
the old ones, from the window after `number` on where it has changed over already. -/
def rerouted (code holder slot cycle number : Nat) (r : Route) : Route :=
  if code = 2 then
    match r.next, r.old with
    | some _, _ => { r with next := none }
    | none, some o => { r with next := some (o.1, o.2, (number + 1) % 2 ^ 30), old := none }
    | none, none => r
  else { r with next := some (holder, slot, cycle % 2 ^ 30) }

/-- The home, too, takes the word of a SIGNAL that moves from the new holder from the announced cycle on, or goes back to the old one
(R339). -/
def ownRebind (code handle holder slot cycle : Nat) (h : Hub) : Hub :=
  let e := mapEntry h (handleSlot handle)
  let r := (tabFind h.cyc.routes handle).getD { holder := e.holder, slot := e.base, next := none, old := none }
  { h with cyc := { h.cyc with routes := tabSet h.cyc.routes handle (rerouted code holder slot cycle h.cyc.number r) } }

/-- The rebind notice of a SIGNAL (R338, Table 3 of Cyclic exchange): code 1 rebind, 2 cancelled; the new holder and slot in both. -/
def rebindNotice (code handle holder slot switch : Nat) (h : Hub) : Hub :=
  let cycle := switch / max 1 h.cyc.period
  ownRebind code handle holder slot cycle
    (originate h 7 0 .cy 255 (h.cyc.number % 256 * 2 ^ 8 + 2 ^ 3) 0
      [w48 (code * 2 ^ 40 + handle), w48 (holder * 2 ^ 40 + slot % 1024 * 2 ^ 30 + cycle % 2 ^ 30)])

/-- The state words of an object held here; none where one is poisoned (R315, R317, R466). -/
def objectState (h : Hub) (kind base length : Nat) : Option (List Word) :=
  match kind with
  | 0 => some [signalValue h base]
  | 1 =>
    let x := fifo h base
    if x.words.any (·.1.poison) then none
    else some (streamGroups 4096 (x.words.map (·.1))
      ++ [w48 (x.read * 2 ^ 32 + b2n x.mark * 2 ^ 31 + rd h (fifoKey base 3) * 2 ^ 24), 0])
  | 2 | 3 =>
    let ws := (List.range length).map fun i => readWord h (base + i)
    if ws.any (·.2) then none else some (ws.map (·.1))
  | 6 => some [tabGet 0 h.cyc.results base]
  | _ => some []

/-- DATA frames of object state, 254 words each, class BK (Table 7). -/
def sendData (dest tag handle : Nat) : Nat → Nat → List Word → Hub → Hub
  | 0, _, _, h => h
  | n + 1, first, ws, h =>
    if ws.isEmpty then h
    else sendData dest tag handle n (first + 254) (ws.drop 254)
      (originate h 6 9 .bk dest 0 0 ([w48 (5 * 2 ^ 40 + tag % 256 * 2 ^ 32 + handle), w48 first] ++ ws.take 254))

/-- Put state words into an object installed here. -/
def installState (kind base : Nat) (ws : List Word) (h : Hub) : Hub :=
  match kind with
  | 0 => setSignal base (ws.getD 0 0) h
  | 2 | 3 => writeWords base ws h
  | 6 => { h with cyc := { h.cyc with results := tabSet h.cyc.results base (ws.getD 0 0) } }
  | _ => h

/-- FIFO words of the group format: one descriptor, then up to 8 data words (Table 4 of Stream FIFOs). -/
def groupWords : Nat → List Word → List XWord
  | 0, _ => []
  | n + 1, ws =>
    match ws with
    | [] => []
    | d :: rest =>
      let one := fun (p : Word × Nat) =>
        let nib := bits d.toNat (4 * p.2 + 3) (4 * p.2)
        ({ data := p.1, poison := false, endMark := bit nib 3, count := nib % 8 } : XWord)
      ((rest.take 8).zipIdx.map one) ++ groupWords n (rest.drop 8)

/-- Install a STREAM's state: held words, then read position, mark and budget (R466). -/
def installStream (f : Nat) (ws : List Word) (h : Hub) : Hub :=
  let held := groupWords ws.length (ws.take (ws.length - 2))
  let p := (ws.getD (ws.length - 2) 0).toNat
  let x := fifo h f
  wr (setFifo h f { x with words := held.zipIdx, wIdx := held.length, e := held.length, read := bits p 47 32, mark := bit p 31 })
    (fifoKey f 3) (bits p 30 24)

/-! ### Commit and abort (Table 7 of Canopy addressing, R280, R319) -/

/-- A SIGNAL or REFLEX held here starts or stops at T_s (R319). -/
def addSwitch (handle t : Nat) (starting : Bool) (h : Hub) : Hub :=
  { h with cyc := { h.cyc with switches := h.cyc.switches ++ [(handle, t, starting)] } }

/-- The old holder's part of a commit: residence removed, what it held given back. -/
def leaveHolder (handle kind base : Nat) (h : Hub) : Hub :=
  let a := releaseObject kind base h
  { dropResidence handle a with cyc := { a.cyc with switches := a.cyc.switches.filter fun x => x.1 != handle } }

/-- The old holder's part of the commit of a move with switch time t: a SIGNAL or REFLEX goes on here for the cycles that start before t
(R319). -/
def leaveAt (t handle kind base : Nat) (h : Hub) : Hub :=
  if (kind = 0 ∨ kind = 6) ∧ h.cyc.running ∧ h.cyc.start < t then
    let a := dropResidence handle h
    { a with cyc := { a.cyc with leaving := { handle, kind, base, switch := t, defn := heldDef h handle } :: a.cyc.leaving } }
  else leaveHolder handle kind base h

/-- What has gone on until its switch time is given back at the first cycle start that reaches it. -/
def leaveDue (h : Hub) : Hub :=
  let due := h.cyc.leaving.filter fun l => decide (l.switch ≤ h.cyc.start)
  forEach due (fun l g => leaveHolder l.handle l.kind l.base g)
    { h with cyc := { h.cyc with leaving := h.cyc.leaving.filter fun l => !decide (l.switch ≤ h.cyc.start)
                                 switches := h.cyc.switches.filter fun x => !(x.2.2 && decide (x.2.1 ≤ h.cyc.start)) } }

/-- The new holder's part: its residence becomes VALID. -/
def joinHolder (handle gen : Nat) (h : Hub) : Hub :=
  match residence h handle with
  | some r => setResidence { r with state := 0, gen } h
  | none => h

/-- Placements that wait are tried again: in COMMISSION the run goes on, outside it what a lost holder left (R323). -/
def placeWaiting (h : Hub) : Hub :=
  if placing h && h.forester.placed then placeAll h
  else if mode h = 2 then h
  else foresterUpdate (forEach h.forester.waiting (placeSlot 6) h)

/-- What waited for a move: in COMMISSION, definitions written meanwhile, and placements that found 4 moves in progress (R311). -/
def afterMove (h : Hub) : Hub := foresterUpdate (placeWaiting (whenDo (placing h && h.forester.placed) takeDefs h))

/-- A move is over: dropped from the list, its held requests released. -/
def moveOver (m : Move) (h : Hub) : Hub := drainPorts (afterMove (releaseHeld m.slot (dropMove m h)))

/-- The last commit of a slot lies less than 10 ms in the past: the home refuses the next (R263). -/
def commitBarred (h : Hub) (s : Nat) : Bool :=
  tabHas h.canopy.committed s && decide (stampNs h 0 < tabGet 0 h.canopy.committed s + 10000000)

/-- A fresh placement or a move from a holder is aborted (R280). A map entry with an uncorrectable error is not used (R260): it stays as it
is. The cancellation of a rebind names what the notice named (R338). -/
def abortMove (m : Move) (result : Nat) (h : Hub) : Hub :=
  let e := mapEntry h m.slot
  let own := hubNumber h
  let signal := e.kind == 0 && m.switch != 0
  let back := whenDo (m.target == own && (m.phase == 2 || m.phase == 3)) (releaseObject e.kind m.engine) h
  let a := whenDo signal (rebindNotice 2 m.handle m.target m.engine m.switch) (bump back 0x4300_09)
  let b := whenDo (!h.canopy.badMap.contains m.slot) (setMap m.slot { e with state := 1 }) a
  let c := { b with
    cyc := { b.cyc with switches := b.cyc.switches.filter fun x => x.1 != m.handle }
    forester := { b.forester with incoming := b.forester.incoming.filter fun i => !(i.home == own && i.tag == m.tag) } }
  let acks := [m.source, m.target].filter fun n => n != 0 && n != own
  let d := forEach acks (fun n g => migrate n 8 m.tag 0 m.handle [] g) c
  if m.source = 0 then foresterUpdate (blockedAt m.slot result (moveEnds m result (cancelPlacement m (refusedBy m.slot m.target h))))
  else if acks.isEmpty then moveOver m (moveEnds m result d)
  else setMove { m with phase := 5, acks, result } (releaseHeld m.slot (moveEnds m result d))

/-- The commit at the home (steps 5 to 7): `base` is the base at B. -/
def commitMove (m : Move) (base : Nat) (h : Hub) : Hub :=
  let e := mapEntry h m.slot
  let hd := slotHandle h m.slot
  let gen := (e.bgen + 1) % 256
  let own := hubNumber h
  let a := setMap m.slot { e with state := 1, holder := m.target, base, bgen := gen } h
  let b := { a with canopy := { a.canopy with committed := tabSet a.canopy.committed m.slot (stampNs h 0) } }
  let c := if m.source = own then leaveAt m.switch hd e.kind e.base b
    else if m.source = 0 then b else migrate m.source 7 m.tag 0 hd [w48 gen] b
  let d := if m.target = own then c else migrate m.target 7 m.tag 0 hd [w48 gen] c
  let f := moveEnds m 0 d
  let acks := [m.source, m.target].filter fun n => n != 0 && n != own
  let m' := { m with phase := 4, acks }
  if m.target = own then moveOver m' f else setMove m' f


/-- Copy an object from this hub, as holder A, to the target: the frames of its state, or nothing where a word is
poisoned. -/
def copyOut (target tag handle kind base length : Nat) (h0 : Hub) : Bool × Hub :=
  let h := if kind = 1 then fifoScan base (fifo h0 base).words.length h0 else h0
  match objectState h kind base length with
  | none => (false, h)
  | some ws => (true, sendData target tag handle ws.length 0 ws h)

/-- Step 1 and 2 at the home after the target accepted: MOVING, and DRAIN to holder A (R278, R319, R338). Where A is this
hub it drains and copies at once. -/
def drainMove (m0 : Move) (newBase : Nat) (h : Hub) : Hub :=
  let e := mapEntry h m0.slot
  let hd := slotHandle h m0.slot
  let own := hubNumber h
  let timed := e.kind == 0 || e.kind == 6
  let ts := if timed then switchTime h else 0
  let m := { m0 with phase := 2, switch := ts, engine := newBase }
  let a := setMove m (setMap m.slot { e with state := 2 } h)
  let b := whenDo (e.kind == 0) (rebindNotice 1 hd m.target newBase ts) a
  if m.source = own then
    let c := whenDo timed (addSwitch hd ts false) b
    match copyOut m.target m.tag hd e.kind e.base e.length c with
    | (true, g) => setMove { m with phase := 3 } g
    | (false, g) => abortMove m 5 g
  else
    migrate m.source 3 m.tag 0 hd ([w48 m.target] ++ (if timed then [w48 (ts / 1000000000), w48 (ts % 1000000000 * 65536)] else []))
      (whenDo (timed && m.target == own) (addSwitch hd ts true) b)

/-- Too late to commit a move with a switch time (R319). -/
def switchLate (h : Hub) (m : Move) : Bool := m.switch != 0 && decide (m.switch ≤ nowNs h + h.cyc.period)

/-- Commit, unless the last commit is too recent (R263), which leaves the move to its time limit, a timed switch is too near (R319), or the
map entry has an uncorrectable error and cannot be used (R260). -/
def tryMoveCommit (m : Move) (base : Nat) (h : Hub) : Hub :=
  if commitBarred h m.slot then h
  else if switchLate h m || h.canopy.badMap.contains m.slot then abortMove m 1 h
  else commitMove m base h

/-- Moves that have not committed one period before their switch time are aborted (R319). -/
def abortLate (h : Hub) : Hub :=
  forEach (h.forester.moves.filter fun m => (m.phase == 2 || m.phase == 3) && switchLate h m) (fun m g => abortMove m 1 g) h

/-- A move that did not start is counted where it was refused (Table 10). -/
def moveRefused (code : Nat) (h : Hub) : Hub := whenDo (decide (2 ≤ code) && decide (code ≤ 4)) (fun g => bump g 0x4310_05) h

/-- Start a move of a floating object to a hub; the result code where it does not start. -/
def startMove (s trigger target : Nat) (h0 : Hub) : Nat × Hub :=
  let e := mapEntry h0 s
  let own := hubNumber h0
  let hd := slotHandle h0 s
  let bar := moveBarred h0 hd trigger (copyWords h0 e.kind e.holder e.base e.length)
  let h := if e.kind = 1 ∧ e.holder ≠ own then (takeFree h0).2 else h0
  if bar = 6 then (6, h)
  else if e.state ≠ 1 ∨ h.canopy.badMap.contains s ∨ !floating h s then (2, h)
  else if bar ≠ 0 then (bar, h)
  else if target = e.holder then (4, h)
  else if target = own then
    if 4 ≤ takesPart h then (3, h)
    else match hostObject hd e.kind (forceDef h s) (forcePlace h s) 0xFF h with
    | .yes b a =>
      let n := newMove hd e.holder 0xFF trigger target 0xFF 1 a
      let inc : Incoming := { home := own, tag := n.1.tag, words := [],
                              entry := { handle := hd, kind := e.kind, base := b, length := e.length, gen := e.bgen,
                                         state := 2, defn := forceDef h s, place := forcePlace h s } }
      (0, drainMove n.1 b { n.2 with forester := { n.2.forester with incoming := n.2.forester.incoming ++ [inc] } })
    | .wait a => (3, a)
    | .no c => (c, h)
  else if !(othersPresent h).contains target then (4, h)
  else if e.holder = own ∧ 4 ≤ takesPart h then (3, h)
  else
    let n := newMove hd e.holder 0xFF trigger target 0xFF 1 h
    (0, migrate target 1 n.1.tag 0 hd [w48 (e.kind * 2 ^ 45 + e.length), w48 (forcePlace h s)] n.2)

/-- Start a move, and count it where it is refused. -/
def tryMove (s trigger target : Nat) (h : Hub) : Hub :=
  let r := startMove s trigger target h
  moveRefused r.1 r.2

/-! ### Program handover between engines (R320 to R322, R428) -/

/-- What this hub holds under a handle: of an object homed here by its map entry and its definition in force, of another by its
residence. -/
def heldObject (h : Hub) (handle : Nat) : Option Residence :=
  if handleHome handle = hubNumber h then
    let s := handleSlot handle
    let e := mapEntry h s
    if e.state = 1 ∧ e.holder = hubNumber h ∧ e.hgen = handleGen handle ∧ ¬ h.canopy.badMap.contains s then
      some { handle, kind := e.kind, base := e.base, length := e.length, gen := e.bgen, state := 0, defn := forceDef h s, place := forcePlace h s }
    else none
  else (residence h handle).bind fun r => if r.state = 0 ∧ ¬ h.canopy.badRes.contains handle then some r else none

/-- The PROGRAM bound to an engine, as this hub holds it. -/
def programOn (h : Hub) (n : Nat) : Option Residence :=
  if rd h (engKey n 0x12) = 0 then none
  else (heldObject h (rd h (engKey n 0x12))).bind fun r => if r.kind = 4 ∧ r.base = n then some r else none

/-- A Grove takes part in a program handover (R311). -/
def groveBusy (h : Hub) (g : Nat) : Bool :=
  h.forester.moves.any fun m => m.phase == 7 && (grove m.engine == g || grove m.sourceE == g)

/-- Step 1 of Table 8: the target engine is loaded with the image and stays halted. It is bound to nothing, and its pins drive nothing,
until step 5; 256 while either Grove has a handover in progress (R311). -/
def startHandover (r : Residence) (trigger target : Nat) (h : Hub) : Nat × Hub :=
  if groveBusy h (grove target) || groveBusy h (grove r.base) then (256, h)
  else
    let n := newMove r.handle (hubNumber h) r.base trigger (hubNumber h) target 7
      (setEngine h r.base { engine h r.base with keepHalted := false })
    let image := rd h (engKey r.base 0x13)
    if target = r.base then (0, n.2)
    else (0, wrs (setEngine n.2 target { engineInit with prog := imageProg h image })
      [(engKey target 1, 2), (engKey target 3, dividerFor (groveHz h (grove target)) r.defn.sizeB), (engKey target 0x13, image)])

/-- The engine a move of a PROGRAM must take: the pinned one where its definition pins it, which a request cannot change (R294). -/
def engineWanted (r : Residence) (wanted : Nat) : Option Nat :=
  let pinned := bits r.place 31 24
  if pinned = 0xFF ∨ pinned = wanted then some wanted else if wanted = 0xFF then some pinned else none

/-- Start a move of a PROGRAM held here to an engine that Table 4 allows: `wanted` or the best one outside Grove `avoid`; 256 where it must
wait, for a handover in its Groves to end or for the target's Grove to be switched on. -/
def moveProgram (r : Residence) (trigger wanted avoid : Nat) (h : Hub) : Nat × Hub :=
  let bar := moveBarred h r.handle trigger 0
  if bar ≠ 0 then (bar, h)
  else match (engineWanted r wanted).bind fun w => bestEngine h (engineCandidates h r.defn w avoid) with
    | none => (if engineWanted r wanted = none then 2 else 4, h)
    | some n => if domainState h (grove n) ≠ 3 then (256, voteReturn (grove n) 16 h) else startHandover r trigger n h

/-- The spare of engine pin k that may take its place: one not in use yet. -/
def freeSpare (d : ObjDef) (g : Engine) (k : Nat) : Option Nat := (spareOf d k).bind fun x => if g.spares.contains x then some x else none

/-- The pins of a program after a rebind: a failed pin with a spare to take its place is replaced (R785). -/
def sparePins (d : ObjDef) (g : Engine) (failed : Nat → Bool) : List Nat :=
  g.pins.zipIdx.map fun p => if failed p.1 then (freeSpare d g p.2).getD p.1 else p.1

/-- Whether an FIO pin's driver has failed (0x4601). -/
def pinFailed (h : Hub) (fio : Nat) : Bool := bit (rd h (0x4601_01 + fio / 48)) (fio % 48)

/-- The map entry of a PROGRAM homed here commits with the base set to the new engine; the residence of one homed elsewhere takes it, and
its home, which no frame tells, keeps its generation (DESIGN CHOICE, assumption log 68). -/
def commitHandover (handle dst : Nat) (h : Hub) : Hub :=
  if handleHome handle = hubNumber h then
    let s := handleSlot handle
    let e := mapEntry h s
    let a := setMap s { e with base := dst, bgen := (e.bgen + 1) % 256 } h
    { a with canopy := { a.canopy with committed := tabSet a.canopy.committed s (stampNs h 0) } }
  else match residence h handle with
    | some r => setResidence { r with base := dst } h
    | none => h

/-- Steps 2 to 7 of Table 8: the state of E_s, or a clean load where it cannot be read, runs on in E_t, and the attachments and pins change
over. The time the outputs were held is a free value of at most 2,000 ns (R321). -/
def handOver (m : Move) (readOk : Bool) (h : Hub) : Hub :=
  let src := m.sourceE
  let dst := m.engine
  let d := heldDef h m.handle
  let g := engine h src
  let running := (engState h src == 3 || engState h src == 4 || engState h src == 6) && !g.keepHalted
  let image := rd h (engKey src 0x13)
  let div := rd h (engKey src 3)
  let pins := if m.trigger = 4 then sparePins d g (pinFailed h) else g.pins
  let gone := g.pins.filter fun x => !pins.contains x
  let f := takeFree h
  let a := peak f.2 0x4310_09 (f.1.toNat % 2001)
  let kept : Engine := { g with prog := imageProg h image, pins, acc := 0, keepHalted := false, failed := gone ++ g.failed
                                spares := g.spares.filter (!pins.contains ·) }
  let free := { (if src = dst then a else freeEngine src a) with pads := a.pads }
  let b := setEngine (releasePads gone free) dst kept
  let c := wrs b [(engKey dst 1, if running then 3 else 2), (engKey dst 0x12, m.handle), (engKey dst 0x13, image),
    (engKey dst 3, if src = dst then div else dividerFor (groveHz h (grove dst)) d.sizeB)]
  let e := if readOk then c else
    let p := takeFree c
    engineLoad dst image (if running then 3 else 2) (some (p.1.setWidth 8)) p.2
  let l := bump (commitHandover m.handle dst (syncPins dst e)) 0x4310_08
  let n := dropMove m (moveEnds m (if readOk then 0 else 7) l)
  if m.trigger = 4 then raiseEvent (bump n 0x4310_07) 0x1D dst 0 else n

/-- HANDOVER_HALT (R320): E_s is at a stall or the handover wait is over. Within 10 ms of the last commit the home would refuse this one
(R263): the program runs on in E_s until a later boundary. -/
def handoverHalt (src : Nat) (readOk : Bool) (h : Hub) : Hub :=
  match h.forester.moves.find? fun m => m.phase == 7 && m.sourceE == src with
  | none => h
  | some m => if commitBarred h m.slot then h else foresterUpdate (handOver m readOk h)

def execHandoverHalt (source : Fin 64) (readOk : Bool) (s : State) : Host.Outcome State Fault Refusal :=
  onHub s (handoverHalt source readOk)

/-- The slot of a PROGRAM homed here that is bound to an engine of this hub. -/
def engineSlot (h : Hub) (n : Nat) : Option Nat :=
  (forceSlots h).find? fun s => (mapEntry h s).kind == 4 && (mapEntry h s).state == 1 && (mapEntry h s).holder == hubNumber h
    && (mapEntry h s).base == n

/-- The pins of an engine that lost its program stay at their safe levels; hold keeps the present level (Table 6). -/
def pinsSafe (was : Hub) (n : Nat) (h : Hub) : Hub :=
  let g := engine was n
  forEach g.pins.zipIdx (fun pk a =>
    { a with pads := tabSet a.pads pk.1 (if safeCode g pk.2 = 3 then tabGet (padReset was) was.pads pk.1 else safeCode g pk.2) }) h

/-- A program handover ends before its step 2 with a result: its target engine is free again. -/
def abortHandover (m : Move) (result : Nat) (h : Hub) : Hub :=
  moveEnds m result (dropMove m (if m.engine = m.sourceE then h else freeEngine m.engine h))

/-- A failure of an object that is being moved for load aborts that move (R312). -/
def abortLoad (handle : Nat) (h : Hub) : Hub :=
  match h.forester.moves.find? fun m => m.handle == handle && (m.trigger == 2 || m.trigger == 7 || m.trigger == 8) with
  | none => h
  | some m =>
    if m.phase = 7 then abortHandover m 1 h
    else if m.phase = 1 ∨ m.phase = 2 ∨ m.phase = 3 then abortMove m 1 h
    else h


/-- A PROGRAM without a usable engine: UNBOUND, its pins at their safe levels (Table 6); of one homed elsewhere this hub gives up its
residence. -/
def loseProgram (r : Residence) (h : Hub) : Hub :=
  let a := pinsSafe h r.base (freeEngine r.base h)
  if handleHome r.handle = hubNumber h then foresterUpdate (unbind (handleSlot r.handle) a) else dropResidence r.handle a

/-- A spare-pin rebind of an engine that then fails gives way to the failure move. -/
def dropRebind (handle : Nat) (h : Hub) : Hub :=
  match h.forester.moves.find? fun m => m.handle == handle && m.phase == 7 && m.engine == m.sourceE with
  | some m => abortHandover m 1 h
  | none => h

/-- Trigger 0x03 (Table 6): an engine was marked UNUSABLE. A handover that takes the PROGRAM off it goes on; one that cannot start for now
waits; with no target, or freeze 2, the PROGRAM is lost. -/
def engineFailed (n : Nat) (h : Hub) : Hub :=
  match programOn h n with
  | none => h
  | some r =>
    let a := dropRebind r.handle (abortLoad r.handle h)
    if a.forester.moves.any fun m => m.handle == r.handle then a
    else
      let x := moveProgram r 3 0xFF 8 a
      if x.1 = 0 then x.2
      else if x.1 = 256 ∨ x.1 = 3 then dueLater n 3 x.2
      else loseProgram r x.2


/-- A failed pin that no spare replaces now goes to high impedance, and the program runs on (Table 6). -/
def disconnectPin (n fio : Nat) (h : Hub) : Hub :=
  let g := engine h n
  releasePads [fio] (setEngine h n { g with pins := g.pins.map fun p => if p = fio then 256 + fio else p
                                            failed := fio :: g.failed.filter (· != fio) })

/-- Trigger 0x04 (Table 6, R785): a pin with a spare to take its place starts a rebind, at once or, where it cannot start for now, later;
with freeze 2 the failed pin goes to high impedance and the program runs on; a pin without a spare only raises
EV_FORESTER_PIN_REBOUND. -/
def pinRebind (fio : Nat) (h : Hub) : Hub :=
  match pinOwner h fio with
  | none => h
  | some (n, k) =>
    if (freeSpare (heldDef h (rd h (engKey n 0x12))) (engine h n) k).isNone then raiseEvent h 0x1D n 4
    else match programOn h n with
      | none => dueLater n (256 + fio) h
      | some r =>
        let a := abortLoad r.handle h
        let bar := moveBarred a r.handle 4 0
        let x := if bar = 0 then startHandover r 4 n a else (bar, a)
        if x.1 = 0 then x.2
        else if x.1 = 6 then disconnectPin n fio x.2
        else dueLater n (256 + fio) x.2

/-- PIN_DRIVER_DIAGNOSIS (R410) and Forester's trigger 0x04. -/
def execPinDriverDiagnosis (fio : Nat) (s : State) : Host.Outcome State Fault Refusal :=
  onHub s fun h =>
    let a := pinDriverDiagnosis fio h
    if a = h then h else pinRebind fio a

/-! ### Requested moves (trigger 0x05) -/

/-- The outcome of a request that did not start a move. -/
def requestRefused (code : Nat) (h : Hub) : Hub :=
  wr (moveRefused code { h with forester := { h.forester with request := none } }) 0x2311_05 code

/-- A requested move that has started is pending until it ends; one that ended at once has left its result. -/
def requestStarted (h : Hub) : Hub :=
  let t := (h.forester.nextTag + 255) % 256
  if (findMove h t).isSome then wr { h with forester := { h.forester with request := some t } } 0x2311_05 0xFF
  else wr { h with forester := { h.forester with request := none } } 0x2311_05 0

/-- A requested move of a PROGRAM to an engine; one that must wait for its Grove stays pending (256 stands for no move's tag). -/
def requestProgram (n wanted : Nat) (h : Hub) : Hub :=
  match programOn h n with
  | none => requestRefused 2 h
  | some r =>
    let x := moveProgram r 5 wanted 8 h
    if x.1 = 0 then requestStarted x.2
    else if x.1 = 256 then
      dueLater n (512 + wanted) (wr { x.2 with forester := { x.2.forester with request := some 256 } } 0x2311_05 0xFF)
    else requestRefused x.1 x.2

/-- The hub Forester would move an object to: the one of lowest cost in the last interval (R298). -/
def costHub (h : Hub) (handle holder : Nat) : Nat :=
  (bestCandidate h holder (tabGet [] h.forester.last handle)).1

/-- MOVE_REQUEST_START (R308): the object of 0x2311:01 to the hub of 0x2311:02, or Forester's choice; a PROGRAM to the engine
of 0x2311:03, of a PROGRAM held at another hub no frame names an engine (assumption log 68). -/
def moveRequest (h : Hub) : Hub :=
  let hd := rd h 0x2311_01
  let s := handleSlot hd
  let e := mapEntry h s
  let want := rd h 0x2311_02
  if hd = 0 ∨ handleHome hd ≠ hubNumber h ∨ slotHandle h s ≠ hd ∨ e.state ≠ 1 then requestRefused 2 h
  else if e.kind = 4 then
    if want ≠ 0 ∧ want ≠ e.holder then requestRefused 2 h
    else if e.holder ≠ hubNumber h then requestRefused 4 h
    else requestProgram e.base (rd h 0x2311_03) h
  else
    let x := startMove s 5 (if want = 0 then costHub h hd e.holder else want) h
    if x.1 = 0 then requestStarted x.2 else requestRefused x.1 x.2

def execMoveRequestStart (p : Path) (value : Nat) (s : State) : Host.Outcome State Fault Refusal :=
  onHub s (pathWrite p 0x2311 4 value (fun h c => { c with
    value := c.value || value != 1, busy := c.busy || h.forester.request.isSome }) moveRequest)

/-- What waited for time, a Grove or a handover is tried again (R308): an engine that is still UNUSABLE, a pin that is still in place, a
request that is still pending. -/
def retryDue (d : Nat × Nat) (h0 : Hub) : Hub :=
  let h := { h0 with forester := { h0.forester with due := h0.forester.due.filter (· != d) } }
  if d.2 = 3 then whenDo (engState h d.1 == 6) (engineFailed d.1) h
  else if d.2 < 512 then whenDo ((engine h d.1).pins.contains (d.2 - 256)) (pinRebind (d.2 - 256)) h
  else whenDo (h.forester.request == some 256) (requestProgram d.1 (d.2 - 512)) h

/-- ENGINE_CHECK_FAILURE (R429, R430), with Forester's trigger 0x03. -/
def execEngineCheckFailure (n : Fin 64) (cause : Nat) (s : State) : Host.Outcome State Fault Refusal :=
  onHub s fun h =>
    let a := engineCheckFailure n cause h
    whenDo (a.forester.due.contains (n.val, 3)) (retryDue (n, 3)) a

/-- Forester as time passes. -/
def foresterTick (h : Hub) : Hub :=
  let a := forEach h.forester.due retryDue h
  whenDo (!a.forester.waiting.isEmpty) placeWaiting a

/-! ### The target (R313, R316) -/

/-- MIGRATION_OFFER: the target takes what the object needs, or answers why not. A repeated OFFER is answered again. -/
def migrationOffer (src tag handle kind length place : Nat) (d : ObjDef) (h : Hub) : Hub :=
  if h.forester.incoming.any fun i => i.home == src && i.tag == tag then migrate src 2 tag 0 handle [] h
  else if 4 ≤ takesPart h then migrate src 2 tag 3 handle [] h
  else match hostObject handle kind d place 0xFF h with
    | .no c => migrate src 2 tag c handle [] h
    | .wait a => migrate src 2 tag 3 handle [] a
    | .yes b a =>
      let e : Residence := { handle, kind, base := b, length, gen := 0, state := 2, defn := d, place }
      migrate src 2 tag 0 handle []
        { a with forester := { a.forester with incoming := a.forester.incoming ++ [{ home := src, tag, entry := e, words := [] }] } }

def execMigrationOffer (src tag handle kind length placement : Nat) (defn : ObjDef) (s : State) :
    Host.Outcome State Fault Refusal :=
  onHub s (migrationOffer src tag handle kind length placement defn)

/-- Words of a STREAM's state, read from its groups as far as they have come without a gap: a descriptor says how many of the 8 words after
it there are, and the first pointer word, whose low 24 bits are 0, is none (R466, Table 4 of Stream FIFOs). -/
def groupEnd : Nat → Nat → List Word → Option Nat
  | 0, _, _ => none
  | _ + 1, _, [] => none
  | n + 1, k, d :: rest =>
    let here := ((List.range 8).takeWhile fun j => bits d.toNat (4 * j + 3) (4 * j) != 0).length
    if here = 0 then some (k + 2)
    else if rest.length < here then none
    else groupEnd n (k + 1 + here) (rest.drop here)

/-- The words that have come from index 0 on without a gap. -/
def fromStart (t : Tab Word) : List Word :=
  let n := ((List.range t.length).takeWhile fun k => tabHas t k).length
  (t.take n).map (·.2)

/-- Words of object state a target waits for; none while a STREAM's number cannot be told yet. -/
def expectedWords (i : Incoming) : Option Nat :=
  if i.entry.kind = 1 then groupEnd (i.words.length + 1) 0 (fromStart i.words) else some (stateWords i.entry.kind i.entry.length)

/-- MIGRATION_DATA (R315, R316): every word index arrived installs a PENDING residence and reports it. -/
def migrationData (src tag handle first : Nat) (ws : List Word) (h : Hub) : Hub :=
  match h.forester.incoming.find? fun i => i.tag == tag && i.entry.handle == handle with
  | none => h
  | some i =>
    let words := (ws.zipIdx.foldl (fun t p => tabSet t (first + p.2) p.1) i.words)
    let i' := { i with words }
    let a := { h with forester := { h.forester with incoming := h.forester.incoming.map fun x => if x = i then i' else x } }
    let n := (expectedWords i').getD (words.length + 1)
    if src = 0 ∨ (fromStart words).length < n then a
    else
      let data := (fromStart words).take n
      let b := if i.entry.kind = 1 then installStream i.entry.base data a else installState i.entry.kind i.entry.base data a
      let c := if i.home = hubNumber h then
          match findMove b tag with
          | some m => tryMoveCommit m i.entry.base b
          | none => b
        else migrate i.home 6 tag 0 handle [w48 n] (setResidence i.entry b)
      { c with forester := { c.forester with incoming := c.forester.incoming.filter fun x => x != i' } }

def execMigrationData (src tag handle first : Nat) (words : List Word) (s : State) : Host.Outcome State Fault Refusal :=
  onHub s (migrationData src tag handle first words)

/-! ### The holder -/

/-- MIGRATION_DRAIN (R278 steps 2 and 3): DRAINING, DRAINED, then the copy; a poisoned word stops it (R317), which a repeated DRAIN is told
again. With hub 0 as target there is nothing to copy: the object was deleted. A residence with an uncorrectable error is not used
(R260). -/
def migrationDrain (src tag handle target switchNs : Nat) (h : Hub) : Hub :=
  match if h.canopy.badRes.contains handle then none else residence h handle with
  | none => h
  | some r =>
    match h.forester.outgoing.find? fun o => o.home == src && o.tag == tag with
    | some o => migrate src 4 tag (if o.copied then 0 else 5) handle [] h
    | none =>
      let a := setResidence { r with state := 1 } h
      let b := whenDo (switchNs != 0) (addSwitch handle switchNs false) a
      let state := if target = 0 then some [] else objectState b r.kind r.base r.length
      let o : Outgoing := { home := src, tag, handle, target, switch := switchNs, copied := state.isSome }
      let c := { b with forester := { b.forester with outgoing := b.forester.outgoing ++ [o] } }
      match state with
      | none => migrate src 4 tag 5 handle [] c
      | some ws => sendData target tag handle ws.length 0 ws (migrate src 4 tag 0 handle [] c)

def execMigrationDrain (src tag handle target switchNs : Nat) (s : State) : Host.Outcome State Fault Refusal :=
  onHub s (migrationDrain src tag handle target switchNs)

/-- MIGRATION_COMMIT (R278 step 6, R319): B VALID, a SIGNAL or REFLEX from its switch time on, or A removed; acknowledged. The frame has no
field for the switch time that B needs, which is an operand (0 none; assumption log 26). -/
def migrationCommit (src tag handle gen switchNs : Nat) (h : Hub) : Hub :=
  let a := match h.forester.outgoing.find? fun o => o.home == src && o.tag == tag, residence h handle with
    | some o, some r =>
      let b := leaveAt o.switch handle r.kind r.base h
      { b with forester := { b.forester with outgoing := b.forester.outgoing.erase o } }
    | _, some r => whenDo (switchNs != 0 && r.state == 2) (addSwitch handle switchNs true) (joinHolder handle gen h)
    | _, none =>
      match h.forester.incoming.find? fun i => i.home == src && i.tag == tag with
      | some i =>
        let b := { h with forester := { h.forester with incoming := h.forester.incoming.erase i } }
        setResidence { i.entry with state := 0, gen } b
      | none => h
  migrate src 0xD tag 0 handle [] a

def execMigrationCommit (src tag handle : Nat) (terms : CommitTerms) (s : State) : Host.Outcome State Fault Refusal :=
  onHub s (migrationCommit src tag handle terms.gen terms.switchNs)

/-- MIGRATION_ABORT (R280): A back to VALID and contributing, anything at B removed; acknowledged. -/
def migrationAbort (src tag handle : Nat) (h : Hub) : Hub :=
  let a := match h.forester.outgoing.find? fun o => o.home == src && o.tag == tag, residence h handle with
    | some o, some r =>
      let b := setResidence { r with state := 0 } h
      { b with
        forester := { b.forester with outgoing := b.forester.outgoing.erase o }
        cyc := { b.cyc with switches := b.cyc.switches.filter fun x => x.1 != handle } }
    | _, _ =>
      match h.forester.incoming.find? fun i => i.home == src && i.tag == tag with
      | some i =>
        let b := releaseObject i.entry.kind i.entry.base h
        { b with forester := { b.forester with incoming := b.forester.incoming.erase i } }
      | none =>
        match residence h handle with
        | some r => if r.state = 2 then dropResidence handle (releaseObject r.kind r.base h) else h
        | none => h
  migrate src 0xD tag 0 handle [] a

def execMigrationAbort (src tag handle : Nat) (s : State) : Host.Outcome State Fault Refusal :=
  onHub s (migrationAbort src tag handle)

/-- MIGRATION_GROUP (R148, R313): a member installs or removes a GROUP and acknowledges it. One whose table of 256 is full does not
acknowledge, so the home asks again until it gives up (DESIGN CHOICE, assumption log 68). -/
def migrationGroup (src tag handle : Nat) (install : Bool) (h : Hub) : Hub :=
  if install then
    match joinGroup handle h with
    | some a => migrate src 0xD tag 0 handle [] a
    | none => h
  else migrate src 0xD tag 0 handle [] { h with ring := { h.ring with groups := h.ring.groups.filter (· != handle) } }

def execMigrationGroup (src tag handle : Nat) (install : Bool) (s : State) : Host.Outcome State Fault Refusal :=
  onHub s (migrationGroup src tag handle install)

/-! ### The home -/

/-- The answer to a fresh placement's OFFER: on acceptance the sending FIFO follows, or the object is bound; a refusing target is not asked
again in this attempt; a refused sending FIFO gives the receiving one back and blocks the STREAM (R306, R458). -/
def placementAnswer (m : Move) (status base : Nat) (h : Hub) : Hub :=
  if m.phase = 11 then
    if status ≠ 0 then
      let a := moveEnds { m with target := m.acks.headD (hubNumber h) } status h
      let b := if m.acks.isEmpty then dropMove m (releaseObject 1 m.engine a)
        else forEach m.acks (fun n g => migrate n 8 m.tag 0 m.handle [] g) (setMove { m with phase := 5 } a)
      blockedAt m.slot status (refusedBy m.slot (m.acks.headD (hubNumber h)) b)
    else
      let acks := tookPart m
      let gen := (mapEntry h m.slot).bgen
      placed m (m.acks.headD (hubNumber h)) m.engine
        (forEach acks (fun n g => migrate n 7 m.tag 0 m.handle [w48 gen] g)
          (setMove { m with phase := 4, target := m.acks.headD (hubNumber h), acks } h))
  else if status ≠ 0 then
    let a := moveEnds m status (dropMove m h)
    placeNext m.trigger m.slot status (refusedBy m.slot m.target a)
  else
    let r := placeSending m true m.target base h
    if r.1 = 0 then r.2 else blockedAt m.slot r.1 (moveEnds m r.1 (cancelPlacement m (refusedBy m.slot m.target h)))

/-- MIGRATION_ANSWER: a fresh placement is bound on the answer, and the run goes on (R301); a move goes on to DRAIN, or is given up. `base`
is what the target took, which the frames' table gives no field (assumption log 26). -/
def migrationAnswer (src tag handle status base : Nat) (h : Hub) : Hub :=
  match findMove h tag with
  | none => h
  | some m =>
    if ¬ (m.phase = 1 ∨ m.phase = 11) ∨ m.target ≠ src ∨ m.handle ≠ handle then h
    else if m.source = 0 then afterMove (placementAnswer m status base h)
    else if status ≠ 0 then afterMove (moveEnds m status (dropMove m h))
    else drainMove m base h

def execMigrationAnswer (src tag handle status base : Nat) (s : State) : Host.Outcome State Fault Refusal :=
  onHub s (migrationAnswer src tag handle status base)

/-- MIGRATION_DRAINED: the copy begins, or the move is aborted for poison (R317). -/
def migrationDrained (src tag handle status : Nat) (h : Hub) : Hub :=
  match findMove h tag with
  | none => h
  | some m =>
    if m.source ≠ src ∨ m.handle ≠ handle then h
    else if m.phase = 8 then migrate src 7 tag 0 handle [w48 0] (setMove { m with phase := 9, acks := [src] } h)
    else if m.phase ≠ 2 then h
    else if status = 5 then abortMove m 5 h
    else setMove { m with phase := 3 } h

def execMigrationDrained (src tag handle status : Nat) (s : State) : Host.Outcome State Fault Refusal :=
  onHub s (migrationDrained src tag handle status)

/-- MIGRATION_INSTALLED: the commit, unless a timed switch is too near (R319); refused while the last commit is too recent (R263), which
leaves the move to its time limit. -/
def migrationInstalled (src tag handle received : Nat) (h : Hub) : Hub :=
  match findMove h tag with
  | none => h
  | some m =>
    let e := mapEntry h m.slot
    if ¬ (m.phase = 2 ∨ m.phase = 3) ∨ m.target ≠ src ∨ m.handle ≠ handle then h
    else if received < stateWords e.kind e.length then h
    else tryMoveCommit m m.engine h

def execMigrationInstalled (src tag handle received : Nat) (s : State) : Host.Outcome State Fault Refusal :=
  onHub s (migrationInstalled src tag handle received)

/-- MIGRATION_ACK: when the last awaited hub has acknowledged, the move is over; a GROUP is BOUND. -/
def migrationAck (src tag handle : Nat) (h : Hub) : Hub :=
  match findMove h tag with
  | none => h
  | some m =>
    if m.handle ≠ handle then h
    else
      let m' := { m with acks := m.acks.filter (· != src) }
      let a := setMove m' h
      let b := if m.phase = 4 ∧ src = m.target then releaseHeld m.slot a else a
      if m'.acks.isEmpty then
        if m.phase = 6 then afterMove (placed m' 0 0 (dropMove m' b))
        else if m.phase = 9 ∨ m.phase = 10 then afterMove (dropMove m' b)
        else if m.phase = 4 ∨ m.phase = 5 then moveOver m' b else drainPorts b
      else drainPorts b

def execMigrationAck (src tag handle : Nat) (s : State) : Host.Outcome State Fault Refusal :=
  onHub s (migrationAck src tag handle)

/-- A CENSUS that has no answer goes again (R314). -/
def censusResend (tag : Nat) (h : Hub) : Hub :=
  match h.forester.asked.find? fun c => c.1 == tag with
  | none => h
  | some c => migrate c.2.1 9 tag 0 0 (c.2.2.map w48) h

/-- What an OFFER says of a move's object: kind, length and Placement field, of a fresh placement those of its definition (Table 7). -/
def offerWords (h : Hub) (m : Move) : List Word :=
  let e := mapEntry h m.slot
  if m.source = 0 then freshOffer h m.slot (m.phase == 11) else [w48 (e.kind * 2 ^ 45 + e.length), w48 (forcePlace h m.slot)]

/-- MIGRATION_RESEND (R314): the frame whose reply is awaited goes again. -/
def migrationResend (tag : Nat) (h : Hub) : Hub :=
  match findMove h tag with
  | none => censusResend tag h
  | some m =>
    let e := mapEntry h m.slot
    let hd := m.handle
    match m.phase with
    | 1 | 11 => migrate m.target 1 tag 0 hd (offerWords h m) h
    | 2 => migrate m.source 3 tag 0 hd ([w48 m.target] ++ (if m.switch = 0 then []
        else [w48 (m.switch / 1000000000), w48 (m.switch % 1000000000 * 65536)])) h
    | 4 => forEach m.acks (fun n g => migrate n 7 tag 0 hd [w48 e.bgen] g) h
    | 5 => forEach m.acks (fun n g => migrate n 8 tag 0 hd [] g) h
    | 6 => forEach m.acks (fun n g => migrate n 0xB tag 0 hd [w48 1] g) h
    | 8 => migrate m.source 3 tag 0 hd [w48 0] h
    | 9 => forEach m.acks (fun n g => migrate n 7 tag 0 hd [w48 0] g) h
    | 10 => forEach m.acks (fun n g => migrate n 0xB tag 0 hd [w48 0] g) h
    | _ => h

def execMigrationResend (tag : Nat) (s : State) : Host.Outcome State Fault Refusal := onHub s (migrationResend tag)

/-- A handover that its time limit ends leaves a failure that Forester has still to act on. -/
def handoverLate (m : Move) (h : Hub) : Hub :=
  let a := abortHandover m 1 h
  if m.trigger = 3 then dueLater m.sourceE 3 a
  else if m.trigger = 4 then forEach ((engine a m.sourceE).pins.filter (pinFailed a)) (fun p g => dueLater m.sourceE (256 + p) g) a
  else a

/-- MOVE_TIME_LIMIT_EXPIRY (R280, R314): a move that has not committed is aborted, at the target too where it may have accepted, and a
placement is blocked; a GROUP that a member does not take is blocked; what was sent again without an answer is sent no more. -/
def moveTimeLimit (slot : Nat) (h : Hub) : Hub :=
  match h.forester.moves.find? fun m => m.slot == slot with
  | none => h
  | some m =>
    if m.phase ≤ 3 ∨ m.phase = 11 then abortMove m 1 h
    else if m.phase = 6 then abortMove m 3 h
    else if m.phase = 7 then handoverLate m h
    else if m.phase ≤ 5 then moveOver m h
    else afterMove (dropMove m h)

def execMoveTimeLimitExpiry (slot : Nat) (s : State) : Host.Outcome State Fault Refusal :=
  onHub s fun h => drainPorts (moveTimeLimit slot h)

/-! ### Scoring and load moves (R296 to R300, R309, R310) -/

/-- The inspection entries show the object selected at 0x2312:01 over the last interval (R297, R298, R326), all 0 for one that is not
homed here or has no binding. -/
def inspectScores (h : Hub) : Hub :=
  let hd := rd h 0x2312_01
  let e := mapEntry h (handleSlot hd)
  let shown := handleHome hd == hubNumber h && slotHandle h (handleSlot hd) == hd && (e.state == 1 || e.state == 2)
  let t := if shown then tabGet [] h.forester.last hd else []
  let best := bestCandidate h e.holder t
  wrs h ((List.range 8).map (fun i => (0x4312_01 + i, match t[i]? with
      | some r => r.1 * 2 ^ 40 + r.2 % 2 ^ 40
      | none => 0))
    ++ (if shown then [(0x4312_09, costAt h e.holder t), (0x4312_0A, best.1 * 2 ^ 40 + best.2 % 2 ^ 40)]
      else [(0x4312_09, 0), (0x4312_0A, 0)]))

/-- Evaluate one object at the end of an interval: its cost, and a load move (R309). -/
def scoreSlot (s : Nat) (h : Hub) : Hub :=
  let hd := slotHandle h s
  let t := tabGet [] h.forester.scores hd
  let e := mapEntry h s
  let cost := costAt h e.holder t
  let best := bestCandidate h e.holder t
  let b := wr h (defKey s 15) (min cost (2 ^ 32 - 1))
  let gain := best.1 != e.holder && decide (best.2 * 100 ≤ cost * (100 - rd h 0x2310_04))
  let was := h.forester.gains.contains hd
  let c := { b with forester := { b.forester with
    gains := if gain then hd :: b.forester.gains.filter (· != hd) else b.forester.gains.filter (· != hd) } }
  let dwelt := !tabHas h.canopy.committed s
    || decide (tabGet 0 h.canopy.committed s + rd h 0x2310_05 * 1000000000 ≤ stampNs h 0)
  let limp := mode h == 4 || (best.1 != hubNumber h && tabGet 0 h.ring.modes best.1 == 4)
  if gain && was && dwelt && !limp && floating h s && !bit (forcePlace h s) 23 && e.state == 1 then tryMove s 2 best.1 c
  else c

/-- Trigger 0x08: a REFLEX whose best holder is another hub (R299). -/
def reflexRehome (s : Nat) (h : Hub) : Hub :=
  let e := mapEntry h s
  let best := bestReflexHub h (signalHolder h) (forceDef h s) e.holder
  if e.kind = 6 ∧ e.state = 1 ∧ ¬ bit (forcePlace h s) 23 ∧ best ≠ e.holder then tryMove s 8 best h else h

/-- Trigger 0x07, Grove compaction (R310): one PROGRAM leaves the Grove with fewest, if all of them could. -/
def compact (h : Hub) : Hub :=
  let groves := (List.range 8).filter fun g => programsIn h g != 0
  match (groves.map (programsIn h)).min? with
  | none => h
  | some m =>
    match groves.find? fun g => programsIn h g == m with
    | none => h
    | some g =>
      let here := (List.range 8).filterMap fun k => programOn h (8 * g + k)
      let can := fun (r : Residence) => !bit r.place 23
        && ((engineWanted r 0xFF).any fun w => !(engineCandidates h r.defn w g).isEmpty)
      if rd h 0x2310_0C = 1 ∧ 1 < groves.length ∧ here.length = m ∧ here.all can ∧ ¬ h.forester.moves.any (·.trigger == 7) then
        match here with
        | r :: _ =>
          let x := moveProgram r 7 0xFF g h
          moveRefused x.1 x.2
        | [] => h
      else h

/-- SCORING_INTERVAL (R297, R298, R309): counts become scores, at the home or sent to it; costs are evaluated. A gain of an interval counts
for the next only where that evaluates the object too. -/
def scoringInterval (h : Hub) : Hub :=
  let a := forEach h.forester.counts (fun e g =>
    let t := e.2.map fun r => (r.1, weighted g r.2)
    if handleHome e.1 = hubNumber g then
      { g with forester := { g.forester with scores := tabSet g.forester.scores e.1 t } }
    else migrate (handleHome e.1) 0xC 0 0 e.1 (t.map fun r => w48 (r.1 * 2 ^ 40 + r.2 % 2 ^ 40)) g) h
  let b := { a with forester := { a.forester with counts := [], last := a.forester.scores } }
  let scored := (forceSlots b).filter fun s => (mapEntry b s).state == 1
  let c := forEach scored scoreSlot b
  let d := { c with forester := { c.forester with gains := c.forester.gains.filter fun x => scored.any fun s => slotHandle b s == x } }
  let e := inspectScores (compact (forEach (forceSlots d) reflexRehome d))
  { e with forester := { e.forester with scores := [] } }

def execScoringInterval (s : State) : Host.Outcome State Fault Refusal := onHub s scoringInterval

/-- MIGRATION_SCORE (R297). -/
def execMigrationScore (src handle : Nat) (scores : List (Nat × Nat)) (s : State) : Host.Outcome State Fault Refusal :=
  onHub s fun h =>
    if handleHome handle = hubNumber h ∧ (mapEntry h (handleSlot handle)).holder = src then
      { h with forester := { h.forester with scores := tabSet h.forester.scores handle scores } }
    else h

/-! ### Holders that disappear (R323) -/

/-- A binding whose holder did not claim it is lost: UNBOUND, EV_FORESTER_DATA_LOST, and placed afresh under trigger 0x06, which freeze 2
forbids (R308, R323, Table 6). A load move of the object ends (R312). -/
def dataLost (s : Nat) (h : Hub) : Hub :=
  let hd := slotHandle h s
  let a := abortLoad hd { h with forester := { h.forester with lost := h.forester.lost.filter (· != s) } }
  whenDo (rd h 0x2310_02 != 2) (placeSlot 6 s) (raiseEvent (unbind s a) 0x1E 0 hd)

/-- CENSUS_TIMEOUT (R302, R323): what no hub claimed is placed afresh; a binding whose holder did not answer is lost. -/
def censusTimeout (h : Hub) : Hub :=
  let waiting := h.forester.census
  let a := { h with forester := { h.forester with census := [], asked := [] } }
  let b := forEach waiting (fun s g => if (mapEntry g s).state = 1 ∨ (mapEntry g s).state = 2 then dataLost s g else g) a
  if placing b then placeAll b else foresterUpdate b

def execCensusTimeout (s : State) : Host.Outcome State Fault Refusal := onHub s censusTimeout

/-- Bindings whose holder became unreachable, and those whose holder is back, which get a CENSUS. -/
def watchHolders (h : Hub) : Hub :=
  let far := fun n => n != hubNumber h && n != 0
  let up := fun n => reachable h false n || reachable h true n
  let bound := (forceSlots h).filter fun s => ((mapEntry h s).state == 1 || (mapEntry h s).state == 2) && far (mapEntry h s).holder
  let lost := bound.filter fun s => !up (mapEntry h s).holder
  let seen := bound.filter fun s => h.forester.lost.contains s && up (mapEntry h s).holder
  let back := seen.filter fun s => !h.forester.census.contains s
  let hubs := (back.map fun s => (mapEntry h s).holder).eraseDups
  let a := { h with forester := { h.forester with lost := lost ++ seen, census := h.forester.census ++ back } }
  if back.isEmpty then a
  else forEach hubs (fun n g => sendCensus n (back.length / 255 + 1) ((back.filter fun s => (mapEntry h s).holder == n).map (slotHandle h)) g) a

/-- PRESENCE (R164) with R323. -/
def execPresence (ring : RingId) (src hop role mode _serial : Nat) (s : State) : Host.Outcome State Fault Refusal :=
  onHub s fun h => watchHolders (presence ring src hop role mode h)

/-- PRESENCE_TIMEOUT (R164) with R323. -/
def execPresenceTimeout (hub : Nat) (ring : RingId) (s : State) : Host.Outcome State Fault Refusal :=
  onHub s fun h => watchHolders (presenceTimeout hub ring h)

end Sys2Proof.Machine
end

