-- ==== Sys2Proof/Machine/BusOps.lean ====
section
/-! DEFINITION. What the field buses share with the cyclic exchange: CAN controllers, their message buffers and transmit
requests (R478 to R484, R490 to R492, R498), and the state of T1S ports. -/

namespace Sys2Proof.Machine

/-! ### CAN controllers -/

/-- An empty CAN frame. -/
def noFrame : CanFrame := { id := 0, ide := false, rtr := false, fdf := false, brs := false, esi := false, dlc := 0, data := [], sof := 0 }

/-- A controller with nothing pending. -/
def canInit : CanCtl :=
  { pending := [], onBus := none, frame := noFrame, sof := 0, staged := none, aborted := false, entries := [], pnErrors := 0 }

def can (h : Hub) (c : Nat) : CanCtl := tabGet canInit h.can c

def setCan (h : Hub) (c : Nat) (x : CanCtl) : Hub := { h with can := tabSet h.can c x }

/-- Slot `sub` of controller c's settings 0x2810 + c. -/
def canCfg (c sub : Nat) : Nat := slotKey (0x2810 + c) sub

/-- Field f of buffer b of controller c (R478). -/
def bufKey (c b f : Nat) : Nat := slotKey (0x3400 + 4 * c + b / 16) (16 * (b % 16) + f)

/-- A buffer's direction: 0 off, 1 receive, 2 transmit (Table 9). -/
def bufDir (h : Hub) (c b : Nat) : Nat := bits (rd h (bufKey c b 1)) 1 0

/-- A 16 ms-limited event of controller c (R511). -/
def canEvent (e c cause : Nat) (h : Hub) : Hub := raise16ms h e c 0 cause

/-- The mode a controller works in: OFF in BOOT, FACTORY and DORMANT (R471, R472); 4 stands for behaviour as in COMMISSION;
its safe action while outputs are held safe (R498). -/
def canMode (h : Hub) (c : Nat) : Nat :=
  let m := rd h (canCfg c 1)
  if mode h = 1 ∨ mode h = 8 ∨ mode h = 6 then 0
  else if m ≠ 1 then m
  else if outputsSafe h then match rd h (canCfg c 8) with
    | 1 => 2
    | 2 => 0
    | _ => 4
  else if serving h then 1 else 4

/-- Controller c sleeps in partial networking (Table 4 of Network sleep, Clearing and wake). -/
def canAsleep (h : Hub) (c : Nat) : Bool := h.sleep.asleep.contains (8 + c)

/-- The state at 0x4810+c:01 (Table 11); the register itself holds the state on the bus: integrating, active, passive,
bus-off, latched. A controller that was OFF integrates first. -/
def canState (h : Hub) (c : Nat) : Nat :=
  let st := rd h (canStat c 1)
  let m := canMode h c
  if m = 0 then 0
  else if canAsleep h c then 8
  else if st ≤ 1 then 1
  else if st = 4 ∨ st = 5 then st
  else if m = 2 then 6 else if m = 3 then 7 else st

/-- The controller takes part on the bus: active, passive, restricted or monitoring. -/
def canTakesPart (h : Hub) (c : Nat) : Bool :=
  canState h c == 2 || canState h c == 3 || canState h c == 6 || canState h c == 7

/-- The controller may start frames of its own. -/
def canSends (h : Hub) (c : Nat) : Bool := canState h c == 2 || canState h c == 3

/-- Whether the error counters change: not in restricted operation or bus monitoring (R496, R497). -/
def canCounts (h : Hub) (c : Nat) : Bool := canMode h c == 1 || canMode h c == 4

/-- CAN_STB[c]: high while OFF, in BOOT, FACTORY and DORMANT (R471). -/
def canStb (h : Hub) (c : Nat) : Bool := canState h c == 0

/-- Info word of a buffer: its pending and on-the-bus bits follow the controller (Table 9). -/
def bufInfo (h : Hub) (c b : Nat) : Nat :=
  setBit (setBit (rd h (bufKey c b 14)) 17 ((can h c).pending.contains b)) 18 ((can h c).onBus == some (.buffer b))

/-- What is staged for a slot of a buffer on the bus: the last write of it (R481). -/
def stagedWord (h : Hub) (c key : Nat) : Option Word :=
  (((can h c).staged.getD []).reverse.find? fun e => e.1 == key).map (·.2)

/-- A slot of a buffer as a read finds it: an accepted write shows at once, staged or not (R77, R78). -/
def bufWord (h : Hub) (c key : Nat) : Word := (stagedWord h c key).getD (rdW h key)

/-- The 64 data bytes of a buffer (R73: slots 3 to 13). -/
def bufBytes (h : Hub) (c b : Nat) : List Byte :=
  (wordsBytes ((List.range 11).map fun j => rdW h (bufKey c b (3 + j)))).take 64

/-- Write fields of a buffer. -/
def writeFields (ws : List (Nat × Word)) (h : Hub) : Hub := forEach ws (fun p g => wrW g p.1 p.2) h

/-- New content of a transmit buffer (R481): staged while its frame is on the bus; else stored, and counted where it
replaces content that was never sent. -/
def bufContent (c b : Nat) (ws : List (Nat × Word)) (h : Hub) : Hub :=
  let x := can h c
  if x.onBus = some (.buffer b) then setCan h c { x with staged := some (x.staged.getD [] ++ ws) }
  else writeFields ws (whenDo (x.pending.contains b) (fun g => bump g (canStat c 0x0B)) h)

/-- A transmission request, with new content or none (R481). A buffer that is not a transmit buffer sends nothing
(assumption log 30). -/
def bufRequest (c b : Nat) (ws : List (Nat × Word)) (h : Hub) : Hub :=
  if bufDir h c b ≠ 2 then h
  else
    let a := bufContent c b ws h
    let x := can a c
    if x.onBus = some (.buffer b) ∨ x.pending.contains b then a else setCan a c { x with pending := x.pending ++ [b] }

/-- An output target of kind 0x2 (R341, R481): bytes 0 to 5, which are the first data slot, and a request. -/
def bufOutput (c b : Nat) (w : Word) (h : Hub) : Hub := bufRequest c b [(bufKey c b 3, w)] h

/-- Bus-off entries within the return window (R492). -/
def busOffCount (h : Hub) (c : Nat) : Nat :=
  (can h c).entries.countP fun t => decide (busNs h < t + rd h (canCfg c 7) * 1000000000)

/-- Entry to bus-off (R490 to R492): recovery, or BUS-OFF LATCHED above the return limit. -/
def busOffEntry (c : Nat) (h : Hub) : Hub :=
  let x := can h c
  let a := bump (setCan h c { x with entries := x.entries ++ [busNs h] }) (canStat c 9)
  let b := canEvent (0x50 + c) c 0 a
  let limit := rd b (canCfg c 6)
  if limit ≠ 255 ∧ limit < busOffCount b c then canEvent 0x4A c 0 (wr b (canStat c 1) 5) else wr b (canStat c 1) 4

/-- Error confinement after a change of the counters (R490). -/
def canErrors (c tec rec : Nat) (h : Hub) : Hub :=
  let a := wrs h [(canStat c 2, min 255 tec), (canStat c 3, min 255 rec)]
  if 255 < tec then busOffEntry c a
  else if 127 < tec ∨ 127 < rec then
    if rd h (canStat c 1) = 3 then a else canEvent 0x48 c 0 (wr a (canStat c 1) 3)
  else wr a (canStat c 1) 2

/-- Change the error counters as ISO 11898-1 has it, where the mode counts (R490, R496, R497). -/
def canCount (c : Nat) (f : Nat → Nat) (g : Nat → Nat) (h : Hub) : Hub :=
  if canCounts h c && (rd h (canStat c 1) == 2 || rd h (canStat c 1) == 3) then
    canErrors c (f (rd h (canStat c 2))) (g (rd h (canStat c 3))) h
  else h

/-! ### T1S ports -/

/-- A port with nothing in progress. -/
def t1sInit : T1sPort :=
  { held := [], frame := none, collided := 0, sending := false, sfd := 0, backoff := none, drawn := 0, plca := false,
    lost := false, current := 0, burst := 0, ringTurn := true, checked := false, txStopped := false, rxStopped := false,
    txArmed := true, rxArmed := true, inForce := [] }

def t1s (h : Hub) (p : Nat) : T1sPort := tabGet t1sInit h.t1s p

def setT1s (h : Hub) (p : Nat) (x : T1sPort) : Hub := { h with t1s := tabSet h.t1s p x }

/-- Slot `sub` of port p at 0x2910 + p, at 0x3500 + p and at 0x4910 + p. -/
def t1sCfg (p sub : Nat) : Nat := slotKey (0x2910 + p) sub

/-- Port p's setting `sub` as it acts: a write takes effect after the frame in progress has ended (R547). -/
def t1sSet (h : Hub) (p sub : Nat) : Nat :=
  if (t1s h p).inForce.isEmpty then rd h (t1sCfg p sub) else (t1s h p).inForce.getD sub 0

def t1sInst (p sub : Nat) : Nat := slotKey (0x3500 + p) sub
def t1sStat (p sub : Nat) : Nat := slotKey (0x4910 + p) sub

/-! ### Packets of a bus in a STREAM (R449) -/

/-- The FIFO whose producer, or consumer, is an end of this hub. -/
def fifoFrom (h : Hub) (kind unit : Nat) : Option Nat :=
  (List.range 128).find? fun f =>
    let x := fifo h f
    rd h (fifoKey f 1) != 0 && endKind x.producer == kind && bits x.producer 31 24 == hubNumber h && bits x.producer 3 0 == unit

def fifoTo (h : Hub) (kind unit : Nat) : Option Nat :=
  (List.range 128).find? fun f =>
    let x := fifo h f
    rd h (fifoKey f 1) == 1 && endKind x.consumer == kind && bits x.consumer 31 24 == hubNumber h && bits x.consumer 3 0 == unit

/-- Cut bytes into units of n. -/
def unitsOf (n : Nat) : Nat → List Byte → List (List Byte)
  | 0, _ => []
  | k + 1, bs => if bs.isEmpty then [] else bs.take n :: unitsOf n k (bs.drop n)

/-- A whole word sent over the crossing from the bus aggregate into a FIFO (R23, R24). -/
def busWord (f : Nat) (w : XWord) (h : Hub) : Hub :=
  let c := crossWord 0x10 0 w h
  forEach c.1.toList (fun x g => fifoStore f x g) c.2

/-- Write a frame as one packet over the crossing from the bus aggregate: two whole words, then its bytes in units of n bytes, the
end mark on the last (R487, R559). A frame that lacks space is discarded whole (R449); a crossing that is shut refuses it (R26, R27). -/
def fifoPacket (f : Nat) (w0 w1 : Word) (n : Nat) (bytes : List Byte) (h : Hub) : Hub :=
  let x := fifo h f
  let need := 2 + (bytes.length + 5) / 6
  if crossingShut h 0x10 0 then (crossWord 0x10 0 (plainWord w0) h).2
  else if fifoCapacity h f < fifoFill x + need then raiseEvent (bump h (fifoKey f 0x0F)) 0x43 f 0
  else
    let a := busWord f { data := w0, poison := false, endMark := false, count := 6 } h
    let b := busWord f { data := w1, poison := false, endMark := bytes.isEmpty, count := 6 } a
    let us := unitsOf n bytes.length bytes
    forEach us.zipIdx (fun u g => fifoPackUnit f u.1 (u.2 + 1 == us.length) g) b

/-- The head packet of a FIFO, once it is complete: its words from R to the end mark. -/
def headPacket (h : Hub) (f : Nat) : Option (List XWord) :=
  let x := fifo h f
  let ws := x.words.drop x.read
  if fifoPackets x = 0 then none else some ((ws.take (packetLength ws)).map (·.1))

/-- Read n words with the mark kept at the first (R489, R560). -/
def markAndRead (f n : Nat) (h : Hub) : Hub := forEach (List.range n) (fun _ g => fifoAdvance f g) (fifoMark f h)

/-- Release a packet up to its end mark. -/
def releasePacket (f n : Nat) (h : Hub) : Hub := fifoRelease f 0 (markAndRead f n h)

/-- The bytes of a packet after its two header words. -/
def packetBytes (ws : List XWord) : List Byte := (ws.drop 2).flatMap fun w => natBytes w.count w.data.toNat

end Sys2Proof.Machine
end

