-- ==== Sys2Proof/Machine/Fuse.lean ====
section
/-! DEFINITION. Fuse channels (R631 to R662): the conversion round, the FET model, soft-start, trips, retry, presence and
the limit in effect. -/

namespace Sys2Proof.Machine

/-- The rounding of a quotient to the steps of its format is left open: one of the two neighbours, chosen by a free
value; exact quotients are exact (assumption log 12). -/
def roundedDiv (num den : Int) (h : Hub) : Int × Hub :=
  if den = 0 ∨ num % den = 0 then (num / den, h)
  else
    let f := takeFree h
    (num / den + (f.1.toNat % 2 : Nat), f.2)

/-! ### Trips and retry -/

/-- COOLDOWN for the cool-down time (R651). -/
def fuseCooldown (n : Nat) (h : Hub) : Hub :=
  let a := fuseOff n 5 h
  setFuse a n { fuse a n with coolEnd := some (busNs h + rd h (fuseCfg n 8) * 1000000), retryEnd := none }

/-- A trip (R648, R652, R656); a gate-suspect trip ends an attempt's window and leaves F as it is. -/
def fuseTrip (n cause : Nat) (h : Hub) : Hub :=
  let a := wrStamp (wr (fuseOff n 1 h) (fuseKey n 0x0D) cause) (fuseKey n 0x0E) 0x10
  let b := raise16ms (bump (bump a (fuseKey n 0x12)) 0x4C00_03) (0x90 + n) n cause cause
  if cause = 5 then
    raiseFault 0x16 0x10 n 0 (bump (wr (setFuse b n { fuse b n with retryEnd := none }) (fuseKey n 1) 7) 0x4C00_05)
  else
    let failed := match (fuse h n).retryEnd with
      | some e => decide (busNs h < e)
      | none => false
    if failed then
      let f := min (rd h (fuseKey n 0x0A) + 1) 254
      let c := wr b (fuseKey n 0x0A) f
      if rd h (fuseCfg n 9) ≠ 255 ∧ rd h (fuseCfg n 9) ≤ f then
        raise16ms (bump (wr (setFuse c n { fuse c n with retryEnd := none }) (fuseKey n 1) 6) 0x4C00_04) 0x8A n 0 0
      else fuseCooldown n c
    else fuseCooldown n (wr b (fuseKey n 0x0A) 0)

/-- A channel whose save list was lost cools down in full, with T_j and T_c at its temperature limit (R674). -/
def fuseLost (n now : Nat) (h : Hub) : Hub :=
  wrs (setFuse h n { fuseInit with coolEnd := some (now + rd h (fuseCfg n 8) * 1000000) })
    [(fuseKey n 8, rd h (fuseModel n 6)), (fuseKey n 9, rd h (fuseModel n 6))]

/-! ### Conversion round (R634 to R636, R645, R657) -/

/-- Current in mA of a code: (c - offset) × scale, negative reads 0 (R635). -/
def fuseCurrent (h : Hub) (n c : Nat) : Nat :=
  (((c : Int) - rd h (fuseCfg n 0x0E)) * signed (rd h (fuseCfg n 0x0D)) / 2 ^ 24).toNat

/-- Voltage in mV of a code, by the scale at slot `sub` (R635). -/
def fuseVoltage (h : Hub) (n sub c : Nat) : Int := c * signed (rd h (fuseCfg n sub)) / 2 ^ 24

/-- The two-node model of R645 at one round of 20 µs, from this round's samples. The second line takes the T_j of the
first. -/
def fuseModelRound (n : Nat) (h : Hub) : Hub :=
  let tj := signed (rd h (fuseKey n 8))
  let tc := signed (rd h (fuseKey n 9))
  let rjc := signed (rd h (fuseModel n 1))
  let cj := signed (rd h (fuseModel n 2))
  let rca := signed (rd h (fuseModel n 3))
  let cc := signed (rd h (fuseModel n 4))
  let ta := signed (rd h (fuseModel n 5))
  let pw : Int := (rd h (fuseKey n 6) - rd h (fuseKey n 5) : Nat) * rd h (fuseKey n 4)
  let dj := roundedDiv (2 ^ 48 * (pw * rjc - 1000000 * (tj - tc))) (50000000000 * rjc * cj) h
  let tj' := tj + dj.1
  let dc := roundedDiv (2 ^ 48 * ((tj' - tc) * rca - (tc - ta) * rjc)) (50000 * cc * rjc * rca) dj.2
  wr (wr dc.2 (fuseKey n 8) (unsigned tj')) (fuseKey n 9) (unsigned (tc + dc.1))

/-- Peaks in ON and over the window, overcurrent run and power-good (R636, R648, R650). -/
def fuseObserve (n : Nat) (h : Hub) : Hub :=
  let i := rd h (fuseKey n 4)
  let v := rd h (fuseKey n 5)
  let c := fuse h n
  let a := setFuse h n { c with
    peak := max c.peak i
    overSince := if fuseState h n = 4 ∧ rd h (fuseKey n 0x0C) ≤ i then
        (match c.overSince with
          | some t => some t
          | none => some (busNs h))
      else none }
  if fuseState h n = 4 then
    let b := wr (peak a (fuseKey n 0x10) i) (fuseKey n 0x11) (min (rd a (fuseKey n 0x11)) v)
    whenDo (decide (v * 100 < rd h (fuseCfg n 6) * rd h (fuseKey n 6))) (fun g => raise16ms g 0x89 n 0 0) b
  else a

/-- The cause of FLT_FUSE_FET_SHORT is gone once the output has stayed below 50 % of V_IN for 1 ms (Table 3 of Watchtower
faults and events). -/
def fuseShortWatch (n : Nat) (h : Hub) : Hub :=
  let low := decide (2 * rd h (fuseKey n 5) < rd h (fuseKey n 6))
  let c := fuse h n
  let since := if low then (match c.lowSince with
      | some t => some t
      | none => some (busNs h)) else none
  let ended := c.shorted && (match since with
    | some t => decide (t + 1000000 ≤ busNs h)
    | none => false)
  let a := setFuse h n { c with lowSince := since, shorted := c.shorted && !ended }
  if ended && !(List.range 16).any fun m => (fuse a m).shorted then causeGone 0x17 a else a

/-- One channel's samples of a round. -/
def fuseSample (n : Nat) (s : FuseSample) (h : Hub) : Hub :=
  let v := (fuseVoltage h n 0x0F s.vout).toNat
  let a := wrs h [(fuseKey n 4, fuseCurrent h n s.current), (fuseKey n 5, v),
    (fuseKey n 6, (fuseVoltage h n 0x10 s.vin).toNat),
    (fuseKey n 7, unsigned (fuseVoltage h n 0x11 s.gate - v))]
  let b := setFuse a n { fuse a n with sampleAt := some (busNs h) }
  let c := fuseObserve n (fuseModelRound n b)
  let d := fuseShortWatch n c
  let e := if fuseActive (fuseState d n) && decide (signed (rd d (fuseModel n 6)) ≤ signed (rd d (fuseKey n 8)))
    then fuseTrip n 2 d else d
  fuseEval n e

/-- The die temperatures (R698): a reading above the limit 0x2E03:03 while the cause is gone starts an excursion; all
four at least 5 °C below the limit end it. -/
def dieCheck (h : Hub) : Hub :=
  let limit : Int := rd h 0x2E03_03
  match h.adc.die.zipIdx.find? fun d => decide (limit < d.1) with
  | some (t, k) => if causePresent h 0x1D then h else raiseFault 0x1D 0x00 k (unsigned t) h
  | none => if h.adc.die.all fun t => decide (t + 5 ≤ limit) then causeGone 0x1D h else h

/-- The analogue inputs and die temperatures of a round (R634, R783). -/
def adcSample (ain : List Nat) (die : List Int) (h : Hub) : Hub :=
  { h with adc := {
      samples := (if h.cyc.running then h.adc.samples else []) ++ [(busNs h, (List.range 8).map fun k => ain.getD k 0 % 4096)]
      die := (List.range 4).map fun k => die.getD k 0 } }

/-- CONVERSION_ROUND (R645). The channel samples carry codes of 12 bits (R767). -/
def conversionRound (samples : List FuseSample) (ain : List Nat) (die : List Int) (h : Hub) : Hub :=
  dieCheck (forEach (samples.take 16).zipIdx (fun p g => fuseSample p.2 p.1 g) (adcSample ain die h))

def execConversionRound (samples : List FuseSample) (ain : List Nat) (die : List Int) (s : State) :
    Host.Outcome State Fault Refusal := onHub s (conversionRound samples ain die)

/-! ### Soft-start (R642 to R644, R656) -/

/-- The latest samples are stamped within [t_0, t_0 + d). -/
def sampledWithin (c : FuseCh) (d : Nat) : Bool :=
  match c.sampleAt with
  | some t => decide (c.t0 ≤ t ∧ t < c.t0 + d)
  | none => false

/-- The regulation step in RAMP (R643). -/
def rampStep (n : Nat) (atLimit : Bool) (h : Hub) : Hub :=
  let c := fuse h n
  let t8 := rd h (fuseCfg n 5) * 800
  let target := rd h (fuseKey n 6) * min t8 (busNs h - c.tr)
  let g := if atLimit then c.g - 1
    else if rd h (fuseKey n 5) * t8 < target then min 1023 (c.g + 1) else c.g
  setFuse h n { c with g }

/-- SOFT_START_STEP (R642, R643, R644): each 1 µs step of GATE_RISE or RAMP. -/
def softStartStep (n : Nat) (atLimit : Bool) (h : Hub) : Hub :=
  let c := fuse h n
  if fuseState h n = 2 then
    if sampledWithin c 200000 && decide ((rd h (fuseCfg n 7) : Int) ≤ signed (rd h (fuseKey n 7))) then
      wr (setFuse h n { c with tr := busNs h }) (fuseKey n 1) 3
    else setFuse h n { c with g := min 1023 (c.g + 8) }
  else if fuseState h n = 3 then
    if sampledWithin c (rd h (fuseCfg n 5) * 1000)
        && decide (rd h (fuseCfg n 6) * rd h (fuseKey n 6) ≤ 100 * rd h (fuseKey n 5)) then
      raise16ms (wr (setFuse h n { c with overSince := none }) (fuseKey n 1) 4) 0x88 n 0 0
    else rampStep n atLimit h
  else h

def execSoftStartStep (n : Fin 16) (atLimit : Bool) (s : State) : Host.Outcome State Fault Refusal :=
  onHub s (softStartStep n atLimit)

/-- The on request changes at its source: the applied output word's bit [0], or 0x36nn:02 (R639). -/
def setRequest (n : Nat) (on : Bool) (h : Hub) : Hub :=
  if serving h && fuseNamed h n then setFuse h n { fuse h n with applied := on } else wr h (fuseKey n 2) (b2n on)

/-- ON_REQUEST_CHANGE (R641). -/
def execOnRequestChange (n : Fin 16) (on : Bool) (s : State) : Host.Outcome State Fault Refusal :=
  onHub s fun h => fuseEval n (setRequest n on h)

/-- FAST_COMPARATOR_TRIP (R648): GATE_RISE, RAMP and ON. -/
def execFastComparatorTrip (n : Fin 16) (s : State) : Host.Outcome State Fault Refusal :=
  onHub s fun h => if fuseActive (fuseState h n) then fuseTrip n 1 h else h

/-- RAMP_TIMEOUT (R644): no power-good by t_0 + T. -/
def execRampTimeout (n : Fin 16) (s : State) : Host.Outcome State Fault Refusal :=
  onHub s fun h => if fuseState h n = 3 then fuseTrip n 4 h else h

/-- OVERCURRENT_DELAY_EXPIRY (R648): in ON, every sample of the delay was at or above the limit in effect. -/
def execOvercurrentDelayExpiry (n : Fin 16) (s : State) : Host.Outcome State Fault Refusal :=
  onHub s fun h => if fuseState h n = 4 ∧ (fuse h n).overSince ≠ none then fuseTrip n 3 h else h

/-- GATE_SUSPECT_TIMEOUT (R656). -/
def execGateSuspectTimeout (n : Fin 16) (s : State) : Host.Outcome State Fault Refusal :=
  onHub s fun h => if fuseState h n = 2 then fuseTrip n 5 h else h

/-- COOLDOWN_EXPIRY (R651): a retry attempt if R641 holds, under a reaction whose safe action is to hold too (R658), else OFF or
ABSENT. A DISABLED channel's cool-down ends. -/
def cooldownExpiry (n : Nat) (h : Hub) : Hub :=
  let a := setFuse h n { fuse h n with coolEnd := none }
  if fuseState h n ≠ 5 then a
  else if fuseStartable a n && fuseCool a n then fuseStart n true a
  else fuseEval n (wr a (fuseKey n 1) (if fusePresent a n then 1 else 8))

def execCooldownExpiry (n : Fin 16) (s : State) : Host.Outcome State Fault Refusal := onHub s (cooldownExpiry n)

/-- RETRY_WINDOW_EXPIRY (R652): the attempt had no trip before t_0 + W. -/
def execRetryWindowExpiry (n : Fin 16) (s : State) : Host.Outcome State Fault Refusal :=
  onHub s fun h =>
    if (fuse h n).retryEnd = none then h
    else wr (setFuse h n { fuse h n with retryEnd := none }) (fuseKey n 0x0A) 0

/-- PRESENCE_CHANGE (R654): an accepted change of FPRES_N. -/
def presenceChange (n : Nat) (present : Bool) (h : Hub) : Hub :=
  let a := setFuse h n { fuse h n with present }
  if !bit (rd h (fuseCfg n 0x0A)) 0 || (fuse h n).present == present then a
  else
    let b := raise16ms (wr a (fuseKey n 0x0A) 0) 0x8B n 0 0
    let st := fuseState h n
    if !present && st == 4 then fuseOff n 8 b
    else if !present && (st == 2 || st == 3) then fuseCooldown n b
    else fuseEval n b

def execPresenceChange (n : Fin 16) (present : Bool) (s : State) : Host.Outcome State Fault Refusal :=
  onHub s (presenceChange n present)

/-! ### Limit, enable and commands -/

/-- 2 × limit exceeds (4,095 - offset) × scale (R649). -/
def limitTooHigh (limit offset scale : Nat) : Bool :=
  decide ((4095 - (offset : Int)) * signed scale < 2 * limit * 2 ^ 24)

/-- The current limit takes effect at once, or after a grace (R655). -/
def setLimit (n v : Nat) (h : Hub) : Hub :=
  let a := wr h (fuseCfg n 2) v
  if v < rd h (fuseKey n 0x0C) ∧ v ≤ rd h (fuseKey n 4) then
    raise16ms (setFuse a n { fuse a n with pending := some v }) 0x8D n 0 0
  else wr (setFuse a n { fuse a n with pending := none }) (fuseKey n 0x0C) v

def execCurrentLimitWrite (p : Path) (n : Fin 16) (value : Nat) (s : State) : Host.Outcome State Fault Refusal :=
  onHub s (pathWrite p (0x2C10 + n.val) 2 value
    (fun h c => { c with value := (c.value || decide (value < 10 ∨ 50000 < value)
      || limitTooHigh value (rd h (fuseCfg n 0x0E)) (rd h (fuseCfg n 0x0D))) }) (setLimit n value))

/-- LIMIT_GRACE_EXPIRY (R655). -/
def execLimitGraceExpiry (n : Fin 16) (s : State) : Host.Outcome State Fault Refusal :=
  onHub s fun h =>
    match (fuse h n).pending with
    | some v => wr (setFuse h n { fuse h n with pending := none }) (fuseKey n 0x0C) v
    | none => h

/-- The channel enable (R784). -/
def setEnable (n v : Nat) (h : Hub) : Hub :=
  let a := wr h (fuseCfg n 1) v
  let st := fuseState h n
  if v = 0 then
    if st = 0 then a
    else fuseOff n 0 (setFuse a n { fuse a n with latch := if st = 6 ∨ st = 7 then st else 0 })
  else if st ≠ 0 then a
  else
    let c := fuse a n
    if c.latch ≠ 0 then wr (setFuse a n { c with latch := 0 }) (fuseKey n 1) c.latch
    else if c.coolEnd ≠ none then wr a (fuseKey n 1) 5
    else fuseEval n (wr a (fuseKey n 1) 1)

def execChannelEnableWrite (p : Path) (n : Fin 16) (value : Nat) (s : State) : Host.Outcome State Fault Refusal :=
  onHub s (pathWrite p (0x2C10 + n.val) 1 value (fun _ c => { c with value := c.value || decide (1 < value) })
    (setEnable n value))

/-- FLT_FUSE_GATE_SUSPECT's cause is gone when no channel is in SUSPECT (Table 3 of Watchtower faults and events). -/
def suspectGone (h : Hub) : Hub :=
  if (List.range 16).any fun m => fuseState h m == 7 || (fuse h m).latch == 7 then h else causeGone 0x16 h

/-- CLEAR_LOCKOUT (R656): in any mode. -/
def execClearLockout (p : Path) (n : Fin 16) (s : State) : Host.Outcome State Fault Refusal :=
  onHub s (pathWrite p (0x3600 + n.val) 3 1
    (fun h c => { c with value := c.value || fuseState h n != 6 })
    (fun h => fuseEval n (wr (wr h (fuseKey n 0x0A) 0) (fuseKey n 1) 1)))

/-- CLEAR_SUSPECT (R656): accepted only in COMMISSION or SERVICE, refused with 0x05 otherwise. -/
def execClearSuspect (p : Path) (n : Fin 16) (s : State) : Host.Outcome State Fault Refusal :=
  onHub s (pathWrite p (0x3600 + n.val) 3 2
    (fun h c => { c with value := c.value || fuseState h n != 7, mode := c.mode || !(mode h == 2 || mode h == 7) })
    (fun h => fuseEval n (suspectGone (wr h (fuseKey n 1) 1))))

/-- FET_SHORT_DETECT (R657): with GATE_EN low, the latest output sample above half the input. -/
def fetShortDetect (n : Nat) (h : Hub) : Hub :=
  if !fuseActive (fuseState h n) && decide (rd h (fuseKey n 6) < 2 * rd h (fuseKey n 5)) then
    raiseFault 0x17 0x10 n (rd h (fuseKey n 5)) (bump (setFuse h n { fuse h n with shorted := true, lowSince := none }) 0x4C00_06)
  else h

def execFetShortDetect (n : Fin 16) (s : State) : Host.Outcome State Fault Refusal := onHub s (fetShortDetect n)

end Sys2Proof.Machine
end

