-- ==== Sys2Proof/Machine/Spire.lean ====
section
/-! DEFINITION. Spire time (R360 to R394): the tick, replicas, the master, delay measurement, SYNC chains, the step, the
servo, holdover and the PPS pins. -/

namespace Sys2Proof.Machine

/-! ### Counting (R30, R32, R361) -/

/-- Spire state (Table 2): 1 FREE, 2 MEASURING, 3 LOCKING, 4 LOCKED, 5 SLEWING, 6 HOLDOVER, 7 AHEAD. -/
def spireState (h : Hub) : Nat := rd h 0x4500_01

def setSpire (st : Nat) (h : Hub) : Hub := wr h 0x4500_01 st

/-- Present time in ps. -/
def nowPs (h : Hub) : Nat := spireTime h * 1000 / 2 ^ 32

/-- The increment of one 4 ns tick: 4 ns × (1 + ρ × 10⁻⁶) in units of 2^-32 ns, with ρ as 0x4500:07 holds it (Q24.24). -/
def tickIncrement (h : Hub) : Nat :=
  (4 * 2 ^ 32 + (4 * 2 ^ 32 * signed (rd h 0x4500_07)) / (2 ^ 24 * 1000000)).toNat

/-- Change the replica counter of every stamping island. -/
def eachReplica (f : Nat → Replica → Replica) (h : Hub) : Hub :=
  { h with spire := { h.spire with
      replicas := stampIslands.foldl (fun t i => tabSet t i (f i (tabGet replicaInit t i))) h.spire.replicas } }

/-- Every stamping island's replica counts on at its own clock while `n` units of 2^-32 ns pass (R30). -/
def countReplicas (n : Nat) (h : Hub) : Hub := eachReplica (fun i => replicaCounts (islandHz h i) n) h

/-- The replica counter of one island loads a time; one that is ahead holds (R30, R32). -/
def loadReplica (i v : Nat) (h : Hub) : Hub :=
  { h with spire := { h.spire with replicas := tabSet h.spire.replicas i (replicaLoads v (tabGet replicaInit h.spire.replicas i)) } }

/-- A sync edge at one island: it loads the value sent ahead on the crossing from `src` (R30), unless that is shut or brought a poisoned word
(R25 to R27). -/
def loadOver (src i v : Nat) (h : Hub) : Hub :=
  if i = src then loadReplica i v h
  else
    let a := crossWords src i [plainWord (w48 (timeSec v)), plainWord (w48 (timeFrac v))] h
    if a.1.length = 2 ∧ ¬ a.1.any (·.poison) then loadReplica i v a.2 else a.2

/-- Every replica loads the time of the Spire island, or of the holdover counter in the always-on island. -/
def loadReplicas (src v : Nat) (h : Hub) : Hub := forEach stampIslands (fun i g => loadOver src i v g) h

/-- A period of the 32.768 kHz crystal, 30,517.578125 ns, in units of 2^-32 ns. -/
def crystalPeriod : Nat := 131072000000000

/-- The holdover counter over 4 ns (R387, R388): at each count it copies Spire time; alone, in DORMANT or after a fault of the Spire
island, it adds its increment, and the replicas load from it. -/
def holdoverTick (alone : Bool) (h : Hub) : Hub :=
  let x := h.spire
  let part := x.holdPart + 4 * 2 ^ 32
  if part < crystalPeriod then { h with spire := { x with holdPart := part } }
  else if alone then
    let v := x.holdTime + x.holdInc
    loadReplicas 0x15 v { h with spire := { x with holdPart := part - crystalPeriod, holdTime := v } }
  else { h with spire := { x with holdPart := part - crystalPeriod, holdTime := x.acc } }

/-- Spire counts 4 ns, once a hold has passed (R361, R378). -/
def spireCount (h : Hub) : Hub :=
  if h.spire.hold ≠ 0 then { h with spire := { h.spire with hold := h.spire.hold - tickIncrement h } }
  else countReplicas (tickIncrement h) { h with spire := { h.spire with acc := h.spire.acc + tickIncrement h } }

/-- 4 ns pass: in DORMANT and after a fault of the Spire island the holdover counter alone counts (R387, R388). -/
def spireTick (h0 : Hub) : Hub :=
  let h := { h0 with power := { h0.power with aonTicks := h0.power.aonTicks + 1 } }
  if h.spire.faulted || mode h == 6 then holdoverTick true h else spireCount (holdoverTick false h)

/-- SPIRE_SYNC_EDGE (R30, R32): every replica loads Spire time, or the holdover counter in place of a faulted island (R388). -/
def spireSyncEdge (h : Hub) : Hub := loadReplicas (if h.spire.faulted || mode h == 6 then 0x15 else 0x14) (spireTime h) h

def execSpireSyncEdge (s : State) : Host.Outcome State Fault Refusal := onHub s spireSyncEdge

/-! ### The master (R364 to R367) -/

/-- This hub is a joined time master candidate. -/
def isCandidate (h : Hub) : Bool := roleInForce h == 2 && hubNumber h != 0

/-- This hub declares itself LOCKED. -/
def declaresLocked (h : Hub) : Bool := spireState h == 4 || spireState h == 5

/-- Candidates heard in the last 300 ms, this hub among them if it is one: hub, class, LOCKED. -/
def candidates (h : Hub) : List (Nat × Nat × Bool) :=
  let heard := (h.spire.cands.filter fun c => decide (nowNs h < c.2.2.2 + 300000000)).map fun c => (c.1, c.2.1, c.2.2.1)
  if isCandidate h then (hubNumber h, h.spire.cls, declaresLocked h) :: heard else heard

/-- The better of two: lower class, then lower hub number. -/
def betterMaster (a b : Nat × Nat) : Nat × Nat := if b.2 < a.2 ∨ (b.2 = a.2 ∧ b.1 < a.1) then b else a

/-- 300 ms have passed since a time in ns. -/
def silent (h : Hub) (since : Nat) : Bool := decide (since + 300000000 ≤ nowNs h)

/-- The best of some candidates; none of none. -/
def bestMaster : List (Nat × Nat × Bool) → Option (Nat × Nat)
  | [] => none
  | c :: cs => some (cs.foldl (fun a x => betterMaster a (x.1, x.2.1)) (c.1, c.2.1))

/-- The elected master and its class (R365, R366): of the LOCKED candidates; once none was heard for 300 ms, of every candidate heard; once
no candidate was heard for 300 ms, the head. Until then the master stays. An isolated bench hub is its own. -/
def elected (h : Hub) : Nat × Nat :=
  if bench h then (hubNumber h, h.spire.cls)
  else
    let present := (rd h 0x4500_02, rd h 0x4500_03)
    match bestMaster ((candidates h).filter fun c => c.2.2), bestMaster (candidates h) with
    | some m, _ => m
    | none, some m => if silent h h.spire.lockedAt then m else present
    | none, none => if silent h h.spire.listenAt then (headHub h, 3) else present

/-- The peer of a port (R369): its neighbour if present, else the nearest present hub through the port; 0 for none. -/
def peerOf (h : Hub) (p : Nat) : Nat :=
  let n := rd h (0x4100_08 + p)
  let others := othersPresent h
  if others.contains n then n
  else
    let d := fun k => distance h (p == 1) k
    match (others.map d).min? with
    | some m => if m = 0xFF then 0 else (others.find? fun k => d k == m).getD 0
    | none => 0

/-- A port has 64 valid exchanges with its present peer (R371, R375). -/
def exchanged (h : Hub) (p : Nat) : Bool :=
  h.spire.spans.any fun e => e.1 == p && e.2.peer == peerOf h p && decide (64 ≤ e.2.valid)

/-- Gate condition [1] (R375). -/
def gate1 (h : Hub) : Bool :=
  bench h ||
    ((List.range 2).all (fun p => !rxUp h p || exchanged h p)
      && h.spire.rtSeen
      && (rd h 0x4500_02 != hubNumber h || !h.spire.loops.isEmpty))

/-- An isolated bench hub without a PPS_IN source: it counts as locked (R55). A source counts as present while PPS_IN is enabled
(DEDUCED, assumption log 69). -/
def benchLocked (h : Hub) : Bool := bench h && !rdB h 0x2501_0C && spireState h != 7

/-- Gate condition [2] (Table 2, R376): LOCKED or SLEWING, or counted as locked; never AHEAD (R378). -/
def gate2 (h : Hub) : Bool := benchLocked h || declaresLocked h

/-- This hub is the elected master. -/
def masterHere (h : Hub) : Bool := hubNumber h != 0 && rd h 0x4500_02 == hubNumber h

/-- Enter LOCKED: EV_SPIRE_LOCKED. -/
def enterLocked (h : Hub) : Hub := raiseEvent (setSpire 4 h) 0x28 0 0

/-- A master of class 2 or 3 is LOCKED once gate condition [1] holds (R379); a bench hub with a PPS_IN source takes its time from it
(R55). One elected while it slewed runs on at φ. -/
def masterLock (h : Hub) : Hub :=
  if masterHere h ∧ h.spire.cls ≠ 1 ∧ gate1 h ∧ (bench h → benchLocked h) then
    match spireState h with
    | 4 | 7 => h
    | 5 => setSpire 4 (wr h 0x4500_07 (rd h 0x4500_06))
    | 6 => enterLocked (holdoverEnds h)
    | _ => enterLocked h
  else h

/-- This hub, a LOCKED candidate itself, has heard one (R365). -/
def noteLocked (h : Hub) : Hub :=
  if isCandidate h && declaresLocked h then { h with spire := { h.spire with lockedAt := nowNs h } } else h

/-- What becoming master leaves behind (R379, R397): no hop to it, and no step of a follower. -/
def mastered (h : Hub) : Hub :=
  if masterHere h then wr { h with spire := { h.spire with toStep := none } } 0x4500_04 0 else h

/-- Elect, and report a change (R367). -/
def elect (h0 : Hub) : Hub :=
  let h := noteLocked h0
  let e := elected h
  let m := rd h 0x4500_02
  let a := wrs h [(0x4500_02, e.1), (0x4500_03, if e.1 = 0 then h.spire.cls else e.2)]
  masterLock (mastered (whenDo (m != e.1) (fun g => raiseEvent g 0x2C 0 0) a))

/-- Whether an election now would change the master or its class: a head that came or left, a candidate that fell silent (R365, R366). -/
def electionDue (h : Hub) : Bool :=
  let e := elected (noteLocked h)
  e.1 != rd h 0x4500_02 || (e.1 != 0 && e.2 != rd h 0x4500_03)

/-- Gate condition [0] takes a FREE hub to MEASURING with its first election (Table 2), on the chain of the time ring (R383); from then on a
change in what is heard elects anew, and a master may be LOCKED. -/
def spireWatch (h : Hub) : Hub :=
  if ¬ (mode h = 2 ∨ serving h ∨ mode h = 7) then h
  else if spireState h = 1 then
    if gate0 h then elect (wr (setSpire 2 h) 0x4500_0B (rd h 0x2501_01)) else h
  else if electionDue h then elect h
  else masterLock h

/-- Send a time frame on one ring: sealed by Dome over the crossing that joins them, and handed over to the port directly (R177, R368). A hub
without a number sends none (Table 5 of Ring links and frames). -/
def timeFrame (port dst sub : Nat) (payload : List Word) (h : Hub) : Hub :=
  if hubNumber h = 0 then h
  else
    let f := newFrame h 6 .ur dst (sub * 256) 0 payload
    let k := streamKey (hubNumber h) dst .ur
    sendOver 0x14 0x12 (fun f b => match sealing f b with
      | (some g, a) => sendOver 0x12 0x14 (fun g c =>
          sendOver 0x14 6 (fun x => queueTx port true { frame := x, hop := 254, error := false, crc := none }) g c) g a
      | (none, a) => a) f { h with seqs := tabSet h.seqs k ((f.seq + 1) % 65536) }

/-- The port a ring leaves by: ring A East, ring B West. -/
def ringPort (ringB : Bool) : Nat := if ringB then 1 else 0

/-- The time ring, or the other one while it is lost (R364). -/
def announceRing (h : Hub) : Bool :=
  let b := rd h 0x2501_01 == 1
  if ringLost h b then !b else b

/-- ANNOUNCE_SEND (R364). -/
def announceSend (h : Hub) : Hub :=
  if isCandidate h ∧ sendsOwn h then
    elect (timeFrame (ringPort (announceRing h)) 255 1
      [w48 (hubNumber h * 2 ^ 40 + h.spire.cls * 2 ^ 32 + b2n (declaresLocked h) * 2 ^ 31)] h)
  else h

def execAnnounceSend (s : State) : Host.Outcome State Fault Refusal := onHub s announceSend

/-- ANNOUNCE (R365). -/
def announce (src cls : Nat) (locked : Bool) (h : Hub) : Hub :=
  if src = 0 ∨ src = hubNumber h then h
  else elect { h with spire := { h.spire with
    cands := tabSet h.spire.cands src (cls, locked, nowNs h), lockedAt := if locked then nowNs h else h.spire.lockedAt } }

def execAnnounce (src cls : Nat) (locked : Bool) (s : State) : Host.Outcome State Fault Refusal :=
  onHub s (announce src cls locked)

/-- ANNOUNCE_TIMEOUT (R366): a candidate unheard for 300 ms drops out. -/
def execAnnounceTimeout (hub : Nat) (s : State) : Host.Outcome State Fault Refusal :=
  onHub s fun h => elect { h with spire := { h.spire with cands := tabErase h.spire.cands hub } }

/-! ### Delay measurement (R369 to R372) -/

def meterInit : SpanMeter := { peer := 0, seq := 0, opened := [], pend := [], delays := [], valid := 0, reply := (0, 0) }

def meter (h : Hub) (p : Nat) : SpanMeter := tabGet meterInit h.spire.spans p

def setMeter (p : Nat) (m : SpanMeter) (h : Hub) : Hub := { h with spire := { h.spire with spans := tabSet h.spire.spans p m } }

/-- Count an invalid exchange (R371). -/
def exchangeInvalid (h : Hub) : Hub := bump h 0x4500_11

/-- A port whose peer changed starts anew; every exchange in progress with the old one is invalid; its span delay keeps its value
(R371). -/
def peerChange (p : Nat) (h : Hub) : Hub :=
  let m := meter h p
  let q := peerOf h p
  if m.peer = q then h
  else
    let a := bumpBy h 0x4500_11 (m.opened.length + m.pend.length)
    setMeter p { m with peer := q, opened := [], pend := [], delays := [], valid := 0 } a

/-- DELAY_REQ_SEND (R370). -/
def delayReqSend (p t1 : Nat) (h : Hub) : Hub :=
  let a := peerChange p h
  let m := meter a p
  if rxUp h p ∧ m.peer ≠ 0 ∧ sendsOwn h then
    let n := (m.seq + 1) % 256
    timeFrame p m.peer 3 [w48 (n * 2 ^ 40 + p * 2 ^ 32)] (setMeter p { m with seq := n, opened := m.opened ++ [(n, t1)] } a)
  else a

def execDelayReqSend (port : Port) (t1Ps : Nat) (s : State) : Host.Outcome State Fault Refusal :=
  onHub s (delayReqSend (portNum port) t1Ps)

/-- A TIME of ps as two words. -/
def psWords (ps : Nat) : List Word :=
  let acc := ps * 2 ^ 32 / 1000
  [w48 (timeSec acc), w48 (timeFrac acc)]

/-- The stamp of a time frame's departure from a port, by subtype and frame number (R368, R389); 0 for one that has not left. -/
def leftAt (h : Hub) (p sub number : Nat) : Nat :=
  match tabFind (link h p).left sub with
  | some x => if x.1 = number then x.2 else 0
  | none => 0

/-- The number the next UR frame to a hub gets in its stream (R153). -/
def nextNumber (h : Hub) (dst : Nat) : Nat := tabGet 0 h.seqs (streamKey (hubNumber h) dst .ur) % 65536

/-- DELAY_REQ (R370): answered out of the facing port with t2, and the t3 of the previous response as it left. -/
def delayReq (p src seq t2 : Nat) (h : Hub) : Hub :=
  if ¬ sendsOwn h ∨ src = 0 then h
  else
    let m := meter h p
    timeFrame p src 4 ([w48 (seq % 256 * 2 ^ 40 + m.reply.1 * 2 ^ 32)] ++ psWords t2 ++ psWords (leftAt h p 4 m.reply.2))
      (setMeter p { m with reply := (seq % 256, nextNumber h src) } h)

def execDelayReq (port : Port) (src seq t2Ps : Nat) (s : State) : Host.Outcome State Fault Refusal :=
  onHub s (delayReq (portNum port) src seq t2Ps)

/-- One exchange with all four stamps: valid, or counted as invalid (R371). -/
def exchangeDone (p t1 t2 t3 t4 : Nat) (h : Hub) : Hub :=
  let m := meter h p
  let d : Int := (((t4 : Int) - t1) - ((t3 : Int) - t2)) / 2
  match m.delays.min? with
  | some least => if least + 50000 < d then exchangeInvalid h else store m d
  | none => store m d
where
  store (m : SpanMeter) (d : Int) : Hub :=
    let ds := (d :: m.delays).take 64
    let mean := ds.sum / ds.length
    wr (setMeter p { m with delays := ds, valid := m.valid + 1 } h) (0x4500_08 + p) mean.toNat

/-- DELAY_RESP (R370, R371): t2 and t4 of the request answered, t3 of an earlier one. -/
def delayResp (p seq t3Seq t2 t3 t4 : Nat) (errorBlock : Bool) (h : Hub) : Hub :=
  let m := meter h p
  match m.opened.find? fun x => x.1 == seq % 256 with
  | none => h
  | some (n, t1) =>
    let opened := m.opened.filter fun x => x.1 != n
    if errorBlock then exchangeInvalid (setMeter p { m with opened } h)
    else if m.peer ≠ peerOf h p then peerChange p h
    else
      let pend := ((n, t1, t2, t4) :: m.pend).take 8
      match pend.find? fun x => x.1 == t3Seq % 256 with
      | none => setMeter p { m with opened, pend } h
      | some x =>
        let a := setMeter p { m with opened, pend := pend.filter fun y => y.1 != x.1 } h
        masterLock (exchangeDone p x.2.1 x.2.2.1 t3 x.2.2.2 a)

def execDelayResp (port : Port) (seq t3Seq t2Ps t3Ps t4Ps : Nat) (errorBlock : Bool) (s : State) :
    Host.Outcome State Fault Refusal :=
  onHub s (delayResp (portNum port) seq t3Seq t2Ps t3Ps t4Ps errorBlock)

/-- DELAY_RESP_TIMEOUT (R371): the oldest request without a response. -/
def execDelayRespTimeout (port : Port) (s : State) : Host.Outcome State Fault Refusal :=
  onHub s fun h =>
    let p := portNum port
    if (meter h p).opened.isEmpty then h else exchangeInvalid (setMeter p { meter h p with opened := (meter h p).opened.tail } h)

/-- The incoming span delay in ps (R372). -/
def incomingDelay (h : Hub) (p : Nat) : Int := (rd h (0x4500_08 + p) : Int) + signed (rd h (0x2501_08 + p)) / 2

/-! ### Steps (R376 to R379) -/

/-- Belfry's stored frames keep their ages through a step. -/
def shiftBelfry (d : Nat) (b : Belfry) : Belfry := { b with stored := b.stored.map fun x => { x with stamp := x.stamp + d } }

/-- Durations in progress keep their length: a step of +Δ ns is added to every start stamp held (R377). Stamps of frames that a peer
pairs with its own (the last t3 and t2 sent) are reported already. -/
def shiftStamps (d : Nat) (h : Hub) : Hub :=
  let up := fun (t : Tab Nat) => t.map fun e => (e.1, e.2 + d)
  let o := fun (x : Option Nat) => x.map (· + d)
  let ps := d * 1000
  { h with
    belfry := shiftBelfry d h.belfry
    fifos := h.fifos.map fun e => (e.1, { e.2 with stopAt := e.2.stopAt + d, lastCommit := o e.2.lastCommit })
    fuses := h.fuses.map fun e => (e.1, { e.2 with
      t0 := e.2.t0 + d, tr := e.2.tr + d, retryEnd := o e.2.retryEnd, coolEnd := o e.2.coolEnd, sampleAt := o e.2.sampleAt,
      overSince := o e.2.overSince, lowSince := o e.2.lowSince })
    watch := { h.watch with
      records := h.watch.records.map fun e => (e.1, { e.2 with windowStart := e.2.windowStart + d })
      channelStamp := up h.watch.channelStamp, rates := up h.watch.rates }
    sessions := h.sessions.map fun e => (e.1, { e.2 with
      lastAccess := e.2.lastAccess + d
      challenge := e.2.challenge.map fun c => (c.1, c.2.1, c.2.2.1, c.2.2.2 + d) })
    power := { h.power with wakeAt := h.power.wakeAt + d }
    sleep := { h.sleep with
      roundAt := h.sleep.roundAt + d, lastCan := up h.sleep.lastCan, lastT1s := up h.sleep.lastT1s
      spans := h.sleep.spans.map fun x => { x with start := x.start + d, ending := o x.ending } }
    links := h.links.map fun e => (e.1, { e.2 with
      miswireAt := e.2.miswireAt + d, left := e.2.left.map fun x => if x.1 = 2 then (x.1, (x.2.1, x.2.2 + ps)) else x })
    adc := { h.adc with samples := h.adc.samples.map fun x => (x.1 + d, x.2) }
    ring := { h.ring with presentAt := o h.ring.presentAt, offers := h.ring.offers.map fun x => (x.1, x.2.1, x.2.2 + d) }
    canopy := { h.canopy with released := up h.canopy.released, committed := up h.canopy.committed }
    forester := { h.forester with
      starts := h.forester.starts.map (· + d), moves := h.forester.moves.map fun m => { m with started := m.started + d } }
    can := h.can.map fun e => (e.1, { e.2 with sof := e.2.sof + d, entries := e.2.entries.map (· + d) })
    t1s := h.t1s.map fun e => (e.1, { e.2 with held := e.2.held.map fun x => (x.1, (x.2.1, x.2.2 + d)), sfd := e.2.sfd + d })
    update := { h.update with pullers := up h.update.pullers }
    channels := h.channels.map fun e => (e.1, { e.2 with
      exclusions := e.2.exclusions.map (· + d), replayAt := e.2.replayAt + d, loaded := o e.2.loaded
      point := e.2.point.map (shiftBelfry d) })
    spire := { h.spire with
      cands := h.spire.cands.map fun e => (e.1, (e.2.1, e.2.2.1, e.2.2.2 + d))
      holdAt := h.spire.holdAt + d, listenAt := h.spire.listenAt + d, lockedAt := h.spire.lockedAt + d
      spans := h.spire.spans.map fun e => (e.1, { e.2 with
        opened := e.2.opened.map fun x => (x.1, x.2 + ps)
        pend := e.2.pend.map fun x => (x.1, x.2.1 + ps, x.2.2.1, x.2.2.2 + ps) })
      chains := h.spire.chains.map fun e => (e.1, { e.2 with
        last := e.2.last.map fun x => (x.1, x.2 + ps) }) } }

/-- Take a step of `d` units of 2^-32 ns: forward at once, with every replica at that sync edge (R30), recorded with EV_SPIRE_STEP; back by a
hold of at most 1 s; otherwise AHEAD (R377, R378). -/
def takeStep (d : Int) (h : Hub) : Hub :=
  let ns := d / 2 ^ 32
  if 0 ≤ d then
    let a := shiftStamps ns.toNat { h with spire := { h.spire with acc := h.spire.acc + d.toNat, stepped := true } }
    raiseEvent (wr (loadReplicas 0x14 a.spire.acc a) 0x4500_0C (unsigned ns)) 0x29 0 ns.toNat
  else if -(1000000000 * 2 ^ 32) ≤ d then
    wr { h with spire := { h.spire with hold := (-d).toNat, stepped := true } } 0x4500_0C (unsigned ns)
  else raiseEvent (setSpire 7 h) 0x2D 0 0

/-- SPIRE_STEP (R376): the pending step of −θ at the next 1 µs sync edge; a master takes none but its source's (R379). -/
def spireStep (h : Hub) : Hub :=
  match h.spire.toStep with
  | none => h
  | some ps =>
    let a := { h with spire := { h.spire with toStep := none } }
    if mode h = 2 ∧ ¬ masterHere h then takeStep (ps * 2 ^ 32 / 1000) a else a

def execSpireStep (s : State) : Host.Outcome State Fault Refusal := onHub s spireStep

/-! ### The servo (R380 to R382) -/

/-- A value in Q24.24 ppm limited to ± n ppm. -/
def clampPpm (x : Int) (n : Nat) : Int := max (-(n * 2 ^ 24 : Int)) (min (n * 2 ^ 24 : Int) x)

/-- Above the slew threshold. -/
def beyondThreshold (h : Hub) (theta : Int) : Bool := decide ((rd h 0x2501_06 : Int) * 1000 < theta.natAbs)

/-- Phase correction σ in Q24.24 ppm: −θ ÷ τ, or the full slew limit against θ beyond the threshold. θ in ps over τ in ms is
ppm × 10⁻³. -/
def sigma (h : Hub) (theta : Int) : Int :=
  let lim := rd h 0x2501_05
  if beyondThreshold h theta then (if 0 < theta then -(lim * 2 ^ 24 : Int) else (lim * 2 ^ 24 : Int))
  else clampPpm (-(theta * 2 ^ 24) / (rd h 0x2501_04 * 1000 : Int)) lim

/-- Set φ and ρ = φ + σ. The spec gives φ's averaging time and limit and no formula: a free value within ±100 ppm
(assumption log 27). -/
def applyRate (theta : Int) (h : Hub) : Hub :=
  let f := takeFree h
  let phi := clampPpm ((f.1.toNat % (200 * 2 ^ 24 + 1) : Nat) - (100 * 2 ^ 24 : Nat) : Int) 100
  wrs f.2 [(0x4500_05, unsigned theta), (0x4500_06, unsigned phi), (0x4500_07, unsigned (phi + sigma h theta))]

/-- Slewing starts: EV_SPIRE_SLEW. -/
def enterSlewing (h : Hub) : Hub := raiseEvent (bump (setSpire 5 h) 0x4500_0D) 0x2A 0 0

/-- An offset θ of the followed chain, in ps: the states of Table 2. -/
def servo (theta : Int) (h : Hub) : Hub :=
  let st := spireState h
  if st = 7 then h
  else if st ≤ 2 then
    if ¬ gate1 h then setSpire 2 (wr h 0x4500_05 (unsigned theta))
    else
      let a := setSpire 3 (applyRate theta h)
      if mode h = 2 then { a with spire := { a.spire with toStep := some (-theta), good := 0 } } else a
  else
    let a := applyRate theta h
    if st = 3 then
      if ¬ h.spire.stepped then
        if mode h = 2 ∧ h.spire.toStep = none then { a with spire := { a.spire with toStep := some (-theta) } } else a
      else
        let n := if theta.natAbs ≤ 100000 then h.spire.good + 1 else 0
        let b := { a with spire := { a.spire with good := n } }
        if 8 ≤ n then enterLocked b else b
    else if beyondThreshold h theta then (if st = 5 then a else enterSlewing a)
    else setSpire 4 a

/-! ### SYNC (R373, R374, R380, R383) -/

def chainInit : Chain := { last := none, seq := 0, sent := none, row := 0 }

def chain (h : Hub) (r : Nat) : Chain := tabGet chainInit h.spire.chains r

def setChain (r : Nat) (c : Chain) (h : Hub) : Hub := { h with spire := { h.spire with chains := tabSet h.spire.chains r c } }

def ringNum : RingId → Nat
  | .a => 0
  | .b => 1

/-- Send a SYNC on a chain: hops, accumulated path and RT; it carries the origin of the previous one, as that left. -/
def sendSync (r master cls hops path rt : Nat) (h : Hub) : Hub :=
  let c := chain h r
  let peer := peerOf h r
  if peer = 0 ∨ ¬ sendsOwn h then h
  else
    let n := (c.seq + 1) % 256
    timeFrame r peer 2
      ([w48 (master * 2 ^ 40 + cls * 2 ^ 32 + hops % 256 * 2 ^ 24 + n * 2 ^ 16 + r * 2 ^ 8)]
        ++ psWords ((c.sent.map (leftAt h r 2)).getD 0) ++ [w48 (path * 2 ^ 16), w48 (rt * 2 ^ 16)])
      (setChain r { c with seq := n, sent := some (nextNumber h peer) } h)

/-- SYNC_SEND (R373): the master's SYNC with hops 0. -/
def execSyncSend (ring : RingId) (s : State) : Host.Outcome State Fault Refusal :=
  onHub s fun h =>
    if rd h 0x4500_02 = hubNumber h ∧ hubNumber h ≠ 0 then
      sendSync (ringNum ring) (hubNumber h) (rd h 0x4500_03) 0 0 (rd h 0x4500_0A) h
    else h

/-- The cycle period in ns (R327). -/
def periodNs (h : Hub) : Nat := if rd h 0x2401_01 = 62 then 62500 else rd h 0x2401_01 * 1000

/-- The floor F in ns (R329): the larger of 62.5 µs and 1.1 × RT, rounded up to a whole tick. -/
def floorNs (h : Hub) : Nat := max 62500 ((11 * rd h 0x4500_0A + 39) / 40 * 4)

/-- RT as measured or received: where F then exceeds P outside COMMISSION, EV_CYC_PERIOD_FLOOR (R330). -/
def setRt (rt : Nat) (h : Hub) : Hub :=
  let a := wr h 0x4500_0A rt
  let p := if h.cyc.running then h.cyc.period else periodNs a
  if mode h ≠ 2 ∧ p < floorNs a then cycEvent a 0x25 0 0 0 else a

/-- The master's own chain comes back: the loop time of that ring, and RT (R373, R374). -/
def loopBack (r path : Nat) (h : Hub) : Hub :=
  let port := 1 - r
  let t := path + ((incomingDelay h port + 999) / 1000).toNat
  let a := { h with spire := { h.spire with loops := tabSet h.spire.loops r t } }
  let rt := ((a.spire.loops.filter fun e => !ringLost a (e.1 == 1)).map (·.2)).foldl max 0
  masterLock (setRt (if rt = 0 then t else rt) a)

/-- Which chain is followed after a SYNC on ring r (R383): back to the time ring after 16 in a row on it. -/
def followChain (r : Nat) (h : Hub) : Hub :=
  if r = rd h 0x2501_01 ∧ rd h 0x4500_0B ≠ r ∧ 16 ≤ (chain h r).row then wr h 0x4500_0B r else h

/-- Every hub relays the SYNC it gets from its upstream peer, whoever sent it first (R373). -/
def relaySync (r master cls hops path rt : Nat) (h : Hub) : Hub :=
  let port := 1 - r
  sendSync r master cls (hops + 1) (path + (incomingDelay h port / 1000).toNat + (if fecOn h port then 350 else 250)) rt h

/-- A SYNC is accepted: a HOLDOVER ends with the first (R385). -/
def syncEndsHoldover (h : Hub) : Hub := if spireState h = 6 then setSpire 4 (holdoverEnds h) else h

/-- A SYNC of the elected master is accepted: θ comes from the origin it carries for the previous one (R380). -/
def acceptSync (r cls hops seq origin rt arrival : Nat) (h : Hub) : Hub :=
    let d := incomingDelay h (1 - r)
    let c := chain h r
    let follows := c.last.any fun x => (x.1 + 1) % 256 == seq % 256
    let a := setChain r { c with last := some (seq % 256, arrival), row := if follows then c.row + 1 else 1 } (bump h 0x4500_10)
    let b := syncEndsHoldover { a with spire := { a.spire with rtSeen := a.spire.rtSeen || rt != 0 } }
    let f := followChain r (setRt rt (wr b 0x4500_03 cls))
    if rd f 0x4500_0B ≠ r then f
    else
      let g := wr f 0x4500_04 (hops + 1)
      match c.last with
      | some (m, at0) => if (m + 1) % 256 = seq % 256 then servo ((at0 : Int) - (origin + d)) g else g
      | none => g

/-- SYNC (R373, R380): the master's own comes back, or one of the upstream peer is relayed, and accepted from the elected master. -/
def sync (r master cls hops seq origin path rt arrival : Nat) (h : Hub) : Hub :=
  if master = 0 then h
  else if master = hubNumber h then
    if masterHere h then
      loopBack r path (whenDo (rt != 0) (fun g => { g with spire := { g.spire with rtSeen := true } }) h) else h
  else
    let a := relaySync r master cls hops path rt h
    if master = rd h 0x4500_02 then acceptSync r cls hops seq origin rt arrival a else a

def execSync (ring : RingId) (master cls hops seq originPs pathNs rtNs arrivalPs : Nat) (s : State) :
    Host.Outcome State Fault Refusal :=
  onHub s (sync (ringNum ring) master cls hops seq originPs pathNs rtNs arrivalPs)

/-- CHAIN_SWITCH (R383): 4 sync intervals without a SYNC on the followed chain. -/
def execChainSwitch (s : State) : Host.Outcome State Fault Refusal :=
  onHub s fun h =>
    let r := rd h 0x4500_0B
    setChain r { chain h r with row := 0, last := none } (wr h 0x4500_0B (1 - r))

/-! ### Holdover (R384 to R388) -/

/-- HOLDOVER_ENTRY (R384): a following hub in LOCKED or SLEWING only; σ = 0 and φ frozen. -/
def holdoverEntry (h : Hub) : Hub :=
  if declaresLocked h ∧ ¬ masterHere h then
    let a := { h with spire := { h.spire with holdAt := nowNs h } }
    raiseEvent (bump (wr (setSpire 6 a) 0x4500_07 (rd a 0x4500_06)) 0x4500_0E) 0x2B 0 0
  else h

def execHoldoverEntry (s : State) : Host.Outcome State Fault Refusal := onHub s holdoverEntry

/-- Time spent in HOLDOVER since reset in whole seconds, one in progress among it (0x4500:0F). -/
def holdoverTime (h : Hub) : Nat := (h.spire.holdSum + (if spireState h = 6 then nowNs h - h.spire.holdAt else 0)) / 1000000000

/-- HOLDOVER_LIMIT_EXPIRY (R386). -/
def execHoldoverLimitExpiry (s : State) : Host.Outcome State Fault Refusal :=
  onHub s fun h =>
    if spireState h = 6 then raiseFault 0x0D 0x14 ((nowNs h - h.spire.holdAt) / 1000000000) 0 h else h

/-- HOLDOVER_CALIBRATE (R387): the holdover counter's increment, in units of 2^-32 ns, while there is a Spire to measure the crystal. -/
def execHoldoverCalibrate (increment : Nat) (s : State) : Host.Outcome State Fault Refusal :=
  onHub s fun h => if h.spire.faulted ∨ mode h = 6 then h else { h with spire := { h.spire with holdInc := increment } }

/-- SPIRE_ISLAND_FAULT (R388): FLT_SPIRE_FAULT; the replicas count on from the holdover counter; PPS_OUT stops. -/
def spireIslandFault (h : Hub) : Hub :=
  raiseFault 0x0E 0x14 0 0
    (loadReplicas 0x15 h.spire.holdTime { h with spire := { h.spire with faulted := true, ppsOut := false } })

def execSpireIslandFault (s : State) : Host.Outcome State Fault Refusal := onHub s spireIslandFault

/-! ### PPS (R390 to R394) -/

/-- PPS_OUT may pulse: state and mode (R390, R55, Table 3 of Operating modes and start-up). -/
def ppsAllowed (h : Hub) : Bool :=
  (gate2 h || spireState h == 6) && !h.spire.faulted
    && (mode h == 2 || serving h || mode h == 7)

/-- PPS_OUT_EDGE. -/
def execPpsOutEdge (s : State) : Host.Outcome State Fault Refusal :=
  onHub s fun h => if ppsAllowed h then { h with spire := { h.spire with ppsOut := true } } else h

/-- PPS_OUT_WIDTH_END. -/
def execPpsOutWidthEnd (s : State) : Host.Outcome State Fault Refusal :=
  onHub s fun h => { h with spire := { h.spire with ppsOut := false } }

/-- Distance in ns of a stamp from the nearest whole second. -/
def secondError (ns : Nat) : Int :=
  let r := ns % 1000000000
  if r < 500000000 then (r : Int) else (r : Int) - 1000000000

/-- The hub loses PPS_IN (R393): class 2, φ frozen. -/
def ppsLost (h : Hub) : Hub :=
  if h.spire.cls ≠ 1 then h
  else
    let a := { h with spire := { h.spire with cls := 2, ppsGood := 0, ppsBad := 0 } }
    elect (raiseEvent (whenDo (masterHere h) (fun g => wr g 0x4500_07 (rd g 0x4500_06)) a) 0x2E 0 0)

/-- A class 1 master is disciplined by an edge `err` ns from its whole second (R392). -/
def discipline (err : Int) (h : Hub) : Hub :=
  let a := applyRate (err * 1000) h
  if beyondThreshold h (err * 1000) then (if spireState h = 5 then a else enterSlewing a) else setSpire 4 a

/-- A good edge (R391 to R393): four within 100 ns in a row lock a class 1 master, which is then disciplined; four inside the window
take a LOCKED hub that was class 1 back to it. On any other hub the stamp serves for monitoring. -/
def ppsGoodEdge (err : Int) (h : Hub) : Hub :=
  let good := if declaresLocked h ∨ err.natAbs ≤ 100 then h.spire.ppsGood + 1 else 0
  let a := { h with spire := { h.spire with ppsGood := good, ppsBad := 0 } }
  if h.spire.cls = 1 then
    if ¬ masterHere h then a
    else if declaresLocked h then discipline err a
    else if 4 ≤ good ∧ spireState h ≠ 7 then elect (enterLocked (whenDo (spireState h == 6) holdoverEnds a))
    else a
  else if h.spire.sourced ∧ declaresLocked h ∧ 4 ≤ good then elect { a with spire := { a.spire with cls := 1 } }
  else a

/-- An edge of the source (R393): once LOCKED, one outside the window is counted and ignored. -/
def ppsEdge (at0 : Nat) (h : Hub) : Hub :=
  let err := secondError at0
  if declaresLocked h ∧ ¬ (-1000000 ≤ err ∧ err < 1000000) then
    let b := bump { h with spire := { h.spire with ppsBad := h.spire.ppsBad + 1, ppsGood := 0 } } 0x4500_14
    if 3 ≤ b.spire.ppsBad then ppsLost b else b
  else ppsGoodEdge err h

/-- The edge that a written time of day names gives the step to it (R392). -/
def ppsNamed (at0 : Nat) (h : Hub) : Hub :=
  match h.spire.tod with
  | some t => { h with spire := { h.spire with tod := none, todStep := some (((t : Int) - at0 * 2 ^ 16) * 2 ^ 16) } }
  | none => h

/-- A time of day is stepped to in COMMISSION, and makes the hub class 1 (R392); one written after lock waits for the next COMMISSION
(R394), and the edges go on meanwhile. -/
def ppsSource (at0 : Nat) (h : Hub) : Hub :=
  match h.spire.todStep with
  | some d =>
    if mode h = 2 ∧ ¬ h.spire.todWaits then
      elect (takeStep d
        { h with spire := { h.spire with todStep := none, sourced := true, cls := 1, ppsGood := 0, ppsBad := 0 } })
    else ppsEdge at0 h
  | none => ppsEdge at0 h

/-- PPS_IN_EDGE (R391 to R394): stamped less the cable delay; a time master candidate or a bench hub takes it as its source. -/
def ppsInEdge (stamp : Nat) (h : Hub) : Hub :=
  if ¬ rdB h 0x2501_0C then h
  else
    let at0 := ((stamp : Int) - signed (rd h 0x2501_0D)).toNat
    let acc := at0 * 2 ^ 32
    let a := wrs h [(0x4500_12, timeSec acc), (0x4500_13, timeFrac acc)]
    if isCandidate h ∨ bench h then ppsSource at0 (ppsNamed at0 a) else a

def execPpsInEdge (stampNs : Nat) (s : State) : Host.Outcome State Fault Refusal := onHub s (ppsInEdge stampNs)

/-- PPS_IN_TIMEOUT (R393). -/
def execPpsInTimeout (s : State) : Host.Outcome State Fault Refusal := onHub s ppsLost

/-- A time of day was written to 0x2501:0E and 0x2501:0F (R392, R394). After lock it waits for the next COMMISSION, and is compared
with the Spire time of the next whole second, the edge it names (DEDUCED, assumption log 69). -/
def todWritten (h : Hub) : Hub :=
  let t := rd h 0x2501_0E * (1000000000 * 2 ^ 16) + rd h 0x2501_0F
  let ns := t / 2 ^ 16
  let edge := (nowNs h / 1000000000 + 1) * 1000000000
  let a := { h with spire := { h.spire with tod := some t, todStep := none, todWaits := declaresLocked h } }
  if declaresLocked h ∧ 1000000 ≤ (ns - edge) + (edge - ns) then raiseEvent a 0x2F 0 0 else a

/-! ### Received time frames (R177, R368, R389) -/

/-- A TIME of two words in ps. -/
def wordsPs (s n : Word) : Nat := (s.toNat * accPerSecond + n.toNat * 2 ^ 16) * 1000 / 2 ^ 32

/-- When the first bit of a frame's START passed the balls of the port at which its END has come: START, its data blocks and END take 1.28 ns
each (Worked example of Ring links and frames), and nothing interrupts a time frame (R142; DEDUCED, assumption log 69). -/
def startPs (p : Nat) (f : Frame) (h : Hub) : Nat := stampPs h (4 + p) - ((frameBytes f + 7) / 8 + 2) * 1280

/-- Spire uses a time frame that came at port p with a stamp in ps (Table 1 of Spire time); a SYNC must come on its ring from the upstream
peer (R373). -/
def timeFrameIn (p at0 : Nat) (f : Frame) (h : Hub) : Hub :=
  let w := fun (i : Nat) => f.payload.getD i 0
  let w0 := (w 0).toNat
  match f.specific / 256 with
  | 1 => announce f.src (bits w0 39 32) (bit w0 31) h
  | 2 =>
    if f.src = peerOf h p ∧ bits w0 15 8 = 1 - p then
      sync (1 - p) (bits w0 47 40) (bits w0 39 32) (bits w0 31 24) (bits w0 23 16) (wordsPs (w 1) (w 2)) (bits (w 3).toNat 47 16)
        (bits (w 4).toNat 47 16) at0 h
    else h
  | 3 => delayReq p f.src (bits w0 47 40) at0 h
  | 4 => delayResp p (bits w0 47 40) (bits w0 39 32) (wordsPs (w 1) (w 2)) (wordsPs (w 3) (w 4)) at0 false h
  | _ => h

/-- A received time frame crosses to Spire, which has Dome open it over the crossing that joins them; one that fails R611, or arrives with a
poisoned word, is discarded before Spire uses it (R25, R368). -/
def spireReceives (p : Nat) (f : Frame) (h : Hub) : Hub :=
  sendOver (4 + p) 0x14 (fun f a => sendOver 0x14 0x12 (fun f b =>
    match openFrame f b with
    | (some g, c) => sendOver 0x12 0x14 (fun g d => if g.poison = [] then timeFrameIn p (startPs p f h) g d else d) g c
    | (none, c) => c) f a) f h

/-- FRAME_RECEIVE (R145, R148, R177): a time frame for this hub goes on to Spire. -/
def execFrameReceive (port : Port) (frame : Frame) (hop : Nat) (check : FrameCheck) (s : State) :
    Host.Outcome State Fault Refusal :=
  onHub s fun h =>
    whenDo (timeFrameHere (portNum port) frame check h) (spireReceives (portNum port) frame)
      (frameReceive (portNum port) frame hop check h)

end Sys2Proof.Machine
end

