-- ==== Sys2Proof/Machine/Cyclic.lean ====
section
/-! DEFINITION. The cyclic exchange (R327 to R359, R783): the cycle grid, contributions and windows, routes of consumed
SIGNALs, captures, outputs, reflexes, overruns and the cycle watchdog. -/

namespace Sys2Proof.Machine

/-! ### Where consumed words come from (R338, R339) -/

/-- Consumption entries in use, by their number, in ascending order (R340). -/
def consumptions (h : Hub) : List Nat :=
  h.dict.filterMap fun e =>
    if 0x2410_00 ≤ e.1 ∧ e.1 < 0x2420_00 ∧ e.1 % 256 % 3 = 1 ∧ bits e.2.toNat 22 0 ≠ 0 then
      some ((e.1 / 256 - 0x2410) * 64 + e.1 % 256 / 3) else none

/-- The SIGNAL of a consumption entry. -/
def consumed (h : Hub) (j : Nat) : Nat := bits (rd h (consumeKey j)) 22 0

/-- Insert into a list kept in the order `le`. -/
def insertBy {α : Type} (le : α → α → Bool) (x : α) : List α → List α
  | [] => [x]
  | y :: ys => if le x y then x :: y :: ys else y :: insertBy le x ys

/-- This hub is the holder of a SIGNAL or REFLEX: BOUND here or moving away, a residence VALID or DRAINING, or one that has moved away
and goes on until its switch time (R319). -/
def actsHere (h : Hub) (hd : Nat) : Bool :=
  h.cyc.leaving.any (fun l => l.handle == hd) ||
    (if handleHome hd = hubNumber h then
      let e := mapEntry h (handleSlot hd)
      (e.state == 1 || e.state == 2) && e.holder == hubNumber h
    else (residence h hd).any fun r => decide (r.state ≤ 1))

/-- A held SIGNAL contributes, a held REFLEX is evaluated, in the cycle that starts now: not before, and not after, its T_s (R319). -/
def contributes (h : Hub) (hd : Nat) : Bool :=
  actsHere h hd
    && !h.cyc.switches.any fun x => x.1 == hd && (if x.2.2 then decide (h.cyc.start < x.2.1) else decide (x.2.1 ≤ h.cyc.start))

/-- The definition a SIGNAL or REFLEX acts by here. -/
def actingDef (h : Hub) (hd : Nat) : ObjDef :=
  match h.cyc.leaving.find? fun l => l.handle == hd with
  | some l => l.defn
  | none => heldDef h hd

/-- REFLEXes evaluated here: table entry and rule, in ascending rank and then handle order (R348). -/
def reflexOrder (h : Hub) : List (Nat × Nat × List Nat) :=
  let all := (h.forester.reflexes.filter fun e => contributes h e.2).map fun e => (e.1, e.2, (actingDef h e.2).rule)
  let rank := fun (e : Nat × Nat × List Nat) => bits (e.2.2.getD 2 0) 39 32
  all.foldr (insertBy fun a b => decide (rank a < rank b ∨ (rank a = rank b ∧ a.2.1 ≤ b.2.1))) []

/-- Input handles of a rule, 0 for an unused one. -/
def ruleInputs (r : List Nat) : List Nat := [bits (r.getD 0 0) 22 0, bits (r.getD 0 0) 45 23, bits (r.getD 1 0) 22 0]

/-- The SIGNALs whose words this hub takes. -/
def wantedSignals (h : Hub) : List Nat :=
  ((consumptions h).map (consumed h) ++ (h.forester.reflexes.flatMap fun e => ruleInputs (actingDef h e.2).rule)).filter (· != 0)

/-- Holder and slot of a consumed SIGNAL, where known: its route; without one, the map entry of a SIGNAL homed here, the residence of one
held here. -/
def routeOf (h : Hub) (hd : Nat) : Option (Nat × Nat) :=
  match tabFind h.cyc.routes hd with
  | some r => some (r.holder, r.slot)
  | none =>
    if handleHome hd = hubNumber h then some ((mapEntry h (handleSlot hd)).holder, (mapEntry h (handleSlot hd)).base)
    else (residence h hd).map fun r => (hubNumber h, r.base)

/-- Resolve a SIGNAL whose route is unknown: the spec gives no way a consumer learns its slot, so holder and slot are free
values (assumption log 31). -/
def resolveRoute (hd : Nat) (h : Hub) : Hub :=
  if (routeOf h hd).isSome then h
  else
    let f := takeFree h
    let r : Route := { holder := f.1.toNat % 256, slot := f.1.toNat / 256 % 1024, next := none, old := none }
    { f.2 with cyc := { f.2.cyc with routes := tabSet f.2.cyc.routes hd r } }

/-- Every route this hub needs for image k - 1, and the rebinds due for the window that refreshed it (R339); the map tells the route of a
SIGNAL homed here once no rebind waits. -/
def resolveRoutes (k : Nat) (h : Hub) : Hub :=
  let due := fun (r : Route) => match r.next with
    | some (n, s, c) => if (k + (2 ^ 30 - 1) - c % 2 ^ 30) % 2 ^ 30 < 2 ^ 29 then { holder := n, slot := s, next := none, old := some (r.holder, r.slot) } else r
    | none => r
  let rs := (h.cyc.routes.map fun e => (e.1, due e.2)).filter fun e => handleHome e.1 != hubNumber h || e.2.next.isSome
  forEach (wantedSignals h) resolveRoute { h with cyc := { h.cyc with routes := rs } }

/-- REBIND_NOTICE (R338, R339): a consumer changes over at the announced cycle; a cancelled rebind goes back at the next
window. -/
def rebindReceived (code handle holder slot cycle : Nat) (h : Hub) : Hub :=
  if (wantedSignals h).contains handle && handleHome handle != hubNumber h then
    let a := resolveRoute handle h
    let here := (routeOf a handle).getD (0, 0)
    let r := (tabFind a.cyc.routes handle).getD { holder := here.1, slot := here.2, next := none, old := none }
    { a with cyc := { a.cyc with routes := tabSet a.cyc.routes handle (rerouted code holder slot cycle h.cyc.number r) } }
  else h

/-! ### Words and ages (R340) -/

/-- Key of a contributed word: hub and slot. -/
def wordKey (hub slot : Nat) : Nat := hub * 1024 + slot

/-- A consumed word and its age in image k - 1. A word no window refreshed has age 255 and reads 0 (assumption log 28). -/
def imageWord (h : Hub) (hd : Nat) : Word × Nat :=
  match routeOf h hd with
  | none => (0, 255)
  | some (hub, slot) =>
    match h.cyc.image.find? fun e => e.1 == wordKey hub slot with
    | some (_, w, k) => (w, min 255 (h.cyc.number - 1 - k))
    | none => (0, 255)

/-! ### Windows (R331, R336, R337) -/

/-- Put words of a contribution frame into the open window. -/
def acceptWords (src first : Nat) (ws : List Word) (h : Hub) : Hub :=
  let put := fun (t : Tab Word) (p : Word × Nat) => if first + p.2 < 1024 then tabSet t (wordKey src (first + p.2)) p.1 else t
  { h with cyc := { h.cyc with
      opened := ws.zipIdx.foldl put h.cyc.opened
      accepted := h.cyc.accepted + ws.length
      heard := h.cyc.heard || src != hubNumber h } }

/-- e of the present cycle lies within the phase limit (R354). -/
def phaseOk (h : Hub) (e : Nat) : Bool := decide (e * 100 ≤ h.cyc.period * rd h 0x2401_04)

/-- The phase error of the present cycle. -/
def phaseError (h : Hub) : Nat := h.cyc.start - h.cyc.number * h.cyc.period

/-- The cause of FLT_CYC_WATCHDOG ends (Table 3 of Watchtower faults and events). -/
def watchdogCause (heard : Bool) (h : Hub) : Hub :=
  match h.watch.records.find? fun e => e.1 == 0x0C with
  | some (_, r) => if r.cause && phaseOk h (phaseError h) && (r.detailA != 2 || heard) then causeGone 0x0C h else h
  | none => h

/-- Declared words per cycle D, or this hub's own contribution size times the hubs present (R329). -/
def contributionSize (h : Hub) : Nat := (h.forester.slots.map fun e => e.1 + 1).foldl max 0

def ringLoadWords (h : Hub) : Nat :=
  if rd h 0x2401_03 ≠ 0 then rd h 0x2401_03 else contributionSize h * ((othersPresent h).length + 1)

/-- The words a closed window accepted, their load in Mbit/s, and EV_CYC_LOAD_HIGH for each of its two causes (R330). -/
def loadMeasured (n : Nat) (h : Hub) : Hub :=
  let p := max 1 h.cyc.period
  let a := wrs h [(0x4400_0C, n), (0x4400_0D, n * 48000 / p)]
  let b := whenDo (mode a == 3 && decide (20 * p < n * 48)) (fun g => cycEvent g 0x26 0 0 0) a
  whenDo (mode a == 3 && rd a 0x2401_03 != 0 && decide (rd a 0x2401_03 < n)) (fun g => cycEvent g 0x26 0 0 1) b

/-- The frames of closed window k, and those of another tag: EV_CYC_TAG_MISMATCH for more than half (R328). -/
def tagsMeasured (k frames wrong : Nat) (h : Hub) : Hub :=
  whenDo (decide (frames < 2 * wrong)) (fun g => cycEvent g 0x24 0 0 0) { h with cyc := { h.cyc with closed := (k, frames, wrong) } }

/-- What the closed window measured (R328, R330). -/
def windowMeasures (h : Hub) : Hub :=
  tagsMeasured h.cyc.number h.cyc.frames h.cyc.wrongTag (loadMeasured h.cyc.accepted h)

/-- A frame whose tag is that of the window its stamp lies in, and that window has closed: its image takes the words (R337). -/
def acceptClosed (src first : Nat) (ws : List Word) (h : Hub) : Hub :=
  let put := fun (t : Tab (Word × Nat)) (p : Word × Nat) =>
    if first + p.2 < 1024 then tabSet t (wordKey src (first + p.2)) (p.1, h.cyc.closed.1) else t
  loadMeasured (rd h 0x4400_0C + ws.length)
    { h with cyc := { h.cyc with image := ws.zipIdx.foldl put h.cyc.image, missed := if src = hubNumber h then h.cyc.missed else 0 } }

/-- A contribution frame stamped in the open window, k (R337): accepted into it, held for the next, or late. -/
def contributionOpen (src tag first : Nat) (ws : List Word) (h : Hub) : Hub :=
  let k := h.cyc.number
  let a := { h with cyc := { h.cyc with frames := h.cyc.frames + 1, wrongTag := h.cyc.wrongTag + b2n (tag % 256 != k % 256) } }
  if tag % 256 = k % 256 then watchdogCause true (acceptWords src first ws a)
  else if tag % 256 = (k + 1) % 256 then
    bump { a with cyc := { a.cyc with early := a.cyc.early ++ [{ src, tag := tag % 256, first, words := ws }] } } 0x4400_07
  else bump a 0x4400_06

/-- A contribution frame stamped in the window before, whose end came after that window closed (R337): a frame held for the next window
is accepted at once where that one is open. -/
def contributionClosed (src tag first : Nat) (ws : List Word) (h : Hub) : Hub :=
  let x := h.cyc.closed
  let a := tagsMeasured x.1 (x.2.1 + 1) (x.2.2 + b2n (tag % 256 != x.1 % 256)) h
  if tag % 256 = x.1 % 256 then watchdogCause true (acceptClosed src first ws a)
  else if tag % 256 = (x.1 + 1) % 256 then
    if x.1 + 1 = h.cyc.number then watchdogCause true (acceptWords src first ws (bump a 0x4400_07)) else bump a 0x4400_07
  else bump a 0x4400_06

/-- CONTRIBUTION_RECEIVE (R337): the window is that of the receive island's stamp of START; one stamped before the window before is late. -/
def contributionReceive (src tag index stamp : Nat) (ws : List Word) (h : Hub) : Hub :=
  if !h.cyc.running then h
  else if h.cyc.start ≤ stamp then contributionOpen src tag (256 * index) ws h
  else if h.cyc.prior ≤ stamp then contributionClosed src tag (256 * index) ws h
  else bump h 0x4400_06

/-- Step 1: window k - 1 closes, the banks swap, and window k opens with the frames held for it. -/
def closeWindow (k : Nat) (h : Hub) : Hub :=
  let merged := h.cyc.opened.foldl (fun t e => tabSet t e.1 (e.2, h.cyc.number)) h.cyc.image
  let a := windowMeasures { h with cyc := { h.cyc with image := merged } }
  let mine := a.cyc.early.filter fun f => f.tag == k % 256
  let b := { a with cyc := { a.cyc with
    opened := [], accepted := 0, frames := 0, wrongTag := 0, heard := false, written := [],
    missed := if a.cyc.heard then 0 else a.cyc.missed + 1, early := [], number := k } }
  watchdogCause h.cyc.heard (forEach mine (fun f g => acceptWords f.src f.first f.words g) b)

/-! ### Capture and contribution (R334 to R336, R343, R783, R527) -/

/-- The latest code of an analogue input stamped before S_k, or 0 (R331, R783). -/
def ainLatest (h : Hub) (i : Nat) : Nat :=
  match (h.adc.samples.filter fun x => x.1 < h.cyc.start).getLast? with
  | some x => x.2.getD i 0
  | none => 0

/-- The mean of an analogue input over the window that ends at S_k, halves rounded up; the latest code where no sample fell in it. -/
def ainMean (h : Hub) (i : Nat) : Nat :=
  let codes := (h.adc.samples.filter fun x => decide (h.cyc.prior ≤ x.1) && decide (x.1 < h.cyc.start)).map fun x => x.2.getD i 0
  if codes = [] then ainLatest h i else (2 * codes.sum + codes.length) / (2 * codes.length)

/-- The samples that the window opening at S_k may need: the latest before it, and those since. -/
def dropSamples (h : Hub) : Hub :=
  let before := h.adc.samples.filter fun x => x.1 < h.cyc.start
  { h with adc := { h.adc with samples := before.getLast?.toList ++ h.adc.samples.filter fun x => h.cyc.start ≤ x.1 } }

/-- Word of a fuse channel (Table 5). -/
def fuseWord (h : Hub) (n sel : Nat) : Nat :=
  match sel with
  | 0 => rd h (fuseKey n 4)
  | 1 => rd h (fuseKey n 5)
  | 2 => rd h (fuseKey n 7)
  | 3 => rd h (fuseKey n 8)
  | 4 => fuseState h n
  | _ => (fuse h n).peak

/-- Payload bytes 6w to 6w + 5 of the frame a T1S cyclic filter holds; beyond the payload 0 (R558). -/
def t1sWord (h : Hub) (p k w : Nat) : Word :=
  match (t1s h p).held.find? fun e => e.1 == k with
  | some (_, bs, _) => BitVec.ofNat 48 (bytesNat ((bs.drop (6 * w)).take 6))
  | none => 0

/-- The engine a PROGRAM is bound to here. -/
def programEngine (h : Hub) (program : Nat) : Option Nat := (List.range 64).find? fun n => rd h (engKey n 0x12) == program

/-- The word a device source gives at S_k; none where the source sleeps and keeps its last word (R527) or is not here. -/
def captureWord (h : Hub) (d : ObjDef) : Option Word :=
  let e := d.source
  match endKind e with
  | 1 =>
    match programEngine h (bits e 22 0) with
    | some n => if domainState h (grove n) = 3 then some (engine h n).ior else none
    | none => none
  | 2 => some (rdW h (bufKey (bits e 3 0) (bits d.selector 5 0) (3 + bits d.selector 9 6)))
  | 3 => some (t1sWord h (bits e 1 0) (bits d.selector 9 8) (bits d.selector 7 0))
  | 4 => some (BitVec.ofNat 48 (if d.selector = 0 then ainLatest h (bits e 2 0) else ainMean h (bits e 2 0)))
  | 5 => some (BitVec.ofNat 48 (fuseWord h (bits e 3 0) d.selector))
  | _ => none

/-- The island of a device source: the Grove of a PROGRAM's engine, else the bus aggregate (R14). -/
def sourceIsland (h : Hub) (d : ObjDef) : Nat :=
  if endKind d.source = 1 then 8 + grove ((programEngine h (bits d.source 22 0)).getD 0) else 0x10

/-- A device-sourced SIGNAL takes its source's word, over the crossing from the source's island (R19); without one it keeps its last. -/
def captureSlot (slot : Nat) (d : ObjDef) (h : Hub) : Hub :=
  match captureWord h d with
  | some w => valueOver (sourceIsland h d) 0 (setSignal slot) w h
  | none => h

/-- Step 2: capture every device-sourced SIGNAL held here, put this hub's own words into its own image, and open new
means and peaks. -/
def captureAll (h : Hub) : Hub :=
  let a := forEach h.forester.slots (fun e g => captureSlot e.1 (heldDef g e.2) g) h
  let mine := (a.forester.slots.filter fun e => contributes a e.2).map fun e => (e.1, signalValue a e.1)
  let b := { a with cyc := { a.cyc with opened := mine.foldl (fun (t : Tab Word) (e : Nat × Word) => tabSet t (wordKey (hubNumber a) e.1) e.2) a.cyc.opened } }
  forEach (List.range 16) (fun n g => setFuse g n { fuse g n with lastPeak := (fuse g n).peak, peak := 0 })
    (dropSamples b)

/-- Step 3: contribution k in frames of 256 words (R334, R335). -/
def sendContribution (h : Hub) : Hub :=
  let n := contributionSize h
  let frames := (n + 255) / 256
  let word := fun (s : Nat) => if (h.forester.slots.any fun e => e.1 == s && contributes h e.2) then signalValue h s else 0
  let a := wr h 0x4400_0B n
  if hubNumber h = 0 ∨ bench h = true then a
  else forEach (List.range frames) (fun f g =>
    originate g 7 0 .cy 255 (h.cyc.number % 256 * 2 ^ 8 + f * 2 ^ 6 + (frames - 1) * 2 ^ 4) 0
      ((List.range (min 256 (n - 256 * f))).map fun j => word (256 * f + j))) a

/-! ### Reflexes (R344 to R349) -/

/-- Result of a rule on its inputs (Table 7): A, B, C with `none` for an unused one, the previous result. -/
def reflexResult (r : List Nat) (a b c : Option Word) (prev : Word) : Word :=
  let ctl := r.getD 2 0
  let op := bits ctl 47 44
  let m := BitVec.ofNat 48 (r.getD 3 0)
  let k := BitVec.ofNat 48 (r.getD 4 0)
  let v := BitVec.ofNat 48 (r.getD 5 0)
  let unused : Word := if op = 1 ∨ op = 11 then BitVec.allOnes 48 else 0
  let a' := (a.getD unused >>> bits ctl 21 16) &&& m
  let b' := b.getD unused
  let c' := c.getD unused
  match op with
  | 0 => a'
  | 1 => a' &&& b' &&& c'
  | 2 => a' ||| b' ||| c'
  | 3 => a' ^^^ b'
  | 4 =>
    let hit := match bits ctl 43 41 with
      | 0 => decide (a' = k)
      | 1 => decide (a' ≠ k)
      | 2 => decide (a'.toNat < k.toNat)
      | 3 => decide (k.toNat ≤ a'.toNat)
      | 4 => decide (a'.toInt < k.toInt)
      | _ => decide (k.toInt ≤ a'.toInt)
    bWord hit
  | 5 => bWord (decide (b'.toNat ≤ a'.toNat ∧ a'.toNat < c'.toNat))
  | 6 => if a' ≠ 0 then b' else c'
  | 7 => a' + b' + k
  | 8 => a' - b'
  | 9 => if a'.toNat ≤ b'.toNat then a' else b'
  | 10 => if a'.toNat ≤ b'.toNat then b' else a'
  | 11 => if (b' &&& k) = k ∧ c' = 0 then a' else v
  | _ => (prev &&& ~~~b') ||| a'

/-- The Canopy WRITE of a reflex's result (R347): class UR (assumption log 32). -/
def reflexRequest (out tag : Nat) (w : Word) (own : Nat) : CReq :=
  { port := 7, tag, cls := .ur, op := .write, addr := 2 ^ 47 + out * 2 ^ 24, count := 1, be0 := 63, be1 := 63, data := [w],
    src := own, gen := 0, order := 0, home := false, fill := false }

/-- The unit's own WRITE has failed (R277, R347). -/
def reflexFailed (hd status : Nat) (r : CReq) (h : Hub) : Hub :=
  whenDo (status == 4) (reflexRefused hd) (writeFailed r status h)

/-- Write a result to its output SIGNAL: here in Canopy memory, with the checks and statuses of Canopy addressing (R260, R277), else as a
request from port 7 (R347, R349). -/
def reflexWrite (hd out : Nat) (w : Word) (h : Hub) : Hub :=
  let r := reflexRequest out 0 w (hubNumber h)
  match entryError h out, holding h out with
  | some e, _ => reflexFailed hd 0xD r (raiseInjected 0x0B 0x00 e.1 e.2 h)
  | none, some (kind, base, len, _) =>
    let d := performObject true kind base len (heldDef h out) r h
    if d.1.status = 0 then noteReflexWrite base d.2 else reflexFailed hd d.1.status r d.2
  | none, none =>
    let t := h.canopy.nextTag % 256
    let a := { h with canopy := { h.canopy with nextTag := t + 1, reflexTags := tabSet h.canopy.reflexTags t hd } }
    putItem 7 (.req (reflexRequest out t w (hubNumber h))) a

/-- Evaluate one reflex on image k - 1 (R345 to R347). -/
def evalReflex (e : Nat × Nat × List Nat) (h : Hub) : Hub :=
  let r := e.2.2
  let ctl := r.getD 2 0
  let ins := (ruleInputs r).map fun hd => if hd = 0 then none else some (imageWord h hd)
  let stale := ins.any fun i => match i with
    | some (_, age) => decide (bits ctl 31 24 < age)
    | none => false
  let prev := tabGet 0 h.cyc.results e.1
  let val := fun (k : Nat) => ((ins.getD k none).map (·.1))
  let res := if stale && bits ctl 23 22 == 1 then BitVec.ofNat 48 (r.getD 5 0) else reflexResult r (val 0) (val 1) (val 2) prev
  let a := whenDo stale (fun g => bump g 0x4400_09) h
  if stale && bits ctl 23 22 == 2 then a
  else
    let b := { a with cyc := { a.cyc with results := tabSet a.cyc.results e.1 res } }
    let out := bits (r.getD 1 0) 45 23
    if out = 0 then b else reflexWrite e.2.1 out res b

/-- Step 4: every reflex held here, in order; each takes 10 ns (R348). -/
def evalReflexes (h : Hub) : Hub :=
  let order := reflexOrder h
  peak (forEach order evalReflex h) 0x4400_0E (10 * order.length)

/-! ### The start of a cycle (R331, R350, R351) -/

/-- Round up to a whole 4 ns tick. -/
def tickUp (x : Nat) : Nat := (x + 3) / 4 * 4

/-- The period of a cycle that starts with phase error e (R351); while F exceeds P no cycle can be shortened, and the hub keeps running at
P (R330). -/
def cyclePeriod (h : Hub) (e : Nat) : Nat :=
  let p := h.cyc.period
  if e = 0 then p else min p (tickUp (max (max (p - e) ((3 * p + 3) / 4)) (floorNs h)))

/-- Count windows in which a consumed word stayed stale; after 16 its route is resolved again (R339). -/
def staleRoutes (h : Hub) : Hub :=
  forEach (wantedSignals h).eraseDups (fun hd g =>
    if (imageWord g hd).2 = 0 then { g with cyc := { g.cyc with stale := tabErase g.cyc.stale hd } }
    else
      let n := tabGet 0 g.cyc.stale hd + 1
      if n < 16 then { g with cyc := { g.cyc with stale := tabSet g.cyc.stale hd n } }
      else { g with cyc := { g.cyc with stale := tabErase g.cyc.stale hd, routes := tabErase g.cyc.routes hd } }) h

/-- Cycle k starts at `start`, after a cycle with phase error `was` (Table 1, R332, R351): SERVICE runs steps 1 to 3 only. -/
def startCycle (was k start : Nat) (h : Hub) : Hub :=
  let e := start - k * h.cyc.period
  let a := closeWindow k (resolveRoutes k h)
  let b := abortLate (leaveDue { a with cyc := { a.cyc with start, prior := a.cyc.start, since := a.cyc.since + 1, cycles := a.cyc.cycles + 1, complete := false, applied := false } })
  let c := { b with cyc := { b.cyc with length := cyclePeriod b e } }
  let d := wrs c [(0x4400_01, k % 2 ^ 32), (0x4400_02, e), (0x4400_03, floorNs c)]
  let f := whenDo (e != 0 && decide (d.cyc.length < d.cyc.period)) (fun g => bump g 0x4400_05) d
  let g := whenDo (e == 0 && was != 0) (fun x => cycEvent x 0x21 0 0 0) f
  let i := sendContribution (captureAll (watchdogCause false (staleRoutes g)))
  if serving i then evalReflexes i else i

/-- The next cycle of a running exchange, at a given start. -/
def nextCycle (start : Nat) (h : Hub) : Hub := startCycle (phaseError h) (h.cyc.number + 1) start h

/-- The first cycle, after RUN entry or after a release, starts on the grid with e = 0 (R69, R356); `was` is the phase error it ends. -/
def firstCycle (was : Nat) (h : Hub) : Hub :=
  let k := nowNs h / max 1 h.cyc.period
  let a := startCycle was k (k * h.cyc.period) { h with cyc := { h.cyc with since := 0 } }
  { a with cyc := { a.cyc with missed := 0 } }

/-- The exchange begins at RUN entry: nothing is left of an earlier one, and no window comes before its first (R69). -/
def beginCycles (h : Hub) : Hub :=
  firstCycle 0 { h with cyc := { h.cyc with
    running := true, period := periodNs h, start := nowNs h / max 1 (periodNs h) * periodNs h, opened := [], early := [], frames := 0,
    wrongTag := 0, accepted := 0, heard := false, image := [], stale := [], written := [] } }

/-- A reaction has been released, and the grid start that begins the next cycle has not come yet (R356). -/
def awaitsGrid (h : Hub) : Bool := h.cyc.since == 0 && !outputsSafe h

/-- CYCLE_START (R331): the next scheduled start, once the work of the cycle before is complete. -/
def cycleStart (h : Hub) : Hub :=
  if !h.cyc.running then h
  else if awaitsGrid h then
    if h.cyc.number < nowNs h / max 1 h.cyc.period then firstCycle (phaseError h) h else h
  else if h.cyc.complete && decide (h.cyc.start + h.cyc.length ≤ nowNs h) then nextCycle (h.cyc.start + h.cyc.length) h
  else h

def execCycleStart (s : State) : Host.Outcome State Fault Refusal := onHub s cycleStart

/-- The work of a cycle completes at or after the scheduled start of the next (R350): an overrun, and the next cycle starts now, or on the
next grid start where a reaction has been released meanwhile (R356). -/
def overrun (h : Hub) : Hub :=
  let a := cycEvent (bump h 0x4400_04) 0x20 0 0 0
  if awaitsGrid h then a else nextCycle (nowNs h) a

/-- CYCLE_WORK_COMPLETE (R333, R350): steps 3 to 5 are done. -/
def execCycleWorkComplete (s : State) : Host.Outcome State Fault Refusal :=
  onHub s fun h =>
    if !h.cyc.running || h.cyc.complete || !(h.cyc.applied || !serving h) then h
    else
      let a := { h with cyc := { h.cyc with complete := true } }
      if h.cyc.start + h.cyc.length ≤ nowNs h then overrun a else a

/-! ### Outputs (R333, R341, R342, R352) -/

/-- An image word is with its Grove (R420): a sleeping one drops it, and one that is not ON keeps it for the next O_k (R671, Table 4 of
Network sleep, Clearing and wake). -/
def iirArrives (n : Nat) (w : Word) (h : Hub) : Hub :=
  if h.sleep.asleep.contains (32 + grove n) then h
  else if domainState h (grove n) = 3 then setEngine h n { engine h n with iir := w, n := true, iirNext := none }
  else setEngine h n { engine h n with iirNext := some w }

/-- A word for an engine's image input register (R420) crosses to its Grove (R19); while that crossing is closed, the transfer is refused and
counted at the exchange, where the word then waits (R27, R671). -/
def iirOutput (program : Nat) (w : Word) (h : Hub) : Hub :=
  match programEngine h program with
  | none => h
  | some n =>
    if crossingClosed h 0 (8 + grove n) then iirArrives n w (crossWord 0 (8 + grove n) (plainWord w) h).2
    else valueOver 0 (8 + grove n) (iirArrives n) w h

/-- IIR words kept for a Grove that has come on since (R671). -/
def iirPending (h : Hub) : Hub :=
  forEach (List.range 64) (fun n g =>
    match (engine g n).iirNext with
    | some w => if domainState g (grove n) = 3 then setEngine g n { engine g n with iir := w, n := true, iirNext := none } else g
    | none => g) h

/-- Apply one consumption entry (Table 4). -/
def applyOutput (j : Nat) (h : Hub) : Hub :=
  let t := rd h (consumeKey j + 1)
  let kind := bits t 47 44
  if kind = 0 then h
  else
    let x := imageWord h (consumed h j)
    let stale := decide (bits t 43 36 < x.2)
    let v := if stale then rdW h (consumeKey j + 2) else x.1
    let a := whenDo stale (fun g =>
      cycEvent (bump g 0x4400_0A) 0x22 (if kind = 2 ∨ kind = 3 then bits t 3 0 else 0) 0 j) h
    match kind with
    | 1 => iirOutput (bits t 22 0) v a
    | 2 => valueOver 0 0x10 (bufOutput (bits t 3 0) (bits t 9 4)) v a
    | 3 => valueOver 0 0x10 (fun w g => fuseEval (bits t 3 0) (setRequest (bits t 3 0) (w.getLsbD 0) g)) v a
    | _ => a

/-- The instant O_k (R333). -/
def outputTime (h : Hub) : Nat := max (h.cyc.number * h.cyc.period + rd h 0x2401_02 * 1000) (h.cyc.start + 2000)

/-- SAFE_N at the first output instant, and the release of a reaction (R52, R69, R706, R640). -/
def releaseOutputs (h : Hub) : Hub :=
  let a := if safeHeldLow h then h else wr h 0x4E00_03 1
  let b := if a.watch.releasing then raiseEvent { a with watch := { a.watch with releasing := false } } 0xAB 0 0 else a
  syncPads (forEach (List.range 16) (fun n g => fuseEval n (setFuse g n { fuse g n with waiting := false })) b)

/-- OUTPUT_INSTANT (R331 step 5): outputs from image k - 1, from the second cycle on and while no reaction holds them. -/
def outputInstant (h : Hub) : Hub :=
  if !h.cyc.running || h.cyc.applied || !serving h || decide (nowNs h < outputTime h) then h
  else
    let a := { h with cyc := { h.cyc with applied := true } }
    let b := whenDo (decide (a.cyc.number * a.cyc.period + rd a 0x2401_02 * 1000 < outputTime a)) (fun g => bump g 0x4400_08) a
    if b.cyc.since < 2 ∨ outputsSafe b = true then b
    else releaseOutputs (forEach (consumptions b) applyOutput (iirPending b))

def execOutputInstant (s : State) : Host.Outcome State Fault Refusal := onHub s outputInstant

/-- CONTRIBUTION_RECEIVE (R337), after the start of a cycle that has come due. -/
def execContributionReceive (src tag index : Nat) (head : ContributionHead) (words : List Word) (s : State) :
    Host.Outcome State Fault Refusal :=
  onHub s fun h => contributionReceive src tag index (stampNs h (4 + portNum head.port) - head.age) words (cycleStart h)

/-- REBIND_NOTICE (R338). -/
def execRebindNotice (code handle holder slot cycle : Nat) (s : State) : Host.Outcome State Fault Refusal :=
  onHub s (rebindReceived code handle holder slot cycle)

/-- CYCLE_WATCHDOG_EXPIRY (R354, R355): the phase limit, or windows without a contribution; an isolated bench hub checks the
phase only. -/
def execCycleWatchdogExpiry (contributions : Bool) (s : State) : Host.Outcome State Fault Refusal :=
  onHub s fun h =>
    if !h.cyc.running || !serving h then h
    else if contributions then
      if !bench h && othersLately h && decide (rd h 0x2401_05 ≤ h.cyc.missed) then raiseFault 0x0C 0x00 2 (phaseError h) h else h
    else if phaseOk h (phaseError h) then h
    else raiseFault 0x0C 0x00 1 (phaseError h) h

end Sys2Proof.Machine
end

