-- ==== Sys2Proof/Machine/Can.lean ====
section
/-! DEFINITION. CAN controllers (R470 to R511): bit timing and settings, transmission, reception and filters, error
confinement, heartbeat and node ID, frames of the SDO server, process objects of the CiA 417 mapping. -/

namespace Sys2Proof.Machine

/-! ### Settings (R473, R474, R477) -/

/-- The bit rate of a phase: clock divisor of 160 MHz, 0 where a field breaks Table 2. -/
def nominalDiv (v : Nat) : Nat :=
  let t1 := bits v 16 9 + 1
  let t2 := bits v 23 17 + 1
  let n := (bits v 8 0 + 1) * (1 + t1 + t2)
  if 2 ≤ t1 ∧ 2 ≤ t2 ∧ bits v 30 24 + 1 ≤ t2 ∧ 160 ≤ n ∧ bits v 47 31 = 0 then n else 0

def dataDiv (v : Nat) : Nat :=
  let t1 := bits v 10 5 + 1
  let t2 := bits v 15 11 + 1
  let n := (bits v 4 0 + 1) * (1 + t1 + t2)
  if bits v 20 16 + 1 ≤ t2 ∧ 20 ≤ n ∧ bits v 47 21 = 0 then n else 0

/-- A timing write that breaks Table 2 or the rate relation with the other phase's present setting (R474). -/
def timingBad (h : Hub) (c sub v : Nat) : Bool :=
  if sub = 3 then nominalDiv v == 0 || decide (nominalDiv v < dataDiv (rd h (canCfg c 4)))
  else if sub = 4 then dataDiv v == 0 || decide (nominalDiv (rd h (canCfg c 3)) < dataDiv v)
  else false

/-- An attempt ends without success (R481, R484, R489): staged data replaces the frame's content, an abort takes effect, a
STREAM packet is rewound. -/
def attemptFails (c : Nat) (h : Hub) : Hub :=
  let x := can h c
  match x.onBus with
  | none => h
  | some src =>
    let a := setCan h c { x with onBus := none, staged := none, aborted := false }
    match src with
    | .buffer b =>
      let p := writeFields (x.staged.getD []) (whenDo x.staged.isSome (fun g => bump g (canStat c 0x0B)) a)
      if x.aborted then setCan p c { can p c with pending := (can p c).pending.filter (· != b) } else p
    | .stream => match fifoTo a 2 c with
      | some f => fifoRewind f a
      | none => a
    | _ => a

/-- The attempt ended by an error: last error code, error frame, TEC + 8; an error passive transmitter whose frame nobody
acknowledged may leave TEC as it is (ISO 11898-1: it does where it sees no dominant bit during its flag, a free bit). -/
def attemptError (c code : Nat) (h : Hub) : Hub :=
  let a := bump (wr (attemptFails c h) (canStat c 7) code) (canStat c 8)
  let f := takeFree a
  let quiet := code == 3 && rd a (canStat c 1) == 3 && f.1.getLsbD 0
  if code = 3 ∧ rd a (canStat c 1) = 3 then (if quiet then f.2 else canCount c (· + 8) id f.2) else canCount c (· + 8) id a

/-- A frame in progress is ended by the error handling of ISO 11898-1 (R477); which error the hub notes for it is a free value. -/
def endByError (c : Nat) (h : Hub) : Hub :=
  let f := takeFree h
  if (can h c).onBus.isNone then h else attemptError c (1 + f.1.toNat % 6) f.2

/-- Enter bus integration (R477); bus-off stays what it is. -/
def integrate (c : Nat) (h : Hub) : Hub :=
  let a := attemptFails c h
  if rd a (canStat c 1) = 4 ∨ rd a (canStat c 1) = 5 then a else wr a (canStat c 1) 1

/-- A write to a controller's settings (R477). -/
def canSettings (c sub v : Nat) (h : Hub) : Hub := integrate c (storeEntry (0x2810 + c) sub v (endByError c h))

/-- CAN_SETTINGS_WRITE (R474, R477): subindices 0x01 to 0x08. -/
def execCanSettingsWrite (p : Path) (c : Fin 16) (sub value : Nat) (s : State) : Host.Outcome State Fault Refusal :=
  onHub s (pathWrite p (0x2810 + c.val) sub value
    (fun h x => { x with
      value := x.value || entryBad (0x2810 + c.val) sub value || timingBad h c sub value
      noSub := x.noSub || decide (8 < sub) }) (canSettings c sub value))

/-- TRANSMIT_REQUEST (R481). -/
def execTransmitRequest (p : Path) (c : Fin 16) (buf : Nat) (s : State) : Host.Outcome State Fault Refusal :=
  onHub s (pathWrite p (0x2810 + c.val) 9 buf (fun _ x => { x with value := x.value || decide (63 < buf) }) (bufRequest c buf []))

/-- Abort a request (R484): at once, or when the attempt on the bus fails. -/
def bufAbort (c b : Nat) (h : Hub) : Hub :=
  let x := can h c
  if x.onBus = some (.buffer b) then setCan h c { x with aborted := true }
  else setCan h c { x with pending := x.pending.filter (· != b) }

/-- TRANSMIT_ABORT (R484). -/
def execTransmitAbort (p : Path) (c : Fin 16) (buf : Nat) (s : State) : Host.Outcome State Fault Refusal :=
  onHub s (pathWrite p (0x2810 + c.val) 10 buf (fun _ x => { x with value := x.value || decide (63 < buf) }) (bufAbort c buf))

/-- Controller command 0x02: the entry record is cleared; 0x01 in BUS-OFF LATCHED starts recovery too (R493). -/
def clearBusOff (c : Nat) (restart : Bool) (h : Hub) : Hub :=
  let a := setCan h c { can h c with entries := [] }
  if restart then wr a (canStat c 1) 4 else a

/-- BUS_OFF_RESTART (R493): refused with 0x04 in any other state. -/
def execBusOffRestart (p : Path) (c : Fin 16) (s : State) : Host.Outcome State Fault Refusal :=
  onHub s (pathWrite p (0x2810 + c.val) 11 1 (fun h x => { x with value := x.value || canState h c != 5 }) (clearBusOff c true))

/-- CLEAR_BUS_OFF_RECORD (R493). -/
def execClearBusOffRecord (p : Path) (c : Fin 16) (s : State) : Host.Outcome State Fault Refusal :=
  onHub s (pathWrite p (0x2810 + c.val) 11 2 (fun _ x => x) (clearBusOff c false))

/-! ### Frames to send (R483, R488, R500 to R503) -/

/-- Data length of a DLC (ISO 11898-1). -/
def dlcLength (fdf : Bool) (dlc : Nat) : Nat :=
  if dlc ≤ 8 then dlc else if !fdf then 8
  else match dlc with
    | 9 => 12 | 10 => 16 | 11 => 20 | 12 => 24 | 13 => 32 | 14 => 48 | _ => 64

/-- FD is enabled, and BRS allowed (0x2810+c:02). -/
def fdEnabled (h : Hub) (c : Nat) : Bool := bit (rd h (canCfg c 2)) 0
def brsAllowed (h : Hub) (c : Nat) : Bool := bit (rd h (canCfg c 2)) 1

/-- The frame of a transmit buffer (R481, Table 9). A buffer with BRS sends without it while BRS is not allowed
(assumption log 33). -/
def bufFrame (h : Hub) (c b : Nat) : CanFrame :=
  let s := rd h (bufKey c b 1)
  let dlc := bits s 11 8
  let n := if bit s 5 then 0 else dlcLength (bit s 2) dlc
  { id := bits (rd h (bufKey c b 2)) 28 0 % (if bit s 4 then 2 ^ 29 else 2 ^ 11), ide := bit s 4, rtr := bit s 5 && !bit s 2,
    fdf := bit s 2, brs := bit s 3 && bit s 2 && brsAllowed h c, esi := false, dlc, data := (bufBytes h c b).take n, sof := 0 }

/-- A classical base data frame of 8 bytes, or of one. -/
def plainFrame (cob : Nat) (bytes : List Byte) : CanFrame :=
  { id := cob % 2048, ide := false, rtr := false, fdf := false, brs := false, esi := false, dlc := bytes.length, data := bytes, sof := 0 }

/-- The frame of a STREAM packet; none where it breaks R488. -/
def packetFrame (h : Hub) (c : Nat) (ws : List XWord) : Option CanFrame :=
  let w := (ws.map (·.data.toNat)).getD 0 0
  let bytes := packetBytes ws
  let fdf := bit w 32
  let rtr := bit w 31
  let dlc := bits w 39 36
  let ok := decide (2 ≤ ws.length) && bytes.length == (if rtr then 0 else dlcLength fdf dlc) && !(rtr && fdf)
    && (fdf || (!bit w 33 && !bit w 34)) && (!fdf || fdEnabled h c)
  if ok then some { id := bits w 28 0 % (if bit w 29 then 2 ^ 29 else 2 ^ 11), ide := bit w 29, rtr, fdf,
                    brs := bit w 33 && brsAllowed h c, esi := false, dlc, data := bytes, sof := 0 }
  else none

/-- Refuse malformed head packets and drop poisoned ones, until the head packet can be sent (R465, R488). -/
def cleanStream (c f : Nat) : Nat → Hub → Hub
  | 0, h => h
  | n + 1, h0 =>
    let h := readHead f h0
    match headPacket h f with
    | none => h
    | some ws =>
      if ws.any (·.poison) then cleanStream c f n (releasePacket f ws.length (fifoPoisoned f h))
      else if (packetFrame h c ws).isSome then h
      else cleanStream c f n (canEvent 0x4D c 0 (bump (releasePacket f ws.length h) (canStat c 0x0F)))

/-- Arbitration order of ISO 11898-1: the lower wins. -/
def arbKey (f : CanFrame) : Nat :=
  if f.ide then f.id / 2 ^ 18 * 2 ^ 21 + 2 ^ 20 + 2 ^ 19 + f.id % 2 ^ 18 * 2 + b2n f.rtr
  else f.id % 2 ^ 11 * 2 ^ 21 + b2n f.rtr * 2 ^ 20

/-- The CANopen controller is c (R500). -/
def isCanopen (h : Hub) (c : Nat) : Bool := rd h 0x2802_01 == c

/-- Candidates before a SOF, in the order that settles equal identifiers (R483). -/
def canCandidates (h : Hub) (c : Nat) : List (CanSource × CanFrame) :=
  let own := isCanopen h c
  let sdo := match h.canopen.responses with
    | (cob, bs) :: _ => if own then [(CanSource.sdo, plainFrame cob bs)] else []
    | [] => []
  let hb := match h.canopen.heartbeat with
    | b :: _ => if own then [(CanSource.heartbeat, plainFrame (0x700 + rd h 0x4800_01) [BitVec.ofNat 8 b])] else []
    | [] => []
  let free := canMode h c == 1
  let bufs := if !free then [] else
    (List.range 64).filterMap fun b =>
      if (can h c).pending.contains b && bufDir h c b == 2 && (!(bufFrame h c b).fdf || fdEnabled h c) then
        some (CanSource.buffer b, bufFrame h c b) else none
  let str := if !free then [] else match fifoTo h 2 c with
    | some f => ((headPacket h f).bind (packetFrame h c)).toList.map fun x => (CanSource.stream, x)
    | none => []
  sdo ++ hb ++ bufs ++ str

/-- The candidate that would win arbitration; the first of equals. -/
def winner : List (CanSource × CanFrame) → Option (CanSource × CanFrame)
  | [] => none
  | x :: xs => match winner xs with
    | none => some x
    | some y => if arbKey y.2 < arbKey x.2 then some y else some x

/-- CAN_TRANSMIT_ATTEMPT (R483, R489): the winning candidate's SOF. -/
def canAttempt (c : Nat) (h0 : Hub) : Hub :=
  if !canSends h0 c || (can h0 c).onBus.isSome then h0
  else
    let h := match fifoTo h0 2 c with
      | some f => if canMode h0 c = 1 then cleanStream c f (fifoPackets (fifo h0 f)) h0 else h0
      | none => h0
    match winner (canCandidates h c) with
    | none => h
    | some (src, fr) =>
      let a := match src, fifoTo h 2 c with
        | .stream, some f => markAndRead f ((headPacket h f).getD []).length h
        | _, _ => h
      setCan a c { can a c with onBus := some src, frame := fr, sof := busNs a % 2 ^ 48, aborted := false }

def execCanTransmitAttempt (c : Fin 16) (s : State) : Host.Outcome State Fault Refusal := onHub s (canAttempt c)

/-! ### The end of an attempt (R475, R484, R489, R490) -/

/-- The frame was sent (R481, R489, R499). -/
def attemptSent (c : Nat) (h : Hub) : Hub :=
  let x := can h c
  let a := canCount c (· - 1) id (bump { h with sleep := { h.sleep with lastCan := tabSet h.sleep.lastCan c (busNs h) } } (canStat c 5))
  let b := setCan a c { can a c with onBus := none, staged := none, aborted := false }
  match x.onBus with
  | some (.buffer n) =>
    let y := can b c
    let info := rd b (bufKey c n 14)
    let d := wrs (setCan b c { y with pending := y.pending.filter (· != n) })
      [(bufKey c n 14, setField info 7 0 (bits info 7 0 + 1)), (bufKey c n 15, x.sof)]
    match x.staged with
    | some ws => bufRequest c n ws d
    | none => d
  | some .stream => match fifoTo b 2 c with
    | some f => fifoRelease f 0 b
    | none => b
  | some .sdo => { b with canopen := { b.canopen with responses := b.canopen.responses.drop 1 } }
  | some .heartbeat => { b with canopen := { b.canopen with heartbeat := b.canopen.heartbeat.drop 1 } }
  | none => b

/-- A protocol exception (R495): counted, and bus integration. -/
def protocolException (c : Nat) (h : Hub) : Hub :=
  integrate c (canEvent 0x4C c 0 (bump h (canStat c 0x0D)))

/-- A loop delay measured with delay compensation (R475): over 1,000 ns it is a bit error, bit 1 or bit 0 (a free bit). -/
def loopDelay (c ns : Nat) (h : Hub) : Hub := wr h (canStat c 0x0E) (if ns ≤ 1000 then ns else 2 ^ 15 + min ns 32767)

/-- CAN_TRANSMIT_END (R484). -/
def canEnd (c : Nat) (result : TxResult) (delay : Nat) (h : Hub) : Hub :=
  let x := can h c
  if x.onBus.isNone then h
  else
    let measured := bit (rd h (canCfg c 5)) 0 && x.frame.brs && result != .lostArbitration
    let a := whenDo measured (loopDelay c delay) h
    if measured && decide (1000 < delay) then
      let f := takeFree a
      attemptError c (if f.1.getLsbD 0 then 4 else 5) f.2
    else match result with
      | .ok => attemptSent c a
      | .lostArbitration => attemptFails c (bump a (canStat c 0x0C))
      | .error code => attemptError c code a
      | .protocolException => protocolException c a

def execCanTransmitEnd (c : Fin 16) (result : TxResult) (loopDelayNs : Nat) (s : State) : Host.Outcome State Fault Refusal :=
  onHub s (canEnd c result loopDelayNs)

/-- BUS_OFF_RECOVERY_DONE (R491). -/
def execBusOffRecoveryDone (c : Fin 16) (s : State) : Host.Outcome State Fault Refusal :=
  onHub s fun h =>
    if rd h (canStat c 1) = 4 then canEvent 0x49 c 0 (wrs h [(canStat c 1, 2), (canStat c 2, 0), (canStat c 3, 0)]) else h

/-- BUS_INTEGRATION_DONE (R477, R531): active or passive, as the counters give. -/
def execBusIntegrationDone (c : Fin 16) (s : State) : Host.Outcome State Fault Refusal :=
  onHub s fun h =>
    if canState h c = 1 then
      wr h (canStat c 1) (if 127 < rd h (canStat c 2) ∨ 127 < rd h (canStat c 3) then 3 else 2)
    else h

/-- STUCK_DOMINANT (R494). -/
def execStuckDominant (c : Fin 16) (s : State) : Host.Outcome State Fault Refusal :=
  onHub s fun h => if canState h c = 0 then h else canEvent 0x4B c 0 (bump h (canStat c 0x10))

/-! ### Reception (R479, R485 to R488, R495, R501) -/

/-- Slot of filter k. -/
def filterKey (c k : Nat) : Nat := slotKey (0x3440 + c) (2 * k + 1)

/-- A frame passes a filter (R485, Table 10). -/
def passes (h : Hub) (c k : Nat) (f : CanFrame) : Bool :=
  let a := rd h (filterKey c k)
  let m := bits (rd h (filterKey c k + 1)) 28 0
  bit a 47 && f.ide == bit a 29
    && (bits a 31 30 == 2 || bits a 31 30 == b2n f.rtr)
    && (bits a 33 32 == 0 || (bits a 33 32 == 1 && !f.fdf) || (bits a 33 32 == 2 && f.fdf))
    && (f.id &&& m) == (bits a 28 0 &&& m)

/-- Put a frame into a receive buffer (R479, Table 9). -/
def bufReceive (c b : Nat) (f : CanFrame) (h : Hub) : Hub :=
  let n := bits (rd h (bufKey c b 14)) 7 0 + 1
  let info := n % 256 + f.dlc % 16 * 2 ^ 8 + b2n f.fdf * 2 ^ 12 + b2n f.brs * 2 ^ 13 + b2n f.esi * 2 ^ 14
    + b2n f.rtr * 2 ^ 15 + b2n f.ide * 2 ^ 16
  let a := wrs h [(bufKey c b 2, f.id), (bufKey c b 14, info), (bufKey c b 15, f.sof % 2 ^ 48)]
  writeFields ((bytesWords 11 (f.data.take 64)).zipIdx.map fun p => (bufKey c b (3 + p.2), p.1)) a

/-- Stream packet header of a received frame (Table 3). -/
def streamHeader (k : Nat) (f : CanFrame) : Nat :=
  k * 2 ^ 40 + f.dlc % 16 * 2 ^ 36 + b2n f.esi * 2 ^ 34 + b2n f.brs * 2 ^ 33 + b2n f.fdf * 2 ^ 32 + b2n f.rtr * 2 ^ 31
    + b2n f.ide * 2 ^ 29 + f.id % 2 ^ 29

/-- Route a frame by the filters (R486): the first it passes gives its target. -/
def filterFrame (c : Nat) (f : CanFrame) (h : Hub) : Hub :=
  match (List.range 32).find? fun k => passes h c k f with
  | none => bump h (canStat c 6)
  | some k =>
    let t := bits (rd h (filterKey c k + 1)) 39 32
    if t < 64 then if bufDir h c t = 1 then bufReceive c t f h else bump h (canStat c 6)
    else if t = 0x40 then match fifoFrom h 2 c with
      | some q => fifoPacket q (BitVec.ofNat 48 (streamHeader k f)) (BitVec.ofNat 48 f.sof) 1 f.data h
      | none => bump h (canStat c 6)
    else if t = 0xFE then h else bump h (canStat c 6)

/-- COB-IDs of SDO channel n: client to server, server to client (R501); none where the channel is invalid. -/
def sdoCob (h : Hub) (n : Nat) : Option (Nat × Nat) :=
  if n = 0 then some (0x600 + rd h 0x4800_01, 0x580 + rd h 0x4800_01)
  else
    let a := rd h (slotKey (0x1200 + n) 1)
    let b := rd h (slotKey (0x1200 + n) 2)
    if bit a 31 || bit b 31 then none else some (bits a 10 0, bits b 10 0)

/-- Queue an SDO response on a channel. -/
def sdoSend (n : Nat) (bs : List Byte) (h : Hub) : Hub :=
  match sdoCob h n with
  | some (_, cob) => { h with canopen := { h.canopen with responses := h.canopen.responses ++ [(cob, bs)] } }
  | none => h

/-- An abort of a channel's transfer (R502): sent, counted at 0x4800:03, and the transfer ends. -/
def sdoAbort (n index sub code : Nat) (h : Hub) : Hub :=
  let a := { h with canopen := { h.canopen with transfers := tabErase h.canopen.transfers n } }
  answered (.abort code) (sdoSend n (0x80 :: natBytes 2 index ++ natBytes 1 sub ++ natBytes 4 code) (bump a 0x4800_03))

/-- A frame for the SDO server (R486, R502): kept for its command; an unknown command specifier is aborted. -/
def sdoArrive (n : Nat) (bs : List Byte) (h : Hub) : Hub :=
  let b := fun (i : Nat) => (bs.map BitVec.toNat).getD i 0
  if b 0 / 32 = 7 then sdoAbort n (b 1 + 256 * b 2) (b 3) 0x05040001 h
  else { h with canopen := { h.canopen with received := h.canopen.received ++ [(n, bs)] } }

/-- Where a valid frame goes (R486, R501, R504). -/
def routeFrame (c : Nat) (f : CanFrame) (h : Hub) : Hub :=
  if !isCanopen h c then filterFrame c f h
  else
    let classic := !f.ide && !f.rtr && !f.fdf && f.data.length == 8
    match (List.range 4).find? fun n => classic && (match sdoCob h n with
      | some (cob, _) => cob == f.id
      | none => false) with
    | some n => sdoArrive n f.data h
    | none => if f.id = 0 ∧ f.ide = false then bump h 0x4800_02 else filterFrame c f h

/-- A frame ended by an error at a receiver: REC + 1, or + 9 where a dominant bit follows the error flag (ISO 11898-1; the
command does not tell which, so it is a free bit). -/
def receiveError (c code : Nat) (h : Hub) : Hub :=
  let f := takeFree (bump (wr h (canStat c 7) code) (canStat c 8))
  canCount c id (fun r => r + 1 + 8 * b2n (f.1.getLsbD 0)) f.2

/-- A valid frame: REC - 1, or a value from 119 to 127 above 127 (ISO 11898-1). -/
def receiveOk (c : Nat) (f : CanFrame) (h : Hub) : Hub :=
  let r := takeFree h
  let a := if 127 < rd h (canStat c 3) then canCount c id (fun _ => 119 + r.1.toNat % 9) r.2 else canCount c id (· - 1) h
  let b := { bump a (canStat c 4) with sleep := { a.sleep with lastCan := tabSet a.sleep.lastCan c (busNs a) } }
  routeFrame c f (wakeProductive (8 + c) b)

/-- The code at 0x4810+c:07 of an error. -/
def errorCode : CanError → Nat
  | .none => 0
  | .stuff => 1
  | .form => 2
  | .ack => 3
  | .bit1 => 4
  | .bit0 => 5
  | .crc => 6
  | .protocolException => 2

/-- CAN_FRAME_RECEIVE (R486, R490, R495). -/
def canReceive (c : Nat) (f : CanFrame) (err : CanError) (h : Hub) : Hub :=
  if !canTakesPart h c then h
  else if (err == .protocolException || (err == .none && f.fdf)) && !fdEnabled h c then
    if bit (rd h (canCfg c 2)) 2 then protocolException c h else receiveError c 2 h
  else if err = .none then receiveOk c f h
  else receiveError c (errorCode err) h

def execCanFrameReceive (c : Fin 16) (frame : CanFrame) (err : CanError) (s : State) : Host.Outcome State Fault Refusal :=
  onHub s (canReceive c frame err)

/-- BUFFER_INFO_READ (R480): the frame is latched for the path: setup, identifier, data, info and stamp. -/
def bufLatch (p : Path) (c b : Nat) (h : Hub) : Hub :=
  let ws := ((List.range 13).map fun j => bufWord h c (bufKey c b (2 + j))).set 12 (BitVec.ofNat 48 (bufInfo h c b))
    ++ [rdW h (bufKey c b 15)]
  setPath h p { pathState h p with canLatch := tabSet (pathState h p).canLatch (bufKey c b 0) ws }

/-- The path's own write of a buffer ends its latch of it: its later reads reflect the write (R78, before R480). -/
def bufUnlatch (p : Path) (c b : Nat) (h : Hub) : Hub :=
  setPath h p { pathState h p with canLatch := tabErase (pathState h p).canLatch (bufKey c b 0) }

/-- A field of a buffer as the path reads it: from its latch where it has one (R480). -/
def bufRead (p : Path) (c b f : Nat) (h : Hub) : Word :=
  match tabFind (pathState h p).canLatch (bufKey c b 0) with
  | some ws => if 2 ≤ f then ws.getD (f - 2) 0 else bufWord h c (bufKey c b f)
  | none => if f = 14 then BitVec.ofNat 48 (bufInfo h c b) else bufWord h c (bufKey c b f)

def execBufferInfoRead (p : Path) (c : Fin 16) (buf : Fin 64) (s : State) : Host.Outcome State Fault Refusal :=
  onHub s fun h =>
    let key := bufKey c buf 14
    if !served h p then answered .none h
    else if pathWaits h p then holdAccess (heldRead p (key / 256) (key % 256)) h
    else
      match refusalCode (readCauses h (key / 256) (key % 256)) with
      | some code => refuse p (key / 256) (key % 256) code false h
      | none => answered (.value (bufInfo h c buf)) (bufLatch p c buf (readTouch p (key / 256) (key % 256) h))

/-! ### Heartbeat and node ID (R500, R503) -/

/-- HEARTBEAT_SEND (R503). -/
def execHeartbeatSend (s : State) : Host.Outcome State Fault Refusal :=
  onHub s fun h =>
    if rd h 0x1017_00 = 0 ∨ rd h 0x2802_01 = 0xFF ∨ mode h = 1 ∨ mode h = 8 ∨ mode h = 6 then h
    else { h with canopen := { h.canopen with heartbeat := h.canopen.heartbeat ++ [if serving h then 0x05 else 0x7F] } }

/-- A write of the node ID: in COMMISSION it takes effect at once (R500). -/
def setNodeId (v : Nat) (h : Hub) : Hub :=
  let a := wr h 0x2802_02 v
  if mode a = 2 then nodeIdUpdate a else a

/-- NODE_ID_WRITE (R500). -/
def execNodeIdWrite (p : Path) (value : Nat) (s : State) : Host.Outcome State Fault Refusal :=
  onHub s (pathWrite p 0x2802 2 value (fun _ c => { c with value := c.value || decide (value < 1 ∨ 127 < value) }) (setNodeId value))

/-! ### Process objects (R505 to R507) -/

/-- Width of a mapping's type. -/
def mapWidth (t : Nat) : Nat :=
  match t with
  | 0 => 1
  | 1 => 8
  | 2 => 16
  | 3 => 32
  | _ => 48

/-- SIGNAL, shift and width of mapping m. -/
def mapping (h : Hub) (m : Nat) : Nat × Nat × Nat :=
  let f := rd h (mappingKey m + 1)
  (bits (rd h (mappingKey m)) 22 0, bits f 5 0, mapWidth (bits f 10 8))

/-- The SIGNAL is held here or consumed here (R506). -/
def signalKnown (h : Hub) (hd : Nat) : Bool :=
  (holding h hd).isSome || (consumptions h).any fun j => consumed h j == hd

/-- A SIGNAL known here, at its holder or its home, not to have a software source makes its process object RO (R507). -/
def processRo (h : Hub) (hd : Nat) : Bool :=
  ((holding h hd).isSome || handleHome hd == hubNumber h) && endKind (heldDef h hd).source != 0

/-- Value of a process object (R506). -/
def processValue (h : Hub) (m : Nat) : Nat :=
  let x := mapping h m
  (imageWord h x.1).1.toNat / 2 ^ x.2.1 % 2 ^ x.2.2

/-- Width in bits of a mapped process object, 0 of none. -/
def processBits (h : Hub) (index sub : Nat) : Nat :=
  match findMapping h index sub with
  | some m => (mapping h m).2.2
  | none => 0

/-- Read a process object on a path. -/
def processRead (p : Path) (index sub : Nat) (h : Hub) : Hub :=
  match findMapping h index sub with
  | none => refuse p index sub 1 false h
  | some m =>
    if signalKnown h (mapping h m).1 then answered (.value (processValue h m)) h else refuse p index sub 0x0A false h

/-- Send a write of a process object: the whole shadow goes out as one Canopy WRITE from Ranger, class MG (R507; assumption log 32). -/
def sendShadow (w : ShadowWrite) (h : Hub) : Hub :=
  let t := h.canopy.nextTag % 256
  let req : CReq := { port := 6, tag := t, cls := .mg, op := .write, addr := 2 ^ 47 + w.handle * 2 ^ 24, count := 1, be0 := 63, be1 := 63,
                      data := [shadowWord h w], src := hubNumber h, gen := 0, order := 0, home := false, fill := false }
  putItem 6 (.req req) { h with
    canopy := { h.canopy with nextTag := t + 1 }
    canopen := { h.canopen with writes := tabSet h.canopen.writes t w } }

/-- The write of a mapping's field, on a path. -/
def fieldWrite (p : Path) (index sub value m : Nat) (h : Hub) : ShadowWrite :=
  let x := mapping h m
  { handle := x.1, shift := x.2.1, width := x.2.2, value, path := p, index, sub, reply := .none }

/-- Enter a write of a process object: it waits while one of the same SIGNAL is outstanding, so that each finds the shadow as the one
before it left it (R77, R507). -/
def enterShadow (w : ShadowWrite) (h : Hub) : Hub :=
  if h.canopen.writes.any fun e => e.2.handle == w.handle then
    { h with canopen := { h.canopen with writes := tabSet h.canopen.writes ((h.canopen.writes.map (·.1)).foldl max 255 + 1) w } }
  else sendShadow w h

/-- Write a process object. -/
def processWrite (p : Path) (index sub value : Nat) (h : Hub) : Hub :=
  match findMapping h index sub with
  | none => h
  | some m => enterShadow (fieldWrite p index sub value m h) h

/-- A write that waits leaves once none of its SIGNAL is outstanding. -/
def sendNextShadow (e : Nat × ShadowWrite) (h : Hub) : Hub :=
  if h.canopen.writes.any fun x => x.1 < 256 && x.2.handle == e.2.handle then h
  else sendShadow e.2 { h with canopen := { h.canopen with writes := tabErase h.canopen.writes e.1 } }

/-- The writes of process objects that wait, oldest first. -/
def waitingShadows (h : Hub) : Hub := forEach (h.canopen.writes.filter fun e => 256 ≤ e.1) sendNextShadow h

/-- Causes a process object's write adds. -/
def processCauses (index sub value : Nat) (h : Hub) (c : Causes) : Causes :=
  match findMapping h index sub with
  | none => c
  | some m => { c with
      access := processRo h (mapping h m).1
      value := c.value || decide (2 ^ (mapping h m).2.2 ≤ value)
      other := c.other || !signalKnown h (mapping h m).1 }

/-- PROCESS_OBJECT_READ (R506). -/
def execProcessObjectRead (p : Path) (index sub : Nat) (s : State) : Host.Outcome State Fault Refusal :=
  onHub s fun h =>
    if !served h p then answered .none h
    else if pathWaits h p then holdAccess (heldRead p index sub) h
    else processRead p index sub (readTouch p index sub h)

/-- PROCESS_OBJECT_WRITE (R507). -/
def execProcessObjectWrite (p : Path) (index sub value : Nat) (s : State) : Host.Outcome State Fault Refusal :=
  onHub s (pathWrite p index sub value (processCauses index sub value) (processWrite p index sub value))

end Sys2Proof.Machine
end

