-- ==== Sys2Proof/Machine/T1s.lean ====
section
/-! DEFINITION. 10BASE-T1S ports (R543 to R569): reception, cyclic filters, descriptor rings, transmission with CSMA/CD, and
PLCA. -/

namespace Sys2Proof.Machine

/-! ### What a port may do (R545, R546) -/

/-- The port is on: it receives. -/
def t1sOn (h : Hub) (p : Nat) : Bool :=
  t1sSet h p 1 == 1 && mode h != 1 && mode h != 8 && mode h != 6
    && !(outputsSafe h && t1sSet h p 0x0C == 1)

/-- The port sleeps in CLEARING. -/
def t1sAsleep (h : Hub) (p : Nat) : Bool := h.sleep.asleep.contains (24 + p)

/-- The port may transmit. -/
def t1sSends (h : Hub) (p : Nat) : Bool := t1sOn h p && serving h && !t1sAsleep h p && !outputsSafe h

/-- PLCA settings (Table 6). -/
def plcaEnabled (h : Hub) (p : Nat) : Bool := bit (t1sSet h p 5) 0
def plcaId (h : Hub) (p : Nat) : Nat := bits (t1sSet h p 5) 15 8

/-- PLCA is enabled and its status OK (R553); the coordinator's is. -/
def plcaOk (h : Hub) (p : Nat) : Bool := plcaEnabled h p && (plcaId h p == 0 || (t1s h p).plca)

/-- Port state (Table 7). -/
def t1sState (h : Hub) (p : Nat) : Nat :=
  if !t1sOn h p then 0 else if t1sAsleep h p then 4 else if !t1sSends h p then 5
  else if plcaOk h p then 2 else if plcaEnabled h p && (t1s h p).lost then 3 else 1

/-- A 16 ms-limited event of a port (R567). -/
def t1sEvent (e p cause : Nat) (h : Hub) : Hub := raise16ms h e p 0 cause

/-- Note traffic for the T1S idle time (Table 2 of Network sleep, Clearing and wake). -/
def t1sActive (p : Nat) (h : Hub) : Hub := { h with sleep := { h.sleep with lastT1s := tabSet h.sleep.lastT1s p (busNs h) } }

/-! ### Descriptor rings (R562 to R566) -/

/-- A ring entry 0x09 (transmit) or 0x0A (receive): offset and number of descriptors. -/
def ringAt (h : Hub) (p sub : Nat) : Nat × Nat := (bits (t1sSet h p sub) 19 0, bits (t1sSet h p sub) 30 20)

/-- Base and length of the descriptor BUFFER, where it is bound with this hub as holder. -/
def ringBuffer (h : Hub) (p : Nat) : Option (Nat × Nat) :=
  match holding h (bits (t1sSet h p 8) 22 0) with
  | some (3, base, len, _) => some (base, len)
  | _ => none

/-- A ring's descriptors: word index of the first and their number; none while it lies outside its BUFFER. -/
def ringBase (h : Hub) (p sub : Nat) : Option (Nat × Nat × Nat) :=
  match ringBuffer h p with
  | some (base, len) =>
    let r := ringAt h p sub
    if r.1 + 4 * r.2 ≤ len then some (base + r.1, base, len) else none
  | none => none

/-- A write that places a ring outside its BUFFER's present length, or gives it a size Table 6 does not allow (R562). A BUFFER that is
not bound has no present length: the write stands and the ring's direction is stopped (assumption log 47). -/
def ringBad (h : Hub) (p value : Nat) : Bool :=
  let n := bits value 30 20
  decide (n = 1 ∨ 1024 < n) ||
    (n != 0 && (match ringBuffer h p with
      | some (_, len) => decide (len < bits value 19 0 + 4 * n)
      | none => false))

/-- A direction stops while its ring lies outside its BUFFER: EV_T1S_RING_UNBOUND (R562). -/
def ringStops (p : Nat) (tx : Bool) (h : Hub) : Hub :=
  let x := t1s h p
  if tx then if x.txStopped then h else t1sEvent 0x6A p 0 (setT1s h p { x with txStopped := true })
  else if x.rxStopped then h else t1sEvent 0x6A p 1 (setT1s h p { x with rxStopped := true })

/-- A descriptor is written back: words 2 and 3, then word 0; then the index moves on, and TX_DONE or RX_DONE (R564, R567). -/
def writeBack (p : Nat) (tx : Bool) (at_ n i status more len stamp : Nat) (h : Hub) : Hub :=
  let a := writeWord (at_ + 2) (BitVec.ofNat 48 (stamp / 1000000000)) 63 h
  let b := writeWord (at_ + 3) (BitVec.ofNat 48 (stamp % 1000000000 * 65536)) 63 a
  let c := writeWord at_ (BitVec.ofNat 48 (status * 2 ^ 40 + more + len % 2048)) 63 b
  let d := wr c (t1sInst p (if tx then 2 else 3)) ((i + 1) % n)
  let e := if status = 3 then bump d (t1sStat p 0x0B) else if 4 ≤ status then bump d (t1sStat p 0x0D) else d
  let x := t1s e p
  if tx then
    if x.txArmed then raiseEvent (setT1s e p { x with txArmed := false }) (0x70 + p) p 0 else e
  else if x.rxArmed then raiseEvent (setT1s e p { x with rxArmed := false }) (0x74 + p) p 0 else e

/-- A received frame takes the next receive descriptor (R566); one whose word 0 or 1 is poisoned is not used (R25, assumption log 47). -/
def ringReceive (p matched : Nat) (bytes : List Byte) (sfd : Nat) (h : Hub) : Hub :=
  let lost := bump h (t1sStat p 5)
  match ringBase h p 0x0A with
  | none => ringStops p false lost
  | some (first, base, len) =>
    let n := (ringAt h p 0x0A).2
    let i := rd h (t1sInst p 3) % n
    let d := first + 4 * i
    let w0 := (readWord h d).1.toNat
    let off := bits (readWord h (d + 1)).1.toNat 19 0
    let poisoned := (readWord h d).2 || (readWord h (d + 1)).2
    let ws := bytesWords ((bytes.length + 5) / 6) bytes
    let ok := setT1s h p { t1s h p with rxStopped := false }
    if !bit w0 47 || poisoned then bump ok (t1sStat p 5)
    else if bits w0 10 0 < bytes.length then writeBack p false d n i 5 (matched * 2 ^ 28) bytes.length sfd ok
    else if len < off + ws.length then writeBack p false d n i 6 (matched * 2 ^ 28) bytes.length sfd ok
    else writeBack p false d n i 0 (matched * 2 ^ 28) bytes.length sfd (writeWords (base + off) ws ok)

/-! ### Reception (R557 to R559) -/

/-- Number of a run of bytes, most significant first. -/
def bigNat (bs : List Byte) : Nat := bs.foldl (fun a b => a * 256 + b.toNat) 0

/-- Where the compared EtherType stands: after one VLAN tag where there is one (R558). -/
def etherAt (bs : List Byte) : Nat := if bigNat ((bs.drop 12).take 2) = 0x8100 then 16 else 12

/-- Word B of cyclic filter k; word A stands before it. -/
def cyclicKey (p k : Nat) : Nat := slotKey (0x2920 + p) (2 * k + 2)

/-- A cyclic filter matches (R558). -/
def cyclicMatches (h : Hub) (p k : Nat) (bs : List Byte) : Bool :=
  let b := rd h (cyclicKey p k)
  bit b 19 && (!bit b 16 || bytesNat ((bs.drop 6).take 6) == rd h (cyclicKey p k - 1))
    && (!bit b 17 || bigNat ((bs.drop (etherAt bs)).take 2) == bits b 15 0)

/-- The address filter accepts a frame (R557). -/
def addressAccepts (h : Hub) (p : Nat) (bs : List Byte) : Bool :=
  let dst := bytesNat (bs.take 6)
  let f := t1sSet h p 3
  dst == t1sSet h p 2 || (dst == 2 ^ 48 - 1 && bit f 0) || (bit dst 0 && bit f 1) || bit f 2

/-- Capture a frame in every filter it matches. -/
def cyclicCapture (p : Nat) (bs : List Byte) (ks : List Nat) (h : Hub) : Hub :=
  forEach ks (fun k g =>
    let x := t1s g p
    bump (setT1s g p { x with held := tabSet x.held k (bs.drop (etherAt bs + 2), busNs g) }) (t1sStat p 0x0A)) h

/-- T1S_FRAME_RECEIVE (R557). -/
def t1sReceive (p : Nat) (bs : List Byte) (fcsOk : Bool) (sfd : Nat) (h0 : Hub) : Hub :=
  if !t1sOn h0 p || t1sAsleep h0 p then h0
  else if !fcsOk then bump h0 (t1sStat p 3)
  else
    let h := wakeProductive (24 + p) (t1sActive p (bump h0 (t1sStat p 1)))
    let len := bs.length
    if len < 60 ∨ t1sSet h p 4 < len then bump h (t1sStat p 4)
    else
      let ks := (List.range 4).filter fun k => cyclicMatches h p k bs
      let a := cyclicCapture p bs ks h
      if ks.any fun k => bit (rd h (cyclicKey p k)) 18 then a
      else if !addressAccepts a p bs then bump a (t1sStat p 0x0F)
      else match fifoFrom a 3 p with
        | some f => fifoPacket f (BitVec.ofNat 48 len) (BitVec.ofNat 48 sfd) 2 bs a
        | none =>
          if (ringAt a p 0x0A).2 = 0 then bump a (t1sStat p 5)
          else ringReceive p ((ks.map fun k => 2 ^ k).sum) bs sfd a

def execT1sFrameReceive (p : Fin 4) (bytes : List Byte) (fcsOk : Bool) (sfdNs : Nat) (s : State) : Host.Outcome State Fault Refusal :=
  onHub s (t1sReceive p bytes fcsOk sfdNs)

/-! ### Transmission (R548 to R551, R560, R561, R564) -/

/-- Refuse malformed head packets of the transmit STREAM and drop poisoned ones (R465, R560). -/
def cleanT1s (p f : Nat) : Nat → Hub → Hub
  | 0, h => h
  | n + 1, h0 =>
    let h := readHead f h0
    match headPacket h f with
    | none => h
    | some ws =>
      let len := bits ((ws.map (·.data.toNat)).getD 0 0) 10 0
      let good := decide (14 ≤ len ∧ len ≤ t1sSet h p 4) && ws.length == 2 + (len + 5) / 6
      if ws.any (·.poison) then cleanT1s p f n (bump (releasePacket f ws.length (fifoPoisoned f h)) (t1sStat p 0x0B))
      else if good then h
      else cleanT1s p f n (t1sEvent 0x69 p 0 (bump (releasePacket f ws.length h) (t1sStat p 0x0C)))

/-- The bytes of a STREAM's head packet. -/
def t1sPacket (h : Hub) (f : Nat) : Option (List Byte × Nat) :=
  (headPacket h f).map fun ws =>
    ((wordsBytes ((ws.drop 2).map (·.data))).take (bits ((ws.map (·.data.toNat)).getD 0 0) 10 0), ws.length)

/-- The next transmit descriptor, where the ring is bound and it is owned: word index, its index, count, BUFFER. A poisoned word 0 owns
nothing (R25). -/
def txDescriptor (h : Hub) (p : Nat) : Option (Nat × Nat × Nat × Nat × Nat) :=
  match ringBase h p 9 with
  | some (first, base, len) =>
    let n := (ringAt h p 9).2
    let i := rd h (t1sInst p 2) % n
    let d := first + 4 * i
    if n ≠ 0 ∧ bit (readWord h d).1.toNat 47 = true ∧ (readWord h d).2 = false then some (d, i, n, base, len) else none
  | none => none

/-- A frame of L bytes is padded with 0x00 to 60 (R551). -/
def t1sPadded (bs : List Byte) : List Byte := bs ++ List.replicate (60 - bs.length) 0

/-- Hold a frame in the transmit staging. -/
def t1sHold (p : Nat) (bs : List Byte) (ring : Option (Nat × Nat × Nat)) (h : Hub) : Hub :=
  setT1s h p { t1s h p with frame := some { bytes := t1sPadded bs, length := bs.length, ring }, collided := 0 }

/-- Read an owned descriptor and stage its frame, or end it with its status (Table 4); a poisoned word 1 counts as a poisoned word of the
buffer (R25). The stamp of a frame that was never sent is a free value. -/
def stageDescriptor (p d i n base len : Nat) (h : Hub) : Hub :=
  let l := bits (readWord h d).1.toNat 10 0
  let off := bits (readWord h (d + 1)).1.toNat 19 0
  let ws := (List.range ((l + 5) / 6)).map fun k => readWord h (base + off + k)
  let status := if l < 14 ∨ t1sSet h p 4 < l then 4
    else if !(readWord h (d + 1)).2 && decide (len < off + ws.length) then 6
    else if (readWord h (d + 1)).2 || ws.any (·.2) then 3 else 0
  if status = 0 then
    t1sHold p ((wordsBytes (ws.map (·.1))).take l) (some (d, i, n)) (setT1s h p { t1s h p with checked := false, ringTurn := false })
  else
    let f := takeFree h
    writeBack p true d n i status 0 l f.1.toNat (setT1s f.2 p { t1s f.2 p with checked := false })

/-- Stage the STREAM's head packet, its words read behind a mark (R560). -/
def stagePacket (p f : Nat) (q : List Byte × Nat) (h : Hub) : Hub :=
  t1sHold p q.1 none (markAndRead f q.2 (setT1s h p { t1s h p with ringTurn := true }))

/-- Fill the transmit staging (R551, R561): a checked descriptor and the STREAM's head packet in turn. -/
def t1sStage (p : Nat) (h0 : Hub) : Hub :=
  if (t1s h0 p).frame.isSome then h0
  else
    let h := match fifoTo h0 3 p with
      | some f => if t1sSends h0 p then cleanT1s p f (fifoPackets (fifo h0 f)) h0 else h0
      | none => h0
    let x := t1s h p
    let stopped := x.checked && (ringAt h p 9).2 != 0 && (ringBase h p 9).isNone
    let ring := if x.checked && !t1sAsleep h p then txDescriptor h p else none
    let pack := match fifoTo h 3 p with
      | some f => (t1sPacket h f).map fun q => (f, q)
      | none => none
    let g := if stopped then ringStops p true h else setT1s h p { x with txStopped := false, checked := ring.isSome }
    match ring, pack with
    | some (d, i, n, base, len), none => stageDescriptor p d i n base len g
    | some (d, i, n, base, len), some (f, q) =>
      if x.ringTurn then stageDescriptor p d i n base len g
      else stagePacket p f q g
    | none, some (f, q) => stagePacket p f q g
    | none, none => g

/-- A write of PLCA control starts PLCA afresh: not OK until the next BEACON (R553). -/
def plcaAfresh (p : Nat) (h : Hub) : Hub := setT1s h p { t1s h p with plca := false, lost := false, current := 0, burst := 0 }

/-- The frame in progress has ended: the settings written meanwhile take effect (R547). -/
def settingsAct (p : Nat) (h : Hub) : Hub :=
  let x := t1s h p
  whenDo (decide (t1sSet h p 5 ≠ rd h (t1sCfg p 5))) (plcaAfresh p) (setT1s h p { x with inForce := [] })

/-- The staged frame's descriptor is written back with a status (Table 4), while its BUFFER is still bound, or its packet released. -/
def t1sGiveBack (p status : Nat) (x : T1sPort) (h : Hub) : Hub :=
  match x.frame with
  | none => h
  | some ⟨_, _, none⟩ => match fifoTo h 3 p with
    | some f => fifoRelease f 0 h
    | none => h
  | some ⟨_, l, some (d, i, n)⟩ =>
    if (ringBuffer h p).isSome then writeBack p true d n i status (min 16 (x.collided + 1) * 2 ^ 32) l x.sfd h
    else ringStops p true h

/-- The frame in staging ends with a status; the settings written meanwhile act after it. -/
def t1sEnd (p status : Nat) (h : Hub) : Hub :=
  let x := t1s h p
  if x.frame.isNone then h
  else settingsAct p
    (t1sGiveBack p status x (setT1s h p { x with frame := none, sending := false, collided := 0, backoff := none }))

/-- The port has its transmit opportunity, or PLCA does not hold the MAC (R552, R554). -/
def mediumTurn (h : Hub) (p : Nat) : Bool := !plcaOk h p || (t1s h p).current == plcaId h p

/-- T1S_TRANSMIT_ATTEMPT (R551): the staged frame starts on an idle medium; the first bit after the SFD follows 64 bit times
later. -/
def execT1sTransmitAttempt (p : Fin 4) (mediumFree : Bool) (s : State) : Host.Outcome State Fault Refusal :=
  onHub s fun h0 =>
    let h := t1sStage p h0
    let x := t1s h p
    if x.frame.isSome && !x.sending && x.backoff.isNone && mediumFree && t1sSends h p && mediumTurn h p then
      setT1s h p { x with sending := true, sfd := busNs h + 6400, inForce := (List.range 13).map fun k => rd h (t1sCfg p k) }
    else h

/-- T1S_COLLISION (R549, R550). -/
def t1sCollision (p : Nat) (late : Bool) (h : Hub) : Hub :=
  let x := t1s h p
  if !x.sending then h
  else if late then t1sEnd p 2 (bump h (t1sStat p 7))
  else
    let a := bump (setT1s h p { x with sending := false, collided := x.collided + 1 }) (t1sStat p 6)
    if 16 ≤ x.collided + 1 then
      t1sEvent 0x68 p 0 (t1sEnd p 1 (bump a (t1sStat p 8)))
    else
      let f := takeFree a
      let drawn := f.1.toNat % 2 ^ 32
      let b := settingsAct p (setT1s f.2 p { t1s f.2 p with drawn, backoff := some (drawn % 2 ^ min (x.collided + 1) 10) })
      match x.frame, fifoTo b 3 p with
      | some ⟨_, _, none⟩, some q => fifoRewind q b
      | _, _ => b

def execT1sCollision (p : Fin 4) (late : Bool) (s : State) : Host.Outcome State Fault Refusal := onHub s (t1sCollision p late)

/-- The packet of a frame that will be tried again is read again behind its mark. -/
def rereadPacket (p : Nat) (h : Hub) : Hub :=
  match (t1s h p).frame, fifoTo h 3 p with
  | some ⟨_, _, none⟩, some f => markAndRead f ((headPacket h f).getD []).length h
  | _, _ => h

/-- BACKOFF_EXPIRY (R549). -/
def execBackoffExpiry (p : Fin 4) (s : State) : Host.Outcome State Fault Refusal :=
  onHub s fun h =>
    let x := t1s h p
    if x.backoff.isSome then rereadPacket p (setT1s h p { x with backoff := none }) else h

/-- The transmit opportunity passes on. A coordinator times node-count opportunities between two BEACONs (R552). -/
def opportunityPasses (p : Nat) (h : Hub) : Hub :=
  let x := t1s h p
  let next := if plcaId h p = 0 then min (t1sSet h p 6) (x.current + 1) else x.current + 1
  setT1s h p { x with current := next, burst := 0 }

/-- T1S_TRANSMIT_DONE (R564): the frame was sent; further frames of a burst stay within the maximum burst count (R552). -/
def execT1sTransmitDone (p : Fin 4) (s : State) : Host.Outcome State Fault Refusal :=
  onHub s fun h =>
    let x := t1s h p
    if !x.sending then h
    else
      let spent := decide (bits (t1sSet h p 7) 15 8 ≤ x.burst)
      let a := if plcaOk h p then
          if spent then opportunityPasses p h else setT1s h p { x with burst := x.burst + 1 }
        else h
      t1sEnd p 0 (t1sActive p (bump a (t1sStat p 2)))

/-- TRANSMIT_DOORBELL (R566): the next transmit descriptor is checked. -/
def ringDoorbell (p : Nat) (h : Hub) : Hub := t1sStage p (setT1s h p { t1s h p with checked := true })

def execTransmitDoorbell (path : Path) (p : Fin 4) (value : Nat) (s : State) : Host.Outcome State Fault Refusal :=
  onHub s (pathWrite path (0x3500 + p.val) 1 value (fun _ c => { c with value := c.value || value != 1 }) (ringDoorbell p))

/-- POLL_INTERVAL (R566). -/
def execPollInterval (p : Fin 4) (s : State) : Host.Outcome State Fault Refusal :=
  onHub s fun h => if t1sOn h p then ringDoorbell p h else h

/-! ### PLCA (R552 to R555) -/

/-- PLCA control was written: it acts at once, or when the frame in progress ends (R547). -/
def plcaWritten (p : Nat) (h : Hub) : Hub := whenDo (t1s h p).inForce.isEmpty (plcaAfresh p) h

/-- BEACON received: a coordinator counts it as a conflict; another node's PLCA status becomes OK. -/
def execBeacon (p : Fin 4) (s : State) : Host.Outcome State Fault Refusal :=
  onHub s fun h =>
    let x := t1s h p
    if !t1sOn h p || !plcaEnabled h p || t1sAsleep h p then h
    else if plcaId h p = 0 then t1sEvent 0x6D p 0 (bump h (t1sStat p 0x0E))
    else
      whenDo x.lost (t1sEvent 0x6C p 0) (setT1s h p { x with plca := true, lost := false, current := 0, burst := 0 })

/-- BEACON_SEND: the coordinator begins a round of transmit opportunities. -/
def execBeaconSend (p : Fin 4) (s : State) : Host.Outcome State Fault Refusal :=
  onHub s fun h =>
    if t1sSends h p && plcaEnabled h p && plcaId h p == 0 then setT1s h p { t1s h p with current := 0, burst := 0 } else h

/-- TO_TIMER_EXPIRY: the present transmit opportunity passes to the next node. -/
def execToTimerExpiry (p : Fin 4) (s : State) : Host.Outcome State Fault Refusal :=
  onHub s fun h => if plcaOk h p then opportunityPasses p h else h

/-- PLCA_BEACON_TIMEOUT (R553): 400 µs without a BEACON. -/
def execPlcaBeaconTimeout (p : Fin 4) (s : State) : Host.Outcome State Fault Refusal :=
  onHub s fun h =>
    let x := t1s h p
    if plcaEnabled h p && plcaId h p != 0 && x.plca then
      t1sEvent 0x6B p 0 (bump (setT1s h p { x with plca := false, lost := true }) (t1sStat p 9))
    else h

end Sys2Proof.Machine
end

