-- ==== Sys2Proof/Machine/Sleep.lean ====
section
/-! DEFINITION. Network sleep up to the point of no return, wakes in service and the culprit log (R512 to R542). -/

namespace Sys2Proof.Machine

/-- Round state 0x4D01:01: 0 IDLE, 1 PROPOSING, 2 CONSENTED, 3 COMMITTED, 4 LATE. -/
def roundState (h : Hub) : Nat := rd h 0x4D01_01

/-- The round's originator and number (0x4D01:03, 0x4D01:04). -/
def roundOrigin (h : Hub) : Nat := rd h 0x4D01_03
def roundNumber (h : Hub) : Nat := rd h 0x4D01_04

/-- A round is committed, before the point of no return. -/
def committed (h : Hub) : Bool := roundState h == 3 || roundState h == 4

/-- Slots of source j's wake setup and status. -/
def wakeSetup (j : Nat) : Nat := 0x2D03_01 + j
def wakeStatus (j : Nat) : Nat := 0x4D03_01 + j

/-- A masked source accepts no wake and gives no keep-awake reason (R535). -/
def wakeMasked (h : Hub) (j : Nat) : Bool := bit (rd h (wakeStatus j)) 8

/-! ### Keep-awake reasons (R513, Table 2) -/

/-- Reason [3]: a WAKE_IN input with keep-awake set is at its active level. -/
def wakeInHolds (h : Hub) (j : Nat) : Bool :=
  bit (rd h (wakeSetup j)) 1 && (bit h.sleep.wakeIn j == bit (rd h (wakeSetup j)) 2) && !wakeMasked h j

/-- A bus had a frame within an idle time in ms by the bus island's stamps (R31); 0 disables the reason. -/
def busyWithin (h : Hub) (t : Tab Nat) (k idleMs : Nat) : Bool :=
  tabHas t k && decide (busNs h < tabGet 0 t k + idleMs * 1000000)

/-- The reasons at 0x4D01:02. -/
def keepAwake (h : Hub) : Nat :=
  b2n (!rdB h 0x2D01_01) + 2 * b2n (rdB h 0x2D01_03) + 4 * b2n (mode h == 4 || mode h == 2 || mode h == 7)
    + 8 * b2n ((List.range 8).any (wakeInHolds h))
    + 16 * b2n ((List.range 16).any fun c =>
        !canAsleep h c && !wakeMasked h (8 + c) && busyWithin h h.sleep.lastCan c (rd h 0x2D01_07))
    + 32 * b2n ((List.range 4).any fun p =>
        !t1sAsleep h p && !wakeMasked h (24 + p) && busyWithin h h.sleep.lastT1s p (rd h 0x2D01_08))

/-- The WAKE_IN levels as sampled. -/
def sampleWakeIn (levels : Nat) (h : Hub) : Hub := { h with sleep := { h.sleep with wakeIn := levels % 256 } }

/-! ### Frames (R512, Table 1) -/

/-- Word 0 of a sleep round frame. -/
def roundWord (origin round reasons : Nat) : Word :=
  BitVec.ofNat 48 (origin % 256 * 2 ^ 40 + round % 65536 * 2 ^ 24 + reasons % 65536)

/-- Send a sleep round frame: type 0x7, class MG, to 255. -/
def roundFrame (sub origin round reasons : Nat) (more : List Word) (h : Hub) : Hub :=
  originate h 6 0x7 .mg 255 (sub * 256) 0 (roundWord origin round reasons :: more)

/-! ### The culprit log (R539, R540) -/

/-- Change the spans of a hub in an attempt. -/
def mapSpans (origin hub : Nat) (f : Span → Span) (h : Hub) : Hub :=
  let g := fun (x : Span) => if x.origin == origin && x.hub == hub then f x else x
  { h with sleep := { h.sleep with spans := h.sleep.spans.map g } }

/-- A hub refuses in an attempt: its span opens, or gathers the reasons. -/
def noteRefusal (origin hub reasons : Nat) (h : Hub) : Hub :=
  let new : Span := { origin, hub, start := nowNs h, ending := none, reasons }
  if h.sleep.spans.any fun x => x.origin == origin && x.hub == hub then
    mapSpans origin hub (fun x => if x.ending = none then { x with reasons := x.reasons ||| reasons } else x) h
  else { h with sleep := { h.sleep with spans := h.sleep.spans ++ [new] } }

/-- A hub consents: its open span ends at the PROPOSE of the round. -/
def noteConsent (origin hub : Nat) (h : Hub) : Hub :=
  mapSpans origin hub (fun x => if x.ending = none then { x with ending := some h.sleep.roundAt } else x) h

/-- Length of a span in ns. -/
def spanLength (h : Hub) (x : Span) : Nat := x.ending.getD (nowNs h) - x.start

/-- The longest span, or the lowest hub number on a tie. -/
def longestSpan (h : Hub) : List Span → Option Span
  | [] => none
  | x :: xs => match longestSpan h xs with
    | none => some x
    | some y =>
      if spanLength h y < spanLength h x ∨ (spanLength h y = spanLength h x ∧ x.hub < y.hub) then some x else some y

/-- One entry of the culprit log, with EV_SLEEP_CULPRIT. -/
def culpritEntry (hub origin reasons spanMs : Nat) (h : Hub) : Hub :=
  raiseEvent (pushLog h 0x4D02_01 4 16
    [hub % 256 * 2 ^ 40 + origin % 256 * 2 ^ 32 + reasons % 65536, spanMs, timeSec (spireTime h), timeFrac (spireTime h)])
    0x63 hub spanMs

/-- An attempt begins with the first PROPOSE of its originator (R539). -/
def beginAttempt (origin : Nat) (h : Hub) : Hub :=
  if h.sleep.attempts.contains origin then h else { h with sleep := { h.sleep with attempts := h.sleep.attempts ++ [origin] } }

/-- The end of an attempt (R540). -/
def endAttempt (origin : Nat) (h : Hub) : Hub :=
  let mine := h.sleep.spans.filter fun x => x.origin == origin
  let a := { h with sleep := { h.sleep with
    attempts := h.sleep.attempts.filter (· != origin), spans := h.sleep.spans.filter fun x => x.origin != origin } }
  match longestSpan h mine with
  | some x => culpritEntry x.hub origin x.reasons (spanLength h x / 1000000) a
  | none => a

/-- An attempt that ends by ABORT: a further entry names the aborting hub with a span of 0. -/
def abortAttempt (origin hub reasons : Nat) (h : Hub) : Hub :=
  if h.sleep.attempts.contains origin then culpritEntry hub origin reasons 0 (endAttempt origin h) else h

/-- The request at 0x2D01:02 was written: its return to 0 ends this hub's attempt. -/
def sleepRequestWritten (h : Hub) : Hub :=
  if ¬ rdB h 0x2D01_02 ∧ h.sleep.attempts.contains (hubNumber h) then endAttempt (hubNumber h) h else h

/-! ### The round (R514 to R517) -/

/-- M: the abort margin, RT + 1 ms. -/
def abortMargin (h : Hub) : Nat := rd h 0x4500_0A + 1000000

/-- T_n in ns (R516): the first grid start at or after now plus the greater of commit lead and drain time + RT + 2 ms. -/
def noReturnAt (h : Hub) : Nat :=
  let t := nowNs h + max (rd h 0x2D01_05 * 1000000) (rd h 0x2D01_06 * 1000000 + rd h 0x4500_0A + 2000000)
  (t + periodNs h - 1) / periodNs h * periodNs h

/-- A time in whole ns as the words of a TIME. -/
def timeWords (ns : Nat) : Nat × Nat := (ns / 1000000000, ns % 1000000000 * 2 ^ 16)

/-- Step 1 of Table 3 at every hub; EV_PWR_UNSTORED where a persistent entry is newer than the store (R677). -/
def enterCommitted (origin round tn : Nat) (h : Hub) : Hub :=
  let w := timeWords tn
  let a := wrs h [(0x4D01_01, 3), (0x4D01_03, origin), (0x4D01_04, round), (0x4D01_05, w.1), (0x4D01_06, w.2)]
  whenDo a.store.dirty (fun g => raiseEvent g 0xA1 0 0) (raiseEvent a 0x60 0 0)

/-- COMMIT with the T_n that stands. -/
def commitFrame (h : Hub) : Hub :=
  roundFrame 4 (roundOrigin h) (roundNumber h) 0 [rdW h 0x4D01_05, rdW h 0x4D01_06] h

/-- The originator's COMMIT, once every hub present has consented and the set has not changed (R514). -/
def tryCommit (h : Hub) : Hub :=
  if roundState h = 1 ∧ othersPresent h = h.sleep.present ∧ h.sleep.present.all (h.sleep.consents.contains ·)
      ∧ nowNs h < h.sleep.roundAt + 20000000 then
    let a := enterCommitted (hubNumber h) (roundNumber h) (noReturnAt h) h
    commitFrame { a with sleep := { a.sleep with copies := 2 } }
  else h

/-- PROPOSE of this hub (R514): with its request set, no reasons, and no round of its own or committed. -/
def sendPropose (wakeIn : Nat) (h0 : Hub) : Hub :=
  let h := sampleWakeIn wakeIn h0
  if ¬ rdB h 0x2D01_02 ∨ keepAwake h ≠ 0 ∨ roundState h = 1 ∨ committed h ∨ hubNumber h = 0 ∨ ¬ serving h then h
  else
    let r := (h.sleep.ownRound + 1) % 65536
    let a := beginAttempt (hubNumber h) { h with sleep := { h.sleep with
      ownRound := r, consents := [], present := othersPresent h, roundAt := nowNs h } }
    let b := bump (wrs a [(0x4D01_01, 1), (0x4D01_03, hubNumber h), (0x4D01_04, r)]) 0x4D01_07
    tryCommit (roundFrame 1 (hubNumber h) r 0 [BitVec.ofNat 48 (presentHubs h).length] b)

/-- SLEEP_PROPOSE (R514). -/
def execSleepPropose (wakeIn : Nat) (s : State) : Host.Outcome State Fault Refusal := onHub s (sendPropose wakeIn)

/-- SLEEP_RETRY (R514): after the retry interval, while the request stays 1. -/
def execSleepRetry (wakeIn : Nat) (s : State) : Host.Outcome State Fault Refusal := onHub s (sendPropose wakeIn)

/-- A round number is newer than another, modulo 2^16. -/
def newerRound (a b : Nat) : Bool := decide ((a + 65536 - b) % 65536 < 32768)

/-- The answer to a PROPOSE (R513). A committed round keeps its state. -/
def answerPropose (origin round : Nat) (h : Hub) : Hub :=
  let r := keepAwake h
  let a := { h with sleep := { h.sleep with heard := tabSet h.sleep.heard origin (round, r == 0) } }
  let b := if committed a then a
    else wrs { a with sleep := { a.sleep with roundAt := nowNs a } }
      [(0x4D01_01, if r = 0 then 2 else 0), (0x4D01_03, origin), (0x4D01_04, round)]
  let c := beginAttempt origin b
  if r = 0 then roundFrame 2 origin round 0 [] (noteConsent origin (hubNumber c) c)
  else roundFrame 3 origin round r [] (noteRefusal origin (hubNumber c) r c)

/-- PROPOSE (R513, R515). -/
def propose (origin round wakeIn : Nat) (h0 : Hub) : Hub :=
  let h := sampleWakeIn wakeIn h0
  let old := h.sleep.heard.find? fun e => e.1 == origin
  let stale : Bool := match old with
    | some e => !newerRound round e.2.1
    | none => false
  if hubNumber h = 0 ∨ ¬ sendsOwn h ∨ origin = hubNumber h ∨ stale ∨ (roundState h = 1 ∧ hubNumber h < origin) then h
  else answerPropose origin round h

def execPropose (origin round _present wakeIn : Nat) (s : State) : Host.Outcome State Fault Refusal :=
  onHub s (propose origin round wakeIn)

/-- CONSENT (R514, R539). -/
def consent (src origin round : Nat) (h : Hub) : Hub :=
  let a := noteConsent origin src h
  if roundState a = 1 ∧ origin = hubNumber a ∧ round = roundNumber a then
    tryCommit { a with sleep := { a.sleep with consents := src :: a.sleep.consents.filter (· != src) } }
  else a

def execConsent (src origin round : Nat) (s : State) : Host.Outcome State Fault Refusal := onHub s (consent src origin round)

/-- The round fails (R514). -/
def roundFails (h : Hub) : Hub := raiseEvent (bump (wr h 0x4D01_01 0) 0x4D01_08) 0x62 0 0

/-- REFUSE (R514, R539). -/
def refuseReceived (src origin round reasons : Nat) (h : Hub) : Hub :=
  let a := if h.sleep.attempts.contains origin then noteRefusal origin src reasons h else h
  if roundState a = 1 ∧ origin = hubNumber a ∧ round = roundNumber a then roundFails a else a

def execRefuse (src origin round reasons : Nat) (s : State) : Host.Outcome State Fault Refusal :=
  onHub s (refuseReceived src origin round reasons)

/-- SLEEP_ROUND_TIMEOUT (R514): 20 ms after PROPOSE. -/
def execSleepRoundTimeout (s : State) : Host.Outcome State Fault Refusal :=
  onHub s fun h => if roundState h = 1 then roundFails h else h

/-- COMMIT_RESEND (R516). -/
def execCommitResend (s : State) : Host.Outcome State Fault Refusal :=
  onHub s fun h =>
    if committed h ∧ roundOrigin h = hubNumber h ∧ h.sleep.copies ≠ 0 then
      commitFrame { h with sleep := { h.sleep with copies := h.sleep.copies - 1 } }
    else h

/-! ### Abort (R519, R521) -/

/-- Requests held at their ports go out in issue order. -/
def releasePorts (h : Hub) : Hub := drainPorts { h with sleep := { h.sleep with holding := false } }

/-- The committed round ends; `hub` aborted it. -/
def abortRound (hub reasons : Nat) (h : Hub) : Hub :=
  let o := roundOrigin h
  let a := { h with sleep := { h.sleep with copies := 0, latched := none } }
  let b := raiseEvent (bump (wr (releasePorts a) 0x4D01_01 0) 0x4D01_09) 0x61 0 0
  abortAttempt o hub reasons b

/-- ABORT (R521): before T_n; it also ends the attempt of a round not committed here. -/
def abortReceived (src origin round reasons : Nat) (h : Hub) : Hub :=
  if mode h = 6 then h
  else if committed h ∧ origin = roundOrigin h ∧ round = roundNumber h then abortRound src reasons h
  else
    let a := if roundState h = 2 ∧ origin = roundOrigin h ∧ round = roundNumber h then wr h 0x4D01_01 0 else h
    abortAttempt origin src reasons a

def execAbort (src origin round reasons : Nat) (s : State) : Host.Outcome State Fault Refusal :=
  onHub s (abortReceived src origin round reasons)

/-- The reasons that abort a committed round (Table 2): [0] to [3] and [7]. -/
def abortingReasons (r : Nat) : Nat := r &&& 0x8F

/-- This hub aborts for reasons, only before T_n − M (R519, R523). -/
def abortFor (r : Nat) (h : Hub) : Hub :=
  if roundState h = 3 ∧ r ≠ 0 then
    abortRound (hubNumber h) r (roundFrame 5 (roundOrigin h) (roundNumber h) r [] h)
  else h

/-- The aborting reasons that hold: those the hub's state shows, and [3] where WAKE_IN gives it now. -/
def abortingNow (reasons : Nat) (h : Hub) : Nat := abortingReasons (keepAwake h ||| (reasons &&& 8))

/-- SLEEP_ABORT (R519): a keep-awake reason that aborts has become 1. -/
def sleepAbort (reasons : Nat) (h : Hub) : Hub := abortFor (abortingNow reasons h) h

def execSleepAbort (reasons : Nat) (s : State) : Host.Outcome State Fault Refusal := onHub s (sleepAbort reasons)

/-- COMMIT (R516 to R518): the first copy of a round consented to; a round not consented to is answered with ABORT. A reason that has
come up since the CONSENT aborts the committed round at once (R519). -/
def commitReceived (origin round tn : Nat) (h : Hub) : Hub :=
  if hubNumber h = 0 ∨ ¬ sendsOwn h ∨ origin = hubNumber h ∨ (committed h ∧ roundOrigin h = origin ∧ roundNumber h = round) then h
  else if h.sleep.heard.contains (origin, (round, true)) then
    if committed h then h else sleepAbort 0 (enterCommitted origin round tn h)
  else
    let r := keepAwake h
    abortAttempt origin (hubNumber h) r (roundFrame 5 origin round r [] h)

def execCommit (origin round tnNs : Nat) (s : State) : Host.Outcome State Fault Refusal :=
  onHub s (commitReceived origin round tnNs)

/-- DRAIN_TIME_START (step 2 of Table 3). -/
def execDrainTimeStart (s : State) : Host.Outcome State Fault Refusal :=
  onHub s fun h => if committed h then { h with sleep := { h.sleep with holding := true } } else h

/-- ABORT_MARGIN_START (step 3 of Table 3). -/
def execAbortMarginStart (s : State) : Host.Outcome State Fault Refusal :=
  onHub s fun h => if roundState h = 3 then wr h 0x4D01_01 4 else h

/-! ### Wakes (R519 to R523, R526, R532) -/

/-- A source that may be accepted: enabled and not masked. -/
def wakeEnabled (h : Hub) (j : Nat) : Bool := decide (j < 30) && bit (rd h (wakeSetup j)) 0 && !wakeMasked h j

/-- Record an accepted wake (R532): source, stamp of the always-on island (R31), EV_WAKE_ACCEPTED. `late` marks a wake latched under R522. -/
def wakeRecord (j : Nat) (late : Bool) (h : Hub) : Hub :=
  raiseEvent (wrStamp (wr h 0x4D01_0A (j + 0x80 * b2n late)) 0x4D01_0B 0x15) 0x64 0 j

/-- The resource a source belongs to sleeps. -/
def sourceAsleep (h : Hub) (j : Nat) : Bool := decide (8 ≤ j ∧ j < 28) && h.sleep.asleep.contains j

/-- Sources armed in DORMANT (Table 4): T1S ports are not. -/
def dormantSource (j : Nat) : Bool := decide (j < 24) || j == 28 || j == 29

/-- Rails, from nothing: a wake from DORMANT starts (step 1 of Table 6 of Power domains and regulators). -/
def startWake (h : Hub) : Hub :=
  { h with power := { h.power with waking := true, railsGood := [], wakeTries := 0, wakeAt := nowNs h } }

/-- A wake is latched until DORMANT is reached; the first stays. -/
def latchWake (j : Nat) (h : Hub) : Hub :=
  wakeRecord j true { h with sleep := { h.sleep with latched := some (h.sleep.latched.getD j) } }

/-- A wake ends CLEARING: all sleeping resources are woken, and the hub returns to RUN. -/
def wakeToRun (j : Nat) (h : Hub) : Hub :=
  let a := changeMode 3 h
  { a with sleep := { a.sleep with awaiting := j :: a.sleep.awaiting.filter (· != j) } }

/-- WAKE_ACCEPTED by mode (R520, R522). -/
def wakeAccepted (j : Nat) (h : Hub) : Hub :=
  if ¬ wakeEnabled h j then h
  else if mode h = 6 then
    if ¬ dormantSource j then h
    else if h.sleep.entering then latchWake j h
    else if h.power.waking then wakeRecord j false h
    else startWake (wakeRecord j false { h with sleep := { h.sleep with awaiting := [j] } })
  else if ¬ serving h ∨ ¬ (j < 8 ∨ (mode h = 5 ∧ sourceAsleep h j) ∨ (roundState h = 4 ∧ dormantSource j ∧ 24 ≤ j)) then h
  else if roundState h = 4 then latchWake j h
  else
    let a := abortFor 0x80 (wakeRecord j false h)
    if mode a = 5 then wakeToRun j a else a

def execWakeAccepted (source : Nat) (s : State) : Host.Outcome State Fault Refusal := onHub s (wakeAccepted source)

/-! ### Unproductive wakes (R534 to R536) -/

/-- A wake source's status after a masking or a clearing: seconds of the always-on island's time (R31), modulo
2^32. -/
def sourceStamp (h : Hub) : Nat := timeSec (replica h 0x15) % 2 ^ 32 * 2 ^ 16

/-- WAKE_PRODUCTIVITY_TIMEOUT (R534, R535): 500 ms without valid communication. -/
def wakeUnproductive (j : Nat) (h : Hub) : Hub :=
  if ¬ h.sleep.awaiting.contains j then h
  else
    let a := { h with sleep := { h.sleep with awaiting := h.sleep.awaiting.filter (· != j) } }
    let w := rd a (wakeStatus j)
    let n := min 255 (bits w 7 0 + 1)
    let limit := bits (rd a (wakeSetup j)) 31 24
    if limit ≠ 0 ∧ limit ≤ n ∧ ¬ bit w 8 then raiseEvent (wr a (wakeStatus j) (sourceStamp a + 256 + n)) 0x65 0 j
    else wr a (wakeStatus j) (setField w 7 0 n)

def execWakeProductivityTimeout (source : Nat) (s : State) : Host.Outcome State Fault Refusal :=
  onHub s fun h => if source < 30 then wakeUnproductive source h else h

/-- WAKE_CONFIRMATION (Table 5): a write of bit i confirms WAKE_IN[i]. -/
def wakeConfirm (v : Nat) (h : Hub) : Hub := forEach (List.range 8) (fun i g => if bit v i then wakeProductive i g else g) h

def execWakeConfirmation (path : Path) (value : Nat) (s : State) : Host.Outcome State Fault Refusal :=
  onHub s (pathWrite path 0x2D04 1 value (fun _ c => { c with value := c.value || entryBad 0x2D04 1 value }) (wakeConfirm value))

/-- Clear a source's mask and count, and record the clearing (R536). -/
def unmaskSource (j : Nat) (h : Hub) : Hub := wr h (wakeStatus j) (sourceStamp h)

/-- WAKE_UNMASK (R536). -/
def wakeUnmask (v : Nat) (h : Hub) : Hub := forEach (List.range 30) (fun j g => if bit v j then unmaskSource j g else g) h

def execWakeUnmask (path : Path) (value : Nat) (s : State) : Host.Outcome State Fault Refusal :=
  onHub s (pathWrite path 0x2D04 2 value (fun _ c => { c with value := c.value || entryBad 0x2D04 2 value }) (wakeUnmask value))

/-- Entry to RUN after a wake from DORMANT clears every mask and count (R536). -/
def unmaskAll (h : Hub) : Hub :=
  forEach (List.range 30) (fun j g => if rd g (wakeStatus j) % 512 = 0 then g else unmaskSource j g) h

/-! ### CAN partial networking (R528 to R531) -/

/-- Key of controller c's wake frame settings. -/
def pnKey (c sub : Nat) : Nat := slotKey (0x2830 + c) sub

/-- The wake data mask: eight bytes in two slots (R73). -/
def pnMask (h : Hub) (c : Nat) : List Byte := wordsBytes [rdW h (pnKey c 3), rdW h (pnKey c 4)]

/-- A frame's data AND the wake data mask is nonzero. -/
def dataMatches (h : Hub) (c : Nat) (f : CanFrame) : Bool := (f.data.zip (pnMask h c)).any fun p => p.1 &&& p.2 != 0

/-- A wake frame (R529). -/
def isWakeFrame (h : Hub) (c : Nat) (f : CanFrame) : Bool :=
  let w := rd h (pnKey c 1)
  let m := bits (rd h (pnKey c 2)) 28 0
  let o := rd h (pnKey c 5)
  !f.rtr && !f.fdf && (f.ide == bit w 29) && (f.id &&& m) == (bits w 28 0 &&& m)
    && (!bit o 4 || (f.dlc == bits o 3 0 && dataMatches h c f))

/-- The frame error counter after a frame: up by one for a decode error, down by one for a frame without error (R530). -/
def pnCount (err : CanError) (n : Nat) : Nat :=
  match err with
  | .none => n - 1
  | .stuff | .form | .crc | .bit1 | .bit0 => n + 1
  | .ack | .protocolException => n

/-- PN_FRAME_DECODE (R529 to R531): a wake frame, or the 32nd error, wakes the controller; the wake frame is delivered. -/
def pnFrameDecode (c : Nat) (f : CanFrame) (err : CanError) (h : Hub) : Hub :=
  if ¬ canAsleep h c ∨ mode h ≠ 5 ∨ f.fdf then h
  else
    let n := pnCount err (can h c).pnErrors
    let a := setCan h c { can h c with pnErrors := n }
    let hit := err == .none && isWakeFrame a c f
    if (hit || decide (32 ≤ n)) && wakeEnabled a (8 + c) then
      let b := wakeAccepted (8 + c) a
      if hit && !canAsleep b c then routeFrame c f (bump b (canStat c 4)) else b
    else a

def execPnFrameDecode (ctl : Fin 16) (frame : CanFrame) (err : CanError) (s : State) : Host.Outcome State Fault Refusal :=
  onHub s (pnFrameDecode ctl.val frame err)

end Sys2Proof.Machine
end

