-- ==== Sys2Proof/Machine/Flash.lean ====
section
/-! DEFINITION. The flash slots and their images (R718 to R726): header fields and checks, confirmation, the slot choice of
the boot ROM. -/

namespace Sys2Proof.Machine

/-- Slot A (0) or B (1). -/
def slot (h : Hub) (b : Nat) : FlashSlot := if b = 0 then h.update.slotA else h.update.slotB

def setSlot (b : Nat) (x : FlashSlot) (h : Hub) : Hub :=
  if b = 0 then { h with update := { h.update with slotA := x } } else { h with update := { h.update with slotB := x } }

/-- The boot source of the straps (0x2000:0C): 0 slot A, 1 slot B, 2 host-loaded, 3 factory. -/
def bootSource (h : Hub) : Nat := rd h 0x2000_0C

/-- The strapped slot, which loading always writes, and the other one. -/
def strapped (h : Hub) : Nat := bootSource h % 2
def otherSlot (h : Hub) : Nat := 1 - strapped h

/-- The running slot (0x4F00:0A). -/
def runningSlot (h : Hub) : Nat := rd h 0x4F00_0A

/-- The image that runs: a slot's, or none where the boot was host-loaded or none has started. -/
def runningImage (h : Hub) : Option FlashSlot := if runningSlot h ≤ 1 then some (slot h (runningSlot h)) else none

/-- Update state 0x4F00:01: 0 IDLE, 1 RECEIVING, 2 VERIFYING, 3 STAGED, 4 TRIAL, 5 FAILED. -/
def updateState (h : Hub) : Nat := rd h 0x4F00_01

/-! ### The image (R718, R730) -/

/-- Header byte at an offset. -/
def imageByte (bs : List Byte) (k : Nat) : Nat := (bs.getD k 0).toNat

/-- A little-endian field of `n` bytes. -/
def imageField (bs : List Byte) (off n : Nat) : Nat := bytesNat ((bs.drop off).take n)

/-- The public key of an image's header. -/
def publicKey (bs : List Byte) : List Byte := (bs.drop 0x40).take 97

/-- The OTP key hash an image's key has. -/
def imageHash (bs : List Byte) : Option Nat := (Config.otpKey (publicKey bs)).map (·.val)

/-- The slot contents an image gives, STAGED. -/
def imageSlot (bs : List Byte) : FlashSlot :=
  { state := 1, failed := 0, security := imageByte bs 0x18, version := imageField bs 8 4, protocol := imageField bs 0xC 2,
    format := imageField bs 0x10 4, oldest := imageField bs 0x14 4, revoke := bits (imageByte bs 0x19) 3 0,
    keyHash := (imageHash bs).getD 0, image := some bs }

/-- Ring protocol major of the running image. -/
def runningMajor (h : Hub) : Nat := bits (rd h 0x4F00_03) 15 8

/-- The header check (R730): the result code of Table 5, 0 for none. `total` is the image length. -/
def headerResult (h : Hub) (bs : List Byte) (total : Nat) : Nat :=
  let magic := (bs.take 4).map BitVec.toNat == [0x48, 0x51, 0x46, 0x57]
  if !magic || imageField bs 4 2 != 1 || imageField bs 0x1C 4 + 512 != total || imageField bs 0x1C 4 % 4 != 0 then 1
  else match imageHash bs with
    | none => 2
    | some k =>
      if bit h.update.revoked k then 2
      else if imageByte bs 0x18 < h.update.floor then 3
      else if imageByte bs 0xD ≠ runningMajor h then 4
      else 0

/-! ### Ends of a load -/

/-- The load fails with a result of Table 5. -/
def loadFails (code : Nat) (h : Hub) : Hub :=
  wrs { h with update := { h.update with held := [], requests := [], busy := false } } [(0x4F00_01, 5), (0x4F00_0C, code)]

/-- The strapped slot is erased. -/
def eraseStrapped (h : Hub) : Hub := setSlot (strapped h) emptySlot h

/-- Abandon (Table 3): the strapped slot erased, image writes that wait dropped, IDLE, result 0x08. -/
def abandonLoad (h : Hub) : Hub :=
  wrs (eraseStrapped { h with update := { h.update with received := [], held := [], requests := [], busy := false } })
    [(0x4F00_01, 0), (0x4F00_05, 0), (0x4F00_0C, 8)]

/-- Leaving SERVICE in RECEIVING or VERIFYING acts as abandon (R731). -/
def leaveService (h : Hub) : Hub := if updateState h = 1 ∨ updateState h = 2 then abandonLoad h else h

/-! ### Confirmation (R725, R726) -/

/-- The lowest security version among the CONFIRMED slots. -/
def confirmedFloor (h : Hub) : Nat :=
  let vs := ([h.update.slotA, h.update.slotB].filter fun x => x.state == 3).map (·.security)
  vs.foldl min (vs.headD 0)

/-- Key hashes that a confirmed image revokes: those its mask names, but its own and that of the other slot's image. -/
def revokedBy (x other : FlashSlot) : Nat :=
  ((List.range 4).map fun k =>
    if bit x.revoke k && k != x.keyHash && !(other.state != 0 && k == other.keyHash) then 2 ^ k else 0).sum

/-- The running TRIAL slot is confirmed: CONFIRMED with a count of 0, the OTP floor raised, key hashes revoked. -/
def confirmSlot (h : Hub) : Hub :=
  let b := runningSlot h
  if 1 < b ∨ (slot h b).state ≠ 2 then h
  else
    let a := setSlot b { slot h b with state := 3, failed := 0 } h
    let c := { a with update := { a.update with
      floor := max a.update.floor (confirmedFloor a)
      revoked := a.update.revoked ||| revokedBy (slot a b) (slot a (1 - b)) } }
    wrs c [(0x4F00_01, 0), (0x4F00_0C, 0)]

/-! ### Slot choice of the boot ROM (R62, R724) -/

/-- The boot ROM starts a slot: TRIAL or CONFIRMED, fewer than three failed boots, its image verified. -/
def slotUsable (x : FlashSlot) (ok : Bool) : Bool := (x.state == 2 || x.state == 3) && decide (x.failed < 3) && ok

/-- A slot skipped: TRIAL with its count exhausted becomes BAD. -/
def skipSlot (b : Nat) (h : Hub) : Hub :=
  if (slot h b).state = 2 ∧ 3 ≤ (slot h b).failed then wr (setSlot b { slot h b with state := 4 } h) 0x4F00_0C 9 else h

/-- What the running image serves (R737, R116): its versions, and the text at 0x100A:00 from its header. -/
def imageEntries (x : FlashSlot) (h : Hub) : Hub :=
  let a := wrs h [(0x4F00_03, x.protocol), (0x4F00_04, x.version), (0x2001_01, x.format)]
  match x.image with
  | some bs => forEach (List.range 4) (fun k g => wr g (0x100A_00 + k) (imageField bs (0x20 + 6 * k) 6)) a
  | none => forEach (List.range 4) (fun k g => toDefault g (0x100A_00 + k)) a

/-- The image of a slot starts: its failed-boot count rises first. The update state follows the slots: TRIAL while the
running slot is, STAGED while the strapped slot is. -/
def startSlot (b : Nat) (h : Hub) : Hub :=
  let a := setSlot b { slot h b with failed := (slot h b).failed + 1 } h
  let st := if (slot a b).state = 2 then 4 else if (slot a (strapped a)).state = 1 then 3 else 0
  let v := if st = 3 then (slot a (strapped a)).version else 0
  imageEntries (slot a b) (wrs a [(0x4F00_0A, b), (0x4F00_01, st), (0x4F00_05, v)])

/-- Boot from flash: the strapped slot, else the other one with EV_GEN_BOOT_FALLBACK, else none. -/
def bootFlash (okA okB : Bool) (h : Hub) : Option Hub × Hub :=
  let ok := fun b => bif b == 0 then okA else okB
  let s := strapped h
  if slotUsable (slot h s) (ok s) then (some (startSlot s h), h)
  else
    let a := raiseEvent (skipSlot s h) 0x01 0 0
    if slotUsable (slot a (1 - s)) (ok (1 - s)) then (some (startSlot (1 - s) a), a) else (none, skipSlot (1 - s) a)

/-- Entry to COMMISSION from BOOT is success for a CONFIRMED slot (R725). -/
def bootSucceeds (h : Hub) : Hub :=
  let b := runningSlot h
  if b ≤ 1 ∧ (slot h b).state = 3 then setSlot b { slot h b with failed := 0 } h else h

end Sys2Proof.Machine
end

