-- ==== Sys2Proof/Machine/Voting.lean ====
section
/-! DEFINITION. Belfry voting and channel recovery (R217 to R247). -/

namespace Sys2Proof.Machine

/-- The number of voting channels. -/
def votingCount (h : Hub) : Nat := (List.range 3).countP fun n => chState h n == 1

/-- Exclusions of a channel within the last rejoin window. -/
def windowCount (h : Hub) (n : Nat) : Nat :=
  (channel h n).exclusions.countP fun t => decide (stampNs h 0 < t + rd h 0x2207_04 * 1000000000)

/-- The channels run: not while the hub sleeps (R241). -/
def channelsRun (h : Hub) : Bool := mode h != 6

/-- Vote mode 0x4202:01 after a channel's state changed; a split stays. Table 6 gives no value for fewer than two voting channels, which a
clock tree can leave (R230): the entry then still reads two voting (DESIGN CHOICE, assumption log 60). -/
def voteMode (h : Hub) : Hub := if halted h then h else wr h 0x4202_01 (if votingCount h = 3 then 3 else 2)

/-- The two copies of the voter differ: FLT_BELFRY_VOTER (R224). -/
def voterDiffers (cause group : Nat) (h : Hub) : Hub := if cause = 4 then raiseFault 0x08 0x00 group 0 h else h

/-- A split (R227): Belfry stops with FLT_BELFRY_VOTE_SPLIT; a hub that is in the split state stays there. -/
def split (cause group : Nat) (h : Hub) : Hub :=
  if channelsRun h then
    let a := voterDiffers cause group h
    if halted h then a else raiseFault 0x09 0x00 cause group (wrs a [(0x4202_01, 0), (0x4202_03, cause)])
  else h

/-- A channel becomes FAILED with a cause (R231, R235, R238, R239). -/
def failChannel (n cause : Nat) (h : Hub) : Hub :=
  raiseFault 0x0A 0x00 n cause (voteMode (wrs h [(chKey n 1, 6), (chKey n 8, cause)]))

/-- A channel is excluded (R225, R238): recorded, reported, LIMP cause [0]. -/
def exclude (n cause group : Nat) (h : Hub) : Hub :=
  let a := setChannel h n { channel h n with
    exclusions := (channel h n).exclusions ++ [stampNs h 0], abandoned := 0, loaded := none, passed := false, point := none, log := [] }
  let b := wrStamp (bump (wrs a [(chKey n 1, 2), (chKey n 8, cause), (chKey n 9, group)]) (chKey n 6)) (chKey n 0x0A) 0x00
  let c := setLimpCause 0 true (raiseEvent (voteMode (bump b 0x4202_02)) 0x15 n group)
  if rd h 0x2207_03 < windowCount c n then failChannel n 9 c else c

/-- A channel on probation votes (R231, R237). -/
def rejoin (n : Nat) (h : Hub) : Hub :=
  let a := voteMode (bump (wr h (chKey n 1) 1) (chKey n 7))
  setLimpCause 0 (votingCount a != 3) (raiseEvent a 0x16 n 0)

/-- One channel alone in the minority (R225, R227, R236, R237). -/
def minority (n cause group : Nat) (h : Hub) : Hub :=
  if halted h ∨ ¬ channelsRun h then h
  else if chState h n = 5 then exclude n 6 group h
  else if chState h n ≠ 1 then h
  else if votingCount h = 3 then exclude n cause group h
  else match (List.range 3).find? fun m => chState h m == 5 with
    | some m => rejoin m (exclude n cause group h)
    | none => split 2 group h

/-- A channel whose outputs the voter compares: VOTING or PROBATION. -/
def compared (h : Hub) (n : Nat) : Bool := channelsRun h && (chState h n == 1 || chState h n == 5)

/-- VOTE_MINORITY (R225, R228): the shadow slot is group 0x0B; the voter ignores a channel that takes no part. -/
def voteMinority (n group : Nat) (h : Hub) : Hub :=
  if ¬ compared h n then h
  else if group = 0x0B then minority n 3 group (bump h (chKey n 3))
  else minority n 1 group (bump h (chKey n 2))

def execVoteMinority (n : Fin 3) (group : Nat) (s : State) : Host.Outcome State Fault Refusal :=
  onHub s (voteMinority n group)

def execVoteSplit (cause group : Nat) (s : State) : Host.Outcome State Fault Refusal := onHub s (split cause group)

/-- Invert bits of a slice in a channel's copy. -/
def flipSlice (slice : Nat) (bits : Word) (t : Tab Word) : Tab Word :=
  let v := tabGet 0 t slice ^^^ bits
  if v = 0 then tabErase t slice else tabSet t slice v

/-- Faults invert bits of slices in the channels' copies of the control state: channel, slice, bits. -/
def upsetChannels (upsets : List (Nat × Nat × Word)) (h : Hub) : Hub :=
  forEach upsets (fun u g => setChannel g u.1 { channel g u.1 with copy := (channel g u.1).copy.map (flipSlice u.2.1 u.2.2) }) h

/-- The CRC-32 digest of a channel's control state at the end of a sweep (R229), less what every channel's digest takes alike from the state
they share: CRC-32 over the slices in which its copy departs, in order. None while it has no copy. -/
def channelDigest (h : Hub) (n : Nat) : Option Nat :=
  (channel h n).copy.map fun t => crc32 (t.flatMap fun e => natBytes 2 e.1 ++ natBytes 6 e.2.toNat)

/-- Two channels' digests are alike (R229). -/
def alike (h : Hub) (m n : Nat) : Bool := (channelDigest h m).isSome && channelDigest h m == channelDigest h n

/-- The compared channels whose digest no other compared channel has. -/
def digestAlone (h : Hub) : List Nat :=
  let c := (List.range 3).filter (compared h)
  c.filter fun n => c.all fun m => m == n || !alike h m n

/-- The digests at the end of a sweep (R229): one alone, or no majority. -/
def digestCompare (h : Hub) : Hub :=
  if (List.range 3).countP (compared h) < 2 then h
  else match digestAlone h with
    | [] => h
    | [n] => minority n 2 0 (bump h (chKey n 4))
    | l => split (if l.length = 2 then 2 else 1) 0 h

/-- DIGEST_COMPARE: its operand is what faults have changed since the last sweep, not what the compare finds. -/
def execDigestCompare (upsets : List (Nat × Nat × Word)) (s : State) : Host.Outcome State Fault Refusal :=
  onHub s fun h => digestCompare (upsetChannels upsets h)

/-- A clock tree stops or departs (R230): its channel is excluded, whatever it is doing; a channel in PROBATION then votes (R237). A channel
that is EXCLUDED already, or FAILED with its clock gated, stays so. In a split, where no channel votes, none rejoins for it (R227). -/
def treeFault (n : Nat) (h : Hub) : Hub :=
  if ¬ channelsRun h ∨ chState h n = 2 ∨ chState h n = 6 then h
  else if halted h then exclude n 4 0 h
  else match (List.range 3).find? fun m => chState h m == 5 && m != n with
    | some m => if chState h n = 1 then rejoin m (exclude n 4 0 h) else exclude n 4 0 h
    | none => exclude n 4 0 h

/-- CHANNEL_TREE_CHECK (R230). -/
def execChannelTreeCheck (n : Fin 3) (ok : Bool) (s : State) : Host.Outcome State Fault Refusal :=
  onHub s (whenDo (!ok) (treeFault n))

/-- Step 2 of Table 3: a channel that was excluded is reset and its self-test starts. -/
def channelStart (n : Nat) (h : Hub) : Hub :=
  if chState h n = 2 ∧ ¬ (channel h n).passed ∧ channelsRun h then
    wr (setChannel h n { channel h n with copy := none }) (chKey n 1) 3
  else h

/-- Channels that are due for it start their self-test, within the 10 µs that Table 3 gives them: as the Spire clock ticks (assumption
log 60). -/
def channelsStart (h : Hub) : Hub := forEach (List.range 3) channelStart h

/-- The replay point is set and the log starts (step 4 of Table 3): the checkpoint is the control state as it stands now (R232). -/
def startReplay (n : Nat) (h : Hub) : Hub :=
  wr (setChannel h n { channel h n with replayAt := stampNs h 0, loaded := none, passed := false, copy := none, point := some h.belfry, log := [] })
    (chKey n 1) 4

/-- CHANNEL_SELFTEST_DONE (R231): the self-test of an EXCLUDED channel, or of one started by a release. -/
def channelSelftestDone (n : Nat) (pass : Bool) (h : Hub) : Hub :=
  let st := chState h n
  if channelsRun h ∧ (st = 3 ∨ (st = 2 ∧ ¬ (channel h n).passed)) then
    let a := wr h (chKey n 0x0D) (if pass then 1 else 2)
    if ¬ pass then failChannel n 8 a
    else if rdB h 0x2207_01 then startReplay n a
    else wr (setChannel a n { channel a n with passed := true }) (chKey n 1) 2
  else h

def execChannelSelftestDone (n : Fin 3) (pass : Bool) (s : State) : Host.Outcome State Fault Refusal :=
  onHub s (channelSelftestDone n pass)

/-- The voting channels' copies of the checkpoint agree: what they hold is alike, and `written` says that no copy went wrong as it was
written (R233). -/
def copiesAgree (h : Hub) (written : Bool) : Bool :=
  written && (List.range 3).all fun m => (List.range 3).all fun k => chState h m != 1 || chState h k != 1 || alike h m k

/-- Ticks of 10 ns from a replay point to now: the depth of the replay log (R219, R234). -/
def replayDepth (h : Hub) (n : Nat) : Nat := min ((stampNs h 0 - (channel h n).replayAt) / 10) 8192

/-- The checkpoint is in the channel (step 6 of Table 3), whose log is now deepest (R235); or a difference between the two copies is a
split, and the checkpoint is discarded (R233). -/
def checkpointLoaded (n : Nat) (written : Bool) (h : Hub) : Hub :=
  if chState h n ≠ 4 then h
  else if copiesAgree h written then
    peak (setChannel h n { channel h n with loaded := some (stampNs h 0) }) 0x4202_04 (replayDepth h n)
  else split 3 0 (setChannel h n { channel h n with loaded := none, point := none })

def execCheckpointLoaded (n : Fin 3) (same : Bool) (s : State) : Host.Outcome State Fault Refusal := onHub s (checkpointLoaded n same)

/-- REPLAY_CAUGHT_UP (R231, R234): with its log executed from the checkpoint, by the logic that the voting channels ran on the same ticks, the
channel's copy is the live control state again (assumption log 60), but for the bits that faults have inverted meanwhile. -/
def execReplayCaughtUp (n : Fin 3) (upsets : List (Nat × Word)) (s : State) : Host.Outcome State Fault Refusal :=
  onHub s fun h =>
    if chState h n = 4 ∧ (channel h n).loaded.isSome then
      wrs (setChannel h n { channel h n with abandoned := 0, copy := some (upsets.foldl (fun t u => flipSlice u.1 u.2 t) []), point := none, log := [] })
        [(chKey n 1, 5), (chKey n 0x0C, (stampNs h 0 - (channel h n).replayAt) / 1000)]
    else h

/-- REPLAY_LOG_FULL (R235): the third abandoned attempt in a row fails the channel. -/
def replayLogFull (n : Nat) (h : Hub) : Hub :=
  if chState h n ≠ 4 then h
  else
    let k := (channel h n).abandoned + 1
    let a := peak (raiseEvent (setChannel h n { channel h n with abandoned := k }) 0x17 n 0) 0x4202_04 8192
    if 3 ≤ k then failChannel n 7 a else startReplay n a

def execReplayLogFull (n : Fin 3) (s : State) : Host.Outcome State Fault Refusal := onHub s (replayLogFull n)

/-- PROBATION_EXPIRY (R231). -/
def execProbationExpiry (n : Fin 3) (s : State) : Host.Outcome State Fault Refusal :=
  onHub s fun h => if chState h n = 5 then rejoin n h else h

/-- A channel a release may name: FAILED, or waiting in EXCLUDED (R240). -/
def releasable (h : Hub) (n : Nat) : Bool := chState h n == 6 || (chState h n == 2 && (channel h n).passed)

/-- On entry to DORMANT a recovery in progress is abandoned; the exclusion records stay (R241). -/
def channelsSleep (h : Hub) : Hub :=
  forEach (List.range 3) (fun n g =>
    let a := setChannel g n { channelInit with
      exclusions := (channel g n).exclusions, copy := if chState g n = 1 then some [] else none }
    if chState g n = 1 ∨ chState g n = 6 then a else wr a (chKey n 1) 2) h

/-- A release clears the exclusion record and starts the recovery at step 2; the fault's cause is gone once no channel is
FAILED. -/
def releaseChannel (n : Nat) (h : Hub) : Hub :=
  let a := wrs (setChannel h n { channelInit with copy := none }) [(chKey n 1, 3)]
  if (List.range 3).any fun m => chState a m == 6 then a else causeGone 0x0A a

/-- CHANNEL_RELEASE (R240). -/
def execChannelRelease (p : Path) (value : Nat) (s : State) : Host.Outcome State Fault Refusal :=
  onHub s (pathWrite p 0x2207 6 value
    (fun h c => { c with value := (c.value || decide (2 < value) || !releasable h value) }) (releaseChannel value))

end Sys2Proof.Machine
end

