-- ==== Sys2Proof/Machine/Resets.lean ====
section
/-! DEFINITION. What a reset and a loss of power keep, and the start of BOOT (R44, R52 to R62, R603, R699, R702, R708, R782). -/

namespace Sys2Proof.Machine

/-- A copy whose store did not end: no valid record (R105, R106). -/
def brokenCopy : ConfigCopy := { seq := 0, version := 0, entries := [], tag := 0, marked := true }

/-- A store cut short leaves only the other copy (R106). -/
def cutStore (h : Hub) : Hub :=
  match h.store.job with
  | some j => if j.toB then { h with copyB := some brokenCopy } else { h with copyA := some brokenCopy }
  | none => h

/-- The always-on copy of the first-error capture: the present capture, or the copy of an earlier one (R702). -/
def captureCopy (h : Hub) : List Word :=
  if rd h 0x4E01_01 = 0 then h.watch.previous else (List.range 5).map fun k => rdW h (0x4E01_01 + k)

/-- A hub with nothing but its flash, its fuses and what the board drives; the count of free values runs on. -/
def keepFlash (h0 : Hub) : Hub :=
  let h := cutStore h0
  { Hub.reset with
    freeCount := h.freeCount
    env := h.env
    copyA := h.copyA
    copyB := h.copyB
    dome := { Hub.reset.dome with srk := h.dome.srk, ceiling := h.dome.ceiling, generation := h.dome.generation }
    update := { Hub.reset.update with
      slotA := h.update.slotA, slotB := h.update.slotB, floor := h.update.floor, revoked := h.update.revoked } }

/-- The always-on records a reset keeps: the epoch record (R602), the capture copy (R702), the backstop record (R699). -/
def keepAlwaysOn (h k : Hub) : Hub :=
  { k with
    dome := { k.dome with epoch := h.dome.epoch, epochValid := h.dome.epochValid }
    power := { k.power with aonTicks := h.power.aonTicks }
    watch := { k.watch with previous := captureCopy h, backstopRec := h.watch.backstopRec } }

/-- A reset with a cause (R60): every record and reaction ends (R708), every entry takes its default. -/
def resetHub (cause : Nat) (h : Hub) : Hub := wr (keepAlwaysOn h (keepFlash h)) 0x2000_07 cause

/-- A boot status that stays in BOOT: the lowest is recorded (R63). -/
def stopBoot (code : Nat) (h : Hub) : Hub :=
  let s := rd h 0x2000_11
  wr h 0x2000_11 (if s = 0 then code else min s code)

/-- A BOOT self-test fails: status and FLT_BOOT_SELFTEST (R63). -/
def bootFault (code island detail : Nat) (h : Hub) : Hub := raiseFault 0x04 island code detail (stopBoot code h)

/-- The entries whose default is a strap (R7, R70, R737). -/
def strapEntries (straps : Nat) (h : Hub) : Hub :=
  wrs h [(0x2000_08, straps % 65536), (0x2000_0A, bits straps 7 0), (0x2000_0B, bits straps 9 8), (0x2000_0C, bits straps 11 10),
    (0x2000_0D, bits straps 12 12), (0x2000_0E, bits straps 13 13), (0x2000_0F, bits straps 14 14), (0x2000_10, bits straps 15 15),
    (0x4F00_0A, bits straps 11 10)]

/-- The core voltage target written at BOOT step 3 (R683); the die temperature is not known to the rules then: a free value. -/
def avsBoot (h : Hub) : Hub :=
  let f := takeFree h
  { f.2 with power := { f.2.power with avsTarget := some (avsTargetAt (f.1.setWidth 9).toInt f.2) } }

/-- BOOT steps 1 to 3 and 6: straps latched and checked (R53, R57, R782), the host port enabled, a new epoch taken (R603). -/
def bootStart (straps : Nat) (testMode : Bool) (h : Hub) : Hub :=
  let src := bits straps 11 10
  let st := if testMode != (src == 3) then 8 else if bits straps 7 0 = 0xFF then 9 else 0
  let a := wr (strapEntries straps h) 0x2000_11 st
  advanceEpoch false (avsBoot { a with boot := { a.boot with
    latched := true, factoryWait := testMode && src == 3 && st == 0 } })

/-- A reset that does not come from RESET_N: the straps stay as latched (R53), and BOOT starts at once. -/
def restart (cause : Nat) (h : Hub) : Hub := bootStart (rd h 0x2000_08) h.env.testMode (resetHub cause h)

/-- The supplies fall (R58): only the flash is left and, while VDD_AON holds, the always-on records. -/
def powerDown (aonHolds : Bool) (h : Hub) : Hub :=
  let k := keepFlash h
  let a := if aonHolds then keepAlwaysOn h k else k
  { a with env := { a.env with supplies := false, resetLow := true } }

end Sys2Proof.Machine
end

