-- ==== Sys2Proof/Machine/Update.lean ====
section
/-! DEFINITION. Firmware update (R728 to R735): the update commands, chunks, pulling over the ring, loss of power. -/

namespace Sys2Proof.Machine

/-! ### Commands (R728, Table 3) -/

/-- The causes of an update command: outside SERVICE, or in a host-loaded or factory boot, 0x0A; in an update state Table 3
does not give it, 0x04. -/
def updateCauses (states : List Nat) (h : Hub) (c : Causes) : Causes :=
  { c with value := c.value || !states.contains (updateState h)
           other := c.other || mode h != 7 || decide (2 ≤ bootSource h) }

/-- An update command. -/
def updateCommand (p : Path) (code : Nat) (states : List Nat) (more : Hub → Causes → Causes) (f : Hub → Hub) (h : Hub) : Hub :=
  pathWrite p 0x2F01 1 code (fun g c => more g (updateCauses states g c)) f h

/-- The image source is a hub to pull from. -/
def pulls (h : Hub) : Bool := rd h 0x2F01_03 != 0

/-- The load starts with nothing received. -/
def clearLoad (h : Hub) : Hub :=
  { h with update := { h.update with received := [], held := [], requests := [], busy := false } }

/-- REQUEST for a part of the image (Table 4). -/
def pullFrame (tag off len : Nat) (h : Hub) : Hub :=
  originate h 6 0xA .bk (rd h 0x2F01_03) 0x0100 0
    [BitVec.ofNat 48 (tag % 256 * 2 ^ 40 + rd h 0x2F01_04 % 2 * 2 ^ 32 + off % 2 ^ 32), BitVec.ofNat 48 (len % 65536)]

/-- A new request. -/
def pullRequest (off len : Nat) (h : Hub) : Hub :=
  let t := h.update.nextTag
  pullFrame t off len { h with update := { h.update with
    nextTag := (t + 1) % 256, requests := h.update.requests ++ [(t, off, len, 0)] } }

/-- The offset behind the bytes of a DATA frame that wait to be written. -/
def imageWriteEnd : ImageWrite → Nat
  | .data off bs => off + bs.length
  | _ => 0

/-- The first offset not asked for yet. -/
def pullNext (h : Hub) : Nat :=
  (h.update.requests.map (fun r => r.2.1 + r.2.2.1) ++ h.update.held.map imageWriteEnd).foldl max h.update.received.length

/-- Ask on in ascending offsets while the pull window allows (`fuel` bounds the requests). -/
def pullMore : Nat → Hub → Hub
  | 0, h => h
  | n + 1, h =>
    let off := pullNext h
    if h.update.busy ∨ rd h 0x2F01_07 ≤ h.update.requests.length ∨ rd h 0x2F01_02 ≤ off then h
    else pullMore n (pullRequest off (min 1500 (rd h 0x2F01_02 - off)) h)

/-- Begin (R728): the running image secured in the other slot, the strapped slot erased, RECEIVING; a puller asks for the
header first. Another slot that holds the running image CONFIRMED stays as it is. -/
def beginLoad (flashOk : Bool) (h : Hub) : Hub :=
  let o := otherSlot h
  let a := match runningImage h with
    | some x =>
      if slot h o = { x with state := 3, failed := (slot h o).failed } then h
      else setSlot o { x with state := 3, failed := 0 } h
    | none => h
  if ¬ flashOk then loadFails 5 h
  else
    let b := wrs (clearLoad (eraseStrapped a)) [(0x4F00_01, 1), (0x4F00_02, 0), (0x4F00_05, 0)]
    if pulls b then pullRequest 0 512 b else b

/-- FINISH (R728, R730). -/
def execUpdateFinish (path : Path) (s : State) : Host.Outcome State Fault Refusal :=
  onHub s (updateCommand path 2 [1] (fun h c => { c with value := c.value || pulls h }) fun h => wr h 0x4F00_01 2)

/-- Another present hub forbids activation (R732): no answer, in TRIAL, another major, or a minor more than one away. -/
def hubForbids (version : Nat) (answers : List HubAnswer) (n : Nat) : Bool :=
  match answers.find? fun x => x.hub == n && x.answered with
  | none => true
  | some x =>
    x.state == 4 || bits x.version 15 8 != bits version 15 8
      || decide (bits x.version 7 0 + 1 < bits version 7 0 ∨ bits version 7 0 + 1 < bits x.version 7 0)

/-- ACTIVATE is refused under R732. -/
def activateForbidden (answers : List HubAnswer) (h : Hub) : Bool :=
  (othersPresent h).any (hubForbids (slot h (strapped h)).protocol answers)

/-- ACTIVATE (R728, R732): a refusal under R732 records result 0x07; otherwise the strapped slot becomes TRIAL with count 0
and the hub resets. -/
def activate (path : Path) (answers : List HubAnswer) (h : Hub) : Hub :=
  let blocked := updateState h == 3 && mode h == 7 && activateForbidden answers h
  let a := updateCommand path 3 [3] (fun g c => { c with other := c.other || activateForbidden answers g })
    (fun g => answered .accepted
      (restart 3 (setSlot (strapped g) { slot g (strapped g) with state := 2, failed := 0 } g))) h
  if blocked ∧ a.answer = .refused 10 then wr a 0x4F00_0C 7 else a

def execUpdateActivate (path : Path) (answers : List HubAnswer) (s : State) : Host.Outcome State Fault Refusal :=
  onHub s (activate path answers)

/-- ABANDON (R728). -/
def execUpdateAbandon (path : Path) (s : State) : Host.Outcome State Fault Refusal :=
  onHub s (updateCommand path 4 [1, 2, 3] (fun _ c => c) abandonLoad)

/-- CONFIRM (R725). -/
def execUpdateConfirm (path : Path) (s : State) : Host.Outcome State Fault Refusal :=
  onHub s (updateCommand path 5 [4] (fun _ c => c) confirmSlot)

/-- REVERT (R727): the running TRIAL slot becomes BAD and the hub resets with cause 0x05. -/
def revertSlot (h : Hub) : Hub :=
  let b := runningSlot h
  answered .accepted (restart 5 (setSlot b { slot h b with state := 4 } h))

def execUpdateRevert (path : Path) (s : State) : Host.Outcome State Fault Refusal :=
  onHub s (updateCommand path 6 [4] (fun _ c => c) revertSlot)

/-- CONFIRM_DELAY_EXPIRY (R725): the automatic policy, in RUN, LIMP or CLEARING. -/
def execConfirmDelayExpiry (s : State) : Host.Outcome State Fault Refusal :=
  onHub s fun h => if rd h 0x2F01_05 = 0 ∧ serving h ∧ updateState h = 4 then confirmSlot h else h

/-! ### Loading (R729, R730) -/

/-- Bytes put into the received image at an offset. -/
def putBytes (img : List Byte) (off : Nat) (bs : List Byte) : List Byte :=
  img.take off ++ List.replicate (off - img.length) 0 ++ bs ++ img.drop (off + bs.length)

/-- The header is checked as the 512th byte arrives (R730). -/
def headerArrives (before : Nat) (total : Nat) (h : Hub) : Hub :=
  if before < 512 ∧ 512 ≤ h.update.received.length then
    let r := headerResult h h.update.received total
    if r ≠ 0 then loadFails r h else h
  else h

/-- Bytes of the image written to flash, and counted as received. -/
def imageBytes (off : Nat) (bs : List Byte) (h : Hub) : Hub :=
  wr { h with update := { h.update with received := putBytes h.update.received off bs } } 0x4F00_02
    (rd h 0x4F00_02 + bs.length)

/-- The chunk length and offset as set (0x2F02:01, 0x2F02:02). -/
def chunkLength (h : Hub) : Nat := rd h 0x2F02_02
def chunkOffset (h : Hub) : Nat := rd h 0x2F02_01

/-- Bytes an image write that waits will add. -/
def imageWriteSize : ImageWrite → Nat
  | .start _ => 0
  | .chunk bs _ => bs.length
  | .data _ bs => bs.length

/-- Where the next chunk belongs: behind what has been received and what waits. -/
def loadPoint (h : Hub) : Nat := h.update.received.length + (h.update.held.map imageWriteSize).sum

/-- The causes of a chunk: in sequence, within the image, in RECEIVING from the dictionary. -/
def chunkCauses (h : Hub) (c : Causes) : Causes :=
  { c with value := (c.value || chunkOffset h != loadPoint h || chunkLength h == 0 || decide (1200 < chunkLength h)
                      || decide (rd h 0x2F01_02 < chunkOffset h + chunkLength h))
           other := c.other || updateState h != 1 || pulls h }

/-- A chunk's bytes (R729): those beyond the chunk length are ignored. -/
def chunkBytes (h : Hub) (bytes : List Byte) : List Byte :=
  (bytes ++ List.replicate (chunkLength h - bytes.length) 0).take (chunkLength h)

/-- A chunk is written to flash. -/
def chunkWritten (bs : List Byte) (flashOk : Bool) (h : Hub) : Hub :=
  if ¬ flashOk then loadFails 5 h
  else headerArrives h.update.received.length (rd h 0x2F01_02) (imageBytes h.update.received.length bs h)

/-- After bytes pulled: the header gives the image length; further requests go out; the last byte issues finish. -/
def pullOn (before : Nat) (h0 : Hub) : Hub :=
  let first := decide (before < 512 ∧ 512 ≤ h0.update.received.length)
  let h := whenDo first (fun g => wr g 0x2F01_02 (imageField g.update.received 0x1C 4 + 512)) h0
  let a := headerArrives before (rd h 0x2F01_02) h
  if updateState a ≠ 1 then a
  else if a.update.requests.isEmpty ∧ rd a 0x2F01_02 ≤ a.update.received.length then wr a 0x4F00_01 2
  else pullMore 16 a

/-- An image write is made; bytes of a load that has ended are not. -/
def makeImageWrite (w : ImageWrite) (h : Hub) : Hub :=
  match w with
  | .start ok => beginLoad ok h
  | .chunk bs ok => whenDo (updateState h == 1 || updateState h == 2) (chunkWritten bs ok) h
  | .data off bs => whenDo (updateState h == 1) (fun g => pullOn g.update.received.length (imageBytes off bs g)) h

/-- A write runs that goes ahead of image writes: a configuration store or an epoch ceiling write; an SRK record is written in the
command that makes it (R723). -/
def flashTaken (h : Hub) : Bool := h.store.job.isSome || h.dome.writing

/-- An image write waits while another runs ahead of it, and behind those that wait already (R723). -/
def imageWrite (w : ImageWrite) (h : Hub) : Hub :=
  if flashTaken h || !h.update.held.isEmpty then { h with update := { h.update with held := h.update.held ++ [w] } }
  else makeImageWrite w h

/-- Once nothing runs ahead of them, the image writes that wait are made, in their order (R723). -/
def heldImageWrites (h : Hub) : Hub :=
  if flashTaken h then h
  else forEach h.update.held (fun w g => makeImageWrite w { g with update := { g.update with held := g.update.held.drop 1 } }) h

/-- UPDATE_BEGIN (R723, R728). -/
def execUpdateBegin (path : Path) (flashOk : Bool) (s : State) : Host.Outcome State Fault Refusal :=
  onHub s (updateCommand path 1 [0, 3, 5] (fun _ c => c) (imageWrite (.start flashOk)))

/-- A write of the whole chunk entry with its slot `sub`. -/
def chunkWrite (p : Path) (sub : Nat) (bytes : List Byte) (flashOk : Bool) : Hub → Hub :=
  pathWrite p 0x2F02 sub (bytesNat bytes) chunkCauses (fun h => imageWrite (.chunk (chunkBytes h bytes) flashOk) h)

/-- CHUNK_WRITE (R723, R729). -/
def execChunkWrite (path : Path) (bytes : List Byte) (flashOk : Bool) (s : State) : Host.Outcome State Fault Refusal :=
  onHub s (chunkWrite path 3 bytes flashOk)

/-- UPDATE_VERIFY_DONE (R621, R730): STAGED, or FAILED with a result of Table 5; nothing is verified while image writes wait. -/
def verifyDone (result : Nat) (h : Hub) : Hub :=
  if updateState h ≠ 2 ∨ h.update.held ≠ [] then h
  else if result ≠ 0 then loadFails result h
  else
    let x := imageSlot (h.update.received.take (rd h 0x2F01_02))
    wrs (clearLoad (setSlot (strapped h) x h)) [(0x4F00_01, 3), (0x4F00_05, x.version), (0x4F00_0C, 0)]

def execUpdateVerifyDone (result : Nat) (s : State) : Host.Outcome State Fault Refusal := onHub s (verifyDone result)

/-! ### Serving an image (R731) -/

/-- The image asked for: the running one, or the staged one; none where there is no such image in flash. -/
def servedImage (staged : Bool) (h : Hub) : Option FlashSlot :=
  if staged then (if (slot h (strapped h)).state = 1 then some (slot h (strapped h)) else none) else runningImage h

/-- Bytes of a slot's image. -/
def flashBytes (x : FlashSlot) (off len : Nat) : List Byte :=
  match x.image with
  | some bs => (bs.drop off).take len
  | none => (List.range (min len (Config.shippedLength - off))).map fun k => Config.shippedImage (off + k)

/-- DATA (Table 4). -/
def dataFrame (dst tag status off : Nat) (bs : List Byte) (h : Hub) : Hub :=
  originate h 6 0xA .bk dst 0x0200 0
    (BitVec.ofNat 48 (tag % 256 * 2 ^ 40 + status * 2 ^ 32 + off % 2 ^ 32) :: BitVec.ofNat 48 bs.length
      :: bytesWords ((bs.length + 5) / 6) bs)

/-- Hubs served now: those whose last request is within 40 ms, the longest a puller waits between requests. -/
def pullersNow (h : Hub) : List Nat := (h.update.pullers.filter fun e => decide (nowNs h < e.2 + 40000000)).map (·.1)

/-- UPDATE_REQUEST: answered with DATA, busy for a third puller, or no such image. -/
def updateRequest (src tag : Nat) (staged : Bool) (off len : Nat) (h : Hub) : Hub :=
  let others := (pullersNow h).filter (· != src)
  if ¬ sendsOwn h ∨ hubNumber h = 0 then h
  else if 2 ≤ others.length then dataFrame src tag 2 off [] h
  else
    let a := { h with update := { h.update with pullers := tabSet h.update.pullers src (nowNs h) } }
    match servedImage staged a with
    | none => dataFrame src tag 1 off [] a
    | some x => dataFrame src tag 0 off (flashBytes x off (min len 1500)) a

def execUpdateRequest (src tag : Nat) (staged : Bool) (offset length : Nat) (s : State) : Host.Outcome State Fault Refusal :=
  onHub s (updateRequest src tag staged offset length)

/-! ### Pulling (R731) -/

/-- Change the outstanding requests. -/
def setRequests (r : List (Nat × Nat × Nat × Nat)) (h : Hub) : Hub := { h with update := { h.update with requests := r } }

/-- UPDATE_DATA. -/
def updateData (src tag status off : Nat) (bs : List Byte) (h : Hub) : Hub :=
  match h.update.requests.find? fun r => r.1 == tag with
  | none => h
  | some r =>
    if updateState h ≠ 1 ∨ src ≠ rd h 0x2F01_03 ∨ r.2.1 ≠ off then h
    else if status = 1 then loadFails 6 h
    else if status = 2 then { h with update := { h.update with busy := true } }
    else if status ≠ 0 ∨ bs.length ≠ r.2.2.1 then h
    else imageWrite (.data off bs) (setRequests (h.update.requests.filter fun x => x.1 != tag) h)

def execUpdateData (src tag status offset : Nat) (bytes : List Byte) (s : State) : Host.Outcome State Fault Refusal :=
  onHub s (updateData src tag status offset bytes)

/-- PULL_REQUEST_TIMEOUT: sent again up to 3 times, then the load fails with result 0x06. -/
def pullTimeout (tag : Nat) (h : Hub) : Hub :=
  match h.update.requests.find? fun r => r.1 == tag with
  | none => h
  | some r =>
    if updateState h ≠ 1 ∨ h.update.busy then h
    else if 3 ≤ r.2.2.2 then loadFails 6 h
    else
      pullFrame tag r.2.1 r.2.2.1
        (setRequests (h.update.requests.map fun x => if x.1 = tag then (x.1, x.2.1, x.2.2.1, x.2.2.2 + 1) else x) h)

def execPullRequestTimeout (tag : Nat) (s : State) : Host.Outcome State Fault Refusal := onHub s (pullTimeout tag)

/-- PULL_BUSY_WAIT: 1 s after a busy answer, what is outstanding is asked for again. -/
def pullBusyWait (h : Hub) : Hub :=
  if updateState h ≠ 1 ∨ ¬ h.update.busy then h
  else
    let a := { h with update := { h.update with busy := false } }
    forEach a.update.requests (fun r g => pullFrame r.1 r.2.1 r.2.2.1 g) a

def execPullBusyWait (s : State) : Host.Outcome State Fault Refusal := onHub s pullBusyWait

/-- POWER_LOSS (R58, R106). -/
def execPowerLoss (aonHolds : Bool) (s : State) : Host.Outcome State Fault Refusal := onHub s (powerDown aonHolds)

end Sys2Proof.Machine
end

