-- ==== Sys2Proof/Machine/Startup.lean ====
section
/-! DEFINITION. Start-up and modes (R43 to R70): power and RESET_N, the BOOT steps, FACTORY, mode requests, the
commissioning gate, entry to RUN. -/

namespace Sys2Proof.Machine

/-! ### Power and RESET_N (R52 to R54, R57, R60, R776) -/

/-- POWER_ON: supplies valid with RESET_N low, so every pad follows STRAP[13]; reset cause 0x01. -/
def powerOn (straps : Nat) (testMode : Bool) (h : Hub) : Hub :=
  if h.env.supplies ∧ ¬ h.env.resetLow then h
  else
    let a := resetHub 1 h
    { a with env := { straps := straps % 65536, testMode, resetLow := true, supplies := true } }

def execPowerOn (straps : Nat) (testMode : Bool) (s : State) : Host.Outcome State Fault Refusal := onHub s (powerOn straps testMode)

/-- RESET_N low for a time in ns: up to 200 ns it is ignored, below 10 µs it may or may not reset the hub (a free bit). -/
def resetFall (widthNs : Nat) (h : Hub) : Hub :=
  if h.env.resetLow ∨ ¬ h.env.supplies ∨ widthNs ≤ 200 then h
  else
    let f := takeFree h
    let g := if widthNs < 10000 then f.2 else h
    if widthNs < 10000 ∧ ¬ f.1.getLsbD 0 then g
    else
      let a := resetHub 2 g
      { a with env := { a.env with resetLow := true } }

def execResetNFall (widthNs : Nat) (s : State) : Host.Outcome State Fault Refusal := onHub s (resetFall widthNs)

/-- RESET_N_RISE: straps and TEST_MODE sampled (R53, R56), BOOT starts. -/
def resetRise (straps : Nat) (testMode : Bool) (h : Hub) : Hub :=
  if ¬ h.env.resetLow ∨ ¬ h.env.supplies then h
  else bootStart straps testMode
    { h with env := { h.env with straps := straps % 65536, testMode, resetLow := false } }

def execResetNRise (straps : Nat) (testMode : Bool) (s : State) : Host.Outcome State Fault Refusal :=
  onHub s (resetRise straps testMode)

/-! ### BOOT (R61 to R64) -/

/-- In BOOT, with the straps latched, before BOOT is complete. -/
def booting (h : Hub) : Bool := mode h == 1 && h.boot.latched && !h.boot.complete

/-- BOOT_MEMORY_INIT_DONE (step 4). -/
def memoryInitDone (ok : Bool) (h : Hub) : Hub :=
  if ¬ booting h ∨ h.boot.memDone then h
  else
    let a := { h with boot := { h.boot with memDone := true, memOk := ok } }
    if ok then a else bootFault 7 0x00 0 a

def execBootMemoryInitDone (ok : Bool) (s : State) : Host.Outcome State Fault Refusal := onHub s (memoryInitDone ok)

/-- KNOWN_ANSWER_TESTS_DONE (step 5, R622, R623). -/
def knownAnswerDone (results : Nat) (h : Hub) : Hub :=
  if ¬ booting h ∨ h.boot.katDone then h
  else
    let a := withApproved (testResults results) h
    let ok := domeServes a
    let b := { a with boot := { a.boot with katDone := true, katOk := ok } }
    if ok then b else bootFault 6 0x12 0 b

def execKnownAnswerTestsDone (results : Nat) (s : State) : Host.Outcome State Fault Refusal := onHub s (knownAnswerDone results)

/-- Steps 4 and 5 have passed and no status stops BOOT before step 7 (R782); a rejected host image leaves step 7 open. -/
def imageDue (h : Hub) : Bool :=
  booting h && h.boot.memOk && h.boot.katOk && !h.boot.imageDone && (rd h 0x2000_11 == 0 || rd h 0x2000_11 == 5)

/-- An image has been accepted: step 7 ends. -/
def imageAccepted (h : Hub) : Hub := wr { h with boot := { h.boot with imageDone := true } } 0x2000_11 0

/-- IMAGE_VERIFY_DONE (step 7, R62, R593, R724). -/
def imageVerifyDone (okA okB okHost : Bool) (h : Hub) : Hub :=
  if ¬ imageDue h then h
  else if bootSource h ≤ 1 then
    match bootFlash okA okB h with
    | (some a, _) => imageAccepted a
    | (none, a) => stopBoot 4 a
  else if bootSource h = 2 ∧ h.boot.control = 1 then
    if okHost then imageAccepted (imageEntries (imageSlot h.boot.image) { h with boot := { h.boot with control := 2 } })
    else stopBoot 5 { h with boot := { h.boot with control := 3, image := [] } }
  else h

def execImageVerifyDone (okA okB okHost : Bool) (s : State) : Host.Outcome State Fault Refusal :=
  onHub s (imageVerifyDone okA okB okHost)

/-- BOOT_CONTROL_WRITE (R593): the image length starts verification of a host-loaded image. -/
def bootControl (length : Nat) (h : Hub) : Hub :=
  if booting h ∧ bootSource h = 2 ∧ ¬ h.boot.imageDone ∧ h.boot.control ≠ 1 then
    { h with boot := { h.boot with control := 1, image := h.boot.image.take length } }
  else h

def execBootControlWrite (length : Nat) (s : State) : Host.Outcome State Fault Refusal := onHub s (bootControl length)

/-- The Belfry channels and engines a mask names that fail their self-test: FAILED with cause 0x05 (R239), UNUSABLE (R63). -/
def markFailed (channels engines : Nat) (h : Hub) : Hub :=
  let a := forEach (List.range 3) (fun n g => if bit channels n then failChannel n 5 g else g) h
  forEach (List.range 64) (fun n g => if bit engines n then markUnusable n 6 g else g) a

/-- The lowest bit set below n. -/
def lowestBit (n x : Nat) : Nat := ((List.range n).find? fun k => bit x k).getD 0

/-- What one Belfry channel or engines that failed give (R63): 0 none, 0x0002, 0x0003, 0x0007. -/
def selftestStatus (channels engines : Nat) : Nat :=
  let c := popCount 3 channels
  if 2 ≤ c then 7 else if c = 1 then 2 else if engines % 2 ^ 64 ≠ 0 then 3 else 1

/-- Self-tests with a fault: FLT_BOOT_SELFTEST with the failed channel or engine (Table 3 of Watchtower faults and events). -/
def selftestFault (channels engines : Nat) (h : Hub) : Hub :=
  let st := selftestStatus channels engines
  let detail := if channels % 8 ≠ 0 then lowestBit 3 channels else lowestBit 64 engines
  if st = 1 then h else raiseFault 0x04 0x13 st detail h

/-- The hub number of an isolated bench hub: its request, or 1 (Table 4). -/
def benchNumber (h : Hub) : Hub :=
  if bench h then wr { h with ring := { h.ring with role := 3 } } 0x2000_09 (if rd h 0x2000_0A = 0 then 1 else rd h 0x2000_0A) else h

/-- Entry to COMMISSION from BOOT or DORMANT: the stored configuration is loaded (R107). -/
def enterFresh (h : Hub) : Hub :=
  let a := changeMode 2 (benchNumber h)
  { a with store := { a.store with loading := true } }

/-- The backstop's record gives its fault at BOOT step 8 (R699). -/
def backstopRecord (h : Hub) : Hub :=
  match h.watch.backstopRec with
  | some d => raiseFault 0x1E 0x15 d 0 { h with watch := { h.watch with backstopRec := none } }
  | none => h

/-- FIRMWARE_SELFTEST_DONE (steps 8 to 10): the SerDes start; with two or three channels out the hub stays in BOOT. -/
def selftestDone (channels engines : Nat) (h : Hub) : Hub :=
  if ¬ booting h ∨ ¬ h.boot.imageDone then h
  else
    let st := selftestStatus channels engines
    let a := startSerdes (backstopRecord { h with boot := { h.boot with complete := true } })
    let b := wr (selftestFault channels engines (markFailed channels engines a)) 0x2000_11 st
    if st = 7 then b
    else
      let c := whenDo (st == 2) (setLimpCause 0 true) b
      bootSucceeds (enterFresh { c with modes := { c.modes with autoReturn := false } })

def execFirmwareSelftestDone (channelsFailed enginesFailed : Nat) (s : State) : Host.Outcome State Fault Refusal :=
  onHub s (selftestDone channelsFailed enginesFailed)

/-- FACTORY_AUTH_TIMEOUT (R56): no authentication has succeeded in 60 s. -/
def execFactoryAuthTimeout (s : State) : Host.Outcome State Fault Refusal :=
  onHub s fun h =>
    if booting h ∧ h.boot.factoryWait ∧ (session h .host).role ≠ 2 then stopBoot 0xA { h with boot := { h.boot with factoryWait := false } } else h

/-- FACTORY_ENTRY (R56, R64): a crypto officer has authenticated over the host port; every critical security parameter is
zeroised. A hub that failed its memory or known-answer tests stays in BOOT (R63). -/
def factoryEntry (h : Hub) : Hub :=
  if booting h ∧ h.boot.factoryWait ∧ h.boot.memOk ∧ h.boot.katOk ∧ (session h .host).role = 2 then
    let a := changeMode 8 { h with boot := { h.boot with factoryWait := false, complete := true } }
    startSerdes (withApproved zeroise a)
  else h

def execFactoryEntry (s : State) : Host.Outcome State Fault Refusal := onHub s factoryEntry

/-- RANGER_WATCHDOG_EXPIRY (R44): Ranger runs once its image has been accepted. -/
def execRangerWatchdogExpiry (s : State) : Host.Outcome State Fault Refusal :=
  onHub s fun h => if h.env.resetLow ∨ ¬ h.boot.latched ∨ mode h = 6 then h else restart 4 h

/-- SOFTWARE_RESET (R60). -/
def execSoftwareReset (path : Path) (value : Nat) (s : State) : Host.Outcome State Fault Refusal :=
  onHub s (pathWrite path 0x2000 0x14 value
    (fun h c => { c with value := c.value || value != 1
                         mode := c.mode || !(mode h == 2 || mode h == 7 || mode h == 8) })
    fun h => answered .accepted (restart 3 h))

/-! ### The commissioning gate (R65, R67) -/

/-- Gate conditions [4] to [6] (Table 8). -/
def gate4 (h : Hub) : Bool := bench h || (h.dome.srk.isSome && h.dome.persisted && h.dome.next == none)
def gate5 (h : Hub) : Bool := h.forester.placed && h.forester.census.isEmpty && allBound h
def gate6 (h : Hub) : Bool := decide (floorNs h ≤ periodNs h) && decide (ringLoadWords h * 48 ≤ 20 * periodNs h)

/-- 0x2000:12. -/
def gate (h : Hub) : Nat :=
  if mode h = 1 ∨ mode h = 8 then 0
  else b2n (gate0 h) + 2 * b2n (gate1 h) + 4 * b2n (gate2 h) + 8 * b2n (gate3 h) + 16 * b2n (gate4 h) + 32 * b2n (gate5 h)
    + 64 * b2n (gate6 h) + 128 * b2n (!gateSevenBlocked h)

/-- RUN is asked for: a request, autorun, or the return of R68. -/
def runWanted (h : Hub) : Bool := h.modes.runRequest || h.modes.autoReturn || rdB h 0x2000_0F

/-- Conditions of a gate value met that were not met in another. -/
def newlyMet (now before : Nat) : Nat := popCount 8 (now &&& (0xFF ^^^ before))

/-- While blocked, EV_GEN_COMMISSION_BLOCKED is raised again for each further condition met (R67), as sampled at each tick (assumption
log 2). -/
def gateWatch (h : Hub) : Hub :=
  if h.modes.blocked ∧ mode h = 2 then
    let g := gate h
    let a := { h with modes := { h.modes with blockedGate := g } }
    if g = 0xFF then a else forEach (List.range (newlyMet g h.modes.blockedGate)) (fun _ b => raiseEvent b 0x02 0 0) a
  else h

/-- COMMISSION_BLOCKED_TIMEOUT (R67): the gate has stayed closed for 10 s after a request 0x03, or after entry with autorun. A request
0x03 made once the event has been raised starts no new 10 s and no new event of its own (DESIGN CHOICE, assumption log 64). -/
def blockedTimeout (h : Hub) : Hub :=
  if mode h = 2 ∧ (h.modes.runRequest ∨ rdB h 0x2000_0F) ∧ gate h ≠ 0xFF then
    if h.modes.blocked then gateWatch h
    else raiseEvent { h with modes := { h.modes with blocked := true, blockedGate := gate h } } 0x02 0 0
  else h

def execCommissionBlockedTimeout (s : State) : Host.Outcome State Fault Refusal := onHub s blockedTimeout

/-- RUN_ENTRY (R69, R536): the cycles start; a LIMP cause already true takes the hub on to LIMP. -/
def runEntry (h : Hub) : Hub :=
  if mode h = 2 ∧ gate h = 0xFF ∧ runWanted h then
    let slept := rd h 0x2000_03 == 6
    let a := beginCycles (changeMode 3 h)
    let b := { whenDo slept unmaskAll a with modes := { a.modes with autoReturn := false } }
    if rd b 0x2000_06 ≠ 0 then changeMode 4 b else b
  else h

def execRunEntry (s : State) : Host.Outcome State Fault Refusal := onHub s runEntry

/-- LIMP_EXIT (R44): every LIMP cause false for 100 ms. -/
def execLimpExit (s : State) : Host.Outcome State Fault Refusal :=
  onHub s fun h => if mode h = 4 ∧ rd h 0x2000_06 = 0 then changeMode 3 h else h

/-! ### Mode requests (R44 to R47, R67, R68, R525, R526) -/

/-- A mode request: refused with 0x04 from a mode that Table 2 does not allow it from (R44, R11), with 0x08 while a round is
LATE (step 3 of Table 3 of Network sleep, Clearing and wake). -/
def modeRequest (p : Path) (v : Nat) (from_ : List Nat) (more : Hub → Causes → Causes) (f : Hub → Hub) (h : Hub) : Hub :=
  pathWrite p 0x2000 2 v (fun g c => more g { c with
    value := c.value || !from_.contains (mode g), busy := c.busy || roundState g == 4 }) f h

/-- To COMMISSION by request (R68): a hub from RUN, LIMP or CLEARING returns to RUN by itself once the gate opens; nothing is
loaded. -/
def toCommission (h : Hub) : Hub :=
  let served := serving h
  let a := changeMode 2 (whenDo (mode h == 7) leaveService h)
  { a with modes := { a.modes with autoReturn := served } }

def execModeRequestCommission (path : Path) (s : State) : Host.Outcome State Fault Refusal :=
  onHub s (modeRequest path 2 [3, 4, 5, 7] (fun _ c => c) toCommission)

/-- Request 0x03: pending in COMMISSION (R67); it ends CLEARING, as a wake of source 0x20 (Table 4 of Network sleep, Clearing
and wake). -/
def toRun (h : Hub) : Hub :=
  if mode h = 2 then { h with modes := { h.modes with runRequest := true } }
  else changeMode 3 (wakeRecord 0x20 false h)

def execModeRequestRun (path : Path) (s : State) : Host.Outcome State Fault Refusal :=
  onHub s (modeRequest path 3 [2, 5] (fun _ c => c) toRun)

/-- The Clearing set at 0x2D02 may not be used (R525): it is empty, names the CANopen controller, or one in bus-off. -/
def clearingBad (h : Hub) : Bool :=
  let cans := rd h 0x2D02_02
  (rd h 0x2D02_01 == 0 && cans == 0 && rd h 0x2D02_03 % 16 == 0)
    || (List.range 16).any fun c => bit cans c && (isCanopen h c || canState h c == 4 || canState h c == 5)

/-- One resource goes to sleep (Table 4 of Network sleep, Clearing and wake). -/
def sleepResource (j : Nat) (h : Hub) : Hub :=
  let a := { h with sleep := { h.sleep with asleep := h.sleep.asleep ++ [j] } }
  if 32 ≤ j then (if domainState a (j - 32) = 0 then a else groveOff (j - 32) a)
  else if j < 24 then
    let b := attemptFails (j - 8) a
    setCan b (j - 8) { can b (j - 8) with pnErrors := 0 }
  else a

/-- The Clearing set as resources: 32 + g Groves, 8 + c CAN controllers, 24 + p T1S ports. -/
def clearingSet (h : Hub) : List Nat :=
  ((List.range 8).filter fun g => bit (rd h 0x2D02_01) g).map (· + 32)
    ++ ((List.range 16).filter fun c => bit (rd h 0x2D02_02) c).map (· + 8)
    ++ ((List.range 4).filter fun p => bit (rd h 0x2D02_03) p).map (· + 24)

/-- Request 0x05 (R526). -/
def toClearing (h : Hub) : Hub := forEach (clearingSet h) sleepResource (changeMode 5 h)

def execModeRequestClearing (path : Path) (s : State) : Host.Outcome State Fault Refusal :=
  onHub s (modeRequest path 5 [3]
    (fun h c => { c with value := c.value || clearingBad h, busy := c.busy || committed h }) toClearing)

/-- Request 0x07, from a crypto officer session. A hub AHEAD stays in COMMISSION until reset (R378). -/
def execModeRequestService (path : Path) (s : State) : Host.Outcome State Fault Refusal :=
  onHub s (modeRequest path 7 [2, 3, 4, 5] (fun h c => { c with value := c.value || spireState h == 7 }) (changeMode 7))

end Sys2Proof.Machine
end

