-- ==== Sys2Proof/Machine/Dormant.lean ====
section
/-! DEFINITION. DORMANT: the point of no return, entry, and the wake (R241, R387, R518, R522, R603, R615, R647, R663 to R681). -/

namespace Sys2Proof.Machine

/-! ### What survives (R241, R540, R647, R677, R702, R708) -/

/-- Slots that live outside Ranger's memory: general entries, the running image's, wakes and the culprit log, channel health,
fuse temperatures and failed retries, CAN error counters. -/
def survivingSlot (k : Nat) : Bool :=
  let i := k / 256
  let s := k % 256
  (i == 0x2000 && [1, 3, 4, 5, 7, 8, 0x0A, 0x0B, 0x0C, 0x0D, 0x0E, 0x0F, 0x10, 0x11].contains s)
    || i == 0x4F00 || i == 0x100A || (i == 0x2001 && s == 1)
    || i == 0x4D02 || i == 0x4D03 || (i == 0x4D01 && decide (0x0A ≤ s))
    || decide (0x4203 ≤ i ∧ i ≤ 0x4205) || k == 0x4202_01 || k == 0x4202_03
    || (decide (0x3600 ≤ i ∧ i ≤ 0x360F) && (s == 8 || s == 9 || s == 0x0A))
    || (decide (0x4810 ≤ i ∧ i ≤ 0x481F) && (s == 2 || s == 3))

/-- Slots the always-on domain works with while the hub sleeps: wake setups, rails and their timeout, the stop levels of the FC pins
(Table 3 of Operating modes and start-up). -/
def wakeLogicSlot (k : Nat) : Bool :=
  k / 256 == 0x2701 || k / 256 == 0x2D03 || k / 256 == 0x2D12 || k == 0x2D11_07 || k / 256 == 0x4D13

/-- The bus aggregate's save list: each fuse channel's latch, cool-down left and temperatures, each CAN controller's error counters
(R647, R674, assumption log 70). -/
def busSaved (h : Hub) : List Word :=
  ((List.range 16).flatMap fun n =>
    [(fuse h n).latch, ((fuse h n).coolEnd.map (· - busNs h)).getD 0, rd h (fuseKey n 8), rd h (fuseKey n 9), rd h (fuseKey n 0x0A),
     rd h (canStat n 2), rd h (canStat n 3)]).map (BitVec.ofNat 48 ·)

/-- Steps 3 and 4 of Table 5: the lists of the bus aggregate and of Dome are saved; no Grove's list is kept (Table 1). -/
def saveAsleep (h : Hub) : Tab SaveList :=
  (saveWords 10 (domeSaved h) (saveWords 8 (busSaved h) { h with power := { h.power with save := [] } })).power.save

/-- A fuse channel as its save list keeps it: LOCKOUT or SUSPECT, and the cool-down that is left. -/
def savedFuse (now st : Nat) (c : FuseCh) : FuseCh :=
  { fuseInit with latch := (if st = 6 ∨ st = 7 then st else c.latch), coolEnd := c.coolEnd.map (· - now) }

/-- The hub asleep: its flash, always-on records, save lists, and what the wake logic needs. -/
def dormantHub (h : Hub) : Hub :=
  let k := keepAlwaysOn h (keepFlash h)
  { k with
    dict := h.dict.filter fun e => survivingSlot e.1 || wakeLogicSlot e.1
    boot := h.boot
    pads := h.pads
    crossings := h.crossings
    fuses := h.fuses.map fun e => (e.1, savedFuse (busNs h) (fuseState h e.1) e.2)
    channels := h.channels
    spire := { k.spire with acc := h.spire.acc, replicas := h.spire.replicas, holdInc := h.spire.holdInc,
                              holdTime := h.spire.holdTime, holdPart := h.spire.holdPart }
    watch := { k.watch with backstop := h.watch.backstop }
    dome := { k.dome with saved := h.dome.hardware }
    ring := { k.ring with before := hubNumber h }
    sleep := { k.sleep with wakeIn := h.sleep.wakeIn, latched := h.sleep.latched, entering := true }
    power := { k.power with railFailed := h.power.railFailed, save := saveAsleep h } }

/-- Every domain's crossings are drained before it is switched off (R27). -/
def drainAll (h : Hub) : Hub := forEach (List.range 13) drainCrossings h

/-- POINT_OF_NO_RETURN (R518, R539, R675): the attempts end, DORMANT is entered, crossings are drained, outputs and domains go off. -/
def pointOfNoReturn (h : Hub) : Hub :=
  if committed h ∧ serving h then
    dormantHub (changeMode 6 (channelsSleep (wr (drainAll (forEach h.sleep.attempts endAttempt h)) 0x4D01_01 0)))
  else h

def execPointOfNoReturn (s : State) : Host.Outcome State Fault Refusal := onHub s pointOfNoReturn

/-- DORMANT_REACHED (R522, R676): a latched wake acts at once. -/
def dormantReached (h : Hub) : Hub :=
  if mode h = 6 ∧ h.sleep.entering then
    let a := { h with sleep := { h.sleep with entering := false, latched := none } }
    match h.sleep.latched with
    | some j => startWake { a with sleep := { a.sleep with awaiting := [j] } }
    | none => a
  else h

def execDormantReached (s : State) : Host.Outcome State Fault Refusal := onHub s dormantReached

/-! ### Rails (R679, R681) -/

/-- POWER_GOOD_POLL. -/
def powerGoodPoll (r status : Nat) (h : Hub) : Hub :=
  if mode h = 6 ∧ h.power.waking ∧ railManaged h r then
    let a := wr h (0x4D13_01 + r) (status % 65536)
    if railBad status then a
    else { a with power := { a.power with railsGood := r :: a.power.railsGood.filter (· != r) } }
  else h

def execPowerGoodPoll (rail : Fin 4) (status : Nat) (s : State) : Host.Outcome State Fault Refusal :=
  onHub s (powerGoodPoll rail.val status)

/-- POWER_GOOD_TIMEOUT: the rails go off and the wake starts again, three times in all; then the rail is remembered. -/
def powerGoodTimeout (r : Nat) (h : Hub) : Hub :=
  if mode h = 6 ∧ h.power.waking ∧ railManaged h r ∧ ¬ h.power.railsGood.contains r then
    let n := h.power.wakeTries + 1
    if 3 ≤ n then
      { h with power := { h.power with waking := false, railsGood := [], wakeTries := 0, railFailed := some (r, n) } }
    else { h with power := { h.power with railsGood := [], wakeTries := n } }
  else h

def execPowerGoodTimeout (rail : Fin 4) (s : State) : Host.Outcome State Fault Refusal := onHub s (powerGoodTimeout rail.val)

/-! ### Wake (R679, Table 6) -/

/-- Every managed rail is power-good. -/
def railsReady (h : Hub) : Bool := (List.range 4).all fun r => !railManaged h r || h.power.railsGood.contains r

/-- TXDIS_E (p = 0) or TXDIS_W is high: transmit disable (Table 14 of Ring links), and from T_n until the ring ports are powered again
(R537, R675, R679). -/
def txDisable (h : Hub) (p : Nat) : Bool :=
  bit (rd h 0x2100_09) p || (mode h == 6 && !(h.power.waking && railsReady h))

/-- Spire loads the holdover counter rounded up to a whole 4 ns tick (R387). -/
def wholeTick (acc : Nat) : Nat := (acc + 2 ^ 34 - 1) / 2 ^ 34 * 2 ^ 34

/-- Steps 3 to 5: the domains come on with nothing in them but what survived; the straps stand as latched. -/
def powerUp (h : Hub) : Hub :=
  let a := { h with
    dict := h.dict.filter fun e => survivingSlot e.1
    spire := { h.spire with acc := wholeTick h.spire.holdTime, listenAt := wholeTick h.spire.holdTime / 2 ^ 32, lockedAt := wholeTick h.spire.holdTime / 2 ^ 32 }
    pads := []
    power := { h.power with waking := false, railsGood := [], wakeTries := 0 } }
  wr (strapEntries (rd a 0x2000_08) a) 0x4F00_0A (runningSlot h)

/-- Belfry's channels leave reset (R241): VOTING and FAILED stay, any other starts at its self-test. -/
def channelsWake (h : Hub) : Hub :=
  let a := forEach (List.range 3) (fun n g =>
    if chState g n = 1 ∨ chState g n = 6 then g else wr g (chKey n 1) 3) h
  let b := voteMode a
  whenDo (votingCount b != 3) (setLimpCause 0 true) b

/-- A save list that fails its check (R674). -/
def restoreFails (domain : Nat) (h : Hub) : Hub := raiseFault 0x18 0x15 domain 0 (bump h 0x4D10_04)

/-- The bus aggregate's list restored: cool-downs resume (R647); or lost: every channel cools down in full from its
temperature limit, the CAN error counters are 0 (R674); the load of the configuration gives both (`configurationTaken`). -/
def busRestore (ok : Bool) (h : Hub) : Hub :=
  let now := busNs h
  if ok && saveGood h 8 then { h with fuses := h.fuses.map fun e => (e.1, { e.2 with coolEnd := e.2.coolEnd.map (· + now) }) }
  else
    let a := forEach (List.range 16) (fun n g =>
      wrs (fuseLost n now g) [(canStat n 2, 0), (canStat n 3, 0)]) h
    restoreFails 8 { a with power := { a.power with busLost := true } }

/-- Dome's receive contexts restored, or derived again when they are wanted (R615, R674). -/
def domeRestore (ok : Bool) (h : Hub) : Hub :=
  let good := ok && saveGood h 10
  let a := { h with dome := { h.dome with hardware := if good then h.dome.saved else [], saved := [] } }
  if good then a else restoreFails 10 a

/-- The rail of a failed wake is reported at the next entry to COMMISSION (R681). -/
def wakeRailFault (h : Hub) : Hub :=
  match h.power.railFailed with
  | some (r, n) => raiseFault 0x1B 0x15 r n { h with power := { h.power with railFailed := none } }
  | none => h

/-- The image of the running slot serves its entries again. -/
def wakeImage (h : Hub) : Hub :=
  match runningImage h with
  | some x => imageEntries x h
  | none => h

/-- DORMANT_WAKE: steps 3 to 8, once the rails are good. `kat` are the known-answer results; an image that fails resets the
hub with cause 0x05 (R680). -/
def dormantWake (kat : Nat) (imageOk : Bool) (channels engines : Nat) (busOk domeOk : Bool) (h : Hub) : Hub :=
  if ¬ (mode h = 6 ∧ ¬ h.sleep.entering ∧ h.power.waking ∧ railsReady h) then h
  else if ¬ imageOk then restart 5 h
  else
    let a := advanceEpoch false (powerUp h)
    let b := wakeImage (withApproved (testResults kat) a)
    let c := selftestFault channels engines (channelsWake (markFailed channels engines b))
    let d := wakeRailFault (startSerdes (domeRestore domeOk (busRestore busOk c)))
    let e := enterFresh (wr d 0x4D10_0A (min ((nowNs d - h.power.wakeAt) / 1000) (2 ^ 32 - 1)))
    { e with modes := { e.modes with autoReturn := true } }

def execDormantWake (kat : Nat) (imageOk : Bool) (channelsFailed enginesFailed : Nat) (busOk domeOk : Bool) (s : State) :
    Host.Outcome State Fault Refusal :=
  onHub s (dormantWake kat imageOk channelsFailed enginesFailed busOk domeOk)

end Sys2Proof.Machine
end

