-- ==== Sys2Proof/Machine/View.lean ====
section
/-! DEFINITION. What an entry reads as where the hub keeps its content elsewhere than in the entry's register: status words,
instance entries, counters of what is held (the status tables of each chapter). -/

namespace Sys2Proof.Machine

/-- Engine instance entries that show the engine (R433). -/
def engineView (h : Hub) (n sub : Nat) : Option Nat :=
  let g := engine h n
  match sub with
  | 0x02 => some 0
  | 0x04 => some g.pc
  | 0x05 => some g.sr.toNat
  | 0x06 => some g.x.toNat
  | 0x07 => some g.y.toNat
  | 0x08 => some g.cmp.toNat
  | 0x09 => some g.tk.toNat
  | 0x0A => some g.cnt
  | 0x0B => some g.l
  | 0x0C => some (b2n g.m + 2 * b2n g.n + 4 * b2n g.e + 256 * g.p.toNat)
  | 0x0D => some (g.txq.length + 16 * g.rxq.length)
  | 0x0E => some g.iir.toNat
  | 0x0F => some g.ior.toNat
  | 0x14 => some (g.en.toNat + 256 * g.lvl.toNat)
  | _ => none

/-- The same while the Grove is not ON (R665): state 0x07, every other instance entry 0. -/
def engineEntry (h : Hub) (n sub : Nat) : Option Nat :=
  if domainState h (grove n) = 3 ∨ sub = 0 then engineView h n sub else some (if sub = 1 then 7 else 0)

/-- FIFO instance entries (R468). -/
def fifoView (h : Hub) (f sub : Nat) : Option Nat :=
  let x := fifo h f
  match sub with
  | 0x04 => some x.pages
  | 0x05 => some (fifoFill x)
  | 0x06 => some (fifoPackets x)
  | 0x07 => some (b2n x.stop + 2 * b2n x.mark + 4 * b2n (fifoEvent x))
  | 0x09 => some x.read
  | 0x0A => some (if rd h (fifoKey f 1) = 2 then x.next else x.e)
  | 0x0B => some (if rd h (fifoKey f 1) = 1 then fifoL h f else x.limit)
  | 0x0C => some (max (rd h (fifoKey f 0x0C)) (fifoFill x))
  | _ => none

/-- A mask of the numbers below n that satisfy a condition. -/
def maskOf (n : Nat) (c : Nat → Bool) : Nat := ((List.range n).map fun k => b2n (c k) * 2 ^ k).sum

/-- Milliseconds of cool-down that remain, rounded up (0x36nn:0B). -/
def coolLeft (h : Hub) (n : Nat) : Nat :=
  match (fuse h n).coolEnd with
  | some t => (t - busNs h + 999999) / 1000000
  | none => 0

/-- The session entries, for the path that reads them (R617). -/
def sessionView (h : Hub) (p : Path) (sub : Nat) : Option Nat :=
  let c := (session h p).challenge
  match sub with
  | 2 => some ((c.map fun x => x.2.1).getD 0)
  | 3 => some ((c.map fun x => x.2.2.1).getD 0)
  | 7 => some (session h p).role
  | _ => none

/-- Dome's status entries (R630). -/
def domeView (h : Hub) (sub : Nat) : Option Nat :=
  match sub with
  | 0x01 => some (b2n (approved h))
  | 0x03 => some h.dome.epoch
  | 0x04 => some h.dome.ceiling
  | 0x05 => some h.dome.generation
  | 0x16 => some (srkCheck h)
  | _ => none

/-- Watchtower's status entries (R707, R717). -/
def watchView (h : Hub) (index sub : Nat) : Option Nat :=
  match index, sub with
  | 0x1001, _ => some (b2n (!h.watch.records.isEmpty))
  | 0x4E00, 1 => some h.watch.records.length
  | 0x4E00, 2 => some (reaction h)
  | 0x4E03, 0 => none
  | 0x4E03, c => some (faultStatus h c)
  | 0x4E04, 0 => none
  | 0x4E04, k => some (h.watch.previous.getD (k - 1) 0).toNat
  | _, _ => none

/-- The update status entries that show the slots (R737). -/
def updateView (h : Hub) (sub : Nat) : Option Nat :=
  match sub with
  | 0x06 => some h.update.slotA.state
  | 0x07 => some h.update.slotB.state
  | 0x08 => some h.update.slotA.failed
  | 0x09 => some h.update.slotB.failed
  | 0x0B => some h.update.floor
  | _ => none

/-- Belfry's status entries (R216, R247). -/
def belfryView (h : Hub) (index sub : Nat) : Option Nat :=
  if sub = 0 then none
  else if index = 0x4200 then
    if sub ≤ 4 then some (occupancy h (sub - 1)) else if sub = 5 then some (freeCells h)
    else if sub = 6 then some (sharedFree h) else if sub = 0x1A then some (max (rd h 0x4200_1A) (totalOccupancy h)) else none
  else if index = 0x4201 then some (queuedCells h ((sub - 1) / 4) ((sub - 1) % 4))
  else if sub = 5 then some (windowCount h (index - 0x4203))
  else none

/-- The level that a peak entry measures, as it stands: what a read of the peak leaves, so that it counts for the next interval too. -/
def peakLevel (h : Hub) (index sub : Nat) : Nat :=
  if sub = 0x0C ∧ 0x3200 ≤ index ∧ index < 0x3280 then fifoFill (fifo h (index - 0x3200))
  else match index, sub with
    | 0x4200, 0x1A => totalOccupancy h
    | 0x4300, 0x08 => h.canopy.held.length
    | 0x4A00, 0x08 => outCount h 2 false
    | _, _ => 0

/-- Computed content of the single status indices. -/
def statusView (h : Hub) (p : Path) (index sub : Nat) : Option Nat :=
  match index, sub with
  | 0x1010, 1 => some 1
  | 0x1011, 1 => some 1
  | 0x1200, 1 => some (0x600 + rd h 0x4800_01)
  | 0x1200, 2 => some (0x580 + rd h 0x4800_01)
  | 0x2000, 0x12 => some (gate h)
  | 0x2001, 3 => some 0
  | 0x2207, 6 => some 0
  | 0x2303, 2 => some (mapWord0 (mapEntry h (rd h 0x2303_01)))
  | 0x2303, 3 => some (mapWord1 h (rd h 0x2303_01))
  | 0x2B02, k => sessionView h p k
  | 0x4100, 4 => some (headHub h)
  | 0x4100, 5 => some (presentHubs h).length
  | 0x4300, 0x0A => some h.canopy.residences.length
  | 0x4300, 0x0B => some h.canopy.reach.length
  | 0x4400, 3 => some (floorNs h)
  | 0x4400, 0x0B => some (contributionSize h)
  | 0x4500, 0x0F => some (holdoverTime h)
  | 0x4500, 0x15 => some (timeSec (spireTime h))
  | 0x4500, 0x16 => some (timeFrac (spireTime h))
  | 0x4A00, 1 => if pcie h then none else some (if h.boot.latched then 4 else 0)
  | 0x4B00, k => domeView h k
  | 0x4C00, 1 => some (maskOf 16 fun n => fuseState h n == 4)
  | 0x4C00, 2 => some (maskOf 16 fun n => fuseState h n == 6 || fuseState h n == 7)
  | 0x4D01, 2 => some (keepAwake h)
  | 0x4F00, k => updateView h k
  | 0x5001, 4 => some (if pcie h then 0x5003 else 0x5002)
  | _, _ => none

/-- What an entry reads as where its register does not say: none where it does. -/
def view (h : Hub) (p : Path) (index sub : Nat) : Option Nat :=
  if 0x3000 ≤ index ∧ index < 0x3040 then engineEntry h (index - 0x3000) sub
  else if 0x3200 ≤ index ∧ index < 0x3280 then fifoView h (index - 0x3200) sub
  else if 0x3400 ≤ index ∧ index < 0x3440 then
    if sub % 16 = 14 then some (bufInfo h ((index - 0x3400) / 4) ((index - 0x3400) % 4 * 16 + sub / 16))
    else (stagedWord h ((index - 0x3400) / 4) (slotKey index sub)).map BitVec.toNat
  else if 0x3500 ≤ index ∧ index < 0x3504 then if sub = 4 then some (t1sState h (index - 0x3500)) else none
  else if 0x3600 ≤ index ∧ index < 0x3610 then if sub = 0x0B then some (coolLeft h (index - 0x3600)) else none
  else if 0x3800 ≤ index ∧ index < 0x3900 then
    let s := (index - 0x3800) * 16 + sub / 16
    if sub % 16 = 2 then some (defHandle h s) else if sub % 16 = 13 then some (mapWord0 (mapEntry h s)) else none
  else if index = 0x4101 then if sub = 0 then none else some (ringMapEntry h sub)
  else if 0x4200 ≤ index ∧ index ≤ 0x4205 ∧ index ≠ 0x4202 then belfryView h index sub
  else if 0x4810 ≤ index ∧ index < 0x4820 then
    if sub = 1 then some (canState h (index - 0x4810)) else if sub = 0x0A then some (busOffCount h (index - 0x4810)) else none
  else if index = 0x4D12 ∧ 1 ≤ sub ∧ sub ≤ 8 then some (votes h (sub - 1))
  else match watchView h index sub with
    | some v => some v
    | none => statusView h p index sub

/-- Access code of a slot. -/
def slotAcc (index sub : Nat) : Option Acc := (entryRow index sub).map (·.acc)

/-- What a slot reads as, without any latch: 0 for WO (R12), its content else; subindex 0 of a mapped object's index is its
highest mapped subindex (R505). -/
def slotValue (h : Hub) (p : Path) (index sub : Nat) : Nat :=
  if slotAcc index sub = some .wo then 0
  else if 0x6000 ≤ index ∧ sub = 0 then
    (((List.range 256).filter fun m => bits (rd h (mappingKey m)) 22 0 != 0 && bits (rd h (mappingKey m)) 47 32 == index).map
      fun m => bits (rd h (mappingKey m)) 31 24).foldl max 0
  else match view h p index sub with
    | some v => v % 2 ^ 48
    | none => rd h (slotKey index sub)

end Sys2Proof.Machine
end

