-- ==== Sys2Proof/Machine/Watchtower.lean ====
section
/-! DEFINITION. Watchtower's commands (R691 to R717, R780): faults raised and gone, acknowledgement, capture rearm, reaction
writes, fault injection, events, ring events. -/

namespace Sys2Proof.Machine

/-! ### Faults -/

/-- A code of Table 3. -/
def isFault (code : Nat) : Bool := decide (1 ≤ code ∧ code ≤ 0x1E)

/-- FAULT_RAISE: a fault line of Table 3 reaches Watchtower. -/
def execFaultRaise (code island detailA detailB : Nat) (s : State) : Host.Outcome State Fault Refusal :=
  onHub s fun h => if isFault code then raiseFault code island detailA detailB h else h

/-- FAULT_CAUSE_GONE: not for a terminal fault, whose cause ends at reset (R694). -/
def execFaultCauseGone (code : Nat) (s : State) : Host.Outcome State Fault Refusal :=
  onHub s fun h => if faultClass code = 3 then h else causeGone code h

/-! ### Acknowledgement (R697, R704 to R706) -/

/-- End one record; one of FLT_XING_TIMEOUT reopens the crossing it names (R697). -/
def endRecord (code : Nat) (h : Hub) : Hub :=
  match h.watch.records.find? fun e => e.1 == code with
  | some (_, r) => dropRecord code (whenDo (code == 3) (reopen r.detailA) h)
  | none => h

/-- A record an acknowledgement may end: of class 1 or 2, its cause gone. -/
def endable (h : Hub) (code : Nat) : Bool :=
  recordHeld h code && decide (faultClass code < 3) && !causePresent h code

/-- Every record whose cause is gone ends (R704). -/
def endAllRecords (h : Hub) : Hub :=
  withReactions (forEach (List.range 0x1F) fun c g => if endable g c then endRecord c g else g) h

/-- A write to the acknowledge entry. -/
def acknowledgeWrite (p : Path) (v : Nat) : Hub → Hub :=
  pathWrite p 0x2E02 1 v
    (fun h c => { c with
      value := c.value || (v != 0xFF && (!recordHeld h v || faultClass v == 3))
      other := c.other || (v != 0xFF && causePresent h v) })
    (if v = 0xFF then endAllRecords else withReactions (endRecord v))

def execAcknowledge (path : Path) (code : Nat) (s : State) : Host.Outcome State Fault Refusal := onHub s (acknowledgeWrite path code)

def execAcknowledgeAll (path : Path) (s : State) : Host.Outcome State Fault Refusal := onHub s (acknowledgeWrite path 0xFF)

/-- The capture is cleared and rearmed (R701). -/
def rearm (h : Hub) : Hub := wrs h ((List.range 6).map fun k => (0x4E01_01 + k, 0))

/-- A write to the capture rearm entry. -/
def rearmWrite (p : Path) (v : Nat) : Hub → Hub :=
  pathWrite p 0x2E02 2 v (fun _ c => { c with value := c.value || v != 1 }) rearm

def execCaptureRearm (path : Path) (value : Nat) (s : State) : Host.Outcome State Fault Refusal := onHub s (rearmWrite path value)

/-! ### Reactions (R694, R780) -/

/-- The chosen level of a held record, taken at once; an escalated record keeps its escalated level beside it. -/
def chooseLevel (code v : Nat) (h : Hub) : Hub :=
  match h.watch.records.find? fun e => e.1 == code with
  | some (_, r) => putRecord h code { r with chosen := v, level := if r.escalated then r.level else v }
  | none => h

/-- A write to the reaction entry of a fault. -/
def reactionEntry (p : Path) (code v : Nat) : Hub → Hub :=
  pathWrite p 0x2E01 code v
    (fun _ c => { c with value := c.value || entryBad 0x2E01 code v || (isFault code && !levelAllowed (faultClass code) v) })
    fun h => withReactions (chooseLevel code v) (storeEntry 0x2E01 code v h)

def execReactionWrite (path : Path) (code value : Nat) (s : State) : Host.Outcome State Fault Refusal :=
  onHub s (reactionEntry path code value)

/-! ### Fault injection (R710) -/

/-- Act as a real fault would, with every record marked as injected. -/
def injected (f : Hub → Hub) (h : Hub) : Hub :=
  let a := f { h with watch := { h.watch with injecting := true } }
  { a with watch := { a.watch with injecting := h.watch.injecting } }

/-- An injection that waits for its occasion. -/
def arm (point parameter : Nat) (h : Hub) : Hub :=
  { h with watch := { h.watch with armed := h.watch.armed ++ [(point, parameter)] } }

/-- A point and parameter of Table 6. -/
def injectionKnown (point v : Nat) : Bool :=
  match point with
  | 1 => isFault v
  | 2 => decide (v / 256 < 3 ∧ 1 ≤ v % 256 ∧ v % 256 ≤ 0x0B)
  | 3 => decide (v < 3)
  | 4 | 5 => if v % 256 = 5 then decide (v / 256 < 64) else decide (1 ≤ v ∧ v ≤ 4)
  | 6 => decide (v < 65536)
  | 7 => decide (v < 64)
  | 8 => decide (v < 16)
  | 9 => v == 0
  | _ => false

/-- The injection at a point (Table 6). Those of a memory, a crossing, an engine's next edge and the heartbeat wait for the
event they act on. -/
def inject (point v : Nat) (h : Hub) : Hub :=
  match point with
  | 1 => injected (fun g => raiseFault v 0x00 0 0 { g with watch := { g.watch with injected := v :: g.watch.injected } }) h
  | 2 => injected (fun g => voteMinority (v / 256) (v % 256) (takeTick [.command v] g)) h
  | 3 => injected (fun g => treeFault v (takeTick [.command v] g)) h
  | 8 => injected (fun g => if fuseActive (fuseState g v) then fuseTrip v 1 g else g) h
  | _ => arm point v h

/-- Withdrawing ends held injections and drops armed ones: the causes of injected faults are gone (R695). -/
def withdrawAll (h : Hub) : Hub :=
  forEach h.watch.injected causeGone { h with watch := { h.watch with injected := [], armed := [] } }

/-- A write to the injection command entry: 0x0A outside FACTORY, and for a point or parameter that Table 6 does not name. -/
def injectionWrite (p : Path) (v : Nat) : Hub → Hub :=
  pathWrite p 0x2E05 3 v
    (fun h c => { c with
      value := c.value || entryBad 0x2E05 3 v
      other := c.other || mode h != 8 || (v == 1 && !injectionKnown (rd h 0x2E05_01) (rd h 0x2E05_02)) })
    fun h => if v = 1 then inject (rd h 0x2E05_01) (rd h 0x2E05_02) (raiseEvent h 0xAD 0 0) else withdrawAll h

def execInject (path : Path) (s : State) : Host.Outcome State Fault Refusal := onHub s (injectionWrite path 1)

def execWithdraw (path : Path) (s : State) : Host.Outcome State Fault Refusal := onHub s (injectionWrite path 2)

/-! ### Events (R711 to R715) -/

/-- Numbers Table 7 marks reserved. -/
def reservedEvent (e : Nat) : Bool :=
  [0x07, 0x0F, 0x27, 0x4E, 0x4F, 0x66, 0x67, 0x6E, 0x6F, 0x87, 0x8E, 0x8F, 0xAF].contains e || decide (0x33 ≤ e ∧ e ≤ 0x37)
    || decide (0x7C ≤ e ∧ e ≤ 0x7F) || decide (0xA3 ≤ e ∧ e ≤ 0xA7) || decide (0xB8 ≤ e)

/-- EVENT_RAISE: reserved numbers raise nothing (R711). -/
def execEventRaise (number inst value : Nat) (s : State) : Host.Outcome State Fault Refusal :=
  onHub s fun h => if reservedEvent number then h else raiseEvent h number inst value

/-- RING_EVENT: a received ring event frame on an enabled channel (R715). -/
def ringEvent (src channel number inst value sec ns : Nat) (h : Hub) : Hub :=
  if bit (rd h 0x2E20_01) channel then
    let a := wrs h
      [(0x4E12_01 + 3 * channel, src % 256 * 2 ^ 40 + number % 256 * 2 ^ 32 + inst % 256 * 2 ^ 24 + value % 2 ^ 24),
       (0x4E12_02 + 3 * channel, sec), (0x4E12_03 + 3 * channel, ns)]
    raiseEvent (bump a 0x4E00_07) (0xB0 + channel) src (number % 256 * 256 + inst % 256)
  else h

def execRingEvent (src : Nat) (channel : Fin 8) (number inst value sec ns : Nat) (s : State) :
    Host.Outcome State Fault Refusal := onHub s (ringEvent src channel number inst value sec ns)

end Sys2Proof.Machine
end

