-- ==== Sys2Proof/Machine/Checks.lean ====
section
/-! DEFINITION. What a write may not say beyond its type and plain range: the checks single rules make on a value (0x04), on what
the entry is in use for (0x08), and other causes (0x0A). -/

namespace Sys2Proof.Machine

/-! ### Values (code 0x04) -/

/-- Reserves and credit limits break R213. -/
def budgetBad (h : Hub) : Bool :=
  decide (32768 < ((List.range 4).map (reserve h)).sum)
    || (List.range 4).any fun c =>
        let credits := ((List.range 8).map fun p => creditLimit h p c).sum
        decide (reserve h c < credits + 18)

/-- The selector bits of an output target that name it (Table 4 of Cyclic exchange). -/
def targetSelector (v : Nat) : Nat :=
  match bits v 47 44 with
  | 1 => bits v 22 0
  | 2 => bits v 9 0
  | _ => bits v 3 0

/-- Another consumption entry names the target: kind and selector (R342). -/
def targetTaken (h : Hub) (key v : Nat) : Bool :=
  h.dict.any fun e =>
    decide (0x2410_00 ≤ e.1 ∧ e.1 < 0x2420_00 ∧ e.1 % 256 % 3 = 2 ∧ e.1 ≠ key) && bits e.2.toNat 47 44 == bits v 47 44
      && targetSelector e.2.toNat == targetSelector v

/-- An output target breaks Table 4 of Cyclic exchange, R342 or R482. -/
def targetBad (h : Hub) (key v : Nat) : Bool :=
  bits v 43 36 == 255 || match bits v 47 44 with
    | 0 => false
    | 1 => (match holding h (bits v 22 0) with
        | some (4, _, _, _) => false
        | _ => true) || targetTaken h key v
    | 2 => bufDir h (bits v 3 0) (bits v 9 4) != 2 || targetTaken h key v
    | 3 => targetTaken h key v
    | _ => true

/-- A rule record's control field is outside Table 6 or names a reserved operation (Table 7 of Cyclic exchange). -/
def ruleBad (v : Nat) : Bool :=
  decide (0xD ≤ bits v 47 44 ∨ 5 < bits v 43 41 ∨ bits v 31 24 = 255 ∨ bits v 23 22 = 3 ∨ 48 ≤ bits v 21 16)

/-- FIFO settings outside Table 7 of Stream FIFOs, or l ≥ h (R452). -/
def fifoSettingsBad (v : Nat) : Bool :=
  decide (bits v 14 8 < 1 ∨ 100 < bits v 14 8 ∨ bits v 14 8 ≤ bits v 22 16 ∨ bits v 47 32 = 0)

/-- A mapping breaks R505: index, subindex, an object two mappings use, a field that leaves the word. -/
def mappingBad (h : Hub) (m : Nat) (first : Bool) (v : Nat) : Bool :=
  let f1 := if first then v else rd h (mappingKey m)
  let f2 := if first then rd h (mappingKey m + 1) else v
  if first ∧ v = 0 then false
  else
    decide (4 < bits f2 10 8) || decide (48 < bits f2 5 0 + mapWidth (bits f2 10 8)) || (first
      && (decide (bits f1 47 32 < 0x6000 ∨ 0x6FFF < bits f1 47 32 ∨ bits f1 31 24 = 0)
        || (List.range 256).any fun k => k != m && bits (rd h (mappingKey k)) 22 0 != 0
            && bits (rd h (mappingKey k)) 47 24 == bits f1 47 24))

/-- Model parameters break R646. -/
def modelBad (h : Hub) (n : Nat) : Bool :=
  let q := fun k => signed (rd h (fuseModel n k))
  !decide (q 5 < q 7 ∧ q 7 < q 6 ∧ 0 < q 1 ∧ 0 < q 2 ∧ 0 < q 3 ∧ 0 < q 4)

/-- Ramp time above W, one hundredth of the cool-down (R653). -/
def rampBad (h : Hub) (n : Nat) : Bool := decide (rd h (fuseCfg n 8) * 10 < rd h (fuseCfg n 5))

/-- A route to a ring event channel of 0xAE or 0xB0 to 0xB7, or to a channel or pin that does not exist (R713). -/
def routeBad (e v : Nat) : Bool :=
  (bits v 7 6 == 2 && (e == 0xAE || decide (0xB0 ≤ e ∧ e ≤ 0xB7) || decide (7 < bits v 4 0)))
    || (bits v 7 6 == 3 && decide (3 < bits v 4 0))

/-- Consumption entries name a buffer as their target. -/
def bufferNamed (h : Hub) (c b : Nat) : Bool :=
  h.dict.any fun e =>
    decide (0x2410_00 ≤ e.1 ∧ e.1 < 0x2420_00 ∧ e.1 % 256 % 3 = 2) && bits e.2.toNat 47 44 == 2
      && bits e.2.toNat 3 0 == c && bits e.2.toNat 9 4 == b

/-- A CAN buffer setup: direction 0b11, or another direction for a buffer a target names (R482). -/
def setupBad (h : Hub) (c b v : Nat) : Bool :=
  bits v 1 0 == 3 || (bits v 1 0 != bufDir h c b && bufferNamed h c b)

/-- A filter field outside Table 10 of CAN buses. -/
def filterBad (sub v : Nat) : Bool :=
  if sub % 2 = 1 then bits v 31 30 == 3 || bits v 33 32 == 3
  else decide (0x40 < bits v 39 32) && bits v 39 32 != 0xFE

/-- The upper word of a TIME: nanoseconds below 10^9, bits [47:46] zero (R8). -/
def timeHiBad (v : Nat) : Bool := decide (1000000000 ≤ v / 2 ^ 16)

/-- A value a single rule refuses with code 0x04. -/
def specialBad (h : Hub) (index sub v : Nat) : Bool :=
  let key := slotKey index sub
  let g := wr h key v
  if index = 0x2201 ∨ index = 0x2205 then budgetBad g
  else if index = 0x2302 then sub % 3 ≠ 0 && v % 8 != 0
  else if index = 0x2401 ∧ sub = 2 then decide (rd h 0x2401_01 < 2 * v)
  else if 0x2410 ≤ index ∧ index < 0x2420 then sub % 3 == 2 && targetBad h key v
  else if 0x2440 ≤ index ∧ index < 0x2460 then
    let s := (index - 0x2440) * 128 + sub - 1
    defKind h s == 0 && !selectorValid (rd h (defKey s 5)) v
  else if 0x2460 ≤ index ∧ index < 0x2470 then sub % 6 == 3 && ruleBad v
  else if 0x2604 ≤ index ∧ index < 0x2608 then bits v 1 0 == 0 || bits v 3 2 == 3
  else if 0x2710 ≤ index ∧ index < 0x2730 then fifoSettingsBad v
  else if 0x2820 ≤ index ∧ index < 0x2824 then mappingBad h ((index - 0x2820) * 64 + (sub - 1) / 2) (sub % 2 == 1) v
  else if 0x2830 ≤ index ∧ index < 0x2840 then sub == 5 && decide (8 < v % 16)
  else if 0x2910 ≤ index ∧ index < 0x2914 then
    if sub = 5 then bit v 0 && bits v 15 8 == 255
    else (sub == 9 || sub == 0x0A) && ringBad h (index - 0x2910) v
  else if 0x2C10 ≤ index ∧ index < 0x2C20 then
    let n := index - 0x2C10
    ((sub == 5 || sub == 8) && rampBad g n)
      || ((sub == 0x0D || sub == 0x0E) && limitTooHigh (rd g (fuseCfg n 2)) (rd g (fuseCfg n 0x0E)) (rd g (fuseCfg n 0x0D)))
  else if 0x2C20 ≤ index ∧ index < 0x2C30 then modelBad g (index - 0x2C20)
  else if index = 0x2D11 ∧ sub = 5 then decide (v < rd h 0x2D11_04)
  else if index = 0x2E05 ∧ sub = 1 then decide (9 < v)
  else if 0x2E10 ≤ index ∧ index < 0x2E20 then routeBad ((index - 0x2E10) * 16 + sub - 1) v
  else if 0x3000 ≤ index ∧ index < 0x3040 then
    if sub = 2 then v % 256 == 0 || decide (6 < v % 256) else sub == 3 && decide (v < 0x100 ∨ 0xFFFFFF < v)
  else if 0x3200 ≤ index ∧ index < 0x3280 then sub == 8 && (v % 256 == 0 || decide (3 < v % 256))
  else if 0x3400 ≤ index ∧ index < 0x3440 then
    sub % 16 == 1 && setupBad h ((index - 0x3400) / 4) ((index - 0x3400) % 4 * 16 + sub / 16) v
  else if 0x3440 ≤ index ∧ index < 0x3450 then filterBad sub v
  else false

/-! ### Busy (code 0x08) and other causes (code 0x0A) -/

/-- A Grove clock while an engine of the Grove runs (R400), an engine's divider unless it is FREE, HALTED or FAULTED (R401), the
Clearing set in CLEARING (R525), the mailbox while an operation is pending (R100). -/
def specialBusy (h : Hub) (index sub : Nat) : Bool :=
  if index = 0x2601 then (List.range 8).any fun k => engState h (8 * (sub - 1) + k) == 3 || engState h (8 * (sub - 1) + k) == 4
  else if 0x3000 ≤ index ∧ index < 0x3040 ∧ sub = 3 then
    !(domainState h (grove (index - 0x3000)) == 3 && loadable (engState h (index - 0x3000)))
  else if index = 0x2D02 then mode h == 5
  else index == 0x2002 && decide (1 ≤ sub ∧ sub ≤ 5) && h.mailbox.pending.isSome

/-- The on request of a channel a consumption entry names, while serving (R639); the injection entries outside FACTORY (R710);
identifier and data of a receive buffer (R482). -/
def specialOther (h : Hub) (index sub : Nat) : Bool :=
  if 0x3600 ≤ index ∧ index < 0x3610 then sub == 2 && serving h && fuseNamed h (index - 0x3600)
  else if index = 0x2E05 then mode h != 8
  else decide (0x3400 ≤ index ∧ index < 0x3440 ∧ 2 ≤ sub % 16)
    && bufDir h ((index - 0x3400) / 4) ((index - 0x3400) % 4 * 16 + sub / 16) == 1

/-- The causes of an entry with no row of its own. -/
def entryCauses (index sub v : Nat) (h : Hub) (c : Causes) : Causes :=
  { c with value := c.value || entryBad index sub v || specialBad h index sub v
           busy := c.busy || specialBusy h index sub
           other := c.other || specialOther h index sub }

end Sys2Proof.Machine
end

