-- ==== Sys2Proof/Machine/Record.lean ====
section
/-! DEFINITION. The configuration record (R101 to R110, R734): storing, loading with version check and migration, marking the
copies invalid. -/

namespace Sys2Proof.Machine

/-- The register file with every accepted write of a CAN buffer in it, those staged while its frame is on the bus too (R78, R481). -/
def presentDict (h : Hub) : List (Nat × Word) := (forEach (h.can.map (·.2)) (fun c g => writeFields (c.staged.getD []) g) h).dict

/-- The persistent entries whose value differs from their default (R105). -/
def snapshot (h : Hub) : List (Nat × Word) := (presentDict h).filter fun e => persistentEntry (e.1 / 256) (e.1 % 256)

/-- A copy whose tag verifies and that is not marked invalid (R105, R110). -/
def copyValid (h : Hub) (c : Option ConfigCopy) : Bool :=
  match c with
  | some x => !x.marked && x.tag == recordTag h x
  | none => false

/-- Sequence number of a valid copy, 0 of none. -/
def copySeq (h : Hub) (c : Option ConfigCopy) : Nat :=
  match c with
  | some x => if copyValid h c then x.seq else 0
  | none => 0

/-- A record with its tag. -/
def tagged (h : Hub) (c : ConfigCopy) : ConfigCopy := { c with tag := recordTag h c, marked := false }

/-- 0x4001:0B. -/
def validCopies (h : Hub) : Nat := b2n (copyValid h h.copyA) + 2 * b2n (copyValid h h.copyB)

/-- Whether a store writes copy B: the invalid copy, else the one with the lower sequence number (R104). With no valid copy, erased or
not, copy A is written, an invalid copy counts as number 0, and the number goes on modulo 2^32 (DESIGN CHOICE, assumption log 65). -/
def storesB (h : Hub) : Bool :=
  if !copyValid h h.copyA then false else if !copyValid h h.copyB then true else decide (copySeq h h.copyB < copySeq h h.copyA)

/-- Modes in which a store is accepted (R102). -/
def storeMode (h : Hub) : Bool := mode h == 2 || serving h || mode h == 7

/-- A store starts with its snapshot; entries written from now on are not part of it (R102, R677). -/
def startStore (h : Hub) : Hub :=
  wr { h with store := { h.store with
    dirty := false
    job := some { toB := storesB h, seq := (max (copySeq h h.copyA) (copySeq h h.copyB) + 1) % 2 ^ 32, snapshot := snapshot h } } }
    0x2001_04 1

/-- A write to 0x1010:01 (R102, R103). -/
def storeWrite (p : Path) (v : Nat) : Hub → Hub :=
  pathWrite p 0x1010 1 v
    (fun h c => { c with value := c.value || entryBad 0x1010 1 v, busy := c.busy || h.store.job.isSome
                         other := c.other || !storeMode h }) startStore

def execStoreParameters (path : Path) (value : Nat) (s : State) : Host.Outcome State Fault Refusal := onHub s (storeWrite path value)

/-- Write one copy. -/
def setCopy (toB : Bool) (c : ConfigCopy) (h : Hub) : Hub := if toB then { h with copyB := some c } else { h with copyA := some c }

/-- A store ends (R106). -/
def storeEnds (ok : Bool) (h : Hub) : Hub :=
  match h.store.job with
  | none => h
  | some j =>
    let a := { h with store := { h.store with job := none, dirty := h.store.dirty || !ok } }
    if ok then
      let b := setCopy j.toB (tagged h { seq := j.seq, version := rd h 0x2001_01, entries := j.snapshot, tag := 0, marked := false }) a
      raiseEvent (wrTime (wrs b [(0x2001_04, 2), (0x2001_05, j.seq), (0x4001_0B, validCopies b)]) 0x2001_06) 0x05 0 0
    else
      let b := setCopy j.toB brokenCopy a
      raiseEvent (wrs b [(0x2001_04, 3), (0x4001_0B, validCopies b)]) 0x06 0 0

def execStoreComplete (ok : Bool) (s : State) : Host.Outcome State Fault Refusal := onHub s (storeEnds ok)

/-- Both copies are marked invalid (R110). 0x2001:05 keeps its number until the next load or store; a store in progress runs on, and its
end makes its copy valid again (DESIGN CHOICE, assumption log 65). -/
def invalidateCopies (h : Hub) : Hub :=
  let f := fun (c : ConfigCopy) => { c with marked := true }
  { h with copyA := h.copyA.map f, copyB := h.copyB.map f }

/-- A write to 0x1011:01 (R110). -/
def restoreWrite (p : Path) (v : Nat) : Hub → Hub :=
  pathWrite p 0x1011 1 v (fun _ c => { c with value := c.value || entryBad 0x1011 1 v }) invalidateCopies

def execRestoreDefaultParameters (path : Path) (value : Nat) (s : State) : Host.Outcome State Fault Refusal :=
  onHub s (restoreWrite path value)

/-- The present values are confirmed as the configuration (R109). -/
def commitWrite (p : Path) (v : Nat) : Hub → Hub :=
  pathWrite p 0x2001 3 v (fun _ c => { c with value := c.value || v != 1 })
    fun h => { h with store := { h.store with loaded := true } }

def execConfigurationCommit (path : Path) (value : Nat) (s : State) : Host.Outcome State Fault Refusal :=
  onHub s (commitWrite path value)

/-! ### Loading (R107, R108, R734) -/

/-- FLT_DICT_STORE_CORRUPT for a copy that is there and does not verify (R107). -/
def corruptCopy (n : Nat) (c : Option ConfigCopy) (h : Hub) : Hub :=
  if c.isSome && !copyValid h c then raiseFault 0x05 0x13 n 0 h else h

/-- The valid copy with the higher sequence number. -/
def bestCopy (h : Hub) : Option ConfigCopy :=
  if copyValid h h.copyA && (!copyValid h h.copyB || decide (copySeq h h.copyB ≤ copySeq h h.copyA)) then h.copyA
  else if copyValid h h.copyB then h.copyB else none

/-- A record's format version as it is: the major of 0x2001:01, and a minor at most one greater (R108). -/
def formatAccepted (own record : Nat) : Bool :=
  record / 65536 == own / 65536 && decide (record % 65536 ≤ own % 65536 + 1)

/-- The oldest format version the running image migrates (R718, R734). -/
def oldestFormat (h : Hub) : Nat :=
  match runningImage h with
  | some x => x.oldest
  | none => (imageSlot h.boot.image).oldest

/-- An entry this firmware knows, of the persistent set, of a value its type and plain range hold (R108). -/
def entryKnown (e : Nat × Word) : Bool :=
  persistentEntry (e.1 / 256) (e.1 % 256) && !entryBad (e.1 / 256) (e.1 % 256) e.2.toNat

/-- A stored value outside the range that a single rule states (R108). Which hub holds a FIFO is no range: nothing is bound when a
record is loaded, so R342's test of it waits for a write. -/
def storedBad (h : Hub) (index sub v : Nat) : Bool :=
  if 0x2410 ≤ index ∧ index < 0x2420 ∧ sub % 3 = 2 ∧ bits v 47 44 = 1 then bits v 43 36 == 255 || targetTaken h (slotKey index sub) v
  else if index = 0x2802 ∧ sub = 2 then decide (v < 1 ∨ 127 < v)
  else if 0x2810 ≤ index ∧ index < 0x2820 ∧ 1 ≤ sub ∧ sub ≤ 8 then timingBad h (index - 0x2810) sub v
  else if 0x2C10 ≤ index ∧ index < 0x2C20 ∧ sub = 2 then
    decide (v < 10 ∨ 50000 < v) || limitTooHigh v (rd h (fuseCfg (index - 0x2C10) 0x0E)) (rd h (fuseCfg (index - 0x2C10) 0x0D))
  else if index = 0x2E01 then isFault sub && !levelAllowed (faultClass sub) v
  else if 0x3800 ≤ index ∧ index < 0x3900 ∧ sub % 16 = 12 then !([0, 1, 2].contains (bits v 17 16))
  else specialBad h index sub v

/-- Entries ignored at a load are counted at 0x4001:0A (R108). -/
def ignored (n : Nat) (h : Hub) : Hub := wr h 0x4001_0A (min 65535 (rd h 0x4001_0A + n))

/-- The entries this firmware knows, loaded. -/
def knownLoaded (es : List (Nat × Word)) : Hub → Hub := forEach (es.filter entryKnown) fun e g => wrW g e.1 e.2

/-- Load entries: an ignored one keeps its default and is counted. The ranges that depend on other entries are judged with all of the
record loaded, so that the order of its entries plays no part (R108). -/
def loadEntries (es : List (Nat × Word)) (h : Hub) : Hub :=
  let known := es.filter entryKnown
  let a := knownLoaded es h
  let bad := known.filter fun e => storedBad a (e.1 / 256) (e.1 % 256) e.2.toNat
  ignored (es.length - known.length + bad.length) (forEach bad (fun e g => toDefault g e.1) a)

/-- Load the entries of a record of an older format: those migration accepts (R734). -/
def migrateEntries (version : Nat) (es : List (Nat × Word)) (h : Hub) : Hub :=
  let xs := es.filterMap fun e => Config.conversion (rd h 0x4F00_04) version e.1 e.2
  ignored (es.length - xs.length) (loadEntries xs h)

/-- A record whose entries have been loaded is in force (R109, R734). -/
def recordLoaded (c : ConfigCopy) (result : Nat) (h : Hub) : Hub :=
  wrs { h with store := { h.store with loaded := true } } [(0x2001_02, c.version), (0x4F00_0D, result)]

/-- Load a record: as it is, by migration, or not at all. -/
def loadRecord (c : ConfigCopy) (h : Hub) : Hub :=
  if formatAccepted (rd h 0x2001_01) c.version then recordLoaded c 0 (loadEntries c.entries h)
  else if oldestFormat h ≤ c.version ∧ c.version ≤ rd h 0x2001_01 then
    recordLoaded c 1 (migrateEntries c.version c.entries h)
  else wr h 0x4F00_0D 2

/-- What the loaded entries bring about: the first credits of Belfry's input ports, which the spec dates no closer than the reset
(DESIGN CHOICE, assumption log 66), fuse channels (R784, and R674 after a save list of the bus aggregate that was lost), the node ID, placement. A port whose settings 0x2100:01 to :04 the load
changes is not taken back to training, which R170 asks for a write (DESIGN CHOICE, assumption log 67). -/
def configurationTaken (h : Hub) : Hub :=
  let lost := forEach (List.range 16) (fun n g => whenDo h.power.busLost (fuseLost n (busNs h)) g)
    { h with power := { h.power with busLost := false } }
  let a := forEach (List.range 16) (fun n g => setEnable n (rd g (fuseCfg n 1)) (setLimit n (rd g (fuseCfg n 2)) g)) lost
  foresterUpdate (nodeIdUpdate (fillCredits a))

/-- The load ends: copies that do not verify are reported, the counts of 0x4001 and the newest sequence number shown (R107, R108). -/
def loadBegun (h : Hub) : Hub :=
  let a := corruptCopy 1 h.copyB (corruptCopy 0 h.copyA { h with store := { h.store with loading := false } })
  wrs a [(0x4001_0A, 0), (0x4001_0B, validCopies h), (0x2001_05, max (copySeq h h.copyA) (copySeq h h.copyB))]

/-- What was loaded takes effect; nothing waits to be stored. -/
def loadFinished (h : Hub) : Hub :=
  let a := configurationTaken h
  { a with store := { a.store with dirty := false } }

/-- The load ends: the newest valid copy is taken, or none. -/
def loadDone (h : Hub) : Hub :=
  if ¬ h.store.loading then h
  else loadFinished (match bestCopy h with
    | some x => withApproved (loadRecord x) (loadBegun h)
    | none => loadBegun h)

def execConfigurationLoadDone (s : State) : Host.Outcome State Fault Refusal := onHub s loadDone

end Sys2Proof.Machine
end

