-- ==== Sys2Proof/Machine/Access.lean ====
section
/-! DEFINITION. Access to the object dictionary by slot and by entry (R71 to R100): shapes of entries, reads with their latches,
writes with their holds, the host window, requests over the ring, the remote-access mailbox. -/

namespace Sys2Proof.Machine

/-! ### Shapes of entries (R72, R73) -/

/-- How a slot belongs to its entry: alone, as half of a TIME, or in a long entry with its first subindex and length. -/
inductive Shape where
  | single
  | timeLo
  | timeHi
  | long (head bytes : Nat)
deriving DecidableEq, Repr

/-- Type of a slot. -/
def slotTy (index sub : Nat) : Option Ty := (entryRow index sub).map (·.ty)

/-- The long entry a further slot belongs to. -/
def longHead (index : Nat) : Nat → Option (Nat × Nat)
  | 0 => match slotTy index 0 with
    | some (.octets n) => some (0, n)
    | some (.vstring n) => some (0, n)
    | _ => none
  | k + 1 => match slotTy index (k + 1) with
    | some (.octets n) => some (k + 1, n)
    | some (.vstring n) => some (k + 1, n)
    | some .slot => longHead index k
    | _ => none

def shape (index sub : Nat) : Shape :=
  match slotTy index sub with
  | some .timeLo => .timeLo
  | some .timeHi => .timeHi
  | some .slot | some (.octets _) | some (.vstring _) =>
    match longHead index sub with
    | some (f, n) => if n ≤ 6 then .single else .long f n
    | none => .single
  | _ => .single

/-- Slots of an entry of n bytes (R73). -/
def slotsOf (n : Nat) : Nat := (n + 5) / 6

/-- The slots an entry fills from this subindex: 1 where it does not start here. -/
def entrySlots (index sub : Nat) : Nat :=
  match shape index sub with
  | .timeLo => 2
  | .long f n => if f = sub then slotsOf n else 1
  | _ => 1

/-- Bytes of a long entry that a further slot or the first may hold: bytes beyond L are 0 (R73). -/
def cutBytes (n : Nat) (ws : List Word) : List Word := bytesWords (slotsOf n) ((wordsBytes ws).take n)

/-- What a path reads of a long entry's slots. -/
def longContent (h : Hub) (p : Path) (index f n : Nat) : List Word :=
  (List.range (slotsOf n)).map fun j => BitVec.ofNat 48 (slotValue h p index (f + j))

/-! ### Reads (R9, R12, R13, R74, R480) -/

/-- A CAN message buffer's identifier, data, info and stamp: controller, buffer, field. -/
def bufSlot (index sub : Nat) : Option (Nat × Nat × Nat) :=
  if 0x3400 ≤ index ∧ index < 0x3440 ∧ 2 ≤ sub % 16 then
    some ((index - 0x3400) / 4, (index - 0x3400) % 4 * 16 + sub / 16, sub % 16)
  else none

/-- The upper word a path has latched for its slot (R9). -/
def latchedHi (ps : PathState) (key : Nat) : Option Nat := tabFind ps.timeLatch key

/-- Slot j of a long entry a path has latched (R74). -/
def latchedLong (ps : PathState) (head j : Nat) : Option Nat := (tabFind ps.longLatch head).map fun ws => (ws.getD j 0).toNat

/-- Read slot j of a long entry: the first latches the whole (R74). A later slot of an entry the path has not latched returns its
present content (DESIGN CHOICE, assumption log 64). -/
def longRead (p : Path) (index f n j : Nat) (h : Hub) : Nat × Hub :=
  let ps := pathState h p
  if j = 0 then
    (slotValue h p index f, setPath h p { ps with longLatch := tabSet ps.longLatch (slotKey index f) (longContent h p index f n) })
  else ((latchedLong ps (slotKey index f) j).getD (slotValue h p index (f + j)), h)

/-- What an RC entry holds once read: 0 (R12); the lowest output voltage of a fuse channel since its last read is 0xFFFF_FFFF while
there is no sample (R636, Table 8 of Fuse channels). -/
def rcCleared (index sub : Nat) : Nat := if 0x3600 ≤ index ∧ index < 0x3610 ∧ sub = 0x11 then 2 ^ 32 - 1 else 0

/-- What a read of a single slot does beside: an RC entry is cleared (R12), a buffer's info is latched (R480), a T1S port's next
descriptor makes its event ready again (R567). -/
def readEffect (p : Path) (index sub : Nat) (h : Hub) : Hub :=
  if slotAcc index sub = some .rc then wr h (slotKey index sub) (max (rcCleared index sub) (peakLevel h index sub))
  else if 0x3500 ≤ index ∧ index < 0x3504 ∧ (sub = 2 ∨ sub = 3) then
    let t := t1s h (index - 0x3500)
    setT1s h (index - 0x3500) (if sub = 2 then { t with txArmed := true } else { t with rxArmed := true })
  else match bufSlot index sub with
    | some (c, b, 14) => bufLatch p c b h
    | _ => h

/-- What a read of a slot returns, and the hub after it. -/
def slotRead (p : Path) (index sub : Nat) (h : Hub) : Nat × Hub :=
  let key := slotKey index sub
  let ps := pathState h p
  match bufSlot index sub, shape index sub with
  | some (c, b, f), s =>
    if tabHas ps.canLatch (bufKey c b 0) && f != 14 then ((bufRead p c b f h).toNat, h)
    else match s with
      | .long d n => longRead p index d n (sub - d) h
      | _ => (slotValue h p index sub, readEffect p index sub h)
  | none, .timeLo =>
    (slotValue h p index sub, setPath h p { ps with timeLatch := tabSet ps.timeLatch (key + 1) (slotValue h p index (sub + 1)) })
  | none, .timeHi =>
    match latchedHi ps key with
    | some v => (v, setPath h p { ps with timeLatch := tabErase ps.timeLatch key })
    | none => (slotValue h p index sub, h)
  | none, .long f n => longRead p index f n (sub - f) h
  | none, .single => (slotValue h p index sub, readEffect p index sub h)

/-- A read of the barrier entry by the host is a barrier at port 2; another path may not make it (R581). -/
def barrierStart (p : Path) (h : Hub) : Hub :=
  if p = .host then
    putItem 2 .barrier (answered .none { h with host := { h.host with
      barrier := h.host.barrier ++ [{ qspi := none, before := [], width := 8, after := (0, 0) }] } })
  else refuse p 0x2A02 1 9 false h

/-- A refused read; PCIe completes it with Unsupported Request, counted (Table 2, R596). -/
def refuseRead (p : Path) (index sub c : Nat) (h : Hub) : Hub :=
  whenDo (p == .host && pcie h) (fun g => bump g 0x4A00_0B) (refuse p index sub c false h)

/-! ### MSI-X table and pending bit array (R572, R584) -/

/-- A slot of the MSI-X table or the pending bit array in BAR0, served from BOOT step 8 on (R62). -/
def msixSlot (h : Hub) (p : Path) (index sub : Nat) : Bool :=
  p == .host && pcie h && (mode h != 1 || h.boot.complete)
    && ((index == 0xFF00 && decide (sub < 64)) || (index == 0xFF01 && sub == 0))

/-- Eight bytes of the table: even slots a vector's address, odd slots its data [31:0] and control [63:32], whose bit 32 masks
the vector (PCIe 3.0; masked at reset). -/
def msixEntry (h : Hub) (sub : Nat) : Nat := tabGet (sub % 2 * 2 ^ 32) h.host.table sub

/-- A vector is masked. -/
def msixMasked (h : Hub) (v : Nat) : Bool := bit (msixEntry h (2 * v + 1)) 32

/-- Read one of these slots; the pending bit array shows the vectors that wait. -/
def msixRead (index sub : Nat) (h : Hub) : Nat :=
  if index = 0xFF00 then msixEntry h sub else (h.msix.map fun v => 2 ^ v).sum

/-- Write a slot of the table; the pending bit array takes no write. -/
def msixWrite (index sub v : Nat) (h : Hub) : Hub :=
  let x := if sub % 2 = 0 then v % 2 ^ 64 / 4 * 4 else v % 2 ^ 33
  if index = 0xFF00 then { h with host := { h.host with table := tabSet h.host.table sub x } } else h

/-- A read of one slot on a path; it waits for the earlier writes of its path (R77, R90). -/
def readSlot (p : Path) (index sub : Nat) (h0 : Hub) : Hub :=
  if served h0 p ∧ pathWaits h0 p then holdAccess (heldRead p index sub) h0
  else if served h0 p ∧ msixSlot h0 p index sub then answered (.value (msixRead index sub h0)) (hostTlp p 0x4A00_05 h0)
  else if served h0 p then
    let h := readTouch p index sub h0
    match refusalCode (readCauses h index sub) with
    | some c => refuseRead p index sub c h
    | none =>
      if index = 0x2A02 ∧ sub = 1 then barrierStart p h
      else if 0x6000 ≤ index ∧ sub ≠ 0 then processRead p index sub h
      else answered (.value (slotRead p index sub h).1) (slotRead p index sub h).2
  else answered .none h0

/-- BARRIER_READ (R581). -/
def execBarrierRead (path : Path) (s : State) : Host.Outcome State Fault Refusal := onHub s (readSlot path 0x2A02 1)

/-- Largest value of an entry's type. -/
def tyMax (index sub : Nat) : Nat := 2 ^ ((slotTy index sub).map tyBits |>.getD 48) - 1

/-- A hardware update that comes with the read, 0 for none, is applied to what the read left (R13): counts and peaks rise from 0, the
lowest voltage falls to the sample. -/
def hardwareUpdate (index sub update : Nat) (h : Hub) : Hub :=
  if slotAcc index sub ≠ some .rc ∨ update = 0 then h
  else if rcCleared index sub = 0 then wr h (slotKey index sub) (min (rd h (slotKey index sub) + update) (tyMax index sub))
  else wr h (slotKey index sub) (min (rd h (slotKey index sub)) update)

/-- RC_READ (R12, R13). -/
def execRcRead (path : Path) (index sub update : Nat) (s : State) : Host.Outcome State Fault Refusal :=
  onHub s fun h => hardwareUpdate index sub update (readSlot path index sub h)

/-- TIME_LOWER_READ (R9). -/
def execTimeLowerRead (path : Path) (index sub : Nat) (s : State) : Host.Outcome State Fault Refusal :=
  onHub s (readSlot path index sub)

/-- LONG_ENTRY_FIRST_READ (R74). -/
def execLongEntryFirstRead (path : Path) (index sub : Nat) (s : State) : Host.Outcome State Fault Refusal :=
  onHub s (readSlot path index sub)

/-- A 4-byte read of bytes 0 to 3 of a slot (R781): the read of the slot, its upper bits latched for the host window. -/
def hostLowRead (index sub : Nat) (h : Hub) : Hub :=
  let a := readSlot .host index sub h
  match a.answer with
  | .value v => answered (.value (v % 2 ^ 32)) { a with hostHalf := { a.hostHalf with latch := some (slotKey index sub, v / 2 ^ 32) } }
  | _ => a

/-- The present value of a slot, process objects too, with no effect of a read (R781). -/
def presentValue (index sub : Nat) (h : Hub) : Nat :=
  match findMapping h index sub with
  | some m => processValue h m
  | none => slotValue h .host index sub

/-- What a read of a slot meets, a process object whose SIGNAL is not known here too (R506). -/
def slotCauses (h : Hub) (index sub : Nat) : Causes :=
  { readCauses h index sub with
    other := match findMapping h index sub with
      | some m => !signalKnown h (mapping h m).1
      | none => false }

/-- A 4-byte read of bytes 4 to 7 (R781): the latched bits, or the present bits [47:32] with no effect of the read. -/
def hostHighRead (index sub : Nat) (h0 : Hub) : Hub :=
  if ¬ served h0 .host then answered .none h0
  else if msixSlot h0 .host index sub then answered (.value (msixRead index sub h0 / 2 ^ 32)) (hostTlp .host 0x4A00_05 h0)
  else
    let h := readTouch .host index sub h0
    match h.hostHalf.latch, refusalCode (slotCauses h index sub) with
    | some (_, v), _ => answered (.value v) h
    | none, some c => refuseRead .host index sub c h
    | none, none => answered (.value (presentValue index sub h / 2 ^ 32)) h

/-- A host-window read of another size or alignment, or one that spans slots: code 0x07 unless an earlier cause applies (R85, R89); to
the MSI-X table or pending bit array it completes with Unsupported Request (R572). -/
def hostMisread (index sub : Nat) (h0 : Hub) : Hub :=
  if served h0 .host ∧ msixSlot h0 .host index sub then
    answered .unsupported (bump (hostTlp .host 0x4A00_05 h0) 0x4A00_0B)
  else if served h0 .host then
    let h := readTouch .host index sub h0
    refuseRead .host index sub ((refusalCode { readCauses h index sub with size := true }).getD 7) h
  else answered .none h0

/-- A host-window read at byte `off` of a slot by size (R85, R86, R781); it waits for the host's earlier writes (R90). -/
def hostRead (index sub off size : Nat) (h : Hub) : Hub :=
  if served h .host ∧ pathWaits h .host then holdAccess (.hostRead none [] (8 * slotKey index sub + off) size) h
  else if off = 0 ∧ size = 8 then readSlot .host index sub h
  else if off = 0 ∧ size = 4 then hostLowRead index sub h
  else if off = 4 ∧ size = 4 then hostHighRead index sub h
  else hostMisread index sub h

/-- HOST_WINDOW_LOW_READ (R781), and the host window's reads of other sizes and places (R85, R86). -/
def execHostWindowLowRead (slot : SlotName) (span : ByteSpan) (s : State) : Host.Outcome State Fault Refusal :=
  onHub s (hostRead slot.index slot.sub span.offset span.size)

/-! ### Writes that a row of the table has of its own -/

/-- The effect of a row's meaning on the hub. -/
def rowEffect (f : State → Host.Outcome State Fault Refusal) (h : Hub) : Hub :=
  match f { pending := [], hub := h } with
  | .next t => t.hub
  | _ => h

/-- A meaning that takes an operand only the hub's surroundings know: a free value. -/
def withFree (f : Word → State → Host.Outcome State Fault Refusal) (h : Hub) : Hub :=
  let x := takeFree h
  rowEffect (f x.1) x.2

/-- Answers of the other hubs to an activation query (R732): free values. -/
def freeAnswers : List Nat → Hub → List HubAnswer × Hub
  | [], h => ([], h)
  | n :: rest, h =>
    let x := takeFree h
    let y := freeAnswers rest x.2
    ({ hub := n, answered := bit x.1.toNat 0, state := bits x.1.toNat 8 1, mode := bits x.1.toNat 16 9,
       version := bits x.1.toNat 47 32 } :: y.1, y.2)

/-- ACTIVATE by a plain write. -/
def activateWrite (p : Path) (h : Hub) : Hub :=
  let x := freeAnswers (othersPresent h) h
  rowEffect (execUpdateActivate p x.1) x.2

/-- A mode request (R47). -/
def modeWrite (p : Path) (v : Nat) : Option (Hub → Hub) :=
  match v with
  | 2 => some (rowEffect (execModeRequestCommission p))
  | 3 => some (rowEffect (execModeRequestRun p))
  | 5 => some (rowEffect (execModeRequestClearing p))
  | 7 => some (rowEffect (execModeRequestService p))
  | _ => none

/-- An engine command (Table 5 of I/O engines and Groves); a value outside U16 is refused as any entry's (R11). -/
def engineWrite (p : Path) (n : Fin 64) (v : Nat) : Option (Hub → Hub) :=
  if 2 ^ 16 ≤ v then none
  else match v % 256 with
  | 1 => some (rowEffect (execHalt p n))
  | 2 => some (rowEffect (execResume p n))
  | 3 => some (rowEffect (execLoad p n (bits v 15 8)))
  | 4 => some (withFree fun w => execLoadClean p n (bits v 15 8) (w.setWidth 8))
  | 5 => some (withFree fun w => execEngineStep p n (w.setWidth 8))
  | 6 => some (rowEffect (execFlush p n))
  | _ => none

/-- A read command of a FIFO (Table 2 of Stream FIFOs); a value outside U32 is refused as any entry's (R11). -/
def fifoWrite (p : Path) (f : Fin 128) (v : Nat) : Option (Hub → Hub) :=
  if 2 ^ 32 ≤ v then none
  else match v % 256 with
  | 1 => some (rowEffect (execMark p f))
  | 2 => some (rowEffect (execRewind p f))
  | 3 => some (rowEffect (execRelease p f (bits v 23 8)))
  | _ => none

/-- An update command (Table 3 of Firmware update). -/
def updateWrite (p : Path) (v : Nat) : Option (Hub → Hub) :=
  match v with
  | 1 => some (withFree fun w => execUpdateBegin p (w.getLsbD 0))
  | 2 => some (rowEffect (execUpdateFinish p))
  | 3 => some (activateWrite p)
  | 4 => some (rowEffect (execUpdateAbandon p))
  | 5 => some (rowEffect (execUpdateConfirm p))
  | 6 => some (rowEffect (execUpdateRevert p))
  | _ => none

/-- Dome's role requests and commands (R606, R617, R619, R623, R625). -/
def domeWrite (p : Path) (index v : Nat) : Option (Hub → Hub) :=
  match index, v with
  | 0x2B02, 0 => some (rowEffect (execSessionEnd p))
  | 0x2B02, 1 => some (rowEffect (execOperatorRoleRequest p))
  | 0x2B02, 2 => some (rowEffect (execCryptoOfficerRoleRequest p))
  | 0x2B04, 1 => some (rowEffect (execEpochAdvance p))
  | 0x2B04, 2 => some (withFree fun w => execSelfTests p w.toNat)
  | 0x2B04, 3 => some (rowEffect (execZeroise p))
  | _, _ => none

/-- A controller's entries at 0x2810 + c. -/
def canWrite (p : Path) (c : Fin 16) (sub v : Nat) : Option (Hub → Hub) :=
  if 1 ≤ sub ∧ sub ≤ 8 then some (rowEffect (execCanSettingsWrite p c sub v))
  else match sub, v with
    | 9, _ => some (rowEffect (execTransmitRequest p c v))
    | 10, _ => some (rowEffect (execTransmitAbort p c v))
    | 11, 1 => some (rowEffect (execBusOffRestart p c))
    | 11, 2 => some (rowEffect (execClearBusOffRecord p c))
    | _, _ => none

/-- A fuse channel's entries with rows of their own. -/
def fuseWrite (p : Path) (n : Fin 16) (index sub v : Nat) : Option (Hub → Hub) :=
  if index < 0x3000 then
    if sub = 1 then some (rowEffect (execChannelEnableWrite p n v))
    else if sub = 2 then some (rowEffect (execCurrentLimitWrite p n v)) else none
  else match sub, v with
    | 3, 1 => some (rowEffect (execClearLockout p n))
    | 3, 2 => some (rowEffect (execClearSuspect p n))
    | _, _ => none

/-- Single entries whose write is a row of its own. -/
def singleWrite (p : Path) (index sub v : Nat) : Option (Hub → Hub) :=
  match index, sub with
  | 0x1010, 1 => some (storeWrite p v)
  | 0x1011, 1 => some (restoreWrite p v)
  | 0x2000, 0x02 => modeWrite p v
  | 0x2000, 0x14 => some (rowEffect (execSoftwareReset p v))
  | 0x2001, 3 => some (commitWrite p v)
  | 0x2100, 9 => some (rowEffect (execTransmitDisableWrite p v))
  | 0x2207, 6 => some (rowEffect (execChannelRelease p v))
  | 0x2301, 5 => some (rowEffect (execReachFlush p v))
  | 0x2311, 4 => some (rowEffect (execMoveRequestStart p v))
  | 0x2802, 2 => some (rowEffect (execNodeIdWrite p v))
  | 0x2B02, 1 => domeWrite p 0x2B02 v
  | 0x2B03, 8 => some (rowEffect (execInstallCommand p v))
  | 0x2B04, 1 => domeWrite p 0x2B04 v
  | 0x2D04, 1 => some (rowEffect (execWakeConfirmation p v))
  | 0x2D04, 2 => some (rowEffect (execWakeUnmask p v))
  | 0x2E02, 1 => some (acknowledgeWrite p v)
  | 0x2E02, 2 => some (rearmWrite p v)
  | 0x2E05, 3 => some (injectionWrite p v)
  | 0x2F01, 1 => updateWrite p v
  | _, _ => none

/-! ### Remote-access mailbox (R99, R100) -/

/-- The operation ends: its status, and EV_DICT_REMOTE_DONE. -/
def mailboxDone (status : Nat) (h : Hub) : Hub :=
  raiseEvent (wr { h with mailbox := { h.mailbox with pending := none } } 0x2002_06 status) 0x04 0 0

/-- Start an operation (R99): 0x01 read, 0x02 write. -/
def mailboxStart (op : Nat) (h : Hub) : Hub :=
  let n := rd h 0x2002_01
  if n = 0 ∨ n = hubNumber h ∨ n ∉ presentHubs h then mailboxDone 0xFD h
  else
    let t := h.mailbox.nextTag % 256
    let w := op * 2 ^ 40 + t * 2 ^ 32 + rd h 0x2002_02 * 2 ^ 16 + rd h 0x2002_03 * 2 ^ 8 + 1
    originate (wr { h with mailbox := { pending := some t, isRead := op == 1, nextTag := t + 1 } } 0x2002_06 0xFF) 6 4 .mg n 0 0
      (BitVec.ofNat 48 w :: (if op = 2 then [rdW h 0x2002_04] else []))

/-- A write of 0x01 or 0x02 to 0x2002:05. -/
def mailboxWrite (p : Path) (op : Nat) : Hub → Hub :=
  pathWrite p 0x2002 5 op (fun h c => { c with busy := c.busy || h.mailbox.pending.isSome }) (mailboxStart op)

/-- MAILBOX_READ. -/
def execMailboxRead (path : Path) (s : State) : Host.Outcome State Fault Refusal := onHub s (mailboxWrite path 1)

/-- MAILBOX_WRITE. -/
def execMailboxWrite (path : Path) (s : State) : Host.Outcome State Fault Refusal := onHub s (mailboxWrite path 2)

/-- MAILBOX_RESPONSE: the response to the pending operation; any other is ignored. -/
def mailboxResponse (tag status data : Nat) (h : Hub) : Hub :=
  if h.mailbox.pending = some tag then
    mailboxDone status (whenDo (h.mailbox.isRead && status == 0) (fun g => wr g 0x2002_04 data) h)
  else h

def execMailboxResponse (tag status data : Nat) (s : State) : Host.Outcome State Fault Refusal :=
  onHub s (mailboxResponse tag status data)

/-- MAILBOX_TIMEOUT: no response within 10 ms. -/
def execMailboxTimeout (s : State) : Host.Outcome State Fault Refusal :=
  onHub s fun h => if h.mailbox.pending.isSome then mailboxDone 0xFE h else h

/-! ### Writes of one slot -/

/-- The row of its own a write is, if any. -/
def ownWrite (p : Path) (index sub v : Nat) : Option (Hub → Hub) :=
  if index = 0x2002 ∧ sub = 5 ∧ (v = 1 ∨ v = 2) then some (mailboxWrite p v)
  else if index = 0x2100 ∧ 1 ≤ sub ∧ sub ≤ 4 then some (rowEffect (execRingPortRetrain p sub v))
  else if 0x2810 ≤ index ∧ index < 0x2820 then canWrite p (Fin.ofNat 16 (index - 0x2810)) sub v
  else if 0x2C10 ≤ index ∧ index < 0x2C20 then fuseWrite p (Fin.ofNat 16 (index - 0x2C10)) index sub v
  else if index = 0x2E01 ∧ 1 ≤ sub ∧ sub ≤ 30 then some (reactionEntry p sub v)
  else if 0x3000 ≤ index ∧ index < 0x3040 then if sub = 2 then engineWrite p (Fin.ofNat 64 (index - 0x3000)) v else none
  else if 0x3200 ≤ index ∧ index < 0x3280 then
    if sub = 8 then fifoWrite p (Fin.ofNat 128 (index - 0x3200)) v
    else if sub = 3 then some (rowEffect (execPageBudgetWrite p (Fin.ofNat 128 (index - 0x3200)) v)) else none
  else if 0x3500 ≤ index ∧ index < 0x3504 then
    if sub = 1 then some (rowEffect (execTransmitDoorbell p (Fin.ofNat 4 (index - 0x3500)) v)) else none
  else if 0x3600 ≤ index ∧ index < 0x3610 then fuseWrite p (Fin.ofNat 16 (index - 0x3600)) index sub v
  else if 0x3800 ≤ index ∧ index < 0x3900 then
    if sub % 16 = 0 ∨ slotAcc index sub = some .ro then none
    else some (rowEffect (execDefinitionWrite p ((index - 0x3800) * 16 + sub / 16) (sub % 16) v))
  else if 0x6000 ≤ index ∧ index ≤ 0x6FFF ∧ sub ≠ 0 then some (rowEffect (execProcessObjectWrite p index sub v))
  else singleWrite p index sub v

/-- A software vote of a Grove follows its entry (R669, R670). -/
def softwareVote (d v : Nat) (h : Hub) : Hub :=
  if 8 ≤ d then h else if v = 1 then voteReturned d h else groveVoteClear d 1 h

/-- What a stored write brings about at once. -/
def afterWrite (index sub v : Nat) (h : Hub) : Hub :=
  if 0x2201 ≤ index ∧ index ≤ 0x2207 then
    whenDo (index == 0x2202 || index == 0x2205) fillCredits (takeTick [.entry (slotKey index sub) v] h)
  else if index = 0x2501 ∧ sub = 0x0F then todWritten h
  else if index = 0x2D01 ∧ sub = 2 then sleepRequestWritten h
  else if index = 0x2312 then inspectScores h
  else if (index = 0x2000 ∧ sub = 0x10) ∨ index = 0x2802 then whenDo (mode h == 2) nodeIdUpdate h
  else if index = 0x2000 ∧ sub = 0x13 then fuseEvalAll h
  else if 0x3600 ≤ index ∧ index < 0x3610 then fuseEval (index - 0x3600) h
  else if 0x2C10 ≤ index ∧ index < 0x2C30 then fuseEval (index % 16) h
  else if index = 0x2D10 ∧ 1 ≤ sub then softwareVote (sub - 1) v h
  else if 0x2910 ≤ index ∧ index < 0x2914 ∧ sub = 5 then plcaWritten (index - 0x2910) h
  else h

/-- Store a write: a CAN buffer's through its staging (R481), Dome's with its indicator (R616). -/
def storeWritten (p : Path) (index sub v : Nat) (h : Hub) : Hub :=
  match bufSlot index sub with
  | some (c, b, _) => bufUnlatch p c b (bufContent c b [(slotKey index sub, BitVec.ofNat 48 (keptBits index sub v))] h)
  | none =>
    if index = 0x2B01 then withApproved (storeEntry index sub v) h else afterWrite index sub v (storeEntry index sub v h)

/-- Clear the bits of a W1C entry that a write names (R12). -/
def clearBits (index sub v : Nat) (h : Hub) : Hub :=
  wrW h (slotKey index sub) (rdW h (slotKey index sub) &&& ~~~ BitVec.ofNat 48 v)

/-- A write of an entry of one slot. -/
def entryWrite (p : Path) (index sub v : Nat) (h : Hub) : Hub :=
  match ownWrite p index sub v with
  | some f => f h
  | none => pathWrite p index sub v (entryCauses index sub v)
      (fun g => if slotAcc index sub = some .w1c then clearBits index sub v g else storeWritten p index sub v g) h

/-- W1C_WRITE (R14): bits the hub sets in the same clock stay set. -/
def w1cWrite (p : Path) (index sub v hwSet : Nat) (h : Hub) : Hub :=
  let a := entryWrite p index sub v h
  if slotAcc index sub = some .w1c then
    wrW a (slotKey index sub) (rdW a (slotKey index sub) ||| BitVec.ofNat 48 (keptBits index sub hwSet))
  else a

def execW1cWrite (path : Path) (index sub value hwSet : Nat) (s : State) : Host.Outcome State Fault Refusal :=
  onHub s (w1cWrite path index sub value hwSet)

/-! ### TIME and long entries (R10, R75) -/

/-- The lower half a path holds for the upper slot `key`. -/
def heldLower (h : Hub) (p : Path) (key : Nat) : Option Nat := tabFind (pathState h p).timeHeld (key - 1)

/-- Both words of a TIME take effect (R10); what the path has latched of it ends, so that its later reads reflect the write (R78). -/
def timeStore (p : Path) (index sub lo hi : Nat) (h : Hub) : Hub :=
  let x := pathState h p
  let a := setPath h p { x with timeHeld := tabErase x.timeHeld (slotKey index sub)
                                timeLatch := tabErase x.timeLatch (slotKey index (sub + 1)) }
  afterWrite index (sub + 1) hi (storeEntry index (sub + 1) hi (storeEntry index sub lo a))

/-- The lower subindex is held for the path (R10). -/
def timeLowerWrite (p : Path) (index sub v : Nat) : Hub → Hub :=
  pathTry p index sub v (entryCauses index sub v)
    fun h => setPath h p { pathState h p with timeHeld := tabSet (pathState h p).timeHeld (slotKey index sub) v }

/-- The upper subindex applies both words, or is refused with code 0x07 (R10). Where it is refused for another cause the lower word
stays held (DESIGN CHOICE, assumption log 64). -/
def timeUpperWrite (p : Path) (index sub v : Nat) (h0 : Hub) : Hub :=
  pathWrite p index sub v
    (fun h c => let e := entryCauses index sub v h c
      { e with value := e.value || timeHiBad v, size := e.size || (heldLower h p (slotKey index sub)).isNone })
    (fun h => timeStore p index (sub - 1) ((heldLower h p (slotKey index sub)).getD 0) v h) h0

/-- A slot of an entry's present content, that staged for a CAN buffer on the bus too (R75, R481). -/
def presentWord (h : Hub) (p : Path) (index sub : Nat) : Word :=
  match view h p index sub with
  | some v => BitVec.ofNat 48 v
  | none => rdW h (slotKey index sub)

/-- A long entry's present content. -/
def presentLong (h : Hub) (p : Path) (index f n : Nat) : List Word := (List.range (slotsOf n)).map fun j => presentWord h p index (f + j)

/-- What a path holds of a long entry: what it has written so far over the present content (R75). -/
def heldLong (h : Hub) (p : Path) (index f n : Nat) : List Word :=
  match (pathState h p).longHeld with
  | some (k, ws) => if k = slotKey index f then ws else presentLong h p index f n
  | none => presentLong h p index f n

/-- Hold slot j; a write of the entry ends its latch (R74, R75). -/
def holdLong (p : Path) (index f n j v : Nat) (h : Hub) : Hub :=
  let ps := pathState h p
  setPath h p { ps with
    longHeld := some (slotKey index f, (heldLong h p index f n).set j (BitVec.ofNat 48 v))
    longLatch := tabErase ps.longLatch (slotKey index f) }

/-- Nothing is held of a long entry any more, and its latch ends. -/
def dropLong (p : Path) (index f : Nat) (h : Hub) : Hub :=
  let ps := pathState h p
  setPath h p { ps with
    longHeld := ps.longHeld.filter fun e => e.1 != slotKey index f
    longLatch := tabErase ps.longLatch (slotKey index f) }

/-- Store a whole long entry, its bytes beyond L as 0 (R73). -/
def storeLong (p : Path) (index f n : Nat) (ws : List Word) (h : Hub) : Hub :=
  let cells := (cutBytes n ws).zipIdx.map fun e => (slotKey index (f + e.2), e.1)
  match bufSlot index f with
  | some (c, b, _) => bufUnlatch p c b (bufContent c b cells h)
  | none => writeFields cells h

/-- A long entry is written whole, by an access to its slot `sub` (R75, R91, R95): the response and the image chunk by their own
rows. -/
def wholeWrite (p : Path) (index f n sub : Nat) (ws : List Word) (h0 : Hub) : Hub :=
  let h := dropLong p index f h0
  let bs := (wordsBytes ws).take n
  if index = 0x2B02 then responseWrite p sub bs h
  else if index = 0x2F02 then
    let x := takeFree h
    chunkWrite p sub bs (x.1.getLsbD 0) x.2
  else pathWrite p index sub (bytesNat bs) (entryCauses index f 0) (storeLong p index f n ws) h

/-- A write of slot j of a long entry: held, and with the last slot the whole entry (R75). -/
def longWrite (p : Path) (index f n sub v : Nat) (h0 : Hub) : Hub :=
  if sub - f + 1 = slotsOf n then
    wholeWrite p index f n sub ((heldLong h0 p index f n).set (sub - f) (BitVec.ofNat 48 v)) h0
  else pathTry p index sub v (entryCauses index sub v) (holdLong p index f n (sub - f) v) h0

/-- A write of one slot on a path, applied after the path's earlier writes (R77). -/
def writeSlot (p : Path) (index sub v : Nat) (h : Hub) : Hub :=
  if served h p && pathWaits h p then holdAccess (.slotWrite p index sub v) h
  else match shape index sub with
    | .single => entryWrite p index sub v h
    | .timeLo => timeLowerWrite p index sub v h
    | .timeHi => timeUpperWrite p index sub v h
    | .long f n => longWrite p index f n sub v h

/-- TIME_LOWER_WRITE (R10). -/
def execTimeLowerWrite (path : Path) (index sub value : Nat) (s : State) : Host.Outcome State Fault Refusal :=
  onHub s (writeSlot path index sub value)

/-- TIME_UPPER_WRITE (R10). -/
def execTimeUpperWrite (path : Path) (index sub value : Nat) (s : State) : Host.Outcome State Fault Refusal :=
  onHub s (writeSlot path index sub value)

/-- LONG_ENTRY_SLOT_WRITE (R75). -/
def execLongEntrySlotWrite (path : Path) (index sub value : Nat) (s : State) : Host.Outcome State Fault Refusal :=
  onHub s (writeSlot path index sub value)

/-! ### Access sizes (R85 to R88, Table 3) -/

/-- The causes of a write of `v` to a slot: a process object's, or an entry's with the bounds of a TIME's upper word. -/
def slotWriteCauses (index sub v : Nat) (h : Hub) (c : Causes) : Causes :=
  if 0x6000 ≤ index ∧ index ≤ 0x6FFF ∧ sub ≠ 0 then processCauses index sub v h c
  else
    let e := entryCauses index sub v h c
    { e with value := e.value || (shape index sub == .timeHi && timeHiBad v) }

/-- An access of the wrong size or length: code 0x07 unless an earlier cause applies; its value is judged where it brings a whole one. -/
def wrongSize (p : Path) (index sub : Nat) (v : Option Nat) : Hub → Hub :=
  pathTry p index sub (v.getD 0)
    (fun h c =>
      let e := slotWriteCauses index sub (v.getD 0) h c
      { e with value := e.value && v.isSome, size := true }) id

/-- Bits of an entry's slot, a mapped process object's and its subindex 0's too; 0 where there is no entry. -/
def slotBits (h : Hub) (index sub : Nat) : Nat :=
  match slotTy index sub with
  | some t => tyBits t
  | none => if 0x6000 ≤ index ∧ index ≤ 0x6FFF ∧ sub = 0 then 8 else processBits h index sub

/-- An entry wider than 32 bits. -/
def wide (h : Hub) (index sub : Nat) : Bool := decide (32 < slotBits h index sub)

/-- An entry of 32 bits or fewer. -/
def narrow (h : Hub) (index sub : Nat) : Bool := decide (0 < slotBits h index sub) && !wide h index sub

/-- A 4-byte write to bytes 0 to 3 of a wide slot is held (R88). -/
def holdHalf (index sub v : Nat) : Hub → Hub :=
  pathTry .host index sub v (fun _ c => { absent := c.absent, noSub := c.noSub })
    fun h => { h with hostHalf := { h.hostHalf with half := some (slotKey index sub, v % 2 ^ 32) } }

/-- A 4-byte write to bytes 4 to 7: ignored for a narrow entry (R87); with the held half the word takes effect, without it
the write is refused (R88). -/
def hostUpperWrite (index sub v : Nat) (h0 : Hub) : Hub :=
  if narrow h0 index sub then
    pathTry .host index sub v (fun _ c => { absent := c.absent, noSub := c.noSub }) id h0
  else match keepSlot (slotKey index sub) h0.hostHalf.half with
    | some (_, lo) =>
      let a := writeSlot .host index sub (lo + v % 65536 * 2 ^ 32) h0
      { a with hostHalf := { a.hostHalf with half := none } }
    | none => wrongSize .host index sub none h0

/-- A host write to the MSI-X table of 8 bytes, or of 4 in one half; none while the host port is not served. -/
def msixHost (index sub : Nat) (half : Option Bool) (v : Nat) (h : Hub) : Hub :=
  let old := msixEntry h sub
  let x := match half with
    | none => v
    | some false => old / 2 ^ 32 * 2 ^ 32 + v % 2 ^ 32
    | some true => v % 2 ^ 32 * 2 ^ 32 + old % 2 ^ 32
  if served h .host then answered .accepted (msixWrite index sub x (hostTlp .host 0x4A00_04 h)) else answered .none h

/-- A 4-byte host-window write (R87, R88). -/
def hostHalfWrite (index sub : Nat) (upper : Bool) (v : Nat) (h : Hub) : Hub :=
  if served h .host && pathWaits h .host then holdAccess (.hostWrite (8 * slotKey index sub + 4 * b2n upper) 4 v) h
  else if msixSlot h .host index sub then msixHost index sub (some upper) v h
  else if upper then hostUpperWrite index sub v h
  else if wide h index sub then holdHalf index sub v h
  else writeSlot .host index sub (v % 2 ^ 32) h

/-- HOST_WINDOW_HALF_WRITE. -/
def execHostWindowHalfWrite (index sub : Nat) (upper : Bool) (value : Nat) (s : State) : Host.Outcome State Fault Refusal :=
  onHub s (hostHalfWrite index sub upper value)

/-- A write of the host window at byte `off` of a slot by size: 8 bytes at 0, of which bytes 6 and 7 are ignored (R35), or 4 bytes at
0 or 4; any other is refused (R85, R89), to the MSI-X table with Unsupported Request (R572). -/
def hostWrite (index sub off size v : Nat) (h : Hub) : Hub :=
  if served h .host && pathWaits h .host then holdAccess (.hostWrite (8 * slotKey index sub + off) size v) h
  else if off = 0 ∧ size = 8 ∧ msixSlot h .host index sub then msixHost index sub none v h
  else if off = 0 ∧ size = 8 then writeSlot .host index sub (v % 2 ^ 48) h
  else if off % 4 = 0 ∧ size = 4 then hostHalfWrite index sub (off == 4) v h
  else if served h .host ∧ msixSlot h .host index sub then
    answered .unsupported (bump (hostTlp .host 0x4A00_04 h) 0x4A00_0B)
  else wrongSize .host index sub (if off = 0 then some v else none) h

/-- Bytes of an SDO transfer of so many bits (Table 3). -/
def bitsLength (w : Nat) : Nat := if w ≤ 8 then 1 else if w ≤ 16 then 2 else if w ≤ 32 then 4 else 6

/-- The length of an SDO transfer fits the type (Table 3, R92). -/
def sdoLengthOk (h : Hub) (index sub len : Nat) : Bool :=
  match slotTy index sub with
  | some (.octets n) => len == n
  | some (.vstring n) => decide (1 ≤ len ∧ len ≤ n)
  | some t => len == bitsLength (tyBits t)
  | none => len == bitsLength (slotBits h index sub)

/-- A further slot of a long entry is no entry of its own (R73). -/
def furtherSlot (index sub : Nat) : Bool := slotTy index sub == some .slot

/-- A download of the wrong length (R92). -/
def sdoWrongSize (p : Path) (index sub : Nat) (bs : List Byte) (h : Hub) : Hub :=
  wrongSize p index sub (match shape index sub with
    | .long _ _ => none
    | _ => some (bytesNat bs)) h

/-- A write of an entry's bytes over SDO (R91, R92). -/
def sdoWrite (p : Path) (index sub : Nat) (bs : List Byte) (h : Hub) : Hub :=
  if furtherSlot index sub then pathTry p index sub 0 (fun _ c => { c with noSub := true }) id h
  else if !sdoLengthOk h index sub bs.length then sdoWrongSize p index sub bs h
  else match shape index sub with
    | .long f n => wholeWrite p index f n sub (bytesWords (slotsOf n) bs) h
    | _ => writeSlot p index sub (bytesNat bs) h

/-- DICTIONARY_WRITE (R11): an entry's value in so many bytes on a path; over the ring one slot of six bytes. -/
def dictionaryWrite (p : Path) (index sub off size v : Nat) (h : Hub) : Hub :=
  match p with
  | .host => hostWrite index sub off size v h
  | .sdo _ => sdoWrite p index sub (natBytes size v) h
  | .ring _ => if size = 6 then writeSlot p index sub v h else wrongSize p index sub (some v) h

/-- DICTIONARY_WRITE; the offset within the slot is the host window's alone. -/
def execDictionaryWrite (path : Path) (index sub : Nat) (span : ByteSpan) (value : Nat) (s : State) :
    Host.Outcome State Fault Refusal :=
  onHub s (dictionaryWrite path index sub span.offset span.size value)

/-! ### Access over the ring (R94 to R98) -/

/-- Both words of a TIME at once (R95). -/
def timeWhole (p : Path) (index sub lo hi : Nat) : Hub → Hub :=
  pathWrite p index sub lo
    (fun h c => let e := entryCauses index sub lo h c
      { e with value := e.value || timeHiBad hi || entryBad index (sub + 1) hi })
    (timeStore p index sub lo hi)

/-- All slots of an entry, from its first, without latching (R95). -/
def wholeRead (p : Path) (index sub : Nat) (h : Hub) : List Word :=
  (List.range (entrySlots index sub)).map fun j => BitVec.ofNat 48 (slotValue h p index (sub + j))

/-- Requests whose response waits (R96). -/
def ringOutstanding (h : Hub) : Nat :=
  (h.canopen.writes.countP fun e => match e.2.reply with
    | .ring _ _ => true
    | _ => false)
  + h.host.waiting.countP fun a => match a with
    | .request _ _ _ _ _ _ _ => true
    | _ => false

/-- What is wrong with the form of a request: its slot count (R95), too many outstanding (R96), its operation (Table 2). -/
def requestForm (h : Hub) (op index sub count : Nat) (data : List Nat) : Causes :=
  { size := !(count == 1 || count == entrySlots index sub) || (op == 2 && data.length != count)
    busy := decide (16 ≤ ringOutstanding h)
    other := !(op == 1 || op == 2) }

/-- What its access meets in a write of its first word. -/
def requestWrite (h : Hub) (p : Path) (index sub v : Nat) : Causes := slotWriteCauses index sub v h (writeCauses h p index sub v)

/-- The causes of a request whose form is wrong, in the order of Table 2 with those of its access; none where its form is right: its
access then tests its own. -/
def requestCauses (h : Hub) (p : Path) (op index sub count : Nat) (data : List Nat) : Causes :=
  let f := requestForm h op index sub count data
  let c := if op = 2 then requestWrite h p index sub (data.headD 0) else slotCauses h index sub
  if refusalCode f = none then {}
  else { c with size := c.size || f.size, busy := c.busy || f.busy, other := c.other || f.other }

/-- Perform a request that its form allows. -/
def requestAccess (p : Path) (op index sub count : Nat) (data : List Nat) (h : Hub) : Hub :=
  if op = 1 then
    if count = 1 then readSlot p index sub h
    else match refusalCode (readCauses h index sub) with
      | some c => refuse p index sub c false h
      | none => answered (.bytes (wordsBytes (wholeRead p index sub h))) (touch p h)
  else if count = 1 then writeSlot p index sub (data.headD 0) h
  else match shape index sub with
    | .long f n => wholeWrite p index f n sub (data.map (BitVec.ofNat 48)) h
    | _ => timeWhole p index sub (data.getD 0 0) (data.getD 1 0) h

/-- Word 0 of a response with status 0 (Table 4). -/
def responseHead (op tag index sub : Nat) : Nat :=
  (op + 0x80) % 256 * 2 ^ 40 + tag % 256 * 2 ^ 32 + index % 65536 * 2 ^ 16 + sub % 256 * 2 ^ 8

/-- A response leaves, counted by its status (R94). -/
def sendDictResponse (src w status : Nat) (ws : List Word) (h : Hub) : Hub :=
  let a := originate h 6 4 .mg src 0 0 (BitVec.ofNat 48 (w + status) :: ws)
  if status = 0 then bump a 0x4001_08 else if status = 8 then bump a 0x4001_09 else a

/-- Give a reply to a process object's write that this access started and that waits for its Canopy WRITE. -/
def deferReply (p : Path) (r : Reply) (h : Hub) : Hub :=
  { h with canopen := { h.canopen with
    writes := h.canopen.writes.map fun e => if e.2.path = p ∧ e.2.reply = .none then (e.1, { e.2 with reply := r }) else e } }

/-- Answer a served request from what the access answered. -/
def requestAnswer (waiting : Nat) (src w : Nat) (h : Hub) : Hub :=
  if waiting < h.canopen.writes.length then deferReply (.ring src) (.ring src w) h
  else match h.answer with
    | .accepted => sendDictResponse src w 0 [] h
    | .value v => sendDictResponse src w 0 [BitVec.ofNat 48 v] h
    | .bytes bs => sendDictResponse src w 0 (bytesWords (slotsOf bs.length) bs) h
    | .refused c => sendDictResponse src w c [] h
    | _ => h

/-- Serve a request: perform its access and answer it. -/
def serveDict (src op tag index sub count : Nat) (data : List Nat) (h : Hub) : Hub :=
  requestAnswer h.canopen.writes.length src (responseHead op tag index sub) (requestAccess (.ring src) op index sub count data h)

/-- RING_DICT_REQUEST; a request of the right form waits for the earlier writes of its hub (R77). -/
def ringDictRequest (src dst op tag index sub count : Nat) (data : List Nat) (h : Hub) : Hub :=
  if dst = 255 then bump h 0x4001_09
  else if dst ≠ hubNumber h ∨ ¬ served h (.ring src) then h
  else match refusalCode (requestCauses h (.ring src) op index sub count data) with
    | some c => sendDictResponse src (responseHead op tag index sub) c [] (refuse (.ring src) index sub c (op == 2) h)
    | none =>
      if pathWaits h (.ring src) then holdAccess (.request src op tag index sub count data) h
      else serveDict src op tag index sub count data h

def execRingDictRequest (src dst op tag index sub count : Nat) (data : List Nat) (s : State) :
    Host.Outcome State Fault Refusal :=
  onHub s (ringDictRequest src dst op tag index sub count data)

end Sys2Proof.Machine
end

