-- ==== Sys2Proof/Machine/HostBridge.lean ====
section
/-! DEFINITION. The host bridge (R570 to R596): BAR2 windows, host reads, writes and atomics, the boot window, MSI-X messages, QSPI
commands, resets of the bridge and its link. -/

namespace Sys2Proof.Machine

/-! ### Windows (R284 to R286, R573) -/

/-- A host access cut at every 1,024-byte boundary: offset and length of each piece (`fuel` bounds them). -/
def cutPieces : Nat → Nat → Nat → List (Nat × Nat)
  | 0, _, _ => []
  | k + 1, off, len =>
    let n := min len (1024 - off % 1024)
    if len = 0 then [] else (off, n) :: cutPieces k (off + n) (len - n)

def pieces (off len : Nat) : List (Nat × Nat) := cutPieces (len / 1024 + 2) off len

/-- Where a host offset leads: a Canopy address, or the status of a refusal (R285). -/
def windowTarget (h : Hub) (off : Nat) : Nat × Option Nat :=
  let w := off / 2 ^ 26
  let u := off % 2 ^ 26 / 8 * 8
  let base := rd h (0x2302_01 + 3 * w)
  if rd h (0x2302_02 + 3 * w) ≤ off % 2 ^ 26 ∨ 16 ≤ w then (off, some 0xC)
  else if isLogical base then if 2 ^ 24 ≤ bits base 23 0 + u then (off, some 3) else (base + u, none)
  else if 2 ^ 39 ≤ bits base 38 0 + u then (off, some 3) else (base + u, none)

/-- The class of a window's requests. -/
def windowClass (h : Hub) (off : Nat) : Cls := numCls (rd h (0x2302_03 + 3 * (off / 2 ^ 26)))

/-- Slots a piece touches. -/
def pieceSlots (off n : Nat) : Nat := (off % 8 + n + 7) / 8

/-- Canopy tags of the bridge's requests that are outstanding, wait at its port, or belong to a read not yet answered. -/
def bridgeTagsUsed (h : Hub) : List Nat :=
  (h.canopy.out.filterMap fun o => if o.req.port = 2 then some o.req.tag else none)
    ++ ((portItems h 2).filterMap fun i => match i with
      | .req r => some r.tag
      | .barrier => none)
    ++ (h.host.reads.flatMap fun x => x.pieces.filterMap fun p => if p.result = none then some p.tag else none)

/-- The next Canopy tag of the bridge: the first one in turn that is not in use. -/
def bridgeTag (h : Hub) : Nat × Hub :=
  let t := (((List.range 256).map fun k => (h.host.nextTag + k) % 256).find? fun t => !(bridgeTagsUsed h).contains t).getD
    (h.host.nextTag % 256)
  (t, { h with host := { h.host with nextTag := t + 1 } })

/-- A request of the bridge. -/
def bridgeReq (h : Hub) (tag off n : Nat) (op : COp) (be0 be1 : Nat) (data : List Word) : CReq :=
  { port := 2, tag, cls := windowClass h off, op, addr := (windowTarget h off).1, count := n, be0, be1, data, src := hubNumber h,
    gen := 0, order := 0, home := false, fill := false }

/-! ### Writes (R573, R574, R579, R580) -/

/-- Enabled bytes of slot k, of a write of n bytes at `off`: bytes 0 to 5 that the write names (R574). -/
def slotEnables (off n k : Nat) : Nat :=
  ((List.range 6).map fun j => b2n (decide (off % 8 ≤ 8 * k + j ∧ 8 * k + j < off % 8 + n)) * 2 ^ j).sum

/-- The word of slot k that a write gives. -/
def slotWord (off : Nat) (bs : List Byte) (k : Nat) : Word :=
  BitVec.ofNat 48 (bytesNat ((List.range 6).map fun j => if off % 8 ≤ 8 * k + j then bs.getD (8 * k + j - off % 8) 0 else 0))

/-- One piece of a host write: a Canopy WRITE, or a failure where the window refuses it; none where only bytes 6 and 7 are
written. -/
def writePiece (requester off : Nat) (bs : List Byte) (h : Hub) : Hub :=
  let n := pieceSlots off bs.length
  if (List.range n).all fun k => slotEnables off bs.length k == 0 then h
  else
    let t := bridgeTag h
    let r := bridgeReq h t.1 off n .write (slotEnables off bs.length 0) (slotEnables off bs.length (n - 1))
      ((List.range n).map (slotWord off bs))
    let a := { t.2 with host := { t.2.host with writers := tabSet t.2.host.writers t.1 requester } }
    match (windowTarget h off).2 with
    | some st => writeFailed r st a
    | none => putItem 2 (.req r) a

/-- A host write through the windows. -/
def apertureWrite (requester off : Nat) (bs : List Byte) (h : Hub) : Hub :=
  forEach (pieces off bs.length) (fun x g => writePiece requester x.1 ((bs.drop (x.1 - off)).take x.2) g) h

/-- While in BOOT with the host as boot source the boot window is all of BAR2 that is served (R592). -/
def bootWindow (h : Hub) : Bool := mode h == 1 && bootSource h == 2

/-- The Canopy windows of BAR2 are not served: until BOOT step 8 ends (R62), and in BOOT with a boot window (R592). -/
def apertureShut (h : Hub) : Bool := booting h || bootWindow h

/-- Image bytes and the control word (R593): no image byte is taken while a verification runs. -/
def bootWrite (off : Nat) (bs : List Byte) (h : Hub) : Hub :=
  if off = 0x800000 ∧ bs.length = 4 then bootControl (bytesNat bs) h
  else if off + bs.length ≤ 0x800000 ∧ h.boot.control ≠ 1 then { h with boot := { h.boot with image := putBytes h.boot.image off bs } }
  else h

/-- BAR2 is served: the PCIe host port, latched, outside DORMANT. -/
def barServed (h : Hub) : Bool := pcie h && served h .host

/-- BAR2_WRITE. -/
def bar2Write (off : Nat) (bs : List Byte) (poisoned : Bool) (requester : Nat) (h0 : Hub) : Hub :=
  if !barServed h0 then h0
  else
    let h := bump h0 0x4A00_04
    if poisoned then raiseEvent (bump h 0x4A00_0A) 0x79 0 0
    else if bootWindow h then bootWrite off bs h
    else if apertureShut h then h
    else apertureWrite requester off bs h

def execBar2Write (offset : Nat) (bytes : List Byte) (poisoned : Bool) (requester : Nat) (s : State) :
    Host.Outcome State Fault Refusal :=
  onHub s (bar2Write offset bytes poisoned requester)

/-- HOST_WRITE_FAILURE (R579): entered in 0x4301 and in 0x4A01. -/
def hostWriteFails (address requester tag status : Nat) (h : Hub) : Hub :=
  writeFailed (bridgeReq h (tag % 256) 0 1 .write 0 0 [] |> fun r => { r with addr := address }) status
    { h with host := { h.host with writers := tabSet h.host.writers (tag % 256) requester } }

def execHostWriteFailure (address requester tag status : Nat) (s : State) : Host.Outcome State Fault Refusal :=
  onHub s (hostWriteFails address requester tag status)

/-! ### Reads and atomics (R575 to R578) -/

/-- Completed with Unsupported Request, or with Completer Abort. -/
def unsupported (h : Hub) : Hub := answered .unsupported (bump h 0x4A00_0B)

/-- Enter a read: its pieces with their tags, a piece its window refuses already answered; the hub with the tags taken, the
pieces, and the requests to issue. -/
def planPieces (op : COp) (data : List Word) : List (Nat × Nat) → Hub → Hub × List HostPiece × List CReq
  | [], h => (h, [], [])
  | (off, n) :: rest, h =>
    let t := bridgeTag h
    let x := planPieces op data rest t.2
    let slots := pieceSlots off n
    match (windowTarget h off).2 with
    | some st => (x.1, { tag := t.1, slots, result := some (st, []) } :: x.2.1, x.2.2)
    | none => (x.1, { tag := t.1, slots, result := none } :: x.2.1, bridgeReq h t.1 off slots op 63 63 data :: x.2.2)

/-- Start a host read or atomic: its requests go to port 2 in ascending order (R573, R582); what is already complete is
answered. -/
def startRead (qspi : Option Nat) (op : COp) (data : List Word) (off len : Nat) (h : Hub) : Hub :=
  let x := planPieces op data (pieces off len) h
  let a := answered .none { x.1 with host := { x.1.host with
    reads := x.1.host.reads ++ [{ qspi, offset := off, length := len, pieces := x.2.1 }] } }
  hostDeliverAll (forEach x.2.2 (fun r g => putItem 2 (.req r) g) a)

/-- Free bytes: what a read returns where no rule gives its bytes. -/
def freeBytes : Nat → Hub → List Byte × Hub
  | 0, h => ([], h)
  | k + 1, h =>
    let f := takeFree h
    let x := freeBytes k f.2
    (f.1.setWidth 8 :: x.1, x.2)

/-- A read of the boot window (R593): the control word; other bytes are not given by any rule. -/
def bootRead (off len : Nat) (h : Hub) : List Byte × Hub :=
  if off = 0x800000 then
    let x := freeBytes (len - 4) h
    ((natBytes 4 h.boot.control).take len ++ x.1, x.2)
  else freeBytes len h

/-- BAR2_READ. -/
def bar2Read (off len : Nat) (h0 : Hub) : Hub :=
  if !barServed h0 then h0
  else
    let h := bump h0 0x4A00_05
    if bootWindow h then
      if off + len ≤ 0x800008 then
        let x := bootRead off len h
        answered (.bytes x.1) x.2
      else unsupported h
    else if apertureShut h then unsupported h
    else startRead none .read [] off len h

/-- The requester of a read plays no part in what it does. -/
def execBar2Read (offset length _requester : Nat) (s : State) : Host.Outcome State Fault Refusal := onHub s (bar2Read offset length)

/-- An atomic TLP (R578): 64-bit FetchAdd or CAS aligned to 8 in BAR2, operands of 48 bits. -/
def atomicTlp (op : COp) (bar2 : Bool) (off : Nat) (operands : List Nat) (h0 : Hub) : Hub :=
  if !barServed h0 then h0
  else
    let h := bump h0 0x4A00_05
    if !bar2 || off % 8 != 0 || apertureShut h then unsupported h
    else if operands.any fun v => decide (2 ^ 48 ≤ v) then answered .completerAbort h
    else startRead none op (operands.map (BitVec.ofNat 48)) off 8 h

def execAtomicFetchadd (bar2 : Bool) (offset addend : Nat) (s : State) : Host.Outcome State Fault Refusal :=
  onHub s (atomicTlp .fetchAdd bar2 offset [addend])

def execAtomicCas (bar2 : Bool) (offset expected value : Nat) (s : State) : Host.Outcome State Fault Refusal :=
  onHub s (atomicTlp .cas bar2 offset [expected, value])

/-! ### Messages, resets, link (R584, R594) -/

/-- MSIX_MESSAGE: the first requested vector that is not masked leaves with its address and data. -/
def msixMessage (v : Nat) (h : Hub) : Hub :=
  if barServed h ∧ (h.msix.filter fun x => !msixMasked h x).head? = some v then
    answered (.bytes (natBytes 8 (msixEntry h (2 * v)) ++ natBytes 4 (msixEntry h (2 * v + 1)))) { h with msix := h.msix.erase v }
  else h

def execMsixMessage (vector : Fin 32) (s : State) : Host.Outcome State Fault Refusal := onHub s (msixMessage vector)

/-- BRIDGE_RESET: PERST_N, a reset of the function, a hot reset or a link going down. Whether the link is off or trains again
depends on which of them it was: a free bit. -/
def bridgeReset (h0 : Hub) : Hub :=
  if !barServed h0 then h0
  else
    let f := takeFree (endSession .host h0)
    let h := { f.2 with
      hostHalf := { latch := none, half := none }
      paths := tabErase f.2.paths (pathKey .host)
      host := { f.2.host with reads := f.2.host.reads.filter (fun x => x.qspi.isSome), barrier := [], waiting := f.2.host.waiting.filter (fun a => heldPath a != .host), table := [] } }
    raiseEvent (wrs (bump (bump h 0x4A00_0E) 0x4A00_09)
      [(0x4A00_01, b2n (f.1.getLsbD 0)), (0x4A00_02, 0), (0x4A00_03, 0)]) 0x7A 0 0

def execBridgeReset (s : State) : Host.Outcome State Fault Refusal := onHub s bridgeReset

/-- HOST_LINK_UP: the link reaches L0 within its limits (0x2A01:01, 0x2A01:02). -/
def hostLinkUp (speed width : Nat) (h : Hub) : Hub :=
  if !barServed h then h
  else
    raiseEvent (wrs h [(0x4A00_01, 2), (0x4A00_02, min speed (rd h 0x2A01_01)), (0x4A00_03, min width (rd h 0x2A01_02))]) 0x7B 0 0

def execHostLinkUp (speed width : Nat) (s : State) : Host.Outcome State Fault Refusal := onHub s (hostLinkUp speed width)

/-! ### QSPI (R588 to R591) -/

/-- The QSPI target is the host port and is served. -/
def qspiServed (h : Hub) : Bool := !pcie h && served h .host

/-- A command refused with status 0x06. -/
def qspiRefuse (h : Hub) : Hub := answered (.bytes [6]) h

/-- Address space of an address (Table 6). -/
def qspiSpace (address : Nat) : Nat := bits address 31 30

/-- The offset within its space, where the address is one of the space (Table 6). -/
def qspiOffset (h : Hub) (address : Nat) : Option Nat :=
  match qspiSpace address with
  | 0 => if bits address 29 27 = 0 ∧ (bits address 26 0 / 8 < 0xFF0000 ∨ 0xFF0101 ≤ bits address 26 0 / 8
      ∨ (0xFF0040 ≤ bits address 26 0 / 8 ∧ bits address 26 0 / 8 < 0xFF0100)) then some (bits address 26 0) else none
  | 1 => if apertureShut h then none else some (bits address 29 0)
  | 2 => if bootWindow h ∧ bits address 29 24 = 0 then some (bits address 23 0) else none
  | _ => none

/-- A dictionary-space access cut into slot accesses: byte offset and width (R89; `fuel` bounds them). -/
def cutSlots : Nat → Nat → Nat → List (Nat × Nat)
  | 0, _, _ => []
  | k + 1, off, len =>
    if len = 0 then []
    else
      let n := if off % 8 = 0 ∧ 8 ≤ len then 8 else 4
      (off, n) :: cutSlots k (off + n) (len - n)

/-- One slot access of a write, by its bytes. -/
def qspiSlotWrite (off n : Nat) (bs : List Byte) (h : Hub) : Hub :=
  let key := off / 8
  if n = 8 then hostWrite (key / 256) (key % 256) 0 8 (bytesNat bs) h
  else hostHalfWrite (key / 256) (key % 256) (off % 8 == 4) (bytesNat bs) h

/-- QSPI_WRITE. -/
def qspiWrite (address : Nat) (bs : List Byte) (h0 : Hub) : Hub :=
  if !qspiServed h0 then h0
  else
    let h := answered .none (bump h0 0x4A00_04)
    if address % 4 ≠ 0 ∨ bs.length % 4 ≠ 0 ∨ bs.length < 4 ∨ 256 < bs.length then h
    else match qspiOffset h address, qspiSpace address with
      | none, _ => h
      | some off, 0 => forEach (cutSlots 65 off bs.length)
          (fun x g => qspiSlotWrite x.1 x.2 ((bs.drop (x.1 - off)).take x.2) g) h
      | some off, 1 => apertureWrite 0 off bs h
      | some off, _ => bootWrite off bs h

def execQspiWrite (address : Nat) (bytes : List Byte) (s : State) : Host.Outcome State Fault Refusal :=
  onHub s (qspiWrite address bytes)

/-- The QSPI tag of an access that waits. -/
def heldTag : HeldAccess → Option Nat
  | .hostRead q _ _ _ => q
  | _ => none

/-- Tags of QSPI reads in progress or not collected. -/
def qspiTags (h : Hub) : List Nat :=
  h.host.reads.filterMap (·.qspi) ++ h.host.results.map (·.1) ++ h.host.barrier.filterMap (·.qspi)
    ++ h.host.waiting.filterMap heldTag

/-- The lowest free tag (0x00 to 0x3F). -/
def qspiTag (h : Hub) : Option Nat := (List.range 64).find? fun q => !(qspiTags h).contains q

/-- Every split-read slot is in use: requests outstanding and waiting at port 2 (R586, R589). -/
def splitFull (h : Hub) : Bool :=
  decide (readLimit h 2 ≤ outCount h 2 false + (portItems h 2).countP fun i => match i with
    | .req r => r.op != .write
    | .barrier => false)

/-- What a QSPI read answers: its result where it is complete, else pending with its tag (R590). -/
def qspiAnswer (q : Nat) (h : Hub) : Hub :=
  match h.host.results.find? fun e => e.1 == q with
  | some e => answered (.bytes e.2) { h with host := { h.host with results := tabErase h.host.results q } }
  | none => answered (.bytes [1, BitVec.ofNat 8 q]) h

/-- A read, FETCH-ADD or CAS through the aperture. -/
def qspiAperture (op : COp) (data : List Word) (off len : Nat) (h : Hub) : Hub :=
  match qspiTag h with
  | none => answered (.bytes [4]) h
  | some q => if splitFull h then answered (.bytes [4]) h else qspiAnswer q (startRead (some q) op data off len h)

/-- A barrier read among the slots of a QSPI read, under the tag the command has already or a new one: the slots after it, by offset and
length, are read once it completes (R89, R581). -/
def qspiBarrier (tag : Option Nat) (acc : List Byte) (n : Nat) (after : Nat × Nat) (h0 : Hub) : Hub :=
  match tag.or (qspiTag h0) with
  | none => answered (.bytes [4]) h0
  | some q =>
    let h := dropHalf .host false 0x2A02_01 h0
    let a := putItem 2 .barrier { h with host := { h.host with
      barrier := h.host.barrier ++ [{ qspi := some q, before := acc, width := n, after }] } }
    if tag.isSome then answered .none a else qspiAnswer q a

/-- Slot accesses of a dictionary-space read in ascending order; the first refusal ends it with status 0x02 (R89). -/
def qspiSlots (tag : Option Nat) : List (Nat × Nat) → List Byte → Hub → Hub
  | [], acc, h => answered (.bytes (0 :: acc)) h
  | (off, n) :: rest, acc, h =>
    let key := off / 8
    if key = 0x2A02_01 ∧ off % 8 = 0 ∧ servedInBoot h 0x2A02 1 then
      qspiBarrier tag acc n (off + n, (rest.map (·.2)).sum) h
    else
      let a := hostRead (key / 256) (key % 256) (off % 8) n h
      match a.answer with
      | .value v => qspiSlots tag rest (acc ++ natBytes n v) a
      | .refused c => answered (.bytes [2, BitVec.ofNat 8 c]) a
      | _ => a

/-- A dictionary-space read: pending with a tag while the host's earlier writes are neither applied nor refused (R90, R590). -/
def qspiDictionary (off len : Nat) (h : Hub) : Hub :=
  if pathWaits h .host then
    match qspiTag h with
    | none => answered (.bytes [4]) h
    | some q => answered (.bytes [1, BitVec.ofNat 8 q]) (holdAccess (.hostRead (some q) [] off len) h)
  else qspiSlots none (cutSlots 1025 off len) [] h

/-- QSPI_READ. -/
def qspiRead (address len : Nat) (h0 : Hub) : Hub :=
  if !qspiServed h0 then h0
  else
    let h := bump h0 0x4A00_05
    if address % 4 ≠ 0 ∨ len % 4 ≠ 0 ∨ len < 4 ∨ 4096 < len then qspiRefuse h
    else match qspiOffset h address, qspiSpace address with
      | none, _ => qspiRefuse h
      | some off, 0 => qspiDictionary off len h
      | some off, 1 => qspiAperture .read [] off len h
      | some off, _ =>
        let x := bootRead off len h
        answered (.bytes (0 :: x.1)) x.2

def execQspiRead (address length : Nat) (s : State) : Host.Outcome State Fault Refusal := onHub s (qspiRead address length)

/-- The slots of a QSPI read that waited are read; its result is kept for READ RESULT. -/
def qspiReadOn (q : Nat) (before : List Byte) (offset length : Nat) (h : Hub) : Hub :=
  let a := qspiSlots (some q) (cutSlots 1025 offset length) before h
  match a.answer with
  | .bytes bs => { a with host := { a.host with results := tabSet a.host.results q bs } }
  | _ => a

/-- A write of a whole entry, or of its one slot. -/
def wholeEntryWrite (p : Path) (index sub v : Nat) (h : Hub) : Hub :=
  match shape index sub with
  | .long f n => wholeWrite p index f n sub (bytesWords (slotsOf n) (natBytes n v)) h
  | _ => writeSlot p index sub v h

/-- An access that waited is performed. -/
def performAccess (a : HeldAccess) (h : Hub) : Hub :=
  match a with
  | .hostRead none _ off len => hostRead (off / 2048) (off / 8 % 256) (off % 8) len h
  | .hostRead (some q) before off len => qspiReadOn q before off len h
  | .hostWrite off len v => hostWrite (off / 2048) (off / 8 % 256) (off % 8) len v h
  | .slotRead p index sub => readSlot p index sub h
  | .slotWrite p index sub v => writeSlot p index sub v h
  | .entryWrite p index sub v => wholeEntryWrite p index sub v h
  | .request src op tag index sub count data => serveDict src op tag index sub count data h

/-- An access that waits is performed, or waits on while an earlier one of its path does. -/
def takeHeld (a : HeldAccess) (h : Hub) : Hub :=
  if pathWaits h (heldPath a) then { h with host := { h.host with waiting := h.host.waiting ++ [a] } } else performAccess a h

/-- The accesses that wait are performed in their order, each once no earlier write of its path is open (R77, R90). -/
def waitingAccesses (h : Hub) : Hub := forEach h.host.waiting takeHeld { h with host := { h.host with waiting := [] } }

/-- READ_RESULT: a result once, pending, or an unknown tag (R590). -/
def readResult (q : Nat) (h : Hub) : Hub :=
  if !qspiServed h then h
  else if (h.host.results.map (·.1)).contains q then qspiAnswer q h
  else if (qspiTags h).contains q then answered (.bytes [1]) h
  else answered (.bytes [5]) h

def execReadResult (tag : Nat) (s : State) : Host.Outcome State Fault Refusal := onHub s (readResult tag)

/-- A QSPI atomic (R578, R588): aligned to 8 in the aperture, operands of 48 bits. -/
def qspiAtomic (op : COp) (address : Nat) (operands : List Nat) (h0 : Hub) : Hub :=
  if !qspiServed h0 then h0
  else
    let h := bump h0 0x4A00_05
    if address % 8 ≠ 0 ∨ qspiSpace address ≠ 1 ∨ operands.any (fun v => decide (2 ^ 48 ≤ v)) then qspiRefuse h
    else match qspiOffset h address with
      | none => qspiRefuse h
      | some off => qspiAperture op (operands.map (BitVec.ofNat 48)) off 8 h

def execQspiFetchAdd (address addend : Nat) (s : State) : Host.Outcome State Fault Refusal :=
  onHub s (qspiAtomic .fetchAdd address [addend])

def execQspiCas (address expected value : Nat) (s : State) : Host.Outcome State Fault Refusal :=
  onHub s (qspiAtomic .cas address [expected, value])

/-- RESULT_HOLD_EXPIRY (R590). -/
def resultExpiry (q : Nat) (h : Hub) : Hub :=
  if (h.host.results.map (·.1)).contains q then
    bump { h with host := { h.host with results := tabErase h.host.results q } } 0x4A00_0C
  else h

def execResultHoldExpiry (tag : Nat) (s : State) : Host.Outcome State Fault Refusal := onHub s (resultExpiry tag)

/-- What passes with 4 ns of Spire time on an empty queue (assumption log 2). -/
def tick (h : Hub) : Hub :=
  let a := sleepAbort 0 (channelsStart (crossingsTick (spireWatch (spireTick h))))
  heldImageWrites (waitingAccesses (waitingShadows (gateWatch (foresterTick a))))

end Sys2Proof.Machine
end

