-- ==== Sys2Proof/Machine/Sdo.lean ====
section
/-! DEFINITION. The SDO server (R91 to R93, R500 to R502): expedited, segmented and block transfers on four channels, with the
frame layouts of CiA 301. -/

namespace Sys2Proof.Machine

/-- SDO abort code of a refusal (Table 2 of The object dictionary). -/
def abortCode (c : Nat) : Nat :=
  match c with
  | 1 => 0x06020000
  | 2 => 0x06090011
  | 3 => 0x06010002
  | 4 => 0x06090030
  | 5 => 0x08000022
  | 6 => 0x08000020
  | 7 => 0x06070010
  | 8 => 0x08000021
  | 9 => 0x06010000
  | _ => 0x08000000

/-- Eight bytes of an SDO frame: what is given, then zeros. -/
def sdoFrame (bs : List Byte) : List Byte := (bs ++ List.replicate 8 0).take 8

/-- Index and subindex in a frame. -/
def sdoMux (index sub : Nat) : List Byte := natBytes 2 index ++ natBytes 1 sub

/-- The frame a command acts on has been taken. -/
def sdoTake (n : Nat) (h : Hub) : Hub :=
  match h.canopen.received.find? fun e => e.1 == n with
  | some e => { h with canopen := { h.canopen with received := h.canopen.received.erase e } }
  | none => h

/-- A request is served: the channel is valid and the server answers in this mode (R472, R500, R501). -/
def sdoServed (h : Hub) (n : Nat) : Bool :=
  (sdoCob h n).isSome && rd h 0x2802_01 != 0xFF && mode h != 1 && mode h != 8 && mode h != 6

/-- Act on a request of a channel. -/
def sdoOn (n : Nat) (f : Hub → Hub) (h : Hub) : Hub := if sdoServed h n then f (sdoTake n h) else sdoTake n h

/-- The transfer of a channel. -/
def transfer (h : Hub) (n : Nat) : Option SdoTransfer := (h.canopen.transfers.find? fun e => e.1 == n).map (·.2)

def setTransfer (n : Nat) (t : SdoTransfer) (h : Hub) : Hub :=
  { h with canopen := { h.canopen with transfers := tabSet h.canopen.transfers n t } }

def endTransfer (n : Nat) (h : Hub) : Hub := { h with canopen := { h.canopen with transfers := tabErase h.canopen.transfers n } }

/-- A transfer is complete (0x4800:04). -/
def sdoDone (n : Nat) (h : Hub) : Hub := bump (endTransfer n h) 0x4800_04

/-! ### Downloads -/

/-- The bytes of an abort. -/
def abortFrame (index sub code : Nat) : List Byte := 0x80 :: sdoMux index sub ++ natBytes 4 code

/-- Write the entry and answer: `ok` where it is accepted, an abort where it is refused, neither yet where the write waits for
Canopy. -/
def sdoApply (ch : Fin 4) (index sub : Nat) (bs ok : List Byte) (h : Hub) : Hub :=
  let a := sdoWrite (.sdo ch) index sub bs h
  if h.canopen.writes.length < a.canopen.writes.length then
    sdoDone ch (deferReply (.sdo ch) (.sdo (((sdoCob h ch).map (·.2)).getD 0) (sdoFrame ok) (abortFrame index sub (abortCode 0x0A))) a)
  else match a.answer with
    | .refused c => sdoAbort ch index sub (abortCode c) a
    | _ => sdoSend ch (sdoFrame ok) (sdoDone ch a)

/-- SDO_DOWNLOAD_INITIATE: a transfer in progress is abandoned (R502). -/
def sdoDownload (ch : Fin 4) (index sub : Nat) (expedited : Bool) (data : List Byte) (h0 : Hub) : Hub :=
  let h := endTransfer ch h0
  if expedited then sdoApply ch index sub data (0x60 :: sdoMux index sub) h
  else sdoSend ch (sdoFrame (0x60 :: sdoMux index sub))
    (setTransfer ch { index, sub, upload := false, data := [], toggle := false } h)

def execSdoDownloadInitiate (ch : Fin 4) (index sub : Nat) (expedited : Bool) (data : List Byte) (s : State) :
    Host.Outcome State Fault Refusal :=
  onHub s (sdoOn ch (sdoDownload ch index sub expedited data))

/-- A download longer than any entry is refused (R73, R92): 0x07 unless an earlier cause applies, counted and recorded (R81). -/
def sdoTooLong (ch : Fin 4) (index sub : Nat) (bs : List Byte) (h : Hub) : Hub :=
  let a := sdoWrongSize (.sdo ch) index sub bs h
  match a.answer with
  | .refused c => sdoAbort ch index sub (abortCode c) a
  | _ => a

/-- SDO_DOWNLOAD_SEGMENT. -/
def sdoSegmentIn (ch : Fin 4) (toggle : Bool) (data : List Byte) (last : Bool) (h : Hub) : Hub :=
  match (transfer h ch).filter fun t => !t.upload with
  | none => sdoAbort ch 0 0 0x05040001 h
  | some t =>
    let ok := [BitVec.ofNat 8 (0x20 + 16 * b2n toggle)]
    if toggle ≠ t.toggle then sdoAbort ch t.index t.sub 0x05030000 h
    else if 1530 < t.data.length + data.length then sdoTooLong ch t.index t.sub (t.data ++ data) h
    else if last then sdoApply ch t.index t.sub (t.data ++ data) ok h
    else sdoSend ch (sdoFrame ok) (setTransfer ch { t with data := t.data ++ data, toggle := !toggle } h)

def execSdoDownloadSegment (ch : Fin 4) (toggle : Bool) (data : List Byte) (last : Bool) (s : State) :
    Host.Outcome State Fault Refusal :=
  onHub s (sdoOn ch (sdoSegmentIn ch toggle data last))

/-- Acknowledgements of so many segments received in blocks of 127 (`fuel` bounds the blocks). -/
def blockAcks : Nat → Nat → List (List Byte)
  | 0, _ => []
  | k + 1, n => if n = 0 then [] else sdoFrame [0xA2, BitVec.ofNat 8 (min n 127), 127] :: blockAcks k (n - min n 127)

/-- SDO_BLOCK_DOWNLOAD: the server proposes blocks of 127 segments and checks the CRC before it writes. -/
def sdoBlockIn (ch : Fin 4) (index sub : Nat) (data : List Byte) (crcOk : Bool) (h0 : Hub) : Hub :=
  let segs := (data.length + 6) / 7
  let h := forEach (sdoFrame (0xA4 :: sdoMux index sub ++ [127]) :: blockAcks segs segs) (sdoSend ch) (endTransfer ch h0)
  if crcOk then sdoApply ch index sub data [0xA1] h else sdoAbort ch index sub 0x05040004 h

def execSdoBlockDownload (ch : Fin 4) (index sub : Nat) (data : List Byte) (crcOk : Bool) (s : State) :
    Host.Outcome State Fault Refusal :=
  onHub s (sdoOn ch (sdoBlockIn ch index sub data crcOk))

/-! ### Uploads -/

/-- What an upload of an entry returns (Table 3), and the hub after the read; the hub's answer tells a refusal. -/
def sdoRead (ch : Fin 4) (index sub : Nat) (h : Hub) : List Byte × Hub :=
  let p := Path.sdo ch
  if furtherSlot index sub then ([], refuse p index sub 2 false h)
  else match slotTy index sub, shape index sub with
    | ty, .long f n =>
      match refusalCode (readCauses h index sub) with
      | some c => ([], refuse p index sub c false h)
      | none =>
        let bs := (wordsBytes (longContent h p index f n)).take n
        let bs := match ty with
          | some (.vstring _) => bs.takeWhile (· != 0)
          | _ => bs
        (bs, answered (.bytes bs) (touch p h))
    | ty, _ =>
      let a := readSlot p index sub h
      match a.answer with
      | .value v =>
        match ty with
        | some (.vstring n) => ((natBytes n v).takeWhile (· != 0), a)
        | some (.octets n) => (natBytes n v, a)
        | some t => (natBytes (bitsLength (tyBits t)) v, a)
        | none => (natBytes (bitsLength (slotBits h index sub)) v, a)
      | _ => ([], a)

/-- SDO_UPLOAD_INITIATE: up to four bytes at once, more in segments. -/
def sdoUpload (ch : Fin 4) (index sub : Nat) (h0 : Hub) : Hub :=
  let x := sdoRead ch index sub (endTransfer ch h0)
  match x.2.answer with
  | .refused c => sdoAbort ch index sub (abortCode c) x.2
  | _ =>
    if 1 ≤ x.1.length ∧ x.1.length ≤ 4 then
      sdoSend ch (sdoFrame (BitVec.ofNat 8 (0x43 + 4 * (4 - x.1.length)) :: sdoMux index sub ++ x.1)) (sdoDone ch x.2)
    else
      sdoSend ch (0x41 :: sdoMux index sub ++ natBytes 4 x.1.length)
        (setTransfer ch { index, sub, upload := true, data := x.1, toggle := false } x.2)

def execSdoUploadInitiate (ch : Fin 4) (index sub : Nat) (s : State) : Host.Outcome State Fault Refusal :=
  onHub s (sdoOn ch (sdoUpload ch index sub))

/-- SDO_UPLOAD_SEGMENT: the next seven bytes. -/
def sdoSegmentOut (ch : Fin 4) (toggle : Bool) (h : Hub) : Hub :=
  match (transfer h ch).filter fun t => t.upload with
  | none => sdoAbort ch 0 0 0x05040001 h
  | some t =>
    let part := t.data.take 7
    let rest := t.data.drop 7
    let head := BitVec.ofNat 8 (16 * b2n toggle + 2 * (7 - part.length) + b2n rest.isEmpty)
    if toggle ≠ t.toggle then sdoAbort ch t.index t.sub 0x05030000 h
    else answered (.bytes part) (sdoSend ch (sdoFrame (head :: part))
      (if rest.isEmpty then sdoDone ch h else setTransfer ch { t with data := rest, toggle := !toggle } h))

def execSdoUploadSegment (ch : Fin 4) (toggle : Bool) (s : State) : Host.Outcome State Fault Refusal :=
  onHub s (sdoOn ch (sdoSegmentOut ch toggle))

/-- One bit of the CRC of CiA 301: polynomial 0x1021. -/
def crcBit (x : Nat) : Nat := if 32768 ≤ x then Nat.xor (2 * x % 65536) 0x1021 else 2 * x

/-- The CRC of a block transfer's bytes, starting from 0. -/
def blockCrc (bs : List Byte) : Nat :=
  bs.foldl (fun c b => crcBit (crcBit (crcBit (crcBit (crcBit (crcBit (crcBit (crcBit (Nat.xor c (256 * b.toNat)))))))))) 0

/-- The segments of a block upload, numbered from 1 in blocks of `size`; bit 7 marks the last (`fuel` bounds them). -/
def blockSegments (size : Nat) : Nat → Nat → List Byte → List (List Byte)
  | 0, _, _ => []
  | k + 1, seq, bs =>
    let rest := bs.drop 7
    let head := BitVec.ofNat 8 (seq + 128 * b2n rest.isEmpty)
    sdoFrame (head :: bs.take 7) :: (if rest.isEmpty then [] else blockSegments size k (if seq = size then 1 else seq + 1) rest)

/-- SDO_BLOCK_UPLOAD: the entry in blocks of the client's size, then the CRC. -/
def sdoBlockOut (ch : Fin 4) (index sub size : Nat) (h0 : Hub) : Hub :=
  let h := endTransfer ch h0
  if size < 1 ∨ 127 < size then sdoAbort ch index sub 0x05040002 h
  else
    let x := sdoRead ch index sub h
    match x.2.answer with
    | .refused c => sdoAbort ch index sub (abortCode c) x.2
    | _ =>
      let unused := (7 - x.1.length % 7) % 7
      let frames := [0xC6 :: sdoMux index sub ++ natBytes 4 x.1.length] ++ blockSegments size (x.1.length + 1) 1 x.1
        ++ [sdoFrame (BitVec.ofNat 8 (0xC1 + 4 * unused) :: natBytes 2 (blockCrc x.1))]
      answered (.bytes x.1) (forEach frames (sdoSend ch) (sdoDone ch x.2))

def execSdoBlockUpload (ch : Fin 4) (index sub blockSize : Nat) (s : State) : Host.Outcome State Fault Refusal :=
  onHub s (sdoOn ch (sdoBlockOut ch index sub blockSize))

/-! ### Ends -/

/-- SDO_ABORT_TRANSFER: a received abort ends the transfer, unanswered. -/
def execSdoAbortTransfer (ch : Fin 4) (s : State) : Host.Outcome State Fault Refusal :=
  onHub s (sdoOn ch (endTransfer ch))

/-- SDO_SEGMENT_TIMEOUT (R502): a transfer whose next segment does not come is aborted. -/
def sdoTimeout (ch : Fin 4) (h : Hub) : Hub :=
  match transfer h ch with
  | some t => sdoAbort ch t.index t.sub 0x05040000 h
  | none => h

def execSdoSegmentTimeout (ch : Fin 4) (s : State) : Host.Outcome State Fault Refusal := onHub s (sdoTimeout ch)

end Sys2Proof.Machine
end

