-- ==== Sys2Proof/Machine/Dispatch.lean ====
section
/-! DEFINITION. The dispatch: one arm per command, each one direct call of its meaning. -/

namespace Sys2Proof.Machine

/-- The effect of a command on everything but the queue (the queue's rest stays as it is). -/
def exec (i : Instr) (s : State) : Host.Outcome State Fault Refusal :=
  match i with
  -- Startup
  | .powerOn straps testMode => Sys2Proof.Machine.execPowerOn straps testMode s
  | .resetNFall widthNs => Sys2Proof.Machine.execResetNFall widthNs s
  | .resetNRise straps testMode => Sys2Proof.Machine.execResetNRise straps testMode s
  | .bootMemoryInitDone ok => Sys2Proof.Machine.execBootMemoryInitDone ok s
  | .knownAnswerTestsDone results => Sys2Proof.Machine.execKnownAnswerTestsDone results s
  | .imageVerifyDone okA okB okHost => Sys2Proof.Machine.execImageVerifyDone okA okB okHost s
  | .firmwareSelftestDone channelsFailed enginesFailed => Sys2Proof.Machine.execFirmwareSelftestDone channelsFailed enginesFailed s
  | .factoryAuthTimeout => Sys2Proof.Machine.execFactoryAuthTimeout s
  | .factoryEntry => Sys2Proof.Machine.execFactoryEntry s
  | .bootControlWrite length => Sys2Proof.Machine.execBootControlWrite length s
  | .modeRequestCommission path => Sys2Proof.Machine.execModeRequestCommission path s
  | .modeRequestRun path => Sys2Proof.Machine.execModeRequestRun path s
  | .modeRequestClearing path => Sys2Proof.Machine.execModeRequestClearing path s
  | .modeRequestService path => Sys2Proof.Machine.execModeRequestService path s
  | .limpExit => Sys2Proof.Machine.execLimpExit s
  | .softwareReset path value => Sys2Proof.Machine.execSoftwareReset path value s
  | .rangerWatchdogExpiry => Sys2Proof.Machine.execRangerWatchdogExpiry s
  | .commissionBlockedTimeout => Sys2Proof.Machine.execCommissionBlockedTimeout s
  | .runEntry => Sys2Proof.Machine.execRunEntry s
  -- Clocks
  | .clockMonitorWindow check khz => Sys2Proof.Machine.execClockMonitorWindow check khz s
  | .crossingTransfer src dst word parityOk => Sys2Proof.Machine.execCrossingTransfer src dst word parityOk s
  | .crossingTimeout src dst => Sys2Proof.Machine.execCrossingTimeout src dst s
  | .spireSyncEdge => Sys2Proof.Machine.execSpireSyncEdge s
  | .backstopTimeout heartbeat => Sys2Proof.Machine.execBackstopTimeout heartbeat s
  -- Dictionary
  | .dictionaryWrite path index sub span value => Sys2Proof.Machine.execDictionaryWrite path index sub span value s
  | .rcRead path index sub update => Sys2Proof.Machine.execRcRead path index sub update s
  | .w1cWrite path index sub value hwSet => Sys2Proof.Machine.execW1cWrite path index sub value hwSet s
  | .timeLowerRead path index sub => Sys2Proof.Machine.execTimeLowerRead path index sub s
  | .timeLowerWrite path index sub value => Sys2Proof.Machine.execTimeLowerWrite path index sub value s
  | .timeUpperWrite path index sub value => Sys2Proof.Machine.execTimeUpperWrite path index sub value s
  | .longEntryFirstRead path index sub => Sys2Proof.Machine.execLongEntryFirstRead path index sub s
  | .longEntrySlotWrite path index sub value => Sys2Proof.Machine.execLongEntrySlotWrite path index sub value s
  | .hostWindowLowRead slot span => Sys2Proof.Machine.execHostWindowLowRead slot span s
  | .hostWindowHalfWrite index sub upper value => Sys2Proof.Machine.execHostWindowHalfWrite index sub upper value s
  | .ringDictRequest src dst op tag index sub count data => Sys2Proof.Machine.execRingDictRequest src dst op tag index sub count data s
  | .mailboxRead path => Sys2Proof.Machine.execMailboxRead path s
  | .mailboxWrite path => Sys2Proof.Machine.execMailboxWrite path s
  | .mailboxResponse tag status data => Sys2Proof.Machine.execMailboxResponse tag status data s
  | .mailboxTimeout => Sys2Proof.Machine.execMailboxTimeout s
  | .storeParameters path value => Sys2Proof.Machine.execStoreParameters path value s
  | .storeComplete ok => Sys2Proof.Machine.execStoreComplete ok s
  | .restoreDefaultParameters path value => Sys2Proof.Machine.execRestoreDefaultParameters path value s
  | .configurationLoadDone => Sys2Proof.Machine.execConfigurationLoadDone s
  | .configurationCommit path value => Sys2Proof.Machine.execConfigurationCommit path value s
  -- RingLinks
  | .linkDownRestart port => Sys2Proof.Machine.execLinkDownRestart port s
  | .linkSignalDetect port => Sys2Proof.Machine.execLinkSignalDetect port s
  | .blockLock port => Sys2Proof.Machine.execBlockLock port s
  | .alignLock port skew => Sys2Proof.Machine.execAlignLock port skew s
  | .fecLock port => Sys2Proof.Machine.execFecLock port s
  | .helloReceived port version sender remoteFault hub => Sys2Proof.Machine.execHelloReceived port version sender remoteFault hub s
  | .linkStateTimeout port => Sys2Proof.Machine.execLinkStateTimeout port s
  | .holdDownExpiry port => Sys2Proof.Machine.execHoldDownExpiry port s
  | .helloSend port => Sys2Proof.Machine.execHelloSend port s
  | .linkTrainFailTimer port => Sys2Proof.Machine.execLinkTrainFailTimer port s
  | .linkFailure port cause => Sys2Proof.Machine.execLinkFailure port cause s
  | .errorTakedown port found => Sys2Proof.Machine.execErrorTakedown port found s
  | .frameReceive port frame hop check => Sys2Proof.Machine.execFrameReceive port frame hop check s
  | .frameSend point => Sys2Proof.Machine.execFrameSend point s
  | .presenceSend => Sys2Proof.Machine.execPresenceSend s
  | .presence ring src hop role mode serial => Sys2Proof.Machine.execPresence ring src hop role mode serial s
  | .presenceTimeout hub ring => Sys2Proof.Machine.execPresenceTimeout hub ring s
  | .claimSend => Sys2Proof.Machine.execClaimSend s
  | .claim number role serial => Sys2Proof.Machine.execClaim number role serial s
  | .offer number serial => Sys2Proof.Machine.execOffer number serial s
  | .conflict number serial => Sys2Proof.Machine.execConflict number serial s
  | .claimTimerExpiry => Sys2Proof.Machine.execClaimTimerExpiry s
  | .linkState src port up => Sys2Proof.Machine.execLinkState src port up s
  | .ringPortRetrain path sub value => Sys2Proof.Machine.execRingPortRetrain path sub value s
  | .transmitDisableWrite path value => Sys2Proof.Machine.execTransmitDisableWrite path value s
  -- Belfry
  | .ringFrameAdmit port frame => Sys2Proof.Machine.execRingFrameAdmit port frame s
  | .creditedFrameStart port => Sys2Proof.Machine.execCreditedFrameStart port s
  | .cellGrant => Sys2Proof.Machine.execCellGrant s
  | .outputCreditReturn port cls => Sys2Proof.Machine.execOutputCreditReturn port cls s
  | .ageingScan => Sys2Proof.Machine.execAgeingScan s
  | .bufferCensus upsets skew => Sys2Proof.Machine.execBufferCensus upsets skew s
  | .locatePass lost => Sys2Proof.Machine.execLocatePass lost s
  -- Voting
  | .voteMinority channel group => Sys2Proof.Machine.execVoteMinority channel group s
  | .voteSplit cause group => Sys2Proof.Machine.execVoteSplit cause group s
  | .digestCompare upsets => Sys2Proof.Machine.execDigestCompare upsets s
  | .channelTreeCheck channel ok => Sys2Proof.Machine.execChannelTreeCheck channel ok s
  | .channelSelftestDone channel pass => Sys2Proof.Machine.execChannelSelftestDone channel pass s
  | .checkpointLoaded channel same => Sys2Proof.Machine.execCheckpointLoaded channel same s
  | .replayCaughtUp channel upsets => Sys2Proof.Machine.execReplayCaughtUp channel upsets s
  | .replayLogFull channel => Sys2Proof.Machine.execReplayLogFull channel s
  | .probationExpiry channel => Sys2Proof.Machine.execProbationExpiry channel s
  | .channelRelease path value => Sys2Proof.Machine.execChannelRelease path value s
  -- Canopy
  | .canopyRequestIssue req => Sys2Proof.Machine.execCanopyRequestIssue req s
  | .canopyHomeRequest req => Sys2Proof.Machine.execCanopyHomeRequest req s
  | .canopyHolderRequest req => Sys2Proof.Machine.execCanopyHolderRequest req s
  | .canopyResponse resp => Sys2Proof.Machine.execCanopyResponse resp s
  | .retryDelayExpiry port tag => Sys2Proof.Machine.execRetryDelayExpiry port tag s
  | .orderGapTimeout src port cls => Sys2Proof.Machine.execOrderGapTimeout src port cls s
  | .flowStateExpiry src port cls => Sys2Proof.Machine.execFlowStateExpiry src port cls s
  | .writeAckTimer src port cls => Sys2Proof.Machine.execWriteAckTimer src port cls s
  | .completionTimeout port tag => Sys2Proof.Machine.execCompletionTimeout port tag s
  | .barrier port => Sys2Proof.Machine.execBarrier port s
  | .reachLifetimeExpiry handle => Sys2Proof.Machine.execReachLifetimeExpiry handle s
  | .reachFlush path value => Sys2Proof.Machine.execReachFlush path value s
  | .moveTimeLimitExpiry slot => Sys2Proof.Machine.execMoveTimeLimitExpiry slot s
  -- Forester
  | .definitionWrite path slot field value => Sys2Proof.Machine.execDefinitionWrite path slot field value s
  | .placementRun => Sys2Proof.Machine.execPlacementRun s
  | .placementRetry => Sys2Proof.Machine.execPlacementRetry s
  | .scoringInterval => Sys2Proof.Machine.execScoringInterval s
  | .moveRequestStart path value => Sys2Proof.Machine.execMoveRequestStart path value s
  | .migrationOffer src tag handle kind length placement defn => Sys2Proof.Machine.execMigrationOffer src tag handle kind length placement defn s
  | .migrationAnswer src tag handle status base => Sys2Proof.Machine.execMigrationAnswer src tag handle status base s
  | .migrationDrain src tag handle target switchNs => Sys2Proof.Machine.execMigrationDrain src tag handle target switchNs s
  | .migrationDrained src tag handle status => Sys2Proof.Machine.execMigrationDrained src tag handle status s
  | .migrationData src tag handle first words => Sys2Proof.Machine.execMigrationData src tag handle first words s
  | .migrationInstalled src tag handle received => Sys2Proof.Machine.execMigrationInstalled src tag handle received s
  | .migrationCommit src tag handle terms => Sys2Proof.Machine.execMigrationCommit src tag handle terms s
  | .migrationAbort src tag handle => Sys2Proof.Machine.execMigrationAbort src tag handle s
  | .migrationCensus src tag handles => Sys2Proof.Machine.execMigrationCensus src tag handles s
  | .migrationHeld src held => Sys2Proof.Machine.execMigrationHeld src held s
  | .migrationGroup src tag handle install => Sys2Proof.Machine.execMigrationGroup src tag handle install s
  | .migrationScore src handle scores => Sys2Proof.Machine.execMigrationScore src handle scores s
  | .migrationAck src tag handle => Sys2Proof.Machine.execMigrationAck src tag handle s
  | .migrationResend tag => Sys2Proof.Machine.execMigrationResend tag s
  | .censusTimeout => Sys2Proof.Machine.execCensusTimeout s
  | .handoverHalt source readOk => Sys2Proof.Machine.execHandoverHalt source readOk s
  -- Cyclic
  | .cycleStart => Sys2Proof.Machine.execCycleStart s
  | .outputInstant => Sys2Proof.Machine.execOutputInstant s
  | .contributionReceive src tag index head words => Sys2Proof.Machine.execContributionReceive src tag index head words s
  | .rebindNotice code handle holder slot cycle => Sys2Proof.Machine.execRebindNotice code handle holder slot cycle s
  | .cycleWorkComplete => Sys2Proof.Machine.execCycleWorkComplete s
  | .cycleWatchdogExpiry contributions => Sys2Proof.Machine.execCycleWatchdogExpiry contributions s
  -- Spire
  | .announceSend => Sys2Proof.Machine.execAnnounceSend s
  | .announce src cls locked => Sys2Proof.Machine.execAnnounce src cls locked s
  | .announceTimeout hub => Sys2Proof.Machine.execAnnounceTimeout hub s
  | .syncSend ring => Sys2Proof.Machine.execSyncSend ring s
  | .sync ring master cls hops seq originPs pathNs rtNs arrivalPs => Sys2Proof.Machine.execSync ring master cls hops seq originPs pathNs rtNs arrivalPs s
  | .spireStep => Sys2Proof.Machine.execSpireStep s
  | .delayReqSend port t1Ps => Sys2Proof.Machine.execDelayReqSend port t1Ps s
  | .delayReq port src seq t2Ps => Sys2Proof.Machine.execDelayReq port src seq t2Ps s
  | .delayResp port seq t3Seq t2Ps t3Ps t4Ps errorBlock => Sys2Proof.Machine.execDelayResp port seq t3Seq t2Ps t3Ps t4Ps errorBlock s
  | .delayRespTimeout port => Sys2Proof.Machine.execDelayRespTimeout port s
  | .chainSwitch => Sys2Proof.Machine.execChainSwitch s
  | .holdoverEntry => Sys2Proof.Machine.execHoldoverEntry s
  | .holdoverLimitExpiry => Sys2Proof.Machine.execHoldoverLimitExpiry s
  | .holdoverCalibrate increment => Sys2Proof.Machine.execHoldoverCalibrate increment s
  | .spireIslandFault => Sys2Proof.Machine.execSpireIslandFault s
  | .ppsOutEdge => Sys2Proof.Machine.execPpsOutEdge s
  | .ppsOutWidthEnd => Sys2Proof.Machine.execPpsOutWidthEnd s
  | .ppsInEdge stampNs => Sys2Proof.Machine.execPpsInEdge stampNs s
  | .ppsInTimeout => Sys2Proof.Machine.execPpsInTimeout s
  -- Engines
  | .sysNop engine pins => Sys2Proof.Machine.execSysNop engine pins s
  | .sysHalt engine pins => Sys2Proof.Machine.execSysHalt engine pins s
  | .sysSig engine pins code => Sys2Proof.Machine.execSysSig engine pins code s
  | .sysStamp engine pins => Sys2Proof.Machine.execSysStamp engine pins s
  | .sysClrm engine pins => Sys2Proof.Machine.execSysClrm engine pins s
  | .br engine pins cond target => Sys2Proof.Machine.execBr engine pins cond target s
  | .brp engine pins level pin target => Sys2Proof.Machine.execBrp engine pins level pin target s
  | .dbnz engine pins target => Sys2Proof.Machine.execDbnz engine pins target s
  | .await engine pins flagForm event pin => Sys2Proof.Machine.execAwait engine pins flagForm event pin s
  | .driveLow engine pins mask => Sys2Proof.Machine.execDriveLow engine pins mask s
  | .driveHigh engine pins mask => Sys2Proof.Machine.execDriveHigh engine pins mask s
  | .driveRelease engine pins mask => Sys2Proof.Machine.execDriveRelease engine pins mask s
  | .driveToggle engine pins mask => Sys2Proof.Machine.execDriveToggle engine pins mask s
  | .shiftIn engine pins msbFirst pin => Sys2Proof.Machine.execShiftIn engine pins msbFirst pin s
  | .shiftOut engine pins msbFirst pin => Sys2Proof.Machine.execShiftOut engine pins msbFirst pin s
  | .take engine pins dst => Sys2Proof.Machine.execTake engine pins dst s
  | .put engine pins src endMark count => Sys2Proof.Machine.execPut engine pins src endMark count s
  | .copy engine pins dst src => Sys2Proof.Machine.execCopy engine pins dst src s
  | .aluAdd engine pins dst imm operand => Sys2Proof.Machine.execAluAdd engine pins dst imm operand s
  | .aluSub engine pins dst imm operand => Sys2Proof.Machine.execAluSub engine pins dst imm operand s
  | .aluAnd engine pins dst imm operand => Sys2Proof.Machine.execAluAnd engine pins dst imm operand s
  | .aluOr engine pins dst imm operand => Sys2Proof.Machine.execAluOr engine pins dst imm operand s
  | .aluXor engine pins dst imm operand => Sys2Proof.Machine.execAluXor engine pins dst imm operand s
  | .aluShl engine pins dst imm operand => Sys2Proof.Machine.execAluShl engine pins dst imm operand s
  | .aluShr engine pins dst imm operand => Sys2Proof.Machine.execAluShr engine pins dst imm operand s
  | .aluNot engine pins dst imm operand => Sys2Proof.Machine.execAluNot engine pins dst imm operand s
  | .aluRev engine pins dst imm operand => Sys2Proof.Machine.execAluRev engine pins dst imm operand s
  | .ldi engine pins dst imm => Sys2Proof.Machine.execLdi engine pins dst imm s
  | .arm engine pins fromCmp imm operand => Sys2Proof.Machine.execArm engine pins fromCmp imm operand s
  | .halt path engine => Sys2Proof.Machine.execHalt path engine s
  | .resume path engine => Sys2Proof.Machine.execResume path engine s
  | .load path engine image => Sys2Proof.Machine.execLoad path engine image s
  | .loadClean path engine image pins => Sys2Proof.Machine.execLoadClean path engine image pins s
  | .engineStep path engine pins => Sys2Proof.Machine.execEngineStep path engine pins s
  | .flush path engine => Sys2Proof.Machine.execFlush path engine s
  | .txqRefill engine => Sys2Proof.Machine.execTxqRefill engine s
  | .rxqDrain engine => Sys2Proof.Machine.execRxqDrain engine s
  | .pinDriverDiagnosis fio => Sys2Proof.Machine.execPinDriverDiagnosis fio s
  | .engineCheckFailure engine cause => Sys2Proof.Machine.execEngineCheckFailure engine cause s
  | .engineSelftest failed => Sys2Proof.Machine.execEngineSelftest failed s
  -- Fifos
  | .fifoWordWrite fifo word => Sys2Proof.Machine.execFifoWordWrite fifo word s
  | .fifoNarrowWrite fifo wide value endMark => Sys2Proof.Machine.execFifoNarrowWrite fifo wide value endMark s
  | .fifoRead fifo => Sys2Proof.Machine.execFifoRead fifo s
  | .mark path fifo => Sys2Proof.Machine.execMark path fifo s
  | .rewind path fifo => Sys2Proof.Machine.execRewind path fifo s
  | .release path fifo count => Sys2Proof.Machine.execRelease path fifo count s
  | .pageBudgetWrite path fifo value => Sys2Proof.Machine.execPageBudgetWrite path fifo value s
  | .stopTimeout fifo => Sys2Proof.Machine.execStopTimeout fifo s
  | .idleTimeout fifo => Sys2Proof.Machine.execIdleTimeout fifo s
  | .streamDataSend fifo => Sys2Proof.Machine.execStreamDataSend fifo s
  | .streamData src handle first words => Sys2Proof.Machine.execStreamData src handle first words s
  | .streamCredit handle limit expected => Sys2Proof.Machine.execStreamCredit handle limit expected s
  | .creditPeriodic fifo => Sys2Proof.Machine.execCreditPeriodic fifo s
  | .streamResendTimeout fifo => Sys2Proof.Machine.execStreamResendTimeout fifo s
  -- Can
  | .canFrameReceive ctl frame err => Sys2Proof.Machine.execCanFrameReceive ctl frame err s
  | .transmitRequest path ctl buf => Sys2Proof.Machine.execTransmitRequest path ctl buf s
  | .transmitAbort path ctl buf => Sys2Proof.Machine.execTransmitAbort path ctl buf s
  | .canTransmitAttempt ctl => Sys2Proof.Machine.execCanTransmitAttempt ctl s
  | .canTransmitEnd ctl result loopDelayNs => Sys2Proof.Machine.execCanTransmitEnd ctl result loopDelayNs s
  | .busOffRecoveryDone ctl => Sys2Proof.Machine.execBusOffRecoveryDone ctl s
  | .busIntegrationDone ctl => Sys2Proof.Machine.execBusIntegrationDone ctl s
  | .canSettingsWrite path ctl sub value => Sys2Proof.Machine.execCanSettingsWrite path ctl sub value s
  | .busOffRestart path ctl => Sys2Proof.Machine.execBusOffRestart path ctl s
  | .clearBusOffRecord path ctl => Sys2Proof.Machine.execClearBusOffRecord path ctl s
  | .stuckDominant ctl => Sys2Proof.Machine.execStuckDominant ctl s
  | .bufferInfoRead path ctl buf => Sys2Proof.Machine.execBufferInfoRead path ctl buf s
  | .sdoDownloadInitiate ch index sub expedited data => Sys2Proof.Machine.execSdoDownloadInitiate ch index sub expedited data s
  | .sdoDownloadSegment ch toggle data last => Sys2Proof.Machine.execSdoDownloadSegment ch toggle data last s
  | .sdoUploadInitiate ch index sub => Sys2Proof.Machine.execSdoUploadInitiate ch index sub s
  | .sdoUploadSegment ch toggle => Sys2Proof.Machine.execSdoUploadSegment ch toggle s
  | .sdoBlockDownload ch index sub data crcOk => Sys2Proof.Machine.execSdoBlockDownload ch index sub data crcOk s
  | .sdoBlockUpload ch index sub blockSize => Sys2Proof.Machine.execSdoBlockUpload ch index sub blockSize s
  | .sdoAbortTransfer ch => Sys2Proof.Machine.execSdoAbortTransfer ch s
  | .sdoSegmentTimeout ch => Sys2Proof.Machine.execSdoSegmentTimeout ch s
  | .heartbeatSend => Sys2Proof.Machine.execHeartbeatSend s
  | .nodeIdWrite path value => Sys2Proof.Machine.execNodeIdWrite path value s
  | .processObjectRead path index sub => Sys2Proof.Machine.execProcessObjectRead path index sub s
  | .processObjectWrite path index sub value => Sys2Proof.Machine.execProcessObjectWrite path index sub value s
  -- Sleep
  | .sleepPropose wakeIn => Sys2Proof.Machine.execSleepPropose wakeIn s
  | .propose origin round present wakeIn => Sys2Proof.Machine.execPropose origin round present wakeIn s
  | .consent src origin round => Sys2Proof.Machine.execConsent src origin round s
  | .refuse src origin round reasons => Sys2Proof.Machine.execRefuse src origin round reasons s
  | .sleepRoundTimeout => Sys2Proof.Machine.execSleepRoundTimeout s
  | .sleepRetry wakeIn => Sys2Proof.Machine.execSleepRetry wakeIn s
  | .commitResend => Sys2Proof.Machine.execCommitResend s
  | .commit origin round tnNs => Sys2Proof.Machine.execCommit origin round tnNs s
  | .abort src origin round reasons => Sys2Proof.Machine.execAbort src origin round reasons s
  | .sleepAbort reasons => Sys2Proof.Machine.execSleepAbort reasons s
  | .drainTimeStart => Sys2Proof.Machine.execDrainTimeStart s
  | .abortMarginStart => Sys2Proof.Machine.execAbortMarginStart s
  | .pointOfNoReturn => Sys2Proof.Machine.execPointOfNoReturn s
  | .dormantReached => Sys2Proof.Machine.execDormantReached s
  | .wakeAccepted source => Sys2Proof.Machine.execWakeAccepted source s
  | .wakeProductivityTimeout source => Sys2Proof.Machine.execWakeProductivityTimeout source s
  | .wakeConfirmation path value => Sys2Proof.Machine.execWakeConfirmation path value s
  | .wakeUnmask path value => Sys2Proof.Machine.execWakeUnmask path value s
  | .pnFrameDecode ctl frame err => Sys2Proof.Machine.execPnFrameDecode ctl frame err s
  | .dormantWake kat imageOk channelsFailed enginesFailed busOk domeOk => Sys2Proof.Machine.execDormantWake kat imageOk channelsFailed enginesFailed busOk domeOk s
  | .powerGoodPoll rail status => Sys2Proof.Machine.execPowerGoodPoll rail status s
  | .powerGoodTimeout rail => Sys2Proof.Machine.execPowerGoodTimeout rail s
  -- T1s
  | .t1sFrameReceive port bytes fcsOk sfdNs => Sys2Proof.Machine.execT1sFrameReceive port bytes fcsOk sfdNs s
  | .t1sTransmitAttempt port mediumFree => Sys2Proof.Machine.execT1sTransmitAttempt port mediumFree s
  | .t1sCollision port late => Sys2Proof.Machine.execT1sCollision port late s
  | .backoffExpiry port => Sys2Proof.Machine.execBackoffExpiry port s
  | .t1sTransmitDone port => Sys2Proof.Machine.execT1sTransmitDone port s
  | .beacon port => Sys2Proof.Machine.execBeacon port s
  | .beaconSend port => Sys2Proof.Machine.execBeaconSend port s
  | .toTimerExpiry port => Sys2Proof.Machine.execToTimerExpiry port s
  | .plcaBeaconTimeout port => Sys2Proof.Machine.execPlcaBeaconTimeout port s
  | .transmitDoorbell path port value => Sys2Proof.Machine.execTransmitDoorbell path port value s
  | .pollInterval port => Sys2Proof.Machine.execPollInterval port s
  -- HostBridge
  | .bar2Write offset bytes poisoned requester => Sys2Proof.Machine.execBar2Write offset bytes poisoned requester s
  | .bar2Read offset length requester => Sys2Proof.Machine.execBar2Read offset length requester s
  | .atomicFetchadd bar2 offset addend => Sys2Proof.Machine.execAtomicFetchadd bar2 offset addend s
  | .atomicCas bar2 offset expected value => Sys2Proof.Machine.execAtomicCas bar2 offset expected value s
  | .hostWriteFailure address requester tag status => Sys2Proof.Machine.execHostWriteFailure address requester tag status s
  | .barrierRead path => Sys2Proof.Machine.execBarrierRead path s
  | .msixMessage vector => Sys2Proof.Machine.execMsixMessage vector s
  | .bridgeReset => Sys2Proof.Machine.execBridgeReset s
  | .hostLinkUp speed width => Sys2Proof.Machine.execHostLinkUp speed width s
  | .qspiWrite address bytes => Sys2Proof.Machine.execQspiWrite address bytes s
  | .qspiRead address length => Sys2Proof.Machine.execQspiRead address length s
  | .readResult tag => Sys2Proof.Machine.execReadResult tag s
  | .qspiFetchAdd address addend => Sys2Proof.Machine.execQspiFetchAdd address addend s
  | .qspiCas address expected value => Sys2Proof.Machine.execQspiCas address expected value s
  | .resultHoldExpiry tag => Sys2Proof.Machine.execResultHoldExpiry tag s
  -- Dome
  | .sealFrame frame => Sys2Proof.Machine.execSealFrame frame s
  | .openFrame frame => Sys2Proof.Machine.execOpenFrame frame s
  | .epochGraceExpiry src slot => Sys2Proof.Machine.execEpochGraceExpiry src slot s
  | .rekeyIntervalExpiry => Sys2Proof.Machine.execRekeyIntervalExpiry s
  | .epochAdvance path => Sys2Proof.Machine.execEpochAdvance path s
  | .selfTests path results => Sys2Proof.Machine.execSelfTests path results s
  | .zeroise path => Sys2Proof.Machine.execZeroise path s
  | .ceilingWriteDone ok => Sys2Proof.Machine.execCeilingWriteDone ok s
  | .epochWriteRetry => Sys2Proof.Machine.execEpochWriteRetry s
  | .installCommand path value => Sys2Proof.Machine.execInstallCommand path value s
  | .sessionEnd path => Sys2Proof.Machine.execSessionEnd path s
  | .operatorRoleRequest path => Sys2Proof.Machine.execOperatorRoleRequest path s
  | .cryptoOfficerRoleRequest path => Sys2Proof.Machine.execCryptoOfficerRoleRequest path s
  | .responseWrite path response => Sys2Proof.Machine.execResponseWrite path response s
  | .challengeExpiry path => Sys2Proof.Machine.execChallengeExpiry path s
  | .roleLockoutExpiry path => Sys2Proof.Machine.execRoleLockoutExpiry path s
  | .sessionIdleTimeout path => Sys2Proof.Machine.execSessionIdleTimeout path s
  | .tamperEvent kind => Sys2Proof.Machine.execTamperEvent kind s
  -- Fuse
  | .conversionRound samples ain die => Sys2Proof.Machine.execConversionRound samples ain die s
  | .softStartStep ch atLimit => Sys2Proof.Machine.execSoftStartStep ch atLimit s
  | .onRequestChange ch on => Sys2Proof.Machine.execOnRequestChange ch on s
  | .fastComparatorTrip ch => Sys2Proof.Machine.execFastComparatorTrip ch s
  | .rampTimeout ch => Sys2Proof.Machine.execRampTimeout ch s
  | .overcurrentDelayExpiry ch => Sys2Proof.Machine.execOvercurrentDelayExpiry ch s
  | .gateSuspectTimeout ch => Sys2Proof.Machine.execGateSuspectTimeout ch s
  | .cooldownExpiry ch => Sys2Proof.Machine.execCooldownExpiry ch s
  | .retryWindowExpiry ch => Sys2Proof.Machine.execRetryWindowExpiry ch s
  | .presenceChange ch present => Sys2Proof.Machine.execPresenceChange ch present s
  | .currentLimitWrite path ch value => Sys2Proof.Machine.execCurrentLimitWrite path ch value s
  | .limitGraceExpiry ch => Sys2Proof.Machine.execLimitGraceExpiry ch s
  | .channelEnableWrite path ch value => Sys2Proof.Machine.execChannelEnableWrite path ch value s
  | .clearLockout path ch => Sys2Proof.Machine.execClearLockout path ch s
  | .clearSuspect path ch => Sys2Proof.Machine.execClearSuspect path ch s
  | .fetShortDetect ch => Sys2Proof.Machine.execFetShortDetect ch s
  -- Power
  | .groveVoteClear grove vote => Sys2Proof.Machine.execGroveVoteClear grove vote s
  | .offDelayExpiry grove => Sys2Proof.Machine.execOffDelayExpiry grove s
  | .voteReturn grove vote => Sys2Proof.Machine.execVoteReturn grove vote s
  | .groveSwitchOn grove listOk => Sys2Proof.Machine.execGroveSwitchOn grove listOk s
  | .avsUpdate ack currentMa => Sys2Proof.Machine.execAvsUpdate ack currentMa s
  | .avsRetry ack => Sys2Proof.Machine.execAvsRetry ack s
  | .avsReadback mv => Sys2Proof.Machine.execAvsReadback mv s
  | .pmbusRetry rail ok => Sys2Proof.Machine.execPmbusRetry rail ok s
  | .pmbAlert status => Sys2Proof.Machine.execPmbAlert status s
  -- Watchtower
  | .faultRaise code island detailA detailB => Sys2Proof.Machine.execFaultRaise code island detailA detailB s
  | .faultCauseGone code => Sys2Proof.Machine.execFaultCauseGone code s
  | .acknowledge path code => Sys2Proof.Machine.execAcknowledge path code s
  | .acknowledgeAll path => Sys2Proof.Machine.execAcknowledgeAll path s
  | .captureRearm path value => Sys2Proof.Machine.execCaptureRearm path value s
  | .reactionWrite path code value => Sys2Proof.Machine.execReactionWrite path code value s
  | .inject path => Sys2Proof.Machine.execInject path s
  | .withdraw path => Sys2Proof.Machine.execWithdraw path s
  | .eventRaise number inst value => Sys2Proof.Machine.execEventRaise number inst value s
  | .ringEvent src channel number inst value sec ns => Sys2Proof.Machine.execRingEvent src channel number inst value sec ns s
  -- Update
  | .updateBegin path flashOk => Sys2Proof.Machine.execUpdateBegin path flashOk s
  | .updateFinish path => Sys2Proof.Machine.execUpdateFinish path s
  | .updateActivate path answers => Sys2Proof.Machine.execUpdateActivate path answers s
  | .updateAbandon path => Sys2Proof.Machine.execUpdateAbandon path s
  | .updateConfirm path => Sys2Proof.Machine.execUpdateConfirm path s
  | .updateRevert path => Sys2Proof.Machine.execUpdateRevert path s
  | .confirmDelayExpiry => Sys2Proof.Machine.execConfirmDelayExpiry s
  | .chunkWrite path bytes flashOk => Sys2Proof.Machine.execChunkWrite path bytes flashOk s
  | .updateVerifyDone result => Sys2Proof.Machine.execUpdateVerifyDone result s
  | .updateRequest src tag staged offset length => Sys2Proof.Machine.execUpdateRequest src tag staged offset length s
  | .updateData src tag status offset bytes => Sys2Proof.Machine.execUpdateData src tag status offset bytes s
  | .pullRequestTimeout tag => Sys2Proof.Machine.execPullRequestTimeout tag s
  | .pullBusyWait => Sys2Proof.Machine.execPullBusyWait s
  | .powerLoss aonHolds => Sys2Proof.Machine.execPowerLoss aonHolds s

end Sys2Proof.Machine
end

