-- ==== Sys2Proof/Safety.lean ====
section
/-! DEFINITION. What counts as a safe state: the canonical forms that make equal contents equal data, and the bounds the spec puts on what waits. -/

namespace Sys2Proof.Machine

/-- The register file of the object dictionary is in canonical form. -/
def dictWf (h : Hub) : Bool := cellsWf slotDefault h.dict

/-- A crossing holds at most four transfers, and none waits while an entry is free (R21, R22). -/
def crossingOk (x : Crossing) : Prop := x.entries.length ≤ 4 ∧ (x.waiting ≠ [] → x.entries.length = 4)

/-- A sound hub: the register file and Canopy memory are in canonical form, every crossing keeps to its four entries, and at most
one MSI-X message per vector waits (R584). Every step keeps it. -/
def Hub.Sound (h : Hub) : Prop :=
  dictWf h = true ∧ Memory.wf h.canopy.mem = true ∧ (∀ e ∈ h.crossings, crossingOk e.2) ∧ h.msix.Nodup

/-! ### Words for claims -/

/-- A write of `value` to a slot on a served path that meets no general cause of refusal of Table 2 of The object dictionary;
what a single rule adds for the entry is still to be tested. -/
def WriteOpen (p : Path) (index sub value : Nat) (h : Hub) : Prop :=
  served h p = true ∧ pathWaits h p = false ∧ refusalCode (writeCauses (writeBegun p index sub h) p index sub value) = none

/-- The same with what a single rule adds. -/
def Accepted (p : Path) (index sub value : Nat) (causes : Hub → Causes → Causes) (h : Hub) : Prop :=
  served h p = true ∧ pathWaits h p = false
    ∧ refusalCode (causes (writeBegun p index sub h) (writeCauses (writeBegun p index sub h) p index sub value)) = none

/-- A write of the wrong size that meets no cause of refusal before its size, its value judged where it brings a whole one (R81). -/
def SizeOpen (p : Path) (index sub : Nat) (v : Option Nat) (h : Hub) : Prop :=
  Accepted p index sub (v.getD 0)
    (fun g c =>
      let e := slotWriteCauses index sub (v.getD 0) g c
      { e with value := e.value && v.isSome }) h

/-- The hub from which the effect of an accepted write starts: answered, the path's other holds dropped, a persistent entry noted. -/
def writeStart (p : Path) (index sub : Nat) (h : Hub) : Hub := writeTaken p index sub (answered .accepted (writeBegun p index sub h))

/-- The hub has gone from one mode to another (R48): the mode, the previous mode, the Spire time of entry, EV_GEN_MODE_CHANGE; SAFE_N
is low outside RUN, LIMP and CLEARING (Table 3 of Operating modes and start-up). -/
def ModeEntered (old new : Nat) (h : Hub) : Prop :=
  mode h = new ∧ rd h 0x2000_03 = old ∧ rd h 0x2000_04 = timeSec (spireTime h) % 2 ^ 48
    ∧ rd h 0x2000_05 = timeFrac (spireTime h) % 2 ^ 48 ∧ eventPending h 0x00 = true
    ∧ (servingCode new = false → rd h 0x4E00_03 = 0)

/-- Every register outside the ranges listed reads as before. -/
def KeptBut (ranges : List (Nat × Nat)) (h h' : Hub) : Prop :=
  ∀ k, (∀ r ∈ ranges, k < r.1 ∨ r.2 < k) → rdW h' k = rdW h k

/-- Registers that raising an event may write: pending bits and log (0x4E10, 0x4E11), ring event counters (R712 to R714). -/
def eventRanges : List (Nat × Nat) := [(0x4E10_01, 0x4E11_30), (0x4E00_06, 0x4E00_06), (0x4E00_08, 0x4E00_08)]

/-- Registers that raising a fault may write: those of an event, Watchtower's records, the fuse channels, the CAN controllers'
states (R691 to R709, R498, R658). -/
def faultRanges : List (Nat × Nat) := (0x4E00_03, 0x4E02_40) :: (0x3600_00, 0x360F_FF) :: (0x4810_00, 0x481F_FF) :: eventRanges

/-- Registers a write on a path may write beside its own: those of an event, the refusal record, the TLP counter. -/
def pathRanges : List (Nat × Nat) := (0x4001_01, 0x4001_07) :: (0x4A00_04, 0x4A00_04) :: eventRanges

/-- What raising an event may change beside registers: MSI-X requests, frames at internal ports with their numbers, stamps. -/
def evented (h h' : Hub) : Hub :=
  { h with dict := h'.dict, msix := h'.msix, portQ := h'.portQ, seqs := h'.seqs,
           watch := { h.watch with channelStamp := h'.watch.channelStamp, rates := h'.watch.rates } }

/-- What raising a fault may change beside registers: the same, Watchtower, the fuse channels, cycles since a release. -/
def faulted (h h' : Hub) : Hub :=
  { h with dict := h'.dict, msix := h'.msix, portQ := h'.portQ, seqs := h'.seqs, watch := h'.watch, fuses := h'.fuses,
           cyc := { h.cyc with since := h'.cyc.since } }

/-- A hub after a reset with a cause (R60): every entry at its default but the cause; the flash, the fuses of Dome and the always-on
records stay (R602, R699, R702), and every fault record ends (R708). -/
def ResetWith (cause : Nat) (h h' : Hub) : Prop :=
  rd h' 0x2000_07 = cause ∧ (∀ k, k ≠ 0x2000_07 → rdW h' k = slotDefault k)
    ∧ h'.update.slotA = h.update.slotA ∧ h'.update.slotB = h.update.slotB ∧ h'.update.floor = h.update.floor
    ∧ h'.update.revoked = h.update.revoked ∧ h'.dome.srk = h.dome.srk ∧ h'.dome.ceiling = h.dome.ceiling
    ∧ h'.dome.generation = h.dome.generation ∧ h'.dome.epoch = h.dome.epoch ∧ h'.dome.epochValid = h.dome.epochValid
    ∧ h'.watch.records = [] ∧ h'.watch.previous = captureCopy h ∧ h'.watch.backstopRec = h.watch.backstopRec

/-! ### Words for claims about engines -/

/-- Engine n evaluates its instruction at an edge (R411): RUNNING or STALLED in a powered Grove, with no error for its checks to find. -/
def EdgeDue (n : Nat) (h : Hub) : Prop :=
  (engState h n = 3 ∨ engState h n = 4) ∧ domainState h (grove n) = 3 ∧ decodeArmed h n = false
    ∧ ((engine h n).pc = 0 → (engine h n).badWord = 0)

/-- After an edge of engine n: its state, its record, its pads; other engines and pins, and every other register, are as before. -/
def EdgeTaken (n st : Nat) (g : Engine) (h h' : Hub) : Prop :=
  engState h' n = st ∧ engine h' n = g ∧ (∀ m, m ≠ n → engine h' m = engine h m)
    ∧ (∀ fio, fio ∉ g.pins → tabGet (padReset h) h'.pads fio = tabGet (padReset h) h.pads fio)
    ∧ (g.pins.Nodup → pinsGated h n = false → ∀ k fio, g.pins[k]? = some fio →
        tabGet (padReset h) h'.pads fio = padOf g.en g.lvl k)
    ∧ evented { h with engines := h'.engines, pads := h'.pads } h' = h'
    ∧ KeptBut ((engKey n 1, engKey n 1) :: (engKey n 0x11, engKey n 0x11) :: (0x4600_06, 0x4600_06) :: eventRanges) h h'

/-- The words in the RXQ of an engine whose PROGRAM has no producer STREAM are discarded (R419). -/
def rxqKept (n : Nat) (h : Hub) (g : Engine) : Engine :=
  if rd h (engKey n 0x12) ≠ 0 ∧ (producerFifo h n).isNone then { g with rxq := [] } else g

/-- The engine after an edge whose instruction left `g` and goes on at `target` or the next address. -/
def edgeEngine (n : Nat) (pins : Byte) (g : Engine) (target : Option Nat) (h : Hub) : Engine :=
  tickEngine (engine h n).cmp pins { g with pc := nextPc (engine h n) target }

/-- The command is an edge of engine n at which the instruction whose word is `w` takes effect while that word stands at PC: the engine is
`g` with a new PC, then steps 3 and 4. -/
def EdgeGoes (i : Instr) (n w : Nat) (pins : Byte) (g : Engine) (target : Option Nat) (s : State) : Prop :=
  wordAtPc s.hub n = w →
    ∃ t, exec i s = .next t ∧ EdgeTaken n 3 (rxqKept n s.hub (edgeEngine n pins g target s.hub)) s.hub t.hub

/-- The command is an edge of engine n at which the instruction at PC, whose word is `w`, stalls: only steps 3 and 4, and the stalled
clock is counted. -/
def EdgeStalls (i : Instr) (n w : Nat) (pins : Byte) (s : State) : Prop :=
  wordAtPc s.hub n = w →
    ∃ t, exec i s = .next t ∧ EdgeTaken n 4 (tickEngine (engine s.hub n).cmp pins (clocked s.hub n)) s.hub t.hub
      ∧ rd t.hub (engKey n 0x11) = min (rd s.hub (engKey n 0x11) + 1) (2 ^ 32 - 1)

/-- The command is an edge of engine n at which the instruction at PC, whose word is `w`, faults: FAULTED with the cause; the engine's
registers, every other engine and every pad are as they were (R427). -/
def EdgeFaults (i : Instr) (n w cause : Nat) (s : State) : Prop :=
  wordAtPc s.hub n = w →
  ∃ t, exec i s = .next t ∧ engState t.hub n = 5 ∧ rd t.hub (engKey n 0x10) = cause ∧ recordHeld t.hub 0x0F = true
    ∧ engine t.hub n = clocked s.hub n ∧ (∀ m, m ≠ n → engine t.hub m = engine s.hub m)
    ∧ faulted { s.hub with engines := t.hub.engines } t.hub = t.hub
    ∧ KeptBut ((engKey n 1, engKey n 1) :: (engKey n 0x10, engKey n 0x10) :: (0x4600_03, 0x4600_03) :: faultRanges) s.hub t.hub

/-! ### Words for claims about FIFOs -/

/-- A FIFO that takes the next words with nothing else due: bound, not discarding, with room for more than two words. -/
def FifoOpen (f : Nat) (h : Hub) : Prop :=
  rd h (fifoKey f 1) ≠ 0 ∧ (fifo h f).dropping = false ∧ h.watch.armed = []
    ∧ (fifo h f).words.length + 2 < fifoCapacity h f

/-- Only FIFO f changed, beside its counters, the free pages and what raising an event may change. -/
def FifoOnly (f : Nat) (h h' : Hub) : Prop :=
  (∀ g, g ≠ f → fifo h' g = fifo h g) ∧ evented { h with fifos := h'.fifos, answer := h'.answer } h' = h'
    ∧ KeptBut ((fifoKey f 0x0C, fifoKey f 0x11) :: (0x4700_01, 0x4700_01) :: (0x4700_07, 0x4700_08) :: eventRanges) h h'

/-- The FIFO holds these words and packer bytes; pages, settings and ends are as before. -/
def FifoHolds (f : Nat) (words : List (XWord × Nat)) (packer : List Byte) (h h' : Hub) : Prop :=
  (fifo h' f).words = words ∧ (fifo h' f).packer = packer ∧ (fifo h' f).read = (fifo h f).read ∧ (fifo h' f).mark = (fifo h f).mark
    ∧ (fifo h' f).pages = (fifo h f).pages ∧ (fifo h' f).settings = (fifo h f).settings

/-! ### Words for claims about Dome -/

/-- Dome can take frame f: it is in front at Belfry's Dome output with no poisoned word, and the crossings to Dome and back are open with
nothing in them. -/
def DomeReady (f : Frame) (h : Hub) : Prop :=
  domeFront h = some f ∧ f.poison = [] ∧ crossingShut h 0 0x12 = false ∧ (crossing h 0 0x12).entries = []
    ∧ crossingShut h 0x12 0 = false ∧ (crossing h 0x12 0).entries = [] ∧ h.watch.armed = []

/-- Frame f has left Belfry's Dome output. -/
def domeTaken (f : Frame) (h : Hub) : Hub :=
  { h with belfry := { h.belfry with delivered := h.belfry.delivered.erase (5, f) } }

/-! ### Words for claims about fuse channels -/

/-- Channel n tripped with a cause whose outcome is retry (R648, R651, R652): GATE_EN low, cause and time recorded, counted; inside the
window of a retry attempt F rises and LOCKOUT or a cool-down follows, else F is 0 and a cool-down follows. -/
def FuseTripped (n cause : Nat) (h h' : Hub) : Prop :=
  gateCommand h' n = 0 ∧ rd h' (fuseKey n 0x0D) = cause ∧ rd h' (fuseKey n 0x0E) = timeSec (replica h 0x10) % 2 ^ 48
    ∧ rd h' (fuseKey n 0x12) = min (rd h (fuseKey n 0x12) + 1) (2 ^ 32 - 1)
    ∧ rd h' 0x4C00_03 = min (rd h 0x4C00_03 + 1) (2 ^ 32 - 1)
    ∧ (h.watch.rates = [] → eventPending h' (0x90 + n) = true)
    ∧ (∀ e f, (fuse h n).retryEnd = some e → busNs h < e → f = min (rd h (fuseKey n 0x0A) + 1) 254 →
        rd h' (fuseKey n 0x0A) = f
        ∧ (rd h (fuseCfg n 9) ≠ 255 ∧ rd h (fuseCfg n 9) ≤ f → fuseState h' n = 6
            ∧ rd h' 0x4C00_04 = min (rd h 0x4C00_04 + 1) (2 ^ 32 - 1))
        ∧ (rd h (fuseCfg n 9) = 255 ∨ f < rd h (fuseCfg n 9) → fuseState h' n = 5
            ∧ (fuse h' n).coolEnd = some (busNs h + rd h (fuseCfg n 8) * 1000000)))
    ∧ ((∀ e, (fuse h n).retryEnd = some e → e ≤ busNs h) → rd h' (fuseKey n 0x0A) = 0 ∧ fuseState h' n = 5
        ∧ (fuse h' n).coolEnd = some (busNs h + rd h (fuseCfg n 8) * 1000000))
    ∧ (fuse h' n).retryEnd = none ∧ (∀ m, m ≠ n → fuse h' m = fuse h m) ∧ evented { h with fuses := h'.fuses } h' = h'
    ∧ KeptBut ((fuseKey n 1, fuseKey n 1) :: (fuseKey n 0x0A, fuseKey n 0x0A) :: (fuseKey n 0x0D, fuseKey n 0x0F)
        :: (fuseKey n 0x12, fuseKey n 0x12) :: (0x4C00_03, 0x4C00_04) :: eventRanges) h h'

/-- Nothing but the request and the temperature decides whether channel n may be on (R640, R641, R654, R658). -/
def FuseReady (n : Nat) (h : Hub) : Prop :=
  rdB h (fuseCfg n 1) = true ∧ fuseAllowed h n = true ∧ fuseHeldOff h n = false ∧ fuseFrozen h n = false ∧ fusePresent h n = true

end Sys2Proof.Machine
end

