-- ==== Sys2Proof/Certificates/Slice0/Obligations.lean ====
section
/-! DEFINITION. The statements for the provers. -/

open Sys2Proof Sys2Proof.Machine

/-! ### Clocks, crossings, backstop -/

/-- R20 to R27, R697: a crossing takes a transfer into a free entry and, as time passes, the destination takes it in order; it holds a
transfer while all four entries are in use, marks a word with a parity error poisoned and raises FLT_XING_PARITY, and discards and
counts what is sent while it is broken or closed; a timeout of a transfer in an entry marks it broken, discards and counts that transfer
and all that follow it, and raises FLT_XING_TIMEOUT; a crossing with nothing in its entries has no timeout. -/
def Obligations.CrossingsCarryTransfersInOrder : Prop :=
  (∀ src dst word s, (crossing s.hub src dst).broken = false → crossingClosed s.hub src dst = false → s.hub.watch.armed = [] →
    (crossing s.hub src dst).entries.length < 4 → (crossing s.hub src dst).waiting = [] →
    ∃ t, exec (.crossingTransfer src dst word true) s = .next t ∧ t.pending = s.pending
      ∧ { t.hub with crossings := s.hub.crossings } = s.hub
      ∧ crossing t.hub src dst = { crossing s.hub src dst with entries := (crossing s.hub src dst).entries ++ [word] }
      ∧ (∀ a b, crossingKey a b ≠ crossingKey src dst → crossing t.hub a b = crossing s.hub a b))
  ∧ (∀ src dst word s, (crossing s.hub src dst).broken = false → crossingClosed s.hub src dst = false → s.hub.watch.armed = [] →
    (crossing s.hub src dst).entries.length = 4 →
    ∃ t, exec (.crossingTransfer src dst word true) s = .next t
      ∧ { t.hub with crossings := s.hub.crossings } = s.hub
      ∧ crossing t.hub src dst = { crossing s.hub src dst with waiting := (crossing s.hub src dst).waiting ++ [word] })
  ∧ (∀ src dst word s, (crossing s.hub src dst).broken = false → crossingClosed s.hub src dst = false → s.hub.watch.armed = [] →
    (crossing s.hub src dst).entries.length < 4 → (crossing s.hub src dst).waiting = [] →
    ∃ t, exec (.crossingTransfer src dst word false) s = .next t ∧ recordHeld t.hub 0x02 = true
      ∧ (crossing t.hub src dst).entries = (crossing s.hub src dst).entries ++ [{ word with poison := true }]
      ∧ faulted { s.hub with crossings := t.hub.crossings } t.hub = t.hub ∧ KeptBut faultRanges s.hub t.hub)
  ∧ (∀ src dst word parity s, (crossing s.hub src dst).broken = true ∨ crossingClosed s.hub src dst = true →
    ∃ t, exec (.crossingTransfer src dst word parity) s = .next t
      ∧ { t.hub with crossings := s.hub.crossings } = s.hub
      ∧ crossing t.hub src dst = { crossing s.hub src dst with discarded := (crossing s.hub src dst).discarded + 1 })
  ∧ (∀ src dst s, (crossing s.hub src dst).broken = false → crossingClosed s.hub src dst = false → (crossing s.hub src dst).entries ≠ [] →
    ∃ t, exec (.crossingTimeout src dst) s = .next t ∧ recordHeld t.hub 0x03 = true
      ∧ (crossing t.hub src dst).broken = true ∧ (crossing t.hub src dst).entries = [] ∧ (crossing t.hub src dst).waiting = []
      ∧ (crossing t.hub src dst).discarded = (crossing s.hub src dst).discarded + (crossing s.hub src dst).entries.length
          + (crossing s.hub src dst).waiting.length
      ∧ (crossing t.hub src dst).delivered = (crossing s.hub src dst).delivered
      ∧ faulted { s.hub with crossings := t.hub.crossings } t.hub = t.hub ∧ KeptBut faultRanges s.hub t.hub)
  ∧ (∀ src dst s, (crossing s.hub src dst).entries = [] → exec (.crossingTimeout src dst) s = .next s)
  ∧ (∀ src dst s, s.pending = [] → (crossing s.hub src dst).broken = false → s.hub.spire.faulted = false → mode s.hub ≠ 6 →
    s.hub.host.waiting = [] →
    ∃ t, step s = .next t ∧ crossing t.hub src dst = { crossing s.hub src dst with
        entries := (crossing s.hub src dst).waiting.take 4
        waiting := (crossing s.hub src dst).waiting.drop 4
        delivered := (crossing s.hub src dst).delivered ++ (crossing s.hub src dst).entries })

/-- R18, R30, R41, R361: a clock whose frequency departs by more than 5 % from the set one raises FLT_CLOCK_RANGE with its island and
the measured frequency, and one within changes nothing; at the synchronising edge every replica counter is brought up to Spire time over its crossing, never back, and
one whose crossing is shut keeps its own time; the backstop takes SAFE_N low, holds the outputs and records its cause in the always-on domain. -/
def Obligations.ClockMonitorReplicasAndBackstop : Prop :=
  (∀ code khz f s, setHz s.hub code = some f → f < 20 * ((khz * 1000 - f) + (f - khz * 1000)) →
    ∃ t, exec (.clockMonitorWindow (.island code) khz) s = .next t ∧ recordHeld t.hub 0x01 = true
      ∧ faulted s.hub t.hub = t.hub ∧ KeptBut faultRanges s.hub t.hub)
  ∧ (∀ code khz f s, setHz s.hub code = some f → 20 * ((khz * 1000 - f) + (f - khz * 1000)) ≤ f →
    exec (.clockMonitorWindow (.island code) khz) s = .next s)
  ∧ (∀ i s, i ∈ stampIslands → s.hub.spire.faulted = false → mode s.hub ≠ 6 → s.hub.watch.armed = [] →
    (∀ j, j ∈ stampIslands → j ≠ 0x14 → crossingShut s.hub 0x14 j = false ∧ (crossing s.hub 0x14 j).entries = []) →
    ∃ t, exec .spireSyncEdge s = .next t ∧ replica t.hub i = max (replica s.hub i) (spireTime s.hub)
      ∧ { t.hub with spire := { t.hub.spire with replicas := s.hub.spire.replicas } } = s.hub)
  ∧ (∀ i s, i ∈ stampIslands → i ≠ 0x14 → s.hub.spire.faulted = false → mode s.hub ≠ 6 → crossingShut s.hub 0x14 i = true →
    ∃ t, exec .spireSyncEdge s = .next t ∧ replica t.hub i = replica s.hub i)
  ∧ (∀ heartbeat s, s.hub.env.resetLow = false → s.hub.env.supplies = true → mode s.hub ≠ 6 → s.hub.watch.backstop = false →
    ∃ t, exec (.backstopTimeout heartbeat) s = .next t ∧ t.hub.watch.backstop = true ∧ outputsSafe t.hub = true
      ∧ t.hub.watch.backstopRec = some (if heartbeat then 2 else 1) ∧ rd t.hub 0x4E00_03 = 0 ∧ mode t.hub = mode s.hub
      ∧ KeptBut ((0x4E00_03, 0x4E00_03) :: (0x3600_00, 0x360F_FF) :: eventRanges) s.hub t.hub)

/-! ### Start-up and modes -/

/-- R53, R57, R60, R699, R702, R708, R776, R782: POWER_ON and a low RESET_N put every entry at its default with the cause recorded, keep
the flash and the always-on records, and end every fault record; a pulse of RESET_N up to 200 ns changes nothing. At the rising edge
the straps are latched, and a hub that fails a strap check has its status at once, 0x0008 where both fail; the mode and the field pins
are as before. -/
def Obligations.ResetPutsEntriesAtTheirDefaults : Prop :=
  (∀ straps testMode s, s.hub.env.supplies = false ∨ s.hub.env.resetLow = true →
    ∃ t, exec (.powerOn straps testMode) s = .next t ∧ t.pending = s.pending ∧ ResetWith 1 s.hub t.hub
      ∧ t.hub.env = { straps := straps % 65536, testMode, resetLow := true, supplies := true })
  ∧ (∀ width s, 10000 ≤ width → s.hub.env.supplies = true → s.hub.env.resetLow = false →
    ∃ t, exec (.resetNFall width) s = .next t ∧ t.pending = s.pending ∧ ResetWith 2 s.hub t.hub
      ∧ t.hub.env = { s.hub.env with resetLow := true })
  ∧ (∀ width s, width ≤ 200 → exec (.resetNFall width) s = .next s)
  ∧ (∀ straps testMode s, s.hub.env.resetLow = true → s.hub.env.supplies = true →
    ∃ t, exec (.resetNRise straps testMode) s = .next t ∧ t.pending = s.pending
      ∧ t.hub.env = { straps := straps % 65536, testMode, resetLow := false, supplies := true }
      ∧ t.hub.boot.latched = true
      ∧ rd t.hub 0x2000_08 = straps % 65536 ∧ rd t.hub 0x2000_0A = straps % 256 ∧ rd t.hub 0x2000_0B = straps / 256 % 4
      ∧ rd t.hub 0x2000_0C = straps / 1024 % 4 ∧ rd t.hub 0x2000_0D = straps / 4096 % 2 ∧ rd t.hub 0x2000_0E = straps / 8192 % 2
      ∧ rd t.hub 0x2000_0F = straps / 16384 % 2 ∧ rd t.hub 0x2000_10 = straps / 32768 % 2
      ∧ rd t.hub 0x2000_11 = (if testMode ≠ (straps / 1024 % 4 == 3) then 8 else if straps % 256 = 255 then 9 else 0)
      ∧ mode t.hub = mode s.hub ∧ t.hub.pads = s.hub.pads)

/-- R61 to R63, R593: the BOOT steps. Memory initialised, known-answer tests passed, an image of the strapped slot or of the host
verified (its slot's failed-boot count one higher, the status back at 0), and the firmware self-tests passed, which takes the
hub to COMMISSION with status 0x0001 and starts the load of its configuration (R107). A failed step records its status and holds
FLT_BOOT_SELFTEST: 0x0007 for memory, 0x0006 for the known-answer tests (Dome in its error state), 0x0004 with no valid image and
EV_GEN_BOOT_FAILED in its place; two or three failed Belfry channels leave the hub in BOOT with 0x0007. -/
def Obligations.BootStepsLeadToCommissionOrRecordTheirFailure : Prop :=
  (∀ s, booting s.hub = true → s.hub.boot.memDone = false →
    exec (.bootMemoryInitDone true) s
      = .next { s with hub := { s.hub with boot := { s.hub.boot with memDone := true, memOk := true } } })
  ∧ (∀ s, booting s.hub = true → s.hub.boot.katDone = false → s.hub.dome.generation ≠ 32 →
    ∃ t, exec (.knownAnswerTestsDone 0x3FF) s = .next t ∧ t.hub.boot.katDone = true ∧ t.hub.boot.katOk = true
      ∧ rd t.hub 0x4B00_02 = 2 ∧ rd t.hub 0x4B00_0A = 0x3FF ∧ evented { s.hub with boot := t.hub.boot } t.hub = t.hub
      ∧ KeptBut ((0x4B00_02, 0x4B00_02) :: (0x4B00_0A, 0x4B00_0A) :: eventRanges) s.hub t.hub)
  ∧ (∀ okA okB okHost s, imageDue s.hub = true → bootSource s.hub ≤ 1 →
    slotUsable (slot s.hub (bootSource s.hub)) (if bootSource s.hub = 0 then okA else okB) = true →
    ∃ t, exec (.imageVerifyDone okA okB okHost) s = .next t ∧ t.hub.boot.imageDone = true ∧ rd t.hub 0x2000_11 = 0
      ∧ rd t.hub 0x4F00_0A = bootSource s.hub
      ∧ (slot t.hub (bootSource s.hub)).failed = (slot s.hub (bootSource s.hub)).failed + 1)
  ∧ (∀ okA okB s, imageDue s.hub = true → bootSource s.hub = 2 → s.hub.boot.control = 1 →
    ∃ t, exec (.imageVerifyDone okA okB true) s = .next t ∧ t.hub.boot.imageDone = true ∧ t.hub.boot.control = 2
      ∧ rd t.hub 0x2000_11 = 0)
  ∧ (∀ okA okB s, imageDue s.hub = true → bootSource s.hub = 2 → s.hub.boot.control = 1 →
    ∃ t, exec (.imageVerifyDone okA okB false) s = .next t ∧ t.hub.boot.imageDone = s.hub.boot.imageDone ∧ t.hub.boot.control = 3
      ∧ t.hub.boot.image = [] ∧ rd t.hub 0x2000_11 = 5)
  ∧ (∀ n s, booting s.hub = true → bootSource s.hub = 2 → s.hub.boot.imageDone = false → s.hub.boot.control ≠ 1 →
    exec (.bootControlWrite n) s
      = .next { s with hub := { s.hub with boot := { s.hub.boot with control := 1, image := s.hub.boot.image.take n } } })
  ∧ (∀ s, booting s.hub = true → s.hub.boot.imageDone = true → s.hub.watch.backstopRec = none →
    ∃ t, exec (.firmwareSelftestDone 0 0) s = .next t ∧ ModeEntered 1 2 t.hub ∧ rd t.hub 0x2000_11 = 1
      ∧ t.hub.boot.complete = true ∧ t.hub.boot.transit = true ∧ t.hub.store.loading = true)
  ∧ (∀ s, booting s.hub = true → s.hub.boot.memDone = false → rd s.hub 0x2000_11 = 0 →
    ∃ t, exec (.bootMemoryInitDone false) s = .next t ∧ rd t.hub 0x2000_11 = 7 ∧ recordHeld t.hub 0x04 = true
      ∧ t.hub.boot.memOk = false)
  ∧ (∀ results s, results < 1024 → results ≠ 0x3FF → booting s.hub = true → s.hub.boot.katDone = false → rd s.hub 0x2000_11 = 0 →
    ∃ t, exec (.knownAnswerTestsDone results) s = .next t ∧ rd t.hub 0x2000_11 = 6 ∧ recordHeld t.hub 0x04 = true
      ∧ rd t.hub 0x4B00_02 = 3 ∧ t.hub.boot.katOk = false)
  ∧ (∀ okHost s, imageDue s.hub = true → bootSource s.hub ≤ 1 → rd s.hub 0x2000_11 = 0 →
    ∃ t, exec (.imageVerifyDone false false okHost) s = .next t ∧ t.hub.boot.imageDone = s.hub.boot.imageDone
      ∧ rd t.hub 0x2000_11 = 4 ∧ eventPending t.hub 0x01 = true)
  ∧ (∀ channels s, popCount 3 channels ≥ 2 → booting s.hub = true → s.hub.boot.imageDone = true →
    ∃ t, exec (.firmwareSelftestDone channels 0) s = .next t ∧ rd t.hub 0x2000_11 = 7 ∧ recordHeld t.hub 0x04 = true)

/-- R56, R63, R64: the entry to FACTORY needs the wait that the straps and TEST_MODE opened, memory and known-answer tests passed and a
crypto officer session of the host port; on entry the station root key and every session are gone (R626). Without authentication in
time the status is 0x000A. -/
def Obligations.FactoryEntryZeroises : Prop :=
  (∀ s, booting s.hub = true → s.hub.boot.factoryWait = true → s.hub.boot.memOk = true → s.hub.boot.katOk = true →
    (session s.hub .host).role = 2 →
    ∃ t, exec .factoryEntry s = .next t ∧ ModeEntered 1 8 t.hub ∧ t.hub.dome.srk = none
      ∧ t.hub.dome.generation = min 32 (s.hub.dome.generation + 1) ∧ (∀ e ∈ t.hub.sessions, e.2.role = 0)
      ∧ t.hub.boot.transit = true ∧ t.hub.boot.factoryWait = false)
  ∧ (∀ s, booting s.hub = true → s.hub.boot.factoryWait = true → (session s.hub .host).role ≠ 2 → rd s.hub 0x2000_11 = 0 →
    ∃ t, exec .factoryAuthTimeout s = .next t ∧ rd t.hub 0x2000_11 = 0xA ∧ KeptBut [(0x2000_11, 0x2000_11)] s.hub t.hub
      ∧ { t.hub with dict := s.hub.dict } = { s.hub with boot := { s.hub.boot with factoryWait := false } })
  ∧ (∀ s, s.hub.boot.factoryWait = false → exec .factoryEntry s = .next s ∧ exec .factoryAuthTimeout s = .next s)
  ∧ (∀ s, s.hub.boot.memOk = false ∨ s.hub.boot.katOk = false → exec .factoryEntry s = .next s)
  ∧ (∀ s, (session s.hub .host).role = 2 → exec .factoryAuthTimeout s = .next s)

/-- R44, R47, R67, R68, R378, R11: mode requests. From each mode Table 2 allows, the request takes the hub to its mode; a request 0x03 in
COMMISSION stays pending and changes nothing else; 0x03 in CLEARING ends it. From any other mode the request is refused with
0x04, recorded at 0x4001, and the mode stays; so is the request for SERVICE of a hub AHEAD. While a sleep round is LATE a request for
any mode that the present one allows is refused with 0x08. -/
def Obligations.ModeRequestsFollowTheTransitionTable : Prop :=
  (∀ p s, WriteOpen p 0x2000 2 2 s.hub → mode s.hub ∈ [3, 4, 5, 7] → roundState s.hub ≠ 4 →
    ∃ t, exec (.modeRequestCommission p) s = .next t ∧ t.pending = s.pending ∧ ModeEntered (mode s.hub) 2 t.hub
      ∧ t.hub.modes.autoReturn = serving s.hub)
  ∧ (∀ p s, WriteOpen p 0x2000 2 3 s.hub → mode s.hub = 2 → roundState s.hub ≠ 4 →
    ∃ t, exec (.modeRequestRun p) s = .next t ∧ t.pending = s.pending ∧ t.hub.modes = { s.hub.modes with runRequest := true }
      ∧ t.hub.answer = .accepted ∧ KeptBut pathRanges s.hub t.hub)
  ∧ (∀ p s, WriteOpen p 0x2000 2 3 s.hub → mode s.hub = 5 → roundState s.hub ≠ 4 →
    ∃ t, exec (.modeRequestRun p) s = .next t ∧ t.pending = s.pending ∧ ModeEntered 5 3 t.hub)
  ∧ (∀ p s, WriteOpen p 0x2000 2 5 s.hub → mode s.hub = 3 → committed s.hub = false →
    clearingBad (writeBegun p 0x2000 2 s.hub) = false →
    ∃ t h, exec (.modeRequestClearing p) s = .next t ∧ t.pending = s.pending ∧ ModeEntered 3 5 h
      ∧ t.hub = forEach (clearingSet s.hub) sleepResource h
      ∧ t.hub.sleep.asleep = s.hub.sleep.asleep ++ clearingSet s.hub)
  ∧ (∀ p s, WriteOpen p 0x2000 2 7 s.hub → mode s.hub ∈ [2, 3, 4, 5] → roundState s.hub ≠ 4 → spireState s.hub ≠ 7 →
    ∃ t, exec (.modeRequestService p) s = .next t ∧ t.pending = s.pending ∧ ModeEntered (mode s.hub) 7 t.hub)
  ∧ (∀ p s, roundState s.hub = 4 →
    (WriteOpen p 0x2000 2 2 s.hub → mode s.hub ∈ [3, 4, 5, 7] →
      ∃ t, exec (.modeRequestCommission p) s = .next t ∧ t.hub.answer = .refused 8 ∧ KeptBut pathRanges s.hub t.hub)
    ∧ (WriteOpen p 0x2000 2 3 s.hub → mode s.hub ∈ [2, 5] →
      ∃ t, exec (.modeRequestRun p) s = .next t ∧ t.hub.answer = .refused 8 ∧ KeptBut pathRanges s.hub t.hub)
    ∧ (WriteOpen p 0x2000 2 5 s.hub → mode s.hub = 3 → clearingBad (writeBegun p 0x2000 2 s.hub) = false →
      ∃ t, exec (.modeRequestClearing p) s = .next t ∧ t.hub.answer = .refused 8 ∧ KeptBut pathRanges s.hub t.hub)
    ∧ (WriteOpen p 0x2000 2 7 s.hub → mode s.hub ∈ [2, 3, 4, 5] → spireState s.hub ≠ 7 →
      ∃ t, exec (.modeRequestService p) s = .next t ∧ t.hub.answer = .refused 8 ∧ KeptBut pathRanges s.hub t.hub))
  ∧ (∀ p s,
    (WriteOpen p 0x2000 2 2 s.hub → mode s.hub ∉ [3, 4, 5, 7] →
      ∃ t, exec (.modeRequestCommission p) s = .next t ∧ t.hub.answer = .refused 4 ∧ rd t.hub 0x4001_05 = 4
        ∧ mode t.hub = mode s.hub ∧ KeptBut pathRanges s.hub t.hub)
    ∧ (WriteOpen p 0x2000 2 3 s.hub → mode s.hub ∉ [2, 5] →
      ∃ t, exec (.modeRequestRun p) s = .next t ∧ t.hub.answer = .refused 4 ∧ rd t.hub 0x4001_05 = 4
        ∧ mode t.hub = mode s.hub ∧ KeptBut pathRanges s.hub t.hub)
    ∧ (WriteOpen p 0x2000 2 5 s.hub → mode s.hub ≠ 3 →
      ∃ t, exec (.modeRequestClearing p) s = .next t ∧ t.hub.answer = .refused 4 ∧ rd t.hub 0x4001_05 = 4
        ∧ mode t.hub = mode s.hub ∧ KeptBut pathRanges s.hub t.hub)
    ∧ (WriteOpen p 0x2000 2 7 s.hub → mode s.hub ∉ [2, 3, 4, 5] ∨ spireState s.hub = 7 →
      ∃ t, exec (.modeRequestService p) s = .next t ∧ t.hub.answer = .refused 4 ∧ rd t.hub 0x4001_05 = 4
        ∧ mode t.hub = mode s.hub ∧ KeptBut pathRanges s.hub t.hub))

/-- R44, R60, R67, R69: LIMP_EXIT with no LIMP cause returns to RUN; a software reset and the Ranger watchdog start BOOT again with
their cause and the straps as latched; a gate closed for 10 s with RUN asked for raises EV_GEN_COMMISSION_BLOCKED once; RUN_ENTRY with every
gate condition met and RUN asked for starts the cycles. -/
def Obligations.ModesChangeOnTheirTriggers : Prop :=
  (∀ s, mode s.hub = 4 → rd s.hub 0x2000_06 = 0 → ∃ t, exec .limpExit s = .next t ∧ ModeEntered 4 3 t.hub)
  ∧ (∀ p s, WriteOpen p 0x2000 0x14 1 s.hub → mode s.hub = 2 ∨ mode s.hub = 7 ∨ mode s.hub = 8 →
    ∃ t, exec (.softwareReset p 1) s = .next t ∧ mode t.hub = 1 ∧ rd t.hub 0x2000_07 = 3
      ∧ rd t.hub 0x2000_08 = rd s.hub 0x2000_08 % 65536 ∧ t.hub.boot.latched = true ∧ t.hub.answer = .accepted)
  ∧ (∀ s, s.hub.env.resetLow = false → s.hub.boot.latched = true → mode s.hub ≠ 6 →
    ∃ t, exec .rangerWatchdogExpiry s = .next t ∧ mode t.hub = 1 ∧ rd t.hub 0x2000_07 = 4
      ∧ rd t.hub 0x2000_08 = rd s.hub 0x2000_08 % 65536 ∧ t.hub.boot.latched = true)
  ∧ (∀ s, mode s.hub = 2 → s.hub.modes.runRequest = true ∨ rdB s.hub 0x2000_0F = true → gate s.hub ≠ 0xFF → s.hub.modes.blocked = false →
    ∃ t, exec .commissionBlockedTimeout s = .next t ∧ eventPending t.hub 0x02 = true ∧ KeptBut eventRanges s.hub t.hub
      ∧ evented { s.hub with modes := { s.hub.modes with blocked := true, blockedGate := gate s.hub } } t.hub = t.hub)
  ∧ (∀ s, mode s.hub = 2 → gate s.hub = 0xFF → runWanted s.hub = true →
    ModeEntered 2 3 (changeMode 3 s.hub) ∧
    ∃ h, h = { whenDo (rd s.hub 0x2000_03 == 6) unmaskAll (beginCycles (changeMode 3 s.hub)) with
          modes := { (beginCycles (changeMode 3 s.hub)).modes with autoReturn := false } }
      ∧ exec .runEntry s = .next { s with hub := if rd h 0x2000_06 = 0 then h else changeMode 4 h })

/-! ### Object dictionary -/

/-- R11, R35, R81, R82, R85, R91, R95: a write in the entry's size on a path that meets no cause of refusal is applied: the entry holds the
written value without its reserved bits, the answer is "accepted", and nothing else among the registers changes but the
access records; a size that no entry has is refused with code 0x07. A write that meets a cause of Table 2 is refused with the code of the
first cause that applies; 0x4001 records the path, the entry and the code, a host-window write raises EV_DICT_WRITE_REFUSED, and no
other register changes. -/
def Obligations.DictionaryWriteIsAppliedOrRefused : Prop :=
  (∀ p index sub size v s, entryRow index sub ≠ none → ownWrite p index sub (v % 2 ^ 48) = none → shape index sub = .single →
    slotAcc index sub ≠ some .w1c → bufSlot index sub = none → index ≠ 0x2B01 →
    (p = .host ∧ size = 8 ∧ v < 2 ^ 64 ∨ p = .host ∧ size = 4 ∧ wide s.hub index sub = false ∧ v < 2 ^ 32
      ∨ (∃ n, p = .ring n) ∧ size = 6 ∧ v < 2 ^ 48
      ∨ (∃ c, p = .sdo c) ∧ furtherSlot index sub = false ∧ sdoLengthOk s.hub index sub size = true ∧ size ≤ 6 ∧ v < 256 ^ size) →
    Accepted p index sub (v % 2 ^ 48) (entryCauses index sub (v % 2 ^ 48)) s.hub →
    ∃ t, exec (.dictionaryWrite p index sub ⟨0, size⟩ v) s = .next t
      ∧ t = { s with hub := afterWrite index sub (v % 2 ^ 48) (storeEntry index sub (v % 2 ^ 48) (writeStart p index sub s.hub)) }
      ∧ ((∀ h, afterWrite index sub (v % 2 ^ 48) h = h) → t.hub.answer = .accepted
          ∧ rd t.hub (slotKey index sub) = keptBits index sub (v % 2 ^ 48)
          ∧ KeptBut ((slotKey index sub, slotKey index sub) :: pathRanges) s.hub t.hub))
  ∧ (∀ index sub off size v s, ¬ (off = 0 ∧ size = 8) → ¬ (off % 4 = 0 ∧ size = 4) → index < 65536 → sub < 256 →
    SizeOpen .host index sub (if off = 0 then some v else none) s.hub →
    ∃ t, exec (.dictionaryWrite .host index sub ⟨off, size⟩ v) s = .next t ∧ t.hub.answer = .refused 7 ∧ rd t.hub 0x4001_05 = 7
      ∧ eventPending t.hub 3 = true ∧ KeptBut pathRanges s.hub t.hub)
  ∧ (∀ p index sub v c s, index < 65536 → sub < 256 → ownWrite p index sub v = none → shape index sub = .single →
    served s.hub p = true → pathWaits s.hub p = false →
    refusalCode (entryCauses index sub v (writeBegun p index sub s.hub)
      (writeCauses (writeBegun p index sub s.hub) p index sub v)) = some c →
    (∀ hw, ∃ t, exec (.w1cWrite p index sub v hw) s = .next t ∧ t.hub.answer = .refused c)
    ∧ ∃ h, h = writeSlot p index sub v s.hub ∧ (∀ n, p = .ring n → exec (.dictionaryWrite p index sub ⟨0, 6⟩ v) s = .next { s with hub := h })
      ∧ h.answer = .refused c ∧ rd h 0x4001_02 = pathCode p ∧ rd h 0x4001_03 = index
      ∧ rd h 0x4001_04 = sub ∧ rd h 0x4001_05 = c ∧ (p = .host → eventPending h 3 = true) ∧ KeptBut pathRanges s.hub h)

/-- R9, R10, R12 to R14: W1C clears the bits written as 1 but for those the hub sets in the same clock; a read of an RC entry returns
its value and leaves what arrives with it, a peak the level that stands (the model's reading, log 60); the words of a TIME are latched by the read and held by the write of the lower,
and taken together by the write of the upper, which is refused with 0x07 where nothing is held. -/
def Obligations.ReadAndWriteClassesKeepTheirRules : Prop :=
  (∀ p index sub v hw s, slotAcc index sub = some .w1c → ownWrite p index sub v = none → hw < 2 ^ 48 →
    Accepted p index sub v (entryCauses index sub v) s.hub →
    ∃ t, exec (.w1cWrite p index sub v hw) s = .next t ∧ t.hub.answer = .accepted
      ∧ rdW t.hub (slotKey index sub) = (rdW (writeBegun p index sub s.hub) (slotKey index sub) &&& ~~~ BitVec.ofNat 48 v)
          ||| BitVec.ofNat 48 (keptBits index sub hw)
      ∧ KeptBut ((slotKey index sub, slotKey index sub) :: pathRanges) s.hub t.hub)
  ∧ (∀ p index sub u s, served s.hub p = true → pathWaits s.hub p = false → slotAcc index sub = some .rc → shape index sub = .single → bufSlot index sub = none →
    slotKey index sub ≠ 0x2A02_01 → index < 0x6000 → view (readTouch p index sub s.hub) p index sub = none →
    refusalCode (readCauses (readTouch p index sub s.hub) index sub) = none →
    ∃ t, exec (.rcRead p index sub u) s = .next t
      ∧ t.hub.answer = .value (rd (readTouch p index sub s.hub) (slotKey index sub))
      ∧ rd t.hub (slotKey index sub) = (if rcCleared index sub ≠ 0 then (if u = 0 then 2 ^ 32 - 1 else min (2 ^ 32 - 1) u)
          else if u = 0 then peakLevel (readTouch p index sub s.hub) index sub % 2 ^ 48
          else min (peakLevel (readTouch p index sub s.hub) index sub % 2 ^ 48 + u) (tyMax index sub))
      ∧ KeptBut [(slotKey index sub, slotKey index sub), (0x4A00_05, 0x4A00_05)] s.hub t.hub)
  ∧ (∀ p index sub s, served s.hub p = true → pathWaits s.hub p = false → shape index sub = .timeLo → bufSlot index sub = none → index < 0x6000 →
    refusalCode (readCauses (readTouch p index sub s.hub) index sub) = none →
    ∃ t, exec (.timeLowerRead p index sub) s = .next t
      ∧ t.hub.answer = .value (slotValue (readTouch p index sub s.hub) p index sub)
      ∧ latchedHi (pathState t.hub p) (slotKey index sub + 1) = some (slotValue (readTouch p index sub s.hub) p index (sub + 1))
      ∧ (∀ k, k ≠ slotKey index sub + 1 → latchedHi (pathState t.hub p) k = latchedHi (pathState s.hub p) k)
      ∧ t.hub.dict = (readTouch p index sub s.hub).dict)
  ∧ (∀ p index sub v s, shape index sub = .timeLo → Accepted p index sub v (entryCauses index sub v) s.hub →
    ∃ t, exec (.timeLowerWrite p index sub v) s = .next t ∧ t.hub.answer = .accepted
      ∧ heldLower t.hub p (slotKey index sub + 1) = some v ∧ KeptBut pathRanges s.hub t.hub)
  ∧ (∀ p index sub lo v s, shape index (sub + 1) = .timeHi → heldLower s.hub p (slotKey index (sub + 1)) = some lo →
    timeHiBad v = false → Accepted p index (sub + 1) v (entryCauses index (sub + 1) v) s.hub →
    ∃ t h, exec (.timeUpperWrite p index (sub + 1) v) s = .next t ∧ t.hub = afterWrite index (sub + 1) v h
      ∧ (lo < 2 ^ 48 → rd h (slotKey index sub) = keptBits index sub lo)
      ∧ (v < 2 ^ 48 → rd h (slotKey index (sub + 1)) = keptBits index (sub + 1) v)
      ∧ heldLower h p (slotKey index (sub + 1)) = none
      ∧ KeptBut ((slotKey index sub, slotKey index (sub + 1)) :: pathRanges) s.hub h)
  ∧ (∀ p index sub v s, shape index sub = .timeHi → heldLower s.hub p (slotKey index sub) = none → timeHiBad v = false →
    Accepted p index sub v (entryCauses index sub v) s.hub →
    ∃ t, exec (.timeUpperWrite p index sub v) s = .next t ∧ t.hub.answer = .refused 7 ∧ KeptBut pathRanges s.hub t.hub)

/-- R74, R75, R77, R87, R88, R90, R781: the first read of a long entry latches the whole of it; its slots are held until the last is
written and take effect together; the host window latches the upper bits of a slot for a later 4-byte read and holds the lower half
of a 4-byte write until the upper half comes. A read of the host or a write of any path waits while an earlier write of its path is
neither applied nor refused. -/
def Obligations.LongEntriesAndHalvesAreWhole : Prop :=
  (∀ p index f n s, served s.hub p = true → pathWaits s.hub p = false → shape index f = .long f n → bufSlot index f = none → index < 0x6000 →
    refusalCode (readCauses (readTouch p index f s.hub) index f) = none →
    ∃ t, exec (.longEntryFirstRead p index f) s = .next t
      ∧ t.hub.answer = .value (slotValue (readTouch p index f s.hub) p index f)
      ∧ tabFind (pathState t.hub p).longLatch (slotKey index f) = some (longContent (readTouch p index f s.hub) p index f n)
      ∧ (∀ k, k ≠ slotKey index f → tabFind (pathState t.hub p).longLatch k = tabFind (pathState s.hub p).longLatch k)
      ∧ t.hub.dict = (readTouch p index f s.hub).dict)
  ∧ (∀ p index f n j v s, shape index (f + j) = .long f n → j + 1 < slotsOf n →
    Accepted p index (f + j) v (entryCauses index (f + j) v) s.hub →
    ∃ t, exec (.longEntrySlotWrite p index (f + j) v) s = .next t ∧ t.hub.answer = .accepted
      ∧ (pathState t.hub p).longHeld
          = some (slotKey index f, (heldLong (writeBegun p index (f + j) s.hub) p index f n).set j (BitVec.ofNat 48 v))
      ∧ KeptBut pathRanges s.hub t.hub)
  ∧ (∀ p index f n v ws s, shape index (f + slotsOf n - 1) = .long f n → 1 ≤ slotsOf n → bufSlot index f = none →
    index ≠ 0x2B02 → index ≠ 0x2F02 → pathWaits s.hub p = false →
    ws = (heldLong s.hub p index f n).set (slotsOf n - 1) (BitVec.ofNat 48 v) →
    (∀ k vs, (pathState s.hub p).longHeld = some (k, vs) → k = slotKey index f ∨ slotKey index (f + slotsOf n - 1) < k
      ∨ k + vs.length ≤ slotKey index (f + slotsOf n - 1)) →
    Accepted p index (f + slotsOf n - 1) (bytesNat ((wordsBytes ws).take n)) (entryCauses index f 0) (dropLong p index f s.hub) →
    ∃ t, exec (.longEntrySlotWrite p index (f + slotsOf n - 1) v) s = .next t ∧ t.hub.answer = .accepted
      ∧ (pathState t.hub p).longHeld = none
      ∧ (∀ j, j < slotsOf n → rdW t.hub (slotKey index (f + j)) = (cutBytes n ws).getD j 0)
      ∧ KeptBut ((slotKey index f, slotKey index (f + slotsOf n - 1)) :: pathRanges) s.hub t.hub)
  ∧ (∀ index sub v s, pathWaits s.hub .host = false → (readSlot .host index sub s.hub).answer = .value v →
    exec (.hostWindowLowRead ⟨index, sub⟩ ⟨0, 8⟩) s = .next { s with hub := readSlot .host index sub s.hub } ∧
    ∃ t, exec (.hostWindowLowRead ⟨index, sub⟩ ⟨0, 4⟩) s = .next t ∧ t.hub.answer = .value (v % 2 ^ 32)
      ∧ t.hub.hostHalf.latch = some (slotKey index sub, v / 2 ^ 32) ∧ t.hub.dict = (readSlot .host index sub s.hub).dict)
  ∧ (∀ index sub v s, msixSlot s.hub .host index sub = false → wide s.hub index sub = true → WriteOpen .host index sub v s.hub →
    ∃ t, exec (.hostWindowHalfWrite index sub false v) s = .next t ∧ t.hub.answer = .accepted
      ∧ t.hub.hostHalf.half = some (slotKey index sub, v % 2 ^ 32) ∧ KeptBut pathRanges s.hub t.hub)
  ∧ (∀ index sub lo v s, pathWaits s.hub .host = false → msixSlot s.hub .host index sub = false → wide s.hub index sub = true →
    s.hub.hostHalf.half = some (slotKey index sub, lo) →
    ∃ t, exec (.hostWindowHalfWrite index sub true v) s = .next t ∧ t.hub.hostHalf.half = none
      ∧ { t.hub with hostHalf := { t.hub.hostHalf with
            half := (writeSlot .host index sub (lo + v % 65536 * 2 ^ 32) s.hub).hostHalf.half } }
          = writeSlot .host index sub (lo + v % 65536 * 2 ^ 32) s.hub)
  ∧ (∀ index sub v s, msixSlot s.hub .host index sub = false → wide s.hub index sub = true → s.hub.hostHalf.half = none →
    SizeOpen .host index sub none s.hub →
    ∃ t, exec (.hostWindowHalfWrite index sub true v) s = .next t ∧ t.hub.answer = .refused 7 ∧ KeptBut pathRanges s.hub t.hub)
  ∧ (∀ index sub lo s, served s.hub .host = true → pathWaits s.hub .host = false → msixSlot s.hub .host index sub = false →
    (s.hub.hostHalf.latch = some (slotKey index sub, lo) →
      ∃ t, exec (.hostWindowLowRead ⟨index, sub⟩ ⟨4, 4⟩) s = .next t ∧ t.hub.answer = .value lo
        ∧ t.hub.dict = (readTouch .host index sub s.hub).dict ∧ t.hub.paths = s.hub.paths)
    ∧ (s.hub.hostHalf.latch = none → refusalCode (slotCauses (readTouch .host index sub s.hub) index sub) = none →
      ∃ t, exec (.hostWindowLowRead ⟨index, sub⟩ ⟨4, 4⟩) s = .next t
        ∧ t.hub.answer = .value (presentValue index sub (readTouch .host index sub s.hub) / 2 ^ 32)
        ∧ t.hub.dict = (readTouch .host index sub s.hub).dict ∧ t.hub.paths = s.hub.paths))
  ∧ (∀ index sub off size s, served s.hub .host = true → pathWaits s.hub .host = false → ¬ (off = 0 ∧ size = 8) →
    ¬ (off = 0 ∧ size = 4) → ¬ (off = 4 ∧ size = 4) →
    refusalCode (readCauses (readTouch .host index sub s.hub) index sub) = none →
    ∃ t, exec (.hostWindowLowRead ⟨index, sub⟩ ⟨off, size⟩) s = .next t ∧ t.hub.answer = .refused 7)
  ∧ (∀ index sub off size s, served s.hub .host = true → pathWaits s.hub .host = true →
    ∃ t, exec (.hostWindowLowRead ⟨index, sub⟩ ⟨off, size⟩) s = .next t ∧ t.hub.answer = .none ∧ t.hub.dict = s.hub.dict
      ∧ t.hub.host.waiting = s.hub.host.waiting ++ [.hostRead none [] (8 * slotKey index sub + off) size])
  ∧ (∀ p index sub v s, served s.hub p = true → pathWaits s.hub p = true →
    (∀ i, i ∈ [Instr.timeLowerWrite p index sub v, .timeUpperWrite p index sub v, .longEntrySlotWrite p index sub v] →
      ∃ t, exec i s = .next t ∧ t.hub.answer = .none ∧ t.hub.dict = s.hub.dict
        ∧ t.hub.host.waiting = s.hub.host.waiting ++ [.slotWrite p index sub v]))
  ∧ (∀ index sub v s, msixSlot s.hub .host index sub = false → narrow s.hub index sub = true →
    WriteOpen .host index sub v s.hub →
    ∃ t, exec (.hostWindowHalfWrite index sub true v) s = .next t ∧ t.hub.answer = .accepted ∧ KeptBut pathRanges s.hub t.hub)

/-- R77, R94 to R100: a request to all hubs is dropped and counted; a read or a write of one slot that is served is answered by a frame to the
requester with status 0, one that is refused by a frame with its code; a request waits while an earlier write of its hub does. The mailbox sends its request, shows 0xFF and takes one
response; an absent target gives 0xFD, no response within 10 ms 0xFE, each with EV_DICT_REMOTE_DONE. -/
def Obligations.RemoteDictionaryAccess : Prop :=
  (∀ src op tag index sub count data s, ∃ t, exec (.ringDictRequest src 255 op tag index sub count data) s = .next t
      ∧ t.hub = bump s.hub 0x4001_09)
  ∧ (∀ src tag index sub v s, served s.hub (.ring src) = true → pathWaits s.hub (.ring src) = false → hubNumber s.hub ≠ 255 →
    refusalCode (requestCauses s.hub (.ring src) 1 index sub 1 []) = none →
    (readSlot (.ring src) index sub s.hub).answer = .value v →
    (readSlot (.ring src) index sub s.hub).canopen.writes = s.hub.canopen.writes →
    ∃ t f, exec (.ringDictRequest src (hubNumber s.hub) 1 tag index sub 1 []) s = .next t
      ∧ portFrames t.hub 6 = portFrames (readSlot (.ring src) index sub s.hub) 6 ++ [f]
      ∧ f.dst = src ∧ f.ftype = 4 ∧ f.cls = .mg
      ∧ f.payload = [BitVec.ofNat 48 (responseHead 1 tag index sub), BitVec.ofNat 48 v]
      ∧ KeptBut [(0x4001_08, 0x4001_08)] (readSlot (.ring src) index sub s.hub) t.hub)
  ∧ (∀ src tag index sub v s, served s.hub (.ring src) = true → pathWaits s.hub (.ring src) = false → hubNumber s.hub ≠ 255 →
    refusalCode (requestCauses s.hub (.ring src) 2 index sub 1 [v]) = none →
    (writeSlot (.ring src) index sub v s.hub).answer = .accepted → hubNumber (writeSlot (.ring src) index sub v s.hub) ≠ 0 →
    (writeSlot (.ring src) index sub v s.hub).canopen.writes = s.hub.canopen.writes →
    ∃ t f, exec (.ringDictRequest src (hubNumber s.hub) 2 tag index sub 1 [v]) s = .next t
      ∧ portFrames t.hub 6 = portFrames (writeSlot (.ring src) index sub v s.hub) 6 ++ [f]
      ∧ f.dst = src ∧ f.ftype = 4 ∧ f.cls = .mg ∧ f.payload = [BitVec.ofNat 48 (responseHead 2 tag index sub)])
  ∧ (∀ src op tag index sub count data c s, served s.hub (.ring src) = true → hubNumber s.hub ≠ 255 →
    index < 65536 → sub < 256 →
    refusalCode (requestCauses s.hub (.ring src) op index sub count data) = some c →
    ∃ t q f, exec (.ringDictRequest src (hubNumber s.hub) op tag index sub count data) s = .next t
      ∧ portFrames t.hub 6 = q ++ [f] ∧ f.dst = src ∧ f.payload = [BitVec.ofNat 48 (responseHead op tag index sub + c)]
      ∧ rd t.hub 0x4001_02 = 3 ∧ rd t.hub 0x4001_05 = c)
  ∧ (∀ src op tag index sub count data s, served s.hub (.ring src) = true → pathWaits s.hub (.ring src) = true →
    hubNumber s.hub ≠ 255 → refusalCode (requestCauses s.hub (.ring src) op index sub count data) = none →
    ∃ t, exec (.ringDictRequest src (hubNumber s.hub) op tag index sub count data) s = .next t ∧ t.hub.dict = s.hub.dict
      ∧ t.hub.host.waiting = s.hub.host.waiting ++ [.request src op tag index sub count data])
  ∧ (∀ p s, WriteOpen p 0x2002 5 1 s.hub → s.hub.mailbox.pending = none → rd s.hub 0x2002_01 ∈ othersPresent s.hub →
    hubNumber s.hub ≠ 0 →
    ∃ t q f, exec (.mailboxRead p) s = .next t ∧ t.hub.mailbox.pending = some (s.hub.mailbox.nextTag % 256)
      ∧ rd t.hub 0x2002_06 = 0xFF ∧ portFrames t.hub 6 = q ++ [f] ∧ f.dst = rd s.hub 0x2002_01 ∧ f.payload.length = 1
      ∧ KeptBut ((0x2002_06, 0x2002_06) :: pathRanges) s.hub t.hub)
  ∧ (∀ p s, WriteOpen p 0x2002 5 2 s.hub → s.hub.mailbox.pending = none → rd s.hub 0x2002_01 ∈ othersPresent s.hub →
    hubNumber s.hub ≠ 0 →
    ∃ t q f w, exec (.mailboxWrite p) s = .next t ∧ t.hub.mailbox.pending = some (s.hub.mailbox.nextTag % 256)
      ∧ rd t.hub 0x2002_06 = 0xFF ∧ portFrames t.hub 6 = q ++ [f] ∧ f.dst = rd s.hub 0x2002_01
      ∧ f.payload = [w, rdW s.hub 0x2002_04] ∧ KeptBut ((0x2002_06, 0x2002_06) :: pathRanges) s.hub t.hub)
  ∧ (∀ p s, WriteOpen p 0x2002 5 1 s.hub → s.hub.mailbox.pending = none → rd s.hub 0x2002_01 ∉ othersPresent s.hub →
    ∃ t, exec (.mailboxRead p) s = .next t ∧ rd t.hub 0x2002_06 = 0xFD ∧ eventPending t.hub 4 = true
      ∧ t.hub.mailbox.pending = none)
  ∧ (∀ tag status data s, s.hub.mailbox.pending = some tag → status < 2 ^ 48 → data < 2 ^ 48 →
    ∃ t, exec (.mailboxResponse tag status data) s = .next t ∧ t.hub.mailbox.pending = none ∧ rd t.hub 0x2002_06 = status
      ∧ rd t.hub 0x2002_04 = (if s.hub.mailbox.isRead ∧ status = 0 then data else rd s.hub 0x2002_04)
      ∧ eventPending t.hub 4 = true ∧ KeptBut ((0x2002_04, 0x2002_06) :: eventRanges) s.hub t.hub)
  ∧ (∀ s, s.hub.mailbox.pending.isSome = true →
    ∃ t, exec .mailboxTimeout s = .next t ∧ t.hub.mailbox.pending = none ∧ rd t.hub 0x2002_06 = 0xFE
      ∧ eventPending t.hub 4 = true ∧ KeptBut ((0x2002_06, 0x2002_06) :: eventRanges) s.hub t.hub)

/-- R102 to R110, R677: a store snapshots the persistent entries that differ from their default, under the next sequence number and into
the copy that is invalid or older; its end writes the copy and raises its event; restoring marks both copies invalid; a
commit confirms the values in force; a load takes the valid copy with the higher sequence number. -/
def Obligations.ConfigurationIsStoredAndLoaded : Prop :=
  (∀ p s, WriteOpen p 0x1010 1 0x65766173 s.hub → storeMode s.hub = true → s.hub.store.job = none →
    ∃ t, exec (.storeParameters p 0x65766173) s = .next t ∧ rd t.hub 0x2001_04 = 1 ∧ t.hub.store.dirty = false
      ∧ t.hub.store.job = some { toB := storesB s.hub, seq := (max (copySeq s.hub s.hub.copyA) (copySeq s.hub s.hub.copyB) + 1) % 2 ^ 32,
                                 snapshot := snapshot (writeBegun p 0x1010 1 s.hub) }
      ∧ KeptBut ((0x2001_04, 0x2001_04) :: pathRanges) s.hub t.hub)
  ∧ (∀ j s, s.hub.store.job = some j →
    (∃ t, exec (.storeComplete true) s = .next t ∧ t.hub.store.job = none ∧ rd t.hub 0x2001_04 = 2 ∧ eventPending t.hub 5 = true
      ∧ (if j.toB then t.hub.copyB else t.hub.copyA)
          = some (tagged s.hub { seq := j.seq, version := rd s.hub 0x2001_01, entries := j.snapshot, tag := 0, marked := false })
      ∧ copyValid t.hub (if j.toB then t.hub.copyB else t.hub.copyA) = true ∧ rd t.hub 0x2001_05 = j.seq % 2 ^ 48
      ∧ (if j.toB then t.hub.copyA = s.hub.copyA else t.hub.copyB = s.hub.copyB)
      ∧ KeptBut ((0x2001_04, 0x2001_07) :: (0x4001_0B, 0x4001_0B) :: eventRanges) s.hub t.hub)
    ∧ (∃ t, exec (.storeComplete false) s = .next t ∧ t.hub.store.job = none ∧ rd t.hub 0x2001_04 = 3
      ∧ eventPending t.hub 6 = true ∧ t.hub.store.dirty = true
      ∧ copyValid t.hub (if j.toB then t.hub.copyB else t.hub.copyA) = false
      ∧ (if j.toB then t.hub.copyA = s.hub.copyA else t.hub.copyB = s.hub.copyB)))
  ∧ (∀ p s, WriteOpen p 0x1011 1 0x64616F6C s.hub →
    ∃ t, exec (.restoreDefaultParameters p 0x64616F6C) s = .next t ∧ copyValid t.hub t.hub.copyA = false ∧ copyValid t.hub t.hub.copyB = false
      ∧ t.hub.answer = .accepted ∧ KeptBut pathRanges s.hub t.hub)
  ∧ (∀ p s, WriteOpen p 0x2001 3 1 s.hub →
    ∃ t, exec (.configurationCommit p 1) s = .next t ∧ t.hub.store.loaded = true ∧ t.hub.answer = .accepted
      ∧ KeptBut pathRanges s.hub t.hub)
  ∧ (∀ p v s, WriteOpen p 0x1010 1 v s.hub →
    (v ≠ 0x65766173 → ∃ t, exec (.storeParameters p v) s = .next t ∧ t.hub.answer = .refused 4 ∧ t.hub.store = s.hub.store)
    ∧ (v = 0x65766173 → s.hub.store.job.isSome = true →
      ∃ t, exec (.storeParameters p v) s = .next t ∧ t.hub.answer = .refused 8 ∧ t.hub.store = s.hub.store)
    ∧ (v = 0x65766173 → s.hub.store.job = none → storeMode s.hub = false →
      ∃ t, exec (.storeParameters p v) s = .next t ∧ t.hub.answer = .refused 10 ∧ t.hub.store = s.hub.store))
  ∧ (∀ c s, s.hub.store.loading = true → bestCopy s.hub = some c → formatAccepted (rd s.hub 0x2001_01) c.version = true →
    (c.entries.map (·.1)).Nodup →
    copyValid s.hub (some c) = true ∧ (∀ d, s.hub.copyA = some d ∨ s.hub.copyB = some d → copyValid s.hub (some d) = true → d.seq ≤ c.seq)
    ∧ ∃ t h, exec .configurationLoadDone s = .next t ∧ t.hub = loadFinished h ∧ rd h 0x2001_02 = c.version % 2 ^ 48
      ∧ (∀ e, e ∈ c.entries → entryKnown e = true →
          rdW h e.1 = if storedBad (knownLoaded c.entries (loadBegun s.hub)) (e.1 / 256) (e.1 % 256) e.2.toNat then slotDefault e.1 else e.2)
      ∧ (∀ k, persistentEntry (k / 256) (k % 256) = true → k ∉ c.entries.map (·.1) → rdW h k = rdW s.hub k))
  ∧ (∀ s, s.hub.store.loading = true → bestCopy s.hub = none →
    ∃ t, exec .configurationLoadDone s = .next t ∧ t.hub = loadFinished (loadBegun s.hub) ∧ t.hub.store.loaded = s.hub.store.loaded
      ∧ ((∃ c, s.hub.copyA = some c ∨ s.hub.copyB = some c) → recordHeld t.hub 5 = true))
  ∧ (∀ s, s.hub.store.loading = true →
    ∃ t, exec .configurationLoadDone s = .next t ∧ t.hub.store.loading = false ∧ t.hub.store.dirty = false
      ∧ rd t.hub 0x4001_0B = validCopies s.hub
      ∧ (∀ c, bestCopy s.hub = some c → formatAccepted (rd s.hub 0x2001_01) c.version = true →
          t.hub.store.loaded = true ∧ rd t.hub 0x4F00_0D = 0))

/-! ### Ring links and frames -/

/-- R124, R128 to R133, R166: a receive direction trains state by state, OFF and DOWN to SIGNAL, BLOCK or ALIGN, FEC or HELLO, LOCKED, UP, on
the trigger of each state and on no other; a timeout takes a training state back to DOWN; each step touches this port alone. A valid
hello takes HELLO to LOCKED and gives the neighbour's number and its remote-fault mark; a hello naming the receiving port gives the mark
too, but is a miswire and raises EV_RING_MISWIRE; one of another version or before HELLO is ignored. After the hold-down time LOCKED goes to UP with
EV_RING_LINK_UP. The transmitter's hello names version, port, fault and hub number. -/
def Obligations.LinksTrainStateByState : Prop :=
  (∀ c port src dst s,
    (c = Instr.linkDownRestart port ∧ src = 1 ∧ dst = 2
      ∨ c = .linkSignalDetect port ∧ src = 2 ∧ dst = (if fecOn s.hub (portNum port) then 4 else 3)
      ∨ c = .blockLock port ∧ src = 3 ∧ dst = 4
      ∨ c = .fecLock port ∧ src = 5 ∧ dst = 6) →
    (rxState s.hub (portNum port) = src →
      ∃ t, exec c s = .next t ∧ rxState t.hub (portNum port) = dst
        ∧ (link t.hub (portNum port)).highest = max (link s.hub (portNum port)).highest dst
        ∧ link t.hub (1 - portNum port) = link s.hub (1 - portNum port)
        ∧ { t.hub with dict := s.hub.dict, links := s.hub.links } = s.hub
        ∧ KeptBut [(0x4100_01 + portNum port, 0x4100_01 + portNum port)] s.hub t.hub)
    ∧ (rxState s.hub (portNum port) ≠ src → exec c s = .next s))
  ∧ (∀ port skew s, rxState s.hub (portNum port) = 4 → skew ≤ 80 →
    ∃ t, exec (.alignLock port skew) s = .next t
      ∧ rxState t.hub (portNum port) = (if fecOn s.hub (portNum port) then 5 else 6)
      ∧ rd t.hub (0x4100_06 + portNum port) = skew
      ∧ { t.hub with dict := s.hub.dict, links := s.hub.links } = s.hub
      ∧ KeptBut [(0x4100_01 + portNum port, 0x4100_01 + portNum port), (0x4100_06 + portNum port, 0x4100_06 + portNum port)]
          s.hub t.hub)
  ∧ (∀ port skew s, 80 < skew → exec (.alignLock port skew) s = .next s)
  ∧ (∀ port s, 2 ≤ rxState s.hub (portNum port) → rxState s.hub (portNum port) ≤ 5 →
    ∃ t, exec (.linkStateTimeout port) s = .next t ∧ rxState t.hub (portNum port) = 1
      ∧ { t.hub with dict := s.hub.dict, links := s.hub.links } = s.hub
      ∧ KeptBut [(0x4100_01 + portNum port, 0x4100_01 + portNum port)] s.hub t.hub)
  ∧ (∀ port s, rxState s.hub (portNum port) = 6 →
    (miswiring s.hub (portNum port) = true → exec (.linkStateTimeout port) s = .next s)
    ∧ (miswiring s.hub (portNum port) = false →
      ∃ t, exec (.linkStateTimeout port) s = .next t ∧ rxState t.hub (portNum port) = 1
        ∧ (link t.hub (portNum port)).miswire = false
        ∧ KeptBut [(0x4100_01 + portNum port, 0x4100_01 + portNum port)] s.hub t.hub))
  ∧ (∀ port sender fault hub s, rxState s.hub (portNum port) = 6 → portNum sender ≠ portNum port →
    ∃ t, exec (.helloReceived port 1 sender fault hub) s = .next t ∧ rxState t.hub (portNum port) = 7
      ∧ rd t.hub (0x4100_08 + portNum port) = hub % 256 ∧ txFailed t.hub (portNum port) = fault
      ∧ rxState t.hub (1 - portNum port) = rxState s.hub (1 - portNum port))
  ∧ (∀ port fault hub s, rxState s.hub (portNum port) = 6 → (link s.hub (portNum port)).miswire = false →
    ∃ t, exec (.helloReceived port 1 port fault hub) s = .next t ∧ rxState t.hub (portNum port) = 6
      ∧ (link t.hub (portNum port)).miswire = true ∧ (link t.hub (portNum port)).miswireAt = nowNs s.hub
      ∧ txFailed t.hub (portNum port) = fault ∧ eventPending t.hub 0x09 = true
      ∧ rd t.hub (0x4100_08 + portNum port) = rd s.hub (0x4100_08 + portNum port)
      ∧ rxState t.hub (1 - portNum port) = rxState s.hub (1 - portNum port))
  ∧ (∀ port version sender fault hub s, rxState s.hub (portNum port) < 6 ∨ version ≠ 1 →
    exec (.helloReceived port version sender fault hub) s = .next s)
  ∧ (∀ port s, rxState s.hub (portNum port) = 7 →
    ∃ t, exec (.holdDownExpiry port) s = .next t ∧ rxState t.hub (portNum port) = 8 ∧ eventPending t.hub 0x0A = true
      ∧ (link t.hub (portNum port)).downSent = false)
  ∧ (∀ port s, rxState s.hub (portNum port) ≠ 7 → exec (.holdDownExpiry port) s = .next s)
  ∧ (∀ port s, rxState s.hub (portNum port) ≠ 0 → (link s.hub (portNum port)).stopped = false →
    ∃ t, exec (.helloSend port) s = .next t ∧ { t.hub with links := s.hub.links } = s.hub
      ∧ link t.hub (portNum port) = { link s.hub (portNum port) with
          helloSent := some (0x4B + 1 * 2 ^ 8 + 1 * 2 ^ 16 + portNum port * 2 ^ 20 + b2n (!rxRuns s.hub (portNum port)) * 2 ^ 21
            + hubNumber s.hub * 2 ^ 24) })
  ∧ (∀ port s, 1 ≤ rxState s.hub (portNum port) → rxState s.hub (portNum port) ≤ 6 →
    ∃ t, exec (.linkTrainFailTimer port) s = .next t ∧ eventPending t.hub 0x0C = true
      ∧ evented s.hub t.hub = t.hub ∧ KeptBut eventRanges s.hub t.hub)

/-- R150, R165, R166, R170: a failure takes a LOCKED or UP direction to DOWN, counts it and raises EV_RING_LINK_DOWN, a training one to DOWN; one
in OFF stays, and invalid sync headers are no cause with FEC on. A frame the direction was delivering is discarded and counted, the copy
of one it was forwarding ends with ERROR. Too many errors in one second do the same and raise EV_RING_ERROR_TAKEDOWN. A FEC or polarity write retrains the port with
its transmitter stopped; transmit disable holds its directions in OFF. -/
def Obligations.LinkFailuresTakeTheLinkDown : Prop :=
  (∀ port cause s, failureCounts s.hub (portNum port) cause = true → rxRuns s.hub (portNum port) = true →
    ∃ t, exec (.linkFailure port cause) s = .next t ∧ rxState t.hub (portNum port) = 1 ∧ eventPending t.hub 0x0B = true
      ∧ rd t.hub (0x4100_13 + portNum port) = min (rd s.hub (0x4100_13 + portNum port) + 1) (2 ^ 32 - 1)
      ∧ (link t.hub (portNum port)).downSent = true ∧ (link t.hub (portNum port)).highest = 0
      ∧ (link t.hub (portNum port)).arriving = []
      ∧ (∀ f hop, (link s.hub (portNum port)).arriving = [(f, hop)] →
          (takesCopy s.hub f = true → rd t.hub 0x4100_0E = min (rd s.hub 0x4100_0E + 1) (2 ^ 32 - 1))
          ∧ (endsHere s.hub f = false →
              tx t.hub (1 - portNum port) = (tx s.hub (1 - portNum port)).changeCopy f fun c => { c with error := true })))
  ∧ (∀ port s, fecOn s.hub (portNum port) = true → exec (.linkFailure port .sync) s = .next s)
  ∧ (∀ port cause s, failureCounts s.hub (portNum port) cause = true → 2 ≤ rxState s.hub (portNum port) →
    rxState s.hub (portNum port) ≤ 6 → (link s.hub (portNum port)).arriving = [] →
    ∃ t, exec (.linkFailure port cause) s = .next t ∧ rxState t.hub (portNum port) = 1
      ∧ (link t.hub (portNum port)).miswire = false
      ∧ KeptBut [(0x4100_01 + portNum port, 0x4100_01 + portNum port)] s.hub t.hub
      ∧ { t.hub with dict := s.hub.dict, links := s.hub.links } = s.hub)
  ∧ (∀ port cause s, rxState s.hub (portNum port) = 0 → exec (.linkFailure port cause) s = .next s)
  ∧ (∀ port errors corrected s, rd s.hub 0x2100_08 < errors → rxRuns s.hub (portNum port) = true →
    ∃ t, exec (.errorTakedown port ⟨errors, corrected⟩) s = .next t ∧ rxState t.hub (portNum port) = 1 ∧ eventPending t.hub 0x0D = true
      ∧ eventPending t.hub 0x0B = true)
  ∧ (∀ port errors corrected s, errors ≤ rd s.hub 0x2100_08 → fecOn s.hub (portNum port) = false →
    exec (.errorTakedown port ⟨errors, corrected⟩) s = .next s)
  ∧ (∀ port errors corrected s, errors ≤ rd s.hub 0x2100_08 → fecOn s.hub (portNum port) = true →
    ∃ t, exec (.errorTakedown port ⟨errors, corrected⟩) s = .next t
      ∧ rd t.hub (0x4100_11 + portNum port) = min (rd s.hub (0x4100_11 + portNum port) + errors) (2 ^ 32 - 1)
      ∧ rd t.hub (0x4100_0F + portNum port) = min (rd s.hub (0x4100_0F + portNum port) + corrected) (2 ^ 32 - 1)
      ∧ { t.hub with dict := s.hub.dict } = s.hub
      ∧ KeptBut [(0x4100_0F + portNum port, 0x4100_0F + portNum port), (0x4100_11 + portNum port, 0x4100_11 + portNum port)]
          s.hub t.hub)
  ∧ (∀ p sub value s, WriteOpen p 0x2100 sub value s.hub → 1 ≤ sub → sub ≤ 4 → value ≤ (if sub ≤ 2 then 1 else 255) →
    rxState s.hub ((sub + 1) % 2) ≠ 0 →
    ∃ t, exec (.ringPortRetrain p sub value) s = .next t ∧ t.hub.answer = .accepted ∧ rd t.hub (0x2100_00 + sub) = value % 16
      ∧ rxState t.hub ((sub + 1) % 2) = 1 ∧ (link t.hub ((sub + 1) % 2)).stopped = true)
  ∧ (∀ p value s, WriteOpen p 0x2100 9 value s.hub → value ≤ 255 →
    ∃ t, exec (.transmitDisableWrite p value) s = .next t ∧ t.hub.answer = .accepted ∧ rd t.hub 0x2100_09 = value % 4
      ∧ ∀ k, k < 2 → (bit value k = true → rxState t.hub k = 0)
          ∧ (bit value k = false → rxState s.hub k = 0 → s.hub.boot.transit = true → bench s.hub = false → rxState t.hub k = 1)
          ∧ (bit value k = false → rxState s.hub k ≠ 0 → rxState t.hub k = rxState s.hub k))

/-- R127, R139, R141 to R151, R156: a running direction strips frames of its own hub, counts those bad in CRC, format or hop count, takes
those for this hub in the order they came, and passes the others on by the other port with the hop count one lower and the CRC part they
came with, CY and UR before the rest; a frame's copy is on its way from the frame's start. A frame whose blocks break off, by a CONT out
of turn, a START before the frame's end, a PAUSE in an express frame, an ERROR or an unknown block, is discarded and counted, and its copy
ends with ERROR (which START breaks a frame, the count and the ERROR where R123 and R145 name none: the model's, log 67). A transmitter sends express frames first, for which it interrupts
another frame at a multiple of 48 bytes with 48 left, then what was suspended, then transit frames up to the local share in a row, then
its own. -/
def Obligations.FramesAreStrippedTakenOrPassedOn : Prop :=
  (∀ port f hop check s, rxRuns s.hub (portNum port) = false → exec (.frameReceive port f hop check) s = .next s)
  ∧ (∀ port f (s : State), { arrived (portNum port) f s.hub with links := s.hub.links } = s.hub)
  ∧ (∀ port f hop check marked s, rxRuns s.hub (portNum port) = true → f.src = hubNumber s.hub → f.src ≠ 0 →
    arrival (isExpress f) none false check.blocks = .whole marked →
    ∃ t, exec (.frameReceive port f hop check) s = .next t
      ∧ t.hub = arrived (portNum port) f (if f.dst = 255 then s.hub else bump s.hub 0x4100_15))
  ∧ (∀ port f hop check marked s, rxRuns s.hub (portNum port) = true → (f.src ≠ hubNumber s.hub ∨ f.src = 0) →
    f.dst ≠ hubNumber s.hub → f.dst ≠ 255 → s.hub.boot.transit = true →
    arrival (isExpress f) none false check.blocks = .whole marked →
    (isArriving s.hub (portNum port) f = true → ∃ t, exec (.frameReceive port f hop check) s = .next t
        ∧ { t.hub with tx := s.hub.tx, links := s.hub.links } = s.hub ∧ isArriving t.hub (portNum port) f = false
        ∧ tx t.hub (1 - portNum port)
            = (tx s.hub (1 - portNum port)).changeCopy f fun c => { c with crc := some check.crc, error := marked })
    ∧ (isArriving s.hub (portNum port) f = false → hop ≤ 1 → exec (.frameReceive port f hop check) s
        = .next { s with hub := bump s.hub 0x4100_0D })
    ∧ (isArriving s.hub (portNum port) f = false → 1 < hop → ∃ t, exec (.frameReceive port f hop check) s = .next t
        ∧ { t.hub with tx := s.hub.tx, links := s.hub.links } = s.hub
        ∧ tx t.hub (portNum port) = tx s.hub (portNum port)
        ∧ (isExpress f = true → tx t.hub (1 - portNum port) = { tx s.hub (1 - portNum port) with
            express := (tx s.hub (1 - portNum port)).express
              ++ [{ frame := f, hop := hop - 1, error := marked, crc := some check.crc }] })
        ∧ (isExpress f = false → tx t.hub (1 - portNum port) = { tx s.hub (1 - portNum port) with
            transit := (tx s.hub (1 - portNum port)).transit
              ++ [{ frame := f, hop := hop - 1, error := marked, crc := some check.crc }] })))
  ∧ (∀ port f hop check marked s, rxRuns s.hub (portNum port) = true → f.src ≠ hubNumber s.hub →
    f.dst = hubNumber s.hub → f.dst ≠ 0 → sendsOwn s.hub = true →
    arrival (isExpress f) none false check.blocks = .whole marked →
    ∃ t h, t.hub = arrived (portNum port) f h ∧ exec (.frameReceive port f hop check) s = .next t
      ∧ (crcOk f check marked = false → h = bump s.hub 0x4100_0A)
      ∧ (crcOk f check marked = true → formatOk f check = false → h = bump s.hub 0x4100_0E)
      ∧ (crcOk f check marked = true → formatOk f check = true → f.ftype = 6 → h = s.hub)
      ∧ (crcOk f check marked = true → formatOk f check = true → f.ftype ≠ 6 → f.secured = true →
          h = arrive (portNum port) f s.hub)
      ∧ (∀ g a b, crcOk f check marked = true → formatOk f check = true → f.ftype ≠ 6 → f.secured = false →
          openFrame f s.hub = (some g, a) → dupCheck g a = (true, b) → h = arrive (portNum port) g b)
      ∧ (∀ g a b, crcOk f check marked = true → formatOk f check = true → f.ftype ≠ 6 → f.secured = false →
          openFrame f s.hub = (some g, a) → dupCheck g a = (false, b) → h = b))
  ∧ (∀ p f h, crossingShut h (4 + p) 0 = false → (crossing h (4 + p) 0).entries = [] → h.watch.armed = [] →
    arrive p f h = { h with ring := { h.ring with arrived := h.ring.arrived ++ [(p, f)] } })
  ∧ (∀ p f h, crossingShut h (4 + p) 0 = true → { arrive p f h with crossings := h.crossings } = h
    ∧ (crossing (arrive p f h) (4 + p) 0).discarded = (crossing h (4 + p) 0).discarded + (insideWords f).length)
  ∧ (∀ port f hop check s, rxRuns s.hub (portNum port) = true →
    (arrival (isExpress f) none false check.blocks = .underway →
      (isArriving s.hub (portNum port) f = true → exec (.frameReceive port f hop check) s = .next s)
      ∧ (isArriving s.hub (portNum port) f = false →
        ∃ t, exec (.frameReceive port f hop check) s = .next t
          ∧ (link t.hub (portNum port)).arriving = (link s.hub (portNum port)).arriving ++ [(f, hop)]
          ∧ (endsHere s.hub f = true ∨ s.hub.boot.transit = false → { t.hub with links := s.hub.links } = s.hub)
          ∧ (endsHere s.hub f = false → s.hub.boot.transit = true → 1 < hop →
              { t.hub with tx := s.hub.tx, links := s.hub.links } = s.hub
              ∧ (isExpress f = false → (tx t.hub (1 - portNum port)).transit
                  = (tx s.hub (1 - portNum port)).transit ++ [{ frame := f, hop := hop - 1, error := false, crc := none }])
              ∧ (isExpress f = true → (tx t.hub (1 - portNum port)).express
                  = (tx s.hub (1 - portNum port)).express ++ [{ frame := f, hop := hop - 1, error := false, crc := none }]))))
    ∧ (arrival (isExpress f) none false check.blocks = .broken →
      ∃ t, exec (.frameReceive port f hop check) s = .next t
        ∧ t.hub = arrived (portNum port) f (forwardBroken (portNum port) (f, hop) (bump s.hub 0x4100_0E))
        ∧ rd t.hub 0x4100_0E = min (rd s.hub 0x4100_0E + 1) (2 ^ 32 - 1)
        ∧ (endsHere s.hub f = false → isArriving s.hub (portNum port) f = true →
            tx t.hub (1 - portNum port) = (tx s.hub (1 - portNum port)).changeCopy f fun c => { c with error := true })
        ∧ (endsHere s.hub f = false → isArriving s.hub (portNum port) f = false → s.hub.boot.transit = true → 1 < hop →
            isExpress f = false →
            (tx t.hub (1 - portNum port)).transit
              = (tx s.hub (1 - portNum port)).transit ++ [{ frame := f, hop := hop - 1, error := true, crc := none }])))
  ∧ (∀ e k j, arrival e none false [] = .underway ∧ arrival e none false [.fin k] = .whole false
    ∧ arrival e none false [.marked, .fin k] = .whole true
    ∧ arrival e none false [.error] = .broken ∧ arrival e none false [.other] = .broken ∧ arrival e none false [.start] = .broken
    ∧ arrival true none false [.pause k] = .broken
    ∧ arrival false none false [.pause k, .start] = .broken
    ∧ arrival false none false [.pause k, .cont ((k + 1) % 8), .fin j] = .whole false
    ∧ (j ≠ (k + 1) % 8 → arrival false none false [.pause k, .cont j] = .broken))
  ∧ (∀ port sent s, rxState s.hub (portNum port) ≠ 0 → (link s.hub (portNum port)).stopped = false →
    ∃ t q u, q = tx s.hub (portNum port) ∧ u = tx t.hub (portNum port)
      ∧ exec (.frameSend ⟨port, sent⟩) s = .next t ∧ { t.hub with tx := s.hub.tx, links := s.hub.links } = s.hub
      ∧ (∀ n, (link t.hub n).arriving = (link s.hub n).arriving) ∧ tx t.hub (1 - portNum port) = tx s.hub (1 - portNum port)
      ∧ (∀ x xs, q.onLink = none → q.express = x :: xs →
          u.express = xs ∧ u.onLink = some { item := x, fragment := 0, offset := 0 } ∧ u.line = [.start x.hop (isExpress x.frame)]
          ∧ u.transit = q.transit ∧ u.own = q.own ∧ u.suspended = q.suspended)
      ∧ (∀ g, q.onLink = none → q.express = [] → q.suspended = some g →
          u.onLink = some { g with fragment := (g.fragment + 1) % 8 } ∧ u.suspended = none
          ∧ u.line = [.cont ((g.fragment + 1) % 8)])
      ∧ (∀ g rest l ls, q.onLink = none → q.express = [] → q.suspended = none → q.transit = g :: rest → q.own = l :: ls →
          u.onLink = some { item := if q.run < rd s.hub 0x2100_06 then g else l, fragment := 0, offset := 0 })
      ∧ (∀ g, q.onLink = some g → isArriving s.hub (1 - portNum port) g.item.frame = false → frameBytes g.item.frame ≤ sent →
          u.line.head? = some (if g.item.error then .error else .fin g.fragment))
      ∧ (∀ g, q.onLink = some g → isArriving s.hub (1 - portNum port) g.item.frame = true → frameBytes g.item.frame ≤ sent →
          q.express = [] → u = q)
      ∧ (∀ g, q.onLink = some g → sent < frameBytes g.item.frame → interruptible q g sent = false → u = q)
      ∧ (∀ g x xs, q.onLink = some g → sent < frameBytes g.item.frame → interruptible q g sent = true → q.express = x :: xs →
          u.suspended = some { g with offset := sent } ∧ u.onLink = some { item := x, fragment := 0, offset := 0 }
          ∧ u.line = [.pause g.fragment, .start x.hop (isExpress x.frame)] ∧ u.express = xs))
  ∧ (∀ q g sent, interruptible q g sent = true → sent % 48 = 0 ∧ g.offset < sent ∧ sent + 48 ≤ frameBytes g.item.frame
    ∧ q.express ≠ [] ∧ isExpress g.item.frame = false ∧ q.suspended = none)

/-- R66, R160 to R164, R167: PRESENCE and CLAIM leave as Table 9 says; a PRESENCE heard on one ring gives the source's distance on the
other, its timeout ends that, a LINK STATE marks or unmarks a break. An unjoined hub in COMMISSION with a link LOCKED claims its
number; the number's holder answers CONFLICT and the head answers a claim of 0 with an OFFER; the timer with no conflict joins the hub with its
number and the role that stands, a conflict ends the claim with EV_RING_NUMBER_CONFLICT. -/
def Obligations.PresenceAndClaimsMakeTheRingMap : Prop :=
  (∀ s, hubNumber s.hub ≠ 0 → sendsOwn s.hub = true →
    ∃ t f, exec .presenceSend s = .next t ∧ portFrames t.hub 6 = portFrames s.hub 6 ++ [f]
      ∧ f.ftype = 5 ∧ f.cls = .mg ∧ f.dst = 255 ∧ f.src = hubNumber s.hub ∧ f.specific = 256 ∧ f.payload.length = 2
      ∧ { t.hub with portQ := s.hub.portQ, seqs := s.hub.seqs } = s.hub)
  ∧ (∀ ring src hop role md serial s, src ≠ 0 → src ≠ hubNumber s.hub → src ≤ 254 → hop ≤ 254 →
    ∃ t, exec (.presence ring src hop role md serial) s = .next t
      ∧ heard t.hub (match ring with | .a => true | .b => false) src = some (255 - hop)
      ∧ tabGet 0 t.hub.ring.roles src = role ∧ tabGet 0 t.hub.ring.modes src = md
      ∧ (∀ n, n ≠ src → ∀ b, heard t.hub b n = heard s.hub b n))
  ∧ (∀ ring src hop role md serial s, src = 0 ∨ src = hubNumber s.hub →
    ∃ t, exec (.presence ring src hop role md serial) s = .next t ∧ t.hub.ring = s.hub.ring ∧ t.hub.dict = s.hub.dict)
  ∧ (∀ hub ring s, ∃ t, exec (.presenceTimeout hub ring) s = .next t
      ∧ heard t.hub (match ring with | .a => false | .b => true) hub = none
      ∧ heard t.hub (match ring with | .a => true | .b => false) hub = heard s.hub (match ring with | .a => true | .b => false) hub)
  ∧ (∀ src port s, src ≠ hubNumber s.hub →
    (∃ t, exec (.linkState src port false) s = .next t
      ∧ (src, portNum port == 0, (heard s.hub (portNum port == 0) src).getD 0xFF) ∈ t.hub.ring.downs)
    ∧ (∃ t, exec (.linkState src port true) s = .next t ∧ (∀ d, (src, portNum port == 0, d) ∉ t.hub.ring.downs)
        ∧ ∀ d, d ∈ t.hub.ring.downs → d ∈ s.hub.ring.downs))
  ∧ (∀ h b n, (∀ d, d ∈ h.ring.downs → d.2.1 ≠ b) → distance h b n = (heard h b n).getD 0xFF)
  ∧ (∀ h b n x e y, (x, b, e) ∈ h.ring.downs → heard h b n = some y → (heard h b x).getD e ≤ y → distance h b n = 0xFF)
  ∧ (∀ s, mode s.hub = 2 → hubNumber s.hub = 0 → rxRuns s.hub 0 = true ∨ rxRuns s.hub 1 = true → s.hub.ring.conflict = false →
    bench s.hub = false →
    ∃ t f, exec .claimSend s = .next t ∧ portFrames t.hub 6 = portFrames s.hub 6 ++ [f] ∧ f.src = 0 ∧ f.ftype = 5
      ∧ f.specific = 512 ∧ t.hub.ring.claim
          = some (s.hub.ring.claim.getD { asked := askedNumber s.hub, number := askedNumber s.hub, lost := false })
      ∧ { t.hub with portQ := s.hub.portQ, seqs := s.hub.seqs, ring := { t.hub.ring with claim := s.hub.ring.claim } } = s.hub)
  ∧ (∀ number role serial s, number ≠ 0 → number = hubNumber s.hub →
    ∃ t f, exec (.claim number role serial) s = .next t ∧ portFrames t.hub 6 = portFrames s.hub 6 ++ [f] ∧ f.specific = 768
      ∧ f.payload = [BitVec.ofNat 48 (number * 2 ^ 40 + serial % 2 ^ 32)]
      ∧ { t.hub with portQ := s.hub.portQ, seqs := s.hub.seqs } = s.hub)
  ∧ (∀ role serial n s, hubNumber s.hub ≠ 0 → headHub s.hub = hubNumber s.hub → offerFor s.hub serial = some n →
    ∃ t f, exec (.claim 0 role serial) s = .next t ∧ portFrames t.hub 6 = portFrames s.hub 6 ++ [f] ∧ f.specific = 1024
      ∧ f.payload = [BitVec.ofNat 48 (n * 2 ^ 40 + serial % 2 ^ 32)])
  ∧ (∀ number c s, s.hub.ring.claim = some c → c.number = 0 → c.asked = 0 →
    ∃ t, exec (.offer number Config.serialNumber.toNat) s = .next t ∧ t.hub.ring.claim = some { c with number }
      ∧ { t.hub with ring := s.hub.ring } = s.hub)
  ∧ (∀ c s, s.hub.ring.claim = some c →
    ∃ t, exec (.conflict c.number Config.serialNumber.toNat) s = .next t ∧ t.hub.ring.claim = none ∧ t.hub.ring.conflict = true
      ∧ hubNumber t.hub = 0 ∧ eventPending t.hub 0x08 = true ∧ KeptBut ((0x2000_09, 0x2000_09) :: eventRanges) s.hub t.hub)
  ∧ (∀ c s, s.hub.ring.claim = some c → c.number ≠ 0 → c.number < 256 → c.lost = false →
    ∃ t, exec .claimTimerExpiry s = .next t ∧ t.hub.ring.claim = none ∧ hubNumber t.hub = c.number
      ∧ roleInForce t.hub = rd s.hub 0x2000_0B)

/-! ### Belfry -/

/-- R156, R184 to R189, R199, R219: the frame in front at a ring port is admitted whole, against the ring part or the shared pool of its
class, or refused whole and counted; a port that holds a credit per cell starts its frame and spends them, one that does not waits, and
a frame without a route is discarded and counted, one routed by a poisoned word too, a CY or UR frame of this hub in COMMISSION
discarded alone (a frame that finds too few cells on the free list is refused, or waits, and that discard: the model's, log 60); a returned output credit is one fewer in use. Each takes its inputs from an
arbitration tick, whose time the frame's stamp is. -/
def Obligations.BelfryAdmitsFramesWhole : Prop :=
  (∀ inputs h, (takeTick inputs h).belfry.tick.inputs = inputs ∧ tickNs (takeTick inputs h) = replica h 0 / 2 ^ 32
    ∧ { takeTick inputs h with belfry := { h.belfry with tick := (takeTick inputs h).belfry.tick }, channels := h.channels }
      = { h with belfry := { h.belfry with tick := (takeTick inputs h).belfry.tick } })
  ∧ (∀ port f g s, ringFront s.hub (portNum port) = some f → halted s.hub = false → ringCharge s.hub f = some g → g ≠ 3 →
    outputSet s.hub (portNum port) f ≠ [] → hasCells s.hub (frameCells f) = true → s.hub.watch.armed = [] →
    ∃ t x, exec (.ringFrameAdmit port f) s = .next t ∧ t.hub.belfry.stored = s.hub.belfry.stored ++ [x]
      ∧ x.frame = f ∧ x.input = portNum port ∧ x.charge = g ∧ x.cells = newCells s.hub (frameCells f) ∧ x.errors = [] ∧ x.freed = 0
      ∧ x.stamp = replica s.hub 0 / 2 ^ 32 ∧ x.copies = (outputSet s.hub (portNum port) f).map (fun o => (o, 0))
      ∧ t.hub.belfry.taken = s.hub.belfry.taken ++ x.cells
      ∧ classCells t.hub (clsNum f.cls) = classCells s.hub (clsNum f.cls) + frameCells f
      ∧ t.hub.ring.arrived = s.hub.ring.arrived.erase (portNum port, f)
      ∧ { t.hub with belfry := s.hub.belfry, ring := s.hub.ring, dict := s.hub.dict, channels := s.hub.channels } = s.hub
      ∧ KeptBut [(0x4200_1A, 0x4200_1A)] s.hub t.hub)
  ∧ (∀ port f s, ringFront s.hub (portNum port) = some f → halted s.hub = false → outputSet s.hub (portNum port) f ≠ [] →
    ringCharge s.hub f = none ∨ (∃ g, ringCharge s.hub f = some g ∧ g ≠ 3 ∧ hasCells s.hub (frameCells f) = false) →
    ∃ t, exec (.ringFrameAdmit port f) s = .next t
      ∧ { t.hub.belfry with tick := s.hub.belfry.tick, raised := s.hub.belfry.raised } = s.hub.belfry
      ∧ rd t.hub (0x4200_07 + clsNum f.cls) = min (rd s.hub (0x4200_07 + clsNum f.cls) + 1) (2 ^ 32 - 1)
      ∧ t.hub.ring.arrived = s.hub.ring.arrived.erase (portNum port, f)
      ∧ KeptBut ((0x4200_07 + clsNum f.cls, 0x4200_07 + clsNum f.cls) :: eventRanges) s.hub t.hub)
  ∧ (∀ port f s, ringFront s.hub (portNum port) = some f → halted s.hub = false → outputSet s.hub (portNum port) f = [] →
    ∃ t, exec (.ringFrameAdmit port f) s = .next t ∧ { t.hub.belfry with tick := s.hub.belfry.tick } = s.hub.belfry
      ∧ rd t.hub 0x4200_17 = min (rd s.hub 0x4200_17 + 1) (2 ^ 32 - 1)
      ∧ t.hub.ring.arrived = s.hub.ring.arrived.erase (portNum port, f) ∧ KeptBut [(0x4200_17, 0x4200_17)] s.hub t.hub)
  ∧ (∀ port f s, ringFront s.hub (portNum port) ≠ some f →
    exec (.ringFrameAdmit port f) s = .next { s with hub := takeTick [.arrival (portNum port) f] s.hub })
  ∧ (∀ (p : Fin 8) f rest s, 2 ≤ p.val → halted s.hub = false → portFrames s.hub p = f :: rest → outputSet s.hub p f ≠ [] →
    s.hub.watch.armed = [] → frameCells f ≤ creditsHeld s.hub p (clsNum f.cls) → hasCells s.hub (frameCells f) = true →
    ∃ t x, exec (.creditedFrameStart p) s = .next t ∧ t.hub.belfry.stored = s.hub.belfry.stored ++ [x]
      ∧ x.frame = f ∧ x.input = p.val ∧ x.charge = 0 ∧ x.copies = (outputSet s.hub p f).map (fun o => (o, 0))
      ∧ x.stamp = replica s.hub 0 / 2 ^ 32
      ∧ creditsHeld t.hub p (clsNum f.cls) = creditsHeld s.hub p (clsNum f.cls) - frameCells f
      ∧ portFrames t.hub p = rest
      ∧ { t.hub with belfry := s.hub.belfry, portQ := s.hub.portQ, dict := s.hub.dict, channels := s.hub.channels } = s.hub
      ∧ KeptBut [(0x4200_1A, 0x4200_1A)] s.hub t.hub)
  ∧ (∀ (p : Fin 8) f rest s, 2 ≤ p.val → halted s.hub = false → portFrames s.hub p = f :: rest → outputSet s.hub p f ≠ [] →
    creditsHeld s.hub p (clsNum f.cls) < frameCells f ∨ hasCells s.hub (frameCells f) = false →
    exec (.creditedFrameStart p) s = .next { s with hub := takeTick [.arrival p f] s.hub })
  ∧ (∀ (p : Fin 8) f rest s, 2 ≤ p.val → halted s.hub = false → portFrames s.hub p = f :: rest → outputSet s.hub p f = [] →
    ∃ t, exec (.creditedFrameStart p) s = .next t ∧ portFrames t.hub p = rest
      ∧ { t.hub.belfry with tick := s.hub.belfry.tick } = s.hub.belfry
      ∧ (f.dst = hubNumber s.hub → rd t.hub 0x4200_17 = min (rd s.hub 0x4200_17 + 1) (2 ^ 32 - 1)
          ∧ KeptBut [(0x4200_17, 0x4200_17)] s.hub t.hub)
      ∧ (f.dst ≠ hubNumber s.hub → dualSent f = true ∨ mode s.hub = 2 ∧ isExpress f = true → t.hub.dict = s.hub.dict)
      ∧ (f.dst ≠ hubNumber s.hub → dualSent f = false → mode s.hub ≠ 2 ∨ isExpress f = false →
          rd t.hub 0x4100_16 = min (rd s.hub 0x4100_16 + 1) (2 ^ 32 - 1) ∧ KeptBut [(0x4100_16, 0x4100_16)] s.hub t.hub))
  ∧ (∀ (p : Fin 8) cls s, ∃ t, exec (.outputCreditReturn p cls) s = .next t
      ∧ tabGet 0 t.hub.belfry.outUsed (pcKey p (clsNum cls)) = tabGet 0 s.hub.belfry.outUsed (pcKey p (clsNum cls)) - 1
      ∧ { t.hub with belfry := { t.hub.belfry with outUsed := s.hub.belfry.outUsed, tick := s.hub.belfry.tick },
                     channels := s.hub.channels } = s.hub)

/-- R193 to R195, R199, R207, R227: each output grants one cell in a cell time: CY first, then a starved BK, a starved MG, UR, and the weighted
round robin; the cell takes an output credit, the last cell lets the frame leave by its output; a frame whose cell poison stops is
discarded and counted; a split grants nothing. -/
def Obligations.CellsAreGrantedInOrder : Prop :=
  (∀ s, halted s.hub = true → exec .cellGrant s = .next { s with hub := takeTick [] s.hub })
  ∧ (∀ s, halted s.hub = false → exec .cellGrant s = .next { s with hub := forEach (List.range 8) grantOutput (takeTick [] s.hub) })
  ∧ (∀ s, (∀ o, o < 8 → ∀ c, c < 4 → readyAt s.hub o c = false) → exec .cellGrant s = .next { s with hub := takeTick [] s.hub })
  ∧ (∀ h o ch, grantChoice h o = some ch →
      readyAt h o ch.cls = true ∧ (readyAt h o 0 = true → ch.cls = 0)
      ∧ (ch.forced = true → rd h 0x2204_03 ≤ starveCount h o ch.cls)
      ∧ (ch.cls = 1 → ∀ c, c = 2 ∨ c = 3 → readyAt h o c = true → starveCount h o c < rd h 0x2204_03))
  ∧ (∀ h o ch x j, grantChoice h o = some ch → nextAt h o ch.cls = some x → j = (x.grantedAt o).getD 0 → x.errorsIn j = [] →
      (poisonStops o x j = false →
        tabGet 0 (grantOutput o h).belfry.outUsed (pcKey o ch.cls) = tabGet 0 h.belfry.outUsed (pcKey o ch.cls) + 1
        ∧ (x.cells.length ≤ j + 1 → 2 ≤ o → (grantOutput o h).belfry.delivered = h.belfry.delivered ++ [(o, x.frame)])
        ∧ (x.cells.length ≤ j + 1 → o < 2 → isExpress x.frame = true → x.frame.poison = [] → crossingShut h 0 6 = false →
            (crossing h 0 6).entries = [] → h.watch.armed = [] →
            (tx (grantOutput o h) o).express = (tx h o).express ++ [{ frame := x.frame, hop := 254, error := false, crc := none }])
        ∧ (j + 1 < x.cells.length →
            (grantOutput o h).belfry.delivered = h.belfry.delivered ∧ (grantOutput o h).tx = h.tx))
      ∧ (poisonStops o x j = true → rd (grantOutput o h) 0x4200_17 = min (rd h 0x4200_17 + 1) (2 ^ 32 - 1)
        ∧ (∀ y, y ∈ (grantOutput o h).belfry.stored → y.id ≠ x.id)
        ∧ (grantOutput o h).belfry.delivered = h.belfry.delivered ∧ (grantOutput o h).tx = h.tx))

/-- R200 to R202, R208 to R212: the ageing scan leaves frames within their life and discards one past it, counted by its class; a census
counts the cells of the stored frames and of the free list, one that finds every cell ends FLT_BELFRY_CENSUS, one that finds fewer starts a
locate pass, one that finds more raises the fault, and each corrects the class counters and begins a new interval for the events; cells
unmarked in two passes go back to the free list as leaked. -/
def Obligations.BelfryAgesAndCountsItsCells : Prop :=
  (∀ s, (∀ x ∈ s.hub.belfry.stored, agedOut (takeTick [] s.hub) x = false) ∨ halted s.hub = true →
    exec .ageingScan s = .next { s with hub := takeTick [] s.hub })
  ∧ (∀ x o s, halted s.hub = false → s.hub.belfry.stored = [x] → x.copies = [(o, 0)] → x.multi = false → o < 8 → x.input < 8 →
    agedOut (takeTick [] s.hub) x = true →
    ∃ t, exec .ageingScan s = .next t ∧ t.hub.belfry.stored = []
      ∧ rd t.hub (0x4200_0E + x.cls) = min (rd s.hub (0x4200_0E + x.cls) + 1) (2 ^ 32 - 1)
      ∧ KeptBut ((0x4200_0E + x.cls, 0x4200_0E + x.cls) :: (0x4200_1A, 0x4200_1A) :: eventRanges) s.hub t.hub)
  ∧ (∀ lost twice words skew s, ∃ t h counted, exec (.bufferCensus ⟨lost, twice, words⟩ skew) s = .next t
      ∧ h = upsetWords words (upset lost skew (takeTick [] s.hub))
      ∧ counted = heldCells s.hub none + (32768 - h.belfry.taken.length) + twice
      ∧ (∀ c, c < 4 → classCells t.hub c = heldCells s.hub (some c))
      ∧ t.hub.belfry.stored = h.belfry.stored ∧ t.hub.belfry.taken = h.belfry.taken ∧ t.hub.belfry.raised = []
      ∧ (counted = 32768 → t.hub.belfry.locating = none)
      ∧ (counted < 32768 → t.hub.belfry.locating = some none)
      ∧ (32768 < counted → recordHeld t.hub 0x07 = true)
      ∧ KeptBut ((0x4200_14, 0x4200_14) :: (0x4200_1A, 0x4200_1A) :: faultRanges) s.hub t.hub)
  ∧ (∀ lost s, s.hub.belfry.locating = none → exec (.locatePass lost) s = .next { s with hub := upset lost [] (takeTick [] s.hub) })
  ∧ (∀ lost h s, s.hub.belfry.locating = some none → h = upset lost [] (takeTick [] s.hub) →
    ∃ t, exec (.locatePass lost) s = .next t ∧ t.hub.belfry.locating = some (some (unmarked h))
      ∧ { t.hub.belfry with locating := h.belfry.locating } = h.belfry
      ∧ KeptBut [] s.hub t.hub)
  ∧ (∀ lost h first leaked s, s.hub.belfry.locating = some (some first) → h = upset lost [] (takeTick [] s.hub) →
    leaked = first.filter (fun c => (unmarked h).contains c) →
    ∃ t, exec (.locatePass lost) s = .next t ∧ t.hub.belfry.locating = none ∧ t.hub.belfry.stored = s.hub.belfry.stored
      ∧ t.hub.belfry.taken = h.belfry.taken.filter (fun c => !leaked.contains c)
      ∧ (leaked = [] → t.hub.dict = s.hub.dict)
      ∧ (leaked ≠ [] → rd t.hub 0x4200_13 = min (rd s.hub 0x4200_13 + leaked.length) (2 ^ 32 - 1)
          ∧ (s.hub.belfry.raised = [] → eventPending t.hub 0x14 = true)))

/-! ### Voting and channel recovery -/

/-- R224 to R230, R238: the channel alone in the minority, at an output, the shadow slot or the digest, or whose clock tree departs, is
excluded with its cause, which sets LIMP cause [0] and leaves two channels voting; without a majority Belfry is split: it stops and
FLT_BELFRY_VOTE_SPLIT is held, and a voter difference holds FLT_BELFRY_VOTER too.
R231 to R240: an excluded channel that passes its self-test goes to REPLAY where automatic recovery is on, one that fails it is FAILED with
FLT_BELFRY_CHANNEL_FAILED; its checkpoint is loaded, caught up it goes to PROBATION, and after the probation it votes; a full
replay log abandons the attempt, the third in a row fails the channel; a release starts a FAILED channel at its self-test again. -/
def Obligations.VotersExcludeTheMinorityAndChannelsRecover : Prop :=
  (∀ c (n : Fin 3) cause group s,
    (c = Instr.voteMinority n group ∧ group ≠ 0x0B ∧ cause = 1
      ∨ c = .voteMinority n group ∧ group = 0x0B ∧ cause = 3
      ∨ (∃ u, c = .digestCompare u ∧ digestAlone (upsetChannels u s.hub) = [n.val]) ∧ group = 0 ∧ cause = 2
      ∨ c = .channelTreeCheck n false ∧ group = 0 ∧ cause = 4) →
    group < 16 → halted s.hub = false → mode s.hub ≠ 6 → votingCount s.hub = 3 → windowCount s.hub n < rd s.hub 0x2207_03 →
    ∃ t, exec c s = .next t ∧ chState t.hub n = 2 ∧ rd t.hub (chKey n 8) = cause ∧ rd t.hub (chKey n 9) = group
      ∧ rd t.hub 0x4202_01 = 2 ∧ eventPending t.hub 0x15 = true ∧ bit (rd t.hub 0x2000_06) 0 = true
      ∧ (∀ m : Fin 3, m ≠ n → chState t.hub m = 1)
      ∧ (mode s.hub ≠ 3 → mode s.hub ≠ 5 →
          mode t.hub = mode s.hub ∧ evented { s.hub with channels := t.hub.channels } t.hub = t.hub
          ∧ KeptBut ((0x2000_06, 0x2000_06) :: (0x4202_01, 0x4205_FF) :: eventRanges) s.hub t.hub)
      ∧ (mode s.hub = 3 ∨ mode s.hub = 5 → ModeEntered (mode s.hub) 4 t.hub))
  ∧ (∀ cause group s, halted s.hub = false → mode s.hub ≠ 6 → cause < 2 ^ 48 →
    ∃ t, exec (.voteSplit cause group) s = .next t ∧ halted t.hub = true ∧ rd t.hub 0x4202_03 = cause
      ∧ recordHeld t.hub 0x09 = true ∧ (cause = 4 → recordHeld t.hub 0x08 = true) ∧ t.hub.belfry = s.hub.belfry
      ∧ KeptBut ((0x4202_01, 0x4202_03) :: faultRanges) s.hub t.hub)
  ∧ (∀ cause group s, halted s.hub = true → cause ≠ 4 → exec (.voteSplit cause group) s = .next s)
  ∧ (∀ group s, halted s.hub = true → mode s.hub ≠ 6 →
    ∃ t, exec (.voteSplit 4 group) s = .next t ∧ halted t.hub = true ∧ recordHeld t.hub 0x08 = true
      ∧ KeptBut faultRanges s.hub t.hub)
  ∧ (∀ u s, digestAlone (upsetChannels u s.hub) = [] →
    exec (.digestCompare u) s = .next { s with hub := upsetChannels u s.hub })
  ∧ (∀ n s, exec (.channelTreeCheck n true) s = .next s)
  ∧ (∀ (n : Fin 3) group s, compared s.hub n = false → exec (.voteMinority n group) s = .next s)
  ∧ (∀ (n : Fin 3) h, chState h n = 2 → (channel h n).passed = false → mode h ≠ 6 →
    chState (channelStart n h) n = 3 ∧ (channel (channelStart n h) n).copy = none)
  ∧ (∀ (n : Fin 3) s, chState s.hub n = 3 ∨ chState s.hub n = 2 ∧ (channel s.hub n).passed = false → mode s.hub ≠ 6 →
    (∃ t, exec (.channelSelftestDone n true) s = .next t ∧ rd t.hub (chKey n 0x0D) = 1
      ∧ chState t.hub n = (if rdB s.hub 0x2207_01 then 4 else 2)
      ∧ (channel t.hub n).passed = (if rdB s.hub 0x2207_01 then false else true)
      ∧ (rdB s.hub 0x2207_01 = true → (channel t.hub n).replayAt = stampNs s.hub 0 ∧ (channel t.hub n).point = some s.hub.belfry
          ∧ (channel t.hub n).log = [])
      ∧ { t.hub with dict := s.hub.dict, channels := s.hub.channels } = s.hub
      ∧ KeptBut [(chKey n 1, chKey n 1), (chKey n 0x0D, chKey n 0x0D)] s.hub t.hub)
    ∧ (∃ t, exec (.channelSelftestDone n false) s = .next t ∧ rd t.hub (chKey n 0x0D) = 2 ∧ chState t.hub n = 6
      ∧ rd t.hub (chKey n 8) = 8 ∧ recordHeld t.hub 0x0A = true))
  ∧ (∀ (n : Fin 3) same s, chState s.hub n = 4 →
    (copiesAgree s.hub same = true → ∃ t, exec (.checkpointLoaded n same) s = .next t
      ∧ (channel t.hub n) = { channel s.hub n with loaded := some (stampNs s.hub 0) }
      ∧ rd t.hub 0x4202_04 = max (rd s.hub 0x4202_04) (replayDepth s.hub n)
      ∧ { t.hub with channels := s.hub.channels, dict := s.hub.dict } = s.hub ∧ KeptBut [(0x4202_04, 0x4202_04)] s.hub t.hub)
    ∧ (copiesAgree s.hub same = false → halted s.hub = false → mode s.hub ≠ 6 →
        ∃ t, exec (.checkpointLoaded n same) s = .next t ∧ halted t.hub = true
          ∧ rd t.hub 0x4202_03 = 3 ∧ recordHeld t.hub 0x09 = true ∧ (channel t.hub n).loaded = none ∧ (channel t.hub n).point = none))
  ∧ (∀ (n : Fin 3) upsets s, chState s.hub n = 4 → (channel s.hub n).loaded.isSome = true →
    ∃ t, exec (.replayCaughtUp n upsets) s = .next t ∧ chState t.hub n = 5 ∧ (channel t.hub n).abandoned = 0
      ∧ (channel t.hub n).copy = some (upsets.foldl (fun c u => flipSlice u.1 u.2 c) [])
      ∧ rd t.hub (chKey n 0x0C) = (stampNs s.hub 0 - (channel s.hub n).replayAt) / 1000 % 2 ^ 48
      ∧ KeptBut [(chKey n 1, chKey n 1), (chKey n 0x0C, chKey n 0x0C)] s.hub t.hub
      ∧ { t.hub with dict := s.hub.dict, channels := s.hub.channels } = s.hub)
  ∧ (∀ (n : Fin 3) upsets s, (channel s.hub n).loaded = none → exec (.replayCaughtUp n upsets) s = .next s)
  ∧ (∀ (n : Fin 3) s, chState s.hub n = 4 →
    ∃ t, exec (.replayLogFull n) s = .next t ∧ eventPending t.hub 0x17 = true
      ∧ rd t.hub 0x4202_04 = max (rd s.hub 0x4202_04) 8192
      ∧ ((channel s.hub n).abandoned < 2 → chState t.hub n = 4 ∧ (channel t.hub n).abandoned = (channel s.hub n).abandoned + 1
          ∧ (channel t.hub n).loaded = none)
      ∧ (2 ≤ (channel s.hub n).abandoned → chState t.hub n = 6 ∧ rd t.hub (chKey n 8) = 7 ∧ recordHeld t.hub 0x0A = true))
  ∧ (∀ (n : Fin 3) s, chState s.hub n = 5 → halted s.hub = false →
    ∃ t, exec (.probationExpiry n) s = .next t ∧ chState t.hub n = 1 ∧ eventPending t.hub 0x16 = true
      ∧ rd t.hub 0x4202_01 = (if votingCount s.hub = 2 then 3 else 2)
      ∧ bit (rd t.hub 0x2000_06) 0 = (votingCount s.hub != 2))
  ∧ (∀ (p : Path) (n : Fin 3) s, WriteOpen p 0x2207 6 n s.hub → chState s.hub n = 6 →
    ∃ t, exec (.channelRelease p n) s = .next t ∧ chState t.hub n = 3 ∧ channel t.hub n = { channelInit with copy := none }
      ∧ t.hub.answer = .accepted)

/-! ### Canopy -/

/-- R33 to R35, R250, R266, R268, R273: a physical write this hub issues at a port where nothing waits stores the bytes its enables name, of all its words, and no
other byte of Canopy memory, and is accepted; a physical read of one word returns the word, marked where it is poisoned, and stores
nothing. -/
def Obligations.CanopyMemoryStoresTheEnabledBytes : Prop :=
  (∀ (r : CReq) s, r.op = .write → badRequest r = none → isLogical r.addr = false →
    (addrHub r.addr = 0 ∨ addrHub r.addr = hubNumber s.hub ∧ hubNumber s.hub ≠ 255) →
    addrLocal r.addr + 8 * r.count ≤ 8 * memWords → portItems s.hub r.port = [] → mustWait s.hub [] r = false →
    s.hub.watch.armed = [] →
    ∃ t, exec (.canopyRequestIssue r) s = .next t ∧ t.hub.answer = .accepted
      ∧ (∀ i k, i < r.count → k < 6 → memByte t.hub.canopy.mem (addrLocal r.addr + 8 * i + k)
          = (if bit (enables r i) k then wordByte (r.data.getD i 0) k
             else memByte s.hub.canopy.mem (addrLocal r.addr + 8 * i + k)))
      ∧ (∀ a, a < addrLocal r.addr ∨ addrLocal r.addr + 8 * r.count ≤ a →
          memByte t.hub.canopy.mem a = memByte s.hub.canopy.mem a)
      ∧ (∀ i, i < r.count → enables r i = 63 → addrLocal r.addr / 8 + i ∉ t.hub.canopy.poison)
      ∧ KeptBut [(0x4001_08, 0x4001_08), (0x4A00_08, 0x4A00_08)] s.hub t.hub)
  ∧ (∀ (r : CReq) s, r.op = .read → r.count = 1 → bits r.addr 2 0 = 0 → isLogical r.addr = false →
    (addrHub r.addr = 0 ∨ addrHub r.addr = hubNumber s.hub ∧ hubNumber s.hub ≠ 255) →
    addrLocal r.addr + 8 ≤ 8 * memWords → portItems s.hub r.port = [] → mustWait s.hub [] r = false →
    r.port ≠ 2 → (r.port = 6 → s.hub.canopen.writes = []) →
    ∃ t, exec (.canopyRequestIssue r) s = .next t
      ∧ t.hub.answer = (if s.hub.canopy.poison.contains (addrLocal r.addr / 8)
          then .poisoned (wordsBytes [memWord s.hub.canopy.mem (addrLocal r.addr / 8)])
          else .value (memWord s.hub.canopy.mem (addrLocal r.addr / 8)).toNat)
      ∧ t.hub.canopy.mem = s.hub.canopy.mem ∧ t.hub.canopy.poison = s.hub.canopy.poison ∧ t.hub.dict = s.hub.dict)

/-- R249, R252, R255, R260, R264, R274, R279: a logical request whose home is elsewhere and is not in the Reach cache goes to the home with its number in
the flow; a request at its home that is next in its flow is answered DEAD, UNPLACED, KIND where it names a GROUP, FAULT where
the entry has an error, or held while the entry is MOVING; a holder that does not hold the object answers STALE; a request with a number already passed is answered ORDER and one
ahead waits. -/
def Obligations.CanopyRequestsAreResolved : Prop :=
  (∀ (r : CReq) s, badRequest r = none → isLogical r.addr = true → handleHome (addrHandle r.addr) ≠ hubNumber s.hub →
    reachFind s.hub (addrHandle r.addr) = none → portItems s.hub r.port = [] → mustWait s.hub [] r = false →
    hubNumber s.hub ≠ 0 →
    reachable s.hub false (handleHome (addrHandle r.addr)) = true ∨ reachable s.hub true (handleHome (addrHandle r.addr)) = true →
    ∃ t o f, exec (.canopyRequestIssue r) s = .next t ∧ o ∈ t.hub.canopy.out
      ∧ o.dest = handleHome (addrHandle r.addr) ∧ o.retry = false
      ∧ o.req = { throughHome r with src := hubNumber s.hub,
                                     order := tabGet 0 s.hub.canopy.sent (flowKey o.dest r.port r.cls) }
      ∧ portFrames t.hub r.port = portFrames s.hub r.port ++ [f] ∧ f.ftype = 2 ∧ f.cls = r.cls ∧ f.dst = o.dest
      ∧ f.specific = o.req.order
      ∧ rd t.hub 0x4300_02 = min (rd s.hub 0x4300_02 + 1) (2 ^ 32 - 1) ∧ t.hub.canopy.mem = s.hub.canopy.mem)
  ∧ (∀ (r : CReq) s, r.src ≠ hubNumber s.hub → r.port ≠ 7 → badRequest r = none → isLogical r.addr = true →
    handleHome (addrHandle r.addr) = hubNumber s.hub →
    s.hub.canopy.flows.find? (fun e => e.1 == flowKey r.src r.port r.cls) = none → s.hub.canopy.flows.length < 1024 →
    exec (.canopyHomeRequest r) s = .next { s with hub := drainPorts (homeResolve { r with home := true, order := r.order % 65536 }
      (setFlow (flowKey r.src r.port r.cls) { expected := (r.order % 65536 + 1) % 65536, ahead := [] } s.hub)) })
  ∧ (∀ (r : CReq) e st s, r.src ≠ hubNumber s.hub → r.port ≠ 7 → badRequest r = none → isLogical r.addr = true →
    handleHome (addrHandle r.addr) = hubNumber s.hub → s.hub.canopy.ports = [] →
    s.hub.canopy.badMap.contains (handleSlot (addrHandle r.addr)) = false →
    s.hub.canopy.flows.find? (fun e => e.1 == flowKey r.src r.port r.cls) = none →
    e = mapEntry s.hub (handleSlot (addrHandle r.addr)) →
    hubNumber s.hub ≠ 0 →
    (e.state = 0 ∧ st = 2 ∨ e.state ≠ 0 ∧ e.hgen ≠ handleGen (addrHandle r.addr) ∧ st = 2
      ∨ e.state = 3 ∧ e.hgen = handleGen (addrHandle r.addr) ∧ st = 0xB) →
    ∃ t f, exec (.canopyHomeRequest r) s = .next t ∧ portFrames t.hub 7 = portFrames s.hub 7 ++ [f]
      ∧ f.ftype = 3 ∧ f.cls = r.cls ∧ f.dst = r.src
      ∧ f.payload = responseWords { port := r.port, tag := r.tag, src := hubNumber s.hub, cls := r.cls, op := r.op, ack := false,
                                    status := st, count := 0, data := [], fill := none, addr := r.addr }
          (if st = 0xB then e.bgen else 0)
      ∧ t.hub.canopy.mem = s.hub.canopy.mem ∧ t.hub.dict = s.hub.dict)
  ∧ (∀ (r : CReq) e s, r.src ≠ hubNumber s.hub → r.port ≠ 7 → badRequest r = none → isLogical r.addr = true →
    handleHome (addrHandle r.addr) = hubNumber s.hub → s.hub.canopy.ports = [] →
    s.hub.canopy.badMap.contains (handleSlot (addrHandle r.addr)) = false →
    s.hub.canopy.flows.find? (fun e => e.1 == flowKey r.src r.port r.cls) = none →
    e = mapEntry s.hub (handleSlot (addrHandle r.addr)) → e.state = 2 → e.kind ≠ 5 → e.hgen = handleGen (addrHandle r.addr) →
    s.hub.canopy.held.length < 256 →
    ∃ t, exec (.canopyHomeRequest r) s = .next t ∧ t.hub.canopy.held = s.hub.canopy.held
        ++ [(handleSlot (addrHandle r.addr), { r with home := true, order := r.order % 65536 })]
      ∧ t.hub.portQ = s.hub.portQ ∧ t.hub.canopy.mem = s.hub.canopy.mem)
  ∧ (∀ (r : CReq) e s, r.src ≠ hubNumber s.hub → r.port ≠ 7 → badRequest r = none → isLogical r.addr = true →
    handleHome (addrHandle r.addr) = hubNumber s.hub → s.hub.canopy.ports = [] →
    s.hub.canopy.badMap.contains (handleSlot (addrHandle r.addr)) = false →
    s.hub.canopy.flows.find? (fun e => e.1 == flowKey r.src r.port r.cls) = none →
    e = mapEntry s.hub (handleSlot (addrHandle r.addr)) → e.state = 1 → e.kind = 5 → e.hgen = handleGen (addrHandle r.addr) →
    hubNumber s.hub ≠ 0 →
    ∃ t f, exec (.canopyHomeRequest r) s = .next t ∧ portFrames t.hub 7 = portFrames s.hub 7 ++ [f] ∧ f.dst = r.src
      ∧ f.payload = responseWords { port := r.port, tag := r.tag, src := hubNumber s.hub, cls := r.cls, op := r.op, ack := false,
                                    status := 4, count := 0, data := [], fill := none, addr := r.addr } e.bgen
      ∧ t.hub.canopy.mem = s.hub.canopy.mem ∧ t.hub.dict = s.hub.dict)
  ∧ (∀ (r : CReq) s, r.src ≠ hubNumber s.hub → r.port ≠ 7 → badRequest r = none → isLogical r.addr = true →
    handleHome (addrHandle r.addr) = hubNumber s.hub → s.hub.canopy.ports = [] →
    s.hub.canopy.badMap.contains (handleSlot (addrHandle r.addr)) = true → hubNumber s.hub ≠ 0 →
    s.hub.canopy.flows.find? (fun e => e.1 == flowKey r.src r.port r.cls) = none →
    ∃ t q f, exec (.canopyHomeRequest r) s = .next t ∧ portFrames t.hub 7 = q ++ [f] ∧ f.dst = r.src ∧ recordHeld t.hub 0x0B = true
      ∧ f.payload = responseWords { port := r.port, tag := r.tag, src := hubNumber s.hub, cls := r.cls, op := r.op, ack := false,
                                    status := 0xD, count := 0, data := [], fill := none, addr := r.addr } 0
      ∧ t.hub.canopy.mem = s.hub.canopy.mem)
  ∧ (∀ (r : CReq) s, r.src ≠ hubNumber s.hub → r.home = false → badRequest r = none → isLogical r.addr = true →
    hubNumber s.hub ≠ 0 → s.hub.canopy.ports = [] → entryError s.hub (addrHandle r.addr) = none → holding s.hub (addrHandle r.addr) = none →
    s.hub.canopy.flows.find? (fun e => e.1 == flowKey r.src r.port r.cls) = none →
    ∃ t f, exec (.canopyHolderRequest r) s = .next t ∧ portFrames t.hub 7 = portFrames s.hub 7 ++ [f] ∧ f.dst = r.src
      ∧ f.payload = responseWords { port := r.port, tag := r.tag, src := hubNumber s.hub, cls := r.cls, op := r.op, ack := false,
                                    status := 1, count := 0, data := [], fill := none, addr := r.addr }
          (holderGen s.hub (addrHandle r.addr))
      ∧ t.hub.canopy.mem = s.hub.canopy.mem ∧ t.hub.dict = s.hub.dict)
  ∧ (∀ (r : CReq) fl s, r.src ≠ hubNumber s.hub → hubNumber s.hub ≠ 0 → s.hub.canopy.ports = [] →
    s.hub.canopy.flows.find? (fun e => e.1 == flowKey r.src r.port r.cls) = some (flowKey r.src r.port r.cls, fl) →
    (32768 ≤ (r.order % 65536 + 65536 - fl.expected) % 65536 →
      ∃ t f, exec (.canopyHolderRequest r) s = .next t ∧ portFrames t.hub 7 = portFrames s.hub 7 ++ [f] ∧ f.dst = r.src
        ∧ f.payload = responseWords { port := r.port, tag := r.tag, src := hubNumber s.hub, cls := r.cls, op := r.op, ack := false,
                                      status := 6, count := 0, data := [], fill := none, addr := r.addr } (refusalGen r s.hub)
        ∧ rd t.hub 0x4300_06 = min (rd s.hub 0x4300_06 + 1) (2 ^ 32 - 1) ∧ t.hub.canopy = s.hub.canopy)
    ∧ (0 < (r.order % 65536 + 65536 - fl.expected) % 65536 → (r.order % 65536 + 65536 - fl.expected) % 65536 < 32768 →
      ∃ t, exec (.canopyHolderRequest r) s = .next t ∧ t.hub.portQ = s.hub.portQ ∧ t.hub.canopy.mem = s.hub.canopy.mem
        ∧ tabGet { expected := 0, ahead := [] } t.hub.canopy.flows (flowKey r.src r.port r.cls)
            = { fl with ahead := fl.ahead ++ [{ r with order := r.order % 65536 }] }))

/-- R262, R265, R270, R274 to R276, R281: a response ends its request with its data, STALE sends it again through the home, RETRY makes it wait
10 µs; a timeout ends it with TIMEOUT; the acknowledgement of a flow's writes leaves once; a gap is counted and passed over; a
barrier completes once no posted write of its port is outstanding; Reach entries end by lifetime or flush. -/
def Obligations.CanopyResponsesTimersAndBarriers : Prop :=
  (∀ resp o w s, s.hub.canopy.relays = [] → s.hub.canopy.ports = [] → answeredBy s.hub resp = [o] → resp.status = 0 →
    resp.data = [w] → o.req.op = .read → o.req.port ∉ [2, 6] →
    ∃ t, exec (.canopyResponse resp) s = .next t ∧ t.hub.answer = .value w.toNat ∧ o ∉ t.hub.canopy.out
      ∧ (∀ f, resp.fill = some f → isLogical o.req.addr = true → handleHome (addrHandle o.req.addr) ≠ hubNumber s.hub →
          ∃ x ∈ t.hub.canopy.reach, x.handle = addrHandle o.req.addr ∧ x.holder = f.holder ∧ x.gen = f.gen)
      ∧ t.hub.dict = s.hub.dict ∧ t.hub.canopy.mem = s.hub.canopy.mem)
  ∧ (∀ resp o s, s.hub.canopy.relays = [] → s.hub.canopy.ports = [] → answeredBy s.hub resp = [o] → resp.status = 1 →
    resp.fill = none →
    reachable s.hub false (handleHome (addrHandle o.req.addr)) = true
      ∨ reachable s.hub true (handleHome (addrHandle o.req.addr)) = true →
    ∃ t x, exec (.canopyResponse resp) s = .next t ∧ rd t.hub 0x4300_03 = min (rd s.hub 0x4300_03 + 1) (2 ^ 32 - 1)
      ∧ x ∈ t.hub.canopy.out ∧ x.req.home = true ∧ x.req.tag = o.req.tag ∧ x.dest = handleHome (addrHandle o.req.addr)
      ∧ x.retry = false ∧ reachFind t.hub (addrHandle o.req.addr) = none)
  ∧ (∀ resp o s, s.hub.canopy.relays = [] → s.hub.canopy.ports = [] → answeredBy s.hub resp = [o] → resp.status = 8 →
    resp.fill = none →
    ∃ t, exec (.canopyResponse resp) s = .next t ∧ rd t.hub 0x4300_04 = min (rd s.hub 0x4300_04 + 1) (2 ^ 32 - 1)
      ∧ { req := throughHome o.req, dest := handleHome (addrHandle o.req.addr), retry := true } ∈ t.hub.canopy.out
      ∧ t.hub.portQ = s.hub.portQ)
  ∧ (∀ port tag o s, s.hub.canopy.ports = [] →
    s.hub.canopy.out.find? (fun o => o.req.port == port && o.req.tag == tag && o.retry) = some o → o.dest ≠ hubNumber s.hub →
    reachable s.hub false o.dest = true ∨ reachable s.hub true o.dest = true →
    ∃ t x, exec (.retryDelayExpiry port tag) s = .next t ∧ x ∈ t.hub.canopy.out ∧ x.retry = false ∧ x.dest = o.dest
      ∧ x.req.tag = tag ∧ x.req.port = port
      ∧ rd t.hub 0x4300_02 = (if o.req.home then min (rd s.hub 0x4300_02 + 1) (2 ^ 32 - 1) else rd s.hub 0x4300_02)
      ∧ KeptBut [(0x4300_02, 0x4300_02)] s.hub t.hub)
  ∧ (∀ port tag o s, s.hub.canopy.ports = [] → outFind s.hub port tag = some o → o.req.op = .read → port ∉ [2, 6] →
    ∃ t, exec (.completionTimeout port tag) s = .next t ∧ t.hub.answer = .status 0xFE ∧ o ∉ t.hub.canopy.out
      ∧ rd t.hub 0x4300_07 = min (rd s.hub 0x4300_07 + 1) (2 ^ 32 - 1) ∧ KeptBut [(0x4300_07, 0x4300_07)] s.hub t.hub)
  ∧ (∀ src port cls (x : Ack) s, hubNumber s.hub ≠ 0 → s.hub.canopy.acks.find? (fun e => e.1 == flowKey src port cls) = some (flowKey src port cls, x) →
    ∃ t f, exec (.writeAckTimer src port cls) s = .next t ∧ portFrames t.hub 7 = portFrames s.hub 7 ++ [f] ∧ f.dst = src
      ∧ f.ftype = 3 ∧ f.cls = cls
      ∧ f.payload = responseWords { port, tag := x.last % 256, src := hubNumber s.hub, cls, op := .write, ack := true, status := 0,
                                    count := x.count, data := [], fill := x.fill, addr := 0 } x.gen
      ∧ t.hub.canopy = { s.hub.canopy with acks := tabErase s.hub.canopy.acks (flowKey src port cls) })
  ∧ (∀ src port cls s, s.hub.canopy.acks.find? (fun e => e.1 == flowKey src port cls) = none →
    exec (.writeAckTimer src port cls) s = .next s)
  ∧ (∀ src port cls fl n s,
    s.hub.canopy.flows.find? (fun e => e.1 == flowKey src port cls) = some (flowKey src port cls, fl) → nextPresent fl = some n →
    exec (.orderGapTimeout src port cls) s = .next { s with hub := drainPorts (drainFlow (flowKey src port cls) fl.ahead.length
      (setFlow (flowKey src port cls) { fl with expected := n } (bump s.hub 0x4300_05))) })
  ∧ (∀ src port cls s, ∃ t, exec (.flowStateExpiry src port cls) s = .next t
      ∧ { t.hub with canopy := { t.hub.canopy with flows := s.hub.canopy.flows } } = s.hub
      ∧ t.hub.canopy.flows.find? (fun e => e.1 == flowKey src port cls) = none
      ∧ (∀ k, k ≠ flowKey src port cls →
          t.hub.canopy.flows.find? (fun e => e.1 == k) = s.hub.canopy.flows.find? (fun e => e.1 == k)))
  ∧ (∀ port s, portItems s.hub port = [] → port ≠ 2 →
    (outCount s.hub port true = 0 →
      ∃ t, exec (.barrier port) s = .next t ∧ t.hub.answer = .accepted ∧ portItems t.hub port = []
        ∧ t.hub.dict = s.hub.dict ∧ t.hub.portQ = s.hub.portQ)
    ∧ (outCount s.hub port true ≠ 0 →
      ∃ t, exec (.barrier port) s = .next t ∧ portItems t.hub port = [.barrier] ∧ t.hub.answer = s.hub.answer
        ∧ t.hub.dict = s.hub.dict ∧ t.hub.portQ = s.hub.portQ))
  ∧ (∀ handle s, ∃ t, exec (.reachLifetimeExpiry handle) s = .next t ∧ reachFind t.hub handle = none
      ∧ (∀ k, k ≠ handle → reachFind t.hub k = reachFind s.hub k)
      ∧ { t.hub with canopy := { t.hub.canopy with reach := s.hub.canopy.reach } } = s.hub)
  ∧ (∀ p s, WriteOpen p 0x2301 5 1 s.hub →
    ∃ t, exec (.reachFlush p 1) s = .next t ∧ t.hub.answer = .accepted ∧ t.hub.canopy = { s.hub.canopy with reach := [] }
      ∧ KeptBut pathRanges s.hub t.hub)

/-! ### Forester -/

/-- R291, R292, R301 to R306, R308, R325: a definition write stores its field, and a change of kind bumps the handle generation; a placement run needs
COMMISSION and gate conditions [0] and [3], asks the other hubs by CENSUS once after reset, and else places what is not
BOUND; a holder answers CENSUS by HELD and the home rebinds to it; a requested move is refused with its code or starts with
an OFFER. -/
def Obligations.ObjectsAreDefinedAndPlaced : Prop :=
  (∀ p slot field value s, WriteOpen p (0x3800 + slot / 16) (16 * (slot % 16) + field) value s.hub → slot < 4096 → 1 ≤ field →
    field ≤ 15 → value < 2 ^ 48 → entryBad (0x3800 + slot / 16) (16 * (slot % 16) + field) value = false →
    (field = 12 → bits value 17 16 ≤ 2) → memberBad (defKind s.hub slot) field value = false →
    ∃ t, exec (.definitionWrite p slot field value) s = .next t ∧ t.hub.answer = .accepted
      ∧ rd t.hub (defKey slot field) = (if field = 1 then definitionValue (rd s.hub (defKey slot 1)) value
          else fieldBits (defKind s.hub slot) field (keptBits (0x3800 + slot / 16) (16 * (slot % 16) + field) value))
      ∧ (field = 1 → defKind t.hub slot = value % 8
          ∧ (value % 8 ≠ 7 → value % 8 ≠ defKind s.hub slot → defGen t.hub slot = (defGen s.hub slot + 1) % 8)
          ∧ (value % 8 ≠ 7 → value % 8 = defKind s.hub slot → defGen t.hub slot = defGen s.hub slot)))
  ∧ (∀ s, mode s.hub ≠ 2 ∨ gate0 s.hub = false ∨ gate3 s.hub = false →
    exec .placementRun s = .next s ∧ exec .placementRetry s = .next s)
  ∧ (∀ s, mode s.hub = 2 → gate0 s.hub = true → gate3 s.hub = true → s.hub.forester.placed = false → s.hub.canopy.map = [] →
    s.hub.canopy.badMap = [] → hubNumber s.hub ≠ 0 → othersPresent s.hub ≠ [] →
    ∃ t, exec .placementRun s = .next t ∧ t.hub.forester.placed = true ∧ t.hub.forester.census = unboundSlots t.hub
      ∧ (∀ x, x ∈ t.hub.forester.census ↔ x ∈ definedSlots s.hub)
      ∧ (definedSlots s.hub ≠ [] → ∀ n, n ∈ othersPresent s.hub → ∃ f ∈ portFrames t.hub 6, f.dst = n ∧ f.ftype = 9)
      ∧ KeptBut [(0x4310_0A, 0x4310_0A)] s.hub t.hub)
  ∧ (∀ b s, mode s.hub = 2 → gate0 s.hub = true → gate3 s.hub = true → s.hub.forester.placed = true →
    b = takeDefs (freshTry s.hub) →
    ∃ w, exec .placementRun s = .next { s with hub := placeAll (wr { b with freeCount := b.freeCount + 1 } 0x4310_0A w) })
  ∧ (∀ s, mode s.hub = 2 → gate0 s.hub = true → gate3 s.hub = true →
    ∃ t, exec .placementRetry s = .next t ∧ t.hub = placeAll (freshTry s.hub)
      ∧ (unboundSlots s.hub = [] → t.hub = foresterUpdate (freshTry s.hub)))
  ∧ (∀ s, ∃ t, exec .censusTimeout s = .next t ∧ t.hub.forester.census = [])
  ∧ (∀ src tag handles r x s, residence s.hub x = some r → r.state = 0 → handles = [x] → hubNumber s.hub ≠ 0 →
    s.hub.canopy.badRes.contains x = false →
    ∃ t f, exec (.migrationCensus src tag handles) s = .next t ∧ portFrames t.hub 6 = portFrames s.hub 6 ++ [f] ∧ f.dst = src
      ∧ f.ftype = 9 ∧ f.payload.tail = [BitVec.ofNat 48 (r.gen % 256 * 2 ^ 23 + x)]
      ∧ { t.hub with portQ := s.hub.portQ, seqs := s.hub.seqs } = s.hub)
  ∧ (∀ src gen x s, handleHome x = hubNumber s.hub → handleSlot x ∈ s.hub.forester.census → slotHandle s.hub (handleSlot x) = x →
    ((mapEntry s.hub (handleSlot x)).state = 3 →
      ∃ t, exec (.migrationHeld src [(gen, x)]) s = .next t ∧ (mapEntry t.hub (handleSlot x)).state = 1
        ∧ (mapEntry t.hub (handleSlot x)).holder = src ∧ (mapEntry t.hub (handleSlot x)).bgen = gen % 256
        ∧ handleSlot x ∉ t.hub.forester.census)
    ∧ ((mapEntry s.hub (handleSlot x)).state ≠ 3 →
      ∃ t, exec (.migrationHeld src [(gen, x)]) s = .next t ∧ t.hub.canopy.map = s.hub.canopy.map
        ∧ ((mapEntry s.hub (handleSlot x)).holder = src → (mapEntry s.hub (handleSlot x)).bgen = gen % 256 →
            handleSlot x ∉ t.hub.forester.census)
        ∧ ((mapEntry s.hub (handleSlot x)).holder ≠ src ∨ (mapEntry s.hub (handleSlot x)).bgen ≠ gen % 256 →
            t.hub.forester.census = s.hub.forester.census)))
  ∧ (∀ p s, WriteOpen p 0x2311 4 1 s.hub → s.hub.forester.request = none → rd s.hub 0x2311_01 = 0 →
    ∃ t, exec (.moveRequestStart p 1) s = .next t ∧ t.hub.answer = .accepted ∧ rd t.hub 0x2311_05 = 2
      ∧ t.hub.forester.moves = s.hub.forester.moves ∧ KeptBut ((0x2311_05, 0x2311_05) :: (0x4310_05, 0x4310_05) :: pathRanges) s.hub t.hub)
  ∧ (∀ p x slot e s, WriteOpen p 0x2311 4 1 s.hub → s.hub.forester.request = none → x = rd s.hub 0x2311_01 → x ≠ 0 →
    slot = handleSlot x → handleHome x = hubNumber s.hub → hubNumber s.hub ≠ 0 → e = mapEntry s.hub slot → slotHandle s.hub slot = x →
    e.state = 1 → s.hub.canopy.badMap.contains slot = false → floating s.hub slot = true →
    moveBarred s.hub x 5 (copyWords s.hub e.kind e.holder e.base e.length) = 0 → (e.holder = hubNumber s.hub → takesPart s.hub < 4) →
    rd s.hub 0x2311_02 ∈ othersPresent s.hub → rd s.hub 0x2311_02 ≠ e.holder →
    ∃ t q f m, exec (.moveRequestStart p 1) s = .next t ∧ rd t.hub 0x2311_05 = 0xFF ∧ t.hub.forester.request = some m.tag
      ∧ t.hub.forester.moves = s.hub.forester.moves ++ [m] ∧ m.slot = slot ∧ m.trigger = 5 ∧ m.target = rd s.hub 0x2311_02
      ∧ m.phase = 1 ∧ portFrames t.hub 6 = q ++ [f] ∧ f.dst = m.target ∧ f.ftype = 9)

/-- R278, R280, R297, R313, R314, R319 to R322: at the home an accepted OFFER makes the entry MOVING and asks the holder to drain, a refused one ends the
move; INSTALLED commits the new holder with the next binding generation; an abort, by poison or time limit, restores the old;
the last ACK ends the move; an unanswered frame goes again; a halted source engine hands its program to the target. -/
def Obligations.MovesRunAtTheHome : Prop :=
  (∀ src tag base m s, findMove s.hub tag = some m → m.phase = 1 → m.target = src → m.source ≠ 0 → m.trigger ≠ 1 →
    (∀ status, 2 ≤ status → status ≤ 4 → placing s.hub = false → s.hub.forester.waiting = [] →
      ∃ t, exec (.migrationAnswer src tag m.handle status base) s = .next t
        ∧ t.hub.forester.moves = s.hub.forester.moves.filter (fun x => x.tag != m.tag) ∧ t.hub.canopy = s.hub.canopy
        ∧ rd t.hub 0x4310_05 = min (rd s.hub 0x4310_05 + 1) (2 ^ 32 - 1))
    ∧ (m.source ≠ hubNumber s.hub → hubNumber s.hub ≠ 0 →
      ∃ t q f, exec (.migrationAnswer src tag m.handle 0 base) s = .next t
        ∧ (mapEntry t.hub m.slot).state = 2 ∧ (mapEntry t.hub m.slot).holder = (mapEntry s.hub m.slot).holder
        ∧ (∃ x ∈ t.hub.forester.moves, x.tag = m.tag ∧ x.phase = 2 ∧ x.engine = base)
        ∧ portFrames t.hub 6 = q ++ [f] ∧ f.dst = m.source ∧ f.ftype = 9))
  ∧ (∀ src tag m s, findMove s.hub tag = some m → m.phase = 2 → m.source = src →
    (∀ status, status ≠ 5 →
      ∃ t, exec (.migrationDrained src tag m.handle status) s = .next t
        ∧ (∃ x ∈ t.hub.forester.moves, x.tag = m.tag ∧ x.phase = 3)
        ∧ { t.hub with forester := { t.hub.forester with moves := s.hub.forester.moves } } = s.hub)
    ∧ (m.source ≠ 0 → (∃ n ∈ [m.source, m.target], n ≠ 0 ∧ n ≠ hubNumber s.hub) →
      s.hub.canopy.badMap.contains m.slot = false →
      ∃ t, exec (.migrationDrained src tag m.handle 5) s = .next t ∧ (mapEntry t.hub m.slot).state = 1
        ∧ (mapEntry t.hub m.slot).holder = (mapEntry s.hub m.slot).holder
        ∧ rd t.hub 0x4300_09 = min (rd s.hub 0x4300_09 + 1) (2 ^ 32 - 1)))
  ∧ (∀ src tag received m s, findMove s.hub tag = some m → m.phase = 2 ∨ m.phase = 3 → m.target = src → src ≠ hubNumber s.hub →
    src ≠ 0 → m.trigger ≠ 1 → hubNumber s.hub ≠ 0 → s.hub.canopy.badMap.contains m.slot = false →
    stateWords (mapEntry s.hub m.slot).kind (mapEntry s.hub m.slot).length ≤ received →
    (commitBarred s.hub m.slot = true → exec (.migrationInstalled src tag m.handle received) s = .next s)
    ∧ (commitBarred s.hub m.slot = false → m.switch = 0 ∨ nowNs s.hub + s.hub.cyc.period < m.switch →
      ∃ t, exec (.migrationInstalled src tag m.handle received) s = .next t
        ∧ mapEntry t.hub m.slot = { mapEntry s.hub m.slot with
            state := 1, holder := m.target, base := m.engine, bgen := ((mapEntry s.hub m.slot).bgen + 1) % 256 }
        ∧ (∃ f ∈ portFrames t.hub 6, f.dst = m.target ∧ f.ftype = 9)
        ∧ rd t.hub 0x4310_03 = min (rd s.hub 0x4310_03 + 1) (2 ^ 32 - 1))
    ∧ (commitBarred s.hub m.slot = false → m.source ≠ 0 → m.switch ≠ 0 → m.switch ≤ nowNs s.hub + s.hub.cyc.period →
      ∃ t, exec (.migrationInstalled src tag m.handle received) s = .next t
        ∧ (mapEntry t.hub m.slot).state = 1 ∧ (mapEntry t.hub m.slot).holder = (mapEntry s.hub m.slot).holder))
  ∧ (∀ src tag m s, findMove s.hub tag = some m → m.phase = 4 ∨ m.phase = 5 → (∀ n ∈ m.acks, n = src) → placing s.hub = false →
    s.hub.forester.waiting = [] →
    ∃ t, exec (.migrationAck src tag m.handle) s = .next t ∧ findMove t.hub tag = none
      ∧ mapEntry t.hub m.slot = mapEntry s.hub m.slot)
  ∧ (∀ tag m s, findMove s.hub tag = some m → hubNumber s.hub ≠ 0 →
    (m.phase = 1 → ∃ t f, exec (.migrationResend tag) s = .next t ∧ portFrames t.hub 6 = portFrames s.hub 6 ++ [f]
      ∧ f.dst = m.target ∧ f.ftype = 9 ∧ { t.hub with portQ := s.hub.portQ, seqs := s.hub.seqs } = s.hub)
    ∧ (m.phase = 2 → ∃ t f, exec (.migrationResend tag) s = .next t ∧ portFrames t.hub 6 = portFrames s.hub 6 ++ [f]
      ∧ f.dst = m.source ∧ f.ftype = 9 ∧ { t.hub with portQ := s.hub.portQ, seqs := s.hub.seqs } = s.hub))
  ∧ (∀ slot m s, s.hub.canopy.ports = [] → s.hub.forester.moves.find? (fun m => m.slot == slot) = some m →
    s.hub.canopy.badMap.contains slot = false →
    (m.phase ≤ 3 → m.trigger ≠ 1 → m.source ≠ 0 → (∃ n ∈ [m.source, m.target], n ≠ 0 ∧ n ≠ hubNumber s.hub) →
      ∃ t, exec (.moveTimeLimitExpiry slot) s = .next t ∧ (mapEntry t.hub slot).state = 1
        ∧ (mapEntry t.hub slot).holder = (mapEntry s.hub slot).holder
        ∧ (∃ x ∈ t.hub.forester.moves, x.tag = m.tag ∧ x.phase = 5 ∧ x.result = 1)
        ∧ eventPending t.hub 0x1C = true ∧ rd t.hub 0x4310_04 = min (rd s.hub 0x4310_04 + 1) (2 ^ 32 - 1)
        ∧ rd t.hub 0x4300_09 = min (rd s.hub 0x4300_09 + 1) (2 ^ 32 - 1))
    ∧ (m.phase = 6 → m.source = 0 → ∃ t, exec (.moveTimeLimitExpiry slot) s = .next t
        ∧ (∃ x ∈ t.hub.forester.moves, x.tag = m.tag ∧ x.phase = 10) ∧ m.handle ∉ t.hub.ring.groups
        ∧ (tabGet 256 s.hub.forester.reported slot ≠ 3 → eventPending t.hub 0x19 = true) ∧ t.hub.canopy = s.hub.canopy)
    ∧ (m.phase = 4 ∨ m.phase = 5 → placing s.hub = false → s.hub.forester.waiting = [] →
      ∃ t, exec (.moveTimeLimitExpiry slot) s = .next t ∧ findMove t.hub m.tag = none))
  ∧ (∀ src handle scores s,
    (handleHome handle = hubNumber s.hub → (mapEntry s.hub (handleSlot handle)).holder = src →
      exec (.migrationScore src handle scores) s = .next { s with hub := { s.hub with forester := { s.hub.forester with
        scores := tabSet s.hub.forester.scores handle scores } } })
    ∧ (handleHome handle ≠ hubNumber s.hub → exec (.migrationScore src handle scores) s = .next s))
  ∧ (∀ s, s.hub.canopy.held = [] → s.hub.canopy.ports = [] → hubNumber s.hub ≠ 0 →
    ∃ t, exec .scoringInterval s = .next t ∧ t.hub.forester.scores = [] ∧ t.hub.forester.counts = []
      ∧ (∀ e ∈ s.hub.forester.counts, handleHome e.1 ≠ hubNumber s.hub →
          ∃ f ∈ portFrames t.hub 6, f.dst = handleHome e.1 ∧ f.ftype = 9))
  ∧ (∀ (source : Fin 64) m s, s.hub.forester.moves.find? (fun m => m.phase == 7 && m.sourceE == source.val) = some m →
    m.engine ≠ source.val → handleHome m.handle = hubNumber s.hub → m.slot = handleSlot m.handle →
    (commitBarred s.hub m.slot = true → exec (.handoverHalt source true) s = .next s)
    ∧ (commitBarred s.hub m.slot = false → ∃ t, exec (.handoverHalt source true) s = .next t ∧ (mapEntry t.hub m.slot).base = m.engine
      ∧ (mapEntry t.hub m.slot).bgen = ((mapEntry s.hub m.slot).bgen + 1) % 256 ∧ findMove t.hub m.tag = none
      ∧ (mode s.hub ≠ 5 → m.engine < 64 → engState t.hub m.engine
          = (if (engState s.hub source == 3 || engState s.hub source == 4 || engState s.hub source == 6)
              && !(engine s.hub source).keepHalted then 3 else 2)
          ∧ (engine t.hub m.engine).pc = (engine s.hub source).pc ∧ (engine t.hub m.engine).x = (engine s.hub source).x)))

/-- R278, R280, R302, R313, R315, R316: a target answers an OFFER by what it can take, gathers the words of DATA and reports INSTALLED with a
PENDING residence; the old holder drains, answers DRAINED and sends its state; COMMIT makes the residence VALID under the new
binding generation, or ends it at the old holder; ABORT restores the old holder; each is acknowledged, GROUP as well. -/
def Obligations.HoldersFollowTheHome : Prop :=
  (∀ src tag handle kind length place d s, s.hub.forester.incoming = [] → takesPart s.hub < 4 → hubNumber s.hub ≠ 0 →
    (∀ c, hostObject handle kind d place 0xFF s.hub = .no c →
      ∃ t f, exec (.migrationOffer src tag handle kind length place d) s = .next t
        ∧ portFrames t.hub 6 = portFrames s.hub 6 ++ [f] ∧ f.dst = src
        ∧ f.payload = [BitVec.ofNat 48 (2 * 2 ^ 40 + tag % 256 * 2 ^ 32 + c % 256 * 2 ^ 24 + handle % 2 ^ 23)]
        ∧ { t.hub with portQ := s.hub.portQ, seqs := s.hub.seqs } = s.hub)
    ∧ (∀ b a, hostObject handle kind d place 0xFF s.hub = .yes b a → portFrames a 6 = portFrames s.hub 6 →
      ∃ t f i, exec (.migrationOffer src tag handle kind length place d) s = .next t
        ∧ portFrames t.hub 6 = portFrames s.hub 6 ++ [f] ∧ f.dst = src
        ∧ f.payload = [BitVec.ofNat 48 (2 * 2 ^ 40 + tag % 256 * 2 ^ 32 + 0 % 256 * 2 ^ 24 + handle % 2 ^ 23)]
        ∧ t.hub.forester.incoming = a.forester.incoming ++ [i] ∧ i.home = src ∧ i.tag = tag ∧ i.entry.handle = handle
        ∧ i.entry.base = b ∧ i.entry.state = 2))
  ∧ (∀ src tag handle target r ws s, residence s.hub handle = some r → r.kind = 3 → target ≠ 0 →
    s.hub.forester.outgoing = [] → s.hub.canopy.badRes = [] → hubNumber s.hub ≠ 0 →
    objectState s.hub r.kind r.base r.length = some ws →
    ∃ t x, exec (.migrationDrain src tag handle target 0) s = .next t ∧ residence t.hub handle = some { r with state := 1 }
      ∧ t.hub.forester.outgoing = [x] ∧ x.home = src ∧ x.tag = tag ∧ x.handle = handle ∧ x.target = target
      ∧ (∃ f ∈ portFrames t.hub 6, f.dst = src ∧ f.cls = .mg
          ∧ f.payload = [BitVec.ofNat 48 (4 * 2 ^ 40 + tag % 256 * 2 ^ 32 + 0 % 256 * 2 ^ 24 + handle % 2 ^ 23)])
      ∧ (ws ≠ [] → ∃ f ∈ portFrames t.hub 6, f.dst = target ∧ f.cls = .bk ∧ f.payload.drop 2 = ws.take 254)
      ∧ t.hub.canopy.mem = s.hub.canopy.mem ∧ t.hub.dict = s.hub.dict)
  ∧ (∀ src tag handle i ws s, s.hub.forester.incoming = [i] → i.tag = tag → i.entry.handle = handle → i.entry.kind = 3 →
    i.words = [] → src ≠ 0 → hubNumber s.hub ≠ 0 → i.home ≠ hubNumber s.hub → residence s.hub handle = none → s.hub.canopy.badRes = [] →
    (ws.length = i.entry.length → ws ≠ [] →
      ∃ t f, exec (.migrationData src tag handle 0 ws) s = .next t ∧ t.hub.forester.incoming = []
        ∧ residence t.hub handle = some i.entry ∧ portFrames t.hub 6 = portFrames s.hub 6 ++ [f] ∧ f.dst = i.home
        ∧ (∀ k, k < ws.length → memWord t.hub.canopy.mem (i.entry.base + k) = ws.getD k 0))
    ∧ (ws.length < i.entry.length → ∀ first,
      ∃ t x, exec (.migrationData src tag handle first ws) s = .next t ∧ t.hub.forester.incoming = [x]
        ∧ x.words.length = ws.length ∧ x.entry = i.entry
        ∧ { t.hub with forester := { t.hub.forester with incoming := s.hub.forester.incoming } } = s.hub))
  ∧ (∀ src tag handle gen ts r s, residence s.hub handle = some r → s.hub.canopy.badRes = [] → hubNumber s.hub ≠ 0 →
    (s.hub.forester.outgoing = [] →
      ∃ t f, exec (.migrationCommit src tag handle ⟨gen, ts⟩) s = .next t ∧ residence t.hub handle = some { r with state := 0, gen }
        ∧ t.hub.cyc.switches = s.hub.cyc.switches ++ (if ts ≠ 0 ∧ r.state = 2 then [(handle, ts, true)] else [])
        ∧ portFrames t.hub 6 = portFrames s.hub 6 ++ [f] ∧ f.dst = src ∧ t.hub.dict = s.hub.dict)
    ∧ (∀ o, s.hub.forester.outgoing = [o] → o.home = src → o.tag = tag →
      ∃ t f, exec (.migrationCommit src tag handle ⟨gen, ts⟩) s = .next t ∧ residence t.hub handle = none
        ∧ t.hub.forester.outgoing = [] ∧ f ∈ portFrames t.hub 6 ∧ f.dst = src ∧ f.ftype = 9)
    ∧ (∀ o, s.hub.forester.outgoing = [o] → o.home = src → o.tag = tag →
      ∃ t f, exec (.migrationAbort src tag handle) s = .next t ∧ residence t.hub handle = some { r with state := 0 }
        ∧ t.hub.forester.outgoing = [] ∧ portFrames t.hub 6 = portFrames s.hub 6 ++ [f] ∧ f.dst = src ∧ t.hub.dict = s.hub.dict))
  ∧ (∀ src tag handle s, 256 ≤ (s.hub.ring.groups.filter (· != handle)).length →
    exec (.migrationGroup src tag handle true) s = .next s)
  ∧ (∀ src tag handle install s, hubNumber s.hub ≠ 0 → install = false ∨ (s.hub.ring.groups.filter (· != handle)).length < 256 →
    ∃ t f, exec (.migrationGroup src tag handle install) s = .next t ∧ portFrames t.hub 6 = portFrames s.hub 6 ++ [f]
      ∧ f.dst = src ∧ f.ftype = 9
      ∧ (install = false → handle ∉ t.hub.ring.groups)
      ∧ (install = true → handle ∈ t.hub.ring.groups)
      ∧ (∀ g, g ≠ handle → (g ∈ t.hub.ring.groups ↔ g ∈ s.hub.ring.groups))
      ∧ { t.hub with ring := { t.hub.ring with groups := s.hub.ring.groups }, portQ := s.hub.portQ, seqs := s.hub.seqs } = s.hub)

/-! ### Cyclic exchange -/

/-- R331, R333, R335 to R337, R350: a due cycle start closes the window, opens the next under the next number and sends the contribution of this
hub; a contribution goes into the window its START is stamped in, open or just closed, is held for the next one, or is late and counted;
late work starts the next cycle at once and is an overrun, after a release it waits for the grid.
R69, R338 to R342, R352 to R356: at O_k, from the second cycle on and with no reaction holding the outputs, each consumption entry gives its target
the consumed word, or its safe value once the word is older than its limit, and SAFE_N goes high; a rebind notice announces
the change of a consumed SIGNAL; a phase error beyond its limit, or windows without contributions, raise FLT_CYC_WATCHDOG. -/
def Obligations.CyclesRunOnTheirGridAndOutputsFollow : Prop :=
  (∀ s, s.hub.cyc.running = false ∨ (s.hub.cyc.since ≠ 0 ∧ s.hub.cyc.complete = false)
      ∨ (s.hub.cyc.since ≠ 0 ∧ nowNs s.hub < s.hub.cyc.start + s.hub.cyc.length) →
    exec .cycleStart s = .next s)
  ∧ (∀ s, s.hub.cyc.running = true → s.hub.cyc.since ≠ 0 → s.hub.cyc.complete = true →
    s.hub.cyc.start + s.hub.cyc.length ≤ nowNs s.hub →
    ∃ t, exec .cycleStart s = .next t ∧ t.hub.cyc.number = s.hub.cyc.number + 1
      ∧ t.hub.cyc.start = s.hub.cyc.start + s.hub.cyc.length ∧ t.hub.cyc.complete = false ∧ t.hub.cyc.applied = false
      ∧ rd t.hub 0x4400_01 = (s.hub.cyc.number + 1) % 2 ^ 32
      ∧ ((∀ m ∈ s.hub.forester.moves, m.phase = 2 ∨ m.phase = 3 → switchLate s.hub m = false) → mode t.hub = mode s.hub)
      ∧ ((∀ m ∈ s.hub.forester.moves, m.phase = 2 ∨ m.phase = 3 → switchLate s.hub m = false) → s.hub.cyc.leaving = [] →
          hubNumber s.hub ≠ 0 → bench s.hub = false → contributionSize s.hub ≠ 0 →
          ∃ f ∈ portFrames t.hub 7, f.ftype = 0 ∧ f.cls = .cy ∧ f.dst = 255 ∧ f.src = hubNumber s.hub))
  ∧ (∀ s, s.hub.cyc.running = true → s.hub.cyc.complete = false → s.hub.cyc.applied = true ∨ serving s.hub = false →
    (nowNs s.hub < s.hub.cyc.start + s.hub.cyc.length →
      exec .cycleWorkComplete s = .next { s with hub := { s.hub with cyc := { s.hub.cyc with complete := true } } })
    ∧ (s.hub.cyc.since ≠ 0 → s.hub.cyc.start + s.hub.cyc.length ≤ nowNs s.hub →
      ∃ t, exec .cycleWorkComplete s = .next t ∧ t.hub.cyc.number = s.hub.cyc.number + 1 ∧ t.hub.cyc.start = nowNs s.hub
        ∧ rd t.hub 0x4400_04 = min (rd s.hub 0x4400_04 + 1) (2 ^ 32 - 1)))
  ∧ (∀ s, s.hub.cyc.running = true → s.hub.cyc.complete = false → s.hub.cyc.applied = true ∨ serving s.hub = false →
    s.hub.cyc.since = 0 → outputsSafe s.hub = false → s.hub.cyc.start + s.hub.cyc.length ≤ nowNs s.hub →
    ∃ t, exec .cycleWorkComplete s = .next t ∧ t.hub.cyc.number = s.hub.cyc.number ∧ t.hub.cyc.complete = true
      ∧ rd t.hub 0x4400_04 = min (rd s.hub 0x4400_04 + 1) (2 ^ 32 - 1))
  ∧ (∀ src tag index head words s, s.hub.cyc.running = true → s.hub.cyc.since ≠ 0 → s.hub.cyc.complete = true →
    s.hub.cyc.start + s.hub.cyc.length ≤ nowNs s.hub → tag % 256 = (s.hub.cyc.number + 1) % 256 →
    s.hub.cyc.start + s.hub.cyc.length ≤ stampNs s.hub (4 + portNum head.port) - head.age →
    (∀ m ∈ s.hub.forester.moves, m.phase = 2 ∨ m.phase = 3 → switchLate s.hub m = false) →
    ∃ t, exec (.contributionReceive src tag index head words) s = .next t ∧ t.hub.cyc.number = s.hub.cyc.number + 1
      ∧ ∀ i, i < words.length → 256 * index + i < 1024 →
          tabGet 0 t.hub.cyc.opened (wordKey src (256 * index + i)) = words.getD i 0)
  ∧ (∀ src tag index head words s, s.hub.cyc.running = true → s.hub.cyc.since ≠ 0 →
    s.hub.cyc.complete = false ∨ nowNs s.hub < s.hub.cyc.start + s.hub.cyc.length →
    s.hub.cyc.start ≤ stampNs s.hub (4 + portNum head.port) - head.age →
    (tag % 256 = s.hub.cyc.number % 256 →
      ∃ t, exec (.contributionReceive src tag index head words) s = .next t
        ∧ t.hub.cyc.accepted = s.hub.cyc.accepted + words.length
        ∧ (∀ i, i < words.length → 256 * index + i < 1024 →
            tabGet 0 t.hub.cyc.opened (wordKey src (256 * index + i)) = words.getD i 0)
        ∧ (∀ k, (∀ i, i < words.length → k ≠ wordKey src (256 * index + i)) →
            tabGet 0 t.hub.cyc.opened k = tabGet 0 s.hub.cyc.opened k)
        ∧ t.hub.cyc.image = s.hub.cyc.image)
    ∧ (tag % 256 = (s.hub.cyc.number + 1) % 256 →
      ∃ t, exec (.contributionReceive src tag index head words) s = .next t
        ∧ t.hub.cyc.early = s.hub.cyc.early ++ [{ src, tag := tag % 256, first := 256 * index, words }]
        ∧ t.hub.cyc.opened = s.hub.cyc.opened ∧ rd t.hub 0x4400_07 = min (rd s.hub 0x4400_07 + 1) (2 ^ 32 - 1)
        ∧ KeptBut [(0x4400_07, 0x4400_07)] s.hub t.hub)
    ∧ (tag % 256 ≠ s.hub.cyc.number % 256 → tag % 256 ≠ (s.hub.cyc.number + 1) % 256 →
      ∃ t, exec (.contributionReceive src tag index head words) s = .next t
        ∧ t.hub.cyc.early = s.hub.cyc.early ∧ t.hub.cyc.opened = s.hub.cyc.opened
        ∧ rd t.hub 0x4400_06 = min (rd s.hub 0x4400_06 + 1) (2 ^ 32 - 1) ∧ KeptBut [(0x4400_06, 0x4400_06)] s.hub t.hub))
  ∧ (∀ src tag index head words stamp s, s.hub.cyc.running = true → s.hub.cyc.since ≠ 0 →
    s.hub.cyc.complete = false ∨ nowNs s.hub < s.hub.cyc.start + s.hub.cyc.length →
    stamp = stampNs s.hub (4 + portNum head.port) - head.age → stamp < s.hub.cyc.start →
    (s.hub.cyc.prior ≤ stamp → tag % 256 = s.hub.cyc.closed.1 % 256 →
      ∃ t, exec (.contributionReceive src tag index head words) s = .next t ∧ t.hub.cyc.opened = s.hub.cyc.opened
        ∧ ∀ i, i < words.length → 256 * index + i < 1024 →
            tabGet (0, 0) t.hub.cyc.image (wordKey src (256 * index + i)) = (words.getD i 0, s.hub.cyc.closed.1))
    ∧ (s.hub.cyc.prior ≤ stamp → tag % 256 ≠ s.hub.cyc.closed.1 % 256 → tag % 256 ≠ (s.hub.cyc.closed.1 + 1) % 256 →
      ∃ t, exec (.contributionReceive src tag index head words) s = .next t ∧ t.hub.cyc.opened = s.hub.cyc.opened
        ∧ t.hub.cyc.image = s.hub.cyc.image ∧ rd t.hub 0x4400_06 = min (rd s.hub 0x4400_06 + 1) (2 ^ 32 - 1))
    ∧ (stamp < s.hub.cyc.prior →
      ∃ t, exec (.contributionReceive src tag index head words) s = .next t ∧ t.hub.cyc = s.hub.cyc
        ∧ rd t.hub 0x4400_06 = min (rd s.hub 0x4400_06 + 1) (2 ^ 32 - 1) ∧ KeptBut [(0x4400_06, 0x4400_06)] s.hub t.hub))
  ∧ (∀ src tag index head words s, s.hub.cyc.running = false →
    exec (.contributionReceive src tag index head words) s = .next s)
  ∧ (∀ s, s.hub.cyc.running = false ∨ s.hub.cyc.applied = true ∨ serving s.hub = false ∨ nowNs s.hub < outputTime s.hub →
    exec .outputInstant s = .next s)
  ∧ (∀ s, s.hub.cyc.running = true → s.hub.cyc.applied = false → serving s.hub = true → outputTime s.hub ≤ nowNs s.hub →
    (s.hub.cyc.since < 2 ∨ outputsSafe s.hub = true →
      ∃ t, exec .outputInstant s = .next t ∧ t.hub.cyc = { s.hub.cyc with applied := true } ∧ t.hub.engines = s.hub.engines
        ∧ t.hub.fuses = s.hub.fuses ∧ KeptBut [(0x4400_08, 0x4400_08)] s.hub t.hub)
    ∧ (2 ≤ s.hub.cyc.since → outputsSafe s.hub = false → s.hub.watch.armed = [] →
      ∃ t, exec .outputInstant s = .next t ∧ t.hub.cyc.applied = true ∧ rd t.hub 0x4E00_03 = 1 ∧ mode t.hub = mode s.hub
        ∧ (∀ j n t0, consumptions s.hub = [j] → t0 = rd s.hub (consumeKey j + 1) → bits t0 47 44 = 1 →
            (List.range 64).find? (fun n => rd s.hub (engKey n 0x12) == bits t0 22 0) = some n →
            s.hub.sleep.asleep.contains (32 + grove n) = false → domainState s.hub (grove n) = 3 →
            crossingShut s.hub 0 (8 + grove n) = false →
            (engine t.hub n).iir = (if bits t0 43 36 < (imageWord s.hub (consumed s.hub j)).2 then rdW s.hub (consumeKey j + 2)
                else (imageWord s.hub (consumed s.hub j)).1)
            ∧ (engine t.hub n).n = true)))
  ∧ (∀ code handle holder slot cycle r s, (wantedSignals s.hub).contains handle = true → handleHome handle ≠ hubNumber s.hub →
    s.hub.cyc.routes.find? (fun e => e.1 == handle) = some (handle, r) →
    ∃ t, exec (.rebindNotice code handle holder slot cycle) s = .next t
      ∧ (∃ x, t.hub.cyc.routes.find? (fun e => e.1 == handle) = some (handle, x) ∧ x.holder = r.holder ∧ x.slot = r.slot
          ∧ (code ≠ 2 → x.next = some (holder, slot, cycle % 2 ^ 30) ∧ x.old = r.old)
          ∧ (code = 2 → r.next.isSome = true → x.next = none ∧ x.old = r.old)
          ∧ (∀ o, code = 2 → r.next = none → r.old = some o →
              x.next = some (o.1, o.2, (s.hub.cyc.number + 1) % 2 ^ 30) ∧ x.old = none))
      ∧ { t.hub with cyc := { t.hub.cyc with routes := s.hub.cyc.routes } } = s.hub)
  ∧ (∀ code handle holder slot cycle s, (wantedSignals s.hub).contains handle = false →
    exec (.rebindNotice code handle holder slot cycle) s = .next s)
  ∧ (∀ s, s.hub.cyc.running = true → serving s.hub = true →
    (othersLately s.hub = false → exec (.cycleWatchdogExpiry true) s = .next s)
    ∧ (bench s.hub = false → othersLately s.hub = true → rd s.hub 0x2401_05 ≤ s.hub.cyc.missed →
      ∃ t, exec (.cycleWatchdogExpiry true) s = .next t ∧ recordHeld t.hub 0x0C = true ∧ faulted s.hub t.hub = t.hub
        ∧ KeptBut faultRanges s.hub t.hub)
    ∧ (phaseOk s.hub (phaseError s.hub) = false →
      ∃ t, exec (.cycleWatchdogExpiry false) s = .next t ∧ recordHeld t.hub 0x0C = true ∧ faulted s.hub t.hub = t.hub
        ∧ KeptBut faultRanges s.hub t.hub)
    ∧ (phaseOk s.hub (phaseError s.hub) = true → exec (.cycleWatchdogExpiry false) s = .next s))

/-! ### Spire time -/

/-- R364 to R368, R373, R379: the candidates heard and this hub elect the LOCKED candidate of the lowest class and then lowest number, once
none was LOCKED for 300 ms the best of all, once none was heard for as long the head; an ANNOUNCE or its timeout elects again, and a candidate's ANNOUNCE and the master's SYNC leave by their ring's port; a master of class 2
or 3 is LOCKED once it meets gate condition [1]. -/
def Obligations.TheBestCandidateIsMaster : Prop :=
  (∀ h c, bench h = false → c ∈ candidates h → c.2.2 = true →
    (elected h).2 < c.2.1 ∨ ((elected h).2 = c.2.1 ∧ (elected h).1 ≤ c.1))
  ∧ (∀ h c, bench h = false → (∀ x ∈ candidates h, x.2.2 = false) → silent h h.spire.lockedAt = true → c ∈ candidates h →
    (elected h).2 < c.2.1 ∨ ((elected h).2 = c.2.1 ∧ (elected h).1 ≤ c.1))
  ∧ (∀ h, bench h = false → (∀ x ∈ candidates h, x.2.2 = false) → candidates h ≠ [] → silent h h.spire.lockedAt = false →
    elected h = (rd h 0x4500_02, rd h 0x4500_03))
  ∧ (∀ h, candidates h = [] → elected h = (if bench h then (hubNumber h, h.spire.cls)
      else if silent h h.spire.listenAt then (headHub h, 3) else (rd h 0x4500_02, rd h 0x4500_03)))
  ∧ (∀ h, masterHere h = true → h.spire.cls ≠ 1 → gate1 h = true → bench h = false → 1 ≤ spireState h → spireState h ≤ 3 →
    spireState (masterLock h) = 4 ∧ eventPending (masterLock h) 0x28 = true)
  ∧ (∀ src cls locked s, src ≠ 0 → src ≠ hubNumber s.hub →
    ∃ t h, exec (.announce src cls locked) s = .next t
      ∧ h = { s.hub with spire := { s.hub.spire with
          cands := tabSet s.hub.spire.cands src (cls, locked, nowNs s.hub)
          lockedAt := if locked then nowNs s.hub else s.hub.spire.lockedAt } }
      ∧ t.hub.spire.cands = h.spire.cands ∧ rd t.hub 0x4500_02 = (elected h).1 % 2 ^ 48
      ∧ (rd s.hub 0x4500_02 ≠ (elected h).1 → eventPending t.hub 0x2C = true)
      ∧ KeptBut ((0x4500_01, 0x4500_04) :: (0x4500_07, 0x4500_07) :: (0x4500_0F, 0x4500_0F) :: faultRanges) s.hub t.hub)
  ∧ (∀ hub s, ∃ t h, exec (.announceTimeout hub) s = .next t
      ∧ h = { s.hub with spire := { s.hub.spire with cands := tabErase s.hub.spire.cands hub } }
      ∧ t.hub.spire.cands = h.spire.cands ∧ rd t.hub 0x4500_02 = (elected h).1 % 2 ^ 48
      ∧ KeptBut ((0x4500_01, 0x4500_04) :: (0x4500_07, 0x4500_07) :: (0x4500_0F, 0x4500_0F) :: faultRanges) s.hub t.hub)
  ∧ (∀ f g a p s, isCandidate s.hub = true → sendsOwn s.hub = true → p = ringPort (announceRing s.hub) →
    f = newFrame s.hub 6 .ur 255 256 0
      [BitVec.ofNat 48 (hubNumber s.hub * 2 ^ 40 + s.hub.spire.cls * 2 ^ 32 + b2n (declaresLocked s.hub) * 2 ^ 31)] →
    sealing f { s.hub with seqs := tabSet s.hub.seqs (streamKey (hubNumber s.hub) 255 .ur) ((f.seq + 1) % 65536) } = (some g, a) →
    s.hub.watch.armed = [] → crossingShut s.hub 0x14 0x12 = false → (crossing s.hub 0x14 0x12).entries = [] →
    a.watch.armed = [] → (∀ e ∈ [(0x12, 0x14), (0x14, 6)], crossingShut a e.1 e.2 = false ∧ (crossing a e.1 e.2).entries = []) →
    ∃ t, exec .announceSend s = .next t
      ∧ (tx t.hub p).express = (tx a p).express ++ [{ frame := g, hop := 254, error := false, crc := none }])
  ∧ (∀ s, isCandidate s.hub = false → exec .announceSend s = .next s)
  ∧ (∀ ring s, rd s.hub 0x4500_02 = hubNumber s.hub → hubNumber s.hub ≠ 0 → peerOf s.hub (ringNum ring) ≠ 0 → sendsOwn s.hub = true →
    ∃ t, exec (.syncSend ring) s = .next t
      ∧ chain t.hub (ringNum ring) = { chain s.hub (ringNum ring) with
          seq := ((chain s.hub (ringNum ring)).seq + 1) % 256
          sent := some (nextNumber s.hub (peerOf s.hub (ringNum ring))) })
  ∧ (∀ ring s, rd s.hub 0x4500_02 ≠ hubNumber s.hub → exec (.syncSend ring) s = .next s)

/-- R369 to R383, R385: delay exchanges, each valid or counted as invalid; a SYNC is relayed, that of the elected master is counted, ends a
HOLDOVER and, on the followed chain, gives the servo its offset; the one step of the offset is forward at once, back by a hold, or AHEAD,
and a master takes none; the followed chain changes over when it gives no SYNC. -/
def Obligations.SpireMeasuresAndFollowsTheMaster : Prop :=
  (∀ port t1 s, rxUp s.hub (portNum port) = true → (meter s.hub (portNum port)).peer = peerOf s.hub (portNum port) →
    peerOf s.hub (portNum port) ≠ 0 → sendsOwn s.hub = true →
    ∃ t, exec (.delayReqSend port t1) s = .next t
      ∧ meter t.hub (portNum port) = { meter s.hub (portNum port) with
          seq := ((meter s.hub (portNum port)).seq + 1) % 256,
          opened := (meter s.hub (portNum port)).opened ++ [(((meter s.hub (portNum port)).seq + 1) % 256, t1)] })
  ∧ (∀ port src seq t2 s, sendsOwn s.hub = true → src ≠ 0 →
    ∃ t, exec (.delayReq port src seq t2) s = .next t
      ∧ meter t.hub (portNum port) = { meter s.hub (portNum port) with reply := (seq % 256, nextNumber s.hub src) })
  ∧ (∀ port seq (t1 t2 t3 t4 : Nat) (d : Int) s,
    (meter s.hub (portNum port)).opened.find? (fun x => x.1 == seq % 256) = some (seq % 256, t1) →
    (meter s.hub (portNum port)).peer = peerOf s.hub (portNum port) → (meter s.hub (portNum port)).pend = [] →
    d = (((t4 : Int) - t1) - ((t3 : Int) - t2)) / 2 →
    ((meter s.hub (portNum port)).delays = [] →
      ∃ t, exec (.delayResp port seq seq t2 t3 t4 false) s = .next t
        ∧ meter t.hub (portNum port) = { meter s.hub (portNum port) with
            opened := (meter s.hub (portNum port)).opened.filter fun x => x.1 != seq % 256
            pend := [], delays := [d], valid := (meter s.hub (portNum port)).valid + 1 }
        ∧ rd t.hub (0x4500_08 + portNum port) = d.toNat % 2 ^ 48)
    ∧ (∀ least, (meter s.hub (portNum port)).delays.min? = some least → least + 50000 < d →
      ∃ t, exec (.delayResp port seq seq t2 t3 t4 false) s = .next t
        ∧ (meter t.hub (portNum port)).delays = (meter s.hub (portNum port)).delays
        ∧ rd t.hub 0x4500_11 = min (rd s.hub 0x4500_11 + 1) (2 ^ 32 - 1)))
  ∧ (∀ port s, (meter s.hub (portNum port)).opened = [] → exec (.delayRespTimeout port) s = .next s)
  ∧ (∀ port x rest s, (meter s.hub (portNum port)).opened = x :: rest →
    ∃ t, exec (.delayRespTimeout port) s = .next t
      ∧ meter t.hub (portNum port) = { meter s.hub (portNum port) with opened := rest }
      ∧ rd t.hub 0x4500_11 = min (rd s.hub 0x4500_11 + 1) (2 ^ 32 - 1) ∧ KeptBut [(0x4500_11, 0x4500_11)] s.hub t.hub)
  ∧ (∀ ring master cls hops seq origin path rt arrival s,
    master = 0 ∨ (master = hubNumber s.hub ∧ rd s.hub 0x4500_02 ≠ hubNumber s.hub) →
    exec (.sync ring master cls hops seq origin path rt arrival) s = .next s)
  ∧ (∀ ring master cls hops seq origin path rt arrival s, master ≠ 0 → master ≠ hubNumber s.hub → master ≠ rd s.hub 0x4500_02 →
    ∃ t, exec (.sync ring master cls hops seq origin path rt arrival) s = .next t
      ∧ (peerOf s.hub (ringNum ring) ≠ 0 → sendsOwn s.hub = true →
          chain t.hub (ringNum ring) = { chain s.hub (ringNum ring) with
            seq := ((chain s.hub (ringNum ring)).seq + 1) % 256
            sent := some (nextNumber s.hub (peerOf s.hub (ringNum ring))) })
      ∧ rd t.hub 0x4500_10 = rd s.hub 0x4500_10)
  ∧ (∀ ring master cls hops seq origin path rt arrival s, master ≠ 0 → master = rd s.hub 0x4500_02 → master ≠ hubNumber s.hub →
    ∃ t, exec (.sync ring master cls hops seq origin path rt arrival) s = .next t
      ∧ (chain t.hub (ringNum ring)).last = some (seq % 256, arrival)
      ∧ (chain t.hub (ringNum ring)).row = (if (chain s.hub (ringNum ring)).last.any (fun x => (x.1 + 1) % 256 == seq % 256)
          then (chain s.hub (ringNum ring)).row + 1 else 1)
      ∧ rd t.hub 0x4500_10 = min (rd s.hub 0x4500_10 + 1) (2 ^ 32 - 1) ∧ rd t.hub 0x4500_0A = rt % 2 ^ 48
      ∧ (rt ≠ 0 → t.hub.spire.rtSeen = true) ∧ (spireState s.hub = 6 → spireState t.hub ≠ 6))
  ∧ (∀ theta h, spireState h = 4 →
    (beyondThreshold h theta = false → spireState (servo theta h) = 4 ∧ rd (servo theta h) 0x4500_05 = unsigned theta)
    ∧ (beyondThreshold h theta = true → spireState (servo theta h) = 5 ∧ eventPending (servo theta h) 0x2A = true))
  ∧ (∀ theta h, 1 ≤ spireState h → spireState h ≤ 2 → gate1 h = false → spireState (servo theta h) = 2)
  ∧ (∀ (ps : Int) s, s.hub.spire.toStep = some ps → mode s.hub ≠ 2 ∨ masterHere s.hub = true →
    exec .spireStep s = .next { s with hub := { s.hub with spire := { s.hub.spire with toStep := none } } })
  ∧ (∀ (ps : Int) s, s.hub.spire.toStep = some ps → mode s.hub = 2 → masterHere s.hub = false →
    (0 ≤ ps → ∃ t, exec .spireStep s = .next t ∧ t.hub.spire.acc = s.hub.spire.acc + ps.toNat * 2 ^ 32 / 1000
      ∧ t.hub.spire.stepped = true ∧ t.hub.spire.toStep = none ∧ rd t.hub 0x4500_0C = unsigned (ps / 1000)
      ∧ eventPending t.hub 0x29 = true ∧ KeptBut ((0x4500_0C, 0x4500_0C) :: faultRanges) s.hub t.hub)
    ∧ (ps < 0 → -1000000000000 ≤ ps →
      ∃ t, exec .spireStep s = .next t ∧ t.hub.spire.acc = s.hub.spire.acc ∧ t.hub.spire.hold = (-(ps * 2 ^ 32 / 1000)).toNat
        ∧ t.hub.spire.stepped = true ∧ t.hub.spire.toStep = none ∧ KeptBut [(0x4500_0C, 0x4500_0C)] s.hub t.hub)
    ∧ (ps < -1000000000000 →
      ∃ t, exec .spireStep s = .next t ∧ t.hub.spire.acc = s.hub.spire.acc ∧ spireState t.hub = 7 ∧ eventPending t.hub 0x2D = true))
  ∧ (∀ s, s.hub.spire.toStep = none → exec .spireStep s = .next s)
  ∧ (∀ s, ∃ t, exec .chainSwitch s = .next t ∧ rd t.hub 0x4500_0B = 1 - rd s.hub 0x4500_0B
      ∧ chain t.hub (rd s.hub 0x4500_0B) = { chain s.hub (rd s.hub 0x4500_0B) with row := 0, last := none }
      ∧ KeptBut [(0x4500_0B, 0x4500_0B)] s.hub t.hub)

/-- R384 to R388, R390 to R394: a locked hub that is not the master and has no SYNC enters HOLDOVER with its rate frozen, past the limit FLT_SPIRE_HOLDOVER is raised; a fault
of the Spire island raises FLT_SPIRE_FAULT and stops PPS_OUT; PPS_OUT pulses in the states that may; an edge at PPS_IN is stamped less the
cable delay, in COMMISSION a written time of day is stepped to, one written after lock waits, and its loss drops the hub to class 2. -/
def Obligations.HoldoverAndPps : Prop :=
  (∀ s, spireState s.hub = 4 ∨ spireState s.hub = 5 → masterHere s.hub = false →
    ∃ t, exec .holdoverEntry s = .next t ∧ spireState t.hub = 6 ∧ rd t.hub 0x4500_07 = rd s.hub 0x4500_06
      ∧ rd t.hub 0x4500_0E = min (rd s.hub 0x4500_0E + 1) (2 ^ 32 - 1) ∧ t.hub.spire = { s.hub.spire with holdAt := nowNs s.hub }
      ∧ eventPending t.hub 0x2B = true
      ∧ KeptBut ((0x4500_01, 0x4500_01) :: (0x4500_07, 0x4500_07) :: (0x4500_0E, 0x4500_0E) :: eventRanges) s.hub t.hub)
  ∧ (∀ s, (spireState s.hub ≠ 4 ∧ spireState s.hub ≠ 5) ∨ masterHere s.hub = true → exec .holdoverEntry s = .next s)
  ∧ (∀ s, spireState s.hub = 6 →
    ∃ t, exec .holdoverLimitExpiry s = .next t ∧ recordHeld t.hub 0x0D = true ∧ faulted s.hub t.hub = t.hub
      ∧ KeptBut faultRanges s.hub t.hub)
  ∧ (∀ s, spireState s.hub ≠ 6 → exec .holdoverLimitExpiry s = .next s)
  ∧ (∀ increment s, s.hub.spire.faulted = false → mode s.hub ≠ 6 →
    exec (.holdoverCalibrate increment) s
      = .next { s with hub := { s.hub with spire := { s.hub.spire with holdInc := increment } } })
  ∧ (∀ increment s, s.hub.spire.faulted = true ∨ mode s.hub = 6 → exec (.holdoverCalibrate increment) s = .next s)
  ∧ (∀ s, ∃ t, exec .spireIslandFault s = .next t
      ∧ t.hub.spire = { s.hub.spire with faulted := true, ppsOut := false, replicas := t.hub.spire.replicas }
      ∧ (∀ i, i ∈ stampIslands → s.hub.watch.armed = [] → i = 0x15 ∨ crossingShut s.hub 0x15 i = false →
          replica t.hub i = max (replica s.hub i) s.hub.spire.holdTime)
      ∧ recordHeld t.hub 0x0E = true ∧ KeptBut faultRanges s.hub t.hub)
  ∧ (∀ s, (ppsAllowed s.hub = true →
        exec .ppsOutEdge s = .next { s with hub := { s.hub with spire := { s.hub.spire with ppsOut := true } } })
      ∧ (ppsAllowed s.hub = false → exec .ppsOutEdge s = .next s)
      ∧ exec .ppsOutWidthEnd s = .next { s with hub := { s.hub with spire := { s.hub.spire with ppsOut := false } } })
  ∧ (∀ stamp s, rdB s.hub 0x2501_0C = false → exec (.ppsInEdge stamp) s = .next s)
  ∧ (∀ (stamp at0 : Nat) s, rdB s.hub 0x2501_0C = true → at0 = ((stamp : Int) - signed (rd s.hub 0x2501_0D)).toNat →
    ∃ t, exec (.ppsInEdge stamp) s = .next t ∧ rd t.hub 0x4500_12 = timeSec (at0 * 2 ^ 32) % 2 ^ 48
      ∧ rd t.hub 0x4500_13 = timeFrac (at0 * 2 ^ 32) % 2 ^ 48
      ∧ (isCandidate s.hub = false → bench s.hub = false →
          t.hub.spire = s.hub.spire ∧ KeptBut [(0x4500_12, 0x4500_13)] s.hub t.hub)
      ∧ (∀ tod, isCandidate s.hub = true ∨ bench s.hub = true → s.hub.spire.tod = some tod →
          mode s.hub ≠ 2 ∨ s.hub.spire.todWaits = true →
          t.hub.spire.tod = none ∧ t.hub.spire.todStep = some (((tod : Int) - at0 * 2 ^ 16) * 2 ^ 16)
            ∧ t.hub.spire.acc = s.hub.spire.acc)
      ∧ (∀ tod, isCandidate s.hub = true ∨ bench s.hub = true → s.hub.spire.tod = some tod → mode s.hub = 2 →
          s.hub.spire.todWaits = false → at0 * 2 ^ 16 ≤ tod →
          t.hub.spire.tod = none ∧ t.hub.spire.todStep = none ∧ t.hub.spire.sourced = true ∧ t.hub.spire.cls = 1
          ∧ t.hub.spire.acc = s.hub.spire.acc + (tod - at0 * 2 ^ 16) * 2 ^ 16
          ∧ eventPending t.hub 0x29 = true))
  ∧ (∀ s, (s.hub.spire.cls = 1 → ∃ t, exec .ppsInTimeout s = .next t ∧ t.hub.spire.cls = 2 ∧ eventPending t.hub 0x2E = true
        ∧ (masterHere s.hub = true → rd t.hub 0x4500_07 = rd s.hub 0x4500_06))
      ∧ (s.hub.spire.cls ≠ 1 → exec .ppsInTimeout s = .next s))

/-! ### I/O engines -/

/-- R402, R411, R413, R415, R422: an edge at which the instruction at PC is SYS, BR, BRP, DBNZ, AWAIT or DRIVE: its effect, the next PC,
the TK count, the compare match and action; a stalled AWAIT changes nothing else; no other engine, pin or register changes. A command that
names another instruction than the one at PC, or an engine that does not run, does nothing. -/
def Obligations.EngineFlowAndPinInstructions : Prop :=
  (∀ (n : Fin 64) pins s g, EdgeDue n s.hub → g = clocked s.hub n →
    EdgeGoes (.sysNop n pins) n 0 pins g none s
    ∧ (wordAtPc s.hub n = 0x0100 → ∃ t, exec (.sysHalt n pins) s = .next t
        ∧ EdgeTaken n 2 (edgeEngine n pins g none s.hub) s.hub t.hub ∧ eventPending t.hub 0x30 = true)
    ∧ (∀ code, code < 256 → wordAtPc s.hub n = 0x0200 + code → ∃ t, exec (.sysSig n pins code) s = .next t
        ∧ EdgeTaken n 3 (edgeEngine n pins g none s.hub) s.hub t.hub ∧ eventPending t.hub (0x38 + grove n) = true)
    ∧ EdgeGoes (.sysStamp n pins) n 0x0300 pins { g with x := BitVec.ofNat 48 (stampNs s.hub (8 + grove n)) } none s
    ∧ EdgeGoes (.sysClrm n pins) n 0x0400 pins { g with m := false } none s
    ∧ (∀ cond target, cond < 16 → target < 64 → EdgeGoes (.br n pins cond target) n (0x1000 + cond * 256 + target) pins
        (if cond = 9 then { g with m := false } else g) (if condHolds g cond then some target else none) s)
    ∧ (∀ level (pin : Fin 8) target, target < 64 → EdgeGoes (.brp n pins level pin target) n
        (0x2000 + b2n level * 2048 + pin * 256 + target) pins g (if pins.getLsbD pin = level then some target else none) s)
    ∧ (∀ target, target < 64 → EdgeGoes (.dbnz n pins target) n (0x3000 + target) pins { g with cnt := (g.cnt + 65535) % 65536 }
        (if g.cnt % 65536 = 1 then none else some target) s)
    ∧ (∀ flagForm event (pin : Fin 8) w, event < 4 → w = (if flagForm then 0x4800 + event * 256 else 0x4000 + event * 512 + pin * 64) →
        (awaitHolds flagForm event pin pins g = true → EdgeGoes (.await n pins flagForm event pin) n w pins
          (if flagForm && event == 0 then { g with m := false } else g) none s)
        ∧ (awaitHolds flagForm event pin pins g = false → EdgeStalls (.await n pins flagForm event pin) n w pins s))
    ∧ (∀ mask, EdgeGoes (.driveLow n pins mask) n (0x5000 + mask.toNat) pins
          { g with en := g.en ||| mask, lvl := g.lvl &&& ~~~ mask } none s
        ∧ EdgeGoes (.driveHigh n pins mask) n (0x5400 + mask.toNat) pins { g with en := g.en ||| mask, lvl := g.lvl ||| mask } none s
        ∧ EdgeGoes (.driveRelease n pins mask) n (0x5800 + mask.toNat) pins { g with en := g.en &&& ~~~ mask } none s
        ∧ EdgeGoes (.driveToggle n pins mask) n (0x5C00 + mask.toNat) pins
          { g with en := g.en ||| mask, lvl := g.lvl ^^^ mask } none s))
  ∧ (∀ (n : Fin 64) pins s,
      (wordAtPc s.hub n ≠ 0 → exec (.sysNop n pins) s = .next s)
      ∧ (wordAtPc s.hub n ≠ 0x0100 → exec (.sysHalt n pins) s = .next s)
      ∧ (engineRuns s.hub n = false → ∀ i ∈ ([.sysNop n pins, .sysHalt n pins, .sysStamp n pins, .sysClrm n pins] : List Instr),
          exec i s = .next s)
      ∧ (engineRuns s.hub n = false → ∀ cond target level pin flag event mask,
          ∀ i ∈ ([.br n pins cond target, .brp n pins level pin target, .dbnz n pins target, .await n pins flag event pin,
            .driveLow n pins mask, .driveToggle n pins mask] : List Instr), exec i s = .next s))
  ∧ (∀ d a, ∃ k, rateNext d a = a + 256 * k - d ∧ d ≤ a + 256 * k ∧ ∀ j, j < k → a + 256 * j < d)
  ∧ (∀ g, condHolds g 0 = true ∧ (condHolds g 1 = true ↔ g.x = 0) ∧ (condHolds g 3 = true ↔ g.x = g.y)
      ∧ (condHolds g 5 = true ↔ g.x.toNat < g.y.toNat) ∧ (condHolds g 7 = true ↔ g.cnt = 0) ∧ condHolds g 9 = g.m
      ∧ condHolds g 0xB = g.e ∧ condHolds g 0xC = g.n ∧ (condHolds g 0xD = true ↔ g.txq ≠ [])
      ∧ (condHolds g 0xE = true ↔ g.rxq.length < rxCap g.split)
      ∧ condHolds g 2 = !condHolds g 1 ∧ condHolds g 4 = !condHolds g 3 ∧ condHolds g 6 = !condHolds g 5
      ∧ condHolds g 8 = !condHolds g 7 ∧ condHolds g 0xA = !condHolds g 9)
  ∧ (∀ pin pins g, awaitHolds false 1 pin pins g = pins.getLsbD pin ∧ awaitHolds false 0 pin pins g = !pins.getLsbD pin
      ∧ (awaitHolds false 2 pin pins g = true ↔ pins.getLsbD pin = true ∧ g.p.getLsbD pin = false)
      ∧ (awaitHolds false 3 pin pins g = true ↔ pins.getLsbD pin = false ∧ g.p.getLsbD pin = true)
      ∧ awaitHolds true 0 pin pins g = g.m ∧ awaitHolds true 1 pin pins g = g.n
      ∧ (awaitHolds true 2 pin pins g = true ↔ g.txq ≠ []) ∧ (awaitHolds true 3 pin pins g = true ↔ g.rxq.length < rxCap g.split))
  ∧ (∀ cmp pins g, (g.tk + 1 ≠ cmp → tickEngine cmp pins g = { g with tk := g.tk + 1, p := pins })
      ∧ (g.tk + 1 = cmp → (tickEngine cmp pins g).tk = g.tk + 1 ∧ (tickEngine cmp pins g).m = true
        ∧ (g.caction = 0 → tickEngine cmp pins g = { g with tk := g.tk + 1, p := pins, m := true })
        ∧ (g.cpin < 8 → g.caction = 1 ∨ g.caction = 2 ∨ g.caction = 3 →
          (tickEngine cmp pins g).en.getLsbD g.cpin = true
          ∧ (tickEngine cmp pins g).lvl.getLsbD g.cpin
            = (g.caction == 1 || (g.caction == 3 && !g.lvl.getLsbD g.cpin)))))

/-- R411, R413, R415, R419, R427: an edge at which the instruction at PC is SHIFT, TAKE, PUT, COPY, ALU, LDI or ARM; TAKE of an empty TXQ and PUT to a
full RXQ stall, a poisoned word and an L outside 1 to 48 fault with their cause and change nothing else. -/
def Obligations.EngineDataInstructions : Prop :=
  ∀ (n : Fin 64) pins s g, EdgeDue n s.hub → g = clocked s.hub n →
    (∀ (pin : Fin 8), EdgeGoes (.shiftIn n pins true pin) n (0x6400 + pin * 128) pins
        { g with sr := ((g.sr <<< 1) ||| (if pins.getLsbD pin then 1 else 0)) &&& BitVec.ofNat 48 (2 ^ g.l - 1) } none s
      ∧ EdgeGoes (.shiftIn n pins false pin) n (0x6000 + pin * 128) pins
        { g with sr := ((g.sr &&& BitVec.ofNat 48 (2 ^ g.l - 1)) >>> 1)
            ||| ((if pins.getLsbD pin then 1 else 0) <<< (g.l - 1)) } none s
      ∧ EdgeGoes (.shiftOut n pins true pin) n (0x6C00 + pin * 128) pins
        { driveOut g pin (g.sr.getLsbD (g.l - 1)) with sr := (g.sr <<< 1) &&& BitVec.ofNat 48 (2 ^ g.l - 1) } none s
      ∧ EdgeGoes (.shiftOut n pins false pin) n (0x6800 + pin * 128) pins
        { driveOut g pin (g.sr.getLsbD 0) with sr := (g.sr &&& BitVec.ofNat 48 (2 ^ g.l - 1)) >>> 1 } none s)
    ∧ (∀ (dst : Fin 4), (g.txq = [] → EdgeStalls (.take n pins dst) n (0x7000 + dst * 1024) pins s)
      ∧ (∀ w rest, g.txq = w :: rest → w.poison = false →
          EdgeGoes (.take n pins dst) n (0x7000 + dst * 1024) pins { regSet g dst w.data with txq := rest, e := w.endMark } none s)
      ∧ (∀ w rest, g.txq = w :: rest → w.poison = true → EdgeFaults (.take n pins dst) n (0x7000 + dst * 1024) 4 s))
    ∧ (∀ (src : Fin 4) endMark count w, count < 8 → w = 0x8000 + src * 1024 + b2n endMark * 512 + count * 64 →
      (rxCap g.split ≤ g.rxq.length → EdgeStalls (.put n pins src endMark count) n w pins s)
      ∧ (g.rxq.length < rxCap g.split → EdgeGoes (.put n pins src endMark count) n w pins
          { g with rxq := g.rxq ++ [{ data := if src.val = 3 then g.tk else regGet g src, poison := false, endMark, count }] } none s))
    ∧ (∀ dst src v g1 w, src < 16 → w = 0x9000 + dst * 256 + src * 16 → v = copySrc (pinCount s.hub n) pins g src → g1 = (if src = 7 then { g with n := false } else g) →
      (dst < 4 → EdgeGoes (.copy n pins dst src) n w pins (regSet g1 dst v) none s)
      ∧ (dst = 4 → EdgeGoes (.copy n pins dst src) n w pins { g1 with cnt := v.toNat % 65536 } none s)
      ∧ (dst = 5 → 1 ≤ v.toNat → v.toNat ≤ 48 → EdgeGoes (.copy n pins dst src) n w pins { g1 with l := v.toNat } none s)
      ∧ (dst = 5 → v.toNat = 0 ∨ 48 < v.toNat → EdgeFaults (.copy n pins dst src) n w 3 s)
      ∧ (dst = 8 → EdgeGoes (.copy n pins dst src) n w pins { g1 with ior := v } none s))
    ∧ (∀ (dst : Fin 4) imm v a b w, v < (if imm then 32 else 4) → w = 0xA000 + dst * 64 + b2n imm * 32 + v → a = regGet g dst.val → b = (if imm then BitVec.ofNat 48 v else regGet g (v % 4)) →
      EdgeGoes (.aluAdd n pins dst imm v) n w pins (regSet g dst (a + b)) none s
      ∧ EdgeGoes (.aluSub n pins dst imm v) n (w + 0x100) pins (regSet g dst (a - b)) none s
      ∧ EdgeGoes (.aluAnd n pins dst imm v) n (w + 0x200) pins (regSet g dst (a &&& b)) none s
      ∧ EdgeGoes (.aluOr n pins dst imm v) n (w + 0x300) pins (regSet g dst (a ||| b)) none s
      ∧ EdgeGoes (.aluXor n pins dst imm v) n (w + 0x400) pins (regSet g dst (a ^^^ b)) none s
      ∧ EdgeGoes (.aluShl n pins dst imm v) n (w + 0x500) pins (regSet g dst (if b.toNat < 48 then a <<< b.toNat else 0)) none s
      ∧ EdgeGoes (.aluShr n pins dst imm v) n (w + 0x600) pins (regSet g dst (if b.toNat < 48 then a >>> b.toNat else 0)) none s
      ∧ EdgeGoes (.aluNot n pins dst imm v) n (w + 0x700) pins (regSet g dst (~~~ b)) none s
      ∧ (g.l ≤ 48 → ∃ r, EdgeGoes (.aluRev n pins dst imm v) n (w + 0x800) pins (regSet g dst r) none s
          ∧ ∀ k, r.getLsbD k = (decide (k < g.l) && b.getLsbD (g.l - 1 - k))))
    ∧ (∀ imm, imm < 1024 → EdgeGoes (.ldi n pins 0 imm) n (0xB000 + imm) pins { g with x := BitVec.ofNat 48 imm } none s
      ∧ EdgeGoes (.ldi n pins 1 imm) n (0xB400 + imm) pins { g with y := BitVec.ofNat 48 imm } none s
      ∧ EdgeGoes (.ldi n pins 2 imm) n (0xB800 + imm) pins { g with cnt := imm % 65536 } none s
      ∧ (1 ≤ imm → imm ≤ 48 → EdgeGoes (.ldi n pins 3 imm) n (0xBC00 + imm) pins { g with l := imm } none s)
      ∧ (imm = 0 ∨ 48 < imm → EdgeFaults (.ldi n pins 3 imm) n (0xBC00 + imm) 3 s))
    ∧ (∀ imm v w, v < (if imm then 1024 else 4) → w = 0xC000 + b2n imm * 1024 + v → EdgeGoes (.arm n pins false imm v) n w pins
        { g with cmp := g.tk + (if imm then BitVec.ofNat 48 v else regGet g (v % 4)) } none s
      ∧ EdgeGoes (.arm n pins true imm v) n (w + 0x800) pins
        { g with cmp := g.cmp + (if imm then BitVec.ofNat 48 v else regGet g (v % 4)) } none s)

/-- R413: the instruction words of Table 2, field by field, have the effects of their instructions. -/
def Obligations.InstructionWordsHaveTheirEffects : Prop :=
  ∀ count ns pins g,
    wordEffect 0 count ns pins g = .go g none ∧ wordEffect 0x0100 count ns pins g = .halt g
    ∧ wordEffect 0x0300 count ns pins g = effStamp ns g ∧ wordEffect 0x0400 count ns pins g = .go { g with m := false } none
    ∧ (∀ code, code < 256 → wordEffect (0x0200 + code) count ns pins g = .signal g code)
    ∧ (∀ cond target, cond < 16 → target < 64 → wordEffect (0x1000 + cond * 256 + target) count ns pins g = effBr cond target g)
    ∧ (∀ level pin target, pin < 8 → target < 64 →
        wordEffect (0x2000 + b2n level * 2048 + pin * 256 + target) count ns pins g = effBrp level pin target pins g)
    ∧ (∀ target, target < 64 → wordEffect (0x3000 + target) count ns pins g = effDbnz target g)
    ∧ (∀ event pin, event < 4 → pin < 8 →
        wordEffect (0x4000 + event * 512 + pin * 64) count ns pins g = effAwait false event pin pins g)
    ∧ (∀ flag, flag < 8 → wordEffect (0x4800 + flag * 256) count ns pins g = effAwait true flag 0 pins g)
    ∧ (∀ action mask, action < 4 → mask < 256 →
        wordEffect (0x5000 + action * 1024 + mask) count ns pins g = effDrive action (BitVec.ofNat 8 mask) g)
    ∧ (∀ msb pin, pin < 8 → wordEffect (0x6000 + b2n msb * 1024 + pin * 128) count ns pins g = effShiftIn msb pin pins g
        ∧ wordEffect (0x6800 + b2n msb * 1024 + pin * 128) count ns pins g = effShiftOut msb pin g)
    ∧ (∀ dst, dst < 4 → wordEffect (0x7000 + dst * 1024) count ns pins g = effTake dst g)
    ∧ (∀ src mark k, src < 4 → k < 8 →
        wordEffect (0x8000 + src * 1024 + b2n mark * 512 + k * 64) count ns pins g = effPut src mark k g)
    ∧ (∀ dst src, dst < 16 → src < 16 → wordEffect (0x9000 + dst * 256 + src * 16) count ns pins g = effCopy dst src count pins g)
    ∧ (∀ op dst imm v, op < 9 → dst < 4 → v < 32 →
        wordEffect (0xA000 + op * 256 + dst * 64 + b2n imm * 32 + v) count ns pins g = effAlu (aluOp op g.l) dst imm v g)
    ∧ (∀ dst v, dst < 4 → v < 1024 → wordEffect (0xB000 + dst * 1024 + v) count ns pins g = effLdi dst v g)
    ∧ (∀ fromCmp imm v, v < 1024 →
        wordEffect (0xC000 + b2n fromCmp * 2048 + b2n imm * 1024 + v) count ns pins g = effArm fromCmp imm v g)

/-- R414, R416, R425, R426, R665: the engine commands in the states Table 5 allows: HALT, RESUME, LOAD with its check, LOAD_CLEAN with the
presets and safe levels, STEP of one edge and FLUSH; in another state a command is refused with code 0x04, and with 0x08 while the
Grove's domain is not ON. A HALT that reaches the source of a handover is kept there (R428). -/
def Obligations.EngineCommandsKeepTable5 : Prop :=
  (∀ p (n : Fin 64) s h, WriteOpen p (0x3000 + n) 2 1 s.hub → domainState s.hub (grove n) = 3 →
    h = writeStart p (0x3000 + n) 2 s.hub →
    (engState s.hub n = 3 ∨ engState s.hub n = 4 →
      exec (.halt p n) s = .next { s with hub := wr h (engKey n 1) 2 })
    ∧ (engState s.hub n ≠ 3 → engState s.hub n ≠ 4 → (∀ m ∈ s.hub.forester.moves, m.phase ≠ 7) →
      exec (.halt p n) s = .next { s with hub := h })
    ∧ (∀ m, engState s.hub n = 6 → s.hub.forester.moves = [m] → m.phase = 7 → m.sourceE = n →
      exec (.halt p n) s = .next { s with hub := setEngine h n { engine s.hub n with keepHalted := true } }))
  ∧ (∀ p (n : Fin 64) s h, WriteOpen p (0x3000 + n) 2 2 s.hub → domainState s.hub (grove n) = 3 → engState s.hub n = 2 →
    h = writeStart p (0x3000 + n) 2 s.hub →
    exec (.resume p n) s
      = .next { s with hub := wr (setEngine h n { engine s.hub n with acc := 0, keepHalted := false }) (engKey n 1) 3 })
  ∧ (∀ p (n : Fin 64) image s st, WriteOpen p (0x3000 + n) 2 (3 + 256 * image) s.hub → domainState s.hub (grove n) = 3 →
    image < 256 → loadable (engState s.hub n) = true → st = rd s.hub (imageKey image 1) →
    (loadCheck s.hub n image = 0 → s.hub.watch.armed = [] →
      ∃ t, exec (.load p n image) s = .next t ∧ t.hub.answer = .accepted ∧ engState t.hub n = 3
        ∧ engine t.hub n = { engine s.hub n with
            prog := (List.range 64).map (fun a => rd s.hub (imageKey image (0x10 + a))), pc := bits st 5 0,
            cpin := bits st 34 32, caction := bits st 36 35, split := bits st 38 37, acc := 0, badWord := 0 }
        ∧ rd t.hub (engKey n 0x10) = 0 ∧ rd t.hub (engKey n 0x13) = image ∧ rd t.hub (engKey n 0x15) = 0
        ∧ KeptBut ((engKey n 1, engKey n 1) :: (engKey n 0x10, engKey n 0x15) :: pathRanges) s.hub t.hub)
    ∧ (loadCheck s.hub n image ≠ 0 →
      ∃ t, exec (.load p n image) s = .next t ∧ engState t.hub n = engState s.hub n ∧ t.hub.engines = s.hub.engines
        ∧ t.hub.pads = s.hub.pads ∧ rd t.hub (engKey n 0x10) = 5 ∧ rd t.hub (engKey n 0x15) = loadCheck s.hub n image % 2 ^ 48
        ∧ KeptBut ((engKey n 0x10, engKey n 0x15) :: pathRanges) s.hub t.hub))
  ∧ (∀ p (n : Fin 64) image pins s st, WriteOpen p (0x3000 + n) 2 (4 + 256 * image) s.hub → domainState s.hub (grove n) = 3 →
    image < 256 → loadable (engState s.hub n) = true → st = rd s.hub (imageKey image 1) →
    loadCheck s.hub n image = 0 → s.hub.watch.armed = [] → (engine s.hub n).pins.length ≤ 8 →
    ∃ t, ∃ g : Engine, exec (.loadClean p n image pins) s = .next t ∧ t.hub.answer = .accepted ∧ engState t.hub n = 3
      ∧ engine t.hub n = { engine s.hub n with
          prog := (List.range 64).map (fun a => rd s.hub (imageKey image (0x10 + a))), pc := bits st 5 0,
          cpin := bits st 34 32, caction := bits st 36 35, split := bits st 38 37, acc := 0, badWord := 0,
          sr := rdW s.hub (imageKey image 2), x := rdW s.hub (imageKey image 3), y := rdW s.hub (imageKey image 4),
          cmp := rdW s.hub (imageKey image 5), l := bits st 11 6, cnt := bits st 27 12, tk := 0, m := false, e := false,
          p := pins, ior := 0, en := g.en, lvl := g.lvl }
      ∧ (∀ k, k < (engine s.hub n).pins.length →
          g.en.getLsbD k = (match safeCode (engine s.hub n) k with
            | 2 => false | 3 => (engine s.hub n).en.getLsbD k | _ => true)
          ∧ (safeCode (engine s.hub n) k = 0 → g.lvl.getLsbD k = false) ∧ (safeCode (engine s.hub n) k = 1 → g.lvl.getLsbD k = true)
          ∧ (safeCode (engine s.hub n) k = 3 → g.lvl.getLsbD k = (engine s.hub n).lvl.getLsbD k))
      ∧ KeptBut ((engKey n 1, engKey n 1) :: (engKey n 0x10, engKey n 0x15) :: pathRanges) s.hub t.hub)
  ∧ (∀ p (n : Fin 64) pins s g eff, WriteOpen p (0x3000 + n) 2 5 s.hub → domainState s.hub (grove n) = 3 → engState s.hub n = 2 →
    decodeArmed s.hub n = false → g = clocked s.hub n → (g.pc = 0 → g.badWord = 0) →
    eff = wordEffect (wordAtPc s.hub n) (pinCount s.hub n) (stampNs s.hub (8 + grove n)) pins g →
    (∀ g' target, eff = .go g' target → ∃ t, exec (.engineStep p n pins) s = .next t ∧ t.hub.answer = .accepted
      ∧ engState t.hub n = 2 ∧ engine t.hub n = rxqKept n s.hub (edgeEngine n pins g' target s.hub)
      ∧ (∀ m, m ≠ n → engine t.hub m = engine s.hub m)
      ∧ KeptBut ((engKey n 1, engKey n 1) :: (0x4600_06, 0x4600_06) :: pathRanges) s.hub t.hub)
    ∧ (∀ g', eff = .halt g' ∨ (∃ code, eff = .signal g' code) → ∃ t, exec (.engineStep p n pins) s = .next t
      ∧ engState t.hub n = 2 ∧ engine t.hub n = edgeEngine n pins g' none s.hub
      ∧ (∀ m, m ≠ n → engine t.hub m = engine s.hub m) ∧ KeptBut ((engKey n 1, engKey n 1) :: pathRanges) s.hub t.hub)
    ∧ (eff = .stall → ∃ t, exec (.engineStep p n pins) s = .next t ∧ engState t.hub n = 2
      ∧ engine t.hub n = tickEngine g.cmp pins g ∧ rd t.hub (engKey n 0x11) = min (rd s.hub (engKey n 0x11) + 1) (2 ^ 32 - 1)
      ∧ (∀ m, m ≠ n → engine t.hub m = engine s.hub m)
      ∧ KeptBut ((engKey n 1, engKey n 1) :: (engKey n 0x11, engKey n 0x11) :: pathRanges) s.hub t.hub)
    ∧ (∀ c, c < 2 ^ 48 → eff = .fault c → ∃ t, exec (.engineStep p n pins) s = .next t ∧ engState t.hub n = 5
      ∧ rd t.hub (engKey n 0x10) = c ∧ engine t.hub n = g ∧ (∀ m, m ≠ n → engine t.hub m = engine s.hub m) ∧ t.hub.pads = s.hub.pads))
  ∧ (∀ p (n : Fin 64) s, WriteOpen p (0x3000 + n) 2 6 s.hub → domainState s.hub (grove n) = 3 →
    engState s.hub n = 2 ∨ engState s.hub n = 5 →
    ∃ t, exec (.flush p n) s = .next t ∧ t.hub.answer = .accepted
      ∧ t.hub.engines = tabSet s.hub.engines n { engine s.hub n with txq := [], rxq := [] }
      ∧ rd t.hub 0x4600_06
        = min (rd s.hub 0x4600_06 + ((engine s.hub n).txq.length + (engine s.hub n).rxq.length)) (2 ^ 32 - 1)
      ∧ KeptBut ((0x4600_06, 0x4600_06) :: pathRanges) s.hub t.hub)
  ∧ (∀ p (n : Fin 64) image pins s i v allowed, image < 256 →
    (i = .resume p n ∧ v = 2 ∧ allowed = [2] ∨ i = .load p n image ∧ v = 3 + 256 * image ∧ allowed = [1, 2, 5]
      ∨ i = .loadClean p n image pins ∧ v = 4 + 256 * image ∧ allowed = [1, 2, 5] ∨ i = .engineStep p n pins ∧ v = 5 ∧ allowed = [2]
      ∨ i = .flush p n ∧ v = 6 ∧ allowed = [2, 5]) → WriteOpen p (0x3000 + n) 2 v s.hub → domainState s.hub (grove n) = 3 →
    engState s.hub n ∉ allowed →
    ∃ t, exec i s = .next t ∧ t.hub.answer = .refused 4 ∧ t.hub.engines = s.hub.engines ∧ t.hub.pads = s.hub.pads
      ∧ KeptBut pathRanges s.hub t.hub)
  ∧ (∀ p (n : Fin 64) image pins s i v, image < 256 →
    (i = .halt p n ∧ v = 1 ∨ i = .resume p n ∧ v = 2 ∨ i = .load p n image ∧ v = 3 + 256 * image
      ∨ i = .loadClean p n image pins ∧ v = 4 + 256 * image ∨ i = .engineStep p n pins ∧ v = 5 ∨ i = .flush p n ∧ v = 6) →
    WriteOpen p (0x3000 + n) 2 v s.hub → domainState s.hub (grove n) ≠ 3 →
    ∃ t, exec i s = .next t ∧ t.hub.answer = .refused 8 ∧ t.hub.engines = s.hub.engines ∧ t.hub.pads = s.hub.pads
      ∧ KeptBut pathRanges s.hub t.hub)

/-- R410, R418, R430, R431, R785: TXQ takes the next word of its consumer FIFO and RXQ gives its first to the producer FIFO that accepts it;
a closed crossing between the Grove and the FIFOs refuses the word and a broken one loses it, both counted (R26, R27); a
pin-driver diagnosis is recorded, a failed check makes the engine UNUSABLE with its cause, and a self-test does so with each
FREE engine that fails. -/
def Obligations.EngineQueuesAndChecks : Prop :=
  (∀ (n : Fin 64) f w r x s, consumerFifo s.hub n = some f → (engine s.hub n).txq.length < txCap (engine s.hub n).split →
    r = readHead f s.hub → x = crossing r 0 (8 + grove n) → fifoHead r f = some w →
    (crossingShut r 0 (8 + grove n) = false → x.entries = [] → r.watch.armed = [] →
      ∃ t h, exec (.txqRefill n) s = .next t ∧ h = fifoAdvance f (if w.poison then fifoPoisoned f r else r)
        ∧ t.hub = setEngine h n { engine s.hub n with txq := (engine s.hub n).txq ++ [w] })
    ∧ (crossingClosed r 0 (8 + grove n) = true →
      exec (.txqRefill n) s = .next { s with hub := setCrossing r 0 (8 + grove n) { x with discarded := x.discarded + 1 } })
    ∧ (crossingClosed r 0 (8 + grove n) = false → x.broken = true →
      ∃ t h, exec (.txqRefill n) s = .next t
        ∧ h = fifoAdvance f (setCrossing r 0 (8 + grove n) { x with discarded := x.discarded + 1 })
        ∧ t.hub = setEngine h n (engine h n)))
  ∧ (∀ (n : Fin 64) s, consumerFifo s.hub n = none ∨ txCap (engine s.hub n).split ≤ (engine s.hub n).txq.length →
    exec (.txqRefill n) s = .next s)
  ∧ (∀ (n : Fin 64) f w rest s, producerFifo s.hub n = some f → (engine s.hub n).rxq = w :: rest →
    (heldBack s.hub f = false → crossingShut s.hub (8 + grove n) 0 = false → (crossing s.hub (8 + grove n) 0).entries = [] →
      s.hub.watch.armed = [] → exec (.rxqDrain n) s
      = .next { s with hub := fifoStore f w (setEngine s.hub n { engine s.hub n with rxq := rest }) })
    ∧ (heldBack s.hub f = true → exec (.rxqDrain n) s = .next s)
    ∧ (heldBack s.hub f = false → crossingShut s.hub (8 + grove n) 0 = true →
      ∃ t, exec (.rxqDrain n) s = .next t ∧ t.hub.fifos = s.hub.fifos
        ∧ crossing t.hub (8 + grove n) 0 = { crossing s.hub (8 + grove n) 0 with
            discarded := (crossing s.hub (8 + grove n) 0).discarded + 1 }
        ∧ engine t.hub n = (if crossingClosed s.hub (8 + grove n) 0 then engine s.hub n
            else { engine s.hub n with rxq := rest })))
  ∧ (∀ fio e k s, fio < 256 → bit (rd s.hub (slotKey (0x2604 + fio / 64) (fio % 64 + 1))) 4 = false → e ∈ s.hub.engines →
    pinsGated s.hub e.1 = false → e.2.pins[k]? = some fio → e.2.en.getLsbD k = true →
    ∃ t, exec (.pinDriverDiagnosis fio) s = .next t ∧ bit (rd t.hub (0x4601_01 + fio / 48)) (fio % 48) = true
      ∧ rd t.hub 0x4600_05 = min (rd s.hub 0x4600_05 + 1) (2 ^ 32 - 1) ∧ eventPending t.hub 0x31 = true)
  ∧ (∀ fio s, (∀ e ∈ s.hub.engines, ∀ k, e.2.pins[k]? = some fio → e.2.en.getLsbD k = false) →
    exec (.pinDriverDiagnosis fio) s = .next s)
  ∧ (∀ (n : Fin 64) cause s, engState s.hub n = 3 ∨ engState s.hub n = 4 → programOn s.hub n = none →
    (n.val, 3) ∉ s.hub.forester.due →
    ∃ t, exec (.engineCheckFailure n cause) s = .next t ∧ engState t.hub n = 6
      ∧ rd t.hub (engKey n 0x10) = (if cause = 2 then 2 else 1) ∧ recordHeld t.hub 0x10 = true
      ∧ rd t.hub 0x4600_02 = min (rd s.hub 0x4600_02 + 1) (2 ^ 32 - 1) ∧ faulted s.hub t.hub = t.hub
      ∧ KeptBut ((engKey n 1, engKey n 1) :: (engKey n 0x10, engKey n 0x10) :: (0x4600_02, 0x4600_02) :: (0x4600_07, 0x4600_07)
          :: faultRanges) s.hub t.hub)
  ∧ (∀ failed s, ∃ t, exec (.engineSelftest failed) s = .next t
      ∧ (∀ n, n < 64 → n ∈ failed → engState s.hub n = 1 → domainState s.hub (grove n) = 3 →
          engState t.hub n = 6 ∧ rd t.hub (engKey n 0x10) = 6 ∧ recordHeld t.hub 0x11 = true)
      ∧ (∀ n, n ∉ failed ∨ engState s.hub n ≠ 1 ∨ domainState s.hub (grove n) ≠ 3 → n < 64 →
          engState t.hub n = engState s.hub n)
      ∧ t.hub.engines = s.hub.engines ∧ t.hub.pads = s.hub.pads)
  ∧ (∀ failed s, (∀ n, n < 64 → n ∈ failed → engState s.hub n ≠ 1) → exec (.engineSelftest failed) s = .next s)

/-! ### Stream FIFOs -/

/-- R439, R441 to R443, R445 to R448, R451, R452, R455 to R457, R461, R464, R465: a FIFO appends whole words and packed bytes in order, with its bytes
above the count 0, stops at its high watermark and goes at its low one; a word that does not fit is turned away as its
producer's row says; reads, marks, releases and the page budget move its pointers as Table 2 says; a read finds the error of its word. -/
def Obligations.FifosKeepWordsInOrder : Prop :=
  (∀ (f : Fin 128) w x s, FifoOpen f s.hub → x = fifo s.hub f → x.packer = [] →
    heldBack s.hub f = false ∨ endKind x.producer = 2 ∨ endKind x.producer = 3 →
    ∃ t, exec (.fifoWordWrite f w) s = .next t ∧ t.hub.answer = .accepted ∧ FifoOnly f s.hub t.hub
      ∧ FifoHolds f (x.words ++ [(storedWord w, x.wIdx)]) [] s.hub t.hub ∧ (fifo t.hub f).wIdx = (x.wIdx + 1) % 2 ^ 24
      ∧ rd t.hub (fifoKey f 0x0D) = min (rd s.hub (fifoKey f 0x0D) + 1) (2 ^ 32 - 1)
      ∧ (fifoEvent x = false → x.stop = false →
          (fifo t.hub f).stop = decide (fifoHigh (fifoCapacity s.hub f) x ≤ x.words.length + 1)))
  ∧ (∀ w, (storedWord w).count = (if 1 ≤ w.count ∧ w.count ≤ 6 then w.count else 6)
      ∧ (storedWord w).endMark = w.endMark ∧ (storedWord w).poison = w.poison
      ∧ (∀ b, (storedWord w).data.getLsbD b = (w.data.getLsbD b && decide (b < 8 * (storedWord w).count))))
  ∧ (∀ (f : Fin 128) w s, rd s.hub (fifoKey f 1) ≠ 0 → endKind (fifo s.hub f).producer ≠ 2 → endKind (fifo s.hub f).producer ≠ 3 →
    heldBack s.hub f = true → exec (.fifoWordWrite f w) s = .next { s with hub := answered (.status 0x0A) s.hub })
  ∧ (∀ (f : Fin 128) w wide v mark s, rd s.hub (fifoKey f 1) ≠ 0 →
    endKind (fifo s.hub f).producer = 2 ∨ endKind (fifo s.hub f).producer = 3 →
    fifoCapacity s.hub f ≤ (fifo s.hub f).words.length →
    ∃ t, exec (.fifoWordWrite f w) s = .next t ∧ exec (.fifoNarrowWrite f wide v mark) s = .next t ∧ t.hub.fifos = s.hub.fifos
      ∧ eventPending t.hub 0x43 = true ∧ rd t.hub (fifoKey f 0x0F) = min (rd s.hub (fifoKey f 0x0F) + 1) (2 ^ 32 - 1)
      ∧ KeptBut ((fifoKey f 0x0F, fifoKey f 0x0F) :: eventRanges) s.hub t.hub)
  ∧ (∀ (f : Fin 128) v x lo hi s, FifoOpen f s.hub → x = fifo s.hub f → lo = BitVec.ofNat 8 v → hi = BitVec.ofNat 8 (v / 256) →
    (x.packer.length < 5 → ∃ t, exec (.fifoNarrowWrite f false v false) s = .next t ∧ FifoOnly f s.hub t.hub
      ∧ FifoHolds f x.words (x.packer ++ [lo]) s.hub t.hub)
    ∧ (x.packer.length = 5 → ∃ t, exec (.fifoNarrowWrite f false v false) s = .next t ∧ FifoOnly f s.hub t.hub
      ∧ FifoHolds f (x.words ++ [({ data := BitVec.ofNat 48 (bytesNat (x.packer ++ [lo])), poison := false, endMark := false, count := 6 },
          x.wIdx)]) [] s.hub t.hub)
    ∧ (x.packer.length < 4 → ∃ t, exec (.fifoNarrowWrite f true v false) s = .next t ∧ FifoOnly f s.hub t.hub
      ∧ FifoHolds f x.words (x.packer ++ [lo, hi]) s.hub t.hub)
    ∧ (x.packer.length = 5 → ∃ t, exec (.fifoNarrowWrite f true v false) s = .next t ∧ FifoOnly f s.hub t.hub
      ∧ FifoHolds f (x.words ++ [({ data := BitVec.ofNat 48 (bytesNat (x.packer ++ [lo])), poison := false, endMark := false, count := 6 },
          x.wIdx)]) [hi] s.hub t.hub)
    ∧ (x.packer.length ≤ 5 → ∃ t, exec (.fifoNarrowWrite f false v true) s = .next t ∧ FifoOnly f s.hub t.hub
      ∧ FifoHolds f (x.words ++ [({
          data := BitVec.ofNat 48 (bytesNat (x.packer ++ [lo])), poison := false, endMark := true, count := x.packer.length + 1 },
          x.wIdx)]) [] s.hub t.hub)
    ∧ (x.packer.length = 4 → ∃ t, exec (.fifoNarrowWrite f true v false) s = .next t ∧ FifoOnly f s.hub t.hub
      ∧ FifoHolds f (x.words ++ [({ data := BitVec.ofNat 48 (bytesNat (x.packer ++ [lo, hi])), poison := false, endMark := false, count := 6 },
          x.wIdx)]) [] s.hub t.hub)
    ∧ (x.packer.length ≤ 4 → ∃ t, exec (.fifoNarrowWrite f true v true) s = .next t ∧ FifoOnly f s.hub t.hub
      ∧ FifoHolds f (x.words ++ [({
          data := BitVec.ofNat 48 (bytesNat (x.packer ++ [lo, hi])), poison := false, endMark := true, count := x.packer.length + 2 },
          x.wIdx)]) [] s.hub t.hub)
    ∧ (x.packer.length = 5 → ∃ t, exec (.fifoNarrowWrite f true v true) s = .next t ∧ FifoOnly f s.hub t.hub
      ∧ FifoHolds f (x.words ++ [({ data := BitVec.ofNat 48 (bytesNat (x.packer ++ [lo])), poison := false, endMark := false, count := 6 },
          x.wIdx), ({ data := BitVec.ofNat 48 (bytesNat [hi]), poison := false, endMark := true, count := 1 }, (x.wIdx + 1) % 2 ^ 24)])
          [] s.hub t.hub))
  ∧ (∀ (f : Fin 128) w x s, rd s.hub (fifoKey f 1) ≠ 0 → x = fifo s.hub f → x.dropping = false → s.hub.watch.armed = [] →
    wholePackets x = true → x.packer = [] → x.words.length + 1 = fifoCapacity s.hub f → heldBack s.hub f = false → fifoPackets x = 0 →
    x.read ≤ x.words.length → w.endMark = false →
    ∃ t, exec (.fifoWordWrite f w) s = .next t ∧ (fifo t.hub f).words = x.words.take x.read ∧ (fifo t.hub f).dropping = true
      ∧ rd t.hub 0x4700_06 = min (rd s.hub 0x4700_06 + (x.words.length + 1 - x.read)) (2 ^ 32 - 1) ∧ eventPending t.hub 0x44 = true)
  ∧ (∀ (f : Fin 128) s, fifoHead s.hub f = none → exec (.fifoRead f) s = .next { s with hub := answered (.status 9) s.hub })
  ∧ (∀ (f : Fin 128) w x s, fifoHead s.hub f = some w → x = fifo s.hub f → w.poison = false → x.errors = [] →
    ∃ t, exec (.fifoRead f) s = .next t ∧ t.hub.answer = .value w.data.toNat ∧ FifoOnly f s.hub t.hub
      ∧ rd t.hub (fifoKey f 0x0E) = min (rd s.hub (fifoKey f 0x0E) + 1) (2 ^ 32 - 1)
      ∧ (x.mark = true → fifo t.hub f = { x with read := x.read + 1, notified := false })
      ∧ (x.mark = false → (fifo t.hub f).words = x.words.drop (x.read + 1) ∧ (fifo t.hub f).read = 0
          ∧ (fifo t.hub f).packer = x.packer
          ∧ (fifoEvent x = false → x.stop = true → x.packer = [] →
            (fifo t.hub f).stop = decide (fifoLow (fifoCapacity s.hub f) x < x.words.length - (x.read + 1)))))
  ∧ (∀ (f : Fin 128) w x s, fifoHead s.hub f = some w → x = fifo s.hub f → w.poison = true → wholePackets x = false →
    x.errors = [] →
    ∃ t, exec (.fifoRead f) s = .next t ∧ t.hub.answer = .poisoned (natBytes 6 w.data.toNat)
      ∧ rd t.hub (fifoKey f 0x10) = min (rd s.hub (fifoKey f 0x10) + 1) (2 ^ 32 - 1))
  ∧ (∀ (f : Fin 128) w i rest x s, x = fifo s.hub f → wholePackets x = false → x.words.drop x.read = (w, i) :: rest →
    w.poison = false →
    (x.errors = [(i, 1)] → ∃ t, exec (.fifoRead f) s = .next t ∧ t.hub.answer = .value w.data.toNat
      ∧ rd t.hub 0x4700_03 = min (rd s.hub 0x4700_03 + 1) (2 ^ 32 - 1))
    ∧ (x.errors = [(i, 2)] → ∃ t, exec (.fifoRead f) s = .next t ∧ t.hub.answer = .poisoned (natBytes 6 w.data.toNat)
      ∧ rd t.hub 0x4700_04 = min (rd s.hub 0x4700_04 + 1) (2 ^ 32 - 1) ∧ recordHeld t.hub 0x12 = true))
  ∧ (∀ (f : Fin 128) s, (fifoHead s.hub f).isSome = true → (fifo s.hub f).mark = false → rd s.hub (fifoKey f 1) = 1 →
    streamPeer (fifo s.hub f) ≠ 0 → 0 < fifoCapacity s.hub f →
    ∃ t, exec (.fifoRead f) s = .next t ∧ 4 * idxAhead (fifoL t.hub f) (fifo t.hub f).sentLimit < fifoCapacity s.hub f)
  ∧ (∀ p (f : Fin 128) x s, WriteOpen p (0x3200 + f) 8 1 s.hub → softwareConsumer s.hub f = true → x = fifo s.hub f →
    ∃ t, exec (.mark p f) s = .next t ∧ t.hub.answer = .accepted ∧ t.hub.fifos = tabSet s.hub.fifos f { x with mark := true }
      ∧ KeptBut pathRanges s.hub t.hub)
  ∧ (∀ p (f : Fin 128) x s, WriteOpen p (0x3200 + f) 8 2 s.hub → softwareConsumer s.hub f = true → x = fifo s.hub f →
    (x.mark = true → ∃ t, exec (.rewind p f) s = .next t ∧ t.hub.answer = .accepted
      ∧ t.hub.fifos = tabSet s.hub.fifos f { x with read := 0 } ∧ KeptBut pathRanges s.hub t.hub)
    ∧ (x.mark = false → ∃ t, exec (.rewind p f) s = .next t ∧ t.hub.answer = .refused 4 ∧ t.hub.fifos = s.hub.fifos
      ∧ KeptBut pathRanges s.hub t.hub))
  ∧ (∀ p (f : Fin 128) n x s, WriteOpen p (0x3200 + f) 8 (3 + 256 * n) s.hub → softwareConsumer s.hub f = true → x = fifo s.hub f →
    n < 65536 → x.read ≤ x.words.length →
    (0 < n → n ≤ x.read → ∃ t, exec (.release p f n) s = .next t ∧ t.hub.answer = .accepted
      ∧ (fifo t.hub f).words = x.words.drop n ∧ (fifo t.hub f).read = x.read - n ∧ (fifo t.hub f).mark = x.mark
      ∧ (∀ g, g ≠ f.val → fifo t.hub g = fifo s.hub g)
      ∧ KeptBut ((fifoKey f 0x0C, fifoKey f 0x11) :: (0x4700_01, 0x4700_01) :: (0x4700_07, 0x4700_07) :: pathRanges) s.hub t.hub)
    ∧ (n = 0 → ∃ t, exec (.release p f n) s = .next t ∧ t.hub.answer = .accepted
      ∧ (fifo t.hub f).words = x.words.drop x.read ∧ (fifo t.hub f).read = 0 ∧ (fifo t.hub f).mark = false
      ∧ (∀ g, g ≠ f.val → fifo t.hub g = fifo s.hub g)
      ∧ KeptBut ((fifoKey f 0x0C, fifoKey f 0x11) :: (0x4700_01, 0x4700_01) :: (0x4700_07, 0x4700_07) :: pathRanges) s.hub t.hub)
    ∧ (x.read < n → ∃ t, exec (.release p f n) s = .next t ∧ t.hub.answer = .refused 4 ∧ t.hub.fifos = s.hub.fifos
      ∧ KeptBut pathRanges s.hub t.hub))
  ∧ (∀ p (f : Fin 128) v x s, WriteOpen p (0x3200 + f) 3 v s.hub → 1 ≤ v → v ≤ 64 → rd s.hub (fifoKey f 1) ≠ 0 → x = fifo s.hub f →
    (v ≤ x.pages + rd s.hub 0x4700_01 → wholePackets x = false ∨ fifoPackets x ≠ 0 ∨ fifoFill x < 256 * v →
      ∃ t, exec (.pageBudgetWrite p f v) s = .next t ∧ t.hub.answer = .accepted
      ∧ rd t.hub (fifoKey f 3) = v ∧ (fifo t.hub f).words = x.words ∧ (fifo t.hub f).read = x.read
      ∧ (x.pages ≤ v → (fifo t.hub f).pages = v ∧ rd t.hub 0x4700_01 = rd s.hub 0x4700_01 + x.pages - v)
      ∧ (∀ g, g ≠ f.val → fifo t.hub g = fifo s.hub g)
      ∧ KeptBut ((fifoKey f 3, fifoKey f 0x11) :: (0x4700_01, 0x4700_01) :: (0x4700_07, 0x4700_07) :: pathRanges) s.hub t.hub)
    ∧ (x.pages + rd s.hub 0x4700_01 < v → ∃ t, exec (.pageBudgetWrite p f v) s = .next t ∧ t.hub.answer = .refused 0x0A
      ∧ t.hub.fifos = s.hub.fifos ∧ KeptBut pathRanges s.hub t.hub))
  ∧ (∀ (f : Fin 128) x s, x = fifo s.hub f →
    (x.stop = true → x.reported = false → fifoEvent x = false → bits x.settings 31 24 ≠ 0 →
      x.stopAt + bits x.settings 31 24 * 10000000 ≤ stampNs s.hub 0 →
      ∃ t, exec (.stopTimeout f) s = .next t ∧ eventPending t.hub 0x42 = true
        ∧ t.hub.fifos = tabSet s.hub.fifos f { x with reported := true }
        ∧ rd t.hub 0x4700_07 = min (rd s.hub 0x4700_07 + 1) (2 ^ 32 - 1)
        ∧ KeptBut ((0x4700_07, 0x4700_07) :: eventRanges) s.hub t.hub)
    ∧ (x.stop = false ∨ x.reported = true ∨ fifoEvent x = true ∨ bits x.settings 31 24 = 0
        ∨ stampNs s.hub 0 < x.stopAt + bits x.settings 31 24 * 10000000 →
      exec (.stopTimeout f) s = .next s))
  ∧ (∀ (f : Fin 128) x at0 s, x = fifo s.hub f → fifoEvent x = true → x.lastCommit = some at0 →
    at0 + bits x.settings 47 32 * 1000 ≤ stampNs s.hub 0 →
    (rd s.hub (fifoKey f 1) = 2 → x.read < x.words.length →
      ∃ t, exec (.idleTimeout f) s = .next t ∧ fifo t.hub f = { x with due := true, lastCommit := none }
        ∧ (∀ g, g ≠ f.val → fifo t.hub g = fifo s.hub g)
        ∧ rd t.hub 0x4700_08 = min (rd s.hub 0x4700_08 + 1) (2 ^ 32 - 1) ∧ KeptBut [(0x4700_08, 0x4700_08)] s.hub t.hub)
    ∧ (rd s.hub (fifoKey f 1) = 1 → x.read < x.words.length → endKind x.consumer = 0 → x.notified = false →
      ∃ t, exec (.idleTimeout f) s = .next t ∧ eventPending t.hub 0x40 = true
        ∧ fifo t.hub f = { x with notified := true, due := true, lastCommit := none })
    ∧ (rd s.hub (fifoKey f 1) ≠ 0 → x.words.length ≤ x.read →
      ∃ t, exec (.idleTimeout f) s = .next t ∧ t.hub.fifos = tabSet s.hub.fifos f { x with lastCommit := none }
        ∧ rd t.hub 0x4700_08 = min (rd s.hub 0x4700_08 + 1) (2 ^ 32 - 1) ∧ KeptBut [(0x4700_08, 0x4700_08)] s.hub t.hub))
  ∧ (∀ (f : Fin 128) x s, x = fifo s.hub f → fifoEvent x = false ∨ rd s.hub (fifoKey f 1) = 0 ∨ x.lastCommit = none
      ∨ (∃ at0, x.lastCommit = some at0 ∧ stampNs s.hub 0 < at0 + bits x.settings 47 32 * 1000) →
      exec (.idleTimeout f) s = .next s)

/-- R296, R459 to R463: a sending FIFO sends the words ready within credit as one DATA frame to the other hub, keeping its mark; the receiving
hub stores the new words of a frame, in order, and answers with a CREDIT, counts the frame as traffic of the STREAM, and counts repeats, gaps and
malformed frames without storing; a CREDIT releases the sender and raises its limit; an overdue one makes it send again from E. -/
def Obligations.StreamsDeliverEachWordOnce : Prop :=
  (∀ (f : Fin 128) x ws first s, x = fifo s.hub f → ws = sendable x → rd s.hub (fifoKey f 1) = 2 → ws.head?.map (·.2) = some first →
    ws.length = 226 ∨ x.due = true → s.hub.sleep.holding = false ∨ streamClass x = .ur → (∀ w ∈ ws, w.1.poison = false) →
    x.errors = [] → hubNumber s.hub ≠ 0 →
    ∃ t g, exec (.streamDataSend f) s = .next t
      ∧ portFrames t.hub (fifoPort x.producer) = portFrames s.hub (fifoPort x.producer) ++ [g] ∧ g.dst = streamPeer x
      ∧ g.ftype = 1 ∧ g.cls = streamClass x
      ∧ g.payload = BitVec.ofNat 48 (first * 2 ^ 24 + rd s.hub (fifoKey f 2)) :: streamGroups 32 (ws.map (·.1))
      ∧ fifo t.hub f = { x with
          read := x.read + ws.length, next := (first + ws.length) % 2 ^ 24, mark := true,
          due := x.due && decide (x.read + ws.length < x.words.length) }
      ∧ { t.hub with fifos := s.hub.fifos, portQ := s.hub.portQ, seqs := s.hub.seqs, dict := s.hub.dict } = s.hub
      ∧ KeptBut [(fifoKey f 0x0E, fifoKey f 0x0E), (0x4700_05, 0x4700_05)] s.hub t.hub)
  ∧ (∀ (f : Fin 128) s, sendable (fifo s.hub f) = [] ∨ rd s.hub (fifoKey f 1) ≠ 2
      ∨ ((sendable (fifo s.hub f)).length < 226 ∧ (fifo s.hub f).due = false)
      ∨ (s.hub.sleep.holding = true ∧ streamClass (fifo s.hub f) = .bk) → exec (.streamDataSend f) s = .next s)
  ∧ (∀ w, streamGroup [w] = [BitVec.ofNat 48 (streamNibble w), if w.poison then 0 else w.data])
  ∧ (∀ src handle first words f x n s, src ≠ 0 → findFifo s.hub 1 handle = some f → f < 128 → x = fifo s.hub f → n = words.length →
    1 ≤ n → n ≤ 226 → words.all streamWordOk = true → hubNumber s.hub ≠ 0 →
    (∀ behind, behind = idxAhead x.e first → behind < n → FifoOpen f s.hub → x.packer = [] →
      x.words.length + 2 + n < fifoCapacity s.hub f →
      ∃ t, exec (.streamData src handle first words) s = .next t
        ∧ (fifo t.hub f).words = x.words ++ ((words.drop behind).zipIdx.filterMap fun p =>
            if p.1.count = 0 then none
            else some (storedWord { data := p.1.data, poison := p.1.poison, endMark := p.1.endMark, count := p.1.count },
              (x.e + p.2) % 2 ^ 24))
        ∧ (fifo t.hub f).e = (x.e + (n - behind)) % 2 ^ 24
        ∧ (∃ c ∈ portFrames t.hub (fifoPort x.consumer), c.dst = streamPeer x ∧ c.ftype = 1
          ∧ c.payload = [BitVec.ofNat 48 (fifoL t.hub f * 2 ^ 24 + handle), BitVec.ofNat 48 ((fifo t.hub f).e * 2 ^ 24)]))
    ∧ (n ≤ idxAhead x.e first → idxAhead x.e first ≤ 2 ^ 23 →
      ∃ g, g = countTraffic handle src (clsNum (streamClass x)) (streamFrameWords n) s.hub
        ∧ exec (.streamData src handle first words) s = .next { s with hub := bump g 0x4700_0B })
    ∧ (n ≤ idxAhead x.e first → 2 ^ 23 < idxAhead x.e first →
      ∃ t c, exec (.streamData src handle first words) s = .next t ∧ (fifo t.hub f).words = x.words ∧ (fifo t.hub f).e = x.e
        ∧ rd t.hub 0x4700_0B = min (rd s.hub 0x4700_0B + 1) (2 ^ 32 - 1)
        ∧ portFrames t.hub (fifoPort x.consumer) = portFrames s.hub (fifoPort x.consumer) ++ [c] ∧ c.dst = streamPeer x))
  ∧ (∀ src handle first words f s, src ≠ 0 → findFifo s.hub 1 handle = some f → words.all streamWordOk = false ∨ 226 < words.length →
    ∃ g, g = countTraffic handle src (clsNum (streamClass (fifo s.hub f))) (streamFrameWords words.length) s.hub
      ∧ exec (.streamData src handle first words) s = .next { s with hub := bump g 0x4700_09 })
  ∧ (∀ handle hub cls n h, (rd h 0x2310_02 ≠ 0 → countTraffic handle hub cls n h = h)
      ∧ (∀ c, rd h 0x2310_02 = 0 → tabGet [] h.forester.counts handle = [(hub, c)] →
        tabGet [] (countTraffic handle hub cls n h).forester.counts handle
          = [(hub, c.zipIdx.map fun p => if p.2 = cls then p.1 + n else p.1)])
      ∧ { countTraffic handle hub cls n h with forester := h.forester } = h)
  ∧ (∀ handle limit expected f x s, findFifo s.hub 2 handle = some f → f < 128 → x = fifo s.hub f →
    ∃ t done, exec (.streamCredit handle limit expected) s = .next t
      ∧ done = (x.words.takeWhile fun w => idxBefore w.2 expected).length
      ∧ (fifo t.hub f).words = x.words.drop done ∧ (fifo t.hub f).read = x.read - done
      ∧ (fifo t.hub f).e = (if idxBefore x.e expected then expected % 2 ^ 24 else x.e)
      ∧ (fifo t.hub f).limit = (if idxBefore x.limit limit then limit % 2 ^ 24 else x.limit)
      ∧ (∀ g, g ≠ f → fifo t.hub g = fifo s.hub g))
  ∧ (∀ (f : Fin 128) x s, x = fifo s.hub f →
    (rd s.hub (fifoKey f 1) = 1 → streamPeer x ≠ 0 → hubNumber s.hub ≠ 0 →
      ∃ t c, exec (.creditPeriodic f) s = .next t
        ∧ portFrames t.hub (fifoPort x.consumer) = portFrames s.hub (fifoPort x.consumer) ++ [c] ∧ c.dst = streamPeer x ∧ c.ftype = 1
        ∧ c.payload = [BitVec.ofNat 48 (fifoL s.hub f * 2 ^ 24 + rd s.hub (fifoKey f 2)), BitVec.ofNat 48 (x.e * 2 ^ 24)]
        ∧ { t.hub with portQ := s.hub.portQ, seqs := s.hub.seqs, fifos := s.hub.fifos } = s.hub)
    ∧ (rd s.hub (fifoKey f 1) ≠ 1 ∨ streamPeer x = 0 → exec (.creditPeriodic f) s = .next s))
  ∧ (∀ (f : Fin 128) x w i rest s, x = fifo s.hub f → rd s.hub (fifoKey f 1) = 2 → 0 < x.read → x.words = (w, i) :: rest →
    idxBefore i x.limit = true → i < 2 ^ 24 → x.errors = [] → hubNumber s.hub ≠ 0 → s.hub.sleep.holding = false ∨ streamClass x = .ur → rd s.hub (fifoKey f 2) < 2 ^ 24 →
    ∃ t, ∃ c ∈ portFrames t.hub (fifoPort x.producer), exec (.streamResendTimeout f) s = .next t
      ∧ eventPending t.hub 0x46 = true ∧ rd t.hub 0x4700_0A = min (rd s.hub 0x4700_0A + 1) (2 ^ 32 - 1)
      ∧ c.ftype = 1 ∧ c.dst = streamPeer x ∧ (c.payload.headD 0).toNat / 2 ^ 24 = i
      ∧ (fifo t.hub f).words = x.words ∧ (fifo t.hub f).mark = true)
  ∧ (∀ (f : Fin 128) s, rd s.hub (fifoKey f 1) ≠ 2 ∨ (fifo s.hub f).read = 0 → exec (.streamResendTimeout f) s = .next s)

/-! ### CAN buses -/

/-- R479, R480, R485 to R488, R490, R494, R495, R499, R504: a controller that takes part counts a valid frame and gives it to the SDO server, to
the target of the first filter it passes, as buffer content or a STREAM packet, or discards it counted; an error and a protocol
exception are recorded; a read of an info word latches the frame for the path; a stuck bus is counted. -/
def Obligations.CanFramesAreRouted : Prop :=
  (∀ h c k f, passes h c k f = true ↔
    bit (rd h (slotKey (0x3440 + c) (2 * k + 1))) 47 = true ∧ f.ide = bit (rd h (slotKey (0x3440 + c) (2 * k + 1))) 29
    ∧ (bits (rd h (slotKey (0x3440 + c) (2 * k + 1))) 31 30 = 2 ∨ bits (rd h (slotKey (0x3440 + c) (2 * k + 1))) 31 30 = b2n f.rtr)
    ∧ (bits (rd h (slotKey (0x3440 + c) (2 * k + 1))) 33 32 = 0
      ∨ bits (rd h (slotKey (0x3440 + c) (2 * k + 1))) 33 32 = 1 ∧ f.fdf = false
      ∨ bits (rd h (slotKey (0x3440 + c) (2 * k + 1))) 33 32 = 2 ∧ f.fdf = true)
    ∧ (f.id &&& bits (rd h (slotKey (0x3440 + c) (2 * k + 1) + 1)) 28 0)
      = (bits (rd h (slotKey (0x3440 + c) (2 * k + 1))) 28 0 &&& bits (rd h (slotKey (0x3440 + c) (2 * k + 1) + 1)) 28 0))
  ∧ (∀ (c : Fin 16) f err s, canTakesPart s.hub c = false → exec (.canFrameReceive c f err) s = .next s)
  ∧ (∀ (c : Fin 16) f s, canTakesPart s.hub c = true → f.fdf = false ∨ fdEnabled s.hub c = true → rd s.hub (canStat c 3) ≤ 127 →
    rd s.hub (canStat c 2) ≤ 255 →
    (isCanopen s.hub c = false → (∀ k, k < 32 → passes s.hub c k f = false) →
      ∃ t, exec (.canFrameReceive c f .none) s = .next t
        ∧ rd t.hub (canStat c 4) = min (rd s.hub (canStat c 4) + 1) (2 ^ 32 - 1)
        ∧ rd t.hub (canStat c 6) = min (rd s.hub (canStat c 6) + 1) (2 ^ 32 - 1) ∧ t.hub.fifos = s.hub.fifos
        ∧ (canCounts s.hub c = true → rd s.hub (canStat c 1) = 2 → rd s.hub (canStat c 2) ≤ 127 →
          rd t.hub (canStat c 3) = rd s.hub (canStat c 3) - 1 ∧ rd t.hub (canStat c 2) = rd s.hub (canStat c 2))
        ∧ KeptBut ((canStat c 1, canStat c 6) :: (0x4D03_01, 0x4D03_FF) :: eventRanges) s.hub t.hub)
    ∧ (∀ k b, k < 32 → passes s.hub c k f = true → (∀ j, j < k → passes s.hub c j f = false) → isCanopen s.hub c = false →
      b = bits (rd s.hub (slotKey (0x3440 + c) (2 * k + 1) + 1)) 39 32 →
      (b < 64 → bufDir s.hub c b = 1 → ∃ t, exec (.canFrameReceive c f .none) s = .next t
        ∧ rd t.hub (bufKey c b 2) = f.id % 2 ^ 48 ∧ rd t.hub (bufKey c b 15) = f.sof % 2 ^ 48
        ∧ bits (rd t.hub (bufKey c b 14)) 7 0 = (bits (rd s.hub (bufKey c b 14)) 7 0 + 1) % 256
        ∧ bits (rd t.hub (bufKey c b 14)) 11 8 = f.dlc % 16
        ∧ (∀ j, j < 11 → rdW t.hub (bufKey c b (3 + j)) = (bytesWords 11 (f.data.take 64)).getD j 0)
        ∧ rd t.hub (canStat c 6) = rd s.hub (canStat c 6)
        ∧ KeptBut ((bufKey c b 2, bufKey c b 15) :: (canStat c 1, canStat c 4) :: (0x4D03_01, 0x4D03_FF) :: eventRanges) s.hub t.hub)
      ∧ (b < 64 → bufDir s.hub c b ≠ 1 → ∃ t, exec (.canFrameReceive c f .none) s = .next t
        ∧ rd t.hub (canStat c 6) = min (rd s.hub (canStat c 6) + 1) (2 ^ 32 - 1))
      ∧ (∀ q x, b = 0x40 → fifoFrom s.hub 2 c = some q → x = fifo s.hub q → FifoOpen q s.hub → x.packer = [] →
        x.words.length + 4 + (f.data.length + 5) / 6 < fifoCapacity s.hub q →
        crossingShut s.hub 0x10 0 = false → (crossing s.hub 0x10 0).entries = [] →
        ∃ t pkt, exec (.canFrameReceive c f .none) s = .next t
          ∧ (fifo t.hub q).words.map (·.1) = x.words.map (·.1) ++ pkt ∧ pkt.length = 2 + (f.data.length + 5) / 6
          ∧ (pkt.map (·.data)).take 2 = [BitVec.ofNat 48 (streamHeader k f), BitVec.ofNat 48 f.sof]
          ∧ packetBytes pkt = f.data ∧ (pkt.map (·.endMark)) = List.replicate (1 + (f.data.length + 5) / 6) false ++ [true])))
  ∧ (∀ (c : Fin 16) f s, canTakesPart s.hub c = true → isCanopen s.hub c = true → rd s.hub (canStat c 3) ≤ 127 →
    f.fdf = false → f.ide = false → f.rtr = false →
    (∀ cob, sdoCob s.hub 0 = some (f.id, cob) → f.data.length = 8 → bits ((f.data.headD 0).toNat) 7 5 ≠ 7 →
      ∃ t, exec (.canFrameReceive c f .none) s = .next t ∧ t.hub.canopen.received = s.hub.canopen.received ++ [(0, f.data)])
    ∧ (f.id = 0 → (∀ n, n < 4 → ∀ cob, sdoCob s.hub n ≠ some (0, cob)) → ∃ t, exec (.canFrameReceive c f .none) s = .next t
      ∧ rd t.hub 0x4800_02 = min (rd s.hub 0x4800_02 + 1) (2 ^ 32 - 1) ∧ t.hub.canopen = s.hub.canopen))
  ∧ (∀ (c : Fin 16) f err s, canTakesPart s.hub c = true → err ≠ .none → err ≠ .protocolException →
    rd s.hub (canStat c 3) ≤ 118 → rd s.hub (canStat c 2) ≤ 127 →
    ∃ t, exec (.canFrameReceive c f err) s = .next t ∧ rd t.hub (canStat c 7) = errorCode err
      ∧ rd t.hub (canStat c 8) = min (rd s.hub (canStat c 8) + 1) (2 ^ 32 - 1)
      ∧ (canCounts s.hub c = true → rd s.hub (canStat c 1) = 2 →
        rd t.hub (canStat c 3) = rd s.hub (canStat c 3) + 1 ∨ rd t.hub (canStat c 3) = rd s.hub (canStat c 3) + 9)
      ∧ (canCounts s.hub c = false → rd t.hub (canStat c 3) = rd s.hub (canStat c 3)
        ∧ rd t.hub (canStat c 2) = rd s.hub (canStat c 2))
      ∧ KeptBut ((canStat c 1, canStat c 3) :: (canStat c 7, canStat c 8) :: eventRanges) s.hub t.hub)
  ∧ (∀ (c : Fin 16) f s, canTakesPart s.hub c = true → fdEnabled s.hub c = false → bit (rd s.hub (canCfg c 2)) 2 = true →
    (can s.hub c).onBus = none →
    ∃ t, exec (.canFrameReceive c f .protocolException) s = .next t ∧ rd t.hub (canStat c 1) = 1
      ∧ rd t.hub (canStat c 0x0D) = min (rd s.hub (canStat c 0x0D) + 1) (2 ^ 32 - 1)
      ∧ KeptBut ((canStat c 1, canStat c 1) :: (canStat c 0x0D, canStat c 0x0D) :: eventRanges) s.hub t.hub)
  ∧ (∀ p (c : Fin 16) (b : Fin 64) s h, served s.hub p = true → pathWaits s.hub p = false →
    refusalCode (readCauses s.hub (bufKey c b 14 / 256) (bufKey c b 14 % 256)) = none →
    h = readTouch p (bufKey c b 14 / 256) (bufKey c b 14 % 256) s.hub →
    ∃ t, exec (.bufferInfoRead p c b) s = .next t ∧ t.hub.answer = .value (bufInfo s.hub c b) ∧ t.hub.dict = h.dict
      ∧ (∀ j, 2 ≤ j → j ≤ 15 → j ≠ 14 → bufRead p c b j t.hub = bufWord s.hub c (bufKey c b j))
      ∧ (∀ c' b', bufKey c' b' 0 ≠ bufKey c b 0 → tabFind (pathState t.hub p).canLatch (bufKey c' b' 0)
          = tabFind (pathState s.hub p).canLatch (bufKey c' b' 0))
      ∧ (∀ q, q ≠ p → (pathState t.hub q).canLatch = (pathState h q).canLatch))
  ∧ (∀ (c : Fin 16) s,
    (canState s.hub c ≠ 0 → ∃ t, exec (.stuckDominant c) s = .next t
      ∧ rd t.hub (canStat c 0x10) = min (rd s.hub (canStat c 0x10) + 1) (2 ^ 32 - 1) ∧ evented s.hub t.hub = t.hub
      ∧ KeptBut ((canStat c 0x10, canStat c 0x10) :: eventRanges) s.hub t.hub)
    ∧ (canState s.hub c = 0 → exec (.stuckDominant c) s = .next s))

/-- R477, R481, R483, R484, R489 to R493, R499: requests and aborts of transmit buffers; before a SOF the candidate that would win
arbitration is chosen; a frame sent ends its request and is stamped, one that lost arbitration or ended by an error stays
pending; TEC + 8, bus-off with its return limit, recovery, integration after a settings write, which ends a frame under way. -/
def Obligations.CanTransmitsUntilSent : Prop :=
  (∀ p (c : Fin 16) b x s, WriteOpen p (0x2810 + c) 9 b s.hub → b < 64 → x = can s.hub c → bufDir s.hub c b = 2 →
    (x.onBus ≠ some (.buffer b) → b ∉ x.pending → ∃ t, exec (.transmitRequest p c b) s = .next t ∧ t.hub.answer = .accepted
      ∧ t.hub.can = tabSet s.hub.can c { x with pending := x.pending ++ [b] } ∧ KeptBut pathRanges s.hub t.hub)
    ∧ (x.onBus ≠ some (.buffer b) → b ∈ x.pending → ∃ t, exec (.transmitRequest p c b) s = .next t ∧ can t.hub c = x
      ∧ rd t.hub (canStat c 0x0B) = min (rd s.hub (canStat c 0x0B) + 1) (2 ^ 32 - 1))
    ∧ (x.onBus = some (.buffer b) → ∃ t, exec (.transmitRequest p c b) s = .next t
      ∧ can t.hub c = { x with staged := some (x.staged.getD []) } ∧ KeptBut pathRanges s.hub t.hub))
  ∧ (∀ p (c : Fin 16) b x s, WriteOpen p (0x2810 + c) 10 b s.hub → b < 64 → x = can s.hub c →
    ∃ t, exec (.transmitAbort p c b) s = .next t ∧ t.hub.answer = .accepted ∧ KeptBut pathRanges s.hub t.hub
      ∧ can t.hub c = (if x.onBus = some (.buffer b) then { x with aborted := true }
          else { x with pending := x.pending.filter (· != b) }))
  ∧ (∀ (c : Fin 16) src fr x s, canSends s.hub c = true → x = can s.hub c → x.onBus = none →
    winner (canCandidates s.hub c) = some (src, fr) →
    (fifoTo s.hub 2 c = none → src ≠ .stream →
      exec (.canTransmitAttempt c) s = .next { s with hub := setCan s.hub c {
        x with onBus := some src, frame := fr, sof := busNs s.hub % 2 ^ 48, aborted := false } })
    ∧ (∀ q ws, src = .stream → fifoTo s.hub 2 c = some q → headPacket s.hub q = some ws → (ws.all fun w => !w.poison) = true →
      (fifo s.hub q).errors = [] →
      ∃ t, exec (.canTransmitAttempt c) s = .next t ∧ (can t.hub c).onBus = some .stream ∧ (can t.hub c).frame = fr
        ∧ (fifo t.hub q).mark = true ∧ (fifo t.hub q).read = (fifo s.hub q).read + ws.length
        ∧ (fifo t.hub q).words = (fifo s.hub q).words))
  ∧ (∀ (c : Fin 16) q ws s, canSends s.hub c = true → (can s.hub c).onBus = none → canMode s.hub c = 1 → fifoTo s.hub 2 c = some q →
    headPacket s.hub q = some ws → fifoPackets (fifo s.hub q) = 1 → (ws.all fun w => !w.poison) = true → packetFrame s.hub c ws = none →
    (fifo s.hub q).errors = [] →
    ∃ t, exec (.canTransmitAttempt c) s = .next t ∧ rd t.hub (canStat c 0x0F) = min (rd s.hub (canStat c 0x0F) + 1) (2 ^ 32 - 1)
      ∧ (fifo t.hub q).words = (fifo s.hub q).words.drop ((fifo s.hub q).read + ws.length))
  ∧ (∀ xs src fr, winner xs = some (src, fr) → (src, fr) ∈ xs ∧ ∀ y ∈ xs, arbKey fr ≤ arbKey y.2)
  ∧ (∀ (c : Fin 16) s, canSends s.hub c = false ∨ (can s.hub c).onBus.isSome = true → exec (.canTransmitAttempt c) s = .next s)
  ∧ (∀ (c : Fin 16) x b info s, x = can s.hub c → x.onBus = some (.buffer b) → x.staged = none → b < 64 →
    bit (rd s.hub (canCfg c 5)) 0 = false → info = rd s.hub (bufKey c b 14) → x.sof < 2 ^ 48 → ∀ delay,
    (∃ t, exec (.canTransmitEnd c .ok delay) s = .next t ∧ (can t.hub c).onBus = none
      ∧ (can t.hub c).pending = x.pending.filter (· != b)
      ∧ rd t.hub (canStat c 5) = min (rd s.hub (canStat c 5) + 1) (2 ^ 32 - 1) ∧ rd t.hub (bufKey c b 15) = x.sof
      ∧ bits (rd t.hub (bufKey c b 14)) 7 0 = (bits info 7 0 + 1) % 256
      ∧ (canCounts s.hub c = true → rd s.hub (canStat c 1) = 2 → rd s.hub (canStat c 2) ≤ 127 → rd s.hub (canStat c 3) ≤ 127 →
        rd t.hub (canStat c 2) = rd s.hub (canStat c 2) - 1))
    ∧ (∃ t, exec (.canTransmitEnd c .lostArbitration delay) s = .next t ∧ (can t.hub c).onBus = none
      ∧ (can t.hub c).pending = (if x.aborted then x.pending.filter (· != b) else x.pending)
      ∧ rd t.hub (canStat c 0x0C) = min (rd s.hub (canStat c 0x0C) + 1) (2 ^ 32 - 1)
      ∧ KeptBut [(canStat c 0x0C, canStat c 0x0C)] s.hub t.hub)
    ∧ (∀ code, code < 3 ∨ 3 < code ∧ code < 7 → canCounts s.hub c = true → rd s.hub (canStat c 1) = 2 →
      rd s.hub (canStat c 2) + 8 ≤ 127 → rd s.hub (canStat c 3) ≤ 127 →
      ∃ t, exec (.canTransmitEnd c (.error code) delay) s = .next t ∧ (can t.hub c).onBus = none
        ∧ (can t.hub c).pending = (if x.aborted then x.pending.filter (· != b) else x.pending)
        ∧ rd t.hub (canStat c 2) = rd s.hub (canStat c 2) + 8 ∧ rd t.hub (canStat c 7) = code ∧ rd t.hub (canStat c 1) = 2
        ∧ rd t.hub (canStat c 8) = min (rd s.hub (canStat c 8) + 1) (2 ^ 32 - 1))
    ∧ (∀ code, code < 3 ∨ 3 < code ∧ code < 7 → canCounts s.hub c = true → rd s.hub (canStat c 1) = 3 →
      247 < rd s.hub (canStat c 2) → rd s.hub (canStat c 2) ≤ 255 →
      ∃ t, exec (.canTransmitEnd c (.error code) delay) s = .next t
        ∧ rd t.hub (canStat c 9) = min (rd s.hub (canStat c 9) + 1) (2 ^ 32 - 1)
        ∧ (can t.hub c).entries = x.entries ++ [busNs s.hub]
        ∧ (rd s.hub (canCfg c 6) = 255 → rd t.hub (canStat c 1) = 4)
        ∧ (rd s.hub (canCfg c 6) = 0 → 0 < rd s.hub (canCfg c 7) → rd t.hub (canStat c 1) = 5)))
  ∧ (∀ (c : Fin 16) result delay s, (can s.hub c).onBus = none → exec (.canTransmitEnd c result delay) s = .next s)
  ∧ (∀ (c : Fin 16) s,
    (rd s.hub (canStat c 1) = 4 → ∃ t, exec (.busOffRecoveryDone c) s = .next t ∧ rd t.hub (canStat c 1) = 2
      ∧ rd t.hub (canStat c 2) = 0 ∧ rd t.hub (canStat c 3) = 0 ∧ t.hub.can = s.hub.can
      ∧ KeptBut ((canStat c 1, canStat c 3) :: eventRanges) s.hub t.hub)
    ∧ (rd s.hub (canStat c 1) ≠ 4 → exec (.busOffRecoveryDone c) s = .next s)
    ∧ (canState s.hub c = 1 → exec (.busIntegrationDone c) s = .next {
        s with hub := wr s.hub (canStat c 1) (if 127 < rd s.hub (canStat c 2) ∨ 127 < rd s.hub (canStat c 3) then 3 else 2) })
    ∧ (canState s.hub c ≠ 1 → exec (.busIntegrationDone c) s = .next s))
  ∧ (∀ p (c : Fin 16) sub v s, WriteOpen p (0x2810 + c) sub v s.hub → 1 ≤ sub → sub ≤ 8 → v < 2 ^ 48 →
    entryBad (0x2810 + c) sub v = false → (can s.hub c).onBus = none →
    (timingBad s.hub c sub v = false → ∃ t, exec (.canSettingsWrite p c sub v) s = .next t ∧ t.hub.answer = .accepted
      ∧ rd t.hub (canCfg c sub) = keptBits (0x2810 + c) sub v
      ∧ (rd s.hub (canStat c 1) ≠ 4 → rd s.hub (canStat c 1) ≠ 5 → rd t.hub (canStat c 1) = 1)
      ∧ can t.hub c = can s.hub c
      ∧ KeptBut ((canCfg c sub, canCfg c sub) :: (canStat c 1, canStat c 1) :: pathRanges) s.hub t.hub)
    ∧ (timingBad s.hub c sub v = true → ∃ t, exec (.canSettingsWrite p c sub v) s = .next t ∧ t.hub.answer = .refused 4
      ∧ KeptBut pathRanges s.hub t.hub))
  ∧ (∀ p (c : Fin 16) sub v s, WriteOpen p (0x2810 + c) sub v s.hub → 1 ≤ sub → sub ≤ 8 → v < 2 ^ 48 →
    entryBad (0x2810 + c) sub v = false → timingBad s.hub c sub v = false → (can s.hub c).onBus.isSome = true →
    ∃ t, exec (.canSettingsWrite p c sub v) s = .next t ∧ t.hub.answer = .accepted ∧ (can t.hub c).onBus = none
      ∧ rd t.hub (canCfg c sub) = keptBits (0x2810 + c) sub v
      ∧ rd t.hub (canStat c 8) = min (rd s.hub (canStat c 8) + 1) (2 ^ 32 - 1))
  ∧ (∀ p (c : Fin 16) x s, x = can s.hub c →
    (WriteOpen p (0x2810 + c) 11 1 s.hub → canState s.hub c = 5 → ∃ t, exec (.busOffRestart p c) s = .next t
      ∧ t.hub.answer = .accepted ∧ can t.hub c = { x with entries := [] } ∧ rd t.hub (canStat c 1) = 4
      ∧ KeptBut ((canStat c 1, canStat c 1) :: pathRanges) s.hub t.hub)
    ∧ (WriteOpen p (0x2810 + c) 11 1 s.hub → canState s.hub c ≠ 5 → ∃ t, exec (.busOffRestart p c) s = .next t
      ∧ t.hub.answer = .refused 4 ∧ t.hub.can = s.hub.can ∧ KeptBut pathRanges s.hub t.hub)
    ∧ (WriteOpen p (0x2810 + c) 11 2 s.hub → ∃ t, exec (.clearBusOffRecord p c) s = .next t ∧ t.hub.answer = .accepted
      ∧ can t.hub c = { x with entries := [] } ∧ KeptBut pathRanges s.hub t.hub))

/-- R91 to R93, R500, R502, R503, R505 to R507: SDO downloads and uploads, expedited, in segments and in blocks, answer with the frames of
CiA 301 (taken from outside the spec, assumption log 36) or the abort code of their failure; the heartbeat, a new node ID; a
process object reads its field of the newest image word; a write sends the whole shadow as one Canopy WRITE, after those of its SIGNAL. -/
def Obligations.SdoServerAndProcessObjects : Prop :=
  (∀ (ch : Fin 4) index sub data a s, sdoServed s.hub ch = true → s.hub.canopen.received = [] →
    a = sdoWrite (.sdo ch) index sub data (endTransfer ch s.hub) → a.canopen.writes = s.hub.canopen.writes →
    (a.answer = .accepted → ∃ t, exec (.sdoDownloadInitiate ch index sub true data) s = .next t
      ∧ t.hub = sdoSend ch (sdoFrame (0x60 :: sdoMux index sub)) (bump (endTransfer ch a) 0x4800_04))
    ∧ (∀ c, a.answer = .refused c → ∃ t, exec (.sdoDownloadInitiate ch index sub true data) s = .next t
      ∧ t.hub.answer = .abort (abortCode c) ∧ transfer t.hub ch = none
      ∧ rd t.hub 0x4800_03 = min (rd a 0x4800_03 + 1) (2 ^ 32 - 1)))
  ∧ (∀ (ch : Fin 4) index sub data s, sdoServed s.hub ch = true → s.hub.canopen.received = [] →
    ∃ t cob, exec (.sdoDownloadInitiate ch index sub false data) s = .next t ∧ (sdoCob s.hub ch).map (·.2) = some cob
      ∧ transfer t.hub ch = some { index, sub, upload := false, data := [], toggle := false }
      ∧ t.hub.canopen.responses = s.hub.canopen.responses ++ [(cob, sdoFrame (0x60 :: sdoMux index sub))]
      ∧ { t.hub with canopen := s.hub.canopen } = s.hub)
  ∧ (∀ (ch : Fin 4) data x cob s, sdoServed s.hub ch = true → s.hub.canopen.received = [] → transfer s.hub ch = some x →
    (sdoCob s.hub ch).map (·.2) = some cob →
    (x.upload = false → x.data.length + data.length ≤ 1530 → ∃ t, exec (.sdoDownloadSegment ch x.toggle data false) s = .next t
      ∧ transfer t.hub ch = some { x with data := x.data ++ data, toggle := !x.toggle }
      ∧ t.hub.canopen.responses = s.hub.canopen.responses ++ [(cob, sdoFrame [BitVec.ofNat 8 (0x20 + 16 * b2n x.toggle)])]
      ∧ { t.hub with canopen := s.hub.canopen } = s.hub)
    ∧ (x.upload = false → x.data.length + data.length ≤ 1530 → ∃ t, exec (.sdoDownloadSegment ch x.toggle data true) s = .next t
      ∧ t.hub = sdoApply ch x.index x.sub (x.data ++ data) [BitVec.ofNat 8 (0x20 + 16 * b2n x.toggle)] s.hub)
    ∧ (x.upload = false → ∃ t, exec (.sdoDownloadSegment ch (!x.toggle) data false) s = .next t ∧ t.hub.answer = .abort 0x05030000
      ∧ transfer t.hub ch = none)
    ∧ (x.upload = true → x.data.length ≤ 7 → ∃ t, exec (.sdoUploadSegment ch x.toggle) s = .next t ∧ t.hub.answer = .bytes x.data
      ∧ transfer t.hub ch = none ∧ rd t.hub 0x4800_04 = min (rd s.hub 0x4800_04 + 1) (2 ^ 32 - 1)
      ∧ t.hub.canopen.responses = s.hub.canopen.responses
          ++ [(cob, sdoFrame (BitVec.ofNat 8 (16 * b2n x.toggle + 2 * (7 - x.data.length) + 1) :: x.data))])
    ∧ (x.upload = true → 7 < x.data.length → ∃ t, exec (.sdoUploadSegment ch x.toggle) s = .next t
      ∧ t.hub.answer = .bytes (x.data.take 7) ∧ transfer t.hub ch = some { x with data := x.data.drop 7, toggle := !x.toggle }
      ∧ t.hub.canopen.responses = s.hub.canopen.responses
          ++ [(cob, BitVec.ofNat 8 (16 * b2n x.toggle) :: x.data.take 7)])
    ∧ (x.upload = true → ∃ t, exec (.sdoUploadSegment ch (!x.toggle)) s = .next t ∧ t.hub.answer = .abort 0x05030000
      ∧ transfer t.hub ch = none)
    ∧ (∃ t, exec (.sdoAbortTransfer ch) s = .next t ∧ transfer t.hub ch = none
      ∧ t.hub.canopen.responses = s.hub.canopen.responses ∧ { t.hub with canopen := s.hub.canopen } = s.hub)
    ∧ (∃ t, exec (.sdoSegmentTimeout ch) s = .next t ∧ transfer t.hub ch = none ∧ t.hub.answer = .abort 0x05040000
      ∧ rd t.hub 0x4800_03 = min (rd s.hub 0x4800_03 + 1) (2 ^ 32 - 1)
      ∧ t.hub.canopen.responses = s.hub.canopen.responses ++ [(cob, abortFrame x.index x.sub 0x05040000)]))
  ∧ (∀ (ch : Fin 4) index sub bs a cob s, sdoServed s.hub ch = true → s.hub.canopen.received = [] →
    sdoRead ch index sub (endTransfer ch s.hub) = (bs, a) → (∀ c, a.answer ≠ .refused c) → a.canopen = (endTransfer ch s.hub).canopen →
    (sdoCob a ch).map (·.2) = some cob →
    (1 ≤ bs.length → bs.length ≤ 4 → ∃ t, exec (.sdoUploadInitiate ch index sub) s = .next t ∧ transfer t.hub ch = none
      ∧ t.hub.canopen.responses = s.hub.canopen.responses
          ++ [(cob, sdoFrame (BitVec.ofNat 8 (0x43 + 4 * (4 - bs.length)) :: sdoMux index sub ++ bs))])
    ∧ (4 < bs.length → ∃ t, exec (.sdoUploadInitiate ch index sub) s = .next t
      ∧ transfer t.hub ch = some { index, sub, upload := true, data := bs, toggle := false }
      ∧ t.hub.canopen.responses = s.hub.canopen.responses ++ [(cob, 0x41 :: sdoMux index sub ++ natBytes 4 bs.length)])
    ∧ (∀ size, 1 ≤ size → size ≤ 127 → ∃ t segs, exec (.sdoBlockUpload ch index sub size) s = .next t ∧ t.hub.answer = .bytes bs
      ∧ transfer t.hub ch = none ∧ t.hub.canopen.responses = s.hub.canopen.responses
          ++ (cob, 0xC6 :: sdoMux index sub ++ natBytes 4 bs.length) :: segs
          ++ [(cob, sdoFrame (BitVec.ofNat 8 (0xC1 + 4 * ((7 - bs.length % 7) % 7)) :: natBytes 2 (blockCrc bs)))]
      ∧ (segs.flatMap fun x => x.2.tail).take bs.length = bs))
  ∧ (∀ (ch : Fin 4) index sub size s, sdoServed s.hub ch = true → size = 0 ∨ 127 < size →
    ∃ t, exec (.sdoBlockUpload ch index sub size) s = .next t ∧ t.hub.answer = .abort 0x05040002 ∧ transfer t.hub ch = none)
  ∧ (∀ (ch : Fin 4) index sub data s, sdoServed s.hub ch = true → ∃ t, exec (.sdoBlockDownload ch index sub data false) s = .next t
      ∧ t.hub.answer = .abort 0x05040004 ∧ transfer t.hub ch = none
      ∧ rd t.hub 0x4800_03 = min (rd s.hub 0x4800_03 + 1) (2 ^ 32 - 1) ∧ KeptBut [(0x4800_03, 0x4800_03)] s.hub t.hub)
  ∧ (∀ (ch : Fin 4) index sub data s, sdoServed s.hub ch = true → s.hub.canopen.received = [] →
    ∃ t h, exec (.sdoBlockDownload ch index sub data true) s = .next t ∧ h.dict = s.hub.dict
      ∧ h.canopen.writes = s.hub.canopen.writes ∧ t.hub = sdoApply ch index sub data [0xA1] h)
  ∧ (∀ s, (rd s.hub 0x1017_00 ≠ 0 → rd s.hub 0x2802_01 ≠ 0xFF → mode s.hub ≠ 1 → mode s.hub ≠ 8 → mode s.hub ≠ 6 →
      ∃ t, exec .heartbeatSend s = .next t ∧ { t.hub with canopen := s.hub.canopen } = s.hub
        ∧ t.hub.canopen.heartbeat = s.hub.canopen.heartbeat ++ [if serving s.hub then 0x05 else 0x7F])
    ∧ (rd s.hub 0x1017_00 = 0 ∨ rd s.hub 0x2802_01 = 0xFF → exec .heartbeatSend s = .next s))
  ∧ (∀ p v s, WriteOpen p 0x2802 2 v s.hub → 1 ≤ v → v ≤ 127 →
    ∃ t, exec (.nodeIdWrite p v) s = .next t ∧ t.hub.answer = .accepted ∧ rd t.hub 0x2802_02 = v
      ∧ (mode s.hub = 2 → rd t.hub 0x4800_01 = nodeId t.hub)
      ∧ KeptBut ((0x2802_02, 0x2802_02) :: (0x4800_01, 0x4800_01) :: pathRanges) s.hub t.hub)
  ∧ (∀ p index sub m s, served s.hub p = true → pathWaits s.hub p = false → findMapping s.hub index sub = some m →
    (signalKnown s.hub (mapping s.hub m).1 = true → ∃ t, exec (.processObjectRead p index sub) s = .next t
      ∧ t.hub.answer = .value ((imageWord s.hub (mapping s.hub m).1).1.toNat / 2 ^ (mapping s.hub m).2.1 % 2 ^ (mapping s.hub m).2.2))
    ∧ (signalKnown s.hub (mapping s.hub m).1 = false → ∃ t, exec (.processObjectRead p index sub) s = .next t
      ∧ t.hub.answer = .refused 0x0A))
  ∧ (∀ p index sub v m hd sh w word tag s, WriteOpen p index sub v s.hub → findMapping s.hub index sub = some m →
    mapping s.hub m = (hd, sh, w) → processRo s.hub hd = false → v < 2 ^ w → signalKnown s.hub hd = true → 1 ≤ w →
    word = BitVec.ofNat 48 (setField (tabGet 0 s.hub.canopen.shadows hd).toNat (sh + w - 1) sh v) → tag = s.hub.canopy.nextTag % 256 →
    ((∀ e ∈ s.hub.canopen.writes, e.2.handle ≠ hd) → exec (.processObjectWrite p index sub v) s = .next { s with
      hub := putItem 6 (.req {
          port := 6, tag, cls := .mg, op := .write, addr := 2 ^ 47 + hd * 2 ^ 24, count := 1, be0 := 63, be1 := 63,
          data := [word], src := hubNumber s.hub, gen := 0, order := 0, home := false, fill := false })
        { writeStart p index sub s.hub with
          canopy := { s.hub.canopy with nextTag := tag + 1 },
          canopen := { s.hub.canopen with
            writes := tabSet s.hub.canopen.writes tag
              { handle := hd, shift := sh, width := w, value := v, path := p, index, sub, reply := .none } } } })
    ∧ (∀ e ∈ s.hub.canopen.writes, e.2.handle = hd → ∃ t, exec (.processObjectWrite p index sub v) s = .next t
      ∧ t.hub.portQ = s.hub.portQ ∧ t.hub.canopen.shadows = s.hub.canopen.shadows
      ∧ ∃ k, 256 ≤ k ∧ (k, { handle := hd, shift := sh, width := w, value := v, path := p, index, sub, reply := .none })
          ∈ t.hub.canopen.writes))

/-! ### Network sleep and wake -/

/-- R512 to R519, R521: an originator that may sleep proposes, a hub answers by its keep-awake reasons, the last CONSENT commits at T_n, the
first grid start at or after the lead, and COMMIT is repeated; a REFUSE or the timeout fails the round; a hub that did not consent
answers COMMIT with ABORT, one that has a reason again aborts at once; an ABORT, received or sent for an aborting reason, ends a committed round. -/
def Obligations.SleepRoundsAreAgreed : Prop :=
  (∀ w s h, h = sampleWakeIn w s.hub →
    (rdB h 0x2D01_02 = true → keepAwake h = 0 → roundState h ≠ 1 → committed h = false → hubNumber h ≠ 0 → serving h = true →
      othersPresent h ≠ [] →
      ∃ t f r, exec (.sleepPropose w) s = .next t ∧ exec (.sleepRetry w) s = .next t ∧ r = (h.sleep.ownRound + 1) % 65536
        ∧ t.hub.sleep.ownRound = r ∧ t.hub.sleep.consents = [] ∧ t.hub.sleep.present = othersPresent h
        ∧ hubNumber h ∈ t.hub.sleep.attempts
        ∧ roundState t.hub = 1 ∧ roundOrigin t.hub = hubNumber h ∧ roundNumber t.hub = r
        ∧ portFrames t.hub 6 = portFrames s.hub 6 ++ [f] ∧ f.ftype = 7 ∧ f.dst = 255 ∧ f.cls = .mg
        ∧ f.payload = [roundWord (hubNumber h) r 0, BitVec.ofNat 48 (presentHubs h).length]
        ∧ { t.hub with sleep := s.hub.sleep, portQ := s.hub.portQ, seqs := s.hub.seqs, dict := s.hub.dict } = s.hub
        ∧ KeptBut [(0x4D01_01, 0x4D01_04), (0x4D01_07, 0x4D01_07)] s.hub t.hub)
    ∧ (rdB h 0x2D01_02 = false ∨ keepAwake h ≠ 0 ∨ roundState h = 1 ∨ committed h = true ∨ hubNumber h = 0 ∨ serving h = false →
      exec (.sleepPropose w) s = .next { s with hub := h } ∧ exec (.sleepRetry w) s = .next { s with hub := h }))
  ∧ (∀ origin round n w s h, h = sampleWakeIn w s.hub → hubNumber h ≠ 0 → sendsOwn h = true → origin ≠ hubNumber h →
    (∀ e, (h.sleep.heard.find? fun e => e.1 == origin) = some e → newerRound round e.2.1 = true) → roundState h ≠ 1 ∨ origin ≤ hubNumber h →
    (keepAwake h = 0 → ∃ t f, exec (.propose origin round n w) s = .next t
      ∧ portFrames t.hub 6 = portFrames s.hub 6 ++ [f] ∧ f.ftype = 7 ∧ f.payload = [roundWord origin round 0]
      ∧ (origin, (round, true)) ∈ t.hub.sleep.heard ∧ (committed h = false → roundState t.hub = 2)
      ∧ (committed h = true → roundState t.hub = roundState h) ∧ KeptBut [(0x4D01_01, 0x4D01_04)] s.hub t.hub)
    ∧ (keepAwake h ≠ 0 → ∃ t f, exec (.propose origin round n w) s = .next t
      ∧ portFrames t.hub 6 = portFrames s.hub 6 ++ [f] ∧ f.ftype = 7 ∧ f.payload = [roundWord origin round (keepAwake h)]
      ∧ (origin, (round, false)) ∈ t.hub.sleep.heard ∧ (committed h = false → roundState t.hub = 0)
      ∧ KeptBut [(0x4D01_01, 0x4D01_04)] s.hub t.hub))
  ∧ (∀ origin round n w s h, h = sampleWakeIn w s.hub →
    (∃ e, (h.sleep.heard.find? fun e => e.1 == origin) = some e ∧ newerRound round e.2.1 = false)
      ∨ (roundState h = 1 ∧ hubNumber h < origin) →
    exec (.propose origin round n w) s = .next { s with hub := h })
  ∧ (∀ src s, roundState s.hub = 1 → roundOrigin s.hub = hubNumber s.hub → s.hub.sleep.present = othersPresent s.hub →
    (∀ n ∈ othersPresent s.hub, n = src ∨ n ∈ s.hub.sleep.consents) → nowNs s.hub < s.hub.sleep.roundAt + 20000000 →
    hubNumber s.hub ≠ 0 →
    ∃ t, exec (.consent src (hubNumber s.hub) (roundNumber s.hub)) s = .next t ∧ roundState t.hub = 3
      ∧ rd t.hub 0x4D01_05 = noReturnAt s.hub / 1000000000 % 2 ^ 48
      ∧ rd t.hub 0x4D01_06 = noReturnAt s.hub % 1000000000 * 2 ^ 16
      ∧ t.hub.sleep.copies = 2 ∧ eventPending t.hub 0x60 = true ∧ (s.hub.store.dirty = true → eventPending t.hub 0xA1 = true)
      ∧ (∃ f ∈ portFrames t.hub 6, f.ftype = 7 ∧ f.payload
          = [roundWord (hubNumber s.hub) (roundNumber s.hub) 0, rdW t.hub 0x4D01_05, rdW t.hub 0x4D01_06])
      ∧ KeptBut ((0x4D01_01, 0x4D01_06) :: eventRanges) s.hub t.hub)
  ∧ (∀ src s, roundState s.hub = 1 → roundOrigin s.hub = hubNumber s.hub → (∃ n ∈ s.hub.sleep.present, n ≠ src ∧ n ∉ s.hub.sleep.consents) →
    ∃ t, exec (.consent src (hubNumber s.hub) (roundNumber s.hub)) s = .next t ∧ t.hub.dict = s.hub.dict ∧ src ∈ t.hub.sleep.consents
      ∧ { t.hub with sleep := s.hub.sleep } = s.hub)
  ∧ (∀ h lead, 0 < periodNs h →
    lead = nowNs h + max (rd h 0x2D01_05 * 1000000) (rd h 0x2D01_06 * 1000000 + rd h 0x4500_0A + 2000000) →
    periodNs h ∣ noReturnAt h ∧ lead ≤ noReturnAt h ∧ noReturnAt h < lead + periodNs h)
  ∧ (∀ src reasons s, roundState s.hub = 1 →
    (∃ t, exec .sleepRoundTimeout s = .next t ∧ roundState t.hub = 0 ∧ eventPending t.hub 0x62 = true
      ∧ rd t.hub 0x4D01_08 = min (rd s.hub 0x4D01_08 + 1) (2 ^ 32 - 1) ∧ evented s.hub t.hub = t.hub
      ∧ KeptBut ((0x4D01_01, 0x4D01_01) :: (0x4D01_08, 0x4D01_08) :: eventRanges) s.hub t.hub)
    ∧ (∃ t, exec (.refuse src (hubNumber s.hub) (roundNumber s.hub) reasons) s = .next t ∧ roundState t.hub = 0
      ∧ eventPending t.hub 0x62 = true ∧ rd t.hub 0x4D01_08 = min (rd s.hub 0x4D01_08 + 1) (2 ^ 32 - 1)
      ∧ (hubNumber s.hub ∈ s.hub.sleep.attempts → ∃ x ∈ t.hub.sleep.spans, x.origin = hubNumber s.hub ∧ x.hub = src)))
  ∧ (∀ s, roundState s.hub ≠ 1 → exec .sleepRoundTimeout s = .next s)
  ∧ (∀ s, committed s.hub = true →
    (roundOrigin s.hub = hubNumber s.hub → hubNumber s.hub ≠ 0 → s.hub.sleep.copies ≠ 0 →
      ∃ t f, exec .commitResend s = .next t ∧ portFrames t.hub 6 = portFrames s.hub 6 ++ [f] ∧ f.ftype = 7
        ∧ f.payload = [roundWord (roundOrigin s.hub) (roundNumber s.hub) 0, rdW s.hub 0x4D01_05, rdW s.hub 0x4D01_06]
        ∧ t.hub.sleep = { s.hub.sleep with copies := s.hub.sleep.copies - 1 } ∧ t.hub.dict = s.hub.dict)
    ∧ (s.hub.sleep.copies = 0 → exec .commitResend s = .next s)
    ∧ exec .drainTimeStart s = .next { s with hub := { s.hub with sleep := { s.hub.sleep with holding := true } } }
    ∧ (roundState s.hub = 3 → exec .abortMarginStart s = .next { s with hub := wr s.hub 0x4D01_01 4 }))
  ∧ (∀ s, committed s.hub = false → exec .commitResend s = .next s ∧ exec .drainTimeStart s = .next s
      ∧ exec .abortMarginStart s = .next s)
  ∧ (∀ origin round tn s, hubNumber s.hub ≠ 0 → sendsOwn s.hub = true → origin ≠ hubNumber s.hub →
    (committed s.hub = false → (origin, (round, true)) ∈ s.hub.sleep.heard → origin < 2 ^ 48 → round < 2 ^ 48 →
      (keepAwake s.hub &&& 0x8F = 0 →
      ∃ t, exec (.commit origin round tn) s = .next t ∧ roundState t.hub = 3 ∧ roundOrigin t.hub = origin ∧ roundNumber t.hub = round
        ∧ rd t.hub 0x4D01_05 = tn / 1000000000 % 2 ^ 48 ∧ rd t.hub 0x4D01_06 = tn % 1000000000 * 2 ^ 16
        ∧ eventPending t.hub 0x60 = true ∧ evented s.hub t.hub = t.hub ∧ KeptBut ((0x4D01_01, 0x4D01_06) :: eventRanges) s.hub t.hub)
      ∧ (keepAwake s.hub &&& 0x8F ≠ 0 → ∃ t, exec (.commit origin round tn) s = .next t ∧ roundState t.hub = 0
        ∧ eventPending t.hub 0x60 = true ∧ eventPending t.hub 0x61 = true
        ∧ rd t.hub 0x4D01_09 = min (rd s.hub 0x4D01_09 + 1) (2 ^ 32 - 1)))
    ∧ ((origin, (round, true)) ∉ s.hub.sleep.heard →
      (committed s.hub = true → roundOrigin s.hub ≠ origin ∨ roundNumber s.hub ≠ round) →
      ∃ t, ∃ f ∈ portFrames t.hub 6, exec (.commit origin round tn) s = .next t ∧ f.ftype = 7
        ∧ f.payload = [roundWord origin round (keepAwake s.hub)] ∧ roundState t.hub = roundState s.hub ∧ origin ∉ t.hub.sleep.attempts))
  ∧ (∀ src reasons s, mode s.hub ≠ 6 → committed s.hub = true →
    ∃ t, exec (.abort src (roundOrigin s.hub) (roundNumber s.hub) reasons) s = .next t ∧ roundState t.hub = 0
      ∧ t.hub.sleep.holding = false ∧ t.hub.sleep.copies = 0 ∧ roundOrigin s.hub ∉ t.hub.sleep.attempts
      ∧ eventPending t.hub 0x61 = true ∧ mode t.hub = mode s.hub
      ∧ rd t.hub 0x4D01_09 = min (rd s.hub 0x4D01_09 + 1) (2 ^ 32 - 1)
      ∧ (roundOrigin s.hub ∈ s.hub.sleep.attempts → src < 256 → reasons < 65536 →
          bits (rd t.hub 0x4D02_01) 47 40 = src ∧ bits (rd t.hub 0x4D02_01) 15 0 = reasons ∧ rd t.hub 0x4D02_02 = 0)
      ∧ (s.hub.canopy.ports = [] → KeptBut ((0x4D01_01, 0x4D01_01) :: (0x4D01_09, 0x4D01_09) :: (0x4D02_01, 0x4D02_40) :: eventRanges) s.hub t.hub))
  ∧ (∀ src origin round reasons s, mode s.hub = 6 → exec (.abort src origin round reasons) s = .next s)
  ∧ (∀ reasons s,
    (roundState s.hub = 3 → hubNumber s.hub ≠ 0 → (keepAwake s.hub ||| (reasons &&& 8)) &&& 0x8F ≠ 0 →
      ∃ t, ∃ f ∈ portFrames t.hub 6, exec (.sleepAbort reasons) s = .next t ∧ f.ftype = 7
        ∧ f.payload = [roundWord (roundOrigin s.hub) (roundNumber s.hub) ((keepAwake s.hub ||| (reasons &&& 8)) &&& 0x8F)]
        ∧ roundState t.hub = 0
        ∧ t.hub.sleep.holding = false ∧ eventPending t.hub 0x61 = true ∧ mode t.hub = mode s.hub
        ∧ rd t.hub 0x4D01_09 = min (rd s.hub 0x4D01_09 + 1) (2 ^ 32 - 1))
    ∧ (roundState s.hub ≠ 3 ∨ (keepAwake s.hub ||| (reasons &&& 8)) &&& 0x8F = 0 → exec (.sleepAbort reasons) s = .next s))

/-- R519, R520, R522, R526, R529, R530, R532, R534 to R536: an enabled wake source is recorded and acts by mode: nothing more in RUN and LIMP, an
abort of a committed round, latched from T_n - M on, the return to RUN in CLEARING, the wake in DORMANT; wake frames and the 32nd error
wake a controller; an unproductive wake is counted and masks at its limit, confirmation and unmasking clear. -/
def Obligations.WakesAreAcceptedAndJudged : Prop :=
  (∀ j s, wakeEnabled s.hub j = false → exec (.wakeAccepted j) s = .next s)
  ∧ (∀ j s, wakeEnabled s.hub j = true →
    (mode s.hub = 3 ∨ mode s.hub = 4 → j < 8 → committed s.hub = false →
      ∃ t, exec (.wakeAccepted j) s = .next t ∧ rd t.hub 0x4D01_0A = j ∧ rd t.hub 0x4D01_0B = timeSec (replica s.hub 0x15) % 2 ^ 48
        ∧ rd t.hub 0x4D01_0C = timeFrac (replica s.hub 0x15) % 2 ^ 48 ∧ eventPending t.hub 0x64 = true ∧ evented s.hub t.hub = t.hub
        ∧ KeptBut ((0x4D01_0A, 0x4D01_0C) :: eventRanges) s.hub t.hub)
    ∧ (serving s.hub = true → j < 8 ∨ (mode s.hub = 5 ∧ sourceAsleep s.hub j = true) → roundState s.hub = 3 → hubNumber s.hub ≠ 0 →
      ∃ t, ∃ f ∈ portFrames t.hub 6, exec (.wakeAccepted j) s = .next t ∧ f.payload = [roundWord (roundOrigin s.hub) (roundNumber s.hub) 0x80]
        ∧ roundState t.hub = 0 ∧ rd t.hub 0x4D01_0A = j ∧ mode t.hub = (if mode s.hub = 5 then 3 else mode s.hub))
    ∧ (serving s.hub = true → j < 8 ∨ (mode s.hub = 5 ∧ sourceAsleep s.hub j = true) ∨ 28 ≤ j → roundState s.hub = 4 →
      ∃ t, exec (.wakeAccepted j) s = .next t ∧ t.hub.sleep = { s.hub.sleep with latched := some (s.hub.sleep.latched.getD j) }
        ∧ rd t.hub 0x4D01_0A = j + 0x80 ∧ eventPending t.hub 0x64 = true ∧ mode t.hub = mode s.hub ∧ roundState t.hub = 4)
    ∧ (mode s.hub = 5 → j < 8 ∨ sourceAsleep s.hub j = true → committed s.hub = false →
      ∃ t, exec (.wakeAccepted j) s = .next t ∧ ModeEntered 5 3 t.hub ∧ t.hub.sleep.asleep = [] ∧ j ∈ t.hub.sleep.awaiting
        ∧ rd t.hub 0x4D01_0A = j)
    ∧ (mode s.hub = 6 → dormantSource j = true → s.hub.sleep.entering = true →
      ∃ t, exec (.wakeAccepted j) s = .next t ∧ t.hub.sleep = { s.hub.sleep with latched := some (s.hub.sleep.latched.getD j) })
    ∧ (mode s.hub = 6 → dormantSource j = true → s.hub.sleep.entering = false → s.hub.power.waking = false →
      ∃ t, exec (.wakeAccepted j) s = .next t ∧ t.hub.power.waking = true ∧ t.hub.power.wakeTries = 0
        ∧ t.hub.power.wakeAt = nowNs s.hub ∧ t.hub.sleep.awaiting = [j] ∧ rd t.hub 0x4D01_0A = j ∧ mode t.hub = 6))
  ∧ (∀ j n limit s, j < 30 → j ∈ s.hub.sleep.awaiting → n = min 255 (bits (rd s.hub (0x4D03_01 + j)) 7 0 + 1) →
    limit = bits (rd s.hub (0x2D03_01 + j)) 31 24 →
    (limit ≠ 0 → limit ≤ n → wakeMasked s.hub j = false →
      ∃ t, exec (.wakeProductivityTimeout j) s = .next t ∧ wakeMasked t.hub j = true ∧ bits (rd t.hub (0x4D03_01 + j)) 7 0 = n
        ∧ bits (rd t.hub (0x4D03_01 + j)) 47 16 = timeSec (replica s.hub 0x15) % 2 ^ 32 ∧ eventPending t.hub 0x65 = true
        ∧ j ∉ t.hub.sleep.awaiting ∧ KeptBut ((0x4D03_01 + j, 0x4D03_01 + j) :: eventRanges) s.hub t.hub)
    ∧ (limit = 0 ∨ n < limit → ∃ t, exec (.wakeProductivityTimeout j) s = .next t
      ∧ rd t.hub (0x4D03_01 + j) = setField (rd s.hub (0x4D03_01 + j)) 7 0 n ∧ j ∉ t.hub.sleep.awaiting
      ∧ KeptBut [(0x4D03_01 + j, 0x4D03_01 + j)] s.hub t.hub))
  ∧ (∀ j s, j ∉ s.hub.sleep.awaiting → exec (.wakeProductivityTimeout j) s = .next s)
  ∧ (∀ p v s, WriteOpen p 0x2D04 1 v s.hub → entryBad 0x2D04 1 v = false →
    ∃ t, exec (.wakeConfirmation p v) s = .next t ∧ t.hub.answer = .accepted
      ∧ (∀ i, i < 8 → bit v i = true → i ∈ s.hub.sleep.awaiting →
          i ∉ t.hub.sleep.awaiting ∧ bits (rd t.hub (0x4D03_01 + i)) 7 0 = 0)
      ∧ (∀ j, 8 ≤ j ∨ bit v j = false → (j ∈ t.hub.sleep.awaiting ↔ j ∈ s.hub.sleep.awaiting)
          ∧ (j < 30 → rd t.hub (0x4D03_01 + j) = rd s.hub (0x4D03_01 + j)))
      ∧ KeptBut ((0x4D03_01, 0x4D03_08) :: pathRanges) s.hub t.hub)
  ∧ (∀ p v s, WriteOpen p 0x2D04 2 v s.hub → entryBad 0x2D04 2 v = false →
    ∃ t, exec (.wakeUnmask p v) s = .next t ∧ t.hub.answer = .accepted
      ∧ (∀ j, j < 30 → bit v j = true → wakeMasked t.hub j = false ∧ bits (rd t.hub (0x4D03_01 + j)) 7 0 = 0
          ∧ bits (rd t.hub (0x4D03_01 + j)) 47 16 = timeSec (replica s.hub 0x15) % 2 ^ 32)
      ∧ (∀ j, j < 30 → bit v j = false → rd t.hub (0x4D03_01 + j) = rd s.hub (0x4D03_01 + j))
      ∧ KeptBut ((0x4D03_01, 0x4D03_1E) :: pathRanges) s.hub t.hub)
  ∧ (∀ (c : Fin 16) f err s,
    (canAsleep s.hub c = false ∨ mode s.hub ≠ 5 ∨ f.fdf = true → exec (.pnFrameDecode c f err) s = .next s)
    ∧ (canAsleep s.hub c = true → mode s.hub = 5 → f.fdf = false → err ≠ .none ∨ isWakeFrame s.hub c f = false →
      pnCount err (can s.hub c).pnErrors < 32 →
      exec (.pnFrameDecode c f err) s = .next {
        s with hub := setCan s.hub c { can s.hub c with pnErrors := pnCount err (can s.hub c).pnErrors } })
    ∧ (canAsleep s.hub c = true → mode s.hub = 5 → f.fdf = false → err = .none → isWakeFrame s.hub c f = true →
      wakeEnabled s.hub (8 + c) = true → committed s.hub = false →
      ∃ t, exec (.pnFrameDecode c f err) s = .next t ∧ mode t.hub = 3 ∧ canAsleep t.hub c = false
        ∧ rd t.hub 0x4D01_0A = 8 + c ∧ rd t.hub (canStat c 4) = min (rd s.hub (canStat c 4) + 1) (2 ^ 32 - 1))
    ∧ (canAsleep s.hub c = true → mode s.hub = 5 → f.fdf = false → err ≠ .none → 32 ≤ pnCount err (can s.hub c).pnErrors →
      wakeEnabled s.hub (8 + c) = true → committed s.hub = false →
      ∃ t, exec (.pnFrameDecode c f err) s = .next t ∧ ModeEntered 5 3 t.hub ∧ canAsleep t.hub c = false))
  ∧ (pnCount .stuff 0 = 1 ∧ pnCount .form 0 = 1 ∧ pnCount .crc 0 = 1 ∧ pnCount .bit1 0 = 1 ∧ pnCount .bit0 0 = 1
      ∧ ∀ n, pnCount .none n = n - 1 ∧ pnCount .stuff n = n + 1)

/-- R27, R241, R387, R518, R522, R673 to R677, R679 to R681: at T_n a committed serving hub enters DORMANT with its crossings drained, the lists
of the bus aggregate and of Dome saved with check bits and CRC-32, what Table 5 keeps, and every other register at its default; a latched wake acts once DORMANT is reached; the rails are polled, and three timeouts end the wake; the wake takes
the hub to COMMISSION with its reset cause unchanged, or resets it with cause 0x05 where the image fails. -/
def Obligations.DormantIsEnteredAndLeft : Prop :=
  (∀ s, committed s.hub = true → serving s.hub = true →
    ∃ t, exec .pointOfNoReturn s = .next t ∧ mode t.hub = 6 ∧ rd t.hub 0x2000_03 = mode s.hub ∧ t.hub.sleep.entering = true
      ∧ t.hub.sleep.latched = s.hub.sleep.latched ∧ t.hub.canopy.mem = [] ∧ t.hub.fifos = [] ∧ t.hub.belfry.stored = []
      ∧ t.hub.spire.acc = s.hub.spire.acc ∧ t.hub.spire.holdTime = s.hub.spire.holdTime ∧ t.hub.spire.holdInc = s.hub.spire.holdInc
      ∧ t.hub.update.slotA = s.hub.update.slotA ∧ t.hub.update.slotB = s.hub.update.slotB
      ∧ (s.hub.store.job = none → t.hub.copyA = s.hub.copyA ∧ t.hub.copyB = s.hub.copyB) ∧ t.hub.dome.epoch = s.hub.dome.epoch
      ∧ (∀ k, survivingSlot k = false → wakeLogicSlot k = false → rdW t.hub k = slotDefault k)
      ∧ (∀ k, wakeLogicSlot k = true ∨ k / 256 = 0x4D03 ∨ k / 256 = 0x4F00 → rdW t.hub k = rdW s.hub k)
      ∧ (∀ c, c < 16 → rd t.hub (canStat c 2) = rd s.hub (canStat c 2) ∧ rd t.hub (canStat c 3) = rd s.hub (canStat c 3))
      ∧ rd t.hub 0x2000_07 = rd s.hub 0x2000_07
      ∧ saveGood t.hub 8 = true ∧ saveGood t.hub 10 = true ∧ (∀ d, d < 8 → tabFind t.hub.power.save d = none)
      ∧ (∀ e ∈ t.hub.crossings, (islandDomain (e.1 / 256)).isSome = true ∨ (islandDomain (e.1 % 256)).isSome = true → e.2.broken = false →
          e.2.entries = [] ∧ e.2.waiting = []))
  ∧ (∀ s, committed s.hub = false ∨ serving s.hub = false → exec .pointOfNoReturn s = .next s)
  ∧ (∀ s, mode s.hub = 6 → s.hub.sleep.entering = true →
    (s.hub.sleep.latched = none →
      exec .dormantReached s = .next { s with hub := { s.hub with sleep := { s.hub.sleep with entering := false } } })
    ∧ (∀ j, s.hub.sleep.latched = some j →
      exec .dormantReached s = .next { s with hub := { s.hub with
        sleep := { s.hub.sleep with entering := false, latched := none, awaiting := [j] },
        power := { s.hub.power with waking := true, railsGood := [], wakeTries := 0, wakeAt := nowNs s.hub } } }))
  ∧ (∀ s, mode s.hub ≠ 6 ∨ s.hub.sleep.entering = false → exec .dormantReached s = .next s)
  ∧ (∀ (r : Fin 4) status s, mode s.hub = 6 → s.hub.power.waking = true → railManaged s.hub r = true →
    (railBad status = false → ∃ t, exec (.powerGoodPoll r status) s = .next t ∧ r.val ∈ t.hub.power.railsGood
      ∧ (∀ q, q ≠ r.val → (q ∈ t.hub.power.railsGood ↔ q ∈ s.hub.power.railsGood))
      ∧ rd t.hub (0x4D13_01 + r) = status % 65536 ∧ KeptBut [(0x4D13_01 + r, 0x4D13_01 + r)] s.hub t.hub)
    ∧ (railBad status = true → exec (.powerGoodPoll r status) s
        = .next { s with hub := wr s.hub (0x4D13_01 + r) (status % 65536) })
    ∧ (r.val ∉ s.hub.power.railsGood →
      (s.hub.power.wakeTries < 2 → exec (.powerGoodTimeout r) s = .next { s with hub := { s.hub with
        power := { s.hub.power with railsGood := [], wakeTries := s.hub.power.wakeTries + 1 } } })
      ∧ (s.hub.power.wakeTries = 2 → exec (.powerGoodTimeout r) s = .next { s with hub := { s.hub with
        power := { s.hub.power with waking := false, railsGood := [], wakeTries := 0, railFailed := some (r.val, 3) } } }))
    ∧ (r.val ∈ s.hub.power.railsGood → exec (.powerGoodTimeout r) s = .next s))
  ∧ (∀ kat ch en busOk domeOk s, mode s.hub = 6 → s.hub.sleep.entering = false → s.hub.power.waking = true → railsReady s.hub = true →
    (∃ t, exec (.dormantWake kat true ch en busOk domeOk) s = .next t ∧ mode t.hub = 2 ∧ rd t.hub 0x2000_03 = 6
      ∧ rd t.hub 0x2000_07 = rd s.hub 0x2000_07 ∧ t.hub.modes.autoReturn = true ∧ t.hub.power.waking = false
      ∧ t.hub.spire.acc = wholeTick s.hub.spire.holdTime
      ∧ (busOk = true → saveGood s.hub 8 = true → ∀ c, c < 16 → rd t.hub (canStat c 2) = rd s.hub (canStat c 2))
      ∧ (busOk = false ∨ saveGood s.hub 8 = false → ∀ c, c < 16 → rd t.hub (canStat c 2) = 0 ∧ rd t.hub (canStat c 3) = 0))
    ∧ (∃ t, exec (.dormantWake kat false ch en busOk domeOk) s = .next t ∧ mode t.hub = 1 ∧ rd t.hub 0x2000_07 = 5))
  ∧ (∀ kat imageOk ch en busOk domeOk s, mode s.hub ≠ 6 ∨ s.hub.sleep.entering = true ∨ s.hub.power.waking = false
      ∨ railsReady s.hub = false → exec (.dormantWake kat imageOk ch en busOk domeOk) s = .next s)

/-! ### 10BASE-T1S ports -/

/-- R25, R545, R557 to R559, R562 to R564, R566: a received frame is counted and checked, captured by the cyclic filters it matches, and ends at a consuming
filter, at the address filter, in the STREAM as one packet, in the next owned receive descriptor, or discarded, each counted;
a descriptor is written back with its status, its index moving on. -/
def Obligations.T1sFramesAreDelivered : Prop :=
  (∀ (p : Fin 4) bs ok sfd s, t1sOn s.hub p = false ∨ t1sAsleep s.hub p = true → exec (.t1sFrameReceive p bs ok sfd) s = .next s)
  ∧ (∀ (p : Fin 4) bs sfd s, t1sOn s.hub p = true → t1sAsleep s.hub p = false →
    exec (.t1sFrameReceive p bs false sfd) s = .next { s with hub := bump s.hub (t1sStat p 3) })
  ∧ (∀ (p : Fin 4) bs sfd s ks, t1sOn s.hub p = true → t1sAsleep s.hub p = false →
    ks = (List.range 4).filter (fun k => cyclicMatches s.hub p k bs) →
    (bs.length < 60 ∨ t1sSet s.hub p 4 < bs.length →
      ∃ t, exec (.t1sFrameReceive p bs true sfd) s = .next t ∧ t1s t.hub p = t1s s.hub p ∧ t.hub.fifos = s.hub.fifos
        ∧ rd t.hub (t1sStat p 1) = min (rd s.hub (t1sStat p 1) + 1) (2 ^ 32 - 1)
        ∧ rd t.hub (t1sStat p 4) = min (rd s.hub (t1sStat p 4) + 1) (2 ^ 32 - 1)
        ∧ KeptBut [(t1sStat p 1, t1sStat p 4), (0x4D03_01, 0x4D03_1E)] s.hub t.hub)
    ∧ (60 ≤ bs.length → bs.length ≤ t1sSet s.hub p 4 →
      (ks ≠ [] → ∃ t, exec (.t1sFrameReceive p bs true sfd) s = .next t
        ∧ (∀ k, k ∈ ks → tabHas (t1s t.hub p).held k = true
          ∧ tabGet ([], 0) (t1s t.hub p).held k = (bs.drop (etherAt bs + 2), busNs s.hub))
        ∧ rd t.hub (t1sStat p 0x0A) = min (rd s.hub (t1sStat p 0x0A) + ks.length) (2 ^ 32 - 1))
      ∧ ((∃ k ∈ ks, bit (rd s.hub (cyclicKey p k)) 18 = true) → ∃ t, exec (.t1sFrameReceive p bs true sfd) s = .next t
        ∧ t.hub.fifos = s.hub.fifos ∧ t.hub.canopy = s.hub.canopy
        ∧ KeptBut [(t1sStat p 1, t1sStat p 1), (t1sStat p 0x0A, t1sStat p 0x0A), (0x4D03_01, 0x4D03_1E)] s.hub t.hub)
      ∧ (ks = [] → addressAccepts s.hub p bs = false → ∃ t, exec (.t1sFrameReceive p bs true sfd) s = .next t
        ∧ t1s t.hub p = t1s s.hub p ∧ t.hub.fifos = s.hub.fifos
        ∧ rd t.hub (t1sStat p 0x0F) = min (rd s.hub (t1sStat p 0x0F) + 1) (2 ^ 32 - 1)
        ∧ KeptBut [(t1sStat p 1, t1sStat p 1), (t1sStat p 0x0F, t1sStat p 0x0F), (0x4D03_01, 0x4D03_1E)] s.hub t.hub)
      ∧ (∀ q x, (∀ k ∈ ks, bit (rd s.hub (cyclicKey p k)) 18 = false) → addressAccepts s.hub p bs = true →
        fifoFrom s.hub 3 p = some q → x = fifo s.hub q → FifoOpen q s.hub → x.packer = [] →
        x.words.length + 4 + (bs.length + 5) / 6 < fifoCapacity s.hub q →
        crossingShut s.hub 0x10 0 = false → (crossing s.hub 0x10 0).entries = [] →
        ∃ t pkt, exec (.t1sFrameReceive p bs true sfd) s = .next t
          ∧ (fifo t.hub q).words.map (·.1) = x.words.map (·.1) ++ pkt ∧ pkt.length = 2 + (bs.length + 5) / 6
          ∧ (pkt.map (·.data)).take 2 = [BitVec.ofNat 48 bs.length, BitVec.ofNat 48 sfd]
          ∧ packetBytes pkt = bs ∧ (pkt.map (·.endMark)) = List.replicate (1 + (bs.length + 5) / 6) false ++ [true])
      ∧ ((∀ k ∈ ks, bit (rd s.hub (cyclicKey p k)) 18 = false) → addressAccepts s.hub p bs = true → fifoFrom s.hub 3 p = none →
        (ringAt s.hub p 0x0A).2 = 0 → ∃ t, exec (.t1sFrameReceive p bs true sfd) s = .next t ∧ t.hub.canopy = s.hub.canopy
        ∧ rd t.hub (t1sStat p 5) = min (rd s.hub (t1sStat p 5) + 1) (2 ^ 32 - 1))
      ∧ (∀ first base len n i d w0 off m, (∀ k ∈ ks, bit (rd s.hub (cyclicKey p k)) 18 = false) → addressAccepts s.hub p bs = true →
        fifoFrom s.hub 3 p = none → ringBase s.hub p 0x0A = some (first, base, len) → n = (ringAt s.hub p 0x0A).2 → n ≠ 0 →
        i = rd s.hub (t1sInst p 3) % n → d = first + 4 * i → w0 = (memWord s.hub.canopy.mem d).toNat →
        off = bits (memWord s.hub.canopy.mem (d + 1)).toNat 19 0 → m = (ks.map fun k => 2 ^ k).sum → s.hub.watch.armed = [] →
        (bit w0 47 = false ∨ d ∈ s.hub.canopy.poison ∨ d + 1 ∈ s.hub.canopy.poison → ∃ t, exec (.t1sFrameReceive p bs true sfd) s = .next t ∧ t.hub.canopy = s.hub.canopy
          ∧ rd t.hub (t1sStat p 5) = min (rd s.hub (t1sStat p 5) + 1) (2 ^ 32 - 1))
        ∧ (bit w0 47 = true → d ∉ s.hub.canopy.poison → d + 1 ∉ s.hub.canopy.poison → bs.length ≤ bits w0 10 0 → off + (bs.length + 5) / 6 ≤ len →
          ∃ t, exec (.t1sFrameReceive p bs true sfd) s = .next t
            ∧ memWord t.hub.canopy.mem d = BitVec.ofNat 48 (m * 2 ^ 28 + bs.length % 2048)
            ∧ memWord t.hub.canopy.mem (d + 2) = BitVec.ofNat 48 (sfd / 1000000000)
            ∧ memWord t.hub.canopy.mem (d + 3) = BitVec.ofNat 48 (sfd % 1000000000 * 65536)
            ∧ (∀ j, j < (bs.length + 5) / 6 → base + off + j ∉ [d, d + 2, d + 3] →
                memWord t.hub.canopy.mem (base + off + j) = (bytesWords ((bs.length + 5) / 6) bs).getD j 0)
            ∧ (∀ w, w ∉ [d, d + 2, d + 3] → (w < base + off ∨ base + off + (bs.length + 5) / 6 ≤ w) →
                memWord t.hub.canopy.mem w = memWord s.hub.canopy.mem w)
            ∧ rd t.hub (t1sInst p 3) = (i + 1) % n ∧ ((t1s s.hub p).rxArmed = true → eventPending t.hub (0x74 + p) = true)
            ∧ (t1s t.hub p).rxArmed = false)
        ∧ (bit w0 47 = true → d ∉ s.hub.canopy.poison → d + 1 ∉ s.hub.canopy.poison → bits w0 10 0 < bs.length →
          ∃ t, exec (.t1sFrameReceive p bs true sfd) s = .next t
            ∧ memWord t.hub.canopy.mem d = BitVec.ofNat 48 (5 * 2 ^ 40 + m * 2 ^ 28 + bs.length % 2048)
            ∧ rd t.hub (t1sInst p 3) = (i + 1) % n
            ∧ rd t.hub (t1sStat p 0x0D) = min (rd s.hub (t1sStat p 0x0D) + 1) (2 ^ 32 - 1)))))

/-- R548 to R554, R560, R561, R564, R566, R567: a doorbell or poll reads an owned descriptor into the staging; a staged frame starts when the medium
and PLCA allow, is retried after a collision with a back-off below 2 to the min(n, 10), ends at the 16th or a late one, and is written
back when sent, whereupon settings written meanwhile act; the PLCA status follows the BEACONs, and the transmit opportunity passes from node to node. -/
def Obligations.T1sTransmitsUnderCsmaOrPlca : Prop :=
  (∀ (p : Fin 4) x s, x = t1s s.hub p → x.frame.isSome = true →
    (x.sending = false → x.backoff = none → t1sSends s.hub p = true → mediumTurn s.hub p = true →
      exec (.t1sTransmitAttempt p true) s
        = .next { s with hub := setT1s s.hub p { x with
            sending := true, sfd := busNs s.hub + 6400, inForce := (List.range 13).map fun k => rd s.hub (t1sCfg p k) } })
    ∧ (x.sending = true ∨ x.backoff.isSome = true ∨ t1sSends s.hub p = false ∨ mediumTurn s.hub p = false →
      ∀ free, exec (.t1sTransmitAttempt p free) s = .next s)
    ∧ exec (.t1sTransmitAttempt p false) s = .next s)
  ∧ (∀ (p : Fin 4) x f s, x = t1s s.hub p → x.frame = none → fifoTo s.hub 3 p = some f → t1sSends s.hub p = true →
    x.checked = false → (fifo s.hub f).errors = [] → ∀ ws, headPacket s.hub f = some ws → (ws.all fun w => !w.poison) = true →
    14 ≤ bits ((ws.map (·.data.toNat)).getD 0 0) 10 0 → bits ((ws.map (·.data.toNat)).getD 0 0) 10 0 ≤ t1sSet s.hub p 4 →
    ws.length = 2 + (bits ((ws.map (·.data.toNat)).getD 0 0) 10 0 + 5) / 6 → x.backoff = none → x.sending = false → mediumTurn s.hub p = true →
    ∃ t bs, exec (.t1sTransmitAttempt p true) s = .next t
      ∧ (t1s t.hub p).frame = some ⟨bs ++ List.replicate (60 - bs.length) 0, bs.length, none⟩ ∧ (t1s t.hub p).sending = true
      ∧ bs = (wordsBytes ((ws.drop 2).map (·.data))).take (bits ((ws.map (·.data.toNat)).getD 0 0) 10 0)
      ∧ (fifo t.hub f).mark = true ∧ (fifo t.hub f).words = (fifo s.hub f).words
      ∧ (fifo t.hub f).read = (fifo s.hub f).read + ws.length)
  ∧ (∀ (p : Fin 4) x n s, x = t1s s.hub p → x.sending = true → n = x.collided + 1 →
    (n < 16 → (∀ bs l, x.frame = some ⟨bs, l, none⟩ → fifoTo s.hub 3 p = none) → t1sSet s.hub p 5 = rd s.hub (t1sCfg p 5) →
      ∃ t r, exec (.t1sCollision p false) s = .next t ∧ r < 2 ^ min n 10
        ∧ t1s t.hub p = { x with sending := false, collided := n, backoff := some r, drawn := (t1s t.hub p).drawn, inForce := [] }
        ∧ rd t.hub (t1sStat p 6) = min (rd s.hub (t1sStat p 6) + 1) (2 ^ 32 - 1)
        ∧ KeptBut [(t1sStat p 6, t1sStat p 6)] s.hub t.hub)
    ∧ (∀ q bs l, n < 16 → x.frame = some ⟨bs, l, none⟩ → fifoTo s.hub 3 p = some q →
      ∃ t, exec (.t1sCollision p false) s = .next t ∧ (fifo t.hub q).read = 0 ∧ (fifo t.hub q).words = (fifo s.hub q).words
        ∧ (t1s t.hub p).collided = n ∧ (t1s t.hub p).frame = x.frame)
    ∧ (∀ q bs l, x.frame = some ⟨bs, l, none⟩ → fifoTo s.hub 3 p = some q → (fifo s.hub q).read ≤ (fifo s.hub q).words.length →
      (n = 16 → ∃ t, exec (.t1sCollision p false) s = .next t ∧ (t1s t.hub p).frame = none
        ∧ (fifo t.hub q).words = (fifo s.hub q).words.drop (fifo s.hub q).read ∧ (fifo t.hub q).mark = false
        ∧ rd t.hub (t1sStat p 8) = min (rd s.hub (t1sStat p 8) + 1) (2 ^ 32 - 1))
      ∧ (∃ t, exec (.t1sCollision p true) s = .next t ∧ (t1s t.hub p).frame = none
        ∧ (fifo t.hub q).words = (fifo s.hub q).words.drop (fifo s.hub q).read
        ∧ rd t.hub (t1sStat p 7) = min (rd s.hub (t1sStat p 7) + 1) (2 ^ 32 - 1))
      ∧ (∃ t, exec (.t1sTransmitDone p) s = .next t ∧ (t1s t.hub p).frame = none ∧ (t1s t.hub p).sending = false
        ∧ (t1s t.hub p).inForce = []
        ∧ (fifo t.hub q).words = (fifo s.hub q).words.drop (fifo s.hub q).read
        ∧ rd t.hub (t1sStat p 2) = min (rd s.hub (t1sStat p 2) + 1) (2 ^ 32 - 1)))
    ∧ (∀ bs l d i m, x.frame = some ⟨bs, l, some (d, i, m)⟩ → (ringBuffer s.hub p).isSome = true → s.hub.watch.armed = [] →
      (∃ t, exec (.t1sTransmitDone p) s = .next t ∧ (t1s t.hub p).frame = none
        ∧ memWord t.hub.canopy.mem d = BitVec.ofNat 48 (0 * 2 ^ 40 + min 16 n * 2 ^ 32 + l % 2048)
        ∧ memWord t.hub.canopy.mem (d + 2) = BitVec.ofNat 48 (x.sfd / 1000000000)
        ∧ (∀ w, w ∉ [d, d + 2, d + 3] → memWord t.hub.canopy.mem w = memWord s.hub.canopy.mem w)
        ∧ rd t.hub (t1sInst p 2) = (i + 1) % m % 2 ^ 48
        ∧ (x.txArmed = true → eventPending t.hub (0x70 + p) = true))
      ∧ (∃ t, exec (.t1sCollision p true) s = .next t ∧ (t1s t.hub p).frame = none
        ∧ memWord t.hub.canopy.mem d = BitVec.ofNat 48 (2 * 2 ^ 40 + min 16 n * 2 ^ 32 + l % 2048))))
  ∧ (∀ (p : Fin 4) late s, (t1s s.hub p).sending = false →
    exec (.t1sCollision p late) s = .next s ∧ exec (.t1sTransmitDone p) s = .next s)
  ∧ (∀ (p : Fin 4) x s, x = t1s s.hub p →
    (∀ r, x.backoff = some r → (∀ bs l, x.frame ≠ some ⟨bs, l, none⟩) →
      exec (.backoffExpiry p) s = .next { s with hub := setT1s s.hub p { x with backoff := none } })
    ∧ (∀ r bs l f ws, x.backoff = some r → x.frame = some ⟨bs, l, none⟩ → fifoTo s.hub 3 p = some f → headPacket s.hub f = some ws →
      ∃ t, exec (.backoffExpiry p) s = .next t ∧ (t1s t.hub p).backoff = none ∧ (fifo t.hub f).mark = true
        ∧ (fifo t.hub f).read = (fifo s.hub f).read + ws.length)
    ∧ (x.backoff = none → exec (.backoffExpiry p) s = .next s))
  ∧ (∀ (p : Fin 4) x i n d base len l off s, x = t1s s.hub p → x.frame = none → fifoTo s.hub 3 p = none → t1sAsleep s.hub p = false →
    txDescriptor s.hub p = some (d, i, n, base, len) → l = bits (memWord s.hub.canopy.mem d).toNat 10 0 →
    off = bits (memWord s.hub.canopy.mem (d + 1)).toNat 19 0 → 14 ≤ l → l ≤ t1sSet s.hub p 4 → off + (l + 5) / 6 ≤ len →
    d + 1 ∉ s.hub.canopy.poison → (∀ k, k < (l + 5) / 6 → base + off + k ∉ s.hub.canopy.poison) →
    (∀ path, WriteOpen path (0x3500 + p) 1 1 s.hub → ∃ t bs, exec (.transmitDoorbell path p 1) s = .next t ∧ t.hub.answer = .accepted
      ∧ bs = (wordsBytes ((List.range ((l + 5) / 6)).map fun k => memWord s.hub.canopy.mem (base + off + k))).take l
      ∧ t1s t.hub p = { x with frame := some ⟨bs ++ List.replicate (60 - bs.length) 0, bs.length, some (d, i, n)⟩,
                               collided := 0, checked := false, ringTurn := false, txStopped := false }
      ∧ t.hub.canopy = s.hub.canopy ∧ KeptBut pathRanges s.hub t.hub)
    ∧ (t1sOn s.hub p = true → ∃ t bs, exec (.pollInterval p) s = .next t
      ∧ bs = (wordsBytes ((List.range ((l + 5) / 6)).map fun k => memWord s.hub.canopy.mem (base + off + k))).take l
      ∧ t1s t.hub p = { x with frame := some ⟨bs ++ List.replicate (60 - bs.length) 0, bs.length, some (d, i, n)⟩,
                               collided := 0, checked := false, ringTurn := false, txStopped := false }
      ∧ { t.hub with t1s := s.hub.t1s } = s.hub)
    ∧ (t1sOn s.hub p = false → exec (.pollInterval p) s = .next s))
  ∧ (∀ (p : Fin 4) x s, x = t1s s.hub p →
    (t1sOn s.hub p = true → plcaEnabled s.hub p = true → t1sAsleep s.hub p = false →
      (plcaId s.hub p ≠ 0 → ∃ t, exec (.beacon p) s = .next t
        ∧ t1s t.hub p = { x with plca := true, lost := false, current := 0, burst := 0 } ∧ KeptBut eventRanges s.hub t.hub)
      ∧ (plcaId s.hub p = 0 → ∃ t, exec (.beacon p) s = .next t ∧ t.hub.t1s = s.hub.t1s
        ∧ rd t.hub (t1sStat p 0x0E) = min (rd s.hub (t1sStat p 0x0E) + 1) (2 ^ 32 - 1)
        ∧ KeptBut ((t1sStat p 0x0E, t1sStat p 0x0E) :: eventRanges) s.hub t.hub))
    ∧ (plcaEnabled s.hub p = false → exec (.beacon p) s = .next s)
    ∧ (t1sSends s.hub p = true → plcaEnabled s.hub p = true → plcaId s.hub p = 0 →
      exec (.beaconSend p) s = .next { s with hub := setT1s s.hub p { x with current := 0, burst := 0 } })
    ∧ (t1sSends s.hub p = false ∨ plcaEnabled s.hub p = false ∨ plcaId s.hub p ≠ 0 → exec (.beaconSend p) s = .next s)
    ∧ (plcaOk s.hub p = true → plcaId s.hub p ≠ 0 →
      exec (.toTimerExpiry p) s = .next { s with hub := setT1s s.hub p { x with current := x.current + 1, burst := 0 } })
    ∧ (plcaOk s.hub p = true → plcaId s.hub p = 0 → exec (.toTimerExpiry p) s
      = .next { s with hub := setT1s s.hub p { x with current := min (t1sSet s.hub p 6) (x.current + 1), burst := 0 } })
    ∧ (plcaOk s.hub p = false → exec (.toTimerExpiry p) s = .next s)
    ∧ (plcaEnabled s.hub p = true → plcaId s.hub p ≠ 0 → x.plca = true →
      ∃ t, exec (.plcaBeaconTimeout p) s = .next t ∧ t1s t.hub p = { x with plca := false, lost := true }
        ∧ rd t.hub (t1sStat p 9) = min (rd s.hub (t1sStat p 9) + 1) (2 ^ 32 - 1)
        ∧ KeptBut ((t1sStat p 9, t1sStat p 9) :: eventRanges) s.hub t.hub)
    ∧ (x.plca = false → exec (.plcaBeaconTimeout p) s = .next s))

/-! ### Host bridge -/

/-- R573 to R576, R578 to R581, R584, R592 to R594: a host write stores the bytes it enables, is refused piece by piece with a log entry each, or is
dropped when poisoned; a host read returns its slots or, by the read error mode, the pattern, Unsupported Request or Completer
Abort; atomics return the old value; the barrier read returns the failed writes; MSI-X messages leave in order; a reset ends
reads and sessions of the bridge only. A link that goes down reads as off or training, a free bit (assumption log 37). -/
def Obligations.HostAccessesAndBridgeResets : Prop :=
  (∀ off bs p req s, barServed s.hub = false →
    exec (.bar2Write off bs p req) s = .next s ∧ exec (.bar2Read off bs.length req) s = .next s ∧ exec .bridgeReset s = .next s
      ∧ exec (.hostLinkUp off req) s = .next s)
  ∧ (∀ off bs req s, barServed s.hub = true →
    ∃ t, exec (.bar2Write off bs true req) s = .next t ∧ eventPending t.hub 0x79 = true
      ∧ rd t.hub 0x4A00_0A = min (rd s.hub 0x4A00_0A + 1) (2 ^ 32 - 1)
      ∧ evented s.hub t.hub = t.hub ∧ KeptBut ((0x4A00_04, 0x4A00_04) :: (0x4A00_0A, 0x4A00_0A) :: eventRanges) s.hub t.hub)
  ∧ (∀ off bs req s, barServed s.hub = true → apertureShut s.hub = false → 6 ≤ off % 8 → off % 8 + bs.length ≤ 8 →
    exec (.bar2Write off bs false req) s = .next { s with hub := bump s.hub 0x4A00_04 })
  ∧ (∀ off bs req base s, barServed s.hub = true → apertureShut s.hub = false → off % 8 < 6 → 0 < bs.length → off % 8 + bs.length ≤ 8 →
    base = rd s.hub (0x2302_01 + 3 * (off / 2 ^ 26)) → off < 2 ^ 30 → off % 2 ^ 26 < rd s.hub (0x2302_02 + 3 * (off / 2 ^ 26)) →
    bits base 38 0 + off % 2 ^ 26 + 8 ≤ 8 * memWords → base < 2 ^ 39 → base % 8 = 0 → portItems s.hub 2 = [] →
    outCount s.hub 2 true < 256 → s.hub.sleep.holding = false → s.hub.watch.armed = [] →
    ∃ t, exec (.bar2Write off bs false req) s = .next t
      ∧ (∀ k, k < 6 → memByte t.hub.canopy.mem (base + off % 2 ^ 26 / 8 * 8 + k)
          = (if off % 8 ≤ k ∧ k < off % 8 + bs.length then bs.getD (k - off % 8) 0
             else memByte s.hub.canopy.mem (base + off % 2 ^ 26 / 8 * 8 + k)))
      ∧ (∀ a, a < base + off % 2 ^ 26 / 8 * 8 ∨ base + off % 2 ^ 26 / 8 * 8 + 8 ≤ a →
          memByte t.hub.canopy.mem a = memByte s.hub.canopy.mem a)
      ∧ KeptBut [(0x4001_08, 0x4001_08), (0x4A00_04, 0x4A00_04), (0x4A00_08, 0x4A00_08)] s.hub t.hub)
  ∧ (∀ off bs req s, barServed s.hub = true → apertureShut s.hub = false → off < 2 ^ 30 → off % 8 < 6 → off % 1024 + bs.length ≤ 1024 →
    0 < bs.length → rd s.hub (0x2302_02 + 3 * (off / 2 ^ 26)) ≤ off % 2 ^ 26 →
    ∃ t tag, exec (.bar2Write off bs false req) s = .next t ∧ rd t.hub 0x4A01_01 = off
      ∧ rd t.hub 0x4A01_02 = req % 65536 * 2 ^ 16 + tag * 2 ^ 8 + 0xC ∧ tag < 256
      ∧ rd t.hub 0x4301_01 = off ∧ rd t.hub 0x4301_02 = 2 * 256 + 0xC
      ∧ rd t.hub 0x4A00_06 = min (rd s.hub 0x4A00_06 + 1) (2 ^ 32 - 1) ∧ t.hub.host.logged = s.hub.host.logged + 1
      ∧ eventPending t.hub 0x78 = true ∧ t.hub.canopy = s.hub.canopy
      ∧ KeptBut ((0x4A00_04, 0x4A00_06) :: (0x4A01_01, 0x4A01_20) :: (0x4301_01, 0x4301_40) :: eventRanges) s.hub t.hub)
  ∧ (∀ off bs req s, barServed s.hub = true → apertureShut s.hub = false → off % 2 ^ 26 + bs.length < 2 ^ 26 → off < 2 ^ 30 → off % 8 < 6 →
    1024 < off % 1024 + bs.length → bs.length ≤ 1024 → rd s.hub (0x2302_02 + 3 * (off / 2 ^ 26)) ≤ off % 2 ^ 26 →
    ∃ t, exec (.bar2Write off bs false req) s = .next t ∧ rd t.hub 0x4A01_01 = off / 1024 * 1024 + 1024 ∧ rd t.hub 0x4A01_05 = off
      ∧ rd t.hub 0x4A00_06 = min (rd s.hub 0x4A00_06 + 2) (2 ^ 32 - 1) ∧ t.hub.canopy = s.hub.canopy)
  ∧ (∀ off bs req s, barServed s.hub = true → apertureShut s.hub = true → bootWindow s.hub = false →
    exec (.bar2Write off bs false req) s = .next { s with hub := bump s.hub 0x4A00_04 }
      ∧ ∃ t, exec (.bar2Read off bs.length req) s = .next t ∧ t.hub.answer = .unsupported
        ∧ KeptBut [(0x4A00_05, 0x4A00_05), (0x4A00_0B, 0x4A00_0B)] s.hub t.hub)
  ∧ (∀ off bs req s, barServed s.hub = true → bootWindow s.hub = true →
    (off + bs.length ≤ 0x800000 → s.hub.boot.control ≠ 1 → exec (.bar2Write off bs false req) s
      = .next { s with hub := { bump s.hub 0x4A00_04 with boot := { s.hub.boot with image := putBytes s.hub.boot.image off bs } } })
    ∧ (0x800008 ≤ off → exec (.bar2Write off bs false req) s = .next { s with hub := bump s.hub 0x4A00_04 }
      ∧ (0 < bs.length → ∃ t, exec (.bar2Read off bs.length req) s = .next t ∧ t.hub.answer = .unsupported
        ∧ KeptBut [(0x4A00_05, 0x4A00_05), (0x4A00_0B, 0x4A00_0B)] s.hub t.hub))
    ∧ (∃ t, exec (.bar2Read 0x800000 4 req) s = .next t ∧ t.hub.answer = .bytes (natBytes 4 s.hub.boot.control)
      ∧ KeptBut [(0x4A00_05, 0x4A00_05)] s.hub t.hub))
  ∧ (∀ off len req s, barServed s.hub = true → apertureShut s.hub = false → off < 2 ^ 30 → 0 < len → off % 8 + len ≤ 8 →
    rd s.hub (0x2302_02 + 3 * (off / 2 ^ 26)) ≤ off % 2 ^ 26 → s.hub.host.reads = [] →
    ∃ t, exec (.bar2Read off len req) s = .next t
      ∧ t.hub.answer = (if rd s.hub 0x2A01_03 = 0 then
            .bytes (((List.replicate 6 (0xFF : Byte) ++ [0x0C, 0xFF]).drop (off % 8)).take len)
          else if rd s.hub 0x2A01_03 = 1 then .unsupported else .completerAbort)
      ∧ rd t.hub 0x4A00_07 = min (rd s.hub 0x4A00_07 + 1) (2 ^ 32 - 1) ∧ t.hub.canopy = s.hub.canopy ∧ t.hub.host.reads = []
      ∧ KeptBut [(0x4A00_05, 0x4A00_05), (0x4A00_07, 0x4A00_07), (0x4A00_0B, 0x4A00_0B)] s.hub t.hub)
  ∧ (∀ off base a s, barServed s.hub = true → apertureShut s.hub = false → base = rd s.hub (0x2302_01 + 3 * (off / 2 ^ 26)) → off < 2 ^ 30 →
    off % 2 ^ 26 < rd s.hub (0x2302_02 + 3 * (off / 2 ^ 26)) → base < 2 ^ 39 → base % 8 = 0 → a = base + off % 2 ^ 26 / 8 * 8 →
    a + 8 ≤ 8 * memWords → portItems s.hub 2 = [] → outCount s.hub 2 false < readLimit s.hub 2 → s.hub.sleep.holding = false →
    s.hub.host.reads = [] → s.hub.watch.armed = [] →
    (∀ len req, 0 < len → off % 8 + len ≤ 8 → a / 8 ∉ s.hub.canopy.poison →
      ∃ t, exec (.bar2Read off len req) s = .next t
        ∧ t.hub.answer = .bytes (((natBytes 6 (memWord s.hub.canopy.mem (a / 8)).toNat ++ [0, 0]).drop (off % 8)).take len)
        ∧ t.hub.canopy.mem = s.hub.canopy.mem ∧ t.hub.host.reads = []
        ∧ KeptBut [(0x4001_08, 0x4001_08), (0x4A00_05, 0x4A00_05), (0x4A00_08, 0x4A00_08)] s.hub t.hub)
    ∧ (∀ req, off % 8 = 0 → a / 8 ∈ s.hub.canopy.poison →
      ∃ t, exec (.bar2Read off 8 req) s = .next t
        ∧ t.hub.answer = (if rd s.hub 0x2A01_03 = 0 then .poisoned (List.replicate 6 0xFF ++ [7, 0xFF])
            else if rd s.hub 0x2A01_03 = 1 then .unsupported else .completerAbort)
        ∧ rd t.hub 0x4A00_07 = min (rd s.hub 0x4A00_07 + 1) (2 ^ 32 - 1) ∧ t.hub.canopy.mem = s.hub.canopy.mem)
    ∧ (∀ v, off % 8 = 0 → v < 2 ^ 48 → a / 8 ∉ s.hub.canopy.poison →
      ∃ t, exec (.atomicFetchadd true off v) s = .next t
        ∧ t.hub.answer = .bytes (natBytes 6 (memWord s.hub.canopy.mem (a / 8)).toNat ++ [0, 0])
        ∧ memWord t.hub.canopy.mem (a / 8) = memWord s.hub.canopy.mem (a / 8) + BitVec.ofNat 48 v
        ∧ (∀ w, w ≠ a / 8 → memWord t.hub.canopy.mem w = memWord s.hub.canopy.mem w)
        ∧ KeptBut [(0x4001_08, 0x4001_08), (0x4A00_05, 0x4A00_05), (0x4A00_08, 0x4A00_08)] s.hub t.hub)
    ∧ (∀ e v, off % 8 = 0 → e < 2 ^ 48 → v < 2 ^ 48 → a / 8 ∉ s.hub.canopy.poison →
      ∃ t, exec (.atomicCas true off e v) s = .next t
        ∧ t.hub.answer = .bytes (natBytes 6 (memWord s.hub.canopy.mem (a / 8)).toNat ++ [0, 0])
        ∧ memWord t.hub.canopy.mem (a / 8) = (if memWord s.hub.canopy.mem (a / 8) = BitVec.ofNat 48 e then BitVec.ofNat 48 v
            else memWord s.hub.canopy.mem (a / 8))
        ∧ (∀ w, w ≠ a / 8 → memWord t.hub.canopy.mem w = memWord s.hub.canopy.mem w)
        ∧ KeptBut [(0x4001_08, 0x4001_08), (0x4A00_05, 0x4A00_05), (0x4A00_08, 0x4A00_08)] s.hub t.hub))
  ∧ (∀ b off e v s, barServed s.hub = true →
    (b = false ∨ off % 8 ≠ 0 → (∃ t, exec (.atomicFetchadd b off v) s = .next t ∧ t.hub.answer = .unsupported
        ∧ t.hub.canopy = s.hub.canopy ∧ KeptBut [(0x4A00_05, 0x4A00_05), (0x4A00_0B, 0x4A00_0B)] s.hub t.hub)
      ∧ (∃ t, exec (.atomicCas b off e v) s = .next t ∧ t.hub.answer = .unsupported ∧ t.hub.canopy = s.hub.canopy))
    ∧ (b = true → off % 8 = 0 → apertureShut s.hub = false → 2 ^ 48 ≤ v → (∃ t, exec (.atomicFetchadd b off v) s = .next t
        ∧ t.hub.answer = .completerAbort ∧ t.hub.canopy = s.hub.canopy ∧ KeptBut [(0x4A00_05, 0x4A00_05)] s.hub t.hub)
      ∧ (∃ t, exec (.atomicCas b off e v) s = .next t ∧ t.hub.answer = .completerAbort ∧ t.hub.canopy = s.hub.canopy)))
  ∧ (∀ a req tag st s, a < 2 ^ 48 →
    ∃ t, exec (.hostWriteFailure a req tag st) s = .next t ∧ rd t.hub 0x4A01_01 = a
      ∧ rd t.hub 0x4A01_02 = req % 65536 * 2 ^ 16 + tag % 256 * 2 ^ 8 + st % 256
      ∧ (∀ k, k < 28 → rd t.hub (0x4A01_05 + k) = rd s.hub (0x4A01_01 + k))
      ∧ rd t.hub 0x4301_01 = a ∧ rd t.hub 0x4A00_06 = min (rd s.hub 0x4A00_06 + 1) (2 ^ 32 - 1)
      ∧ t.hub.host.logged = s.hub.host.logged + 1 ∧ eventPending t.hub 0x78 = true
      ∧ KeptBut ((0x4A00_06, 0x4A00_06) :: (0x4A01_01, 0x4A01_20) :: (0x4301_01, 0x4301_40) :: eventRanges) s.hub t.hub)
  ∧ (∀ s, served s.hub .host = true → pathWaits s.hub .host = false →
    refusalCode (readCauses (readTouch .host 0x2A02 1 s.hub) 0x2A02 1) = none →
    portItems s.hub 2 = [] → s.hub.host.barrier = [] →
    (outCount s.hub 2 true = 0 → ∃ t, exec (.barrierRead .host) s = .next t ∧ t.hub.answer = .value s.hub.host.logged
      ∧ t.hub.host.logged = 0 ∧ t.hub.host.barrier = [] ∧ KeptBut [(0x4A00_05, 0x4A00_05), (0x4A00_08, 0x4A00_08)] s.hub t.hub)
    ∧ (outCount s.hub 2 true ≠ 0 → ∃ t, exec (.barrierRead .host) s = .next t ∧ t.hub.answer = .none
      ∧ t.hub.host.barrier = [{ qspi := none, before := [], width := 8, after := (0, 0) }] ∧ portItems t.hub 2 = [.barrier]
      ∧ t.hub.host.logged = s.hub.host.logged))
  ∧ (∀ p s, served s.hub p = true → pathWaits s.hub p = false → p ≠ .host →
    refusalCode (readCauses (readTouch p 0x2A02 1 s.hub) 0x2A02 1) = none →
    ∃ t, exec (.barrierRead p) s = .next t ∧ t.hub.answer = .refused 9 ∧ t.hub.host.barrier = s.hub.host.barrier
      ∧ KeptBut pathRanges s.hub t.hub)
  ∧ (∀ (v : Fin 32) s,
    (barServed s.hub = true → (s.hub.msix.filter fun x => !msixMasked s.hub x).head? = some v.val →
      exec (.msixMessage v) s = .next { s with hub := { s.hub with
        msix := s.hub.msix.erase v.val,
        answer := .bytes (natBytes 8 (msixEntry s.hub (2 * v.val)) ++ natBytes 4 (msixEntry s.hub (2 * v.val + 1))) } })
    ∧ (barServed s.hub = false ∨ (s.hub.msix.filter fun x => !msixMasked s.hub x).head? ≠ some v.val →
      exec (.msixMessage v) s = .next s))
  ∧ (∀ s, barServed s.hub = true →
    ∃ t, exec .bridgeReset s = .next t ∧ (∀ x ∈ t.hub.host.reads, x.qspi.isSome = true) ∧ t.hub.host.barrier = []
      ∧ (∀ a ∈ t.hub.host.waiting, heldPath a ≠ .host)
      ∧ t.hub.host.table = [] ∧ t.hub.hostHalf = { latch := none, half := none } ∧ (session t.hub .host).role = 0
      ∧ pathState t.hub .host = pathState State.reset.hub .host ∧ t.hub.canopy = s.hub.canopy ∧ mode t.hub = mode s.hub
      ∧ rd t.hub 0x4A00_01 < 2 ∧ rd t.hub 0x4A00_02 = 0 ∧ rd t.hub 0x4A00_03 = 0
      ∧ rd t.hub 0x4A00_0E = min (rd s.hub 0x4A00_0E + 1) (2 ^ 32 - 1)
      ∧ rd t.hub 0x4A00_09 = min (rd s.hub 0x4A00_09 + 1) (2 ^ 32 - 1) ∧ eventPending t.hub 0x7A = true
      ∧ KeptBut ((0x4A00_01, 0x4A00_03) :: (0x4A00_09, 0x4A00_09) :: (0x4A00_0E, 0x4A00_0E) :: eventRanges) s.hub t.hub)
  ∧ (∀ speed width s, barServed s.hub = true →
    ∃ t, exec (.hostLinkUp speed width) s = .next t ∧ rd t.hub 0x4A00_01 = 2 ∧ rd t.hub 0x4A00_02 = min speed (rd s.hub 0x2A01_01)
      ∧ rd t.hub 0x4A00_03 = min width (rd s.hub 0x2A01_02) ∧ eventPending t.hub 0x7B = true
      ∧ evented s.hub t.hub = t.hub ∧ KeptBut ((0x4A00_01, 0x4A00_03) :: eventRanges) s.hub t.hub)

/-- R578, R581, R588 to R592: a QSPI command of a wrong space, length or alignment is refused with 0x06, or discarded where it is a write; a slot of the
dictionary is read with status 0x00 or refused with 0x02; the aperture returns its data, or 0x01 with a tag that READ RESULT
redeems once; a full bridge answers 0x04, an unknown tag 0x05; a result not fetched in time is discarded and counted. Which
free tag is given is the model's choice, the lowest (assumption log 24). -/
def Obligations.QspiCommandsAreAnswered : Prop :=
  (∀ a e v bs len tag s, qspiServed s.hub = false →
    exec (.qspiWrite a bs) s = .next s ∧ exec (.qspiRead a len) s = .next s ∧ exec (.readResult tag) s = .next s
      ∧ exec (.qspiFetchAdd a v) s = .next s ∧ exec (.qspiCas a e v) s = .next s)
  ∧ (∀ a bs s, qspiServed s.hub = true →
    (a % 4 ≠ 0 ∨ bs.length % 4 ≠ 0 ∨ bs.length < 4 ∨ 256 < bs.length ∨ qspiOffset s.hub a = none →
      exec (.qspiWrite a bs) s = .next { s with hub := answered .none (bump s.hub 0x4A00_04) })
    ∧ (∀ off, a % 8 = 0 → bs.length = 8 → qspiSpace a = 0 → qspiOffset s.hub a = some off →
      exec (.qspiWrite a bs) s = exec (.dictionaryWrite .host (off / 2048) (off / 8 % 256) ⟨0, 8⟩ (bytesNat bs))
        { s with hub := answered .none (bump s.hub 0x4A00_04) })
    ∧ (∀ off hi, a % 4 = 0 → bs.length = 4 → qspiSpace a = 0 → qspiOffset s.hub a = some off → hi = (off % 8 == 4) →
      exec (.qspiWrite a bs) s = .next { s with
        hub := hostHalfWrite (off / 2048) (off / 8 % 256) hi (bytesNat bs) (answered .none (bump s.hub 0x4A00_04)) }))
  ∧ (∀ a off bs s, qspiServed s.hub = true → apertureShut s.hub = false → a = 2 ^ 30 + off → off < 2 ^ 30 → off % 4 = 0 →
    bs.length % 4 = 0 → 0 < bs.length → bs.length ≤ 256 → off % 1024 + bs.length ≤ 1024 →
    (off % 8 + bs.length ≤ 8 → ∀ base b, base = rd s.hub (0x2302_01 + 3 * (off / 2 ^ 26)) →
      off % 2 ^ 26 < rd s.hub (0x2302_02 + 3 * (off / 2 ^ 26)) → base < 2 ^ 39 → base % 8 = 0 → b = base + off % 2 ^ 26 / 8 * 8 →
      b + 8 ≤ 8 * memWords → portItems s.hub 2 = [] → outCount s.hub 2 true < 256 → s.hub.sleep.holding = false →
      s.hub.watch.armed = [] →
      ∃ t, exec (.qspiWrite a bs) s = .next t
        ∧ (∀ k, k < 6 → memByte t.hub.canopy.mem (b + k)
            = (if off % 8 ≤ k ∧ k < off % 8 + bs.length then bs.getD (k - off % 8) 0 else memByte s.hub.canopy.mem (b + k)))
        ∧ (∀ x, x < b ∨ b + 8 ≤ x → memByte t.hub.canopy.mem x = memByte s.hub.canopy.mem x))
    ∧ (rd s.hub (0x2302_02 + 3 * (off / 2 ^ 26)) ≤ off % 2 ^ 26 →
      ∃ t, exec (.qspiWrite a bs) s = .next t ∧ rd t.hub 0x4A01_01 = off ∧ rd t.hub 0x4A01_02 / 2 ^ 16 = 0
        ∧ rd t.hub 0x4A00_06 = min (rd s.hub 0x4A00_06 + 1) (2 ^ 32 - 1) ∧ eventPending t.hub 0x78 = true))
  ∧ (∀ a len s, qspiServed s.hub = true →
    (a % 4 ≠ 0 ∨ len % 4 ≠ 0 ∨ len < 4 ∨ 4096 < len ∨ qspiOffset s.hub a = none →
      exec (.qspiRead a len) s = .next { s with hub := answered (.bytes [6]) (bump s.hub 0x4A00_05) })
    ∧ (∀ off h, pathWaits s.hub .host = false → a % 8 = 0 → qspiSpace a = 0 → qspiOffset s.hub a = some off → off / 8 ≠ 0x2A02_01 →
      h = readSlot .host (off / 2048) (off / 8 % 256) (bump s.hub 0x4A00_05) →
      (∀ v, h.answer = .value v → exec (.qspiRead a 8) s = .next { s with hub := answered (.bytes (0 :: natBytes 8 v)) h })
      ∧ (∀ c, h.answer = .refused c →
        exec (.qspiRead a 8) s = .next { s with hub := answered (.bytes [2, BitVec.ofNat 8 c]) h }))
    ∧ (∀ off q, pathWaits s.hub .host = true → a % 4 = 0 → len % 4 = 0 → 4 ≤ len → len ≤ 4096 → qspiSpace a = 0 →
      qspiOffset s.hub a = some off → qspiTag s.hub = some q →
      ∃ t, exec (.qspiRead a len) s = .next t ∧ t.hub.answer = .bytes [1, BitVec.ofNat 8 q]
        ∧ t.hub.host.waiting = s.hub.host.waiting ++ [.hostRead (some q) [] off len])
    ∧ (∀ off q bs, pathWaits s.hub .host = false → qspiSpace a = 0 → qspiOffset s.hub a = some off → off = 8 * 0x2A02_01 → len = 16 →
      qspiTag s.hub = some q → portItems s.hub 2 = [] → outCount s.hub 2 true ≠ 0 → servedInBoot s.hub 0x2A02 1 = true →
      s.hub.host.barrier = bs →
      ∃ t, exec (.qspiRead a len) s = .next t ∧ t.hub.answer = .bytes [1, BitVec.ofNat 8 q] ∧ t.hub.host.logged = s.hub.host.logged
        ∧ t.hub.host.barrier = bs ++ [{ qspi := some q, before := [], width := 8, after := (off + 8, 8) }]))
  ∧ (∀ a off base b s, qspiServed s.hub = true → apertureShut s.hub = false → a = 2 ^ 30 + off → off < 2 ^ 30 → off % 8 = 0 →
    base = rd s.hub (0x2302_01 + 3 * (off / 2 ^ 26)) → off % 2 ^ 26 < rd s.hub (0x2302_02 + 3 * (off / 2 ^ 26)) →
    base < 2 ^ 39 → base % 8 = 0 → b = base + off % 2 ^ 26 / 8 * 8 → b + 8 ≤ 8 * memWords → qspiTag s.hub ≠ none →
    splitFull s.hub = false → portItems s.hub 2 = [] → s.hub.sleep.holding = false → s.hub.host.reads = [] →
    b / 8 ∉ s.hub.canopy.poison → s.hub.watch.armed = [] →
    (∃ t, exec (.qspiRead a 8) s = .next t
      ∧ t.hub.answer = .bytes (0 :: natBytes 6 (memWord s.hub.canopy.mem (b / 8)).toNat ++ [0, 0])
      ∧ t.hub.canopy.mem = s.hub.canopy.mem ∧ t.hub.host.results = s.hub.host.results)
    ∧ (∀ v, v < 2 ^ 48 → ∃ t, exec (.qspiFetchAdd a v) s = .next t
      ∧ t.hub.answer = .bytes (0 :: natBytes 6 (memWord s.hub.canopy.mem (b / 8)).toNat ++ [0, 0])
      ∧ memWord t.hub.canopy.mem (b / 8) = memWord s.hub.canopy.mem (b / 8) + BitVec.ofNat 48 v
      ∧ (∀ w, w ≠ b / 8 → memWord t.hub.canopy.mem w = memWord s.hub.canopy.mem w))
    ∧ (∀ e v, e < 2 ^ 48 → v < 2 ^ 48 → ∃ t, exec (.qspiCas a e v) s = .next t
      ∧ t.hub.answer = .bytes (0 :: natBytes 6 (memWord s.hub.canopy.mem (b / 8)).toNat ++ [0, 0])
      ∧ memWord t.hub.canopy.mem (b / 8) = (if memWord s.hub.canopy.mem (b / 8) = BitVec.ofNat 48 e then BitVec.ofNat 48 v
          else memWord s.hub.canopy.mem (b / 8))
      ∧ (∀ w, w ≠ b / 8 → memWord t.hub.canopy.mem w = memWord s.hub.canopy.mem w)))
  ∧ (∀ a off n base q s, qspiServed s.hub = true → apertureShut s.hub = false → a = 2 ^ 30 + off → off < 2 ^ 30 → off % 8 = 0 →
    base = rd s.hub (0x2302_01 + 3 * (off / 2 ^ 26)) → off % 2 ^ 26 < rd s.hub (0x2302_02 + 3 * (off / 2 ^ 26)) →
    base % 8 = 0 → isLogical base = false → bits base 38 0 + off % 2 ^ 26 < 2 ^ 39 → n = addrHub base → 0 < n → n < 255 →
    n ≠ hubNumber s.hub → reachable s.hub false n = true ∨ reachable s.hub true n = true →
    qspiTag s.hub = some q → splitFull s.hub = false → portItems s.hub 2 = [] → s.hub.sleep.holding = false →
    s.hub.host.reads = [] →
    ∃ t, exec (.qspiRead a 8) s = .next t ∧ t.hub.answer = .bytes [1, BitVec.ofNat 8 q]
      ∧ (∃ o, o ∈ t.hub.canopy.out ∧ o.req.port = 2 ∧ o.dest = n ∧ o.req.op = .read ∧ o.req.count = 1)
      ∧ (∃ u, exec (.readResult q) t = .next u ∧ u.hub = answered (.bytes [1]) t.hub))
  ∧ (∀ a v s, qspiServed s.hub = true → qspiSpace a = 1 → a < 2 ^ 32 → a % 8 = 0 → apertureShut s.hub = false → v < 2 ^ 48 →
    splitFull s.hub = true ∨ qspiTag s.hub = none →
    exec (.qspiRead a 8) s = .next { s with hub := answered (.bytes [4]) (bump s.hub 0x4A00_05) }
      ∧ exec (.qspiFetchAdd a v) s = .next { s with hub := answered (.bytes [4]) (bump s.hub 0x4A00_05) }
      ∧ exec (.qspiCas a v v) s = .next { s with hub := answered (.bytes [4]) (bump s.hub 0x4A00_05) })
  ∧ (∀ a e v s, qspiServed s.hub = true → a % 8 ≠ 0 ∨ qspiSpace a ≠ 1 ∨ 2 ^ 48 ≤ v →
    exec (.qspiFetchAdd a v) s = .next { s with hub := answered (.bytes [6]) (bump s.hub 0x4A00_05) }
      ∧ exec (.qspiCas a e v) s = .next { s with hub := answered (.bytes [6]) (bump s.hub 0x4A00_05) })
  ∧ (∀ q s, qspiServed s.hub = true →
    (∀ bs, s.hub.host.results.find? (fun e => e.1 == q) = some (q, bs) → ∃ t, exec (.readResult q) s = .next t
      ∧ t.hub.answer = .bytes bs ∧ t.hub.host = { s.hub.host with results := tabErase s.hub.host.results q }
      ∧ { t.hub with host := s.hub.host, answer := s.hub.answer } = s.hub)
    ∧ (q ∉ qspiTags s.hub → exec (.readResult q) s = .next { s with hub := answered (.bytes [5]) s.hub }))
  ∧ (∀ q s, (q ∈ s.hub.host.results.map (·.1) →
      ∃ t, exec (.resultHoldExpiry q) s = .next t ∧ t.hub.host.results = tabErase s.hub.host.results q
        ∧ rd t.hub 0x4A00_0C = min (rd s.hub 0x4A00_0C + 1) (2 ^ 32 - 1) ∧ KeptBut [(0x4A00_0C, 0x4A00_0C)] s.hub t.hub)
    ∧ (q ∉ s.hub.host.results.map (·.1) → exec (.resultHoldExpiry q) s = .next s))

/-! ### Dome -/

/-- R207, R605, R607 to R611, R613, R614: Dome takes the frame in front at its Belfry output, one with a poisoned word being discarded and
counted; a frame its class leaves open passes unsealed; one its class protects is sealed under the ring traffic key of
hub, class and epoch with the next counter, or discarded once the counter or the epoch is exhausted. A received frame opens
only if its tag verifies under a held or a candidate key; a context takes a new epoch only then; old epochs, unsealed frames
of protected classes and secured frames with no SRK are discarded and counted. -/
def Obligations.DomeSealsAndOpensFrames : Prop :=
  (∀ f s, domeFront s.hub ≠ some f → exec (.sealFrame f) s = .next s ∧ exec (.openFrame f) s = .next s)
  ∧ (∀ f s, domeFront s.hub = some f → f.poison ≠ [] → crossingShut s.hub 0 0x12 = false → (crossing s.hub 0 0x12).entries = [] →
    s.hub.watch.armed = [] → exec (.sealFrame f) s = .next { s with hub := bump (domeTaken f s.hub) 0x4200_17 }
      ∧ exec (.openFrame f) s = .next { s with hub := bump (domeTaken f s.hub) 0x4200_17 })
  ∧ (∀ f s, DomeReady f s.hub → (domeServes s.hub = false ∨ sealNeeded s.hub f = true ∧ s.hub.dome.persisted = false →
      exec (.sealFrame f) s = .next { s with hub := domeTaken f s.hub })
    ∧ (domeServes s.hub = true → sealNeeded s.hub f = false →
      exec (.sealFrame f) s = .next { s with hub := enqueue (domeTaken f s.hub) 5 f }))
  ∧ (∀ f t c k s, DomeReady f s.hub → domeServes s.hub = true → sealNeeded s.hub f = true → s.hub.dome.persisted = true → s.hub.dome.srk = some k →
    t = clsNum f.cls → c = (if tabGet (2 ^ 32) s.hub.dome.sendEpoch t = s.hub.dome.epoch then rd s.hub (0x4B00_06 + t) else 0) →
    (t ∉ s.hub.dome.exhausted → c < 2 ^ 48 - 1 → c + 1 ≠ 2 ^ 47 →
      ∃ u g, exec (.sealFrame f) s = .next u ∧ portFrames u.hub 5 = portFrames s.hub 5 ++ [g]
        ∧ g.secured = true ∧ g.confidential = (protection s.hub f.cls == 2) ∧ g.slot = t ∧ g.epoch = s.hub.dome.epoch
        ∧ g.counter = c ∧ { g with
            secured := f.secured, confidential := f.confidential, slot := f.slot, epoch := f.epoch, counter := f.counter,
            tag := f.tag, payload := f.payload } = f
        ∧ g.payload = (if protection s.hub f.cls = 2 then
            applyStream (ringKey k (hubNumber s.hub) t s.hub.dome.epoch) { g with payload := f.payload } else f.payload)
        ∧ g.tag = frameTag (ringKey k (hubNumber s.hub) t s.hub.dome.epoch) g
        ∧ rd u.hub (0x4B00_06 + t) = c + 1 ∧ rd u.hub 0x4B00_0B = min (rd s.hub 0x4B00_0B + 1) (2 ^ 32 - 1)
        ∧ u.hub.dome = { s.hub.dome with sendEpoch := u.hub.dome.sendEpoch }
        ∧ KeptBut [(0x4B00_06 + t, 0x4B00_06 + t), (0x4B00_0B, 0x4B00_0B)] s.hub u.hub)
    ∧ (t ∉ s.hub.dome.exhausted → c + 1 = 2 ^ 47 → s.hub.dome.next = none → s.hub.dome.epochValid = true →
      s.hub.dome.epoch + 1 < 2 ^ 32 →
      ∃ u g, exec (.sealFrame f) s = .next u ∧ portFrames u.hub 5 = portFrames s.hub 5 ++ [g] ∧ g.epoch = s.hub.dome.epoch
        ∧ (s.hub.dome.epoch + 1 < s.hub.dome.ceiling → u.hub.dome.epoch = s.hub.dome.epoch + 1 ∧ eventPending u.hub 0x81 = true)
        ∧ (s.hub.dome.ceiling ≤ s.hub.dome.epoch + 1 → u.hub.dome.epoch = s.hub.dome.epoch ∧ u.hub.dome.writing = true
          ∧ u.hub.dome.next = some (s.hub.dome.epoch + 1)))
    ∧ (t ∈ s.hub.dome.exhausted ∨ c = 2 ^ 48 - 1 →
      ∃ u, exec (.sealFrame f) s = .next u ∧ portFrames u.hub 5 = portFrames s.hub 5 ∧ t ∈ u.hub.dome.exhausted
        ∧ rd u.hub 0x4B00_12 = min (rd s.hub 0x4B00_12 + 1) (2 ^ 32 - 1) ∧ eventPending u.hub 0x82 = true
        ∧ KeptBut ((0x4B00_06 + t, 0x4B00_06 + t) :: (0x4B00_12, 0x4B00_12) :: eventRanges) s.hub u.hub))
  ∧ (∀ f s h, DomeReady f s.hub → h = domeTaken f s.hub →
    (s.hub.dome.srk = none → f.secured = true → exec (.openFrame f) s = .next { s with hub := bump h 0x4B00_0D })
    ∧ (∀ k, s.hub.dome.srk = some k → f.secured = false → protection s.hub f.cls ≠ 0 → sourceZeroControl f = false →
      exec (.openFrame f) s = .next { s with hub := bump h 0x4B00_0E })
    ∧ (f.secured = false → s.hub.dome.srk = none ∨ protection s.hub f.cls = 0 ∨ sourceZeroControl f = true →
      exec (.openFrame f) s = .next { s with
        hub := if (dupCheck f h).1 then enqueue (dupCheck f h).2 5 f else (dupCheck f h).2 }))
  ∧ (∀ f k c s, DomeReady f s.hub → s.hub.dome.srk = some k → domeServes s.hub = true → f.secured = true →
    findContext s.hub.dome.hardware f.src f.slot = some c → f.epoch ≤ c.epoch →
    (f.epoch ≠ c.epoch → c.prev ≠ some f.epoch →
      exec (.openFrame f) s = .next { s with hub := bump (putContext c (domeTaken f s.hub)) 0x4B00_0D })
    ∧ (f.epoch = c.epoch ∨ c.prev = some f.epoch →
      ∃ u, exec (.openFrame f) s = .next u ∧ findContext u.hub.dome.hardware f.src f.slot = some c
        ∧ (frameTag (ringKey k f.src f.slot f.epoch) f ≠ f.tag →
            portFrames u.hub 5 = portFrames s.hub 5 ∧ rd u.hub 0x4B00_0D = min (rd s.hub 0x4B00_0D + 1) (2 ^ 32 - 1)
            ∧ (s.hub.watch.rates = [] → eventPending u.hub 0x83 = true) ∧ KeptBut ((0x4B00_0D, 0x4B00_0D) :: eventRanges) s.hub u.hub)
        ∧ (frameTag (ringKey k f.src f.slot f.epoch) f = f.tag → (dupCheck f s.hub).1 = true →
            portFrames u.hub 5 = portFrames s.hub 5 ++ [if f.confidential then
              { f with payload := applyStream (ringKey k f.src f.slot f.epoch) f } else f]
            ∧ rd u.hub 0x4B00_0C = min (rd s.hub 0x4B00_0C + 1) (2 ^ 32 - 1) ∧ KeptBut [(0x4B00_0C, 0x4B00_0C)] s.hub u.hub)))
  ∧ (∀ f k s, DomeReady f s.hub → s.hub.dome.srk = some k → domeServes s.hub = true → f.secured = true →
    findContext s.hub.dome.hardware f.src f.slot = none →
    (findContext s.hub.dome.inner f.src f.slot = none →
      ∃ u, exec (.openFrame f) s = .next u ∧ rd u.hub 0x4B00_0F = min (rd s.hub 0x4B00_0F + 1) (2 ^ 32 - 1)
        ∧ (frameTag (ringKey k f.src f.slot f.epoch) f ≠ f.tag → u.hub.dome = s.hub.dome
          ∧ portFrames u.hub 5 = portFrames s.hub 5)
        ∧ (frameTag (ringKey k f.src f.slot f.epoch) f = f.tag → (dupCheck f s.hub).1 = true →
            findContext u.hub.dome.hardware f.src f.slot = some { src := f.src, slot := f.slot, epoch := f.epoch, prev := none }
            ∧ (portFrames u.hub 5).length = (portFrames s.hub 5).length + 1))
    ∧ (∀ c, findContext s.hub.dome.inner f.src f.slot = some c → f.epoch ≤ c.epoch →
      ∃ u, exec (.openFrame f) s = .next u ∧ findContext u.hub.dome.hardware f.src f.slot = some c
        ∧ findContext u.hub.dome.inner f.src f.slot = none
        ∧ rd u.hub 0x4B00_10 = min (rd s.hub 0x4B00_10 + 1) (2 ^ 32 - 1)))
  ∧ (∀ f k c s, DomeReady f s.hub → s.hub.dome.srk = some k → domeServes s.hub = true → f.secured = true →
    findContext s.hub.dome.hardware f.src f.slot = some c → c.epoch < f.epoch →
    ∃ u, exec (.openFrame f) s = .next u ∧ rd u.hub 0x4B00_0F = min (rd s.hub 0x4B00_0F + 1) (2 ^ 32 - 1)
      ∧ findContext u.hub.dome.hardware f.src f.slot
          = some (if frameTag (ringKey k f.src f.slot f.epoch) f = f.tag then
              { src := f.src, slot := f.slot, epoch := f.epoch, prev := some c.epoch } else c))
  ∧ (∀ src slot s, ∃ t, exec (.epochGraceExpiry src slot) s = .next t
      ∧ { t.hub with dome := { t.hub.dome with hardware := s.hub.dome.hardware, inner := s.hub.dome.inner } } = s.hub
      ∧ (∀ c ∈ t.hub.dome.hardware ++ t.hub.dome.inner, c.src = src → c.slot = slot → c.prev = none)
      ∧ t.hub.dome.hardware.map (fun c => (c.src, c.slot, c.epoch)) = s.hub.dome.hardware.map (fun c => (c.src, c.slot, c.epoch)))

/-- R602 to R604, R606, R607: an advance takes the next epoch at once below the ceiling, and waits for the ceiling's flash writes from there on;
a failed write raises FLT_DOME_EPOCH, keeps the epoch and is tried again; the epoch 2 to the 32, less 1, exhausts every context. -/
def Obligations.EpochsAdvanceBelowTheCeiling : Prop :=
  (∀ p d e s, d = s.hub.dome → e = (if d.epochValid then d.epoch + 1 else d.ceiling) → d.next = none →
    (d.epochValid = true → d.epoch < 2 ^ 32 - 1) →
    (e < d.ceiling →
      (rd s.hub 0x2B01_05 ≠ 0 → ∃ t, exec .rekeyIntervalExpiry s = .next t
        ∧ t.hub.dome = { d with
            epoch := e, epochValid := true, next := none, writing := false, rekeying := false, persisted := true,
            exhausted := [], challenges := 0 }
        ∧ rd t.hub 0x4B00_11 = min (rd s.hub 0x4B00_11 + 1) (2 ^ 32 - 1) ∧ eventPending t.hub 0x81 = true
        ∧ evented { s.hub with dome := t.hub.dome } t.hub = t.hub
        ∧ KeptBut ((0x4B00_11, 0x4B00_11) :: eventRanges) s.hub t.hub)
      ∧ (WriteOpen p 0x2B04 1 1 s.hub → domeServes s.hub = true → ∃ t, exec (.epochAdvance p) s = .next t
        ∧ t.hub.answer = .accepted ∧ t.hub.dome = { d with
            epoch := e, epochValid := true, next := none, writing := false, rekeying := false, persisted := true,
            exhausted := [], challenges := 0 }
        ∧ eventPending t.hub 0x81 = true ∧ KeptBut ((0x4B00_11, 0x4B00_11) :: pathRanges) s.hub t.hub))
    ∧ (d.ceiling ≤ e →
      (rd s.hub 0x2B01_05 ≠ 0 → exec .rekeyIntervalExpiry s
        = .next { s with hub := { s.hub with dome := { d with next := some e, rekeying := true, writing := true } } })
      ∧ (WriteOpen p 0x2B04 1 1 s.hub → domeServes s.hub = true → ∃ t, exec (.epochAdvance p) s = .next t
        ∧ t.hub.answer = .accepted ∧ t.hub.dome = { d with next := some e, rekeying := true, writing := true }
        ∧ KeptBut pathRanges s.hub t.hub)))
  ∧ (∀ s, rd s.hub 0x2B01_05 = 0 ∨ s.hub.dome.next ≠ none → exec .rekeyIntervalExpiry s = .next s)
  ∧ (∀ s, rd s.hub 0x2B01_05 ≠ 0 → s.hub.dome.next = none → s.hub.dome.epochValid = true → s.hub.dome.epoch = 2 ^ 32 - 1 →
    ∃ t, exec .rekeyIntervalExpiry s = .next t ∧ t.hub.dome = { s.hub.dome with exhausted := [0, 1, 2, 3] }
      ∧ recordHeld t.hub 0x13 = true ∧ KeptBut faultRanges s.hub t.hub)
  ∧ (∀ p s, WriteOpen p 0x2B04 1 1 s.hub → domeServes s.hub = false →
    ∃ t, exec (.epochAdvance p) s = .next t ∧ t.hub.answer = .refused 0x0A ∧ t.hub.dome = s.hub.dome ∧ KeptBut pathRanges s.hub t.hub)
  ∧ (∀ e s, s.hub.dome.next = some e → s.hub.dome.writing = true →
    (∃ t, exec (.ceilingWriteDone true) s = .next t ∧ t.hub.dome = { s.hub.dome with
          epoch := e, ceiling := e + 16, epochValid := true, next := none, writing := false, rekeying := false, persisted := true,
          exhausted := [], challenges := 0 }
      ∧ (s.hub.dome.rekeying = true → eventPending t.hub 0x81 = true
        ∧ rd t.hub 0x4B00_11 = min (rd s.hub 0x4B00_11 + 1) (2 ^ 32 - 1))
      ∧ KeptBut ((0x4B00_11, 0x4B00_11) :: faultRanges) s.hub t.hub)
    ∧ (∃ t, exec (.ceilingWriteDone false) s = .next t ∧ t.hub.dome = { s.hub.dome with writing := false }
      ∧ recordHeld t.hub 0x13 = true ∧ KeptBut faultRanges s.hub t.hub))
  ∧ (∀ ok s, s.hub.dome.next = none ∨ s.hub.dome.writing = false → exec (.ceilingWriteDone ok) s = .next s)
  ∧ (∀ s, (s.hub.dome.next = none → exec .epochWriteRetry s = .next s)
    ∧ (s.hub.dome.next ≠ none →
      exec .epochWriteRetry s = .next { s with hub := { s.hub with dome := { s.hub.dome with writing := true } } }))

/-- R600, R617 to R619, R622 to R627: a role request places a challenge, the right response within 10 s opens the session, the third wrong one
closes the path; sessions end on request, idle or zeroisation. Installation takes an SRK only where none is installed and the
record unwraps; self-tests that fail put Dome in its error state; zeroisation and tamper erase keys, contexts and sessions,
blow one fuse and keep the epoch records. -/
def Obligations.RolesKeysAndZeroisation : Prop :=
  (∀ p s, WriteOpen p 0x2B02 1 0 s.hub →
    ∃ t, exec (.sessionEnd p) s = .next t ∧ t.hub.answer = .accepted ∧ (session t.hub p).role = 0
      ∧ (session t.hub p).challenge = none ∧ (∀ q, pathKey q ≠ pathKey p → session t.hub q = session s.hub q)
      ∧ KeptBut pathRanges s.hub t.hub)
  ∧ (∀ p i r s, (i = .operatorRoleRequest p ∧ r = 1 ∨ i = .cryptoOfficerRoleRequest p ∧ r = 2) → WriteOpen p 0x2B02 1 r s.hub →
    ((session s.hub p).closed = false → domeServes s.hub = true →
      ∃ t, exec i s = .next t ∧ t.hub.answer = .accepted ∧ (session t.hub p).challenge
          = some (r, s.hub.dome.epoch % 2 ^ 32 * 2 ^ 16 + s.hub.dome.challenges % 65536, nowNs s.hub % 2 ^ 48, nowNs s.hub)
        ∧ (session t.hub p).role = (session s.hub p).role
        ∧ t.hub.dome = { s.hub.dome with challenges := s.hub.dome.challenges + 1 } ∧ KeptBut pathRanges s.hub t.hub)
    ∧ ((session s.hub p).closed = true →
      ∃ t, exec i s = .next t ∧ t.hub.answer = .refused 8 ∧ (session t.hub p).challenge = (session s.hub p).challenge
        ∧ t.hub.dome = s.hub.dome ∧ KeptBut pathRanges s.hub t.hub))
  ∧ (∀ p bs role w0 w1 t0 x s, WriteOpen p 0x2B02 4 (bytesNat bs) s.hub → x = session s.hub p → x.challenge = some (role, w0, w1, t0) →
    nowNs s.hub < t0 + 10000000000 → bs.length = 16 →
    ∃ t, exec (.responseWrite p bs) s = .next t ∧ t.hub.answer = .accepted ∧ (session t.hub p).challenge = none
      ∧ ((roleKey s.hub role).map (fun k => cmacBytes k (challengeBytes p role w0 w1)) = some bs →
          (session t.hub p).role = role ∧ (session t.hub p).failures = 0 ∧ (session t.hub p).lastAccess = nowNs s.hub
          ∧ KeptBut pathRanges s.hub t.hub)
      ∧ ((roleKey s.hub role).map (fun k => cmacBytes k (challengeBytes p role w0 w1)) ≠ some bs →
          (session t.hub p).role = x.role ∧ (session t.hub p).closed = (x.closed || x.failures == 2)
          ∧ (session t.hub p).failures = (if x.failures = 2 then 0 else x.failures + 1)
          ∧ rd t.hub 0x4B00_17 = min (rd s.hub 0x4B00_17 + 1) (2 ^ 32 - 1) ∧ eventPending t.hub 0x84 = true
          ∧ KeptBut ((0x4B00_17, 0x4B00_17) :: pathRanges) s.hub t.hub))
  ∧ (∀ p bs s, WriteOpen p 0x2B02 4 (bytesNat bs) s.hub → challengeOpen s.hub p = false → bs.length = 16 →
    ∃ t, exec (.responseWrite p bs) s = .next t ∧ t.hub.answer = .refused 0x0A ∧ (session t.hub p).role = (session s.hub p).role
      ∧ KeptBut pathRanges s.hub t.hub)
  ∧ (∀ p s, exec (.challengeExpiry p) s
      = .next { s with hub := setSession s.hub p { session s.hub p with challenge := none } })
  ∧ (∀ p s, exec (.roleLockoutExpiry p) s
      = .next { s with hub := setSession s.hub p { session s.hub p with closed := false } })
  ∧ (∀ p s,
    ((session s.hub p).lastAccess + rd s.hub 0x2B02_08 * 1000000000 ≤ nowNs s.hub → exec (.sessionIdleTimeout p) s
        = .next { s with hub := setSession s.hub p { session s.hub p with role := 0, challenge := none } })
    ∧ (nowNs s.hub < (session s.hub p).lastAccess + rd s.hub 0x2B02_08 * 1000000000 → exec (.sessionIdleTimeout p) s = .next s))
  ∧ (∀ p s, WriteOpen p 0x2B03 8 1 s.hub → domeServes s.hub = true →
    (s.hub.dome.srk = none → mode s.hub = 2 ∨ mode s.hub = 7 →
      ∃ t, exec (.installCommand p 1) s = .next t ∧ KeptBut pathRanges s.hub t.hub
        ∧ t.hub.dome = { s.hub.dome with srk := Config.kwpUnwrap (installKey s.hub) (wrappedSrk s.hub) }
        ∧ (Config.kwpUnwrap (installKey s.hub) (wrappedSrk s.hub) = none → t.hub.answer = .refused 4)
        ∧ (Config.kwpUnwrap (installKey s.hub) (wrappedSrk s.hub) ≠ none →
            t.hub.answer = .accepted ∧ eventPending t.hub 0x80 = true))
    ∧ (s.hub.dome.srk ≠ none → ∃ t, exec (.installCommand p 1) s = .next t ∧ t.hub.answer = .refused 4
      ∧ t.hub.dome = s.hub.dome ∧ KeptBut pathRanges s.hub t.hub))
  ∧ (∀ p r s, WriteOpen p 0x2B04 1 2 s.hub → domeServes s.hub = true → s.hub.dome.generation < 32 →
    ∃ t, exec (.selfTests p r) s = .next t ∧ t.hub.answer = .accepted ∧ rd t.hub 0x4B00_0A = r % 1024 ∧ t.hub.dome = s.hub.dome
      ∧ (r % 1024 = 0x3FF → rd t.hub 0x4B00_02 = 2
        ∧ KeptBut ((0x4B00_0A, 0x4B00_0A) :: (0x4B00_02, 0x4B00_02) :: pathRanges) s.hub t.hub)
      ∧ (r % 1024 ≠ 0x3FF → rd t.hub 0x4B00_02 = 3 ∧ rd t.hub 0x2000_11 = 6 ∧ recordHeld t.hub 0x14 = true
        ∧ KeptBut ((0x4B00_0A, 0x4B00_0A) :: (0x4B00_02, 0x4B00_02) :: (0x2000_11, 0x2000_11)
            :: (pathRanges ++ faultRanges)) s.hub t.hub))
  ∧ (∀ p kind s i, (i = .zeroise p ∧ WriteOpen p 0x2B04 1 3 s.hub ∧ domeServes s.hub = true ∧ rd s.hub 0x2B04_02 = 0x6F72657A
      ∨ i = .tamperEvent kind) →
    ∃ t, exec i s = .next t ∧ t.hub.dome.srk = none ∧ t.hub.dome.hardware = [] ∧ t.hub.dome.inner = [] ∧ t.hub.dome.saved = []
      ∧ t.hub.dome.generation = min 32 (s.hub.dome.generation + 1) ∧ (∀ q, (session t.hub q).role = 0)
      ∧ t.hub.dome.epoch = s.hub.dome.epoch ∧ t.hub.dome.ceiling = s.hub.dome.ceiling
      ∧ t.hub.dome.epochValid = s.hub.dome.epochValid ∧ (∀ c, t.hub.copyA = some c ∨ t.hub.copyB = some c → c.marked = true)
      ∧ (∀ k, k < 4 → rd t.hub (0x4B00_06 + k) = 0) ∧ eventPending t.hub 0x86 = true
      ∧ rd t.hub 0x4B00_14 = timeSec (replica s.hub 0x12) % 2 ^ 48
      ∧ (31 ≤ s.hub.dome.generation → rd t.hub 0x4B00_02 = 3)
      ∧ (i = .tamperEvent kind → recordHeld t.hub 0x15 = true ∧ rd t.hub 0x4B00_13 = min (rd s.hub 0x4B00_13 + 1) (2 ^ 32 - 1))
      ∧ KeptBut ((0x4B00_02, 0x4B00_02) :: (0x4B00_06, 0x4B00_09) :: (0x4B00_13, 0x4B00_15) :: (0x2B04_02, 0x2B04_02)
          :: (pathRanges ++ faultRanges)) s.hub t.hub)
  ∧ (∀ p s, WriteOpen p 0x2B04 1 3 s.hub → domeServes s.hub = true → rd s.hub 0x2B04_02 ≠ 0x6F72657A →
    ∃ t, exec (.zeroise p) s = .next t ∧ t.hub.answer = .refused 4 ∧ t.hub.dome = s.hub.dome ∧ KeptBut pathRanges s.hub t.hub)

/-! ### Fuse channels -/

/-- R635, R641 to R645, R648, R651, R652, R654, R656, R657: a request starts a soft-start where R641 holds and takes the channel off; the gate
command rises by 8, then follows the regulation; power-good ends in ON; a trip drives the gate low, is recorded and leads to a
cool-down, LOCKOUT or SUSPECT; a cool-down ends in a retry attempt or in OFF; a window without a trip clears F; presence acts as
its table says; a round samples, moves the model and trips on its temperature; a shorted FET is reported. -/
def Obligations.FuseChannelsStartTripAndRetry : Prop :=
  (∀ (n : Fin 16) s, FuseReady n s.hub →
    (fuseState s.hub n = 1 → fuseCool s.hub n = true → ∃ t, exec (.onRequestChange n true) s = .next t ∧ fuseState t.hub n = 2
      ∧ (fuse t.hub n).t0 = busNs s.hub ∧ (fuse t.hub n).g = 0 ∧ (∀ m, m ≠ n.val → fuse t.hub m = fuse s.hub m)
      ∧ { t.hub with dict := s.hub.dict, fuses := s.hub.fuses } = s.hub ∧ KeptBut [(fuseKey n 1, fuseKey n 2)] s.hub t.hub)
    ∧ (fuseState s.hub n = 1 → fuseCool s.hub n = false → ∃ t, exec (.onRequestChange n true) s = .next t
      ∧ fuseState t.hub n = 1 ∧ (fuse t.hub n).startHeld = true
      ∧ ((fuse s.hub n).startHeld = false → s.hub.watch.rates = [] → eventPending t.hub 0x8C = true)
      ∧ KeptBut ((fuseKey n 2, fuseKey n 2) :: eventRanges) s.hub t.hub)
    ∧ (fuseActive (fuseState s.hub n) = true → ∃ t, exec (.onRequestChange n false) s = .next t ∧ fuseState t.hub n = 1
      ∧ gateCommand t.hub n = 0 ∧ (fuse t.hub n).coolEnd = (fuse s.hub n).coolEnd ∧ KeptBut [(fuseKey n 1, fuseKey n 2)] s.hub t.hub))
  ∧ (∀ (n : Fin 16) lim c s, c = fuse s.hub n →
    (fuseState s.hub n = 2 → sampledWithin c 200000 = true → (rd s.hub (fuseCfg n 7) : Int) ≤ signed (rd s.hub (fuseKey n 7)) →
      ∃ t, exec (.softStartStep n lim) s = .next t ∧ fuseState t.hub n = 3 ∧ fuse t.hub n = { c with tr := busNs s.hub }
        ∧ KeptBut [(fuseKey n 1, fuseKey n 1)] s.hub t.hub)
    ∧ (fuseState s.hub n = 2 → sampledWithin c 200000 = false ∨ signed (rd s.hub (fuseKey n 7)) < rd s.hub (fuseCfg n 7) →
      exec (.softStartStep n lim) s = .next { s with hub := setFuse s.hub n { c with g := min 1023 (c.g + 8) } })
    ∧ (fuseState s.hub n = 3 → sampledWithin c (rd s.hub (fuseCfg n 5) * 1000) = true →
      rd s.hub (fuseCfg n 6) * rd s.hub (fuseKey n 6) ≤ 100 * rd s.hub (fuseKey n 5) →
      ∃ t, exec (.softStartStep n lim) s = .next t ∧ fuseState t.hub n = 4 ∧ (s.hub.watch.backstop = false → gateCommand t.hub n = 1024)
        ∧ (s.hub.watch.rates = [] → eventPending t.hub 0x88 = true) ∧ KeptBut ((fuseKey n 1, fuseKey n 1) :: eventRanges) s.hub t.hub)
    ∧ (fuseState s.hub n = 3 → sampledWithin c (rd s.hub (fuseCfg n 5) * 1000) = false
        ∨ 100 * rd s.hub (fuseKey n 5) < rd s.hub (fuseCfg n 6) * rd s.hub (fuseKey n 6) →
      exec (.softStartStep n lim) s = .next { s with hub := setFuse s.hub n { c with
        g := if lim then c.g - 1
          else if rd s.hub (fuseKey n 5) * (rd s.hub (fuseCfg n 5) * 800)
            < rd s.hub (fuseKey n 6) * min (rd s.hub (fuseCfg n 5) * 800) (busNs s.hub - c.tr) then min 1023 (c.g + 1) else c.g } })
    ∧ (fuseState s.hub n ≠ 2 → fuseState s.hub n ≠ 3 → exec (.softStartStep n lim) s = .next s))
  ∧ (∀ (n : Fin 16) i cause ok s, (i = .fastComparatorTrip n ∧ cause = 1 ∧ ok = fuseActive (fuseState s.hub n)
      ∨ i = .rampTimeout n ∧ cause = 4 ∧ ok = (fuseState s.hub n == 3)
      ∨ i = .overcurrentDelayExpiry n ∧ cause = 3 ∧ ok = (fuseState s.hub n == 4 && (fuse s.hub n).overSince.isSome)) →
    (ok = true → ∃ t, exec i s = .next t ∧ FuseTripped n cause s.hub t.hub)
    ∧ (ok = false → exec i s = .next s))
  ∧ (∀ (n : Fin 16) s,
    (fuseState s.hub n = 2 → ∃ t, exec (.gateSuspectTimeout n) s = .next t ∧ fuseState t.hub n = 7 ∧ gateCommand t.hub n = 0
      ∧ rd t.hub (fuseKey n 0x0D) = 5 ∧ rd t.hub (fuseKey n 0x0A) = rd s.hub (fuseKey n 0x0A)
      ∧ rd t.hub 0x4C00_05 = min (rd s.hub 0x4C00_05 + 1) (2 ^ 32 - 1) ∧ recordHeld t.hub 0x16 = true
      ∧ faulted s.hub t.hub = t.hub ∧ KeptBut ((0x4C00_03, 0x4C00_05) :: faultRanges) s.hub t.hub)
    ∧ (fuseState s.hub n ≠ 2 → exec (.gateSuspectTimeout n) s = .next s))
  ∧ (∀ (n : Fin 16) c s, c = fuse s.hub n →
    (fuseState s.hub n = 5 → fuseStartable s.hub n = true → fuseCool s.hub n = true →
      ∃ t, exec (.cooldownExpiry n) s = .next t ∧ fuseState t.hub n = 2 ∧ (fuse t.hub n).coolEnd = none
        ∧ (fuse t.hub n).t0 = busNs s.hub ∧ (fuse t.hub n).retryEnd = some (busNs s.hub + rd s.hub (fuseCfg n 8) * 10000)
        ∧ KeptBut [(fuseKey n 1, fuseKey n 1)] s.hub t.hub)
    ∧ (fuseState s.hub n = 5 → fuseStartable s.hub n = false ∨ fuseCool s.hub n = false →
      ∃ t, exec (.cooldownExpiry n) s = .next t ∧ fuseState t.hub n = (if fusePresent s.hub n then 1 else 8)
        ∧ (fuse t.hub n).coolEnd = none ∧ KeptBut ((fuseKey n 1, fuseKey n 1) :: eventRanges) s.hub t.hub)
    ∧ (fuseState s.hub n ≠ 5 →
      exec (.cooldownExpiry n) s = .next { s with hub := setFuse s.hub n { c with coolEnd := none } })
    ∧ (c.retryEnd ≠ none → ∃ t, exec (.retryWindowExpiry n) s = .next t ∧ rd t.hub (fuseKey n 0x0A) = 0
        ∧ fuse t.hub n = { c with retryEnd := none } ∧ KeptBut [(fuseKey n 0x0A, fuseKey n 0x0A)] s.hub t.hub)
    ∧ (c.retryEnd = none → exec (.retryWindowExpiry n) s = .next s))
  ∧ (∀ (n : Fin 16) present c st s, c = fuse s.hub n → st = fuseState s.hub n →
    (bit (rd s.hub (fuseCfg n 0x0A)) 0 = false ∨ c.present = present →
      exec (.presenceChange n present) s = .next { s with hub := setFuse s.hub n { c with present } })
    ∧ (bit (rd s.hub (fuseCfg n 0x0A)) 0 = true → c.present = !present →
      ∃ t, exec (.presenceChange n present) s = .next t ∧ (fuse t.hub n).present = present ∧ rd t.hub (fuseKey n 0x0A) = 0
        ∧ (s.hub.watch.rates = [] → eventPending t.hub 0x8B = true)
        ∧ (present = false → (st = 4 → fuseState t.hub n = 8 ∧ (fuse t.hub n).coolEnd = c.coolEnd)
          ∧ (st = 2 ∨ st = 3 → fuseState t.hub n = 5 ∧ (fuse t.hub n).coolEnd = some (busNs s.hub + rd s.hub (fuseCfg n 8) * 1000000))
          ∧ (st = 1 → fuseState t.hub n = 8))
        ∧ (present = true → st = 8 → fuseRequest s.hub n = false → fuseState t.hub n = 1)
        ∧ (present = true → st = 8 → fuseRequest s.hub n = true → fuseCool s.hub n = true → rdB s.hub (fuseCfg n 1) = true →
            fuseAllowed s.hub n = true → fuseHeldOff s.hub n = false → fuseFrozen s.hub n = false → fuseState t.hub n = 2)
        ∧ (st = 0 ∨ st = 5 ∨ st = 6 ∨ st = 7 → fuseState t.hub n = st ∧ (fuse t.hub n).coolEnd = c.coolEnd)
        ∧ KeptBut ((fuseKey n 1, fuseKey n 1) :: (fuseKey n 0x0A, fuseKey n 0x0A) :: eventRanges) s.hub t.hub))
  ∧ (∀ xs ain die n x s, xs.length ≤ 16 → xs[n]? = some x → (∀ m, (fuse s.hub m).shorted = false) →
    ∃ t, exec (.conversionRound xs ain die) s = .next t
      ∧ rd t.hub (fuseKey n 4) = fuseCurrent s.hub n x.current % 2 ^ 48
      ∧ rd t.hub (fuseKey n 5) = (fuseVoltage s.hub n 0x0F x.vout).toNat % 2 ^ 48
      ∧ rd t.hub (fuseKey n 6) = (fuseVoltage s.hub n 0x10 x.vin).toNat % 2 ^ 48
      ∧ (∃ d num den : Int, num = 2 ^ 48 * (((rd t.hub (fuseKey n 6) - rd t.hub (fuseKey n 5) : Nat) : Int) * rd t.hub (fuseKey n 4)
            * signed (rd s.hub (fuseModel n 1)) - 1000000 * (signed (rd s.hub (fuseKey n 8)) - signed (rd s.hub (fuseKey n 9))))
          ∧ den = 50000000000 * signed (rd s.hub (fuseModel n 1)) * signed (rd s.hub (fuseModel n 2))
          ∧ (d = num / den ∨ num % den ≠ 0 ∧ d = num / den + 1)
          ∧ rd t.hub (fuseKey n 8) = unsigned (signed (rd s.hub (fuseKey n 8)) + d) % 2 ^ 48)
      ∧ (fuseActive (fuseState s.hub n) = true → signed (rd s.hub (fuseModel n 6)) ≤ signed (rd t.hub (fuseKey n 8)) →
          rd t.hub (fuseKey n 0x0D) = 2 ∧ (fuseState t.hub n = 5 ∨ fuseState t.hub n = 6) ∧ gateCommand t.hub n = 0)
      ∧ t.hub.adc.samples = (if s.hub.cyc.running then s.hub.adc.samples else [])
          ++ [(busNs s.hub, (List.range 8).map fun k => ain.getD k 0 % 4096)]
      ∧ ((∃ d ∈ (List.range 4).map (fun k => die.getD k 0), (rd s.hub 0x2E03_03 : Int) < d) → recordHeld t.hub 0x1D = true)
      ∧ KeptBut ((0x4C00_03, 0x4C00_04) :: faultRanges) s.hub t.hub)
  ∧ (∀ (n : Fin 16) s,
    (fuseActive (fuseState s.hub n) = false → rd s.hub (fuseKey n 6) < 2 * rd s.hub (fuseKey n 5) →
      ∃ t, exec (.fetShortDetect n) s = .next t ∧ recordHeld t.hub 0x17 = true
        ∧ rd t.hub 0x4C00_06 = min (rd s.hub 0x4C00_06 + 1) (2 ^ 32 - 1) ∧ faulted s.hub t.hub = t.hub
        ∧ KeptBut ((0x4C00_06, 0x4C00_06) :: faultRanges) s.hub t.hub)
    ∧ (fuseActive (fuseState s.hub n) = true ∨ 2 * rd s.hub (fuseKey n 5) ≤ rd s.hub (fuseKey n 6) →
      exec (.fetShortDetect n) s = .next s))

/-- R649, R655, R656, R784: a limit takes effect at once unless it is a lowering below the latest current, which waits for the grace; the channel
enable keeps latch, failed retries and cool-down through DISABLED; the commands clear LOCKOUT in any mode and SUSPECT in
COMMISSION or SERVICE only. -/
def Obligations.FuseLimitsEnablesAndCommands : Prop :=
  (∀ p (n : Fin 16) v s, WriteOpen p (0x2C10 + n) 2 v s.hub → 10 ≤ v → v ≤ 50000 →
    (limitTooHigh v (rd s.hub (fuseCfg n 0x0E)) (rd s.hub (fuseCfg n 0x0D)) = true →
      ∃ t, exec (.currentLimitWrite p n v) s = .next t ∧ t.hub.answer = .refused 4 ∧ KeptBut pathRanges s.hub t.hub)
    ∧ (limitTooHigh v (rd s.hub (fuseCfg n 0x0E)) (rd s.hub (fuseCfg n 0x0D)) = false →
      ∃ t, exec (.currentLimitWrite p n v) s = .next t ∧ t.hub.answer = .accepted ∧ rd t.hub (fuseCfg n 2) = v
        ∧ (rd s.hub (fuseKey n 0x0C) ≤ v ∨ rd s.hub (fuseKey n 4) < v →
            rd t.hub (fuseKey n 0x0C) = v ∧ fuse t.hub n = { fuse s.hub n with pending := none })
        ∧ (v < rd s.hub (fuseKey n 0x0C) → v ≤ rd s.hub (fuseKey n 4) →
            rd t.hub (fuseKey n 0x0C) = rd s.hub (fuseKey n 0x0C) ∧ fuse t.hub n = { fuse s.hub n with pending := some v }
            ∧ (s.hub.watch.rates = [] → eventPending t.hub 0x8D = true))
        ∧ KeptBut ((fuseCfg n 2, fuseCfg n 2) :: (fuseKey n 0x0C, fuseKey n 0x0C) :: pathRanges) s.hub t.hub))
  ∧ (∀ (n : Fin 16) s,
    (∀ v, (fuse s.hub n).pending = some v → v < 2 ^ 48 → ∃ t, exec (.limitGraceExpiry n) s = .next t
      ∧ rd t.hub (fuseKey n 0x0C) = v ∧ fuse t.hub n = { fuse s.hub n with pending := none }
      ∧ KeptBut [(fuseKey n 0x0C, fuseKey n 0x0C)] s.hub t.hub)
    ∧ ((fuse s.hub n).pending = none → exec (.limitGraceExpiry n) s = .next s))
  ∧ (∀ p (n : Fin 16) st c s, st = fuseState s.hub n → c = fuse s.hub n →
    (WriteOpen p (0x2C10 + n) 1 0 s.hub → st ≠ 0 → ∃ t, exec (.channelEnableWrite p n 0) s = .next t ∧ t.hub.answer = .accepted
      ∧ rd t.hub (fuseCfg n 1) = 0 ∧ fuseState t.hub n = 0 ∧ gateCommand t.hub n = 0
      ∧ fuse t.hub n = { c with g := 0, latch := if st = 6 ∨ st = 7 then st else 0 }
      ∧ KeptBut ((fuseCfg n 1, fuseCfg n 1) :: (fuseKey n 1, fuseKey n 1) :: pathRanges) s.hub t.hub)
    ∧ (WriteOpen p (0x2C10 + n) 1 1 s.hub → st = 0 → ∃ t, exec (.channelEnableWrite p n 1) s = .next t ∧ t.hub.answer = .accepted
      ∧ rd t.hub (fuseCfg n 1) = 1
      ∧ (c.latch ≠ 0 → c.latch < 2 ^ 48 → fuseState t.hub n = c.latch ∧ (fuse t.hub n).coolEnd = c.coolEnd)
      ∧ (c.latch = 0 → c.coolEnd ≠ none → fuseState t.hub n = 5 ∧ (fuse t.hub n).coolEnd = c.coolEnd)
      ∧ (c.latch = 0 → c.coolEnd = none → fuseRequest s.hub n = false → fuseState t.hub n = (if fusePresent s.hub n then 1 else 8))
      ∧ KeptBut ((fuseCfg n 1, fuseCfg n 1) :: (fuseKey n 1, fuseKey n 1) :: pathRanges) s.hub t.hub)
    ∧ (∀ v, 1 < v → WriteOpen p (0x2C10 + n) 1 v s.hub → ∃ t, exec (.channelEnableWrite p n v) s = .next t
      ∧ t.hub.answer = .refused 4 ∧ KeptBut pathRanges s.hub t.hub))
  ∧ (∀ p (n : Fin 16) s, WriteOpen p (0x3600 + n) 3 1 s.hub →
    (fuseState s.hub n = 6 → ∃ t, exec (.clearLockout p n) s = .next t ∧ t.hub.answer = .accepted
      ∧ rd t.hub (fuseKey n 0x0A) = 0 ∧ (fuseRequest s.hub n = false → fuseState t.hub n = (if fusePresent s.hub n then 1 else 8))
      ∧ fuseState t.hub n ∈ [1, 2, 8] ∧ KeptBut ((fuseKey n 1, fuseKey n 1) :: (fuseKey n 0x0A, fuseKey n 0x0A) :: pathRanges) s.hub t.hub)
    ∧ (fuseState s.hub n ≠ 6 → ∃ t, exec (.clearLockout p n) s = .next t ∧ t.hub.answer = .refused 4
      ∧ KeptBut pathRanges s.hub t.hub))
  ∧ (∀ p (n : Fin 16) s, WriteOpen p (0x3600 + n) 3 2 s.hub →
    (fuseState s.hub n = 7 → mode s.hub = 2 ∨ mode s.hub = 7 → ∃ t, exec (.clearSuspect p n) s = .next t
      ∧ t.hub.answer = .accepted ∧ fuseState t.hub n ∈ [1, 2, 8]
      ∧ ((∀ m, m < 16 → (m ≠ n.val → fuseState s.hub m ≠ 7) ∧ (fuse s.hub m).latch ≠ 7) → s.hub.watch.injected = [] →
          causePresent t.hub 0x16 = false)
      ∧ KeptBut (pathRanges ++ faultRanges) s.hub t.hub)
    ∧ (fuseState s.hub n = 7 → mode s.hub ≠ 2 → mode s.hub ≠ 7 → ∃ t, exec (.clearSuspect p n) s = .next t
      ∧ t.hub.answer = .refused 5 ∧ KeptBut pathRanges s.hub t.hub)
    ∧ (fuseState s.hub n ≠ 7 → ∃ t, exec (.clearSuspect p n) s = .next t ∧ t.hub.answer = .refused 4
      ∧ KeptBut pathRanges s.hub t.hub))

/-! ### Power domains and regulators -/

/-- R27, R666, R669 to R671, R673, R674, R683, R684, R686, R687: a Grove whose last vote clears goes through hold-off to OFF, its crossings
drained and its list saved with check bits and CRC-32; a vote that returns before isolation keeps it ON, and its engines resume at
switch-on or, where the list is bad, the failure is counted and raised. The layout of a list is the model's (assumption log 70). The core voltage follows its target with retries and a read-back check; PMBus failures and alerts are counted and raised. -/
def Obligations.GrovesAndRegulatorsArePowered : Prop :=
  (∀ (g : Fin 8) vote s, ∃ t, exec (.groveVoteClear g vote) s = .next t
      ∧ (vote = 1 → rd t.hub (0x2D10_01 + g) = 0) ∧ (vote = 16 → g.val ∉ t.hub.power.targets)
      ∧ domainState t.hub g = (if domainState s.hub g = 3 ∧ votes t.hub g = 0 then 4 else domainState s.hub g)
      ∧ (∀ m, m ≠ g.val → t.hub.power.targets.contains m = s.hub.power.targets.contains m)
      ∧ { t.hub with dict := s.hub.dict, power := s.hub.power } = s.hub
      ∧ KeptBut [(0x2D10_01 + g, 0x2D10_01 + g), (0x4D11_01 + g, 0x4D11_01 + g), (0x4D10_01, 0x4D10_01)] s.hub t.hub)
  ∧ (∀ (g : Fin 8) s,
    (domainState s.hub g = 4 → votes s.hub g = 0 → ∃ t, exec (.offDelayExpiry g) s = .next t ∧ domainState t.hub g = 0
      ∧ bit (rd t.hub 0x4D10_01) g = false ∧ rd t.hub 0x4D10_02 = min (rd s.hub 0x4D10_02 + 1) (2 ^ 32 - 1)
      ∧ { t.hub.power with save := s.hub.power.save } = s.hub.power ∧ t.hub.engines = s.hub.engines ∧ saveGood t.hub g = true
      ∧ (∃ l, tabFind t.hub.power.save g = some l ∧ l.words.map (·.word) = padWords 544 (groveSaved s.hub g))
      ∧ (∀ e ∈ t.hub.crossings, islandDomain (e.1 / 256) = some g.val ∨ islandDomain (e.1 % 256) = some g.val → e.2.broken = false →
          e.2.entries = [] ∧ e.2.waiting = [])
      ∧ KeptBut [(0x4D11_01 + g, 0x4D11_01 + g), (0x4D10_01, 0x4D10_02)] s.hub t.hub)
    ∧ (domainState s.hub g ≠ 4 ∨ votes s.hub g ≠ 0 → exec (.offDelayExpiry g) s = .next s))
  ∧ (∀ (g : Fin 8) s, forcedOff s.hub g = false →
    (domainState s.hub g = 4 ∨ domainState s.hub g = 5 ∨ domainState s.hub g = 6 →
      ∃ t, exec (.voteReturn g 1) s = .next t ∧ domainState t.hub g = 3 ∧ rd t.hub (0x2D10_01 + g) = 1
        ∧ rd t.hub 0x4D10_03 = min (rd s.hub 0x4D10_03 + 1) (2 ^ 32 - 1) ∧ eventPending t.hub 0xA0 = true
        ∧ KeptBut ((0x2D10_01 + g, 0x2D10_01 + g) :: (0x4D11_01 + g, 0x4D11_01 + g) :: (0x4D10_01, 0x4D10_03)
            :: (engKey 0 0, engKey 63 255) :: eventRanges) s.hub t.hub)
    ∧ (domainState s.hub g = 0 → ∃ t, exec (.voteReturn g 1) s = .next t ∧ domainState t.hub g = 1
      ∧ KeptBut [(0x2D10_01 + g, 0x2D10_01 + g), (0x4D11_01 + g, 0x4D11_01 + g), (0x4D10_01, 0x4D10_01)] s.hub t.hub))
  ∧ (∀ (g : Fin 8) s,
    (domainState s.hub g = 0 ∨ domainState s.hub g = 1 → forcedOff s.hub g = false → votes s.hub g ≠ 0 →
      (saveGood s.hub g = true → ∃ t, exec (.groveSwitchOn g true) s = .next t ∧ domainState t.hub g = 3 ∧ bit (rd t.hub 0x4D10_01) g = true
        ∧ (∀ n, n ∈ s.hub.power.resumed → n < 64 → grove n = g → engState s.hub n = 2 → engState t.hub n = 3)
        ∧ (∀ n ∈ t.hub.power.resumed, grove n ≠ g)
        ∧ KeptBut [(0x4D11_01 + g, 0x4D11_01 + g), (0x4D10_01, 0x4D10_01), (engKey 0 0, engKey 63 255)] s.hub t.hub)
      ∧ (∀ ok, ok = false ∨ saveGood s.hub g = false →
        ∃ t, exec (.groveSwitchOn g ok) s = .next t ∧ domainState t.hub g = 3 ∧ recordHeld t.hub 0x18 = true
        ∧ rd t.hub 0x4D10_04 = min (rd s.hub 0x4D10_04 + 1) (2 ^ 32 - 1)))
    ∧ (domainState s.hub g ≠ 0 ∧ domainState s.hub g ≠ 1 ∨ forcedOff s.hub g = true ∨ votes s.hub g = 0 →
      ∀ ok, exec (.groveSwitchOn g ok) s = .next s))
  ∧ ((List.range 13).map saveLength).sum = 5660
  ∧ (∀ ack ma v old s, v = avsTargetOf s.hub → old = rd s.hub 0x4D10_08 →
    (v < old + 5 → old < v + 5 → exec (.avsUpdate ack ma) s = .next { s with hub := wr s.hub 0x4D10_0C (ma % 65536) })
    ∧ (old + 5 ≤ v ∨ v + 5 ≤ old →
      (v < 2 ^ 48 → ∃ t, exec (.avsUpdate 0 ma) s = .next t ∧ rd t.hub 0x4D10_08 = v ∧ rd t.hub 0x4D10_0C = ma % 65536
        ∧ t.hub.power.avsTarget = none ∧ KeptBut [(0x4D10_08, 0x4D10_08), (0x4D10_0C, 0x4D10_0C)] s.hub t.hub)
      ∧ (ack ≠ 0 → ∃ t, exec (.avsUpdate ack ma) s = .next t
        ∧ t.hub.power = { s.hub.power with avsTarget := some v, avsBusy := 0, avsOther := 0 }
        ∧ KeptBut [(0x4D10_0C, 0x4D10_0C)] s.hub t.hub)))
  ∧ (∀ ack v b o s, s.hub.power.avsTarget = some v → b = s.hub.power.avsBusy + b2n (ack == 1) →
    o = s.hub.power.avsOther + b2n (ack != 1) →
    (v < 2 ^ 48 → ∃ t, exec (.avsRetry 0) s = .next t ∧ rd t.hub 0x4D10_08 = v ∧ t.hub.power.avsTarget = none
      ∧ KeptBut [(0x4D10_08, 0x4D10_08)] s.hub t.hub)
    ∧ (ack ≠ 0 → b < 10 → o < 3 → exec (.avsRetry ack) s
      = .next { s with hub := { s.hub with power := { s.hub.power with avsBusy := b, avsOther := o } } })
    ∧ (ack ≠ 0 → 10 ≤ b ∨ 3 ≤ o → ∃ t, exec (.avsRetry ack) s = .next t ∧ recordHeld t.hub 0x19 = true
      ∧ rd t.hub 0x4D10_05 = min (rd s.hub 0x4D10_05 + 1) (2 ^ 32 - 1) ∧ t.hub.power.avsTarget = none
      ∧ rd t.hub 0x4D10_08 = rd s.hub 0x4D10_08 ∧ KeptBut ((0x4D10_05, 0x4D10_05) :: faultRanges) s.hub t.hub))
  ∧ (∀ ack s, s.hub.power.avsTarget = none → exec (.avsRetry ack) s = .next s)
  ∧ (∀ mv s, mv < 65536 →
    (mv ≤ rd s.hub 0x4D10_08 + 15 → rd s.hub 0x4D10_08 ≤ mv + 15 →
      exec (.avsReadback mv) s = .next { s with hub := wr s.hub 0x4D10_09 mv })
    ∧ (rd s.hub 0x4D10_08 + 15 < mv ∨ mv + 15 < rd s.hub 0x4D10_08 → ∃ t, exec (.avsReadback mv) s = .next t
      ∧ rd t.hub 0x4D10_09 = mv ∧ recordHeld t.hub 0x19 = true ∧ KeptBut ((0x4D10_09, 0x4D10_09) :: faultRanges) s.hub t.hub))
  ∧ (∀ (r : Fin 4) n s, n = tabGet 0 s.hub.power.pmbTries r →
    (railManaged s.hub r = false → ∀ ok, exec (.pmbusRetry r ok) s = .next s)
    ∧ (railManaged s.hub r = true → exec (.pmbusRetry r true) s
      = .next { s with hub := { s.hub with power := { s.hub.power with pmbTries := tabErase s.hub.power.pmbTries r } } })
    ∧ (railManaged s.hub r = true → n < 2 → exec (.pmbusRetry r false) s
      = .next { s with hub := { s.hub with power := { s.hub.power with pmbTries := tabSet s.hub.power.pmbTries r (n + 1) } } })
    ∧ (railManaged s.hub r = true → 2 ≤ n → ∃ t, exec (.pmbusRetry r false) s = .next t ∧ recordHeld t.hub 0x1A = true
      ∧ rd t.hub 0x4D10_06 = min (rd s.hub 0x4D10_06 + 1) (2 ^ 32 - 1) ∧ tabGet 0 t.hub.power.pmbTries r = 0
      ∧ KeptBut ((0x4D10_06, 0x4D10_06) :: faultRanges) s.hub t.hub))
  ∧ (∀ status s,
    (∃ t, exec (.pmbAlert status) s = .next t
      ∧ (∀ r, r < 4 → rd t.hub (0x4D13_01 + r)
          = (if railManaged s.hub r then status.getD r 0 % 65536 else rd s.hub (0x4D13_01 + r)))
      ∧ (mode s.hub = 6 → { t.hub with dict := s.hub.dict } = s.hub ∧ KeptBut [(0x4D13_01, 0x4D13_04)] s.hub t.hub)
      ∧ (mode s.hub ≠ 6 → eventPending t.hub 0xA2 = true ∧ rd t.hub 0x4D10_0B = min (rd s.hub 0x4D10_0B + 1) (2 ^ 32 - 1)
        ∧ (∀ r, r < 4 → railManaged s.hub r = true → railBad (status.getD r 0) = true → recordHeld t.hub 0x1C = true)
        ∧ KeptBut ((0x4D13_01, 0x4D13_04) :: (0x4D10_0B, 0x4D10_0B) :: faultRanges) s.hub t.hub)))

/-! ### Watchtower -/

/-- R691 to R695, R701, R703, R704, R709, R710, R780: a fault makes one record, captured, logged and with its chosen reaction, and repeats only count
until the record escalates one level; a cause that goes away lowers an advisory record to LOG; only an acknowledgement whose
cause is gone ends a record; a reaction write must keep to the fault's class; injection is served in FACTORY only. -/
def Obligations.FaultsAreRecordedAndAcknowledged : Prop :=
  (∀ code island a b s, isFault code = false → exec (.faultRaise code island a b) s = .next s)
  ∧ (∀ code island a b lvl r s, isFault code = true → recordHeld s.hub code = false → rd s.hub 0x2E03_01 ≠ 1 →
    s.hub.watch.injected = [] → lvl = rd s.hub (slotKey 0x2E01 code) →
    r = { island, detailA := a, detailB := b, chosen := lvl, level := lvl, escalated := false,
          injected := s.hub.watch.injecting, cause := true, windowStart := stampNs s.hub 0, windowCount := 1 } →
    ∃ t, exec (.faultRaise code island a b) s = .next t
      ∧ t.hub.watch.records = tabSet s.hub.watch.records code { r with cause := !goneAtOnce code }
      ∧ rd t.hub 0x4E00_04 = min (rd s.hub 0x4E00_04 + 1) (2 ^ 32 - 1) ∧ eventPending t.hub 0xA8 = true
      ∧ rd t.hub 0x4E02_01 = recordWord code r % 2 ^ 48 ∧ rd t.hub 0x4E02_02 = a % 2 ^ 48
      ∧ tabGet 0 t.hub.watch.occurrences code = min (tabGet 0 s.hub.watch.occurrences code + 1) 65535
      ∧ (rd s.hub 0x4E01_01 = 0 → rd t.hub 0x4E01_01 = recordWord code r % 2 ^ 48 ∧ rd t.hub 0x4E01_02 = a % 2 ^ 48
          ∧ rd t.hub 0x4E01_03 = b % 2 ^ 48 ∧ rd t.hub 0x4E01_04 = timeSec (replica s.hub 0) % 2 ^ 48)
      ∧ (rd s.hub 0x4E01_01 ≠ 0 → rd t.hub 0x4E01_06 = min (rd s.hub 0x4E01_06 + 1) (2 ^ 32 - 1)
          ∧ (rd s.hub 0x4E01_04 ≠ timeSec (replica s.hub 0) → rd t.hub 0x4E01_01 = rd s.hub 0x4E01_01))
      ∧ (goneAtOnce code = false → 1 ≤ lvl → lvl ≤ 3 → (∀ e ∈ s.hub.watch.records, effectiveLevel e.1 e.2 ≤ 3) →
          outputsSafe t.hub = true)
      ∧ (goneAtOnce code = false → 2 ≤ lvl → lvl ≤ 3 → (∀ e ∈ s.hub.watch.records, effectiveLevel e.1 e.2 ≤ 3) →
          rd t.hub 0x4E00_03 = 0)
      ∧ faulted s.hub t.hub = t.hub ∧ KeptBut faultRanges s.hub t.hub)
  ∧ (∀ code island a b r n s, isFault code = true → s.hub.watch.records.find? (fun e => e.1 == code) = some (code, r) →
    s.hub.watch.injected = [] → s.hub.watch.injecting = false → faultClass code < 3 → r.escalated = false →
    n = (if stampNs s.hub 0 < r.windowStart + rd s.hub 0x2E03_02 * 1000000000 then r.windowCount + 1 else 1) →
    ∃ t, exec (.faultRaise code island a b) s = .next t ∧ rd t.hub 0x4E00_04 = rd s.hub 0x4E00_04
      ∧ tabGet 0 t.hub.watch.occurrences code = min (tabGet 0 s.hub.watch.occurrences code + 1) 65535
      ∧ (rd s.hub 0x2E03_01 = 0 ∨ n < rd s.hub 0x2E03_01 ∨ 2 ≤ r.level → ∃ x, x = { r with
            cause := !goneAtOnce code, windowCount := n,
            windowStart := if stampNs s.hub 0 < r.windowStart + rd s.hub 0x2E03_02 * 1000000000 then r.windowStart
              else stampNs s.hub 0 }
          ∧ t.hub.watch.records = tabSet s.hub.watch.records code x ∧ rd t.hub 0x4E00_05 = rd s.hub 0x4E00_05)
      ∧ (0 < rd s.hub 0x2E03_01 → rd s.hub 0x2E03_01 ≤ n → r.level < 2 → t.hub.watch.records
            = tabSet s.hub.watch.records code { r with
                cause := !goneAtOnce code, windowCount := 1, windowStart := stampNs s.hub 0, level := r.level + 1, escalated := true }
          ∧ rd t.hub 0x4E00_05 = min (rd s.hub 0x4E00_05 + 1) (2 ^ 32 - 1) ∧ eventPending t.hub 0xAC = true)
      ∧ faulted s.hub t.hub = t.hub ∧ KeptBut faultRanges s.hub t.hub)
  ∧ (∀ code s, faultClass code = 3 → exec (.faultCauseGone code) s = .next s)
  ∧ (∀ code r s, faultClass code < 3 → s.hub.watch.records.find? (fun e => e.1 == code) = some (code, r) →
    code ∉ s.hub.watch.injected →
    ∃ t, exec (.faultCauseGone code) s = .next t ∧ t.hub.watch.records = tabSet s.hub.watch.records code { r with cause := false }
      ∧ (faultClass code = 1 → r.escalated = false → effectiveLevel code { r with cause := false } = 0)
      ∧ (faultClass code = 2 → r.escalated = false → effectiveLevel code { r with cause := false } = r.level)
      ∧ faulted s.hub t.hub = t.hub ∧ KeptBut faultRanges s.hub t.hub)
  ∧ (∀ p code s, code ≠ 0xFF → WriteOpen p 0x2E02 1 code s.hub →
    (recordHeld s.hub code = false ∨ faultClass code = 3 → ∃ t, exec (.acknowledge p code) s = .next t
      ∧ t.hub.answer = .refused 4 ∧ t.hub.watch.records = s.hub.watch.records ∧ KeptBut pathRanges s.hub t.hub)
    ∧ (recordHeld s.hub code = true → faultClass code < 3 → causePresent s.hub code = true →
      ∃ t, exec (.acknowledge p code) s = .next t ∧ t.hub.answer = .refused 0x0A ∧ t.hub.watch.records = s.hub.watch.records
        ∧ KeptBut pathRanges s.hub t.hub)
    ∧ (recordHeld s.hub code = true → faultClass code < 3 → causePresent s.hub code = false →
      ∃ t, exec (.acknowledge p code) s = .next t ∧ t.hub.answer = .accepted
        ∧ t.hub.watch.records = tabErase s.hub.watch.records code ∧ eventPending t.hub 0xA9 = true
        ∧ KeptBut (pathRanges ++ faultRanges) s.hub t.hub))
  ∧ (∀ p s, WriteOpen p 0x2E02 1 0xFF s.hub →
    ∃ t, exec (.acknowledgeAll p) s = .next t ∧ t.hub.answer = .accepted
      ∧ (∀ code, code < 0x1F → recordHeld t.hub code = (recordHeld s.hub code && !endable s.hub code))
      ∧ KeptBut (pathRanges ++ faultRanges) s.hub t.hub)
  ∧ (∀ p v s, WriteOpen p 0x2E02 2 v s.hub →
    (v = 1 → ∃ t, exec (.captureRearm p v) s = .next t ∧ t.hub.answer = .accepted ∧ (∀ k, k < 6 → rd t.hub (0x4E01_01 + k) = 0)
      ∧ KeptBut ((0x4E01_01, 0x4E01_06) :: pathRanges) s.hub t.hub)
    ∧ (v ≠ 1 → ∃ t, exec (.captureRearm p v) s = .next t ∧ t.hub.answer = .refused 4 ∧ KeptBut pathRanges s.hub t.hub))
  ∧ (∀ p code v s, isFault code = true → WriteOpen p 0x2E01 code v s.hub →
    (levelAllowed (faultClass code) v = false → ∃ t, exec (.reactionWrite p code v) s = .next t ∧ t.hub.answer = .refused 4
      ∧ t.hub.watch.records = s.hub.watch.records ∧ KeptBut pathRanges s.hub t.hub)
    ∧ (levelAllowed (faultClass code) v = true → ∃ t, exec (.reactionWrite p code v) s = .next t ∧ t.hub.answer = .accepted
      ∧ rd t.hub (slotKey 0x2E01 code) = v
      ∧ (∀ r, s.hub.watch.records.find? (fun e => e.1 == code) = some (code, r) → t.hub.watch.records
          = tabSet s.hub.watch.records code { r with chosen := v, level := if r.escalated then r.level else v })
      ∧ (recordHeld s.hub code = false → t.hub.watch.records = s.hub.watch.records)
      ∧ KeptBut ((slotKey 0x2E01 code, slotKey 0x2E01 code) :: (pathRanges ++ faultRanges)) s.hub t.hub))
  ∧ (∀ p pt v s, WriteOpen p 0x2E05 3 1 s.hub → pt = rd s.hub 0x2E05_01 → v = rd s.hub 0x2E05_02 →
    (mode s.hub ≠ 8 ∨ injectionKnown pt v = false → ∃ t, exec (.inject p) s = .next t ∧ t.hub.answer = .refused 0x0A
      ∧ t.hub.watch.armed = s.hub.watch.armed ∧ KeptBut pathRanges s.hub t.hub)
    ∧ (mode s.hub = 8 → pt = 1 → isFault v = true → recordHeld s.hub v = false → rd s.hub 0x2E03_01 ≠ 1 →
      ∃ t r, exec (.inject p) s = .next t ∧ t.hub.answer = .accepted ∧ eventPending t.hub 0xAD = true
        ∧ t.hub.watch.records.find? (fun e => e.1 == v) = some (v, r) ∧ r.injected = true ∧ r.cause = true
        ∧ v ∈ t.hub.watch.injected ∧ t.hub.watch.injecting = s.hub.watch.injecting)
    ∧ (mode s.hub = 8 → pt = 8 → v < 16 → fuseActive (fuseState s.hub v) = true → ∃ t, exec (.inject p) s = .next t
      ∧ rd t.hub (fuseKey v 0x0D) = 1 ∧ gateCommand t.hub v = 0 ∧ eventPending t.hub 0xAD = true)
    ∧ (mode s.hub = 8 → injectionKnown pt v = true → pt ∈ [4, 5, 6, 7, 9] → ∃ t, exec (.inject p) s = .next t
      ∧ t.hub.answer = .accepted ∧ t.hub.watch.armed = s.hub.watch.armed ++ [(pt, v)] ∧ eventPending t.hub 0xAD = true
      ∧ KeptBut pathRanges s.hub t.hub))
  ∧ (∀ p s, WriteOpen p 0x2E05 3 2 s.hub →
    (mode s.hub = 8 → ∃ t, exec (.withdraw p) s = .next t ∧ t.hub.answer = .accepted ∧ t.hub.watch.armed = []
      ∧ t.hub.watch.injected = [] ∧ (∀ c ∈ s.hub.watch.injected, causePresent t.hub c = false)
      ∧ KeptBut (pathRanges ++ faultRanges) s.hub t.hub)
    ∧ (mode s.hub ≠ 8 → ∃ t, exec (.withdraw p) s = .next t ∧ t.hub.answer = .refused 0x0A ∧ KeptBut pathRanges s.hub t.hub))

/-- R711 to R715: an event sets its pending bit, enters the log and takes its route: nothing, an MSI-X request, a pin held low, or one ring
event frame of three words, dropped and counted within 100 µs of the last on its channel and without a hub number. A received
frame on a channel the mask names is recorded and raised here. -/
def Obligations.EventsAreLoggedAndRouted : Prop :=
  (∀ e i v s, reservedEvent e = true → exec (.eventRaise e i v) s = .next s)
  ∧ (∀ e i v s, reservedEvent e = false →
    ∃ t, exec (.eventRaise e i v) s = .next t ∧ eventPending t.hub e = true ∧ evented s.hub t.hub = t.hub
      ∧ (∀ x, x < 256 → x ≠ e → x ≠ 0xAE → eventPending t.hub x = eventPending s.hub x)
      ∧ KeptBut eventRanges s.hub t.hub
      ∧ (route s.hub e / 64 ≠ 2 → rd t.hub 0x4E11_01 = e * 2 ^ 40 + i % 256 * 2 ^ 32 + v % 2 ^ 32
          ∧ rd t.hub 0x4E11_02 = timeSec (replica s.hub 0) % 2 ^ 48
          ∧ (∀ k, k < 45 → rd t.hub (0x4E11_04 + k) = rd s.hub (0x4E11_01 + k)) ∧ t.hub.portQ = s.hub.portQ)
      ∧ (route s.hub e / 64 = 1 → t.hub.msix = (if pcie s.hub && !s.hub.msix.contains (route s.hub e % 32) then
            s.hub.msix ++ [route s.hub e % 32] else s.hub.msix))
      ∧ (route s.hub e / 64 = 3 → evtN t.hub (route s.hub e % 32) = false)
      ∧ (∀ c, route s.hub e / 64 = 2 → c = route s.hub e % 32 % 8 →
        (hubNumber s.hub = 0 ∨ channelBusy s.hub c = true → t.hub.portQ = s.hub.portQ ∧ eventPending t.hub 0xAE = true
          ∧ rd t.hub 0x4E00_08 = min (rd s.hub 0x4E00_08 + 1) (2 ^ 32 - 1))
        ∧ (hubNumber s.hub ≠ 0 → channelBusy s.hub c = false →
          ∃ f, portFrames t.hub 6 = portFrames s.hub 6 ++ [f] ∧ f.ftype = 8 ∧ f.cls = .ur ∧ f.dst = 255 ∧ f.specific = 0x100 + c
            ∧ f.payload = [BitVec.ofNat 48 (e * 2 ^ 40 + i % 256 * 2 ^ 32 + v % 2 ^ 32),
                BitVec.ofNat 48 (timeSec (replica s.hub 0)), BitVec.ofNat 48 (timeFrac (replica s.hub 0))]
            ∧ rd t.hub 0x4E00_06 = min (rd s.hub 0x4E00_06 + 1) (2 ^ 32 - 1) ∧ channelBusy t.hub c = true)))
  ∧ (∀ src (c : Fin 8) e i v sec ns s,
    (bit (rd s.hub 0x2E20_01) c = false → exec (.ringEvent src c e i v sec ns) s = .next s)
    ∧ (bit (rd s.hub 0x2E20_01) c = true → ∃ t, exec (.ringEvent src c e i v sec ns) s = .next t
      ∧ rd t.hub (0x4E12_01 + 3 * c) = src % 256 * 2 ^ 40 + e % 256 * 2 ^ 32 + i % 256 * 2 ^ 24 + v % 2 ^ 24
      ∧ rd t.hub (0x4E12_02 + 3 * c) = sec % 2 ^ 48 ∧ rd t.hub (0x4E12_03 + 3 * c) = ns % 2 ^ 48
      ∧ rd t.hub 0x4E00_07 = min (rd s.hub 0x4E00_07 + 1) (2 ^ 32 - 1) ∧ eventPending t.hub (0xB0 + c) = true
      ∧ evented s.hub t.hub = t.hub
      ∧ KeptBut ((0x4E12_01 + 3 * c, 0x4E12_03 + 3 * c) :: (0x4E00_07, 0x4E00_07) :: eventRanges) s.hub t.hub))

/-! ### Firmware update -/

/-- R724 to R728, R731, R732: the update commands. Each is served in its states of Table 3, in SERVICE, from flash: begin secures the running
image and erases the strapped slot, finish verifies, activate makes it TRIAL and resets unless another hub forbids, abandon
erases, confirm ends the trial and raises the floor, revert marks it BAD and resets. What a begin leaves in flash where the
flash fails is the model's choice (assumption log 38).
R58, R729 to R731: chunks must follow one another within the image, the header is checked with its last byte, and verification ends in
STAGED or FAILED; a request is answered with the image's bytes, no such image, or busy for a third puller; pulled bytes are
appended and asked for again after silence, up to three times; a loss of power leaves the flash and, while VDD_AON holds, the
always-on records.
R723: an image write waits while a configuration store or a ceiling write runs, and behind those that wait; they are then made in order. -/
def Obligations.UpdatesMoveTheSlotsAndImagesAreServed : Prop :=
  (∀ p c i states s, (i = .updateBegin p true ∧ c = 1 ∧ states = [0, 3, 5] ∨ i = .updateFinish p ∧ c = 2 ∧ states = [1]
      ∨ i = .updateAbandon p ∧ c = 4 ∧ states = [1, 2, 3] ∨ i = .updateConfirm p ∧ c = 5 ∧ states = [4]
      ∨ i = .updateRevert p ∧ c = 6 ∧ states = [4]) → WriteOpen p 0x2F01 1 c s.hub →
    (updateState s.hub ∉ states → ∃ t, exec i s = .next t ∧ t.hub.answer = .refused 4 ∧ t.hub.update = s.hub.update
      ∧ KeptBut pathRanges s.hub t.hub)
    ∧ (updateState s.hub ∈ states → (c = 2 → pulls s.hub = false) → mode s.hub ≠ 7 ∨ 2 ≤ bootSource s.hub →
      ∃ t, exec i s = .next t ∧ t.hub.answer = .refused 0x0A ∧ t.hub.update = s.hub.update ∧ KeptBut pathRanges s.hub t.hub))
  ∧ (∀ p ok s, WriteOpen p 0x2F01 1 1 s.hub → mode s.hub = 7 → bootSource s.hub < 2 → updateState s.hub ∈ [0, 3, 5] →
    s.hub.store.job.isSome = true ∨ s.hub.dome.writing = true ∨ s.hub.update.held ≠ [] →
    ∃ t, exec (.updateBegin p ok) s = .next t ∧ t.hub.answer = .accepted
      ∧ t.hub.update = { s.hub.update with held := s.hub.update.held ++ [.start ok] } ∧ KeptBut pathRanges s.hub t.hub)
  ∧ (∀ h, (h.store.job.isSome = true ∨ h.dome.writing = true → heldImageWrites h = h)
    ∧ (∀ w, h.store.job = none → h.dome.writing = false → h.update.held = [w] →
      heldImageWrites h = makeImageWrite w { h with update := { h.update with held := [] } }))
  ∧ (∀ p o s, WriteOpen p 0x2F01 1 1 s.hub → mode s.hub = 7 → bootSource s.hub < 2 → updateState s.hub ∈ [0, 3, 5] →
    o = otherSlot s.hub → s.hub.store.job = none → s.hub.dome.writing = false → s.hub.update.held = [] →
    (∃ t, exec (.updateBegin p false) s = .next t ∧ rd t.hub 0x4F00_01 = 5 ∧ rd t.hub 0x4F00_0C = 5
      ∧ t.hub.update.slotA = s.hub.update.slotA ∧ t.hub.update.slotB = s.hub.update.slotB)
    ∧ (∃ t, exec (.updateBegin p true) s = .next t ∧ t.hub.answer = .accepted ∧ rd t.hub 0x4F00_01 = 1 ∧ rd t.hub 0x4F00_02 = 0
      ∧ slot t.hub (strapped s.hub) = emptySlot ∧ t.hub.update.received = []
      ∧ (∀ x, runningImage s.hub = some x → ∃ n, slot t.hub o = { x with state := 3, failed := n })
      ∧ (runningImage s.hub = none → slot t.hub o = slot s.hub o)
      ∧ (pulls s.hub = false → t.hub.update.requests = []
        ∧ KeptBut ((0x4F00_01, 0x4F00_02) :: (0x4F00_05, 0x4F00_05) :: pathRanges) s.hub t.hub)
      ∧ (pulls s.hub = true → hubNumber s.hub ≠ 0 → ∃ q f, t.hub.update.requests = [(s.hub.update.nextTag, 0, 512, 0)]
        ∧ portFrames t.hub 6 = q ++ [f] ∧ f.ftype = 10 ∧ f.cls = .bk ∧ f.dst = rd s.hub 0x2F01_03 ∧ f.specific = 0x100)))
  ∧ (∀ p s, WriteOpen p 0x2F01 1 2 s.hub → mode s.hub = 7 → bootSource s.hub < 2 → updateState s.hub = 1 →
    (pulls s.hub = false → ∃ t, exec (.updateFinish p) s = .next t ∧ t.hub.answer = .accepted ∧ rd t.hub 0x4F00_01 = 2
      ∧ t.hub.update = s.hub.update ∧ KeptBut ((0x4F00_01, 0x4F00_01) :: pathRanges) s.hub t.hub)
    ∧ (pulls s.hub = true → ∃ t, exec (.updateFinish p) s = .next t ∧ t.hub.answer = .refused 4 ∧ KeptBut pathRanges s.hub t.hub))
  ∧ (∀ p ans b s, WriteOpen p 0x2F01 1 3 s.hub → mode s.hub = 7 → bootSource s.hub < 2 → updateState s.hub = 3 →
    b = strapped s.hub → rd s.hub 0x2000_08 / 1024 % 4 = bootSource s.hub →
    (activateForbidden ans s.hub = true → ∃ t, exec (.updateActivate p ans) s = .next t ∧ t.hub.answer = .refused 0x0A
      ∧ rd t.hub 0x4F00_0C = 7 ∧ t.hub.update = s.hub.update ∧ KeptBut ((0x4F00_0C, 0x4F00_0C) :: pathRanges) s.hub t.hub)
    ∧ (activateForbidden ans s.hub = false → ∃ t, exec (.updateActivate p ans) s = .next t ∧ t.hub.answer = .accepted
      ∧ mode t.hub = 1 ∧ rd t.hub 0x2000_07 = 3 ∧ strapped t.hub = b
      ∧ slot t.hub b = { slot s.hub b with state := 2, failed := 0 } ∧ slot t.hub (1 - b) = slot s.hub (1 - b)
      ∧ t.hub.update.floor = s.hub.update.floor))
  ∧ (∀ p s, WriteOpen p 0x2F01 1 3 s.hub → updateState s.hub ≠ 3 →
    ∀ ans, ∃ t, exec (.updateActivate p ans) s = .next t ∧ t.hub.answer = .refused 4 ∧ t.hub.update = s.hub.update
      ∧ KeptBut pathRanges s.hub t.hub)
  ∧ (∀ p s, WriteOpen p 0x2F01 1 4 s.hub → mode s.hub = 7 → bootSource s.hub < 2 → updateState s.hub ∈ [1, 2, 3] →
    ∃ t, exec (.updateAbandon p) s = .next t ∧ t.hub.answer = .accepted ∧ rd t.hub 0x4F00_01 = 0 ∧ rd t.hub 0x4F00_0C = 8
      ∧ slot t.hub (strapped s.hub) = emptySlot ∧ slot t.hub (otherSlot s.hub) = slot s.hub (otherSlot s.hub)
      ∧ t.hub.update.received = [] ∧ t.hub.update.requests = []
      ∧ KeptBut ((0x4F00_01, 0x4F00_01) :: (0x4F00_05, 0x4F00_05) :: (0x4F00_0C, 0x4F00_0C) :: pathRanges) s.hub t.hub)
  ∧ (∀ p b x y s i, (i = .updateConfirm p ∧ WriteOpen p 0x2F01 1 5 s.hub ∧ mode s.hub = 7 ∧ bootSource s.hub < 2
      ∨ i = .confirmDelayExpiry ∧ rd s.hub 0x2F01_05 = 0 ∧ serving s.hub = true) → updateState s.hub = 4 →
    b = runningSlot s.hub → b ≤ 1 → x = slot s.hub b → y = slot s.hub (1 - b) → x.state = 2 →
    ∃ t, exec i s = .next t ∧ slot t.hub b = { x with state := 3, failed := 0 } ∧ slot t.hub (1 - b) = y
      ∧ rd t.hub 0x4F00_01 = 0 ∧ rd t.hub 0x4F00_0C = 0
      ∧ t.hub.update.floor = max s.hub.update.floor (if y.state = 3 then min x.security y.security else x.security)
      ∧ (∀ k, k < 4 → bit t.hub.update.revoked k
          = (bit s.hub.update.revoked k || (bit x.revoke k && k != x.keyHash && !(y.state != 0 && k == y.keyHash))))
      ∧ KeptBut ((0x4F00_01, 0x4F00_01) :: (0x4F00_0C, 0x4F00_0C) :: pathRanges) s.hub t.hub)
  ∧ (∀ s, rd s.hub 0x2F01_05 ≠ 0 ∨ serving s.hub = false ∨ updateState s.hub ≠ 4 → exec .confirmDelayExpiry s = .next s)
  ∧ (∀ p b s, WriteOpen p 0x2F01 1 6 s.hub → mode s.hub = 7 → bootSource s.hub < 2 → updateState s.hub = 4 →
    b = runningSlot s.hub → b ≤ 1 →
    ∃ t, exec (.updateRevert p) s = .next t ∧ t.hub.answer = .accepted ∧ mode t.hub = 1 ∧ rd t.hub 0x2000_07 = 5
      ∧ slot t.hub b = { slot s.hub b with state := 4 } ∧ slot t.hub (1 - b) = slot s.hub (1 - b))
  ∧ (∀ p bs n off len s, n = loadPoint s.hub → off = chunkOffset s.hub → len = chunkLength s.hub →
    WriteOpen p 0x2F02 3 (bytesNat bs) s.hub →
    (off ≠ n ∨ len = 0 ∨ 1200 < len ∨ rd s.hub 0x2F01_02 < off + len → ∀ ok, ∃ t, exec (.chunkWrite p bs ok) s = .next t
      ∧ t.hub.answer = .refused 4 ∧ t.hub.update = s.hub.update ∧ KeptBut pathRanges s.hub t.hub)
    ∧ (off = n → 0 < len → len ≤ 1200 → off + len ≤ rd s.hub 0x2F01_02 → updateState s.hub = 1 → pulls s.hub = false →
      bs.length = len → s.hub.store.job.isSome = true ∨ s.hub.dome.writing = true ∨ s.hub.update.held ≠ [] →
      ∀ ok, ∃ t, exec (.chunkWrite p bs ok) s = .next t ∧ t.hub.answer = .accepted
        ∧ t.hub.update = { s.hub.update with held := s.hub.update.held ++ [.chunk bs ok] } ∧ KeptBut pathRanges s.hub t.hub)
    ∧ (off = n → 0 < len → len ≤ 1200 → off + len ≤ rd s.hub 0x2F01_02 → updateState s.hub = 1 → pulls s.hub = false →
      bs.length = len → s.hub.store.job = none → s.hub.dome.writing = false → s.hub.update.held = [] →
      (∃ t, exec (.chunkWrite p bs false) s = .next t ∧ rd t.hub 0x4F00_01 = 5 ∧ rd t.hub 0x4F00_0C = 5)
      ∧ (512 ≤ n ∨ n + len < 512 ∨ headerResult s.hub (s.hub.update.received ++ bs) (rd s.hub 0x2F01_02) = 0 →
        rd s.hub 0x4F00_02 + len < 2 ^ 48 →
        ∃ t, exec (.chunkWrite p bs true) s = .next t ∧ t.hub.answer = .accepted ∧ rd t.hub 0x4F00_01 = 1
          ∧ t.hub.update = { s.hub.update with received := s.hub.update.received ++ bs }
          ∧ rd t.hub 0x4F00_02 = rd s.hub 0x4F00_02 + len ∧ KeptBut ((0x4F00_02, 0x4F00_02) :: pathRanges) s.hub t.hub)
      ∧ (n < 512 → 512 ≤ n + len → headerResult s.hub (s.hub.update.received ++ bs) (rd s.hub 0x2F01_02) ≠ 0 →
        ∃ t, exec (.chunkWrite p bs true) s = .next t ∧ rd t.hub 0x4F00_01 = 5
          ∧ rd t.hub 0x4F00_0C = headerResult s.hub (s.hub.update.received ++ bs) (rd s.hub 0x2F01_02))))
  ∧ (∀ r s, (updateState s.hub ≠ 2 ∨ s.hub.update.held ≠ [] → exec (.updateVerifyDone r) s = .next s)
    ∧ (updateState s.hub = 2 → s.hub.update.held = [] → r ≠ 0 → r < 256 → ∃ t, exec (.updateVerifyDone r) s = .next t ∧ rd t.hub 0x4F00_01 = 5
      ∧ rd t.hub 0x4F00_0C = r ∧ t.hub.update.slotA = s.hub.update.slotA ∧ t.hub.update.slotB = s.hub.update.slotB
      ∧ KeptBut [(0x4F00_01, 0x4F00_01), (0x4F00_0C, 0x4F00_0C)] s.hub t.hub)
    ∧ (updateState s.hub = 2 → s.hub.update.held = [] → ∃ t x, exec (.updateVerifyDone 0) s = .next t ∧ rd t.hub 0x4F00_01 = 3 ∧ rd t.hub 0x4F00_0C = 0
      ∧ x = slot t.hub (strapped s.hub) ∧ x.state = 1 ∧ x.failed = 0
      ∧ x.image = some (s.hub.update.received.take (rd s.hub 0x2F01_02)) ∧ rd t.hub 0x4F00_05 = x.version
      ∧ slot t.hub (otherSlot s.hub) = slot s.hub (otherSlot s.hub)
      ∧ KeptBut [(0x4F00_01, 0x4F00_01), (0x4F00_05, 0x4F00_05), (0x4F00_0C, 0x4F00_0C)] s.hub t.hub))
  ∧ (∀ src tag staged off len s, (sendsOwn s.hub = false ∨ hubNumber s.hub = 0 →
      exec (.updateRequest src tag staged off len) s = .next s)
    ∧ (sendsOwn s.hub = true → hubNumber s.hub ≠ 0 → ∃ t f w st bs, exec (.updateRequest src tag staged off len) s = .next t
      ∧ portFrames t.hub 6 = portFrames s.hub 6 ++ [f] ∧ f.ftype = 10 ∧ f.cls = .bk ∧ f.dst = src ∧ f.specific = 0x200
      ∧ f.payload = w :: BitVec.ofNat 48 bs.length :: bytesWords ((bs.length + 5) / 6) bs
      ∧ w = BitVec.ofNat 48 (tag % 256 * 2 ^ 40 + st * 2 ^ 32 + off % 2 ^ 32) ∧ t.hub.dict = s.hub.dict
      ∧ (2 ≤ ((pullersNow s.hub).filter (· != src)).length → st = 2 ∧ bs = [])
      ∧ (((pullersNow s.hub).filter (· != src)).length < 2 →
          (servedImage staged s.hub = none → st = 1 ∧ bs = [])
          ∧ (∀ x, servedImage staged s.hub = some x → st = 0 ∧ bs = flashBytes x off (min len 1500)
            ∧ src ∈ pullersNow t.hub))))
  ∧ (∀ src tag st off bs r s, s.hub.update.requests.find? (fun r => r.1 == tag) = some r → updateState s.hub = 1 →
    src = rd s.hub 0x2F01_03 → off = r.2.1 →
    (st = 1 → ∃ t, exec (.updateData src tag st off bs) s = .next t ∧ rd t.hub 0x4F00_01 = 5 ∧ rd t.hub 0x4F00_0C = 6
      ∧ t.hub.update.requests = [] ∧ KeptBut [(0x4F00_01, 0x4F00_01), (0x4F00_0C, 0x4F00_0C)] s.hub t.hub)
    ∧ (st = 2 → exec (.updateData src tag st off bs) s
      = .next { s with hub := { s.hub with update := { s.hub.update with busy := true } } })
    ∧ (st = 0 → bs.length = r.2.2.1 → 512 ≤ s.hub.update.received.length → off = s.hub.update.received.length →
      rd s.hub 0x4F00_02 + bs.length < 2 ^ 48 → s.hub.update.requests = [r] → s.hub.store.job = none → s.hub.dome.writing = false →
      s.hub.update.held = [] →
      (rd s.hub 0x2F01_02 ≤ off + bs.length → ∃ t, exec (.updateData src tag st off bs) s = .next t ∧ rd t.hub 0x4F00_01 = 2
        ∧ t.hub.update = { s.hub.update with received := s.hub.update.received ++ bs, requests := [] }
        ∧ KeptBut [(0x4F00_01, 0x4F00_02)] s.hub t.hub)
      ∧ (off + bs.length < rd s.hub 0x2F01_02 → s.hub.update.busy = false → 0 < rd s.hub 0x2F01_07 →
        ∃ t rest, exec (.updateData src tag st off bs) s = .next t ∧ rd t.hub 0x4F00_01 = 1
          ∧ t.hub.update.received = s.hub.update.received ++ bs ∧ t.hub.update.requests = (s.hub.update.nextTag, off + bs.length,
              min 1500 (rd s.hub 0x2F01_02 - (off + bs.length)), 0) :: rest
          ∧ t.hub.update.requests.length ≤ rd s.hub 0x2F01_07 ∧ KeptBut [(0x4F00_02, 0x4F00_02)] s.hub t.hub)))
  ∧ (∀ src tag st off bs s, (s.hub.update.requests.find? fun r => r.1 == tag) = none ∨ updateState s.hub ≠ 1 ∨ src ≠ rd s.hub 0x2F01_03 →
    exec (.updateData src tag st off bs) s = .next s)
  ∧ (∀ tag r s, s.hub.update.requests.find? (fun r => r.1 == tag) = some r → updateState s.hub = 1 → s.hub.update.busy = false →
    (3 ≤ r.2.2.2 → ∃ t, exec (.pullRequestTimeout tag) s = .next t ∧ rd t.hub 0x4F00_01 = 5 ∧ rd t.hub 0x4F00_0C = 6
      ∧ t.hub.update.requests = [] ∧ KeptBut [(0x4F00_01, 0x4F00_01), (0x4F00_0C, 0x4F00_0C)] s.hub t.hub)
    ∧ (r.2.2.2 < 3 → hubNumber s.hub ≠ 0 → ∃ t f, exec (.pullRequestTimeout tag) s = .next t ∧ portFrames t.hub 6 = portFrames s.hub 6 ++ [f]
      ∧ f.dst = rd s.hub 0x2F01_03
      ∧ f.payload = [BitVec.ofNat 48 (tag % 256 * 2 ^ 40 + rd s.hub 0x2F01_04 % 2 * 2 ^ 32 + r.2.1 % 2 ^ 32),
          BitVec.ofNat 48 (r.2.2.1 % 65536)]
      ∧ t.hub.update.requests
          = s.hub.update.requests.map (fun x => if x.1 = tag then (x.1, x.2.1, x.2.2.1, x.2.2.2 + 1) else x)
      ∧ t.hub.dict = s.hub.dict))
  ∧ (∀ tag s, (s.hub.update.requests.find? fun r => r.1 == tag) = none ∨ updateState s.hub ≠ 1 ∨ s.hub.update.busy = true →
    exec (.pullRequestTimeout tag) s = .next s)
  ∧ (∀ s, (updateState s.hub ≠ 1 ∨ s.hub.update.busy = false → exec .pullBusyWait s = .next s)
    ∧ (updateState s.hub = 1 → s.hub.update.busy = true → hubNumber s.hub ≠ 0 → ∃ t fs, exec .pullBusyWait s = .next t ∧ t.hub.update.busy = false
      ∧ portFrames t.hub 6 = portFrames s.hub 6 ++ fs ∧ fs.length = s.hub.update.requests.length
      ∧ t.hub.update.requests = s.hub.update.requests ∧ t.hub.dict = s.hub.dict))
  ∧ (∀ aon s, ∃ t, exec (.powerLoss aon) s = .next t ∧ t.hub.env = { s.hub.env with supplies := false, resetLow := true }
      ∧ t.hub.update.slotA = s.hub.update.slotA ∧ t.hub.update.slotB = s.hub.update.slotB
      ∧ t.hub.update.floor = s.hub.update.floor ∧ t.hub.update.revoked = s.hub.update.revoked
      ∧ t.hub.dome.srk = s.hub.dome.srk ∧ t.hub.dome.ceiling = s.hub.dome.ceiling
      ∧ t.hub.dome.generation = s.hub.dome.generation ∧ t.hub.watch.records = [] ∧ (∀ k, rdW t.hub k = slotDefault k)
      ∧ (s.hub.store.job = none → t.hub.copyA = s.hub.copyA ∧ t.hub.copyB = s.hub.copyB)
      ∧ (∀ j, s.hub.store.job = some j → (if j.toB then t.hub.copyB else t.hub.copyA) = some brokenCopy
        ∧ (if j.toB then t.hub.copyA else t.hub.copyB) = (if j.toB then s.hub.copyA else s.hub.copyB))
      ∧ (aon = true → t.hub.dome.epoch = s.hub.dome.epoch ∧ t.hub.dome.epochValid = s.hub.dome.epochValid
        ∧ t.hub.watch.previous = captureCopy s.hub ∧ t.hub.watch.backstopRec = s.hub.watch.backstopRec)
      ∧ (aon = false → t.hub.dome.epochValid = false ∧ t.hub.watch.backstopRec = none))

/-! ### The whole machine -/

/-- R21, R22, R584 and the canonical forms of assumption log 2: the hub is sound right after reset. -/
def Obligations.HubIsSoundAtReset : Prop := State.reset.hub.Sound

/-- R21, R22, R584: every step from a sound hub leaves a sound hub: the register file and Canopy memory stay in canonical form, no crossing
holds more than its four entries or makes a transfer wait while one is free, and at most one MSI-X message per vector waits. -/
def Obligations.EveryStepKeepsTheHubSound : Prop :=
  ∀ s t : State, s.hub.Sound → step s = .next t → t.hub.Sound

/-- A step takes the command in front and runs it on the hub with the rest of the queue. On an empty queue one 4 ns tick of the Spire clock
passes instead, which the model chose (DESIGN CHOICE, assumption log 2). -/
def Obligations.StepRunsTheCommandInFront : Prop :=
  (∀ c q h, step { pending := c :: q, hub := h } = exec c { pending := q, hub := h })
  ∧ (∀ h, step { pending := [], hub := h } = .next { pending := [], hub := tick h })

/-- Every command answers a next state, whatever its operands and the hub, and leaves the queue to the step: the spec gives each of its
commands an effect (a command whose condition does not hold changes nothing, DESIGN CHOICE, assumption log 7). -/
def Obligations.EveryCommandAnswersANextState : Prop :=
  ∀ c s, ∃ h, exec c s = .next { s with hub := h }
end

