-- ==== Sys2Proof/Laws/Tables.lean ====
section
/-! SUPPORT. Sparse tables: what a key reads as after a write, the canonical form every operation keeps, sound hubs. -/

namespace Sys2Proof.Machine

theorem tabGet_tabSet_self {α : Type} (d : α) (t : Tab α) (k : Nat) (v : α) : tabGet d (tabSet t k v) k = v := by
  induction t with
  | nil => simp [tabSet, tabGet]
  | cons e t ih =>
    obtain ⟨k', v'⟩ := e
    by_cases h1 : k < k'
    · simp [tabSet, tabGet, h1]
    · by_cases h2 : k = k' <;> simp [tabSet, tabGet, h1, h2, ih]

theorem tabGet_tabSet_ne {α : Type} (d : α) (t : Tab α) (k j : Nat) (v : α) (h : j ≠ k) :
    tabGet d (tabSet t k v) j = tabGet d t j := by
  induction t with
  | nil => simp [tabSet, tabGet, h]
  | cons e t ih =>
    obtain ⟨k', v'⟩ := e
    by_cases h1 : k < k'
    · simp [tabSet, tabGet, h1, h]
    · by_cases h2 : k = k'
      · subst h2; simp [tabSet, tabGet, h]
      · by_cases h3 : j = k' <;> simp [tabSet, tabGet, h1, h2, h3, ih]

theorem tabGet_tabErase_self {α : Type} (d : α) (t : Tab α) (k : Nat) : tabGet d (tabErase t k) k = d := by
  induction t with
  | nil => simp [tabErase, tabGet]
  | cons e t ih =>
    obtain ⟨k', v'⟩ := e
    by_cases h : k' = k
    · subst h; simpa [tabErase] using ih
    · have : tabErase ((k', v') :: t) k = (k', v') :: tabErase t k := by simp [tabErase, h]
      rw [this]; simp only [tabGet]; rw [if_neg (Ne.symm h)]; exact ih

theorem tabGet_tabErase_ne {α : Type} (d : α) (t : Tab α) (k j : Nat) (h : j ≠ k) :
    tabGet d (tabErase t k) j = tabGet d t j := by
  induction t with
  | nil => simp [tabErase, tabGet]
  | cons e t ih =>
    obtain ⟨k', v'⟩ := e
    by_cases h1 : k' = k
    · subst h1
      have : tabErase ((k', v') :: t) k' = tabErase t k' := by simp [tabErase]
      rw [this, ih]; simp [tabGet, h]
    · have : tabErase ((k', v') :: t) k = (k', v') :: tabErase t k := by simp [tabErase, h1]
      rw [this]; simp only [tabGet]; split
      · rfl
      · exact ih

/-- A key reads as what was written to it. -/
theorem cellGet_cellSet_self {α : Type} [DecidableEq α] (d : Nat → α) (t : Tab α) (k : Nat) (v : α) :
    cellGet d (cellSet d t k v) k = v := by
  unfold cellGet cellSet
  split
  · next h => rw [tabGet_tabErase_self]; exact h.symm
  · exact tabGet_tabSet_self _ _ _ _

/-- Every other key reads as before. -/
theorem cellGet_cellSet_ne {α : Type} [DecidableEq α] (d : Nat → α) (t : Tab α) (k j : Nat) (v : α) (h : j ≠ k) :
    cellGet d (cellSet d t k v) j = cellGet d t j := by
  unfold cellGet cellSet
  split
  · exact tabGet_tabErase_ne _ _ _ _ h
  · exact tabGet_tabSet_ne _ _ _ _ _ h

/-! ### Canonical form -/

theorem keysRise_iff {α : Type} (t : Tab α) : keysRise t = true ↔ t.Pairwise (fun a b => a.1 < b.1) := by
  induction t with
  | nil => simp [keysRise]
  | cons a t ih =>
    cases t with
    | nil => simp [keysRise]
    | cons b t =>
      rw [List.pairwise_cons, ← ih]
      simp only [keysRise, Bool.and_eq_true, decide_eq_true_eq]
      constructor
      · rintro ⟨h1, h2⟩
        refine ⟨?_, h2⟩
        intro c hc
        rcases List.mem_cons.1 hc with rfl | hc
        · exact h1
        · exact Nat.lt_trans h1 ((List.pairwise_cons.1 (ih.1 h2)).1 c hc)
      · rintro ⟨h1, h2⟩
        exact ⟨h1 b (by simp), h2⟩

theorem cellsWf_iff {α : Type} [DecidableEq α] (d : Nat → α) (t : Tab α) :
    cellsWf d t = true ↔ t.Pairwise (fun a b => a.1 < b.1) ∧ ∀ e ∈ t, e.2 ≠ d e.1 := by
  simp [cellsWf, keysRise_iff]

theorem tabSet_pairwise {α : Type} (t : Tab α) (k : Nat) (v : α) (h : t.Pairwise (fun a b => a.1 < b.1)) :
    (tabSet t k v).Pairwise (fun a b => a.1 < b.1) ∧ ∀ e ∈ tabSet t k v, e = (k, v) ∨ e ∈ t := by
  induction t with
  | nil => simp [tabSet]
  | cons e t ih =>
    obtain ⟨k', v'⟩ := e
    have hc := List.pairwise_cons.1 h
    by_cases h1 : k < k'
    · simp only [tabSet, h1, if_true]
      refine ⟨List.pairwise_cons.2 ⟨?_, h⟩, by simp⟩
      intro c hc'
      rcases List.mem_cons.1 hc' with rfl | hc'
      · exact h1
      · exact Nat.lt_trans h1 (hc.1 c hc')
    · by_cases h2 : k = k'
      · subst h2
        simp only [tabSet, Nat.lt_irrefl, if_false, if_true]
        refine ⟨List.pairwise_cons.2 ⟨hc.1, hc.2⟩, ?_⟩
        intro e he
        rcases List.mem_cons.1 he with rfl | he
        · exact .inl rfl
        · exact .inr (List.mem_cons_of_mem _ he)
      · simp only [tabSet, h1, if_false, h2]
        have hi := ih hc.2
        refine ⟨List.pairwise_cons.2 ⟨?_, hi.1⟩, ?_⟩
        · intro e he
          rcases hi.2 e he with rfl | he
          · show k' < k; omega
          · exact hc.1 e he
        · intro e he
          rcases List.mem_cons.1 he with rfl | he
          · exact .inr (by simp)
          · rcases hi.2 e he with rfl | he
            · exact .inl rfl
            · exact .inr (List.mem_cons_of_mem _ he)

/-- A filter keeps the canonical form. -/
theorem cellsWf_filter {α : Type} [DecidableEq α] (d : Nat → α) (t : Tab α) (q : Nat × α → Bool) (h : cellsWf d t = true) :
    cellsWf d (t.filter q) = true := by
  rw [cellsWf_iff] at *
  exact ⟨h.1.filter _, fun e he => h.2 e (List.mem_of_mem_filter he)⟩

/-- A write keeps the canonical form. -/
theorem cellsWf_cellSet {α : Type} [DecidableEq α] (d : Nat → α) (t : Tab α) (k : Nat) (v : α) (h : cellsWf d t = true) :
    cellsWf d (cellSet d t k v) = true := by
  unfold cellSet
  split
  · exact cellsWf_filter d t _ h
  · next hv =>
    rw [cellsWf_iff] at *
    have := tabSet_pairwise t k v h.1
    refine ⟨this.1, fun e he => ?_⟩
    rcases this.2 e he with rfl | he
    · exact hv
    · exact h.2 e he

/-! ### Registers -/

theorem rdW_wrW_self (h : Hub) (k : Nat) (v : Word) : rdW (wrW h k v) k = v := cellGet_cellSet_self _ _ _ _

theorem rdW_wrW_ne (h : Hub) (k j : Nat) (v : Word) (hk : j ≠ k) : rdW (wrW h k v) j = rdW h j :=
  cellGet_cellSet_ne _ _ _ _ _ hk

/-- A register reads as the low 48 bits of what was written. -/
theorem rd_wr_self (h : Hub) (k v : Nat) : rd (wr h k v) k = v % 2 ^ 48 := by
  simp [rd, wr, rdW_wrW_self, BitVec.toNat_ofNat]

/-- Every other register reads as before. -/
theorem rd_wr_ne (h : Hub) (k j v : Nat) (hk : j ≠ k) : rd (wr h k v) j = rd h j := by
  simp [rd, wr, rdW_wrW_ne _ _ _ _ hk]

/-- What a register reads as depends on the register file alone. -/
theorem rd_dict (g h : Hub) (e : g.dict = h.dict) (k : Nat) : rd g k = rd h k := by simp [rd, rdW, e]

theorem rd_lt (h : Hub) (k : Nat) : rd h k < 2 ^ 48 := (rdW h k).isLt

/-! ### Canopy memory -/

/-- A write of one byte keeps the canonical form. -/
theorem wf_memSet (m : List Host.Cell) (a : Nat) (b : Byte) (h : Memory.wf m = true) : Memory.wf (memSet m a b) = true := by
  unfold memSet
  split
  · exact h
  · exact cellsWf_cellSet memDefault m a b h

/-- A write of a word keeps the canonical form. -/
theorem wf_memPut (m : List Host.Cell) (w : Nat) (v : Word) (mask : Nat) (h : Memory.wf m = true) :
    Memory.wf (memPut m w v mask) = true := by
  unfold memPut
  generalize List.range 6 = l
  induction l generalizing m with
  | nil => exact h
  | cons k l ih =>
    simp only [List.foldl_cons]
    apply ih
    split
    · exact wf_memSet _ _ _ h
    · exact h

/-- A region cleared keeps the canonical form. -/
theorem wf_memFilter (m : List Host.Cell) (q : Host.Cell → Bool) (h : Memory.wf m = true) : Memory.wf (m.filter q) = true :=
  cellsWf_filter memDefault m q h

/-- A byte reads as written, but bytes 6 and 7 of a slot read 0 (R35). -/
theorem memByte_memSet_self (m : List Host.Cell) (a : Nat) (b : Byte) :
    memByte (memSet m a b) a = if 6 ≤ a % 8 then 0 else b := by
  unfold memByte memSet
  split
  · rfl
  · exact cellGet_cellSet_self memDefault m a b

/-- Every other byte reads as before. -/
theorem memByte_memSet_ne (m : List Host.Cell) (a j : Nat) (b : Byte) (h : j ≠ a) :
    memByte (memSet m a b) j = memByte m j := by
  unfold memByte memSet
  split
  · rfl
  · split
    · rfl
    · exact cellGet_cellSet_ne memDefault m a j b h

/-! ### Sound hubs -/

theorem mem_tabSet {α : Type} {t : Tab α} {k : Nat} {v : α} {e : Nat × α} (m : e ∈ tabSet t k v) : e = (k, v) ∨ e ∈ t := by
  induction t with
  | nil => left; simpa [tabSet] using m
  | cons a t ih =>
    obtain ⟨k', v'⟩ := a
    unfold tabSet at m
    split at m
    · simpa using m
    · split at m
      · rcases List.mem_cons.1 m with rfl | m
        · exact .inl rfl
        · exact .inr (List.mem_cons_of_mem _ m)
      · rcases List.mem_cons.1 m with rfl | m
        · exact .inr (by simp)
        · rcases ih m with rfl | m
          · exact .inl rfl
          · exact .inr (List.mem_cons_of_mem _ m)

/-- What a table gives has a property its entries and the default have. -/
theorem tabGet_has {α : Type} (p : α → Prop) (d : α) (t : Tab α) (k : Nat) (hd : p d) (ht : ∀ e ∈ t, p e.2) : p (tabGet d t k) := by
  induction t with
  | nil => exact hd
  | cons e t ih =>
    unfold tabGet
    split
    · exact ht e (by simp)
    · exact ih fun x m => ht x (List.mem_cons_of_mem _ m)

theorem sound_intro {h : Hub} (c : cellsWf slotDefault h.dict = true ∧ Memory.wf h.canopy.mem = true ∧ (∀ e ∈ h.crossings, crossingOk e.2) ∧ h.msix.Nodup) : h.Sound := c

theorem id_sound {h : Hub} (c : h.Sound) : (id h).Sound := c

theorem pair_sound {α : Type} {x : α × Hub} {a : α} {b : Hub} (e : x = (a, b)) (c : x.2.Sound) : b.Sound := by subst e; exact c

/-- The hub at power-on is sound. -/
theorem reset_sound : Hub.reset.Sound := ⟨rfl, rfl, by simp [Hub.reset], by simp [Hub.reset]⟩

/-- What an attempt to host an object leaves is sound. -/
def Alloc.Sound : Alloc → Prop
  | .no _ => True
  | .wait h => h.Sound
  | .yes _ h => h.Sound

theorem alloc_no (c : Nat) : (Alloc.no c).Sound := trivial

theorem alloc_intro_wait {h : Hub} (c : h.Sound) : (Alloc.wait h).Sound := c

theorem alloc_intro_yes {b : Nat} {h : Hub} (c : h.Sound) : (Alloc.yes b h).Sound := c

theorem alloc_yes {x : Alloc} {b : Nat} {a : Hub} (e : x = .yes b a) (c : x.Sound) : a.Sound := by subst e; exact c

theorem alloc_wait {x : Alloc} {a : Hub} (e : x = .wait a) (c : x.Sound) : a.Sound := by subst e; exact c

/-- A meaning keeps a hub sound. -/
def Keeps (f : State → Host.Outcome State Fault Refusal) : Prop :=
  ∀ s t, s.hub.Sound → f s = .next t → t.hub.Sound

theorem keeps_onHub {f : Hub → Hub} (c : ∀ x, x.Sound → (f x).Sound) : Keeps (fun s => onHub s f) := by
  intro s t hs e
  cases e
  exact c _ hs

/-- A row a write is routed to, if any, keeps a hub sound. -/
def AllKeep (o : Option (Hub → Hub)) : Prop := ∀ f, o = some f → ∀ x, x.Sound → (f x).Sound

theorem own_sound {o : Option (Hub → Hub)} {f : Hub → Hub} {h : Hub} (e : o = some f) (k : AllKeep o) (c : h.Sound) : (f h).Sound :=
  k f e h c

theorem allKeep_ite {c : Prop} [Decidable c] {a b : Option (Hub → Hub)} (ka : AllKeep a) (kb : AllKeep b) :
    AllKeep (if c then a else b) := by
  split
  · exact ka
  · exact kb

theorem allKeep_none : AllKeep none := by intro f e; cases e

theorem allKeep_some {f : Hub → Hub} (c : ∀ x, x.Sound → (f x).Sound) : AllKeep (some f) := by
  intro g e; cases e; exact c

theorem sound_elim {h : Hub} (c : h.Sound) : cellsWf slotDefault h.dict = true ∧ Memory.wf h.canopy.mem = true
    ∧ (∀ e ∈ h.crossings, crossingOk e.2) ∧ h.msix.Nodup := c

end Sys2Proof.Machine
end

