-- ==== Sys2Proof/Laws/State.lean ====
section
/-! SUPPORT. What each shared operation leaves as it was: one equation per operation, and one lemma per field. -/

namespace Sys2Proof.Machine

/-- A hub without the register file. -/
def noDict (h : Hub) : Hub := { h with dict := [] }

/-- A hub without what raising an event may change: the register file, MSI-X requests, frames at the internal ports and their
numbers, the stamps Watchtower keeps. -/
def noEvent (h : Hub) : Hub := { h with dict := [], msix := [], portQ := [], seqs := [], watch := { h.watch with channelStamp := [], rates := [] } }

theorem noDict_wrs (h : Hub) (l : List (Nat × Nat)) : noDict (wrs h l) = noDict h := by
  induction l generalizing h with
  | nil => rfl
  | cons e l ih => exact ih (wr h e.1 e.2)

theorem noDict_wr (h : Hub) (k v : Nat) : noDict (wr h k v) = noDict h := rfl

theorem noDict_wrStamp (h : Hub) (k i : Nat) : noDict (wrStamp h k i) = noDict h := rfl

theorem noEvent_of (g h : Hub) (e : noDict g = noDict h) : noEvent g = noEvent h :=
  congrArg (fun x : Hub => { x with dict := [], msix := [], portQ := [], seqs := [], watch := { x.watch with channelStamp := [], rates := [] } }) e

theorem noEvent_requestMsix (h : Hub) (v : Nat) : noEvent (requestMsix h v) = noEvent h := by unfold requestMsix; split <;> rfl

theorem noEvent_pushLog (h : Hub) (b w n : Nat) (l : List Nat) : noEvent (pushLog h b w n l) = noEvent h := noEvent_of _ _ (noDict_wrs _ _)

theorem noEvent_wr (h : Hub) (k v : Nat) : noEvent (wr h k v) = noEvent h := rfl

theorem noEvent_raiseLocal (h : Hub) (e i v : Nat) : noEvent (raiseLocal h e i v) = noEvent h := by
  unfold raiseLocal
  simp only []
  split
  · rw [noEvent_requestMsix, noEvent_pushLog, noEvent_wr]
  · rw [noEvent_pushLog, noEvent_wr]

theorem noEvent_originate (h : Hub) (p t : Nat) (c : Cls) (d x g : Nat) (l : List Word) : noEvent (originate h p t c d x g l) = noEvent h := by
  unfold originate; split <;> rfl

theorem noEvent_ringEventFrame (h : Hub) (c e i v : Nat) : noEvent (ringEventFrame h c e i v) = noEvent h := by
  unfold ringEventFrame
  split
  · rw [noEvent_raiseLocal]; rfl
  · exact noEvent_of _ _ rfl |>.trans (noEvent_originate h _ _ _ _ _ _ _)

theorem noEvent_raiseEvent (h : Hub) (e i v : Nat) : noEvent (raiseEvent h e i v) = noEvent h := by
  unfold raiseEvent
  simp only []
  split
  · rw [noEvent_ringEventFrame, noEvent_raiseLocal]
  · rw [noEvent_raiseLocal]

theorem noEvent_raiseKeyed (h : Hub) (k e i v p : Nat) : noEvent (raiseKeyed h k e i v p) = noEvent h := by
  unfold raiseKeyed
  split
  · rfl
  · rw [noEvent_raiseEvent]; rfl

@[simp] theorem wrW_freeCount (h : Hub) (k : Nat) (v : Word) : (wrW h k v).freeCount = h.freeCount := rfl
@[simp] theorem wrW_answer (h : Hub) (k : Nat) (v : Word) : (wrW h k v).answer = h.answer := rfl
@[simp] theorem wrW_env (h : Hub) (k : Nat) (v : Word) : (wrW h k v).env = h.env := rfl
@[simp] theorem wrW_boot (h : Hub) (k : Nat) (v : Word) : (wrW h k v).boot = h.boot := rfl
@[simp] theorem wrW_modes (h : Hub) (k : Nat) (v : Word) : (wrW h k v).modes = h.modes := rfl
@[simp] theorem wrW_stopped (h : Hub) (k : Nat) (v : Word) : (wrW h k v).stopped = h.stopped := rfl
@[simp] theorem wrW_crossings (h : Hub) (k : Nat) (v : Word) : (wrW h k v).crossings = h.crossings := rfl
@[simp] theorem wrW_paths (h : Hub) (k : Nat) (v : Word) : (wrW h k v).paths = h.paths := rfl
@[simp] theorem wrW_hostHalf (h : Hub) (k : Nat) (v : Word) : (wrW h k v).hostHalf = h.hostHalf := rfl
@[simp] theorem wrW_mailbox (h : Hub) (k : Nat) (v : Word) : (wrW h k v).mailbox = h.mailbox := rfl
@[simp] theorem wrW_store (h : Hub) (k : Nat) (v : Word) : (wrW h k v).store = h.store := rfl
@[simp] theorem wrW_copyA (h : Hub) (k : Nat) (v : Word) : (wrW h k v).copyA = h.copyA := rfl
@[simp] theorem wrW_copyB (h : Hub) (k : Nat) (v : Word) : (wrW h k v).copyB = h.copyB := rfl
@[simp] theorem wrW_watch (h : Hub) (k : Nat) (v : Word) : (wrW h k v).watch = h.watch := rfl
@[simp] theorem wrW_spire (h : Hub) (k : Nat) (v : Word) : (wrW h k v).spire = h.spire := rfl
@[simp] theorem wrW_portQ (h : Hub) (k : Nat) (v : Word) : (wrW h k v).portQ = h.portQ := rfl
@[simp] theorem wrW_seqs (h : Hub) (k : Nat) (v : Word) : (wrW h k v).seqs = h.seqs := rfl
@[simp] theorem wrW_msix (h : Hub) (k : Nat) (v : Word) : (wrW h k v).msix = h.msix := rfl
@[simp] theorem wrW_cyc (h : Hub) (k : Nat) (v : Word) : (wrW h k v).cyc = h.cyc := rfl
@[simp] theorem wrW_engines (h : Hub) (k : Nat) (v : Word) : (wrW h k v).engines = h.engines := rfl
@[simp] theorem wrW_pads (h : Hub) (k : Nat) (v : Word) : (wrW h k v).pads = h.pads := rfl
@[simp] theorem wrW_fifos (h : Hub) (k : Nat) (v : Word) : (wrW h k v).fifos = h.fifos := rfl
@[simp] theorem wrW_sessions (h : Hub) (k : Nat) (v : Word) : (wrW h k v).sessions = h.sessions := rfl
@[simp] theorem wrW_fuses (h : Hub) (k : Nat) (v : Word) : (wrW h k v).fuses = h.fuses := rfl
@[simp] theorem wrW_adc (h : Hub) (k : Nat) (v : Word) : (wrW h k v).adc = h.adc := rfl
@[simp] theorem wrW_power (h : Hub) (k : Nat) (v : Word) : (wrW h k v).power = h.power := rfl
@[simp] theorem wrW_sleep (h : Hub) (k : Nat) (v : Word) : (wrW h k v).sleep = h.sleep := rfl
@[simp] theorem wrW_dome (h : Hub) (k : Nat) (v : Word) : (wrW h k v).dome = h.dome := rfl
@[simp] theorem wrW_links (h : Hub) (k : Nat) (v : Word) : (wrW h k v).links = h.links := rfl
@[simp] theorem wrW_tx (h : Hub) (k : Nat) (v : Word) : (wrW h k v).tx = h.tx := rfl
@[simp] theorem wrW_ring (h : Hub) (k : Nat) (v : Word) : (wrW h k v).ring = h.ring := rfl
@[simp] theorem wrW_belfry (h : Hub) (k : Nat) (v : Word) : (wrW h k v).belfry = h.belfry := rfl
@[simp] theorem wrW_channels (h : Hub) (k : Nat) (v : Word) : (wrW h k v).channels = h.channels := rfl
@[simp] theorem wrW_canopy (h : Hub) (k : Nat) (v : Word) : (wrW h k v).canopy = h.canopy := rfl
@[simp] theorem wrW_host (h : Hub) (k : Nat) (v : Word) : (wrW h k v).host = h.host := rfl
@[simp] theorem wrW_forester (h : Hub) (k : Nat) (v : Word) : (wrW h k v).forester = h.forester := rfl
@[simp] theorem wrW_can (h : Hub) (k : Nat) (v : Word) : (wrW h k v).can = h.can := rfl
@[simp] theorem wrW_canopen (h : Hub) (k : Nat) (v : Word) : (wrW h k v).canopen = h.canopen := rfl
@[simp] theorem wrW_t1s (h : Hub) (k : Nat) (v : Word) : (wrW h k v).t1s = h.t1s := rfl
@[simp] theorem wrW_update (h : Hub) (k : Nat) (v : Word) : (wrW h k v).update = h.update := rfl

@[simp] theorem wr_freeCount (h : Hub) (k v : Nat) : (wr h k v).freeCount = h.freeCount := rfl
@[simp] theorem wr_answer (h : Hub) (k v : Nat) : (wr h k v).answer = h.answer := rfl
@[simp] theorem wr_env (h : Hub) (k v : Nat) : (wr h k v).env = h.env := rfl
@[simp] theorem wr_boot (h : Hub) (k v : Nat) : (wr h k v).boot = h.boot := rfl
@[simp] theorem wr_modes (h : Hub) (k v : Nat) : (wr h k v).modes = h.modes := rfl
@[simp] theorem wr_stopped (h : Hub) (k v : Nat) : (wr h k v).stopped = h.stopped := rfl
@[simp] theorem wr_crossings (h : Hub) (k v : Nat) : (wr h k v).crossings = h.crossings := rfl
@[simp] theorem wr_paths (h : Hub) (k v : Nat) : (wr h k v).paths = h.paths := rfl
@[simp] theorem wr_hostHalf (h : Hub) (k v : Nat) : (wr h k v).hostHalf = h.hostHalf := rfl
@[simp] theorem wr_mailbox (h : Hub) (k v : Nat) : (wr h k v).mailbox = h.mailbox := rfl
@[simp] theorem wr_store (h : Hub) (k v : Nat) : (wr h k v).store = h.store := rfl
@[simp] theorem wr_copyA (h : Hub) (k v : Nat) : (wr h k v).copyA = h.copyA := rfl
@[simp] theorem wr_copyB (h : Hub) (k v : Nat) : (wr h k v).copyB = h.copyB := rfl
@[simp] theorem wr_watch (h : Hub) (k v : Nat) : (wr h k v).watch = h.watch := rfl
@[simp] theorem wr_spire (h : Hub) (k v : Nat) : (wr h k v).spire = h.spire := rfl
@[simp] theorem wr_portQ (h : Hub) (k v : Nat) : (wr h k v).portQ = h.portQ := rfl
@[simp] theorem wr_seqs (h : Hub) (k v : Nat) : (wr h k v).seqs = h.seqs := rfl
@[simp] theorem wr_msix (h : Hub) (k v : Nat) : (wr h k v).msix = h.msix := rfl
@[simp] theorem wr_cyc (h : Hub) (k v : Nat) : (wr h k v).cyc = h.cyc := rfl
@[simp] theorem wr_engines (h : Hub) (k v : Nat) : (wr h k v).engines = h.engines := rfl
@[simp] theorem wr_pads (h : Hub) (k v : Nat) : (wr h k v).pads = h.pads := rfl
@[simp] theorem wr_fifos (h : Hub) (k v : Nat) : (wr h k v).fifos = h.fifos := rfl
@[simp] theorem wr_sessions (h : Hub) (k v : Nat) : (wr h k v).sessions = h.sessions := rfl
@[simp] theorem wr_fuses (h : Hub) (k v : Nat) : (wr h k v).fuses = h.fuses := rfl
@[simp] theorem wr_adc (h : Hub) (k v : Nat) : (wr h k v).adc = h.adc := rfl
@[simp] theorem wr_power (h : Hub) (k v : Nat) : (wr h k v).power = h.power := rfl
@[simp] theorem wr_sleep (h : Hub) (k v : Nat) : (wr h k v).sleep = h.sleep := rfl
@[simp] theorem wr_dome (h : Hub) (k v : Nat) : (wr h k v).dome = h.dome := rfl
@[simp] theorem wr_links (h : Hub) (k v : Nat) : (wr h k v).links = h.links := rfl
@[simp] theorem wr_tx (h : Hub) (k v : Nat) : (wr h k v).tx = h.tx := rfl
@[simp] theorem wr_ring (h : Hub) (k v : Nat) : (wr h k v).ring = h.ring := rfl
@[simp] theorem wr_belfry (h : Hub) (k v : Nat) : (wr h k v).belfry = h.belfry := rfl
@[simp] theorem wr_channels (h : Hub) (k v : Nat) : (wr h k v).channels = h.channels := rfl
@[simp] theorem wr_canopy (h : Hub) (k v : Nat) : (wr h k v).canopy = h.canopy := rfl
@[simp] theorem wr_host (h : Hub) (k v : Nat) : (wr h k v).host = h.host := rfl
@[simp] theorem wr_forester (h : Hub) (k v : Nat) : (wr h k v).forester = h.forester := rfl
@[simp] theorem wr_can (h : Hub) (k v : Nat) : (wr h k v).can = h.can := rfl
@[simp] theorem wr_canopen (h : Hub) (k v : Nat) : (wr h k v).canopen = h.canopen := rfl
@[simp] theorem wr_t1s (h : Hub) (k v : Nat) : (wr h k v).t1s = h.t1s := rfl
@[simp] theorem wr_update (h : Hub) (k v : Nat) : (wr h k v).update = h.update := rfl

@[simp] theorem wrs_freeCount (h : Hub) (l : List (Nat × Nat)) : (wrs h l).freeCount = h.freeCount := (congrArg Hub.freeCount (noDict_wrs h l) :)
@[simp] theorem wrs_answer (h : Hub) (l : List (Nat × Nat)) : (wrs h l).answer = h.answer := (congrArg Hub.answer (noDict_wrs h l) :)
@[simp] theorem wrs_env (h : Hub) (l : List (Nat × Nat)) : (wrs h l).env = h.env := (congrArg Hub.env (noDict_wrs h l) :)
@[simp] theorem wrs_boot (h : Hub) (l : List (Nat × Nat)) : (wrs h l).boot = h.boot := (congrArg Hub.boot (noDict_wrs h l) :)
@[simp] theorem wrs_modes (h : Hub) (l : List (Nat × Nat)) : (wrs h l).modes = h.modes := (congrArg Hub.modes (noDict_wrs h l) :)
@[simp] theorem wrs_stopped (h : Hub) (l : List (Nat × Nat)) : (wrs h l).stopped = h.stopped := (congrArg Hub.stopped (noDict_wrs h l) :)
@[simp] theorem wrs_crossings (h : Hub) (l : List (Nat × Nat)) : (wrs h l).crossings = h.crossings := (congrArg Hub.crossings (noDict_wrs h l) :)
@[simp] theorem wrs_paths (h : Hub) (l : List (Nat × Nat)) : (wrs h l).paths = h.paths := (congrArg Hub.paths (noDict_wrs h l) :)
@[simp] theorem wrs_hostHalf (h : Hub) (l : List (Nat × Nat)) : (wrs h l).hostHalf = h.hostHalf := (congrArg Hub.hostHalf (noDict_wrs h l) :)
@[simp] theorem wrs_mailbox (h : Hub) (l : List (Nat × Nat)) : (wrs h l).mailbox = h.mailbox := (congrArg Hub.mailbox (noDict_wrs h l) :)
@[simp] theorem wrs_store (h : Hub) (l : List (Nat × Nat)) : (wrs h l).store = h.store := (congrArg Hub.store (noDict_wrs h l) :)
@[simp] theorem wrs_copyA (h : Hub) (l : List (Nat × Nat)) : (wrs h l).copyA = h.copyA := (congrArg Hub.copyA (noDict_wrs h l) :)
@[simp] theorem wrs_copyB (h : Hub) (l : List (Nat × Nat)) : (wrs h l).copyB = h.copyB := (congrArg Hub.copyB (noDict_wrs h l) :)
@[simp] theorem wrs_watch (h : Hub) (l : List (Nat × Nat)) : (wrs h l).watch = h.watch := (congrArg Hub.watch (noDict_wrs h l) :)
@[simp] theorem wrs_spire (h : Hub) (l : List (Nat × Nat)) : (wrs h l).spire = h.spire := (congrArg Hub.spire (noDict_wrs h l) :)
@[simp] theorem wrs_portQ (h : Hub) (l : List (Nat × Nat)) : (wrs h l).portQ = h.portQ := (congrArg Hub.portQ (noDict_wrs h l) :)
@[simp] theorem wrs_seqs (h : Hub) (l : List (Nat × Nat)) : (wrs h l).seqs = h.seqs := (congrArg Hub.seqs (noDict_wrs h l) :)
@[simp] theorem wrs_msix (h : Hub) (l : List (Nat × Nat)) : (wrs h l).msix = h.msix := (congrArg Hub.msix (noDict_wrs h l) :)
@[simp] theorem wrs_cyc (h : Hub) (l : List (Nat × Nat)) : (wrs h l).cyc = h.cyc := (congrArg Hub.cyc (noDict_wrs h l) :)
@[simp] theorem wrs_engines (h : Hub) (l : List (Nat × Nat)) : (wrs h l).engines = h.engines := (congrArg Hub.engines (noDict_wrs h l) :)
@[simp] theorem wrs_pads (h : Hub) (l : List (Nat × Nat)) : (wrs h l).pads = h.pads := (congrArg Hub.pads (noDict_wrs h l) :)
@[simp] theorem wrs_fifos (h : Hub) (l : List (Nat × Nat)) : (wrs h l).fifos = h.fifos := (congrArg Hub.fifos (noDict_wrs h l) :)
@[simp] theorem wrs_sessions (h : Hub) (l : List (Nat × Nat)) : (wrs h l).sessions = h.sessions := (congrArg Hub.sessions (noDict_wrs h l) :)
@[simp] theorem wrs_fuses (h : Hub) (l : List (Nat × Nat)) : (wrs h l).fuses = h.fuses := (congrArg Hub.fuses (noDict_wrs h l) :)
@[simp] theorem wrs_adc (h : Hub) (l : List (Nat × Nat)) : (wrs h l).adc = h.adc := (congrArg Hub.adc (noDict_wrs h l) :)
@[simp] theorem wrs_power (h : Hub) (l : List (Nat × Nat)) : (wrs h l).power = h.power := (congrArg Hub.power (noDict_wrs h l) :)
@[simp] theorem wrs_sleep (h : Hub) (l : List (Nat × Nat)) : (wrs h l).sleep = h.sleep := (congrArg Hub.sleep (noDict_wrs h l) :)
@[simp] theorem wrs_dome (h : Hub) (l : List (Nat × Nat)) : (wrs h l).dome = h.dome := (congrArg Hub.dome (noDict_wrs h l) :)
@[simp] theorem wrs_links (h : Hub) (l : List (Nat × Nat)) : (wrs h l).links = h.links := (congrArg Hub.links (noDict_wrs h l) :)
@[simp] theorem wrs_tx (h : Hub) (l : List (Nat × Nat)) : (wrs h l).tx = h.tx := (congrArg Hub.tx (noDict_wrs h l) :)
@[simp] theorem wrs_ring (h : Hub) (l : List (Nat × Nat)) : (wrs h l).ring = h.ring := (congrArg Hub.ring (noDict_wrs h l) :)
@[simp] theorem wrs_belfry (h : Hub) (l : List (Nat × Nat)) : (wrs h l).belfry = h.belfry := (congrArg Hub.belfry (noDict_wrs h l) :)
@[simp] theorem wrs_channels (h : Hub) (l : List (Nat × Nat)) : (wrs h l).channels = h.channels := (congrArg Hub.channels (noDict_wrs h l) :)
@[simp] theorem wrs_canopy (h : Hub) (l : List (Nat × Nat)) : (wrs h l).canopy = h.canopy := (congrArg Hub.canopy (noDict_wrs h l) :)
@[simp] theorem wrs_host (h : Hub) (l : List (Nat × Nat)) : (wrs h l).host = h.host := (congrArg Hub.host (noDict_wrs h l) :)
@[simp] theorem wrs_forester (h : Hub) (l : List (Nat × Nat)) : (wrs h l).forester = h.forester := (congrArg Hub.forester (noDict_wrs h l) :)
@[simp] theorem wrs_can (h : Hub) (l : List (Nat × Nat)) : (wrs h l).can = h.can := (congrArg Hub.can (noDict_wrs h l) :)
@[simp] theorem wrs_canopen (h : Hub) (l : List (Nat × Nat)) : (wrs h l).canopen = h.canopen := (congrArg Hub.canopen (noDict_wrs h l) :)
@[simp] theorem wrs_t1s (h : Hub) (l : List (Nat × Nat)) : (wrs h l).t1s = h.t1s := (congrArg Hub.t1s (noDict_wrs h l) :)
@[simp] theorem wrs_update (h : Hub) (l : List (Nat × Nat)) : (wrs h l).update = h.update := (congrArg Hub.update (noDict_wrs h l) :)

@[simp] theorem bump_freeCount (h : Hub) (k : Nat) : (bump h k).freeCount = h.freeCount := rfl
@[simp] theorem bump_answer (h : Hub) (k : Nat) : (bump h k).answer = h.answer := rfl
@[simp] theorem bump_env (h : Hub) (k : Nat) : (bump h k).env = h.env := rfl
@[simp] theorem bump_boot (h : Hub) (k : Nat) : (bump h k).boot = h.boot := rfl
@[simp] theorem bump_modes (h : Hub) (k : Nat) : (bump h k).modes = h.modes := rfl
@[simp] theorem bump_stopped (h : Hub) (k : Nat) : (bump h k).stopped = h.stopped := rfl
@[simp] theorem bump_crossings (h : Hub) (k : Nat) : (bump h k).crossings = h.crossings := rfl
@[simp] theorem bump_paths (h : Hub) (k : Nat) : (bump h k).paths = h.paths := rfl
@[simp] theorem bump_hostHalf (h : Hub) (k : Nat) : (bump h k).hostHalf = h.hostHalf := rfl
@[simp] theorem bump_mailbox (h : Hub) (k : Nat) : (bump h k).mailbox = h.mailbox := rfl
@[simp] theorem bump_store (h : Hub) (k : Nat) : (bump h k).store = h.store := rfl
@[simp] theorem bump_copyA (h : Hub) (k : Nat) : (bump h k).copyA = h.copyA := rfl
@[simp] theorem bump_copyB (h : Hub) (k : Nat) : (bump h k).copyB = h.copyB := rfl
@[simp] theorem bump_watch (h : Hub) (k : Nat) : (bump h k).watch = h.watch := rfl
@[simp] theorem bump_spire (h : Hub) (k : Nat) : (bump h k).spire = h.spire := rfl
@[simp] theorem bump_portQ (h : Hub) (k : Nat) : (bump h k).portQ = h.portQ := rfl
@[simp] theorem bump_seqs (h : Hub) (k : Nat) : (bump h k).seqs = h.seqs := rfl
@[simp] theorem bump_msix (h : Hub) (k : Nat) : (bump h k).msix = h.msix := rfl
@[simp] theorem bump_cyc (h : Hub) (k : Nat) : (bump h k).cyc = h.cyc := rfl
@[simp] theorem bump_engines (h : Hub) (k : Nat) : (bump h k).engines = h.engines := rfl
@[simp] theorem bump_pads (h : Hub) (k : Nat) : (bump h k).pads = h.pads := rfl
@[simp] theorem bump_fifos (h : Hub) (k : Nat) : (bump h k).fifos = h.fifos := rfl
@[simp] theorem bump_sessions (h : Hub) (k : Nat) : (bump h k).sessions = h.sessions := rfl
@[simp] theorem bump_fuses (h : Hub) (k : Nat) : (bump h k).fuses = h.fuses := rfl
@[simp] theorem bump_adc (h : Hub) (k : Nat) : (bump h k).adc = h.adc := rfl
@[simp] theorem bump_power (h : Hub) (k : Nat) : (bump h k).power = h.power := rfl
@[simp] theorem bump_sleep (h : Hub) (k : Nat) : (bump h k).sleep = h.sleep := rfl
@[simp] theorem bump_dome (h : Hub) (k : Nat) : (bump h k).dome = h.dome := rfl
@[simp] theorem bump_links (h : Hub) (k : Nat) : (bump h k).links = h.links := rfl
@[simp] theorem bump_tx (h : Hub) (k : Nat) : (bump h k).tx = h.tx := rfl
@[simp] theorem bump_ring (h : Hub) (k : Nat) : (bump h k).ring = h.ring := rfl
@[simp] theorem bump_belfry (h : Hub) (k : Nat) : (bump h k).belfry = h.belfry := rfl
@[simp] theorem bump_channels (h : Hub) (k : Nat) : (bump h k).channels = h.channels := rfl
@[simp] theorem bump_canopy (h : Hub) (k : Nat) : (bump h k).canopy = h.canopy := rfl
@[simp] theorem bump_host (h : Hub) (k : Nat) : (bump h k).host = h.host := rfl
@[simp] theorem bump_forester (h : Hub) (k : Nat) : (bump h k).forester = h.forester := rfl
@[simp] theorem bump_can (h : Hub) (k : Nat) : (bump h k).can = h.can := rfl
@[simp] theorem bump_canopen (h : Hub) (k : Nat) : (bump h k).canopen = h.canopen := rfl
@[simp] theorem bump_t1s (h : Hub) (k : Nat) : (bump h k).t1s = h.t1s := rfl
@[simp] theorem bump_update (h : Hub) (k : Nat) : (bump h k).update = h.update := rfl

@[simp] theorem wrTime_freeCount (h : Hub) (k : Nat) : (wrTime h k).freeCount = h.freeCount := rfl
@[simp] theorem wrTime_answer (h : Hub) (k : Nat) : (wrTime h k).answer = h.answer := rfl
@[simp] theorem wrTime_env (h : Hub) (k : Nat) : (wrTime h k).env = h.env := rfl
@[simp] theorem wrTime_boot (h : Hub) (k : Nat) : (wrTime h k).boot = h.boot := rfl
@[simp] theorem wrTime_modes (h : Hub) (k : Nat) : (wrTime h k).modes = h.modes := rfl
@[simp] theorem wrTime_stopped (h : Hub) (k : Nat) : (wrTime h k).stopped = h.stopped := rfl
@[simp] theorem wrTime_crossings (h : Hub) (k : Nat) : (wrTime h k).crossings = h.crossings := rfl
@[simp] theorem wrTime_paths (h : Hub) (k : Nat) : (wrTime h k).paths = h.paths := rfl
@[simp] theorem wrTime_hostHalf (h : Hub) (k : Nat) : (wrTime h k).hostHalf = h.hostHalf := rfl
@[simp] theorem wrTime_mailbox (h : Hub) (k : Nat) : (wrTime h k).mailbox = h.mailbox := rfl
@[simp] theorem wrTime_store (h : Hub) (k : Nat) : (wrTime h k).store = h.store := rfl
@[simp] theorem wrTime_copyA (h : Hub) (k : Nat) : (wrTime h k).copyA = h.copyA := rfl
@[simp] theorem wrTime_copyB (h : Hub) (k : Nat) : (wrTime h k).copyB = h.copyB := rfl
@[simp] theorem wrTime_watch (h : Hub) (k : Nat) : (wrTime h k).watch = h.watch := rfl
@[simp] theorem wrTime_spire (h : Hub) (k : Nat) : (wrTime h k).spire = h.spire := rfl
@[simp] theorem wrTime_portQ (h : Hub) (k : Nat) : (wrTime h k).portQ = h.portQ := rfl
@[simp] theorem wrTime_seqs (h : Hub) (k : Nat) : (wrTime h k).seqs = h.seqs := rfl
@[simp] theorem wrTime_msix (h : Hub) (k : Nat) : (wrTime h k).msix = h.msix := rfl
@[simp] theorem wrTime_cyc (h : Hub) (k : Nat) : (wrTime h k).cyc = h.cyc := rfl
@[simp] theorem wrTime_engines (h : Hub) (k : Nat) : (wrTime h k).engines = h.engines := rfl
@[simp] theorem wrTime_pads (h : Hub) (k : Nat) : (wrTime h k).pads = h.pads := rfl
@[simp] theorem wrTime_fifos (h : Hub) (k : Nat) : (wrTime h k).fifos = h.fifos := rfl
@[simp] theorem wrTime_sessions (h : Hub) (k : Nat) : (wrTime h k).sessions = h.sessions := rfl
@[simp] theorem wrTime_fuses (h : Hub) (k : Nat) : (wrTime h k).fuses = h.fuses := rfl
@[simp] theorem wrTime_adc (h : Hub) (k : Nat) : (wrTime h k).adc = h.adc := rfl
@[simp] theorem wrTime_power (h : Hub) (k : Nat) : (wrTime h k).power = h.power := rfl
@[simp] theorem wrTime_sleep (h : Hub) (k : Nat) : (wrTime h k).sleep = h.sleep := rfl
@[simp] theorem wrTime_dome (h : Hub) (k : Nat) : (wrTime h k).dome = h.dome := rfl
@[simp] theorem wrTime_links (h : Hub) (k : Nat) : (wrTime h k).links = h.links := rfl
@[simp] theorem wrTime_tx (h : Hub) (k : Nat) : (wrTime h k).tx = h.tx := rfl
@[simp] theorem wrTime_ring (h : Hub) (k : Nat) : (wrTime h k).ring = h.ring := rfl
@[simp] theorem wrTime_belfry (h : Hub) (k : Nat) : (wrTime h k).belfry = h.belfry := rfl
@[simp] theorem wrTime_channels (h : Hub) (k : Nat) : (wrTime h k).channels = h.channels := rfl
@[simp] theorem wrTime_canopy (h : Hub) (k : Nat) : (wrTime h k).canopy = h.canopy := rfl
@[simp] theorem wrTime_host (h : Hub) (k : Nat) : (wrTime h k).host = h.host := rfl
@[simp] theorem wrTime_forester (h : Hub) (k : Nat) : (wrTime h k).forester = h.forester := rfl
@[simp] theorem wrTime_can (h : Hub) (k : Nat) : (wrTime h k).can = h.can := rfl
@[simp] theorem wrTime_canopen (h : Hub) (k : Nat) : (wrTime h k).canopen = h.canopen := rfl
@[simp] theorem wrTime_t1s (h : Hub) (k : Nat) : (wrTime h k).t1s = h.t1s := rfl
@[simp] theorem wrTime_update (h : Hub) (k : Nat) : (wrTime h k).update = h.update := rfl

@[simp] theorem answered_freeCount (a : Answer) (h : Hub) : (answered a h).freeCount = h.freeCount := rfl
@[simp] theorem answered_dict (a : Answer) (h : Hub) : (answered a h).dict = h.dict := rfl
@[simp] theorem answered_env (a : Answer) (h : Hub) : (answered a h).env = h.env := rfl
@[simp] theorem answered_boot (a : Answer) (h : Hub) : (answered a h).boot = h.boot := rfl
@[simp] theorem answered_modes (a : Answer) (h : Hub) : (answered a h).modes = h.modes := rfl
@[simp] theorem answered_stopped (a : Answer) (h : Hub) : (answered a h).stopped = h.stopped := rfl
@[simp] theorem answered_crossings (a : Answer) (h : Hub) : (answered a h).crossings = h.crossings := rfl
@[simp] theorem answered_paths (a : Answer) (h : Hub) : (answered a h).paths = h.paths := rfl
@[simp] theorem answered_hostHalf (a : Answer) (h : Hub) : (answered a h).hostHalf = h.hostHalf := rfl
@[simp] theorem answered_mailbox (a : Answer) (h : Hub) : (answered a h).mailbox = h.mailbox := rfl
@[simp] theorem answered_store (a : Answer) (h : Hub) : (answered a h).store = h.store := rfl
@[simp] theorem answered_copyA (a : Answer) (h : Hub) : (answered a h).copyA = h.copyA := rfl
@[simp] theorem answered_copyB (a : Answer) (h : Hub) : (answered a h).copyB = h.copyB := rfl
@[simp] theorem answered_watch (a : Answer) (h : Hub) : (answered a h).watch = h.watch := rfl
@[simp] theorem answered_spire (a : Answer) (h : Hub) : (answered a h).spire = h.spire := rfl
@[simp] theorem answered_portQ (a : Answer) (h : Hub) : (answered a h).portQ = h.portQ := rfl
@[simp] theorem answered_seqs (a : Answer) (h : Hub) : (answered a h).seqs = h.seqs := rfl
@[simp] theorem answered_msix (a : Answer) (h : Hub) : (answered a h).msix = h.msix := rfl
@[simp] theorem answered_cyc (a : Answer) (h : Hub) : (answered a h).cyc = h.cyc := rfl
@[simp] theorem answered_engines (a : Answer) (h : Hub) : (answered a h).engines = h.engines := rfl
@[simp] theorem answered_pads (a : Answer) (h : Hub) : (answered a h).pads = h.pads := rfl
@[simp] theorem answered_fifos (a : Answer) (h : Hub) : (answered a h).fifos = h.fifos := rfl
@[simp] theorem answered_sessions (a : Answer) (h : Hub) : (answered a h).sessions = h.sessions := rfl
@[simp] theorem answered_fuses (a : Answer) (h : Hub) : (answered a h).fuses = h.fuses := rfl
@[simp] theorem answered_adc (a : Answer) (h : Hub) : (answered a h).adc = h.adc := rfl
@[simp] theorem answered_power (a : Answer) (h : Hub) : (answered a h).power = h.power := rfl
@[simp] theorem answered_sleep (a : Answer) (h : Hub) : (answered a h).sleep = h.sleep := rfl
@[simp] theorem answered_dome (a : Answer) (h : Hub) : (answered a h).dome = h.dome := rfl
@[simp] theorem answered_links (a : Answer) (h : Hub) : (answered a h).links = h.links := rfl
@[simp] theorem answered_tx (a : Answer) (h : Hub) : (answered a h).tx = h.tx := rfl
@[simp] theorem answered_ring (a : Answer) (h : Hub) : (answered a h).ring = h.ring := rfl
@[simp] theorem answered_belfry (a : Answer) (h : Hub) : (answered a h).belfry = h.belfry := rfl
@[simp] theorem answered_channels (a : Answer) (h : Hub) : (answered a h).channels = h.channels := rfl
@[simp] theorem answered_canopy (a : Answer) (h : Hub) : (answered a h).canopy = h.canopy := rfl
@[simp] theorem answered_host (a : Answer) (h : Hub) : (answered a h).host = h.host := rfl
@[simp] theorem answered_forester (a : Answer) (h : Hub) : (answered a h).forester = h.forester := rfl
@[simp] theorem answered_can (a : Answer) (h : Hub) : (answered a h).can = h.can := rfl
@[simp] theorem answered_canopen (a : Answer) (h : Hub) : (answered a h).canopen = h.canopen := rfl
@[simp] theorem answered_t1s (a : Answer) (h : Hub) : (answered a h).t1s = h.t1s := rfl
@[simp] theorem answered_update (a : Answer) (h : Hub) : (answered a h).update = h.update := rfl

@[simp] theorem originate_freeCount (h : Hub) (p t : Nat) (c : Cls) (d x g : Nat) (l : List Word) : (originate h p t c d x g l).freeCount = h.freeCount := by unfold originate; split <;> rfl
@[simp] theorem originate_answer (h : Hub) (p t : Nat) (c : Cls) (d x g : Nat) (l : List Word) : (originate h p t c d x g l).answer = h.answer := by unfold originate; split <;> rfl
@[simp] theorem originate_dict (h : Hub) (p t : Nat) (c : Cls) (d x g : Nat) (l : List Word) : (originate h p t c d x g l).dict = h.dict := by unfold originate; split <;> rfl
@[simp] theorem originate_env (h : Hub) (p t : Nat) (c : Cls) (d x g : Nat) (l : List Word) : (originate h p t c d x g l).env = h.env := by unfold originate; split <;> rfl
@[simp] theorem originate_boot (h : Hub) (p t : Nat) (c : Cls) (d x g : Nat) (l : List Word) : (originate h p t c d x g l).boot = h.boot := by unfold originate; split <;> rfl
@[simp] theorem originate_modes (h : Hub) (p t : Nat) (c : Cls) (d x g : Nat) (l : List Word) : (originate h p t c d x g l).modes = h.modes := by unfold originate; split <;> rfl
@[simp] theorem originate_stopped (h : Hub) (p t : Nat) (c : Cls) (d x g : Nat) (l : List Word) : (originate h p t c d x g l).stopped = h.stopped := by unfold originate; split <;> rfl
@[simp] theorem originate_crossings (h : Hub) (p t : Nat) (c : Cls) (d x g : Nat) (l : List Word) : (originate h p t c d x g l).crossings = h.crossings := by unfold originate; split <;> rfl
@[simp] theorem originate_paths (h : Hub) (p t : Nat) (c : Cls) (d x g : Nat) (l : List Word) : (originate h p t c d x g l).paths = h.paths := by unfold originate; split <;> rfl
@[simp] theorem originate_hostHalf (h : Hub) (p t : Nat) (c : Cls) (d x g : Nat) (l : List Word) : (originate h p t c d x g l).hostHalf = h.hostHalf := by unfold originate; split <;> rfl
@[simp] theorem originate_mailbox (h : Hub) (p t : Nat) (c : Cls) (d x g : Nat) (l : List Word) : (originate h p t c d x g l).mailbox = h.mailbox := by unfold originate; split <;> rfl
@[simp] theorem originate_store (h : Hub) (p t : Nat) (c : Cls) (d x g : Nat) (l : List Word) : (originate h p t c d x g l).store = h.store := by unfold originate; split <;> rfl
@[simp] theorem originate_copyA (h : Hub) (p t : Nat) (c : Cls) (d x g : Nat) (l : List Word) : (originate h p t c d x g l).copyA = h.copyA := by unfold originate; split <;> rfl
@[simp] theorem originate_copyB (h : Hub) (p t : Nat) (c : Cls) (d x g : Nat) (l : List Word) : (originate h p t c d x g l).copyB = h.copyB := by unfold originate; split <;> rfl
@[simp] theorem originate_watch (h : Hub) (p t : Nat) (c : Cls) (d x g : Nat) (l : List Word) : (originate h p t c d x g l).watch = h.watch := by unfold originate; split <;> rfl
@[simp] theorem originate_spire (h : Hub) (p t : Nat) (c : Cls) (d x g : Nat) (l : List Word) : (originate h p t c d x g l).spire = h.spire := by unfold originate; split <;> rfl
@[simp] theorem originate_msix (h : Hub) (p t : Nat) (c : Cls) (d x g : Nat) (l : List Word) : (originate h p t c d x g l).msix = h.msix := by unfold originate; split <;> rfl
@[simp] theorem originate_cyc (h : Hub) (p t : Nat) (c : Cls) (d x g : Nat) (l : List Word) : (originate h p t c d x g l).cyc = h.cyc := by unfold originate; split <;> rfl
@[simp] theorem originate_engines (h : Hub) (p t : Nat) (c : Cls) (d x g : Nat) (l : List Word) : (originate h p t c d x g l).engines = h.engines := by unfold originate; split <;> rfl
@[simp] theorem originate_pads (h : Hub) (p t : Nat) (c : Cls) (d x g : Nat) (l : List Word) : (originate h p t c d x g l).pads = h.pads := by unfold originate; split <;> rfl
@[simp] theorem originate_fifos (h : Hub) (p t : Nat) (c : Cls) (d x g : Nat) (l : List Word) : (originate h p t c d x g l).fifos = h.fifos := by unfold originate; split <;> rfl
@[simp] theorem originate_sessions (h : Hub) (p t : Nat) (c : Cls) (d x g : Nat) (l : List Word) : (originate h p t c d x g l).sessions = h.sessions := by unfold originate; split <;> rfl
@[simp] theorem originate_fuses (h : Hub) (p t : Nat) (c : Cls) (d x g : Nat) (l : List Word) : (originate h p t c d x g l).fuses = h.fuses := by unfold originate; split <;> rfl
@[simp] theorem originate_adc (h : Hub) (p t : Nat) (c : Cls) (d x g : Nat) (l : List Word) : (originate h p t c d x g l).adc = h.adc := by unfold originate; split <;> rfl
@[simp] theorem originate_power (h : Hub) (p t : Nat) (c : Cls) (d x g : Nat) (l : List Word) : (originate h p t c d x g l).power = h.power := by unfold originate; split <;> rfl
@[simp] theorem originate_sleep (h : Hub) (p t : Nat) (c : Cls) (d x g : Nat) (l : List Word) : (originate h p t c d x g l).sleep = h.sleep := by unfold originate; split <;> rfl
@[simp] theorem originate_dome (h : Hub) (p t : Nat) (c : Cls) (d x g : Nat) (l : List Word) : (originate h p t c d x g l).dome = h.dome := by unfold originate; split <;> rfl
@[simp] theorem originate_links (h : Hub) (p t : Nat) (c : Cls) (d x g : Nat) (l : List Word) : (originate h p t c d x g l).links = h.links := by unfold originate; split <;> rfl
@[simp] theorem originate_tx (h : Hub) (p t : Nat) (c : Cls) (d x g : Nat) (l : List Word) : (originate h p t c d x g l).tx = h.tx := by unfold originate; split <;> rfl
@[simp] theorem originate_ring (h : Hub) (p t : Nat) (c : Cls) (d x g : Nat) (l : List Word) : (originate h p t c d x g l).ring = h.ring := by unfold originate; split <;> rfl
@[simp] theorem originate_belfry (h : Hub) (p t : Nat) (c : Cls) (d x g : Nat) (l : List Word) : (originate h p t c d x g l).belfry = h.belfry := by unfold originate; split <;> rfl
@[simp] theorem originate_channels (h : Hub) (p t : Nat) (c : Cls) (d x g : Nat) (l : List Word) : (originate h p t c d x g l).channels = h.channels := by unfold originate; split <;> rfl
@[simp] theorem originate_canopy (h : Hub) (p t : Nat) (c : Cls) (d x g : Nat) (l : List Word) : (originate h p t c d x g l).canopy = h.canopy := by unfold originate; split <;> rfl
@[simp] theorem originate_host (h : Hub) (p t : Nat) (c : Cls) (d x g : Nat) (l : List Word) : (originate h p t c d x g l).host = h.host := by unfold originate; split <;> rfl
@[simp] theorem originate_forester (h : Hub) (p t : Nat) (c : Cls) (d x g : Nat) (l : List Word) : (originate h p t c d x g l).forester = h.forester := by unfold originate; split <;> rfl
@[simp] theorem originate_can (h : Hub) (p t : Nat) (c : Cls) (d x g : Nat) (l : List Word) : (originate h p t c d x g l).can = h.can := by unfold originate; split <;> rfl
@[simp] theorem originate_canopen (h : Hub) (p t : Nat) (c : Cls) (d x g : Nat) (l : List Word) : (originate h p t c d x g l).canopen = h.canopen := by unfold originate; split <;> rfl
@[simp] theorem originate_t1s (h : Hub) (p t : Nat) (c : Cls) (d x g : Nat) (l : List Word) : (originate h p t c d x g l).t1s = h.t1s := by unfold originate; split <;> rfl
@[simp] theorem originate_update (h : Hub) (p t : Nat) (c : Cls) (d x g : Nat) (l : List Word) : (originate h p t c d x g l).update = h.update := by unfold originate; split <;> rfl

@[simp] theorem requestMsix_freeCount (h : Hub) (v : Nat) : (requestMsix h v).freeCount = h.freeCount := by unfold requestMsix; split <;> rfl
@[simp] theorem requestMsix_answer (h : Hub) (v : Nat) : (requestMsix h v).answer = h.answer := by unfold requestMsix; split <;> rfl
@[simp] theorem requestMsix_dict (h : Hub) (v : Nat) : (requestMsix h v).dict = h.dict := by unfold requestMsix; split <;> rfl
@[simp] theorem requestMsix_env (h : Hub) (v : Nat) : (requestMsix h v).env = h.env := by unfold requestMsix; split <;> rfl
@[simp] theorem requestMsix_boot (h : Hub) (v : Nat) : (requestMsix h v).boot = h.boot := by unfold requestMsix; split <;> rfl
@[simp] theorem requestMsix_modes (h : Hub) (v : Nat) : (requestMsix h v).modes = h.modes := by unfold requestMsix; split <;> rfl
@[simp] theorem requestMsix_stopped (h : Hub) (v : Nat) : (requestMsix h v).stopped = h.stopped := by unfold requestMsix; split <;> rfl
@[simp] theorem requestMsix_crossings (h : Hub) (v : Nat) : (requestMsix h v).crossings = h.crossings := by unfold requestMsix; split <;> rfl
@[simp] theorem requestMsix_paths (h : Hub) (v : Nat) : (requestMsix h v).paths = h.paths := by unfold requestMsix; split <;> rfl
@[simp] theorem requestMsix_hostHalf (h : Hub) (v : Nat) : (requestMsix h v).hostHalf = h.hostHalf := by unfold requestMsix; split <;> rfl
@[simp] theorem requestMsix_mailbox (h : Hub) (v : Nat) : (requestMsix h v).mailbox = h.mailbox := by unfold requestMsix; split <;> rfl
@[simp] theorem requestMsix_store (h : Hub) (v : Nat) : (requestMsix h v).store = h.store := by unfold requestMsix; split <;> rfl
@[simp] theorem requestMsix_copyA (h : Hub) (v : Nat) : (requestMsix h v).copyA = h.copyA := by unfold requestMsix; split <;> rfl
@[simp] theorem requestMsix_copyB (h : Hub) (v : Nat) : (requestMsix h v).copyB = h.copyB := by unfold requestMsix; split <;> rfl
@[simp] theorem requestMsix_watch (h : Hub) (v : Nat) : (requestMsix h v).watch = h.watch := by unfold requestMsix; split <;> rfl
@[simp] theorem requestMsix_spire (h : Hub) (v : Nat) : (requestMsix h v).spire = h.spire := by unfold requestMsix; split <;> rfl
@[simp] theorem requestMsix_portQ (h : Hub) (v : Nat) : (requestMsix h v).portQ = h.portQ := by unfold requestMsix; split <;> rfl
@[simp] theorem requestMsix_seqs (h : Hub) (v : Nat) : (requestMsix h v).seqs = h.seqs := by unfold requestMsix; split <;> rfl
@[simp] theorem requestMsix_cyc (h : Hub) (v : Nat) : (requestMsix h v).cyc = h.cyc := by unfold requestMsix; split <;> rfl
@[simp] theorem requestMsix_engines (h : Hub) (v : Nat) : (requestMsix h v).engines = h.engines := by unfold requestMsix; split <;> rfl
@[simp] theorem requestMsix_pads (h : Hub) (v : Nat) : (requestMsix h v).pads = h.pads := by unfold requestMsix; split <;> rfl
@[simp] theorem requestMsix_fifos (h : Hub) (v : Nat) : (requestMsix h v).fifos = h.fifos := by unfold requestMsix; split <;> rfl
@[simp] theorem requestMsix_sessions (h : Hub) (v : Nat) : (requestMsix h v).sessions = h.sessions := by unfold requestMsix; split <;> rfl
@[simp] theorem requestMsix_fuses (h : Hub) (v : Nat) : (requestMsix h v).fuses = h.fuses := by unfold requestMsix; split <;> rfl
@[simp] theorem requestMsix_adc (h : Hub) (v : Nat) : (requestMsix h v).adc = h.adc := by unfold requestMsix; split <;> rfl
@[simp] theorem requestMsix_power (h : Hub) (v : Nat) : (requestMsix h v).power = h.power := by unfold requestMsix; split <;> rfl
@[simp] theorem requestMsix_sleep (h : Hub) (v : Nat) : (requestMsix h v).sleep = h.sleep := by unfold requestMsix; split <;> rfl
@[simp] theorem requestMsix_dome (h : Hub) (v : Nat) : (requestMsix h v).dome = h.dome := by unfold requestMsix; split <;> rfl
@[simp] theorem requestMsix_links (h : Hub) (v : Nat) : (requestMsix h v).links = h.links := by unfold requestMsix; split <;> rfl
@[simp] theorem requestMsix_tx (h : Hub) (v : Nat) : (requestMsix h v).tx = h.tx := by unfold requestMsix; split <;> rfl
@[simp] theorem requestMsix_ring (h : Hub) (v : Nat) : (requestMsix h v).ring = h.ring := by unfold requestMsix; split <;> rfl
@[simp] theorem requestMsix_belfry (h : Hub) (v : Nat) : (requestMsix h v).belfry = h.belfry := by unfold requestMsix; split <;> rfl
@[simp] theorem requestMsix_channels (h : Hub) (v : Nat) : (requestMsix h v).channels = h.channels := by unfold requestMsix; split <;> rfl
@[simp] theorem requestMsix_canopy (h : Hub) (v : Nat) : (requestMsix h v).canopy = h.canopy := by unfold requestMsix; split <;> rfl
@[simp] theorem requestMsix_host (h : Hub) (v : Nat) : (requestMsix h v).host = h.host := by unfold requestMsix; split <;> rfl
@[simp] theorem requestMsix_forester (h : Hub) (v : Nat) : (requestMsix h v).forester = h.forester := by unfold requestMsix; split <;> rfl
@[simp] theorem requestMsix_can (h : Hub) (v : Nat) : (requestMsix h v).can = h.can := by unfold requestMsix; split <;> rfl
@[simp] theorem requestMsix_canopen (h : Hub) (v : Nat) : (requestMsix h v).canopen = h.canopen := by unfold requestMsix; split <;> rfl
@[simp] theorem requestMsix_t1s (h : Hub) (v : Nat) : (requestMsix h v).t1s = h.t1s := by unfold requestMsix; split <;> rfl
@[simp] theorem requestMsix_update (h : Hub) (v : Nat) : (requestMsix h v).update = h.update := by unfold requestMsix; split <;> rfl

@[simp] theorem raiseLocal_freeCount (h : Hub) (e i v : Nat) : (raiseLocal h e i v).freeCount = h.freeCount := (congrArg (fun x : Hub => x.freeCount) (noEvent_raiseLocal h e i v) :)
@[simp] theorem raiseLocal_answer (h : Hub) (e i v : Nat) : (raiseLocal h e i v).answer = h.answer := (congrArg (fun x : Hub => x.answer) (noEvent_raiseLocal h e i v) :)
@[simp] theorem raiseLocal_env (h : Hub) (e i v : Nat) : (raiseLocal h e i v).env = h.env := (congrArg (fun x : Hub => x.env) (noEvent_raiseLocal h e i v) :)
@[simp] theorem raiseLocal_boot (h : Hub) (e i v : Nat) : (raiseLocal h e i v).boot = h.boot := (congrArg (fun x : Hub => x.boot) (noEvent_raiseLocal h e i v) :)
@[simp] theorem raiseLocal_modes (h : Hub) (e i v : Nat) : (raiseLocal h e i v).modes = h.modes := (congrArg (fun x : Hub => x.modes) (noEvent_raiseLocal h e i v) :)
@[simp] theorem raiseLocal_stopped (h : Hub) (e i v : Nat) : (raiseLocal h e i v).stopped = h.stopped := (congrArg (fun x : Hub => x.stopped) (noEvent_raiseLocal h e i v) :)
@[simp] theorem raiseLocal_crossings (h : Hub) (e i v : Nat) : (raiseLocal h e i v).crossings = h.crossings := (congrArg (fun x : Hub => x.crossings) (noEvent_raiseLocal h e i v) :)
@[simp] theorem raiseLocal_paths (h : Hub) (e i v : Nat) : (raiseLocal h e i v).paths = h.paths := (congrArg (fun x : Hub => x.paths) (noEvent_raiseLocal h e i v) :)
@[simp] theorem raiseLocal_hostHalf (h : Hub) (e i v : Nat) : (raiseLocal h e i v).hostHalf = h.hostHalf := (congrArg (fun x : Hub => x.hostHalf) (noEvent_raiseLocal h e i v) :)
@[simp] theorem raiseLocal_mailbox (h : Hub) (e i v : Nat) : (raiseLocal h e i v).mailbox = h.mailbox := (congrArg (fun x : Hub => x.mailbox) (noEvent_raiseLocal h e i v) :)
@[simp] theorem raiseLocal_store (h : Hub) (e i v : Nat) : (raiseLocal h e i v).store = h.store := (congrArg (fun x : Hub => x.store) (noEvent_raiseLocal h e i v) :)
@[simp] theorem raiseLocal_copyA (h : Hub) (e i v : Nat) : (raiseLocal h e i v).copyA = h.copyA := (congrArg (fun x : Hub => x.copyA) (noEvent_raiseLocal h e i v) :)
@[simp] theorem raiseLocal_copyB (h : Hub) (e i v : Nat) : (raiseLocal h e i v).copyB = h.copyB := (congrArg (fun x : Hub => x.copyB) (noEvent_raiseLocal h e i v) :)
@[simp] theorem raiseLocal_spire (h : Hub) (e i v : Nat) : (raiseLocal h e i v).spire = h.spire := (congrArg (fun x : Hub => x.spire) (noEvent_raiseLocal h e i v) :)
@[simp] theorem raiseLocal_cyc (h : Hub) (e i v : Nat) : (raiseLocal h e i v).cyc = h.cyc := (congrArg (fun x : Hub => x.cyc) (noEvent_raiseLocal h e i v) :)
@[simp] theorem raiseLocal_engines (h : Hub) (e i v : Nat) : (raiseLocal h e i v).engines = h.engines := (congrArg (fun x : Hub => x.engines) (noEvent_raiseLocal h e i v) :)
@[simp] theorem raiseLocal_pads (h : Hub) (e i v : Nat) : (raiseLocal h e i v).pads = h.pads := (congrArg (fun x : Hub => x.pads) (noEvent_raiseLocal h e i v) :)
@[simp] theorem raiseLocal_fifos (h : Hub) (e i v : Nat) : (raiseLocal h e i v).fifos = h.fifos := (congrArg (fun x : Hub => x.fifos) (noEvent_raiseLocal h e i v) :)
@[simp] theorem raiseLocal_sessions (h : Hub) (e i v : Nat) : (raiseLocal h e i v).sessions = h.sessions := (congrArg (fun x : Hub => x.sessions) (noEvent_raiseLocal h e i v) :)
@[simp] theorem raiseLocal_fuses (h : Hub) (e i v : Nat) : (raiseLocal h e i v).fuses = h.fuses := (congrArg (fun x : Hub => x.fuses) (noEvent_raiseLocal h e i v) :)
@[simp] theorem raiseLocal_adc (h : Hub) (e i v : Nat) : (raiseLocal h e i v).adc = h.adc := (congrArg (fun x : Hub => x.adc) (noEvent_raiseLocal h e i v) :)
@[simp] theorem raiseLocal_power (h : Hub) (e i v : Nat) : (raiseLocal h e i v).power = h.power := (congrArg (fun x : Hub => x.power) (noEvent_raiseLocal h e i v) :)
@[simp] theorem raiseLocal_sleep (h : Hub) (e i v : Nat) : (raiseLocal h e i v).sleep = h.sleep := (congrArg (fun x : Hub => x.sleep) (noEvent_raiseLocal h e i v) :)
@[simp] theorem raiseLocal_dome (h : Hub) (e i v : Nat) : (raiseLocal h e i v).dome = h.dome := (congrArg (fun x : Hub => x.dome) (noEvent_raiseLocal h e i v) :)
@[simp] theorem raiseLocal_links (h : Hub) (e i v : Nat) : (raiseLocal h e i v).links = h.links := (congrArg (fun x : Hub => x.links) (noEvent_raiseLocal h e i v) :)
@[simp] theorem raiseLocal_tx (h : Hub) (e i v : Nat) : (raiseLocal h e i v).tx = h.tx := (congrArg (fun x : Hub => x.tx) (noEvent_raiseLocal h e i v) :)
@[simp] theorem raiseLocal_ring (h : Hub) (e i v : Nat) : (raiseLocal h e i v).ring = h.ring := (congrArg (fun x : Hub => x.ring) (noEvent_raiseLocal h e i v) :)
@[simp] theorem raiseLocal_belfry (h : Hub) (e i v : Nat) : (raiseLocal h e i v).belfry = h.belfry := (congrArg (fun x : Hub => x.belfry) (noEvent_raiseLocal h e i v) :)
@[simp] theorem raiseLocal_channels (h : Hub) (e i v : Nat) : (raiseLocal h e i v).channels = h.channels := (congrArg (fun x : Hub => x.channels) (noEvent_raiseLocal h e i v) :)
@[simp] theorem raiseLocal_canopy (h : Hub) (e i v : Nat) : (raiseLocal h e i v).canopy = h.canopy := (congrArg (fun x : Hub => x.canopy) (noEvent_raiseLocal h e i v) :)
@[simp] theorem raiseLocal_host (h : Hub) (e i v : Nat) : (raiseLocal h e i v).host = h.host := (congrArg (fun x : Hub => x.host) (noEvent_raiseLocal h e i v) :)
@[simp] theorem raiseLocal_forester (h : Hub) (e i v : Nat) : (raiseLocal h e i v).forester = h.forester := (congrArg (fun x : Hub => x.forester) (noEvent_raiseLocal h e i v) :)
@[simp] theorem raiseLocal_can (h : Hub) (e i v : Nat) : (raiseLocal h e i v).can = h.can := (congrArg (fun x : Hub => x.can) (noEvent_raiseLocal h e i v) :)
@[simp] theorem raiseLocal_canopen (h : Hub) (e i v : Nat) : (raiseLocal h e i v).canopen = h.canopen := (congrArg (fun x : Hub => x.canopen) (noEvent_raiseLocal h e i v) :)
@[simp] theorem raiseLocal_t1s (h : Hub) (e i v : Nat) : (raiseLocal h e i v).t1s = h.t1s := (congrArg (fun x : Hub => x.t1s) (noEvent_raiseLocal h e i v) :)
@[simp] theorem raiseLocal_update (h : Hub) (e i v : Nat) : (raiseLocal h e i v).update = h.update := (congrArg (fun x : Hub => x.update) (noEvent_raiseLocal h e i v) :)
@[simp] theorem raiseLocal_watch_records (h : Hub) (e i v : Nat) : (raiseLocal h e i v).watch.records = h.watch.records := (congrArg (fun x : Hub => x.watch.records) (noEvent_raiseLocal h e i v) :)
@[simp] theorem raiseLocal_watch_occurrences (h : Hub) (e i v : Nat) : (raiseLocal h e i v).watch.occurrences = h.watch.occurrences := (congrArg (fun x : Hub => x.watch.occurrences) (noEvent_raiseLocal h e i v) :)
@[simp] theorem raiseLocal_watch_previous (h : Hub) (e i v : Nat) : (raiseLocal h e i v).watch.previous = h.watch.previous := (congrArg (fun x : Hub => x.watch.previous) (noEvent_raiseLocal h e i v) :)
@[simp] theorem raiseLocal_watch_backstop (h : Hub) (e i v : Nat) : (raiseLocal h e i v).watch.backstop = h.watch.backstop := (congrArg (fun x : Hub => x.watch.backstop) (noEvent_raiseLocal h e i v) :)
@[simp] theorem raiseLocal_watch_backstopRec (h : Hub) (e i v : Nat) : (raiseLocal h e i v).watch.backstopRec = h.watch.backstopRec := (congrArg (fun x : Hub => x.watch.backstopRec) (noEvent_raiseLocal h e i v) :)
@[simp] theorem raiseLocal_watch_injected (h : Hub) (e i v : Nat) : (raiseLocal h e i v).watch.injected = h.watch.injected := (congrArg (fun x : Hub => x.watch.injected) (noEvent_raiseLocal h e i v) :)
@[simp] theorem raiseLocal_watch_armed (h : Hub) (e i v : Nat) : (raiseLocal h e i v).watch.armed = h.watch.armed := (congrArg (fun x : Hub => x.watch.armed) (noEvent_raiseLocal h e i v) :)
@[simp] theorem raiseLocal_watch_injecting (h : Hub) (e i v : Nat) : (raiseLocal h e i v).watch.injecting = h.watch.injecting := (congrArg (fun x : Hub => x.watch.injecting) (noEvent_raiseLocal h e i v) :)
@[simp] theorem raiseLocal_watch_releasing (h : Hub) (e i v : Nat) : (raiseLocal h e i v).watch.releasing = h.watch.releasing := (congrArg (fun x : Hub => x.watch.releasing) (noEvent_raiseLocal h e i v) :)
@[simp] theorem raiseLocal_watch_halted (h : Hub) (e i v : Nat) : (raiseLocal h e i v).watch.halted = h.watch.halted := (congrArg (fun x : Hub => x.watch.halted) (noEvent_raiseLocal h e i v) :)

@[simp] theorem raiseEvent_freeCount (h : Hub) (e i v : Nat) : (raiseEvent h e i v).freeCount = h.freeCount := (congrArg (fun x : Hub => x.freeCount) (noEvent_raiseEvent h e i v) :)
@[simp] theorem raiseEvent_answer (h : Hub) (e i v : Nat) : (raiseEvent h e i v).answer = h.answer := (congrArg (fun x : Hub => x.answer) (noEvent_raiseEvent h e i v) :)
@[simp] theorem raiseEvent_env (h : Hub) (e i v : Nat) : (raiseEvent h e i v).env = h.env := (congrArg (fun x : Hub => x.env) (noEvent_raiseEvent h e i v) :)
@[simp] theorem raiseEvent_boot (h : Hub) (e i v : Nat) : (raiseEvent h e i v).boot = h.boot := (congrArg (fun x : Hub => x.boot) (noEvent_raiseEvent h e i v) :)
@[simp] theorem raiseEvent_modes (h : Hub) (e i v : Nat) : (raiseEvent h e i v).modes = h.modes := (congrArg (fun x : Hub => x.modes) (noEvent_raiseEvent h e i v) :)
@[simp] theorem raiseEvent_stopped (h : Hub) (e i v : Nat) : (raiseEvent h e i v).stopped = h.stopped := (congrArg (fun x : Hub => x.stopped) (noEvent_raiseEvent h e i v) :)
@[simp] theorem raiseEvent_crossings (h : Hub) (e i v : Nat) : (raiseEvent h e i v).crossings = h.crossings := (congrArg (fun x : Hub => x.crossings) (noEvent_raiseEvent h e i v) :)
@[simp] theorem raiseEvent_paths (h : Hub) (e i v : Nat) : (raiseEvent h e i v).paths = h.paths := (congrArg (fun x : Hub => x.paths) (noEvent_raiseEvent h e i v) :)
@[simp] theorem raiseEvent_hostHalf (h : Hub) (e i v : Nat) : (raiseEvent h e i v).hostHalf = h.hostHalf := (congrArg (fun x : Hub => x.hostHalf) (noEvent_raiseEvent h e i v) :)
@[simp] theorem raiseEvent_mailbox (h : Hub) (e i v : Nat) : (raiseEvent h e i v).mailbox = h.mailbox := (congrArg (fun x : Hub => x.mailbox) (noEvent_raiseEvent h e i v) :)
@[simp] theorem raiseEvent_store (h : Hub) (e i v : Nat) : (raiseEvent h e i v).store = h.store := (congrArg (fun x : Hub => x.store) (noEvent_raiseEvent h e i v) :)
@[simp] theorem raiseEvent_copyA (h : Hub) (e i v : Nat) : (raiseEvent h e i v).copyA = h.copyA := (congrArg (fun x : Hub => x.copyA) (noEvent_raiseEvent h e i v) :)
@[simp] theorem raiseEvent_copyB (h : Hub) (e i v : Nat) : (raiseEvent h e i v).copyB = h.copyB := (congrArg (fun x : Hub => x.copyB) (noEvent_raiseEvent h e i v) :)
@[simp] theorem raiseEvent_spire (h : Hub) (e i v : Nat) : (raiseEvent h e i v).spire = h.spire := (congrArg (fun x : Hub => x.spire) (noEvent_raiseEvent h e i v) :)
@[simp] theorem raiseEvent_cyc (h : Hub) (e i v : Nat) : (raiseEvent h e i v).cyc = h.cyc := (congrArg (fun x : Hub => x.cyc) (noEvent_raiseEvent h e i v) :)
@[simp] theorem raiseEvent_engines (h : Hub) (e i v : Nat) : (raiseEvent h e i v).engines = h.engines := (congrArg (fun x : Hub => x.engines) (noEvent_raiseEvent h e i v) :)
@[simp] theorem raiseEvent_pads (h : Hub) (e i v : Nat) : (raiseEvent h e i v).pads = h.pads := (congrArg (fun x : Hub => x.pads) (noEvent_raiseEvent h e i v) :)
@[simp] theorem raiseEvent_fifos (h : Hub) (e i v : Nat) : (raiseEvent h e i v).fifos = h.fifos := (congrArg (fun x : Hub => x.fifos) (noEvent_raiseEvent h e i v) :)
@[simp] theorem raiseEvent_sessions (h : Hub) (e i v : Nat) : (raiseEvent h e i v).sessions = h.sessions := (congrArg (fun x : Hub => x.sessions) (noEvent_raiseEvent h e i v) :)
@[simp] theorem raiseEvent_fuses (h : Hub) (e i v : Nat) : (raiseEvent h e i v).fuses = h.fuses := (congrArg (fun x : Hub => x.fuses) (noEvent_raiseEvent h e i v) :)
@[simp] theorem raiseEvent_adc (h : Hub) (e i v : Nat) : (raiseEvent h e i v).adc = h.adc := (congrArg (fun x : Hub => x.adc) (noEvent_raiseEvent h e i v) :)
@[simp] theorem raiseEvent_power (h : Hub) (e i v : Nat) : (raiseEvent h e i v).power = h.power := (congrArg (fun x : Hub => x.power) (noEvent_raiseEvent h e i v) :)
@[simp] theorem raiseEvent_sleep (h : Hub) (e i v : Nat) : (raiseEvent h e i v).sleep = h.sleep := (congrArg (fun x : Hub => x.sleep) (noEvent_raiseEvent h e i v) :)
@[simp] theorem raiseEvent_dome (h : Hub) (e i v : Nat) : (raiseEvent h e i v).dome = h.dome := (congrArg (fun x : Hub => x.dome) (noEvent_raiseEvent h e i v) :)
@[simp] theorem raiseEvent_links (h : Hub) (e i v : Nat) : (raiseEvent h e i v).links = h.links := (congrArg (fun x : Hub => x.links) (noEvent_raiseEvent h e i v) :)
@[simp] theorem raiseEvent_tx (h : Hub) (e i v : Nat) : (raiseEvent h e i v).tx = h.tx := (congrArg (fun x : Hub => x.tx) (noEvent_raiseEvent h e i v) :)
@[simp] theorem raiseEvent_ring (h : Hub) (e i v : Nat) : (raiseEvent h e i v).ring = h.ring := (congrArg (fun x : Hub => x.ring) (noEvent_raiseEvent h e i v) :)
@[simp] theorem raiseEvent_belfry (h : Hub) (e i v : Nat) : (raiseEvent h e i v).belfry = h.belfry := (congrArg (fun x : Hub => x.belfry) (noEvent_raiseEvent h e i v) :)
@[simp] theorem raiseEvent_channels (h : Hub) (e i v : Nat) : (raiseEvent h e i v).channels = h.channels := (congrArg (fun x : Hub => x.channels) (noEvent_raiseEvent h e i v) :)
@[simp] theorem raiseEvent_canopy (h : Hub) (e i v : Nat) : (raiseEvent h e i v).canopy = h.canopy := (congrArg (fun x : Hub => x.canopy) (noEvent_raiseEvent h e i v) :)
@[simp] theorem raiseEvent_host (h : Hub) (e i v : Nat) : (raiseEvent h e i v).host = h.host := (congrArg (fun x : Hub => x.host) (noEvent_raiseEvent h e i v) :)
@[simp] theorem raiseEvent_forester (h : Hub) (e i v : Nat) : (raiseEvent h e i v).forester = h.forester := (congrArg (fun x : Hub => x.forester) (noEvent_raiseEvent h e i v) :)
@[simp] theorem raiseEvent_can (h : Hub) (e i v : Nat) : (raiseEvent h e i v).can = h.can := (congrArg (fun x : Hub => x.can) (noEvent_raiseEvent h e i v) :)
@[simp] theorem raiseEvent_canopen (h : Hub) (e i v : Nat) : (raiseEvent h e i v).canopen = h.canopen := (congrArg (fun x : Hub => x.canopen) (noEvent_raiseEvent h e i v) :)
@[simp] theorem raiseEvent_t1s (h : Hub) (e i v : Nat) : (raiseEvent h e i v).t1s = h.t1s := (congrArg (fun x : Hub => x.t1s) (noEvent_raiseEvent h e i v) :)
@[simp] theorem raiseEvent_update (h : Hub) (e i v : Nat) : (raiseEvent h e i v).update = h.update := (congrArg (fun x : Hub => x.update) (noEvent_raiseEvent h e i v) :)
@[simp] theorem raiseEvent_watch_records (h : Hub) (e i v : Nat) : (raiseEvent h e i v).watch.records = h.watch.records := (congrArg (fun x : Hub => x.watch.records) (noEvent_raiseEvent h e i v) :)
@[simp] theorem raiseEvent_watch_occurrences (h : Hub) (e i v : Nat) : (raiseEvent h e i v).watch.occurrences = h.watch.occurrences := (congrArg (fun x : Hub => x.watch.occurrences) (noEvent_raiseEvent h e i v) :)
@[simp] theorem raiseEvent_watch_previous (h : Hub) (e i v : Nat) : (raiseEvent h e i v).watch.previous = h.watch.previous := (congrArg (fun x : Hub => x.watch.previous) (noEvent_raiseEvent h e i v) :)
@[simp] theorem raiseEvent_watch_backstop (h : Hub) (e i v : Nat) : (raiseEvent h e i v).watch.backstop = h.watch.backstop := (congrArg (fun x : Hub => x.watch.backstop) (noEvent_raiseEvent h e i v) :)
@[simp] theorem raiseEvent_watch_backstopRec (h : Hub) (e i v : Nat) : (raiseEvent h e i v).watch.backstopRec = h.watch.backstopRec := (congrArg (fun x : Hub => x.watch.backstopRec) (noEvent_raiseEvent h e i v) :)
@[simp] theorem raiseEvent_watch_injected (h : Hub) (e i v : Nat) : (raiseEvent h e i v).watch.injected = h.watch.injected := (congrArg (fun x : Hub => x.watch.injected) (noEvent_raiseEvent h e i v) :)
@[simp] theorem raiseEvent_watch_armed (h : Hub) (e i v : Nat) : (raiseEvent h e i v).watch.armed = h.watch.armed := (congrArg (fun x : Hub => x.watch.armed) (noEvent_raiseEvent h e i v) :)
@[simp] theorem raiseEvent_watch_injecting (h : Hub) (e i v : Nat) : (raiseEvent h e i v).watch.injecting = h.watch.injecting := (congrArg (fun x : Hub => x.watch.injecting) (noEvent_raiseEvent h e i v) :)
@[simp] theorem raiseEvent_watch_releasing (h : Hub) (e i v : Nat) : (raiseEvent h e i v).watch.releasing = h.watch.releasing := (congrArg (fun x : Hub => x.watch.releasing) (noEvent_raiseEvent h e i v) :)
@[simp] theorem raiseEvent_watch_halted (h : Hub) (e i v : Nat) : (raiseEvent h e i v).watch.halted = h.watch.halted := (congrArg (fun x : Hub => x.watch.halted) (noEvent_raiseEvent h e i v) :)

@[simp] theorem raiseKeyed_freeCount (h : Hub) (k e i v p : Nat) : (raiseKeyed h k e i v p).freeCount = h.freeCount := (congrArg (fun x : Hub => x.freeCount) (noEvent_raiseKeyed h k e i v p) :)
@[simp] theorem raiseKeyed_answer (h : Hub) (k e i v p : Nat) : (raiseKeyed h k e i v p).answer = h.answer := (congrArg (fun x : Hub => x.answer) (noEvent_raiseKeyed h k e i v p) :)
@[simp] theorem raiseKeyed_env (h : Hub) (k e i v p : Nat) : (raiseKeyed h k e i v p).env = h.env := (congrArg (fun x : Hub => x.env) (noEvent_raiseKeyed h k e i v p) :)
@[simp] theorem raiseKeyed_boot (h : Hub) (k e i v p : Nat) : (raiseKeyed h k e i v p).boot = h.boot := (congrArg (fun x : Hub => x.boot) (noEvent_raiseKeyed h k e i v p) :)
@[simp] theorem raiseKeyed_modes (h : Hub) (k e i v p : Nat) : (raiseKeyed h k e i v p).modes = h.modes := (congrArg (fun x : Hub => x.modes) (noEvent_raiseKeyed h k e i v p) :)
@[simp] theorem raiseKeyed_stopped (h : Hub) (k e i v p : Nat) : (raiseKeyed h k e i v p).stopped = h.stopped := (congrArg (fun x : Hub => x.stopped) (noEvent_raiseKeyed h k e i v p) :)
@[simp] theorem raiseKeyed_crossings (h : Hub) (k e i v p : Nat) : (raiseKeyed h k e i v p).crossings = h.crossings := (congrArg (fun x : Hub => x.crossings) (noEvent_raiseKeyed h k e i v p) :)
@[simp] theorem raiseKeyed_paths (h : Hub) (k e i v p : Nat) : (raiseKeyed h k e i v p).paths = h.paths := (congrArg (fun x : Hub => x.paths) (noEvent_raiseKeyed h k e i v p) :)
@[simp] theorem raiseKeyed_hostHalf (h : Hub) (k e i v p : Nat) : (raiseKeyed h k e i v p).hostHalf = h.hostHalf := (congrArg (fun x : Hub => x.hostHalf) (noEvent_raiseKeyed h k e i v p) :)
@[simp] theorem raiseKeyed_mailbox (h : Hub) (k e i v p : Nat) : (raiseKeyed h k e i v p).mailbox = h.mailbox := (congrArg (fun x : Hub => x.mailbox) (noEvent_raiseKeyed h k e i v p) :)
@[simp] theorem raiseKeyed_store (h : Hub) (k e i v p : Nat) : (raiseKeyed h k e i v p).store = h.store := (congrArg (fun x : Hub => x.store) (noEvent_raiseKeyed h k e i v p) :)
@[simp] theorem raiseKeyed_copyA (h : Hub) (k e i v p : Nat) : (raiseKeyed h k e i v p).copyA = h.copyA := (congrArg (fun x : Hub => x.copyA) (noEvent_raiseKeyed h k e i v p) :)
@[simp] theorem raiseKeyed_copyB (h : Hub) (k e i v p : Nat) : (raiseKeyed h k e i v p).copyB = h.copyB := (congrArg (fun x : Hub => x.copyB) (noEvent_raiseKeyed h k e i v p) :)
@[simp] theorem raiseKeyed_spire (h : Hub) (k e i v p : Nat) : (raiseKeyed h k e i v p).spire = h.spire := (congrArg (fun x : Hub => x.spire) (noEvent_raiseKeyed h k e i v p) :)
@[simp] theorem raiseKeyed_cyc (h : Hub) (k e i v p : Nat) : (raiseKeyed h k e i v p).cyc = h.cyc := (congrArg (fun x : Hub => x.cyc) (noEvent_raiseKeyed h k e i v p) :)
@[simp] theorem raiseKeyed_engines (h : Hub) (k e i v p : Nat) : (raiseKeyed h k e i v p).engines = h.engines := (congrArg (fun x : Hub => x.engines) (noEvent_raiseKeyed h k e i v p) :)
@[simp] theorem raiseKeyed_pads (h : Hub) (k e i v p : Nat) : (raiseKeyed h k e i v p).pads = h.pads := (congrArg (fun x : Hub => x.pads) (noEvent_raiseKeyed h k e i v p) :)
@[simp] theorem raiseKeyed_fifos (h : Hub) (k e i v p : Nat) : (raiseKeyed h k e i v p).fifos = h.fifos := (congrArg (fun x : Hub => x.fifos) (noEvent_raiseKeyed h k e i v p) :)
@[simp] theorem raiseKeyed_sessions (h : Hub) (k e i v p : Nat) : (raiseKeyed h k e i v p).sessions = h.sessions := (congrArg (fun x : Hub => x.sessions) (noEvent_raiseKeyed h k e i v p) :)
@[simp] theorem raiseKeyed_fuses (h : Hub) (k e i v p : Nat) : (raiseKeyed h k e i v p).fuses = h.fuses := (congrArg (fun x : Hub => x.fuses) (noEvent_raiseKeyed h k e i v p) :)
@[simp] theorem raiseKeyed_adc (h : Hub) (k e i v p : Nat) : (raiseKeyed h k e i v p).adc = h.adc := (congrArg (fun x : Hub => x.adc) (noEvent_raiseKeyed h k e i v p) :)
@[simp] theorem raiseKeyed_power (h : Hub) (k e i v p : Nat) : (raiseKeyed h k e i v p).power = h.power := (congrArg (fun x : Hub => x.power) (noEvent_raiseKeyed h k e i v p) :)
@[simp] theorem raiseKeyed_sleep (h : Hub) (k e i v p : Nat) : (raiseKeyed h k e i v p).sleep = h.sleep := (congrArg (fun x : Hub => x.sleep) (noEvent_raiseKeyed h k e i v p) :)
@[simp] theorem raiseKeyed_dome (h : Hub) (k e i v p : Nat) : (raiseKeyed h k e i v p).dome = h.dome := (congrArg (fun x : Hub => x.dome) (noEvent_raiseKeyed h k e i v p) :)
@[simp] theorem raiseKeyed_links (h : Hub) (k e i v p : Nat) : (raiseKeyed h k e i v p).links = h.links := (congrArg (fun x : Hub => x.links) (noEvent_raiseKeyed h k e i v p) :)
@[simp] theorem raiseKeyed_tx (h : Hub) (k e i v p : Nat) : (raiseKeyed h k e i v p).tx = h.tx := (congrArg (fun x : Hub => x.tx) (noEvent_raiseKeyed h k e i v p) :)
@[simp] theorem raiseKeyed_ring (h : Hub) (k e i v p : Nat) : (raiseKeyed h k e i v p).ring = h.ring := (congrArg (fun x : Hub => x.ring) (noEvent_raiseKeyed h k e i v p) :)
@[simp] theorem raiseKeyed_belfry (h : Hub) (k e i v p : Nat) : (raiseKeyed h k e i v p).belfry = h.belfry := (congrArg (fun x : Hub => x.belfry) (noEvent_raiseKeyed h k e i v p) :)
@[simp] theorem raiseKeyed_channels (h : Hub) (k e i v p : Nat) : (raiseKeyed h k e i v p).channels = h.channels := (congrArg (fun x : Hub => x.channels) (noEvent_raiseKeyed h k e i v p) :)
@[simp] theorem raiseKeyed_canopy (h : Hub) (k e i v p : Nat) : (raiseKeyed h k e i v p).canopy = h.canopy := (congrArg (fun x : Hub => x.canopy) (noEvent_raiseKeyed h k e i v p) :)
@[simp] theorem raiseKeyed_host (h : Hub) (k e i v p : Nat) : (raiseKeyed h k e i v p).host = h.host := (congrArg (fun x : Hub => x.host) (noEvent_raiseKeyed h k e i v p) :)
@[simp] theorem raiseKeyed_forester (h : Hub) (k e i v p : Nat) : (raiseKeyed h k e i v p).forester = h.forester := (congrArg (fun x : Hub => x.forester) (noEvent_raiseKeyed h k e i v p) :)
@[simp] theorem raiseKeyed_can (h : Hub) (k e i v p : Nat) : (raiseKeyed h k e i v p).can = h.can := (congrArg (fun x : Hub => x.can) (noEvent_raiseKeyed h k e i v p) :)
@[simp] theorem raiseKeyed_canopen (h : Hub) (k e i v p : Nat) : (raiseKeyed h k e i v p).canopen = h.canopen := (congrArg (fun x : Hub => x.canopen) (noEvent_raiseKeyed h k e i v p) :)
@[simp] theorem raiseKeyed_t1s (h : Hub) (k e i v p : Nat) : (raiseKeyed h k e i v p).t1s = h.t1s := (congrArg (fun x : Hub => x.t1s) (noEvent_raiseKeyed h k e i v p) :)
@[simp] theorem raiseKeyed_update (h : Hub) (k e i v p : Nat) : (raiseKeyed h k e i v p).update = h.update := (congrArg (fun x : Hub => x.update) (noEvent_raiseKeyed h k e i v p) :)
@[simp] theorem raiseKeyed_watch_records (h : Hub) (k e i v p : Nat) : (raiseKeyed h k e i v p).watch.records = h.watch.records := (congrArg (fun x : Hub => x.watch.records) (noEvent_raiseKeyed h k e i v p) :)
@[simp] theorem raiseKeyed_watch_occurrences (h : Hub) (k e i v p : Nat) : (raiseKeyed h k e i v p).watch.occurrences = h.watch.occurrences := (congrArg (fun x : Hub => x.watch.occurrences) (noEvent_raiseKeyed h k e i v p) :)
@[simp] theorem raiseKeyed_watch_previous (h : Hub) (k e i v p : Nat) : (raiseKeyed h k e i v p).watch.previous = h.watch.previous := (congrArg (fun x : Hub => x.watch.previous) (noEvent_raiseKeyed h k e i v p) :)
@[simp] theorem raiseKeyed_watch_backstop (h : Hub) (k e i v p : Nat) : (raiseKeyed h k e i v p).watch.backstop = h.watch.backstop := (congrArg (fun x : Hub => x.watch.backstop) (noEvent_raiseKeyed h k e i v p) :)
@[simp] theorem raiseKeyed_watch_backstopRec (h : Hub) (k e i v p : Nat) : (raiseKeyed h k e i v p).watch.backstopRec = h.watch.backstopRec := (congrArg (fun x : Hub => x.watch.backstopRec) (noEvent_raiseKeyed h k e i v p) :)
@[simp] theorem raiseKeyed_watch_injected (h : Hub) (k e i v p : Nat) : (raiseKeyed h k e i v p).watch.injected = h.watch.injected := (congrArg (fun x : Hub => x.watch.injected) (noEvent_raiseKeyed h k e i v p) :)
@[simp] theorem raiseKeyed_watch_armed (h : Hub) (k e i v p : Nat) : (raiseKeyed h k e i v p).watch.armed = h.watch.armed := (congrArg (fun x : Hub => x.watch.armed) (noEvent_raiseKeyed h k e i v p) :)
@[simp] theorem raiseKeyed_watch_injecting (h : Hub) (k e i v p : Nat) : (raiseKeyed h k e i v p).watch.injecting = h.watch.injecting := (congrArg (fun x : Hub => x.watch.injecting) (noEvent_raiseKeyed h k e i v p) :)
@[simp] theorem raiseKeyed_watch_releasing (h : Hub) (k e i v p : Nat) : (raiseKeyed h k e i v p).watch.releasing = h.watch.releasing := (congrArg (fun x : Hub => x.watch.releasing) (noEvent_raiseKeyed h k e i v p) :)
@[simp] theorem raiseKeyed_watch_halted (h : Hub) (k e i v p : Nat) : (raiseKeyed h k e i v p).watch.halted = h.watch.halted := (congrArg (fun x : Hub => x.watch.halted) (noEvent_raiseKeyed h k e i v p) :)

@[simp] theorem noteUnstored_freeCount (i j : Nat) (h : Hub) : (noteUnstored i j h).freeCount = h.freeCount := by unfold noteUnstored; split <;> rfl
@[simp] theorem noteUnstored_answer (i j : Nat) (h : Hub) : (noteUnstored i j h).answer = h.answer := by unfold noteUnstored; split <;> rfl
@[simp] theorem noteUnstored_dict (i j : Nat) (h : Hub) : (noteUnstored i j h).dict = h.dict := by unfold noteUnstored; split <;> rfl
@[simp] theorem noteUnstored_env (i j : Nat) (h : Hub) : (noteUnstored i j h).env = h.env := by unfold noteUnstored; split <;> rfl
@[simp] theorem noteUnstored_boot (i j : Nat) (h : Hub) : (noteUnstored i j h).boot = h.boot := by unfold noteUnstored; split <;> rfl
@[simp] theorem noteUnstored_modes (i j : Nat) (h : Hub) : (noteUnstored i j h).modes = h.modes := by unfold noteUnstored; split <;> rfl
@[simp] theorem noteUnstored_stopped (i j : Nat) (h : Hub) : (noteUnstored i j h).stopped = h.stopped := by unfold noteUnstored; split <;> rfl
@[simp] theorem noteUnstored_crossings (i j : Nat) (h : Hub) : (noteUnstored i j h).crossings = h.crossings := by unfold noteUnstored; split <;> rfl
@[simp] theorem noteUnstored_paths (i j : Nat) (h : Hub) : (noteUnstored i j h).paths = h.paths := by unfold noteUnstored; split <;> rfl
@[simp] theorem noteUnstored_hostHalf (i j : Nat) (h : Hub) : (noteUnstored i j h).hostHalf = h.hostHalf := by unfold noteUnstored; split <;> rfl
@[simp] theorem noteUnstored_mailbox (i j : Nat) (h : Hub) : (noteUnstored i j h).mailbox = h.mailbox := by unfold noteUnstored; split <;> rfl
@[simp] theorem noteUnstored_copyA (i j : Nat) (h : Hub) : (noteUnstored i j h).copyA = h.copyA := by unfold noteUnstored; split <;> rfl
@[simp] theorem noteUnstored_copyB (i j : Nat) (h : Hub) : (noteUnstored i j h).copyB = h.copyB := by unfold noteUnstored; split <;> rfl
@[simp] theorem noteUnstored_watch (i j : Nat) (h : Hub) : (noteUnstored i j h).watch = h.watch := by unfold noteUnstored; split <;> rfl
@[simp] theorem noteUnstored_spire (i j : Nat) (h : Hub) : (noteUnstored i j h).spire = h.spire := by unfold noteUnstored; split <;> rfl
@[simp] theorem noteUnstored_portQ (i j : Nat) (h : Hub) : (noteUnstored i j h).portQ = h.portQ := by unfold noteUnstored; split <;> rfl
@[simp] theorem noteUnstored_seqs (i j : Nat) (h : Hub) : (noteUnstored i j h).seqs = h.seqs := by unfold noteUnstored; split <;> rfl
@[simp] theorem noteUnstored_msix (i j : Nat) (h : Hub) : (noteUnstored i j h).msix = h.msix := by unfold noteUnstored; split <;> rfl
@[simp] theorem noteUnstored_cyc (i j : Nat) (h : Hub) : (noteUnstored i j h).cyc = h.cyc := by unfold noteUnstored; split <;> rfl
@[simp] theorem noteUnstored_engines (i j : Nat) (h : Hub) : (noteUnstored i j h).engines = h.engines := by unfold noteUnstored; split <;> rfl
@[simp] theorem noteUnstored_pads (i j : Nat) (h : Hub) : (noteUnstored i j h).pads = h.pads := by unfold noteUnstored; split <;> rfl
@[simp] theorem noteUnstored_fifos (i j : Nat) (h : Hub) : (noteUnstored i j h).fifos = h.fifos := by unfold noteUnstored; split <;> rfl
@[simp] theorem noteUnstored_sessions (i j : Nat) (h : Hub) : (noteUnstored i j h).sessions = h.sessions := by unfold noteUnstored; split <;> rfl
@[simp] theorem noteUnstored_fuses (i j : Nat) (h : Hub) : (noteUnstored i j h).fuses = h.fuses := by unfold noteUnstored; split <;> rfl
@[simp] theorem noteUnstored_adc (i j : Nat) (h : Hub) : (noteUnstored i j h).adc = h.adc := by unfold noteUnstored; split <;> rfl
@[simp] theorem noteUnstored_power (i j : Nat) (h : Hub) : (noteUnstored i j h).power = h.power := by unfold noteUnstored; split <;> rfl
@[simp] theorem noteUnstored_sleep (i j : Nat) (h : Hub) : (noteUnstored i j h).sleep = h.sleep := by unfold noteUnstored; split <;> rfl
@[simp] theorem noteUnstored_dome (i j : Nat) (h : Hub) : (noteUnstored i j h).dome = h.dome := by unfold noteUnstored; split <;> rfl
@[simp] theorem noteUnstored_links (i j : Nat) (h : Hub) : (noteUnstored i j h).links = h.links := by unfold noteUnstored; split <;> rfl
@[simp] theorem noteUnstored_tx (i j : Nat) (h : Hub) : (noteUnstored i j h).tx = h.tx := by unfold noteUnstored; split <;> rfl
@[simp] theorem noteUnstored_ring (i j : Nat) (h : Hub) : (noteUnstored i j h).ring = h.ring := by unfold noteUnstored; split <;> rfl
@[simp] theorem noteUnstored_belfry (i j : Nat) (h : Hub) : (noteUnstored i j h).belfry = h.belfry := by unfold noteUnstored; split <;> rfl
@[simp] theorem noteUnstored_channels (i j : Nat) (h : Hub) : (noteUnstored i j h).channels = h.channels := by unfold noteUnstored; split <;> rfl
@[simp] theorem noteUnstored_canopy (i j : Nat) (h : Hub) : (noteUnstored i j h).canopy = h.canopy := by unfold noteUnstored; split <;> rfl
@[simp] theorem noteUnstored_host (i j : Nat) (h : Hub) : (noteUnstored i j h).host = h.host := by unfold noteUnstored; split <;> rfl
@[simp] theorem noteUnstored_forester (i j : Nat) (h : Hub) : (noteUnstored i j h).forester = h.forester := by unfold noteUnstored; split <;> rfl
@[simp] theorem noteUnstored_can (i j : Nat) (h : Hub) : (noteUnstored i j h).can = h.can := by unfold noteUnstored; split <;> rfl
@[simp] theorem noteUnstored_canopen (i j : Nat) (h : Hub) : (noteUnstored i j h).canopen = h.canopen := by unfold noteUnstored; split <;> rfl
@[simp] theorem noteUnstored_t1s (i j : Nat) (h : Hub) : (noteUnstored i j h).t1s = h.t1s := by unfold noteUnstored; split <;> rfl
@[simp] theorem noteUnstored_update (i j : Nat) (h : Hub) : (noteUnstored i j h).update = h.update := by unfold noteUnstored; split <;> rfl

@[simp] theorem setFuse_freeCount (h : Hub) (n : Nat) (c : FuseCh) : (setFuse h n c).freeCount = h.freeCount := rfl
@[simp] theorem setFuse_answer (h : Hub) (n : Nat) (c : FuseCh) : (setFuse h n c).answer = h.answer := rfl
@[simp] theorem setFuse_dict (h : Hub) (n : Nat) (c : FuseCh) : (setFuse h n c).dict = h.dict := rfl
@[simp] theorem setFuse_env (h : Hub) (n : Nat) (c : FuseCh) : (setFuse h n c).env = h.env := rfl
@[simp] theorem setFuse_boot (h : Hub) (n : Nat) (c : FuseCh) : (setFuse h n c).boot = h.boot := rfl
@[simp] theorem setFuse_modes (h : Hub) (n : Nat) (c : FuseCh) : (setFuse h n c).modes = h.modes := rfl
@[simp] theorem setFuse_stopped (h : Hub) (n : Nat) (c : FuseCh) : (setFuse h n c).stopped = h.stopped := rfl
@[simp] theorem setFuse_crossings (h : Hub) (n : Nat) (c : FuseCh) : (setFuse h n c).crossings = h.crossings := rfl
@[simp] theorem setFuse_paths (h : Hub) (n : Nat) (c : FuseCh) : (setFuse h n c).paths = h.paths := rfl
@[simp] theorem setFuse_hostHalf (h : Hub) (n : Nat) (c : FuseCh) : (setFuse h n c).hostHalf = h.hostHalf := rfl
@[simp] theorem setFuse_mailbox (h : Hub) (n : Nat) (c : FuseCh) : (setFuse h n c).mailbox = h.mailbox := rfl
@[simp] theorem setFuse_store (h : Hub) (n : Nat) (c : FuseCh) : (setFuse h n c).store = h.store := rfl
@[simp] theorem setFuse_copyA (h : Hub) (n : Nat) (c : FuseCh) : (setFuse h n c).copyA = h.copyA := rfl
@[simp] theorem setFuse_copyB (h : Hub) (n : Nat) (c : FuseCh) : (setFuse h n c).copyB = h.copyB := rfl
@[simp] theorem setFuse_watch (h : Hub) (n : Nat) (c : FuseCh) : (setFuse h n c).watch = h.watch := rfl
@[simp] theorem setFuse_spire (h : Hub) (n : Nat) (c : FuseCh) : (setFuse h n c).spire = h.spire := rfl
@[simp] theorem setFuse_portQ (h : Hub) (n : Nat) (c : FuseCh) : (setFuse h n c).portQ = h.portQ := rfl
@[simp] theorem setFuse_seqs (h : Hub) (n : Nat) (c : FuseCh) : (setFuse h n c).seqs = h.seqs := rfl
@[simp] theorem setFuse_msix (h : Hub) (n : Nat) (c : FuseCh) : (setFuse h n c).msix = h.msix := rfl
@[simp] theorem setFuse_cyc (h : Hub) (n : Nat) (c : FuseCh) : (setFuse h n c).cyc = h.cyc := rfl
@[simp] theorem setFuse_engines (h : Hub) (n : Nat) (c : FuseCh) : (setFuse h n c).engines = h.engines := rfl
@[simp] theorem setFuse_pads (h : Hub) (n : Nat) (c : FuseCh) : (setFuse h n c).pads = h.pads := rfl
@[simp] theorem setFuse_fifos (h : Hub) (n : Nat) (c : FuseCh) : (setFuse h n c).fifos = h.fifos := rfl
@[simp] theorem setFuse_sessions (h : Hub) (n : Nat) (c : FuseCh) : (setFuse h n c).sessions = h.sessions := rfl
@[simp] theorem setFuse_adc (h : Hub) (n : Nat) (c : FuseCh) : (setFuse h n c).adc = h.adc := rfl
@[simp] theorem setFuse_power (h : Hub) (n : Nat) (c : FuseCh) : (setFuse h n c).power = h.power := rfl
@[simp] theorem setFuse_sleep (h : Hub) (n : Nat) (c : FuseCh) : (setFuse h n c).sleep = h.sleep := rfl
@[simp] theorem setFuse_dome (h : Hub) (n : Nat) (c : FuseCh) : (setFuse h n c).dome = h.dome := rfl
@[simp] theorem setFuse_links (h : Hub) (n : Nat) (c : FuseCh) : (setFuse h n c).links = h.links := rfl
@[simp] theorem setFuse_tx (h : Hub) (n : Nat) (c : FuseCh) : (setFuse h n c).tx = h.tx := rfl
@[simp] theorem setFuse_ring (h : Hub) (n : Nat) (c : FuseCh) : (setFuse h n c).ring = h.ring := rfl
@[simp] theorem setFuse_belfry (h : Hub) (n : Nat) (c : FuseCh) : (setFuse h n c).belfry = h.belfry := rfl
@[simp] theorem setFuse_channels (h : Hub) (n : Nat) (c : FuseCh) : (setFuse h n c).channels = h.channels := rfl
@[simp] theorem setFuse_canopy (h : Hub) (n : Nat) (c : FuseCh) : (setFuse h n c).canopy = h.canopy := rfl
@[simp] theorem setFuse_host (h : Hub) (n : Nat) (c : FuseCh) : (setFuse h n c).host = h.host := rfl
@[simp] theorem setFuse_forester (h : Hub) (n : Nat) (c : FuseCh) : (setFuse h n c).forester = h.forester := rfl
@[simp] theorem setFuse_can (h : Hub) (n : Nat) (c : FuseCh) : (setFuse h n c).can = h.can := rfl
@[simp] theorem setFuse_canopen (h : Hub) (n : Nat) (c : FuseCh) : (setFuse h n c).canopen = h.canopen := rfl
@[simp] theorem setFuse_t1s (h : Hub) (n : Nat) (c : FuseCh) : (setFuse h n c).t1s = h.t1s := rfl
@[simp] theorem setFuse_update (h : Hub) (n : Nat) (c : FuseCh) : (setFuse h n c).update = h.update := rfl

@[simp] theorem setSession_freeCount (h : Hub) (p : Path) (c : Session) : (setSession h p c).freeCount = h.freeCount := rfl
@[simp] theorem setSession_answer (h : Hub) (p : Path) (c : Session) : (setSession h p c).answer = h.answer := rfl
@[simp] theorem setSession_dict (h : Hub) (p : Path) (c : Session) : (setSession h p c).dict = h.dict := rfl
@[simp] theorem setSession_env (h : Hub) (p : Path) (c : Session) : (setSession h p c).env = h.env := rfl
@[simp] theorem setSession_boot (h : Hub) (p : Path) (c : Session) : (setSession h p c).boot = h.boot := rfl
@[simp] theorem setSession_modes (h : Hub) (p : Path) (c : Session) : (setSession h p c).modes = h.modes := rfl
@[simp] theorem setSession_stopped (h : Hub) (p : Path) (c : Session) : (setSession h p c).stopped = h.stopped := rfl
@[simp] theorem setSession_crossings (h : Hub) (p : Path) (c : Session) : (setSession h p c).crossings = h.crossings := rfl
@[simp] theorem setSession_paths (h : Hub) (p : Path) (c : Session) : (setSession h p c).paths = h.paths := rfl
@[simp] theorem setSession_hostHalf (h : Hub) (p : Path) (c : Session) : (setSession h p c).hostHalf = h.hostHalf := rfl
@[simp] theorem setSession_mailbox (h : Hub) (p : Path) (c : Session) : (setSession h p c).mailbox = h.mailbox := rfl
@[simp] theorem setSession_store (h : Hub) (p : Path) (c : Session) : (setSession h p c).store = h.store := rfl
@[simp] theorem setSession_copyA (h : Hub) (p : Path) (c : Session) : (setSession h p c).copyA = h.copyA := rfl
@[simp] theorem setSession_copyB (h : Hub) (p : Path) (c : Session) : (setSession h p c).copyB = h.copyB := rfl
@[simp] theorem setSession_watch (h : Hub) (p : Path) (c : Session) : (setSession h p c).watch = h.watch := rfl
@[simp] theorem setSession_spire (h : Hub) (p : Path) (c : Session) : (setSession h p c).spire = h.spire := rfl
@[simp] theorem setSession_portQ (h : Hub) (p : Path) (c : Session) : (setSession h p c).portQ = h.portQ := rfl
@[simp] theorem setSession_seqs (h : Hub) (p : Path) (c : Session) : (setSession h p c).seqs = h.seqs := rfl
@[simp] theorem setSession_msix (h : Hub) (p : Path) (c : Session) : (setSession h p c).msix = h.msix := rfl
@[simp] theorem setSession_cyc (h : Hub) (p : Path) (c : Session) : (setSession h p c).cyc = h.cyc := rfl
@[simp] theorem setSession_engines (h : Hub) (p : Path) (c : Session) : (setSession h p c).engines = h.engines := rfl
@[simp] theorem setSession_pads (h : Hub) (p : Path) (c : Session) : (setSession h p c).pads = h.pads := rfl
@[simp] theorem setSession_fifos (h : Hub) (p : Path) (c : Session) : (setSession h p c).fifos = h.fifos := rfl
@[simp] theorem setSession_fuses (h : Hub) (p : Path) (c : Session) : (setSession h p c).fuses = h.fuses := rfl
@[simp] theorem setSession_adc (h : Hub) (p : Path) (c : Session) : (setSession h p c).adc = h.adc := rfl
@[simp] theorem setSession_power (h : Hub) (p : Path) (c : Session) : (setSession h p c).power = h.power := rfl
@[simp] theorem setSession_sleep (h : Hub) (p : Path) (c : Session) : (setSession h p c).sleep = h.sleep := rfl
@[simp] theorem setSession_dome (h : Hub) (p : Path) (c : Session) : (setSession h p c).dome = h.dome := rfl
@[simp] theorem setSession_links (h : Hub) (p : Path) (c : Session) : (setSession h p c).links = h.links := rfl
@[simp] theorem setSession_tx (h : Hub) (p : Path) (c : Session) : (setSession h p c).tx = h.tx := rfl
@[simp] theorem setSession_ring (h : Hub) (p : Path) (c : Session) : (setSession h p c).ring = h.ring := rfl
@[simp] theorem setSession_belfry (h : Hub) (p : Path) (c : Session) : (setSession h p c).belfry = h.belfry := rfl
@[simp] theorem setSession_channels (h : Hub) (p : Path) (c : Session) : (setSession h p c).channels = h.channels := rfl
@[simp] theorem setSession_canopy (h : Hub) (p : Path) (c : Session) : (setSession h p c).canopy = h.canopy := rfl
@[simp] theorem setSession_host (h : Hub) (p : Path) (c : Session) : (setSession h p c).host = h.host := rfl
@[simp] theorem setSession_forester (h : Hub) (p : Path) (c : Session) : (setSession h p c).forester = h.forester := rfl
@[simp] theorem setSession_can (h : Hub) (p : Path) (c : Session) : (setSession h p c).can = h.can := rfl
@[simp] theorem setSession_canopen (h : Hub) (p : Path) (c : Session) : (setSession h p c).canopen = h.canopen := rfl
@[simp] theorem setSession_t1s (h : Hub) (p : Path) (c : Session) : (setSession h p c).t1s = h.t1s := rfl
@[simp] theorem setSession_update (h : Hub) (p : Path) (c : Session) : (setSession h p c).update = h.update := rfl

end Sys2Proof.Machine
end

