-- ==== Sys2Proof/Laws/Registers.lean ====
section
/-! SUPPORT. What the registers of the object dictionary read as after each shared operation. -/

namespace Sys2Proof.Machine

@[simp] theorem rdW_update (h : Hub) (x0 : Nat) (x1 : Answer) (x3 : Env) (x4 : Boot) (x5 : Modes) (x6 : List Nat) (x7 : Tab Crossing) (x8 : Tab PathState) (x9 : HostHalf) (x10 : Mailbox) (x11 : Store) (x12 : Option ConfigCopy) (x13 : Option ConfigCopy) (x14 : Watch) (x15 : Spire) (x16 : Tab (List Frame)) (x17 : Tab Nat) (x18 : List Nat) (x19 : Cyc) (x20 : Tab Engine) (x21 : Tab Nat) (x22 : Tab Fifo) (x23 : Tab Session) (x24 : Tab FuseCh) (x25 : Adc) (x26 : Power) (x27 : Sleep) (x28 : Dome) (x29 : Tab Link) (x30 : Tab Tx) (x31 : Ring) (x32 : Belfry) (x33 : Tab Channel) (x34 : Canopy) (x35 : HostBr) (x36 : Forester) (x37 : Tab CanCtl) (x38 : CanOpen) (x39 : Tab T1sPort) (x40 : Update) (k : Nat) :
    rdW (Hub.mk x0 x1 h.dict x3 x4 x5 x6 x7 x8 x9 x10 x11 x12 x13 x14 x15 x16 x17 x18 x19 x20 x21 x22 x23 x24 x25 x26 x27 x28 x29 x30 x31 x32 x33 x34 x35 x36 x37 x38 x39 x40) k = rdW h k := rfl

@[simp] theorem rd_update (h : Hub) (x0 : Nat) (x1 : Answer) (x3 : Env) (x4 : Boot) (x5 : Modes) (x6 : List Nat) (x7 : Tab Crossing) (x8 : Tab PathState) (x9 : HostHalf) (x10 : Mailbox) (x11 : Store) (x12 : Option ConfigCopy) (x13 : Option ConfigCopy) (x14 : Watch) (x15 : Spire) (x16 : Tab (List Frame)) (x17 : Tab Nat) (x18 : List Nat) (x19 : Cyc) (x20 : Tab Engine) (x21 : Tab Nat) (x22 : Tab Fifo) (x23 : Tab Session) (x24 : Tab FuseCh) (x25 : Adc) (x26 : Power) (x27 : Sleep) (x28 : Dome) (x29 : Tab Link) (x30 : Tab Tx) (x31 : Ring) (x32 : Belfry) (x33 : Tab Channel) (x34 : Canopy) (x35 : HostBr) (x36 : Forester) (x37 : Tab CanCtl) (x38 : CanOpen) (x39 : Tab T1sPort) (x40 : Update) (k : Nat) :
    rd (Hub.mk x0 x1 h.dict x3 x4 x5 x6 x7 x8 x9 x10 x11 x12 x13 x14 x15 x16 x17 x18 x19 x20 x21 x22 x23 x24 x25 x26 x27 x28 x29 x30 x31 x32 x33 x34 x35 x36 x37 x38 x39 x40) k = rd h k := rfl

/-- A register after a write of one. -/
@[simp] theorem rdW_wrW (h : Hub) (k : Nat) (v : Word) (j : Nat) : rdW (wrW h k v) j = if j = k then v else rdW h j := by
  split
  · next e => rw [e, rdW_wrW_self]
  · next e => exact rdW_wrW_ne h k j v e

/-- The same for a number. -/
@[simp] theorem rd_wr (h : Hub) (k v j : Nat) : rd (wr h k v) j = if j = k then v % 2 ^ 48 else rd h j := by
  split
  · next e => rw [e, rd_wr_self]
  · next e => exact rd_wr_ne h k j v e

@[simp] theorem rdW_wr (h : Hub) (k v j : Nat) : rdW (wr h k v) j = if j = k then BitVec.ofNat 48 v else rdW h j := rdW_wrW h k _ j

@[simp] theorem rd_answered (a : Answer) (h : Hub) (k : Nat) : rd (answered a h) k = rd h k := rfl

@[simp] theorem rdW_answered (a : Answer) (h : Hub) (k : Nat) : rdW (answered a h) k = rdW h k := rfl

@[simp] theorem rd_noteUnstored (i j : Nat) (h : Hub) (k : Nat) : rd (noteUnstored i j h) k = rd h k := by
  unfold noteUnstored; split <;> rfl

@[simp] theorem rdW_noteUnstored (i j : Nat) (h : Hub) (k : Nat) : rdW (noteUnstored i j h) k = rdW h k := by
  unfold noteUnstored; split <;> rfl

@[simp] theorem rd_requestMsix (h : Hub) (v k : Nat) : rd (requestMsix h v) k = rd h k := by
  unfold requestMsix; split <;> rfl

@[simp] theorem rdW_requestMsix (h : Hub) (v k : Nat) : rdW (requestMsix h v) k = rdW h k := by
  unfold requestMsix; split <;> rfl

@[simp] theorem rd_originate (h : Hub) (p t : Nat) (c : Cls) (d x g : Nat) (l : List Word) (k : Nat) :
    rd (originate h p t c d x g l) k = rd h k := by unfold originate; split <;> rfl

@[simp] theorem rdW_originate (h : Hub) (p t : Nat) (c : Cls) (d x g : Nat) (l : List Word) (k : Nat) :
    rdW (originate h p t c d x g l) k = rdW h k := by unfold originate; split <;> rfl

/-- Registers that a list of writes does not name. -/
theorem rdW_wrs_of (h : Hub) (l : List (Nat × Nat)) (k : Nat) (n : ∀ e ∈ l, e.1 ≠ k) : rdW (wrs h l) k = rdW h k := by
  induction l generalizing h with
  | nil => rfl
  | cons e l ih =>
    rw [wrs, ih _ fun x m => n x (List.mem_cons_of_mem _ m), rdW_wr, if_neg (Ne.symm (n e (by simp)))]

/-- Registers outside a log. -/
theorem rdW_pushLog_of (h : Hub) (b w n : Nat) (l : List Nat) (k : Nat) (o : k < b ∨ b + (l.length + (n - 1) * w) ≤ k) :
    rdW (pushLog h b w n l) k = rdW h k := by
  apply rdW_wrs_of
  intro e m
  simp only [List.mem_map] at m
  obtain ⟨p, hp, rfl⟩ := m
  have hl := List.snd_lt_of_mem_zipIdx hp
  simp only [List.length_append, List.length_map, List.length_range] at hl
  simp only
  omega

/-- Registers that raising an event may write: pending bits, the log, ring event counters (R712 to R714). -/
def eventKey (k : Nat) : Bool := decide (0x4E10_01 ≤ k ∧ k ≤ 0x4E11_30) || k == 0x4E00_06 || k == 0x4E00_08

theorem rdW_raiseLocal_of (h : Hub) (e i v k : Nat) (he : e < 256) (hk : eventKey k = false) :
    rdW (raiseLocal h e i v) k = rdW h k := by
  simp only [eventKey, Bool.or_eq_false_iff, decide_eq_false_iff_not, beq_eq_false_iff_ne] at hk
  unfold raiseLocal
  simp only []
  have a : rdW (pushLog (wr h (pendingKey e) (setBit (rd h (pendingKey e)) (e % 48) true)) 0x4E11_01 3 16
      [e % 256 * 2 ^ 40 + i % 256 * 2 ^ 32 + v % 2 ^ 32, timeSec (replica h 0), timeFrac (replica h 0)]) k = rdW h k := by
    rw [rdW_pushLog_of _ _ _ _ _ _ (by simp only [List.length_cons, List.length_nil]; omega), rdW_wr, if_neg]
    unfold pendingKey; omega
  split
  · rw [rdW_requestMsix]; exact a
  · exact a

theorem rdW_ringEventFrame_of (h : Hub) (c e i v k : Nat) (hk : eventKey k = false) :
    rdW (ringEventFrame h c e i v) k = rdW h k := by
  have hk' := hk
  simp only [eventKey, Bool.or_eq_false_iff, decide_eq_false_iff_not, beq_eq_false_iff_ne] at hk'
  unfold ringEventFrame
  split
  · rw [rdW_raiseLocal_of _ _ _ _ _ (by decide) hk]; unfold bump bumpBy; rw [rdW_wr, if_neg hk'.2]
  · unfold bump bumpBy; simp only []; rw [rdW_wr, if_neg hk'.1.2]; exact rdW_originate h _ _ _ _ _ _ _ k

/-- Raising an event leaves every other register as it was. -/
theorem rdW_raiseEvent_of (h : Hub) (e i v k : Nat) (he : e < 256) (hk : eventKey k = false) :
    rdW (raiseEvent h e i v) k = rdW h k := by
  unfold raiseEvent
  simp only []
  split
  · rw [rdW_ringEventFrame_of _ _ _ _ _ _ hk, rdW_raiseLocal_of _ _ _ _ _ he hk]
  · exact rdW_raiseLocal_of _ _ _ _ _ he hk

theorem rd_raiseEvent_of (h : Hub) (e i v k : Nat) (he : e < 256) (hk : eventKey k = false) :
    rd (raiseEvent h e i v) k = rd h k := by unfold rd; rw [rdW_raiseEvent_of _ _ _ _ _ he hk]

theorem rdW_raiseKeyed_of (h : Hub) (c e i v p k : Nat) (he : e < 256) (hk : eventKey k = false) :
    rdW (raiseKeyed h c e i v p) k = rdW h k := by
  unfold raiseKeyed
  split
  · rfl
  · rw [rdW_raiseEvent_of _ _ _ _ _ he hk]; rfl

theorem rd_raiseKeyed_of (h : Hub) (c e i v p k : Nat) (he : e < 256) (hk : eventKey k = false) :
    rd (raiseKeyed h c e i v p) k = rd h k := by unfold rd; rw [rdW_raiseKeyed_of _ _ _ _ _ _ _ he hk]

/-! ### Bits -/

/-- A number by bit n: what lies above it, it, what lies below. -/
theorem split_at (x n : Nat) : x = 2 ^ n * (2 * (x / 2 ^ n / 2) + x / 2 ^ n % 2) + x % 2 ^ n := by
  rw [Nat.div_add_mod, Nat.div_add_mod]

theorem setBit_eq (x n : Nat) (b : Bool) : setBit x n b = 2 ^ n * (2 * (x / 2 ^ n / 2) + b.toNat) + x % 2 ^ n := by
  unfold setBit setField bits
  simp only [Nat.add_sub_cancel_left, Nat.pow_one]
  conv => lhs; rw [split_at x n]
  have hp : 0 < 2 ^ n := Nat.two_pow_pos n
  have l := Nat.mod_lt x hp
  rw [Nat.mul_add_div hp, Nat.div_eq_of_lt l, Nat.add_zero, Nat.mul_add_mod, Nat.mod_mod]
  have hc := Nat.mod_lt (x / 2 ^ n) (by decide : 0 < 2)
  generalize x / 2 ^ n % 2 = c at *
  generalize x / 2 ^ n / 2 = q
  generalize x % 2 ^ n = r
  generalize 2 ^ n = p
  have hb : b.toNat % 2 = b.toNat := Nat.mod_eq_of_lt (Bool.toNat_lt b)
  rw [hb, Nat.mul_add p (2 * q) c, Nat.mul_add p (2 * q) b.toNat, Nat.mul_comm c p, Nat.mul_comm b.toNat p]
  omega

/-- The bit that is set. -/
theorem bit_setBit_self (x n : Nat) (b : Bool) : bit (setBit x n b) n = b := by
  rw [setBit_eq]
  unfold bit
  rw [Nat.testBit_two_pow_mul_add _ (Nat.mod_lt x (Nat.two_pow_pos n)), if_neg (Nat.lt_irrefl n), Nat.sub_self]
  cases b <;> simp

/-- Every other bit stays. -/
theorem bit_setBit_ne (x n m : Nat) (b : Bool) (h : m ≠ n) : bit (setBit x n b) m = bit x m := by
  rw [setBit_eq]
  conv => rhs; rw [split_at x n]
  unfold bit
  rw [Nat.testBit_two_pow_mul_add _ (Nat.mod_lt x (Nat.two_pow_pos n)), Nat.testBit_two_pow_mul_add _ (Nat.mod_lt x (Nat.two_pow_pos n))]
  split
  · rfl
  · obtain ⟨k, rfl⟩ : ∃ k, m = n + (k + 1) := ⟨m - n - 1, by omega⟩
    rw [Nat.add_sub_cancel_left, Nat.testBit_succ, Nat.testBit_succ]
    congr 1
    cases b <;> simp <;> omega

theorem bit_mod (x n m : Nat) (h : n < m) : bit (x % 2 ^ m) n = bit x n := by simp [bit, Nat.testBit_mod_two_pow, h]

/-! ### Pending bits of events (R712) -/

/-- A pending bit that is set stays set while an event is raised. -/
theorem eventPending_raiseLocal (h : Hub) (e i v d : Nat) (hd : d < 256) (p : d = e ∨ eventPending h d = true) :
    eventPending (raiseLocal h e i v) d = true := by
  have key : rd (raiseLocal h e i v) (pendingKey d)
      = rd (wr h (pendingKey e) (setBit (rd h (pendingKey e)) (e % 48) true)) (pendingKey d) := by
    have lo : pendingKey d < 0x4E11_01 := by unfold pendingKey; omega
    unfold raiseLocal rd
    simp only []
    split
    · rw [rdW_requestMsix, rdW_pushLog_of _ _ _ _ _ _ (.inl lo)]
    · rw [rdW_pushLog_of _ _ _ _ _ _ (.inl lo)]
  unfold eventPending at *
  rw [key, rd_wr]
  split
  · next eq =>
    rw [bit_mod _ _ _ (by omega)]
    by_cases hde : d % 48 = e % 48
    · rw [hde, bit_setBit_self]
    · rw [bit_setBit_ne _ _ _ _ hde, ← eq]
      rcases p with rfl | p
      · exact absurd rfl hde
      · exact p
  · next ne =>
    rcases p with rfl | p
    · exact absurd rfl ne
    · exact p

theorem eventPending_ringEventFrame (h : Hub) (c e i v d : Nat) (hd : d < 256) (p : eventPending h d = true) :
    eventPending (ringEventFrame h c e i v) d = true := by
  have ne : ∀ k, k = 0x4E00_06 ∨ k = 0x4E00_08 → pendingKey d ≠ k := by unfold pendingKey; omega
  unfold ringEventFrame
  split
  · apply eventPending_raiseLocal _ _ _ _ _ hd
    right
    unfold eventPending bump bumpBy at *
    rw [rd_wr, if_neg (ne _ (.inr rfl))]; exact p
  · unfold eventPending bump bumpBy at *
    simp only []
    rw [rd_wr, if_neg (ne _ (.inl rfl))]
    exact (congrArg (bit · (d % 48)) (rd_originate h _ _ _ _ _ _ _ _)).trans p

/-- An event raised is pending, and those pending before are pending still. -/
theorem eventPending_raiseEvent (h : Hub) (e i v d : Nat) (hd : d < 256) (p : d = e ∨ eventPending h d = true) :
    eventPending (raiseEvent h e i v) d = true := by
  unfold raiseEvent
  simp only []
  split
  · exact eventPending_ringEventFrame _ _ _ _ _ _ hd (eventPending_raiseLocal _ _ _ _ _ hd p)
  · exact eventPending_raiseLocal _ _ _ _ _ hd p

end Sys2Proof.Machine
end

