-- ==== Sys2Proof/Laws/Faults.lean ====
section
/-! SUPPORT. What the fuse channels' evaluation and the raising of a fault leave as it was, and that the fault's record is held. -/

namespace Sys2Proof.Machine

/-- An operation that preserves what a function shows preserves it over a list. -/
theorem forEach_same {α β : Type} (q : Hub → β) (l : List α) (f : α → Hub → Hub) (h : Hub) (s : ∀ a ∈ l, ∀ g, q (f a g) = q g) :
    q (forEach l f h) = q h := by
  unfold forEach
  induction l generalizing h with
  | nil => rfl
  | cons a l ih =>
    rw [List.foldl_cons, ih _ fun b m => s b (List.mem_cons_of_mem _ m), s a (by simp)]

/-! ### Fuse channels -/

/-- A hub without what evaluating the fuse channels may change: events, the channels. -/
def noFuse (h : Hub) : Hub := { noEvent h with fuses := [] }

theorem noFuse_of {g h : Hub} (e : noEvent g = noEvent h) : noFuse g = noFuse h := by unfold noFuse; rw [e]

theorem noFuse_wr (h : Hub) (k v : Nat) : noFuse (wr h k v) = noFuse h := rfl

theorem noFuse_setFuse (h : Hub) (n : Nat) (c : FuseCh) : noFuse (setFuse h n c) = noFuse h := rfl

theorem noFuse_fuseStart (n : Nat) (r : Bool) (h : Hub) : noFuse (fuseStart n r h) = noFuse h := rfl

theorem noFuse_fuseIdle (n : Nat) (h : Hub) : noFuse (fuseIdle n h) = noFuse h := by
  unfold fuseIdle
  simp only []
  repeat' split
  all_goals first
    | rfl
    | exact (noFuse_of (noEvent_raiseKeyed _ _ _ _ _ _)).trans rfl

theorem noFuse_fuseEval (n : Nat) (h : Hub) : noFuse (fuseEval n h) = noFuse h := by
  unfold fuseEval
  split
  · rfl
  · simp only []
    rw [noFuse_fuseIdle]
    unfold whenDo
    split <;> rfl

theorem noFuse_fuseEvalAll (h : Hub) : noFuse (fuseEvalAll h) = noFuse h :=
  forEach_same noFuse _ _ _ fun n _ g => noFuse_fuseEval n g

/-- Registers that evaluating the fuse channels may write: those of the channels and of an event. -/
def fuseRegister (k : Nat) : Bool := eventKey k || decide (0x3600_00 ≤ k ∧ k < 0x3610_00)

theorem eventKey_of_fuseRegister {k : Nat} (e : fuseRegister k = false) : eventKey k = false := by
  unfold fuseRegister at e
  exact (Bool.or_eq_false_iff.1 e).1

theorem fuseKey_ne {k n j : Nat} (e : fuseRegister k = false) (hn : n < 16) (hj : j < 256) : k ≠ fuseKey n j := by
  unfold fuseRegister fuseKey slotKey at *
  simp only [Bool.or_eq_false_iff, decide_eq_false_iff_not] at e
  omega

theorem rdW_fuseIdle_of (n : Nat) (h : Hub) (k : Nat) (hn : n < 16) (e : fuseRegister k = false) : rdW (fuseIdle n h) k = rdW h k := by
  have w : ∀ g v, rdW (wr g (fuseKey n 1) v) k = rdW g k := fun g v => by rw [rdW_wr, if_neg (fuseKey_ne e hn (by decide))]
  have r : ∀ g c v, rdW (raise16ms g 0x8C n c v) k = rdW g k := fun g c v =>
    rdW_raiseKeyed_of _ _ _ _ _ _ _ (by decide) (eventKey_of_fuseRegister e)
  unfold fuseIdle fuseStart
  simp only []
  repeat' split
  all_goals first
    | rfl
    | exact w _ _
    | exact (w _ _).trans (w _ _)
    | exact r _ _ _
    | exact (r _ _ _).trans (w _ _)

theorem rdW_fuseEval_of (n : Nat) (h : Hub) (k : Nat) (hn : n < 16) (e : fuseRegister k = false) : rdW (fuseEval n h) k = rdW h k := by
  unfold fuseEval
  split
  · rfl
  · simp only []
    rw [rdW_fuseIdle_of _ _ _ hn e]
    unfold whenDo fuseOff
    split
    · rw [rdW_wr, if_neg (fuseKey_ne e hn (by decide))]; rfl
    · rfl

theorem rdW_fuseEvalAll_of (h : Hub) (k : Nat) (e : fuseRegister k = false) : rdW (fuseEvalAll h) k = rdW h k :=
  forEach_same (fun g => rdW g k) _ _ _ fun n m g => rdW_fuseEval_of n g k (List.mem_range.1 m) e

theorem rd_fuseEvalAll_of (h : Hub) (k : Nat) (e : fuseRegister k = false) : rd (fuseEvalAll h) k = rd h k := by
  unfold rd; rw [rdW_fuseEvalAll_of _ _ e]

/-! ### Raising a fault -/

/-- A hub without what raising a fault may change: events, fuse channels, Watchtower, cycles since a release. -/
def noFault (h : Hub) : Hub := { noFuse h with watch := Hub.reset.watch, cyc := { h.cyc with since := 0 } }

theorem noFault_of {g h : Hub} (e : noFuse g = noFuse h) : noFault g = noFault h :=
  congrArg (fun x : Hub => { x with watch := Hub.reset.watch, cyc := { x.cyc with since := 0 } }) e

theorem noFault_event {g h : Hub} (e : noEvent g = noEvent h) : noFault g = noFault h := noFault_of (noFuse_of e)

theorem noFault_dict {g h : Hub} (e : noDict g = noDict h) : noFault g = noFault h := noFault_event (noEvent_of _ _ e)

theorem noFault_fuseEvalAll (h : Hub) : noFault (fuseEvalAll h) = noFault h := noFault_of (noFuse_fuseEvalAll h)

theorem noFault_raiseEvent (h : Hub) (e i v : Nat) : noFault (raiseEvent h e i v) = noFault h :=
  noFault_event (noEvent_raiseEvent h e i v)

theorem noFault_wr (h : Hub) (k v : Nat) : noFault (wr h k v) = noFault h := rfl

theorem noFault_watch (h : Hub) (w : Watch) : noFault { h with watch := w } = noFault h := rfl

theorem noFault_since (h : Hub) (w : Watch) (n : Nat) :
    noFault { h with watch := w, cyc := { h.cyc with since := n } } = noFault h := rfl

theorem noFault_releaseCan (h : Hub) : noFault (releaseCan h) = noFault h :=
  forEach_same noFault _ _ _ fun n _ g => by split <;> rfl

theorem noFault_settle (o s : Bool) (h0 : Hub) : noFault (settle o s h0) = noFault h0 := by
  have e0 : noFault (if reaction h0 = 3 then { h0 with watch := { h0.watch with halted := true } } else h0) = noFault h0 := by
    split <;> rfl
  unfold settle
  simp only []
  generalize (if reaction h0 = 3 then { h0 with watch := { h0.watch with halted := true } } else h0) = h at e0 ⊢
  have e1 : noFault (whenDo (safeHeldLow h) (fun x => wr x 0x4E00_03 0) h) = noFault h := by
    unfold whenDo; split <;> rfl
  generalize whenDo (safeHeldLow h) (fun x => wr x 0x4E00_03 0) h = a at e1 ⊢
  have e2 : noFault (whenDo (safeHeldLow h && !s) (fun x => raiseEvent x 0xAA 0 0) a) = noFault a := by
    unfold whenDo; split
    · exact noFault_raiseEvent _ _ _ _
    · rfl
  generalize whenDo (safeHeldLow h && !s) (fun x => raiseEvent x 0xAA 0 0) a = b at e2 ⊢
  rw [← e0, ← e1, ← e2]
  split
  · rw [noFault_fuseEvalAll]; rfl
  · split
    · split
      · rw [noFault_fuseEvalAll]
        exact (noFault_since (releaseCan b) _ 0).trans (noFault_releaseCan b)
      · rw [noFault_raiseEvent, noFault_fuseEvalAll]
        exact (noFault_since (releaseCan b) (releaseCan b).watch 0).trans (noFault_releaseCan b)
    · rfl

theorem noFault_putRecord (h : Hub) (c : Nat) (r : FaultRec) : noFault (putRecord h c r) = noFault h := rfl

theorem noFault_capture (c : Nat) (r : FaultRec) (h : Hub) : noFault (capture c r h) = noFault h := by
  unfold capture
  simp only []
  split
  · exact noFault_dict (noDict_wrs _ _)
  · rw [noFault_wr]
    split
    · exact noFault_dict (noDict_wrs _ _)
    · rfl

theorem noFault_escalate (c : Nat) (r : FaultRec) (h : Hub) : noFault (escalate c r h) = noFault h := by
  unfold escalate
  split
  · rfl
  · simp only []
    rw [noFault_raiseEvent]; rfl

theorem noFault_newRecord (c i a b : Nat) (h : Hub) : noFault (newRecord c i a b h) = noFault h := by
  unfold newRecord
  simp only []
  rw [noFault_escalate, noFault_raiseEvent]
  refine (noFault_dict (noDict_wrs _ _)).trans ?_
  rw [noFault_capture]
  rfl

theorem noFault_repeatRecord (c : Nat) (r : FaultRec) (h : Hub) : noFault (repeatRecord c r h) = noFault h := by
  unfold repeatRecord
  exact noFault_escalate _ _ _

theorem noFault_causeGone (c : Nat) (h : Hub) : noFault (causeGone c h) = noFault h := by
  unfold causeGone withReactions
  rw [noFault_settle]
  unfold markGone
  split
  · split <;> rfl
  · rfl

/-- Raising a fault changes nothing else. -/
theorem noFault_raiseFault (c i a b : Nat) (h : Hub) : noFault (raiseFault c i a b h) = noFault h := by
  have e : ∀ g : Hub, noFault (countOccurrence c g) = noFault g := fun g => rfl
  unfold raiseFault
  simp only []
  have k : noFault (withReactions (fun g =>
      match (countOccurrence c g).watch.records.find? fun e => e.1 == c with
      | some (_, r) => repeatRecord c r (countOccurrence c g)
      | none => newRecord c i a b (countOccurrence c g)) h) = noFault h := by
    unfold withReactions
    rw [noFault_settle]
    dsimp only
    split
    · rw [noFault_repeatRecord, e]
    · rw [noFault_newRecord, e]
  split
  · rw [noFault_causeGone]; exact k
  · exact k

/-! ### Fields -/

theorem noFuse_freeCount_eq (h : Hub) : (noFuse h).freeCount = h.freeCount := rfl
theorem noFuse_answer_eq (h : Hub) : (noFuse h).answer = h.answer := rfl
theorem noFuse_env_eq (h : Hub) : (noFuse h).env = h.env := rfl
theorem noFuse_boot_eq (h : Hub) : (noFuse h).boot = h.boot := rfl
theorem noFuse_modes_eq (h : Hub) : (noFuse h).modes = h.modes := rfl
theorem noFuse_stopped_eq (h : Hub) : (noFuse h).stopped = h.stopped := rfl
theorem noFuse_crossings_eq (h : Hub) : (noFuse h).crossings = h.crossings := rfl
theorem noFuse_paths_eq (h : Hub) : (noFuse h).paths = h.paths := rfl
theorem noFuse_hostHalf_eq (h : Hub) : (noFuse h).hostHalf = h.hostHalf := rfl
theorem noFuse_mailbox_eq (h : Hub) : (noFuse h).mailbox = h.mailbox := rfl
theorem noFuse_store_eq (h : Hub) : (noFuse h).store = h.store := rfl
theorem noFuse_copyA_eq (h : Hub) : (noFuse h).copyA = h.copyA := rfl
theorem noFuse_copyB_eq (h : Hub) : (noFuse h).copyB = h.copyB := rfl
theorem noFuse_spire_eq (h : Hub) : (noFuse h).spire = h.spire := rfl
theorem noFuse_cyc_eq (h : Hub) : (noFuse h).cyc = h.cyc := rfl
theorem noFuse_engines_eq (h : Hub) : (noFuse h).engines = h.engines := rfl
theorem noFuse_pads_eq (h : Hub) : (noFuse h).pads = h.pads := rfl
theorem noFuse_fifos_eq (h : Hub) : (noFuse h).fifos = h.fifos := rfl
theorem noFuse_sessions_eq (h : Hub) : (noFuse h).sessions = h.sessions := rfl
theorem noFuse_adc_eq (h : Hub) : (noFuse h).adc = h.adc := rfl
theorem noFuse_power_eq (h : Hub) : (noFuse h).power = h.power := rfl
theorem noFuse_sleep_eq (h : Hub) : (noFuse h).sleep = h.sleep := rfl
theorem noFuse_dome_eq (h : Hub) : (noFuse h).dome = h.dome := rfl
theorem noFuse_links_eq (h : Hub) : (noFuse h).links = h.links := rfl
theorem noFuse_tx_eq (h : Hub) : (noFuse h).tx = h.tx := rfl
theorem noFuse_ring_eq (h : Hub) : (noFuse h).ring = h.ring := rfl
theorem noFuse_belfry_eq (h : Hub) : (noFuse h).belfry = h.belfry := rfl
theorem noFuse_channels_eq (h : Hub) : (noFuse h).channels = h.channels := rfl
theorem noFuse_canopy_eq (h : Hub) : (noFuse h).canopy = h.canopy := rfl
theorem noFuse_host_eq (h : Hub) : (noFuse h).host = h.host := rfl
theorem noFuse_forester_eq (h : Hub) : (noFuse h).forester = h.forester := rfl
theorem noFuse_can_eq (h : Hub) : (noFuse h).can = h.can := rfl
theorem noFuse_canopen_eq (h : Hub) : (noFuse h).canopen = h.canopen := rfl
theorem noFuse_t1s_eq (h : Hub) : (noFuse h).t1s = h.t1s := rfl
theorem noFuse_update_eq (h : Hub) : (noFuse h).update = h.update := rfl

theorem noFault_freeCount_eq (h : Hub) : (noFault h).freeCount = h.freeCount := rfl
theorem noFault_answer_eq (h : Hub) : (noFault h).answer = h.answer := rfl
theorem noFault_env_eq (h : Hub) : (noFault h).env = h.env := rfl
theorem noFault_boot_eq (h : Hub) : (noFault h).boot = h.boot := rfl
theorem noFault_modes_eq (h : Hub) : (noFault h).modes = h.modes := rfl
theorem noFault_stopped_eq (h : Hub) : (noFault h).stopped = h.stopped := rfl
theorem noFault_crossings_eq (h : Hub) : (noFault h).crossings = h.crossings := rfl
theorem noFault_paths_eq (h : Hub) : (noFault h).paths = h.paths := rfl
theorem noFault_hostHalf_eq (h : Hub) : (noFault h).hostHalf = h.hostHalf := rfl
theorem noFault_mailbox_eq (h : Hub) : (noFault h).mailbox = h.mailbox := rfl
theorem noFault_store_eq (h : Hub) : (noFault h).store = h.store := rfl
theorem noFault_copyA_eq (h : Hub) : (noFault h).copyA = h.copyA := rfl
theorem noFault_copyB_eq (h : Hub) : (noFault h).copyB = h.copyB := rfl
theorem noFault_spire_eq (h : Hub) : (noFault h).spire = h.spire := rfl
theorem noFault_engines_eq (h : Hub) : (noFault h).engines = h.engines := rfl
theorem noFault_pads_eq (h : Hub) : (noFault h).pads = h.pads := rfl
theorem noFault_fifos_eq (h : Hub) : (noFault h).fifos = h.fifos := rfl
theorem noFault_sessions_eq (h : Hub) : (noFault h).sessions = h.sessions := rfl
theorem noFault_adc_eq (h : Hub) : (noFault h).adc = h.adc := rfl
theorem noFault_power_eq (h : Hub) : (noFault h).power = h.power := rfl
theorem noFault_sleep_eq (h : Hub) : (noFault h).sleep = h.sleep := rfl
theorem noFault_dome_eq (h : Hub) : (noFault h).dome = h.dome := rfl
theorem noFault_links_eq (h : Hub) : (noFault h).links = h.links := rfl
theorem noFault_tx_eq (h : Hub) : (noFault h).tx = h.tx := rfl
theorem noFault_ring_eq (h : Hub) : (noFault h).ring = h.ring := rfl
theorem noFault_belfry_eq (h : Hub) : (noFault h).belfry = h.belfry := rfl
theorem noFault_channels_eq (h : Hub) : (noFault h).channels = h.channels := rfl
theorem noFault_canopy_eq (h : Hub) : (noFault h).canopy = h.canopy := rfl
theorem noFault_host_eq (h : Hub) : (noFault h).host = h.host := rfl
theorem noFault_forester_eq (h : Hub) : (noFault h).forester = h.forester := rfl
theorem noFault_can_eq (h : Hub) : (noFault h).can = h.can := rfl
theorem noFault_canopen_eq (h : Hub) : (noFault h).canopen = h.canopen := rfl
theorem noFault_t1s_eq (h : Hub) : (noFault h).t1s = h.t1s := rfl
theorem noFault_update_eq (h : Hub) : (noFault h).update = h.update := rfl

@[simp] theorem fuseEvalAll_freeCount (h : Hub) : (fuseEvalAll h).freeCount = h.freeCount :=
  (noFuse_freeCount_eq _).symm.trans ((congrArg Hub.freeCount (noFuse_fuseEvalAll h)).trans (noFuse_freeCount_eq h))
@[simp] theorem fuseEvalAll_answer (h : Hub) : (fuseEvalAll h).answer = h.answer :=
  (noFuse_answer_eq _).symm.trans ((congrArg Hub.answer (noFuse_fuseEvalAll h)).trans (noFuse_answer_eq h))
@[simp] theorem fuseEvalAll_env (h : Hub) : (fuseEvalAll h).env = h.env :=
  (noFuse_env_eq _).symm.trans ((congrArg Hub.env (noFuse_fuseEvalAll h)).trans (noFuse_env_eq h))
@[simp] theorem fuseEvalAll_boot (h : Hub) : (fuseEvalAll h).boot = h.boot :=
  (noFuse_boot_eq _).symm.trans ((congrArg Hub.boot (noFuse_fuseEvalAll h)).trans (noFuse_boot_eq h))
@[simp] theorem fuseEvalAll_modes (h : Hub) : (fuseEvalAll h).modes = h.modes :=
  (noFuse_modes_eq _).symm.trans ((congrArg Hub.modes (noFuse_fuseEvalAll h)).trans (noFuse_modes_eq h))
@[simp] theorem fuseEvalAll_stopped (h : Hub) : (fuseEvalAll h).stopped = h.stopped :=
  (noFuse_stopped_eq _).symm.trans ((congrArg Hub.stopped (noFuse_fuseEvalAll h)).trans (noFuse_stopped_eq h))
@[simp] theorem fuseEvalAll_crossings (h : Hub) : (fuseEvalAll h).crossings = h.crossings :=
  (noFuse_crossings_eq _).symm.trans ((congrArg Hub.crossings (noFuse_fuseEvalAll h)).trans (noFuse_crossings_eq h))
@[simp] theorem fuseEvalAll_paths (h : Hub) : (fuseEvalAll h).paths = h.paths :=
  (noFuse_paths_eq _).symm.trans ((congrArg Hub.paths (noFuse_fuseEvalAll h)).trans (noFuse_paths_eq h))
@[simp] theorem fuseEvalAll_hostHalf (h : Hub) : (fuseEvalAll h).hostHalf = h.hostHalf :=
  (noFuse_hostHalf_eq _).symm.trans ((congrArg Hub.hostHalf (noFuse_fuseEvalAll h)).trans (noFuse_hostHalf_eq h))
@[simp] theorem fuseEvalAll_mailbox (h : Hub) : (fuseEvalAll h).mailbox = h.mailbox :=
  (noFuse_mailbox_eq _).symm.trans ((congrArg Hub.mailbox (noFuse_fuseEvalAll h)).trans (noFuse_mailbox_eq h))
@[simp] theorem fuseEvalAll_store (h : Hub) : (fuseEvalAll h).store = h.store :=
  (noFuse_store_eq _).symm.trans ((congrArg Hub.store (noFuse_fuseEvalAll h)).trans (noFuse_store_eq h))
@[simp] theorem fuseEvalAll_copyA (h : Hub) : (fuseEvalAll h).copyA = h.copyA :=
  (noFuse_copyA_eq _).symm.trans ((congrArg Hub.copyA (noFuse_fuseEvalAll h)).trans (noFuse_copyA_eq h))
@[simp] theorem fuseEvalAll_copyB (h : Hub) : (fuseEvalAll h).copyB = h.copyB :=
  (noFuse_copyB_eq _).symm.trans ((congrArg Hub.copyB (noFuse_fuseEvalAll h)).trans (noFuse_copyB_eq h))
@[simp] theorem fuseEvalAll_spire (h : Hub) : (fuseEvalAll h).spire = h.spire :=
  (noFuse_spire_eq _).symm.trans ((congrArg Hub.spire (noFuse_fuseEvalAll h)).trans (noFuse_spire_eq h))
@[simp] theorem fuseEvalAll_cyc (h : Hub) : (fuseEvalAll h).cyc = h.cyc :=
  (noFuse_cyc_eq _).symm.trans ((congrArg Hub.cyc (noFuse_fuseEvalAll h)).trans (noFuse_cyc_eq h))
@[simp] theorem fuseEvalAll_engines (h : Hub) : (fuseEvalAll h).engines = h.engines :=
  (noFuse_engines_eq _).symm.trans ((congrArg Hub.engines (noFuse_fuseEvalAll h)).trans (noFuse_engines_eq h))
@[simp] theorem fuseEvalAll_pads (h : Hub) : (fuseEvalAll h).pads = h.pads :=
  (noFuse_pads_eq _).symm.trans ((congrArg Hub.pads (noFuse_fuseEvalAll h)).trans (noFuse_pads_eq h))
@[simp] theorem fuseEvalAll_fifos (h : Hub) : (fuseEvalAll h).fifos = h.fifos :=
  (noFuse_fifos_eq _).symm.trans ((congrArg Hub.fifos (noFuse_fuseEvalAll h)).trans (noFuse_fifos_eq h))
@[simp] theorem fuseEvalAll_sessions (h : Hub) : (fuseEvalAll h).sessions = h.sessions :=
  (noFuse_sessions_eq _).symm.trans ((congrArg Hub.sessions (noFuse_fuseEvalAll h)).trans (noFuse_sessions_eq h))
@[simp] theorem fuseEvalAll_adc (h : Hub) : (fuseEvalAll h).adc = h.adc :=
  (noFuse_adc_eq _).symm.trans ((congrArg Hub.adc (noFuse_fuseEvalAll h)).trans (noFuse_adc_eq h))
@[simp] theorem fuseEvalAll_power (h : Hub) : (fuseEvalAll h).power = h.power :=
  (noFuse_power_eq _).symm.trans ((congrArg Hub.power (noFuse_fuseEvalAll h)).trans (noFuse_power_eq h))
@[simp] theorem fuseEvalAll_sleep (h : Hub) : (fuseEvalAll h).sleep = h.sleep :=
  (noFuse_sleep_eq _).symm.trans ((congrArg Hub.sleep (noFuse_fuseEvalAll h)).trans (noFuse_sleep_eq h))
@[simp] theorem fuseEvalAll_dome (h : Hub) : (fuseEvalAll h).dome = h.dome :=
  (noFuse_dome_eq _).symm.trans ((congrArg Hub.dome (noFuse_fuseEvalAll h)).trans (noFuse_dome_eq h))
@[simp] theorem fuseEvalAll_links (h : Hub) : (fuseEvalAll h).links = h.links :=
  (noFuse_links_eq _).symm.trans ((congrArg Hub.links (noFuse_fuseEvalAll h)).trans (noFuse_links_eq h))
@[simp] theorem fuseEvalAll_tx (h : Hub) : (fuseEvalAll h).tx = h.tx :=
  (noFuse_tx_eq _).symm.trans ((congrArg Hub.tx (noFuse_fuseEvalAll h)).trans (noFuse_tx_eq h))
@[simp] theorem fuseEvalAll_ring (h : Hub) : (fuseEvalAll h).ring = h.ring :=
  (noFuse_ring_eq _).symm.trans ((congrArg Hub.ring (noFuse_fuseEvalAll h)).trans (noFuse_ring_eq h))
@[simp] theorem fuseEvalAll_belfry (h : Hub) : (fuseEvalAll h).belfry = h.belfry :=
  (noFuse_belfry_eq _).symm.trans ((congrArg Hub.belfry (noFuse_fuseEvalAll h)).trans (noFuse_belfry_eq h))
@[simp] theorem fuseEvalAll_channels (h : Hub) : (fuseEvalAll h).channels = h.channels :=
  (noFuse_channels_eq _).symm.trans ((congrArg Hub.channels (noFuse_fuseEvalAll h)).trans (noFuse_channels_eq h))
@[simp] theorem fuseEvalAll_canopy (h : Hub) : (fuseEvalAll h).canopy = h.canopy :=
  (noFuse_canopy_eq _).symm.trans ((congrArg Hub.canopy (noFuse_fuseEvalAll h)).trans (noFuse_canopy_eq h))
@[simp] theorem fuseEvalAll_host (h : Hub) : (fuseEvalAll h).host = h.host :=
  (noFuse_host_eq _).symm.trans ((congrArg Hub.host (noFuse_fuseEvalAll h)).trans (noFuse_host_eq h))
@[simp] theorem fuseEvalAll_forester (h : Hub) : (fuseEvalAll h).forester = h.forester :=
  (noFuse_forester_eq _).symm.trans ((congrArg Hub.forester (noFuse_fuseEvalAll h)).trans (noFuse_forester_eq h))
@[simp] theorem fuseEvalAll_can (h : Hub) : (fuseEvalAll h).can = h.can :=
  (noFuse_can_eq _).symm.trans ((congrArg Hub.can (noFuse_fuseEvalAll h)).trans (noFuse_can_eq h))
@[simp] theorem fuseEvalAll_canopen (h : Hub) : (fuseEvalAll h).canopen = h.canopen :=
  (noFuse_canopen_eq _).symm.trans ((congrArg Hub.canopen (noFuse_fuseEvalAll h)).trans (noFuse_canopen_eq h))
@[simp] theorem fuseEvalAll_t1s (h : Hub) : (fuseEvalAll h).t1s = h.t1s :=
  (noFuse_t1s_eq _).symm.trans ((congrArg Hub.t1s (noFuse_fuseEvalAll h)).trans (noFuse_t1s_eq h))
@[simp] theorem fuseEvalAll_update (h : Hub) : (fuseEvalAll h).update = h.update :=
  (noFuse_update_eq _).symm.trans ((congrArg Hub.update (noFuse_fuseEvalAll h)).trans (noFuse_update_eq h))

@[simp] theorem raiseFault_freeCount (c i a b : Nat) (h : Hub) : (raiseFault c i a b h).freeCount = h.freeCount :=
  (noFault_freeCount_eq _).symm.trans ((congrArg Hub.freeCount (noFault_raiseFault c i a b h)).trans (noFault_freeCount_eq h))
@[simp] theorem raiseFault_answer (c i a b : Nat) (h : Hub) : (raiseFault c i a b h).answer = h.answer :=
  (noFault_answer_eq _).symm.trans ((congrArg Hub.answer (noFault_raiseFault c i a b h)).trans (noFault_answer_eq h))
@[simp] theorem raiseFault_env (c i a b : Nat) (h : Hub) : (raiseFault c i a b h).env = h.env :=
  (noFault_env_eq _).symm.trans ((congrArg Hub.env (noFault_raiseFault c i a b h)).trans (noFault_env_eq h))
@[simp] theorem raiseFault_boot (c i a b : Nat) (h : Hub) : (raiseFault c i a b h).boot = h.boot :=
  (noFault_boot_eq _).symm.trans ((congrArg Hub.boot (noFault_raiseFault c i a b h)).trans (noFault_boot_eq h))
@[simp] theorem raiseFault_modes (c i a b : Nat) (h : Hub) : (raiseFault c i a b h).modes = h.modes :=
  (noFault_modes_eq _).symm.trans ((congrArg Hub.modes (noFault_raiseFault c i a b h)).trans (noFault_modes_eq h))
@[simp] theorem raiseFault_stopped (c i a b : Nat) (h : Hub) : (raiseFault c i a b h).stopped = h.stopped :=
  (noFault_stopped_eq _).symm.trans ((congrArg Hub.stopped (noFault_raiseFault c i a b h)).trans (noFault_stopped_eq h))
@[simp] theorem raiseFault_crossings (c i a b : Nat) (h : Hub) : (raiseFault c i a b h).crossings = h.crossings :=
  (noFault_crossings_eq _).symm.trans ((congrArg Hub.crossings (noFault_raiseFault c i a b h)).trans (noFault_crossings_eq h))
@[simp] theorem raiseFault_paths (c i a b : Nat) (h : Hub) : (raiseFault c i a b h).paths = h.paths :=
  (noFault_paths_eq _).symm.trans ((congrArg Hub.paths (noFault_raiseFault c i a b h)).trans (noFault_paths_eq h))
@[simp] theorem raiseFault_hostHalf (c i a b : Nat) (h : Hub) : (raiseFault c i a b h).hostHalf = h.hostHalf :=
  (noFault_hostHalf_eq _).symm.trans ((congrArg Hub.hostHalf (noFault_raiseFault c i a b h)).trans (noFault_hostHalf_eq h))
@[simp] theorem raiseFault_mailbox (c i a b : Nat) (h : Hub) : (raiseFault c i a b h).mailbox = h.mailbox :=
  (noFault_mailbox_eq _).symm.trans ((congrArg Hub.mailbox (noFault_raiseFault c i a b h)).trans (noFault_mailbox_eq h))
@[simp] theorem raiseFault_store (c i a b : Nat) (h : Hub) : (raiseFault c i a b h).store = h.store :=
  (noFault_store_eq _).symm.trans ((congrArg Hub.store (noFault_raiseFault c i a b h)).trans (noFault_store_eq h))
@[simp] theorem raiseFault_copyA (c i a b : Nat) (h : Hub) : (raiseFault c i a b h).copyA = h.copyA :=
  (noFault_copyA_eq _).symm.trans ((congrArg Hub.copyA (noFault_raiseFault c i a b h)).trans (noFault_copyA_eq h))
@[simp] theorem raiseFault_copyB (c i a b : Nat) (h : Hub) : (raiseFault c i a b h).copyB = h.copyB :=
  (noFault_copyB_eq _).symm.trans ((congrArg Hub.copyB (noFault_raiseFault c i a b h)).trans (noFault_copyB_eq h))
@[simp] theorem raiseFault_spire (c i a b : Nat) (h : Hub) : (raiseFault c i a b h).spire = h.spire :=
  (noFault_spire_eq _).symm.trans ((congrArg Hub.spire (noFault_raiseFault c i a b h)).trans (noFault_spire_eq h))
@[simp] theorem raiseFault_engines (c i a b : Nat) (h : Hub) : (raiseFault c i a b h).engines = h.engines :=
  (noFault_engines_eq _).symm.trans ((congrArg Hub.engines (noFault_raiseFault c i a b h)).trans (noFault_engines_eq h))
@[simp] theorem raiseFault_pads (c i a b : Nat) (h : Hub) : (raiseFault c i a b h).pads = h.pads :=
  (noFault_pads_eq _).symm.trans ((congrArg Hub.pads (noFault_raiseFault c i a b h)).trans (noFault_pads_eq h))
@[simp] theorem raiseFault_fifos (c i a b : Nat) (h : Hub) : (raiseFault c i a b h).fifos = h.fifos :=
  (noFault_fifos_eq _).symm.trans ((congrArg Hub.fifos (noFault_raiseFault c i a b h)).trans (noFault_fifos_eq h))
@[simp] theorem raiseFault_sessions (c i a b : Nat) (h : Hub) : (raiseFault c i a b h).sessions = h.sessions :=
  (noFault_sessions_eq _).symm.trans ((congrArg Hub.sessions (noFault_raiseFault c i a b h)).trans (noFault_sessions_eq h))
@[simp] theorem raiseFault_adc (c i a b : Nat) (h : Hub) : (raiseFault c i a b h).adc = h.adc :=
  (noFault_adc_eq _).symm.trans ((congrArg Hub.adc (noFault_raiseFault c i a b h)).trans (noFault_adc_eq h))
@[simp] theorem raiseFault_power (c i a b : Nat) (h : Hub) : (raiseFault c i a b h).power = h.power :=
  (noFault_power_eq _).symm.trans ((congrArg Hub.power (noFault_raiseFault c i a b h)).trans (noFault_power_eq h))
@[simp] theorem raiseFault_sleep (c i a b : Nat) (h : Hub) : (raiseFault c i a b h).sleep = h.sleep :=
  (noFault_sleep_eq _).symm.trans ((congrArg Hub.sleep (noFault_raiseFault c i a b h)).trans (noFault_sleep_eq h))
@[simp] theorem raiseFault_dome (c i a b : Nat) (h : Hub) : (raiseFault c i a b h).dome = h.dome :=
  (noFault_dome_eq _).symm.trans ((congrArg Hub.dome (noFault_raiseFault c i a b h)).trans (noFault_dome_eq h))
@[simp] theorem raiseFault_links (c i a b : Nat) (h : Hub) : (raiseFault c i a b h).links = h.links :=
  (noFault_links_eq _).symm.trans ((congrArg Hub.links (noFault_raiseFault c i a b h)).trans (noFault_links_eq h))
@[simp] theorem raiseFault_tx (c i a b : Nat) (h : Hub) : (raiseFault c i a b h).tx = h.tx :=
  (noFault_tx_eq _).symm.trans ((congrArg Hub.tx (noFault_raiseFault c i a b h)).trans (noFault_tx_eq h))
@[simp] theorem raiseFault_ring (c i a b : Nat) (h : Hub) : (raiseFault c i a b h).ring = h.ring :=
  (noFault_ring_eq _).symm.trans ((congrArg Hub.ring (noFault_raiseFault c i a b h)).trans (noFault_ring_eq h))
@[simp] theorem raiseFault_belfry (c i a b : Nat) (h : Hub) : (raiseFault c i a b h).belfry = h.belfry :=
  (noFault_belfry_eq _).symm.trans ((congrArg Hub.belfry (noFault_raiseFault c i a b h)).trans (noFault_belfry_eq h))
@[simp] theorem raiseFault_channels (c i a b : Nat) (h : Hub) : (raiseFault c i a b h).channels = h.channels :=
  (noFault_channels_eq _).symm.trans ((congrArg Hub.channels (noFault_raiseFault c i a b h)).trans (noFault_channels_eq h))
@[simp] theorem raiseFault_canopy (c i a b : Nat) (h : Hub) : (raiseFault c i a b h).canopy = h.canopy :=
  (noFault_canopy_eq _).symm.trans ((congrArg Hub.canopy (noFault_raiseFault c i a b h)).trans (noFault_canopy_eq h))
@[simp] theorem raiseFault_host (c i a b : Nat) (h : Hub) : (raiseFault c i a b h).host = h.host :=
  (noFault_host_eq _).symm.trans ((congrArg Hub.host (noFault_raiseFault c i a b h)).trans (noFault_host_eq h))
@[simp] theorem raiseFault_forester (c i a b : Nat) (h : Hub) : (raiseFault c i a b h).forester = h.forester :=
  (noFault_forester_eq _).symm.trans ((congrArg Hub.forester (noFault_raiseFault c i a b h)).trans (noFault_forester_eq h))
@[simp] theorem raiseFault_can (c i a b : Nat) (h : Hub) : (raiseFault c i a b h).can = h.can :=
  (noFault_can_eq _).symm.trans ((congrArg Hub.can (noFault_raiseFault c i a b h)).trans (noFault_can_eq h))
@[simp] theorem raiseFault_canopen (c i a b : Nat) (h : Hub) : (raiseFault c i a b h).canopen = h.canopen :=
  (noFault_canopen_eq _).symm.trans ((congrArg Hub.canopen (noFault_raiseFault c i a b h)).trans (noFault_canopen_eq h))
@[simp] theorem raiseFault_t1s (c i a b : Nat) (h : Hub) : (raiseFault c i a b h).t1s = h.t1s :=
  (noFault_t1s_eq _).symm.trans ((congrArg Hub.t1s (noFault_raiseFault c i a b h)).trans (noFault_t1s_eq h))
@[simp] theorem raiseFault_update (c i a b : Nat) (h : Hub) : (raiseFault c i a b h).update = h.update :=
  (noFault_update_eq _).symm.trans ((congrArg Hub.update (noFault_raiseFault c i a b h)).trans (noFault_update_eq h))

@[simp] theorem causeGone_freeCount (c : Nat) (h : Hub) : (causeGone c h).freeCount = h.freeCount :=
  (noFault_freeCount_eq _).symm.trans ((congrArg Hub.freeCount (noFault_causeGone c h)).trans (noFault_freeCount_eq h))
@[simp] theorem causeGone_answer (c : Nat) (h : Hub) : (causeGone c h).answer = h.answer :=
  (noFault_answer_eq _).symm.trans ((congrArg Hub.answer (noFault_causeGone c h)).trans (noFault_answer_eq h))
@[simp] theorem causeGone_env (c : Nat) (h : Hub) : (causeGone c h).env = h.env :=
  (noFault_env_eq _).symm.trans ((congrArg Hub.env (noFault_causeGone c h)).trans (noFault_env_eq h))
@[simp] theorem causeGone_boot (c : Nat) (h : Hub) : (causeGone c h).boot = h.boot :=
  (noFault_boot_eq _).symm.trans ((congrArg Hub.boot (noFault_causeGone c h)).trans (noFault_boot_eq h))
@[simp] theorem causeGone_modes (c : Nat) (h : Hub) : (causeGone c h).modes = h.modes :=
  (noFault_modes_eq _).symm.trans ((congrArg Hub.modes (noFault_causeGone c h)).trans (noFault_modes_eq h))
@[simp] theorem causeGone_stopped (c : Nat) (h : Hub) : (causeGone c h).stopped = h.stopped :=
  (noFault_stopped_eq _).symm.trans ((congrArg Hub.stopped (noFault_causeGone c h)).trans (noFault_stopped_eq h))
@[simp] theorem causeGone_crossings (c : Nat) (h : Hub) : (causeGone c h).crossings = h.crossings :=
  (noFault_crossings_eq _).symm.trans ((congrArg Hub.crossings (noFault_causeGone c h)).trans (noFault_crossings_eq h))
@[simp] theorem causeGone_paths (c : Nat) (h : Hub) : (causeGone c h).paths = h.paths :=
  (noFault_paths_eq _).symm.trans ((congrArg Hub.paths (noFault_causeGone c h)).trans (noFault_paths_eq h))
@[simp] theorem causeGone_hostHalf (c : Nat) (h : Hub) : (causeGone c h).hostHalf = h.hostHalf :=
  (noFault_hostHalf_eq _).symm.trans ((congrArg Hub.hostHalf (noFault_causeGone c h)).trans (noFault_hostHalf_eq h))
@[simp] theorem causeGone_mailbox (c : Nat) (h : Hub) : (causeGone c h).mailbox = h.mailbox :=
  (noFault_mailbox_eq _).symm.trans ((congrArg Hub.mailbox (noFault_causeGone c h)).trans (noFault_mailbox_eq h))
@[simp] theorem causeGone_store (c : Nat) (h : Hub) : (causeGone c h).store = h.store :=
  (noFault_store_eq _).symm.trans ((congrArg Hub.store (noFault_causeGone c h)).trans (noFault_store_eq h))
@[simp] theorem causeGone_copyA (c : Nat) (h : Hub) : (causeGone c h).copyA = h.copyA :=
  (noFault_copyA_eq _).symm.trans ((congrArg Hub.copyA (noFault_causeGone c h)).trans (noFault_copyA_eq h))
@[simp] theorem causeGone_copyB (c : Nat) (h : Hub) : (causeGone c h).copyB = h.copyB :=
  (noFault_copyB_eq _).symm.trans ((congrArg Hub.copyB (noFault_causeGone c h)).trans (noFault_copyB_eq h))
@[simp] theorem causeGone_spire (c : Nat) (h : Hub) : (causeGone c h).spire = h.spire :=
  (noFault_spire_eq _).symm.trans ((congrArg Hub.spire (noFault_causeGone c h)).trans (noFault_spire_eq h))
@[simp] theorem causeGone_engines (c : Nat) (h : Hub) : (causeGone c h).engines = h.engines :=
  (noFault_engines_eq _).symm.trans ((congrArg Hub.engines (noFault_causeGone c h)).trans (noFault_engines_eq h))
@[simp] theorem causeGone_pads (c : Nat) (h : Hub) : (causeGone c h).pads = h.pads :=
  (noFault_pads_eq _).symm.trans ((congrArg Hub.pads (noFault_causeGone c h)).trans (noFault_pads_eq h))
@[simp] theorem causeGone_fifos (c : Nat) (h : Hub) : (causeGone c h).fifos = h.fifos :=
  (noFault_fifos_eq _).symm.trans ((congrArg Hub.fifos (noFault_causeGone c h)).trans (noFault_fifos_eq h))
@[simp] theorem causeGone_sessions (c : Nat) (h : Hub) : (causeGone c h).sessions = h.sessions :=
  (noFault_sessions_eq _).symm.trans ((congrArg Hub.sessions (noFault_causeGone c h)).trans (noFault_sessions_eq h))
@[simp] theorem causeGone_adc (c : Nat) (h : Hub) : (causeGone c h).adc = h.adc :=
  (noFault_adc_eq _).symm.trans ((congrArg Hub.adc (noFault_causeGone c h)).trans (noFault_adc_eq h))
@[simp] theorem causeGone_power (c : Nat) (h : Hub) : (causeGone c h).power = h.power :=
  (noFault_power_eq _).symm.trans ((congrArg Hub.power (noFault_causeGone c h)).trans (noFault_power_eq h))
@[simp] theorem causeGone_sleep (c : Nat) (h : Hub) : (causeGone c h).sleep = h.sleep :=
  (noFault_sleep_eq _).symm.trans ((congrArg Hub.sleep (noFault_causeGone c h)).trans (noFault_sleep_eq h))
@[simp] theorem causeGone_dome (c : Nat) (h : Hub) : (causeGone c h).dome = h.dome :=
  (noFault_dome_eq _).symm.trans ((congrArg Hub.dome (noFault_causeGone c h)).trans (noFault_dome_eq h))
@[simp] theorem causeGone_links (c : Nat) (h : Hub) : (causeGone c h).links = h.links :=
  (noFault_links_eq _).symm.trans ((congrArg Hub.links (noFault_causeGone c h)).trans (noFault_links_eq h))
@[simp] theorem causeGone_tx (c : Nat) (h : Hub) : (causeGone c h).tx = h.tx :=
  (noFault_tx_eq _).symm.trans ((congrArg Hub.tx (noFault_causeGone c h)).trans (noFault_tx_eq h))
@[simp] theorem causeGone_ring (c : Nat) (h : Hub) : (causeGone c h).ring = h.ring :=
  (noFault_ring_eq _).symm.trans ((congrArg Hub.ring (noFault_causeGone c h)).trans (noFault_ring_eq h))
@[simp] theorem causeGone_belfry (c : Nat) (h : Hub) : (causeGone c h).belfry = h.belfry :=
  (noFault_belfry_eq _).symm.trans ((congrArg Hub.belfry (noFault_causeGone c h)).trans (noFault_belfry_eq h))
@[simp] theorem causeGone_channels (c : Nat) (h : Hub) : (causeGone c h).channels = h.channels :=
  (noFault_channels_eq _).symm.trans ((congrArg Hub.channels (noFault_causeGone c h)).trans (noFault_channels_eq h))
@[simp] theorem causeGone_canopy (c : Nat) (h : Hub) : (causeGone c h).canopy = h.canopy :=
  (noFault_canopy_eq _).symm.trans ((congrArg Hub.canopy (noFault_causeGone c h)).trans (noFault_canopy_eq h))
@[simp] theorem causeGone_host (c : Nat) (h : Hub) : (causeGone c h).host = h.host :=
  (noFault_host_eq _).symm.trans ((congrArg Hub.host (noFault_causeGone c h)).trans (noFault_host_eq h))
@[simp] theorem causeGone_forester (c : Nat) (h : Hub) : (causeGone c h).forester = h.forester :=
  (noFault_forester_eq _).symm.trans ((congrArg Hub.forester (noFault_causeGone c h)).trans (noFault_forester_eq h))
@[simp] theorem causeGone_can (c : Nat) (h : Hub) : (causeGone c h).can = h.can :=
  (noFault_can_eq _).symm.trans ((congrArg Hub.can (noFault_causeGone c h)).trans (noFault_can_eq h))
@[simp] theorem causeGone_canopen (c : Nat) (h : Hub) : (causeGone c h).canopen = h.canopen :=
  (noFault_canopen_eq _).symm.trans ((congrArg Hub.canopen (noFault_causeGone c h)).trans (noFault_canopen_eq h))
@[simp] theorem causeGone_t1s (c : Nat) (h : Hub) : (causeGone c h).t1s = h.t1s :=
  (noFault_t1s_eq _).symm.trans ((congrArg Hub.t1s (noFault_causeGone c h)).trans (noFault_t1s_eq h))
@[simp] theorem causeGone_update (c : Nat) (h : Hub) : (causeGone c h).update = h.update :=
  (noFault_update_eq _).symm.trans ((congrArg Hub.update (noFault_causeGone c h)).trans (noFault_update_eq h))

/-! ### The record of a fault is held (R691) -/

theorem tabHas_tabSet {α : Type} (t : Tab α) (k j : Nat) (v : α) : tabHas (tabSet t k v) j = (tabHas t j || k == j) := by
  induction t with
  | nil => simp [tabSet, tabHas]
  | cons e t ih =>
    obtain ⟨k', v'⟩ := e
    unfold tabHas at *
    unfold tabSet
    split
    · simp [Bool.or_comm]
    · split
      · next e => subst e; simp [Bool.or_comm]
      · simp [ih, Bool.or_assoc]

theorem records_fuseEvalAll (h : Hub) : (fuseEvalAll h).watch.records = h.watch.records := by
  have := congrArg (fun x : Hub => x.watch.records) (noFuse_fuseEvalAll h)
  dsimp only [noFuse, noEvent] at this
  exact this

theorem records_releaseCan (h : Hub) : (releaseCan h).watch.records = h.watch.records := by
  unfold releaseCan
  refine forEach_same (fun g => g.watch.records) _ _ _ fun n _ g => ?_
  split
  · rw [wr_watch]
  · rfl

/-- Reactions change no record. -/
theorem records_settle (o s : Bool) (h0 : Hub) : (settle o s h0).watch.records = h0.watch.records := by
  have e0 : (if reaction h0 = 3 then { h0 with watch := { h0.watch with halted := true } } else h0).watch.records = h0.watch.records := by
    split <;> rfl
  unfold settle
  simp only []
  generalize (if reaction h0 = 3 then { h0 with watch := { h0.watch with halted := true } } else h0) = h at e0 ⊢
  have e1 : (whenDo (safeHeldLow h) (fun x => wr x 0x4E00_03 0) h).watch.records = h.watch.records := by
    unfold whenDo; split <;> rfl
  generalize whenDo (safeHeldLow h) (fun x => wr x 0x4E00_03 0) h = a at e1 ⊢
  have e2 : (whenDo (safeHeldLow h && !s) (fun x => raiseEvent x 0xAA 0 0) a).watch.records = a.watch.records := by
    unfold whenDo; split
    · exact raiseEvent_watch_records _ _ _ _
    · rfl
  generalize whenDo (safeHeldLow h && !s) (fun x => raiseEvent x 0xAA 0 0) a = b at e2 ⊢
  rw [← e0, ← e1, ← e2]
  split
  · rw [records_fuseEvalAll]
  · split
    · split
      · rw [records_fuseEvalAll]
        dsimp only
        rw [records_releaseCan]
      · rw [raiseEvent_watch_records, records_fuseEvalAll, records_releaseCan]
    · rfl

theorem recordHeld_escalate (c : Nat) (r : FaultRec) (h : Hub) : recordHeld (escalate c r h) c = true := by
  unfold escalate recordHeld
  split
  · simp [putRecord, tabHas_tabSet]
  · simp [putRecord, tabHas_tabSet]

theorem recordHeld_causeGone (c d : Nat) (h : Hub) (p : recordHeld h d = true) : recordHeld (causeGone c h) d = true := by
  unfold causeGone withReactions recordHeld at *
  rw [records_settle]
  unfold markGone
  split
  · split
    · exact p
    · simp [putRecord, tabHas_tabSet, p]
  · exact p

/-- After a fault is raised its record is held. -/
theorem recordHeld_raiseFault (c i a b : Nat) (h : Hub) : recordHeld (raiseFault c i a b h) c = true := by
  have k : recordHeld (withReactions (fun g =>
      match (countOccurrence c g).watch.records.find? fun e => e.1 == c with
      | some (_, r) => repeatRecord c r (countOccurrence c g)
      | none => newRecord c i a b (countOccurrence c g)) h) c = true := by
    unfold withReactions recordHeld
    rw [records_settle]
    dsimp only
    split
    · exact recordHeld_escalate _ _ _
    · exact recordHeld_escalate _ _ _
  unfold raiseFault
  simp only []
  split
  · exact recordHeld_causeGone _ _ _ k
  · exact k

/-! ### Registers a fault may write -/

/-- The registers of Watchtower's records, of the fuse channels, of the CAN controllers' states and of an event. -/
def faultKey (k : Nat) : Bool :=
  fuseRegister k || decide (0x4E00_03 ≤ k ∧ k ≤ 0x4E02_40) || decide (0x4810_00 ≤ k ∧ k < 0x4820_00)

theorem fuseRegister_of_faultKey {k : Nat} (e : faultKey k = false) : fuseRegister k = false := by
  unfold faultKey at e
  simp only [Bool.or_eq_false_iff] at e
  exact e.1.1

theorem eventKey_of_faultKey {k : Nat} (e : faultKey k = false) : eventKey k = false :=
  eventKey_of_fuseRegister (fuseRegister_of_faultKey e)

theorem watchKey_ne {k j : Nat} (e : faultKey k = false) (lo : 0x4E00_03 ≤ j) (hi : j ≤ 0x4E02_40) : k ≠ j := by
  unfold faultKey at e
  simp only [Bool.or_eq_false_iff, decide_eq_false_iff_not] at e
  omega

theorem rdW_releaseCan_of (h : Hub) (k : Nat) (e : faultKey k = false) : rdW (releaseCan h) k = rdW h k := by
  refine forEach_same (fun g => rdW g k) _ _ _ fun n m g => ?_
  split
  · rw [rdW_wr, if_neg]
    have := List.mem_range.1 m
    unfold faultKey slotKey at *
    simp only [Bool.or_eq_false_iff, decide_eq_false_iff_not] at e
    omega
  · rfl

theorem rdW_settle_of (o s : Bool) (h0 : Hub) (k : Nat) (e : faultKey k = false) : rdW (settle o s h0) k = rdW h0 k := by
  have e0 : rdW (if reaction h0 = 3 then { h0 with watch := { h0.watch with halted := true } } else h0) k = rdW h0 k := by
    split <;> rfl
  unfold settle
  simp only []
  generalize (if reaction h0 = 3 then { h0 with watch := { h0.watch with halted := true } } else h0) = h at e0 ⊢
  have e1 : rdW (whenDo (safeHeldLow h) (fun x => wr x 0x4E00_03 0) h) k = rdW h k := by
    unfold whenDo; split
    · rw [rdW_wr, if_neg (watchKey_ne e (by decide) (by decide))]
    · rfl
  generalize whenDo (safeHeldLow h) (fun x => wr x 0x4E00_03 0) h = a at e1 ⊢
  have e2 : rdW (whenDo (safeHeldLow h && !s) (fun x => raiseEvent x 0xAA 0 0) a) k = rdW a k := by
    unfold whenDo; split
    · exact rdW_raiseEvent_of _ _ _ _ _ (by decide) (eventKey_of_faultKey e)
    · rfl
  generalize whenDo (safeHeldLow h && !s) (fun x => raiseEvent x 0xAA 0 0) a = b at e2 ⊢
  rw [← e0, ← e1, ← e2]
  have f := fuseRegister_of_faultKey e
  split
  · rw [rdW_fuseEvalAll_of _ _ f]; rfl
  · split
    · split
      · rw [rdW_fuseEvalAll_of _ _ f, rdW_update, rdW_releaseCan_of b k e]
      · rw [rdW_raiseEvent_of _ _ _ _ _ (by decide) (eventKey_of_faultKey e), rdW_fuseEvalAll_of _ _ f, rdW_update,
          rdW_releaseCan_of b k e]
    · rfl

theorem rdW_capture_of (c : Nat) (r : FaultRec) (h : Hub) (k : Nat) (e : faultKey k = false) : rdW (capture c r h) k = rdW h k := by
  have w : ∀ v1 v2 v3 v4 v5 : Nat, rdW (wrs h [(0x4E01_01, v1), (0x4E01_02, v2), (0x4E01_03, v3), (0x4E01_04, v4), (0x4E01_05, v5)]) k
      = rdW h k := by
    intro v1 v2 v3 v4 v5
    apply rdW_wrs_of
    intro x m
    simp only [List.mem_cons, List.not_mem_nil, or_false] at m
    rcases m with rfl | rfl | rfl | rfl | rfl <;> exact (watchKey_ne (j := _) e (by simp only; decide) (by simp only; decide)).symm
  unfold capture
  simp only []
  split
  · exact w _ _ _ _ _
  · rw [rdW_wr, if_neg (watchKey_ne e (by decide) (by decide))]
    split
    · exact w _ _ _ _ _
    · rfl

theorem rdW_escalate_of (c : Nat) (r : FaultRec) (h : Hub) (k : Nat) (e : faultKey k = false) : rdW (escalate c r h) k = rdW h k := by
  unfold escalate
  split
  · rfl
  · simp only []
    rw [rdW_raiseEvent_of _ _ _ _ _ (by decide) (eventKey_of_faultKey e)]
    unfold bump bumpBy
    rw [rdW_wr, if_neg (watchKey_ne e (by decide) (by decide))]; rfl

theorem rdW_newRecord_of (c i a b : Nat) (h : Hub) (k : Nat) (e : faultKey k = false) : rdW (newRecord c i a b h) k = rdW h k := by
  unfold newRecord
  simp only []
  rw [rdW_escalate_of _ _ _ _ e, rdW_raiseEvent_of _ _ _ _ _ (by decide) (eventKey_of_faultKey e), rdW_pushLog_of, rdW_capture_of _ _ _ _ e]
  · unfold bump bumpBy
    rw [rdW_wr, if_neg (watchKey_ne e (by decide) (by decide))]; rfl
  · unfold faultKey at e
    simp only [Bool.or_eq_false_iff, decide_eq_false_iff_not] at e
    simp only [List.length_cons, List.length_nil]
    omega

theorem rdW_causeGone_of (c : Nat) (h : Hub) (k : Nat) (e : faultKey k = false) : rdW (causeGone c h) k = rdW h k := by
  unfold causeGone withReactions
  rw [rdW_settle_of _ _ _ _ e]
  unfold markGone
  split
  · split <;> rfl
  · rfl

/-- Raising a fault leaves every other register as it was. -/
theorem rdW_raiseFault_of (c i a b : Nat) (h : Hub) (k : Nat) (e : faultKey k = false) : rdW (raiseFault c i a b h) k = rdW h k := by
  have z : rdW (withReactions (fun g =>
      match (countOccurrence c g).watch.records.find? fun e => e.1 == c with
      | some (_, r) => repeatRecord c r (countOccurrence c g)
      | none => newRecord c i a b (countOccurrence c g)) h) k = rdW h k := by
    unfold withReactions
    rw [rdW_settle_of _ _ _ _ e]
    dsimp only
    split
    · exact rdW_escalate_of _ _ _ _ e
    · exact rdW_newRecord_of _ _ _ _ _ _ e
  unfold raiseFault
  simp only []
  split
  · rw [rdW_causeGone_of _ _ _ e]; exact z
  · exact z

theorem rd_raiseFault_of (c i a b : Nat) (h : Hub) (k : Nat) (e : faultKey k = false) : rd (raiseFault c i a b h) k = rd h k := by
  unfold rd; rw [rdW_raiseFault_of _ _ _ _ _ _ e]

end Sys2Proof.Machine
end

