-- ==== Sys2Proof/Laws/Modes.lean ====
section
/-! SUPPORT. What a change of mode writes and what it leaves as it was. -/

namespace Sys2Proof.Machine

/-! ### Pads -/

/-- A hub without its pads. -/
def noPads (h : Hub) : Hub := { h with pads := [] }

theorem noPads_syncPins (n : Nat) (h : Hub) : noPads (syncPins n h) = noPads h := by
  unfold syncPins
  exact forEach_same noPads _ _ _ fun pk _ g => rfl

theorem noPads_syncPads (h : Hub) : noPads (syncPads h) = noPads h :=
  forEach_same noPads _ _ _ fun e _ g => noPads_syncPins e.1 g

theorem noPads_dict (h : Hub) : (noPads h).dict = h.dict := rfl

@[simp] theorem rdW_syncPads (h : Hub) (k : Nat) : rdW (syncPads h) k = rdW h k := by
  have : (syncPads h).dict = h.dict := (noPads_dict _).symm.trans ((congrArg Hub.dict (noPads_syncPads h)).trans (noPads_dict h))
  unfold rdW; rw [this]

@[simp] theorem rd_syncPads (h : Hub) (k : Nat) : rd (syncPads h) k = rd h k := by unfold rd; rw [rdW_syncPads]

@[simp] theorem rdW_syncPins (n : Nat) (h : Hub) (k : Nat) : rdW (syncPins n h) k = rdW h k := by
  have : (syncPins n h).dict = h.dict := (noPads_dict _).symm.trans ((congrArg Hub.dict (noPads_syncPins n h)).trans (noPads_dict h))
  unfold rdW; rw [this]

@[simp] theorem rd_syncPins (n : Nat) (h : Hub) (k : Nat) : rd (syncPins n h) k = rd h k := by unfold rd; rw [rdW_syncPins]

theorem noPads_freeCount_eq (h : Hub) : (noPads h).freeCount = h.freeCount := rfl
theorem noPads_answer_eq (h : Hub) : (noPads h).answer = h.answer := rfl
theorem noPads_env_eq (h : Hub) : (noPads h).env = h.env := rfl
theorem noPads_boot_eq (h : Hub) : (noPads h).boot = h.boot := rfl
theorem noPads_modes_eq (h : Hub) : (noPads h).modes = h.modes := rfl
theorem noPads_stopped_eq (h : Hub) : (noPads h).stopped = h.stopped := rfl
theorem noPads_crossings_eq (h : Hub) : (noPads h).crossings = h.crossings := rfl
theorem noPads_paths_eq (h : Hub) : (noPads h).paths = h.paths := rfl
theorem noPads_hostHalf_eq (h : Hub) : (noPads h).hostHalf = h.hostHalf := rfl
theorem noPads_mailbox_eq (h : Hub) : (noPads h).mailbox = h.mailbox := rfl
theorem noPads_store_eq (h : Hub) : (noPads h).store = h.store := rfl
theorem noPads_copyA_eq (h : Hub) : (noPads h).copyA = h.copyA := rfl
theorem noPads_copyB_eq (h : Hub) : (noPads h).copyB = h.copyB := rfl
theorem noPads_watch_eq (h : Hub) : (noPads h).watch = h.watch := rfl
theorem noPads_spire_eq (h : Hub) : (noPads h).spire = h.spire := rfl
theorem noPads_portQ_eq (h : Hub) : (noPads h).portQ = h.portQ := rfl
theorem noPads_seqs_eq (h : Hub) : (noPads h).seqs = h.seqs := rfl
theorem noPads_msix_eq (h : Hub) : (noPads h).msix = h.msix := rfl
theorem noPads_cyc_eq (h : Hub) : (noPads h).cyc = h.cyc := rfl
theorem noPads_engines_eq (h : Hub) : (noPads h).engines = h.engines := rfl
theorem noPads_fifos_eq (h : Hub) : (noPads h).fifos = h.fifos := rfl
theorem noPads_sessions_eq (h : Hub) : (noPads h).sessions = h.sessions := rfl
theorem noPads_fuses_eq (h : Hub) : (noPads h).fuses = h.fuses := rfl
theorem noPads_adc_eq (h : Hub) : (noPads h).adc = h.adc := rfl
theorem noPads_power_eq (h : Hub) : (noPads h).power = h.power := rfl
theorem noPads_sleep_eq (h : Hub) : (noPads h).sleep = h.sleep := rfl
theorem noPads_dome_eq (h : Hub) : (noPads h).dome = h.dome := rfl
theorem noPads_links_eq (h : Hub) : (noPads h).links = h.links := rfl
theorem noPads_tx_eq (h : Hub) : (noPads h).tx = h.tx := rfl
theorem noPads_ring_eq (h : Hub) : (noPads h).ring = h.ring := rfl
theorem noPads_belfry_eq (h : Hub) : (noPads h).belfry = h.belfry := rfl
theorem noPads_channels_eq (h : Hub) : (noPads h).channels = h.channels := rfl
theorem noPads_canopy_eq (h : Hub) : (noPads h).canopy = h.canopy := rfl
theorem noPads_host_eq (h : Hub) : (noPads h).host = h.host := rfl
theorem noPads_forester_eq (h : Hub) : (noPads h).forester = h.forester := rfl
theorem noPads_can_eq (h : Hub) : (noPads h).can = h.can := rfl
theorem noPads_canopen_eq (h : Hub) : (noPads h).canopen = h.canopen := rfl
theorem noPads_t1s_eq (h : Hub) : (noPads h).t1s = h.t1s := rfl
theorem noPads_update_eq (h : Hub) : (noPads h).update = h.update := rfl
@[simp] theorem syncPads_freeCount (h : Hub) : (syncPads h).freeCount = h.freeCount :=
  (noPads_freeCount_eq _).symm.trans ((congrArg Hub.freeCount (noPads_syncPads h)).trans (noPads_freeCount_eq h))
@[simp] theorem syncPads_answer (h : Hub) : (syncPads h).answer = h.answer :=
  (noPads_answer_eq _).symm.trans ((congrArg Hub.answer (noPads_syncPads h)).trans (noPads_answer_eq h))
@[simp] theorem syncPads_env (h : Hub) : (syncPads h).env = h.env :=
  (noPads_env_eq _).symm.trans ((congrArg Hub.env (noPads_syncPads h)).trans (noPads_env_eq h))
@[simp] theorem syncPads_boot (h : Hub) : (syncPads h).boot = h.boot :=
  (noPads_boot_eq _).symm.trans ((congrArg Hub.boot (noPads_syncPads h)).trans (noPads_boot_eq h))
@[simp] theorem syncPads_modes (h : Hub) : (syncPads h).modes = h.modes :=
  (noPads_modes_eq _).symm.trans ((congrArg Hub.modes (noPads_syncPads h)).trans (noPads_modes_eq h))
@[simp] theorem syncPads_stopped (h : Hub) : (syncPads h).stopped = h.stopped :=
  (noPads_stopped_eq _).symm.trans ((congrArg Hub.stopped (noPads_syncPads h)).trans (noPads_stopped_eq h))
@[simp] theorem syncPads_crossings (h : Hub) : (syncPads h).crossings = h.crossings :=
  (noPads_crossings_eq _).symm.trans ((congrArg Hub.crossings (noPads_syncPads h)).trans (noPads_crossings_eq h))
@[simp] theorem syncPads_paths (h : Hub) : (syncPads h).paths = h.paths :=
  (noPads_paths_eq _).symm.trans ((congrArg Hub.paths (noPads_syncPads h)).trans (noPads_paths_eq h))
@[simp] theorem syncPads_hostHalf (h : Hub) : (syncPads h).hostHalf = h.hostHalf :=
  (noPads_hostHalf_eq _).symm.trans ((congrArg Hub.hostHalf (noPads_syncPads h)).trans (noPads_hostHalf_eq h))
@[simp] theorem syncPads_mailbox (h : Hub) : (syncPads h).mailbox = h.mailbox :=
  (noPads_mailbox_eq _).symm.trans ((congrArg Hub.mailbox (noPads_syncPads h)).trans (noPads_mailbox_eq h))
@[simp] theorem syncPads_store (h : Hub) : (syncPads h).store = h.store :=
  (noPads_store_eq _).symm.trans ((congrArg Hub.store (noPads_syncPads h)).trans (noPads_store_eq h))
@[simp] theorem syncPads_copyA (h : Hub) : (syncPads h).copyA = h.copyA :=
  (noPads_copyA_eq _).symm.trans ((congrArg Hub.copyA (noPads_syncPads h)).trans (noPads_copyA_eq h))
@[simp] theorem syncPads_copyB (h : Hub) : (syncPads h).copyB = h.copyB :=
  (noPads_copyB_eq _).symm.trans ((congrArg Hub.copyB (noPads_syncPads h)).trans (noPads_copyB_eq h))
@[simp] theorem syncPads_watch (h : Hub) : (syncPads h).watch = h.watch :=
  (noPads_watch_eq _).symm.trans ((congrArg Hub.watch (noPads_syncPads h)).trans (noPads_watch_eq h))
@[simp] theorem syncPads_spire (h : Hub) : (syncPads h).spire = h.spire :=
  (noPads_spire_eq _).symm.trans ((congrArg Hub.spire (noPads_syncPads h)).trans (noPads_spire_eq h))
@[simp] theorem syncPads_portQ (h : Hub) : (syncPads h).portQ = h.portQ :=
  (noPads_portQ_eq _).symm.trans ((congrArg Hub.portQ (noPads_syncPads h)).trans (noPads_portQ_eq h))
@[simp] theorem syncPads_seqs (h : Hub) : (syncPads h).seqs = h.seqs :=
  (noPads_seqs_eq _).symm.trans ((congrArg Hub.seqs (noPads_syncPads h)).trans (noPads_seqs_eq h))
@[simp] theorem syncPads_msix (h : Hub) : (syncPads h).msix = h.msix :=
  (noPads_msix_eq _).symm.trans ((congrArg Hub.msix (noPads_syncPads h)).trans (noPads_msix_eq h))
@[simp] theorem syncPads_cyc (h : Hub) : (syncPads h).cyc = h.cyc :=
  (noPads_cyc_eq _).symm.trans ((congrArg Hub.cyc (noPads_syncPads h)).trans (noPads_cyc_eq h))
@[simp] theorem syncPads_engines (h : Hub) : (syncPads h).engines = h.engines :=
  (noPads_engines_eq _).symm.trans ((congrArg Hub.engines (noPads_syncPads h)).trans (noPads_engines_eq h))
@[simp] theorem syncPads_fifos (h : Hub) : (syncPads h).fifos = h.fifos :=
  (noPads_fifos_eq _).symm.trans ((congrArg Hub.fifos (noPads_syncPads h)).trans (noPads_fifos_eq h))
@[simp] theorem syncPads_sessions (h : Hub) : (syncPads h).sessions = h.sessions :=
  (noPads_sessions_eq _).symm.trans ((congrArg Hub.sessions (noPads_syncPads h)).trans (noPads_sessions_eq h))
@[simp] theorem syncPads_fuses (h : Hub) : (syncPads h).fuses = h.fuses :=
  (noPads_fuses_eq _).symm.trans ((congrArg Hub.fuses (noPads_syncPads h)).trans (noPads_fuses_eq h))
@[simp] theorem syncPads_adc (h : Hub) : (syncPads h).adc = h.adc :=
  (noPads_adc_eq _).symm.trans ((congrArg Hub.adc (noPads_syncPads h)).trans (noPads_adc_eq h))
@[simp] theorem syncPads_power (h : Hub) : (syncPads h).power = h.power :=
  (noPads_power_eq _).symm.trans ((congrArg Hub.power (noPads_syncPads h)).trans (noPads_power_eq h))
@[simp] theorem syncPads_sleep (h : Hub) : (syncPads h).sleep = h.sleep :=
  (noPads_sleep_eq _).symm.trans ((congrArg Hub.sleep (noPads_syncPads h)).trans (noPads_sleep_eq h))
@[simp] theorem syncPads_dome (h : Hub) : (syncPads h).dome = h.dome :=
  (noPads_dome_eq _).symm.trans ((congrArg Hub.dome (noPads_syncPads h)).trans (noPads_dome_eq h))
@[simp] theorem syncPads_links (h : Hub) : (syncPads h).links = h.links :=
  (noPads_links_eq _).symm.trans ((congrArg Hub.links (noPads_syncPads h)).trans (noPads_links_eq h))
@[simp] theorem syncPads_tx (h : Hub) : (syncPads h).tx = h.tx :=
  (noPads_tx_eq _).symm.trans ((congrArg Hub.tx (noPads_syncPads h)).trans (noPads_tx_eq h))
@[simp] theorem syncPads_ring (h : Hub) : (syncPads h).ring = h.ring :=
  (noPads_ring_eq _).symm.trans ((congrArg Hub.ring (noPads_syncPads h)).trans (noPads_ring_eq h))
@[simp] theorem syncPads_belfry (h : Hub) : (syncPads h).belfry = h.belfry :=
  (noPads_belfry_eq _).symm.trans ((congrArg Hub.belfry (noPads_syncPads h)).trans (noPads_belfry_eq h))
@[simp] theorem syncPads_channels (h : Hub) : (syncPads h).channels = h.channels :=
  (noPads_channels_eq _).symm.trans ((congrArg Hub.channels (noPads_syncPads h)).trans (noPads_channels_eq h))
@[simp] theorem syncPads_canopy (h : Hub) : (syncPads h).canopy = h.canopy :=
  (noPads_canopy_eq _).symm.trans ((congrArg Hub.canopy (noPads_syncPads h)).trans (noPads_canopy_eq h))
@[simp] theorem syncPads_host (h : Hub) : (syncPads h).host = h.host :=
  (noPads_host_eq _).symm.trans ((congrArg Hub.host (noPads_syncPads h)).trans (noPads_host_eq h))
@[simp] theorem syncPads_forester (h : Hub) : (syncPads h).forester = h.forester :=
  (noPads_forester_eq _).symm.trans ((congrArg Hub.forester (noPads_syncPads h)).trans (noPads_forester_eq h))
@[simp] theorem syncPads_can (h : Hub) : (syncPads h).can = h.can :=
  (noPads_can_eq _).symm.trans ((congrArg Hub.can (noPads_syncPads h)).trans (noPads_can_eq h))
@[simp] theorem syncPads_canopen (h : Hub) : (syncPads h).canopen = h.canopen :=
  (noPads_canopen_eq _).symm.trans ((congrArg Hub.canopen (noPads_syncPads h)).trans (noPads_canopen_eq h))
@[simp] theorem syncPads_t1s (h : Hub) : (syncPads h).t1s = h.t1s :=
  (noPads_t1s_eq _).symm.trans ((congrArg Hub.t1s (noPads_syncPads h)).trans (noPads_t1s_eq h))
@[simp] theorem syncPads_update (h : Hub) : (syncPads h).update = h.update :=
  (noPads_update_eq _).symm.trans ((congrArg Hub.update (noPads_syncPads h)).trans (noPads_update_eq h))
@[simp] theorem syncPins_freeCount (n : Nat) (h : Hub) : (syncPins n h).freeCount = h.freeCount :=
  (noPads_freeCount_eq _).symm.trans ((congrArg Hub.freeCount (noPads_syncPins n h)).trans (noPads_freeCount_eq h))
@[simp] theorem syncPins_answer (n : Nat) (h : Hub) : (syncPins n h).answer = h.answer :=
  (noPads_answer_eq _).symm.trans ((congrArg Hub.answer (noPads_syncPins n h)).trans (noPads_answer_eq h))
@[simp] theorem syncPins_env (n : Nat) (h : Hub) : (syncPins n h).env = h.env :=
  (noPads_env_eq _).symm.trans ((congrArg Hub.env (noPads_syncPins n h)).trans (noPads_env_eq h))
@[simp] theorem syncPins_boot (n : Nat) (h : Hub) : (syncPins n h).boot = h.boot :=
  (noPads_boot_eq _).symm.trans ((congrArg Hub.boot (noPads_syncPins n h)).trans (noPads_boot_eq h))
@[simp] theorem syncPins_modes (n : Nat) (h : Hub) : (syncPins n h).modes = h.modes :=
  (noPads_modes_eq _).symm.trans ((congrArg Hub.modes (noPads_syncPins n h)).trans (noPads_modes_eq h))
@[simp] theorem syncPins_stopped (n : Nat) (h : Hub) : (syncPins n h).stopped = h.stopped :=
  (noPads_stopped_eq _).symm.trans ((congrArg Hub.stopped (noPads_syncPins n h)).trans (noPads_stopped_eq h))
@[simp] theorem syncPins_crossings (n : Nat) (h : Hub) : (syncPins n h).crossings = h.crossings :=
  (noPads_crossings_eq _).symm.trans ((congrArg Hub.crossings (noPads_syncPins n h)).trans (noPads_crossings_eq h))
@[simp] theorem syncPins_paths (n : Nat) (h : Hub) : (syncPins n h).paths = h.paths :=
  (noPads_paths_eq _).symm.trans ((congrArg Hub.paths (noPads_syncPins n h)).trans (noPads_paths_eq h))
@[simp] theorem syncPins_hostHalf (n : Nat) (h : Hub) : (syncPins n h).hostHalf = h.hostHalf :=
  (noPads_hostHalf_eq _).symm.trans ((congrArg Hub.hostHalf (noPads_syncPins n h)).trans (noPads_hostHalf_eq h))
@[simp] theorem syncPins_mailbox (n : Nat) (h : Hub) : (syncPins n h).mailbox = h.mailbox :=
  (noPads_mailbox_eq _).symm.trans ((congrArg Hub.mailbox (noPads_syncPins n h)).trans (noPads_mailbox_eq h))
@[simp] theorem syncPins_store (n : Nat) (h : Hub) : (syncPins n h).store = h.store :=
  (noPads_store_eq _).symm.trans ((congrArg Hub.store (noPads_syncPins n h)).trans (noPads_store_eq h))
@[simp] theorem syncPins_copyA (n : Nat) (h : Hub) : (syncPins n h).copyA = h.copyA :=
  (noPads_copyA_eq _).symm.trans ((congrArg Hub.copyA (noPads_syncPins n h)).trans (noPads_copyA_eq h))
@[simp] theorem syncPins_copyB (n : Nat) (h : Hub) : (syncPins n h).copyB = h.copyB :=
  (noPads_copyB_eq _).symm.trans ((congrArg Hub.copyB (noPads_syncPins n h)).trans (noPads_copyB_eq h))
@[simp] theorem syncPins_watch (n : Nat) (h : Hub) : (syncPins n h).watch = h.watch :=
  (noPads_watch_eq _).symm.trans ((congrArg Hub.watch (noPads_syncPins n h)).trans (noPads_watch_eq h))
@[simp] theorem syncPins_spire (n : Nat) (h : Hub) : (syncPins n h).spire = h.spire :=
  (noPads_spire_eq _).symm.trans ((congrArg Hub.spire (noPads_syncPins n h)).trans (noPads_spire_eq h))
@[simp] theorem syncPins_portQ (n : Nat) (h : Hub) : (syncPins n h).portQ = h.portQ :=
  (noPads_portQ_eq _).symm.trans ((congrArg Hub.portQ (noPads_syncPins n h)).trans (noPads_portQ_eq h))
@[simp] theorem syncPins_seqs (n : Nat) (h : Hub) : (syncPins n h).seqs = h.seqs :=
  (noPads_seqs_eq _).symm.trans ((congrArg Hub.seqs (noPads_syncPins n h)).trans (noPads_seqs_eq h))
@[simp] theorem syncPins_msix (n : Nat) (h : Hub) : (syncPins n h).msix = h.msix :=
  (noPads_msix_eq _).symm.trans ((congrArg Hub.msix (noPads_syncPins n h)).trans (noPads_msix_eq h))
@[simp] theorem syncPins_cyc (n : Nat) (h : Hub) : (syncPins n h).cyc = h.cyc :=
  (noPads_cyc_eq _).symm.trans ((congrArg Hub.cyc (noPads_syncPins n h)).trans (noPads_cyc_eq h))
@[simp] theorem syncPins_engines (n : Nat) (h : Hub) : (syncPins n h).engines = h.engines :=
  (noPads_engines_eq _).symm.trans ((congrArg Hub.engines (noPads_syncPins n h)).trans (noPads_engines_eq h))
@[simp] theorem syncPins_fifos (n : Nat) (h : Hub) : (syncPins n h).fifos = h.fifos :=
  (noPads_fifos_eq _).symm.trans ((congrArg Hub.fifos (noPads_syncPins n h)).trans (noPads_fifos_eq h))
@[simp] theorem syncPins_sessions (n : Nat) (h : Hub) : (syncPins n h).sessions = h.sessions :=
  (noPads_sessions_eq _).symm.trans ((congrArg Hub.sessions (noPads_syncPins n h)).trans (noPads_sessions_eq h))
@[simp] theorem syncPins_fuses (n : Nat) (h : Hub) : (syncPins n h).fuses = h.fuses :=
  (noPads_fuses_eq _).symm.trans ((congrArg Hub.fuses (noPads_syncPins n h)).trans (noPads_fuses_eq h))
@[simp] theorem syncPins_adc (n : Nat) (h : Hub) : (syncPins n h).adc = h.adc :=
  (noPads_adc_eq _).symm.trans ((congrArg Hub.adc (noPads_syncPins n h)).trans (noPads_adc_eq h))
@[simp] theorem syncPins_power (n : Nat) (h : Hub) : (syncPins n h).power = h.power :=
  (noPads_power_eq _).symm.trans ((congrArg Hub.power (noPads_syncPins n h)).trans (noPads_power_eq h))
@[simp] theorem syncPins_sleep (n : Nat) (h : Hub) : (syncPins n h).sleep = h.sleep :=
  (noPads_sleep_eq _).symm.trans ((congrArg Hub.sleep (noPads_syncPins n h)).trans (noPads_sleep_eq h))
@[simp] theorem syncPins_dome (n : Nat) (h : Hub) : (syncPins n h).dome = h.dome :=
  (noPads_dome_eq _).symm.trans ((congrArg Hub.dome (noPads_syncPins n h)).trans (noPads_dome_eq h))
@[simp] theorem syncPins_links (n : Nat) (h : Hub) : (syncPins n h).links = h.links :=
  (noPads_links_eq _).symm.trans ((congrArg Hub.links (noPads_syncPins n h)).trans (noPads_links_eq h))
@[simp] theorem syncPins_tx (n : Nat) (h : Hub) : (syncPins n h).tx = h.tx :=
  (noPads_tx_eq _).symm.trans ((congrArg Hub.tx (noPads_syncPins n h)).trans (noPads_tx_eq h))
@[simp] theorem syncPins_ring (n : Nat) (h : Hub) : (syncPins n h).ring = h.ring :=
  (noPads_ring_eq _).symm.trans ((congrArg Hub.ring (noPads_syncPins n h)).trans (noPads_ring_eq h))
@[simp] theorem syncPins_belfry (n : Nat) (h : Hub) : (syncPins n h).belfry = h.belfry :=
  (noPads_belfry_eq _).symm.trans ((congrArg Hub.belfry (noPads_syncPins n h)).trans (noPads_belfry_eq h))
@[simp] theorem syncPins_channels (n : Nat) (h : Hub) : (syncPins n h).channels = h.channels :=
  (noPads_channels_eq _).symm.trans ((congrArg Hub.channels (noPads_syncPins n h)).trans (noPads_channels_eq h))
@[simp] theorem syncPins_canopy (n : Nat) (h : Hub) : (syncPins n h).canopy = h.canopy :=
  (noPads_canopy_eq _).symm.trans ((congrArg Hub.canopy (noPads_syncPins n h)).trans (noPads_canopy_eq h))
@[simp] theorem syncPins_host (n : Nat) (h : Hub) : (syncPins n h).host = h.host :=
  (noPads_host_eq _).symm.trans ((congrArg Hub.host (noPads_syncPins n h)).trans (noPads_host_eq h))
@[simp] theorem syncPins_forester (n : Nat) (h : Hub) : (syncPins n h).forester = h.forester :=
  (noPads_forester_eq _).symm.trans ((congrArg Hub.forester (noPads_syncPins n h)).trans (noPads_forester_eq h))
@[simp] theorem syncPins_can (n : Nat) (h : Hub) : (syncPins n h).can = h.can :=
  (noPads_can_eq _).symm.trans ((congrArg Hub.can (noPads_syncPins n h)).trans (noPads_can_eq h))
@[simp] theorem syncPins_canopen (n : Nat) (h : Hub) : (syncPins n h).canopen = h.canopen :=
  (noPads_canopen_eq _).symm.trans ((congrArg Hub.canopen (noPads_syncPins n h)).trans (noPads_canopen_eq h))
@[simp] theorem syncPins_t1s (n : Nat) (h : Hub) : (syncPins n h).t1s = h.t1s :=
  (noPads_t1s_eq _).symm.trans ((congrArg Hub.t1s (noPads_syncPins n h)).trans (noPads_t1s_eq h))
@[simp] theorem syncPins_update (n : Nat) (h : Hub) : (syncPins n h).update = h.update :=
  (noPads_update_eq _).symm.trans ((congrArg Hub.update (noPads_syncPins n h)).trans (noPads_update_eq h))

/-! ### A change of mode (R48) -/

@[simp] theorem whenDo_false (f : Hub → Hub) (h : Hub) : whenDo false f h = h := rfl

theorem whenDo_same {β : Type} (q : Hub → β) (c : Bool) (f : Hub → Hub) (h : Hub) (s : q (f h) = q h) : q (whenDo c f h) = q h := by
  unfold whenDo; split
  · exact s
  · rfl

/-- The hub a change of mode has when the mode and the entry time have been written. -/
def modeWritten (new : Nat) (h0 : Hub) : Hub :=
  wrTime (wrs (modeMemory (mode h0) new (fuseModeEntry (mode h0) new (fuseRequest h0) (whenDo (mode h0 == 5) wakeAll h0)))
    [(0x2000_03, mode h0), (0x2000_01, new)]) 0x2000_04

/-- Registers that what follows in a change of mode may write: those of a fault whose cause is gone, Spire's state, φ, ρ and time in
HOLDOVER, the node ID, the status of an abandoned access and the LIMP causes. -/
def modeKey (k : Nat) : Bool :=
  faultKey k || k == 0x4800_01 || k == 0x4500_01 || k == 0x4500_07 || k == 0x4500_0F || k == 0x2002_06 || k == 0x2000_06 || k == 0x4500_06

theorem modeKey_false {k : Nat} (e : modeKey k = false) : faultKey k = false ∧ k ≠ 0x4800_01 ∧ k ≠ 0x4500_01 ∧ k ≠ 0x4500_07 ∧
    k ≠ 0x4500_0F ∧ k ≠ 0x2002_06 ∧ k ≠ 0x2000_06 ∧ k ≠ 0x4500_06 := by
  unfold modeKey at e
  simpa only [Bool.or_eq_false_iff, beq_eq_false_iff_ne, ne_eq, and_assoc] using e

theorem rdW_holdoverEnds_of (h : Hub) (k : Nat) (e : modeKey k = false) : rdW (holdoverEnds h) k = rdW h k := by
  obtain ⟨f, -, -, -, n, -⟩ := modeKey_false e
  unfold holdoverEnds
  simp only []
  rw [rdW_causeGone_of _ _ _ f, rdW_wr, if_neg n]; rfl

theorem rdW_spireCommission_of (h : Hub) (k : Nat) (e : modeKey k = false) : rdW (spireCommission h) k = rdW h k := by
  have z := rdW_holdoverEnds_of h k e
  obtain ⟨-, -, n1, n7, -, -, -, n6⟩ := modeKey_false e
  have y : rdW (if rd h 0x4500_01 = 6 then holdoverEnds h else h) k = rdW h k := by
    split
    · exact z
    · rfl
  unfold spireCommission
  split
  · rfl
  · dsimp only
    generalize (if rd h 0x4500_01 = 6 then holdoverEnds h else h) = a at y ⊢
    split
    · exact y
    · simp only [wrs]
      rw [rdW_wr, if_neg n7, rdW_wr, if_neg n6, rdW_wr, if_neg n1]; exact y

theorem claimAfresh_rdW (o : Nat) (h : Hub) (k : Nat) : rdW (claimAfresh o h) k = rdW h k := by
  unfold claimAfresh; split <;> rfl

theorem rdW_unboundCause_of (o n : Nat) (h : Hub) (k : Nat) (c : k ≠ 0x2000_06) (e : eventKey k = false) :
    rdW (unboundCause o n h) k = rdW h k := by
  unfold unboundCause
  split
  · rfl
  · dsimp only
    split
    · rw [rdW_wr, if_neg c]
    · refine (forEach_same (fun g => rdW g k) _ _ _ fun s _ g => rdW_raiseEvent_of _ _ _ _ _ (by decide) e).trans ?_
      rw [rdW_wr, if_neg c]

theorem noEvent_unboundCause (o n : Nat) (h : Hub) : noEvent (unboundCause o n h) = noEvent h := by
  unfold unboundCause
  split
  · rfl
  · dsimp only
    split
    · rfl
    · exact (forEach_same noEvent _ _ _ fun s _ g => noEvent_raiseEvent _ _ _ _).trans rfl

theorem unboundCause_ring (o n : Nat) (h : Hub) : (unboundCause o n h).ring = h.ring :=
  (congrArg Hub.ring (noEvent_unboundCause o n h) :)

theorem unboundCause_spire (o n : Nat) (h : Hub) : (unboundCause o n h).spire = h.spire :=
  (congrArg Hub.spire (noEvent_unboundCause o n h) :)

theorem rdW_changeMode_of (new : Nat) (h0 : Hub) (k : Nat) (e : modeKey k = false) :
    rdW (changeMode new h0) k = rdW (modeWritten new h0) k := by
  have sc : ∀ g, rdW (spireCommission g) k = rdW g k := fun g => rdW_spireCommission_of g k e
  obtain ⟨f, n2, -, -, -, n4, n5, -⟩ := modeKey_false e
  have f' := fuseRegister_of_faultKey f
  unfold changeMode
  simp only []
  rw [rdW_raiseEvent_of _ _ _ _ _ (by decide) (eventKey_of_faultKey f), rdW_syncPads, rdW_fuseEvalAll_of _ _ f',
    rdW_unboundCause_of _ _ _ _ n5 (eventKey_of_faultKey f)]
  have am : ∀ g, rdW (abandonMailbox g) k = rdW g k := by
    intro g; unfold abandonMailbox; split
    · rfl
    · rw [rdW_wr, if_neg n4]; rfl
  have cc : ∀ g, rdW (canopenCommission g) k = rdW g k := by
    intro g; unfold canopenCommission bootUp
    split
    · rw [rdW_wr, if_neg n2]
    · show rdW (wr g 0x4800_01 _) k = _
      rw [rdW_wr, if_neg n2]
  refine (whenDo_same (fun g => rdW g k) _ _ _ ?_).trans ?_
  · exact (cc _).trans ((sc _).trans (claimAfresh_rdW _ _ _))
  refine (whenDo_same (fun g => rdW g k) _ _ _ (am _)).trans ?_
  refine whenDo_same (fun g => rdW g k) _ _ _ ?_
  show rdW (wr _ 0x4E00_03 0) k = _
  rw [rdW_wr, if_neg (watchKey_ne f (by decide) (by decide))]

theorem rd_changeMode_of (new : Nat) (h0 : Hub) (k : Nat) (e : modeKey k = false) :
    rd (changeMode new h0) k = rd (modeWritten new h0) k := by unfold rd; rw [rdW_changeMode_of _ _ _ e]

/-- The new mode. -/
theorem mode_changeMode (new : Nat) (h : Hub) (n : new < 256) : mode (changeMode new h) = new := by
  unfold mode
  rw [rd_changeMode_of _ _ _ (by decide)]
  unfold modeWritten wrTime
  simp [wrs]
  omega

/-- The previous mode. -/
theorem previous_changeMode (new : Nat) (h : Hub) : rd (changeMode new h) 0x2000_03 = mode h := by
  rw [rd_changeMode_of _ _ _ (by decide)]
  unfold modeWritten wrTime
  simp [wrs]
  exact rd_lt h _

/-- EV_GEN_MODE_CHANGE is raised. -/
theorem event_changeMode (new : Nat) (h : Hub) : eventPending (changeMode new h) 0x00 = true := by
  unfold changeMode
  exact eventPending_raiseEvent _ _ _ _ _ (by decide) (.inl rfl)

theorem rdW_fuseModeEntry_of (old new : Nat) (req : Nat → Bool) (h : Hub) (k : Nat) (e : fuseRegister k = false) :
    rdW (fuseModeEntry old new req h) k = rdW h k := by
  unfold fuseModeEntry
  split
  · refine forEach_same (fun g => rdW g k) _ _ _ fun n m g => ?_
    rw [rdW_wr, if_neg (fuseKey_ne e (List.mem_range.1 m) (by decide))]; rfl
  · split
    · exact forEach_same (fun g => rdW g k) _ _ _ fun n m g => rfl
    · rfl

/-- Any other register, unless the hub leaves CLEARING. -/
theorem rdW_changeMode_other (new : Nat) (h : Hub) (k : Nat) (c : mode h ≠ 5) (e : modeKey k = false) (lo : k < 0x2000_01 ∨ 0x2000_05 < k ∨ k = 0x2000_02) :
    rdW (changeMode new h) k = rdW h k := by
  rw [rdW_changeMode_of _ _ _ e]
  have f : fuseRegister k = false := fuseRegister_of_faultKey (modeKey_false e).1
  have m : (mode h == 5) = false := by simpa using c
  unfold modeWritten wrTime
  rw [rdW_wr, if_neg (by omega), rdW_wr, if_neg (by omega), m]
  simp only [wrs]
  rw [rdW_wr, if_neg (by omega), rdW_wr, if_neg (by omega)]
  exact rdW_fuseModeEntry_of _ _ _ _ _ f

theorem rd_changeMode_other (new : Nat) (h : Hub) (k : Nat) (c : mode h ≠ 5) (e : modeKey k = false) (lo : k < 0x2000_01 ∨ 0x2000_05 < k ∨ k = 0x2000_02) :
    rd (changeMode new h) k = rd h k := by unfold rd; rw [rdW_changeMode_other _ _ _ c e lo]

/-- A hub without what a change of mode may change outside CLEARING: events, faults, fuse channels, mode memory, whether cycles run,
Spire's step and HOLDOVER sum, the mailbox, the number claim, CANopen's messages, pads. -/
def noMode (h : Hub) : Hub :=
  { noFault h with
    modes := Hub.reset.modes, cyc := { h.cyc with running := false, since := 0 },
    spire := { h.spire with stepped := false, toStep := none, good := 0, todWaits := false, holdSum := 0 },
    ring := { h.ring with claim := none, conflict := false, before := 0 },
    mailbox := Hub.reset.mailbox, canopen := { h.canopen with heartbeat := [] }, pads := [] }

theorem noMode_fault {g h : Hub} (e : noFault g = noFault h) : noMode g = noMode h :=
  congrArg (fun x : Hub => { x with
    modes := Hub.reset.modes, cyc := { x.cyc with running := false, since := 0 },
    spire := { x.spire with stepped := false, toStep := none, good := 0, todWaits := false, holdSum := 0 },
    ring := { x.ring with claim := none, conflict := false, before := 0 },
    mailbox := Hub.reset.mailbox, canopen := { x.canopen with heartbeat := [] }, pads := [] }) e

theorem noMode_of {g h : Hub} (e : noFuse g = noFuse h) : noMode g = noMode h := noMode_fault (noFault_of e)

theorem noMode_holdoverEnds (h : Hub) : noMode (holdoverEnds h) = noMode h :=
  (noMode_fault (noFault_causeGone _ _)).trans rfl

theorem noMode_spireCommission (h : Hub) : noMode (spireCommission h) = noMode h := by
  have y : noMode (if rd h 0x4500_01 = 6 then holdoverEnds h else h) = noMode h := by
    split
    · exact noMode_holdoverEnds h
    · rfl
  unfold spireCommission
  split
  · rfl
  · dsimp only
    generalize (if rd h 0x4500_01 = 6 then holdoverEnds h else h) = a at y ⊢
    split
    · exact y
    · exact y

theorem noMode_claimAfresh (o : Nat) (h : Hub) : noMode (claimAfresh o h) = noMode h := by
  unfold claimAfresh; split <;> rfl

theorem noMode_fuseModeEntry (old new : Nat) (req : Nat → Bool) (h : Hub) : noMode (fuseModeEntry old new req h) = noMode h := by
  unfold fuseModeEntry
  split
  · exact forEach_same noMode _ _ _ fun n m g => rfl
  · split
    · exact forEach_same noMode _ _ _ fun n m g => rfl
    · rfl

theorem noMode_pads {g h : Hub} (e : noPads g = noPads h) : noMode g = noMode h :=
  (rfl : noMode g = noMode (noPads g)).trans ((congrArg noMode e).trans rfl)

/-- Outside CLEARING, a change of mode changes nothing else. -/
theorem noMode_changeMode (new : Nat) (h : Hub) (c : mode h ≠ 5) : noMode (changeMode new h) = noMode h := by
  unfold changeMode
  simp only []
  refine (noMode_of (noFuse_of (noEvent_raiseEvent _ _ _ _))).trans ((noMode_pads (noPads_syncPads _)).trans ?_)
  refine (noMode_of (noFuse_fuseEvalAll _)).trans ((noMode_of (noFuse_of (noEvent_unboundCause _ _ _))).trans ?_)
  have cc : ∀ g, noMode (canopenCommission g) = noMode g := by
    intro g; unfold canopenCommission bootUp; split <;> rfl
  have am : ∀ g, noMode (abandonMailbox g) = noMode g := by
    intro g; unfold abandonMailbox; split <;> rfl
  refine Eq.trans (whenDo_same noMode _ _ _ ?_) ?_
  · exact (cc _).trans ((noMode_spireCommission _).trans (noMode_claimAfresh _ _))
  refine (whenDo_same noMode _ _ _ (am _)).trans ?_
  refine (whenDo_same noMode _ _ _ rfl).trans ?_
  have m : (mode h == 5) = false := by simpa using c
  have w : ∀ g k, noMode (wrTime g k) = noMode g := fun _ _ => rfl
  have v : ∀ g l, noMode (wrs g l) = noMode g := fun g l => noMode_of (noFuse_of (noEvent_of _ _ (noDict_wrs g l)))
  have z : ∀ a b g, noMode (modeMemory a b g) = noMode g := fun _ _ _ => rfl
  rw [w, v, z, noMode_fuseModeEntry]
  unfold whenDo
  rw [m]
  rfl

theorem noMode_freeCount_eq (h : Hub) : (noMode h).freeCount = h.freeCount := rfl
theorem noMode_answer_eq (h : Hub) : (noMode h).answer = h.answer := rfl
theorem noMode_env_eq (h : Hub) : (noMode h).env = h.env := rfl
theorem noMode_boot_eq (h : Hub) : (noMode h).boot = h.boot := rfl
theorem noMode_stopped_eq (h : Hub) : (noMode h).stopped = h.stopped := rfl
theorem noMode_crossings_eq (h : Hub) : (noMode h).crossings = h.crossings := rfl
theorem noMode_paths_eq (h : Hub) : (noMode h).paths = h.paths := rfl
theorem noMode_hostHalf_eq (h : Hub) : (noMode h).hostHalf = h.hostHalf := rfl
theorem noMode_store_eq (h : Hub) : (noMode h).store = h.store := rfl
theorem noMode_copyA_eq (h : Hub) : (noMode h).copyA = h.copyA := rfl
theorem noMode_copyB_eq (h : Hub) : (noMode h).copyB = h.copyB := rfl
theorem noMode_engines_eq (h : Hub) : (noMode h).engines = h.engines := rfl
theorem noMode_fifos_eq (h : Hub) : (noMode h).fifos = h.fifos := rfl
theorem noMode_sessions_eq (h : Hub) : (noMode h).sessions = h.sessions := rfl
theorem noMode_adc_eq (h : Hub) : (noMode h).adc = h.adc := rfl
theorem noMode_power_eq (h : Hub) : (noMode h).power = h.power := rfl
theorem noMode_sleep_eq (h : Hub) : (noMode h).sleep = h.sleep := rfl
theorem noMode_dome_eq (h : Hub) : (noMode h).dome = h.dome := rfl
theorem noMode_links_eq (h : Hub) : (noMode h).links = h.links := rfl
theorem noMode_tx_eq (h : Hub) : (noMode h).tx = h.tx := rfl
theorem noMode_belfry_eq (h : Hub) : (noMode h).belfry = h.belfry := rfl
theorem noMode_channels_eq (h : Hub) : (noMode h).channels = h.channels := rfl
theorem noMode_canopy_eq (h : Hub) : (noMode h).canopy = h.canopy := rfl
theorem noMode_host_eq (h : Hub) : (noMode h).host = h.host := rfl
theorem noMode_forester_eq (h : Hub) : (noMode h).forester = h.forester := rfl
theorem noMode_can_eq (h : Hub) : (noMode h).can = h.can := rfl
theorem noMode_t1s_eq (h : Hub) : (noMode h).t1s = h.t1s := rfl
theorem noMode_update_eq (h : Hub) : (noMode h).update = h.update := rfl
theorem changeMode_freeCount (new : Nat) (h : Hub) (c : mode h ≠ 5) : (changeMode new h).freeCount = h.freeCount :=
  (noMode_freeCount_eq _).symm.trans ((congrArg Hub.freeCount (noMode_changeMode new h c)).trans (noMode_freeCount_eq h))
theorem changeMode_answer (new : Nat) (h : Hub) (c : mode h ≠ 5) : (changeMode new h).answer = h.answer :=
  (noMode_answer_eq _).symm.trans ((congrArg Hub.answer (noMode_changeMode new h c)).trans (noMode_answer_eq h))
theorem changeMode_env (new : Nat) (h : Hub) (c : mode h ≠ 5) : (changeMode new h).env = h.env :=
  (noMode_env_eq _).symm.trans ((congrArg Hub.env (noMode_changeMode new h c)).trans (noMode_env_eq h))
theorem changeMode_boot (new : Nat) (h : Hub) (c : mode h ≠ 5) : (changeMode new h).boot = h.boot :=
  (noMode_boot_eq _).symm.trans ((congrArg Hub.boot (noMode_changeMode new h c)).trans (noMode_boot_eq h))
theorem changeMode_stopped (new : Nat) (h : Hub) (c : mode h ≠ 5) : (changeMode new h).stopped = h.stopped :=
  (noMode_stopped_eq _).symm.trans ((congrArg Hub.stopped (noMode_changeMode new h c)).trans (noMode_stopped_eq h))
theorem changeMode_crossings (new : Nat) (h : Hub) (c : mode h ≠ 5) : (changeMode new h).crossings = h.crossings :=
  (noMode_crossings_eq _).symm.trans ((congrArg Hub.crossings (noMode_changeMode new h c)).trans (noMode_crossings_eq h))
theorem changeMode_paths (new : Nat) (h : Hub) (c : mode h ≠ 5) : (changeMode new h).paths = h.paths :=
  (noMode_paths_eq _).symm.trans ((congrArg Hub.paths (noMode_changeMode new h c)).trans (noMode_paths_eq h))
theorem changeMode_hostHalf (new : Nat) (h : Hub) (c : mode h ≠ 5) : (changeMode new h).hostHalf = h.hostHalf :=
  (noMode_hostHalf_eq _).symm.trans ((congrArg Hub.hostHalf (noMode_changeMode new h c)).trans (noMode_hostHalf_eq h))
theorem changeMode_store (new : Nat) (h : Hub) (c : mode h ≠ 5) : (changeMode new h).store = h.store :=
  (noMode_store_eq _).symm.trans ((congrArg Hub.store (noMode_changeMode new h c)).trans (noMode_store_eq h))
theorem changeMode_copyA (new : Nat) (h : Hub) (c : mode h ≠ 5) : (changeMode new h).copyA = h.copyA :=
  (noMode_copyA_eq _).symm.trans ((congrArg Hub.copyA (noMode_changeMode new h c)).trans (noMode_copyA_eq h))
theorem changeMode_copyB (new : Nat) (h : Hub) (c : mode h ≠ 5) : (changeMode new h).copyB = h.copyB :=
  (noMode_copyB_eq _).symm.trans ((congrArg Hub.copyB (noMode_changeMode new h c)).trans (noMode_copyB_eq h))
theorem changeMode_engines (new : Nat) (h : Hub) (c : mode h ≠ 5) : (changeMode new h).engines = h.engines :=
  (noMode_engines_eq _).symm.trans ((congrArg Hub.engines (noMode_changeMode new h c)).trans (noMode_engines_eq h))
theorem changeMode_fifos (new : Nat) (h : Hub) (c : mode h ≠ 5) : (changeMode new h).fifos = h.fifos :=
  (noMode_fifos_eq _).symm.trans ((congrArg Hub.fifos (noMode_changeMode new h c)).trans (noMode_fifos_eq h))
theorem changeMode_sessions (new : Nat) (h : Hub) (c : mode h ≠ 5) : (changeMode new h).sessions = h.sessions :=
  (noMode_sessions_eq _).symm.trans ((congrArg Hub.sessions (noMode_changeMode new h c)).trans (noMode_sessions_eq h))
theorem changeMode_adc (new : Nat) (h : Hub) (c : mode h ≠ 5) : (changeMode new h).adc = h.adc :=
  (noMode_adc_eq _).symm.trans ((congrArg Hub.adc (noMode_changeMode new h c)).trans (noMode_adc_eq h))
theorem changeMode_power (new : Nat) (h : Hub) (c : mode h ≠ 5) : (changeMode new h).power = h.power :=
  (noMode_power_eq _).symm.trans ((congrArg Hub.power (noMode_changeMode new h c)).trans (noMode_power_eq h))
theorem changeMode_sleep (new : Nat) (h : Hub) (c : mode h ≠ 5) : (changeMode new h).sleep = h.sleep :=
  (noMode_sleep_eq _).symm.trans ((congrArg Hub.sleep (noMode_changeMode new h c)).trans (noMode_sleep_eq h))
theorem changeMode_dome (new : Nat) (h : Hub) (c : mode h ≠ 5) : (changeMode new h).dome = h.dome :=
  (noMode_dome_eq _).symm.trans ((congrArg Hub.dome (noMode_changeMode new h c)).trans (noMode_dome_eq h))
theorem changeMode_links (new : Nat) (h : Hub) (c : mode h ≠ 5) : (changeMode new h).links = h.links :=
  (noMode_links_eq _).symm.trans ((congrArg Hub.links (noMode_changeMode new h c)).trans (noMode_links_eq h))
theorem changeMode_tx (new : Nat) (h : Hub) (c : mode h ≠ 5) : (changeMode new h).tx = h.tx :=
  (noMode_tx_eq _).symm.trans ((congrArg Hub.tx (noMode_changeMode new h c)).trans (noMode_tx_eq h))
theorem changeMode_belfry (new : Nat) (h : Hub) (c : mode h ≠ 5) : (changeMode new h).belfry = h.belfry :=
  (noMode_belfry_eq _).symm.trans ((congrArg Hub.belfry (noMode_changeMode new h c)).trans (noMode_belfry_eq h))
theorem changeMode_channels (new : Nat) (h : Hub) (c : mode h ≠ 5) : (changeMode new h).channels = h.channels :=
  (noMode_channels_eq _).symm.trans ((congrArg Hub.channels (noMode_changeMode new h c)).trans (noMode_channels_eq h))
theorem changeMode_canopy (new : Nat) (h : Hub) (c : mode h ≠ 5) : (changeMode new h).canopy = h.canopy :=
  (noMode_canopy_eq _).symm.trans ((congrArg Hub.canopy (noMode_changeMode new h c)).trans (noMode_canopy_eq h))
theorem changeMode_host (new : Nat) (h : Hub) (c : mode h ≠ 5) : (changeMode new h).host = h.host :=
  (noMode_host_eq _).symm.trans ((congrArg Hub.host (noMode_changeMode new h c)).trans (noMode_host_eq h))
theorem changeMode_forester (new : Nat) (h : Hub) (c : mode h ≠ 5) : (changeMode new h).forester = h.forester :=
  (noMode_forester_eq _).symm.trans ((congrArg Hub.forester (noMode_changeMode new h c)).trans (noMode_forester_eq h))
theorem changeMode_can (new : Nat) (h : Hub) (c : mode h ≠ 5) : (changeMode new h).can = h.can :=
  (noMode_can_eq _).symm.trans ((congrArg Hub.can (noMode_changeMode new h c)).trans (noMode_can_eq h))
theorem changeMode_t1s (new : Nat) (h : Hub) (c : mode h ≠ 5) : (changeMode new h).t1s = h.t1s :=
  (noMode_t1s_eq _).symm.trans ((congrArg Hub.t1s (noMode_changeMode new h c)).trans (noMode_t1s_eq h))
theorem changeMode_update (new : Nat) (h : Hub) (c : mode h ≠ 5) : (changeMode new h).update = h.update :=
  (noMode_update_eq _).symm.trans ((congrArg Hub.update (noMode_changeMode new h c)).trans (noMode_update_eq h))

/-- The ring's state stays, unless COMMISSION is entered and a claim starts afresh. -/
theorem changeMode_ring (new : Nat) (h : Hub) (n : new ≠ 2) (c : mode h ≠ 5) : (changeMode new h).ring = h.ring := by
  unfold changeMode
  simp only [raiseEvent_ring, syncPads_ring, fuseEvalAll_ring, unboundCause_ring]
  have am : ∀ g, (abandonMailbox g).ring = g.ring := by
    intro g; unfold abandonMailbox; split <;> rfl
  have w : ∀ g l, (wrs g l).ring = g.ring := fun g l =>
    (congrArg Hub.ring (noDict_wrs g l) : (noDict (wrs g l)).ring = (noDict g).ring)
  have f : ∀ o r g, (fuseModeEntry o new r g).ring = g.ring := by
    intro o r g; unfold fuseModeEntry
    split
    · exact forEach_same (fun x => x.ring) _ _ _ fun _ _ _ => rfl
    · split
      · exact forEach_same (fun x => x.ring) _ _ _ fun _ _ _ => rfl
      · rfl
  have m : (mode h == 5) = false := by simpa using c
  have n2 : (new == 2) = false := by simpa using n
  rw [n2, whenDo_false]
  refine (whenDo_same (fun g => g.ring) _ _ _ (am _)).trans ?_
  refine (whenDo_same (fun g => g.ring) _ _ _ rfl).trans ?_
  have t : ∀ g k, (wrTime g k).ring = g.ring := fun _ _ => rfl
  have mm : ∀ o g, (modeMemory o new g).ring = g.ring := fun _ _ => rfl
  rw [t, w, mm, f, m]; rfl

/-- Spire's counters and whether its island failed: with the mode, all that Spire's time depends on. -/
def spireClock (h : Hub) : Nat × Nat × Bool := (h.spire.acc, h.spire.holdTime, h.spire.faulted)

theorem spireTime_of {g h : Hub} (c : spireClock g = spireClock h) (m : mode g = mode h) : spireTime g = spireTime h := by
  simp only [spireClock, Prod.mk.injEq] at c
  unfold spireTime
  rw [c.1, c.2.1, c.2.2, m]

theorem spireTime_wr (h : Hub) (k v : Nat) (n : k ≠ 0x2000_01) : spireTime (wr h k v) = spireTime h :=
  spireTime_of rfl (by unfold mode; rw [rd_wr, if_neg (Ne.symm n)])

theorem clock_spireCommission (g : Hub) : spireClock (spireCommission g) = spireClock g := by
  unfold spireCommission
  split
  · rfl
  · dsimp only
    split
    · split
      · simp [spireClock, holdoverEnds]
      · rfl
    · split
      · simp [spireClock, wrs, holdoverEnds]
      · rfl

theorem clock_changeMode (new : Nat) (h : Hub) : spireClock (changeMode new h) = spireClock (modeWritten new h) := by
  unfold changeMode
  have so : ∀ x y : Hub, x.spire = y.spire → spireClock x = spireClock y := fun x y e => by unfold spireClock; rw [e]
  refine (so _ _ (raiseEvent_spire _ _ _ _)).trans ((so _ _ (syncPads_spire _)).trans ((so _ _ (fuseEvalAll_spire _)).trans
    ((so _ _ (unboundCause_spire _ _ _)).trans ?_)))
  have cc : ∀ g, spireClock (canopenCommission g) = spireClock g := by
    intro g; unfold canopenCommission bootUp; split <;> rfl
  have am : ∀ g, spireClock (abandonMailbox g) = spireClock g := by
    intro g; unfold abandonMailbox; split <;> rfl
  have ca : ∀ o g, spireClock (claimAfresh o g) = spireClock g := by
    intro o g; unfold claimAfresh; split <;> rfl
  refine Eq.trans (whenDo_same spireClock _ _ _ ?_) ?_
  · exact (cc _).trans ((clock_spireCommission _).trans (ca _ _))
  · refine Eq.trans (whenDo_same spireClock _ _ _ (am _)) ?_
    exact whenDo_same spireClock _ _ _ rfl

theorem time_changeMode (new : Nat) (h : Hub) : spireTime (changeMode new h) = spireTime (modeWritten new h) :=
  spireTime_of (clock_changeMode new h) (rd_changeMode_of new h _ (by decide))

/-- No reaction puts SAFE_N high. -/
theorem safeN_settle (o s : Bool) (h0 : Hub) (z : rd h0 0x4E00_03 = 0) : rd (settle o s h0) 0x4E00_03 = 0 := by
  have e0 : rd (if reaction h0 = 3 then { h0 with watch := { h0.watch with halted := true } } else h0) 0x4E00_03 = 0 := by
    split <;> exact z
  unfold settle
  simp only []
  generalize (if reaction h0 = 3 then { h0 with watch := { h0.watch with halted := true } } else h0) = h at e0 ⊢
  have e1 : rd (whenDo (safeHeldLow h) (fun x => wr x 0x4E00_03 0) h) 0x4E00_03 = 0 := by
    unfold whenDo; split
    · simp
    · exact e0
  generalize whenDo (safeHeldLow h) (fun x => wr x 0x4E00_03 0) h = a at e1 ⊢
  have re : ∀ (x : Hub) e, e < 256 → rd (raiseEvent x e 0 0) 0x4E00_03 = rd x 0x4E00_03 := fun x e l =>
    rd_raiseEvent_of _ _ _ _ _ l (by decide)
  have e2 : rd (whenDo (safeHeldLow h && !s) (fun x => raiseEvent x 0xAA 0 0) a) 0x4E00_03 = 0 := by
    unfold whenDo; split
    · exact (re _ _ (by decide)).trans e1
    · exact e1
  generalize whenDo (safeHeldLow h && !s) (fun x => raiseEvent x 0xAA 0 0) a = b at e2 ⊢
  have rc : rd (releaseCan b) 0x4E00_03 = 0 := by
    refine Eq.trans (forEach_same (fun x => rd x 0x4E00_03) _ _ _ fun n i x => ?_) e2
    have := List.mem_range.1 i
    split
    · rw [rd_wr, if_neg (by unfold slotKey; omega)]
    · rfl
  generalize releaseCan b = d at rc ⊢
  split
  · rw [rd_fuseEvalAll_of _ _ (by decide)]; exact e2
  · split
    · split
      · rw [rd_fuseEvalAll_of _ _ (by decide)]; exact rc
      · rw [re _ _ (by decide), rd_fuseEvalAll_of _ _ (by decide)]; exact rc
    · exact e2

theorem safeN_causeGone (c : Nat) (h : Hub) (z : rd h 0x4E00_03 = 0) : rd (causeGone c h) 0x4E00_03 = 0 := by
  unfold causeGone withReactions
  refine safeN_settle _ _ _ ?_
  unfold markGone
  split
  · split <;> exact z
  · exact z

theorem safeN_spireCommission (h : Hub) (z : rd h 0x4E00_03 = 0) : rd (spireCommission h) 0x4E00_03 = 0 := by
  have y : rd (if rd h 0x4500_01 = 6 then holdoverEnds h else h) 0x4E00_03 = 0 := by
    split
    · exact safeN_causeGone _ _ (by rw [rd_wr, if_neg (by decide)]; exact z)
    · exact z
  unfold spireCommission
  split
  · exact z
  · dsimp only
    generalize (if rd h 0x4500_01 = 6 then holdoverEnds h else h) = a at y ⊢
    split
    · exact y
    · simp only [wrs]
      rw [rd_wr, if_neg (by decide), rd_wr, if_neg (by decide), rd_wr, if_neg (by decide)]; exact y

theorem safeN_changeMode (new : Nat) (h : Hub) (c : servingCode new = false) : rd (changeMode new h) 0x4E00_03 = 0 := by
  unfold changeMode
  simp only []
  rw [rd_raiseEvent_of _ _ _ _ _ (by decide) (by decide), rd_syncPads, rd_fuseEvalAll_of _ _ (by decide)]
  have ub : ∀ o g, rd (unboundCause o new g) 0x4E00_03 = rd g 0x4E00_03 := fun o g => by
    unfold rd; rw [rdW_unboundCause_of _ _ _ _ (by decide) (by decide)]
  rw [ub]
  have cc : ∀ g, rd (canopenCommission g) 0x4E00_03 = rd g 0x4E00_03 := by
    intro g; unfold canopenCommission bootUp; split <;> simp
  have am : ∀ g, rd (abandonMailbox g) 0x4E00_03 = rd g 0x4E00_03 := by
    intro g; unfold abandonMailbox; split <;> simp
  have ca : ∀ o g, rd (claimAfresh o g) 0x4E00_03 = rd g 0x4E00_03 := fun o g => by unfold rd; rw [claimAfresh_rdW]
  have z : ∀ (d : Bool) (x : Hub), rd (whenDo d abandonMailbox (whenDo (!servingCode new) (fun g => wr g 0x4E00_03 0) x)) 0x4E00_03 = 0 := by
    intro d x
    refine Eq.trans (whenDo_same (fun g => rd g 0x4E00_03) _ _ _ (am _)) ?_
    unfold whenDo
    rw [c]
    simp
  generalize hx : wrTime _ _ = x
  have zx := z (new == 1 || new == 8 || new == 6) x
  generalize whenDo (new == 1 || new == 8 || new == 6) abandonMailbox _ = a at zx ⊢
  unfold whenDo
  split
  · dsimp only
    rw [cc]
    exact safeN_spireCommission _ ((ca _ _).trans zx)
  · exact zx

/-- A change of mode does all that R48 lists. -/
theorem changeMode_entered (new : Nat) (hn : new < 256) (h : Hub) : ModeEntered (mode h) new (changeMode new h) := by
  refine ⟨mode_changeMode _ _ hn, previous_changeMode _ _, ?_, ?_, event_changeMode _ _, safeN_changeMode _ _⟩
  · rw [time_changeMode, rd_changeMode_of _ _ _ (by decide)]
    unfold modeWritten wrTime
    simp [wrs, spireTime_wr]
  · rw [time_changeMode, rd_changeMode_of _ _ _ (by decide)]
    unfold modeWritten wrTime
    simp [wrs, spireTime_wr]

end Sys2Proof.Machine
end

