-- ==== Sys2Proof/Laws/Paths.lean ====
section
/-! SUPPORT. What a write on an access path does before, and instead of, its own effect. -/

namespace Sys2Proof.Machine

/-- A hub without what an access itself may change: events, the answer, sessions, what the paths and the host window hold. -/
def noAccess (h : Hub) : Hub :=
  { noEvent h with answer := .none, sessions := [], paths := [], hostHalf := Hub.reset.hostHalf }

theorem noAccess_of {g h : Hub} (e : noEvent g = noEvent h) : noAccess g = noAccess h := by unfold noAccess; rw [e]

theorem noAccess_hostTlp (p : Path) (k : Nat) (h : Hub) : noAccess (hostTlp p k h) = noAccess h := by
  unfold hostTlp; split <;> rfl

theorem noAccess_touch (p : Path) (h : Hub) : noAccess (touch p h) = noAccess h := by
  unfold touch; split <;> rfl

theorem noAccess_answered (a : Answer) (h : Hub) : noAccess (answered a h) = noAccess h := rfl

theorem noAccess_refuse (p : Path) (index sub code : Nat) (w : Bool) (h : Hub) : noAccess (refuse p index sub code w h) = noAccess h := by
  have b : ∀ g : Hub, noDict (wrStamp (wrs (bump g 0x4001_01)
      [(0x4001_02, pathCode p), (0x4001_03, index), (0x4001_04, sub), (0x4001_05, code)]) 0x4001_06 0x13) = noDict g :=
    fun g => (noDict_wrStamp _ _ _).trans ((noDict_wrs _ _).trans (noDict_wr _ _ _))
  unfold refuse whenDo
  simp only []
  rw [noAccess_answered]
  split
  · exact noAccess_of ((noEvent_raiseEvent _ _ _ _).trans (noEvent_of _ _ (b h)))
  · exact noAccess_of (noEvent_of _ _ (b h))

theorem noAccess_dropHeld (p : Path) (k : Nat) (h : Hub) : noAccess (dropHeld p k h) = noAccess h := by
  unfold dropHeld
  simp only []
  split
  · split
    · rfl
    · rw [noAccess_refuse]; rfl
  · rfl

theorem noAccess_dropHalf (p : Path) (w : Bool) (k : Nat) (h : Hub) : noAccess (dropHalf p w k h) = noAccess h := by
  unfold dropHalf; split <;> rfl

/-- What a served write does before its causes are looked at changes nothing else. -/
theorem noAccess_writeBegun (p : Path) (i j : Nat) (h : Hub) : noAccess (writeBegun p i j h) = noAccess h := by
  unfold writeBegun
  rw [noAccess_dropHalf, noAccess_dropHeld, noAccess_touch, noAccess_hostTlp]

@[simp] theorem writeBegun_freeCount (p : Path) (i j : Nat) (h : Hub) : (writeBegun p i j h).freeCount = h.freeCount :=
  (congrArg Hub.freeCount (noAccess_writeBegun p i j h) :)
@[simp] theorem writeBegun_env (p : Path) (i j : Nat) (h : Hub) : (writeBegun p i j h).env = h.env :=
  (congrArg Hub.env (noAccess_writeBegun p i j h) :)
@[simp] theorem writeBegun_boot (p : Path) (i j : Nat) (h : Hub) : (writeBegun p i j h).boot = h.boot :=
  (congrArg Hub.boot (noAccess_writeBegun p i j h) :)
@[simp] theorem writeBegun_modes (p : Path) (i j : Nat) (h : Hub) : (writeBegun p i j h).modes = h.modes :=
  (congrArg Hub.modes (noAccess_writeBegun p i j h) :)
@[simp] theorem writeBegun_stopped (p : Path) (i j : Nat) (h : Hub) : (writeBegun p i j h).stopped = h.stopped :=
  (congrArg Hub.stopped (noAccess_writeBegun p i j h) :)
@[simp] theorem writeBegun_crossings (p : Path) (i j : Nat) (h : Hub) : (writeBegun p i j h).crossings = h.crossings :=
  (congrArg Hub.crossings (noAccess_writeBegun p i j h) :)
@[simp] theorem writeBegun_mailbox (p : Path) (i j : Nat) (h : Hub) : (writeBegun p i j h).mailbox = h.mailbox :=
  (congrArg Hub.mailbox (noAccess_writeBegun p i j h) :)
@[simp] theorem writeBegun_store (p : Path) (i j : Nat) (h : Hub) : (writeBegun p i j h).store = h.store :=
  (congrArg Hub.store (noAccess_writeBegun p i j h) :)
@[simp] theorem writeBegun_copyA (p : Path) (i j : Nat) (h : Hub) : (writeBegun p i j h).copyA = h.copyA :=
  (congrArg Hub.copyA (noAccess_writeBegun p i j h) :)
@[simp] theorem writeBegun_copyB (p : Path) (i j : Nat) (h : Hub) : (writeBegun p i j h).copyB = h.copyB :=
  (congrArg Hub.copyB (noAccess_writeBegun p i j h) :)
@[simp] theorem writeBegun_spire (p : Path) (i j : Nat) (h : Hub) : (writeBegun p i j h).spire = h.spire :=
  (congrArg Hub.spire (noAccess_writeBegun p i j h) :)
@[simp] theorem writeBegun_cyc (p : Path) (i j : Nat) (h : Hub) : (writeBegun p i j h).cyc = h.cyc :=
  (congrArg Hub.cyc (noAccess_writeBegun p i j h) :)
@[simp] theorem writeBegun_engines (p : Path) (i j : Nat) (h : Hub) : (writeBegun p i j h).engines = h.engines :=
  (congrArg Hub.engines (noAccess_writeBegun p i j h) :)
@[simp] theorem writeBegun_pads (p : Path) (i j : Nat) (h : Hub) : (writeBegun p i j h).pads = h.pads :=
  (congrArg Hub.pads (noAccess_writeBegun p i j h) :)
@[simp] theorem writeBegun_fifos (p : Path) (i j : Nat) (h : Hub) : (writeBegun p i j h).fifos = h.fifos :=
  (congrArg Hub.fifos (noAccess_writeBegun p i j h) :)
@[simp] theorem writeBegun_fuses (p : Path) (i j : Nat) (h : Hub) : (writeBegun p i j h).fuses = h.fuses :=
  (congrArg Hub.fuses (noAccess_writeBegun p i j h) :)
@[simp] theorem writeBegun_adc (p : Path) (i j : Nat) (h : Hub) : (writeBegun p i j h).adc = h.adc :=
  (congrArg Hub.adc (noAccess_writeBegun p i j h) :)
@[simp] theorem writeBegun_power (p : Path) (i j : Nat) (h : Hub) : (writeBegun p i j h).power = h.power :=
  (congrArg Hub.power (noAccess_writeBegun p i j h) :)
@[simp] theorem writeBegun_sleep (p : Path) (i j : Nat) (h : Hub) : (writeBegun p i j h).sleep = h.sleep :=
  (congrArg Hub.sleep (noAccess_writeBegun p i j h) :)
@[simp] theorem writeBegun_dome (p : Path) (i j : Nat) (h : Hub) : (writeBegun p i j h).dome = h.dome :=
  (congrArg Hub.dome (noAccess_writeBegun p i j h) :)
@[simp] theorem writeBegun_links (p : Path) (i j : Nat) (h : Hub) : (writeBegun p i j h).links = h.links :=
  (congrArg Hub.links (noAccess_writeBegun p i j h) :)
@[simp] theorem writeBegun_tx (p : Path) (i j : Nat) (h : Hub) : (writeBegun p i j h).tx = h.tx :=
  (congrArg Hub.tx (noAccess_writeBegun p i j h) :)
@[simp] theorem writeBegun_ring (p : Path) (i j : Nat) (h : Hub) : (writeBegun p i j h).ring = h.ring :=
  (congrArg Hub.ring (noAccess_writeBegun p i j h) :)
@[simp] theorem writeBegun_belfry (p : Path) (i j : Nat) (h : Hub) : (writeBegun p i j h).belfry = h.belfry :=
  (congrArg Hub.belfry (noAccess_writeBegun p i j h) :)
@[simp] theorem writeBegun_channels (p : Path) (i j : Nat) (h : Hub) : (writeBegun p i j h).channels = h.channels :=
  (congrArg Hub.channels (noAccess_writeBegun p i j h) :)
@[simp] theorem writeBegun_canopy (p : Path) (i j : Nat) (h : Hub) : (writeBegun p i j h).canopy = h.canopy :=
  (congrArg Hub.canopy (noAccess_writeBegun p i j h) :)
@[simp] theorem writeBegun_host (p : Path) (i j : Nat) (h : Hub) : (writeBegun p i j h).host = h.host :=
  (congrArg Hub.host (noAccess_writeBegun p i j h) :)
@[simp] theorem writeBegun_forester (p : Path) (i j : Nat) (h : Hub) : (writeBegun p i j h).forester = h.forester :=
  (congrArg Hub.forester (noAccess_writeBegun p i j h) :)
@[simp] theorem writeBegun_can (p : Path) (i j : Nat) (h : Hub) : (writeBegun p i j h).can = h.can :=
  (congrArg Hub.can (noAccess_writeBegun p i j h) :)
@[simp] theorem writeBegun_canopen (p : Path) (i j : Nat) (h : Hub) : (writeBegun p i j h).canopen = h.canopen :=
  (congrArg Hub.canopen (noAccess_writeBegun p i j h) :)
@[simp] theorem writeBegun_t1s (p : Path) (i j : Nat) (h : Hub) : (writeBegun p i j h).t1s = h.t1s :=
  (congrArg Hub.t1s (noAccess_writeBegun p i j h) :)
@[simp] theorem writeBegun_update (p : Path) (i j : Nat) (h : Hub) : (writeBegun p i j h).update = h.update :=
  (congrArg Hub.update (noAccess_writeBegun p i j h) :)
@[simp] theorem writeBegun_watch_records (p : Path) (i j : Nat) (h : Hub) : (writeBegun p i j h).watch.records = h.watch.records :=
  (congrArg (fun x : Hub => x.watch.records) (noAccess_writeBegun p i j h) :)
@[simp] theorem writeBegun_watch_occurrences (p : Path) (i j : Nat) (h : Hub) : (writeBegun p i j h).watch.occurrences = h.watch.occurrences :=
  (congrArg (fun x : Hub => x.watch.occurrences) (noAccess_writeBegun p i j h) :)
@[simp] theorem writeBegun_watch_previous (p : Path) (i j : Nat) (h : Hub) : (writeBegun p i j h).watch.previous = h.watch.previous :=
  (congrArg (fun x : Hub => x.watch.previous) (noAccess_writeBegun p i j h) :)
@[simp] theorem writeBegun_watch_backstop (p : Path) (i j : Nat) (h : Hub) : (writeBegun p i j h).watch.backstop = h.watch.backstop :=
  (congrArg (fun x : Hub => x.watch.backstop) (noAccess_writeBegun p i j h) :)
@[simp] theorem writeBegun_watch_backstopRec (p : Path) (i j : Nat) (h : Hub) : (writeBegun p i j h).watch.backstopRec = h.watch.backstopRec :=
  (congrArg (fun x : Hub => x.watch.backstopRec) (noAccess_writeBegun p i j h) :)
@[simp] theorem writeBegun_watch_injected (p : Path) (i j : Nat) (h : Hub) : (writeBegun p i j h).watch.injected = h.watch.injected :=
  (congrArg (fun x : Hub => x.watch.injected) (noAccess_writeBegun p i j h) :)
@[simp] theorem writeBegun_watch_armed (p : Path) (i j : Nat) (h : Hub) : (writeBegun p i j h).watch.armed = h.watch.armed :=
  (congrArg (fun x : Hub => x.watch.armed) (noAccess_writeBegun p i j h) :)
@[simp] theorem writeBegun_watch_injecting (p : Path) (i j : Nat) (h : Hub) : (writeBegun p i j h).watch.injecting = h.watch.injecting :=
  (congrArg (fun x : Hub => x.watch.injecting) (noAccess_writeBegun p i j h) :)
@[simp] theorem writeBegun_watch_releasing (p : Path) (i j : Nat) (h : Hub) : (writeBegun p i j h).watch.releasing = h.watch.releasing :=
  (congrArg (fun x : Hub => x.watch.releasing) (noAccess_writeBegun p i j h) :)
@[simp] theorem writeBegun_watch_halted (p : Path) (i j : Nat) (h : Hub) : (writeBegun p i j h).watch.halted = h.watch.halted :=
  (congrArg (fun x : Hub => x.watch.halted) (noAccess_writeBegun p i j h) :)

@[simp] theorem refuse_freeCount (p : Path) (i j c : Nat) (w : Bool) (h : Hub) : (refuse p i j c w h).freeCount = h.freeCount :=
  (congrArg Hub.freeCount (noAccess_refuse p i j c w h) :)
@[simp] theorem refuse_env (p : Path) (i j c : Nat) (w : Bool) (h : Hub) : (refuse p i j c w h).env = h.env :=
  (congrArg Hub.env (noAccess_refuse p i j c w h) :)
@[simp] theorem refuse_boot (p : Path) (i j c : Nat) (w : Bool) (h : Hub) : (refuse p i j c w h).boot = h.boot :=
  (congrArg Hub.boot (noAccess_refuse p i j c w h) :)
@[simp] theorem refuse_modes (p : Path) (i j c : Nat) (w : Bool) (h : Hub) : (refuse p i j c w h).modes = h.modes :=
  (congrArg Hub.modes (noAccess_refuse p i j c w h) :)
@[simp] theorem refuse_stopped (p : Path) (i j c : Nat) (w : Bool) (h : Hub) : (refuse p i j c w h).stopped = h.stopped :=
  (congrArg Hub.stopped (noAccess_refuse p i j c w h) :)
@[simp] theorem refuse_crossings (p : Path) (i j c : Nat) (w : Bool) (h : Hub) : (refuse p i j c w h).crossings = h.crossings :=
  (congrArg Hub.crossings (noAccess_refuse p i j c w h) :)
@[simp] theorem refuse_mailbox (p : Path) (i j c : Nat) (w : Bool) (h : Hub) : (refuse p i j c w h).mailbox = h.mailbox :=
  (congrArg Hub.mailbox (noAccess_refuse p i j c w h) :)
@[simp] theorem refuse_store (p : Path) (i j c : Nat) (w : Bool) (h : Hub) : (refuse p i j c w h).store = h.store :=
  (congrArg Hub.store (noAccess_refuse p i j c w h) :)
@[simp] theorem refuse_copyA (p : Path) (i j c : Nat) (w : Bool) (h : Hub) : (refuse p i j c w h).copyA = h.copyA :=
  (congrArg Hub.copyA (noAccess_refuse p i j c w h) :)
@[simp] theorem refuse_copyB (p : Path) (i j c : Nat) (w : Bool) (h : Hub) : (refuse p i j c w h).copyB = h.copyB :=
  (congrArg Hub.copyB (noAccess_refuse p i j c w h) :)
@[simp] theorem refuse_spire (p : Path) (i j c : Nat) (w : Bool) (h : Hub) : (refuse p i j c w h).spire = h.spire :=
  (congrArg Hub.spire (noAccess_refuse p i j c w h) :)
@[simp] theorem refuse_cyc (p : Path) (i j c : Nat) (w : Bool) (h : Hub) : (refuse p i j c w h).cyc = h.cyc :=
  (congrArg Hub.cyc (noAccess_refuse p i j c w h) :)
@[simp] theorem refuse_engines (p : Path) (i j c : Nat) (w : Bool) (h : Hub) : (refuse p i j c w h).engines = h.engines :=
  (congrArg Hub.engines (noAccess_refuse p i j c w h) :)
@[simp] theorem refuse_pads (p : Path) (i j c : Nat) (w : Bool) (h : Hub) : (refuse p i j c w h).pads = h.pads :=
  (congrArg Hub.pads (noAccess_refuse p i j c w h) :)
@[simp] theorem refuse_fifos (p : Path) (i j c : Nat) (w : Bool) (h : Hub) : (refuse p i j c w h).fifos = h.fifos :=
  (congrArg Hub.fifos (noAccess_refuse p i j c w h) :)
@[simp] theorem refuse_fuses (p : Path) (i j c : Nat) (w : Bool) (h : Hub) : (refuse p i j c w h).fuses = h.fuses :=
  (congrArg Hub.fuses (noAccess_refuse p i j c w h) :)
@[simp] theorem refuse_adc (p : Path) (i j c : Nat) (w : Bool) (h : Hub) : (refuse p i j c w h).adc = h.adc :=
  (congrArg Hub.adc (noAccess_refuse p i j c w h) :)
@[simp] theorem refuse_power (p : Path) (i j c : Nat) (w : Bool) (h : Hub) : (refuse p i j c w h).power = h.power :=
  (congrArg Hub.power (noAccess_refuse p i j c w h) :)
@[simp] theorem refuse_sleep (p : Path) (i j c : Nat) (w : Bool) (h : Hub) : (refuse p i j c w h).sleep = h.sleep :=
  (congrArg Hub.sleep (noAccess_refuse p i j c w h) :)
@[simp] theorem refuse_dome (p : Path) (i j c : Nat) (w : Bool) (h : Hub) : (refuse p i j c w h).dome = h.dome :=
  (congrArg Hub.dome (noAccess_refuse p i j c w h) :)
@[simp] theorem refuse_links (p : Path) (i j c : Nat) (w : Bool) (h : Hub) : (refuse p i j c w h).links = h.links :=
  (congrArg Hub.links (noAccess_refuse p i j c w h) :)
@[simp] theorem refuse_tx (p : Path) (i j c : Nat) (w : Bool) (h : Hub) : (refuse p i j c w h).tx = h.tx :=
  (congrArg Hub.tx (noAccess_refuse p i j c w h) :)
@[simp] theorem refuse_ring (p : Path) (i j c : Nat) (w : Bool) (h : Hub) : (refuse p i j c w h).ring = h.ring :=
  (congrArg Hub.ring (noAccess_refuse p i j c w h) :)
@[simp] theorem refuse_belfry (p : Path) (i j c : Nat) (w : Bool) (h : Hub) : (refuse p i j c w h).belfry = h.belfry :=
  (congrArg Hub.belfry (noAccess_refuse p i j c w h) :)
@[simp] theorem refuse_channels (p : Path) (i j c : Nat) (w : Bool) (h : Hub) : (refuse p i j c w h).channels = h.channels :=
  (congrArg Hub.channels (noAccess_refuse p i j c w h) :)
@[simp] theorem refuse_canopy (p : Path) (i j c : Nat) (w : Bool) (h : Hub) : (refuse p i j c w h).canopy = h.canopy :=
  (congrArg Hub.canopy (noAccess_refuse p i j c w h) :)
@[simp] theorem refuse_host (p : Path) (i j c : Nat) (w : Bool) (h : Hub) : (refuse p i j c w h).host = h.host :=
  (congrArg Hub.host (noAccess_refuse p i j c w h) :)
@[simp] theorem refuse_forester (p : Path) (i j c : Nat) (w : Bool) (h : Hub) : (refuse p i j c w h).forester = h.forester :=
  (congrArg Hub.forester (noAccess_refuse p i j c w h) :)
@[simp] theorem refuse_can (p : Path) (i j c : Nat) (w : Bool) (h : Hub) : (refuse p i j c w h).can = h.can :=
  (congrArg Hub.can (noAccess_refuse p i j c w h) :)
@[simp] theorem refuse_canopen (p : Path) (i j c : Nat) (w : Bool) (h : Hub) : (refuse p i j c w h).canopen = h.canopen :=
  (congrArg Hub.canopen (noAccess_refuse p i j c w h) :)
@[simp] theorem refuse_t1s (p : Path) (i j c : Nat) (w : Bool) (h : Hub) : (refuse p i j c w h).t1s = h.t1s :=
  (congrArg Hub.t1s (noAccess_refuse p i j c w h) :)
@[simp] theorem refuse_update (p : Path) (i j c : Nat) (w : Bool) (h : Hub) : (refuse p i j c w h).update = h.update :=
  (congrArg Hub.update (noAccess_refuse p i j c w h) :)
@[simp] theorem refuse_watch_records (p : Path) (i j c : Nat) (w : Bool) (h : Hub) : (refuse p i j c w h).watch.records = h.watch.records :=
  (congrArg (fun x : Hub => x.watch.records) (noAccess_refuse p i j c w h) :)
@[simp] theorem refuse_watch_occurrences (p : Path) (i j c : Nat) (w : Bool) (h : Hub) : (refuse p i j c w h).watch.occurrences = h.watch.occurrences :=
  (congrArg (fun x : Hub => x.watch.occurrences) (noAccess_refuse p i j c w h) :)
@[simp] theorem refuse_watch_previous (p : Path) (i j c : Nat) (w : Bool) (h : Hub) : (refuse p i j c w h).watch.previous = h.watch.previous :=
  (congrArg (fun x : Hub => x.watch.previous) (noAccess_refuse p i j c w h) :)
@[simp] theorem refuse_watch_backstop (p : Path) (i j c : Nat) (w : Bool) (h : Hub) : (refuse p i j c w h).watch.backstop = h.watch.backstop :=
  (congrArg (fun x : Hub => x.watch.backstop) (noAccess_refuse p i j c w h) :)
@[simp] theorem refuse_watch_backstopRec (p : Path) (i j c : Nat) (w : Bool) (h : Hub) : (refuse p i j c w h).watch.backstopRec = h.watch.backstopRec :=
  (congrArg (fun x : Hub => x.watch.backstopRec) (noAccess_refuse p i j c w h) :)
@[simp] theorem refuse_watch_injected (p : Path) (i j c : Nat) (w : Bool) (h : Hub) : (refuse p i j c w h).watch.injected = h.watch.injected :=
  (congrArg (fun x : Hub => x.watch.injected) (noAccess_refuse p i j c w h) :)
@[simp] theorem refuse_watch_armed (p : Path) (i j c : Nat) (w : Bool) (h : Hub) : (refuse p i j c w h).watch.armed = h.watch.armed :=
  (congrArg (fun x : Hub => x.watch.armed) (noAccess_refuse p i j c w h) :)
@[simp] theorem refuse_watch_injecting (p : Path) (i j c : Nat) (w : Bool) (h : Hub) : (refuse p i j c w h).watch.injecting = h.watch.injecting :=
  (congrArg (fun x : Hub => x.watch.injecting) (noAccess_refuse p i j c w h) :)
@[simp] theorem refuse_watch_releasing (p : Path) (i j c : Nat) (w : Bool) (h : Hub) : (refuse p i j c w h).watch.releasing = h.watch.releasing :=
  (congrArg (fun x : Hub => x.watch.releasing) (noAccess_refuse p i j c w h) :)
@[simp] theorem refuse_watch_halted (p : Path) (i j c : Nat) (w : Bool) (h : Hub) : (refuse p i j c w h).watch.halted = h.watch.halted :=
  (congrArg (fun x : Hub => x.watch.halted) (noAccess_refuse p i j c w h) :)

/-- Registers an access itself may write: those of an event, the refusal record, the TLP counter. -/
def accessKey (k : Nat) : Bool := eventKey k || decide (0x4001_01 ≤ k ∧ k ≤ 0x4001_07) || k == 0x4A00_04

theorem eventKey_of_accessKey {k : Nat} (e : accessKey k = false) : eventKey k = false := by
  unfold accessKey at e
  simp only [Bool.or_eq_false_iff] at e
  exact e.1.1

theorem rdW_refuse_of (p : Path) (index sub code : Nat) (w : Bool) (h : Hub) (k : Nat) (e : accessKey k = false) :
    rdW (refuse p index sub code w h) k = rdW h k := by
  have ek := eventKey_of_accessKey e
  unfold accessKey at e
  simp only [Bool.or_eq_false_iff, decide_eq_false_iff_not] at e
  have b : ∀ g : Hub, rdW (wrStamp (wrs (bump g 0x4001_01)
      [(0x4001_02, pathCode p), (0x4001_03, index), (0x4001_04, sub), (0x4001_05, code)]) 0x4001_06 0x13) k = rdW g k := by
    intro g
    unfold wrStamp bump bumpBy
    rw [rdW_wr, if_neg (by omega), rdW_wr, if_neg (by omega), rdW_wrs_of, rdW_wr, if_neg (by omega)]
    intro x m
    simp only [List.mem_cons, List.not_mem_nil, or_false] at m
    rcases m with rfl | rfl | rfl | rfl <;> simp only <;> omega
  unfold refuse whenDo
  simp only []
  rw [rdW_answered]
  split
  · rw [rdW_raiseEvent_of _ _ _ _ _ (by decide) ek, b]
  · exact b h

theorem rdW_dropHeld_of (p : Path) (j : Nat) (h : Hub) (k : Nat) (e : accessKey k = false) : rdW (dropHeld p j h) k = rdW h k := by
  unfold dropHeld
  simp only []
  split
  · split
    · rfl
    · rw [rdW_refuse_of _ _ _ _ _ _ _ e]; rfl
  · rfl

/-- What a served write does before its causes are looked at leaves every other register. -/
theorem rdW_writeBegun_of (p : Path) (i j : Nat) (h : Hub) (k : Nat) (e : accessKey k = false) :
    rdW (writeBegun p i j h) k = rdW h k := by
  have t : rdW (touch p (hostTlp p 0x4A00_04 h)) k = rdW h k := by
    have : k ≠ 0x4A00_04 := by
      unfold accessKey at e
      simp only [Bool.or_eq_false_iff, beq_eq_false_iff_ne] at e
      exact e.2
    unfold touch hostTlp bump bumpBy
    split <;> split <;> simp [setSession, this]
  unfold writeBegun dropHalf
  split
  · exact (rdW_dropHeld_of _ _ _ _ e).trans t
  · exact (rdW_dropHeld_of _ _ _ _ e).trans t

theorem rd_writeBegun_of (p : Path) (i j : Nat) (h : Hub) (k : Nat) (e : accessKey k = false) :
    rd (writeBegun p i j h) k = rd h k := by unfold rd; rw [rdW_writeBegun_of _ _ _ _ _ e]

/-- A served write with no cause of refusal is answered as accepted and takes effect. -/
theorem pathTry_accepted {p : Path} {i j v : Nat} {causes : Hub → Causes → Causes} {f : Hub → Hub} {h : Hub} (s : served h p = true)
    (c : refusalCode (causes (writeBegun p i j h) (writeCauses (writeBegun p i j h) p i j v)) = none) :
    pathTry p i j v causes f h = f (answered .accepted (writeBegun p i j h)) := by
  unfold pathTry
  rw [if_pos s]
  simp only [c]

/-- A served write with a cause of refusal is refused with its code. -/
theorem pathTry_refused {p : Path} {i j v : Nat} {causes : Hub → Causes → Causes} {f : Hub → Hub} {h : Hub} {n : Nat}
    (s : served h p = true)
    (c : refusalCode (causes (writeBegun p i j h) (writeCauses (writeBegun p i j h) p i j v)) = some n) :
    pathTry p i j v causes f h = refuse p i j n true (writeBegun p i j h) := by
  unfold pathTry
  rw [if_pos s]
  simp only [c]

/-- A write on a path that is not served does nothing. -/
theorem pathTry_unserved {p : Path} {i j v : Nat} {causes : Hub → Causes → Causes} {f : Hub → Hub} {h : Hub} (s : served h p = false) :
    pathTry p i j v causes f h = answered .none h := by
  unfold pathTry
  rw [if_neg (by simp [s])]

/-- A write that waits for no earlier one of its path is tried at once. -/
theorem pathWrite_now {p : Path} {i j v : Nat} {causes : Hub → Causes → Causes} {f : Hub → Hub} {h : Hub} (w : pathWaits h p = false) :
    pathWrite p i j v causes f h = pathTry p i j v causes (fun g => f (writeTaken p i j g)) h := by
  unfold pathWrite
  rw [if_neg (by simp [w])]

/-- A write behind an earlier one of its path is held, and does nothing else yet (R77). -/
theorem pathWrite_held {p : Path} {i j v : Nat} {causes : Hub → Causes → Causes} {f : Hub → Hub} {h : Hub} (s : served h p = true)
    (w : pathWaits h p = true) : pathWrite p i j v causes f h = holdAccess (.entryWrite p i j v) h := by
  unfold pathWrite
  rw [if_pos (by simp [s, w])]

theorem pathWrite_accepted {p : Path} {i j v : Nat} {causes : Hub → Causes → Causes} {f : Hub → Hub} {h : Hub} (s : served h p = true)
    (w : pathWaits h p = false)
    (c : refusalCode (causes (writeBegun p i j h) (writeCauses (writeBegun p i j h) p i j v)) = none) :
    pathWrite p i j v causes f h = f (writeTaken p i j (answered .accepted (writeBegun p i j h))) := by
  rw [pathWrite_now w]
  exact pathTry_accepted s c

/-- Registers that taking an accepted write leaves as they were: all of them. -/
theorem rdW_writeTaken (p : Path) (i j : Nat) (h : Hub) (k : Nat) : rdW (writeTaken p i j h) k = rdW h k := by
  unfold writeTaken endHalf
  rw [rdW_noteUnstored]
  split <;> rfl

/-- Holding an access changes the list of those that wait and the answer, and no register. -/
@[simp] theorem rdW_holdAccess (a : HeldAccess) (h : Hub) (k : Nat) : rdW (holdAccess a h) k = rdW h k := rfl

@[simp] theorem holdAccess_waiting (a : HeldAccess) (h : Hub) : (holdAccess a h).host.waiting = h.host.waiting ++ [a] := rfl

@[simp] theorem holdAccess_answer (a : HeldAccess) (h : Hub) : (holdAccess a h).answer = .none := rfl

@[simp] theorem holdAccess_canopen (a : HeldAccess) (h : Hub) : (holdAccess a h).canopen = h.canopen := rfl

@[simp] theorem holdAccess_canopy (a : HeldAccess) (h : Hub) : (holdAccess a h).canopy = h.canopy := rfl

/-- An access that was put to those of its path waits there. -/
theorem pathWaits_holdAccess (a : HeldAccess) (h : Hub) (n : ∀ ch, heldPath a ≠ .sdo ch) :
    pathWaits (holdAccess a h) (heldPath a) = true := by
  unfold pathWaits
  split
  · next ch e => exact absurd e (n ch)
  · simp

/-! ### Causes -/

/-- No cause applies. -/
theorem refusalCode_none (c : Causes) : refusalCode c = none ↔
    c.absent = false ∧ c.noSub = false ∧ c.access = false ∧ c.value = false ∧ c.mode = false ∧ c.role = false ∧ c.size = false
      ∧ c.busy = false ∧ c.path = false ∧ c.other = false := by
  obtain ⟨a, b, d, e, f, g, i, j, k, l⟩ := c
  cases a <;> cases b <;> cases d <;> cases e <;> cases f <;> cases g <;> cases i <;> cases j <;> cases k <;> cases l <;> simp [refusalCode]

end Sys2Proof.Machine
end

