-- ==== Sys2Proof/Laws/Kept.lean ====
section
/-! SUPPORT. The registers each shared operation keeps, as claims say it. -/

namespace Sys2Proof.Machine

theorem KeptBut.refl (r : List (Nat × Nat)) (h : Hub) : KeptBut r h h := fun _ _ => rfl

theorem KeptBut.trans {r : List (Nat × Nat)} {a b c : Hub} (x : KeptBut r a b) (y : KeptBut r b c) : KeptBut r a c :=
  fun k n => (y k n).trans (x k n)

theorem KeptBut.mono {r q : List (Nat × Nat)} {a b : Hub} (x : KeptBut r a b) (m : ∀ e ∈ r, e ∈ q) : KeptBut q a b :=
  fun k n => x k fun e i => n e (m e i)

/-- What is outside the ranges of an event is no register of an event. -/
theorem eventKey_of_ranges {k : Nat} (n : ∀ r ∈ eventRanges, k < r.1 ∨ r.2 < k) : eventKey k = false := by
  simp only [eventRanges, List.mem_cons, List.not_mem_nil, or_false, forall_eq_or_imp, forall_eq] at n
  unfold eventKey
  simp only [Bool.or_eq_false_iff, decide_eq_false_iff_not, beq_eq_false_iff_ne]
  omega

theorem accessKey_of_ranges {k : Nat} (n : ∀ r ∈ pathRanges, k < r.1 ∨ r.2 < k) : accessKey k = false := by
  simp only [pathRanges, eventRanges, List.mem_cons, List.not_mem_nil, or_false, forall_eq_or_imp, forall_eq] at n
  unfold accessKey eventKey
  simp only [Bool.or_eq_false_iff, decide_eq_false_iff_not, beq_eq_false_iff_ne]
  omega

theorem faultKey_of_ranges {k : Nat} (n : ∀ r ∈ faultRanges, k < r.1 ∨ r.2 < k) : faultKey k = false := by
  simp only [faultRanges, eventRanges, List.mem_cons, List.not_mem_nil, or_false, forall_eq_or_imp, forall_eq] at n
  unfold faultKey fuseRegister eventKey
  simp only [Bool.or_eq_false_iff, decide_eq_false_iff_not, beq_eq_false_iff_ne]
  omega

theorem kept_raiseEvent (h : Hub) (e i v : Nat) (he : e < 256) : KeptBut eventRanges h (raiseEvent h e i v) :=
  fun k n => rdW_raiseEvent_of h e i v k he (eventKey_of_ranges n)

theorem kept_raiseKeyed (h : Hub) (c e i v p : Nat) (he : e < 256) : KeptBut eventRanges h (raiseKeyed h c e i v p) :=
  fun k n => rdW_raiseKeyed_of h c e i v p k he (eventKey_of_ranges n)

theorem kept_raiseFault (c i a b : Nat) (h : Hub) : KeptBut faultRanges h (raiseFault c i a b h) :=
  fun k n => rdW_raiseFault_of c i a b h k (faultKey_of_ranges n)

theorem kept_causeGone (c : Nat) (h : Hub) : KeptBut faultRanges h (causeGone c h) :=
  fun k n => rdW_causeGone_of c h k (faultKey_of_ranges n)

theorem kept_writeBegun (p : Path) (i j : Nat) (h : Hub) : KeptBut pathRanges h (writeBegun p i j h) :=
  fun k n => rdW_writeBegun_of p i j h k (accessKey_of_ranges n)

theorem kept_refuse (p : Path) (i j c : Nat) (w : Bool) (h : Hub) : KeptBut pathRanges h (refuse p i j c w h) :=
  fun k n => rdW_refuse_of p i j c w h k (accessKey_of_ranges n)

theorem kept_fuseEvalAll (h : Hub) : KeptBut ((0x3600_00, 0x360F_FF) :: eventRanges) h (fuseEvalAll h) := by
  intro k n
  apply rdW_fuseEvalAll_of
  simp only [eventRanges, List.mem_cons, List.not_mem_nil, or_false, forall_eq_or_imp, forall_eq] at n
  unfold fuseRegister eventKey
  simp only [Bool.or_eq_false_iff, decide_eq_false_iff_not, beq_eq_false_iff_ne]
  omega

theorem kept_wr (h : Hub) (k v : Nat) : KeptBut [(k, k)] h (wr h k v) := by
  intro j n
  have := n (k, k) (by simp)
  simp only at this
  rw [rdW_wr, if_neg (by omega)]

/-- A write inside one of the ranges. -/
theorem KeptBut.wr {r : List (Nat × Nat)} {a b : Hub} (x : KeptBut r a b) (k v : Nat) (m : ∃ e ∈ r, e.1 ≤ k ∧ k ≤ e.2) :
    KeptBut r a (wr b k v) := by
  intro j n
  obtain ⟨e, i, lo, hi⟩ := m
  have := n e i
  rw [rdW_wr, if_neg (by omega)]
  exact x j n

/-- The same register file. -/
theorem KeptBut.same {r : List (Nat × Nat)} {a b c : Hub} (x : KeptBut r a b) (e : c.dict = b.dict) : KeptBut r a c := by
  intro k n
  have : rdW c k = rdW b k := by unfold rdW; rw [e]
  rw [this]; exact x k n

/-! ### Components -/

/-- What agrees but for events agrees but for what `evented` names. -/
theorem evented_of {g h : Hub} (e : noEvent g = noEvent h) : evented h g = g := by
  have : evented (noEvent h) g = evented h g := rfl
  rw [← this, ← e]
  rfl

/-- Raising an event changes only what `evented` names. -/
theorem evented_raiseEvent (h : Hub) (e i v : Nat) : evented h (raiseEvent h e i v) = raiseEvent h e i v :=
  evented_of (noEvent_raiseEvent h e i v)

theorem faulted_of {g h : Hub} (e : noFault g = noFault h) : faulted h g = g := by
  have : faulted (noFault h) g = faulted h g := rfl
  rw [← this, ← e]
  rfl

/-- Raising a fault changes only what `faulted` names. -/
theorem faulted_raiseFault (c i a b : Nat) (h : Hub) : faulted h (raiseFault c i a b h) = raiseFault c i a b h :=
  faulted_of (noFault_raiseFault c i a b h)

end Sys2Proof.Machine
end

