-- ==== Sys2Proof/Laws/SoundOps.lean ====
section
/-! SUPPORT. Every operation of Ops.lean keeps a hub sound. -/

set_option linter.unusedTactic false
set_option linter.unreachableTactic false
set_option linter.unusedVariables false

namespace Sys2Proof.Machine

theorem wrW_sound (h : Hub) (key : Nat) (v : Word) (hp : h.Sound) : (wrW h key v).Sound :=
  ⟨cellsWf_cellSet _ _ _ _ hp.1, hp.2⟩

theorem wr_sound (h : Hub) (key : ℕ) (v : ℕ) (hp_h : h.Sound) : (wr h key v).Sound := by
  unfold wr
  try dsimp only
  repeat' first | with_reducible assumption | with_reducible intro _ | with_reducible apply wrW_sound | (with_reducible apply sound_intro; dsimp only; with_reducible apply sound_elim) | split

theorem wrs_sound (l : List (Nat × Nat)) (h : Hub) (hp : h.Sound) : (wrs h l).Sound := by
  induction l generalizing h with
  | nil => exact hp
  | cons e l ih => exact ih _ (wrW_sound _ _ _ hp)

theorem bumpBy_sound (h : Hub) (key : ℕ) (n : ℕ) (hp_h : h.Sound) : (bumpBy h key n).Sound := by
  unfold bumpBy
  try dsimp only
  repeat' first | with_reducible assumption | with_reducible intro _ | with_reducible apply wr_sound | (with_reducible apply sound_intro; dsimp only; with_reducible apply sound_elim) | split

theorem bump_sound (h : Hub) (key : ℕ) (hp_h : h.Sound) : (bump h key).Sound := by
  unfold bump
  try dsimp only
  repeat' first | with_reducible assumption | with_reducible intro _ | with_reducible apply bumpBy_sound | (with_reducible apply sound_intro; dsimp only; with_reducible apply sound_elim) | split

theorem peak_sound (h : Hub) (key : ℕ) (v : ℕ) (hp_h : h.Sound) : (peak h key v).Sound := by
  unfold peak
  try dsimp only
  repeat' first | with_reducible assumption | with_reducible intro _ | with_reducible apply wr_sound | (with_reducible apply sound_intro; dsimp only; with_reducible apply sound_elim) | split

theorem toDefault_sound (h : Hub) (key : ℕ) (hp_h : h.Sound) : (toDefault h key).Sound := by
  unfold toDefault
  try dsimp only
  repeat' first | with_reducible assumption | with_reducible intro _ | with_reducible apply wrW_sound | (with_reducible apply sound_intro; dsimp only; with_reducible apply sound_elim) | split

theorem takeFree_sound (h : Hub) (hp_h : h.Sound) : (takeFree h).2.Sound := by
  unfold takeFree
  try dsimp only
  repeat' first | with_reducible assumption | with_reducible intro _ | (with_reducible apply sound_intro; dsimp only; with_reducible apply sound_elim) | split

theorem whenDo_sound (c : Bool) (f : Hub → Hub) (h : Hub) (hf_f : ∀ x, x.Sound → (f x).Sound) (hp_h : h.Sound) : (whenDo c f h).Sound := by
  unfold whenDo
  try dsimp only
  repeat' first | with_reducible assumption | with_reducible intro _ | with_reducible apply hf_f | (with_reducible apply sound_intro; dsimp only; with_reducible apply sound_elim) | split

theorem forEach_sound {α : Type} (l : List α) (f : α → Hub → Hub) (h : Hub) (hf : ∀ a x, x.Sound → (f a x).Sound)
    (hp : h.Sound) : (forEach l f h).Sound := by
  unfold forEach
  induction l generalizing h with
  | nil => exact hp
  | cons a l ih => exact ih _ (hf a h hp)

theorem answered_sound (a : Answer) (h : Hub) (hp_h : h.Sound) : (answered a h).Sound := by
  unfold answered
  try dsimp only
  repeat' first | with_reducible assumption | with_reducible intro _ | (with_reducible apply sound_intro; dsimp only; with_reducible apply sound_elim) | split

theorem wrStamp_sound (h : Hub) (key : ℕ) (island : ℕ) (hp_h : h.Sound) : (wrStamp h key island).Sound := by
  unfold wrStamp
  try dsimp only
  repeat' first | with_reducible assumption | with_reducible intro _ | with_reducible apply wr_sound | (with_reducible apply sound_intro; dsimp only; with_reducible apply sound_elim) | split

theorem wrTime_sound (h : Hub) (key : ℕ) (hp_h : h.Sound) : (wrTime h key).Sound := by
  unfold wrTime
  try dsimp only
  repeat' first | with_reducible assumption | with_reducible intro _ | with_reducible apply wr_sound | (with_reducible apply sound_intro; dsimp only; with_reducible apply sound_elim) | split

theorem pushLog_sound (h : Hub) (base : ℕ) (w : ℕ) (n : ℕ) (ws : List ℕ) (hp_h : h.Sound) : (pushLog h base w n ws).Sound := by
  unfold pushLog
  try dsimp only
  repeat' first | with_reducible assumption | with_reducible intro _ | with_reducible apply wrs_sound | (with_reducible apply sound_intro; dsimp only; with_reducible apply sound_elim) | split

theorem takeInjectionAt_sound (m : ℕ) (modulus : ℕ) (h : Hub) (hp_h : h.Sound) : (takeInjectionAt m modulus h).2.Sound := by
  unfold takeInjectionAt
  try dsimp only
  repeat' first | with_reducible assumption | with_reducible intro _ | (with_reducible apply sound_intro; dsimp only; with_reducible apply sound_elim) | split

theorem takeInjection_sound (m : ℕ) (h : Hub) (hp_h : h.Sound) : (takeInjection m h).2.Sound := by
  unfold takeInjection
  try dsimp only
  repeat' first | with_reducible assumption | with_reducible intro _ | with_reducible apply takeInjectionAt_sound | (with_reducible refine pair_sound ‹_ = (_, _)› ?_) | (with_reducible apply sound_intro; dsimp only; with_reducible apply sound_elim) | split

theorem takeProgramInjection_sound (n : ℕ) (h : Hub) (hp_h : h.Sound) : (takeProgramInjection n h).2.Sound := by
  unfold takeProgramInjection
  try dsimp only
  repeat' first | with_reducible assumption | with_reducible intro _ | with_reducible apply takeInjectionAt_sound | (with_reducible refine pair_sound ‹_ = (_, _)› ?_) | (with_reducible apply sound_intro; dsimp only; with_reducible apply sound_elim) | split

end Sys2Proof.Machine
end

