-- ==== Sys2Proof/Laws/SoundFlags.lean ====
section
/-! SUPPORT. Every operation of Flags.lean keeps a hub sound. -/

set_option linter.unusedTactic false
set_option linter.unreachableTactic false
set_option linter.unusedVariables false

namespace Sys2Proof.Machine

theorem enqueue_sound (h : Hub) (p : ℕ) (f : Frame) (hp_h : h.Sound) : (enqueue h p f).Sound := by
  unfold enqueue
  try dsimp only
  repeat' first | with_reducible assumption | with_reducible intro _ | (with_reducible apply sound_intro; dsimp only; with_reducible apply sound_elim) | split

theorem originate_sound (h : Hub) (p : ℕ) (ftype : ℕ) (c : Cls) (dst : ℕ) (specific : ℕ) (group : ℕ) (payload : List Word) (hp_h : h.Sound) : (originate h p ftype c dst specific group payload).Sound := by
  unfold originate
  try dsimp only
  repeat' first | with_reducible assumption | with_reducible intro _ | with_reducible apply enqueue_sound | (with_reducible apply sound_intro; dsimp only; with_reducible apply sound_elim) | split

theorem requestMsix_sound (h : Hub) (v : Nat) (hp : h.Sound) : (requestMsix h v).Sound := by
  unfold requestMsix
  split
  · next c =>
    refine ⟨hp.1, hp.2.1, hp.2.2.1, ?_⟩
    simp only [Bool.and_eq_true, Bool.not_eq_true', List.contains_eq_mem, decide_eq_false_iff_not] at c
    exact List.nodup_append.2 ⟨hp.2.2.2, by simp, fun a m b n => by
      rw [List.mem_singleton] at n; subst n; rintro rfl; exact c.2 m⟩
  · exact hp

theorem raiseLocal_sound (h : Hub) (e : ℕ) (inst : ℕ) (value : ℕ) (hp_h : h.Sound) : (raiseLocal h e inst value).Sound := by
  unfold raiseLocal
  try dsimp only
  repeat' first | with_reducible assumption | with_reducible intro _ | with_reducible apply wr_sound | with_reducible apply pushLog_sound | with_reducible apply requestMsix_sound | (with_reducible apply sound_intro; dsimp only; with_reducible apply sound_elim) | split

theorem ringEventFrame_sound (h : Hub) (c : ℕ) (e : ℕ) (inst : ℕ) (value : ℕ) (hp_h : h.Sound) : (ringEventFrame h c e inst value).Sound := by
  unfold ringEventFrame
  try dsimp only
  repeat' first | with_reducible assumption | with_reducible intro _ | with_reducible apply bump_sound | with_reducible apply raiseLocal_sound | with_reducible apply originate_sound | (with_reducible apply sound_intro; dsimp only; with_reducible apply sound_elim) | split

theorem raiseEvent_sound (h : Hub) (e : ℕ) (inst : ℕ) (value : ℕ) (hp_h : h.Sound) : (raiseEvent h e inst value).Sound := by
  unfold raiseEvent
  try dsimp only
  repeat' first | with_reducible assumption | with_reducible intro _ | with_reducible apply raiseLocal_sound | with_reducible apply ringEventFrame_sound | (with_reducible apply sound_intro; dsimp only; with_reducible apply sound_elim) | split

theorem raiseKeyed_sound (h : Hub) (key : ℕ) (e : ℕ) (inst : ℕ) (value : ℕ) (period : ℕ) (hp_h : h.Sound) : (raiseKeyed h key e inst value period).Sound := by
  unfold raiseKeyed
  try dsimp only
  repeat' first | with_reducible assumption | with_reducible intro _ | with_reducible apply raiseEvent_sound | (with_reducible apply sound_intro; dsimp only; with_reducible apply sound_elim) | split

theorem raiseLimited_sound (h : Hub) (e : ℕ) (inst : ℕ) (value : ℕ) (cause : ℕ) (period : ℕ) (hp_h : h.Sound) : (raiseLimited h e inst value cause period).Sound := by
  unfold raiseLimited
  try dsimp only
  repeat' first | with_reducible assumption | with_reducible intro _ | with_reducible apply raiseKeyed_sound | (with_reducible apply sound_intro; dsimp only; with_reducible apply sound_elim) | split

theorem cycEvent_sound (h : Hub) (e : ℕ) (inst : ℕ) (value : ℕ) (cause : ℕ) (hp_h : h.Sound) : (cycEvent h e inst value cause).Sound := by
  unfold cycEvent
  try dsimp only
  repeat' first | with_reducible assumption | with_reducible intro _ | with_reducible apply raiseEvent_sound | (with_reducible apply sound_intro; dsimp only; with_reducible apply sound_elim) | split

theorem raise16ms_sound (h : Hub) (e : ℕ) (inst : ℕ) (value : ℕ) (cause : ℕ) (hp_h : h.Sound) : (raise16ms h e inst value cause).Sound := by
  unfold raise16ms
  try dsimp only
  repeat' first | with_reducible assumption | with_reducible intro _ | with_reducible apply raiseLimited_sound | (with_reducible apply sound_intro; dsimp only; with_reducible apply sound_elim) | split

end Sys2Proof.Machine
end

