-- ==== Sys2Proof/Laws/SoundFuseOps.lean ====
section
/-! SUPPORT. Every operation of FuseOps.lean keeps a hub sound. -/

set_option linter.unusedTactic false
set_option linter.unreachableTactic false
set_option linter.unusedVariables false

namespace Sys2Proof.Machine

theorem setFuse_sound (h : Hub) (n : ℕ) (c : FuseCh) (hp_h : h.Sound) : (setFuse h n c).Sound := by
  unfold setFuse
  try dsimp only
  repeat' first | with_reducible assumption | with_reducible intro _ | (with_reducible apply sound_intro; dsimp only; with_reducible apply sound_elim) | split

theorem fuseStart_sound (n : ℕ) (retry : Bool) (h : Hub) (hp_h : h.Sound) : (fuseStart n retry h).Sound := by
  unfold fuseStart
  try dsimp only
  repeat' first | with_reducible assumption | with_reducible intro _ | with_reducible apply wr_sound | with_reducible apply setFuse_sound | (with_reducible apply sound_intro; dsimp only; with_reducible apply sound_elim) | split

theorem fuseOff_sound (n : ℕ) (st : ℕ) (h : Hub) (hp_h : h.Sound) : (fuseOff n st h).Sound := by
  unfold fuseOff
  try dsimp only
  repeat' first | with_reducible assumption | with_reducible intro _ | with_reducible apply wr_sound | with_reducible apply setFuse_sound | (with_reducible apply sound_intro; dsimp only; with_reducible apply sound_elim) | split

theorem fuseIdle_sound (n : ℕ) (h : Hub) (hp_h : h.Sound) : (fuseIdle n h).Sound := by
  unfold fuseIdle
  try dsimp only
  repeat' first | with_reducible assumption | with_reducible intro _ | with_reducible apply raise16ms_sound | with_reducible apply wr_sound | with_reducible apply setFuse_sound | with_reducible apply fuseStart_sound | (with_reducible apply sound_intro; dsimp only; with_reducible apply sound_elim) | split

theorem fuseEval_sound (n : ℕ) (h : Hub) (hp_h : h.Sound) : (fuseEval n h).Sound := by
  unfold fuseEval
  try dsimp only
  repeat' first | with_reducible assumption | with_reducible intro _ | with_reducible apply whenDo_sound | with_reducible apply fuseIdle_sound | with_reducible apply fuseOff_sound | (with_reducible apply sound_intro; dsimp only; with_reducible apply sound_elim) | split

theorem fuseEvalAll_sound (h : Hub) (hp_h : h.Sound) : (fuseEvalAll h).Sound := by
  unfold fuseEvalAll
  try dsimp only
  repeat' first | with_reducible assumption | with_reducible intro _ | with_reducible apply fuseEval_sound | with_reducible apply forEach_sound | (with_reducible apply sound_intro; dsimp only; with_reducible apply sound_elim) | split

end Sys2Proof.Machine
end

