-- ==== Sys2Proof/Laws/SoundFaults.lean ====
section
/-! SUPPORT. Every operation of Faults.lean keeps a hub sound. -/

set_option linter.unusedTactic false
set_option linter.unreachableTactic false
set_option linter.unusedVariables false

namespace Sys2Proof.Machine

theorem releaseCan_sound (h : Hub) (hp_h : h.Sound) : (releaseCan h).Sound := by
  unfold releaseCan
  try dsimp only
  repeat' first | with_reducible assumption | with_reducible intro _ | with_reducible apply wr_sound | with_reducible apply forEach_sound | (with_reducible apply sound_intro; dsimp only; with_reducible apply sound_elim) | split

theorem settle_sound (wasOut : Bool) (wasSafe : Bool) (h0 : Hub) (hp_h0 : h0.Sound) : (settle wasOut wasSafe h0).Sound := by
  unfold settle
  try dsimp only
  repeat' first | with_reducible assumption | with_reducible intro _ | with_reducible apply whenDo_sound | with_reducible apply raiseEvent_sound | with_reducible apply fuseEvalAll_sound | with_reducible apply wr_sound | with_reducible apply releaseCan_sound | (with_reducible apply sound_intro; dsimp only; with_reducible apply sound_elim) | split

theorem withReactions_sound (f : Hub → Hub) (h : Hub) (hf_f : ∀ x, x.Sound → (f x).Sound) (hp_h : h.Sound) : (withReactions f h).Sound := by
  unfold withReactions
  try dsimp only
  repeat' first | with_reducible assumption | with_reducible intro _ | with_reducible apply hf_f | with_reducible apply settle_sound | (with_reducible apply sound_intro; dsimp only; with_reducible apply sound_elim) | split

theorem putRecord_sound (h : Hub) (code : ℕ) (r : FaultRec) (hp_h : h.Sound) : (putRecord h code r).Sound := by
  unfold putRecord
  try dsimp only
  repeat' first | with_reducible assumption | with_reducible intro _ | (with_reducible apply sound_intro; dsimp only; with_reducible apply sound_elim) | split

theorem escalate_sound (code : ℕ) (r : FaultRec) (h : Hub) (hp_h : h.Sound) : (escalate code r h).Sound := by
  unfold escalate
  try dsimp only
  repeat' first | with_reducible assumption | with_reducible intro _ | with_reducible apply putRecord_sound | with_reducible apply bump_sound | with_reducible apply raiseEvent_sound | (with_reducible apply sound_intro; dsimp only; with_reducible apply sound_elim) | split

theorem capture_sound (code : ℕ) (r : FaultRec) (h : Hub) (hp_h : h.Sound) : (capture code r h).Sound := by
  unfold capture
  try dsimp only
  repeat' first | with_reducible assumption | with_reducible intro _ | with_reducible apply wr_sound | with_reducible apply wrs_sound | (with_reducible apply sound_intro; dsimp only; with_reducible apply sound_elim) | split

theorem countOccurrence_sound (code : ℕ) (h : Hub) (hp_h : h.Sound) : (countOccurrence code h).Sound := by
  unfold countOccurrence
  try dsimp only
  repeat' first | with_reducible assumption | with_reducible intro _ | (with_reducible apply sound_intro; dsimp only; with_reducible apply sound_elim) | split

theorem newRecord_sound (code : ℕ) (island : ℕ) (a : ℕ) (b : ℕ) (h : Hub) (hp_h : h.Sound) : (newRecord code island a b h).Sound := by
  unfold newRecord
  try dsimp only
  repeat' first | with_reducible assumption | with_reducible intro _ | with_reducible apply putRecord_sound | with_reducible apply escalate_sound | with_reducible apply bump_sound | with_reducible apply raiseEvent_sound | with_reducible apply capture_sound | with_reducible apply pushLog_sound | (with_reducible apply sound_intro; dsimp only; with_reducible apply sound_elim) | split

theorem repeatRecord_sound (code : ℕ) (r : FaultRec) (h : Hub) (hp_h : h.Sound) : (repeatRecord code r h).Sound := by
  unfold repeatRecord
  try dsimp only
  repeat' first | with_reducible assumption | with_reducible intro _ | with_reducible apply escalate_sound | (with_reducible apply sound_intro; dsimp only; with_reducible apply sound_elim) | split

theorem markGone_sound (code : ℕ) (h : Hub) (hp_h : h.Sound) : (markGone code h).Sound := by
  unfold markGone
  try dsimp only
  repeat' first | with_reducible assumption | with_reducible intro _ | with_reducible apply putRecord_sound | (with_reducible apply sound_intro; dsimp only; with_reducible apply sound_elim) | split

theorem causeGone_sound (code : ℕ) (h : Hub) (hp_h : h.Sound) : (causeGone code h).Sound := by
  unfold causeGone
  try dsimp only
  repeat' first | with_reducible assumption | with_reducible intro _ | with_reducible apply withReactions_sound | with_reducible apply markGone_sound | (with_reducible apply sound_intro; dsimp only; with_reducible apply sound_elim) | split

theorem raiseFault_sound (code : ℕ) (island : ℕ) (a : ℕ) (b : ℕ) (h : Hub) (hp_h : h.Sound) : (raiseFault code island a b h).Sound := by
  unfold raiseFault
  try dsimp only
  repeat' first | with_reducible assumption | with_reducible intro _ | with_reducible apply repeatRecord_sound | with_reducible apply withReactions_sound | with_reducible apply countOccurrence_sound | with_reducible apply newRecord_sound | with_reducible apply causeGone_sound | (with_reducible apply sound_intro; dsimp only; with_reducible apply sound_elim) | split

theorem raiseInjected_sound (code : ℕ) (island : ℕ) (a : ℕ) (b : ℕ) (h : Hub) (hp_h : h.Sound) : (raiseInjected code island a b h).Sound := by
  unfold raiseInjected
  try dsimp only
  repeat' first | with_reducible assumption | with_reducible intro _ | with_reducible apply raiseFault_sound | (with_reducible apply sound_intro; dsimp only; with_reducible apply sound_elim) | split

theorem dropRecord_sound (code : ℕ) (h : Hub) (hp_h : h.Sound) : (dropRecord code h).Sound := by
  unfold dropRecord
  try dsimp only
  repeat' first | with_reducible assumption | with_reducible intro _ | with_reducible apply raiseEvent_sound | (with_reducible apply sound_intro; dsimp only; with_reducible apply sound_elim) | split

end Sys2Proof.Machine
end

