-- ==== Sys2Proof/Laws/SoundCrossings.lean ====
section
/-! SUPPORT. Every operation of Crossings.lean keeps a hub sound. -/

set_option linter.unusedTactic false
set_option linter.unreachableTactic false
set_option linter.unusedVariables false

namespace Sys2Proof.Machine

theorem crossing_ok (h : Hub) (src dst : Nat) (hp : h.Sound) : crossingOk (crossing h src dst) :=
  tabGet_has crossingOk _ _ _ ⟨by decide, by simp [crossingInit]⟩ hp.2.2.1

theorem setCrossing_sound (h : Hub) (src dst : Nat) (x : Crossing) (hp : h.Sound) (c : crossingOk x) :
    (setCrossing h src dst x).Sound := by
  refine ⟨hp.1, hp.2.1, ?_, hp.2.2.2⟩
  intro e m
  rcases mem_tabSet m with rfl | m
  · exact c
  · exact hp.2.2.1 e m

theorem takeParity_sound (src : ℕ) (dst : ℕ) (h : Hub) (hp_h : h.Sound) : (takeParity src dst h).2.Sound := by
  unfold takeParity
  try dsimp only
  repeat' first | with_reducible assumption | with_reducible intro _ | (with_reducible apply sound_intro; dsimp only; with_reducible apply sound_elim) | split

theorem parityFault_sound (src : ℕ) (dst : ℕ) (bad : Bool) (h : Hub) (hp_h : h.Sound) : (parityFault src dst bad h).Sound := by
  unfold parityFault
  try dsimp only
  repeat' first | with_reducible assumption | with_reducible intro _ | with_reducible apply raiseFault_sound | (with_reducible apply sound_intro; dsimp only; with_reducible apply sound_elim) | split

theorem carried_ok (x : Crossing) (w : XWord) (c : crossingOk x) : crossingOk (carried x w) := by
  unfold carried crossingOk at *
  split
  · next h => exact ⟨by simp; omega, fun n => absurd h.2 n⟩
  · next h =>
    refine ⟨c.1, fun _ => ?_⟩
    show x.entries.length = 4
    by_cases w : x.waiting = []
    · have : ¬ x.entries.length < 4 := fun l => h ⟨l, w⟩
      have := c.1
      omega
    · exact c.2 w

theorem creditsReturn_ok (x : Crossing) : crossingOk (creditsReturn x) := by
  unfold creditsReturn crossingOk
  dsimp only
  refine ⟨by simp, fun n => ?_⟩
  have : 4 < x.waiting.length := by
    rcases Nat.lt_or_ge 4 x.waiting.length with l | l
    · exact l
    · exact absurd (List.drop_eq_nil_of_le l) n
  rw [List.length_take]
  omega

theorem drained_ok (x : Crossing) (c : crossingOk x) : crossingOk (drained x) := by
  unfold drained
  split
  · exact c
  · exact ⟨by simp, by simp⟩

theorem crossingMove_sound (src dst : Nat) (word : XWord) (parityOk : Bool) (h0 : Hub) (hp : h0.Sound) :
    (crossingMove src dst word parityOk h0).Sound := by
  have c := crossing_ok h0 src dst hp
  have s : ∀ w, (setCrossing (takeParity src dst h0).2 src dst (carried (crossing h0 src dst) w)).Sound := fun w =>
    setCrossing_sound _ _ _ _ (takeParity_sound _ _ _ hp) (carried_ok _ _ c)
  unfold crossingMove
  simp only
  split
  · exact setCrossing_sound _ _ _ _ hp c
  · split
    · exact s _
    · exact parityFault_sound _ _ _ _ (s _)

theorem crossingsTick_sound (h : Hub) (hp : h.Sound) : (crossingsTick h).Sound := by
  refine ⟨hp.1, hp.2.1, ?_, hp.2.2.2⟩
  intro e m
  obtain ⟨x, hx, rfl⟩ := List.mem_map.1 m
  dsimp only
  split
  · exact hp.2.2.1 x hx
  · exact creditsReturn_ok _

theorem crossingLate_sound (src dst : Nat) (h : Hub) (hp : h.Sound) : (crossingLate src dst h).Sound := by
  unfold crossingLate
  dsimp only
  split
  · exact hp
  · exact raiseFault_sound _ _ _ _ _ (setCrossing_sound _ _ _ _ hp ⟨by simp, by simp⟩)

theorem reopen_sound (key : Nat) (h : Hub) (hp : h.Sound) : (reopen key h).Sound := by
  unfold reopen
  dsimp only
  split
  · exact setCrossing_sound _ _ _ _ hp (crossing_ok h _ _ hp)
  · exact hp

theorem drainCrossings_sound (d : Nat) (h : Hub) (hp : h.Sound) : (drainCrossings d h).Sound := by
  refine ⟨hp.1, hp.2.1, ?_, hp.2.2.2⟩
  intro e m
  obtain ⟨x, hx, rfl⟩ := List.mem_map.1 m
  dsimp only
  split
  · exact drained_ok _ (hp.2.2.1 x hx)
  · exact hp.2.2.1 x hx

theorem crossWord_sound (src dst : Nat) (w : XWord) (h : Hub) (hp : h.Sound) : (crossWord src dst w h).2.Sound := by
  have c := crossing_ok h src dst hp
  unfold crossWord
  split
  · exact setCrossing_sound _ _ _ _ hp c
  · split
    · exact parityFault_sound _ _ _ _ (setCrossing_sound _ _ _ _ (takeParity_sound _ _ _ hp) (drained_ok _ c))
    · split
      · exact hp
      · exact setCrossing_sound _ _ _ _ hp (drained_ok _ c)

theorem crossWords_sound (src : ℕ) (dst : ℕ) (y0 : List XWord) (h : Hub) (hp : h.Sound) : (crossWords src dst y0 h).2.Sound := by
  revert hp
  fun_induction crossWords src dst y0 h <;> intro hp <;> (try dsimp only) <;>
  repeat' first | with_reducible assumption | with_reducible intro _ | with_reducible apply crossWord_sound | (with_reducible refine pair_sound ‹_ = (_, _)› ?_) | (with_reducible apply sound_intro; dsimp only; with_reducible apply sound_elim) | (with_reducible apply_assumption) | split

theorem crossValue_sound (src : ℕ) (dst : ℕ) (w : Word) (h : Hub) (hp_h : h.Sound) : (crossValue src dst w h).2.Sound := by
  unfold crossValue
  try dsimp only
  repeat' first | with_reducible assumption | with_reducible intro _ | with_reducible apply crossWord_sound | (with_reducible refine pair_sound ‹_ = (_, _)› ?_) | (with_reducible apply sound_intro; dsimp only; with_reducible apply sound_elim) | split

theorem valueOver_sound (src : ℕ) (dst : ℕ) (act : Word → Hub → Hub) (w : Word) (h : Hub) (hf_act : ∀ a0 x, x.Sound → (act a0 x).Sound) (hp_h : h.Sound) : (valueOver src dst act w h).Sound := by
  unfold valueOver
  try dsimp only
  repeat' first | with_reducible assumption | with_reducible intro _ | with_reducible apply hf_act | with_reducible apply crossValue_sound | (with_reducible refine pair_sound ‹_ = (_, _)› ?_) | (with_reducible apply sound_intro; dsimp only; with_reducible apply sound_elim) | split

theorem crossFrame_sound (src : ℕ) (dst : ℕ) (f : Frame) (h : Hub) (hp_h : h.Sound) : (crossFrame src dst f h).2.Sound := by
  unfold crossFrame
  try dsimp only
  repeat' first | with_reducible assumption | with_reducible intro _ | with_reducible apply bump_sound | with_reducible apply crossWords_sound | (with_reducible refine pair_sound ‹_ = (_, _)› ?_) | (with_reducible apply sound_intro; dsimp only; with_reducible apply sound_elim) | split

theorem sendOver_sound (src : ℕ) (dst : ℕ) (act : Frame → Hub → Hub) (f : Frame) (h : Hub) (hf_act : ∀ a0 x, x.Sound → (act a0 x).Sound) (hp_h : h.Sound) : (sendOver src dst act f h).Sound := by
  unfold sendOver
  try dsimp only
  repeat' first | with_reducible assumption | with_reducible intro _ | with_reducible apply hf_act | with_reducible apply crossFrame_sound | (with_reducible refine pair_sound ‹_ = (_, _)› ?_) | (with_reducible apply sound_intro; dsimp only; with_reducible apply sound_elim) | split

end Sys2Proof.Machine
end

