-- ==== Sys2Proof/Laws/SoundOperands.lean ====
section
/-! SUPPORT. Every operation of Operands.lean keeps a hub sound. -/

set_option linter.unusedTactic false
set_option linter.unreachableTactic false
set_option linter.unusedVariables false

namespace Sys2Proof.Machine

theorem setPath_sound (h : Hub) (p : Path) (x : PathState) (hp_h : h.Sound) : (setPath h p x).Sound := by
  unfold setPath
  try dsimp only
  repeat' first | with_reducible assumption | with_reducible intro _ | (with_reducible apply sound_intro; dsimp only; with_reducible apply sound_elim) | split

theorem setSession_sound (h : Hub) (p : Path) (x : Session) (hp_h : h.Sound) : (setSession h p x).Sound := by
  unfold setSession
  try dsimp only
  repeat' first | with_reducible assumption | with_reducible intro _ | (with_reducible apply sound_intro; dsimp only; with_reducible apply sound_elim) | split

theorem refuse_sound (p : Path) (index : ℕ) (sub : ℕ) (code : ℕ) (write : Bool) (h : Hub) (hp_h : h.Sound) : (refuse p index sub code write h).Sound := by
  unfold refuse
  try dsimp only
  repeat' first | with_reducible assumption | with_reducible intro _ | with_reducible apply whenDo_sound | with_reducible apply bump_sound | with_reducible apply wrStamp_sound | with_reducible apply raiseEvent_sound | with_reducible apply answered_sound | with_reducible apply wrs_sound | (with_reducible apply sound_intro; dsimp only; with_reducible apply sound_elim) | split

theorem touch_sound (p : Path) (h : Hub) (hp_h : h.Sound) : (touch p h).Sound := by
  unfold touch
  try dsimp only
  repeat' first | with_reducible assumption | with_reducible intro _ | with_reducible apply setSession_sound | (with_reducible apply sound_intro; dsimp only; with_reducible apply sound_elim) | split

theorem dropHeld_sound (p : Path) (key : ℕ) (h : Hub) (hp_h : h.Sound) : (dropHeld p key h).Sound := by
  unfold dropHeld
  try dsimp only
  repeat' first | with_reducible assumption | with_reducible intro _ | with_reducible apply setPath_sound | with_reducible apply refuse_sound | (with_reducible apply sound_intro; dsimp only; with_reducible apply sound_elim) | split

theorem dropHalf_sound (p : Path) (write : Bool) (key : ℕ) (h : Hub) (hp_h : h.Sound) : (dropHalf p write key h).Sound := by
  unfold dropHalf
  try dsimp only
  repeat' first | with_reducible assumption | with_reducible intro _ | (with_reducible apply sound_intro; dsimp only; with_reducible apply sound_elim) | split

theorem noteUnstored_sound (index : ℕ) (sub : ℕ) (h : Hub) (hp_h : h.Sound) : (noteUnstored index sub h).Sound := by
  unfold noteUnstored
  try dsimp only
  repeat' first | with_reducible assumption | with_reducible intro _ | (with_reducible apply sound_intro; dsimp only; with_reducible apply sound_elim) | split

theorem holdAccess_sound (a : HeldAccess) (h : Hub) (hp_h : h.Sound) : (holdAccess a h).Sound := by
  unfold holdAccess
  try dsimp only
  repeat' first | with_reducible assumption | with_reducible intro _ | with_reducible apply answered_sound | (with_reducible apply sound_intro; dsimp only; with_reducible apply sound_elim) | split

theorem hostTlp_sound (p : Path) (key : ℕ) (h : Hub) (hp_h : h.Sound) : (hostTlp p key h).Sound := by
  unfold hostTlp
  try dsimp only
  repeat' first | with_reducible assumption | with_reducible intro _ | with_reducible apply bump_sound | (with_reducible apply sound_intro; dsimp only; with_reducible apply sound_elim) | split

theorem readTouch_sound (p : Path) (index : ℕ) (sub : ℕ) (h : Hub) (hp_h : h.Sound) : (readTouch p index sub h).Sound := by
  unfold readTouch
  try dsimp only
  repeat' first | with_reducible assumption | with_reducible intro _ | with_reducible apply hostTlp_sound | with_reducible apply dropHalf_sound | with_reducible apply touch_sound | (with_reducible apply sound_intro; dsimp only; with_reducible apply sound_elim) | split

theorem writeBegun_sound (p : Path) (index : ℕ) (sub : ℕ) (h : Hub) (hp_h : h.Sound) : (writeBegun p index sub h).Sound := by
  unfold writeBegun
  try dsimp only
  repeat' first | with_reducible assumption | with_reducible intro _ | with_reducible apply hostTlp_sound | with_reducible apply dropHeld_sound | with_reducible apply dropHalf_sound | with_reducible apply touch_sound | (with_reducible apply sound_intro; dsimp only; with_reducible apply sound_elim) | split

theorem pathTry_sound (p : Path) (index : ℕ) (sub : ℕ) (value : ℕ) (causes : Hub → Causes → Causes) (f : Hub → Hub) (h0 : Hub) (hf_f : ∀ x, x.Sound → (f x).Sound) (hp_h0 : h0.Sound) : (pathTry p index sub value causes f h0).Sound := by
  unfold pathTry
  try dsimp only
  repeat' first | with_reducible assumption | with_reducible intro _ | with_reducible apply hf_f | with_reducible apply answered_sound | with_reducible apply writeBegun_sound | with_reducible apply refuse_sound | (with_reducible apply sound_intro; dsimp only; with_reducible apply sound_elim) | split

theorem endHalf_sound (p : Path) (h : Hub) (hp_h : h.Sound) : (endHalf p h).Sound := by
  unfold endHalf
  try dsimp only
  repeat' first | with_reducible assumption | with_reducible intro _ | (with_reducible apply sound_intro; dsimp only; with_reducible apply sound_elim) | split

theorem writeTaken_sound (p : Path) (index : ℕ) (sub : ℕ) (h : Hub) (hp_h : h.Sound) : (writeTaken p index sub h).Sound := by
  unfold writeTaken
  try dsimp only
  repeat' first | with_reducible assumption | with_reducible intro _ | with_reducible apply noteUnstored_sound | with_reducible apply endHalf_sound | (with_reducible apply sound_intro; dsimp only; with_reducible apply sound_elim) | split

theorem pathWrite_sound (p : Path) (index : ℕ) (sub : ℕ) (value : ℕ) (causes : Hub → Causes → Causes) (f : Hub → Hub) (h0 : Hub) (hf_f : ∀ x, x.Sound → (f x).Sound) (hp_h0 : h0.Sound) : (pathWrite p index sub value causes f h0).Sound := by
  unfold pathWrite
  try dsimp only
  repeat' first | with_reducible assumption | with_reducible intro _ | with_reducible apply hf_f | with_reducible apply writeTaken_sound | with_reducible apply holdAccess_sound | with_reducible apply pathTry_sound | (with_reducible apply sound_intro; dsimp only; with_reducible apply sound_elim) | split

end Sys2Proof.Machine
end

