-- ==== Sys2Proof/Laws/SoundFifos.lean ====
section
/-! SUPPORT. Every operation of Fifos.lean keeps a hub sound. -/

set_option linter.unusedTactic false
set_option linter.unreachableTactic false
set_option linter.unusedVariables false

namespace Sys2Proof.Machine

theorem setFifo_sound (h : Hub) (f : ℕ) (x : Fifo) (hp_h : h.Sound) : (setFifo h f x).Sound := by
  unfold setFifo
  try dsimp only
  repeat' first | with_reducible assumption | with_reducible intro _ | (with_reducible apply sound_intro; dsimp only; with_reducible apply sound_elim) | split

theorem fifoDeliver_sound (f : ℕ) (h : Hub) (hp_h : h.Sound) : (fifoDeliver f h).Sound := by
  unfold fifoDeliver
  try dsimp only
  repeat' first | with_reducible assumption | with_reducible intro _ | with_reducible apply setFifo_sound | with_reducible apply raiseEvent_sound | (with_reducible apply sound_intro; dsimp only; with_reducible apply sound_elim) | split

theorem stopExpiry_sound (f : ℕ) (h : Hub) (hp_h : h.Sound) : (stopExpiry f h).Sound := by
  unfold stopExpiry
  try dsimp only
  repeat' first | with_reducible assumption | with_reducible intro _ | with_reducible apply bump_sound | with_reducible apply setFifo_sound | with_reducible apply raiseEvent_sound | (with_reducible apply sound_intro; dsimp only; with_reducible apply sound_elim) | split

theorem idleExpiry_sound (f : ℕ) (h : Hub) (hp_h : h.Sound) : (idleExpiry f h).Sound := by
  unfold idleExpiry
  try dsimp only
  repeat' first | with_reducible assumption | with_reducible intro _ | with_reducible apply whenDo_sound | with_reducible apply bump_sound | with_reducible apply setFifo_sound | with_reducible apply fifoDeliver_sound | (with_reducible apply sound_intro; dsimp only; with_reducible apply sound_elim) | split

theorem fifoWatermark_sound (f : ℕ) (h : Hub) (hp_h : h.Sound) : (fifoWatermark f h).Sound := by
  unfold fifoWatermark
  try dsimp only
  repeat' first | with_reducible assumption | with_reducible intro _ | with_reducible apply bump_sound | with_reducible apply raise16ms_sound | with_reducible apply stopExpiry_sound | with_reducible apply setFifo_sound | with_reducible apply fifoDeliver_sound | (with_reducible apply sound_intro; dsimp only; with_reducible apply sound_elim) | split

theorem countDiscarded_sound (n : ℕ) (h : Hub) (hp_h : h.Sound) : (countDiscarded n h).Sound := by
  unfold countDiscarded
  try dsimp only
  repeat' first | with_reducible assumption | with_reducible intro _ | with_reducible apply bumpBy_sound | (with_reducible apply sound_intro; dsimp only; with_reducible apply sound_elim) | split

theorem fifoOversize_sound (f : ℕ) (h : Hub) (hp_h : h.Sound) : (fifoOversize f h).Sound := by
  unfold fifoOversize
  try dsimp only
  repeat' first | with_reducible assumption | with_reducible intro _ | with_reducible apply setFifo_sound | with_reducible apply raiseEvent_sound | with_reducible apply countDiscarded_sound | with_reducible apply peak_sound | (with_reducible apply sound_intro; dsimp only; with_reducible apply sound_elim) | split

theorem fifoErrorFound_sound (f : ℕ) (e : ℕ × ℕ) (h : Hub) (hp_h : h.Sound) : (fifoErrorFound f e h).Sound := by
  unfold fifoErrorFound
  try dsimp only
  repeat' first | with_reducible assumption | with_reducible intro _ | with_reducible apply raiseInjected_sound | with_reducible apply bump_sound | (with_reducible apply sound_intro; dsimp only; with_reducible apply sound_elim) | split

theorem fifoScan_sound (f : ℕ) (n : ℕ) (h : Hub) (hp_h : h.Sound) : (fifoScan f n h).Sound := by
  unfold fifoScan
  try dsimp only
  repeat' first | with_reducible assumption | with_reducible intro _ | with_reducible apply fifoErrorFound_sound | with_reducible apply setFifo_sound | with_reducible apply forEach_sound | (with_reducible apply sound_intro; dsimp only; with_reducible apply sound_elim) | split

theorem fifoCommit_sound (f : ℕ) (w : XWord) (h0 : Hub) (hp_h0 : h0.Sound) : (fifoCommit f w h0).Sound := by
  unfold fifoCommit
  try dsimp only
  repeat' first | with_reducible assumption | with_reducible intro _ | with_reducible apply fifoOversize_sound | with_reducible apply fifoWatermark_sound | with_reducible apply bump_sound | with_reducible apply takeInjection_sound | with_reducible apply setFifo_sound | with_reducible apply fifoDeliver_sound | with_reducible apply countDiscarded_sound | with_reducible apply peak_sound | with_reducible apply idleExpiry_sound | (with_reducible refine pair_sound ‹_ = (_, _)› ?_) | (with_reducible apply sound_intro; dsimp only; with_reducible apply sound_elim) | split

theorem fifoFlushPacker_sound (f : ℕ) (endMark : Bool) (h : Hub) (hp_h : h.Sound) : (fifoFlushPacker f endMark h).Sound := by
  unfold fifoFlushPacker
  try dsimp only
  repeat' first | with_reducible assumption | with_reducible intro _ | with_reducible apply fifoCommit_sound | with_reducible apply setFifo_sound | (with_reducible apply sound_intro; dsimp only; with_reducible apply sound_elim) | split

theorem fifoStore_sound (f : ℕ) (w : XWord) (h : Hub) (hp_h : h.Sound) : (fifoStore f w h).Sound := by
  unfold fifoStore
  try dsimp only
  repeat' first | with_reducible assumption | with_reducible intro _ | with_reducible apply fifoFlushPacker_sound | with_reducible apply fifoCommit_sound | (with_reducible apply sound_intro; dsimp only; with_reducible apply sound_elim) | split

theorem fifoPackByte_sound (f : ℕ) (b : Byte) (h : Hub) (hp_h : h.Sound) : (fifoPackByte f b h).Sound := by
  unfold fifoPackByte
  try dsimp only
  repeat' first | with_reducible assumption | with_reducible intro _ | with_reducible apply fifoWatermark_sound | with_reducible apply fifoFlushPacker_sound | with_reducible apply setFifo_sound | (with_reducible apply sound_intro; dsimp only; with_reducible apply sound_elim) | split

theorem fifoPackUnit_sound (f : ℕ) (bs : List Byte) (endMark : Bool) (h : Hub) (hp_h : h.Sound) : (fifoPackUnit f bs endMark h).Sound := by
  unfold fifoPackUnit
  try dsimp only
  repeat' first | with_reducible assumption | with_reducible intro _ | with_reducible apply fifoPackByte_sound | with_reducible apply fifoFlushPacker_sound | with_reducible apply setFifo_sound | (with_reducible apply sound_intro; dsimp only; with_reducible apply sound_elim) | split

theorem sendCredit_sound (f : ℕ) (h : Hub) (hp_h : h.Sound) : (sendCredit f h).Sound := by
  unfold sendCredit
  try dsimp only
  repeat' first | with_reducible assumption | with_reducible intro _ | with_reducible apply setFifo_sound | with_reducible apply originate_sound | (with_reducible apply sound_intro; dsimp only; with_reducible apply sound_elim) | split

theorem creditAdvance_sound (f : ℕ) (h : Hub) (hp_h : h.Sound) : (creditAdvance f h).Sound := by
  unfold creditAdvance
  try dsimp only
  repeat' first | with_reducible assumption | with_reducible intro _ | with_reducible apply sendCredit_sound | (with_reducible apply sound_intro; dsimp only; with_reducible apply sound_elim) | split

theorem fifoFree_sound (f : ℕ) (n : ℕ) (h : Hub) (hp_h : h.Sound) : (fifoFree f n h).Sound := by
  unfold fifoFree
  try dsimp only
  repeat' first | with_reducible assumption | with_reducible intro _ | with_reducible apply fifoWatermark_sound | with_reducible apply creditAdvance_sound | with_reducible apply setFifo_sound | with_reducible apply wr_sound | with_reducible apply peak_sound | (with_reducible apply sound_intro; dsimp only; with_reducible apply sound_elim) | split

theorem fifoAdvance_sound (f : ℕ) (h : Hub) (hp_h : h.Sound) : (fifoAdvance f h).Sound := by
  unfold fifoAdvance
  try dsimp only
  repeat' first | with_reducible assumption | with_reducible intro _ | with_reducible apply fifoFree_sound | with_reducible apply bump_sound | with_reducible apply setFifo_sound | (with_reducible apply sound_intro; dsimp only; with_reducible apply sound_elim) | split

theorem fifoPoisoned_sound (f : ℕ) (h : Hub) (hp_h : h.Sound) : (fifoPoisoned f h).Sound := by
  unfold fifoPoisoned
  try dsimp only
  repeat' first | with_reducible assumption | with_reducible intro _ | with_reducible apply bump_sound | with_reducible apply raise16ms_sound | (with_reducible apply sound_intro; dsimp only; with_reducible apply sound_elim) | split

theorem readHead_sound (f : ℕ) (h : Hub) (hp_h : h.Sound) : (readHead f h).Sound := by
  unfold readHead
  try dsimp only
  repeat' first | with_reducible assumption | with_reducible intro _ | with_reducible apply fifoScan_sound | (with_reducible apply sound_intro; dsimp only; with_reducible apply sound_elim) | split

theorem fifoTake_sound (f : ℕ) (h0 : Hub) (hp_h0 : h0.Sound) : (fifoTake f h0).Sound := by
  unfold fifoTake
  try dsimp only
  repeat' first | with_reducible assumption | with_reducible intro _ | with_reducible apply whenDo_sound | with_reducible apply readHead_sound | with_reducible apply fifoFree_sound | with_reducible apply fifoAdvance_sound | with_reducible apply setFifo_sound | with_reducible apply answered_sound | with_reducible apply fifoPoisoned_sound | (with_reducible apply sound_intro; dsimp only; with_reducible apply sound_elim) | split

theorem execFifoWordWrite_sound (f : Fin 128) (word : XWord) : Keeps (execFifoWordWrite f word) := by
  unfold execFifoWordWrite
  try dsimp only
  repeat' first | with_reducible assumption | with_reducible apply keeps_onHub | with_reducible intro _ | with_reducible apply bump_sound | with_reducible apply raiseEvent_sound | with_reducible apply answered_sound | with_reducible apply fifoStore_sound | (with_reducible apply sound_intro; dsimp only; with_reducible apply sound_elim) | split

theorem execFifoNarrowWrite_sound (f : Fin 128) (wide : Bool) (value : ℕ) (endMark : Bool) : Keeps (execFifoNarrowWrite f wide value endMark) := by
  unfold execFifoNarrowWrite
  try dsimp only
  repeat' first | with_reducible assumption | with_reducible apply keeps_onHub | with_reducible intro _ | with_reducible apply fifoPackUnit_sound | with_reducible apply bump_sound | with_reducible apply raiseEvent_sound | (with_reducible apply sound_intro; dsimp only; with_reducible apply sound_elim) | split

theorem execFifoRead_sound (f : Fin 128) : Keeps (execFifoRead f) := by
  unfold execFifoRead
  try dsimp only
  repeat' first | with_reducible assumption | with_reducible apply keeps_onHub | with_reducible intro _ | with_reducible apply fifoTake_sound | (with_reducible apply sound_intro; dsimp only; with_reducible apply sound_elim) | split

theorem fifoMark_sound (f : ℕ) (h : Hub) (hp_h : h.Sound) : (fifoMark f h).Sound := by
  unfold fifoMark
  try dsimp only
  repeat' first | with_reducible assumption | with_reducible intro _ | with_reducible apply setFifo_sound | (with_reducible apply sound_intro; dsimp only; with_reducible apply sound_elim) | split

theorem fifoRewind_sound (f : ℕ) (h : Hub) (hp_h : h.Sound) : (fifoRewind f h).Sound := by
  unfold fifoRewind
  try dsimp only
  repeat' first | with_reducible assumption | with_reducible intro _ | with_reducible apply setFifo_sound | (with_reducible apply sound_intro; dsimp only; with_reducible apply sound_elim) | split

theorem fifoRelease_sound (f : ℕ) (n : ℕ) (h : Hub) (hp_h : h.Sound) : (fifoRelease f n h).Sound := by
  unfold fifoRelease
  try dsimp only
  repeat' first | with_reducible assumption | with_reducible intro _ | with_reducible apply fifoFree_sound | with_reducible apply setFifo_sound | (with_reducible apply sound_intro; dsimp only; with_reducible apply sound_elim) | split

theorem execMark_sound (p : Path) (f : Fin 128) : Keeps (execMark p f) := by
  unfold execMark
  try dsimp only
  repeat' first | with_reducible assumption | with_reducible apply keeps_onHub | with_reducible intro _ | with_reducible apply fifoMark_sound | with_reducible apply pathWrite_sound | (with_reducible apply sound_intro; dsimp only; with_reducible apply sound_elim) | split

theorem execRewind_sound (p : Path) (f : Fin 128) : Keeps (execRewind p f) := by
  unfold execRewind
  try dsimp only
  repeat' first | with_reducible assumption | with_reducible apply keeps_onHub | with_reducible intro _ | with_reducible apply pathWrite_sound | with_reducible apply fifoRewind_sound | (with_reducible apply sound_intro; dsimp only; with_reducible apply sound_elim) | split

theorem execRelease_sound (p : Path) (f : Fin 128) (count : ℕ) : Keeps (execRelease p f count) := by
  unfold execRelease
  try dsimp only
  repeat' first | with_reducible assumption | with_reducible apply keeps_onHub | with_reducible intro _ | with_reducible apply pathWrite_sound | with_reducible apply fifoRelease_sound | (with_reducible apply sound_intro; dsimp only; with_reducible apply sound_elim) | split

theorem fifoSetBudget_sound (f : ℕ) (v : ℕ) (h : Hub) (hp_h : h.Sound) : (fifoSetBudget f v h).Sound := by
  unfold fifoSetBudget
  try dsimp only
  repeat' first | with_reducible assumption | with_reducible intro _ | with_reducible apply fifoOversize_sound | with_reducible apply fifoWatermark_sound | with_reducible apply creditAdvance_sound | with_reducible apply setFifo_sound | with_reducible apply wr_sound | (with_reducible apply sound_intro; dsimp only; with_reducible apply sound_elim) | split

theorem execPageBudgetWrite_sound (p : Path) (f : Fin 128) (value : ℕ) : Keeps (execPageBudgetWrite p f value) := by
  unfold execPageBudgetWrite
  try dsimp only
  repeat' first | with_reducible assumption | with_reducible apply keeps_onHub | with_reducible intro _ | with_reducible apply pathWrite_sound | with_reducible apply fifoSetBudget_sound | (with_reducible apply sound_intro; dsimp only; with_reducible apply sound_elim) | split

theorem execStopTimeout_sound (f : Fin 128) : Keeps (execStopTimeout f) := by
  unfold execStopTimeout
  try dsimp only
  repeat' first | with_reducible assumption | with_reducible apply keeps_onHub | with_reducible intro _ | with_reducible apply stopExpiry_sound | (with_reducible apply sound_intro; dsimp only; with_reducible apply sound_elim) | split

theorem execIdleTimeout_sound (f : Fin 128) : Keeps (execIdleTimeout f) := by
  unfold execIdleTimeout
  try dsimp only
  repeat' first | with_reducible assumption | with_reducible apply keeps_onHub | with_reducible intro _ | with_reducible apply idleExpiry_sound | (with_reducible apply sound_intro; dsimp only; with_reducible apply sound_elim) | split

theorem countTraffic_sound (handle : ℕ) (hub : ℕ) (cls : ℕ) (n : ℕ) (h : Hub) (hp_h : h.Sound) : (countTraffic handle hub cls n h).Sound := by
  unfold countTraffic
  try dsimp only
  repeat' first | with_reducible assumption | with_reducible intro _ | (with_reducible apply sound_intro; dsimp only; with_reducible apply sound_elim) | split

theorem streamDataSend_sound (f : ℕ) (h0 : Hub) (hp_h0 : h0.Sound) : (streamDataSend f h0).Sound := by
  unfold streamDataSend
  try dsimp only
  repeat' first | with_reducible assumption | with_reducible intro _ | with_reducible apply bumpBy_sound | with_reducible apply setFifo_sound | with_reducible apply fifoScan_sound | with_reducible apply forEach_sound | with_reducible apply fifoPoisoned_sound | with_reducible apply originate_sound | (with_reducible apply sound_intro; dsimp only; with_reducible apply sound_elim) | split

theorem execStreamDataSend_sound (f : Fin 128) : Keeps (execStreamDataSend f) := by
  unfold execStreamDataSend
  try dsimp only
  repeat' first | with_reducible assumption | with_reducible apply keeps_onHub | with_reducible intro _ | with_reducible apply streamDataSend_sound | (with_reducible apply sound_intro; dsimp only; with_reducible apply sound_elim) | split

theorem storeStreamWord_sound (f : ℕ) (i : ℕ) (w : StreamWord) (h : Hub) (hp_h : h.Sound) : (storeStreamWord f i w h).Sound := by
  unfold storeStreamWord
  try dsimp only
  repeat' first | with_reducible assumption | with_reducible intro _ | with_reducible apply setFifo_sound | with_reducible apply fifoStore_sound | (with_reducible apply sound_intro; dsimp only; with_reducible apply sound_elim) | split

theorem streamData_sound (handle : ℕ) (first : ℕ) (words : List StreamWord) (h : Hub) (hp_h : h.Sound) : (streamData handle first words h).Sound := by
  unfold streamData
  try dsimp only
  repeat' first | with_reducible assumption | with_reducible intro _ | with_reducible apply bump_sound | with_reducible apply sendCredit_sound | with_reducible apply forEach_sound | with_reducible apply storeStreamWord_sound | (with_reducible apply sound_intro; dsimp only; with_reducible apply sound_elim) | split

theorem streamFrom_sound (src : ℕ) (handle : ℕ) (first : ℕ) (words : List StreamWord) (h : Hub) (hp_h : h.Sound) : (streamFrom src handle first words h).Sound := by
  unfold streamFrom
  try dsimp only
  repeat' first | with_reducible assumption | with_reducible intro _ | with_reducible apply streamData_sound | with_reducible apply countTraffic_sound | (with_reducible apply sound_intro; dsimp only; with_reducible apply sound_elim) | split

theorem execStreamData_sound (src : ℕ) (handle : ℕ) (first : ℕ) (words : List StreamWord) : Keeps (execStreamData src handle first words) := by
  unfold execStreamData
  try dsimp only
  repeat' first | with_reducible assumption | with_reducible apply keeps_onHub | with_reducible intro _ | with_reducible apply whenDo_sound | with_reducible apply streamFrom_sound | (with_reducible apply sound_intro; dsimp only; with_reducible apply sound_elim) | split

theorem streamCredit_sound (handle : ℕ) (limit : ℕ) (expected : ℕ) (h : Hub) (hp_h : h.Sound) : (streamCredit handle limit expected h).Sound := by
  unfold streamCredit
  try dsimp only
  repeat' first | with_reducible assumption | with_reducible intro _ | with_reducible apply fifoFree_sound | with_reducible apply setFifo_sound | (with_reducible apply sound_intro; dsimp only; with_reducible apply sound_elim) | split

theorem execStreamCredit_sound (handle : ℕ) (limit : ℕ) (expected : ℕ) : Keeps (execStreamCredit handle limit expected) := by
  unfold execStreamCredit
  try dsimp only
  repeat' first | with_reducible assumption | with_reducible apply keeps_onHub | with_reducible intro _ | with_reducible apply streamCredit_sound | (with_reducible apply sound_intro; dsimp only; with_reducible apply sound_elim) | split

theorem execCreditPeriodic_sound (f : Fin 128) : Keeps (execCreditPeriodic f) := by
  unfold execCreditPeriodic
  try dsimp only
  repeat' first | with_reducible assumption | with_reducible apply keeps_onHub | with_reducible intro _ | with_reducible apply sendCredit_sound | (with_reducible apply sound_intro; dsimp only; with_reducible apply sound_elim) | split

theorem execStreamResendTimeout_sound (f : Fin 128) : Keeps (execStreamResendTimeout f) := by
  unfold execStreamResendTimeout
  try dsimp only
  repeat' first | with_reducible assumption | with_reducible apply keeps_onHub | with_reducible intro _ | with_reducible apply bump_sound | with_reducible apply streamDataSend_sound | with_reducible apply setFifo_sound | with_reducible apply raiseEvent_sound | with_reducible apply fifoRewind_sound | (with_reducible apply sound_intro; dsimp only; with_reducible apply sound_elim) | split

theorem fifoUnbind_sound (f : ℕ) (h : Hub) (hp_h : h.Sound) : (fifoUnbind f h).Sound := by
  unfold fifoUnbind
  try dsimp only
  repeat' first | with_reducible assumption | with_reducible intro _ | with_reducible apply whenDo_sound | with_reducible apply raiseEvent_sound | with_reducible apply countDiscarded_sound | with_reducible apply wrs_sound | (with_reducible apply sound_intro; dsimp only; with_reducible apply sound_elim) | split

theorem fifoBind_sound {st handle pages settings producer consumer : Nat} {h : Hub} {f : Nat} {a : Hub}
    (e : fifoBind st handle pages settings producer consumer h = some (f, a)) (hp : h.Sound) : a.Sound := by
  unfold fifoBind at e
  split at e
  · cases e
  · split at e
    · cases e
    · cases e; exact wrs_sound _ _ (setFifo_sound _ _ _ hp)

end Sys2Proof.Machine
end

