-- ==== Sys2Proof/Laws/SoundEngines.lean ====
section
/-! SUPPORT. Every operation of Engines.lean keeps a hub sound. -/

set_option linter.unusedTactic false
set_option linter.unreachableTactic false
set_option linter.unusedVariables false

namespace Sys2Proof.Machine

theorem setEngine_sound (h : Hub) (n : ℕ) (g : Engine) (hp_h : h.Sound) : (setEngine h n g).Sound := by
  unfold setEngine
  try dsimp only
  repeat' first | with_reducible assumption | with_reducible intro _ | (with_reducible apply sound_intro; dsimp only; with_reducible apply sound_elim) | split

theorem syncPins_sound (n : ℕ) (h : Hub) (hp_h : h.Sound) : (syncPins n h).Sound := by
  unfold syncPins
  try dsimp only
  repeat' first | with_reducible assumption | with_reducible intro _ | with_reducible apply forEach_sound | (with_reducible apply sound_intro; dsimp only; with_reducible apply sound_elim) | split

theorem syncPads_sound (h : Hub) (hp_h : h.Sound) : (syncPads h).Sound := by
  unfold syncPads
  try dsimp only
  repeat' first | with_reducible assumption | with_reducible intro _ | with_reducible apply syncPins_sound | with_reducible apply forEach_sound | (with_reducible apply sound_intro; dsimp only; with_reducible apply sound_elim) | split

theorem releasePads_sound (fios : List ℕ) (h : Hub) (hp_h : h.Sound) : (releasePads fios h).Sound := by
  unfold releasePads
  try dsimp only
  repeat' first | with_reducible assumption | with_reducible intro _ | with_reducible apply forEach_sound | (with_reducible apply sound_intro; dsimp only; with_reducible apply sound_elim) | split

theorem dropUnboundRxq_sound (n : ℕ) (h : Hub) (hp_h : h.Sound) : (dropUnboundRxq n h).Sound := by
  unfold dropUnboundRxq
  try dsimp only
  repeat' first | with_reducible assumption | with_reducible intro _ | with_reducible apply bumpBy_sound | with_reducible apply setEngine_sound | with_reducible apply raiseLimited_sound | (with_reducible apply sound_intro; dsimp only; with_reducible apply sound_elim) | split

theorem markUnusable_sound (n : ℕ) (cause : ℕ) (h : Hub) (hp_h : h.Sound) : (markUnusable n cause h).Sound := by
  unfold markUnusable
  try dsimp only
  repeat' first | with_reducible assumption | with_reducible intro _ | with_reducible apply wrs_sound | (with_reducible apply sound_intro; dsimp only; with_reducible apply sound_elim) | split

theorem dueLater_sound (n : ℕ) (code : ℕ) (h : Hub) (hp_h : h.Sound) : (dueLater n code h).Sound := by
  unfold dueLater
  try dsimp only
  repeat' first | with_reducible assumption | with_reducible intro _ | (with_reducible apply sound_intro; dsimp only; with_reducible apply sound_elim) | split

theorem engineCheckFailure_sound (n : ℕ) (cause : ℕ) (h : Hub) (hp_h : h.Sound) : (engineCheckFailure n cause h).Sound := by
  unfold engineCheckFailure
  try dsimp only
  repeat' first | with_reducible assumption | with_reducible intro _ | with_reducible apply markUnusable_sound | with_reducible apply bump_sound | with_reducible apply raiseFault_sound | with_reducible apply dueLater_sound | (with_reducible apply sound_intro; dsimp only; with_reducible apply sound_elim) | split

theorem edgeChecks_sound (n : ℕ) (h : Hub) (hp_h : h.Sound) : (edgeChecks n h).1.Sound := by
  unfold edgeChecks
  try dsimp only
  repeat' first | with_reducible assumption | with_reducible intro _ | with_reducible apply bump_sound | with_reducible apply setEngine_sound | with_reducible apply engineCheckFailure_sound | (with_reducible apply sound_intro; dsimp only; with_reducible apply sound_elim) | split

theorem engineEdge_sound (n : ℕ) (pins : Byte) (eff : Engine → Effect) (h0 : Hub) (hp_h0 : h0.Sound) : (engineEdge n pins eff h0).Sound := by
  unfold engineEdge
  try dsimp only
  repeat' first | with_reducible assumption | with_reducible intro _ | with_reducible apply syncPins_sound | with_reducible apply bump_sound | with_reducible apply raiseFault_sound | with_reducible apply edgeChecks_sound | with_reducible apply raiseEvent_sound | with_reducible apply setEngine_sound | with_reducible apply dropUnboundRxq_sound | with_reducible apply wr_sound | with_reducible apply wrs_sound | (with_reducible refine pairFst_sound ‹_ = (_, _)› ?_) | (with_reducible apply sound_intro; dsimp only; with_reducible apply sound_elim) | split

theorem engineInstr_sound (n : ℕ) (pins : Byte) (word : ℕ) (eff : Engine → Effect) (h : Hub) (hp_h : h.Sound) : (engineInstr n pins word eff h).Sound := by
  unfold engineInstr
  try dsimp only
  repeat' first | with_reducible assumption | with_reducible intro _ | with_reducible apply engineEdge_sound | (with_reducible apply sound_intro; dsimp only; with_reducible apply sound_elim) | split

theorem execSysNop_sound (n : Fin 64) (pins : Byte) : Keeps (execSysNop n pins) := by
  unfold execSysNop
  try dsimp only
  repeat' first | with_reducible assumption | with_reducible apply keeps_onHub | with_reducible intro _ | with_reducible apply engineInstr_sound | (with_reducible apply sound_intro; dsimp only; with_reducible apply sound_elim) | split

theorem execSysHalt_sound (n : Fin 64) (pins : Byte) : Keeps (execSysHalt n pins) := by
  unfold execSysHalt
  try dsimp only
  repeat' first | with_reducible assumption | with_reducible apply keeps_onHub | with_reducible intro _ | with_reducible apply engineInstr_sound | (with_reducible apply sound_intro; dsimp only; with_reducible apply sound_elim) | split

theorem execSysSig_sound (n : Fin 64) (pins : Byte) (code : ℕ) : Keeps (execSysSig n pins code) := by
  unfold execSysSig
  try dsimp only
  repeat' first | with_reducible assumption | with_reducible apply keeps_onHub | with_reducible intro _ | with_reducible apply engineInstr_sound | (with_reducible apply sound_intro; dsimp only; with_reducible apply sound_elim) | split

theorem execSysStamp_sound (n : Fin 64) (pins : Byte) : Keeps (execSysStamp n pins) := by
  unfold execSysStamp
  try dsimp only
  repeat' first | with_reducible assumption | with_reducible apply keeps_onHub | with_reducible intro _ | with_reducible apply engineInstr_sound | (with_reducible apply sound_intro; dsimp only; with_reducible apply sound_elim) | split

theorem execSysClrm_sound (n : Fin 64) (pins : Byte) : Keeps (execSysClrm n pins) := by
  unfold execSysClrm
  try dsimp only
  repeat' first | with_reducible assumption | with_reducible apply keeps_onHub | with_reducible intro _ | with_reducible apply engineInstr_sound | (with_reducible apply sound_intro; dsimp only; with_reducible apply sound_elim) | split

theorem execBr_sound (n : Fin 64) (pins : Byte) (cond : ℕ) (target : ℕ) : Keeps (execBr n pins cond target) := by
  unfold execBr
  try dsimp only
  repeat' first | with_reducible assumption | with_reducible apply keeps_onHub | with_reducible intro _ | with_reducible apply engineInstr_sound | (with_reducible apply sound_intro; dsimp only; with_reducible apply sound_elim) | split

theorem execBrp_sound (n : Fin 64) (pins : Byte) (level : Bool) (pin : Fin 8) (target : ℕ) : Keeps (execBrp n pins level pin target) := by
  unfold execBrp
  try dsimp only
  repeat' first | with_reducible assumption | with_reducible apply keeps_onHub | with_reducible intro _ | with_reducible apply engineInstr_sound | (with_reducible apply sound_intro; dsimp only; with_reducible apply sound_elim) | split

theorem execDbnz_sound (n : Fin 64) (pins : Byte) (target : ℕ) : Keeps (execDbnz n pins target) := by
  unfold execDbnz
  try dsimp only
  repeat' first | with_reducible assumption | with_reducible apply keeps_onHub | with_reducible intro _ | with_reducible apply engineInstr_sound | (with_reducible apply sound_intro; dsimp only; with_reducible apply sound_elim) | split

theorem execAwait_sound (n : Fin 64) (pins : Byte) (flagForm : Bool) (event : ℕ) (pin : Fin 8) : Keeps (execAwait n pins flagForm event pin) := by
  unfold execAwait
  try dsimp only
  repeat' first | with_reducible assumption | with_reducible apply keeps_onHub | with_reducible intro _ | with_reducible apply engineInstr_sound | (with_reducible apply sound_intro; dsimp only; with_reducible apply sound_elim) | split

theorem execDriveLow_sound (n : Fin 64) (pins : Byte) (mask : Byte) : Keeps (execDriveLow n pins mask) := by
  unfold execDriveLow
  try dsimp only
  repeat' first | with_reducible assumption | with_reducible apply keeps_onHub | with_reducible intro _ | with_reducible apply engineInstr_sound | (with_reducible apply sound_intro; dsimp only; with_reducible apply sound_elim) | split

theorem execDriveHigh_sound (n : Fin 64) (pins : Byte) (mask : Byte) : Keeps (execDriveHigh n pins mask) := by
  unfold execDriveHigh
  try dsimp only
  repeat' first | with_reducible assumption | with_reducible apply keeps_onHub | with_reducible intro _ | with_reducible apply engineInstr_sound | (with_reducible apply sound_intro; dsimp only; with_reducible apply sound_elim) | split

theorem execDriveRelease_sound (n : Fin 64) (pins : Byte) (mask : Byte) : Keeps (execDriveRelease n pins mask) := by
  unfold execDriveRelease
  try dsimp only
  repeat' first | with_reducible assumption | with_reducible apply keeps_onHub | with_reducible intro _ | with_reducible apply engineInstr_sound | (with_reducible apply sound_intro; dsimp only; with_reducible apply sound_elim) | split

theorem execDriveToggle_sound (n : Fin 64) (pins : Byte) (mask : Byte) : Keeps (execDriveToggle n pins mask) := by
  unfold execDriveToggle
  try dsimp only
  repeat' first | with_reducible assumption | with_reducible apply keeps_onHub | with_reducible intro _ | with_reducible apply engineInstr_sound | (with_reducible apply sound_intro; dsimp only; with_reducible apply sound_elim) | split

theorem execShiftIn_sound (n : Fin 64) (pins : Byte) (msbFirst : Bool) (pin : Fin 8) : Keeps (execShiftIn n pins msbFirst pin) := by
  unfold execShiftIn
  try dsimp only
  repeat' first | with_reducible assumption | with_reducible apply keeps_onHub | with_reducible intro _ | with_reducible apply engineInstr_sound | (with_reducible apply sound_intro; dsimp only; with_reducible apply sound_elim) | split

theorem execShiftOut_sound (n : Fin 64) (pins : Byte) (msbFirst : Bool) (pin : Fin 8) : Keeps (execShiftOut n pins msbFirst pin) := by
  unfold execShiftOut
  try dsimp only
  repeat' first | with_reducible assumption | with_reducible apply keeps_onHub | with_reducible intro _ | with_reducible apply engineInstr_sound | (with_reducible apply sound_intro; dsimp only; with_reducible apply sound_elim) | split

theorem execTake_sound (n : Fin 64) (pins : Byte) (dst : Fin 4) : Keeps (execTake n pins dst) := by
  unfold execTake
  try dsimp only
  repeat' first | with_reducible assumption | with_reducible apply keeps_onHub | with_reducible intro _ | with_reducible apply engineInstr_sound | (with_reducible apply sound_intro; dsimp only; with_reducible apply sound_elim) | split

theorem execPut_sound (n : Fin 64) (pins : Byte) (src : Fin 4) (endMark : Bool) (count : ℕ) : Keeps (execPut n pins src endMark count) := by
  unfold execPut
  try dsimp only
  repeat' first | with_reducible assumption | with_reducible apply keeps_onHub | with_reducible intro _ | with_reducible apply engineInstr_sound | (with_reducible apply sound_intro; dsimp only; with_reducible apply sound_elim) | split

theorem execCopy_sound (n : Fin 64) (pins : Byte) (dst : ℕ) (src : ℕ) : Keeps (execCopy n pins dst src) := by
  unfold execCopy
  try dsimp only
  repeat' first | with_reducible assumption | with_reducible apply keeps_onHub | with_reducible intro _ | with_reducible apply engineInstr_sound | (with_reducible apply sound_intro; dsimp only; with_reducible apply sound_elim) | split

theorem execAluAdd_sound (n : Fin 64) (pins : Byte) (dst : Fin 4) (imm : Bool) (v : ℕ) : Keeps (execAluAdd n pins dst imm v) := by
  unfold execAluAdd
  try dsimp only
  repeat' first | with_reducible assumption | with_reducible apply keeps_onHub | with_reducible intro _ | with_reducible apply engineInstr_sound | (with_reducible apply sound_intro; dsimp only; with_reducible apply sound_elim) | split

theorem execAluSub_sound (n : Fin 64) (pins : Byte) (dst : Fin 4) (imm : Bool) (v : ℕ) : Keeps (execAluSub n pins dst imm v) := by
  unfold execAluSub
  try dsimp only
  repeat' first | with_reducible assumption | with_reducible apply keeps_onHub | with_reducible intro _ | with_reducible apply engineInstr_sound | (with_reducible apply sound_intro; dsimp only; with_reducible apply sound_elim) | split

theorem execAluAnd_sound (n : Fin 64) (pins : Byte) (dst : Fin 4) (imm : Bool) (v : ℕ) : Keeps (execAluAnd n pins dst imm v) := by
  unfold execAluAnd
  try dsimp only
  repeat' first | with_reducible assumption | with_reducible apply keeps_onHub | with_reducible intro _ | with_reducible apply engineInstr_sound | (with_reducible apply sound_intro; dsimp only; with_reducible apply sound_elim) | split

theorem execAluOr_sound (n : Fin 64) (pins : Byte) (dst : Fin 4) (imm : Bool) (v : ℕ) : Keeps (execAluOr n pins dst imm v) := by
  unfold execAluOr
  try dsimp only
  repeat' first | with_reducible assumption | with_reducible apply keeps_onHub | with_reducible intro _ | with_reducible apply engineInstr_sound | (with_reducible apply sound_intro; dsimp only; with_reducible apply sound_elim) | split

theorem execAluXor_sound (n : Fin 64) (pins : Byte) (dst : Fin 4) (imm : Bool) (v : ℕ) : Keeps (execAluXor n pins dst imm v) := by
  unfold execAluXor
  try dsimp only
  repeat' first | with_reducible assumption | with_reducible apply keeps_onHub | with_reducible intro _ | with_reducible apply engineInstr_sound | (with_reducible apply sound_intro; dsimp only; with_reducible apply sound_elim) | split

theorem execAluShl_sound (n : Fin 64) (pins : Byte) (dst : Fin 4) (imm : Bool) (v : ℕ) : Keeps (execAluShl n pins dst imm v) := by
  unfold execAluShl
  try dsimp only
  repeat' first | with_reducible assumption | with_reducible apply keeps_onHub | with_reducible intro _ | with_reducible apply engineInstr_sound | (with_reducible apply sound_intro; dsimp only; with_reducible apply sound_elim) | split

theorem execAluShr_sound (n : Fin 64) (pins : Byte) (dst : Fin 4) (imm : Bool) (v : ℕ) : Keeps (execAluShr n pins dst imm v) := by
  unfold execAluShr
  try dsimp only
  repeat' first | with_reducible assumption | with_reducible apply keeps_onHub | with_reducible intro _ | with_reducible apply engineInstr_sound | (with_reducible apply sound_intro; dsimp only; with_reducible apply sound_elim) | split

theorem execAluNot_sound (n : Fin 64) (pins : Byte) (dst : Fin 4) (imm : Bool) (v : ℕ) : Keeps (execAluNot n pins dst imm v) := by
  unfold execAluNot
  try dsimp only
  repeat' first | with_reducible assumption | with_reducible apply keeps_onHub | with_reducible intro _ | with_reducible apply engineInstr_sound | (with_reducible apply sound_intro; dsimp only; with_reducible apply sound_elim) | split

theorem execAluRev_sound (n : Fin 64) (pins : Byte) (dst : Fin 4) (imm : Bool) (v : ℕ) : Keeps (execAluRev n pins dst imm v) := by
  unfold execAluRev
  try dsimp only
  repeat' first | with_reducible assumption | with_reducible apply keeps_onHub | with_reducible intro _ | with_reducible apply engineInstr_sound | (with_reducible apply sound_intro; dsimp only; with_reducible apply sound_elim) | split

theorem execLdi_sound (n : Fin 64) (pins : Byte) (dst : Fin 4) (imm : ℕ) : Keeps (execLdi n pins dst imm) := by
  unfold execLdi
  try dsimp only
  repeat' first | with_reducible assumption | with_reducible apply keeps_onHub | with_reducible intro _ | with_reducible apply engineInstr_sound | (with_reducible apply sound_intro; dsimp only; with_reducible apply sound_elim) | split

theorem execArm_sound (n : Fin 64) (pins : Byte) (fromCmp : Bool) (imm : Bool) (v : ℕ) : Keeps (execArm n pins fromCmp imm v) := by
  unfold execArm
  try dsimp only
  repeat' first | with_reducible assumption | with_reducible apply keeps_onHub | with_reducible intro _ | with_reducible apply engineInstr_sound | (with_reducible apply sound_intro; dsimp only; with_reducible apply sound_elim) | split

theorem engineCommand_sound (p : Path) (n : ℕ) (code : ℕ) (allowed : ℕ → Bool) (f : Hub → Hub) (h : Hub) (hf_f : ∀ x, x.Sound → (f x).Sound) (hp_h : h.Sound) : (engineCommand p n code allowed f h).Sound := by
  unfold engineCommand
  try dsimp only
  repeat' first | with_reducible assumption | with_reducible intro _ | with_reducible apply hf_f | with_reducible apply pathWrite_sound | (with_reducible apply sound_intro; dsimp only; with_reducible apply sound_elim) | split

theorem engineHalt_sound (n : ℕ) (h : Hub) (hp_h : h.Sound) : (engineHalt n h).Sound := by
  unfold engineHalt
  try dsimp only
  repeat' first | with_reducible assumption | with_reducible intro _ | with_reducible apply setEngine_sound | with_reducible apply wr_sound | (with_reducible apply sound_intro; dsimp only; with_reducible apply sound_elim) | split

theorem engineResume_sound (n : ℕ) (h : Hub) (hp_h : h.Sound) : (engineResume n h).Sound := by
  unfold engineResume
  try dsimp only
  repeat' first | with_reducible assumption | with_reducible intro _ | with_reducible apply setEngine_sound | with_reducible apply wr_sound | (with_reducible apply sound_intro; dsimp only; with_reducible apply sound_elim) | split

theorem engineLoad_sound (n : ℕ) (i : ℕ) (st : ℕ) (clean : Option Byte) (h : Hub) (hp_h : h.Sound) : (engineLoad n i st clean h).Sound := by
  unfold engineLoad
  try dsimp only
  repeat' first | with_reducible assumption | with_reducible intro _ | with_reducible apply syncPins_sound | with_reducible apply takeProgramInjection_sound | with_reducible apply setEngine_sound | with_reducible apply wrs_sound | (with_reducible refine pair_sound ‹_ = (_, _)› ?_) | (with_reducible apply sound_intro; dsimp only; with_reducible apply sound_elim) | split

theorem execHalt_sound (p : Path) (n : Fin 64) : Keeps (execHalt p n) := by
  unfold execHalt
  try dsimp only
  repeat' first | with_reducible assumption | with_reducible apply keeps_onHub | with_reducible intro _ | with_reducible apply engineCommand_sound | with_reducible apply engineHalt_sound | (with_reducible apply sound_intro; dsimp only; with_reducible apply sound_elim) | split

theorem execResume_sound (p : Path) (n : Fin 64) : Keeps (execResume p n) := by
  unfold execResume
  try dsimp only
  repeat' first | with_reducible assumption | with_reducible apply keeps_onHub | with_reducible intro _ | with_reducible apply engineCommand_sound | with_reducible apply engineResume_sound | (with_reducible apply sound_intro; dsimp only; with_reducible apply sound_elim) | split

theorem execLoad_sound (p : Path) (n : Fin 64) (image : ℕ) : Keeps (execLoad p n image) := by
  unfold execLoad
  try dsimp only
  repeat' first | with_reducible assumption | with_reducible apply keeps_onHub | with_reducible intro _ | with_reducible apply engineCommand_sound | with_reducible apply engineLoad_sound | (with_reducible apply sound_intro; dsimp only; with_reducible apply sound_elim) | split

theorem execLoadClean_sound (p : Path) (n : Fin 64) (image : ℕ) (pins : Byte) : Keeps (execLoadClean p n image pins) := by
  unfold execLoadClean
  try dsimp only
  repeat' first | with_reducible assumption | with_reducible apply keeps_onHub | with_reducible intro _ | with_reducible apply engineCommand_sound | with_reducible apply engineLoad_sound | (with_reducible apply sound_intro; dsimp only; with_reducible apply sound_elim) | split

theorem engineStepOnce_sound (n : ℕ) (pins : Byte) (h : Hub) (hp_h : h.Sound) : (engineStepOnce n pins h).Sound := by
  unfold engineStepOnce
  try dsimp only
  repeat' first | with_reducible assumption | with_reducible intro _ | with_reducible apply wr_sound | with_reducible apply engineEdge_sound | (with_reducible apply sound_intro; dsimp only; with_reducible apply sound_elim) | split

theorem execEngineStep_sound (p : Path) (n : Fin 64) (pins : Byte) : Keeps (execEngineStep p n pins) := by
  unfold execEngineStep
  try dsimp only
  repeat' first | with_reducible assumption | with_reducible apply keeps_onHub | with_reducible intro _ | with_reducible apply engineCommand_sound | with_reducible apply engineStepOnce_sound | (with_reducible apply sound_intro; dsimp only; with_reducible apply sound_elim) | split

theorem engineFlush_sound (n : ℕ) (h : Hub) (hp_h : h.Sound) : (engineFlush n h).Sound := by
  unfold engineFlush
  try dsimp only
  repeat' first | with_reducible assumption | with_reducible intro _ | with_reducible apply bumpBy_sound | with_reducible apply setEngine_sound | (with_reducible apply sound_intro; dsimp only; with_reducible apply sound_elim) | split

theorem execFlush_sound (p : Path) (n : Fin 64) : Keeps (execFlush p n) := by
  unfold execFlush
  try dsimp only
  repeat' first | with_reducible assumption | with_reducible apply keeps_onHub | with_reducible intro _ | with_reducible apply engineCommand_sound | with_reducible apply engineFlush_sound | (with_reducible apply sound_intro; dsimp only; with_reducible apply sound_elim) | split

theorem txqRefill_sound (n : ℕ) (h0 : Hub) (hp_h0 : h0.Sound) : (txqRefill n h0).Sound := by
  unfold txqRefill
  try dsimp only
  repeat' first | with_reducible assumption | with_reducible intro _ | with_reducible apply whenDo_sound | with_reducible apply readHead_sound | with_reducible apply crossWord_sound | with_reducible apply fifoAdvance_sound | with_reducible apply setEngine_sound | with_reducible apply fifoPoisoned_sound | (with_reducible refine pair_sound ‹_ = (_, _)› ?_) | (with_reducible apply sound_intro; dsimp only; with_reducible apply sound_elim) | split

theorem execTxqRefill_sound (n : Fin 64) : Keeps (execTxqRefill n) := by
  unfold execTxqRefill
  try dsimp only
  repeat' first | with_reducible assumption | with_reducible apply keeps_onHub | with_reducible intro _ | with_reducible apply txqRefill_sound | (with_reducible apply sound_intro; dsimp only; with_reducible apply sound_elim) | split

theorem rxqDrain_sound (n : ℕ) (h : Hub) (hp_h : h.Sound) : (rxqDrain n h).Sound := by
  unfold rxqDrain
  try dsimp only
  repeat' first | with_reducible assumption | with_reducible intro _ | with_reducible apply crossWord_sound | with_reducible apply setEngine_sound | with_reducible apply fifoStore_sound | with_reducible apply forEach_sound | (with_reducible refine pair_sound ‹_ = (_, _)› ?_) | (with_reducible apply sound_intro; dsimp only; with_reducible apply sound_elim) | split

theorem execRxqDrain_sound (n : Fin 64) : Keeps (execRxqDrain n) := by
  unfold execRxqDrain
  try dsimp only
  repeat' first | with_reducible assumption | with_reducible apply keeps_onHub | with_reducible intro _ | with_reducible apply rxqDrain_sound | (with_reducible apply sound_intro; dsimp only; with_reducible apply sound_elim) | split

theorem pinDriverDiagnosis_sound (fio : ℕ) (h : Hub) (hp_h : h.Sound) : (pinDriverDiagnosis fio h).Sound := by
  unfold pinDriverDiagnosis
  try dsimp only
  repeat' first | with_reducible assumption | with_reducible intro _ | with_reducible apply bump_sound | with_reducible apply raiseEvent_sound | with_reducible apply wr_sound | (with_reducible apply sound_intro; dsimp only; with_reducible apply sound_elim) | split

theorem execEngineSelftest_sound (failed : List ℕ) : Keeps (execEngineSelftest failed) := by
  unfold execEngineSelftest
  try dsimp only
  repeat' first | with_reducible assumption | with_reducible apply keeps_onHub | with_reducible intro _ | with_reducible apply markUnusable_sound | with_reducible apply bump_sound | with_reducible apply raiseFault_sound | with_reducible apply forEach_sound | (with_reducible apply sound_intro; dsimp only; with_reducible apply sound_elim) | split

end Sys2Proof.Machine
end

