-- ==== Sys2Proof/Laws/SoundPower.lean ====
section
/-! SUPPORT. Every operation of Power.lean keeps a hub sound. -/

set_option linter.unusedTactic false
set_option linter.unreachableTactic false
set_option linter.unusedVariables false

namespace Sys2Proof.Machine

theorem setDomain_sound (d : ℕ) (st : ℕ) (h : Hub) (hp_h : h.Sound) : (setDomain d st h).Sound := by
  unfold setDomain
  try dsimp only
  repeat' first | with_reducible assumption | with_reducible intro _ | with_reducible apply wrs_sound | (with_reducible apply sound_intro; dsimp only; with_reducible apply sound_elim) | split

theorem saveWords_sound (d : ℕ) (ws : List Word) (h : Hub) (hp_h : h.Sound) : (saveWords d ws h).Sound := by
  unfold saveWords
  try dsimp only
  repeat' first | with_reducible assumption | with_reducible intro _ | (with_reducible apply sound_intro; dsimp only; with_reducible apply sound_elim) | split

theorem groveQuiesce_sound (g : ℕ) (h : Hub) (hp_h : h.Sound) : (groveQuiesce g h).Sound := by
  unfold groveQuiesce
  try dsimp only
  repeat' first | with_reducible assumption | with_reducible intro _ | with_reducible apply wr_sound | with_reducible apply forEach_sound | (with_reducible apply sound_intro; dsimp only; with_reducible apply sound_elim) | split

theorem groveOff_sound (g : ℕ) (h : Hub) (hp_h : h.Sound) : (groveOff g h).Sound := by
  unfold groveOff
  try dsimp only
  repeat' first | with_reducible assumption | with_reducible intro _ | with_reducible apply bump_sound | with_reducible apply groveQuiesce_sound | with_reducible apply syncPads_sound | with_reducible apply drainCrossings_sound | with_reducible apply setDomain_sound | with_reducible apply saveWords_sound | (with_reducible apply sound_intro; dsimp only; with_reducible apply sound_elim) | split

theorem groveResume_sound (g : ℕ) (h : Hub) (hp_h : h.Sound) : (groveResume g h).Sound := by
  unfold groveResume
  try dsimp only
  repeat' first | with_reducible assumption | with_reducible intro _ | with_reducible apply engineResume_sound | with_reducible apply forEach_sound | (with_reducible apply sound_intro; dsimp only; with_reducible apply sound_elim) | split

theorem groveReload_sound (g : ℕ) (h : Hub) (hp_h : h.Sound) : (groveReload g h).Sound := by
  unfold groveReload
  try dsimp only
  repeat' first | with_reducible assumption | with_reducible intro _ | with_reducible apply engineLoad_sound | with_reducible apply takeFree_sound | with_reducible apply forEach_sound | (with_reducible refine pair_sound ‹_ = (_, _)› ?_) | (with_reducible apply sound_intro; dsimp only; with_reducible apply sound_elim) | split

theorem groveOn_sound (g : ℕ) (listOk : Bool) (h : Hub) (hp_h : h.Sound) : (groveOn g listOk h).Sound := by
  unfold groveOn
  try dsimp only
  repeat' first | with_reducible assumption | with_reducible intro _ | with_reducible apply bump_sound | with_reducible apply raiseFault_sound | with_reducible apply syncPads_sound | with_reducible apply groveResume_sound | with_reducible apply setDomain_sound | with_reducible apply groveReload_sound | (with_reducible apply sound_intro; dsimp only; with_reducible apply sound_elim) | split

theorem groveVoteClear_sound (g : ℕ) (vote : ℕ) (h : Hub) (hp_h : h.Sound) : (groveVoteClear g vote h).Sound := by
  unfold groveVoteClear
  try dsimp only
  repeat' first | with_reducible assumption | with_reducible intro _ | with_reducible apply setDomain_sound | with_reducible apply wr_sound | (with_reducible apply sound_intro; dsimp only; with_reducible apply sound_elim) | split

theorem execGroveVoteClear_sound (g : Fin 8) (vote : ℕ) : Keeps (execGroveVoteClear g vote) := by
  unfold execGroveVoteClear
  try dsimp only
  repeat' first | with_reducible assumption | with_reducible apply keeps_onHub | with_reducible intro _ | with_reducible apply groveVoteClear_sound | (with_reducible apply sound_intro; dsimp only; with_reducible apply sound_elim) | split

theorem execOffDelayExpiry_sound (g : Fin 8) : Keeps (execOffDelayExpiry g) := by
  unfold execOffDelayExpiry
  try dsimp only
  repeat' first | with_reducible assumption | with_reducible apply keeps_onHub | with_reducible intro _ | with_reducible apply groveOff_sound | (with_reducible apply sound_intro; dsimp only; with_reducible apply sound_elim) | split

theorem voteReturned_sound (g : ℕ) (h : Hub) (hp_h : h.Sound) : (voteReturned g h).Sound := by
  unfold voteReturned
  try dsimp only
  repeat' first | with_reducible assumption | with_reducible intro _ | with_reducible apply bump_sound | with_reducible apply raiseEvent_sound | with_reducible apply groveResume_sound | with_reducible apply setDomain_sound | (with_reducible apply sound_intro; dsimp only; with_reducible apply sound_elim) | split

theorem voteReturn_sound (g : ℕ) (vote : ℕ) (h : Hub) (hp_h : h.Sound) : (voteReturn g vote h).Sound := by
  unfold voteReturn
  try dsimp only
  repeat' first | with_reducible assumption | with_reducible intro _ | with_reducible apply wr_sound | with_reducible apply voteReturned_sound | (with_reducible apply sound_intro; dsimp only; with_reducible apply sound_elim) | split

theorem execVoteReturn_sound (g : Fin 8) (vote : ℕ) : Keeps (execVoteReturn g vote) := by
  unfold execVoteReturn
  try dsimp only
  repeat' first | with_reducible assumption | with_reducible apply keeps_onHub | with_reducible intro _ | with_reducible apply voteReturn_sound | (with_reducible apply sound_intro; dsimp only; with_reducible apply sound_elim) | split

theorem execGroveSwitchOn_sound (g : Fin 8) (listOk : Bool) : Keeps (execGroveSwitchOn g listOk) := by
  unfold execGroveSwitchOn
  try dsimp only
  repeat' first | with_reducible assumption | with_reducible apply keeps_onHub | with_reducible intro _ | with_reducible apply groveOn_sound | (with_reducible apply sound_intro; dsimp only; with_reducible apply sound_elim) | split

theorem avsAccepted_sound (v : ℕ) (h : Hub) (hp_h : h.Sound) : (avsAccepted v h).Sound := by
  unfold avsAccepted
  try dsimp only
  repeat' first | with_reducible assumption | with_reducible intro _ | with_reducible apply wr_sound | (with_reducible apply sound_intro; dsimp only; with_reducible apply sound_elim) | split

theorem avsUpdate_sound (ack : ℕ) (currentMa : ℕ) (h : Hub) (hp_h : h.Sound) : (avsUpdate ack currentMa h).Sound := by
  unfold avsUpdate
  try dsimp only
  repeat' first | with_reducible assumption | with_reducible intro _ | with_reducible apply avsAccepted_sound | with_reducible apply wr_sound | (with_reducible apply sound_intro; dsimp only; with_reducible apply sound_elim) | split

theorem execAvsUpdate_sound (ack : ℕ) (currentMa : ℕ) : Keeps (execAvsUpdate ack currentMa) := by
  unfold execAvsUpdate
  try dsimp only
  repeat' first | with_reducible assumption | with_reducible apply keeps_onHub | with_reducible intro _ | with_reducible apply avsUpdate_sound | (with_reducible apply sound_intro; dsimp only; with_reducible apply sound_elim) | split

theorem avsRetry_sound (ack : ℕ) (h : Hub) (hp_h : h.Sound) : (avsRetry ack h).Sound := by
  unfold avsRetry
  try dsimp only
  repeat' first | with_reducible assumption | with_reducible intro _ | with_reducible apply bump_sound | with_reducible apply raiseFault_sound | with_reducible apply avsAccepted_sound | (with_reducible apply sound_intro; dsimp only; with_reducible apply sound_elim) | split

theorem execAvsRetry_sound (ack : ℕ) : Keeps (execAvsRetry ack) := by
  unfold execAvsRetry
  try dsimp only
  repeat' first | with_reducible assumption | with_reducible apply keeps_onHub | with_reducible intro _ | with_reducible apply avsRetry_sound | (with_reducible apply sound_intro; dsimp only; with_reducible apply sound_elim) | split

theorem avsReadback_sound (mv : ℕ) (h : Hub) (hp_h : h.Sound) : (avsReadback mv h).Sound := by
  unfold avsReadback
  try dsimp only
  repeat' first | with_reducible assumption | with_reducible intro _ | with_reducible apply raiseFault_sound | with_reducible apply wr_sound | (with_reducible apply sound_intro; dsimp only; with_reducible apply sound_elim) | split

theorem execAvsReadback_sound (mv : ℕ) : Keeps (execAvsReadback mv) := by
  unfold execAvsReadback
  try dsimp only
  repeat' first | with_reducible assumption | with_reducible apply keeps_onHub | with_reducible intro _ | with_reducible apply avsReadback_sound | (with_reducible apply sound_intro; dsimp only; with_reducible apply sound_elim) | split

theorem pmbusRetry_sound (r : ℕ) (ok : Bool) (h : Hub) (hp_h : h.Sound) : (pmbusRetry r ok h).Sound := by
  unfold pmbusRetry
  try dsimp only
  repeat' first | with_reducible assumption | with_reducible intro _ | with_reducible apply bump_sound | with_reducible apply raiseFault_sound | (with_reducible apply sound_intro; dsimp only; with_reducible apply sound_elim) | split

theorem execPmbusRetry_sound (r : Fin 4) (ok : Bool) : Keeps (execPmbusRetry r ok) := by
  unfold execPmbusRetry
  try dsimp only
  repeat' first | with_reducible assumption | with_reducible apply keeps_onHub | with_reducible intro _ | with_reducible apply pmbusRetry_sound | (with_reducible apply sound_intro; dsimp only; with_reducible apply sound_elim) | split

theorem railRead_sound (r : ℕ) (status : ℕ) (h : Hub) (hp_h : h.Sound) : (railRead r status h).Sound := by
  unfold railRead
  try dsimp only
  repeat' first | with_reducible assumption | with_reducible intro _ | with_reducible apply raiseFault_sound | with_reducible apply wr_sound | with_reducible apply causeGone_sound | (with_reducible apply sound_intro; dsimp only; with_reducible apply sound_elim) | split

theorem pmbAlert_sound (status : List ℕ) (h : Hub) (hp_h : h.Sound) : (pmbAlert status h).Sound := by
  unfold pmbAlert
  try dsimp only
  repeat' first | with_reducible assumption | with_reducible intro _ | with_reducible apply bump_sound | with_reducible apply railRead_sound | with_reducible apply raiseEvent_sound | with_reducible apply forEach_sound | (with_reducible apply sound_intro; dsimp only; with_reducible apply sound_elim) | split

theorem execPmbAlert_sound (status : List ℕ) : Keeps (execPmbAlert status) := by
  unfold execPmbAlert
  try dsimp only
  repeat' first | with_reducible assumption | with_reducible apply keeps_onHub | with_reducible intro _ | with_reducible apply pmbAlert_sound | (with_reducible apply sound_intro; dsimp only; with_reducible apply sound_elim) | split

end Sys2Proof.Machine
end

