-- ==== Sys2Proof/Laws/SoundClocks.lean ====
section
/-! SUPPORT. Every operation of Clocks.lean keeps a hub sound. -/

set_option linter.unusedTactic false
set_option linter.unreachableTactic false
set_option linter.unusedVariables false

namespace Sys2Proof.Machine

theorem clockWindow_sound (check : MonitorCheck) (khz : ℕ) (h : Hub) (hp_h : h.Sound) : (clockWindow check khz h).Sound := by
  unfold clockWindow
  try dsimp only
  repeat' first | with_reducible assumption | with_reducible intro _ | with_reducible apply raiseFault_sound | (with_reducible apply sound_intro; dsimp only; with_reducible apply sound_elim) | split

theorem execClockMonitorWindow_sound (check : MonitorCheck) (khz : ℕ) : Keeps (execClockMonitorWindow check khz) := by
  unfold execClockMonitorWindow
  try dsimp only
  repeat' first | with_reducible assumption | with_reducible apply keeps_onHub | with_reducible intro _ | with_reducible apply clockWindow_sound | (with_reducible apply sound_intro; dsimp only; with_reducible apply sound_elim) | split

theorem execCrossingTransfer_sound (src : ℕ) (dst : ℕ) (word : XWord) (parityOk : Bool) : Keeps (execCrossingTransfer src dst word parityOk) := by
  unfold execCrossingTransfer
  try dsimp only
  repeat' first | with_reducible assumption | with_reducible apply keeps_onHub | with_reducible intro _ | with_reducible apply crossingMove_sound | (with_reducible apply sound_intro; dsimp only; with_reducible apply sound_elim) | split

theorem execCrossingTimeout_sound (src : ℕ) (dst : ℕ) : Keeps (execCrossingTimeout src dst) := by
  unfold execCrossingTimeout
  try dsimp only
  repeat' first | with_reducible assumption | with_reducible apply keeps_onHub | with_reducible intro _ | with_reducible apply crossingLate_sound | (with_reducible apply sound_intro; dsimp only; with_reducible apply sound_elim) | split

theorem backstop_sound (cause : ℕ) (h : Hub) (hp_h : h.Sound) : (backstop cause h).Sound := by
  unfold backstop
  try dsimp only
  repeat' first | with_reducible assumption | with_reducible intro _ | with_reducible apply syncPads_sound | with_reducible apply fuseEvalAll_sound | with_reducible apply wr_sound | (with_reducible apply sound_intro; dsimp only; with_reducible apply sound_elim) | split

theorem execBackstopTimeout_sound (heartbeat : Bool) : Keeps (execBackstopTimeout heartbeat) := by
  unfold execBackstopTimeout
  try dsimp only
  repeat' first | with_reducible assumption | with_reducible apply keeps_onHub | with_reducible intro _ | with_reducible apply backstop_sound | (with_reducible apply sound_intro; dsimp only; with_reducible apply sound_elim) | split

end Sys2Proof.Machine
end

