-- ==== Sys2Proof/Laws/SoundDome.lean ====
section
/-! SUPPORT. Every operation of Dome.lean keeps a hub sound. -/

set_option linter.unusedTactic false
set_option linter.unreachableTactic false
set_option linter.unusedVariables false

namespace Sys2Proof.Machine

theorem withApproved_sound (f : Hub → Hub) (h : Hub) (hf_f : ∀ x, x.Sound → (f x).Sound) (hp_h : h.Sound) : (withApproved f h).Sound := by
  unfold withApproved
  try dsimp only
  repeat' first | with_reducible assumption | with_reducible intro _ | with_reducible apply hf_f | with_reducible apply raiseEvent_sound | (with_reducible apply sound_intro; dsimp only; with_reducible apply sound_elim) | split

theorem epochPersisted_sound (e : ℕ) (h : Hub) (hp_h : h.Sound) : (epochPersisted e h).Sound := by
  unfold epochPersisted
  try dsimp only
  repeat' first | with_reducible assumption | with_reducible intro _ | with_reducible apply bump_sound | with_reducible apply raiseEvent_sound | (with_reducible apply sound_intro; dsimp only; with_reducible apply sound_elim) | split

theorem advanceEpoch_sound (rekey : Bool) (h : Hub) (hp_h : h.Sound) : (advanceEpoch rekey h).Sound := by
  unfold advanceEpoch
  try dsimp only
  repeat' first | with_reducible assumption | with_reducible intro _ | with_reducible apply raiseFault_sound | with_reducible apply epochPersisted_sound | (with_reducible apply sound_intro; dsimp only; with_reducible apply sound_elim) | split

theorem ceilingWriteDone_sound (ok : Bool) (h : Hub) (hp_h : h.Sound) : (ceilingWriteDone ok h).Sound := by
  unfold ceilingWriteDone
  try dsimp only
  repeat' first | with_reducible assumption | with_reducible intro _ | with_reducible apply raiseFault_sound | with_reducible apply causeGone_sound | with_reducible apply epochPersisted_sound | (with_reducible apply sound_intro; dsimp only; with_reducible apply sound_elim) | split

theorem execCeilingWriteDone_sound (ok : Bool) : Keeps (execCeilingWriteDone ok) := by
  unfold execCeilingWriteDone
  try dsimp only
  repeat' first | with_reducible assumption | with_reducible apply keeps_onHub | with_reducible intro _ | with_reducible apply ceilingWriteDone_sound | (with_reducible apply sound_intro; dsimp only; with_reducible apply sound_elim) | split

theorem execEpochWriteRetry_sound : Keeps (execEpochWriteRetry) := by
  unfold execEpochWriteRetry
  try dsimp only
  repeat' first | with_reducible assumption | with_reducible apply keeps_onHub | with_reducible intro _ | (with_reducible apply sound_intro; dsimp only; with_reducible apply sound_elim) | split

theorem execRekeyIntervalExpiry_sound : Keeps (execRekeyIntervalExpiry) := by
  unfold execRekeyIntervalExpiry
  try dsimp only
  repeat' first | with_reducible assumption | with_reducible apply keeps_onHub | with_reducible intro _ | with_reducible apply advanceEpoch_sound | (with_reducible apply sound_intro; dsimp only; with_reducible apply sound_elim) | split

theorem domeCommand_sound (p : Path) (v : ℕ) (causes : Hub → Causes → Causes) (f : Hub → Hub) (h : Hub) (hf_f : ∀ x, x.Sound → (f x).Sound) (hp_h : h.Sound) : (domeCommand p v causes f h).Sound := by
  unfold domeCommand
  try dsimp only
  repeat' first | with_reducible assumption | with_reducible intro _ | with_reducible apply hf_f | with_reducible apply pathWrite_sound | (with_reducible apply sound_intro; dsimp only; with_reducible apply sound_elim) | split

theorem execEpochAdvance_sound (p : Path) : Keeps (execEpochAdvance p) := by
  unfold execEpochAdvance
  try dsimp only
  repeat' first | with_reducible assumption | with_reducible apply keeps_onHub | with_reducible intro _ | with_reducible apply advanceEpoch_sound | with_reducible apply domeCommand_sound | (with_reducible apply sound_intro; dsimp only; with_reducible apply sound_elim) | split

theorem sendContext_sound (t : ℕ) (h : Hub) (hp_h : h.Sound) : (sendContext t h).Sound := by
  unfold sendContext
  try dsimp only
  repeat' first | with_reducible assumption | with_reducible intro _ | with_reducible apply wr_sound | (with_reducible apply sound_intro; dsimp only; with_reducible apply sound_elim) | split

theorem exhaust_sound (t : ℕ) (h : Hub) (hp_h : h.Sound) : (exhaust t h).Sound := by
  unfold exhaust
  try dsimp only
  repeat' first | with_reducible assumption | with_reducible intro _ | with_reducible apply bump_sound | with_reducible apply raiseEvent_sound | (with_reducible apply sound_intro; dsimp only; with_reducible apply sound_elim) | split

theorem sealing_sound (f : Frame) (h : Hub) (hp_h : h.Sound) : (sealing f h).2.Sound := by
  unfold sealing
  try dsimp only
  repeat' first | with_reducible assumption | with_reducible intro _ | with_reducible apply advanceEpoch_sound | with_reducible apply bump_sound | with_reducible apply sendContext_sound | with_reducible apply exhaust_sound | with_reducible apply wr_sound | (with_reducible apply sound_intro; dsimp only; with_reducible apply sound_elim) | split

theorem sealFrame_sound (f : Frame) (h : Hub) (hp_h : h.Sound) : (sealFrame f h).Sound := by
  unfold sealFrame
  try dsimp only
  repeat' first | with_reducible assumption | with_reducible intro _ | with_reducible apply sendOver_sound | with_reducible apply enqueue_sound | with_reducible apply sealing_sound | (with_reducible refine pair_sound ‹_ = (_, _)› ?_) | (with_reducible apply sound_intro; dsimp only; with_reducible apply sound_elim) | split

theorem domeActs_sound (act : Frame → Hub → Hub) (f : Frame) (h : Hub) (hf_act : ∀ a0 x, x.Sound → (act a0 x).Sound) (hp_h : h.Sound) : (domeActs act f h).Sound := by
  unfold domeActs
  try dsimp only
  repeat' first | with_reducible assumption | with_reducible intro _ | with_reducible apply hf_act | with_reducible apply bump_sound | (with_reducible apply sound_intro; dsimp only; with_reducible apply sound_elim) | split

theorem domeTakes_sound (act : Frame → Hub → Hub) (f : Frame) (h : Hub) (hf_act : ∀ a0 x, x.Sound → (act a0 x).Sound) (hp_h : h.Sound) : (domeTakes act f h).Sound := by
  unfold domeTakes
  try dsimp only
  repeat' first | with_reducible assumption | with_reducible intro _ | with_reducible apply hf_act | with_reducible apply sendOver_sound | with_reducible apply domeActs_sound | (with_reducible apply sound_intro; dsimp only; with_reducible apply sound_elim) | split

theorem execSealFrame_sound (f : Frame) : Keeps (execSealFrame f) := by
  unfold execSealFrame
  try dsimp only
  repeat' first | with_reducible assumption | with_reducible apply keeps_onHub | with_reducible intro _ | with_reducible apply domeTakes_sound | with_reducible apply sealFrame_sound | (with_reducible apply sound_intro; dsimp only; with_reducible apply sound_elim) | split

theorem putContext_sound (c : RxContext) (h : Hub) (hp_h : h.Sound) : (putContext c h).Sound := by
  unfold putContext
  try dsimp only
  repeat' first | with_reducible assumption | with_reducible intro _ | (with_reducible apply sound_intro; dsimp only; with_reducible apply sound_elim) | split

theorem lookContext_sound (s : ℕ) (t : ℕ) (h : Hub) (hp_h : h.Sound) : (lookContext s t h).2.Sound := by
  unfold lookContext
  try dsimp only
  repeat' first | with_reducible assumption | with_reducible intro _ | with_reducible apply bump_sound | with_reducible apply putContext_sound | (with_reducible apply sound_intro; dsimp only; with_reducible apply sound_elim) | split

theorem openSecured_sound (srk : List Byte) (f : Frame) (h : Hub) (hp_h : h.Sound) : (openSecured srk f h).2.Sound := by
  unfold openSecured
  try dsimp only
  repeat' first | with_reducible assumption | with_reducible intro _ | with_reducible apply whenDo_sound | with_reducible apply bump_sound | with_reducible apply raise16ms_sound | with_reducible apply putContext_sound | with_reducible apply lookContext_sound | (with_reducible refine pair_sound ‹_ = (_, _)› ?_) | (with_reducible apply sound_intro; dsimp only; with_reducible apply sound_elim) | split

theorem openFrame_sound (f : Frame) (h : Hub) (hp_h : h.Sound) : (openFrame f h).2.Sound := by
  unfold openFrame
  try dsimp only
  repeat' first | with_reducible assumption | with_reducible intro _ | with_reducible apply bump_sound | with_reducible apply openSecured_sound | (with_reducible refine pair_sound ‹_ = (_, _)› ?_) | (with_reducible apply sound_intro; dsimp only; with_reducible apply sound_elim) | split

theorem execEpochGraceExpiry_sound (src : ℕ) (slot : ℕ) : Keeps (execEpochGraceExpiry src slot) := by
  unfold execEpochGraceExpiry
  try dsimp only
  repeat' first | with_reducible assumption | with_reducible apply keeps_onHub | with_reducible intro _ | (with_reducible apply sound_intro; dsimp only; with_reducible apply sound_elim) | split

theorem endSession_sound (p : Path) (h : Hub) (hp_h : h.Sound) : (endSession p h).Sound := by
  unfold endSession
  try dsimp only
  repeat' first | with_reducible assumption | with_reducible intro _ | with_reducible apply setSession_sound | (with_reducible apply sound_intro; dsimp only; with_reducible apply sound_elim) | split

theorem execSessionEnd_sound (p : Path) : Keeps (execSessionEnd p) := by
  unfold execSessionEnd
  try dsimp only
  repeat' first | with_reducible assumption | with_reducible apply keeps_onHub | with_reducible intro _ | with_reducible apply pathWrite_sound | with_reducible apply endSession_sound | (with_reducible apply sound_intro; dsimp only; with_reducible apply sound_elim) | split

theorem placeChallenge_sound (p : Path) (role : ℕ) (h : Hub) (hp_h : h.Sound) : (placeChallenge p role h).Sound := by
  unfold placeChallenge
  try dsimp only
  repeat' first | with_reducible assumption | with_reducible intro _ | with_reducible apply setSession_sound | (with_reducible apply sound_intro; dsimp only; with_reducible apply sound_elim) | split

theorem roleRequest_sound (p : Path) (role : ℕ) (h : Hub) (hp_h : h.Sound) : (roleRequest p role h).Sound := by
  unfold roleRequest
  try dsimp only
  repeat' first | with_reducible assumption | with_reducible intro _ | with_reducible apply placeChallenge_sound | with_reducible apply pathWrite_sound | (with_reducible apply sound_intro; dsimp only; with_reducible apply sound_elim) | split

theorem execOperatorRoleRequest_sound (p : Path) : Keeps (execOperatorRoleRequest p) := by
  unfold execOperatorRoleRequest
  try dsimp only
  repeat' first | with_reducible assumption | with_reducible apply keeps_onHub | with_reducible intro _ | with_reducible apply roleRequest_sound | (with_reducible apply sound_intro; dsimp only; with_reducible apply sound_elim) | split

theorem execCryptoOfficerRoleRequest_sound (p : Path) : Keeps (execCryptoOfficerRoleRequest p) := by
  unfold execCryptoOfficerRoleRequest
  try dsimp only
  repeat' first | with_reducible assumption | with_reducible apply keeps_onHub | with_reducible intro _ | with_reducible apply roleRequest_sound | (with_reducible apply sound_intro; dsimp only; with_reducible apply sound_elim) | split

theorem wrongResponse_sound (p : Path) (h : Hub) (hp_h : h.Sound) : (wrongResponse p h).Sound := by
  unfold wrongResponse
  try dsimp only
  repeat' first | with_reducible assumption | with_reducible intro _ | with_reducible apply bump_sound | with_reducible apply raiseEvent_sound | with_reducible apply setSession_sound | (with_reducible apply sound_intro; dsimp only; with_reducible apply sound_elim) | split

theorem judgeResponse_sound (p : Path) (response : List Byte) (h : Hub) (hp_h : h.Sound) : (judgeResponse p response h).Sound := by
  unfold judgeResponse
  try dsimp only
  repeat' first | with_reducible assumption | with_reducible intro _ | with_reducible apply setSession_sound | with_reducible apply wrongResponse_sound | (with_reducible apply sound_intro; dsimp only; with_reducible apply sound_elim) | split

theorem responseWrite_sound (p : Path) (sub : ℕ) (response : List Byte) (h : Hub) (hp_h : h.Sound) : (responseWrite p sub response h).Sound := by
  unfold responseWrite
  try dsimp only
  repeat' first | with_reducible assumption | with_reducible intro _ | with_reducible apply pathTry_sound | with_reducible apply id_sound | with_reducible apply pathWrite_sound | with_reducible apply judgeResponse_sound | (with_reducible apply sound_intro; dsimp only; with_reducible apply sound_elim) | split

theorem execResponseWrite_sound (p : Path) (response : List Byte) : Keeps (execResponseWrite p response) := by
  unfold execResponseWrite
  try dsimp only
  repeat' first | with_reducible assumption | with_reducible apply keeps_onHub | with_reducible intro _ | with_reducible apply responseWrite_sound | (with_reducible apply sound_intro; dsimp only; with_reducible apply sound_elim) | split

theorem execChallengeExpiry_sound (p : Path) : Keeps (execChallengeExpiry p) := by
  unfold execChallengeExpiry
  try dsimp only
  repeat' first | with_reducible assumption | with_reducible apply keeps_onHub | with_reducible intro _ | with_reducible apply setSession_sound | (with_reducible apply sound_intro; dsimp only; with_reducible apply sound_elim) | split

theorem execRoleLockoutExpiry_sound (p : Path) : Keeps (execRoleLockoutExpiry p) := by
  unfold execRoleLockoutExpiry
  try dsimp only
  repeat' first | with_reducible assumption | with_reducible apply keeps_onHub | with_reducible intro _ | with_reducible apply setSession_sound | (with_reducible apply sound_intro; dsimp only; with_reducible apply sound_elim) | split

theorem execSessionIdleTimeout_sound (p : Path) : Keeps (execSessionIdleTimeout p) := by
  unfold execSessionIdleTimeout
  try dsimp only
  repeat' first | with_reducible assumption | with_reducible apply keeps_onHub | with_reducible intro _ | with_reducible apply endSession_sound | (with_reducible apply sound_intro; dsimp only; with_reducible apply sound_elim) | split

theorem execInstallCommand_sound (p : Path) (value : ℕ) : Keeps (execInstallCommand p value) := by
  unfold execInstallCommand
  try dsimp only
  repeat' first | with_reducible assumption | with_reducible apply keeps_onHub | with_reducible intro _ | with_reducible apply raiseEvent_sound | with_reducible apply pathWrite_sound | with_reducible apply withApproved_sound | (with_reducible apply sound_intro; dsimp only; with_reducible apply sound_elim) | split

theorem testResults_sound (results : ℕ) (h : Hub) (hp_h : h.Sound) : (testResults results h).Sound := by
  unfold testResults
  try dsimp only
  repeat' first | with_reducible assumption | with_reducible intro _ | with_reducible apply raiseFault_sound | with_reducible apply wr_sound | (with_reducible apply sound_intro; dsimp only; with_reducible apply sound_elim) | split

theorem execSelfTests_sound (p : Path) (results : ℕ) : Keeps (execSelfTests p results) := by
  unfold execSelfTests
  try dsimp only
  repeat' first | with_reducible assumption | with_reducible apply keeps_onHub | with_reducible intro _ | with_reducible apply domeCommand_sound | with_reducible apply testResults_sound | with_reducible apply withApproved_sound | (with_reducible apply sound_intro; dsimp only; with_reducible apply sound_elim) | split

theorem zeroise_sound (h : Hub) (hp_h : h.Sound) : (zeroise h).Sound := by
  unfold zeroise
  try dsimp only
  repeat' first | with_reducible assumption | with_reducible intro _ | with_reducible apply whenDo_sound | with_reducible apply wrStamp_sound | with_reducible apply raiseEvent_sound | with_reducible apply wr_sound | with_reducible apply forEach_sound | (with_reducible apply sound_intro; dsimp only; with_reducible apply sound_elim) | split

theorem execZeroise_sound (p : Path) : Keeps (execZeroise p) := by
  unfold execZeroise
  try dsimp only
  repeat' first | with_reducible assumption | with_reducible apply keeps_onHub | with_reducible intro _ | with_reducible apply domeCommand_sound | with_reducible apply zeroise_sound | with_reducible apply withApproved_sound | (with_reducible apply sound_intro; dsimp only; with_reducible apply sound_elim) | split

theorem execTamperEvent_sound (kind : ℕ) : Keeps (execTamperEvent kind) := by
  unfold execTamperEvent
  try dsimp only
  repeat' first | with_reducible assumption | with_reducible apply keeps_onHub | with_reducible intro _ | with_reducible apply bump_sound | with_reducible apply raiseFault_sound | with_reducible apply zeroise_sound | with_reducible apply withApproved_sound | (with_reducible apply sound_intro; dsimp only; with_reducible apply sound_elim) | split

end Sys2Proof.Machine
end

