-- ==== Sys2Proof/Laws/SoundModes.lean ====
section
/-! SUPPORT. Every operation of Modes.lean keeps a hub sound. -/

set_option linter.unusedTactic false
set_option linter.unreachableTactic false
set_option linter.unusedVariables false

namespace Sys2Proof.Machine

theorem wakeResource_sound (j : ℕ) (h0 : Hub) (hp_h0 : h0.Sound) : (wakeResource j h0).Sound := by
  unfold wakeResource
  try dsimp only
  repeat' first | with_reducible assumption | with_reducible intro _ | with_reducible apply groveOn_sound | with_reducible apply takeFree_sound | with_reducible apply wr_sound | (with_reducible refine pair_sound ‹_ = (_, _)› ?_) | (with_reducible apply sound_intro; dsimp only; with_reducible apply sound_elim) | split

theorem wakeAll_sound (h : Hub) (hp_h : h.Sound) : (wakeAll h).Sound := by
  unfold wakeAll
  try dsimp only
  repeat' first | with_reducible assumption | with_reducible intro _ | with_reducible apply wakeResource_sound | with_reducible apply forEach_sound | (with_reducible apply sound_intro; dsimp only; with_reducible apply sound_elim) | split

theorem fuseModeEntry_sound (old : ℕ) (new : ℕ) (req : ℕ → Bool) (h : Hub) (hp_h : h.Sound) : (fuseModeEntry old new req h).Sound := by
  unfold fuseModeEntry
  try dsimp only
  repeat' first | with_reducible assumption | with_reducible intro _ | with_reducible apply wr_sound | with_reducible apply setFuse_sound | with_reducible apply forEach_sound | (with_reducible apply sound_intro; dsimp only; with_reducible apply sound_elim) | split

theorem abandonMailbox_sound (h : Hub) (hp_h : h.Sound) : (abandonMailbox h).Sound := by
  unfold abandonMailbox
  try dsimp only
  repeat' first | with_reducible assumption | with_reducible intro _ | with_reducible apply wr_sound | (with_reducible apply sound_intro; dsimp only; with_reducible apply sound_elim) | split

theorem modeMemory_sound (old : ℕ) (new : ℕ) (h : Hub) (hp_h : h.Sound) : (modeMemory old new h).Sound := by
  unfold modeMemory
  try dsimp only
  repeat' first | with_reducible assumption | with_reducible intro _ | (with_reducible apply sound_intro; dsimp only; with_reducible apply sound_elim) | split

theorem holdoverEnds_sound (h : Hub) (hp_h : h.Sound) : (holdoverEnds h).Sound := by
  unfold holdoverEnds
  try dsimp only
  repeat' first | with_reducible assumption | with_reducible intro _ | with_reducible apply wr_sound | with_reducible apply causeGone_sound | (with_reducible apply sound_intro; dsimp only; with_reducible apply sound_elim) | split

theorem spireCommission_sound (h : Hub) (hp_h : h.Sound) : (spireCommission h).Sound := by
  unfold spireCommission
  try dsimp only
  repeat' first | with_reducible assumption | with_reducible intro _ | with_reducible apply holdoverEnds_sound | with_reducible apply wrs_sound | (with_reducible apply sound_intro; dsimp only; with_reducible apply sound_elim) | split

theorem bootUp_sound (h : Hub) (hp_h : h.Sound) : (bootUp h).Sound := by
  unfold bootUp
  try dsimp only
  repeat' first | with_reducible assumption | with_reducible intro _ | (with_reducible apply sound_intro; dsimp only; with_reducible apply sound_elim) | split

theorem nodeIdUpdate_sound (h : Hub) (hp_h : h.Sound) : (nodeIdUpdate h).Sound := by
  unfold nodeIdUpdate
  try dsimp only
  repeat' first | with_reducible assumption | with_reducible intro _ | with_reducible apply wr_sound | with_reducible apply bootUp_sound | (with_reducible apply sound_intro; dsimp only; with_reducible apply sound_elim) | split

theorem canopenCommission_sound (h : Hub) (hp_h : h.Sound) : (canopenCommission h).Sound := by
  unfold canopenCommission
  try dsimp only
  repeat' first | with_reducible assumption | with_reducible intro _ | with_reducible apply wr_sound | with_reducible apply bootUp_sound | (with_reducible apply sound_intro; dsimp only; with_reducible apply sound_elim) | split

theorem claimAfresh_sound (old : ℕ) (h : Hub) (hp_h : h.Sound) : (claimAfresh old h).Sound := by
  unfold claimAfresh
  try dsimp only
  repeat' first | with_reducible assumption | with_reducible intro _ | (with_reducible apply sound_intro; dsimp only; with_reducible apply sound_elim) | split

theorem unboundCause_sound (old : ℕ) (new : ℕ) (h : Hub) (hp_h : h.Sound) : (unboundCause old new h).Sound := by
  unfold unboundCause
  try dsimp only
  repeat' first | with_reducible assumption | with_reducible intro _ | with_reducible apply raiseEvent_sound | with_reducible apply wr_sound | with_reducible apply forEach_sound | (with_reducible apply sound_intro; dsimp only; with_reducible apply sound_elim) | split

theorem changeMode_sound (new : ℕ) (h0 : Hub) (hp_h0 : h0.Sound) : (changeMode new h0).Sound := by
  unfold changeMode
  try dsimp only
  repeat' first | with_reducible assumption | with_reducible intro _ | with_reducible apply whenDo_sound | with_reducible apply abandonMailbox_sound | with_reducible apply wakeAll_sound | with_reducible apply syncPads_sound | with_reducible apply modeMemory_sound | with_reducible apply unboundCause_sound | with_reducible apply raiseEvent_sound | with_reducible apply wrTime_sound | with_reducible apply claimAfresh_sound | with_reducible apply fuseEvalAll_sound | with_reducible apply wr_sound | with_reducible apply spireCommission_sound | with_reducible apply canopenCommission_sound | with_reducible apply wrs_sound | with_reducible apply fuseModeEntry_sound | (with_reducible apply sound_intro; dsimp only; with_reducible apply sound_elim) | split

theorem setLimpCause_sound (b : ℕ) (v : Bool) (h : Hub) (hp_h : h.Sound) : (setLimpCause b v h).Sound := by
  unfold setLimpCause
  try dsimp only
  repeat' first | with_reducible assumption | with_reducible intro _ | with_reducible apply changeMode_sound | with_reducible apply wr_sound | (with_reducible apply sound_intro; dsimp only; with_reducible apply sound_elim) | split

end Sys2Proof.Machine
end

