-- ==== Sys2Proof/Laws/SoundRingOps.lean ====
section
/-! SUPPORT. Every operation of RingOps.lean keeps a hub sound. -/

set_option linter.unusedTactic false
set_option linter.unreachableTactic false
set_option linter.unusedVariables false

namespace Sys2Proof.Machine

theorem setLink_sound (h : Hub) (p : ℕ) (x : Link) (hp_h : h.Sound) : (setLink h p x).Sound := by
  unfold setLink
  try dsimp only
  repeat' first | with_reducible assumption | with_reducible intro _ | (with_reducible apply sound_intro; dsimp only; with_reducible apply sound_elim) | split

theorem ringUpdate_sound (h : Hub) (hp_h : h.Sound) : (ringUpdate h).Sound := by
  unfold ringUpdate
  try dsimp only
  repeat' first | with_reducible assumption | with_reducible intro _ | with_reducible apply whenDo_sound | with_reducible apply setLimpCause_sound | with_reducible apply raiseEvent_sound | with_reducible apply wr_sound | (with_reducible apply sound_intro; dsimp only; with_reducible apply sound_elim) | split

theorem clearDups_sound (src : ℕ) (h : Hub) (hp_h : h.Sound) : (clearDups src h).Sound := by
  unfold clearDups
  try dsimp only
  repeat' first | with_reducible assumption | with_reducible intro _ | (with_reducible apply sound_intro; dsimp only; with_reducible apply sound_elim) | split

theorem noteOthers_sound (h : Hub) (hp_h : h.Sound) : (noteOthers h).Sound := by
  unfold noteOthers
  try dsimp only
  repeat' first | with_reducible assumption | with_reducible intro _ | (with_reducible apply sound_intro; dsimp only; with_reducible apply sound_elim) | split

theorem mapChange_sound (f : Hub → Hub) (h : Hub) (hf_f : ∀ x, x.Sound → (f x).Sound) (hp_h : h.Sound) : (mapChange f h).Sound := by
  unfold mapChange
  try dsimp only
  repeat' first | with_reducible assumption | with_reducible intro _ | with_reducible apply hf_f | with_reducible apply ringUpdate_sound | with_reducible apply noteOthers_sound | with_reducible apply clearDups_sound | with_reducible apply forEach_sound | (with_reducible apply sound_intro; dsimp only; with_reducible apply sound_elim) | split

theorem ringControl_sound (sub : ℕ) (payload : List ℕ) (h : Hub) (hp_h : h.Sound) : (ringControl sub payload h).Sound := by
  unfold ringControl
  try dsimp only
  repeat' first | with_reducible assumption | with_reducible intro _ | with_reducible apply originate_sound | (with_reducible apply sound_intro; dsimp only; with_reducible apply sound_elim) | split

theorem dupCheck_sound (f : Frame) (h : Hub) (hp_h : h.Sound) : (dupCheck f h).2.Sound := by
  unfold dupCheck
  try dsimp only
  repeat' first | with_reducible assumption | with_reducible intro _ | with_reducible apply bump_sound | (with_reducible apply sound_intro; dsimp only; with_reducible apply sound_elim) | split

theorem wakeProductive_sound (j : ℕ) (h : Hub) (hp_h : h.Sound) : (wakeProductive j h).Sound := by
  unfold wakeProductive
  try dsimp only
  repeat' first | with_reducible assumption | with_reducible intro _ | with_reducible apply wr_sound | (with_reducible apply sound_intro; dsimp only; with_reducible apply sound_elim) | split

end Sys2Proof.Machine
end

