-- ==== Sys2Proof/Laws/SoundRingLinks.lean ====
section
/-! SUPPORT. Every operation of RingLinks.lean keeps a hub sound. -/

set_option linter.unusedTactic false
set_option linter.unreachableTactic false
set_option linter.unusedVariables false

namespace Sys2Proof.Machine

theorem setRx_sound (p : ℕ) (st : ℕ) (h : Hub) (hp_h : h.Sound) : (setRx p st h).Sound := by
  unfold setRx
  try dsimp only
  repeat' first | with_reducible assumption | with_reducible intro _ | with_reducible apply setLink_sound | with_reducible apply wr_sound | (with_reducible apply sound_intro; dsimp only; with_reducible apply sound_elim) | split

theorem rxStep_sound (p : ℕ) (src : ℕ) (dst : ℕ) (h : Hub) (hp_h : h.Sound) : (rxStep p src dst h).Sound := by
  unfold rxStep
  try dsimp only
  repeat' first | with_reducible assumption | with_reducible intro _ | with_reducible apply setRx_sound | (with_reducible apply sound_intro; dsimp only; with_reducible apply sound_elim) | split

theorem setTx_sound (h : Hub) (p : ℕ) (x : Tx) (hp_h : h.Sound) : (setTx h p x).Sound := by
  unfold setTx
  try dsimp only
  repeat' first | with_reducible assumption | with_reducible intro _ | (with_reducible apply sound_intro; dsimp only; with_reducible apply sound_elim) | split

theorem queueTx_sound (p : ℕ) (own : Bool) (x : TxFrame) (h : Hub) (hp_h : h.Sound) : (queueTx p own x h).Sound := by
  unfold queueTx
  try dsimp only
  repeat' first | with_reducible assumption | with_reducible intro _ | with_reducible apply setTx_sound | (with_reducible apply sound_intro; dsimp only; with_reducible apply sound_elim) | split

theorem forward_sound (p : ℕ) (hop : ℕ) (error : Bool) (crc : Option ℕ) (f : Frame) (h : Hub) (hp_h : h.Sound) : (forward p hop error crc f h).Sound := by
  unfold forward
  try dsimp only
  repeat' first | with_reducible assumption | with_reducible intro _ | with_reducible apply bump_sound | with_reducible apply queueTx_sound | (with_reducible apply sound_intro; dsimp only; with_reducible apply sound_elim) | split

theorem changeCopy_sound (p : ℕ) (f : Frame) (g : TxFrame → TxFrame) (h : Hub) (hp_h : h.Sound) : (changeCopy p f g h).Sound := by
  unfold changeCopy
  try dsimp only
  repeat' first | with_reducible assumption | with_reducible intro _ | with_reducible apply setTx_sound | (with_reducible apply sound_intro; dsimp only; with_reducible apply sound_elim) | split

theorem forwardBroken_sound (p : ℕ) (x : Frame × ℕ) (h : Hub) (hp_h : h.Sound) : (forwardBroken p x h).Sound := by
  unfold forwardBroken
  try dsimp only
  repeat' first | with_reducible assumption | with_reducible intro _ | with_reducible apply forward_sound | with_reducible apply changeCopy_sound | (with_reducible apply sound_intro; dsimp only; with_reducible apply sound_elim) | split

theorem arrived_sound (p : ℕ) (f : Frame) (h : Hub) (hp_h : h.Sound) : (arrived p f h).Sound := by
  unfold arrived
  try dsimp only
  repeat' first | with_reducible assumption | with_reducible intro _ | with_reducible apply setLink_sound | (with_reducible apply sound_intro; dsimp only; with_reducible apply sound_elim) | split

theorem breakArriving_sound (p : ℕ) (h : Hub) (hp_h : h.Sound) : (breakArriving p h).Sound := by
  unfold breakArriving
  try dsimp only
  repeat' first | with_reducible assumption | with_reducible intro _ | with_reducible apply whenDo_sound | with_reducible apply bump_sound | with_reducible apply arrived_sound | with_reducible apply forEach_sound | with_reducible apply forwardBroken_sound | (with_reducible apply sound_intro; dsimp only; with_reducible apply sound_elim) | split

theorem linkDown_sound (p : ℕ) (st : ℕ) (h0 : Hub) (hp_h0 : h0.Sound) : (linkDown p st h0).Sound := by
  unfold linkDown
  try dsimp only
  repeat' first | with_reducible assumption | with_reducible intro _ | with_reducible apply whenDo_sound | with_reducible apply bump_sound | with_reducible apply ringUpdate_sound | with_reducible apply raiseEvent_sound | with_reducible apply setLink_sound | with_reducible apply breakArriving_sound | with_reducible apply ringControl_sound | with_reducible apply wr_sound | (with_reducible apply sound_intro; dsimp only; with_reducible apply sound_elim) | split

theorem startSerdes_sound (h : Hub) (hp_h : h.Sound) : (startSerdes h).Sound := by
  unfold startSerdes
  try dsimp only
  repeat' first | with_reducible assumption | with_reducible intro _ | with_reducible apply setRx_sound | with_reducible apply forEach_sound | (with_reducible apply sound_intro; dsimp only; with_reducible apply sound_elim) | split

theorem execLinkDownRestart_sound (port : Port) : Keeps (execLinkDownRestart port) := by
  unfold execLinkDownRestart
  try dsimp only
  repeat' first | with_reducible assumption | with_reducible apply keeps_onHub | with_reducible intro _ | with_reducible apply setRx_sound | with_reducible apply setLink_sound | (with_reducible apply sound_intro; dsimp only; with_reducible apply sound_elim) | split

theorem execLinkSignalDetect_sound (port : Port) : Keeps (execLinkSignalDetect port) := by
  unfold execLinkSignalDetect
  try dsimp only
  repeat' first | with_reducible assumption | with_reducible apply keeps_onHub | with_reducible intro _ | with_reducible apply rxStep_sound | (with_reducible apply sound_intro; dsimp only; with_reducible apply sound_elim) | split

theorem execBlockLock_sound (port : Port) : Keeps (execBlockLock port) := by
  unfold execBlockLock
  try dsimp only
  repeat' first | with_reducible assumption | with_reducible apply keeps_onHub | with_reducible intro _ | with_reducible apply rxStep_sound | (with_reducible apply sound_intro; dsimp only; with_reducible apply sound_elim) | split

theorem execAlignLock_sound (port : Port) (skew : ℕ) : Keeps (execAlignLock port skew) := by
  unfold execAlignLock
  try dsimp only
  repeat' first | with_reducible assumption | with_reducible apply keeps_onHub | with_reducible intro _ | with_reducible apply setRx_sound | with_reducible apply wr_sound | (with_reducible apply sound_intro; dsimp only; with_reducible apply sound_elim) | split

theorem execFecLock_sound (port : Port) : Keeps (execFecLock port) := by
  unfold execFecLock
  try dsimp only
  repeat' first | with_reducible assumption | with_reducible apply keeps_onHub | with_reducible intro _ | with_reducible apply rxStep_sound | (with_reducible apply sound_intro; dsimp only; with_reducible apply sound_elim) | split

theorem remoteMark_sound (p : ℕ) (remoteFault : Bool) (h : Hub) (hp_h : h.Sound) : (remoteMark p remoteFault h).Sound := by
  unfold remoteMark
  try dsimp only
  repeat' first | with_reducible assumption | with_reducible intro _ | with_reducible apply wr_sound | (with_reducible apply sound_intro; dsimp only; with_reducible apply sound_elim) | split

theorem validHello_sound (p : ℕ) (remoteFault : Bool) (hub : ℕ) (h : Hub) (hp_h : h.Sound) : (validHello p remoteFault hub h).Sound := by
  unfold validHello
  try dsimp only
  repeat' first | with_reducible assumption | with_reducible intro _ | with_reducible apply ringUpdate_sound | with_reducible apply remoteMark_sound | with_reducible apply wakeProductive_sound | with_reducible apply setLink_sound | with_reducible apply rxStep_sound | with_reducible apply wr_sound | (with_reducible apply sound_intro; dsimp only; with_reducible apply sound_elim) | split

theorem miswiredHello_sound (p : ℕ) (h : Hub) (hp_h : h.Sound) : (miswiredHello p h).Sound := by
  unfold miswiredHello
  try dsimp only
  repeat' first | with_reducible assumption | with_reducible intro _ | with_reducible apply setLink_sound | with_reducible apply raiseLimited_sound | (with_reducible apply sound_intro; dsimp only; with_reducible apply sound_elim) | split

theorem helloReceived_sound (p : ℕ) (version : ℕ) (sender : Port) (remoteFault : Bool) (hub : ℕ) (h : Hub) (hp_h : h.Sound) : (helloReceived p version sender remoteFault hub h).Sound := by
  unfold helloReceived
  try dsimp only
  repeat' first | with_reducible assumption | with_reducible intro _ | with_reducible apply ringUpdate_sound | with_reducible apply miswiredHello_sound | with_reducible apply validHello_sound | with_reducible apply remoteMark_sound | (with_reducible apply sound_intro; dsimp only; with_reducible apply sound_elim) | split

theorem execHelloReceived_sound (port : Port) (version : ℕ) (sender : Port) (remoteFault : Bool) (hub : ℕ) : Keeps (execHelloReceived port version sender remoteFault hub) := by
  unfold execHelloReceived
  try dsimp only
  repeat' first | with_reducible assumption | with_reducible apply keeps_onHub | with_reducible intro _ | with_reducible apply helloReceived_sound | (with_reducible apply sound_intro; dsimp only; with_reducible apply sound_elim) | split

theorem execLinkStateTimeout_sound (port : Port) : Keeps (execLinkStateTimeout port) := by
  unfold execLinkStateTimeout
  try dsimp only
  repeat' first | with_reducible assumption | with_reducible apply keeps_onHub | with_reducible intro _ | with_reducible apply setRx_sound | with_reducible apply setLink_sound | (with_reducible apply sound_intro; dsimp only; with_reducible apply sound_elim) | split

theorem holdDownExpiry_sound (p : ℕ) (h : Hub) (hp_h : h.Sound) : (holdDownExpiry p h).Sound := by
  unfold holdDownExpiry
  try dsimp only
  repeat' first | with_reducible assumption | with_reducible intro _ | with_reducible apply whenDo_sound | with_reducible apply setRx_sound | with_reducible apply ringUpdate_sound | with_reducible apply raiseEvent_sound | with_reducible apply setLink_sound | with_reducible apply ringControl_sound | (with_reducible apply sound_intro; dsimp only; with_reducible apply sound_elim) | split

theorem execHoldDownExpiry_sound (port : Port) : Keeps (execHoldDownExpiry port) := by
  unfold execHoldDownExpiry
  try dsimp only
  repeat' first | with_reducible assumption | with_reducible apply keeps_onHub | with_reducible intro _ | with_reducible apply holdDownExpiry_sound | (with_reducible apply sound_intro; dsimp only; with_reducible apply sound_elim) | split

theorem execHelloSend_sound (port : Port) : Keeps (execHelloSend port) := by
  unfold execHelloSend
  try dsimp only
  repeat' first | with_reducible assumption | with_reducible apply keeps_onHub | with_reducible intro _ | with_reducible apply setLink_sound | (with_reducible apply sound_intro; dsimp only; with_reducible apply sound_elim) | split

theorem execLinkTrainFailTimer_sound (port : Port) : Keeps (execLinkTrainFailTimer port) := by
  unfold execLinkTrainFailTimer
  try dsimp only
  repeat' first | with_reducible assumption | with_reducible apply keeps_onHub | with_reducible intro _ | with_reducible apply raiseEvent_sound | (with_reducible apply sound_intro; dsimp only; with_reducible apply sound_elim) | split

theorem execLinkFailure_sound (port : Port) (cause : LinkCause) : Keeps (execLinkFailure port cause) := by
  unfold execLinkFailure
  try dsimp only
  repeat' first | with_reducible assumption | with_reducible apply keeps_onHub | with_reducible intro _ | with_reducible apply linkDown_sound | (with_reducible apply sound_intro; dsimp only; with_reducible apply sound_elim) | split

theorem execErrorTakedown_sound (port : Port) (found : ErrorCount) : Keeps (execErrorTakedown port found) := by
  unfold execErrorTakedown
  try dsimp only
  repeat' first | with_reducible assumption | with_reducible apply keeps_onHub | with_reducible intro _ | with_reducible apply whenDo_sound | with_reducible apply linkDown_sound | with_reducible apply bumpBy_sound | with_reducible apply raiseEvent_sound | (with_reducible apply sound_intro; dsimp only; with_reducible apply sound_elim) | split

theorem arrive_sound (p : ℕ) (y0 : Frame) (h : Hub) (hp_h : h.Sound) : (arrive p y0 h).Sound := by
  unfold arrive
  try dsimp only
  repeat' first | with_reducible assumption | with_reducible intro _ | with_reducible apply sendOver_sound | (with_reducible apply sound_intro; dsimp only; with_reducible apply sound_elim) | split

theorem deliver_sound (p : ℕ) (f : Frame) (check : FrameCheck) (marked : Bool) (h : Hub) (hp_h : h.Sound) : (deliver p f check marked h).Sound := by
  unfold deliver
  try dsimp only
  repeat' first | with_reducible assumption | with_reducible intro _ | with_reducible apply openFrame_sound | with_reducible apply bump_sound | with_reducible apply arrive_sound | with_reducible apply dupCheck_sound | (with_reducible refine pair_sound ‹_ = (_, _)› ?_) | (with_reducible apply sound_intro; dsimp only; with_reducible apply sound_elim) | split

theorem passOn_sound (p : ℕ) (f : Frame) (hop : ℕ) (crc : ℕ) (marked : Bool) (h : Hub) (hp_h : h.Sound) : (passOn p f hop crc marked h).Sound := by
  unfold passOn
  try dsimp only
  repeat' first | with_reducible assumption | with_reducible intro _ | with_reducible apply forward_sound | with_reducible apply changeCopy_sound | (with_reducible apply sound_intro; dsimp only; with_reducible apply sound_elim) | split

theorem frameArrived_sound (p : ℕ) (f : Frame) (hop : ℕ) (check : FrameCheck) (marked : Bool) (h : Hub) (hp_h : h.Sound) : (frameArrived p f hop check marked h).Sound := by
  unfold frameArrived
  try dsimp only
  repeat' first | with_reducible assumption | with_reducible intro _ | with_reducible apply whenDo_sound | with_reducible apply bump_sound | with_reducible apply deliver_sound | with_reducible apply passOn_sound | (with_reducible apply sound_intro; dsimp only; with_reducible apply sound_elim) | split

theorem frameBegins_sound (p : ℕ) (f : Frame) (hop : ℕ) (h : Hub) (hp_h : h.Sound) : (frameBegins p f hop h).Sound := by
  unfold frameBegins
  try dsimp only
  repeat' first | with_reducible assumption | with_reducible intro _ | with_reducible apply setLink_sound | with_reducible apply forward_sound | (with_reducible apply sound_intro; dsimp only; with_reducible apply sound_elim) | split

theorem frameReceive_sound (p : ℕ) (f : Frame) (hop : ℕ) (check : FrameCheck) (h : Hub) (hp_h : h.Sound) : (frameReceive p f hop check h).Sound := by
  unfold frameReceive
  try dsimp only
  repeat' first | with_reducible assumption | with_reducible intro _ | with_reducible apply bump_sound | with_reducible apply frameArrived_sound | with_reducible apply arrived_sound | with_reducible apply forwardBroken_sound | with_reducible apply frameBegins_sound | (with_reducible apply sound_intro; dsimp only; with_reducible apply sound_elim) | split

theorem openAndDeliver_sound (f : Frame) (h : Hub) (hp_h : h.Sound) : (openAndDeliver f h).Sound := by
  unfold openAndDeliver
  try dsimp only
  repeat' first | with_reducible assumption | with_reducible intro _ | with_reducible apply openFrame_sound | with_reducible apply sendOver_sound | with_reducible apply enqueue_sound | with_reducible apply dupCheck_sound | (with_reducible refine pair_sound ‹_ = (_, _)› ?_) | (with_reducible apply sound_intro; dsimp only; with_reducible apply sound_elim) | split

theorem execOpenFrame_sound (frame : Frame) : Keeps (execOpenFrame frame) := by
  unfold execOpenFrame
  try dsimp only
  repeat' first | with_reducible assumption | with_reducible apply keeps_onHub | with_reducible intro _ | with_reducible apply domeTakes_sound | with_reducible apply openAndDeliver_sound | (with_reducible apply sound_intro; dsimp only; with_reducible apply sound_elim) | split

theorem noteLeaving_sound (p : ℕ) (h : Hub) (hp_h : h.Sound) : (noteLeaving p h).Sound := by
  unfold noteLeaving
  try dsimp only
  repeat' first | with_reducible assumption | with_reducible intro _ | with_reducible apply setLink_sound | (with_reducible apply sound_intro; dsimp only; with_reducible apply sound_elim) | split

theorem frameSend_sound (p : ℕ) (sent : ℕ) (h : Hub) (hp_h : h.Sound) : (frameSend p sent h).Sound := by
  unfold frameSend
  try dsimp only
  repeat' first | with_reducible assumption | with_reducible intro _ | with_reducible apply noteLeaving_sound | with_reducible apply setTx_sound | (with_reducible apply sound_intro; dsimp only; with_reducible apply sound_elim) | split

theorem execFrameSend_sound (point : SendPoint) : Keeps (execFrameSend point) := by
  unfold execFrameSend
  try dsimp only
  repeat' first | with_reducible assumption | with_reducible apply keeps_onHub | with_reducible intro _ | with_reducible apply frameSend_sound | (with_reducible apply sound_intro; dsimp only; with_reducible apply sound_elim) | split

theorem execPresenceSend_sound : Keeps (execPresenceSend) := by
  unfold execPresenceSend
  try dsimp only
  repeat' first | with_reducible assumption | with_reducible apply keeps_onHub | with_reducible intro _ | with_reducible apply ringControl_sound | (with_reducible apply sound_intro; dsimp only; with_reducible apply sound_elim) | split

theorem heardOn_sound (ring : RingId) (src : ℕ) (hop : ℕ) (role : ℕ) (md : ℕ) (h : Hub) (hp_h : h.Sound) : (heardOn ring src hop role md h).Sound := by
  unfold heardOn
  try dsimp only
  repeat' first | with_reducible assumption | with_reducible intro _ | (with_reducible apply sound_intro; dsimp only; with_reducible apply sound_elim) | split

theorem presence_sound (ring : RingId) (src : ℕ) (hop : ℕ) (role : ℕ) (md : ℕ) (h : Hub) (hp_h : h.Sound) : (presence ring src hop role md h).Sound := by
  unfold presence
  try dsimp only
  repeat' first | with_reducible assumption | with_reducible intro _ | with_reducible apply heardOn_sound | with_reducible apply mapChange_sound | (with_reducible apply sound_intro; dsimp only; with_reducible apply sound_elim) | split

theorem presenceTimeout_sound (hub : ℕ) (ring : RingId) (h : Hub) (hp_h : h.Sound) : (presenceTimeout hub ring h).Sound := by
  unfold presenceTimeout
  try dsimp only
  repeat' first | with_reducible assumption | with_reducible intro _ | with_reducible apply ringUpdate_sound | with_reducible apply noteOthers_sound | (with_reducible apply sound_intro; dsimp only; with_reducible apply sound_elim) | split

theorem claimSend_sound (h : Hub) (hp_h : h.Sound) : (claimSend h).Sound := by
  unfold claimSend
  try dsimp only
  repeat' first | with_reducible assumption | with_reducible intro _ | with_reducible apply ringControl_sound | (with_reducible apply sound_intro; dsimp only; with_reducible apply sound_elim) | split

theorem execClaimSend_sound : Keeps (execClaimSend) := by
  unfold execClaimSend
  try dsimp only
  repeat' first | with_reducible assumption | with_reducible apply keeps_onHub | with_reducible intro _ | with_reducible apply claimSend_sound | (with_reducible apply sound_intro; dsimp only; with_reducible apply sound_elim) | split

theorem claimReceived_sound (number : ℕ) (serial : ℕ) (h : Hub) (hp_h : h.Sound) : (claimReceived number serial h).Sound := by
  unfold claimReceived
  try dsimp only
  repeat' first | with_reducible assumption | with_reducible intro _ | with_reducible apply ringControl_sound | (with_reducible apply sound_intro; dsimp only; with_reducible apply sound_elim) | split

theorem execClaim_sound (number : ℕ) (y0 : ℕ) (serial : ℕ) : Keeps (execClaim number y0 serial) := by
  unfold execClaim
  try dsimp only
  repeat' first | with_reducible assumption | with_reducible apply keeps_onHub | with_reducible intro _ | with_reducible apply claimReceived_sound | (with_reducible apply sound_intro; dsimp only; with_reducible apply sound_elim) | split

theorem execOffer_sound (number : ℕ) (serial : ℕ) : Keeps (execOffer number serial) := by
  unfold execOffer
  try dsimp only
  repeat' first | with_reducible assumption | with_reducible apply keeps_onHub | with_reducible intro _ | (with_reducible apply sound_intro; dsimp only; with_reducible apply sound_elim) | split

theorem claimLost_sound (h : Hub) (hp_h : h.Sound) : (claimLost h).Sound := by
  unfold claimLost
  try dsimp only
  repeat' first | with_reducible assumption | with_reducible intro _ | with_reducible apply raiseEvent_sound | with_reducible apply wr_sound | (with_reducible apply sound_intro; dsimp only; with_reducible apply sound_elim) | split

theorem execConflict_sound (number : ℕ) (serial : ℕ) : Keeps (execConflict number serial) := by
  unfold execConflict
  try dsimp only
  repeat' first | with_reducible assumption | with_reducible apply keeps_onHub | with_reducible intro _ | with_reducible apply claimLost_sound | (with_reducible apply sound_intro; dsimp only; with_reducible apply sound_elim) | split

theorem claimTimerExpiry_sound (h : Hub) (hp_h : h.Sound) : (claimTimerExpiry h).Sound := by
  unfold claimTimerExpiry
  try dsimp only
  repeat' first | with_reducible assumption | with_reducible intro _ | with_reducible apply ringUpdate_sound | with_reducible apply claimLost_sound | with_reducible apply wr_sound | (with_reducible apply sound_intro; dsimp only; with_reducible apply sound_elim) | split

theorem execClaimTimerExpiry_sound : Keeps (execClaimTimerExpiry) := by
  unfold execClaimTimerExpiry
  try dsimp only
  repeat' first | with_reducible assumption | with_reducible apply keeps_onHub | with_reducible intro _ | with_reducible apply claimTimerExpiry_sound | (with_reducible apply sound_intro; dsimp only; with_reducible apply sound_elim) | split

theorem linkStateNotice_sound (src : ℕ) (east : Bool) (up : Bool) (h : Hub) (hp_h : h.Sound) : (linkStateNotice src east up h).Sound := by
  unfold linkStateNotice
  try dsimp only
  repeat' first | with_reducible assumption | with_reducible intro _ | with_reducible apply mapChange_sound | (with_reducible apply sound_intro; dsimp only; with_reducible apply sound_elim) | split

theorem execLinkState_sound (src : ℕ) (port : Port) (up : Bool) : Keeps (execLinkState src port up) := by
  unfold execLinkState
  try dsimp only
  repeat' first | with_reducible assumption | with_reducible apply keeps_onHub | with_reducible intro _ | with_reducible apply linkStateNotice_sound | (with_reducible apply sound_intro; dsimp only; with_reducible apply sound_elim) | split

theorem retrain_sound (p : ℕ) (h : Hub) (hp_h : h.Sound) : (retrain p h).Sound := by
  unfold retrain
  try dsimp only
  repeat' first | with_reducible assumption | with_reducible intro _ | with_reducible apply linkDown_sound | with_reducible apply setLink_sound | (with_reducible apply sound_intro; dsimp only; with_reducible apply sound_elim) | split

theorem execRingPortRetrain_sound (path : Path) (sub : ℕ) (value : ℕ) : Keeps (execRingPortRetrain path sub value) := by
  unfold execRingPortRetrain
  try dsimp only
  repeat' first | with_reducible assumption | with_reducible apply keeps_onHub | with_reducible intro _ | with_reducible apply pathWrite_sound | with_reducible apply wr_sound | with_reducible apply retrain_sound | (with_reducible apply sound_intro; dsimp only; with_reducible apply sound_elim) | split

theorem execTransmitDisableWrite_sound (path : Path) (value : ℕ) : Keeps (execTransmitDisableWrite path value) := by
  unfold execTransmitDisableWrite
  try dsimp only
  repeat' first | with_reducible assumption | with_reducible apply keeps_onHub | with_reducible intro _ | with_reducible apply setRx_sound | with_reducible apply linkDown_sound | with_reducible apply pathWrite_sound | with_reducible apply wr_sound | with_reducible apply forEach_sound | (with_reducible apply sound_intro; dsimp only; with_reducible apply sound_elim) | split

end Sys2Proof.Machine
end

