-- ==== Sys2Proof/Laws/SoundBelfry.lean ====
section
/-! SUPPORT. Every operation of Belfry.lean keeps a hub sound. -/

set_option linter.unusedTactic false
set_option linter.unreachableTactic false
set_option linter.unusedVariables false

namespace Sys2Proof.Machine

theorem setChannel_sound (h : Hub) (n : ℕ) (x : Channel) (hp_h : h.Sound) : (setChannel h n x).Sound := by
  unfold setChannel
  try dsimp only
  repeat' first | with_reducible assumption | with_reducible intro _ | (with_reducible apply sound_intro; dsimp only; with_reducible apply sound_elim) | split

theorem logTick_sound (t : TickReg) (h : Hub) (hp_h : h.Sound) : (logTick t h).Sound := by
  unfold logTick
  try dsimp only
  repeat' first | with_reducible assumption | with_reducible intro _ | with_reducible apply setChannel_sound | with_reducible apply forEach_sound | (with_reducible apply sound_intro; dsimp only; with_reducible apply sound_elim) | split

theorem takeTick_sound (inputs : List TickInput) (h : Hub) (hp_h : h.Sound) : (takeTick inputs h).Sound := by
  unfold takeTick
  try dsimp only
  repeat' first | with_reducible assumption | with_reducible intro _ | with_reducible apply logTick_sound | (with_reducible apply sound_intro; dsimp only; with_reducible apply sound_elim) | split

theorem raiseBelfry_sound (h : Hub) (e : ℕ) (inst : ℕ) (value : ℕ) (key : ℕ) (hp_h : h.Sound) : (raiseBelfry h e inst value key).Sound := by
  unfold raiseBelfry
  try dsimp only
  repeat' first | with_reducible assumption | with_reducible intro _ | with_reducible apply raiseEvent_sound | (with_reducible apply sound_intro; dsimp only; with_reducible apply sound_elim) | split

theorem setCredits_sound (p : ℕ) (c : ℕ) (n : ℕ) (h : Hub) (hp_h : h.Sound) : (setCredits p c n h).Sound := by
  unfold setCredits
  try dsimp only
  repeat' first | with_reducible assumption | with_reducible intro _ | (with_reducible apply sound_intro; dsimp only; with_reducible apply sound_elim) | split

theorem issueCredit_sound (p : ℕ) (c : ℕ) (h : Hub) (hp_h : h.Sound) : (issueCredit p c h).Sound := by
  unfold issueCredit
  try dsimp only
  repeat' first | with_reducible assumption | with_reducible intro _ | with_reducible apply setCredits_sound | with_reducible apply peak_sound | (with_reducible apply sound_intro; dsimp only; with_reducible apply sound_elim) | split

theorem reissueOne_sound (c : ℕ) (h : Hub) (hp_h : h.Sound) : (reissueOne c h).Sound := by
  unfold reissueOne
  try dsimp only
  repeat' first | with_reducible assumption | with_reducible intro _ | with_reducible apply issueCredit_sound | (with_reducible apply sound_intro; dsimp only; with_reducible apply sound_elim) | split

theorem reissue_sound (c : ℕ) (y0 : ℕ) (h : Hub) (hp : h.Sound) : (reissue c y0 h).Sound := by
  revert hp
  fun_induction reissue c y0 h <;> intro hp <;> (try dsimp only) <;>
  repeat' first | with_reducible assumption | with_reducible intro _ | with_reducible apply reissueOne_sound | (with_reducible refine pair_sound ‹_ = (_, _)› ?_) | (with_reducible apply sound_intro; dsimp only; with_reducible apply sound_elim) | (with_reducible apply_assumption) | split

theorem creditBack_sound (p : ℕ) (c : ℕ) (h : Hub) (hp_h : h.Sound) : (creditBack p c h).Sound := by
  unfold creditBack
  try dsimp only
  repeat' first | with_reducible assumption | with_reducible intro _ | with_reducible apply reissueOne_sound | with_reducible apply issueCredit_sound | (with_reducible apply sound_intro; dsimp only; with_reducible apply sound_elim) | split

theorem fillCredits_sound (h : Hub) (hp_h : h.Sound) : (fillCredits h).Sound := by
  unfold fillCredits
  try dsimp only
  repeat' first | with_reducible assumption | with_reducible intro _ | with_reducible apply reissue_sound | with_reducible apply forEach_sound | (with_reducible apply sound_intro; dsimp only; with_reducible apply sound_elim) | split

theorem storeFrame_sound (input : ℕ) (charge : ℕ) (outs : List ℕ) (f : Frame) (h : Hub) (hp_h : h.Sound) : (storeFrame input charge outs f h).Sound := by
  unfold storeFrame
  try dsimp only
  repeat' first | with_reducible assumption | with_reducible intro _ | with_reducible apply takeInjection_sound | with_reducible apply peak_sound | (with_reducible refine pair_sound ‹_ = (_, _)› ?_) | (with_reducible apply sound_intro; dsimp only; with_reducible apply sound_elim) | split

theorem uncount_sound (c : ℕ) (n : ℕ) (h0 : Hub) (hp_h0 : h0.Sound) : (uncount c n h0).Sound := by
  unfold uncount
  try dsimp only
  repeat' first | with_reducible assumption | with_reducible intro _ | with_reducible apply peak_sound | (with_reducible apply sound_intro; dsimp only; with_reducible apply sound_elim) | split

theorem cellFreed_sound (x : Stored) (h : Hub) (hp_h : h.Sound) : (cellFreed x h).Sound := by
  unfold cellFreed
  try dsimp only
  repeat' first | with_reducible assumption | with_reducible intro _ | with_reducible apply creditBack_sound | with_reducible apply reissueOne_sound | (with_reducible apply sound_intro; dsimp only; with_reducible apply sound_elim) | split

theorem updateStored_sound (x : Stored) (h : Hub) (hp_h : h.Sound) : (updateStored x h).Sound := by
  unfold updateStored
  try dsimp only
  repeat' first | with_reducible assumption | with_reducible intro _ | with_reducible apply uncount_sound | with_reducible apply forEach_sound | with_reducible apply cellFreed_sound | (with_reducible apply sound_intro; dsimp only; with_reducible apply sound_elim) | split

theorem dropStored_sound (x : Stored) (h : Hub) (hp_h : h.Sound) : (dropStored x h).Sound := by
  unfold dropStored
  try dsimp only
  repeat' first | with_reducible assumption | with_reducible intro _ | with_reducible apply updateStored_sound | (with_reducible apply sound_intro; dsimp only; with_reducible apply sound_elim) | split

theorem pushOut_sound (k : ℕ) (classes : List ℕ) (y0 : ℕ) (h : Hub) (hp : h.Sound) : (pushOut k classes y0 h).Sound := by
  revert hp
  fun_induction pushOut k classes y0 h <;> intro hp <;> (try dsimp only) <;>
  repeat' first | with_reducible assumption | with_reducible intro _ | with_reducible apply bump_sound | with_reducible apply raiseBelfry_sound | with_reducible apply dropStored_sound | (with_reducible refine pair_sound ‹_ = (_, _)› ?_) | (with_reducible apply sound_intro; dsimp only; with_reducible apply sound_elim) | (with_reducible apply_assumption) | split

theorem refuseRing_sound (p : ℕ) (f : Frame) (h : Hub) (hp_h : h.Sound) : (refuseRing p f h).Sound := by
  unfold refuseRing
  try dsimp only
  repeat' first | with_reducible assumption | with_reducible intro _ | with_reducible apply bump_sound | with_reducible apply raiseBelfry_sound | (with_reducible apply sound_intro; dsimp only; with_reducible apply sound_elim) | split

theorem takeRing_sound (p : ℕ) (charge : ℕ) (f : Frame) (h : Hub) (hp_h : h.Sound) : (takeRing p charge f h).Sound := by
  unfold takeRing
  try dsimp only
  repeat' first | with_reducible assumption | with_reducible intro _ | with_reducible apply refuseRing_sound | with_reducible apply storeFrame_sound | (with_reducible apply sound_intro; dsimp only; with_reducible apply sound_elim) | split

theorem admitRing_sound (p : ℕ) (f : Frame) (h : Hub) (hp_h : h.Sound) : (admitRing p f h).Sound := by
  unfold admitRing
  try dsimp only
  repeat' first | with_reducible assumption | with_reducible intro _ | with_reducible apply bump_sound | with_reducible apply refuseRing_sound | with_reducible apply takeRing_sound | with_reducible apply pushOut_sound | (with_reducible apply sound_intro; dsimp only; with_reducible apply sound_elim) | split

theorem ringFrameAdmit_sound (p : ℕ) (f : Frame) (h : Hub) (hp_h : h.Sound) : (ringFrameAdmit p f h).Sound := by
  unfold ringFrameAdmit
  try dsimp only
  repeat' first | with_reducible assumption | with_reducible intro _ | with_reducible apply whenDo_sound | with_reducible apply admitRing_sound | (with_reducible apply sound_intro; dsimp only; with_reducible apply sound_elim) | split

theorem execRingFrameAdmit_sound (port : Port) (frame : Frame) : Keeps (execRingFrameAdmit port frame) := by
  unfold execRingFrameAdmit
  try dsimp only
  repeat' first | with_reducible assumption | with_reducible apply keeps_onHub | with_reducible intro _ | with_reducible apply takeTick_sound | with_reducible apply ringFrameAdmit_sound | (with_reducible apply sound_intro; dsimp only; with_reducible apply sound_elim) | split

theorem noOutput_sound (f : Frame) (h : Hub) (hp_h : h.Sound) : (noOutput f h).Sound := by
  unfold noOutput
  try dsimp only
  repeat' first | with_reducible assumption | with_reducible intro _ | with_reducible apply bump_sound | (with_reducible apply sound_intro; dsimp only; with_reducible apply sound_elim) | split

theorem creditedFrameStart_sound (p : ℕ) (h : Hub) (hp_h : h.Sound) : (creditedFrameStart p h).Sound := by
  unfold creditedFrameStart
  try dsimp only
  repeat' first | with_reducible assumption | with_reducible intro _ | with_reducible apply noOutput_sound | with_reducible apply setCredits_sound | with_reducible apply storeFrame_sound | (with_reducible apply sound_intro; dsimp only; with_reducible apply sound_elim) | split

theorem execCreditedFrameStart_sound (p : Fin 8) : Keeps (execCreditedFrameStart p) := by
  unfold execCreditedFrameStart
  try dsimp only
  repeat' first | with_reducible assumption | with_reducible apply keeps_onHub | with_reducible intro _ | with_reducible apply takeTick_sound | with_reducible apply creditedFrameStart_sound | (with_reducible apply sound_intro; dsimp only; with_reducible apply sound_elim) | split

theorem leave_sound (o : ℕ) (f : Frame) (h : Hub) (hp_h : h.Sound) : (leave o f h).Sound := by
  unfold leave
  try dsimp only
  repeat' first | with_reducible assumption | with_reducible intro _ | with_reducible apply bump_sound | with_reducible apply queueTx_sound | with_reducible apply sendOver_sound | (with_reducible apply sound_intro; dsimp only; with_reducible apply sound_elim) | split

theorem readCell_sound (x : Stored) (j : ℕ) (h : Hub) (hp_h : h.Sound) : (readCell x j h).Sound := by
  unfold readCell
  try dsimp only
  repeat' first | with_reducible assumption | with_reducible intro _ | with_reducible apply raiseInjected_sound | with_reducible apply bump_sound | with_reducible apply bumpBy_sound | with_reducible apply raiseFault_sound | with_reducible apply forEach_sound | (with_reducible apply sound_intro; dsimp only; with_reducible apply sound_elim) | split

theorem grantCell_sound (o : ℕ) (x0 : Stored) (h0 : Hub) (hp_h0 : h0.Sound) : (grantCell o x0 h0).Sound := by
  unfold grantCell
  try dsimp only
  repeat' first | with_reducible assumption | with_reducible intro _ | with_reducible apply bump_sound | with_reducible apply readCell_sound | with_reducible apply leave_sound | with_reducible apply updateStored_sound | with_reducible apply dropStored_sound | (with_reducible apply sound_intro; dsimp only; with_reducible apply sound_elim) | split

theorem starveStep_sound (o : ℕ) (granted : Option ℕ) (was : ℕ → Bool) (h : Hub) (hp_h : h.Sound) : (starveStep o granted was h).Sound := by
  unfold starveStep
  try dsimp only
  repeat' first | with_reducible assumption | with_reducible intro _ | with_reducible apply forEach_sound | (with_reducible apply sound_intro; dsimp only; with_reducible apply sound_elim) | split

theorem grantOutput_sound (o : ℕ) (h : Hub) (hp_h : h.Sound) : (grantOutput o h).Sound := by
  unfold grantOutput
  try dsimp only
  repeat' first | with_reducible assumption | with_reducible intro _ | with_reducible apply whenDo_sound | with_reducible apply grantCell_sound | with_reducible apply bump_sound | with_reducible apply starveStep_sound | (with_reducible apply sound_intro; dsimp only; with_reducible apply sound_elim) | split

theorem cellGrant_sound (h : Hub) (hp_h : h.Sound) : (cellGrant h).Sound := by
  unfold cellGrant
  try dsimp only
  repeat' first | with_reducible assumption | with_reducible intro _ | with_reducible apply grantOutput_sound | with_reducible apply forEach_sound | (with_reducible apply sound_intro; dsimp only; with_reducible apply sound_elim) | split

theorem execCellGrant_sound : Keeps (execCellGrant) := by
  unfold execCellGrant
  try dsimp only
  repeat' first | with_reducible assumption | with_reducible apply keeps_onHub | with_reducible intro _ | with_reducible apply cellGrant_sound | with_reducible apply takeTick_sound | (with_reducible apply sound_intro; dsimp only; with_reducible apply sound_elim) | split

theorem outputCreditReturn_sound (p : ℕ) (c : ℕ) (h : Hub) (hp_h : h.Sound) : (outputCreditReturn p c h).Sound := by
  unfold outputCreditReturn
  try dsimp only
  repeat' first | with_reducible assumption | with_reducible intro _ | (with_reducible apply sound_intro; dsimp only; with_reducible apply sound_elim) | split

theorem execOutputCreditReturn_sound (p : Fin 8) (cls : Cls) : Keeps (execOutputCreditReturn p cls) := by
  unfold execOutputCreditReturn
  try dsimp only
  repeat' first | with_reducible assumption | with_reducible apply keeps_onHub | with_reducible intro _ | with_reducible apply takeTick_sound | with_reducible apply outputCreditReturn_sound | (with_reducible apply sound_intro; dsimp only; with_reducible apply sound_elim) | split

theorem ageCopy_sound (o : ℕ) (x : Stored) (h : Hub) (hp_h : h.Sound) : (ageCopy o x h).Sound := by
  unfold ageCopy
  try dsimp only
  repeat' first | with_reducible assumption | with_reducible intro _ | with_reducible apply bump_sound | with_reducible apply raiseBelfry_sound | with_reducible apply updateStored_sound | (with_reducible apply sound_intro; dsimp only; with_reducible apply sound_elim) | split

theorem ageQueue_sound (i : ℕ) (o : ℕ) (c : ℕ) (y0 : ℕ) (h : Hub) (hp : h.Sound) : (ageQueue i o c y0 h).Sound := by
  revert hp
  fun_induction ageQueue i o c y0 h <;> intro hp <;> (try dsimp only) <;>
  repeat' first | with_reducible assumption | with_reducible intro _ | with_reducible apply ageCopy_sound | (with_reducible refine pair_sound ‹_ = (_, _)› ?_) | (with_reducible apply sound_intro; dsimp only; with_reducible apply sound_elim) | (with_reducible apply_assumption) | split

theorem ageingScan_sound (h : Hub) (hp_h : h.Sound) : (ageingScan h).Sound := by
  unfold ageingScan
  try dsimp only
  repeat' first | with_reducible assumption | with_reducible intro _ | with_reducible apply ageQueue_sound | with_reducible apply forEach_sound | (with_reducible apply sound_intro; dsimp only; with_reducible apply sound_elim) | split

theorem execAgeingScan_sound : Keeps (execAgeingScan) := by
  unfold execAgeingScan
  try dsimp only
  repeat' first | with_reducible assumption | with_reducible apply keeps_onHub | with_reducible intro _ | with_reducible apply ageingScan_sound | with_reducible apply takeTick_sound | (with_reducible apply sound_intro; dsimp only; with_reducible apply sound_elim) | split

theorem recountClass_sound (c : ℕ) (n : ℕ) (h0 : Hub) (hp_h0 : h0.Sound) : (recountClass c n h0).Sound := by
  unfold recountClass
  try dsimp only
  repeat' first | with_reducible assumption | with_reducible intro _ | with_reducible apply bumpBy_sound | with_reducible apply peak_sound | (with_reducible apply sound_intro; dsimp only; with_reducible apply sound_elim) | split

theorem upset_sound (lost : List ℕ) (skew : List ℕ) (h : Hub) (hp_h : h.Sound) : (upset lost skew h).Sound := by
  unfold upset
  try dsimp only
  repeat' first | with_reducible assumption | with_reducible intro _ | (with_reducible apply sound_intro; dsimp only; with_reducible apply sound_elim) | split

theorem upsetWords_sound (words : List (ℕ × ℕ × Bool)) (h : Hub) (hp_h : h.Sound) : (upsetWords words h).Sound := by
  unfold upsetWords
  try dsimp only
  repeat' first | with_reducible assumption | with_reducible intro _ | (with_reducible apply sound_intro; dsimp only; with_reducible apply sound_elim) | split

theorem census_sound (twice : ℕ) (h : Hub) (hp_h : h.Sound) : (census twice h).Sound := by
  unfold census
  try dsimp only
  repeat' first | with_reducible assumption | with_reducible intro _ | with_reducible apply bump_sound | with_reducible apply recountClass_sound | with_reducible apply raiseFault_sound | with_reducible apply causeGone_sound | with_reducible apply forEach_sound | (with_reducible apply sound_intro; dsimp only; with_reducible apply sound_elim) | split

theorem execBufferCensus_sound (upsets : CellUpset) (skew : List ℕ) : Keeps (execBufferCensus upsets skew) := by
  unfold execBufferCensus
  try dsimp only
  repeat' first | with_reducible assumption | with_reducible apply keeps_onHub | with_reducible intro _ | with_reducible apply takeTick_sound | with_reducible apply census_sound | with_reducible apply upsetWords_sound | with_reducible apply upset_sound | (with_reducible apply sound_intro; dsimp only; with_reducible apply sound_elim) | split

theorem locatePass_sound (h : Hub) (hp_h : h.Sound) : (locatePass h).Sound := by
  unfold locatePass
  try dsimp only
  repeat' first | with_reducible assumption | with_reducible intro _ | with_reducible apply bumpBy_sound | with_reducible apply raiseBelfry_sound | (with_reducible apply sound_intro; dsimp only; with_reducible apply sound_elim) | split

theorem execLocatePass_sound (lost : List ℕ) : Keeps (execLocatePass lost) := by
  unfold execLocatePass
  try dsimp only
  repeat' first | with_reducible assumption | with_reducible apply keeps_onHub | with_reducible intro _ | with_reducible apply locatePass_sound | with_reducible apply takeTick_sound | with_reducible apply upset_sound | (with_reducible apply sound_intro; dsimp only; with_reducible apply sound_elim) | split

end Sys2Proof.Machine
end

