-- ==== Sys2Proof/Laws/SoundObjects.lean ====
section
/-! SUPPORT. Every operation of Objects.lean keeps a hub sound. -/

set_option linter.unusedTactic false
set_option linter.unreachableTactic false
set_option linter.unusedVariables false

namespace Sys2Proof.Machine

theorem mapMended_sound (was : Bool) (h : Hub) (hp_h : h.Sound) : (mapMended was h).Sound := by
  unfold mapMended
  try dsimp only
  repeat' first | with_reducible assumption | with_reducible intro _ | with_reducible apply whenDo_sound | with_reducible apply causeGone_sound | (with_reducible apply sound_intro; dsimp only; with_reducible apply sound_elim) | split

theorem setMap_sound (slot : ℕ) (e : MapEntry) (h : Hub) (hp_h : h.Sound) : (setMap slot e h).Sound := by
  unfold setMap
  try dsimp only
  repeat' first | with_reducible assumption | with_reducible intro _ | with_reducible apply takeInjection_sound | with_reducible apply mapMended_sound | (with_reducible refine pair_sound ‹_ = (_, _)› ?_) | (with_reducible apply sound_intro; dsimp only; with_reducible apply sound_elim) | split

theorem setResidence_sound (r : Residence) (h : Hub) (hp_h : h.Sound) : (setResidence r h).Sound := by
  unfold setResidence
  try dsimp only
  repeat' first | with_reducible assumption | with_reducible intro _ | with_reducible apply takeInjection_sound | with_reducible apply mapMended_sound | (with_reducible refine pair_sound ‹_ = (_, _)› ?_) | (with_reducible apply sound_intro; dsimp only; with_reducible apply sound_elim) | split

theorem dropResidence_sound (handle : ℕ) (h : Hub) (hp_h : h.Sound) : (dropResidence handle h).Sound := by
  unfold dropResidence
  try dsimp only
  repeat' first | with_reducible assumption | with_reducible intro _ | with_reducible apply mapMended_sound | (with_reducible apply sound_intro; dsimp only; with_reducible apply sound_elim) | split

theorem writeWord_sound (w : Nat) (v : Word) (mask : Nat) (h : Hub) (hp : h.Sound) : (writeWord w v mask h).Sound :=
  ⟨(takeInjection_sound 4 h hp).1, wf_memPut _ _ _ _ hp.2.1, (takeInjection_sound 4 h hp).2.2⟩

theorem writeWords_sound (w : ℕ) (y0 : List Word) (h : Hub) (hp : h.Sound) : (writeWords w y0 h).Sound := by
  revert hp
  fun_induction writeWords w y0 h <;> intro hp <;> (try dsimp only) <;>
  repeat' first | with_reducible assumption | with_reducible intro _ | with_reducible apply writeWord_sound | (with_reducible refine pair_sound ‹_ = (_, _)› ?_) | (with_reducible apply sound_intro; dsimp only; with_reducible apply sound_elim) | (with_reducible apply_assumption) | split

theorem performMemory_sound (own : Bool) (w : ℕ) (r : CReq) (h : Hub) (hp_h : h.Sound) : (performMemory own w r h).2.Sound := by
  unfold performMemory
  try dsimp only
  repeat' first | with_reducible assumption | with_reducible intro _ | with_reducible apply writeWord_sound | with_reducible apply forEach_sound | (with_reducible apply sound_intro; dsimp only; with_reducible apply sound_elim) | split

theorem performPhysical_sound (own : Bool) (r : CReq) (h : Hub) (hp_h : h.Sound) : (performPhysical own r h).2.Sound := by
  unfold performPhysical
  try dsimp only
  repeat' first | with_reducible assumption | with_reducible intro _ | with_reducible apply performMemory_sound | (with_reducible refine pair_sound ‹_ = (_, _)› ?_) | (with_reducible apply sound_intro; dsimp only; with_reducible apply sound_elim) | split

theorem setSignal_sound (slot : ℕ) (v : Word) (h : Hub) (hp_h : h.Sound) : (setSignal slot v h).Sound := by
  unfold setSignal
  try dsimp only
  repeat' first | with_reducible assumption | with_reducible intro _ | (with_reducible apply sound_intro; dsimp only; with_reducible apply sound_elim) | split

theorem performSignal_sound (base : ℕ) (d : ObjDef) (r : CReq) (h : Hub) (hp_h : h.Sound) : (performSignal base d r h).2.Sound := by
  unfold performSignal
  try dsimp only
  repeat' first | with_reducible assumption | with_reducible intro _ | with_reducible apply setSignal_sound | (with_reducible apply sound_intro; dsimp only; with_reducible apply sound_elim) | split

theorem takeWords_sound (f : ℕ) (y0 : ℕ) (y1 : Bool) (h : Hub) (hp : h.Sound) : (takeWords f y0 y1 h).2.Sound := by
  revert hp
  fun_induction takeWords f y0 y1 h <;> intro hp <;> (try dsimp only) <;>
  repeat' first | with_reducible assumption | with_reducible intro _ | with_reducible apply whenDo_sound | with_reducible apply readHead_sound | with_reducible apply fifoAdvance_sound | with_reducible apply fifoPoisoned_sound | (with_reducible refine pair_sound ‹_ = (_, _)› ?_) | (with_reducible apply sound_intro; dsimp only; with_reducible apply sound_elim) | (with_reducible apply_assumption) | split

theorem appendWords_sound (f : ℕ) (c : ℕ) (y0 : List Word) (h : Hub) (hp : h.Sound) : (appendWords f c y0 h).Sound := by
  revert hp
  fun_induction appendWords f c y0 h <;> intro hp <;> (try dsimp only) <;>
  repeat' first | with_reducible assumption | with_reducible intro _ | with_reducible apply fifoStore_sound | (with_reducible refine pair_sound ‹_ = (_, _)› ?_) | (with_reducible apply sound_intro; dsimp only; with_reducible apply sound_elim) | (with_reducible apply_assumption) | split

theorem performStream_sound (own : Bool) (f : ℕ) (r : CReq) (h : Hub) (hp_h : h.Sound) : (performStream own f r h).2.Sound := by
  unfold performStream
  try dsimp only
  repeat' first | with_reducible assumption | with_reducible intro _ | with_reducible apply takeWords_sound | with_reducible apply appendWords_sound | (with_reducible refine pair_sound ‹_ = (_, _)› ?_) | (with_reducible apply sound_intro; dsimp only; with_reducible apply sound_elim) | split

theorem performQueue_sound (own : Bool) (base : ℕ) (d : ObjDef) (r : CReq) (h : Hub) (hp_h : h.Sound) : (performQueue own base d r h).2.Sound := by
  unfold performQueue
  try dsimp only
  repeat' first | with_reducible assumption | with_reducible intro _ | with_reducible apply writeWord_sound | with_reducible apply writeWords_sound | with_reducible apply forEach_sound | (with_reducible apply sound_intro; dsimp only; with_reducible apply sound_elim) | split

theorem performObject_sound (own : Bool) (kind : ℕ) (base : ℕ) (length : ℕ) (d : ObjDef) (r : CReq) (h : Hub) (hp_h : h.Sound) : (performObject own kind base length d r h).2.Sound := by
  unfold performObject
  try dsimp only
  repeat' first | with_reducible assumption | with_reducible intro _ | with_reducible apply performSignal_sound | with_reducible apply performQueue_sound | with_reducible apply performMemory_sound | with_reducible apply performStream_sound | (with_reducible refine pair_sound ‹_ = (_, _)› ?_) | (with_reducible apply sound_intro; dsimp only; with_reducible apply sound_elim) | split

end Sys2Proof.Machine
end

