-- ==== Sys2Proof/Laws/SoundCanopy.lean ====
section
/-! SUPPORT. Every operation of Canopy.lean keeps a hub sound. -/

set_option linter.unusedTactic false
set_option linter.unreachableTactic false
set_option linter.unusedVariables false

namespace Sys2Proof.Machine

theorem reachDrop_sound (handle : ℕ) (h : Hub) (hp_h : h.Sound) : (reachDrop handle h).Sound := by
  unfold reachDrop
  try dsimp only
  repeat' first | with_reducible assumption | with_reducible intro _ | (with_reducible apply sound_intro; dsimp only; with_reducible apply sound_elim) | split

theorem reachPut_sound (t : Translation) (h : Hub) (hp_h : h.Sound) : (reachPut t h).Sound := by
  unfold reachPut
  try dsimp only
  repeat' first | with_reducible assumption | with_reducible intro _ | (with_reducible apply sound_intro; dsimp only; with_reducible apply sound_elim) | split

theorem reachFill_sound (handle : ℕ) (fill : Option CFill) (h : Hub) (hp_h : h.Sound) : (reachFill handle fill h).Sound := by
  unfold reachFill
  try dsimp only
  repeat' first | with_reducible assumption | with_reducible intro _ | with_reducible apply reachPut_sound | (with_reducible apply sound_intro; dsimp only; with_reducible apply sound_elim) | split

theorem sendRequest_sound (dest : ℕ) (r : CReq) (h : Hub) (hp_h : h.Sound) : (sendRequest dest r h).2.Sound := by
  unfold sendRequest
  try dsimp only
  repeat' first | with_reducible assumption | with_reducible intro _ | with_reducible apply originate_sound | (with_reducible apply sound_intro; dsimp only; with_reducible apply sound_elim) | split

theorem sendResponse_sound (dest : ℕ) (gen : ℕ) (r : CResp) (h : Hub) (hp_h : h.Sound) : (sendResponse dest gen r h).Sound := by
  unfold sendResponse
  try dsimp only
  repeat' first | with_reducible assumption | with_reducible intro _ | with_reducible apply originate_sound | (with_reducible apply sound_intro; dsimp only; with_reducible apply sound_elim) | split

theorem hostWriteFailure_sound (address : ℕ) (requester : ℕ) (tag : ℕ) (status : ℕ) (h : Hub) (hp_h : h.Sound) : (hostWriteFailure address requester tag status h).Sound := by
  unfold hostWriteFailure
  try dsimp only
  repeat' first | with_reducible assumption | with_reducible intro _ | with_reducible apply bump_sound | with_reducible apply raiseEvent_sound | with_reducible apply pushLog_sound | (with_reducible apply sound_intro; dsimp only; with_reducible apply sound_elim) | split

theorem writeFailed_sound (r : CReq) (status : ℕ) (h : Hub) (hp_h : h.Sound) : (writeFailed r status h).Sound := by
  unfold writeFailed
  try dsimp only
  repeat' first | with_reducible assumption | with_reducible intro _ | with_reducible apply raiseEvent_sound | with_reducible apply pushLog_sound | with_reducible apply hostWriteFailure_sound | (with_reducible apply sound_intro; dsimp only; with_reducible apply sound_elim) | split

theorem hostDeliver_sound (x : HostRead) (h : Hub) (hp_h : h.Sound) : (hostDeliver x h).Sound := by
  unfold hostDeliver
  try dsimp only
  repeat' first | with_reducible assumption | with_reducible intro _ | with_reducible apply whenDo_sound | with_reducible apply bump_sound | with_reducible apply answered_sound | (with_reducible apply sound_intro; dsimp only; with_reducible apply sound_elim) | split

theorem hostDeliverAll_sound (h : Hub) (hp_h : h.Sound) : (hostDeliverAll h).Sound := by
  unfold hostDeliverAll
  try dsimp only
  repeat' first | with_reducible assumption | with_reducible intro _ | with_reducible apply forEach_sound | with_reducible apply hostDeliver_sound | (with_reducible apply sound_intro; dsimp only; with_reducible apply sound_elim) | split

theorem hostPieceDone_sound (tag : ℕ) (status : ℕ) (ws : List (Word × Bool)) (h : Hub) (hp_h : h.Sound) : (hostPieceDone tag status ws h).Sound := by
  unfold hostPieceDone
  try dsimp only
  repeat' first | with_reducible assumption | with_reducible intro _ | with_reducible apply bump_sound | with_reducible apply hostDeliverAll_sound | (with_reducible apply sound_intro; dsimp only; with_reducible apply sound_elim) | split

theorem reflexRefused_sound (reflex : ℕ) (h : Hub) (hp_h : h.Sound) : (reflexRefused reflex h).Sound := by
  unfold reflexRefused
  try dsimp only
  repeat' first | with_reducible assumption | with_reducible intro _ | with_reducible apply cycEvent_sound | (with_reducible apply sound_intro; dsimp only; with_reducible apply sound_elim) | split

theorem answerWrite_sound (r : Reply) (ok : Bool) (h : Hub) (hp_h : h.Sound) : (answerWrite r ok h).Sound := by
  unfold answerWrite
  try dsimp only
  repeat' first | with_reducible assumption | with_reducible intro _ | with_reducible apply whenDo_sound | with_reducible apply bump_sound | with_reducible apply originate_sound | (with_reducible apply sound_intro; dsimp only; with_reducible apply sound_elim) | split

theorem shadowDone_sound (tag : ℕ) (status : ℕ) (w : ShadowWrite) (h : Hub) (hp_h : h.Sound) : (shadowDone tag status w h).Sound := by
  unfold shadowDone
  try dsimp only
  repeat' first | with_reducible assumption | with_reducible intro _ | with_reducible apply answered_sound | with_reducible apply answerWrite_sound | with_reducible apply refuse_sound | (with_reducible apply sound_intro; dsimp only; with_reducible apply sound_elim) | split

theorem portDone_sound (r : CReq) (d : Done) (h : Hub) (hp_h : h.Sound) : (portDone r d h).Sound := by
  unfold portDone
  try dsimp only
  repeat' first | with_reducible assumption | with_reducible intro _ | with_reducible apply answered_sound | with_reducible apply shadowDone_sound | with_reducible apply hostPieceDone_sound | with_reducible apply reflexRefused_sound | (with_reducible apply sound_intro; dsimp only; with_reducible apply sound_elim) | split

theorem dropOut_sound (r : CReq) (h : Hub) (hp_h : h.Sound) : (dropOut r h).Sound := by
  unfold dropOut
  try dsimp only
  repeat' first | with_reducible assumption | with_reducible intro _ | (with_reducible apply sound_intro; dsimp only; with_reducible apply sound_elim) | split

theorem finish_sound (r : CReq) (d : Done) (h : Hub) (hp_h : h.Sound) : (finish r d h).Sound := by
  unfold finish
  try dsimp only
  repeat' first | with_reducible assumption | with_reducible intro _ | with_reducible apply whenDo_sound | with_reducible apply dropOut_sound | with_reducible apply reachDrop_sound | with_reducible apply writeFailed_sound | with_reducible apply portDone_sound | (with_reducible apply sound_intro; dsimp only; with_reducible apply sound_elim) | split

theorem transmit_sound (dest : ℕ) (r : CReq) (h : Hub) (hp_h : h.Sound) : (transmit dest r h).Sound := by
  unfold transmit
  try dsimp only
  repeat' first | with_reducible assumption | with_reducible intro _ | with_reducible apply whenDo_sound | with_reducible apply dropOut_sound | with_reducible apply bump_sound | with_reducible apply finish_sound | with_reducible apply sendRequest_sound | (with_reducible refine pair_sound ‹_ = (_, _)› ?_) | (with_reducible apply sound_intro; dsimp only; with_reducible apply sound_elim) | split

theorem staleAt_sound (r : CReq) (h : Hub) (hp_h : h.Sound) : (staleAt r h).Sound := by
  unfold staleAt
  try dsimp only
  repeat' first | with_reducible assumption | with_reducible intro _ | with_reducible apply bump_sound | with_reducible apply reachDrop_sound | with_reducible apply transmit_sound | (with_reducible apply sound_intro; dsimp only; with_reducible apply sound_elim) | split

theorem retryAt_sound (r : CReq) (h : Hub) (hp_h : h.Sound) : (retryAt r h).Sound := by
  unfold retryAt
  try dsimp only
  repeat' first | with_reducible assumption | with_reducible intro _ | with_reducible apply dropOut_sound | with_reducible apply bump_sound | (with_reducible apply sound_intro; dsimp only; with_reducible apply sound_elim) | split

theorem requesterGets_sound (r : CReq) (d : Done) (fill : Option CFill) (h : Hub) (hp_h : h.Sound) : (requesterGets r d fill h).Sound := by
  unfold requesterGets
  try dsimp only
  repeat' first | with_reducible assumption | with_reducible intro _ | with_reducible apply whenDo_sound | with_reducible apply finish_sound | with_reducible apply staleAt_sound | with_reducible apply retryAt_sound | with_reducible apply reachFill_sound | (with_reducible apply sound_intro; dsimp only; with_reducible apply sound_elim) | split

theorem sendAck_sound (src : ℕ) (port : ℕ) (c : Cls) (h : Hub) (hp_h : h.Sound) : (sendAck src port c h).Sound := by
  unfold sendAck
  try dsimp only
  repeat' first | with_reducible assumption | with_reducible intro _ | with_reducible apply sendResponse_sound | with_reducible apply countTraffic_sound | (with_reducible apply sound_intro; dsimp only; with_reducible apply sound_elim) | split

theorem noteAck_sound (r : CReq) (gen : ℕ) (fill : Option CFill) (h : Hub) (hp_h : h.Sound) : (noteAck r gen fill h).Sound := by
  unfold noteAck
  try dsimp only
  repeat' first | with_reducible assumption | with_reducible intro _ | with_reducible apply sendAck_sound | (with_reducible apply sound_intro; dsimp only; with_reducible apply sound_elim) | split

theorem respond_sound (r : CReq) (d : Done) (fill : Option CFill) (gen : ℕ) (h : Hub) (hp_h : h.Sound) : (respond r d fill gen h).Sound := by
  unfold respond
  try dsimp only
  repeat' first | with_reducible assumption | with_reducible intro _ | with_reducible apply sendResponse_sound | with_reducible apply requesterGets_sound | with_reducible apply noteAck_sound | (with_reducible apply sound_intro; dsimp only; with_reducible apply sound_elim) | split

theorem relayTo_sound (r : CReq) (d : Done) (fill : Option CFill) (gen : ℕ) (h : Hub) (hp_h : h.Sound) : (relayTo r d fill gen h).Sound := by
  unfold relayTo
  try dsimp only
  repeat' first | with_reducible assumption | with_reducible intro _ | with_reducible apply sendResponse_sound | with_reducible apply respond_sound | (with_reducible apply sound_intro; dsimp only; with_reducible apply sound_elim) | split

theorem noteReflexWrite_sound (slot : ℕ) (h : Hub) (hp_h : h.Sound) : (noteReflexWrite slot h).Sound := by
  unfold noteReflexWrite
  try dsimp only
  repeat' first | with_reducible assumption | with_reducible intro _ | with_reducible apply whenDo_sound | with_reducible apply bump_sound | (with_reducible apply sound_intro; dsimp only; with_reducible apply sound_elim) | split

theorem performHere_sound (r : CReq) (x : ℕ × ℕ × ℕ × ℕ) (fill : Option CFill) (h : Hub) (hp_h : h.Sound) : (performHere r x fill h).Sound := by
  unfold performHere
  try dsimp only
  repeat' first | with_reducible assumption | with_reducible intro _ | with_reducible apply whenDo_sound | with_reducible apply noteReflexWrite_sound | with_reducible apply respond_sound | with_reducible apply performObject_sound | with_reducible apply countTraffic_sound | (with_reducible refine pair_sound ‹_ = (_, _)› ?_) | (with_reducible apply sound_intro; dsimp only; with_reducible apply sound_elim) | split

theorem sendBack_sound (r : CReq) (h : Hub) (hp_h : h.Sound) : (sendBack r h).Sound := by
  unfold sendBack
  try dsimp only
  repeat' first | with_reducible assumption | with_reducible intro _ | with_reducible apply sendRequest_sound | (with_reducible refine pair_sound ‹_ = (_, _)› ?_) | (with_reducible apply sound_intro; dsimp only; with_reducible apply sound_elim) | split

theorem withEntry_sound (r : CReq) (f : Hub → Hub) (h : Hub) (hf_f : ∀ x, x.Sound → (f x).Sound) (hp_h : h.Sound) : (withEntry r f h).Sound := by
  unfold withEntry
  try dsimp only
  repeat' first | with_reducible assumption | with_reducible intro _ | with_reducible apply hf_f | with_reducible apply raiseInjected_sound | with_reducible apply respond_sound | (with_reducible apply sound_intro; dsimp only; with_reducible apply sound_elim) | split

theorem holderResolve_sound (r : CReq) (h : Hub) (hp_h : h.Sound) : (holderResolve r h).Sound := by
  unfold holderResolve
  try dsimp only
  repeat' first | with_reducible assumption | with_reducible intro _ | with_reducible apply sendBack_sound | with_reducible apply respond_sound | with_reducible apply performHere_sound | (with_reducible apply sound_intro; dsimp only; with_reducible apply sound_elim) | split

theorem holderServe_sound (r : CReq) (h : Hub) (hp_h : h.Sound) : (holderServe r h).Sound := by
  unfold holderServe
  try dsimp only
  repeat' first | with_reducible assumption | with_reducible intro _ | with_reducible apply holderResolve_sound | with_reducible apply respond_sound | with_reducible apply performPhysical_sound | with_reducible apply withEntry_sound | (with_reducible refine pair_sound ‹_ = (_, _)› ?_) | (with_reducible apply sound_intro; dsimp only; with_reducible apply sound_elim) | split

theorem forwardTo_sound (holder : ℕ) (r : CReq) (h : Hub) (hp_h : h.Sound) : (forwardTo holder r h).Sound := by
  unfold forwardTo
  try dsimp only
  repeat' first | with_reducible assumption | with_reducible intro _ | with_reducible apply respond_sound | with_reducible apply sendRequest_sound | (with_reducible refine pair_sound ‹_ = (_, _)› ?_) | (with_reducible apply sound_intro; dsimp only; with_reducible apply sound_elim) | split

theorem holdRequest_sound (slot : ℕ) (r : CReq) (h : Hub) (hp_h : h.Sound) : (holdRequest slot r h).Sound := by
  unfold holdRequest
  try dsimp only
  repeat' first | with_reducible assumption | with_reducible intro _ | with_reducible apply respond_sound | with_reducible apply peak_sound | (with_reducible apply sound_intro; dsimp only; with_reducible apply sound_elim) | split

theorem mapResolve_sound (r : CReq) (h : Hub) (hp_h : h.Sound) : (mapResolve r h).Sound := by
  unfold mapResolve
  try dsimp only
  repeat' first | with_reducible assumption | with_reducible intro _ | with_reducible apply respond_sound | with_reducible apply holdRequest_sound | with_reducible apply performHere_sound | with_reducible apply forwardTo_sound | (with_reducible apply sound_intro; dsimp only; with_reducible apply sound_elim) | split

theorem homeResolve_sound (r : CReq) (h : Hub) (hp_h : h.Sound) : (homeResolve r h).Sound := by
  unfold homeResolve
  try dsimp only
  repeat' first | with_reducible assumption | with_reducible intro _ | with_reducible apply mapResolve_sound | with_reducible apply withEntry_sound | (with_reducible apply sound_intro; dsimp only; with_reducible apply sound_elim) | split

theorem homeServe_sound (r : CReq) (h : Hub) (hp_h : h.Sound) : (homeServe r h).Sound := by
  unfold homeServe
  try dsimp only
  repeat' first | with_reducible assumption | with_reducible intro _ | with_reducible apply respond_sound | with_reducible apply homeResolve_sound | (with_reducible apply sound_intro; dsimp only; with_reducible apply sound_elim) | split

theorem serveRequest_sound (r : CReq) (h : Hub) (hp_h : h.Sound) : (serveRequest r h).Sound := by
  unfold serveRequest
  try dsimp only
  repeat' first | with_reducible assumption | with_reducible intro _ | with_reducible apply holderServe_sound | with_reducible apply homeServe_sound | (with_reducible apply sound_intro; dsimp only; with_reducible apply sound_elim) | split

theorem releaseHeld_sound (slot : ℕ) (h : Hub) (hp_h : h.Sound) : (releaseHeld slot h).Sound := by
  unfold releaseHeld
  try dsimp only
  repeat' first | with_reducible assumption | with_reducible intro _ | with_reducible apply homeResolve_sound | with_reducible apply forEach_sound | (with_reducible apply sound_intro; dsimp only; with_reducible apply sound_elim) | split

theorem sendReq_sound (r0 : CReq) (h : Hub) (hp_h : h.Sound) : (sendReq r0 h).Sound := by
  unfold sendReq
  try dsimp only
  repeat' first | with_reducible assumption | with_reducible intro _ | with_reducible apply bump_sound | with_reducible apply finish_sound | with_reducible apply reachPut_sound | with_reducible apply holderServe_sound | with_reducible apply performPhysical_sound | with_reducible apply transmit_sound | with_reducible apply homeResolve_sound | (with_reducible refine pair_sound ‹_ = (_, _)› ?_) | (with_reducible apply sound_intro; dsimp only; with_reducible apply sound_elim) | split

theorem barrierDone_sound (port : ℕ) (h : Hub) (hp_h : h.Sound) : (barrierDone port h).Sound := by
  unfold barrierDone
  try dsimp only
  repeat' first | with_reducible assumption | with_reducible intro _ | with_reducible apply answered_sound | (with_reducible apply sound_intro; dsimp only; with_reducible apply sound_elim) | split

theorem drainItems_sound (port : ℕ) (y0 : List PortItem) (y1 : List PortItem) (h : Hub) (hp : h.Sound) : (drainItems port y0 y1 h).Sound := by
  revert hp
  fun_induction drainItems port y0 y1 h <;> intro hp <;> (try dsimp only) <;>
  repeat' first | with_reducible assumption | with_reducible intro _ | with_reducible apply sendReq_sound | with_reducible apply barrierDone_sound | (with_reducible refine pair_sound ‹_ = (_, _)› ?_) | (with_reducible apply sound_intro; dsimp only; with_reducible apply sound_elim) | (with_reducible apply_assumption) | split

theorem drainPort_sound (port : ℕ) (h : Hub) (hp_h : h.Sound) : (drainPort port h).Sound := by
  unfold drainPort
  try dsimp only
  repeat' first | with_reducible assumption | with_reducible intro _ | with_reducible apply whenDo_sound | with_reducible apply drainItems_sound | with_reducible apply peak_sound | (with_reducible apply sound_intro; dsimp only; with_reducible apply sound_elim) | split

theorem drainPorts_sound (h : Hub) (hp_h : h.Sound) : (drainPorts h).Sound := by
  unfold drainPorts
  try dsimp only
  repeat' first | with_reducible assumption | with_reducible intro _ | with_reducible apply forEach_sound | with_reducible apply drainPort_sound | (with_reducible apply sound_intro; dsimp only; with_reducible apply sound_elim) | split

theorem putItem_sound (port : ℕ) (i : PortItem) (h : Hub) (hp_h : h.Sound) : (putItem port i h).Sound := by
  unfold putItem
  try dsimp only
  repeat' first | with_reducible assumption | with_reducible intro _ | with_reducible apply drainPort_sound | (with_reducible apply sound_intro; dsimp only; with_reducible apply sound_elim) | split

theorem execCanopyRequestIssue_sound (req : CReq) : Keeps (execCanopyRequestIssue req) := by
  unfold execCanopyRequestIssue
  try dsimp only
  repeat' first | with_reducible assumption | with_reducible apply keeps_onHub | with_reducible intro _ | with_reducible apply putItem_sound | (with_reducible apply sound_intro; dsimp only; with_reducible apply sound_elim) | split

theorem execBarrier_sound (port : ℕ) : Keeps (execBarrier port) := by
  unfold execBarrier
  try dsimp only
  repeat' first | with_reducible assumption | with_reducible apply keeps_onHub | with_reducible intro _ | with_reducible apply putItem_sound | (with_reducible apply sound_intro; dsimp only; with_reducible apply sound_elim) | split

theorem setFlow_sound (k : ℕ) (f : Flow) (h : Hub) (hp_h : h.Sound) : (setFlow k f h).Sound := by
  unfold setFlow
  try dsimp only
  repeat' first | with_reducible assumption | with_reducible intro _ | (with_reducible apply sound_intro; dsimp only; with_reducible apply sound_elim) | split

theorem drainFlow_sound (k : ℕ) (y0 : ℕ) (h : Hub) (hp : h.Sound) : (drainFlow k y0 h).Sound := by
  revert hp
  fun_induction drainFlow k y0 h <;> intro hp <;> (try dsimp only) <;>
  repeat' first | with_reducible assumption | with_reducible intro _ | with_reducible apply setFlow_sound | with_reducible apply serveRequest_sound | (with_reducible refine pair_sound ‹_ = (_, _)› ?_) | (with_reducible apply sound_intro; dsimp only; with_reducible apply sound_elim) | (with_reducible apply_assumption) | split

theorem orderedRequest_sound (r : CReq) (h : Hub) (hp_h : h.Sound) : (orderedRequest r h).Sound := by
  unfold orderedRequest
  try dsimp only
  repeat' first | with_reducible assumption | with_reducible intro _ | with_reducible apply bump_sound | with_reducible apply setFlow_sound | with_reducible apply respond_sound | with_reducible apply drainFlow_sound | with_reducible apply serveRequest_sound | (with_reducible apply sound_intro; dsimp only; with_reducible apply sound_elim) | split

theorem arriveRequest_sound (r : CReq) (h : Hub) (hp_h : h.Sound) : (arriveRequest r h).Sound := by
  unfold arriveRequest
  try dsimp only
  repeat' first | with_reducible assumption | with_reducible intro _ | with_reducible apply orderedRequest_sound | with_reducible apply serveRequest_sound | (with_reducible apply sound_intro; dsimp only; with_reducible apply sound_elim) | split

theorem execCanopyHomeRequest_sound (req : CReq) : Keeps (execCanopyHomeRequest req) := by
  unfold execCanopyHomeRequest
  try dsimp only
  repeat' first | with_reducible assumption | with_reducible apply keeps_onHub | with_reducible intro _ | with_reducible apply arriveRequest_sound | with_reducible apply drainPorts_sound | (with_reducible apply sound_intro; dsimp only; with_reducible apply sound_elim) | split

theorem execCanopyHolderRequest_sound (req : CReq) : Keeps (execCanopyHolderRequest req) := by
  unfold execCanopyHolderRequest
  try dsimp only
  repeat' first | with_reducible assumption | with_reducible apply keeps_onHub | with_reducible intro _ | with_reducible apply arriveRequest_sound | with_reducible apply drainPorts_sound | (with_reducible apply sound_intro; dsimp only; with_reducible apply sound_elim) | split

theorem orderGap_sound (src : ℕ) (port : ℕ) (c : Cls) (h : Hub) (hp_h : h.Sound) : (orderGap src port c h).Sound := by
  unfold orderGap
  try dsimp only
  repeat' first | with_reducible assumption | with_reducible intro _ | with_reducible apply bump_sound | with_reducible apply setFlow_sound | with_reducible apply drainPorts_sound | with_reducible apply drainFlow_sound | (with_reducible apply sound_intro; dsimp only; with_reducible apply sound_elim) | split

theorem execOrderGapTimeout_sound (src : ℕ) (port : ℕ) (cls : Cls) : Keeps (execOrderGapTimeout src port cls) := by
  unfold execOrderGapTimeout
  try dsimp only
  repeat' first | with_reducible assumption | with_reducible apply keeps_onHub | with_reducible intro _ | with_reducible apply orderGap_sound | (with_reducible apply sound_intro; dsimp only; with_reducible apply sound_elim) | split

theorem execFlowStateExpiry_sound (src : ℕ) (port : ℕ) (cls : Cls) : Keeps (execFlowStateExpiry src port cls) := by
  unfold execFlowStateExpiry
  try dsimp only
  repeat' first | with_reducible assumption | with_reducible apply keeps_onHub | with_reducible intro _ | (with_reducible apply sound_intro; dsimp only; with_reducible apply sound_elim) | split

theorem execWriteAckTimer_sound (src : ℕ) (port : ℕ) (cls : Cls) : Keeps (execWriteAckTimer src port cls) := by
  unfold execWriteAckTimer
  try dsimp only
  repeat' first | with_reducible assumption | with_reducible apply keeps_onHub | with_reducible intro _ | with_reducible apply sendAck_sound | (with_reducible apply sound_intro; dsimp only; with_reducible apply sound_elim) | split

theorem relayResponse_sound (resp : CResp) (xs : List Relay) (h : Hub) (hp_h : h.Sound) : (relayResponse resp xs h).Sound := by
  unfold relayResponse
  try dsimp only
  repeat' first | with_reducible assumption | with_reducible intro _ | with_reducible apply relayTo_sound | with_reducible apply forEach_sound | (with_reducible apply sound_intro; dsimp only; with_reducible apply sound_elim) | split

theorem canopyResponse_sound (resp : CResp) (h : Hub) (hp_h : h.Sound) : (canopyResponse resp h).Sound := by
  unfold canopyResponse
  try dsimp only
  repeat' first | with_reducible assumption | with_reducible intro _ | with_reducible apply whenDo_sound | with_reducible apply bump_sound | with_reducible apply drainPorts_sound | with_reducible apply requesterGets_sound | with_reducible apply forEach_sound | with_reducible apply relayResponse_sound | (with_reducible apply sound_intro; dsimp only; with_reducible apply sound_elim) | split

theorem execCanopyResponse_sound (resp : CResp) : Keeps (execCanopyResponse resp) := by
  unfold execCanopyResponse
  try dsimp only
  repeat' first | with_reducible assumption | with_reducible apply keeps_onHub | with_reducible intro _ | with_reducible apply canopyResponse_sound | (with_reducible apply sound_intro; dsimp only; with_reducible apply sound_elim) | split

theorem retryDelay_sound (port : ℕ) (tag : ℕ) (h : Hub) (hp_h : h.Sound) : (retryDelay port tag h).Sound := by
  unfold retryDelay
  try dsimp only
  repeat' first | with_reducible assumption | with_reducible intro _ | with_reducible apply transmit_sound | with_reducible apply homeResolve_sound | (with_reducible apply sound_intro; dsimp only; with_reducible apply sound_elim) | split

theorem execRetryDelayExpiry_sound (port : ℕ) (tag : ℕ) : Keeps (execRetryDelayExpiry port tag) := by
  unfold execRetryDelayExpiry
  try dsimp only
  repeat' first | with_reducible assumption | with_reducible apply keeps_onHub | with_reducible intro _ | with_reducible apply retryDelay_sound | with_reducible apply drainPorts_sound | (with_reducible apply sound_intro; dsimp only; with_reducible apply sound_elim) | split

theorem execCompletionTimeout_sound (port : ℕ) (tag : ℕ) : Keeps (execCompletionTimeout port tag) := by
  unfold execCompletionTimeout
  try dsimp only
  repeat' first | with_reducible assumption | with_reducible apply keeps_onHub | with_reducible intro _ | with_reducible apply bump_sound | with_reducible apply finish_sound | with_reducible apply drainPorts_sound | (with_reducible apply sound_intro; dsimp only; with_reducible apply sound_elim) | split

theorem execReachLifetimeExpiry_sound (handle : ℕ) : Keeps (execReachLifetimeExpiry handle) := by
  unfold execReachLifetimeExpiry
  try dsimp only
  repeat' first | with_reducible assumption | with_reducible apply keeps_onHub | with_reducible intro _ | with_reducible apply reachDrop_sound | (with_reducible apply sound_intro; dsimp only; with_reducible apply sound_elim) | split

theorem execReachFlush_sound (p : Path) (value : ℕ) : Keeps (execReachFlush p value) := by
  unfold execReachFlush
  try dsimp only
  repeat' first | with_reducible assumption | with_reducible apply keeps_onHub | with_reducible intro _ | with_reducible apply pathWrite_sound | (with_reducible apply sound_intro; dsimp only; with_reducible apply sound_elim) | split

end Sys2Proof.Machine
end

