-- ==== Sys2Proof/Laws/SoundPlace.lean ====
section
/-! SUPPORT. Every operation of Place.lean keeps a hub sound. -/

set_option linter.unusedTactic false
set_option linter.unreachableTactic false
set_option linter.unusedVariables false

namespace Sys2Proof.Machine

theorem bindProgram_sound (n : ℕ) (handle : ℕ) (d : ObjDef) (h : Hub) (hp_h : h.Sound) : (bindProgram n handle d h).Sound := by
  unfold bindProgram
  try dsimp only
  repeat' first | with_reducible assumption | with_reducible intro _ | with_reducible apply engineLoad_sound | with_reducible apply releasePads_sound | with_reducible apply setEngine_sound | with_reducible apply takeFree_sound | with_reducible apply wrs_sound | with_reducible apply alloc_no | with_reducible apply alloc_intro_wait | with_reducible apply alloc_intro_yes | (with_reducible refine pair_sound ‹_ = (_, _)› ?_) | (with_reducible apply sound_intro; dsimp only; with_reducible apply sound_elim) | split

theorem resetPads_sound (fios : List ℕ) (h : Hub) (hp_h : h.Sound) : (resetPads fios h).Sound := by
  unfold resetPads
  try dsimp only
  repeat' first | with_reducible assumption | with_reducible intro _ | (with_reducible apply sound_intro; dsimp only; with_reducible apply sound_elim) | split

theorem freeEngine_sound (n : ℕ) (h : Hub) (hp_h : h.Sound) : (freeEngine n h).Sound := by
  unfold freeEngine
  try dsimp only
  repeat' first | with_reducible assumption | with_reducible intro _ | with_reducible apply resetPads_sound | with_reducible apply wr_sound | (with_reducible apply sound_intro; dsimp only; with_reducible apply sound_elim) | split

theorem hostProgram_sound (handle : ℕ) (d : ObjDef) (wanted : ℕ) (h : Hub) (hp_h : h.Sound) : (hostProgram handle d wanted h).Sound := by
  unfold hostProgram
  try dsimp only
  repeat' first | with_reducible assumption | with_reducible intro _ | with_reducible apply bindProgram_sound | with_reducible apply voteReturn_sound | with_reducible apply alloc_no | with_reducible apply alloc_intro_wait | with_reducible apply alloc_intro_yes | (with_reducible refine alloc_yes ‹_ = Alloc.yes _ _› ?_) | (with_reducible refine alloc_wait ‹_ = Alloc.wait _› ?_) | (with_reducible apply sound_intro; dsimp only; with_reducible apply sound_elim) | split

theorem hostStream_sound (handle : ℕ) (d : ObjDef) (h : Hub) (hp_h : h.Sound) : (hostStream handle d h).Sound := by
  unfold hostStream
  try dsimp only
  repeat' first | with_reducible assumption | with_reducible intro _ | (with_reducible refine fifoBind_sound ‹_ = some (_, _)› ?_) | with_reducible apply alloc_no | with_reducible apply alloc_intro_wait | with_reducible apply alloc_intro_yes | (with_reducible apply sound_intro; dsimp only; with_reducible apply sound_elim) | split

theorem clearRegion_sound (base n : Nat) (h : Hub) (hp : h.Sound) : (clearRegion base n h).Sound :=
  ⟨hp.1, wf_memFilter _ _ hp.2.1, hp.2.2⟩

theorem hostObject_sound (handle kind : Nat) (d : ObjDef) (place engineWanted : Nat) (h : Hub) (hp : h.Sound) :
    (hostObject handle kind d place engineWanted h).Sound := by
  unfold hostObject
  dsimp only
  repeat' first
    | with_reducible exact alloc_no _
    | with_reducible exact hostStream_sound _ _ _ hp
    | with_reducible exact hostProgram_sound _ _ _ _ hp
    | with_reducible exact alloc_intro_yes (clearRegion_sound _ _ _ hp)
    | (with_reducible refine alloc_intro_yes ?_
       repeat' first
         | with_reducible assumption
         | with_reducible apply setSignal_sound
         | (with_reducible apply sound_intro; dsimp only; with_reducible apply sound_elim))
    | split

theorem releaseObject_sound (kind : ℕ) (base : ℕ) (h : Hub) (hp_h : h.Sound) : (releaseObject kind base h).Sound := by
  unfold releaseObject
  try dsimp only
  repeat' first | with_reducible assumption | with_reducible intro _ | with_reducible apply fifoUnbind_sound | with_reducible apply freeEngine_sound | (with_reducible apply sound_intro; dsimp only; with_reducible apply sound_elim) | split

theorem foresterLog_sound (trigger : ℕ) (result : ℕ) (handle : ℕ) (fromHub : ℕ) (toHub : ℕ) (fromE : ℕ) (toE : ℕ) (startNs : ℕ) (h : Hub) (hp_h : h.Sound) : (foresterLog trigger result handle fromHub toHub fromE toE startNs h).Sound := by
  unfold foresterLog
  try dsimp only
  repeat' first | with_reducible assumption | with_reducible intro _ | with_reducible apply pushLog_sound | (with_reducible apply sound_intro; dsimp only; with_reducible apply sound_elim) | split

theorem foresterUpdate_sound (h : Hub) (hp_h : h.Sound) : (foresterUpdate h).Sound := by
  unfold foresterUpdate
  try dsimp only
  repeat' first | with_reducible assumption | with_reducible intro _ | with_reducible apply whenDo_sound | with_reducible apply setLimpCause_sound | with_reducible apply raiseEvent_sound | with_reducible apply wrs_sound | (with_reducible apply sound_intro; dsimp only; with_reducible apply sound_elim) | split

theorem unbind_sound (slot : ℕ) (h : Hub) (hp_h : h.Sound) : (unbind slot h).Sound := by
  unfold unbind
  try dsimp only
  repeat' first | with_reducible assumption | with_reducible intro _ | with_reducible apply whenDo_sound | with_reducible apply raiseEvent_sound | with_reducible apply setMap_sound | (with_reducible apply sound_intro; dsimp only; with_reducible apply sound_elim) | split

theorem blockedAt_sound (slot : ℕ) (code : ℕ) (h : Hub) (hp_h : h.Sound) : (blockedAt slot code h).Sound := by
  unfold blockedAt
  try dsimp only
  repeat' first | with_reducible assumption | with_reducible intro _ | with_reducible apply raiseEvent_sound | (with_reducible apply sound_intro; dsimp only; with_reducible apply sound_elim) | split

theorem takeDef_sound (s : ℕ) (h : Hub) (hp_h : h.Sound) : (takeDef s h).Sound := by
  unfold takeDef
  try dsimp only
  repeat' first | with_reducible assumption | with_reducible intro _ | with_reducible apply whenDo_sound | with_reducible apply setMap_sound | (with_reducible apply sound_intro; dsimp only; with_reducible apply sound_elim) | split

theorem bindSlot_sound (s : ℕ) (holder : ℕ) (base : ℕ) (h : Hub) (hp_h : h.Sound) : (bindSlot s holder base h).Sound := by
  unfold bindSlot
  try dsimp only
  repeat' first | with_reducible assumption | with_reducible intro _ | with_reducible apply setMap_sound | (with_reducible apply sound_intro; dsimp only; with_reducible apply sound_elim) | split

end Sys2Proof.Machine
end

