-- ==== Sys2Proof/Laws/SoundValues.lean ====
section
/-! SUPPORT. Every operation of Values.lean keeps a hub sound. -/

set_option linter.unusedTactic false
set_option linter.unreachableTactic false
set_option linter.unusedVariables false

namespace Sys2Proof.Machine

theorem storeEntry_sound (index : ℕ) (sub : ℕ) (v : ℕ) (h : Hub) (hp_h : h.Sound) : (storeEntry index sub v h).Sound := by
  unfold storeEntry
  try dsimp only
  repeat' first | with_reducible assumption | with_reducible intro _ | with_reducible apply wr_sound | (with_reducible apply sound_intro; dsimp only; with_reducible apply sound_elim) | split

end Sys2Proof.Machine
end

