-- ==== Sys2Proof/Laws/SoundForester.lean ====
section
/-! SUPPORT. Every operation of Forester.lean keeps a hub sound. -/

set_option linter.unusedTactic false
set_option linter.unreachableTactic false
set_option linter.unusedVariables false

namespace Sys2Proof.Machine

theorem migrate_sound (dest : ℕ) (op : ℕ) (tag : ℕ) (status : ℕ) (handle : ℕ) (more : List Word) (h : Hub) (hp_h : h.Sound) : (migrate dest op tag status handle more h).Sound := by
  unfold migrate
  try dsimp only
  repeat' first | with_reducible assumption | with_reducible intro _ | with_reducible apply originate_sound | (with_reducible apply sound_intro; dsimp only; with_reducible apply sound_elim) | split

theorem setMove_sound (m : Move) (h : Hub) (hp_h : h.Sound) : (setMove m h).Sound := by
  unfold setMove
  try dsimp only
  repeat' first | with_reducible assumption | with_reducible intro _ | (with_reducible apply sound_intro; dsimp only; with_reducible apply sound_elim) | split

theorem dropMove_sound (m : Move) (h : Hub) (hp_h : h.Sound) : (dropMove m h).Sound := by
  unfold dropMove
  try dsimp only
  repeat' first | with_reducible assumption | with_reducible intro _ | (with_reducible apply sound_intro; dsimp only; with_reducible apply sound_elim) | split

theorem requestResult_sound (m : Move) (result : ℕ) (h : Hub) (hp_h : h.Sound) : (requestResult m result h).Sound := by
  unfold requestResult
  try dsimp only
  repeat' first | with_reducible assumption | with_reducible intro _ | with_reducible apply wr_sound | (with_reducible apply sound_intro; dsimp only; with_reducible apply sound_elim) | split

theorem moveEnds_sound (m : Move) (result : ℕ) (h : Hub) (hp_h : h.Sound) : (moveEnds m result h).Sound := by
  unfold moveEnds
  try dsimp only
  repeat' first | with_reducible assumption | with_reducible intro _ | with_reducible apply whenDo_sound | with_reducible apply bump_sound | with_reducible apply requestResult_sound | with_reducible apply raiseEvent_sound | with_reducible apply foresterLog_sound | (with_reducible apply sound_intro; dsimp only; with_reducible apply sound_elim) | split

theorem listMove_sound (m : Move) (h : Hub) (hp_h : h.Sound) : (listMove m h).Sound := by
  unfold listMove
  try dsimp only
  repeat' first | with_reducible assumption | with_reducible intro _ | (with_reducible apply sound_intro; dsimp only; with_reducible apply sound_elim) | split

theorem offerPlacement_sound (trigger : ℕ) (s : ℕ) (target : ℕ) (h : Hub) (hp_h : h.Sound) : (offerPlacement trigger s target h).Sound := by
  unfold offerPlacement
  try dsimp only
  repeat' first | with_reducible assumption | with_reducible intro _ | with_reducible apply listMove_sound | with_reducible apply migrate_sound | (with_reducible apply sound_intro; dsimp only; with_reducible apply sound_elim) | split

theorem joinGroup_sound {handle : Nat} {h a : Hub} (e : joinGroup handle h = some a) (hp : h.Sound) : a.Sound := by
  unfold joinGroup at e
  dsimp only at e
  split at e
  · cases e; exact hp
  · cases e

theorem joinGroupHere_sound {c : Bool} {handle : Nat} {h a : Hub} (e : (if c = true then joinGroup handle h else some h) = some a)
    (hp : h.Sound) : a.Sound := by
  cases c
  · cases e; exact hp
  · exact joinGroup_sound e hp

theorem placed_sound (m : Move) (holder : ℕ) (base : ℕ) (h : Hub) (hp_h : h.Sound) : (placed m holder base h).Sound := by
  unfold placed
  try dsimp only
  repeat' first | with_reducible assumption | with_reducible intro _ | with_reducible apply moveEnds_sound | with_reducible apply bindSlot_sound | (with_reducible apply sound_intro; dsimp only; with_reducible apply sound_elim) | split

theorem placeGroup_sound (trigger : ℕ) (s : ℕ) (h : Hub) (hp_h : h.Sound) : (placeGroup trigger s h).Sound := by
  unfold placeGroup
  try dsimp only
  repeat' first | with_reducible assumption | with_reducible intro _ | with_reducible apply blockedAt_sound | with_reducible apply listMove_sound | with_reducible apply placed_sound | with_reducible apply forEach_sound | (with_reducible refine joinGroup_sound ‹_ = some _› ?_) | with_reducible apply migrate_sound | (with_reducible refine joinGroupHere_sound ‹_ = some _› ?_) | (with_reducible apply sound_intro; dsimp only; with_reducible apply sound_elim) | split

theorem cancelPlacement_sound (m : Move) (h : Hub) (hp_h : h.Sound) : (cancelPlacement m h).Sound := by
  unfold cancelPlacement
  try dsimp only
  repeat' first | with_reducible assumption | with_reducible intro _ | with_reducible apply whenDo_sound | with_reducible apply releaseObject_sound | with_reducible apply setMove_sound | with_reducible apply forEach_sound | with_reducible apply migrate_sound | (with_reducible apply sound_intro; dsimp only; with_reducible apply sound_elim) | split

theorem placeSending_sound (m : Move) (listed : Bool) (holder : ℕ) (base : ℕ) (h : Hub) (hp_h : h.Sound) : (placeSending m listed holder base h).2.Sound := by
  unfold placeSending
  try dsimp only
  repeat' first | with_reducible assumption | with_reducible intro _ | with_reducible apply hostStream_sound | with_reducible apply listMove_sound | with_reducible apply setMove_sound | with_reducible apply dropMove_sound | with_reducible apply placed_sound | with_reducible apply migrate_sound | (with_reducible refine alloc_yes ‹_ = Alloc.yes _ _› ?_) | (with_reducible refine alloc_wait ‹_ = Alloc.wait _› ?_) | (with_reducible apply sound_intro; dsimp only; with_reducible apply sound_elim) | split

theorem placeAt_sound (trigger : ℕ) (s : ℕ) (target : ℕ) (h : Hub) (hp_h : h.Sound) : (placeAt trigger s target h).2.Sound := by
  unfold placeAt
  try dsimp only
  repeat' first | with_reducible assumption | with_reducible intro _ | with_reducible apply offerPlacement_sound | with_reducible apply hostObject_sound | with_reducible apply placeSending_sound | (with_reducible refine alloc_yes ‹_ = Alloc.yes _ _› ?_) | (with_reducible refine alloc_wait ‹_ = Alloc.wait _› ?_) | (with_reducible refine pair_sound ‹_ = (_, _)› ?_) | (with_reducible apply sound_intro; dsimp only; with_reducible apply sound_elim) | split

theorem placeLater_sound (s : ℕ) (h : Hub) (hp_h : h.Sound) : (placeLater s h).Sound := by
  unfold placeLater
  try dsimp only
  repeat' first | with_reducible assumption | with_reducible intro _ | (with_reducible apply sound_intro; dsimp only; with_reducible apply sound_elim) | split

theorem placeFirst_sound (trigger : ℕ) (s : ℕ) (y0 : List ℕ) (y1 : ℕ) (h : Hub) (hp : h.Sound) : (placeFirst trigger s y0 y1 h).Sound := by
  revert hp
  fun_induction placeFirst trigger s y0 y1 h <;> intro hp <;> (try dsimp only) <;>
  repeat' first | with_reducible assumption | with_reducible intro _ | with_reducible apply blockedAt_sound | with_reducible apply placeLater_sound | with_reducible apply placeAt_sound | (with_reducible refine pair_sound ‹_ = (_, _)› ?_) | (with_reducible apply sound_intro; dsimp only; with_reducible apply sound_elim) | (with_reducible apply_assumption) | split

theorem placeNext_sound (trigger : ℕ) (s : ℕ) (code : ℕ) (h : Hub) (hp_h : h.Sound) : (placeNext trigger s code h).Sound := by
  unfold placeNext
  try dsimp only
  repeat' first | with_reducible assumption | with_reducible intro _ | with_reducible apply placeFirst_sound | (with_reducible apply sound_intro; dsimp only; with_reducible apply sound_elim) | split

theorem refusedBy_sound (s : ℕ) (target : ℕ) (h : Hub) (hp_h : h.Sound) : (refusedBy s target h).Sound := by
  unfold refusedBy
  try dsimp only
  repeat' first | with_reducible assumption | with_reducible intro _ | (with_reducible apply sound_intro; dsimp only; with_reducible apply sound_elim) | split

theorem placeSlot_sound (trigger : ℕ) (s : ℕ) (h : Hub) (hp_h : h.Sound) : (placeSlot trigger s h).Sound := by
  unfold placeSlot
  try dsimp only
  repeat' first | with_reducible assumption | with_reducible intro _ | with_reducible apply blockedAt_sound | with_reducible apply placeNext_sound | with_reducible apply placeGroup_sound | (with_reducible apply sound_intro; dsimp only; with_reducible apply sound_elim) | split

theorem placeSteps_sound (y0 : List ℕ) (h : Hub) (hp : h.Sound) : (placeSteps y0 h).Sound := by
  revert hp
  fun_induction placeSteps y0 h <;> intro hp <;> (try dsimp only) <;>
  repeat' first | with_reducible assumption | with_reducible intro _ | with_reducible apply placeSlot_sound | with_reducible apply forEach_sound | (with_reducible refine pair_sound ‹_ = (_, _)› ?_) | (with_reducible apply sound_intro; dsimp only; with_reducible apply sound_elim) | (with_reducible apply_assumption) | split

theorem placeAll_sound (h : Hub) (hp_h : h.Sound) : (placeAll h).Sound := by
  unfold placeAll
  try dsimp only
  repeat' first | with_reducible assumption | with_reducible intro _ | with_reducible apply placeSteps_sound | with_reducible apply foresterUpdate_sound | (with_reducible apply sound_intro; dsimp only; with_reducible apply sound_elim) | split

theorem deleteAt_sound (s : ℕ) (hub : ℕ) (h : Hub) (hp_h : h.Sound) : (deleteAt s hub h).Sound := by
  unfold deleteAt
  try dsimp only
  repeat' first | with_reducible assumption | with_reducible intro _ | with_reducible apply listMove_sound | with_reducible apply migrate_sound | (with_reducible apply sound_intro; dsimp only; with_reducible apply sound_elim) | split

theorem releaseSending_sound (handle : ℕ) (h : Hub) (hp_h : h.Sound) : (releaseSending handle h).Sound := by
  unfold releaseSending
  try dsimp only
  repeat' first | with_reducible assumption | with_reducible intro _ | with_reducible apply releaseObject_sound | (with_reducible apply sound_intro; dsimp only; with_reducible apply sound_elim) | split

theorem giveBack_sound (s : ℕ) (e : MapEntry) (h : Hub) (hp_h : h.Sound) : (giveBack s e h).Sound := by
  unfold giveBack
  try dsimp only
  repeat' first | with_reducible assumption | with_reducible intro _ | with_reducible apply releaseObject_sound | with_reducible apply deleteAt_sound | with_reducible apply listMove_sound | with_reducible apply releaseSending_sound | with_reducible apply forEach_sound | with_reducible apply migrate_sound | (with_reducible apply sound_intro; dsimp only; with_reducible apply sound_elim) | split

theorem retirePads_sound (s : ℕ) (e : MapEntry) (h : Hub) (hp_h : h.Sound) : (retirePads s e h).Sound := by
  unfold retirePads
  try dsimp only
  repeat' first | with_reducible assumption | with_reducible intro _ | with_reducible apply whenDo_sound | with_reducible apply resetPads_sound | (with_reducible apply sound_intro; dsimp only; with_reducible apply sound_elim) | split

theorem retire_sound (s : ℕ) (h : Hub) (hp_h : h.Sound) : (retire s h).Sound := by
  unfold retire
  try dsimp only
  repeat' first | with_reducible assumption | with_reducible intro _ | with_reducible apply cancelPlacement_sound | with_reducible apply giveBack_sound | with_reducible apply forEach_sound | with_reducible apply retirePads_sound | with_reducible apply setMap_sound | (with_reducible apply sound_intro; dsimp only; with_reducible apply sound_elim) | split

theorem sendCensus_sound (dest : ℕ) (y0 : ℕ) (y1 : List ℕ) (h : Hub) (hp : h.Sound) : (sendCensus dest y0 y1 h).Sound := by
  revert hp
  fun_induction sendCensus dest y0 y1 h <;> intro hp <;> (try dsimp only) <;>
  repeat' first | with_reducible assumption | with_reducible intro _ | with_reducible apply migrate_sound | (with_reducible refine pair_sound ‹_ = (_, _)› ?_) | (with_reducible apply sound_intro; dsimp only; with_reducible apply sound_elim) | (with_reducible apply_assumption) | split

theorem takeDefs_sound (h : Hub) (hp_h : h.Sound) : (takeDefs h).Sound := by
  unfold takeDefs
  try dsimp only
  repeat' first | with_reducible assumption | with_reducible intro _ | with_reducible apply takeDef_sound | with_reducible apply forEach_sound | with_reducible apply retire_sound | (with_reducible apply sound_intro; dsimp only; with_reducible apply sound_elim) | split

theorem freshTry_sound (h : Hub) (hp_h : h.Sound) : (freshTry h).Sound := by
  unfold freshTry
  try dsimp only
  repeat' first | with_reducible assumption | with_reducible intro _ | (with_reducible apply sound_intro; dsimp only; with_reducible apply sound_elim) | split

theorem placementRun_sound (h : Hub) (hp_h : h.Sound) : (placementRun h).Sound := by
  unfold placementRun
  try dsimp only
  repeat' first | with_reducible assumption | with_reducible intro _ | with_reducible apply freshTry_sound | with_reducible apply sendCensus_sound | with_reducible apply takeFree_sound | with_reducible apply takeDefs_sound | with_reducible apply placeAll_sound | with_reducible apply wr_sound | with_reducible apply forEach_sound | (with_reducible refine pair_sound ‹_ = (_, _)› ?_) | (with_reducible apply sound_intro; dsimp only; with_reducible apply sound_elim) | split

theorem execPlacementRun_sound : Keeps (execPlacementRun) := by
  unfold execPlacementRun
  try dsimp only
  repeat' first | with_reducible assumption | with_reducible apply keeps_onHub | with_reducible intro _ | with_reducible apply placementRun_sound | (with_reducible apply sound_intro; dsimp only; with_reducible apply sound_elim) | split

theorem execPlacementRetry_sound : Keeps (execPlacementRetry) := by
  unfold execPlacementRetry
  try dsimp only
  repeat' first | with_reducible assumption | with_reducible apply keeps_onHub | with_reducible intro _ | with_reducible apply freshTry_sound | with_reducible apply placeAll_sound | (with_reducible apply sound_intro; dsimp only; with_reducible apply sound_elim) | split

theorem migrationCensus_sound (src : ℕ) (tag : ℕ) (handles : List ℕ) (h : Hub) (hp_h : h.Sound) : (migrationCensus src tag handles h).Sound := by
  unfold migrationCensus
  try dsimp only
  repeat' first | with_reducible assumption | with_reducible intro _ | with_reducible apply migrate_sound | (with_reducible apply sound_intro; dsimp only; with_reducible apply sound_elim) | split

theorem execMigrationCensus_sound (src : ℕ) (tag : ℕ) (handles : List ℕ) : Keeps (execMigrationCensus src tag handles) := by
  unfold execMigrationCensus
  try dsimp only
  repeat' first | with_reducible assumption | with_reducible apply keeps_onHub | with_reducible intro _ | with_reducible apply migrationCensus_sound | (with_reducible apply sound_intro; dsimp only; with_reducible apply sound_elim) | split

theorem claimed_sound (src : ℕ) (s : ℕ) (handle : ℕ) (h : Hub) (hp_h : h.Sound) : (claimed src s handle h).Sound := by
  unfold claimed
  try dsimp only
  repeat' first | with_reducible assumption | with_reducible intro _ | (with_reducible apply sound_intro; dsimp only; with_reducible apply sound_elim) | split

theorem heldBy_sound (src : ℕ) (x : ℕ × ℕ) (h : Hub) (hp_h : h.Sound) : (heldBy src x h).Sound := by
  unfold heldBy
  try dsimp only
  repeat' first | with_reducible assumption | with_reducible intro _ | with_reducible apply takeFree_sound | with_reducible apply bindSlot_sound | with_reducible apply claimed_sound | with_reducible apply setMap_sound | (with_reducible refine pair_sound ‹_ = (_, _)› ?_) | (with_reducible apply sound_intro; dsimp only; with_reducible apply sound_elim) | split

theorem migrationHeld_sound (src : ℕ) (held : List (ℕ × ℕ)) (h : Hub) (hp_h : h.Sound) : (migrationHeld src held h).Sound := by
  unfold migrationHeld
  try dsimp only
  repeat' first | with_reducible assumption | with_reducible intro _ | with_reducible apply foresterUpdate_sound | with_reducible apply forEach_sound | with_reducible apply heldBy_sound | (with_reducible apply sound_intro; dsimp only; with_reducible apply sound_elim) | split

theorem execMigrationHeld_sound (src : ℕ) (held : List (ℕ × ℕ)) : Keeps (execMigrationHeld src held) := by
  unfold execMigrationHeld
  try dsimp only
  repeat' first | with_reducible assumption | with_reducible apply keeps_onHub | with_reducible intro _ | with_reducible apply migrationHeld_sound | (with_reducible apply sound_intro; dsimp only; with_reducible apply sound_elim) | split

theorem definitionWrite_sound (slot : ℕ) (field : ℕ) (value : ℕ) (h : Hub) (hp_h : h.Sound) : (definitionWrite slot field value h).Sound := by
  unfold definitionWrite
  try dsimp only
  repeat' first | with_reducible assumption | with_reducible intro _ | with_reducible apply placementRun_sound | with_reducible apply foresterUpdate_sound | with_reducible apply wr_sound | with_reducible apply wrs_sound | (with_reducible apply sound_intro; dsimp only; with_reducible apply sound_elim) | split

theorem execDefinitionWrite_sound (p : Path) (slot : ℕ) (field : ℕ) (value : ℕ) : Keeps (execDefinitionWrite p slot field value) := by
  unfold execDefinitionWrite
  try dsimp only
  repeat' first | with_reducible assumption | with_reducible apply keeps_onHub | with_reducible intro _ | with_reducible apply pathWrite_sound | with_reducible apply definitionWrite_sound | (with_reducible apply sound_intro; dsimp only; with_reducible apply sound_elim) | split

theorem newMove_sound (handle : ℕ) (source : ℕ) (sourceE : ℕ) (trigger : ℕ) (target : ℕ) (engine : ℕ) (phase : ℕ) (h : Hub) (hp_h : h.Sound) : (newMove handle source sourceE trigger target engine phase h).2.Sound := by
  unfold newMove
  try dsimp only
  repeat' first | with_reducible assumption | with_reducible intro _ | (with_reducible apply sound_intro; dsimp only; with_reducible apply sound_elim) | split

theorem ownRebind_sound (code : ℕ) (handle : ℕ) (holder : ℕ) (slot : ℕ) (cycle : ℕ) (h : Hub) (hp_h : h.Sound) : (ownRebind code handle holder slot cycle h).Sound := by
  unfold ownRebind
  try dsimp only
  repeat' first | with_reducible assumption | with_reducible intro _ | (with_reducible apply sound_intro; dsimp only; with_reducible apply sound_elim) | split

theorem rebindNotice_sound (code : ℕ) (handle : ℕ) (holder : ℕ) (slot : ℕ) (switch : ℕ) (h : Hub) (hp_h : h.Sound) : (rebindNotice code handle holder slot switch h).Sound := by
  unfold rebindNotice
  try dsimp only
  repeat' first | with_reducible assumption | with_reducible intro _ | with_reducible apply ownRebind_sound | with_reducible apply originate_sound | (with_reducible apply sound_intro; dsimp only; with_reducible apply sound_elim) | split

theorem sendData_sound (dest : ℕ) (tag : ℕ) (handle : ℕ) (y0 : ℕ) (y1 : ℕ) (y2 : List Word) (h : Hub) (hp : h.Sound) : (sendData dest tag handle y0 y1 y2 h).Sound := by
  revert hp
  fun_induction sendData dest tag handle y0 y1 y2 h <;> intro hp <;> (try dsimp only) <;>
  repeat' first | with_reducible assumption | with_reducible intro _ | with_reducible apply originate_sound | (with_reducible refine pair_sound ‹_ = (_, _)› ?_) | (with_reducible apply sound_intro; dsimp only; with_reducible apply sound_elim) | (with_reducible apply_assumption) | split

theorem installState_sound (kind : ℕ) (base : ℕ) (ws : List Word) (h : Hub) (hp_h : h.Sound) : (installState kind base ws h).Sound := by
  unfold installState
  try dsimp only
  repeat' first | with_reducible assumption | with_reducible intro _ | with_reducible apply setSignal_sound | with_reducible apply writeWords_sound | (with_reducible apply sound_intro; dsimp only; with_reducible apply sound_elim) | split

theorem installStream_sound (f : ℕ) (ws : List Word) (h : Hub) (hp_h : h.Sound) : (installStream f ws h).Sound := by
  unfold installStream
  try dsimp only
  repeat' first | with_reducible assumption | with_reducible intro _ | with_reducible apply setFifo_sound | with_reducible apply wr_sound | (with_reducible apply sound_intro; dsimp only; with_reducible apply sound_elim) | split

theorem addSwitch_sound (handle : ℕ) (t : ℕ) (starting : Bool) (h : Hub) (hp_h : h.Sound) : (addSwitch handle t starting h).Sound := by
  unfold addSwitch
  try dsimp only
  repeat' first | with_reducible assumption | with_reducible intro _ | (with_reducible apply sound_intro; dsimp only; with_reducible apply sound_elim) | split

theorem leaveHolder_sound (handle : ℕ) (kind : ℕ) (base : ℕ) (h : Hub) (hp_h : h.Sound) : (leaveHolder handle kind base h).Sound := by
  unfold leaveHolder
  try dsimp only
  repeat' first | with_reducible assumption | with_reducible intro _ | with_reducible apply releaseObject_sound | with_reducible apply dropResidence_sound | (with_reducible apply sound_intro; dsimp only; with_reducible apply sound_elim) | split

theorem leaveAt_sound (t : ℕ) (handle : ℕ) (kind : ℕ) (base : ℕ) (h : Hub) (hp_h : h.Sound) : (leaveAt t handle kind base h).Sound := by
  unfold leaveAt
  try dsimp only
  repeat' first | with_reducible assumption | with_reducible intro _ | with_reducible apply dropResidence_sound | with_reducible apply leaveHolder_sound | (with_reducible apply sound_intro; dsimp only; with_reducible apply sound_elim) | split

theorem leaveDue_sound (h : Hub) (hp_h : h.Sound) : (leaveDue h).Sound := by
  unfold leaveDue
  try dsimp only
  repeat' first | with_reducible assumption | with_reducible intro _ | with_reducible apply forEach_sound | with_reducible apply leaveHolder_sound | (with_reducible apply sound_intro; dsimp only; with_reducible apply sound_elim) | split

theorem joinHolder_sound (handle : ℕ) (gen : ℕ) (h : Hub) (hp_h : h.Sound) : (joinHolder handle gen h).Sound := by
  unfold joinHolder
  try dsimp only
  repeat' first | with_reducible assumption | with_reducible intro _ | with_reducible apply setResidence_sound | (with_reducible apply sound_intro; dsimp only; with_reducible apply sound_elim) | split

theorem placeWaiting_sound (h : Hub) (hp_h : h.Sound) : (placeWaiting h).Sound := by
  unfold placeWaiting
  try dsimp only
  repeat' first | with_reducible assumption | with_reducible intro _ | with_reducible apply foresterUpdate_sound | with_reducible apply placeSlot_sound | with_reducible apply placeAll_sound | with_reducible apply forEach_sound | (with_reducible apply sound_intro; dsimp only; with_reducible apply sound_elim) | split

theorem afterMove_sound (h : Hub) (hp_h : h.Sound) : (afterMove h).Sound := by
  unfold afterMove
  try dsimp only
  repeat' first | with_reducible assumption | with_reducible intro _ | with_reducible apply whenDo_sound | with_reducible apply foresterUpdate_sound | with_reducible apply takeDefs_sound | with_reducible apply placeWaiting_sound | (with_reducible apply sound_intro; dsimp only; with_reducible apply sound_elim) | split

theorem moveOver_sound (m : Move) (h : Hub) (hp_h : h.Sound) : (moveOver m h).Sound := by
  unfold moveOver
  try dsimp only
  repeat' first | with_reducible assumption | with_reducible intro _ | with_reducible apply afterMove_sound | with_reducible apply dropMove_sound | with_reducible apply drainPorts_sound | with_reducible apply releaseHeld_sound | (with_reducible apply sound_intro; dsimp only; with_reducible apply sound_elim) | split

theorem abortMove_sound (m : Move) (result : ℕ) (h : Hub) (hp_h : h.Sound) : (abortMove m result h).Sound := by
  unfold abortMove
  try dsimp only
  repeat' first | with_reducible assumption | with_reducible intro _ | with_reducible apply whenDo_sound | with_reducible apply bump_sound | with_reducible apply releaseObject_sound | with_reducible apply cancelPlacement_sound | with_reducible apply blockedAt_sound | with_reducible apply foresterUpdate_sound | with_reducible apply setMove_sound | with_reducible apply moveEnds_sound | with_reducible apply forEach_sound | with_reducible apply releaseHeld_sound | with_reducible apply refusedBy_sound | with_reducible apply migrate_sound | with_reducible apply moveOver_sound | with_reducible apply setMap_sound | with_reducible apply rebindNotice_sound | (with_reducible apply sound_intro; dsimp only; with_reducible apply sound_elim) | split

theorem commitMove_sound (m : Move) (base : ℕ) (h : Hub) (hp_h : h.Sound) : (commitMove m base h).Sound := by
  unfold commitMove
  try dsimp only
  repeat' first | with_reducible assumption | with_reducible intro _ | with_reducible apply setMove_sound | with_reducible apply leaveAt_sound | with_reducible apply moveEnds_sound | with_reducible apply migrate_sound | with_reducible apply moveOver_sound | with_reducible apply setMap_sound | (with_reducible apply sound_intro; dsimp only; with_reducible apply sound_elim) | split

theorem copyOut_sound (target : ℕ) (tag : ℕ) (handle : ℕ) (kind : ℕ) (base : ℕ) (length : ℕ) (h0 : Hub) (hp_h0 : h0.Sound) : (copyOut target tag handle kind base length h0).2.Sound := by
  unfold copyOut
  try dsimp only
  repeat' first | with_reducible assumption | with_reducible intro _ | with_reducible apply sendData_sound | with_reducible apply fifoScan_sound | (with_reducible apply sound_intro; dsimp only; with_reducible apply sound_elim) | split

theorem drainMove_sound (m0 : Move) (newBase : ℕ) (h : Hub) (hp_h : h.Sound) : (drainMove m0 newBase h).Sound := by
  unfold drainMove
  try dsimp only
  repeat' first | with_reducible assumption | with_reducible intro _ | with_reducible apply whenDo_sound | with_reducible apply addSwitch_sound | with_reducible apply copyOut_sound | with_reducible apply setMove_sound | with_reducible apply abortMove_sound | with_reducible apply migrate_sound | with_reducible apply setMap_sound | with_reducible apply rebindNotice_sound | (with_reducible refine pair_sound ‹_ = (_, _)› ?_) | (with_reducible apply sound_intro; dsimp only; with_reducible apply sound_elim) | split

theorem tryMoveCommit_sound (m : Move) (base : ℕ) (h : Hub) (hp_h : h.Sound) : (tryMoveCommit m base h).Sound := by
  unfold tryMoveCommit
  try dsimp only
  repeat' first | with_reducible assumption | with_reducible intro _ | with_reducible apply abortMove_sound | with_reducible apply commitMove_sound | (with_reducible apply sound_intro; dsimp only; with_reducible apply sound_elim) | split

theorem abortLate_sound (h : Hub) (hp_h : h.Sound) : (abortLate h).Sound := by
  unfold abortLate
  try dsimp only
  repeat' first | with_reducible assumption | with_reducible intro _ | with_reducible apply abortMove_sound | with_reducible apply forEach_sound | (with_reducible apply sound_intro; dsimp only; with_reducible apply sound_elim) | split

theorem moveRefused_sound (code : ℕ) (h : Hub) (hp_h : h.Sound) : (moveRefused code h).Sound := by
  unfold moveRefused
  try dsimp only
  repeat' first | with_reducible assumption | with_reducible intro _ | with_reducible apply whenDo_sound | with_reducible apply bump_sound | (with_reducible apply sound_intro; dsimp only; with_reducible apply sound_elim) | split

theorem startMove_sound (s : ℕ) (trigger : ℕ) (target : ℕ) (h0 : Hub) (hp_h0 : h0.Sound) : (startMove s trigger target h0).2.Sound := by
  unfold startMove
  try dsimp only
  repeat' first | with_reducible assumption | with_reducible intro _ | with_reducible apply newMove_sound | with_reducible apply takeFree_sound | with_reducible apply hostObject_sound | with_reducible apply drainMove_sound | with_reducible apply migrate_sound | (with_reducible refine alloc_yes ‹_ = Alloc.yes _ _› ?_) | (with_reducible refine alloc_wait ‹_ = Alloc.wait _› ?_) | (with_reducible refine pair_sound ‹_ = (_, _)› ?_) | (with_reducible apply sound_intro; dsimp only; with_reducible apply sound_elim) | split

theorem tryMove_sound (s : ℕ) (trigger : ℕ) (target : ℕ) (h : Hub) (hp_h : h.Sound) : (tryMove s trigger target h).Sound := by
  unfold tryMove
  try dsimp only
  repeat' first | with_reducible assumption | with_reducible intro _ | with_reducible apply moveRefused_sound | with_reducible apply startMove_sound | (with_reducible refine pair_sound ‹_ = (_, _)› ?_) | (with_reducible apply sound_intro; dsimp only; with_reducible apply sound_elim) | split

theorem startHandover_sound (r : Residence) (trigger : ℕ) (target : ℕ) (h : Hub) (hp_h : h.Sound) : (startHandover r trigger target h).2.Sound := by
  unfold startHandover
  try dsimp only
  repeat' first | with_reducible assumption | with_reducible intro _ | with_reducible apply newMove_sound | with_reducible apply setEngine_sound | with_reducible apply wrs_sound | (with_reducible refine pair_sound ‹_ = (_, _)› ?_) | (with_reducible apply sound_intro; dsimp only; with_reducible apply sound_elim) | split

theorem moveProgram_sound (r : Residence) (trigger : ℕ) (wanted : ℕ) (avoid : ℕ) (h : Hub) (hp_h : h.Sound) : (moveProgram r trigger wanted avoid h).2.Sound := by
  unfold moveProgram
  try dsimp only
  repeat' first | with_reducible assumption | with_reducible intro _ | with_reducible apply startHandover_sound | with_reducible apply voteReturn_sound | (with_reducible refine pair_sound ‹_ = (_, _)› ?_) | (with_reducible apply sound_intro; dsimp only; with_reducible apply sound_elim) | split

theorem commitHandover_sound (handle : ℕ) (dst : ℕ) (h : Hub) (hp_h : h.Sound) : (commitHandover handle dst h).Sound := by
  unfold commitHandover
  try dsimp only
  repeat' first | with_reducible assumption | with_reducible intro _ | with_reducible apply setResidence_sound | with_reducible apply setMap_sound | (with_reducible apply sound_intro; dsimp only; with_reducible apply sound_elim) | split

theorem handOver_sound (m : Move) (readOk : Bool) (h : Hub) (hp_h : h.Sound) : (handOver m readOk h).Sound := by
  unfold handOver
  try dsimp only
  repeat' first | with_reducible assumption | with_reducible intro _ | with_reducible apply syncPins_sound | with_reducible apply bump_sound | with_reducible apply engineLoad_sound | with_reducible apply releasePads_sound | with_reducible apply raiseEvent_sound | with_reducible apply setEngine_sound | with_reducible apply dropMove_sound | with_reducible apply takeFree_sound | with_reducible apply commitHandover_sound | with_reducible apply moveEnds_sound | with_reducible apply peak_sound | with_reducible apply freeEngine_sound | with_reducible apply wrs_sound | (with_reducible refine pair_sound ‹_ = (_, _)› ?_) | (with_reducible apply sound_intro; dsimp only; with_reducible apply sound_elim) | split

theorem handoverHalt_sound (src : ℕ) (readOk : Bool) (h : Hub) (hp_h : h.Sound) : (handoverHalt src readOk h).Sound := by
  unfold handoverHalt
  try dsimp only
  repeat' first | with_reducible assumption | with_reducible intro _ | with_reducible apply foresterUpdate_sound | with_reducible apply handOver_sound | (with_reducible apply sound_intro; dsimp only; with_reducible apply sound_elim) | split

theorem execHandoverHalt_sound (source : Fin 64) (readOk : Bool) : Keeps (execHandoverHalt source readOk) := by
  unfold execHandoverHalt
  try dsimp only
  repeat' first | with_reducible assumption | with_reducible apply keeps_onHub | with_reducible intro _ | with_reducible apply handoverHalt_sound | (with_reducible apply sound_intro; dsimp only; with_reducible apply sound_elim) | split

theorem pinsSafe_sound (was : Hub) (n : ℕ) (h : Hub) (hp_was : was.Sound) (hp_h : h.Sound) : (pinsSafe was n h).Sound := by
  unfold pinsSafe
  try dsimp only
  repeat' first | with_reducible assumption | with_reducible intro _ | with_reducible apply forEach_sound | (with_reducible apply sound_intro; dsimp only; with_reducible apply sound_elim) | split

theorem abortHandover_sound (m : Move) (result : ℕ) (h : Hub) (hp_h : h.Sound) : (abortHandover m result h).Sound := by
  unfold abortHandover
  try dsimp only
  repeat' first | with_reducible assumption | with_reducible intro _ | with_reducible apply dropMove_sound | with_reducible apply moveEnds_sound | with_reducible apply freeEngine_sound | (with_reducible apply sound_intro; dsimp only; with_reducible apply sound_elim) | split

theorem abortLoad_sound (handle : ℕ) (h : Hub) (hp_h : h.Sound) : (abortLoad handle h).Sound := by
  unfold abortLoad
  try dsimp only
  repeat' first | with_reducible assumption | with_reducible intro _ | with_reducible apply abortHandover_sound | with_reducible apply abortMove_sound | (with_reducible apply sound_intro; dsimp only; with_reducible apply sound_elim) | split

theorem loseProgram_sound (r : Residence) (h : Hub) (hp_h : h.Sound) : (loseProgram r h).Sound := by
  unfold loseProgram
  try dsimp only
  repeat' first | with_reducible assumption | with_reducible intro _ | with_reducible apply unbind_sound | with_reducible apply foresterUpdate_sound | with_reducible apply dropResidence_sound | with_reducible apply pinsSafe_sound | with_reducible apply freeEngine_sound | (with_reducible apply sound_intro; dsimp only; with_reducible apply sound_elim) | split

theorem dropRebind_sound (handle : ℕ) (h : Hub) (hp_h : h.Sound) : (dropRebind handle h).Sound := by
  unfold dropRebind
  try dsimp only
  repeat' first | with_reducible assumption | with_reducible intro _ | with_reducible apply abortHandover_sound | (with_reducible apply sound_intro; dsimp only; with_reducible apply sound_elim) | split

theorem engineFailed_sound (n : ℕ) (h : Hub) (hp_h : h.Sound) : (engineFailed n h).Sound := by
  unfold engineFailed
  try dsimp only
  repeat' first | with_reducible assumption | with_reducible intro _ | with_reducible apply loseProgram_sound | with_reducible apply moveProgram_sound | with_reducible apply dueLater_sound | with_reducible apply abortLoad_sound | with_reducible apply dropRebind_sound | (with_reducible refine pair_sound ‹_ = (_, _)› ?_) | (with_reducible apply sound_intro; dsimp only; with_reducible apply sound_elim) | split

theorem disconnectPin_sound (n : ℕ) (fio : ℕ) (h : Hub) (hp_h : h.Sound) : (disconnectPin n fio h).Sound := by
  unfold disconnectPin
  try dsimp only
  repeat' first | with_reducible assumption | with_reducible intro _ | with_reducible apply releasePads_sound | with_reducible apply setEngine_sound | (with_reducible apply sound_intro; dsimp only; with_reducible apply sound_elim) | split

theorem pinRebind_sound (fio : ℕ) (h : Hub) (hp_h : h.Sound) : (pinRebind fio h).Sound := by
  unfold pinRebind
  try dsimp only
  repeat' first | with_reducible assumption | with_reducible intro _ | with_reducible apply startHandover_sound | with_reducible apply raiseEvent_sound | with_reducible apply dueLater_sound | with_reducible apply abortLoad_sound | with_reducible apply disconnectPin_sound | (with_reducible refine pair_sound ‹_ = (_, _)› ?_) | (with_reducible apply sound_intro; dsimp only; with_reducible apply sound_elim) | split

theorem execPinDriverDiagnosis_sound (fio : ℕ) : Keeps (execPinDriverDiagnosis fio) := by
  unfold execPinDriverDiagnosis
  try dsimp only
  repeat' first | with_reducible assumption | with_reducible apply keeps_onHub | with_reducible intro _ | with_reducible apply pinRebind_sound | with_reducible apply pinDriverDiagnosis_sound | (with_reducible apply sound_intro; dsimp only; with_reducible apply sound_elim) | split

theorem requestRefused_sound (code : ℕ) (h : Hub) (hp_h : h.Sound) : (requestRefused code h).Sound := by
  unfold requestRefused
  try dsimp only
  repeat' first | with_reducible assumption | with_reducible intro _ | with_reducible apply wr_sound | with_reducible apply moveRefused_sound | (with_reducible apply sound_intro; dsimp only; with_reducible apply sound_elim) | split

theorem requestStarted_sound (h : Hub) (hp_h : h.Sound) : (requestStarted h).Sound := by
  unfold requestStarted
  try dsimp only
  repeat' first | with_reducible assumption | with_reducible intro _ | with_reducible apply wr_sound | (with_reducible apply sound_intro; dsimp only; with_reducible apply sound_elim) | split

theorem requestProgram_sound (n : ℕ) (wanted : ℕ) (h : Hub) (hp_h : h.Sound) : (requestProgram n wanted h).Sound := by
  unfold requestProgram
  try dsimp only
  repeat' first | with_reducible assumption | with_reducible intro _ | with_reducible apply requestRefused_sound | with_reducible apply moveProgram_sound | with_reducible apply wr_sound | with_reducible apply dueLater_sound | with_reducible apply requestStarted_sound | (with_reducible refine pair_sound ‹_ = (_, _)› ?_) | (with_reducible apply sound_intro; dsimp only; with_reducible apply sound_elim) | split

theorem moveRequest_sound (h : Hub) (hp_h : h.Sound) : (moveRequest h).Sound := by
  unfold moveRequest
  try dsimp only
  repeat' first | with_reducible assumption | with_reducible intro _ | with_reducible apply requestProgram_sound | with_reducible apply requestRefused_sound | with_reducible apply requestStarted_sound | with_reducible apply startMove_sound | (with_reducible refine pair_sound ‹_ = (_, _)› ?_) | (with_reducible apply sound_intro; dsimp only; with_reducible apply sound_elim) | split

theorem execMoveRequestStart_sound (p : Path) (value : ℕ) : Keeps (execMoveRequestStart p value) := by
  unfold execMoveRequestStart
  try dsimp only
  repeat' first | with_reducible assumption | with_reducible apply keeps_onHub | with_reducible intro _ | with_reducible apply pathWrite_sound | with_reducible apply moveRequest_sound | (with_reducible apply sound_intro; dsimp only; with_reducible apply sound_elim) | split

theorem retryDue_sound (d : ℕ × ℕ) (h0 : Hub) (hp_h0 : h0.Sound) : (retryDue d h0).Sound := by
  unfold retryDue
  try dsimp only
  repeat' first | with_reducible assumption | with_reducible intro _ | with_reducible apply pinRebind_sound | with_reducible apply whenDo_sound | with_reducible apply engineFailed_sound | with_reducible apply requestProgram_sound | (with_reducible apply sound_intro; dsimp only; with_reducible apply sound_elim) | split

theorem execEngineCheckFailure_sound (n : Fin 64) (cause : ℕ) : Keeps (execEngineCheckFailure n cause) := by
  unfold execEngineCheckFailure
  try dsimp only
  repeat' first | with_reducible assumption | with_reducible apply keeps_onHub | with_reducible intro _ | with_reducible apply whenDo_sound | with_reducible apply engineCheckFailure_sound | with_reducible apply retryDue_sound | (with_reducible apply sound_intro; dsimp only; with_reducible apply sound_elim) | split

theorem foresterTick_sound (h : Hub) (hp_h : h.Sound) : (foresterTick h).Sound := by
  unfold foresterTick
  try dsimp only
  repeat' first | with_reducible assumption | with_reducible intro _ | with_reducible apply whenDo_sound | with_reducible apply placeWaiting_sound | with_reducible apply forEach_sound | with_reducible apply retryDue_sound | (with_reducible apply sound_intro; dsimp only; with_reducible apply sound_elim) | split

theorem migrationOffer_sound (src : ℕ) (tag : ℕ) (handle : ℕ) (kind : ℕ) (length : ℕ) (place : ℕ) (d : ObjDef) (h : Hub) (hp_h : h.Sound) : (migrationOffer src tag handle kind length place d h).Sound := by
  unfold migrationOffer
  try dsimp only
  repeat' first | with_reducible assumption | with_reducible intro _ | with_reducible apply hostObject_sound | with_reducible apply migrate_sound | (with_reducible refine alloc_yes ‹_ = Alloc.yes _ _› ?_) | (with_reducible refine alloc_wait ‹_ = Alloc.wait _› ?_) | (with_reducible apply sound_intro; dsimp only; with_reducible apply sound_elim) | split

theorem execMigrationOffer_sound (src : ℕ) (tag : ℕ) (handle : ℕ) (kind : ℕ) (length : ℕ) (placement : ℕ) (defn : ObjDef) : Keeps (execMigrationOffer src tag handle kind length placement defn) := by
  unfold execMigrationOffer
  try dsimp only
  repeat' first | with_reducible assumption | with_reducible apply keeps_onHub | with_reducible intro _ | with_reducible apply migrationOffer_sound | (with_reducible apply sound_intro; dsimp only; with_reducible apply sound_elim) | split

theorem migrationData_sound (src : ℕ) (tag : ℕ) (handle : ℕ) (first : ℕ) (ws : List Word) (h : Hub) (hp_h : h.Sound) : (migrationData src tag handle first ws h).Sound := by
  unfold migrationData
  try dsimp only
  repeat' first | with_reducible assumption | with_reducible intro _ | with_reducible apply installState_sound | with_reducible apply setResidence_sound | with_reducible apply installStream_sound | with_reducible apply migrate_sound | with_reducible apply tryMoveCommit_sound | (with_reducible apply sound_intro; dsimp only; with_reducible apply sound_elim) | split

theorem execMigrationData_sound (src : ℕ) (tag : ℕ) (handle : ℕ) (first : ℕ) (words : List Word) : Keeps (execMigrationData src tag handle first words) := by
  unfold execMigrationData
  try dsimp only
  repeat' first | with_reducible assumption | with_reducible apply keeps_onHub | with_reducible intro _ | with_reducible apply migrationData_sound | (with_reducible apply sound_intro; dsimp only; with_reducible apply sound_elim) | split

theorem migrationDrain_sound (src : ℕ) (tag : ℕ) (handle : ℕ) (target : ℕ) (switchNs : ℕ) (h : Hub) (hp_h : h.Sound) : (migrationDrain src tag handle target switchNs h).Sound := by
  unfold migrationDrain
  try dsimp only
  repeat' first | with_reducible assumption | with_reducible intro _ | with_reducible apply whenDo_sound | with_reducible apply sendData_sound | with_reducible apply addSwitch_sound | with_reducible apply setResidence_sound | with_reducible apply migrate_sound | (with_reducible apply sound_intro; dsimp only; with_reducible apply sound_elim) | split

theorem execMigrationDrain_sound (src : ℕ) (tag : ℕ) (handle : ℕ) (target : ℕ) (switchNs : ℕ) : Keeps (execMigrationDrain src tag handle target switchNs) := by
  unfold execMigrationDrain
  try dsimp only
  repeat' first | with_reducible assumption | with_reducible apply keeps_onHub | with_reducible intro _ | with_reducible apply migrationDrain_sound | (with_reducible apply sound_intro; dsimp only; with_reducible apply sound_elim) | split

theorem migrationCommit_sound (src : ℕ) (tag : ℕ) (handle : ℕ) (gen : ℕ) (switchNs : ℕ) (h : Hub) (hp_h : h.Sound) : (migrationCommit src tag handle gen switchNs h).Sound := by
  unfold migrationCommit
  try dsimp only
  repeat' first | with_reducible assumption | with_reducible intro _ | with_reducible apply whenDo_sound | with_reducible apply addSwitch_sound | with_reducible apply setResidence_sound | with_reducible apply leaveAt_sound | with_reducible apply joinHolder_sound | with_reducible apply migrate_sound | (with_reducible apply sound_intro; dsimp only; with_reducible apply sound_elim) | split

theorem execMigrationCommit_sound (src : ℕ) (tag : ℕ) (handle : ℕ) (terms : CommitTerms) : Keeps (execMigrationCommit src tag handle terms) := by
  unfold execMigrationCommit
  try dsimp only
  repeat' first | with_reducible assumption | with_reducible apply keeps_onHub | with_reducible intro _ | with_reducible apply migrationCommit_sound | (with_reducible apply sound_intro; dsimp only; with_reducible apply sound_elim) | split

theorem migrationAbort_sound (src : ℕ) (tag : ℕ) (handle : ℕ) (h : Hub) (hp_h : h.Sound) : (migrationAbort src tag handle h).Sound := by
  unfold migrationAbort
  try dsimp only
  repeat' first | with_reducible assumption | with_reducible intro _ | with_reducible apply releaseObject_sound | with_reducible apply setResidence_sound | with_reducible apply dropResidence_sound | with_reducible apply migrate_sound | (with_reducible apply sound_intro; dsimp only; with_reducible apply sound_elim) | split

theorem execMigrationAbort_sound (src : ℕ) (tag : ℕ) (handle : ℕ) : Keeps (execMigrationAbort src tag handle) := by
  unfold execMigrationAbort
  try dsimp only
  repeat' first | with_reducible assumption | with_reducible apply keeps_onHub | with_reducible intro _ | with_reducible apply migrationAbort_sound | (with_reducible apply sound_intro; dsimp only; with_reducible apply sound_elim) | split

theorem migrationGroup_sound (src : ℕ) (tag : ℕ) (handle : ℕ) (install : Bool) (h : Hub) (hp_h : h.Sound) : (migrationGroup src tag handle install h).Sound := by
  unfold migrationGroup
  try dsimp only
  repeat' first | with_reducible assumption | with_reducible intro _ | (with_reducible refine joinGroup_sound ‹_ = some _› ?_) | with_reducible apply migrate_sound | (with_reducible apply sound_intro; dsimp only; with_reducible apply sound_elim) | split

theorem execMigrationGroup_sound (src : ℕ) (tag : ℕ) (handle : ℕ) (install : Bool) : Keeps (execMigrationGroup src tag handle install) := by
  unfold execMigrationGroup
  try dsimp only
  repeat' first | with_reducible assumption | with_reducible apply keeps_onHub | with_reducible intro _ | with_reducible apply migrationGroup_sound | (with_reducible apply sound_intro; dsimp only; with_reducible apply sound_elim) | split

theorem placementAnswer_sound (m : Move) (status : ℕ) (base : ℕ) (h : Hub) (hp_h : h.Sound) : (placementAnswer m status base h).Sound := by
  unfold placementAnswer
  try dsimp only
  repeat' first | with_reducible assumption | with_reducible intro _ | with_reducible apply releaseObject_sound | with_reducible apply cancelPlacement_sound | with_reducible apply blockedAt_sound | with_reducible apply setMove_sound | with_reducible apply dropMove_sound | with_reducible apply placeNext_sound | with_reducible apply placed_sound | with_reducible apply moveEnds_sound | with_reducible apply forEach_sound | with_reducible apply placeSending_sound | with_reducible apply refusedBy_sound | with_reducible apply migrate_sound | (with_reducible refine pair_sound ‹_ = (_, _)› ?_) | (with_reducible apply sound_intro; dsimp only; with_reducible apply sound_elim) | split

theorem migrationAnswer_sound (src : ℕ) (tag : ℕ) (handle : ℕ) (status : ℕ) (base : ℕ) (h : Hub) (hp_h : h.Sound) : (migrationAnswer src tag handle status base h).Sound := by
  unfold migrationAnswer
  try dsimp only
  repeat' first | with_reducible assumption | with_reducible intro _ | with_reducible apply afterMove_sound | with_reducible apply dropMove_sound | with_reducible apply moveEnds_sound | with_reducible apply placementAnswer_sound | with_reducible apply drainMove_sound | (with_reducible apply sound_intro; dsimp only; with_reducible apply sound_elim) | split

theorem execMigrationAnswer_sound (src : ℕ) (tag : ℕ) (handle : ℕ) (status : ℕ) (base : ℕ) : Keeps (execMigrationAnswer src tag handle status base) := by
  unfold execMigrationAnswer
  try dsimp only
  repeat' first | with_reducible assumption | with_reducible apply keeps_onHub | with_reducible intro _ | with_reducible apply migrationAnswer_sound | (with_reducible apply sound_intro; dsimp only; with_reducible apply sound_elim) | split

theorem migrationDrained_sound (src : ℕ) (tag : ℕ) (handle : ℕ) (status : ℕ) (h : Hub) (hp_h : h.Sound) : (migrationDrained src tag handle status h).Sound := by
  unfold migrationDrained
  try dsimp only
  repeat' first | with_reducible assumption | with_reducible intro _ | with_reducible apply setMove_sound | with_reducible apply abortMove_sound | with_reducible apply migrate_sound | (with_reducible apply sound_intro; dsimp only; with_reducible apply sound_elim) | split

theorem execMigrationDrained_sound (src : ℕ) (tag : ℕ) (handle : ℕ) (status : ℕ) : Keeps (execMigrationDrained src tag handle status) := by
  unfold execMigrationDrained
  try dsimp only
  repeat' first | with_reducible assumption | with_reducible apply keeps_onHub | with_reducible intro _ | with_reducible apply migrationDrained_sound | (with_reducible apply sound_intro; dsimp only; with_reducible apply sound_elim) | split

theorem migrationInstalled_sound (src : ℕ) (tag : ℕ) (handle : ℕ) (received : ℕ) (h : Hub) (hp_h : h.Sound) : (migrationInstalled src tag handle received h).Sound := by
  unfold migrationInstalled
  try dsimp only
  repeat' first | with_reducible assumption | with_reducible intro _ | with_reducible apply tryMoveCommit_sound | (with_reducible apply sound_intro; dsimp only; with_reducible apply sound_elim) | split

theorem execMigrationInstalled_sound (src : ℕ) (tag : ℕ) (handle : ℕ) (received : ℕ) : Keeps (execMigrationInstalled src tag handle received) := by
  unfold execMigrationInstalled
  try dsimp only
  repeat' first | with_reducible assumption | with_reducible apply keeps_onHub | with_reducible intro _ | with_reducible apply migrationInstalled_sound | (with_reducible apply sound_intro; dsimp only; with_reducible apply sound_elim) | split

theorem migrationAck_sound (src : ℕ) (tag : ℕ) (handle : ℕ) (h : Hub) (hp_h : h.Sound) : (migrationAck src tag handle h).Sound := by
  unfold migrationAck
  try dsimp only
  repeat' first | with_reducible assumption | with_reducible intro _ | with_reducible apply setMove_sound | with_reducible apply afterMove_sound | with_reducible apply dropMove_sound | with_reducible apply drainPorts_sound | with_reducible apply placed_sound | with_reducible apply releaseHeld_sound | with_reducible apply moveOver_sound | (with_reducible apply sound_intro; dsimp only; with_reducible apply sound_elim) | split

theorem execMigrationAck_sound (src : ℕ) (tag : ℕ) (handle : ℕ) : Keeps (execMigrationAck src tag handle) := by
  unfold execMigrationAck
  try dsimp only
  repeat' first | with_reducible assumption | with_reducible apply keeps_onHub | with_reducible intro _ | with_reducible apply migrationAck_sound | (with_reducible apply sound_intro; dsimp only; with_reducible apply sound_elim) | split

theorem censusResend_sound (tag : ℕ) (h : Hub) (hp_h : h.Sound) : (censusResend tag h).Sound := by
  unfold censusResend
  try dsimp only
  repeat' first | with_reducible assumption | with_reducible intro _ | with_reducible apply migrate_sound | (with_reducible apply sound_intro; dsimp only; with_reducible apply sound_elim) | split

theorem migrationResend_sound (tag : ℕ) (h : Hub) (hp_h : h.Sound) : (migrationResend tag h).Sound := by
  unfold migrationResend
  try dsimp only
  repeat' first | with_reducible assumption | with_reducible intro _ | with_reducible apply censusResend_sound | with_reducible apply forEach_sound | with_reducible apply migrate_sound | (with_reducible apply sound_intro; dsimp only; with_reducible apply sound_elim) | split

theorem execMigrationResend_sound (tag : ℕ) : Keeps (execMigrationResend tag) := by
  unfold execMigrationResend
  try dsimp only
  repeat' first | with_reducible assumption | with_reducible apply keeps_onHub | with_reducible intro _ | with_reducible apply migrationResend_sound | (with_reducible apply sound_intro; dsimp only; with_reducible apply sound_elim) | split

theorem handoverLate_sound (m : Move) (h : Hub) (hp_h : h.Sound) : (handoverLate m h).Sound := by
  unfold handoverLate
  try dsimp only
  repeat' first | with_reducible assumption | with_reducible intro _ | with_reducible apply abortHandover_sound | with_reducible apply forEach_sound | with_reducible apply dueLater_sound | (with_reducible apply sound_intro; dsimp only; with_reducible apply sound_elim) | split

theorem moveTimeLimit_sound (slot : ℕ) (h : Hub) (hp_h : h.Sound) : (moveTimeLimit slot h).Sound := by
  unfold moveTimeLimit
  try dsimp only
  repeat' first | with_reducible assumption | with_reducible intro _ | with_reducible apply handoverLate_sound | with_reducible apply afterMove_sound | with_reducible apply dropMove_sound | with_reducible apply abortMove_sound | with_reducible apply moveOver_sound | (with_reducible apply sound_intro; dsimp only; with_reducible apply sound_elim) | split

theorem execMoveTimeLimitExpiry_sound (slot : ℕ) : Keeps (execMoveTimeLimitExpiry slot) := by
  unfold execMoveTimeLimitExpiry
  try dsimp only
  repeat' first | with_reducible assumption | with_reducible apply keeps_onHub | with_reducible intro _ | with_reducible apply moveTimeLimit_sound | with_reducible apply drainPorts_sound | (with_reducible apply sound_intro; dsimp only; with_reducible apply sound_elim) | split

theorem inspectScores_sound (h : Hub) (hp_h : h.Sound) : (inspectScores h).Sound := by
  unfold inspectScores
  try dsimp only
  repeat' first | with_reducible assumption | with_reducible intro _ | with_reducible apply wrs_sound | (with_reducible apply sound_intro; dsimp only; with_reducible apply sound_elim) | split

theorem scoreSlot_sound (s : ℕ) (h : Hub) (hp_h : h.Sound) : (scoreSlot s h).Sound := by
  unfold scoreSlot
  try dsimp only
  repeat' first | with_reducible assumption | with_reducible intro _ | with_reducible apply tryMove_sound | with_reducible apply wr_sound | (with_reducible apply sound_intro; dsimp only; with_reducible apply sound_elim) | split

theorem reflexRehome_sound (s : ℕ) (h : Hub) (hp_h : h.Sound) : (reflexRehome s h).Sound := by
  unfold reflexRehome
  try dsimp only
  repeat' first | with_reducible assumption | with_reducible intro _ | with_reducible apply tryMove_sound | (with_reducible apply sound_intro; dsimp only; with_reducible apply sound_elim) | split

theorem compact_sound (h : Hub) (hp_h : h.Sound) : (compact h).Sound := by
  unfold compact
  try dsimp only
  repeat' first | with_reducible assumption | with_reducible intro _ | with_reducible apply moveProgram_sound | with_reducible apply moveRefused_sound | (with_reducible refine pair_sound ‹_ = (_, _)› ?_) | (with_reducible apply sound_intro; dsimp only; with_reducible apply sound_elim) | split

theorem scoringInterval_sound (h : Hub) (hp_h : h.Sound) : (scoringInterval h).Sound := by
  unfold scoringInterval
  try dsimp only
  repeat' first | with_reducible assumption | with_reducible intro _ | with_reducible apply scoreSlot_sound | with_reducible apply reflexRehome_sound | with_reducible apply forEach_sound | with_reducible apply inspectScores_sound | with_reducible apply migrate_sound | with_reducible apply compact_sound | (with_reducible apply sound_intro; dsimp only; with_reducible apply sound_elim) | split

theorem execScoringInterval_sound : Keeps (execScoringInterval) := by
  unfold execScoringInterval
  try dsimp only
  repeat' first | with_reducible assumption | with_reducible apply keeps_onHub | with_reducible intro _ | with_reducible apply scoringInterval_sound | (with_reducible apply sound_intro; dsimp only; with_reducible apply sound_elim) | split

theorem execMigrationScore_sound (src : ℕ) (handle : ℕ) (scores : List (ℕ × ℕ)) : Keeps (execMigrationScore src handle scores) := by
  unfold execMigrationScore
  try dsimp only
  repeat' first | with_reducible assumption | with_reducible apply keeps_onHub | with_reducible intro _ | (with_reducible apply sound_intro; dsimp only; with_reducible apply sound_elim) | split

theorem dataLost_sound (s : ℕ) (h : Hub) (hp_h : h.Sound) : (dataLost s h).Sound := by
  unfold dataLost
  try dsimp only
  repeat' first | with_reducible assumption | with_reducible intro _ | with_reducible apply whenDo_sound | with_reducible apply unbind_sound | with_reducible apply raiseEvent_sound | with_reducible apply placeSlot_sound | with_reducible apply abortLoad_sound | (with_reducible apply sound_intro; dsimp only; with_reducible apply sound_elim) | split

theorem censusTimeout_sound (h : Hub) (hp_h : h.Sound) : (censusTimeout h).Sound := by
  unfold censusTimeout
  try dsimp only
  repeat' first | with_reducible assumption | with_reducible intro _ | with_reducible apply foresterUpdate_sound | with_reducible apply dataLost_sound | with_reducible apply placeAll_sound | with_reducible apply forEach_sound | (with_reducible apply sound_intro; dsimp only; with_reducible apply sound_elim) | split

theorem execCensusTimeout_sound : Keeps (execCensusTimeout) := by
  unfold execCensusTimeout
  try dsimp only
  repeat' first | with_reducible assumption | with_reducible apply keeps_onHub | with_reducible intro _ | with_reducible apply censusTimeout_sound | (with_reducible apply sound_intro; dsimp only; with_reducible apply sound_elim) | split

theorem watchHolders_sound (h : Hub) (hp_h : h.Sound) : (watchHolders h).Sound := by
  unfold watchHolders
  try dsimp only
  repeat' first | with_reducible assumption | with_reducible intro _ | with_reducible apply sendCensus_sound | with_reducible apply forEach_sound | (with_reducible apply sound_intro; dsimp only; with_reducible apply sound_elim) | split

theorem execPresence_sound (ring : RingId) (src : ℕ) (hop : ℕ) (role : ℕ) (mode : ℕ) (y0 : ℕ) : Keeps (execPresence ring src hop role mode y0) := by
  unfold execPresence
  try dsimp only
  repeat' first | with_reducible assumption | with_reducible apply keeps_onHub | with_reducible intro _ | with_reducible apply watchHolders_sound | with_reducible apply presence_sound | (with_reducible apply sound_intro; dsimp only; with_reducible apply sound_elim) | split

theorem execPresenceTimeout_sound (hub : ℕ) (ring : RingId) : Keeps (execPresenceTimeout hub ring) := by
  unfold execPresenceTimeout
  try dsimp only
  repeat' first | with_reducible assumption | with_reducible apply keeps_onHub | with_reducible intro _ | with_reducible apply presenceTimeout_sound | with_reducible apply watchHolders_sound | (with_reducible apply sound_intro; dsimp only; with_reducible apply sound_elim) | split

end Sys2Proof.Machine
end

