-- ==== Sys2Proof/Laws/SoundBusOps.lean ====
section
/-! SUPPORT. Every operation of BusOps.lean keeps a hub sound. -/

set_option linter.unusedTactic false
set_option linter.unreachableTactic false
set_option linter.unusedVariables false

namespace Sys2Proof.Machine

theorem setCan_sound (h : Hub) (c : ℕ) (x : CanCtl) (hp_h : h.Sound) : (setCan h c x).Sound := by
  unfold setCan
  try dsimp only
  repeat' first | with_reducible assumption | with_reducible intro _ | (with_reducible apply sound_intro; dsimp only; with_reducible apply sound_elim) | split

theorem canEvent_sound (e : ℕ) (c : ℕ) (cause : ℕ) (h : Hub) (hp_h : h.Sound) : (canEvent e c cause h).Sound := by
  unfold canEvent
  try dsimp only
  repeat' first | with_reducible assumption | with_reducible intro _ | with_reducible apply raise16ms_sound | (with_reducible apply sound_intro; dsimp only; with_reducible apply sound_elim) | split

theorem writeFields_sound (ws : List (ℕ × Word)) (h : Hub) (hp_h : h.Sound) : (writeFields ws h).Sound := by
  unfold writeFields
  try dsimp only
  repeat' first | with_reducible assumption | with_reducible intro _ | with_reducible apply forEach_sound | with_reducible apply wrW_sound | (with_reducible apply sound_intro; dsimp only; with_reducible apply sound_elim) | split

theorem bufContent_sound (c : ℕ) (b : ℕ) (ws : List (ℕ × Word)) (h : Hub) (hp_h : h.Sound) : (bufContent c b ws h).Sound := by
  unfold bufContent
  try dsimp only
  repeat' first | with_reducible assumption | with_reducible intro _ | with_reducible apply whenDo_sound | with_reducible apply bump_sound | with_reducible apply setCan_sound | with_reducible apply writeFields_sound | (with_reducible apply sound_intro; dsimp only; with_reducible apply sound_elim) | split

theorem bufRequest_sound (c : ℕ) (b : ℕ) (ws : List (ℕ × Word)) (h : Hub) (hp_h : h.Sound) : (bufRequest c b ws h).Sound := by
  unfold bufRequest
  try dsimp only
  repeat' first | with_reducible assumption | with_reducible intro _ | with_reducible apply bufContent_sound | with_reducible apply setCan_sound | (with_reducible apply sound_intro; dsimp only; with_reducible apply sound_elim) | split

theorem bufOutput_sound (c : ℕ) (b : ℕ) (w : Word) (h : Hub) (hp_h : h.Sound) : (bufOutput c b w h).Sound := by
  unfold bufOutput
  try dsimp only
  repeat' first | with_reducible assumption | with_reducible intro _ | with_reducible apply bufRequest_sound | (with_reducible apply sound_intro; dsimp only; with_reducible apply sound_elim) | split

theorem busOffEntry_sound (c : ℕ) (h : Hub) (hp_h : h.Sound) : (busOffEntry c h).Sound := by
  unfold busOffEntry
  try dsimp only
  repeat' first | with_reducible assumption | with_reducible intro _ | with_reducible apply canEvent_sound | with_reducible apply bump_sound | with_reducible apply setCan_sound | with_reducible apply wr_sound | (with_reducible apply sound_intro; dsimp only; with_reducible apply sound_elim) | split

theorem canErrors_sound (c : ℕ) (tec : ℕ) (rec : ℕ) (h : Hub) (hp_h : h.Sound) : (canErrors c tec rec h).Sound := by
  unfold canErrors
  try dsimp only
  repeat' first | with_reducible assumption | with_reducible intro _ | with_reducible apply canEvent_sound | with_reducible apply wr_sound | with_reducible apply busOffEntry_sound | with_reducible apply wrs_sound | (with_reducible apply sound_intro; dsimp only; with_reducible apply sound_elim) | split

theorem canCount_sound (c : ℕ) (f : ℕ → ℕ) (g : ℕ → ℕ) (h : Hub) (hp_h : h.Sound) : (canCount c f g h).Sound := by
  unfold canCount
  try dsimp only
  repeat' first | with_reducible assumption | with_reducible intro _ | with_reducible apply canErrors_sound | (with_reducible apply sound_intro; dsimp only; with_reducible apply sound_elim) | split

theorem setT1s_sound (h : Hub) (p : ℕ) (x : T1sPort) (hp_h : h.Sound) : (setT1s h p x).Sound := by
  unfold setT1s
  try dsimp only
  repeat' first | with_reducible assumption | with_reducible intro _ | (with_reducible apply sound_intro; dsimp only; with_reducible apply sound_elim) | split

theorem busWord_sound (f : ℕ) (w : XWord) (h : Hub) (hp_h : h.Sound) : (busWord f w h).Sound := by
  unfold busWord
  try dsimp only
  repeat' first | with_reducible assumption | with_reducible intro _ | with_reducible apply crossWord_sound | with_reducible apply fifoStore_sound | with_reducible apply forEach_sound | (with_reducible refine pair_sound ‹_ = (_, _)› ?_) | (with_reducible apply sound_intro; dsimp only; with_reducible apply sound_elim) | split

theorem fifoPacket_sound (f : ℕ) (w0 : Word) (w1 : Word) (n : ℕ) (bytes : List Byte) (h : Hub) (hp_h : h.Sound) : (fifoPacket f w0 w1 n bytes h).Sound := by
  unfold fifoPacket
  try dsimp only
  repeat' first | with_reducible assumption | with_reducible intro _ | with_reducible apply crossWord_sound | with_reducible apply fifoPackUnit_sound | with_reducible apply busWord_sound | with_reducible apply bump_sound | with_reducible apply raiseEvent_sound | with_reducible apply forEach_sound | (with_reducible refine pair_sound ‹_ = (_, _)› ?_) | (with_reducible apply sound_intro; dsimp only; with_reducible apply sound_elim) | split

theorem markAndRead_sound (f : ℕ) (n : ℕ) (h : Hub) (hp_h : h.Sound) : (markAndRead f n h).Sound := by
  unfold markAndRead
  try dsimp only
  repeat' first | with_reducible assumption | with_reducible intro _ | with_reducible apply fifoAdvance_sound | with_reducible apply fifoMark_sound | with_reducible apply forEach_sound | (with_reducible apply sound_intro; dsimp only; with_reducible apply sound_elim) | split

theorem releasePacket_sound (f : ℕ) (n : ℕ) (h : Hub) (hp_h : h.Sound) : (releasePacket f n h).Sound := by
  unfold releasePacket
  try dsimp only
  repeat' first | with_reducible assumption | with_reducible intro _ | with_reducible apply markAndRead_sound | with_reducible apply fifoRelease_sound | (with_reducible apply sound_intro; dsimp only; with_reducible apply sound_elim) | split

end Sys2Proof.Machine
end

