-- ==== Sys2Proof/Laws/SoundFuse.lean ====
section
/-! SUPPORT. Every operation of Fuse.lean keeps a hub sound. -/

set_option linter.unusedTactic false
set_option linter.unreachableTactic false
set_option linter.unusedVariables false

namespace Sys2Proof.Machine

theorem roundedDiv_sound (num : ℤ) (den : ℤ) (h : Hub) (hp_h : h.Sound) : (roundedDiv num den h).2.Sound := by
  unfold roundedDiv
  try dsimp only
  repeat' first | with_reducible assumption | with_reducible intro _ | with_reducible apply takeFree_sound | (with_reducible refine pair_sound ‹_ = (_, _)› ?_) | (with_reducible apply sound_intro; dsimp only; with_reducible apply sound_elim) | split

theorem fuseCooldown_sound (n : ℕ) (h : Hub) (hp_h : h.Sound) : (fuseCooldown n h).Sound := by
  unfold fuseCooldown
  try dsimp only
  repeat' first | with_reducible assumption | with_reducible intro _ | with_reducible apply fuseOff_sound | with_reducible apply setFuse_sound | (with_reducible apply sound_intro; dsimp only; with_reducible apply sound_elim) | split

theorem fuseTrip_sound (n : ℕ) (cause : ℕ) (h : Hub) (hp_h : h.Sound) : (fuseTrip n cause h).Sound := by
  unfold fuseTrip
  try dsimp only
  repeat' first | with_reducible assumption | with_reducible intro _ | with_reducible apply bump_sound | with_reducible apply wrStamp_sound | with_reducible apply raiseFault_sound | with_reducible apply raise16ms_sound | with_reducible apply fuseOff_sound | with_reducible apply wr_sound | with_reducible apply setFuse_sound | with_reducible apply fuseCooldown_sound | (with_reducible apply sound_intro; dsimp only; with_reducible apply sound_elim) | split

theorem fuseLost_sound (n : ℕ) (now : ℕ) (h : Hub) (hp_h : h.Sound) : (fuseLost n now h).Sound := by
  unfold fuseLost
  try dsimp only
  repeat' first | with_reducible assumption | with_reducible intro _ | with_reducible apply setFuse_sound | with_reducible apply wrs_sound | (with_reducible apply sound_intro; dsimp only; with_reducible apply sound_elim) | split

theorem fuseModelRound_sound (n : ℕ) (h : Hub) (hp_h : h.Sound) : (fuseModelRound n h).Sound := by
  unfold fuseModelRound
  try dsimp only
  repeat' first | with_reducible assumption | with_reducible intro _ | with_reducible apply wr_sound | with_reducible apply roundedDiv_sound | (with_reducible refine pair_sound ‹_ = (_, _)› ?_) | (with_reducible apply sound_intro; dsimp only; with_reducible apply sound_elim) | split

theorem fuseObserve_sound (n : ℕ) (h : Hub) (hp_h : h.Sound) : (fuseObserve n h).Sound := by
  unfold fuseObserve
  try dsimp only
  repeat' first | with_reducible assumption | with_reducible intro _ | with_reducible apply whenDo_sound | with_reducible apply raise16ms_sound | with_reducible apply wr_sound | with_reducible apply setFuse_sound | with_reducible apply peak_sound | (with_reducible apply sound_intro; dsimp only; with_reducible apply sound_elim) | split

theorem fuseShortWatch_sound (n : ℕ) (h : Hub) (hp_h : h.Sound) : (fuseShortWatch n h).Sound := by
  unfold fuseShortWatch
  try dsimp only
  repeat' first | with_reducible assumption | with_reducible intro _ | with_reducible apply setFuse_sound | with_reducible apply causeGone_sound | (with_reducible apply sound_intro; dsimp only; with_reducible apply sound_elim) | split

theorem fuseSample_sound (n : ℕ) (s : FuseSample) (h : Hub) (hp_h : h.Sound) : (fuseSample n s h).Sound := by
  unfold fuseSample
  try dsimp only
  repeat' first | with_reducible assumption | with_reducible intro _ | with_reducible apply fuseTrip_sound | with_reducible apply fuseEval_sound | with_reducible apply fuseObserve_sound | with_reducible apply setFuse_sound | with_reducible apply fuseShortWatch_sound | with_reducible apply fuseModelRound_sound | with_reducible apply wrs_sound | (with_reducible apply sound_intro; dsimp only; with_reducible apply sound_elim) | split

theorem dieCheck_sound (h : Hub) (hp_h : h.Sound) : (dieCheck h).Sound := by
  unfold dieCheck
  try dsimp only
  repeat' first | with_reducible assumption | with_reducible intro _ | with_reducible apply raiseFault_sound | with_reducible apply causeGone_sound | (with_reducible apply sound_intro; dsimp only; with_reducible apply sound_elim) | split

theorem adcSample_sound (ain : List ℕ) (die : List ℤ) (h : Hub) (hp_h : h.Sound) : (adcSample ain die h).Sound := by
  unfold adcSample
  try dsimp only
  repeat' first | with_reducible assumption | with_reducible intro _ | (with_reducible apply sound_intro; dsimp only; with_reducible apply sound_elim) | split

theorem conversionRound_sound (samples : List FuseSample) (ain : List ℕ) (die : List ℤ) (h : Hub) (hp_h : h.Sound) : (conversionRound samples ain die h).Sound := by
  unfold conversionRound
  try dsimp only
  repeat' first | with_reducible assumption | with_reducible intro _ | with_reducible apply dieCheck_sound | with_reducible apply adcSample_sound | with_reducible apply forEach_sound | with_reducible apply fuseSample_sound | (with_reducible apply sound_intro; dsimp only; with_reducible apply sound_elim) | split

theorem execConversionRound_sound (samples : List FuseSample) (ain : List ℕ) (die : List ℤ) : Keeps (execConversionRound samples ain die) := by
  unfold execConversionRound
  try dsimp only
  repeat' first | with_reducible assumption | with_reducible apply keeps_onHub | with_reducible intro _ | with_reducible apply conversionRound_sound | (with_reducible apply sound_intro; dsimp only; with_reducible apply sound_elim) | split

theorem rampStep_sound (n : ℕ) (atLimit : Bool) (h : Hub) (hp_h : h.Sound) : (rampStep n atLimit h).Sound := by
  unfold rampStep
  try dsimp only
  repeat' first | with_reducible assumption | with_reducible intro _ | with_reducible apply setFuse_sound | (with_reducible apply sound_intro; dsimp only; with_reducible apply sound_elim) | split

theorem softStartStep_sound (n : ℕ) (atLimit : Bool) (h : Hub) (hp_h : h.Sound) : (softStartStep n atLimit h).Sound := by
  unfold softStartStep
  try dsimp only
  repeat' first | with_reducible assumption | with_reducible intro _ | with_reducible apply raise16ms_sound | with_reducible apply wr_sound | with_reducible apply setFuse_sound | with_reducible apply rampStep_sound | (with_reducible apply sound_intro; dsimp only; with_reducible apply sound_elim) | split

theorem execSoftStartStep_sound (n : Fin 16) (atLimit : Bool) : Keeps (execSoftStartStep n atLimit) := by
  unfold execSoftStartStep
  try dsimp only
  repeat' first | with_reducible assumption | with_reducible apply keeps_onHub | with_reducible intro _ | with_reducible apply softStartStep_sound | (with_reducible apply sound_intro; dsimp only; with_reducible apply sound_elim) | split

theorem setRequest_sound (n : ℕ) (on : Bool) (h : Hub) (hp_h : h.Sound) : (setRequest n on h).Sound := by
  unfold setRequest
  try dsimp only
  repeat' first | with_reducible assumption | with_reducible intro _ | with_reducible apply wr_sound | with_reducible apply setFuse_sound | (with_reducible apply sound_intro; dsimp only; with_reducible apply sound_elim) | split

theorem execOnRequestChange_sound (n : Fin 16) (on : Bool) : Keeps (execOnRequestChange n on) := by
  unfold execOnRequestChange
  try dsimp only
  repeat' first | with_reducible assumption | with_reducible apply keeps_onHub | with_reducible intro _ | with_reducible apply fuseEval_sound | with_reducible apply setRequest_sound | (with_reducible apply sound_intro; dsimp only; with_reducible apply sound_elim) | split

theorem execFastComparatorTrip_sound (n : Fin 16) : Keeps (execFastComparatorTrip n) := by
  unfold execFastComparatorTrip
  try dsimp only
  repeat' first | with_reducible assumption | with_reducible apply keeps_onHub | with_reducible intro _ | with_reducible apply fuseTrip_sound | (with_reducible apply sound_intro; dsimp only; with_reducible apply sound_elim) | split

theorem execRampTimeout_sound (n : Fin 16) : Keeps (execRampTimeout n) := by
  unfold execRampTimeout
  try dsimp only
  repeat' first | with_reducible assumption | with_reducible apply keeps_onHub | with_reducible intro _ | with_reducible apply fuseTrip_sound | (with_reducible apply sound_intro; dsimp only; with_reducible apply sound_elim) | split

theorem execOvercurrentDelayExpiry_sound (n : Fin 16) : Keeps (execOvercurrentDelayExpiry n) := by
  unfold execOvercurrentDelayExpiry
  try dsimp only
  repeat' first | with_reducible assumption | with_reducible apply keeps_onHub | with_reducible intro _ | with_reducible apply fuseTrip_sound | (with_reducible apply sound_intro; dsimp only; with_reducible apply sound_elim) | split

theorem execGateSuspectTimeout_sound (n : Fin 16) : Keeps (execGateSuspectTimeout n) := by
  unfold execGateSuspectTimeout
  try dsimp only
  repeat' first | with_reducible assumption | with_reducible apply keeps_onHub | with_reducible intro _ | with_reducible apply fuseTrip_sound | (with_reducible apply sound_intro; dsimp only; with_reducible apply sound_elim) | split

theorem cooldownExpiry_sound (n : ℕ) (h : Hub) (hp_h : h.Sound) : (cooldownExpiry n h).Sound := by
  unfold cooldownExpiry
  try dsimp only
  repeat' first | with_reducible assumption | with_reducible intro _ | with_reducible apply fuseEval_sound | with_reducible apply wr_sound | with_reducible apply setFuse_sound | with_reducible apply fuseStart_sound | (with_reducible apply sound_intro; dsimp only; with_reducible apply sound_elim) | split

theorem execCooldownExpiry_sound (n : Fin 16) : Keeps (execCooldownExpiry n) := by
  unfold execCooldownExpiry
  try dsimp only
  repeat' first | with_reducible assumption | with_reducible apply keeps_onHub | with_reducible intro _ | with_reducible apply cooldownExpiry_sound | (with_reducible apply sound_intro; dsimp only; with_reducible apply sound_elim) | split

theorem execRetryWindowExpiry_sound (n : Fin 16) : Keeps (execRetryWindowExpiry n) := by
  unfold execRetryWindowExpiry
  try dsimp only
  repeat' first | with_reducible assumption | with_reducible apply keeps_onHub | with_reducible intro _ | with_reducible apply wr_sound | with_reducible apply setFuse_sound | (with_reducible apply sound_intro; dsimp only; with_reducible apply sound_elim) | split

theorem presenceChange_sound (n : ℕ) (present : Bool) (h : Hub) (hp_h : h.Sound) : (presenceChange n present h).Sound := by
  unfold presenceChange
  try dsimp only
  repeat' first | with_reducible assumption | with_reducible intro _ | with_reducible apply fuseEval_sound | with_reducible apply raise16ms_sound | with_reducible apply fuseOff_sound | with_reducible apply wr_sound | with_reducible apply setFuse_sound | with_reducible apply fuseCooldown_sound | (with_reducible apply sound_intro; dsimp only; with_reducible apply sound_elim) | split

theorem execPresenceChange_sound (n : Fin 16) (present : Bool) : Keeps (execPresenceChange n present) := by
  unfold execPresenceChange
  try dsimp only
  repeat' first | with_reducible assumption | with_reducible apply keeps_onHub | with_reducible intro _ | with_reducible apply presenceChange_sound | (with_reducible apply sound_intro; dsimp only; with_reducible apply sound_elim) | split

theorem setLimit_sound (n : ℕ) (v : ℕ) (h : Hub) (hp_h : h.Sound) : (setLimit n v h).Sound := by
  unfold setLimit
  try dsimp only
  repeat' first | with_reducible assumption | with_reducible intro _ | with_reducible apply raise16ms_sound | with_reducible apply wr_sound | with_reducible apply setFuse_sound | (with_reducible apply sound_intro; dsimp only; with_reducible apply sound_elim) | split

theorem execCurrentLimitWrite_sound (p : Path) (n : Fin 16) (value : ℕ) : Keeps (execCurrentLimitWrite p n value) := by
  unfold execCurrentLimitWrite
  try dsimp only
  repeat' first | with_reducible assumption | with_reducible apply keeps_onHub | with_reducible intro _ | with_reducible apply setLimit_sound | with_reducible apply pathWrite_sound | (with_reducible apply sound_intro; dsimp only; with_reducible apply sound_elim) | split

theorem execLimitGraceExpiry_sound (n : Fin 16) : Keeps (execLimitGraceExpiry n) := by
  unfold execLimitGraceExpiry
  try dsimp only
  repeat' first | with_reducible assumption | with_reducible apply keeps_onHub | with_reducible intro _ | with_reducible apply wr_sound | with_reducible apply setFuse_sound | (with_reducible apply sound_intro; dsimp only; with_reducible apply sound_elim) | split

theorem setEnable_sound (n : ℕ) (v : ℕ) (h : Hub) (hp_h : h.Sound) : (setEnable n v h).Sound := by
  unfold setEnable
  try dsimp only
  repeat' first | with_reducible assumption | with_reducible intro _ | with_reducible apply fuseEval_sound | with_reducible apply fuseOff_sound | with_reducible apply wr_sound | with_reducible apply setFuse_sound | (with_reducible apply sound_intro; dsimp only; with_reducible apply sound_elim) | split

theorem execChannelEnableWrite_sound (p : Path) (n : Fin 16) (value : ℕ) : Keeps (execChannelEnableWrite p n value) := by
  unfold execChannelEnableWrite
  try dsimp only
  repeat' first | with_reducible assumption | with_reducible apply keeps_onHub | with_reducible intro _ | with_reducible apply setEnable_sound | with_reducible apply pathWrite_sound | (with_reducible apply sound_intro; dsimp only; with_reducible apply sound_elim) | split

theorem suspectGone_sound (h : Hub) (hp_h : h.Sound) : (suspectGone h).Sound := by
  unfold suspectGone
  try dsimp only
  repeat' first | with_reducible assumption | with_reducible intro _ | with_reducible apply causeGone_sound | (with_reducible apply sound_intro; dsimp only; with_reducible apply sound_elim) | split

theorem execClearLockout_sound (p : Path) (n : Fin 16) : Keeps (execClearLockout p n) := by
  unfold execClearLockout
  try dsimp only
  repeat' first | with_reducible assumption | with_reducible apply keeps_onHub | with_reducible intro _ | with_reducible apply fuseEval_sound | with_reducible apply pathWrite_sound | with_reducible apply wr_sound | (with_reducible apply sound_intro; dsimp only; with_reducible apply sound_elim) | split

theorem execClearSuspect_sound (p : Path) (n : Fin 16) : Keeps (execClearSuspect p n) := by
  unfold execClearSuspect
  try dsimp only
  repeat' first | with_reducible assumption | with_reducible apply keeps_onHub | with_reducible intro _ | with_reducible apply fuseEval_sound | with_reducible apply pathWrite_sound | with_reducible apply wr_sound | with_reducible apply suspectGone_sound | (with_reducible apply sound_intro; dsimp only; with_reducible apply sound_elim) | split

theorem fetShortDetect_sound (n : ℕ) (h : Hub) (hp_h : h.Sound) : (fetShortDetect n h).Sound := by
  unfold fetShortDetect
  try dsimp only
  repeat' first | with_reducible assumption | with_reducible intro _ | with_reducible apply bump_sound | with_reducible apply raiseFault_sound | with_reducible apply setFuse_sound | (with_reducible apply sound_intro; dsimp only; with_reducible apply sound_elim) | split

theorem execFetShortDetect_sound (n : Fin 16) : Keeps (execFetShortDetect n) := by
  unfold execFetShortDetect
  try dsimp only
  repeat' first | with_reducible assumption | with_reducible apply keeps_onHub | with_reducible intro _ | with_reducible apply fetShortDetect_sound | (with_reducible apply sound_intro; dsimp only; with_reducible apply sound_elim) | split

end Sys2Proof.Machine
end

