-- ==== Sys2Proof/Laws/SoundSpire.lean ====
section
/-! SUPPORT. Every operation of Spire.lean keeps a hub sound. -/

set_option linter.unusedTactic false
set_option linter.unreachableTactic false
set_option linter.unusedVariables false

namespace Sys2Proof.Machine

theorem setSpire_sound (st : ℕ) (h : Hub) (hp_h : h.Sound) : (setSpire st h).Sound := by
  unfold setSpire
  try dsimp only
  repeat' first | with_reducible assumption | with_reducible intro _ | with_reducible apply wr_sound | (with_reducible apply sound_intro; dsimp only; with_reducible apply sound_elim) | split

theorem eachReplica_sound (f : ℕ → Replica → Replica) (h : Hub) (hp_h : h.Sound) : (eachReplica f h).Sound := by
  unfold eachReplica
  try dsimp only
  repeat' first | with_reducible assumption | with_reducible intro _ | (with_reducible apply sound_intro; dsimp only; with_reducible apply sound_elim) | split

theorem countReplicas_sound (n : ℕ) (h : Hub) (hp_h : h.Sound) : (countReplicas n h).Sound := by
  unfold countReplicas
  try dsimp only
  repeat' first | with_reducible assumption | with_reducible intro _ | with_reducible apply eachReplica_sound | (with_reducible apply sound_intro; dsimp only; with_reducible apply sound_elim) | split

theorem loadReplica_sound (i : ℕ) (v : ℕ) (h : Hub) (hp_h : h.Sound) : (loadReplica i v h).Sound := by
  unfold loadReplica
  try dsimp only
  repeat' first | with_reducible assumption | with_reducible intro _ | (with_reducible apply sound_intro; dsimp only; with_reducible apply sound_elim) | split

theorem loadOver_sound (src : ℕ) (i : ℕ) (v : ℕ) (h : Hub) (hp_h : h.Sound) : (loadOver src i v h).Sound := by
  unfold loadOver
  try dsimp only
  repeat' first | with_reducible assumption | with_reducible intro _ | with_reducible apply crossWords_sound | with_reducible apply loadReplica_sound | (with_reducible refine pair_sound ‹_ = (_, _)› ?_) | (with_reducible apply sound_intro; dsimp only; with_reducible apply sound_elim) | split

theorem loadReplicas_sound (src : ℕ) (v : ℕ) (h : Hub) (hp_h : h.Sound) : (loadReplicas src v h).Sound := by
  unfold loadReplicas
  try dsimp only
  repeat' first | with_reducible assumption | with_reducible intro _ | with_reducible apply loadOver_sound | with_reducible apply forEach_sound | (with_reducible apply sound_intro; dsimp only; with_reducible apply sound_elim) | split

theorem holdoverTick_sound (alone : Bool) (h : Hub) (hp_h : h.Sound) : (holdoverTick alone h).Sound := by
  unfold holdoverTick
  generalize crystalPeriod = c
  generalize 4 * 2 ^ 32 = d
  dsimp only
  split
  · exact hp_h
  · split
    · exact loadReplicas_sound _ _ _ hp_h
    · exact hp_h

theorem spireCount_sound (h : Hub) (hp_h : h.Sound) : (spireCount h).Sound := by
  unfold spireCount
  try dsimp only
  repeat' first | with_reducible assumption | with_reducible intro _ | with_reducible apply countReplicas_sound | (with_reducible apply sound_intro; dsimp only; with_reducible apply sound_elim) | split

theorem spireTick_sound (h0 : Hub) (hp_h0 : h0.Sound) : (spireTick h0).Sound := by
  unfold spireTick
  try dsimp only
  repeat' first | with_reducible assumption | with_reducible intro _ | with_reducible apply holdoverTick_sound | with_reducible apply spireCount_sound | (with_reducible apply sound_intro; dsimp only; with_reducible apply sound_elim) | split

theorem spireSyncEdge_sound (h : Hub) (hp_h : h.Sound) : (spireSyncEdge h).Sound := by
  unfold spireSyncEdge
  try dsimp only
  repeat' first | with_reducible assumption | with_reducible intro _ | with_reducible apply loadReplicas_sound | (with_reducible apply sound_intro; dsimp only; with_reducible apply sound_elim) | split

theorem execSpireSyncEdge_sound : Keeps (execSpireSyncEdge) := by
  unfold execSpireSyncEdge
  try dsimp only
  repeat' first | with_reducible assumption | with_reducible apply keeps_onHub | with_reducible intro _ | with_reducible apply spireSyncEdge_sound | (with_reducible apply sound_intro; dsimp only; with_reducible apply sound_elim) | split

theorem enterLocked_sound (h : Hub) (hp_h : h.Sound) : (enterLocked h).Sound := by
  unfold enterLocked
  try dsimp only
  repeat' first | with_reducible assumption | with_reducible intro _ | with_reducible apply setSpire_sound | with_reducible apply raiseEvent_sound | (with_reducible apply sound_intro; dsimp only; with_reducible apply sound_elim) | split

theorem masterLock_sound (h : Hub) (hp_h : h.Sound) : (masterLock h).Sound := by
  unfold masterLock
  try dsimp only
  repeat' first | with_reducible assumption | with_reducible intro _ | with_reducible apply holdoverEnds_sound | with_reducible apply setSpire_sound | with_reducible apply enterLocked_sound | with_reducible apply wr_sound | (with_reducible apply sound_intro; dsimp only; with_reducible apply sound_elim) | split

theorem noteLocked_sound (h : Hub) (hp_h : h.Sound) : (noteLocked h).Sound := by
  unfold noteLocked
  try dsimp only
  repeat' first | with_reducible assumption | with_reducible intro _ | (with_reducible apply sound_intro; dsimp only; with_reducible apply sound_elim) | split

theorem mastered_sound (h : Hub) (hp_h : h.Sound) : (mastered h).Sound := by
  unfold mastered
  try dsimp only
  repeat' first | with_reducible assumption | with_reducible intro _ | with_reducible apply wr_sound | (with_reducible apply sound_intro; dsimp only; with_reducible apply sound_elim) | split

theorem elect_sound (h0 : Hub) (hp_h0 : h0.Sound) : (elect h0).Sound := by
  unfold elect
  try dsimp only
  repeat' first | with_reducible assumption | with_reducible intro _ | with_reducible apply whenDo_sound | with_reducible apply noteLocked_sound | with_reducible apply masterLock_sound | with_reducible apply raiseEvent_sound | with_reducible apply mastered_sound | with_reducible apply wrs_sound | (with_reducible apply sound_intro; dsimp only; with_reducible apply sound_elim) | split

theorem spireWatch_sound (h : Hub) (hp_h : h.Sound) : (spireWatch h).Sound := by
  unfold spireWatch
  try dsimp only
  repeat' first | with_reducible assumption | with_reducible intro _ | with_reducible apply setSpire_sound | with_reducible apply masterLock_sound | with_reducible apply elect_sound | with_reducible apply wr_sound | (with_reducible apply sound_intro; dsimp only; with_reducible apply sound_elim) | split

theorem timeFrame_sound (port : ℕ) (dst : ℕ) (sub : ℕ) (payload : List Word) (h : Hub) (hp_h : h.Sound) : (timeFrame port dst sub payload h).Sound := by
  unfold timeFrame
  try dsimp only
  repeat' first | with_reducible assumption | with_reducible intro _ | with_reducible apply queueTx_sound | with_reducible apply sendOver_sound | with_reducible apply sealing_sound | (with_reducible refine pair_sound ‹_ = (_, _)› ?_) | (with_reducible apply sound_intro; dsimp only; with_reducible apply sound_elim) | split

theorem announceSend_sound (h : Hub) (hp_h : h.Sound) : (announceSend h).Sound := by
  unfold announceSend
  try dsimp only
  repeat' first | with_reducible assumption | with_reducible intro _ | with_reducible apply elect_sound | with_reducible apply timeFrame_sound | (with_reducible apply sound_intro; dsimp only; with_reducible apply sound_elim) | split

theorem execAnnounceSend_sound : Keeps (execAnnounceSend) := by
  unfold execAnnounceSend
  try dsimp only
  repeat' first | with_reducible assumption | with_reducible apply keeps_onHub | with_reducible intro _ | with_reducible apply announceSend_sound | (with_reducible apply sound_intro; dsimp only; with_reducible apply sound_elim) | split

theorem announce_sound (src : ℕ) (cls : ℕ) (locked : Bool) (h : Hub) (hp_h : h.Sound) : (announce src cls locked h).Sound := by
  unfold announce
  try dsimp only
  repeat' first | with_reducible assumption | with_reducible intro _ | with_reducible apply elect_sound | (with_reducible apply sound_intro; dsimp only; with_reducible apply sound_elim) | split

theorem execAnnounce_sound (src : ℕ) (cls : ℕ) (locked : Bool) : Keeps (execAnnounce src cls locked) := by
  unfold execAnnounce
  try dsimp only
  repeat' first | with_reducible assumption | with_reducible apply keeps_onHub | with_reducible intro _ | with_reducible apply announce_sound | (with_reducible apply sound_intro; dsimp only; with_reducible apply sound_elim) | split

theorem execAnnounceTimeout_sound (hub : ℕ) : Keeps (execAnnounceTimeout hub) := by
  unfold execAnnounceTimeout
  try dsimp only
  repeat' first | with_reducible assumption | with_reducible apply keeps_onHub | with_reducible intro _ | with_reducible apply elect_sound | (with_reducible apply sound_intro; dsimp only; with_reducible apply sound_elim) | split

theorem setMeter_sound (p : ℕ) (m : SpanMeter) (h : Hub) (hp_h : h.Sound) : (setMeter p m h).Sound := by
  unfold setMeter
  try dsimp only
  repeat' first | with_reducible assumption | with_reducible intro _ | (with_reducible apply sound_intro; dsimp only; with_reducible apply sound_elim) | split

theorem exchangeInvalid_sound (h : Hub) (hp_h : h.Sound) : (exchangeInvalid h).Sound := by
  unfold exchangeInvalid
  try dsimp only
  repeat' first | with_reducible assumption | with_reducible intro _ | with_reducible apply bump_sound | (with_reducible apply sound_intro; dsimp only; with_reducible apply sound_elim) | split

theorem peerChange_sound (p : ℕ) (h : Hub) (hp_h : h.Sound) : (peerChange p h).Sound := by
  unfold peerChange
  try dsimp only
  repeat' first | with_reducible assumption | with_reducible intro _ | with_reducible apply bumpBy_sound | with_reducible apply setMeter_sound | (with_reducible apply sound_intro; dsimp only; with_reducible apply sound_elim) | split

theorem delayReqSend_sound (p : ℕ) (t1 : ℕ) (h : Hub) (hp_h : h.Sound) : (delayReqSend p t1 h).Sound := by
  unfold delayReqSend
  try dsimp only
  repeat' first | with_reducible assumption | with_reducible intro _ | with_reducible apply setMeter_sound | with_reducible apply timeFrame_sound | with_reducible apply peerChange_sound | (with_reducible apply sound_intro; dsimp only; with_reducible apply sound_elim) | split

theorem execDelayReqSend_sound (port : Port) (t1Ps : ℕ) : Keeps (execDelayReqSend port t1Ps) := by
  unfold execDelayReqSend
  try dsimp only
  repeat' first | with_reducible assumption | with_reducible apply keeps_onHub | with_reducible intro _ | with_reducible apply delayReqSend_sound | (with_reducible apply sound_intro; dsimp only; with_reducible apply sound_elim) | split

theorem delayReq_sound (p : ℕ) (src : ℕ) (seq : ℕ) (t2 : ℕ) (h : Hub) (hp_h : h.Sound) : (delayReq p src seq t2 h).Sound := by
  unfold delayReq
  try dsimp only
  repeat' first | with_reducible assumption | with_reducible intro _ | with_reducible apply setMeter_sound | with_reducible apply timeFrame_sound | (with_reducible apply sound_intro; dsimp only; with_reducible apply sound_elim) | split

theorem execDelayReq_sound (port : Port) (src : ℕ) (seq : ℕ) (t2Ps : ℕ) : Keeps (execDelayReq port src seq t2Ps) := by
  unfold execDelayReq
  try dsimp only
  repeat' first | with_reducible assumption | with_reducible apply keeps_onHub | with_reducible intro _ | with_reducible apply delayReq_sound | (with_reducible apply sound_intro; dsimp only; with_reducible apply sound_elim) | split

theorem exchangeDone_store_sound (p : Nat) (h : Hub) (m : SpanMeter) (d : Int) (hp_h : h.Sound) :
    (exchangeDone.store p h m d).Sound :=
  wr_sound _ _ _ (setMeter_sound _ _ _ hp_h)

theorem exchangeDone_sound (p t1 t2 t3 t4 : Nat) (h : Hub) (hp_h : h.Sound) : (exchangeDone p t1 t2 t3 t4 h).Sound := by
  unfold exchangeDone
  dsimp only
  split
  · split
    · exact exchangeInvalid_sound _ hp_h
    · exact exchangeDone_store_sound _ _ _ _ hp_h
  · exact exchangeDone_store_sound _ _ _ _ hp_h

theorem delayResp_sound (p : ℕ) (seq : ℕ) (t3Seq : ℕ) (t2 : ℕ) (t3 : ℕ) (t4 : ℕ) (errorBlock : Bool) (h : Hub) (hp_h : h.Sound) : (delayResp p seq t3Seq t2 t3 t4 errorBlock h).Sound := by
  unfold delayResp
  try dsimp only
  repeat' first | with_reducible assumption | with_reducible intro _ | with_reducible apply exchangeDone_sound | with_reducible apply exchangeInvalid_sound | with_reducible apply masterLock_sound | with_reducible apply setMeter_sound | with_reducible apply peerChange_sound | (with_reducible apply sound_intro; dsimp only; with_reducible apply sound_elim) | split

theorem execDelayResp_sound (port : Port) (seq : ℕ) (t3Seq : ℕ) (t2Ps : ℕ) (t3Ps : ℕ) (t4Ps : ℕ) (errorBlock : Bool) : Keeps (execDelayResp port seq t3Seq t2Ps t3Ps t4Ps errorBlock) := by
  unfold execDelayResp
  try dsimp only
  repeat' first | with_reducible assumption | with_reducible apply keeps_onHub | with_reducible intro _ | with_reducible apply delayResp_sound | (with_reducible apply sound_intro; dsimp only; with_reducible apply sound_elim) | split

theorem execDelayRespTimeout_sound (port : Port) : Keeps (execDelayRespTimeout port) := by
  unfold execDelayRespTimeout
  try dsimp only
  repeat' first | with_reducible assumption | with_reducible apply keeps_onHub | with_reducible intro _ | with_reducible apply exchangeInvalid_sound | with_reducible apply setMeter_sound | (with_reducible apply sound_intro; dsimp only; with_reducible apply sound_elim) | split

theorem shiftStamps_sound (d : ℕ) (h : Hub) (hp_h : h.Sound) : (shiftStamps d h).Sound := by
  unfold shiftStamps
  try dsimp only
  repeat' first | with_reducible assumption | with_reducible intro _ | (with_reducible apply sound_intro; dsimp only; with_reducible apply sound_elim) | split

theorem takeStep_sound (d : ℤ) (h : Hub) (hp_h : h.Sound) : (takeStep d h).Sound := by
  unfold takeStep
  try dsimp only
  repeat' first | with_reducible assumption | with_reducible intro _ | with_reducible apply setSpire_sound | with_reducible apply shiftStamps_sound | with_reducible apply raiseEvent_sound | with_reducible apply wr_sound | with_reducible apply loadReplicas_sound | (with_reducible apply sound_intro; dsimp only; with_reducible apply sound_elim) | split

theorem spireStep_sound (h : Hub) (hp_h : h.Sound) : (spireStep h).Sound := by
  unfold spireStep
  try dsimp only
  repeat' first | with_reducible assumption | with_reducible intro _ | with_reducible apply takeStep_sound | (with_reducible apply sound_intro; dsimp only; with_reducible apply sound_elim) | split

theorem execSpireStep_sound : Keeps (execSpireStep) := by
  unfold execSpireStep
  try dsimp only
  repeat' first | with_reducible assumption | with_reducible apply keeps_onHub | with_reducible intro _ | with_reducible apply spireStep_sound | (with_reducible apply sound_intro; dsimp only; with_reducible apply sound_elim) | split

theorem applyRate_sound (theta : ℤ) (h : Hub) (hp_h : h.Sound) : (applyRate theta h).Sound := by
  unfold applyRate
  try dsimp only
  repeat' first | with_reducible assumption | with_reducible intro _ | with_reducible apply takeFree_sound | with_reducible apply wrs_sound | (with_reducible refine pair_sound ‹_ = (_, _)› ?_) | (with_reducible apply sound_intro; dsimp only; with_reducible apply sound_elim) | split

theorem enterSlewing_sound (h : Hub) (hp_h : h.Sound) : (enterSlewing h).Sound := by
  unfold enterSlewing
  try dsimp only
  repeat' first | with_reducible assumption | with_reducible intro _ | with_reducible apply bump_sound | with_reducible apply setSpire_sound | with_reducible apply raiseEvent_sound | (with_reducible apply sound_intro; dsimp only; with_reducible apply sound_elim) | split

theorem servo_sound (theta : ℤ) (h : Hub) (hp_h : h.Sound) : (servo theta h).Sound := by
  unfold servo
  try dsimp only
  repeat' first | with_reducible assumption | with_reducible intro _ | with_reducible apply setSpire_sound | with_reducible apply enterLocked_sound | with_reducible apply wr_sound | with_reducible apply applyRate_sound | with_reducible apply enterSlewing_sound | (with_reducible apply sound_intro; dsimp only; with_reducible apply sound_elim) | split

theorem setChain_sound (r : ℕ) (c : Chain) (h : Hub) (hp_h : h.Sound) : (setChain r c h).Sound := by
  unfold setChain
  try dsimp only
  repeat' first | with_reducible assumption | with_reducible intro _ | (with_reducible apply sound_intro; dsimp only; with_reducible apply sound_elim) | split

theorem sendSync_sound (r : ℕ) (master : ℕ) (cls : ℕ) (hops : ℕ) (path : ℕ) (rt : ℕ) (h : Hub) (hp_h : h.Sound) : (sendSync r master cls hops path rt h).Sound := by
  unfold sendSync
  try dsimp only
  repeat' first | with_reducible assumption | with_reducible intro _ | with_reducible apply setChain_sound | with_reducible apply timeFrame_sound | (with_reducible apply sound_intro; dsimp only; with_reducible apply sound_elim) | split

theorem execSyncSend_sound (ring : RingId) : Keeps (execSyncSend ring) := by
  unfold execSyncSend
  try dsimp only
  repeat' first | with_reducible assumption | with_reducible apply keeps_onHub | with_reducible intro _ | with_reducible apply sendSync_sound | (with_reducible apply sound_intro; dsimp only; with_reducible apply sound_elim) | split

theorem setRt_sound (rt : ℕ) (h : Hub) (hp_h : h.Sound) : (setRt rt h).Sound := by
  unfold setRt
  try dsimp only
  repeat' first | with_reducible assumption | with_reducible intro _ | with_reducible apply cycEvent_sound | with_reducible apply wr_sound | (with_reducible apply sound_intro; dsimp only; with_reducible apply sound_elim) | split

theorem loopBack_sound (r : ℕ) (path : ℕ) (h : Hub) (hp_h : h.Sound) : (loopBack r path h).Sound := by
  unfold loopBack
  try dsimp only
  repeat' first | with_reducible assumption | with_reducible intro _ | with_reducible apply masterLock_sound | with_reducible apply setRt_sound | (with_reducible apply sound_intro; dsimp only; with_reducible apply sound_elim) | split

theorem followChain_sound (r : ℕ) (h : Hub) (hp_h : h.Sound) : (followChain r h).Sound := by
  unfold followChain
  try dsimp only
  repeat' first | with_reducible assumption | with_reducible intro _ | with_reducible apply wr_sound | (with_reducible apply sound_intro; dsimp only; with_reducible apply sound_elim) | split

theorem relaySync_sound (r : ℕ) (master : ℕ) (cls : ℕ) (hops : ℕ) (path : ℕ) (rt : ℕ) (h : Hub) (hp_h : h.Sound) : (relaySync r master cls hops path rt h).Sound := by
  unfold relaySync
  try dsimp only
  repeat' first | with_reducible assumption | with_reducible intro _ | with_reducible apply sendSync_sound | (with_reducible apply sound_intro; dsimp only; with_reducible apply sound_elim) | split

theorem syncEndsHoldover_sound (h : Hub) (hp_h : h.Sound) : (syncEndsHoldover h).Sound := by
  unfold syncEndsHoldover
  try dsimp only
  repeat' first | with_reducible assumption | with_reducible intro _ | with_reducible apply holdoverEnds_sound | with_reducible apply setSpire_sound | (with_reducible apply sound_intro; dsimp only; with_reducible apply sound_elim) | split

theorem acceptSync_sound (r : ℕ) (cls : ℕ) (hops : ℕ) (seq : ℕ) (origin : ℕ) (rt : ℕ) (arrival : ℕ) (h : Hub) (hp_h : h.Sound) : (acceptSync r cls hops seq origin rt arrival h).Sound := by
  unfold acceptSync
  try dsimp only
  repeat' first | with_reducible assumption | with_reducible intro _ | with_reducible apply servo_sound | with_reducible apply bump_sound | with_reducible apply setChain_sound | with_reducible apply wr_sound | with_reducible apply setRt_sound | with_reducible apply syncEndsHoldover_sound | with_reducible apply followChain_sound | (with_reducible apply sound_intro; dsimp only; with_reducible apply sound_elim) | split

theorem sync_sound (r : ℕ) (master : ℕ) (cls : ℕ) (hops : ℕ) (seq : ℕ) (origin : ℕ) (path : ℕ) (rt : ℕ) (arrival : ℕ) (h : Hub) (hp_h : h.Sound) : (sync r master cls hops seq origin path rt arrival h).Sound := by
  unfold sync
  try dsimp only
  repeat' first | with_reducible assumption | with_reducible intro _ | with_reducible apply whenDo_sound | with_reducible apply relaySync_sound | with_reducible apply loopBack_sound | with_reducible apply acceptSync_sound | (with_reducible apply sound_intro; dsimp only; with_reducible apply sound_elim) | split

theorem execSync_sound (ring : RingId) (master : ℕ) (cls : ℕ) (hops : ℕ) (seq : ℕ) (originPs : ℕ) (pathNs : ℕ) (rtNs : ℕ) (arrivalPs : ℕ) : Keeps (execSync ring master cls hops seq originPs pathNs rtNs arrivalPs) := by
  unfold execSync
  try dsimp only
  repeat' first | with_reducible assumption | with_reducible apply keeps_onHub | with_reducible intro _ | with_reducible apply sync_sound | (with_reducible apply sound_intro; dsimp only; with_reducible apply sound_elim) | split

theorem execChainSwitch_sound : Keeps (execChainSwitch) := by
  unfold execChainSwitch
  try dsimp only
  repeat' first | with_reducible assumption | with_reducible apply keeps_onHub | with_reducible intro _ | with_reducible apply setChain_sound | with_reducible apply wr_sound | (with_reducible apply sound_intro; dsimp only; with_reducible apply sound_elim) | split

theorem holdoverEntry_sound (h : Hub) (hp_h : h.Sound) : (holdoverEntry h).Sound := by
  unfold holdoverEntry
  try dsimp only
  repeat' first | with_reducible assumption | with_reducible intro _ | with_reducible apply bump_sound | with_reducible apply setSpire_sound | with_reducible apply raiseEvent_sound | with_reducible apply wr_sound | (with_reducible apply sound_intro; dsimp only; with_reducible apply sound_elim) | split

theorem execHoldoverEntry_sound : Keeps (execHoldoverEntry) := by
  unfold execHoldoverEntry
  try dsimp only
  repeat' first | with_reducible assumption | with_reducible apply keeps_onHub | with_reducible intro _ | with_reducible apply holdoverEntry_sound | (with_reducible apply sound_intro; dsimp only; with_reducible apply sound_elim) | split

theorem execHoldoverLimitExpiry_sound : Keeps (execHoldoverLimitExpiry) := by
  unfold execHoldoverLimitExpiry
  try dsimp only
  repeat' first | with_reducible assumption | with_reducible apply keeps_onHub | with_reducible intro _ | with_reducible apply raiseFault_sound | (with_reducible apply sound_intro; dsimp only; with_reducible apply sound_elim) | split

theorem execHoldoverCalibrate_sound (increment : ℕ) : Keeps (execHoldoverCalibrate increment) := by
  unfold execHoldoverCalibrate
  try dsimp only
  repeat' first | with_reducible assumption | with_reducible apply keeps_onHub | with_reducible intro _ | (with_reducible apply sound_intro; dsimp only; with_reducible apply sound_elim) | split

theorem spireIslandFault_sound (h : Hub) (hp_h : h.Sound) : (spireIslandFault h).Sound := by
  unfold spireIslandFault
  try dsimp only
  repeat' first | with_reducible assumption | with_reducible intro _ | with_reducible apply raiseFault_sound | with_reducible apply loadReplicas_sound | (with_reducible apply sound_intro; dsimp only; with_reducible apply sound_elim) | split

theorem execSpireIslandFault_sound : Keeps (execSpireIslandFault) := by
  unfold execSpireIslandFault
  try dsimp only
  repeat' first | with_reducible assumption | with_reducible apply keeps_onHub | with_reducible intro _ | with_reducible apply spireIslandFault_sound | (with_reducible apply sound_intro; dsimp only; with_reducible apply sound_elim) | split

theorem execPpsOutEdge_sound : Keeps (execPpsOutEdge) := by
  unfold execPpsOutEdge
  try dsimp only
  repeat' first | with_reducible assumption | with_reducible apply keeps_onHub | with_reducible intro _ | (with_reducible apply sound_intro; dsimp only; with_reducible apply sound_elim) | split

theorem execPpsOutWidthEnd_sound : Keeps (execPpsOutWidthEnd) := by
  unfold execPpsOutWidthEnd
  try dsimp only
  repeat' first | with_reducible assumption | with_reducible apply keeps_onHub | with_reducible intro _ | (with_reducible apply sound_intro; dsimp only; with_reducible apply sound_elim) | split

theorem ppsLost_sound (h : Hub) (hp_h : h.Sound) : (ppsLost h).Sound := by
  unfold ppsLost
  try dsimp only
  repeat' first | with_reducible assumption | with_reducible intro _ | with_reducible apply whenDo_sound | with_reducible apply elect_sound | with_reducible apply raiseEvent_sound | with_reducible apply wr_sound | (with_reducible apply sound_intro; dsimp only; with_reducible apply sound_elim) | split

theorem discipline_sound (err : ℤ) (h : Hub) (hp_h : h.Sound) : (discipline err h).Sound := by
  unfold discipline
  try dsimp only
  repeat' first | with_reducible assumption | with_reducible intro _ | with_reducible apply setSpire_sound | with_reducible apply applyRate_sound | with_reducible apply enterSlewing_sound | (with_reducible apply sound_intro; dsimp only; with_reducible apply sound_elim) | split

theorem ppsGoodEdge_sound (err : ℤ) (h : Hub) (hp_h : h.Sound) : (ppsGoodEdge err h).Sound := by
  unfold ppsGoodEdge
  try dsimp only
  repeat' first | with_reducible assumption | with_reducible intro _ | with_reducible apply whenDo_sound | with_reducible apply holdoverEnds_sound | with_reducible apply elect_sound | with_reducible apply enterLocked_sound | with_reducible apply discipline_sound | (with_reducible apply sound_intro; dsimp only; with_reducible apply sound_elim) | split

theorem ppsEdge_sound (at0 : ℕ) (h : Hub) (hp_h : h.Sound) : (ppsEdge at0 h).Sound := by
  unfold ppsEdge
  try dsimp only
  repeat' first | with_reducible assumption | with_reducible intro _ | with_reducible apply bump_sound | with_reducible apply ppsLost_sound | with_reducible apply ppsGoodEdge_sound | (with_reducible apply sound_intro; dsimp only; with_reducible apply sound_elim) | split

theorem ppsNamed_sound (at0 : ℕ) (h : Hub) (hp_h : h.Sound) : (ppsNamed at0 h).Sound := by
  unfold ppsNamed
  try dsimp only
  repeat' first | with_reducible assumption | with_reducible intro _ | (with_reducible apply sound_intro; dsimp only; with_reducible apply sound_elim) | split

theorem ppsSource_sound (at0 : ℕ) (h : Hub) (hp_h : h.Sound) : (ppsSource at0 h).Sound := by
  unfold ppsSource
  try dsimp only
  repeat' first | with_reducible assumption | with_reducible intro _ | with_reducible apply elect_sound | with_reducible apply takeStep_sound | with_reducible apply ppsEdge_sound | (with_reducible apply sound_intro; dsimp only; with_reducible apply sound_elim) | split

theorem ppsInEdge_sound (stamp : ℕ) (h : Hub) (hp_h : h.Sound) : (ppsInEdge stamp h).Sound := by
  unfold ppsInEdge
  try dsimp only
  repeat' first | with_reducible assumption | with_reducible intro _ | with_reducible apply ppsNamed_sound | with_reducible apply ppsSource_sound | with_reducible apply wrs_sound | (with_reducible apply sound_intro; dsimp only; with_reducible apply sound_elim) | split

theorem execPpsInEdge_sound (stampNs : ℕ) : Keeps (execPpsInEdge stampNs) := by
  unfold execPpsInEdge
  try dsimp only
  repeat' first | with_reducible assumption | with_reducible apply keeps_onHub | with_reducible intro _ | with_reducible apply ppsInEdge_sound | (with_reducible apply sound_intro; dsimp only; with_reducible apply sound_elim) | split

theorem execPpsInTimeout_sound : Keeps (execPpsInTimeout) := by
  unfold execPpsInTimeout
  try dsimp only
  repeat' first | with_reducible assumption | with_reducible apply keeps_onHub | with_reducible intro _ | with_reducible apply ppsLost_sound | (with_reducible apply sound_intro; dsimp only; with_reducible apply sound_elim) | split

theorem todWritten_sound (h : Hub) (hp_h : h.Sound) : (todWritten h).Sound := by
  unfold todWritten
  try dsimp only
  repeat' first | with_reducible assumption | with_reducible intro _ | with_reducible apply raiseEvent_sound | (with_reducible apply sound_intro; dsimp only; with_reducible apply sound_elim) | split

theorem timeFrameIn_sound (p : ℕ) (at0 : ℕ) (f : Frame) (h : Hub) (hp_h : h.Sound) : (timeFrameIn p at0 f h).Sound := by
  unfold timeFrameIn
  try dsimp only
  repeat' first | with_reducible assumption | with_reducible intro _ | with_reducible apply announce_sound | with_reducible apply delayResp_sound | with_reducible apply delayReq_sound | with_reducible apply sync_sound | (with_reducible apply sound_intro; dsimp only; with_reducible apply sound_elim) | split

theorem spireReceives_sound (p : ℕ) (f : Frame) (h : Hub) (hp_h : h.Sound) : (spireReceives p f h).Sound := by
  unfold spireReceives
  try dsimp only
  repeat' first | with_reducible assumption | with_reducible intro _ | with_reducible apply timeFrameIn_sound | with_reducible apply openFrame_sound | with_reducible apply sendOver_sound | (with_reducible refine pair_sound ‹_ = (_, _)› ?_) | (with_reducible apply sound_intro; dsimp only; with_reducible apply sound_elim) | split

theorem execFrameReceive_sound (port : Port) (frame : Frame) (hop : ℕ) (check : FrameCheck) : Keeps (execFrameReceive port frame hop check) := by
  unfold execFrameReceive
  try dsimp only
  repeat' first | with_reducible assumption | with_reducible apply keeps_onHub | with_reducible intro _ | with_reducible apply whenDo_sound | with_reducible apply spireReceives_sound | with_reducible apply frameReceive_sound | (with_reducible apply sound_intro; dsimp only; with_reducible apply sound_elim) | split

end Sys2Proof.Machine
end

