-- ==== Sys2Proof/Laws/SoundCyclic.lean ====
section
/-! SUPPORT. Every operation of Cyclic.lean keeps a hub sound. -/

set_option linter.unusedTactic false
set_option linter.unreachableTactic false
set_option linter.unusedVariables false

namespace Sys2Proof.Machine

theorem resolveRoute_sound (hd : ℕ) (h : Hub) (hp_h : h.Sound) : (resolveRoute hd h).Sound := by
  unfold resolveRoute
  try dsimp only
  repeat' first | with_reducible assumption | with_reducible intro _ | with_reducible apply takeFree_sound | (with_reducible refine pair_sound ‹_ = (_, _)› ?_) | (with_reducible apply sound_intro; dsimp only; with_reducible apply sound_elim) | split

theorem resolveRoutes_sound (k : ℕ) (h : Hub) (hp_h : h.Sound) : (resolveRoutes k h).Sound := by
  unfold resolveRoutes
  try dsimp only
  repeat' first | with_reducible assumption | with_reducible intro _ | with_reducible apply forEach_sound | with_reducible apply resolveRoute_sound | (with_reducible apply sound_intro; dsimp only; with_reducible apply sound_elim) | split

theorem rebindReceived_sound (code : ℕ) (handle : ℕ) (holder : ℕ) (slot : ℕ) (cycle : ℕ) (h : Hub) (hp_h : h.Sound) : (rebindReceived code handle holder slot cycle h).Sound := by
  unfold rebindReceived
  try dsimp only
  repeat' first | with_reducible assumption | with_reducible intro _ | with_reducible apply resolveRoute_sound | (with_reducible apply sound_intro; dsimp only; with_reducible apply sound_elim) | split

theorem acceptWords_sound (src : ℕ) (first : ℕ) (ws : List Word) (h : Hub) (hp_h : h.Sound) : (acceptWords src first ws h).Sound := by
  unfold acceptWords
  try dsimp only
  repeat' first | with_reducible assumption | with_reducible intro _ | (with_reducible apply sound_intro; dsimp only; with_reducible apply sound_elim) | split

theorem watchdogCause_sound (heard : Bool) (h : Hub) (hp_h : h.Sound) : (watchdogCause heard h).Sound := by
  unfold watchdogCause
  try dsimp only
  repeat' first | with_reducible assumption | with_reducible intro _ | with_reducible apply causeGone_sound | (with_reducible apply sound_intro; dsimp only; with_reducible apply sound_elim) | split

theorem loadMeasured_sound (n : ℕ) (h : Hub) (hp_h : h.Sound) : (loadMeasured n h).Sound := by
  unfold loadMeasured
  try dsimp only
  repeat' first | with_reducible assumption | with_reducible intro _ | with_reducible apply whenDo_sound | with_reducible apply cycEvent_sound | with_reducible apply wrs_sound | (with_reducible apply sound_intro; dsimp only; with_reducible apply sound_elim) | split

theorem tagsMeasured_sound (k : ℕ) (frames : ℕ) (wrong : ℕ) (h : Hub) (hp_h : h.Sound) : (tagsMeasured k frames wrong h).Sound := by
  unfold tagsMeasured
  try dsimp only
  repeat' first | with_reducible assumption | with_reducible intro _ | with_reducible apply whenDo_sound | with_reducible apply cycEvent_sound | (with_reducible apply sound_intro; dsimp only; with_reducible apply sound_elim) | split

theorem windowMeasures_sound (h : Hub) (hp_h : h.Sound) : (windowMeasures h).Sound := by
  unfold windowMeasures
  try dsimp only
  repeat' first | with_reducible assumption | with_reducible intro _ | with_reducible apply tagsMeasured_sound | with_reducible apply loadMeasured_sound | (with_reducible apply sound_intro; dsimp only; with_reducible apply sound_elim) | split

theorem acceptClosed_sound (src : ℕ) (first : ℕ) (ws : List Word) (h : Hub) (hp_h : h.Sound) : (acceptClosed src first ws h).Sound := by
  unfold acceptClosed
  try dsimp only
  repeat' first | with_reducible assumption | with_reducible intro _ | with_reducible apply loadMeasured_sound | (with_reducible apply sound_intro; dsimp only; with_reducible apply sound_elim) | split

theorem contributionOpen_sound (src : ℕ) (tag : ℕ) (first : ℕ) (ws : List Word) (h : Hub) (hp_h : h.Sound) : (contributionOpen src tag first ws h).Sound := by
  unfold contributionOpen
  try dsimp only
  repeat' first | with_reducible assumption | with_reducible intro _ | with_reducible apply bump_sound | with_reducible apply acceptWords_sound | with_reducible apply watchdogCause_sound | (with_reducible apply sound_intro; dsimp only; with_reducible apply sound_elim) | split

theorem contributionClosed_sound (src : ℕ) (tag : ℕ) (first : ℕ) (ws : List Word) (h : Hub) (hp_h : h.Sound) : (contributionClosed src tag first ws h).Sound := by
  unfold contributionClosed
  try dsimp only
  repeat' first | with_reducible assumption | with_reducible intro _ | with_reducible apply bump_sound | with_reducible apply acceptWords_sound | with_reducible apply tagsMeasured_sound | with_reducible apply acceptClosed_sound | with_reducible apply watchdogCause_sound | (with_reducible apply sound_intro; dsimp only; with_reducible apply sound_elim) | split

theorem contributionReceive_sound (src : ℕ) (tag : ℕ) (index : ℕ) (stamp : ℕ) (ws : List Word) (h : Hub) (hp_h : h.Sound) : (contributionReceive src tag index stamp ws h).Sound := by
  unfold contributionReceive
  try dsimp only
  repeat' first | with_reducible assumption | with_reducible intro _ | with_reducible apply bump_sound | with_reducible apply contributionClosed_sound | with_reducible apply contributionOpen_sound | (with_reducible apply sound_intro; dsimp only; with_reducible apply sound_elim) | split

theorem closeWindow_sound (k : ℕ) (h : Hub) (hp_h : h.Sound) : (closeWindow k h).Sound := by
  unfold closeWindow
  try dsimp only
  repeat' first | with_reducible assumption | with_reducible intro _ | with_reducible apply acceptWords_sound | with_reducible apply forEach_sound | with_reducible apply watchdogCause_sound | with_reducible apply windowMeasures_sound | (with_reducible apply sound_intro; dsimp only; with_reducible apply sound_elim) | split

theorem dropSamples_sound (h : Hub) (hp_h : h.Sound) : (dropSamples h).Sound := by
  unfold dropSamples
  try dsimp only
  repeat' first | with_reducible assumption | with_reducible intro _ | (with_reducible apply sound_intro; dsimp only; with_reducible apply sound_elim) | split

theorem captureSlot_sound (slot : ℕ) (d : ObjDef) (h : Hub) (hp_h : h.Sound) : (captureSlot slot d h).Sound := by
  unfold captureSlot
  try dsimp only
  repeat' first | with_reducible assumption | with_reducible intro _ | with_reducible apply setSignal_sound | with_reducible apply valueOver_sound | (with_reducible apply sound_intro; dsimp only; with_reducible apply sound_elim) | split

theorem captureAll_sound (h : Hub) (hp_h : h.Sound) : (captureAll h).Sound := by
  unfold captureAll
  try dsimp only
  repeat' first | with_reducible assumption | with_reducible intro _ | with_reducible apply dropSamples_sound | with_reducible apply captureSlot_sound | with_reducible apply setFuse_sound | with_reducible apply forEach_sound | (with_reducible apply sound_intro; dsimp only; with_reducible apply sound_elim) | split

theorem sendContribution_sound (h : Hub) (hp_h : h.Sound) : (sendContribution h).Sound := by
  unfold sendContribution
  try dsimp only
  repeat' first | with_reducible assumption | with_reducible intro _ | with_reducible apply wr_sound | with_reducible apply forEach_sound | with_reducible apply originate_sound | (with_reducible apply sound_intro; dsimp only; with_reducible apply sound_elim) | split

theorem reflexFailed_sound (hd : ℕ) (status : ℕ) (r : CReq) (h : Hub) (hp_h : h.Sound) : (reflexFailed hd status r h).Sound := by
  unfold reflexFailed
  try dsimp only
  repeat' first | with_reducible assumption | with_reducible intro _ | with_reducible apply whenDo_sound | with_reducible apply writeFailed_sound | with_reducible apply reflexRefused_sound | (with_reducible apply sound_intro; dsimp only; with_reducible apply sound_elim) | split

theorem reflexWrite_sound (hd : ℕ) (out : ℕ) (w : Word) (h : Hub) (hp_h : h.Sound) : (reflexWrite hd out w h).Sound := by
  unfold reflexWrite
  try dsimp only
  repeat' first | with_reducible assumption | with_reducible intro _ | with_reducible apply raiseInjected_sound | with_reducible apply putItem_sound | with_reducible apply reflexFailed_sound | with_reducible apply noteReflexWrite_sound | with_reducible apply performObject_sound | (with_reducible refine pair_sound ‹_ = (_, _)› ?_) | (with_reducible apply sound_intro; dsimp only; with_reducible apply sound_elim) | split

theorem evalReflex_sound (e : ℕ × ℕ × List ℕ) (h : Hub) (hp_h : h.Sound) : (evalReflex e h).Sound := by
  unfold evalReflex
  try dsimp only
  repeat' first | with_reducible assumption | with_reducible intro _ | with_reducible apply whenDo_sound | with_reducible apply bump_sound | with_reducible apply reflexWrite_sound | (with_reducible apply sound_intro; dsimp only; with_reducible apply sound_elim) | split

theorem evalReflexes_sound (h : Hub) (hp_h : h.Sound) : (evalReflexes h).Sound := by
  unfold evalReflexes
  try dsimp only
  repeat' first | with_reducible assumption | with_reducible intro _ | with_reducible apply evalReflex_sound | with_reducible apply forEach_sound | with_reducible apply peak_sound | (with_reducible apply sound_intro; dsimp only; with_reducible apply sound_elim) | split

theorem staleRoutes_sound (h : Hub) (hp_h : h.Sound) : (staleRoutes h).Sound := by
  unfold staleRoutes
  try dsimp only
  repeat' first | with_reducible assumption | with_reducible intro _ | with_reducible apply forEach_sound | (with_reducible apply sound_intro; dsimp only; with_reducible apply sound_elim) | split

theorem startCycle_sound (was : ℕ) (k : ℕ) (start : ℕ) (h : Hub) (hp_h : h.Sound) : (startCycle was k start h).Sound := by
  unfold startCycle
  try dsimp only
  repeat' first | with_reducible assumption | with_reducible intro _ | with_reducible apply whenDo_sound | with_reducible apply staleRoutes_sound | with_reducible apply evalReflexes_sound | with_reducible apply bump_sound | with_reducible apply resolveRoutes_sound | with_reducible apply cycEvent_sound | with_reducible apply abortLate_sound | with_reducible apply leaveDue_sound | with_reducible apply sendContribution_sound | with_reducible apply watchdogCause_sound | with_reducible apply captureAll_sound | with_reducible apply wrs_sound | with_reducible apply closeWindow_sound | (with_reducible apply sound_intro; dsimp only; with_reducible apply sound_elim) | split

theorem nextCycle_sound (start : ℕ) (h : Hub) (hp_h : h.Sound) : (nextCycle start h).Sound := by
  unfold nextCycle
  try dsimp only
  repeat' first | with_reducible assumption | with_reducible intro _ | with_reducible apply startCycle_sound | (with_reducible apply sound_intro; dsimp only; with_reducible apply sound_elim) | split

theorem firstCycle_sound (was : ℕ) (h : Hub) (hp_h : h.Sound) : (firstCycle was h).Sound := by
  unfold firstCycle
  try dsimp only
  repeat' first | with_reducible assumption | with_reducible intro _ | with_reducible apply startCycle_sound | (with_reducible apply sound_intro; dsimp only; with_reducible apply sound_elim) | split

theorem beginCycles_sound (h : Hub) (hp_h : h.Sound) : (beginCycles h).Sound := by
  unfold beginCycles
  try dsimp only
  repeat' first | with_reducible assumption | with_reducible intro _ | with_reducible apply firstCycle_sound | (with_reducible apply sound_intro; dsimp only; with_reducible apply sound_elim) | split

theorem cycleStart_sound (h : Hub) (hp_h : h.Sound) : (cycleStart h).Sound := by
  unfold cycleStart
  try dsimp only
  repeat' first | with_reducible assumption | with_reducible intro _ | with_reducible apply firstCycle_sound | with_reducible apply nextCycle_sound | (with_reducible apply sound_intro; dsimp only; with_reducible apply sound_elim) | split

theorem execCycleStart_sound : Keeps (execCycleStart) := by
  unfold execCycleStart
  try dsimp only
  repeat' first | with_reducible assumption | with_reducible apply keeps_onHub | with_reducible intro _ | with_reducible apply cycleStart_sound | (with_reducible apply sound_intro; dsimp only; with_reducible apply sound_elim) | split

theorem overrun_sound (h : Hub) (hp_h : h.Sound) : (overrun h).Sound := by
  unfold overrun
  try dsimp only
  repeat' first | with_reducible assumption | with_reducible intro _ | with_reducible apply bump_sound | with_reducible apply cycEvent_sound | with_reducible apply nextCycle_sound | (with_reducible apply sound_intro; dsimp only; with_reducible apply sound_elim) | split

theorem execCycleWorkComplete_sound : Keeps (execCycleWorkComplete) := by
  unfold execCycleWorkComplete
  try dsimp only
  repeat' first | with_reducible assumption | with_reducible apply keeps_onHub | with_reducible intro _ | with_reducible apply overrun_sound | (with_reducible apply sound_intro; dsimp only; with_reducible apply sound_elim) | split

theorem iirArrives_sound (n : ℕ) (w : Word) (h : Hub) (hp_h : h.Sound) : (iirArrives n w h).Sound := by
  unfold iirArrives
  try dsimp only
  repeat' first | with_reducible assumption | with_reducible intro _ | with_reducible apply setEngine_sound | (with_reducible apply sound_intro; dsimp only; with_reducible apply sound_elim) | split

theorem iirOutput_sound (program : ℕ) (w : Word) (h : Hub) (hp_h : h.Sound) : (iirOutput program w h).Sound := by
  unfold iirOutput
  try dsimp only
  repeat' first | with_reducible assumption | with_reducible intro _ | with_reducible apply crossWord_sound | with_reducible apply valueOver_sound | with_reducible apply iirArrives_sound | (with_reducible refine pair_sound ‹_ = (_, _)› ?_) | (with_reducible apply sound_intro; dsimp only; with_reducible apply sound_elim) | split

theorem iirPending_sound (h : Hub) (hp_h : h.Sound) : (iirPending h).Sound := by
  unfold iirPending
  try dsimp only
  repeat' first | with_reducible assumption | with_reducible intro _ | with_reducible apply setEngine_sound | with_reducible apply forEach_sound | (with_reducible apply sound_intro; dsimp only; with_reducible apply sound_elim) | split

theorem applyOutput_sound (j : ℕ) (h : Hub) (hp_h : h.Sound) : (applyOutput j h).Sound := by
  unfold applyOutput
  try dsimp only
  repeat' first | with_reducible assumption | with_reducible intro _ | with_reducible apply whenDo_sound | with_reducible apply fuseEval_sound | with_reducible apply bump_sound | with_reducible apply bufOutput_sound | with_reducible apply setRequest_sound | with_reducible apply cycEvent_sound | with_reducible apply iirOutput_sound | with_reducible apply valueOver_sound | (with_reducible apply sound_intro; dsimp only; with_reducible apply sound_elim) | split

theorem releaseOutputs_sound (h : Hub) (hp_h : h.Sound) : (releaseOutputs h).Sound := by
  unfold releaseOutputs
  try dsimp only
  repeat' first | with_reducible assumption | with_reducible intro _ | with_reducible apply fuseEval_sound | with_reducible apply syncPads_sound | with_reducible apply raiseEvent_sound | with_reducible apply wr_sound | with_reducible apply setFuse_sound | with_reducible apply forEach_sound | (with_reducible apply sound_intro; dsimp only; with_reducible apply sound_elim) | split

theorem outputInstant_sound (h : Hub) (hp_h : h.Sound) : (outputInstant h).Sound := by
  unfold outputInstant
  try dsimp only
  repeat' first | with_reducible assumption | with_reducible intro _ | with_reducible apply whenDo_sound | with_reducible apply bump_sound | with_reducible apply releaseOutputs_sound | with_reducible apply forEach_sound | with_reducible apply iirPending_sound | with_reducible apply applyOutput_sound | (with_reducible apply sound_intro; dsimp only; with_reducible apply sound_elim) | split

theorem execOutputInstant_sound : Keeps (execOutputInstant) := by
  unfold execOutputInstant
  try dsimp only
  repeat' first | with_reducible assumption | with_reducible apply keeps_onHub | with_reducible intro _ | with_reducible apply outputInstant_sound | (with_reducible apply sound_intro; dsimp only; with_reducible apply sound_elim) | split

theorem execContributionReceive_sound (src : ℕ) (tag : ℕ) (index : ℕ) (head : ContributionHead) (words : List Word) : Keeps (execContributionReceive src tag index head words) := by
  unfold execContributionReceive
  try dsimp only
  repeat' first | with_reducible assumption | with_reducible apply keeps_onHub | with_reducible intro _ | with_reducible apply contributionReceive_sound | with_reducible apply cycleStart_sound | (with_reducible apply sound_intro; dsimp only; with_reducible apply sound_elim) | split

theorem execRebindNotice_sound (code : ℕ) (handle : ℕ) (holder : ℕ) (slot : ℕ) (cycle : ℕ) : Keeps (execRebindNotice code handle holder slot cycle) := by
  unfold execRebindNotice
  try dsimp only
  repeat' first | with_reducible assumption | with_reducible apply keeps_onHub | with_reducible intro _ | with_reducible apply rebindReceived_sound | (with_reducible apply sound_intro; dsimp only; with_reducible apply sound_elim) | split

theorem execCycleWatchdogExpiry_sound (contributions : Bool) : Keeps (execCycleWatchdogExpiry contributions) := by
  unfold execCycleWatchdogExpiry
  try dsimp only
  repeat' first | with_reducible assumption | with_reducible apply keeps_onHub | with_reducible intro _ | with_reducible apply raiseFault_sound | (with_reducible apply sound_intro; dsimp only; with_reducible apply sound_elim) | split

end Sys2Proof.Machine
end

