-- ==== Sys2Proof/Laws/SoundCan.lean ====
section
/-! SUPPORT. Every operation of Can.lean keeps a hub sound. -/

set_option linter.unusedTactic false
set_option linter.unreachableTactic false
set_option linter.unusedVariables false

namespace Sys2Proof.Machine

theorem attemptFails_sound (c : ℕ) (h : Hub) (hp_h : h.Sound) : (attemptFails c h).Sound := by
  unfold attemptFails
  try dsimp only
  repeat' first | with_reducible assumption | with_reducible intro _ | with_reducible apply whenDo_sound | with_reducible apply bump_sound | with_reducible apply setCan_sound | with_reducible apply writeFields_sound | with_reducible apply fifoRewind_sound | (with_reducible apply sound_intro; dsimp only; with_reducible apply sound_elim) | split

theorem attemptError_sound (c : ℕ) (code : ℕ) (h : Hub) (hp_h : h.Sound) : (attemptError c code h).Sound := by
  unfold attemptError
  try dsimp only
  repeat' first | with_reducible assumption | with_reducible intro _ | with_reducible apply bump_sound | with_reducible apply id_sound | with_reducible apply canCount_sound | with_reducible apply takeFree_sound | with_reducible apply wr_sound | with_reducible apply attemptFails_sound | (with_reducible refine pair_sound ‹_ = (_, _)› ?_) | (with_reducible apply sound_intro; dsimp only; with_reducible apply sound_elim) | split

theorem endByError_sound (c : ℕ) (h : Hub) (hp_h : h.Sound) : (endByError c h).Sound := by
  unfold endByError
  try dsimp only
  repeat' first | with_reducible assumption | with_reducible intro _ | with_reducible apply attemptError_sound | with_reducible apply takeFree_sound | (with_reducible refine pair_sound ‹_ = (_, _)› ?_) | (with_reducible apply sound_intro; dsimp only; with_reducible apply sound_elim) | split

theorem integrate_sound (c : ℕ) (h : Hub) (hp_h : h.Sound) : (integrate c h).Sound := by
  unfold integrate
  try dsimp only
  repeat' first | with_reducible assumption | with_reducible intro _ | with_reducible apply wr_sound | with_reducible apply attemptFails_sound | (with_reducible apply sound_intro; dsimp only; with_reducible apply sound_elim) | split

theorem canSettings_sound (c : ℕ) (sub : ℕ) (v : ℕ) (h : Hub) (hp_h : h.Sound) : (canSettings c sub v h).Sound := by
  unfold canSettings
  try dsimp only
  repeat' first | with_reducible assumption | with_reducible intro _ | with_reducible apply storeEntry_sound | with_reducible apply endByError_sound | with_reducible apply integrate_sound | (with_reducible apply sound_intro; dsimp only; with_reducible apply sound_elim) | split

theorem execCanSettingsWrite_sound (p : Path) (c : Fin 16) (sub : ℕ) (value : ℕ) : Keeps (execCanSettingsWrite p c sub value) := by
  unfold execCanSettingsWrite
  try dsimp only
  repeat' first | with_reducible assumption | with_reducible apply keeps_onHub | with_reducible intro _ | with_reducible apply pathWrite_sound | with_reducible apply canSettings_sound | (with_reducible apply sound_intro; dsimp only; with_reducible apply sound_elim) | split

theorem execTransmitRequest_sound (p : Path) (c : Fin 16) (buf : ℕ) : Keeps (execTransmitRequest p c buf) := by
  unfold execTransmitRequest
  try dsimp only
  repeat' first | with_reducible assumption | with_reducible apply keeps_onHub | with_reducible intro _ | with_reducible apply pathWrite_sound | with_reducible apply bufRequest_sound | (with_reducible apply sound_intro; dsimp only; with_reducible apply sound_elim) | split

theorem bufAbort_sound (c : ℕ) (b : ℕ) (h : Hub) (hp_h : h.Sound) : (bufAbort c b h).Sound := by
  unfold bufAbort
  try dsimp only
  repeat' first | with_reducible assumption | with_reducible intro _ | with_reducible apply setCan_sound | (with_reducible apply sound_intro; dsimp only; with_reducible apply sound_elim) | split

theorem execTransmitAbort_sound (p : Path) (c : Fin 16) (buf : ℕ) : Keeps (execTransmitAbort p c buf) := by
  unfold execTransmitAbort
  try dsimp only
  repeat' first | with_reducible assumption | with_reducible apply keeps_onHub | with_reducible intro _ | with_reducible apply pathWrite_sound | with_reducible apply bufAbort_sound | (with_reducible apply sound_intro; dsimp only; with_reducible apply sound_elim) | split

theorem clearBusOff_sound (c : ℕ) (restart : Bool) (h : Hub) (hp_h : h.Sound) : (clearBusOff c restart h).Sound := by
  unfold clearBusOff
  try dsimp only
  repeat' first | with_reducible assumption | with_reducible intro _ | with_reducible apply setCan_sound | with_reducible apply wr_sound | (with_reducible apply sound_intro; dsimp only; with_reducible apply sound_elim) | split

theorem execBusOffRestart_sound (p : Path) (c : Fin 16) : Keeps (execBusOffRestart p c) := by
  unfold execBusOffRestart
  try dsimp only
  repeat' first | with_reducible assumption | with_reducible apply keeps_onHub | with_reducible intro _ | with_reducible apply clearBusOff_sound | with_reducible apply pathWrite_sound | (with_reducible apply sound_intro; dsimp only; with_reducible apply sound_elim) | split

theorem execClearBusOffRecord_sound (p : Path) (c : Fin 16) : Keeps (execClearBusOffRecord p c) := by
  unfold execClearBusOffRecord
  try dsimp only
  repeat' first | with_reducible assumption | with_reducible apply keeps_onHub | with_reducible intro _ | with_reducible apply clearBusOff_sound | with_reducible apply pathWrite_sound | (with_reducible apply sound_intro; dsimp only; with_reducible apply sound_elim) | split

theorem cleanStream_sound (c : ℕ) (f : ℕ) (y0 : ℕ) (h : Hub) (hp : h.Sound) : (cleanStream c f y0 h).Sound := by
  revert hp
  fun_induction cleanStream c f y0 h <;> intro hp <;> (try dsimp only) <;>
  repeat' first | with_reducible assumption | with_reducible intro _ | with_reducible apply canEvent_sound | with_reducible apply readHead_sound | with_reducible apply bump_sound | with_reducible apply releasePacket_sound | with_reducible apply fifoPoisoned_sound | (with_reducible refine pair_sound ‹_ = (_, _)› ?_) | (with_reducible apply sound_intro; dsimp only; with_reducible apply sound_elim) | (with_reducible apply_assumption) | split

theorem canAttempt_sound (c : ℕ) (h0 : Hub) (hp_h0 : h0.Sound) : (canAttempt c h0).Sound := by
  unfold canAttempt
  try dsimp only
  repeat' first | with_reducible assumption | with_reducible intro _ | with_reducible apply cleanStream_sound | with_reducible apply markAndRead_sound | with_reducible apply setCan_sound | (with_reducible apply sound_intro; dsimp only; with_reducible apply sound_elim) | split

theorem execCanTransmitAttempt_sound (c : Fin 16) : Keeps (execCanTransmitAttempt c) := by
  unfold execCanTransmitAttempt
  try dsimp only
  repeat' first | with_reducible assumption | with_reducible apply keeps_onHub | with_reducible intro _ | with_reducible apply canAttempt_sound | (with_reducible apply sound_intro; dsimp only; with_reducible apply sound_elim) | split

theorem attemptSent_sound (c : ℕ) (h : Hub) (hp_h : h.Sound) : (attemptSent c h).Sound := by
  unfold attemptSent
  try dsimp only
  repeat' first | with_reducible assumption | with_reducible intro _ | with_reducible apply bump_sound | with_reducible apply id_sound | with_reducible apply canCount_sound | with_reducible apply setCan_sound | with_reducible apply bufRequest_sound | with_reducible apply fifoRelease_sound | with_reducible apply wrs_sound | (with_reducible apply sound_intro; dsimp only; with_reducible apply sound_elim) | split

theorem protocolException_sound (c : ℕ) (h : Hub) (hp_h : h.Sound) : (protocolException c h).Sound := by
  unfold protocolException
  try dsimp only
  repeat' first | with_reducible assumption | with_reducible intro _ | with_reducible apply canEvent_sound | with_reducible apply bump_sound | with_reducible apply integrate_sound | (with_reducible apply sound_intro; dsimp only; with_reducible apply sound_elim) | split

theorem loopDelay_sound (c : ℕ) (ns : ℕ) (h : Hub) (hp_h : h.Sound) : (loopDelay c ns h).Sound := by
  unfold loopDelay
  try dsimp only
  repeat' first | with_reducible assumption | with_reducible intro _ | with_reducible apply wr_sound | (with_reducible apply sound_intro; dsimp only; with_reducible apply sound_elim) | split

theorem canEnd_sound (c : ℕ) (result : TxResult) (delay : ℕ) (h : Hub) (hp_h : h.Sound) : (canEnd c result delay h).Sound := by
  unfold canEnd
  try dsimp only
  repeat' first | with_reducible assumption | with_reducible intro _ | with_reducible apply whenDo_sound | with_reducible apply bump_sound | with_reducible apply attemptError_sound | with_reducible apply loopDelay_sound | with_reducible apply takeFree_sound | with_reducible apply attemptFails_sound | with_reducible apply attemptSent_sound | with_reducible apply protocolException_sound | (with_reducible refine pair_sound ‹_ = (_, _)› ?_) | (with_reducible apply sound_intro; dsimp only; with_reducible apply sound_elim) | split

theorem execCanTransmitEnd_sound (c : Fin 16) (result : TxResult) (loopDelayNs : ℕ) : Keeps (execCanTransmitEnd c result loopDelayNs) := by
  unfold execCanTransmitEnd
  try dsimp only
  repeat' first | with_reducible assumption | with_reducible apply keeps_onHub | with_reducible intro _ | with_reducible apply canEnd_sound | (with_reducible apply sound_intro; dsimp only; with_reducible apply sound_elim) | split

theorem execBusOffRecoveryDone_sound (c : Fin 16) : Keeps (execBusOffRecoveryDone c) := by
  unfold execBusOffRecoveryDone
  try dsimp only
  repeat' first | with_reducible assumption | with_reducible apply keeps_onHub | with_reducible intro _ | with_reducible apply canEvent_sound | with_reducible apply wrs_sound | (with_reducible apply sound_intro; dsimp only; with_reducible apply sound_elim) | split

theorem execBusIntegrationDone_sound (c : Fin 16) : Keeps (execBusIntegrationDone c) := by
  unfold execBusIntegrationDone
  try dsimp only
  repeat' first | with_reducible assumption | with_reducible apply keeps_onHub | with_reducible intro _ | with_reducible apply wr_sound | (with_reducible apply sound_intro; dsimp only; with_reducible apply sound_elim) | split

theorem execStuckDominant_sound (c : Fin 16) : Keeps (execStuckDominant c) := by
  unfold execStuckDominant
  try dsimp only
  repeat' first | with_reducible assumption | with_reducible apply keeps_onHub | with_reducible intro _ | with_reducible apply canEvent_sound | with_reducible apply bump_sound | (with_reducible apply sound_intro; dsimp only; with_reducible apply sound_elim) | split

theorem bufReceive_sound (c : ℕ) (b : ℕ) (f : CanFrame) (h : Hub) (hp_h : h.Sound) : (bufReceive c b f h).Sound := by
  unfold bufReceive
  try dsimp only
  repeat' first | with_reducible assumption | with_reducible intro _ | with_reducible apply writeFields_sound | with_reducible apply wrs_sound | (with_reducible apply sound_intro; dsimp only; with_reducible apply sound_elim) | split

theorem filterFrame_sound (c : ℕ) (f : CanFrame) (h : Hub) (hp_h : h.Sound) : (filterFrame c f h).Sound := by
  unfold filterFrame
  try dsimp only
  repeat' first | with_reducible assumption | with_reducible intro _ | with_reducible apply bump_sound | with_reducible apply bufReceive_sound | with_reducible apply fifoPacket_sound | (with_reducible apply sound_intro; dsimp only; with_reducible apply sound_elim) | split

theorem sdoSend_sound (n : ℕ) (bs : List Byte) (h : Hub) (hp_h : h.Sound) : (sdoSend n bs h).Sound := by
  unfold sdoSend
  try dsimp only
  repeat' first | with_reducible assumption | with_reducible intro _ | (with_reducible apply sound_intro; dsimp only; with_reducible apply sound_elim) | split

theorem sdoAbort_sound (n : ℕ) (index : ℕ) (sub : ℕ) (code : ℕ) (h : Hub) (hp_h : h.Sound) : (sdoAbort n index sub code h).Sound := by
  unfold sdoAbort
  try dsimp only
  repeat' first | with_reducible assumption | with_reducible intro _ | with_reducible apply bump_sound | with_reducible apply sdoSend_sound | with_reducible apply answered_sound | (with_reducible apply sound_intro; dsimp only; with_reducible apply sound_elim) | split

theorem sdoArrive_sound (n : ℕ) (bs : List Byte) (h : Hub) (hp_h : h.Sound) : (sdoArrive n bs h).Sound := by
  unfold sdoArrive
  try dsimp only
  repeat' first | with_reducible assumption | with_reducible intro _ | with_reducible apply sdoAbort_sound | (with_reducible apply sound_intro; dsimp only; with_reducible apply sound_elim) | split

theorem routeFrame_sound (c : ℕ) (f : CanFrame) (h : Hub) (hp_h : h.Sound) : (routeFrame c f h).Sound := by
  unfold routeFrame
  try dsimp only
  repeat' first | with_reducible assumption | with_reducible intro _ | with_reducible apply bump_sound | with_reducible apply filterFrame_sound | with_reducible apply sdoArrive_sound | (with_reducible apply sound_intro; dsimp only; with_reducible apply sound_elim) | split

theorem receiveError_sound (c : ℕ) (code : ℕ) (h : Hub) (hp_h : h.Sound) : (receiveError c code h).Sound := by
  unfold receiveError
  try dsimp only
  repeat' first | with_reducible assumption | with_reducible intro _ | with_reducible apply bump_sound | with_reducible apply id_sound | with_reducible apply canCount_sound | with_reducible apply takeFree_sound | with_reducible apply wr_sound | (with_reducible refine pair_sound ‹_ = (_, _)› ?_) | (with_reducible apply sound_intro; dsimp only; with_reducible apply sound_elim) | split

theorem receiveOk_sound (c : ℕ) (f : CanFrame) (h : Hub) (hp_h : h.Sound) : (receiveOk c f h).Sound := by
  unfold receiveOk
  try dsimp only
  repeat' first | with_reducible assumption | with_reducible intro _ | with_reducible apply bump_sound | with_reducible apply id_sound | with_reducible apply canCount_sound | with_reducible apply wakeProductive_sound | with_reducible apply takeFree_sound | with_reducible apply routeFrame_sound | (with_reducible refine pair_sound ‹_ = (_, _)› ?_) | (with_reducible apply sound_intro; dsimp only; with_reducible apply sound_elim) | split

theorem canReceive_sound (c : ℕ) (f : CanFrame) (err : CanError) (h : Hub) (hp_h : h.Sound) : (canReceive c f err h).Sound := by
  unfold canReceive
  try dsimp only
  repeat' first | with_reducible assumption | with_reducible intro _ | with_reducible apply receiveError_sound | with_reducible apply receiveOk_sound | with_reducible apply protocolException_sound | (with_reducible apply sound_intro; dsimp only; with_reducible apply sound_elim) | split

theorem execCanFrameReceive_sound (c : Fin 16) (frame : CanFrame) (err : CanError) : Keeps (execCanFrameReceive c frame err) := by
  unfold execCanFrameReceive
  try dsimp only
  repeat' first | with_reducible assumption | with_reducible apply keeps_onHub | with_reducible intro _ | with_reducible apply canReceive_sound | (with_reducible apply sound_intro; dsimp only; with_reducible apply sound_elim) | split

theorem bufLatch_sound (p : Path) (c : ℕ) (b : ℕ) (h : Hub) (hp_h : h.Sound) : (bufLatch p c b h).Sound := by
  unfold bufLatch
  try dsimp only
  repeat' first | with_reducible assumption | with_reducible intro _ | with_reducible apply setPath_sound | (with_reducible apply sound_intro; dsimp only; with_reducible apply sound_elim) | split

theorem bufUnlatch_sound (p : Path) (c : ℕ) (b : ℕ) (h : Hub) (hp_h : h.Sound) : (bufUnlatch p c b h).Sound := by
  unfold bufUnlatch
  try dsimp only
  repeat' first | with_reducible assumption | with_reducible intro _ | with_reducible apply setPath_sound | (with_reducible apply sound_intro; dsimp only; with_reducible apply sound_elim) | split

theorem execBufferInfoRead_sound (p : Path) (c : Fin 16) (buf : Fin 64) : Keeps (execBufferInfoRead p c buf) := by
  unfold execBufferInfoRead
  try dsimp only
  repeat' first | with_reducible assumption | with_reducible apply keeps_onHub | with_reducible intro _ | with_reducible apply holdAccess_sound | with_reducible apply answered_sound | with_reducible apply readTouch_sound | with_reducible apply bufLatch_sound | with_reducible apply refuse_sound | (with_reducible apply sound_intro; dsimp only; with_reducible apply sound_elim) | split

theorem execHeartbeatSend_sound : Keeps (execHeartbeatSend) := by
  unfold execHeartbeatSend
  try dsimp only
  repeat' first | with_reducible assumption | with_reducible apply keeps_onHub | with_reducible intro _ | (with_reducible apply sound_intro; dsimp only; with_reducible apply sound_elim) | split

theorem setNodeId_sound (v : ℕ) (h : Hub) (hp_h : h.Sound) : (setNodeId v h).Sound := by
  unfold setNodeId
  try dsimp only
  repeat' first | with_reducible assumption | with_reducible intro _ | with_reducible apply nodeIdUpdate_sound | with_reducible apply wr_sound | (with_reducible apply sound_intro; dsimp only; with_reducible apply sound_elim) | split

theorem execNodeIdWrite_sound (p : Path) (value : ℕ) : Keeps (execNodeIdWrite p value) := by
  unfold execNodeIdWrite
  try dsimp only
  repeat' first | with_reducible assumption | with_reducible apply keeps_onHub | with_reducible intro _ | with_reducible apply setNodeId_sound | with_reducible apply pathWrite_sound | (with_reducible apply sound_intro; dsimp only; with_reducible apply sound_elim) | split

theorem processRead_sound (p : Path) (index : ℕ) (sub : ℕ) (h : Hub) (hp_h : h.Sound) : (processRead p index sub h).Sound := by
  unfold processRead
  try dsimp only
  repeat' first | with_reducible assumption | with_reducible intro _ | with_reducible apply answered_sound | with_reducible apply refuse_sound | (with_reducible apply sound_intro; dsimp only; with_reducible apply sound_elim) | split

theorem sendShadow_sound (w : ShadowWrite) (h : Hub) (hp_h : h.Sound) : (sendShadow w h).Sound := by
  unfold sendShadow
  try dsimp only
  repeat' first | with_reducible assumption | with_reducible intro _ | with_reducible apply putItem_sound | (with_reducible apply sound_intro; dsimp only; with_reducible apply sound_elim) | split

theorem enterShadow_sound (w : ShadowWrite) (h : Hub) (hp_h : h.Sound) : (enterShadow w h).Sound := by
  unfold enterShadow
  try dsimp only
  repeat' first | with_reducible assumption | with_reducible intro _ | with_reducible apply sendShadow_sound | (with_reducible apply sound_intro; dsimp only; with_reducible apply sound_elim) | split

theorem processWrite_sound (p : Path) (index : ℕ) (sub : ℕ) (value : ℕ) (h : Hub) (hp_h : h.Sound) : (processWrite p index sub value h).Sound := by
  unfold processWrite
  try dsimp only
  repeat' first | with_reducible assumption | with_reducible intro _ | with_reducible apply enterShadow_sound | (with_reducible apply sound_intro; dsimp only; with_reducible apply sound_elim) | split

theorem sendNextShadow_sound (e : ℕ × ShadowWrite) (h : Hub) (hp_h : h.Sound) : (sendNextShadow e h).Sound := by
  unfold sendNextShadow
  try dsimp only
  repeat' first | with_reducible assumption | with_reducible intro _ | with_reducible apply sendShadow_sound | (with_reducible apply sound_intro; dsimp only; with_reducible apply sound_elim) | split

theorem waitingShadows_sound (h : Hub) (hp_h : h.Sound) : (waitingShadows h).Sound := by
  unfold waitingShadows
  try dsimp only
  repeat' first | with_reducible assumption | with_reducible intro _ | with_reducible apply forEach_sound | with_reducible apply sendNextShadow_sound | (with_reducible apply sound_intro; dsimp only; with_reducible apply sound_elim) | split

theorem execProcessObjectRead_sound (p : Path) (index : ℕ) (sub : ℕ) : Keeps (execProcessObjectRead p index sub) := by
  unfold execProcessObjectRead
  try dsimp only
  repeat' first | with_reducible assumption | with_reducible apply keeps_onHub | with_reducible intro _ | with_reducible apply holdAccess_sound | with_reducible apply answered_sound | with_reducible apply readTouch_sound | with_reducible apply processRead_sound | (with_reducible apply sound_intro; dsimp only; with_reducible apply sound_elim) | split

theorem execProcessObjectWrite_sound (p : Path) (index : ℕ) (sub : ℕ) (value : ℕ) : Keeps (execProcessObjectWrite p index sub value) := by
  unfold execProcessObjectWrite
  try dsimp only
  repeat' first | with_reducible assumption | with_reducible apply keeps_onHub | with_reducible intro _ | with_reducible apply pathWrite_sound | with_reducible apply processWrite_sound | (with_reducible apply sound_intro; dsimp only; with_reducible apply sound_elim) | split

end Sys2Proof.Machine
end

