-- ==== Sys2Proof/Laws/SoundT1s.lean ====
section
/-! SUPPORT. Every operation of T1s.lean keeps a hub sound. -/

set_option linter.unusedTactic false
set_option linter.unreachableTactic false
set_option linter.unusedVariables false

namespace Sys2Proof.Machine

theorem t1sEvent_sound (e : ℕ) (p : ℕ) (cause : ℕ) (h : Hub) (hp_h : h.Sound) : (t1sEvent e p cause h).Sound := by
  unfold t1sEvent
  try dsimp only
  repeat' first | with_reducible assumption | with_reducible intro _ | with_reducible apply raise16ms_sound | (with_reducible apply sound_intro; dsimp only; with_reducible apply sound_elim) | split

theorem t1sActive_sound (p : ℕ) (h : Hub) (hp_h : h.Sound) : (t1sActive p h).Sound := by
  unfold t1sActive
  try dsimp only
  repeat' first | with_reducible assumption | with_reducible intro _ | (with_reducible apply sound_intro; dsimp only; with_reducible apply sound_elim) | split

theorem ringStops_sound (p : ℕ) (tx : Bool) (h : Hub) (hp_h : h.Sound) : (ringStops p tx h).Sound := by
  unfold ringStops
  try dsimp only
  repeat' first | with_reducible assumption | with_reducible intro _ | with_reducible apply t1sEvent_sound | with_reducible apply setT1s_sound | (with_reducible apply sound_intro; dsimp only; with_reducible apply sound_elim) | split

theorem writeBack_sound (p : ℕ) (tx : Bool) (at_ : ℕ) (n : ℕ) (i : ℕ) (status : ℕ) (more : ℕ) (len : ℕ) (stamp : ℕ) (h : Hub) (hp_h : h.Sound) : (writeBack p tx at_ n i status more len stamp h).Sound := by
  unfold writeBack
  try dsimp only
  repeat' first | with_reducible assumption | with_reducible intro _ | with_reducible apply bump_sound | with_reducible apply writeWord_sound | with_reducible apply raiseEvent_sound | with_reducible apply wr_sound | with_reducible apply setT1s_sound | (with_reducible apply sound_intro; dsimp only; with_reducible apply sound_elim) | split

theorem ringReceive_sound (p : ℕ) (matched : ℕ) (bytes : List Byte) (sfd : ℕ) (h : Hub) (hp_h : h.Sound) : (ringReceive p matched bytes sfd h).Sound := by
  unfold ringReceive
  try dsimp only
  repeat' first | with_reducible assumption | with_reducible intro _ | with_reducible apply bump_sound | with_reducible apply ringStops_sound | with_reducible apply writeWords_sound | with_reducible apply writeBack_sound | with_reducible apply setT1s_sound | (with_reducible apply sound_intro; dsimp only; with_reducible apply sound_elim) | split

theorem cyclicCapture_sound (p : ℕ) (bs : List Byte) (ks : List ℕ) (h : Hub) (hp_h : h.Sound) : (cyclicCapture p bs ks h).Sound := by
  unfold cyclicCapture
  try dsimp only
  repeat' first | with_reducible assumption | with_reducible intro _ | with_reducible apply bump_sound | with_reducible apply setT1s_sound | with_reducible apply forEach_sound | (with_reducible apply sound_intro; dsimp only; with_reducible apply sound_elim) | split

theorem t1sReceive_sound (p : ℕ) (bs : List Byte) (fcsOk : Bool) (sfd : ℕ) (h0 : Hub) (hp_h0 : h0.Sound) : (t1sReceive p bs fcsOk sfd h0).Sound := by
  unfold t1sReceive
  try dsimp only
  repeat' first | with_reducible assumption | with_reducible intro _ | with_reducible apply bump_sound | with_reducible apply t1sActive_sound | with_reducible apply wakeProductive_sound | with_reducible apply cyclicCapture_sound | with_reducible apply fifoPacket_sound | with_reducible apply ringReceive_sound | (with_reducible apply sound_intro; dsimp only; with_reducible apply sound_elim) | split

theorem execT1sFrameReceive_sound (p : Fin 4) (bytes : List Byte) (fcsOk : Bool) (sfdNs : ℕ) : Keeps (execT1sFrameReceive p bytes fcsOk sfdNs) := by
  unfold execT1sFrameReceive
  try dsimp only
  repeat' first | with_reducible assumption | with_reducible apply keeps_onHub | with_reducible intro _ | with_reducible apply t1sReceive_sound | (with_reducible apply sound_intro; dsimp only; with_reducible apply sound_elim) | split

theorem cleanT1s_sound (p : ℕ) (f : ℕ) (y0 : ℕ) (h : Hub) (hp : h.Sound) : (cleanT1s p f y0 h).Sound := by
  revert hp
  fun_induction cleanT1s p f y0 h <;> intro hp <;> (try dsimp only) <;>
  repeat' first | with_reducible assumption | with_reducible intro _ | with_reducible apply readHead_sound | with_reducible apply bump_sound | with_reducible apply releasePacket_sound | with_reducible apply t1sEvent_sound | with_reducible apply fifoPoisoned_sound | (with_reducible refine pair_sound ‹_ = (_, _)› ?_) | (with_reducible apply sound_intro; dsimp only; with_reducible apply sound_elim) | (with_reducible apply_assumption) | split

theorem t1sHold_sound (p : ℕ) (bs : List Byte) (ring : Option (ℕ × ℕ × ℕ)) (h : Hub) (hp_h : h.Sound) : (t1sHold p bs ring h).Sound := by
  unfold t1sHold
  try dsimp only
  repeat' first | with_reducible assumption | with_reducible intro _ | with_reducible apply setT1s_sound | (with_reducible apply sound_intro; dsimp only; with_reducible apply sound_elim) | split

theorem stageDescriptor_sound (p : ℕ) (d : ℕ) (i : ℕ) (n : ℕ) (base : ℕ) (len : ℕ) (h : Hub) (hp_h : h.Sound) : (stageDescriptor p d i n base len h).Sound := by
  unfold stageDescriptor
  try dsimp only
  repeat' first | with_reducible assumption | with_reducible intro _ | with_reducible apply t1sHold_sound | with_reducible apply takeFree_sound | with_reducible apply writeBack_sound | with_reducible apply setT1s_sound | (with_reducible refine pair_sound ‹_ = (_, _)› ?_) | (with_reducible apply sound_intro; dsimp only; with_reducible apply sound_elim) | split

theorem stagePacket_sound (p : ℕ) (f : ℕ) (q : List Byte × ℕ) (h : Hub) (hp_h : h.Sound) : (stagePacket p f q h).Sound := by
  unfold stagePacket
  try dsimp only
  repeat' first | with_reducible assumption | with_reducible intro _ | with_reducible apply t1sHold_sound | with_reducible apply markAndRead_sound | with_reducible apply setT1s_sound | (with_reducible apply sound_intro; dsimp only; with_reducible apply sound_elim) | split

theorem t1sStage_sound (p : ℕ) (h0 : Hub) (hp_h0 : h0.Sound) : (t1sStage p h0).Sound := by
  unfold t1sStage
  try dsimp only
  repeat' first | with_reducible assumption | with_reducible intro _ | with_reducible apply ringStops_sound | with_reducible apply cleanT1s_sound | with_reducible apply stageDescriptor_sound | with_reducible apply setT1s_sound | with_reducible apply stagePacket_sound | (with_reducible apply sound_intro; dsimp only; with_reducible apply sound_elim) | split

theorem plcaAfresh_sound (p : ℕ) (h : Hub) (hp_h : h.Sound) : (plcaAfresh p h).Sound := by
  unfold plcaAfresh
  try dsimp only
  repeat' first | with_reducible assumption | with_reducible intro _ | with_reducible apply setT1s_sound | (with_reducible apply sound_intro; dsimp only; with_reducible apply sound_elim) | split

theorem settingsAct_sound (p : ℕ) (h : Hub) (hp_h : h.Sound) : (settingsAct p h).Sound := by
  unfold settingsAct
  try dsimp only
  repeat' first | with_reducible assumption | with_reducible intro _ | with_reducible apply whenDo_sound | with_reducible apply plcaAfresh_sound | with_reducible apply setT1s_sound | (with_reducible apply sound_intro; dsimp only; with_reducible apply sound_elim) | split

theorem t1sGiveBack_sound (p : ℕ) (status : ℕ) (x : T1sPort) (h : Hub) (hp_h : h.Sound) : (t1sGiveBack p status x h).Sound := by
  unfold t1sGiveBack
  try dsimp only
  repeat' first | with_reducible assumption | with_reducible intro _ | with_reducible apply ringStops_sound | with_reducible apply writeBack_sound | with_reducible apply fifoRelease_sound | (with_reducible apply sound_intro; dsimp only; with_reducible apply sound_elim) | split

theorem t1sEnd_sound (p : ℕ) (status : ℕ) (h : Hub) (hp_h : h.Sound) : (t1sEnd p status h).Sound := by
  unfold t1sEnd
  try dsimp only
  repeat' first | with_reducible assumption | with_reducible intro _ | with_reducible apply setT1s_sound | with_reducible apply settingsAct_sound | with_reducible apply t1sGiveBack_sound | (with_reducible apply sound_intro; dsimp only; with_reducible apply sound_elim) | split

theorem execT1sTransmitAttempt_sound (p : Fin 4) (mediumFree : Bool) : Keeps (execT1sTransmitAttempt p mediumFree) := by
  unfold execT1sTransmitAttempt
  try dsimp only
  repeat' first | with_reducible assumption | with_reducible apply keeps_onHub | with_reducible intro _ | with_reducible apply setT1s_sound | with_reducible apply t1sStage_sound | (with_reducible apply sound_intro; dsimp only; with_reducible apply sound_elim) | split

theorem t1sCollision_sound (p : ℕ) (late : Bool) (h : Hub) (hp_h : h.Sound) : (t1sCollision p late h).Sound := by
  unfold t1sCollision
  try dsimp only
  repeat' first | with_reducible assumption | with_reducible intro _ | with_reducible apply bump_sound | with_reducible apply t1sEvent_sound | with_reducible apply takeFree_sound | with_reducible apply setT1s_sound | with_reducible apply settingsAct_sound | with_reducible apply fifoRewind_sound | with_reducible apply t1sEnd_sound | (with_reducible refine pair_sound ‹_ = (_, _)› ?_) | (with_reducible apply sound_intro; dsimp only; with_reducible apply sound_elim) | split

theorem execT1sCollision_sound (p : Fin 4) (late : Bool) : Keeps (execT1sCollision p late) := by
  unfold execT1sCollision
  try dsimp only
  repeat' first | with_reducible assumption | with_reducible apply keeps_onHub | with_reducible intro _ | with_reducible apply t1sCollision_sound | (with_reducible apply sound_intro; dsimp only; with_reducible apply sound_elim) | split

theorem rereadPacket_sound (p : ℕ) (h : Hub) (hp_h : h.Sound) : (rereadPacket p h).Sound := by
  unfold rereadPacket
  try dsimp only
  repeat' first | with_reducible assumption | with_reducible intro _ | with_reducible apply markAndRead_sound | (with_reducible apply sound_intro; dsimp only; with_reducible apply sound_elim) | split

theorem execBackoffExpiry_sound (p : Fin 4) : Keeps (execBackoffExpiry p) := by
  unfold execBackoffExpiry
  try dsimp only
  repeat' first | with_reducible assumption | with_reducible apply keeps_onHub | with_reducible intro _ | with_reducible apply rereadPacket_sound | with_reducible apply setT1s_sound | (with_reducible apply sound_intro; dsimp only; with_reducible apply sound_elim) | split

theorem opportunityPasses_sound (p : ℕ) (h : Hub) (hp_h : h.Sound) : (opportunityPasses p h).Sound := by
  unfold opportunityPasses
  try dsimp only
  repeat' first | with_reducible assumption | with_reducible intro _ | with_reducible apply setT1s_sound | (with_reducible apply sound_intro; dsimp only; with_reducible apply sound_elim) | split

theorem execT1sTransmitDone_sound (p : Fin 4) : Keeps (execT1sTransmitDone p) := by
  unfold execT1sTransmitDone
  try dsimp only
  repeat' first | with_reducible assumption | with_reducible apply keeps_onHub | with_reducible intro _ | with_reducible apply bump_sound | with_reducible apply t1sActive_sound | with_reducible apply opportunityPasses_sound | with_reducible apply setT1s_sound | with_reducible apply t1sEnd_sound | (with_reducible apply sound_intro; dsimp only; with_reducible apply sound_elim) | split

theorem ringDoorbell_sound (p : ℕ) (h : Hub) (hp_h : h.Sound) : (ringDoorbell p h).Sound := by
  unfold ringDoorbell
  try dsimp only
  repeat' first | with_reducible assumption | with_reducible intro _ | with_reducible apply setT1s_sound | with_reducible apply t1sStage_sound | (with_reducible apply sound_intro; dsimp only; with_reducible apply sound_elim) | split

theorem execTransmitDoorbell_sound (path : Path) (p : Fin 4) (value : ℕ) : Keeps (execTransmitDoorbell path p value) := by
  unfold execTransmitDoorbell
  try dsimp only
  repeat' first | with_reducible assumption | with_reducible apply keeps_onHub | with_reducible intro _ | with_reducible apply pathWrite_sound | with_reducible apply ringDoorbell_sound | (with_reducible apply sound_intro; dsimp only; with_reducible apply sound_elim) | split

theorem execPollInterval_sound (p : Fin 4) : Keeps (execPollInterval p) := by
  unfold execPollInterval
  try dsimp only
  repeat' first | with_reducible assumption | with_reducible apply keeps_onHub | with_reducible intro _ | with_reducible apply ringDoorbell_sound | (with_reducible apply sound_intro; dsimp only; with_reducible apply sound_elim) | split

theorem plcaWritten_sound (p : ℕ) (h : Hub) (hp_h : h.Sound) : (plcaWritten p h).Sound := by
  unfold plcaWritten
  try dsimp only
  repeat' first | with_reducible assumption | with_reducible intro _ | with_reducible apply whenDo_sound | with_reducible apply plcaAfresh_sound | (with_reducible apply sound_intro; dsimp only; with_reducible apply sound_elim) | split

theorem execBeacon_sound (p : Fin 4) : Keeps (execBeacon p) := by
  unfold execBeacon
  try dsimp only
  repeat' first | with_reducible assumption | with_reducible apply keeps_onHub | with_reducible intro _ | with_reducible apply whenDo_sound | with_reducible apply bump_sound | with_reducible apply t1sEvent_sound | with_reducible apply setT1s_sound | (with_reducible apply sound_intro; dsimp only; with_reducible apply sound_elim) | split

theorem execBeaconSend_sound (p : Fin 4) : Keeps (execBeaconSend p) := by
  unfold execBeaconSend
  try dsimp only
  repeat' first | with_reducible assumption | with_reducible apply keeps_onHub | with_reducible intro _ | with_reducible apply setT1s_sound | (with_reducible apply sound_intro; dsimp only; with_reducible apply sound_elim) | split

theorem execToTimerExpiry_sound (p : Fin 4) : Keeps (execToTimerExpiry p) := by
  unfold execToTimerExpiry
  try dsimp only
  repeat' first | with_reducible assumption | with_reducible apply keeps_onHub | with_reducible intro _ | with_reducible apply opportunityPasses_sound | (with_reducible apply sound_intro; dsimp only; with_reducible apply sound_elim) | split

theorem execPlcaBeaconTimeout_sound (p : Fin 4) : Keeps (execPlcaBeaconTimeout p) := by
  unfold execPlcaBeaconTimeout
  try dsimp only
  repeat' first | with_reducible assumption | with_reducible apply keeps_onHub | with_reducible intro _ | with_reducible apply bump_sound | with_reducible apply t1sEvent_sound | with_reducible apply setT1s_sound | (with_reducible apply sound_intro; dsimp only; with_reducible apply sound_elim) | split

end Sys2Proof.Machine
end

