-- ==== Sys2Proof/Laws/SoundSleep.lean ====
section
/-! SUPPORT. Every operation of Sleep.lean keeps a hub sound. -/

set_option linter.unusedTactic false
set_option linter.unreachableTactic false
set_option linter.unusedVariables false

namespace Sys2Proof.Machine

theorem sampleWakeIn_sound (levels : ℕ) (h : Hub) (hp_h : h.Sound) : (sampleWakeIn levels h).Sound := by
  unfold sampleWakeIn
  try dsimp only
  repeat' first | with_reducible assumption | with_reducible intro _ | (with_reducible apply sound_intro; dsimp only; with_reducible apply sound_elim) | split

theorem roundFrame_sound (sub : ℕ) (origin : ℕ) (round : ℕ) (reasons : ℕ) (more : List Word) (h : Hub) (hp_h : h.Sound) : (roundFrame sub origin round reasons more h).Sound := by
  unfold roundFrame
  try dsimp only
  repeat' first | with_reducible assumption | with_reducible intro _ | with_reducible apply originate_sound | (with_reducible apply sound_intro; dsimp only; with_reducible apply sound_elim) | split

theorem mapSpans_sound (origin : ℕ) (hub : ℕ) (f : Span → Span) (h : Hub) (hp_h : h.Sound) : (mapSpans origin hub f h).Sound := by
  unfold mapSpans
  try dsimp only
  repeat' first | with_reducible assumption | with_reducible intro _ | (with_reducible apply sound_intro; dsimp only; with_reducible apply sound_elim) | split

theorem noteRefusal_sound (origin : ℕ) (hub : ℕ) (reasons : ℕ) (h : Hub) (hp_h : h.Sound) : (noteRefusal origin hub reasons h).Sound := by
  unfold noteRefusal
  try dsimp only
  repeat' first | with_reducible assumption | with_reducible intro _ | with_reducible apply mapSpans_sound | (with_reducible apply sound_intro; dsimp only; with_reducible apply sound_elim) | split

theorem noteConsent_sound (origin : ℕ) (hub : ℕ) (h : Hub) (hp_h : h.Sound) : (noteConsent origin hub h).Sound := by
  unfold noteConsent
  try dsimp only
  repeat' first | with_reducible assumption | with_reducible intro _ | with_reducible apply mapSpans_sound | (with_reducible apply sound_intro; dsimp only; with_reducible apply sound_elim) | split

theorem culpritEntry_sound (hub : ℕ) (origin : ℕ) (reasons : ℕ) (spanMs : ℕ) (h : Hub) (hp_h : h.Sound) : (culpritEntry hub origin reasons spanMs h).Sound := by
  unfold culpritEntry
  try dsimp only
  repeat' first | with_reducible assumption | with_reducible intro _ | with_reducible apply raiseEvent_sound | with_reducible apply pushLog_sound | (with_reducible apply sound_intro; dsimp only; with_reducible apply sound_elim) | split

theorem beginAttempt_sound (origin : ℕ) (h : Hub) (hp_h : h.Sound) : (beginAttempt origin h).Sound := by
  unfold beginAttempt
  try dsimp only
  repeat' first | with_reducible assumption | with_reducible intro _ | (with_reducible apply sound_intro; dsimp only; with_reducible apply sound_elim) | split

theorem endAttempt_sound (origin : ℕ) (h : Hub) (hp_h : h.Sound) : (endAttempt origin h).Sound := by
  unfold endAttempt
  try dsimp only
  repeat' first | with_reducible assumption | with_reducible intro _ | with_reducible apply culpritEntry_sound | (with_reducible apply sound_intro; dsimp only; with_reducible apply sound_elim) | split

theorem abortAttempt_sound (origin : ℕ) (hub : ℕ) (reasons : ℕ) (h : Hub) (hp_h : h.Sound) : (abortAttempt origin hub reasons h).Sound := by
  unfold abortAttempt
  try dsimp only
  repeat' first | with_reducible assumption | with_reducible intro _ | with_reducible apply endAttempt_sound | with_reducible apply culpritEntry_sound | (with_reducible apply sound_intro; dsimp only; with_reducible apply sound_elim) | split

theorem sleepRequestWritten_sound (h : Hub) (hp_h : h.Sound) : (sleepRequestWritten h).Sound := by
  unfold sleepRequestWritten
  try dsimp only
  repeat' first | with_reducible assumption | with_reducible intro _ | with_reducible apply endAttempt_sound | (with_reducible apply sound_intro; dsimp only; with_reducible apply sound_elim) | split

theorem enterCommitted_sound (origin : ℕ) (round : ℕ) (tn : ℕ) (h : Hub) (hp_h : h.Sound) : (enterCommitted origin round tn h).Sound := by
  unfold enterCommitted
  try dsimp only
  repeat' first | with_reducible assumption | with_reducible intro _ | with_reducible apply whenDo_sound | with_reducible apply raiseEvent_sound | with_reducible apply wrs_sound | (with_reducible apply sound_intro; dsimp only; with_reducible apply sound_elim) | split

theorem commitFrame_sound (h : Hub) (hp_h : h.Sound) : (commitFrame h).Sound := by
  unfold commitFrame
  try dsimp only
  repeat' first | with_reducible assumption | with_reducible intro _ | with_reducible apply roundFrame_sound | (with_reducible apply sound_intro; dsimp only; with_reducible apply sound_elim) | split

theorem tryCommit_sound (h : Hub) (hp_h : h.Sound) : (tryCommit h).Sound := by
  unfold tryCommit
  try dsimp only
  repeat' first | with_reducible assumption | with_reducible intro _ | with_reducible apply commitFrame_sound | with_reducible apply enterCommitted_sound | (with_reducible apply sound_intro; dsimp only; with_reducible apply sound_elim) | split

theorem sendPropose_sound (wakeIn : ℕ) (h0 : Hub) (hp_h0 : h0.Sound) : (sendPropose wakeIn h0).Sound := by
  unfold sendPropose
  try dsimp only
  repeat' first | with_reducible assumption | with_reducible intro _ | with_reducible apply bump_sound | with_reducible apply beginAttempt_sound | with_reducible apply sampleWakeIn_sound | with_reducible apply tryCommit_sound | with_reducible apply roundFrame_sound | with_reducible apply wrs_sound | (with_reducible apply sound_intro; dsimp only; with_reducible apply sound_elim) | split

theorem execSleepPropose_sound (wakeIn : ℕ) : Keeps (execSleepPropose wakeIn) := by
  unfold execSleepPropose
  try dsimp only
  repeat' first | with_reducible assumption | with_reducible apply keeps_onHub | with_reducible intro _ | with_reducible apply sendPropose_sound | (with_reducible apply sound_intro; dsimp only; with_reducible apply sound_elim) | split

theorem execSleepRetry_sound (wakeIn : ℕ) : Keeps (execSleepRetry wakeIn) := by
  unfold execSleepRetry
  try dsimp only
  repeat' first | with_reducible assumption | with_reducible apply keeps_onHub | with_reducible intro _ | with_reducible apply sendPropose_sound | (with_reducible apply sound_intro; dsimp only; with_reducible apply sound_elim) | split

theorem answerPropose_sound (origin : ℕ) (round : ℕ) (h : Hub) (hp_h : h.Sound) : (answerPropose origin round h).Sound := by
  unfold answerPropose
  try dsimp only
  repeat' first | with_reducible assumption | with_reducible intro _ | with_reducible apply beginAttempt_sound | with_reducible apply noteRefusal_sound | with_reducible apply noteConsent_sound | with_reducible apply roundFrame_sound | with_reducible apply wrs_sound | (with_reducible apply sound_intro; dsimp only; with_reducible apply sound_elim) | split

theorem propose_sound (origin : ℕ) (round : ℕ) (wakeIn : ℕ) (h0 : Hub) (hp_h0 : h0.Sound) : (propose origin round wakeIn h0).Sound := by
  unfold propose
  try dsimp only
  repeat' first | with_reducible assumption | with_reducible intro _ | with_reducible apply answerPropose_sound | with_reducible apply sampleWakeIn_sound | (with_reducible apply sound_intro; dsimp only; with_reducible apply sound_elim) | split

theorem execPropose_sound (origin : ℕ) (round : ℕ) (y0 : ℕ) (wakeIn : ℕ) : Keeps (execPropose origin round y0 wakeIn) := by
  unfold execPropose
  try dsimp only
  repeat' first | with_reducible assumption | with_reducible apply keeps_onHub | with_reducible intro _ | with_reducible apply propose_sound | (with_reducible apply sound_intro; dsimp only; with_reducible apply sound_elim) | split

theorem consent_sound (src : ℕ) (origin : ℕ) (round : ℕ) (h : Hub) (hp_h : h.Sound) : (consent src origin round h).Sound := by
  unfold consent
  try dsimp only
  repeat' first | with_reducible assumption | with_reducible intro _ | with_reducible apply noteConsent_sound | with_reducible apply tryCommit_sound | (with_reducible apply sound_intro; dsimp only; with_reducible apply sound_elim) | split

theorem execConsent_sound (src : ℕ) (origin : ℕ) (round : ℕ) : Keeps (execConsent src origin round) := by
  unfold execConsent
  try dsimp only
  repeat' first | with_reducible assumption | with_reducible apply keeps_onHub | with_reducible intro _ | with_reducible apply consent_sound | (with_reducible apply sound_intro; dsimp only; with_reducible apply sound_elim) | split

theorem roundFails_sound (h : Hub) (hp_h : h.Sound) : (roundFails h).Sound := by
  unfold roundFails
  try dsimp only
  repeat' first | with_reducible assumption | with_reducible intro _ | with_reducible apply bump_sound | with_reducible apply raiseEvent_sound | with_reducible apply wr_sound | (with_reducible apply sound_intro; dsimp only; with_reducible apply sound_elim) | split

theorem refuseReceived_sound (src : ℕ) (origin : ℕ) (round : ℕ) (reasons : ℕ) (h : Hub) (hp_h : h.Sound) : (refuseReceived src origin round reasons h).Sound := by
  unfold refuseReceived
  try dsimp only
  repeat' first | with_reducible assumption | with_reducible intro _ | with_reducible apply roundFails_sound | with_reducible apply noteRefusal_sound | (with_reducible apply sound_intro; dsimp only; with_reducible apply sound_elim) | split

theorem execRefuse_sound (src : ℕ) (origin : ℕ) (round : ℕ) (reasons : ℕ) : Keeps (execRefuse src origin round reasons) := by
  unfold execRefuse
  try dsimp only
  repeat' first | with_reducible assumption | with_reducible apply keeps_onHub | with_reducible intro _ | with_reducible apply refuseReceived_sound | (with_reducible apply sound_intro; dsimp only; with_reducible apply sound_elim) | split

theorem execSleepRoundTimeout_sound : Keeps (execSleepRoundTimeout) := by
  unfold execSleepRoundTimeout
  try dsimp only
  repeat' first | with_reducible assumption | with_reducible apply keeps_onHub | with_reducible intro _ | with_reducible apply roundFails_sound | (with_reducible apply sound_intro; dsimp only; with_reducible apply sound_elim) | split

theorem execCommitResend_sound : Keeps (execCommitResend) := by
  unfold execCommitResend
  try dsimp only
  repeat' first | with_reducible assumption | with_reducible apply keeps_onHub | with_reducible intro _ | with_reducible apply commitFrame_sound | (with_reducible apply sound_intro; dsimp only; with_reducible apply sound_elim) | split

theorem releasePorts_sound (h : Hub) (hp_h : h.Sound) : (releasePorts h).Sound := by
  unfold releasePorts
  try dsimp only
  repeat' first | with_reducible assumption | with_reducible intro _ | with_reducible apply drainPorts_sound | (with_reducible apply sound_intro; dsimp only; with_reducible apply sound_elim) | split

theorem abortRound_sound (hub : ℕ) (reasons : ℕ) (h : Hub) (hp_h : h.Sound) : (abortRound hub reasons h).Sound := by
  unfold abortRound
  try dsimp only
  repeat' first | with_reducible assumption | with_reducible intro _ | with_reducible apply bump_sound | with_reducible apply abortAttempt_sound | with_reducible apply raiseEvent_sound | with_reducible apply releasePorts_sound | with_reducible apply wr_sound | (with_reducible apply sound_intro; dsimp only; with_reducible apply sound_elim) | split

theorem abortReceived_sound (src : ℕ) (origin : ℕ) (round : ℕ) (reasons : ℕ) (h : Hub) (hp_h : h.Sound) : (abortReceived src origin round reasons h).Sound := by
  unfold abortReceived
  try dsimp only
  repeat' first | with_reducible assumption | with_reducible intro _ | with_reducible apply abortAttempt_sound | with_reducible apply abortRound_sound | with_reducible apply wr_sound | (with_reducible apply sound_intro; dsimp only; with_reducible apply sound_elim) | split

theorem execAbort_sound (src : ℕ) (origin : ℕ) (round : ℕ) (reasons : ℕ) : Keeps (execAbort src origin round reasons) := by
  unfold execAbort
  try dsimp only
  repeat' first | with_reducible assumption | with_reducible apply keeps_onHub | with_reducible intro _ | with_reducible apply abortReceived_sound | (with_reducible apply sound_intro; dsimp only; with_reducible apply sound_elim) | split

theorem abortFor_sound (r : ℕ) (h : Hub) (hp_h : h.Sound) : (abortFor r h).Sound := by
  unfold abortFor
  try dsimp only
  repeat' first | with_reducible assumption | with_reducible intro _ | with_reducible apply abortRound_sound | with_reducible apply roundFrame_sound | (with_reducible apply sound_intro; dsimp only; with_reducible apply sound_elim) | split

theorem sleepAbort_sound (reasons : ℕ) (h : Hub) (hp_h : h.Sound) : (sleepAbort reasons h).Sound := by
  unfold sleepAbort
  try dsimp only
  repeat' first | with_reducible assumption | with_reducible intro _ | with_reducible apply abortFor_sound | (with_reducible apply sound_intro; dsimp only; with_reducible apply sound_elim) | split

theorem execSleepAbort_sound (reasons : ℕ) : Keeps (execSleepAbort reasons) := by
  unfold execSleepAbort
  try dsimp only
  repeat' first | with_reducible assumption | with_reducible apply keeps_onHub | with_reducible intro _ | with_reducible apply sleepAbort_sound | (with_reducible apply sound_intro; dsimp only; with_reducible apply sound_elim) | split

theorem commitReceived_sound (origin : ℕ) (round : ℕ) (tn : ℕ) (h : Hub) (hp_h : h.Sound) : (commitReceived origin round tn h).Sound := by
  unfold commitReceived
  try dsimp only
  repeat' first | with_reducible assumption | with_reducible intro _ | with_reducible apply abortAttempt_sound | with_reducible apply sleepAbort_sound | with_reducible apply enterCommitted_sound | with_reducible apply roundFrame_sound | (with_reducible apply sound_intro; dsimp only; with_reducible apply sound_elim) | split

theorem execCommit_sound (origin : ℕ) (round : ℕ) (tnNs : ℕ) : Keeps (execCommit origin round tnNs) := by
  unfold execCommit
  try dsimp only
  repeat' first | with_reducible assumption | with_reducible apply keeps_onHub | with_reducible intro _ | with_reducible apply commitReceived_sound | (with_reducible apply sound_intro; dsimp only; with_reducible apply sound_elim) | split

theorem execDrainTimeStart_sound : Keeps (execDrainTimeStart) := by
  unfold execDrainTimeStart
  try dsimp only
  repeat' first | with_reducible assumption | with_reducible apply keeps_onHub | with_reducible intro _ | (with_reducible apply sound_intro; dsimp only; with_reducible apply sound_elim) | split

theorem execAbortMarginStart_sound : Keeps (execAbortMarginStart) := by
  unfold execAbortMarginStart
  try dsimp only
  repeat' first | with_reducible assumption | with_reducible apply keeps_onHub | with_reducible intro _ | with_reducible apply wr_sound | (with_reducible apply sound_intro; dsimp only; with_reducible apply sound_elim) | split

theorem wakeRecord_sound (j : ℕ) (late : Bool) (h : Hub) (hp_h : h.Sound) : (wakeRecord j late h).Sound := by
  unfold wakeRecord
  try dsimp only
  repeat' first | with_reducible assumption | with_reducible intro _ | with_reducible apply wrStamp_sound | with_reducible apply raiseEvent_sound | with_reducible apply wr_sound | (with_reducible apply sound_intro; dsimp only; with_reducible apply sound_elim) | split

theorem startWake_sound (h : Hub) (hp_h : h.Sound) : (startWake h).Sound := by
  unfold startWake
  try dsimp only
  repeat' first | with_reducible assumption | with_reducible intro _ | (with_reducible apply sound_intro; dsimp only; with_reducible apply sound_elim) | split

theorem latchWake_sound (j : ℕ) (h : Hub) (hp_h : h.Sound) : (latchWake j h).Sound := by
  unfold latchWake
  try dsimp only
  repeat' first | with_reducible assumption | with_reducible intro _ | with_reducible apply wakeRecord_sound | (with_reducible apply sound_intro; dsimp only; with_reducible apply sound_elim) | split

theorem wakeToRun_sound (j : ℕ) (h : Hub) (hp_h : h.Sound) : (wakeToRun j h).Sound := by
  unfold wakeToRun
  try dsimp only
  repeat' first | with_reducible assumption | with_reducible intro _ | with_reducible apply changeMode_sound | (with_reducible apply sound_intro; dsimp only; with_reducible apply sound_elim) | split

theorem wakeAccepted_sound (j : ℕ) (h : Hub) (hp_h : h.Sound) : (wakeAccepted j h).Sound := by
  unfold wakeAccepted
  try dsimp only
  repeat' first | with_reducible assumption | with_reducible intro _ | with_reducible apply wakeToRun_sound | with_reducible apply latchWake_sound | with_reducible apply abortFor_sound | with_reducible apply wakeRecord_sound | with_reducible apply startWake_sound | (with_reducible apply sound_intro; dsimp only; with_reducible apply sound_elim) | split

theorem execWakeAccepted_sound (source : ℕ) : Keeps (execWakeAccepted source) := by
  unfold execWakeAccepted
  try dsimp only
  repeat' first | with_reducible assumption | with_reducible apply keeps_onHub | with_reducible intro _ | with_reducible apply wakeAccepted_sound | (with_reducible apply sound_intro; dsimp only; with_reducible apply sound_elim) | split

theorem wakeUnproductive_sound (j : ℕ) (h : Hub) (hp_h : h.Sound) : (wakeUnproductive j h).Sound := by
  unfold wakeUnproductive
  try dsimp only
  repeat' first | with_reducible assumption | with_reducible intro _ | with_reducible apply raiseEvent_sound | with_reducible apply wr_sound | (with_reducible apply sound_intro; dsimp only; with_reducible apply sound_elim) | split

theorem execWakeProductivityTimeout_sound (source : ℕ) : Keeps (execWakeProductivityTimeout source) := by
  unfold execWakeProductivityTimeout
  try dsimp only
  repeat' first | with_reducible assumption | with_reducible apply keeps_onHub | with_reducible intro _ | with_reducible apply wakeUnproductive_sound | (with_reducible apply sound_intro; dsimp only; with_reducible apply sound_elim) | split

theorem wakeConfirm_sound (v : ℕ) (h : Hub) (hp_h : h.Sound) : (wakeConfirm v h).Sound := by
  unfold wakeConfirm
  try dsimp only
  repeat' first | with_reducible assumption | with_reducible intro _ | with_reducible apply wakeProductive_sound | with_reducible apply forEach_sound | (with_reducible apply sound_intro; dsimp only; with_reducible apply sound_elim) | split

theorem execWakeConfirmation_sound (path : Path) (value : ℕ) : Keeps (execWakeConfirmation path value) := by
  unfold execWakeConfirmation
  try dsimp only
  repeat' first | with_reducible assumption | with_reducible apply keeps_onHub | with_reducible intro _ | with_reducible apply wakeConfirm_sound | with_reducible apply pathWrite_sound | (with_reducible apply sound_intro; dsimp only; with_reducible apply sound_elim) | split

theorem unmaskSource_sound (j : ℕ) (h : Hub) (hp_h : h.Sound) : (unmaskSource j h).Sound := by
  unfold unmaskSource
  try dsimp only
  repeat' first | with_reducible assumption | with_reducible intro _ | with_reducible apply wr_sound | (with_reducible apply sound_intro; dsimp only; with_reducible apply sound_elim) | split

theorem wakeUnmask_sound (v : ℕ) (h : Hub) (hp_h : h.Sound) : (wakeUnmask v h).Sound := by
  unfold wakeUnmask
  try dsimp only
  repeat' first | with_reducible assumption | with_reducible intro _ | with_reducible apply unmaskSource_sound | with_reducible apply forEach_sound | (with_reducible apply sound_intro; dsimp only; with_reducible apply sound_elim) | split

theorem execWakeUnmask_sound (path : Path) (value : ℕ) : Keeps (execWakeUnmask path value) := by
  unfold execWakeUnmask
  try dsimp only
  repeat' first | with_reducible assumption | with_reducible apply keeps_onHub | with_reducible intro _ | with_reducible apply pathWrite_sound | with_reducible apply wakeUnmask_sound | (with_reducible apply sound_intro; dsimp only; with_reducible apply sound_elim) | split

theorem unmaskAll_sound (h : Hub) (hp_h : h.Sound) : (unmaskAll h).Sound := by
  unfold unmaskAll
  try dsimp only
  repeat' first | with_reducible assumption | with_reducible intro _ | with_reducible apply unmaskSource_sound | with_reducible apply forEach_sound | (with_reducible apply sound_intro; dsimp only; with_reducible apply sound_elim) | split

theorem pnFrameDecode_sound (c : ℕ) (f : CanFrame) (err : CanError) (h : Hub) (hp_h : h.Sound) : (pnFrameDecode c f err h).Sound := by
  unfold pnFrameDecode
  try dsimp only
  repeat' first | with_reducible assumption | with_reducible intro _ | with_reducible apply bump_sound | with_reducible apply routeFrame_sound | with_reducible apply setCan_sound | with_reducible apply wakeAccepted_sound | (with_reducible apply sound_intro; dsimp only; with_reducible apply sound_elim) | split

theorem execPnFrameDecode_sound (ctl : Fin 16) (frame : CanFrame) (err : CanError) : Keeps (execPnFrameDecode ctl frame err) := by
  unfold execPnFrameDecode
  try dsimp only
  repeat' first | with_reducible assumption | with_reducible apply keeps_onHub | with_reducible intro _ | with_reducible apply pnFrameDecode_sound | (with_reducible apply sound_intro; dsimp only; with_reducible apply sound_elim) | split

end Sys2Proof.Machine
end

