-- ==== Sys2Proof/Laws/SoundFlash.lean ====
section
/-! SUPPORT. Every operation of Flash.lean keeps a hub sound. -/

set_option linter.unusedTactic false
set_option linter.unreachableTactic false
set_option linter.unusedVariables false

namespace Sys2Proof.Machine

theorem setSlot_sound (b : ℕ) (x : FlashSlot) (h : Hub) (hp_h : h.Sound) : (setSlot b x h).Sound := by
  unfold setSlot
  try dsimp only
  repeat' first | with_reducible assumption | with_reducible intro _ | (with_reducible apply sound_intro; dsimp only; with_reducible apply sound_elim) | split

theorem loadFails_sound (code : ℕ) (h : Hub) (hp_h : h.Sound) : (loadFails code h).Sound := by
  unfold loadFails
  try dsimp only
  repeat' first | with_reducible assumption | with_reducible intro _ | with_reducible apply wrs_sound | (with_reducible apply sound_intro; dsimp only; with_reducible apply sound_elim) | split

theorem eraseStrapped_sound (h : Hub) (hp_h : h.Sound) : (eraseStrapped h).Sound := by
  unfold eraseStrapped
  try dsimp only
  repeat' first | with_reducible assumption | with_reducible intro _ | with_reducible apply setSlot_sound | (with_reducible apply sound_intro; dsimp only; with_reducible apply sound_elim) | split

theorem abandonLoad_sound (h : Hub) (hp_h : h.Sound) : (abandonLoad h).Sound := by
  unfold abandonLoad
  try dsimp only
  repeat' first | with_reducible assumption | with_reducible intro _ | with_reducible apply eraseStrapped_sound | with_reducible apply wrs_sound | (with_reducible apply sound_intro; dsimp only; with_reducible apply sound_elim) | split

theorem leaveService_sound (h : Hub) (hp_h : h.Sound) : (leaveService h).Sound := by
  unfold leaveService
  try dsimp only
  repeat' first | with_reducible assumption | with_reducible intro _ | with_reducible apply abandonLoad_sound | (with_reducible apply sound_intro; dsimp only; with_reducible apply sound_elim) | split

theorem confirmSlot_sound (h : Hub) (hp_h : h.Sound) : (confirmSlot h).Sound := by
  unfold confirmSlot
  try dsimp only
  repeat' first | with_reducible assumption | with_reducible intro _ | with_reducible apply wrs_sound | with_reducible apply setSlot_sound | (with_reducible apply sound_intro; dsimp only; with_reducible apply sound_elim) | split

theorem skipSlot_sound (b : ℕ) (h : Hub) (hp_h : h.Sound) : (skipSlot b h).Sound := by
  unfold skipSlot
  try dsimp only
  repeat' first | with_reducible assumption | with_reducible intro _ | with_reducible apply wr_sound | with_reducible apply setSlot_sound | (with_reducible apply sound_intro; dsimp only; with_reducible apply sound_elim) | split

theorem imageEntries_sound (x : FlashSlot) (h : Hub) (hp_h : h.Sound) : (imageEntries x h).Sound := by
  unfold imageEntries
  try dsimp only
  repeat' first | with_reducible assumption | with_reducible intro _ | with_reducible apply toDefault_sound | with_reducible apply wr_sound | with_reducible apply forEach_sound | with_reducible apply wrs_sound | (with_reducible apply sound_intro; dsimp only; with_reducible apply sound_elim) | split

theorem startSlot_sound (b : ℕ) (h : Hub) (hp_h : h.Sound) : (startSlot b h).Sound := by
  unfold startSlot
  try dsimp only
  repeat' first | with_reducible assumption | with_reducible intro _ | with_reducible apply imageEntries_sound | with_reducible apply wrs_sound | with_reducible apply setSlot_sound | (with_reducible apply sound_intro; dsimp only; with_reducible apply sound_elim) | split

theorem bootFlash_sound (okA okB : Bool) (h : Hub) (hp : h.Sound) :
    (bootFlash okA okB h).2.Sound ∧ ∀ a, (bootFlash okA okB h).1 = some a → a.Sound := by
  have k : (raiseEvent (skipSlot (strapped h) h) 1 0 0).Sound := raiseEvent_sound _ _ _ _ (skipSlot_sound _ _ hp)
  unfold bootFlash
  dsimp only
  split
  · exact ⟨hp, fun a e => by cases e; exact startSlot_sound _ _ hp⟩
  · split
    · exact ⟨k, fun a e => by cases e; exact startSlot_sound _ _ k⟩
    · exact ⟨skipSlot_sound _ _ k, fun a e => by cases e⟩

theorem bootSucceeds_sound (h : Hub) (hp_h : h.Sound) : (bootSucceeds h).Sound := by
  unfold bootSucceeds
  try dsimp only
  repeat' first | with_reducible assumption | with_reducible intro _ | with_reducible apply setSlot_sound | (with_reducible apply sound_intro; dsimp only; with_reducible apply sound_elim) | split

end Sys2Proof.Machine
end

