-- ==== Sys2Proof/Laws/SoundVoting.lean ====
section
/-! SUPPORT. Every operation of Voting.lean keeps a hub sound. -/

set_option linter.unusedTactic false
set_option linter.unreachableTactic false
set_option linter.unusedVariables false

namespace Sys2Proof.Machine

theorem voteMode_sound (h : Hub) (hp_h : h.Sound) : (voteMode h).Sound := by
  unfold voteMode
  try dsimp only
  repeat' first | with_reducible assumption | with_reducible intro _ | with_reducible apply wr_sound | (with_reducible apply sound_intro; dsimp only; with_reducible apply sound_elim) | split

theorem voterDiffers_sound (cause : ℕ) (group : ℕ) (h : Hub) (hp_h : h.Sound) : (voterDiffers cause group h).Sound := by
  unfold voterDiffers
  try dsimp only
  repeat' first | with_reducible assumption | with_reducible intro _ | with_reducible apply raiseFault_sound | (with_reducible apply sound_intro; dsimp only; with_reducible apply sound_elim) | split

theorem split_sound (cause : ℕ) (group : ℕ) (h : Hub) (hp_h : h.Sound) : (split cause group h).Sound := by
  unfold split
  try dsimp only
  repeat' first | with_reducible assumption | with_reducible intro _ | with_reducible apply raiseFault_sound | with_reducible apply voterDiffers_sound | with_reducible apply wrs_sound | (with_reducible apply sound_intro; dsimp only; with_reducible apply sound_elim) | split

theorem failChannel_sound (n : ℕ) (cause : ℕ) (h : Hub) (hp_h : h.Sound) : (failChannel n cause h).Sound := by
  unfold failChannel
  try dsimp only
  repeat' first | with_reducible assumption | with_reducible intro _ | with_reducible apply raiseFault_sound | with_reducible apply wrs_sound | with_reducible apply voteMode_sound | (with_reducible apply sound_intro; dsimp only; with_reducible apply sound_elim) | split

theorem exclude_sound (n : ℕ) (cause : ℕ) (group : ℕ) (h : Hub) (hp_h : h.Sound) : (exclude n cause group h).Sound := by
  unfold exclude
  try dsimp only
  repeat' first | with_reducible assumption | with_reducible intro _ | with_reducible apply setLimpCause_sound | with_reducible apply bump_sound | with_reducible apply wrStamp_sound | with_reducible apply setChannel_sound | with_reducible apply raiseEvent_sound | with_reducible apply failChannel_sound | with_reducible apply wrs_sound | with_reducible apply voteMode_sound | (with_reducible apply sound_intro; dsimp only; with_reducible apply sound_elim) | split

theorem rejoin_sound (n : ℕ) (h : Hub) (hp_h : h.Sound) : (rejoin n h).Sound := by
  unfold rejoin
  try dsimp only
  repeat' first | with_reducible assumption | with_reducible intro _ | with_reducible apply setLimpCause_sound | with_reducible apply bump_sound | with_reducible apply raiseEvent_sound | with_reducible apply wr_sound | with_reducible apply voteMode_sound | (with_reducible apply sound_intro; dsimp only; with_reducible apply sound_elim) | split

theorem minority_sound (n : ℕ) (cause : ℕ) (group : ℕ) (h : Hub) (hp_h : h.Sound) : (minority n cause group h).Sound := by
  unfold minority
  try dsimp only
  repeat' first | with_reducible assumption | with_reducible intro _ | with_reducible apply split_sound | with_reducible apply rejoin_sound | with_reducible apply exclude_sound | (with_reducible apply sound_intro; dsimp only; with_reducible apply sound_elim) | split

theorem voteMinority_sound (n : ℕ) (group : ℕ) (h : Hub) (hp_h : h.Sound) : (voteMinority n group h).Sound := by
  unfold voteMinority
  try dsimp only
  repeat' first | with_reducible assumption | with_reducible intro _ | with_reducible apply bump_sound | with_reducible apply minority_sound | (with_reducible apply sound_intro; dsimp only; with_reducible apply sound_elim) | split

theorem execVoteMinority_sound (n : Fin 3) (group : ℕ) : Keeps (execVoteMinority n group) := by
  unfold execVoteMinority
  try dsimp only
  repeat' first | with_reducible assumption | with_reducible apply keeps_onHub | with_reducible intro _ | with_reducible apply voteMinority_sound | (with_reducible apply sound_intro; dsimp only; with_reducible apply sound_elim) | split

theorem execVoteSplit_sound (cause : ℕ) (group : ℕ) : Keeps (execVoteSplit cause group) := by
  unfold execVoteSplit
  try dsimp only
  repeat' first | with_reducible assumption | with_reducible apply keeps_onHub | with_reducible intro _ | with_reducible apply split_sound | (with_reducible apply sound_intro; dsimp only; with_reducible apply sound_elim) | split

theorem upsetChannels_sound (upsets : List (ℕ × ℕ × Word)) (h : Hub) (hp_h : h.Sound) : (upsetChannels upsets h).Sound := by
  unfold upsetChannels
  try dsimp only
  repeat' first | with_reducible assumption | with_reducible intro _ | with_reducible apply setChannel_sound | with_reducible apply forEach_sound | (with_reducible apply sound_intro; dsimp only; with_reducible apply sound_elim) | split

theorem digestCompare_sound (h : Hub) (hp_h : h.Sound) : (digestCompare h).Sound := by
  unfold digestCompare
  try dsimp only
  repeat' first | with_reducible assumption | with_reducible intro _ | with_reducible apply bump_sound | with_reducible apply split_sound | with_reducible apply minority_sound | (with_reducible apply sound_intro; dsimp only; with_reducible apply sound_elim) | split

theorem execDigestCompare_sound (upsets : List (ℕ × ℕ × Word)) : Keeps (execDigestCompare upsets) := by
  unfold execDigestCompare
  try dsimp only
  repeat' first | with_reducible assumption | with_reducible apply keeps_onHub | with_reducible intro _ | with_reducible apply digestCompare_sound | with_reducible apply upsetChannels_sound | (with_reducible apply sound_intro; dsimp only; with_reducible apply sound_elim) | split

theorem treeFault_sound (n : ℕ) (h : Hub) (hp_h : h.Sound) : (treeFault n h).Sound := by
  unfold treeFault
  try dsimp only
  repeat' first | with_reducible assumption | with_reducible intro _ | with_reducible apply rejoin_sound | with_reducible apply exclude_sound | (with_reducible apply sound_intro; dsimp only; with_reducible apply sound_elim) | split

theorem execChannelTreeCheck_sound (n : Fin 3) (ok : Bool) : Keeps (execChannelTreeCheck n ok) := by
  unfold execChannelTreeCheck
  try dsimp only
  repeat' first | with_reducible assumption | with_reducible apply keeps_onHub | with_reducible intro _ | with_reducible apply whenDo_sound | with_reducible apply treeFault_sound | (with_reducible apply sound_intro; dsimp only; with_reducible apply sound_elim) | split

theorem channelStart_sound (n : ℕ) (h : Hub) (hp_h : h.Sound) : (channelStart n h).Sound := by
  unfold channelStart
  try dsimp only
  repeat' first | with_reducible assumption | with_reducible intro _ | with_reducible apply setChannel_sound | with_reducible apply wr_sound | (with_reducible apply sound_intro; dsimp only; with_reducible apply sound_elim) | split

theorem channelsStart_sound (h : Hub) (hp_h : h.Sound) : (channelsStart h).Sound := by
  unfold channelsStart
  try dsimp only
  repeat' first | with_reducible assumption | with_reducible intro _ | with_reducible apply channelStart_sound | with_reducible apply forEach_sound | (with_reducible apply sound_intro; dsimp only; with_reducible apply sound_elim) | split

theorem startReplay_sound (n : ℕ) (h : Hub) (hp_h : h.Sound) : (startReplay n h).Sound := by
  unfold startReplay
  try dsimp only
  repeat' first | with_reducible assumption | with_reducible intro _ | with_reducible apply setChannel_sound | with_reducible apply wr_sound | (with_reducible apply sound_intro; dsimp only; with_reducible apply sound_elim) | split

theorem channelSelftestDone_sound (n : ℕ) (pass : Bool) (h : Hub) (hp_h : h.Sound) : (channelSelftestDone n pass h).Sound := by
  unfold channelSelftestDone
  try dsimp only
  repeat' first | with_reducible assumption | with_reducible intro _ | with_reducible apply setChannel_sound | with_reducible apply startReplay_sound | with_reducible apply wr_sound | with_reducible apply failChannel_sound | (with_reducible apply sound_intro; dsimp only; with_reducible apply sound_elim) | split

theorem execChannelSelftestDone_sound (n : Fin 3) (pass : Bool) : Keeps (execChannelSelftestDone n pass) := by
  unfold execChannelSelftestDone
  try dsimp only
  repeat' first | with_reducible assumption | with_reducible apply keeps_onHub | with_reducible intro _ | with_reducible apply channelSelftestDone_sound | (with_reducible apply sound_intro; dsimp only; with_reducible apply sound_elim) | split

theorem checkpointLoaded_sound (n : ℕ) (written : Bool) (h : Hub) (hp_h : h.Sound) : (checkpointLoaded n written h).Sound := by
  unfold checkpointLoaded
  try dsimp only
  repeat' first | with_reducible assumption | with_reducible intro _ | with_reducible apply setChannel_sound | with_reducible apply split_sound | with_reducible apply peak_sound | (with_reducible apply sound_intro; dsimp only; with_reducible apply sound_elim) | split

theorem execCheckpointLoaded_sound (n : Fin 3) (same : Bool) : Keeps (execCheckpointLoaded n same) := by
  unfold execCheckpointLoaded
  try dsimp only
  repeat' first | with_reducible assumption | with_reducible apply keeps_onHub | with_reducible intro _ | with_reducible apply checkpointLoaded_sound | (with_reducible apply sound_intro; dsimp only; with_reducible apply sound_elim) | split

theorem execReplayCaughtUp_sound (n : Fin 3) (upsets : List (ℕ × Word)) : Keeps (execReplayCaughtUp n upsets) := by
  unfold execReplayCaughtUp
  try dsimp only
  repeat' first | with_reducible assumption | with_reducible apply keeps_onHub | with_reducible intro _ | with_reducible apply setChannel_sound | with_reducible apply wrs_sound | (with_reducible apply sound_intro; dsimp only; with_reducible apply sound_elim) | split

theorem replayLogFull_sound (n : ℕ) (h : Hub) (hp_h : h.Sound) : (replayLogFull n h).Sound := by
  unfold replayLogFull
  try dsimp only
  repeat' first | with_reducible assumption | with_reducible intro _ | with_reducible apply setChannel_sound | with_reducible apply raiseEvent_sound | with_reducible apply startReplay_sound | with_reducible apply failChannel_sound | with_reducible apply peak_sound | (with_reducible apply sound_intro; dsimp only; with_reducible apply sound_elim) | split

theorem execReplayLogFull_sound (n : Fin 3) : Keeps (execReplayLogFull n) := by
  unfold execReplayLogFull
  try dsimp only
  repeat' first | with_reducible assumption | with_reducible apply keeps_onHub | with_reducible intro _ | with_reducible apply replayLogFull_sound | (with_reducible apply sound_intro; dsimp only; with_reducible apply sound_elim) | split

theorem execProbationExpiry_sound (n : Fin 3) : Keeps (execProbationExpiry n) := by
  unfold execProbationExpiry
  try dsimp only
  repeat' first | with_reducible assumption | with_reducible apply keeps_onHub | with_reducible intro _ | with_reducible apply rejoin_sound | (with_reducible apply sound_intro; dsimp only; with_reducible apply sound_elim) | split

theorem channelsSleep_sound (h : Hub) (hp_h : h.Sound) : (channelsSleep h).Sound := by
  unfold channelsSleep
  try dsimp only
  repeat' first | with_reducible assumption | with_reducible intro _ | with_reducible apply setChannel_sound | with_reducible apply wr_sound | with_reducible apply forEach_sound | (with_reducible apply sound_intro; dsimp only; with_reducible apply sound_elim) | split

theorem releaseChannel_sound (n : ℕ) (h : Hub) (hp_h : h.Sound) : (releaseChannel n h).Sound := by
  unfold releaseChannel
  try dsimp only
  repeat' first | with_reducible assumption | with_reducible intro _ | with_reducible apply setChannel_sound | with_reducible apply causeGone_sound | with_reducible apply wrs_sound | (with_reducible apply sound_intro; dsimp only; with_reducible apply sound_elim) | split

theorem execChannelRelease_sound (p : Path) (value : ℕ) : Keeps (execChannelRelease p value) := by
  unfold execChannelRelease
  try dsimp only
  repeat' first | with_reducible assumption | with_reducible apply keeps_onHub | with_reducible intro _ | with_reducible apply releaseChannel_sound | with_reducible apply pathWrite_sound | (with_reducible apply sound_intro; dsimp only; with_reducible apply sound_elim) | split

end Sys2Proof.Machine
end

