-- ==== Sys2Proof/Laws/SoundResets.lean ====
section
/-! SUPPORT. Every operation of Resets.lean keeps a hub sound. -/

set_option linter.unusedTactic false
set_option linter.unreachableTactic false
set_option linter.unusedVariables false

namespace Sys2Proof.Machine

theorem cutStore_sound (h : Hub) (hp_h : h.Sound) : (cutStore h).Sound := by
  unfold cutStore
  try dsimp only
  repeat' first | with_reducible assumption | with_reducible intro _ | (with_reducible apply sound_intro; dsimp only; with_reducible apply sound_elim) | split

theorem keepFlash_sound (h0 : Hub) (hp_h0 : h0.Sound) : (keepFlash h0).Sound := by
  unfold keepFlash
  try dsimp only
  repeat' first | with_reducible assumption | with_reducible intro _ | with_reducible exact reset_sound | with_reducible apply cutStore_sound | (with_reducible apply sound_intro; dsimp only; with_reducible apply sound_elim) | split

theorem keepAlwaysOn_sound (h : Hub) (k : Hub) (hp_h : h.Sound) (hp_k : k.Sound) : (keepAlwaysOn h k).Sound := by
  unfold keepAlwaysOn
  try dsimp only
  repeat' first | with_reducible assumption | with_reducible intro _ | (with_reducible apply sound_intro; dsimp only; with_reducible apply sound_elim) | split

theorem resetHub_sound (cause : ℕ) (h : Hub) (hp_h : h.Sound) : (resetHub cause h).Sound := by
  unfold resetHub
  try dsimp only
  repeat' first | with_reducible assumption | with_reducible intro _ | with_reducible apply keepFlash_sound | with_reducible apply wr_sound | with_reducible apply keepAlwaysOn_sound | (with_reducible apply sound_intro; dsimp only; with_reducible apply sound_elim) | split

theorem stopBoot_sound (code : ℕ) (h : Hub) (hp_h : h.Sound) : (stopBoot code h).Sound := by
  unfold stopBoot
  try dsimp only
  repeat' first | with_reducible assumption | with_reducible intro _ | with_reducible apply wr_sound | (with_reducible apply sound_intro; dsimp only; with_reducible apply sound_elim) | split

theorem bootFault_sound (code : ℕ) (island : ℕ) (detail : ℕ) (h : Hub) (hp_h : h.Sound) : (bootFault code island detail h).Sound := by
  unfold bootFault
  try dsimp only
  repeat' first | with_reducible assumption | with_reducible intro _ | with_reducible apply raiseFault_sound | with_reducible apply stopBoot_sound | (with_reducible apply sound_intro; dsimp only; with_reducible apply sound_elim) | split

theorem strapEntries_sound (straps : ℕ) (h : Hub) (hp_h : h.Sound) : (strapEntries straps h).Sound := by
  unfold strapEntries
  try dsimp only
  repeat' first | with_reducible assumption | with_reducible intro _ | with_reducible apply wrs_sound | (with_reducible apply sound_intro; dsimp only; with_reducible apply sound_elim) | split

theorem avsBoot_sound (h : Hub) (hp_h : h.Sound) : (avsBoot h).Sound := by
  unfold avsBoot
  try dsimp only
  repeat' first | with_reducible assumption | with_reducible intro _ | with_reducible apply takeFree_sound | (with_reducible refine pair_sound ‹_ = (_, _)› ?_) | (with_reducible apply sound_intro; dsimp only; with_reducible apply sound_elim) | split

theorem bootStart_sound (straps : ℕ) (testMode : Bool) (h : Hub) (hp_h : h.Sound) : (bootStart straps testMode h).Sound := by
  unfold bootStart
  try dsimp only
  repeat' first | with_reducible assumption | with_reducible intro _ | with_reducible apply advanceEpoch_sound | with_reducible apply avsBoot_sound | with_reducible apply strapEntries_sound | with_reducible apply wr_sound | (with_reducible apply sound_intro; dsimp only; with_reducible apply sound_elim) | split

theorem restart_sound (cause : ℕ) (h : Hub) (hp_h : h.Sound) : (restart cause h).Sound := by
  unfold restart
  try dsimp only
  repeat' first | with_reducible assumption | with_reducible intro _ | with_reducible apply bootStart_sound | with_reducible apply resetHub_sound | (with_reducible apply sound_intro; dsimp only; with_reducible apply sound_elim) | split

theorem powerDown_sound (aonHolds : Bool) (h : Hub) (hp_h : h.Sound) : (powerDown aonHolds h).Sound := by
  unfold powerDown
  try dsimp only
  repeat' first | with_reducible assumption | with_reducible intro _ | with_reducible apply keepFlash_sound | with_reducible apply keepAlwaysOn_sound | (with_reducible apply sound_intro; dsimp only; with_reducible apply sound_elim) | split

end Sys2Proof.Machine
end

