-- ==== Sys2Proof/Laws/SoundUpdate.lean ====
section
/-! SUPPORT. Every operation of Update.lean keeps a hub sound. -/

set_option linter.unusedTactic false
set_option linter.unreachableTactic false
set_option linter.unusedVariables false

namespace Sys2Proof.Machine

theorem updateCommand_sound (p : Path) (code : ℕ) (states : List ℕ) (more : Hub → Causes → Causes) (f : Hub → Hub) (h : Hub) (hf_f : ∀ x, x.Sound → (f x).Sound) (hp_h : h.Sound) : (updateCommand p code states more f h).Sound := by
  unfold updateCommand
  try dsimp only
  repeat' first | with_reducible assumption | with_reducible intro _ | with_reducible apply hf_f | with_reducible apply pathWrite_sound | (with_reducible apply sound_intro; dsimp only; with_reducible apply sound_elim) | split

theorem clearLoad_sound (h : Hub) (hp_h : h.Sound) : (clearLoad h).Sound := by
  unfold clearLoad
  try dsimp only
  repeat' first | with_reducible assumption | with_reducible intro _ | (with_reducible apply sound_intro; dsimp only; with_reducible apply sound_elim) | split

theorem pullFrame_sound (tag : ℕ) (off : ℕ) (len : ℕ) (h : Hub) (hp_h : h.Sound) : (pullFrame tag off len h).Sound := by
  unfold pullFrame
  try dsimp only
  repeat' first | with_reducible assumption | with_reducible intro _ | with_reducible apply originate_sound | (with_reducible apply sound_intro; dsimp only; with_reducible apply sound_elim) | split

theorem pullRequest_sound (off : ℕ) (len : ℕ) (h : Hub) (hp_h : h.Sound) : (pullRequest off len h).Sound := by
  unfold pullRequest
  try dsimp only
  repeat' first | with_reducible assumption | with_reducible intro _ | with_reducible apply pullFrame_sound | (with_reducible apply sound_intro; dsimp only; with_reducible apply sound_elim) | split

theorem pullMore_sound (y0 : ℕ) (h : Hub) (hp : h.Sound) : (pullMore y0 h).Sound := by
  revert hp
  fun_induction pullMore y0 h <;> intro hp <;> (try dsimp only) <;>
  repeat' first | with_reducible assumption | with_reducible intro _ | with_reducible apply pullRequest_sound | (with_reducible refine pair_sound ‹_ = (_, _)› ?_) | (with_reducible apply sound_intro; dsimp only; with_reducible apply sound_elim) | (with_reducible apply_assumption) | split

theorem beginLoad_sound (flashOk : Bool) (h : Hub) (hp_h : h.Sound) : (beginLoad flashOk h).Sound := by
  unfold beginLoad
  try dsimp only
  repeat' first | with_reducible assumption | with_reducible intro _ | with_reducible apply pullRequest_sound | with_reducible apply clearLoad_sound | with_reducible apply eraseStrapped_sound | with_reducible apply loadFails_sound | with_reducible apply wrs_sound | with_reducible apply setSlot_sound | (with_reducible apply sound_intro; dsimp only; with_reducible apply sound_elim) | split

theorem execUpdateFinish_sound (path : Path) : Keeps (execUpdateFinish path) := by
  unfold execUpdateFinish
  try dsimp only
  repeat' first | with_reducible assumption | with_reducible apply keeps_onHub | with_reducible intro _ | with_reducible apply updateCommand_sound | with_reducible apply wr_sound | (with_reducible apply sound_intro; dsimp only; with_reducible apply sound_elim) | split

theorem activate_sound (path : Path) (answers : List HubAnswer) (h : Hub) (hp_h : h.Sound) : (activate path answers h).Sound := by
  unfold activate
  try dsimp only
  repeat' first | with_reducible assumption | with_reducible intro _ | with_reducible apply restart_sound | with_reducible apply answered_sound | with_reducible apply updateCommand_sound | with_reducible apply wr_sound | with_reducible apply setSlot_sound | (with_reducible apply sound_intro; dsimp only; with_reducible apply sound_elim) | split

theorem execUpdateActivate_sound (path : Path) (answers : List HubAnswer) : Keeps (execUpdateActivate path answers) := by
  unfold execUpdateActivate
  try dsimp only
  repeat' first | with_reducible assumption | with_reducible apply keeps_onHub | with_reducible intro _ | with_reducible apply activate_sound | (with_reducible apply sound_intro; dsimp only; with_reducible apply sound_elim) | split

theorem execUpdateAbandon_sound (path : Path) : Keeps (execUpdateAbandon path) := by
  unfold execUpdateAbandon
  try dsimp only
  repeat' first | with_reducible assumption | with_reducible apply keeps_onHub | with_reducible intro _ | with_reducible apply abandonLoad_sound | with_reducible apply updateCommand_sound | (with_reducible apply sound_intro; dsimp only; with_reducible apply sound_elim) | split

theorem execUpdateConfirm_sound (path : Path) : Keeps (execUpdateConfirm path) := by
  unfold execUpdateConfirm
  try dsimp only
  repeat' first | with_reducible assumption | with_reducible apply keeps_onHub | with_reducible intro _ | with_reducible apply confirmSlot_sound | with_reducible apply updateCommand_sound | (with_reducible apply sound_intro; dsimp only; with_reducible apply sound_elim) | split

theorem revertSlot_sound (h : Hub) (hp_h : h.Sound) : (revertSlot h).Sound := by
  unfold revertSlot
  try dsimp only
  repeat' first | with_reducible assumption | with_reducible intro _ | with_reducible apply restart_sound | with_reducible apply answered_sound | with_reducible apply setSlot_sound | (with_reducible apply sound_intro; dsimp only; with_reducible apply sound_elim) | split

theorem execUpdateRevert_sound (path : Path) : Keeps (execUpdateRevert path) := by
  unfold execUpdateRevert
  try dsimp only
  repeat' first | with_reducible assumption | with_reducible apply keeps_onHub | with_reducible intro _ | with_reducible apply revertSlot_sound | with_reducible apply updateCommand_sound | (with_reducible apply sound_intro; dsimp only; with_reducible apply sound_elim) | split

theorem execConfirmDelayExpiry_sound : Keeps (execConfirmDelayExpiry) := by
  unfold execConfirmDelayExpiry
  try dsimp only
  repeat' first | with_reducible assumption | with_reducible apply keeps_onHub | with_reducible intro _ | with_reducible apply confirmSlot_sound | (with_reducible apply sound_intro; dsimp only; with_reducible apply sound_elim) | split

theorem headerArrives_sound (before : ℕ) (total : ℕ) (h : Hub) (hp_h : h.Sound) : (headerArrives before total h).Sound := by
  unfold headerArrives
  try dsimp only
  repeat' first | with_reducible assumption | with_reducible intro _ | with_reducible apply loadFails_sound | (with_reducible apply sound_intro; dsimp only; with_reducible apply sound_elim) | split

theorem imageBytes_sound (off : ℕ) (bs : List Byte) (h : Hub) (hp_h : h.Sound) : (imageBytes off bs h).Sound := by
  unfold imageBytes
  try dsimp only
  repeat' first | with_reducible assumption | with_reducible intro _ | with_reducible apply wr_sound | (with_reducible apply sound_intro; dsimp only; with_reducible apply sound_elim) | split

theorem chunkWritten_sound (bs : List Byte) (flashOk : Bool) (h : Hub) (hp_h : h.Sound) : (chunkWritten bs flashOk h).Sound := by
  unfold chunkWritten
  try dsimp only
  repeat' first | with_reducible assumption | with_reducible intro _ | with_reducible apply headerArrives_sound | with_reducible apply imageBytes_sound | with_reducible apply loadFails_sound | (with_reducible apply sound_intro; dsimp only; with_reducible apply sound_elim) | split

theorem pullOn_sound (before : ℕ) (h0 : Hub) (hp_h0 : h0.Sound) : (pullOn before h0).Sound := by
  unfold pullOn
  try dsimp only
  repeat' first | with_reducible assumption | with_reducible intro _ | with_reducible apply whenDo_sound | with_reducible apply headerArrives_sound | with_reducible apply pullMore_sound | with_reducible apply wr_sound | (with_reducible apply sound_intro; dsimp only; with_reducible apply sound_elim) | split

theorem makeImageWrite_sound (w : ImageWrite) (h : Hub) (hp_h : h.Sound) : (makeImageWrite w h).Sound := by
  unfold makeImageWrite
  try dsimp only
  repeat' first | with_reducible assumption | with_reducible intro _ | with_reducible apply whenDo_sound | with_reducible apply imageBytes_sound | with_reducible apply beginLoad_sound | with_reducible apply chunkWritten_sound | with_reducible apply pullOn_sound | (with_reducible apply sound_intro; dsimp only; with_reducible apply sound_elim) | split

theorem imageWrite_sound (w : ImageWrite) (h : Hub) (hp_h : h.Sound) : (imageWrite w h).Sound := by
  unfold imageWrite
  try dsimp only
  repeat' first | with_reducible assumption | with_reducible intro _ | with_reducible apply makeImageWrite_sound | (with_reducible apply sound_intro; dsimp only; with_reducible apply sound_elim) | split

theorem heldImageWrites_sound (h : Hub) (hp_h : h.Sound) : (heldImageWrites h).Sound := by
  unfold heldImageWrites
  try dsimp only
  repeat' first | with_reducible assumption | with_reducible intro _ | with_reducible apply makeImageWrite_sound | with_reducible apply forEach_sound | (with_reducible apply sound_intro; dsimp only; with_reducible apply sound_elim) | split

theorem execUpdateBegin_sound (path : Path) (flashOk : Bool) : Keeps (execUpdateBegin path flashOk) := by
  unfold execUpdateBegin
  try dsimp only
  repeat' first | with_reducible assumption | with_reducible apply keeps_onHub | with_reducible intro _ | with_reducible apply imageWrite_sound | with_reducible apply updateCommand_sound | (with_reducible apply sound_intro; dsimp only; with_reducible apply sound_elim) | split

theorem chunkWrite_sound (p : Path) (sub : ℕ) (bytes : List Byte) (flashOk : Bool) (h : Hub) (hp_h : h.Sound) : (chunkWrite p sub bytes flashOk h).Sound := by
  unfold chunkWrite
  try dsimp only
  repeat' first | with_reducible assumption | with_reducible intro _ | with_reducible apply imageWrite_sound | with_reducible apply pathWrite_sound | (with_reducible apply sound_intro; dsimp only; with_reducible apply sound_elim) | split

theorem execChunkWrite_sound (path : Path) (bytes : List Byte) (flashOk : Bool) : Keeps (execChunkWrite path bytes flashOk) := by
  unfold execChunkWrite
  try dsimp only
  repeat' first | with_reducible assumption | with_reducible apply keeps_onHub | with_reducible intro _ | with_reducible apply chunkWrite_sound | (with_reducible apply sound_intro; dsimp only; with_reducible apply sound_elim) | split

theorem verifyDone_sound (result : ℕ) (h : Hub) (hp_h : h.Sound) : (verifyDone result h).Sound := by
  unfold verifyDone
  try dsimp only
  repeat' first | with_reducible assumption | with_reducible intro _ | with_reducible apply clearLoad_sound | with_reducible apply loadFails_sound | with_reducible apply wrs_sound | with_reducible apply setSlot_sound | (with_reducible apply sound_intro; dsimp only; with_reducible apply sound_elim) | split

theorem execUpdateVerifyDone_sound (result : ℕ) : Keeps (execUpdateVerifyDone result) := by
  unfold execUpdateVerifyDone
  try dsimp only
  repeat' first | with_reducible assumption | with_reducible apply keeps_onHub | with_reducible intro _ | with_reducible apply verifyDone_sound | (with_reducible apply sound_intro; dsimp only; with_reducible apply sound_elim) | split

theorem dataFrame_sound (dst : ℕ) (tag : ℕ) (status : ℕ) (off : ℕ) (bs : List Byte) (h : Hub) (hp_h : h.Sound) : (dataFrame dst tag status off bs h).Sound := by
  unfold dataFrame
  try dsimp only
  repeat' first | with_reducible assumption | with_reducible intro _ | with_reducible apply originate_sound | (with_reducible apply sound_intro; dsimp only; with_reducible apply sound_elim) | split

theorem updateRequest_sound (src : ℕ) (tag : ℕ) (staged : Bool) (off : ℕ) (len : ℕ) (h : Hub) (hp_h : h.Sound) : (updateRequest src tag staged off len h).Sound := by
  unfold updateRequest
  try dsimp only
  repeat' first | with_reducible assumption | with_reducible intro _ | with_reducible apply dataFrame_sound | (with_reducible apply sound_intro; dsimp only; with_reducible apply sound_elim) | split

theorem execUpdateRequest_sound (src : ℕ) (tag : ℕ) (staged : Bool) (offset : ℕ) (length : ℕ) : Keeps (execUpdateRequest src tag staged offset length) := by
  unfold execUpdateRequest
  try dsimp only
  repeat' first | with_reducible assumption | with_reducible apply keeps_onHub | with_reducible intro _ | with_reducible apply updateRequest_sound | (with_reducible apply sound_intro; dsimp only; with_reducible apply sound_elim) | split

theorem setRequests_sound (r : List (ℕ × ℕ × ℕ × ℕ)) (h : Hub) (hp_h : h.Sound) : (setRequests r h).Sound := by
  unfold setRequests
  try dsimp only
  repeat' first | with_reducible assumption | with_reducible intro _ | (with_reducible apply sound_intro; dsimp only; with_reducible apply sound_elim) | split

theorem updateData_sound (src : ℕ) (tag : ℕ) (status : ℕ) (off : ℕ) (bs : List Byte) (h : Hub) (hp_h : h.Sound) : (updateData src tag status off bs h).Sound := by
  unfold updateData
  try dsimp only
  repeat' first | with_reducible assumption | with_reducible intro _ | with_reducible apply imageWrite_sound | with_reducible apply setRequests_sound | with_reducible apply loadFails_sound | (with_reducible apply sound_intro; dsimp only; with_reducible apply sound_elim) | split

theorem execUpdateData_sound (src : ℕ) (tag : ℕ) (status : ℕ) (offset : ℕ) (bytes : List Byte) : Keeps (execUpdateData src tag status offset bytes) := by
  unfold execUpdateData
  try dsimp only
  repeat' first | with_reducible assumption | with_reducible apply keeps_onHub | with_reducible intro _ | with_reducible apply updateData_sound | (with_reducible apply sound_intro; dsimp only; with_reducible apply sound_elim) | split

theorem pullTimeout_sound (tag : ℕ) (h : Hub) (hp_h : h.Sound) : (pullTimeout tag h).Sound := by
  unfold pullTimeout
  try dsimp only
  repeat' first | with_reducible assumption | with_reducible intro _ | with_reducible apply setRequests_sound | with_reducible apply loadFails_sound | with_reducible apply pullFrame_sound | (with_reducible apply sound_intro; dsimp only; with_reducible apply sound_elim) | split

theorem execPullRequestTimeout_sound (tag : ℕ) : Keeps (execPullRequestTimeout tag) := by
  unfold execPullRequestTimeout
  try dsimp only
  repeat' first | with_reducible assumption | with_reducible apply keeps_onHub | with_reducible intro _ | with_reducible apply pullTimeout_sound | (with_reducible apply sound_intro; dsimp only; with_reducible apply sound_elim) | split

theorem pullBusyWait_sound (h : Hub) (hp_h : h.Sound) : (pullBusyWait h).Sound := by
  unfold pullBusyWait
  try dsimp only
  repeat' first | with_reducible assumption | with_reducible intro _ | with_reducible apply forEach_sound | with_reducible apply pullFrame_sound | (with_reducible apply sound_intro; dsimp only; with_reducible apply sound_elim) | split

theorem execPullBusyWait_sound : Keeps (execPullBusyWait) := by
  unfold execPullBusyWait
  try dsimp only
  repeat' first | with_reducible assumption | with_reducible apply keeps_onHub | with_reducible intro _ | with_reducible apply pullBusyWait_sound | (with_reducible apply sound_intro; dsimp only; with_reducible apply sound_elim) | split

theorem execPowerLoss_sound (aonHolds : Bool) : Keeps (execPowerLoss aonHolds) := by
  unfold execPowerLoss
  try dsimp only
  repeat' first | with_reducible assumption | with_reducible apply keeps_onHub | with_reducible intro _ | with_reducible apply powerDown_sound | (with_reducible apply sound_intro; dsimp only; with_reducible apply sound_elim) | split

end Sys2Proof.Machine
end

