-- ==== Sys2Proof/Laws/SoundStartup.lean ====
section
/-! SUPPORT. Every operation of Startup.lean keeps a hub sound. -/

set_option linter.unusedTactic false
set_option linter.unreachableTactic false
set_option linter.unusedVariables false

namespace Sys2Proof.Machine

theorem powerOn_sound (straps : ℕ) (testMode : Bool) (h : Hub) (hp_h : h.Sound) : (powerOn straps testMode h).Sound := by
  unfold powerOn
  try dsimp only
  repeat' first | with_reducible assumption | with_reducible intro _ | with_reducible apply resetHub_sound | (with_reducible apply sound_intro; dsimp only; with_reducible apply sound_elim) | split

theorem execPowerOn_sound (straps : ℕ) (testMode : Bool) : Keeps (execPowerOn straps testMode) := by
  unfold execPowerOn
  try dsimp only
  repeat' first | with_reducible assumption | with_reducible apply keeps_onHub | with_reducible intro _ | with_reducible apply powerOn_sound | (with_reducible apply sound_intro; dsimp only; with_reducible apply sound_elim) | split

theorem resetFall_sound (widthNs : ℕ) (h : Hub) (hp_h : h.Sound) : (resetFall widthNs h).Sound := by
  unfold resetFall
  try dsimp only
  repeat' first | with_reducible assumption | with_reducible intro _ | with_reducible apply takeFree_sound | with_reducible apply resetHub_sound | (with_reducible refine pair_sound ‹_ = (_, _)› ?_) | (with_reducible apply sound_intro; dsimp only; with_reducible apply sound_elim) | split

theorem execResetNFall_sound (widthNs : ℕ) : Keeps (execResetNFall widthNs) := by
  unfold execResetNFall
  try dsimp only
  repeat' first | with_reducible assumption | with_reducible apply keeps_onHub | with_reducible intro _ | with_reducible apply resetFall_sound | (with_reducible apply sound_intro; dsimp only; with_reducible apply sound_elim) | split

theorem resetRise_sound (straps : ℕ) (testMode : Bool) (h : Hub) (hp_h : h.Sound) : (resetRise straps testMode h).Sound := by
  unfold resetRise
  try dsimp only
  repeat' first | with_reducible assumption | with_reducible intro _ | with_reducible apply bootStart_sound | (with_reducible apply sound_intro; dsimp only; with_reducible apply sound_elim) | split

theorem execResetNRise_sound (straps : ℕ) (testMode : Bool) : Keeps (execResetNRise straps testMode) := by
  unfold execResetNRise
  try dsimp only
  repeat' first | with_reducible assumption | with_reducible apply keeps_onHub | with_reducible intro _ | with_reducible apply resetRise_sound | (with_reducible apply sound_intro; dsimp only; with_reducible apply sound_elim) | split

theorem memoryInitDone_sound (ok : Bool) (h : Hub) (hp_h : h.Sound) : (memoryInitDone ok h).Sound := by
  unfold memoryInitDone
  try dsimp only
  repeat' first | with_reducible assumption | with_reducible intro _ | with_reducible apply bootFault_sound | (with_reducible apply sound_intro; dsimp only; with_reducible apply sound_elim) | split

theorem execBootMemoryInitDone_sound (ok : Bool) : Keeps (execBootMemoryInitDone ok) := by
  unfold execBootMemoryInitDone
  try dsimp only
  repeat' first | with_reducible assumption | with_reducible apply keeps_onHub | with_reducible intro _ | with_reducible apply memoryInitDone_sound | (with_reducible apply sound_intro; dsimp only; with_reducible apply sound_elim) | split

theorem knownAnswerDone_sound (results : ℕ) (h : Hub) (hp_h : h.Sound) : (knownAnswerDone results h).Sound := by
  unfold knownAnswerDone
  try dsimp only
  repeat' first | with_reducible assumption | with_reducible intro _ | with_reducible apply bootFault_sound | with_reducible apply testResults_sound | with_reducible apply withApproved_sound | (with_reducible apply sound_intro; dsimp only; with_reducible apply sound_elim) | split

theorem execKnownAnswerTestsDone_sound (results : ℕ) : Keeps (execKnownAnswerTestsDone results) := by
  unfold execKnownAnswerTestsDone
  try dsimp only
  repeat' first | with_reducible assumption | with_reducible apply keeps_onHub | with_reducible intro _ | with_reducible apply knownAnswerDone_sound | (with_reducible apply sound_intro; dsimp only; with_reducible apply sound_elim) | split

theorem imageAccepted_sound (h : Hub) (hp_h : h.Sound) : (imageAccepted h).Sound := by
  unfold imageAccepted
  try dsimp only
  repeat' first | with_reducible assumption | with_reducible intro _ | with_reducible apply wr_sound | (with_reducible apply sound_intro; dsimp only; with_reducible apply sound_elim) | split

theorem imageVerifyDone_sound (okA okB okHost : Bool) (h : Hub) (hp : h.Sound) : (imageVerifyDone okA okB okHost h).Sound := by
  have k := bootFlash_sound okA okB h hp
  unfold imageVerifyDone
  repeat' first
    | with_reducible assumption
    | (with_reducible refine imageAccepted_sound _ (k.2 _ (by rw [‹bootFlash okA okB h = _›])))
    | (have := k.1; rw [‹bootFlash okA okB h = _›] at this; with_reducible exact stopBoot_sound _ _ this)
    | with_reducible apply imageAccepted_sound
    | with_reducible apply imageEntries_sound
    | with_reducible apply stopBoot_sound
    | (with_reducible apply sound_intro; dsimp only; with_reducible apply sound_elim)
    | split

theorem execImageVerifyDone_sound (okA : Bool) (okB : Bool) (okHost : Bool) : Keeps (execImageVerifyDone okA okB okHost) := by
  unfold execImageVerifyDone
  try dsimp only
  repeat' first | with_reducible assumption | with_reducible apply keeps_onHub | with_reducible intro _ | with_reducible apply imageVerifyDone_sound | (with_reducible apply sound_intro; dsimp only; with_reducible apply sound_elim) | split

theorem bootControl_sound (length : ℕ) (h : Hub) (hp_h : h.Sound) : (bootControl length h).Sound := by
  unfold bootControl
  try dsimp only
  repeat' first | with_reducible assumption | with_reducible intro _ | (with_reducible apply sound_intro; dsimp only; with_reducible apply sound_elim) | split

theorem execBootControlWrite_sound (length : ℕ) : Keeps (execBootControlWrite length) := by
  unfold execBootControlWrite
  try dsimp only
  repeat' first | with_reducible assumption | with_reducible apply keeps_onHub | with_reducible intro _ | with_reducible apply bootControl_sound | (with_reducible apply sound_intro; dsimp only; with_reducible apply sound_elim) | split

theorem markFailed_sound (channels : ℕ) (engines : ℕ) (h : Hub) (hp_h : h.Sound) : (markFailed channels engines h).Sound := by
  unfold markFailed
  try dsimp only
  repeat' first | with_reducible assumption | with_reducible intro _ | with_reducible apply markUnusable_sound | with_reducible apply failChannel_sound | with_reducible apply forEach_sound | (with_reducible apply sound_intro; dsimp only; with_reducible apply sound_elim) | split

theorem selftestFault_sound (channels : ℕ) (engines : ℕ) (h : Hub) (hp_h : h.Sound) : (selftestFault channels engines h).Sound := by
  unfold selftestFault
  try dsimp only
  repeat' first | with_reducible assumption | with_reducible intro _ | with_reducible apply raiseFault_sound | (with_reducible apply sound_intro; dsimp only; with_reducible apply sound_elim) | split

theorem benchNumber_sound (h : Hub) (hp_h : h.Sound) : (benchNumber h).Sound := by
  unfold benchNumber
  try dsimp only
  repeat' first | with_reducible assumption | with_reducible intro _ | with_reducible apply wr_sound | (with_reducible apply sound_intro; dsimp only; with_reducible apply sound_elim) | split

theorem enterFresh_sound (h : Hub) (hp_h : h.Sound) : (enterFresh h).Sound := by
  unfold enterFresh
  try dsimp only
  repeat' first | with_reducible assumption | with_reducible intro _ | with_reducible apply changeMode_sound | with_reducible apply benchNumber_sound | (with_reducible apply sound_intro; dsimp only; with_reducible apply sound_elim) | split

theorem backstopRecord_sound (h : Hub) (hp_h : h.Sound) : (backstopRecord h).Sound := by
  unfold backstopRecord
  try dsimp only
  repeat' first | with_reducible assumption | with_reducible intro _ | with_reducible apply raiseFault_sound | (with_reducible apply sound_intro; dsimp only; with_reducible apply sound_elim) | split

theorem selftestDone_sound (channels : ℕ) (engines : ℕ) (h : Hub) (hp_h : h.Sound) : (selftestDone channels engines h).Sound := by
  unfold selftestDone
  try dsimp only
  repeat' first | with_reducible assumption | with_reducible intro _ | with_reducible apply whenDo_sound | with_reducible apply setLimpCause_sound | with_reducible apply selftestFault_sound | with_reducible apply bootSucceeds_sound | with_reducible apply startSerdes_sound | with_reducible apply markFailed_sound | with_reducible apply wr_sound | with_reducible apply enterFresh_sound | with_reducible apply backstopRecord_sound | (with_reducible apply sound_intro; dsimp only; with_reducible apply sound_elim) | split

theorem execFirmwareSelftestDone_sound (channelsFailed : ℕ) (enginesFailed : ℕ) : Keeps (execFirmwareSelftestDone channelsFailed enginesFailed) := by
  unfold execFirmwareSelftestDone
  try dsimp only
  repeat' first | with_reducible assumption | with_reducible apply keeps_onHub | with_reducible intro _ | with_reducible apply selftestDone_sound | (with_reducible apply sound_intro; dsimp only; with_reducible apply sound_elim) | split

theorem execFactoryAuthTimeout_sound : Keeps (execFactoryAuthTimeout) := by
  unfold execFactoryAuthTimeout
  try dsimp only
  repeat' first | with_reducible assumption | with_reducible apply keeps_onHub | with_reducible intro _ | with_reducible apply stopBoot_sound | (with_reducible apply sound_intro; dsimp only; with_reducible apply sound_elim) | split

theorem factoryEntry_sound (h : Hub) (hp_h : h.Sound) : (factoryEntry h).Sound := by
  unfold factoryEntry
  try dsimp only
  repeat' first | with_reducible assumption | with_reducible intro _ | with_reducible apply startSerdes_sound | with_reducible apply changeMode_sound | with_reducible apply zeroise_sound | with_reducible apply withApproved_sound | (with_reducible apply sound_intro; dsimp only; with_reducible apply sound_elim) | split

theorem execFactoryEntry_sound : Keeps (execFactoryEntry) := by
  unfold execFactoryEntry
  try dsimp only
  repeat' first | with_reducible assumption | with_reducible apply keeps_onHub | with_reducible intro _ | with_reducible apply factoryEntry_sound | (with_reducible apply sound_intro; dsimp only; with_reducible apply sound_elim) | split

theorem execRangerWatchdogExpiry_sound : Keeps (execRangerWatchdogExpiry) := by
  unfold execRangerWatchdogExpiry
  try dsimp only
  repeat' first | with_reducible assumption | with_reducible apply keeps_onHub | with_reducible intro _ | with_reducible apply restart_sound | (with_reducible apply sound_intro; dsimp only; with_reducible apply sound_elim) | split

theorem execSoftwareReset_sound (path : Path) (value : ℕ) : Keeps (execSoftwareReset path value) := by
  unfold execSoftwareReset
  try dsimp only
  repeat' first | with_reducible assumption | with_reducible apply keeps_onHub | with_reducible intro _ | with_reducible apply restart_sound | with_reducible apply answered_sound | with_reducible apply pathWrite_sound | (with_reducible apply sound_intro; dsimp only; with_reducible apply sound_elim) | split

theorem gateWatch_sound (h : Hub) (hp_h : h.Sound) : (gateWatch h).Sound := by
  unfold gateWatch
  try dsimp only
  repeat' first | with_reducible assumption | with_reducible intro _ | with_reducible apply raiseEvent_sound | with_reducible apply forEach_sound | (with_reducible apply sound_intro; dsimp only; with_reducible apply sound_elim) | split

theorem blockedTimeout_sound (h : Hub) (hp_h : h.Sound) : (blockedTimeout h).Sound := by
  unfold blockedTimeout
  try dsimp only
  repeat' first | with_reducible assumption | with_reducible intro _ | with_reducible apply raiseEvent_sound | with_reducible apply gateWatch_sound | (with_reducible apply sound_intro; dsimp only; with_reducible apply sound_elim) | split

theorem execCommissionBlockedTimeout_sound : Keeps (execCommissionBlockedTimeout) := by
  unfold execCommissionBlockedTimeout
  try dsimp only
  repeat' first | with_reducible assumption | with_reducible apply keeps_onHub | with_reducible intro _ | with_reducible apply blockedTimeout_sound | (with_reducible apply sound_intro; dsimp only; with_reducible apply sound_elim) | split

theorem runEntry_sound (h : Hub) (hp_h : h.Sound) : (runEntry h).Sound := by
  unfold runEntry
  try dsimp only
  repeat' first | with_reducible assumption | with_reducible intro _ | with_reducible apply whenDo_sound | with_reducible apply unmaskAll_sound | with_reducible apply beginCycles_sound | with_reducible apply changeMode_sound | (with_reducible apply sound_intro; dsimp only; with_reducible apply sound_elim) | split

theorem execRunEntry_sound : Keeps (execRunEntry) := by
  unfold execRunEntry
  try dsimp only
  repeat' first | with_reducible assumption | with_reducible apply keeps_onHub | with_reducible intro _ | with_reducible apply runEntry_sound | (with_reducible apply sound_intro; dsimp only; with_reducible apply sound_elim) | split

theorem execLimpExit_sound : Keeps (execLimpExit) := by
  unfold execLimpExit
  try dsimp only
  repeat' first | with_reducible assumption | with_reducible apply keeps_onHub | with_reducible intro _ | with_reducible apply changeMode_sound | (with_reducible apply sound_intro; dsimp only; with_reducible apply sound_elim) | split

theorem modeRequest_sound (p : Path) (v : ℕ) (from_ : List ℕ) (more : Hub → Causes → Causes) (f : Hub → Hub) (h : Hub) (hf_f : ∀ x, x.Sound → (f x).Sound) (hp_h : h.Sound) : (modeRequest p v from_ more f h).Sound := by
  unfold modeRequest
  try dsimp only
  repeat' first | with_reducible assumption | with_reducible intro _ | with_reducible apply hf_f | with_reducible apply pathWrite_sound | (with_reducible apply sound_intro; dsimp only; with_reducible apply sound_elim) | split

theorem toCommission_sound (h : Hub) (hp_h : h.Sound) : (toCommission h).Sound := by
  unfold toCommission
  try dsimp only
  repeat' first | with_reducible assumption | with_reducible intro _ | with_reducible apply whenDo_sound | with_reducible apply changeMode_sound | with_reducible apply leaveService_sound | (with_reducible apply sound_intro; dsimp only; with_reducible apply sound_elim) | split

theorem execModeRequestCommission_sound (path : Path) : Keeps (execModeRequestCommission path) := by
  unfold execModeRequestCommission
  try dsimp only
  repeat' first | with_reducible assumption | with_reducible apply keeps_onHub | with_reducible intro _ | with_reducible apply toCommission_sound | with_reducible apply modeRequest_sound | (with_reducible apply sound_intro; dsimp only; with_reducible apply sound_elim) | split

theorem toRun_sound (h : Hub) (hp_h : h.Sound) : (toRun h).Sound := by
  unfold toRun
  try dsimp only
  repeat' first | with_reducible assumption | with_reducible intro _ | with_reducible apply changeMode_sound | with_reducible apply wakeRecord_sound | (with_reducible apply sound_intro; dsimp only; with_reducible apply sound_elim) | split

theorem execModeRequestRun_sound (path : Path) : Keeps (execModeRequestRun path) := by
  unfold execModeRequestRun
  try dsimp only
  repeat' first | with_reducible assumption | with_reducible apply keeps_onHub | with_reducible intro _ | with_reducible apply toRun_sound | with_reducible apply modeRequest_sound | (with_reducible apply sound_intro; dsimp only; with_reducible apply sound_elim) | split

theorem sleepResource_sound (j : ℕ) (h : Hub) (hp_h : h.Sound) : (sleepResource j h).Sound := by
  unfold sleepResource
  try dsimp only
  repeat' first | with_reducible assumption | with_reducible intro _ | with_reducible apply groveOff_sound | with_reducible apply setCan_sound | with_reducible apply attemptFails_sound | (with_reducible apply sound_intro; dsimp only; with_reducible apply sound_elim) | split

theorem toClearing_sound (h : Hub) (hp_h : h.Sound) : (toClearing h).Sound := by
  unfold toClearing
  try dsimp only
  repeat' first | with_reducible assumption | with_reducible intro _ | with_reducible apply changeMode_sound | with_reducible apply forEach_sound | with_reducible apply sleepResource_sound | (with_reducible apply sound_intro; dsimp only; with_reducible apply sound_elim) | split

theorem execModeRequestClearing_sound (path : Path) : Keeps (execModeRequestClearing path) := by
  unfold execModeRequestClearing
  try dsimp only
  repeat' first | with_reducible assumption | with_reducible apply keeps_onHub | with_reducible intro _ | with_reducible apply toClearing_sound | with_reducible apply modeRequest_sound | (with_reducible apply sound_intro; dsimp only; with_reducible apply sound_elim) | split

theorem execModeRequestService_sound (path : Path) : Keeps (execModeRequestService path) := by
  unfold execModeRequestService
  try dsimp only
  repeat' first | with_reducible assumption | with_reducible apply keeps_onHub | with_reducible intro _ | with_reducible apply changeMode_sound | with_reducible apply modeRequest_sound | (with_reducible apply sound_intro; dsimp only; with_reducible apply sound_elim) | split

end Sys2Proof.Machine
end

