-- ==== Sys2Proof/Laws/SoundDormant.lean ====
section
/-! SUPPORT. Every operation of Dormant.lean keeps a hub sound. -/

set_option linter.unusedTactic false
set_option linter.unreachableTactic false
set_option linter.unusedVariables false

namespace Sys2Proof.Machine

theorem dormantHub_sound (h : Hub) (hp : h.Sound) : (dormantHub h).Sound :=
  have k := keepAlwaysOn_sound h _ hp (keepFlash_sound h hp)
  ⟨cellsWf_filter _ _ _ hp.1, k.2.1, hp.2.2.1, k.2.2.2⟩

theorem drainAll_sound (h : Hub) (hp_h : h.Sound) : (drainAll h).Sound := by
  unfold drainAll
  try dsimp only
  repeat' first | with_reducible assumption | with_reducible intro _ | with_reducible apply drainCrossings_sound | with_reducible apply forEach_sound | (with_reducible apply sound_intro; dsimp only; with_reducible apply sound_elim) | split

theorem pointOfNoReturn_sound (h : Hub) (hp_h : h.Sound) : (pointOfNoReturn h).Sound := by
  unfold pointOfNoReturn
  try dsimp only
  repeat' first | with_reducible assumption | with_reducible intro _ | with_reducible apply drainAll_sound | with_reducible apply endAttempt_sound | with_reducible apply channelsSleep_sound | with_reducible apply changeMode_sound | with_reducible apply wr_sound | with_reducible apply forEach_sound | with_reducible apply dormantHub_sound | (with_reducible apply sound_intro; dsimp only; with_reducible apply sound_elim) | split

theorem execPointOfNoReturn_sound : Keeps (execPointOfNoReturn) := by
  unfold execPointOfNoReturn
  try dsimp only
  repeat' first | with_reducible assumption | with_reducible apply keeps_onHub | with_reducible intro _ | with_reducible apply pointOfNoReturn_sound | (with_reducible apply sound_intro; dsimp only; with_reducible apply sound_elim) | split

theorem dormantReached_sound (h : Hub) (hp_h : h.Sound) : (dormantReached h).Sound := by
  unfold dormantReached
  try dsimp only
  repeat' first | with_reducible assumption | with_reducible intro _ | with_reducible apply startWake_sound | (with_reducible apply sound_intro; dsimp only; with_reducible apply sound_elim) | split

theorem execDormantReached_sound : Keeps (execDormantReached) := by
  unfold execDormantReached
  try dsimp only
  repeat' first | with_reducible assumption | with_reducible apply keeps_onHub | with_reducible intro _ | with_reducible apply dormantReached_sound | (with_reducible apply sound_intro; dsimp only; with_reducible apply sound_elim) | split

theorem powerGoodPoll_sound (r : ℕ) (status : ℕ) (h : Hub) (hp_h : h.Sound) : (powerGoodPoll r status h).Sound := by
  unfold powerGoodPoll
  try dsimp only
  repeat' first | with_reducible assumption | with_reducible intro _ | with_reducible apply wr_sound | (with_reducible apply sound_intro; dsimp only; with_reducible apply sound_elim) | split

theorem execPowerGoodPoll_sound (rail : Fin 4) (status : ℕ) : Keeps (execPowerGoodPoll rail status) := by
  unfold execPowerGoodPoll
  try dsimp only
  repeat' first | with_reducible assumption | with_reducible apply keeps_onHub | with_reducible intro _ | with_reducible apply powerGoodPoll_sound | (with_reducible apply sound_intro; dsimp only; with_reducible apply sound_elim) | split

theorem powerGoodTimeout_sound (r : ℕ) (h : Hub) (hp_h : h.Sound) : (powerGoodTimeout r h).Sound := by
  unfold powerGoodTimeout
  try dsimp only
  repeat' first | with_reducible assumption | with_reducible intro _ | (with_reducible apply sound_intro; dsimp only; with_reducible apply sound_elim) | split

theorem execPowerGoodTimeout_sound (rail : Fin 4) : Keeps (execPowerGoodTimeout rail) := by
  unfold execPowerGoodTimeout
  try dsimp only
  repeat' first | with_reducible assumption | with_reducible apply keeps_onHub | with_reducible intro _ | with_reducible apply powerGoodTimeout_sound | (with_reducible apply sound_intro; dsimp only; with_reducible apply sound_elim) | split

theorem powerUp_sound (h : Hub) (hp : h.Sound) : (powerUp h).Sound := by
  unfold powerUp
  dsimp only
  refine wr_sound _ _ _ (strapEntries_sound _ _ ?_)
  exact ⟨cellsWf_filter _ _ _ hp.1, hp.2⟩

theorem channelsWake_sound (h : Hub) (hp_h : h.Sound) : (channelsWake h).Sound := by
  unfold channelsWake
  try dsimp only
  repeat' first | with_reducible assumption | with_reducible intro _ | with_reducible apply whenDo_sound | with_reducible apply setLimpCause_sound | with_reducible apply wr_sound | with_reducible apply forEach_sound | with_reducible apply voteMode_sound | (with_reducible apply sound_intro; dsimp only; with_reducible apply sound_elim) | split

theorem restoreFails_sound (domain : ℕ) (h : Hub) (hp_h : h.Sound) : (restoreFails domain h).Sound := by
  unfold restoreFails
  try dsimp only
  repeat' first | with_reducible assumption | with_reducible intro _ | with_reducible apply bump_sound | with_reducible apply raiseFault_sound | (with_reducible apply sound_intro; dsimp only; with_reducible apply sound_elim) | split

theorem busRestore_sound (ok : Bool) (h : Hub) (hp_h : h.Sound) : (busRestore ok h).Sound := by
  unfold busRestore
  try dsimp only
  repeat' first | with_reducible assumption | with_reducible intro _ | with_reducible apply restoreFails_sound | with_reducible apply forEach_sound | with_reducible apply fuseLost_sound | with_reducible apply wrs_sound | (with_reducible apply sound_intro; dsimp only; with_reducible apply sound_elim) | split

theorem domeRestore_sound (ok : Bool) (h : Hub) (hp_h : h.Sound) : (domeRestore ok h).Sound := by
  unfold domeRestore
  try dsimp only
  repeat' first | with_reducible assumption | with_reducible intro _ | with_reducible apply restoreFails_sound | (with_reducible apply sound_intro; dsimp only; with_reducible apply sound_elim) | split

theorem wakeRailFault_sound (h : Hub) (hp_h : h.Sound) : (wakeRailFault h).Sound := by
  unfold wakeRailFault
  try dsimp only
  repeat' first | with_reducible assumption | with_reducible intro _ | with_reducible apply raiseFault_sound | (with_reducible apply sound_intro; dsimp only; with_reducible apply sound_elim) | split

theorem wakeImage_sound (h : Hub) (hp_h : h.Sound) : (wakeImage h).Sound := by
  unfold wakeImage
  try dsimp only
  repeat' first | with_reducible assumption | with_reducible intro _ | with_reducible apply imageEntries_sound | (with_reducible apply sound_intro; dsimp only; with_reducible apply sound_elim) | split

theorem dormantWake_sound (kat : ℕ) (imageOk : Bool) (channels : ℕ) (engines : ℕ) (busOk : Bool) (domeOk : Bool) (h : Hub) (hp_h : h.Sound) : (dormantWake kat imageOk channels engines busOk domeOk h).Sound := by
  unfold dormantWake
  try dsimp only
  repeat' first | with_reducible assumption | with_reducible intro _ | with_reducible apply restart_sound | with_reducible apply advanceEpoch_sound | with_reducible apply wakeImage_sound | with_reducible apply selftestFault_sound | with_reducible apply powerUp_sound | with_reducible apply startSerdes_sound | with_reducible apply busRestore_sound | with_reducible apply domeRestore_sound | with_reducible apply wakeRailFault_sound | with_reducible apply markFailed_sound | with_reducible apply wr_sound | with_reducible apply enterFresh_sound | with_reducible apply channelsWake_sound | with_reducible apply testResults_sound | with_reducible apply withApproved_sound | (with_reducible apply sound_intro; dsimp only; with_reducible apply sound_elim) | split

theorem execDormantWake_sound (kat : ℕ) (imageOk : Bool) (channelsFailed : ℕ) (enginesFailed : ℕ) (busOk : Bool) (domeOk : Bool) : Keeps (execDormantWake kat imageOk channelsFailed enginesFailed busOk domeOk) := by
  unfold execDormantWake
  try dsimp only
  repeat' first | with_reducible assumption | with_reducible apply keeps_onHub | with_reducible intro _ | with_reducible apply dormantWake_sound | (with_reducible apply sound_intro; dsimp only; with_reducible apply sound_elim) | split

end Sys2Proof.Machine
end

