-- ==== Sys2Proof/Laws/SoundWatchtower.lean ====
section
/-! SUPPORT. Every operation of Watchtower.lean keeps a hub sound. -/

set_option linter.unusedTactic false
set_option linter.unreachableTactic false
set_option linter.unusedVariables false

namespace Sys2Proof.Machine

theorem execFaultRaise_sound (code : ℕ) (island : ℕ) (detailA : ℕ) (detailB : ℕ) : Keeps (execFaultRaise code island detailA detailB) := by
  unfold execFaultRaise
  try dsimp only
  repeat' first | with_reducible assumption | with_reducible apply keeps_onHub | with_reducible intro _ | with_reducible apply raiseFault_sound | (with_reducible apply sound_intro; dsimp only; with_reducible apply sound_elim) | split

theorem execFaultCauseGone_sound (code : ℕ) : Keeps (execFaultCauseGone code) := by
  unfold execFaultCauseGone
  try dsimp only
  repeat' first | with_reducible assumption | with_reducible apply keeps_onHub | with_reducible intro _ | with_reducible apply causeGone_sound | (with_reducible apply sound_intro; dsimp only; with_reducible apply sound_elim) | split

theorem endRecord_sound (code : ℕ) (h : Hub) (hp_h : h.Sound) : (endRecord code h).Sound := by
  unfold endRecord
  try dsimp only
  repeat' first | with_reducible assumption | with_reducible intro _ | with_reducible apply whenDo_sound | with_reducible apply reopen_sound | with_reducible apply dropRecord_sound | (with_reducible apply sound_intro; dsimp only; with_reducible apply sound_elim) | split

theorem endAllRecords_sound (h : Hub) (hp_h : h.Sound) : (endAllRecords h).Sound := by
  unfold endAllRecords
  try dsimp only
  repeat' first | with_reducible assumption | with_reducible intro _ | with_reducible apply withReactions_sound | with_reducible apply endRecord_sound | with_reducible apply forEach_sound | (with_reducible apply sound_intro; dsimp only; with_reducible apply sound_elim) | split

theorem acknowledgeWrite_sound (p : Path) (v : ℕ) (h : Hub) (hp_h : h.Sound) : (acknowledgeWrite p v h).Sound := by
  unfold acknowledgeWrite
  try dsimp only
  repeat' first | with_reducible assumption | with_reducible intro _ | with_reducible apply withReactions_sound | with_reducible apply endAllRecords_sound | with_reducible apply endRecord_sound | with_reducible apply pathWrite_sound | (with_reducible apply sound_intro; dsimp only; with_reducible apply sound_elim) | split

theorem execAcknowledge_sound (path : Path) (code : ℕ) : Keeps (execAcknowledge path code) := by
  unfold execAcknowledge
  try dsimp only
  repeat' first | with_reducible assumption | with_reducible apply keeps_onHub | with_reducible intro _ | with_reducible apply acknowledgeWrite_sound | (with_reducible apply sound_intro; dsimp only; with_reducible apply sound_elim) | split

theorem execAcknowledgeAll_sound (path : Path) : Keeps (execAcknowledgeAll path) := by
  unfold execAcknowledgeAll
  try dsimp only
  repeat' first | with_reducible assumption | with_reducible apply keeps_onHub | with_reducible intro _ | with_reducible apply acknowledgeWrite_sound | (with_reducible apply sound_intro; dsimp only; with_reducible apply sound_elim) | split

theorem rearm_sound (h : Hub) (hp_h : h.Sound) : (rearm h).Sound := by
  unfold rearm
  try dsimp only
  repeat' first | with_reducible assumption | with_reducible intro _ | with_reducible apply wrs_sound | (with_reducible apply sound_intro; dsimp only; with_reducible apply sound_elim) | split

theorem rearmWrite_sound (p : Path) (v : ℕ) (h : Hub) (hp_h : h.Sound) : (rearmWrite p v h).Sound := by
  unfold rearmWrite
  try dsimp only
  repeat' first | with_reducible assumption | with_reducible intro _ | with_reducible apply pathWrite_sound | with_reducible apply rearm_sound | (with_reducible apply sound_intro; dsimp only; with_reducible apply sound_elim) | split

theorem execCaptureRearm_sound (path : Path) (value : ℕ) : Keeps (execCaptureRearm path value) := by
  unfold execCaptureRearm
  try dsimp only
  repeat' first | with_reducible assumption | with_reducible apply keeps_onHub | with_reducible intro _ | with_reducible apply rearmWrite_sound | (with_reducible apply sound_intro; dsimp only; with_reducible apply sound_elim) | split

theorem chooseLevel_sound (code : ℕ) (v : ℕ) (h : Hub) (hp_h : h.Sound) : (chooseLevel code v h).Sound := by
  unfold chooseLevel
  try dsimp only
  repeat' first | with_reducible assumption | with_reducible intro _ | with_reducible apply putRecord_sound | (with_reducible apply sound_intro; dsimp only; with_reducible apply sound_elim) | split

theorem reactionEntry_sound (p : Path) (code : ℕ) (v : ℕ) (h : Hub) (hp_h : h.Sound) : (reactionEntry p code v h).Sound := by
  unfold reactionEntry
  try dsimp only
  repeat' first | with_reducible assumption | with_reducible intro _ | with_reducible apply withReactions_sound | with_reducible apply storeEntry_sound | with_reducible apply pathWrite_sound | with_reducible apply chooseLevel_sound | (with_reducible apply sound_intro; dsimp only; with_reducible apply sound_elim) | split

theorem execReactionWrite_sound (path : Path) (code : ℕ) (value : ℕ) : Keeps (execReactionWrite path code value) := by
  unfold execReactionWrite
  try dsimp only
  repeat' first | with_reducible assumption | with_reducible apply keeps_onHub | with_reducible intro _ | with_reducible apply reactionEntry_sound | (with_reducible apply sound_intro; dsimp only; with_reducible apply sound_elim) | split

theorem injected_sound (f : Hub → Hub) (h : Hub) (hf_f : ∀ x, x.Sound → (f x).Sound) (hp_h : h.Sound) : (injected f h).Sound := by
  unfold injected
  try dsimp only
  repeat' first | with_reducible assumption | with_reducible intro _ | with_reducible apply hf_f | (with_reducible apply sound_intro; dsimp only; with_reducible apply sound_elim) | split

theorem arm_sound (point : ℕ) (parameter : ℕ) (h : Hub) (hp_h : h.Sound) : (arm point parameter h).Sound := by
  unfold arm
  try dsimp only
  repeat' first | with_reducible assumption | with_reducible intro _ | (with_reducible apply sound_intro; dsimp only; with_reducible apply sound_elim) | split

theorem inject_sound (point : ℕ) (v : ℕ) (h : Hub) (hp_h : h.Sound) : (inject point v h).Sound := by
  unfold inject
  try dsimp only
  repeat' first | with_reducible assumption | with_reducible intro _ | with_reducible apply fuseTrip_sound | with_reducible apply treeFault_sound | with_reducible apply raiseFault_sound | with_reducible apply takeTick_sound | with_reducible apply voteMinority_sound | with_reducible apply arm_sound | with_reducible apply injected_sound | (with_reducible apply sound_intro; dsimp only; with_reducible apply sound_elim) | split

theorem withdrawAll_sound (h : Hub) (hp_h : h.Sound) : (withdrawAll h).Sound := by
  unfold withdrawAll
  try dsimp only
  repeat' first | with_reducible assumption | with_reducible intro _ | with_reducible apply causeGone_sound | with_reducible apply forEach_sound | (with_reducible apply sound_intro; dsimp only; with_reducible apply sound_elim) | split

theorem injectionWrite_sound (p : Path) (v : ℕ) (h : Hub) (hp_h : h.Sound) : (injectionWrite p v h).Sound := by
  unfold injectionWrite
  try dsimp only
  repeat' first | with_reducible assumption | with_reducible intro _ | with_reducible apply inject_sound | with_reducible apply raiseEvent_sound | with_reducible apply pathWrite_sound | with_reducible apply withdrawAll_sound | (with_reducible apply sound_intro; dsimp only; with_reducible apply sound_elim) | split

theorem execInject_sound (path : Path) : Keeps (execInject path) := by
  unfold execInject
  try dsimp only
  repeat' first | with_reducible assumption | with_reducible apply keeps_onHub | with_reducible intro _ | with_reducible apply injectionWrite_sound | (with_reducible apply sound_intro; dsimp only; with_reducible apply sound_elim) | split

theorem execWithdraw_sound (path : Path) : Keeps (execWithdraw path) := by
  unfold execWithdraw
  try dsimp only
  repeat' first | with_reducible assumption | with_reducible apply keeps_onHub | with_reducible intro _ | with_reducible apply injectionWrite_sound | (with_reducible apply sound_intro; dsimp only; with_reducible apply sound_elim) | split

theorem execEventRaise_sound (number : ℕ) (inst : ℕ) (value : ℕ) : Keeps (execEventRaise number inst value) := by
  unfold execEventRaise
  try dsimp only
  repeat' first | with_reducible assumption | with_reducible apply keeps_onHub | with_reducible intro _ | with_reducible apply raiseEvent_sound | (with_reducible apply sound_intro; dsimp only; with_reducible apply sound_elim) | split

theorem ringEvent_sound (src : ℕ) (channel : ℕ) (number : ℕ) (inst : ℕ) (value : ℕ) (sec : ℕ) (ns : ℕ) (h : Hub) (hp_h : h.Sound) : (ringEvent src channel number inst value sec ns h).Sound := by
  unfold ringEvent
  try dsimp only
  repeat' first | with_reducible assumption | with_reducible intro _ | with_reducible apply bump_sound | with_reducible apply raiseEvent_sound | with_reducible apply wrs_sound | (with_reducible apply sound_intro; dsimp only; with_reducible apply sound_elim) | split

theorem execRingEvent_sound (src : ℕ) (channel : Fin 8) (number : ℕ) (inst : ℕ) (value : ℕ) (sec : ℕ) (ns : ℕ) : Keeps (execRingEvent src channel number inst value sec ns) := by
  unfold execRingEvent
  try dsimp only
  repeat' first | with_reducible assumption | with_reducible apply keeps_onHub | with_reducible intro _ | with_reducible apply ringEvent_sound | (with_reducible apply sound_intro; dsimp only; with_reducible apply sound_elim) | split

end Sys2Proof.Machine
end

