-- ==== Sys2Proof/Laws/SoundRecord.lean ====
section
/-! SUPPORT. Every operation of Record.lean keeps a hub sound. -/

set_option linter.unusedTactic false
set_option linter.unreachableTactic false
set_option linter.unusedVariables false

namespace Sys2Proof.Machine

theorem startStore_sound (h : Hub) (hp_h : h.Sound) : (startStore h).Sound := by
  unfold startStore
  try dsimp only
  repeat' first | with_reducible assumption | with_reducible intro _ | with_reducible apply wr_sound | (with_reducible apply sound_intro; dsimp only; with_reducible apply sound_elim) | split

theorem storeWrite_sound (p : Path) (v : ℕ) (h : Hub) (hp_h : h.Sound) : (storeWrite p v h).Sound := by
  unfold storeWrite
  try dsimp only
  repeat' first | with_reducible assumption | with_reducible intro _ | with_reducible apply startStore_sound | with_reducible apply pathWrite_sound | (with_reducible apply sound_intro; dsimp only; with_reducible apply sound_elim) | split

theorem execStoreParameters_sound (path : Path) (value : ℕ) : Keeps (execStoreParameters path value) := by
  unfold execStoreParameters
  try dsimp only
  repeat' first | with_reducible assumption | with_reducible apply keeps_onHub | with_reducible intro _ | with_reducible apply storeWrite_sound | (with_reducible apply sound_intro; dsimp only; with_reducible apply sound_elim) | split

theorem setCopy_sound (toB : Bool) (c : ConfigCopy) (h : Hub) (hp_h : h.Sound) : (setCopy toB c h).Sound := by
  unfold setCopy
  try dsimp only
  repeat' first | with_reducible assumption | with_reducible intro _ | (with_reducible apply sound_intro; dsimp only; with_reducible apply sound_elim) | split

theorem storeEnds_sound (ok : Bool) (h : Hub) (hp_h : h.Sound) : (storeEnds ok h).Sound := by
  unfold storeEnds
  try dsimp only
  repeat' first | with_reducible assumption | with_reducible intro _ | with_reducible apply setCopy_sound | with_reducible apply raiseEvent_sound | with_reducible apply wrTime_sound | with_reducible apply wrs_sound | (with_reducible apply sound_intro; dsimp only; with_reducible apply sound_elim) | split

theorem execStoreComplete_sound (ok : Bool) : Keeps (execStoreComplete ok) := by
  unfold execStoreComplete
  try dsimp only
  repeat' first | with_reducible assumption | with_reducible apply keeps_onHub | with_reducible intro _ | with_reducible apply storeEnds_sound | (with_reducible apply sound_intro; dsimp only; with_reducible apply sound_elim) | split

theorem invalidateCopies_sound (h : Hub) (hp_h : h.Sound) : (invalidateCopies h).Sound := by
  unfold invalidateCopies
  try dsimp only
  repeat' first | with_reducible assumption | with_reducible intro _ | (with_reducible apply sound_intro; dsimp only; with_reducible apply sound_elim) | split

theorem restoreWrite_sound (p : Path) (v : ℕ) (h : Hub) (hp_h : h.Sound) : (restoreWrite p v h).Sound := by
  unfold restoreWrite
  try dsimp only
  repeat' first | with_reducible assumption | with_reducible intro _ | with_reducible apply invalidateCopies_sound | with_reducible apply pathWrite_sound | (with_reducible apply sound_intro; dsimp only; with_reducible apply sound_elim) | split

theorem execRestoreDefaultParameters_sound (path : Path) (value : ℕ) : Keeps (execRestoreDefaultParameters path value) := by
  unfold execRestoreDefaultParameters
  try dsimp only
  repeat' first | with_reducible assumption | with_reducible apply keeps_onHub | with_reducible intro _ | with_reducible apply restoreWrite_sound | (with_reducible apply sound_intro; dsimp only; with_reducible apply sound_elim) | split

theorem commitWrite_sound (p : Path) (v : ℕ) (h : Hub) (hp_h : h.Sound) : (commitWrite p v h).Sound := by
  unfold commitWrite
  try dsimp only
  repeat' first | with_reducible assumption | with_reducible intro _ | with_reducible apply pathWrite_sound | (with_reducible apply sound_intro; dsimp only; with_reducible apply sound_elim) | split

theorem execConfigurationCommit_sound (path : Path) (value : ℕ) : Keeps (execConfigurationCommit path value) := by
  unfold execConfigurationCommit
  try dsimp only
  repeat' first | with_reducible assumption | with_reducible apply keeps_onHub | with_reducible intro _ | with_reducible apply commitWrite_sound | (with_reducible apply sound_intro; dsimp only; with_reducible apply sound_elim) | split

theorem corruptCopy_sound (n : ℕ) (c : Option ConfigCopy) (h : Hub) (hp_h : h.Sound) : (corruptCopy n c h).Sound := by
  unfold corruptCopy
  try dsimp only
  repeat' first | with_reducible assumption | with_reducible intro _ | with_reducible apply raiseFault_sound | (with_reducible apply sound_intro; dsimp only; with_reducible apply sound_elim) | split

theorem ignored_sound (n : ℕ) (h : Hub) (hp_h : h.Sound) : (ignored n h).Sound := by
  unfold ignored
  try dsimp only
  repeat' first | with_reducible assumption | with_reducible intro _ | with_reducible apply wr_sound | (with_reducible apply sound_intro; dsimp only; with_reducible apply sound_elim) | split

theorem knownLoaded_sound (es : List (ℕ × Word)) (h : Hub) (hp_h : h.Sound) : (knownLoaded es h).Sound := by
  unfold knownLoaded
  try dsimp only
  repeat' first | with_reducible assumption | with_reducible intro _ | with_reducible apply forEach_sound | with_reducible apply wrW_sound | (with_reducible apply sound_intro; dsimp only; with_reducible apply sound_elim) | split

theorem loadEntries_sound (es : List (ℕ × Word)) (h : Hub) (hp_h : h.Sound) : (loadEntries es h).Sound := by
  unfold loadEntries
  try dsimp only
  repeat' first | with_reducible assumption | with_reducible intro _ | with_reducible apply knownLoaded_sound | with_reducible apply toDefault_sound | with_reducible apply forEach_sound | with_reducible apply ignored_sound | (with_reducible apply sound_intro; dsimp only; with_reducible apply sound_elim) | split

theorem migrateEntries_sound (version : ℕ) (es : List (ℕ × Word)) (h : Hub) (hp_h : h.Sound) : (migrateEntries version es h).Sound := by
  unfold migrateEntries
  try dsimp only
  repeat' first | with_reducible assumption | with_reducible intro _ | with_reducible apply loadEntries_sound | with_reducible apply ignored_sound | (with_reducible apply sound_intro; dsimp only; with_reducible apply sound_elim) | split

theorem recordLoaded_sound (c : ConfigCopy) (result : ℕ) (h : Hub) (hp_h : h.Sound) : (recordLoaded c result h).Sound := by
  unfold recordLoaded
  try dsimp only
  repeat' first | with_reducible assumption | with_reducible intro _ | with_reducible apply wrs_sound | (with_reducible apply sound_intro; dsimp only; with_reducible apply sound_elim) | split

theorem loadRecord_sound (c : ConfigCopy) (h : Hub) (hp_h : h.Sound) : (loadRecord c h).Sound := by
  unfold loadRecord
  try dsimp only
  repeat' first | with_reducible assumption | with_reducible intro _ | with_reducible apply loadEntries_sound | with_reducible apply wr_sound | with_reducible apply migrateEntries_sound | with_reducible apply recordLoaded_sound | (with_reducible apply sound_intro; dsimp only; with_reducible apply sound_elim) | split

theorem configurationTaken_sound (h : Hub) (hp_h : h.Sound) : (configurationTaken h).Sound := by
  unfold configurationTaken
  try dsimp only
  repeat' first | with_reducible assumption | with_reducible intro _ | with_reducible apply whenDo_sound | with_reducible apply foresterUpdate_sound | with_reducible apply setLimit_sound | with_reducible apply nodeIdUpdate_sound | with_reducible apply setEnable_sound | with_reducible apply fillCredits_sound | with_reducible apply forEach_sound | with_reducible apply fuseLost_sound | (with_reducible apply sound_intro; dsimp only; with_reducible apply sound_elim) | split

theorem loadBegun_sound (h : Hub) (hp_h : h.Sound) : (loadBegun h).Sound := by
  unfold loadBegun
  try dsimp only
  repeat' first | with_reducible assumption | with_reducible intro _ | with_reducible apply corruptCopy_sound | with_reducible apply wrs_sound | (with_reducible apply sound_intro; dsimp only; with_reducible apply sound_elim) | split

theorem loadFinished_sound (h : Hub) (hp_h : h.Sound) : (loadFinished h).Sound := by
  unfold loadFinished
  try dsimp only
  repeat' first | with_reducible assumption | with_reducible intro _ | with_reducible apply configurationTaken_sound | (with_reducible apply sound_intro; dsimp only; with_reducible apply sound_elim) | split

theorem loadDone_sound (h : Hub) (hp_h : h.Sound) : (loadDone h).Sound := by
  unfold loadDone
  try dsimp only
  repeat' first | with_reducible assumption | with_reducible intro _ | with_reducible apply loadFinished_sound | with_reducible apply loadRecord_sound | with_reducible apply loadBegun_sound | with_reducible apply withApproved_sound | (with_reducible apply sound_intro; dsimp only; with_reducible apply sound_elim) | split

theorem execConfigurationLoadDone_sound : Keeps (execConfigurationLoadDone) := by
  unfold execConfigurationLoadDone
  try dsimp only
  repeat' first | with_reducible assumption | with_reducible apply keeps_onHub | with_reducible intro _ | with_reducible apply loadDone_sound | (with_reducible apply sound_intro; dsimp only; with_reducible apply sound_elim) | split

end Sys2Proof.Machine
end

