-- ==== Sys2Proof/Laws/SoundAccess.lean ====
section
/-! SUPPORT. Every operation of Access.lean keeps a hub sound. -/

set_option linter.unusedTactic false
set_option linter.unreachableTactic false
set_option linter.unusedVariables false

namespace Sys2Proof.Machine

theorem longRead_sound (p : Path) (index : ℕ) (f : ℕ) (n : ℕ) (j : ℕ) (h : Hub) (hp_h : h.Sound) : (longRead p index f n j h).2.Sound := by
  unfold longRead
  try dsimp only
  repeat' first | with_reducible assumption | with_reducible intro _ | with_reducible apply setPath_sound | (with_reducible apply sound_intro; dsimp only; with_reducible apply sound_elim) | split

theorem readEffect_sound (p : Path) (index : ℕ) (sub : ℕ) (h : Hub) (hp_h : h.Sound) : (readEffect p index sub h).Sound := by
  unfold readEffect
  try dsimp only
  repeat' first | with_reducible assumption | with_reducible intro _ | with_reducible apply wr_sound | with_reducible apply setT1s_sound | with_reducible apply bufLatch_sound | (with_reducible apply sound_intro; dsimp only; with_reducible apply sound_elim) | split

theorem slotRead_sound (p : Path) (index : ℕ) (sub : ℕ) (h : Hub) (hp_h : h.Sound) : (slotRead p index sub h).2.Sound := by
  unfold slotRead
  try dsimp only
  repeat' first | with_reducible assumption | with_reducible intro _ | with_reducible apply longRead_sound | with_reducible apply setPath_sound | with_reducible apply readEffect_sound | (with_reducible refine pair_sound ‹_ = (_, _)› ?_) | (with_reducible apply sound_intro; dsimp only; with_reducible apply sound_elim) | split

theorem barrierStart_sound (p : Path) (h : Hub) (hp_h : h.Sound) : (barrierStart p h).Sound := by
  unfold barrierStart
  try dsimp only
  repeat' first | with_reducible assumption | with_reducible intro _ | with_reducible apply putItem_sound | with_reducible apply answered_sound | with_reducible apply refuse_sound | (with_reducible apply sound_intro; dsimp only; with_reducible apply sound_elim) | split

theorem refuseRead_sound (p : Path) (index : ℕ) (sub : ℕ) (c : ℕ) (h : Hub) (hp_h : h.Sound) : (refuseRead p index sub c h).Sound := by
  unfold refuseRead
  try dsimp only
  repeat' first | with_reducible assumption | with_reducible intro _ | with_reducible apply whenDo_sound | with_reducible apply bump_sound | with_reducible apply refuse_sound | (with_reducible apply sound_intro; dsimp only; with_reducible apply sound_elim) | split

theorem msixWrite_sound (index : ℕ) (sub : ℕ) (v : ℕ) (h : Hub) (hp_h : h.Sound) : (msixWrite index sub v h).Sound := by
  unfold msixWrite
  try dsimp only
  repeat' first | with_reducible assumption | with_reducible intro _ | (with_reducible apply sound_intro; dsimp only; with_reducible apply sound_elim) | split

theorem readSlot_sound (p : Path) (index : ℕ) (sub : ℕ) (h0 : Hub) (hp_h0 : h0.Sound) : (readSlot p index sub h0).Sound := by
  unfold readSlot
  try dsimp only
  repeat' first | with_reducible assumption | with_reducible intro _ | with_reducible apply refuseRead_sound | with_reducible apply holdAccess_sound | with_reducible apply hostTlp_sound | with_reducible apply barrierStart_sound | with_reducible apply answered_sound | with_reducible apply readTouch_sound | with_reducible apply processRead_sound | with_reducible apply slotRead_sound | (with_reducible refine pair_sound ‹_ = (_, _)› ?_) | (with_reducible apply sound_intro; dsimp only; with_reducible apply sound_elim) | split

theorem execBarrierRead_sound (path : Path) : Keeps (execBarrierRead path) := by
  unfold execBarrierRead
  try dsimp only
  repeat' first | with_reducible assumption | with_reducible apply keeps_onHub | with_reducible intro _ | with_reducible apply readSlot_sound | (with_reducible apply sound_intro; dsimp only; with_reducible apply sound_elim) | split

theorem hardwareUpdate_sound (index : ℕ) (sub : ℕ) (update : ℕ) (h : Hub) (hp_h : h.Sound) : (hardwareUpdate index sub update h).Sound := by
  unfold hardwareUpdate
  try dsimp only
  repeat' first | with_reducible assumption | with_reducible intro _ | with_reducible apply wr_sound | (with_reducible apply sound_intro; dsimp only; with_reducible apply sound_elim) | split

theorem execRcRead_sound (path : Path) (index : ℕ) (sub : ℕ) (update : ℕ) : Keeps (execRcRead path index sub update) := by
  unfold execRcRead
  try dsimp only
  repeat' first | with_reducible assumption | with_reducible apply keeps_onHub | with_reducible intro _ | with_reducible apply hardwareUpdate_sound | with_reducible apply readSlot_sound | (with_reducible apply sound_intro; dsimp only; with_reducible apply sound_elim) | split

theorem execTimeLowerRead_sound (path : Path) (index : ℕ) (sub : ℕ) : Keeps (execTimeLowerRead path index sub) := by
  unfold execTimeLowerRead
  try dsimp only
  repeat' first | with_reducible assumption | with_reducible apply keeps_onHub | with_reducible intro _ | with_reducible apply readSlot_sound | (with_reducible apply sound_intro; dsimp only; with_reducible apply sound_elim) | split

theorem execLongEntryFirstRead_sound (path : Path) (index : ℕ) (sub : ℕ) : Keeps (execLongEntryFirstRead path index sub) := by
  unfold execLongEntryFirstRead
  try dsimp only
  repeat' first | with_reducible assumption | with_reducible apply keeps_onHub | with_reducible intro _ | with_reducible apply readSlot_sound | (with_reducible apply sound_intro; dsimp only; with_reducible apply sound_elim) | split

theorem hostLowRead_sound (index : ℕ) (sub : ℕ) (h : Hub) (hp_h : h.Sound) : (hostLowRead index sub h).Sound := by
  unfold hostLowRead
  try dsimp only
  repeat' first | with_reducible assumption | with_reducible intro _ | with_reducible apply answered_sound | with_reducible apply readSlot_sound | (with_reducible apply sound_intro; dsimp only; with_reducible apply sound_elim) | split

theorem hostHighRead_sound (index : ℕ) (sub : ℕ) (h0 : Hub) (hp_h0 : h0.Sound) : (hostHighRead index sub h0).Sound := by
  unfold hostHighRead
  try dsimp only
  repeat' first | with_reducible assumption | with_reducible intro _ | with_reducible apply refuseRead_sound | with_reducible apply hostTlp_sound | with_reducible apply answered_sound | with_reducible apply readTouch_sound | (with_reducible apply sound_intro; dsimp only; with_reducible apply sound_elim) | split

theorem hostMisread_sound (index : ℕ) (sub : ℕ) (h0 : Hub) (hp_h0 : h0.Sound) : (hostMisread index sub h0).Sound := by
  unfold hostMisread
  try dsimp only
  repeat' first | with_reducible assumption | with_reducible intro _ | with_reducible apply refuseRead_sound | with_reducible apply bump_sound | with_reducible apply hostTlp_sound | with_reducible apply answered_sound | with_reducible apply readTouch_sound | (with_reducible apply sound_intro; dsimp only; with_reducible apply sound_elim) | split

theorem hostRead_sound (index : ℕ) (sub : ℕ) (off : ℕ) (size : ℕ) (h : Hub) (hp_h : h.Sound) : (hostRead index sub off size h).Sound := by
  unfold hostRead
  try dsimp only
  repeat' first | with_reducible assumption | with_reducible intro _ | with_reducible apply holdAccess_sound | with_reducible apply hostHighRead_sound | with_reducible apply readSlot_sound | with_reducible apply hostMisread_sound | with_reducible apply hostLowRead_sound | (with_reducible apply sound_intro; dsimp only; with_reducible apply sound_elim) | split

theorem execHostWindowLowRead_sound (slot : SlotName) (span : ByteSpan) : Keeps (execHostWindowLowRead slot span) := by
  unfold execHostWindowLowRead
  try dsimp only
  repeat' first | with_reducible assumption | with_reducible apply keeps_onHub | with_reducible intro _ | with_reducible apply hostRead_sound | (with_reducible apply sound_intro; dsimp only; with_reducible apply sound_elim) | split

theorem rowEffect_sound {f : State → Host.Outcome State Fault Refusal} (c : Keeps f) (h : Hub) (hp : h.Sound) :
    (rowEffect f h).Sound := by
  unfold rowEffect
  split
  · next e => exact c _ _ hp e
  · exact hp

theorem withFree_sound {f : Word → State → Host.Outcome State Fault Refusal} (c : ∀ w, Keeps (f w)) (h : Hub) (hp : h.Sound) :
    (withFree f h).Sound := rowEffect_sound (c _) _ (takeFree_sound _ hp)

theorem freeAnswers_sound (y0 : List ℕ) (h : Hub) (hp : h.Sound) : (freeAnswers y0 h).2.Sound := by
  revert hp
  fun_induction freeAnswers y0 h <;> intro hp <;> (try dsimp only) <;>
  repeat' first | with_reducible assumption | with_reducible intro _ | with_reducible apply takeFree_sound | (with_reducible refine pair_sound ‹_ = (_, _)› ?_) | (with_reducible apply sound_intro; dsimp only; with_reducible apply sound_elim) | (with_reducible apply_assumption) | split

theorem activateWrite_sound (p : Path) (h : Hub) (hp_h : h.Sound) : (activateWrite p h).Sound := by
  unfold activateWrite
  try dsimp only
  repeat' first | with_reducible assumption | with_reducible intro _ | with_reducible apply execUpdateActivate_sound | with_reducible apply freeAnswers_sound | with_reducible apply rowEffect_sound | (with_reducible refine pair_sound ‹_ = (_, _)› ?_) | (with_reducible apply sound_intro; dsimp only; with_reducible apply sound_elim) | split

theorem modeWrite_sound (p : Path) (v : ℕ) : AllKeep (modeWrite p v) := by
  unfold modeWrite
  try dsimp only
  repeat' first | with_reducible assumption | with_reducible apply allKeep_ite | with_reducible apply allKeep_none | with_reducible apply allKeep_some | with_reducible intro _ | with_reducible apply execModeRequestService_sound | with_reducible apply execModeRequestClearing_sound | with_reducible apply rowEffect_sound | with_reducible apply execModeRequestRun_sound | with_reducible apply execModeRequestCommission_sound | (with_reducible apply sound_intro; dsimp only; with_reducible apply sound_elim) | split

theorem engineWrite_sound (p : Path) (n : Fin 64) (v : ℕ) : AllKeep (engineWrite p n v) := by
  unfold engineWrite
  try dsimp only
  repeat' first | with_reducible assumption | with_reducible apply allKeep_ite | with_reducible apply allKeep_none | with_reducible apply allKeep_some | with_reducible intro _ | with_reducible apply execHalt_sound | with_reducible apply withFree_sound | with_reducible apply execLoad_sound | with_reducible apply rowEffect_sound | with_reducible apply execEngineStep_sound | with_reducible apply execFlush_sound | with_reducible apply execResume_sound | with_reducible apply execLoadClean_sound | (with_reducible apply sound_intro; dsimp only; with_reducible apply sound_elim) | split

theorem fifoWrite_sound (p : Path) (f : Fin 128) (v : ℕ) : AllKeep (fifoWrite p f v) := by
  unfold fifoWrite
  try dsimp only
  repeat' first | with_reducible assumption | with_reducible apply allKeep_ite | with_reducible apply allKeep_none | with_reducible apply allKeep_some | with_reducible intro _ | with_reducible apply execMark_sound | with_reducible apply rowEffect_sound | with_reducible apply execRewind_sound | with_reducible apply execRelease_sound | (with_reducible apply sound_intro; dsimp only; with_reducible apply sound_elim) | split

theorem updateWrite_sound (p : Path) (v : ℕ) : AllKeep (updateWrite p v) := by
  unfold updateWrite
  try dsimp only
  repeat' first | with_reducible assumption | with_reducible apply allKeep_ite | with_reducible apply allKeep_none | with_reducible apply allKeep_some | with_reducible intro _ | with_reducible apply activateWrite_sound | with_reducible apply execUpdateBegin_sound | with_reducible apply execUpdateRevert_sound | with_reducible apply withFree_sound | with_reducible apply execUpdateFinish_sound | with_reducible apply execUpdateConfirm_sound | with_reducible apply rowEffect_sound | with_reducible apply execUpdateAbandon_sound | (with_reducible apply sound_intro; dsimp only; with_reducible apply sound_elim) | split

theorem domeWrite_sound (p : Path) (index : ℕ) (v : ℕ) : AllKeep (domeWrite p index v) := by
  unfold domeWrite
  try dsimp only
  repeat' first | with_reducible assumption | with_reducible apply allKeep_ite | with_reducible apply allKeep_none | with_reducible apply allKeep_some | with_reducible intro _ | with_reducible apply execZeroise_sound | with_reducible apply withFree_sound | with_reducible apply execCryptoOfficerRoleRequest_sound | with_reducible apply execOperatorRoleRequest_sound | with_reducible apply rowEffect_sound | with_reducible apply execSessionEnd_sound | with_reducible apply execEpochAdvance_sound | with_reducible apply execSelfTests_sound | (with_reducible apply sound_intro; dsimp only; with_reducible apply sound_elim) | split

theorem canWrite_sound (p : Path) (c : Fin 16) (sub : ℕ) (v : ℕ) : AllKeep (canWrite p c sub v) := by
  unfold canWrite
  try dsimp only
  repeat' first | with_reducible assumption | with_reducible apply allKeep_ite | with_reducible apply allKeep_none | with_reducible apply allKeep_some | with_reducible intro _ | with_reducible apply execCanSettingsWrite_sound | with_reducible apply execClearBusOffRecord_sound | with_reducible apply rowEffect_sound | with_reducible apply execTransmitAbort_sound | with_reducible apply execBusOffRestart_sound | with_reducible apply execTransmitRequest_sound | (with_reducible apply sound_intro; dsimp only; with_reducible apply sound_elim) | split

theorem fuseWrite_sound (p : Path) (n : Fin 16) (index : ℕ) (sub : ℕ) (v : ℕ) : AllKeep (fuseWrite p n index sub v) := by
  unfold fuseWrite
  try dsimp only
  repeat' first | with_reducible assumption | with_reducible apply allKeep_ite | with_reducible apply allKeep_none | with_reducible apply allKeep_some | with_reducible intro _ | with_reducible apply execClearLockout_sound | with_reducible apply rowEffect_sound | with_reducible apply execClearSuspect_sound | with_reducible apply execChannelEnableWrite_sound | with_reducible apply execCurrentLimitWrite_sound | (with_reducible apply sound_intro; dsimp only; with_reducible apply sound_elim) | split

theorem singleWrite_sound (p : Path) (index : ℕ) (sub : ℕ) (v : ℕ) : AllKeep (singleWrite p index sub v) := by
  unfold singleWrite
  try dsimp only
  repeat' first | with_reducible assumption | with_reducible apply allKeep_ite | with_reducible apply allKeep_none | with_reducible apply allKeep_some | with_reducible intro _ | with_reducible apply commitWrite_sound | with_reducible apply storeWrite_sound | with_reducible apply rearmWrite_sound | with_reducible apply execWakeConfirmation_sound | with_reducible apply restoreWrite_sound | with_reducible apply execChannelRelease_sound | with_reducible apply execMoveRequestStart_sound | with_reducible apply execNodeIdWrite_sound | with_reducible apply modeWrite_sound | with_reducible apply execTransmitDisableWrite_sound | with_reducible apply execSoftwareReset_sound | with_reducible apply execInstallCommand_sound | with_reducible apply execReachFlush_sound | with_reducible apply domeWrite_sound | with_reducible apply injectionWrite_sound | with_reducible apply rowEffect_sound | with_reducible apply acknowledgeWrite_sound | with_reducible apply execWakeUnmask_sound | with_reducible apply updateWrite_sound | (with_reducible apply sound_intro; dsimp only; with_reducible apply sound_elim) | split

theorem mailboxDone_sound (status : ℕ) (h : Hub) (hp_h : h.Sound) : (mailboxDone status h).Sound := by
  unfold mailboxDone
  try dsimp only
  repeat' first | with_reducible assumption | with_reducible intro _ | with_reducible apply raiseEvent_sound | with_reducible apply wr_sound | (with_reducible apply sound_intro; dsimp only; with_reducible apply sound_elim) | split

theorem mailboxStart_sound (op : ℕ) (h : Hub) (hp_h : h.Sound) : (mailboxStart op h).Sound := by
  unfold mailboxStart
  try dsimp only
  repeat' first | with_reducible assumption | with_reducible intro _ | with_reducible apply mailboxDone_sound | with_reducible apply wr_sound | with_reducible apply originate_sound | (with_reducible apply sound_intro; dsimp only; with_reducible apply sound_elim) | split

theorem mailboxWrite_sound (p : Path) (op : ℕ) (h : Hub) (hp_h : h.Sound) : (mailboxWrite p op h).Sound := by
  unfold mailboxWrite
  try dsimp only
  repeat' first | with_reducible assumption | with_reducible intro _ | with_reducible apply mailboxStart_sound | with_reducible apply pathWrite_sound | (with_reducible apply sound_intro; dsimp only; with_reducible apply sound_elim) | split

theorem execMailboxRead_sound (path : Path) : Keeps (execMailboxRead path) := by
  unfold execMailboxRead
  try dsimp only
  repeat' first | with_reducible assumption | with_reducible apply keeps_onHub | with_reducible intro _ | with_reducible apply mailboxWrite_sound | (with_reducible apply sound_intro; dsimp only; with_reducible apply sound_elim) | split

theorem execMailboxWrite_sound (path : Path) : Keeps (execMailboxWrite path) := by
  unfold execMailboxWrite
  try dsimp only
  repeat' first | with_reducible assumption | with_reducible apply keeps_onHub | with_reducible intro _ | with_reducible apply mailboxWrite_sound | (with_reducible apply sound_intro; dsimp only; with_reducible apply sound_elim) | split

theorem mailboxResponse_sound (tag : ℕ) (status : ℕ) (data : ℕ) (h : Hub) (hp_h : h.Sound) : (mailboxResponse tag status data h).Sound := by
  unfold mailboxResponse
  try dsimp only
  repeat' first | with_reducible assumption | with_reducible intro _ | with_reducible apply whenDo_sound | with_reducible apply mailboxDone_sound | with_reducible apply wr_sound | (with_reducible apply sound_intro; dsimp only; with_reducible apply sound_elim) | split

theorem execMailboxResponse_sound (tag : ℕ) (status : ℕ) (data : ℕ) : Keeps (execMailboxResponse tag status data) := by
  unfold execMailboxResponse
  try dsimp only
  repeat' first | with_reducible assumption | with_reducible apply keeps_onHub | with_reducible intro _ | with_reducible apply mailboxResponse_sound | (with_reducible apply sound_intro; dsimp only; with_reducible apply sound_elim) | split

theorem execMailboxTimeout_sound : Keeps (execMailboxTimeout) := by
  unfold execMailboxTimeout
  try dsimp only
  repeat' first | with_reducible assumption | with_reducible apply keeps_onHub | with_reducible intro _ | with_reducible apply mailboxDone_sound | (with_reducible apply sound_intro; dsimp only; with_reducible apply sound_elim) | split

theorem ownWrite_sound (p : Path) (index : ℕ) (sub : ℕ) (v : ℕ) : AllKeep (ownWrite p index sub v) := by
  unfold ownWrite
  try dsimp only
  repeat' first | with_reducible assumption | with_reducible apply allKeep_ite | with_reducible apply allKeep_none | with_reducible apply allKeep_some | with_reducible intro _ | with_reducible apply execRingPortRetrain_sound | with_reducible apply singleWrite_sound | with_reducible apply execPageBudgetWrite_sound | with_reducible apply engineWrite_sound | with_reducible apply canWrite_sound | with_reducible apply mailboxWrite_sound | with_reducible apply execTransmitDoorbell_sound | with_reducible apply execProcessObjectWrite_sound | with_reducible apply rowEffect_sound | with_reducible apply execDefinitionWrite_sound | with_reducible apply fifoWrite_sound | with_reducible apply reactionEntry_sound | with_reducible apply fuseWrite_sound | (with_reducible apply sound_intro; dsimp only; with_reducible apply sound_elim) | split

theorem softwareVote_sound (d : ℕ) (v : ℕ) (h : Hub) (hp_h : h.Sound) : (softwareVote d v h).Sound := by
  unfold softwareVote
  try dsimp only
  repeat' first | with_reducible assumption | with_reducible intro _ | with_reducible apply groveVoteClear_sound | with_reducible apply voteReturned_sound | (with_reducible apply sound_intro; dsimp only; with_reducible apply sound_elim) | split

theorem afterWrite_sound (index : ℕ) (sub : ℕ) (v : ℕ) (h : Hub) (hp_h : h.Sound) : (afterWrite index sub v h).Sound := by
  unfold afterWrite
  try dsimp only
  repeat' first | with_reducible assumption | with_reducible intro _ | with_reducible apply whenDo_sound | with_reducible apply fuseEval_sound | with_reducible apply sleepRequestWritten_sound | with_reducible apply plcaWritten_sound | with_reducible apply takeTick_sound | with_reducible apply nodeIdUpdate_sound | with_reducible apply fuseEvalAll_sound | with_reducible apply softwareVote_sound | with_reducible apply fillCredits_sound | with_reducible apply inspectScores_sound | with_reducible apply todWritten_sound | (with_reducible apply sound_intro; dsimp only; with_reducible apply sound_elim) | split

theorem storeWritten_sound (p : Path) (index : ℕ) (sub : ℕ) (v : ℕ) (h : Hub) (hp_h : h.Sound) : (storeWritten p index sub v h).Sound := by
  unfold storeWritten
  try dsimp only
  repeat' first | with_reducible assumption | with_reducible intro _ | with_reducible apply storeEntry_sound | with_reducible apply bufUnlatch_sound | with_reducible apply bufContent_sound | with_reducible apply afterWrite_sound | with_reducible apply withApproved_sound | (with_reducible apply sound_intro; dsimp only; with_reducible apply sound_elim) | split

theorem clearBits_sound (index : ℕ) (sub : ℕ) (v : ℕ) (h : Hub) (hp_h : h.Sound) : (clearBits index sub v h).Sound := by
  unfold clearBits
  try dsimp only
  repeat' first | with_reducible assumption | with_reducible intro _ | with_reducible apply wrW_sound | (with_reducible apply sound_intro; dsimp only; with_reducible apply sound_elim) | split

theorem entryWrite_sound (p : Path) (index : ℕ) (sub : ℕ) (v : ℕ) (h : Hub) (hp_h : h.Sound) : (entryWrite p index sub v h).Sound := by
  unfold entryWrite
  try dsimp only
  repeat' first | with_reducible assumption | with_reducible intro _ | with_reducible apply storeWritten_sound | with_reducible apply ownWrite_sound | with_reducible apply pathWrite_sound | with_reducible apply clearBits_sound | (with_reducible refine own_sound ‹_ = some _› ?_ ?_) | (with_reducible apply sound_intro; dsimp only; with_reducible apply sound_elim) | split

theorem w1cWrite_sound (p : Path) (index : ℕ) (sub : ℕ) (v : ℕ) (hwSet : ℕ) (h : Hub) (hp_h : h.Sound) : (w1cWrite p index sub v hwSet h).Sound := by
  unfold w1cWrite
  try dsimp only
  repeat' first | with_reducible assumption | with_reducible intro _ | with_reducible apply entryWrite_sound | with_reducible apply wrW_sound | (with_reducible apply sound_intro; dsimp only; with_reducible apply sound_elim) | split

theorem execW1cWrite_sound (path : Path) (index : ℕ) (sub : ℕ) (value : ℕ) (hwSet : ℕ) : Keeps (execW1cWrite path index sub value hwSet) := by
  unfold execW1cWrite
  try dsimp only
  repeat' first | with_reducible assumption | with_reducible apply keeps_onHub | with_reducible intro _ | with_reducible apply w1cWrite_sound | (with_reducible apply sound_intro; dsimp only; with_reducible apply sound_elim) | split

theorem timeStore_sound (p : Path) (index : ℕ) (sub : ℕ) (lo : ℕ) (hi : ℕ) (h : Hub) (hp_h : h.Sound) : (timeStore p index sub lo hi h).Sound := by
  unfold timeStore
  try dsimp only
  repeat' first | with_reducible assumption | with_reducible intro _ | with_reducible apply storeEntry_sound | with_reducible apply afterWrite_sound | with_reducible apply setPath_sound | (with_reducible apply sound_intro; dsimp only; with_reducible apply sound_elim) | split

theorem timeLowerWrite_sound (p : Path) (index : ℕ) (sub : ℕ) (v : ℕ) (h : Hub) (hp_h : h.Sound) : (timeLowerWrite p index sub v h).Sound := by
  unfold timeLowerWrite
  try dsimp only
  repeat' first | with_reducible assumption | with_reducible intro _ | with_reducible apply pathTry_sound | with_reducible apply setPath_sound | (with_reducible apply sound_intro; dsimp only; with_reducible apply sound_elim) | split

theorem timeUpperWrite_sound (p : Path) (index : ℕ) (sub : ℕ) (v : ℕ) (h0 : Hub) (hp_h0 : h0.Sound) : (timeUpperWrite p index sub v h0).Sound := by
  unfold timeUpperWrite
  try dsimp only
  repeat' first | with_reducible assumption | with_reducible intro _ | with_reducible apply timeStore_sound | with_reducible apply pathWrite_sound | (with_reducible apply sound_intro; dsimp only; with_reducible apply sound_elim) | split

theorem holdLong_sound (p : Path) (index : ℕ) (f : ℕ) (n : ℕ) (j : ℕ) (v : ℕ) (h : Hub) (hp_h : h.Sound) : (holdLong p index f n j v h).Sound := by
  unfold holdLong
  try dsimp only
  repeat' first | with_reducible assumption | with_reducible intro _ | with_reducible apply setPath_sound | (with_reducible apply sound_intro; dsimp only; with_reducible apply sound_elim) | split

theorem dropLong_sound (p : Path) (index : ℕ) (f : ℕ) (h : Hub) (hp_h : h.Sound) : (dropLong p index f h).Sound := by
  unfold dropLong
  try dsimp only
  repeat' first | with_reducible assumption | with_reducible intro _ | with_reducible apply setPath_sound | (with_reducible apply sound_intro; dsimp only; with_reducible apply sound_elim) | split

theorem storeLong_sound (p : Path) (index : ℕ) (f : ℕ) (n : ℕ) (ws : List Word) (h : Hub) (hp_h : h.Sound) : (storeLong p index f n ws h).Sound := by
  unfold storeLong
  try dsimp only
  repeat' first | with_reducible assumption | with_reducible intro _ | with_reducible apply bufUnlatch_sound | with_reducible apply bufContent_sound | with_reducible apply writeFields_sound | (with_reducible apply sound_intro; dsimp only; with_reducible apply sound_elim) | split

theorem wholeWrite_sound (p : Path) (index : ℕ) (f : ℕ) (n : ℕ) (sub : ℕ) (ws : List Word) (h0 : Hub) (hp_h0 : h0.Sound) : (wholeWrite p index f n sub ws h0).Sound := by
  unfold wholeWrite
  try dsimp only
  repeat' first | with_reducible assumption | with_reducible intro _ | with_reducible apply dropLong_sound | with_reducible apply responseWrite_sound | with_reducible apply takeFree_sound | with_reducible apply pathWrite_sound | with_reducible apply chunkWrite_sound | with_reducible apply storeLong_sound | (with_reducible refine pair_sound ‹_ = (_, _)› ?_) | (with_reducible apply sound_intro; dsimp only; with_reducible apply sound_elim) | split

theorem longWrite_sound (p : Path) (index : ℕ) (f : ℕ) (n : ℕ) (sub : ℕ) (v : ℕ) (h0 : Hub) (hp_h0 : h0.Sound) : (longWrite p index f n sub v h0).Sound := by
  unfold longWrite
  try dsimp only
  repeat' first | with_reducible assumption | with_reducible intro _ | with_reducible apply pathTry_sound | with_reducible apply holdLong_sound | with_reducible apply wholeWrite_sound | (with_reducible apply sound_intro; dsimp only; with_reducible apply sound_elim) | split

theorem writeSlot_sound (p : Path) (index : ℕ) (sub : ℕ) (v : ℕ) (h : Hub) (hp_h : h.Sound) : (writeSlot p index sub v h).Sound := by
  unfold writeSlot
  try dsimp only
  repeat' first | with_reducible assumption | with_reducible intro _ | with_reducible apply timeLowerWrite_sound | with_reducible apply entryWrite_sound | with_reducible apply holdAccess_sound | with_reducible apply longWrite_sound | with_reducible apply timeUpperWrite_sound | (with_reducible apply sound_intro; dsimp only; with_reducible apply sound_elim) | split

theorem execTimeLowerWrite_sound (path : Path) (index : ℕ) (sub : ℕ) (value : ℕ) : Keeps (execTimeLowerWrite path index sub value) := by
  unfold execTimeLowerWrite
  try dsimp only
  repeat' first | with_reducible assumption | with_reducible apply keeps_onHub | with_reducible intro _ | with_reducible apply writeSlot_sound | (with_reducible apply sound_intro; dsimp only; with_reducible apply sound_elim) | split

theorem execTimeUpperWrite_sound (path : Path) (index : ℕ) (sub : ℕ) (value : ℕ) : Keeps (execTimeUpperWrite path index sub value) := by
  unfold execTimeUpperWrite
  try dsimp only
  repeat' first | with_reducible assumption | with_reducible apply keeps_onHub | with_reducible intro _ | with_reducible apply writeSlot_sound | (with_reducible apply sound_intro; dsimp only; with_reducible apply sound_elim) | split

theorem execLongEntrySlotWrite_sound (path : Path) (index : ℕ) (sub : ℕ) (value : ℕ) : Keeps (execLongEntrySlotWrite path index sub value) := by
  unfold execLongEntrySlotWrite
  try dsimp only
  repeat' first | with_reducible assumption | with_reducible apply keeps_onHub | with_reducible intro _ | with_reducible apply writeSlot_sound | (with_reducible apply sound_intro; dsimp only; with_reducible apply sound_elim) | split

theorem wrongSize_sound (p : Path) (index : ℕ) (sub : ℕ) (v : Option ℕ) (h : Hub) (hp_h : h.Sound) : (wrongSize p index sub v h).Sound := by
  unfold wrongSize
  try dsimp only
  repeat' first | with_reducible assumption | with_reducible intro _ | with_reducible apply pathTry_sound | with_reducible apply id_sound | (with_reducible apply sound_intro; dsimp only; with_reducible apply sound_elim) | split

theorem holdHalf_sound (index : ℕ) (sub : ℕ) (v : ℕ) (h : Hub) (hp_h : h.Sound) : (holdHalf index sub v h).Sound := by
  unfold holdHalf
  try dsimp only
  repeat' first | with_reducible assumption | with_reducible intro _ | with_reducible apply pathTry_sound | (with_reducible apply sound_intro; dsimp only; with_reducible apply sound_elim) | split

theorem hostUpperWrite_sound (index : ℕ) (sub : ℕ) (v : ℕ) (h0 : Hub) (hp_h0 : h0.Sound) : (hostUpperWrite index sub v h0).Sound := by
  unfold hostUpperWrite
  try dsimp only
  repeat' first | with_reducible assumption | with_reducible intro _ | with_reducible apply wrongSize_sound | with_reducible apply pathTry_sound | with_reducible apply id_sound | with_reducible apply writeSlot_sound | (with_reducible apply sound_intro; dsimp only; with_reducible apply sound_elim) | split

theorem msixHost_sound (index : ℕ) (sub : ℕ) (half : Option Bool) (v : ℕ) (h : Hub) (hp_h : h.Sound) : (msixHost index sub half v h).Sound := by
  unfold msixHost
  try dsimp only
  repeat' first | with_reducible assumption | with_reducible intro _ | with_reducible apply hostTlp_sound | with_reducible apply answered_sound | with_reducible apply msixWrite_sound | (with_reducible apply sound_intro; dsimp only; with_reducible apply sound_elim) | split

theorem hostHalfWrite_sound (index : ℕ) (sub : ℕ) (upper : Bool) (v : ℕ) (h : Hub) (hp_h : h.Sound) : (hostHalfWrite index sub upper v h).Sound := by
  unfold hostHalfWrite
  try dsimp only
  repeat' first | with_reducible assumption | with_reducible intro _ | with_reducible apply msixHost_sound | with_reducible apply holdAccess_sound | with_reducible apply hostUpperWrite_sound | with_reducible apply writeSlot_sound | with_reducible apply holdHalf_sound | (with_reducible apply sound_intro; dsimp only; with_reducible apply sound_elim) | split

theorem execHostWindowHalfWrite_sound (index : ℕ) (sub : ℕ) (upper : Bool) (value : ℕ) : Keeps (execHostWindowHalfWrite index sub upper value) := by
  unfold execHostWindowHalfWrite
  try dsimp only
  repeat' first | with_reducible assumption | with_reducible apply keeps_onHub | with_reducible intro _ | with_reducible apply hostHalfWrite_sound | (with_reducible apply sound_intro; dsimp only; with_reducible apply sound_elim) | split

theorem hostWrite_sound (index : ℕ) (sub : ℕ) (off : ℕ) (size : ℕ) (v : ℕ) (h : Hub) (hp_h : h.Sound) : (hostWrite index sub off size v h).Sound := by
  unfold hostWrite
  try dsimp only
  repeat' first | with_reducible assumption | with_reducible intro _ | with_reducible apply wrongSize_sound | with_reducible apply hostHalfWrite_sound | with_reducible apply bump_sound | with_reducible apply msixHost_sound | with_reducible apply holdAccess_sound | with_reducible apply hostTlp_sound | with_reducible apply writeSlot_sound | with_reducible apply answered_sound | (with_reducible apply sound_intro; dsimp only; with_reducible apply sound_elim) | split

theorem sdoWrongSize_sound (p : Path) (index : ℕ) (sub : ℕ) (bs : List Byte) (h : Hub) (hp_h : h.Sound) : (sdoWrongSize p index sub bs h).Sound := by
  unfold sdoWrongSize
  try dsimp only
  repeat' first | with_reducible assumption | with_reducible intro _ | with_reducible apply wrongSize_sound | (with_reducible apply sound_intro; dsimp only; with_reducible apply sound_elim) | split

theorem sdoWrite_sound (p : Path) (index : ℕ) (sub : ℕ) (bs : List Byte) (h : Hub) (hp_h : h.Sound) : (sdoWrite p index sub bs h).Sound := by
  unfold sdoWrite
  try dsimp only
  repeat' first | with_reducible assumption | with_reducible intro _ | with_reducible apply sdoWrongSize_sound | with_reducible apply pathTry_sound | with_reducible apply id_sound | with_reducible apply writeSlot_sound | with_reducible apply wholeWrite_sound | (with_reducible apply sound_intro; dsimp only; with_reducible apply sound_elim) | split

theorem dictionaryWrite_sound (p : Path) (index : ℕ) (sub : ℕ) (off : ℕ) (size : ℕ) (v : ℕ) (h : Hub) (hp_h : h.Sound) : (dictionaryWrite p index sub off size v h).Sound := by
  unfold dictionaryWrite
  try dsimp only
  repeat' first | with_reducible assumption | with_reducible intro _ | with_reducible apply wrongSize_sound | with_reducible apply sdoWrite_sound | with_reducible apply writeSlot_sound | with_reducible apply hostWrite_sound | (with_reducible apply sound_intro; dsimp only; with_reducible apply sound_elim) | split

theorem execDictionaryWrite_sound (path : Path) (index : ℕ) (sub : ℕ) (span : ByteSpan) (value : ℕ) : Keeps (execDictionaryWrite path index sub span value) := by
  unfold execDictionaryWrite
  try dsimp only
  repeat' first | with_reducible assumption | with_reducible apply keeps_onHub | with_reducible intro _ | with_reducible apply dictionaryWrite_sound | (with_reducible apply sound_intro; dsimp only; with_reducible apply sound_elim) | split

theorem timeWhole_sound (p : Path) (index : ℕ) (sub : ℕ) (lo : ℕ) (hi : ℕ) (h : Hub) (hp_h : h.Sound) : (timeWhole p index sub lo hi h).Sound := by
  unfold timeWhole
  try dsimp only
  repeat' first | with_reducible assumption | with_reducible intro _ | with_reducible apply timeStore_sound | with_reducible apply pathWrite_sound | (with_reducible apply sound_intro; dsimp only; with_reducible apply sound_elim) | split

theorem requestAccess_sound (p : Path) (op : ℕ) (index : ℕ) (sub : ℕ) (count : ℕ) (data : List ℕ) (h : Hub) (hp_h : h.Sound) : (requestAccess p op index sub count data h).Sound := by
  unfold requestAccess
  try dsimp only
  repeat' first | with_reducible assumption | with_reducible intro _ | with_reducible apply writeSlot_sound | with_reducible apply answered_sound | with_reducible apply touch_sound | with_reducible apply timeWhole_sound | with_reducible apply readSlot_sound | with_reducible apply wholeWrite_sound | with_reducible apply refuse_sound | (with_reducible apply sound_intro; dsimp only; with_reducible apply sound_elim) | split

theorem sendDictResponse_sound (src : ℕ) (w : ℕ) (status : ℕ) (ws : List Word) (h : Hub) (hp_h : h.Sound) : (sendDictResponse src w status ws h).Sound := by
  unfold sendDictResponse
  try dsimp only
  repeat' first | with_reducible assumption | with_reducible intro _ | with_reducible apply bump_sound | with_reducible apply originate_sound | (with_reducible apply sound_intro; dsimp only; with_reducible apply sound_elim) | split

theorem deferReply_sound (p : Path) (r : Reply) (h : Hub) (hp_h : h.Sound) : (deferReply p r h).Sound := by
  unfold deferReply
  try dsimp only
  repeat' first | with_reducible assumption | with_reducible intro _ | (with_reducible apply sound_intro; dsimp only; with_reducible apply sound_elim) | split

theorem requestAnswer_sound (waiting : ℕ) (src : ℕ) (w : ℕ) (h : Hub) (hp_h : h.Sound) : (requestAnswer waiting src w h).Sound := by
  unfold requestAnswer
  try dsimp only
  repeat' first | with_reducible assumption | with_reducible intro _ | with_reducible apply deferReply_sound | with_reducible apply sendDictResponse_sound | (with_reducible apply sound_intro; dsimp only; with_reducible apply sound_elim) | split

theorem serveDict_sound (src : ℕ) (op : ℕ) (tag : ℕ) (index : ℕ) (sub : ℕ) (count : ℕ) (data : List ℕ) (h : Hub) (hp_h : h.Sound) : (serveDict src op tag index sub count data h).Sound := by
  unfold serveDict
  try dsimp only
  repeat' first | with_reducible assumption | with_reducible intro _ | with_reducible apply requestAccess_sound | with_reducible apply requestAnswer_sound | (with_reducible apply sound_intro; dsimp only; with_reducible apply sound_elim) | split

theorem ringDictRequest_sound (src : ℕ) (dst : ℕ) (op : ℕ) (tag : ℕ) (index : ℕ) (sub : ℕ) (count : ℕ) (data : List ℕ) (h : Hub) (hp_h : h.Sound) : (ringDictRequest src dst op tag index sub count data h).Sound := by
  unfold ringDictRequest
  try dsimp only
  repeat' first | with_reducible assumption | with_reducible intro _ | with_reducible apply serveDict_sound | with_reducible apply bump_sound | with_reducible apply holdAccess_sound | with_reducible apply refuse_sound | with_reducible apply sendDictResponse_sound | (with_reducible apply sound_intro; dsimp only; with_reducible apply sound_elim) | split

theorem execRingDictRequest_sound (src : ℕ) (dst : ℕ) (op : ℕ) (tag : ℕ) (index : ℕ) (sub : ℕ) (count : ℕ) (data : List ℕ) : Keeps (execRingDictRequest src dst op tag index sub count data) := by
  unfold execRingDictRequest
  try dsimp only
  repeat' first | with_reducible assumption | with_reducible apply keeps_onHub | with_reducible intro _ | with_reducible apply ringDictRequest_sound | (with_reducible apply sound_intro; dsimp only; with_reducible apply sound_elim) | split

end Sys2Proof.Machine
end

