-- ==== Sys2Proof/Laws/SoundHostBridge.lean ====
section
/-! SUPPORT. Every operation of HostBridge.lean keeps a hub sound. -/

set_option linter.unusedTactic false
set_option linter.unreachableTactic false
set_option linter.unusedVariables false

namespace Sys2Proof.Machine

theorem bridgeTag_sound (h : Hub) (hp_h : h.Sound) : (bridgeTag h).2.Sound := by
  unfold bridgeTag
  try dsimp only
  repeat' first | with_reducible assumption | with_reducible intro _ | (with_reducible apply sound_intro; dsimp only; with_reducible apply sound_elim) | split

theorem writePiece_sound (requester : ℕ) (off : ℕ) (bs : List Byte) (h : Hub) (hp_h : h.Sound) : (writePiece requester off bs h).Sound := by
  unfold writePiece
  try dsimp only
  repeat' first | with_reducible assumption | with_reducible intro _ | with_reducible apply bridgeTag_sound | with_reducible apply writeFailed_sound | with_reducible apply putItem_sound | (with_reducible refine pair_sound ‹_ = (_, _)› ?_) | (with_reducible apply sound_intro; dsimp only; with_reducible apply sound_elim) | split

theorem apertureWrite_sound (requester : ℕ) (off : ℕ) (bs : List Byte) (h : Hub) (hp_h : h.Sound) : (apertureWrite requester off bs h).Sound := by
  unfold apertureWrite
  try dsimp only
  repeat' first | with_reducible assumption | with_reducible intro _ | with_reducible apply writePiece_sound | with_reducible apply forEach_sound | (with_reducible apply sound_intro; dsimp only; with_reducible apply sound_elim) | split

theorem bootWrite_sound (off : ℕ) (bs : List Byte) (h : Hub) (hp_h : h.Sound) : (bootWrite off bs h).Sound := by
  unfold bootWrite
  try dsimp only
  repeat' first | with_reducible assumption | with_reducible intro _ | with_reducible apply bootControl_sound | (with_reducible apply sound_intro; dsimp only; with_reducible apply sound_elim) | split

theorem bar2Write_sound (off : ℕ) (bs : List Byte) (poisoned : Bool) (requester : ℕ) (h0 : Hub) (hp_h0 : h0.Sound) : (bar2Write off bs poisoned requester h0).Sound := by
  unfold bar2Write
  try dsimp only
  repeat' first | with_reducible assumption | with_reducible intro _ | with_reducible apply bump_sound | with_reducible apply apertureWrite_sound | with_reducible apply raiseEvent_sound | with_reducible apply bootWrite_sound | (with_reducible apply sound_intro; dsimp only; with_reducible apply sound_elim) | split

theorem execBar2Write_sound (offset : ℕ) (bytes : List Byte) (poisoned : Bool) (requester : ℕ) : Keeps (execBar2Write offset bytes poisoned requester) := by
  unfold execBar2Write
  try dsimp only
  repeat' first | with_reducible assumption | with_reducible apply keeps_onHub | with_reducible intro _ | with_reducible apply bar2Write_sound | (with_reducible apply sound_intro; dsimp only; with_reducible apply sound_elim) | split

theorem hostWriteFails_sound (address : ℕ) (requester : ℕ) (tag : ℕ) (status : ℕ) (h : Hub) (hp_h : h.Sound) : (hostWriteFails address requester tag status h).Sound := by
  unfold hostWriteFails
  try dsimp only
  repeat' first | with_reducible assumption | with_reducible intro _ | with_reducible apply writeFailed_sound | (with_reducible apply sound_intro; dsimp only; with_reducible apply sound_elim) | split

theorem execHostWriteFailure_sound (address : ℕ) (requester : ℕ) (tag : ℕ) (status : ℕ) : Keeps (execHostWriteFailure address requester tag status) := by
  unfold execHostWriteFailure
  try dsimp only
  repeat' first | with_reducible assumption | with_reducible apply keeps_onHub | with_reducible intro _ | with_reducible apply hostWriteFails_sound | (with_reducible apply sound_intro; dsimp only; with_reducible apply sound_elim) | split

theorem unsupported_sound (h : Hub) (hp_h : h.Sound) : (unsupported h).Sound := by
  unfold unsupported
  try dsimp only
  repeat' first | with_reducible assumption | with_reducible intro _ | with_reducible apply bump_sound | with_reducible apply answered_sound | (with_reducible apply sound_intro; dsimp only; with_reducible apply sound_elim) | split

theorem planPieces_sound (op : COp) (data : List Word) (y0 : List (ℕ × ℕ)) (h : Hub) (hp : h.Sound) : (planPieces op data y0 h).1.Sound := by
  revert hp
  fun_induction planPieces op data y0 h <;> intro hp <;> (try dsimp only) <;>
  repeat' first | with_reducible assumption | with_reducible intro _ | with_reducible apply bridgeTag_sound | (with_reducible refine pair_sound ‹_ = (_, _)› ?_) | (with_reducible apply sound_intro; dsimp only; with_reducible apply sound_elim) | (with_reducible apply_assumption) | split

theorem startRead_sound (qspi : Option ℕ) (op : COp) (data : List Word) (off : ℕ) (len : ℕ) (h : Hub) (hp_h : h.Sound) : (startRead qspi op data off len h).Sound := by
  unfold startRead
  try dsimp only
  repeat' first | with_reducible assumption | with_reducible intro _ | with_reducible apply planPieces_sound | with_reducible apply hostDeliverAll_sound | with_reducible apply putItem_sound | with_reducible apply answered_sound | with_reducible apply forEach_sound | (with_reducible refine pairFst_sound ‹_ = (_, _)› ?_) | (with_reducible apply sound_intro; dsimp only; with_reducible apply sound_elim) | split

theorem freeBytes_sound (y0 : ℕ) (h : Hub) (hp : h.Sound) : (freeBytes y0 h).2.Sound := by
  revert hp
  fun_induction freeBytes y0 h <;> intro hp <;> (try dsimp only) <;>
  repeat' first | with_reducible assumption | with_reducible intro _ | with_reducible apply takeFree_sound | (with_reducible refine pair_sound ‹_ = (_, _)› ?_) | (with_reducible apply sound_intro; dsimp only; with_reducible apply sound_elim) | (with_reducible apply_assumption) | split

theorem bootRead_sound (off : ℕ) (len : ℕ) (h : Hub) (hp_h : h.Sound) : (bootRead off len h).2.Sound := by
  unfold bootRead
  try dsimp only
  repeat' first | with_reducible assumption | with_reducible intro _ | with_reducible apply freeBytes_sound | (with_reducible refine pair_sound ‹_ = (_, _)› ?_) | (with_reducible apply sound_intro; dsimp only; with_reducible apply sound_elim) | split

theorem bar2Read_sound (off : ℕ) (len : ℕ) (h0 : Hub) (hp_h0 : h0.Sound) : (bar2Read off len h0).Sound := by
  unfold bar2Read
  try dsimp only
  repeat' first | with_reducible assumption | with_reducible intro _ | with_reducible apply bump_sound | with_reducible apply bootRead_sound | with_reducible apply answered_sound | with_reducible apply unsupported_sound | with_reducible apply startRead_sound | (with_reducible refine pair_sound ‹_ = (_, _)› ?_) | (with_reducible apply sound_intro; dsimp only; with_reducible apply sound_elim) | split

theorem execBar2Read_sound (offset : ℕ) (length : ℕ) (y0 : ℕ) : Keeps (execBar2Read offset length y0) := by
  unfold execBar2Read
  try dsimp only
  repeat' first | with_reducible assumption | with_reducible apply keeps_onHub | with_reducible intro _ | with_reducible apply bar2Read_sound | (with_reducible apply sound_intro; dsimp only; with_reducible apply sound_elim) | split

theorem atomicTlp_sound (op : COp) (bar2 : Bool) (off : ℕ) (operands : List ℕ) (h0 : Hub) (hp_h0 : h0.Sound) : (atomicTlp op bar2 off operands h0).Sound := by
  unfold atomicTlp
  try dsimp only
  repeat' first | with_reducible assumption | with_reducible intro _ | with_reducible apply bump_sound | with_reducible apply answered_sound | with_reducible apply unsupported_sound | with_reducible apply startRead_sound | (with_reducible apply sound_intro; dsimp only; with_reducible apply sound_elim) | split

theorem execAtomicFetchadd_sound (bar2 : Bool) (offset : ℕ) (addend : ℕ) : Keeps (execAtomicFetchadd bar2 offset addend) := by
  unfold execAtomicFetchadd
  try dsimp only
  repeat' first | with_reducible assumption | with_reducible apply keeps_onHub | with_reducible intro _ | with_reducible apply atomicTlp_sound | (with_reducible apply sound_intro; dsimp only; with_reducible apply sound_elim) | split

theorem execAtomicCas_sound (bar2 : Bool) (offset : ℕ) (expected : ℕ) (value : ℕ) : Keeps (execAtomicCas bar2 offset expected value) := by
  unfold execAtomicCas
  try dsimp only
  repeat' first | with_reducible assumption | with_reducible apply keeps_onHub | with_reducible intro _ | with_reducible apply atomicTlp_sound | (with_reducible apply sound_intro; dsimp only; with_reducible apply sound_elim) | split

theorem msixMessage_sound (v : Nat) (h : Hub) (hp : h.Sound) : (msixMessage v h).Sound := by
  unfold msixMessage
  split
  · exact ⟨hp.1, hp.2.1, hp.2.2.1, hp.2.2.2.erase v⟩
  · exact hp

theorem execMsixMessage_sound (vector : Fin 32) : Keeps (execMsixMessage vector) := by
  unfold execMsixMessage
  try dsimp only
  repeat' first | with_reducible assumption | with_reducible apply keeps_onHub | with_reducible intro _ | with_reducible apply msixMessage_sound | (with_reducible apply sound_intro; dsimp only; with_reducible apply sound_elim) | split

theorem bridgeReset_sound (h0 : Hub) (hp_h0 : h0.Sound) : (bridgeReset h0).Sound := by
  unfold bridgeReset
  try dsimp only
  repeat' first | with_reducible assumption | with_reducible intro _ | with_reducible apply bump_sound | with_reducible apply raiseEvent_sound | with_reducible apply takeFree_sound | with_reducible apply endSession_sound | with_reducible apply wrs_sound | (with_reducible refine pair_sound ‹_ = (_, _)› ?_) | (with_reducible apply sound_intro; dsimp only; with_reducible apply sound_elim) | split

theorem execBridgeReset_sound : Keeps (execBridgeReset) := by
  unfold execBridgeReset
  try dsimp only
  repeat' first | with_reducible assumption | with_reducible apply keeps_onHub | with_reducible intro _ | with_reducible apply bridgeReset_sound | (with_reducible apply sound_intro; dsimp only; with_reducible apply sound_elim) | split

theorem hostLinkUp_sound (speed : ℕ) (width : ℕ) (h : Hub) (hp_h : h.Sound) : (hostLinkUp speed width h).Sound := by
  unfold hostLinkUp
  try dsimp only
  repeat' first | with_reducible assumption | with_reducible intro _ | with_reducible apply raiseEvent_sound | with_reducible apply wrs_sound | (with_reducible apply sound_intro; dsimp only; with_reducible apply sound_elim) | split

theorem execHostLinkUp_sound (speed : ℕ) (width : ℕ) : Keeps (execHostLinkUp speed width) := by
  unfold execHostLinkUp
  try dsimp only
  repeat' first | with_reducible assumption | with_reducible apply keeps_onHub | with_reducible intro _ | with_reducible apply hostLinkUp_sound | (with_reducible apply sound_intro; dsimp only; with_reducible apply sound_elim) | split

theorem qspiRefuse_sound (h : Hub) (hp_h : h.Sound) : (qspiRefuse h).Sound := by
  unfold qspiRefuse
  try dsimp only
  repeat' first | with_reducible assumption | with_reducible intro _ | with_reducible apply answered_sound | (with_reducible apply sound_intro; dsimp only; with_reducible apply sound_elim) | split

theorem qspiSlotWrite_sound (off : ℕ) (n : ℕ) (bs : List Byte) (h : Hub) (hp_h : h.Sound) : (qspiSlotWrite off n bs h).Sound := by
  unfold qspiSlotWrite
  try dsimp only
  repeat' first | with_reducible assumption | with_reducible intro _ | with_reducible apply hostHalfWrite_sound | with_reducible apply hostWrite_sound | (with_reducible apply sound_intro; dsimp only; with_reducible apply sound_elim) | split

theorem qspiWrite_sound (address : ℕ) (bs : List Byte) (h0 : Hub) (hp_h0 : h0.Sound) : (qspiWrite address bs h0).Sound := by
  unfold qspiWrite
  try dsimp only
  repeat' first | with_reducible assumption | with_reducible intro _ | with_reducible apply bump_sound | with_reducible apply apertureWrite_sound | with_reducible apply answered_sound | with_reducible apply bootWrite_sound | with_reducible apply qspiSlotWrite_sound | with_reducible apply forEach_sound | (with_reducible apply sound_intro; dsimp only; with_reducible apply sound_elim) | split

theorem execQspiWrite_sound (address : ℕ) (bytes : List Byte) : Keeps (execQspiWrite address bytes) := by
  unfold execQspiWrite
  try dsimp only
  repeat' first | with_reducible assumption | with_reducible apply keeps_onHub | with_reducible intro _ | with_reducible apply qspiWrite_sound | (with_reducible apply sound_intro; dsimp only; with_reducible apply sound_elim) | split

theorem qspiAnswer_sound (q : ℕ) (h : Hub) (hp_h : h.Sound) : (qspiAnswer q h).Sound := by
  unfold qspiAnswer
  try dsimp only
  repeat' first | with_reducible assumption | with_reducible intro _ | with_reducible apply answered_sound | (with_reducible apply sound_intro; dsimp only; with_reducible apply sound_elim) | split

theorem qspiAperture_sound (op : COp) (data : List Word) (off : ℕ) (len : ℕ) (h : Hub) (hp_h : h.Sound) : (qspiAperture op data off len h).Sound := by
  unfold qspiAperture
  try dsimp only
  repeat' first | with_reducible assumption | with_reducible intro _ | with_reducible apply qspiAnswer_sound | with_reducible apply answered_sound | with_reducible apply startRead_sound | (with_reducible apply sound_intro; dsimp only; with_reducible apply sound_elim) | split

theorem qspiBarrier_sound (tag : Option ℕ) (acc : List Byte) (n : ℕ) (after : ℕ × ℕ) (h0 : Hub) (hp_h0 : h0.Sound) : (qspiBarrier tag acc n after h0).Sound := by
  unfold qspiBarrier
  try dsimp only
  repeat' first | with_reducible assumption | with_reducible intro _ | with_reducible apply qspiAnswer_sound | with_reducible apply putItem_sound | with_reducible apply answered_sound | with_reducible apply dropHalf_sound | (with_reducible apply sound_intro; dsimp only; with_reducible apply sound_elim) | split

theorem qspiSlots_sound (tag : Option Nat) (l : List (Nat × Nat)) (acc : List Byte) (h : Hub) (hp : h.Sound) :
    (qspiSlots tag l acc h).Sound := by
  induction l generalizing acc h with
  | nil => exact answered_sound _ _ hp
  | cons e l ih =>
    obtain ⟨off, n⟩ := e
    have ha := hostRead_sound (off / 8 / 256) (off / 8 % 256) (off % 8) n h hp
    rw [qspiSlots]
    split
    · exact qspiBarrier_sound _ _ _ _ _ hp
    · dsimp only
      split
      · exact ih _ _ ha
      · exact answered_sound _ _ ha
      · exact ha

theorem qspiDictionary_sound (off : ℕ) (len : ℕ) (h : Hub) (hp_h : h.Sound) : (qspiDictionary off len h).Sound := by
  unfold qspiDictionary
  try dsimp only
  repeat' first | with_reducible assumption | with_reducible intro _ | with_reducible apply holdAccess_sound | with_reducible apply answered_sound | with_reducible apply qspiSlots_sound | (with_reducible apply sound_intro; dsimp only; with_reducible apply sound_elim) | split

theorem qspiRead_sound (address : ℕ) (len : ℕ) (h0 : Hub) (hp_h0 : h0.Sound) : (qspiRead address len h0).Sound := by
  unfold qspiRead
  try dsimp only
  repeat' first | with_reducible assumption | with_reducible intro _ | with_reducible apply qspiRefuse_sound | with_reducible apply bump_sound | with_reducible apply qspiAperture_sound | with_reducible apply bootRead_sound | with_reducible apply answered_sound | with_reducible apply qspiDictionary_sound | (with_reducible refine pair_sound ‹_ = (_, _)› ?_) | (with_reducible apply sound_intro; dsimp only; with_reducible apply sound_elim) | split

theorem execQspiRead_sound (address : ℕ) (length : ℕ) : Keeps (execQspiRead address length) := by
  unfold execQspiRead
  try dsimp only
  repeat' first | with_reducible assumption | with_reducible apply keeps_onHub | with_reducible intro _ | with_reducible apply qspiRead_sound | (with_reducible apply sound_intro; dsimp only; with_reducible apply sound_elim) | split

theorem qspiReadOn_sound (q : ℕ) (before : List Byte) (offset : ℕ) (length : ℕ) (h : Hub) (hp_h : h.Sound) : (qspiReadOn q before offset length h).Sound := by
  unfold qspiReadOn
  try dsimp only
  repeat' first | with_reducible assumption | with_reducible intro _ | with_reducible apply qspiSlots_sound | (with_reducible apply sound_intro; dsimp only; with_reducible apply sound_elim) | split

theorem wholeEntryWrite_sound (p : Path) (index : ℕ) (sub : ℕ) (v : ℕ) (h : Hub) (hp_h : h.Sound) : (wholeEntryWrite p index sub v h).Sound := by
  unfold wholeEntryWrite
  try dsimp only
  repeat' first | with_reducible assumption | with_reducible intro _ | with_reducible apply writeSlot_sound | with_reducible apply wholeWrite_sound | (with_reducible apply sound_intro; dsimp only; with_reducible apply sound_elim) | split

theorem performAccess_sound (a : HeldAccess) (h : Hub) (hp_h : h.Sound) : (performAccess a h).Sound := by
  unfold performAccess
  try dsimp only
  repeat' first | with_reducible assumption | with_reducible intro _ | with_reducible apply qspiReadOn_sound | with_reducible apply hostRead_sound | with_reducible apply serveDict_sound | with_reducible apply writeSlot_sound | with_reducible apply wholeEntryWrite_sound | with_reducible apply readSlot_sound | with_reducible apply hostWrite_sound | (with_reducible apply sound_intro; dsimp only; with_reducible apply sound_elim) | split

theorem takeHeld_sound (a : HeldAccess) (h : Hub) (hp_h : h.Sound) : (takeHeld a h).Sound := by
  unfold takeHeld
  try dsimp only
  repeat' first | with_reducible assumption | with_reducible intro _ | with_reducible apply performAccess_sound | (with_reducible apply sound_intro; dsimp only; with_reducible apply sound_elim) | split

theorem waitingAccesses_sound (h : Hub) (hp_h : h.Sound) : (waitingAccesses h).Sound := by
  unfold waitingAccesses
  try dsimp only
  repeat' first | with_reducible assumption | with_reducible intro _ | with_reducible apply forEach_sound | with_reducible apply takeHeld_sound | (with_reducible apply sound_intro; dsimp only; with_reducible apply sound_elim) | split

theorem readResult_sound (q : ℕ) (h : Hub) (hp_h : h.Sound) : (readResult q h).Sound := by
  unfold readResult
  try dsimp only
  repeat' first | with_reducible assumption | with_reducible intro _ | with_reducible apply qspiAnswer_sound | with_reducible apply answered_sound | (with_reducible apply sound_intro; dsimp only; with_reducible apply sound_elim) | split

theorem execReadResult_sound (tag : ℕ) : Keeps (execReadResult tag) := by
  unfold execReadResult
  try dsimp only
  repeat' first | with_reducible assumption | with_reducible apply keeps_onHub | with_reducible intro _ | with_reducible apply readResult_sound | (with_reducible apply sound_intro; dsimp only; with_reducible apply sound_elim) | split

theorem qspiAtomic_sound (op : COp) (address : ℕ) (operands : List ℕ) (h0 : Hub) (hp_h0 : h0.Sound) : (qspiAtomic op address operands h0).Sound := by
  unfold qspiAtomic
  try dsimp only
  repeat' first | with_reducible assumption | with_reducible intro _ | with_reducible apply qspiRefuse_sound | with_reducible apply bump_sound | with_reducible apply qspiAperture_sound | (with_reducible apply sound_intro; dsimp only; with_reducible apply sound_elim) | split

theorem execQspiFetchAdd_sound (address : ℕ) (addend : ℕ) : Keeps (execQspiFetchAdd address addend) := by
  unfold execQspiFetchAdd
  try dsimp only
  repeat' first | with_reducible assumption | with_reducible apply keeps_onHub | with_reducible intro _ | with_reducible apply qspiAtomic_sound | (with_reducible apply sound_intro; dsimp only; with_reducible apply sound_elim) | split

theorem execQspiCas_sound (address : ℕ) (expected : ℕ) (value : ℕ) : Keeps (execQspiCas address expected value) := by
  unfold execQspiCas
  try dsimp only
  repeat' first | with_reducible assumption | with_reducible apply keeps_onHub | with_reducible intro _ | with_reducible apply qspiAtomic_sound | (with_reducible apply sound_intro; dsimp only; with_reducible apply sound_elim) | split

theorem resultExpiry_sound (q : ℕ) (h : Hub) (hp_h : h.Sound) : (resultExpiry q h).Sound := by
  unfold resultExpiry
  try dsimp only
  repeat' first | with_reducible assumption | with_reducible intro _ | with_reducible apply bump_sound | (with_reducible apply sound_intro; dsimp only; with_reducible apply sound_elim) | split

theorem execResultHoldExpiry_sound (tag : ℕ) : Keeps (execResultHoldExpiry tag) := by
  unfold execResultHoldExpiry
  try dsimp only
  repeat' first | with_reducible assumption | with_reducible apply keeps_onHub | with_reducible intro _ | with_reducible apply resultExpiry_sound | (with_reducible apply sound_intro; dsimp only; with_reducible apply sound_elim) | split

theorem tick_sound (h : Hub) (hp_h : h.Sound) : (tick h).Sound := by
  unfold tick
  try dsimp only
  repeat' first | with_reducible assumption | with_reducible intro _ | with_reducible apply spireWatch_sound | with_reducible apply foresterTick_sound | with_reducible apply crossingsTick_sound | with_reducible apply channelsStart_sound | with_reducible apply spireTick_sound | with_reducible apply waitingShadows_sound | with_reducible apply waitingAccesses_sound | with_reducible apply heldImageWrites_sound | with_reducible apply gateWatch_sound | with_reducible apply sleepAbort_sound | (with_reducible apply sound_intro; dsimp only; with_reducible apply sound_elim) | split

end Sys2Proof.Machine
end

