-- ==== Sys2Proof/Laws/SoundSdo.lean ====
section
/-! SUPPORT. Every operation of Sdo.lean keeps a hub sound. -/

set_option linter.unusedTactic false
set_option linter.unreachableTactic false
set_option linter.unusedVariables false

namespace Sys2Proof.Machine

theorem sdoTake_sound (n : ℕ) (h : Hub) (hp_h : h.Sound) : (sdoTake n h).Sound := by
  unfold sdoTake
  try dsimp only
  repeat' first | with_reducible assumption | with_reducible intro _ | (with_reducible apply sound_intro; dsimp only; with_reducible apply sound_elim) | split

theorem sdoOn_sound (n : ℕ) (f : Hub → Hub) (h : Hub) (hf_f : ∀ x, x.Sound → (f x).Sound) (hp_h : h.Sound) : (sdoOn n f h).Sound := by
  unfold sdoOn
  try dsimp only
  repeat' first | with_reducible assumption | with_reducible intro _ | with_reducible apply hf_f | with_reducible apply sdoTake_sound | (with_reducible apply sound_intro; dsimp only; with_reducible apply sound_elim) | split

theorem setTransfer_sound (n : ℕ) (t : SdoTransfer) (h : Hub) (hp_h : h.Sound) : (setTransfer n t h).Sound := by
  unfold setTransfer
  try dsimp only
  repeat' first | with_reducible assumption | with_reducible intro _ | (with_reducible apply sound_intro; dsimp only; with_reducible apply sound_elim) | split

theorem endTransfer_sound (n : ℕ) (h : Hub) (hp_h : h.Sound) : (endTransfer n h).Sound := by
  unfold endTransfer
  try dsimp only
  repeat' first | with_reducible assumption | with_reducible intro _ | (with_reducible apply sound_intro; dsimp only; with_reducible apply sound_elim) | split

theorem sdoDone_sound (n : ℕ) (h : Hub) (hp_h : h.Sound) : (sdoDone n h).Sound := by
  unfold sdoDone
  try dsimp only
  repeat' first | with_reducible assumption | with_reducible intro _ | with_reducible apply bump_sound | with_reducible apply endTransfer_sound | (with_reducible apply sound_intro; dsimp only; with_reducible apply sound_elim) | split

theorem sdoApply_sound (ch : Fin 4) (index : ℕ) (sub : ℕ) (bs : List Byte) (ok : List Byte) (h : Hub) (hp_h : h.Sound) : (sdoApply ch index sub bs ok h).Sound := by
  unfold sdoApply
  try dsimp only
  repeat' first | with_reducible assumption | with_reducible intro _ | with_reducible apply sdoWrite_sound | with_reducible apply sdoSend_sound | with_reducible apply deferReply_sound | with_reducible apply sdoDone_sound | with_reducible apply sdoAbort_sound | (with_reducible apply sound_intro; dsimp only; with_reducible apply sound_elim) | split

theorem sdoDownload_sound (ch : Fin 4) (index : ℕ) (sub : ℕ) (expedited : Bool) (data : List Byte) (h0 : Hub) (hp_h0 : h0.Sound) : (sdoDownload ch index sub expedited data h0).Sound := by
  unfold sdoDownload
  try dsimp only
  repeat' first | with_reducible assumption | with_reducible intro _ | with_reducible apply sdoApply_sound | with_reducible apply sdoSend_sound | with_reducible apply setTransfer_sound | with_reducible apply endTransfer_sound | (with_reducible apply sound_intro; dsimp only; with_reducible apply sound_elim) | split

theorem execSdoDownloadInitiate_sound (ch : Fin 4) (index : ℕ) (sub : ℕ) (expedited : Bool) (data : List Byte) : Keeps (execSdoDownloadInitiate ch index sub expedited data) := by
  unfold execSdoDownloadInitiate
  try dsimp only
  repeat' first | with_reducible assumption | with_reducible apply keeps_onHub | with_reducible intro _ | with_reducible apply sdoDownload_sound | with_reducible apply sdoOn_sound | (with_reducible apply sound_intro; dsimp only; with_reducible apply sound_elim) | split

theorem sdoTooLong_sound (ch : Fin 4) (index : ℕ) (sub : ℕ) (bs : List Byte) (h : Hub) (hp_h : h.Sound) : (sdoTooLong ch index sub bs h).Sound := by
  unfold sdoTooLong
  try dsimp only
  repeat' first | with_reducible assumption | with_reducible intro _ | with_reducible apply sdoWrongSize_sound | with_reducible apply sdoAbort_sound | (with_reducible apply sound_intro; dsimp only; with_reducible apply sound_elim) | split

theorem sdoSegmentIn_sound (ch : Fin 4) (toggle : Bool) (data : List Byte) (last : Bool) (h : Hub) (hp_h : h.Sound) : (sdoSegmentIn ch toggle data last h).Sound := by
  unfold sdoSegmentIn
  try dsimp only
  repeat' first | with_reducible assumption | with_reducible intro _ | with_reducible apply sdoApply_sound | with_reducible apply sdoTooLong_sound | with_reducible apply sdoSend_sound | with_reducible apply setTransfer_sound | with_reducible apply sdoAbort_sound | (with_reducible apply sound_intro; dsimp only; with_reducible apply sound_elim) | split

theorem execSdoDownloadSegment_sound (ch : Fin 4) (toggle : Bool) (data : List Byte) (last : Bool) : Keeps (execSdoDownloadSegment ch toggle data last) := by
  unfold execSdoDownloadSegment
  try dsimp only
  repeat' first | with_reducible assumption | with_reducible apply keeps_onHub | with_reducible intro _ | with_reducible apply sdoSegmentIn_sound | with_reducible apply sdoOn_sound | (with_reducible apply sound_intro; dsimp only; with_reducible apply sound_elim) | split

theorem sdoBlockIn_sound (ch : Fin 4) (index : ℕ) (sub : ℕ) (data : List Byte) (crcOk : Bool) (h0 : Hub) (hp_h0 : h0.Sound) : (sdoBlockIn ch index sub data crcOk h0).Sound := by
  unfold sdoBlockIn
  try dsimp only
  repeat' first | with_reducible assumption | with_reducible intro _ | with_reducible apply sdoApply_sound | with_reducible apply sdoSend_sound | with_reducible apply endTransfer_sound | with_reducible apply forEach_sound | with_reducible apply sdoAbort_sound | (with_reducible apply sound_intro; dsimp only; with_reducible apply sound_elim) | split

theorem execSdoBlockDownload_sound (ch : Fin 4) (index : ℕ) (sub : ℕ) (data : List Byte) (crcOk : Bool) : Keeps (execSdoBlockDownload ch index sub data crcOk) := by
  unfold execSdoBlockDownload
  try dsimp only
  repeat' first | with_reducible assumption | with_reducible apply keeps_onHub | with_reducible intro _ | with_reducible apply sdoBlockIn_sound | with_reducible apply sdoOn_sound | (with_reducible apply sound_intro; dsimp only; with_reducible apply sound_elim) | split

theorem sdoRead_sound (ch : Fin 4) (index : ℕ) (sub : ℕ) (h : Hub) (hp_h : h.Sound) : (sdoRead ch index sub h).2.Sound := by
  unfold sdoRead
  try dsimp only
  repeat' first | with_reducible assumption | with_reducible intro _ | with_reducible apply answered_sound | with_reducible apply touch_sound | with_reducible apply readSlot_sound | with_reducible apply refuse_sound | (with_reducible apply sound_intro; dsimp only; with_reducible apply sound_elim) | split

theorem sdoUpload_sound (ch : Fin 4) (index : ℕ) (sub : ℕ) (h0 : Hub) (hp_h0 : h0.Sound) : (sdoUpload ch index sub h0).Sound := by
  unfold sdoUpload
  try dsimp only
  repeat' first | with_reducible assumption | with_reducible intro _ | with_reducible apply sdoRead_sound | with_reducible apply sdoSend_sound | with_reducible apply setTransfer_sound | with_reducible apply sdoDone_sound | with_reducible apply endTransfer_sound | with_reducible apply sdoAbort_sound | (with_reducible refine pair_sound ‹_ = (_, _)› ?_) | (with_reducible apply sound_intro; dsimp only; with_reducible apply sound_elim) | split

theorem execSdoUploadInitiate_sound (ch : Fin 4) (index : ℕ) (sub : ℕ) : Keeps (execSdoUploadInitiate ch index sub) := by
  unfold execSdoUploadInitiate
  try dsimp only
  repeat' first | with_reducible assumption | with_reducible apply keeps_onHub | with_reducible intro _ | with_reducible apply sdoUpload_sound | with_reducible apply sdoOn_sound | (with_reducible apply sound_intro; dsimp only; with_reducible apply sound_elim) | split

theorem sdoSegmentOut_sound (ch : Fin 4) (toggle : Bool) (h : Hub) (hp_h : h.Sound) : (sdoSegmentOut ch toggle h).Sound := by
  unfold sdoSegmentOut
  try dsimp only
  repeat' first | with_reducible assumption | with_reducible intro _ | with_reducible apply sdoSend_sound | with_reducible apply answered_sound | with_reducible apply setTransfer_sound | with_reducible apply sdoDone_sound | with_reducible apply sdoAbort_sound | (with_reducible apply sound_intro; dsimp only; with_reducible apply sound_elim) | split

theorem execSdoUploadSegment_sound (ch : Fin 4) (toggle : Bool) : Keeps (execSdoUploadSegment ch toggle) := by
  unfold execSdoUploadSegment
  try dsimp only
  repeat' first | with_reducible assumption | with_reducible apply keeps_onHub | with_reducible intro _ | with_reducible apply sdoSegmentOut_sound | with_reducible apply sdoOn_sound | (with_reducible apply sound_intro; dsimp only; with_reducible apply sound_elim) | split

theorem sdoBlockOut_sound (ch : Fin 4) (index : ℕ) (sub : ℕ) (size : ℕ) (h0 : Hub) (hp_h0 : h0.Sound) : (sdoBlockOut ch index sub size h0).Sound := by
  unfold sdoBlockOut
  try dsimp only
  repeat' first | with_reducible assumption | with_reducible intro _ | with_reducible apply sdoRead_sound | with_reducible apply sdoSend_sound | with_reducible apply answered_sound | with_reducible apply sdoDone_sound | with_reducible apply endTransfer_sound | with_reducible apply forEach_sound | with_reducible apply sdoAbort_sound | (with_reducible refine pair_sound ‹_ = (_, _)› ?_) | (with_reducible apply sound_intro; dsimp only; with_reducible apply sound_elim) | split

theorem execSdoBlockUpload_sound (ch : Fin 4) (index : ℕ) (sub : ℕ) (blockSize : ℕ) : Keeps (execSdoBlockUpload ch index sub blockSize) := by
  unfold execSdoBlockUpload
  try dsimp only
  repeat' first | with_reducible assumption | with_reducible apply keeps_onHub | with_reducible intro _ | with_reducible apply sdoBlockOut_sound | with_reducible apply sdoOn_sound | (with_reducible apply sound_intro; dsimp only; with_reducible apply sound_elim) | split

theorem execSdoAbortTransfer_sound (ch : Fin 4) : Keeps (execSdoAbortTransfer ch) := by
  unfold execSdoAbortTransfer
  try dsimp only
  repeat' first | with_reducible assumption | with_reducible apply keeps_onHub | with_reducible intro _ | with_reducible apply endTransfer_sound | with_reducible apply sdoOn_sound | (with_reducible apply sound_intro; dsimp only; with_reducible apply sound_elim) | split

theorem sdoTimeout_sound (ch : Fin 4) (h : Hub) (hp_h : h.Sound) : (sdoTimeout ch h).Sound := by
  unfold sdoTimeout
  try dsimp only
  repeat' first | with_reducible assumption | with_reducible intro _ | with_reducible apply sdoAbort_sound | (with_reducible apply sound_intro; dsimp only; with_reducible apply sound_elim) | split

theorem execSdoSegmentTimeout_sound (ch : Fin 4) : Keeps (execSdoSegmentTimeout ch) := by
  unfold execSdoSegmentTimeout
  try dsimp only
  repeat' first | with_reducible assumption | with_reducible apply keeps_onHub | with_reducible intro _ | with_reducible apply sdoTimeout_sound | (with_reducible apply sound_intro; dsimp only; with_reducible apply sound_elim) | split

end Sys2Proof.Machine
end

