-- ==== Sys2Proof/Laws/Startup.lean ====
section
/-! SUPPORT. What resets keep, what BOOT's steps write, what a new epoch leaves as it was. -/

namespace Sys2Proof.Machine

theorem cutStore_update (h : Hub) : (cutStore h).update = h.update := by
  unfold cutStore; split
  · split <;> rfl
  · rfl

theorem cutStore_dome (h : Hub) : (cutStore h).dome = h.dome := by
  unfold cutStore; split
  · split <;> rfl
  · rfl

theorem cutStore_env (h : Hub) : (cutStore h).env = h.env := by
  unfold cutStore; split
  · split <;> rfl
  · rfl

/-- A reset puts every entry at its default and keeps the flash and the always-on records. -/
theorem resetHub_with (c : Nat) (hc : c < 256) (h : Hub) : ResetWith c h (resetHub c h) := by
  refine ⟨?_, ?_, ?_, ?_, ?_, ?_, ?_, ?_, ?_, rfl, rfl, rfl, rfl, rfl⟩
  · unfold resetHub; rw [rd_wr, if_pos rfl]; omega
  · intro k hk; unfold resetHub; rw [rdW_wr, if_neg hk]; rfl
  all_goals simp only [resetHub, wr_update, wr_dome, keepAlwaysOn, keepFlash, cutStore_update, cutStore_dome]

@[simp] theorem resetHub_env (c : Nat) (h : Hub) : (resetHub c h).env = h.env := by
  simp [resetHub, keepAlwaysOn, keepFlash, cutStore_env]

/-! ### A new epoch -/

/-- A hub without what taking a new epoch may change: what a fault may change, and Dome. -/
def noEpoch (h : Hub) : Hub := { noFault h with dome := Hub.reset.dome }

theorem noEpoch_of {g h : Hub} (e : noFault g = noFault h) : noEpoch g = noEpoch h := by unfold noEpoch; rw [e]

theorem noEpoch_epochPersisted (e : Nat) (h : Hub) : noEpoch (epochPersisted e h) = noEpoch h := by
  unfold epochPersisted
  simp only []
  split
  · exact (noEpoch_of (noFault_raiseEvent _ _ _ _)).trans rfl
  · rfl

theorem noEpoch_advanceEpoch (r : Bool) (h : Hub) : noEpoch (advanceEpoch r h) = noEpoch h := by
  unfold advanceEpoch
  split
  · rfl
  · split
    · exact (noEpoch_of (noFault_raiseFault _ _ _ _ _)).trans rfl
    · simp only []
      generalize hx : (if h.dome.epochValid = true then h.dome.epoch + 1 else h.dome.ceiling) = x
      split
      · rw [noEpoch_epochPersisted]; rfl
      · rfl

theorem noEpoch_freeCount_eq (h : Hub) : (noEpoch h).freeCount = h.freeCount := rfl
theorem noEpoch_answer_eq (h : Hub) : (noEpoch h).answer = h.answer := rfl
theorem noEpoch_env_eq (h : Hub) : (noEpoch h).env = h.env := rfl
theorem noEpoch_boot_eq (h : Hub) : (noEpoch h).boot = h.boot := rfl
theorem noEpoch_modes_eq (h : Hub) : (noEpoch h).modes = h.modes := rfl
theorem noEpoch_stopped_eq (h : Hub) : (noEpoch h).stopped = h.stopped := rfl
theorem noEpoch_crossings_eq (h : Hub) : (noEpoch h).crossings = h.crossings := rfl
theorem noEpoch_paths_eq (h : Hub) : (noEpoch h).paths = h.paths := rfl
theorem noEpoch_hostHalf_eq (h : Hub) : (noEpoch h).hostHalf = h.hostHalf := rfl
theorem noEpoch_mailbox_eq (h : Hub) : (noEpoch h).mailbox = h.mailbox := rfl
theorem noEpoch_store_eq (h : Hub) : (noEpoch h).store = h.store := rfl
theorem noEpoch_copyA_eq (h : Hub) : (noEpoch h).copyA = h.copyA := rfl
theorem noEpoch_copyB_eq (h : Hub) : (noEpoch h).copyB = h.copyB := rfl
theorem noEpoch_spire_eq (h : Hub) : (noEpoch h).spire = h.spire := rfl
theorem noEpoch_engines_eq (h : Hub) : (noEpoch h).engines = h.engines := rfl
theorem noEpoch_pads_eq (h : Hub) : (noEpoch h).pads = h.pads := rfl
theorem noEpoch_fifos_eq (h : Hub) : (noEpoch h).fifos = h.fifos := rfl
theorem noEpoch_sessions_eq (h : Hub) : (noEpoch h).sessions = h.sessions := rfl
theorem noEpoch_adc_eq (h : Hub) : (noEpoch h).adc = h.adc := rfl
theorem noEpoch_power_eq (h : Hub) : (noEpoch h).power = h.power := rfl
theorem noEpoch_sleep_eq (h : Hub) : (noEpoch h).sleep = h.sleep := rfl
theorem noEpoch_links_eq (h : Hub) : (noEpoch h).links = h.links := rfl
theorem noEpoch_tx_eq (h : Hub) : (noEpoch h).tx = h.tx := rfl
theorem noEpoch_ring_eq (h : Hub) : (noEpoch h).ring = h.ring := rfl
theorem noEpoch_belfry_eq (h : Hub) : (noEpoch h).belfry = h.belfry := rfl
theorem noEpoch_channels_eq (h : Hub) : (noEpoch h).channels = h.channels := rfl
theorem noEpoch_canopy_eq (h : Hub) : (noEpoch h).canopy = h.canopy := rfl
theorem noEpoch_host_eq (h : Hub) : (noEpoch h).host = h.host := rfl
theorem noEpoch_forester_eq (h : Hub) : (noEpoch h).forester = h.forester := rfl
theorem noEpoch_can_eq (h : Hub) : (noEpoch h).can = h.can := rfl
theorem noEpoch_canopen_eq (h : Hub) : (noEpoch h).canopen = h.canopen := rfl
theorem noEpoch_t1s_eq (h : Hub) : (noEpoch h).t1s = h.t1s := rfl
theorem noEpoch_update_eq (h : Hub) : (noEpoch h).update = h.update := rfl
@[simp] theorem advanceEpoch_freeCount (r : Bool) (h : Hub) : (advanceEpoch r h).freeCount = h.freeCount :=
  (noEpoch_freeCount_eq _).symm.trans ((congrArg Hub.freeCount (noEpoch_advanceEpoch r h)).trans (noEpoch_freeCount_eq h))
@[simp] theorem advanceEpoch_answer (r : Bool) (h : Hub) : (advanceEpoch r h).answer = h.answer :=
  (noEpoch_answer_eq _).symm.trans ((congrArg Hub.answer (noEpoch_advanceEpoch r h)).trans (noEpoch_answer_eq h))
@[simp] theorem advanceEpoch_env (r : Bool) (h : Hub) : (advanceEpoch r h).env = h.env :=
  (noEpoch_env_eq _).symm.trans ((congrArg Hub.env (noEpoch_advanceEpoch r h)).trans (noEpoch_env_eq h))
@[simp] theorem advanceEpoch_boot (r : Bool) (h : Hub) : (advanceEpoch r h).boot = h.boot :=
  (noEpoch_boot_eq _).symm.trans ((congrArg Hub.boot (noEpoch_advanceEpoch r h)).trans (noEpoch_boot_eq h))
@[simp] theorem advanceEpoch_modes (r : Bool) (h : Hub) : (advanceEpoch r h).modes = h.modes :=
  (noEpoch_modes_eq _).symm.trans ((congrArg Hub.modes (noEpoch_advanceEpoch r h)).trans (noEpoch_modes_eq h))
@[simp] theorem advanceEpoch_stopped (r : Bool) (h : Hub) : (advanceEpoch r h).stopped = h.stopped :=
  (noEpoch_stopped_eq _).symm.trans ((congrArg Hub.stopped (noEpoch_advanceEpoch r h)).trans (noEpoch_stopped_eq h))
@[simp] theorem advanceEpoch_crossings (r : Bool) (h : Hub) : (advanceEpoch r h).crossings = h.crossings :=
  (noEpoch_crossings_eq _).symm.trans ((congrArg Hub.crossings (noEpoch_advanceEpoch r h)).trans (noEpoch_crossings_eq h))
@[simp] theorem advanceEpoch_paths (r : Bool) (h : Hub) : (advanceEpoch r h).paths = h.paths :=
  (noEpoch_paths_eq _).symm.trans ((congrArg Hub.paths (noEpoch_advanceEpoch r h)).trans (noEpoch_paths_eq h))
@[simp] theorem advanceEpoch_hostHalf (r : Bool) (h : Hub) : (advanceEpoch r h).hostHalf = h.hostHalf :=
  (noEpoch_hostHalf_eq _).symm.trans ((congrArg Hub.hostHalf (noEpoch_advanceEpoch r h)).trans (noEpoch_hostHalf_eq h))
@[simp] theorem advanceEpoch_mailbox (r : Bool) (h : Hub) : (advanceEpoch r h).mailbox = h.mailbox :=
  (noEpoch_mailbox_eq _).symm.trans ((congrArg Hub.mailbox (noEpoch_advanceEpoch r h)).trans (noEpoch_mailbox_eq h))
@[simp] theorem advanceEpoch_store (r : Bool) (h : Hub) : (advanceEpoch r h).store = h.store :=
  (noEpoch_store_eq _).symm.trans ((congrArg Hub.store (noEpoch_advanceEpoch r h)).trans (noEpoch_store_eq h))
@[simp] theorem advanceEpoch_copyA (r : Bool) (h : Hub) : (advanceEpoch r h).copyA = h.copyA :=
  (noEpoch_copyA_eq _).symm.trans ((congrArg Hub.copyA (noEpoch_advanceEpoch r h)).trans (noEpoch_copyA_eq h))
@[simp] theorem advanceEpoch_copyB (r : Bool) (h : Hub) : (advanceEpoch r h).copyB = h.copyB :=
  (noEpoch_copyB_eq _).symm.trans ((congrArg Hub.copyB (noEpoch_advanceEpoch r h)).trans (noEpoch_copyB_eq h))
@[simp] theorem advanceEpoch_spire (r : Bool) (h : Hub) : (advanceEpoch r h).spire = h.spire :=
  (noEpoch_spire_eq _).symm.trans ((congrArg Hub.spire (noEpoch_advanceEpoch r h)).trans (noEpoch_spire_eq h))
@[simp] theorem advanceEpoch_engines (r : Bool) (h : Hub) : (advanceEpoch r h).engines = h.engines :=
  (noEpoch_engines_eq _).symm.trans ((congrArg Hub.engines (noEpoch_advanceEpoch r h)).trans (noEpoch_engines_eq h))
@[simp] theorem advanceEpoch_pads (r : Bool) (h : Hub) : (advanceEpoch r h).pads = h.pads :=
  (noEpoch_pads_eq _).symm.trans ((congrArg Hub.pads (noEpoch_advanceEpoch r h)).trans (noEpoch_pads_eq h))
@[simp] theorem advanceEpoch_fifos (r : Bool) (h : Hub) : (advanceEpoch r h).fifos = h.fifos :=
  (noEpoch_fifos_eq _).symm.trans ((congrArg Hub.fifos (noEpoch_advanceEpoch r h)).trans (noEpoch_fifos_eq h))
@[simp] theorem advanceEpoch_sessions (r : Bool) (h : Hub) : (advanceEpoch r h).sessions = h.sessions :=
  (noEpoch_sessions_eq _).symm.trans ((congrArg Hub.sessions (noEpoch_advanceEpoch r h)).trans (noEpoch_sessions_eq h))
@[simp] theorem advanceEpoch_adc (r : Bool) (h : Hub) : (advanceEpoch r h).adc = h.adc :=
  (noEpoch_adc_eq _).symm.trans ((congrArg Hub.adc (noEpoch_advanceEpoch r h)).trans (noEpoch_adc_eq h))
@[simp] theorem advanceEpoch_power (r : Bool) (h : Hub) : (advanceEpoch r h).power = h.power :=
  (noEpoch_power_eq _).symm.trans ((congrArg Hub.power (noEpoch_advanceEpoch r h)).trans (noEpoch_power_eq h))
@[simp] theorem advanceEpoch_sleep (r : Bool) (h : Hub) : (advanceEpoch r h).sleep = h.sleep :=
  (noEpoch_sleep_eq _).symm.trans ((congrArg Hub.sleep (noEpoch_advanceEpoch r h)).trans (noEpoch_sleep_eq h))
@[simp] theorem advanceEpoch_links (r : Bool) (h : Hub) : (advanceEpoch r h).links = h.links :=
  (noEpoch_links_eq _).symm.trans ((congrArg Hub.links (noEpoch_advanceEpoch r h)).trans (noEpoch_links_eq h))
@[simp] theorem advanceEpoch_tx (r : Bool) (h : Hub) : (advanceEpoch r h).tx = h.tx :=
  (noEpoch_tx_eq _).symm.trans ((congrArg Hub.tx (noEpoch_advanceEpoch r h)).trans (noEpoch_tx_eq h))
@[simp] theorem advanceEpoch_ring (r : Bool) (h : Hub) : (advanceEpoch r h).ring = h.ring :=
  (noEpoch_ring_eq _).symm.trans ((congrArg Hub.ring (noEpoch_advanceEpoch r h)).trans (noEpoch_ring_eq h))
@[simp] theorem advanceEpoch_belfry (r : Bool) (h : Hub) : (advanceEpoch r h).belfry = h.belfry :=
  (noEpoch_belfry_eq _).symm.trans ((congrArg Hub.belfry (noEpoch_advanceEpoch r h)).trans (noEpoch_belfry_eq h))
@[simp] theorem advanceEpoch_channels (r : Bool) (h : Hub) : (advanceEpoch r h).channels = h.channels :=
  (noEpoch_channels_eq _).symm.trans ((congrArg Hub.channels (noEpoch_advanceEpoch r h)).trans (noEpoch_channels_eq h))
@[simp] theorem advanceEpoch_canopy (r : Bool) (h : Hub) : (advanceEpoch r h).canopy = h.canopy :=
  (noEpoch_canopy_eq _).symm.trans ((congrArg Hub.canopy (noEpoch_advanceEpoch r h)).trans (noEpoch_canopy_eq h))
@[simp] theorem advanceEpoch_host (r : Bool) (h : Hub) : (advanceEpoch r h).host = h.host :=
  (noEpoch_host_eq _).symm.trans ((congrArg Hub.host (noEpoch_advanceEpoch r h)).trans (noEpoch_host_eq h))
@[simp] theorem advanceEpoch_forester (r : Bool) (h : Hub) : (advanceEpoch r h).forester = h.forester :=
  (noEpoch_forester_eq _).symm.trans ((congrArg Hub.forester (noEpoch_advanceEpoch r h)).trans (noEpoch_forester_eq h))
@[simp] theorem advanceEpoch_can (r : Bool) (h : Hub) : (advanceEpoch r h).can = h.can :=
  (noEpoch_can_eq _).symm.trans ((congrArg Hub.can (noEpoch_advanceEpoch r h)).trans (noEpoch_can_eq h))
@[simp] theorem advanceEpoch_canopen (r : Bool) (h : Hub) : (advanceEpoch r h).canopen = h.canopen :=
  (noEpoch_canopen_eq _).symm.trans ((congrArg Hub.canopen (noEpoch_advanceEpoch r h)).trans (noEpoch_canopen_eq h))
@[simp] theorem advanceEpoch_t1s (r : Bool) (h : Hub) : (advanceEpoch r h).t1s = h.t1s :=
  (noEpoch_t1s_eq _).symm.trans ((congrArg Hub.t1s (noEpoch_advanceEpoch r h)).trans (noEpoch_t1s_eq h))
@[simp] theorem advanceEpoch_update (r : Bool) (h : Hub) : (advanceEpoch r h).update = h.update :=
  (noEpoch_update_eq _).symm.trans ((congrArg Hub.update (noEpoch_advanceEpoch r h)).trans (noEpoch_update_eq h))

theorem rdW_epochPersisted_of (e : Nat) (h : Hub) (k : Nat) (n : eventKey k = false) (m : k ≠ 0x4B00_11) :
    rdW (epochPersisted e h) k = rdW h k := by
  unfold epochPersisted
  simp only []
  split
  · rw [rdW_raiseEvent_of _ _ _ _ _ (by decide) n]
    unfold bump bumpBy
    rw [rdW_wr, if_neg m]; rfl
  · rfl

theorem rdW_advanceEpoch_of (r : Bool) (h : Hub) (k : Nat) (n : faultKey k = false) (m : k ≠ 0x4B00_11) :
    rdW (advanceEpoch r h) k = rdW h k := by
  unfold advanceEpoch
  split
  · rfl
  · split
    · rw [rdW_raiseFault_of _ _ _ _ _ _ n]; rfl
    · simp only []
      generalize hx : (if h.dome.epochValid = true then h.dome.epoch + 1 else h.dome.ceiling) = x
      split
      · rw [rdW_epochPersisted_of _ _ _ (eventKey_of_faultKey n) m]; rfl
      · rfl

theorem rd_advanceEpoch_of (r : Bool) (h : Hub) (k : Nat) (n : faultKey k = false) (m : k ≠ 0x4B00_11) :
    rd (advanceEpoch r h) k = rd h k := by unfold rd; rw [rdW_advanceEpoch_of _ _ _ n m]

/-! ### BOOT -/

/-- The registers of the straps and the status after BOOT starts. -/
theorem rd_bootStart_of (straps : Nat) (tm : Bool) (h : Hub) (k : Nat) (n : faultKey k = false) (m : k ≠ 0x4B00_11) :
    rd (bootStart straps tm h) k = rd (wr (strapEntries straps h) 0x2000_11
      (if tm != (bits straps 11 10 == 3) then 8 else if bits straps 7 0 = 0xFF then 9 else 0)) k := by
  unfold bootStart
  simp only []
  rw [rd_advanceEpoch_of _ _ _ n m]
  rfl

theorem noEpoch_bootStart (straps : Nat) (tm : Bool) (h : Hub) :
    (bootStart straps tm h).env = h.env ∧ (bootStart straps tm h).pads = h.pads ∧ (bootStart straps tm h).boot.latched = true := by
  unfold bootStart
  simp only []
  refine ⟨?_, ?_, ?_⟩
  · rw [advanceEpoch_env]; simp [avsBoot, takeFree, strapEntries]
  · rw [advanceEpoch_pads]; simp [avsBoot, takeFree, strapEntries]
  · rw [advanceEpoch_boot]; simp [avsBoot, takeFree]

end Sys2Proof.Machine
end

