-- ==== Sys2Proof/Laws/Transfers.lean ====
section
/-! SUPPORT. What a transfer over a crossing and a Belfry command's tick can do, said once: the crossing operations of
Machine/Crossings.lean, `takeTick` and `upset`. -/

namespace Sys2Proof.Machine

/-! ### Crossings -/

/-- A crossing that is open and empty, with no injection armed, takes a word as it is and keeps nothing of it. -/
theorem crossWord_clear (src dst : Nat) (w : XWord) (h : Hub) (o : crossingShut h src dst = false)
    (e : (crossing h src dst).entries = []) (i : h.watch.armed = []) : crossWord src dst w h = (some w, h) := by
  have p : (takeParity src dst h).1 = false := by simp [takeParity, i]
  simp [crossWord, o, e, p]

/-- A crossing that is shut takes no word: the sender counts it (R26, R27). -/
theorem crossWord_shut (src dst : Nat) (w : XWord) (h : Hub) (o : crossingShut h src dst = true) :
    crossWord src dst w h
      = (none, setCrossing h src dst { crossing h src dst with discarded := (crossing h src dst).discarded + 1 }) := by
  simp [crossWord, o]

theorem crossWords_clear (src dst : Nat) (ws : List XWord) (h : Hub) (o : crossingShut h src dst = false)
    (e : (crossing h src dst).entries = []) (i : h.watch.armed = []) : crossWords src dst ws h = (ws, h) := by
  induction ws with
  | nil => rfl
  | cons w ws ih => simp [crossWords, crossWord_clear src dst w h o e i, ih]

/-- A frame passes a clear crossing as it is. -/
theorem crossFrame_clear (src dst : Nat) (f : Frame) (h : Hub) (o : crossingShut h src dst = false)
    (e : (crossing h src dst).entries = []) (i : h.watch.armed = []) : crossFrame src dst f h = (some f, h) := by
  have p : ((insideWords f).map plainWord).zipIdx.filter (fun e => e.1.poison) = [] := by
    rw [List.filter_eq_nil_iff]
    intro x m
    obtain ⟨y, -, q⟩ := List.mem_map.mp (List.fst_mem_of_mem_zipIdx m)
    simp [← q, plainWord]
  simp [crossFrame, crossWords_clear src dst _ h o e i, o, p]

theorem sendOver_clear (src dst : Nat) (act : Frame → Hub → Hub) (f : Frame) (h : Hub) (o : crossingShut h src dst = false)
    (e : (crossing h src dst).entries = []) (i : h.watch.armed = []) : sendOver src dst act f h = act f h := by
  simp [sendOver, crossFrame_clear src dst f h o e i]

/-! ### Belfry's tick and its upsets -/

/-- A step over a list that changes the channels alone changes, in all, the channels alone. -/
theorem forEach_channels {α : Type} (f : α → Hub → Hub) (one : ∀ a g, f a g = { g with channels := (f a g).channels }) :
    ∀ (l : List α) (g : Hub), forEach l f g = { g with channels := (forEach l f g).channels }
  | [], _ => rfl
  | a :: l, g => by
    have r : forEach (a :: l) f g = forEach l f (f a g) := rfl
    rw [r, forEach_channels f one l (f a g), one a g]

theorem logTick_eq (t : TickReg) (h : Hub) : logTick t h = { h with channels := (logTick t h).channels } := by
  unfold logTick
  refine forEach_channels _ (fun n g => ?_) _ h
  split <;> rfl

/-- A tick changes the tick register and the logs of channels in REPLAY, and nothing else of the hub. -/
theorem takeTick_eq (ins : List TickInput) (h : Hub) :
    ∃ t, takeTick ins h = { h with belfry := { h.belfry with tick := t }, channels := (takeTick ins h).channels } :=
  ⟨_, logTick_eq _ _⟩

@[simp] theorem takeTick_dict (ins : List TickInput) (h : Hub) : (takeTick ins h).dict = h.dict := by
  obtain ⟨_, e⟩ := takeTick_eq ins h
  rw [e]

@[simp] theorem takeTick_stored (ins : List TickInput) (h : Hub) : (takeTick ins h).belfry.stored = h.belfry.stored := by
  obtain ⟨_, e⟩ := takeTick_eq ins h
  rw [e]

@[simp] theorem takeTick_locating (ins : List TickInput) (h : Hub) : (takeTick ins h).belfry.locating = h.belfry.locating := by
  obtain ⟨_, e⟩ := takeTick_eq ins h
  rw [e]

@[simp] theorem takeTick_taken (ins : List TickInput) (h : Hub) : (takeTick ins h).belfry.taken = h.belfry.taken := by
  obtain ⟨_, e⟩ := takeTick_eq ins h
  rw [e]

@[simp] theorem takeTick_raised (ins : List TickInput) (h : Hub) : (takeTick ins h).belfry.raised = h.belfry.raised := by
  obtain ⟨_, e⟩ := takeTick_eq ins h
  rw [e]

@[simp] theorem upset_dict (lost skew : List Nat) (h : Hub) : (upset lost skew h).dict = h.dict := rfl

@[simp] theorem upset_stored (lost skew : List Nat) (h : Hub) : (upset lost skew h).belfry.stored = h.belfry.stored := rfl

@[simp] theorem upset_locating (lost skew : List Nat) (h : Hub) : (upset lost skew h).belfry.locating = h.belfry.locating := rfl

@[simp] theorem upset_raised (lost skew : List Nat) (h : Hub) : (upset lost skew h).belfry.raised = h.belfry.raised := rfl

end Sys2Proof.Machine
end

