-- ==== Sys2Proof/WellFormed.lean ====
section
/-! DEFINITION. Well-formed commands: every numeric operand lies within the width its row's rule gives it. Times and lists
without a stated length have no bound of their own. -/

namespace Sys2Proof

/-- A number fits in n bits. -/
def fits (n v : Nat) : Bool := decide (v < 2 ^ n)

/-- A frame's header fields fit (Tables 4 and 5 of Ring links and frames). -/
def frameOk (f : Frame) : Bool :=
  fits 4 f.version && fits 4 f.ftype && fits 8 f.dst && fits 8 f.src && fits 16 f.seq && fits 16 f.specific
    && fits 23 f.group && decide (1 ≤ f.payload.length ∧ f.payload.length ≤ 256)

/-- A Canopy request's fields fit (Table 4 of Canopy addressing). -/
def requestOk (r : CReq) : Bool :=
  fits 3 r.port && fits 8 r.tag && fits 48 r.addr && fits 8 r.count && fits 6 r.be0 && fits 6 r.be1 && fits 8 r.src
    && fits 8 r.gen && fits 16 r.order

/-- A Canopy response's fields fit (Table 5 of Canopy addressing). -/
def responseOk (r : CResp) : Bool := fits 3 r.port && fits 8 r.tag && fits 8 r.src && fits 8 r.status && fits 9 r.count && fits 48 r.addr

/-- A CAN frame's fields fit (R470, Table 3 of CAN buses). -/
def canFrameOk (f : CanFrame) : Bool :=
  fits (if f.ide then 29 else 11) f.id && fits 4 f.dlc && decide (f.data.length ≤ 64) && fits 48 f.sof

/-- A FIFO or crossing word's valid-byte count fits (R23, R441). -/
def xwordOk (w : XWord) : Bool := fits 3 w.count

/-- A command is well formed. -/
def Instr.wf (i : Instr) : Bool :=
  match i with
  | .powerOn straps _ => fits 16 straps
  | .resetNFall _ => true
  | .resetNRise straps _ => fits 16 straps
  | .bootMemoryInitDone _ => true
  | .knownAnswerTestsDone results => fits 16 results
  | .imageVerifyDone _ _ _ => true
  | .firmwareSelftestDone channelsFailed enginesFailed => fits 3 channelsFailed && fits 64 enginesFailed
  | .factoryAuthTimeout => true
  | .factoryEntry => true
  | .bootControlWrite length => fits 32 length
  | .modeRequestCommission _ => true
  | .modeRequestRun _ => true
  | .modeRequestClearing _ => true
  | .modeRequestService _ => true
  | .limpExit => true
  | .softwareReset _ value => fits 48 value
  | .rangerWatchdogExpiry => true
  | .commissionBlockedTimeout => true
  | .runEntry => true
  | .clockMonitorWindow _ khz => fits 32 khz
  | .crossingTransfer _ dst word _ => fits 8 dst && xwordOk word
  | .crossingTimeout _ dst => fits 8 dst
  | .spireSyncEdge => true
  | .backstopTimeout _ => true
  | .dictionaryWrite path index sub span value =>
    fits 16 index && fits 8 sub && fits 3 span.offset && (path == .host || span.offset == 0) && fits 8 span.size && fits 48 value
  | .rcRead _ index sub update => fits 16 index && fits 8 sub && fits 48 update
  | .w1cWrite _ index sub value hwSet => fits 16 index && fits 8 sub && fits 48 value && fits 48 hwSet
  | .timeLowerRead _ index sub => fits 16 index && fits 8 sub
  | .timeLowerWrite _ index sub value => fits 16 index && fits 8 sub && fits 48 value
  | .timeUpperWrite _ index sub value => fits 16 index && fits 8 sub && fits 48 value
  | .longEntryFirstRead _ index sub => fits 16 index && fits 8 sub
  | .longEntrySlotWrite _ index sub value => fits 16 index && fits 8 sub && fits 48 value
  | .hostWindowLowRead slot span => fits 16 slot.index && fits 8 slot.sub && fits 3 span.offset && fits 13 span.size
  | .hostWindowHalfWrite index sub _ value => fits 16 index && fits 8 sub && fits 48 value
  | .ringDictRequest _ dst op _ index sub count data => fits 8 dst && fits 8 op && fits 16 index && fits 8 sub && fits 16 count && data.all (fits 48)
  | .mailboxRead _ => true
  | .mailboxWrite _ => true
  | .mailboxResponse _ status data => fits 16 status && fits 48 data
  | .mailboxTimeout => true
  | .storeParameters _ value => fits 48 value
  | .storeComplete _ => true
  | .restoreDefaultParameters _ value => fits 48 value
  | .configurationLoadDone => true
  | .configurationCommit _ value => fits 48 value
  | .linkDownRestart _ => true
  | .linkSignalDetect _ => true
  | .blockLock _ => true
  | .alignLock _ skew => fits 16 skew
  | .fecLock _ => true
  | .helloReceived _ version _ _ hub => fits 8 version && fits 8 hub
  | .linkStateTimeout _ => true
  | .holdDownExpiry _ => true
  | .helloSend _ => true
  | .linkTrainFailTimer _ => true
  | .linkFailure _ _ => true
  | .errorTakedown _ found => fits 32 found.errors && fits 32 found.corrected
  | .frameReceive _ frame hop check => frameOk frame && fits 8 hop && fits 32 check.crc
  | .frameSend point => fits 11 point.sent
  | .presenceSend => true
  | .presence _ _ hop role mode serial => fits 8 hop && fits 8 role && fits 8 mode && fits 32 serial
  | .presenceTimeout hub _ => fits 8 hub
  | .claimSend => true
  | .claim number role serial => fits 8 number && fits 8 role && fits 32 serial
  | .offer number serial => fits 8 number && fits 32 serial
  | .conflict number serial => fits 8 number && fits 32 serial
  | .claimTimerExpiry => true
  | .linkState _ _ _ => true
  | .ringPortRetrain _ sub value => fits 8 sub && fits 48 value
  | .transmitDisableWrite _ value => fits 48 value
  | .ringFrameAdmit _ frame => frameOk frame
  | .creditedFrameStart _ => true
  | .cellGrant => true
  | .outputCreditReturn _ _ => true
  | .ageingScan => true
  | .bufferCensus upsets _ => upsets.lost.all (fun c => decide (c < 32768)) && fits 17 upsets.twice
      && upsets.words.all fun w => decide (w.1 < 32768) && decide (w.2.1 < 32)
  | .locatePass lost => lost.all fun c => decide (c < 32768)
  | .voteMinority _ group => fits 8 group
  | .voteSplit cause group => fits 8 cause && fits 8 group
  | .digestCompare upsets => upsets.all fun u => decide (u.1 < 3) && decide (u.2.1 < 4096)
  | .channelTreeCheck _ _ => true
  | .channelSelftestDone _ _ => true
  | .checkpointLoaded _ _ => true
  | .replayCaughtUp _ upsets => upsets.all fun u => decide (u.1 < 4096)
  | .replayLogFull _ => true
  | .probationExpiry _ => true
  | .channelRelease _ value => fits 48 value
  | .canopyRequestIssue req => requestOk req
  | .canopyHomeRequest req => requestOk req
  | .canopyHolderRequest req => requestOk req
  | .canopyResponse resp => responseOk resp
  | .retryDelayExpiry port _ => fits 3 port
  | .orderGapTimeout _ port _ => fits 3 port
  | .flowStateExpiry _ port _ => fits 3 port
  | .writeAckTimer _ port _ => fits 3 port
  | .completionTimeout port _ => fits 3 port
  | .barrier port => fits 3 port
  | .reachLifetimeExpiry handle => fits 23 handle
  | .reachFlush _ value => fits 48 value
  | .moveTimeLimitExpiry slot => fits 12 slot
  | .definitionWrite _ slot field value => fits 12 slot && fits 4 field && fits 48 value
  | .placementRun => true
  | .placementRetry => true
  | .scoringInterval => true
  | .moveRequestStart _ value => fits 48 value
  | .migrationOffer _ _ handle kind length placement _ => fits 23 handle && fits 8 kind && fits 32 length && fits 48 placement
  | .migrationAnswer _ _ handle status base => fits 23 handle && fits 16 status && fits 20 base
  | .migrationDrain _ _ handle target _ => fits 23 handle && fits 8 target
  | .migrationDrained _ _ handle status => fits 23 handle && fits 16 status
  | .migrationData _ _ handle first _ => fits 23 handle && fits 24 first
  | .migrationInstalled _ _ handle received => fits 23 handle && fits 24 received
  | .migrationCommit _ _ handle terms => fits 23 handle && fits 8 terms.gen
  | .migrationAbort _ _ handle => fits 23 handle
  | .migrationCensus _ _ _ => true
  | .migrationHeld _ _ => true
  | .migrationGroup _ _ handle _ => fits 23 handle
  | .migrationScore _ handle _ => fits 23 handle
  | .migrationAck _ _ handle => fits 23 handle
  | .migrationResend _ => true
  | .censusTimeout => true
  | .handoverHalt _ _ => true
  | .cycleStart => true
  | .outputInstant => true
  | .contributionReceive _ _ index head _ => fits 16 index && fits 16 head.frames
  | .rebindNotice code handle _ slot cycle => fits 8 code && fits 23 handle && fits 12 slot && fits 30 cycle
  | .cycleWorkComplete => true
  | .cycleWatchdogExpiry _ => true
  | .announceSend => true
  | .announce _ cls _ => fits 8 cls
  | .announceTimeout hub => fits 8 hub
  | .syncSend _ => true
  | .sync _ master cls hops seq _ _ _ _ => fits 8 master && fits 8 cls && fits 8 hops && fits 16 seq
  | .spireStep => true
  | .delayReqSend _ _ => true
  | .delayReq _ _ seq _ => fits 16 seq
  | .delayResp _ seq t3Seq _ _ _ _ => fits 16 seq && fits 16 t3Seq
  | .delayRespTimeout _ => true
  | .chainSwitch => true
  | .holdoverEntry => true
  | .holdoverLimitExpiry => true
  | .holdoverCalibrate increment => fits 64 increment
  | .spireIslandFault => true
  | .ppsOutEdge => true
  | .ppsOutWidthEnd => true
  | .ppsInEdge _ => true
  | .ppsInTimeout => true
  | .sysNop _ _ => true
  | .sysHalt _ _ => true
  | .sysSig _ _ code => fits 8 code
  | .sysStamp _ _ => true
  | .sysClrm _ _ => true
  | .br _ _ cond target => fits 4 cond && fits 6 target
  | .brp _ _ _ _ target => fits 6 target
  | .dbnz _ _ target => fits 6 target
  | .await _ _ _ event _ => fits 8 event
  | .driveLow _ _ _ => true
  | .driveHigh _ _ _ => true
  | .driveRelease _ _ _ => true
  | .driveToggle _ _ _ => true
  | .shiftIn _ _ _ _ => true
  | .shiftOut _ _ _ _ => true
  | .take _ _ _ => true
  | .put _ _ _ _ count => fits 16 count
  | .copy _ _ dst src => fits 8 dst && fits 8 src
  | .aluAdd _ _ _ _ operand => fits 16 operand
  | .aluSub _ _ _ _ operand => fits 16 operand
  | .aluAnd _ _ _ _ operand => fits 16 operand
  | .aluOr _ _ _ _ operand => fits 16 operand
  | .aluXor _ _ _ _ operand => fits 16 operand
  | .aluShl _ _ _ _ operand => fits 16 operand
  | .aluShr _ _ _ _ operand => fits 16 operand
  | .aluNot _ _ _ _ operand => fits 16 operand
  | .aluRev _ _ _ _ operand => fits 16 operand
  | .ldi _ _ _ imm => fits 16 imm
  | .arm _ _ _ _ operand => fits 16 operand
  | .halt _ _ => true
  | .resume _ _ => true
  | .load _ _ image => fits 8 image
  | .loadClean _ _ image _ => fits 8 image
  | .engineStep _ _ _ => true
  | .flush _ _ => true
  | .txqRefill _ => true
  | .rxqDrain _ => true
  | .pinDriverDiagnosis fio => fits 8 fio
  | .engineCheckFailure _ cause => fits 8 cause
  | .engineSelftest _ => true
  | .fifoWordWrite _ word => xwordOk word
  | .fifoNarrowWrite _ _ value _ => fits 48 value
  | .fifoRead _ => true
  | .mark _ _ => true
  | .rewind _ _ => true
  | .release _ _ count => fits 16 count
  | .pageBudgetWrite _ _ value => fits 48 value
  | .stopTimeout _ => true
  | .idleTimeout _ => true
  | .streamDataSend _ => true
  | .streamData _ handle first _ => fits 23 handle && fits 24 first
  | .streamCredit handle limit expected => fits 23 handle && fits 24 limit && fits 64 expected
  | .creditPeriodic _ => true
  | .streamResendTimeout _ => true
  | .canFrameReceive _ frame _ => canFrameOk frame
  | .transmitRequest _ _ buf => fits 8 buf
  | .transmitAbort _ _ buf => fits 8 buf
  | .canTransmitAttempt _ => true
  | .canTransmitEnd _ _ loopDelayNs => fits 32 loopDelayNs
  | .busOffRecoveryDone _ => true
  | .busIntegrationDone _ => true
  | .canSettingsWrite _ _ sub value => fits 8 sub && fits 48 value
  | .busOffRestart _ _ => true
  | .clearBusOffRecord _ _ => true
  | .stuckDominant _ => true
  | .bufferInfoRead _ _ _ => true
  | .sdoDownloadInitiate _ index sub _ _ => fits 16 index && fits 8 sub
  | .sdoDownloadSegment _ _ _ _ => true
  | .sdoUploadInitiate _ index sub => fits 16 index && fits 8 sub
  | .sdoUploadSegment _ _ => true
  | .sdoBlockDownload _ index sub _ _ => fits 16 index && fits 8 sub
  | .sdoBlockUpload _ index sub blockSize => fits 16 index && fits 8 sub && fits 8 blockSize
  | .sdoAbortTransfer _ => true
  | .sdoSegmentTimeout _ => true
  | .heartbeatSend => true
  | .nodeIdWrite _ value => fits 48 value
  | .processObjectRead _ index sub => fits 16 index && fits 8 sub
  | .processObjectWrite _ index sub value => fits 16 index && fits 8 sub && fits 48 value
  | .sleepPropose wakeIn => fits 8 wakeIn
  | .propose _ round present wakeIn => fits 16 round && fits 8 present && fits 8 wakeIn
  | .consent _ _ round => fits 16 round
  | .refuse _ _ round reasons => fits 16 round && fits 16 reasons
  | .sleepRoundTimeout => true
  | .sleepRetry wakeIn => fits 8 wakeIn
  | .commitResend => true
  | .commit _ round _ => fits 16 round
  | .abort _ _ round reasons => fits 16 round && fits 16 reasons
  | .sleepAbort reasons => fits 16 reasons
  | .drainTimeStart => true
  | .abortMarginStart => true
  | .pointOfNoReturn => true
  | .dormantReached => true
  | .wakeAccepted source => fits 8 source
  | .wakeProductivityTimeout source => fits 8 source
  | .wakeConfirmation _ value => fits 48 value
  | .wakeUnmask _ value => fits 48 value
  | .pnFrameDecode _ frame _ => canFrameOk frame
  | .dormantWake kat _ channelsFailed enginesFailed _ _ => fits 16 kat && fits 3 channelsFailed && fits 64 enginesFailed
  | .powerGoodPoll _ status => fits 16 status
  | .powerGoodTimeout _ => true
  | .t1sFrameReceive _ _ _ _ => true
  | .t1sTransmitAttempt _ _ => true
  | .t1sCollision _ _ => true
  | .backoffExpiry _ => true
  | .t1sTransmitDone _ => true
  | .beacon _ => true
  | .beaconSend _ => true
  | .toTimerExpiry _ => true
  | .plcaBeaconTimeout _ => true
  | .transmitDoorbell _ _ value => fits 48 value
  | .pollInterval _ => true
  | .bar2Write offset _ _ requester => fits 32 offset && fits 16 requester
  | .bar2Read offset length requester => fits 32 offset && fits 32 length && fits 16 requester
  | .atomicFetchadd _ offset addend => fits 32 offset && fits 64 addend
  | .atomicCas _ offset expected value => fits 32 offset && fits 64 expected && fits 64 value
  | .hostWriteFailure address requester _ status => fits 48 address && fits 16 requester && fits 16 status
  | .barrierRead _ => true
  | .msixMessage _ => true
  | .bridgeReset => true
  | .hostLinkUp speed width => fits 8 speed && fits 8 width
  | .qspiWrite address _ => fits 32 address
  | .qspiRead address length => fits 32 address && fits 32 length
  | .readResult _ => true
  | .qspiFetchAdd address addend => fits 32 address && fits 64 addend
  | .qspiCas address expected value => fits 32 address && fits 64 expected && fits 64 value
  | .resultHoldExpiry _ => true
  | .sealFrame frame => frameOk frame
  | .openFrame frame => frameOk frame
  | .epochGraceExpiry _ slot => fits 12 slot
  | .rekeyIntervalExpiry => true
  | .epochAdvance _ => true
  | .selfTests _ results => fits 16 results
  | .zeroise _ => true
  | .ceilingWriteDone _ => true
  | .epochWriteRetry => true
  | .installCommand _ value => fits 48 value
  | .sessionEnd _ => true
  | .operatorRoleRequest _ => true
  | .cryptoOfficerRoleRequest _ => true
  | .responseWrite _ _ => true
  | .challengeExpiry _ => true
  | .roleLockoutExpiry _ => true
  | .sessionIdleTimeout _ => true
  | .tamperEvent kind => fits 8 kind
  | .conversionRound _ _ _ => true
  | .softStartStep _ _ => true
  | .onRequestChange _ _ => true
  | .fastComparatorTrip _ => true
  | .rampTimeout _ => true
  | .overcurrentDelayExpiry _ => true
  | .gateSuspectTimeout _ => true
  | .cooldownExpiry _ => true
  | .retryWindowExpiry _ => true
  | .presenceChange _ _ => true
  | .currentLimitWrite _ _ value => fits 48 value
  | .limitGraceExpiry _ => true
  | .channelEnableWrite _ _ value => fits 48 value
  | .clearLockout _ _ => true
  | .clearSuspect _ _ => true
  | .fetShortDetect _ => true
  | .groveVoteClear _ vote => fits 8 vote
  | .offDelayExpiry _ => true
  | .voteReturn _ vote => fits 8 vote
  | .groveSwitchOn _ _ => true
  | .avsUpdate ack currentMa => fits 2 ack && fits 16 currentMa
  | .avsRetry ack => fits 2 ack
  | .avsReadback mv => fits 16 mv
  | .pmbusRetry _ _ => true
  | .pmbAlert _ => true
  | .faultRaise code island detailA detailB => fits 8 code && fits 8 island && fits 48 detailA && fits 48 detailB
  | .faultCauseGone code => fits 8 code
  | .acknowledge _ code => fits 8 code
  | .acknowledgeAll _ => true
  | .captureRearm _ value => fits 48 value
  | .reactionWrite _ code value => fits 8 code && fits 48 value
  | .inject _ => true
  | .withdraw _ => true
  | .eventRaise number inst value => fits 8 number && fits 8 inst && fits 48 value
  | .ringEvent _ _ number inst value sec ns => fits 8 number && fits 8 inst && fits 48 value && fits 48 sec && fits 48 ns
  | .updateBegin _ _ => true
  | .updateFinish _ => true
  | .updateActivate _ _ => true
  | .updateAbandon _ => true
  | .updateConfirm _ => true
  | .updateRevert _ => true
  | .confirmDelayExpiry => true
  | .chunkWrite _ _ _ => true
  | .updateVerifyDone result => fits 8 result
  | .updateRequest _ _ _ offset length => fits 32 offset && fits 32 length
  | .updateData _ _ status offset _ => fits 16 status && fits 32 offset
  | .pullRequestTimeout _ => true
  | .pullBusyWait => true
  | .powerLoss _ => true

end Sys2Proof
end

