-- ==== Sys2Proof/Tests/Slice0.lean ====
section
/-! SUPPORT. The author's own tests: hubs to test on, the checks of well-formedness, one witness of each clause's hypotheses for every
statement, and single steps whose expected values are read from the spec. -/

set_option Elab.async false

open Sys2Proof Sys2Proof.Machine

/-! ### Hubs to test on -/

def replicaAt (n : Nat) : Replica := { count := n, held := n, part := 0 }
def rawSet (h : Hub) (k v : Nat) : Hub := { h with dict := tabSet h.dict k (BitVec.ofNat 48 v) }
def isRefused (a : Answer) : Bool := match a with | .refused _ => true | _ => false
def w7 : XWord := { data := 7, poison := false, endMark := false, count := 0 }
def bootHub : Hub := { Hub.reset with boot := { Hub.reset.boot with latched := true }, env := { Hub.reset.env with resetLow := false } }
def hubIn (m : Nat) (ws : List (Nat × Nat)) : Hub := wrs { bootHub with boot := { bootHub.boot with complete := true, transit := true, imageDone := true } } ((0x2000_01, m) :: (0x2000_09, 5) :: ws)
def officerIn (m : Nat) (ws : List (Nat × Nat)) : Hub := { hubIn m ws with sessions := [(0, { sessionInit with role := 2 })] }
def stOf (h : Hub) : State := { pending := [], hub := h }
def withPeer (h : Hub) : Hub := { h with ring := { h.ring with distA := [(9, 2)], lostA := false } }
def linkIn (st : Nat) (h : Hub) : Hub := wrs h [(0x4100_01, st), (0x4100_02, st)]
def bothPeers (h : Hub) : Hub := { h with ring := { h.ring with distA := [(9, 2)], distB := [(9, 3)], lostA := false, lostB := false } }
def frm (src dst ftype : Nat) (c : Cls) (ws : List Word) : Frame := { version := 1, ftype, cls := c, secured := false, confidential := false, multicast := false, dst, src, seq := 0, specific := 0, group := 0, slot := 0, epoch := 0, counter := 0, payload := ws, tag := 0, poison := [] }
def sto (id input o : Nat) (f : Frame) : Stored := { id, input, frame := f, cells := [id], charge := 1, stamp := 0, multi := false, copies := [(o, 0)], freed := 0, errors := [] }
def late (h : Hub) : Hub := { h with spire := { h.spire with acc := 2 ^ 72, replicas := stampIslands.map fun i => (i, replicaAt (2 ^ 72)) } }
def req (op : COp) (addr : Nat) : CReq := { port := 1, tag := 1, cls := .mg, op, addr, count := 1, be0 := 63, be1 := 63, data := [7], src := 5, gen := 0, order := 0, home := false, fill := false }
def obAddr (home slot gen off : Nat) : Nat := 2 ^ 47 + handleOf home slot gen * 2 ^ 24 + off
def canopyIn (c : Canopy) : Hub := { bothPeers (hubIn 3 []) with canopy := c }
def flow0 : Flow := { expected := 3, ahead := [] }
def outst (r : CReq) (dest : Nat) (retry : Bool) : Outstanding := { req := r, dest, retry }
def resp (r : CReq) (status : Nat) : CResp := { port := r.port, tag := r.tag, src := 9, cls := r.cls, op := r.op, ack := false, status, count := 0, data := [5], fill := none, addr := r.addr }
def allocYes (x : Alloc) : Nat × Hub := match x with | .yes b a => (b, a) | _ => (0, Hub.reset)
def allocIsYes (x : Alloc) : Bool := match x with | .yes _ _ => true | _ => false
def bufDef : List (Nat × Nat) := [(defKey 3 1, 3 + 8), (defKey 3 3, 4)]
def home3 : Nat := handleOf 5 3 1
def mapAt (state holder : Nat) : MapEntry := { state, kind := 3, hgen := 1, bgen := 2, holder, base := 0, length := 4 }
def dfn : ObjDef := { sizeA := 4, sizeB := 0, source := 0, consumer := 0, options := 0, selector := 0, fifo := 0, rule := [], pins := [0, 0, 0, 0] }
def resid (handle state : Nat) : Residence := { handle, kind := 3, base := 8, length := 2, gen := 1, state, defn := dfn, place := 0 }
def mv (phase target source : Nat) : Move := { slot := 3, handle := home3, trigger := 5, tag := 7, target, engine := 0, source, sourceE := 0, started := 0, switch := 0, phase, result := 0, acks := [] }
def foreHub (m : Nat) (c : Canopy) (f : Forester) : Hub := { bothPeers (hubIn m bufDef) with canopy := c, forester := f, store := { Hub.reset.store with loaded := true } }
def homeMap (state holder : Nat) : Canopy := { Hub.reset.canopy with map := [(3, mapAt state holder)] }
def moving (m : Move) : Forester := { Hub.reset.forester with moves := [m] }
def outg : Outgoing := { home := 9, tag := 7, handle := handleOf 9 1 1, target := 8, switch := 0, copied := true }
def runCyc : Cyc := { Hub.reset.cyc with running := true, since := 3, period := 1000000, number := 7, start := 7000000, length := 1000000 }
def cyc8 (c : Cyc) (ws : List (Nat × Nat)) : Hub := late { bothPeers (hubIn 3 ws) with cyc := c }
def spireHub (m st : Nat) (sp : Spire) (ws : List (Nat × Nat)) : Hub := { linkIn 8 (bothPeers (hubIn m ((0x4500_01, st) :: (0x4100_08, 9) :: (0x4100_09, 9) :: ws))) with spire := sp }
def sp0 : Spire := { Hub.reset.spire with acc := 2 ^ 62, replicas := stampIslands.map fun i => (i, replicaAt (2 ^ 62)) }
def meterAt (m : SpanMeter) : Spire := { sp0 with spans := [(0, m)] }
def engHub (stt : Nat) (g : Engine) (ws : List (Nat × Nat)) : Hub := { hubIn 3 ((engKey 2 1, stt) :: (imageKey 0 1, 512) :: ws) with engines := [(2, g)], pads := [(9, 0)] }
def engCom (stt : Nat) (g : Engine) (ws : List (Nat × Nat)) : Hub := { hubIn 2 ((engKey 2 1, stt) :: (imageKey 0 1, 512) :: ws) with engines := [(2, g)], pads := [(9, 0)] }
def eng0 : Engine := { engineInit with prog := [0x0000, 0x9567], l := 8, sr := 0x5A, x := 3, y := 4, cnt := 1, m := true, pins := [9, 10], cmp := 1, caction := 3, cpin := 1, p := 2, tk := 0 }
def xw (d : Word) (e : Bool) : XWord := { data := d, poison := false, endMark := e, count := 6 }
def ffo (ws : List (XWord × Nat)) : Fifo := { fifoInit with words := ws, wIdx := ws.length, e := ws.length, settings := 100 * 256 + 50 * 65536, pages := 1 }
def sw (d : Word) (e : Bool) (c : Nat) : StreamWord := { data := d, poison := false, endMark := e, count := c }
def xp (d : Word) : XWord := { data := d, poison := true, endMark := false, count := 6 }
def fHub (f : Nat) (x : Fifo) (state pages : Nat) (ws : List (Nat × Nat)) : Hub := { hubIn 3 ((fifoKey f 1, state) :: (fifoKey f 2, 77) :: (fifoKey f 3, pages) :: (0x4700_01, 100) :: ws) with fifos := [(f, x), (9, ffo [])] }
def fPart (n : Nat) : Fifo := { ffo [(xw 5 false, 0)] with packer := (List.range n).map (BitVec.ofNat 8), wIdx := 2 ^ 24 - 1 }
def fWords (n : Nat) (x : Fifo) : Fifo := { x with words := (List.range n).map (fun i => (xw (BitVec.ofNat 48 i) false, i)), wIdx := n }
def f200 : Fifo := { ffo [(xw 1 false, 3), (xw 2 false, 4), (xw 3 true, 5)] with producer := 2 ^ 44 + 77, wIdx := 6, settings := 100 * 256 + 50 * 65536 + 7 * 2 ^ 50, limit := 6, e := 9 }
def canHub (ws : List (Nat × Nat)) : Hub := hubIn 3 ([(canCfg 3 1, 1), (canStat 3 1, 2), (canCfg 3 2, 7), (0x2802_01, 0xFF)] ++ ws)
def sdoHub (xs : Tab SdoTransfer) (ws : List (Nat × Nat)) : Hub := let h := hubIn 3 ([(canCfg 3 1, 1), (canStat 3 1, 2), (0x2802_01, 3), (0x4800_01, 5), (0x1017_00, 100)] ++ ws); { h with canopen := { h.canopen with transfers := xs } }
def cf8 : CanFrame := { id := 0x123, ide := false, rtr := false, fdf := false, brs := false, esi := false, dlc := 8, data := [1, 2, 3, 4, 5, 6, 7, 8], sof := 0xFFFF_FFFF_FFFF }
def filt (k : Nat) (b : Nat) : List (Nat × Nat) := [(slotKey 0x3443 (2 * k + 1), 2 ^ 47 + 0x123), (slotKey 0x3443 (2 * k + 2), 2 ^ 32 * b + 0x7FF)]
def onBus (b : Nat) (ws : List (Nat × Nat)) : Hub := setCan (canHub ([(bufKey 3 b 1, 2)] ++ ws)) 3 { can (canHub []) 3 with onBus := some (.buffer b), pending := [b, 9], frame := cf8, sof := 77, entries := [5] }
def canFifo : Fifo := { ffo [(xw 1 false, 0)] with producer := 2 ^ 45 + 5 * 2 ^ 24 + 3 }
def toFifo (w : Word) : Fifo := { ffo [(xw w false, 0), (xw 0 false, 1), (xw 0x060504030201 false, 2), ({ xw 0x0807 true with count := 2 }, 3)] with consumer := 2 ^ 45 + 5 * 2 ^ 24 + 3 }
def canStream (w : Word) : Hub := { canHub [(fifoKey 4 1, 1), (fifoKey 4 3, 1)] with fifos := [(4, toFifo w)] }
def up5 : SdoTransfer := { index := 0x2802, sub := 3, upload := true, data := [1, 2, 3, 4, 5], toggle := true }
def up9 : SdoTransfer := { index := 0x2802, sub := 3, upload := true, data := [1, 2, 3, 4, 5, 6, 7, 8, 9], toggle := false }
def down : SdoTransfer := { index := 0x2802, sub := 3, upload := false, data := [0x64], toggle := true }
def procHub : Hub := hubIn 3 [(mappingKey 0, 0x6000 * 2 ^ 32 + 2 ^ 24 + 77), (mappingKey 0 + 1, 0x108), (0x2410_01, 77)]
def roundHub (m state origin : Nat) (ws : List (Nat × Nat)) : Hub := let h := late (bothPeers (hubIn m ([(0x4D01_01, state), (0x4D01_03, origin), (0x4D01_04, 77), (0x2D01_02, 1)] ++ ws))); { h with sleep := { h.sleep with attempts := [origin], copies := 2, heard := [(9, (6, true))] } }
def asleepHub (m : Nat) (j : Nat) (ws : List (Nat × Nat)) : Hub := let h := roundHub m 0 9 ([(canCfg 3 1, 1), (canStat 3 1, 2), (0x2802_01, 0xFF), (0x2D03_01 + 0, 1), (0x2D03_01 + 28, 1)] ++ ws); { h with sleep := { h.sleep with asleep := [j], awaiting := [0, 5] } }
def dormHub (entering waking : Bool) (ws : List (Nat × Nat)) : Hub := let h := late (hubIn 6 ([(0x2D12_01, 0x21), (0x2D03_01, 1)] ++ ws)); { h with sleep := { h.sleep with entering := entering }, power := { h.power with waking := waking } }
def wf3 : CanFrame := { id := 0, ide := false, rtr := false, fdf := false, brs := false, esi := false, dlc := 0, data := [], sof := 5 }
def t1sFrame (n : Nat) : List Byte := [1, 2, 3, 4, 5, 6, 11, 12, 13, 14, 15, 16, 0x88, 0xB5] ++ (List.range (n - 14)).map (BitVec.ofNat 8)
def t1sHub (x : T1sPort) (ws : List (Nat × Nat)) : Hub := { rawSet (hubIn 3 ([(t1sCfg 2 1, 1), (t1sCfg 2 8, home3), (t1sCfg 2 9, 2 * 2 ^ 20 + 0), (t1sCfg 2 0x0A, 2 * 2 ^ 20 + 8), (t1sInst 2 3, 1)] ++ ws.filter fun e => e.1 != t1sCfg 2 2)) (t1sCfg 2 2) (((ws.find? fun e => e.1 == t1sCfg 2 2).map (·.2)).getD 0x060504030201) with t1s := [(2, x)], canopy := { homeMap 1 5 with map := [(3, { mapAt 1 5 with length := 64 })] } }
def t1s0 : T1sPort := { t1s Hub.reset 2 with rxArmed := true }
def withMem (h : Hub) (xs : List (Nat × Nat)) : Hub := { h with canopy := { h.canopy with mem := xs.foldl (fun m e => memPut m e.1 (BitVec.ofNat 48 e.2) 63) h.canopy.mem } }
def toT1s (n : Nat) : Fifo := { fifoInit with words := (({ data := BitVec.ofNat 48 n, poison := false, endMark := false, count := 6 }, 0) :: ({ data := 0, poison := false, endMark := false, count := 6 }, 1) :: (List.range ((n + 5) / 6)).map fun i => ({ data := BitVec.ofNat 48 (7 * i), poison := false, endMark := i + 1 == (n + 5) / 6, count := 6 }, i + 2)), consumer := 3 * 2 ^ 44 + 5 * 2 ^ 24 + 2, settings := 100 * 256 + 50 * 65536, pages := 1 }
def t1sStream (x : T1sPort) (y : Fifo) (ws : List (Nat × Nat)) : Hub := { t1sHub x ([(fifoKey 4 1, 1), (fifoKey 4 3, 1)] ++ ws) with fifos := [(4, y)] }
def fromT1s : Fifo := { ffo [(xw 1 false, 0)] with producer := 3 * 2 ^ 44 + 5 * 2 ^ 24 + 2 }
def barHub (ws : List (Nat × Nat)) (mem : List (Nat × Nat)) : Hub := withMem (bothPeers (hubIn 3 ([(0x2302_01, 4096), (0x2302_02, 2 ^ 26)] ++ ws))) mem
def bootBar (control : Nat) : Hub := let h := wrs bootHub [(0x2000_0C, 2)]; { h with boot := { h.boot with control := control } }
def noHost (h : Hub) : Hub := { h with boot := { h.boot with latched := false } }
def qHub (ws : List (Nat × Nat)) (mem : List (Nat × Nat)) : Hub := barHub ((0x2000_0D, 1) :: ws) mem
def qRes (h : Hub) (q : Nat) (bs : List Byte) : Hub := { h with host := { h.host with results := [(q, bs)] } }
def outW : Outstanding := { req := { port := 2, tag := 5, cls := .ur, op := .write, addr := 0, count := 1, be0 := 63, be1 := 63, data := [7], src := 5, gen := 0, order := 0, home := false, fill := false }, dest := 9, retry := false }
def srk0 : List Byte := (List.range 32).map (BitVec.ofNat 8)
def ctx (src slot epoch : Nat) (prev : Option Nat) : RxContext := { src, slot, epoch, prev }
def domeHub (m : Nat) (d : Dome) (ws : List (Nat × Nat)) : Hub := { late (hubIn m ([(0x4B00_02, 2), (0x2B01_03, 1), (0x2B01_04, 2)] ++ ws)) with dome := d }
def dome0 : Dome := { Hub.reset.dome with srk := some srk0, epoch := 20, epochValid := true, ceiling := 32, persisted := true, hardware := [ctx 9 3 7 none, ctx 8 3 6 (some 5)], inner := [ctx 7 3 4 none] }
def secF (src epoch : Nat) : Frame := { frm src 255 1 .mg [1, 2] with secured := true, slot := 3, epoch, counter := 5 }
def withSession (p : Path) (x : Session) (h : Hub) : Hub := setSession h p x
def fuseHub (m : Nat) (c : FuseCh) (st : Nat) (ws : List (Nat × Nat)) : Hub := { late (hubIn m ([(fuseCfg 3 1, 1), (fuseKey 3 1, st)] ++ ws)) with fuses := [(3, c)] }
def fuse0 : FuseCh := { fuseInit with g := 100, t0 := 2 ^ 59, sampleAt := some (2 ^ 59 + 100), present := true, coolEnd := some 77 }
def avsHub (old : Nat) : Hub := rawSet (hubIn 3 [(0x4D10_08, old)]) 0x4D10_07 900
def powHub (st : Nat) (ws : List (Nat × Nat)) : Hub := hubIn 3 ((0x4D11_01 + 2, st) :: (0x2D12_01, 0x21) :: ws)
def wtHub (m : Nat) (rs : List (Nat × FaultRec)) (ws : List (Nat × Nat)) : Hub := let h := late (officerIn m ws); { h with watch := { h.watch with records := rs } }
def rec0 : FaultRec := { island := 3, detailA := 1, detailB := 2, chosen := 1, level := 1, escalated := false, injected := false, cause := true, windowStart := 2 ^ 40 - 1000, windowCount := 1 }
def injHub (pt v : Nat) (ws : List (Nat × Nat)) : Hub := wtHub 8 [] ([(0x2E05_01, pt), (0x2E05_02, v)] ++ ws)
def injd (c : Nat) (h : Hub) : Hub := { h with watch := { h.watch with injected := [c], armed := [(6, 7)] } }
def img0 : FlashSlot := { shippedSlot with version := 7, protocol := 2 ^ 8, format := 1, oldest := 1, security := 3, revoke := 5, keyHash := 2, image := some (List.replicate 600 1) }
def upHub (m st : Nat) (u : Update) (ws : List (Nat × Nat)) : Hub := { late (bothPeers (officerIn m ([(0x4F00_01, st), (0x4F00_0A, 0)] ++ ws))) with update := u }
def up0 : Update := { Hub.reset.update with slotA := img0, slotB := { img0 with state := 1, failed := 2 }, floor := 1, nextTag := 9 }
def upRec (n : Nat) : Update := { up0 with received := List.replicate n 0x48 }
def upPull (n : Nat) (rs : List (Nat × Nat × Nat × Nat)) (busy : Bool) : Update := { upRec n with requests := rs, busy }

theorem alloc_yes (h : Hub) (handle kind place : Nat) (d : ObjDef) (y : allocIsYes (hostObject handle kind d place 0xFF h) = true) :
    hostObject handle kind d place 0xFF h = .yes (allocYes (hostObject handle kind d place 0xFF h)).1 (allocYes (hostObject handle kind d place 0xFF h)).2 := by
  revert y; cases hostObject handle kind d place 0xFF h <;> simp [allocIsYes, allocYes]

def resp0 : CResp := { port := 1, tag := 0, src := 0, cls := .mg, op := .read, ack := false, status := 0, count := 1, data := [], fill := none, addr := 0 }

def xing (n : Nat) (waiting : List XWord) : Crossing := { crossingInit with entries := List.replicate n w7, waiting }
def waitingOn (p : Path) (h : Hub) : Hub := { h with canopen := { h.canopen with writes := [(1, { handle := 77, shift := 0, width := 48, value := 0, path := p, index := 0x6000, sub := 1, reply := .none })] } }
def waitingHost (h : Hub) : Hub := waitingOn .host h
def roleIs (r : Nat) (h : Hub) : Hub := { h with ring := { h.ring with role := r } }
def brokenAt (src dst : Nat) (h : Hub) : Hub := { h with crossings := [(crossingKey src dst, { crossingInit with broken := true })] }
def rec1 : ConfigCopy := { seq := 7, version := 0x10000, entries := [(0x2401_01, 77)], tag := 0, marked := false }
def recHub0 : Hub := let h := rawSet (hubIn 2 []) 0x2001_01 0x10000; { h with store := { h.store with loading := true } }
def recCopy : ConfigCopy := tagged recHub0 rec1
def recHub : Hub := { recHub0 with copyA := some recCopy }
theorem copyValid_recHub : copyValid recHub (some recCopy) = true := by simp [copyValid, recCopy, tagged, recordTag, recordBytes, recHub, configKey]
theorem bestCopy_recHub : bestCopy recHub = some recCopy := by
  have v : copyValid recHub recHub.copyA = true := copyValid_recHub
  unfold bestCopy
  rw [v]; rfl
def linkRec (highest : Nat) (miswire : Bool) (arriving : List (Frame × Nat)) : Link := { highest, miswire, miswireAt := 0, downSent := false, stopped := false, helloSent := none, arriving, left := [] }
def linked (st : Nat) (x : Link) : Hub := { linkIn st (hubIn 2 []) with links := [(0, x)] }
def txf (f : Frame) : TxFrame := { frame := f, hop := 255, error := false, crc := none }
def arrivingOf (bs : List FrameBlock) : FrameCheck := { crc := 0, bytes := 0, blocks := bs }
def arrivingAt (f : Frame) (hop : Nat) : Hub := { linkIn 8 (bothPeers (hubIn 3 [])) with links := [(0, linkRec 0 false [(f, hop)])] }
def headOf (age : Nat) : ContributionHead := { frames := 0, port := .east, age }
def claimOf (asked number : Nat) : Claim := { asked, number, lost := false }
def claiming (c : Claim) : Hub := { linkIn 7 (wr (hubIn 2 []) 0x2000_09 0) with ring := { Hub.reset.ring with claim := some c } }
def stored (xs : List Stored) : Hub := { hubIn 3 [] with belfry := { Hub.reset.belfry with stored := xs } }
def ringIn (fs : List (Nat × Frame)) : Hub := let h := bothPeers (hubIn 3 []); { h with ring := { h.ring with arrived := fs } }
def channelIn (st : Nat) (x : Channel) : Hub := { hubIn 3 [(chKey 1 1, st)] with channels := [(1, x)] }
def groupsFull : Hub := { hubIn 3 [] with ring := { (hubIn 3 []).ring with groups := (List.range 256).map fun n => handleOf 9 n 1 } }
def annH : Hub := roleIs 2 (spireHub 3 4 sp0 [(0x2000_0B, 2), (0x4B00_02, 2)])
def annF : Frame := newFrame annH 6 .ur 255 256 0 [BitVec.ofNat 48 (hubNumber annH * 2 ^ 40 + annH.spire.cls * 2 ^ 32 + b2n (declaresLocked annH) * 2 ^ 31)]
def annS : Option Frame × Hub := sealing annF { annH with seqs := tabSet annH.seqs (streamKey (hubNumber annH) 255 .ur) ((annF.seq + 1) % 65536) }
def engRun (w : Nat) (g : Engine) : State := stOf (engHub 3 { g with prog := [w] } [])
def engHeld (w : Nat) : Hub := engCom 2 { eng0 with prog := [w] } []
def domeAt (f : Frame) (h : Hub) : Hub := { h with belfry := { h.belfry with delivered := [(5, f)] } }
def t1f (n : Nat) (r : Option (Nat × Nat × Nat)) : T1sFrame := { bytes := t1sFrame n, length := n, ring := r }

/-! ### Well-formedness: each check refuses a term that breaks it alone -/

theorem test_wf_accepts_1 : ([.powerOn 0 false,
    .resetNRise 0 false,
    .knownAnswerTestsDone 0,
    .firmwareSelftestDone 0 0,
    .bootControlWrite 0,
    .softwareReset .host 0,
    .clockMonitorWindow (.island 0) 0,
    .crossingTransfer 0 0 w7 false,
    .crossingTimeout 0 0,
    .dictionaryWrite .host 0 0 ⟨0, 0⟩ 0,
    .rcRead .host 0 0 0,
    .w1cWrite .host 0 0 0 0,
    .timeLowerRead .host 0 0,
    .timeLowerWrite .host 0 0 0,
    .timeUpperWrite .host 0 0 0,
    .longEntryFirstRead .host 0 0,
    .longEntrySlotWrite .host 0 0 0,
    .hostWindowLowRead ⟨0, 0⟩ ⟨0, 0⟩,
    .hostWindowHalfWrite 0 0 false 0,
    .ringDictRequest 0 0 0 0 0 0 0 [],
    .mailboxResponse 0 0 0,
    .storeParameters .host 0,
    .restoreDefaultParameters .host 0,
    .configurationCommit .host 0,
    .alignLock .east 0,
    .helloReceived .east 0 .east false 0,
    .errorTakedown .east ⟨0, 0⟩,
    .frameReceive .east (frm 5 9 1 .mg [1]) 0 (arrivingOf []),
    .presence .a 0 0 0 0 0,
    .presenceTimeout 0 .a,
    .claim 0 0 0,
    .offer 0 0,
    .conflict 0 0,
    .ringPortRetrain .host 0 0,
    .transmitDisableWrite .host 0,
    .ringFrameAdmit .east (frm 5 9 1 .mg [1]),
    .bufferCensus ⟨[], 0, []⟩ [],
    .voteMinority 0 0,
    .voteSplit 0 0,
    .replayCaughtUp 0 [],
    .channelRelease .host 0] : List Instr).all (fun i => i.wf) = true := by decide +kernel

theorem test_wf_accepts_2 : ([.canopyRequestIssue (req .read 0),
    .canopyHomeRequest (req .read 0),
    .canopyHolderRequest (req .read 0),
    .canopyResponse resp0,
    .retryDelayExpiry 0 0,
    .orderGapTimeout 0 0 .mg,
    .flowStateExpiry 0 0 .mg,
    .writeAckTimer 0 0 .mg,
    .completionTimeout 0 0,
    .barrier 0,
    .reachLifetimeExpiry 0,
    .reachFlush .host 0,
    .moveTimeLimitExpiry 0,
    .definitionWrite .host 0 0 0,
    .moveRequestStart .host 0,
    .migrationOffer 0 0 0 0 0 0 dfn,
    .migrationAnswer 0 0 0 0 0,
    .migrationDrain 0 0 0 0 0,
    .migrationDrained 0 0 0 0,
    .migrationData 0 0 0 0 [],
    .migrationInstalled 0 0 0 0,
    .migrationCommit 0 0 0 ⟨0, 0⟩,
    .migrationAbort 0 0 0,
    .migrationGroup 0 0 0 false,
    .migrationScore 0 0 [],
    .migrationAck 0 0 0,
    .contributionReceive 0 0 0 (headOf 0) [],
    .rebindNotice 0 0 0 0 0,
    .announce 0 0 false,
    .announceTimeout 0,
    .sync .a 0 0 0 0 0 0 0 0,
    .delayReq .east 0 0 0,
    .delayResp .east 0 0 0 0 0 false,
    .holdoverCalibrate 0,
    .sysSig 0 0 0,
    .br 0 0 0 0,
    .brp 0 0 false 0 0,
    .dbnz 0 0 0,
    .await 0 0 false 0 0,
    .put 0 0 0 false 0,
    .copy 0 0 0 0] : List Instr).all (fun i => i.wf) = true := by decide +kernel

theorem test_wf_accepts_3 : ([.aluAdd 0 0 0 false 0,
    .aluSub 0 0 0 false 0,
    .aluAnd 0 0 0 false 0,
    .aluOr 0 0 0 false 0,
    .aluXor 0 0 0 false 0,
    .aluShl 0 0 0 false 0,
    .aluShr 0 0 0 false 0,
    .aluNot 0 0 0 false 0,
    .aluRev 0 0 0 false 0,
    .ldi 0 0 0 0,
    .arm 0 0 false false 0,
    .load .host 0 0,
    .loadClean .host 0 0 0,
    .pinDriverDiagnosis 0,
    .engineCheckFailure 0 0,
    .fifoWordWrite 0 w7,
    .fifoNarrowWrite 0 false 0 false,
    .release .host 0 0,
    .pageBudgetWrite .host 0 0,
    .streamData 0 0 0 [],
    .streamCredit 0 0 0,
    .canFrameReceive 0 cf8 .none,
    .transmitRequest .host 0 0,
    .transmitAbort .host 0 0,
    .canTransmitEnd 0 .ok 0,
    .canSettingsWrite .host 0 0 0,
    .sdoDownloadInitiate 0 0 0 false [],
    .sdoUploadInitiate 0 0 0,
    .sdoBlockDownload 0 0 0 [] false,
    .sdoBlockUpload 0 0 0 0,
    .nodeIdWrite .host 0,
    .processObjectRead .host 0 0,
    .processObjectWrite .host 0 0 0,
    .sleepPropose 0,
    .propose 0 0 0 0,
    .consent 0 0 0,
    .refuse 0 0 0 0,
    .sleepRetry 0,
    .commit 0 0 0,
    .abort 0 0 0 0,
    .sleepAbort 0] : List Instr).all (fun i => i.wf) = true := by decide +kernel

theorem test_wf_accepts_4 : ([.wakeAccepted 0,
    .wakeProductivityTimeout 0,
    .wakeConfirmation .host 0,
    .wakeUnmask .host 0,
    .pnFrameDecode 0 cf8 .none,
    .dormantWake 0 false 0 0 false false,
    .powerGoodPoll 0 0,
    .transmitDoorbell .host 0 0,
    .bar2Write 0 [] false 0,
    .bar2Read 0 0 0,
    .atomicFetchadd false 0 0,
    .atomicCas false 0 0 0,
    .hostWriteFailure 0 0 0 0,
    .hostLinkUp 0 0,
    .qspiWrite 0 [],
    .qspiRead 0 0,
    .qspiFetchAdd 0 0,
    .qspiCas 0 0 0,
    .sealFrame (frm 5 9 1 .mg [1]),
    .openFrame (frm 5 9 1 .mg [1]),
    .epochGraceExpiry 0 0,
    .selfTests .host 0,
    .installCommand .host 0,
    .tamperEvent 0,
    .currentLimitWrite .host 0 0,
    .channelEnableWrite .host 0 0,
    .groveVoteClear 0 0,
    .voteReturn 0 0,
    .avsUpdate 0 0,
    .avsRetry 0,
    .avsReadback 0,
    .faultRaise 0 0 0 0,
    .faultCauseGone 0,
    .acknowledge .host 0,
    .captureRearm .host 0,
    .reactionWrite .host 0 0,
    .eventRaise 0 0 0,
    .ringEvent 0 0 0 0 0 0 0,
    .updateVerifyDone 0,
    .updateRequest 0 0 false 0 0,
    .updateData 0 0 0 0 []] : List Instr).all (fun i => i.wf) = true := by decide +kernel

theorem test_wf_refuses_1 : ([.powerOn (2 ^ 16) false,
    .resetNRise (2 ^ 16) false,
    .knownAnswerTestsDone (2 ^ 16),
    .firmwareSelftestDone (2 ^ 3) 0,
    .firmwareSelftestDone 0 (2 ^ 64),
    .bootControlWrite (2 ^ 32),
    .softwareReset .host (2 ^ 48),
    .clockMonitorWindow (.island 0) (2 ^ 32),
    .crossingTransfer 0 (2 ^ 8) w7 false,
    .crossingTransfer 0 0 { (w7) with count := 8 } false,
    .crossingTimeout 0 (2 ^ 8),
    .dictionaryWrite .host (2 ^ 16) 0 ⟨0, 0⟩ 0,
    .dictionaryWrite .host 0 (2 ^ 8) ⟨0, 0⟩ 0,
    .dictionaryWrite .host 0 0 ⟨2 ^ 3, 0⟩ 0,
    .dictionaryWrite (.sdo 0) 0 0 ⟨1, 0⟩ 0,
    .dictionaryWrite .host 0 0 ⟨0, 2 ^ 8⟩ 0,
    .dictionaryWrite .host 0 0 ⟨0, 0⟩ (2 ^ 48),
    .rcRead .host (2 ^ 16) 0 0,
    .rcRead .host 0 (2 ^ 8) 0,
    .rcRead .host 0 0 (2 ^ 48),
    .w1cWrite .host (2 ^ 16) 0 0 0,
    .w1cWrite .host 0 (2 ^ 8) 0 0,
    .w1cWrite .host 0 0 (2 ^ 48) 0,
    .w1cWrite .host 0 0 0 (2 ^ 48),
    .timeLowerRead .host (2 ^ 16) 0,
    .timeLowerRead .host 0 (2 ^ 8),
    .timeLowerWrite .host (2 ^ 16) 0 0,
    .timeLowerWrite .host 0 (2 ^ 8) 0,
    .timeLowerWrite .host 0 0 (2 ^ 48),
    .timeUpperWrite .host (2 ^ 16) 0 0,
    .timeUpperWrite .host 0 (2 ^ 8) 0,
    .timeUpperWrite .host 0 0 (2 ^ 48),
    .longEntryFirstRead .host (2 ^ 16) 0,
    .longEntryFirstRead .host 0 (2 ^ 8),
    .longEntrySlotWrite .host (2 ^ 16) 0 0,
    .longEntrySlotWrite .host 0 (2 ^ 8) 0,
    .longEntrySlotWrite .host 0 0 (2 ^ 48),
    .hostWindowLowRead ⟨2 ^ 16, 0⟩ ⟨0, 0⟩,
    .hostWindowLowRead ⟨0, 2 ^ 8⟩ ⟨0, 0⟩,
    .hostWindowLowRead ⟨0, 0⟩ ⟨2 ^ 3, 0⟩,
    .hostWindowLowRead ⟨0, 0⟩ ⟨0, 2 ^ 13⟩] : List Instr).all (fun i => !i.wf) = true := by decide +kernel

theorem test_wf_refuses_2 : ([.hostWindowHalfWrite (2 ^ 16) 0 false 0,
    .hostWindowHalfWrite 0 (2 ^ 8) false 0,
    .hostWindowHalfWrite 0 0 false (2 ^ 48),
    .ringDictRequest 0 (2 ^ 8) 0 0 0 0 0 [],
    .ringDictRequest 0 0 (2 ^ 8) 0 0 0 0 [],
    .ringDictRequest 0 0 0 0 (2 ^ 16) 0 0 [],
    .ringDictRequest 0 0 0 0 0 (2 ^ 8) 0 [],
    .ringDictRequest 0 0 0 0 0 0 (2 ^ 16) [],
    .ringDictRequest 0 0 0 0 0 0 0 [0, 2 ^ 48],
    .mailboxResponse 0 (2 ^ 16) 0,
    .mailboxResponse 0 0 (2 ^ 48),
    .storeParameters .host (2 ^ 48),
    .restoreDefaultParameters .host (2 ^ 48),
    .configurationCommit .host (2 ^ 48),
    .alignLock .east (2 ^ 16),
    .helloReceived .east (2 ^ 8) .east false 0,
    .helloReceived .east 0 .east false (2 ^ 8),
    .errorTakedown .east ⟨2 ^ 32, 0⟩,
    .errorTakedown .east ⟨0, 2 ^ 32⟩,
    .frameReceive .east { (frm 5 9 1 .mg [1]) with version := 16 } 0 (arrivingOf []),
    .frameReceive .east { (frm 5 9 1 .mg [1]) with ftype := 16 } 0 (arrivingOf []),
    .frameReceive .east { (frm 5 9 1 .mg [1]) with dst := 256 } 0 (arrivingOf []),
    .frameReceive .east { (frm 5 9 1 .mg [1]) with src := 256 } 0 (arrivingOf []),
    .frameReceive .east { (frm 5 9 1 .mg [1]) with seq := 65536 } 0 (arrivingOf []),
    .frameReceive .east { (frm 5 9 1 .mg [1]) with specific := 65536 } 0 (arrivingOf []),
    .frameReceive .east { (frm 5 9 1 .mg [1]) with group := 2 ^ 23 } 0 (arrivingOf []),
    .frameReceive .east { (frm 5 9 1 .mg [1]) with payload := List.replicate 257 0 } 0 (arrivingOf []),
    .frameReceive .east (frm 5 9 1 .mg [1]) (2 ^ 8) (arrivingOf []),
    .frameReceive .east (frm 5 9 1 .mg []) 0 (arrivingOf []),
    .frameReceive .east (frm 5 9 1 .mg [1]) 0 { (arrivingOf []) with crc := 2 ^ 32 },
    .presence .a 0 (2 ^ 8) 0 0 0,
    .presence .a 0 0 (2 ^ 8) 0 0,
    .presence .a 0 0 0 (2 ^ 8) 0,
    .presence .a 0 0 0 0 (2 ^ 32),
    .presenceTimeout (2 ^ 8) .a,
    .claim (2 ^ 8) 0 0,
    .claim 0 (2 ^ 8) 0,
    .claim 0 0 (2 ^ 32),
    .offer (2 ^ 8) 0,
    .offer 0 (2 ^ 32)] : List Instr).all (fun i => !i.wf) = true := by decide +kernel

theorem test_wf_refuses_3 : ([.conflict (2 ^ 8) 0,
    .conflict 0 (2 ^ 32),
    .ringPortRetrain .host (2 ^ 8) 0,
    .ringPortRetrain .host 0 (2 ^ 48),
    .transmitDisableWrite .host (2 ^ 48),
    .ringFrameAdmit .east { (frm 5 9 1 .mg [1]) with version := 16 },
    .ringFrameAdmit .east { (frm 5 9 1 .mg [1]) with ftype := 16 },
    .ringFrameAdmit .east { (frm 5 9 1 .mg [1]) with dst := 256 },
    .ringFrameAdmit .east { (frm 5 9 1 .mg [1]) with src := 256 },
    .ringFrameAdmit .east { (frm 5 9 1 .mg [1]) with seq := 65536 },
    .ringFrameAdmit .east { (frm 5 9 1 .mg [1]) with specific := 65536 },
    .ringFrameAdmit .east { (frm 5 9 1 .mg [1]) with group := 2 ^ 23 },
    .ringFrameAdmit .east { (frm 5 9 1 .mg [1]) with payload := List.replicate 257 0 },
    .bufferCensus ⟨[32768], 0, []⟩ [],
    .bufferCensus ⟨[], 2 ^ 17, []⟩ [],
    .bufferCensus ⟨[], 0, [(32768, 0, false)]⟩ [],
    .bufferCensus ⟨[], 0, [(0, 32, false)]⟩ [],
    .locatePass [32768],
    .replayCaughtUp 0 [(4096, 1)],
    .voteMinority 0 (2 ^ 8),
    .voteSplit (2 ^ 8) 0,
    .voteSplit 0 (2 ^ 8),
    .digestCompare [(3, 0, 1)],
    .digestCompare [(0, 4096, 1)],
    .frameSend ⟨.east, 2 ^ 11⟩,
    .channelRelease .host (2 ^ 48),
    .canopyRequestIssue { (req .read 0) with port := 8 },
    .canopyRequestIssue { (req .read 0) with tag := 256 },
    .canopyRequestIssue { (req .read 0) with addr := 2 ^ 48 },
    .canopyRequestIssue { (req .read 0) with count := 256 },
    .canopyRequestIssue { (req .read 0) with be0 := 64 },
    .canopyRequestIssue { (req .read 0) with be1 := 64 },
    .canopyRequestIssue { (req .read 0) with src := 256 },
    .canopyRequestIssue { (req .read 0) with gen := 256 },
    .canopyRequestIssue { (req .read 0) with order := 65536 },
    .canopyHomeRequest { (req .read 0) with port := 8 },
    .canopyHomeRequest { (req .read 0) with tag := 256 },
    .canopyHomeRequest { (req .read 0) with addr := 2 ^ 48 },
    .canopyHomeRequest { (req .read 0) with count := 256 },
    .canopyHomeRequest { (req .read 0) with be0 := 64 },
    .canopyHomeRequest { (req .read 0) with be1 := 64 },
    .canopyHomeRequest { (req .read 0) with src := 256 },
    .canopyHomeRequest { (req .read 0) with gen := 256 },
    .canopyHomeRequest { (req .read 0) with order := 65536 }] : List Instr).all (fun i => !i.wf) = true := by decide +kernel

theorem test_wf_refuses_4 : ([.canopyHolderRequest { (req .read 0) with port := 8 },
    .canopyHolderRequest { (req .read 0) with tag := 256 },
    .canopyHolderRequest { (req .read 0) with addr := 2 ^ 48 },
    .canopyHolderRequest { (req .read 0) with count := 256 },
    .canopyHolderRequest { (req .read 0) with be0 := 64 },
    .canopyHolderRequest { (req .read 0) with be1 := 64 },
    .canopyHolderRequest { (req .read 0) with src := 256 },
    .canopyHolderRequest { (req .read 0) with gen := 256 },
    .canopyHolderRequest { (req .read 0) with order := 65536 },
    .canopyResponse { (resp0) with port := 8 },
    .canopyResponse { (resp0) with tag := 256 },
    .canopyResponse { (resp0) with src := 256 },
    .canopyResponse { (resp0) with status := 256 },
    .canopyResponse { (resp0) with count := 512 },
    .canopyResponse { (resp0) with addr := 2 ^ 48 },
    .retryDelayExpiry (2 ^ 3) 0,
    .orderGapTimeout 0 (2 ^ 3) .mg,
    .flowStateExpiry 0 (2 ^ 3) .mg,
    .writeAckTimer 0 (2 ^ 3) .mg,
    .completionTimeout (2 ^ 3) 0,
    .barrier (2 ^ 3),
    .reachLifetimeExpiry (2 ^ 23),
    .reachFlush .host (2 ^ 48),
    .moveTimeLimitExpiry (2 ^ 12),
    .definitionWrite .host (2 ^ 12) 0 0,
    .definitionWrite .host 0 (2 ^ 4) 0,
    .definitionWrite .host 0 0 (2 ^ 48),
    .moveRequestStart .host (2 ^ 48),
    .migrationOffer 0 0 (2 ^ 23) 0 0 0 dfn,
    .migrationOffer 0 0 0 (2 ^ 8) 0 0 dfn,
    .migrationOffer 0 0 0 0 (2 ^ 32) 0 dfn,
    .migrationOffer 0 0 0 0 0 (2 ^ 48) dfn,
    .migrationAnswer 0 0 (2 ^ 23) 0 0,
    .migrationAnswer 0 0 0 (2 ^ 16) 0,
    .migrationAnswer 0 0 0 0 (2 ^ 20),
    .migrationDrain 0 0 (2 ^ 23) 0 0,
    .migrationDrain 0 0 0 (2 ^ 8) 0] : List Instr).all (fun i => !i.wf) = true := by decide +kernel

theorem test_wf_refuses_5 : ([.migrationDrained 0 0 (2 ^ 23) 0,
    .migrationDrained 0 0 0 (2 ^ 16),
    .migrationData 0 0 (2 ^ 23) 0 [],
    .migrationData 0 0 0 (2 ^ 24) [],
    .migrationInstalled 0 0 (2 ^ 23) 0,
    .migrationInstalled 0 0 0 (2 ^ 24),
    .migrationCommit 0 0 (2 ^ 23) ⟨0, 0⟩,
    .migrationCommit 0 0 0 ⟨2 ^ 8, 0⟩,
    .migrationAbort 0 0 (2 ^ 23),
    .migrationGroup 0 0 (2 ^ 23) false,
    .migrationScore 0 (2 ^ 23) [],
    .migrationAck 0 0 (2 ^ 23),
    .contributionReceive 0 0 (2 ^ 16) (headOf 0) [],
    .contributionReceive 0 0 0 { (headOf 0) with frames := 2 ^ 16 } [],
    .rebindNotice (2 ^ 8) 0 0 0 0,
    .rebindNotice 0 (2 ^ 23) 0 0 0,
    .rebindNotice 0 0 0 (2 ^ 12) 0,
    .rebindNotice 0 0 0 0 (2 ^ 30),
    .announce 0 (2 ^ 8) false,
    .announceTimeout (2 ^ 8),
    .sync .a (2 ^ 8) 0 0 0 0 0 0 0,
    .sync .a 0 (2 ^ 8) 0 0 0 0 0 0,
    .sync .a 0 0 (2 ^ 8) 0 0 0 0 0,
    .sync .a 0 0 0 (2 ^ 16) 0 0 0 0,
    .delayReq .east 0 (2 ^ 16) 0,
    .delayResp .east (2 ^ 16) 0 0 0 0 false,
    .delayResp .east 0 (2 ^ 16) 0 0 0 false,
    .holdoverCalibrate (2 ^ 64),
    .sysSig 0 0 (2 ^ 8),
    .br 0 0 (2 ^ 4) 0,
    .br 0 0 0 (2 ^ 6),
    .brp 0 0 false 0 (2 ^ 6),
    .dbnz 0 0 (2 ^ 6),
    .await 0 0 false (2 ^ 8) 0,
    .put 0 0 0 false (2 ^ 16),
    .copy 0 0 (2 ^ 8) 0,
    .copy 0 0 0 (2 ^ 8)] : List Instr).all (fun i => !i.wf) = true := by decide +kernel

theorem test_wf_refuses_6 : ([.aluAdd 0 0 0 false (2 ^ 16),
    .aluSub 0 0 0 false (2 ^ 16),
    .aluAnd 0 0 0 false (2 ^ 16),
    .aluOr 0 0 0 false (2 ^ 16),
    .aluXor 0 0 0 false (2 ^ 16),
    .aluShl 0 0 0 false (2 ^ 16),
    .aluShr 0 0 0 false (2 ^ 16),
    .aluNot 0 0 0 false (2 ^ 16),
    .aluRev 0 0 0 false (2 ^ 16),
    .ldi 0 0 0 (2 ^ 16),
    .arm 0 0 false false (2 ^ 16),
    .load .host 0 (2 ^ 8),
    .loadClean .host 0 (2 ^ 8) 0,
    .pinDriverDiagnosis (2 ^ 8),
    .engineCheckFailure 0 (2 ^ 8),
    .fifoWordWrite 0 { (w7) with count := 8 },
    .fifoNarrowWrite 0 false (2 ^ 48) false,
    .release .host 0 (2 ^ 16),
    .pageBudgetWrite .host 0 (2 ^ 48),
    .streamData 0 (2 ^ 23) 0 [],
    .streamData 0 0 (2 ^ 24) [],
    .streamCredit (2 ^ 23) 0 0,
    .streamCredit 0 (2 ^ 24) 0,
    .streamCredit 0 0 (2 ^ 64),
    .canFrameReceive 0 { (cf8) with id := 2 ^ 11 } .none,
    .canFrameReceive 0 { (cf8) with ide := true, id := 2 ^ 29 } .none,
    .canFrameReceive 0 { (cf8) with dlc := 16 } .none,
    .canFrameReceive 0 { (cf8) with data := List.replicate 65 0 } .none,
    .canFrameReceive 0 { (cf8) with sof := 2 ^ 48 } .none,
    .transmitRequest .host 0 (2 ^ 8),
    .transmitAbort .host 0 (2 ^ 8),
    .canTransmitEnd 0 .ok (2 ^ 32),
    .canSettingsWrite .host 0 (2 ^ 8) 0,
    .canSettingsWrite .host 0 0 (2 ^ 48),
    .sdoDownloadInitiate 0 (2 ^ 16) 0 false [],
    .sdoDownloadInitiate 0 0 (2 ^ 8) false [],
    .sdoUploadInitiate 0 (2 ^ 16) 0] : List Instr).all (fun i => !i.wf) = true := by decide +kernel

theorem test_wf_refuses_7 : ([.sdoUploadInitiate 0 0 (2 ^ 8),
    .sdoBlockDownload 0 (2 ^ 16) 0 [] false,
    .sdoBlockDownload 0 0 (2 ^ 8) [] false,
    .sdoBlockUpload 0 (2 ^ 16) 0 0,
    .sdoBlockUpload 0 0 (2 ^ 8) 0,
    .sdoBlockUpload 0 0 0 (2 ^ 8),
    .nodeIdWrite .host (2 ^ 48),
    .processObjectRead .host (2 ^ 16) 0,
    .processObjectRead .host 0 (2 ^ 8),
    .processObjectWrite .host (2 ^ 16) 0 0,
    .processObjectWrite .host 0 (2 ^ 8) 0,
    .processObjectWrite .host 0 0 (2 ^ 48),
    .sleepPropose (2 ^ 8),
    .propose 0 (2 ^ 16) 0 0,
    .propose 0 0 (2 ^ 8) 0,
    .propose 0 0 0 (2 ^ 8),
    .consent 0 0 (2 ^ 16),
    .refuse 0 0 (2 ^ 16) 0,
    .refuse 0 0 0 (2 ^ 16),
    .sleepRetry (2 ^ 8),
    .commit 0 (2 ^ 16) 0,
    .abort 0 0 (2 ^ 16) 0,
    .abort 0 0 0 (2 ^ 16),
    .sleepAbort (2 ^ 16),
    .wakeAccepted (2 ^ 8),
    .wakeProductivityTimeout (2 ^ 8),
    .wakeConfirmation .host (2 ^ 48),
    .wakeUnmask .host (2 ^ 48),
    .pnFrameDecode 0 { (cf8) with id := 2 ^ 11 } .none,
    .pnFrameDecode 0 { (cf8) with ide := true, id := 2 ^ 29 } .none,
    .pnFrameDecode 0 { (cf8) with dlc := 16 } .none,
    .pnFrameDecode 0 { (cf8) with data := List.replicate 65 0 } .none,
    .pnFrameDecode 0 { (cf8) with sof := 2 ^ 48 } .none,
    .dormantWake (2 ^ 16) false 0 0 false false,
    .dormantWake 0 false (2 ^ 3) 0 false false,
    .dormantWake 0 false 0 (2 ^ 64) false false,
    .powerGoodPoll 0 (2 ^ 16)] : List Instr).all (fun i => !i.wf) = true := by decide +kernel

theorem test_wf_refuses_8 : ([.transmitDoorbell .host 0 (2 ^ 48),
    .bar2Write (2 ^ 32) [] false 0,
    .bar2Write 0 [] false (2 ^ 16),
    .bar2Read (2 ^ 32) 0 0,
    .bar2Read 0 (2 ^ 32) 0,
    .bar2Read 0 0 (2 ^ 16),
    .atomicFetchadd false (2 ^ 32) 0,
    .atomicFetchadd false 0 (2 ^ 64),
    .atomicCas false (2 ^ 32) 0 0,
    .atomicCas false 0 (2 ^ 64) 0,
    .atomicCas false 0 0 (2 ^ 64),
    .hostWriteFailure (2 ^ 48) 0 0 0,
    .hostWriteFailure 0 (2 ^ 16) 0 0,
    .hostWriteFailure 0 0 0 (2 ^ 16),
    .hostLinkUp (2 ^ 8) 0,
    .hostLinkUp 0 (2 ^ 8),
    .qspiWrite (2 ^ 32) [],
    .qspiRead (2 ^ 32) 0,
    .qspiRead 0 (2 ^ 32),
    .qspiFetchAdd (2 ^ 32) 0,
    .qspiFetchAdd 0 (2 ^ 64),
    .qspiCas (2 ^ 32) 0 0,
    .qspiCas 0 (2 ^ 64) 0,
    .qspiCas 0 0 (2 ^ 64),
    .sealFrame { (frm 5 9 1 .mg [1]) with version := 16 },
    .sealFrame { (frm 5 9 1 .mg [1]) with ftype := 16 },
    .sealFrame { (frm 5 9 1 .mg [1]) with dst := 256 },
    .sealFrame { (frm 5 9 1 .mg [1]) with src := 256 },
    .sealFrame { (frm 5 9 1 .mg [1]) with seq := 65536 },
    .sealFrame { (frm 5 9 1 .mg [1]) with specific := 65536 },
    .sealFrame { (frm 5 9 1 .mg [1]) with group := 2 ^ 23 },
    .sealFrame { (frm 5 9 1 .mg [1]) with payload := List.replicate 257 0 },
    .openFrame { (frm 5 9 1 .mg [1]) with version := 16 },
    .openFrame { (frm 5 9 1 .mg [1]) with ftype := 16 },
    .openFrame { (frm 5 9 1 .mg [1]) with dst := 256 },
    .openFrame { (frm 5 9 1 .mg [1]) with src := 256 },
    .openFrame { (frm 5 9 1 .mg [1]) with seq := 65536 }] : List Instr).all (fun i => !i.wf) = true := by decide +kernel

theorem test_wf_refuses_9 : ([.openFrame { (frm 5 9 1 .mg [1]) with specific := 65536 },
    .openFrame { (frm 5 9 1 .mg [1]) with group := 2 ^ 23 },
    .openFrame { (frm 5 9 1 .mg [1]) with payload := List.replicate 257 0 },
    .epochGraceExpiry 0 (2 ^ 12),
    .selfTests .host (2 ^ 16),
    .installCommand .host (2 ^ 48),
    .tamperEvent (2 ^ 8),
    .currentLimitWrite .host 0 (2 ^ 48),
    .channelEnableWrite .host 0 (2 ^ 48),
    .groveVoteClear 0 (2 ^ 8),
    .voteReturn 0 (2 ^ 8),
    .avsUpdate (2 ^ 2) 0,
    .avsUpdate 0 (2 ^ 16),
    .avsRetry (2 ^ 2),
    .avsReadback (2 ^ 16),
    .faultRaise (2 ^ 8) 0 0 0,
    .faultRaise 0 (2 ^ 8) 0 0,
    .faultRaise 0 0 (2 ^ 48) 0,
    .faultRaise 0 0 0 (2 ^ 48),
    .faultCauseGone (2 ^ 8),
    .acknowledge .host (2 ^ 8),
    .captureRearm .host (2 ^ 48),
    .reactionWrite .host (2 ^ 8) 0,
    .reactionWrite .host 0 (2 ^ 48),
    .eventRaise (2 ^ 8) 0 0,
    .eventRaise 0 (2 ^ 8) 0,
    .eventRaise 0 0 (2 ^ 48),
    .ringEvent 0 0 (2 ^ 8) 0 0 0 0,
    .ringEvent 0 0 0 (2 ^ 8) 0 0 0,
    .ringEvent 0 0 0 0 (2 ^ 48) 0 0,
    .ringEvent 0 0 0 0 0 (2 ^ 48) 0,
    .ringEvent 0 0 0 0 0 0 (2 ^ 48),
    .updateVerifyDone (2 ^ 8),
    .updateRequest 0 0 false (2 ^ 32) 0,
    .updateRequest 0 0 false 0 (2 ^ 32),
    .updateData 0 0 (2 ^ 16) 0 [],
    .updateData 0 0 0 (2 ^ 32) []] : List Instr).all (fun i => !i.wf) = true := by decide +kernel

/-! ### The hypotheses of the statements can be met -/

theorem test_hyps_CrossingsCarryTransfersInOrder :
    (∃ src : Nat, ∃ dst : Nat, ∃ s : State, (crossing s.hub src dst).broken = false ∧ crossingClosed s.hub src dst = false ∧
        s.hub.watch.armed = [] ∧ (crossing s.hub src dst).entries.length < 4 ∧ (crossing s.hub src dst).waiting = [])
    ∧ (∃ src : Nat, ∃ dst : Nat, ∃ s : State, (crossing s.hub src dst).broken = false ∧ crossingClosed s.hub src dst = false ∧
        s.hub.watch.armed = [] ∧ (crossing s.hub src dst).entries.length = 4)
    ∧ (∃ src : Nat, ∃ dst : Nat, ∃ s : State, ((crossing s.hub src dst).broken = true ∨ crossingClosed s.hub src dst = true))
    ∧ (∃ src : Nat, ∃ dst : Nat, ∃ s : State, (crossing s.hub src dst).broken = false ∧ crossingClosed s.hub src dst = false ∧ (crossing
        s.hub src dst).entries ≠ [])
    ∧ (∃ src : Nat, ∃ dst : Nat, ∃ s : State, (crossing s.hub src dst).entries = [])
    ∧ (∃ src : Nat, ∃ dst : Nat, ∃ s : State, s.pending = [] ∧ (crossing s.hub src dst).broken = false ∧ s.hub.spire.faulted = false ∧
        mode s.hub ≠ 6 ∧ s.hub.host.waiting = []) :=
  ⟨⟨0, 1, stOf bootHub, by decide +kernel⟩,
   ⟨0, 1, stOf { bootHub with crossings := [(crossingKey 0 1, xing 4 [])] }, by decide +kernel⟩,
   ⟨0, 8, stOf (wr bootHub 0x4D11_01 0), by decide +kernel⟩,
   ⟨0, 1, stOf { bootHub with crossings := [(crossingKey 0 1, xing 4 [w7])] }, by decide +kernel⟩,
   ⟨0, 8, stOf (wr bootHub 0x4D11_01 0), by decide +kernel⟩,
   ⟨0, 1, stOf { bootHub with crossings := [(crossingKey 0 1, xing 4 [w7])] }, by decide +kernel⟩⟩

theorem test_hyps_ClockMonitorReplicasAndBackstop :
    (∃ code : Nat, ∃ khz : Nat, ∃ f : Nat, ∃ s : State, setHz s.hub code = some f ∧ f < 20 * ((khz * 1000 - f) + (f - khz * 1000)))
    ∧ (∃ code : Nat, ∃ khz : Nat, ∃ f : Nat, ∃ s : State, setHz s.hub code = some f ∧ 20 * ((khz * 1000 - f) + (f - khz * 1000)) ≤ f)
    ∧ (∃ i : Nat, ∃ s : State, i ∈ stampIslands ∧ s.hub.spire.faulted = false ∧ mode s.hub ≠ 6 ∧ s.hub.watch.armed = [] ∧ (∀ j, j ∈
        stampIslands → j ≠ 0x14 → crossingShut s.hub 0x14 j = false ∧ (crossing s.hub 0x14 j).entries = []))
    ∧ (∃ i : Nat, ∃ s : State, i ∈ stampIslands ∧ i ≠ 0x14 ∧ s.hub.spire.faulted = false ∧ mode s.hub ≠ 6 ∧ crossingShut s.hub 0x14 i =
        true)
    ∧ (∃ s : State, s.hub.env.resetLow = false ∧ s.hub.env.supplies = true ∧ mode s.hub ≠ 6 ∧ s.hub.watch.backstop = false) :=
  ⟨⟨0, 759999, 800000000, stOf bootHub, by decide +kernel⟩,
   ⟨0, 760000, 800000000, stOf bootHub, by decide +kernel⟩,
   ⟨0, stOf (hubIn 3 []), by decide +kernel⟩,
   ⟨0, stOf (brokenAt 0x14 0 (hubIn 3 [])), by decide +kernel⟩,
   ⟨stOf (hubIn 3 []), by decide +kernel⟩⟩

theorem test_hyps_ResetPutsEntriesAtTheirDefaults :
    (∃ s : State, (s.hub.env.supplies = false ∨ s.hub.env.resetLow = true))
    ∧ (∃ width : Nat, ∃ s : State, 10000 ≤ width ∧ s.hub.env.supplies = true ∧ s.hub.env.resetLow = false)
    ∧ (∃ width : Nat, width ≤ 200)
    ∧ (∃ s : State, s.hub.env.resetLow = true ∧ s.hub.env.supplies = true) :=
  ⟨⟨State.reset, by decide +kernel⟩,
   ⟨10000, stOf (hubIn 3 [(0x2401_01, 77)]), by decide +kernel⟩,
   ⟨200, by decide +kernel⟩,
   ⟨State.reset, by decide +kernel⟩⟩

theorem test_hyps_BootStepsLeadToCommissionOrRecordTheirFailure :
    (∃ s : State, booting s.hub = true ∧ s.hub.boot.memDone = false)
    ∧ (∃ s : State, booting s.hub = true ∧ s.hub.boot.katDone = false ∧ s.hub.dome.generation ≠ 32)
    ∧ (∃ okA : Bool, ∃ okB : Bool, ∃ s : State, imageDue s.hub = true ∧ bootSource s.hub ≤ 1 ∧ slotUsable (slot s.hub (bootSource s.hub))
        (if bootSource s.hub = 0 then okA else okB) = true)
    ∧ (∃ s : State, imageDue s.hub = true ∧ bootSource s.hub = 2 ∧ s.hub.boot.control = 1)
    ∧ (∃ s : State, booting s.hub = true ∧ bootSource s.hub = 2 ∧ s.hub.boot.imageDone = false ∧ s.hub.boot.control ≠ 1)
    ∧ (∃ s : State, booting s.hub = true ∧ s.hub.boot.imageDone = true ∧ s.hub.watch.backstopRec = none)
    ∧ (∃ s : State, booting s.hub = true ∧ s.hub.boot.memDone = false ∧ rd s.hub 0x2000_11 = 0)
    ∧ (∃ results : Nat, ∃ s : State, results < 1024 ∧ results ≠ 0x3FF ∧ booting s.hub = true ∧ s.hub.boot.katDone = false ∧ rd s.hub
        0x2000_11 = 0) :=
  ⟨⟨stOf bootHub, by decide +kernel⟩,
   ⟨stOf bootHub, by decide +kernel⟩,
   ⟨true, false, stOf { bootHub with boot := { bootHub.boot with memOk := true, katOk := true } }, by decide +kernel⟩,
   ⟨stOf (wr { bootHub with boot := { bootHub.boot with memOk := true, katOk := true, control := 1 } } 0x2000_0C 2), by decide +kernel⟩,
   ⟨stOf (wr { bootHub with boot := { bootHub.boot with image := [1, 2] } } 0x2000_0C 2), by decide +kernel⟩,
   ⟨stOf { bootHub with boot := { bootHub.boot with imageDone := true } }, by decide +kernel⟩,
   ⟨stOf bootHub, by decide +kernel⟩,
   ⟨0, stOf bootHub, by decide +kernel⟩⟩

theorem test_hyps_BootStepsLeadToCommissionOrRecordTheirFailure_2 :
    (∃ s : State, imageDue s.hub = true ∧ bootSource s.hub ≤ 1 ∧ rd s.hub 0x2000_11 = 0)
    ∧ (∃ channels : Nat, ∃ s : State, popCount 3 channels ≥ 2 ∧ booting s.hub = true ∧ s.hub.boot.imageDone = true) :=
  ⟨⟨stOf { bootHub with boot := { bootHub.boot with memOk := true, katOk := true } }, by decide +kernel⟩,
   ⟨3, stOf { bootHub with boot := { bootHub.boot with imageDone := true } }, by decide +kernel⟩⟩

theorem test_hyps_FactoryEntryZeroises :
    (∃ s : State, booting s.hub = true ∧ s.hub.boot.factoryWait = true ∧ s.hub.boot.memOk = true ∧ s.hub.boot.katOk = true ∧ (session
        s.hub .host).role = 2)
    ∧ (∃ s : State, booting s.hub = true ∧ s.hub.boot.factoryWait = true ∧ (session s.hub .host).role ≠ 2 ∧ rd s.hub 0x2000_11 = 0)
    ∧ (∃ s : State, s.hub.boot.factoryWait = false)
    ∧ (∃ s : State, (s.hub.boot.memOk = false ∨ s.hub.boot.katOk = false))
    ∧ (∃ s : State, (session s.hub .host).role = 2) :=
  ⟨⟨stOf
      { bootHub with boot := { bootHub.boot with factoryWait := true, memOk := true, katOk := true }, sessions := [(0, { sessionInit with role := 2 })] },
      by decide +kernel⟩,
   ⟨stOf { bootHub with boot := { bootHub.boot with factoryWait := true } }, by decide +kernel⟩,
   ⟨stOf bootHub, by decide +kernel⟩,
   ⟨stOf bootHub, by decide +kernel⟩,
   ⟨stOf { bootHub with boot := { bootHub.boot with factoryWait := true }, sessions := [(0, { sessionInit with role := 2 })] },
      by decide +kernel⟩⟩

theorem test_hyps_ModeRequestsFollowTheTransitionTable :
    (∃ p : Path, ∃ s : State, WriteOpen p 0x2000 2 2 s.hub ∧ mode s.hub ∈ [3, 4, 5, 7] ∧ roundState s.hub ≠ 4)
    ∧ (∃ p : Path, ∃ s : State, WriteOpen p 0x2000 2 3 s.hub ∧ mode s.hub = 2 ∧ roundState s.hub ≠ 4)
    ∧ (∃ p : Path, ∃ s : State, WriteOpen p 0x2000 2 3 s.hub ∧ mode s.hub = 5 ∧ roundState s.hub ≠ 4)
    ∧ (∃ p : Path, ∃ s : State, WriteOpen p 0x2000 2 5 s.hub ∧ mode s.hub = 3 ∧ committed s.hub = false ∧ clearingBad (writeBegun p 0x2000
        2 s.hub) = false)
    ∧ (∃ p : Path, ∃ s : State, WriteOpen p 0x2000 2 7 s.hub ∧ mode s.hub ∈ [2, 3, 4, 5] ∧ roundState s.hub ≠ 4 ∧ spireState s.hub ≠ 7)
    ∧ (∃ p : Path, ∃ s : State, roundState s.hub = 4 ∧ WriteOpen p 0x2000 2 2 s.hub ∧ mode s.hub ∈ [3, 4, 5, 7])
    ∧ (∃ p : Path, ∃ s : State, roundState s.hub = 4 ∧ WriteOpen p 0x2000 2 3 s.hub ∧ mode s.hub ∈ [2, 5])
    ∧ (∃ p : Path, ∃ s : State, roundState s.hub = 4 ∧ WriteOpen p 0x2000 2 5 s.hub ∧ mode s.hub = 3 ∧ clearingBad (writeBegun p 0x2000 2
        s.hub) = false) :=
  ⟨⟨.host, stOf (hubIn 7 []), by (repeat' apply And.intro) <;> decide +kernel, by decide +kernel⟩,
   ⟨.host, stOf (hubIn 2 []), by (repeat' apply And.intro) <;> decide +kernel, by decide +kernel⟩,
   ⟨.host, stOf (hubIn 5 []), by (repeat' apply And.intro) <;> decide +kernel, by decide +kernel⟩,
   ⟨.host, stOf (hubIn 3 [(0x2D02_02, 2)]), by (repeat' apply And.intro) <;> decide +kernel, by decide +kernel⟩,
   ⟨.host, stOf (officerIn 2 []), by unfold WriteOpen; decide +kernel⟩,
   ⟨.host, stOf (hubIn 7 [(0x4D01_01, 4)]), by unfold WriteOpen; decide +kernel⟩,
   ⟨.host, stOf (hubIn 2 [(0x4D01_01, 4)]), by unfold WriteOpen; decide +kernel⟩,
   ⟨.host, stOf (hubIn 3 [(0x2D02_02, 2), (0x4D01_01, 4)]), by unfold WriteOpen; decide +kernel⟩⟩

theorem test_hyps_ModeRequestsFollowTheTransitionTable_2 :
    (∃ p : Path, ∃ s : State, roundState s.hub = 4 ∧ WriteOpen p 0x2000 2 7 s.hub ∧ mode s.hub ∈ [2, 3, 4, 5] ∧ spireState s.hub ≠ 7)
    ∧ (∃ p : Path, ∃ s : State, WriteOpen p 0x2000 2 2 s.hub ∧ mode s.hub ∉ [3, 4, 5, 7])
    ∧ (∃ p : Path, ∃ s : State, WriteOpen p 0x2000 2 3 s.hub ∧ mode s.hub ∉ [2, 5])
    ∧ (∃ p : Path, ∃ s : State, WriteOpen p 0x2000 2 5 s.hub ∧ mode s.hub ≠ 3)
    ∧ (∃ p : Path, ∃ s : State, WriteOpen p 0x2000 2 7 s.hub ∧ (mode s.hub ∉ [2, 3, 4, 5] ∨ spireState s.hub = 7)) :=
  ⟨⟨.host, stOf (officerIn 2 [(0x4D01_01, 4)]), by unfold WriteOpen; decide +kernel⟩,
   ⟨.host, stOf (hubIn 2 []), by (repeat' apply And.intro) <;> decide +kernel, by decide +kernel⟩,
   ⟨.host, stOf (hubIn 3 []), by (repeat' apply And.intro) <;> decide +kernel, by decide +kernel⟩,
   ⟨.host, stOf (hubIn 2 []), by (repeat' apply And.intro) <;> decide +kernel, by decide +kernel⟩,
   ⟨.host, stOf (officerIn 7 []), by unfold WriteOpen; decide +kernel⟩⟩

theorem test_hyps_ModesChangeOnTheirTriggers :
    (∃ s : State, mode s.hub = 4 ∧ rd s.hub 0x2000_06 = 0)
    ∧ (∃ p : Path, ∃ s : State, WriteOpen p 0x2000 0x14 1 s.hub ∧ (mode s.hub = 2 ∨ mode s.hub = 7 ∨ mode s.hub = 8))
    ∧ (∃ s : State, s.hub.env.resetLow = false ∧ s.hub.boot.latched = true ∧ mode s.hub ≠ 6)
    ∧ (∃ s : State, mode s.hub = 2 ∧ (s.hub.modes.runRequest = true ∨ rdB s.hub 0x2000_0F = true) ∧ gate s.hub ≠ 0xFF ∧
        s.hub.modes.blocked = false)
    ∧ (∃ s : State, mode s.hub = 2 ∧ gate s.hub = 0xFF ∧ runWanted s.hub = true) :=
  ⟨⟨stOf (hubIn 4 []), by decide +kernel⟩,
   
      ⟨.host, stOf (hubIn 2 [(0x2000_08, 0x1405)]), by (repeat' apply And.intro) <;> decide +kernel, by first | decide +kernel | exact Or.inl (by decide +kernel) | exact Or.inr (Or.inl (by decide +kernel)) | exact Or.inr (Or.inr (by decide +kernel))⟩,
   ⟨stOf (hubIn 3 []), by decide +kernel⟩,
   ⟨stOf { hubIn 2 [] with modes := { Hub.reset.modes with runRequest := true } }, by decide +kernel⟩,
   ⟨stOf (roleIs 3
      { hubIn 2 [(0x2000_0B, 3), (0x4500_01, 6)] with modes := { Hub.reset.modes with runRequest := true }, store := { Hub.reset.store with loaded := true }, forester := { Hub.reset.forester with placed := true } }),
      by decide +kernel⟩⟩

theorem test_hyps_DictionaryWriteIsAppliedOrRefused :
    (∃ p : Path, ∃ index : Nat, ∃ sub : Nat, ∃ size : Nat, ∃ v : Nat, ∃ s : State, entryRow index sub ≠ none ∧ ownWrite p index sub (v % 2
        ^ 48) = none ∧ shape index sub = .single ∧ slotAcc index sub ≠ some .w1c ∧ bufSlot index sub = none ∧ index ≠ 0x2B01 ∧ (p = .host
        ∧ size = 8 ∧ v < 2 ^ 64 ∨ p = .host ∧ size = 4 ∧ wide s.hub index sub = false ∧ v < 2 ^ 32 ∨ (∃ n, p = .ring n) ∧ size = 6 ∧ v < 2
        ^ 48 ∨ (∃ c, p = .sdo c) ∧ furtherSlot index sub = false ∧ sdoLengthOk s.hub index sub size = true ∧ size ≤ 6 ∧ v < 256 ^ size) ∧
        Accepted p index sub (v % 2 ^ 48) (entryCauses index sub (v % 2 ^ 48)) s.hub)
    ∧ (∃ index : Nat, ∃ sub : Nat, ∃ off, ∃ size : Nat, ∃ v : Nat, ∃ s : State, (¬ (off = 0 ∧ size = 8)) ∧ (¬ (off % 4 = 0 ∧ size = 4)) ∧
        index < 65536 ∧ sub < 256 ∧ SizeOpen .host index sub (if off = 0 then some v else none) s.hub)
    ∧ (∃ p : Path, ∃ index : Nat, ∃ sub : Nat, ∃ v : Nat, ∃ c : Nat, ∃ s : State, index < 65536 ∧ sub < 256 ∧ ownWrite p index sub v =
        none ∧ shape index sub = .single ∧ served s.hub p = true ∧ pathWaits s.hub p = false ∧ refusalCode (entryCauses index sub v
        (writeBegun p index sub s.hub) (writeCauses (writeBegun p index sub s.hub) p index sub v)) = some c) :=
  
      ⟨⟨.host, 0x2401, 1, 8, 4000, stOf (hubIn 2 []), by refine ⟨by decide +kernel, by decide +kernel, by decide +kernel, by decide +kernel, by decide +kernel, by decide +kernel, .inl (by decide +kernel), ?_⟩; unfold Accepted; decide +kernel⟩,
   ⟨0x2401, 1, 1, 4, 5, stOf (hubIn 2 []), by unfold SizeOpen Accepted; decide +kernel⟩,
   ⟨.host, 0x2401, 1, 1, 4, stOf (hubIn 2 []), by decide +kernel⟩⟩

theorem test_hyps_ReadAndWriteClassesKeepTheirRules :
    (∃ p : Path, ∃ index : Nat, ∃ sub : Nat, ∃ v : Nat, ∃ hw : Nat, ∃ s : State, slotAcc index sub = some .w1c ∧ ownWrite p index sub v =
        none ∧ hw < 2 ^ 48 ∧ Accepted p index sub v (entryCauses index sub v) s.hub)
    ∧ (∃ p : Path, ∃ index : Nat, ∃ sub : Nat, ∃ s : State, served s.hub p = true ∧ pathWaits s.hub p = false ∧ slotAcc index sub = some
        .rc ∧ shape index sub = .single ∧ bufSlot index sub = none ∧ slotKey index sub ≠ 0x2A02_01 ∧ index < 0x6000 ∧ view (readTouch p
        index sub s.hub) p index sub = none ∧ refusalCode (readCauses (readTouch p index sub s.hub) index sub) = none)
    ∧ (∃ p : Path, ∃ index : Nat, ∃ sub : Nat, ∃ s : State, served s.hub p = true ∧ pathWaits s.hub p = false ∧ shape index sub = .timeLo
        ∧ bufSlot index sub = none ∧ index < 0x6000 ∧ refusalCode (readCauses (readTouch p index sub s.hub) index sub) = none)
    ∧ (∃ p : Path, ∃ index : Nat, ∃ sub : Nat, ∃ v : Nat, ∃ s : State, shape index sub = .timeLo ∧ Accepted p index sub v (entryCauses
        index sub v) s.hub)
    ∧ (∃ p : Path, ∃ index : Nat, ∃ sub : Nat, ∃ lo : Nat, ∃ v : Nat, ∃ s : State, shape index (sub + 1) = .timeHi ∧ heldLower s.hub p
        (slotKey index (sub + 1)) = some lo ∧ timeHiBad v = false ∧ Accepted p index (sub + 1) v (entryCauses index (sub + 1) v) s.hub)
    ∧ (∃ p : Path, ∃ index : Nat, ∃ sub : Nat, ∃ v : Nat, ∃ s : State, shape index sub = .timeHi ∧ heldLower s.hub p (slotKey index sub) =
        none ∧ timeHiBad v = false ∧ Accepted p index sub v (entryCauses index sub v) s.hub) :=
  
      ⟨⟨.host, 0x4E10, 1, 3, 1, stOf (hubIn 3 [(0x4E10_01, 7)]), by decide +kernel, by decide +kernel, by decide +kernel, by (repeat' apply And.intro) <;> decide +kernel⟩,
   ⟨.host, 0x4600, 3, stOf (hubIn 3 [(0x4600_03, 7)]), by decide +kernel⟩,
   ⟨.host, 0x4500, 0x15, stOf { hubIn 3 [] with spire := { Hub.reset.spire with acc := 2 ^ 70 } }, by decide +kernel⟩,
   ⟨.host, 0x2501, 0x0E, 9, stOf (hubIn 2 []), by decide +kernel, by (repeat' apply And.intro) <;> decide +kernel⟩,
   ⟨.host, 0x2501, 0x0E, 9, 2 ^ 16, stOf { hubIn 2 [] with paths := [(0, { pathInit with timeHeld := [(0x2501_0E, 9)] })] },
      by unfold Accepted; decide +kernel⟩,
   
      ⟨.host, 0x2501, 0x0F, 2 ^ 16, stOf (hubIn 2 []), by decide +kernel, by decide +kernel, by decide +kernel, by (repeat' apply And.intro) <;> decide +kernel⟩⟩

theorem test_hyps_LongEntriesAndHalvesAreWhole :
    (∃ p : Path, ∃ index : Nat, ∃ f : Nat, ∃ n : Nat, ∃ s : State, served s.hub p = true ∧ pathWaits s.hub p = false ∧ shape index f =
        .long f n ∧ bufSlot index f = none ∧ index < 0x6000 ∧ refusalCode (readCauses (readTouch p index f s.hub) index f) = none)
    ∧ (∃ p : Path, ∃ index : Nat, ∃ f : Nat, ∃ n : Nat, ∃ j : Nat, ∃ v : Nat, ∃ s : State, shape index (f + j) = .long f n ∧ j + 1 <
        slotsOf n ∧ Accepted p index (f + j) v (entryCauses index (f + j) v) s.hub)
    ∧ (∃ p : Path, ∃ index : Nat, ∃ f : Nat, ∃ n : Nat, ∃ v : Nat, ∃ s : State, shape index (f + slotsOf n - 1) = .long f n ∧ 1 ≤ slotsOf
        n ∧ bufSlot index f = none ∧ index ≠ 0x2B02 ∧ index ≠ 0x2F02 ∧ pathWaits s.hub p = false ∧ (∀ k vs, (pathState s.hub p).longHeld =
        some (k, vs) → k = slotKey index f ∨ slotKey index (f + slotsOf n - 1) < k ∨ k + vs.length ≤ slotKey index (f + slotsOf n - 1)) ∧
        Accepted p index (f + slotsOf n - 1) (bytesNat ((wordsBytes ((heldLong s.hub p index f n).set (slotsOf n - 1) (BitVec.ofNat 48
        v))).take n)) (entryCauses index f 0) (dropLong p index f s.hub))
    ∧ (∃ index : Nat, ∃ sub : Nat, ∃ v : Nat, ∃ s : State, pathWaits s.hub .host = false ∧ (readSlot .host index sub s.hub).answer =
        .value v)
    ∧ (∃ index : Nat, ∃ sub : Nat, ∃ v : Nat, ∃ s : State, msixSlot s.hub .host index sub = false ∧ wide s.hub index sub = true ∧
        WriteOpen .host index sub v s.hub)
    ∧ (∃ index : Nat, ∃ sub : Nat, ∃ lo : Nat, ∃ s : State, pathWaits s.hub .host = false ∧ msixSlot s.hub .host index sub = false ∧ wide
        s.hub index sub = true ∧ s.hub.hostHalf.half = some (slotKey index sub, lo))
    ∧ (∃ index : Nat, ∃ sub : Nat, ∃ s : State, msixSlot s.hub .host index sub = false ∧ wide s.hub index sub = true ∧ s.hub.hostHalf.half
        = none ∧ SizeOpen .host index sub none s.hub)
    ∧ (∃ index : Nat, ∃ sub : Nat, ∃ lo : Nat, ∃ s : State, served s.hub .host = true ∧ pathWaits s.hub .host = false ∧ msixSlot s.hub
        .host index sub = false ∧ s.hub.hostHalf.latch = some (slotKey index sub, lo)) :=
  ⟨⟨.host, 0x2830, 3, 8, stOf (hubIn 2 [(0x2830_03, 9)]), by decide +kernel⟩,
   ⟨.host, 0x2830, 3, 8, 0, 9, stOf (hubIn 2 []), by decide +kernel, by decide +kernel, by (repeat' apply And.intro) <;> decide +kernel⟩,
   
      ⟨.host, 0x2830, 3, 8, 9, stOf (hubIn 2 []), ⟨by decide +kernel, by decide +kernel, by decide +kernel, by decide +kernel, by decide +kernel, by decide +kernel, by intro k vs h; exact absurd (show (none : Option (Nat × List Word)) = some (k, vs) from h) (by simp), by unfold Accepted; decide +kernel⟩⟩,
   ⟨0x4500, 0x15, 0, stOf (hubIn 2 []), by decide +kernel⟩,
   ⟨0x2501, 0x0D, 9, stOf (hubIn 2 []), by unfold WriteOpen; decide +kernel⟩,
   ⟨0x2501, 0x0D, 9, stOf { hubIn 2 [] with hostHalf := { latch := none, half := some (0x2501_0D, 9) } }, by decide +kernel⟩,
   ⟨0x2501, 0x0D, stOf (hubIn 2 []), by unfold SizeOpen Accepted; decide +kernel⟩,
   ⟨0x2501, 0x0D, 9, stOf { hubIn 2 [] with hostHalf := { latch := some (0x2501_0D, 9), half := none } }, by decide +kernel⟩⟩

theorem test_hyps_LongEntriesAndHalvesAreWhole_2 :
    (∃ index : Nat, ∃ sub : Nat, ∃ s : State, served s.hub .host = true ∧ pathWaits s.hub .host = false ∧ msixSlot s.hub .host index sub =
        false ∧ s.hub.hostHalf.latch = none ∧ refusalCode (slotCauses (readTouch .host index sub s.hub) index sub) = none)
    ∧ (∃ index : Nat, ∃ sub : Nat, ∃ off, ∃ size, ∃ s : State, served s.hub .host = true ∧ pathWaits s.hub .host = false ∧ (¬ (off = 0 ∧
        size = 8)) ∧ (¬ (off = 0 ∧ size = 4)) ∧ (¬ (off = 4 ∧ size = 4)) ∧ refusalCode (readCauses (readTouch .host index sub s.hub) index
        sub) = none)
    ∧ (∃ s : State, served s.hub .host = true ∧ pathWaits s.hub .host = true)
    ∧ (∃ p : Path, ∃ index : Nat, ∃ sub : Nat, ∃ v : Nat, ∃ s : State, ∃ i, served s.hub p = true ∧ pathWaits s.hub p = true ∧ i ∈
        [Instr.timeLowerWrite p index sub v, .timeUpperWrite p index sub v, .longEntrySlotWrite p index sub v])
    ∧ (∃ index : Nat, ∃ sub : Nat, ∃ v : Nat, ∃ s : State, msixSlot s.hub .host index sub = false ∧ narrow s.hub index sub = true ∧
        WriteOpen .host index sub v s.hub) :=
  ⟨⟨0x2501, 0x0D, stOf (hubIn 2 []), by decide +kernel⟩,
   ⟨0x2501, 0x0D, 1, 4, stOf (hubIn 2 []), by decide +kernel⟩,
   ⟨stOf (waitingHost (hubIn 2 [])), by decide +kernel⟩,
   ⟨.host, 0x2501, 0x0E, 9, stOf (waitingHost (hubIn 2 [])), .timeLowerWrite .host 0x2501 0x0E 9, by decide +kernel⟩,
   ⟨0x2401, 1, 9, stOf (hubIn 2 []), by unfold WriteOpen; decide +kernel⟩⟩

theorem test_hyps_RemoteDictionaryAccess :
    (∃ src : Nat, ∃ index : Nat, ∃ sub : Nat, ∃ v : Nat, ∃ s : State, served s.hub (.ring src) = true ∧ pathWaits s.hub (.ring src) =
        false ∧ hubNumber s.hub ≠ 255 ∧ refusalCode (requestCauses s.hub (.ring src) 1 index sub 1 []) = none ∧ (readSlot (.ring src)
        index sub s.hub).answer = .value v ∧ (readSlot (.ring src) index sub s.hub).canopen.writes = s.hub.canopen.writes)
    ∧ (∃ src : Nat, ∃ index : Nat, ∃ sub : Nat, ∃ v : Nat, ∃ s : State, served s.hub (.ring src) = true ∧ pathWaits s.hub (.ring src) =
        false ∧ hubNumber s.hub ≠ 255 ∧ refusalCode (requestCauses s.hub (.ring src) 2 index sub 1 [v]) = none ∧ (writeSlot (.ring src)
        index sub v s.hub).answer = .accepted ∧ hubNumber (writeSlot (.ring src) index sub v s.hub) ≠ 0 ∧ (writeSlot (.ring src) index sub
        v s.hub).canopen.writes = s.hub.canopen.writes)
    ∧ (∃ src : Nat, ∃ op : Nat, ∃ index : Nat, ∃ sub : Nat, ∃ count : Nat, ∃ data, ∃ c, ∃ s : State, served s.hub (.ring src) = true ∧
        hubNumber s.hub ≠ 255 ∧ index < 65536 ∧ sub < 256 ∧ refusalCode (requestCauses s.hub (.ring src) op index sub count data) = some
        c)
    ∧ (∃ src : Nat, ∃ op : Nat, ∃ index : Nat, ∃ sub : Nat, ∃ count : Nat, ∃ data, ∃ s : State, served s.hub (.ring src) = true ∧
        pathWaits s.hub (.ring src) = true ∧ hubNumber s.hub ≠ 255 ∧ refusalCode (requestCauses s.hub (.ring src) op index sub count data)
        = none)
    ∧ (∃ p : Path, ∃ s : State, WriteOpen p 0x2002 5 1 s.hub ∧ s.hub.mailbox.pending = none ∧ rd s.hub 0x2002_01 ∈ othersPresent s.hub ∧
        hubNumber s.hub ≠ 0)
    ∧ (∃ p : Path, ∃ s : State, WriteOpen p 0x2002 5 2 s.hub ∧ s.hub.mailbox.pending = none ∧ rd s.hub 0x2002_01 ∈ othersPresent s.hub ∧
        hubNumber s.hub ≠ 0)
    ∧ (∃ p : Path, ∃ s : State, WriteOpen p 0x2002 5 1 s.hub ∧ s.hub.mailbox.pending = none ∧ rd s.hub 0x2002_01 ∉ othersPresent s.hub)
    ∧ (∃ tag : Nat, ∃ status : Nat, ∃ data, ∃ s : State, s.hub.mailbox.pending = some tag ∧ status < 2 ^ 48 ∧ data < 2 ^ 48) :=
  ⟨⟨9, 0x2401, 1, 1000, stOf (hubIn 3 []), by decide +kernel⟩,
   ⟨9, 0x2E03, 1, 4, stOf (hubIn 3 []), by decide +kernel⟩,
   ⟨9, 2, 0x2401, 1, 2, [0], 4, stOf (bothPeers (hubIn 3 [(0x2000_02, 5)])), by decide +kernel⟩,
   ⟨9, 1, 0x2401, 1, 1, [], stOf (waitingOn (.ring 9) (bothPeers (hubIn 3 []))), by decide +kernel⟩,
   ⟨.host, stOf (withPeer (hubIn 3 [(0x2002_01, 9)])), by unfold WriteOpen; decide +kernel⟩,
   ⟨.host, stOf (withPeer (hubIn 3 [(0x2002_01, 9), (0x2002_04, 77)])), by unfold WriteOpen; decide +kernel⟩,
   ⟨.host, stOf (withPeer (hubIn 3 [(0x2002_01, 10)])), by (repeat' apply And.intro) <;> decide +kernel, by decide +kernel⟩,
   ⟨7, 0, 5, stOf { hubIn 3 [] with mailbox := { Hub.reset.mailbox with pending := some 7 } }, by decide +kernel⟩⟩

theorem test_hyps_RemoteDictionaryAccess_2 :
    ∃ s : State, s.hub.mailbox.pending.isSome = true :=
  ⟨stOf { hubIn 3 [] with mailbox := { pending := some 7, isRead := true, nextTag := 8 } }, by decide +kernel⟩

theorem test_hyps_ConfigurationIsStoredAndLoaded :
    (∃ p : Path, ∃ s : State, WriteOpen p 0x1010 1 0x65766173 s.hub ∧ storeMode s.hub = true ∧ s.hub.store.job = none)
    ∧ (∃ j : StoreJob, ∃ s : State, s.hub.store.job = some j)
    ∧ (∃ p : Path, ∃ s : State, WriteOpen p 0x1011 1 0x64616F6C s.hub)
    ∧ (∃ p : Path, ∃ s : State, WriteOpen p 0x2001 3 1 s.hub)
    ∧ (∃ p : Path, ∃ v, ∃ s : State, WriteOpen p 0x1010 1 v s.hub ∧ v ≠ 0x65766173)
    ∧ (∃ p : Path, ∃ s : State, WriteOpen p 0x1010 1 0x65766173 s.hub ∧ s.hub.store.job.isSome = true)
    ∧ (∃ p : Path, ∃ s : State, WriteOpen p 0x1010 1 0x65766173 s.hub ∧ s.hub.store.job = none ∧ storeMode s.hub = false)
    ∧ (∃ c, ∃ s : State, ∃ d, s.hub.store.loading = true ∧ bestCopy s.hub = some c ∧ formatAccepted (rd s.hub 0x2001_01) c.version = true
        ∧ (c.entries.map (·.1)).Nodup ∧ (s.hub.copyA = some d ∨ s.hub.copyB = some d) ∧ copyValid s.hub (some d) = true) :=
  ⟨⟨.host, stOf (hubIn 2 [(0x2401_01, 77)]), by (repeat' apply And.intro) <;> decide +kernel, by decide +kernel⟩,
   ⟨{ toB := false, seq := 3, snapshot := [(0x2401_01, 77)] }, stOf
      { hubIn 2 [] with store := { Hub.reset.store with job := some { toB := false, seq := 3, snapshot := [(0x2401_01, 77)] } } },
      by decide +kernel⟩,
   ⟨.host, stOf (hubIn 2 []), by (repeat' apply And.intro) <;> decide +kernel⟩,
   ⟨.host, stOf (hubIn 2 []), by (repeat' apply And.intro) <;> decide +kernel⟩,
   ⟨.host, 1, stOf (hubIn 2 []), by unfold WriteOpen; decide +kernel⟩,
   ⟨.host, stOf { hubIn 2 [] with store := { Hub.reset.store with job := some { toB := true, seq := 2, snapshot := [] } } },
      by unfold WriteOpen; decide +kernel⟩,
   ⟨.host, stOf (hubIn 8 []), by unfold WriteOpen; decide +kernel⟩,
   ⟨recCopy, stOf recHub, recCopy, ⟨rfl, bestCopy_recHub, by decide +kernel, by decide +kernel, .inl rfl, copyValid_recHub⟩⟩⟩

theorem test_hyps_ConfigurationIsStoredAndLoaded_2 :
    (∃ c, ∃ s : State, s.hub.store.loading = true ∧ bestCopy s.hub = some c ∧ formatAccepted (rd s.hub 0x2001_01) c.version = true ∧
        (c.entries.map (·.1)).Nodup)
    ∧ (∃ s : State, s.hub.store.loading = true ∧ bestCopy s.hub = none)
    ∧ (∃ s : State, s.hub.store.loading = true) :=
  ⟨⟨recCopy, stOf recHub, ⟨rfl, bestCopy_recHub, by decide +kernel, by decide +kernel⟩⟩,
   ⟨stOf { recHub with copyA := none }, by decide +kernel⟩,
   ⟨stOf recHub, by decide +kernel⟩⟩

theorem test_hyps_LinksTrainStateByState :
    (∃ c : Instr, ∃ port : Port, ∃ src : Nat, ∃ dst : Nat, ∃ s : State, (c = Instr.linkDownRestart port ∧ src = 1 ∧ dst = 2 ∨ c =
        .linkSignalDetect port ∧ src = 2 ∧ dst = (if fecOn s.hub (portNum port) then 4 else 3) ∨ c = .blockLock port ∧ src = 3 ∧ dst = 4 ∨
        c = .fecLock port ∧ src = 5 ∧ dst = 6) ∧ rxState s.hub (portNum port) = src)
    ∧ (∃ c : Instr, ∃ port : Port, ∃ src : Nat, ∃ dst : Nat, ∃ s : State, (c = Instr.linkDownRestart port ∧ src = 1 ∧ dst = 2 ∨ c =
        .linkSignalDetect port ∧ src = 2 ∧ dst = (if fecOn s.hub (portNum port) then 4 else 3) ∨ c = .blockLock port ∧ src = 3 ∧ dst = 4 ∨
        c = .fecLock port ∧ src = 5 ∧ dst = 6) ∧ rxState s.hub (portNum port) ≠ src)
    ∧ (∃ port : Port, ∃ skew : Nat, ∃ s : State, rxState s.hub (portNum port) = 4 ∧ skew ≤ 80)
    ∧ (∃ skew : Nat, 80 < skew)
    ∧ (∃ port : Port, ∃ s : State, 2 ≤ rxState s.hub (portNum port) ∧ rxState s.hub (portNum port) ≤ 5)
    ∧ (∃ port : Port, ∃ s : State, rxState s.hub (portNum port) = 6 ∧ miswiring s.hub (portNum port) = true)
    ∧ (∃ port : Port, ∃ s : State, rxState s.hub (portNum port) = 6 ∧ miswiring s.hub (portNum port) = false)
    ∧ (∃ port : Port, ∃ sender : Port, ∃ s : State, rxState s.hub (portNum port) = 6 ∧ portNum sender ≠ portNum port) :=
  ⟨⟨.linkDownRestart .east, .east, 1, 2, stOf (linkIn 1 (hubIn 2 [])), by decide +kernel⟩,
   ⟨.fecLock .west, .west, 5, 6, stOf (linkIn 6 (hubIn 2 [])), by decide +kernel⟩,
   ⟨.east, 80, stOf (linkIn 4 (hubIn 2 [])), by decide +kernel⟩,
   ⟨81, by decide +kernel⟩,
   ⟨.east, stOf (linkIn 5 (hubIn 2 [])), by decide +kernel⟩,
   ⟨.east, stOf (linked 6 (linkRec 6 true [])), by decide +kernel⟩,
   ⟨.east, stOf (linked 6 (linkRec 6 false [])), by decide +kernel⟩,
   ⟨.east, .west, stOf (linkIn 6 (hubIn 2 [])), by decide +kernel⟩⟩

theorem test_hyps_LinksTrainStateByState_2 :
    (∃ port : Port, ∃ s : State, rxState s.hub (portNum port) = 6 ∧ (link s.hub (portNum port)).miswire = false)
    ∧ (∃ port : Port, ∃ version : Nat, ∃ s : State, (rxState s.hub (portNum port) < 6 ∨ version ≠ 1))
    ∧ (∃ port : Port, ∃ s : State, rxState s.hub (portNum port) = 7)
    ∧ (∃ port : Port, ∃ s : State, rxState s.hub (portNum port) ≠ 7)
    ∧ (∃ port : Port, ∃ s : State, rxState s.hub (portNum port) ≠ 0 ∧ (link s.hub (portNum port)).stopped = false)
    ∧ (∃ port : Port, ∃ s : State, 1 ≤ rxState s.hub (portNum port) ∧ rxState s.hub (portNum port) ≤ 6) :=
  ⟨⟨.west, stOf (linkIn 6 (hubIn 2 [])), by decide +kernel⟩,
   ⟨.west, 1, stOf (linkIn 5 (hubIn 2 [])), by decide +kernel⟩,
   ⟨.west, stOf (linkIn 7 (hubIn 2 [])), by decide +kernel⟩,
   ⟨.west, stOf (linkIn 8 (hubIn 2 [])), by decide +kernel⟩,
   ⟨.west, stOf (linkIn 1 (hubIn 2 [])), by decide +kernel⟩,
   ⟨.west, stOf (linkIn 6 (hubIn 2 [])), by decide +kernel⟩⟩

theorem test_hyps_LinkFailuresTakeTheLinkDown :
    (∃ port : Port, ∃ cause, ∃ s : State, failureCounts s.hub (portNum port) cause = true ∧ rxRuns s.hub (portNum port) = true)
    ∧ (∃ port : Port, ∃ s : State, fecOn s.hub (portNum port) = true)
    ∧ (∃ port : Port, ∃ cause, ∃ s : State, failureCounts s.hub (portNum port) cause = true ∧ 2 ≤ rxState s.hub (portNum port) ∧ rxState
        s.hub (portNum port) ≤ 6 ∧ (link s.hub (portNum port)).arriving = [])
    ∧ (∃ port : Port, ∃ s : State, rxState s.hub (portNum port) = 0)
    ∧ (∃ port : Port, ∃ errors : Nat, ∃ s : State, rd s.hub 0x2100_08 < errors ∧ rxRuns s.hub (portNum port) = true)
    ∧ (∃ port : Port, ∃ errors : Nat, ∃ s : State, errors ≤ rd s.hub 0x2100_08 ∧ fecOn s.hub (portNum port) = false)
    ∧ (∃ port : Port, ∃ errors : Nat, ∃ s : State, errors ≤ rd s.hub 0x2100_08 ∧ fecOn s.hub (portNum port) = true)
    ∧ (∃ p : Path, ∃ sub : Nat, ∃ value : Nat, ∃ s : State, WriteOpen p 0x2100 sub value s.hub ∧ 1 ≤ sub ∧ sub ≤ 4 ∧ value ≤ (if sub ≤ 2
        then 1 else 255) ∧ rxState s.hub ((sub + 1) % 2) ≠ 0) :=
  ⟨⟨.east, .sync, stOf (linkIn 8 (hubIn 3 [(0x2100_01, 0)])), by decide +kernel⟩,
   ⟨.east, stOf (linkIn 8 (hubIn 3 [(0x2100_01, 1)])), by decide +kernel⟩,
   ⟨.east, .align, stOf (linkIn 6 (hubIn 3 [])), by decide +kernel⟩,
   ⟨.east, stOf (linkIn 0 (hubIn 3 [])), by decide +kernel⟩,
   ⟨.east, 2 ^ 32, stOf (linkIn 8 (hubIn 3 [])), by decide +kernel⟩,
   ⟨.east, 0, stOf (linkIn 8 (hubIn 3 [])), by decide +kernel⟩,
   ⟨.east, 0, stOf (linkIn 8 (hubIn 3 [(0x2100_01, 1)])), by decide +kernel⟩,
   ⟨.host, 1, 1, stOf (linkIn 8 (hubIn 2 [])), by (repeat' apply And.intro) <;> decide +kernel, by decide +kernel⟩⟩

theorem test_hyps_LinkFailuresTakeTheLinkDown_2 :
    ∃ p : Path, ∃ value : Nat, ∃ s : State, WriteOpen p 0x2100 9 value s.hub ∧ value ≤ 255 :=
  ⟨.host, 1, stOf (linkIn 8 (hubIn 2 [])), by (repeat' apply And.intro) <;> decide +kernel, by decide +kernel⟩

theorem test_hyps_FramesAreStrippedTakenOrPassedOn :
    (∃ port : Port, ∃ s : State, rxRuns s.hub (portNum port) = false)
    ∧ (∃ port : Port, ∃ f : Frame, ∃ check : FrameCheck, ∃ marked, ∃ s : State, rxRuns s.hub (portNum port) = true ∧ f.src = hubNumber
        s.hub ∧ f.src ≠ 0 ∧ arrival (isExpress f) none false check.blocks = .whole marked)
    ∧ (∃ port : Port, ∃ f : Frame, ∃ check : FrameCheck, ∃ marked, ∃ s : State, rxRuns s.hub (portNum port) = true ∧ (f.src ≠ hubNumber
        s.hub ∨ f.src = 0) ∧ f.dst ≠ hubNumber s.hub ∧ f.dst ≠ 255 ∧ s.hub.boot.transit = true ∧ arrival (isExpress f) none false
        check.blocks = .whole marked ∧ isArriving s.hub (portNum port) f = true)
    ∧ (∃ port : Port, ∃ f : Frame, ∃ hop : Nat, ∃ check : FrameCheck, ∃ marked, ∃ s : State, rxRuns s.hub (portNum port) = true ∧ (f.src ≠
        hubNumber s.hub ∨ f.src = 0) ∧ f.dst ≠ hubNumber s.hub ∧ f.dst ≠ 255 ∧ s.hub.boot.transit = true ∧ arrival (isExpress f) none
        false check.blocks = .whole marked ∧ isArriving s.hub (portNum port) f = false ∧ hop ≤ 1)
    ∧ (∃ port : Port, ∃ f : Frame, ∃ hop : Nat, ∃ check : FrameCheck, ∃ marked, ∃ s : State, rxRuns s.hub (portNum port) = true ∧ (f.src ≠
        hubNumber s.hub ∨ f.src = 0) ∧ f.dst ≠ hubNumber s.hub ∧ f.dst ≠ 255 ∧ s.hub.boot.transit = true ∧ arrival (isExpress f) none
        false check.blocks = .whole marked ∧ isArriving s.hub (portNum port) f = false ∧ 1 < hop)
    ∧ (∃ port : Port, ∃ f : Frame, ∃ check : FrameCheck, ∃ marked, ∃ s : State, rxRuns s.hub (portNum port) = true ∧ f.src ≠ hubNumber
        s.hub ∧ f.dst = hubNumber s.hub ∧ f.dst ≠ 0 ∧ sendsOwn s.hub = true ∧ arrival (isExpress f) none false check.blocks = .whole
        marked)
    ∧ (∃ p, ∃ h : Hub, crossingShut h (4 + p) 0 = false ∧ (crossing h (4 + p) 0).entries = [] ∧ h.watch.armed = [])
    ∧ (∃ p, ∃ h : Hub, crossingShut h (4 + p) 0 = true) :=
  ⟨⟨.east, stOf (linkIn 6 (hubIn 3 [])), by decide +kernel⟩,
   ⟨.east, frm 5 9 1 .bk [1], arrivingOf [.pause 7, .cont 0, .fin 0], false, stOf (linkIn 8 (bothPeers (hubIn 3 []))), by decide +kernel⟩,
   ⟨.east, frm 9 8 1 .bk [1], arrivingOf [.pause 7, .cont 0, .fin 0], false, stOf (arrivingAt (frm 9 8 1 .bk [1]) 2), by decide +kernel⟩,
   ⟨.east, frm 9 8 1 .bk [1], 1, arrivingOf [.pause 7, .cont 0, .fin 0], false, stOf (linkIn 8 (bothPeers (hubIn 3 []))),
      by decide +kernel⟩,
   ⟨.east, frm 9 8 1 .bk [1], 2, arrivingOf [.pause 7, .cont 0, .fin 0], false, stOf (linkIn 8 (bothPeers (hubIn 3 []))),
      by decide +kernel⟩,
   ⟨.east, frm 9 5 1 .bk [1], arrivingOf [.marked, .fin 0], true, stOf (linkIn 8 (bothPeers (hubIn 3 []))), by decide +kernel⟩,
   ⟨0, hubIn 3 [], by decide +kernel⟩,
   ⟨0, hubIn 6 [], by decide +kernel⟩⟩

theorem test_hyps_FramesAreStrippedTakenOrPassedOn_2 :
    (∃ port : Port, ∃ f : Frame, ∃ check : FrameCheck, ∃ s : State, rxRuns s.hub (portNum port) = true ∧ arrival (isExpress f) none false
        check.blocks = .underway ∧ isArriving s.hub (portNum port) f = true)
    ∧ (∃ port : Port, ∃ f : Frame, ∃ check : FrameCheck, ∃ s : State, rxRuns s.hub (portNum port) = true ∧ arrival (isExpress f) none
        false check.blocks = .underway ∧ isArriving s.hub (portNum port) f = false)
    ∧ (∃ port : Port, ∃ f : Frame, ∃ check : FrameCheck, ∃ s : State, rxRuns s.hub (portNum port) = true ∧ arrival (isExpress f) none
        false check.blocks = .broken)
    ∧ (∃ k, ∃ j, j ≠ (k + 1) % 8)
    ∧ (∃ port : Port, ∃ s : State, rxState s.hub (portNum port) ≠ 0 ∧ (link s.hub (portNum port)).stopped = false)
    ∧ (∃ q, ∃ g, ∃ sent, interruptible q g sent = true) :=
  ⟨⟨.east, frm 9 8 1 .bk [1], arrivingOf [.pause 0], stOf (arrivingAt (frm 9 8 1 .bk [1]) 2), by decide +kernel⟩,
   ⟨.east, frm 9 8 1 .bk [1], arrivingOf [.pause 0], stOf (linkIn 8 (bothPeers (hubIn 3 []))), by decide +kernel⟩,
   ⟨.east, frm 9 8 1 .bk [1], arrivingOf [.pause 0, .cont 2], stOf (linkIn 8 (bothPeers (hubIn 3 []))), by decide +kernel⟩,
   ⟨7, 1, by decide +kernel⟩,
   ⟨.east, stOf (linkIn 8 { hubIn 3 [] with tx := [(0, { txInit with express := [txf (frm 5 9 1 .ur [1])] })] }), by decide +kernel⟩,
   ⟨{ txInit with express := [txf (frm 5 9 1 .ur [1])] },
      { item := txf (frm 5 9 1 .mg (List.replicate 16 1)), fragment := 0, offset := 0 }, 48, by decide +kernel⟩⟩

theorem test_hyps_PresenceAndClaimsMakeTheRingMap :
    (∃ s : State, hubNumber s.hub ≠ 0 ∧ sendsOwn s.hub = true)
    ∧ (∃ src : Nat, ∃ hop : Nat, ∃ s : State, src ≠ 0 ∧ src ≠ hubNumber s.hub ∧ src ≤ 254 ∧ hop ≤ 254)
    ∧ (∃ src : Nat, ∃ s : State, (src = 0 ∨ src = hubNumber s.hub))
    ∧ (∃ src : Nat, ∃ s : State, src ≠ hubNumber s.hub)
    ∧ (∃ h : Hub, ∃ b, (∀ d, d ∈ h.ring.downs → d.2.1 ≠ b))
    ∧ (∃ h : Hub, ∃ b, ∃ n : Nat, ∃ x, ∃ e, ∃ y, (x, b, e) ∈ h.ring.downs ∧ heard h b n = some y ∧ (heard h b x).getD e ≤ y)
    ∧ (∃ s : State, mode s.hub = 2 ∧ hubNumber s.hub = 0 ∧ (rxRuns s.hub 0 = true ∨ rxRuns s.hub 1 = true) ∧ s.hub.ring.conflict = false ∧
        bench s.hub = false)
    ∧ (∃ number : Nat, ∃ s : State, number ≠ 0 ∧ number = hubNumber s.hub) :=
  ⟨⟨stOf (hubIn 3 []), by decide +kernel⟩,
   ⟨254, 254, stOf (hubIn 3 []), by decide +kernel⟩,
   ⟨5, stOf (bothPeers (hubIn 3 [])), by decide +kernel⟩,
   ⟨9, stOf (bothPeers (hubIn 3 [])), by decide +kernel⟩,
   ⟨Hub.reset, true, fun d m => by cases (show d ∈ ([] : List (Nat × Bool × Nat)) from m)⟩,
   ⟨{ bothPeers (hubIn 3 []) with ring := { (bothPeers (hubIn 3 [])).ring with downs := [(9, true, 2)] } }, true, 9, 9, 2, 3,
      by decide +kernel⟩,
   ⟨stOf (linkIn 7 (wr (hubIn 2 []) 0x2000_09 0)), by decide +kernel⟩,
   ⟨5, stOf (hubIn 3 []), by decide +kernel⟩⟩

theorem test_hyps_PresenceAndClaimsMakeTheRingMap_2 :
    (∃ serial : Nat, ∃ n : Nat, ∃ s : State, hubNumber s.hub ≠ 0 ∧ headHub s.hub = hubNumber s.hub ∧ offerFor s.hub serial = some n)
    ∧ (∃ c : Claim, ∃ s : State, s.hub.ring.claim = some c ∧ c.number = 0 ∧ c.asked = 0)
    ∧ (∃ c : Claim, ∃ s : State, s.hub.ring.claim = some c)
    ∧ (∃ c : Claim, ∃ s : State, s.hub.ring.claim = some c ∧ c.number ≠ 0 ∧ c.number < 256 ∧ c.lost = false) :=
  ⟨⟨7, 1, stOf (roleIs 1 (hubIn 3 [(0x2000_0B, 1)])), by decide +kernel⟩,
   ⟨claimOf 0 0, stOf (claiming (claimOf 0 0)), by decide +kernel⟩,
   ⟨claimOf 4 4, stOf (claiming (claimOf 4 4)), by decide +kernel⟩,
   ⟨claimOf 255 255, stOf (claiming (claimOf 255 255)), by decide +kernel⟩⟩

theorem test_hyps_BelfryAdmitsFramesWhole :
    (∃ port, ∃ f : Frame, ∃ g, ∃ s : State, ringFront s.hub (portNum port) = some f ∧ halted s.hub = false ∧ ringCharge s.hub f = some g ∧
        g ≠ 3 ∧ outputSet s.hub (portNum port) f ≠ [] ∧ hasCells s.hub (frameCells f) = true ∧ s.hub.watch.armed = [])
    ∧ (∃ port, ∃ f : Frame, ∃ s : State, ringFront s.hub (portNum port) = some f ∧ halted s.hub = false ∧ outputSet s.hub (portNum port) f
        ≠ [] ∧ (ringCharge s.hub f = none ∨ (∃ g, ringCharge s.hub f = some g ∧ g ≠ 3 ∧ hasCells s.hub (frameCells f) = false)))
    ∧ (∃ port, ∃ f : Frame, ∃ s : State, ringFront s.hub (portNum port) = some f ∧ halted s.hub = false ∧ outputSet s.hub (portNum port) f
        = [])
    ∧ (∃ port, ∃ f : Frame, ∃ s : State, ringFront s.hub (portNum port) ≠ some f)
    ∧ (∃ p : Fin 8, ∃ f : Frame, ∃ rest : List Frame, ∃ s : State, 2 ≤ p.val ∧ halted s.hub = false ∧ portFrames s.hub p = f :: rest ∧
        outputSet s.hub p f ≠ [] ∧ s.hub.watch.armed = [] ∧ frameCells f ≤ creditsHeld s.hub p (clsNum f.cls) ∧ hasCells s.hub (frameCells
        f) = true)
    ∧ (∃ p : Fin 8, ∃ f : Frame, ∃ rest : List Frame, ∃ s : State, 2 ≤ p.val ∧ halted s.hub = false ∧ portFrames s.hub p = f :: rest ∧
        outputSet s.hub p f ≠ [] ∧ (creditsHeld s.hub p (clsNum f.cls) < frameCells f ∨ hasCells s.hub (frameCells f) = false))
    ∧ (∃ p : Fin 8, ∃ f : Frame, ∃ rest : List Frame, ∃ s : State, 2 ≤ p.val ∧ halted s.hub = false ∧ portFrames s.hub p = f :: rest ∧
        outputSet s.hub p f = []) :=
  ⟨⟨.east, frm 9 5 1 .mg [1], 1, stOf (ringIn [(0, frm 9 5 1 .mg [1])]), by decide +kernel⟩,
   ⟨.east, frm 9 5 1 .mg [1], stOf (wr (ringIn [(0, frm 9 5 1 .mg [1])]) 0x2202_04 0), by decide +kernel⟩,
   ⟨.east, { frm 9 5 1 .mg [1] with poison := [0] }, stOf (ringIn [(0, { frm 9 5 1 .mg [1] with poison := [0] })]), by decide +kernel⟩,
   ⟨.east, frm 9 5 1 .mg [1], stOf (ringIn [(1, frm 9 5 1 .mg [1])]), by decide +kernel⟩,
   ⟨6, frm 5 5 2 .mg [1], [], stOf
      { hubIn 2 [] with portQ := [(6, [frm 5 5 2 .mg [1]])], belfry := { Hub.reset.belfry with credits := [(pcKey 6 3, 1)] } },
      by decide +kernel⟩,
   ⟨6, frm 5 5 2 .mg [1], [], stOf { hubIn 2 [] with portQ := [(6, [frm 5 5 2 .mg [1]])] }, by decide +kernel⟩,
   ⟨6, frm 5 9 5 .mg [1], [], stOf { hubIn 2 [] with portQ := [(6, [frm 5 9 5 .mg [1]])] }, by decide +kernel⟩⟩

theorem test_hyps_CellsAreGrantedInOrder :
    (∃ s : State, halted s.hub = true)
    ∧ (∃ s : State, halted s.hub = false)
    ∧ (∃ s : State, (∀ o, o < 8 → ∀ c, c < 4 → readyAt s.hub o c = false))
    ∧ (∃ h : Hub, ∃ o : Nat, ∃ ch : Choice, grantChoice h o = some ch ∧ readyAt h o 0 = true)
    ∧ (∃ h : Hub, ∃ o : Nat, ∃ ch : Choice, grantChoice h o = some ch ∧ ch.forced = true)
    ∧ (∃ h : Hub, ∃ o : Nat, ∃ ch : Choice, ∃ c : Nat, grantChoice h o = some ch ∧ ch.cls = 1 ∧ (c = 2 ∨ c = 3) ∧ readyAt h o c = true)
    ∧ (∃ h : Hub, ∃ o : Nat, ∃ ch : Choice, grantChoice h o = some ch)
    ∧ (∃ h : Hub, ∃ o : Nat, ∃ ch : Choice, ∃ x : Stored, grantChoice h o = some ch ∧ nextAt h o ch.cls = some x ∧ x.errorsIn
        ((x.grantedAt o).getD 0) = [] ∧ poisonStops o x ((x.grantedAt o).getD 0) = false ∧ x.cells.length ≤ ((x.grantedAt o).getD 0) + 1 ∧
        2 ≤ o) :=
  ⟨⟨stOf (hubIn 3 [(0x4202_01, 0)]), by decide +kernel⟩,
   ⟨stOf { hubIn 3 [] with belfry := { Hub.reset.belfry with stored := [sto 0 0 6 (frm 9 5 5 .mg [1])] } }, by decide +kernel⟩,
   ⟨stOf (hubIn 3 []), by decide +kernel⟩,
   ⟨{ hubIn 3 [] with belfry := { Hub.reset.belfry with stored := [sto 0 0 6 (frm 9 5 5 .mg [1]), sto 1 0 6 (frm 9 5 0 .cy [1])] } }, 6,
      { cls := 0, forced := false, shares := none }, by decide +kernel⟩,
   ⟨{ hubIn 3 [] with belfry := { Hub.reset.belfry with stored := [sto 0 0 6 (frm 9 5 5 .mg [1])], starve := [(pcKey 6 3, 1000)] } }, 6,
      { cls := 3, forced := true, shares := none }, by decide +kernel⟩,
   ⟨{ hubIn 3 [] with belfry := { Hub.reset.belfry with stored := [sto 0 0 6 (frm 9 5 5 .mg [1]), sto 1 0 6 (frm 9 5 5 .ur [1])] } }, 6,
      { cls := 1, forced := false, shares := none }, 3, by decide +kernel⟩,
   ⟨{ hubIn 3 [] with belfry := { Hub.reset.belfry with stored := [sto 0 0 6 (frm 9 5 5 .mg [1])] } }, 6, (grantChoice
      { hubIn 3 [] with belfry := { Hub.reset.belfry with stored := [sto 0 0 6 (frm 9 5 5 .mg [1])] } } 6).getD
      { cls := 9, forced := false, shares := none }, by decide +kernel⟩,
   ⟨stored [sto 1 0 6 (frm 9 5 5 .ur [1])], 6, { cls := 1, forced := false, shares := none }, sto 1 0 6 (frm 9 5 5 .ur [1]),
      by decide +kernel⟩⟩

theorem test_hyps_CellsAreGrantedInOrder_2 :
    (∃ h : Hub, ∃ o : Nat, ∃ ch : Choice, ∃ x : Stored, grantChoice h o = some ch ∧ nextAt h o ch.cls = some x ∧ x.errorsIn ((x.grantedAt
        o).getD 0) = [] ∧ poisonStops o x ((x.grantedAt o).getD 0) = false ∧ x.cells.length ≤ ((x.grantedAt o).getD 0) + 1 ∧ o < 2 ∧
        isExpress x.frame = true ∧ x.frame.poison = [] ∧ crossingShut h 0 6 = false ∧ (crossing h 0 6).entries = [] ∧ h.watch.armed = [])
    ∧ (∃ h : Hub, ∃ o : Nat, ∃ ch : Choice, ∃ x : Stored, grantChoice h o = some ch ∧ nextAt h o ch.cls = some x ∧ x.errorsIn
        ((x.grantedAt o).getD 0) = [] ∧ poisonStops o x ((x.grantedAt o).getD 0) = false ∧ ((x.grantedAt o).getD 0) + 1 < x.cells.length)
    ∧ (∃ h : Hub, ∃ o : Nat, ∃ ch : Choice, ∃ x : Stored, grantChoice h o = some ch ∧ nextAt h o ch.cls = some x ∧ x.errorsIn
        ((x.grantedAt o).getD 0) = [] ∧ poisonStops o x ((x.grantedAt o).getD 0) = false)
    ∧ (∃ h : Hub, ∃ o : Nat, ∃ ch : Choice, ∃ x : Stored, ∃ y, grantChoice h o = some ch ∧ nextAt h o ch.cls = some x ∧ x.errorsIn
        ((x.grantedAt o).getD 0) = [] ∧ poisonStops o x ((x.grantedAt o).getD 0) = true ∧ y ∈ (grantOutput o h).belfry.stored)
    ∧ (∃ h : Hub, ∃ o : Nat, ∃ ch : Choice, ∃ x : Stored, grantChoice h o = some ch ∧ nextAt h o ch.cls = some x ∧ x.errorsIn
        ((x.grantedAt o).getD 0) = [] ∧ poisonStops o x ((x.grantedAt o).getD 0) = true) :=
  ⟨⟨stored [sto 1 6 1 (frm 5 9 5 .ur [1])], 1, { cls := 1, forced := false, shares := none }, sto 1 6 1 (frm 5 9 5 .ur [1]),
      by decide +kernel⟩,
   ⟨stored [{ sto 1 0 6 (frm 9 5 5 .ur [1]) with cells := [1, 2] }], 6, { cls := 1, forced := false, shares := none },
      { sto 1 0 6 (frm 9 5 5 .ur [1]) with cells := [1, 2] }, by decide +kernel⟩,
   ⟨stored [sto 1 0 6 (frm 9 5 5 .ur [1])], 6, { cls := 1, forced := false, shares := none }, sto 1 0 6 (frm 9 5 5 .ur [1]),
      by decide +kernel⟩,
   ⟨stored [{ sto 1 6 1 (frm 9 5 5 .ur [1]) with frame := { frm 9 5 5 .ur [1] with poison := [0] } }, sto 2 0 6 (frm 9 5 5 .ur [1])], 1,
      { cls := 1, forced := false, shares := none },
      { sto 1 6 1 (frm 9 5 5 .ur [1]) with frame := { frm 9 5 5 .ur [1] with poison := [0] } }, sto 2 0 6 (frm 9 5 5 .ur [1]),
      by decide +kernel⟩,
   ⟨stored [{ sto 1 6 1 (frm 9 5 5 .ur [1]) with frame := { frm 9 5 5 .ur [1] with poison := [0] } }], 1,
      { cls := 1, forced := false, shares := none },
      { sto 1 6 1 (frm 9 5 5 .ur [1]) with frame := { frm 9 5 5 .ur [1] with poison := [0] } }, by decide +kernel⟩⟩

theorem test_hyps_BelfryAgesAndCountsItsCells :
    (∃ s : State, ((∀ x ∈ s.hub.belfry.stored, agedOut (takeTick [] s.hub) x = false) ∨ halted s.hub = true))
    ∧ (∃ x : Stored, ∃ o : Nat, ∃ s : State, halted s.hub = false ∧ s.hub.belfry.stored = [x] ∧ x.copies = [(o, 0)] ∧ x.multi = false ∧ o
        < 8 ∧ x.input < 8 ∧ agedOut (takeTick [] s.hub) x = true)
    ∧ (∃ s : State, s.hub.belfry.locating = none)
    ∧ (∃ lost : List Nat, ∃ s : State, s.hub.belfry.locating = some none)
    ∧ (∃ lost : List Nat, ∃ first : List Nat, ∃ s : State, s.hub.belfry.locating = some (some first)) :=
  ⟨⟨stOf { hubIn 3 [] with belfry := { Hub.reset.belfry with stored := [sto 1 0 6 (frm 9 5 5 .ur [1])] } }, by decide +kernel⟩,
   ⟨sto 1 0 6 (frm 9 5 5 .ur [1]), 6, stOf
      { late (hubIn 3 []) with belfry := { Hub.reset.belfry with stored := [sto 1 0 6 (frm 9 5 5 .ur [1])] } }, by decide +kernel⟩,
   ⟨stOf (hubIn 3 []), by decide +kernel⟩,
   ⟨[], stOf { hubIn 3 [] with belfry := { Hub.reset.belfry with locating := some none } }, by decide +kernel⟩,
   ⟨[3], [3, 4], stOf { hubIn 3 [] with belfry := { Hub.reset.belfry with locating := some (some [3, 4]) } }, by decide +kernel⟩⟩

theorem test_hyps_VotersExcludeTheMinorityAndChannelsRecover :
    (∃ c : Instr, ∃ n : Fin 3, ∃ cause : Nat, ∃ group : Nat, ∃ s : State, (c = Instr.voteMinority n group ∧ group ≠ 0x0B ∧ cause = 1 ∨ c =
        .voteMinority n group ∧ group = 0x0B ∧ cause = 3 ∨ (∃ u, c = .digestCompare u ∧ digestAlone (upsetChannels u s.hub) = [n.val]) ∧
        group = 0 ∧ cause = 2 ∨ c = .channelTreeCheck n false ∧ group = 0 ∧ cause = 4) ∧ group < 16 ∧ halted s.hub = false ∧ mode s.hub ≠
        6 ∧ votingCount s.hub = 3 ∧ windowCount s.hub n < rd s.hub 0x2207_03)
    ∧ (∃ cause : Nat, ∃ s : State, halted s.hub = false ∧ mode s.hub ≠ 6 ∧ cause < 2 ^ 48)
    ∧ (∃ cause : Nat, ∃ s : State, halted s.hub = true ∧ cause ≠ 4)
    ∧ (∃ s : State, halted s.hub = true ∧ mode s.hub ≠ 6)
    ∧ (∃ u, ∃ s : State, digestAlone (upsetChannels u s.hub) = [])
    ∧ (∃ n : Fin 3, ∃ s : State, compared s.hub n = false)
    ∧ (∃ n : Fin 3, ∃ h : Hub, chState h n = 2 ∧ (channel h n).passed = false ∧ mode h ≠ 6)
    ∧ (∃ n : Fin 3, ∃ s : State, (chState s.hub n = 3 ∨ chState s.hub n = 2 ∧ (channel s.hub n).passed = false) ∧ mode s.hub ≠ 6) :=
  ⟨⟨.voteMinority 1 2, 1, 1, 2, stOf (hubIn 3 []), ⟨.inl (by decide +kernel), by decide +kernel⟩⟩,
   ⟨1, stOf (hubIn 3 []), by decide +kernel⟩,
   ⟨1, stOf (hubIn 3 [(0x4202_01, 0)]), by decide +kernel⟩,
   ⟨stOf (hubIn 3 [(0x4202_01, 0)]), by decide +kernel⟩,
   ⟨[], stOf (hubIn 3 []), by decide +kernel⟩,
   ⟨1, stOf (hubIn 3 [(chKey 1 1, 4)]), by decide +kernel⟩,
   ⟨1, hubIn 3 [(chKey 1 1, 2)], by decide +kernel⟩,
   ⟨1, stOf (hubIn 3 [(chKey 1 1, 3)]), by decide +kernel⟩⟩

theorem test_hyps_VotersExcludeTheMinorityAndChannelsRecover_2 :
    (∃ n : Fin 3, ∃ same, ∃ s : State, chState s.hub n = 4 ∧ copiesAgree s.hub same = true)
    ∧ (∃ n : Fin 3, ∃ same, ∃ s : State, chState s.hub n = 4 ∧ copiesAgree s.hub same = false ∧ halted s.hub = false ∧ mode s.hub ≠ 6)
    ∧ (∃ n : Fin 3, ∃ s : State, chState s.hub n = 4 ∧ (channel s.hub n).loaded.isSome = true)
    ∧ (∃ n : Fin 3, ∃ s : State, (channel s.hub n).loaded = none)
    ∧ (∃ n : Fin 3, ∃ s : State, chState s.hub n = 4)
    ∧ (∃ n : Fin 3, ∃ s : State, chState s.hub n = 5 ∧ halted s.hub = false)
    ∧ (∃ p : Path, ∃ n : Fin 3, ∃ s : State, WriteOpen p 0x2207 6 n s.hub ∧ chState s.hub n = 6) :=
  ⟨⟨1, true, stOf (hubIn 3 [(chKey 1 1, 4)]), by decide +kernel⟩,
   ⟨1, false, stOf (hubIn 3 [(chKey 1 1, 4)]), by decide +kernel⟩,
   ⟨1, stOf (channelIn 4 { channelInit with loaded := some 0 }), by decide +kernel⟩,
   ⟨1, stOf (hubIn 3 [(chKey 1 1, 4)]), by decide +kernel⟩,
   ⟨1, stOf (hubIn 3 [(chKey 1 1, 4)]), by decide +kernel⟩,
   ⟨1, stOf (hubIn 3 [(chKey 1 1, 5), (0x4202_01, 2)]), by decide +kernel⟩,
   ⟨.host, 1, stOf (hubIn 7 [(chKey 1 1, 6), (0x4202_01, 2)]), by (repeat' apply And.intro) <;> decide +kernel, by decide +kernel⟩⟩

theorem test_hyps_CanopyMemoryStoresTheEnabledBytes :
    (∃ r : CReq, ∃ s : State, r.op = .write ∧ badRequest r = none ∧ isLogical r.addr = false ∧ (addrHub r.addr = 0 ∨ addrHub r.addr =
        hubNumber s.hub ∧ hubNumber s.hub ≠ 255) ∧ addrLocal r.addr + 8 * r.count ≤ 8 * memWords ∧ portItems s.hub r.port = [] ∧ mustWait
        s.hub [] r = false ∧ s.hub.watch.armed = [])
    ∧ (∃ r : CReq, ∃ s : State, r.op = .read ∧ r.count = 1 ∧ bits r.addr 2 0 = 0 ∧ isLogical r.addr = false ∧ (addrHub r.addr = 0 ∨
        addrHub r.addr = hubNumber s.hub ∧ hubNumber s.hub ≠ 255) ∧ addrLocal r.addr + 8 ≤ 8 * memWords ∧ portItems s.hub r.port = [] ∧
        mustWait s.hub [] r = false ∧ r.port ≠ 2 ∧ (r.port = 6 → s.hub.canopen.writes = [])) :=
  ⟨⟨{ req .write (8 * memWords - 8) with be0 := 5 }, stOf (canopyIn Hub.reset.canopy), by decide +kernel⟩,
   ⟨{ req .read (8 * memWords - 8) with port := 6 }, stOf (canopyIn { Hub.reset.canopy with mem := [(8 * memWords - 8, 9)] }),
      by decide +kernel⟩⟩

theorem test_hyps_CanopyRequestsAreResolved :
    (∃ r : CReq, ∃ s : State, badRequest r = none ∧ isLogical r.addr = true ∧ handleHome (addrHandle r.addr) ≠ hubNumber s.hub ∧ reachFind
        s.hub (addrHandle r.addr) = none ∧ portItems s.hub r.port = [] ∧ mustWait s.hub [] r = false ∧ hubNumber s.hub ≠ 0 ∧ (reachable
        s.hub false (handleHome (addrHandle r.addr)) = true ∨ reachable s.hub true (handleHome (addrHandle r.addr)) = true))
    ∧ (∃ r : CReq, ∃ s : State, r.src ≠ hubNumber s.hub ∧ r.port ≠ 7 ∧ badRequest r = none ∧ isLogical r.addr = true ∧ handleHome
        (addrHandle r.addr) = hubNumber s.hub ∧ s.hub.canopy.flows.find? (fun e => e.1 == flowKey r.src r.port r.cls) = none ∧
        s.hub.canopy.flows.length < 1024)
    ∧ (∃ r : CReq, ∃ st : Nat, ∃ s : State, r.src ≠ hubNumber s.hub ∧ r.port ≠ 7 ∧ badRequest r = none ∧ isLogical r.addr = true ∧
        handleHome (addrHandle r.addr) = hubNumber s.hub ∧ s.hub.canopy.ports = [] ∧ s.hub.canopy.badMap.contains (handleSlot (addrHandle
        r.addr)) = false ∧ s.hub.canopy.flows.find? (fun e => e.1 == flowKey r.src r.port r.cls) = none ∧ hubNumber s.hub ≠ 0 ∧ ((mapEntry
        s.hub (handleSlot (addrHandle r.addr))).state = 0 ∧ st = 2 ∨ (mapEntry s.hub (handleSlot (addrHandle r.addr))).state ≠ 0 ∧
        (mapEntry s.hub (handleSlot (addrHandle r.addr))).hgen ≠ handleGen (addrHandle r.addr) ∧ st = 2 ∨ (mapEntry s.hub (handleSlot
        (addrHandle r.addr))).state = 3 ∧ (mapEntry s.hub (handleSlot (addrHandle r.addr))).hgen = handleGen (addrHandle r.addr) ∧ st =
        0xB))
    ∧ (∃ r : CReq, ∃ s : State, r.src ≠ hubNumber s.hub ∧ r.port ≠ 7 ∧ badRequest r = none ∧ isLogical r.addr = true ∧ handleHome
        (addrHandle r.addr) = hubNumber s.hub ∧ s.hub.canopy.ports = [] ∧ s.hub.canopy.badMap.contains (handleSlot (addrHandle r.addr)) =
        false ∧ s.hub.canopy.flows.find? (fun e => e.1 == flowKey r.src r.port r.cls) = none ∧ (mapEntry s.hub (handleSlot (addrHandle
        r.addr))).state = 2 ∧ (mapEntry s.hub (handleSlot (addrHandle r.addr))).kind ≠ 5 ∧ (mapEntry s.hub (handleSlot (addrHandle
        r.addr))).hgen = handleGen (addrHandle r.addr) ∧ s.hub.canopy.held.length < 256)
    ∧ (∃ r : CReq, ∃ s : State, r.src ≠ hubNumber s.hub ∧ r.port ≠ 7 ∧ badRequest r = none ∧ isLogical r.addr = true ∧ handleHome
        (addrHandle r.addr) = hubNumber s.hub ∧ s.hub.canopy.ports = [] ∧ s.hub.canopy.badMap.contains (handleSlot (addrHandle r.addr)) =
        false ∧ s.hub.canopy.flows.find? (fun e => e.1 == flowKey r.src r.port r.cls) = none ∧ (mapEntry s.hub (handleSlot (addrHandle
        r.addr))).state = 1 ∧ (mapEntry s.hub (handleSlot (addrHandle r.addr))).kind = 5 ∧ (mapEntry s.hub (handleSlot (addrHandle
        r.addr))).hgen = handleGen (addrHandle r.addr) ∧ hubNumber s.hub ≠ 0)
    ∧ (∃ r : CReq, ∃ s : State, r.src ≠ hubNumber s.hub ∧ r.port ≠ 7 ∧ badRequest r = none ∧ isLogical r.addr = true ∧ handleHome
        (addrHandle r.addr) = hubNumber s.hub ∧ s.hub.canopy.ports = [] ∧ s.hub.canopy.badMap.contains (handleSlot (addrHandle r.addr)) =
        true ∧ hubNumber s.hub ≠ 0 ∧ s.hub.canopy.flows.find? (fun e => e.1 == flowKey r.src r.port r.cls) = none)
    ∧ (∃ r : CReq, ∃ s : State, r.src ≠ hubNumber s.hub ∧ r.home = false ∧ badRequest r = none ∧ isLogical r.addr = true ∧ hubNumber s.hub
        ≠ 0 ∧ s.hub.canopy.ports = [] ∧ entryError s.hub (addrHandle r.addr) = none ∧ holding s.hub (addrHandle r.addr) = none ∧
        s.hub.canopy.flows.find? (fun e => e.1 == flowKey r.src r.port r.cls) = none)
    ∧ (∃ r : CReq, ∃ fl : Flow, ∃ s : State, r.src ≠ hubNumber s.hub ∧ hubNumber s.hub ≠ 0 ∧ s.hub.canopy.ports = [] ∧
        s.hub.canopy.flows.find? (fun e => e.1 == flowKey r.src r.port r.cls) = some (flowKey r.src r.port r.cls, fl) ∧ 32768 ≤ (r.order %
        65536 + 65536 - fl.expected) % 65536) :=
  ⟨⟨req .write (obAddr 9 3 1 0), stOf (canopyIn Hub.reset.canopy), by decide +kernel⟩,
   ⟨{ req .read (obAddr 5 3 1 0) with src := 9, home := true }, stOf (canopyIn Hub.reset.canopy), by decide +kernel⟩,
   ⟨{ req .read (obAddr 5 3 1 0) with src := 9, home := true }, 2, stOf (canopyIn Hub.reset.canopy), by decide +kernel⟩,
   ⟨{ req .write (obAddr 5 3 1 0) with src := 9, home := true }, stOf (canopyIn
      { Hub.reset.canopy with map := [(3, { mapInit with state := 2, hgen := 1 })] }), by decide +kernel⟩,
   ⟨{ req .read (obAddr 5 3 1 0) with src := 9, home := true }, stOf (canopyIn
      { Hub.reset.canopy with map := [(3, { mapInit with state := 1, kind := 5, hgen := 1 })] }), by decide +kernel⟩,
   ⟨{ req .read (obAddr 5 3 1 0) with src := 9, home := true }, stOf (canopyIn
      { Hub.reset.canopy with map := [(3, { mapInit with state := 1, kind := 3, hgen := 1 })], badMap := [3] }), by decide +kernel⟩,
   ⟨{ req .read (obAddr 9 3 1 0) with src := 9 }, stOf (canopyIn Hub.reset.canopy), by decide +kernel⟩,
   ⟨{ req .read (obAddr 9 3 1 0) with src := 9, order := 2 }, flow0, stOf (canopyIn
      { Hub.reset.canopy with flows := [(flowKey 9 1 .mg, flow0)] }), by decide +kernel⟩⟩

theorem test_hyps_CanopyRequestsAreResolved_2 :
    ∃ r : CReq, ∃ fl : Flow, ∃ s : State, r.src ≠ hubNumber s.hub ∧ hubNumber s.hub ≠ 0 ∧ s.hub.canopy.ports = [] ∧
      s.hub.canopy.flows.find? (fun e => e.1 == flowKey r.src r.port r.cls) = some (flowKey r.src r.port r.cls, fl) ∧ 0 < (r.order % 65536
      + 65536 - fl.expected) % 65536 ∧ (r.order % 65536 + 65536 - fl.expected) % 65536 < 32768 :=
  ⟨{ req .read (obAddr 9 3 1 0) with src := 9, order := 4 }, flow0, stOf (canopyIn
    { Hub.reset.canopy with flows := [(flowKey 9 1 .mg, flow0)] }), by decide +kernel⟩

theorem test_hyps_CanopyResponsesTimersAndBarriers :
    (∃ resp : CResp, ∃ o : Outstanding, ∃ w : Word, ∃ s : State, s.hub.canopy.relays = [] ∧ s.hub.canopy.ports = [] ∧ answeredBy s.hub
        resp = [o] ∧ resp.status = 0 ∧ resp.data = [w] ∧ o.req.op = .read ∧ o.req.port ∉ [2, 6])
    ∧ (∃ resp : CResp, ∃ o : Outstanding, ∃ s : State, s.hub.canopy.relays = [] ∧ s.hub.canopy.ports = [] ∧ answeredBy s.hub resp = [o] ∧
        resp.status = 1 ∧ resp.fill = none ∧ (reachable s.hub false (handleHome (addrHandle o.req.addr)) = true ∨ reachable s.hub true
        (handleHome (addrHandle o.req.addr)) = true))
    ∧ (∃ resp : CResp, ∃ o : Outstanding, ∃ s : State, s.hub.canopy.relays = [] ∧ s.hub.canopy.ports = [] ∧ answeredBy s.hub resp = [o] ∧
        resp.status = 8 ∧ resp.fill = none)
    ∧ (∃ port : Nat, ∃ tag : Nat, ∃ o : Outstanding, ∃ s : State, s.hub.canopy.ports = [] ∧ s.hub.canopy.out.find? (fun o => o.req.port ==
        port && o.req.tag == tag && o.retry) = some o ∧ o.dest ≠ hubNumber s.hub ∧ (reachable s.hub false o.dest = true ∨ reachable s.hub
        true o.dest = true))
    ∧ (∃ port : Nat, ∃ tag : Nat, ∃ o : Outstanding, ∃ s : State, s.hub.canopy.ports = [] ∧ outFind s.hub port tag = some o ∧ o.req.op =
        .read ∧ port ∉ [2, 6])
    ∧ (∃ src : Nat, ∃ port : Nat, ∃ cls : Cls, ∃ x : Ack, ∃ s : State, hubNumber s.hub ≠ 0 ∧ s.hub.canopy.acks.find? (fun e => e.1 ==
        flowKey src port cls) = some (flowKey src port cls, x))
    ∧ (∃ src : Nat, ∃ port : Nat, ∃ cls : Cls, ∃ s : State, s.hub.canopy.acks.find? (fun e => e.1 == flowKey src port cls) = none)
    ∧ (∃ src : Nat, ∃ port : Nat, ∃ cls : Cls, ∃ fl : Flow, ∃ n : Nat, ∃ s : State, s.hub.canopy.flows.find? (fun e => e.1 == flowKey src
        port cls) = some (flowKey src port cls, fl) ∧ nextPresent fl = some n) :=
  ⟨⟨{ resp (req .read (obAddr 9 3 1 0)) 0 with fill := some { holder := 9, kind := 3, gen := 1, length := 4 } }, outst (req .read (obAddr
      9 3 1 0)) 9 false, 5, stOf (canopyIn { Hub.reset.canopy with out := [outst (req .read (obAddr 9 3 1 0)) 9 false] }),
      by decide +kernel⟩,
   ⟨resp (req .read (obAddr 9 3 1 0)) 1, outst (req .read (obAddr 9 3 1 0)) 9 false, stOf (canopyIn
      { Hub.reset.canopy with out := [outst (req .read (obAddr 9 3 1 0)) 9 false] }), by decide +kernel⟩,
   ⟨resp (req .read (obAddr 9 3 1 0)) 8, outst (req .read (obAddr 9 3 1 0)) 9 false, stOf (canopyIn
      { Hub.reset.canopy with out := [outst (req .read (obAddr 9 3 1 0)) 9 false] }), by decide +kernel⟩,
   ⟨1, 1, outst (req .read (obAddr 9 3 1 0)) 9 true, stOf (canopyIn
      { Hub.reset.canopy with out := [outst (req .read (obAddr 9 3 1 0)) 9 true] }), by decide +kernel⟩,
   ⟨1, 1, outst (req .read (obAddr 9 3 1 0)) 9 true, stOf (canopyIn
      { Hub.reset.canopy with out := [outst (req .read (obAddr 9 3 1 0)) 9 true] }), by decide +kernel⟩,
   ⟨9, 1, .ur, { count := 3, last := 4, gen := 1, fill := none, handle := none }, stOf (canopyIn
      { Hub.reset.canopy with acks := [(flowKey 9 1 .ur, { count := 3, last := 4, gen := 1, fill := none, handle := none })] }),
      by decide +kernel⟩,
   ⟨9, 1, .mg, stOf (canopyIn Hub.reset.canopy), by decide +kernel⟩,
   ⟨9, 1, .mg, { flow0 with ahead := [{ req .read (obAddr 9 3 1 0) with src := 9, order := 5 }] }, 5, stOf (canopyIn
      { Hub.reset.canopy with flows := [(flowKey 9 1 .mg, { flow0 with ahead := [{ req .read (obAddr 9 3 1 0) with src := 9, order := 5 }] })] }),
      by decide +kernel⟩⟩

theorem test_hyps_CanopyResponsesTimersAndBarriers_2 :
    (∃ port : Nat, ∃ s : State, portItems s.hub port = [] ∧ port ≠ 2 ∧ outCount s.hub port true = 0)
    ∧ (∃ port : Nat, ∃ s : State, portItems s.hub port = [] ∧ port ≠ 2 ∧ outCount s.hub port true ≠ 0)
    ∧ (∃ p : Path, ∃ s : State, WriteOpen p 0x2301 5 1 s.hub) :=
  ⟨⟨1, stOf (canopyIn { Hub.reset.canopy with out := [outst (req .read 0) 9 false] }), by decide +kernel⟩,
   ⟨1, stOf (canopyIn { Hub.reset.canopy with out := [outst (req .write (obAddr 9 3 1 0)) 9 true] }), by decide +kernel⟩,
   
      ⟨.host, stOf (canopyIn { Hub.reset.canopy with reach := [{ handle := 9, holder := 9, kind := 3, length := 4, gen := 1 }] }), by (repeat' apply And.intro) <;> decide +kernel⟩⟩

theorem test_hyps_ObjectsAreDefinedAndPlaced :
    (∃ p : Path, ∃ slot : Nat, ∃ field : Nat, ∃ value : Nat, ∃ s : State, WriteOpen p (0x3800 + slot / 16) (16 * (slot % 16) + field)
        value s.hub ∧ slot < 4096 ∧ 1 ≤ field ∧ field ≤ 15 ∧ value < 2 ^ 48 ∧ entryBad (0x3800 + slot / 16) (16 * (slot % 16) + field)
        value = false ∧ (field = 12 → bits value 17 16 ≤ 2) ∧ memberBad (defKind s.hub slot) field value = false)
    ∧ (∃ s : State, (mode s.hub ≠ 2 ∨ gate0 s.hub = false ∨ gate3 s.hub = false))
    ∧ (∃ s : State, mode s.hub = 2 ∧ gate0 s.hub = true ∧ gate3 s.hub = true ∧ s.hub.forester.placed = false ∧ s.hub.canopy.map = [] ∧
        s.hub.canopy.badMap = [] ∧ hubNumber s.hub ≠ 0 ∧ othersPresent s.hub ≠ [])
    ∧ (∃ s : State, mode s.hub = 2 ∧ gate0 s.hub = true ∧ gate3 s.hub = true ∧ s.hub.forester.placed = true)
    ∧ (∃ s : State, mode s.hub = 2 ∧ gate0 s.hub = true ∧ gate3 s.hub = true)
    ∧ (∃ r : Residence, ∃ x : Nat, ∃ s : State, residence s.hub x = some r ∧ r.state = 0 ∧ hubNumber s.hub ≠ 0 ∧
        s.hub.canopy.badRes.contains x = false)
    ∧ (∃ x : Nat, ∃ s : State, handleHome x = hubNumber s.hub ∧ handleSlot x ∈ s.hub.forester.census ∧ slotHandle s.hub (handleSlot x) = x
        ∧ (mapEntry s.hub (handleSlot x)).state = 3)
    ∧ (∃ x : Nat, ∃ s : State, handleHome x = hubNumber s.hub ∧ handleSlot x ∈ s.hub.forester.census ∧ slotHandle s.hub (handleSlot x) = x
        ∧ (mapEntry s.hub (handleSlot x)).state ≠ 3) :=
  ⟨⟨.host, 4095, 12, 0, stOf (hubIn 2 []), by unfold WriteOpen; decide +kernel⟩,
   ⟨stOf (foreHub 3 (homeMap 1 5) Hub.reset.forester), by decide +kernel⟩,
   ⟨stOf (foreHub 2 Hub.reset.canopy Hub.reset.forester), by decide +kernel⟩,
   ⟨stOf (foreHub 2 Hub.reset.canopy { Hub.reset.forester with placed := true }), by decide +kernel⟩,
   ⟨stOf (foreHub 2 (homeMap 1 5) { Hub.reset.forester with placed := true }), by decide +kernel⟩,
   ⟨resid (handleOf 9 1 1) 0, handleOf 9 1 1, stOf (foreHub 3 { Hub.reset.canopy with residences := [resid (handleOf 9 1 1) 0] }
      Hub.reset.forester), by decide +kernel⟩,
   ⟨home3, stOf (foreHub 2 (homeMap 3 5) { Hub.reset.forester with placed := true, census := [3] }), by decide +kernel⟩,
   ⟨home3, stOf (foreHub 2 (homeMap 1 5) { Hub.reset.forester with placed := true, census := [3] }), by decide +kernel⟩⟩

theorem test_hyps_ObjectsAreDefinedAndPlaced_2 :
    (∃ p : Path, ∃ s : State, WriteOpen p 0x2311 4 1 s.hub ∧ s.hub.forester.request = none ∧ rd s.hub 0x2311_01 = 0)
    ∧ (∃ p : Path, ∃ s : State, WriteOpen p 0x2311 4 1 s.hub ∧ s.hub.forester.request = none ∧ (rd s.hub 0x2311_01) ≠ 0 ∧ handleHome (rd
        s.hub 0x2311_01) = hubNumber s.hub ∧ hubNumber s.hub ≠ 0 ∧ slotHandle s.hub (handleSlot (rd s.hub 0x2311_01)) = (rd s.hub
        0x2311_01) ∧ (mapEntry s.hub (handleSlot (rd s.hub 0x2311_01))).state = 1 ∧ s.hub.canopy.badMap.contains (handleSlot (rd s.hub
        0x2311_01)) = false ∧ floating s.hub (handleSlot (rd s.hub 0x2311_01)) = true ∧ moveBarred s.hub (rd s.hub 0x2311_01) 5 (copyWords
        s.hub (mapEntry s.hub (handleSlot (rd s.hub 0x2311_01))).kind (mapEntry s.hub (handleSlot (rd s.hub 0x2311_01))).holder (mapEntry
        s.hub (handleSlot (rd s.hub 0x2311_01))).base (mapEntry s.hub (handleSlot (rd s.hub 0x2311_01))).length) = 0 ∧ ((mapEntry s.hub
        (handleSlot (rd s.hub 0x2311_01))).holder = hubNumber s.hub → takesPart s.hub < 4) ∧ rd s.hub 0x2311_02 ∈ othersPresent s.hub ∧ rd
        s.hub 0x2311_02 ≠ (mapEntry s.hub (handleSlot (rd s.hub 0x2311_01))).holder) :=
  ⟨⟨.host, stOf (foreHub 3 (homeMap 1 5) Hub.reset.forester), by (repeat' apply And.intro) <;> decide +kernel, by decide +kernel⟩,
   ⟨.host, stOf (wrs (foreHub 3 (homeMap 1 5) Hub.reset.forester) [(0x2311_01, home3), (0x2311_02, 9)]),
      by unfold WriteOpen; decide +kernel⟩⟩

theorem test_hyps_MovesRunAtTheHome :
    (∃ src : Nat, ∃ tag : Nat, ∃ m : Move, ∃ s : State, ∃ status : Nat, findMove s.hub tag = some m ∧ m.phase = 1 ∧ m.target = src ∧
        m.source ≠ 0 ∧ m.trigger ≠ 1 ∧ 2 ≤ status ∧ status ≤ 4 ∧ placing s.hub = false ∧ s.hub.forester.waiting = [])
    ∧ (∃ src : Nat, ∃ tag : Nat, ∃ m : Move, ∃ s : State, findMove s.hub tag = some m ∧ m.phase = 1 ∧ m.target = src ∧ m.source ≠ 0 ∧
        m.trigger ≠ 1 ∧ m.source ≠ hubNumber s.hub ∧ hubNumber s.hub ≠ 0)
    ∧ (∃ src : Nat, ∃ tag : Nat, ∃ m : Move, ∃ s : State, ∃ status : Nat, findMove s.hub tag = some m ∧ m.phase = 2 ∧ m.source = src ∧
        status ≠ 5)
    ∧ (∃ src : Nat, ∃ tag : Nat, ∃ m : Move, ∃ s : State, findMove s.hub tag = some m ∧ m.phase = 2 ∧ m.source = src ∧ m.source ≠ 0 ∧ (∃ n
        ∈ [m.source, m.target], n ≠ 0 ∧ n ≠ hubNumber s.hub) ∧ s.hub.canopy.badMap.contains m.slot = false)
    ∧ (∃ src : Nat, ∃ tag : Nat, ∃ received : Nat, ∃ m : Move, ∃ s : State, findMove s.hub tag = some m ∧ (m.phase = 2 ∨ m.phase = 3) ∧
        m.target = src ∧ src ≠ hubNumber s.hub ∧ src ≠ 0 ∧ m.trigger ≠ 1 ∧ hubNumber s.hub ≠ 0 ∧ s.hub.canopy.badMap.contains m.slot =
        false ∧ stateWords (mapEntry s.hub m.slot).kind (mapEntry s.hub m.slot).length ≤ received ∧ commitBarred s.hub m.slot = true)
    ∧ (∃ src : Nat, ∃ tag : Nat, ∃ received : Nat, ∃ m : Move, ∃ s : State, findMove s.hub tag = some m ∧ (m.phase = 2 ∨ m.phase = 3) ∧
        m.target = src ∧ src ≠ hubNumber s.hub ∧ src ≠ 0 ∧ m.trigger ≠ 1 ∧ hubNumber s.hub ≠ 0 ∧ s.hub.canopy.badMap.contains m.slot =
        false ∧ stateWords (mapEntry s.hub m.slot).kind (mapEntry s.hub m.slot).length ≤ received ∧ commitBarred s.hub m.slot = false ∧
        (m.switch = 0 ∨ nowNs s.hub + s.hub.cyc.period < m.switch))
    ∧ (∃ src : Nat, ∃ tag : Nat, ∃ received : Nat, ∃ m : Move, ∃ s : State, findMove s.hub tag = some m ∧ (m.phase = 2 ∨ m.phase = 3) ∧
        m.target = src ∧ src ≠ hubNumber s.hub ∧ src ≠ 0 ∧ m.trigger ≠ 1 ∧ hubNumber s.hub ≠ 0 ∧ s.hub.canopy.badMap.contains m.slot =
        false ∧ stateWords (mapEntry s.hub m.slot).kind (mapEntry s.hub m.slot).length ≤ received ∧ commitBarred s.hub m.slot = false ∧
        m.source ≠ 0 ∧ m.switch ≠ 0 ∧ m.switch ≤ nowNs s.hub + s.hub.cyc.period)
    ∧ (∃ src : Nat, ∃ tag : Nat, ∃ m : Move, ∃ s : State, findMove s.hub tag = some m ∧ (m.phase = 4 ∨ m.phase = 5) ∧ (∀ n ∈ m.acks, n =
        src) ∧ placing s.hub = false ∧ s.hub.forester.waiting = []) :=
  ⟨⟨9, 7, mv 1 9 5, stOf (foreHub 3 (homeMap 1 5) (moving (mv 1 9 5))), 2, by decide +kernel⟩,
   ⟨9, 7, mv 1 9 8, stOf (foreHub 3 (homeMap 1 8) (moving (mv 1 9 8))), by decide +kernel⟩,
   ⟨8, 7, mv 2 9 8, stOf (foreHub 3 (homeMap 2 8) (moving (mv 2 9 8))), 0, by decide +kernel⟩,
   ⟨8, 7, mv 2 9 8, stOf (foreHub 3 (homeMap 2 8) (moving (mv 2 9 8))), by decide +kernel⟩,
   ⟨9, 7, 4, mv 3 9 8, stOf (foreHub 3 { homeMap 2 8 with committed := [(3, 0)] } (moving (mv 3 9 8))), by decide +kernel⟩,
   ⟨9, 7, 4, mv 3 9 8, stOf (foreHub 3 (homeMap 2 8) (moving (mv 3 9 8))), by decide +kernel⟩,
   ⟨9, 7, 4, { mv 3 9 8 with switch := 1 }, stOf (late (foreHub 3 (homeMap 2 8) (moving { mv 3 9 8 with switch := 1 }))),
      by decide +kernel⟩,
   ⟨9, 7, { mv 4 9 8 with acks := [9] }, stOf (foreHub 3 (homeMap 1 8) (moving { mv 4 9 8 with acks := [9] })), by decide +kernel⟩⟩

theorem test_hyps_MovesRunAtTheHome_2 :
    (∃ tag : Nat, ∃ m : Move, ∃ s : State, findMove s.hub tag = some m ∧ hubNumber s.hub ≠ 0 ∧ m.phase = 1)
    ∧ (∃ tag : Nat, ∃ m : Move, ∃ s : State, findMove s.hub tag = some m ∧ hubNumber s.hub ≠ 0 ∧ m.phase = 2)
    ∧ (∃ slot : Nat, ∃ m : Move, ∃ s : State, s.hub.canopy.ports = [] ∧ s.hub.forester.moves.find? (fun m => m.slot == slot) = some m ∧
        s.hub.canopy.badMap.contains slot = false ∧ m.phase ≤ 3 ∧ m.trigger ≠ 1 ∧ m.source ≠ 0 ∧ (∃ n ∈ [m.source, m.target], n ≠ 0 ∧ n ≠
        hubNumber s.hub))
    ∧ (∃ slot : Nat, ∃ m : Move, ∃ s : State, s.hub.canopy.ports = [] ∧ s.hub.forester.moves.find? (fun m => m.slot == slot) = some m ∧
        s.hub.canopy.badMap.contains slot = false ∧ m.phase = 6 ∧ m.source = 0)
    ∧ (∃ slot : Nat, ∃ m : Move, ∃ s : State, s.hub.canopy.ports = [] ∧ s.hub.forester.moves.find? (fun m => m.slot == slot) = some m ∧
        s.hub.canopy.badMap.contains slot = false ∧ (m.phase = 4 ∨ m.phase = 5) ∧ placing s.hub = false ∧ s.hub.forester.waiting = [])
    ∧ (∃ src : Nat, ∃ handle : Nat, ∃ s : State, handleHome handle = hubNumber s.hub ∧ (mapEntry s.hub (handleSlot handle)).holder = src)
    ∧ (∃ handle : Nat, ∃ s : State, handleHome handle ≠ hubNumber s.hub)
    ∧ (∃ s : State, s.hub.canopy.held = [] ∧ s.hub.canopy.ports = [] ∧ hubNumber s.hub ≠ 0) :=
  ⟨⟨7, mv 1 9 8, stOf (foreHub 3 (homeMap 1 8) (moving (mv 1 9 8))), by decide +kernel⟩,
   ⟨7, mv 2 9 8, stOf (foreHub 3 (homeMap 2 8) (moving (mv 2 9 8))), by decide +kernel⟩,
   ⟨3, mv 1 9 8, stOf (foreHub 3 (homeMap 1 8) (moving (mv 1 9 8))), by decide +kernel⟩,
   ⟨3, mv 6 9 0, stOf (foreHub 3 (homeMap 1 8) (moving (mv 6 9 0))), by decide +kernel⟩,
   ⟨3, mv 4 9 8, stOf (foreHub 3 (homeMap 1 8) (moving (mv 4 9 8))), by decide +kernel⟩,
   ⟨9, home3, stOf (foreHub 3 (homeMap 1 9) Hub.reset.forester), by decide +kernel⟩,
   ⟨handleOf 9 1 1, stOf (foreHub 3 (homeMap 1 9) Hub.reset.forester), by decide +kernel⟩,
   ⟨stOf (foreHub 3 (homeMap 1 5) { Hub.reset.forester with counts := [(handleOf 9 1 1, [(8, [0, 1, 2, 3])])] }), by decide +kernel⟩⟩

theorem test_hyps_MovesRunAtTheHome_3 :
    (∃ source : Fin 64, ∃ m : Move, ∃ s : State, s.hub.forester.moves.find? (fun m => m.phase == 7 && m.sourceE == source.val) = some m ∧
        m.engine ≠ source.val ∧ handleHome m.handle = hubNumber s.hub ∧ m.slot = handleSlot m.handle ∧ commitBarred s.hub m.slot = true)
    ∧ (∃ source : Fin 64, ∃ m : Move, ∃ s : State, s.hub.forester.moves.find? (fun m => m.phase == 7 && m.sourceE == source.val) = some m
        ∧ m.engine ≠ source.val ∧ handleHome m.handle = hubNumber s.hub ∧ m.slot = handleSlot m.handle ∧ commitBarred s.hub m.slot =
        false) :=
  ⟨⟨2, { mv 7 5 5 with sourceE := 2, engine := 3 }, stOf (foreHub 3 { homeMap 1 5 with committed := [(3, 0)] } (moving
      { mv 7 5 5 with sourceE := 2, engine := 3 })), by decide +kernel⟩,
   ⟨2, { mv 7 5 5 with sourceE := 2, engine := 3 }, stOf (foreHub 3 (homeMap 1 5) (moving { mv 7 5 5 with sourceE := 2, engine := 3 })),
      by decide +kernel⟩⟩

theorem test_hyps_HoldersFollowTheHome :
    (∃ handle : Nat, ∃ kind : Nat, ∃ place : Nat, ∃ d : ObjDef, ∃ s : State, ∃ c : Nat, s.hub.forester.incoming = [] ∧ takesPart s.hub < 4
        ∧ hubNumber s.hub ≠ 0 ∧ hostObject handle kind d place 0xFF s.hub = .no c)
    ∧ (∃ handle : Nat, ∃ kind : Nat, ∃ place : Nat, ∃ d : ObjDef, ∃ s : State, ∃ b : Nat, ∃ a : Hub, s.hub.forester.incoming = [] ∧
        takesPart s.hub < 4 ∧ hubNumber s.hub ≠ 0 ∧ hostObject handle kind d place 0xFF s.hub = .yes b a ∧ portFrames a 6 = portFrames
        s.hub 6)
    ∧ (∃ handle : Nat, ∃ target, ∃ r : Residence, ∃ ws : List Word, ∃ s : State, residence s.hub handle = some r ∧ r.kind = 3 ∧ target ≠ 0
        ∧ s.hub.forester.outgoing = [] ∧ s.hub.canopy.badRes = [] ∧ hubNumber s.hub ≠ 0 ∧ objectState s.hub r.kind r.base r.length = some
        ws)
    ∧ (∃ src : Nat, ∃ tag : Nat, ∃ handle : Nat, ∃ i : Incoming, ∃ ws : List Word, ∃ s : State, s.hub.forester.incoming = [i] ∧ i.tag =
        tag ∧ i.entry.handle = handle ∧ i.entry.kind = 3 ∧ i.words = [] ∧ src ≠ 0 ∧ hubNumber s.hub ≠ 0 ∧ i.home ≠ hubNumber s.hub ∧
        residence s.hub handle = none ∧ s.hub.canopy.badRes = [] ∧ ws.length = i.entry.length ∧ ws ≠ [])
    ∧ (∃ src : Nat, ∃ tag : Nat, ∃ handle : Nat, ∃ i : Incoming, ∃ ws : List Word, ∃ s : State, s.hub.forester.incoming = [i] ∧ i.tag =
        tag ∧ i.entry.handle = handle ∧ i.entry.kind = 3 ∧ i.words = [] ∧ src ≠ 0 ∧ hubNumber s.hub ≠ 0 ∧ i.home ≠ hubNumber s.hub ∧
        residence s.hub handle = none ∧ s.hub.canopy.badRes = [] ∧ ws.length < i.entry.length)
    ∧ (∃ handle : Nat, ∃ r : Residence, ∃ s : State, residence s.hub handle = some r ∧ s.hub.canopy.badRes = [] ∧ hubNumber s.hub ≠ 0 ∧
        s.hub.forester.outgoing = [])
    ∧ (∃ src : Nat, ∃ tag : Nat, ∃ handle : Nat, ∃ r : Residence, ∃ s : State, ∃ o : Outgoing, residence s.hub handle = some r ∧
        s.hub.canopy.badRes = [] ∧ hubNumber s.hub ≠ 0 ∧ s.hub.forester.outgoing = [o] ∧ o.home = src ∧ o.tag = tag)
    ∧ (∃ handle : Nat, ∃ s : State, 256 ≤ (s.hub.ring.groups.filter (· != handle)).length) :=
  ⟨⟨handleOf 9 1 1, 3, 5, { dfn with sizeA := 2 ^ 30 }, stOf (hubIn 3 []), 3, by decide +kernel⟩,
   ⟨handleOf 9 1 1, 0, 5, dfn, stOf (hubIn 3 []), (allocYes (hostObject (handleOf 9 1 1) 0 dfn 5 0xFF (hubIn 3 []))).1, (allocYes
      (hostObject (handleOf 9 1 1) 0 dfn 5 0xFF (hubIn 3 []))).2, ⟨by decide +kernel, by decide +kernel, by decide +kernel, alloc_yes _ _
      _ _ _ (by decide +kernel), by decide +kernel⟩⟩,
   ⟨handleOf 9 1 1, 8, resid (handleOf 9 1 1) 0, [0, 0], stOf
      { hubIn 3 [] with canopy := { Hub.reset.canopy with residences := [resid (handleOf 9 1 1) 0] } }, by decide +kernel⟩,
   ⟨8, 7, handleOf 9 1 1, { home := 9, tag := 7, entry := resid (handleOf 9 1 1) 2, words := [] }, [4, 5], stOf
      { hubIn 3 [] with forester := { Hub.reset.forester with incoming := [{ home := 9, tag := 7, entry := resid (handleOf 9 1 1) 2, words := [] }] } },
      by decide +kernel⟩,
   ⟨8, 7, handleOf 9 1 1, { home := 9, tag := 7, entry := resid (handleOf 9 1 1) 2, words := [] }, [5], stOf
      { hubIn 3 [] with forester := { Hub.reset.forester with incoming := [{ home := 9, tag := 7, entry := resid (handleOf 9 1 1) 2, words := [] }] } },
      by decide +kernel⟩,
   ⟨handleOf 9 1 1, resid (handleOf 9 1 1) 2, stOf
      { hubIn 3 [] with canopy := { Hub.reset.canopy with residences := [resid (handleOf 9 1 1) 2] } }, by decide +kernel⟩,
   ⟨9, 7, handleOf 9 1 1, resid (handleOf 9 1 1) 1, stOf
      { hubIn 3 [] with canopy := { Hub.reset.canopy with residences := [resid (handleOf 9 1 1) 1] }, forester := { Hub.reset.forester with outgoing := [outg] } },
      outg, by decide +kernel⟩,
   ⟨handleOf 8 1 1, stOf groupsFull, by decide +kernel⟩⟩

theorem test_hyps_HoldersFollowTheHome_2 :
    ∃ handle : Nat, ∃ install, ∃ s : State, hubNumber s.hub ≠ 0 ∧ (install = false ∨ (s.hub.ring.groups.filter (· != handle)).length <
      256) :=
  ⟨handleOf 8 1 1, true, stOf (hubIn 3 []), by decide +kernel⟩

theorem test_hyps_CyclesRunOnTheirGridAndOutputsFollow :
    (∃ s : State, (s.hub.cyc.running = false ∨ (s.hub.cyc.since ≠ 0 ∧ s.hub.cyc.complete = false) ∨ (s.hub.cyc.since ≠ 0 ∧ nowNs s.hub <
        s.hub.cyc.start + s.hub.cyc.length)))
    ∧ (∃ s : State, s.hub.cyc.running = true ∧ s.hub.cyc.since ≠ 0 ∧ s.hub.cyc.complete = true ∧ s.hub.cyc.start + s.hub.cyc.length ≤
        nowNs s.hub)
    ∧ (∃ s : State, s.hub.cyc.running = true ∧ s.hub.cyc.complete = false ∧ (s.hub.cyc.applied = true ∨ serving s.hub = false) ∧ nowNs
        s.hub < s.hub.cyc.start + s.hub.cyc.length)
    ∧ (∃ s : State, s.hub.cyc.running = true ∧ s.hub.cyc.complete = false ∧ (s.hub.cyc.applied = true ∨ serving s.hub = false) ∧
        s.hub.cyc.since ≠ 0 ∧ s.hub.cyc.start + s.hub.cyc.length ≤ nowNs s.hub)
    ∧ (∃ s : State, s.hub.cyc.running = true ∧ s.hub.cyc.complete = false ∧ (s.hub.cyc.applied = true ∨ serving s.hub = false) ∧
        s.hub.cyc.since = 0 ∧ outputsSafe s.hub = false ∧ s.hub.cyc.start + s.hub.cyc.length ≤ nowNs s.hub)
    ∧ (∃ tag : Nat, ∃ head : ContributionHead, ∃ s : State, s.hub.cyc.running = true ∧ s.hub.cyc.since ≠ 0 ∧ s.hub.cyc.complete = true ∧
        s.hub.cyc.start + s.hub.cyc.length ≤ nowNs s.hub ∧ tag % 256 = (s.hub.cyc.number + 1) % 256 ∧ s.hub.cyc.start + s.hub.cyc.length ≤
        stampNs s.hub (4 + portNum head.port) - head.age ∧ (∀ m ∈ s.hub.forester.moves, m.phase = 2 ∨ m.phase = 3 → switchLate s.hub m =
        false))
    ∧ (∃ tag : Nat, ∃ head : ContributionHead, ∃ s : State, s.hub.cyc.running = true ∧ s.hub.cyc.since ≠ 0 ∧ (s.hub.cyc.complete = false ∨
        nowNs s.hub < s.hub.cyc.start + s.hub.cyc.length) ∧ s.hub.cyc.start ≤ stampNs s.hub (4 + portNum head.port) - head.age ∧ tag % 256
        = s.hub.cyc.number % 256)
    ∧ (∃ tag : Nat, ∃ head : ContributionHead, ∃ s : State, s.hub.cyc.running = true ∧ s.hub.cyc.since ≠ 0 ∧ (s.hub.cyc.complete = false ∨
        nowNs s.hub < s.hub.cyc.start + s.hub.cyc.length) ∧ s.hub.cyc.start ≤ stampNs s.hub (4 + portNum head.port) - head.age ∧ tag % 256
        = (s.hub.cyc.number + 1) % 256) :=
  ⟨⟨stOf (hubIn 3 []), by decide +kernel⟩,
   ⟨stOf (cyc8 { runCyc with complete := true } []), by decide +kernel⟩,
   ⟨stOf (hubIn 2 [] |> fun h => { h with cyc := { runCyc with start := 2 ^ 60 } }), by decide +kernel⟩,
   ⟨stOf (cyc8 { runCyc with applied := true } []), by decide +kernel⟩,
   ⟨stOf (cyc8 { runCyc with applied := true, since := 0 } []), by decide +kernel⟩,
   ⟨8, headOf 0, stOf (cyc8 { runCyc with complete := true } []), by decide +kernel⟩,
   ⟨7, headOf 0, stOf (cyc8 { runCyc with complete := false } []), by decide +kernel⟩,
   ⟨8, headOf 0, stOf (cyc8 { runCyc with complete := false } []), by decide +kernel⟩⟩

theorem test_hyps_CyclesRunOnTheirGridAndOutputsFollow_2 :
    (∃ tag : Nat, ∃ head : ContributionHead, ∃ s : State, s.hub.cyc.running = true ∧ s.hub.cyc.since ≠ 0 ∧ (s.hub.cyc.complete = false ∨
        nowNs s.hub < s.hub.cyc.start + s.hub.cyc.length) ∧ s.hub.cyc.start ≤ stampNs s.hub (4 + portNum head.port) - head.age ∧ tag % 256
        ≠ s.hub.cyc.number % 256 ∧ tag % 256 ≠ (s.hub.cyc.number + 1) % 256)
    ∧ (∃ tag : Nat, ∃ head : ContributionHead, ∃ s : State, s.hub.cyc.running = true ∧ s.hub.cyc.since ≠ 0 ∧ (s.hub.cyc.complete = false ∨
        nowNs s.hub < s.hub.cyc.start + s.hub.cyc.length) ∧ (stampNs s.hub (4 + portNum head.port) - head.age) < s.hub.cyc.start ∧
        s.hub.cyc.prior ≤ (stampNs s.hub (4 + portNum head.port) - head.age) ∧ tag % 256 = s.hub.cyc.closed.1 % 256)
    ∧ (∃ tag : Nat, ∃ head : ContributionHead, ∃ s : State, s.hub.cyc.running = true ∧ s.hub.cyc.since ≠ 0 ∧ (s.hub.cyc.complete = false ∨
        nowNs s.hub < s.hub.cyc.start + s.hub.cyc.length) ∧ (stampNs s.hub (4 + portNum head.port) - head.age) < s.hub.cyc.start ∧
        s.hub.cyc.prior ≤ (stampNs s.hub (4 + portNum head.port) - head.age) ∧ tag % 256 ≠ s.hub.cyc.closed.1 % 256 ∧ tag % 256 ≠
        (s.hub.cyc.closed.1 + 1) % 256)
    ∧ (∃ head : ContributionHead, ∃ s : State, s.hub.cyc.running = true ∧ s.hub.cyc.since ≠ 0 ∧ (s.hub.cyc.complete = false ∨ nowNs s.hub
        < s.hub.cyc.start + s.hub.cyc.length) ∧ (stampNs s.hub (4 + portNum head.port) - head.age) < s.hub.cyc.start ∧ (stampNs s.hub (4 +
        portNum head.port) - head.age) < s.hub.cyc.prior)
    ∧ (∃ s : State, s.hub.cyc.running = false)
    ∧ (∃ s : State, (s.hub.cyc.running = false ∨ s.hub.cyc.applied = true ∨ serving s.hub = false ∨ nowNs s.hub < outputTime s.hub))
    ∧ (∃ s : State, s.hub.cyc.running = true ∧ s.hub.cyc.applied = false ∧ serving s.hub = true ∧ outputTime s.hub ≤ nowNs s.hub ∧
        (s.hub.cyc.since < 2 ∨ outputsSafe s.hub = true))
    ∧ (∃ s : State, s.hub.cyc.running = true ∧ s.hub.cyc.applied = false ∧ serving s.hub = true ∧ outputTime s.hub ≤ nowNs s.hub ∧ 2 ≤
        s.hub.cyc.since ∧ outputsSafe s.hub = false ∧ s.hub.watch.armed = []) :=
  ⟨⟨9, headOf 0, stOf (cyc8 { runCyc with complete := false } []), by decide +kernel⟩,
   ⟨6, headOf (2 ^ 40 - 6500000), stOf (cyc8 { runCyc with prior := 6000000, closed := (6, 1, 0) } []), by decide +kernel⟩,
   ⟨9, headOf (2 ^ 40 - 6500000), stOf (cyc8 { runCyc with prior := 6000000, closed := (6, 1, 0) } []), by decide +kernel⟩,
   ⟨headOf (2 ^ 40 - 5999999), stOf (cyc8 { runCyc with prior := 6000000, closed := (6, 1, 0) } []), by decide +kernel⟩,
   ⟨stOf (hubIn 3 []), by decide +kernel⟩,
   ⟨stOf (hubIn 3 []), by decide +kernel⟩,
   ⟨stOf (cyc8 { runCyc with since := 1 } []), by decide +kernel⟩,
   ⟨stOf (cyc8 runCyc [(0x2410_01, handleOf 9 1 1), (0x2410_02, 2 ^ 44 + 4 * 2 ^ 36 + 77), (0x2410_03, 55), (engKey 2 0x12, 77)]),
      by decide +kernel⟩⟩

theorem test_hyps_CyclesRunOnTheirGridAndOutputsFollow_3 :
    (∃ handle : Nat, ∃ r : Route, ∃ s : State, (wantedSignals s.hub).contains handle = true ∧ handleHome handle ≠ hubNumber s.hub ∧
        s.hub.cyc.routes.find? (fun e => e.1 == handle) = some (handle, r))
    ∧ (∃ handle : Nat, ∃ s : State, (wantedSignals s.hub).contains handle = false)
    ∧ (∃ s : State, s.hub.cyc.running = true ∧ serving s.hub = true ∧ othersLately s.hub = false)
    ∧ (∃ s : State, s.hub.cyc.running = true ∧ serving s.hub = true ∧ bench s.hub = false ∧ othersLately s.hub = true ∧ rd s.hub 0x2401_05
        ≤ s.hub.cyc.missed)
    ∧ (∃ s : State, s.hub.cyc.running = true ∧ serving s.hub = true ∧ phaseOk s.hub (phaseError s.hub) = false)
    ∧ (∃ s : State, s.hub.cyc.running = true ∧ serving s.hub = true ∧ phaseOk s.hub (phaseError s.hub) = true) :=
  ⟨⟨handleOf 9 1 1, { holder := 9, slot := 1, next := none, old := none }, stOf (cyc8
      { runCyc with routes := [(handleOf 9 1 1, { holder := 9, slot := 1, next := none, old := none })] } [(0x2410_01, handleOf 9 1 1)]),
      by decide +kernel⟩,
   ⟨handleOf 9 1 1, stOf (cyc8 runCyc []), by decide +kernel⟩,
   ⟨stOf (let h := cyc8 runCyc []; { h with ring := { h.ring with distA := [], distB := [], presentAt := none } }), by decide +kernel⟩,
   ⟨stOf (cyc8 { runCyc with missed := 255 } []), by decide +kernel⟩,
   ⟨stOf (cyc8 { runCyc with start := 2 ^ 35, number := 7 } []), by decide +kernel⟩,
   ⟨stOf (cyc8 { runCyc with start := 7000000 } []), by decide +kernel⟩⟩

theorem test_hyps_TheBestCandidateIsMaster :
    (∃ h : Hub, ∃ c : Nat × Nat × Bool, bench h = false ∧ c ∈ candidates h ∧ c.2.2 = true)
    ∧ (∃ h : Hub, ∃ c : Nat × Nat × Bool, bench h = false ∧ (∀ x ∈ candidates h, x.2.2 = false) ∧ silent h h.spire.lockedAt = true ∧ c ∈
        candidates h)
    ∧ (∃ h : Hub, bench h = false ∧ (∀ x ∈ candidates h, x.2.2 = false) ∧ candidates h ≠ [] ∧ silent h h.spire.lockedAt = false)
    ∧ (∃ h : Hub, candidates h = [])
    ∧ (∃ h : Hub, masterHere h = true ∧ h.spire.cls ≠ 1 ∧ gate1 h = true ∧ bench h = false ∧ 1 ≤ spireState h ∧ spireState h ≤ 3)
    ∧ (∃ src : Nat, ∃ s : State, src ≠ 0 ∧ src ≠ hubNumber s.hub)
    ∧ (∃ g : Frame, ∃ a : Hub, ∃ s : State, isCandidate s.hub = true ∧ sendsOwn s.hub = true ∧ sealing (newFrame s.hub 6 .ur 255 256 0
        [BitVec.ofNat 48 (hubNumber s.hub * 2 ^ 40 + s.hub.spire.cls * 2 ^ 32 + b2n (declaresLocked s.hub) * 2 ^ 31)])
        { s.hub with seqs := tabSet s.hub.seqs (streamKey (hubNumber s.hub) 255 .ur) (((newFrame s.hub 6 .ur 255 256 0 [BitVec.ofNat 48 (hubNumber s.hub * 2 ^ 40 + s.hub.spire.cls * 2 ^ 32 + b2n (declaresLocked s.hub) * 2 ^ 31)]).seq + 1) % 65536) }
        = (some g, a) ∧ s.hub.watch.armed = [] ∧ crossingShut s.hub 0x14 0x12 = false ∧ (crossing s.hub 0x14 0x12).entries = [] ∧
        a.watch.armed = [] ∧ (∀ e ∈ [(0x12, 0x14), (0x14, 6)], crossingShut a e.1 e.2 = false ∧ (crossing a e.1 e.2).entries = []))
    ∧ (∃ s : State, isCandidate s.hub = false) :=
  ⟨⟨spireHub 3 4 { sp0 with cands := [(8, (1, true, 2 ^ 30)), (9, (0, true, 2 ^ 30)), (10, (0, false, 2 ^ 30))] } [], (8, 1, true),
      by decide +kernel⟩,
   ⟨spireHub 3 1 { sp0 with cands := [(8, (1, false, 2 ^ 30))] } [], (8, 1, false), by decide +kernel⟩,
   ⟨spireHub 3 1 { sp0 with cands := [(8, (1, false, 2 ^ 30))], lockedAt := 2 ^ 30 } [], by decide +kernel⟩,
   ⟨spireHub 3 4 sp0 [], by decide +kernel⟩,
   ⟨linkIn 0 (spireHub 3 1 { sp0 with rtSeen := true, loops := [(0, 77)] } [(0x2000_0B, 2), (0x4500_02, 5)]), by decide +kernel⟩,
   ⟨9, stOf (spireHub 3 4 sp0 []), by decide +kernel⟩,
   ⟨annS.1.get (by decide +kernel), annS.2, stOf annH, ⟨by decide +kernel, by decide +kernel, Prod.ext (Option.some_get _).symm rfl,
      by decide +kernel, by decide +kernel, by decide +kernel, by decide +kernel, by decide +kernel⟩⟩,
   ⟨stOf (spireHub 3 4 sp0 []), by decide +kernel⟩⟩

theorem test_hyps_TheBestCandidateIsMaster_2 :
    (∃ ring : RingId, ∃ s : State, rd s.hub 0x4500_02 = hubNumber s.hub ∧ hubNumber s.hub ≠ 0 ∧ peerOf s.hub (ringNum ring) ≠ 0 ∧ sendsOwn
        s.hub = true)
    ∧ (∃ s : State, rd s.hub 0x4500_02 ≠ hubNumber s.hub) :=
  ⟨⟨.a, stOf (spireHub 3 4 sp0 [(0x4500_02, 5)]), by decide +kernel⟩,
   ⟨stOf (spireHub 3 4 sp0 [(0x4500_02, 9)]), by decide +kernel⟩⟩

theorem test_hyps_SpireMeasuresAndFollowsTheMaster :
    (∃ port : Port, ∃ s : State, rxUp s.hub (portNum port) = true ∧ (meter s.hub (portNum port)).peer = peerOf s.hub (portNum port) ∧
        peerOf s.hub (portNum port) ≠ 0 ∧ sendsOwn s.hub = true)
    ∧ (∃ src : Nat, ∃ s : State, sendsOwn s.hub = true ∧ src ≠ 0)
    ∧ (∃ port : Port, ∃ seq : Nat, ∃ t1 : Nat, ∃ t2 : Nat, ∃ t3 : Nat, ∃ t4 : Nat, ∃ s : State, (meter s.hub (portNum port)).opened.find?
        (fun x => x.1 == seq % 256) = some (seq % 256, t1) ∧ (meter s.hub (portNum port)).peer = peerOf s.hub (portNum port) ∧ (meter
        s.hub (portNum port)).pend = [] ∧ (meter s.hub (portNum port)).delays = [])
    ∧ (∃ port : Port, ∃ seq : Nat, ∃ t1 : Nat, ∃ t2 : Nat, ∃ t3 : Nat, ∃ t4 : Nat, ∃ s : State, ∃ least : Int, (meter s.hub (portNum
        port)).opened.find? (fun x => x.1 == seq % 256) = some (seq % 256, t1) ∧ (meter s.hub (portNum port)).peer = peerOf s.hub (portNum
        port) ∧ (meter s.hub (portNum port)).pend = [] ∧ (meter s.hub (portNum port)).delays.min? = some least ∧ least + 50000 < ((((t4 :
        Int) - t1) - ((t3 : Int) - t2)) / 2))
    ∧ (∃ port : Port, ∃ s : State, (meter s.hub (portNum port)).opened = [])
    ∧ (∃ port : Port, ∃ x, ∃ rest, ∃ s : State, (meter s.hub (portNum port)).opened = x :: rest)
    ∧ (∃ master : Nat, ∃ s : State, (master = 0 ∨ (master = hubNumber s.hub ∧ rd s.hub 0x4500_02 ≠ hubNumber s.hub)))
    ∧ (∃ master : Nat, ∃ s : State, master ≠ 0 ∧ master ≠ hubNumber s.hub ∧ master ≠ rd s.hub 0x4500_02) :=
  ⟨⟨.east, stOf (spireHub 3 4 (meterAt { meterInit with peer := 9 }) []), by decide +kernel⟩,
   ⟨9, stOf (spireHub 3 4 sp0 []), by decide +kernel⟩,
   ⟨.east, 300, 100, 150, 200, 351, stOf (spireHub 3 4 (meterAt { meterInit with peer := 9, opened := [(44, 100)] }) []),
      by decide +kernel⟩,
   ⟨.east, 300, 100, 150, 200, 351000, stOf (spireHub 3 4 (meterAt
      { meterInit with peer := 9, opened := [(43, 7), (44, 100)], delays := [90, 80], valid := 2 }) []), 80, by decide +kernel⟩,
   ⟨.east, stOf (spireHub 3 4 (meterAt { meterInit with peer := 9, opened := [] }) []), by decide +kernel⟩,
   ⟨.east, (44, 100), [(45, 200)], stOf (spireHub 3 4 (meterAt { meterInit with peer := 9, opened := [(44, 100), (45, 200)] }) []),
      by decide +kernel⟩,
   ⟨0, stOf (spireHub 3 4 sp0 [(0x4500_02, 8)]), by decide +kernel⟩,
   ⟨9, stOf (spireHub 3 4 sp0 [(0x4500_02, 8)]), by decide +kernel⟩⟩

theorem test_hyps_SpireMeasuresAndFollowsTheMaster_2 :
    (∃ master : Nat, ∃ s : State, master ≠ 0 ∧ master = rd s.hub 0x4500_02 ∧ master ≠ hubNumber s.hub)
    ∧ (∃ theta : Int, ∃ h : Hub, spireState h = 4 ∧ beyondThreshold h theta = false)
    ∧ (∃ theta : Int, ∃ h : Hub, spireState h = 4 ∧ beyondThreshold h theta = true)
    ∧ (∃ h : Hub, 1 ≤ spireState h ∧ spireState h ≤ 2 ∧ gate1 h = false)
    ∧ (∃ ps : Int, ∃ s : State, s.hub.spire.toStep = some ps ∧ (mode s.hub ≠ 2 ∨ masterHere s.hub = true))
    ∧ (∃ ps : Int, ∃ s : State, s.hub.spire.toStep = some ps ∧ mode s.hub = 2 ∧ masterHere s.hub = false ∧ 0 ≤ ps)
    ∧ (∃ ps : Int, ∃ s : State, s.hub.spire.toStep = some ps ∧ mode s.hub = 2 ∧ masterHere s.hub = false ∧ ps < 0 ∧ -1000000000000 ≤ ps)
    ∧ (∃ ps : Int, ∃ s : State, s.hub.spire.toStep = some ps ∧ mode s.hub = 2 ∧ masterHere s.hub = false ∧ ps < -1000000000000) :=
  ⟨⟨9, stOf (spireHub 3 4 sp0 [(0x4500_02, 9)]), by decide +kernel⟩,
   ⟨1000, spireHub 3 4 sp0 [], by decide +kernel⟩,
   ⟨10 ^ 9, spireHub 3 4 sp0 [], by decide +kernel⟩,
   ⟨spireHub 3 2 sp0 [], by decide +kernel⟩,
   ⟨12345, stOf (spireHub 3 2 { sp0 with toStep := some 12345 } []), by decide +kernel⟩,
   ⟨12345, stOf (spireHub 2 2 { sp0 with toStep := some 12345 } []), by decide +kernel⟩,
   ⟨-1000000000000, stOf (spireHub 2 2 { sp0 with toStep := some (-1000000000000) } []), by decide +kernel⟩,
   ⟨-1000000000001, stOf (spireHub 2 2 { sp0 with toStep := some (-1000000000001) } []), by decide +kernel⟩⟩

theorem test_hyps_SpireMeasuresAndFollowsTheMaster_3 :
    ∃ s : State, s.hub.spire.toStep = none :=
  ⟨stOf (spireHub 2 2 sp0 []), by decide +kernel⟩

theorem test_hyps_HoldoverAndPps :
    (∃ s : State, (spireState s.hub = 4 ∨ spireState s.hub = 5) ∧ masterHere s.hub = false)
    ∧ (∃ s : State, ((spireState s.hub ≠ 4 ∧ spireState s.hub ≠ 5) ∨ masterHere s.hub = true))
    ∧ (∃ s : State, spireState s.hub = 6)
    ∧ (∃ s : State, spireState s.hub ≠ 6)
    ∧ (∃ s : State, s.hub.spire.faulted = false ∧ mode s.hub ≠ 6)
    ∧ (∃ s : State, (s.hub.spire.faulted = true ∨ mode s.hub = 6))
    ∧ (∃ s : State, ppsAllowed s.hub = true)
    ∧ (∃ s : State, ppsAllowed s.hub = false) :=
  ⟨⟨stOf (spireHub 3 4 sp0 [(0x4500_06, 77)]), by decide +kernel⟩,
   ⟨stOf (spireHub 3 1 sp0 [(0x4500_06, 77)]), by decide +kernel⟩,
   ⟨stOf (spireHub 3 6 sp0 []), by decide +kernel⟩,
   ⟨stOf (spireHub 3 4 sp0 []), by decide +kernel⟩,
   ⟨stOf (spireHub 3 4 sp0 []), by decide +kernel⟩,
   ⟨stOf (spireHub 3 1 { sp0 with faulted := true } []), by decide +kernel⟩,
   ⟨stOf (spireHub 3 4 sp0 [(0x2501_0B, 1)]), by decide +kernel⟩,
   ⟨stOf (spireHub 3 1 sp0 []), by decide +kernel⟩⟩

theorem test_hyps_HoldoverAndPps_2 :
    (∃ s : State, rdB s.hub 0x2501_0C = false)
    ∧ (∃ stamp : Nat, ∃ at0 : Nat, ∃ s : State, rdB s.hub 0x2501_0C = true ∧ at0 = ((stamp : Int) - signed (rd s.hub 0x2501_0D)).toNat)
    ∧ (∃ s : State, s.hub.spire.cls = 1)
    ∧ (∃ s : State, s.hub.spire.cls ≠ 1) :=
  ⟨⟨stOf (spireHub 3 4 sp0 []), by decide +kernel⟩,
   ⟨10 ^ 15, (fun (stamp : Nat) (s : State) => ((stamp : Int) - signed (rd s.hub 0x2501_0D)).toNat) (10 ^ 15) (stOf (spireHub 3 4 sp0
      [(0x2501_0C, 1)])), stOf (spireHub 3 4 sp0 [(0x2501_0C, 1)]), by decide +kernel, rfl⟩,
   ⟨stOf (spireHub 3 4 { sp0 with cls := 1 } [(0x4500_06, 77), (0x2000_0B, 2)]), by decide +kernel⟩,
   ⟨stOf (spireHub 3 4 { sp0 with cls := 2 } [(0x4500_06, 77)]), by decide +kernel⟩⟩

theorem test_hyps_EngineFlowAndPinInstructions :
    (∃ n : Fin 64, ∃ s : State, EdgeDue n s.hub ∧ wordAtPc s.hub n = 0)
    ∧ (∃ n : Fin 64, ∃ s : State, EdgeDue n s.hub ∧ wordAtPc s.hub n = 0x0100)
    ∧ (∃ n : Fin 64, ∃ s : State, ∃ code, EdgeDue n s.hub ∧ code < 256 ∧ wordAtPc s.hub n = 0x0200 + code)
    ∧ (∃ n : Fin 64, ∃ s : State, EdgeDue n s.hub ∧ wordAtPc s.hub n = 0x0300)
    ∧ (∃ n : Fin 64, ∃ s : State, EdgeDue n s.hub ∧ wordAtPc s.hub n = 0x0400)
    ∧ (∃ n : Fin 64, ∃ s : State, ∃ cond, ∃ target, EdgeDue n s.hub ∧ cond < 16 ∧ target < 64 ∧ wordAtPc s.hub n = 0x1000 + cond * 256 +
        target)
    ∧ (∃ n : Fin 64, ∃ s : State, ∃ level, ∃ pin : Fin 8, ∃ target, EdgeDue n s.hub ∧ target < 64 ∧ wordAtPc s.hub n = 0x2000 + b2n level
        * 2048 + pin * 256 + target)
    ∧ (∃ n : Fin 64, ∃ s : State, ∃ target, EdgeDue n s.hub ∧ target < 64 ∧ wordAtPc s.hub n = 0x3000 + target) :=
  ⟨⟨2, engRun 0x0 eng0, by unfold EdgeDue; decide +kernel⟩,
   ⟨2, engRun 0x100 eng0, by unfold EdgeDue; decide +kernel⟩,
   ⟨2, engRun 0x2FF eng0, 255, by unfold EdgeDue; decide +kernel⟩,
   ⟨2, engRun 0x300 eng0, by unfold EdgeDue; decide +kernel⟩,
   ⟨2, engRun 0x400 eng0, by unfold EdgeDue; decide +kernel⟩,
   ⟨2, engRun 0x1F3F eng0, 15, 63, by unfold EdgeDue; decide +kernel⟩,
   ⟨2, engRun 0x2F3F eng0, true, 7, 63, by unfold EdgeDue; decide +kernel⟩,
   ⟨2, engRun 0x303F eng0, 63, by unfold EdgeDue; decide +kernel⟩⟩

theorem test_hyps_EngineFlowAndPinInstructions_2 :
    (∃ n : Fin 64, ∃ pins : Byte, ∃ s : State, ∃ flagForm : Bool, ∃ event : Nat, ∃ pin : Fin 8, EdgeDue n s.hub ∧ event < 4 ∧ awaitHolds
        flagForm event pin pins (clocked s.hub n) = true ∧ wordAtPc s.hub n = ((if flagForm then 0x4800 + event * 256 else 0x4000 + event
        * 512 + pin * 64)))
    ∧ (∃ n : Fin 64, ∃ pins : Byte, ∃ s : State, ∃ flagForm : Bool, ∃ event : Nat, ∃ pin : Fin 8, EdgeDue n s.hub ∧ event < 4 ∧ awaitHolds
        flagForm event pin pins (clocked s.hub n) = false ∧ wordAtPc s.hub n = ((if flagForm then 0x4800 + event * 256 else 0x4000 + event
        * 512 + pin * 64)))
    ∧ (∃ n : Fin 64, ∃ s : State, ∃ mask : Byte, EdgeDue n s.hub ∧ wordAtPc s.hub n = 0x5000 + mask.toNat)
    ∧ (∃ n : Fin 64, ∃ s : State, ∃ mask : Byte, EdgeDue n s.hub ∧ wordAtPc s.hub n = 0x5400 + mask.toNat)
    ∧ (∃ n : Fin 64, ∃ s : State, ∃ mask : Byte, EdgeDue n s.hub ∧ wordAtPc s.hub n = 0x5800 + mask.toNat)
    ∧ (∃ n : Fin 64, ∃ s : State, ∃ mask : Byte, EdgeDue n s.hub ∧ wordAtPc s.hub n = 0x5C00 + mask.toNat)
    ∧ (∃ n : Fin 64, ∃ s : State, wordAtPc s.hub n ≠ 0)
    ∧ (∃ n : Fin 64, ∃ s : State, wordAtPc s.hub n ≠ 0x0100) :=
  ⟨⟨2, 0x55, engRun 0x4800 eng0, true, 0, 0, by unfold EdgeDue; decide +kernel⟩,
   ⟨2, 0xFF, engRun 0x41C0 eng0, false, 0, 7, by unfold EdgeDue; decide +kernel⟩,
   ⟨2, engRun 0x50ff eng0, 0xFF, by unfold EdgeDue; decide +kernel⟩,
   ⟨2, engRun 0x54ff eng0, 0xFF, by unfold EdgeDue; decide +kernel⟩,
   ⟨2, engRun 0x58ff eng0, 0xFF, by unfold EdgeDue; decide +kernel⟩,
   ⟨2, engRun 0x5cff eng0, 0xFF, by unfold EdgeDue; decide +kernel⟩,
   ⟨2, engRun 1 eng0, by decide +kernel⟩,
   ⟨2, engRun 0 eng0, by decide +kernel⟩⟩

theorem test_hyps_EngineFlowAndPinInstructions_3 :
    (∃ n : Fin 64, ∃ pins : Byte, ∃ s : State, ∃ i, engineRuns s.hub n = false ∧ i ∈ ([.sysNop n pins, .sysHalt n pins, .sysStamp n pins,
        .sysClrm n pins] : List Instr))
    ∧ (∃ n : Fin 64, ∃ pins : Byte, ∃ s : State, ∃ cond, ∃ target, ∃ level, ∃ pin : Fin 8, ∃ flag, ∃ event : Nat, ∃ mask : Byte, ∃ i,
        engineRuns s.hub n = false ∧ i ∈ ([.br n pins cond target, .brp n pins level pin target, .dbnz n pins target, .await n pins flag
        event pin, .driveLow n pins mask, .driveToggle n pins mask] : List Instr))
    ∧ (∃ cmp : Word, ∃ g : Engine, g.tk + 1 ≠ cmp)
    ∧ (∃ cmp : Word, ∃ g : Engine, g.tk + 1 = cmp ∧ g.caction = 0)
    ∧ (∃ cmp : Word, ∃ g : Engine, g.tk + 1 = cmp ∧ g.cpin < 8 ∧ (g.caction = 1 ∨ g.caction = 2 ∨ g.caction = 3))
    ∧ (∃ cmp : Word, ∃ g : Engine, g.tk + 1 = cmp) :=
  ⟨⟨2, 0x55, stOf (engHub 2 eng0 []), .sysNop 2 0x55, by decide +kernel⟩,
   ⟨2, 0x55, stOf (engHub 2 eng0 []), 15, 63, true, 7, true, 3, 0xFF, .driveToggle 2 0x55 0xFF, by decide +kernel⟩,
   ⟨9, eng0, by decide +kernel⟩,
   ⟨1, { eng0 with caction := 0 }, by decide +kernel⟩,
   ⟨1, eng0, by decide +kernel⟩,
   ⟨1, eng0, by decide +kernel⟩⟩

theorem test_hyps_EngineDataInstructions :
    (∃ n : Fin 64, ∃ s : State, ∃ pin : Fin 8, EdgeDue n s.hub ∧ wordAtPc s.hub n = 0x6400 + pin * 128)
    ∧ (∃ n : Fin 64, ∃ s : State, ∃ pin : Fin 8, EdgeDue n s.hub ∧ wordAtPc s.hub n = 0x6000 + pin * 128)
    ∧ (∃ n : Fin 64, ∃ s : State, ∃ pin : Fin 8, EdgeDue n s.hub ∧ wordAtPc s.hub n = 0x6C00 + pin * 128)
    ∧ (∃ n : Fin 64, ∃ s : State, ∃ pin : Fin 8, EdgeDue n s.hub ∧ wordAtPc s.hub n = 0x6800 + pin * 128)
    ∧ (∃ n : Fin 64, ∃ s : State, ∃ dst : Fin 4, EdgeDue n s.hub ∧ (clocked s.hub n).txq = [] ∧ wordAtPc s.hub n = 0x7000 + dst * 1024)
    ∧ (∃ n : Fin 64, ∃ s : State, ∃ dst : Fin 4, ∃ w, ∃ rest, EdgeDue n s.hub ∧ (clocked s.hub n).txq = w :: rest ∧ w.poison = false ∧
        wordAtPc s.hub n = 0x7000 + dst * 1024)
    ∧ (∃ n : Fin 64, ∃ s : State, ∃ dst : Fin 4, ∃ w, ∃ rest, EdgeDue n s.hub ∧ (clocked s.hub n).txq = w :: rest ∧ w.poison = true ∧
        wordAtPc s.hub n = 0x7000 + dst * 1024)
    ∧ (∃ n : Fin 64, ∃ s : State, ∃ src : Fin 4, ∃ endMark, ∃ count, EdgeDue n s.hub ∧ count < 8 ∧ rxCap (clocked s.hub n).split ≤
        (clocked s.hub n).rxq.length ∧ wordAtPc s.hub n = (0x8000 + src * 1024 + b2n endMark * 512 + count * 64)) :=
  ⟨⟨2, engRun 0x6780 eng0, 7, by unfold EdgeDue; decide +kernel⟩,
   ⟨2, engRun 0x6380 eng0, 7, by unfold EdgeDue; decide +kernel⟩,
   ⟨2, engRun 0x6f80 eng0, 7, by unfold EdgeDue; decide +kernel⟩,
   ⟨2, engRun 0x6b80 eng0, 7, by unfold EdgeDue; decide +kernel⟩,
   ⟨2, engRun 0x7C00 eng0, 3, by unfold EdgeDue; decide +kernel⟩,
   ⟨2, engRun 0x7C00 { eng0 with txq := [xw 5 true] }, 3, xw 5 true, [], by unfold EdgeDue; decide +kernel⟩,
   ⟨2, engRun 0x7C00 { eng0 with txq := [xp 5] }, 3, xp 5, [], by unfold EdgeDue; decide +kernel⟩,
   ⟨2, engRun 0x8FC0 { eng0 with rxq := List.replicate 16 (xw 5 true) }, 3, true, 7, by unfold EdgeDue; decide +kernel⟩⟩

theorem test_hyps_EngineDataInstructions_2 :
    (∃ n : Fin 64, ∃ s : State, ∃ src : Fin 4, ∃ endMark, ∃ count, EdgeDue n s.hub ∧ count < 8 ∧ (clocked s.hub n).rxq.length < rxCap
        (clocked s.hub n).split ∧ wordAtPc s.hub n = (0x8000 + src * 1024 + b2n endMark * 512 + count * 64))
    ∧ (∃ n : Fin 64, ∃ pins : Byte, ∃ s : State, ∃ dst, ∃ src, EdgeDue n s.hub ∧ src < 16 ∧ dst < 4 ∧ wordAtPc s.hub n = (0x9000 + dst *
        256 + src * 16))
    ∧ (∃ n : Fin 64, ∃ pins : Byte, ∃ s : State, ∃ src, EdgeDue n s.hub ∧ src < 16 ∧ wordAtPc s.hub n = (0x9000 + 4 * 256 + src * 16))
    ∧ (∃ n : Fin 64, ∃ pins : Byte, ∃ s : State, ∃ src, EdgeDue n s.hub ∧ src < 16 ∧ 1 ≤ (copySrc (pinCount s.hub n) pins (clocked s.hub
        n) src).toNat ∧ (copySrc (pinCount s.hub n) pins (clocked s.hub n) src).toNat ≤ 48 ∧ wordAtPc s.hub n = (0x9000 + 5 * 256 + src *
        16))
    ∧ (∃ n : Fin 64, ∃ pins : Byte, ∃ s : State, ∃ src, EdgeDue n s.hub ∧ src < 16 ∧ ((copySrc (pinCount s.hub n) pins (clocked s.hub n)
        src).toNat = 0 ∨ 48 < (copySrc (pinCount s.hub n) pins (clocked s.hub n) src).toNat) ∧ wordAtPc s.hub n = (0x9000 + 5 * 256 + src
        * 16))
    ∧ (∃ n : Fin 64, ∃ pins : Byte, ∃ s : State, ∃ src, EdgeDue n s.hub ∧ src < 16 ∧ wordAtPc s.hub n = (0x9000 + 8 * 256 + src * 16))
    ∧ (∃ n : Fin 64, ∃ s : State, ∃ dst : Fin 4, ∃ imm, ∃ v, EdgeDue n s.hub ∧ v < (if imm then 32 else 4) ∧ wordAtPc s.hub n = (0xA000 +
        dst * 64 + b2n imm * 32 + v))
    ∧ (∃ n : Fin 64, ∃ s : State, ∃ dst : Fin 4, ∃ imm, ∃ v, EdgeDue n s.hub ∧ v < (if imm then 32 else 4) ∧ wordAtPc s.hub n = (0xA000 +
        dst * 64 + b2n imm * 32 + v) + 0x100) :=
  ⟨⟨2, engRun 0x8FC0 eng0, 3, true, 7, by unfold EdgeDue; decide +kernel⟩,
   ⟨2, 0x55, engRun 0x93F0 eng0, 3, 15, by unfold EdgeDue; decide +kernel⟩,
   ⟨2, 0x55, engRun 0x9470 eng0, 7, by unfold EdgeDue; decide +kernel⟩,
   ⟨2, 0x55, engRun 0x9510 { eng0 with x := 48, y := 48 }, 1, by unfold EdgeDue; decide +kernel⟩,
   ⟨2, 0x55, engRun 0x9510 { eng0 with x := 49, y := 49 }, 1, by unfold EdgeDue; decide +kernel⟩,
   ⟨2, 0x55, engRun 0x9870 eng0, 7, by unfold EdgeDue; decide +kernel⟩,
   ⟨2, engRun 0xa0ff eng0, 3, true, 31, by unfold EdgeDue; decide +kernel⟩,
   ⟨2, engRun 0xa1ff eng0, 3, true, 31, by unfold EdgeDue; decide +kernel⟩⟩

theorem test_hyps_EngineDataInstructions_3 :
    (∃ n : Fin 64, ∃ s : State, ∃ dst : Fin 4, ∃ imm, ∃ v, EdgeDue n s.hub ∧ v < (if imm then 32 else 4) ∧ wordAtPc s.hub n = (0xA000 +
        dst * 64 + b2n imm * 32 + v) + 0x200)
    ∧ (∃ n : Fin 64, ∃ s : State, ∃ dst : Fin 4, ∃ imm, ∃ v, EdgeDue n s.hub ∧ v < (if imm then 32 else 4) ∧ wordAtPc s.hub n = (0xA000 +
        dst * 64 + b2n imm * 32 + v) + 0x300)
    ∧ (∃ n : Fin 64, ∃ s : State, ∃ dst : Fin 4, ∃ imm, ∃ v, EdgeDue n s.hub ∧ v < (if imm then 32 else 4) ∧ wordAtPc s.hub n = (0xA000 +
        dst * 64 + b2n imm * 32 + v) + 0x400)
    ∧ (∃ n : Fin 64, ∃ s : State, ∃ dst : Fin 4, ∃ imm, ∃ v, EdgeDue n s.hub ∧ v < (if imm then 32 else 4) ∧ wordAtPc s.hub n = (0xA000 +
        dst * 64 + b2n imm * 32 + v) + 0x500)
    ∧ (∃ n : Fin 64, ∃ s : State, ∃ dst : Fin 4, ∃ imm, ∃ v, EdgeDue n s.hub ∧ v < (if imm then 32 else 4) ∧ wordAtPc s.hub n = (0xA000 +
        dst * 64 + b2n imm * 32 + v) + 0x600)
    ∧ (∃ n : Fin 64, ∃ s : State, ∃ dst : Fin 4, ∃ imm, ∃ v, EdgeDue n s.hub ∧ v < (if imm then 32 else 4) ∧ wordAtPc s.hub n = (0xA000 +
        dst * 64 + b2n imm * 32 + v) + 0x700)
    ∧ (∃ n : Fin 64, ∃ s : State, ∃ dst : Fin 4, ∃ imm, ∃ v, EdgeDue n s.hub ∧ v < (if imm then 32 else 4) ∧ (clocked s.hub n).l ≤ 48 ∧
        wordAtPc s.hub n = (0xA000 + dst * 64 + b2n imm * 32 + v) + 0x800)
    ∧ (∃ n : Fin 64, ∃ s : State, ∃ imm, EdgeDue n s.hub ∧ imm < 1024 ∧ wordAtPc s.hub n = 0xB000 + imm) :=
  ⟨⟨2, engRun 0xa2ff eng0, 3, true, 31, by unfold EdgeDue; decide +kernel⟩,
   ⟨2, engRun 0xa3ff eng0, 3, true, 31, by unfold EdgeDue; decide +kernel⟩,
   ⟨2, engRun 0xa4ff eng0, 3, true, 31, by unfold EdgeDue; decide +kernel⟩,
   ⟨2, engRun 0xa5ff eng0, 3, true, 31, by unfold EdgeDue; decide +kernel⟩,
   ⟨2, engRun 0xa6ff eng0, 3, true, 31, by unfold EdgeDue; decide +kernel⟩,
   ⟨2, engRun 0xa7ff eng0, 3, true, 31, by unfold EdgeDue; decide +kernel⟩,
   ⟨2, engRun 0xa8ff eng0, 3, true, 31, by unfold EdgeDue; decide +kernel⟩,
   ⟨2, engRun 0xb3ff eng0, 1023, by unfold EdgeDue; decide +kernel⟩⟩

theorem test_hyps_EngineDataInstructions_4 :
    (∃ n : Fin 64, ∃ s : State, ∃ imm, EdgeDue n s.hub ∧ imm < 1024 ∧ wordAtPc s.hub n = 0xB400 + imm)
    ∧ (∃ n : Fin 64, ∃ s : State, ∃ imm, EdgeDue n s.hub ∧ imm < 1024 ∧ wordAtPc s.hub n = 0xB800 + imm)
    ∧ (∃ n : Fin 64, ∃ s : State, ∃ imm, EdgeDue n s.hub ∧ imm < 1024 ∧ 1 ≤ imm ∧ imm ≤ 48 ∧ wordAtPc s.hub n = 0xBC00 + imm)
    ∧ (∃ n : Fin 64, ∃ s : State, ∃ imm, EdgeDue n s.hub ∧ imm < 1024 ∧ (imm = 0 ∨ 48 < imm) ∧ wordAtPc s.hub n = 0xBC00 + imm)
    ∧ (∃ n : Fin 64, ∃ s : State, ∃ imm, ∃ v, EdgeDue n s.hub ∧ v < (if imm then 1024 else 4) ∧ wordAtPc s.hub n = (0xC000 + b2n imm *
        1024 + v))
    ∧ (∃ n : Fin 64, ∃ s : State, ∃ imm, ∃ v, EdgeDue n s.hub ∧ v < (if imm then 1024 else 4) ∧ wordAtPc s.hub n = (0xC000 + b2n imm *
        1024 + v) + 0x800) :=
  ⟨⟨2, engRun 0xb7ff eng0, 1023, by unfold EdgeDue; decide +kernel⟩,
   ⟨2, engRun 0xbbff eng0, 1023, by unfold EdgeDue; decide +kernel⟩,
   ⟨2, engRun 0xBC30 eng0, 48, by unfold EdgeDue; decide +kernel⟩,
   ⟨2, engRun 0xBC31 eng0, 49, by unfold EdgeDue; decide +kernel⟩,
   ⟨2, engRun 0xC7FF eng0, true, 1023, by unfold EdgeDue; decide +kernel⟩,
   ⟨2, engRun 0xCFFF eng0, true, 1023, by unfold EdgeDue; decide +kernel⟩⟩

theorem test_hyps_InstructionWordsHaveTheirEffects :
    (∃ code : Nat, code < 256)
    ∧ (∃ cond : Nat, ∃ target : Nat, cond < 16 ∧ target < 64)
    ∧ (∃ pin : Nat, ∃ target : Nat, pin < 8 ∧ target < 64)
    ∧ (∃ target : Nat, target < 64)
    ∧ (∃ event : Nat, ∃ pin : Nat, event < 4 ∧ pin < 8)
    ∧ (∃ flag : Nat, flag < 8)
    ∧ (∃ action : Nat, ∃ mask : Nat, action < 4 ∧ mask < 256)
    ∧ (∃ pin : Nat, pin < 8) :=
  ⟨⟨255, by decide +kernel⟩,
   ⟨15, 63, by decide +kernel⟩,
   ⟨7, 63, by decide +kernel⟩,
   ⟨63, by decide +kernel⟩,
   ⟨3, 7, by decide +kernel⟩,
   ⟨7, by decide +kernel⟩,
   ⟨3, 255, by decide +kernel⟩,
   ⟨7, by decide +kernel⟩⟩

theorem test_hyps_InstructionWordsHaveTheirEffects_2 :
    (∃ dst : Nat, dst < 4)
    ∧ (∃ src : Nat, ∃ k : Nat, src < 4 ∧ k < 8)
    ∧ (∃ dst : Nat, ∃ src : Nat, dst < 16 ∧ src < 16)
    ∧ (∃ op : Nat, ∃ dst : Nat, ∃ v : Nat, op < 9 ∧ dst < 4 ∧ v < 32)
    ∧ (∃ dst : Nat, ∃ v : Nat, dst < 4 ∧ v < 1024)
    ∧ (∃ v : Nat, v < 1024) :=
  ⟨⟨3, by decide +kernel⟩,
   ⟨3, 7, by decide +kernel⟩,
   ⟨15, 15, by decide +kernel⟩,
   ⟨8, 3, 31, by decide +kernel⟩,
   ⟨3, 1023, by decide +kernel⟩,
   ⟨1023, by decide +kernel⟩⟩

theorem test_hyps_EngineCommandsKeepTable5 :
    (∃ p : Path, ∃ n : Fin 64, ∃ s : State, ∃ h : Hub, WriteOpen p (0x3000 + n) 2 1 s.hub ∧ domainState s.hub (grove n) = 3 ∧ h =
        writeStart p (0x3000 + n) 2 s.hub ∧ (engState s.hub n = 3 ∨ engState s.hub n = 4))
    ∧ (∃ p : Path, ∃ n : Fin 64, ∃ s : State, ∃ h : Hub, WriteOpen p (0x3000 + n) 2 1 s.hub ∧ domainState s.hub (grove n) = 3 ∧ h =
        writeStart p (0x3000 + n) 2 s.hub ∧ engState s.hub n ≠ 3 ∧ engState s.hub n ≠ 4 ∧ (∀ m ∈ s.hub.forester.moves, m.phase ≠ 7))
    ∧ (∃ p : Path, ∃ n : Fin 64, ∃ s : State, ∃ h : Hub, ∃ m : Move, WriteOpen p (0x3000 + n) 2 1 s.hub ∧ domainState s.hub (grove n) = 3
        ∧ h = writeStart p (0x3000 + n) 2 s.hub ∧ engState s.hub n = 6 ∧ s.hub.forester.moves = [m] ∧ m.phase = 7 ∧ m.sourceE = n)
    ∧ (∃ p : Path, ∃ n : Fin 64, ∃ s : State, ∃ h : Hub, WriteOpen p (0x3000 + n) 2 2 s.hub ∧ domainState s.hub (grove n) = 3 ∧ engState
        s.hub n = 2 ∧ h = writeStart p (0x3000 + n) 2 s.hub)
    ∧ (∃ p : Path, ∃ n : Fin 64, ∃ image : Nat, ∃ s : State, ∃ st : Nat, WriteOpen p (0x3000 + n) 2 (3 + 256 * image) s.hub ∧ domainState
        s.hub (grove n) = 3 ∧ image < 256 ∧ loadable (engState s.hub n) = true ∧ st = rd s.hub (imageKey image 1) ∧ loadCheck s.hub n
        image = 0 ∧ s.hub.watch.armed = [])
    ∧ (∃ p : Path, ∃ n : Fin 64, ∃ image : Nat, ∃ s : State, ∃ st : Nat, WriteOpen p (0x3000 + n) 2 (3 + 256 * image) s.hub ∧ domainState
        s.hub (grove n) = 3 ∧ image < 256 ∧ loadable (engState s.hub n) = true ∧ st = rd s.hub (imageKey image 1) ∧ loadCheck s.hub n
        image ≠ 0)
    ∧ (∃ p : Path, ∃ n : Fin 64, ∃ image : Nat, ∃ s : State, ∃ st : Nat, WriteOpen p (0x3000 + n) 2 (4 + 256 * image) s.hub ∧ domainState
        s.hub (grove n) = 3 ∧ image < 256 ∧ loadable (engState s.hub n) = true ∧ st = rd s.hub (imageKey image 1) ∧ loadCheck s.hub n
        image = 0 ∧ s.hub.watch.armed = [] ∧ (engine s.hub n).pins.length ≤ 8)
    ∧ (∃ p : Path, ∃ n : Fin 64, ∃ pins : Byte, ∃ s : State, ∃ g' : Engine, ∃ target : Option Nat, WriteOpen p (0x3000 + n) 2 5 s.hub ∧
        domainState s.hub (grove n) = 3 ∧ engState s.hub n = 2 ∧ decodeArmed s.hub n = false ∧ ((clocked s.hub n).pc = 0 → (clocked s.hub
        n).badWord = 0) ∧ (wordEffect (wordAtPc s.hub n) (pinCount s.hub n) (stampNs s.hub (8 + grove n)) pins (clocked s.hub n)) = .go g'
        target) :=
  
      ⟨⟨.host, 2, stOf (engCom 3 eng0 []), (fun (p : Path) (n : Fin 64) (s : State) => writeStart p (0x3000 + n) 2 s.hub) (.host) (2) (stOf (engCom 3 eng0 [])), by (repeat' apply And.intro) <;> decide +kernel, by decide +kernel, rfl, by first | decide +kernel | exact Or.inl (by decide +kernel) | exact Or.inr (Or.inl (by decide +kernel)) | exact Or.inr (Or.inr (by decide +kernel))⟩,
   
      ⟨.host, 2, stOf (engCom 6 eng0 []), (fun (p : Path) (n : Fin 64) (s : State) => writeStart p (0x3000 + n) 2 s.hub) (.host) (2) (stOf (engCom 6 eng0 [])), by (repeat' apply And.intro) <;> decide +kernel, by decide +kernel, rfl, by decide +kernel⟩,
   
      ⟨.host, 2, stOf { engCom 6 eng0 [] with forester := moving { mv 7 5 5 with sourceE := 2 } }, (fun (p : Path) (n : Fin 64) (s : State) => writeStart p (0x3000 + n) 2 s.hub) (.host) (2) (stOf { engCom 6 eng0 [] with forester := moving { mv 7 5 5 with sourceE := 2 } }), { mv 7 5 5 with sourceE := 2 }, by (repeat' apply And.intro) <;> decide +kernel, by decide +kernel, rfl, by decide +kernel⟩,
   
      ⟨.host, 2, stOf (engCom 2 eng0 []), (fun (p : Path) (n : Fin 64) (s : State) => writeStart p (0x3000 + n) 2 s.hub) (.host) (2) (stOf (engCom 2 eng0 [])), by (repeat' apply And.intro) <;> decide +kernel, by decide +kernel, by decide +kernel, rfl⟩,
   
      ⟨.host, 2, 0, stOf (engCom 2 eng0 []), (fun image (s : State) => rd s.hub (imageKey image 1)) (0) (stOf (engCom 2 eng0 [])), by (repeat' apply And.intro) <;> decide +kernel, by decide +kernel, by decide +kernel, by decide +kernel, rfl, by decide +kernel⟩,
   
      ⟨.host, 2, 1, stOf (engCom 5 eng0 [(imageKey 1 1, 2 ^ 40)]), (fun image (s : State) => rd s.hub (imageKey image 1)) (1) (stOf (engCom 5 eng0 [(imageKey 1 1, 2 ^ 40)])), by (repeat' apply And.intro) <;> decide +kernel, by decide +kernel, by decide +kernel, by decide +kernel, rfl, by decide +kernel⟩,
   
      ⟨.host, 2, 0, stOf (engCom 1 { eng0 with safe := 0b1101 } [(imageKey 0 2, 77)]), (fun image (s : State) => rd s.hub (imageKey image 1)) (0) (stOf (engCom 1 { eng0 with safe := 0b1101 } [(imageKey 0 2, 77)])), by (repeat' apply And.intro) <;> decide +kernel, by decide +kernel, by decide +kernel, by decide +kernel, rfl, by decide +kernel⟩,
   ⟨.host, 2, 0x55, stOf (engHeld 0), clocked (engHeld 0) 2, none, by unfold WriteOpen; decide +kernel⟩⟩

theorem test_hyps_EngineCommandsKeepTable5_2 :
    (∃ p : Path, ∃ n : Fin 64, ∃ pins : Byte, ∃ s : State, ∃ g' : Engine, WriteOpen p (0x3000 + n) 2 5 s.hub ∧ domainState s.hub (grove n)
        = 3 ∧ engState s.hub n = 2 ∧ decodeArmed s.hub n = false ∧ ((clocked s.hub n).pc = 0 → (clocked s.hub n).badWord = 0) ∧
        ((wordEffect (wordAtPc s.hub n) (pinCount s.hub n) (stampNs s.hub (8 + grove n)) pins (clocked s.hub n)) = .halt g' ∨ (∃ code,
        (wordEffect (wordAtPc s.hub n) (pinCount s.hub n) (stampNs s.hub (8 + grove n)) pins (clocked s.hub n)) = .signal g' code)))
    ∧ (∃ p : Path, ∃ n : Fin 64, ∃ pins : Byte, ∃ s : State, WriteOpen p (0x3000 + n) 2 5 s.hub ∧ domainState s.hub (grove n) = 3 ∧
        engState s.hub n = 2 ∧ decodeArmed s.hub n = false ∧ ((clocked s.hub n).pc = 0 → (clocked s.hub n).badWord = 0) ∧ (wordEffect
        (wordAtPc s.hub n) (pinCount s.hub n) (stampNs s.hub (8 + grove n)) pins (clocked s.hub n)) = .stall)
    ∧ (∃ p : Path, ∃ n : Fin 64, ∃ pins : Byte, ∃ s : State, ∃ c : Nat, WriteOpen p (0x3000 + n) 2 5 s.hub ∧ domainState s.hub (grove n) =
        3 ∧ engState s.hub n = 2 ∧ decodeArmed s.hub n = false ∧ ((clocked s.hub n).pc = 0 → (clocked s.hub n).badWord = 0) ∧ c < 2 ^ 48 ∧
        (wordEffect (wordAtPc s.hub n) (pinCount s.hub n) (stampNs s.hub (8 + grove n)) pins (clocked s.hub n)) = .fault c)
    ∧ (∃ p : Path, ∃ n : Fin 64, ∃ s : State, WriteOpen p (0x3000 + n) 2 6 s.hub ∧ domainState s.hub (grove n) = 3 ∧ (engState s.hub n = 2
        ∨ engState s.hub n = 5))
    ∧ (∃ p : Path, ∃ n : Fin 64, ∃ image : Nat, ∃ pins : Byte, ∃ s : State, ∃ i : Instr, ∃ v, ∃ allowed, image < 256 ∧ (i = .resume p n ∧
        v = 2 ∧ allowed = [2] ∨ i = .load p n image ∧ v = 3 + 256 * image ∧ allowed = [1, 2, 5] ∨ i = .loadClean p n image pins ∧ v = 4 +
        256 * image ∧ allowed = [1, 2, 5] ∨ i = .engineStep p n pins ∧ v = 5 ∧ allowed = [2] ∨ i = .flush p n ∧ v = 6 ∧ allowed = [2, 5])
        ∧ WriteOpen p (0x3000 + n) 2 v s.hub ∧ domainState s.hub (grove n) = 3 ∧ engState s.hub n ∉ allowed)
    ∧ (∃ p : Path, ∃ n : Fin 64, ∃ image : Nat, ∃ pins : Byte, ∃ s : State, ∃ i : Instr, ∃ v, image < 256 ∧ (i = .halt p n ∧ v = 1 ∨ i =
        .resume p n ∧ v = 2 ∨ i = .load p n image ∧ v = 3 + 256 * image ∨ i = .loadClean p n image pins ∧ v = 4 + 256 * image ∨ i =
        .engineStep p n pins ∧ v = 5 ∨ i = .flush p n ∧ v = 6) ∧ WriteOpen p (0x3000 + n) 2 v s.hub ∧ domainState s.hub (grove n) ≠ 3) :=
  ⟨⟨.host, 2, 0x55, stOf (engHeld 0x100), clocked (engHeld 0x100) 2, ⟨by unfold WriteOpen; decide +kernel, by decide +kernel,
      by decide +kernel, by decide +kernel, by decide +kernel, .inl (by decide +kernel)⟩⟩,
   ⟨.host, 2, 0x55, stOf (engHeld 0x7000), by unfold WriteOpen; decide +kernel⟩,
   ⟨.host, 2, 0x55, stOf (engHeld 0xBC00), 3, by unfold WriteOpen; decide +kernel⟩,
   
      ⟨.host, 2, stOf (engCom 5 { eng0 with txq := [xw 5 true], rxq := [xw 6 false] } []), by (repeat' apply And.intro) <;> decide +kernel, by decide +kernel, by first | decide +kernel | exact Or.inl (by decide +kernel) | exact Or.inr (Or.inl (by decide +kernel)) | exact Or.inr (Or.inr (by decide +kernel))⟩,
   ⟨.host, 2, 255, 0x55, stOf (engCom 3 eng0 []), .flush .host 2, 6, [2, 5], ⟨by decide +kernel, .inr (.inr (.inr (.inr
      (by decide +kernel)))), by unfold WriteOpen; decide +kernel, by decide +kernel, by decide +kernel⟩⟩,
   ⟨.host, 2, 255, 0x55, stOf (wr (engCom 2 eng0 []) (0x4D11_01 + 0) 1), .halt .host 2, 1, ⟨by decide +kernel, .inl (by decide +kernel),
      by unfold WriteOpen; decide +kernel, by decide +kernel⟩⟩⟩

theorem test_hyps_EngineQueuesAndChecks :
    (∃ n : Fin 64, ∃ f : Nat, ∃ w : XWord, ∃ s : State, consumerFifo s.hub n = some f ∧ (engine s.hub n).txq.length < txCap (engine s.hub
        n).split ∧ fifoHead (readHead f s.hub) f = some w ∧ crossingShut (readHead f s.hub) 0 (8 + grove n) = false ∧ (crossing (readHead
        f s.hub) 0 (8 + grove n)).entries = [] ∧ (readHead f s.hub).watch.armed = [])
    ∧ (∃ n : Fin 64, ∃ f : Nat, ∃ w : XWord, ∃ s : State, consumerFifo s.hub n = some f ∧ (engine s.hub n).txq.length < txCap (engine
        s.hub n).split ∧ fifoHead (readHead f s.hub) f = some w ∧ crossingClosed (readHead f s.hub) 0 (8 + grove n) = true)
    ∧ (∃ n : Fin 64, ∃ f : Nat, ∃ w : XWord, ∃ s : State, consumerFifo s.hub n = some f ∧ (engine s.hub n).txq.length < txCap (engine
        s.hub n).split ∧ fifoHead (readHead f s.hub) f = some w ∧ crossingClosed (readHead f s.hub) 0 (8 + grove n) = false ∧ (crossing
        (readHead f s.hub) 0 (8 + grove n)).broken = true)
    ∧ (∃ n : Fin 64, ∃ s : State, (consumerFifo s.hub n = none ∨ txCap (engine s.hub n).split ≤ (engine s.hub n).txq.length))
    ∧ (∃ n : Fin 64, ∃ f : Nat, ∃ w : XWord, ∃ rest : List XWord, ∃ s : State, producerFifo s.hub n = some f ∧ (engine s.hub n).rxq = w ::
        rest ∧ heldBack s.hub f = false ∧ crossingShut s.hub (8 + grove n) 0 = false ∧ (crossing s.hub (8 + grove n) 0).entries = [] ∧
        s.hub.watch.armed = [])
    ∧ (∃ n : Fin 64, ∃ f : Nat, ∃ w : XWord, ∃ rest : List XWord, ∃ s : State, producerFifo s.hub n = some f ∧ (engine s.hub n).rxq = w ::
        rest ∧ heldBack s.hub f = true)
    ∧ (∃ n : Fin 64, ∃ f : Nat, ∃ w : XWord, ∃ rest : List XWord, ∃ s : State, producerFifo s.hub n = some f ∧ (engine s.hub n).rxq = w ::
        rest ∧ heldBack s.hub f = false ∧ crossingShut s.hub (8 + grove n) 0 = true)
    ∧ (∃ fio : Nat, ∃ e : Nat × Engine, ∃ k : Nat, ∃ s : State, fio < 256 ∧ bit (rd s.hub (slotKey (0x2604 + fio / 64) (fio % 64 + 1))) 4
        = false ∧ e ∈ s.hub.engines ∧ pinsGated s.hub e.1 = false ∧ e.2.pins[k]? = some fio ∧ e.2.en.getLsbD k = true) :=
  ⟨⟨2, 4, xw 5 true, stOf
      { engHub 3 eng0 [(engKey 2 0x12, 77), (fifoKey 4 1, 1)] with fifos := [(4, { ffo [(xw 5 true, 0)] with consumer := 2 ^ 44 + 77 })] },
      by decide +kernel⟩,
   ⟨2, 4, xw 5 true, stOf
      { engHub 3 eng0 [(engKey 2 0x12, 77), (fifoKey 4 1, 1), (0x4D11_01 + 0, 0)] with fifos := [(4, { ffo [(xw 5 true, 0)] with consumer := 2 ^ 44 + 77 })] },
      by decide +kernel⟩,
   ⟨2, 4, xw 5 true, stOf (brokenAt 0 8
      { engHub 3 eng0 [(engKey 2 0x12, 77), (fifoKey 4 1, 1)] with fifos := [(4, { ffo [(xw 5 true, 0)] with consumer := 2 ^ 44 + 77 })] }),
      by decide +kernel⟩,
   ⟨2, stOf (engHub 3 eng0 []), by decide +kernel⟩,
   ⟨2, 4, xw 6 false, [], stOf
      { engHub 3 { eng0 with rxq := [xw 6 false] } [(engKey 2 0x12, 77), (fifoKey 4 1, 1), (fifoKey 4 3, 1)] with fifos := [(4, { ffo [(xw 5 true, 0)] with producer := 2 ^ 44 + 77 })] },
      by decide +kernel⟩,
   ⟨2, 4, xw 6 false, [], stOf
      { engHub 3 { eng0 with rxq := [xw 6 false] } [(engKey 2 0x12, 77), (fifoKey 4 1, 1), (fifoKey 4 3, 1)] with fifos := [(4, { ffo [(xw 5 true, 0)] with producer := 2 ^ 44 + 77, stop := true })] },
      by decide +kernel⟩,
   ⟨2, 4, xw 6 false, [], stOf (brokenAt 8 0
      { engHub 3 { eng0 with rxq := [xw 6 false] } [(engKey 2 0x12, 77), (fifoKey 4 1, 1), (fifoKey 4 3, 1)] with fifos := [(4, { ffo [(xw 5 true, 0)] with producer := 2 ^ 44 + 77 })] }),
      by decide +kernel⟩,
   ⟨9, (2, { eng0 with en := 1 }), 0, stOf (engHub 3 { eng0 with en := 1 } []), by decide +kernel⟩⟩

theorem test_hyps_EngineQueuesAndChecks_2 :
    (∃ fio : Nat, ∃ s : State, (∀ e ∈ s.hub.engines, ∀ k, e.2.pins[k]? = some fio → e.2.en.getLsbD k = false))
    ∧ (∃ n : Fin 64, ∃ s : State, (engState s.hub n = 3 ∨ engState s.hub n = 4) ∧ programOn s.hub n = none ∧ (n.val, 3) ∉
        s.hub.forester.due)
    ∧ (∃ failed : List Nat, ∃ s : State, (∀ n, n < 64 → n ∈ failed → engState s.hub n ≠ 1)) :=
  
      ⟨⟨200, stOf (engHub 3 { eng0 with en := 1 } []), by intro e he k hk; simp only [stOf, engHub, eng0, List.mem_singleton] at he; subst he; exact absurd hk (by rcases k with _ | _ | k <;> simp)⟩,
   ⟨2, stOf (engHub 3 eng0 []), by decide +kernel⟩,
   ⟨[2], stOf (engHub 3 eng0 []), by intro n _ h; simp only [List.mem_singleton] at h; subst h; decide +kernel⟩⟩

theorem test_hyps_FifosKeepWordsInOrder :
    (∃ f : Fin 128, ∃ x : Fifo, ∃ s : State, FifoOpen f s.hub ∧ x = fifo s.hub f ∧ x.packer = [] ∧ (heldBack s.hub f = false ∨ endKind
        x.producer = 2 ∨ endKind x.producer = 3))
    ∧ (∃ f : Fin 128, ∃ s : State, rd s.hub (fifoKey f 1) ≠ 0 ∧ endKind (fifo s.hub f).producer ≠ 2 ∧ endKind (fifo s.hub f).producer ≠ 3
        ∧ heldBack s.hub f = true)
    ∧ (∃ f : Fin 128, ∃ s : State, rd s.hub (fifoKey f 1) ≠ 0 ∧ (endKind (fifo s.hub f).producer = 2 ∨ endKind (fifo s.hub f).producer =
        3) ∧ fifoCapacity s.hub f ≤ (fifo s.hub f).words.length)
    ∧ (∃ f : Fin 128, ∃ v : Nat, ∃ x : Fifo, ∃ lo : BitVec 8, ∃ hi : BitVec 8, ∃ s : State, FifoOpen f s.hub ∧ x = fifo s.hub f ∧ lo =
        BitVec.ofNat 8 v ∧ hi = BitVec.ofNat 8 (v / 256) ∧ x.packer.length < 5)
    ∧ (∃ f : Fin 128, ∃ v : Nat, ∃ x : Fifo, ∃ lo : BitVec 8, ∃ hi : BitVec 8, ∃ s : State, FifoOpen f s.hub ∧ x = fifo s.hub f ∧ lo =
        BitVec.ofNat 8 v ∧ hi = BitVec.ofNat 8 (v / 256) ∧ x.packer.length = 5)
    ∧ (∃ f : Fin 128, ∃ v : Nat, ∃ x : Fifo, ∃ lo : BitVec 8, ∃ hi : BitVec 8, ∃ s : State, FifoOpen f s.hub ∧ x = fifo s.hub f ∧ lo =
        BitVec.ofNat 8 v ∧ hi = BitVec.ofNat 8 (v / 256) ∧ x.packer.length < 4)
    ∧ (∃ f : Fin 128, ∃ v : Nat, ∃ x : Fifo, ∃ lo : BitVec 8, ∃ hi : BitVec 8, ∃ s : State, FifoOpen f s.hub ∧ x = fifo s.hub f ∧ lo =
        BitVec.ofNat 8 v ∧ hi = BitVec.ofNat 8 (v / 256) ∧ x.packer.length ≤ 5)
    ∧ (∃ f : Fin 128, ∃ v : Nat, ∃ x : Fifo, ∃ lo : BitVec 8, ∃ hi : BitVec 8, ∃ s : State, FifoOpen f s.hub ∧ x = fifo s.hub f ∧ lo =
        BitVec.ofNat 8 v ∧ hi = BitVec.ofNat 8 (v / 256) ∧ x.packer.length = 4) :=
  
      ⟨⟨4, ffo [(xw 1 false, 0)], stOf (fHub 4 (ffo [(xw 1 false, 0)]) 1 1 []), by (repeat' apply And.intro) <;> decide +kernel, by decide +kernel, by decide +kernel, by first | decide +kernel | exact Or.inl (by decide +kernel) | exact Or.inr (Or.inl (by decide +kernel)) | exact Or.inr (Or.inr (by decide +kernel))⟩,
   ⟨4, stOf (fHub 4 { ffo [] with stop := true } 1 1 []), by decide +kernel⟩,
   ⟨4, stOf (fHub 4 { fWords 3 (ffo []) with producer := 2 * 2 ^ 44 } 1 0 []), by decide +kernel⟩,
   
      ⟨4, 0x1234, fPart 4, (fun v => BitVec.ofNat 8 v) (0x1234), (fun v => BitVec.ofNat 8 (v / 256)) (0x1234), stOf (fHub 4 (fPart 4) 1 1 []), by (repeat' apply And.intro) <;> decide +kernel, by decide +kernel, rfl, rfl, by decide +kernel⟩,
   
      ⟨4, 0x1234, fPart 5, (fun v => BitVec.ofNat 8 v) (0x1234), (fun v => BitVec.ofNat 8 (v / 256)) (0x1234), stOf (fHub 4 (fPart 5) 1 1 []), by (repeat' apply And.intro) <;> decide +kernel, by decide +kernel, rfl, rfl, by decide +kernel⟩,
   
      ⟨4, 0x1234, fPart 3, (fun v => BitVec.ofNat 8 v) (0x1234), (fun v => BitVec.ofNat 8 (v / 256)) (0x1234), stOf (fHub 4 (fPart 3) 1 1 []), by (repeat' apply And.intro) <;> decide +kernel, by decide +kernel, rfl, rfl, by decide +kernel⟩,
   
      ⟨4, 0x1234, fPart 5, (fun v => BitVec.ofNat 8 v) (0x1234), (fun v => BitVec.ofNat 8 (v / 256)) (0x1234), stOf (fHub 4 (fPart 5) 1 1 []), by (repeat' apply And.intro) <;> decide +kernel, by decide +kernel, rfl, rfl, by decide +kernel⟩,
   
      ⟨4, 0x1234, fPart 4, (fun v => BitVec.ofNat 8 v) (0x1234), (fun v => BitVec.ofNat 8 (v / 256)) (0x1234), stOf (fHub 4 (fPart 4) 1 1 []), by (repeat' apply And.intro) <;> decide +kernel, by decide +kernel, rfl, rfl, by decide +kernel⟩⟩

theorem test_hyps_FifosKeepWordsInOrder_2 :
    (∃ f : Fin 128, ∃ v : Nat, ∃ x : Fifo, ∃ lo : BitVec 8, ∃ hi : BitVec 8, ∃ s : State, FifoOpen f s.hub ∧ x = fifo s.hub f ∧ lo =
        BitVec.ofNat 8 v ∧ hi = BitVec.ofNat 8 (v / 256) ∧ x.packer.length ≤ 4)
    ∧ (∃ f : Fin 128, ∃ w : XWord, ∃ x : Fifo, ∃ s : State, rd s.hub (fifoKey f 1) ≠ 0 ∧ x = fifo s.hub f ∧ x.dropping = false ∧
        s.hub.watch.armed = [] ∧ wholePackets x = true ∧ x.packer = [] ∧ x.words.length + 1 = fifoCapacity s.hub f ∧ heldBack s.hub f =
        false ∧ fifoPackets x = 0 ∧ x.read ≤ x.words.length ∧ w.endMark = false)
    ∧ (∃ f : Fin 128, ∃ s : State, fifoHead s.hub f = none)
    ∧ (∃ f : Fin 128, ∃ w : XWord, ∃ s : State, fifoHead s.hub f = some w ∧ w.poison = false ∧ (fifo s.hub f).errors = [])
    ∧ (∃ f : Fin 128, ∃ w : XWord, ∃ s : State, fifoHead s.hub f = some w ∧ w.poison = true ∧ wholePackets (fifo s.hub f) = false ∧ (fifo
        s.hub f).errors = [])
    ∧ (∃ f : Fin 128, ∃ w : XWord, ∃ i : Nat, ∃ rest, ∃ s : State, wholePackets (fifo s.hub f) = false ∧ (fifo s.hub f).words.drop (fifo
        s.hub f).read = (w, i) :: rest ∧ w.poison = false ∧ (fifo s.hub f).errors = [(i, 1)])
    ∧ (∃ f : Fin 128, ∃ w : XWord, ∃ i : Nat, ∃ rest, ∃ s : State, wholePackets (fifo s.hub f) = false ∧ (fifo s.hub f).words.drop (fifo
        s.hub f).read = (w, i) :: rest ∧ w.poison = false ∧ (fifo s.hub f).errors = [(i, 2)])
    ∧ (∃ f : Fin 128, ∃ s : State, (fifoHead s.hub f).isSome = true ∧ (fifo s.hub f).mark = false ∧ rd s.hub (fifoKey f 1) = 1 ∧
        streamPeer (fifo s.hub f) ≠ 0 ∧ 0 < fifoCapacity s.hub f) :=
  
      ⟨⟨4, 0x1234, fPart 4, (fun v => BitVec.ofNat 8 v) (0x1234), (fun v => BitVec.ofNat 8 (v / 256)) (0x1234), stOf (fHub 4 (fPart 4) 1 1 []), by (repeat' apply And.intro) <;> decide +kernel, by decide +kernel, rfl, rfl, by decide +kernel⟩,
   ⟨4, xw 6 false, { fWords 255 (ffo []) with consumer := 2 ^ 45, settings := 1 }, stOf (fHub 4
      { fWords 255 (ffo []) with consumer := 2 ^ 45, settings := 1 } 1 1 []), by decide +kernel⟩,
   ⟨4, stOf (fHub 4 (ffo []) 1 1 []), by decide +kernel⟩,
   ⟨4, xw 0 false, stOf (fHub 4 { fWords 200 (ffo []) with stop := true } 1 1 []), by decide +kernel⟩,
   ⟨4, xp 5, stOf (fHub 4 (ffo [(xp 5, 0)]) 1 1 []), by decide +kernel⟩,
   ⟨4, xw 1 true, 0, [], stOf (fHub 4 { ffo [(xw 1 true, 0)] with errors := [(0, 1)] } 1 1 []), by decide +kernel⟩,
   ⟨4, xw 1 true, 0, [], stOf (fHub 4 { ffo [(xw 1 true, 0)] with errors := [(0, 2)] } 1 1 []), by decide +kernel⟩,
   ⟨4, stOf (fHub 4 { ffo [(xw 1 true, 0)] with settings := 7 * 2 ^ 50 } 1 1 []), by decide +kernel⟩⟩

theorem test_hyps_FifosKeepWordsInOrder_3 :
    (∃ p : Path, ∃ f : Fin 128, ∃ x : Fifo, ∃ s : State, WriteOpen p (0x3200 + f) 8 1 s.hub ∧ softwareConsumer s.hub f = true ∧ x = fifo
        s.hub f)
    ∧ (∃ p : Path, ∃ f : Fin 128, ∃ x : Fifo, ∃ s : State, WriteOpen p (0x3200 + f) 8 2 s.hub ∧ softwareConsumer s.hub f = true ∧ x = fifo
        s.hub f ∧ x.mark = true)
    ∧ (∃ p : Path, ∃ f : Fin 128, ∃ x : Fifo, ∃ s : State, WriteOpen p (0x3200 + f) 8 2 s.hub ∧ softwareConsumer s.hub f = true ∧ x = fifo
        s.hub f ∧ x.mark = false)
    ∧ (∃ p : Path, ∃ f : Fin 128, ∃ n : Nat, ∃ x : Fifo, ∃ s : State, WriteOpen p (0x3200 + f) 8 (3 + 256 * n) s.hub ∧ softwareConsumer
        s.hub f = true ∧ x = fifo s.hub f ∧ n < 65536 ∧ x.read ≤ x.words.length ∧ 0 < n ∧ n ≤ x.read)
    ∧ (∃ p : Path, ∃ f : Fin 128, ∃ n : Nat, ∃ x : Fifo, ∃ s : State, WriteOpen p (0x3200 + f) 8 (3 + 256 * n) s.hub ∧ softwareConsumer
        s.hub f = true ∧ x = fifo s.hub f ∧ n < 65536 ∧ x.read ≤ x.words.length ∧ n = 0)
    ∧ (∃ p : Path, ∃ f : Fin 128, ∃ n : Nat, ∃ x : Fifo, ∃ s : State, WriteOpen p (0x3200 + f) 8 (3 + 256 * n) s.hub ∧ softwareConsumer
        s.hub f = true ∧ x = fifo s.hub f ∧ n < 65536 ∧ x.read ≤ x.words.length ∧ x.read < n)
    ∧ (∃ p : Path, ∃ f : Fin 128, ∃ v : Nat, ∃ s : State, WriteOpen p (0x3200 + f) 3 v s.hub ∧ 1 ≤ v ∧ v ≤ 64 ∧ rd s.hub (fifoKey f 1) ≠ 0
        ∧ v ≤ (fifo s.hub f).pages + rd s.hub 0x4700_01 ∧ (wholePackets (fifo s.hub f) = false ∨ fifoPackets (fifo s.hub f) ≠ 0 ∨ fifoFill
        (fifo s.hub f) < 256 * v))
    ∧ (∃ p : Path, ∃ f : Fin 128, ∃ v : Nat, ∃ x : Fifo, ∃ s : State, WriteOpen p (0x3200 + f) 3 v s.hub ∧ 1 ≤ v ∧ v ≤ 64 ∧ rd s.hub
        (fifoKey f 1) ≠ 0 ∧ x = fifo s.hub f ∧ x.pages + rd s.hub 0x4700_01 < v) :=
  
      ⟨⟨.host, 4, fWords 3 (ffo []), stOf (fHub 4 (fWords 3 (ffo [])) 1 1 []), by (repeat' apply And.intro) <;> decide +kernel, by decide +kernel⟩,
   
      ⟨.host, 4, { fWords 3 (ffo []) with mark := true, read := 2 }, stOf (fHub 4 { fWords 3 (ffo []) with mark := true, read := 2 } 1 1 []), by (repeat' apply And.intro) <;> decide +kernel, by decide +kernel⟩,
   
      ⟨.host, 4, fWords 3 (ffo []), stOf (fHub 4 (fWords 3 (ffo [])) 1 1 []), by (repeat' apply And.intro) <;> decide +kernel, by decide +kernel⟩,
   
      ⟨.host, 4, 2, { fWords 3 (ffo []) with mark := true, read := 2 }, stOf (fHub 4 { fWords 3 (ffo []) with mark := true, read := 2 } 1 1 []), by (repeat' apply And.intro) <;> decide +kernel, by decide +kernel⟩,
   
      ⟨.host, 4, 0, { fWords 3 (ffo []) with mark := true, read := 2 }, stOf (fHub 4 { fWords 3 (ffo []) with mark := true, read := 2 } 1 1 []), by (repeat' apply And.intro) <;> decide +kernel, by decide +kernel⟩,
   
      ⟨.host, 4, 3, { fWords 3 (ffo []) with mark := true, read := 2 }, stOf (fHub 4 { fWords 3 (ffo []) with mark := true, read := 2 } 1 1 []), by (repeat' apply And.intro) <;> decide +kernel, by decide +kernel⟩,
   ⟨.host, 4, 2, stOf (fHub 4 (ffo []) 1 1 []), by unfold WriteOpen; decide +kernel⟩,
   
      ⟨.host, 4, 64, fWords 3 (ffo []), stOf (wrs (fHub 4 (fWords 3 (ffo [])) 1 1 []) [(0x2000_01, 2), (0x4700_01, 62)]), by (repeat' apply And.intro) <;> decide +kernel, by decide +kernel⟩⟩

theorem test_hyps_FifosKeepWordsInOrder_4 :
    (∃ f : Fin 128, ∃ s : State, (fifo s.hub f).stop = true ∧ (fifo s.hub f).reported = false ∧ fifoEvent (fifo s.hub f) = false ∧ bits
        (fifo s.hub f).settings 31 24 ≠ 0 ∧ (fifo s.hub f).stopAt + bits (fifo s.hub f).settings 31 24 * 10000000 ≤ stampNs s.hub 0)
    ∧ (∃ f : Fin 128, ∃ s : State, ((fifo s.hub f).stop = false ∨ (fifo s.hub f).reported = true ∨ fifoEvent (fifo s.hub f) = true ∨ bits
        (fifo s.hub f).settings 31 24 = 0 ∨ stampNs s.hub 0 < (fifo s.hub f).stopAt + bits (fifo s.hub f).settings 31 24 * 10000000))
    ∧ (∃ f : Fin 128, ∃ at0, ∃ s : State, fifoEvent (fifo s.hub f) = true ∧ (fifo s.hub f).lastCommit = some at0 ∧ at0 + bits (fifo s.hub
        f).settings 47 32 * 1000 ≤ stampNs s.hub 0 ∧ rd s.hub (fifoKey f 1) = 2 ∧ (fifo s.hub f).read < (fifo s.hub f).words.length)
    ∧ (∃ f : Fin 128, ∃ at0, ∃ s : State, fifoEvent (fifo s.hub f) = true ∧ (fifo s.hub f).lastCommit = some at0 ∧ at0 + bits (fifo s.hub
        f).settings 47 32 * 1000 ≤ stampNs s.hub 0 ∧ rd s.hub (fifoKey f 1) = 1 ∧ (fifo s.hub f).read < (fifo s.hub f).words.length ∧
        endKind (fifo s.hub f).consumer = 0 ∧ (fifo s.hub f).notified = false)
    ∧ (∃ f : Fin 128, ∃ at0, ∃ s : State, fifoEvent (fifo s.hub f) = true ∧ (fifo s.hub f).lastCommit = some at0 ∧ at0 + bits (fifo s.hub
        f).settings 47 32 * 1000 ≤ stampNs s.hub 0 ∧ rd s.hub (fifoKey f 1) ≠ 0 ∧ (fifo s.hub f).words.length ≤ (fifo s.hub f).read)
    ∧ (∃ f : Fin 128, ∃ s : State, (fifoEvent (fifo s.hub f) = false ∨ rd s.hub (fifoKey f 1) = 0 ∨ (fifo s.hub f).lastCommit = none ∨ (∃
        at0, (fifo s.hub f).lastCommit = some at0 ∧ stampNs s.hub 0 < at0 + bits (fifo s.hub f).settings 47 32 * 1000))) :=
  ⟨⟨4, stOf (late (fHub 4 { ffo [] with stop := true, settings := 2 ^ 24 } 1 1 [])), by decide +kernel⟩,
   ⟨4, stOf (fHub 4 (ffo []) 1 1 []), by decide +kernel⟩,
   ⟨4, 0, stOf (late (fHub 4 { ffo [(xw 1 true, 0)] with lastCommit := some 0, settings := 2 ^ 32 + 1 } 2 1 [])), by decide +kernel⟩,
   ⟨4, 0, stOf (late (fHub 4 { ffo [(xw 1 true, 0)] with lastCommit := some 0, settings := 2 ^ 32 + 1 } 1 1 [])), by decide +kernel⟩,
   ⟨4, 0, stOf (late (fHub 4 { ffo [] with lastCommit := some 0, settings := 2 ^ 32 + 1 } 1 1 [])), by decide +kernel⟩,
   ⟨4, stOf (fHub 4 (ffo []) 1 1 []), by decide +kernel⟩⟩

theorem test_hyps_StreamsDeliverEachWordOnce :
    (∃ f : Fin 128, ∃ first : Nat, ∃ s : State, rd s.hub (fifoKey f 1) = 2 ∧ (sendable (fifo s.hub f)).head?.map (·.2) = some first ∧
        ((sendable (fifo s.hub f)).length = 226 ∨ (fifo s.hub f).due = true) ∧ (s.hub.sleep.holding = false ∨ streamClass (fifo s.hub f) =
        .ur) ∧ (∀ w ∈ (sendable (fifo s.hub f)), w.1.poison = false) ∧ (fifo s.hub f).errors = [] ∧ hubNumber s.hub ≠ 0)
    ∧ (∃ f : Fin 128, ∃ s : State, (sendable (fifo s.hub f) = [] ∨ rd s.hub (fifoKey f 1) ≠ 2 ∨ ((sendable (fifo s.hub f)).length < 226 ∧
        (fifo s.hub f).due = false) ∨ (s.hub.sleep.holding = true ∧ streamClass (fifo s.hub f) = .bk)))
    ∧ (∃ src : Nat, ∃ handle : Nat, ∃ first : Nat, ∃ words : List StreamWord, ∃ f : Nat, ∃ s : State, src ≠ 0 ∧ findFifo s.hub 1 handle =
        some f ∧ f < 128 ∧ 1 ≤ (words.length) ∧ (words.length) ≤ 226 ∧ words.all streamWordOk = true ∧ hubNumber s.hub ≠ 0 ∧ (idxAhead
        (fifo s.hub f).e first) < (words.length) ∧ FifoOpen f s.hub ∧ (fifo s.hub f).packer = [] ∧ (fifo s.hub f).words.length + 2 +
        (words.length) < fifoCapacity s.hub f)
    ∧ (∃ src : Nat, ∃ handle : Nat, ∃ first : Nat, ∃ words : List StreamWord, ∃ f : Nat, ∃ s : State, src ≠ 0 ∧ findFifo s.hub 1 handle =
        some f ∧ f < 128 ∧ 1 ≤ (words.length) ∧ (words.length) ≤ 226 ∧ words.all streamWordOk = true ∧ hubNumber s.hub ≠ 0 ∧
        (words.length) ≤ idxAhead (fifo s.hub f).e first ∧ idxAhead (fifo s.hub f).e first ≤ 2 ^ 23)
    ∧ (∃ src : Nat, ∃ handle : Nat, ∃ first : Nat, ∃ words : List StreamWord, ∃ f : Nat, ∃ s : State, src ≠ 0 ∧ findFifo s.hub 1 handle =
        some f ∧ f < 128 ∧ 1 ≤ (words.length) ∧ (words.length) ≤ 226 ∧ words.all streamWordOk = true ∧ hubNumber s.hub ≠ 0 ∧
        (words.length) ≤ idxAhead (fifo s.hub f).e first ∧ 2 ^ 23 < idxAhead (fifo s.hub f).e first)
    ∧ (∃ src : Nat, ∃ handle : Nat, ∃ words : List StreamWord, ∃ f : Nat, ∃ s : State, src ≠ 0 ∧ findFifo s.hub 1 handle = some f ∧
        (words.all streamWordOk = false ∨ 226 < words.length))
    ∧ (∃ h : Hub, rd h 0x2310_02 ≠ 0)
    ∧ (∃ handle : Nat, ∃ hub, ∃ h : Hub, ∃ c, rd h 0x2310_02 = 0 ∧ tabGet [] h.forester.counts handle = [(hub, c)]) :=
  ⟨⟨4, 3, stOf (fHub 4 { f200 with due := true } 2 1 []), by decide +kernel⟩,
   ⟨4, stOf (fHub 4 f200 2 1 []), by decide +kernel⟩,
   ⟨7, 77, 1, [sw 8 true 6, sw 9 true 6], 4, stOf (fHub 4 (ffo [(xw 1 true, 0)]) 1 1 []), by unfold FifoOpen; decide +kernel⟩,
   ⟨7, 77, 2 ^ 24 - 1, [sw 8 true 6, sw 9 true 6], 4, stOf (fHub 4 (ffo [(xw 1 true, 0)]) 1 1 []), by decide +kernel⟩,
   ⟨7, 77, 5, [sw 8 true 6, sw 9 true 6], 4, stOf (fHub 4 (ffo [(xw 1 true, 0)]) 1 1 []), by decide +kernel⟩,
   ⟨7, 77, List.replicate 227 (sw 8 true 6), 4, stOf (fHub 4 (ffo []) 1 1 []), by decide +kernel⟩,
   ⟨hubIn 3 [(0x2310_02, 1)], by decide +kernel⟩,
   ⟨9, 5, { hubIn 3 [(0x2310_02, 0)] with forester := { Hub.reset.forester with counts := [(9, [(5, [1])])] } }, [1], by decide +kernel⟩⟩

theorem test_hyps_StreamsDeliverEachWordOnce_2 :
    (∃ handle : Nat, ∃ f : Nat, ∃ s : State, findFifo s.hub 2 handle = some f ∧ f < 128)
    ∧ (∃ f : Fin 128, ∃ s : State, rd s.hub (fifoKey f 1) = 1 ∧ streamPeer (fifo s.hub f) ≠ 0 ∧ hubNumber s.hub ≠ 0)
    ∧ (∃ f : Fin 128, ∃ x : Fifo, ∃ s : State, x = fifo s.hub f ∧ (rd s.hub (fifoKey f 1) ≠ 1 ∨ streamPeer x = 0))
    ∧ (∃ f : Fin 128, ∃ w : XWord, ∃ i : Nat, ∃ rest : List (XWord × Nat), ∃ s : State, rd s.hub (fifoKey f 1) = 2 ∧ 0 < (fifo s.hub
        f).read ∧ (fifo s.hub f).words = (w, i) :: rest ∧ idxBefore i (fifo s.hub f).limit = true ∧ i < 2 ^ 24 ∧ (fifo s.hub f).errors =
        [] ∧ hubNumber s.hub ≠ 0 ∧ (s.hub.sleep.holding = false ∨ streamClass (fifo s.hub f) = .ur) ∧ rd s.hub (fifoKey f 2) < 2 ^ 24)
    ∧ (∃ f : Fin 128, ∃ s : State, (rd s.hub (fifoKey f 1) ≠ 2 ∨ (fifo s.hub f).read = 0)) :=
  ⟨⟨77, 4, stOf (fHub 4 f200 2 1 []), by decide +kernel⟩,
   ⟨4, stOf (fHub 4 f200 1 1 []), by decide +kernel⟩,
   ⟨4, f200, stOf (fHub 4 f200 2 1 []), by decide +kernel⟩,
   ⟨4, xw 1 false, 3, [(xw 2 false, 4), (xw 3 true, 5)], stOf (fHub 4 { f200 with read := 2 } 2 1 []), by decide +kernel⟩,
   ⟨4, stOf (fHub 4 f200 2 1 []), by decide +kernel⟩⟩

theorem test_hyps_CanFramesAreRouted :
    (∃ c : Fin 16, ∃ s : State, canTakesPart s.hub c = false)
    ∧ (∃ c : Fin 16, ∃ f : CanFrame, ∃ s : State, canTakesPart s.hub c = true ∧ (f.fdf = false ∨ fdEnabled s.hub c = true) ∧ rd s.hub
        (canStat c 3) ≤ 127 ∧ rd s.hub (canStat c 2) ≤ 255 ∧ isCanopen s.hub c = false ∧ (∀ k, k < 32 → passes s.hub c k f = false))
    ∧ (∃ c : Fin 16, ∃ f : CanFrame, ∃ s : State, ∃ k : Nat, canTakesPart s.hub c = true ∧ (f.fdf = false ∨ fdEnabled s.hub c = true) ∧ rd
        s.hub (canStat c 3) ≤ 127 ∧ rd s.hub (canStat c 2) ≤ 255 ∧ k < 32 ∧ passes s.hub c k f = true ∧ (∀ j, j < k → passes s.hub c j f =
        false) ∧ isCanopen s.hub c = false ∧ (bits (rd s.hub (slotKey (0x3440 + c) (2 * k + 1) + 1)) 39 32) < 64 ∧ bufDir s.hub c (bits
        (rd s.hub (slotKey (0x3440 + c) (2 * k + 1) + 1)) 39 32) = 1)
    ∧ (∃ c : Fin 16, ∃ f : CanFrame, ∃ s : State, ∃ k : Nat, canTakesPart s.hub c = true ∧ (f.fdf = false ∨ fdEnabled s.hub c = true) ∧ rd
        s.hub (canStat c 3) ≤ 127 ∧ rd s.hub (canStat c 2) ≤ 255 ∧ k < 32 ∧ passes s.hub c k f = true ∧ (∀ j, j < k → passes s.hub c j f =
        false) ∧ isCanopen s.hub c = false ∧ (bits (rd s.hub (slotKey (0x3440 + c) (2 * k + 1) + 1)) 39 32) < 64 ∧ bufDir s.hub c (bits
        (rd s.hub (slotKey (0x3440 + c) (2 * k + 1) + 1)) 39 32) ≠ 1)
    ∧ (∃ c : Fin 16, ∃ f : CanFrame, ∃ s : State, ∃ k : Nat, ∃ q, canTakesPart s.hub c = true ∧ (f.fdf = false ∨ fdEnabled s.hub c = true)
        ∧ rd s.hub (canStat c 3) ≤ 127 ∧ rd s.hub (canStat c 2) ≤ 255 ∧ k < 32 ∧ passes s.hub c k f = true ∧ (∀ j, j < k → passes s.hub c
        j f = false) ∧ isCanopen s.hub c = false ∧ (bits (rd s.hub (slotKey (0x3440 + c) (2 * k + 1) + 1)) 39 32) = 0x40 ∧ fifoFrom s.hub
        2 c = some q ∧ FifoOpen q s.hub ∧ (fifo s.hub q).packer = [] ∧ (fifo s.hub q).words.length + 4 + (f.data.length + 5) / 6 <
        fifoCapacity s.hub q ∧ crossingShut s.hub 0x10 0 = false ∧ (crossing s.hub 0x10 0).entries = [])
    ∧ (∃ c : Fin 16, ∃ f : CanFrame, ∃ s : State, ∃ cob : Nat, canTakesPart s.hub c = true ∧ isCanopen s.hub c = true ∧ rd s.hub (canStat
        c 3) ≤ 127 ∧ f.fdf = false ∧ f.ide = false ∧ f.rtr = false ∧ sdoCob s.hub 0 = some (f.id, cob) ∧ f.data.length = 8 ∧ bits
        ((f.data.headD 0).toNat) 7 5 ≠ 7)
    ∧ (∃ c : Fin 16, ∃ f : CanFrame, ∃ s : State, canTakesPart s.hub c = true ∧ isCanopen s.hub c = true ∧ rd s.hub (canStat c 3) ≤ 127 ∧
        f.fdf = false ∧ f.ide = false ∧ f.rtr = false ∧ f.id = 0 ∧ (∀ n, n < 4 → ∀ cob, sdoCob s.hub n ≠ some (0, cob)))
    ∧ (∃ c : Fin 16, ∃ err : CanError, ∃ s : State, canTakesPart s.hub c = true ∧ err ≠ .none ∧ err ≠ .protocolException ∧ rd s.hub
        (canStat c 3) ≤ 118 ∧ rd s.hub (canStat c 2) ≤ 127) :=
  ⟨⟨3, stOf (canHub [(canStat 3 1, 1)]), by decide +kernel⟩,
   ⟨3, cf8, stOf (canHub [(canStat 3 3, 5)]), by decide +kernel⟩,
   ⟨3, cf8, stOf (canHub (filt 31 63 ++ [(bufKey 3 63 1, 1), (bufKey 3 63 14, 255)])), 31, by decide +kernel⟩,
   ⟨3, cf8, stOf (canHub (filt 31 63 ++ [(bufKey 3 63 1, 2), (bufKey 3 63 14, 255)])), 31, by decide +kernel⟩,
   ⟨3, cf8, stOf { canHub (filt 31 0x40 ++ [(fifoKey 4 1, 1), (fifoKey 4 3, 1)]) with fifos := [(4, canFifo)] }, 31, 4,
      by unfold FifoOpen; decide +kernel⟩,
   ⟨3, { cf8 with id := 0x605 }, stOf (sdoHub [] []), 0x585, by decide +kernel⟩,
   ⟨3, { cf8 with id := 0 }, stOf (sdoHub [] []), ⟨by decide +kernel, by decide +kernel, by decide +kernel, by decide +kernel,
      by decide +kernel, by decide +kernel, by decide +kernel, fun n hn cob h => (by decide +kernel : ∀ n, n < 4 → (sdoCob (stOf (sdoHub
      [] [])).hub n).map (·.1) ≠ some 0) n hn (congrArg (Option.map (·.1)) h)⟩⟩,
   ⟨3, .crc, stOf (canHub [(canStat 3 3, 118)]), by decide +kernel⟩⟩

theorem test_hyps_CanFramesAreRouted_2 :
    (∃ c : Fin 16, ∃ s : State, canTakesPart s.hub c = true ∧ fdEnabled s.hub c = false ∧ bit (rd s.hub (canCfg c 2)) 2 = true ∧ (can
        s.hub c).onBus = none)
    ∧ (∃ p : Path, ∃ c : Fin 16, ∃ b : Fin 64, ∃ s : State, served s.hub p = true ∧ pathWaits s.hub p = false ∧ refusalCode (readCauses
        s.hub (bufKey c b 14 / 256) (bufKey c b 14 % 256)) = none)
    ∧ (∃ c : Fin 16, ∃ s : State, canState s.hub c ≠ 0)
    ∧ (∃ c : Fin 16, ∃ s : State, canState s.hub c = 0) :=
  ⟨⟨3, stOf (canHub [(canCfg 3 2, 4)]), by decide +kernel⟩,
   ⟨.host, 3, 63, stOf (canHub [(bufKey 3 63 14, 255), (bufKey 3 63 3, 7)]), by decide +kernel⟩,
   ⟨3, stOf (canHub []), by decide +kernel⟩,
   ⟨3, stOf (canHub [(canCfg 3 1, 0)]), by decide +kernel⟩⟩

theorem test_hyps_CanTransmitsUntilSent :
    (∃ p : Path, ∃ c : Fin 16, ∃ b : Nat, ∃ x : CanCtl, ∃ s : State, WriteOpen p (0x2810 + c) 9 b s.hub ∧ b < 64 ∧ x = can s.hub c ∧
        bufDir s.hub c b = 2 ∧ x.onBus ≠ some (.buffer b) ∧ b ∉ x.pending)
    ∧ (∃ p : Path, ∃ c : Fin 16, ∃ b : Nat, ∃ x : CanCtl, ∃ s : State, WriteOpen p (0x2810 + c) 9 b s.hub ∧ b < 64 ∧ x = can s.hub c ∧
        bufDir s.hub c b = 2 ∧ x.onBus ≠ some (.buffer b) ∧ b ∈ x.pending)
    ∧ (∃ p : Path, ∃ c : Fin 16, ∃ b : Nat, ∃ x : CanCtl, ∃ s : State, WriteOpen p (0x2810 + c) 9 b s.hub ∧ b < 64 ∧ x = can s.hub c ∧
        bufDir s.hub c b = 2 ∧ x.onBus = some (.buffer b))
    ∧ (∃ p : Path, ∃ c : Fin 16, ∃ b : Nat, ∃ x : CanCtl, ∃ s : State, WriteOpen p (0x2810 + c) 10 b s.hub ∧ b < 64 ∧ x = can s.hub c)
    ∧ (∃ c : Fin 16, ∃ src : CanSource, ∃ fr : CanFrame, ∃ x : CanCtl, ∃ s : State, canSends s.hub c = true ∧ x = can s.hub c ∧ x.onBus =
        none ∧ winner (canCandidates s.hub c) = some (src, fr) ∧ fifoTo s.hub 2 c = none ∧ src ≠ .stream)
    ∧ (∃ c : Fin 16, ∃ fr : CanFrame, ∃ s : State, ∃ q : Nat, ∃ ws : List XWord, canSends s.hub c = true ∧ (can s.hub c).onBus = none ∧
        winner (canCandidates s.hub c) = some ((.stream), fr) ∧ fifoTo s.hub 2 c = some q ∧ headPacket s.hub q = some ws ∧ (ws.all fun w
        => !w.poison) = true ∧ (fifo s.hub q).errors = [])
    ∧ (∃ c : Fin 16, ∃ q : Nat, ∃ ws : List XWord, ∃ s : State, canSends s.hub c = true ∧ (can s.hub c).onBus = none ∧ canMode s.hub c = 1
        ∧ fifoTo s.hub 2 c = some q ∧ headPacket s.hub q = some ws ∧ fifoPackets (fifo s.hub q) = 1 ∧ (ws.all fun w => !w.poison) = true ∧
        packetFrame s.hub c ws = none ∧ (fifo s.hub q).errors = [])
    ∧ (∃ xs : List (CanSource × CanFrame), ∃ src : CanSource, ∃ fr : CanFrame, ∃ y : CanSource × CanFrame, winner xs = some (src, fr) ∧ y
        ∈ xs) :=
  
      ⟨⟨.host, 3, 63, can (canHub []) 3, stOf (canHub [(bufKey 3 63 1, 2)]), by (repeat' apply And.intro) <;> decide +kernel, by decide +kernel⟩,
   
      ⟨.host, 3, 9, can (onBus 63 []) 3, stOf (onBus 63 [(bufKey 3 9 1, 2)]), by (repeat' apply And.intro) <;> decide +kernel, by decide +kernel⟩,
   ⟨.host, 3, 63, can (onBus 63 []) 3, stOf (onBus 63 []), by (repeat' apply And.intro) <;> decide +kernel, by decide +kernel⟩,
   ⟨.host, 3, 63, can (onBus 63 []) 3, stOf (onBus 63 []), by (repeat' apply And.intro) <;> decide +kernel, by decide +kernel⟩,
   ⟨3, .buffer 9, (fun s => bufFrame s.hub 3 9) (stOf (canHub [(bufKey 3 9 1, 0x802), (bufKey 3 9 2, 0x123), (bufKey 3 9 3, 77)])), (fun
      (c : Fin 16) (s : State) => can s.hub c) (3) (stOf (setCan (canHub [(bufKey 3 9 1, 0x802), (bufKey 3 9 2, 0x123), (bufKey 3 9 3,
      77), (bufKey 3 8 1, 0x802), (bufKey 3 8 2, 0x124)]) 3 { can (canHub []) 3 with pending := [9, 8] })), stOf (setCan (canHub [(bufKey
      3 9 1, 0x802), (bufKey 3 9 2, 0x123), (bufKey 3 9 3, 77), (bufKey 3 8 1, 0x802), (bufKey 3 8 2, 0x124)]) 3
      { can (canHub []) 3 with pending := [9, 8] }), by decide +kernel, rfl, by decide +kernel⟩,
   ⟨3, { cf8 with sof := 0 }, stOf (canStream 0x8000000123), 4, (toFifo 0x8000000123).words.map (·.1), by decide +kernel⟩,
   ⟨3, 4, (toFifo 0x7000000123).words.map (·.1), stOf (canStream 0x7000000123), by decide +kernel⟩,
   ⟨[(.heartbeat, cf8), (.sdo, { cf8 with id := 5 })], .sdo, { cf8 with id := 5 }, (.heartbeat, cf8), by decide +kernel⟩⟩

theorem test_hyps_CanTransmitsUntilSent_2 :
    (∃ xs : List (CanSource × CanFrame), ∃ src : CanSource, ∃ fr : CanFrame, winner xs = some (src, fr))
    ∧ (∃ c : Fin 16, ∃ s : State, (canSends s.hub c = false ∨ (can s.hub c).onBus.isSome = true))
    ∧ (∃ c : Fin 16, ∃ x : CanCtl, ∃ b : Nat, ∃ info : Nat, ∃ s : State, x = can s.hub c ∧ x.onBus = some (.buffer b) ∧ x.staged = none ∧
        b < 64 ∧ bit (rd s.hub (canCfg c 5)) 0 = false ∧ info = rd s.hub (bufKey c b 14) ∧ x.sof < 2 ^ 48)
    ∧ (∃ c : Fin 16, ∃ x : CanCtl, ∃ b : Nat, ∃ info : Nat, ∃ s : State, ∃ code : Nat, x = can s.hub c ∧ x.onBus = some (.buffer b) ∧
        x.staged = none ∧ b < 64 ∧ bit (rd s.hub (canCfg c 5)) 0 = false ∧ info = rd s.hub (bufKey c b 14) ∧ x.sof < 2 ^ 48 ∧ (code < 3 ∨
        3 < code ∧ code < 7) ∧ canCounts s.hub c = true ∧ rd s.hub (canStat c 1) = 2 ∧ rd s.hub (canStat c 2) + 8 ≤ 127 ∧ rd s.hub
        (canStat c 3) ≤ 127)
    ∧ (∃ c : Fin 16, ∃ x : CanCtl, ∃ b : Nat, ∃ info : Nat, ∃ s : State, ∃ code : Nat, x = can s.hub c ∧ x.onBus = some (.buffer b) ∧
        x.staged = none ∧ b < 64 ∧ bit (rd s.hub (canCfg c 5)) 0 = false ∧ info = rd s.hub (bufKey c b 14) ∧ x.sof < 2 ^ 48 ∧ (code < 3 ∨
        3 < code ∧ code < 7) ∧ canCounts s.hub c = true ∧ rd s.hub (canStat c 1) = 3 ∧ 247 < rd s.hub (canStat c 2) ∧ rd s.hub (canStat c
        2) ≤ 255)
    ∧ (∃ c : Fin 16, ∃ s : State, (can s.hub c).onBus = none)
    ∧ (∃ c : Fin 16, ∃ s : State, rd s.hub (canStat c 1) = 4)
    ∧ (∃ c : Fin 16, ∃ s : State, rd s.hub (canStat c 1) ≠ 4) :=
  ⟨⟨[(.heartbeat, cf8), (.sdo, { cf8 with id := 5 })], .sdo, { cf8 with id := 5 }, by decide +kernel⟩,
   ⟨3, stOf (onBus 63 []), by decide +kernel⟩,
   ⟨3, can (onBus 63 []) 3, 63, (fun (c : Fin 16) b (s : State) => rd s.hub (bufKey c b 14)) (3) (63) (stOf (onBus 63 [(bufKey 3 63 14,
      255), (canCfg 3 5, 0), (canStat 3 2, 5)])), stOf (onBus 63 [(bufKey 3 63 14, 255), (canCfg 3 5, 0), (canStat 3 2, 5)]),
      by decide +kernel, by decide +kernel, by decide +kernel, by decide +kernel, by decide +kernel, rfl, by decide +kernel⟩,
   ⟨3, can (onBus 63 []) 3, 63, (fun (c : Fin 16) b (s : State) => rd s.hub (bufKey c b 14)) (3) (63) (stOf (onBus 63 [(bufKey 3 63 14,
      255), (canCfg 3 5, 0), (canStat 3 2, 119)])), stOf (onBus 63 [(bufKey 3 63 14, 255), (canCfg 3 5, 0), (canStat 3 2, 119)]), 4,
      by decide +kernel, by decide +kernel, by decide +kernel, by decide +kernel, by decide +kernel, rfl, by decide +kernel,
      by first | decide +kernel | exact Or.inl (by decide +kernel) | exact Or.inr (Or.inl (by decide +kernel)) | exact Or.inr (Or.inr (by decide +kernel)),
      by decide +kernel⟩,
   ⟨3, can (onBus 63 []) 3, 63, (fun (c : Fin 16) b (s : State) => rd s.hub (bufKey c b 14)) (3) (63) (stOf (onBus 63 [(bufKey 3 63 14,
      255), (canCfg 3 5, 0), (canStat 3 1, 3), (canStat 3 2, 248), (canCfg 3 6, 255), (canCfg 3 7, 10)])), stOf (onBus 63 [(bufKey 3 63
      14, 255), (canCfg 3 5, 0), (canStat 3 1, 3), (canStat 3 2, 248), (canCfg 3 6, 255), (canCfg 3 7, 10)]), 6, by decide +kernel,
      by decide +kernel, by decide +kernel, by decide +kernel, by decide +kernel, rfl, by decide +kernel,
      by first | decide +kernel | exact Or.inl (by decide +kernel) | exact Or.inr (Or.inl (by decide +kernel)) | exact Or.inr (Or.inr (by decide +kernel)),
      by decide +kernel⟩,
   ⟨3, stOf (canHub []), by decide +kernel⟩,
   ⟨3, stOf (canHub [(canStat 3 1, 4), (canStat 3 2, 9)]), by decide +kernel⟩,
   ⟨3, stOf (canHub []), by decide +kernel⟩⟩

theorem test_hyps_CanTransmitsUntilSent_3 :
    (∃ c : Fin 16, ∃ s : State, canState s.hub c = 1)
    ∧ (∃ c : Fin 16, ∃ s : State, canState s.hub c ≠ 1)
    ∧ (∃ p : Path, ∃ c : Fin 16, ∃ sub : Nat, ∃ v : Nat, ∃ s : State, WriteOpen p (0x2810 + c) sub v s.hub ∧ 1 ≤ sub ∧ sub ≤ 8 ∧ v < 2 ^
        48 ∧ entryBad (0x2810 + c) sub v = false ∧ (can s.hub c).onBus = none ∧ timingBad s.hub c sub v = false)
    ∧ (∃ p : Path, ∃ c : Fin 16, ∃ sub : Nat, ∃ v : Nat, ∃ s : State, WriteOpen p (0x2810 + c) sub v s.hub ∧ 1 ≤ sub ∧ sub ≤ 8 ∧ v < 2 ^
        48 ∧ entryBad (0x2810 + c) sub v = false ∧ (can s.hub c).onBus = none ∧ timingBad s.hub c sub v = true)
    ∧ (∃ p : Path, ∃ c : Fin 16, ∃ sub : Nat, ∃ v : Nat, ∃ s : State, WriteOpen p (0x2810 + c) sub v s.hub ∧ 1 ≤ sub ∧ sub ≤ 8 ∧ v < 2 ^
        48 ∧ entryBad (0x2810 + c) sub v = false ∧ timingBad s.hub c sub v = false ∧ (can s.hub c).onBus.isSome = true)
    ∧ (∃ p : Path, ∃ c : Fin 16, ∃ x : CanCtl, ∃ s : State, x = can s.hub c ∧ WriteOpen p (0x2810 + c) 11 1 s.hub ∧ canState s.hub c = 5)
    ∧ (∃ p : Path, ∃ c : Fin 16, ∃ x : CanCtl, ∃ s : State, x = can s.hub c ∧ WriteOpen p (0x2810 + c) 11 1 s.hub ∧ canState s.hub c ≠ 5)
    ∧ (∃ p : Path, ∃ c : Fin 16, ∃ x : CanCtl, ∃ s : State, x = can s.hub c ∧ WriteOpen p (0x2810 + c) 11 2 s.hub) :=
  ⟨⟨3, stOf (canHub [(canStat 3 1, 1), (canStat 3 2, 128)]), by decide +kernel⟩,
   ⟨3, stOf (canHub []), by decide +kernel⟩,
   ⟨.host, 3, 8, 2, stOf (wrs (canHub []) [(0x2000_01, 2)]), by (repeat' apply And.intro) <;> decide +kernel, by decide +kernel⟩,
   
      ⟨.host, 3, 3, 0x0000_7C07, stOf (wrs (canHub []) [(0x2000_01, 2)]), by (repeat' apply And.intro) <;> decide +kernel, by decide +kernel⟩,
   ⟨.host, 3, 8, 2, stOf (wrs (onBus 9 []) [(0x2000_01, 2)]), by unfold WriteOpen; decide +kernel⟩,
   
      ⟨.host, 3, can (onBus 63 []) 3, stOf (onBus 63 [(canStat 3 1, 5)]), by decide +kernel, by (repeat' apply And.intro) <;> decide +kernel, by decide +kernel⟩,
   
      ⟨.host, 3, can (onBus 63 []) 3, stOf (onBus 63 []), by decide +kernel, by (repeat' apply And.intro) <;> decide +kernel, by decide +kernel⟩,
   ⟨.host, 3, can (onBus 63 []) 3, stOf (onBus 63 []), by decide +kernel, by (repeat' apply And.intro) <;> decide +kernel⟩⟩

theorem test_hyps_SdoServerAndProcessObjects :
    (∃ ch : Fin 4, ∃ index : Nat, ∃ sub : Nat, ∃ data : List Byte, ∃ a : Hub, ∃ s : State, sdoServed s.hub ch = true ∧
        s.hub.canopen.received = [] ∧ a = sdoWrite (.sdo ch) index sub data (endTransfer ch s.hub) ∧ a.canopen.writes =
        s.hub.canopen.writes ∧ a.answer = .accepted)
    ∧ (∃ ch : Fin 4, ∃ index : Nat, ∃ sub : Nat, ∃ data : List Byte, ∃ a : Hub, ∃ s : State, ∃ c : Nat, sdoServed s.hub ch = true ∧
        s.hub.canopen.received = [] ∧ a = sdoWrite (.sdo ch) index sub data (endTransfer ch s.hub) ∧ a.canopen.writes =
        s.hub.canopen.writes ∧ a.answer = .refused c)
    ∧ (∃ ch : Fin 4, ∃ s : State, sdoServed s.hub ch = true ∧ s.hub.canopen.received = [])
    ∧ (∃ ch : Fin 4, ∃ data : List Byte, ∃ x : SdoTransfer, ∃ cob : Nat, ∃ s : State, sdoServed s.hub ch = true ∧ s.hub.canopen.received =
        [] ∧ transfer s.hub ch = some x ∧ (sdoCob s.hub ch).map (·.2) = some cob ∧ x.upload = false ∧ x.data.length + data.length ≤ 1530)
    ∧ (∃ ch : Fin 4, ∃ x : SdoTransfer, ∃ cob : Nat, ∃ s : State, sdoServed s.hub ch = true ∧ s.hub.canopen.received = [] ∧ transfer s.hub
        ch = some x ∧ (sdoCob s.hub ch).map (·.2) = some cob ∧ x.upload = false)
    ∧ (∃ ch : Fin 4, ∃ x : SdoTransfer, ∃ cob : Nat, ∃ s : State, sdoServed s.hub ch = true ∧ s.hub.canopen.received = [] ∧ transfer s.hub
        ch = some x ∧ (sdoCob s.hub ch).map (·.2) = some cob ∧ x.upload = true ∧ x.data.length ≤ 7)
    ∧ (∃ ch : Fin 4, ∃ x : SdoTransfer, ∃ cob : Nat, ∃ s : State, sdoServed s.hub ch = true ∧ s.hub.canopen.received = [] ∧ transfer s.hub
        ch = some x ∧ (sdoCob s.hub ch).map (·.2) = some cob ∧ x.upload = true ∧ 7 < x.data.length)
    ∧ (∃ ch : Fin 4, ∃ x : SdoTransfer, ∃ cob : Nat, ∃ s : State, sdoServed s.hub ch = true ∧ s.hub.canopen.received = [] ∧ transfer s.hub
        ch = some x ∧ (sdoCob s.hub ch).map (·.2) = some cob ∧ x.upload = true) :=
  ⟨⟨0, 0x2802, 3, [0x64, 0], (fun (ch : Fin 4) index sub data (s : State) => sdoWrite (.sdo ch) index sub data (endTransfer ch s.hub)) (0)
      (0x2802) (3) ([0x64, 0]) (stOf (sdoHub [] [])), stOf (sdoHub [] []), by decide +kernel, by decide +kernel, rfl, by decide +kernel⟩,
   ⟨0, 0x2802, 3, [0x64], (fun (ch : Fin 4) index sub data (s : State) => sdoWrite (.sdo ch) index sub data (endTransfer ch s.hub)) (0)
      (0x2802) (3) ([0x64]) (stOf (sdoHub [] [])), stOf (sdoHub [] []), 7, by decide +kernel, by decide +kernel, rfl, by decide +kernel⟩,
   ⟨0, stOf (sdoHub [] []), by decide +kernel⟩,
   ⟨0, [0], down, 0x585, stOf (sdoHub [(0, down)] []), by decide +kernel⟩,
   ⟨0, down, 0x585, stOf (sdoHub [(0, down)] []), by decide +kernel⟩,
   ⟨0, up5, 0x585, stOf (sdoHub [(0, up5)] []), by decide +kernel⟩,
   ⟨0, up9, 0x585, stOf (sdoHub [(0, up9)] []), by decide +kernel⟩,
   ⟨0, up9, 0x585, stOf (sdoHub [(0, up9)] []), by decide +kernel⟩⟩

theorem test_hyps_SdoServerAndProcessObjects_2 :
    (∃ ch : Fin 4, ∃ x : SdoTransfer, ∃ cob : Nat, ∃ s : State, sdoServed s.hub ch = true ∧ s.hub.canopen.received = [] ∧ transfer s.hub
        ch = some x ∧ (sdoCob s.hub ch).map (·.2) = some cob)
    ∧ (∃ ch : Fin 4, ∃ index : Nat, ∃ sub : Nat, ∃ bs : List Byte, ∃ a : Hub, ∃ cob : Nat, ∃ s : State, sdoServed s.hub ch = true ∧
        s.hub.canopen.received = [] ∧ sdoRead ch index sub (endTransfer ch s.hub) = (bs, a) ∧ (∀ c, a.answer ≠ .refused c) ∧ a.canopen =
        (endTransfer ch s.hub).canopen ∧ (sdoCob a ch).map (·.2) = some cob ∧ 1 ≤ bs.length ∧ bs.length ≤ 4)
    ∧ (∃ ch : Fin 4, ∃ index : Nat, ∃ sub : Nat, ∃ bs : List Byte, ∃ a : Hub, ∃ cob : Nat, ∃ s : State, sdoServed s.hub ch = true ∧
        s.hub.canopen.received = [] ∧ sdoRead ch index sub (endTransfer ch s.hub) = (bs, a) ∧ (∀ c, a.answer ≠ .refused c) ∧ a.canopen =
        (endTransfer ch s.hub).canopen ∧ (sdoCob a ch).map (·.2) = some cob ∧ 4 < bs.length)
    ∧ (∃ ch : Fin 4, ∃ index : Nat, ∃ sub : Nat, ∃ bs : List Byte, ∃ a : Hub, ∃ cob : Nat, ∃ s : State, ∃ size : Nat, sdoServed s.hub ch =
        true ∧ s.hub.canopen.received = [] ∧ sdoRead ch index sub (endTransfer ch s.hub) = (bs, a) ∧ (∀ c, a.answer ≠ .refused c) ∧
        a.canopen = (endTransfer ch s.hub).canopen ∧ (sdoCob a ch).map (·.2) = some cob ∧ 1 ≤ size ∧ size ≤ 127)
    ∧ (∃ ch : Fin 4, ∃ size : Nat, ∃ s : State, sdoServed s.hub ch = true ∧ (size = 0 ∨ 127 < size))
    ∧ (∃ ch : Fin 4, ∃ s : State, sdoServed s.hub ch = true)
    ∧ (∃ s : State, rd s.hub 0x1017_00 ≠ 0 ∧ rd s.hub 0x2802_01 ≠ 0xFF ∧ mode s.hub ≠ 1 ∧ mode s.hub ≠ 8 ∧ mode s.hub ≠ 6)
    ∧ (∃ s : State, (rd s.hub 0x1017_00 = 0 ∨ rd s.hub 0x2802_01 = 0xFF)) :=
  ⟨⟨0, up9, 0x585, stOf (sdoHub [(0, up9)] []), by decide +kernel⟩,
   ⟨0, 0x2802, 3, [0xE8, 3], (sdoRead 0 0x2802 3 (endTransfer 0 (sdoHub [(0, up9)] []))).2, 0x585, stOf (sdoHub [(0, up9)] []),
      ⟨by decide +kernel, by decide +kernel, Prod.ext (by decide +kernel) rfl, fun c hc => absurd (congrArg isRefused hc)
      (by decide +kernel : isRefused (sdoRead 0 0x2802 3 (endTransfer 0 (sdoHub [(0, up9)] []))).2.answer ≠ true), by decide +kernel,
      by decide +kernel, by decide +kernel, by decide +kernel⟩⟩,
   ⟨0, 0x1008, 0, (sdoRead 0 0x1008 0 (endTransfer 0 (sdoHub [] []))).1, (sdoRead 0 0x1008 0 (endTransfer 0 (sdoHub [] []))).2, 0x585,
      stOf (sdoHub [] []), ⟨by decide +kernel, by decide +kernel, rfl, fun c hc => absurd (congrArg isRefused hc)
      (by decide +kernel : isRefused (sdoRead 0 0x1008 0 (endTransfer 0 (sdoHub [] []))).2.answer ≠ true), by decide +kernel,
      by decide +kernel, by decide +kernel⟩⟩,
   ⟨0, 0x2802, 3, [0xE8, 3], (sdoRead 0 0x2802 3 (endTransfer 0 (sdoHub [(0, up9)] []))).2, 0x585, stOf (sdoHub [(0, up9)] []), 127,
      ⟨by decide +kernel, by decide +kernel, Prod.ext (by decide +kernel) rfl, fun c hc => absurd (congrArg isRefused hc)
      (by decide +kernel : isRefused (sdoRead 0 0x2802 3 (endTransfer 0 (sdoHub [(0, up9)] []))).2.answer ≠ true), by decide +kernel,
      by decide +kernel, by decide +kernel, by decide +kernel⟩⟩,
   ⟨0, 128, stOf (sdoHub [(0, up9)] []), by decide +kernel⟩,
   ⟨0, stOf (sdoHub [(0, up9)] []), by decide +kernel⟩,
   ⟨stOf (sdoHub [] []), by decide +kernel⟩,
   ⟨stOf (sdoHub [] [(0x1017_00, 0)]), by decide +kernel⟩⟩

theorem test_hyps_SdoServerAndProcessObjects_3 :
    (∃ p : Path, ∃ v : Nat, ∃ s : State, WriteOpen p 0x2802 2 v s.hub ∧ 1 ≤ v ∧ v ≤ 127)
    ∧ (∃ p : Path, ∃ index : Nat, ∃ sub : Nat, ∃ m : Nat, ∃ s : State, served s.hub p = true ∧ pathWaits s.hub p = false ∧ findMapping
        s.hub index sub = some m ∧ signalKnown s.hub (mapping s.hub m).1 = true)
    ∧ (∃ p : Path, ∃ index : Nat, ∃ sub : Nat, ∃ m : Nat, ∃ s : State, served s.hub p = true ∧ pathWaits s.hub p = false ∧ findMapping
        s.hub index sub = some m ∧ signalKnown s.hub (mapping s.hub m).1 = false)
    ∧ (∃ p : Path, ∃ index : Nat, ∃ sub : Nat, ∃ v : Nat, ∃ m : Nat, ∃ hd : Nat, ∃ sh : Nat, ∃ w : Nat, ∃ s : State, WriteOpen p index sub
        v s.hub ∧ findMapping s.hub index sub = some m ∧ mapping s.hub m = (hd, sh, w) ∧ processRo s.hub hd = false ∧ v < 2 ^ w ∧
        signalKnown s.hub hd = true ∧ 1 ≤ w ∧ (∀ e ∈ s.hub.canopen.writes, e.2.handle ≠ hd))
    ∧ (∃ p : Path, ∃ index : Nat, ∃ sub : Nat, ∃ v : Nat, ∃ m : Nat, ∃ hd : Nat, ∃ sh : Nat, ∃ w : Nat, ∃ s : State, ∃ e, WriteOpen p
        index sub v s.hub ∧ findMapping s.hub index sub = some m ∧ mapping s.hub m = (hd, sh, w) ∧ processRo s.hub hd = false ∧ v < 2 ^ w
        ∧ signalKnown s.hub hd = true ∧ 1 ≤ w ∧ e ∈ s.hub.canopen.writes ∧ e.2.handle = hd) :=
  ⟨⟨.host, 127, stOf (wrs (sdoHub [] []) [(0x2000_01, 2)]), by (repeat' apply And.intro) <;> decide +kernel, by decide +kernel⟩,
   ⟨.host, 0x6000, 1, 0, stOf { procHub with cyc := { procHub.cyc with image := [(wordKey 7 3, 0x1234, 0)] } }, by decide +kernel⟩,
   ⟨.host, 0x6000, 1, 0, stOf (wrs procHub [(0x2410_01, 0)]), by decide +kernel⟩,
   ⟨.host, 0x6000, 1, 255, 0, 77, 8, 8, stOf
      { procHub with canopen := { procHub.canopen with shadows := [(77, 0x123456)] }, canopy := { procHub.canopy with nextTag := 256 } },
      by unfold WriteOpen; decide +kernel⟩,
   ⟨.host, 0x6000, 1, 255, 0, 77, 8, 8, stOf (waitingOn (.ring 9) procHub), (1,
      { handle := 77, shift := 0, width := 48, value := 0, path := .ring 9, index := 0x6000, sub := 1, reply := .none }),
      by unfold WriteOpen; decide +kernel⟩⟩

theorem test_hyps_SleepRoundsAreAgreed :
    (∃ w : Nat, ∃ s : State, ∃ h : Hub, h = sampleWakeIn w s.hub ∧ rdB h 0x2D01_02 = true ∧ keepAwake h = 0 ∧ roundState h ≠ 1 ∧ committed
        h = false ∧ hubNumber h ≠ 0 ∧ serving h = true ∧ othersPresent h ≠ [])
    ∧ (∃ w : Nat, ∃ s : State, (rdB (sampleWakeIn w s.hub) 0x2D01_02 = false ∨ keepAwake (sampleWakeIn w s.hub) ≠ 0 ∨ roundState
        (sampleWakeIn w s.hub) = 1 ∨ committed (sampleWakeIn w s.hub) = true ∨ hubNumber (sampleWakeIn w s.hub) = 0 ∨ serving
        (sampleWakeIn w s.hub) = false))
    ∧ (∃ origin : Nat, ∃ round : Nat, ∃ w : Nat, ∃ s : State, ∃ h : Hub, h = sampleWakeIn w s.hub ∧ hubNumber h ≠ 0 ∧ sendsOwn h = true ∧
        origin ≠ hubNumber h ∧ (∀ e, (h.sleep.heard.find? fun e => e.1 == origin) = some e → newerRound round e.2.1 = true) ∧ (roundState
        h ≠ 1 ∨ origin ≤ hubNumber h) ∧ keepAwake h = 0)
    ∧ (∃ origin : Nat, ∃ round : Nat, ∃ w : Nat, ∃ s : State, ∃ h : Hub, h = sampleWakeIn w s.hub ∧ hubNumber h ≠ 0 ∧ sendsOwn h = true ∧
        origin ≠ hubNumber h ∧ (∀ e, (h.sleep.heard.find? fun e => e.1 == origin) = some e → newerRound round e.2.1 = true) ∧ (roundState
        h ≠ 1 ∨ origin ≤ hubNumber h) ∧ keepAwake h ≠ 0)
    ∧ (∃ origin : Nat, ∃ round : Nat, ∃ w : Nat, ∃ s : State, ∃ h : Hub, h = sampleWakeIn w s.hub ∧ ((∃ e, (h.sleep.heard.find? fun e =>
        e.1 == origin) = some e ∧ newerRound round e.2.1 = false) ∨ (roundState h = 1 ∧ hubNumber h < origin)))
    ∧ (∃ src : Nat, ∃ s : State, roundState s.hub = 1 ∧ roundOrigin s.hub = hubNumber s.hub ∧ s.hub.sleep.present = othersPresent s.hub ∧
        (∀ n ∈ othersPresent s.hub, n = src ∨ n ∈ s.hub.sleep.consents) ∧ nowNs s.hub < s.hub.sleep.roundAt + 20000000 ∧ hubNumber s.hub ≠
        0)
    ∧ (∃ src : Nat, ∃ s : State, roundState s.hub = 1 ∧ roundOrigin s.hub = hubNumber s.hub ∧ (∃ n ∈ s.hub.sleep.present, n ≠ src ∧ n ∉
        s.hub.sleep.consents))
    ∧ (∃ h : Hub, ∃ lead : Nat, 0 < periodNs h ∧ lead = nowNs h + max (rd h 0x2D01_05 * 1000000) (rd h 0x2D01_06 * 1000000 + rd h
        0x4500_0A + 2000000)) :=
  ⟨⟨0, stOf (roundHub 3 0 9 []), (fun w (s : State) => sampleWakeIn w s.hub) (0) (stOf (roundHub 3 0 9 [])), rfl, by decide +kernel⟩,
   ⟨8, stOf (roundHub 3 0 9 [(0x2D01_03, 1)]), by decide +kernel⟩,
   ⟨9, 7, 0, stOf (roundHub 3 0 9 []), (fun w (s : State) => sampleWakeIn w s.hub) (0) (stOf (roundHub 3 0 9 [])), rfl, by decide +kernel,
      by decide +kernel, by decide +kernel, by decide +kernel,
      by first | decide +kernel | exact Or.inl (by decide +kernel) | exact Or.inr (Or.inl (by decide +kernel)) | exact Or.inr (Or.inr (by decide +kernel)),
      by decide +kernel⟩,
   ⟨9, 7, 0, stOf (roundHub 3 0 9 [(0x2D01_03, 1)]), (fun w (s : State) => sampleWakeIn w s.hub) (0) (stOf (roundHub 3 0 9 [(0x2D01_03,
      1)])), rfl, by decide +kernel, by decide +kernel, by decide +kernel, by decide +kernel,
      by first | decide +kernel | exact Or.inl (by decide +kernel) | exact Or.inr (Or.inl (by decide +kernel)) | exact Or.inr (Or.inr (by decide +kernel)),
      by decide +kernel⟩,
   ⟨9, 5, 0, stOf (roundHub 3 0 9 []), (fun w (s : State) => sampleWakeIn w s.hub) (0) (stOf (roundHub 3 0 9 [])), ⟨rfl, Or.inl ⟨(9, (6,
      true)), by decide +kernel, by decide +kernel⟩⟩⟩,
   ⟨9, stOf { roundHub 3 1 5 [] with sleep := { (roundHub 3 1 5 []).sleep with present := [9], roundAt := 2 ^ 70 } }, by decide +kernel⟩,
   ⟨9, stOf { roundHub 3 1 5 [] with sleep := { (roundHub 3 1 5 []).sleep with present := [9, 10] } }, by decide +kernel⟩,
   ⟨roundHub 3 1 5 [], (fun h => nowNs h + max (rd h 0x2D01_05 * 1000000) (rd h 0x2D01_06 * 1000000 + rd h 0x4500_0A + 2000000)) (roundHub
      3 1 5 []), by decide +kernel, rfl⟩⟩

theorem test_hyps_SleepRoundsAreAgreed_2 :
    (∃ s : State, roundState s.hub = 1)
    ∧ (∃ s : State, roundState s.hub ≠ 1)
    ∧ (∃ s : State, committed s.hub = true ∧ roundOrigin s.hub = hubNumber s.hub ∧ hubNumber s.hub ≠ 0 ∧ s.hub.sleep.copies ≠ 0)
    ∧ (∃ s : State, committed s.hub = true ∧ s.hub.sleep.copies = 0)
    ∧ (∃ s : State, committed s.hub = true ∧ roundState s.hub = 3)
    ∧ (∃ s : State, committed s.hub = true)
    ∧ (∃ s : State, committed s.hub = false)
    ∧ (∃ origin : Nat, ∃ round : Nat, ∃ s : State, hubNumber s.hub ≠ 0 ∧ sendsOwn s.hub = true ∧ origin ≠ hubNumber s.hub ∧ committed
        s.hub = false ∧ (origin, (round, true)) ∈ s.hub.sleep.heard ∧ origin < 2 ^ 48 ∧ round < 2 ^ 48 ∧ keepAwake s.hub &&& 0x8F = 0) :=
  ⟨⟨stOf (roundHub 3 1 5 []), by decide +kernel⟩,
   ⟨stOf (roundHub 3 2 5 []), by decide +kernel⟩,
   ⟨stOf (roundHub 3 3 5 []), by decide +kernel⟩,
   ⟨stOf { roundHub 3 3 9 [] with sleep := { (roundHub 3 3 9 []).sleep with copies := 0 } }, by decide +kernel⟩,
   ⟨stOf (roundHub 3 3 5 []), by decide +kernel⟩,
   ⟨stOf (roundHub 3 4 5 []), by decide +kernel⟩,
   ⟨stOf (roundHub 3 2 5 []), by decide +kernel⟩,
   ⟨9, 6, stOf (roundHub 3 2 9 []), by decide +kernel⟩⟩

theorem test_hyps_SleepRoundsAreAgreed_3 :
    (∃ origin : Nat, ∃ round : Nat, ∃ s : State, hubNumber s.hub ≠ 0 ∧ sendsOwn s.hub = true ∧ origin ≠ hubNumber s.hub ∧ committed s.hub
        = false ∧ (origin, (round, true)) ∈ s.hub.sleep.heard ∧ origin < 2 ^ 48 ∧ round < 2 ^ 48 ∧ keepAwake s.hub &&& 0x8F ≠ 0)
    ∧ (∃ origin : Nat, ∃ round : Nat, ∃ s : State, hubNumber s.hub ≠ 0 ∧ sendsOwn s.hub = true ∧ origin ≠ hubNumber s.hub ∧ (origin,
        (round, true)) ∉ s.hub.sleep.heard ∧ (committed s.hub = true → roundOrigin s.hub ≠ origin ∨ roundNumber s.hub ≠ round))
    ∧ (∃ s : State, mode s.hub ≠ 6 ∧ committed s.hub = true)
    ∧ (∃ s : State, mode s.hub = 6)
    ∧ (∃ reasons : Nat, ∃ s : State, roundState s.hub = 3 ∧ hubNumber s.hub ≠ 0 ∧ (keepAwake s.hub ||| (reasons &&& 8)) &&& 0x8F ≠ 0)
    ∧ (∃ reasons : Nat, ∃ s : State, (roundState s.hub ≠ 3 ∨ (keepAwake s.hub ||| (reasons &&& 8)) &&& 0x8F = 0)) :=
  ⟨⟨9, 6, stOf (roundHub 2 2 9 []), by decide +kernel⟩,
   ⟨9, 7, stOf (roundHub 3 2 9 []), by decide +kernel⟩,
   ⟨stOf (roundHub 3 3 9 []), by decide +kernel⟩,
   ⟨stOf (roundHub 6 4 9 []), by decide +kernel⟩,
   ⟨8, stOf (roundHub 3 3 9 []), by decide +kernel⟩,
   ⟨0x70, stOf (roundHub 3 3 9 []), by decide +kernel⟩⟩

theorem test_hyps_WakesAreAcceptedAndJudged :
    (∃ j : Nat, ∃ s : State, wakeEnabled s.hub j = false)
    ∧ (∃ j : Nat, ∃ s : State, wakeEnabled s.hub j = true ∧ (mode s.hub = 3 ∨ mode s.hub = 4) ∧ j < 8 ∧ committed s.hub = false)
    ∧ (∃ j : Nat, ∃ s : State, wakeEnabled s.hub j = true ∧ serving s.hub = true ∧ (j < 8 ∨ (mode s.hub = 5 ∧ sourceAsleep s.hub j =
        true)) ∧ roundState s.hub = 3 ∧ hubNumber s.hub ≠ 0)
    ∧ (∃ j : Nat, ∃ s : State, wakeEnabled s.hub j = true ∧ serving s.hub = true ∧ (j < 8 ∨ (mode s.hub = 5 ∧ sourceAsleep s.hub j = true)
        ∨ 28 ≤ j) ∧ roundState s.hub = 4)
    ∧ (∃ j : Nat, ∃ s : State, wakeEnabled s.hub j = true ∧ mode s.hub = 5 ∧ (j < 8 ∨ sourceAsleep s.hub j = true) ∧ committed s.hub =
        false)
    ∧ (∃ j : Nat, ∃ s : State, wakeEnabled s.hub j = true ∧ mode s.hub = 6 ∧ dormantSource j = true ∧ s.hub.sleep.entering = true)
    ∧ (∃ j : Nat, ∃ s : State, wakeEnabled s.hub j = true ∧ mode s.hub = 6 ∧ dormantSource j = true ∧ s.hub.sleep.entering = false ∧
        s.hub.power.waking = false)
    ∧ (∃ j : Nat, ∃ n : Nat, ∃ limit : Nat, ∃ s : State, j < 30 ∧ j ∈ s.hub.sleep.awaiting ∧ n = min 255 (bits (rd s.hub (0x4D03_01 + j))
        7 0 + 1) ∧ limit = bits (rd s.hub (0x2D03_01 + j)) 31 24 ∧ limit ≠ 0 ∧ limit ≤ n ∧ wakeMasked s.hub j = false) :=
  ⟨⟨30, stOf (asleepHub 3 11 []), by decide +kernel⟩,
   ⟨0, stOf (asleepHub 3 11 []), by decide +kernel⟩,
   ⟨0, stOf (wrs (asleepHub 3 11 []) [(0x4D01_01, 3)]), by decide +kernel⟩,
   ⟨28, stOf (wrs (asleepHub 5 11 []) [(0x4D01_01, 4)]), by decide +kernel⟩,
   ⟨11, stOf (asleepHub 5 11 []), by decide +kernel⟩,
   ⟨0, stOf (dormHub true false []), by decide +kernel⟩,
   ⟨0, stOf (dormHub false false []), by decide +kernel⟩,
   ⟨5, 255, 255, stOf (asleepHub 3 11 [(0x2D03_06, 0xFF000001), (0x4D03_06, 255)]), by decide +kernel⟩⟩

theorem test_hyps_WakesAreAcceptedAndJudged_2 :
    (∃ j : Nat, ∃ n : Nat, ∃ limit : Nat, ∃ s : State, j < 30 ∧ j ∈ s.hub.sleep.awaiting ∧ n = min 255 (bits (rd s.hub (0x4D03_01 + j)) 7
        0 + 1) ∧ limit = bits (rd s.hub (0x2D03_01 + j)) 31 24 ∧ (limit = 0 ∨ n < limit))
    ∧ (∃ j : Nat, ∃ s : State, j ∉ s.hub.sleep.awaiting)
    ∧ (∃ p : Path, ∃ v : Nat, ∃ s : State, WriteOpen p 0x2D04 1 v s.hub ∧ entryBad 0x2D04 1 v = false)
    ∧ (∃ p : Path, ∃ v : Nat, ∃ s : State, WriteOpen p 0x2D04 2 v s.hub ∧ entryBad 0x2D04 2 v = false)
    ∧ (∃ c : Fin 16, ∃ f : CanFrame, ∃ s : State, (canAsleep s.hub c = false ∨ mode s.hub ≠ 5 ∨ f.fdf = true))
    ∧ (∃ c : Fin 16, ∃ f : CanFrame, ∃ err : CanError, ∃ s : State, canAsleep s.hub c = true ∧ mode s.hub = 5 ∧ f.fdf = false ∧ (err ≠
        .none ∨ isWakeFrame s.hub c f = false) ∧ pnCount err (can s.hub c).pnErrors < 32)
    ∧ (∃ c : Fin 16, ∃ f : CanFrame, ∃ err : CanError, ∃ s : State, canAsleep s.hub c = true ∧ mode s.hub = 5 ∧ f.fdf = false ∧ err =
        .none ∧ isWakeFrame s.hub c f = true ∧ wakeEnabled s.hub (8 + c) = true ∧ committed s.hub = false)
    ∧ (∃ c : Fin 16, ∃ f : CanFrame, ∃ err : CanError, ∃ s : State, canAsleep s.hub c = true ∧ mode s.hub = 5 ∧ f.fdf = false ∧ err ≠
        .none ∧ 32 ≤ pnCount err (can s.hub c).pnErrors ∧ wakeEnabled s.hub (8 + c) = true ∧ committed s.hub = false) :=
  ⟨⟨5, 255, 0, stOf (asleepHub 3 11 [(0x2D03_06, 1), (0x4D03_06, 254)]), by decide +kernel⟩,
   ⟨6, stOf (asleepHub 3 11 []), by decide +kernel⟩,
   ⟨.host, 0x81, stOf (asleepHub 3 11 [(0x4D03_01, 5)]), by (repeat' apply And.intro) <;> decide +kernel, by decide +kernel⟩,
   
      ⟨.host, 0x2000_0001, stOf (asleepHub 3 11 [(0x4D03_01, 0x105), (0x4D03_1E, 0x105)]), by (repeat' apply And.intro) <;> decide +kernel, by decide +kernel⟩,
   ⟨3, cf8, stOf (asleepHub 3 11 []), by decide +kernel⟩,
   ⟨3, cf8, .crc, stOf (asleepHub 5 11 []), by decide +kernel⟩,
   ⟨3, { wf3 with id := 7 }, .none, stOf (asleepHub 5 11 [(pnKey 3 1, 7), (pnKey 3 2, 0x1FFFFFFF), (pnKey 3 5, 0)]), by decide +kernel⟩,
   ⟨3, wf3, .crc, stOf (setCan (asleepHub 5 11 []) 3 { can (asleepHub 5 11 []) 3 with pnErrors := 31 }), by decide +kernel⟩⟩

theorem test_hyps_DormantIsEnteredAndLeft :
    (∃ s : State, committed s.hub = true ∧ serving s.hub = true)
    ∧ (∃ s : State, (committed s.hub = false ∨ serving s.hub = false))
    ∧ (∃ s : State, mode s.hub = 6 ∧ s.hub.sleep.entering = true ∧ s.hub.sleep.latched = none)
    ∧ (∃ s : State, ∃ j : Nat, mode s.hub = 6 ∧ s.hub.sleep.entering = true ∧ s.hub.sleep.latched = some j)
    ∧ (∃ s : State, (mode s.hub ≠ 6 ∨ s.hub.sleep.entering = false))
    ∧ (∃ r : Fin 4, ∃ status : Nat, ∃ s : State, mode s.hub = 6 ∧ s.hub.power.waking = true ∧ railManaged s.hub r = true ∧ railBad status
        = false)
    ∧ (∃ r : Fin 4, ∃ status : Nat, ∃ s : State, mode s.hub = 6 ∧ s.hub.power.waking = true ∧ railManaged s.hub r = true ∧ railBad status
        = true)
    ∧ (∃ r : Fin 4, ∃ s : State, mode s.hub = 6 ∧ s.hub.power.waking = true ∧ railManaged s.hub r = true ∧ r.val ∉ s.hub.power.railsGood ∧
        s.hub.power.wakeTries < 2) :=
  ⟨⟨stOf (roundHub 3 4 5 [(canStat 3 2, 7), (0x2601_01, 77), (0x2D03_01, 1), (0x4F00_01, 6)]), by decide +kernel⟩,
   ⟨stOf (roundHub 3 2 5 []), by decide +kernel⟩,
   ⟨stOf (dormHub true false []), by decide +kernel⟩,
   ⟨stOf { dormHub true false [] with sleep := { (dormHub true false []).sleep with latched := some 7 } }, 7, by decide +kernel⟩,
   ⟨stOf (dormHub false false []), by decide +kernel⟩,
   ⟨0, 0xFF07_0000 + 0x0404, stOf (dormHub false true []), by decide +kernel⟩,
   ⟨0, 64, stOf (dormHub false true []), by decide +kernel⟩,
   ⟨0, stOf (dormHub false true []), by decide +kernel⟩⟩

theorem test_hyps_DormantIsEnteredAndLeft_2 :
    (∃ r : Fin 4, ∃ s : State, mode s.hub = 6 ∧ s.hub.power.waking = true ∧ railManaged s.hub r = true ∧ r.val ∉ s.hub.power.railsGood ∧
        s.hub.power.wakeTries = 2)
    ∧ (∃ r : Fin 4, ∃ s : State, mode s.hub = 6 ∧ s.hub.power.waking = true ∧ railManaged s.hub r = true ∧ r.val ∈ s.hub.power.railsGood)
    ∧ (∃ s : State, mode s.hub = 6 ∧ s.hub.sleep.entering = false ∧ s.hub.power.waking = true ∧ railsReady s.hub = true)
    ∧ (∃ s : State, (mode s.hub ≠ 6 ∨ s.hub.sleep.entering = true ∨ s.hub.power.waking = false ∨ railsReady s.hub = false)) :=
  ⟨⟨0, stOf { dormHub false true [] with power := { (dormHub false true []).power with wakeTries := 2 } }, by decide +kernel⟩,
   ⟨0, stOf { dormHub false true [] with power := { (dormHub false true []).power with railsGood := [0] } }, by decide +kernel⟩,
   ⟨stOf { dormHub false true [(canStat 3 2, 7)] with power := { (dormHub false true []).power with railsGood := [0, 1, 2, 3] } },
      by decide +kernel⟩,
   ⟨stOf (dormHub false true []), by decide +kernel⟩⟩

theorem test_hyps_T1sFramesAreDelivered :
    (∃ p : Fin 4, ∃ s : State, (t1sOn s.hub p = false ∨ t1sAsleep s.hub p = true))
    ∧ (∃ p : Fin 4, ∃ s : State, t1sOn s.hub p = true ∧ t1sAsleep s.hub p = false)
    ∧ (∃ p : Fin 4, ∃ bs : List Byte, ∃ s : State, t1sOn s.hub p = true ∧ t1sAsleep s.hub p = false ∧ (bs.length < 60 ∨ t1sSet s.hub p 4 <
        bs.length))
    ∧ (∃ p : Fin 4, ∃ bs : List Byte, ∃ s : State, t1sOn s.hub p = true ∧ t1sAsleep s.hub p = false ∧ 60 ≤ bs.length ∧ bs.length ≤ t1sSet
        s.hub p 4 ∧ ((List.range 4).filter (fun k => cyclicMatches s.hub p k bs)) ≠ [])
    ∧ (∃ p : Fin 4, ∃ bs : List Byte, ∃ s : State, t1sOn s.hub p = true ∧ t1sAsleep s.hub p = false ∧ 60 ≤ bs.length ∧ bs.length ≤ t1sSet
        s.hub p 4 ∧ (∃ k ∈ ((List.range 4).filter (fun k => cyclicMatches s.hub p k bs)), bit (rd s.hub (cyclicKey p k)) 18 = true))
    ∧ (∃ p : Fin 4, ∃ bs : List Byte, ∃ s : State, t1sOn s.hub p = true ∧ t1sAsleep s.hub p = false ∧ 60 ≤ bs.length ∧ bs.length ≤ t1sSet
        s.hub p 4 ∧ ((List.range 4).filter (fun k => cyclicMatches s.hub p k bs)) = [] ∧ addressAccepts s.hub p bs = false)
    ∧ (∃ p : Fin 4, ∃ bs : List Byte, ∃ s : State, ∃ q : Nat, t1sOn s.hub p = true ∧ t1sAsleep s.hub p = false ∧ 60 ≤ bs.length ∧
        bs.length ≤ t1sSet s.hub p 4 ∧ (∀ k ∈ ((List.range 4).filter (fun k => cyclicMatches s.hub p k bs)), bit (rd s.hub (cyclicKey p
        k)) 18 = false) ∧ addressAccepts s.hub p bs = true ∧ fifoFrom s.hub 3 p = some q ∧ FifoOpen q s.hub ∧ (fifo s.hub q).packer = [] ∧
        (fifo s.hub q).words.length + 4 + (bs.length + 5) / 6 < fifoCapacity s.hub q ∧ crossingShut s.hub 0x10 0 = false ∧ (crossing s.hub
        0x10 0).entries = [])
    ∧ (∃ p : Fin 4, ∃ bs : List Byte, ∃ s : State, t1sOn s.hub p = true ∧ t1sAsleep s.hub p = false ∧ 60 ≤ bs.length ∧ bs.length ≤ t1sSet
        s.hub p 4 ∧ (∀ k ∈ ((List.range 4).filter (fun k => cyclicMatches s.hub p k bs)), bit (rd s.hub (cyclicKey p k)) 18 = false) ∧
        addressAccepts s.hub p bs = true ∧ fifoFrom s.hub 3 p = none ∧ (ringAt s.hub p 0x0A).2 = 0) :=
  ⟨⟨2, stOf (t1sHub t1s0 [(t1sCfg 2 1, 0)]), by decide +kernel⟩,
   ⟨2, stOf (t1sHub t1s0 []), by decide +kernel⟩,
   ⟨2, t1sFrame 59, stOf (t1sHub t1s0 []), by decide +kernel⟩,
   ⟨2, t1sFrame 60, stOf (t1sHub t1s0 [(cyclicKey 2 3, 2 ^ 19 + 2 ^ 17 + 0x88B5), (cyclicKey 2 1, 2 ^ 19)]), by decide +kernel⟩,
   ⟨2, t1sFrame 60, stOf (t1sHub t1s0 [(cyclicKey 2 3, 2 ^ 19 + 2 ^ 18 + 2 ^ 17 + 0x88B5), (cyclicKey 2 1, 2 ^ 19)]), by decide +kernel⟩,
   ⟨2, t1sFrame 60, stOf (t1sHub t1s0 [(t1sCfg 2 2, 7), (t1sCfg 2 3, 0)]), by decide +kernel⟩,
   ⟨2, t1sFrame 60, stOf { t1sHub t1s0 [(fifoKey 4 1, 1), (fifoKey 4 3, 1)] with fifos := [(4, fromT1s)] }, 4,
      by unfold FifoOpen; decide +kernel⟩,
   ⟨2, t1sFrame 60, stOf (t1sHub t1s0 [(t1sCfg 2 0x0A, 8)]), by decide +kernel⟩⟩

theorem test_hyps_T1sFramesAreDelivered_2 :
    (∃ p : Fin 4, ∃ bs : List Byte, ∃ s : State, ∃ first : Nat, ∃ base : Nat, ∃ len : Nat, t1sOn s.hub p = true ∧ t1sAsleep s.hub p =
        false ∧ 60 ≤ bs.length ∧ bs.length ≤ t1sSet s.hub p 4 ∧ (∀ k ∈ ((List.range 4).filter (fun k => cyclicMatches s.hub p k bs)), bit
        (rd s.hub (cyclicKey p k)) 18 = false) ∧ addressAccepts s.hub p bs = true ∧ fifoFrom s.hub 3 p = none ∧ ringBase s.hub p 0x0A =
        some (first, base, len) ∧ ((ringAt s.hub p 0x0A).2) ≠ 0 ∧ s.hub.watch.armed = [] ∧ (bit ((memWord s.hub.canopy.mem (first + 4 *
        (rd s.hub (t1sInst p 3) % ((ringAt s.hub p 0x0A).2)))).toNat) 47 = false ∨ (first + 4 * (rd s.hub (t1sInst p 3) % ((ringAt s.hub p
        0x0A).2))) ∈ s.hub.canopy.poison ∨ (first + 4 * (rd s.hub (t1sInst p 3) % ((ringAt s.hub p 0x0A).2))) + 1 ∈ s.hub.canopy.poison))
    ∧ (∃ p : Fin 4, ∃ bs : List Byte, ∃ s : State, ∃ first : Nat, ∃ base : Nat, ∃ len : Nat, t1sOn s.hub p = true ∧ t1sAsleep s.hub p =
        false ∧ 60 ≤ bs.length ∧ bs.length ≤ t1sSet s.hub p 4 ∧ (∀ k ∈ ((List.range 4).filter (fun k => cyclicMatches s.hub p k bs)), bit
        (rd s.hub (cyclicKey p k)) 18 = false) ∧ addressAccepts s.hub p bs = true ∧ fifoFrom s.hub 3 p = none ∧ ringBase s.hub p 0x0A =
        some (first, base, len) ∧ ((ringAt s.hub p 0x0A).2) ≠ 0 ∧ s.hub.watch.armed = [] ∧ bit ((memWord s.hub.canopy.mem (first + 4 * (rd
        s.hub (t1sInst p 3) % ((ringAt s.hub p 0x0A).2)))).toNat) 47 = true ∧ (first + 4 * (rd s.hub (t1sInst p 3) % ((ringAt s.hub p
        0x0A).2))) ∉ s.hub.canopy.poison ∧ (first + 4 * (rd s.hub (t1sInst p 3) % ((ringAt s.hub p 0x0A).2))) + 1 ∉ s.hub.canopy.poison ∧
        bs.length ≤ bits ((memWord s.hub.canopy.mem (first + 4 * (rd s.hub (t1sInst p 3) % ((ringAt s.hub p 0x0A).2)))).toNat) 10 0 ∧
        (bits (memWord s.hub.canopy.mem ((first + 4 * (rd s.hub (t1sInst p 3) % ((ringAt s.hub p 0x0A).2))) + 1)).toNat 19 0) + (bs.length
        + 5) / 6 ≤ len)
    ∧ (∃ p : Fin 4, ∃ bs : List Byte, ∃ s : State, ∃ first : Nat, ∃ base : Nat, ∃ len : Nat, t1sOn s.hub p = true ∧ t1sAsleep s.hub p =
        false ∧ 60 ≤ bs.length ∧ bs.length ≤ t1sSet s.hub p 4 ∧ (∀ k ∈ ((List.range 4).filter (fun k => cyclicMatches s.hub p k bs)), bit
        (rd s.hub (cyclicKey p k)) 18 = false) ∧ addressAccepts s.hub p bs = true ∧ fifoFrom s.hub 3 p = none ∧ ringBase s.hub p 0x0A =
        some (first, base, len) ∧ ((ringAt s.hub p 0x0A).2) ≠ 0 ∧ s.hub.watch.armed = [] ∧ bit ((memWord s.hub.canopy.mem (first + 4 * (rd
        s.hub (t1sInst p 3) % ((ringAt s.hub p 0x0A).2)))).toNat) 47 = true ∧ (first + 4 * (rd s.hub (t1sInst p 3) % ((ringAt s.hub p
        0x0A).2))) ∉ s.hub.canopy.poison ∧ (first + 4 * (rd s.hub (t1sInst p 3) % ((ringAt s.hub p 0x0A).2))) + 1 ∉ s.hub.canopy.poison ∧
        bits ((memWord s.hub.canopy.mem (first + 4 * (rd s.hub (t1sInst p 3) % ((ringAt s.hub p 0x0A).2)))).toNat) 10 0 < bs.length) :=
  ⟨⟨2, t1sFrame 60, stOf (t1sHub t1s0 []), 8, 0, 64, by decide +kernel⟩,
   ⟨2, t1sFrame 61, stOf (withMem (t1sHub t1s0 []) [(12, 2 ^ 47 + 61), (13, 53)]), 8, 0, 64, by decide +kernel⟩,
   ⟨2, t1sFrame 61, stOf (withMem (t1sHub t1s0 []) [(12, 2 ^ 47 + 60), (13, 53)]), 8, 0, 64, by decide +kernel⟩⟩

theorem test_hyps_T1sTransmitsUnderCsmaOrPlca :
    (∃ p : Fin 4, ∃ x : T1sPort, ∃ s : State, x = t1s s.hub p ∧ x.frame.isSome = true ∧ x.sending = false ∧ x.backoff = none ∧ t1sSends
        s.hub p = true ∧ mediumTurn s.hub p = true)
    ∧ (∃ p : Fin 4, ∃ x : T1sPort, ∃ s : State, x = t1s s.hub p ∧ x.frame.isSome = true ∧ (x.sending = true ∨ x.backoff.isSome = true ∨
        t1sSends s.hub p = false ∨ mediumTurn s.hub p = false))
    ∧ (∃ p : Fin 4, ∃ x : T1sPort, ∃ s : State, x = t1s s.hub p ∧ x.frame.isSome = true)
    ∧ (∃ p : Fin 4, ∃ f : Nat, ∃ s : State, ∃ ws : List XWord, (t1s s.hub p).frame = none ∧ fifoTo s.hub 3 p = some f ∧ t1sSends s.hub p =
        true ∧ (t1s s.hub p).checked = false ∧ (fifo s.hub f).errors = [] ∧ headPacket s.hub f = some ws ∧ (ws.all fun w => !w.poison) =
        true ∧ 14 ≤ bits ((ws.map (·.data.toNat)).getD 0 0) 10 0 ∧ bits ((ws.map (·.data.toNat)).getD 0 0) 10 0 ≤ t1sSet s.hub p 4 ∧
        ws.length = 2 + (bits ((ws.map (·.data.toNat)).getD 0 0) 10 0 + 5) / 6 ∧ (t1s s.hub p).backoff = none ∧ (t1s s.hub p).sending =
        false ∧ mediumTurn s.hub p = true)
    ∧ (∃ p : Fin 4, ∃ s : State, (t1s s.hub p).sending = true ∧ ((t1s s.hub p).collided + 1) < 16 ∧ (∀ bs l, (t1s s.hub p).frame = some
        ⟨bs, l, none⟩ → fifoTo s.hub 3 p = none) ∧ t1sSet s.hub p 5 = rd s.hub (t1sCfg p 5))
    ∧ (∃ p : Fin 4, ∃ s : State, ∃ q : Nat, ∃ bs : List Byte, ∃ l : Nat, (t1s s.hub p).sending = true ∧ ((t1s s.hub p).collided + 1) < 16
        ∧ (t1s s.hub p).frame = some ⟨bs, l, none⟩ ∧ fifoTo s.hub 3 p = some q)
    ∧ (∃ p : Fin 4, ∃ s : State, ∃ q : Nat, ∃ bs : List Byte, ∃ l : Nat, (t1s s.hub p).sending = true ∧ (t1s s.hub p).frame = some ⟨bs, l,
        none⟩ ∧ fifoTo s.hub 3 p = some q ∧ (fifo s.hub q).read ≤ (fifo s.hub q).words.length ∧ ((t1s s.hub p).collided + 1) = 16)
    ∧ (∃ p : Fin 4, ∃ s : State, ∃ q : Nat, ∃ bs : List Byte, ∃ l : Nat, (t1s s.hub p).sending = true ∧ (t1s s.hub p).frame = some ⟨bs, l,
        none⟩ ∧ fifoTo s.hub 3 p = some q ∧ (fifo s.hub q).read ≤ (fifo s.hub q).words.length) :=
  ⟨⟨2, { t1s0 with frame := some (t1f 60 none) }, stOf (t1sHub ({ t1s0 with frame := some (t1f 60 none) }) []), by decide +kernel⟩,
   ⟨2, { t1s0 with frame := some (t1f 60 none), backoff := some 3 }, stOf (t1sHub
      ({ t1s0 with frame := some (t1f 60 none), backoff := some 3 }) []), by decide +kernel⟩,
   ⟨2, { t1s0 with frame := some (t1f 60 none) }, stOf (t1sHub ({ t1s0 with frame := some (t1f 60 none) }) []), by decide +kernel⟩,
   ⟨2, 4, stOf (t1sStream t1s0 (toT1s 61) []), (toT1s 61).words.map (·.1), by decide +kernel⟩,
   
      ⟨2, stOf (t1sHub ({ t1s0 with frame := some (t1f 60 (some (4, 1, 2))), sending := true, collided := 14 }) []), ⟨by decide +kernel, by decide +kernel, by intro bs l h; simp [t1s, t1sHub, stOf, t1s0, t1f, tabGet, tabFind] at h, by decide +kernel⟩⟩,
   ⟨2, stOf (t1sStream ({ t1s0 with frame := some (t1f 61 none), sending := true, collided := 14 })
      ({ toT1s 61 with read := 13, mark := true }) []), 4, t1sFrame 61, 61, by decide +kernel⟩,
   ⟨2, stOf (t1sStream ({ t1s0 with frame := some (t1f 61 none), sending := true, collided := 15 })
      ({ toT1s 61 with read := 13, mark := true }) []), 4, t1sFrame 61, 61, by decide +kernel⟩,
   ⟨2, stOf (t1sStream ({ t1s0 with frame := some (t1f 61 none), sending := true, collided := 14 })
      ({ toT1s 61 with read := 13, mark := true }) []), 4, t1sFrame 61, 61, by decide +kernel⟩⟩

theorem test_hyps_T1sTransmitsUnderCsmaOrPlca_2 :
    (∃ p : Fin 4, ∃ s : State, ∃ bs : List Byte, ∃ l : Nat, ∃ d : Nat, ∃ i : Nat, ∃ m, (t1s s.hub p).sending = true ∧ (t1s s.hub p).frame
        = some ⟨bs, l, some (d, i, m)⟩ ∧ (ringBuffer s.hub p).isSome = true ∧ s.hub.watch.armed = [])
    ∧ (∃ p : Fin 4, ∃ s : State, (t1s s.hub p).sending = false)
    ∧ (∃ p : Fin 4, ∃ s : State, ∃ r : Nat, (t1s s.hub p).backoff = some r ∧ (∀ bs l, (t1s s.hub p).frame ≠ some ⟨bs, l, none⟩))
    ∧ (∃ p : Fin 4, ∃ s : State, ∃ r : Nat, ∃ bs : List Byte, ∃ l : Nat, ∃ f : Nat, ∃ ws : List XWord, (t1s s.hub p).backoff = some r ∧
        (t1s s.hub p).frame = some ⟨bs, l, none⟩ ∧ fifoTo s.hub 3 p = some f ∧ headPacket s.hub f = some ws)
    ∧ (∃ p : Fin 4, ∃ x : T1sPort, ∃ s : State, x = t1s s.hub p ∧ x.backoff = none)
    ∧ (∃ p : Fin 4, ∃ i : Nat, ∃ n : Nat, ∃ d : Nat, ∃ base : Nat, ∃ len : Nat, ∃ s : State, ∃ path : Path, (t1s s.hub p).frame = none ∧
        fifoTo s.hub 3 p = none ∧ t1sAsleep s.hub p = false ∧ txDescriptor s.hub p = some (d, i, n, base, len) ∧ 14 ≤ (bits (memWord
        s.hub.canopy.mem d).toNat 10 0) ∧ (bits (memWord s.hub.canopy.mem d).toNat 10 0) ≤ t1sSet s.hub p 4 ∧ (bits (memWord
        s.hub.canopy.mem (d + 1)).toNat 19 0) + ((bits (memWord s.hub.canopy.mem d).toNat 10 0) + 5) / 6 ≤ len ∧ d + 1 ∉
        s.hub.canopy.poison ∧ (∀ k, k < ((bits (memWord s.hub.canopy.mem d).toNat 10 0) + 5) / 6 → base + (bits (memWord s.hub.canopy.mem
        (d + 1)).toNat 19 0) + k ∉ s.hub.canopy.poison) ∧ WriteOpen path (0x3500 + p) 1 1 s.hub)
    ∧ (∃ p : Fin 4, ∃ i : Nat, ∃ n : Nat, ∃ d : Nat, ∃ base : Nat, ∃ len : Nat, ∃ s : State, (t1s s.hub p).frame = none ∧ fifoTo s.hub 3 p
        = none ∧ t1sAsleep s.hub p = false ∧ txDescriptor s.hub p = some (d, i, n, base, len) ∧ 14 ≤ (bits (memWord s.hub.canopy.mem
        d).toNat 10 0) ∧ (bits (memWord s.hub.canopy.mem d).toNat 10 0) ≤ t1sSet s.hub p 4 ∧ (bits (memWord s.hub.canopy.mem (d +
        1)).toNat 19 0) + ((bits (memWord s.hub.canopy.mem d).toNat 10 0) + 5) / 6 ≤ len ∧ d + 1 ∉ s.hub.canopy.poison ∧ (∀ k, k < ((bits
        (memWord s.hub.canopy.mem d).toNat 10 0) + 5) / 6 → base + (bits (memWord s.hub.canopy.mem (d + 1)).toNat 19 0) + k ∉
        s.hub.canopy.poison) ∧ t1sOn s.hub p = true)
    ∧ (∃ p : Fin 4, ∃ i : Nat, ∃ n : Nat, ∃ d : Nat, ∃ base : Nat, ∃ len : Nat, ∃ s : State, (t1s s.hub p).frame = none ∧ fifoTo s.hub 3 p
        = none ∧ t1sAsleep s.hub p = false ∧ txDescriptor s.hub p = some (d, i, n, base, len) ∧ 14 ≤ (bits (memWord s.hub.canopy.mem
        d).toNat 10 0) ∧ (bits (memWord s.hub.canopy.mem d).toNat 10 0) ≤ t1sSet s.hub p 4 ∧ (bits (memWord s.hub.canopy.mem (d +
        1)).toNat 19 0) + ((bits (memWord s.hub.canopy.mem d).toNat 10 0) + 5) / 6 ≤ len ∧ d + 1 ∉ s.hub.canopy.poison ∧ (∀ k, k < ((bits
        (memWord s.hub.canopy.mem d).toNat 10 0) + 5) / 6 → base + (bits (memWord s.hub.canopy.mem (d + 1)).toNat 19 0) + k ∉
        s.hub.canopy.poison) ∧ t1sOn s.hub p = false) :=
  ⟨⟨2, stOf (t1sHub ({ t1s0 with frame := some (t1f 61 (some (4, 1, 2))), sending := true, collided := 15, txArmed := true }) []),
      t1sFrame 61, 61, 4, 1, 2, by decide +kernel⟩,
   ⟨2, stOf (t1sHub t1s0 []), by decide +kernel⟩,
   
      ⟨2, stOf (t1sHub ({ t1s0 with frame := some (t1f 61 (some (4, 1, 2))), backoff := some 9 }) []), 9, ⟨by decide +kernel, by intro bs l h; simp [t1s, t1sHub, stOf, t1s0, t1f, tabGet, tabFind] at h⟩⟩,
   ⟨2, stOf (t1sStream ({ t1s0 with frame := some (t1f 61 none), backoff := some 9 }) (toT1s 61) []), 9, t1sFrame 61, 61, 4, (toT1s
      61).words.map (·.1), by decide +kernel⟩,
   ⟨2, t1s0, stOf (t1sHub t1s0 []), by decide +kernel⟩,
   ⟨2, 0, 2, 0, 0, 64, stOf (withMem (t1sHub t1s0 []) [(0, 2 ^ 47 + 61), (1, 53), (60, 5)]), .host, by unfold WriteOpen; decide +kernel⟩,
   ⟨2, 0, 2, 0, 0, 64, stOf (withMem (t1sHub t1s0 []) [(0, 2 ^ 47 + 14), (1, 53), (60, 5)]), by decide +kernel⟩,
   ⟨2, 0, 2, 0, 0, 64, stOf (withMem (t1sHub t1s0 [(t1sCfg 2 1, 0)]) [(0, 2 ^ 47 + 14), (1, 53), (60, 5)]), by decide +kernel⟩⟩

theorem test_hyps_T1sTransmitsUnderCsmaOrPlca_3 :
    (∃ p : Fin 4, ∃ x : T1sPort, ∃ s : State, x = t1s s.hub p ∧ t1sOn s.hub p = true ∧ plcaEnabled s.hub p = true ∧ t1sAsleep s.hub p =
        false ∧ plcaId s.hub p ≠ 0)
    ∧ (∃ p : Fin 4, ∃ x : T1sPort, ∃ s : State, x = t1s s.hub p ∧ t1sOn s.hub p = true ∧ plcaEnabled s.hub p = true ∧ t1sAsleep s.hub p =
        false ∧ plcaId s.hub p = 0)
    ∧ (∃ p : Fin 4, ∃ x : T1sPort, ∃ s : State, x = t1s s.hub p ∧ plcaEnabled s.hub p = false)
    ∧ (∃ p : Fin 4, ∃ x : T1sPort, ∃ s : State, x = t1s s.hub p ∧ t1sSends s.hub p = true ∧ plcaEnabled s.hub p = true ∧ plcaId s.hub p =
        0)
    ∧ (∃ p : Fin 4, ∃ x : T1sPort, ∃ s : State, x = t1s s.hub p ∧ (t1sSends s.hub p = false ∨ plcaEnabled s.hub p = false ∨ plcaId s.hub p
        ≠ 0))
    ∧ (∃ p : Fin 4, ∃ s : State, plcaOk s.hub p = true ∧ plcaId s.hub p ≠ 0)
    ∧ (∃ p : Fin 4, ∃ s : State, plcaOk s.hub p = true ∧ plcaId s.hub p = 0)
    ∧ (∃ p : Fin 4, ∃ x : T1sPort, ∃ s : State, x = t1s s.hub p ∧ plcaOk s.hub p = false) :=
  ⟨⟨2, t1s0, stOf (t1sHub t1s0 [(t1sCfg 2 5, 0x0101)]), by decide +kernel⟩,
   ⟨2, t1s0, stOf (t1sHub t1s0 [(t1sCfg 2 5, 0x0001)]), by decide +kernel⟩,
   ⟨2, t1s0, stOf (t1sHub t1s0 [(t1sCfg 2 5, 0)]), by decide +kernel⟩,
   ⟨2, t1s0, stOf (t1sHub t1s0 [(t1sCfg 2 5, 0x0001)]), by decide +kernel⟩,
   ⟨2, t1s0, stOf (t1sHub t1s0 [(t1sCfg 2 5, 0x0101)]), by decide +kernel⟩,
   ⟨2, stOf (t1sHub { t1s0 with plca := true } [(t1sCfg 2 5, 0x0101)]), by decide +kernel⟩,
   ⟨2, stOf (t1sHub t1s0 [(t1sCfg 2 5, 0x0001)]), by decide +kernel⟩,
   ⟨2, t1s0, stOf (t1sHub t1s0 [(t1sCfg 2 5, 0)]), by decide +kernel⟩⟩

theorem test_hyps_T1sTransmitsUnderCsmaOrPlca_4 :
    (∃ p : Fin 4, ∃ x : T1sPort, ∃ s : State, x = t1s s.hub p ∧ plcaEnabled s.hub p = true ∧ plcaId s.hub p ≠ 0 ∧ x.plca = true)
    ∧ (∃ p : Fin 4, ∃ x : T1sPort, ∃ s : State, x = t1s s.hub p ∧ x.plca = false) :=
  ⟨⟨2, { t1s0 with plca := true }, stOf (t1sHub { t1s0 with plca := true } [(t1sCfg 2 5, 0x0101)]), by decide +kernel⟩,
   ⟨2, t1s0, stOf (t1sHub t1s0 []), by decide +kernel⟩⟩

theorem test_hyps_HostAccessesAndBridgeResets :
    (∃ s : State, barServed s.hub = false)
    ∧ (∃ s : State, barServed s.hub = true)
    ∧ (∃ off : Nat, ∃ bs : List Byte, ∃ s : State, barServed s.hub = true ∧ apertureShut s.hub = false ∧ 6 ≤ off % 8 ∧ off % 8 + bs.length
        ≤ 8)
    ∧ (∃ off : Nat, ∃ bs : List Byte, ∃ s : State, barServed s.hub = true ∧ apertureShut s.hub = false ∧ off % 8 < 6 ∧ 0 < bs.length ∧ off
        % 8 + bs.length ≤ 8 ∧ off < 2 ^ 30 ∧ off % 2 ^ 26 < rd s.hub (0x2302_02 + 3 * (off / 2 ^ 26)) ∧ bits (rd s.hub (0x2302_01 + 3 *
        (off / 2 ^ 26))) 38 0 + off % 2 ^ 26 + 8 ≤ 8 * memWords ∧ (rd s.hub (0x2302_01 + 3 * (off / 2 ^ 26))) < 2 ^ 39 ∧ (rd s.hub
        (0x2302_01 + 3 * (off / 2 ^ 26))) % 8 = 0 ∧ portItems s.hub 2 = [] ∧ outCount s.hub 2 true < 256 ∧ s.hub.sleep.holding = false ∧
        s.hub.watch.armed = [])
    ∧ (∃ off : Nat, ∃ bs : List Byte, ∃ s : State, barServed s.hub = true ∧ apertureShut s.hub = false ∧ off < 2 ^ 30 ∧ off % 8 < 6 ∧ off
        % 1024 + bs.length ≤ 1024 ∧ 0 < bs.length ∧ rd s.hub (0x2302_02 + 3 * (off / 2 ^ 26)) ≤ off % 2 ^ 26)
    ∧ (∃ off : Nat, ∃ bs : List Byte, ∃ s : State, barServed s.hub = true ∧ apertureShut s.hub = false ∧ off % 2 ^ 26 + bs.length < 2 ^ 26
        ∧ off < 2 ^ 30 ∧ off % 8 < 6 ∧ 1024 < off % 1024 + bs.length ∧ bs.length ≤ 1024 ∧ rd s.hub (0x2302_02 + 3 * (off / 2 ^ 26)) ≤ off
        % 2 ^ 26)
    ∧ (∃ s : State, barServed s.hub = true ∧ apertureShut s.hub = true ∧ bootWindow s.hub = false)
    ∧ (∃ off : Nat, ∃ bs : List Byte, ∃ s : State, barServed s.hub = true ∧ bootWindow s.hub = true ∧ off + bs.length ≤ 0x800000 ∧
        s.hub.boot.control ≠ 1) :=
  ⟨⟨stOf (noHost (barHub [] [])), by decide +kernel⟩,
   ⟨stOf (barHub [] []), by decide +kernel⟩,
   ⟨6, [1, 2], stOf (barHub [] []), by decide +kernel⟩,
   ⟨13, [1, 2, 3], stOf (barHub [] [(513, 0xAABBCCDDEEFF)]), by decide +kernel⟩,
   ⟨2 ^ 30 - 1024, List.replicate 1024 7, stOf (barHub [] []), by decide +kernel⟩,
   ⟨2 ^ 26 + 1021, List.replicate 1024 7, stOf (barHub [] []), by decide +kernel⟩,
   ⟨stOf bootHub, by decide +kernel⟩,
   ⟨6, [1, 2], stOf (bootBar 2), by decide +kernel⟩⟩

theorem test_hyps_HostAccessesAndBridgeResets_2 :
    (∃ off : Nat, ∃ bs : List Byte, ∃ s : State, barServed s.hub = true ∧ bootWindow s.hub = true ∧ 0x800008 ≤ off ∧ 0 < bs.length)
    ∧ (∃ off : Nat, ∃ s : State, barServed s.hub = true ∧ bootWindow s.hub = true ∧ 0x800008 ≤ off)
    ∧ (∃ s : State, barServed s.hub = true ∧ bootWindow s.hub = true)
    ∧ (∃ off : Nat, ∃ len : Nat, ∃ s : State, barServed s.hub = true ∧ apertureShut s.hub = false ∧ off < 2 ^ 30 ∧ 0 < len ∧ off % 8 + len
        ≤ 8 ∧ rd s.hub (0x2302_02 + 3 * (off / 2 ^ 26)) ≤ off % 2 ^ 26 ∧ s.hub.host.reads = [])
    ∧ (∃ off : Nat, ∃ s : State, ∃ len : Nat, barServed s.hub = true ∧ apertureShut s.hub = false ∧ off < 2 ^ 30 ∧ off % 2 ^ 26 < rd s.hub
        (0x2302_02 + 3 * (off / 2 ^ 26)) ∧ (rd s.hub (0x2302_01 + 3 * (off / 2 ^ 26))) < 2 ^ 39 ∧ (rd s.hub (0x2302_01 + 3 * (off / 2 ^
        26))) % 8 = 0 ∧ ((rd s.hub (0x2302_01 + 3 * (off / 2 ^ 26))) + off % 2 ^ 26 / 8 * 8) + 8 ≤ 8 * memWords ∧ portItems s.hub 2 = [] ∧
        outCount s.hub 2 false < readLimit s.hub 2 ∧ s.hub.sleep.holding = false ∧ s.hub.host.reads = [] ∧ s.hub.watch.armed = [] ∧ 0 <
        len ∧ off % 8 + len ≤ 8 ∧ ((rd s.hub (0x2302_01 + 3 * (off / 2 ^ 26))) + off % 2 ^ 26 / 8 * 8) / 8 ∉ s.hub.canopy.poison)
    ∧ (∃ off : Nat, ∃ s : State, barServed s.hub = true ∧ apertureShut s.hub = false ∧ off < 2 ^ 30 ∧ off % 2 ^ 26 < rd s.hub (0x2302_02 +
        3 * (off / 2 ^ 26)) ∧ (rd s.hub (0x2302_01 + 3 * (off / 2 ^ 26))) < 2 ^ 39 ∧ (rd s.hub (0x2302_01 + 3 * (off / 2 ^ 26))) % 8 = 0 ∧
        ((rd s.hub (0x2302_01 + 3 * (off / 2 ^ 26))) + off % 2 ^ 26 / 8 * 8) + 8 ≤ 8 * memWords ∧ portItems s.hub 2 = [] ∧ outCount s.hub
        2 false < readLimit s.hub 2 ∧ s.hub.sleep.holding = false ∧ s.hub.host.reads = [] ∧ s.hub.watch.armed = [] ∧ off % 8 = 0 ∧ ((rd
        s.hub (0x2302_01 + 3 * (off / 2 ^ 26))) + off % 2 ^ 26 / 8 * 8) / 8 ∈ s.hub.canopy.poison)
    ∧ (∃ off : Nat, ∃ s : State, ∃ v : Nat, barServed s.hub = true ∧ apertureShut s.hub = false ∧ off < 2 ^ 30 ∧ off % 2 ^ 26 < rd s.hub
        (0x2302_02 + 3 * (off / 2 ^ 26)) ∧ (rd s.hub (0x2302_01 + 3 * (off / 2 ^ 26))) < 2 ^ 39 ∧ (rd s.hub (0x2302_01 + 3 * (off / 2 ^
        26))) % 8 = 0 ∧ ((rd s.hub (0x2302_01 + 3 * (off / 2 ^ 26))) + off % 2 ^ 26 / 8 * 8) + 8 ≤ 8 * memWords ∧ portItems s.hub 2 = [] ∧
        outCount s.hub 2 false < readLimit s.hub 2 ∧ s.hub.sleep.holding = false ∧ s.hub.host.reads = [] ∧ s.hub.watch.armed = [] ∧ off %
        8 = 0 ∧ v < 2 ^ 48 ∧ ((rd s.hub (0x2302_01 + 3 * (off / 2 ^ 26))) + off % 2 ^ 26 / 8 * 8) / 8 ∉ s.hub.canopy.poison)
    ∧ (∃ off : Nat, ∃ s : State, ∃ e : Nat, ∃ v : Nat, barServed s.hub = true ∧ apertureShut s.hub = false ∧ off < 2 ^ 30 ∧ off % 2 ^ 26 <
        rd s.hub (0x2302_02 + 3 * (off / 2 ^ 26)) ∧ (rd s.hub (0x2302_01 + 3 * (off / 2 ^ 26))) < 2 ^ 39 ∧ (rd s.hub (0x2302_01 + 3 * (off
        / 2 ^ 26))) % 8 = 0 ∧ ((rd s.hub (0x2302_01 + 3 * (off / 2 ^ 26))) + off % 2 ^ 26 / 8 * 8) + 8 ≤ 8 * memWords ∧ portItems s.hub 2
        = [] ∧ outCount s.hub 2 false < readLimit s.hub 2 ∧ s.hub.sleep.holding = false ∧ s.hub.host.reads = [] ∧ s.hub.watch.armed = [] ∧
        off % 8 = 0 ∧ e < 2 ^ 48 ∧ v < 2 ^ 48 ∧ ((rd s.hub (0x2302_01 + 3 * (off / 2 ^ 26))) + off % 2 ^ 26 / 8 * 8) / 8 ∉
        s.hub.canopy.poison) :=
  ⟨⟨0x800008, [1, 2], stOf (bootBar 2), by decide +kernel⟩,
   ⟨0x800008, stOf (bootBar 2), by decide +kernel⟩,
   ⟨stOf (bootBar 2), by decide +kernel⟩,
   ⟨2 ^ 30 - 8, 8, stOf (barHub [] []), by decide +kernel⟩,
   ⟨13, stOf (barHub [] [(513, 0xAABBCCDDEEFF)]), 3, by decide +kernel⟩,
   ⟨8, stOf { barHub [] [(513, 0xAABBCCDDEEFF)] with canopy := { (barHub [] [(513, 0xAABBCCDDEEFF)]).canopy with poison := [513] } },
      by decide +kernel⟩,
   ⟨8, stOf (barHub [] [(513, 0xAABBCCDDEEFF)]), 2 ^ 48 - 1, by decide +kernel⟩,
   ⟨8, stOf (barHub [] [(513, 0xAABBCCDDEEFF)]), 0xAABBCCDDEEFF, 2 ^ 48 - 1, by decide +kernel⟩⟩

theorem test_hyps_HostAccessesAndBridgeResets_3 :
    (∃ b : Bool, ∃ off : Nat, ∃ s : State, barServed s.hub = true ∧ (b = false ∨ off % 8 ≠ 0))
    ∧ (∃ off : Nat, ∃ v : Nat, ∃ s : State, barServed s.hub = true ∧ off % 8 = 0 ∧ apertureShut s.hub = false ∧ 2 ^ 48 ≤ v)
    ∧ (∃ a : Nat, a < 2 ^ 48)
    ∧ (∃ s : State, served s.hub .host = true ∧ pathWaits s.hub .host = false ∧ refusalCode (readCauses (readTouch .host 0x2A02 1 s.hub)
        0x2A02 1) = none ∧ portItems s.hub 2 = [] ∧ s.hub.host.barrier = [] ∧ outCount s.hub 2 true = 0)
    ∧ (∃ s : State, served s.hub .host = true ∧ pathWaits s.hub .host = false ∧ refusalCode (readCauses (readTouch .host 0x2A02 1 s.hub)
        0x2A02 1) = none ∧ portItems s.hub 2 = [] ∧ s.hub.host.barrier = [] ∧ outCount s.hub 2 true ≠ 0)
    ∧ (∃ p : Path, ∃ s : State, served s.hub p = true ∧ pathWaits s.hub p = false ∧ p ≠ .host ∧ refusalCode (readCauses (readTouch p
        0x2A02 1 s.hub) 0x2A02 1) = none)
    ∧ (∃ v : Fin 32, ∃ s : State, barServed s.hub = true ∧ (s.hub.msix.filter fun x => !msixMasked s.hub x).head? = some v.val)
    ∧ (∃ v : Fin 32, ∃ s : State, (barServed s.hub = false ∨ (s.hub.msix.filter fun x => !msixMasked s.hub x).head? ≠ some v.val)) :=
  ⟨⟨true, 12, stOf (barHub [] []), by decide +kernel⟩,
   ⟨8, 2 ^ 48, stOf (barHub [] [(513, 0xAABBCCDDEEFF)]), by decide +kernel⟩,
   ⟨2 ^ 48 - 1, by decide +kernel⟩,
   ⟨stOf { barHub [] [] with host := { (barHub [] []).host with logged := 7 } }, by decide +kernel⟩,
   ⟨stOf { barHub [] [] with canopy := { (barHub [] []).canopy with out := [outW] } }, by decide +kernel⟩,
   ⟨.sdo 0, stOf (barHub [] []), by decide +kernel⟩,
   ⟨31, stOf { barHub [] [] with msix := [3, 31], host := { (barHub [] []).host with table := [(63, 5)] } }, by decide +kernel⟩,
   ⟨3, stOf { barHub [] [] with msix := [31, 3] }, by decide +kernel⟩⟩

theorem test_hyps_QspiCommandsAreAnswered :
    (∃ s : State, qspiServed s.hub = false)
    ∧ (∃ a : Nat, ∃ bs : List Byte, ∃ s : State, qspiServed s.hub = true ∧ (a % 4 ≠ 0 ∨ bs.length % 4 ≠ 0 ∨ bs.length < 4 ∨ 256 <
        bs.length ∨ qspiOffset s.hub a = none))
    ∧ (∃ a : Nat, ∃ bs : List Byte, ∃ s : State, ∃ off : Nat, qspiServed s.hub = true ∧ a % 8 = 0 ∧ bs.length = 8 ∧ qspiSpace a = 0 ∧
        qspiOffset s.hub a = some off)
    ∧ (∃ a : Nat, ∃ bs : List Byte, ∃ s : State, ∃ off : Nat, ∃ hi : Bool, qspiServed s.hub = true ∧ a % 4 = 0 ∧ bs.length = 4 ∧ qspiSpace
        a = 0 ∧ qspiOffset s.hub a = some off ∧ hi = (off % 8 == 4))
    ∧ (∃ off : Nat, ∃ bs : List Byte, ∃ s : State, qspiServed s.hub = true ∧ apertureShut s.hub = false ∧ off < 2 ^ 30 ∧ off % 4 = 0 ∧
        bs.length % 4 = 0 ∧ 0 < bs.length ∧ bs.length ≤ 256 ∧ off % 1024 + bs.length ≤ 1024 ∧ off % 8 + bs.length ≤ 8 ∧ off % 2 ^ 26 < rd
        s.hub (0x2302_02 + 3 * (off / 2 ^ 26)) ∧ (rd s.hub (0x2302_01 + 3 * (off / 2 ^ 26))) < 2 ^ 39 ∧ (rd s.hub (0x2302_01 + 3 * (off /
        2 ^ 26))) % 8 = 0 ∧ ((rd s.hub (0x2302_01 + 3 * (off / 2 ^ 26))) + off % 2 ^ 26 / 8 * 8) + 8 ≤ 8 * memWords ∧ portItems s.hub 2 =
        [] ∧ outCount s.hub 2 true < 256 ∧ s.hub.sleep.holding = false ∧ s.hub.watch.armed = [])
    ∧ (∃ off : Nat, ∃ bs : List Byte, ∃ s : State, qspiServed s.hub = true ∧ apertureShut s.hub = false ∧ off < 2 ^ 30 ∧ off % 4 = 0 ∧
        bs.length % 4 = 0 ∧ 0 < bs.length ∧ bs.length ≤ 256 ∧ off % 1024 + bs.length ≤ 1024 ∧ rd s.hub (0x2302_02 + 3 * (off / 2 ^ 26)) ≤
        off % 2 ^ 26)
    ∧ (∃ a : Nat, ∃ len : Nat, ∃ s : State, qspiServed s.hub = true ∧ (a % 4 ≠ 0 ∨ len % 4 ≠ 0 ∨ len < 4 ∨ 4096 < len ∨ qspiOffset s.hub a
        = none))
    ∧ (∃ a : Nat, ∃ s : State, ∃ off : Nat, ∃ v : Nat, qspiServed s.hub = true ∧ pathWaits s.hub .host = false ∧ a % 8 = 0 ∧ qspiSpace a =
        0 ∧ qspiOffset s.hub a = some off ∧ off / 8 ≠ 0x2A02_01 ∧ (readSlot .host (off / 2048) (off / 8 % 256) (bump s.hub
        0x4A00_05)).answer = .value v) :=
  ⟨⟨stOf (barHub [] []), by decide +kernel⟩,
   ⟨0, List.replicate 260 7, stOf (qHub [] []), by decide +kernel⟩,
   ⟨0x2802_03 * 8, [100, 0, 0, 0, 0, 0, 0, 0], stOf (qHub [] []), 0x2802_03 * 8, by decide +kernel⟩,
   ⟨0x2802_03 * 8 + 4, [100, 0, 0, 0], stOf (qHub [] []), 0x2802_03 * 8 + 4, true, by decide +kernel⟩,
   ⟨12, [1, 2, 3, 4], stOf (qHub [] [(513, 0xAABBCCDDEEFF)]), by decide +kernel⟩,
   ⟨2 ^ 30 - 256, List.replicate 256 7, stOf (qHub [] []), by decide +kernel⟩,
   ⟨2, 4, stOf (qHub [] []), by decide +kernel⟩,
   ⟨0x2802_03 * 8, stOf (qHub [] []), 0x2802_03 * 8, 1000, by decide +kernel⟩⟩

theorem test_hyps_QspiCommandsAreAnswered_2 :
    (∃ a : Nat, ∃ s : State, ∃ off : Nat, ∃ c : Nat, qspiServed s.hub = true ∧ pathWaits s.hub .host = false ∧ a % 8 = 0 ∧ qspiSpace a = 0
        ∧ qspiOffset s.hub a = some off ∧ off / 8 ≠ 0x2A02_01 ∧ (readSlot .host (off / 2048) (off / 8 % 256) (bump s.hub
        0x4A00_05)).answer = .refused c)
    ∧ (∃ a : Nat, ∃ len : Nat, ∃ s : State, ∃ off : Nat, ∃ q : Nat, qspiServed s.hub = true ∧ pathWaits s.hub .host = true ∧ a % 4 = 0 ∧
        len % 4 = 0 ∧ 4 ≤ len ∧ len ≤ 4096 ∧ qspiSpace a = 0 ∧ qspiOffset s.hub a = some off ∧ qspiTag s.hub = some q)
    ∧ (∃ a : Nat, ∃ s : State, ∃ q : Nat, ∃ bs : List BarrierRead, qspiServed s.hub = true ∧ pathWaits s.hub .host = false ∧ qspiSpace a =
        0 ∧ qspiOffset s.hub a = some (8 * 0x2A02_01) ∧ qspiTag s.hub = some q ∧ portItems s.hub 2 = [] ∧ outCount s.hub 2 true ≠ 0 ∧
        servedInBoot s.hub 0x2A02 1 = true ∧ s.hub.host.barrier = bs)
    ∧ (∃ off : Nat, ∃ s : State, ∃ v : Nat, qspiServed s.hub = true ∧ apertureShut s.hub = false ∧ off < 2 ^ 30 ∧ off % 8 = 0 ∧ off % 2 ^
        26 < rd s.hub (0x2302_02 + 3 * (off / 2 ^ 26)) ∧ (rd s.hub (0x2302_01 + 3 * (off / 2 ^ 26))) < 2 ^ 39 ∧ (rd s.hub (0x2302_01 + 3 *
        (off / 2 ^ 26))) % 8 = 0 ∧ ((rd s.hub (0x2302_01 + 3 * (off / 2 ^ 26))) + off % 2 ^ 26 / 8 * 8) + 8 ≤ 8 * memWords ∧ qspiTag s.hub
        ≠ none ∧ splitFull s.hub = false ∧ portItems s.hub 2 = [] ∧ s.hub.sleep.holding = false ∧ s.hub.host.reads = [] ∧ ((rd s.hub
        (0x2302_01 + 3 * (off / 2 ^ 26))) + off % 2 ^ 26 / 8 * 8) / 8 ∉ s.hub.canopy.poison ∧ s.hub.watch.armed = [] ∧ v < 2 ^ 48)
    ∧ (∃ off : Nat, ∃ s : State, ∃ e : Nat, ∃ v : Nat, qspiServed s.hub = true ∧ apertureShut s.hub = false ∧ off < 2 ^ 30 ∧ off % 8 = 0 ∧
        off % 2 ^ 26 < rd s.hub (0x2302_02 + 3 * (off / 2 ^ 26)) ∧ (rd s.hub (0x2302_01 + 3 * (off / 2 ^ 26))) < 2 ^ 39 ∧ (rd s.hub
        (0x2302_01 + 3 * (off / 2 ^ 26))) % 8 = 0 ∧ ((rd s.hub (0x2302_01 + 3 * (off / 2 ^ 26))) + off % 2 ^ 26 / 8 * 8) + 8 ≤ 8 *
        memWords ∧ qspiTag s.hub ≠ none ∧ splitFull s.hub = false ∧ portItems s.hub 2 = [] ∧ s.hub.sleep.holding = false ∧
        s.hub.host.reads = [] ∧ ((rd s.hub (0x2302_01 + 3 * (off / 2 ^ 26))) + off % 2 ^ 26 / 8 * 8) / 8 ∉ s.hub.canopy.poison ∧
        s.hub.watch.armed = [] ∧ e < 2 ^ 48 ∧ v < 2 ^ 48)
    ∧ (∃ off : Nat, ∃ s : State, qspiServed s.hub = true ∧ apertureShut s.hub = false ∧ off < 2 ^ 30 ∧ off % 8 = 0 ∧ off % 2 ^ 26 < rd
        s.hub (0x2302_02 + 3 * (off / 2 ^ 26)) ∧ (rd s.hub (0x2302_01 + 3 * (off / 2 ^ 26))) < 2 ^ 39 ∧ (rd s.hub (0x2302_01 + 3 * (off /
        2 ^ 26))) % 8 = 0 ∧ ((rd s.hub (0x2302_01 + 3 * (off / 2 ^ 26))) + off % 2 ^ 26 / 8 * 8) + 8 ≤ 8 * memWords ∧ qspiTag s.hub ≠ none
        ∧ splitFull s.hub = false ∧ portItems s.hub 2 = [] ∧ s.hub.sleep.holding = false ∧ s.hub.host.reads = [] ∧ ((rd s.hub (0x2302_01 +
        3 * (off / 2 ^ 26))) + off % 2 ^ 26 / 8 * 8) / 8 ∉ s.hub.canopy.poison ∧ s.hub.watch.armed = [])
    ∧ (∃ off : Nat, ∃ q : Nat, ∃ s : State, qspiServed s.hub = true ∧ apertureShut s.hub = false ∧ off < 2 ^ 30 ∧ off % 8 = 0 ∧ off % 2 ^
        26 < rd s.hub (0x2302_02 + 3 * (off / 2 ^ 26)) ∧ (rd s.hub (0x2302_01 + 3 * (off / 2 ^ 26))) % 8 = 0 ∧ isLogical (rd s.hub
        (0x2302_01 + 3 * (off / 2 ^ 26))) = false ∧ bits (rd s.hub (0x2302_01 + 3 * (off / 2 ^ 26))) 38 0 + off % 2 ^ 26 < 2 ^ 39 ∧ 0 <
        (addrHub (rd s.hub (0x2302_01 + 3 * (off / 2 ^ 26)))) ∧ (addrHub (rd s.hub (0x2302_01 + 3 * (off / 2 ^ 26)))) < 255 ∧ (addrHub (rd
        s.hub (0x2302_01 + 3 * (off / 2 ^ 26)))) ≠ hubNumber s.hub ∧ (reachable s.hub false (addrHub (rd s.hub (0x2302_01 + 3 * (off / 2 ^
        26)))) = true ∨ reachable s.hub true (addrHub (rd s.hub (0x2302_01 + 3 * (off / 2 ^ 26)))) = true) ∧ qspiTag s.hub = some q ∧
        splitFull s.hub = false ∧ portItems s.hub 2 = [] ∧ s.hub.sleep.holding = false ∧ s.hub.host.reads = [])
    ∧ (∃ a : Nat, ∃ v : Nat, ∃ s : State, qspiServed s.hub = true ∧ qspiSpace a = 1 ∧ a < 2 ^ 32 ∧ a % 8 = 0 ∧ apertureShut s.hub = false
        ∧ v < 2 ^ 48 ∧ (splitFull s.hub = true ∨ qspiTag s.hub = none)) :=
  ⟨⟨0x2802_05 * 8, stOf (qHub [] []), 0x2802_05 * 8, 2, by decide +kernel⟩,
   ⟨0x2802_03 * 8, 4, stOf (waitingHost (qHub [] [])), 0x2802_03 * 8, 0, by decide +kernel⟩,
   ⟨8 * 0x2A02_01, stOf { qHub [] [] with canopy := { (qHub [] []).canopy with out := [outW] } }, 0, [], by decide +kernel⟩,
   ⟨8, stOf (qHub [] [(513, 0xAABBCCDDEEFF)]), 2 ^ 48 - 1, by decide +kernel⟩,
   ⟨8, stOf (qHub [] [(513, 0xAABBCCDDEEFF)]), 0xAABBCCDDEEFF, 2 ^ 48 - 1, by decide +kernel⟩,
   ⟨8, stOf (qHub [] [(513, 0xAABBCCDDEEFF)]), by decide +kernel⟩,
   ⟨8, 1, stOf (qRes (qHub [(0x2302_01, 9 * 2 ^ 39 + 4096)] []) 0 [0]), by decide +kernel⟩,
   ⟨2 ^ 30 + 8, 5, stOf (qHub [(0x2A01_04, 0)] []), by decide +kernel⟩⟩

theorem test_hyps_QspiCommandsAreAnswered_3 :
    (∃ a : Nat, ∃ v : Nat, ∃ s : State, qspiServed s.hub = true ∧ (a % 8 ≠ 0 ∨ qspiSpace a ≠ 1 ∨ 2 ^ 48 ≤ v))
    ∧ (∃ q : Nat, ∃ s : State, ∃ bs : List Byte, qspiServed s.hub = true ∧ s.hub.host.results.find? (fun e => e.1 == q) = some (q, bs))
    ∧ (∃ q : Nat, ∃ s : State, qspiServed s.hub = true ∧ q ∉ qspiTags s.hub)
    ∧ (∃ q : Nat, ∃ s : State, q ∈ s.hub.host.results.map (·.1))
    ∧ (∃ q : Nat, ∃ s : State, q ∉ s.hub.host.results.map (·.1)) :=
  ⟨⟨8, 0, stOf (qHub [] []), by decide +kernel⟩,
   ⟨63, stOf (qRes (qHub [] []) 63 [0, 7]), [0, 7], by decide +kernel⟩,
   ⟨62, stOf (qRes (qHub [] []) 63 [0, 7]), by decide +kernel⟩,
   ⟨63, stOf (qRes (qHub [] []) 63 [0, 7]), by decide +kernel⟩,
   ⟨62, stOf (qRes (qHub [] []) 63 [0, 7]), by decide +kernel⟩⟩

theorem test_hyps_DomeSealsAndOpensFrames :
    (∃ f : Frame, ∃ s : State, domeFront s.hub ≠ some f)
    ∧ (∃ f : Frame, ∃ s : State, domeFront s.hub = some f ∧ f.poison ≠ [] ∧ crossingShut s.hub 0 0x12 = false ∧ (crossing s.hub 0
        0x12).entries = [] ∧ s.hub.watch.armed = [])
    ∧ (∃ f : Frame, ∃ s : State, DomeReady f s.hub ∧ (domeServes s.hub = false ∨ sealNeeded s.hub f = true ∧ s.hub.dome.persisted =
        false))
    ∧ (∃ f : Frame, ∃ s : State, DomeReady f s.hub ∧ domeServes s.hub = true ∧ sealNeeded s.hub f = false)
    ∧ (∃ f : Frame, ∃ k : List Byte, ∃ s : State, DomeReady f s.hub ∧ domeServes s.hub = true ∧ sealNeeded s.hub f = true ∧
        s.hub.dome.persisted = true ∧ s.hub.dome.srk = some k ∧ (clsNum f.cls) ∉ s.hub.dome.exhausted ∧ ((if tabGet (2 ^ 32)
        s.hub.dome.sendEpoch (clsNum f.cls) = s.hub.dome.epoch then rd s.hub (0x4B00_06 + (clsNum f.cls)) else 0)) < 2 ^ 48 - 1 ∧ ((if
        tabGet (2 ^ 32) s.hub.dome.sendEpoch (clsNum f.cls) = s.hub.dome.epoch then rd s.hub (0x4B00_06 + (clsNum f.cls)) else 0)) + 1 ≠ 2
        ^ 47)
    ∧ (∃ f : Frame, ∃ k : List Byte, ∃ s : State, DomeReady f s.hub ∧ domeServes s.hub = true ∧ sealNeeded s.hub f = true ∧
        s.hub.dome.persisted = true ∧ s.hub.dome.srk = some k ∧ (clsNum f.cls) ∉ s.hub.dome.exhausted ∧ ((if tabGet (2 ^ 32)
        s.hub.dome.sendEpoch (clsNum f.cls) = s.hub.dome.epoch then rd s.hub (0x4B00_06 + (clsNum f.cls)) else 0)) + 1 = 2 ^ 47 ∧
        s.hub.dome.next = none ∧ s.hub.dome.epochValid = true ∧ s.hub.dome.epoch + 1 < 2 ^ 32)
    ∧ (∃ f : Frame, ∃ k : List Byte, ∃ s : State, DomeReady f s.hub ∧ domeServes s.hub = true ∧ sealNeeded s.hub f = true ∧
        s.hub.dome.persisted = true ∧ s.hub.dome.srk = some k ∧ ((clsNum f.cls) ∈ s.hub.dome.exhausted ∨ ((if tabGet (2 ^ 32)
        s.hub.dome.sendEpoch (clsNum f.cls) = s.hub.dome.epoch then rd s.hub (0x4B00_06 + (clsNum f.cls)) else 0)) = 2 ^ 48 - 1))
    ∧ (∃ f : Frame, ∃ s : State, DomeReady f s.hub ∧ s.hub.dome.srk = none ∧ f.secured = true) :=
  ⟨⟨frm 5 9 1 .mg [1], stOf (domeHub 3 { dome0 with persisted := false } []), by decide +kernel⟩,
   ⟨{ frm 5 9 1 .mg [1] with poison := [0] }, stOf (domeAt ({ frm 5 9 1 .mg [1] with poison := [0] }) (domeHub 3 dome0 [])),
      by decide +kernel⟩,
   ⟨frm 5 9 1 .mg [1], stOf (domeAt (frm 5 9 1 .mg [1]) (domeHub 3 { dome0 with persisted := false } [])),
      by unfold DomeReady; decide +kernel⟩,
   ⟨frm 5 9 1 .cy [1], stOf (domeAt (frm 5 9 1 .cy [1]) (domeHub 3 dome0 [(0x2B01_01, 0)])), by unfold DomeReady; decide +kernel⟩,
   ⟨frm 5 9 1 .mg [1], srk0, stOf (domeAt (frm 5 9 1 .mg [1]) (domeHub 3 { dome0 with sendEpoch := [(3, 20)] } [(0x4B00_09, 2 ^ 47)])),
      by unfold DomeReady; decide +kernel⟩,
   ⟨frm 5 9 1 .mg [1], srk0, stOf (domeAt (frm 5 9 1 .mg [1]) (domeHub 3 { dome0 with sendEpoch := [(3, 20)] } [(0x4B00_09, 2 ^ 47 -
      1)])), by unfold DomeReady; decide +kernel⟩,
   ⟨frm 5 9 1 .mg [1], srk0, stOf (domeAt (frm 5 9 1 .mg [1]) (domeHub 3 { dome0 with sendEpoch := [(3, 20)] } [(0x4B00_09, 2 ^ 48 -
      1)])), by unfold DomeReady; decide +kernel⟩,
   ⟨secF 9 7, stOf (domeAt (secF 9 7) (domeHub 3 { dome0 with srk := none } [])), by unfold DomeReady; decide +kernel⟩⟩

theorem test_hyps_DomeSealsAndOpensFrames_2 :
    (∃ f : Frame, ∃ s : State, ∃ k : List Byte, DomeReady f s.hub ∧ s.hub.dome.srk = some k ∧ f.secured = false ∧ protection s.hub f.cls ≠
        0 ∧ sourceZeroControl f = false)
    ∧ (∃ f : Frame, ∃ s : State, DomeReady f s.hub ∧ f.secured = false ∧ (s.hub.dome.srk = none ∨ protection s.hub f.cls = 0 ∨
        sourceZeroControl f = true))
    ∧ (∃ f : Frame, ∃ k : List Byte, ∃ c, ∃ s : State, DomeReady f s.hub ∧ s.hub.dome.srk = some k ∧ domeServes s.hub = true ∧ f.secured =
        true ∧ findContext s.hub.dome.hardware f.src f.slot = some c ∧ f.epoch ≤ c.epoch ∧ f.epoch ≠ c.epoch ∧ c.prev ≠ some f.epoch)
    ∧ (∃ f : Frame, ∃ k : List Byte, ∃ c, ∃ s : State, DomeReady f s.hub ∧ s.hub.dome.srk = some k ∧ domeServes s.hub = true ∧ f.secured =
        true ∧ findContext s.hub.dome.hardware f.src f.slot = some c ∧ f.epoch ≤ c.epoch ∧ (f.epoch = c.epoch ∨ c.prev = some f.epoch))
    ∧ (∃ f : Frame, ∃ k : List Byte, ∃ s : State, DomeReady f s.hub ∧ s.hub.dome.srk = some k ∧ domeServes s.hub = true ∧ f.secured = true
        ∧ findContext s.hub.dome.hardware f.src f.slot = none ∧ findContext s.hub.dome.inner f.src f.slot = none)
    ∧ (∃ f : Frame, ∃ k : List Byte, ∃ s : State, ∃ c, DomeReady f s.hub ∧ s.hub.dome.srk = some k ∧ domeServes s.hub = true ∧ f.secured =
        true ∧ findContext s.hub.dome.hardware f.src f.slot = none ∧ findContext s.hub.dome.inner f.src f.slot = some c ∧ f.epoch ≤
        c.epoch)
    ∧ (∃ f : Frame, ∃ k : List Byte, ∃ c, ∃ s : State, DomeReady f s.hub ∧ s.hub.dome.srk = some k ∧ domeServes s.hub = true ∧ f.secured =
        true ∧ findContext s.hub.dome.hardware f.src f.slot = some c ∧ c.epoch < f.epoch) :=
  ⟨⟨frm 9 5 1 .mg [1], stOf (domeAt (frm 9 5 1 .mg [1]) (domeHub 3 dome0 [])), srk0, by unfold DomeReady; decide +kernel⟩,
   ⟨frm 0 255 5 .mg [1], stOf (domeAt (frm 0 255 5 .mg [1]) (domeHub 3 dome0 [])), by unfold DomeReady; decide +kernel⟩,
   ⟨secF 9 6, srk0, ctx 9 3 7 none, stOf (domeAt (secF 9 6) (domeHub 3 dome0 [])), by unfold DomeReady; decide +kernel⟩,
   ⟨secF 8 5, srk0, ctx 8 3 6 (some 5), stOf (domeAt (secF 8 5) (domeHub 3 dome0 [])), by unfold DomeReady; decide +kernel⟩,
   ⟨secF 4 5, srk0, stOf (domeAt (secF 4 5) (domeHub 3 dome0 [])), by unfold DomeReady; decide +kernel⟩,
   ⟨secF 7 4, srk0, stOf (domeAt (secF 7 4) (domeHub 3 dome0 [])), ctx 7 3 4 none, by unfold DomeReady; decide +kernel⟩,
   ⟨secF 9 8, srk0, ctx 9 3 7 none, stOf (domeAt (secF 9 8) (domeHub 3 dome0 [])), by unfold DomeReady; decide +kernel⟩⟩

theorem test_hyps_EpochsAdvanceBelowTheCeiling :
    (∃ d : Dome, ∃ e : Nat, ∃ s : State, d = s.hub.dome ∧ e = (if d.epochValid then d.epoch + 1 else d.ceiling) ∧ d.next = none ∧
        (d.epochValid = true → d.epoch < 2 ^ 32 - 1) ∧ e < d.ceiling ∧ rd s.hub 0x2B01_05 ≠ 0)
    ∧ (∃ p : Path, ∃ d : Dome, ∃ e : Nat, ∃ s : State, d = s.hub.dome ∧ e = (if d.epochValid then d.epoch + 1 else d.ceiling) ∧ d.next =
        none ∧ (d.epochValid = true → d.epoch < 2 ^ 32 - 1) ∧ e < d.ceiling ∧ WriteOpen p 0x2B04 1 1 s.hub ∧ domeServes s.hub = true)
    ∧ (∃ d : Dome, ∃ e : Nat, ∃ s : State, d = s.hub.dome ∧ e = (if d.epochValid then d.epoch + 1 else d.ceiling) ∧ d.next = none ∧
        (d.epochValid = true → d.epoch < 2 ^ 32 - 1) ∧ d.ceiling ≤ e ∧ rd s.hub 0x2B01_05 ≠ 0)
    ∧ (∃ p : Path, ∃ d : Dome, ∃ e : Nat, ∃ s : State, d = s.hub.dome ∧ e = (if d.epochValid then d.epoch + 1 else d.ceiling) ∧ d.next =
        none ∧ (d.epochValid = true → d.epoch < 2 ^ 32 - 1) ∧ d.ceiling ≤ e ∧ WriteOpen p 0x2B04 1 1 s.hub ∧ domeServes s.hub = true)
    ∧ (∃ s : State, (rd s.hub 0x2B01_05 = 0 ∨ s.hub.dome.next ≠ none))
    ∧ (∃ s : State, rd s.hub 0x2B01_05 ≠ 0 ∧ s.hub.dome.next = none ∧ s.hub.dome.epochValid = true ∧ s.hub.dome.epoch = 2 ^ 32 - 1)
    ∧ (∃ p : Path, ∃ s : State, WriteOpen p 0x2B04 1 1 s.hub ∧ domeServes s.hub = false)
    ∧ (∃ e : Nat, ∃ s : State, s.hub.dome.next = some e ∧ s.hub.dome.writing = true) :=
  ⟨⟨dome0, 21, stOf (domeHub 3 dome0 [(0x2B01_05, 5)]), by decide +kernel⟩,
   
      ⟨.host, dome0, 21, stOf (withSession .host { sessionInit with role := 2 } (domeHub 2 dome0 [])), by decide +kernel, by decide +kernel, by decide +kernel, by decide +kernel, by decide +kernel, by (repeat' apply And.intro) <;> decide +kernel, by decide +kernel⟩,
   ⟨{ dome0 with epoch := 31 }, 32, stOf (domeHub 3 { dome0 with epoch := 31 } [(0x2B01_05, 5)]), by decide +kernel⟩,
   
      ⟨.host, { dome0 with epoch := 31 }, 32, stOf (withSession .host { sessionInit with role := 2 } (domeHub 2 { dome0 with epoch := 31 } [])), by decide +kernel, by decide +kernel, by decide +kernel, by decide +kernel, by decide +kernel, by (repeat' apply And.intro) <;> decide +kernel, by decide +kernel⟩,
   ⟨stOf (domeHub 3 dome0 [(0x2B01_05, 0)]), by decide +kernel⟩,
   ⟨stOf (domeHub 3 { dome0 with epoch := 2 ^ 32 - 1 } [(0x2B01_05, 5)]), by decide +kernel⟩,
   
      ⟨.host, stOf (withSession .host { sessionInit with role := 2 } (domeHub 2 dome0 [(0x4B00_02, 1)])), by (repeat' apply And.intro) <;> decide +kernel, by decide +kernel⟩,
   ⟨32, stOf (domeHub 3 { dome0 with epoch := 31, next := some 32, writing := true, rekeying := true } []), by decide +kernel⟩⟩

theorem test_hyps_EpochsAdvanceBelowTheCeiling_2 :
    (∃ s : State, (s.hub.dome.next = none ∨ s.hub.dome.writing = false))
    ∧ (∃ s : State, s.hub.dome.next = none)
    ∧ (∃ s : State, s.hub.dome.next ≠ none) :=
  ⟨⟨stOf (domeHub 3 dome0 []), by decide +kernel⟩,
   ⟨stOf (domeHub 3 dome0 []), by decide +kernel⟩,
   ⟨stOf (domeHub 3 { dome0 with next := some 32 } []), by decide +kernel⟩⟩

theorem test_hyps_RolesKeysAndZeroisation :
    (∃ p : Path, ∃ s : State, WriteOpen p 0x2B02 1 0 s.hub)
    ∧ (∃ p : Path, ∃ i : Instr, ∃ r : Nat, ∃ s : State, (i = .operatorRoleRequest p ∧ r = 1 ∨ i = .cryptoOfficerRoleRequest p ∧ r = 2) ∧
        WriteOpen p 0x2B02 1 r s.hub ∧ (session s.hub p).closed = false ∧ domeServes s.hub = true)
    ∧ (∃ p : Path, ∃ i : Instr, ∃ r : Nat, ∃ s : State, (i = .operatorRoleRequest p ∧ r = 1 ∨ i = .cryptoOfficerRoleRequest p ∧ r = 2) ∧
        WriteOpen p 0x2B02 1 r s.hub ∧ (session s.hub p).closed = true)
    ∧ (∃ p : Path, ∃ bs : List Byte, ∃ role : Nat, ∃ w0 : Nat, ∃ w1 : Nat, ∃ t0 : Nat, ∃ s : State, WriteOpen p 0x2B02 4 (bytesNat bs)
        s.hub ∧ (session s.hub p).challenge = some (role, w0, w1, t0) ∧ nowNs s.hub < t0 + 10000000000 ∧ bs.length = 16)
    ∧ (∃ p : Path, ∃ bs : List Byte, ∃ s : State, WriteOpen p 0x2B02 4 (bytesNat bs) s.hub ∧ challengeOpen s.hub p = false ∧ bs.length =
        16)
    ∧ (∃ p : Path, ∃ s : State, (session s.hub p).lastAccess + rd s.hub 0x2B02_08 * 1000000000 ≤ nowNs s.hub)
    ∧ (∃ p : Path, ∃ s : State, nowNs s.hub < (session s.hub p).lastAccess + rd s.hub 0x2B02_08 * 1000000000)
    ∧ (∃ p : Path, ∃ s : State, WriteOpen p 0x2B03 8 1 s.hub ∧ domeServes s.hub = true ∧ s.hub.dome.srk = none ∧ (mode s.hub = 2 ∨ mode
        s.hub = 7)) :=
  
      ⟨⟨.host, stOf (withSession .host { sessionInit with role := 2 } (domeHub 2 dome0 [])), by (repeat' apply And.intro) <;> decide +kernel⟩,
   
      ⟨.host, .cryptoOfficerRoleRequest .host, 2, stOf (domeHub 2 dome0 []), ⟨Or.inr ⟨rfl, rfl⟩, by (repeat' apply And.intro) <;> decide +kernel, by decide +kernel, by decide +kernel⟩⟩,
   
      ⟨.host, .operatorRoleRequest .host, 1, stOf (withSession .host { sessionInit with closed := true } (domeHub 2 dome0 [])), ⟨Or.inl ⟨rfl, rfl⟩, by (repeat' apply And.intro) <;> decide +kernel, by decide +kernel⟩⟩,
   ⟨.host, List.replicate 16 0, 1, 5, 6, 2 ^ 70, stOf (withSession .host
      { sessionInit with challenge := some (1, 5, 6, 2 ^ 70), failures := 2 } (domeHub 2 dome0 [])), by unfold WriteOpen; decide +kernel⟩,
   ⟨.host, List.replicate 16 1, stOf (domeHub 2 dome0 []), by unfold WriteOpen; decide +kernel⟩,
   ⟨.host, stOf (domeHub 2 dome0 []), by decide +kernel⟩,
   ⟨.host, stOf (withSession .host { sessionInit with lastAccess := 2 ^ 70 } (domeHub 2 dome0 [])), by decide +kernel⟩,
   
      ⟨.host, stOf (withSession .host { sessionInit with role := 2 } (domeHub 2 { dome0 with srk := none } [])), by (repeat' apply And.intro) <;> decide +kernel, by decide +kernel, by decide +kernel, by first | decide +kernel | exact Or.inl (by decide +kernel) | exact Or.inr (Or.inl (by decide +kernel)) | exact Or.inr (Or.inr (by decide +kernel))⟩⟩

theorem test_hyps_RolesKeysAndZeroisation_2 :
    (∃ p : Path, ∃ s : State, WriteOpen p 0x2B03 8 1 s.hub ∧ domeServes s.hub = true ∧ s.hub.dome.srk ≠ none)
    ∧ (∃ p : Path, ∃ s : State, WriteOpen p 0x2B04 1 2 s.hub ∧ domeServes s.hub = true ∧ s.hub.dome.generation < 32)
    ∧ (∃ p : Path, ∃ kind : Nat, ∃ s : State, ∃ i : Instr, (i = .zeroise p ∧ WriteOpen p 0x2B04 1 3 s.hub ∧ domeServes s.hub = true ∧ rd
        s.hub 0x2B04_02 = 0x6F72657A ∨ i = .tamperEvent kind))
    ∧ (∃ p : Path, ∃ s : State, WriteOpen p 0x2B04 1 3 s.hub ∧ domeServes s.hub = true ∧ rd s.hub 0x2B04_02 ≠ 0x6F72657A) :=
  
      ⟨⟨.host, stOf (withSession .host { sessionInit with role := 2 } (domeHub 2 dome0 [])), by (repeat' apply And.intro) <;> decide +kernel, by decide +kernel⟩,
   
      ⟨.host, stOf (withSession .host { sessionInit with role := 2 } (domeHub 2 dome0 [])), by (repeat' apply And.intro) <;> decide +kernel, by decide +kernel⟩,
   
      ⟨.host, 1, stOf (withSession .host { sessionInit with role := 2 } (domeHub 2 { dome0 with generation := 31 } [(0x2B04_02, 0x6F72657A), (0x4B00_08, 9)])), .zeroise .host, Or.inl ⟨rfl, by (repeat' apply And.intro) <;> decide +kernel, by decide +kernel, by decide +kernel⟩⟩,
   
      ⟨.host, stOf (withSession .host { sessionInit with role := 2 } (domeHub 2 dome0 [])), by (repeat' apply And.intro) <;> decide +kernel, by decide +kernel⟩⟩

theorem test_hyps_FuseChannelsStartTripAndRetry :
    (∃ n : Fin 16, ∃ s : State, FuseReady n s.hub ∧ fuseState s.hub n = 1 ∧ fuseCool s.hub n = true)
    ∧ (∃ n : Fin 16, ∃ s : State, FuseReady n s.hub ∧ fuseState s.hub n = 1 ∧ fuseCool s.hub n = false)
    ∧ (∃ n : Fin 16, ∃ s : State, FuseReady n s.hub ∧ fuseActive (fuseState s.hub n) = true)
    ∧ (∃ n : Fin 16, ∃ c : FuseCh, ∃ s : State, c = fuse s.hub n ∧ fuseState s.hub n = 2 ∧ sampledWithin c 200000 = true ∧ (rd s.hub
        (fuseCfg n 7) : Int) ≤ signed (rd s.hub (fuseKey n 7)))
    ∧ (∃ n : Fin 16, ∃ c : FuseCh, ∃ s : State, c = fuse s.hub n ∧ fuseState s.hub n = 2 ∧ (sampledWithin c 200000 = false ∨ signed (rd
        s.hub (fuseKey n 7)) < rd s.hub (fuseCfg n 7)))
    ∧ (∃ n : Fin 16, ∃ c : FuseCh, ∃ s : State, c = fuse s.hub n ∧ fuseState s.hub n = 3 ∧ sampledWithin c (rd s.hub (fuseCfg n 5) * 1000)
        = true ∧ rd s.hub (fuseCfg n 6) * rd s.hub (fuseKey n 6) ≤ 100 * rd s.hub (fuseKey n 5))
    ∧ (∃ n : Fin 16, ∃ c : FuseCh, ∃ s : State, c = fuse s.hub n ∧ fuseState s.hub n = 3 ∧ (sampledWithin c (rd s.hub (fuseCfg n 5) *
        1000) = false ∨ 100 * rd s.hub (fuseKey n 5) < rd s.hub (fuseCfg n 6) * rd s.hub (fuseKey n 6)))
    ∧ (∃ n : Fin 16, ∃ c : FuseCh, ∃ s : State, c = fuse s.hub n ∧ fuseState s.hub n ≠ 2 ∧ fuseState s.hub n ≠ 3) :=
  ⟨⟨3, stOf (fuseHub 3 fuse0 1 []), by (repeat' apply And.intro) <;> decide +kernel, by decide +kernel⟩,
   ⟨3, stOf (fuseHub 3 fuse0 1 [(fuseKey 3 8, 0x7FFF_FFFF)]), by (repeat' apply And.intro) <;> decide +kernel, by decide +kernel⟩,
   ⟨3, stOf (fuseHub 3 fuse0 4 []), by (repeat' apply And.intro) <;> decide +kernel, by decide +kernel⟩,
   ⟨3, fuse0, stOf (fuseHub 3 fuse0 2 [(fuseKey 3 7, 5), (fuseCfg 3 7, 5)]), by decide +kernel⟩,
   ⟨3, { fuse0 with g := 1020, sampleAt := some (2 ^ 59 + 200000) }, stOf (fuseHub 3
      { fuse0 with g := 1020, sampleAt := some (2 ^ 59 + 200000) } 2 [(fuseKey 3 7, 5), (fuseCfg 3 7, 5)]), by decide +kernel⟩,
   ⟨3, fuse0, stOf (fuseHub 3 fuse0 3 [(fuseCfg 3 5, 10), (fuseCfg 3 6, 90), (fuseKey 3 5, 90), (fuseKey 3 6, 100)]), by decide +kernel⟩,
   ⟨3, fuse0, stOf (fuseHub 3 fuse0 3 [(fuseCfg 3 5, 10), (fuseCfg 3 6, 90), (fuseKey 3 5, 89), (fuseKey 3 6, 100)]), by decide +kernel⟩,
   ⟨3, fuse0, stOf (fuseHub 3 fuse0 4 []), by decide +kernel⟩⟩

theorem test_hyps_FuseChannelsStartTripAndRetry_2 :
    (∃ n : Fin 16, ∃ i : Instr, ∃ cause : Nat, ∃ ok : Bool, ∃ s : State, (i = .fastComparatorTrip n ∧ cause = 1 ∧ ok = fuseActive
        (fuseState s.hub n) ∨ i = .rampTimeout n ∧ cause = 4 ∧ ok = (fuseState s.hub n == 3) ∨ i = .overcurrentDelayExpiry n ∧ cause = 3 ∧
        ok = (fuseState s.hub n == 4 && (fuse s.hub n).overSince.isSome)) ∧ ok = true)
    ∧ (∃ n : Fin 16, ∃ i : Instr, ∃ cause : Nat, ∃ ok : Bool, ∃ s : State, (i = .fastComparatorTrip n ∧ cause = 1 ∧ ok = fuseActive
        (fuseState s.hub n) ∨ i = .rampTimeout n ∧ cause = 4 ∧ ok = (fuseState s.hub n == 3) ∨ i = .overcurrentDelayExpiry n ∧ cause = 3 ∧
        ok = (fuseState s.hub n == 4 && (fuse s.hub n).overSince.isSome)) ∧ ok = false)
    ∧ (∃ n : Fin 16, ∃ s : State, fuseState s.hub n = 2)
    ∧ (∃ n : Fin 16, ∃ s : State, fuseState s.hub n ≠ 2)
    ∧ (∃ n : Fin 16, ∃ c : FuseCh, ∃ s : State, c = fuse s.hub n ∧ fuseState s.hub n = 5 ∧ fuseStartable s.hub n = true ∧ fuseCool s.hub n
        = true)
    ∧ (∃ n : Fin 16, ∃ c : FuseCh, ∃ s : State, c = fuse s.hub n ∧ fuseState s.hub n = 5 ∧ (fuseStartable s.hub n = false ∨ fuseCool s.hub
        n = false))
    ∧ (∃ n : Fin 16, ∃ c : FuseCh, ∃ s : State, c = fuse s.hub n ∧ fuseState s.hub n ≠ 5)
    ∧ (∃ n : Fin 16, ∃ c : FuseCh, ∃ s : State, c = fuse s.hub n ∧ c.retryEnd ≠ none) :=
  ⟨⟨3, .fastComparatorTrip 3, 1, true, stOf (fuseHub 3 { fuse0 with coolEnd := none } 4 [(fuseKey 3 0x0A, 4)]), ⟨Or.inl ⟨rfl, rfl,
      by decide +kernel⟩, rfl⟩⟩,
   ⟨3, .rampTimeout 3, 4, false, stOf (fuseHub 3 fuse0 2 []), ⟨Or.inr (Or.inl ⟨rfl, rfl, by decide +kernel⟩), rfl⟩⟩,
   ⟨3, stOf (fuseHub 3 { fuse0 with retryEnd := some (2 ^ 80) } 2 [(fuseKey 3 0x0A, 253)]), by decide +kernel⟩,
   ⟨3, stOf (fuseHub 3 fuse0 3 []), by decide +kernel⟩,
   ⟨3, fuse0, stOf (fuseHub 3 fuse0 5 [(fuseKey 3 2, 1), (fuseCfg 3 8, 7)]), by decide +kernel⟩,
   ⟨3, fuse0, stOf (fuseHub 3 fuse0 5 [(fuseKey 3 2, 0), (fuseCfg 3 8, 7)]), by decide +kernel⟩,
   ⟨3, fuse0, stOf (fuseHub 3 fuse0 4 []), by decide +kernel⟩,
   ⟨3, { fuse0 with retryEnd := some 4 }, stOf (fuseHub 3 { fuse0 with retryEnd := some 4 } 4 [(fuseKey 3 0x0A, 253)]),
      by decide +kernel⟩⟩

theorem test_hyps_FuseChannelsStartTripAndRetry_3 :
    (∃ n : Fin 16, ∃ c : FuseCh, ∃ s : State, c = fuse s.hub n ∧ c.retryEnd = none)
    ∧ (∃ n : Fin 16, ∃ present : Bool, ∃ c : FuseCh, ∃ st : Nat, ∃ s : State, c = fuse s.hub n ∧ st = fuseState s.hub n ∧ (bit (rd s.hub
        (fuseCfg n 0x0A)) 0 = false ∨ c.present = present))
    ∧ (∃ n : Fin 16, ∃ present : Bool, ∃ c : FuseCh, ∃ st : Nat, ∃ s : State, c = fuse s.hub n ∧ st = fuseState s.hub n ∧ bit (rd s.hub
        (fuseCfg n 0x0A)) 0 = true ∧ c.present = !present)
    ∧ (∃ xs : List FuseSample, ∃ n : Fin 16, ∃ x : FuseSample, ∃ s : State, xs.length ≤ 16 ∧ xs[n]? = some x ∧ (∀ m, (fuse s.hub
        m).shorted = false))
    ∧ (∃ n : Fin 16, ∃ s : State, fuseActive (fuseState s.hub n) = false ∧ rd s.hub (fuseKey n 6) < 2 * rd s.hub (fuseKey n 5))
    ∧ (∃ n : Fin 16, ∃ s : State, (fuseActive (fuseState s.hub n) = true ∨ 2 * rd s.hub (fuseKey n 5) ≤ rd s.hub (fuseKey n 6))) :=
  ⟨⟨3, fuse0, stOf (fuseHub 3 fuse0 4 []), by decide +kernel⟩,
   ⟨3, true, fuse0, 4, stOf (fuseHub 3 fuse0 4 []), by decide +kernel⟩,
   ⟨3, false, fuse0, 4, stOf (fuseHub 3 fuse0 4 [(fuseCfg 3 0x0A, 1), (fuseKey 3 0x0A, 4)]), by decide +kernel⟩,
   ⟨List.replicate 16 { current := 3000, vout := 2000, vin := 4000, gate := 100 }, 3,
      { current := 3000, vout := 2000, vin := 4000, gate := 100 }, stOf { hubIn 3 [] with fuses := [] }, ⟨by decide +kernel,
      by decide +kernel, fun m => rfl⟩⟩,
   ⟨3, stOf (fuseHub 3 fuse0 1 [(fuseKey 3 6, 99), (fuseKey 3 5, 50)]), by decide +kernel⟩,
   ⟨3, stOf (fuseHub 3 fuse0 1 [(fuseKey 3 6, 100), (fuseKey 3 5, 50)]), by decide +kernel⟩⟩

theorem test_hyps_FuseLimitsEnablesAndCommands :
    (∃ p : Path, ∃ n : Fin 16, ∃ v : Nat, ∃ s : State, WriteOpen p (0x2C10 + n) 2 v s.hub ∧ 10 ≤ v ∧ v ≤ 50000 ∧ limitTooHigh v (rd s.hub
        (fuseCfg n 0x0E)) (rd s.hub (fuseCfg n 0x0D)) = true)
    ∧ (∃ p : Path, ∃ n : Fin 16, ∃ v : Nat, ∃ s : State, WriteOpen p (0x2C10 + n) 2 v s.hub ∧ 10 ≤ v ∧ v ≤ 50000 ∧ limitTooHigh v (rd
        s.hub (fuseCfg n 0x0E)) (rd s.hub (fuseCfg n 0x0D)) = false)
    ∧ (∃ n : Fin 16, ∃ s : State, ∃ v : Nat, (fuse s.hub n).pending = some v ∧ v < 2 ^ 48)
    ∧ (∃ n : Fin 16, ∃ s : State, (fuse s.hub n).pending = none)
    ∧ (∃ p : Path, ∃ n : Fin 16, ∃ st : Nat, ∃ c : FuseCh, ∃ s : State, st = fuseState s.hub n ∧ c = fuse s.hub n ∧ WriteOpen p (0x2C10 +
        n) 1 0 s.hub ∧ st ≠ 0)
    ∧ (∃ p : Path, ∃ n : Fin 16, ∃ st : Nat, ∃ c : FuseCh, ∃ s : State, st = fuseState s.hub n ∧ c = fuse s.hub n ∧ WriteOpen p (0x2C10 +
        n) 1 1 s.hub ∧ st = 0)
    ∧ (∃ p : Path, ∃ n : Fin 16, ∃ st : Nat, ∃ c : FuseCh, ∃ s : State, ∃ v : Nat, st = fuseState s.hub n ∧ c = fuse s.hub n ∧ 1 < v ∧
        WriteOpen p (0x2C10 + n) 1 v s.hub)
    ∧ (∃ p : Path, ∃ n : Fin 16, ∃ s : State, WriteOpen p (0x3600 + n) 3 1 s.hub ∧ fuseState s.hub n = 6) :=
  
      ⟨⟨.host, 3, 50000, stOf (fuseHub 2 fuse0 1 [(fuseCfg 3 0x0E, 4000)]), by (repeat' apply And.intro) <;> decide +kernel, by decide +kernel⟩,
   
      ⟨.host, 3, 10, stOf (fuseHub 2 fuse0 4 [(fuseKey 3 4, 10), (fuseKey 3 0x0C, 20)]), by (repeat' apply And.intro) <;> decide +kernel, by decide +kernel⟩,
   ⟨3, stOf (fuseHub 3 { fuse0 with pending := some 10 } 4 []), 10, by decide +kernel⟩,
   ⟨3, stOf (fuseHub 3 fuse0 4 []), by decide +kernel⟩,
   
      ⟨.host, 3, 7, fuse0, stOf (fuseHub 2 fuse0 7 []), by decide +kernel, by decide +kernel, by (repeat' apply And.intro) <;> decide +kernel, by decide +kernel⟩,
   
      ⟨.host, 3, 0, { fuse0 with latch := 6 }, stOf (fuseHub 2 { fuse0 with latch := 6 } 0 [(fuseCfg 3 1, 0)]), by decide +kernel, by decide +kernel, by (repeat' apply And.intro) <;> decide +kernel, by decide +kernel⟩,
   
      ⟨.host, 3, 0, fuse0, stOf (fuseHub 2 fuse0 0 [(fuseCfg 3 1, 0)]), 2, by decide +kernel, by decide +kernel, by decide +kernel, by (repeat' apply And.intro) <;> decide +kernel⟩,
   ⟨.host, 3, stOf (fuseHub 3 fuse0 6 [(fuseKey 3 2, 0)]), by (repeat' apply And.intro) <;> decide +kernel, by decide +kernel⟩⟩

theorem test_hyps_FuseLimitsEnablesAndCommands_2 :
    (∃ p : Path, ∃ n : Fin 16, ∃ s : State, WriteOpen p (0x3600 + n) 3 1 s.hub ∧ fuseState s.hub n ≠ 6)
    ∧ (∃ p : Path, ∃ n : Fin 16, ∃ s : State, WriteOpen p (0x3600 + n) 3 2 s.hub ∧ fuseState s.hub n = 7 ∧ (mode s.hub = 2 ∨ mode s.hub =
        7))
    ∧ (∃ p : Path, ∃ n : Fin 16, ∃ s : State, WriteOpen p (0x3600 + n) 3 2 s.hub ∧ fuseState s.hub n = 7 ∧ mode s.hub ≠ 2 ∧ mode s.hub ≠
        7)
    ∧ (∃ p : Path, ∃ n : Fin 16, ∃ s : State, WriteOpen p (0x3600 + n) 3 2 s.hub ∧ fuseState s.hub n ≠ 7) :=
  ⟨⟨.host, 3, stOf (fuseHub 3 fuse0 5 []), by (repeat' apply And.intro) <;> decide +kernel, by decide +kernel⟩,
   
      ⟨.host, 3, stOf (fuseHub 2 fuse0 7 []), by (repeat' apply And.intro) <;> decide +kernel, by decide +kernel, by first | decide +kernel | exact Or.inl (by decide +kernel) | exact Or.inr (Or.inl (by decide +kernel)) | exact Or.inr (Or.inr (by decide +kernel))⟩,
   ⟨.host, 3, stOf (fuseHub 3 fuse0 7 []), by (repeat' apply And.intro) <;> decide +kernel, by decide +kernel⟩,
   ⟨.host, 3, stOf (fuseHub 2 fuse0 6 []), by (repeat' apply And.intro) <;> decide +kernel, by decide +kernel⟩⟩

theorem test_hyps_GrovesAndRegulatorsArePowered :
    (∃ g : Fin 8, ∃ s : State, domainState s.hub g = 4 ∧ votes s.hub g = 0)
    ∧ (∃ g : Fin 8, ∃ s : State, (domainState s.hub g ≠ 4 ∨ votes s.hub g ≠ 0))
    ∧ (∃ g : Fin 8, ∃ s : State, forcedOff s.hub g = false ∧ (domainState s.hub g = 4 ∨ domainState s.hub g = 5 ∨ domainState s.hub g =
        6))
    ∧ (∃ g : Fin 8, ∃ s : State, forcedOff s.hub g = false ∧ domainState s.hub g = 0)
    ∧ (∃ g : Fin 8, ∃ s : State, (domainState s.hub g = 0 ∨ domainState s.hub g = 1) ∧ forcedOff s.hub g = false ∧ votes s.hub g ≠ 0 ∧
        saveGood s.hub g = true)
    ∧ (∃ g : Fin 8, ∃ s : State, ∃ ok, (domainState s.hub g = 0 ∨ domainState s.hub g = 1) ∧ forcedOff s.hub g = false ∧ votes s.hub g ≠ 0
        ∧ (ok = false ∨ saveGood s.hub g = false))
    ∧ (∃ g : Fin 8, ∃ s : State, (domainState s.hub g ≠ 0 ∧ domainState s.hub g ≠ 1 ∨ forcedOff s.hub g = true ∨ votes s.hub g = 0))
    ∧ (∃ v : Nat, ∃ old : Nat, ∃ s : State, v = avsTargetOf s.hub ∧ old = rd s.hub 0x4D10_08 ∧ v < old + 5 ∧ old < v + 5) :=
  ⟨⟨2, stOf (powHub 4 [(0x2D10_03, 0), (engKey 17 1, 6), (engKey 20 1, 1)]), by decide +kernel⟩,
   ⟨2, stOf (powHub 4 [(0x2D10_03, 1), (engKey 17 1, 4)]), by decide +kernel⟩,
   ⟨2, stOf (powHub 4 []), by decide +kernel⟩,
   ⟨2, stOf (powHub 0 []), by decide +kernel⟩,
   ⟨2, stOf
      { powHub 0 [(0x2D10_03, 1), (engKey 17 1, 2)] with power := { (powHub 3 []).power with resumed := [17, 30], save := [(2, { words := [], crc := 0 })] } },
      by decide +kernel⟩,
   ⟨2, stOf
      { powHub 0 [(0x2D10_03, 1), (engKey 17 1, 2)] with power := { (powHub 3 []).power with resumed := [17, 30], save := [(2, { words := [], crc := 0 })] } },
      false, by decide +kernel⟩,
   ⟨2, stOf (powHub 0 [(0x2D10_03, 0)]), by decide +kernel⟩,
   ⟨915, 919, stOf (avsHub (919)), by decide +kernel⟩⟩

theorem test_hyps_GrovesAndRegulatorsArePowered_2 :
    (∃ v : Nat, ∃ old : Nat, ∃ s : State, v = avsTargetOf s.hub ∧ old = rd s.hub 0x4D10_08 ∧ (old + 5 ≤ v ∨ v + 5 ≤ old) ∧ v < 2 ^ 48)
    ∧ (∃ ack : Nat, ∃ v : Nat, ∃ old : Nat, ∃ s : State, v = avsTargetOf s.hub ∧ old = rd s.hub 0x4D10_08 ∧ (old + 5 ≤ v ∨ v + 5 ≤ old) ∧
        ack ≠ 0)
    ∧ (∃ ack : Nat, ∃ v : Nat, ∃ b : Nat, ∃ o : Nat, ∃ s : State, s.hub.power.avsTarget = some v ∧ b = s.hub.power.avsBusy + b2n (ack ==
        1) ∧ o = s.hub.power.avsOther + b2n (ack != 1) ∧ v < 2 ^ 48)
    ∧ (∃ ack : Nat, ∃ v : Nat, ∃ b : Nat, ∃ o : Nat, ∃ s : State, s.hub.power.avsTarget = some v ∧ b = s.hub.power.avsBusy + b2n (ack ==
        1) ∧ o = s.hub.power.avsOther + b2n (ack != 1) ∧ ack ≠ 0 ∧ b < 10 ∧ o < 3)
    ∧ (∃ ack : Nat, ∃ v : Nat, ∃ b : Nat, ∃ o : Nat, ∃ s : State, s.hub.power.avsTarget = some v ∧ b = s.hub.power.avsBusy + b2n (ack ==
        1) ∧ o = s.hub.power.avsOther + b2n (ack != 1) ∧ ack ≠ 0 ∧ (10 ≤ b ∨ 3 ≤ o))
    ∧ (∃ s : State, s.hub.power.avsTarget = none)
    ∧ (∃ mv : Nat, ∃ s : State, mv < 65536 ∧ mv ≤ rd s.hub 0x4D10_08 + 15 ∧ rd s.hub 0x4D10_08 ≤ mv + 15)
    ∧ (∃ mv : Nat, ∃ s : State, mv < 65536 ∧ (rd s.hub 0x4D10_08 + 15 < mv ∨ mv + 15 < rd s.hub 0x4D10_08)) :=
  ⟨⟨915, 920, stOf (avsHub (920)), by decide +kernel⟩,
   ⟨4, 915, 910, stOf (avsHub (910)), by decide +kernel⟩,
   ⟨0, 800, 9, 4, stOf { powHub 3 [] with power := { (powHub 3 []).power with avsTarget := some 800, avsBusy := 9, avsOther := 3 } },
      by decide +kernel⟩,
   ⟨1, 800, 9, 2, stOf { powHub 3 [] with power := { (powHub 3 []).power with avsTarget := some 800, avsBusy := 8, avsOther := 2 } },
      by decide +kernel⟩,
   ⟨5, 800, 8, 3, stOf { powHub 3 [] with power := { (powHub 3 []).power with avsTarget := some 800, avsBusy := 8, avsOther := 2 } },
      by decide +kernel⟩,
   ⟨stOf (powHub 3 []), by decide +kernel⟩,
   ⟨815, stOf (powHub 3 [(0x4D10_08, 800)]), by decide +kernel⟩,
   ⟨784, stOf (powHub 3 [(0x4D10_08, 800)]), by decide +kernel⟩⟩

theorem test_hyps_GrovesAndRegulatorsArePowered_3 :
    (∃ r : Fin 4, ∃ n : Nat, ∃ s : State, n = tabGet 0 s.hub.power.pmbTries r ∧ railManaged s.hub r = false)
    ∧ (∃ r : Fin 4, ∃ n : Nat, ∃ s : State, n = tabGet 0 s.hub.power.pmbTries r ∧ railManaged s.hub r = true)
    ∧ (∃ r : Fin 4, ∃ n : Nat, ∃ s : State, n = tabGet 0 s.hub.power.pmbTries r ∧ railManaged s.hub r = true ∧ n < 2)
    ∧ (∃ r : Fin 4, ∃ n : Nat, ∃ s : State, n = tabGet 0 s.hub.power.pmbTries r ∧ railManaged s.hub r = true ∧ 2 ≤ n) :=
  ⟨⟨1, 0, stOf (powHub 3 [(0x2D12_02, 0)]), by decide +kernel⟩,
   ⟨0, 0, stOf (powHub 3 []), by decide +kernel⟩,
   ⟨0, 1, stOf { powHub 3 [] with power := { (powHub 3 []).power with pmbTries := [(0, 1)] } }, by decide +kernel⟩,
   ⟨0, 2, stOf { powHub 3 [] with power := { (powHub 3 []).power with pmbTries := [(0, 2)] } }, by decide +kernel⟩⟩

theorem test_hyps_FaultsAreRecordedAndAcknowledged :
    (∃ code : Nat, isFault code = false)
    ∧ (∃ code : Nat, ∃ island : Nat, ∃ a : Nat, ∃ b : Nat, ∃ lvl : Nat, ∃ r : FaultRec, ∃ s : State, isFault code = true ∧ recordHeld
        s.hub code = false ∧ rd s.hub 0x2E03_01 ≠ 1 ∧ s.hub.watch.injected = [] ∧ lvl = rd s.hub (slotKey 0x2E01 code) ∧ r =
        { island, detailA := a, detailB := b, chosen := lvl, level := lvl, escalated := false, injected := s.hub.watch.injecting, cause := true, windowStart := stampNs s.hub 0, windowCount := 1 })
    ∧ (∃ code : Nat, ∃ r : FaultRec, ∃ n : Nat, ∃ s : State, isFault code = true ∧ s.hub.watch.records.find? (fun e => e.1 == code) = some
        (code, r) ∧ s.hub.watch.injected = [] ∧ s.hub.watch.injecting = false ∧ faultClass code < 3 ∧ r.escalated = false ∧ n = (if
        stampNs s.hub 0 < r.windowStart + rd s.hub 0x2E03_02 * 1000000000 then r.windowCount + 1 else 1))
    ∧ (∃ code : Nat, faultClass code = 3)
    ∧ (∃ code : Nat, ∃ r : FaultRec, ∃ s : State, faultClass code < 3 ∧ s.hub.watch.records.find? (fun e => e.1 == code) = some (code, r)
        ∧ code ∉ s.hub.watch.injected)
    ∧ (∃ p : Path, ∃ code : Nat, ∃ s : State, code ≠ 0xFF ∧ WriteOpen p 0x2E02 1 code s.hub ∧ (recordHeld s.hub code = false ∨ faultClass
        code = 3))
    ∧ (∃ p : Path, ∃ code : Nat, ∃ s : State, code ≠ 0xFF ∧ WriteOpen p 0x2E02 1 code s.hub ∧ recordHeld s.hub code = true ∧ faultClass
        code < 3 ∧ causePresent s.hub code = true)
    ∧ (∃ p : Path, ∃ code : Nat, ∃ s : State, code ≠ 0xFF ∧ WriteOpen p 0x2E02 1 code s.hub ∧ recordHeld s.hub code = true ∧ faultClass
        code < 3 ∧ causePresent s.hub code = false) :=
  ⟨⟨0, by decide +kernel⟩,
   ⟨0x01, 4, 7, 9, (fun code (s : State) => rd s.hub (slotKey 0x2E01 code)) (0x01) (stOf (wtHub 3 [] [(0x2E01_01, 2)])), (fun island a b
      (s : State) lvl =>
      { island, detailA := a, detailB := b, chosen := lvl, level := lvl, escalated := false, injected := s.hub.watch.injecting, cause := true, windowStart := stampNs s.hub 0, windowCount := 1 })
      (4) (7) (9) (stOf (wtHub 3 [] [(0x2E01_01, 2)])) ((fun code (s : State) => rd s.hub (slotKey 0x2E01 code)) (0x01) (stOf (wtHub 3 []
      [(0x2E01_01, 2)]))), stOf (wtHub 3 [] [(0x2E01_01, 2)]), by decide +kernel, by decide +kernel, by decide +kernel, by decide +kernel,
      rfl, rfl⟩,
   ⟨0x01, rec0, 2, stOf (wtHub 3 [(1, rec0)] []), by decide +kernel⟩,
   ⟨0x15, by decide +kernel⟩,
   ⟨0x0A, rec0, stOf (wtHub 3 [(0x0A, rec0)] []), by decide +kernel⟩,
   
      ⟨.host, 0x1E, stOf (wtHub 3 [(0x15, rec0)] []), by decide +kernel, by (repeat' apply And.intro) <;> decide +kernel, by first | decide +kernel | exact Or.inl (by decide +kernel) | exact Or.inr (Or.inl (by decide +kernel)) | exact Or.inr (Or.inr (by decide +kernel))⟩,
   ⟨.host, 0x01, stOf (wtHub 3 [(1, rec0)] []), by decide +kernel, by (repeat' apply And.intro) <;> decide +kernel, by decide +kernel⟩,
   
      ⟨.host, 0x1E, stOf (wtHub 3 [(0x1E, { rec0 with cause := false })] []), by decide +kernel, by (repeat' apply And.intro) <;> decide +kernel, by decide +kernel⟩⟩

theorem test_hyps_FaultsAreRecordedAndAcknowledged_2 :
    (∃ p : Path, ∃ s : State, WriteOpen p 0x2E02 1 0xFF s.hub)
    ∧ (∃ p : Path, ∃ v : Nat, ∃ s : State, WriteOpen p 0x2E02 2 v s.hub ∧ v = 1)
    ∧ (∃ p : Path, ∃ v : Nat, ∃ s : State, WriteOpen p 0x2E02 2 v s.hub ∧ v ≠ 1)
    ∧ (∃ p : Path, ∃ code : Nat, ∃ v : Nat, ∃ s : State, isFault code = true ∧ WriteOpen p 0x2E01 code v s.hub ∧ levelAllowed (faultClass
        code) v = false)
    ∧ (∃ p : Path, ∃ code : Nat, ∃ v : Nat, ∃ s : State, isFault code = true ∧ WriteOpen p 0x2E01 code v s.hub ∧ levelAllowed (faultClass
        code) v = true)
    ∧ (∃ p : Path, ∃ pt : Nat, ∃ v : Nat, ∃ s : State, WriteOpen p 0x2E05 3 1 s.hub ∧ pt = rd s.hub 0x2E05_01 ∧ v = rd s.hub 0x2E05_02 ∧
        (mode s.hub ≠ 8 ∨ injectionKnown pt v = false))
    ∧ (∃ p : Path, ∃ pt : Nat, ∃ v : Nat, ∃ s : State, WriteOpen p 0x2E05 3 1 s.hub ∧ pt = rd s.hub 0x2E05_01 ∧ v = rd s.hub 0x2E05_02 ∧
        mode s.hub = 8 ∧ pt = 1 ∧ isFault v = true ∧ recordHeld s.hub v = false ∧ rd s.hub 0x2E03_01 ≠ 1)
    ∧ (∃ p : Path, ∃ pt : Nat, ∃ v : Nat, ∃ s : State, WriteOpen p 0x2E05 3 1 s.hub ∧ pt = rd s.hub 0x2E05_01 ∧ v = rd s.hub 0x2E05_02 ∧
        mode s.hub = 8 ∧ pt = 8 ∧ v < 16 ∧ fuseActive (fuseState s.hub v) = true) :=
  
      ⟨⟨.host, stOf (wtHub 3 [(1, rec0), (2, { rec0 with cause := false }), (0x15, { rec0 with cause := false })] []), by (repeat' apply And.intro) <;> decide +kernel⟩,
   ⟨.host, 1, stOf (wtHub 3 [] [(0x4E01_01, 7), (0x4E01_06, 3)]), by (repeat' apply And.intro) <;> decide +kernel, by decide +kernel⟩,
   ⟨.host, 2, stOf (wtHub 3 [] [(0x4E01_01, 7)]), by (repeat' apply And.intro) <;> decide +kernel, by decide +kernel⟩,
   ⟨.host, 0x15, 2, stOf (wtHub 2 [] []), by decide +kernel, by (repeat' apply And.intro) <;> decide +kernel, by decide +kernel⟩,
   
      ⟨.host, 0x01, 3, stOf (wtHub 2 [(1, rec0)] []), by decide +kernel, by (repeat' apply And.intro) <;> decide +kernel, by decide +kernel⟩,
   
      ⟨.host, (fun (s : State) => rd s.hub 0x2E05_01) (stOf (wtHub 3 [] [(0x2E05_01, 1), (0x2E05_02, 5)])), (fun (s : State) => rd s.hub 0x2E05_02) (stOf (wtHub 3 [] [(0x2E05_01, 1), (0x2E05_02, 5)])), stOf (wtHub 3 [] [(0x2E05_01, 1), (0x2E05_02, 5)]), by (repeat' apply And.intro) <;> decide +kernel, rfl, rfl, by first | decide +kernel | exact Or.inl (by decide +kernel) | exact Or.inr (Or.inl (by decide +kernel)) | exact Or.inr (Or.inr (by decide +kernel))⟩,
   
      ⟨.host, (fun (s : State) => rd s.hub 0x2E05_01) (stOf (injHub 1 0x1E [])), (fun (s : State) => rd s.hub 0x2E05_02) (stOf (injHub 1 0x1E [])), stOf (injHub 1 0x1E []), by (repeat' apply And.intro) <;> decide +kernel, rfl, rfl, by decide +kernel, rfl, by decide +kernel⟩,
   
      ⟨.host, (fun (s : State) => rd s.hub 0x2E05_01) (stOf { injHub 8 3 [(fuseCfg 3 1, 1), (fuseKey 3 1, 4)] with fuses := [(3, fuse0)] }), (fun (s : State) => rd s.hub 0x2E05_02) (stOf { injHub 8 3 [(fuseCfg 3 1, 1), (fuseKey 3 1, 4)] with fuses := [(3, fuse0)] }), stOf { injHub 8 3 [(fuseCfg 3 1, 1), (fuseKey 3 1, 4)] with fuses := [(3, fuse0)] }, by (repeat' apply And.intro) <;> decide +kernel, rfl, rfl, by decide +kernel, rfl, by decide +kernel⟩⟩

theorem test_hyps_FaultsAreRecordedAndAcknowledged_3 :
    (∃ p : Path, ∃ pt : Nat, ∃ v : Nat, ∃ s : State, WriteOpen p 0x2E05 3 1 s.hub ∧ pt = rd s.hub 0x2E05_01 ∧ v = rd s.hub 0x2E05_02 ∧
        mode s.hub = 8 ∧ injectionKnown pt v = true ∧ pt ∈ [4, 5, 6, 7, 9])
    ∧ (∃ p : Path, ∃ s : State, WriteOpen p 0x2E05 3 2 s.hub ∧ mode s.hub = 8)
    ∧ (∃ p : Path, ∃ s : State, WriteOpen p 0x2E05 3 2 s.hub ∧ mode s.hub ≠ 8) :=
  
      ⟨⟨.host, (fun (s : State) => rd s.hub 0x2E05_01) (stOf (injHub 9 0 [])), (fun (s : State) => rd s.hub 0x2E05_02) (stOf (injHub 9 0 [])), stOf (injHub 9 0 []), by (repeat' apply And.intro) <;> decide +kernel, rfl, rfl, by decide +kernel⟩,
   
      ⟨.host, stOf (injd 0x01 (wtHub 8 [(0x01, { rec0 with injected := true })] [])), by (repeat' apply And.intro) <;> decide +kernel, by decide +kernel⟩,
   
      ⟨.host, stOf (injd 0x01 (wtHub 7 [(0x01, { rec0 with injected := true })] [])), by (repeat' apply And.intro) <;> decide +kernel, by decide +kernel⟩⟩

theorem test_hyps_EventsAreLoggedAndRouted :
    (∃ e : Nat, reservedEvent e = true)
    ∧ (∃ e : Nat, reservedEvent e = false)
    ∧ (∃ c : Fin 8, ∃ s : State, bit (rd s.hub 0x2E20_01) c = false)
    ∧ (∃ c : Fin 8, ∃ s : State, bit (rd s.hub 0x2E20_01) c = true) :=
  ⟨⟨0xA5, by decide +kernel⟩,
   ⟨0x02, by decide +kernel⟩,
   ⟨0, stOf (wtHub 3 [] [(0x2E20_01, 0x80)]), by decide +kernel⟩,
   ⟨7, stOf (wtHub 3 [] [(0x2E20_01, 0x80)]), by decide +kernel⟩⟩

theorem test_hyps_UpdatesMoveTheSlotsAndImagesAreServed :
    (∃ p : Path, ∃ c : Nat, ∃ i : Instr, ∃ states : List Nat, ∃ s : State, (i = .updateBegin p true ∧ c = 1 ∧ states = [0, 3, 5] ∨ i =
        .updateFinish p ∧ c = 2 ∧ states = [1] ∨ i = .updateAbandon p ∧ c = 4 ∧ states = [1, 2, 3] ∨ i = .updateConfirm p ∧ c = 5 ∧ states
        = [4] ∨ i = .updateRevert p ∧ c = 6 ∧ states = [4]) ∧ WriteOpen p 0x2F01 1 c s.hub ∧ updateState s.hub ∉ states)
    ∧ (∃ p : Path, ∃ c : Nat, ∃ i : Instr, ∃ states : List Nat, ∃ s : State, (i = .updateBegin p true ∧ c = 1 ∧ states = [0, 3, 5] ∨ i =
        .updateFinish p ∧ c = 2 ∧ states = [1] ∨ i = .updateAbandon p ∧ c = 4 ∧ states = [1, 2, 3] ∨ i = .updateConfirm p ∧ c = 5 ∧ states
        = [4] ∨ i = .updateRevert p ∧ c = 6 ∧ states = [4]) ∧ WriteOpen p 0x2F01 1 c s.hub ∧ updateState s.hub ∈ states ∧ (c = 2 → pulls
        s.hub = false) ∧ (mode s.hub ≠ 7 ∨ 2 ≤ bootSource s.hub))
    ∧ (∃ p : Path, ∃ s : State, WriteOpen p 0x2F01 1 1 s.hub ∧ mode s.hub = 7 ∧ bootSource s.hub < 2 ∧ updateState s.hub ∈ [0, 3, 5] ∧
        (s.hub.store.job.isSome = true ∨ s.hub.dome.writing = true ∨ s.hub.update.held ≠ []))
    ∧ (∃ h : Hub, (h.store.job.isSome = true ∨ h.dome.writing = true))
    ∧ (∃ h : Hub, ∃ w, h.store.job = none ∧ h.dome.writing = false ∧ h.update.held = [w])
    ∧ (∃ p : Path, ∃ s : State, WriteOpen p 0x2F01 1 1 s.hub ∧ mode s.hub = 7 ∧ bootSource s.hub < 2 ∧ updateState s.hub ∈ [0, 3, 5] ∧
        s.hub.store.job = none ∧ s.hub.dome.writing = false ∧ s.hub.update.held = [])
    ∧ (∃ p : Path, ∃ s : State, WriteOpen p 0x2F01 1 2 s.hub ∧ mode s.hub = 7 ∧ bootSource s.hub < 2 ∧ updateState s.hub = 1 ∧ pulls s.hub
        = false)
    ∧ (∃ p : Path, ∃ s : State, WriteOpen p 0x2F01 1 2 s.hub ∧ mode s.hub = 7 ∧ bootSource s.hub < 2 ∧ updateState s.hub = 1 ∧ pulls s.hub
        = true) :=
  
      ⟨⟨.host, 2, .updateFinish .host, [1], stOf (upHub 7 0 up0 []), ⟨Or.inr (Or.inl ⟨rfl, rfl, rfl⟩), by (repeat' apply And.intro) <;> decide +kernel, by decide +kernel⟩⟩,
   
      ⟨.host, 4, .updateAbandon .host, [1, 2, 3], stOf (upHub 2 3 up0 []), ⟨Or.inr (Or.inr (Or.inl ⟨rfl, rfl, rfl⟩)), by (repeat' apply And.intro) <;> decide +kernel, by decide +kernel, by decide +kernel, by decide +kernel⟩⟩,
   ⟨.host, stOf (upHub 7 5 ({ up0 with held := [.data 0 []] }) []), by unfold WriteOpen; decide +kernel⟩,
   ⟨{ Hub.reset with dome := { Hub.reset.dome with writing := true } }, by decide +kernel⟩,
   ⟨{ Hub.reset with update := { Hub.reset.update with held := [.data 0 []] } }, .data 0 [], by decide +kernel⟩,
   ⟨.host, stOf (upHub 7 5 up0 []), by unfold WriteOpen; decide +kernel⟩,
   ⟨.host, stOf (upHub 7 1 (upRec 600) []), by (repeat' apply And.intro) <;> decide +kernel, by decide +kernel⟩,
   ⟨.host, stOf (upHub 7 1 (upRec 600) [(0x2F01_03, 9)]), by (repeat' apply And.intro) <;> decide +kernel, by decide +kernel⟩⟩

theorem test_hyps_UpdatesMoveTheSlotsAndImagesAreServed_2 :
    (∃ p : Path, ∃ ans : List HubAnswer, ∃ b : Nat, ∃ s : State, WriteOpen p 0x2F01 1 3 s.hub ∧ mode s.hub = 7 ∧ bootSource s.hub < 2 ∧
        updateState s.hub = 3 ∧ b = strapped s.hub ∧ rd s.hub 0x2000_08 / 1024 % 4 = bootSource s.hub ∧ activateForbidden ans s.hub =
        true)
    ∧ (∃ p : Path, ∃ ans : List HubAnswer, ∃ b : Nat, ∃ s : State, WriteOpen p 0x2F01 1 3 s.hub ∧ mode s.hub = 7 ∧ bootSource s.hub < 2 ∧
        updateState s.hub = 3 ∧ b = strapped s.hub ∧ rd s.hub 0x2000_08 / 1024 % 4 = bootSource s.hub ∧ activateForbidden ans s.hub =
        false)
    ∧ (∃ p : Path, ∃ s : State, WriteOpen p 0x2F01 1 3 s.hub ∧ updateState s.hub ≠ 3)
    ∧ (∃ p : Path, ∃ s : State, WriteOpen p 0x2F01 1 4 s.hub ∧ mode s.hub = 7 ∧ bootSource s.hub < 2 ∧ updateState s.hub ∈ [1, 2, 3])
    ∧ (∃ p : Path, ∃ b : Nat, ∃ x : FlashSlot, ∃ y : FlashSlot, ∃ s : State, ∃ i : Instr, (i = .updateConfirm p ∧ WriteOpen p 0x2F01 1 5
        s.hub ∧ mode s.hub = 7 ∧ bootSource s.hub < 2 ∨ i = .confirmDelayExpiry ∧ rd s.hub 0x2F01_05 = 0 ∧ serving s.hub = true) ∧
        updateState s.hub = 4 ∧ b = runningSlot s.hub ∧ b ≤ 1 ∧ x = slot s.hub b ∧ y = slot s.hub (1 - b) ∧ x.state = 2)
    ∧ (∃ s : State, (rd s.hub 0x2F01_05 ≠ 0 ∨ serving s.hub = false ∨ updateState s.hub ≠ 4))
    ∧ (∃ p : Path, ∃ b : Nat, ∃ s : State, WriteOpen p 0x2F01 1 6 s.hub ∧ mode s.hub = 7 ∧ bootSource s.hub < 2 ∧ updateState s.hub = 4 ∧
        b = runningSlot s.hub ∧ b ≤ 1)
    ∧ (∃ p : Path, ∃ bs : List Byte, ∃ s : State, WriteOpen p 0x2F02 3 (bytesNat bs) s.hub ∧ ((chunkOffset s.hub) ≠ (loadPoint s.hub) ∨
        (chunkLength s.hub) = 0 ∨ 1200 < (chunkLength s.hub) ∨ rd s.hub 0x2F01_02 < (chunkOffset s.hub) + (chunkLength s.hub))) :=
  ⟨⟨.host, [], 0, stOf (upHub 7 3 up0 []), by (repeat' apply And.intro) <;> decide +kernel, by decide +kernel⟩,
   
      ⟨.host, [{ hub := 9, answered := true, state := 0, mode := 3, version := 2 ^ 8 }], 0, stOf (upHub 7 3 up0 []), by (repeat' apply And.intro) <;> decide +kernel, by decide +kernel⟩,
   ⟨.host, stOf (upHub 7 1 up0 []), by (repeat' apply And.intro) <;> decide +kernel, by decide +kernel⟩,
   ⟨.host, stOf (upHub 7 2 (upRec 600) []), by (repeat' apply And.intro) <;> decide +kernel, by decide +kernel⟩,
   
      ⟨.host, 0, { img0 with state := 2 }, { img0 with state := 1, failed := 2 }, stOf (upHub 7 4 { up0 with slotA := { img0 with state := 2 } } []), .updateConfirm .host, ⟨Or.inl ⟨rfl, by (repeat' apply And.intro) <;> decide +kernel, by decide +kernel, by decide +kernel⟩, by decide +kernel, by decide +kernel, by decide +kernel, by rfl, by rfl, by decide +kernel⟩⟩,
   ⟨stOf (upHub 3 4 up0 [(0x2F01_05, 60)]), by decide +kernel⟩,
   ⟨.host, 0, stOf (upHub 7 4 up0 []), by (repeat' apply And.intro) <;> decide +kernel, by decide +kernel⟩,
   ⟨.host, [1, 2], stOf (upHub 7 1 (upRec 600) [(0x2F02_01, 599), (0x2F02_02, 2), (0x2F01_02, 602)]),
      by unfold WriteOpen; decide +kernel⟩⟩

theorem test_hyps_UpdatesMoveTheSlotsAndImagesAreServed_3 :
    (∃ p : Path, ∃ bs : List Byte, ∃ s : State, WriteOpen p 0x2F02 3 (bytesNat bs) s.hub ∧ (chunkOffset s.hub) = (loadPoint s.hub) ∧ 0 <
        (chunkLength s.hub) ∧ (chunkLength s.hub) ≤ 1200 ∧ (chunkOffset s.hub) + (chunkLength s.hub) ≤ rd s.hub 0x2F01_02 ∧ updateState
        s.hub = 1 ∧ pulls s.hub = false ∧ bs.length = (chunkLength s.hub) ∧ (s.hub.store.job.isSome = true ∨ s.hub.dome.writing = true ∨
        s.hub.update.held ≠ []))
    ∧ (∃ p : Path, ∃ bs : List Byte, ∃ s : State, WriteOpen p 0x2F02 3 (bytesNat bs) s.hub ∧ (chunkOffset s.hub) = (loadPoint s.hub) ∧ 0 <
        (chunkLength s.hub) ∧ (chunkLength s.hub) ≤ 1200 ∧ (chunkOffset s.hub) + (chunkLength s.hub) ≤ rd s.hub 0x2F01_02 ∧ updateState
        s.hub = 1 ∧ pulls s.hub = false ∧ bs.length = (chunkLength s.hub) ∧ s.hub.store.job = none ∧ s.hub.dome.writing = false ∧
        s.hub.update.held = [] ∧ (512 ≤ (loadPoint s.hub) ∨ (loadPoint s.hub) + (chunkLength s.hub) < 512 ∨ headerResult s.hub
        (s.hub.update.received ++ bs) (rd s.hub 0x2F01_02) = 0) ∧ rd s.hub 0x4F00_02 + (chunkLength s.hub) < 2 ^ 48)
    ∧ (∃ p : Path, ∃ bs : List Byte, ∃ s : State, WriteOpen p 0x2F02 3 (bytesNat bs) s.hub ∧ (chunkOffset s.hub) = (loadPoint s.hub) ∧ 0 <
        (chunkLength s.hub) ∧ (chunkLength s.hub) ≤ 1200 ∧ (chunkOffset s.hub) + (chunkLength s.hub) ≤ rd s.hub 0x2F01_02 ∧ updateState
        s.hub = 1 ∧ pulls s.hub = false ∧ bs.length = (chunkLength s.hub) ∧ s.hub.store.job = none ∧ s.hub.dome.writing = false ∧
        s.hub.update.held = [] ∧ (loadPoint s.hub) < 512 ∧ 512 ≤ (loadPoint s.hub) + (chunkLength s.hub) ∧ headerResult s.hub
        (s.hub.update.received ++ bs) (rd s.hub 0x2F01_02) ≠ 0)
    ∧ (∃ p : Path, ∃ bs : List Byte, ∃ s : State, WriteOpen p 0x2F02 3 (bytesNat bs) s.hub ∧ (chunkOffset s.hub) = (loadPoint s.hub) ∧ 0 <
        (chunkLength s.hub) ∧ (chunkLength s.hub) ≤ 1200 ∧ (chunkOffset s.hub) + (chunkLength s.hub) ≤ rd s.hub 0x2F01_02 ∧ updateState
        s.hub = 1 ∧ pulls s.hub = false ∧ bs.length = (chunkLength s.hub) ∧ s.hub.store.job = none ∧ s.hub.dome.writing = false ∧
        s.hub.update.held = [])
    ∧ (∃ s : State, (updateState s.hub ≠ 2 ∨ s.hub.update.held ≠ []))
    ∧ (∃ r, ∃ s : State, updateState s.hub = 2 ∧ s.hub.update.held = [] ∧ r ≠ 0 ∧ r < 256)
    ∧ (∃ s : State, updateState s.hub = 2 ∧ s.hub.update.held = [])
    ∧ (∃ s : State, (sendsOwn s.hub = false ∨ hubNumber s.hub = 0)) :=
  ⟨⟨.host, [1, 2], stOf (upHub 7 1 ({ upRec 600 with held := [.data 0 []] }) [(0x2F02_01, 600), (0x2F02_02, 2), (0x2F01_02, 602)]),
      by unfold WriteOpen; decide +kernel⟩,
   ⟨.host, [1, 2], stOf (upHub 7 1 (upRec 600) [(0x2F02_01, 600), (0x2F02_02, 2), (0x2F01_02, 602)]),
      by unfold WriteOpen; decide +kernel⟩,
   ⟨.host, [1, 2], stOf (upHub 7 1 (upRec 510) [(0x2F02_01, 510), (0x2F02_02, 2), (0x2F01_02, 602), (0x4F00_02, 510)]),
      by unfold WriteOpen; decide +kernel⟩,
   ⟨.host, [1, 2], stOf (upHub 7 1 (upRec 600) [(0x2F02_01, 600), (0x2F02_02, 2), (0x2F01_02, 602)]),
      by unfold WriteOpen; decide +kernel⟩,
   ⟨stOf (upHub 3 4 up0 [(0x2F01_05, 60)]), by decide +kernel⟩,
   ⟨255, stOf (upHub 7 2 (upRec 600) []), by decide +kernel⟩,
   ⟨stOf (upHub 7 2 (upRec 600) [(0x2F01_02, 590)]), by decide +kernel⟩,
   ⟨stOf (wrs (upHub 3 0 up0 []) [(0x2000_09, 0)]), by decide +kernel⟩⟩

theorem test_hyps_UpdatesMoveTheSlotsAndImagesAreServed_4 :
    (∃ s : State, sendsOwn s.hub = true ∧ hubNumber s.hub ≠ 0)
    ∧ (∃ tag : Nat, ∃ r, ∃ s : State, s.hub.update.requests.find? (fun r => r.1 == tag) = some r ∧ updateState s.hub = 1)
    ∧ (∃ tag : Nat, ∃ r, ∃ s : State, s.hub.update.requests.find? (fun r => r.1 == tag) = some r ∧ updateState s.hub = 1)
    ∧ (∃ tag : Nat, ∃ bs : List Byte, ∃ r, ∃ s : State, s.hub.update.requests.find? (fun r => r.1 == tag) = some r ∧ updateState s.hub = 1
        ∧ bs.length = r.2.2.1 ∧ 512 ≤ s.hub.update.received.length ∧ (r.2.1) = s.hub.update.received.length ∧ rd s.hub 0x4F00_02 +
        bs.length < 2 ^ 48 ∧ s.hub.update.requests = [r] ∧ s.hub.store.job = none ∧ s.hub.dome.writing = false ∧ s.hub.update.held = [] ∧
        rd s.hub 0x2F01_02 ≤ (r.2.1) + bs.length)
    ∧ (∃ tag : Nat, ∃ bs : List Byte, ∃ r, ∃ s : State, s.hub.update.requests.find? (fun r => r.1 == tag) = some r ∧ updateState s.hub = 1
        ∧ bs.length = r.2.2.1 ∧ 512 ≤ s.hub.update.received.length ∧ (r.2.1) = s.hub.update.received.length ∧ rd s.hub 0x4F00_02 +
        bs.length < 2 ^ 48 ∧ s.hub.update.requests = [r] ∧ s.hub.store.job = none ∧ s.hub.dome.writing = false ∧ s.hub.update.held = [] ∧
        (r.2.1) + bs.length < rd s.hub 0x2F01_02 ∧ s.hub.update.busy = false ∧ 0 < rd s.hub 0x2F01_07)
    ∧ (∃ src : Nat, ∃ tag : Nat, ∃ s : State, ((s.hub.update.requests.find? fun r => r.1 == tag) = none ∨ updateState s.hub ≠ 1 ∨ src ≠ rd
        s.hub 0x2F01_03))
    ∧ (∃ tag : Nat, ∃ r, ∃ s : State, s.hub.update.requests.find? (fun r => r.1 == tag) = some r ∧ updateState s.hub = 1 ∧
        s.hub.update.busy = false ∧ 3 ≤ r.2.2.2)
    ∧ (∃ tag : Nat, ∃ r, ∃ s : State, s.hub.update.requests.find? (fun r => r.1 == tag) = some r ∧ updateState s.hub = 1 ∧
        s.hub.update.busy = false ∧ r.2.2.2 < 3 ∧ hubNumber s.hub ≠ 0) :=
  ⟨⟨stOf (upHub 3 0 up0 []), by decide +kernel⟩,
   ⟨4, (4, 600, 100, 0), stOf (upHub 7 1 (upPull 600 [(4, 600, 100, 0)] false) [(0x2F01_03, 9)]), by decide +kernel⟩,
   ⟨4, (4, 600, 100, 0), stOf (upHub 7 1 (upPull 600 [(4, 600, 100, 0)] false) [(0x2F01_03, 9)]), by decide +kernel⟩,
   ⟨4, [1, 2], (4, 600, 2, 0), stOf (upHub 7 1 (upPull 600 [(4, 600, 2, 0)] false) [(0x2F01_03, 9), (0x2F01_02, 602), (0x4F00_02, 600)]),
      by decide +kernel⟩,
   ⟨4, [1, 2], (4, 600, 2, 0), stOf (upHub 7 1 (upPull 600 [(4, 600, 2, 0)] false) [(0x2F01_03, 9), (0x2F01_02, 5000), (0x4F00_02, 600)]),
      by decide +kernel⟩,
   ⟨8, 4, stOf (upHub 7 1 (upPull 600 [(4, 600, 2, 0)] false) [(0x2F01_03, 9)]), by decide +kernel⟩,
   ⟨4, (4, 600, 2, 3), stOf (upHub 7 1 (upPull 600 [(4, 600, 2, 3)] false) [(0x2F01_03, 9)]), by decide +kernel⟩,
   ⟨4, (4, 600, 2, 2), stOf (upHub 7 1 (upPull 600 [(4, 600, 2, 2), (5, 602, 2, 0)] false) [(0x2F01_03, 9)]), by decide +kernel⟩⟩

theorem test_hyps_UpdatesMoveTheSlotsAndImagesAreServed_5 :
    (∃ tag : Nat, ∃ s : State, ((s.hub.update.requests.find? fun r => r.1 == tag) = none ∨ updateState s.hub ≠ 1 ∨ s.hub.update.busy =
        true))
    ∧ (∃ s : State, (updateState s.hub ≠ 1 ∨ s.hub.update.busy = false))
    ∧ (∃ s : State, updateState s.hub = 1 ∧ s.hub.update.busy = true ∧ hubNumber s.hub ≠ 0) :=
  ⟨⟨4, stOf (upHub 7 1 (upPull 600 [(4, 600, 2, 2)] true) [(0x2F01_03, 9)]), by decide +kernel⟩,
   ⟨stOf (upHub 7 1 (upPull 600 [(4, 600, 2, 2)] false) [(0x2F01_03, 9)]), by decide +kernel⟩,
   ⟨stOf (upHub 7 1 (upPull 600 [(4, 600, 2, 2), (5, 602, 2, 0)] true) [(0x2F01_03, 9)]), by decide +kernel⟩⟩

theorem test_hyps_EveryStepKeepsTheHubSound :
    ∃ s : State, ∃ t : State, s.hub.Sound ∧ step s = .next t :=
  ⟨stOf (hubIn 3 []), stOf (tick (hubIn 3 [])), ⟨by decide +kernel, by decide +kernel, (fun _ h => nomatch h), List.nodup_nil⟩, rfl⟩


/-! ### Single steps: the expected values are the spec's -/

/-- The outcome is a next state of which `p` holds. -/
def nextHas (o : Host.Outcome State Fault Refusal) (p : State → Bool) : Bool :=
  match o with
  | .next t => p t
  | _ => false

/-- No row of the table has bits. -/
theorem test_decode_none : decodeTableWord 16 0x1234 = none := by decide

/-- 0x2000:01 reads BOOT after reset, and 0x2E03:01 its default 3 (R70, R716). -/
theorem test_reset_defaults : rd State.reset.hub 0x2000_01 = 1 ∧ rd State.reset.hub 0x2E03_01 = 3 := by decide +kernel

theorem test_step_takes_the_front :
    nextHas (step { pending := [.limpExit, .runEntry], hub := Hub.reset }) (fun t => t.pending == [.runEntry]) = true := by
  decide +kernel

/-- R361: 4 ns at a time, in units of 2 to the minus 32 ns. -/
theorem test_idle_step_adds_4_ns :
    nextHas (step State.reset) (fun t => t.hub.spire.acc == 4 * 2 ^ 32) = true := by decide +kernel

/-- Table 2 of Operating modes: no request leads from SERVICE to RUN. -/
theorem test_run_request_refused_in_service :
    nextHas (exec (.modeRequestRun .host) (stOf (hubIn 7 []))) (fun t => t.hub.answer == .refused 4 && mode t.hub == 7) = true := by
  decide +kernel

/-- R82: an entry that does not exist is refused with 0x01. -/
theorem test_write_of_absent_entry :
    nextHas (exec (.dictionaryWrite .host 0x5FF0 1 ⟨0, 8⟩ 0) (stOf (hubIn 2 []))) (fun t => t.hub.answer == .refused 1) = true := by
  decide +kernel

/-- R21: the fifth transfer waits. -/
theorem test_fifth_transfer_waits :
    nextHas (exec (.crossingTransfer 1 2 w7 true) (stOf { hubIn 3 [] with crossings := [(crossingKey 1 2, xing 4 [])] }))
      (fun t => (crossing t.hub 1 2).waiting == [w7] && (crossing t.hub 1 2).entries.length == 4) = true := by decide +kernel

/-- R704: no record, 0x04. -/
theorem test_acknowledge_without_record :
    nextHas (exec (.acknowledge .host 5) (stOf (officerIn 3 []))) (fun t => t.hub.answer == .refused 4) = true := by decide +kernel

/-- R14: bit [0] is set again in the clock that clears it. -/
theorem test_w1c_keeps_a_bit_set_in_the_same_clock :
    nextHas (exec (.w1cWrite .host 0x4E10 1 3 1) (stOf (hubIn 3 [(0x4E10_01, 7)]))) (fun t => rd t.hub 0x4E10_01 == 5) = true := by
  decide +kernel

/-- R733 and its neighbours: a pull answered "no such image" ends the load with result 0x06. -/
theorem test_pull_of_no_image_fails :
    nextHas (exec (.updateData 9 4 1 600 []) (stOf (upHub 7 1 (upPull 600 [(4, 600, 100, 0)] false) [(0x2F01_03, 9)])))
      (fun t => rd t.hub 0x4F00_01 == 5 && rd t.hub 0x4F00_0C == 6) = true := by decide +kernel

/-- R718 as shipped: reset leaves every register at its default. -/
theorem test_reset_is_sound_in_its_tables : State.reset.hub.dict = [] ∧ State.reset.pending = [] := by decide
end

section
/-! Dictionary accesses: what a refusal records, from which hub an accepted write takes effect, what a path holds meanwhile. -/

namespace Sys2Proof.Machine

/-- Two effects that agree on the hub in hand are one outcome. -/
theorem onHub_congr {s : State} {f g : Hub → Hub} (e : f s.hub = g s.hub) : onHub s f = onHub s g := by
  unfold onHub; rw [e]

/-- An outcome by what its effect makes of the hub in hand. -/
theorem onHub_eq_next {s : State} {f : Hub → Hub} {x : Hub} (e : f s.hub = x) : onHub s f = .next { s with hub := x } := by
  unfold onHub; rw [e]

/-! ### Sparse tables as lists of what is held -/

theorem tabFind_cons {α : Type} (k' : Nat) (v : α) (t : Tab α) (k : Nat) :
    tabFind ((k', v) :: t) k = if k' = k then some v else tabFind t k := by
  unfold tabFind
  by_cases e : k' = k <;> simp [e]

@[simp] theorem tabFind_tabSet_self {α : Type} (t : Tab α) (k : Nat) (v : α) : tabFind (tabSet t k v) k = some v := by
  induction t with
  | nil => simp [tabSet, tabFind_cons]
  | cons e t ih =>
    obtain ⟨k', v'⟩ := e
    rcases Nat.lt_trichotomy k k' with lt | rfl | gt
    · simp [tabSet, tabFind_cons, lt]
    · simp [tabSet, tabFind_cons]
    · simp [tabSet, tabFind_cons, ih, gt.ne, gt.ne', gt.asymm]

theorem tabFind_tabSet_ne {α : Type} (t : Tab α) {k j : Nat} (v : α) (n : j ≠ k) : tabFind (tabSet t k v) j = tabFind t j := by
  induction t with
  | nil => simp [tabSet, n.symm, tabFind]
  | cons e t ih =>
    obtain ⟨k', v'⟩ := e
    rcases Nat.lt_trichotomy k k' with lt | rfl | gt
    · simp [tabSet, tabFind_cons, lt, n.symm]
    · simp [tabSet, tabFind_cons, n.symm]
    · simp [tabSet, tabFind_cons, ih, gt.ne', gt.asymm]

@[simp] theorem tabFind_tabErase_self {α : Type} (t : Tab α) (k : Nat) : tabFind (tabErase t k) k = none := by
  simp [tabFind, tabErase]

/-! ### What a path holds -/

@[simp] theorem pathState_setPath (h : Hub) (p : Path) (x : PathState) : pathState (setPath h p x) p = x :=
  tabGet_tabSet_self pathInit h.paths (pathKey p) x

theorem pathState_of {g h : Hub} (e : g.paths = h.paths) (p : Path) : pathState g p = pathState h p := by
  unfold pathState; rw [e]

/-! ### A refusal and its record (R81, R82) -/

@[simp] theorem refuse_answer (p : Path) (i j c : Nat) (w : Bool) (h : Hub) : (refuse p i j c w h).answer = .refused c := rfl

@[simp] theorem refuse_paths (p : Path) (i j c : Nat) (w : Bool) (h : Hub) : (refuse p i j c w h).paths = h.paths := by
  unfold refuse whenDo
  dsimp only
  split <;> simp [wrStamp]

/-- What 0x4001:01 to 0x4001:07 hold after a refusal, whether or not it raises an event. -/
theorem rd_refuse_record (p : Path) (i j c : Nat) (w : Bool) (h : Hub) (k : Nat) (e : eventKey k = false) :
    rd (refuse p i j c w h) k = rd (wrStamp (wrs (bump h 0x4001_01)
      [(0x4001_02, pathCode p), (0x4001_03, i), (0x4001_04, j), (0x4001_05, c)]) 0x4001_06 0x13) k := by
  unfold refuse
  rw [rd_answered]
  exact whenDo_same (fun g => rd g k) _ _ _ (rd_raiseEvent_of _ _ _ _ _ (by decide) e)

theorem rd_refuse_path (p : Path) (i j c : Nat) (w : Bool) (h : Hub) : rd (refuse p i j c w h) 0x4001_02 = pathCode p := by
  rw [rd_refuse_record _ _ _ _ _ _ _ (by decide)]
  cases p <;> simp [wrStamp, wrs, pathCode]

theorem rd_refuse_index (p : Path) (i j c : Nat) (w : Bool) (h : Hub) (l : i < 65536) :
    rd (refuse p i j c w h) 0x4001_03 = i := by
  rw [rd_refuse_record _ _ _ _ _ _ _ (by decide)]
  simp [wrStamp, wrs]
  omega

theorem rd_refuse_sub (p : Path) (i j c : Nat) (w : Bool) (h : Hub) (l : j < 256) : rd (refuse p i j c w h) 0x4001_04 = j := by
  rw [rd_refuse_record _ _ _ _ _ _ _ (by decide)]
  simp [wrStamp, wrs]
  omega

theorem rd_refuse_code (p : Path) (i j c : Nat) (w : Bool) (h : Hub) (l : c < 256) : rd (refuse p i j c w h) 0x4001_05 = c := by
  rw [rd_refuse_record _ _ _ _ _ _ _ (by decide)]
  simp [wrStamp, wrs]
  omega

/-- A refused write of the host window raises EV_DICT_WRITE_REFUSED (R82). -/
theorem eventPending_refuse_host (i j c : Nat) (h : Hub) : eventPending (refuse .host i j c true h) 3 = true :=
  eventPending_raiseEvent _ _ _ _ _ (by decide) (.inl rfl)

/-- A refused write touches no register but those of its record and of an event. -/
theorem kept_refusedWrite (p : Path) (i j c : Nat) (h : Hub) :
    KeptBut pathRanges h (refuse p i j c true (writeBegun p i j h)) :=
  (kept_writeBegun p i j h).trans (kept_refuse p i j c true _)

/-! ### Codes of refusal (Table 2 of The object dictionary) -/

/-- Every code is one of Table 2. -/
theorem refusalCode_le {c : Causes} {n : Nat} (e : refusalCode c = some n) : n ≤ 10 := by
  unfold refusalCode at e
  split_ifs at e <;> simp only [Option.some.injEq] at e <;> omega

/-- Where no cause applies, a bad value or a busy entry gives its code, the value first. -/
theorem refusalCode_valueBusy {c : Causes} (o : refusalCode c = none) (bad busy : Bool) :
    refusalCode { c with value := c.value || bad, busy := c.busy || busy }
      = if bad then some 4 else if busy then some 8 else none := by
  obtain ⟨a, b, d, e, f, g, i, j, k, l⟩ := (refusalCode_none c).1 o
  simp [refusalCode, a, b, d, e, f, g, i, j, k, l]

/-- Where no cause applies, a wrong size gives code 0x07. -/
theorem refusalCode_size {c : Causes} (o : refusalCode c = none) : refusalCode { c with size := true } = some 7 := by
  obtain ⟨a, b, d, e, f, g, -⟩ := (refusalCode_none c).1 o
  simp [refusalCode, a, b, d, e, f, g]

/-- A register written inside one of the ranges. -/
theorem KeptBut.wrW {r : List (Nat × Nat)} {a b : Hub} (x : KeptBut r a b) (k : Nat) (v : Word) (m : ∃ e ∈ r, e.1 ≤ k ∧ k ≤ e.2) :
    KeptBut r a (wrW b k v) := by
  intro j n
  obtain ⟨e, i, lo, hi⟩ := m
  have outside := n e i
  rw [rdW_wrW, if_neg (by omega)]
  exact x j n

/-! ### The hub from which an accepted write takes effect -/

theorem rdW_writeStart (p : Path) (i j : Nat) (h : Hub) (k : Nat) : rdW (writeStart p i j h) k = rdW (writeBegun p i j h) k :=
  rdW_writeTaken p i j _ k

theorem rd_writeStart (p : Path) (i j : Nat) (h : Hub) (k : Nat) (e : accessKey k = false) : rd (writeStart p i j h) k = rd h k := by
  unfold rd
  rw [rdW_writeStart, rdW_writeBegun_of _ _ _ _ _ e]

theorem kept_writeStart (p : Path) (i j : Nat) (h : Hub) : KeptBut pathRanges h (writeStart p i j h) := fun k n =>
  (rdW_writeStart p i j h k).trans (kept_writeBegun p i j h k n)

@[simp] theorem mode_writeBegun (p : Path) (i j : Nat) (h : Hub) : mode (writeBegun p i j h) = mode h :=
  rd_writeBegun_of _ _ _ _ _ (by decide)

@[simp] theorem mode_writeStart (p : Path) (i j : Nat) (h : Hub) : mode (writeStart p i j h) = mode h :=
  rd_writeStart _ _ _ _ _ (by decide)

@[simp] theorem serving_writeStart (p : Path) (i j : Nat) (h : Hub) : serving (writeStart p i j h) = serving h := by
  simp [serving]

@[simp] theorem writeTaken_answer (p : Path) (i j : Nat) (h : Hub) : (writeTaken p i j h).answer = h.answer := by
  unfold writeTaken endHalf
  split <;> simp

@[simp] theorem writeStart_answer (p : Path) (i j : Nat) (h : Hub) : (writeStart p i j h).answer = .accepted := by
  simp [writeStart, answered]

@[simp] theorem writeTaken_modes (p : Path) (i j : Nat) (h : Hub) : (writeTaken p i j h).modes = h.modes := by
  unfold writeTaken endHalf
  split <;> simp

@[simp] theorem writeStart_modes (p : Path) (i j : Nat) (h : Hub) : (writeStart p i j h).modes = h.modes := by
  simp [writeStart]

@[simp] theorem writeTaken_sleep (p : Path) (i j : Nat) (h : Hub) : (writeTaken p i j h).sleep = h.sleep := by
  unfold writeTaken endHalf
  split <;> simp

@[simp] theorem writeStart_sleep (p : Path) (i j : Nat) (h : Hub) : (writeStart p i j h).sleep = h.sleep := by
  simp [writeStart]

@[simp] theorem writeTaken_paths (p : Path) (i j : Nat) (h : Hub) : (writeTaken p i j h).paths = h.paths := by
  unfold writeTaken endHalf
  split <;> simp

/-- The words of a TIME that a path holds stay held when a write begins: only a long entry's are dropped (R75). -/
theorem timeHeld_writeBegun (p : Path) (i j : Nat) (h : Hub) :
    (pathState (writeBegun p i j h) p).timeHeld = (pathState h p).timeHeld := by
  have begun : (writeBegun p i j h).paths = (dropHeld p (slotKey i j) (touch p (hostTlp p 0x4A00_04 h))).paths := by
    unfold writeBegun dropHalf
    split <;> rfl
  have touched : (touch p (hostTlp p 0x4A00_04 h)).paths = h.paths := by
    unfold touch hostTlp
    split <;> split <;> rfl
  rw [pathState_of begun, ← pathState_of touched]
  generalize touch p (hostTlp p 0x4A00_04 h) = g
  unfold dropHeld
  dsimp only
  split
  · split
    · rfl
    · rw [pathState_of (refuse_paths _ _ _ _ _ _), pathState_setPath]
  · rfl

theorem heldLower_writeBegun (p : Path) (i j k : Nat) (h : Hub) : heldLower (writeBegun p i j h) p k = heldLower h p k := by
  unfold heldLower
  rw [timeHeld_writeBegun]

theorem heldLower_writeStart (p : Path) (i j k : Nat) (h : Hub) : heldLower (writeStart p i j h) p k = heldLower h p k := by
  unfold heldLower writeStart
  rw [pathState_of (writeTaken_paths _ _ _ _), pathState_of (answered_paths _ _), timeHeld_writeBegun]

/-! ### What every served read does first -/

theorem readTouch_paths (p : Path) (i j : Nat) (h : Hub) : (readTouch p i j h).paths = h.paths := by
  unfold readTouch dropHalf touch hostTlp
  split <;> split <;> split <;> rfl

/-- A read's count of its TLP is the one register it writes before its value is taken. -/
theorem kept_readTouch (p : Path) (i j : Nat) (h : Hub) : KeptBut [(0x4A00_05, 0x4A00_05)] h (readTouch p i j h) := by
  have counted : KeptBut [(0x4A00_05, 0x4A00_05)] h (hostTlp p 0x4A00_05 h) := by
    unfold hostTlp
    split
    · exact kept_wr _ _ _
    · exact KeptBut.refl _ _
  refine counted.same ?_
  unfold readTouch dropHalf touch
  split <;> split <;> rfl

end Sys2Proof.Machine
end

section
/-! Mode requests (R44 to R47, R67, R68, R525, R526): what each does on every path to the dictionary. -/

namespace Sys2Proof.Machine

/-! ### One request, whatever its path -/

/-- A request that meets no general cause of refusal is refused with 0x04 where it may not be made from where the hub stands,
else with 0x08 where it must wait, else it is served. -/
def requestOutcome (p : Path) (bad busy : Bool) (f : Hub → Hub) (h : Hub) : Hub :=
  if bad then refuse p 0x2000 2 4 true (writeBegun p 0x2000 2 h)
  else if busy then refuse p 0x2000 2 8 true (writeBegun p 0x2000 2 h)
  else f (writeStart p 0x2000 2 h)

/-- What a request's own causes come to: a bad value or busy. -/
theorem modeRequest_eq {p : Path} {v : Nat} {h : Hub} {from_ : List Nat} {more : Hub → Causes → Causes} (f : Hub → Hub) (bad busy : Bool)
    (o : WriteOpen p 0x2000 2 v h)
    (e : ∀ c : Causes, more (writeBegun p 0x2000 2 h)
        { c with value := c.value || !from_.contains (mode h), busy := c.busy || roundState h == 4 }
      = { c with value := c.value || bad, busy := c.busy || busy }) :
    modeRequest p v from_ more f h = requestOutcome p bad busy f h := by
  obtain ⟨isServed, noWait, noCause⟩ := o
  have late : roundState (writeBegun p 0x2000 2 h) = roundState h := rd_writeBegun_of _ _ _ _ _ (by decide)
  have code := refusalCode_valueBusy noCause bad busy
  unfold modeRequest requestOutcome
  rw [pathWrite_now noWait]
  split_ifs at code ⊢ with isBad isBusy
  · exact pathTry_refused isServed (by rw [mode_writeBegun, late, e]; exact code)
  · exact pathTry_refused isServed (by rw [mode_writeBegun, late, e]; exact code)
  · exact pathTry_accepted isServed (by rw [mode_writeBegun, late, e]; exact code)

theorem exec_modeRequestCommission {p : Path} {s : State} (o : WriteOpen p 0x2000 2 2 s.hub) :
    exec (.modeRequestCommission p) s
      = onHub s (requestOutcome p (!List.contains [3, 4, 5, 7] (mode s.hub)) (roundState s.hub == 4) toCommission) :=
  onHub_congr (modeRequest_eq _ _ _ o fun _ => rfl)

theorem exec_modeRequestRun {p : Path} {s : State} (o : WriteOpen p 0x2000 2 3 s.hub) :
    exec (.modeRequestRun p) s
      = onHub s (requestOutcome p (!List.contains [2, 5] (mode s.hub)) (roundState s.hub == 4) toRun) :=
  onHub_congr (modeRequest_eq _ _ _ o fun _ => rfl)

theorem exec_modeRequestClearing {p : Path} {s : State} (o : WriteOpen p 0x2000 2 5 s.hub) :
    exec (.modeRequestClearing p) s
      = onHub s (requestOutcome p (!List.contains [3] (mode s.hub) || clearingBad (writeBegun p 0x2000 2 s.hub))
          (roundState s.hub == 4 || committed s.hub) toClearing) := by
  have round : committed (writeBegun p 0x2000 2 s.hub) = committed s.hub := by
    unfold committed roundState
    rw [rd_writeBegun_of _ _ _ _ _ (by decide)]
  exact onHub_congr (modeRequest_eq _ _ _ o fun _ => by rw [round, Bool.or_assoc, Bool.or_assoc])

theorem exec_modeRequestService {p : Path} {s : State} (o : WriteOpen p 0x2000 2 7 s.hub) :
    exec (.modeRequestService p) s
      = onHub s (requestOutcome p (!List.contains [2, 3, 4, 5] (mode s.hub) || spireState s.hub == 7)
          (roundState s.hub == 4) (changeMode 7)) := by
  have spire : spireState (writeBegun p 0x2000 2 s.hub) = spireState s.hub := rd_writeBegun_of _ _ _ _ _ (by decide)
  exact onHub_congr (modeRequest_eq _ _ _ o fun _ => by rw [spire, Bool.or_assoc])

theorem requestOutcome_served {bad busy : Bool} (a : bad = false) (b : busy = false) (p : Path) (f : Hub → Hub) (h : Hub) :
    requestOutcome p bad busy f h = f (writeStart p 0x2000 2 h) := by
  subst a b; rfl

/-- A request that must wait is refused with 0x08, and no register but the refusal's record changes. -/
theorem requestOutcome_busy {bad busy : Bool} (a : bad = false) (b : busy = true) (p : Path) (f : Hub → Hub) (h : Hub) :
    (requestOutcome p bad busy f h).answer = .refused 8 ∧ KeptBut pathRanges h (requestOutcome p bad busy f h) := by
  subst a b
  exact ⟨refuse_answer _ _ _ _ _ _, kept_refusedWrite p 0x2000 2 8 h⟩

/-- A request that may not be made is refused with 0x04 and recorded, and the mode stays. -/
theorem requestOutcome_bad {bad : Bool} (a : bad = true) (busy : Bool) (p : Path) (f : Hub → Hub) (h : Hub) :
    (requestOutcome p bad busy f h).answer = .refused 4 ∧ rd (requestOutcome p bad busy f h) 0x4001_05 = 4
      ∧ mode (requestOutcome p bad busy f h) = mode h ∧ KeptBut pathRanges h (requestOutcome p bad busy f h) := by
  subst a
  have kept := kept_refusedWrite p 0x2000 2 4 h
  exact ⟨refuse_answer _ _ _ _ _ _, rd_refuse_code _ _ _ _ _ _ (by decide), congrArg BitVec.toNat (kept 0x2000_01 (by decide)), kept⟩

theorem notContains_of_mem {m : Nat} {l : List Nat} (e : m ∈ l) : (!l.contains m) = false := by simpa using e

theorem notContains_of_notMem {m : Nat} {l : List Nat} (e : m ∉ l) : (!l.contains m) = true := by simpa using e

/-! ### What the requests do -/

/-- Leaving SERVICE may abandon a load; the mode is not yet written. -/
theorem mode_leaveService (h : Hub) : mode (leaveService h) = mode h := by
  have erased : ∀ g : Hub, (eraseStrapped g).dict = g.dict := fun g => by
    unfold eraseStrapped setSlot
    split <;> rfl
  unfold leaveService
  split
  · simp [abandonLoad, wrs, mode, rd_dict _ _ (erased _)]
  · rfl

theorem toCommission_entered (h : Hub) : ModeEntered (mode h) 2 (toCommission h) := by
  have left : mode (whenDo (mode h == 7) leaveService h) = mode h := whenDo_same mode _ _ _ (mode_leaveService h)
  rw [← left]
  exact changeMode_entered 2 (by decide) _

theorem toCommission_autoReturn (h : Hub) : (toCommission h).modes.autoReturn = serving h := rfl

/-- The request 0x03 in COMMISSION only stays pending (R67). -/
theorem toRun_inCommission {h : Hub} (m : mode h = 2) : toRun h = { h with modes := { h.modes with runRequest := true } } :=
  if_pos m

theorem mode_wakeRecord (j : Nat) (late : Bool) (h : Hub) : mode (wakeRecord j late h) = mode h := by
  unfold mode wakeRecord wrStamp
  rw [rd_raiseEvent_of _ _ _ _ _ (by decide) (by decide)]
  simp

/-- The request 0x03 ends CLEARING. -/
theorem toRun_fromClearing {h : Hub} (m : mode h = 5) : ModeEntered 5 3 (toRun h) := by
  unfold toRun
  rw [if_neg (by omega), ← m, ← mode_wakeRecord 0x20 false h]
  exact changeMode_entered 3 (by decide) _

/-! ### The resources that go to sleep with CLEARING -/

theorem groveQuiesce_sleep (g : Nat) (h : Hub) : (groveQuiesce g h).sleep = h.sleep :=
  forEach_same (fun x => x.sleep) _ _ _ fun _ _ _ => by dsimp only; split <;> rfl

theorem groveOff_sleep (g : Nat) (h : Hub) : (groveOff g h).sleep = h.sleep := by
  simp [groveOff, setDomain, saveWords, drainCrossings, groveQuiesce_sleep]

theorem writeFields_sleep (ws : List (Nat × Word)) (h : Hub) : (writeFields ws h).sleep = h.sleep :=
  forEach_same (fun x => x.sleep) _ _ _ fun _ _ _ => rfl

theorem attemptFails_sleep (c : Nat) (h : Hub) : (attemptFails c h).sleep = h.sleep := by
  have written : ∀ ws d k (g : Hub), (writeFields ws (whenDo d (fun x => bump x k) g)).sleep = g.sleep := fun ws d k g =>
    (writeFields_sleep ws _).trans (whenDo_same (fun x => x.sleep) _ _ _ rfl)
  unfold attemptFails
  dsimp only
  split
  · rfl
  · split
    · split
      · exact written _ _ _ _
      · exact written _ _ _ _
    · split <;> rfl
    · rfl

/-- A resource that goes to sleep is noted as asleep, and nothing else is. -/
theorem sleepResource_asleep (j : Nat) (h : Hub) : (sleepResource j h).sleep.asleep = h.sleep.asleep ++ [j] := by
  unfold sleepResource
  dsimp only
  split
  · split
    · rfl
    · rw [groveOff_sleep]
  · split
    · exact congrArg Sleep.asleep (attemptFails_sleep _ _)
    · rfl

theorem forEach_sleepResource_asleep (l : List Nat) (h : Hub) :
    (forEach l sleepResource h).sleep.asleep = h.sleep.asleep ++ l := by
  induction l generalizing h with
  | nil => exact (List.append_nil _).symm
  | cons j l ih =>
    calc (forEach l sleepResource (sleepResource j h)).sleep.asleep
      _ = (sleepResource j h).sleep.asleep ++ l := ih _
      _ = h.sleep.asleep ++ j :: l := by rw [sleepResource_asleep, List.append_assoc, List.singleton_append]

theorem clearingSet_writeStart (p : Path) (i j : Nat) (h : Hub) : clearingSet (writeStart p i j h) = clearingSet h := by
  unfold clearingSet
  rw [rd_writeStart _ _ _ _ _ (by decide), rd_writeStart _ _ _ _ _ (by decide), rd_writeStart _ _ _ _ _ (by decide)]

/-- The mode of CLEARING is entered, and then the whole Clearing set goes to sleep (R526). -/
theorem toClearing_asleep {h : Hub} (m : mode h = 3) : (toClearing h).sleep.asleep = h.sleep.asleep ++ clearingSet h := by
  unfold toClearing
  rw [forEach_sleepResource_asleep, changeMode_sleep _ _ (by omega)]

end Sys2Proof.Machine

open Sys2Proof Sys2Proof.Machine

/-- Settles O6: each request comes to `requestOutcome` with the causes its row adds, and its three cases are the three groups of
clauses. -/
theorem modeRequestsFollowTheTransitionTable : Obligations.ModeRequestsFollowTheTransitionTable := by
  unfold Obligations.ModeRequestsFollowTheTransitionTable
  refine ⟨fun p s o m r => ⟨_, exec_modeRequestCommission o, rfl, ?_⟩, fun p s o m r => ⟨_, exec_modeRequestRun o, rfl, ?_⟩,
    fun p s o m r => ⟨_, exec_modeRequestRun o, rfl, ?_⟩,
    fun p s o m c b => ⟨_, changeMode 5 (writeStart p 0x2000 2 s.hub), exec_modeRequestClearing o, rfl, ?_⟩,
    fun p s o m r a => ⟨_, exec_modeRequestService o, rfl, ?_⟩, fun p s r => ?_, fun p s => ?_⟩
  case refine_1 =>
    dsimp only
    rw [requestOutcome_served (notContains_of_mem m) (beq_false_of_ne r), toCommission_autoReturn, serving_writeStart]
    exact ⟨mode_writeStart p 0x2000 2 s.hub ▸ toCommission_entered _, rfl⟩
  case refine_2 =>
    dsimp only
    rw [requestOutcome_served (notContains_of_mem (by simp [m])) (beq_false_of_ne r), toRun_inCommission (by simp [m])]
    exact ⟨by simp, by simp, kept_writeStart p 0x2000 2 s.hub⟩
  case refine_3 =>
    dsimp only
    rw [requestOutcome_served (notContains_of_mem (by simp [m])) (beq_false_of_ne r)]
    exact toRun_fromClearing (by simp [m])
  case refine_4 =>
    have notLate : (roundState s.hub == 4 || committed s.hub) = false := by
      simp only [committed, Bool.or_eq_false_iff] at c ⊢
      exact ⟨c.2, c⟩
    dsimp only
    rw [requestOutcome_served (by rw [notContains_of_mem (by simp [m]), b]; rfl) notLate, toClearing_asleep (by simp [m]),
      clearingSet_writeStart, writeStart_sleep]
    refine ⟨?_, ?_, rfl⟩
    · have entered := changeMode_entered 5 (by decide) (writeStart p 0x2000 2 s.hub)
      rwa [mode_writeStart, m] at entered
    · rw [toClearing, clearingSet_writeStart]
  case refine_5 =>
    dsimp only
    rw [requestOutcome_served (by rw [notContains_of_mem m, beq_false_of_ne a]; rfl) (beq_false_of_ne r)]
    exact mode_writeStart p 0x2000 2 s.hub ▸ changeMode_entered 7 (by decide) _
  case refine_6 =>
    have late : (roundState s.hub == 4) = true := by simp [r]
    exact ⟨fun o m => ⟨_, exec_modeRequestCommission o, requestOutcome_busy (notContains_of_mem m) late _ _ _⟩,
      fun o m => ⟨_, exec_modeRequestRun o, requestOutcome_busy (notContains_of_mem m) late _ _ _⟩,
      fun o m b => ⟨_, exec_modeRequestClearing o,
        requestOutcome_busy (by rw [notContains_of_mem (by simp [m]), b]; rfl) (by rw [late]; rfl) _ _ _⟩,
      fun o m a => ⟨_, exec_modeRequestService o,
        requestOutcome_busy (by rw [notContains_of_mem m, beq_false_of_ne a]; rfl) late _ _ _⟩⟩
  case refine_7 =>
    exact ⟨fun o m => ⟨_, exec_modeRequestCommission o, requestOutcome_bad (notContains_of_notMem m) _ _ _ _⟩,
      fun o m => ⟨_, exec_modeRequestRun o, requestOutcome_bad (notContains_of_notMem m) _ _ _ _⟩,
      fun o m => ⟨_, exec_modeRequestClearing o,
        requestOutcome_bad (by rw [notContains_of_notMem (by simp [m])]; rfl) _ _ _ _⟩,
      fun o m => ⟨_, exec_modeRequestService o, requestOutcome_bad
        (m.elim (fun n => by rw [notContains_of_notMem n]; rfl) fun ahead => by simp [ahead]) _ _ _ _⟩⟩

end

section
/-! Dictionary writes of single entries: the forms a value comes in, the write of a slot, its refusal (R11, R35, R81 to R92). -/

namespace Sys2Proof.Machine

/-! ### A value in bytes (R5) -/

@[simp] theorem natBytes_length (n v : Nat) : (natBytes n v).length = n := by
  induction n generalizing v with
  | zero => rfl
  | succ n ih => simp [natBytes, ih]

/-- The bytes of a number give it back, modulo what they can hold. -/
theorem bytesNat_natBytes (n v : Nat) : bytesNat (natBytes n v) = v % 256 ^ n := by
  induction n generalizing v with
  | zero => simp [natBytes, bytesNat, Nat.mod_one]
  | succ n ih =>
    have low : (BitVec.ofNat 8 v).toNat = v % 256 := BitVec.toNat_ofNat v 8
    rw [natBytes, bytesNat, ih, low, Nat.pow_succ', Nat.mod_mul]

theorem keptBits_le (i j v : Nat) : keptBits i j v ≤ v := by
  unfold keptBits
  split
  · exact Nat.and_le_left
  · exact Nat.le_refl v

/-! ### Slots that only the MSI-X table and pending bit array have -/

/-- The entry tables do not reach BAR0's MSI-X structures. -/
theorem msixSlot_of_entryRow {i j : Nat} (e : entryRow i j ≠ none) (h : Hub) (p : Path) : msixSlot h p i j = false := by
  have noTable : i ≠ 0xFF00 := by rintro rfl; exact e rfl
  have noPending : i ≠ 0xFF01 := by rintro rfl; exact e rfl
  simp [msixSlot, noTable, noPending]

theorem msixSlot_of_lt {i : Nat} (l : i < 0x6000) (h : Hub) (p : Path) (j : Nat) : msixSlot h p i j = false := by
  have noTable : i ≠ 0xFF00 := by omega
  have noPending : i ≠ 0xFF01 := by omega
  simp [msixSlot, noTable, noPending]

/-- To an access of the dictionary these structures are absent. -/
theorem absentEntry_of_msixSlot {i j : Nat} {h : Hub} {p : Path} (m : msixSlot h p i j = true) (g : Hub) : absentEntry g i j = true := by
  have index : i = 0xFF00 ∨ i = 0xFF01 := by
    simp only [msixSlot, Bool.and_eq_true, Bool.or_eq_true, beq_iff_eq, decide_eq_true_eq] at m
    omega
  have unknown : indexKnown g i = false := by
    rcases index with rfl | rfl <;> rfl
  simp [absentEntry, unknown]

/-! ### The write of one slot -/

section
variable {p : Path} {i j v : Nat} {h : Hub}

theorem writeSlot_of_single (w : pathWaits h p = false) (f : shape i j = .single) : writeSlot p i j v h = entryWrite p i j v h := by
  simp [writeSlot, w, f]

/-- An entry that has no row of its own stores what no cause refuses. -/
theorem entryWrite_accepted (own : ownWrite p i j v = none) (a : Accepted p i j v (entryCauses i j v) h) :
    entryWrite p i j v h
      = if slotAcc i j = some .w1c then clearBits i j v (writeStart p i j h) else storeWritten p i j v (writeStart p i j h) := by
  obtain ⟨isServed, noWait, noCause⟩ := a
  simp only [entryWrite, own]
  exact pathWrite_accepted isServed noWait noCause

theorem entryWrite_refused {c : Nat} (own : ownWrite p i j v = none) (s : served h p = true) (w : pathWaits h p = false)
    (e : refusalCode (entryCauses i j v (writeBegun p i j h) (writeCauses (writeBegun p i j h) p i j v)) = some c) :
    entryWrite p i j v h = refuse p i j c true (writeBegun p i j h) := by
  simp only [entryWrite, own]
  rw [pathWrite_now w]
  exact pathTry_refused s e

/-- An entry kept in its register alone. -/
theorem storeWritten_register (b : bufSlot i j = none) (n : i ≠ 0x2B01) :
    storeWritten p i j v h = afterWrite i j v (storeEntry i j v h) := by
  simp [storeWritten, b, n]

/-- An entry that was stored reads as its value without the reserved bits. -/
theorem rd_storeEntry (l : v < 2 ^ 48) : rd (storeEntry i j v h) (slotKey i j) = keptBits i j v := by
  unfold storeEntry
  rw [rd_wr_self, Nat.mod_eq_of_lt ((keptBits_le i j v).trans_lt l)]

/-- Storing an entry changes its register and those of the access. -/
theorem kept_storeEntry_writeStart :
    KeptBut ((slotKey i j, slotKey i j) :: pathRanges) h (storeEntry i j v (writeStart p i j h)) :=
  ((kept_writeStart p i j h).mono fun _ m => List.mem_cons_of_mem _ m).wr _ _ ⟨_, List.mem_cons_self, le_rfl, le_rfl⟩

/-! ### The forms a write comes in (Table 3 of The object dictionary) -/

theorem hostWrite_eight (w : pathWaits h .host = false) (m : msixSlot h .host i j = false) :
    hostWrite i j 0 8 v h = writeSlot .host i j (v % 2 ^ 48) h := by
  simp [hostWrite, w, m]

/-- Four bytes are the whole of an entry of 32 bits or fewer (R87). -/
theorem hostWrite_four (w : pathWaits h .host = false) (m : msixSlot h .host i j = false) (n : wide h i j = false) :
    hostWrite i j 0 4 v h = writeSlot .host i j (v % 2 ^ 32) h := by
  simp [hostWrite, hostHalfWrite, w, m, n]

theorem hostWrite_misaligned {off size : Nat} (w : pathWaits h .host = false) (m : msixSlot h .host i j = false)
    (n8 : ¬ (off = 0 ∧ size = 8)) (n4 : ¬ (off % 4 = 0 ∧ size = 4)) :
    hostWrite i j off size v h = wrongSize .host i j (if off = 0 then some v else none) h := by
  simp only [hostWrite, w, m, n8, n4, Bool.and_false, Bool.false_eq_true, and_false, if_false]

/-- An SDO download of the right length writes its slot (R91, R92). -/
theorem sdoWrite_single {bs : List Byte} (f : shape i j = .single) (n : furtherSlot i j = false) (l : sdoLengthOk h i j bs.length = true) :
    sdoWrite p i j bs h = writeSlot p i j (bytesNat bs) h := by
  simp [sdoWrite, f, n, l]

/-- What SizeOpen leaves to test is the size: code 0x07. -/
theorem wrongSize_refused {x : Option Nat} (o : SizeOpen p i j x h) : wrongSize p i j x h = refuse p i j 7 true (writeBegun p i j h) := by
  obtain ⟨isServed, -, noCause⟩ := o
  exact pathTry_refused isServed (refusalCode_size noCause)

/-- What is open to a write of any size is no slot of the MSI-X structures. -/
theorem msixSlot_of_sizeOpen {x : Option Nat} (o : SizeOpen .host i j x h) : msixSlot h .host i j = false := by
  obtain ⟨-, -, noCause⟩ := o
  by_contra m
  rw [Bool.not_eq_false] at m
  have index : ¬ (0x6000 ≤ i ∧ i ≤ 0x6FFF ∧ j ≠ 0) := by
    simp only [msixSlot, Bool.and_eq_true, Bool.or_eq_true, beq_iff_eq, decide_eq_true_eq] at m
    omega
  have absent := ((refusalCode_none _).1 noCause).1
  simp [slotWriteCauses, index, entryCauses, writeCauses, absentEntry_of_msixSlot m] at absent

end

end Sys2Proof.Machine

open Sys2Proof Sys2Proof.Machine

/-- Settles O8: every form of a write of one slot comes to `writeSlot`, which `entryWrite_accepted` and `entryWrite_refused` decide. -/
theorem dictionaryWriteIsAppliedOrRefused : Obligations.DictionaryWriteIsAppliedOrRefused := by
  unfold Obligations.DictionaryWriteIsAppliedOrRefused
  refine ⟨fun p i j size v s row own single notW1c notBuf notDome form a => ?_, fun i j off size v s n8 n4 _ _ o => ?_,
    fun p i j v c s li lj own single isServed noWait e => ?_⟩
  case refine_1 =>
    have noMsix := msixSlot_of_entryRow row s.hub .host
    have noWait := a.2.1
    have whole : dictionaryWrite p i j 0 size v s.hub = writeSlot p i j (v % 2 ^ 48) s.hub := by
      rcases form with ⟨rfl, rfl, -⟩ | ⟨rfl, rfl, narrow, l⟩ | ⟨⟨n, rfl⟩, rfl, l⟩ | ⟨⟨ch, rfl⟩, notFurther, length, le6, l⟩
      · exact hostWrite_eight noWait noMsix
      · rw [Nat.mod_eq_of_lt (by omega : v < 2 ^ 48), ← Nat.mod_eq_of_lt l]
        exact (hostWrite_four noWait noMsix narrow).trans (by rw [Nat.mod_mod])
      · rw [Nat.mod_eq_of_lt l]; rfl
      · have fits : v < 2 ^ 48 := l.trans_le (Nat.pow_le_pow_right (by decide) le6)
        refine (sdoWrite_single single notFurther (by rwa [natBytes_length])).trans ?_
        rw [bytesNat_natBytes, Nat.mod_eq_of_lt l, Nat.mod_eq_of_lt fits]
    have stored : dictionaryWrite p i j 0 size v s.hub
        = afterWrite i j (v % 2 ^ 48) (storeEntry i j (v % 2 ^ 48) (writeStart p i j s.hub)) := by
      rw [whole, writeSlot_of_single noWait single, entryWrite_accepted own a, if_neg notW1c, storeWritten_register notBuf notDome]
    refine ⟨_, onHub_eq_next stored, rfl, fun noEffect => ?_⟩
    dsimp only
    rw [noEffect]
    exact ⟨writeStart_answer p i j s.hub, rd_storeEntry (Nat.mod_lt _ (by decide)), kept_storeEntry_writeStart⟩
  case refine_2 =>
    have refused : hostWrite i j off size v s.hub = refuse .host i j 7 true (writeBegun .host i j s.hub) := by
      rw [hostWrite_misaligned o.2.1 (msixSlot_of_sizeOpen o) n8 n4, wrongSize_refused o]
    exact ⟨_, onHub_eq_next refused, refuse_answer _ _ _ _ _ _, rd_refuse_code _ _ _ _ _ _ (by decide), eventPending_refuse_host _ _ _ _,
      kept_refusedWrite _ _ _ _ _⟩
  case refine_3 =>
    have refused := entryWrite_refused own isServed noWait e
    have slot : writeSlot p i j v s.hub = refuse p i j c true (writeBegun p i j s.hub) :=
      (writeSlot_of_single noWait single).trans refused
    refine ⟨fun hw => ⟨_, rfl, ?_⟩, _, rfl, ?_, ?_⟩
    · show (w1cWrite p i j v hw s.hub).answer = _
      unfold w1cWrite
      dsimp only
      rw [refused]
      split <;> rfl
    · rintro n rfl; rfl
    · rw [slot]
      have small := refusalCode_le e
      exact ⟨refuse_answer _ _ _ _ _ _, rd_refuse_path _ _ _ _ _ _, rd_refuse_index _ _ _ _ _ _ li, rd_refuse_sub _ _ _ _ _ _ lj,
        rd_refuse_code _ _ _ _ _ _ (by omega), fun host => by subst host; exact eventPending_refuse_host _ _ _ _,
        kept_refusedWrite _ _ _ _ _⟩

end

section
/-! Reads and writes by access class and by shape: W1C, RC, the two words of a TIME (R9, R10, R12 to R14). -/

namespace Sys2Proof.Machine

/-! ### W1C (R12, R14) -/

theorem rdW_clearBits (i j v : Nat) (h : Hub) :
    rdW (clearBits i j v h) (slotKey i j) = rdW h (slotKey i j) &&& ~~~ BitVec.ofNat 48 v :=
  rdW_wrW_self _ _ _

/-- The bits named are cleared first, then those the hub sets in the same clock are set. -/
theorem w1cWrite_accepted {p : Path} {i j v : Nat} {h : Hub} (hw : Nat) (c : slotAcc i j = some .w1c) (own : ownWrite p i j v = none)
    (a : Accepted p i j v (entryCauses i j v) h) :
    w1cWrite p i j v hw h = wrW (clearBits i j v (writeStart p i j h)) (slotKey i j)
      (rdW (clearBits i j v (writeStart p i j h)) (slotKey i j) ||| BitVec.ofNat 48 (keptBits i j hw)) := by
  simp only [w1cWrite, c, entryWrite_accepted own a, if_true]

/-! ### Reads of a slot -/

section
variable {p : Path} {i j : Nat} {h : Hub}

/-- A served read that no cause refuses returns the slot's value. -/
theorem readSlot_value (s : served h p = true) (w : pathWaits h p = false) (l : i < 0x6000) (b : ¬ (i = 0x2A02 ∧ j = 1))
    (e : refusalCode (readCauses (readTouch p i j h) i j) = none) :
    readSlot p i j h = answered (.value (slotRead p i j (readTouch p i j h)).1) (slotRead p i j (readTouch p i j h)).2 := by
  have notProcess : ¬ (0x6000 ≤ i ∧ j ≠ 0) := fun x => absurd x.1 (by omega)
  simp only [readSlot, s, w, msixSlot_of_lt l, b, e, notProcess, if_true, if_false, and_false, Bool.false_eq_true]

/-- A single slot reads as its value; what the read does beside is `readEffect`. -/
theorem slotRead_single (b : bufSlot i j = none) (f : shape i j = .single) : slotRead p i j h = (slotValue h p i j, readEffect p i j h) := by
  simp [slotRead, b, f]

/-- An entry with no content computed elsewhere reads as its register. -/
theorem slotValue_register (n : slotAcc i j ≠ some .wo) (l : i < 0x6000) (v : view h p i j = none) :
    slotValue h p i j = rd h (slotKey i j) := by
  have notProcess : ¬ (0x6000 ≤ i ∧ j = 0) := fun x => absurd x.1 (by omega)
  simp [slotValue, n, notProcess, v]

/-! ### RC (R12, R13) -/

/-- What a read leaves in an RC entry. -/
theorem readEffect_rc (c : slotAcc i j = some .rc) :
    readEffect p i j h = wr h (slotKey i j) (max (rcCleared i j) (peakLevel h i j)) := by
  simp [readEffect, c]

/-- The one entry whose cleared value is not 0 measures a lowest value, and no level stands for it. -/
theorem peakLevel_of_rcCleared (c : rcCleared i j ≠ 0) (g : Hub) : rcCleared i j = 2 ^ 32 - 1 ∧ peakLevel g i j = 0 := by
  obtain ⟨lo, hi, sub⟩ : 0x3600 ≤ i ∧ i < 0x3610 ∧ j = 0x11 := by
    by_contra n
    exact c (if_neg n)
  refine ⟨if_pos ⟨lo, hi, sub⟩, ?_⟩
  unfold peakLevel
  rw [if_neg (by omega)]
  split <;> omega

theorem tyMax_lt (i j : Nat) : tyMax i j < 2 ^ 48 := by
  have width : (Option.map tyBits (slotTy i j)).getD 48 ≤ 48 := by
    cases slotTy i j with
    | none => exact le_rfl
    | some t => cases t <;> simp [tyBits]
  exact Nat.sub_one_lt_of_le (Nat.two_pow_pos _) (Nat.pow_le_pow_right (by decide) width)

theorem hardwareUpdate_zero (i j : Nat) (h : Hub) : hardwareUpdate i j 0 h = h := if_pos (.inr rfl)

/-- Counts and peaks rise by what arrives. -/
theorem hardwareUpdate_rises {u : Nat} (c : slotAcc i j = some .rc) (n : u ≠ 0) (z : rcCleared i j = 0) :
    hardwareUpdate i j u h = wr h (slotKey i j) (min (rd h (slotKey i j) + u) (tyMax i j)) := by
  simp [hardwareUpdate, c, n, z]

/-- A lowest value falls to what arrives. -/
theorem hardwareUpdate_falls {u : Nat} (c : slotAcc i j = some .rc) (n : u ≠ 0) (z : rcCleared i j ≠ 0) :
    hardwareUpdate i j u h = wr h (slotKey i j) (min (rd h (slotKey i j)) u) := by
  simp [hardwareUpdate, c, n, z]

/-- What an RC entry holds after a read, with what arrives in the same clock (R12, R13). -/
theorem rd_hardwareUpdate_of_cleared {g : Hub} (c : slotAcc i j = some .rc) (u : Nat)
    (left : rd g (slotKey i j) = max (rcCleared i j) (peakLevel h i j) % 2 ^ 48) :
    rd (hardwareUpdate i j u g) (slotKey i j)
      = if rcCleared i j ≠ 0 then (if u = 0 then 2 ^ 32 - 1 else min (2 ^ 32 - 1) u)
        else if u = 0 then peakLevel h i j % 2 ^ 48 else min (peakLevel h i j % 2 ^ 48 + u) (tyMax i j) := by
  by_cases z : rcCleared i j = 0
  · rw [if_neg (not_not_intro z)]
    rw [z, Nat.zero_max] at left
    split
    · next n => rw [n, hardwareUpdate_zero, left]
    · next n =>
      rw [hardwareUpdate_rises c n z, rd_wr_self, left]
      exact Nat.mod_eq_of_lt ((Nat.min_le_right _ _).trans_lt (tyMax_lt i j))
  · obtain ⟨cleared, level⟩ := peakLevel_of_rcCleared z h
    rw [cleared, level] at left
    rw [if_pos z]
    split
    · next n => rw [n, hardwareUpdate_zero, left]; rfl
    · next n =>
      rw [hardwareUpdate_falls c n z, rd_wr_self, left]
      omega

theorem hardwareUpdate_answer {a : Answer} {g : Hub} (u : Nat) : (hardwareUpdate i j u (answered a g)).answer = a := by
  unfold hardwareUpdate
  split
  · rfl
  · split <;> rfl

theorem kept_hardwareUpdate (u : Nat) : KeptBut [(slotKey i j, slotKey i j)] h (hardwareUpdate i j u h) := by
  unfold hardwareUpdate
  split
  · exact KeptBut.refl _ _
  · split
    · exact kept_wr _ _ _
    · exact kept_wr _ _ _

/-! ### The words of a TIME (R9, R10) -/

/-- Reading the lower word latches the upper for the path. -/
theorem slotRead_timeLo (b : bufSlot i j = none) (f : shape i j = .timeLo) :
    slotRead p i j h = (slotValue h p i j, setPath h p { pathState h p with
      timeLatch := tabSet (pathState h p).timeLatch (slotKey i j + 1) (slotValue h p i (j + 1)) }) := by
  simp [slotRead, b, f]

/-- Writing the lower word holds it for the path. -/
theorem timeLowerWrite_accepted {v : Nat} (a : Accepted p i j v (entryCauses i j v) h) :
    timeLowerWrite p i j v h = setPath (answered .accepted (writeBegun p i j h)) p
      { pathState (answered .accepted (writeBegun p i j h)) p with
        timeHeld := tabSet (pathState (answered .accepted (writeBegun p i j h)) p).timeHeld (slotKey i j) v } :=
  pathTry_accepted a.1 a.2.2

/-- What a write of the upper word meets: its own causes, a value out of range, and 0x07 where its lower word is not held. -/
theorem timeUpper_causes {v : Nat} (t : timeHiBad v = false) (c : Causes) (g : Hub) (k : Nat) (n : heldLower g p k ≠ none) :
    { c with value := c.value || timeHiBad v, size := c.size || (heldLower g p k).isNone } = c := by
  have held : (heldLower g p k).isNone = false := by simpa [← Option.ne_none_iff_isSome] using n
  rw [t, held, Bool.or_false, Bool.or_false]

/-- With the lower word held both words take effect together. -/
theorem timeUpperWrite_accepted {lo v : Nat} (n : heldLower h p (slotKey i j) = some lo) (t : timeHiBad v = false)
    (a : Accepted p i j v (entryCauses i j v) h) : timeUpperWrite p i j v h = timeStore p i (j - 1) lo v (writeStart p i j h) := by
  obtain ⟨isServed, noWait, noCause⟩ := a
  have held : heldLower (writeBegun p i j h) p (slotKey i j) = some lo := (heldLower_writeBegun p i j _ h).trans n
  have start : (heldLower (writeStart p i j h) p (slotKey i j)).getD 0 = lo := by rw [heldLower_writeStart, n]; rfl
  refine (pathWrite_accepted isServed noWait ?_).trans (congrArg (fun x => timeStore p i (j - 1) x v (writeStart p i j h)) start)
  rw [← noCause]
  exact congrArg refusalCode (timeUpper_causes t _ _ _ (by simp [held]))

/-- With none held it is refused as of the wrong size. -/
theorem timeUpperWrite_refused {v : Nat} (n : heldLower h p (slotKey i j) = none) (t : timeHiBad v = false)
    (a : Accepted p i j v (entryCauses i j v) h) :
    timeUpperWrite p i j v h = refuse p i j 7 true (writeBegun p i j h) := by
  obtain ⟨isServed, noWait, noCause⟩ := a
  have held : heldLower (writeBegun p i j h) p (slotKey i j) = none := (heldLower_writeBegun p i j _ h).trans n
  unfold timeUpperWrite
  rw [pathWrite_now noWait]
  refine pathTry_refused isServed ?_
  rw [← refusalCode_size noCause, held, t]
  simp

theorem heldLower_upper (h : Hub) (p : Path) (k : Nat) : heldLower h p (k + 1) = tabFind (pathState h p).timeHeld k := by
  rw [heldLower, Nat.add_sub_cancel]

theorem slotKey_succ (i j : Nat) : slotKey i (j + 1) = slotKey i j + 1 := (Nat.add_assoc _ _ _).symm

/-- Both words of a TIME stored, with nothing held or latched of it, before what the write brings about at once. -/
def bothWords (p : Path) (i j lo hi : Nat) (h : Hub) : Hub :=
  storeEntry i (j + 1) hi (storeEntry i j lo (setPath h p { pathState h p with
    timeHeld := tabErase (pathState h p).timeHeld (slotKey i j)
    timeLatch := tabErase (pathState h p).timeLatch (slotKey i (j + 1)) }))

theorem timeStore_eq (p : Path) (i j lo hi : Nat) (h : Hub) :
    timeStore p i j lo hi h = afterWrite i (j + 1) hi (bothWords p i j lo hi h) := rfl

theorem rd_bothWords_lower {lo : Nat} (hi : Nat) (l : lo < 2 ^ 48) : rd (bothWords p i j lo hi h) (slotKey i j) = keptBits i j lo :=
  (rd_wr_ne _ _ _ _ (by rw [slotKey_succ]; omega)).trans (rd_storeEntry l)

theorem rd_bothWords_upper {hi : Nat} (lo : Nat) (l : hi < 2 ^ 48) :
    rd (bothWords p i j lo hi h) (slotKey i (j + 1)) = keptBits i (j + 1) hi :=
  rd_storeEntry l

theorem heldLower_bothWords (lo hi : Nat) : heldLower (bothWords p i j lo hi h) p (slotKey i (j + 1)) = none := by
  have path : pathState (bothWords p i j lo hi h) p = { pathState h p with
    timeHeld := tabErase (pathState h p).timeHeld (slotKey i j)
    timeLatch := tabErase (pathState h p).timeLatch (slotKey i (j + 1)) } := pathState_setPath _ _ _
  rw [slotKey_succ, heldLower_upper, path]
  exact tabFind_tabErase_self _ _

theorem kept_bothWords {r : List (Nat × Nat)} {g : Hub} (lo hi : Nat) (k : KeptBut r g h) :
    KeptBut ((slotKey i j, slotKey i (j + 1)) :: r) g (bothWords p i j lo hi h) := by
  have before : KeptBut ((slotKey i j, slotKey i (j + 1)) :: r) g h := k.mono fun _ m => List.mem_cons_of_mem _ m
  have next := slotKey_succ i j
  exact (KeptBut.wr (before.same rfl) _ _ ⟨_, List.mem_cons_self, le_rfl, by rw [next]; omega⟩).wr _ _
    ⟨_, List.mem_cons_self, by rw [next]; omega, le_rfl⟩

end

end Sys2Proof.Machine

open Sys2Proof Sys2Proof.Machine

/-- Settles O9: each clause is what the read or write of its class or shape comes to, and what that leaves in the register. -/
theorem readAndWriteClassesKeepTheirRules : Obligations.ReadAndWriteClassesKeepTheirRules := by
  unfold Obligations.ReadAndWriteClassesKeepTheirRules
  refine ⟨fun p i j v hw s c own _ a => ?_, fun p i j u s isServed noWait c f b notBarrier l noView e => ?_,
    fun p i j s isServed noWait f b l e => ?_, fun p i j v s f a => ?_, fun p i j lo v s f n t a => ?_, fun p i j v s f n t a => ?_⟩
  case refine_1 =>
    refine ⟨_, onHub_eq_next (w1cWrite_accepted hw c own a), writeStart_answer p i j s.hub, ?_, ?_⟩
    · rw [rdW_wrW_self, rdW_clearBits, rdW_writeStart]
    · have kept := (kept_writeStart p i j s.hub).mono (q := (slotKey i j, slotKey i j) :: pathRanges)
        fun _ m => List.mem_cons_of_mem _ m
      exact (kept.wrW _ _ ⟨_, List.mem_cons_self, le_rfl, le_rfl⟩).wrW _ _ ⟨_, List.mem_cons_self, le_rfl, le_rfl⟩
  case refine_2 =>
    have noBarrier : ¬ (i = 0x2A02 ∧ j = 1) := by rintro ⟨rfl, rfl⟩; exact notBarrier rfl
    have value : slotValue (readTouch p i j s.hub) p i j = rd (readTouch p i j s.hub) (slotKey i j) :=
      slotValue_register (by rw [c]; decide) l noView
    have read : readSlot p i j s.hub = answered (.value (rd (readTouch p i j s.hub) (slotKey i j)))
        (wr (readTouch p i j s.hub) (slotKey i j) (max (rcCleared i j) (peakLevel (readTouch p i j s.hub) i j))) := by
      rw [readSlot_value isServed noWait l noBarrier e, slotRead_single b f, value, readEffect_rc c]
    refine ⟨_, onHub_eq_next (f := fun h => hardwareUpdate i j u (readSlot p i j h)) (congrArg (hardwareUpdate i j u) read),
      hardwareUpdate_answer u, ?_, ?_⟩
    · exact rd_hardwareUpdate_of_cleared c u (rd_wr_self _ _ _)
    · have touched := (kept_readTouch p i j s.hub).mono (q := [(slotKey i j, slotKey i j), (0x4A00_05, 0x4A00_05)])
        fun _ m => List.mem_cons_of_mem _ m
      exact (touched.wr _ _ ⟨_, List.mem_cons_self, le_rfl, le_rfl⟩).trans
        ((kept_hardwareUpdate u).mono fun _ m => List.mem_cons.2 (.inl (List.mem_singleton.1 m)))
  case refine_3 =>
    have noBarrier : ¬ (i = 0x2A02 ∧ j = 1) := by
      rintro ⟨rfl, rfl⟩
      exact absurd f (by decide +kernel)
    refine ⟨_, onHub_eq_next (readSlot_value isServed noWait l noBarrier e), ?_⟩
    rw [slotRead_timeLo b f]
    have paths : pathState (readTouch p i j s.hub) p = pathState s.hub p := pathState_of (readTouch_paths p i j s.hub) p
    have latch : ∀ x g, pathState (answered x (setPath (readTouch p i j s.hub) p g)) p = g := fun x g => pathState_setPath _ _ _
    dsimp only
    refine ⟨rfl, ?_, fun k other => ?_, rfl⟩
    · rw [latch]; exact tabFind_tabSet_self _ _ _
    · rw [latch]; exact (tabFind_tabSet_ne _ _ other).trans (by rw [paths]; rfl)
  case refine_4 =>
    have write : writeSlot p i j v s.hub = timeLowerWrite p i j v s.hub := by simp [writeSlot, a.2.1, f]
    refine ⟨_, onHub_eq_next (write.trans (timeLowerWrite_accepted a)), rfl, ?_, kept_writeBegun p i j s.hub⟩
    dsimp only
    rw [heldLower_upper, pathState_setPath]
    exact tabFind_tabSet_self _ _ _
  case refine_5 =>
    have write : writeSlot p i (j + 1) v s.hub = timeUpperWrite p i (j + 1) v s.hub := by simp [writeSlot, a.2.1, f]
    exact ⟨_, bothWords p i j lo v (writeStart p i (j + 1) s.hub), onHub_eq_next (write.trans (timeUpperWrite_accepted n t a)),
      timeStore_eq p i j lo v _, rd_bothWords_lower v, rd_bothWords_upper lo, heldLower_bothWords lo v,
      kept_bothWords lo v (kept_writeStart p i (j + 1) s.hub)⟩
  case refine_6 =>
    have write : writeSlot p i j v s.hub = timeUpperWrite p i j v s.hub := by simp [writeSlot, a.2.1, f]
    exact ⟨_, onHub_eq_next (write.trans (timeUpperWrite_refused n t a)), refuse_answer _ _ _ _ _ _, kept_refusedWrite p i j 7 s.hub⟩

end

section
/-! The whole machine: the soundness of the hub (R21, R22, R584) is an invariant of the step. -/

namespace Sys2Proof.Machine

/-- Whatever the command, its meaning keeps a hub sound. -/
theorem exec_keeps : ∀ i, Keeps (exec i)
  | .powerOn straps testMode => execPowerOn_sound straps testMode
  | .resetNFall widthNs => execResetNFall_sound widthNs
  | .resetNRise straps testMode => execResetNRise_sound straps testMode
  | .bootMemoryInitDone ok => execBootMemoryInitDone_sound ok
  | .knownAnswerTestsDone results => execKnownAnswerTestsDone_sound results
  | .imageVerifyDone okA okB okHost => execImageVerifyDone_sound okA okB okHost
  | .firmwareSelftestDone channelsFailed enginesFailed => execFirmwareSelftestDone_sound channelsFailed enginesFailed
  | .factoryAuthTimeout => execFactoryAuthTimeout_sound
  | .factoryEntry => execFactoryEntry_sound
  | .bootControlWrite length => execBootControlWrite_sound length
  | .modeRequestCommission path => execModeRequestCommission_sound path
  | .modeRequestRun path => execModeRequestRun_sound path
  | .modeRequestClearing path => execModeRequestClearing_sound path
  | .modeRequestService path => execModeRequestService_sound path
  | .limpExit => execLimpExit_sound
  | .softwareReset path value => execSoftwareReset_sound path value
  | .rangerWatchdogExpiry => execRangerWatchdogExpiry_sound
  | .commissionBlockedTimeout => execCommissionBlockedTimeout_sound
  | .runEntry => execRunEntry_sound
  | .clockMonitorWindow check khz => execClockMonitorWindow_sound check khz
  | .crossingTransfer src dst word parityOk => execCrossingTransfer_sound src dst word parityOk
  | .crossingTimeout src dst => execCrossingTimeout_sound src dst
  | .spireSyncEdge => execSpireSyncEdge_sound
  | .backstopTimeout heartbeat => execBackstopTimeout_sound heartbeat
  | .dictionaryWrite path index sub span value => execDictionaryWrite_sound path index sub span value
  | .rcRead path index sub update => execRcRead_sound path index sub update
  | .w1cWrite path index sub value hwSet => execW1cWrite_sound path index sub value hwSet
  | .timeLowerRead path index sub => execTimeLowerRead_sound path index sub
  | .timeLowerWrite path index sub value => execTimeLowerWrite_sound path index sub value
  | .timeUpperWrite path index sub value => execTimeUpperWrite_sound path index sub value
  | .longEntryFirstRead path index sub => execLongEntryFirstRead_sound path index sub
  | .longEntrySlotWrite path index sub value => execLongEntrySlotWrite_sound path index sub value
  | .hostWindowLowRead slot span => execHostWindowLowRead_sound slot span
  | .hostWindowHalfWrite index sub upper value => execHostWindowHalfWrite_sound index sub upper value
  | .ringDictRequest src dst op tag index sub count data => execRingDictRequest_sound src dst op tag index sub count data
  | .mailboxRead path => execMailboxRead_sound path
  | .mailboxWrite path => execMailboxWrite_sound path
  | .mailboxResponse tag status data => execMailboxResponse_sound tag status data
  | .mailboxTimeout => execMailboxTimeout_sound
  | .storeParameters path value => execStoreParameters_sound path value
  | .storeComplete ok => execStoreComplete_sound ok
  | .restoreDefaultParameters path value => execRestoreDefaultParameters_sound path value
  | .configurationLoadDone => execConfigurationLoadDone_sound
  | .configurationCommit path value => execConfigurationCommit_sound path value
  | .linkDownRestart port => execLinkDownRestart_sound port
  | .linkSignalDetect port => execLinkSignalDetect_sound port
  | .blockLock port => execBlockLock_sound port
  | .alignLock port skew => execAlignLock_sound port skew
  | .fecLock port => execFecLock_sound port
  | .helloReceived port version sender remoteFault hub => execHelloReceived_sound port version sender remoteFault hub
  | .linkStateTimeout port => execLinkStateTimeout_sound port
  | .holdDownExpiry port => execHoldDownExpiry_sound port
  | .helloSend port => execHelloSend_sound port
  | .linkTrainFailTimer port => execLinkTrainFailTimer_sound port
  | .linkFailure port cause => execLinkFailure_sound port cause
  | .errorTakedown port found => execErrorTakedown_sound port found
  | .frameReceive port frame hop check => execFrameReceive_sound port frame hop check
  | .frameSend point => execFrameSend_sound point
  | .presenceSend => execPresenceSend_sound
  | .presence ring src hop role mode serial => execPresence_sound ring src hop role mode serial
  | .presenceTimeout hub ring => execPresenceTimeout_sound hub ring
  | .claimSend => execClaimSend_sound
  | .claim number role serial => execClaim_sound number role serial
  | .offer number serial => execOffer_sound number serial
  | .conflict number serial => execConflict_sound number serial
  | .claimTimerExpiry => execClaimTimerExpiry_sound
  | .linkState src port up => execLinkState_sound src port up
  | .ringPortRetrain path sub value => execRingPortRetrain_sound path sub value
  | .transmitDisableWrite path value => execTransmitDisableWrite_sound path value
  | .ringFrameAdmit port frame => execRingFrameAdmit_sound port frame
  | .creditedFrameStart port => execCreditedFrameStart_sound port
  | .cellGrant => execCellGrant_sound
  | .outputCreditReturn port cls => execOutputCreditReturn_sound port cls
  | .ageingScan => execAgeingScan_sound
  | .bufferCensus upsets skew => execBufferCensus_sound upsets skew
  | .locatePass lost => execLocatePass_sound lost
  | .voteMinority channel group => execVoteMinority_sound channel group
  | .voteSplit cause group => execVoteSplit_sound cause group
  | .digestCompare upsets => execDigestCompare_sound upsets
  | .channelTreeCheck channel ok => execChannelTreeCheck_sound channel ok
  | .channelSelftestDone channel pass => execChannelSelftestDone_sound channel pass
  | .checkpointLoaded channel same => execCheckpointLoaded_sound channel same
  | .replayCaughtUp channel upsets => execReplayCaughtUp_sound channel upsets
  | .replayLogFull channel => execReplayLogFull_sound channel
  | .probationExpiry channel => execProbationExpiry_sound channel
  | .channelRelease path value => execChannelRelease_sound path value
  | .canopyRequestIssue req => execCanopyRequestIssue_sound req
  | .canopyHomeRequest req => execCanopyHomeRequest_sound req
  | .canopyHolderRequest req => execCanopyHolderRequest_sound req
  | .canopyResponse resp => execCanopyResponse_sound resp
  | .retryDelayExpiry port tag => execRetryDelayExpiry_sound port tag
  | .orderGapTimeout src port cls => execOrderGapTimeout_sound src port cls
  | .flowStateExpiry src port cls => execFlowStateExpiry_sound src port cls
  | .writeAckTimer src port cls => execWriteAckTimer_sound src port cls
  | .completionTimeout port tag => execCompletionTimeout_sound port tag
  | .barrier port => execBarrier_sound port
  | .reachLifetimeExpiry handle => execReachLifetimeExpiry_sound handle
  | .reachFlush path value => execReachFlush_sound path value
  | .moveTimeLimitExpiry slot => execMoveTimeLimitExpiry_sound slot
  | .definitionWrite path slot field value => execDefinitionWrite_sound path slot field value
  | .placementRun => execPlacementRun_sound
  | .placementRetry => execPlacementRetry_sound
  | .scoringInterval => execScoringInterval_sound
  | .moveRequestStart path value => execMoveRequestStart_sound path value
  | .migrationOffer src tag handle kind length placement defn => execMigrationOffer_sound src tag handle kind length placement defn
  | .migrationAnswer src tag handle status base => execMigrationAnswer_sound src tag handle status base
  | .migrationDrain src tag handle target switchNs => execMigrationDrain_sound src tag handle target switchNs
  | .migrationDrained src tag handle status => execMigrationDrained_sound src tag handle status
  | .migrationData src tag handle first words => execMigrationData_sound src tag handle first words
  | .migrationInstalled src tag handle received => execMigrationInstalled_sound src tag handle received
  | .migrationCommit src tag handle terms => execMigrationCommit_sound src tag handle terms
  | .migrationAbort src tag handle => execMigrationAbort_sound src tag handle
  | .migrationCensus src tag handles => execMigrationCensus_sound src tag handles
  | .migrationHeld src held => execMigrationHeld_sound src held
  | .migrationGroup src tag handle install => execMigrationGroup_sound src tag handle install
  | .migrationScore src handle scores => execMigrationScore_sound src handle scores
  | .migrationAck src tag handle => execMigrationAck_sound src tag handle
  | .migrationResend tag => execMigrationResend_sound tag
  | .censusTimeout => execCensusTimeout_sound
  | .handoverHalt source readOk => execHandoverHalt_sound source readOk
  | .cycleStart => execCycleStart_sound
  | .outputInstant => execOutputInstant_sound
  | .contributionReceive src tag index head words => execContributionReceive_sound src tag index head words
  | .rebindNotice code handle holder slot cycle => execRebindNotice_sound code handle holder slot cycle
  | .cycleWorkComplete => execCycleWorkComplete_sound
  | .cycleWatchdogExpiry contributions => execCycleWatchdogExpiry_sound contributions
  | .announceSend => execAnnounceSend_sound
  | .announce src cls locked => execAnnounce_sound src cls locked
  | .announceTimeout hub => execAnnounceTimeout_sound hub
  | .syncSend ring => execSyncSend_sound ring
  | .sync ring master cls hops seq originPs pathNs rtNs arrivalPs => execSync_sound ring master cls hops seq originPs pathNs rtNs arrivalPs
  | .spireStep => execSpireStep_sound
  | .delayReqSend port t1Ps => execDelayReqSend_sound port t1Ps
  | .delayReq port src seq t2Ps => execDelayReq_sound port src seq t2Ps
  | .delayResp port seq t3Seq t2Ps t3Ps t4Ps errorBlock => execDelayResp_sound port seq t3Seq t2Ps t3Ps t4Ps errorBlock
  | .delayRespTimeout port => execDelayRespTimeout_sound port
  | .chainSwitch => execChainSwitch_sound
  | .holdoverEntry => execHoldoverEntry_sound
  | .holdoverLimitExpiry => execHoldoverLimitExpiry_sound
  | .holdoverCalibrate increment => execHoldoverCalibrate_sound increment
  | .spireIslandFault => execSpireIslandFault_sound
  | .ppsOutEdge => execPpsOutEdge_sound
  | .ppsOutWidthEnd => execPpsOutWidthEnd_sound
  | .ppsInEdge stampNs => execPpsInEdge_sound stampNs
  | .ppsInTimeout => execPpsInTimeout_sound
  | .sysNop engine pins => execSysNop_sound engine pins
  | .sysHalt engine pins => execSysHalt_sound engine pins
  | .sysSig engine pins code => execSysSig_sound engine pins code
  | .sysStamp engine pins => execSysStamp_sound engine pins
  | .sysClrm engine pins => execSysClrm_sound engine pins
  | .br engine pins cond target => execBr_sound engine pins cond target
  | .brp engine pins level pin target => execBrp_sound engine pins level pin target
  | .dbnz engine pins target => execDbnz_sound engine pins target
  | .await engine pins flagForm event pin => execAwait_sound engine pins flagForm event pin
  | .driveLow engine pins mask => execDriveLow_sound engine pins mask
  | .driveHigh engine pins mask => execDriveHigh_sound engine pins mask
  | .driveRelease engine pins mask => execDriveRelease_sound engine pins mask
  | .driveToggle engine pins mask => execDriveToggle_sound engine pins mask
  | .shiftIn engine pins msbFirst pin => execShiftIn_sound engine pins msbFirst pin
  | .shiftOut engine pins msbFirst pin => execShiftOut_sound engine pins msbFirst pin
  | .take engine pins dst => execTake_sound engine pins dst
  | .put engine pins src endMark count => execPut_sound engine pins src endMark count
  | .copy engine pins dst src => execCopy_sound engine pins dst src
  | .aluAdd engine pins dst imm operand => execAluAdd_sound engine pins dst imm operand
  | .aluSub engine pins dst imm operand => execAluSub_sound engine pins dst imm operand
  | .aluAnd engine pins dst imm operand => execAluAnd_sound engine pins dst imm operand
  | .aluOr engine pins dst imm operand => execAluOr_sound engine pins dst imm operand
  | .aluXor engine pins dst imm operand => execAluXor_sound engine pins dst imm operand
  | .aluShl engine pins dst imm operand => execAluShl_sound engine pins dst imm operand
  | .aluShr engine pins dst imm operand => execAluShr_sound engine pins dst imm operand
  | .aluNot engine pins dst imm operand => execAluNot_sound engine pins dst imm operand
  | .aluRev engine pins dst imm operand => execAluRev_sound engine pins dst imm operand
  | .ldi engine pins dst imm => execLdi_sound engine pins dst imm
  | .arm engine pins fromCmp imm operand => execArm_sound engine pins fromCmp imm operand
  | .halt path engine => execHalt_sound path engine
  | .resume path engine => execResume_sound path engine
  | .load path engine image => execLoad_sound path engine image
  | .loadClean path engine image pins => execLoadClean_sound path engine image pins
  | .engineStep path engine pins => execEngineStep_sound path engine pins
  | .flush path engine => execFlush_sound path engine
  | .txqRefill engine => execTxqRefill_sound engine
  | .rxqDrain engine => execRxqDrain_sound engine
  | .pinDriverDiagnosis fio => execPinDriverDiagnosis_sound fio
  | .engineCheckFailure engine cause => execEngineCheckFailure_sound engine cause
  | .engineSelftest failed => execEngineSelftest_sound failed
  | .fifoWordWrite fifo word => execFifoWordWrite_sound fifo word
  | .fifoNarrowWrite fifo wide value endMark => execFifoNarrowWrite_sound fifo wide value endMark
  | .fifoRead fifo => execFifoRead_sound fifo
  | .mark path fifo => execMark_sound path fifo
  | .rewind path fifo => execRewind_sound path fifo
  | .release path fifo count => execRelease_sound path fifo count
  | .pageBudgetWrite path fifo value => execPageBudgetWrite_sound path fifo value
  | .stopTimeout fifo => execStopTimeout_sound fifo
  | .idleTimeout fifo => execIdleTimeout_sound fifo
  | .streamDataSend fifo => execStreamDataSend_sound fifo
  | .streamData src handle first words => execStreamData_sound src handle first words
  | .streamCredit handle limit expected => execStreamCredit_sound handle limit expected
  | .creditPeriodic fifo => execCreditPeriodic_sound fifo
  | .streamResendTimeout fifo => execStreamResendTimeout_sound fifo
  | .canFrameReceive ctl frame err => execCanFrameReceive_sound ctl frame err
  | .transmitRequest path ctl buf => execTransmitRequest_sound path ctl buf
  | .transmitAbort path ctl buf => execTransmitAbort_sound path ctl buf
  | .canTransmitAttempt ctl => execCanTransmitAttempt_sound ctl
  | .canTransmitEnd ctl result loopDelayNs => execCanTransmitEnd_sound ctl result loopDelayNs
  | .busOffRecoveryDone ctl => execBusOffRecoveryDone_sound ctl
  | .busIntegrationDone ctl => execBusIntegrationDone_sound ctl
  | .canSettingsWrite path ctl sub value => execCanSettingsWrite_sound path ctl sub value
  | .busOffRestart path ctl => execBusOffRestart_sound path ctl
  | .clearBusOffRecord path ctl => execClearBusOffRecord_sound path ctl
  | .stuckDominant ctl => execStuckDominant_sound ctl
  | .bufferInfoRead path ctl buf => execBufferInfoRead_sound path ctl buf
  | .sdoDownloadInitiate ch index sub expedited data => execSdoDownloadInitiate_sound ch index sub expedited data
  | .sdoDownloadSegment ch toggle data last => execSdoDownloadSegment_sound ch toggle data last
  | .sdoUploadInitiate ch index sub => execSdoUploadInitiate_sound ch index sub
  | .sdoUploadSegment ch toggle => execSdoUploadSegment_sound ch toggle
  | .sdoBlockDownload ch index sub data crcOk => execSdoBlockDownload_sound ch index sub data crcOk
  | .sdoBlockUpload ch index sub blockSize => execSdoBlockUpload_sound ch index sub blockSize
  | .sdoAbortTransfer ch => execSdoAbortTransfer_sound ch
  | .sdoSegmentTimeout ch => execSdoSegmentTimeout_sound ch
  | .heartbeatSend => execHeartbeatSend_sound
  | .nodeIdWrite path value => execNodeIdWrite_sound path value
  | .processObjectRead path index sub => execProcessObjectRead_sound path index sub
  | .processObjectWrite path index sub value => execProcessObjectWrite_sound path index sub value
  | .sleepPropose wakeIn => execSleepPropose_sound wakeIn
  | .propose origin round present wakeIn => execPropose_sound origin round present wakeIn
  | .consent src origin round => execConsent_sound src origin round
  | .refuse src origin round reasons => execRefuse_sound src origin round reasons
  | .sleepRoundTimeout => execSleepRoundTimeout_sound
  | .sleepRetry wakeIn => execSleepRetry_sound wakeIn
  | .commitResend => execCommitResend_sound
  | .commit origin round tnNs => execCommit_sound origin round tnNs
  | .abort src origin round reasons => execAbort_sound src origin round reasons
  | .sleepAbort reasons => execSleepAbort_sound reasons
  | .drainTimeStart => execDrainTimeStart_sound
  | .abortMarginStart => execAbortMarginStart_sound
  | .pointOfNoReturn => execPointOfNoReturn_sound
  | .dormantReached => execDormantReached_sound
  | .wakeAccepted source => execWakeAccepted_sound source
  | .wakeProductivityTimeout source => execWakeProductivityTimeout_sound source
  | .wakeConfirmation path value => execWakeConfirmation_sound path value
  | .wakeUnmask path value => execWakeUnmask_sound path value
  | .pnFrameDecode ctl frame err => execPnFrameDecode_sound ctl frame err
  | .dormantWake kat imageOk channelsFailed enginesFailed busOk domeOk => execDormantWake_sound kat imageOk channelsFailed enginesFailed busOk domeOk
  | .powerGoodPoll rail status => execPowerGoodPoll_sound rail status
  | .powerGoodTimeout rail => execPowerGoodTimeout_sound rail
  | .t1sFrameReceive port bytes fcsOk sfdNs => execT1sFrameReceive_sound port bytes fcsOk sfdNs
  | .t1sTransmitAttempt port mediumFree => execT1sTransmitAttempt_sound port mediumFree
  | .t1sCollision port late => execT1sCollision_sound port late
  | .backoffExpiry port => execBackoffExpiry_sound port
  | .t1sTransmitDone port => execT1sTransmitDone_sound port
  | .beacon port => execBeacon_sound port
  | .beaconSend port => execBeaconSend_sound port
  | .toTimerExpiry port => execToTimerExpiry_sound port
  | .plcaBeaconTimeout port => execPlcaBeaconTimeout_sound port
  | .transmitDoorbell path port value => execTransmitDoorbell_sound path port value
  | .pollInterval port => execPollInterval_sound port
  | .bar2Write offset bytes poisoned requester => execBar2Write_sound offset bytes poisoned requester
  | .bar2Read offset length requester => execBar2Read_sound offset length requester
  | .atomicFetchadd bar2 offset addend => execAtomicFetchadd_sound bar2 offset addend
  | .atomicCas bar2 offset expected value => execAtomicCas_sound bar2 offset expected value
  | .hostWriteFailure address requester tag status => execHostWriteFailure_sound address requester tag status
  | .barrierRead path => execBarrierRead_sound path
  | .msixMessage vector => execMsixMessage_sound vector
  | .bridgeReset => execBridgeReset_sound
  | .hostLinkUp speed width => execHostLinkUp_sound speed width
  | .qspiWrite address bytes => execQspiWrite_sound address bytes
  | .qspiRead address length => execQspiRead_sound address length
  | .readResult tag => execReadResult_sound tag
  | .qspiFetchAdd address addend => execQspiFetchAdd_sound address addend
  | .qspiCas address expected value => execQspiCas_sound address expected value
  | .resultHoldExpiry tag => execResultHoldExpiry_sound tag
  | .sealFrame frame => execSealFrame_sound frame
  | .openFrame frame => execOpenFrame_sound frame
  | .epochGraceExpiry src slot => execEpochGraceExpiry_sound src slot
  | .rekeyIntervalExpiry => execRekeyIntervalExpiry_sound
  | .epochAdvance path => execEpochAdvance_sound path
  | .selfTests path results => execSelfTests_sound path results
  | .zeroise path => execZeroise_sound path
  | .ceilingWriteDone ok => execCeilingWriteDone_sound ok
  | .epochWriteRetry => execEpochWriteRetry_sound
  | .installCommand path value => execInstallCommand_sound path value
  | .sessionEnd path => execSessionEnd_sound path
  | .operatorRoleRequest path => execOperatorRoleRequest_sound path
  | .cryptoOfficerRoleRequest path => execCryptoOfficerRoleRequest_sound path
  | .responseWrite path response => execResponseWrite_sound path response
  | .challengeExpiry path => execChallengeExpiry_sound path
  | .roleLockoutExpiry path => execRoleLockoutExpiry_sound path
  | .sessionIdleTimeout path => execSessionIdleTimeout_sound path
  | .tamperEvent kind => execTamperEvent_sound kind
  | .conversionRound samples ain die => execConversionRound_sound samples ain die
  | .softStartStep ch atLimit => execSoftStartStep_sound ch atLimit
  | .onRequestChange ch on => execOnRequestChange_sound ch on
  | .fastComparatorTrip ch => execFastComparatorTrip_sound ch
  | .rampTimeout ch => execRampTimeout_sound ch
  | .overcurrentDelayExpiry ch => execOvercurrentDelayExpiry_sound ch
  | .gateSuspectTimeout ch => execGateSuspectTimeout_sound ch
  | .cooldownExpiry ch => execCooldownExpiry_sound ch
  | .retryWindowExpiry ch => execRetryWindowExpiry_sound ch
  | .presenceChange ch present => execPresenceChange_sound ch present
  | .currentLimitWrite path ch value => execCurrentLimitWrite_sound path ch value
  | .limitGraceExpiry ch => execLimitGraceExpiry_sound ch
  | .channelEnableWrite path ch value => execChannelEnableWrite_sound path ch value
  | .clearLockout path ch => execClearLockout_sound path ch
  | .clearSuspect path ch => execClearSuspect_sound path ch
  | .fetShortDetect ch => execFetShortDetect_sound ch
  | .groveVoteClear grove vote => execGroveVoteClear_sound grove vote
  | .offDelayExpiry grove => execOffDelayExpiry_sound grove
  | .voteReturn grove vote => execVoteReturn_sound grove vote
  | .groveSwitchOn grove listOk => execGroveSwitchOn_sound grove listOk
  | .avsUpdate ack currentMa => execAvsUpdate_sound ack currentMa
  | .avsRetry ack => execAvsRetry_sound ack
  | .avsReadback mv => execAvsReadback_sound mv
  | .pmbusRetry rail ok => execPmbusRetry_sound rail ok
  | .pmbAlert status => execPmbAlert_sound status
  | .faultRaise code island detailA detailB => execFaultRaise_sound code island detailA detailB
  | .faultCauseGone code => execFaultCauseGone_sound code
  | .acknowledge path code => execAcknowledge_sound path code
  | .acknowledgeAll path => execAcknowledgeAll_sound path
  | .captureRearm path value => execCaptureRearm_sound path value
  | .reactionWrite path code value => execReactionWrite_sound path code value
  | .inject path => execInject_sound path
  | .withdraw path => execWithdraw_sound path
  | .eventRaise number inst value => execEventRaise_sound number inst value
  | .ringEvent src channel number inst value sec ns => execRingEvent_sound src channel number inst value sec ns
  | .updateBegin path flashOk => execUpdateBegin_sound path flashOk
  | .updateFinish path => execUpdateFinish_sound path
  | .updateActivate path answers => execUpdateActivate_sound path answers
  | .updateAbandon path => execUpdateAbandon_sound path
  | .updateConfirm path => execUpdateConfirm_sound path
  | .updateRevert path => execUpdateRevert_sound path
  | .confirmDelayExpiry => execConfirmDelayExpiry_sound
  | .chunkWrite path bytes flashOk => execChunkWrite_sound path bytes flashOk
  | .updateVerifyDone result => execUpdateVerifyDone_sound result
  | .updateRequest src tag staged offset length => execUpdateRequest_sound src tag staged offset length
  | .updateData src tag status offset bytes => execUpdateData_sound src tag status offset bytes
  | .pullRequestTimeout tag => execPullRequestTimeout_sound tag
  | .pullBusyWait => execPullBusyWait_sound
  | .powerLoss aonHolds => execPowerLoss_sound aonHolds

end Sys2Proof.Machine

open Sys2Proof Sys2Proof.Machine

/-- Settles O57. -/
theorem hubIsSoundAtReset : Obligations.HubIsSoundAtReset := reset_sound

/-- Settles O58: the tick of an empty queue and every command keep a hub sound. -/
theorem everyStepKeepsTheHubSound : Obligations.EveryStepKeepsTheHubSound := by
  intro s t sound next
  unfold step at next
  split at next
  case h_1 =>
    rw [← Host.Outcome.next.inj next]
    dsimp only
    exact tick_sound s.hub sound
  case h_2 c rest _ => exact exec_keeps c { s with pending := rest } t sound next

end

section
/-! Canopy memory: what a write of a word stores, and what a physical access of this hub does (R33 to R35, R250, R266, R268, R273). -/

namespace Sys2Proof.Machine

/-! ### One word -/

/-- A write of a word stores the bytes its mask enables, and no other (R34, R35). -/
theorem memByte_memPut (m : List Host.Cell) (w : Nat) (v : Word) (mask a : Nat) :
    memByte (memPut m w v mask) a
      = if a / 8 = w ∧ a % 8 < 6 ∧ bit mask (a % 8) = true then wordByte v (a % 8) else memByte m a := by
  have upTo : ∀ n, n ≤ 6 → memByte ((List.range n).foldl (fun m k => if bit mask k then memSet m (8 * w + k) (wordByte v k) else m) m) a
      = if a / 8 = w ∧ a % 8 < n ∧ bit mask (a % 8) = true then wordByte v (a % 8) else memByte m a := by
    intro n
    induction n with
    | zero => simp
    | succ n ih =>
      intro l
      rw [List.range_succ, List.foldl_append, List.foldl_cons, List.foldl_nil]
      specialize ih (by omega)
      generalize List.foldl _ m (List.range n) = x at ih ⊢
      by_cases here : a = 8 * w + n
      · have q : a / 8 = w := by omega
        have r : a % 8 = n := by omega
        split
        · next on =>
          rw [here, memByte_memSet_self, if_neg (by omega), ← here, r, if_pos ⟨q, by omega, on⟩]
        · next off => rw [ih, r, if_neg (by simp), if_neg (by simp [off])]
      · have same : memByte (if bit mask n then memSet x (8 * w + n) (wordByte v n) else x) a = memByte x a := by
          split
          · exact memByte_memSet_ne _ _ _ _ here
          · rfl
        rw [same, ih]
        congr 1
        exact propext ⟨fun ⟨q, _, on⟩ => ⟨q, by omega, on⟩, fun ⟨q, _, on⟩ => ⟨q, by omega, on⟩⟩
  exact upTo 6 le_rfl

/-- With no injection armed a written word takes its bytes, and a whole one ends its poison (R34). -/
theorem writeWord_clear (w : Nat) (v : Word) (mask : Nat) {h : Hub} (i : h.watch.armed = []) :
    writeWord w v mask h = { h with canopy := { h.canopy with
      mem := memPut h.canopy.mem w v mask
      poison := if mask % 64 = 63 then h.canopy.poison.filter (· != w) else h.canopy.poison } } := by
  have none : takeInjection 4 h = (0, h) := by simp [takeInjection, takeInjectionAt, i]
  simp [writeWord, none]

/-! ### A run of words -/

theorem forEach_range_succ (n : Nat) (f : Nat → Hub → Hub) (h : Hub) :
    forEach (List.range (n + 1)) f h = f n (forEach (List.range n) f h) := by
  unfold forEach
  rw [List.range_succ, List.foldl_append, List.foldl_cons, List.foldl_nil]

/-- Words written one after another from word index `w` on, each with its mask. -/
def putWords (w n : Nat) (v : Nat → Word) (mask : Nat → Nat) (h : Hub) : Hub :=
  forEach (List.range n) (fun i g => writeWord (w + i) (v i) (mask i) g) h

section
variable {w : Nat} {v : Nat → Word} {mask : Nat → Nat} {h : Hub} (armed : h.watch.armed = [])
include armed

/-- Nothing but Canopy memory and its poison bits changes. -/
theorem putWords_eq (n : Nat) : putWords w n v mask h = { h with canopy := { h.canopy with
    mem := (putWords w n v mask h).canopy.mem, poison := (putWords w n v mask h).canopy.poison } } := by
  induction n with
  | zero => rfl
  | succ n ih =>
    have a : (putWords w n v mask h).watch.armed = [] := by rw [ih]; exact armed
    have next : putWords w (n + 1) v mask h = writeWord (w + n) (v n) (mask n) (putWords w n v mask h) := forEach_range_succ _ _ _
    rw [next, writeWord_clear _ _ _ a, ih]

theorem putWords_succ (n : Nat) : putWords w (n + 1) v mask h = { h with canopy := { h.canopy with
    mem := memPut (putWords w n v mask h).canopy.mem (w + n) (v n) (mask n)
    poison := if mask n % 64 = 63 then (putWords w n v mask h).canopy.poison.filter (· != w + n)
      else (putWords w n v mask h).canopy.poison } } := by
  have e := putWords_eq armed (w := w) (v := v) (mask := mask) n
  have a : (putWords w n v mask h).watch.armed = [] := by rw [e]; exact armed
  have next : putWords w (n + 1) v mask h = writeWord (w + n) (v n) (mask n) (putWords w n v mask h) := forEach_range_succ _ _ _
  rw [next, writeWord_clear _ _ _ a]
  conv_lhs => rw [e]

/-- A byte of the run reads as written where its mask names it; every other byte reads as before. -/
theorem memByte_putWords (n a : Nat) : memByte (putWords w n v mask h).canopy.mem a
    = if w ≤ a / 8 ∧ a / 8 < w + n ∧ a % 8 < 6 ∧ bit (mask (a / 8 - w)) (a % 8) = true then wordByte (v (a / 8 - w)) (a % 8)
      else memByte h.canopy.mem a := by
  induction n with
  | zero => rw [if_neg (by omega)]; rfl
  | succ n ih =>
    rw [putWords_succ armed, memByte_memPut, ih]
    by_cases here : a / 8 = w + n
    · have i : a / 8 - w = n := by omega
      rw [i, if_neg (c := w ≤ a / 8 ∧ _) (by omega)]
      congr 1
      exact propext ⟨fun ⟨_, byte⟩ => ⟨by omega, by omega, byte⟩, fun ⟨_, _, byte⟩ => ⟨here, byte⟩⟩
    · rw [if_neg (fun c => here c.1)]
      congr 1
      exact propext ⟨fun ⟨lo, _, byte⟩ => ⟨lo, by omega, byte⟩, fun ⟨lo, _, byte⟩ => ⟨lo, by omega, byte⟩⟩

/-- A word written whole is not poisoned. -/
theorem putWords_poison (n i : Nat) (l : i < n) (whole : mask i = 63) : w + i ∉ (putWords w n v mask h).canopy.poison := by
  induction n with
  | zero => omega
  | succ n ih =>
    rw [putWords_succ armed]
    by_cases e : i = n
    · subst e
      simp [whole]
    · have before := ih (by omega)
      dsimp only
      split
      · exact fun m => before (List.mem_filter.1 m).1
      · exact before

end

/-! ### A request alone at its port -/

/-- The hub with one request at a port. -/
def withRequest (r : CReq) (h : Hub) : Hub :=
  { h with canopy := { h.canopy with ports := tabSet h.canopy.ports r.port [.req r] } }

/-- The hub with nothing left at a port. -/
def portEmptied (port : Nat) (h : Hub) : Hub :=
  { h with canopy := { h.canopy with ports := tabSet h.canopy.ports port [] } }

theorem drainItems_free {r : CReq} {h : Hub} (port : Nat) (m : mustWait h [] r = false) :
    drainItems port [] [.req r] h = portEmptied port (sendReq r h) := by
  rw [drainItems, if_neg (by simp [m])]
  rfl

/-- Where nothing waits at a port, a request that need not wait leaves at once (R266). -/
theorem putItem_alone {r : CReq} {h : Hub} (p : portItems h r.port = []) (m : mustWait h [] r = false) :
    putItem r.port (.req r) h = whenDo (r.port == 2) (fun g => peak g 0x4A00_08 (outCount g 2 false))
      (portEmptied r.port (sendReq r (withRequest r h))) := by
  have there : portItems (withRequest r h) r.port = [.req r] := tabGet_tabSet_self _ _ _ _
  rw [← drainItems_free r.port (h := withRequest r h) m, ← there]
  unfold putItem drainPort
  rw [p]
  rfl

theorem performMemory_write {r : CReq} (op : r.op = .write) (own : Bool) (w : Nat) (h : Hub) :
    performMemory own w r h = (.code 0, putWords w r.count (fun i => r.data.getD i 0) (enables r) h) := by
  unfold performMemory
  rw [op]
  rfl

theorem performMemory_readOne {r : CReq} (op : r.op = .read) (one : r.count = 1) (w : Nat) (h : Hub) :
    performMemory true w r h = ({ status := 0, data := [readWord h w] }, h) := by
  unfold performMemory
  rw [op, one]
  rfl

/-- What such a request leaves is what sending it left, but for its port and the host bridge's peak of reads. -/
theorem putItem_alone_left {r : CReq} {h x : Hub} (p : portItems h r.port = []) (m : mustWait h [] r = false)
    (e : sendReq r (withRequest r h) = x) :
    (putItem r.port (.req r) h).answer = x.answer ∧ (putItem r.port (.req r) h).canopy.mem = x.canopy.mem
      ∧ (putItem r.port (.req r) h).canopy.poison = x.canopy.poison
      ∧ KeptBut [(0x4A00_08, 0x4A00_08)] x (putItem r.port (.req r) h)
      ∧ (r.port ≠ 2 → (putItem r.port (.req r) h).dict = x.dict) := by
  rw [putItem_alone p m, e]
  unfold whenDo
  split
  · next two => exact ⟨rfl, rfl, rfl, kept_wr _ _ _, fun n => absurd (eq_of_beq two) n⟩
  · exact ⟨rfl, rfl, rfl, (KeptBut.refl _ x).same rfl, fun _ => rfl⟩

/-- A physical address of this hub: hub 0, or its own number (R250). -/
def ownAddress (r : CReq) (h : Hub) : Prop := addrHub r.addr = 0 ∨ addrHub r.addr = hubNumber h ∧ hubNumber h ≠ 255

/-- The form of a physical request as it is performed. -/
def physicalForm (r : CReq) (h : Hub) : CReq := { r with src := hubNumber h, home := false, fill := false, gen := 0 }

/-- A physical request to this hub's own memory is performed at once. -/
theorem sendReq_physical {r : CReq} {h : Hub} (ok : badRequest r = none) (l : isLogical r.addr = false) (o : ownAddress r h)
    (fit : addrLocal r.addr + 8 * r.count ≤ 8 * memWords) :
    sendReq r h = finish (physicalForm r h) (performMemory true (addrLocal r.addr / 8) (physicalForm r h) h).1
      (performMemory true (addrLocal r.addr / 8) (physicalForm r h) h).2 := by
  have ok' : badRequest { r with src := hubNumber h } = none := ok
  have n255 : addrHub r.addr ≠ 255 := by rcases o with o | ⟨o, n⟩ <;> omega
  have own : addrHub r.addr = 0 ∨ addrHub r.addr = hubNumber h := o.imp_right And.left
  have perform : performPhysical true (physicalForm r h) h = performMemory true (addrLocal r.addr / 8) (physicalForm r h) h := by
    unfold performPhysical
    rw [if_neg (by simp), if_neg (by simpa [physicalForm] using fit)]
    rfl
  rw [← perform]
  unfold sendReq
  simp only [ok', l, Bool.not_false, if_true, if_neg n255, if_pos own]
  rfl

/-- The end of a physical request that succeeded: it is no longer outstanding, and its port is told. -/
theorem finish_physical {r : CReq} {d : Done} (l : isLogical r.addr = false) (ok : d.status = 0) (h : Hub) :
    finish r d h = portDone r d (dropOut r h) := by
  simp [finish, l, ok, whenDo]

theorem answerWrite_answer (r : Reply) (ok : Bool) (h : Hub) : (answerWrite r ok h).answer = h.answer := by
  cases r <;> cases ok <;> simp [answerWrite, whenDo, bump, bumpBy]

theorem answerWrite_canopy (r : Reply) (ok : Bool) (h : Hub) : (answerWrite r ok h).canopy = h.canopy := by
  cases r <;> cases ok <;> simp [answerWrite, whenDo]

/-- A process object's path that is told of success has its response counted on the ring (R94). -/
theorem kept_answerWrite (r : Reply) (h : Hub) : KeptBut [(0x4001_08, 0x4001_08)] h (answerWrite r true h) := by
  cases r with
  | ring dst w => exact ((KeptBut.refl _ h).same (by simp)).wr _ _ ⟨_, List.mem_cons_self, le_rfl, le_rfl⟩
  | none => exact KeptBut.refl _ h
  | sdo cob good bad => exact (KeptBut.refl _ h).same rfl

/-- A posted write that succeeded is answered "accepted" whatever its port. -/
theorem portDone_written {r : CReq} {d : Done} (op : r.op = .write) (ok : d.status = 0) (h : Hub) :
    (portDone r d h).answer = .accepted ∧ (portDone r d h).canopy = h.canopy
      ∧ KeptBut [(0x4001_08, 0x4001_08)] h (portDone r d h) := by
  unfold portDone
  rw [if_neg (by simp [op]), if_neg (by simp [ok])]
  split
  · simp only [shadowDone, ok, if_true, BEq.rfl]
    exact ⟨answerWrite_answer _ _ _, answerWrite_canopy _ _ _, ((KeptBut.refl _ h).same rfl).trans (kept_answerWrite _ _)⟩
  · rw [portAnswer, if_pos op]
    exact ⟨rfl, rfl, (KeptBut.refl _ h).same rfl⟩

/-- A read that succeeded on a port that only answers gives the word it read, marked where it is poisoned (R273). -/
theorem portDone_read {r : CReq} {w : Word × Bool} {h : Hub} (op : r.op = .read) (p2 : r.port ≠ 2)
    (p6 : r.port = 6 → h.canopen.writes = []) :
    portDone r { status := 0, data := [w] } h
      = answered (if w.2 then .poisoned (wordsBytes [w.1]) else .value w.1.toNat) h := by
  have noWrite : (if r.port = 6 then h.canopen.writes.find? (fun e => e.1 == r.tag) else none) = none := by
    split
    · next e => rw [p6 e]; rfl
    · rfl
  simp [portDone, p2, noWrite, portAnswer, op]

/-- A request that the tables admit stands on a slot. -/
theorem aligned_of_badRequest {r : CReq} (ok : badRequest r = none) (op : r.op = .write) : bits r.addr 2 0 = 0 := by
  simp only [badRequest, op] at ok
  by_contra n
  simp [n] at ok

/-- A local address on a slot is a whole number of slots. -/
theorem addrLocal_aligned {a : Nat} (s : bits a 2 0 = 0) : 8 * (addrLocal a / 8) = addrLocal a := by
  simp only [bits, addrLocal] at s ⊢
  omega

/-- A physical write of this hub stores its words and is answered. -/
theorem sendReq_write {r : CReq} {h : Hub} (op : r.op = .write) (ok : badRequest r = none) (l : isLogical r.addr = false)
    (o : ownAddress r h) (fit : addrLocal r.addr + 8 * r.count ≤ 8 * memWords) :
    sendReq r h = portDone (physicalForm r h) (.code 0) (dropOut (physicalForm r h)
      (putWords (addrLocal r.addr / 8) r.count (fun i => r.data.getD i 0) (enables r) h)) := by
  rw [sendReq_physical ok l o fit, performMemory_write (r := physicalForm r h) op,
    finish_physical (r := physicalForm r h) l rfl]
  rfl

/-- A physical read of one word by this hub is answered with it, where its port only answers. -/
theorem sendReq_readOne {r : CReq} {h : Hub} (op : r.op = .read) (one : r.count = 1) (s0 : bits r.addr 2 0 = 0)
    (l : isLogical r.addr = false) (o : ownAddress r h) (fit : addrLocal r.addr + 8 ≤ 8 * memWords) (p2 : r.port ≠ 2)
    (p6 : r.port = 6 → h.canopen.writes = []) :
    sendReq r h = answered (if (readWord h (addrLocal r.addr / 8)).2 then .poisoned (wordsBytes [(readWord h (addrLocal r.addr / 8)).1])
      else .value (readWord h (addrLocal r.addr / 8)).1.toNat) (dropOut (physicalForm r h) h) := by
  have ok : badRequest r = none := by simp [badRequest, op, one, s0]
  rw [sendReq_physical ok l o (by omega), performMemory_readOne (r := physicalForm r h) op one,
    finish_physical (r := physicalForm r h) l rfl]
  exact portDone_read (r := physicalForm r h) (h := dropOut (physicalForm r h) h) op p2 p6

end Sys2Proof.Machine

open Sys2Proof Sys2Proof.Machine

/-- Settles O21: alone at its port the request is performed at once; the write is `putWords`, the read leaves memory as it is. -/
theorem canopyMemoryStoresTheEnabledBytes : Obligations.CanopyMemoryStoresTheEnabledBytes := by
  unfold Obligations.CanopyMemoryStoresTheEnabledBytes
  refine ⟨fun r s op ok l o fit p m armed => ?_, fun r s op one s0 l o fit p m p2 p6 => ?_⟩
  case refine_1 =>
    have sent := sendReq_write (h := withRequest r s.hub) op ok l o fit
    obtain ⟨answer, mem, poison, kept, -⟩ := putItem_alone_left p m sent
    obtain ⟨accepted, canopy, kept'⟩ := portDone_written (r := physicalForm r (withRequest r s.hub)) (d := .code 0) op rfl
      (dropOut (physicalForm r (withRequest r s.hub))
        (putWords (addrLocal r.addr / 8) r.count (fun i => r.data.getD i 0) (enables r) (withRequest r s.hub)))
    rw [canopy] at mem poison
    have byte := memByte_putWords (h := withRequest r s.hub) armed (w := addrLocal r.addr / 8)
      (v := fun i => r.data.getD i 0) (mask := enables r) r.count
    have at0 := addrLocal_aligned (aligned_of_badRequest ok op)
    refine ⟨_, rfl, answer.trans accepted, fun i k li lk => ?_, fun a out => ?_, fun i li whole => ?_, ?_⟩
    · have q : (addrLocal r.addr + 8 * i + k) / 8 = addrLocal r.addr / 8 + i := by omega
      have b : (addrLocal r.addr + 8 * i + k) % 8 = k := by omega
      refine (congrArg (memByte · _) mem).trans ((byte _).trans ?_)
      rw [q, b, Nat.add_sub_cancel_left]
      congr 1
      exact propext ⟨fun ⟨_, _, _, on⟩ => on, fun on => ⟨by omega, by omega, lk, on⟩⟩
    · refine (congrArg (memByte · _) mem).trans ((byte _).trans ?_)
      rw [if_neg (by omega)]
      rfl
    · exact fun inside => putWords_poison (h := withRequest r s.hub) armed r.count i li whole (poison ▸ inside)
    · have same : (dropOut (physicalForm r (withRequest r s.hub)) (putWords (addrLocal r.addr / 8) r.count (fun i => r.data.getD i 0)
          (enables r) (withRequest r s.hub))).dict = s.hub.dict := by
        rw [putWords_eq (h := withRequest r s.hub) armed]
        rfl
      exact (((KeptBut.refl _ s.hub).same same).trans (kept'.mono fun _ i => List.mem_cons.2 (.inl (List.mem_singleton.1 i)))).trans
        (kept.mono fun _ i => List.mem_cons_of_mem _ i)
  case refine_2 =>
    obtain ⟨answer, mem, poison, -, dict⟩ := putItem_alone_left p m
      (sendReq_readOne (h := withRequest r s.hub) op one s0 l o fit p2 p6)
    exact ⟨_, rfl, answer, mem, poison, dict p2⟩

end

section
/-! Pin-driver diagnosis: the diagnosed pin's bit does not outlast a move record that names an engine outside the 64 (R398, R410). -/

namespace Sys2Proof.Machine

/-! ### A hub whose list of moves names no engine of its Groves -/

/-- A number beyond the 64 engines: its instance entry 0x3000 + n would be 0x4601, the record of diagnosed pins. -/
def strayEngine : Nat := 0x1601

/-- Engine 2 drives FIO 9 as its pin 0, with FIO 20 as a spare. -/
def drivingEngine : Engine := { engineInit with pins := [9], en := 1, spares := [20] }

/-- The PROGRAM on engine 2, homed at hub 0: one pin, whose spare is FIO 20. -/
def sparePinProgram : Residence :=
  { handle := 77, kind := 4, base := 2, length := 0, gen := 0, state := 0, defn := { noDef with pins := [0, 2 ^ 16, 20, 2 ^ 16] }, place := 0 }

/-- Its handover for load, from engine 2 to the engine that does not exist. -/
def strayMove : Move :=
  { slot := 0, handle := 77, trigger := 2, tag := 7, target := 5, engine := strayEngine, source := 5, sourceE := 2, started := 0,
    switch := 0, phase := 7, result := 0, acks := [] }

/-- Hub 5 in RUN with that engine, program and move. -/
def strayHub : Hub :=
  { wrs Hub.reset [(0x2000_01, 3), (0x2000_09, 5), (engKey 2 0x12, 77)] with
    engines := [(2, drivingEngine)]
    canopy := { Hub.reset.canopy with residences := [sparePinProgram] }
    forester := { Hub.reset.forester with moves := [strayMove] } }

/-- The diagnosis of FIO 9 records the pin. -/
theorem strayHub_diagnosed : pinDriverDiagnosis 9 strayHub ≠ strayHub := fun same =>
  absurd (congrArg (rd · 0x4601_01) same) (by decide +kernel)

/-- Forester's trigger 0x04 then aborts the handover and frees its target "engine", whose state register is the record: FREE, code 1, is
left there. -/
theorem strayHub_pinRecord : rd (pinRebind 9 (pinDriverDiagnosis 9 strayHub)) 0x4601_01 = 1 := by decide +kernel

theorem strayHub_checked : bit (rd strayHub (slotKey (0x2604 + 9 / 64) (9 % 64 + 1))) 4 = false := by decide +kernel

theorem strayHub_driven : pinsGated strayHub 2 = false := by decide +kernel

/-- A diagnosis that records something is followed by Forester's trigger 0x04. -/
theorem exec_pinDriverDiagnosis {fio : Nat} {s : State} (n : pinDriverDiagnosis fio s.hub ≠ s.hub) :
    exec (.pinDriverDiagnosis fio) s = .next { s with hub := pinRebind fio (pinDriverDiagnosis fio s.hub) } :=
  onHub_eq_next (f := fun h => if pinDriverDiagnosis fio h = h then h else pinRebind fio (pinDriverDiagnosis fio h)) (if_neg n)

end Sys2Proof.Machine

open Sys2Proof Sys2Proof.Machine

/-- Refutes O35: in the clause on PIN_DRIVER_DIAGNOSIS the hub is any hub, so its list of moves may name an engine beyond the 64. In
`strayHub` the abort of such a move overwrites the pin's bit at 0x4601:01. With engines below 64 alone in the list no such hub arises. -/
theorem not_engineQueuesAndChecks : ¬ Obligations.EngineQueuesAndChecks := by
  unfold Obligations.EngineQueuesAndChecks
  rintro ⟨-, -, -, diagnosed, -⟩
  have recorded : ∀ (h : Hub), bit (rd h (slotKey (0x2604 + 9 / 64) (9 % 64 + 1))) 4 = false → (2, drivingEngine) ∈ h.engines →
      pinsGated h 2 = false → pinDriverDiagnosis 9 h ≠ h →
      bit (rd (pinRebind 9 (pinDriverDiagnosis 9 h)) (0x4601_01 + 9 / 48)) (9 % 48) = true := by
    intro h checked bound driven changed
    obtain ⟨t, ran, kept, -⟩ := diagnosed 9 (2, drivingEngine) 0 { pending := [], hub := h } (by decide) checked bound driven rfl (by decide)
    have left : t.hub = pinRebind 9 (pinDriverDiagnosis 9 h) :=
      congrArg State.hub (Host.Outcome.next.inj (ran.symm.trans (exec_pinDriverDiagnosis changed)))
    rw [← left]
    exact kept
  have lost := recorded strayHub strayHub_checked (List.mem_singleton.2 rfl) strayHub_driven strayHub_diagnosed
  rw [show 0x4601_01 + 9 / 48 = 0x4601_01 from rfl, strayHub_pinRecord] at lost
  exact absurd lost (by decide)

end

section
/-! SUPPORT. Power domains and regulators (R663 to R690): what switching a Grove and reading its regulators write and leave. -/

namespace Sys2Proof.Machine

/-! ### Registers outside a list of ranges -/

theorem KeptBut.rd_eq {r : List (Nat × Nat)} {a b : Hub} (x : KeptBut r a b) (k : Nat) (n : ∀ e ∈ r, k < e.1 ∨ e.2 < k) :
    rd b k = rd a k := by unfold rd; rw [x k n]

theorem KeptBut.bump {r : List (Nat × Nat)} {a b : Hub} (x : KeptBut r a b) (k : Nat) (m : ∃ e ∈ r, e.1 ≤ k ∧ k ≤ e.2) :
    KeptBut r a (bump b k) := x.wr k _ m

theorem KeptBut.after_raiseFault {r : List (Nat × Nat)} {a b : Hub} (x : KeptBut r a b) (c i d e : Nat) (m : ∀ q ∈ faultRanges, q ∈ r) :
    KeptBut r a (raiseFault c i d e b) := x.trans ((kept_raiseFault c i d e b).mono m)

theorem KeptBut.after_raiseEvent {r : List (Nat × Nat)} {a b : Hub} (x : KeptBut r a b) (e i v : Nat) (he : e < 256)
    (m : ∀ q ∈ eventRanges, q ∈ r) : KeptBut r a (raiseEvent b e i v) := x.trans ((kept_raiseEvent b e i v he).mono m)

theorem KeptBut.after_syncPads {r : List (Nat × Nat)} {a b : Hub} (x : KeptBut r a b) : KeptBut r a (syncPads b) :=
  fun k n => (rdW_syncPads b k).trans (x k n)

theorem rd_bump_self (h : Hub) (k : Nat) : rd (bump h k) k = min (rd h k + 1) (2 ^ 32 - 1) := by
  unfold bump bumpBy
  rw [rd_wr_self]
  omega

theorem rd_bump_ne (h : Hub) {k j : Nat} (n : j ≠ k) : rd (bump h k) j = rd h j := by
  unfold bump bumpBy
  rw [rd_wr_ne _ _ _ _ n]

/-! ### The state of a domain -/

/-- Registers of a domain's state. -/
def domainRanges (d : Nat) : List (Nat × Nat) := [(0x4D11_01 + d, 0x4D11_01 + d), (0x4D10_01, 0x4D10_01)]

theorem kept_setDomain (d st : Nat) (h : Hub) : KeptBut (domainRanges d) h (setDomain d st h) := by
  unfold setDomain wrs wrs wrs
  refine ((KeptBut.refl _ h).wr _ _ ⟨(0x4D11_01 + d, 0x4D11_01 + d), ?_, ?_⟩).wr _ _ ⟨(0x4D10_01, 0x4D10_01), ?_, ?_⟩ <;> simp [domainRanges]

theorem noDict_setDomain (d st : Nat) (h : Hub) : noDict (setDomain d st h) = noDict h := noDict_wrs h _

theorem domainState_setDomain (d : Nat) {st : Nat} (h : Hub) (hs : st < 8) : domainState (setDomain d st h) d = st := by
  unfold domainState setDomain wrs wrs wrs
  rw [rd_wr_ne _ _ _ _ (by omega), rd_wr_self]
  omega

theorem bit_setDomain (d st : Nat) (h : Hub) (hd : d < 48) : bit (rd (setDomain d st h) 0x4D10_01) d = (st == 3) := by
  unfold setDomain wrs wrs wrs
  rw [rd_wr_self, bit_mod _ _ _ hd, bit_setBit_self]

/-- A register that is not the domain's own. -/
theorem rd_setDomain_of (d st : Nat) (h : Hub) (k : Nat) (n : k ≠ 0x4D11_01 + d) (m : k ≠ 0x4D10_01) :
    rd (setDomain d st h) k = rd h k := by
  apply (kept_setDomain d st h).rd_eq
  simp only [domainRanges, List.mem_cons, List.not_mem_nil, or_false, forall_eq_or_imp, forall_eq]
  omega

/-! ### Votes -/

theorem engState_eq_of_kept {r : List (Nat × Nat)} {a b : Hub} (x : KeptBut r a b) (n : Nat)
    (o : ∀ e ∈ r, engKey n 1 < e.1 ∨ e.2 < engKey n 1) : engState b n = engState a n := x.rd_eq _ o

/-- While a domain is not OFF its votes are those of the mode, of the software bit, of its engines and of Forester. -/
theorem votes_congr {a b : Hub} {g : Nat} (m : mode b = mode a) (v : rd b (0x2D10_01 + g) = rd a (0x2D10_01 + g))
    (d : domainState b g = 0 ↔ domainState a g = 0) (e : ∀ k < 8, engState b (8 * g + k) = engState a (8 * g + k))
    (p : b.power.targets = a.power.targets) : votes b g = votes a g := by
  have w : engineVotes b g = engineVotes a g := by
    unfold engineVotes
    refine if_congr d rfl (congrArg List.sum (List.map_congr_left fun k hk => ?_))
    simp only [e k (List.mem_range.1 hk)]
  unfold votes rdB
  rw [m, v, w, p]

theorem engKey_bounds {g k j : Nat} (hg : g < 8) (hk : k < 8) (hj : j < 256) :
    engKey 0 0 ≤ engKey (8 * g + k) j ∧ engKey (8 * g + k) j ≤ engKey 63 255 := by
  unfold engKey slotKey; omega

theorem votes_setDomain {g st : Nat} (h : Hub) (hg : g < 8) (n : domainState h g ≠ 0) (hs : st < 8) (nz : st ≠ 0) :
    votes (setDomain g st h) g = votes h g := by
  have o : ∀ k, k < 0x4D10_01 → rd (setDomain g st h) k = rd h k := fun k hk => rd_setDomain_of g st h k (by omega) (by omega)
  refine votes_congr (o _ (by decide)) (o _ (by omega)) ?_ (fun k hk => o _ ?_) (by unfold setDomain; rw [wrs_power])
  · rw [domainState_setDomain _ _ hs]
    exact ⟨fun x => absurd x nz, fun x => absurd x n⟩
  · have := (engKey_bounds (j := 1) hg hk (by decide)).2
    unfold engKey slotKey at *
    omega

/-- Forester's vote is bit [16] of a Grove's votes. -/
theorem votes_software {h : Hub} {g : Nat} (v : rd h (0x2D10_01 + g) = 1) : votes h g ≠ 0 := by
  unfold votes rdB
  simp [v, b2n]

/-! ### A vote that clears (R669) -/

/-- The vote named clears, before what follows of it. -/
def voteCleared (g vote : Nat) (h : Hub) : Hub :=
  if vote = 1 then wr h (0x2D10_01 + g) 0
  else if vote = 16 then { h with power := { h.power with targets := h.power.targets.filter (· != g) } }
  else h

theorem groveVoteClear_eq (g vote : Nat) (h : Hub) : groveVoteClear g vote h =
    if votes (voteCleared g vote h) g = 0 ∧ domainState (voteCleared g vote h) g = 3 then setDomain g 4 (voteCleared g vote h)
    else voteCleared g vote h := rfl

theorem kept_voteCleared (g vote : Nat) (h : Hub) : KeptBut [(0x2D10_01 + g, 0x2D10_01 + g)] h (voteCleared g vote h) := by
  unfold voteCleared
  split
  · exact kept_wr _ _ _
  · split
    · exact (KeptBut.refl _ h).same rfl
    · exact KeptBut.refl _ h

theorem domainState_voteCleared (g vote d : Nat) (h : Hub) (hg : g < 8) : domainState (voteCleared g vote h) d = domainState h d :=
  (kept_voteCleared g vote h).rd_eq _ (by simp only [List.mem_singleton, forall_eq]; omega)

theorem voteCleared_power_dict (g vote : Nat) (h : Hub) : { voteCleared g vote h with dict := h.dict, power := h.power } = h := by
  unfold voteCleared; split
  · rfl
  · split <;> rfl

theorem targets_voteCleared (g vote m : Nat) (h : Hub) (n : m ≠ g) :
    (voteCleared g vote h).power.targets.contains m = h.power.targets.contains m := by
  unfold voteCleared
  split
  · rfl
  · split
    · rw [Bool.eq_iff_iff]
      simp [n]
    · rfl

theorem voteCleared_target (g : Nat) (h : Hub) : g ∉ (voteCleared g 16 h).power.targets := by
  simp [voteCleared]

theorem groveVoteClear_clause (g : Fin 8) (vote : Nat) (s : State) : ∃ t, exec (.groveVoteClear g vote) s = .next t
      ∧ (vote = 1 → rd t.hub (0x2D10_01 + g) = 0) ∧ (vote = 16 → g.val ∉ t.hub.power.targets)
      ∧ domainState t.hub g = (if domainState s.hub g = 3 ∧ votes t.hub g = 0 then 4 else domainState s.hub g)
      ∧ (∀ m, m ≠ g.val → t.hub.power.targets.contains m = s.hub.power.targets.contains m)
      ∧ { t.hub with dict := s.hub.dict, power := s.hub.power } = s.hub
      ∧ KeptBut [(0x2D10_01 + g, 0x2D10_01 + g), (0x4D11_01 + g, 0x4D11_01 + g), (0x4D10_01, 0x4D10_01)] s.hub t.hub := by
  obtain ⟨g, hg⟩ := g
  refine ⟨_, rfl, ?_⟩
  dsimp only
  rw [groveVoteClear_eq]
  have bitClear : vote = 1 → rd (voteCleared g vote s.hub) (0x2D10_01 + g) = 0 := by
    rintro rfl; exact rd_wr_self _ _ _
  have notTarget : vote = 16 → g ∉ (voteCleared g vote s.hub).power.targets := by
    rintro rfl; exact voteCleared_target g _
  have state := domainState_voteCleared g vote g s.hub hg
  have others := fun m (n : m ≠ g) => targets_voteCleared g vote m s.hub n
  have rest := voteCleared_power_dict g vote s.hub
  have kept : KeptBut [(0x2D10_01 + g, 0x2D10_01 + g), (0x4D11_01 + g, 0x4D11_01 + g), (0x4D10_01, 0x4D10_01)] s.hub (voteCleared g vote s.hub) :=
    (kept_voteCleared g vote s.hub).mono (by simp)
  generalize voteCleared g vote s.hub = a at *
  split
  · next c =>
    obtain ⟨none, on⟩ := c
    have n := noDict_setDomain g 4 a
    have p : (setDomain g 4 a).power = a.power := wrs_power _ _
    refine ⟨fun e => ?_, fun e => ?_, ?_, ?_, ?_, ?_⟩
    · rw [rd_setDomain_of _ _ _ _ (by omega) (by omega)]; exact bitClear e
    · rw [p]; exact notTarget e
    · rw [domainState_setDomain _ _ (by decide), votes_setDomain _ hg (by omega) (by decide) (by decide), if_pos ⟨state ▸ on, none⟩]
    · rw [p]; exact others
    · exact (congrArg (fun x : Hub => { x with dict := s.hub.dict, power := s.hub.power }) n).trans rest
    · exact kept.trans ((kept_setDomain g 4 a).mono (by simp [domainRanges]))
  · next c =>
    refine ⟨bitClear, notTarget, ?_, others, rest, kept⟩
    rw [state, if_neg]
    rw [state] at c
    tauto

theorem forEach_fixed {α : Type} {l : List α} {f : α → Hub → Hub} {h : Hub} (e : ∀ a ∈ l, f a h = h) : forEach l f h = h := by
  unfold forEach
  induction l with
  | nil => rfl
  | cons a l ih =>
    rw [List.foldl_cons, e a (by simp)]
    exact ih fun b m => e b (List.mem_cons_of_mem _ m)

theorem kept_forEach {α : Type} {r : List (Nat × Nat)} {l : List α} {f : α → Hub → Hub} (e : ∀ a ∈ l, ∀ h, KeptBut r h (f a h)) (h : Hub) :
    KeptBut r h (forEach l f h) := by
  unfold forEach
  induction l generalizing h with
  | nil => exact KeptBut.refl _ h
  | cons a l ih => exact (e a (by simp) h).trans (ih (fun b m => e b (List.mem_cons_of_mem _ m)) (f a h))

/-! ### The switch-off of a Grove (R669, R673) -/

theorem engineVotes_of_votes {h : Hub} {g : Nat} (v : votes h g = 0) : engineVotes h g = 0 := by
  unfold votes at v
  omega

/-- In a Grove that is not OFF and has no vote, no engine is HALTED, RUNNING, STALLED or FAULTED. -/
theorem engine_idle_of_votes {h : Hub} {g k : Nat} (v : votes h g = 0) (d : domainState h g ≠ 0) (hk : k < 8) :
    ¬ (2 ≤ engState h (8 * g + k) ∧ engState h (8 * g + k) ≤ 5) := by
  have e := engineVotes_of_votes v
  unfold engineVotes at e
  rw [if_neg d, List.sum_eq_zero_iff] at e
  intro c
  have := e _ (List.mem_map.2 ⟨k, List.mem_range.2 hk, rfl⟩)
  simp [c, b2n] at this

theorem groveQuiesce_idle {h : Hub} {g : Nat} (v : votes h g = 0) (d : domainState h g ≠ 0) : groveQuiesce g h = h :=
  forEach_fixed fun k m => if_neg (by
    have := engine_idle_of_votes v d (List.mem_range.1 m)
    omega)

/-- A Grove without votes has nothing to halt: its crossings are drained, its list saved, its domain switched off. -/
theorem groveOff_idle {h : Hub} {g : Nat} (v : votes h g = 0) (d : domainState h g ≠ 0) :
    groveOff g h = syncPads (bump (setDomain g 0 (saveWords g (groveSaved h g) (drainCrossings g h))) 0x4D10_02) := by
  unfold groveOff
  simp only [groveQuiesce_idle v d]

/-- What a domain's saved list holds. -/
def savedList (d : Nat) (ws : List Word) : SaveList :=
  { words := (padWords (saveLength d) ws).map fun w => { word := w, check := Config.checkBits w },
    crc := crc32 (wordsBytes (padWords (saveLength d) ws)) }

theorem tabFind_saveWords (d : Nat) (ws : List Word) (h : Hub) :
    tabFind (saveWords d ws h).power.save d = some (savedList d ws) := tabFind_tabSet_self _ _ _

theorem savedList_words (d : Nat) (ws : List Word) : (savedList d ws).words.map (·.word) = padWords (saveLength d) ws :=
  (List.map_map ..).trans (List.map_id _)

/-- A list reads back good from where it has been saved. -/
theorem saveGood_of_saved {h : Hub} {d : Nat} {ws : List Word} (e : tabFind h.power.save d = some (savedList d ws)) : saveGood h d = true := by
  unfold saveGood
  rw [e]
  dsimp only
  rw [savedList_words]
  simp [savedList]

/-- A drained crossing that is not broken holds nothing. -/
theorem drained_empty {x : Crossing} (b : (drained x).broken = false) : (drained x).entries = [] ∧ (drained x).waiting = [] := by
  unfold drained at *
  split at b
  · next c => exact absurd b (by simp [c])
  · next c => simp [c]

theorem mem_drainCrossings {d : Nat} {h : Hub} {e : Nat × Crossing} (m : e ∈ (drainCrossings d h).crossings)
    (i : islandDomain (e.1 / 256) = some d ∨ islandDomain (e.1 % 256) = some d) (b : e.2.broken = false) :
    e.2.entries = [] ∧ e.2.waiting = [] := by
  obtain ⟨x, -, rfl⟩ := List.mem_map.1 m
  rw [if_pos i] at b ⊢
  exact drained_empty b

theorem offDelayExpiry_clause (g : Fin 8) (s : State) :
    (domainState s.hub g = 4 → votes s.hub g = 0 → ∃ t, exec (.offDelayExpiry g) s = .next t ∧ domainState t.hub g = 0
      ∧ bit (rd t.hub 0x4D10_01) g = false ∧ rd t.hub 0x4D10_02 = min (rd s.hub 0x4D10_02 + 1) (2 ^ 32 - 1)
      ∧ { t.hub.power with save := s.hub.power.save } = s.hub.power ∧ t.hub.engines = s.hub.engines ∧ saveGood t.hub g = true
      ∧ (∃ l, tabFind t.hub.power.save g = some l ∧ l.words.map (·.word) = padWords 544 (groveSaved s.hub g))
      ∧ (∀ e ∈ t.hub.crossings, islandDomain (e.1 / 256) = some g.val ∨ islandDomain (e.1 % 256) = some g.val → e.2.broken = false →
          e.2.entries = [] ∧ e.2.waiting = [])
      ∧ KeptBut [(0x4D11_01 + g, 0x4D11_01 + g), (0x4D10_01, 0x4D10_02)] s.hub t.hub)
    ∧ (domainState s.hub g ≠ 4 ∨ votes s.hub g ≠ 0 → exec (.offDelayExpiry g) s = .next s) := by
  obtain ⟨g, hg⟩ := g
  refine ⟨fun d v => ?_, fun c => ?_⟩
  · refine ⟨_, onHub_eq_next ((if_pos ⟨d, v⟩).trans (groveOff_idle v (by rw [d]; decide))), ?_⟩
    dsimp only at d v ⊢
    have length : saveLength g = 544 := if_pos hg
    have power : (setDomain g 0 (saveWords g (groveSaved s.hub g) (drainCrossings g s.hub))).power =
        (saveWords g (groveSaved s.hub g) (drainCrossings g s.hub)).power := wrs_power _ _
    have saved := tabFind_saveWords g (groveSaved s.hub g) (drainCrossings g s.hub)
    rw [← power] at saved
    refine ⟨?_, ?_, ?_, ?_, ?_, ?_, ?_, ?_, ?_⟩
    · unfold domainState
      rw [rd_syncPads, rd_bump_ne _ (by omega)]
      exact domainState_setDomain g _ (by decide)
    · rw [rd_syncPads, rd_bump_ne _ (by decide), bit_setDomain _ _ _ (by omega)]
      rfl
    · rw [rd_syncPads, rd_bump_self, rd_setDomain_of _ _ _ _ (by omega) (by decide)]
      rfl
    · rw [syncPads_power, bump_power, power]
      rfl
    · rw [syncPads_engines, bump_engines]
      exact wrs_engines _ _
    · exact saveGood_of_saved (by rw [syncPads_power, bump_power]; exact saved)
    · refine ⟨_, (by rw [syncPads_power, bump_power]; exact saved), ?_⟩
      rw [savedList_words, length]
    · rw [syncPads_crossings, bump_crossings]
      intro e m
      exact mem_drainCrossings ((wrs_crossings _ _ : (setDomain g 0 _).crossings = _) ▸ m)
    · refine KeptBut.after_syncPads (KeptBut.bump ?_ _ ⟨(0x4D10_01, 0x4D10_02), by simp, by decide, by decide⟩)
      have k := kept_setDomain g 0 (saveWords g (groveSaved s.hub g) (drainCrossings g s.hub))
      intro j n
      simp only [List.mem_cons, List.not_mem_nil, or_false, forall_eq_or_imp, forall_eq] at n
      rw [k j (by simp only [domainRanges, List.mem_cons, List.not_mem_nil, or_false, forall_eq_or_imp, forall_eq]; omega)]
      rfl
  · exact onHub_eq_next (if_neg (by tauto))

/-! ### The engines of a Grove that resume or are loaded anew (R670, R671, R674) -/

/-- The instance entries of all engines. -/
def engineRanges : List (Nat × Nat) := [(engKey 0 0, engKey 63 255)]

theorem engKey_ranges {n j : Nat} (hn : n < 64) (hj : j < 256) : ∃ e ∈ engineRanges, e.1 ≤ engKey n j ∧ engKey n j ≤ e.2 := by
  refine ⟨_, List.mem_singleton.2 rfl, ?_⟩
  unfold engKey slotKey; omega

theorem lt_of_grove {g n : Nat} (hg : g < 8) (e : grove n = g) : n < 64 := by unfold grove at e; omega

theorem kept_engineResume {n : Nat} (hn : n < 64) (h : Hub) : KeptBut engineRanges h (engineResume n h) :=
  ((KeptBut.refl _ h).same rfl).wr _ _ (engKey_ranges hn (by decide))

theorem engState_engineResume (n m : Nat) (h : Hub) : engState (engineResume n h) m = if m = n then 3 else engState h m := by
  unfold engineResume engState
  rw [rd_wr]
  by_cases c : m = n
  · simp [c]
  · rw [if_neg c, if_neg (by unfold engKey slotKey; omega)]
    rfl

/-- A halted engine resumes; another is left as it was. -/
def resumeHalted (n : Nat) (h : Hub) : Hub := if engState h n = 2 then engineResume n h else h

/-- The engines of Grove g that its switch-off halted. -/
def resumedOf (g : Nat) (h : Hub) : List Nat := h.power.resumed.filter fun n => grove n == g

theorem groveResume_eq (g : Nat) (h : Hub) : groveResume g h =
    { forEach (resumedOf g h) resumeHalted h with
      power := { (forEach (resumedOf g h) resumeHalted h).power with
        resumed := (forEach (resumedOf g h) resumeHalted h).power.resumed.filter fun n => grove n != g } } := rfl

theorem kept_groveResume {g : Nat} (hg : g < 8) (h : Hub) : KeptBut engineRanges h (groveResume g h) := by
  refine KeptBut.same (kept_forEach (l := resumedOf g h) (f := resumeHalted) (fun n m b => ?_) h) rfl
  have mine : grove n = g := by simpa using (List.mem_filter.1 m).2
  unfold resumeHalted
  split
  · exact kept_engineResume (lt_of_grove hg mine) b
  · exact KeptBut.refl _ b

theorem power_resumeHalted (n : Nat) (h : Hub) : (resumeHalted n h).power = h.power := by unfold resumeHalted; split <;> rfl

theorem resumed_groveResume (g : Nat) (h : Hub) : ∀ n ∈ (groveResume g h).power.resumed, grove n ≠ g := by
  intro n m
  rw [groveResume_eq] at m
  simpa using (List.mem_filter.1 m).2

theorem engState_resumeHalted_running (n m : Nat) (h : Hub) (c : engState h m = 3) : engState (resumeHalted n h) m = 3 := by
  unfold resumeHalted
  split
  · rw [engState_engineResume, c, ite_self]
  · exact c

theorem engState_resumeAll_running (l : List Nat) (m : Nat) (h : Hub) (c : engState h m = 3) : engState (forEach l resumeHalted h) m = 3 := by
  unfold forEach
  induction l generalizing h with
  | nil => exact c
  | cons n l ih => exact ih _ (engState_resumeHalted_running n m h c)

/-- A halted engine of the list runs afterwards. -/
theorem engState_resumeAll_halted (l : List Nat) (m : Nat) (h : Hub) (i : m ∈ l) (c : engState h m = 2) :
    engState (forEach l resumeHalted h) m = 3 := by
  induction l generalizing h with
  | nil => simp at i
  | cons n l ih =>
    change engState (forEach l resumeHalted (resumeHalted n h)) m = 3
    by_cases e : m = n
    · subst e
      refine engState_resumeAll_running l m _ ?_
      unfold resumeHalted
      rw [if_pos c, engState_engineResume, if_pos rfl]
    · refine ih _ (by simpa [e] using i) ?_
      unfold resumeHalted
      split
      · rw [engState_engineResume, if_neg e, c]
      · exact c

theorem engState_groveResume {g n : Nat} (h : Hub) (i : n ∈ h.power.resumed) (e : grove n = g) (c : engState h n = 2) :
    engState (groveResume g h) n = 3 :=
  engState_resumeAll_halted _ n h (List.mem_filter.2 ⟨i, by simp [e]⟩) c

/-! ### A load leaves the records and every register but its engine's own -/

theorem records_takeInjectionAt (m k : Nat) (h : Hub) : (takeInjectionAt m k h).2.watch.records = h.watch.records := by
  unfold takeInjectionAt; split <;> rfl

theorem dict_takeInjectionAt (m k : Nat) (h : Hub) : (takeInjectionAt m k h).2.dict = h.dict := by
  unfold takeInjectionAt; split <;> rfl

/-- A load is refused, its cause recorded, or gives the engine its new state. -/
theorem engineLoad_cases (n i st : Nat) (c : Option Byte) (h : Hub) :
    engineLoad n i st c h = wrs h [(engKey n 0x10, 5), (engKey n 0x15, loadCheck h n i)] ∨
    ∃ e, engineLoad n i st c h = syncPins n (wrs (setEngine (takeProgramInjection n h).2 n e)
      [(engKey n 1, st), (engKey n 0x10, 0), (engKey n 0x13, i), (engKey n 0x15, 0)]) := by
  unfold engineLoad
  by_cases k : loadCheck h n i ≠ 0
  · exact .inl (if_pos k)
  · exact .inr ⟨_, if_neg k⟩

theorem records_engineLoad (n i st : Nat) (c : Option Byte) (h : Hub) : (engineLoad n i st c h).watch.records = h.watch.records := by
  obtain e | ⟨g, e⟩ := engineLoad_cases n i st c h
  · rw [e, wrs_watch]
  · rw [e, syncPins_watch, wrs_watch]
    exact records_takeInjectionAt _ _ h

theorem KeptBut.wrs {r : List (Nat × Nat)} {a b : Hub} (x : KeptBut r a b) (l : List (Nat × Nat))
    (m : ∀ p ∈ l, ∃ e ∈ r, e.1 ≤ p.1 ∧ p.1 ≤ e.2) : KeptBut r a (wrs b l) := by
  induction l generalizing b with
  | nil => exact x
  | cons p l ih => exact ih (x.wr p.1 p.2 (m p (by simp))) fun q i => m q (List.mem_cons_of_mem _ i)

theorem kept_engineLoad {n : Nat} (hn : n < 64) (i st : Nat) (c : Option Byte) (h : Hub) :
    KeptBut engineRanges h (engineLoad n i st c h) := by
  obtain e | ⟨g, e⟩ := engineLoad_cases n i st c h
  · rw [e]
    refine (KeptBut.refl _ h).wrs _ fun p m => ?_
    simp only [List.mem_cons, List.not_mem_nil, or_false] at m
    rcases m with rfl | rfl
    · exact engKey_ranges hn (by decide)
    · exact engKey_ranges hn (by decide)
  · rw [e]
    have same : (setEngine (takeProgramInjection n h).2 n g).dict = h.dict := dict_takeInjectionAt _ _ h
    intro k o
    rw [rdW_syncPins]
    refine (((KeptBut.refl engineRanges h).same same).wrs _ fun p m => ?_) k o
    simp only [List.mem_cons, List.not_mem_nil, or_false] at m
    rcases m with rfl | rfl | rfl | rfl
    · exact engKey_ranges hn (by decide)
    · exact engKey_ranges hn (by decide)
    · exact engKey_ranges hn (by decide)
    · exact engKey_ranges hn (by decide)

/-- One engine of a Grove whose list was lost. -/
def reloadEngine (g k : Nat) (h : Hub) : Hub :=
  if 2 ≤ engState h (8 * g + k) ∧ engState h (8 * g + k) ≤ 5 then
    engineLoad (8 * g + k) (rd h (engKey (8 * g + k) 0x13)) 3 (some ((takeFree h).1.setWidth 8)) (takeFree h).2
  else h

/-- The engines of a Grove whose list was lost. -/
def reloaded (g : Nat) (h : Hub) : Hub := forEach (List.range 8) (reloadEngine g) h

theorem groveReload_eq (g : Nat) (h : Hub) : groveReload g h =
    { reloaded g h with power := { (reloaded g h).power with resumed := (reloaded g h).power.resumed.filter fun n => grove n != g } } := by
  unfold groveReload reloaded reloadEngine
  generalize List.range 8 = l
  rfl

theorem kept_reloaded {g : Nat} (hg : g < 8) (h : Hub) : KeptBut engineRanges h (reloaded g h) := by
  refine kept_forEach (fun k m b => ?_) h
  have hk := List.mem_range.1 m
  unfold reloadEngine
  split
  · exact ((KeptBut.refl _ b).same rfl).trans (kept_engineLoad (by omega) _ _ _ (takeFree b).2)
  · exact KeptBut.refl _ b

theorem kept_groveReload {g : Nat} (hg : g < 8) (h : Hub) : KeptBut engineRanges h (groveReload g h) :=
  (kept_reloaded hg h).same (by rw [groveReload_eq])

theorem records_reloaded (g : Nat) (h : Hub) : (reloaded g h).watch.records = h.watch.records := by
  unfold reloaded
  generalize List.range 8 = l
  refine forEach_same (fun x => x.watch.records) l (reloadEngine g) h fun k _ b => ?_
  unfold reloadEngine
  split
  · exact records_engineLoad _ _ _ _ _
  · rfl

theorem records_groveReload (g : Nat) (h : Hub) : (groveReload g h).watch.records = h.watch.records := by
  rw [groveReload_eq, ← records_reloaded g h]

/-! ### A vote that returns and the switch-on (R670, R671, R674) -/

/-- A register of the always-on power entries is none of the engines' own. -/
theorem not_engineRanges {k : Nat} (h : 0x4D10_01 ≤ k ∨ k < 0x3000_00) : ∀ e ∈ engineRanges, k < e.1 ∨ e.2 < k := by
  simp only [engineRanges, List.mem_singleton, forall_eq]
  unfold engKey slotKey
  omega

theorem domainState_groveResume {g : Nat} (hg : g < 8) (h : Hub) (d : Nat) : domainState (groveResume g h) d = domainState h d :=
  (kept_groveResume hg h).rd_eq _ (not_engineRanges (.inl (by omega)))

/-- The software vote of Grove g is set. -/
def voted (g : Nat) (h : Hub) : Hub := wr h (0x2D10_01 + g) 1

theorem domainState_voted (g : Nat) (h : Hub) : domainState (voted g h) g = domainState h g :=
  rd_wr_ne _ _ _ _ (by omega)

/-- Before isolation a returned vote keeps the Grove ON. -/
theorem voteReturn_beforeIsolation {g : Nat} {h : Hub} (f : forcedOff h g = false)
    (d : domainState h g = 4 ∨ domainState h g = 5 ∨ domainState h g = 6) :
    voteReturn g 1 h = raiseEvent (bump (groveResume g (setDomain g 3 (voted g h))) 0x4D10_03) 0xA0 g 0 := by
  have v : votes (voted g h) g ≠ 0 := votes_software (rd_wr_self _ _ _)
  have o : ¬ (forcedOff (voted g h) g = true ∨ votes (voted g h) g = 0) := by
    have : forcedOff (voted g h) g = false := f
    simp [this, v]
  rw [← domainState_voted] at d
  exact (if_neg o).trans (if_pos d)

/-- In OFF a returned vote starts the switch-on. -/
theorem voteReturn_off {g : Nat} {h : Hub} (f : forcedOff h g = false) (d : domainState h g = 0) :
    voteReturn g 1 h = setDomain g 1 (voted g h) := by
  have v : votes (voted g h) g ≠ 0 := votes_software (rd_wr_self _ _ _)
  have o : ¬ (forcedOff (voted g h) g = true ∨ votes (voted g h) g = 0) := by
    have : forcedOff (voted g h) g = false := f
    simp [this, v]
  rw [← domainState_voted] at d
  have n : ¬ (domainState (voted g h) g = 4 ∨ domainState (voted g h) g = 5 ∨ domainState (voted g h) g = 6) := by simp [d]
  exact ((if_neg o).trans (if_neg n)).trans (if_pos d)

theorem kept_voted_setDomain {g : Nat} (st : Nat) (h : Hub) :
    KeptBut ((0x2D10_01 + g, 0x2D10_01 + g) :: domainRanges g) h (setDomain g st (voted g h)) :=
  ((kept_wr h _ 1).mono (by simp)).trans ((kept_setDomain g st _).mono fun _ m => List.mem_cons_of_mem _ m)

theorem voteReturn_clause (g : Fin 8) (s : State) (f : forcedOff s.hub g = false) :
    (domainState s.hub g = 4 ∨ domainState s.hub g = 5 ∨ domainState s.hub g = 6 →
      ∃ t, exec (.voteReturn g 1) s = .next t ∧ domainState t.hub g = 3 ∧ rd t.hub (0x2D10_01 + g) = 1
        ∧ rd t.hub 0x4D10_03 = min (rd s.hub 0x4D10_03 + 1) (2 ^ 32 - 1) ∧ eventPending t.hub 0xA0 = true
        ∧ KeptBut ((0x2D10_01 + g, 0x2D10_01 + g) :: (0x4D11_01 + g, 0x4D11_01 + g) :: (0x4D10_01, 0x4D10_03)
            :: (engKey 0 0, engKey 63 255) :: eventRanges) s.hub t.hub)
    ∧ (domainState s.hub g = 0 → ∃ t, exec (.voteReturn g 1) s = .next t ∧ domainState t.hub g = 1
      ∧ KeptBut [(0x2D10_01 + g, 0x2D10_01 + g), (0x4D11_01 + g, 0x4D11_01 + g), (0x4D10_01, 0x4D10_01)] s.hub t.hub) := by
  obtain ⟨g, hg⟩ := g
  dsimp only at f ⊢
  refine ⟨fun d => ?_, fun d => ?_⟩
  · refine ⟨_, onHub_eq_next (voteReturn_beforeIsolation f d), ?_⟩
    dsimp only
    have state : domainState (groveResume g (setDomain g 3 (voted g s.hub))) g = 3 := by
      rw [domainState_groveResume hg]
      exact domainState_setDomain g _ (by decide)
    have first : KeptBut ((0x2D10_01 + g, 0x2D10_01 + g) :: (engineRanges ++ domainRanges g)) s.hub
        (groveResume g (setDomain g 3 (voted g s.hub))) :=
      ((kept_voted_setDomain 3 s.hub).mono fun e m => by simp only [List.mem_cons, List.mem_append] at *; tauto).trans
        ((kept_groveResume hg _).mono fun e m => by simp [m])
    have vote : rd (groveResume g (setDomain g 3 (voted g s.hub))) (0x2D10_01 + g) = 1 := by
      rw [(kept_groveResume hg _).rd_eq _ (not_engineRanges (.inr (by omega))), rd_setDomain_of _ _ _ _ (by omega) (by omega)]
      exact rd_wr_self _ _ _
    generalize groveResume g (setDomain g 3 (voted g s.hub)) = a at *
    refine ⟨?_, ?_, ?_, eventPending_raiseEvent _ _ _ _ _ (by decide) (.inl rfl), ?_⟩
    · unfold domainState
      rw [rd_raiseEvent_of _ _ _ _ _ (by decide) (by simp [eventKey]; omega), rd_bump_ne _ (by omega)]
      exact state
    · rw [rd_raiseEvent_of _ _ _ _ _ (by decide) (by simp [eventKey]; omega), rd_bump_ne _ (by omega)]
      exact vote
    · rw [rd_raiseEvent_of _ _ _ _ _ (by decide) (by decide), rd_bump_self,
        first.rd_eq _ (by simp only [engineRanges, domainRanges, engKey, slotKey, List.mem_cons, List.cons_append, List.nil_append, List.not_mem_nil, or_false, forall_eq_or_imp, forall_eq]; omega)]
    · refine KeptBut.after_raiseEvent (KeptBut.bump ?_ _ ⟨(0x4D10_01, 0x4D10_03), by simp, by decide, by decide⟩) _ _ _ (by decide) (by simp +contextual)
      intro k n
      simp only [List.mem_cons, forall_eq_or_imp] at n
      exact first k (by simp only [engineRanges, domainRanges, List.mem_cons, List.cons_append, List.nil_append, List.not_mem_nil, or_false, forall_eq_or_imp, forall_eq]; omega)
  · exact ⟨_, onHub_eq_next (voteReturn_off f d), domainState_setDomain g _ (by decide), kept_voted_setDomain 1 s.hub⟩

theorem groveOn_good {g : Nat} {h : Hub} (e : saveGood h g = true) : groveOn g true h = syncPads (groveResume g (setDomain g 3 h)) :=
  if_pos (by rw [e]; rfl)

theorem groveOn_bad {g : Nat} {h : Hub} {ok : Bool} (e : ok = false ∨ saveGood h g = false) :
    groveOn g ok h = syncPads (groveReload g (raiseFault 0x18 0x15 g 0 (bump (setDomain g 3 h) 0x4D10_04))) :=
  if_neg (by rcases e with e | e <;> simp [e])

theorem groveSwitchOn_clause (g : Fin 8) (s : State) :
    (domainState s.hub g = 0 ∨ domainState s.hub g = 1 → forcedOff s.hub g = false → votes s.hub g ≠ 0 →
      (saveGood s.hub g = true → ∃ t, exec (.groveSwitchOn g true) s = .next t ∧ domainState t.hub g = 3 ∧ bit (rd t.hub 0x4D10_01) g = true
        ∧ (∀ n, n ∈ s.hub.power.resumed → n < 64 → grove n = g → engState s.hub n = 2 → engState t.hub n = 3)
        ∧ (∀ n ∈ t.hub.power.resumed, grove n ≠ g)
        ∧ KeptBut [(0x4D11_01 + g, 0x4D11_01 + g), (0x4D10_01, 0x4D10_01), (engKey 0 0, engKey 63 255)] s.hub t.hub)
      ∧ (∀ ok, ok = false ∨ saveGood s.hub g = false →
        ∃ t, exec (.groveSwitchOn g ok) s = .next t ∧ domainState t.hub g = 3 ∧ recordHeld t.hub 0x18 = true
        ∧ rd t.hub 0x4D10_04 = min (rd s.hub 0x4D10_04 + 1) (2 ^ 32 - 1)))
    ∧ (domainState s.hub g ≠ 0 ∧ domainState s.hub g ≠ 1 ∨ forcedOff s.hub g = true ∨ votes s.hub g = 0 →
      ∀ ok, exec (.groveSwitchOn g ok) s = .next s) := by
  obtain ⟨g, hg⟩ := g
  dsimp only
  refine ⟨fun d f v => ⟨fun good => ?_, fun ok bad => ?_⟩, fun c ok => onHub_eq_next (if_neg ?_)⟩
  · refine ⟨_, onHub_eq_next ((if_pos ⟨d.symm, by simp [f], v⟩).trans (groveOn_good good)), ?_⟩
    dsimp only
    refine ⟨?_, ?_, fun n i _ e c => ?_, ?_, ?_⟩
    · unfold domainState
      rw [rd_syncPads]
      exact (domainState_groveResume hg _ g).trans (domainState_setDomain g _ (by decide))
    · rw [rd_syncPads, (kept_groveResume hg _).rd_eq _ (not_engineRanges (.inl (by decide))), bit_setDomain _ _ _ (by omega)]
      rfl
    · unfold engState at c ⊢
      rw [rd_syncPads]
      refine engState_groveResume _ ((congrArg Power.resumed (wrs_power _ _) : (setDomain g 3 s.hub).power.resumed = _) ▸ i) e ?_
      unfold engState
      have n64 := lt_of_grove hg e
      rw [rd_setDomain_of _ _ _ _ (by unfold engKey slotKey; omega) (by unfold engKey slotKey; omega), c]
    · rw [syncPads_power]
      exact resumed_groveResume g _
    · exact KeptBut.after_syncPads (((kept_setDomain g 3 s.hub).mono (by simp [domainRanges])).trans
        ((kept_groveResume hg _).mono (by simp [engineRanges])))
  · refine ⟨_, onHub_eq_next ((if_pos ⟨d.symm, by simp [f], v⟩).trans (groveOn_bad bad)), ?_⟩
    dsimp only
    refine ⟨?_, ?_, ?_⟩
    · unfold domainState
      rw [rd_syncPads, (kept_groveReload hg _).rd_eq _ (not_engineRanges (.inl (by omega))),
        rd_raiseFault_of _ _ _ _ _ _ (by simp [faultKey, fuseRegister, eventKey]; omega), rd_bump_ne _ (by omega)]
      exact domainState_setDomain g _ (by decide)
    · unfold recordHeld
      rw [syncPads_watch, records_groveReload]
      exact recordHeld_raiseFault _ _ _ _ _
    · rw [rd_syncPads, (kept_groveReload hg _).rd_eq _ (not_engineRanges (.inl (by decide))),
        rd_raiseFault_of _ _ _ _ _ _ (by decide), rd_bump_self, rd_setDomain_of _ _ _ _ (by omega) (by decide)]
  · rintro ⟨d, f, v⟩
    rcases c with c | c | c
    · tauto
    · exact f c
    · exact v c

/-! ### The regulators (R683 to R687) -/

theorem kept_avsAccepted (v : Nat) (h : Hub) : KeptBut [(0x4D10_08, 0x4D10_08)] h (avsAccepted v h) :=
  kept_wr { h with power := { h.power with avsTarget := none, avsBusy := 0, avsOther := 0 } } _ _

theorem rd_avsAccepted (v : Nat) (h : Hub) (l : v < 2 ^ 48) : rd (avsAccepted v h) 0x4D10_08 = v :=
  (rd_wr_self _ _ _).trans (Nat.mod_eq_of_lt l)

/-- The rail current does not enter the target. -/
theorem avsTargetOf_current (h : Hub) (x : Nat) : avsTargetOf (wr h 0x4D10_0C x) = avsTargetOf h := by
  have r : ∀ k, k ≠ 0x4D10_0C → rd (wr h 0x4D10_0C x) k = rd h k := fun k n => rd_wr_ne _ _ _ _ n
  have a : (wr h 0x4D10_0C x).adc = h.adc := rfl
  unfold avsTargetOf avsTargetAt
  rw [a, r _ (by decide), r _ (by decide), r _ (by decide)]

theorem avsUpdate_clause (ack ma v old : Nat) (s : State) (hv : v = avsTargetOf s.hub) (ho : old = rd s.hub 0x4D10_08) :
    (v < old + 5 → old < v + 5 → exec (.avsUpdate ack ma) s = .next { s with hub := wr s.hub 0x4D10_0C (ma % 65536) })
    ∧ (old + 5 ≤ v ∨ v + 5 ≤ old →
      (v < 2 ^ 48 → ∃ t, exec (.avsUpdate 0 ma) s = .next t ∧ rd t.hub 0x4D10_08 = v ∧ rd t.hub 0x4D10_0C = ma % 65536
        ∧ t.hub.power.avsTarget = none ∧ KeptBut [(0x4D10_08, 0x4D10_08), (0x4D10_0C, 0x4D10_0C)] s.hub t.hub)
      ∧ (ack ≠ 0 → ∃ t, exec (.avsUpdate ack ma) s = .next t
        ∧ t.hub.power = { s.hub.power with avsTarget := some v, avsBusy := 0, avsOther := 0 }
        ∧ KeptBut [(0x4D10_0C, 0x4D10_0C)] s.hub t.hub)) := by
  have target : avsTargetOf (wr s.hub 0x4D10_0C (ma % 65536)) = v := (avsTargetOf_current _ _).trans hv.symm
  have last : rd (wr s.hub 0x4D10_0C (ma % 65536)) 0x4D10_08 = old := (rd_wr_ne _ _ _ _ (by decide)).trans ho.symm
  have current := kept_wr s.hub 0x4D10_0C (ma % 65536)
  have reads : rd (wr s.hub 0x4D10_0C (ma % 65536)) 0x4D10_0C = ma % 65536 := by
    rw [rd_wr_self]; omega
  have step : ∀ a, avsUpdate a ma s.hub = if v < old + 5 ∧ old < v + 5 then wr s.hub 0x4D10_0C (ma % 65536)
      else if a = 0 then avsAccepted v (wr s.hub 0x4D10_0C (ma % 65536))
      else { wr s.hub 0x4D10_0C (ma % 65536) with
        power := { (wr s.hub 0x4D10_0C (ma % 65536)).power with avsTarget := some v, avsBusy := 0, avsOther := 0 } } := by
    intro a
    unfold avsUpdate
    simp only [target, last]
  refine ⟨fun a b => onHub_eq_next ((step ack).trans (if_pos ⟨a, b⟩)), fun c => ⟨fun l => ?_, fun n => ?_⟩⟩
  · refine ⟨_, onHub_eq_next ((step 0).trans ((if_neg (by omega)).trans (if_pos rfl))), rd_avsAccepted _ _ l, ?_, rfl, ?_⟩
    · rw [(kept_avsAccepted v _).rd_eq _ (by decide), reads]
    · exact (current.mono (by simp)).trans ((kept_avsAccepted v _).mono (by simp))
  · exact ⟨_, onHub_eq_next ((step ack).trans ((if_neg (by omega)).trans (if_neg n))), rfl, current.same rfl⟩

/-- A failure counted and raised as a fault. -/
theorem kept_countedFault {a b : Hub} (k c i d e : Nat) (x : b.dict = a.dict) :
    KeptBut ((k, k) :: faultRanges) a (raiseFault c i d e (bump b k)) := by
  have counted : KeptBut [(k, k)] a (bump b k) := ((KeptBut.refl _ a).same x).trans (kept_wr b k _)
  exact (counted.mono (by simp)).after_raiseFault _ _ _ _ fun _ m => List.mem_cons_of_mem _ m

theorem avsRetry_clause (ack v b o : Nat) (s : State) (t : s.hub.power.avsTarget = some v) (hb : b = s.hub.power.avsBusy + b2n (ack == 1))
    (ho : o = s.hub.power.avsOther + b2n (ack != 1)) :
    (v < 2 ^ 48 → ∃ t, exec (.avsRetry 0) s = .next t ∧ rd t.hub 0x4D10_08 = v ∧ t.hub.power.avsTarget = none
      ∧ KeptBut [(0x4D10_08, 0x4D10_08)] s.hub t.hub)
    ∧ (ack ≠ 0 → b < 10 → o < 3 → exec (.avsRetry ack) s
      = .next { s with hub := { s.hub with power := { s.hub.power with avsBusy := b, avsOther := o } } })
    ∧ (ack ≠ 0 → 10 ≤ b ∨ 3 ≤ o → ∃ t, exec (.avsRetry ack) s = .next t ∧ recordHeld t.hub 0x19 = true
      ∧ rd t.hub 0x4D10_05 = min (rd s.hub 0x4D10_05 + 1) (2 ^ 32 - 1) ∧ t.hub.power.avsTarget = none
      ∧ rd t.hub 0x4D10_08 = rd s.hub 0x4D10_08 ∧ KeptBut ((0x4D10_05, 0x4D10_05) :: faultRanges) s.hub t.hub) := by
  have step : ∀ a, avsRetry a s.hub = if a = 0 then avsAccepted v s.hub
      else if 10 ≤ s.hub.power.avsBusy + b2n (a == 1) ∨ 3 ≤ s.hub.power.avsOther + b2n (a != 1) then
        raiseFault 0x19 0x15 (a % 4) (rd s.hub 0x4D10_09)
          (bump { s.hub with power := { s.hub.power with avsTarget := none, avsBusy := 0, avsOther := 0 } } 0x4D10_05)
      else { s.hub with power := { s.hub.power with avsBusy := s.hub.power.avsBusy + b2n (a == 1), avsOther := s.hub.power.avsOther + b2n (a != 1) } } := by
    intro a
    unfold avsRetry
    rw [t]
  subst hb ho
  refine ⟨fun l => ?_, fun n a b => onHub_eq_next ((step ack).trans ((if_neg n).trans (if_neg (by omega)))), fun n c => ?_⟩
  · exact ⟨_, onHub_eq_next ((step 0).trans (if_pos rfl)), rd_avsAccepted _ _ l, rfl, kept_avsAccepted _ _⟩
  · refine ⟨_, onHub_eq_next ((step ack).trans ((if_neg n).trans (if_pos c))), recordHeld_raiseFault _ _ _ _ _, ?_, ?_, ?_, ?_⟩
    · dsimp only
      rw [rd_raiseFault_of _ _ _ _ _ _ (by decide), rd_bump_self]
      rfl
    · dsimp only
      rw [raiseFault_power]
      rfl
    · dsimp only
      rw [rd_raiseFault_of _ _ _ _ _ _ (by decide), rd_bump_ne _ (by decide)]
      rfl
    · exact kept_countedFault _ _ _ _ _ rfl

theorem avsRetry_idle (ack : Nat) (s : State) (t : s.hub.power.avsTarget = none) : exec (.avsRetry ack) s = .next s :=
  onHub_eq_next (by unfold avsRetry; rw [t])

theorem avsReadback_clause (mv : Nat) (s : State) (l : mv < 65536) :
    (mv ≤ rd s.hub 0x4D10_08 + 15 → rd s.hub 0x4D10_08 ≤ mv + 15 →
      exec (.avsReadback mv) s = .next { s with hub := wr s.hub 0x4D10_09 mv })
    ∧ (rd s.hub 0x4D10_08 + 15 < mv ∨ mv + 15 < rd s.hub 0x4D10_08 → ∃ t, exec (.avsReadback mv) s = .next t
      ∧ rd t.hub 0x4D10_09 = mv ∧ recordHeld t.hub 0x19 = true ∧ KeptBut ((0x4D10_09, 0x4D10_09) :: faultRanges) s.hub t.hub) := by
  have step : avsReadback mv s.hub = if rd s.hub 0x4D10_08 + 15 < mv ∨ mv + 15 < rd s.hub 0x4D10_08 then
      raiseFault 0x19 0x15 0xFF mv (wr s.hub 0x4D10_09 mv) else wr s.hub 0x4D10_09 mv := by
    unfold avsReadback
    simp only [Nat.mod_eq_of_lt l]
  refine ⟨fun a b => onHub_eq_next (step.trans (if_neg (by omega))), fun c => ⟨_, onHub_eq_next (step.trans (if_pos c)), ?_,
    recordHeld_raiseFault _ _ _ _ _, ?_⟩⟩
  · dsimp only
    rw [rd_raiseFault_of _ _ _ _ _ _ (by decide), rd_wr_self]
    omega
  · exact KeptBut.after_raiseFault ((kept_wr _ _ _).mono (by simp)) _ _ _ _ fun _ m => List.mem_cons_of_mem _ m

theorem pmbusRetry_clause (r : Fin 4) (n : Nat) (s : State) (hn : n = tabGet 0 s.hub.power.pmbTries r) :
    (railManaged s.hub r = false → ∀ ok, exec (.pmbusRetry r ok) s = .next s)
    ∧ (railManaged s.hub r = true → exec (.pmbusRetry r true) s
      = .next { s with hub := { s.hub with power := { s.hub.power with pmbTries := tabErase s.hub.power.pmbTries r } } })
    ∧ (railManaged s.hub r = true → n < 2 → exec (.pmbusRetry r false) s
      = .next { s with hub := { s.hub with power := { s.hub.power with pmbTries := tabSet s.hub.power.pmbTries r (n + 1) } } })
    ∧ (railManaged s.hub r = true → 2 ≤ n → ∃ t, exec (.pmbusRetry r false) s = .next t ∧ recordHeld t.hub 0x1A = true
      ∧ rd t.hub 0x4D10_06 = min (rd s.hub 0x4D10_06 + 1) (2 ^ 32 - 1) ∧ tabGet 0 t.hub.power.pmbTries r = 0
      ∧ KeptBut ((0x4D10_06, 0x4D10_06) :: faultRanges) s.hub t.hub) := by
  subst hn
  have managed : railManaged s.hub r = true → ¬ ¬ railManaged s.hub r = true := fun m => not_not_intro m
  refine ⟨fun m ok => onHub_eq_next (if_pos (by simp [m])), fun m => onHub_eq_next ((if_neg (managed m)).trans (if_pos rfl)), fun m l => ?_, fun m l => ?_⟩
  · exact onHub_eq_next ((if_neg (managed m)).trans ((if_neg (by decide)).trans (if_neg (by omega))))
  · refine ⟨_, onHub_eq_next ((if_neg (managed m)).trans ((if_neg (by decide)).trans (if_pos l))), recordHeld_raiseFault _ _ _ _ _, ?_, ?_, ?_⟩
    · dsimp only
      rw [rd_raiseFault_of _ _ _ _ _ _ (by decide), rd_bump_self]
      rfl
    · dsimp only
      rw [raiseFault_power]
      exact tabGet_tabErase_self _ _ _
    · exact kept_countedFault _ _ _ _ _ rfl

/-! ### An alert of the regulators (R687) -/

theorem faultKey_of_ge {k : Nat} (h : 0x4D00_00 ≤ k) (l : k < 0x4E00_00) : faultKey k = false := by
  simp [faultKey, fuseRegister, eventKey]; omega

theorem mode_raiseFault (c i a b : Nat) (h : Hub) : mode (raiseFault c i a b h) = mode h := rd_raiseFault_of _ _ _ _ _ _ (by decide)

/-- The registers of one rail's reading and of a fault. -/
def railRanges (r : Nat) : List (Nat × Nat) := (0x4D13_01 + r, 0x4D13_01 + r) :: faultRanges

/-- What one rail's reading does: recorded only in DORMANT, else raising the fault or letting its cause go. -/
theorem railRead_cases (r status : Nat) (h : Hub) :
    mode h = 6 ∧ railRead r status h = wr h (0x4D13_01 + r) (status % 65536) ∨
    mode h ≠ 6 ∧ railBad status = true ∧
      railRead r status h = raiseFault 0x1C 0x15 r (status % 65536) (wr h (0x4D13_01 + r) (status % 65536)) ∨
    mode h ≠ 6 ∧ railBad status = false ∧ (railRead r status h = wr h (0x4D13_01 + r) (status % 65536) ∨
      railRead r status h = causeGone 0x1C (wr h (0x4D13_01 + r) (status % 65536))) := by
  unfold railRead
  by_cases m : mode h = 6
  · exact .inl ⟨m, if_pos m⟩
  · right
    simp only [if_neg m]
    cases b : railBad status
    · right
      refine ⟨m, rfl, ?_⟩
      simp only [Bool.false_eq_true, if_false]
      split
      · split
        · exact .inr rfl
        · exact .inl rfl
      · exact .inl rfl
    · exact .inl ⟨m, rfl, rfl⟩

theorem kept_railRead (r status : Nat) (h : Hub) : KeptBut (railRanges r) h (railRead r status h) := by
  have first : KeptBut (railRanges r) h (wr h (0x4D13_01 + r) (status % 65536)) := (kept_wr _ _ _).mono (by simp [railRanges])
  obtain ⟨-, e⟩ | ⟨-, -, e⟩ | ⟨-, -, e | e⟩ := railRead_cases r status h
  · rw [e]; exact first
  · rw [e]; exact first.after_raiseFault _ _ _ _ fun _ m => List.mem_cons_of_mem _ m
  · rw [e]; exact first
  · rw [e]; exact first.trans ((kept_causeGone _ _).mono fun _ m => List.mem_cons_of_mem _ m)

theorem rd_railRead (r status : Nat) (h : Hub) (hr : r < 4) : rd (railRead r status h) (0x4D13_01 + r) = status % 65536 := by
  have first : rd (wr h (0x4D13_01 + r) (status % 65536)) (0x4D13_01 + r) = status % 65536 := by rw [rd_wr_self]; omega
  have k : faultKey (0x4D13_01 + r) = false := faultKey_of_ge (by omega) (by omega)
  obtain ⟨-, e⟩ | ⟨-, -, e⟩ | ⟨-, -, e | e⟩ := railRead_cases r status h
  · rw [e, first]
  · rw [e, rd_raiseFault_of _ _ _ _ _ _ k, first]
  · rw [e, first]
  · unfold rd at first ⊢
    rw [e, rdW_causeGone_of _ _ _ k, first]

theorem recordHeld_railRead (r status : Nat) (h : Hub) (p : recordHeld h 0x1C = true) : recordHeld (railRead r status h) 0x1C = true := by
  obtain ⟨-, e⟩ | ⟨-, -, e⟩ | ⟨-, -, e | e⟩ := railRead_cases r status h
  · rw [e]; exact p
  · rw [e]; exact recordHeld_raiseFault _ _ _ _ _
  · rw [e]; exact p
  · rw [e]; exact recordHeld_causeGone _ _ _ p

theorem recordHeld_railRead_bad (r status : Nat) (h : Hub) (m : mode h ≠ 6) (b : railBad status = true) :
    recordHeld (railRead r status h) 0x1C = true := by
  obtain ⟨d, -⟩ | ⟨-, -, e⟩ | ⟨-, g, -⟩ := railRead_cases r status h
  · exact absurd d m
  · rw [e]; exact recordHeld_raiseFault _ _ _ _ _
  · rw [b] at g; exact absurd g (by decide)

theorem railRead_dormant (r status : Nat) (h : Hub) (m : mode h = 6) : railRead r status h = wr h (0x4D13_01 + r) (status % 65536) := if_pos m

/-- Rail r as an alert finds it: read where it is managed. -/
def railPolled (status : List Nat) (r : Nat) (h : Hub) : Hub := if railManaged h r then railRead r (status.getD r 0) h else h

/-- The first n rails. -/
def railsPolled (status : List Nat) (n : Nat) (h : Hub) : Hub := forEach (List.range n) (railPolled status) h

theorem railsPolled_succ (status : List Nat) (n : Nat) (h : Hub) :
    railsPolled status (n + 1) h = railPolled status n (railsPolled status n h) := forEach_range_succ n _ h

theorem kept_railPolled (status : List Nat) (r : Nat) (h : Hub) : KeptBut (railRanges r) h (railPolled status r h) := by
  unfold railPolled
  split
  · exact kept_railRead _ _ h
  · exact KeptBut.refl _ h

/-- The registers of the four rails' readings and of a fault. -/
def alertRanges : List (Nat × Nat) := (0x4D13_01, 0x4D13_04) :: faultRanges

theorem kept_railsPolled (status : List Nat) (n : Nat) (hn : n ≤ 4) (h : Hub) : KeptBut alertRanges h (railsPolled status n h) := by
  refine kept_forEach (fun r m b k o => kept_railPolled status r b k ?_) h
  have hr := List.mem_range.1 m
  simp only [alertRanges, railRanges, List.mem_cons, forall_eq_or_imp] at o ⊢
  exact ⟨by omega, o.2⟩

theorem not_alertRanges {k : Nat} (h : k < 0x3600_00 ∨ 0x4D00_00 ≤ k ∧ k < 0x4D13_01) : ∀ e ∈ alertRanges, k < e.1 ∨ e.2 < k := by
  simp only [alertRanges, faultRanges, eventRanges, List.mem_cons, List.not_mem_nil, or_false, forall_eq_or_imp, forall_eq]
  omega

theorem railManaged_railsPolled (status : List Nat) (n r : Nat) (hn : n ≤ 4) (hr : r < 4) (h : Hub) :
    railManaged (railsPolled status n h) r = railManaged h r := by
  unfold railManaged
  rw [(kept_railsPolled status n hn h).rd_eq _ (not_alertRanges (.inl (by omega)))]

theorem mode_railsPolled (status : List Nat) (n : Nat) (hn : n ≤ 4) (h : Hub) : mode (railsPolled status n h) = mode h :=
  (kept_railsPolled status n hn h).rd_eq _ (not_alertRanges (.inl (by decide)))

/-- Each managed rail's register holds its reading once it has been polled; the others hold what they held. -/
theorem rd_railsPolled (status : List Nat) (n r : Nat) (hn : n ≤ 4) (hr : r < 4) (h : Hub) : rd (railsPolled status n h) (0x4D13_01 + r) =
    if railManaged h r = true ∧ r < n then status.getD r 0 % 65536 else rd h (0x4D13_01 + r) := by
  induction n with
  | zero => rw [if_neg (by omega)]; rfl
  | succ n ih =>
    rw [railsPolled_succ]
    by_cases e : r = n
    · subst e
      have before := ih (by omega)
      rw [if_neg (by omega)] at before
      unfold railPolled
      rw [railManaged_railsPolled _ _ _ (by omega) hr]
      split
      · next m => rw [rd_railRead _ _ _ hr, if_pos ⟨m, by omega⟩]
      · next m => rw [before, if_neg (by tauto)]
    · rw [(kept_railPolled status n _).rd_eq _ (by
        simp only [railRanges, faultRanges, eventRanges, List.mem_cons, List.not_mem_nil, or_false, forall_eq_or_imp, forall_eq]; omega), ih (by omega)]
      exact if_congr (and_congr_right fun _ => by omega) rfl rfl

/-- A managed rail that reads bad leaves FLT_PWR_RAIL held. -/
theorem recordHeld_railsPolled (status : List Nat) (n r : Nat) (hn : n ≤ 4) (h : Hub) (m : mode h ≠ 6) (hr : r < n)
    (g : railManaged h r = true) (b : railBad (status.getD r 0) = true) : recordHeld (railsPolled status n h) 0x1C = true := by
  induction n with
  | zero => omega
  | succ n ih =>
    rw [railsPolled_succ]
    unfold railPolled
    by_cases e : r = n
    · subst e
      rw [railManaged_railsPolled _ _ _ (by omega) (by omega), if_pos g]
      exact recordHeld_railRead_bad _ _ _ (by rw [mode_railsPolled _ _ (by omega)]; exact m) b
    · have p := ih (by omega) (by omega)
      split
      · exact recordHeld_railRead _ _ _ p
      · exact p

/-- In DORMANT the readings are written and nothing else is done. -/
theorem railsPolled_dormant (status : List Nat) (n : Nat) (hn : n ≤ 4) (h : Hub) (m : mode h = 6) :
    noDict (railsPolled status n h) = noDict h ∧ KeptBut [(0x4D13_01, 0x4D13_04)] h (railsPolled status n h) := by
  induction n with
  | zero => exact ⟨rfl, KeptBut.refl _ h⟩
  | succ n ih =>
    obtain ⟨rest, kept⟩ := ih (by omega)
    rw [railsPolled_succ]
    unfold railPolled
    split
    · rw [railRead_dormant _ _ _ ((mode_railsPolled _ _ (by omega) h).trans m)]
      exact ⟨rest, kept.wr _ _ ⟨_, List.mem_singleton.2 rfl, by simp only; omega⟩⟩
    · exact ⟨rest, kept⟩

theorem pmbAlert_eq (status : List Nat) (h : Hub) :
    pmbAlert status h = if mode h = 6 then railsPolled status 4 h else raiseEvent (bump (railsPolled status 4 h) 0x4D10_0B) 0xA2 0 0 := by
  have e : forEach (List.range 4) (fun r g => if railManaged g r then railRead r (status.getD r 0) g else g) h = railsPolled status 4 h := by
    unfold railsPolled railPolled
    generalize List.range 4 = l
    rfl
  unfold pmbAlert
  simp only [e]

theorem pmbAlert_clause (status : List Nat) (s : State) :
    ∃ t, exec (.pmbAlert status) s = .next t
      ∧ (∀ r, r < 4 → rd t.hub (0x4D13_01 + r)
          = (if railManaged s.hub r then status.getD r 0 % 65536 else rd s.hub (0x4D13_01 + r)))
      ∧ (mode s.hub = 6 → { t.hub with dict := s.hub.dict } = s.hub ∧ KeptBut [(0x4D13_01, 0x4D13_04)] s.hub t.hub)
      ∧ (mode s.hub ≠ 6 → eventPending t.hub 0xA2 = true ∧ rd t.hub 0x4D10_0B = min (rd s.hub 0x4D10_0B + 1) (2 ^ 32 - 1)
        ∧ (∀ r, r < 4 → railManaged s.hub r = true → railBad (status.getD r 0) = true → recordHeld t.hub 0x1C = true)
        ∧ KeptBut ((0x4D13_01, 0x4D13_04) :: (0x4D10_0B, 0x4D10_0B) :: faultRanges) s.hub t.hub) := by
  refine ⟨_, onHub_eq_next (pmbAlert_eq status s.hub), ?_⟩
  dsimp only
  have readings : ∀ r, r < 4 → rd (railsPolled status 4 s.hub) (0x4D13_01 + r) =
      if railManaged s.hub r then status.getD r 0 % 65536 else rd s.hub (0x4D13_01 + r) := fun r hr => by
    rw [rd_railsPolled _ _ _ (le_refl 4) hr]
    exact if_congr (by simp [hr]) rfl rfl
  have kept := kept_railsPolled status 4 (le_refl 4) s.hub
  have bad := fun r (hr : r < 4) m => recordHeld_railsPolled status 4 r (le_refl 4) s.hub m hr
  have dormant := railsPolled_dormant status 4 (le_refl 4) s.hub
  generalize railsPolled status 4 s.hub = a at *
  by_cases m : mode s.hub = 6
  · rw [if_pos m]
    obtain ⟨rest, only⟩ := dormant m
    exact ⟨readings, fun _ => ⟨congrArg (fun x : Hub => { x with dict := s.hub.dict }) rest, only⟩, fun n => absurd m n⟩
  · rw [if_neg m]
    refine ⟨fun r hr => ?_, fun n => absurd n m, fun _ => ⟨eventPending_raiseEvent _ _ _ _ _ (by decide) (.inl rfl), ?_, fun r hr g b => ?_, ?_⟩⟩
    · rw [rd_raiseEvent_of _ _ _ _ _ (by decide) (by simp [eventKey]; omega), rd_bump_ne _ (by omega)]
      exact readings r hr
    · rw [rd_raiseEvent_of _ _ _ _ _ (by decide) (by decide), rd_bump_self, kept.rd_eq _ (not_alertRanges (.inr (by decide)))]
    · unfold recordHeld
      rw [raiseEvent_watch_records]
      exact bad r hr m g b
    · refine KeptBut.after_raiseEvent (KeptBut.bump (kept.mono fun e i => ?_) _ ⟨(0x4D10_0B, 0x4D10_0B), by simp, by decide, by decide⟩) _ _ _ (by decide)
        fun e i => by simp [faultRanges, i]
      simp only [alertRanges, List.mem_cons] at *
      tauto

end Sys2Proof.Machine

open Sys2Proof Sys2Proof.Machine

/-- Settles O53, by what each command of the power domains and regulators writes and leaves. -/
theorem grovesAndRegulatorsArePowered : Obligations.GrovesAndRegulatorsArePowered := by
  unfold Obligations.GrovesAndRegulatorsArePowered
  refine ⟨groveVoteClear_clause, offDelayExpiry_clause, voteReturn_clause, groveSwitchOn_clause, by decide, avsUpdate_clause,
    avsRetry_clause, avsRetry_idle, avsReadback_clause, pmbusRetry_clause, pmbAlert_clause⟩

end

section
/-! SUPPORT. What receiving a T1S frame changes before the frame is delivered (R545, R557, R558). -/

namespace Sys2Proof.Machine

/-! ### The frame is counted -/

/-- A frame counted as received: the port is active, its wake is productive. -/
def frameCounted (p : Nat) (h : Hub) : Hub := wakeProductive (24 + p) (t1sActive p (bump h (t1sStat p 1)))

/-- The registers that counting a frame may write: the count and the culprit log. -/
def countRanges (p : Nat) : List (Nat × Nat) := [(t1sStat p 1, t1sStat p 1), (0x4D03_01, 0x4D03_1E)]

/-- Counting a frame changes registers and what sleep notes, nothing else. -/
theorem frameCounted_eq (p : Nat) (h : Hub) :
    frameCounted p h = { h with dict := (frameCounted p h).dict, sleep := (frameCounted p h).sleep } := by
  unfold frameCounted wakeProductive
  split <;> rfl

theorem kept_frameCounted {p : Nat} (hp : p < 4) (h : Hub) : KeptBut (countRanges p) h (frameCounted p h) := by
  have counted : KeptBut (countRanges p) h (t1sActive p (bump h (t1sStat p 1))) :=
    ((kept_wr h (t1sStat p 1) _).mono (by simp [countRanges])).same rfl
  unfold frameCounted wakeProductive
  split
  · exact (counted.same rfl).wr _ _ ⟨(0x4D03_01, 0x4D03_1E), by simp [countRanges], by simp only; omega⟩
  · exact counted

theorem rd_frameCounted {p : Nat} (hp : p < 4) (h : Hub) :
    rd (frameCounted p h) (t1sStat p 1) = min (rd h (t1sStat p 1) + 1) (2 ^ 32 - 1) := by
  have counted : rd (t1sActive p (bump h (t1sStat p 1))) (t1sStat p 1) = min (rd h (t1sStat p 1) + 1) (2 ^ 32 - 1) := rd_bump_self _ _
  unfold frameCounted wakeProductive
  split
  · rw [rd_wr_ne _ _ _ _ (by unfold t1sStat slotKey; omega)]
    exact counted
  · exact counted

/-! ### The filters a frame matches -/

/-- The cyclic filters a frame matches. -/
def matched (p : Nat) (bs : List Byte) (h : Hub) : List Nat := (List.range 4).filter fun k => cyclicMatches h p k bs

theorem lt_of_matched {p k : Nat} {bs : List Byte} {h : Hub} (m : k ∈ matched p bs h) : k < 4 := List.mem_range.1 (List.mem_filter.1 m).1

theorem nodup_matched (p : Nat) (bs : List Byte) (h : Hub) : (matched p bs h).Nodup := List.nodup_range.filter _

/-- A frame captured once, in filter k. -/
def capturedOnce (p : Nat) (bs : List Byte) (k : Nat) (h : Hub) : Hub :=
  bump (setT1s h p { t1s h p with held := tabSet (t1s h p).held k (bs.drop (etherAt bs + 2), busNs h) }) (t1sStat p 0x0A)

theorem cyclicCapture_cons (p : Nat) (bs : List Byte) (k : Nat) (ks : List Nat) (h : Hub) :
    cyclicCapture p bs (k :: ks) h = cyclicCapture p bs ks (capturedOnce p bs k h) := rfl

theorem t1s_setT1s_self (h : Hub) (p : Nat) (x : T1sPort) : t1s (setT1s h p x) p = x := tabGet_tabSet_self _ _ _ _

theorem t1s_bump (h : Hub) (k p : Nat) : t1s (bump h k) p = t1s h p := rfl

theorem t1s_wr (h : Hub) (k v p : Nat) : t1s (wr h k v) p = t1s h p := rfl

theorem t1s_capturedOnce (p : Nat) (bs : List Byte) (k : Nat) (h : Hub) :
    t1s (capturedOnce p bs k h) p = { t1s h p with held := tabSet (t1s h p).held k (bs.drop (etherAt bs + 2), busNs h) } :=
  t1s_setT1s_self _ _ _

variable (p : Nat) (bs : List Byte)

/-- Capturing changes the port's captures and registers, nothing else. -/
theorem cyclicCapture_eq (ks : List Nat) (h : Hub) :
    cyclicCapture p bs ks h = { h with dict := (cyclicCapture p bs ks h).dict, t1s := (cyclicCapture p bs ks h).t1s } := by
  induction ks generalizing h with
  | nil => rfl
  | cons k ks ih =>
    rw [cyclicCapture_cons]
    exact (ih (capturedOnce p bs k h)).trans rfl

theorem t1s_cyclicCapture (ks : List Nat) (h : Hub) :
    t1s (cyclicCapture p bs ks h) p = { t1s h p with held := (t1s (cyclicCapture p bs ks h) p).held } := by
  induction ks generalizing h with
  | nil => rfl
  | cons k ks ih =>
    rw [cyclicCapture_cons, ih (capturedOnce p bs k h), t1s_capturedOnce]

theorem kept_cyclicCapture (ks : List Nat) (h : Hub) :
    KeptBut [(t1sStat p 0x0A, t1sStat p 0x0A)] h (cyclicCapture p bs ks h) :=
  kept_forEach (fun _ _ g => ((KeptBut.refl _ g).same rfl).trans (kept_wr (setT1s g p _) _ _)) h

theorem rd_cyclicCapture (ks : List Nat) (h : Hub) (n : ks ≠ []) : rd (cyclicCapture p bs ks h) (t1sStat p 0x0A) =
    min (rd h (t1sStat p 0x0A) + ks.length) (2 ^ 32 - 1) := by
  induction ks generalizing h with
  | nil => exact absurd rfl n
  | cons k ks ih =>
    have once : rd (capturedOnce p bs k h) (t1sStat p 0x0A) = min (rd h (t1sStat p 0x0A) + 1) (2 ^ 32 - 1) := rd_bump_self _ _
    rw [cyclicCapture_cons]
    cases ks with
    | nil => exact once
    | cons j js =>
      rw [ih _ (by simp), once]
      simp only [List.length_cons]
      omega

/-- A filter that is not of the list keeps its capture. -/
theorem held_cyclicCapture_of (ks : List Nat) (h : Hub) (k : Nat) (n : k ∉ ks) :
    tabHas (t1s (cyclicCapture p bs ks h) p).held k = tabHas (t1s h p).held k
      ∧ tabGet ([], 0) (t1s (cyclicCapture p bs ks h) p).held k = tabGet ([], 0) (t1s h p).held k := by
  induction ks generalizing h with
  | nil => exact ⟨rfl, rfl⟩
  | cons j js ih =>
    have ne : k ≠ j := fun e => n (e ▸ List.mem_cons_self)
    obtain ⟨has, get⟩ := ih (capturedOnce p bs j h) fun m => n (List.mem_cons_of_mem _ m)
    rw [cyclicCapture_cons, has, get, t1s_capturedOnce]
    exact ⟨by rw [tabHas_tabSet]; simp [Ne.symm ne], tabGet_tabSet_ne _ _ _ _ _ ne⟩

/-- Every filter of the list holds the frame's bytes and the stamp of the bus aggregate. -/
theorem held_cyclicCapture (ks : List Nat) (h : Hub) (k : Nat) (m : k ∈ ks) (d : ks.Nodup) :
    tabHas (t1s (cyclicCapture p bs ks h) p).held k = true
      ∧ tabGet ([], 0) (t1s (cyclicCapture p bs ks h) p).held k = (bs.drop (etherAt bs + 2), busNs h) := by
  induction ks generalizing h with
  | nil => simp at m
  | cons j js ih =>
    rw [cyclicCapture_cons]
    obtain ⟨out, d⟩ := List.nodup_cons.1 d
    by_cases e : k = j
    · subst e
      obtain ⟨has, get⟩ := held_cyclicCapture_of p bs js (capturedOnce p bs k h) k out
      rw [has, get, t1s_capturedOnce]
      exact ⟨by rw [tabHas_tabSet]; simp, tabGet_tabSet_self _ _ _ _⟩
    · exact ih (capturedOnce p bs j h) (by simpa [e] using m) d

end Sys2Proof.Machine
end

section
namespace Sys2Proof.Machine

/-! ### Where a frame goes -/

/-- The hub once a frame of good length is counted and captured. -/
def frameKept (p : Nat) (bs : List Byte) (h : Hub) : Hub := cyclicCapture p bs (matched p bs h) (frameCounted p h)

/-- The registers that counting and capturing a frame may write. -/
def keptRanges (p : Nat) : List (Nat × Nat) := countRanges p ++ [(t1sStat p 0x0A, t1sStat p 0x0A)]

theorem frameKept_eq (p : Nat) (bs : List Byte) (h : Hub) :
    frameKept p bs h = { h with dict := (frameKept p bs h).dict, sleep := (frameCounted p h).sleep, t1s := (frameKept p bs h).t1s } :=
  (cyclicCapture_eq p bs (matched p bs h) (frameCounted p h)).trans
    (congrArg (fun x : Hub => { x with dict := (frameKept p bs h).dict, t1s := (frameKept p bs h).t1s }) (frameCounted_eq p h))

theorem t1s_frameCounted (p q : Nat) (h : Hub) : t1s (frameCounted p h) q = t1s h q := by
  rw [frameCounted_eq]; rfl

theorem t1s_frameKept (p : Nat) (bs : List Byte) (h : Hub) : t1s (frameKept p bs h) p = { t1s h p with held := (t1s (frameKept p bs h) p).held } := by
  have e := t1s_cyclicCapture p bs (matched p bs h) (frameCounted p h)
  rwa [t1s_frameCounted] at e

theorem kept_frameKept {p : Nat} (hp : p < 4) (bs : List Byte) (h : Hub) : KeptBut (keptRanges p) h (frameKept p bs h) :=
  ((kept_frameCounted hp h).mono fun _ m => List.mem_append_left _ m).trans
    ((kept_cyclicCapture p bs _ _).mono fun _ m => List.mem_append_right _ m)

theorem frameKept_uncaptured {p : Nat} (hp : p < 4) {bs : List Byte} {h : Hub} (n : matched p bs h = []) :
    frameKept p bs h = frameCounted p h ∧ KeptBut (countRanges p) h (frameKept p bs h) := by
  have e : frameKept p bs h = frameCounted p h := by unfold frameKept; rw [n]; rfl
  exact ⟨e, e ▸ kept_frameCounted hp h⟩

/-- A register that is none of the port's counts nor of the culprit log. -/
theorem not_keptRanges {p k : Nat} (hp : p < 4) (a : k < 0x4910_00 ∨ 0x4914_00 ≤ k ∨ k % 256 ≠ 1 ∧ k % 256 ≠ 0x0A)
    (b : k < 0x4D03_01 ∨ 0x4D03_1E < k) : ∀ e ∈ keptRanges p, k < e.1 ∨ e.2 < k := by
  simp only [keptRanges, countRanges, t1sStat, slotKey, List.mem_cons, List.cons_append, List.nil_append, List.not_mem_nil, or_false,
    forall_eq_or_imp, forall_eq]
  omega

theorem not_countRanges {p k : Nat} (hp : p < 4) (a : k < 0x4910_00 ∨ 0x4914_00 ≤ k ∨ k % 256 ≠ 1)
    (b : k < 0x4D03_01 ∨ 0x4D03_1E < k) : ∀ e ∈ countRanges p, k < e.1 ∨ e.2 < k := by
  simp only [countRanges, t1sStat, slotKey, List.mem_cons, List.not_mem_nil, or_false, forall_eq_or_imp, forall_eq]
  omega

/-- A setting of the port depends on what waits to act and on its register. -/
theorem t1sSet_congr {g h : Hub} {p k : Nat} (f : (t1s g p).inForce = (t1s h p).inForce) (r : rd g (t1sCfg p k) = rd h (t1sCfg p k)) :
    t1sSet g p k = t1sSet h p k := by unfold t1sSet; rw [f, r]

theorem t1sSet_frameCounted {p : Nat} (hp : p < 4) (h : Hub) (k : Nat) (hk : k < 256) : t1sSet (frameCounted p h) p k = t1sSet h p k :=
  t1sSet_congr (by rw [t1s_frameCounted]) ((kept_frameCounted hp h).rd_eq _ (not_countRanges hp (.inl (by unfold t1sCfg slotKey; omega)) (.inl (by unfold t1sCfg slotKey; omega))))

theorem t1sSet_frameKept {p : Nat} (hp : p < 4) (bs : List Byte) (h : Hub) (k : Nat) (hk : k < 256) : t1sSet (frameKept p bs h) p k = t1sSet h p k :=
  t1sSet_congr (by rw [t1s_frameKept]) ((kept_frameKept hp bs h).rd_eq _ (not_keptRanges hp (.inl (by unfold t1sCfg slotKey; omega)) (.inl (by unfold t1sCfg slotKey; omega))))

theorem cyclicKey_lt {p k : Nat} (hp : p < 4) (hk : k < 4) : cyclicKey p k < 0x2930_00 := by unfold cyclicKey slotKey; omega

theorem rd_frameCounted_cyclic {p k : Nat} (hp : p < 4) (hk : k < 4) (h : Hub) (j : Nat) : rd (frameCounted p h) (cyclicKey p k - j) = rd h (cyclicKey p k - j) := by
  have := cyclicKey_lt hp hk
  exact (kept_frameCounted hp h).rd_eq _ (not_countRanges hp (.inl (by omega)) (.inl (by omega)))

theorem matched_frameCounted {p : Nat} (hp : p < 4) (bs : List Byte) (h : Hub) : matched p bs (frameCounted p h) = matched p bs h := by
  refine List.filter_congr fun k m => ?_
  have hk := List.mem_range.1 m
  unfold cyclicMatches
  rw [rd_frameCounted_cyclic hp hk h 1, show rd (frameCounted p h) (cyclicKey p k) = rd h (cyclicKey p k) from rd_frameCounted_cyclic hp hk h 0]

theorem addressAccepts_frameKept {p : Nat} (hp : p < 4) (bs : List Byte) (h : Hub) : addressAccepts (frameKept p bs h) p bs = addressAccepts h p bs := by
  unfold addressAccepts
  rw [t1sSet_frameKept hp _ _ _ (by decide), t1sSet_frameKept hp _ _ _ (by decide)]

theorem fifo_frameKept (p : Nat) (bs : List Byte) (h : Hub) (f : Nat) : fifo (frameKept p bs h) f = fifo h f := by
  rw [frameKept_eq]; rfl

theorem rd_frameKept_low {p : Nat} (hp : p < 4) (bs : List Byte) (h : Hub) (k : Nat) (l : k < 0x4910_00) : rd (frameKept p bs h) k = rd h k :=
  (kept_frameKept hp bs h).rd_eq _ (not_keptRanges hp (.inl l) (.inl (by omega)))

theorem fifoFrom_frameKept {p : Nat} (hp : p < 4) (bs : List Byte) (h : Hub) (kind unit : Nat) :
    fifoFrom (frameKept p bs h) kind unit = fifoFrom h kind unit := by
  unfold fifoFrom hubNumber
  have number := rd_frameKept_low hp bs h 0x2000_09 (by decide)
  have state : ∀ f ∈ List.range 128, rd (frameKept p bs h) (fifoKey f 1) = rd h (fifoKey f 1) := fun f m => by
    have := List.mem_range.1 m
    exact rd_frameKept_low hp bs h _ (by unfold fifoKey slotKey; omega)
  generalize List.range 128 = l at state
  induction l with
  | nil => rfl
  | cons f l ih =>
    simp only [List.find?_cons, fifo_frameKept, number, state f (by simp)] at ih ⊢
    rw [ih fun g m => state g (List.mem_cons_of_mem _ m)]

theorem ringAt_frameKept {p : Nat} (hp : p < 4) (bs : List Byte) (h : Hub) (k : Nat) (hk : k < 256) : ringAt (frameKept p bs h) p k = ringAt h p k := by
  unfold ringAt
  rw [t1sSet_frameKept hp _ _ _ hk]

theorem ringBase_frameKept {p : Nat} (hp : p < 4) (bs : List Byte) (h : Hub) (k : Nat) (hk : k < 256) : ringBase (frameKept p bs h) p k = ringBase h p k := by
  have number := rd_frameKept_low hp bs h 0x2000_09 (by decide)
  have canopy : (frameKept p bs h).canopy = h.canopy := by rw [frameKept_eq]
  unfold ringBase ringBuffer holding hubNumber mapEntry residence
  rw [ringAt_frameKept hp _ _ _ hk, t1sSet_frameKept hp _ _ _ (by decide), number, canopy]

/-- A frame of good length that reaches an awake port: counted, captured, then delivered. -/
theorem t1sReceive_frameKept {p : Nat} (hp : p < 4) {bs : List Byte} {sfd : Nat} {h : Hub} (on : t1sOn h p = true) (awake : t1sAsleep h p = false)
    (lo : 60 ≤ bs.length) (hi : bs.length ≤ t1sSet h p 4) :
    t1sReceive p bs true sfd h =
      if (matched p bs h).any fun k => bit (rd h (cyclicKey p k)) 18 then frameKept p bs h
      else if !addressAccepts h p bs then bump (frameKept p bs h) (t1sStat p 0x0F)
      else match fifoFrom h 3 p with
        | some f => fifoPacket f (BitVec.ofNat 48 bs.length) (BitVec.ofNat 48 sfd) 2 bs (frameKept p bs h)
        | none =>
          if (ringAt h p 0x0A).2 = 0 then bump (frameKept p bs h) (t1sStat p 5)
          else ringReceive p (((matched p bs h).map fun k => 2 ^ k).sum) bs sfd (frameKept p bs h) := by
  have same : (List.range 4).filter (fun k => cyclicMatches (frameCounted p h) p k bs) = matched p bs h := matched_frameCounted hp bs h
  have consuming : ((matched p bs h).any fun k => bit (rd (frameCounted p h) (cyclicKey p k)) 18) =
      (matched p bs h).any fun k => bit (rd h (cyclicKey p k)) 18 := by
    rw [Bool.eq_iff_iff, List.any_eq_true, List.any_eq_true]
    have e : ∀ k ∈ matched p bs h, rd (frameCounted p h) (cyclicKey p k) = rd h (cyclicKey p k) := fun k m =>
      rd_frameCounted_cyclic hp (lt_of_matched m) h 0
    exact exists_congr fun k => and_congr_right fun m => by rw [e k m]
  have arrived : cyclicCapture p bs (matched p bs h) (frameCounted p h) = frameKept p bs h := rfl
  have size : ¬ (bs.length < 60 ∨ t1sSet (frameCounted p h) p 4 < bs.length) := by rw [t1sSet_frameCounted hp _ _ (by decide)]; omega
  unfold t1sReceive
  rw [if_neg (by simp [on, awake]), if_neg (by decide)]
  have counted : wakeProductive (24 + p) (t1sActive p (bump h (t1sStat p 1))) = frameCounted p h := rfl
  refine (if_neg size).trans ?_
  rw [counted, same]
  dsimp only
  rw [consuming, arrived, addressAccepts_frameKept hp, fifoFrom_frameKept hp, ringAt_frameKept hp _ _ _ (by decide)] <;> rfl

/-- A frame too short or too long is counted as that. -/
theorem t1sReceive_badLength {p : Nat} (hp : p < 4) {bs : List Byte} {sfd : Nat} {h : Hub} (on : t1sOn h p = true) (awake : t1sAsleep h p = false)
    (bad : bs.length < 60 ∨ t1sSet h p 4 < bs.length) : t1sReceive p bs true sfd h = bump (frameCounted p h) (t1sStat p 4) := by
  have size : bs.length < 60 ∨ t1sSet (frameCounted p h) p 4 < bs.length := by rwa [t1sSet_frameCounted hp _ _ (by decide)]
  unfold t1sReceive
  rw [if_neg (by simp [on, awake]), if_neg (by decide)]
  exact if_pos size

end Sys2Proof.Machine
end

section
/-! SUPPORT. What a FIFO's watermarks, deliveries and timeouts leave as it was (R452 to R457), and a word taken by a FIFO with room. -/

namespace Sys2Proof.Machine

/-! ### Steps that leave a FIFO's words, its packer and all beside its counters -/

/-- The registers a FIFO's own work may write: its counters, the hub's FIFO counters, those of an event. -/
def fifoWorkRanges (f : Nat) : List (Nat × Nat) := (fifoKey f 0x0C, fifoKey f 0x11) :: (0x4700_01, 0x4700_08) :: eventRanges

/-- Beside FIFOs, registers of FIFO f's own work and what an event may change, nothing that a port or a crossing holds changed. -/
structure FifoWork (f : Nat) (h g : Hub) : Prop where
  ports : g.t1s = h.t1s
  crossings : g.crossings = h.crossings
  armed : g.watch.armed = h.watch.armed
  kept : KeptBut (fifoWorkRanges f) h g

variable {f : Nat} {a b c : Hub}

theorem FifoWork.refl (f : Nat) (a : Hub) : FifoWork f a a := ⟨rfl, rfl, rfl, KeptBut.refl _ a⟩

theorem FifoWork.trans (x : FifoWork f a b) (y : FifoWork f b c) : FifoWork f a c :=
  ⟨y.ports.trans x.ports, y.crossings.trans x.crossings, y.armed.trans x.armed, x.kept.trans y.kept⟩

theorem FifoWork.of_setFifo (f g : Nat) (x : Fifo) (a : Hub) : FifoWork f a (setFifo a g x) := ⟨rfl, rfl, rfl, (KeptBut.refl _ a).same rfl⟩

theorem FifoWork.of_wr (a : Hub) (v : Nat) {k : Nat} (m : fifoKey f 0x0C ≤ k ∧ k ≤ fifoKey f 0x11 ∨ 0x4700_01 ≤ k ∧ k ≤ 0x4700_08) :
    FifoWork f a (wr a k v) := by
  refine ⟨rfl, rfl, rfl, (KeptBut.refl _ a).wr _ _ ?_⟩
  rcases m with m | m
  · exact ⟨_, List.mem_cons_self, m⟩
  · exact ⟨_, List.mem_cons_of_mem _ List.mem_cons_self, m⟩

theorem FifoWork.of_raiseEvent (f : Nat) (a : Hub) {e : Nat} (i v : Nat) (he : e < 256) : FifoWork f a (raiseEvent a e i v) :=
  ⟨raiseEvent_t1s a e i v, raiseEvent_crossings a e i v, raiseEvent_watch_armed a e i v,
    (kept_raiseEvent a e i v he).mono fun _ m => List.mem_cons_of_mem _ (List.mem_cons_of_mem _ m)⟩

theorem FifoWork.of_raise16ms (f : Nat) (a : Hub) {e : Nat} (i v n : Nat) (he : e < 256) : FifoWork f a (raise16ms a e i v n) :=
  ⟨raiseKeyed_t1s _ _ _ _ _ _, raiseKeyed_crossings _ _ _ _ _ _,
    (congrArg (fun x : Hub => x.watch.armed) (noEvent_raiseKeyed a ((e * 65536 + i) * 256 + n) e i v 16000000) :),
    (kept_raiseKeyed a _ e i v _ he).mono fun _ m => List.mem_cons_of_mem _ (List.mem_cons_of_mem _ m)⟩

/-- What a FIFO has taken in and still holds: its words, the packer's bytes, whether it discards. -/
def holds (f : Nat) (h : Hub) : List (XWord × Nat) × List Byte × Bool := ((fifo h f).words, (fifo h f).packer, (fifo h f).dropping)

theorem fifo_setFifo (h : Hub) (f : Nat) (x : Fifo) : fifo (setFifo h f x) f = x := tabGet_tabSet_self _ _ _ _

theorem holds_congr (e : b.fifos = a.fifos) : holds f b = holds f a := by unfold holds fifo; rw [e]

theorem holds_setFifo {x : Fifo} (e : (x.words, x.packer, x.dropping) = holds f a) : holds f (setFifo a f x) = holds f a := by
  unfold holds at *
  rw [fifo_setFifo, e]

/-- FIFO f holds what it held, and no more than its own work was done. -/
structure FifoQuiet (f : Nat) (h g : Hub) : Prop where
  holds : holds f g = holds f h
  work : FifoWork f h g

theorem FifoQuiet.refl (f : Nat) (a : Hub) : FifoQuiet f a a := ⟨rfl, .refl f a⟩

theorem FifoQuiet.trans (x : FifoQuiet f a b) (y : FifoQuiet f b c) : FifoQuiet f a c := ⟨y.holds.trans x.holds, x.work.trans y.work⟩

theorem FifoQuiet.setFifo (x : FifoQuiet f a b) {y : Fifo} (e : (y.words, y.packer, y.dropping) = Machine.holds f b) :
    FifoQuiet f a (setFifo b f y) := x.trans ⟨holds_setFifo e, .of_setFifo f f y b⟩

theorem FifoQuiet.wr (x : FifoQuiet f a b) (v : Nat) {k : Nat}
    (m : fifoKey f 0x0C ≤ k ∧ k ≤ fifoKey f 0x11 ∨ 0x4700_01 ≤ k ∧ k ≤ 0x4700_08) : FifoQuiet f a (wr b k v) :=
  x.trans ⟨holds_congr rfl, .of_wr b v m⟩

theorem FifoQuiet.bump (x : FifoQuiet f a b) {k : Nat}
    (m : fifoKey f 0x0C ≤ k ∧ k ≤ fifoKey f 0x11 ∨ 0x4700_01 ≤ k ∧ k ≤ 0x4700_08) : FifoQuiet f a (bump b k) := x.wr _ m

theorem FifoQuiet.raiseEvent (x : FifoQuiet f a b) {e : Nat} (i v : Nat) (he : e < 256) : FifoQuiet f a (raiseEvent b e i v) :=
  x.trans ⟨holds_congr (raiseEvent_fifos b e i v), .of_raiseEvent f b i v he⟩

theorem FifoQuiet.raise16ms (x : FifoQuiet f a b) {e : Nat} (i v n : Nat) (he : e < 256) : FifoQuiet f a (raise16ms b e i v n) :=
  x.trans ⟨holds_congr (raiseKeyed_fifos b _ e i v _), .of_raise16ms f b i v n he⟩

theorem fifoDeliver_quiet (f : Nat) (h : Hub) : FifoQuiet f h (fifoDeliver f h) := by
  unfold fifoDeliver
  dsimp only
  split
  · refine FifoQuiet.setFifo (.refl f h) ?_
    rfl
  · split
    · refine FifoQuiet.raiseEvent (FifoQuiet.setFifo (.refl f h) ?_) _ _ (by decide)
      rfl
    · exact .refl f h

theorem idleExpiry_quiet (f : Nat) (h : Hub) : FifoQuiet f h (idleExpiry f h) := by
  unfold idleExpiry
  dsimp only
  split
  · have counted : FifoQuiet f h (bump (setFifo h f { fifo h f with lastCommit := none }) 0x4700_08) := by
      refine FifoQuiet.bump (FifoQuiet.setFifo (.refl f h) ?_) (.inr ⟨by decide, by decide⟩)
      rfl
    unfold whenDo
    split
    · exact counted.trans (fifoDeliver_quiet f _)
    · exact counted
  · exact .refl f h

theorem stopExpiry_quiet (f : Nat) (h : Hub) : FifoQuiet f h (stopExpiry f h) := by
  unfold stopExpiry
  dsimp only
  split
  · refine FifoQuiet.raiseEvent (FifoQuiet.bump (FifoQuiet.setFifo (.refl f h) ?_) (.inr ⟨by decide, by decide⟩)) _ _ (by decide)
    rfl
  · exact .refl f h

theorem fifoKey_work (f : Nat) {j : Nat} (lo : 0x0C ≤ j) (hi : j ≤ 0x11) : fifoKey f 0x0C ≤ fifoKey f j ∧ fifoKey f j ≤ fifoKey f 0x11 := by
  unfold fifoKey slotKey; omega

theorem fifoWatermark_quiet (f : Nat) (h : Hub) : FifoQuiet f h (fifoWatermark f h) := by
  unfold fifoWatermark
  dsimp only
  split
  · exact .refl f h
  · split
    · have stopped : FifoQuiet f h (bump (setFifo h f { fifo h f with stop := true, stopAt := stampNs h 0, reported := false }) (fifoKey f 0x11)) := by
        refine FifoQuiet.bump (FifoQuiet.setFifo (.refl f h) ?_) (.inl (fifoKey_work f (by decide) (by decide)))
        rfl
      exact (stopped.raise16ms _ _ _ (by decide)).trans (fifoDeliver_quiet f _)
    · split
      · refine FifoQuiet.setFifo (stopExpiry_quiet f h) ?_
        rfl
      · exact .refl f h

theorem capacity_of_work (hf : f < 128) (x : FifoWork f a b) : fifoCapacity b f = fifoCapacity a f := by
  unfold fifoCapacity
  have o : ∀ e ∈ fifoWorkRanges f, fifoKey f 3 < e.1 ∨ e.2 < fifoKey f 3 := by
    simp only [fifoWorkRanges, eventRanges, fifoKey, slotKey, List.mem_cons, List.not_mem_nil, or_false, forall_eq_or_imp, forall_eq]
    omega
  rw [x.kept.rd_eq _ o]

end Sys2Proof.Machine
end

section
namespace Sys2Proof.Machine

/-! ### A word taken by a FIFO with room -/

/-- FIFO f takes words and has room for n more. -/
structure FifoRoom (f n : Nat) (h : Hub) : Prop where
  inRange : f < 128
  armed : h.watch.armed = []
  taking : (fifo h f).dropping = false
  room : (fifo h f).words.length + n < fifoCapacity h f

variable {f : Nat} {a b c : Hub}

theorem takeInjection_clear {m : Nat} {h : Hub} (i : h.watch.armed = []) : takeInjection m h = (0, h) := by
  simp [takeInjection, takeInjectionAt, i]

/-- A FIFO below its capacity discards nothing. -/
theorem fifoOversize_room {f : Nat} {h : Hub} (l : fifoFill (fifo h f) < fifoCapacity h f) : fifoOversize f h = h := by
  unfold fifoOversize
  dsimp only
  rw [if_neg]
  simp only [Bool.and_eq_true, decide_eq_true_eq]
  omega

theorem FifoQuiet.parts (q : FifoQuiet f a b) :
    (fifo b f).words = (fifo a f).words ∧ (fifo b f).packer = (fifo a f).packer ∧ (fifo b f).dropping = (fifo a f).dropping := by
  have e := q.holds
  unfold Machine.holds at e
  simpa using e

/-- A word committed with no packer bytes pending and room left: stored after the others, nothing discarded. -/
theorem fifoCommit_room {w : XWord} {h : Hub} (r : FifoRoom f 1 h) (p : (fifo h f).packer = []) :
    FifoWork f h (fifoCommit f w h) ∧ (fifo (fifoCommit f w h) f).words.map (·.1) = (fifo h f).words.map (·.1) ++ [storedWord w]
      ∧ (fifo (fifoCommit f w h) f).packer = [] ∧ (fifo (fifoCommit f w h) f).dropping = false := by
  have idle := idleExpiry_quiet f h
  unfold fifoCommit
  obtain ⟨words, packer, dropping⟩ := idle.parts
  have armed : (idleExpiry f h).watch.armed = [] := idle.work.armed.trans r.armed
  have cap : fifoCapacity (idleExpiry f h) f = fifoCapacity h f := capacity_of_work r.inRange idle.work
  have work := idle.work
  generalize idleExpiry f h = g at *
  dsimp only
  rw [if_neg (by rw [dropping, r.taking]; decide), takeInjection_clear armed]
  dsimp only
  generalize hy : ({ fifo g f with
      words := (fifo g f).words ++ [(storedWord w, (fifo g f).wIdx)], errors := if 0 = 0 then (fifo g f).errors else (fifo g f).errors ++ [((fifo g f).wIdx, 0)],
      wIdx := ((fifo g f).wIdx + 1) % 2 ^ 24, lastCommit := some (stampNs g 0) } : Fifo) = y
  have yWords : y.words = (fifo g f).words ++ [(storedWord w, (fifo g f).wIdx)] := by rw [← hy]
  have yPacker : y.packer = [] := by rw [← hy]; exact packer.trans p
  have yTaking : y.dropping = false := by rw [← hy]; exact dropping.trans r.taking
  have stored : FifoWork f h (setFifo g f y) := work.trans (.of_setFifo f f y g)
  have counted : FifoQuiet f (setFifo g f y) (peak (bump (setFifo g f y) (fifoKey f 0x0D)) (fifoKey f 0x0C) (fifoFill (fifo (setFifo g f y) f))) :=
    ((FifoQuiet.refl f _).bump (.inl (fifoKey_work f (by decide) (by decide)))).wr _ (.inl (fifoKey_work f (by decide) (by decide)))
  generalize peak (bump (setFifo g f y) (fifoKey f 0x0D)) (fifoKey f 0x0C) (fifoFill (fifo (setFifo g f y) f)) = h2 at *
  have delivered : FifoQuiet f (setFifo g f y) (if w.endMark then fifoDeliver f h2 else h2) := by
    split
    · exact counted.trans (fifoDeliver_quiet f h2)
    · exact counted
  generalize (if w.endMark then fifoDeliver f h2 else h2) = h3 at *
  have h3Parts := delivered.parts
  rw [fifo_setFifo] at h3Parts
  have cap3 : fifoCapacity h3 f = fifoCapacity h f := capacity_of_work r.inRange (stored.trans delivered.work)
  have fill : fifoFill (fifo h3 f) < fifoCapacity h3 f := by
    unfold fifoFill
    rw [h3Parts.1, h3Parts.2.1, yWords, yPacker, cap3, words]
    have := r.room
    simp only [List.length_append, List.length_singleton, List.isEmpty_nil, if_true]
    omega
  rw [fifoOversize_room fill]
  have last := delivered.trans (fifoWatermark_quiet f h3)
  obtain ⟨lastWords, lastPacker, lastTaking⟩ := last.parts
  rw [fifo_setFifo] at lastWords lastPacker lastTaking
  refine ⟨stored.trans last.work, ?_, lastPacker.trans yPacker, lastTaking.trans yTaking⟩
  rw [lastWords, yWords, words, List.map_append, List.map_singleton]

/-- What follows the words of FIFO f: `add` was stored, `packer` is pending, and it goes on taking words. -/
structure FifoGrown (f : Nat) (add : List XWord) (packer : List Byte) (h g : Hub) : Prop where
  work : FifoWork f h g
  words : (fifo g f).words.map (·.1) = (fifo h f).words.map (·.1) ++ add
  packer : (fifo g f).packer = packer
  taking : (fifo g f).dropping = false

theorem FifoGrown.trans {x y : List XWord} {p q : List Byte} (u : FifoGrown f x p a b) (v : FifoGrown f y q b c) : FifoGrown f (x ++ y) q a c :=
  ⟨u.work.trans v.work, by rw [v.words, u.words, List.append_assoc], v.packer, v.taking⟩

theorem FifoGrown.room {n m : Nat} {x : List XWord} {p : List Byte} (u : FifoGrown f x p a b) (r : FifoRoom f n a) (l : m + x.length = n) :
    FifoRoom f m b := by
  refine ⟨r.inRange, u.work.armed.trans r.armed, u.taking, ?_⟩
  have e := congrArg List.length u.words
  simp only [List.length_map, List.length_append] at e
  rw [capacity_of_work r.inRange u.work]
  have := r.room
  omega

theorem fifoStore_grown {w : XWord} {h : Hub} (r : FifoRoom f 1 h) (p : (fifo h f).packer = []) :
    FifoGrown f [storedWord w] [] h (fifoStore f w h) := by
  obtain ⟨work, words, packer, taking⟩ := fifoCommit_room (w := w) r p
  have e : fifoStore f w h = fifoCommit f w h := by
    unfold fifoStore fifoFlushPacker
    rw [if_pos (by rw [p]; rfl)]
  rw [e]
  exact ⟨work, words, packer, taking⟩

/-- The word a packer's bytes make. -/
def packedWord (bs : List Byte) (last : Bool) : XWord := { data := BitVec.ofNat 48 (bytesNat bs), poison := false, endMark := last, count := bs.length }

/-- A packer with bytes is committed as one word. -/
theorem flushed_grown {q : List Byte} {last : Bool} {h : Hub} (x : Fifo) (hx : x.words = (fifo h f).words ∧ x.dropping = (fifo h f).dropping)
    (n : x.packer = q) (ne : q ≠ []) (r : FifoRoom f 1 h) :
    FifoGrown f [storedWord (packedWord q last)] [] h (fifoFlushPacker f last (setFifo h f x)) := by
  subst n
  obtain ⟨xWords, xTaking⟩ := hx
  have first : FifoWork f h (setFifo (setFifo h f x) f { x with packer := [] }) := (FifoWork.of_setFifo f f x h).trans (.of_setFifo f f _ _)
  have e : fifoFlushPacker f last (setFifo h f x) = fifoCommit f (packedWord x.packer last) (setFifo (setFifo h f x) f { x with packer := [] }) := by
    unfold fifoFlushPacker packedWord
    rw [fifo_setFifo]
    exact if_neg (by simpa using ne)
  have held : fifo (setFifo (setFifo h f x) f { x with packer := [] }) f = { x with packer := [] } := fifo_setFifo _ _ _
  have room : FifoRoom f 1 (setFifo (setFifo h f x) f { x with packer := [] }) := by
    refine ⟨r.inRange, first.armed.trans r.armed, by rw [held]; exact xTaking.trans r.taking, ?_⟩
    rw [held, capacity_of_work r.inRange first]
    dsimp only
    rw [xWords]
    exact r.room
  obtain ⟨work, words, packer, taking⟩ := fifoCommit_room (w := packedWord x.packer last) room (by rw [held])
  rw [e]
  refine ⟨first.trans work, ?_, packer, taking⟩
  rw [words, held]
  dsimp only
  rw [xWords]

end Sys2Proof.Machine
end

section
namespace Sys2Proof.Machine

/-! ### A frame's bytes in a FIFO, two at a time -/

variable {f : Nat} {a b c : Hub}

theorem packByte_pending {x : Byte} {q : List Byte} {h : Hub} (p : (fifo h f).packer = q) (l : q.length + 1 < 6) (t : (fifo h f).dropping = false) :
    FifoGrown f [] (q ++ [x]) h (fifoPackByte f x h) := by
  have e : fifoPackByte f x h = fifoWatermark f (setFifo h f { fifo h f with packer := q ++ [x] }) := by
    subst p
    exact if_neg (by omega)
  have w := fifoWatermark_quiet f (setFifo h f { fifo h f with packer := q ++ [x] })
  obtain ⟨words, packer, taking⟩ := w.parts
  rw [fifo_setFifo] at words packer taking
  rw [e]
  exact ⟨(FifoWork.of_setFifo f f _ h).trans w.work, by rw [words, List.append_nil], packer, taking.trans t⟩

theorem packByte_full {x : Byte} {q : List Byte} {h : Hub} (p : (fifo h f).packer = q) (l : q.length = 5) (r : FifoRoom f 1 h) :
    FifoGrown f [storedWord (packedWord (q ++ [x]) false)] [] h (fifoPackByte f x h) := by
  have e : fifoPackByte f x h = fifoFlushPacker f false (setFifo h f { fifo h f with packer := q ++ [x] }) := by
    subst p
    exact if_pos (by omega)
  rw [e]
  exact flushed_grown _ ⟨rfl, rfl⟩ rfl (by simp) r

/-- The last byte of an odd frame commits the packer with the end mark. -/
theorem packUnit_lastByte {x : Byte} {q : List Byte} {h : Hub} (p : (fifo h f).packer = q) (r : FifoRoom f 1 h) :
    FifoGrown f [storedWord (packedWord (q ++ [x]) true)] [] h (fifoPackUnit f [x] true h) := by
  have e : fifoPackUnit f [x] true h = fifoFlushPacker f true (setFifo h f { fifo h f with packer := q ++ [x] }) := by
    subst p
    rfl
  rw [e]
  exact flushed_grown _ ⟨rfl, rfl⟩ rfl (by simp) r

/-- The last two bytes of an even frame commit the packer with the end mark. -/
theorem packUnit_lastPair {x y : Byte} {q : List Byte} {h : Hub} (p : (fifo h f).packer = q) (l : q.length + 1 < 6) (r : FifoRoom f 1 h) :
    FifoGrown f [storedWord (packedWord (q ++ [x, y]) true)] [] h (fifoPackUnit f [x, y] true h) := by
  have pair : q ++ [x, y] = q ++ [x] ++ [y] := by simp
  have first := packByte_pending (x := x) p l r.taking
  have e : fifoPackUnit f [x, y] true h = fifoFlushPacker f true (setFifo (fifoPackByte f x h) f
      { fifo (fifoPackByte f x h) f with packer := q ++ [x] ++ [y] }) := by
    rw [← first.packer]
    rfl
  have second := flushed_grown (last := true) { fifo (fifoPackByte f x h) f with packer := q ++ [x] ++ [y] } ⟨rfl, rfl⟩ rfl (by simp)
    (first.room (m := 1) r rfl)
  rw [e, pair]
  exact first.trans second

theorem packUnit_eq (x y : Byte) (h : Hub) : fifoPackUnit f [x, y] false h = fifoPackByte f y (fifoPackByte f x h) := rfl

/-- Two more bytes that do not fill the packer. -/
theorem packUnit_pending {x y : Byte} {q : List Byte} {h : Hub} (p : (fifo h f).packer = q) (l : q.length + 2 < 6) (t : (fifo h f).dropping = false) :
    FifoGrown f [] (q ++ [x, y]) h (fifoPackUnit f [x, y] false h) := by
  have pair : q ++ [x, y] = q ++ [x] ++ [y] := by simp
  have first := packByte_pending (x := x) p (by omega) t
  have second := packByte_pending (x := y) first.packer (by simp; omega) first.taking
  rw [packUnit_eq, pair]
  exact first.trans second

/-- Two more bytes that fill it. -/
theorem packUnit_full {x y : Byte} {q : List Byte} {h : Hub} (p : (fifo h f).packer = q) (l : q.length = 4) (r : FifoRoom f 1 h) :
    FifoGrown f [storedWord (packedWord (q ++ [x, y]) false)] [] h (fifoPackUnit f [x, y] false h) := by
  have pair : q ++ [x, y] = q ++ [x] ++ [y] := by simp
  have first := packByte_pending (x := x) p (by omega) r.taking
  have second := packByte_full (x := y) first.packer (by simp; omega) (first.room r rfl)
  rw [packUnit_eq, pair]
  exact first.trans second

/-- The n words a packet's bytes make: six bytes to a word, the end mark on the last. -/
def packetWords : Nat → List Byte → List XWord
  | 0, _ => []
  | 1, q => [storedWord (packedWord q true)]
  | n + 2, q => storedWord (packedWord (q.take 6) false) :: packetWords (n + 1) (q.drop 6)

theorem unitsOf_nil (n k : Nat) : unitsOf n k [] = [] := by cases k <;> rfl

/-- One unit of a packet, marked where it is the last of `total`. -/
def packNth (f total : Nat) (u : List Byte × Nat) (h : Hub) : Hub := fifoPackUnit f u.1 (u.2 + 1 == total) h

theorem forEach_cons {α : Type} (x : α) (l : List α) (g : α → Hub → Hub) (h : Hub) : forEach (x :: l) g h = forEach l g (g x h) := rfl

/-- The rest of a packet goes into the FIFO word by word, after what the packer holds. -/
theorem packRest_grown (k : Nat) : ∀ (bs q : List Byte) (i total n : Nat) (h : Hub), bs ≠ [] → bs.length ≤ k →
    total = i + (unitsOf 2 k bs).length → (fifo h f).packer = q → q.length = 0 ∨ q.length = 2 ∨ q.length = 4 →
    n = ((q ++ bs).length + 5) / 6 → FifoRoom f n h →
    FifoGrown f (packetWords n (q ++ bs)) [] h (forEach ((unitsOf 2 k bs).zipIdx i) (packNth f total) h) := by
  induction k with
  | zero =>
    intro bs q i total n h ne l
    exact absurd (List.eq_nil_of_length_eq_zero (by omega)) ne
  | succ k ih =>
    intro bs q i total n h ne l ht p even hn r
    have one : FifoRoom f 1 h := ⟨r.inRange, r.armed, r.taking, by
      have := r.room
      have : 1 ≤ bs.length := List.length_pos_of_ne_nil ne
      simp only [List.length_append] at hn
      omega⟩
    match bs, ne, l, ht, hn with
    | [x], _, _, ht, hn =>
      have units : unitsOf 2 (k + 1) [x] = [[x]] := by
        change [x] :: unitsOf 2 k [] = [[x]]
        rw [unitsOf_nil]
      rw [units] at ht ⊢
      have last : packNth f total ([x], i) h = fifoPackUnit f [x] true h := by
        unfold packNth; rw [ht]; simp
      have n1 : n = 1 := by simp only [List.length_append, List.length_singleton] at hn; omega
      change FifoGrown f _ [] h (packNth f total ([x], i) h)
      rw [last, n1]
      exact packUnit_lastByte p one
    | [x, y], _, _, ht, hn =>
      have units : unitsOf 2 (k + 1) [x, y] = [[x, y]] := by
        change [x, y] :: unitsOf 2 k [] = [[x, y]]
        rw [unitsOf_nil]
      rw [units] at ht ⊢
      have last : packNth f total ([x, y], i) h = fifoPackUnit f [x, y] true h := by
        unfold packNth; rw [ht]; simp
      have n1 : n = 1 := by simp only [List.length_append, List.length_cons, List.length_nil] at hn; omega
      change FifoGrown f _ [] h (packNth f total ([x, y], i) h)
      rw [last, n1]
      exact packUnit_lastPair p (by omega) one
    | x :: y :: z :: rest, _, l, ht, hn =>
      have units : unitsOf 2 (k + 1) (x :: y :: z :: rest) = [x, y] :: unitsOf 2 k (z :: rest) := rfl
      have more : 1 ≤ (unitsOf 2 k (z :: rest)).length := by
        obtain ⟨j, rfl⟩ : ∃ j, k = j + 1 := ⟨k - 1, by simp only [List.length_cons] at l; omega⟩
        simp [unitsOf]
      rw [units] at ht ⊢
      simp only [List.length_cons] at ht l
      have inner : packNth f total ([x, y], i) h = fifoPackUnit f [x, y] false h := by
        unfold packNth
        rw [show (i + 1 == total) = false by simp; omega]
      rw [List.zipIdx_cons, forEach_cons, inner]
      have left : q ++ x :: y :: z :: rest = (q ++ [x, y]) ++ z :: rest := by simp
      simp only [List.length_append, List.length_cons] at hn
      by_cases full : q.length = 4
      · obtain ⟨m, rfl⟩ : ∃ m, n = m + 2 := ⟨n - 2, by omega⟩
        have first := packUnit_full (x := x) (y := y) p full one
        have then_ := ih (z :: rest) [] (i + 1) total (m + 1) _ (by simp) (by simp only [List.length_cons]; omega) (by omega) first.packer (by simp)
          (by simp only [List.nil_append, List.length_cons]; omega) (first.room r (by simp))
        have six : (q ++ [x, y]).length = 6 := by simp; omega
        have head : (q ++ x :: y :: z :: rest).take 6 = q ++ [x, y] := by rw [left, ← six, List.take_left']; rfl
        have tail : (q ++ x :: y :: z :: rest).drop 6 = z :: rest := by rw [left, ← six, List.drop_left']; rfl
        have both := first.trans then_
        unfold packetWords
        rw [head, tail]
        exact both
      · have first := packUnit_pending (x := x) (y := y) p (by omega) r.taking
        have then_ := ih (z :: rest) (q ++ [x, y]) (i + 1) total n _ (by simp) (by simp only [List.length_cons]; omega) (by omega) first.packer
          (by simp only [List.length_append, List.length_cons, List.length_nil]; omega)
          (by simp only [List.length_append, List.length_cons, List.length_nil]; omega) (first.room r (by simp))
        rw [left]
        exact first.trans then_

end Sys2Proof.Machine
end

section
namespace Sys2Proof.Machine

/-! ### A frame as a packet of a FIFO -/

theorem bytesNat_lt (bs : List Byte) : bytesNat bs < 256 ^ bs.length := by
  induction bs with
  | nil => simp [bytesNat]
  | cons b bs ih =>
    simp only [bytesNat, List.length_cons, Nat.pow_succ]
    have := b.isLt
    omega

theorem natBytes_bytesNat (bs : List Byte) : natBytes bs.length (bytesNat bs) = bs := by
  induction bs with
  | nil => rfl
  | cons b bs ih =>
    have := b.isLt
    simp only [List.length_cons, natBytes, bytesNat]
    rw [show (b.toNat + 256 * bytesNat bs) / 256 = bytesNat bs by omega, ih]
    congr 1
    apply BitVec.eq_of_toNat_eq
    simp only [BitVec.toNat_ofNat]
    omega

/-- A word of one to six bytes, as it is stored, gives them back. -/
theorem stored_packedWord {bs : List Byte} (last : Bool) (lo : bs ≠ []) (hi : bs.length ≤ 6) :
    (storedWord (packedWord bs last)).endMark = last
      ∧ natBytes (storedWord (packedWord bs last)).count (storedWord (packedWord bs last)).data.toNat = bs := by
  refine ⟨rfl, ?_⟩
  have pos := List.length_pos_of_ne_nil lo
  have fits : bytesNat bs < 2 ^ (8 * bs.length) := by
    have e := bytesNat_lt bs
    rwa [show 256 = 2 ^ 8 by rfl, ← Nat.pow_mul] at e
  have wide : bytesNat bs < 2 ^ 48 := lt_of_lt_of_le fits (Nat.pow_le_pow_right (by decide) (by omega))
  have count : (storedWord (packedWord bs last)).count = bs.length := if_neg (show ¬ (bs.length = 0 ∨ 6 < bs.length) by omega)
  have data : (storedWord (packedWord bs last)).data.toNat = bytesNat bs := by
    change (storedData (packedWord bs last)).toNat = _
    unfold storedData packedWord
    dsimp only
    rw [if_neg (by omega), BitVec.toNat_ofNat, BitVec.toNat_ofNat, Nat.mod_eq_of_lt wide, Nat.mod_eq_of_lt fits, Nat.mod_eq_of_lt wide]
  rw [count, data, natBytes_bytesNat]

theorem length_packetWords (n : Nat) (bs : List Byte) : (packetWords n bs).length = n := by
  induction n generalizing bs with
  | zero => rfl
  | succ n ih =>
    cases n with
    | zero => rfl
    | succ n => exact congrArg (· + 1) (ih (bs.drop 6))

/-- The end mark stands on the last word alone. -/
theorem endMarks_packetWords (n : Nat) (bs : List Byte) : (packetWords (n + 1) bs).map (·.endMark) = List.replicate n false ++ [true] := by
  induction n generalizing bs with
  | zero => rfl
  | succ n ih =>
    change false :: (packetWords (n + 1) (bs.drop 6)).map (·.endMark) = _
    rw [ih]
    rfl

/-- The words of a packet give its bytes back. -/
theorem bytes_packetWords (n : Nat) (bs : List Byte) (h : n = (bs.length + 5) / 6) :
    ((packetWords n bs).flatMap fun w => natBytes w.count w.data.toNat) = bs := by
  induction n generalizing bs with
  | zero => exact (List.eq_nil_of_length_eq_zero (by omega)).symm
  | succ n ih =>
    have ne : bs ≠ [] := fun e => by subst e; simp at h
    cases n with
    | zero =>
      change natBytes (storedWord (packedWord bs true)).count (storedWord (packedWord bs true)).data.toNat ++ [] = bs
      rw [(stored_packedWord true ne (by omega)).2, List.append_nil]
    | succ n =>
      have six : (bs.take 6).length = 6 := by rw [List.length_take]; omega
      change natBytes (storedWord (packedWord (bs.take 6) false)).count (storedWord (packedWord (bs.take 6) false)).data.toNat
        ++ (packetWords (n + 1) (bs.drop 6)).flatMap _ = bs
      rw [(stored_packedWord false (fun e => by rw [e] at six; simp at six) (by omega)).2, ih _ (by rw [List.length_drop]; omega),
        List.take_append_drop]

/-- The crossing from the bus aggregate into the FIFOs takes words at once, unchanged. -/
def busOpen (h : Hub) : Prop := crossingShut h 0x10 0 = false ∧ (crossing h 0x10 0).entries = []

variable {f : Nat}

theorem busOpen_of_work {a b : Hub} (hf : f < 128) (x : FifoWork f a b) (o : busOpen a) : busOpen b := by
  have regs : ∀ k, k = 0x2000_01 ∨ k = 0x4D11_09 → rd b k = rd a k := fun k hk => x.kept.rd_eq _ (by
    simp only [fifoWorkRanges, eventRanges, fifoKey, slotKey, List.mem_cons, List.not_mem_nil, or_false, forall_eq_or_imp, forall_eq]
    omega)
  have same : crossing b 0x10 0 = crossing a 0x10 0 := by unfold crossing; rw [x.crossings]
  have closed : crossingClosed b 0x10 0 = crossingClosed a 0x10 0 := by
    simp only [crossingClosed, islandClosed, islandDomain, domainClosed, domainState, mode, regs _ (.inl rfl)]
    rfl
  unfold busOpen crossingShut at *
  rw [same, closed]
  exact o

theorem storedWord_whole (v : Word) (e : Bool) :
    storedWord { data := v, poison := false, endMark := e, count := 6 } = { data := v, poison := false, endMark := e, count := 6 } := by
  have data : storedData { data := v, poison := false, endMark := e, count := 6 } = v := by
    apply BitVec.eq_of_toNat_eq
    have := v.isLt
    simp only [storedData]
    rw [if_neg (by decide), BitVec.toNat_ofNat]
    omega
  unfold storedWord
  rw [data]
  rfl

theorem busWord_grown {w : XWord} {h : Hub} (o : busOpen h) (r : FifoRoom f 1 h) (p : (fifo h f).packer = []) :
    FifoGrown f [storedWord w] [] h (busWord f w h) := by
  have clear : (takeParity 0x10 0 h).1 = false := by
    unfold takeParity
    rw [r.armed]
    rfl
  have e : busWord f w h = fifoStore f w h := by
    unfold busWord crossWord
    rw [if_neg (by rw [o.1]; decide), if_neg (by rw [clear]; decide), if_pos o.2]
    rfl
  rw [e]
  exact fifoStore_grown r p

/-- A frame over an open crossing, with room in the FIFO: two whole words, then its bytes with the end mark on the last word. -/
theorem fifoPacket_grown {w0 w1 : Word} {bs : List Byte} {n : Nat} {h : Hub} (o : busOpen h) (hn : n = (bs.length + 5) / 6) (ne : bs ≠ [])
    (r : FifoRoom f (2 + n) h) (p : (fifo h f).packer = []) :
    FifoGrown f ({ data := w0, poison := false, endMark := false, count := 6 } :: { data := w1, poison := false, endMark := false, count := 6 }
      :: packetWords n bs) [] h (fifoPacket f w0 w1 2 bs h) := by
  have space : ¬ fifoCapacity h f < fifoFill (fifo h f) + (2 + (bs.length + 5) / 6) := by
    have := r.room
    unfold fifoFill
    rw [p]
    simp only [List.isEmpty_nil, if_true]
    omega
  have first := busWord_grown (w := { data := w0, poison := false, endMark := false, count := 6 }) o
    ⟨r.inRange, r.armed, r.taking, by have := r.room; omega⟩ p
  have second := busWord_grown (w := { data := w1, poison := false, endMark := bs.isEmpty, count := 6 })
    (busOpen_of_work r.inRange first.work o) (first.room (m := 1) (n := 2) ⟨r.inRange, r.armed, r.taking, by have := r.room; omega⟩ rfl) first.packer
  have two := first.trans second
  have bytes := packRest_grown bs.length bs [] 0 (unitsOf 2 bs.length bs).length n _ ne le_rfl (by omega) two.packer (.inl rfl) (by simpa using hn)
    (two.room r (by simp only [List.length_append, List.length_singleton]; omega))
  have all := two.trans bytes
  have noBytes : bs.isEmpty = false := by simpa using ne
  rw [storedWord_whole, storedWord_whole, noBytes] at all
  have e : fifoPacket f w0 w1 2 bs h = forEach ((unitsOf 2 bs.length bs).zipIdx 0) (packNth f (unitsOf 2 bs.length bs).length)
      (busWord f { data := w1, poison := false, endMark := bs.isEmpty, count := 6 }
        (busWord f { data := w0, poison := false, endMark := false, count := 6 } h)) := by
    unfold fifoPacket
    rw [if_neg (by rw [o.1]; decide)]
    exact if_neg space
  rw [e, noBytes]
  exact all

end Sys2Proof.Machine
end

section
namespace Sys2Proof.Machine

/-! ### What a packet leaves of the ports -/

/-- The registers that a packet's way into a FIFO may write. -/
def streamRanges : List (Nat × Nat) := (0x3200_00, 0x327F_FF) :: (0x4700_01, 0x4700_08) :: faultRanges

/-- The ports are as before, and no register outside a packet's way is written. -/
structure PortsKept (h g : Hub) : Prop where
  ports : g.t1s = h.t1s
  kept : KeptBut streamRanges h g

variable {f : Nat} {a b c : Hub}

theorem PortsKept.refl (a : Hub) : PortsKept a a := ⟨rfl, KeptBut.refl _ a⟩

theorem PortsKept.trans (x : PortsKept a b) (y : PortsKept b c) : PortsKept a c := ⟨y.ports.trans x.ports, x.kept.trans y.kept⟩

/-- Registers and ports alike but for what the step names: the same. -/
theorem PortsKept.same (x : PortsKept a b) (p : c.t1s = b.t1s) (d : c.dict = b.dict) : PortsKept a c := ⟨p.trans x.ports, x.kept.same d⟩

theorem PortsKept.of_work (hf : f < 128) (x : FifoWork f a b) : PortsKept a b := by
  refine ⟨x.ports, fun k n => x.kept k ?_⟩
  simp only [streamRanges, faultRanges, fifoWorkRanges, eventRanges, fifoKey, slotKey, List.mem_cons, List.not_mem_nil, or_false, forall_eq_or_imp,
    forall_eq] at n ⊢
  omega

theorem PortsKept.wr (x : PortsKept a b) (v : Nat) {k : Nat} (m : 0x3200_00 ≤ k ∧ k ≤ 0x327F_FF ∨ 0x4700_01 ≤ k ∧ k ≤ 0x4700_08) :
    PortsKept a (wr b k v) := by
  refine ⟨x.ports, x.kept.wr _ _ ?_⟩
  rcases m with m | m
  · exact ⟨_, List.mem_cons_self, m⟩
  · exact ⟨_, List.mem_cons_of_mem _ List.mem_cons_self, m⟩

theorem PortsKept.setFifo (x : PortsKept a b) (f : Nat) (y : Fifo) : PortsKept a (setFifo b f y) := x.same rfl rfl

theorem PortsKept.setCrossing (x : PortsKept a b) (s d : Nat) (y : Crossing) : PortsKept a (setCrossing b s d y) := x.same rfl rfl

theorem PortsKept.watch (x : PortsKept a b) (w : Watch) : PortsKept a { b with watch := w } := x.same rfl rfl

theorem PortsKept.raiseEvent (x : PortsKept a b) {e : Nat} (i v : Nat) (he : e < 256) : PortsKept a (raiseEvent b e i v) :=
  ⟨(raiseEvent_t1s b e i v).trans x.ports, x.kept.after_raiseEvent e i v he fun _ m => by simp [streamRanges, faultRanges, m]⟩

theorem PortsKept.raiseFault (x : PortsKept a b) (e i v w : Nat) : PortsKept a (raiseFault e i v w b) :=
  ⟨(raiseFault_t1s e i v w b).trans x.ports, x.kept.after_raiseFault e i v w fun _ m => by simp [streamRanges, m]⟩

theorem PortsKept.forEach {α : Type} {l : List α} {g : α → Hub → Hub} (e : ∀ x ∈ l, ∀ h, PortsKept h (g x h)) (h : Hub) :
    PortsKept h (forEach l g h) :=
  ⟨forEach_same Hub.t1s l g h fun x m y => (e x m y).ports, kept_forEach (fun x m y => (e x m y).kept) h⟩

theorem fifoKey_stream (hf : f < 128) {j : Nat} (hj : j < 256) : 0x3200_00 ≤ fifoKey f j ∧ fifoKey f j ≤ 0x327F_FF := by
  unfold fifoKey slotKey; omega

theorem portsKept_takeInjection (m : Nat) (h : Hub) : PortsKept h (takeInjection m h).2 := by
  unfold takeInjection takeInjectionAt
  split
  · exact .refl h
  · exact (PortsKept.refl h).watch _

theorem portsKept_fifoOversize (f : Nat) (hf : f < 128) (h : Hub) : PortsKept h (fifoOversize f h) := by
  unfold fifoOversize
  dsimp only
  split
  · exact PortsKept.raiseEvent (PortsKept.wr (PortsKept.setFifo (PortsKept.wr (.refl h) _ (.inl (fifoKey_stream hf (by decide)))) _ _) _
      (k := 0x4700_06) (.inr ⟨by decide, by decide⟩)) _ _ (by decide)
  · exact .refl h

theorem portsKept_fifoCommit (hf : f < 128) (w : XWord) (h : Hub) : PortsKept h (fifoCommit f w h) := by
  have idle : PortsKept h (idleExpiry f h) := .of_work hf (idleExpiry_quiet f h).work
  unfold fifoCommit
  generalize idleExpiry f h = g at *
  dsimp only
  split
  · exact PortsKept.wr (PortsKept.setFifo idle _ _) _ (k := 0x4700_06) (.inr ⟨by decide, by decide⟩)
  · have stored := idle.trans (portsKept_takeInjection 2 g)
    generalize takeInjection 2 g = i at *
    generalize ({ fifo g f with
      words := (fifo g f).words ++ [(storedWord w, (fifo g f).wIdx)], errors := if i.1 = 0 then (fifo g f).errors else (fifo g f).errors ++ [((fifo g f).wIdx, i.1)],
      wIdx := ((fifo g f).wIdx + 1) % 2 ^ 24, lastCommit := some (stampNs g 0) } : Fifo) = y
    have counted : PortsKept h (peak (bump (setFifo i.2 f y) (fifoKey f 0x0D)) (fifoKey f 0x0C) (fifoFill (fifo (setFifo i.2 f y) f))) :=
      PortsKept.wr (PortsKept.wr (stored.setFifo f y) _ (.inl (fifoKey_stream hf (by decide)))) _ (.inl (fifoKey_stream hf (by decide)))
    generalize peak (bump (setFifo i.2 f y) (fifoKey f 0x0D)) (fifoKey f 0x0C) (fifoFill (fifo (setFifo i.2 f y) f)) = h2 at *
    have delivered : PortsKept h (if w.endMark then fifoDeliver f h2 else h2) := by
      split
      · exact counted.trans (.of_work hf (fifoDeliver_quiet f h2).work)
      · exact counted
    generalize (if w.endMark then fifoDeliver f h2 else h2) = h3 at *
    exact (delivered.trans (portsKept_fifoOversize f hf h3)).trans (.of_work hf (fifoWatermark_quiet f _).work)

theorem portsKept_fifoFlushPacker (hf : f < 128) (e : Bool) (h : Hub) : PortsKept h (fifoFlushPacker f e h) := by
  unfold fifoFlushPacker
  dsimp only
  split
  · exact .refl h
  · exact PortsKept.trans (PortsKept.setFifo (.refl h) f _) (portsKept_fifoCommit hf _ _)

theorem portsKept_fifoPackByte (hf : f < 128) (x : Byte) (h : Hub) : PortsKept h (fifoPackByte f x h) := by
  unfold fifoPackByte
  dsimp only
  have put : PortsKept h (setFifo h f { fifo h f with packer := (fifo h f).packer ++ [x] }) := PortsKept.setFifo (.refl h) f _
  split
  · exact put.trans (portsKept_fifoFlushPacker hf _ _)
  · exact put.trans (.of_work hf (fifoWatermark_quiet f _).work)

theorem portsKept_fifoPackUnit (hf : f < 128) (bs : List Byte) (e : Bool) (h : Hub) : PortsKept h (fifoPackUnit f bs e h) := by
  have append : ∀ (x : Byte) (g : Hub), PortsKept g (fifoFlushPacker f true (setFifo g f { fifo g f with packer := (fifo g f).packer ++ [x] })) :=
    fun x g => PortsKept.trans (PortsKept.setFifo (.refl g) f _) (portsKept_fifoFlushPacker hf _ _)
  unfold fifoPackUnit
  split
  · exact .refl h
  · next x rest =>
    dsimp only
    split
    · exact append x h
    · have first := portsKept_fifoPackByte hf x h
      split
      · exact first
      · next y _ _ =>
        split
        · exact first.trans (append y _)
        · exact first.trans (portsKept_fifoPackByte hf y _)

theorem portsKept_crossWord (s d : Nat) (w : XWord) (h : Hub) : PortsKept h (crossWord s d w h).2 := by
  have parity : PortsKept h (takeParity s d h).2 := by
    unfold takeParity
    split
    · exact .refl h
    · exact (PortsKept.refl h).watch _
  unfold crossWord parityFault
  split
  · exact PortsKept.setCrossing (.refl h) s d _
  · split
    · exact PortsKept.watch (PortsKept.raiseFault (PortsKept.watch (PortsKept.setCrossing parity s d _) _) 2 d (crossingKey s d) 0) _
    · split
      · exact .refl h
      · exact PortsKept.setCrossing (.refl h) s d _

theorem portsKept_busWord (hf : f < 128) (w : XWord) (h : Hub) : PortsKept h (busWord f w h) :=
  (portsKept_crossWord 0x10 0 w h).trans (PortsKept.forEach (fun x _ g =>
    (portsKept_fifoFlushPacker hf false g).trans (portsKept_fifoCommit hf x _)) _)

theorem portsKept_fifoPacket (hf : f < 128) (w0 w1 : Word) (n : Nat) (bs : List Byte) (h : Hub) : PortsKept h (fifoPacket f w0 w1 n bs h) := by
  unfold fifoPacket
  dsimp only
  split
  · exact portsKept_crossWord _ _ _ h
  · split
    · exact PortsKept.raiseEvent (PortsKept.wr (.refl h) _ (.inl (fifoKey_stream hf (by decide)))) _ _ (by decide)
    · exact ((portsKept_busWord hf _ h).trans (portsKept_busWord hf _ _)).trans
        (PortsKept.forEach (fun u _ g => portsKept_fifoPackUnit hf u.1 _ g) _)

end Sys2Proof.Machine
end

section
namespace Sys2Proof.Machine

/-! ### Words of Canopy memory -/

/-- A word is its six bytes. -/
theorem memWord_memPut_self (m : List Host.Cell) (w : Nat) (v : Word) : memWord (memPut m w v 63) w = v := by
  have bytes : ((List.range 6).map fun k => memByte (memPut m w v 63) (8 * w + k)) = (List.range 6).map fun k => wordByte v k := by
    refine List.map_congr_left fun k hk => ?_
    have l := List.mem_range.1 hk
    have on : bit 63 k = true := by
      have : k = 0 ∨ k = 1 ∨ k = 2 ∨ k = 3 ∨ k = 4 ∨ k = 5 := by omega
      rcases this with rfl | rfl | rfl | rfl | rfl | rfl <;> rfl
    rw [memByte_memPut, show (8 * w + k) % 8 = k by omega, if_pos ⟨by omega, l, on⟩]
  unfold memWord
  rw [bytes]
  apply BitVec.eq_of_toNat_eq
  have := v.isLt
  simp only [List.range_succ, List.range_zero, List.nil_append, List.map_cons, List.map_nil, List.cons_append, bytesNat, wordByte,
    BitVec.toNat_ofNat, BitVec.toNat_setWidth, BitVec.toNat_ushiftRight, Nat.shiftRight_eq_div_pow]
  omega

theorem memWord_memPut_ne (m : List Host.Cell) {w j : Nat} (v : Word) (mask : Nat) (n : j ≠ w) : memWord (memPut m w v mask) j = memWord m j := by
  unfold memWord
  congr 2
  refine List.map_congr_left fun k hk => ?_
  have l := List.mem_range.1 hk
  rw [memByte_memPut, if_neg (by omega)]

theorem memWord_memPut (m : List Host.Cell) (w j : Nat) (v : Word) : memWord (memPut m w v 63) j = if j = w then v else memWord m j := by
  split
  · next e => rw [e, memWord_memPut_self]
  · next e => exact memWord_memPut_ne m v 63 e

/-- Words written whole with no injection armed: each of the run holds its word, nothing but Canopy memory changes. -/
theorem writeWords_clear (ws : List Word) : ∀ (w : Nat) (h : Hub), h.watch.armed = [] →
    (∀ j, memWord (writeWords w ws h).canopy.mem j = if w ≤ j ∧ j < w + ws.length then ws.getD (j - w) 0 else memWord h.canopy.mem j)
      ∧ { writeWords w ws h with canopy := h.canopy } = h := by
  induction ws with
  | nil =>
    intro w h _
    exact ⟨fun j => (if_neg (by simp)).symm, rfl⟩
  | cons v vs ih =>
    intro w h i
    have one := writeWord_clear w v 63 i
    have armed : (writeWord w v 63 h).watch.armed = [] := by rw [one]; exact i
    obtain ⟨words, rest⟩ := ih (w + 1) (writeWord w v 63 h) armed
    refine ⟨fun j => ?_, ?_⟩
    · change memWord (writeWords (w + 1) vs (writeWord w v 63 h)).canopy.mem j = _
      rw [words, one]
      dsimp only
      rw [memWord_memPut]
      simp only [List.length_cons]
      by_cases e : j = w
      · subst e
        rw [if_neg (by omega), if_pos rfl, if_pos ⟨le_rfl, by omega⟩, Nat.sub_self]
        rfl
      · rw [if_neg e]
        by_cases c : w + 1 ≤ j ∧ j < w + 1 + vs.length
        · obtain ⟨k, rfl⟩ : ∃ k, j = w + 1 + k := ⟨j - (w + 1), by omega⟩
          rw [if_pos c, if_pos ⟨by omega, by omega⟩, show w + 1 + k - (w + 1) = k by omega, show w + 1 + k - w = k + 1 by omega]
          rfl
        · rw [if_neg c, if_neg (by omega)]
    · exact (congrArg (fun x : Hub => { x with canopy := h.canopy }) rest).trans (by rw [one])

theorem length_bytesWords (n : Nat) (bs : List Byte) : (bytesWords n bs).length = n := by
  induction n generalizing bs with
  | zero => rfl
  | succ n ih => exact congrArg (· + 1) (ih (bs.drop 6))

end Sys2Proof.Machine
end

section
namespace Sys2Proof.Machine

/-! ### What a receive descriptor leaves of a port's captures -/

/-- The port's captures and their count are as before. -/
structure CapturesKept (p : Nat) (h g : Hub) : Prop where
  held : (t1s g p).held = (t1s h p).held
  count : rd g (t1sStat p 0x0A) = rd h (t1sStat p 0x0A)

variable {p : Nat} {a b c : Hub}

theorem CapturesKept.refl (p : Nat) (a : Hub) : CapturesKept p a a := ⟨rfl, rfl⟩

theorem CapturesKept.trans (x : CapturesKept p a b) (y : CapturesKept p b c) : CapturesKept p a c :=
  ⟨y.held.trans x.held, y.count.trans x.count⟩

theorem CapturesKept.wr (x : CapturesKept p a b) (v : Nat) {k : Nat} (n : k ≠ t1sStat p 0x0A) : CapturesKept p a (wr b k v) :=
  ⟨x.held, (rd_wr_ne b k _ v (Ne.symm n)).trans x.count⟩

theorem CapturesKept.bump (x : CapturesKept p a b) {k : Nat} (n : k ≠ t1sStat p 0x0A) : CapturesKept p a (bump b k) := x.wr _ n

theorem CapturesKept.setT1s (x : CapturesKept p a b) {y : T1sPort} (e : y.held = (t1s b p).held) : CapturesKept p a (setT1s b p y) :=
  ⟨(congrArg T1sPort.held (t1s_setT1s_self b p y)).trans (e.trans x.held), x.count⟩

theorem eventKey_t1sStat {p : Nat} (hp : p < 4) (j : Nat) (hj : j < 256) : eventKey (t1sStat p j) = false := by
  unfold eventKey t1sStat slotKey
  simp only [Bool.or_eq_false_iff, decide_eq_false_iff_not, beq_eq_false_iff_ne]
  omega

theorem CapturesKept.raiseEvent (hp : p < 4) (x : CapturesKept p a b) {e : Nat} (i v : Nat) (he : e < 256) :
    CapturesKept p a (raiseEvent b e i v) :=
  ⟨(congrArg (fun t => (tabGet t1sInit t p).held) (raiseEvent_t1s b e i v)).trans x.held,
    (rd_raiseEvent_of b e i v _ he (eventKey_t1sStat hp _ (by decide))).trans x.count⟩

theorem CapturesKept.raise16ms (hp : p < 4) (x : CapturesKept p a b) {e : Nat} (i v n : Nat) (he : e < 256) :
    CapturesKept p a (raise16ms b e i v n) :=
  ⟨(congrArg (fun t => (tabGet t1sInit t p).held) (raiseKeyed_t1s b _ e i v _)).trans x.held,
    (rd_raiseKeyed_of b _ e i v _ _ he (eventKey_t1sStat hp _ (by decide))).trans x.count⟩

theorem capturesKept_writeWord (p w : Nat) (v : Word) (m : Nat) (h : Hub) : CapturesKept p h (writeWord w v m h) := by
  have drawn : (takeInjection 4 h).2.t1s = h.t1s ∧ (takeInjection 4 h).2.dict = h.dict := by
    unfold takeInjection takeInjectionAt
    split
    · exact ⟨rfl, rfl⟩
    · exact ⟨rfl, rfl⟩
  refine ⟨congrArg (fun t => (tabGet t1sInit t p).held) drawn.1, ?_⟩
  unfold rd rdW
  exact congrArg (fun d => (cellGet slotDefault d (t1sStat p 0x0A)).toNat) drawn.2

theorem capturesKept_writeWords (p : Nat) (ws : List Word) : ∀ (w : Nat) (h : Hub), CapturesKept p h (writeWords w ws h) := by
  induction ws with
  | nil => exact fun w h => .refl p h
  | cons v vs ih => exact fun w h => (capturesKept_writeWord p w v 63 h).trans (ih (w + 1) _)

theorem t1sInst_ne (q j k : Nat) (hq : q < 4) (hj : j < 256) : t1sInst q j ≠ t1sStat q k := by unfold t1sInst t1sStat slotKey; omega

theorem t1sStat_inj {q j k : Nat} (n : j ≠ k) : t1sStat q j ≠ t1sStat q k := by unfold t1sStat slotKey; omega

/-- A receive descriptor with its three words written, before the index moves on. -/
def backWritten (at_ status more len stamp : Nat) (h : Hub) : Hub :=
  writeWord at_ (BitVec.ofNat 48 (status * 2 ^ 40 + more + len % 2048)) 63
    (writeWord (at_ + 3) (BitVec.ofNat 48 (stamp % 1000000000 * 65536)) 63 (writeWord (at_ + 2) (BitVec.ofNat 48 (stamp / 1000000000)) 63 h))

/-- The index moved on and the outcome counted. -/
def backCounted (p n i status : Nat) (c : Hub) : Hub :=
  let d := wr c (t1sInst p 3) ((i + 1) % n)
  if status = 3 then bump d (t1sStat p 0x0B) else if 4 ≤ status then bump d (t1sStat p 0x0D) else d

/-- RX_DONE where it is armed. -/
def rxDone (p : Nat) (e : Hub) : Hub :=
  if (t1s e p).rxArmed then raiseEvent (setT1s e p { t1s e p with rxArmed := false }) (0x74 + p) p 0 else e

theorem writeBack_receive (p at_ n i status more len stamp : Nat) (h : Hub) :
    writeBack p false at_ n i status more len stamp h = rxDone p (backCounted p n i status (backWritten at_ status more len stamp h)) := rfl

theorem backCounted_cases (p n i status : Nat) (c : Hub) : backCounted p n i status c = wr c (t1sInst p 3) ((i + 1) % n) ∨
    backCounted p n i status c = bump (wr c (t1sInst p 3) ((i + 1) % n)) (t1sStat p 0x0B) ∨
    backCounted p n i status c = bump (wr c (t1sInst p 3) ((i + 1) % n)) (t1sStat p 0x0D) := by
  unfold backCounted
  dsimp only
  split
  · exact .inr (.inl rfl)
  · split
    · exact .inr (.inr rfl)
    · exact .inl rfl

theorem capturesKept_writeBack (hp : p < 4) (at_ n i status more len stamp : Nat) (h : Hub) :
    CapturesKept p h (writeBack p false at_ n i status more len stamp h) := by
  rw [writeBack_receive]
  have written : CapturesKept p h (backWritten at_ status more len stamp h) :=
    ((capturesKept_writeWord p _ _ _ h).trans (capturesKept_writeWord p _ _ _ _)).trans (capturesKept_writeWord p _ _ _ _)
  have moved := written.wr ((i + 1) % n) (t1sInst_ne p 3 0x0A hp (by decide))
  have counted : CapturesKept p h (backCounted p n i status (backWritten at_ status more len stamp h)) := by
    obtain e | e | e := backCounted_cases p n i status (backWritten at_ status more len stamp h)
    · rw [e]; exact moved
    · rw [e]; exact moved.bump (t1sStat_inj (by decide))
    · rw [e]; exact moved.bump (t1sStat_inj (by decide))
  unfold rxDone
  split
  · refine CapturesKept.raiseEvent hp (CapturesKept.setT1s counted ?_) p 0 (by omega)
    rfl
  · exact counted

theorem capturesKept_ringReceive (hp : p < 4) (m : Nat) (bs : List Byte) (sfd : Nat) (h : Hub) : CapturesKept p h (ringReceive p m bs sfd h) := by
  have five := t1sStat_inj (q := p) (j := 5) (k := 0x0A) (by decide)
  unfold ringReceive
  split
  · unfold ringStops
    simp only [Bool.false_eq_true, if_false]
    have lost := (CapturesKept.refl p h).bump five
    split
    · exact lost
    · refine CapturesKept.raise16ms hp (CapturesKept.setT1s lost ?_) p 0 1 (by decide)
      rfl
  · dsimp only
    have ready : CapturesKept p h (setT1s h p { t1s h p with rxStopped := false }) := by
      refine CapturesKept.setT1s (.refl p h) ?_
      rfl
    split
    · exact ready.bump five
    · split
      · exact ready.trans (capturesKept_writeBack hp _ _ _ _ _ _ _ _)
      · split
        · exact ready.trans (capturesKept_writeBack hp _ _ _ _ _ _ _ _)
        · exact (ready.trans (capturesKept_writeWords p _ _ _)).trans (capturesKept_writeBack hp _ _ _ _ _ _ _ _)

/-! ### A descriptor written back with no injection armed -/

theorem memWord_backWritten {at_ status more len stamp : Nat} {h : Hub} (i : h.watch.armed = []) (j : Nat) :
    memWord (backWritten at_ status more len stamp h).canopy.mem j =
      if j = at_ then BitVec.ofNat 48 (status * 2 ^ 40 + more + len % 2048)
      else if j = at_ + 3 then BitVec.ofNat 48 (stamp % 1000000000 * 65536)
      else if j = at_ + 2 then BitVec.ofNat 48 (stamp / 1000000000)
      else memWord h.canopy.mem j := by
  unfold backWritten
  generalize hx : writeWord (at_ + 2) (BitVec.ofNat 48 (stamp / 1000000000)) 63 h = x
  have xArmed : x.watch.armed = [] := by rw [← hx, writeWord_clear _ _ _ i]; exact i
  generalize hy : writeWord (at_ + 3) (BitVec.ofNat 48 (stamp % 1000000000 * 65536)) 63 x = y
  have yArmed : y.watch.armed = [] := by rw [← hy, writeWord_clear _ _ _ xArmed]; exact xArmed
  rw [writeWord_clear _ _ _ yArmed]
  dsimp only
  rw [memWord_memPut, ← hy, writeWord_clear _ _ _ xArmed]
  dsimp only
  rw [memWord_memPut, ← hx, writeWord_clear _ _ _ i]
  dsimp only
  rw [memWord_memPut]

theorem canopy_backCounted (p n i status : Nat) (c : Hub) : (backCounted p n i status c).canopy = c.canopy := by
  obtain e | e | e := backCounted_cases p n i status c
  · rw [e]; rfl
  · rw [e]; rfl
  · rw [e]; rfl

theorem t1s_backCounted (p n i status : Nat) (c : Hub) : t1s (backCounted p n i status c) p = t1s c p := by
  obtain e | e | e := backCounted_cases p n i status c
  · rw [e]; rfl
  · rw [e]; rfl
  · rw [e]; rfl

theorem index_backCounted {p n i : Nat} (hp : p < 4) (status : Nat) (c : Hub) (lo : n ≠ 0) (hi : n < 2048) :
    rd (backCounted p n i status c) (t1sInst p 3) = (i + 1) % n := by
  have moved : rd (wr c (t1sInst p 3) ((i + 1) % n)) (t1sInst p 3) = (i + 1) % n := by
    have := Nat.mod_lt (i + 1) (Nat.pos_of_ne_zero lo)
    rw [rd_wr_self, Nat.mod_eq_of_lt (by omega)]
  obtain e | e | e := backCounted_cases p n i status c
  · rw [e, moved]
  · rw [e, rd_bump_ne _ (t1sInst_ne p 3 _ hp (by decide)), moved]
  · rw [e, rd_bump_ne _ (t1sInst_ne p 3 _ hp (by decide)), moved]

theorem canopy_rxDone (p : Nat) (e : Hub) : (rxDone p e).canopy = e.canopy := by
  unfold rxDone
  split
  · rw [raiseEvent_canopy]; rfl
  · rfl

theorem rd_rxDone {p k : Nat} (hp : p < 4) (e : Hub) (hk : eventKey k = false) : rd (rxDone p e) k = rd e k := by
  unfold rxDone
  split
  · rw [rd_raiseEvent_of _ _ _ _ _ (by omega) hk]; rfl
  · rfl

theorem rxArmed_rxDone (p : Nat) (e : Hub) : (t1s (rxDone p e) p).rxArmed = false := by
  unfold rxDone
  split
  · unfold t1s
    rw [raiseEvent_t1s]
    exact congrArg T1sPort.rxArmed (t1s_setT1s_self e p _)
  · next n => simpa using n

theorem eventPending_rxDone {p : Nat} (hp : p < 4) {e : Hub} (r : (t1s e p).rxArmed = true) : eventPending (rxDone p e) (0x74 + p) = true := by
  unfold rxDone
  rw [if_pos r]
  exact eventPending_raiseEvent _ _ _ _ _ (by omega) (.inl rfl)

theorem t1s_backWritten {at_ status more len stamp : Nat} {h : Hub} (i : h.watch.armed = []) (p : Nat) :
    t1s (backWritten at_ status more len stamp h) p = t1s h p ∧ (backWritten at_ status more len stamp h).dict = h.dict := by
  unfold backWritten
  generalize hx : writeWord (at_ + 2) (BitVec.ofNat 48 (stamp / 1000000000)) 63 h = x
  have xArmed : x.watch.armed = [] ∧ x.t1s = h.t1s ∧ x.dict = h.dict := by rw [← hx, writeWord_clear _ _ _ i]; exact ⟨i, rfl, rfl⟩
  generalize hy : writeWord (at_ + 3) (BitVec.ofNat 48 (stamp % 1000000000 * 65536)) 63 x = y
  have yArmed : y.watch.armed = [] ∧ y.t1s = x.t1s ∧ y.dict = x.dict := by
    rw [← hy, writeWord_clear _ _ _ xArmed.1]; exact ⟨xArmed.1, rfl, rfl⟩
  rw [writeWord_clear _ _ _ yArmed.1]
  unfold t1s
  dsimp only
  rw [yArmed.2.1, xArmed.2.1, yArmed.2.2, xArmed.2.2]
  exact ⟨rfl, rfl⟩

/-- What a receive descriptor written back holds and what follows of it. -/
theorem writeBack_clear {p at_ n i status more len stamp : Nat} (hp : p < 4) {h : Hub} (armed : h.watch.armed = []) (lo : n ≠ 0) (hi : n < 2048) :
    (∀ j, memWord (writeBack p false at_ n i status more len stamp h).canopy.mem j =
      if j = at_ then BitVec.ofNat 48 (status * 2 ^ 40 + more + len % 2048)
      else if j = at_ + 3 then BitVec.ofNat 48 (stamp % 1000000000 * 65536)
      else if j = at_ + 2 then BitVec.ofNat 48 (stamp / 1000000000)
      else memWord h.canopy.mem j)
    ∧ rd (writeBack p false at_ n i status more len stamp h) (t1sInst p 3) = (i + 1) % n
    ∧ ((t1s h p).rxArmed = true → eventPending (writeBack p false at_ n i status more len stamp h) (0x74 + p) = true)
    ∧ (t1s (writeBack p false at_ n i status more len stamp h) p).rxArmed = false
    ∧ (status = 5 → rd (writeBack p false at_ n i status more len stamp h) (t1sStat p 0x0D) = min (rd h (t1sStat p 0x0D) + 1) (2 ^ 32 - 1)) := by
  rw [writeBack_receive]
  obtain ⟨ports, regs⟩ := t1s_backWritten (at_ := at_) (status := status) (more := more) (len := len) (stamp := stamp) armed p
  refine ⟨fun j => ?_, ?_, fun r => ?_, rxArmed_rxDone p _, fun e => ?_⟩
  · rw [canopy_rxDone, canopy_backCounted, memWord_backWritten armed]
  · rw [rd_rxDone hp _ (by simp [eventKey, t1sInst, slotKey]; omega), index_backCounted hp _ _ lo hi]
  · exact eventPending_rxDone hp (by rw [t1s_backCounted, ports, r])
  · subst e
    rw [rd_rxDone hp _ (eventKey_t1sStat hp _ (by decide))]
    change rd (bump (wr _ (t1sInst p 3) _) (t1sStat p 0x0D)) (t1sStat p 0x0D) = _
    rw [rd_bump_self, rd_wr_ne _ _ _ _ (Ne.symm (t1sInst_ne p 3 _ hp (by decide)))]
    unfold rd rdW
    rw [regs]

end Sys2Proof.Machine
end

section
namespace Sys2Proof.Machine
open Sys2Proof

/-! ### The outcomes of a received frame -/

theorem t1sReceive_off {p : Nat} {h : Hub} (o : t1sOn h p = false ∨ t1sAsleep h p = true) (bs : List Byte) (ok : Bool) (sfd : Nat) :
    t1sReceive p bs ok sfd h = h := if_pos (by rcases o with o | o <;> simp [o])

theorem t1sReceive_badSum {p : Nat} {h : Hub} (on : t1sOn h p = true) (awake : t1sAsleep h p = false) (bs : List Byte) (sfd : Nat) :
    t1sReceive p bs false sfd h = bump h (t1sStat p 3) := (if_neg (by simp [on, awake])).trans (if_pos rfl)

theorem not_consumed {p : Nat} {bs : List Byte} {h : Hub} (n : ∀ k ∈ matched p bs h, bit (rd h (cyclicKey p k)) 18 = false) :
    ¬ (((matched p bs h).any fun k => bit (rd h (cyclicKey p k)) 18) = true) := by
  rw [List.any_eq_true]
  rintro ⟨k, m, c⟩
  rw [n k m] at c
  exact absurd c (by decide)

section
variable {p : Nat} (hp : p < 4) {bs : List Byte} {sfd : Nat} {h : Hub} (on : t1sOn h p = true) (awake : t1sAsleep h p = false)
  (lo : 60 ≤ bs.length) (hi : bs.length ≤ t1sSet h p 4)
include hp on awake lo hi

/-- A frame that a consuming filter matches goes nowhere else. -/
theorem t1sReceive_consumed (c : ∃ k ∈ matched p bs h, bit (rd h (cyclicKey p k)) 18 = true) :
    t1sReceive p bs true sfd h = frameKept p bs h := by
  rw [t1sReceive_frameKept hp on awake lo hi, if_pos (List.any_eq_true.2 c)]

theorem t1sReceive_unaddressed (n : ∀ k ∈ matched p bs h, bit (rd h (cyclicKey p k)) 18 = false) (u : addressAccepts h p bs = false) :
    t1sReceive p bs true sfd h = bump (frameKept p bs h) (t1sStat p 0x0F) := by
  rw [t1sReceive_frameKept hp on awake lo hi, if_neg (not_consumed n), if_pos (by rw [u]; rfl)]

variable (n : ∀ k ∈ matched p bs h, bit (rd h (cyclicKey p k)) 18 = false) (u : addressAccepts h p bs = true)
include n u

theorem t1sReceive_stream {q : Nat} (f : fifoFrom h 3 p = some q) :
    t1sReceive p bs true sfd h = fifoPacket q (BitVec.ofNat 48 bs.length) (BitVec.ofNat 48 sfd) 2 bs (frameKept p bs h) := by
  rw [t1sReceive_frameKept hp on awake lo hi, if_neg (not_consumed n), if_neg (by rw [u]; decide), f]

theorem t1sReceive_noRing (f : fifoFrom h 3 p = none) (r : (ringAt h p 0x0A).2 = 0) :
    t1sReceive p bs true sfd h = bump (frameKept p bs h) (t1sStat p 5) := by
  rw [t1sReceive_frameKept hp on awake lo hi, if_neg (not_consumed n), if_neg (by rw [u]; decide), f]
  exact if_pos r

theorem t1sReceive_ring (f : fifoFrom h 3 p = none) (r : (ringAt h p 0x0A).2 ≠ 0) : t1sReceive p bs true sfd h =
    ringReceive p (((matched p bs h).map fun k => 2 ^ k).sum) bs sfd (frameKept p bs h) := by
  rw [t1sReceive_frameKept hp on awake lo hi, if_neg (not_consumed n), if_neg (by rw [u]; decide), f]
  exact if_neg r

end

theorem lt_of_fifoFrom {h : Hub} {kind unit q : Nat} (f : fifoFrom h kind unit = some q) : q < 128 :=
  List.mem_range.1 (List.mem_of_find?_eq_some f)

theorem capturesKept_fifoPacket {p q : Nat} (hp : p < 4) (hq : q < 128) (w0 w1 : Word) (n : Nat) (bs : List Byte) (h : Hub) :
    CapturesKept p h (fifoPacket q w0 w1 n bs h) := by
  obtain ⟨ports, kept⟩ := portsKept_fifoPacket hq w0 w1 n bs h
  refine ⟨congrArg (fun t => (tabGet t1sInit t p).held) ports, kept.rd_eq _ ?_⟩
  simp only [streamRanges, faultRanges, eventRanges, t1sStat, slotKey, List.mem_cons, List.not_mem_nil, or_false, forall_eq_or_imp, forall_eq]
  omega

/-- Wherever the frame goes, what its filters captured stays. -/
theorem capturesKept_t1sReceive {p : Nat} (hp : p < 4) {bs : List Byte} (sfd : Nat) {h : Hub} (on : t1sOn h p = true) (awake : t1sAsleep h p = false)
    (lo : 60 ≤ bs.length) (hi : bs.length ≤ t1sSet h p 4) : CapturesKept p (frameKept p bs h) (t1sReceive p bs true sfd h) := by
  have counted : ∀ j, j ≠ 0x0A → CapturesKept p (frameKept p bs h) (bump (frameKept p bs h) (t1sStat p j)) := fun j n =>
    (CapturesKept.refl p _).bump (t1sStat_inj n)
  rw [t1sReceive_frameKept hp on awake lo hi]
  split
  · exact .refl p _
  · split
    · exact counted _ (by decide)
    · split
      · next q f => exact capturesKept_fifoPacket hp (lt_of_fifoFrom f) _ _ _ _ _
      · split
        · exact counted _ (by decide)
        · exact capturesKept_ringReceive hp _ _ _ _

theorem held_frameKept {p k : Nat} {bs : List Byte} {h : Hub} (m : k ∈ matched p bs h) : tabHas (t1s (frameKept p bs h) p).held k = true
    ∧ tabGet ([], 0) (t1s (frameKept p bs h) p).held k = (bs.drop (etherAt bs + 2), busNs h) := by
  obtain ⟨has, get⟩ := held_cyclicCapture p bs (matched p bs h) (frameCounted p h) k m (nodup_matched p bs h)
  refine ⟨has, get.trans ?_⟩
  rw [frameCounted_eq]
  rfl

theorem rd_frameKept_captures {p : Nat} (hp : p < 4) {bs : List Byte} {h : Hub} (n : matched p bs h ≠ []) : rd (frameKept p bs h) (t1sStat p 0x0A) =
    min (rd h (t1sStat p 0x0A) + (matched p bs h).length) (2 ^ 32 - 1) := by
  have e := rd_cyclicCapture p bs (matched p bs h) (frameCounted p h) n
  rwa [(kept_frameCounted hp h).rd_eq _ (not_countRanges hp (.inr (.inr (by unfold t1sStat slotKey; omega))) (.inl (by unfold t1sStat slotKey; omega)))] at e

theorem rd_frameKept_stat {p j : Nat} (hp : p < 4) (bs : List Byte) (h : Hub) (hj : j < 256) (a : j ≠ 1) (b : j ≠ 0x0A) :
    rd (frameKept p bs h) (t1sStat p j) = rd h (t1sStat p j) :=
  (kept_frameKept hp bs h).rd_eq _ (not_keptRanges hp (.inr (.inr (by unfold t1sStat slotKey; omega))) (.inl (by unfold t1sStat slotKey; omega)))

end Sys2Proof.Machine
end

section
namespace Sys2Proof.Machine
open Sys2Proof

/-! ### A frame in a receive descriptor (R563, R566) -/

/-- The hub as a receive descriptor finds it: its direction is no longer stopped. -/
def ringReady (p : Nat) (h : Hub) : Hub := setT1s h p { t1s h p with rxStopped := false }

theorem t1s_ringReady (p : Nat) (h : Hub) : t1s (ringReady p h) p = { t1s h p with rxStopped := false } := t1s_setT1s_self _ _ _

/-- Whether descriptor d may be used: the hub owns it and neither of its first words is poisoned. -/
def usable (d : Nat) (h : Hub) : Prop := bit (memWord h.canopy.mem d).toNat 47 = true ∧ d ∉ h.canopy.poison ∧ d + 1 ∉ h.canopy.poison

/-- A frame for descriptor d of n, at index i, with the words at `base` for its data. -/
def receiveInto (p m d n i base len : Nat) (bs : List Byte) (sfd : Nat) (h : Hub) : Hub :=
  if bits (memWord h.canopy.mem d).toNat 10 0 < bs.length then writeBack p false d n i 5 (m * 2 ^ 28) bs.length sfd (ringReady p h)
  else if len < bits (memWord h.canopy.mem (d + 1)).toNat 19 0 + (bs.length + 5) / 6 then
    writeBack p false d n i 6 (m * 2 ^ 28) bs.length sfd (ringReady p h)
  else writeBack p false d n i 0 (m * 2 ^ 28) bs.length sfd
    (writeWords (base + bits (memWord h.canopy.mem (d + 1)).toNat 19 0) (bytesWords ((bs.length + 5) / 6) bs) (ringReady p h))

theorem not_usable_iff (d : Nat) (h : Hub) : ((!bit (readWord h d).1.toNat 47 || ((readWord h d).2 || (readWord h (d + 1)).2)) = true) ↔ ¬ usable d h := by
  unfold usable readWord
  simp only [Bool.or_eq_true, Bool.not_eq_true', List.contains_iff_mem, ← Bool.not_eq_true]
  tauto

section
variable {p m first base len n i d : Nat} {bs : List Byte} {sfd : Nat} {h : Hub}
  (b : ringBase h p 0x0A = some (first, base, len)) (hn : n = (ringAt h p 0x0A).2) (hi : i = rd h (t1sInst p 3) % n) (hd : d = first + 4 * i)
include b hn hi hd

/-- A descriptor the hub does not own, or a poisoned one, is not used. -/
theorem ringReceive_unusable (u : ¬ usable d h) : ringReceive p m bs sfd h = bump (ringReady p h) (t1sStat p 5) := by
  have c := (not_usable_iff d h).2 u
  subst hn hi hd
  unfold ringReceive
  rw [b]
  dsimp only
  rw [if_pos c]
  rfl

theorem ringReceive_usable (u : usable d h) : ringReceive p m bs sfd h = receiveInto p m d n i base len bs sfd h := by
  have c := fun x => (not_usable_iff d h).1 x u
  subst hn hi hd
  unfold ringReceive
  rw [b]
  dsimp only
  rw [if_neg c, length_bytesWords]
  rfl

end

/-! ### A frame in a FIFO -/

theorem fifoCapacity_frameKept {p : Nat} (hp : p < 4) (bs : List Byte) (h : Hub) {q : Nat} (hq : q < 128) :
    fifoCapacity (frameKept p bs h) q = fifoCapacity h q := by
  unfold fifoCapacity
  rw [rd_frameKept_low hp bs h _ (by unfold fifoKey slotKey; omega)]

theorem busOpen_frameKept {p : Nat} (hp : p < 4) (bs : List Byte) {h : Hub} (o : busOpen h) : busOpen (frameKept p bs h) := by
  have crossings : (frameKept p bs h).crossings = h.crossings := by rw [frameKept_eq]
  have same : crossing (frameKept p bs h) 0x10 0 = crossing h 0x10 0 := by unfold crossing; rw [crossings]
  have closed : crossingClosed (frameKept p bs h) 0x10 0 = crossingClosed h 0x10 0 := by
    have m : mode (frameKept p bs h) = mode h := rd_frameKept_low hp bs h _ (by decide)
    simp only [crossingClosed, islandClosed, islandDomain, domainClosed, m]
    rfl
  unfold busOpen crossingShut at *
  rw [same, closed]
  exact o

/-- A frame of good length for a STREAM with room makes one packet of it. -/
theorem t1sReceive_packet {p q sfd : Nat} {bs : List Byte} {h : Hub} (hp : p < 4) (hq : q < 128) (ne : bs ≠ []) (open_ : FifoOpen q h)
    (empty : (fifo h q).packer = []) (room : (fifo h q).words.length + 4 + (bs.length + 5) / 6 < fifoCapacity h q) (bus : busOpen h) :
    (fifo (fifoPacket q (BitVec.ofNat 48 bs.length) (BitVec.ofNat 48 sfd) 2 bs (frameKept p bs h)) q).words.map (·.1) =
      (fifo h q).words.map (·.1) ++ ({ data := BitVec.ofNat 48 bs.length, poison := false, endMark := false, count := 6 }
        :: { data := BitVec.ofNat 48 sfd, poison := false, endMark := false, count := 6 } :: packetWords ((bs.length + 5) / 6) bs) := by
  obtain ⟨-, taking, armed, -⟩ := open_
  have same := fifo_frameKept p bs h q
  have grown := fifoPacket_grown (f := q) (w0 := BitVec.ofNat 48 bs.length) (w1 := BitVec.ofNat 48 sfd) (h := frameKept p bs h)
    (busOpen_frameKept hp bs bus) rfl ne
    ⟨hq, by rw [frameKept_eq]; exact armed, by rw [same]; exact taking, by rw [same, fifoCapacity_frameKept hp bs h hq]; omega⟩ (by rw [same]; exact empty)
  rw [grown.words, same]

end Sys2Proof.Machine
end

section
namespace Sys2Proof.Machine
open Sys2Proof

theorem armed_ringReady {p : Nat} {h : Hub} (i : h.watch.armed = []) : (ringReady p h).watch.armed = [] := i

section
variable {p m d n i base len : Nat} {bs : List Byte} {sfd : Nat} {h : Hub} (hp : p < 4) (armed : h.watch.armed = []) (lo : n ≠ 0) (hi : n < 2048)
include hp armed lo hi

/-- A frame that fits its descriptor is stored, and the descriptor written back with status 0. -/
theorem receiveInto_fits (fits : bs.length ≤ bits (memWord h.canopy.mem d).toNat 10 0)
    (inside : bits (memWord h.canopy.mem (d + 1)).toNat 19 0 + (bs.length + 5) / 6 ≤ len) {at_ : Nat}
    (ha : at_ = base + bits (memWord h.canopy.mem (d + 1)).toNat 19 0) :
    let g := receiveInto p m d n i base len bs sfd h
    memWord g.canopy.mem d = BitVec.ofNat 48 (m * 2 ^ 28 + bs.length % 2048)
      ∧ memWord g.canopy.mem (d + 2) = BitVec.ofNat 48 (sfd / 1000000000)
      ∧ memWord g.canopy.mem (d + 3) = BitVec.ofNat 48 (sfd % 1000000000 * 65536)
      ∧ (∀ j, j < (bs.length + 5) / 6 → at_ + j ∉ [d, d + 2, d + 3] → memWord g.canopy.mem (at_ + j) = (bytesWords ((bs.length + 5) / 6) bs).getD j 0)
      ∧ (∀ w, w ∉ [d, d + 2, d + 3] → (w < at_ ∨ at_ + (bs.length + 5) / 6 ≤ w) → memWord g.canopy.mem w = memWord h.canopy.mem w)
      ∧ rd g (t1sInst p 3) = (i + 1) % n ∧ ((t1s h p).rxArmed = true → eventPending g (0x74 + p) = true) ∧ (t1s g p).rxArmed = false := by
  intro g
  obtain ⟨words, rest⟩ := writeWords_clear (bytesWords ((bs.length + 5) / 6) bs) at_ (ringReady p h) (armed_ringReady armed)
  generalize hx : writeWords at_ (bytesWords ((bs.length + 5) / 6) bs) (ringReady p h) = x at words rest
  have xArmed : x.watch.armed = [] := (congrArg (fun y : Hub => y.watch.armed) rest).trans armed
  have xPort : (t1s x p).rxArmed = (t1s h p).rxArmed :=
    (congrArg (fun y : Hub => (t1s y p).rxArmed) rest).trans (by rw [t1s_ringReady])
  have e : g = writeBack p false d n i 0 (m * 2 ^ 28) bs.length sfd x := by
    rw [← hx, ha]
    exact (if_neg (by omega)).trans (if_neg (by omega))
  obtain ⟨mem, index, event, done, -⟩ := writeBack_clear (at_ := d) (i := i) (status := 0) (more := m * 2 ^ 28) (len := bs.length) (stamp := sfd)
    hp xArmed lo hi
  rw [length_bytesWords] at words
  simp only [List.mem_cons, List.not_mem_nil, or_false, not_or]
  rw [e]
  refine ⟨?_, ?_, ?_, fun j hj o => ?_, fun w o out => ?_, index, fun r => event (xPort.trans r), done⟩
  · rw [mem, if_pos rfl, Nat.zero_mul, Nat.zero_add]
  · rw [mem, if_neg (by omega), if_neg (by omega), if_pos rfl]
  · rw [mem, if_neg (by omega), if_pos rfl]
  · obtain ⟨o0, o2, o3⟩ := o
    rw [mem, if_neg o0, if_neg o3, if_neg o2, words, if_pos ⟨by omega, by omega⟩, Nat.add_sub_cancel_left]
  · obtain ⟨o0, o2, o3⟩ := o
    rw [mem, if_neg o0, if_neg o3, if_neg o2, words, if_neg (by omega)]
    rfl

/-- A frame longer than its descriptor's buffer is not stored: status 5, counted. -/
theorem receiveInto_tooLong (long : bits (memWord h.canopy.mem d).toNat 10 0 < bs.length) :
    let g := receiveInto p m d n i base len bs sfd h
    memWord g.canopy.mem d = BitVec.ofNat 48 (5 * 2 ^ 40 + m * 2 ^ 28 + bs.length % 2048)
      ∧ rd g (t1sInst p 3) = (i + 1) % n ∧ rd g (t1sStat p 0x0D) = min (rd h (t1sStat p 0x0D) + 1) (2 ^ 32 - 1) := by
  intro g
  have e : g = writeBack p false d n i 5 (m * 2 ^ 28) bs.length sfd (ringReady p h) := if_pos long
  obtain ⟨mem, index, -, -, count⟩ := writeBack_clear (at_ := d) (i := i) (status := 5) (more := m * 2 ^ 28) (len := bs.length) (stamp := sfd)
    hp (armed_ringReady (p := p) armed) lo hi
  rw [e]
  exact ⟨(mem d).trans (if_pos rfl), index, (count rfl).trans rfl⟩

end

theorem kept_badLength {p : Nat} (hp : p < 4) (h : Hub) :
    KeptBut [(t1sStat p 1, t1sStat p 4), (0x4D03_01, 0x4D03_1E)] h (bump (frameCounted p h) (t1sStat p 4)) := by
  have counted : KeptBut [(t1sStat p 1, t1sStat p 4), (0x4D03_01, 0x4D03_1E)] h (frameCounted p h) := by
    intro k n
    refine kept_frameCounted hp h k ?_
    simp only [countRanges, t1sStat, slotKey, List.mem_cons, List.not_mem_nil, or_false, forall_eq_or_imp, forall_eq] at n ⊢
    generalize (0x4910 + p) * 256 = z at *
    omega
  exact counted.bump _ ⟨_, List.mem_cons_self, by simp [t1sStat, slotKey]⟩

theorem keptRanges_subset (p : Nat) : ∀ e ∈ keptRanges p, e ∈ [(t1sStat p 1, t1sStat p 1), (t1sStat p 0x0A, t1sStat p 0x0A), (0x4D03_01, 0x4D03_1E)] := by
  simp [keptRanges, countRanges]

theorem ringCount_lt (h : Hub) (p k : Nat) : (ringAt h p k).2 < 2048 := by
  unfold ringAt bits
  exact Nat.mod_lt _ (by decide)

end Sys2Proof.Machine

open Sys2Proof Sys2Proof.Machine

/-- Settles O44, by where a counted and captured frame goes: its filters, the address filter, the STREAM, the descriptor ring. -/
theorem t1sFramesAreDelivered : Obligations.T1sFramesAreDelivered := by
  unfold Obligations.T1sFramesAreDelivered
  refine ⟨fun p bs ok sfd s o => onHub_eq_next (t1sReceive_off o bs ok sfd), fun p bs sfd s on awake => onHub_eq_next (t1sReceive_badSum on awake bs sfd), ?_⟩
  rintro ⟨p, hp⟩ bs sfd s ks on awake hks
  dsimp only at on awake hks ⊢
  replace hks : ks = matched p bs s.hub := hks
  subst hks
  refine ⟨fun bad => ⟨_, onHub_eq_next (t1sReceive_badLength hp on awake bad), ?_⟩, fun lo hi => ⟨fun ne => ?_, fun c => ?_, fun none u => ?_, ?_, ?_, ?_⟩⟩
  · have ports := t1s_frameCounted p p s.hub
    have fifos : (frameCounted p s.hub).fifos = s.hub.fifos := by rw [frameCounted_eq]
    refine ⟨ports, fifos, ?_, ?_, ?_⟩
    · dsimp only
      rw [rd_bump_ne _ (t1sStat_inj (by decide)), rd_frameCounted hp]
    · dsimp only
      rw [rd_bump_self, (kept_frameCounted hp s.hub).rd_eq _ (not_countRanges hp (.inr (.inr (by unfold t1sStat slotKey; omega))) (.inl (by unfold t1sStat slotKey; omega)))]
    · exact kept_badLength hp s.hub
  · have captures := capturesKept_t1sReceive hp sfd on awake lo hi
    refine ⟨_, rfl, fun k m => ?_, captures.count.trans (rd_frameKept_captures hp ne)⟩
    dsimp only
    rw [captures.held]
    exact held_frameKept m
  · refine ⟨_, onHub_eq_next (t1sReceive_consumed hp on awake lo hi c), ?_, ?_, (kept_frameKept hp bs s.hub).mono (keptRanges_subset p)⟩
    · dsimp only
      rw [frameKept_eq]
    · dsimp only
      rw [frameKept_eq]
  · obtain ⟨counted, kept⟩ := frameKept_uncaptured (h := s.hub) hp none
    refine ⟨_, onHub_eq_next (t1sReceive_unaddressed hp on awake lo hi (by simp [none]) u), ?_, ?_, ?_, ?_⟩
    · dsimp only
      rw [t1s_bump, counted, t1s_frameCounted]
    · dsimp only
      rw [bump_fifos, frameKept_eq]
    · dsimp only
      rw [rd_bump_self, rd_frameKept_stat hp _ _ (by decide) (by decide) (by decide)]
    · exact (kept.mono (by simp [countRanges])).trans ((kept_wr (frameKept p bs s.hub) (t1sStat p 0x0F) _).mono (by simp))
  · intro q x n u f hx open_ empty room shut entries
    subst hx
    have ne : bs ≠ [] := fun e => by subst e; simp at lo
    have hq := lt_of_fifoFrom f
    obtain ⟨k, hk⟩ : ∃ k, (bs.length + 5) / 6 = k + 1 := ⟨(bs.length + 5) / 6 - 1, by omega⟩
    refine ⟨_, _, onHub_eq_next (t1sReceive_stream hp on awake lo hi n u f), t1sReceive_packet hp hq ne open_ empty room ⟨shut, entries⟩, ?_, rfl, ?_, ?_⟩
    · simp only [List.length_cons, length_packetWords]
      omega
    · exact bytes_packetWords _ bs rfl
    · simp only [List.map_cons, hk, endMarks_packetWords]
      rw [show 1 + (k + 1) = k + 2 by omega]
      rfl
  · intro n u f r
    refine ⟨_, onHub_eq_next (t1sReceive_noRing hp on awake lo hi n u f r), ?_, ?_⟩
    · dsimp only
      rw [bump_canopy, frameKept_eq]
    · dsimp only
      rw [rd_bump_self, rd_frameKept_stat hp _ _ (by decide) (by decide) (by decide)]
  · intro first base len n i d w0 off m plain u f ring hn n0 hi' hd hw hoff hm armed
    have canopy : (frameKept p bs s.hub).canopy = s.hub.canopy := by rw [frameKept_eq]
    have armedKept : (frameKept p bs s.hub).watch.armed = [] := by rw [frameKept_eq]; exact armed
    have port : (t1s (frameKept p bs s.hub) p).rxArmed = (t1s s.hub p).rxArmed := by rw [t1s_frameKept]
    have index : i = rd (frameKept p bs s.hub) (t1sInst p 3) % n := by
      rw [hi', rd_frameKept_low hp _ _ _ (by unfold t1sInst slotKey; omega)]
    have received := t1sReceive_ring (sfd := sfd) hp on awake lo hi plain u f (hn ▸ n0)
    have usable_iff : usable d (frameKept p bs s.hub) ↔ bit w0 47 = true ∧ d ∉ s.hub.canopy.poison ∧ d + 1 ∉ s.hub.canopy.poison := by
      unfold usable; rw [canopy, hw]
    have bound : ringBase (frameKept p bs s.hub) p 0x0A = some (first, base, len) := (ringBase_frameKept hp bs s.hub 0x0A (by decide)).trans ring
    have size : n = (ringAt (frameKept p bs s.hub) p 0x0A).2 := by rw [ringAt_frameKept hp bs s.hub 0x0A (by decide), hn]
    have small : n < 2048 := hn ▸ ringCount_lt s.hub p 0x0A
    subst hm
    refine ⟨fun c => ?_, fun own c0 c1 fits inside => ?_, fun own c0 c1 long => ?_⟩
    · have no : ¬ usable d (frameKept p bs s.hub) := by
        rw [usable_iff]
        rintro ⟨a, b, e⟩
        rcases c with c | c | c
        · rw [a] at c; exact absurd c (by decide)
        · exact b c
        · exact e c
      refine ⟨_, onHub_eq_next (received.trans (ringReceive_unusable bound size index hd no)), canopy, ?_⟩
      dsimp only
      rw [rd_bump_self]
      have same : rd (ringReady p (frameKept p bs s.hub)) (t1sStat p 5) = rd (frameKept p bs s.hub) (t1sStat p 5) := rfl
      rw [same, rd_frameKept_stat hp _ _ (by decide) (by decide) (by decide)]
    · have e := onHub_eq_next (s := s) (received.trans (ringReceive_usable bound size index hd (usable_iff.2 ⟨own, c0, c1⟩)))
      refine ⟨_, e, ?_⟩
      have all := receiveInto_fits (m := ((matched p bs s.hub).map fun k => 2 ^ k).sum) (d := d) (i := i) (base := base) (len := len) (bs := bs) (sfd := sfd)
        (h := frameKept p bs s.hub) hp armedKept n0 small (by rw [canopy, ← hw]; exact fits) (by rw [canopy, ← hoff]; exact inside) rfl
      dsimp only at all ⊢
      rw [port] at all
      simp only [canopy, ← hoff] at all
      exact all
    · have e := onHub_eq_next (s := s) (received.trans (ringReceive_usable bound size index hd (usable_iff.2 ⟨own, c0, c1⟩)))
      refine ⟨_, e, ?_⟩
      have all := receiveInto_tooLong (m := ((matched p bs s.hub).map fun k => 2 ^ k).sum) (d := d) (i := i) (base := base) (len := len) (bs := bs) (sfd := sfd)
        (h := frameKept p bs s.hub) hp armedKept n0 small (by rw [canopy, ← hw]; exact long)
      dsimp only at all ⊢
      rw [rd_frameKept_stat hp _ _ (by decide) (by decide) (by decide)] at all
      exact all

end

section
/-! The point of no return: a wake-logic register does not outlast a sleeping resource beyond the hub's own (R526, R667, R677). -/

namespace Sys2Proof.Machine

/-! ### A hub in CLEARING whose list of sleeping resources names no Grove of its own -/

/-- A number beyond the 40 resources. As a Grove, 32 below it, its state would stand at 0x4D13:01, where the rail status of rail 0 stands. -/
def strayResource : Nat := 32 + (0x4D13_01 - 0x4D11_01)

/-- A hub in CLEARING, committed to a round, that lists this resource as asleep. -/
def strayAsleepHub : Hub :=
  { wrs Hub.reset [(0x2000_01, 5), (0x4D01_01, 3)] with sleep := { Hub.reset.sleep with asleep := [strayResource] } }

theorem strayAsleepHub_committed : committed strayAsleepHub = true := by decide +kernel

theorem strayAsleepHub_serving : serving strayAsleepHub = true := by decide +kernel

/-- The rail status before. -/
theorem strayAsleepHub_railStatus : rd strayAsleepHub 0x4D13_01 = 0 := by decide +kernel

/-! ### Leaving CLEARING -/

/-- The hub as DORMANT's change of mode finds it. -/
def beforeDormant (h : Hub) : Hub := channelsSleep (wr (drainAll (forEach h.sleep.attempts endAttempt h)) 0x4D01_01 0)

theorem pointOfNoReturn_serving {h : Hub} (c : committed h = true) (r : serving h = true) :
    pointOfNoReturn h = dormantHub (changeMode 6 (beforeDormant h)) := if_pos ⟨c, r⟩

/-- What a change of mode out of CLEARING does after the sleeping resources of `h0` have been woken, which gave `w`. -/
def afterWaking (new : Nat) (h0 w : Hub) : Hub :=
  let a := modeMemory 5 new (fuseModeEntry 5 new (fuseRequest h0) w)
  let b := wrTime (wrs a [(0x2000_03, 5), (0x2000_01, new)]) 0x2000_04
  let c := whenDo (!servingCode new) (fun g => wr g 0x4E00_03 0) b
  let d := whenDo (new == 2) (fun g => canopenCommission (spireCommission (claimAfresh 5 g))) (whenDo (new == 1 || new == 8 || new == 6) abandonMailbox c)
  raiseEvent (syncPads (fuseEvalAll (unboundCause 5 new d))) 0x00 0 0

theorem changeMode_clearing (new : Nat) {h : Hub} (m : mode h = 5) : changeMode new h = afterWaking new h (wakeAll h) := by
  unfold changeMode
  rw [m]
  rfl

/-- The one sleeping resource j woken as a Grove; whether its list has stood is not known beforehand. -/
def wokenGrove (j : Nat) (listOk : Bool) (h : Hub) : Hub :=
  groveOn (j - 32) listOk (takeFree { h with sleep := { h.sleep with asleep := h.sleep.asleep.filter (· != j) } }).2

theorem wakeAll_grove {j : Nat} {h : Hub} (one : h.sleep.asleep = [j]) (g : 32 ≤ j) : ∃ listOk, wakeAll h = wokenGrove j listOk h := by
  unfold wakeAll
  rw [one]
  exact ⟨_, if_pos g⟩

theorem beforeDormant_clearing : mode (beforeDormant strayAsleepHub) = 5 := by decide +kernel

theorem beforeDormant_asleep : (beforeDormant strayAsleepHub).sleep.asleep = [strayResource] := by decide +kernel

/-- Whatever becomes of its list, the "Grove" is ON: its state, 3, is left in the rail status. -/
theorem railStatus_overwritten : ∀ listOk : Bool,
    rd (dormantHub (afterWaking 6 (beforeDormant strayAsleepHub) (wokenGrove strayResource listOk (beforeDormant strayAsleepHub)))) 0x4D13_01 = 3 := by
  decide +kernel

theorem strayAsleepHub_railStatus_after : rd (pointOfNoReturn strayAsleepHub) 0x4D13_01 = 3 := by
  obtain ⟨listOk, woken⟩ := wakeAll_grove beforeDormant_asleep (by decide)
  rw [pointOfNoReturn_serving strayAsleepHub_committed strayAsleepHub_serving, changeMode_clearing 6 beforeDormant_clearing, woken]
  exact railStatus_overwritten listOk

end Sys2Proof.Machine

open Sys2Proof Sys2Proof.Machine

/-- Refutes O43: in the clause on POINT_OF_NO_RETURN the hub is any committed hub that serves, so its list of sleeping resources may name one
beyond the 40. In `strayAsleepHub` the transition out of CLEARING wakes it as a Grove and overwrites 0x4D13:01, which DORMANT is to keep.
With the hub's own resources alone in the list no such hub arises. -/
theorem not_dormantIsEnteredAndLeft : ¬ Obligations.DormantIsEnteredAndLeft := by
  unfold Obligations.DormantIsEnteredAndLeft
  rintro ⟨entered, -⟩
  have keptSlot : ∀ h : Hub, committed h = true → serving h = true → rd (pointOfNoReturn h) 0x4D13_01 = rd h 0x4D13_01 := by
    intro h c r
    obtain ⟨t, ran, -, -, -, -, -, -, -, -, -, -, -, -, -, -, -, wakeLogic, -⟩ := entered { pending := [], hub := h } c r
    have left : t.hub = pointOfNoReturn h :=
      congrArg State.hub (Host.Outcome.next.inj (ran.symm.trans (rfl : exec .pointOfNoReturn { pending := [], hub := h } = _)))
    unfold rd
    rw [← left, wakeLogic 0x4D13_01 (.inl (by decide))]
  have lost := keptSlot strayAsleepHub strayAsleepHub_committed strayAsleepHub_serving
  rw [strayAsleepHub_railStatus, strayAsleepHub_railStatus_after] at lost
  exact absurd lost (by decide)

end

section
/-! SUPPORT. What an operation that sends nothing over a crossing leaves of the crossings, and of the accesses that wait (R19, R77, R90). -/

namespace Sys2Proof.Machine

/-- An access that waits and only reads: it came with a read of the host window, of a slot, or of QSPI. -/
def heldForRead : HeldAccess → Bool
  | .hostRead .. => true
  | .slotRead .. => true
  | _ => false

/-- The crossings are these, and only reads wait for an earlier write of their path. -/
def Hub.Calm (h : Hub) (k0 : Tab Crossing) : Prop := h.crossings = k0 ∧ ∀ a ∈ h.host.waiting, heldForRead a = true

/-- The same of what an attempt to host an object leaves. -/
def Alloc.Calm (x : Alloc) (k0 : Tab Crossing) : Prop :=
  match x with
  | .no _ => True
  | .wait h => h.Calm k0
  | .yes _ h => h.Calm k0

variable {k0 : Tab Crossing}

theorem calm_intro {h : Hub} (c : h.crossings = k0 ∧ ∀ a ∈ h.host.waiting, heldForRead a = true) : h.Calm k0 := c

theorem calm_elim {h : Hub} (c : h.Calm k0) : h.crossings = k0 ∧ ∀ a ∈ h.host.waiting, heldForRead a = true := c

theorem pair_calm {α : Type} {x : α × Hub} {a : α} {b : Hub} (e : x = (a, b)) (c : x.2.Calm k0) : b.Calm k0 := by subst e; exact c

theorem alloc_no_calm (c : Nat) : (Alloc.no c).Calm k0 := trivial

theorem alloc_intro_wait_calm {h : Hub} (c : h.Calm k0) : (Alloc.wait h).Calm k0 := c

theorem alloc_intro_yes_calm {b : Nat} {h : Hub} (c : h.Calm k0) : (Alloc.yes b h).Calm k0 := c

theorem alloc_yes_calm {x : Alloc} {b : Nat} {a : Hub} (e : x = .yes b a) (c : x.Calm k0) : a.Calm k0 := by subst e; exact c

theorem alloc_wait_calm {x : Alloc} {a : Hub} (e : x = .wait a) (c : x.Calm k0) : a.Calm k0 := by subst e; exact c

/-- The crossings and the accesses that wait alone matter. -/
theorem Hub.Calm.of_eq {g h : Hub} (c : h.Calm k0) (x : g.crossings = h.crossings) (w : g.host.waiting = h.host.waiting) : g.Calm k0 :=
  ⟨x.trans c.1, w ▸ c.2⟩

theorem Hub.Calm.waitMore {g h : Hub} {a : HeldAccess} (c : h.Calm k0) (r : heldForRead a = true) (x : g.crossings = h.crossings := by rfl)
    (w : g.host.waiting = h.host.waiting ++ [a] := by rfl) : g.Calm k0 := by
  refine ⟨x.trans c.1, fun b m => ?_⟩
  rw [w, List.mem_append, List.mem_singleton] at m
  rcases m with m | rfl
  · exact c.2 b m
  · exact r

/-! ### Registers, events and faults -/

theorem wr_calm (h : Hub) (k v : Nat) (hp : h.Calm k0) : (wr h k v).Calm k0 := hp.of_eq rfl rfl

theorem wrs_calm (h : Hub) (l : List (Nat × Nat)) (hp : h.Calm k0) : (wrs h l).Calm k0 :=
  hp.of_eq (wrs_crossings h l) (congrArg HostBr.waiting (wrs_host h l))

theorem bump_calm (h : Hub) (k : Nat) (hp : h.Calm k0) : (bump h k).Calm k0 := hp.of_eq rfl rfl

theorem answered_calm (a : Answer) (h : Hub) (hp : h.Calm k0) : (answered a h).Calm k0 := hp.of_eq rfl rfl

theorem wrTime_calm (h : Hub) (k : Nat) (hp : h.Calm k0) : (wrTime h k).Calm k0 := hp.of_eq rfl rfl

theorem originate_calm (h : Hub) (p t : Nat) (c : Cls) (d x g : Nat) (l : List Word) (hp : h.Calm k0) : (originate h p t c d x g l).Calm k0 :=
  hp.of_eq (originate_crossings ..) (congrArg HostBr.waiting (originate_host ..))

theorem raiseEvent_calm (h : Hub) (e i v : Nat) (hp : h.Calm k0) : (raiseEvent h e i v).Calm k0 :=
  hp.of_eq (raiseEvent_crossings ..) (congrArg HostBr.waiting (raiseEvent_host ..))

theorem raiseKeyed_calm (h : Hub) (k e i v p : Nat) (hp : h.Calm k0) : (raiseKeyed h k e i v p).Calm k0 :=
  hp.of_eq (raiseKeyed_crossings ..) (congrArg HostBr.waiting (raiseKeyed_host ..))

theorem setFuse_calm (h : Hub) (n : Nat) (c : FuseCh) (hp : h.Calm k0) : (setFuse h n c).Calm k0 := hp.of_eq rfl rfl

theorem fuseEvalAll_calm (h : Hub) (hp : h.Calm k0) : (fuseEvalAll h).Calm k0 :=
  hp.of_eq (fuseEvalAll_crossings h) (congrArg HostBr.waiting (fuseEvalAll_host h))

theorem causeGone_calm (c : Nat) (h : Hub) (hp : h.Calm k0) : (causeGone c h).Calm k0 :=
  hp.of_eq (causeGone_crossings c h) (congrArg HostBr.waiting (causeGone_host c h))

theorem raiseFault_calm (c i a b : Nat) (h : Hub) (hp : h.Calm k0) : (raiseFault c i a b h).Calm k0 :=
  hp.of_eq (raiseFault_crossings ..) (congrArg HostBr.waiting (raiseFault_host ..))

theorem setSession_calm (h : Hub) (p : Path) (c : Session) (hp : h.Calm k0) : (setSession h p c).Calm k0 := hp.of_eq rfl rfl

theorem refuse_calm (p : Path) (i j c : Nat) (w : Bool) (h : Hub) (hp : h.Calm k0) : (refuse p i j c w h).Calm k0 :=
  hp.of_eq (refuse_crossings ..) (congrArg HostBr.waiting (refuse_host ..))

theorem syncPins_calm (n : Nat) (h : Hub) (hp : h.Calm k0) : (syncPins n h).Calm k0 :=
  hp.of_eq (syncPins_crossings n h) (congrArg HostBr.waiting (syncPins_host n h))

theorem syncPads_calm (h : Hub) (hp : h.Calm k0) : (syncPads h).Calm k0 :=
  hp.of_eq (syncPads_crossings h) (congrArg HostBr.waiting (syncPads_host h))

/-! ### The other operations -/

theorem bumpBy_calm (h : Hub) (key : ℕ) (n : ℕ) (hp_h : h.Calm k0) : (bumpBy h key n).Calm k0 := by
  unfold bumpBy
  repeat' first | with_reducible assumption | with_reducible apply wr_calm

theorem peak_calm (h : Hub) (key : ℕ) (v : ℕ) (hp_h : h.Calm k0) : (peak h key v).Calm k0 := by
  unfold peak
  repeat' first | with_reducible assumption | with_reducible apply wr_calm

theorem takeFree_calm (h : Hub) (hp_h : h.Calm k0) : (takeFree h).2.Calm k0 := by
  unfold takeFree
  repeat' first | with_reducible assumption | (with_reducible apply calm_intro; dsimp only; with_reducible apply calm_elim)

theorem whenDo_calm (c : Bool) (f : Hub → Hub) (h : Hub) (hf_f : ∀ x : Hub, x.Calm k0 → (f x).Calm k0) (hp_h : h.Calm k0) : (whenDo c f h).Calm k0 := by
  unfold whenDo
  repeat' first | with_reducible assumption | with_reducible apply hf_f | split

theorem forEach_calm {α : Type} (l : List α) (f : α → Hub → Hub) (h : Hub) (hf : ∀ a x, x.Calm k0 → (f a x).Calm k0)
    (hp : h.Calm k0) : (forEach l f h).Calm k0 := by
  unfold forEach
  induction l generalizing h with
  | nil => exact hp
  | cons a l ih => exact ih _ (hf a h hp)

theorem pushLog_calm (h : Hub) (base : ℕ) (w : ℕ) (n : ℕ) (ws : List ℕ) (hp_h : h.Calm k0) : (pushLog h base w n ws).Calm k0 := by
  unfold pushLog
  repeat' first | with_reducible assumption | with_reducible apply wrs_calm

theorem takeInjectionAt_calm (m : ℕ) (modulus : ℕ) (h : Hub) (hp_h : h.Calm k0) : (takeInjectionAt m modulus h).2.Calm k0 := by
  unfold takeInjectionAt
  repeat' first | with_reducible assumption | (with_reducible apply calm_intro; dsimp only; with_reducible apply calm_elim) | split

theorem takeInjection_calm (m : ℕ) (h : Hub) (hp_h : h.Calm k0) : (takeInjection m h).2.Calm k0 := by
  unfold takeInjection
  repeat' first | with_reducible assumption | with_reducible apply takeInjectionAt_calm

theorem takeProgramInjection_calm (n : ℕ) (h : Hub) (hp_h : h.Calm k0) : (takeProgramInjection n h).2.Calm k0 := by
  unfold takeProgramInjection
  repeat' first | with_reducible assumption | with_reducible apply takeInjectionAt_calm

theorem raiseLimited_calm (h : Hub) (e : ℕ) (inst : ℕ) (value : ℕ) (cause : ℕ) (period : ℕ) (hp_h : h.Calm k0) : (raiseLimited h e inst value cause period).Calm k0 := by
  unfold raiseLimited
  repeat' first | with_reducible assumption | with_reducible apply raiseKeyed_calm

theorem cycEvent_calm (h : Hub) (e : ℕ) (inst : ℕ) (value : ℕ) (cause : ℕ) (hp_h : h.Calm k0) : (cycEvent h e inst value cause).Calm k0 := by
  unfold cycEvent
  repeat' first | with_reducible assumption | with_reducible apply raiseEvent_calm | (with_reducible apply calm_intro; dsimp only; with_reducible apply calm_elim) | split

theorem raise16ms_calm (h : Hub) (e : ℕ) (inst : ℕ) (value : ℕ) (cause : ℕ) (hp_h : h.Calm k0) : (raise16ms h e inst value cause).Calm k0 := by
  unfold raise16ms
  repeat' first | with_reducible assumption | with_reducible apply raiseLimited_calm

theorem raiseInjected_calm (code : ℕ) (island : ℕ) (a : ℕ) (b : ℕ) (h : Hub) (hp_h : h.Calm k0) : (raiseInjected code island a b h).Calm k0 := by
  unfold raiseInjected
  repeat' first | with_reducible assumption | with_reducible apply raiseFault_calm | (with_reducible apply calm_intro; dsimp only; with_reducible apply calm_elim)

theorem setPath_calm (h : Hub) (p : Path) (x : PathState) (hp_h : h.Calm k0) : (setPath h p x).Calm k0 := by
  unfold setPath
  repeat' first | with_reducible assumption | (with_reducible apply calm_intro; dsimp only; with_reducible apply calm_elim)

theorem touch_calm (p : Path) (h : Hub) (hp_h : h.Calm k0) : (touch p h).Calm k0 := by
  unfold touch
  repeat' first | with_reducible assumption | with_reducible apply setSession_calm | split

theorem dropHalf_calm (p : Path) (write : Bool) (key : ℕ) (h : Hub) (hp_h : h.Calm k0) : (dropHalf p write key h).Calm k0 := by
  unfold dropHalf
  repeat' first | with_reducible assumption | (with_reducible apply calm_intro; dsimp only; with_reducible apply calm_elim) | split

/-- Only a read may be added to the accesses that wait. -/
theorem holdAccess_calm (a : HeldAccess) (h : Hub) (r : heldForRead a = true) (hp : h.Calm k0) : (holdAccess a h).Calm k0 :=
  hp.waitMore r

theorem hostTlp_calm (p : Path) (key : ℕ) (h : Hub) (hp_h : h.Calm k0) : (hostTlp p key h).Calm k0 := by
  unfold hostTlp
  repeat' first | with_reducible assumption | with_reducible apply bump_calm | split

theorem readTouch_calm (p : Path) (index : ℕ) (sub : ℕ) (h : Hub) (hp_h : h.Calm k0) : (readTouch p index sub h).Calm k0 := by
  unfold readTouch
  repeat' first | with_reducible assumption | with_reducible apply hostTlp_calm | with_reducible apply dropHalf_calm | with_reducible apply touch_calm

theorem setFifo_calm (h : Hub) (f : ℕ) (x : Fifo) (hp_h : h.Calm k0) : (setFifo h f x).Calm k0 := by
  unfold setFifo
  repeat' first | with_reducible assumption | (with_reducible apply calm_intro; dsimp only; with_reducible apply calm_elim)

theorem fifoDeliver_calm (f : ℕ) (h : Hub) (hp_h : h.Calm k0) : (fifoDeliver f h).Calm k0 := by
  unfold fifoDeliver
  dsimp only
  repeat' first | with_reducible assumption | with_reducible apply setFifo_calm | with_reducible apply raiseEvent_calm | split

theorem stopExpiry_calm (f : ℕ) (h : Hub) (hp_h : h.Calm k0) : (stopExpiry f h).Calm k0 := by
  unfold stopExpiry
  dsimp only
  repeat' first | with_reducible assumption | with_reducible apply bump_calm | with_reducible apply setFifo_calm | with_reducible apply raiseEvent_calm | split

theorem idleExpiry_calm (f : ℕ) (h : Hub) (hp_h : h.Calm k0) : (idleExpiry f h).Calm k0 := by
  unfold idleExpiry
  dsimp only
  repeat' first | with_reducible assumption | with_reducible apply whenDo_calm | with_reducible apply bump_calm | with_reducible apply setFifo_calm | with_reducible apply fifoDeliver_calm | split

theorem fifoWatermark_calm (f : ℕ) (h : Hub) (hp_h : h.Calm k0) : (fifoWatermark f h).Calm k0 := by
  unfold fifoWatermark
  dsimp only
  repeat' first | with_reducible assumption | with_reducible apply bump_calm | with_reducible apply raise16ms_calm | with_reducible apply stopExpiry_calm | with_reducible apply setFifo_calm | with_reducible apply fifoDeliver_calm | split

theorem countDiscarded_calm (n : ℕ) (h : Hub) (hp_h : h.Calm k0) : (countDiscarded n h).Calm k0 := by
  unfold countDiscarded
  repeat' first | with_reducible assumption | with_reducible apply bumpBy_calm

theorem fifoOversize_calm (f : ℕ) (h : Hub) (hp_h : h.Calm k0) : (fifoOversize f h).Calm k0 := by
  unfold fifoOversize
  dsimp only
  repeat' first | with_reducible assumption | with_reducible apply setFifo_calm | with_reducible apply raiseEvent_calm | with_reducible apply countDiscarded_calm | with_reducible apply peak_calm | split

theorem fifoErrorFound_calm (f : ℕ) (e : ℕ × ℕ) (h : Hub) (hp_h : h.Calm k0) : (fifoErrorFound f e h).Calm k0 := by
  unfold fifoErrorFound
  repeat' first | with_reducible assumption | with_reducible apply raiseInjected_calm | with_reducible apply bump_calm | split

theorem fifoScan_calm (f : ℕ) (n : ℕ) (h : Hub) (hp_h : h.Calm k0) : (fifoScan f n h).Calm k0 := by
  unfold fifoScan
  dsimp only
  repeat' first | with_reducible assumption | with_reducible apply fifoErrorFound_calm | with_reducible apply setFifo_calm | with_reducible apply forEach_calm | split

theorem fifoCommit_calm (f : ℕ) (w : XWord) (h0 : Hub) (hp_h0 : h0.Calm k0) : (fifoCommit f w h0).Calm k0 := by
  unfold fifoCommit
  dsimp only
  repeat' first | with_reducible assumption | with_reducible apply fifoOversize_calm | with_reducible apply fifoWatermark_calm | with_reducible apply bump_calm | with_reducible apply takeInjection_calm | with_reducible apply setFifo_calm | with_reducible apply fifoDeliver_calm | with_reducible apply countDiscarded_calm | with_reducible apply peak_calm | with_reducible apply idleExpiry_calm | split

theorem fifoFlushPacker_calm (f : ℕ) (endMark : Bool) (h : Hub) (hp_h : h.Calm k0) : (fifoFlushPacker f endMark h).Calm k0 := by
  unfold fifoFlushPacker
  dsimp only
  repeat' first | with_reducible assumption | with_reducible apply fifoCommit_calm | with_reducible apply setFifo_calm | split

theorem fifoStore_calm (f : ℕ) (w : XWord) (h : Hub) (hp_h : h.Calm k0) : (fifoStore f w h).Calm k0 := by
  unfold fifoStore
  repeat' first | with_reducible assumption | with_reducible apply fifoFlushPacker_calm | with_reducible apply fifoCommit_calm

theorem sendCredit_calm (f : ℕ) (h : Hub) (hp_h : h.Calm k0) : (sendCredit f h).Calm k0 := by
  unfold sendCredit
  repeat' first | with_reducible assumption | with_reducible apply setFifo_calm | with_reducible apply originate_calm

theorem creditAdvance_calm (f : ℕ) (h : Hub) (hp_h : h.Calm k0) : (creditAdvance f h).Calm k0 := by
  unfold creditAdvance
  repeat' first | with_reducible assumption | with_reducible apply sendCredit_calm | split

theorem fifoFree_calm (f : ℕ) (n : ℕ) (h : Hub) (hp_h : h.Calm k0) : (fifoFree f n h).Calm k0 := by
  unfold fifoFree
  repeat' first | with_reducible assumption | with_reducible apply fifoWatermark_calm | with_reducible apply creditAdvance_calm | with_reducible apply setFifo_calm | with_reducible apply wr_calm | with_reducible apply peak_calm

theorem fifoAdvance_calm (f : ℕ) (h : Hub) (hp_h : h.Calm k0) : (fifoAdvance f h).Calm k0 := by
  unfold fifoAdvance
  dsimp only
  repeat' first | with_reducible assumption | with_reducible apply fifoFree_calm | with_reducible apply bump_calm | with_reducible apply setFifo_calm | split

theorem fifoPoisoned_calm (f : ℕ) (h : Hub) (hp_h : h.Calm k0) : (fifoPoisoned f h).Calm k0 := by
  unfold fifoPoisoned
  repeat' first | with_reducible assumption | with_reducible apply bump_calm | with_reducible apply raise16ms_calm

theorem readHead_calm (f : ℕ) (h : Hub) (hp_h : h.Calm k0) : (readHead f h).Calm k0 := by
  unfold readHead
  repeat' first | with_reducible assumption | with_reducible apply fifoScan_calm | split

theorem countTraffic_calm (handle : ℕ) (hub : ℕ) (cls : ℕ) (n : ℕ) (h : Hub) (hp_h : h.Calm k0) : (countTraffic handle hub cls n h).Calm k0 := by
  unfold countTraffic
  repeat' first | with_reducible assumption | (with_reducible apply calm_intro; dsimp only; with_reducible apply calm_elim) | split

theorem fifoUnbind_calm (f : ℕ) (h : Hub) (hp_h : h.Calm k0) : (fifoUnbind f h).Calm k0 := by
  unfold fifoUnbind
  repeat' first | with_reducible assumption | with_reducible intro _ | with_reducible apply whenDo_calm | with_reducible apply raiseEvent_calm | with_reducible apply countDiscarded_calm | with_reducible apply wrs_calm | (with_reducible apply calm_intro; dsimp only; with_reducible apply calm_elim) | split

theorem fifoBind_calm {st handle pages settings producer consumer : Nat} {h : Hub} {f : Nat} {a : Hub}
    (e : fifoBind st handle pages settings producer consumer h = some (f, a)) (hp : h.Calm k0) : a.Calm k0 := by
  unfold fifoBind at e
  split at e
  · cases e
  · split at e
    · cases e
    · cases e; exact wrs_calm _ _ (setFifo_calm _ _ _ hp)

theorem setEngine_calm (h : Hub) (n : ℕ) (g : Engine) (hp_h : h.Calm k0) : (setEngine h n g).Calm k0 := by
  unfold setEngine
  repeat' first | with_reducible assumption | (with_reducible apply calm_intro; dsimp only; with_reducible apply calm_elim)

theorem releasePads_calm (fios : List ℕ) (h : Hub) (hp_h : h.Calm k0) : (releasePads fios h).Calm k0 := by
  unfold releasePads
  repeat' first | with_reducible assumption | with_reducible intro _ | with_reducible apply forEach_calm | (with_reducible apply calm_intro; dsimp only; with_reducible apply calm_elim)

theorem dueLater_calm (n : ℕ) (code : ℕ) (h : Hub) (hp_h : h.Calm k0) : (dueLater n code h).Calm k0 := by
  unfold dueLater
  repeat' first | with_reducible assumption | (with_reducible apply calm_intro; dsimp only; with_reducible apply calm_elim)

theorem engineResume_calm (n : ℕ) (h : Hub) (hp_h : h.Calm k0) : (engineResume n h).Calm k0 := by
  unfold engineResume
  repeat' first | with_reducible assumption | with_reducible apply setEngine_calm | with_reducible apply wr_calm

theorem engineLoad_calm (n : ℕ) (i : ℕ) (st : ℕ) (clean : Option Byte) (h : Hub) (hp_h : h.Calm k0) : (engineLoad n i st clean h).Calm k0 := by
  unfold engineLoad
  dsimp only
  repeat' first | with_reducible assumption | with_reducible apply syncPins_calm | with_reducible apply takeProgramInjection_calm | with_reducible apply setEngine_calm | with_reducible apply wrs_calm | split

theorem setDomain_calm (d : ℕ) (st : ℕ) (h : Hub) (hp_h : h.Calm k0) : (setDomain d st h).Calm k0 := by
  unfold setDomain
  repeat' first | with_reducible assumption | with_reducible apply wrs_calm

theorem groveResume_calm (g : ℕ) (h : Hub) (hp_h : h.Calm k0) : (groveResume g h).Calm k0 := by
  unfold groveResume
  repeat' first | with_reducible assumption | with_reducible intro _ | with_reducible apply engineResume_calm | with_reducible apply forEach_calm | (with_reducible apply calm_intro; dsimp only; with_reducible apply calm_elim) | split

theorem groveReload_calm (g : ℕ) (h : Hub) (hp_h : h.Calm k0) : (groveReload g h).Calm k0 := by
  unfold groveReload
  repeat' first | with_reducible assumption | with_reducible intro _ | with_reducible apply engineLoad_calm | with_reducible apply takeFree_calm | with_reducible apply forEach_calm | (with_reducible apply calm_intro; dsimp only; with_reducible apply calm_elim) | split

theorem groveOn_calm (g : ℕ) (listOk : Bool) (h : Hub) (hp_h : h.Calm k0) : (groveOn g listOk h).Calm k0 := by
  unfold groveOn
  repeat' first | with_reducible assumption | with_reducible apply bump_calm | with_reducible apply raiseFault_calm | with_reducible apply syncPads_calm | with_reducible apply groveResume_calm | with_reducible apply setDomain_calm | with_reducible apply groveReload_calm | split

theorem voteReturned_calm (g : ℕ) (h : Hub) (hp_h : h.Calm k0) : (voteReturned g h).Calm k0 := by
  unfold voteReturned
  dsimp only
  repeat' first | with_reducible assumption | with_reducible apply bump_calm | with_reducible apply raiseEvent_calm | with_reducible apply groveResume_calm | with_reducible apply setDomain_calm | split

theorem voteReturn_calm (g : ℕ) (vote : ℕ) (h : Hub) (hp_h : h.Calm k0) : (voteReturn g vote h).Calm k0 := by
  unfold voteReturn
  repeat' first | with_reducible assumption | with_reducible apply wr_calm | with_reducible apply voteReturned_calm | (with_reducible apply calm_intro; dsimp only; with_reducible apply calm_elim) | split

theorem wakeResource_calm (j : ℕ) (h0 : Hub) (hp_h0 : h0.Calm k0) : (wakeResource j h0).Calm k0 := by
  unfold wakeResource
  repeat' first | with_reducible assumption | with_reducible apply groveOn_calm | with_reducible apply takeFree_calm | with_reducible apply wr_calm | (with_reducible apply calm_intro; dsimp only; with_reducible apply calm_elim) | split

theorem wakeAll_calm (h : Hub) (hp_h : h.Calm k0) : (wakeAll h).Calm k0 := by
  unfold wakeAll
  repeat' first | with_reducible assumption | with_reducible apply wakeResource_calm | with_reducible apply forEach_calm

theorem fuseModeEntry_calm (old : ℕ) (new : ℕ) (req : ℕ → Bool) (h : Hub) (hp_h : h.Calm k0) : (fuseModeEntry old new req h).Calm k0 := by
  unfold fuseModeEntry
  repeat' first | with_reducible assumption | with_reducible intro _ | with_reducible apply wr_calm | with_reducible apply setFuse_calm | with_reducible apply forEach_calm | split

theorem abandonMailbox_calm (h : Hub) (hp_h : h.Calm k0) : (abandonMailbox h).Calm k0 := by
  unfold abandonMailbox
  repeat' first | with_reducible assumption | with_reducible apply wr_calm | (with_reducible apply calm_intro; dsimp only; with_reducible apply calm_elim) | split

theorem modeMemory_calm (old : ℕ) (new : ℕ) (h : Hub) (hp_h : h.Calm k0) : (modeMemory old new h).Calm k0 := by
  unfold modeMemory
  repeat' first | with_reducible assumption | (with_reducible apply calm_intro; dsimp only; with_reducible apply calm_elim)

theorem holdoverEnds_calm (h : Hub) (hp_h : h.Calm k0) : (holdoverEnds h).Calm k0 := by
  unfold holdoverEnds
  repeat' first | with_reducible assumption | with_reducible apply wr_calm | with_reducible apply causeGone_calm | (with_reducible apply calm_intro; dsimp only; with_reducible apply calm_elim)

theorem spireCommission_calm (h : Hub) (hp_h : h.Calm k0) : (spireCommission h).Calm k0 := by
  unfold spireCommission
  repeat' first | with_reducible assumption | with_reducible apply holdoverEnds_calm | with_reducible apply wrs_calm | (with_reducible apply calm_intro; dsimp only; with_reducible apply calm_elim) | split

theorem bootUp_calm (h : Hub) (hp_h : h.Calm k0) : (bootUp h).Calm k0 := by
  unfold bootUp
  repeat' first | with_reducible assumption | (with_reducible apply calm_intro; dsimp only; with_reducible apply calm_elim) | split

theorem canopenCommission_calm (h : Hub) (hp_h : h.Calm k0) : (canopenCommission h).Calm k0 := by
  unfold canopenCommission
  repeat' first | with_reducible assumption | with_reducible apply wr_calm | with_reducible apply bootUp_calm

theorem claimAfresh_calm (old : ℕ) (h : Hub) (hp_h : h.Calm k0) : (claimAfresh old h).Calm k0 := by
  unfold claimAfresh
  repeat' first | with_reducible assumption | (with_reducible apply calm_intro; dsimp only; with_reducible apply calm_elim) | split

theorem unboundCause_calm (old : ℕ) (new : ℕ) (h : Hub) (hp_h : h.Calm k0) : (unboundCause old new h).Calm k0 := by
  unfold unboundCause
  repeat' first | with_reducible assumption | with_reducible intro _ | with_reducible apply raiseEvent_calm | with_reducible apply wr_calm | with_reducible apply forEach_calm | split

theorem changeMode_calm (new : ℕ) (h0 : Hub) (hp_h0 : h0.Calm k0) : (changeMode new h0).Calm k0 := by
  unfold changeMode
  repeat' first | with_reducible assumption | with_reducible intro _ | with_reducible apply whenDo_calm | with_reducible apply abandonMailbox_calm | with_reducible apply wakeAll_calm | with_reducible apply syncPads_calm | with_reducible apply modeMemory_calm | with_reducible apply unboundCause_calm | with_reducible apply raiseEvent_calm | with_reducible apply wrTime_calm | with_reducible apply claimAfresh_calm | with_reducible apply fuseEvalAll_calm | with_reducible apply wr_calm | with_reducible apply spireCommission_calm | with_reducible apply canopenCommission_calm | with_reducible apply wrs_calm | with_reducible apply fuseModeEntry_calm

theorem setLimpCause_calm (b : ℕ) (v : Bool) (h : Hub) (hp_h : h.Calm k0) : (setLimpCause b v h).Calm k0 := by
  unfold setLimpCause
  dsimp only
  repeat' first | with_reducible assumption | with_reducible apply changeMode_calm | with_reducible apply wr_calm | split

theorem setChannel_calm (h : Hub) (n : ℕ) (x : Channel) (hp_h : h.Calm k0) : (setChannel h n x).Calm k0 := by
  unfold setChannel
  repeat' first | with_reducible assumption | (with_reducible apply calm_intro; dsimp only; with_reducible apply calm_elim)

theorem mapMended_calm (was : Bool) (h : Hub) (hp_h : h.Calm k0) : (mapMended was h).Calm k0 := by
  unfold mapMended
  repeat' first | with_reducible assumption | with_reducible apply whenDo_calm | with_reducible apply causeGone_calm

theorem setMap_calm (slot : ℕ) (e : MapEntry) (h : Hub) (hp_h : h.Calm k0) : (setMap slot e h).Calm k0 := by
  unfold setMap
  repeat' first | with_reducible assumption | with_reducible apply takeInjection_calm | with_reducible apply mapMended_calm | (with_reducible apply calm_intro; dsimp only; with_reducible apply calm_elim)

theorem dropResidence_calm (handle : ℕ) (h : Hub) (hp_h : h.Calm k0) : (dropResidence handle h).Calm k0 := by
  unfold dropResidence
  repeat' first | with_reducible assumption | with_reducible apply mapMended_calm | (with_reducible apply calm_intro; dsimp only; with_reducible apply calm_elim)

theorem writeWord_calm (w : Nat) (v : Word) (mask : Nat) (h : Hub) (hp : h.Calm k0) : (writeWord w v mask h).Calm k0 :=
  (takeInjection_calm 4 h hp).of_eq rfl rfl

theorem writeWords_calm (w : ℕ) (y0 : List Word) (h : Hub) (hp : h.Calm k0) : (writeWords w y0 h).Calm k0 := by
  revert hp
  fun_induction writeWords w y0 h <;> intro hp <;>
  repeat' first | with_reducible apply writeWord_calm | (with_reducible apply_assumption)

theorem performMemory_calm (own : Bool) (w : ℕ) (r : CReq) (h : Hub) (hp_h : h.Calm k0) : (performMemory own w r h).2.Calm k0 := by
  unfold performMemory
  dsimp only
  repeat' first | with_reducible assumption | with_reducible intro _ | with_reducible apply writeWord_calm | with_reducible apply forEach_calm | split

theorem performPhysical_calm (own : Bool) (r : CReq) (h : Hub) (hp_h : h.Calm k0) : (performPhysical own r h).2.Calm k0 := by
  unfold performPhysical
  repeat' first | with_reducible assumption | with_reducible apply performMemory_calm | split

theorem setSignal_calm (slot : ℕ) (v : Word) (h : Hub) (hp_h : h.Calm k0) : (setSignal slot v h).Calm k0 := by
  unfold setSignal
  repeat' first | with_reducible assumption | (with_reducible apply calm_intro; dsimp only; with_reducible apply calm_elim)

theorem performSignal_calm (base : ℕ) (d : ObjDef) (r : CReq) (h : Hub) (hp_h : h.Calm k0) : (performSignal base d r h).2.Calm k0 := by
  unfold performSignal
  dsimp only
  repeat' first | with_reducible assumption | with_reducible apply setSignal_calm | split

theorem takeWords_calm (f : ℕ) (y0 : ℕ) (y1 : Bool) (h : Hub) (hp : h.Calm k0) : (takeWords f y0 y1 h).2.Calm k0 := by
  revert hp
  fun_induction takeWords f y0 y1 h <;> intro hp <;> (try dsimp only) <;>
  repeat' first | with_reducible apply whenDo_calm | with_reducible apply readHead_calm | with_reducible apply fifoAdvance_calm | with_reducible apply fifoPoisoned_calm | (with_reducible apply_assumption)

theorem appendWords_calm (f : ℕ) (c : ℕ) (y0 : List Word) (h : Hub) (hp : h.Calm k0) : (appendWords f c y0 h).Calm k0 := by
  revert hp
  fun_induction appendWords f c y0 h <;> intro hp <;>
  repeat' first | with_reducible apply fifoStore_calm | (with_reducible apply_assumption)

theorem performStream_calm (own : Bool) (f : ℕ) (r : CReq) (h : Hub) (hp_h : h.Calm k0) : (performStream own f r h).2.Calm k0 := by
  unfold performStream
  repeat' first | with_reducible assumption | with_reducible apply takeWords_calm | with_reducible apply appendWords_calm | (with_reducible refine pair_calm ‹_ = (_, _)› ?_) | (with_reducible apply calm_intro; dsimp only; with_reducible apply calm_elim) | split

theorem performQueue_calm (own : Bool) (base : ℕ) (d : ObjDef) (r : CReq) (h : Hub) (hp_h : h.Calm k0) : (performQueue own base d r h).2.Calm k0 := by
  unfold performQueue
  dsimp only
  repeat' first | with_reducible assumption | with_reducible intro _ | with_reducible apply writeWord_calm | with_reducible apply writeWords_calm | with_reducible apply forEach_calm | split

theorem performObject_calm (own : Bool) (kind : ℕ) (base : ℕ) (length : ℕ) (d : ObjDef) (r : CReq) (h : Hub) (hp_h : h.Calm k0) : (performObject own kind base length d r h).2.Calm k0 := by
  unfold performObject
  repeat' first | with_reducible assumption | with_reducible apply performSignal_calm | with_reducible apply performQueue_calm | with_reducible apply performMemory_calm | with_reducible apply performStream_calm | split

theorem reachDrop_calm (handle : ℕ) (h : Hub) (hp_h : h.Calm k0) : (reachDrop handle h).Calm k0 := by
  unfold reachDrop
  repeat' first | with_reducible assumption | (with_reducible apply calm_intro; dsimp only; with_reducible apply calm_elim)

theorem reachPut_calm (t : Translation) (h : Hub) (hp_h : h.Calm k0) : (reachPut t h).Calm k0 := by
  unfold reachPut
  repeat' first | with_reducible assumption | (with_reducible apply calm_intro; dsimp only; with_reducible apply calm_elim)

theorem reachFill_calm (handle : ℕ) (fill : Option CFill) (h : Hub) (hp_h : h.Calm k0) : (reachFill handle fill h).Calm k0 := by
  unfold reachFill
  repeat' first | with_reducible assumption | with_reducible apply reachPut_calm | split

theorem sendRequest_calm (dest : ℕ) (r : CReq) (h : Hub) (hp_h : h.Calm k0) : (sendRequest dest r h).2.Calm k0 := by
  unfold sendRequest
  repeat' first | with_reducible assumption | with_reducible apply originate_calm | (with_reducible apply calm_intro; dsimp only; with_reducible apply calm_elim)

theorem sendResponse_calm (dest : ℕ) (gen : ℕ) (r : CResp) (h : Hub) (hp_h : h.Calm k0) : (sendResponse dest gen r h).Calm k0 := by
  unfold sendResponse
  repeat' first | with_reducible assumption | with_reducible apply originate_calm

theorem hostWriteFailure_calm (address : ℕ) (requester : ℕ) (tag : ℕ) (status : ℕ) (h : Hub) (hp_h : h.Calm k0) : (hostWriteFailure address requester tag status h).Calm k0 := by
  unfold hostWriteFailure
  repeat' first | with_reducible assumption | with_reducible apply bump_calm | with_reducible apply raiseEvent_calm | with_reducible apply pushLog_calm | (with_reducible apply calm_intro; dsimp only; with_reducible apply calm_elim)

theorem writeFailed_calm (r : CReq) (status : ℕ) (h : Hub) (hp_h : h.Calm k0) : (writeFailed r status h).Calm k0 := by
  unfold writeFailed
  repeat' first | with_reducible assumption | with_reducible apply raiseEvent_calm | with_reducible apply pushLog_calm | with_reducible apply hostWriteFailure_calm | split

theorem hostDeliver_calm (x : HostRead) (h : Hub) (hp_h : h.Calm k0) : (hostDeliver x h).Calm k0 := by
  unfold hostDeliver
  repeat' first | with_reducible assumption | with_reducible intro _ | with_reducible apply whenDo_calm | with_reducible apply bump_calm | with_reducible apply answered_calm | (with_reducible apply calm_intro; dsimp only; with_reducible apply calm_elim) | split

theorem hostDeliverAll_calm (h : Hub) (hp_h : h.Calm k0) : (hostDeliverAll h).Calm k0 := by
  unfold hostDeliverAll
  repeat' first | with_reducible assumption | with_reducible apply forEach_calm | with_reducible apply hostDeliver_calm | (with_reducible apply calm_intro; dsimp only; with_reducible apply calm_elim)

theorem hostPieceDone_calm (tag : ℕ) (status : ℕ) (ws : List (Word × Bool)) (h : Hub) (hp_h : h.Calm k0) : (hostPieceDone tag status ws h).Calm k0 := by
  unfold hostPieceDone
  repeat' first | with_reducible assumption | with_reducible apply bump_calm | with_reducible apply hostDeliverAll_calm | (with_reducible apply calm_intro; dsimp only; with_reducible apply calm_elim) | split

theorem reflexRefused_calm (reflex : ℕ) (h : Hub) (hp_h : h.Calm k0) : (reflexRefused reflex h).Calm k0 := by
  unfold reflexRefused
  repeat' first | with_reducible assumption | with_reducible apply cycEvent_calm

theorem answerWrite_calm (r : Reply) (ok : Bool) (h : Hub) (hp_h : h.Calm k0) : (answerWrite r ok h).Calm k0 := by
  unfold answerWrite
  repeat' first | with_reducible assumption | with_reducible intro _ | with_reducible apply whenDo_calm | with_reducible apply bump_calm | with_reducible apply originate_calm | (with_reducible apply calm_intro; dsimp only; with_reducible apply calm_elim) | split

theorem shadowDone_calm (tag : ℕ) (status : ℕ) (w : ShadowWrite) (h : Hub) (hp_h : h.Calm k0) : (shadowDone tag status w h).Calm k0 := by
  unfold shadowDone
  repeat' first | with_reducible assumption | with_reducible apply answered_calm | with_reducible apply answerWrite_calm | with_reducible apply refuse_calm | (with_reducible apply calm_intro; dsimp only; with_reducible apply calm_elim) | split

theorem portDone_calm (r : CReq) (d : Done) (h : Hub) (hp_h : h.Calm k0) : (portDone r d h).Calm k0 := by
  unfold portDone
  repeat' first | with_reducible assumption | with_reducible apply answered_calm | with_reducible apply shadowDone_calm | with_reducible apply hostPieceDone_calm | with_reducible apply reflexRefused_calm | split

theorem dropOut_calm (r : CReq) (h : Hub) (hp_h : h.Calm k0) : (dropOut r h).Calm k0 := by
  unfold dropOut
  repeat' first | with_reducible assumption | (with_reducible apply calm_intro; dsimp only; with_reducible apply calm_elim)

theorem finish_calm (r : CReq) (d : Done) (h : Hub) (hp_h : h.Calm k0) : (finish r d h).Calm k0 := by
  unfold finish
  repeat' first | with_reducible assumption | with_reducible apply whenDo_calm | with_reducible apply dropOut_calm | with_reducible apply reachDrop_calm | with_reducible apply writeFailed_calm | with_reducible apply portDone_calm | split

theorem transmit_calm (dest : ℕ) (r : CReq) (h : Hub) (hp_h : h.Calm k0) : (transmit dest r h).Calm k0 := by
  unfold transmit
  repeat' first | with_reducible assumption | with_reducible intro _ | with_reducible apply whenDo_calm | with_reducible apply dropOut_calm | with_reducible apply bump_calm | with_reducible apply finish_calm | with_reducible apply sendRequest_calm | (with_reducible apply calm_intro; dsimp only; with_reducible apply calm_elim) | split

theorem staleAt_calm (r : CReq) (h : Hub) (hp_h : h.Calm k0) : (staleAt r h).Calm k0 := by
  unfold staleAt
  repeat' first | with_reducible assumption | with_reducible apply bump_calm | with_reducible apply reachDrop_calm | with_reducible apply transmit_calm

theorem retryAt_calm (r : CReq) (h : Hub) (hp_h : h.Calm k0) : (retryAt r h).Calm k0 := by
  unfold retryAt
  repeat' first | with_reducible assumption | with_reducible apply dropOut_calm | with_reducible apply bump_calm | (with_reducible apply calm_intro; dsimp only; with_reducible apply calm_elim)

theorem requesterGets_calm (r : CReq) (d : Done) (fill : Option CFill) (h : Hub) (hp_h : h.Calm k0) : (requesterGets r d fill h).Calm k0 := by
  unfold requesterGets
  repeat' first | with_reducible assumption | with_reducible apply whenDo_calm | with_reducible apply finish_calm | with_reducible apply staleAt_calm | with_reducible apply retryAt_calm | with_reducible apply reachFill_calm | split

theorem sendAck_calm (src : ℕ) (port : ℕ) (c : Cls) (h : Hub) (hp_h : h.Calm k0) : (sendAck src port c h).Calm k0 := by
  unfold sendAck
  repeat' first | with_reducible assumption | with_reducible apply sendResponse_calm | with_reducible apply countTraffic_calm | (with_reducible apply calm_intro; dsimp only; with_reducible apply calm_elim) | split

theorem noteAck_calm (r : CReq) (gen : ℕ) (fill : Option CFill) (h : Hub) (hp_h : h.Calm k0) : (noteAck r gen fill h).Calm k0 := by
  unfold noteAck
  repeat' first | with_reducible assumption | with_reducible apply sendAck_calm | (with_reducible apply calm_intro; dsimp only; with_reducible apply calm_elim) | split

theorem respond_calm (r : CReq) (d : Done) (fill : Option CFill) (gen : ℕ) (h : Hub) (hp_h : h.Calm k0) : (respond r d fill gen h).Calm k0 := by
  unfold respond
  repeat' first | with_reducible assumption | with_reducible apply sendResponse_calm | with_reducible apply requesterGets_calm | with_reducible apply noteAck_calm | split

theorem noteReflexWrite_calm (slot : ℕ) (h : Hub) (hp_h : h.Calm k0) : (noteReflexWrite slot h).Calm k0 := by
  unfold noteReflexWrite
  repeat' first | with_reducible assumption | with_reducible intro _ | with_reducible apply whenDo_calm | with_reducible apply bump_calm | (with_reducible apply calm_intro; dsimp only; with_reducible apply calm_elim)

theorem performHere_calm (r : CReq) (x : ℕ × ℕ × ℕ × ℕ) (fill : Option CFill) (h : Hub) (hp_h : h.Calm k0) : (performHere r x fill h).Calm k0 := by
  unfold performHere
  repeat' first | with_reducible assumption | with_reducible apply whenDo_calm | with_reducible apply noteReflexWrite_calm | with_reducible apply respond_calm | with_reducible apply performObject_calm | with_reducible apply countTraffic_calm

theorem sendBack_calm (r : CReq) (h : Hub) (hp_h : h.Calm k0) : (sendBack r h).Calm k0 := by
  unfold sendBack
  repeat' first | with_reducible assumption | with_reducible apply sendRequest_calm

theorem withEntry_calm (r : CReq) (f : Hub → Hub) (h : Hub) (hf_f : ∀ x : Hub, x.Calm k0 → (f x).Calm k0) (hp_h : h.Calm k0) : (withEntry r f h).Calm k0 := by
  unfold withEntry
  repeat' first | with_reducible assumption | with_reducible apply hf_f | with_reducible apply raiseInjected_calm | with_reducible apply respond_calm | split

theorem holderResolve_calm (r : CReq) (h : Hub) (hp_h : h.Calm k0) : (holderResolve r h).Calm k0 := by
  unfold holderResolve
  repeat' first | with_reducible assumption | with_reducible apply sendBack_calm | with_reducible apply respond_calm | with_reducible apply performHere_calm | split

theorem holderServe_calm (r : CReq) (h : Hub) (hp_h : h.Calm k0) : (holderServe r h).Calm k0 := by
  unfold holderServe
  repeat' first | with_reducible assumption | with_reducible apply holderResolve_calm | with_reducible apply respond_calm | with_reducible apply performPhysical_calm | with_reducible apply withEntry_calm | split

theorem forwardTo_calm (holder : ℕ) (r : CReq) (h : Hub) (hp_h : h.Calm k0) : (forwardTo holder r h).Calm k0 := by
  unfold forwardTo
  repeat' first | with_reducible assumption | with_reducible apply respond_calm | with_reducible apply sendRequest_calm | (with_reducible apply calm_intro; dsimp only; with_reducible apply calm_elim) | split

theorem holdRequest_calm (slot : ℕ) (r : CReq) (h : Hub) (hp_h : h.Calm k0) : (holdRequest slot r h).Calm k0 := by
  unfold holdRequest
  repeat' first | with_reducible assumption | with_reducible apply respond_calm | with_reducible apply peak_calm | (with_reducible apply calm_intro; dsimp only; with_reducible apply calm_elim) | split

theorem mapResolve_calm (r : CReq) (h : Hub) (hp_h : h.Calm k0) : (mapResolve r h).Calm k0 := by
  unfold mapResolve
  dsimp only
  repeat' first | with_reducible assumption | with_reducible apply respond_calm | with_reducible apply holdRequest_calm | with_reducible apply performHere_calm | with_reducible apply forwardTo_calm | split

theorem homeResolve_calm (r : CReq) (h : Hub) (hp_h : h.Calm k0) : (homeResolve r h).Calm k0 := by
  unfold homeResolve
  repeat' first | with_reducible assumption | with_reducible apply mapResolve_calm | with_reducible apply withEntry_calm

theorem releaseHeld_calm (slot : ℕ) (h : Hub) (hp_h : h.Calm k0) : (releaseHeld slot h).Calm k0 := by
  unfold releaseHeld
  repeat' first | with_reducible assumption | with_reducible apply homeResolve_calm | with_reducible apply forEach_calm | (with_reducible apply calm_intro; dsimp only; with_reducible apply calm_elim)

theorem sendReq_calm (r0 : CReq) (h : Hub) (hp_h : h.Calm k0) : (sendReq r0 h).Calm k0 := by
  unfold sendReq
  repeat' first | with_reducible assumption | with_reducible apply bump_calm | with_reducible apply finish_calm | with_reducible apply reachPut_calm | with_reducible apply holderServe_calm | with_reducible apply performPhysical_calm | with_reducible apply transmit_calm | with_reducible apply homeResolve_calm | (with_reducible apply calm_intro; dsimp only; with_reducible apply calm_elim) | split

/-- A QSPI read behind a barrier waits to read on; nothing else is added. -/
theorem barrierDone_calm (port : ℕ) (h : Hub) (hp : h.Calm k0) : (barrierDone port h).Calm k0 := by
  unfold barrierDone
  split
  · exact answered_calm _ _ hp
  · split
    · exact answered_calm _ _ hp
    · dsimp only
      split
      · exact answered_calm _ _ (hp.of_eq rfl rfl)
      · split
        · exact hp.of_eq rfl rfl
        · exact hp.waitMore rfl

theorem drainItems_calm (port : ℕ) (y0 : List PortItem) (y1 : List PortItem) (h : Hub) (hp : h.Calm k0) : (drainItems port y0 y1 h).Calm k0 := by
  revert hp
  fun_induction drainItems port y0 y1 h <;> intro hp <;> (try dsimp only) <;>
  repeat' first | with_reducible apply sendReq_calm | with_reducible apply barrierDone_calm | (with_reducible apply_assumption)

theorem drainPort_calm (port : ℕ) (h : Hub) (hp_h : h.Calm k0) : (drainPort port h).Calm k0 := by
  unfold drainPort
  repeat' first | with_reducible assumption | with_reducible intro _ | with_reducible apply whenDo_calm | with_reducible apply drainItems_calm | with_reducible apply peak_calm

theorem drainPorts_calm (h : Hub) (hp_h : h.Calm k0) : (drainPorts h).Calm k0 := by
  unfold drainPorts
  repeat' first | with_reducible assumption | with_reducible apply forEach_calm | with_reducible apply drainPort_calm

theorem putItem_calm (port : ℕ) (i : PortItem) (h : Hub) (hp_h : h.Calm k0) : (putItem port i h).Calm k0 := by
  unfold putItem
  repeat' first | with_reducible assumption | with_reducible apply drainPort_calm | (with_reducible apply calm_intro; dsimp only; with_reducible apply calm_elim)

theorem bindProgram_calm (n : ℕ) (handle : ℕ) (d : ObjDef) (h : Hub) (hp_h : h.Calm k0) : (bindProgram n handle d h).Calm k0 := by
  unfold bindProgram
  dsimp only
  repeat' first | with_reducible assumption | with_reducible apply engineLoad_calm | with_reducible apply releasePads_calm | with_reducible apply setEngine_calm | with_reducible apply takeFree_calm | with_reducible apply wrs_calm | with_reducible apply alloc_no_calm | with_reducible apply alloc_intro_yes_calm | split

theorem resetPads_calm (fios : List ℕ) (h : Hub) (hp_h : h.Calm k0) : (resetPads fios h).Calm k0 := by
  unfold resetPads
  repeat' first | with_reducible assumption | (with_reducible apply calm_intro; dsimp only; with_reducible apply calm_elim)

theorem freeEngine_calm (n : ℕ) (h : Hub) (hp_h : h.Calm k0) : (freeEngine n h).Calm k0 := by
  unfold freeEngine
  repeat' first | with_reducible assumption | with_reducible apply resetPads_calm | with_reducible apply wr_calm | (with_reducible apply calm_intro; dsimp only; with_reducible apply calm_elim) | split

theorem hostProgram_calm (handle : ℕ) (d : ObjDef) (wanted : ℕ) (h : Hub) (hp_h : h.Calm k0) : (hostProgram handle d wanted h).Calm k0 := by
  unfold hostProgram
  dsimp only
  repeat' first | with_reducible assumption | with_reducible apply bindProgram_calm | with_reducible apply voteReturn_calm | with_reducible apply alloc_no_calm | with_reducible apply alloc_intro_wait_calm | split

theorem hostStream_calm (handle : ℕ) (d : ObjDef) (h : Hub) (hp_h : h.Calm k0) : (hostStream handle d h).Calm k0 := by
  unfold hostStream
  dsimp only
  repeat' first | with_reducible assumption | (with_reducible refine fifoBind_calm ‹_ = some (_, _)› ?_) | with_reducible apply alloc_no_calm | with_reducible apply alloc_intro_yes_calm | split

theorem clearRegion_calm (base n : Nat) (h : Hub) (hp : h.Calm k0) : (clearRegion base n h).Calm k0 := hp.of_eq rfl rfl

theorem hostObject_calm (handle kind : Nat) (d : ObjDef) (place engineWanted : Nat) (h : Hub) (hp : h.Calm k0) :
    (hostObject handle kind d place engineWanted h).Calm k0 := by
  unfold hostObject
  dsimp only
  repeat' first
    | with_reducible exact alloc_no_calm _
    | with_reducible exact hostStream_calm _ _ _ hp
    | with_reducible exact hostProgram_calm _ _ _ _ hp
    | with_reducible exact alloc_intro_yes_calm (clearRegion_calm _ _ _ hp)
    | (with_reducible refine alloc_intro_yes_calm ?_
       repeat' first
         | with_reducible assumption
         | with_reducible apply setSignal_calm
         | (with_reducible apply calm_intro; dsimp only; with_reducible apply calm_elim))
    | split

theorem releaseObject_calm (kind : ℕ) (base : ℕ) (h : Hub) (hp_h : h.Calm k0) : (releaseObject kind base h).Calm k0 := by
  unfold releaseObject
  repeat' first | with_reducible assumption | with_reducible apply fifoUnbind_calm | with_reducible apply freeEngine_calm | (with_reducible apply calm_intro; dsimp only; with_reducible apply calm_elim) | split

theorem foresterLog_calm (trigger : ℕ) (result : ℕ) (handle : ℕ) (fromHub : ℕ) (toHub : ℕ) (fromE : ℕ) (toE : ℕ) (startNs : ℕ) (h : Hub) (hp_h : h.Calm k0) : (foresterLog trigger result handle fromHub toHub fromE toE startNs h).Calm k0 := by
  unfold foresterLog
  repeat' first | with_reducible assumption | with_reducible apply pushLog_calm

theorem foresterUpdate_calm (h : Hub) (hp_h : h.Calm k0) : (foresterUpdate h).Calm k0 := by
  unfold foresterUpdate
  repeat' first | with_reducible assumption | with_reducible intro _ | with_reducible apply whenDo_calm | with_reducible apply setLimpCause_calm | with_reducible apply raiseEvent_calm | with_reducible apply wrs_calm | (with_reducible apply calm_intro; dsimp only; with_reducible apply calm_elim)

theorem unbind_calm (slot : ℕ) (h : Hub) (hp_h : h.Calm k0) : (unbind slot h).Calm k0 := by
  unfold unbind
  repeat' first | with_reducible assumption | with_reducible intro _ | with_reducible apply whenDo_calm | with_reducible apply raiseEvent_calm | with_reducible apply setMap_calm | split

theorem blockedAt_calm (slot : ℕ) (code : ℕ) (h : Hub) (hp_h : h.Calm k0) : (blockedAt slot code h).Calm k0 := by
  unfold blockedAt
  repeat' first | with_reducible assumption | with_reducible apply raiseEvent_calm | (with_reducible apply calm_intro; dsimp only; with_reducible apply calm_elim) | split

theorem takeDef_calm (s : ℕ) (h : Hub) (hp_h : h.Calm k0) : (takeDef s h).Calm k0 := by
  unfold takeDef
  repeat' first | with_reducible assumption | with_reducible apply whenDo_calm | with_reducible apply setMap_calm | (with_reducible apply calm_intro; dsimp only; with_reducible apply calm_elim) | split

theorem bindSlot_calm (s : ℕ) (holder : ℕ) (base : ℕ) (h : Hub) (hp_h : h.Calm k0) : (bindSlot s holder base h).Calm k0 := by
  unfold bindSlot
  repeat' first | with_reducible assumption | with_reducible apply setMap_calm | (with_reducible apply calm_intro; dsimp only; with_reducible apply calm_elim)

theorem migrate_calm (dest : ℕ) (op : ℕ) (tag : ℕ) (status : ℕ) (handle : ℕ) (more : List Word) (h : Hub) (hp_h : h.Calm k0) : (migrate dest op tag status handle more h).Calm k0 := by
  unfold migrate
  repeat' first | with_reducible assumption | with_reducible apply originate_calm

theorem setMove_calm (m : Move) (h : Hub) (hp_h : h.Calm k0) : (setMove m h).Calm k0 := by
  unfold setMove
  repeat' first | with_reducible assumption | (with_reducible apply calm_intro; dsimp only; with_reducible apply calm_elim)

theorem dropMove_calm (m : Move) (h : Hub) (hp_h : h.Calm k0) : (dropMove m h).Calm k0 := by
  unfold dropMove
  repeat' first | with_reducible assumption | (with_reducible apply calm_intro; dsimp only; with_reducible apply calm_elim)

theorem requestResult_calm (m : Move) (result : ℕ) (h : Hub) (hp_h : h.Calm k0) : (requestResult m result h).Calm k0 := by
  unfold requestResult
  repeat' first | with_reducible assumption | with_reducible apply wr_calm | (with_reducible apply calm_intro; dsimp only; with_reducible apply calm_elim) | split

theorem moveEnds_calm (m : Move) (result : ℕ) (h : Hub) (hp_h : h.Calm k0) : (moveEnds m result h).Calm k0 := by
  unfold moveEnds
  repeat' first | with_reducible assumption | with_reducible intro _ | with_reducible apply whenDo_calm | with_reducible apply bump_calm | with_reducible apply requestResult_calm | with_reducible apply raiseEvent_calm | with_reducible apply foresterLog_calm | split

theorem listMove_calm (m : Move) (h : Hub) (hp_h : h.Calm k0) : (listMove m h).Calm k0 := by
  unfold listMove
  repeat' first | with_reducible assumption | (with_reducible apply calm_intro; dsimp only; with_reducible apply calm_elim)

theorem offerPlacement_calm (trigger : ℕ) (s : ℕ) (target : ℕ) (h : Hub) (hp_h : h.Calm k0) : (offerPlacement trigger s target h).Calm k0 := by
  unfold offerPlacement
  repeat' first | with_reducible assumption | with_reducible apply listMove_calm | with_reducible apply migrate_calm

theorem joinGroup_calm {handle : Nat} {h a : Hub} (e : joinGroup handle h = some a) (hp : h.Calm k0) : a.Calm k0 := by
  unfold joinGroup at e
  dsimp only at e
  split at e
  · cases e; exact hp
  · cases e

theorem joinGroupHere_calm {c : Bool} {handle : Nat} {h a : Hub} (e : (if c = true then joinGroup handle h else some h) = some a)
    (hp : h.Calm k0) : a.Calm k0 := by
  cases c
  · cases e; exact hp
  · exact joinGroup_calm e hp

theorem placed_calm (m : Move) (holder : ℕ) (base : ℕ) (h : Hub) (hp_h : h.Calm k0) : (placed m holder base h).Calm k0 := by
  unfold placed
  repeat' first | with_reducible assumption | with_reducible apply moveEnds_calm | with_reducible apply bindSlot_calm

theorem placeGroup_calm (trigger : ℕ) (s : ℕ) (h : Hub) (hp_h : h.Calm k0) : (placeGroup trigger s h).Calm k0 := by
  unfold placeGroup
  dsimp only
  repeat' first | with_reducible assumption | with_reducible intro _ | with_reducible apply blockedAt_calm | with_reducible apply listMove_calm | with_reducible apply placed_calm | with_reducible apply forEach_calm | with_reducible apply migrate_calm | (with_reducible refine joinGroupHere_calm ‹_ = some _› ?_) | split

theorem cancelPlacement_calm (m : Move) (h : Hub) (hp_h : h.Calm k0) : (cancelPlacement m h).Calm k0 := by
  unfold cancelPlacement
  repeat' first | with_reducible assumption | with_reducible intro _ | with_reducible apply whenDo_calm | with_reducible apply releaseObject_calm | with_reducible apply setMove_calm | with_reducible apply forEach_calm | with_reducible apply migrate_calm | (with_reducible apply calm_intro; dsimp only; with_reducible apply calm_elim) | split

theorem placeSending_calm (m : Move) (listed : Bool) (holder : ℕ) (base : ℕ) (h : Hub) (hp_h : h.Calm k0) : (placeSending m listed holder base h).2.Calm k0 := by
  unfold placeSending
  dsimp only
  repeat' first | with_reducible assumption | with_reducible apply hostStream_calm | with_reducible apply listMove_calm | with_reducible apply setMove_calm | with_reducible apply dropMove_calm | with_reducible apply placed_calm | with_reducible apply migrate_calm | (with_reducible refine alloc_yes_calm ‹_ = Alloc.yes _ _› ?_) | split

theorem placeAt_calm (trigger : ℕ) (s : ℕ) (target : ℕ) (h : Hub) (hp_h : h.Calm k0) : (placeAt trigger s target h).2.Calm k0 := by
  unfold placeAt
  dsimp only
  repeat' first | with_reducible assumption | with_reducible apply offerPlacement_calm | with_reducible apply hostObject_calm | with_reducible apply placeSending_calm | (with_reducible refine alloc_yes_calm ‹_ = Alloc.yes _ _› ?_) | (with_reducible refine alloc_wait_calm ‹_ = Alloc.wait _› ?_) | split

theorem placeLater_calm (s : ℕ) (h : Hub) (hp_h : h.Calm k0) : (placeLater s h).Calm k0 := by
  unfold placeLater
  repeat' first | with_reducible assumption | (with_reducible apply calm_intro; dsimp only; with_reducible apply calm_elim)

theorem placeFirst_calm (trigger : ℕ) (s : ℕ) (y0 : List ℕ) (y1 : ℕ) (h : Hub) (hp : h.Calm k0) : (placeFirst trigger s y0 y1 h).Calm k0 := by
  revert hp
  fun_induction placeFirst trigger s y0 y1 h <;> intro hp <;>
  repeat' first | with_reducible apply blockedAt_calm | with_reducible apply placeLater_calm | with_reducible apply placeAt_calm | (with_reducible apply_assumption)

theorem placeNext_calm (trigger : ℕ) (s : ℕ) (code : ℕ) (h : Hub) (hp_h : h.Calm k0) : (placeNext trigger s code h).Calm k0 := by
  unfold placeNext
  repeat' first | with_reducible assumption | with_reducible apply placeFirst_calm

theorem refusedBy_calm (s : ℕ) (target : ℕ) (h : Hub) (hp_h : h.Calm k0) : (refusedBy s target h).Calm k0 := by
  unfold refusedBy
  repeat' first | with_reducible assumption | (with_reducible apply calm_intro; dsimp only; with_reducible apply calm_elim)

theorem placeSlot_calm (trigger : ℕ) (s : ℕ) (h : Hub) (hp_h : h.Calm k0) : (placeSlot trigger s h).Calm k0 := by
  unfold placeSlot
  repeat' first | with_reducible assumption | with_reducible apply blockedAt_calm | with_reducible apply placeNext_calm | with_reducible apply placeGroup_calm | (with_reducible apply calm_intro; dsimp only; with_reducible apply calm_elim) | split

theorem placeSteps_calm (y0 : List ℕ) (h : Hub) (hp : h.Calm k0) : (placeSteps y0 h).Calm k0 := by
  revert hp
  fun_induction placeSteps y0 h <;> intro hp <;>
  repeat' first | with_reducible apply placeSlot_calm | with_reducible apply forEach_calm | (with_reducible apply_assumption)

theorem placeAll_calm (h : Hub) (hp_h : h.Calm k0) : (placeAll h).Calm k0 := by
  unfold placeAll
  repeat' first | with_reducible assumption | with_reducible apply placeSteps_calm | with_reducible apply foresterUpdate_calm

theorem deleteAt_calm (s : ℕ) (hub : ℕ) (h : Hub) (hp_h : h.Calm k0) : (deleteAt s hub h).Calm k0 := by
  unfold deleteAt
  repeat' first | with_reducible assumption | with_reducible apply listMove_calm | with_reducible apply migrate_calm

theorem releaseSending_calm (handle : ℕ) (h : Hub) (hp_h : h.Calm k0) : (releaseSending handle h).Calm k0 := by
  unfold releaseSending
  repeat' first | with_reducible assumption | with_reducible apply releaseObject_calm | split

theorem giveBack_calm (s : ℕ) (e : MapEntry) (h : Hub) (hp_h : h.Calm k0) : (giveBack s e h).Calm k0 := by
  unfold giveBack
  repeat' first | with_reducible assumption | with_reducible intro _ | with_reducible apply releaseObject_calm | with_reducible apply deleteAt_calm | with_reducible apply listMove_calm | with_reducible apply releaseSending_calm | with_reducible apply forEach_calm | with_reducible apply migrate_calm | (with_reducible apply calm_intro; dsimp only; with_reducible apply calm_elim) | split

theorem retirePads_calm (s : ℕ) (e : MapEntry) (h : Hub) (hp_h : h.Calm k0) : (retirePads s e h).Calm k0 := by
  unfold retirePads
  repeat' first | with_reducible assumption | with_reducible apply whenDo_calm | with_reducible apply resetPads_calm

theorem retire_calm (s : ℕ) (h : Hub) (hp_h : h.Calm k0) : (retire s h).Calm k0 := by
  unfold retire
  repeat' first | with_reducible assumption | with_reducible apply cancelPlacement_calm | with_reducible apply giveBack_calm | with_reducible apply forEach_calm | with_reducible apply retirePads_calm | with_reducible apply setMap_calm | (with_reducible apply calm_intro; dsimp only; with_reducible apply calm_elim) | split

theorem takeDefs_calm (h : Hub) (hp_h : h.Calm k0) : (takeDefs h).Calm k0 := by
  unfold takeDefs
  repeat' first | with_reducible assumption | with_reducible apply takeDef_calm | with_reducible apply forEach_calm | with_reducible apply retire_calm

theorem newMove_calm (handle : ℕ) (source : ℕ) (sourceE : ℕ) (trigger : ℕ) (target : ℕ) (engine : ℕ) (phase : ℕ) (h : Hub) (hp_h : h.Calm k0) : (newMove handle source sourceE trigger target engine phase h).2.Calm k0 := by
  unfold newMove
  repeat' first | with_reducible assumption | (with_reducible apply calm_intro; dsimp only; with_reducible apply calm_elim)

theorem ownRebind_calm (code : ℕ) (handle : ℕ) (holder : ℕ) (slot : ℕ) (cycle : ℕ) (h : Hub) (hp_h : h.Calm k0) : (ownRebind code handle holder slot cycle h).Calm k0 := by
  unfold ownRebind
  repeat' first | with_reducible assumption | (with_reducible apply calm_intro; dsimp only; with_reducible apply calm_elim)

theorem rebindNotice_calm (code : ℕ) (handle : ℕ) (holder : ℕ) (slot : ℕ) (switch : ℕ) (h : Hub) (hp_h : h.Calm k0) : (rebindNotice code handle holder slot switch h).Calm k0 := by
  unfold rebindNotice
  repeat' first | with_reducible assumption | with_reducible apply ownRebind_calm | with_reducible apply originate_calm

theorem placeWaiting_calm (h : Hub) (hp_h : h.Calm k0) : (placeWaiting h).Calm k0 := by
  unfold placeWaiting
  repeat' first | with_reducible assumption | with_reducible apply foresterUpdate_calm | with_reducible apply placeSlot_calm | with_reducible apply placeAll_calm | with_reducible apply forEach_calm | split

theorem afterMove_calm (h : Hub) (hp_h : h.Calm k0) : (afterMove h).Calm k0 := by
  unfold afterMove
  repeat' first | with_reducible assumption | with_reducible apply whenDo_calm | with_reducible apply foresterUpdate_calm | with_reducible apply takeDefs_calm | with_reducible apply placeWaiting_calm

theorem moveOver_calm (m : Move) (h : Hub) (hp_h : h.Calm k0) : (moveOver m h).Calm k0 := by
  unfold moveOver
  repeat' first | with_reducible assumption | with_reducible apply afterMove_calm | with_reducible apply dropMove_calm | with_reducible apply drainPorts_calm | with_reducible apply releaseHeld_calm

theorem abortMove_calm (m : Move) (result : ℕ) (h : Hub) (hp_h : h.Calm k0) : (abortMove m result h).Calm k0 := by
  unfold abortMove
  repeat' first | with_reducible assumption | with_reducible intro _ | with_reducible apply whenDo_calm | with_reducible apply bump_calm | with_reducible apply releaseObject_calm | with_reducible apply cancelPlacement_calm | with_reducible apply blockedAt_calm | with_reducible apply foresterUpdate_calm | with_reducible apply setMove_calm | with_reducible apply moveEnds_calm | with_reducible apply forEach_calm | with_reducible apply releaseHeld_calm | with_reducible apply refusedBy_calm | with_reducible apply migrate_calm | with_reducible apply moveOver_calm | with_reducible apply setMap_calm | with_reducible apply rebindNotice_calm | (with_reducible apply calm_intro; dsimp only; with_reducible apply calm_elim) | split

theorem moveRefused_calm (code : ℕ) (h : Hub) (hp_h : h.Calm k0) : (moveRefused code h).Calm k0 := by
  unfold moveRefused
  repeat' first | with_reducible assumption | with_reducible intro _ | with_reducible apply whenDo_calm | with_reducible apply bump_calm

theorem startHandover_calm (r : Residence) (trigger : ℕ) (target : ℕ) (h : Hub) (hp_h : h.Calm k0) : (startHandover r trigger target h).2.Calm k0 := by
  unfold startHandover
  repeat' first | with_reducible assumption | with_reducible apply newMove_calm | with_reducible apply setEngine_calm | with_reducible apply wrs_calm | split

theorem moveProgram_calm (r : Residence) (trigger : ℕ) (wanted : ℕ) (avoid : ℕ) (h : Hub) (hp_h : h.Calm k0) : (moveProgram r trigger wanted avoid h).2.Calm k0 := by
  unfold moveProgram
  dsimp only
  repeat' first | with_reducible assumption | with_reducible apply startHandover_calm | with_reducible apply voteReturn_calm | split

theorem pinsSafe_calm (was : Hub) (n : ℕ) (h : Hub) (hp_h : h.Calm k0) : (pinsSafe was n h).Calm k0 := by
  unfold pinsSafe
  repeat' first | with_reducible assumption | with_reducible intro _ | with_reducible apply forEach_calm | (with_reducible apply calm_intro; dsimp only; with_reducible apply calm_elim)

theorem abortHandover_calm (m : Move) (result : ℕ) (h : Hub) (hp_h : h.Calm k0) : (abortHandover m result h).Calm k0 := by
  unfold abortHandover
  repeat' first | with_reducible assumption | with_reducible apply dropMove_calm | with_reducible apply moveEnds_calm | with_reducible apply freeEngine_calm | split

theorem abortLoad_calm (handle : ℕ) (h : Hub) (hp_h : h.Calm k0) : (abortLoad handle h).Calm k0 := by
  unfold abortLoad
  repeat' first | with_reducible assumption | with_reducible apply abortHandover_calm | with_reducible apply abortMove_calm | split

theorem loseProgram_calm (r : Residence) (h : Hub) (hp_h : h.Calm k0) : (loseProgram r h).Calm k0 := by
  unfold loseProgram
  repeat' first | with_reducible assumption | with_reducible apply unbind_calm | with_reducible apply foresterUpdate_calm | with_reducible apply dropResidence_calm | with_reducible apply pinsSafe_calm | with_reducible apply freeEngine_calm | split

theorem dropRebind_calm (handle : ℕ) (h : Hub) (hp_h : h.Calm k0) : (dropRebind handle h).Calm k0 := by
  unfold dropRebind
  repeat' first | with_reducible assumption | with_reducible apply abortHandover_calm | split

theorem engineFailed_calm (n : ℕ) (h : Hub) (hp_h : h.Calm k0) : (engineFailed n h).Calm k0 := by
  unfold engineFailed
  dsimp only
  repeat' first | with_reducible assumption | with_reducible apply loseProgram_calm | with_reducible apply moveProgram_calm | with_reducible apply dueLater_calm | with_reducible apply abortLoad_calm | with_reducible apply dropRebind_calm | split

theorem disconnectPin_calm (n : ℕ) (fio : ℕ) (h : Hub) (hp_h : h.Calm k0) : (disconnectPin n fio h).Calm k0 := by
  unfold disconnectPin
  repeat' first | with_reducible assumption | with_reducible apply releasePads_calm | with_reducible apply setEngine_calm

theorem pinRebind_calm (fio : ℕ) (h : Hub) (hp_h : h.Calm k0) : (pinRebind fio h).Calm k0 := by
  unfold pinRebind
  dsimp only
  repeat' first | with_reducible assumption | with_reducible apply startHandover_calm | with_reducible apply raiseEvent_calm | with_reducible apply dueLater_calm | with_reducible apply abortLoad_calm | with_reducible apply disconnectPin_calm | split

theorem requestRefused_calm (code : ℕ) (h : Hub) (hp_h : h.Calm k0) : (requestRefused code h).Calm k0 := by
  unfold requestRefused
  repeat' first | with_reducible assumption | with_reducible apply wr_calm | with_reducible apply moveRefused_calm | (with_reducible apply calm_intro; dsimp only; with_reducible apply calm_elim)

theorem requestStarted_calm (h : Hub) (hp_h : h.Calm k0) : (requestStarted h).Calm k0 := by
  unfold requestStarted
  repeat' first | with_reducible assumption | with_reducible apply wr_calm | (with_reducible apply calm_intro; dsimp only; with_reducible apply calm_elim) | split

theorem requestProgram_calm (n : ℕ) (wanted : ℕ) (h : Hub) (hp_h : h.Calm k0) : (requestProgram n wanted h).Calm k0 := by
  unfold requestProgram
  repeat' first | with_reducible assumption | with_reducible apply requestRefused_calm | with_reducible apply moveProgram_calm | with_reducible apply wr_calm | with_reducible apply dueLater_calm | with_reducible apply requestStarted_calm | (with_reducible apply calm_intro; dsimp only; with_reducible apply calm_elim) | split

theorem retryDue_calm (d : ℕ × ℕ) (h0 : Hub) (hp_h0 : h0.Calm k0) : (retryDue d h0).Calm k0 := by
  unfold retryDue
  repeat' first | with_reducible assumption | with_reducible apply pinRebind_calm | with_reducible apply whenDo_calm | with_reducible apply engineFailed_calm | with_reducible apply requestProgram_calm | (with_reducible apply calm_intro; dsimp only; with_reducible apply calm_elim) | split

theorem foresterTick_calm (h : Hub) (hp_h : h.Calm k0) : (foresterTick h).Calm k0 := by
  unfold foresterTick
  repeat' first | with_reducible assumption | with_reducible apply whenDo_calm | with_reducible apply placeWaiting_calm | with_reducible apply forEach_calm | with_reducible apply retryDue_calm

theorem setT1s_calm (h : Hub) (p : ℕ) (x : T1sPort) (hp_h : h.Calm k0) : (setT1s h p x).Calm k0 := by
  unfold setT1s
  repeat' first | with_reducible assumption | (with_reducible apply calm_intro; dsimp only; with_reducible apply calm_elim)

theorem setSpire_calm (st : ℕ) (h : Hub) (hp_h : h.Calm k0) : (setSpire st h).Calm k0 := by
  unfold setSpire
  repeat' first | with_reducible assumption | with_reducible apply wr_calm

theorem enterLocked_calm (h : Hub) (hp_h : h.Calm k0) : (enterLocked h).Calm k0 := by
  unfold enterLocked
  repeat' first | with_reducible assumption | with_reducible apply setSpire_calm | with_reducible apply raiseEvent_calm

theorem masterLock_calm (h : Hub) (hp_h : h.Calm k0) : (masterLock h).Calm k0 := by
  unfold masterLock
  repeat' first | with_reducible assumption | with_reducible apply holdoverEnds_calm | with_reducible apply setSpire_calm | with_reducible apply enterLocked_calm | with_reducible apply wr_calm | split

theorem noteLocked_calm (h : Hub) (hp_h : h.Calm k0) : (noteLocked h).Calm k0 := by
  unfold noteLocked
  repeat' first | with_reducible assumption | (with_reducible apply calm_intro; dsimp only; with_reducible apply calm_elim) | split

theorem mastered_calm (h : Hub) (hp_h : h.Calm k0) : (mastered h).Calm k0 := by
  unfold mastered
  repeat' first | with_reducible assumption | with_reducible apply wr_calm | (with_reducible apply calm_intro; dsimp only; with_reducible apply calm_elim) | split

theorem elect_calm (h0 : Hub) (hp_h0 : h0.Calm k0) : (elect h0).Calm k0 := by
  unfold elect
  repeat' first | with_reducible assumption | with_reducible intro _ | with_reducible apply whenDo_calm | with_reducible apply noteLocked_calm | with_reducible apply masterLock_calm | with_reducible apply raiseEvent_calm | with_reducible apply mastered_calm | with_reducible apply wrs_calm

theorem spireWatch_calm (h : Hub) (hp_h : h.Calm k0) : (spireWatch h).Calm k0 := by
  unfold spireWatch
  repeat' first | with_reducible assumption | with_reducible apply setSpire_calm | with_reducible apply masterLock_calm | with_reducible apply elect_calm | with_reducible apply wr_calm | split

theorem bufLatch_calm (p : Path) (c : ℕ) (b : ℕ) (h : Hub) (hp_h : h.Calm k0) : (bufLatch p c b h).Calm k0 := by
  unfold bufLatch
  repeat' first | with_reducible assumption | with_reducible apply setPath_calm

theorem processRead_calm (p : Path) (index : ℕ) (sub : ℕ) (h : Hub) (hp_h : h.Calm k0) : (processRead p index sub h).Calm k0 := by
  unfold processRead
  repeat' first | with_reducible assumption | with_reducible apply answered_calm | with_reducible apply refuse_calm | split

theorem sendShadow_calm (w : ShadowWrite) (h : Hub) (hp_h : h.Calm k0) : (sendShadow w h).Calm k0 := by
  unfold sendShadow
  repeat' first | with_reducible assumption | with_reducible apply putItem_calm | (with_reducible apply calm_intro; dsimp only; with_reducible apply calm_elim)

theorem sendNextShadow_calm (e : ℕ × ShadowWrite) (h : Hub) (hp_h : h.Calm k0) : (sendNextShadow e h).Calm k0 := by
  unfold sendNextShadow
  repeat' first | with_reducible assumption | with_reducible apply sendShadow_calm | (with_reducible apply calm_intro; dsimp only; with_reducible apply calm_elim) | split

theorem waitingShadows_calm (h : Hub) (hp_h : h.Calm k0) : (waitingShadows h).Calm k0 := by
  unfold waitingShadows
  repeat' first | with_reducible assumption | with_reducible apply forEach_calm | with_reducible apply sendNextShadow_calm

theorem roundFrame_calm (sub : ℕ) (origin : ℕ) (round : ℕ) (reasons : ℕ) (more : List Word) (h : Hub) (hp_h : h.Calm k0) : (roundFrame sub origin round reasons more h).Calm k0 := by
  unfold roundFrame
  repeat' first | with_reducible assumption | with_reducible apply originate_calm

theorem culpritEntry_calm (hub : ℕ) (origin : ℕ) (reasons : ℕ) (spanMs : ℕ) (h : Hub) (hp_h : h.Calm k0) : (culpritEntry hub origin reasons spanMs h).Calm k0 := by
  unfold culpritEntry
  repeat' first | with_reducible assumption | with_reducible apply raiseEvent_calm | with_reducible apply pushLog_calm

theorem endAttempt_calm (origin : ℕ) (h : Hub) (hp_h : h.Calm k0) : (endAttempt origin h).Calm k0 := by
  unfold endAttempt
  repeat' first | with_reducible assumption | with_reducible apply culpritEntry_calm | (with_reducible apply calm_intro; dsimp only; with_reducible apply calm_elim) | split

theorem abortAttempt_calm (origin : ℕ) (hub : ℕ) (reasons : ℕ) (h : Hub) (hp_h : h.Calm k0) : (abortAttempt origin hub reasons h).Calm k0 := by
  unfold abortAttempt
  repeat' first | with_reducible assumption | with_reducible apply endAttempt_calm | with_reducible apply culpritEntry_calm | split

theorem releasePorts_calm (h : Hub) (hp_h : h.Calm k0) : (releasePorts h).Calm k0 := by
  unfold releasePorts
  repeat' first | with_reducible assumption | with_reducible apply drainPorts_calm | (with_reducible apply calm_intro; dsimp only; with_reducible apply calm_elim)

theorem abortRound_calm (hub : ℕ) (reasons : ℕ) (h : Hub) (hp_h : h.Calm k0) : (abortRound hub reasons h).Calm k0 := by
  unfold abortRound
  repeat' first | with_reducible assumption | with_reducible apply bump_calm | with_reducible apply abortAttempt_calm | with_reducible apply raiseEvent_calm | with_reducible apply releasePorts_calm | with_reducible apply wr_calm | (with_reducible apply calm_intro; dsimp only; with_reducible apply calm_elim)

theorem abortFor_calm (r : ℕ) (h : Hub) (hp_h : h.Calm k0) : (abortFor r h).Calm k0 := by
  unfold abortFor
  repeat' first | with_reducible assumption | with_reducible apply abortRound_calm | with_reducible apply roundFrame_calm | split

theorem sleepAbort_calm (reasons : ℕ) (h : Hub) (hp_h : h.Calm k0) : (sleepAbort reasons h).Calm k0 := by
  unfold sleepAbort
  repeat' first | with_reducible assumption | with_reducible apply abortFor_calm

theorem setSlot_calm (b : ℕ) (x : FlashSlot) (h : Hub) (hp_h : h.Calm k0) : (setSlot b x h).Calm k0 := by
  unfold setSlot
  repeat' first | with_reducible assumption | (with_reducible apply calm_intro; dsimp only; with_reducible apply calm_elim) | split

theorem loadFails_calm (code : ℕ) (h : Hub) (hp_h : h.Calm k0) : (loadFails code h).Calm k0 := by
  unfold loadFails
  repeat' first | with_reducible assumption | with_reducible apply wrs_calm | (with_reducible apply calm_intro; dsimp only; with_reducible apply calm_elim)

theorem eraseStrapped_calm (h : Hub) (hp_h : h.Calm k0) : (eraseStrapped h).Calm k0 := by
  unfold eraseStrapped
  repeat' first | with_reducible assumption | with_reducible apply setSlot_calm

theorem channelStart_calm (n : ℕ) (h : Hub) (hp_h : h.Calm k0) : (channelStart n h).Calm k0 := by
  unfold channelStart
  repeat' first | with_reducible assumption | with_reducible apply setChannel_calm | with_reducible apply wr_calm | split

theorem channelsStart_calm (h : Hub) (hp_h : h.Calm k0) : (channelsStart h).Calm k0 := by
  unfold channelsStart
  repeat' first | with_reducible assumption | with_reducible apply channelStart_calm | with_reducible apply forEach_calm

theorem clearLoad_calm (h : Hub) (hp_h : h.Calm k0) : (clearLoad h).Calm k0 := by
  unfold clearLoad
  repeat' first | with_reducible assumption | (with_reducible apply calm_intro; dsimp only; with_reducible apply calm_elim)

theorem pullFrame_calm (tag : ℕ) (off : ℕ) (len : ℕ) (h : Hub) (hp_h : h.Calm k0) : (pullFrame tag off len h).Calm k0 := by
  unfold pullFrame
  repeat' first | with_reducible assumption | with_reducible apply originate_calm

theorem pullRequest_calm (off : ℕ) (len : ℕ) (h : Hub) (hp_h : h.Calm k0) : (pullRequest off len h).Calm k0 := by
  unfold pullRequest
  repeat' first | with_reducible assumption | with_reducible apply pullFrame_calm | (with_reducible apply calm_intro; dsimp only; with_reducible apply calm_elim)

theorem pullMore_calm (y0 : ℕ) (h : Hub) (hp : h.Calm k0) : (pullMore y0 h).Calm k0 := by
  revert hp
  fun_induction pullMore y0 h <;> intro hp <;>
  repeat' first | with_reducible apply pullRequest_calm | (with_reducible apply_assumption)

theorem beginLoad_calm (flashOk : Bool) (h : Hub) (hp_h : h.Calm k0) : (beginLoad flashOk h).Calm k0 := by
  unfold beginLoad
  dsimp only
  repeat' first | with_reducible assumption | with_reducible apply pullRequest_calm | with_reducible apply clearLoad_calm | with_reducible apply eraseStrapped_calm | with_reducible apply loadFails_calm | with_reducible apply wrs_calm | with_reducible apply setSlot_calm | split

theorem headerArrives_calm (before : ℕ) (total : ℕ) (h : Hub) (hp_h : h.Calm k0) : (headerArrives before total h).Calm k0 := by
  unfold headerArrives
  dsimp only
  repeat' first | with_reducible assumption | with_reducible apply loadFails_calm | split

theorem imageBytes_calm (off : ℕ) (bs : List Byte) (h : Hub) (hp_h : h.Calm k0) : (imageBytes off bs h).Calm k0 := by
  unfold imageBytes
  repeat' first | with_reducible assumption | with_reducible apply wr_calm | (with_reducible apply calm_intro; dsimp only; with_reducible apply calm_elim)

theorem chunkWritten_calm (bs : List Byte) (flashOk : Bool) (h : Hub) (hp_h : h.Calm k0) : (chunkWritten bs flashOk h).Calm k0 := by
  unfold chunkWritten
  repeat' first | with_reducible assumption | with_reducible apply headerArrives_calm | with_reducible apply imageBytes_calm | with_reducible apply loadFails_calm | split

theorem pullOn_calm (before : ℕ) (h0 : Hub) (hp_h0 : h0.Calm k0) : (pullOn before h0).Calm k0 := by
  unfold pullOn
  dsimp only
  repeat' first | with_reducible assumption | with_reducible intro _ | with_reducible apply whenDo_calm | with_reducible apply headerArrives_calm | with_reducible apply pullMore_calm | with_reducible apply wr_calm | split

theorem makeImageWrite_calm (w : ImageWrite) (h : Hub) (hp_h : h.Calm k0) : (makeImageWrite w h).Calm k0 := by
  unfold makeImageWrite
  repeat' first | with_reducible assumption | with_reducible intro _ | with_reducible apply whenDo_calm | with_reducible apply imageBytes_calm | with_reducible apply beginLoad_calm | with_reducible apply chunkWritten_calm | with_reducible apply pullOn_calm | split

theorem heldImageWrites_calm (h : Hub) (hp_h : h.Calm k0) : (heldImageWrites h).Calm k0 := by
  unfold heldImageWrites
  repeat' first | with_reducible assumption | with_reducible intro _ | with_reducible apply makeImageWrite_calm | with_reducible apply forEach_calm | (with_reducible apply calm_intro; dsimp only; with_reducible apply calm_elim) | split

theorem gateWatch_calm (h : Hub) (hp_h : h.Calm k0) : (gateWatch h).Calm k0 := by
  unfold gateWatch
  repeat' first | with_reducible assumption | with_reducible intro _ | with_reducible apply raiseEvent_calm | with_reducible apply forEach_calm | (with_reducible apply calm_intro; dsimp only; with_reducible apply calm_elim) | split

theorem longRead_calm (p : Path) (index : ℕ) (f : ℕ) (n : ℕ) (j : ℕ) (h : Hub) (hp_h : h.Calm k0) : (longRead p index f n j h).2.Calm k0 := by
  unfold longRead
  repeat' first | with_reducible assumption | with_reducible apply setPath_calm | split

theorem readEffect_calm (p : Path) (index : ℕ) (sub : ℕ) (h : Hub) (hp_h : h.Calm k0) : (readEffect p index sub h).Calm k0 := by
  unfold readEffect
  repeat' first | with_reducible assumption | with_reducible apply wr_calm | with_reducible apply setT1s_calm | with_reducible apply bufLatch_calm | split

theorem slotRead_calm (p : Path) (index : ℕ) (sub : ℕ) (h : Hub) (hp_h : h.Calm k0) : (slotRead p index sub h).2.Calm k0 := by
  unfold slotRead
  dsimp only
  repeat' first | with_reducible assumption | with_reducible apply longRead_calm | with_reducible apply setPath_calm | with_reducible apply readEffect_calm | split

theorem barrierStart_calm (p : Path) (h : Hub) (hp_h : h.Calm k0) : (barrierStart p h).Calm k0 := by
  unfold barrierStart
  repeat' first | with_reducible assumption | with_reducible apply putItem_calm | with_reducible apply answered_calm | with_reducible apply refuse_calm | (with_reducible apply calm_intro; dsimp only; with_reducible apply calm_elim) | split

theorem refuseRead_calm (p : Path) (index : ℕ) (sub : ℕ) (c : ℕ) (h : Hub) (hp_h : h.Calm k0) : (refuseRead p index sub c h).Calm k0 := by
  unfold refuseRead
  repeat' first | with_reducible assumption | with_reducible intro _ | with_reducible apply whenDo_calm | with_reducible apply bump_calm | with_reducible apply refuse_calm

theorem readSlot_calm (p : Path) (index : ℕ) (sub : ℕ) (h0 : Hub) (hp_h0 : h0.Calm k0) : (readSlot p index sub h0).Calm k0 := by
  have read : heldForRead (heldRead p index sub) = true := by cases p <;> rfl
  unfold readSlot
  dsimp only
  repeat' first | with_reducible assumption | with_reducible apply refuseRead_calm | with_reducible apply holdAccess_calm | with_reducible apply hostTlp_calm | with_reducible apply barrierStart_calm | with_reducible apply answered_calm | with_reducible apply readTouch_calm | with_reducible apply processRead_calm | with_reducible apply slotRead_calm | split

theorem hostLowRead_calm (index : ℕ) (sub : ℕ) (h : Hub) (hp_h : h.Calm k0) : (hostLowRead index sub h).Calm k0 := by
  unfold hostLowRead
  repeat' first | with_reducible assumption | with_reducible apply answered_calm | with_reducible apply readSlot_calm | (with_reducible apply calm_intro; dsimp only; with_reducible apply calm_elim) | split

theorem hostHighRead_calm (index : ℕ) (sub : ℕ) (h0 : Hub) (hp_h0 : h0.Calm k0) : (hostHighRead index sub h0).Calm k0 := by
  unfold hostHighRead
  dsimp only
  repeat' first | with_reducible assumption | with_reducible apply refuseRead_calm | with_reducible apply hostTlp_calm | with_reducible apply answered_calm | with_reducible apply readTouch_calm | split

theorem hostMisread_calm (index : ℕ) (sub : ℕ) (h0 : Hub) (hp_h0 : h0.Calm k0) : (hostMisread index sub h0).Calm k0 := by
  unfold hostMisread
  repeat' first | with_reducible assumption | with_reducible apply refuseRead_calm | with_reducible apply bump_calm | with_reducible apply hostTlp_calm | with_reducible apply answered_calm | with_reducible apply readTouch_calm | split

theorem hostRead_calm (index : ℕ) (sub : ℕ) (off : ℕ) (size : ℕ) (h : Hub) (hp_h : h.Calm k0) : (hostRead index sub off size h).Calm k0 := by
  unfold hostRead
  split
  · exact holdAccess_calm _ _ rfl hp_h
  · repeat' first | with_reducible assumption | with_reducible apply hostHighRead_calm | with_reducible apply readSlot_calm | with_reducible apply hostMisread_calm | with_reducible apply hostLowRead_calm | split

theorem qspiAnswer_calm (q : ℕ) (h : Hub) (hp_h : h.Calm k0) : (qspiAnswer q h).Calm k0 := by
  unfold qspiAnswer
  repeat' first | with_reducible assumption | with_reducible apply answered_calm | (with_reducible apply calm_intro; dsimp only; with_reducible apply calm_elim) | split

theorem qspiBarrier_calm (tag : Option ℕ) (acc : List Byte) (n : ℕ) (after : ℕ × ℕ) (h0 : Hub) (hp_h0 : h0.Calm k0) : (qspiBarrier tag acc n after h0).Calm k0 := by
  unfold qspiBarrier
  repeat' first | with_reducible assumption | with_reducible apply qspiAnswer_calm | with_reducible apply putItem_calm | with_reducible apply answered_calm | with_reducible apply dropHalf_calm | (with_reducible apply calm_intro; dsimp only; with_reducible apply calm_elim) | split

theorem qspiSlots_calm (tag : Option Nat) (l : List (Nat × Nat)) (acc : List Byte) (h : Hub) (hp : h.Calm k0) :
    (qspiSlots tag l acc h).Calm k0 := by
  induction l generalizing acc h with
  | nil => exact answered_calm _ _ hp
  | cons e l ih =>
    obtain ⟨off, n⟩ := e
    have ha := hostRead_calm (off / 8 / 256) (off / 8 % 256) (off % 8) n h hp
    rw [qspiSlots]
    split
    · exact qspiBarrier_calm _ _ _ _ _ hp
    · dsimp only
      split
      · exact ih _ _ ha
      · exact answered_calm _ _ ha
      · exact ha

theorem qspiReadOn_calm (q : ℕ) (before : List Byte) (offset : ℕ) (length : ℕ) (h : Hub) (hp_h : h.Calm k0) : (qspiReadOn q before offset length h).Calm k0 := by
  unfold qspiReadOn
  repeat' first | with_reducible assumption | with_reducible apply qspiSlots_calm | (with_reducible apply calm_intro; dsimp only; with_reducible apply calm_elim) | split

end Sys2Proof.Machine
end

section
/-! PROOFS. Transfers over a crossing (R20 to R27, R697): what a transfer and a timeout do, and what a tick delivers. -/

namespace Sys2Proof.Machine

/-! ### One crossing of the table -/

theorem crossing_setCrossing_self (h : Hub) (src dst : Nat) (x : Crossing) : crossing (setCrossing h src dst x) src dst = x :=
  tabGet_tabSet_self _ _ _ _

theorem crossing_setCrossing_ne {a b src dst : Nat} (h : Hub) (x : Crossing) (n : crossingKey a b ≠ crossingKey src dst) :
    crossing (setCrossing h src dst x) a b = crossing h a b := tabGet_tabSet_ne _ _ _ _ _ n

theorem crossing_congr {g h : Hub} (e : g.crossings = h.crossings) (src dst : Nat) : crossing g src dst = crossing h src dst :=
  congrArg (fun t => tabGet crossingInit t (crossingKey src dst)) e

/-- A key reads of a table whose values are all changed alike what the change makes of its value. -/
theorem tabGet_map {α : Type} {d : α} {f : α → α} (e : f d = d) (t : Tab α) (k : Nat) :
    tabGet d (t.map fun p => (p.1, f p.2)) k = f (tabGet d t k) := by
  induction t with
  | nil => exact e.symm
  | cons p t ih =>
    simp only [List.map_cons, tabGet]
    split
    · rfl
    · exact ih

/-! ### Transfers and timeouts -/

/-- With no injection armed no parity error is injected (R710). -/
theorem takeParity_unarmed {h : Hub} (src dst : Nat) (e : h.watch.armed = []) : takeParity src dst h = (false, h) := by
  unfold takeParity
  rw [e]
  rfl

theorem carried_free {x : Crossing} (w : XWord) (room : x.entries.length < 4) (none : x.waiting = []) :
    carried x w = { x with entries := x.entries ++ [w] } := if_pos ⟨room, none⟩

theorem carried_full {x : Crossing} (w : XWord) (full : x.entries.length = 4) :
    carried x w = { x with waiting := x.waiting ++ [w] } := if_neg fun c => absurd c.1 (by omega)

theorem taken_good (w : XWord) : taken w true = w := by simp [taken]

theorem taken_bad (w : XWord) : taken w false = { w with poison := true } := by simp [taken]

theorem crossingMove_shut {h : Hub} {src dst : Nat} (word : XWord) (parity : Bool)
    (shut : (crossing h src dst).broken = true ∨ crossingClosed h src dst = true) :
    crossingMove src dst word parity h
      = setCrossing h src dst { crossing h src dst with discarded := (crossing h src dst).discarded + 1 } := if_pos shut

section
variable {h : Hub} {src dst : Nat} (whole : (crossing h src dst).broken = false) (opened : crossingClosed h src dst = false)
include whole opened

theorem crossingMove_open (word : XWord) (parity : Bool) (quiet : h.watch.armed = []) :
    crossingMove src dst word parity h
      = if parity then setCrossing h src dst (carried (crossing h src dst) (taken word parity))
        else parityFault src dst false (setCrossing h src dst (carried (crossing h src dst) (taken word parity))) := by
  unfold crossingMove
  simp only [whole, opened, takeParity_unarmed src dst quiet, Bool.not_false, Bool.and_true, Bool.false_eq_true, or_self, if_false]

theorem crossingMove_good (word : XWord) (quiet : h.watch.armed = []) :
    crossingMove src dst word true h = setCrossing h src dst (carried (crossing h src dst) word) := by
  rw [crossingMove_open whole opened word true quiet, if_pos rfl, taken_good]

theorem crossingMove_bad (word : XWord) (quiet : h.watch.armed = []) :
    crossingMove src dst word false h
      = parityFault src dst false (setCrossing h src dst (carried (crossing h src dst) { word with poison := true })) := by
  rw [crossingMove_open whole opened word false quiet, if_neg Bool.false_ne_true, taken_bad]

/-- A timeout of a transfer in an entry breaks the crossing and discards all that is in it (R26). -/
theorem crossingLate_some (some : (crossing h src dst).entries ≠ []) :
    crossingLate src dst h
      = raiseFault 0x03 src (crossingKey src dst) ((crossing h src dst).entries.length + (crossing h src dst).waiting.length)
          (setCrossing h src dst { crossing h src dst with
            broken := true, entries := [], waiting := []
            discarded := (crossing h src dst).discarded + ((crossing h src dst).entries.length + (crossing h src dst).waiting.length) }) := by
  unfold crossingLate
  rw [if_neg]
  simp [whole, opened, some]

end

theorem crossingLate_empty {h : Hub} {src dst : Nat} (none : (crossing h src dst).entries = []) : crossingLate src dst h = h :=
  if_pos (.inr (.inr none))

/-! ### FLT_XING_PARITY (R24) -/

theorem parityFault_crossings (src dst : Nat) (bad : Bool) (h : Hub) : (parityFault src dst bad h).crossings = h.crossings :=
  raiseFault_crossings _ _ _ _ _

theorem noFault_parityFault (src dst : Nat) (bad : Bool) (h : Hub) : noFault (parityFault src dst bad h) = noFault h :=
  (noFault_watch _ _).trans (noFault_raiseFault _ _ _ _ _)

theorem recordHeld_parityFault (src dst : Nat) (bad : Bool) (h : Hub) : recordHeld (parityFault src dst bad h) 0x02 = true :=
  recordHeld_raiseFault _ _ _ _ _

theorem kept_parityFault (src dst : Nat) (bad : Bool) (h : Hub) : KeptBut faultRanges h (parityFault src dst bad h) :=
  fun k n => kept_raiseFault _ _ _ _ _ k n

/-- What only a fault changed of a hub with a crossing set differs from the hub before in the crossings and in what a fault names. -/
theorem faulted_setCrossing {g h : Hub} {src dst : Nat} {x : Crossing} (e : noFault g = noFault (setCrossing h src dst x))
    (c : g.crossings = (setCrossing h src dst x).crossings) : faulted { h with crossings := g.crossings } g = g := by
  rw [c]
  exact faulted_of e

/-! ### A tick takes what is in the entries (R21, R22) -/

variable {k0 : Tab Crossing}

/-- A crossing once a tick's credits are back. -/
def credited (x : Crossing) : Crossing := if x.broken then x else creditsReturn x

theorem credited_init : credited crossingInit = crossingInit := rfl

theorem crossingsTick_calm (h : Hub) (c : h.Calm k0) : (crossingsTick h).Calm (k0.map fun e => (e.1, credited e.2)) :=
  ⟨congrArg (fun t : Tab Crossing => t.map fun e : Nat × Crossing => (e.1, credited e.2)) c.1, c.2⟩

theorem spireTick_calm (h : Hub) (sound : h.spire.faulted = false) (awake : mode h ≠ 6) (c : h.Calm k0) : (spireTick h).Calm k0 := by
  have counts : ∀ g : Hub, g.Calm k0 → (spireCount g).Calm k0 := fun g c => by
    unfold spireCount
    split <;> exact c.of_eq rfl rfl
  unfold spireTick
  dsimp only
  rw [if_neg]
  · apply counts
    unfold holdoverTick
    dsimp only
    split <;> exact c.of_eq rfl rfl
  · have awake' : mode { h with power := { h.power with aonTicks := h.power.aonTicks + 1 } } ≠ 6 := awake
    simp [sound, awake']

/-- A read that waited is performed or waits on. -/
theorem takeHeld_calm (a : HeldAccess) (r : heldForRead a = true) (h : Hub) (c : h.Calm k0) : (takeHeld a h).Calm k0 := by
  unfold takeHeld
  split
  · exact c.waitMore r
  · cases a with
    | hostRead tag before off len =>
      cases tag with
      | none => exact hostRead_calm _ _ _ _ _ c
      | some q => exact qspiReadOn_calm _ _ _ _ _ c
    | slotRead p index sub => exact readSlot_calm _ _ _ _ c
    | hostWrite off len v => cases r
    | slotWrite p index sub v => cases r
    | entryWrite p index sub v => cases r
    | request src op tag index sub count data => cases r

theorem waitingAccesses_calm (h : Hub) (c : h.Calm k0) : (waitingAccesses h).Calm k0 := by
  have fold : ∀ (l : List HeldAccess) (g : Hub), (∀ a ∈ l, heldForRead a = true) → g.Calm k0 → (forEach l takeHeld g).Calm k0 := by
    intro l
    induction l with
    | nil => exact fun g _ c => c
    | cons a l ih =>
      exact fun g r c => ih _ (fun b m => r b (List.mem_cons_of_mem _ m)) (takeHeld_calm a (r a List.mem_cons_self) g c)
  exact fold _ _ c.2 ⟨c.1, fun a m => absurd m List.not_mem_nil⟩

/-- What a tick does besides returning credits sends nothing over a crossing, while Spire runs and no write waits. -/
theorem tick_calm (h : Hub) (sound : h.spire.faulted = false) (awake : mode h ≠ 6) (c : h.Calm k0) :
    (tick h).Calm (k0.map fun e => (e.1, credited e.2)) := by
  have early : (crossingsTick (spireWatch (spireTick h))).Calm (k0.map fun e => (e.1, credited e.2)) :=
    crossingsTick_calm _ (spireWatch_calm _ (spireTick_calm h sound awake c))
  have asleep := sleepAbort_calm 0 _ (channelsStart_calm _ early)
  exact heldImageWrites_calm _ (waitingAccesses_calm _ (waitingShadows_calm _ (gateWatch_calm _ (foresterTick_calm _ asleep))))

/-- A tick returns the credits of every crossing that is not broken (assumption log 34). -/
theorem crossing_tick (h : Hub) (src dst : Nat) (sound : h.spire.faulted = false) (awake : mode h ≠ 6) (none : h.host.waiting = []) :
    crossing (tick h) src dst = credited (crossing h src dst) := by
  have c : h.Calm h.crossings := ⟨rfl, fun a m => absurd (none ▸ m) List.not_mem_nil⟩
  unfold crossing
  rw [(tick_calm h sound awake c).1]
  exact tabGet_map credited_init _ _

theorem credited_whole {x : Crossing} (e : x.broken = false) : credited x = creditsReturn x := if_neg (by simp [e])

/-- A step with an empty queue is a tick. -/
theorem step_tick {s : State} (e : s.pending = []) : step s = .next { s with hub := tick s.hub } := by
  unfold step
  rw [e]

end Sys2Proof.Machine

open Sys2Proof Sys2Proof.Machine

/-- Settles O1: a transfer and a timeout by the branch of `crossingMove` and `crossingLate` they take, a fault by what raising one
leaves unchanged; a step by what every part of a tick leaves of the crossings. -/
theorem crossingsCarryTransfersInOrder : Obligations.CrossingsCarryTransfersInOrder := by
  unfold Obligations.CrossingsCarryTransfersInOrder
  refine ⟨?free, ?full, ?parity, ?shut, ?late, ?empty, ?ticks⟩
  case free =>
    intro src dst word s whole opened quiet room none
    refine ⟨_, onHub_eq_next (crossingMove_good whole opened word quiet), rfl, rfl, ?_, fun a b n => crossing_setCrossing_ne _ _ n⟩
    rw [← carried_free word room none]
    exact crossing_setCrossing_self _ _ _ _
  case full =>
    intro src dst word s whole opened quiet full
    refine ⟨_, onHub_eq_next (crossingMove_good whole opened word quiet), rfl, ?_⟩
    rw [← carried_full word full]
    exact crossing_setCrossing_self _ _ _ _
  case parity =>
    intro src dst word s whole opened quiet room none
    refine ⟨_, onHub_eq_next (crossingMove_bad whole opened word quiet), recordHeld_parityFault _ _ _ _, ?_,
      faulted_setCrossing (noFault_parityFault _ _ _ _) (parityFault_crossings _ _ _ _), fun k n => kept_parityFault _ _ _ _ k n⟩
    have entered : crossing (parityFault src dst false
        (setCrossing s.hub src dst (carried (crossing s.hub src dst) { word with poison := true }))) src dst
          = carried (crossing s.hub src dst) { word with poison := true } :=
      (crossing_congr (parityFault_crossings _ _ _ _) _ _).trans (crossing_setCrossing_self _ _ _ _)
    dsimp only
    rw [entered, carried_free _ room none]
  case shut =>
    intro src dst word parity s shut
    exact ⟨_, onHub_eq_next (crossingMove_shut word parity shut), rfl, crossing_setCrossing_self _ _ _ _⟩
  case late =>
    intro src dst s whole opened some
    have broke := (crossing_congr (raiseFault_crossings 0x03 src (crossingKey src dst)
      ((crossing s.hub src dst).entries.length + (crossing s.hub src dst).waiting.length) _) src dst).trans
      (crossing_setCrossing_self s.hub src dst { crossing s.hub src dst with
        broken := true, entries := [], waiting := []
        discarded := (crossing s.hub src dst).discarded
          + ((crossing s.hub src dst).entries.length + (crossing s.hub src dst).waiting.length) })
    refine ⟨_, onHub_eq_next (crossingLate_some whole opened some), recordHeld_raiseFault _ _ _ _ _, ?_, ?_, ?_, ?_, ?_,
      faulted_setCrossing (noFault_raiseFault _ _ _ _ _) (raiseFault_crossings _ _ _ _ _), fun k n => kept_raiseFault _ _ _ _ _ k n⟩
    all_goals (dsimp only; rw [broke])
    exact (Nat.add_assoc _ _ _).symm
  case empty =>
    intro src dst s none
    calc exec (.crossingTimeout src dst) s
      _ = .next { s with hub := crossingLate src dst s.hub } := rfl
      _ = .next s := by rw [crossingLate_empty none]
  case ticks =>
    intro src dst s idle whole sound awake none
    refine ⟨_, step_tick idle, ?_⟩
    dsimp only
    rw [crossing_tick s.hub src dst sound awake none, credited_whole whole]
    rfl
end

section
/-! Resets: what power-on, a fall and a rise of RESET_N make of the hub (R53, R57, R60, R699, R702, R708, R776, R782). -/

namespace Sys2Proof.Machine

/-- What a reset makes of the hub does not depend on the balls the board drives. -/
theorem ResetWith.env {c : Nat} {h g : Hub} (r : ResetWith c h g) (e : Env) : ResetWith c h { g with env := e } := r

/-- Without valid supplies, or with RESET_N low, POWER_ON resets the hub. -/
theorem powerOn_resets (straps : Nat) (testMode : Bool) {h : Hub} (c : h.env.supplies = false ∨ h.env.resetLow = true) :
    powerOn straps testMode h
      = { resetHub 1 h with env := { straps := straps % 65536, testMode, resetLow := true, supplies := true } } := by
  have notUp : ¬ (h.env.supplies = true ∧ ¬ h.env.resetLow = true) := by
    rcases c with c | c <;> simp [c]
  exact if_neg notUp

/-- A low RESET_N of 10 µs or more resets a hub in operation. -/
theorem resetFall_long {width : Nat} {h : Hub} (w : 10000 ≤ width) (u : h.env.supplies = true) (l : h.env.resetLow = false) :
    resetFall width h = { resetHub 2 h with env := { h.env with resetLow := true } } := by
  have long : ¬ width < 10000 := by omega
  have acts : ¬ (h.env.resetLow = true ∨ ¬ h.env.supplies = true ∨ width ≤ 200) := by
    rw [u, l]; simp; omega
  unfold resetFall
  rw [if_neg acts]
  simp [long]

/-- A pulse of RESET_N up to 200 ns is ignored (R57). -/
theorem resetFall_short {width : Nat} (h : Hub) (w : width ≤ 200) : resetFall width h = h := if_pos (.inr (.inr w))

/-- A hub whose RESET_N has risen, with the balls as they are sampled. -/
def released (straps : Nat) (testMode : Bool) (h : Hub) : Hub :=
  { h with env := { h.env with straps := straps % 65536, testMode, resetLow := false } }

theorem resetRise_starts (straps : Nat) (testMode : Bool) {h : Hub} (l : h.env.resetLow = true) (u : h.env.supplies = true) :
    resetRise straps testMode h = bootStart straps testMode (released straps testMode h) :=
  if_neg (by simp [l, u])

/-- The status a failed strap check has at once, 0 for none (R53, R782). -/
def strapStatus (straps : Nat) (testMode : Bool) : Nat :=
  if testMode ≠ (straps / 1024 % 4 == 3) then 8 else if straps % 256 = 255 then 9 else 0

/-- The straps' entries and the status, read from a hub where BOOT has started. -/
theorem rd_bootStart_straps (straps : Nat) (testMode : Bool) (h : Hub) :
    rd (bootStart straps testMode h) 0x2000_08 = straps % 65536 ∧ rd (bootStart straps testMode h) 0x2000_0A = straps % 256
      ∧ rd (bootStart straps testMode h) 0x2000_0B = straps / 256 % 4 ∧ rd (bootStart straps testMode h) 0x2000_0C = straps / 1024 % 4
      ∧ rd (bootStart straps testMode h) 0x2000_0D = straps / 4096 % 2 ∧ rd (bootStart straps testMode h) 0x2000_0E = straps / 8192 % 2
      ∧ rd (bootStart straps testMode h) 0x2000_0F = straps / 16384 % 2 ∧ rd (bootStart straps testMode h) 0x2000_10 = straps / 32768 % 2
      ∧ rd (bootStart straps testMode h) 0x2000_11 = strapStatus straps testMode := by
  have at_ : ∀ k, faultKey k = false → k ≠ 0x4B00_11 → rd (bootStart straps testMode h) k
      = rd (wr (strapEntries straps h) 0x2000_11 (strapStatus straps testMode)) k := by
    intro k n m
    rw [rd_bootStart_of _ _ _ _ n m]
    simp [strapStatus, bits]
  have small : strapStatus straps testMode < 2 ^ 48 := by unfold strapStatus; split_ifs <;> decide
  refine ⟨?_, ?_, ?_, ?_, ?_, ?_, ?_, ?_, ?_⟩ <;> rw [at_ _ (by decide) (by decide)]
  case refine_9 => rw [rd_wr_self, Nat.mod_eq_of_lt small]
  all_goals
    simp [strapEntries, wrs, bits]
    omega

/-- BOOT starts in the mode the hub has. -/
theorem mode_bootStart (straps : Nat) (testMode : Bool) (h : Hub) : mode (bootStart straps testMode h) = mode h := by
  unfold mode
  rw [rd_bootStart_of _ _ _ _ (by decide) (by decide)]
  simp [strapEntries, wrs]

end Sys2Proof.Machine

open Sys2Proof Sys2Proof.Machine

/-- Settles O3: the two resets are `resetHub` under other balls, and the rising edge is the start of BOOT. -/
theorem resetPutsEntriesAtTheirDefaults : Obligations.ResetPutsEntriesAtTheirDefaults := by
  unfold Obligations.ResetPutsEntriesAtTheirDefaults
  refine ⟨fun straps testMode s c => ?on, fun width s w u l => ?fall, fun width s w => ?pulse, fun straps testMode s l u => ?rise⟩
  case on => exact ⟨_, onHub_eq_next (powerOn_resets straps testMode c), rfl, (resetHub_with 1 (by decide) s.hub).env _, rfl⟩
  case fall => exact ⟨_, onHub_eq_next (resetFall_long w u l), rfl, (resetHub_with 2 (by decide) s.hub).env _, rfl⟩
  case pulse => exact onHub_eq_next (resetFall_short s.hub w)
  case rise =>
    refine ⟨_, onHub_eq_next (resetRise_starts straps testMode l u), rfl, ?_⟩
    obtain ⟨env, pads, latched⟩ := noEpoch_bootStart straps testMode (released straps testMode s.hub)
    obtain ⟨k08, k0A, k0B, k0C, k0D, k0E, k0F, k10, k11⟩ := rd_bootStart_straps straps testMode (released straps testMode s.hub)
    refine ⟨?_, latched, k08, k0A, k0B, k0C, k0D, k0E, k0F, k10, k11, mode_bootStart _ _ _, pads⟩
    exact env.trans (by simp [released, u])
end

section
/-! The steps of BOOT (R61 to R63, R107, R593): what each leaves when it passes, and what it records when it fails. -/

namespace Sys2Proof.Machine

theorem booting_iff (h : Hub) : booting h = true ↔ mode h = 1 ∧ h.boot.latched = true ∧ h.boot.complete = false := by
  simp [booting, and_assoc]

/-! ### Status and fault of a step that fails (R63) -/

/-- A first status is recorded as it is, and so is one that stands already. -/
theorem rd_stopBoot {code : Nat} {h : Hub} (z : rd h 0x2000_11 = 0 ∨ rd h 0x2000_11 = code) (l : code < 2 ^ 48) :
    rd (stopBoot code h) 0x2000_11 = code := by
  unfold stopBoot
  rw [rd_wr_self]
  rcases z with z | z
  · simp [z]; omega
  · rw [z]; split <;> omega

/-- A failed self-test of BOOT: its status, the fault held, and BOOT's progress as it was. -/
theorem bootFault_recorded {code : Nat} (island detail : Nat) {h : Hub} (z : rd h 0x2000_11 = 0 ∨ rd h 0x2000_11 = code)
    (l : code < 2 ^ 48) : rd (bootFault code island detail h) 0x2000_11 = code
      ∧ recordHeld (bootFault code island detail h) 0x04 = true ∧ (bootFault code island detail h).boot = h.boot := by
  refine ⟨?_, recordHeld_raiseFault _ _ _ _ _, raiseFault_boot _ _ _ _ _⟩
  exact (rd_raiseFault_of _ _ _ _ _ _ (by decide)).trans (rd_stopBoot z l)

theorem rd_bootFault_of (code island detail : Nat) (h : Hub) {k : Nat} (n : faultKey k = false) (m : k ≠ 0x2000_11) :
    rd (bootFault code island detail h) k = rd h k := by
  unfold bootFault stopBoot
  rw [rd_raiseFault_of _ _ _ _ _ _ n, rd_wr_ne _ _ _ _ m]

/-! ### Memory and known-answer tests (steps 4 and 5) -/

/-- The hub with the result of its memory initialisation taken. -/
def memoryTaken (ok : Bool) (h : Hub) : Hub := { h with boot := { h.boot with memDone := true, memOk := ok } }

theorem memoryInitDone_due {h : Hub} (b : booting h = true) (n : h.boot.memDone = false) (ok : Bool) :
    memoryInitDone ok h = if ok then memoryTaken ok h else bootFault 7 0x00 0 (memoryTaken ok h) :=
  if_neg (by simp [b, n])

/-- A step that leaves approved mode as it is, or raises EV_DOME_APPROVED_CHANGE. -/
theorem withApproved_cases (f : Hub → Hub) (h : Hub) : withApproved f h = f h ∨ withApproved f h = raiseEvent (f h) 0x85 0 0 := by
  unfold withApproved
  dsimp only
  split
  · exact .inl rfl
  · exact .inr rfl

theorem kept_withApproved (f : Hub → Hub) (h : Hub) : KeptBut eventRanges (f h) (withApproved f h) := by
  rcases withApproved_cases f h with e | e <;> rw [e]
  · exact KeptBut.refl _ _
  · exact kept_raiseEvent _ _ _ _ (by decide)

theorem noEvent_withApproved (f : Hub → Hub) (h : Hub) : noEvent (withApproved f h) = noEvent (f h) := by
  rcases withApproved_cases f h with e | e <;> rw [e]
  exact noEvent_raiseEvent _ _ _ _

/-- The hub with the results of the known-answer tests taken. -/
def testsTaken (results : Nat) (h : Hub) : Hub :=
  { withApproved (testResults results) h with
    boot := { (withApproved (testResults results) h).boot with
      katDone := true, katOk := domeServes (withApproved (testResults results) h) } }

theorem rd_testsTaken (results : Nat) (h : Hub) (k : Nat) :
    rd (testsTaken results h) k = rd (withApproved (testResults results) h) k := rfl

theorem katOk_testsTaken (results : Nat) (h : Hub) :
    (testsTaken results h).boot.katOk = domeServes (withApproved (testResults results) h) := rfl

theorem knownAnswerDone_due {h : Hub} (b : booting h = true) (n : h.boot.katDone = false) (results : Nat) :
    knownAnswerDone results h
      = if domeServes (withApproved (testResults results) h) then testsTaken results h else bootFault 6 0x12 0 (testsTaken results h) :=
  if_neg (by simp [b, n])

theorem testResults_passed {h : Hub} (g : h.dome.generation ≠ 32) :
    testResults 0x3FF h = wr (wr h 0x4B00_0A 0x3FF) 0x4B00_02 2 := by
  simp [testResults, allTests, g]

/-- Failed tests put Dome in its error state, and leave no other status than 0x0006. -/
theorem testResults_failed {results : Nat} {h : Hub} (l : results < 1024) (n : results ≠ 0x3FF) :
    rd (testResults results h) 0x4B00_02 = 3
      ∧ (rd h 0x2000_11 = 0 → rd (testResults results h) 0x2000_11 = 0 ∨ rd (testResults results h) 0x2000_11 = 6) := by
  have fails : results % 1024 ≠ allTests := by unfold allTests; omega
  unfold testResults
  dsimp only
  rw [if_neg fails]
  split
  · simp
    exact .inl
  · rw [rd_wr_ne _ _ _ _ (by decide), rd_raiseFault_of _ _ _ _ _ _ (by decide)]
    simp

/-! ### The image (step 7) -/

theorem noDict_imageEntries (x : FlashSlot) (h : Hub) : noDict (imageEntries x h) = noDict h := by
  unfold imageEntries
  dsimp only
  split
  · refine (forEach_same noDict _ _ _ fun _ _ g => ?_).trans (noDict_wrs _ _)
    exact noDict_wr _ _ _
  · refine (forEach_same noDict _ _ _ fun _ _ g => ?_).trans (noDict_wrs _ _)
    rfl

theorem update_imageEntries (x : FlashSlot) (h : Hub) : (imageEntries x h).update = h.update :=
  (congrArg Hub.update (noDict_imageEntries x h) :)

theorem boot_imageEntries (x : FlashSlot) (h : Hub) : (imageEntries x h).boot = h.boot :=
  (congrArg Hub.boot (noDict_imageEntries x h) :)

/-- The running image's entries: its versions and the text at 0x100A:00. -/
theorem rd_imageEntries_of (x : FlashSlot) (h : Hub) {k : Nat} (text : k < 0x100A_00 ∨ 0x100A_03 < k)
    (v : k ≠ 0x4F00_03 ∧ k ≠ 0x4F00_04 ∧ k ≠ 0x2001_01) : rd (imageEntries x h) k = rd h k := by
  obtain ⟨protocol, version, format⟩ := v
  have versions : rd (wrs h [(0x4F00_03, x.protocol), (0x4F00_04, x.version), (0x2001_01, x.format)]) k = rd h k := by
    simp [wrs, protocol, version, format]
  unfold imageEntries
  dsimp only
  split
  all_goals refine (forEach_same (fun g => rd g k) _ _ _ fun n m g => ?_).trans versions
  all_goals have := List.mem_range.1 m
  · exact rd_wr_ne _ _ _ _ (by omega)
  · unfold rd toDefault; rw [rdW_wrW_ne _ _ _ _ (by omega)]

theorem slot_setSlot_self {b : Nat} (x : FlashSlot) (h : Hub) : slot (setSlot b x h) b = x := by
  unfold slot setSlot
  by_cases z : b = 0 <;> simp [z]

theorem slot_congr {g h : Hub} (e : g.update = h.update) (b : Nat) : slot g b = slot h b := by unfold slot; rw [e]

/-- The image of a slot starts with its failed-boot count one higher. -/
theorem slot_startSlot (b : Nat) (h : Hub) : slot (startSlot b h) b = { slot h b with failed := (slot h b).failed + 1 } := by
  unfold startSlot
  rw [slot_congr ((update_imageEntries _ _).trans (wrs_update _ _)), slot_setSlot_self]

theorem dict_setSlot (b : Nat) (x : FlashSlot) (h : Hub) : (setSlot b x h).dict = h.dict := by
  unfold setSlot; split <;> rfl

theorem boot_setSlot (b : Nat) (x : FlashSlot) (h : Hub) : (setSlot b x h).boot = h.boot := by
  unfold setSlot; split <;> rfl

theorem running_startSlot {b : Nat} (h : Hub) (l : b < 2 ^ 48) : rd (startSlot b h) 0x4F00_0A = b := by
  unfold startSlot
  rw [rd_imageEntries_of _ _ (by decide) (by decide)]
  simp [wrs]
  omega

theorem bootFlash_strapped {okA okB : Bool} {h : Hub} (l : bootSource h ≤ 1)
    (u : slotUsable (slot h (bootSource h)) (if bootSource h = 0 then okA else okB) = true) :
    bootFlash okA okB h = (some (startSlot (bootSource h) h), h) := by
  have strap : strapped h = bootSource h := Nat.mod_eq_of_lt (by omega)
  have verified : (bif bootSource h == 0 then okA else okB) = if bootSource h = 0 then okA else okB := by
    rw [Bool.cond_eq_ite]; simp
  unfold bootFlash
  dsimp only
  rw [strap, if_pos (by rw [verified]; exact u)]

theorem slotUsable_unverified (x : FlashSlot) : slotUsable x false = false := by simp [slotUsable]

/-- What is left where neither slot has an image that verifies. -/
def noImage (h : Hub) : Hub := skipSlot (1 - strapped h) (raiseEvent (skipSlot (strapped h) h) 0x01 0 0)

theorem bootFlash_none (h : Hub) : bootFlash false false h = (none, noImage h) := by
  simp [bootFlash, slotUsable_unverified, noImage]

theorem rd_skipSlot (b : Nat) (h : Hub) {k : Nat} (n : k ≠ 0x4F00_0C) : rd (skipSlot b h) k = rd h k := by
  unfold skipSlot
  split
  · rw [rd_wr_ne _ _ _ _ n]; exact rd_dict _ _ (dict_setSlot _ _ _) k
  · rfl

theorem boot_skipSlot (b : Nat) (h : Hub) : (skipSlot b h).boot = h.boot := by
  unfold skipSlot
  split
  · exact boot_setSlot _ _ _
  · rfl

theorem rd_noImage_status (h : Hub) : rd (noImage h) 0x2000_11 = rd h 0x2000_11 := by
  unfold noImage
  rw [rd_skipSlot _ _ (by decide), rd_raiseEvent_of _ _ _ _ _ (by decide) (by decide), rd_skipSlot _ _ (by decide)]

theorem eventPending_noImage (h : Hub) : eventPending (noImage h) 0x01 = true := by
  have raised := eventPending_raiseEvent (skipSlot (strapped h) h) 0x01 0 0 0x01 (by decide) (.inl rfl)
  unfold eventPending noImage at *
  rwa [rd_skipSlot _ _ (by decide)]

theorem imageVerifyDone_flash {h : Hub} (due : imageDue h = true) (l : bootSource h ≤ 1) (okA okB okHost : Bool) :
    imageVerifyDone okA okB okHost h = match bootFlash okA okB h with
      | (some a, _) => imageAccepted a
      | (none, a) => stopBoot 4 a := by
  simp [imageVerifyDone, due, l] <;> rfl

/-- An image of the strapped slot that verifies is started and accepted. -/
theorem imageVerifyDone_strapped {okA okB : Bool} {h : Hub} (due : imageDue h = true) (l : bootSource h ≤ 1)
    (u : slotUsable (slot h (bootSource h)) (if bootSource h = 0 then okA else okB) = true) (okHost : Bool) :
    imageVerifyDone okA okB okHost h = imageAccepted (startSlot (bootSource h) h) := by
  rw [imageVerifyDone_flash due l, bootFlash_strapped l u]

theorem imageVerifyDone_none {h : Hub} (due : imageDue h = true) (l : bootSource h ≤ 1) (okHost : Bool) :
    imageVerifyDone false false okHost h = stopBoot 4 (noImage h) := by
  rw [imageVerifyDone_flash due l, bootFlash_none]

theorem imageVerifyDone_host {h : Hub} (due : imageDue h = true) (src : bootSource h = 2) (c : h.boot.control = 1)
    (okA okB okHost : Bool) : imageVerifyDone okA okB okHost h
      = if okHost then imageAccepted (imageEntries (imageSlot h.boot.image) { h with boot := { h.boot with control := 2 } })
        else stopBoot 5 { h with boot := { h.boot with control := 3, image := [] } } := by
  simp [imageVerifyDone, due, src, c]

theorem status_of_imageDue {h : Hub} (due : imageDue h = true) : rd h 0x2000_11 = 0 ∨ rd h 0x2000_11 = 5 := by
  simp only [imageDue, Bool.and_eq_true, Bool.or_eq_true, beq_iff_eq] at due
  exact due.2

theorem bootControl_length {h : Hub} (b : booting h = true) (src : bootSource h = 2) (i : h.boot.imageDone = false)
    (c : h.boot.control ≠ 1) (n : Nat) :
    bootControl n h = { h with boot := { h.boot with control := 1, image := h.boot.image.take n } } := by
  simp [bootControl, b, src, i, c]

/-! ### Firmware self-tests and the entry to COMMISSION (steps 8 to 10) -/

/-- BOOT has come to its end: the hub whose self-tests are judged. -/
def bootEnded (h : Hub) : Hub := { h with boot := { h.boot with complete := true } }

/-- A hub that does not return to RUN by itself. -/
def noReturn (h : Hub) : Hub := { h with modes := { h.modes with autoReturn := false } }

theorem rd_noReturn (h : Hub) (k : Nat) : rd (noReturn h) k = rd h k := rfl

theorem boot_noReturn (h : Hub) : (noReturn h).boot = h.boot := rfl

theorem recordHeld_wr (h : Hub) (k v code : Nat) : recordHeld (wr h k v) code = recordHeld h code := rfl

/-- The hub with its status once the self-tests have been judged. -/
def judged (channels engines : Nat) (h : Hub) : Hub :=
  wr (selftestFault channels engines (markFailed channels engines (startSerdes (backstopRecord (bootEnded h))))) 0x2000_11
    (selftestStatus channels engines)

theorem selftestDone_due {h : Hub} (b : booting h = true) (i : h.boot.imageDone = true) (channels engines : Nat) :
    selftestDone channels engines h = if selftestStatus channels engines = 7 then judged channels engines h
      else bootSucceeds (enterFresh (noReturn
        (whenDo (selftestStatus channels engines == 2) (setLimpCause 0 true) (judged channels engines h)))) :=
  if_neg (by simp [b, i])

theorem startSerdes_boot (h : Hub) : (startSerdes h).boot = { h.boot with transit := true } :=
  forEach_same (fun g => g.boot) _ _ _ fun _ _ g => by split <;> rfl

theorem mode_startSerdes (h : Hub) : mode (startSerdes h) = mode h := by
  refine (forEach_same mode _ _ _ fun p m g => ?_).trans rfl
  have port : p < 2 := by simp at m; omega
  split
  · exact rd_wr_ne _ _ _ _ (by omega)
  · rfl

theorem markFailed_none (h : Hub) : markFailed 0 0 h = h := by
  have none : ∀ n : Nat, bit 0 n = false := fun n => Nat.zero_testBit n
  unfold markFailed
  rw [forEach_fixed fun n _ => by simp [none], forEach_fixed fun n _ => by simp [none]]

theorem judged_passed {h : Hub} (r : h.watch.backstopRec = none) : judged 0 0 h = wr (startSerdes (bootEnded h)) 0x2000_11 1 := by
  have none : (bootEnded h).watch.backstopRec = none := r
  have record : backstopRecord (bootEnded h) = bootEnded h := by
    unfold backstopRecord
    rw [none]
  have status : selftestStatus 0 0 = 1 := rfl
  have noFault : ∀ g, selftestFault 0 0 g = g := fun g => by
    unfold selftestFault
    exact if_pos status
  rw [judged, record, markFailed_none, noFault, status]

/-- Where no channel and no engine failed the hub enters COMMISSION. -/
theorem selftestDone_passed {h : Hub} (b : booting h = true) (i : h.boot.imageDone = true) (r : h.watch.backstopRec = none) :
    selftestDone 0 0 h = bootSucceeds (enterFresh (noReturn (wr (startSerdes (bootEnded h)) 0x2000_11 1))) := by
  rw [selftestDone_due b i, ← judged_passed r]
  exact if_neg (by decide)

theorem boot_benchNumber (h : Hub) : (benchNumber h).boot = h.boot := by unfold benchNumber; split <;> rfl

theorem rd_benchNumber (h : Hub) {k : Nat} (n : k ≠ 0x2000_09) : rd (benchNumber h) k = rd h k := by
  unfold benchNumber
  split
  · exact rd_wr_ne _ _ _ _ n
  · rfl

theorem mode_benchNumber (h : Hub) : mode (benchNumber h) = mode h := rd_benchNumber h (by decide)

/-- The entry to COMMISSION from BOOT: the change of mode, and the load of the configuration starts (R107). -/
theorem enterFresh_fromBoot {h : Hub} (m : mode h = 1) : ModeEntered 1 2 (enterFresh h) ∧ (enterFresh h).boot = h.boot
    ∧ (enterFresh h).store.loading = true ∧ rd (enterFresh h) 0x2000_11 = rd h 0x2000_11 := by
  have old : mode (benchNumber h) = 1 := (mode_benchNumber h).trans m
  refine ⟨?_, ?_, rfl, ?_⟩
  · exact old ▸ changeMode_entered 2 (by decide) (benchNumber h)
  · exact (changeMode_boot 2 _ (by omega)).trans (boot_benchNumber h)
  · exact (rd_changeMode_other 2 _ _ (by omega) (by decide) (by decide)).trans (rd_benchNumber h (by decide))

/-- The success of a CONFIRMED slot clears its count of failed boots and changes nothing else. -/
theorem bootSucceeds_eq (h : Hub) : ∃ u, bootSucceeds h = { h with update := u } := by
  unfold bootSucceeds setSlot
  dsimp only
  split
  · split <;> exact ⟨_, rfl⟩
  · exact ⟨h.update, rfl⟩

theorem commissioned_entered {h : Hub} (b : booting h = true) {g : Hub}
    (e : g = enterFresh (noReturn (wr (startSerdes (bootEnded h)) 0x2000_11 1))) : ModeEntered 1 2 g ∧ rd g 0x2000_11 = 1
    ∧ g.boot.complete = true ∧ g.boot.transit = true ∧ g.store.loading = true := by
  obtain ⟨m, -, -⟩ := (booting_iff h).1 b
  have started : mode (startSerdes (bootEnded h)) = 1 := (mode_startSerdes _).trans m
  have still : mode (noReturn (wr (startSerdes (bootEnded h)) 0x2000_11 1)) = 1 := by
    rw [mode, rd_noReturn, rd_wr_ne _ _ _ _ (by decide)]
    exact started
  obtain ⟨entered, progress, loading, status⟩ := enterFresh_fromBoot still
  rw [← e] at entered progress loading status
  rw [boot_noReturn, wr_boot, startSerdes_boot] at progress
  rw [rd_noReturn, rd_wr_self] at status
  exact ⟨entered, status, by rw [progress]; rfl, by rw [progress], loading⟩

/-- Two or three failed channels leave status 0x0007 with the fault held. -/
theorem selftestDone_stays {channels : Nat} {h : Hub} (c : popCount 3 channels ≥ 2) (b : booting h = true)
    (i : h.boot.imageDone = true) : rd (selftestDone channels 0 h) 0x2000_11 = 7 ∧ recordHeld (selftestDone channels 0 h) 0x04 = true := by
  have status : selftestStatus channels 0 = 7 := if_pos c
  have stays : selftestDone channels 0 h = judged channels 0 h := (selftestDone_due b i _ _).trans (if_pos status)
  have faults : ∀ g, ∃ d, selftestFault channels 0 g = raiseFault 0x04 0x13 7 d g := fun g => by
    unfold selftestFault
    dsimp only
    rw [status]
    exact ⟨_, rfl⟩
  obtain ⟨d, fault⟩ := faults (markFailed channels 0 (startSerdes (backstopRecord (bootEnded h))))
  rw [stays, judged, status, fault, recordHeld_wr]
  exact ⟨rd_wr_self _ _ _, recordHeld_raiseFault _ _ _ _ _⟩

end Sys2Proof.Machine

open Sys2Proof Sys2Proof.Machine

/-- Settles O4: each clause is what the step comes to in its case, and what that case writes. -/
theorem bootStepsLeadToCommissionOrRecordTheirFailure : Obligations.BootStepsLeadToCommissionOrRecordTheirFailure := by
  unfold Obligations.BootStepsLeadToCommissionOrRecordTheirFailure
  refine ⟨fun s b n => ?memory, fun s b n g => ?tests, fun okA okB okHost s due l u => ?flash, fun okA okB s due src c => ?host,
    fun okA okB s due src c => ?hostBad, fun n s b src i c => ?control, fun s b i r => ?selftests, fun s b n z => ?memoryBad,
    fun results s l x b n z => ?testsBad, fun okHost s due l z => ?noImage, fun channels s c b i => ?channels⟩
  case memory => exact onHub_eq_next (memoryInitDone_due b n true)
  case tests =>
    have passed := testResults_passed g
    have kept : KeptBut ((0x4B00_02, 0x4B00_02) :: (0x4B00_0A, 0x4B00_0A) :: eventRanges) s.hub (testResults 0x3FF s.hub) := by
      rw [passed]
      exact ((KeptBut.refl _ s.hub).wr _ _ (by simp)).wr _ _ (by simp)
    have after := kept_withApproved (testResults 0x3FF) s.hub
    have state : rd (withApproved (testResults 0x3FF) s.hub) 0x4B00_02 = 2 := by
      rw [after.rd_eq _ (by decide), passed]
      exact rd_wr_self _ _ _
    have results : rd (withApproved (testResults 0x3FF) s.hub) 0x4B00_0A = 0x3FF := by
      rw [after.rd_eq _ (by decide), passed]
      simp
    have serves : domeServes (withApproved (testResults 0x3FF) s.hub) = true := by simp [domeServes, state]
    have taken : knownAnswerDone 0x3FF s.hub = testsTaken 0x3FF s.hub := (knownAnswerDone_due b n _).trans (if_pos serves)
    refine ⟨_, onHub_eq_next taken, rfl, (katOk_testsTaken _ _).trans serves, (rd_testsTaken _ _ _).trans state,
      (rd_testsTaken _ _ _).trans results, ?_, ?_⟩
    · refine evented_of ?_
      have quiet : noEvent (withApproved (testResults 0x3FF) s.hub) = noEvent s.hub :=
        (noEvent_withApproved _ _).trans (by rw [passed]; rfl)
      exact congrArg (fun x : Hub => { x with boot := (testsTaken 0x3FF s.hub).boot }) quiet
    · exact (kept.trans (after.mono fun _ m => by simp [m])).same rfl
  case flash =>
    refine ⟨_, onHub_eq_next (imageVerifyDone_strapped due l u okHost), rfl, rd_wr_self _ _ _, ?_, ?_⟩
    · exact (rd_wr_ne _ _ _ _ (by decide)).trans (running_startSlot _ (by omega))
    · exact congrArg FlashSlot.failed (slot_startSlot _ _)
  case host =>
    refine ⟨_, onHub_eq_next ((imageVerifyDone_host due src c okA okB true).trans (if_pos rfl)), rfl, ?_, rd_wr_self _ _ _⟩
    exact congrArg Boot.control (boot_imageEntries _ _)
  case hostBad =>
    exact ⟨_, onHub_eq_next ((imageVerifyDone_host due src c okA okB false).trans (if_neg (by decide))), rfl, rfl, rfl,
      rd_stopBoot (status_of_imageDue due) (by decide)⟩
  case control => exact onHub_eq_next (bootControl_length b src i c n)
  case selftests =>
    obtain ⟨u, succeeded⟩ := bootSucceeds_eq (enterFresh (noReturn (wr (startSerdes (bootEnded s.hub)) 0x2000_11 1)))
    refine ⟨_, onHub_eq_next ((selftestDone_passed b i r).trans succeeded), ?_⟩
    exact (commissioned_entered b rfl :)
  case memoryBad =>
    obtain ⟨status, held, progress⟩ := bootFault_recorded 0x00 0 (h := memoryTaken false s.hub) (code := 7) (.inl z) (by decide)
    exact ⟨_, onHub_eq_next ((memoryInitDone_due b n false).trans (if_neg (by decide))), status, held, congrArg Boot.memOk progress⟩
  case testsBad =>
    obtain ⟨error, lowest⟩ := testResults_failed (h := s.hub) l x
    have after := kept_withApproved (testResults results) s.hub
    have state : rd (withApproved (testResults results) s.hub) 0x4B00_02 = 3 := (after.rd_eq _ (by decide)).trans error
    have fails : domeServes (withApproved (testResults results) s.hub) = false := by simp [domeServes, state]
    have before : rd (testsTaken results s.hub) 0x2000_11 = rd (testResults results s.hub) 0x2000_11 :=
      (rd_testsTaken _ _ _).trans (after.rd_eq _ (by decide))
    obtain ⟨status, held, progress⟩ :=
      bootFault_recorded 0x12 0 (h := testsTaken results s.hub) (code := 6) (before ▸ lowest z) (by decide)
    have taken : knownAnswerDone results s.hub = bootFault 6 0x12 0 (testsTaken results s.hub) :=
      (knownAnswerDone_due b n results).trans (if_neg (by simp [fails]))
    have notOk : (testsTaken results s.hub).boot.katOk = false := (katOk_testsTaken _ _).trans fails
    refine ⟨_, onHub_eq_next taken, ?_⟩
    dsimp only
    rw [status, held, progress, notOk, rd_bootFault_of _ _ _ _ (by decide) (by decide), rd_testsTaken]
    exact ⟨rfl, rfl, state, rfl⟩
  case noImage =>
    refine ⟨_, onHub_eq_next (imageVerifyDone_none due l okHost), ?_, rd_stopBoot (.inl ((rd_noImage_status _).trans z)) (by decide), ?_⟩
    · show (noImage s.hub).boot.imageDone = _
      simp [noImage, boot_skipSlot]
    · have pending := eventPending_noImage s.hub
      unfold eventPending stopBoot at *
      rwa [rd_wr_ne _ _ _ _ (by decide)]
  case channels =>
    exact ⟨_, rfl, selftestDone_stays c b i⟩
end

section
/-! Changes of mode by their own triggers: LIMP_EXIT, the resets that are not RESET_N's, the gate's timeout, RUN_ENTRY
(R44, R60, R67, R69). -/

namespace Sys2Proof.Machine

/-! ### Resets that keep the straps (R53, R60) -/

/-- A reset with a cause starts BOOT, with the straps as latched. -/
theorem restart_boots {cause : Nat} (l : cause < 256) (h : Hub) : mode (restart cause h) = 1 ∧ rd (restart cause h) 0x2000_07 = cause
    ∧ rd (restart cause h) 0x2000_08 = rd h 0x2000_08 % 65536 ∧ (restart cause h).boot.latched = true := by
  obtain ⟨recorded, atDefault, -⟩ := resetHub_with cause l h
  unfold restart
  obtain ⟨strap, -⟩ := rd_bootStart_straps (rd h 0x2000_08) h.env.testMode (resetHub cause h)
  refine ⟨?_, ?_, strap, (noEpoch_bootStart _ _ _).2.2⟩
  · have default : mode (resetHub cause h) = (slotDefault 0x2000_01).toNat := congrArg BitVec.toNat (atDefault _ (by decide))
    rw [mode_bootStart, default]
    decide +kernel
  · rw [rd_bootStart_of _ _ _ _ (by decide) (by decide)]
    simp [strapEntries, wrs, recorded]

@[simp] theorem mode_answered (a : Answer) (h : Hub) : mode (answered a h) = mode h := rfl

/-- An accepted software reset (R60). -/
theorem exec_softwareReset {p : Path} {s : State} (o : WriteOpen p 0x2000 0x14 1 s.hub)
    (m : mode s.hub = 2 ∨ mode s.hub = 7 ∨ mode s.hub = 8) :
    exec (.softwareReset p 1) s = .next { s with hub := answered .accepted (restart 3 (writeStart p 0x2000 0x14 s.hub)) } := by
  obtain ⟨isServed, noWait, noCause⟩ := o
  have allowed : (!(mode (writeBegun p 0x2000 0x14 s.hub) == 2 || mode (writeBegun p 0x2000 0x14 s.hub) == 7
      || mode (writeBegun p 0x2000 0x14 s.hub) == 8)) = false := by
    rw [mode_writeBegun]
    rcases m with m | m | m <;> simp [m]
  refine onHub_eq_next (pathWrite_accepted isServed noWait ?_)
  rw [allowed]
  simpa using noCause

/-- Ranger's watchdog acts on a hub out of reset that is not DORMANT. -/
theorem exec_rangerWatchdogExpiry {s : State} (r : s.hub.env.resetLow = false) (l : s.hub.boot.latched = true) (m : mode s.hub ≠ 6) :
    exec .rangerWatchdogExpiry s = .next { s with hub := restart 4 s.hub } := by
  show execRangerWatchdogExpiry s = _
  unfold execRangerWatchdogExpiry onHub
  dsimp only
  rw [if_neg (by simp [r, l, m])]

/-- With every LIMP cause gone the hub returns to RUN (R44). -/
theorem exec_limpExit {s : State} (m : mode s.hub = 4) (c : rd s.hub 0x2000_06 = 0) :
    exec .limpExit s = .next { s with hub := changeMode 3 s.hub } := by
  show execLimpExit s = _
  unfold execLimpExit onHub
  dsimp only
  rw [if_pos ⟨m, c⟩]

/-! ### The gate and the entry to RUN (R67, R69) -/

/-- The gate has stayed closed with RUN asked for, and this is told once (R67). -/
theorem blockedTimeout_first {h : Hub} (m : mode h = 2) (r : h.modes.runRequest = true ∨ rdB h 0x2000_0F = true) (g : gate h ≠ 0xFF)
    (b : h.modes.blocked = false) :
    blockedTimeout h = raiseEvent { h with modes := { h.modes with blocked := true, blockedGate := gate h } } 0x02 0 0 := by
  unfold blockedTimeout
  rw [if_pos ⟨m, r, g⟩, b]
  exact if_neg (by decide)

/-- The hub in RUN with its cycles begun, before a LIMP cause is looked at (R69, R536). -/
def runBegun (h : Hub) : Hub :=
  { whenDo (rd h 0x2000_03 == 6) unmaskAll (beginCycles (changeMode 3 h)) with
    modes := { (beginCycles (changeMode 3 h)).modes with autoReturn := false } }

theorem runEntry_open {h : Hub} (m : mode h = 2) (g : gate h = 0xFF) (w : runWanted h = true) :
    runEntry h = if rd (runBegun h) 0x2000_06 = 0 then runBegun h else changeMode 4 (runBegun h) :=
  (if_pos ⟨m, g, w⟩).trans (ite_not _ _ _)

end Sys2Proof.Machine

open Sys2Proof Sys2Proof.Machine

/-- Settles O7: each trigger comes to a change of mode, a restart of BOOT or an event. -/
theorem modesChangeOnTheirTriggers : Obligations.ModesChangeOnTheirTriggers := by
  unfold Obligations.ModesChangeOnTheirTriggers
  refine ⟨fun s m c => ?limpExit, fun p s o m => ?softwareReset, fun s r l m => ?watchdog, fun s m r g b => ?blocked,
    fun s m g w => ?runEntry⟩
  case limpExit =>
    exact ⟨_, exec_limpExit m c, m ▸ changeMode_entered 3 (by decide) s.hub⟩
  case softwareReset =>
    obtain ⟨boots, cause, strap, latched⟩ := restart_boots (cause := 3) (by decide) (writeStart p 0x2000 0x14 s.hub)
    rw [rd_writeStart _ _ _ _ _ (by decide)] at strap
    refine ⟨_, exec_softwareReset o m, ?_⟩
    dsimp only
    rw [mode_answered, rd_answered, rd_answered, answered_boot]
    exact ⟨boots, cause, strap, latched, rfl⟩
  case watchdog => exact ⟨_, exec_rangerWatchdogExpiry r l m, restart_boots (by decide) s.hub⟩
  case blocked =>
    refine ⟨_, onHub_eq_next (blockedTimeout_first m r g b), eventPending_raiseEvent _ _ _ _ _ (by decide) (.inl rfl), ?_,
      evented_raiseEvent _ _ _ _⟩
    have noted : KeptBut eventRanges s.hub { s.hub with modes := { s.hub.modes with blocked := true, blockedGate := gate s.hub } } :=
      (KeptBut.refl _ _).same rfl
    exact noted.after_raiseEvent 0x02 0 0 (by decide) fun _ m => m
  case runEntry =>
    exact ⟨m ▸ changeMode_entered 3 (by decide) s.hub, runBegun s.hub, rfl, onHub_eq_next (runEntry_open m g w)⟩
end

section
/-! Firmware update (R718 to R732): the update commands, the load of an image from chunks or from a puller's answers, what a hub
serves to pullers. -/

namespace Sys2Proof.Machine

/-! ### A write whose rule adds a bad value and another cause -/

/-- Where no cause applies, a bad value or another cause gives its code, the value first. -/
theorem refusalCode_valueOther {c : Causes} (o : refusalCode c = none) (bad barred : Bool) :
    refusalCode { c with value := c.value || bad, other := c.other || barred }
      = if bad then some 4 else if barred then some 10 else none := by
  obtain ⟨a, b, d, e, f, g, i, j, k, l⟩ := (refusalCode_none c).1 o
  simp [refusalCode, a, b, d, e, f, g, i, j, k, l]

/-- A write that meets no general cause of refusal is refused with 0x04 for a bad value, else with 0x0A where it is barred, else it
takes effect. -/
def writeOutcome (p : Path) (i j : Nat) (bad barred : Bool) (f : Hub → Hub) (h : Hub) : Hub :=
  if bad then refuse p i j 4 true (writeBegun p i j h)
  else if barred then refuse p i j 10 true (writeBegun p i j h)
  else f (writeStart p i j h)

theorem pathWrite_outcome {p : Path} {i j v : Nat} {causes : Hub → Causes → Causes} {h : Hub} (f : Hub → Hub) (bad barred : Bool)
    (o : WriteOpen p i j v h)
    (e : ∀ c : Causes, causes (writeBegun p i j h) c = { c with value := c.value || bad, other := c.other || barred }) :
    pathWrite p i j v causes f h = writeOutcome p i j bad barred f h := by
  obtain ⟨isServed, noWait, noCause⟩ := o
  have code := refusalCode_valueOther noCause bad barred
  rw [← e] at code
  unfold writeOutcome
  rw [pathWrite_now noWait]
  split_ifs at code ⊢ with isBad isBarred
  · exact pathTry_refused isServed code
  · exact pathTry_refused isServed code
  · exact pathTry_accepted isServed code

/-- What a refusal of an update's write leaves: the answer and its record, and the flash as it was. -/
structure UpdateRefused (code : Nat) (h g : Hub) : Prop where
  answer : g.answer = .refused code
  update : g.update = h.update
  kept : KeptBut pathRanges h g

theorem updateRefused_refuse (p : Path) (i j c : Nat) (h : Hub) : UpdateRefused c h (refuse p i j c true (writeBegun p i j h)) :=
  ⟨refuse_answer _ _ _ _ _ _, (refuse_update _ _ _ _ _ _).trans (writeBegun_update _ _ _ _), kept_refusedWrite p i j c h⟩

theorem writeOutcome_bad (p : Path) (i j : Nat) (barred : Bool) (f : Hub → Hub) (h : Hub) :
    UpdateRefused 4 h (writeOutcome p i j true barred f h) := updateRefused_refuse p i j 4 h

theorem writeOutcome_barred (p : Path) (i j : Nat) (f : Hub → Hub) (h : Hub) :
    UpdateRefused 10 h (writeOutcome p i j false true f h) := updateRefused_refuse p i j 10 h

/-! ### The hub from which an update's write takes effect -/

@[simp] theorem writeTaken_update (p : Path) (i j : Nat) (h : Hub) : (writeTaken p i j h).update = h.update := by
  unfold writeTaken endHalf
  split <;> simp

@[simp] theorem writeStart_update (p : Path) (i j : Nat) (h : Hub) : (writeStart p i j h).update = h.update := by
  simp [writeStart]

@[simp] theorem writeStart_dome (p : Path) (i j : Nat) (h : Hub) :
    (writeStart p i j h).dome = h.dome := by
  have taken : ∀ g : Hub, (writeTaken p i j g).dome = g.dome := fun g => by
    unfold writeTaken endHalf
    split <;> simp
  simp [writeStart, taken]

@[simp] theorem writeStart_ring (p : Path) (i j : Nat) (h : Hub) : (writeStart p i j h).ring = h.ring := by
  have taken : ∀ g : Hub, (writeTaken p i j g).ring = g.ring := fun g => by
    unfold writeTaken endHalf
    split <;> simp
  simp [writeStart, taken]

theorem job_writeStart (p : Path) (i j : Nat) (h : Hub) : (writeStart p i j h).store.job = h.store.job := by
  have taken : ∀ g : Hub, (writeTaken p i j g).store.job = g.store.job := fun g => by
    unfold writeTaken noteUnstored endHalf
    split <;> split <;> rfl
  rw [writeStart, taken]
  simp

/-- What a write on a path does not touch of an update: its own fields, the store, Dome, the ring, and every register an update reads. -/
structure UpdateSame (h g : Hub) : Prop where
  update : g.update = h.update
  job : g.store.job = h.store.job
  dome : g.dome = h.dome
  ring : g.ring = h.ring
  kept : KeptBut pathRanges h g

theorem updateSame_writeStart (p : Path) (i j : Nat) (h : Hub) : UpdateSame h (writeStart p i j h) :=
  ⟨writeStart_update p i j h, job_writeStart p i j h, writeStart_dome p i j h, writeStart_ring p i j h, kept_writeStart p i j h⟩

theorem updateSame_writeBegun (p : Path) (i j : Nat) (h : Hub) : UpdateSame h (writeBegun p i j h) :=
  ⟨writeBegun_update p i j h, congrArg Store.job (writeBegun_store p i j h), writeBegun_dome p i j h,
    writeBegun_ring p i j h, kept_writeBegun p i j h⟩

theorem UpdateSame.refl (h : Hub) : UpdateSame h h := ⟨rfl, rfl, rfl, rfl, KeptBut.refl _ h⟩

section
variable {h g : Hub} (s : UpdateSame h g)
include s

theorem UpdateSame.kept_after {q : List (Nat × Nat)} {k : Hub} (y : KeptBut q g k) : KeptBut (q ++ pathRanges) h k :=
  (s.kept.mono fun _ m => List.mem_append_right _ m).trans (y.mono fun _ m => List.mem_append_left _ m)

theorem UpdateSame.state : updateState g = updateState h := s.kept.rd_eq 0x4F00_01 (by decide)
theorem UpdateSame.mode_eq : mode g = mode h := s.kept.rd_eq 0x2000_01 (by decide)
theorem UpdateSame.source : bootSource g = bootSource h := s.kept.rd_eq 0x2000_0C (by decide)
theorem UpdateSame.strapped_eq : strapped g = strapped h := congrArg (· % 2) s.source
theorem UpdateSame.other : otherSlot g = otherSlot h := congrArg (1 - ·) s.strapped_eq
theorem UpdateSame.pulls_eq : pulls g = pulls h := congrArg (· != 0) (s.kept.rd_eq 0x2F01_03 (by decide))
theorem UpdateSame.slot_eq (b : Nat) : slot g b = slot h b := slot_congr s.update b
theorem UpdateSame.runningSlot_eq : runningSlot g = runningSlot h := s.kept.rd_eq 0x4F00_0A (by decide)
theorem UpdateSame.running : runningImage g = runningImage h := by
  unfold runningImage
  rw [s.runningSlot_eq, s.slot_eq]
theorem UpdateSame.number : hubNumber g = hubNumber h := s.kept.rd_eq 0x2000_09 (by decide)
theorem UpdateSame.present : othersPresent g = othersPresent h := by
  have heardSame : ∀ b n, heard g b n = heard h b n := fun b n => by unfold heard; rw [s.ring]
  have near : ∀ b n, reachable g b n = reachable h b n := fun b n => by
    unfold reachable distance beyondBreak
    simp only [heardSame, s.ring]
  unfold othersPresent
  simp only [near, s.number]

end

/-! ### The update commands (R728, Table 3) -/

/-- Outside SERVICE, or in a boot without a slot, every update command is refused with 0x0A. -/
def updateBarred (h : Hub) : Bool := mode h != 7 || decide (2 ≤ bootSource h)

/-- What an update command's own causes come to: a state that does not give it, or a hub that is barred from it. -/
theorem updateCommand_outcome {p : Path} {c : Nat} {states : List Nat} {more : Hub → Causes → Causes} {h : Hub} (f : Hub → Hub)
    (bad barred : Bool) (o : WriteOpen p 0x2F01 1 c h)
    (e : ∀ g, UpdateSame h g → ∀ c : Causes, more g { c with value := c.value || !states.contains (updateState h)
                                                             other := c.other || updateBarred h }
      = { c with value := c.value || bad, other := c.other || barred }) :
    updateCommand p c states more f h = writeOutcome p 0x2F01 1 bad barred f h := by
  have same := updateSame_writeBegun p 0x2F01 1 h
  refine pathWrite_outcome f bad barred o fun c => ?_
  have own : updateCauses states (writeBegun p 0x2F01 1 h) c
      = { c with value := c.value || !states.contains (updateState h), other := c.other || updateBarred h } := by
    unfold updateCauses updateBarred
    rw [same.state, same.mode_eq, same.source, Bool.or_assoc]
  rw [own]
  exact e _ same c

/-- An update command on the hub in hand, with no cause but its states and those of every update command. -/
theorem exec_updateBegin {p : Path} {s : State} (ok : Bool) (o : WriteOpen p 0x2F01 1 1 s.hub) : exec (.updateBegin p ok) s
    = onHub s (writeOutcome p 0x2F01 1 (!List.contains [0, 3, 5] (updateState s.hub)) (updateBarred s.hub) (imageWrite (.start ok))) :=
  onHub_congr (updateCommand_outcome _ _ _ o fun _ _ _ => rfl)

theorem exec_updateAbandon {p : Path} {s : State} (o : WriteOpen p 0x2F01 1 4 s.hub) : exec (.updateAbandon p) s
    = onHub s (writeOutcome p 0x2F01 1 (!List.contains [1, 2, 3] (updateState s.hub)) (updateBarred s.hub) abandonLoad) :=
  onHub_congr (updateCommand_outcome _ _ _ o fun _ _ _ => rfl)

theorem exec_updateConfirm {p : Path} {s : State} (o : WriteOpen p 0x2F01 1 5 s.hub) : exec (.updateConfirm p) s
    = onHub s (writeOutcome p 0x2F01 1 (!List.contains [4] (updateState s.hub)) (updateBarred s.hub) confirmSlot) :=
  onHub_congr (updateCommand_outcome _ _ _ o fun _ _ _ => rfl)

theorem exec_updateRevert {p : Path} {s : State} (o : WriteOpen p 0x2F01 1 6 s.hub) : exec (.updateRevert p) s
    = onHub s (writeOutcome p 0x2F01 1 (!List.contains [4] (updateState s.hub)) (updateBarred s.hub) revertSlot) :=
  onHub_congr (updateCommand_outcome _ _ _ o fun _ _ _ => rfl)

/-- A puller finishes by itself: FINISH is refused it (R728). -/
theorem exec_updateFinish {p : Path} {s : State} (o : WriteOpen p 0x2F01 1 2 s.hub) : exec (.updateFinish p) s
    = onHub s (writeOutcome p 0x2F01 1 (!List.contains [1] (updateState s.hub) || pulls s.hub) (updateBarred s.hub)
        fun h => wr h 0x4F00_01 2) :=
  onHub_congr (updateCommand_outcome _ _ _ o fun g same c => by rw [same.pulls_eq, ← Bool.or_assoc])

/-- The five commands that only their state, the pull and the mode can refuse. -/
theorem exec_updateCommand {p : Path} {c : Nat} {i : Instr} {states : List Nat} {s : State}
    (k : i = .updateBegin p true ∧ c = 1 ∧ states = [0, 3, 5] ∨ i = .updateFinish p ∧ c = 2 ∧ states = [1]
      ∨ i = .updateAbandon p ∧ c = 4 ∧ states = [1, 2, 3] ∨ i = .updateConfirm p ∧ c = 5 ∧ states = [4]
      ∨ i = .updateRevert p ∧ c = 6 ∧ states = [4]) (o : WriteOpen p 0x2F01 1 c s.hub) :
    ∃ f, exec i s = onHub s (writeOutcome p 0x2F01 1 (!states.contains (updateState s.hub) || (c == 2 && pulls s.hub))
      (updateBarred s.hub) f) := by
  rcases k with ⟨rfl, rfl, rfl⟩ | ⟨rfl, rfl, rfl⟩ | ⟨rfl, rfl, rfl⟩ | ⟨rfl, rfl, rfl⟩ | ⟨rfl, rfl, rfl⟩
  · exact ⟨imageWrite (.start true), by rw [exec_updateBegin true o]; simp⟩
  · exact ⟨fun h => wr h 0x4F00_01 2, by rw [exec_updateFinish o]; simp⟩
  · exact ⟨abandonLoad, by rw [exec_updateAbandon o]; simp⟩
  · exact ⟨confirmSlot, by rw [exec_updateConfirm o]; simp⟩
  · exact ⟨revertSlot, by rw [exec_updateRevert o]; simp⟩

theorem updateBarred_false {h : Hub} (m : mode h = 7) (b : bootSource h < 2) : updateBarred h = false := by
  simp [updateBarred, m]; omega

theorem updateBarred_true {h : Hub} (m : mode h ≠ 7 ∨ 2 ≤ bootSource h) : updateBarred h = true := by
  rcases m with m | m <;> simp [updateBarred, m]

/-- A command served takes effect from a hub that stands with its update as the hub in hand does. -/
theorem served_from {p : Path} {s : State} {bad barred : Bool} {f : Hub → Hub} {i : Instr} {j k : Nat}
    (e : exec i s = onHub s (writeOutcome p j k bad barred f)) (b : bad = false) (c : barred = false) :
    ∃ g, UpdateSame s.hub g ∧ g.answer = .accepted ∧ exec i s = .next { s with hub := f g } := by
  subst b c
  exact ⟨writeStart p j k s.hub, updateSame_writeStart p j k s.hub, writeStart_answer p j k s.hub, e⟩

theorem refused_bad {p : Path} {s : State} {bad barred : Bool} {f : Hub → Hub} {i : Instr} {j k : Nat}
    (e : exec i s = onHub s (writeOutcome p j k bad barred f)) (b : bad = true) :
    ∃ t, exec i s = .next t ∧ t.hub.answer = .refused 4 ∧ t.hub.update = s.hub.update ∧ KeptBut pathRanges s.hub t.hub := by
  subst b
  obtain ⟨answer, update, kept⟩ := writeOutcome_bad p j k barred f s.hub
  exact ⟨_, e, answer, update, kept⟩

theorem refused_barred {p : Path} {s : State} {bad barred : Bool} {f : Hub → Hub} {i : Instr} {j k : Nat}
    (e : exec i s = onHub s (writeOutcome p j k bad barred f)) (b : bad = false) (c : barred = true) :
    ∃ t, exec i s = .next t ∧ t.hub.answer = .refused 10 ∧ t.hub.update = s.hub.update ∧ KeptBut pathRanges s.hub t.hub := by
  subst b c
  obtain ⟨answer, update, kept⟩ := writeOutcome_barred p j k f s.hub
  exact ⟨_, e, answer, update, kept⟩

/-! ### Image writes wait their turn (R723) -/

theorem imageWrite_waits (w : ImageWrite) {h : Hub} (c : h.store.job.isSome = true ∨ h.dome.writing = true ∨ h.update.held ≠ []) :
    imageWrite w h = { h with update := { h.update with held := h.update.held ++ [w] } } := by
  refine if_pos ?_
  rcases c with c | c | c <;> simp [flashTaken, c]

theorem imageWrite_now (w : ImageWrite) {h : Hub} (j : h.store.job = none) (d : h.dome.writing = false) (n : h.update.held = []) :
    imageWrite w h = makeImageWrite w h := if_neg (by simp [flashTaken, j, d, n])

theorem heldImageWrites_taken {h : Hub} (c : h.store.job.isSome = true ∨ h.dome.writing = true) : heldImageWrites h = h := by
  refine if_pos ?_
  rcases c with c | c <;> simp [flashTaken, c]

theorem heldImageWrites_one {w : ImageWrite} {h : Hub} (j : h.store.job = none) (d : h.dome.writing = false) (e : h.update.held = [w]) :
    heldImageWrites h = makeImageWrite w { h with update := { h.update with held := [] } } := by
  unfold heldImageWrites
  rw [if_neg (by simp [flashTaken, j, d]), e]
  show makeImageWrite w { h with update := { h.update with held := h.update.held.drop 1 } } = _
  rw [e]
  rfl

/-! ### The two slots -/

theorem strapped_lt (h : Hub) : strapped h < 2 := Nat.mod_lt _ (by decide)

theorem slot_setSlot_other {b c : Nat} (n : b = 0 ↔ c ≠ 0) (x : FlashSlot) (h : Hub) : slot (setSlot b x h) c = slot h c := by
  unfold slot setSlot
  by_cases z : b = 0
  · simp [z, n.1 z]
  · have : c = 0 := by_contra fun m => z (n.2 m)
    simp [z, this]

theorem strapped_other (h : Hub) : strapped h = 0 ↔ otherSlot h ≠ 0 := by
  have := strapped_lt h
  unfold otherSlot
  omega

/-- Only the slots of a hub change where a slot is set. -/
theorem setSlot_eq (b : Nat) (x : FlashSlot) (h : Hub) : ∃ y z, setSlot b x h = { h with update := { h.update with slotA := y, slotB := z } } := by
  unfold setSlot
  split
  · exact ⟨_, _, rfl⟩
  · exact ⟨_, _, rfl⟩

theorem rd_setSlot (b : Nat) (x : FlashSlot) (h : Hub) (k : Nat) : rd (setSlot b x h) k = rd h k := rd_dict _ _ (dict_setSlot b x h) k

theorem strapped_congr {g h : Hub} (e : rd g 0x2000_0C = rd h 0x2000_0C) : strapped g = strapped h := congrArg (· % 2) e

/-! ### The end of a load -/

theorem rd_loadFails {code : Nat} (l : code < 256) (h : Hub) :
    rd (loadFails code h) 0x4F00_01 = 5 ∧ rd (loadFails code h) 0x4F00_0C = code := by
  unfold loadFails wrs wrs wrs
  rw [rd_wr_ne _ _ _ _ (by decide), rd_wr_self, rd_wr_self]
  omega

theorem update_loadFails (code : Nat) (h : Hub) :
    (loadFails code h).update = { h.update with held := [], requests := [], busy := false } := wrs_update _ _

theorem kept_loadFails (code : Nat) (h : Hub) : KeptBut [(0x4F00_01, 0x4F00_01), (0x4F00_0C, 0x4F00_0C)] h (loadFails code h) := by
  unfold loadFails
  refine KeptBut.wrs ?_ _ ?_
  · exact (KeptBut.refl _ h).same rfl
  · simp

/-! ### Begin (R728) -/

/-- The running image secured in the other slot, unless it stands there CONFIRMED. -/
def imageSecured (h : Hub) : Hub :=
  match runningImage h with
  | some x =>
    if slot h (otherSlot h) = { x with state := 3, failed := (slot h (otherSlot h)).failed } then h
    else setSlot (otherSlot h) { x with state := 3, failed := 0 } h
  | none => h

/-- The load begun: the strapped slot erased, RECEIVING with nothing received. -/
def imageLoadBegun (h : Hub) : Hub :=
  wrs (clearLoad (eraseStrapped (imageSecured h))) [(0x4F00_01, 1), (0x4F00_02, 0), (0x4F00_05, 0)]

theorem beginLoad_failed (h : Hub) : beginLoad false h = loadFails 5 h := rfl

theorem beginLoad_done (h : Hub) : beginLoad true h = if pulls (imageLoadBegun h) then pullRequest 0 512 (imageLoadBegun h) else imageLoadBegun h := rfl

/-- Only the slots of a hub change where the running image is secured. -/
theorem imageSecured_eq (h : Hub) : ∃ y z, imageSecured h = { h with update := { h.update with slotA := y, slotB := z } } := by
  unfold imageSecured
  split
  · split
    · exact ⟨_, _, rfl⟩
    · exact setSlot_eq _ _ _
  · exact ⟨_, _, rfl⟩

theorem dict_imageSecured (h : Hub) : (imageSecured h).dict = h.dict := by
  obtain ⟨y, z, e⟩ := imageSecured_eq h
  rw [e]

theorem slot_imageSecured (h : Hub) : (∀ x, runningImage h = some x → ∃ n, slot (imageSecured h) (otherSlot h) = { x with state := 3, failed := n })
    ∧ (runningImage h = none → slot (imageSecured h) (otherSlot h) = slot h (otherSlot h)) := by
  unfold imageSecured
  cases runningImage h with
  | none => exact ⟨fun _ e => by simp at e, fun _ => rfl⟩
  | some x =>
    refine ⟨fun y e => ?_, fun e => by simp at e⟩
    obtain rfl : x = y := by simpa using e
    dsimp only
    split
    · next stands => exact ⟨_, stands⟩
    · exact ⟨0, slot_setSlot_self _ _⟩

theorem kept_imageLoadBegun (h : Hub) : KeptBut [(0x4F00_01, 0x4F00_02), (0x4F00_05, 0x4F00_05)] h (imageLoadBegun h) := by
  have dict : (clearLoad (eraseStrapped (imageSecured h))).dict = h.dict := (dict_setSlot _ _ _).trans (dict_imageSecured h)
  unfold imageLoadBegun
  exact KeptBut.wrs ((KeptBut.refl _ h).same dict) _ (by simp)

/-- A load that has begun: the strapped slot erased, the running image in the other one, nothing received. -/
structure LoadOpened (h g : Hub) : Prop where
  state : rd g 0x4F00_01 = 1
  count : rd g 0x4F00_02 = 0
  strap : slot g (strapped h) = emptySlot
  secured : slot g (otherSlot h) = slot (imageSecured h) (otherSlot h)
  received : g.update.received = []
  answer : g.answer = h.answer
  kept : KeptBut [(0x4F00_01, 0x4F00_02), (0x4F00_05, 0x4F00_05)] h g

theorem update_imageLoadBegun (h : Hub) :
    (imageLoadBegun h).update = (clearLoad (setSlot (strapped h) emptySlot (imageSecured h))).update := by
  have strap : strapped (imageSecured h) = strapped h := strapped_congr (rd_dict _ _ (dict_imageSecured h) _)
  rw [← strap]
  exact wrs_update _ _

theorem imageLoadBegun_opened (h : Hub) : LoadOpened h (imageLoadBegun h) := by
  have slots : ∀ b, slot (imageLoadBegun h) b = slot (setSlot (strapped h) emptySlot (imageSecured h)) b := fun b =>
    slot_congr (update_imageLoadBegun h) b
  constructor
  case state => simp [imageLoadBegun, wrs]
  case count => simp [imageLoadBegun, wrs]
  case strap => rw [slots, slot_setSlot_self]
  case secured => rw [slots, slot_setSlot_other (strapped_other h)]
  case received => rw [update_imageLoadBegun]; rfl
  case answer =>
    obtain ⟨y, z, image⟩ := imageSecured_eq h
    obtain ⟨y', z', erased⟩ := setSlot_eq (strapped (imageSecured h)) emptySlot (imageSecured h)
    refine (wrs_answer _ _).trans ?_
    unfold eraseStrapped
    rw [erased, image]
    rfl
  case kept => exact kept_imageLoadBegun h

theorem requests_imageLoadBegun (h : Hub) : (imageLoadBegun h).update.requests = [] := by
  rw [update_imageLoadBegun]; rfl

theorem nextTag_imageLoadBegun (h : Hub) : (imageLoadBegun h).update.nextTag = h.update.nextTag := by
  obtain ⟨y, z, set⟩ := setSlot_eq (strapped h) emptySlot (imageSecured h)
  obtain ⟨y', z', image⟩ := imageSecured_eq h
  rw [update_imageLoadBegun, set, image]
  rfl

/-! ### Frames between hubs -/

/-- A hub with a number queues what it originates at the port. -/
theorem portFrames_originate {h : Hub} (n : hubNumber h ≠ 0) (p t : Nat) (c : Cls) (d x g : Nat) (l : List Word) :
    portFrames (originate h p t c d x g l) p = portFrames h p ++ [newFrame h t c d x g l] := by
  unfold originate
  rw [if_neg (by simp [mayOriginate, n])]
  exact tabGet_tabSet_self [] h.portQ p _

/-- REQUEST for a part of the image, as Table 4 lays it out. -/
def requestFrame (tag off len : Nat) (h : Hub) : Frame :=
  newFrame h 0xA .bk (rd h 0x2F01_03) 0x0100 0
    [BitVec.ofNat 48 (tag % 256 * 2 ^ 40 + rd h 0x2F01_04 % 2 * 2 ^ 32 + off % 2 ^ 32), BitVec.ofNat 48 (len % 65536)]

theorem portFrames_pullFrame {h : Hub} (n : hubNumber h ≠ 0) (tag off len : Nat) :
    portFrames (pullFrame tag off len h) 6 = portFrames h 6 ++ [requestFrame tag off len h] := portFrames_originate n _ _ _ _ _ _ _

/-- A new request outstanding, its tag used. -/
def requestNoted (off len : Nat) (h : Hub) : Hub :=
  { h with update := { h.update with
    nextTag := (h.update.nextTag + 1) % 256, requests := h.update.requests ++ [(h.update.nextTag, off, len, 0)] } }

theorem dict_pullRequest (off len : Nat) (h : Hub) : (pullRequest off len h).dict = h.dict := originate_dict _ _ _ _ _ _ _ _

theorem update_pullRequest (off len : Nat) (h : Hub) : (pullRequest off len h).update = (requestNoted off len h).update :=
  originate_update _ _ _ _ _ _ _ _

theorem requests_pullRequest (off len : Nat) (h : Hub) :
    (pullRequest off len h).update.requests = h.update.requests ++ [(h.update.nextTag, off, len, 0)] :=
  congrArg Update.requests (update_pullRequest off len h)

theorem portFrames_pullRequest {h : Hub} (n : hubNumber h ≠ 0) (off len : Nat) : portFrames (pullRequest off len h) 6
    = portFrames h 6 ++ [requestFrame h.update.nextTag off len (requestNoted off len h)] :=
  portFrames_pullFrame (h := requestNoted off len h) n _ _ _

/-- What a request for a part of the image is: to the source, in class BK. -/
theorem requestFrame_fields (tag off len : Nat) (h : Hub) : (requestFrame tag off len h).ftype = 10
    ∧ (requestFrame tag off len h).cls = .bk ∧ (requestFrame tag off len h).dst = rd h 0x2F01_03
    ∧ (requestFrame tag off len h).specific = 0x100 := ⟨rfl, rfl, rfl, rfl⟩

theorem rd_requestNoted (off len : Nat) (h : Hub) (k : Nat) : rd (requestNoted off len h) k = rd h k := rfl

theorem pullRequest_opened {h g : Hub} (o : LoadOpened h g) (off len : Nat) : LoadOpened h (pullRequest off len g) := by
  obtain ⟨state, count, strap, secured, received, answer, kept⟩ := o
  have dict := dict_pullRequest off len g
  have slots : ∀ b, slot (pullRequest off len g) b = slot g b := fun b => slot_congr (update_pullRequest off len g) b
  refine ⟨(rd_dict _ _ dict _).trans state, (rd_dict _ _ dict _).trans count, (slots _).trans strap, (slots _).trans secured, ?_,
    (originate_answer _ _ _ _ _ _ _ _).trans answer, kept.same dict⟩
  rw [update_pullRequest]
  exact received

theorem pulls_imageLoadBegun (h : Hub) : pulls (imageLoadBegun h) = pulls h :=
  congrArg (· != 0) ((kept_imageLoadBegun h).rd_eq 0x2F01_03 (by decide))

/-- A load from chunks asks for nothing. -/
theorem beginLoad_chunks {h : Hub} (p : pulls h = false) : beginLoad true h = imageLoadBegun h := by
  rw [beginLoad_done, if_neg (by simp [pulls_imageLoadBegun, p])]

/-- A puller asks for the header first. -/
theorem beginLoad_pulls {h : Hub} (p : pulls h = true) : beginLoad true h = pullRequest 0 512 (imageLoadBegun h) := by
  rw [beginLoad_done, if_pos ((pulls_imageLoadBegun h).trans p)]

theorem beginLoad_opened (h : Hub) : LoadOpened h (beginLoad true h) := by
  cases p : pulls h with
  | false => exact beginLoad_chunks p ▸ imageLoadBegun_opened h
  | true => exact beginLoad_pulls p ▸ pullRequest_opened (imageLoadBegun_opened h) 0 512

/-! ### Bytes of the image (R729, R730) -/

theorem putBytes_end (img bs : List Byte) : putBytes img img.length bs = img ++ bs := by
  simp [putBytes]

/-- The hub with bytes appended to the image it has received. -/
def imageAppended (bs : List Byte) (h : Hub) : Hub :=
  wr { h with update := { h.update with received := h.update.received ++ bs } } 0x4F00_02 (rd h 0x4F00_02 + bs.length)

theorem imageBytes_end (bs : List Byte) (h : Hub) : imageBytes h.update.received.length bs h = imageAppended bs h := by
  unfold imageBytes imageAppended
  rw [putBytes_end]

theorem update_imageAppended (bs : List Byte) (h : Hub) :
    (imageAppended bs h).update = { h.update with received := h.update.received ++ bs } := rfl

theorem kept_imageAppended (bs : List Byte) (h : Hub) : KeptBut [(0x4F00_02, 0x4F00_02)] h (imageAppended bs h) := by
  refine KeptBut.wr ?_ _ _ (by simp)
  exact (KeptBut.refl _ h).same rfl

theorem received_imageAppended {bs : List Byte} {h : Hub} (l : rd h 0x4F00_02 + bs.length < 2 ^ 48) :
    rd (imageAppended bs h) 0x4F00_02 = rd h 0x4F00_02 + bs.length :=
  (rd_wr_self _ _ _).trans (Nat.mod_eq_of_lt l)

/-- A header is checked against what is in the fuses and the major of the running image, and nothing else of the hub. -/
theorem headerResult_congr {g h : Hub} (r : g.update.revoked = h.update.revoked) (f : g.update.floor = h.update.floor)
    (k : rd g 0x4F00_03 = rd h 0x4F00_03) (bs : List Byte) (total : Nat) : headerResult g bs total = headerResult h bs total := by
  unfold headerResult runningMajor
  rw [r, f, k]

theorem headerResult_lt (h : Hub) (bs : List Byte) (total : Nat) : headerResult h bs total < 256 := by
  unfold headerResult
  dsimp only
  split
  · decide
  · split
    · decide
    · split_ifs <;> decide

/-- With its last byte the header is checked, and a bad one fails the load. -/
theorem headerArrives_bad {before total : Nat} {h : Hub} (b : before < 512) (l : 512 ≤ h.update.received.length)
    (r : headerResult h h.update.received total ≠ 0) :
    headerArrives before total h = loadFails (headerResult h h.update.received total) h := by
  unfold headerArrives
  rw [if_pos ⟨b, l⟩]
  exact if_pos r

theorem headerArrives_fine {before total : Nat} {h : Hub}
    (f : 512 ≤ before ∨ h.update.received.length < 512 ∨ headerResult h h.update.received total = 0) :
    headerArrives before total h = h := by
  unfold headerArrives
  split
  · next both =>
    have fine : headerResult h h.update.received total = 0 := by omega
    exact if_neg (by simp [fine])
  · rfl

/-! ### Chunks (R729) -/

/-- A chunk out of sequence, empty, too long or beyond the image. -/
def chunkBad (h : Hub) : Bool :=
  chunkOffset h != loadPoint h || chunkLength h == 0 || decide (1200 < chunkLength h)
    || decide (rd h 0x2F01_02 < chunkOffset h + chunkLength h)

section
variable {h g : Hub} (s : UpdateSame h g)
include s

theorem UpdateSame.chunkLength_eq : chunkLength g = chunkLength h := s.kept.rd_eq 0x2F02_02 (by decide)
theorem UpdateSame.chunkOffset_eq : chunkOffset g = chunkOffset h := s.kept.rd_eq 0x2F02_01 (by decide)
theorem UpdateSame.total_eq : rd g 0x2F01_02 = rd h 0x2F01_02 := s.kept.rd_eq 0x2F01_02 (by decide)
theorem UpdateSame.loadPoint_eq : loadPoint g = loadPoint h := by unfold loadPoint; rw [s.update]
theorem UpdateSame.chunkBad_eq : chunkBad g = chunkBad h := by
  unfold chunkBad
  rw [s.chunkOffset_eq, s.loadPoint_eq, s.chunkLength_eq, s.total_eq]
theorem UpdateSame.header (bs : List Byte) (total : Nat) : headerResult g bs total = headerResult h bs total :=
  headerResult_congr (by rw [s.update]) (by rw [s.update]) (s.kept.rd_eq 0x4F00_03 (by decide)) bs total

end

theorem exec_chunkWrite {p : Path} {bs : List Byte} {s : State} (o : WriteOpen p 0x2F02 3 (bytesNat bs) s.hub) (ok : Bool) :
    exec (.chunkWrite p bs ok) s = onHub s (writeOutcome p 0x2F02 3 (chunkBad s.hub) (updateState s.hub != 1 || pulls s.hub)
      fun h => imageWrite (.chunk (chunkBytes h bs) ok) h) := by
  have same := updateSame_writeBegun p 0x2F02 3 s.hub
  refine onHub_congr (pathWrite_outcome _ _ _ o fun c => ?_)
  rw [← same.chunkBad_eq, ← same.state, ← same.pulls_eq]
  simp [chunkCauses, chunkBad, Bool.or_assoc]

theorem chunkBad_true {h : Hub} (b : chunkOffset h ≠ loadPoint h ∨ chunkLength h = 0 ∨ 1200 < chunkLength h
    ∨ rd h 0x2F01_02 < chunkOffset h + chunkLength h) : chunkBad h = true := by
  rcases b with b | b | b | b <;> simp [chunkBad, b]

theorem chunkBad_false {h : Hub} (n : chunkOffset h = loadPoint h) (z : 0 < chunkLength h) (l : chunkLength h ≤ 1200)
    (t : chunkOffset h + chunkLength h ≤ rd h 0x2F01_02) : chunkBad h = false := by
  simp only [chunkBad, Bool.or_eq_false_iff, bne_eq_false_iff_eq, beq_eq_false_iff_ne, decide_eq_false_iff_not]
  omega

theorem chunkBytes_whole {h : Hub} {bs : List Byte} (l : bs.length = chunkLength h) : chunkBytes h bs = bs := by
  simp [chunkBytes, ← l]

theorem makeImageWrite_chunk {h : Hub} (u : updateState h = 1) (bs : List Byte) (ok : Bool) :
    makeImageWrite (.chunk bs ok) h = chunkWritten bs ok h := if_pos (by simp [u])

theorem chunkWritten_failed (bs : List Byte) (h : Hub) : chunkWritten bs false h = loadFails 5 h := rfl

theorem chunkWritten_done (bs : List Byte) (h : Hub) :
    chunkWritten bs true h = headerArrives h.update.received.length (rd h 0x2F01_02) (imageAppended bs h) := by
  rw [← imageBytes_end]; rfl

/-! ### Pulling (R731) -/

/-- Asking on adds requests up to the pull window and changes nothing that has been received. -/
theorem pullMore_spec (n : Nat) (h : Hub) : (pullMore n h).dict = h.dict ∧ (pullMore n h).update.received = h.update.received
    ∧ (∃ rest, (pullMore n h).update.requests = h.update.requests ++ rest)
    ∧ (h.update.requests.length ≤ rd h 0x2F01_07 → (pullMore n h).update.requests.length ≤ rd h 0x2F01_07) := by
  induction n generalizing h with
  | zero => exact ⟨rfl, rfl, ⟨[], (List.append_nil _).symm⟩, id⟩
  | succ n ih =>
    unfold pullMore
    dsimp only
    split
    · exact ⟨rfl, rfl, ⟨[], (List.append_nil _).symm⟩, id⟩
    · next asks =>
      generalize hq : pullRequest (pullNext h) (min 1500 (rd h 0x2F01_02 - pullNext h)) h = q
      have dict : q.dict = h.dict := hq ▸ dict_pullRequest _ _ h
      have update := hq ▸ update_pullRequest (pullNext h) (min 1500 (rd h 0x2F01_02 - pullNext h)) h
      have received : q.update.received = h.update.received := (congrArg Update.received update :)
      have requests : q.update.requests
          = h.update.requests ++ [(h.update.nextTag, pullNext h, min 1500 (rd h 0x2F01_02 - pullNext h), 0)] :=
        (congrArg Update.requests update :)
      obtain ⟨dict', received', ⟨rest, requests'⟩, window⟩ := ih q
      have more := requests'.trans ((congrArg (· ++ rest) requests).trans (List.append_assoc _ _ _))
      refine ⟨dict'.trans dict, received'.trans received, ⟨_, more⟩, fun _ => ?_⟩
      · rw [rd_dict _ _ dict] at window
        refine window ?_
        rw [requests, List.length_append, List.length_singleton]
        omega

/-- Bytes past the header: the last ones issue finish, else further requests go out. -/
theorem pullOn_past {before : Nat} {h : Hub} (b : 512 ≤ before) (u : updateState h = 1) : pullOn before h
    = if h.update.requests.isEmpty ∧ rd h 0x2F01_02 ≤ h.update.received.length then wr h 0x4F00_01 2 else pullMore 16 h := by
  have header : headerArrives before (rd h 0x2F01_02) h = h := headerArrives_fine (.inl b)
  have first : decide (before < 512 ∧ 512 ≤ h.update.received.length) = false := by simp; omega
  unfold pullOn
  simp only [first, whenDo, Bool.false_eq_true, if_false]
  rw [header]
  simp [u]

theorem makeImageWrite_data {h : Hub} {off : Nat} (u : updateState h = 1) (e : off = h.update.received.length) (bs : List Byte) :
    makeImageWrite (.data off bs) h = pullOn off (imageAppended bs h) := by
  subst e
  have asked : makeImageWrite (.data h.update.received.length bs) h
      = pullOn h.update.received.length (imageBytes h.update.received.length bs h) := if_pos (by simp [u])
  rw [asked, imageBytes_end]

/-- While the window allows, the next part not asked for is. -/
theorem pullMore_asks {n : Nat} {h : Hub} (b : h.update.busy = false) (w : h.update.requests.length < rd h 0x2F01_07)
    (l : pullNext h < rd h 0x2F01_02) :
    pullMore (n + 1) h = pullMore n (pullRequest (pullNext h) (min 1500 (rd h 0x2F01_02 - pullNext h)) h) := by
  have goes : ¬ (h.update.busy = true ∨ rd h 0x2F01_07 ≤ h.update.requests.length ∨ rd h 0x2F01_02 ≤ pullNext h) := by
    rw [b]; simp; omega
  exact if_neg goes

theorem pullNext_idle {h : Hub} (r : h.update.requests = []) (e : h.update.held = []) : pullNext h = h.update.received.length := by
  simp [pullNext, r, e]

/-! ### Answers to a puller (R731) -/

/-- An answer to no request outstanding, outside RECEIVING, or not from the source, is dropped. -/
theorem updateData_dropped {src tag : Nat} {h : Hub} (n : (h.update.requests.find? fun r => r.1 == tag) = none ∨ updateState h ≠ 1
    ∨ src ≠ rd h 0x2F01_03) (st off : Nat) (bs : List Byte) : updateData src tag st off bs h = h := by
  unfold updateData
  split
  · rfl
  · next found =>
    refine if_pos ?_
    rw [found] at n
    rcases n with n | n | n
    · simp at n
    · exact .inl n
    · exact .inr (.inl n)

theorem updateData_due {src tag off : Nat} {r : Nat × Nat × Nat × Nat} {h : Hub}
    (found : h.update.requests.find? (fun r => r.1 == tag) = some r) (u : updateState h = 1) (es : src = rd h 0x2F01_03)
    (eo : off = r.2.1) (st : Nat) (bs : List Byte) : updateData src tag st off bs h
      = if st = 1 then loadFails 6 h
        else if st = 2 then { h with update := { h.update with busy := true } }
        else if st ≠ 0 ∨ bs.length ≠ r.2.2.1 then h
        else imageWrite (.data off bs) (setRequests (h.update.requests.filter fun x => x.1 != tag) h) := by
  unfold updateData
  rw [found]
  exact if_neg (by simp [u, es, eo])

/-- The bytes a lone request brings past the header are appended, and the load goes on. -/
theorem updateData_appends {src tag off : Nat} {r : Nat × Nat × Nat × Nat} {bs : List Byte} {h : Hub}
    (found : h.update.requests.find? (fun r => r.1 == tag) = some r) (u : updateState h = 1) (es : src = rd h 0x2F01_03)
    (eo : off = r.2.1) (l : bs.length = r.2.2.1) (past : 512 ≤ h.update.received.length) (seq : off = h.update.received.length)
    (lone : h.update.requests = [r]) (j : h.store.job = none) (d : h.dome.writing = false) (n : h.update.held = []) :
    updateData src tag 0 off bs h
      = if rd h 0x2F01_02 ≤ off + bs.length then wr (imageAppended bs (setRequests [] h)) 0x4F00_01 2
        else pullMore 16 (imageAppended bs (setRequests [] h)) := by
  have own : (r.1 == tag) = true := by simpa using List.find?_some found
  have rest : (h.update.requests.filter fun x => x.1 != tag) = [] := by simpa [lone] using own
  have state : updateState (imageAppended bs (setRequests [] h)) = 1 :=
    ((kept_imageAppended bs (setRequests [] h)).rd_eq 0x4F00_01 (by decide)).trans u
  have total : rd (imageAppended bs (setRequests [] h)) 0x2F01_02 = rd h 0x2F01_02 :=
    (kept_imageAppended bs (setRequests [] h)).rd_eq 0x2F01_02 (by decide)
  have length : (imageAppended bs (setRequests [] h)).update.received.length = off + bs.length := by
    rw [update_imageAppended, List.length_append, seq]
    rfl
  have none : (imageAppended bs (setRequests [] h)).update.requests.isEmpty = true := rfl
  rw [updateData_due found u es eo, if_neg (by decide), if_neg (by decide), if_neg (by simp [l]), rest,
    imageWrite_now _ (h := setRequests [] h) j d n, makeImageWrite_data (h := setRequests [] h) u seq,
    pullOn_past (by omega) state, total, length, none]
  simp only [true_and]

/-- With its last bytes a pull goes on to VERIFYING. -/
theorem kept_loadFinished (bs : List Byte) (h : Hub) :
    KeptBut [(0x4F00_01, 0x4F00_02)] h (wr (imageAppended bs (setRequests [] h)) 0x4F00_01 2) := by
  refine KeptBut.wr ?_ _ _ (by simp)
  refine KeptBut.wr ?_ _ _ (by simp)
  exact (KeptBut.refl _ h).same rfl

/-- The next request after the bytes of a lone one, and others within the pull window. -/
theorem pullMore_appended {bs : List Byte} {h : Hub} (r : h.update.requests = []) (n : h.update.held = []) (b : h.update.busy = false)
    (w : 0 < rd h 0x2F01_07) (m : h.update.received.length + bs.length < rd h 0x2F01_02) :
    (pullMore 16 (imageAppended bs h)).dict = (imageAppended bs h).dict
      ∧ (pullMore 16 (imageAppended bs h)).update.received = h.update.received ++ bs
      ∧ (∃ rest, (pullMore 16 (imageAppended bs h)).update.requests = (h.update.nextTag, h.update.received.length + bs.length,
          min 1500 (rd h 0x2F01_02 - (h.update.received.length + bs.length)), 0) :: rest)
      ∧ (pullMore 16 (imageAppended bs h)).update.requests.length ≤ rd h 0x2F01_07 := by
  have kept := kept_imageAppended bs h
  have window : rd (imageAppended bs h) 0x2F01_07 = rd h 0x2F01_07 := kept.rd_eq _ (by decide)
  have total : rd (imageAppended bs h) 0x2F01_02 = rd h 0x2F01_02 := kept.rd_eq _ (by decide)
  have next_ : pullNext (imageAppended bs h) = h.update.received.length + bs.length := by
    rw [pullNext_idle (h := imageAppended bs h) r n, update_imageAppended, List.length_append]
  have none : (imageAppended bs h).update.requests = [] := r
  have asks : pullMore 16 (imageAppended bs h) = _ :=
    pullMore_asks (n := 15) (h := imageAppended bs h) b (by rw [none, window]; exact w) (by rw [next_, total]; exact m)
  rw [next_, total] at asks
  generalize hq : pullRequest (h.update.received.length + bs.length)
    (min 1500 (rd h 0x2F01_02 - (h.update.received.length + bs.length))) (imageAppended bs h) = q at asks
  have requests := requests_pullRequest (h.update.received.length + bs.length)
    (min 1500 (rd h 0x2F01_02 - (h.update.received.length + bs.length))) (imageAppended bs h)
  have dict := dict_pullRequest (h.update.received.length + bs.length)
    (min 1500 (rd h 0x2F01_02 - (h.update.received.length + bs.length))) (imageAppended bs h)
  have update := update_pullRequest (h.update.received.length + bs.length)
    (min 1500 (rd h 0x2F01_02 - (h.update.received.length + bs.length))) (imageAppended bs h)
  rw [hq] at requests dict update
  rw [none, List.nil_append] at requests
  obtain ⟨dict', received', ⟨rest, requests'⟩, within⟩ := pullMore_spec 15 q
  rw [rd_dict _ _ dict, window, requests] at within
  rw [requests] at requests'
  rw [asks]
  exact ⟨dict'.trans dict, received'.trans (congrArg Update.received update), ⟨rest, requests'⟩, within w⟩

/-! ### Resets that end or start a trial (R727, R728) -/

/-- A restart keeps the flash: the slots, the floor and what is revoked. -/
theorem flash_restart {cause : Nat} (l : cause < 256) (h : Hub) : (∀ b, slot (restart cause h) b = slot h b)
    ∧ (restart cause h).update.floor = h.update.floor := by
  obtain ⟨-, -, slotA, slotB, floor, -⟩ := resetHub_with cause l h
  have update : (restart cause h).update = (resetHub cause h).update := by
    unfold restart bootStart
    dsimp only
    rw [advanceEpoch_update]
    simp [avsBoot, takeFree, strapEntries]
  refine ⟨fun b => ?_, (congrArg Update.floor update).trans floor⟩
  rw [slot_congr update b]
  unfold slot
  rw [slotA, slotB]

/-- The strapped slot after a restart is the one of the straps as latched. -/
theorem strapped_restart {cause : Nat} {h : Hub} (e : rd h 0x2000_08 / 1024 % 4 = bootSource h) :
    strapped (restart cause h) = strapped h := by
  obtain ⟨-, -, -, src, -⟩ := rd_bootStart_straps (rd h 0x2000_08) h.env.testMode (resetHub cause h)
  exact strapped_congr (src.trans e)

theorem floor_setSlot (b : Nat) (x : FlashSlot) (h : Hub) : (setSlot b x h).update.floor = h.update.floor := by
  unfold setSlot; split <;> rfl

/-- A slot set, and the restart of a command that is answered. -/
def restartedWith (cause b : Nat) (x : FlashSlot) (h : Hub) : Hub := answered .accepted (restart cause (setSlot b x h))

theorem restartedWith_spec {cause b c : Nat} (l : cause < 256) (n : b = 0 ↔ c ≠ 0) (x : FlashSlot) (h : Hub) :
    (restartedWith cause b x h).answer = .accepted ∧ mode (restartedWith cause b x h) = 1
      ∧ rd (restartedWith cause b x h) 0x2000_07 = cause ∧ slot (restartedWith cause b x h) b = x
      ∧ slot (restartedWith cause b x h) c = slot h c ∧ (restartedWith cause b x h).update.floor = h.update.floor := by
  obtain ⟨boots, reason, -⟩ := restart_boots l (setSlot b x h)
  obtain ⟨slots, floor⟩ := flash_restart l (setSlot b x h)
  exact ⟨rfl, boots, reason, (slots b).trans (slot_setSlot_self _ _), (slots c).trans (slot_setSlot_other n _ _),
    floor.trans (floor_setSlot _ _ _)⟩

theorem strapped_restartedWith {cause b : Nat} {x : FlashSlot} {h : Hub} (e : rd h 0x2000_08 / 1024 % 4 = bootSource h) :
    strapped (restartedWith cause b x h) = strapped h := by
  have latched : rd (setSlot b x h) 0x2000_08 / 1024 % 4 = bootSource (setSlot b x h) := by
    unfold bootSource
    rw [rd_setSlot, rd_setSlot]
    exact e
  exact (strapped_restart latched).trans (strapped_congr (rd_setSlot b x h 0x2000_0C))

/-- ACTIVATE's effect (R728): the strapped slot on trial, and the restart. -/
def trialStarted (h : Hub) : Hub := restartedWith 3 (strapped h) { slot h (strapped h) with state := 2, failed := 0 } h

theorem revertSlot_eq (h : Hub) : revertSlot h = restartedWith 5 (runningSlot h) { slot h (runningSlot h) with state := 4 } h := rfl

theorem UpdateSame.forbidden {h g : Hub} (s : UpdateSame h g) (ans : List HubAnswer) : activateForbidden ans g = activateForbidden ans h := by
  unfold activateForbidden
  rw [s.present, s.strapped_eq, s.slot_eq]

/-- What the write of ACTIVATE comes to, before a refusal under R732 is recorded. -/
def activateOutcome (p : Path) (ans : List HubAnswer) (h : Hub) : Hub :=
  writeOutcome p 0x2F01 1 (!List.contains [3] (updateState h)) (updateBarred h || activateForbidden ans h) trialStarted h

theorem activate_eq {p : Path} {h : Hub} (o : WriteOpen p 0x2F01 1 3 h) (ans : List HubAnswer) : activate p ans h
    = if (updateState h == 3 && mode h == 7 && activateForbidden ans h) = true ∧ (activateOutcome p ans h).answer = .refused 10
      then wr (activateOutcome p ans h) 0x4F00_0C 7 else activateOutcome p ans h := by
  have written : updateCommand p 3 [3] (fun g c => { c with other := c.other || activateForbidden ans g }) trialStarted h
      = activateOutcome p ans h :=
    updateCommand_outcome _ _ _ o fun g same c => by rw [same.forbidden, Bool.or_assoc]
  rw [← written]
  rfl

theorem activate_wrongState {p : Path} {h : Hub} (o : WriteOpen p 0x2F01 1 3 h) (ans : List HubAnswer) (u : updateState h ≠ 3) :
    UpdateRefused 4 h (activate p ans h) := by
  rw [activate_eq o, if_neg (by simp [u])]
  unfold activateOutcome
  rw [notContains_of_notMem (by simpa using u)]
  exact writeOutcome_bad _ _ _ _ _ _

theorem activate_forbidden {p : Path} {h : Hub} (o : WriteOpen p 0x2F01 1 3 h) {ans : List HubAnswer} (m : mode h = 7)
    (u : updateState h = 3) (f : activateForbidden ans h = true) :
    ∃ g, UpdateRefused 10 h g ∧ activate p ans h = wr g 0x4F00_0C 7 := by
  have barred : UpdateRefused 10 h (activateOutcome p ans h) := by
    unfold activateOutcome
    rw [notContains_of_mem (by simpa using u), f, Bool.or_true]
    exact writeOutcome_barred _ _ _ _ _
  refine ⟨_, barred, ?_⟩
  rw [activate_eq o, if_pos ⟨by simp [u, m, f], barred.answer⟩]

theorem activate_allowed {p : Path} {h : Hub} (o : WriteOpen p 0x2F01 1 3 h) {ans : List HubAnswer} (m : mode h = 7)
    (l : bootSource h < 2) (u : updateState h = 3) (f : activateForbidden ans h = false) :
    ∃ g, UpdateSame h g
      ∧ activate p ans h = restartedWith 3 (strapped h) { slot h (strapped h) with state := 2, failed := 0 } g := by
  have same := updateSame_writeStart p 0x2F01 1 h
  refine ⟨_, same, ?_⟩
  rw [← same.strapped_eq, ← same.slot_eq, activate_eq o, if_neg (by simp [f])]
  unfold activateOutcome
  rw [notContains_of_mem (by simpa using u), updateBarred_false m l, f]
  rfl

/-- ABANDON's effect (Table 3). -/
theorem abandonLoad_spec (h : Hub) : rd (abandonLoad h) 0x4F00_01 = 0 ∧ rd (abandonLoad h) 0x4F00_0C = 8
    ∧ slot (abandonLoad h) (strapped h) = emptySlot ∧ slot (abandonLoad h) (otherSlot h) = slot h (otherSlot h)
    ∧ (abandonLoad h).update.received = [] ∧ (abandonLoad h).update.requests = [] ∧ (abandonLoad h).answer = h.answer
    ∧ KeptBut [(0x4F00_01, 0x4F00_01), (0x4F00_05, 0x4F00_05), (0x4F00_0C, 0x4F00_0C)] h (abandonLoad h) := by
  have update : (abandonLoad h).update = (eraseStrapped (clearLoad h)).update := wrs_update _ _
  have erased : eraseStrapped (clearLoad h) = setSlot (strapped h) emptySlot (clearLoad h) := rfl
  obtain ⟨y, z, set⟩ := setSlot_eq (strapped h) emptySlot (clearLoad h)
  refine ⟨?_, ?_, ?_, ?_, ?_, ?_, ?_, ?_⟩
  · simp [abandonLoad, wrs]
  · simp [abandonLoad, wrs]
  · rw [slot_congr update, erased, slot_setSlot_self]
  · rw [slot_congr update, erased, slot_setSlot_other (strapped_other h)]; rfl
  · rw [update, erased, set]; rfl
  · rw [update, erased, set]; rfl
  · refine (wrs_answer _ _).trans ?_
    show (eraseStrapped (clearLoad h)).answer = _
    rw [erased, set]
    rfl
  · unfold abandonLoad
    refine KeptBut.wrs ?_ _ (by simp)
    exact (KeptBut.refl _ h).same (dict_setSlot _ _ _)

/-! ### Confirmation (R725, R726) -/

theorem one_sub_zero_iff {b : Nat} (l : b ≤ 1) : b = 0 ↔ 1 - b ≠ 0 := by omega

/-- With one slot CONFIRMED the floor to raise to is its security version, or the lower of both. -/
theorem confirmedFloor_eq {b : Nat} {h : Hub} (l : b ≤ 1) (c : (slot h b).state = 3) : confirmedFloor h
    = if (slot h (1 - b)).state = 3 then min (slot h b).security (slot h (1 - b)).security else (slot h b).security := by
  obtain rfl | rfl : b = 0 ∨ b = 1 := by omega
  all_goals
    simp only [slot, Nat.sub_zero, Nat.sub_self, if_true, one_ne_zero, if_false] at c ⊢
    simp only [confirmedFloor, List.filter_cons, c]
    split_ifs <;> simp_all [Nat.min_comm]

/-- A mask of four bits summed from its weights has the bits it was summed from. -/
theorem testBit_weights (q : Nat → Bool) {k : Nat} (l : k < 4) :
    Nat.testBit ((List.range 4).map fun n => if q n then 2 ^ n else 0).sum k = q k := by
  have all : ∀ a b c d : Bool, ∀ k : Fin 4, Nat.testBit ((if a then 2 ^ 0 else 0) + ((if b then 2 ^ 1 else 0)
      + ((if c then 2 ^ 2 else 0) + ((if d then 2 ^ 3 else 0) + 0)))) k = [a, b, c, d][k] := by decide
  have := all (q 0) (q 1) (q 2) (q 3) ⟨k, l⟩
  refine this.trans ?_
  obtain rfl | rfl | rfl | rfl : k = 0 ∨ k = 1 ∨ k = 2 ∨ k = 3 := by omega
  all_goals rfl

theorem bit_revokedBy (x y : FlashSlot) {k : Nat} (l : k < 4) :
    bit (revokedBy x y) k = (bit x.revoke k && k != x.keyHash && !(y.state != 0 && k == y.keyHash)) := testBit_weights _ l

theorem bit_or (a b k : Nat) : bit (a ||| b) k = (bit a k || bit b k) := Nat.testBit_or a b k

/-- A slot of a trial, confirmed. -/
def slotConfirmed (x : FlashSlot) : FlashSlot := { x with state := 3, failed := 0 }

/-- What a hub's confirmation leaves: the slot CONFIRMED, the other as it was, the floor and the revoked hashes raised. -/
structure Confirmed (b : Nat) (h g : Hub) : Prop where
  own : slot g b = slotConfirmed (slot h b)
  other : slot g (1 - b) = slot h (1 - b)
  state : rd g 0x4F00_01 = 0
  result : rd g 0x4F00_0C = 0
  floor : g.update.floor = max h.update.floor
    (if (slot h (1 - b)).state = 3 then min (slot h b).security (slot h (1 - b)).security else (slot h b).security)
  revoked : g.update.revoked = h.update.revoked ||| revokedBy (slotConfirmed (slot h b)) (slot h (1 - b))
  kept : KeptBut [(0x4F00_01, 0x4F00_01), (0x4F00_0C, 0x4F00_0C)] h g

/-- The hub with the floor and the revoked hashes that the confirmation of slot `b` gives. -/
def fusesRaised (b : Nat) (a : Hub) : Hub :=
  { a with update := { a.update with
    floor := max a.update.floor (confirmedFloor a), revoked := a.update.revoked ||| revokedBy (slot a b) (slot a (1 - b)) } }

theorem confirmSlot_trial {b : Nat} {h : Hub} (r : b = runningSlot h) (l : b ≤ 1) (t : (slot h b).state = 2) :
    confirmSlot h = wrs (fusesRaised b (setSlot b (slotConfirmed (slot h b)) h)) [(0x4F00_01, 0), (0x4F00_0C, 0)] := by
  subst r
  exact if_neg (by omega)

theorem confirmSlot_confirmed {b : Nat} {h : Hub} (r : b = runningSlot h) (l : b ≤ 1) (t : (slot h b).state = 2) :
    Confirmed b h (confirmSlot h) := by
  rw [confirmSlot_trial r l t]
  generalize ha : setSlot b (slotConfirmed (slot h b)) h = a
  have own : slot a b = slotConfirmed (slot h b) := ha ▸ slot_setSlot_self _ _
  have other : slot a (1 - b) = slot h (1 - b) := ha ▸ slot_setSlot_other (one_sub_zero_iff l) _ _
  have dict : a.dict = h.dict := ha ▸ dict_setSlot _ _ _
  have fuses : a.update.floor = h.update.floor ∧ a.update.revoked = h.update.revoked := by
    obtain ⟨y, z, e⟩ := setSlot_eq b (slotConfirmed (slot h b)) h
    rw [← ha, e]
    exact ⟨rfl, rfl⟩
  have update : (wrs (fusesRaised b a) [(0x4F00_01, 0), (0x4F00_0C, 0)]).update = (fusesRaised b a).update := wrs_update _ _
  constructor
  case own => exact (slot_congr update b).trans own
  case other => exact (slot_congr update _).trans other
  case state => simp [wrs]
  case result => simp [wrs]
  case floor =>
    rw [update]
    show max a.update.floor (confirmedFloor a) = _
    rw [fuses.1, confirmedFloor_eq l (by rw [own]; rfl), own, other]
    rfl
  case revoked =>
    rw [update]
    show a.update.revoked ||| revokedBy (slot a b) (slot a (1 - b)) = _
    rw [fuses.2, own, other]
  case kept =>
    refine KeptBut.wrs ?_ _ (by simp)
    exact (KeptBut.refl _ h).same dict

/-! ### Serving an image (R731) -/

/-- The hub with a puller noted as served now. -/
def pullerNoted (src : Nat) (h : Hub) : Hub :=
  { h with update := { h.update with pullers := tabSet h.update.pullers src (nowNs h) } }

theorem nowNs_originate (h : Hub) (p t : Nat) (c : Cls) (d x g : Nat) (l : List Word) : nowNs (originate h p t c d x g l) = nowNs h := by
  unfold originate; split <;> rfl

theorem tabSet_mem_self {α : Type} (t : Tab α) (k : Nat) (v : α) : (k, v) ∈ tabSet t k v := by
  induction t with
  | nil => simp [tabSet]
  | cons e t ih =>
    obtain ⟨k', v'⟩ := e
    unfold tabSet
    split_ifs <;> simp [ih]

/-- A puller just noted is one of those served now. -/
theorem pullersNow_noted (src : Nat) (h : Hub) : src ∈ pullersNow (pullerNoted src h) := by
  refine List.mem_map.2 ⟨(src, nowNs h), List.mem_filter.2 ⟨tabSet_mem_self _ _ _, ?_⟩, rfl⟩
  have : nowNs (pullerNoted src h) = nowNs h := rfl
  simp [this]

theorem updateRequest_silent {h : Hub} (n : sendsOwn h = false ∨ hubNumber h = 0) (src tag : Nat) (staged : Bool) (off len : Nat) :
    updateRequest src tag staged off len h = h := if_pos (by simpa using n)

/-- What an answer to a puller is: its status and its bytes (Table 4). -/
def answerOf (src : Nat) (staged : Bool) (off len : Nat) (h : Hub) : Nat × List Byte :=
  if 2 ≤ ((pullersNow h).filter (· != src)).length then (2, [])
  else match servedImage staged h with
    | none => (1, [])
    | some x => (0, flashBytes x off (min len 1500))

theorem updateRequest_answered {h : Hub} (n : sendsOwn h = true) (z : hubNumber h ≠ 0) (src tag : Nat) (staged : Bool) (off len : Nat) :
    updateRequest src tag staged off len h
      = dataFrame src tag (answerOf src staged off len h).1 off (answerOf src staged off len h).2
          (if 2 ≤ ((pullersNow h).filter (· != src)).length then h else pullerNoted src h) := by
  have served : servedImage staged (pullerNoted src h) = servedImage staged h := rfl
  unfold updateRequest answerOf
  dsimp only
  rw [if_neg (by simp [n, z])]
  split
  · rfl
  · change (match servedImage staged (pullerNoted src h) with | none => _ | some x => _) = _
    rw [served]
    cases servedImage staged h <;> rfl

theorem updateRequest_spec {h : Hub} (n : sendsOwn h = true) (z : hubNumber h ≠ 0) (src tag : Nat) (staged : Bool) (off len : Nat) :
    portFrames (updateRequest src tag staged off len h) 6
        = portFrames h 6 ++ [newFrame h 0xA .bk src 0x0200 0
            (BitVec.ofNat 48 (tag % 256 * 2 ^ 40 + (answerOf src staged off len h).1 * 2 ^ 32 + off % 2 ^ 32)
              :: BitVec.ofNat 48 (answerOf src staged off len h).2.length
              :: bytesWords (((answerOf src staged off len h).2.length + 5) / 6) (answerOf src staged off len h).2)]
      ∧ (updateRequest src tag staged off len h).dict = h.dict
      ∧ (((pullersNow h).filter (· != src)).length < 2 → src ∈ pullersNow (updateRequest src tag staged off len h)) := by
  rw [updateRequest_answered n z]
  split
  · next busy => exact ⟨portFrames_originate z _ _ _ _ _ _ _, originate_dict _ _ _ _ _ _ _ _, fun free => absurd busy (by omega)⟩
  · refine ⟨portFrames_originate (h := pullerNoted src h) z _ _ _ _ _ _ _, originate_dict _ _ _ _ _ _ _ _, fun _ => ?_⟩
    unfold dataFrame pullersNow
    rw [nowNs_originate, originate_update]
    exact pullersNow_noted src h

/-! ### Verification (R621, R730) -/

theorem verifyDone_failed {result : Nat} {h : Hub} (u : updateState h = 2) (n : h.update.held = []) (z : result ≠ 0) :
    verifyDone result h = loadFails result h := by
  unfold verifyDone
  rw [if_neg (by simp [u, n]), if_pos z]

/-- The slot contents a verified image gives. -/
def imageReceived (h : Hub) : FlashSlot := imageSlot (h.update.received.take (rd h 0x2F01_02))

/-- The verified image STAGED in the strapped slot. -/
def imageStaged (h : Hub) : Hub :=
  wrs (clearLoad (setSlot (strapped h) (imageReceived h) h)) [(0x4F00_01, 3), (0x4F00_05, (imageReceived h).version), (0x4F00_0C, 0)]

theorem verifyDone_staged {h : Hub} (u : updateState h = 2) (n : h.update.held = []) : verifyDone 0 h = imageStaged h := by
  unfold verifyDone
  rw [if_neg (by simp [u, n])]
  rfl

theorem version_imageReceived (h : Hub) : (imageReceived h).version < 2 ^ 48 := by
  have field : (imageReceived h).version < 256 ^ _ := bytesNat_lt _
  exact field.trans_le ((Nat.pow_le_pow_right (by decide) (List.length_take_le 4 _)).trans (by decide))

theorem imageStaged_spec (h : Hub) : rd (imageStaged h) 0x4F00_01 = 3 ∧ rd (imageStaged h) 0x4F00_0C = 0
    ∧ rd (imageStaged h) 0x4F00_05 = (imageReceived h).version ∧ slot (imageStaged h) (strapped h) = imageReceived h
    ∧ slot (imageStaged h) (otherSlot h) = slot h (otherSlot h)
    ∧ KeptBut [(0x4F00_01, 0x4F00_01), (0x4F00_05, 0x4F00_05), (0x4F00_0C, 0x4F00_0C)] h (imageStaged h) := by
  have slots : ∀ b, slot (imageStaged h) b = slot (setSlot (strapped h) (imageReceived h) h) b := fun b => slot_congr (wrs_update _ _) b
  refine ⟨?_, ?_, ?_, ?_, ?_, ?_⟩
  · simp [imageStaged, wrs]
  · simp [imageStaged, wrs]
  · have small := version_imageReceived h
    simp [imageStaged, wrs]
    omega
  · rw [slots, slot_setSlot_self]
  · rw [slots, slot_setSlot_other (strapped_other h)]
  · unfold imageStaged
    refine KeptBut.wrs ?_ _ (by simp)
    exact (KeptBut.refl _ h).same (dict_setSlot _ _ _)

/-! ### Asking again (R731) -/

theorem hubNumber_pullFrame (tag off len : Nat) (h : Hub) : hubNumber (pullFrame tag off len h) = hubNumber h :=
  rd_originate _ _ _ _ _ _ _ _ _

/-- Requests sent again: a frame each, and nothing else of the update or of the registers. -/
theorem requestsAgain (l : List (Nat × Nat × Nat × Nat)) {h : Hub} (n : hubNumber h ≠ 0) :
    ∃ fs, portFrames (forEach l (fun r g => pullFrame r.1 r.2.1 r.2.2.1 g) h) 6 = portFrames h 6 ++ fs ∧ fs.length = l.length := by
  induction l generalizing h with
  | nil => exact ⟨[], (List.append_nil _).symm, rfl⟩
  | cons r l ih =>
    obtain ⟨fs, queued, count⟩ := ih (h := pullFrame r.1 r.2.1 r.2.2.1 h) (by rwa [hubNumber_pullFrame])
    refine ⟨requestFrame r.1 r.2.1 r.2.2.1 h :: fs, ?_, by simp [count]⟩
    rw [forEach_cons, queued, portFrames_pullFrame n, List.append_assoc]
    rfl

theorem dict_requestsAgain (l : List (Nat × Nat × Nat × Nat)) (h : Hub) :
    (forEach l (fun r g => pullFrame r.1 r.2.1 r.2.2.1 g) h).dict = h.dict :=
  forEach_same (fun g => g.dict) _ _ _ fun _ _ _ => originate_dict _ _ _ _ _ _ _ _

theorem update_requestsAgain (l : List (Nat × Nat × Nat × Nat)) (h : Hub) :
    (forEach l (fun r g => pullFrame r.1 r.2.1 r.2.2.1 g) h).update = h.update :=
  forEach_same (fun g => g.update) _ _ _ fun _ _ _ => originate_update _ _ _ _ _ _ _ _

/-- Only a request outstanding in RECEIVING times out, and not while the source is busy. -/
theorem pullTimeout_idle {tag : Nat} {h : Hub} (n : (h.update.requests.find? fun r => r.1 == tag) = none ∨ updateState h ≠ 1
    ∨ h.update.busy = true) : pullTimeout tag h = h := by
  unfold pullTimeout
  split
  · rfl
  · next found =>
    refine if_pos ?_
    rw [found] at n
    simpa using n

/-- The requests outstanding, with the one of a tag sent once more. -/
def requestsRetried (tag : Nat) (h : Hub) : List (Nat × Nat × Nat × Nat) :=
  h.update.requests.map fun x => if x.1 = tag then (x.1, x.2.1, x.2.2.1, x.2.2.2 + 1) else x

theorem pullTimeout_due {tag : Nat} {r : Nat × Nat × Nat × Nat} {h : Hub}
    (found : h.update.requests.find? (fun r => r.1 == tag) = some r) (u : updateState h = 1) (b : h.update.busy = false) :
    pullTimeout tag h
      = if 3 ≤ r.2.2.2 then loadFails 6 h else pullFrame tag r.2.1 r.2.2.1 (setRequests (requestsRetried tag h) h) := by
  unfold pullTimeout
  rw [found]
  exact if_neg (by simp [u, b])

theorem pullBusyWait_due {h : Hub} (u : updateState h = 1) (b : h.update.busy = true) : pullBusyWait h
    = forEach h.update.requests (fun r g => pullFrame r.1 r.2.1 r.2.2.1 g) { h with update := { h.update with busy := false } } :=
  if_neg (by simp [u, b])

/-! ### Loss of power (R58, R106) -/

/-- A copy whose store is under way is broken, and the other one stays. -/
theorem cutStore_copies (h : Hub) : (h.store.job = none → (cutStore h).copyA = h.copyA ∧ (cutStore h).copyB = h.copyB)
    ∧ ∀ j, h.store.job = some j → (if j.toB then (cutStore h).copyB else (cutStore h).copyA) = some brokenCopy
      ∧ (if j.toB then (cutStore h).copyA else (cutStore h).copyB) = (if j.toB then h.copyA else h.copyB) := by
  unfold cutStore
  cases h.store.job with
  | none => exact ⟨fun _ => ⟨rfl, rfl⟩, fun _ e => by simp at e⟩
  | some i =>
    refine ⟨fun e => by simp at e, fun j e => ?_⟩
    obtain rfl : i = j := by simpa using e
    dsimp only
    cases i.toB <;> exact ⟨rfl, rfl⟩

/-- What is left of the registers, the flash and the records where the supplies fall. -/
theorem powerDown_with (aon : Bool) (h : Hub) : (powerDown aon h).env = { h.env with supplies := false, resetLow := true }
    ∧ (powerDown aon h).update.slotA = h.update.slotA ∧ (powerDown aon h).update.slotB = h.update.slotB
    ∧ (powerDown aon h).update.floor = h.update.floor ∧ (powerDown aon h).update.revoked = h.update.revoked
    ∧ (powerDown aon h).dome.srk = h.dome.srk ∧ (powerDown aon h).dome.ceiling = h.dome.ceiling
    ∧ (powerDown aon h).dome.generation = h.dome.generation ∧ (powerDown aon h).watch.records = []
    ∧ (∀ k, rdW (powerDown aon h) k = slotDefault k)
    ∧ (powerDown aon h).copyA = (cutStore h).copyA ∧ (powerDown aon h).copyB = (cutStore h).copyB := by
  have update := cutStore_update h
  have dome := cutStore_dome h
  have env := cutStore_env h
  cases aon <;>
    refine ⟨congrArg (fun e : Env => { e with supplies := false, resetLow := true }) env, (congrArg Update.slotA update :),
      (congrArg Update.slotB update :), (congrArg Update.floor update :), (congrArg Update.revoked update :),
      (congrArg Dome.srk dome :), (congrArg Dome.ceiling dome :), (congrArg Dome.generation dome :), rfl, fun _ => rfl, rfl, rfl⟩

end Sys2Proof.Machine
end

section
/-! What three of the update's operations leave, case by case: UPDATE_BEGIN, CHUNK_WRITE, UPDATE_DATA. -/

namespace Sys2Proof.Machine

/-- UPDATE_BEGIN whose turn it is: a failed write of flash fails the load, else the load is open. -/
theorem updateBegin_effect {p : Path} {o : Nat} {s : State} (w : WriteOpen p 0x2F01 1 1 s.hub) (m : mode s.hub = 7)
    (b : bootSource s.hub < 2) (u : updateState s.hub ∈ [0, 3, 5]) (e : o = otherSlot s.hub) (j : s.hub.store.job = none)
    (d : s.hub.dome.writing = false) (n : s.hub.update.held = []) :
    (∃ t, exec (.updateBegin p false) s = .next t ∧ rd t.hub 0x4F00_01 = 5 ∧ rd t.hub 0x4F00_0C = 5
      ∧ t.hub.update.slotA = s.hub.update.slotA ∧ t.hub.update.slotB = s.hub.update.slotB)
    ∧ (∃ t, exec (.updateBegin p true) s = .next t ∧ t.hub.answer = .accepted ∧ rd t.hub 0x4F00_01 = 1 ∧ rd t.hub 0x4F00_02 = 0
      ∧ slot t.hub (strapped s.hub) = emptySlot ∧ t.hub.update.received = []
      ∧ (∀ x, runningImage s.hub = some x → ∃ n, slot t.hub o = { x with state := 3, failed := n })
      ∧ (runningImage s.hub = none → slot t.hub o = slot s.hub o)
      ∧ (pulls s.hub = false → t.hub.update.requests = []
        ∧ KeptBut ((0x4F00_01, 0x4F00_02) :: (0x4F00_05, 0x4F00_05) :: pathRanges) s.hub t.hub)
      ∧ (pulls s.hub = true → hubNumber s.hub ≠ 0 → ∃ q f, t.hub.update.requests = [(s.hub.update.nextTag, 0, 512, 0)]
        ∧ portFrames t.hub 6 = q ++ [f] ∧ f.ftype = 10 ∧ f.cls = .bk ∧ f.dst = rd s.hub 0x2F01_03 ∧ f.specific = 0x100)) := by
  rw [e]
  have turn : ∀ ok, ∃ g, UpdateSame s.hub g ∧ g.answer = .accepted
      ∧ exec (.updateBegin p ok) s = .next { s with hub := beginLoad ok g } := fun ok => by
    obtain ⟨g, same, answer, e⟩ := served_from (exec_updateBegin ok w) (notContains_of_mem u) (updateBarred_false m b)
    rw [imageWrite_now _ (same.job.trans j) (same.dome ▸ d) (same.update ▸ n)] at e
    exact ⟨g, same, answer, e⟩
  refine ⟨?_, ?_⟩
  · obtain ⟨g, same, -, e⟩ := turn false
    rw [beginLoad_failed] at e
    obtain ⟨state, result⟩ := rd_loadFails (code := 5) (by decide) g
    have update := (update_loadFails 5 g).trans (by rw [same.update])
    exact ⟨_, e, state, result, (congrArg Update.slotA update :), (congrArg Update.slotB update :)⟩
  · obtain ⟨g, same, answer, e⟩ := turn true
    obtain ⟨state, count, strap, secured, received, answered, kept⟩ := beginLoad_opened g
    obtain ⟨image, noImage⟩ := slot_imageSecured g
    have other := same.slot_eq (otherSlot s.hub)
    rw [same.strapped_eq] at strap
    rw [same.other] at secured image noImage
    rw [same.running] at image noImage
    rw [← secured] at image noImage
    rw [other] at noImage
    have allKept : KeptBut ((0x4F00_01, 0x4F00_02) :: (0x4F00_05, 0x4F00_05) :: pathRanges) s.hub (beginLoad true g) :=
      same.kept_after kept
    refine ⟨_, e, answered.trans answer, state, count, strap, received, image, noImage, fun np => ⟨?_, allKept⟩, fun ps num => ?_⟩
    · dsimp only
      rw [beginLoad_chunks (same.pulls_eq.trans np)]
      exact requests_imageLoadBegun g
    · have number : hubNumber (imageLoadBegun g) = hubNumber s.hub :=
        ((kept_imageLoadBegun g).rd_eq 0x2000_09 (by decide)).trans same.number
      have source : rd (imageLoadBegun g) 0x2F01_03 = rd s.hub 0x2F01_03 :=
        ((kept_imageLoadBegun g).rd_eq 0x2F01_03 (by decide)).trans (same.kept.rd_eq 0x2F01_03 (by decide))
      have tag : (imageLoadBegun g).update.nextTag = s.hub.update.nextTag :=
        (nextTag_imageLoadBegun g).trans (congrArg Update.nextTag same.update)
      dsimp only
      rw [beginLoad_pulls (same.pulls_eq.trans ps)]
      obtain ⟨type, cls, dst, specific⟩ := requestFrame_fields (imageLoadBegun g).update.nextTag 0 512 (requestNoted 0 512 (imageLoadBegun g))
      rw [rd_requestNoted, source] at dst
      refine ⟨_, _, ?_, portFrames_pullRequest (fun z => num (number.symm.trans z)) 0 512, type, cls, dst, specific⟩
      rw [requests_pullRequest, requests_imageLoadBegun, tag]
      rfl

/-- CHUNK_WRITE: refused out of sequence, put behind what waits, else written and the header checked with its last byte. -/
theorem chunkWrite_effect {p : Path} {bs : List Byte} {n off len : Nat} {s : State} (en : n = loadPoint s.hub)
    (eo : off = chunkOffset s.hub) (el : len = chunkLength s.hub) (o : WriteOpen p 0x2F02 3 (bytesNat bs) s.hub) :
    (off ≠ n ∨ len = 0 ∨ 1200 < len ∨ rd s.hub 0x2F01_02 < off + len → ∀ ok, ∃ t, exec (.chunkWrite p bs ok) s = .next t
      ∧ t.hub.answer = .refused 4 ∧ t.hub.update = s.hub.update ∧ KeptBut pathRanges s.hub t.hub)
    ∧ (off = n → 0 < len → len ≤ 1200 → off + len ≤ rd s.hub 0x2F01_02 → updateState s.hub = 1 → pulls s.hub = false →
      bs.length = len → s.hub.store.job.isSome = true ∨ s.hub.dome.writing = true ∨ s.hub.update.held ≠ [] →
      ∀ ok, ∃ t, exec (.chunkWrite p bs ok) s = .next t ∧ t.hub.answer = .accepted
        ∧ t.hub.update = { s.hub.update with held := s.hub.update.held ++ [.chunk bs ok] } ∧ KeptBut pathRanges s.hub t.hub)
    ∧ (off = n → 0 < len → len ≤ 1200 → off + len ≤ rd s.hub 0x2F01_02 → updateState s.hub = 1 → pulls s.hub = false →
      bs.length = len → s.hub.store.job = none → s.hub.dome.writing = false → s.hub.update.held = [] →
      (∃ t, exec (.chunkWrite p bs false) s = .next t ∧ rd t.hub 0x4F00_01 = 5 ∧ rd t.hub 0x4F00_0C = 5)
      ∧ (512 ≤ n ∨ n + len < 512 ∨ headerResult s.hub (s.hub.update.received ++ bs) (rd s.hub 0x2F01_02) = 0 →
        rd s.hub 0x4F00_02 + len < 2 ^ 48 →
        ∃ t, exec (.chunkWrite p bs true) s = .next t ∧ t.hub.answer = .accepted ∧ rd t.hub 0x4F00_01 = 1
          ∧ t.hub.update = { s.hub.update with received := s.hub.update.received ++ bs }
          ∧ rd t.hub 0x4F00_02 = rd s.hub 0x4F00_02 + len ∧ KeptBut ((0x4F00_02, 0x4F00_02) :: pathRanges) s.hub t.hub)
      ∧ (n < 512 → 512 ≤ n + len → headerResult s.hub (s.hub.update.received ++ bs) (rd s.hub 0x2F01_02) ≠ 0 →
        ∃ t, exec (.chunkWrite p bs true) s = .next t ∧ rd t.hub 0x4F00_01 = 5
          ∧ rd t.hub 0x4F00_0C = headerResult s.hub (s.hub.update.received ++ bs) (rd s.hub 0x2F01_02))) := by
  subst en eo el
  have write := exec_chunkWrite o
  refine ⟨fun bad ok => refused_bad (write ok) (chunkBad_true bad), fun seq z l t u np whole c ok => ?_,
    fun seq z l t u np whole j d n => ?_⟩
  · obtain ⟨g, same, answer, e⟩ := served_from (write ok) (chunkBad_false seq z l t) (by simp [u, np])
    rw [← same.job, ← same.dome, ← same.update] at c
    rw [imageWrite_waits _ c, chunkBytes_whole (whole.trans same.chunkLength_eq.symm)] at e
    exact ⟨_, e, answer, congrArg (fun v : Update => { v with held := v.held ++ [ImageWrite.chunk bs ok] }) same.update,
      same.kept.same rfl⟩
  · have turn : ∀ ok, ∃ g, UpdateSame s.hub g ∧ g.answer = .accepted
        ∧ exec (.chunkWrite p bs ok) s = .next { s with hub := chunkWritten bs ok g } := fun ok => by
      obtain ⟨g, same, answer, e⟩ := served_from (write ok) (chunkBad_false seq z l t) (by simp [u, np])
      rw [imageWrite_now _ (same.job.trans j) (same.dome ▸ d) (same.update ▸ n), makeImageWrite_chunk (same.state.trans u),
        chunkBytes_whole (whole.trans same.chunkLength_eq.symm)] at e
      exact ⟨g, same, answer, e⟩
    have point : loadPoint s.hub = s.hub.update.received.length := by simp [loadPoint, n]
    have checked : ∀ g, UpdateSame s.hub g →
        headerResult (imageAppended bs g) (imageAppended bs g).update.received (rd g 0x2F01_02)
          = headerResult s.hub (s.hub.update.received ++ bs) (rd s.hub 0x2F01_02) := fun g same => by
      rw [headerResult_congr (g := imageAppended bs g) (h := g) rfl rfl ((kept_imageAppended bs g).rd_eq 0x4F00_03 (by decide)), update_imageAppended,
        same.header, same.update, same.total_eq]
    have length : ∀ g, UpdateSame s.hub g → (imageAppended bs g).update.received.length = loadPoint s.hub + chunkLength s.hub :=
      fun g same => by rw [update_imageAppended, same.update, List.length_append, point, whole]
    refine ⟨?_, fun fine room => ?_, fun before reached bad => ?_⟩
    · obtain ⟨g, same, -, e⟩ := turn false
      rw [chunkWritten_failed] at e
      exact ⟨_, e, rd_loadFails (by decide) g⟩
    · obtain ⟨g, same, answer, e⟩ := turn true
      have counted : rd g 0x4F00_02 = rd s.hub 0x4F00_02 := same.kept.rd_eq 0x4F00_02 (by decide)
      have start : g.update.received.length = loadPoint s.hub := by rw [same.update, point]
      rw [chunkWritten_done, headerArrives_fine (by rw [checked g same, length g same, start]; exact fine)] at e
      refine ⟨_, e, answer, ?_, ?_, ?_, same.kept_after (kept_imageAppended bs g)⟩
      · exact ((kept_imageAppended bs g).rd_eq 0x4F00_01 (by decide)).trans (same.state.trans u)
      · exact congrArg (fun v : Update => { v with received := v.received ++ bs }) same.update
      · exact (received_imageAppended (by rw [counted, whole]; exact room)).trans (by rw [counted, whole])
    · obtain ⟨g, same, -, e⟩ := turn true
      have start : g.update.received.length = loadPoint s.hub := by rw [same.update, point]
      rw [chunkWritten_done, headerArrives_bad (by rw [start]; exact before) (by rw [length g same]; exact reached)
        (by rw [checked g same]; exact bad), checked g same] at e
      exact ⟨_, e, rd_loadFails (headerResult_lt _ _ _) _⟩

/-- UPDATE_DATA for a request outstanding: no such image fails the load, busy waits, bytes are appended and the load goes on. -/
theorem updateData_effect {src tag st off : Nat} {bs : List Byte} {r : Nat × Nat × Nat × Nat} {s : State}
    (found : s.hub.update.requests.find? (fun r => r.1 == tag) = some r) (u : updateState s.hub = 1)
    (es : src = rd s.hub 0x2F01_03) (eo : off = r.2.1) :
    (st = 1 → ∃ t, exec (.updateData src tag st off bs) s = .next t ∧ rd t.hub 0x4F00_01 = 5 ∧ rd t.hub 0x4F00_0C = 6
      ∧ t.hub.update.requests = [] ∧ KeptBut [(0x4F00_01, 0x4F00_01), (0x4F00_0C, 0x4F00_0C)] s.hub t.hub)
    ∧ (st = 2 → exec (.updateData src tag st off bs) s
      = .next { s with hub := { s.hub with update := { s.hub.update with busy := true } } })
    ∧ (st = 0 → bs.length = r.2.2.1 → 512 ≤ s.hub.update.received.length → off = s.hub.update.received.length →
      rd s.hub 0x4F00_02 + bs.length < 2 ^ 48 → s.hub.update.requests = [r] → s.hub.store.job = none → s.hub.dome.writing = false →
      s.hub.update.held = [] →
      (rd s.hub 0x2F01_02 ≤ off + bs.length → ∃ t, exec (.updateData src tag st off bs) s = .next t ∧ rd t.hub 0x4F00_01 = 2
        ∧ t.hub.update = { s.hub.update with received := s.hub.update.received ++ bs, requests := [] }
        ∧ KeptBut [(0x4F00_01, 0x4F00_02)] s.hub t.hub)
      ∧ (off + bs.length < rd s.hub 0x2F01_02 → s.hub.update.busy = false → 0 < rd s.hub 0x2F01_07 →
        ∃ t rest, exec (.updateData src tag st off bs) s = .next t ∧ rd t.hub 0x4F00_01 = 1
          ∧ t.hub.update.received = s.hub.update.received ++ bs ∧ t.hub.update.requests = (s.hub.update.nextTag, off + bs.length,
              min 1500 (rd s.hub 0x2F01_02 - (off + bs.length)), 0) :: rest
          ∧ t.hub.update.requests.length ≤ rd s.hub 0x2F01_07 ∧ KeptBut [(0x4F00_02, 0x4F00_02)] s.hub t.hub)) := by
  refine ⟨fun bad => ?_, fun wait => ?_, fun fine l past seq room lone j d n => ⟨fun last => ?_, fun more nb w => ?_⟩⟩
  · subst bad
    obtain ⟨state, result⟩ := rd_loadFails (code := 6) (by decide) s.hub
    exact ⟨_, onHub_eq_next ((updateData_due found u es eo 1 bs).trans (if_pos rfl)), state, result,
      (congrArg Update.requests (update_loadFails 6 s.hub) :), kept_loadFails 6 s.hub⟩
  · subst wait
    exact onHub_eq_next (updateData_due found u es eo 2 bs)
  · subst fine
    refine ⟨_, onHub_eq_next ((updateData_appends found u es eo l past seq lone j d n).trans (if_pos last)), rd_wr_self _ _ _, rfl, ?_⟩
    exact kept_loadFinished bs s.hub
  · subst fine
    have received : (setRequests [] s.hub).update.received.length = off := seq.symm
    obtain ⟨dict, got, ⟨rest, requests⟩, within⟩ :=
      pullMore_appended (bs := bs) (h := setRequests [] s.hub) rfl n nb w (by rw [received]; exact more)
    rw [received] at requests
    have kept : KeptBut [(0x4F00_02, 0x4F00_02)] s.hub (pullMore 16 (imageAppended bs (setRequests [] s.hub))) :=
      (kept_imageAppended bs (setRequests [] s.hub)).same dict
    exact ⟨_, rest, onHub_eq_next ((updateData_appends found u es eo l past seq lone j d n).trans (if_neg (by omega))),
      (kept.rd_eq 0x4F00_01 (by decide)).trans u, got, requests, within, kept⟩

end Sys2Proof.Machine

open Sys2Proof Sys2Proof.Machine

/-- Settles O56: each command comes to a refusal or to one effect on a hub whose update stands as it stood, and each effect's slots,
requests and registers are those of its own lemmas. -/
theorem updatesMoveTheSlotsAndImagesAreServed : Obligations.UpdatesMoveTheSlotsAndImagesAreServed := by
  unfold Obligations.UpdatesMoveTheSlotsAndImagesAreServed
  refine ⟨fun p c i states s k o => ?refusals, fun p ok s o m b u c => ?beginWaits,
    fun h => ⟨heldImageWrites_taken, fun w j d e => heldImageWrites_one j d e⟩, fun p o s w m b u e j d n => ?begin,
    fun p s o m b u => ?finish, fun p ans b s o m l u e latched => ?activate, fun p s o u ans => ?activateState,
    fun p s o m b u => ?abandon, fun p b x y s i from_ u r l ex ey t => ?confirm, fun s n => ?confirmNot,
    fun p b s o m l u r lb => ?revert, fun p bs n off len s en eo el o => ?chunk, fun r s => ?verify,
    fun src tag staged off len s => ?request, fun src tag st off bs r s found u es eo => ?data, fun src tag st off bs s n => ?dataNot,
    fun tag r s found u nb => ?timeout, fun tag s n => ?timeoutNot, fun s => ?busyWait, fun aon s => ?powerLoss⟩
  case refusals =>
    obtain ⟨f, e⟩ := exec_updateCommand k o
    refine ⟨fun n => refused_bad e (by simp [n]), fun m np b => refused_barred e ?_ (updateBarred_true b)⟩
    by_cases two : c = 2
    · simp [m, np two]
    · simp [m, two]
  case beginWaits =>
    obtain ⟨g, same, answer, e⟩ := served_from (exec_updateBegin ok o) (notContains_of_mem u) (updateBarred_false m b)
    rw [← same.job, ← same.dome, ← same.update] at c
    rw [imageWrite_waits _ c] at e
    exact ⟨_, e, answer, congrArg (fun v : Update => { v with held := v.held ++ [ImageWrite.start ok] }) same.update, same.kept.same rfl⟩
  case begin => exact updateBegin_effect w m b u e j d n
  case finish =>
    have served := exec_updateFinish o
    refine ⟨fun np => ?_, fun ps => ?_⟩
    · obtain ⟨g, same, answer, e⟩ := served_from served (by simp [u, np]) (updateBarred_false m b)
      refine ⟨_, e, answer, rd_wr_self _ _ _, same.update, ?_⟩
      exact same.kept_after (kept_wr g 0x4F00_01 2)
    · obtain ⟨t, e, answer, -, kept⟩ := refused_bad served (by simp [ps])
      exact ⟨t, e, answer, kept⟩
  case activate =>
    subst e
    refine ⟨fun f => ?_, fun f => ?_⟩
    · obtain ⟨g, ⟨answer, update, kept⟩, e⟩ := activate_forbidden o m u f
      refine ⟨_, onHub_eq_next e, answer, rd_wr_self _ _ _, update, ?_⟩
      exact (kept.mono fun _ m => by simp [m]).wr _ _ (by simp)
    · obtain ⟨g, same, e⟩ := activate_allowed o m l u f
      have latched' : rd g 0x2000_08 / 1024 % 4 = bootSource g := by
        rw [same.source, same.kept.rd_eq 0x2000_08 (by decide)]
        exact latched
      obtain ⟨answer, boots, cause, own, kept, floor⟩ := restartedWith_spec (cause := 3) (by decide) (strapped_other s.hub)
        { slot s.hub (strapped s.hub) with state := 2, failed := 0 } g
      exact ⟨_, onHub_eq_next e, answer, boots, cause, (strapped_restartedWith latched').trans same.strapped_eq, own,
        kept.trans (same.slot_eq _), floor.trans (congrArg Update.floor same.update)⟩
  case activateState =>
    obtain ⟨answer, update, kept⟩ := activate_wrongState o ans u
    exact ⟨_, onHub_eq_next rfl, answer, update, kept⟩
  case abandon =>
    obtain ⟨g, same, answer, e⟩ := served_from (exec_updateAbandon o) (notContains_of_mem u) (updateBarred_false m b)
    obtain ⟨state, result, strap, other, received, requests, answered, kept⟩ := abandonLoad_spec g
    rw [same.strapped_eq] at strap
    rw [same.other, same.slot_eq] at other
    exact ⟨_, e, answered.trans answer, state, result, strap, other, received, requests, same.kept_after kept⟩
  case confirm =>
    have turn : ∃ g, UpdateSame s.hub g ∧ exec i s = .next { s with hub := confirmSlot g } := by
      rcases from_ with ⟨rfl, o, m, b⟩ | ⟨rfl, policy, serves⟩
      · obtain ⟨g, same, -, e⟩ := served_from (exec_updateConfirm o) (notContains_of_mem (by simpa using u)) (updateBarred_false m b)
        exact ⟨g, same, e⟩
      · exact ⟨s.hub, UpdateSame.refl _, onHub_eq_next (if_pos ⟨policy, serves, u⟩)⟩
    obtain ⟨g, same, e⟩ := turn
    rw [← same.slot_eq] at ex ey
    obtain ⟨own, other, state, result, floor, revoked, kept⟩ := confirmSlot_confirmed (r.trans same.runningSlot_eq.symm) l (ex ▸ t)
    rw [← ey] at other floor revoked
    rw [← ex] at own floor revoked
    rw [same.update] at floor revoked
    refine ⟨_, e, own, other, state, result, floor, fun k lk => ?_, ?_⟩
    · exact (congrArg (bit · k) revoked).trans ((bit_or _ _ _).trans (congrArg _ (bit_revokedBy _ _ lk)))
    · exact same.kept_after kept
  case confirmNot =>
    refine onHub_eq_next (if_neg ?_)
    rintro ⟨policy, serves, u⟩
    rcases n with n | n | n
    · exact n policy
    · simp [n] at serves
    · exact n u
  case revert =>
    obtain ⟨g, same, -, e⟩ := served_from (exec_updateRevert o) (notContains_of_mem (by simpa using u)) (updateBarred_false m l)
    rw [revertSlot_eq, same.runningSlot_eq, ← r, same.slot_eq] at e
    obtain ⟨answer, boots, cause, own, kept, -⟩ := restartedWith_spec (cause := 5) (by decide) (one_sub_zero_iff lb)
      { slot s.hub b with state := 4 } g
    exact ⟨_, e, answer, boots, cause, own, kept.trans (same.slot_eq _)⟩
  case chunk => exact chunkWrite_effect en eo el o
  case verify =>
    refine ⟨fun n => onHub_eq_next (if_pos n), fun u n z l => ?_, fun u n => ?_⟩
    · obtain ⟨state, result⟩ := rd_loadFails l s.hub
      have update := update_loadFails r s.hub
      refine ⟨_, onHub_eq_next (verifyDone_failed u n z), state, result, (congrArg Update.slotA update :),
        (congrArg Update.slotB update :), kept_loadFails r s.hub⟩
    · obtain ⟨state, result, version, own, other, kept⟩ := imageStaged_spec s.hub
      exact ⟨_, _, onHub_eq_next (verifyDone_staged u n), state, result, own.symm, rfl, rfl, rfl, version, other, kept⟩
  case request =>
    refine ⟨fun n => onHub_eq_next (updateRequest_silent n _ _ _ _ _), fun n z => ?_⟩
    obtain ⟨frames, dict, pullers⟩ := updateRequest_spec n z src tag staged off len
    refine ⟨_, _, _, _, _, onHub_eq_next rfl, frames, rfl, rfl, rfl, rfl, rfl, rfl, dict, fun busy => ?_, fun free => ⟨fun none => ?_, fun x some => ?_⟩⟩
    · unfold answerOf; rw [if_pos busy]; exact ⟨rfl, rfl⟩
    · unfold answerOf; rw [if_neg (by omega), none]; exact ⟨rfl, rfl⟩
    · unfold answerOf; rw [if_neg (by omega), some]; exact ⟨rfl, rfl, pullers free⟩
  case data => exact updateData_effect found u es eo
  case dataNot => exact onHub_eq_next (updateData_dropped n st off bs)
  case timeout =>
    refine ⟨fun spent => ?_, fun left num => ?_⟩
    · obtain ⟨state, result⟩ := rd_loadFails (code := 6) (by decide) s.hub
      exact ⟨_, onHub_eq_next ((pullTimeout_due found u nb).trans (if_pos spent)), state, result,
        (congrArg Update.requests (update_loadFails 6 s.hub) :), kept_loadFails 6 s.hub⟩
    · refine ⟨_, _, onHub_eq_next ((pullTimeout_due found u nb).trans (if_neg (by omega))),
        portFrames_pullFrame (h := setRequests (requestsRetried tag s.hub) s.hub) num _ _ _, rfl, rfl,
        (congrArg Update.requests (originate_update _ _ _ _ _ _ _ _) :), originate_dict _ _ _ _ _ _ _ _⟩
  case timeoutNot => exact onHub_eq_next (pullTimeout_idle n)
  case busyWait =>
    refine ⟨fun n => onHub_eq_next (if_pos (by simpa using n)), fun u b num => ?_⟩
    obtain ⟨fs, queued, count⟩ :=
      requestsAgain s.hub.update.requests (h := { s.hub with update := { s.hub.update with busy := false } }) num
    have update := update_requestsAgain s.hub.update.requests { s.hub with update := { s.hub.update with busy := false } }
    exact ⟨_, fs, onHub_eq_next (pullBusyWait_due u b), (congrArg Update.busy update :), queued, count,
      (congrArg Update.requests update :), dict_requestsAgain _ _⟩
  case powerLoss =>
    obtain ⟨env, slotA, slotB, floor, revoked, srk, ceiling, generation, records, atDefault, copyA, copyB⟩ := powerDown_with aon s.hub
    obtain ⟨still, cut⟩ := cutStore_copies s.hub
    rw [← copyA, ← copyB] at still cut
    refine ⟨_, rfl, env, slotA, slotB, floor, revoked, srk, ceiling, generation, records, atDefault, still, cut, ?_, ?_⟩
    · rintro rfl
      exact ⟨rfl, rfl, rfl, rfl⟩
    · rintro rfl
      exact ⟨rfl, rfl⟩
end

section
/-! The cyclic exchange. The text is compiled as one, and each lemma elaborated beside the others takes a thread with a stack of its own: this
long run of short lemmas is elaborated one after the other. -/
set_option Elab.async false

section
/-! SUPPORT. What everything a cycle's start sets off leaves of the cycle that has started (R331): its number, its start, its flags, the
frames queued at the Canopy port, and the registers that tell of it. -/

namespace Sys2Proof.Machine

/-- What is followed of the registers: the count of overruns; that and the mode; these, the hub's number, its strapped role and the
cycle's number. -/
inductive Held where
  | count
  | mode
  | all

/-- The registers followed. -/
def heldKeys : Held → List Nat
  | .count => [0x4400_04]
  | .mode => [0x2000_01, 0x4400_04]
  | .all => [0x2000_01, 0x2000_09, 0x2000_0B, 0x4400_01, 0x4400_04]

/-- A register that is none of those followed. -/
def Free (kd : Held) (k : Nat) : Prop := k ∉ heldKeys kd

/-- Registers of a list to be written, none of those followed. -/
def FreeAll (kd : Held) (l : List (Nat × Nat)) : Prop := ∀ e ∈ l, Free kd e.1

/-- Whether the cycles run, where the mode is followed too. -/
def runs (kd : Held) (running : Bool) : Bool :=
  match kd with
  | .count => true
  | _ => running

/-- A cycle's number, start and flags. -/
def paceOf (kd : Held) (c : Cyc) : Nat × Nat × Bool × Bool × Bool := (c.number, c.start, c.complete, c.applied, runs kd c.running)

/-- The Canopy port's queue of frames. -/
def port7 (h : Hub) : List Frame := tabGet [] h.portQ 7

/-- The hub is on the cycle of another, with the same values in the registers followed and every frame of the other's Canopy port. -/
def Hub.Paced (h ref : Hub) (kd : Held) : Prop :=
  paceOf kd h.cyc = paceOf kd ref.cyc ∧ (∀ k ∈ heldKeys kd, cellGet slotDefault h.dict k = rdW ref k)
    ∧ ∀ f ∈ port7 ref, f ∈ tabGet [] h.portQ 7

/-- The same of what an attempt to host an object leaves. -/
def Alloc.Paced (x : Alloc) (ref : Hub) (kd : Held) : Prop :=
  match x with
  | .no _ => True
  | .wait h => h.Paced ref kd
  | .yes _ h => h.Paced ref kd

variable {ref : Hub} {kd : Held}

theorem Hub.Paced.refl (h : Hub) (kd : Held) : h.Paced h kd := ⟨rfl, fun _ _ => rfl, fun _ m => m⟩

theorem paced_intro {h : Hub} (c : (h.cyc.number, h.cyc.start, h.cyc.complete, h.cyc.applied, runs kd h.cyc.running) = paceOf kd ref.cyc
    ∧ (∀ k ∈ heldKeys kd, cellGet slotDefault h.dict k = rdW ref k) ∧ ∀ f ∈ port7 ref, f ∈ tabGet [] h.portQ 7) : h.Paced ref kd := c

theorem paced_elim {h : Hub} (c : h.Paced ref kd) :
    (h.cyc.number, h.cyc.start, h.cyc.complete, h.cyc.applied, runs kd h.cyc.running) = paceOf kd ref.cyc
    ∧ (∀ k ∈ heldKeys kd, cellGet slotDefault h.dict k = rdW ref k) ∧ ∀ f ∈ port7 ref, f ∈ tabGet [] h.portQ 7 := c

theorem pair_paced {α : Type} {x : α × Hub} {a : α} {b : Hub} (e : x = (a, b)) (c : x.2.Paced ref kd) :
    b.Paced ref kd := by subst e; exact c

theorem alloc_no_paced (c : Nat) : (Alloc.no c).Paced ref kd := trivial

theorem alloc_intro_wait_paced {h : Hub} (c : h.Paced ref kd) : (Alloc.wait h).Paced ref kd := c

theorem alloc_intro_yes_paced {b : Nat} {h : Hub} (c : h.Paced ref kd) : (Alloc.yes b h).Paced ref kd := c

theorem alloc_yes_paced {x : Alloc} {b : Nat} {a : Hub} (e : x = .yes b a) (c : x.Paced ref kd) : a.Paced ref kd := by subst e; exact c

theorem alloc_wait_paced {x : Alloc} {a : Hub} (e : x = .wait a) (c : x.Paced ref kd) : a.Paced ref kd := by subst e; exact c

theorem port7_of_eq {g h : Hub} (e : g.portQ = h.portQ) : port7 g = port7 h := congrArg (fun q => tabGet [] q 7) e

/-- One step keeps the pace where it keeps the cycle, the registers followed and the frames. -/
theorem Hub.Paced.step {g h : Hub} (c : h.Paced ref kd) (pace : paceOf kd g.cyc = paceOf kd h.cyc)
    (regs : ∀ k ∈ heldKeys kd, rdW g k = rdW h k)
    (frames : ∀ f ∈ port7 h, f ∈ port7 g) : g.Paced ref kd := by
  obtain ⟨pace', regs', frames'⟩ := c
  exact ⟨pace.trans pace', fun k m => (regs k m).trans (regs' k m), fun f m => frames f (frames' f m)⟩

/-- One that leaves the Canopy port's queue alone. -/
theorem Hub.Paced.quiet {g h : Hub} (c : h.Paced ref kd) (pace : paceOf kd g.cyc = paceOf kd h.cyc)
    (regs : ∀ k ∈ heldKeys kd, rdW g k = rdW h k)
    (frames : port7 g = port7 h) : g.Paced ref kd :=
  c.step pace regs fun f m => by rw [frames]; exact m

/-- A step that changes none of it. -/
theorem Hub.Paced.of_eq {g h : Hub} (c : h.Paced ref kd) (pace : paceOf kd g.cyc = paceOf kd h.cyc) (dict : g.dict = h.dict)
    (frames : g.portQ = h.portQ) : g.Paced ref kd :=
  c.step pace (fun k _ => by unfold rdW; rw [dict]) fun _ m => port7_of_eq frames ▸ m

/-! ### The registers that are followed, and those that are not -/

/-- A register that is followed in no case. -/
def Unfollowed (k : Nat) : Prop := k ≠ 0x2000_01 ∧ k ≠ 0x2000_09 ∧ k ≠ 0x2000_0B ∧ k ≠ 0x4400_01 ∧ k ≠ 0x4400_04

theorem heldKeys_all {k : Nat} (m : k ∈ heldKeys kd) : k = 0x2000_01 ∨ k = 0x2000_09 ∨ k = 0x2000_0B ∨ k = 0x4400_01 ∨ k = 0x4400_04 := by
  cases kd <;> simp only [heldKeys, List.mem_cons, List.not_mem_nil, or_false] at m <;> omega

theorem free_of {k : Nat} (n : Unfollowed k) : Free kd k := fun m => by
  obtain ⟨mode, hub, role, number, count⟩ := n
  have := heldKeys_all m
  omega

theorem freeAll_nil : FreeAll kd [] := fun _ m => by simp at m

theorem freeAll_cons_free {k v : Nat} {l : List (Nat × Nat)} (f : Free kd k) (n : FreeAll kd l) : FreeAll kd ((k, v) :: l) :=
  fun e m => by
    rcases List.mem_cons.1 m with rfl | m
    · exact f
    · exact n e m

theorem freeAll_cons {k v : Nat} {l : List (Nat × Nat)} (f : Unfollowed k) (n : FreeAll kd l) : FreeAll kd ((k, v) :: l) :=
  freeAll_cons_free (free_of f) n

theorem count_ne_all : Held.count ≠ .all := nofun

/-- Without the cycle's number nothing is followed among the registers of the engines and FIFOs. -/
theorem free_above {i s : Nat} (np : kd ≠ .all) (i0 : 0x2000 < i) (s4 : s % 256 ≠ 4) : Free kd (slotKey i s) := fun m => by
  unfold slotKey at m
  cases kd <;> simp only [heldKeys, List.mem_cons, List.not_mem_nil, or_false] at m
  case all => exact np rfl
  all_goals omega

theorem free_engKey {s : Nat} (np : kd ≠ .all) (n : Nat) (s4 : s % 256 ≠ 4) : Free kd (engKey n s) := free_above np (by omega) s4

theorem free_fifoKey {s : Nat} (np : kd ≠ .all) (f : Nat) (s4 : s % 256 ≠ 4) : Free kd (fifoKey f s) := free_above np (by omega) s4

/-- Where only the overruns are followed, the mode may change. -/
theorem freeAll_mode (a b : Nat) : FreeAll .count [(0x2000_03, a), (0x2000_01, b)] :=
  freeAll_cons (by simp [Unfollowed]) (freeAll_cons_free (by simp [Free, heldKeys]) freeAll_nil)

theorem eventKey_held {k : Nat} (m : k ∈ heldKeys kd) : eventKey k = false := by
  rcases heldKeys_all m with rfl | rfl | rfl | rfl | rfl <;> decide

theorem faultKey_held {k : Nat} (m : k ∈ heldKeys kd) : faultKey k = false := by
  rcases heldKeys_all m with rfl | rfl | rfl | rfl | rfl <;> decide

theorem fuseRegister_held {k : Nat} (m : k ∈ heldKeys kd) : fuseRegister k = false := by
  rcases heldKeys_all m with rfl | rfl | rfl | rfl | rfl <;> decide

/-! ### Frames queued at the Canopy port -/

theorem port7_wr (h : Hub) (k v : Nat) : port7 (wr h k v) = port7 h := rfl

theorem port7_wrs (h : Hub) (l : List (Nat × Nat)) : port7 (wrs h l) = port7 h := port7_of_eq (wrs_portQ h l)

theorem port7_pushLog (h : Hub) (b w n : Nat) (ws : List Nat) : port7 (pushLog h b w n ws) = port7 h := by
  unfold pushLog
  exact port7_wrs _ _

theorem port7_requestMsix (h : Hub) (v : Nat) : port7 (requestMsix h v) = port7 h := by
  unfold requestMsix
  split <;> rfl

theorem port7_raiseLocal (h : Hub) (e i v : Nat) : port7 (raiseLocal h e i v) = port7 h := by
  unfold raiseLocal
  dsimp only
  split
  · rw [port7_requestMsix, port7_pushLog]; rfl
  · rw [port7_pushLog]; rfl

theorem port7_enqueue (h : Hub) {q : Nat} (n : 7 ≠ q) (x : Frame) : port7 (enqueue h q x) = port7 h := tabGet_tabSet_ne _ _ _ _ _ n

theorem port7_originate (h : Hub) {q : Nat} (n : 7 ≠ q) (t : Nat) (c : Cls) (d x g : Nat) (l : List Word) :
    port7 (originate h q t c d x g l) = port7 h := by
  unfold originate
  split
  · rfl
  · exact port7_enqueue _ n _

theorem port7_ringEventFrame (h : Hub) (c e i v : Nat) : port7 (ringEventFrame h c e i v) = port7 h := by
  unfold ringEventFrame
  dsimp only
  split
  · rw [port7_raiseLocal]; rfl
  · exact port7_originate h (by decide) _ _ _ _ _ _

theorem port7_raiseEvent (h : Hub) (e i v : Nat) : port7 (raiseEvent h e i v) = port7 h := by
  unfold raiseEvent
  dsimp only
  split
  · rw [port7_ringEventFrame, port7_raiseLocal]
  · exact port7_raiseLocal h e i v

theorem port7_raiseKeyed (h : Hub) (k e i v q : Nat) : port7 (raiseKeyed h k e i v q) = port7 h := by
  unfold raiseKeyed
  split
  · rfl
  · rw [port7_raiseEvent]; rfl

theorem port7_fuseIdle (n : Nat) (h : Hub) : port7 (fuseIdle n h) = port7 h := by
  unfold fuseIdle
  dsimp only
  repeat' split
  all_goals first
    | rfl
    | exact (port7_raiseKeyed _ _ _ _ _ _).trans rfl

theorem port7_fuseEval (n : Nat) (h : Hub) : port7 (fuseEval n h) = port7 h := by
  unfold fuseEval
  split
  · rfl
  · dsimp only
    rw [port7_fuseIdle]
    unfold whenDo
    split <;> rfl

theorem port7_fuseEvalAll (h : Hub) : port7 (fuseEvalAll h) = port7 h := forEach_same port7 _ _ _ fun n _ g => port7_fuseEval n g

theorem port7_releaseCan (h : Hub) : port7 (releaseCan h) = port7 h := forEach_same port7 _ _ _ fun _ _ g => by split <;> rfl

theorem port7_since (h : Hub) (w : Watch) (n : Nat) : port7 { h with watch := w, cyc := { h.cyc with since := n } } = port7 h := rfl

theorem port7_settle (o s : Bool) (h0 : Hub) : port7 (settle o s h0) = port7 h0 := by
  have halted : port7 (if reaction h0 = 3 then { h0 with watch := { h0.watch with halted := true } } else h0) = port7 h0 := by
    split <;> rfl
  unfold settle
  dsimp only
  generalize (if reaction h0 = 3 then { h0 with watch := { h0.watch with halted := true } } else h0) = h at halted ⊢
  have low : port7 (whenDo (safeHeldLow h) (fun x => wr x 0x4E00_03 0) h) = port7 h := by
    unfold whenDo; split <;> rfl
  generalize whenDo (safeHeldLow h) (fun x => wr x 0x4E00_03 0) h = a at low ⊢
  have told : port7 (whenDo (safeHeldLow h && !s) (fun x => raiseEvent x 0xAA 0 0) a) = port7 a := by
    unfold whenDo; split
    · exact port7_raiseEvent _ _ _ _
    · rfl
  generalize whenDo (safeHeldLow h && !s) (fun x => raiseEvent x 0xAA 0 0) a = b at told ⊢
  rw [← halted, ← low, ← told]
  split
  · rw [port7_fuseEvalAll]; rfl
  · split
    · split
      · rw [port7_fuseEvalAll]
        exact (port7_since (releaseCan b) _ 0).trans (port7_releaseCan b)
      · rw [port7_raiseEvent, port7_fuseEvalAll]
        exact (port7_since (releaseCan b) (releaseCan b).watch 0).trans (port7_releaseCan b)
    · rfl

theorem port7_escalate (c : Nat) (r : FaultRec) (h : Hub) : port7 (escalate c r h) = port7 h := by
  unfold escalate
  split
  · rfl
  · dsimp only
    rw [port7_raiseEvent]; rfl

theorem port7_capture (c : Nat) (r : FaultRec) (h : Hub) : port7 (capture c r h) = port7 h := by
  unfold capture
  dsimp only
  split
  · exact port7_wrs _ _
  · rw [port7_wr]
    split
    · exact port7_wrs _ _
    · rfl

theorem port7_newRecord (c i a b : Nat) (h : Hub) : port7 (newRecord c i a b h) = port7 h := by
  unfold newRecord
  dsimp only
  rw [port7_escalate, port7_raiseEvent, port7_pushLog, port7_capture]
  rfl

theorem port7_causeGone (c : Nat) (h : Hub) : port7 (causeGone c h) = port7 h := by
  unfold causeGone withReactions markGone
  rw [port7_settle]
  split
  · split <;> rfl
  · rfl

theorem port7_raiseFault (c i a b : Nat) (h : Hub) : port7 (raiseFault c i a b h) = port7 h := by
  have recorded : port7 (withReactions (fun g =>
      match (countOccurrence c g).watch.records.find? fun e => e.1 == c with
      | some (_, r) => repeatRecord c r (countOccurrence c g)
      | none => newRecord c i a b (countOccurrence c g)) h) = port7 h := by
    unfold withReactions
    rw [port7_settle]
    dsimp only
    split
    · exact (port7_escalate c _ _).trans rfl
    · exact (port7_newRecord c i a b _).trans rfl
  unfold raiseFault
  dsimp only
  split
  · exact (port7_causeGone c _).trans recorded
  · exact recorded

theorem mem_port7_originate {x : Frame} {h : Hub} (m : x ∈ port7 h) (q t : Nat) (c : Cls) (d y g : Nat) (l : List Word) :
    x ∈ port7 (originate h q t c d y g l) := by
  by_cases n : 7 = q
  · subst n
    unfold originate
    split
    · exact m
    · unfold port7 enqueue
      rw [tabGet_tabSet_self]
      exact List.mem_append_left _ m
  · rw [port7_originate h n]
    exact m

/-! ### Registers, events and faults -/

theorem paceOf_noFault {g h : Hub} (e : noFault g = noFault h) : paceOf kd g.cyc = paceOf kd h.cyc :=
  (congrArg (fun x : Hub => paceOf kd x.cyc) e :)

theorem wr_paced_of (h : Hub) (k v : Nat) (hp : h.Paced ref kd) (n : Free kd k) : (wr h k v).Paced ref kd :=
  hp.step rfl (fun j m => by rw [rdW_wr, if_neg]; rintro rfl; exact n m) fun _ m => m

theorem wr_paced (h : Hub) (k v : Nat) (hp : h.Paced ref kd)
    (n : Unfollowed k := by simp only [Unfollowed, fifoKey, engKey, defKey, fuseKey, slotKey, canStat]; omega) : (wr h k v).Paced ref kd :=
  wr_paced_of h k v hp (free_of n)

theorem bumpBy_paced (h : Hub) (k n : Nat) (hp : h.Paced ref kd)
    (u : Unfollowed k := by simp only [Unfollowed, fifoKey, engKey, defKey, fuseKey, slotKey]; omega) : (bumpBy h k n).Paced ref kd :=
  wr_paced h k _ hp u

theorem bump_paced (h : Hub) (k : Nat) (hp : h.Paced ref kd)
    (u : Unfollowed k := by simp only [Unfollowed, fifoKey, engKey, defKey, fuseKey, slotKey]; omega) : (bump h k).Paced ref kd :=
  bumpBy_paced h k 1 hp u

theorem peak_paced (h : Hub) (k v : Nat) (hp : h.Paced ref kd)
    (u : Unfollowed k := by simp only [Unfollowed, fifoKey, engKey, defKey, fuseKey, slotKey]; omega) : (peak h k v).Paced ref kd :=
  wr_paced h k _ hp u

theorem wrTime_paced (h : Hub) (k : Nat) (hp : h.Paced ref kd) (u : Unfollowed k := by simp only [Unfollowed]; omega)
    (u' : Unfollowed (k + 1) := by simp only [Unfollowed]; omega) : (wrTime h k).Paced ref kd :=
  wr_paced _ _ _ (wr_paced _ _ _ hp u) u'

theorem wrs_paced (h : Hub) (l : List (Nat × Nat)) (hp : h.Paced ref kd)
    (n : FreeAll kd l := by
      repeat' first
        | exact freeAll_nil
        | refine freeAll_cons (by simp only [Unfollowed, fifoKey, engKey, defKey, fuseKey, slotKey]; omega) ?_) :
    (wrs h l).Paced ref kd := by
  induction l generalizing h with
  | nil => exact hp
  | cons e l ih => exact ih _ (wr_paced_of h e.1 e.2 hp (n e (by simp))) fun x m => n x (List.mem_cons_of_mem _ m)

theorem pushLog_paced (h : Hub) (b w n : Nat) (ws : List Nat) (hp : h.Paced ref kd)
    (u : 0x2000_0B < b ∧ (b + (ws.length + (n - 1) * w) ≤ 0x4400_01 ∨ 0x4400_04 < b) := by
      simp only [List.length_cons, List.length_nil]; omega) : (pushLog h b w n ws).Paced ref kd := by
  unfold pushLog
  refine wrs_paced _ _ hp fun e m => ?_
  obtain ⟨⟨v, i⟩, x, rfl⟩ := List.mem_map.1 m
  have short := List.snd_lt_of_mem_zipIdx x
  simp only [List.length_append, List.length_map, List.length_range] at short
  refine free_of ⟨?_, ?_, ?_, ?_, ?_⟩ <;> dsimp only <;> omega

theorem raiseEvent_paced (h : Hub) (e i v : Nat) (hp : h.Paced ref kd) (n : e < 256 := by omega) : (raiseEvent h e i v).Paced ref kd :=
  hp.quiet (congrArg (paceOf kd) (raiseEvent_cyc h e i v)) (fun k m => rdW_raiseEvent_of h e i v k n (eventKey_held m))
    (port7_raiseEvent h e i v)

theorem raiseKeyed_paced (h : Hub) (k e i v q : Nat) (hp : h.Paced ref kd) (n : e < 256 := by omega) :
    (raiseKeyed h k e i v q).Paced ref kd :=
  hp.quiet (congrArg (paceOf kd) (raiseKeyed_cyc h k e i v q)) (fun j m => rdW_raiseKeyed_of h k e i v q j n (eventKey_held m))
    (port7_raiseKeyed h k e i v q)

theorem raiseLimited_paced (h : Hub) (e i v c q : Nat) (hp : h.Paced ref kd) (n : e < 256 := by omega) :
    (raiseLimited h e i v c q).Paced ref kd :=
  raiseKeyed_paced h _ e i v q hp n

theorem raise16ms_paced (h : Hub) (e i v c : Nat) (hp : h.Paced ref kd) (n : e < 256 := by omega) : (raise16ms h e i v c).Paced ref kd :=
  raiseLimited_paced h e i v c _ hp n

theorem cycEvent_paced (h : Hub) (e i v c : Nat) (hp : h.Paced ref kd) (n : e < 256 := by omega) : (cycEvent h e i v c).Paced ref kd := by
  unfold cycEvent
  dsimp only
  split
  · exact hp
  · exact raiseEvent_paced _ e i v (hp.of_eq rfl rfl rfl) n

theorem fuseEvalAll_paced (h : Hub) (hp : h.Paced ref kd) : (fuseEvalAll h).Paced ref kd :=
  hp.quiet (paceOf_noFault (noFault_fuseEvalAll h)) (fun k m => rdW_fuseEvalAll_of h k (fuseRegister_held m)) (port7_fuseEvalAll h)

theorem causeGone_paced (c : Nat) (h : Hub) (hp : h.Paced ref kd) : (causeGone c h).Paced ref kd :=
  hp.quiet (paceOf_noFault (noFault_causeGone c h)) (fun k m => rdW_causeGone_of c h k (faultKey_held m)) (port7_causeGone c h)

theorem raiseFault_paced (c i a b : Nat) (h : Hub) (hp : h.Paced ref kd) : (raiseFault c i a b h).Paced ref kd :=
  hp.quiet (paceOf_noFault (noFault_raiseFault c i a b h)) (fun k m => rdW_raiseFault_of c i a b h k (faultKey_held m))
    (port7_raiseFault c i a b h)

theorem originate_paced (h : Hub) (q t : Nat) (c : Cls) (d x g : Nat) (l : List Word) (hp : h.Paced ref kd) :
    (originate h q t c d x g l).Paced ref kd :=
  hp.step (congrArg (paceOf kd) (originate_cyc h q t c d x g l)) (fun k _ => rdW_originate h q t c d x g l k)
    (fun _ m => mem_port7_originate m q t c d x g l)

theorem answered_paced (a : Answer) (h : Hub) (hp : h.Paced ref kd) : (answered a h).Paced ref kd := hp.of_eq rfl rfl rfl

theorem setFuse_paced (h : Hub) (n : Nat) (c : FuseCh) (hp : h.Paced ref kd) : (setFuse h n c).Paced ref kd := hp.of_eq rfl rfl rfl

theorem wrStamp_paced (h : Hub) (k i : Nat) (hp : h.Paced ref kd) (u : Unfollowed k := by simp only [Unfollowed]; omega)
    (u' : Unfollowed (k + 1) := by simp only [Unfollowed]; omega) : (wrStamp h k i).Paced ref kd :=
  wr_paced _ _ _ (wr_paced _ _ _ hp u) u'

theorem syncPins_paced (n : Nat) (h : Hub) (hp : h.Paced ref kd) : (syncPins n h).Paced ref kd :=
  hp.quiet (congrArg (paceOf kd) (syncPins_cyc n h)) (fun k _ => rdW_syncPins n h k) (port7_of_eq (syncPins_portQ n h))

theorem syncPads_paced (h : Hub) (hp : h.Paced ref kd) : (syncPads h).Paced ref kd :=
  hp.quiet (congrArg (paceOf kd) (syncPads_cyc h)) (fun k _ => rdW_syncPads h k) (port7_of_eq (syncPads_portQ h))

end Sys2Proof.Machine
end

section
/-! SUPPORT. Operation by operation, what the FIFOs, the engines, Canopy and Forester leave of the cycle that has started: those that
write registers of engines and FIFOs by number do so where the cycle's own number is not followed, and a change of mode where the mode is not. -/

namespace Sys2Proof.Machine

variable {ref : Hub} {kd : Held}

theorem takeFree_paced (h : Hub) (hp_h : h.Paced ref kd) : (takeFree h).2.Paced ref kd := by
  unfold takeFree
  repeat' first | with_reducible assumption | (with_reducible apply paced_intro; dsimp only; with_reducible apply paced_elim)

theorem whenDo_paced (c : Bool) (f : Hub → Hub) (h : Hub) (hf_f : ∀ x : Hub, x.Paced ref kd → (f x).Paced ref kd) (hp_h : h.Paced ref kd) :
    (whenDo c f h).Paced ref kd := by
  unfold whenDo
  repeat' first | with_reducible assumption | with_reducible apply hf_f | split

theorem forEach_paced {α : Type} (l : List α) (f : α → Hub → Hub) (h : Hub) (hf : ∀ a x, x.Paced ref kd → (f a x).Paced ref kd)
    (hp : h.Paced ref kd) : (forEach l f h).Paced ref kd := by
  unfold forEach
  induction l generalizing h with
  | nil => exact hp
  | cons a l ih => exact ih _ (hf a h hp)

theorem takeInjectionAt_paced (m : ℕ) (modulus : ℕ) (h : Hub) (hp_h : h.Paced ref kd) : (takeInjectionAt m modulus h).2.Paced ref kd := by
  unfold takeInjectionAt
  repeat' first | with_reducible assumption | (with_reducible apply paced_intro; dsimp only; with_reducible apply paced_elim) | split

theorem takeInjection_paced (m : ℕ) (h : Hub) (hp_h : h.Paced ref kd) : (takeInjection m h).2.Paced ref kd := by
  unfold takeInjection
  repeat' first | with_reducible assumption | with_reducible apply takeInjectionAt_paced

theorem takeProgramInjection_paced (n : ℕ) (h : Hub) (hp_h : h.Paced ref kd) : (takeProgramInjection n h).2.Paced ref kd := by
  unfold takeProgramInjection
  repeat' first | with_reducible assumption | with_reducible apply takeInjectionAt_paced

theorem raiseInjected_paced (code : ℕ) (island : ℕ) (a : ℕ) (b : ℕ) (h : Hub) (hp_h : h.Paced ref kd) :
    (raiseInjected code island a b h).Paced ref kd := by
  unfold raiseInjected
  repeat' first
    | with_reducible assumption | with_reducible apply raiseFault_paced
    | (with_reducible apply paced_intro; dsimp only; with_reducible apply paced_elim)

theorem refuse_paced (p : Path) (i j c : Nat) (w : Bool) (h : Hub) (hp : h.Paced ref kd) : (refuse p i j c w h).Paced ref kd := by
  unfold refuse
  exact answered_paced _ _ (whenDo_paced _ _ _ (fun x hx => raiseEvent_paced _ _ _ _ hx) (wrStamp_paced _ _ _ (wrs_paced _ _ (bump_paced _ _ hp))))

theorem setFifo_paced (h : Hub) (f : ℕ) (x : Fifo) (hp_h : h.Paced ref kd) : (setFifo h f x).Paced ref kd := by
  unfold setFifo
  repeat' first | with_reducible assumption | (with_reducible apply paced_intro; dsimp only; with_reducible apply paced_elim)

theorem fifoDeliver_paced (f : ℕ) (h : Hub) (hp_h : h.Paced ref kd) : (fifoDeliver f h).Paced ref kd := by
  unfold fifoDeliver
  dsimp only
  repeat' first
    | with_reducible assumption | with_reducible apply setFifo_paced | with_reducible refine raiseEvent_paced _ _ _ _ ?_
    | split

theorem stopExpiry_paced (f : ℕ) (h : Hub) (hp_h : h.Paced ref kd) : (stopExpiry f h).Paced ref kd := by
  unfold stopExpiry
  dsimp only
  repeat' first
    | with_reducible assumption | with_reducible refine bump_paced _ _ ?_ | with_reducible apply setFifo_paced
    | with_reducible refine raiseEvent_paced _ _ _ _ ?_ | split

theorem idleExpiry_paced (f : ℕ) (h : Hub) (hp_h : h.Paced ref kd) : (idleExpiry f h).Paced ref kd := by
  unfold idleExpiry
  dsimp only
  repeat' first
    | with_reducible assumption | with_reducible apply whenDo_paced | with_reducible refine bump_paced _ _ ?_
    | with_reducible apply setFifo_paced | with_reducible apply fifoDeliver_paced | split

theorem fifoWatermark_paced (f : ℕ) (h : Hub) (hp_h : h.Paced ref kd) : (fifoWatermark f h).Paced ref kd := by
  unfold fifoWatermark
  dsimp only
  repeat' first
    | with_reducible assumption | with_reducible refine bump_paced _ _ ?_ | with_reducible refine raise16ms_paced _ _ _ _ _ ?_
    | with_reducible apply stopExpiry_paced | with_reducible apply setFifo_paced | with_reducible apply fifoDeliver_paced | split

theorem countDiscarded_paced (n : ℕ) (h : Hub) (hp_h : h.Paced ref kd) : (countDiscarded n h).Paced ref kd := by
  unfold countDiscarded
  repeat' first | with_reducible assumption | with_reducible refine bumpBy_paced _ _ _ ?_

theorem fifoOversize_paced (f : ℕ) (h : Hub) (hp_h : h.Paced ref kd) : (fifoOversize f h).Paced ref kd := by
  unfold fifoOversize
  dsimp only
  repeat' first
    | with_reducible assumption | with_reducible apply setFifo_paced | with_reducible refine raiseEvent_paced _ _ _ _ ?_
    | with_reducible apply countDiscarded_paced | with_reducible refine peak_paced _ _ _ ?_ | split

theorem fifoErrorFound_paced (f : ℕ) (e : ℕ × ℕ) (h : Hub) (hp_h : h.Paced ref kd) : (fifoErrorFound f e h).Paced ref kd := by
  unfold fifoErrorFound
  repeat' first | with_reducible assumption | with_reducible apply raiseInjected_paced | with_reducible refine bump_paced _ _ ?_ | split

theorem fifoScan_paced (f : ℕ) (n : ℕ) (h : Hub) (hp_h : h.Paced ref kd) : (fifoScan f n h).Paced ref kd := by
  unfold fifoScan
  dsimp only
  repeat' first
    | with_reducible assumption | with_reducible apply fifoErrorFound_paced | with_reducible apply setFifo_paced
    | with_reducible apply forEach_paced | split

theorem fifoCommit_paced (f : ℕ) (w : XWord) (h0 : Hub) (hp_h0 : h0.Paced ref kd) : (fifoCommit f w h0).Paced ref kd := by
  unfold fifoCommit
  dsimp only
  repeat' first
    | with_reducible assumption | with_reducible apply fifoOversize_paced | with_reducible apply fifoWatermark_paced
    | with_reducible refine bump_paced _ _ ?_ | with_reducible apply takeInjection_paced | with_reducible apply setFifo_paced
    | with_reducible apply fifoDeliver_paced | with_reducible apply countDiscarded_paced | with_reducible refine peak_paced _ _ _ ?_
    | with_reducible apply idleExpiry_paced | split

theorem fifoFlushPacker_paced (f : ℕ) (endMark : Bool) (h : Hub) (hp_h : h.Paced ref kd) :
    (fifoFlushPacker f endMark h).Paced ref kd := by
  unfold fifoFlushPacker
  dsimp only
  repeat' first | with_reducible assumption | with_reducible apply fifoCommit_paced | with_reducible apply setFifo_paced | split

theorem fifoStore_paced (f : ℕ) (w : XWord) (h : Hub) (hp_h : h.Paced ref kd) : (fifoStore f w h).Paced ref kd := by
  unfold fifoStore
  repeat' first | with_reducible assumption | with_reducible apply fifoFlushPacker_paced | with_reducible apply fifoCommit_paced

theorem sendCredit_paced (f : ℕ) (h : Hub) (hp_h : h.Paced ref kd) : (sendCredit f h).Paced ref kd := by
  unfold sendCredit
  repeat' first | with_reducible assumption | with_reducible apply setFifo_paced | with_reducible apply originate_paced

theorem creditAdvance_paced (f : ℕ) (h : Hub) (hp_h : h.Paced ref kd) : (creditAdvance f h).Paced ref kd := by
  unfold creditAdvance
  repeat' first | with_reducible assumption | with_reducible apply sendCredit_paced | split

theorem fifoFree_paced (f : ℕ) (n : ℕ) (h : Hub) (hp_h : h.Paced ref kd) : (fifoFree f n h).Paced ref kd := by
  unfold fifoFree
  repeat' first
    | with_reducible assumption | with_reducible apply fifoWatermark_paced | with_reducible apply creditAdvance_paced
    | with_reducible apply setFifo_paced | with_reducible refine wr_paced _ _ _ ?_ | with_reducible refine peak_paced _ _ _ ?_

theorem fifoAdvance_paced (f : ℕ) (h : Hub) (hp_h : h.Paced ref kd) : (fifoAdvance f h).Paced ref kd := by
  unfold fifoAdvance
  dsimp only
  repeat' first
    | with_reducible assumption | with_reducible apply fifoFree_paced | with_reducible refine bump_paced _ _ ?_
    | with_reducible apply setFifo_paced | split

theorem fifoPoisoned_paced (f : ℕ) (h : Hub) (hp_h : h.Paced ref kd) : (fifoPoisoned f h).Paced ref kd := by
  unfold fifoPoisoned
  repeat' first | with_reducible assumption | with_reducible refine bump_paced _ _ ?_ | with_reducible refine raise16ms_paced _ _ _ _ _ ?_

theorem readHead_paced (f : ℕ) (h : Hub) (hp_h : h.Paced ref kd) : (readHead f h).Paced ref kd := by
  unfold readHead
  repeat' first | with_reducible assumption | with_reducible apply fifoScan_paced | split

theorem countTraffic_paced (handle : ℕ) (hub : ℕ) (cls : ℕ) (n : ℕ) (h : Hub) (hp_h : h.Paced ref kd) :
    (countTraffic handle hub cls n h).Paced ref kd := by
  unfold countTraffic
  repeat' first | with_reducible assumption | (with_reducible apply paced_intro; dsimp only; with_reducible apply paced_elim) | split

theorem fifoUnbind_paced (np : kd ≠ .all) (f : Nat) (h : Hub) (hp : h.Paced ref kd) : (fifoUnbind f h).Paced ref kd := by
  unfold fifoUnbind
  dsimp only
  split
  · exact hp
  · refine whenDo_paced _ _ _ (fun x hx => raiseEvent_paced _ _ _ _ hx) ?_
    refine wrs_paced _ _ (countDiscarded_paced _ _ (hp.of_eq rfl rfl rfl)) ?_
    exact freeAll_cons (by simp [Unfollowed]) (freeAll_cons (by simp [Unfollowed])
      (freeAll_cons_free (free_fifoKey np f (by decide)) (freeAll_cons_free (free_fifoKey np f (by decide)) freeAll_nil)))

theorem fifoBind_paced (np : kd ≠ .all) {st handle pages settings producer consumer : Nat} {h : Hub} {f : Nat} {a : Hub}
    (e : fifoBind st handle pages settings producer consumer h = some (f, a)) (hp : h.Paced ref kd) : a.Paced ref kd := by
  unfold fifoBind at e
  split at e
  · cases e
  · split at e
    · cases e
    · cases e
      refine wrs_paced _ _ (setFifo_paced _ _ _ hp) ?_
      exact freeAll_cons_free (free_fifoKey np f (by decide)) (freeAll_cons_free (free_fifoKey np f (by decide))
        (freeAll_cons_free (free_fifoKey np f (by decide)) (freeAll_cons (by simp [Unfollowed])
          (freeAll_cons (by simp [Unfollowed]) freeAll_nil))))

theorem setEngine_paced (h : Hub) (n : ℕ) (g : Engine) (hp_h : h.Paced ref kd) : (setEngine h n g).Paced ref kd := by
  unfold setEngine
  repeat' first | with_reducible assumption | (with_reducible apply paced_intro; dsimp only; with_reducible apply paced_elim)

theorem releasePads_paced (fios : List ℕ) (h : Hub) (hp_h : h.Paced ref kd) : (releasePads fios h).Paced ref kd := by
  unfold releasePads
  repeat' first
    | with_reducible assumption | with_reducible intro _ | with_reducible apply forEach_paced
    | (with_reducible apply paced_intro; dsimp only; with_reducible apply paced_elim)

theorem engineResume_paced (np : kd ≠ .all) (n : Nat) (h : Hub) (hp : h.Paced ref kd) : (engineResume n h).Paced ref kd :=
  wr_paced_of _ _ _ (setEngine_paced _ _ _ hp) (free_engKey np n (by decide))

theorem engineLoad_paced (np : kd ≠ .all) (n i st : Nat) (clean : Option Byte) (h : Hub) (hp : h.Paced ref kd) :
    (engineLoad n i st clean h).Paced ref kd := by
  have free : ∀ {s : Nat}, s % 256 ≠ 4 → Free kd (engKey n s) := free_engKey np n
  unfold engineLoad
  dsimp only
  split
  · exact wrs_paced _ _ hp (freeAll_cons_free (free (by decide)) (freeAll_cons_free (free (by decide)) freeAll_nil))
  · refine syncPins_paced _ _ (wrs_paced _ _ (setEngine_paced _ _ _ (takeProgramInjection_paced n h hp)) ?_)
    exact freeAll_cons_free (free (by decide)) (freeAll_cons_free (free (by decide)) (freeAll_cons_free (free (by decide))
      (freeAll_cons_free (free (by decide)) freeAll_nil)))

theorem setDomain_paced (d : ℕ) (st : ℕ) (h : Hub) (hp_h : h.Paced ref kd) : (setDomain d st h).Paced ref kd := by
  unfold setDomain
  repeat' first | with_reducible assumption | with_reducible refine wrs_paced _ _ ?_

theorem groveResume_paced (np : kd ≠ .all) (g : ℕ) (h : Hub) (hp_h : h.Paced ref kd) : (groveResume g h).Paced ref kd := by
  unfold groveResume
  repeat' first
    | with_reducible assumption | with_reducible intro _ | with_reducible apply engineResume_paced
    | with_reducible apply forEach_paced | (with_reducible apply paced_intro; dsimp only; with_reducible apply paced_elim) | split

theorem groveReload_paced (np : kd ≠ .all) (g : ℕ) (h : Hub) (hp_h : h.Paced ref kd) : (groveReload g h).Paced ref kd := by
  unfold groveReload
  repeat' first
    | with_reducible assumption | with_reducible intro _ | with_reducible apply engineLoad_paced
    | with_reducible apply takeFree_paced | with_reducible apply forEach_paced
    | (with_reducible apply paced_intro; dsimp only; with_reducible apply paced_elim) | split

theorem groveOn_paced (np : kd ≠ .all) (g : ℕ) (listOk : Bool) (h : Hub) (hp_h : h.Paced ref kd) : (groveOn g listOk h).Paced ref kd := by
  unfold groveOn
  repeat' first
    | with_reducible assumption | with_reducible refine bump_paced _ _ ?_ | with_reducible apply raiseFault_paced
    | with_reducible apply syncPads_paced | with_reducible apply groveResume_paced | with_reducible apply setDomain_paced
    | with_reducible apply groveReload_paced | split

theorem voteReturned_paced (np : kd ≠ .all) (g : ℕ) (h : Hub) (hp_h : h.Paced ref kd) : (voteReturned g h).Paced ref kd := by
  unfold voteReturned
  dsimp only
  repeat' first
    | with_reducible assumption | with_reducible refine bump_paced _ _ ?_ | with_reducible refine raiseEvent_paced _ _ _ _ ?_
    | with_reducible apply groveResume_paced | with_reducible apply setDomain_paced | split

theorem voteReturn_paced (np : kd ≠ .all) (g : Nat) (h : Hub) (hp : h.Paced ref kd) : (voteReturn g 16 h).Paced ref kd :=
  voteReturned_paced np g _ (hp.of_eq rfl rfl rfl)

theorem wakeResource_paced (np : kd ≠ .all) (j : ℕ) (h0 : Hub) (hp_h0 : h0.Paced ref kd) : (wakeResource j h0).Paced ref kd := by
  unfold wakeResource
  repeat' first
    | with_reducible assumption | with_reducible apply groveOn_paced | with_reducible apply takeFree_paced
    | with_reducible refine wr_paced _ _ _ ?_ | (with_reducible apply paced_intro; dsimp only; with_reducible apply paced_elim) | split

theorem wakeAll_paced (np : kd ≠ .all) (h : Hub) (hp_h : h.Paced ref kd) : (wakeAll h).Paced ref kd := by
  unfold wakeAll
  repeat' first | with_reducible assumption | with_reducible apply wakeResource_paced | with_reducible apply forEach_paced

theorem fuseModeEntry_paced (old : ℕ) (new : ℕ) (req : ℕ → Bool) (h : Hub) (hp_h : h.Paced ref kd) :
    (fuseModeEntry old new req h).Paced ref kd := by
  unfold fuseModeEntry
  repeat' first
    | with_reducible assumption | with_reducible intro _ | with_reducible refine wr_paced _ _ _ ?_
    | with_reducible apply setFuse_paced | with_reducible apply forEach_paced | split

theorem abandonMailbox_paced (h : Hub) (hp_h : h.Paced ref kd) : (abandonMailbox h).Paced ref kd := by
  unfold abandonMailbox
  repeat' first
    | with_reducible assumption | with_reducible refine wr_paced _ _ _ ?_
    | (with_reducible apply paced_intro; dsimp only; with_reducible apply paced_elim) | split

theorem modeMemory_paced (old new : Nat) (h : Hub) (hp : h.Paced ref .count) : (modeMemory old new h).Paced ref .count :=
  hp.of_eq rfl rfl rfl

theorem holdoverEnds_paced (h : Hub) (hp_h : h.Paced ref kd) : (holdoverEnds h).Paced ref kd := by
  unfold holdoverEnds
  repeat' first
    | with_reducible assumption | with_reducible refine wr_paced _ _ _ ?_ | with_reducible apply causeGone_paced
    | (with_reducible apply paced_intro; dsimp only; with_reducible apply paced_elim)

theorem spireCommission_paced (h : Hub) (hp_h : h.Paced ref kd) : (spireCommission h).Paced ref kd := by
  unfold spireCommission
  repeat' first
    | with_reducible assumption | with_reducible apply holdoverEnds_paced | with_reducible refine wrs_paced _ _ ?_
    | (with_reducible apply paced_intro; dsimp only; with_reducible apply paced_elim) | split

theorem bootUp_paced (h : Hub) (hp_h : h.Paced ref kd) : (bootUp h).Paced ref kd := by
  unfold bootUp
  repeat' first | with_reducible assumption | (with_reducible apply paced_intro; dsimp only; with_reducible apply paced_elim) | split

theorem canopenCommission_paced (h : Hub) (hp_h : h.Paced ref kd) : (canopenCommission h).Paced ref kd := by
  unfold canopenCommission
  repeat' first | with_reducible assumption | with_reducible refine wr_paced _ _ _ ?_ | with_reducible apply bootUp_paced

theorem claimAfresh_paced (old : ℕ) (h : Hub) (hp_h : h.Paced ref kd) : (claimAfresh old h).Paced ref kd := by
  unfold claimAfresh
  repeat' first | with_reducible assumption | (with_reducible apply paced_intro; dsimp only; with_reducible apply paced_elim) | split

theorem unboundCause_paced (old : ℕ) (new : ℕ) (h : Hub) (hp_h : h.Paced ref kd) : (unboundCause old new h).Paced ref kd := by
  unfold unboundCause
  repeat' first
    | with_reducible assumption | with_reducible intro _ | with_reducible refine raiseEvent_paced _ _ _ _ ?_
    | with_reducible refine wr_paced _ _ _ ?_ | with_reducible apply forEach_paced | split

theorem changeMode_paced (new : ℕ) (h0 : Hub) (hp_h0 : h0.Paced ref .count) : (changeMode new h0).Paced ref .count := by
  unfold changeMode
  repeat' first
    | with_reducible assumption | with_reducible exact count_ne_all | with_reducible intro _
    | with_reducible apply whenDo_paced | with_reducible apply abandonMailbox_paced | with_reducible apply wakeAll_paced
    | with_reducible apply syncPads_paced | with_reducible apply modeMemory_paced | with_reducible apply unboundCause_paced
    | with_reducible refine raiseEvent_paced _ _ _ _ ?_ | with_reducible refine wrTime_paced _ _ ?_
    | with_reducible apply claimAfresh_paced | with_reducible apply fuseEvalAll_paced | with_reducible refine wr_paced _ _ _ ?_
    | with_reducible apply spireCommission_paced | with_reducible apply canopenCommission_paced
    | with_reducible refine wrs_paced _ _ ?_ (freeAll_mode _ _) | with_reducible apply fuseModeEntry_paced

theorem setLimpCause_paced (b : ℕ) (v : Bool) (h : Hub) (hp_h : h.Paced ref .count) : (setLimpCause b v h).Paced ref .count := by
  unfold setLimpCause
  dsimp only
  repeat' first
    | with_reducible assumption | with_reducible exact count_ne_all | with_reducible apply changeMode_paced
    | with_reducible refine wr_paced _ _ _ ?_ | split

theorem mapMended_paced (was : Bool) (h : Hub) (hp_h : h.Paced ref kd) : (mapMended was h).Paced ref kd := by
  unfold mapMended
  repeat' first | with_reducible assumption | with_reducible apply whenDo_paced | with_reducible apply causeGone_paced

theorem setMap_paced (slot : ℕ) (e : MapEntry) (h : Hub) (hp_h : h.Paced ref kd) : (setMap slot e h).Paced ref kd := by
  unfold setMap
  repeat' first
    | with_reducible assumption | with_reducible apply takeInjection_paced | with_reducible apply mapMended_paced
    | (with_reducible apply paced_intro; dsimp only; with_reducible apply paced_elim)

theorem dropResidence_paced (handle : ℕ) (h : Hub) (hp_h : h.Paced ref kd) : (dropResidence handle h).Paced ref kd := by
  unfold dropResidence
  repeat' first
    | with_reducible assumption | with_reducible apply mapMended_paced
    | (with_reducible apply paced_intro; dsimp only; with_reducible apply paced_elim)

theorem writeWord_paced (w : Nat) (v : Word) (mask : Nat) (h : Hub) (hp : h.Paced ref kd) : (writeWord w v mask h).Paced ref kd :=
  (takeInjection_paced 4 h hp).of_eq rfl rfl rfl

theorem writeWords_paced (w : ℕ) (y0 : List Word) (h : Hub) (hp : h.Paced ref kd) : (writeWords w y0 h).Paced ref kd := by
  revert hp
  fun_induction writeWords w y0 h <;> intro hp <;>
  repeat' first | with_reducible apply writeWord_paced | (with_reducible apply_assumption)

theorem performMemory_paced (own : Bool) (w : ℕ) (r : CReq) (h : Hub) (hp_h : h.Paced ref kd) :
    (performMemory own w r h).2.Paced ref kd := by
  unfold performMemory
  dsimp only
  repeat' first
    | with_reducible assumption | with_reducible intro _ | with_reducible apply writeWord_paced
    | with_reducible apply forEach_paced | split

theorem performPhysical_paced (own : Bool) (r : CReq) (h : Hub) (hp_h : h.Paced ref kd) : (performPhysical own r h).2.Paced ref kd := by
  unfold performPhysical
  repeat' first | with_reducible assumption | with_reducible apply performMemory_paced | split

theorem setSignal_paced (slot : ℕ) (v : Word) (h : Hub) (hp_h : h.Paced ref kd) : (setSignal slot v h).Paced ref kd := by
  unfold setSignal
  repeat' first | with_reducible assumption | (with_reducible apply paced_intro; dsimp only; with_reducible apply paced_elim)

theorem performSignal_paced (base : ℕ) (d : ObjDef) (r : CReq) (h : Hub) (hp_h : h.Paced ref kd) :
    (performSignal base d r h).2.Paced ref kd := by
  unfold performSignal
  dsimp only
  repeat' first | with_reducible assumption | with_reducible apply setSignal_paced | split

theorem takeWords_paced (f : ℕ) (y0 : ℕ) (y1 : Bool) (h : Hub) (hp : h.Paced ref kd) : (takeWords f y0 y1 h).2.Paced ref kd := by
  revert hp
  fun_induction takeWords f y0 y1 h <;> intro hp <;> (try dsimp only) <;>
  repeat' first
    | with_reducible apply whenDo_paced | with_reducible apply readHead_paced | with_reducible apply fifoAdvance_paced
    | with_reducible apply fifoPoisoned_paced | (with_reducible apply_assumption)

theorem appendWords_paced (f : ℕ) (c : ℕ) (y0 : List Word) (h : Hub) (hp : h.Paced ref kd) : (appendWords f c y0 h).Paced ref kd := by
  revert hp
  fun_induction appendWords f c y0 h <;> intro hp <;>
  repeat' first | with_reducible apply fifoStore_paced | (with_reducible apply_assumption)

theorem performStream_paced (own : Bool) (f : ℕ) (r : CReq) (h : Hub) (hp_h : h.Paced ref kd) :
    (performStream own f r h).2.Paced ref kd := by
  unfold performStream
  repeat' first
    | with_reducible assumption | with_reducible apply takeWords_paced | with_reducible apply appendWords_paced
    | (with_reducible refine pair_paced ‹_ = (_, _)› ?_)
    | (with_reducible apply paced_intro; dsimp only; with_reducible apply paced_elim) | split

theorem performQueue_paced (own : Bool) (base : ℕ) (d : ObjDef) (r : CReq) (h : Hub) (hp_h : h.Paced ref kd) :
    (performQueue own base d r h).2.Paced ref kd := by
  unfold performQueue
  dsimp only
  repeat' first
    | with_reducible assumption | with_reducible intro _ | with_reducible apply writeWord_paced
    | with_reducible apply writeWords_paced | with_reducible apply forEach_paced | split

theorem performObject_paced (own : Bool) (kind : ℕ) (base : ℕ) (length : ℕ) (d : ObjDef) (r : CReq) (h : Hub) (hp_h : h.Paced ref kd) :
    (performObject own kind base length d r h).2.Paced ref kd := by
  unfold performObject
  repeat' first
    | with_reducible assumption | with_reducible apply performSignal_paced | with_reducible apply performQueue_paced
    | with_reducible apply performMemory_paced | with_reducible apply performStream_paced | split

theorem reachDrop_paced (handle : ℕ) (h : Hub) (hp_h : h.Paced ref kd) : (reachDrop handle h).Paced ref kd := by
  unfold reachDrop
  repeat' first | with_reducible assumption | (with_reducible apply paced_intro; dsimp only; with_reducible apply paced_elim)

theorem reachPut_paced (t : Translation) (h : Hub) (hp_h : h.Paced ref kd) : (reachPut t h).Paced ref kd := by
  unfold reachPut
  repeat' first | with_reducible assumption | (with_reducible apply paced_intro; dsimp only; with_reducible apply paced_elim)

theorem reachFill_paced (handle : ℕ) (fill : Option CFill) (h : Hub) (hp_h : h.Paced ref kd) :
    (reachFill handle fill h).Paced ref kd := by
  unfold reachFill
  repeat' first | with_reducible assumption | with_reducible apply reachPut_paced | split

theorem sendRequest_paced (dest : ℕ) (r : CReq) (h : Hub) (hp_h : h.Paced ref kd) : (sendRequest dest r h).2.Paced ref kd := by
  unfold sendRequest
  repeat' first
    | with_reducible assumption | with_reducible apply originate_paced
    | (with_reducible apply paced_intro; dsimp only; with_reducible apply paced_elim)

theorem sendResponse_paced (dest : ℕ) (gen : ℕ) (r : CResp) (h : Hub) (hp_h : h.Paced ref kd) :
    (sendResponse dest gen r h).Paced ref kd := by
  unfold sendResponse
  repeat' first | with_reducible assumption | with_reducible apply originate_paced

theorem hostWriteFailure_paced (address : ℕ) (requester : ℕ) (tag : ℕ) (status : ℕ) (h : Hub) (hp_h : h.Paced ref kd) :
    (hostWriteFailure address requester tag status h).Paced ref kd := by
  unfold hostWriteFailure
  repeat' first
    | with_reducible assumption | with_reducible refine bump_paced _ _ ?_ | with_reducible refine raiseEvent_paced _ _ _ _ ?_
    | with_reducible refine pushLog_paced _ _ _ _ _ ?_ | (with_reducible apply paced_intro; dsimp only; with_reducible apply paced_elim)

theorem writeFailed_paced (r : CReq) (status : ℕ) (h : Hub) (hp_h : h.Paced ref kd) : (writeFailed r status h).Paced ref kd := by
  unfold writeFailed
  repeat' first
    | with_reducible assumption | with_reducible refine raiseEvent_paced _ _ _ _ ?_
    | with_reducible refine pushLog_paced _ _ _ _ _ ?_ | with_reducible apply hostWriteFailure_paced | split

theorem hostDeliver_paced (x : HostRead) (h : Hub) (hp_h : h.Paced ref kd) : (hostDeliver x h).Paced ref kd := by
  unfold hostDeliver
  repeat' first
    | with_reducible assumption | with_reducible intro _ | with_reducible apply whenDo_paced
    | with_reducible refine bump_paced _ _ ?_ | with_reducible apply answered_paced
    | (with_reducible apply paced_intro; dsimp only; with_reducible apply paced_elim) | split

theorem hostDeliverAll_paced (h : Hub) (hp_h : h.Paced ref kd) : (hostDeliverAll h).Paced ref kd := by
  unfold hostDeliverAll
  repeat' first
    | with_reducible assumption | with_reducible apply forEach_paced | with_reducible apply hostDeliver_paced
    | (with_reducible apply paced_intro; dsimp only; with_reducible apply paced_elim)

theorem hostPieceDone_paced (tag : ℕ) (status : ℕ) (ws : List (Word × Bool)) (h : Hub) (hp_h : h.Paced ref kd) :
    (hostPieceDone tag status ws h).Paced ref kd := by
  unfold hostPieceDone
  repeat' first
    | with_reducible assumption | with_reducible refine bump_paced _ _ ?_ | with_reducible apply hostDeliverAll_paced
    | (with_reducible apply paced_intro; dsimp only; with_reducible apply paced_elim) | split

theorem reflexRefused_paced (reflex : ℕ) (h : Hub) (hp_h : h.Paced ref kd) : (reflexRefused reflex h).Paced ref kd := by
  unfold reflexRefused
  repeat' first | with_reducible assumption | with_reducible refine cycEvent_paced _ _ _ _ _ ?_

theorem answerWrite_paced (r : Reply) (ok : Bool) (h : Hub) (hp_h : h.Paced ref kd) : (answerWrite r ok h).Paced ref kd := by
  unfold answerWrite
  repeat' first
    | with_reducible assumption | with_reducible intro _ | with_reducible apply whenDo_paced
    | with_reducible refine bump_paced _ _ ?_ | with_reducible apply originate_paced
    | (with_reducible apply paced_intro; dsimp only; with_reducible apply paced_elim) | split

theorem shadowDone_paced (tag : ℕ) (status : ℕ) (w : ShadowWrite) (h : Hub) (hp_h : h.Paced ref kd) :
    (shadowDone tag status w h).Paced ref kd := by
  unfold shadowDone
  repeat' first
    | with_reducible assumption | with_reducible apply answered_paced | with_reducible apply answerWrite_paced
    | with_reducible apply refuse_paced | (with_reducible apply paced_intro; dsimp only; with_reducible apply paced_elim) | split

theorem portDone_paced (r : CReq) (d : Done) (h : Hub) (hp_h : h.Paced ref kd) : (portDone r d h).Paced ref kd := by
  unfold portDone
  repeat' first
    | with_reducible assumption | with_reducible apply answered_paced | with_reducible apply shadowDone_paced
    | with_reducible apply hostPieceDone_paced | with_reducible apply reflexRefused_paced | split

theorem dropOut_paced (r : CReq) (h : Hub) (hp_h : h.Paced ref kd) : (dropOut r h).Paced ref kd := by
  unfold dropOut
  repeat' first | with_reducible assumption | (with_reducible apply paced_intro; dsimp only; with_reducible apply paced_elim)

theorem finish_paced (r : CReq) (d : Done) (h : Hub) (hp_h : h.Paced ref kd) : (finish r d h).Paced ref kd := by
  unfold finish
  repeat' first
    | with_reducible assumption | with_reducible apply whenDo_paced | with_reducible apply dropOut_paced
    | with_reducible apply reachDrop_paced | with_reducible apply writeFailed_paced | with_reducible apply portDone_paced | split

theorem transmit_paced (dest : ℕ) (r : CReq) (h : Hub) (hp_h : h.Paced ref kd) : (transmit dest r h).Paced ref kd := by
  unfold transmit
  repeat' first
    | with_reducible assumption | with_reducible intro _ | with_reducible apply whenDo_paced
    | with_reducible apply dropOut_paced | with_reducible refine bump_paced _ _ ?_ | with_reducible apply finish_paced
    | with_reducible apply sendRequest_paced | (with_reducible apply paced_intro; dsimp only; with_reducible apply paced_elim) | split

theorem staleAt_paced (r : CReq) (h : Hub) (hp_h : h.Paced ref kd) : (staleAt r h).Paced ref kd := by
  unfold staleAt
  repeat' first
    | with_reducible assumption | with_reducible refine bump_paced _ _ ?_ | with_reducible apply reachDrop_paced
    | with_reducible apply transmit_paced

theorem retryAt_paced (r : CReq) (h : Hub) (hp_h : h.Paced ref kd) : (retryAt r h).Paced ref kd := by
  unfold retryAt
  repeat' first
    | with_reducible assumption | with_reducible apply dropOut_paced | with_reducible refine bump_paced _ _ ?_
    | (with_reducible apply paced_intro; dsimp only; with_reducible apply paced_elim)

theorem requesterGets_paced (r : CReq) (d : Done) (fill : Option CFill) (h : Hub) (hp_h : h.Paced ref kd) :
    (requesterGets r d fill h).Paced ref kd := by
  unfold requesterGets
  repeat' first
    | with_reducible assumption | with_reducible apply whenDo_paced | with_reducible apply finish_paced
    | with_reducible apply staleAt_paced | with_reducible apply retryAt_paced | with_reducible apply reachFill_paced | split

theorem sendAck_paced (src : ℕ) (port : ℕ) (c : Cls) (h : Hub) (hp_h : h.Paced ref kd) : (sendAck src port c h).Paced ref kd := by
  unfold sendAck
  repeat' first
    | with_reducible assumption | with_reducible apply sendResponse_paced | with_reducible apply countTraffic_paced
    | (with_reducible apply paced_intro; dsimp only; with_reducible apply paced_elim) | split

theorem noteAck_paced (r : CReq) (gen : ℕ) (fill : Option CFill) (h : Hub) (hp_h : h.Paced ref kd) :
    (noteAck r gen fill h).Paced ref kd := by
  unfold noteAck
  repeat' first
    | with_reducible assumption | with_reducible apply sendAck_paced
    | (with_reducible apply paced_intro; dsimp only; with_reducible apply paced_elim) | split

theorem respond_paced (r : CReq) (d : Done) (fill : Option CFill) (gen : ℕ) (h : Hub) (hp_h : h.Paced ref kd) :
    (respond r d fill gen h).Paced ref kd := by
  unfold respond
  repeat' first
    | with_reducible assumption | with_reducible apply sendResponse_paced | with_reducible apply requesterGets_paced
    | with_reducible apply noteAck_paced | split

theorem noteReflexWrite_paced (slot : ℕ) (h : Hub) (hp_h : h.Paced ref kd) : (noteReflexWrite slot h).Paced ref kd := by
  unfold noteReflexWrite
  repeat' first
    | with_reducible assumption | with_reducible intro _ | with_reducible apply whenDo_paced
    | with_reducible refine bump_paced _ _ ?_ | (with_reducible apply paced_intro; dsimp only; with_reducible apply paced_elim)

theorem performHere_paced (r : CReq) (x : ℕ × ℕ × ℕ × ℕ) (fill : Option CFill) (h : Hub) (hp_h : h.Paced ref kd) :
    (performHere r x fill h).Paced ref kd := by
  unfold performHere
  repeat' first
    | with_reducible assumption | with_reducible apply whenDo_paced | with_reducible apply noteReflexWrite_paced
    | with_reducible apply respond_paced | with_reducible apply performObject_paced | with_reducible apply countTraffic_paced

theorem sendBack_paced (r : CReq) (h : Hub) (hp_h : h.Paced ref kd) : (sendBack r h).Paced ref kd := by
  unfold sendBack
  repeat' first | with_reducible assumption | with_reducible apply sendRequest_paced

theorem withEntry_paced (r : CReq) (f : Hub → Hub) (h : Hub) (hf_f : ∀ x : Hub, x.Paced ref kd → (f x).Paced ref kd)
    (hp_h : h.Paced ref kd) : (withEntry r f h).Paced ref kd := by
  unfold withEntry
  repeat' first
    | with_reducible assumption | with_reducible apply hf_f | with_reducible apply raiseInjected_paced
    | with_reducible apply respond_paced | split

theorem holderResolve_paced (r : CReq) (h : Hub) (hp_h : h.Paced ref kd) : (holderResolve r h).Paced ref kd := by
  unfold holderResolve
  repeat' first
    | with_reducible assumption | with_reducible apply sendBack_paced | with_reducible apply respond_paced
    | with_reducible apply performHere_paced | split

theorem holderServe_paced (r : CReq) (h : Hub) (hp_h : h.Paced ref kd) : (holderServe r h).Paced ref kd := by
  unfold holderServe
  repeat' first
    | with_reducible assumption | with_reducible apply holderResolve_paced | with_reducible apply respond_paced
    | with_reducible apply performPhysical_paced | with_reducible apply withEntry_paced | split

theorem forwardTo_paced (holder : ℕ) (r : CReq) (h : Hub) (hp_h : h.Paced ref kd) : (forwardTo holder r h).Paced ref kd := by
  unfold forwardTo
  repeat' first
    | with_reducible assumption | with_reducible apply respond_paced | with_reducible apply sendRequest_paced
    | (with_reducible apply paced_intro; dsimp only; with_reducible apply paced_elim) | split

theorem holdRequest_paced (slot : ℕ) (r : CReq) (h : Hub) (hp_h : h.Paced ref kd) : (holdRequest slot r h).Paced ref kd := by
  unfold holdRequest
  repeat' first
    | with_reducible assumption | with_reducible apply respond_paced | with_reducible refine peak_paced _ _ _ ?_
    | (with_reducible apply paced_intro; dsimp only; with_reducible apply paced_elim) | split

theorem mapResolve_paced (r : CReq) (h : Hub) (hp_h : h.Paced ref kd) : (mapResolve r h).Paced ref kd := by
  unfold mapResolve
  dsimp only
  repeat' first
    | with_reducible assumption | with_reducible apply respond_paced | with_reducible apply holdRequest_paced
    | with_reducible apply performHere_paced | with_reducible apply forwardTo_paced | split

theorem homeResolve_paced (r : CReq) (h : Hub) (hp_h : h.Paced ref kd) : (homeResolve r h).Paced ref kd := by
  unfold homeResolve
  repeat' first | with_reducible assumption | with_reducible apply mapResolve_paced | with_reducible apply withEntry_paced

theorem releaseHeld_paced (slot : ℕ) (h : Hub) (hp_h : h.Paced ref kd) : (releaseHeld slot h).Paced ref kd := by
  unfold releaseHeld
  repeat' first
    | with_reducible assumption | with_reducible apply homeResolve_paced | with_reducible apply forEach_paced
    | (with_reducible apply paced_intro; dsimp only; with_reducible apply paced_elim)

theorem sendReq_paced (r0 : CReq) (h : Hub) (hp_h : h.Paced ref kd) : (sendReq r0 h).Paced ref kd := by
  unfold sendReq
  repeat' first
    | with_reducible assumption | with_reducible refine bump_paced _ _ ?_ | with_reducible apply finish_paced
    | with_reducible apply reachPut_paced | with_reducible apply holderServe_paced | with_reducible apply performPhysical_paced
    | with_reducible apply transmit_paced | with_reducible apply homeResolve_paced
    | (with_reducible apply paced_intro; dsimp only; with_reducible apply paced_elim) | split

theorem barrierDone_paced (port : ℕ) (h : Hub) (hp : h.Paced ref kd) : (barrierDone port h).Paced ref kd := by
  unfold barrierDone
  split
  · exact answered_paced _ _ hp
  · split
    · exact answered_paced _ _ hp
    · dsimp only
      split
      · exact answered_paced _ _ (hp.of_eq rfl rfl rfl)
      · split
        · exact hp.of_eq rfl rfl rfl
        · exact hp.of_eq rfl rfl rfl

theorem drainItems_paced (port : ℕ) (y0 : List PortItem) (y1 : List PortItem) (h : Hub) (hp : h.Paced ref kd) :
    (drainItems port y0 y1 h).Paced ref kd := by
  revert hp
  fun_induction drainItems port y0 y1 h <;> intro hp <;> (try dsimp only) <;>
  repeat' first | with_reducible apply sendReq_paced | with_reducible apply barrierDone_paced | (with_reducible apply_assumption)

theorem drainPort_paced (port : ℕ) (h : Hub) (hp_h : h.Paced ref kd) : (drainPort port h).Paced ref kd := by
  unfold drainPort
  repeat' first
    | with_reducible assumption | with_reducible intro _ | with_reducible apply whenDo_paced
    | with_reducible apply drainItems_paced | with_reducible refine peak_paced _ _ _ ?_

theorem drainPorts_paced (h : Hub) (hp_h : h.Paced ref kd) : (drainPorts h).Paced ref kd := by
  unfold drainPorts
  repeat' first | with_reducible assumption | with_reducible apply forEach_paced | with_reducible apply drainPort_paced

theorem putItem_paced (port : ℕ) (i : PortItem) (h : Hub) (hp_h : h.Paced ref kd) : (putItem port i h).Paced ref kd := by
  unfold putItem
  repeat' first
    | with_reducible assumption | with_reducible apply drainPort_paced
    | (with_reducible apply paced_intro; dsimp only; with_reducible apply paced_elim)

theorem bindProgram_paced (np : kd ≠ .all) (n : ℕ) (handle : ℕ) (d : ObjDef) (h : Hub) (hp_h : h.Paced ref kd) :
    (bindProgram n handle d h).Paced ref kd := by
  unfold bindProgram
  dsimp only
  repeat' first
    | with_reducible assumption | with_reducible apply engineLoad_paced | with_reducible apply releasePads_paced
    | with_reducible apply setEngine_paced | with_reducible apply takeFree_paced | with_reducible refine wrs_paced _ _ ?_
    | with_reducible apply alloc_no_paced | with_reducible apply alloc_intro_yes_paced | split

theorem resetPads_paced (fios : List ℕ) (h : Hub) (hp_h : h.Paced ref kd) : (resetPads fios h).Paced ref kd := by
  unfold resetPads
  repeat' first | with_reducible assumption | (with_reducible apply paced_intro; dsimp only; with_reducible apply paced_elim)

theorem freeEngine_paced (np : kd ≠ .all) (n : Nat) (h : Hub) (hp : h.Paced ref kd) : (freeEngine n h).Paced ref kd := by
  unfold freeEngine
  dsimp only
  have erased := wr_paced_of _ (engKey n 0x12) 0 (resetPads_paced ((engine h n).pins ++ (engine h n).spares ++ (engine h n).failed)
    { h with engines := tabErase h.engines n } (hp.of_eq rfl rfl rfl)) (free_engKey np n (by decide))
  split
  · exact erased
  · exact wr_paced_of _ _ _ erased (free_engKey np n (by decide))

theorem hostProgram_paced (np : kd ≠ .all) (handle : ℕ) (d : ObjDef) (wanted : ℕ) (h : Hub) (hp_h : h.Paced ref kd) :
    (hostProgram handle d wanted h).Paced ref kd := by
  unfold hostProgram
  dsimp only
  repeat' first
    | with_reducible assumption | with_reducible apply bindProgram_paced | with_reducible apply voteReturn_paced
    | with_reducible apply alloc_no_paced | with_reducible apply alloc_intro_wait_paced | split

theorem hostStream_paced (np : kd ≠ .all) (handle : ℕ) (d : ObjDef) (h : Hub) (hp_h : h.Paced ref kd) :
    (hostStream handle d h).Paced ref kd := by
  unfold hostStream
  dsimp only
  repeat' first
    | with_reducible assumption | (with_reducible refine fifoBind_paced np ‹_ = some (_, _)› ?_)
    | with_reducible apply alloc_no_paced | with_reducible apply alloc_intro_yes_paced | split

theorem clearRegion_paced (base n : Nat) (h : Hub) (hp : h.Paced ref kd) : (clearRegion base n h).Paced ref kd := hp.of_eq rfl rfl rfl

theorem hostObject_paced (np : kd ≠ .all) (handle kind : Nat) (d : ObjDef) (place engineWanted : Nat) (h : Hub) (hp : h.Paced ref kd) :
    (hostObject handle kind d place engineWanted h).Paced ref kd := by
  unfold hostObject
  dsimp only
  repeat' first
    | with_reducible exact alloc_no_paced _
    | with_reducible exact hostStream_paced np _ _ _ hp
    | with_reducible exact hostProgram_paced np _ _ _ _ hp
    | with_reducible exact alloc_intro_yes_paced (clearRegion_paced _ _ _ hp)
    | (with_reducible refine alloc_intro_yes_paced ?_
       repeat' first
         | with_reducible assumption
         | with_reducible apply setSignal_paced
         | (with_reducible apply paced_intro; dsimp only; with_reducible apply paced_elim))
    | split

theorem releaseObject_paced (np : kd ≠ .all) (kind : ℕ) (base : ℕ) (h : Hub) (hp_h : h.Paced ref kd) :
    (releaseObject kind base h).Paced ref kd := by
  unfold releaseObject
  repeat' first
    | with_reducible assumption | with_reducible apply fifoUnbind_paced | with_reducible apply freeEngine_paced
    | (with_reducible apply paced_intro; dsimp only; with_reducible apply paced_elim) | split

theorem foresterLog_paced (trigger : ℕ) (result : ℕ) (handle : ℕ) (fromHub : ℕ) (toHub : ℕ) (fromE : ℕ) (toE : ℕ) (startNs : ℕ) (h : Hub)
    (hp_h : h.Paced ref kd) : (foresterLog trigger result handle fromHub toHub fromE toE startNs h).Paced ref kd := by
  unfold foresterLog
  repeat' first | with_reducible assumption | with_reducible refine pushLog_paced _ _ _ _ _ ?_

theorem foresterUpdate_paced (h : Hub) (hp_h : h.Paced ref .count) : (foresterUpdate h).Paced ref .count := by
  unfold foresterUpdate
  repeat' first
    | with_reducible assumption | with_reducible exact count_ne_all | with_reducible intro _
    | with_reducible apply whenDo_paced | with_reducible apply setLimpCause_paced | with_reducible refine raiseEvent_paced _ _ _ _ ?_
    | with_reducible refine wrs_paced _ _ ?_ | (with_reducible apply paced_intro; dsimp only; with_reducible apply paced_elim)

theorem blockedAt_paced (slot : ℕ) (code : ℕ) (h : Hub) (hp_h : h.Paced ref kd) : (blockedAt slot code h).Paced ref kd := by
  unfold blockedAt
  repeat' first
    | with_reducible assumption | with_reducible refine raiseEvent_paced _ _ _ _ ?_
    | (with_reducible apply paced_intro; dsimp only; with_reducible apply paced_elim) | split

theorem takeDef_paced (s : ℕ) (h : Hub) (hp_h : h.Paced ref kd) : (takeDef s h).Paced ref kd := by
  unfold takeDef
  repeat' first
    | with_reducible assumption | with_reducible apply whenDo_paced | with_reducible apply setMap_paced
    | (with_reducible apply paced_intro; dsimp only; with_reducible apply paced_elim) | split

theorem bindSlot_paced (s : ℕ) (holder : ℕ) (base : ℕ) (h : Hub) (hp_h : h.Paced ref kd) : (bindSlot s holder base h).Paced ref kd := by
  unfold bindSlot
  repeat' first
    | with_reducible assumption | with_reducible apply setMap_paced
    | (with_reducible apply paced_intro; dsimp only; with_reducible apply paced_elim)

theorem migrate_paced (dest : ℕ) (op : ℕ) (tag : ℕ) (status : ℕ) (handle : ℕ) (more : List Word) (h : Hub) (hp_h : h.Paced ref kd) :
    (migrate dest op tag status handle more h).Paced ref kd := by
  unfold migrate
  repeat' first | with_reducible assumption | with_reducible apply originate_paced

theorem setMove_paced (m : Move) (h : Hub) (hp_h : h.Paced ref kd) : (setMove m h).Paced ref kd := by
  unfold setMove
  repeat' first | with_reducible assumption | (with_reducible apply paced_intro; dsimp only; with_reducible apply paced_elim)

theorem dropMove_paced (m : Move) (h : Hub) (hp_h : h.Paced ref kd) : (dropMove m h).Paced ref kd := by
  unfold dropMove
  repeat' first | with_reducible assumption | (with_reducible apply paced_intro; dsimp only; with_reducible apply paced_elim)

theorem requestResult_paced (m : Move) (result : ℕ) (h : Hub) (hp_h : h.Paced ref kd) : (requestResult m result h).Paced ref kd := by
  unfold requestResult
  repeat' first
    | with_reducible assumption | with_reducible refine wr_paced _ _ _ ?_
    | (with_reducible apply paced_intro; dsimp only; with_reducible apply paced_elim) | split

theorem moveEnds_paced (m : Move) (result : ℕ) (h : Hub) (hp_h : h.Paced ref kd) : (moveEnds m result h).Paced ref kd := by
  unfold moveEnds
  repeat' first
    | with_reducible assumption | with_reducible intro _ | with_reducible apply whenDo_paced
    | with_reducible refine bump_paced _ _ ?_ | with_reducible apply requestResult_paced
    | with_reducible refine raiseEvent_paced _ _ _ _ ?_ | with_reducible apply foresterLog_paced | split

theorem listMove_paced (m : Move) (h : Hub) (hp_h : h.Paced ref kd) : (listMove m h).Paced ref kd := by
  unfold listMove
  repeat' first | with_reducible assumption | (with_reducible apply paced_intro; dsimp only; with_reducible apply paced_elim)

theorem offerPlacement_paced (trigger : ℕ) (s : ℕ) (target : ℕ) (h : Hub) (hp_h : h.Paced ref kd) :
    (offerPlacement trigger s target h).Paced ref kd := by
  unfold offerPlacement
  repeat' first | with_reducible assumption | with_reducible apply listMove_paced | with_reducible apply migrate_paced

theorem joinGroup_paced {handle : Nat} {h a : Hub} (e : joinGroup handle h = some a) (hp : h.Paced ref kd) : a.Paced ref kd := by
  unfold joinGroup at e
  dsimp only at e
  split at e
  · cases e; exact hp
  · cases e

theorem placed_paced (m : Move) (holder : ℕ) (base : ℕ) (h : Hub) (hp_h : h.Paced ref kd) : (placed m holder base h).Paced ref kd := by
  unfold placed
  repeat' first | with_reducible assumption | with_reducible apply moveEnds_paced | with_reducible apply bindSlot_paced

theorem joinGroupHere_paced {c : Bool} {handle : Nat} {h a : Hub} (e : (if c = true then joinGroup handle h else some h) = some a)
    (hp : h.Paced ref kd) : a.Paced ref kd := by
  cases c
  · cases e; exact hp
  · exact joinGroup_paced e hp

theorem placeGroup_paced (trigger : ℕ) (s : ℕ) (h : Hub) (hp_h : h.Paced ref kd) : (placeGroup trigger s h).Paced ref kd := by
  unfold placeGroup
  dsimp only
  repeat' first
    | with_reducible assumption | with_reducible intro _ | with_reducible apply blockedAt_paced
    | with_reducible apply listMove_paced | with_reducible apply placed_paced | with_reducible apply forEach_paced
    | with_reducible apply migrate_paced | (with_reducible refine joinGroupHere_paced ‹_ = some _› ?_) | split

theorem cancelPlacement_paced (np : kd ≠ .all) (m : Move) (h : Hub) (hp_h : h.Paced ref kd) : (cancelPlacement m h).Paced ref kd := by
  unfold cancelPlacement
  repeat' first
    | with_reducible assumption | with_reducible intro _ | with_reducible apply whenDo_paced
    | with_reducible apply releaseObject_paced | with_reducible apply setMove_paced | with_reducible apply forEach_paced
    | with_reducible apply migrate_paced | (with_reducible apply paced_intro; dsimp only; with_reducible apply paced_elim) | split

theorem placeSending_paced (np : kd ≠ .all) (m : Move) (listed : Bool) (holder : ℕ) (base : ℕ) (h : Hub) (hp_h : h.Paced ref kd) :
    (placeSending m listed holder base h).2.Paced ref kd := by
  unfold placeSending
  dsimp only
  repeat' first
    | with_reducible assumption | with_reducible apply hostStream_paced | with_reducible apply listMove_paced
    | with_reducible apply setMove_paced | with_reducible apply dropMove_paced | with_reducible apply placed_paced
    | with_reducible apply migrate_paced | (with_reducible refine alloc_yes_paced ‹_ = Alloc.yes _ _› ?_) | split

theorem placeAt_paced (np : kd ≠ .all) (trigger : ℕ) (s : ℕ) (target : ℕ) (h : Hub) (hp_h : h.Paced ref kd) :
    (placeAt trigger s target h).2.Paced ref kd := by
  unfold placeAt
  dsimp only
  repeat' first
    | with_reducible assumption | with_reducible apply offerPlacement_paced | with_reducible apply hostObject_paced
    | with_reducible apply placeSending_paced | (with_reducible refine alloc_yes_paced ‹_ = Alloc.yes _ _› ?_)
    | (with_reducible refine alloc_wait_paced ‹_ = Alloc.wait _› ?_) | split

theorem placeLater_paced (s : ℕ) (h : Hub) (hp_h : h.Paced ref kd) : (placeLater s h).Paced ref kd := by
  unfold placeLater
  repeat' first | with_reducible assumption | (with_reducible apply paced_intro; dsimp only; with_reducible apply paced_elim)

theorem placeFirst_paced (np : kd ≠ .all) (trigger : ℕ) (s : ℕ) (y0 : List ℕ) (y1 : ℕ) (h : Hub) (hp : h.Paced ref kd) :
    (placeFirst trigger s y0 y1 h).Paced ref kd := by
  revert hp
  fun_induction placeFirst trigger s y0 y1 h <;> intro hp <;>
  repeat' first
    | with_reducible apply blockedAt_paced | with_reducible apply placeLater_paced | with_reducible apply placeAt_paced
    | (with_reducible apply_assumption)

theorem placeNext_paced (np : kd ≠ .all) (trigger : ℕ) (s : ℕ) (code : ℕ) (h : Hub) (hp_h : h.Paced ref kd) :
    (placeNext trigger s code h).Paced ref kd := by
  unfold placeNext
  repeat' first | with_reducible assumption | with_reducible apply placeFirst_paced

theorem refusedBy_paced (s : ℕ) (target : ℕ) (h : Hub) (hp_h : h.Paced ref kd) : (refusedBy s target h).Paced ref kd := by
  unfold refusedBy
  repeat' first | with_reducible assumption | (with_reducible apply paced_intro; dsimp only; with_reducible apply paced_elim)

theorem placeSlot_paced (np : kd ≠ .all) (trigger : ℕ) (s : ℕ) (h : Hub) (hp_h : h.Paced ref kd) :
    (placeSlot trigger s h).Paced ref kd := by
  unfold placeSlot
  repeat' first
    | with_reducible assumption | with_reducible apply blockedAt_paced | with_reducible apply placeNext_paced
    | with_reducible apply placeGroup_paced | (with_reducible apply paced_intro; dsimp only; with_reducible apply paced_elim) | split

theorem placeSteps_paced (np : kd ≠ .all) (y0 : List ℕ) (h : Hub) (hp : h.Paced ref kd) : (placeSteps y0 h).Paced ref kd := by
  revert hp
  fun_induction placeSteps y0 h <;> intro hp <;>
  repeat' first | with_reducible apply placeSlot_paced | with_reducible apply forEach_paced | (with_reducible apply_assumption)

theorem placeAll_paced (h : Hub) (hp_h : h.Paced ref .count) : (placeAll h).Paced ref .count := by
  unfold placeAll
  repeat' first
    | with_reducible assumption | with_reducible exact count_ne_all | with_reducible apply placeSteps_paced
    | with_reducible apply foresterUpdate_paced

theorem deleteAt_paced (s : ℕ) (hub : ℕ) (h : Hub) (hp_h : h.Paced ref kd) : (deleteAt s hub h).Paced ref kd := by
  unfold deleteAt
  repeat' first | with_reducible assumption | with_reducible apply listMove_paced | with_reducible apply migrate_paced

theorem releaseSending_paced (np : kd ≠ .all) (handle : ℕ) (h : Hub) (hp_h : h.Paced ref kd) :
    (releaseSending handle h).Paced ref kd := by
  unfold releaseSending
  repeat' first | with_reducible assumption | with_reducible apply releaseObject_paced | split

theorem giveBack_paced (np : kd ≠ .all) (s : ℕ) (e : MapEntry) (h : Hub) (hp_h : h.Paced ref kd) : (giveBack s e h).Paced ref kd := by
  unfold giveBack
  repeat' first
    | with_reducible assumption | with_reducible intro _ | with_reducible apply releaseObject_paced
    | with_reducible apply deleteAt_paced | with_reducible apply listMove_paced | with_reducible apply releaseSending_paced
    | with_reducible apply forEach_paced | with_reducible apply migrate_paced
    | (with_reducible apply paced_intro; dsimp only; with_reducible apply paced_elim) | split

theorem retirePads_paced (s : ℕ) (e : MapEntry) (h : Hub) (hp_h : h.Paced ref kd) : (retirePads s e h).Paced ref kd := by
  unfold retirePads
  repeat' first | with_reducible assumption | with_reducible apply whenDo_paced | with_reducible apply resetPads_paced

theorem retire_paced (np : kd ≠ .all) (s : ℕ) (h : Hub) (hp_h : h.Paced ref kd) : (retire s h).Paced ref kd := by
  unfold retire
  repeat' first
    | with_reducible assumption | with_reducible apply cancelPlacement_paced | with_reducible apply giveBack_paced
    | with_reducible apply forEach_paced | with_reducible apply retirePads_paced | with_reducible apply setMap_paced
    | (with_reducible apply paced_intro; dsimp only; with_reducible apply paced_elim) | split

theorem takeDefs_paced (np : kd ≠ .all) (h : Hub) (hp_h : h.Paced ref kd) : (takeDefs h).Paced ref kd := by
  unfold takeDefs
  repeat' first
    | with_reducible assumption | with_reducible apply takeDef_paced | with_reducible apply forEach_paced
    | with_reducible apply retire_paced

theorem ownRebind_paced (code : ℕ) (handle : ℕ) (holder : ℕ) (slot : ℕ) (cycle : ℕ) (h : Hub) (hp_h : h.Paced ref kd) :
    (ownRebind code handle holder slot cycle h).Paced ref kd := by
  unfold ownRebind
  repeat' first | with_reducible assumption | (with_reducible apply paced_intro; dsimp only; with_reducible apply paced_elim)

theorem rebindNotice_paced (code : ℕ) (handle : ℕ) (holder : ℕ) (slot : ℕ) (switch : ℕ) (h : Hub) (hp_h : h.Paced ref kd) :
    (rebindNotice code handle holder slot switch h).Paced ref kd := by
  unfold rebindNotice
  repeat' first | with_reducible assumption | with_reducible apply ownRebind_paced | with_reducible apply originate_paced

theorem placeWaiting_paced (h : Hub) (hp_h : h.Paced ref .count) : (placeWaiting h).Paced ref .count := by
  unfold placeWaiting
  repeat' first
    | with_reducible assumption | with_reducible exact count_ne_all | with_reducible apply foresterUpdate_paced
    | with_reducible apply placeSlot_paced | with_reducible apply placeAll_paced | with_reducible apply forEach_paced | split

theorem afterMove_paced (h : Hub) (hp_h : h.Paced ref .count) : (afterMove h).Paced ref .count := by
  unfold afterMove
  repeat' first
    | with_reducible assumption | with_reducible exact count_ne_all | with_reducible apply whenDo_paced
    | with_reducible apply foresterUpdate_paced | with_reducible apply takeDefs_paced | with_reducible apply placeWaiting_paced

theorem moveOver_paced (m : Move) (h : Hub) (hp_h : h.Paced ref .count) : (moveOver m h).Paced ref .count := by
  unfold moveOver
  repeat' first
    | with_reducible assumption | with_reducible exact count_ne_all | with_reducible apply afterMove_paced
    | with_reducible apply dropMove_paced | with_reducible apply drainPorts_paced | with_reducible apply releaseHeld_paced

theorem abortMove_paced (m : Move) (result : ℕ) (h : Hub) (hp_h : h.Paced ref .count) : (abortMove m result h).Paced ref .count := by
  unfold abortMove
  repeat' first
    | with_reducible assumption | with_reducible exact count_ne_all | with_reducible intro _
    | with_reducible apply whenDo_paced | with_reducible refine bump_paced _ _ ?_ | with_reducible apply releaseObject_paced
    | with_reducible apply cancelPlacement_paced | with_reducible apply blockedAt_paced | with_reducible apply foresterUpdate_paced
    | with_reducible apply setMove_paced | with_reducible apply moveEnds_paced | with_reducible apply forEach_paced
    | with_reducible apply releaseHeld_paced | with_reducible apply refusedBy_paced | with_reducible apply migrate_paced
    | with_reducible apply moveOver_paced | with_reducible apply setMap_paced | with_reducible apply rebindNotice_paced
    | (with_reducible apply paced_intro; dsimp only; with_reducible apply paced_elim) | split

end Sys2Proof.Machine
end

section
/-! SUPPORT. What the steps of a cycle's start leave of the cycle that has started (R331 to R349). -/

namespace Sys2Proof.Machine

variable {ref : Hub} {kd : Held}

/-! ### Values over a crossing -/

theorem setCrossing_paced (h : Hub) (src dst : Nat) (x : Crossing) (hp : h.Paced ref kd) : (setCrossing h src dst x).Paced ref kd :=
  hp.of_eq rfl rfl rfl

theorem takeParity_paced (src dst : Nat) (h : Hub) (hp : h.Paced ref kd) : (takeParity src dst h).2.Paced ref kd := by
  unfold takeParity
  split
  · exact hp
  · exact hp.of_eq rfl rfl rfl

theorem parityFault_paced (src dst : Nat) (bad : Bool) (h : Hub) (hp : h.Paced ref kd) : (parityFault src dst bad h).Paced ref kd := by
  unfold parityFault
  dsimp only
  have raised := raiseFault_paced 0x02 dst (crossingKey src dst) 0 { h with watch := { h.watch with injecting := h.watch.injecting || bad } }
    (hp.of_eq rfl rfl rfl)
  exact raised.of_eq rfl rfl rfl

theorem crossWord_paced (src dst : Nat) (w : XWord) (h : Hub) (hp : h.Paced ref kd) : (crossWord src dst w h).2.Paced ref kd := by
  unfold crossWord
  split
  · exact setCrossing_paced _ _ _ _ hp
  · split
    · exact parityFault_paced _ _ _ _ (setCrossing_paced _ _ _ _ (takeParity_paced _ _ _ hp))
    · split
      · exact hp
      · exact setCrossing_paced _ _ _ _ hp

theorem crossValue_paced (src dst : Nat) (w : Word) (h : Hub) (hp : h.Paced ref kd) : (crossValue src dst w h).2.Paced ref kd := by
  have crossed := crossWord_paced src dst (plainWord w) h hp
  unfold crossValue
  split <;> exact pair_paced ‹_› crossed

theorem valueOver_paced (src dst : Nat) (act : Word → Hub → Hub) (w : Word) (h : Hub)
    (acts : ∀ v x, x.Paced ref kd → (act v x).Paced ref kd)
    (hp : h.Paced ref kd) : (valueOver src dst act w h).Paced ref kd := by
  have crossed := crossValue_paced src dst w h hp
  unfold valueOver
  split
  · exact acts _ _ (pair_paced ‹_› crossed)
  · exact pair_paced ‹_› crossed

/-! ### Windows and routes -/

theorem acceptWords_paced (src first : Nat) (ws : List Word) (h : Hub) (hp : h.Paced ref kd) :
    (acceptWords src first ws h).Paced ref kd :=
  hp.of_eq rfl rfl rfl

theorem watchdogCause_paced (heard : Bool) (h : Hub) (hp : h.Paced ref kd) : (watchdogCause heard h).Paced ref kd := by
  unfold watchdogCause
  split
  · split
    · exact causeGone_paced _ _ hp
    · exact hp
  · exact hp

theorem loadMeasured_paced (n : Nat) (h : Hub) (hp : h.Paced ref kd) : (loadMeasured n h).Paced ref kd := by
  unfold loadMeasured
  exact whenDo_paced _ _ _ (fun x hx => cycEvent_paced _ _ _ _ _ hx) (whenDo_paced _ _ _ (fun x hx => cycEvent_paced _ _ _ _ _ hx)
    (wrs_paced _ _ hp))

theorem tagsMeasured_paced (k frames wrong : Nat) (h : Hub) (hp : h.Paced ref kd) : (tagsMeasured k frames wrong h).Paced ref kd := by
  unfold tagsMeasured
  exact whenDo_paced _ _ _ (fun x hx => cycEvent_paced _ _ _ _ _ hx) (hp.of_eq rfl rfl rfl)

theorem windowMeasures_paced (h : Hub) (hp : h.Paced ref kd) : (windowMeasures h).Paced ref kd :=
  tagsMeasured_paced _ _ _ _ (loadMeasured_paced _ _ hp)

theorem resolveRoute_paced (hd : Nat) (h : Hub) (hp : h.Paced ref kd) : (resolveRoute hd h).Paced ref kd := by
  unfold resolveRoute
  split
  · exact hp
  · exact (takeFree_paced h hp).of_eq rfl rfl rfl

theorem resolveRoutes_paced (k : Nat) (h : Hub) (hp : h.Paced ref kd) : (resolveRoutes k h).Paced ref kd := by
  unfold resolveRoutes
  exact forEach_paced _ _ _ (fun hd x hx => resolveRoute_paced hd x hx) (hp.of_eq rfl rfl rfl)

theorem staleRoutes_paced (h : Hub) (hp : h.Paced ref kd) : (staleRoutes h).Paced ref kd := by
  unfold staleRoutes
  refine forEach_paced _ _ _ (fun hd x hx => ?_) hp
  dsimp only
  split
  · exact hx.of_eq rfl rfl rfl
  · split <;> exact hx.of_eq rfl rfl rfl

/-! ### Capture and contribution -/

theorem captureSlot_paced (slot : Nat) (d : ObjDef) (h : Hub) (hp : h.Paced ref kd) : (captureSlot slot d h).Paced ref kd := by
  unfold captureSlot
  split
  · exact valueOver_paced _ _ _ _ _ (fun v x hx => setSignal_paced slot v x hx) hp
  · exact hp

theorem captureAll_paced (h : Hub) (hp : h.Paced ref kd) : (captureAll h).Paced ref kd := by
  unfold captureAll
  have captured := forEach_paced h.forester.slots (fun e g => captureSlot e.1 (heldDef g e.2) g) h
    (fun e x hx => captureSlot_paced e.1 (heldDef x e.2) x hx) hp
  exact forEach_paced _ _ _ (fun n x hx => setFuse_paced _ _ _ hx) (captured.of_eq rfl rfl rfl)

theorem sendContribution_paced (h : Hub) (hp : h.Paced ref kd) : (sendContribution h).Paced ref kd := by
  unfold sendContribution
  dsimp only
  have told := wr_paced h 0x4400_0B (contributionSize h) hp
  split
  · exact told
  · exact forEach_paced _ _ _ (fun f x hx => originate_paced _ _ _ _ _ _ _ _ hx) told

/-! ### Reflexes -/

theorem reflexFailed_paced (hd status : Nat) (r : CReq) (h : Hub) (hp : h.Paced ref kd) : (reflexFailed hd status r h).Paced ref kd := by
  unfold reflexFailed
  exact whenDo_paced _ _ _ (fun x hx => reflexRefused_paced _ x hx) (writeFailed_paced _ _ _ hp)

theorem reflexWrite_paced (hd out : Nat) (w : Word) (h : Hub) (hp : h.Paced ref kd) : (reflexWrite hd out w h).Paced ref kd := by
  unfold reflexWrite
  dsimp only
  split
  · exact reflexFailed_paced _ _ _ _ (raiseInjected_paced _ _ _ _ _ hp)
  · split
    · exact noteReflexWrite_paced _ _ (performObject_paced _ _ _ _ _ _ _ hp)
    · exact reflexFailed_paced _ _ _ _ (performObject_paced _ _ _ _ _ _ _ hp)
  · exact putItem_paced _ _ _ (hp.of_eq rfl rfl rfl)

theorem evalReflex_paced (e : Nat × Nat × List Nat) (h : Hub) (hp : h.Paced ref kd) : (evalReflex e h).Paced ref kd := by
  unfold evalReflex
  dsimp only
  generalize (((ruleInputs e.2.2).map fun hd => if hd = 0 then none else some (imageWord h hd)).any fun i => match i with
    | some (_, age) => decide (bits (e.2.2.getD 2 0) 31 24 < age)
    | none => false) = stale
  have counted := whenDo_paced stale (fun g => bump g 0x4400_09) h (fun x hx => bump_paced _ _ hx) hp
  split
  · exact counted
  · split
    · exact counted.of_eq rfl rfl rfl
    · exact reflexWrite_paced _ _ _ _ (counted.of_eq rfl rfl rfl)

theorem evalReflexes_paced (h : Hub) (hp : h.Paced ref kd) : (evalReflexes h).Paced ref kd := by
  unfold evalReflexes
  exact peak_paced _ _ _ (forEach_paced _ _ _ (fun e x hx => evalReflex_paced e x hx) hp)

/-! ### Moves that are over, and those that are late -/

theorem leaveHolder_paced (np : kd ≠ .all) (handle kind base : Nat) (h : Hub) (hp : h.Paced ref kd) :
    (leaveHolder handle kind base h).Paced ref kd := by
  unfold leaveHolder
  have dropped := dropResidence_paced handle _ (releaseObject_paced np kind base h hp)
  have released := releaseObject_paced np kind base h hp
  obtain ⟨-, regs, frames⟩ := dropped
  exact ⟨released.1, regs, frames⟩

theorem leaveDue_paced (np : kd ≠ .all) (h : Hub) (hp : h.Paced ref kd) : (leaveDue h).Paced ref kd := by
  unfold leaveDue
  exact forEach_paced _ _ _ (fun l x hx => leaveHolder_paced np _ _ _ x hx) (hp.of_eq rfl rfl rfl)

theorem abortLate_paced (h : Hub) (hp : h.Paced ref .count) : (abortLate h).Paced ref .count := by
  unfold abortLate
  exact forEach_paced _ _ _ (fun m x hx => abortMove_paced m 1 x hx) hp

end Sys2Proof.Machine
end

section
/-! SUPPORT. The start of a cycle (R331, Table 1): what the cycle that has started is, and what its contribution needs of the hub. -/

namespace Sys2Proof.Machine

variable {ref : Hub} {kd : Held}

/-! ### Following less -/

theorem heldKeys_count {k : Nat} (m : k ∈ heldKeys .count) (kd : Held) : k ∈ heldKeys kd := by
  obtain rfl := List.mem_singleton.1 m
  cases kd <;> simp [heldKeys]

theorem heldKeys_mode {k : Nat} (m : k ∈ heldKeys .mode) : k ∈ heldKeys .all := by
  simp only [heldKeys, List.mem_cons, List.not_mem_nil, or_false] at m ⊢
  omega

theorem Hub.Paced.toCount {h : Hub} (c : h.Paced ref kd) : h.Paced ref .count := by
  obtain ⟨pace, regs, frames⟩ := c
  refine ⟨?_, fun k m => regs k (heldKeys_count m kd), frames⟩
  unfold paceOf at *
  simp only [Prod.mk.injEq] at pace ⊢
  exact ⟨pace.1, pace.2.1, pace.2.2.1, pace.2.2.2.1, rfl⟩

theorem Hub.Paced.toMode {h : Hub} (c : h.Paced ref .all) : h.Paced ref .mode := by
  obtain ⟨pace, regs, frames⟩ := c
  exact ⟨pace, fun k m => regs k (heldKeys_mode m), frames⟩

theorem Hub.Paced.trans {h g : Hub} (c : h.Paced g kd) (d : g.Paced ref kd) : h.Paced ref kd := by
  obtain ⟨pace, regs, frames⟩ := c
  exact d.step pace regs frames

/-! ### What the contribution and the switch times of moves rest on -/

/-- The moves and slots, the period, the time, the ring and the moves that go on here: what the late moves and a contribution rest on,
besides registers. -/
def outlook (h : Hub) : Forester × Nat × Spire × Ring × List Leaving := (h.forester, h.cyc.period, h.spire, h.ring, h.cyc.leaving)

theorem outlook_noFault {g h : Hub} (e : noFault g = noFault h) : outlook g = outlook h := (congrArg outlook e :)

theorem outlook_wrs (h : Hub) (l : List (Nat × Nat)) : outlook (wrs h l) = outlook h := outlook_noFault (noFault_dict (noDict_wrs h l))

theorem outlook_whenDo (c : Bool) (f : Hub → Hub) (h : Hub) (same : ∀ x, outlook (f x) = outlook x) : outlook
    (whenDo c f h) = outlook h := by
  unfold whenDo
  split
  · exact same h
  · rfl

theorem outlook_cycEvent (h : Hub) (e i v c : Nat) : outlook (cycEvent h e i v c) = outlook h := by
  unfold cycEvent
  dsimp only
  split
  · rfl
  · exact (outlook_noFault (noFault_raiseEvent _ e i v)).trans rfl

theorem outlook_watchdogCause (heard : Bool) (h : Hub) : outlook (watchdogCause heard h) = outlook h := by
  unfold watchdogCause
  split
  · split
    · exact outlook_noFault (noFault_causeGone 0x0C h)
    · rfl
  · rfl

theorem outlook_windowMeasures (h : Hub) : outlook (windowMeasures h) = outlook h := by
  unfold windowMeasures tagsMeasured loadMeasured
  rw [outlook_whenDo _ _ _ fun x => outlook_cycEvent x _ _ _ _]
  refine Eq.trans (b := outlook (whenDo _ _ _)) rfl ?_
  rw [outlook_whenDo _ _ _ fun x => outlook_cycEvent x _ _ _ _, outlook_whenDo _ _ _ fun x => outlook_cycEvent x _ _ _ _, outlook_wrs]

theorem outlook_resolveRoutes (k : Nat) (h : Hub) : outlook (resolveRoutes k h) = outlook h := by
  unfold resolveRoutes
  refine (forEach_same outlook _ _ _ fun hd _ x => ?_).trans rfl
  unfold resolveRoute takeFree
  split <;> rfl

theorem outlook_staleRoutes (h : Hub) : outlook (staleRoutes h) = outlook h := by
  unfold staleRoutes
  refine forEach_same outlook _ _ _ fun hd _ x => ?_
  dsimp only
  split
  · rfl
  · split <;> rfl

theorem outlook_takeParity (src dst : Nat) (h : Hub) : outlook (takeParity src dst h).2 = outlook h := by
  unfold takeParity
  split <;> rfl

theorem outlook_parityFault (src dst : Nat) (bad : Bool) (h : Hub) : outlook (parityFault src dst bad h) = outlook h :=
  outlook_noFault (noFault_parityFault src dst bad h)

theorem outlook_setCrossing (h : Hub) (src dst : Nat) (x : Crossing) : outlook (setCrossing h src dst x) = outlook h := rfl

theorem outlook_crossWord (src dst : Nat) (w : XWord) (h : Hub) : outlook (crossWord src dst w h).2 = outlook h := by
  unfold crossWord
  split
  · exact outlook_setCrossing _ _ _ _
  · split
    · rw [outlook_parityFault, outlook_setCrossing, outlook_takeParity]
    · split
      · rfl
      · exact outlook_setCrossing _ _ _ _

theorem outlook_captureSlot (slot : Nat) (d : ObjDef) (h : Hub) : outlook (captureSlot slot d h) = outlook h := by
  unfold captureSlot valueOver crossValue
  split
  · next w _ =>
    have crossed := outlook_crossWord (sourceIsland h d) 0 (plainWord w) h
    generalize crossWord (sourceIsland h d) 0 (plainWord w) h = y at crossed ⊢
    obtain ⟨x, a⟩ := y
    cases x with
    | none => exact crossed
    | some x => cases poisoned : x.poison <;> simp only [poisoned] <;> exact crossed
  · rfl

theorem outlook_peaksOpened (h : Hub) :
    outlook (forEach (List.range 16) (fun n g => setFuse g n { fuse g n with lastPeak := (fuse g n).peak, peak := 0 }) h) = outlook h :=
  forEach_same outlook _ _ _ fun _ _ _ => rfl

theorem outlook_captureAll (h : Hub) : outlook (captureAll h) = outlook h := by
  have captured : outlook (forEach h.forester.slots (fun e g => captureSlot e.1 (heldDef g e.2) g) h) = outlook h :=
    forEach_same outlook _ _ h fun e _ x => outlook_captureSlot e.1 _ x
  unfold captureAll
  generalize forEach h.forester.slots (fun e g => captureSlot e.1 (heldDef g e.2) g) h = a at captured ⊢
  exact (outlook_peaksOpened _).trans captured

end Sys2Proof.Machine
end

section
/-! The start of a cycle (R331, Table 1): the cycle that has started, and its contribution. -/

namespace Sys2Proof.Machine

variable {ref : Hub} {kd : Held}

/-! ### The window closes and the next opens -/

/-- The hub with window k opened on empty banks. -/
def windowOpened (k : Nat) (a : Hub) : Hub :=
  { a with cyc := { a.cyc with
    opened := [], accepted := 0, frames := 0, wrongTag := 0, heard := false, written := [],
    missed := if a.cyc.heard then 0 else a.cyc.missed + 1, early := [], number := k } }

/-- The image with the words of the window that closes. -/
def imageMerged (h : Hub) : Hub :=
  { h with cyc := { h.cyc with image := h.cyc.opened.foldl (fun t e => tabSet t e.1 (e.2, h.cyc.number)) h.cyc.image } }

theorem closeWindow_eq (k : Nat) (h : Hub) : closeWindow k h = watchdogCause h.cyc.heard
    (forEach ((windowMeasures (imageMerged h)).cyc.early.filter fun f => f.tag == k % 256) (fun f g => acceptWords f.src f.first f.words g)
      (windowOpened k (windowMeasures (imageMerged h)))) := rfl

/-- The hub on cycle k, begun at a given time. -/
def onCycle (k start : Nat) (h : Hub) : Hub :=
  { h with cyc := { h.cyc with number := k, start, complete := false, applied := false } }

/-- The hub with the cycle that begins after the window has closed. -/
def cycleBegun (start : Nat) (a : Hub) : Hub :=
  { a with cyc := { a.cyc with
    start, prior := a.cyc.start, since := a.cyc.since + 1, cycles := a.cyc.cycles + 1, complete := false, applied := false } }

theorem windowOpened_paced {k : Nat} {a h : Hub} (c : a.Paced h .all) (start : Nat) :
    (onCycle k start (windowOpened k a)).Paced (onCycle k start h) .all := by
  obtain ⟨pace, regs, frames⟩ := c
  unfold paceOf at pace
  simp only [Prod.mk.injEq] at pace
  exact ⟨congrArg (fun x => (k, start, false, false, x)) pace.2.2.2.2, regs, frames⟩

theorem cycleBegun_paced (k start : Nat) {h g : Hub} (c : g.Paced h .all) (n : h.cyc.number = k) :
    (cycleBegun start g).Paced (onCycle k start h) .all := by
  obtain ⟨pace, regs, frames⟩ := c
  unfold paceOf at pace
  simp only [Prod.mk.injEq] at pace
  refine ⟨?_, regs, frames⟩
  show (g.cyc.number, start, false, false, runs .all g.cyc.running) = (k, start, false, false, runs .all h.cyc.running)
  rw [pace.2.2.2.2, pace.1, n]

theorem closeWindow_paced (k : Nat) (h : Hub) : (closeWindow k h).Paced (windowOpened k (windowMeasures (imageMerged h))) .all := by
  rw [closeWindow_eq]
  exact watchdogCause_paced _ _ (forEach_paced _ _ _ (fun f x hx => acceptWords_paced _ _ _ _ hx) (.refl _ _))

/-- What is followed of a hub whose cycle k begins is as before the window closed. -/
theorem cycleBegun_closeWindow_paced (k start : Nat) {h g : Hub} (c : g.Paced h .all) :
    (cycleBegun start (closeWindow k g)).Paced (onCycle k start h) .all := by
  have measured : (windowMeasures (imageMerged g)).Paced h .all := windowMeasures_paced _ (c.of_eq rfl rfl rfl)
  have closed := closeWindow_paced k g
  have begun := cycleBegun_paced k start closed rfl
  obtain ⟨pace, regs, frames⟩ := begun
  obtain ⟨pace', regs', frames'⟩ := windowOpened_paced (k := k) measured start
  exact ⟨pace.trans pace', fun x m => (regs x m).trans (regs' x m), fun f m => frames f (frames' f m)⟩

theorem outlook_closeWindow (k : Nat) (h : Hub) : outlook (closeWindow k h) = outlook h := by
  rw [closeWindow_eq, outlook_watchdogCause, forEach_same outlook _ (fun (f : Early) g => acceptWords f.src f.first f.words g) _ fun _ _ _ => rfl]
  exact (outlook_windowMeasures (imageMerged h))

/-- The hub on cycle k as it begins, before the moves that are over and the late ones. -/
def opened (k start : Nat) (h : Hub) : Hub := cycleBegun start (closeWindow k (resolveRoutes k h))

theorem opened_paced (k start : Nat) (h : Hub) : (opened k start h).Paced (onCycle k start h) .all :=
  cycleBegun_closeWindow_paced k start (resolveRoutes_paced k h (.refl h _))

theorem outlook_cycleBegun (start : Nat) (a : Hub) : outlook (cycleBegun start a) = outlook a := rfl

theorem outlook_opened (k start : Nat) (h : Hub) : outlook (opened k start h) = outlook h :=
  (outlook_cycleBegun start _).trans ((outlook_closeWindow k _).trans (outlook_resolveRoutes k h))

/-! ### The rest of the start -/

/-- The number, the phase error and the floor of the cycle told, its length set. -/
def cycleTold (k e : Nat) (b : Hub) : Hub :=
  let c := { b with cyc := { b.cyc with length := cyclePeriod b e } }
  wrs c [(0x4400_01, k % 2 ^ 32), (0x4400_02, e), (0x4400_03, floorNs c)]

/-- The shortened cycle counted, the end of a phase error told, and the routes and the watchdog looked after. -/
def phaseTold (was e : Nat) (d : Hub) : Hub :=
  let f := whenDo (e != 0 && decide (d.cyc.length < d.cyc.period)) (fun g => bump g 0x4400_05) d
  watchdogCause false (staleRoutes (whenDo (e == 0 && was != 0) (fun x => cycEvent x 0x21 0 0 0) f))

/-- Steps 2 to 4 of a cycle: capture, contribution, reflexes. -/
def stepsDone (d : Hub) : Hub :=
  let i := sendContribution (captureAll d)
  if serving i then evalReflexes i else i

theorem startCycle_eq (was k start : Nat) (h : Hub) : startCycle was k start h =
    stepsDone (phaseTold was (start - k * h.cyc.period) (cycleTold k (start - k * h.cyc.period) (abortLate (leaveDue (opened k start h))))) := by
  unfold startCycle stepsDone phaseTold cycleTold opened cycleBegun
  rfl

theorem phaseTold_paced (was e : Nat) (d : Hub) (hp : d.Paced ref kd) : (phaseTold was e d).Paced ref kd := by
  unfold phaseTold
  exact watchdogCause_paced _ _ (staleRoutes_paced _ (whenDo_paced _ _ _ (fun x hx => cycEvent_paced _ _ _ _ _ hx)
    (whenDo_paced _ _ _ (fun x hx => bump_paced _ _ hx) hp)))

theorem outlook_phaseTold (was e : Nat) (d : Hub) : outlook (phaseTold was e d) = outlook d := by
  unfold phaseTold
  dsimp only
  rw [outlook_watchdogCause, outlook_staleRoutes, outlook_whenDo _ _ _ fun x => outlook_cycEvent x _ _ _ _,
    outlook_whenDo _ (fun g => bump g 0x4400_05) _ fun _ => rfl]

theorem stepsDone_paced_sent (d : Hub) : (stepsDone d).Paced (sendContribution (captureAll d)) .all := by
  unfold stepsDone
  dsimp only
  split
  · exact evalReflexes_paced _ (.refl _ _)
  · exact .refl _ _

theorem stepsDone_paced (d : Hub) (hp : d.Paced ref .all) : (stepsDone d).Paced ref .all :=
  (stepsDone_paced_sent d).trans (sendContribution_paced _ (captureAll_paced _ hp))

theorem rdW_cycleTold (k e : Nat) (b : Hub) {x : Nat} (n : x ≠ 0x4400_01 ∧ x ≠ 0x4400_02 ∧ x ≠ 0x4400_03) :
    rdW (cycleTold k e b) x = rdW b x := by
  unfold cycleTold
  refine (rdW_wrs_of _ _ _ fun x m => ?_).trans rfl
  simp only [List.mem_cons, List.not_mem_nil, or_false] at m
  rcases m with rfl | rfl | rfl
  · exact n.1.symm
  · exact n.2.1.symm
  · exact n.2.2.symm

theorem rd_wrs_first {a v : Nat} {h : Hub} {l : List (Nat × Nat)} (n : ∀ e ∈ l, e.1 ≠ a) : rd (wrs h ((a, v) :: l)) a = v % 2 ^ 48 := by
  rw [← rd_wr_self h a v]
  exact congrArg BitVec.toNat (rdW_wrs_of _ l a n)

theorem rd_cycleTold_number (k e : Nat) (b : Hub) : rd (cycleTold k e b) 0x4400_01 = k % 2 ^ 32 := by
  unfold cycleTold
  rw [rd_wrs_first (by simp)]
  omega

theorem outlook_cycleTold (k e : Nat) (b : Hub) : outlook (cycleTold k e b) = outlook b := (outlook_wrs _ _).trans rfl

theorem paceOf_cycleTold (k e : Nat) (b : Hub) : paceOf kd (cycleTold k e b).cyc = paceOf kd b.cyc :=
  (congrArg (paceOf kd) (wrs_cyc _ _) :)

end Sys2Proof.Machine
end

section
/-! What a hub is once a cycle has started (R331): on the cycle, the count of overruns as it was; with no late move in its mode, and with
none that goes on here its contribution is queued. -/

namespace Sys2Proof.Machine

variable {ref : Hub} {kd : Held}

theorem mode_ne_all : Held.mode ≠ .all := nofun

theorem cycleTold_paced (np : kd ≠ .all) (k e : Nat) (b : Hub) : (cycleTold k e b).Paced b kd := by
  refine Hub.Paced.quiet (.refl b kd) (paceOf_cycleTold k e b) (fun x m => rdW_cycleTold k e b ?_) (port7_wrs _ _)
  cases kd <;> simp only [heldKeys, List.mem_cons, List.not_mem_nil, or_false] at m
  case all => exact absurd rfl np
  all_goals omega

theorem startCycle_paced_told (was k start : Nat) (h : Hub) : (startCycle was k start h).Paced
    (cycleTold k (start - k * h.cyc.period) (abortLate (leaveDue (opened k start h)))) .all := by
  rw [startCycle_eq]
  exact stepsDone_paced _ (phaseTold_paced _ _ _ (.refl _ _))

theorem startCycle_paced (was k start : Nat) (h : Hub) : (startCycle was k start h).Paced (onCycle k start h) .count :=
  (startCycle_paced_told was k start h).toCount.trans ((cycleTold_paced count_ne_all _ _ _).trans
    (abortLate_paced _ (leaveDue_paced count_ne_all _ (opened_paced k start h).toCount)))

/-- What a hub is on the cycle that has started. -/
theorem startCycle_spec (was k start : Nat) (h : Hub) :
    (startCycle was k start h).cyc.number = k ∧ (startCycle was k start h).cyc.start = start
      ∧ (startCycle was k start h).cyc.complete = false ∧ (startCycle was k start h).cyc.applied = false
      ∧ rd (startCycle was k start h) 0x4400_01 = k % 2 ^ 32 ∧ rd (startCycle was k start h) 0x4400_04 = rd h 0x4400_04 := by
  obtain ⟨pace, regs, -⟩ := startCycle_paced was k start h
  obtain ⟨-, told, -⟩ := startCycle_paced_told was k start h
  unfold paceOf at pace
  simp only [Prod.mk.injEq] at pace
  obtain ⟨number, start', complete, applied, -⟩ := pace
  refine ⟨number, start', complete, applied, ?_, congrArg BitVec.toNat (regs 0x4400_04 (by simp [heldKeys]))⟩
  exact (congrArg BitVec.toNat (told 0x4400_01 (by simp [heldKeys]))).trans (rd_cycleTold_number _ _ _)

/-! ### Late moves -/

/-- No move that is offered or accepted is late for its switch. -/
def NoneLate (h : Hub) : Prop := ∀ m ∈ h.forester.moves, m.phase = 2 ∨ m.phase = 3 → switchLate h m = false

theorem abortLate_none {h : Hub} (n : NoneLate h) : abortLate h = h := by
  have none : (h.forester.moves.filter fun m => (m.phase == 2 || m.phase == 3) && switchLate h m) = [] := by
    refine List.filter_eq_nil_iff.2 fun m mem => ?_
    by_cases p : m.phase = 2 ∨ m.phase = 3
    · simp [n m mem p]
    · simp [not_or.1 p]
  unfold abortLate
  rw [none]
  rfl

/-- The moves, and what their switch times are held against besides the mode. -/
def lateView (h : Hub) : List Move × Nat × Spire := (h.forester.moves, h.cyc.period, h.spire)

theorem noneLate_of {g h : Hub} (e : lateView g = lateView h) (m : mode g = mode h) (n : NoneLate h) : NoneLate g := by
  unfold lateView at e
  simp only [Prod.mk.injEq] at e
  obtain ⟨moves, period, spire⟩ := e
  intro x mem p
  rw [moves] at mem
  have late := n x mem p
  unfold switchLate nowNs spireTime at *
  rw [period, spire, m]
  exact late

theorem lateView_of_outlook {g h : Hub} (e : outlook g = outlook h) : lateView g = lateView h := by
  unfold outlook at e
  simp only [Prod.mk.injEq] at e
  obtain ⟨forester, period, spire, -⟩ := e
  unfold lateView
  rw [forester, period, spire]

theorem lateView_fifoUnbind (f : Nat) (h : Hub) : lateView (fifoUnbind f h) = lateView h := by
  unfold fifoUnbind
  dsimp only
  split
  · rfl
  · refine lateView_of_outlook ((outlook_whenDo _ _ _ fun x => outlook_noFault (noFault_raiseEvent _ _ _ _)).trans ?_)
    exact (outlook_wrs _ _).trans rfl

theorem lateView_freeEngine (n : Nat) (h : Hub) : lateView (freeEngine n h) = lateView h := by
  unfold freeEngine
  dsimp only
  split <;> rfl

theorem lateView_releaseObject (kind base : Nat) (h : Hub) : lateView (releaseObject kind base h) = lateView h := by
  unfold releaseObject
  split
  · rfl
  · exact lateView_fifoUnbind _ _
  · exact lateView_freeEngine _ _
  · rfl
  · rfl

theorem outlook_dropResidence (handle : Nat) (h : Hub) : outlook (dropResidence handle h) = outlook h :=
  (outlook_whenDo _ _ _ fun x => outlook_noFault (noFault_causeGone 0x0B x)).trans rfl

theorem lateView_leaveHolder (handle kind base : Nat) (h : Hub) : lateView (leaveHolder handle kind base h) = lateView h := by
  have released := lateView_releaseObject kind base h
  unfold leaveHolder
  generalize releaseObject kind base h = a at released ⊢
  rw [← released]
  have dropped := outlook_dropResidence handle a
  unfold outlook at dropped
  simp only [Prod.mk.injEq] at dropped
  obtain ⟨forester, -, spire, -⟩ := dropped
  show ((dropResidence handle a).forester.moves, a.cyc.period, (dropResidence handle a).spire) = _
  rw [forester, spire]
  rfl

theorem lateView_leaveDue (h : Hub) : lateView (leaveDue h) = lateView h := by
  unfold leaveDue
  exact (forEach_same lateView _ _ _ fun l _ x => lateView_leaveHolder l.handle l.kind l.base x).trans rfl

theorem Hub.Paced.reg {h : Hub} (c : h.Paced ref kd) {k : Nat} (m : k ∈ heldKeys kd) : rdW h k = rdW ref k := c.2.1 k m

theorem Hub.Paced.mode_eq {h : Hub} (c : h.Paced ref .mode) : mode h = mode ref :=
  congrArg BitVec.toNat (c.2.1 0x2000_01 (by simp [heldKeys]))

theorem leaveDue_opened_paced (k start : Nat) (h : Hub) : (leaveDue (opened k start h)).Paced (onCycle k start h) .mode :=
  leaveDue_paced mode_ne_all _ (opened_paced k start h).toMode

theorem noneLate_leaveDue {h : Hub} (n : NoneLate h) (k start : Nat) : NoneLate (leaveDue (opened k start h)) :=
  noneLate_of ((lateView_leaveDue _).trans (lateView_of_outlook (outlook_opened k start h))) (leaveDue_opened_paced k start h).mode_eq n

/-- With no late move, the mode stays and the cycles run on as they did. -/
theorem startCycle_paced_mode {h : Hub} (n : NoneLate h) (was k start : Nat) :
    (startCycle was k start h).Paced (onCycle k start h) .mode := by
  have told := startCycle_paced_told was k start h
  rw [abortLate_none (noneLate_leaveDue n k start)] at told
  exact told.toMode.trans ((cycleTold_paced mode_ne_all _ _ _).trans (leaveDue_opened_paced k start h))

theorem startCycle_mode {h : Hub} (n : NoneLate h) (was k start : Nat) : mode (startCycle was k start h) = mode h :=
  (startCycle_paced_mode n was k start).mode_eq

theorem startCycle_running {h : Hub} (n : NoneLate h) (was k start : Nat) : (startCycle was k start h).cyc.running = h.cyc.running := by
  obtain ⟨pace, -, -⟩ := startCycle_paced_mode n was k start
  unfold paceOf at pace
  simp only [Prod.mk.injEq] at pace
  exact pace.2.2.2.2

/-! ### The contribution -/

/-- What a hub's contribution rests on: its slots, its number and its role. -/
theorem contribution_congr {g h : Hub} (o : outlook g = outlook h) (number : rdW g 0x2000_09 = rdW h 0x2000_09)
    (strapped : rdW g 0x2000_0B = rdW h 0x2000_0B) :
    contributionSize g = contributionSize h ∧ hubNumber g = hubNumber h ∧ bench g = bench h := by
  unfold outlook at o
  simp only [Prod.mk.injEq] at o
  obtain ⟨forester, -, -, ring, -⟩ := o
  unfold contributionSize bench roleInForce hubNumber rd
  rw [forester, number, strapped, ring]
  exact ⟨rfl, rfl, rfl⟩

/-- Of frames a hub with a number originates at the Canopy port one after another, the first is queued in the end. -/
theorem firstFrame_queued {h : Hub} (number : hubNumber h ≠ 0) (specific : Nat → Hub → Nat) (payload : Nat → List Word) (l : List Nat) :
    newFrame h 0 .cy 255 (specific 0 h) 0 (payload 0)
      ∈ port7 (forEach (0 :: l) (fun f g => originate g 7 0 .cy 255 (specific f g) 0 (payload f)) h) := by
  have first : newFrame h 0 .cy 255 (specific 0 h) 0 (payload 0) ∈ port7 (originate h 7 0 .cy 255 (specific 0 h) 0 (payload 0)) := by
    have queued := portFrames_originate number 7 0 .cy 255 (specific 0 h) 0 (payload 0)
    unfold portFrames at queued
    unfold port7
    rw [queued]
    exact List.mem_append_right _ (List.mem_singleton_self _)
  rw [forEach_cons]
  generalize originate h 7 0 .cy 255 (specific 0 h) 0 (payload 0) = g at first ⊢
  unfold forEach
  induction l generalizing g with
  | nil => exact first
  | cons f l ih => exact ih _ (mem_port7_originate first 7 0 .cy 255 _ 0 _)

/-- A hub with a number and slots, no bench hub, queues contribution frames for all at the Canopy port. -/
theorem sendContribution_queues {h : Hub} (number : hubNumber h ≠ 0) (b : bench h = false) (size : contributionSize h ≠ 0) :
    ∃ f ∈ port7 (sendContribution h), f.ftype = 0 ∧ f.cls = .cy ∧ f.dst = 255 ∧ f.src = hubNumber h := by
  have frames : List.range ((contributionSize h + 255) / 256) = 0 :: (List.range ((contributionSize h + 255) / 256 - 1)).map Nat.succ := by
    rw [← List.range_succ_eq_map]
    congr 1
    omega
  have told : hubNumber (wr h 0x4400_0B (contributionSize h)) = hubNumber h := rd_wr_ne _ _ _ _ (by decide)
  unfold sendContribution
  dsimp only
  rw [if_neg (by simp [number, b]), frames]
  exact ⟨_, firstFrame_queued (by rw [told]; exact number) _ _ _, rfl, rfl, rfl, told⟩

/-- Where nothing goes on here for a move, nothing is released. -/
theorem leaveDue_none {x : Hub} (none : x.cyc.leaving = []) : (leaveDue x).Paced x .all ∧ outlook (leaveDue x) = outlook x := by
  unfold leaveDue
  rw [none]
  refine ⟨(Hub.Paced.refl x _).of_eq rfl rfl rfl, ?_⟩
  unfold outlook
  rw [none]
  rfl

/-- With no late move and none that goes on here, what a cycle's contribution rests on is as before the cycle. -/
theorem contribution_ready {h : Hub} (n : NoneLate h) (none : h.cyc.leaving = []) (was k start : Nat) :
    ∃ d, (startCycle was k start h).Paced (sendContribution d) .all
      ∧ contributionSize d = contributionSize h ∧ hubNumber d = hubNumber h ∧ bench d = bench h := by
  have still : (opened k start h).cyc.leaving = [] := (congrArg (·.2.2.2.2) (outlook_opened k start h) :).trans none
  obtain ⟨left, sameLeft⟩ := leaveDue_none still
  have e := startCycle_eq was k start h
  rw [abortLate_none (noneLate_leaveDue n k start)] at e
  generalize leaveDue (opened k start h) = x at left sameLeft e
  generalize start - k * h.cyc.period = err at e
  have reg : ∀ r ∈ [0x2000_09, 0x2000_0B], rdW (captureAll (phaseTold was err (cycleTold k err x))) r = rdW h r := fun r m => by
    have held : r ∈ heldKeys .all := by simp [heldKeys] at m ⊢; omega
    have readied := captureAll_paced _ (phaseTold_paced was err _ (.refl (cycleTold k err x) .all))
    rw [readied.reg held, rdW_cycleTold k err x (by simp at m; omega), left.reg held, (opened_paced k start h).reg held]
    rfl
  refine ⟨captureAll (phaseTold was err (cycleTold k err x)), ?_, contribution_congr ?_ (reg _ (by simp)) (reg _ (by simp))⟩
  · rw [e]
    exact stepsDone_paced_sent _
  · rw [outlook_captureAll, outlook_phaseTold, outlook_cycleTold, sameLeft, outlook_opened]

/-- The contribution of the cycle that has started is queued. -/
theorem startCycle_queues {h : Hub} (n : NoneLate h) (none : h.cyc.leaving = []) (number : hubNumber h ≠ 0) (b : bench h = false)
    (size : contributionSize h ≠ 0) (was k start : Nat) :
    ∃ f ∈ portFrames (startCycle was k start h) 7, f.ftype = 0 ∧ f.cls = .cy ∧ f.dst = 255 ∧ f.src = hubNumber h := by
  obtain ⟨d, sent, sameSize, sameNumber, sameBench⟩ := contribution_ready n none was k start
  rw [← sameSize] at size
  rw [← sameNumber] at number ⊢
  rw [← sameBench] at b
  obtain ⟨f, queued, fields⟩ := sendContribution_queues number b size
  exact ⟨f, sent.2.2 f queued, fields⟩

end Sys2Proof.Machine
end

section
/-! The cycle grid (R331, R333, R350): when a cycle starts, and what late work does. -/

namespace Sys2Proof.Machine

/-! ### Events of the exchange -/

/-- A rate-limited event of the exchange changes of its own record only when it was last raised. -/
theorem cycEvent_cyc (h : Hub) (e i v c : Nat) : ∃ l, (cycEvent h e i v c).cyc = { h.cyc with limits := l } := by
  unfold cycEvent
  dsimp only
  split
  · exact ⟨_, rfl⟩
  · exact ⟨_, raiseEvent_cyc _ _ _ _⟩

theorem rd_cycEvent_of (h : Hub) {e : Nat} (i v c : Nat) {k : Nat} (n : e < 256) (f : eventKey k = false) :
    rd (cycEvent h e i v c) k = rd h k := by
  unfold cycEvent
  dsimp only
  split
  · rfl
  · exact congrArg BitVec.toNat (rdW_raiseEvent_of _ e i v k n f)

/-! ### When a cycle starts -/

theorem awaitsGrid_running {h : Hub} (n : h.cyc.since ≠ 0) : awaitsGrid h = false := by simp [awaitsGrid, n]

theorem cycleStart_stopped {h : Hub} (n : h.cyc.running = false) : cycleStart h = h := by simp [cycleStart, n]

theorem cycleStart_waits {h : Hub} (n : h.cyc.since ≠ 0) (w : h.cyc.complete = false ∨ nowNs h < h.cyc.start + h.cyc.length) :
    cycleStart h = h := by
  unfold cycleStart
  rw [awaitsGrid_running n]
  rcases w with w | w
  · simp [w]
  · simp [Nat.not_le.2 w]

/-- The next cycle, started when it was due. -/
def dueStarted (h : Hub) : Hub := startCycle (phaseError h) (h.cyc.number + 1) (h.cyc.start + h.cyc.length) h

theorem dueStarted_spec (h : Hub) : (dueStarted h).cyc.number = h.cyc.number + 1
    ∧ (dueStarted h).cyc.start = h.cyc.start + h.cyc.length ∧ (dueStarted h).cyc.complete = false ∧ (dueStarted h).cyc.applied = false
    ∧ rd (dueStarted h) 0x4400_01 = (h.cyc.number + 1) % 2 ^ 32 := by
  unfold dueStarted
  obtain ⟨number, start, complete, applied, told, -⟩ :=
    startCycle_spec (phaseError h) (h.cyc.number + 1) (h.cyc.start + h.cyc.length) h
  exact ⟨number, start, complete, applied, told⟩

theorem dueStarted_mode {h : Hub} (n : NoneLate h) : mode (dueStarted h) = mode h := by
  unfold dueStarted
  exact startCycle_mode n _ _ _

theorem dueStarted_running {h : Hub} (n : NoneLate h) : (dueStarted h).cyc.running = h.cyc.running := by
  unfold dueStarted
  exact startCycle_running n _ _ _

theorem dueStarted_queues {h : Hub} (n : NoneLate h) (none : h.cyc.leaving = []) (number : hubNumber h ≠ 0) (b : bench h = false)
    (size : contributionSize h ≠ 0) :
    ∃ f ∈ portFrames (dueStarted h) 7, f.ftype = 0 ∧ f.cls = .cy ∧ f.dst = 255 ∧ f.src = hubNumber h := by
  unfold dueStarted
  exact startCycle_queues n none number b size _ _ _

theorem cycleStart_due {h : Hub} (r : h.cyc.running = true) (n : h.cyc.since ≠ 0) (c : h.cyc.complete = true)
    (d : h.cyc.start + h.cyc.length ≤ nowNs h) :  cycleStart h = dueStarted h := by
  unfold cycleStart
  rw [awaitsGrid_running n]
  simp [r, c, d, nextCycle, dueStarted]

theorem cycleStart_idle {h : Hub} (i : h.cyc.running = false ∨ (h.cyc.since ≠ 0 ∧ h.cyc.complete = false)
    ∨ (h.cyc.since ≠ 0 ∧ nowNs h < h.cyc.start + h.cyc.length)) : cycleStart h = h := by
  rcases i with i | ⟨n, c⟩ | ⟨n, e⟩
  · exact cycleStart_stopped i
  · exact cycleStart_waits n (.inl c)
  · exact cycleStart_waits n (.inr e)

/-- A due start begins the next cycle at its scheduled time. -/
theorem exec_cycleStart_due {s : State} (r : s.hub.cyc.running = true) (n : s.hub.cyc.since ≠ 0) (c : s.hub.cyc.complete = true)
    (d : s.hub.cyc.start + s.hub.cyc.length ≤ nowNs s.hub) :
    ∃ t, exec .cycleStart s = .next t ∧ t.hub.cyc.number = s.hub.cyc.number + 1
      ∧ t.hub.cyc.start = s.hub.cyc.start + s.hub.cyc.length ∧ t.hub.cyc.complete = false ∧ t.hub.cyc.applied = false
      ∧ rd t.hub 0x4400_01 = (s.hub.cyc.number + 1) % 2 ^ 32
      ∧ (NoneLate s.hub → mode t.hub = mode s.hub)
      ∧ (NoneLate s.hub → s.hub.cyc.leaving = [] → hubNumber s.hub ≠ 0 → bench s.hub = false → contributionSize s.hub ≠ 0 →
          ∃ f ∈ portFrames t.hub 7, f.ftype = 0 ∧ f.cls = .cy ∧ f.dst = 255 ∧ f.src = hubNumber s.hub) := by
  have ran : exec .cycleStart s = .next { s with hub := dueStarted s.hub } := onHub_eq_next (cycleStart_due r n c d)
  obtain ⟨number, start, complete, applied, told⟩ := dueStarted_spec s.hub
  have stays := dueStarted_mode (h := s.hub)
  have queues := dueStarted_queues (h := s.hub)
  generalize dueStarted s.hub = g at *
  exact ⟨_, ran, number, start, complete, applied, told, stays, queues⟩

/-! ### The end of a cycle's work -/

/-- The hub whose work of the cycle is complete. -/
def workDone (h : Hub) : Hub := { h with cyc := { h.cyc with complete := true } }

/-- What the completion of a cycle's work leaves: late, it is an overrun. -/
def workCompleted (h : Hub) : Hub := if h.cyc.start + h.cyc.length ≤ nowNs h then overrun (workDone h) else workDone h

theorem exec_cycleWorkComplete_open {s : State} (r : s.hub.cyc.running = true) (c : s.hub.cyc.complete = false)
    (a : s.hub.cyc.applied = true ∨ serving s.hub = false) :
    exec .cycleWorkComplete s = .next { s with hub := workCompleted s.hub } := by
  have opens : ¬ (!s.hub.cyc.running || s.hub.cyc.complete || !(s.hub.cyc.applied || !serving s.hub)) = true := by
    rcases a with a | a <;> simp [r, c, a]
  exact congrArg (fun x => Host.Outcome.next { s with hub := x }) (if_neg opens)

/-- The hub with its overrun counted and told. -/
def overrunTold (h : Hub) : Hub := cycEvent (bump (workDone h) 0x4400_04) 0x20 0 0 0

theorem overrunTold_cyc (h : Hub) : ∃ l, (overrunTold h).cyc = { h.cyc with complete := true, limits := l } := cycEvent_cyc _ _ _ _ _

theorem rd_overrunTold (h : Hub) : rd (overrunTold h) 0x4400_04 = min (rd h 0x4400_04 + 1) (2 ^ 32 - 1) :=
  (rd_cycEvent_of _ _ _ _ (by decide) (by decide)).trans (rd_bump_self (workDone h) 0x4400_04)

theorem workCompleted_late {h : Hub} (d : h.cyc.start + h.cyc.length ≤ nowNs h) :
    workCompleted h = if awaitsGrid h then overrunTold h
      else startCycle (phaseError (overrunTold h)) ((overrunTold h).cyc.number + 1) (nowNs h) (overrunTold h) := by
  unfold workCompleted overrun nextCycle
  rw [if_pos d]
  rfl

/-- Late work is an overrun, and the next cycle starts at once. -/
theorem exec_cycleWorkComplete_late {s : State} (r : s.hub.cyc.running = true) (c : s.hub.cyc.complete = false)
    (a : s.hub.cyc.applied = true ∨ serving s.hub = false) (n : s.hub.cyc.since ≠ 0)
    (d : s.hub.cyc.start + s.hub.cyc.length ≤ nowNs s.hub) :
    ∃ t, exec .cycleWorkComplete s = .next t ∧ t.hub.cyc.number = s.hub.cyc.number + 1 ∧ t.hub.cyc.start = nowNs s.hub
      ∧ rd t.hub 0x4400_04 = min (rd s.hub 0x4400_04 + 1) (2 ^ 32 - 1) := by
  obtain ⟨l, cyc⟩ := overrunTold_cyc s.hub
  have due := exec_cycleWorkComplete_open r c a
  rw [workCompleted_late d, awaitsGrid_running n, if_neg Bool.false_ne_true] at due
  obtain ⟨number, start, -, -, -, count⟩ :=
    startCycle_spec (phaseError (overrunTold s.hub)) ((overrunTold s.hub).cyc.number + 1) (nowNs s.hub) (overrunTold s.hub)
  have next : (overrunTold s.hub).cyc.number + 1 = s.hub.cyc.number + 1 := by rw [cyc]
  rw [rd_overrunTold] at count
  generalize startCycle (phaseError (overrunTold s.hub)) ((overrunTold s.hub).cyc.number + 1) (nowNs s.hub) (overrunTold s.hub) = g at *
  exact ⟨_, due, number.trans next, start, count⟩

/-- Late work after a release is an overrun, and the next cycle waits for the grid. -/
theorem exec_cycleWorkComplete_released {s : State} (r : s.hub.cyc.running = true) (c : s.hub.cyc.complete = false)
    (a : s.hub.cyc.applied = true ∨ serving s.hub = false) (z : s.hub.cyc.since = 0) (o : outputsSafe s.hub = false)
    (d : s.hub.cyc.start + s.hub.cyc.length ≤ nowNs s.hub) :
    ∃ t, exec .cycleWorkComplete s = .next t ∧ t.hub.cyc.number = s.hub.cyc.number ∧ t.hub.cyc.complete = true
      ∧ rd t.hub 0x4400_04 = min (rd s.hub 0x4400_04 + 1) (2 ^ 32 - 1) := by
  obtain ⟨l, cyc⟩ := overrunTold_cyc s.hub
  have waits : awaitsGrid s.hub = true := by simp [awaitsGrid, z, o]
  have due := exec_cycleWorkComplete_open r c a
  rw [workCompleted_late d, if_pos waits] at due
  have count := rd_overrunTold s.hub
  generalize overrunTold s.hub = g at *
  exact ⟨_, due, (congrArg Cyc.number cyc :), (congrArg Cyc.complete cyc :), count⟩

end Sys2Proof.Machine
end

section
/-! Contributions and their windows (R336, R337), routes (R338, R339), the watchdog of the exchange (R354, R355). -/

namespace Sys2Proof.Machine

/-! ### Words of a frame in a window -/

/-- A table with the words of a frame put in, from a slot on. -/
def wordsPut {β : Type} (src first : Nat) (f : Word → β) (t : Tab β) (l : List (Word × Nat)) : Tab β :=
  l.foldl (fun t p => if first + p.2 < 1024 then tabSet t (wordKey src (first + p.2)) (f p.1) else t) t

theorem wordsPut_cons {β : Type} (src first : Nat) (f : Word → β) (t : Tab β) (p : Word × Nat) (l : List (Word × Nat)) :
    wordsPut src first f t (p :: l)
      = wordsPut src first f (if first + p.2 < 1024 then tabSet t (wordKey src (first + p.2)) (f p.1) else t) l := rfl

theorem tabGet_wordsPut_other {β : Type} (d : β) (src first : Nat) (f : Word → β) (ws : List Word) (n k : Nat) (t : Tab β)
    (other : ∀ i < ws.length, k ≠ wordKey src (first + (n + i))) :
    tabGet d (wordsPut src first f t (ws.zipIdx n)) k = tabGet d t k := by
  induction ws generalizing n t with
  | nil => rfl
  | cons w ws ih =>
    rw [List.zipIdx_cons, wordsPut_cons, ih (n + 1) _ fun i l => by
      have := other (i + 1) (by simpa using l)
      rwa [Nat.add_right_comm, Nat.add_assoc n] ]
    have here : k ≠ wordKey src (first + n) := other 0 (by simp)
    split
    · exact tabGet_tabSet_ne _ _ _ _ _ here
    · rfl

theorem tabGet_wordsPut {β : Type} (d : β) (src first : Nat) (f : Word → β) (ws : List Word) (n i : Nat) (t : Tab β) (l : i < ws.length)
    (room : first + (n + i) < 1024) :
    tabGet d (wordsPut src first f t (ws.zipIdx n)) (wordKey src (first + (n + i))) = f (ws.getD i 0) := by
  induction ws generalizing n i t with
  | nil => simp at l
  | cons w ws ih =>
    rw [List.zipIdx_cons, wordsPut_cons]
    cases i with
    | zero =>
      rw [tabGet_wordsPut_other d src first f ws (n + 1) _ _ fun j _ => by unfold wordKey; omega, if_pos (by simpa using room)]
      exact tabGet_tabSet_self _ _ _ _
    | succ i =>
      have rest := ih (n + 1) i (if first + (w, n).2 < 1024 then tabSet t (wordKey src (first + (w, n).2)) (f (w, n).1) else t)
        (by simpa using l) (by omega)
      rw [show n + (i + 1) = n + 1 + i by omega, List.getD_cons_succ]
      exact rest

theorem tabGet_acceptWords (src first : Nat) (ws : List Word) (h : Hub) {i : Nat} (l : i < ws.length) (room : first + i < 1024) :
    tabGet 0 (acceptWords src first ws h).cyc.opened (wordKey src (first + i)) = ws.getD i 0 := by
  have put := tabGet_wordsPut 0 src first id ws 0 i h.cyc.opened l (by omega)
  rwa [Nat.zero_add] at put

theorem tabGet_acceptWords_other (src first : Nat) (ws : List Word) (h : Hub) {k : Nat}
    (other : ∀ i, i < ws.length → k ≠ wordKey src (first + i)) :
    tabGet 0 (acceptWords src first ws h).cyc.opened k = tabGet 0 h.cyc.opened k :=
  tabGet_wordsPut_other 0 src first id ws 0 k h.cyc.opened fun i l => by rw [Nat.zero_add]; exact other i l

/-! ### The end of the watchdog's cause -/

/-- Of the exchange's own record, only the cycles since a release. -/
theorem watchdogCause_cyc (heard : Bool) (h : Hub) : ∃ n, (watchdogCause heard h).cyc = { h.cyc with since := n } := by
  have gone : ∃ n, (causeGone 0x0C h).cyc = { h.cyc with since := n } := by
    have same := congrArg Hub.cyc (noFault_causeGone 0x0C h)
    generalize causeGone 0x0C h = g at same
    refine ⟨g.cyc.since, ?_⟩
    have whole : g.cyc = { (noFault g).cyc with since := g.cyc.since } := rfl
    rw [whole, same]
    rfl
  unfold watchdogCause
  split
  · split
    · exact gone
    · exact ⟨_, rfl⟩
  · exact ⟨_, rfl⟩

/-! ### Frames stamped in the open window -/

/-- The hub with a frame of the open window counted. -/
def contributionCounted (tag : Nat) (h : Hub) : Hub :=
  { h with cyc := { h.cyc with frames := h.cyc.frames + 1, wrongTag := h.cyc.wrongTag + b2n (tag % 256 != h.cyc.number % 256) } }

/-- The hub with a frame held for the next window. -/
def contributionHeld (f : Early) (h : Hub) : Hub := { h with cyc := { h.cyc with early := h.cyc.early ++ [f] } }

theorem contributionOpen_now {tag k : Nat} {h : Hub} (n : h.cyc.number = k) (t : tag % 256 = k % 256) (src first : Nat) (ws : List Word) :
    contributionOpen src tag first ws h = watchdogCause true (acceptWords src first ws (contributionCounted tag h)) := by
  subst n
  exact if_pos t

theorem contributionOpen_early {tag k : Nat} {h : Hub} (n : h.cyc.number = k) (t : tag % 256 = (k + 1) % 256) (src first : Nat)
    (ws : List Word) : contributionOpen src tag first ws h
      = bump (contributionHeld { src, tag := tag % 256, first, words := ws } (contributionCounted tag h)) 0x4400_07 := by
  subst n
  exact (if_neg (by omega)).trans (if_pos t)

theorem contributionOpen_wrong {tag k : Nat} {h : Hub} (n : h.cyc.number = k) (t : tag % 256 ≠ k % 256) (t' : tag % 256 ≠ (k + 1) % 256)
    (src first : Nat) (ws : List Word) : contributionOpen src tag first ws h = bump (contributionCounted tag h) 0x4400_06 := by
  subst n
  exact (if_neg t).trans (if_neg t')

/-- What a frame accepted into the open window leaves of the exchange. -/
theorem accepted_open (src tag first : Nat) (ws : List Word) (h : Hub) :
    (watchdogCause true (acceptWords src first ws (contributionCounted tag h))).cyc.number = h.cyc.number
      ∧ (watchdogCause true (acceptWords src first ws (contributionCounted tag h))).cyc.accepted = h.cyc.accepted + ws.length
      ∧ (∀ i, i < ws.length → first + i < 1024 →
          tabGet 0 (watchdogCause true (acceptWords src first ws (contributionCounted tag h))).cyc.opened (wordKey src (first + i)) = ws.getD i 0)
      ∧ (∀ k, (∀ i, i < ws.length → k ≠ wordKey src (first + i)) →
          tabGet 0 (watchdogCause true (acceptWords src first ws (contributionCounted tag h))).cyc.opened k = tabGet 0 h.cyc.opened k)
      ∧ (watchdogCause true (acceptWords src first ws (contributionCounted tag h))).cyc.image = h.cyc.image := by
  obtain ⟨n, cyc⟩ := watchdogCause_cyc true (acceptWords src first ws (contributionCounted tag h))
  rw [cyc]
  exact ⟨rfl, rfl, fun i l room => tabGet_acceptWords src first ws (contributionCounted tag h) l room,
    fun k other => tabGet_acceptWords_other src first ws (contributionCounted tag h) other, rfl⟩

/-! ### Which window a frame goes to -/

variable {h : Hub} {stamp : Nat}

theorem contributionReceive_stopped (r : h.cyc.running = false) (src tag index stamp : Nat) (ws : List Word) :
    contributionReceive src tag index stamp ws h = h := by simp [contributionReceive, r]

theorem contributionReceive_open (r : h.cyc.running = true) (o : h.cyc.start ≤ stamp) (src tag index : Nat) (ws : List Word) :
    contributionReceive src tag index stamp ws h = contributionOpen src tag (256 * index) ws h := by
  simp [contributionReceive, r, o]

theorem contributionReceive_closed (r : h.cyc.running = true) (o : stamp < h.cyc.start) (p : h.cyc.prior ≤ stamp) (src tag index : Nat)
    (ws : List Word) : contributionReceive src tag index stamp ws h = contributionClosed src tag (256 * index) ws h := by
  simp [contributionReceive, r, Nat.not_le.2 o, p]

theorem contributionReceive_late (r : h.cyc.running = true) (o : stamp < h.cyc.start) (p : stamp < h.cyc.prior) (src tag index : Nat)
    (ws : List Word) : contributionReceive src tag index stamp ws h = bump h 0x4400_06 := by
  simp [contributionReceive, r, Nat.not_le.2 o, Nat.not_le.2 p]

end Sys2Proof.Machine
end

section
/-! CONTRIBUTION_RECEIVE, REBIND_NOTICE and CYCLE_WATCHDOG_EXPIRY (R337 to R339, R354, R355). -/

namespace Sys2Proof.Machine

/-! ### Frames stamped in the window before -/

/-- The hub with a frame of the closed window counted (R328). -/
def closedCounted (tag : Nat) (h : Hub) : Hub :=
  tagsMeasured h.cyc.closed.1 (h.cyc.closed.2.1 + 1) (h.cyc.closed.2.2 + b2n (tag % 256 != h.cyc.closed.1 % 256)) h

theorem tagsMeasured_cyc (k frames wrong : Nat) (h : Hub) :
    ∃ l, (tagsMeasured k frames wrong h).cyc = { h.cyc with closed := (k, frames, wrong), limits := l } := by
  unfold tagsMeasured whenDo
  split
  · exact cycEvent_cyc _ _ _ _ _
  · exact ⟨_, rfl⟩

theorem loadMeasured_cyc (n : Nat) (h : Hub) : ∃ l, (loadMeasured n h).cyc = { h.cyc with limits := l } := by
  have told : ∀ (c : Bool) e i v x g, (∃ l, g.cyc = { h.cyc with limits := l }) →
      ∃ l, (whenDo c (fun g => cycEvent g e i v x) g).cyc = { h.cyc with limits := l } := by
    rintro c e i v x g ⟨l, cyc⟩
    unfold whenDo
    split
    · obtain ⟨l', cyc'⟩ := cycEvent_cyc g e i v x
      exact ⟨l', by rw [cyc', cyc]⟩
    · exact ⟨l, cyc⟩
  exact told _ _ _ _ _ _ (told _ _ _ _ _ _ ⟨_, wrs_cyc _ _⟩)

theorem rd_closedCounted (tag : Nat) (h : Hub) {k : Nat} (f : eventKey k = false) : rd (closedCounted tag h) k = rd h k := by
  unfold closedCounted tagsMeasured whenDo
  split
  · exact (rd_cycEvent_of _ _ _ _ (by decide) f).trans rfl
  · rfl

theorem contributionClosed_now {tag : Nat} {h : Hub} (t : tag % 256 = h.cyc.closed.1 % 256) (src first : Nat) (ws : List Word) :
    contributionClosed src tag first ws h = watchdogCause true (acceptClosed src first ws (closedCounted tag h)) := if_pos t

theorem contributionClosed_wrong {tag : Nat} {h : Hub} (t : tag % 256 ≠ h.cyc.closed.1 % 256)
    (t' : tag % 256 ≠ (h.cyc.closed.1 + 1) % 256) (src first : Nat) (ws : List Word) :
    contributionClosed src tag first ws h = bump (closedCounted tag h) 0x4400_06 := (if_neg t).trans (if_neg t')

/-- The image with the words of a frame put in. -/
def imagePut (src first : Nat) (ws : List Word) (h : Hub) : Tab (Word × Nat) :=
  wordsPut src first (fun w => (w, h.cyc.closed.1)) h.cyc.image ws.zipIdx

theorem acceptClosed_cyc (src first : Nat) (ws : List Word) (h : Hub) :
    ∃ m l, (acceptClosed src first ws h).cyc = { h.cyc with image := imagePut src first ws h, missed := m, limits := l } := by
  obtain ⟨l, loaded⟩ := loadMeasured_cyc (rd h 0x4400_0C + ws.length) { h with cyc := { h.cyc with
    image := imagePut src first ws h, missed := if src = hubNumber h then h.cyc.missed else 0 } }
  exact ⟨_, l, loaded⟩

/-- A frame accepted into the closed window goes into its image, and the open one is as it was. -/
theorem accepted_closed (src tag first : Nat) (ws : List Word) (h : Hub) :
    (watchdogCause true (acceptClosed src first ws (closedCounted tag h))).cyc.opened = h.cyc.opened
      ∧ ∀ i, i < ws.length → first + i < 1024 →
          tabGet (0, 0) (watchdogCause true (acceptClosed src first ws (closedCounted tag h))).cyc.image (wordKey src (first + i))
            = (ws.getD i 0, h.cyc.closed.1) := by
  obtain ⟨l, counted⟩ := tagsMeasured_cyc h.cyc.closed.1 (h.cyc.closed.2.1 + 1)
    (h.cyc.closed.2.2 + b2n (tag % 256 != h.cyc.closed.1 % 256)) h
  change (closedCounted tag h).cyc = _ at counted
  generalize closedCounted tag h = a at counted ⊢
  obtain ⟨n, cyc⟩ := watchdogCause_cyc true (acceptClosed src first ws a)
  obtain ⟨m, l', accepted⟩ := acceptClosed_cyc src first ws a
  have closed : a.cyc.closed.1 = h.cyc.closed.1 := by rw [counted]
  rw [cyc, accepted]
  refine ⟨by dsimp only; rw [counted], fun i short room => ?_⟩
  have put := tabGet_wordsPut (0, 0) src first (fun w => (w, a.cyc.closed.1)) ws 0 i a.cyc.image short (by omega)
  rw [Nat.zero_add] at put
  exact put.trans (by rw [closed])

/-! ### CONTRIBUTION_RECEIVE -/

section
variable {s : State} {src tag index : Nat} {head : ContributionHead} {words : List Word}

/-- The stamp of START by which a frame is put in its window. -/
def frameStamp (head : ContributionHead) (h : Hub) : Nat := stampNs h (4 + portNum head.port) - head.age

/-- A frame is put in its window after the start that has come due. -/
theorem exec_contributionReceive : exec (.contributionReceive src tag index head words) s
    = .next { s with hub := contributionReceive src tag index (frameStamp head s.hub) words (cycleStart s.hub) } := rfl

/-- With no start due, a frame meets the window that is open. -/
theorem exec_contributionReceive_still (still : cycleStart s.hub = s.hub) : exec (.contributionReceive src tag index head words) s
    = .next { s with hub := contributionReceive src tag index (frameStamp head s.hub) words s.hub } := by
  rw [exec_contributionReceive, still]

/-- A frame that comes when a start is due meets the window that start opens. -/
theorem exec_contributionReceive_due (r : s.hub.cyc.running = true) (n : s.hub.cyc.since ≠ 0) (c : s.hub.cyc.complete = true)
    (d : s.hub.cyc.start + s.hub.cyc.length ≤ nowNs s.hub) (t : tag % 256 = (s.hub.cyc.number + 1) % 256)
    (o : s.hub.cyc.start + s.hub.cyc.length ≤ frameStamp head s.hub) (l : NoneLate s.hub) :
    ∃ t, exec (.contributionReceive src tag index head words) s = .next t ∧ t.hub.cyc.number = s.hub.cyc.number + 1
      ∧ ∀ i, i < words.length → 256 * index + i < 1024 →
          tabGet 0 t.hub.cyc.opened (wordKey src (256 * index + i)) = words.getD i 0 := by
  have ran := exec_contributionReceive (s := s) (src := src) (tag := tag) (index := index) (head := head) (words := words)
  rw [cycleStart_due r n c d] at ran
  obtain ⟨number, start, -, -, -⟩ := dueStarted_spec s.hub
  have running := (dueStarted_running l).trans r
  generalize dueStarted s.hub = g at *
  rw [contributionReceive_open running (by rw [start]; exact o), contributionOpen_now number t] at ran
  obtain ⟨number', -, opened, -, -⟩ := accepted_open src tag (256 * index) words g
  generalize watchdogCause true (acceptWords src (256 * index) words (contributionCounted tag g)) = x at *
  exact ⟨_, ran, number'.trans number, opened⟩

variable (r : s.hub.cyc.running = true) (still : cycleStart s.hub = s.hub)

include r still in
theorem exec_contributionReceive_open (o : s.hub.cyc.start ≤ frameStamp head s.hub) :
    (tag % 256 = s.hub.cyc.number % 256 →
      ∃ t, exec (.contributionReceive src tag index head words) s = .next t
        ∧ t.hub.cyc.accepted = s.hub.cyc.accepted + words.length
        ∧ (∀ i, i < words.length → 256 * index + i < 1024 →
            tabGet 0 t.hub.cyc.opened (wordKey src (256 * index + i)) = words.getD i 0)
        ∧ (∀ k, (∀ i, i < words.length → k ≠ wordKey src (256 * index + i)) →
            tabGet 0 t.hub.cyc.opened k = tabGet 0 s.hub.cyc.opened k)
        ∧ t.hub.cyc.image = s.hub.cyc.image)
    ∧ (tag % 256 = (s.hub.cyc.number + 1) % 256 →
      ∃ t, exec (.contributionReceive src tag index head words) s = .next t
        ∧ t.hub.cyc.early = s.hub.cyc.early ++ [{ src, tag := tag % 256, first := 256 * index, words }]
        ∧ t.hub.cyc.opened = s.hub.cyc.opened ∧ rd t.hub 0x4400_07 = min (rd s.hub 0x4400_07 + 1) (2 ^ 32 - 1)
        ∧ KeptBut [(0x4400_07, 0x4400_07)] s.hub t.hub)
    ∧ (tag % 256 ≠ s.hub.cyc.number % 256 → tag % 256 ≠ (s.hub.cyc.number + 1) % 256 →
      ∃ t, exec (.contributionReceive src tag index head words) s = .next t
        ∧ t.hub.cyc.early = s.hub.cyc.early ∧ t.hub.cyc.opened = s.hub.cyc.opened
        ∧ rd t.hub 0x4400_06 = min (rd s.hub 0x4400_06 + 1) (2 ^ 32 - 1) ∧ KeptBut [(0x4400_06, 0x4400_06)] s.hub t.hub) := by
  have ran := exec_contributionReceive_still (src := src) (tag := tag) (index := index) (head := head) (words := words) still
  rw [contributionReceive_open r o] at ran
  refine ⟨fun t => ?_, fun t => ?_, fun t t' => ?_⟩
  · rw [contributionOpen_now rfl t] at ran
    obtain ⟨-, taken⟩ := accepted_open src tag (256 * index) words s.hub
    generalize watchdogCause true (acceptWords src (256 * index) words (contributionCounted tag s.hub)) = x at *
    exact ⟨_, ran, taken⟩
  · rw [contributionOpen_early rfl t] at ran
    exact ⟨_, ran, rfl, rfl, rd_bump_self _ _, kept_wr _ _ _⟩
  · rw [contributionOpen_wrong rfl t t'] at ran
    exact ⟨_, ran, rfl, rfl, rd_bump_self _ _, kept_wr _ _ _⟩

include r still in
theorem exec_contributionReceive_closed {stamp : Nat} (e : stamp = frameStamp head s.hub) (o : stamp < s.hub.cyc.start) :
    (s.hub.cyc.prior ≤ stamp → tag % 256 = s.hub.cyc.closed.1 % 256 →
      ∃ t, exec (.contributionReceive src tag index head words) s = .next t ∧ t.hub.cyc.opened = s.hub.cyc.opened
        ∧ ∀ i, i < words.length → 256 * index + i < 1024 →
            tabGet (0, 0) t.hub.cyc.image (wordKey src (256 * index + i)) = (words.getD i 0, s.hub.cyc.closed.1))
    ∧ (s.hub.cyc.prior ≤ stamp → tag % 256 ≠ s.hub.cyc.closed.1 % 256 → tag % 256 ≠ (s.hub.cyc.closed.1 + 1) % 256 →
      ∃ t, exec (.contributionReceive src tag index head words) s = .next t ∧ t.hub.cyc.opened = s.hub.cyc.opened
        ∧ t.hub.cyc.image = s.hub.cyc.image ∧ rd t.hub 0x4400_06 = min (rd s.hub 0x4400_06 + 1) (2 ^ 32 - 1))
    ∧ (stamp < s.hub.cyc.prior →
      ∃ t, exec (.contributionReceive src tag index head words) s = .next t ∧ t.hub.cyc = s.hub.cyc
        ∧ rd t.hub 0x4400_06 = min (rd s.hub 0x4400_06 + 1) (2 ^ 32 - 1) ∧ KeptBut [(0x4400_06, 0x4400_06)] s.hub t.hub) := by
  have ran := exec_contributionReceive_still (src := src) (tag := tag) (index := index) (head := head) (words := words) still
  rw [← e] at ran
  refine ⟨fun p t => ?_, fun p t t' => ?_, fun p => ?_⟩
  · rw [contributionReceive_closed r o p, contributionClosed_now t] at ran
    have taken := accepted_closed src tag (256 * index) words s.hub
    generalize watchdogCause true (acceptClosed src (256 * index) words (closedCounted tag s.hub)) = x at *
    exact ⟨_, ran, taken⟩
  · rw [contributionReceive_closed r o p, contributionClosed_wrong t t'] at ran
    obtain ⟨l, counted⟩ := tagsMeasured_cyc s.hub.cyc.closed.1 (s.hub.cyc.closed.2.1 + 1)
      (s.hub.cyc.closed.2.2 + b2n (tag % 256 != s.hub.cyc.closed.1 % 256)) s.hub
    change (closedCounted tag s.hub).cyc = _ at counted
    have count := rd_closedCounted tag s.hub (k := 0x4400_06) (by decide)
    generalize closedCounted tag s.hub = g at *
    exact ⟨_, ran, (congrArg Cyc.opened counted :), (congrArg Cyc.image counted :), (rd_bump_self g _).trans (by rw [count])⟩
  · rw [contributionReceive_late r o p] at ran
    exact ⟨_, ran, rfl, rd_bump_self _ _, kept_wr _ _ _⟩

end

/-! ### REBIND_NOTICE -/

theorem find?_of_tabFind {α : Type} {t : Tab α} {k : Nat} {v : α} (e : tabFind t k = some v) : t.find? (fun x => x.1 == k) = some
    (k, v) := by
  unfold tabFind at e
  obtain ⟨⟨k', v'⟩, found, rfl⟩ := Option.map_eq_some_iff.1 e
  have key : k' = k := by simpa using List.find?_some found
  rw [found, key]

/-- A notice for a SIGNAL whose route is known changes that route as the notice says, and nothing else. -/
theorem rebindReceived_known {handle : Nat} {h : Hub} {r : Route} (w : (wantedSignals h).contains handle = true)
    (away : handleHome handle ≠ hubNumber h) (known : tabFind h.cyc.routes handle = some r) (code holder slot cycle : Nat) :
    rebindReceived code handle holder slot cycle h
      = { h with cyc := { h.cyc with routes := tabSet h.cyc.routes handle (rerouted code holder slot cycle h.cyc.number r) } } := by
  have routed : resolveRoute handle h = h := by
    unfold resolveRoute routeOf
    rw [known]
    rfl
  unfold rebindReceived
  rw [if_pos (by simp only [Bool.and_eq_true, bne_iff_ne]; exact ⟨w, away⟩), routed]
  dsimp only
  rw [known]
  rfl

theorem rerouted_spec (code holder slot cycle number : Nat) (r : Route) :
    (rerouted code holder slot cycle number r).holder = r.holder ∧ (rerouted code holder slot cycle number r).slot = r.slot
      ∧ (code ≠ 2 → (rerouted code holder slot cycle number r).next = some (holder, slot, cycle % 2 ^ 30)
          ∧ (rerouted code holder slot cycle number r).old = r.old)
      ∧ (code = 2 → r.next.isSome = true → (rerouted code holder slot cycle number r).next = none
          ∧ (rerouted code holder slot cycle number r).old = r.old)
      ∧ (∀ o, code = 2 → r.next = none → r.old = some o →
          (rerouted code holder slot cycle number r).next = some (o.1, o.2, (number + 1) % 2 ^ 30)
            ∧ (rerouted code holder slot cycle number r).old = none) := by
  unfold rerouted
  by_cases c : code = 2
  · rw [if_pos c]
    cases next : r.next with
    | some x => simp [c]
    | none =>
      cases old : r.old with
      | some o => simp [c]
      | none => simp [c, next]
  · rw [if_neg c]
    simp [c]

theorem exec_rebindNotice_known {code handle holder slot cycle : Nat} {r : Route} {s : State}
    (w : (wantedSignals s.hub).contains handle = true) (away : handleHome handle ≠ hubNumber s.hub)
    (known : s.hub.cyc.routes.find? (fun e => e.1 == handle) = some (handle, r)) :
    ∃ t, exec (.rebindNotice code handle holder slot cycle) s = .next t
      ∧ (∃ x, t.hub.cyc.routes.find? (fun e => e.1 == handle) = some (handle, x) ∧ x.holder = r.holder ∧ x.slot = r.slot
          ∧ (code ≠ 2 → x.next = some (holder, slot, cycle % 2 ^ 30) ∧ x.old = r.old)
          ∧ (code = 2 → r.next.isSome = true → x.next = none ∧ x.old = r.old)
          ∧ (∀ o, code = 2 → r.next = none → r.old = some o →
              x.next = some (o.1, o.2, (s.hub.cyc.number + 1) % 2 ^ 30) ∧ x.old = none))
      ∧ { t.hub with cyc := { t.hub.cyc with routes := s.hub.cyc.routes } } = s.hub := by
  have found : tabFind s.hub.cyc.routes handle = some r := by rw [tabFind, known]; rfl
  exact ⟨_, onHub_eq_next (rebindReceived_known w away found code holder slot cycle),
    ⟨_, find?_of_tabFind (tabFind_tabSet_self _ _ _), rerouted_spec code holder slot cycle _ r⟩, rfl⟩

theorem rebindReceived_unwanted {handle : Nat} {h : Hub} (w : (wantedSignals h).contains handle = false) (code holder slot cycle : Nat) :
    rebindReceived code handle holder slot cycle h = h :=
  if_neg (by rw [w]; exact Bool.false_ne_true)

/-! ### CYCLE_WATCHDOG_EXPIRY -/

/-- What the expiry of the exchange's watchdog leaves. -/
def watchdogExpired (contributions : Bool) (h : Hub) : Hub :=
  if contributions then
    if !bench h && othersLately h && decide (rd h 0x2401_05 ≤ h.cyc.missed) then raiseFault 0x0C 0x00 2 (phaseError h) h else h
  else if phaseOk h (phaseError h) then h
  else raiseFault 0x0C 0x00 1 (phaseError h) h

theorem exec_cycleWatchdogExpiry_serving {s : State} (r : s.hub.cyc.running = true) (v : serving s.hub = true) (contributions : Bool) :
    exec (.cycleWatchdogExpiry contributions) s = .next { s with hub := watchdogExpired contributions s.hub } := by
  have runs : ¬ (!s.hub.cyc.running || !serving s.hub) = true := by simp [r, v]
  exact congrArg (fun x => Host.Outcome.next { s with hub := x }) (if_neg runs)

/-- A fault raised leaves its record held and the registers outside those of a fault. -/
theorem watchdog_raised (b detail : Nat) (h : Hub) : recordHeld (raiseFault 0x0C 0x00 detail b h) 0x0C = true
    ∧ faulted h (raiseFault 0x0C 0x00 detail b h) = raiseFault 0x0C 0x00 detail b h
    ∧ KeptBut faultRanges h (raiseFault 0x0C 0x00 detail b h) :=
  ⟨recordHeld_raiseFault _ _ _ _ _, faulted_raiseFault _ _ _ _ _, kept_raiseFault _ _ _ _ _⟩

theorem exec_cycleWatchdogExpiry_spec {s : State} (r : s.hub.cyc.running = true) (v : serving s.hub = true) :
    (othersLately s.hub = false → exec (.cycleWatchdogExpiry true) s = .next s)
    ∧ (bench s.hub = false → othersLately s.hub = true → rd s.hub 0x2401_05 ≤ s.hub.cyc.missed →
      ∃ t, exec (.cycleWatchdogExpiry true) s = .next t ∧ recordHeld t.hub 0x0C = true ∧ faulted s.hub t.hub = t.hub
        ∧ KeptBut faultRanges s.hub t.hub)
    ∧ (phaseOk s.hub (phaseError s.hub) = false →
      ∃ t, exec (.cycleWatchdogExpiry false) s = .next t ∧ recordHeld t.hub 0x0C = true ∧ faulted s.hub t.hub = t.hub
        ∧ KeptBut faultRanges s.hub t.hub)
    ∧ (phaseOk s.hub (phaseError s.hub) = true → exec (.cycleWatchdogExpiry false) s = .next s) := by
  have expiry := exec_cycleWatchdogExpiry_serving r v
  refine ⟨fun alone => ?_, fun b others missed => ?_, fun off => ?_, fun on => ?_⟩
  · rw [expiry]
    simp [watchdogExpired, alone]
  · have raised := watchdog_raised (phaseError s.hub) 2 s.hub
    have expired : watchdogExpired true s.hub = raiseFault 0x0C 0x00 2 (phaseError s.hub) s.hub := by
      simp [watchdogExpired, b, others, missed]
    rw [← expired] at raised
    exact ⟨_, expiry true, raised⟩
  · have raised := watchdog_raised (phaseError s.hub) 1 s.hub
    have expired : watchdogExpired false s.hub = raiseFault 0x0C 0x00 1 (phaseError s.hub) s.hub := by
      simp [watchdogExpired, off]
    rw [← expired] at raised
    exact ⟨_, expiry false, raised⟩
  · rw [expiry]
    simp [watchdogExpired, on]

end Sys2Proof.Machine
end

section
/-! SUPPORT. What the outputs at O_k (R333, R341) leave of the cycle, of the mode and of the reaction in force. -/

namespace Sys2Proof.Machine

variable {ref : Hub} {kd : Held}

/-! ### Output targets -/

theorem wrW_paced (h : Hub) (k : Nat) (v : Word) (hp : h.Paced ref kd) (n : Unfollowed k) : (wrW h k v).Paced ref kd :=
  hp.step rfl (fun j m => by rw [rdW_wrW, if_neg]; rintro rfl; exact free_of n m) fun _ m => m

theorem bufContent_paced {c b : Nat} (w : Word) (h : Hub) (controller : c < 16) (buffer : b < 64)
    (hp : h.Paced ref kd) : (bufContent c b [(bufKey c b 3, w)] h).Paced ref kd := by
  have unfollowed : Unfollowed (bufKey c b 3) := by
    have page : b / 16 < 4 := by omega
    unfold Unfollowed bufKey slotKey
    omega
  unfold bufContent
  dsimp only
  split
  · exact hp.of_eq rfl rfl rfl
  · exact wrW_paced _ _ _ (whenDo_paced _ _ _ (fun x hx => bump_paced x _ hx (by simp only [Unfollowed, canStat, slotKey]; omega)) hp) unfollowed

theorem bufOutput_paced {c b : Nat} (w : Word) (h : Hub) (controller : c < 16) (buffer : b < 64) (hp : h.Paced ref kd) :
    (bufOutput c b w h).Paced ref kd := by
  have content := bufContent_paced w h controller buffer hp
  unfold bufOutput bufRequest
  dsimp only
  split
  · exact hp
  · split
    · exact content
    · exact content.of_eq rfl rfl rfl

theorem setRequest_paced {n : Nat} (on : Bool) (h : Hub) (small : n < 16) (hp : h.Paced ref kd) : (setRequest n on h).Paced ref kd := by
  unfold setRequest
  split
  · exact setFuse_paced _ _ _ hp
  · exact wr_paced _ _ _ hp

theorem fuseEval_paced {n : Nat} (h : Hub) (small : n < 16) (hp : h.Paced ref kd) : (fuseEval n h).Paced ref kd :=
  hp.quiet (paceOf_noFault (noFault_of (noFuse_fuseEval n h))) (fun k m => rdW_fuseEval_of n h k small (fuseRegister_held m))
    (port7_fuseEval n h)

theorem iirArrives_paced (n : Nat) (w : Word) (h : Hub) (hp : h.Paced ref kd) : (iirArrives n w h).Paced ref kd := by
  unfold iirArrives
  split
  · exact hp
  · split <;> exact setEngine_paced _ _ _ hp

theorem iirOutput_paced (program : Nat) (w : Word) (h : Hub) (hp : h.Paced ref kd) : (iirOutput program w h).Paced ref kd := by
  unfold iirOutput
  split
  · exact hp
  · split
    · exact iirArrives_paced _ _ _ (crossWord_paced _ _ _ _ hp)
    · exact valueOver_paced _ _ _ _ _ (fun v x hx => iirArrives_paced _ v x hx) hp

theorem iirPending_paced (h : Hub) (hp : h.Paced ref kd) : (iirPending h).Paced ref kd := by
  unfold iirPending
  refine forEach_paced _ _ _ (fun n x hx => ?_) hp
  split
  · split
    · exact setEngine_paced _ _ _ hx
    · exact hx
  · exact hx

theorem bits_lt (x hi lo : Nat) : bits x hi lo < 2 ^ (hi + 1 - lo) := Nat.mod_lt _ (Nat.two_pow_pos _)

theorem applyOutput_paced (j : Nat) (h : Hub) (hp : h.Paced ref kd) : (applyOutput j h).Paced ref kd := by
  unfold applyOutput
  dsimp only
  have channel : bits (rd h (consumeKey j + 1)) 3 0 < 16 := bits_lt _ _ _
  have buffer : bits (rd h (consumeKey j + 1)) 9 4 < 64 := bits_lt _ _ _
  generalize rd h (consumeKey j + 1) = t at channel buffer ⊢
  split
  · exact hp
  · generalize (if decide (bits t 43 36 < (imageWord h (consumed h j)).2) = true then rdW h (consumeKey j + 2)
      else (imageWord h (consumed h j)).1) = v
    have told := whenDo_paced (decide (bits t 43 36 < (imageWord h (consumed h j)).2)) (fun g => cycEvent (bump g 0x4400_0A) 0x22
      (if bits t 47 44 = 2 ∨ bits t 47 44 = 3 then bits t 3 0 else 0) 0 j) h (fun x hx => cycEvent_paced _ _ _ _ _ (bump_paced _ _ hx)) hp
    split
    · exact iirOutput_paced _ _ _ told
    · exact valueOver_paced _ _ _ _ _ (fun w x hx => bufOutput_paced w x channel buffer hx) told
    · exact valueOver_paced _ _ _ _ _ (fun w x hx => fuseEval_paced _ channel (setRequest_paced _ x channel hx)) told
    · exact told

/-! ### The release of the outputs -/

/-- SAFE_N high, but where a reaction holds it low. -/
def safeRaised (h : Hub) : Hub := if safeHeldLow h then h else wr h 0x4E00_03 1

/-- A release that was waiting for the outputs, told. -/
def releaseTold (h : Hub) : Hub :=
  if h.watch.releasing then raiseEvent { h with watch := { h.watch with releasing := false } } 0xAB 0 0 else h

/-- The requests of the fuse channels, waiting no longer. -/
def requestsFreed (h : Hub) : Hub := forEach (List.range 16) (fun n g => fuseEval n (setFuse g n { fuse g n with waiting := false })) h

theorem releaseOutputs_eq (h : Hub) : releaseOutputs h = syncPads (requestsFreed (releaseTold (safeRaised h))) := rfl

theorem safeRaised_paced (h : Hub) (hp : h.Paced ref kd) : (safeRaised h).Paced ref kd := by
  unfold safeRaised
  split
  · exact hp
  · exact wr_paced _ _ _ hp

theorem releaseTold_paced (h : Hub) (hp : h.Paced ref kd) : (releaseTold h).Paced ref kd := by
  unfold releaseTold
  split
  · exact raiseEvent_paced _ _ _ _ (hp.of_eq rfl rfl rfl)
  · exact hp

theorem forEach_paced_mem {α : Type} {l : List α} {f : α → Hub → Hub} (h : Hub) (hf : ∀ a ∈ l, ∀ x, x.Paced ref kd → (f a x).Paced ref kd)
    (hp : h.Paced ref kd) : (forEach l f h).Paced ref kd := by
  unfold forEach
  induction l generalizing h with
  | nil => exact hp
  | cons a l ih => exact ih _ (fun b m => hf b (List.mem_cons_of_mem _ m)) (hf a (by simp) h hp)

theorem requestsFreed_paced (h : Hub) (hp : h.Paced ref kd) : (requestsFreed h).Paced ref kd :=
  forEach_paced_mem _ (fun _ m _ hx => fuseEval_paced _ (List.mem_range.1 m) (setFuse_paced _ _ _ hx)) hp

theorem releaseOutputs_paced (h : Hub) (hp : h.Paced ref kd) : (releaseOutputs h).Paced ref kd :=
  syncPads_paced _ (requestsFreed_paced _ (releaseTold_paced _ (safeRaised_paced _ hp)))

theorem rdW_requestsFreed (h : Hub) {k : Nat} (f : fuseRegister k = false) : rdW (requestsFreed h) k = rdW h k :=
  forEach_same (fun g => rdW g k) _ _ _ fun n m _ => (rdW_fuseEval_of n _ k (List.mem_range.1 m) f).trans rfl

theorem rdW_releaseTold (h : Hub) {k : Nat} (f : eventKey k = false) : rdW (releaseTold h) k = rdW h k := by
  unfold releaseTold
  split
  · exact (rdW_raiseEvent_of _ _ _ _ k (by decide) f).trans rfl
  · rfl

/-- SAFE_N goes high with the outputs. -/
theorem safe_releaseOutputs {h : Hub} (high : safeHeldLow h = false) : rd (releaseOutputs h) 0x4E00_03 = 1 := by
  have raised : safeRaised h = wr h 0x4E00_03 1 := if_neg (by simp [high])
  unfold rd
  rw [releaseOutputs_eq, rdW_syncPads, rdW_requestsFreed _ (by decide), rdW_releaseTold _ (by decide), raised]
  exact rd_wr_self h 0x4E00_03 1

theorem engines_releaseOutputs (h : Hub) : (releaseOutputs h).engines = h.engines := by
  have freed : ∀ g : Hub, (requestsFreed g).engines = g.engines := fun g =>
    forEach_same Hub.engines _ _ _ fun n _ x => (congrArg Hub.engines (noFuse_fuseEval n _) :)
  have told : ∀ g : Hub, (releaseTold g).engines = g.engines := fun g => by
    unfold releaseTold
    split
    · exact raiseEvent_engines _ _ _ _
    · rfl
  have raised : (safeRaised h).engines = h.engines := by
    unfold safeRaised
    split <;> rfl
  rw [releaseOutputs_eq, syncPads_engines, freed, told, raised]

/-! ### The reaction in force -/

/-- What the reaction in force rests on, and the injections that wait. -/
def alarm (h : Hub) : Tab FaultRec × Bool × Bool × List (Nat × Nat) := (h.watch.records, h.watch.halted, h.watch.backstop, h.watch.armed)

theorem outputsSafe_of_alarm {g h : Hub} (e : alarm g = alarm h) : outputsSafe g = outputsSafe h := by
  unfold alarm at e
  simp only [Prod.mk.injEq] at e
  obtain ⟨records, halted, backstop, -⟩ := e
  unfold outputsSafe reaction
  rw [records, halted, backstop]

/-- Outputs that are not held safe are not held low either. -/
theorem safeHeldLow_of_released {h : Hub} (o : outputsSafe h = false) : safeHeldLow h = false := by
  unfold outputsSafe at o
  obtain ⟨backstop, level⟩ := Bool.or_eq_false_iff.1 o
  unfold safeHeldLow
  rw [backstop]
  simp only [Bool.and_eq_false_imp, decide_eq_true_eq, decide_eq_false_iff_not, Bool.false_or] at level ⊢
  omega

theorem alarm_noFuse {g h : Hub} (e : noFuse g = noFuse h) : alarm g = alarm h := (congrArg alarm e :)

theorem alarm_cycEvent (h : Hub) (e i v c : Nat) : alarm (cycEvent h e i v c) = alarm h := by
  unfold cycEvent
  dsimp only
  split
  · rfl
  · exact (alarm_noFuse (noFuse_of (noEvent_raiseEvent _ e i v))).trans rfl

theorem alarm_fuseEval (n : Nat) (h : Hub) : alarm (fuseEval n h) = alarm h := alarm_noFuse (noFuse_fuseEval n h)

theorem alarm_crossWord (src dst : Nat) (w : XWord) {h : Hub} (u : h.watch.armed = []) : alarm (crossWord src dst w h).2 = alarm h := by
  unfold crossWord
  rw [takeParity_unarmed src dst u]
  split
  · rfl
  · rw [if_neg Bool.false_ne_true]
    split <;> rfl

theorem armed_of_alarm {g h : Hub} (e : alarm g = alarm h) (u : h.watch.armed = []) : g.watch.armed = [] :=
  (congrArg (·.2.2.2) e :).trans u

theorem alarm_valueOver (src dst : Nat) (act : Word → Hub → Hub) (w : Word) {h : Hub} (same : ∀ v x, alarm (act v x) = alarm x)
    (u : h.watch.armed = []) : alarm (valueOver src dst act w h) = alarm h := by
  have crossed := alarm_crossWord src dst (plainWord w) u
  unfold valueOver crossValue
  generalize crossWord src dst (plainWord w) h = y at crossed ⊢
  obtain ⟨x, a⟩ := y
  cases x with
  | none => exact crossed
  | some x =>
    cases poisoned : x.poison <;> simp only [poisoned]
    · exact (same _ _).trans crossed
    · exact crossed

end Sys2Proof.Machine
end

section
/-! OUTPUT_INSTANT (R331 step 5, R333, R341, R342). -/

namespace Sys2Proof.Machine

variable {ref : Hub} {kd : Held}

/-! ### The reaction in force over the outputs -/

theorem alarm_iirArrives (n : Nat) (w : Word) (h : Hub) : alarm (iirArrives n w h) = alarm h := by
  unfold iirArrives
  split
  · rfl
  · split <;> rfl

theorem alarm_iirOutput (program : Nat) (w : Word) {h : Hub} (u : h.watch.armed = []) : alarm (iirOutput program w h) = alarm h := by
  unfold iirOutput
  split
  · rfl
  · split
    · exact (alarm_iirArrives _ _ _).trans (alarm_crossWord _ _ _ u)
    · exact alarm_valueOver _ _ _ _ (fun v x => alarm_iirArrives _ v x) u

theorem alarm_iirPending (h : Hub) : alarm (iirPending h) = alarm h :=
  forEach_same alarm _ _ _ fun n _ x => by
    split
    · split <;> rfl
    · rfl

theorem alarm_bufOutput (c b : Nat) (w : Word) (h : Hub) : alarm (bufOutput c b w h) = alarm h := by
  have content : alarm (bufContent c b [(bufKey c b 3, w)] h) = alarm h := by
    unfold bufContent
    dsimp only
    split
    · rfl
    · unfold writeFields whenDo
      split <;> rfl
  unfold bufOutput bufRequest
  dsimp only
  split
  · rfl
  · split
    · exact content
    · exact content

theorem alarm_setRequest (n : Nat) (on : Bool) (h : Hub) : alarm (setRequest n on h) = alarm h := by
  unfold setRequest
  split <;> rfl

/-- The output of an entry with a stale word, counted and told. -/
def staleTold (stale : Bool) (code j : Nat) (h : Hub) : Hub :=
  whenDo stale (fun g => cycEvent (bump g 0x4400_0A) 0x22 code 0 j) h

theorem alarm_staleTold (stale : Bool) (i j : Nat) (h : Hub) : alarm (staleTold stale i j h) = alarm h := by
  unfold staleTold whenDo
  split
  · exact (alarm_cycEvent _ _ _ _ _).trans rfl
  · rfl

/-- What a consumption entry gives its target: the consumed word, or its safe value once that is older than its limit. -/
def outputWord (j : Nat) (h : Hub) : Word :=
  if bits (rd h (consumeKey j + 1)) 43 36 < (imageWord h (consumed h j)).2 then rdW h (consumeKey j + 2) else (imageWord h (consumed h j)).1

/-- The age of the consumed word of an entry is beyond its limit. -/
def outputStale (j : Nat) (h : Hub) : Bool := decide (bits (rd h (consumeKey j + 1)) 43 36 < (imageWord h (consumed h j)).2)

theorem applyOutput_iir {j : Nat} {h : Hub} (kind : bits (rd h (consumeKey j + 1)) 47 44 = 1) :
    applyOutput j h = iirOutput (bits (rd h (consumeKey j + 1)) 22 0) (outputWord j h) (staleTold (outputStale j h) 0 j h) := by
  unfold applyOutput outputWord staleTold outputStale
  dsimp only
  rw [kind]
  simp

theorem alarm_applyOutput (j : Nat) {h : Hub} (u : h.watch.armed = []) : alarm (applyOutput j h) = alarm h := by
  unfold applyOutput
  dsimp only
  split
  · rfl
  · generalize (if decide (bits (rd h (consumeKey j + 1)) 43 36 < (imageWord h (consumed h j)).2) = true then rdW h (consumeKey j + 2)
      else (imageWord h (consumed h j)).1) = v
    have told := alarm_staleTold (decide (bits (rd h (consumeKey j + 1)) 43 36 < (imageWord h (consumed h j)).2))
      (if bits (rd h (consumeKey j + 1)) 47 44 = 2 ∨ bits (rd h (consumeKey j + 1)) 47 44 = 3 then bits (rd h (consumeKey j + 1)) 3 0 else 0)
      j h
    unfold staleTold at told
    generalize whenDo _ _ h = a at told ⊢
    have unarmed := armed_of_alarm told u
    split
    · exact (alarm_iirOutput _ _ unarmed).trans told
    · exact (alarm_valueOver _ _ _ _ (fun w x => alarm_bufOutput _ _ w x) unarmed).trans told
    · exact (alarm_valueOver _ _ _ _ (fun w x => (alarm_fuseEval _ _).trans (alarm_setRequest _ _ x)) unarmed).trans told
    · exact told

theorem alarm_applyOutputs (l : List Nat) {h : Hub} (u : h.watch.armed = []) : alarm (forEach l applyOutput h) = alarm h := by
  induction l generalizing h with
  | nil => rfl
  | cons j l ih =>
    have applied := alarm_applyOutput j u
    rw [forEach_cons, ih (armed_of_alarm applied u), applied]

/-! ### O_k -/

/-- The hub at O_k: the outputs of the cycle are applied, and an O_k put off is counted. -/
def outputsBegun (h : Hub) : Hub :=
  whenDo (decide (h.cyc.number * h.cyc.period + rd h 0x2401_02 * 1000 < outputTime h)) (fun g => bump g 0x4400_08)
    { h with cyc := { h.cyc with applied := true } }

theorem outputInstant_idle {h : Hub} (i : h.cyc.running = false ∨ h.cyc.applied = true ∨ serving h = false ∨ nowNs h < outputTime h) :
    outputInstant h = h := by
  refine if_pos ?_
  rcases i with i | i | i | i <;> simp [i]

theorem outputInstant_due {h : Hub} (r : h.cyc.running = true) (a : h.cyc.applied = false) (v : serving h = true)
    (d : outputTime h ≤ nowNs h) : outputInstant h = if (outputsBegun h).cyc.since < 2 ∨ outputsSafe (outputsBegun h) = true then outputsBegun h
      else releaseOutputs (forEach (consumptions (outputsBegun h)) applyOutput (iirPending (outputsBegun h))) := by
  have due : ¬ (!h.cyc.running || h.cyc.applied || !serving h || decide (nowNs h < outputTime h)) = true := by
    simp [r, a, v, Nat.not_lt.2 d]
  exact if_neg due

theorem outputsBegun_cases (h : Hub) : outputsBegun h = { h with cyc := { h.cyc with applied := true } }
    ∨ outputsBegun h = bump { h with cyc := { h.cyc with applied := true } } 0x4400_08 := by
  unfold outputsBegun whenDo
  split
  · exact .inr rfl
  · exact .inl rfl

theorem outputsBegun_cyc (h : Hub) : (outputsBegun h).cyc = { h.cyc with applied := true } := by
  rcases outputsBegun_cases h with e | e <;> exact (congrArg Hub.cyc e :)

theorem kept_outputsBegun (h : Hub) : KeptBut [(0x4400_08, 0x4400_08)] h (outputsBegun h) := by
  rcases outputsBegun_cases h with e | e <;> rw [e]
  · exact fun _ _ => rfl
  · exact kept_wr _ _ _

theorem alarm_outputsBegun (h : Hub) : alarm (outputsBegun h) = alarm h := by
  rcases outputsBegun_cases h with e | e <;> exact (congrArg alarm e :)

/-- Before the second cycle, or while a reaction holds the outputs, O_k sets no output. -/
theorem exec_outputInstant_held {s : State} (r : s.hub.cyc.running = true) (a : s.hub.cyc.applied = false) (v : serving s.hub = true)
    (d : outputTime s.hub ≤ nowNs s.hub) (o : s.hub.cyc.since < 2 ∨ outputsSafe s.hub = true) :
    ∃ t, exec .outputInstant s = .next t ∧ t.hub.cyc = { s.hub.cyc with applied := true } ∧ t.hub.engines = s.hub.engines
      ∧ t.hub.fuses = s.hub.fuses ∧ KeptBut [(0x4400_08, 0x4400_08)] s.hub t.hub := by
  have due := outputInstant_due r a v d
  rw [if_pos (by rw [outputsBegun_cyc, outputsSafe_of_alarm (alarm_outputsBegun _)]; exact o)] at due
  refine ⟨_, onHub_eq_next due, outputsBegun_cyc _, ?_, ?_, kept_outputsBegun _⟩
  · rcases outputsBegun_cases s.hub with e | e <;> exact (congrArg Hub.engines e :)
  · rcases outputsBegun_cases s.hub with e | e <;> exact (congrArg Hub.fuses e :)

end Sys2Proof.Machine
end

section
/-! OUTPUT_INSTANT with its outputs set (R52, R69, R333, R341): SAFE_N and the mode, and the image input register of an engine. -/

namespace Sys2Proof.Machine

variable {ref : Hub} {kd : Held}

/-! ### Every output set -/

/-- The hub whose outputs of O_k are set. -/
def outputsSet (h : Hub) : Hub := forEach (consumptions (outputsBegun h)) applyOutput (iirPending (outputsBegun h))

theorem outputsBegun_paced (h : Hub) : (outputsBegun h).Paced { h with cyc := { h.cyc with applied := true } } .mode :=
  whenDo_paced _ _ _ (fun _ hx => bump_paced _ _ hx) (.refl _ _)

theorem outputsSet_paced (h : Hub) : (outputsSet h).Paced { h with cyc := { h.cyc with applied := true } } .mode :=
  forEach_paced _ _ _ (fun j x hx => applyOutput_paced j x hx) (iirPending_paced _ (outputsBegun_paced h))

theorem alarm_outputsSet {h : Hub} (u : h.watch.armed = []) : alarm (outputsSet h) = alarm h := by
  have begun := (alarm_iirPending (outputsBegun h)).trans (alarm_outputsBegun h)
  exact (alarm_applyOutputs _ (armed_of_alarm begun u)).trans begun

theorem outputInstant_sets {h : Hub} (r : h.cyc.running = true) (a : h.cyc.applied = false) (v : serving h = true)
    (d : outputTime h ≤ nowNs h) (n : 2 ≤ h.cyc.since) (o : outputsSafe h = false) : outputInstant h = releaseOutputs (outputsSet h) := by
  rw [outputInstant_due r a v d, if_neg]
  · rfl
  · rw [outputsBegun_cyc, outputsSafe_of_alarm (alarm_outputsBegun h), o]
    simp only [Bool.false_eq_true, or_false]
    exact Nat.not_lt.2 n

/-! ### A word over an open crossing -/

/-- Over an open crossing with no error injected, a value arrives as it was sent, and only crossings change. -/
theorem valueOver_open {src dst : Nat} (act : Word → Hub → Hub) (w : Word) {h : Hub} (o : crossingShut h src dst = false)
    (u : h.watch.armed = []) : ∃ k, valueOver src dst act w h = act w { h with crossings := k } := by
  unfold valueOver crossValue crossWord
  rw [takeParity_unarmed src dst u, if_neg (by rw [o]; exact Bool.false_ne_true), if_neg Bool.false_ne_true]
  by_cases e : (crossing h src dst).entries = []
  · rw [if_pos e]
    exact ⟨h.crossings, rfl⟩
  · rw [if_neg e]
    exact ⟨_, rfl⟩

theorem iirArrives_on {n : Nat} {h : Hub} (awake : h.sleep.asleep.contains (32 + grove n) = false) (on : domainState h (grove n) = 3)
    (w : Word) : iirArrives n w h = setEngine h n { engine h n with iir := w, n := true, iirNext := none } := by
  unfold iirArrives
  rw [if_neg (by rw [awake]; exact Bool.false_ne_true), if_pos on]

theorem engine_setEngine_self (h : Hub) (n : Nat) (g : Engine) : engine (setEngine h n g) n = g := tabGet_tabSet_self _ _ _ _

/-- A word for an engine whose Grove is ON and whose crossing is open is its image input. -/
theorem iirOutput_arrives {program n : Nat} {h : Hub} (found : programEngine h program = some n)
    (awake : h.sleep.asleep.contains (32 + grove n) = false) (on : domainState h (grove n) = 3)
    (o : crossingShut h 0 (8 + grove n) = false) (u : h.watch.armed = []) (w : Word) :
    (engine (iirOutput program w h) n).iir = w ∧ (engine (iirOutput program w h) n).n = true := by
  have opens : crossingClosed h 0 (8 + grove n) = false := (Bool.or_eq_false_iff.1 o).2
  obtain ⟨k, arrives⟩ := valueOver_open (iirArrives n) w o u
  unfold iirOutput
  rw [found]
  dsimp only
  rw [if_neg (by rw [opens]; exact Bool.false_ne_true), arrives, iirArrives_on (h := { h with crossings := k }) awake on,
    engine_setEngine_self]
  exact ⟨rfl, rfl⟩

/-! ### What an output reads -/

/-- Registers that the outputs read: none of an event, and no count of the exchange. -/
def OutputKey (k : Nat) : Prop := k < 0x4400_00 ∨ 0x4D00_00 ≤ k ∧ k < 0x4E00_00

theorem outputKey_engKey {n : Nat} (l : n < 64) : OutputKey (engKey n 0x12) := by
  unfold OutputKey engKey slotKey
  omega

theorem outputKey_domain {n : Nat} (l : n < 64) : OutputKey (0x4D11_01 + grove n) := by
  unfold OutputKey grove
  omega

theorem eventKey_output {k : Nat} (o : OutputKey k) : eventKey k = false := by
  unfold OutputKey at o
  simp only [eventKey, Bool.or_eq_false_iff, decide_eq_false_iff_not, beq_eq_false_iff_ne]
  omega

/-- Two hubs that an output does not tell apart, but for the engines. -/
structure OutputSame (g h : Hub) : Prop where
  regs : ∀ k, OutputKey k → rdW g k = rdW h k
  routes : g.cyc.routes = h.cyc.routes
  image : g.cyc.image = h.cyc.image
  number : g.cyc.number = h.cyc.number
  canopy : g.canopy = h.canopy
  crossings : g.crossings = h.crossings
  sleep : g.sleep = h.sleep

theorem OutputSame.trans {a b c : Hub} (x : OutputSame a b) (y : OutputSame b c) : OutputSame a c where
  regs k o := (x.regs k o).trans (y.regs k o)
  routes := x.routes.trans y.routes
  image := x.image.trans y.image
  number := x.number.trans y.number
  canopy := x.canopy.trans y.canopy
  crossings := x.crossings.trans y.crossings
  sleep := x.sleep.trans y.sleep

theorem outputSame_bump (h : Hub) {k : Nat} (lo : 0x4400_00 ≤ k) (hi : k < 0x4D00_00) : OutputSame (bump h k) h where
  regs j o := (rdW_wr _ _ _ _).trans (if_neg (by unfold OutputKey at o; omega))
  routes := rfl
  image := rfl
  number := rfl
  canopy := rfl
  crossings := rfl
  sleep := rfl

theorem outputSame_cycEvent (h : Hub) {e : Nat} (l : e < 256) (i v c : Nat) : OutputSame (cycEvent h e i v c) h := by
  unfold cycEvent
  dsimp only
  split
  · exact ⟨fun _ _ => rfl, rfl, rfl, rfl, rfl, rfl, rfl⟩
  · exact ⟨fun k o => (rdW_raiseEvent_of _ e i v k l (eventKey_output o)).trans rfl, by rw [raiseEvent_cyc], by rw [raiseEvent_cyc],
      by rw [raiseEvent_cyc], raiseEvent_canopy _ _ _ _, raiseEvent_crossings _ _ _ _, raiseEvent_sleep _ _ _ _⟩

theorem outputSame_staleTold (stale : Bool) (i j : Nat) (h : Hub) : OutputSame (staleTold stale i j h) h := by
  unfold staleTold whenDo
  split
  · exact (outputSame_cycEvent _ (by decide) _ _ _).trans (outputSame_bump h (by decide) (by decide))
  · exact ⟨fun _ _ => rfl, rfl, rfl, rfl, rfl, rfl, rfl⟩

theorem outputSame_outputsBegun (h : Hub) : OutputSame (outputsBegun h) h := by
  have applied : OutputSame { h with cyc := { h.cyc with applied := true } } h := ⟨fun _ _ => rfl, rfl, rfl, rfl, rfl, rfl, rfl⟩
  rcases outputsBegun_cases h with e | e <;> rw [e]
  · exact applied
  · exact (outputSame_bump _ (by decide) (by decide)).trans applied

theorem outputSame_iirPending (h : Hub) : OutputSame (iirPending h) h := by
  have same : { iirPending h with engines := [] } = { h with engines := [] } :=
    forEach_same (fun x : Hub => { x with engines := [] }) _ _ _ fun n _ x => by
      split
      · split <;> rfl
      · rfl
  generalize iirPending h = g at same
  exact ⟨fun k _ => (congrArg (fun x : Hub => rdW x k) same :), (congrArg (fun x : Hub => x.cyc.routes) same :),
    (congrArg (fun x : Hub => x.cyc.image) same :), (congrArg (fun x : Hub => x.cyc.number) same :), (congrArg Hub.canopy same :),
    (congrArg Hub.crossings same :), (congrArg Hub.sleep same :)⟩

section
variable {g h : Hub} (s : OutputSame g h)
include s

theorem OutputSame.rd_eq {k : Nat} (o : OutputKey k) : rd g k = rd h k := congrArg BitVec.toNat (s.regs k o)

theorem OutputSame.mode_eq : mode g = mode h := s.rd_eq (.inl (by decide))

theorem OutputSame.imageWord_eq (hd : Nat) : imageWord g hd = imageWord h hd := by
  have number : hubNumber g = hubNumber h := s.rd_eq (.inl (by decide))
  unfold imageWord routeOf mapEntry residence
  rw [s.routes, s.image, s.number, s.canopy, number]

theorem OutputSame.outputWord_eq {j : Nat} (l : consumeKey j + 2 < 0x4400_00) : outputWord j g = outputWord j h := by
  unfold outputWord consumed
  rw [s.rd_eq (.inl (by omega : consumeKey j + 1 < _)), s.regs _ (.inl l), s.rd_eq (.inl (by omega : consumeKey j < _)), s.imageWord_eq]

theorem OutputSame.programEngine_eq (program : Nat) : programEngine g program = programEngine h program :=
  List.find?_congr fun n m => by rw [s.rd_eq (outputKey_engKey (List.mem_range.1 m))]

theorem OutputSame.domainState_eq {n : Nat} (l : n < 64) : domainState g (grove n) = domainState h (grove n) := s.rd_eq (outputKey_domain l)

theorem OutputSame.crossingShut_eq {n : Nat} (l : n < 64) : crossingShut g 0 (8 + grove n) = crossingShut h 0 (8 + grove n) := by
  have island : islandDomain (8 + grove n) = some (grove n) := by
    unfold grove islandDomain
    rw [if_pos (by omega)]
    congr 1
    omega
  have domain : ∀ x : Hub, domainClosed x 12 = (mode x == 6) := fun x => by simp [domainClosed]
  unfold crossingShut crossingClosed islandClosed crossing
  rw [island, s.crossings]
  dsimp only
  rw [show islandDomain 0 = some 12 from rfl]
  dsimp only
  rw [domain, domain]
  unfold domainClosed
  rw [s.mode_eq, s.domainState_eq l]

end

/-! ### The image input of an engine -/

/-- The entry that is the only one is one of the table's. -/
theorem consumeKey_lt {h : Hub} {j : Nat} (m : j ∈ consumptions h) : consumeKey j + 2 < 0x4400_00 := by
  obtain ⟨e, -, listed⟩ := List.mem_filterMap.1 m
  split at listed
  · next inTable =>
    obtain rfl := Option.some.inj listed
    unfold consumeKey slotKey
    omega
  · cases listed

theorem filterMap_tabSet {α β : Type} (f : Nat × α → Option β) (t : Tab α) (k : Nat) (v : α) (none : ∀ x, f (k, x) = none) :
    (tabSet t k v).filterMap f = t.filterMap f := by
  induction t with
  | nil => simp [tabSet, none]
  | cons e t ih =>
    obtain ⟨k', v'⟩ := e
    unfold tabSet
    split
    · rw [List.filterMap_cons_none (none v)]
    · split
      · next same =>
        subst same
        rw [List.filterMap_cons_none (none v), List.filterMap_cons_none (none v')]
      · rw [List.filterMap_cons, List.filterMap_cons, ih]

theorem filterMap_tabErase {α β : Type} (f : Nat × α → Option β) (t : Tab α) (k : Nat) (none : ∀ x, f (k, x) = none) :
    (tabErase t k).filterMap f = t.filterMap f := by
  unfold tabErase
  rw [List.filterMap_filter]
  refine List.filterMap_congr fun e _ => ?_
  by_cases same : e.1 = k
  · obtain ⟨k', v⟩ := e
    subst same
    simp [none]
  · simp [same]

/-- A register outside the table of consumption entries tells nothing of them. -/
theorem consumptions_wr (h : Hub) {k : Nat} (v : Nat) (o : 0x2420_00 ≤ k) : consumptions (wr h k v) = consumptions h := by
  unfold consumptions wr wrW cellSet
  dsimp only
  split
  · exact filterMap_tabErase _ _ _ fun x => if_neg (by omega)
  · exact filterMap_tabSet _ _ _ _ fun x => if_neg (by omega)

theorem consumptions_outputsBegun (h : Hub) : consumptions (outputsBegun h) = consumptions h := by
  rcases outputsBegun_cases h with e | e <;> rw [e]
  · rfl
  · exact consumptions_wr _ _ (by decide)

/-- The one consumption entry, of an engine's image input: the engine has its word, the consumed one or the safe value. -/
theorem outputsSet_engine {j n : Nat} {h : Hub} (u : h.watch.armed = []) (one : consumptions h = [j])
    (kind : bits (rd h (consumeKey j + 1)) 47 44 = 1) (found : programEngine h (bits (rd h (consumeKey j + 1)) 22 0) = some n)
    (awake : h.sleep.asleep.contains (32 + grove n) = false) (on : domainState h (grove n) = 3)
    (o : crossingShut h 0 (8 + grove n) = false) :
    (engine (outputsSet h) n).iir = outputWord j h ∧ (engine (outputsSet h) n).n = true := by
  have small : n < 64 := List.mem_range.1 (List.mem_of_find?_eq_some found)
  have inTable : consumeKey j + 2 < 0x4400_00 := consumeKey_lt (h := h) (by rw [one]; exact List.mem_singleton_self j)
  have begun := (outputSame_iirPending (outputsBegun h)).trans (outputSame_outputsBegun h)
  have unarmed := armed_of_alarm ((alarm_iirPending (outputsBegun h)).trans (alarm_outputsBegun h)) u
  unfold outputsSet
  rw [consumptions_outputsBegun, one]
  show (engine (applyOutput j (iirPending (outputsBegun h))) n).iir = _ ∧ (engine (applyOutput j (iirPending (outputsBegun h))) n).n = true
  generalize iirPending (outputsBegun h) = c at begun unarmed ⊢
  have target : rd c (consumeKey j + 1) = rd h (consumeKey j + 1) := begun.rd_eq (.inl (by omega))
  rw [applyOutput_iir (by rw [target]; exact kind), target, begun.outputWord_eq inTable]
  have told := (outputSame_staleTold (outputStale j c) 0 j c).trans begun
  have unarmed' := armed_of_alarm (alarm_staleTold (outputStale j c) 0 j c) unarmed
  generalize staleTold (outputStale j c) 0 j c = a at told unarmed' ⊢
  exact iirOutput_arrives (by rw [told.programEngine_eq]; exact found) (by rw [told.sleep]; exact awake)
    (by rw [told.domainState_eq small]; exact on) (by rw [told.crossingShut_eq small]; exact o) unarmed' _

/-- From the second cycle on and with no reaction holding them, the outputs of O_k are set: SAFE_N goes high, the mode stays, and the
target of a lone entry has its word. -/
theorem exec_outputInstant_set {s : State} (r : s.hub.cyc.running = true) (a : s.hub.cyc.applied = false) (v : serving s.hub = true)
    (d : outputTime s.hub ≤ nowNs s.hub) (n : 2 ≤ s.hub.cyc.since) (o : outputsSafe s.hub = false) (u : s.hub.watch.armed = []) :
    ∃ t, exec .outputInstant s = .next t ∧ t.hub.cyc.applied = true ∧ rd t.hub 0x4E00_03 = 1 ∧ mode t.hub = mode s.hub
      ∧ (∀ j n t0, consumptions s.hub = [j] → t0 = rd s.hub (consumeKey j + 1) → bits t0 47 44 = 1 →
          (List.range 64).find? (fun n => rd s.hub (engKey n 0x12) == bits t0 22 0) = some n →
          s.hub.sleep.asleep.contains (32 + grove n) = false → domainState s.hub (grove n) = 3 →
          crossingShut s.hub 0 (8 + grove n) = false →
          (engine t.hub n).iir = (if bits t0 43 36 < (imageWord s.hub (consumed s.hub j)).2 then rdW s.hub (consumeKey j + 2)
              else (imageWord s.hub (consumed s.hub j)).1)
          ∧ (engine t.hub n).n = true) := by
  have ran : exec .outputInstant s = .next { s with hub := releaseOutputs (outputsSet s.hub) } :=
    onHub_eq_next (outputInstant_sets r a v d n o)
  have paced := releaseOutputs_paced _ (outputsSet_paced s.hub)
  have applied := congrArg (·.2.2.2.1) paced.1
  have sameMode := paced.mode_eq
  have safe := safe_releaseOutputs (safeHeldLow_of_released ((outputsSafe_of_alarm (alarm_outputsSet u)).trans o))
  have engines := engines_releaseOutputs (outputsSet s.hub)
  generalize releaseOutputs (outputsSet s.hub) = g at *
  refine ⟨_, ran, applied, safe, sameMode, ?_⟩
  rintro j n t0 one rfl kind found awake on crossing
  have given := outputsSet_engine u one kind found awake on crossing
  unfold engine at given ⊢
  rw [← engines] at given
  exact given

end Sys2Proof.Machine
end

section
open Sys2Proof Sys2Proof.Machine

/-- Settles O27: what a due start sets off keeps the cycle it has begun, so the cycle's number, start and counts can be read off its first
step; frames go to the window their stamp names, and the outputs leave the reaction in force as it was. -/
theorem cyclesRunOnTheirGridAndOutputsFollow : Obligations.CyclesRunOnTheirGridAndOutputsFollow := by
  unfold Obligations.CyclesRunOnTheirGridAndOutputsFollow
  refine ⟨fun s i => ?idle, fun s r n c d => ?start, fun s r c a => ?complete, fun s r c a z o d => ?released,
    fun src tag index head words s r n c d t o l => ?due, fun src tag index head words s r n w o => ?inOpen,
    fun src tag index head words stamp s r n w e o => ?inClosed, fun src tag index head words s r => ?stopped,
    fun s i => ?outputIdle, fun s r a v d => ?outputs, fun code handle holder slot cycle r s w away known => ?rebind,
    fun code handle holder slot cycle s w => ?unwanted, fun s r v => ?watchdog⟩
  case idle => exact onHub_eq_next (cycleStart_idle i)
  case start => exact exec_cycleStart_due r n c d
  case complete =>
    refine ⟨fun early => ?_, fun n d => exec_cycleWorkComplete_late r c a n d⟩
    rw [exec_cycleWorkComplete_open r c a, workCompleted, if_neg (Nat.not_le.2 early), workDone]
  case released => exact exec_cycleWorkComplete_released r c a z o d
  case due => exact exec_contributionReceive_due r n c d t o l
  case inOpen => exact exec_contributionReceive_open r (cycleStart_waits n w) o
  case inClosed => exact exec_contributionReceive_closed r (cycleStart_waits n w) e o
  case stopped =>
    rw [exec_contributionReceive_still (cycleStart_stopped r), contributionReceive_stopped r]
  case outputIdle => exact onHub_eq_next (outputInstant_idle i)
  case outputs => exact ⟨exec_outputInstant_held r a v d, exec_outputInstant_set r a v d⟩
  case rebind => exact exec_rebindNotice_known w away known
  case unwanted => exact onHub_eq_next (rebindReceived_unwanted w code holder slot cycle)
  case watchdog => exact exec_cycleWatchdogExpiry_spec r v

end

end

section
/-! A process object's write that waits for one of its SIGNAL: what it discards on its path may yet be told over the ring (R87, R505, R713). -/

namespace Sys2Proof.Machine

/-! ### A hub whose host holds part of a long entry -/

/-- A write of SIGNAL 77 on its way to its holder, for another path. -/
def outstandingWrite : ShadowWrite := { handle := 77, shift := 0, width := 48, value := 0, path := .ring 9, index := 0x6000, sub := 1, reply := .none }

/-- Hub 5 in RUN: the process object 0x6000:01 is bits 15..8 of SIGNAL 77, event 3 is routed to ring channel 0, the host has written part
of the long entry 0x2830:03, and a write of SIGNAL 77 is outstanding. -/
def heldPartHub : Hub :=
  { wrs Hub.reset [(0x2000_01, 3), (0x2000_09, 5), (mappingKey 0, 0x6000 * 2 ^ 32 + 2 ^ 24 + 77), (mappingKey 0 + 1, 0x108),
      (0x2410_01, 77), (routeKey 3, 128)] with
    boot := { Hub.reset.boot with latched := true, complete := true }
    paths := [(0, { pathInit with longHeld := some (0x2830_03, [0, 0]) })]
    canopen := { Hub.reset.canopen with writes := [(1, outstandingWrite)] } }

theorem heldPartHub_open : WriteOpen .host 0x6000 1 255 heldPartHub := by
  unfold WriteOpen
  decide +kernel

theorem heldPartHub_mapping : findMapping heldPartHub 0x6000 1 = some 0 := by decide +kernel

theorem heldPartHub_field : mapping heldPartHub 0 = (77, 8, 8) := by decide +kernel

theorem heldPartHub_rw : processRo heldPartHub 77 = false := by decide +kernel

theorem heldPartHub_known : signalKnown heldPartHub 77 = true := by decide +kernel

theorem heldPartHub_quiet : portFrames heldPartHub 6 = [] := by decide +kernel

/-- The write of a process object as the hub performs it on the host's path. -/
def hostProcessWrite (v : Nat) (h : Hub) : Hub := pathWrite .host 0x6000 1 v (processCauses 0x6000 1 v) (processWrite .host 0x6000 1 v) h

/-- The part of the long entry is discarded and refused, and the event of that refusal leaves for its channel. -/
theorem heldPartHub_tells : (portFrames (hostProcessWrite 255 heldPartHub) 6).length = 1 := by decide +kernel

end Sys2Proof.Machine

open Sys2Proof Sys2Proof.Machine

/-- Refutes O40: in its last clause a write that waits for another of its SIGNAL leaves the queues of the ports as they are, whatever its
path holds. In `heldPartHub` the host holds part of a long entry; the write discards it (R87), and the event of that refusal is routed to a
ring channel, so that a frame is queued for the ring. -/
theorem not_sdoServerAndProcessObjects : ¬ Obligations.SdoServerAndProcessObjects := by
  unfold Obligations.SdoServerAndProcessObjects
  rintro ⟨-, -, -, -, -, -, -, -, -, -, written⟩
  have quiet : ∀ h : Hub, WriteOpen .host 0x6000 1 255 h → findMapping h 0x6000 1 = some 0 → mapping h 0 = (77, 8, 8) →
      processRo h 77 = false → signalKnown h 77 = true → h.canopen.writes = [(1, outstandingWrite)] →
      portFrames (hostProcessWrite 255 h) 6 = portFrames h 6 := by
    intro h opened found field rw known waits
    obtain ⟨-, waiting⟩ := written .host 0x6000 1 255 0 77 8 8 _ _ { pending := [], hub := h } opened found field rw (by decide) known
      (by decide) rfl rfl
    obtain ⟨t, ran, queues, -⟩ := waiting (1, outstandingWrite) (waits ▸ List.mem_singleton.2 rfl) rfl
    have left : t.hub = hostProcessWrite 255 h := congrArg State.hub
      (Host.Outcome.next.inj (ran.symm.trans (rfl : exec (.processObjectWrite .host 0x6000 1 255) { pending := [], hub := h } = _)))
    unfold portFrames
    rw [← left, queues]
  have none := quiet heldPartHub heldPartHub_open heldPartHub_mapping heldPartHub_field heldPartHub_rw heldPartHub_known rfl
  have told := heldPartHub_tells
  rw [none, heldPartHub_quiet] at told
  exact absurd told (by decide)

end

section
/-! A load of the configuration in CLEARING: its result does not outlast a sleeping resource beyond the hub's own (R107, R108, R667). -/

namespace Sys2Proof.Machine

/-! ### The end of a load that takes the hub from CLEARING to LIMP -/

/-- What a load takes before Forester's state is shown anew: credits, fuse channels and node ID. -/
def beforeForester (h : Hub) : Hub :=
  let lost := forEach (List.range 16) (fun n g => whenDo h.power.busLost (fuseLost n (busNs h)) g)
    { h with power := { h.power with busLost := false } }
  nodeIdUpdate (fillCredits (forEach (List.range 16)
    (fun n g => setEnable n (rd g (fuseCfg n 1)) (setLimit n (rd g (fuseCfg n 2)) g)) lost))

theorem rd_setStore (h : Hub) (x : Store) (k : Nat) : rd { h with store := x } k = rd h k := rfl

theorem rd_loadFinished (h : Hub) (k : Nat) : rd (loadFinished h) k = rd (configurationTaken h) k := by
  unfold loadFinished
  exact rd_setStore (configurationTaken h) _ k

theorem configurationTaken_eq (h : Hub) : configurationTaken h = foresterUpdate (beforeForester h) := rfl

/-- The hub as Forester's LIMP cause finds it: the counts shown, the placement's end told. -/
def placementShown (h : Hub) : Hub :=
  let a := wrs h [(0x4310_01, (definedSlots h).length), (0x4310_02, (unboundSlots h).length)]
  let now := allBound a && a.forester.placed
  whenDo (now && !h.forester.done && mode h == 2) (fun g => raiseEvent g 0x1A 0 0)
    { a with forester := { a.forester with done := now } }

/-- That hub with the cause noted. -/
def unboundNoted (h : Hub) : Hub := wr (placementShown h) 0x2000_06 (setBit (rd (placementShown h) 0x2000_06) 3 true)

/-- In CLEARING a slot left UNBOUND is a cause of LIMP. -/
theorem foresterUpdate_clearing {h : Hub} (u : (!(unboundSlots (placementShown h)).isEmpty) = true) (m : mode (placementShown h) = 5)
    (n : mode (unboundNoted h) = 5) : foresterUpdate h = changeMode 4 (unboundNoted h) := by
  have cause : foresterUpdate h = setLimpCause 3 (!(unboundSlots (placementShown h)).isEmpty && mode (placementShown h) != 2) (placementShown h) := rfl
  have limp : setLimpCause 3 true (placementShown h)
      = if true && (mode (unboundNoted h) == 3 || mode (unboundNoted h) == 5) then changeMode 4 (unboundNoted h) else unboundNoted h := rfl
  rw [cause, u, m, show (true && (5 : Nat) != 2) = true from rfl, limp, n]
  rfl

/-! ### A hub in CLEARING whose list of sleeping resources names no Grove of its own -/

/-- A number beyond the 40 resources. As a Grove, 32 below it, its state would stand at 0x4F00:0D, where the load's result stands. -/
def strayLoadResource : Nat := 32 + (0x4F00_0D - 0x4D11_01)

/-- A hub in CLEARING with a slot UNBOUND, a load of the configuration under way, and this resource listed as asleep. Its Belfry is halted,
so that no credit is issued with the load. -/
def strayLoadHub : Hub :=
  { Hub.reset with
    dict := tabSet (wrs Hub.reset [(0x2000_01, 5), (0x4202_01, 0)]).dict 0x2001_01 0x10000
    store := { Hub.reset.store with loading := true }
    sleep := { Hub.reset.sleep with asleep := [strayLoadResource] }
    canopy := { Hub.reset.canopy with
      map := [(1, { state := 3, kind := 0, hgen := 0, bgen := 0, holder := 0, base := 0, length := 0 })] } }

/-- An empty record of the hub's own format, with its tag. -/
def strayCopy : ConfigCopy := tagged strayLoadHub { seq := 7, version := 0x10000, entries := [], tag := 0, marked := false }

/-- That hub with this record as its copy A. -/
def strayRecordHub : Hub := { strayLoadHub with copyA := some strayCopy }

theorem strayRecordHub_valid : copyValid strayRecordHub (some strayCopy) = true := by
  simp [copyValid, strayCopy, tagged, recordTag, recordBytes, strayRecordHub, configKey]

theorem strayRecordHub_copyA : copyValid strayRecordHub strayRecordHub.copyA = true := strayRecordHub_valid

theorem strayRecordHub_best : bestCopy strayRecordHub = some strayCopy := by
  unfold bestCopy
  rw [strayRecordHub_copyA]
  rfl

theorem strayRecordHub_format : formatAccepted (rd strayRecordHub 0x2001_01) strayCopy.version = true := by decide +kernel

/-! ### Its load -/

/-- The load begun: one valid copy, of number 7. -/
def strayBegun : Hub :=
  wrs { strayRecordHub with store := { strayRecordHub.store with loading := false } } [(0x4001_0A, 0), (0x4001_0B, 1), (0x2001_05, 7)]

theorem strayRecordHub_begun : loadBegun strayRecordHub = strayBegun := by
  have validA : copyValid { strayRecordHub with store := { strayRecordHub.store with loading := false } } (some strayCopy) = true :=
    strayRecordHub_valid
  have noCorrupt : corruptCopy 1 strayRecordHub.copyB (corruptCopy 0 strayRecordHub.copyA
      { strayRecordHub with store := { strayRecordHub.store with loading := false } })
      = { strayRecordHub with store := { strayRecordHub.store with loading := false } } := by
    rw [show strayRecordHub.copyA = some strayCopy from rfl, show strayRecordHub.copyB = none from rfl]
    unfold corruptCopy
    rw [validA]
    rfl
  have count : validCopies strayRecordHub = 1 := by
    unfold validCopies
    rw [strayRecordHub_copyA]
    rfl
  have number : max (copySeq strayRecordHub strayRecordHub.copyA) (copySeq strayRecordHub strayRecordHub.copyB) = 7 := by
    have a : copySeq strayRecordHub strayRecordHub.copyA = 7 := if_pos strayRecordHub_valid
    rw [a]
    rfl
  unfold loadBegun
  rw [noCorrupt, count, number]
  rfl

/-- The hub as Forester's LIMP cause leaves it, on the way to LIMP. -/
def strayLimping : Hub := unboundNoted (beforeForester (withApproved (loadRecord strayCopy) strayBegun))

theorem strayLimping_clearing : mode strayLimping = 5 := by decide +kernel

theorem strayLimping_asleep : strayLimping.sleep.asleep = [strayLoadResource] := by decide +kernel

theorem stray_unbound : (!(unboundSlots (placementShown (beforeForester (withApproved (loadRecord strayCopy) strayBegun)))).isEmpty) = true := by
  decide +kernel

theorem stray_shown_clearing : mode (placementShown (beforeForester (withApproved (loadRecord strayCopy) strayBegun))) = 5 := by decide +kernel

/-- Whatever becomes of its list, the "Grove" is ON: its state, 3, is left as the load's result. -/
theorem loadResult_overwritten : ∀ listOk : Bool,
    rd (afterWaking 4 strayLimping (wokenGrove strayLoadResource listOk strayLimping)) 0x4F00_0D = 3 := by decide +kernel

theorem strayRecordHub_loaded : loadDone strayRecordHub = loadFinished (withApproved (loadRecord strayCopy) strayBegun) := by
  have done : loadDone strayRecordHub = loadFinished (match bestCopy strayRecordHub with
      | some x => withApproved (loadRecord x) (loadBegun strayRecordHub)
      | none => loadBegun strayRecordHub) := rfl
  rw [done, strayRecordHub_best, strayRecordHub_begun]

theorem strayRecordHub_loadResult : rd (loadDone strayRecordHub) 0x4F00_0D = 3 := by
  obtain ⟨listOk, woken⟩ := wakeAll_grove strayLimping_asleep (by decide)
  have taken : configurationTaken (withApproved (loadRecord strayCopy) strayBegun)
      = afterWaking 4 strayLimping (wokenGrove strayLoadResource listOk strayLimping) := by
    rw [configurationTaken_eq, foresterUpdate_clearing stray_unbound stray_shown_clearing strayLimping_clearing]
    exact (changeMode_clearing 4 strayLimping_clearing).trans (congrArg _ woken)
  rw [strayRecordHub_loaded, rd_loadFinished, taken, loadResult_overwritten listOk]

end Sys2Proof.Machine

open Sys2Proof Sys2Proof.Machine

/-- Refutes O12: in its last clause the hub is any hub with a load under way, in CLEARING too, and its list of sleeping resources may name
one beyond the 40. In `strayRecordHub` the load's end takes the hub to LIMP for a slot UNBOUND; the transition out of CLEARING wakes that
resource as a Grove and overwrites the result at 0x4F00:0D. With the hub's own resources alone in the list no such hub arises. -/
theorem not_configurationIsStoredAndLoaded : ¬ Obligations.ConfigurationIsStoredAndLoaded := by
  unfold Obligations.ConfigurationIsStoredAndLoaded
  rintro ⟨-, -, -, -, -, -, -, loaded⟩
  have result : ∀ (h : Hub) (c : ConfigCopy), h.store.loading = true → bestCopy h = some c →
      formatAccepted (rd h 0x2001_01) c.version = true → rd (loadDone h) 0x4F00_0D = 0 := by
    intro h c loading best format
    obtain ⟨t, ran, -, -, -, taken⟩ := loaded { pending := [], hub := h } loading
    have left : t.hub = loadDone h :=
      congrArg State.hub (Host.Outcome.next.inj (ran.symm.trans (rfl : exec .configurationLoadDone { pending := [], hub := h } = _)))
    rw [← left]
    exact (taken c best format).2
  have lost := result strayRecordHub strayCopy rfl strayRecordHub_best strayRecordHub_format
  rw [strayRecordHub_loadResult] at lost
  exact absurd lost (by decide)

end

section
/-! Long entries and the halves of the host window (R74, R75, R77, R87, R88, R90, R781): what is latched, what is held, what takes
effect at once. -/

namespace Sys2Proof.Machine

/-! ### A run of slots written in order -/

/-- The words of a list as the contents of the slots from `base` on. -/
def slotCells (base : Nat) (ws : List Word) : List (Nat × Word) := ws.zipIdx.map fun e => (base + e.2, e.1)

theorem writeFields_append (a b : List (Nat × Word)) (h : Hub) : writeFields (a ++ b) h = writeFields b (writeFields a h) :=
  List.foldl_append ..

theorem slotCells_append_one (base : Nat) (ws : List Word) (w : Word) :
    slotCells base (ws ++ [w]) = slotCells base ws ++ [(base + ws.length, w)] := by
  simp [slotCells, List.zipIdx_append]

/-- Each slot of the run reads as its word, every other register as before. -/
theorem rdW_writeFields_slotCells (base : Nat) (ws : List Word) (h : Hub) (k : Nat) :
    rdW (writeFields (slotCells base ws) h) k = if base ≤ k ∧ k < base + ws.length then ws.getD (k - base) 0 else rdW h k := by
  induction ws using List.reverseRecOn with
  | nil => rw [if_neg (by simp)]; rfl
  | append_singleton ws w ih =>
    rw [slotCells_append_one, writeFields_append]
    show rdW (wrW (writeFields (slotCells base ws) h) (base + ws.length) w) k = _
    rw [rdW_wrW, ih, List.length_append, List.length_singleton]
    by_cases last : k = base + ws.length
    · subst last
      simp
    · by_cases inside : base ≤ k ∧ k < base + ws.length
      · rw [if_neg last, if_pos inside, if_pos (by omega), List.getD_append _ _ _ _ (by omega)]
      · rw [if_neg last, if_neg inside, if_neg (by omega)]

theorem writeFields_answer (ws : List (Nat × Word)) (h : Hub) : (writeFields ws h).answer = h.answer :=
  forEach_same (fun x => x.answer) _ _ _ fun _ _ _ => rfl

theorem writeFields_paths (ws : List (Nat × Word)) (h : Hub) : (writeFields ws h).paths = h.paths :=
  forEach_same (fun x => x.paths) _ _ _ fun _ _ _ => rfl

theorem slotKey_add (i f j : Nat) : slotKey i (f + j) = slotKey i f + j := (Nat.add_assoc _ _ _).symm

/-! ### Reads of a long entry (R74) -/

section
variable {p : Path} {i f n j v : Nat} {h : Hub}

/-- Reading the first slot latches the whole entry for the path. -/
theorem slotRead_longFirst (b : bufSlot i f = none) (e : shape i f = .long f n) :
    slotRead p i f h = (slotValue h p i f, setPath h p { pathState h p with
      longLatch := tabSet (pathState h p).longLatch (slotKey i f) (longContent h p i f n) }) := by
  simp [slotRead, b, e, longRead]

/-! ### Writes of a long entry (R75) -/

theorem writeSlot_of_long {sub : Nat} (w : pathWaits h p = false) (e : shape i sub = .long f n) :
    writeSlot p i sub v h = longWrite p i f n sub v h := by
  simp [writeSlot, w, e]

/-- The write of a slot that is not the last is held. -/
theorem longWrite_held (l : j + 1 < slotsOf n) (a : Accepted p i (f + j) v (entryCauses i (f + j) v) h) :
    longWrite p i f n (f + j) v h = holdLong p i f n j v (answered .accepted (writeBegun p i (f + j) h)) := by
  rw [longWrite, Nat.add_sub_cancel_left, if_neg (by omega)]
  exact pathTry_accepted a.1 a.2.2

theorem longHeld_holdLong (g : Hub) : (pathState (holdLong p i f n j v g) p).longHeld
    = some (slotKey i f, (heldLong g p i f n).set j (BitVec.ofNat 48 v)) := by
  unfold holdLong
  rw [pathState_setPath]

/-- The write of the last slot is a write of the whole entry, with what the path held of its other slots. -/
theorem longWrite_last (l : 1 ≤ slotsOf n) : longWrite p i f n (f + slotsOf n - 1) v h
    = wholeWrite p i f n (f + slotsOf n - 1) ((heldLong h p i f n).set (slotsOf n - 1) (BitVec.ofNat 48 v)) h := by
  rw [longWrite, show f + slotsOf n - 1 - f = slotsOf n - 1 from by omega, if_pos (by omega)]

/-- A whole entry that no cause refuses is stored, its slots at once. -/
theorem wholeWrite_accepted {sub : Nat} {ws : List Word} (b : bufSlot i f = none) (r : i ≠ 0x2B02) (c : i ≠ 0x2F02)
    (a : Accepted p i sub (bytesNat ((wordsBytes ws).take n)) (entryCauses i f 0) (dropLong p i f h)) :
    wholeWrite p i f n sub ws h
      = writeFields (slotCells (slotKey i f) (cutBytes n ws)) (writeStart p i sub (dropLong p i f h)) := by
  obtain ⟨isServed, noWait, noCause⟩ := a
  have stored : ∀ g, storeLong p i f n ws g = writeFields (slotCells (slotKey i f) (cutBytes n ws)) g := fun g => by
    simp only [storeLong, b, slotCells, slotKey_add]
  rw [wholeWrite, if_neg r, if_neg c, ← stored]
  exact pathWrite_accepted isServed noWait noCause

theorem length_cutBytes (n : Nat) (ws : List Word) : (cutBytes n ws).length = slotsOf n := length_bytesWords _ _

/-! ### What a path holds of long entries when a write begins -/

/-- What is held of another entry is dropped, and what is held of the entry itself stays (R75). -/
theorem longHeld_dropHeld (k : Nat) : (pathState (dropHeld p k h) p).longHeld
    = (pathState h p).longHeld.filter fun e => decide (e.1 ≤ k ∧ k < e.1 + e.2.length) := by
  unfold dropHeld
  dsimp only
  split
  · next k' ws held =>
    split
    · next inside => rw [held]; simp [Option.filter, inside]
    · next outside => rw [pathState_of (refuse_paths _ _ _ _ _ _), pathState_setPath, held]; simp [Option.filter, outside]
  · next held => simp [held]

theorem longHeld_writeBegun (sub : Nat) : (pathState (writeBegun p i sub h) p).longHeld
    = (pathState h p).longHeld.filter fun e => decide (e.1 ≤ slotKey i sub ∧ slotKey i sub < e.1 + e.2.length) := by
  have begun : (writeBegun p i sub h).paths = (dropHeld p (slotKey i sub) (touch p (hostTlp p 0x4A00_04 h))).paths := by
    unfold writeBegun dropHalf
    split <;> rfl
  have touched : (touch p (hostTlp p 0x4A00_04 h)).paths = h.paths := by
    unfold touch hostTlp
    split <;> split <;> rfl
  rw [pathState_of begun, longHeld_dropHeld, pathState_of touched]

theorem longHeld_writeStart (sub : Nat) : (pathState (writeStart p i sub h) p).longHeld
    = (pathState (writeBegun p i sub h) p).longHeld := by
  unfold writeStart
  rw [pathState_of (writeTaken_paths _ _ _ _), pathState_of (answered_paths _ _)]

theorem longHeld_dropLong : (pathState (dropLong p i f h) p).longHeld
    = (pathState h p).longHeld.filter fun e => e.1 != slotKey i f := by
  unfold dropLong
  rw [pathState_setPath]

/-- After a whole write nothing is held, of this entry or of one that its last slot does not belong to. -/
theorem longHeld_writeStart_dropLong {sub : Nat}
    (o : ∀ k vs, (pathState h p).longHeld = some (k, vs) → k = slotKey i f ∨ slotKey i sub < k ∨ k + vs.length ≤ slotKey i sub) :
    (pathState (writeStart p i sub (dropLong p i f h)) p).longHeld = none := by
  rw [longHeld_writeStart, longHeld_writeBegun, longHeld_dropLong]
  cases held : (pathState h p).longHeld with
  | none => rfl
  | some e =>
    have other := o e.1 e.2 held
    simp only [Option.filter_filter, Option.filter_eq_none_iff, Option.some.injEq, Bool.and_eq_true, decide_eq_true_eq, bne_iff_ne]
    rintro _ rfl
    omega

end

/-! ### The host window (R87, R88, R781) -/

section
variable {i j v : Nat} {h : Hub}

theorem hostRead_now {off size : Nat} (w : pathWaits h .host = false) : hostRead i j off size h
    = if off = 0 ∧ size = 8 then readSlot .host i j h else if off = 0 ∧ size = 4 then hostLowRead i j h
      else if off = 4 ∧ size = 4 then hostHighRead i j h else hostMisread i j h := by
  rw [hostRead, if_neg (by simp [w])]

/-- Four bytes of a slot are the low half of its read; the upper half is latched. -/
theorem hostLowRead_value (e : (readSlot .host i j h).answer = .value v) : hostLowRead i j h
    = answered (.value (v % 2 ^ 32)) { readSlot .host i j h with
        hostHalf := { (readSlot .host i j h).hostHalf with latch := some (slotKey i j, v / 2 ^ 32) } } := by
  simp only [hostLowRead, e]

theorem touch_hostHalf (p : Path) (h : Hub) : (touch p h).hostHalf = h.hostHalf := by
  unfold touch
  split
  · rfl
  · exact setSession_hostHalf _ _ _

theorem hostTlp_hostHalf (p : Path) (k : Nat) (h : Hub) : (hostTlp p k h).hostHalf = h.hostHalf := by
  unfold hostTlp
  split
  · exact bump_hostHalf _ _
  · rfl

/-- What a read of a slot leaves of the latched upper half: that of the slot itself. -/
theorem latch_readTouch : (readTouch .host i j h).hostHalf.latch = keepSlot (slotKey i j) h.hostHalf.latch := by
  have touched : (touch .host (hostTlp .host 0x4A00_05 h)).hostHalf = h.hostHalf :=
    (touch_hostHalf _ _).trans (hostTlp_hostHalf _ _ _)
  rw [readTouch, dropHalf, if_pos rfl, touched]

theorem hostHighRead_latched {lo : Nat} (s : served h .host = true) (m : msixSlot h .host i j = false)
    (l : h.hostHalf.latch = some (slotKey i j, lo)) : hostHighRead i j h = answered (.value lo) (readTouch .host i j h) := by
  have latched : (readTouch .host i j h).hostHalf.latch = some (slotKey i j, lo) := by
    rw [latch_readTouch, l]
    simp [keepSlot]
  simp only [hostHighRead, s, m, latched, not_true_eq_false, if_false, Bool.false_eq_true]

theorem hostHighRead_present (s : served h .host = true) (m : msixSlot h .host i j = false) (l : h.hostHalf.latch = none)
    (e : refusalCode (slotCauses (readTouch .host i j h) i j) = none) :
    hostHighRead i j h = answered (.value (presentValue i j (readTouch .host i j h) / 2 ^ 32)) (readTouch .host i j h) := by
  have noLatch : (readTouch .host i j h).hostHalf.latch = none := by
    rw [latch_readTouch, l]
    rfl
  simp only [hostHighRead, s, m, noLatch, e, not_true_eq_false, if_false, Bool.false_eq_true]

/-- A slot that a read does not find absent is none of the MSI-X structures. -/
theorem msixSlot_of_readable {g : Hub} {p : Path} (e : refusalCode (readCauses g i j) = none) : msixSlot h p i j = false := by
  by_contra m
  rw [Bool.not_eq_false] at m
  have present := ((refusalCode_none _).1 e).1
  exact absurd (absentEntry_of_msixSlot m g) (by simpa [readCauses] using present)

theorem refuseRead_answer (p : Path) (c : Nat) : (refuseRead p i j c h).answer = .refused c := by
  unfold refuseRead
  exact (whenDo_same (fun x => x.answer) _ _ _ rfl).trans (refuse_answer _ _ _ _ _ _)

/-- A read of another size or alignment is refused with 0x07 where nothing else refuses it. -/
theorem hostMisread_answer (s : served h .host = true) (e : refusalCode (readCauses (readTouch .host i j h) i j) = none) :
    (hostMisread i j h).answer = .refused 7 := by
  have noMsix : msixSlot h .host i j = false := msixSlot_of_readable e
  rw [hostMisread, if_neg (by simp [noMsix]), if_pos s, refuseRead_answer, refusalCode_size e]
  rfl

theorem hostHalfWrite_now {upper : Bool} (w : pathWaits h .host = false) (m : msixSlot h .host i j = false) : hostHalfWrite i j upper v h
    = if upper then hostUpperWrite i j v h else if wide h i j then holdHalf i j v h else writeSlot .host i j (v % 2 ^ 32) h := by
  rw [hostHalfWrite, if_neg (by simp [w]), if_neg (by simp [m])]

/-- What a half that takes no effect yet is tested for: only that its slot is there. -/
theorem refusalCode_present {c : Causes} (o : refusalCode c = none) : refusalCode { absent := c.absent, noSub := c.noSub } = none := by
  obtain ⟨absent, noSub, -⟩ := (refusalCode_none c).1 o
  simp [refusalCode, absent, noSub]

theorem holdHalf_open (o : WriteOpen .host i j v h) : holdHalf i j v h = { answered .accepted (writeBegun .host i j h) with
    hostHalf := { (writeBegun .host i j h).hostHalf with half := some (slotKey i j, v % 2 ^ 32) } } :=
  pathTry_accepted o.1 (refusalCode_present o.2.2)

theorem not_narrow_of_wide (n : wide h i j = true) : narrow h i j = false := by simp [narrow, n]

theorem hostUpperWrite_narrow (n : narrow h i j = true) (o : WriteOpen .host i j v h) :
    hostUpperWrite i j v h = answered .accepted (writeBegun .host i j h) := by
  rw [hostUpperWrite, if_pos n]
  exact pathTry_accepted o.1 (refusalCode_present o.2.2)

/-- The upper half with the held lower one is the write of the whole slot; nothing is held after it. -/
theorem hostUpperWrite_whole {lo : Nat} (n : wide h i j = true) (l : h.hostHalf.half = some (slotKey i j, lo)) : hostUpperWrite i j v h
    = { writeSlot .host i j (lo + v % 65536 * 2 ^ 32) h with
        hostHalf := { (writeSlot .host i j (lo + v % 65536 * 2 ^ 32) h).hostHalf with half := none } } := by
  have held : keepSlot (slotKey i j) h.hostHalf.half = some (slotKey i j, lo) := by simp [keepSlot, l]
  simp only [hostUpperWrite, not_narrow_of_wide n, held, Bool.false_eq_true, if_false]

theorem hostUpperWrite_alone (n : wide h i j = true) (l : h.hostHalf.half = none) :
    hostUpperWrite i j v h = wrongSize .host i j none h := by
  have noHalf : keepSlot (slotKey i j) h.hostHalf.half = none := by rw [l]; rfl
  simp only [hostUpperWrite, not_narrow_of_wide n, noHalf, Bool.false_eq_true, if_false]

end

/-! ### Accesses that wait (R77, R90) -/

theorem hostRead_waits {i j off size : Nat} {h : Hub} (s : served h .host = true) (w : pathWaits h .host = true) :
    hostRead i j off size h = holdAccess (.hostRead none [] (8 * slotKey i j + off) size) h := by
  rw [hostRead, if_pos ⟨s, w⟩]

theorem writeSlot_waits {p : Path} {i j v : Nat} {h : Hub} (s : served h p = true) (w : pathWaits h p = true) :
    writeSlot p i j v h = holdAccess (.slotWrite p i j v) h := by
  rw [writeSlot, if_pos (by simp [s, w])]

end Sys2Proof.Machine

open Sys2Proof Sys2Proof.Machine

/-- Settles O10: a long entry is latched by its first read and stored by its last write, a half of the host window by `hostHalf`, and what
comes behind an unfinished write of its path waits. -/
theorem longEntriesAndHalvesAreWhole : Obligations.LongEntriesAndHalvesAreWhole := by
  unfold Obligations.LongEntriesAndHalvesAreWhole
  refine ⟨fun p i f n s isServed noWait e b l readable => ?firstRead, fun p i f n j v s e l a => ?slotHeld,
    fun p i f n v ws s e l b notResponse notChunk noWait hws o a => ?lastSlot, fun i j v s noWait e => ?lowRead,
    fun i j v s m w o => ?lowerHalf, fun i j lo v s noWait m w l => ?upperHalf, fun i j v s m w l o => ?upperAlone,
    fun i j lo s isServed noWait m => ?highRead, fun i j off size s isServed noWait n8 n4 n44 readable => ?misread,
    fun i j off size s isServed waits => ?readWaits, fun p i j v s isServed waits => ?writeWaits, fun i j v s m n o => ?ignored⟩
  case firstRead =>
    have noBarrier : ¬ (i = 0x2A02 ∧ f = 1) := by
      rintro ⟨rfl, rfl⟩
      exact absurd e (by have single : shape 0x2A02 1 = .single := by decide +kernel
                         simp [single])
    have paths : pathState (readTouch p i f s.hub) p = pathState s.hub p := pathState_of (readTouch_paths p i f s.hub) p
    have latch : ∀ x g, pathState (answered x (setPath (readTouch p i f s.hub) p g)) p = g := fun x g => pathState_setPath _ _ _
    refine ⟨_, onHub_eq_next (readSlot_value isServed noWait l noBarrier readable), ?_⟩
    rw [slotRead_longFirst b e]
    dsimp only
    refine ⟨rfl, ?_, fun k other => ?_, rfl⟩
    · rw [latch]; exact tabFind_tabSet_self _ _ _
    · rw [latch]; exact (tabFind_tabSet_ne _ _ other).trans (by rw [paths])
  case slotHeld =>
    refine ⟨_, onHub_eq_next ((writeSlot_of_long a.2.1 e).trans (longWrite_held l a)), rfl, longHeld_holdLong _, ?_⟩
    exact (kept_writeBegun p i (f + j) s.hub).same rfl
  case lastSlot =>
    subst hws
    have last := slotKey_add i f (slotsOf n - 1)
    rw [← Nat.add_sub_assoc l] at last
    have written := (writeSlot_of_long noWait e).trans ((longWrite_last l).trans (wholeWrite_accepted b notResponse notChunk a))
    refine ⟨_, onHub_eq_next written, ?_, ?_, fun j inside => ?_, fun k outside => ?_⟩
    · exact (writeFields_answer _ _).trans (writeStart_answer _ _ _ _)
    · dsimp only
      rw [pathState_of (writeFields_paths _ _)]
      exact longHeld_writeStart_dropLong o
    · dsimp only
      rw [rdW_writeFields_slotCells, length_cutBytes, slotKey_add, if_pos (by omega), Nat.add_sub_cancel_left]
    · have away := outside _ List.mem_cons_self
      dsimp only at away ⊢
      rw [rdW_writeFields_slotCells, length_cutBytes, if_neg (by omega)]
      exact kept_writeStart p i _ (dropLong p i f s.hub) k fun r m => outside r (List.mem_cons_of_mem _ m)
  case lowRead =>
    exact ⟨onHub_eq_next ((hostRead_now noWait).trans (if_pos ⟨rfl, rfl⟩)), _,
      onHub_eq_next ((hostRead_now noWait).trans (hostLowRead_value e)), rfl, rfl, rfl⟩
  case lowerHalf =>
    have half : hostHalfWrite i j false v s.hub = holdHalf i j v s.hub := by rw [hostHalfWrite_now o.2.1 m, w]; rfl
    exact ⟨_, onHub_eq_next (half.trans (holdHalf_open o)), rfl, rfl, (kept_writeBegun .host i j s.hub).same rfl⟩
  case upperHalf =>
    exact ⟨_, onHub_eq_next ((hostHalfWrite_now noWait m).trans (hostUpperWrite_whole w l)), rfl, rfl⟩
  case upperAlone =>
    have refused := (hostUpperWrite_alone (v := v) w l).trans (wrongSize_refused o)
    exact ⟨_, onHub_eq_next ((hostHalfWrite_now o.2.1 m).trans refused), refuse_answer _ _ _ _ _ _, kept_refusedWrite _ _ _ _ _⟩
  case highRead =>
    have touched := readTouch_paths .host i j s.hub
    exact ⟨fun l => ⟨_, onHub_eq_next ((hostRead_now noWait).trans (hostHighRead_latched isServed m l)), rfl, rfl, touched⟩,
      fun l e => ⟨_, onHub_eq_next ((hostRead_now noWait).trans (hostHighRead_present isServed m l e)), rfl, rfl, touched⟩⟩
  case misread =>
    have mis : hostRead i j off size s.hub = hostMisread i j s.hub := by
      rw [hostRead_now noWait, if_neg n8, if_neg n4, if_neg n44]
    exact ⟨_, onHub_eq_next mis, hostMisread_answer isServed readable⟩
  case readWaits => exact ⟨_, onHub_eq_next (hostRead_waits isServed waits), rfl, rfl, rfl⟩
  case writeWaits =>
    have held : ∃ t, onHub s (writeSlot p i j v) = .next t ∧ t.hub.answer = .none ∧ t.hub.dict = s.hub.dict
        ∧ t.hub.host.waiting = s.hub.host.waiting ++ [.slotWrite p i j v] :=
      ⟨_, onHub_eq_next (writeSlot_waits isServed waits), rfl, rfl, rfl⟩
    intro c row
    simp only [List.mem_cons, List.not_mem_nil, or_false] at row
    rcases row with rfl | rfl | rfl <;> exact held
  case ignored =>
    have none := (hostHalfWrite_now (upper := true) o.2.1 m).trans (hostUpperWrite_narrow n o)
    exact ⟨_, onHub_eq_next none, rfl, (kept_writeBegun .host i j s.hub).same rfl⟩

end

section
/-! Access over the ring and the remote-access mailbox (R77, R94 to R100): what a request of another hub is answered, and how an operation
of the mailbox starts and ends. -/

namespace Sys2Proof.Machine

/-! ### RC entries are none of the low registers -/

theorem mem_of_findObj {i : Nat} {l : List Obj} {o : Obj} (e : findObj i l = some o) : o ∈ l ∧ o.ix ≤ i := by
  induction l with
  | nil => exact absurd e (by simp [findObj])
  | cons x l ih =>
    unfold findObj at e
    split at e
    · next inside => cases e; exact ⟨List.mem_cons_self, inside.1⟩
    · exact ⟨List.mem_cons_of_mem _ (ih e).1, (ih e).2⟩

theorem mem_of_findRow {j : Nat} {l : List Row} {r : Row} (e : findRow j l = some r) : r ∈ l := by
  induction l with
  | nil => exact absurd e (by simp [findRow])
  | cons x l ih =>
    unfold findRow at e
    split at e
    · cases e; exact List.mem_cons_self
    · exact List.mem_cons_of_mem _ (ih e)

/-- No index up to 0x2000 has an RC entry. -/
theorem rcIndex_of_table : ∀ o ∈ entryTable, ∀ r ∈ o.rows, r.acc = .rc → 0x2001 ≤ o.ix := by decide +kernel

theorem slotKey_of_rc {i j : Nat} (c : slotAcc i j = some .rc) : 0x2001_00 ≤ slotKey i j := by
  obtain ⟨r, row, acc⟩ := Option.map_eq_some_iff.1 c
  obtain ⟨o, obj, found⟩ := Option.bind_eq_some_iff.1 row
  obtain ⟨listed, low⟩ := mem_of_findObj obj
  have high := rcIndex_of_table o listed r (mem_of_findRow found) acc
  unfold slotKey
  omega

/-! ### What a read leaves of the registers -/

theorem rdW_readEffect (p : Path) (i j : Nat) (h : Hub) (k : Nat) (n : slotAcc i j = some .rc → k ≠ slotKey i j) :
    rdW (readEffect p i j h) k = rdW h k := by
  unfold readEffect
  split
  · next c => rw [rdW_wr, if_neg (n c)]
  · split
    · dsimp only
      rfl
    · split <;> rfl

theorem dict_longRead (p : Path) (i f n j : Nat) (h : Hub) : (longRead p i f n j h).2.dict = h.dict := by
  unfold longRead
  dsimp only
  split <;> rfl

/-- A read writes no register but that of an RC entry. -/
theorem rdW_slotRead (p : Path) (i j : Nat) (h : Hub) (k : Nat) (n : slotAcc i j = some .rc → k ≠ slotKey i j) :
    rdW (slotRead p i j h).2 k = rdW h k := by
  have long : ∀ f b m, rdW (longRead p i f b m h).2 k = rdW h k := fun f b m => by unfold rdW; rw [dict_longRead]
  have effect := rdW_readEffect p i j h k n
  unfold slotRead
  dsimp only
  split
  · split
    · rfl
    · split
      · exact long _ _ _
      · exact effect
  · rfl
  · split <;> rfl
  · exact long _ _ _
  · exact effect

/-- A read over the ring leaves the hub's number. -/
theorem hubNumber_readSlot_ring (src i j : Nat) (h : Hub) : hubNumber (readSlot (.ring src) i j h) = hubNumber h := by
  have touched : hubNumber (readTouch (.ring src) i j h) = hubNumber h := (kept_readTouch _ i j h).rd_eq 0x2000_09 (by decide)
  have refused : ∀ x y c, hubNumber (refuse (.ring src) x y c false (readTouch (.ring src) i j h)) = hubNumber h := fun x y c =>
    ((kept_refuse _ x y c false _).rd_eq 0x2000_09 (by decide)).trans touched
  have value : hubNumber (slotRead (.ring src) i j (readTouch (.ring src) i j h)).2 = hubNumber h := by
    refine (congrArg BitVec.toNat (rdW_slotRead _ i j _ 0x2000_09 fun c => ?_)).trans touched
    have := slotKey_of_rc c
    omega
  have process : hubNumber (processRead (.ring src) i j (readTouch (.ring src) i j h)) = hubNumber h := by
    unfold processRead
    split
    · exact refused _ _ _
    · split
      · exact touched
      · exact refused _ _ _
  unfold readSlot
  dsimp only
  split
  · rfl
  · split
    · rfl
    · split
      · split
        · exact refused _ _ _
        · split
          · exact refused _ _ _
          · split
            · exact process
            · exact value
      · rfl

/-! ### Requests of other hubs (R94 to R98) -/

theorem hubNumber_of_served {src : Nat} {h : Hub} (s : served h (.ring src) = true) : hubNumber h ≠ 0 := by
  simp only [served, Bool.and_eq_true, bne_iff_ne] at s
  exact s.1.1.1

/-- A response is queued at Ranger's port, to the requester in class MG. -/
theorem portFrames_sendDictResponse {h : Hub} (n : hubNumber h ≠ 0) (src w st : Nat) (ws : List Word) :
    portFrames (sendDictResponse src w st ws h) 6
      = portFrames h 6 ++ [newFrame h 4 .mg src 0 0 (BitVec.ofNat 48 (w + st) :: ws)] := by
  have queued := portFrames_originate n 6 4 .mg src 0 0 (BitVec.ofNat 48 (w + st) :: ws)
  unfold sendDictResponse
  dsimp only
  split
  · exact queued
  · split <;> exact queued

/-- A response with status 0 is counted at 0x4001:08 (R94). -/
theorem kept_sendDictResponse_served (src w : Nat) (ws : List Word) (h : Hub) :
    KeptBut [(0x4001_08, 0x4001_08)] h (sendDictResponse src w 0 ws h) :=
  KeptBut.bump (fun k _ => rdW_originate h _ _ _ _ _ _ _ k) _ ⟨_, List.mem_cons_self, le_rfl, le_rfl⟩

/-- A response writes no register but the counts of requests. -/
theorem kept_sendDictResponse (src w st : Nat) (ws : List Word) (h : Hub) :
    KeptBut [(0x4001_08, 0x4001_09)] h (sendDictResponse src w st ws h) := by
  have sent : KeptBut [(0x4001_08, 0x4001_09)] h (originate h 6 4 .mg src 0 0 (BitVec.ofNat 48 (w + st) :: ws)) :=
    fun k _ => rdW_originate h _ _ _ _ _ _ _ k
  unfold sendDictResponse
  dsimp only
  split
  · exact sent.bump _ ⟨_, List.mem_cons_self, by decide, by decide⟩
  · split
    · exact sent.bump _ ⟨_, List.mem_cons_self, by decide, by decide⟩
    · exact sent

section
variable {src op tag i j count : Nat} {data : List Nat} {h : Hub}

theorem ringDictRequest_refused {c : Nat} (n : hubNumber h ≠ 255) (s : served h (.ring src) = true)
    (e : refusalCode (requestCauses h (.ring src) op i j count data) = some c) :
    ringDictRequest src (hubNumber h) op tag i j count data h
      = sendDictResponse src (responseHead op tag i j) c [] (refuse (.ring src) i j c (op == 2) h) := by
  simp only [ringDictRequest, n, s, e, if_false, ne_eq, not_true_eq_false, or_self]

theorem ringDictRequest_waits (n : hubNumber h ≠ 255) (s : served h (.ring src) = true) (w : pathWaits h (.ring src) = true)
    (e : refusalCode (requestCauses h (.ring src) op i j count data) = none) :
    ringDictRequest src (hubNumber h) op tag i j count data h = holdAccess (.request src op tag i j count data) h := by
  simp only [ringDictRequest, n, s, e, w, if_true, if_false, ne_eq, not_true_eq_false, or_self]

theorem ringDictRequest_serves (n : hubNumber h ≠ 255) (s : served h (.ring src) = true) (w : pathWaits h (.ring src) = false)
    (e : refusalCode (requestCauses h (.ring src) op i j count data) = none) :
    ringDictRequest src (hubNumber h) op tag i j count data h = serveDict src op tag i j count data h := by
  simp only [ringDictRequest, n, s, e, w, if_false, ne_eq, not_true_eq_false, or_self, Bool.false_eq_true]

end

section
variable {src tag i j v : Nat} {h : Hub}

/-- A read that gave its value at once is answered with it. -/
theorem serveDict_read (a : (readSlot (.ring src) i j h).answer = .value v)
    (w : (readSlot (.ring src) i j h).canopen.writes = h.canopen.writes) :
    serveDict src 1 tag i j 1 [] h
      = sendDictResponse src (responseHead 1 tag i j) 0 [BitVec.ofNat 48 v] (readSlot (.ring src) i j h) := by
  show requestAnswer _ _ _ (readSlot (.ring src) i j h) = _
  simp only [requestAnswer, w, a, lt_self_iff_false, if_false]

/-- A write that took effect at once is answered as accepted. -/
theorem serveDict_write (a : (writeSlot (.ring src) i j v h).answer = .accepted)
    (w : (writeSlot (.ring src) i j v h).canopen.writes = h.canopen.writes) :
    serveDict src 2 tag i j 1 [v] h = sendDictResponse src (responseHead 2 tag i j) 0 [] (writeSlot (.ring src) i j v h) := by
  show requestAnswer _ _ _ (writeSlot (.ring src) i j v h) = _
  simp only [requestAnswer, w, a, lt_self_iff_false, if_false]

end

/-! ### The mailbox (R99, R100) -/

theorem writeStart_mailbox (p : Path) (i j : Nat) (h : Hub) : (writeStart p i j h).mailbox = h.mailbox := by
  have taken : ∀ g : Hub, (writeTaken p i j g).mailbox = g.mailbox := fun g => by
    unfold writeTaken endHalf
    split <;> simp
  simp [writeStart, taken]

/-- An operation that no cause refuses starts. -/
theorem mailboxWrite_open {p : Path} {op : Nat} {h : Hub} (o : WriteOpen p 0x2002 5 op h) (idle : h.mailbox.pending = none) :
    mailboxWrite p op h = mailboxStart op (writeStart p 0x2002 5 h) := by
  refine pathWrite_accepted o.1 o.2.1 ?_
  rw [writeBegun_mailbox, idle, Option.isSome_none, Bool.or_false]
  exact o.2.2

/-- The operation is noted as pending, its status reads 0xFF. -/
def mailboxPending (op : Nat) (h : Hub) : Hub :=
  wr { h with mailbox := { pending := some (h.mailbox.nextTag % 256), isRead := op == 1, nextTag := h.mailbox.nextTag % 256 + 1 } } 0x2002_06 0xFF

/-- Word 0 of the mailbox's request (Table 4). -/
def mailboxHead (op : Nat) (h : Hub) : Word :=
  BitVec.ofNat 48 (op * 2 ^ 40 + h.mailbox.nextTag % 256 * 2 ^ 32 + rd h 0x2002_02 * 2 ^ 16 + rd h 0x2002_03 * 2 ^ 8 + 1)

theorem mailboxStart_present {h : Hub} (m : rd h 0x2002_01 ∈ othersPresent h) (op : Nat) : mailboxStart op h
    = originate (mailboxPending op h) 6 4 .mg (rd h 0x2002_01) 0 0
        (mailboxHead op h :: if op = 2 then [rdW h 0x2002_04] else []) := by
  have there : rd h 0x2002_01 ∈ presentHubs h := List.mem_append_right _ m
  simp only [othersPresent, List.mem_filter, Bool.and_eq_true, bne_iff_ne] at m
  exact if_neg (by simp only [m.2.1.1, m.2.1.2, there, not_true_eq_false, or_self, not_false_eq_true])

theorem mailboxStart_absent {h : Hub} (m : rd h 0x2002_01 ∉ othersPresent h) (op : Nat) : mailboxStart op h = mailboxDone 0xFD h := by
  refine if_pos ?_
  by_contra near
  simp only [not_or, not_not] at near
  obtain ⟨nonzero, other, there⟩ := near
  rcases List.mem_append.1 there with self | there
  · split at self
    · exact absurd self (by simp)
    · exact other (List.mem_singleton.1 self)
  · exact m there

/-- A started operation: its tag is pending, its status reads 0xFF, its request has left for the target. -/
theorem mailboxStart_spec {h : Hub} (m : rd h 0x2002_01 ∈ othersPresent h) (n : hubNumber h ≠ 0) (op : Nat) :
    (mailboxStart op h).mailbox.pending = some (h.mailbox.nextTag % 256) ∧ rd (mailboxStart op h) 0x2002_06 = 0xFF
      ∧ portFrames (mailboxStart op h) 6 = portFrames h 6 ++ [newFrame (mailboxPending op h) 4 .mg (rd h 0x2002_01) 0 0
          (mailboxHead op h :: if op = 2 then [rdW h 0x2002_04] else [])]
      ∧ KeptBut [(0x2002_06, 0x2002_06)] h (mailboxStart op h) := by
  have number : hubNumber (mailboxPending op h) ≠ 0 := fun z => n ((rd_wr_ne _ _ _ _ (by decide)).symm.trans z)
  rw [mailboxStart_present m]
  refine ⟨?_, ?_, portFrames_originate number _ _ _ _ _ _ _, fun k outside => ?_⟩
  · rw [originate_mailbox]
    rfl
  · rw [rd_originate]
    exact rd_wr_self _ _ _
  · rw [rdW_originate]
    exact kept_wr _ _ _ k outside

/-- The end of an operation: nothing pending, its status, EV_DICT_REMOTE_DONE. -/
theorem mailboxDone_spec {st : Nat} (l : st < 2 ^ 48) (h : Hub) : (mailboxDone st h).mailbox.pending = none
    ∧ rd (mailboxDone st h) 0x2002_06 = st ∧ eventPending (mailboxDone st h) 4 = true
    ∧ KeptBut ((0x2002_06, 0x2002_06) :: eventRanges) h (mailboxDone st h) := by
  unfold mailboxDone
  refine ⟨?_, ?_, eventPending_raiseEvent _ _ _ _ _ (by decide) (.inl rfl), ?_⟩
  · rw [raiseEvent_mailbox]
    rfl
  · rw [rd_raiseEvent_of _ _ _ _ _ (by decide) (by decide), rd_wr_self, Nat.mod_eq_of_lt l]
  · refine KeptBut.after_raiseEvent ?_ _ _ _ (by decide) fun _ m => List.mem_cons_of_mem _ m
    exact (kept_wr { h with mailbox := { h.mailbox with pending := none } } _ _).mono fun _ m => List.mem_cons.2 (.inl (List.mem_singleton.1 m))

/-- A response to the pending operation ends it; a read's data goes to 0x2002:04. -/
theorem mailboxResponse_pending {tag st data : Nat} {h : Hub} (e : h.mailbox.pending = some tag) : mailboxResponse tag st data h
    = mailboxDone st (if h.mailbox.isRead ∧ st = 0 then wr h 0x2002_04 data else h) := by
  rw [mailboxResponse, if_pos e]
  unfold whenDo
  simp only [Bool.and_eq_true, beq_iff_eq]

end Sys2Proof.Machine

open Sys2Proof Sys2Proof.Machine

/-- Settles O11: a request that is served comes to `readSlot` or `writeSlot` and `sendDictResponse`, an operation of the mailbox to
`mailboxStart` and `mailboxDone`. -/
theorem remoteDictionaryAccess : Obligations.RemoteDictionaryAccess := by
  unfold Obligations.RemoteDictionaryAccess
  refine ⟨fun src op tag i j count data s => ?broadcast, fun src tag i j v s isServed noWait n e a w => ?read,
    fun src tag i j v s isServed noWait n e a z w => ?write, fun src op tag i j count data c s isServed n _ _ e => ?refused,
    fun src op tag i j count data s isServed waits n e => ?waits, fun p s o idle m n => ?mailboxRead,
    fun p s o idle m n => ?mailboxWrite, fun p s o idle m => ?absent, fun tag st data s e l l' => ?response, fun s e => ?timeout⟩
  case broadcast => exact ⟨_, onHub_eq_next (if_pos rfl), rfl⟩
  case read =>
    have number : hubNumber (readSlot (.ring src) i j s.hub) ≠ 0 := hubNumber_readSlot_ring src i j s.hub ▸ hubNumber_of_served isServed
    have served := (ringDictRequest_serves (tag := tag) n isServed noWait e).trans (serveDict_read a w)
    exact ⟨_, _, onHub_eq_next served, portFrames_sendDictResponse number _ _ _ _, rfl, rfl, rfl, rfl, kept_sendDictResponse_served _ _ _ _⟩
  case write =>
    have served := (ringDictRequest_serves (tag := tag) n isServed noWait e).trans (serveDict_write a w)
    exact ⟨_, _, onHub_eq_next served, portFrames_sendDictResponse z _ _ _ _, rfl, rfl, rfl, rfl⟩
  case refused =>
    have small := refusalCode_le e
    have number : hubNumber (refuse (.ring src) i j c (op == 2) s.hub) ≠ 0 := by
      rw [hubNumber, (kept_refuse (.ring src) i j c (op == 2) s.hub).rd_eq 0x2000_09 (by decide)]
      exact hubNumber_of_served isServed
    have counted := kept_sendDictResponse src (responseHead op tag i j) c [] (refuse (.ring src) i j c (op == 2) s.hub)
    refine ⟨_, _, _, onHub_eq_next (ringDictRequest_refused n isServed e), portFrames_sendDictResponse number _ _ _ _, rfl, rfl, ?_, ?_⟩
    · exact (counted.rd_eq 0x4001_02 (by decide)).trans (rd_refuse_path _ _ _ _ _ _)
    · exact (counted.rd_eq 0x4001_05 (by decide)).trans (rd_refuse_code _ _ _ _ _ _ (by omega))
  case waits => exact ⟨_, onHub_eq_next (ringDictRequest_waits n isServed waits e), rfl, rfl⟩
  case mailboxRead =>
    have same := updateSame_writeStart p 0x2002 5 s.hub
    have target : rd (writeStart p 0x2002 5 s.hub) 0x2002_01 = rd s.hub 0x2002_01 := same.kept.rd_eq _ (by decide)
    obtain ⟨pending, status, frame, kept⟩ := mailboxStart_spec (h := writeStart p 0x2002 5 s.hub) (by rw [target, same.present]; exact m)
      (by rw [same.number]; exact n) 1
    refine ⟨_, _, _, onHub_eq_next (mailboxWrite_open o idle), ?_, status, frame, target, rfl, same.kept_after kept⟩
    rw [← writeStart_mailbox p 0x2002 5 s.hub]
    exact pending
  case mailboxWrite =>
    have same := updateSame_writeStart p 0x2002 5 s.hub
    have target : rd (writeStart p 0x2002 5 s.hub) 0x2002_01 = rd s.hub 0x2002_01 := same.kept.rd_eq _ (by decide)
    have word : rdW (writeStart p 0x2002 5 s.hub) 0x2002_04 = rdW s.hub 0x2002_04 := same.kept _ (by decide)
    obtain ⟨pending, status, frame, kept⟩ := mailboxStart_spec (h := writeStart p 0x2002 5 s.hub) (by rw [target, same.present]; exact m)
      (by rw [same.number]; exact n) 2
    refine ⟨_, _, _, mailboxHead 2 (writeStart p 0x2002 5 s.hub), onHub_eq_next (mailboxWrite_open o idle), ?_, status, frame, target, ?_, same.kept_after kept⟩
    · rw [← writeStart_mailbox p 0x2002 5 s.hub]
      exact pending
    · rw [← word]
      rfl
  case absent =>
    have same := updateSame_writeStart p 0x2002 5 s.hub
    have target : rd (writeStart p 0x2002 5 s.hub) 0x2002_01 = rd s.hub 0x2002_01 := same.kept.rd_eq _ (by decide)
    have ended := (mailboxWrite_open o idle).trans (mailboxStart_absent (by rw [target, same.present]; exact m) 1)
    obtain ⟨noPending, status, event, -⟩ := mailboxDone_spec (st := 0xFD) (by decide) (writeStart p 0x2002 5 s.hub)
    exact ⟨_, onHub_eq_next ended, status, event, noPending⟩
  case response =>
    obtain ⟨noPending, status, event, kept⟩ := mailboxDone_spec l (if s.hub.mailbox.isRead ∧ st = 0 then wr s.hub 0x2002_04 data else s.hub)
    refine ⟨_, onHub_eq_next (mailboxResponse_pending e), noPending, status, ?_, event, fun k outside => ?_⟩
    · refine (kept.rd_eq 0x2002_04 (by decide)).trans ?_
      split
      · rw [rd_wr_self, Nat.mod_eq_of_lt l']
      · rfl
    · have away := outside _ List.mem_cons_self
      refine (kept k fun r m => ?_).trans ?_
      · rcases List.mem_cons.1 m with rfl | m
        · dsimp only at away ⊢; omega
        · exact outside r (List.mem_cons_of_mem _ m)
      · split
        · rw [rdW_wr, if_neg (by omega)]
        · rfl
  case timeout =>
    obtain ⟨noPending, status, event, kept⟩ := mailboxDone_spec (st := 0xFE) (by decide) s.hub
    exact ⟨_, onHub_eq_next (if_pos e), noPending, status, event, kept⟩

end

section
/-! Ring links in CLEARING: an event does not outlast a sleeping resource beyond the hub's own (R44, R46, R166, R667). The text is compiled
as one, and each lemma elaborated beside the others takes a thread with a stack of its own: these are elaborated one after the other. -/
set_option Elab.async false

namespace Sys2Proof.Machine

/-! ### A ring state that takes the hub from CLEARING to LIMP -/

/-- The hub with its ring state shown, as the LIMP causes find it. -/
def ringShown (h : Hub) : Hub :=
  wr { h with ring := { h.ring with lostA := ringLost h false, lostB := ringLost h true } } 0x4100_03
    (setBit (setBit (rd h 0x4100_03) 0 (!ringLost h false && !isolated h)) 1 (!ringLost h true && !isolated h))

/-- That hub with the loss of ring A noted as a cause of LIMP. -/
def lossNoted (h : Hub) : Hub := wr (ringShown h) 0x2000_06 (setBit (rd (ringShown h) 0x2000_06) 1 true)

/-- What the evaluation of the ring state of `h` does once the first LIMP cause has been written, which gave `g`. -/
def ringTold (h g : Hub) : Hub :=
  whenDo (ringLost h false != h.ring.lostA || ringLost h true != h.ring.lostB) (fun x => raiseEvent x 0x0E 0 0)
    (setLimpCause 2 (ringLost h true && !isolated h) g)

theorem ringUpdate_eq (h : Hub) : ringUpdate h = ringTold h (setLimpCause 1 (ringLost h false && !isolated h) (ringShown h)) := rfl

theorem setLimpCause_clearing {b : Nat} {h : Hub} (m : mode (wr h 0x2000_06 (setBit (rd h 0x2000_06) b true)) = 5) :
    setLimpCause b true h = changeMode 4 (wr h 0x2000_06 (setBit (rd h 0x2000_06) b true)) := by
  unfold setLimpCause
  dsimp only
  rw [m]
  rfl

/-- A hub in CLEARING that has lost ring A and is not isolated, with one resource asleep, a Grove of which no list was saved. -/
def LosesRingA (j : Nat) (h : Hub) : Prop :=
  (ringLost h false && !isolated h) = true ∧ mode (lossNoted h) = 5 ∧ (lossNoted h).sleep.asleep = [j] ∧ 32 ≤ j ∧ h.power.save = []

/-- A Grove of which no list was saved wakes as one whose list has not stood. -/
theorem wokenGrove_unsaved {h : Hub} (none : h.power.save = []) (j : Nat) (listOk : Bool) : wokenGrove j listOk h = wokenGrove j false h := by
  have bad : saveGood (takeFree { h with sleep := { h.sleep with asleep := h.sleep.asleep.filter (· != j) } }).2 (j - 32) = false := by
    have same : (takeFree { h with sleep := { h.sleep with asleep := h.sleep.asleep.filter (· != j) } }).2.power = h.power := rfl
    unfold saveGood
    rw [same, none]
    rfl
  unfold wokenGrove
  rw [groveOn_bad (.inr bad), groveOn_bad (.inr bad)]

/-- Such a hub wakes what sleeps and goes to LIMP. -/
theorem ringUpdate_clearing {h : Hub} {j : Nat} (x : LosesRingA j h) :
    ringUpdate h = ringTold h (afterWaking 4 (lossNoted h) (wokenGrove j false (lossNoted h))) := by
  obtain ⟨lost, clearing, one, grove, unsaved⟩ := x
  obtain ⟨listOk, woken⟩ := wakeAll_grove one grove
  have limp : setLimpCause 1 true (ringShown h) = changeMode 4 (lossNoted h) := setLimpCause_clearing clearing
  rw [ringUpdate_eq, lost, limp, changeMode_clearing 4 clearing, woken, wokenGrove_unsaved (h := lossNoted h) unsaved]

/-! ### A hub in CLEARING whose list of sleeping resources names no Grove of its own -/

/-- A number beyond the 40 resources. As a Grove, 32 below it, its state would stand at 0x4E10:01, where the pending bits of the first 48
events stand. -/
def strayEventResource : Nat := 32 + (0x4E10_01 - 0x4D11_01)

/-- Hub 5 in CLEARING, with hub 9 beside it on both rings and its receive directions in these states, that lists this resource as asleep. -/
def strayRingHub (east west : Nat) : Hub :=
  { wrs Hub.reset [(0x2000_01, 5), (0x2000_09, 5), (0x4100_01, east), (0x4100_02, west)] with
    ring := { Hub.reset.ring with distA := [(9, 1)], distB := [(9, 1)] }
    sleep := { Hub.reset.sleep with asleep := [strayEventResource] } }

/-! ### Its East link comes up -/

/-- The hub as the end of East's hold-down finds the ring state: East is UP and its event raised, West is DOWN. -/
def strayLinkUp : Hub :=
  let c := setLink (setRx 0 8 (strayRingHub 7 1)) 0 { link (setRx 0 8 (strayRingHub 7 1)) 0 with downSent := false }
  raiseEvent c 0x0A 0 (link c 0).highest

theorem strayRingHub_locked : rxState (strayRingHub 7 1) 0 = 7 := by decide +kernel

theorem holdDownExpiry_strayRingHub : holdDownExpiry 0 (strayRingHub 7 1) = ringUpdate strayLinkUp := by
  unfold holdDownExpiry
  rw [if_neg (not_not_intro strayRingHub_locked)]
  rfl

theorem strayLinkUp_loses : LosesRingA strayEventResource strayLinkUp := by
  unfold LosesRingA
  decide +kernel

/-- The "Grove" is ON: its state, 3, replaces the pending bits. -/
theorem linkUpEvent_overwritten : eventPending (ringTold strayLinkUp
    (afterWaking 4 (lossNoted strayLinkUp) (wokenGrove strayEventResource false (lossNoted strayLinkUp)))) 0x0A = false := by
  decide +kernel

theorem strayRingHub_linkUpEvent : eventPending (holdDownExpiry 0 (strayRingHub 7 1)) 0x0A = false := by
  rw [holdDownExpiry_strayRingHub, ringUpdate_clearing strayLinkUp_loses, linkUpEvent_overwritten]

/-! ### Its West link fails -/

/-- The hub as West's failure finds the ring state: West is DOWN, its LINK STATE sent, the failure counted and its event raised. -/
def strayLinkDown : Hub :=
  let h := strayRingHub 8 8
  let a := wr (setLink h 1 { link h 1 with highest := 0, downSent := true, miswire := false }) (0x4100_01 + 1) 1
  let b := whenDo (hubNumber a != 0 && sendsOwn a) (ringControl 5 [1 * 2 ^ 47]) a
  raiseEvent (bump b (0x4100_13 + 1)) 0x0B 1 0

theorem strayRingHub_running : rxRuns (strayRingHub 8 8) 1 = true := by decide +kernel

theorem linkDown_strayRingHub : linkDown 1 1 (strayRingHub 8 8) = ringUpdate strayLinkDown := by
  have none : breakArriving 1 (strayRingHub 8 8) = strayRingHub 8 8 := rfl
  unfold linkDown
  rw [none, if_pos strayRingHub_running]
  rfl

theorem strayLinkDown_loses : LosesRingA strayEventResource strayLinkDown := by
  unfold LosesRingA
  decide +kernel

theorem linkDownEvent_overwritten : eventPending (ringTold strayLinkDown
    (afterWaking 4 (lossNoted strayLinkDown) (wokenGrove strayEventResource false (lossNoted strayLinkDown)))) 0x0B = false := by
  decide +kernel

theorem strayRingHub_linkDownEvent : eventPending (linkDown 1 1 (strayRingHub 8 8)) 0x0B = false := by
  rw [linkDown_strayRingHub, ringUpdate_clearing strayLinkDown_loses, linkDownEvent_overwritten]

theorem exec_holdDownExpiry (port : Port) (s : State) :
    exec (.holdDownExpiry port) s = .next { s with hub := holdDownExpiry (portNum port) s.hub } := rfl

/-- The loss of the signal takes a direction out of any state but OFF. -/
theorem exec_linkFailure_signal {port : Port} {s : State} (r : rxState s.hub (portNum port) ≠ 0) :
    exec (.linkFailure port .signal) s = .next { s with hub := linkDown (portNum port) 1 s.hub } := by
  have acts : ¬ (rxState s.hub (portNum port) = 0 ∨ failureCounts s.hub (portNum port) .signal = false) := by simp [failureCounts, r]
  exact onHub_eq_next (f := fun h => if rxState h (portNum port) = 0 ∨ failureCounts h (portNum port) .signal = false then h
    else linkDown (portNum port) 1 h) (if_neg acts)

end Sys2Proof.Machine

open Sys2Proof Sys2Proof.Machine

/-- Refutes O13: in the clause on the hold-down time the hub is any hub with the direction LOCKED, in CLEARING too, and its list of sleeping
resources may name one beyond the 40. In `strayRingHub 7 1` East comes UP while West is DOWN, so ring A is lost and the hub goes to LIMP; the
transition out of CLEARING wakes that resource as a Grove and overwrites 0x4E10:01, EV_RING_LINK_UP's pending bit with it. With the hub's own
resources alone in the list no such hub arises. -/
theorem not_linksTrainStateByState : ¬ Obligations.LinksTrainStateByState := by
  unfold Obligations.LinksTrainStateByState
  rintro ⟨-, -, -, -, -, -, -, -, holdDown, -⟩
  have raised : ∀ h, rxState h 0 = 7 → eventPending (holdDownExpiry 0 h) 0x0A = true := by
    intro h locked
    obtain ⟨t, ran, -, event, -⟩ := holdDown .east { pending := [], hub := h } locked
    have left : t.hub = holdDownExpiry 0 h := congrArg State.hub (Host.Outcome.next.inj (ran.symm.trans (exec_holdDownExpiry ..)))
    rw [← left]
    exact event
  have lost := raised (strayRingHub 7 1) strayRingHub_locked
  rw [strayRingHub_linkUpEvent] at lost
  exact absurd lost (by decide)

/-- Refutes O14: in its first clause the hub is any hub with the direction running, in CLEARING too, and its list of sleeping resources may
name one beyond the 40. In `strayRingHub 8 8` West fails, so ring A is lost and the hub goes to LIMP; the transition out of CLEARING wakes
that resource as a Grove and overwrites 0x4E10:01, EV_RING_LINK_DOWN's pending bit with it. With the hub's own resources alone in the list no
such hub arises. -/
theorem not_linkFailuresTakeTheLinkDown : ¬ Obligations.LinkFailuresTakeTheLinkDown := by
  unfold Obligations.LinkFailuresTakeTheLinkDown
  rintro ⟨failure, -⟩
  have raised : ∀ h, rxRuns h 1 = true → eventPending (linkDown 1 1 h) 0x0B = true := by
    intro h runs
    obtain ⟨t, ran, -, event, -⟩ := failure .west .signal { pending := [], hub := h } rfl runs
    have on : rxState h 1 ≠ 0 := by
      intro off
      rw [rxRuns, off] at runs
      cases runs
    have left : t.hub = linkDown 1 1 h :=
      congrArg State.hub (Host.Outcome.next.inj (ran.symm.trans (exec_linkFailure_signal (port := .west) on)))
    rw [← left]
    exact event
  have lost := raised (strayRingHub 8 8) strayRingHub_running
  rw [strayRingHub_linkDownEvent] at lost
  exact absurd lost (by decide)

end

section
/-! A time frame that a ring port has received for this hub: it goes on to Spire (R177, R368, R370).
Elaborated one after the other, as above. -/
set_option Elab.async false

namespace Sys2Proof.Machine

/-- A DELAY_REQ of hub 9 to hub 5, number 7 (R370, Table 1 of Spire time). -/
def delayRequest : Frame :=
  { version := 1, ftype := 6, cls := .ur, secured := false, confidential := false, multicast := false, dst := 5, src := 9, seq := 0,
    specific := 0x0300, group := 0, slot := 0, epoch := 0, counter := 0, payload := [BitVec.ofNat 48 (7 * 2 ^ 40)], tag := 0, poison := [] }

/-- What a port finds of it where nothing went wrong on its way. -/
def soundRequest : FrameCheck := { crc := frameCrc delayRequest, bytes := frameBytes delayRequest, blocks := [.fin 0] }

theorem soundRequest_crc : crcOk delayRequest soundRequest false = true := by simp [crcOk, soundRequest]

theorem soundRequest_format : formatOk delayRequest soundRequest = true := by decide

/-- Hub 5 in RUN, its East receive direction UP. -/
def requestedHub : Hub := wrs Hub.reset [(0x2000_01, 3), (0x2000_09, 5), (0x4100_01, 8)]

theorem requestedHub_running : rxRuns requestedHub 0 = true := by decide +kernel

theorem requestedHub_number : hubNumber requestedHub = 5 := by decide +kernel

theorem requestedHub_sends : sendsOwn requestedHub = true := by decide +kernel

/-- The number of the request that the next response at East answers, as the meter notes it. -/
def replyNoted (h : Hub) : Nat := (meter h 0).reply.1

/-- What a ring port does with a frame it receives: a time frame for this hub goes on to Spire. -/
def frameTaken (p : Nat) (f : Frame) (hop : Nat) (check : FrameCheck) (h : Hub) : Hub :=
  whenDo (timeFrameHere p f check h) (spireReceives p f) (frameReceive p f hop check h)

theorem exec_frameReceive (port : Port) (f : Frame) (hop : Nat) (check : FrameCheck) (s : State) :
    exec (.frameReceive port f hop check) s = .next { s with hub := frameTaken (portNum port) f hop check s.hub } := rfl

theorem requestTaken_noted : replyNoted (frameTaken 0 delayRequest 254 soundRequest requestedHub) = 7 := by decide +kernel

theorem requestedHub_noted : replyNoted (arrived 0 delayRequest requestedHub) = 0 := by decide +kernel

end Sys2Proof.Machine

open Sys2Proof Sys2Proof.Machine

/-- Refutes O15: for a time frame of this hub whose checks pass, its clause on frames taken leaves the hub as `arrived` does, with nothing
but the frame's arrival ended. FRAME_RECEIVE hands the frame on to Spire: of `delayRequest` the meter notes the number it answers. -/
theorem not_framesAreStrippedTakenOrPassedOn : ¬ Obligations.FramesAreStrippedTakenOrPassedOn := by
  unfold Obligations.FramesAreStrippedTakenOrPassedOn
  rintro ⟨-, -, -, -, taken, -⟩
  have quiet : ∀ h, rxRuns h 0 = true → hubNumber h = 5 → sendsOwn h = true →
      frameTaken 0 delayRequest 254 soundRequest h = arrived 0 delayRequest h := by
    intro h runs number sends
    obtain ⟨t, g, after, ran, -, -, time, -⟩ := taken .east delayRequest 254 soundRequest false { pending := [], hub := h }
      runs (by rw [number]; decide) number.symm (by decide) sends rfl
    have left := congrArg State.hub (Host.Outcome.next.inj (ran.symm.trans (exec_frameReceive ..)))
    rw [time soundRequest_crc soundRequest_format rfl] at after
    exact left.symm.trans after
  have noted : replyNoted (frameTaken 0 delayRequest 254 soundRequest requestedHub) = replyNoted (arrived 0 delayRequest requestedHub) :=
    congrArg replyNoted (quiet requestedHub requestedHub_running requestedHub_number requestedHub_sends)
  rw [requestTaken_noted, requestedHub_noted] at noted
  exact absurd noted (by decide)

end

section
/-! Belfry's admission: the tick of a command, the frame a command takes from its port, the frame stored, the frame refused (R184 to R189).
Elaborated one after the other, as above. -/
set_option Elab.async false

namespace Sys2Proof.Machine

/-! ### The tick of a command -/

/-- A hub whose Belfry works on the tick `t`, the logs of its channels being `c`. -/
def atTick (t : TickReg) (c : Tab Channel) (h : Hub) : Hub := { h with belfry := { h.belfry with tick := t }, channels := c }

theorem takeTick_atTick (inputs : List TickInput) (h : Hub) :
    ∃ t c, takeTick inputs h = atTick t c h ∧ t.inputs = inputs ∧ t.time = replica h 0 :=
  ⟨_, _, logTick_eq _ _, rfl, rfl⟩

section
variable (t : TickReg) (c : Tab Channel) (h : Hub)

@[simp] theorem atTick_dict : (atTick t c h).dict = h.dict := rfl

@[simp] theorem outputSet_atTick (p : Nat) (f : Frame) : outputSet (atTick t c h) p f = outputSet h p f := rfl

@[simp] theorem ringCharge_atTick (f : Frame) : ringCharge (atTick t c h) f = ringCharge h f := rfl

@[simp] theorem hasCells_atTick (k : Nat) : hasCells (atTick t c h) k = hasCells h k := rfl

end

/-! ### The frame a command takes from its port -/

/-- The frame in front at a ring port is taken from it. -/
def frontTaken (p : Nat) (f : Frame) (h : Hub) : Hub := { h with ring := { h.ring with arrived := h.ring.arrived.erase (p, f) } }

section
variable (p : Nat) (f : Frame) (h : Hub)

@[simp] theorem frontTaken_dict : (frontTaken p f h).dict = h.dict := rfl

@[simp] theorem outputSet_frontTaken (q : Nat) (g : Frame) : outputSet (frontTaken p f h) q g = outputSet h q g := rfl

@[simp] theorem ringCharge_frontTaken (g : Frame) : ringCharge (frontTaken p f h) g = ringCharge h g := rfl

@[simp] theorem hasCells_frontTaken (k : Nat) : hasCells (frontTaken p f h) k = hasCells h k := rfl

end

theorem ringFrameAdmit_front {p : Nat} {f : Frame} {h : Hub} (front : ringFront h p = some f) (runs : halted h = false) :
    ringFrameAdmit p f h = admitRing p f (frontTaken p f h) := by
  unfold ringFrameAdmit
  rw [if_pos front, runs]
  rfl

/-- The frame in front at an internal port is taken from it, and its credits are spent. -/
def creditsSpent (p : Nat) (f : Frame) (rest : List Frame) (h : Hub) : Hub :=
  setCredits p (clsNum f.cls) (creditsHeld h p (clsNum f.cls) - frameCells f) { h with portQ := tabSet h.portQ p rest }

@[simp] theorem creditsSpent_dict (p : Nat) (f : Frame) (rest : List Frame) (h : Hub) : (creditsSpent p f rest h).dict = h.dict := rfl

theorem creditsHeld_creditsSpent (p : Nat) (f : Frame) (rest : List Frame) (h : Hub) :
    creditsHeld (creditsSpent p f rest h) p (clsNum f.cls) = creditsHeld h p (clsNum f.cls) - frameCells f := tabGet_tabSet_self ..

theorem portFrames_creditsSpent (p : Nat) (f : Frame) (rest : List Frame) (h : Hub) : portFrames (creditsSpent p f rest h) p = rest :=
  tabGet_tabSet_self ..

/-! ### A frame stored -/

/-- A frame as Belfry stores it with no error injected. -/
def storedFrame (input charge : Nat) (outs : List Nat) (f : Frame) (h : Hub) : Stored :=
  { id := h.belfry.nextId, input, frame := f, cells := newCells h (frameCells f), charge, stamp := tickNs h,
    multi := decide (1 < outs.length), copies := outs.map fun o => (o, 0), freed := 0, errors := [] }

/-- The buffer with that frame, before the peak occupancy is noted. -/
def withStored (input charge : Nat) (outs : List Nat) (f : Frame) (h : Hub) : Hub :=
  { h with belfry := { h.belfry with
      nextId := h.belfry.nextId + 1, stored := h.belfry.stored ++ [storedFrame input charge outs f h],
      taken := h.belfry.taken ++ newCells h (frameCells f),
      counts := tabSet h.belfry.counts (clsNum f.cls) (classCells h (clsNum f.cls) + frameCells f) } }

@[simp] theorem withStored_dict (input charge : Nat) (outs : List Nat) (f : Frame) (h : Hub) :
    (withStored input charge outs f h).dict = h.dict := rfl

theorem storeFrame_unarmed {h : Hub} (u : h.watch.armed = []) (input charge : Nat) (outs : List Nat) (f : Frame) :
    storeFrame input charge outs f h
      = peak (withStored input charge outs f h) 0x4200_1A (totalOccupancy (withStored input charge outs f h)) := by
  have none : takeInjection 1 h = (0, h) := by simp [takeInjection, takeInjectionAt, u]
  unfold storeFrame
  rw [none]
  rfl

theorem classCells_withStored (input charge : Nat) (outs : List Nat) (f : Frame) (h : Hub) :
    classCells (withStored input charge outs f h) (clsNum f.cls) = classCells h (clsNum f.cls) + frameCells f := tabGet_tabSet_self ..

/-- Storing a frame touches Belfry and one register. -/
theorem peak_withStored_only (input charge : Nat) (outs : List Nat) (f : Frame) (h : Hub) (k v : Nat) :
    ∃ b d, peak (withStored input charge outs f h) k v = { h with belfry := b, dict := d } := ⟨_, _, rfl⟩

theorem kept_peak (h : Hub) (k v : Nat) : KeptBut [(k, k)] h (peak h k v) := kept_wr h k _

/-- A count goes on from a hub with the same register file. -/
theorem rd_bump_of_dict {a b : Hub} (e : b.dict = a.dict) (k : Nat) : rd (bump b k) k = min (rd a k + 1) (2 ^ 32 - 1) := by
  rw [rd_bump_self, rd_dict b a e]

/-- Registers kept since a hub with the same register file. -/
theorem KeptBut.of_dict {r : List (Nat × Nat)} {a b c : Hub} (x : KeptBut r b c) (e : b.dict = a.dict) : KeptBut r a c :=
  ((KeptBut.refl r a).same e).trans x

/-! ### A frame refused -/

theorem raiseBelfry_cases (h : Hub) (e i v k : Nat) : raiseBelfry h e i v k = h
    ∨ raiseBelfry h e i v k = raiseEvent { h with belfry := { h.belfry with raised := (e, k) :: h.belfry.raised } } e i v := by
  unfold raiseBelfry
  split
  · exact .inl rfl
  · exact .inr rfl

theorem kept_raiseBelfry (h : Hub) (e i v k : Nat) (he : e < 256) : KeptBut eventRanges h (raiseBelfry h e i v k) := by
  rcases raiseBelfry_cases h e i v k with same | raised
  · rw [same]; exact .refl _ h
  · rw [raised]; exact KeptBut.of_dict (kept_raiseEvent _ e i v he) rfl

theorem raiseBelfry_belfry (h : Hub) (e i v k : Nat) : { (raiseBelfry h e i v k).belfry with raised := h.belfry.raised } = h.belfry := by
  rcases raiseBelfry_cases h e i v k with same | raised
  · rw [same]
  · rw [raised, raiseEvent_belfry]

theorem raiseBelfry_ring (h : Hub) (e i v k : Nat) : (raiseBelfry h e i v k).ring = h.ring := by
  rcases raiseBelfry_cases h e i v k with same | raised
  · rw [same]
  · rw [raised, raiseEvent_ring]

section
variable (p : Nat) (f : Frame) (h : Hub)

theorem kept_refuseRing :
    KeptBut ((0x4200_07 + clsNum f.cls, 0x4200_07 + clsNum f.cls) :: eventRanges) h (refuseRing p f h) :=
  ((KeptBut.refl _ h).bump _ ⟨_, List.mem_cons_self, Nat.le_refl _, Nat.le_refl _⟩).trans
    ((kept_raiseBelfry _ 0x10 p _ _ (by decide)).mono fun _ m => List.mem_cons_of_mem _ m)

theorem refusalCount_away (c : Cls) : ∀ r ∈ eventRanges, 0x4200_07 + clsNum c < r.1 ∨ r.2 < 0x4200_07 + clsNum c := by
  cases c <;> decide

theorem rd_refuseRing : rd (refuseRing p f h) (0x4200_07 + clsNum f.cls) = min (rd h (0x4200_07 + clsNum f.cls) + 1) (2 ^ 32 - 1) :=
  ((kept_raiseBelfry _ 0x10 p _ _ (by decide)).rd_eq _ (refusalCount_away f.cls)).trans (rd_bump_self h _)

theorem refuseRing_belfry : { (refuseRing p f h).belfry with raised := h.belfry.raised } = h.belfry := raiseBelfry_belfry ..

theorem refuseRing_ring : (refuseRing p f h).ring = h.ring := raiseBelfry_ring ..

end

/-! ### Admission at a ring port (R186, R187) -/

theorem admitRing_nowhere {p : Nat} {f : Frame} {h : Hub} (nowhere : outputSet h p f = []) : admitRing p f h = bump h 0x4200_17 := by
  unfold admitRing
  rw [nowhere]
  rfl

/-- A frame with a charge and no push-out is for `takeRing` to store. -/
theorem admitRing_charged {p g : Nat} {f : Frame} {h : Hub} (out : outputSet h p f ≠ []) (charge : ringCharge h f = some g) (noPush : g ≠ 3) :
    admitRing p f h = takeRing p g f h := by
  unfold admitRing
  rw [if_neg (by simpa using out), charge]
  split
  · next e => cases e
  · next e => exact absurd (Option.some.inj e) noPush
  · next e => rw [Option.some.inj e]

theorem admitRing_refused {p : Nat} {f : Frame} {h : Hub} (out : outputSet h p f ≠ [])
    (no : ringCharge h f = none ∨ (∃ g, ringCharge h f = some g ∧ g ≠ 3 ∧ hasCells h (frameCells f) = false)) :
    admitRing p f h = refuseRing p f h := by
  rcases no with none | ⟨g, charge, noPush, short⟩
  · unfold admitRing
    rw [if_neg (by simpa using out), none]
  · rw [admitRing_charged out charge noPush]
    exact if_neg (by rw [short]; decide)

section
variable {p : Nat} {f : Frame} {h : Hub} (front : ringFront h p = some f) (runs : halted h = false)
include front runs

/-- The frame in front is judged as the hub stood before the tick and with the frame still at its port. -/
theorem ringFrameAdmit_tick (inputs : List TickInput) : ∃ t c, t.time = replica h 0
    ∧ ringFrameAdmit p f (takeTick inputs h) = admitRing p f (frontTaken p f (atTick t c h)) := by
  obtain ⟨t, c, ticked, -, time⟩ := takeTick_atTick inputs h
  refine ⟨t, c, time, ?_⟩
  rw [ticked]
  exact ringFrameAdmit_front front runs

theorem ringFrameAdmit_stored (inputs : List TickInput) {g : Nat} (charge : ringCharge h f = some g) (noPush : g ≠ 3)
    (out : outputSet h p f ≠ []) (cells : hasCells h (frameCells f) = true) (u : h.watch.armed = []) :
    ∃ t c v, t.time = replica h 0 ∧ ringFrameAdmit p f (takeTick inputs h)
      = peak (withStored p g (outputSet h p f) f (frontTaken p f (atTick t c h))) 0x4200_1A v := by
  obtain ⟨t, c, time, judged⟩ := ringFrameAdmit_tick front runs inputs
  refine ⟨t, c, totalOccupancy (withStored p g (outputSet h p f) f (frontTaken p f (atTick t c h))), time, judged.trans ?_⟩
  have taken : admitRing p f (frontTaken p f (atTick t c h)) = takeRing p g f (frontTaken p f (atTick t c h)) :=
    admitRing_charged (by simpa using out) (by simpa using charge) noPush
  rw [taken, takeRing, if_pos (by simpa using cells), outputSet_frontTaken, outputSet_atTick]
  exact storeFrame_unarmed (h := frontTaken p f (atTick t c h)) u ..

theorem ringFrameAdmit_refused (inputs : List TickInput) (out : outputSet h p f ≠ [])
    (no : ringCharge h f = none ∨ (∃ g, ringCharge h f = some g ∧ g ≠ 3 ∧ hasCells h (frameCells f) = false)) :
    ∃ t c, ringFrameAdmit p f (takeTick inputs h) = refuseRing p f (frontTaken p f (atTick t c h)) := by
  obtain ⟨t, c, -, judged⟩ := ringFrameAdmit_tick front runs inputs
  exact ⟨t, c, judged.trans (admitRing_refused (by simpa using out) (by simpa using no))⟩

theorem ringFrameAdmit_nowhere (inputs : List TickInput) (nowhere : outputSet h p f = []) :
    ∃ t c, ringFrameAdmit p f (takeTick inputs h) = bump (frontTaken p f (atTick t c h)) 0x4200_17 := by
  obtain ⟨t, c, -, judged⟩ := ringFrameAdmit_tick front runs inputs
  exact ⟨t, c, judged.trans (admitRing_nowhere (by simpa using nowhere))⟩

end

/-- Any other frame at the port stays where it is. -/
theorem ringFrameAdmit_other (inputs : List TickInput) {p : Nat} {f : Frame} {h : Hub} (other : ringFront h p ≠ some f) :
    ringFrameAdmit p f (takeTick inputs h) = takeTick inputs h := by
  obtain ⟨t, c, ticked, -⟩ := takeTick_atTick inputs h
  rw [ticked]
  exact if_neg other

theorem exec_ringFrameAdmit (port : Port) (f : Frame) (s : State) : exec (.ringFrameAdmit port f) s
    = .next { s with hub := ringFrameAdmit (portNum port) f (takeTick [.arrival (portNum port) f] s.hub) } := rfl

/-! ### The start of a frame at an internal port (R184) -/

section
variable {p : Nat} {f : Frame} {rest : List Frame} {h : Hub} (internal : 2 ≤ p) (runs : halted h = false)
  (queue : portFrames h p = f :: rest)
include internal runs queue

/-- The frame in front has no output, waits, or starts. -/
theorem creditedFrameStart_front : creditedFrameStart p h =
    if (outputSet h p f).isEmpty then noOutput f { h with portQ := tabSet h.portQ p rest }
    else if creditsHeld h p (clsNum f.cls) < frameCells f ∨ hasCells h (frameCells f) = false then h
    else storeFrame p 0 (outputSet h p f) f (creditsSpent p f rest h) := by
  unfold creditedFrameStart
  rw [queue]
  dsimp only
  rw [if_neg (by simp [runs]; omega)]
  rfl

theorem creditedFrameStart_starts (out : outputSet h p f ≠ []) (enough : frameCells f ≤ creditsHeld h p (clsNum f.cls))
    (cells : hasCells h (frameCells f) = true) :
    creditedFrameStart p h = storeFrame p 0 (outputSet h p f) f (creditsSpent p f rest h) := by
  have ready : ¬ (creditsHeld h p (clsNum f.cls) < frameCells f ∨ hasCells h (frameCells f) = false) := by simp [cells]; omega
  rw [creditedFrameStart_front internal runs queue, if_neg (by simpa using out), if_neg ready]

/-- The frame in front starts as the hub stood before the tick. -/
theorem creditedFrameStart_stored (inputs : List TickInput) (out : outputSet h p f ≠ [])
    (enough : frameCells f ≤ creditsHeld h p (clsNum f.cls)) (cells : hasCells h (frameCells f) = true) (u : h.watch.armed = []) :
    ∃ t c v, t.time = replica h 0 ∧ creditedFrameStart p (takeTick inputs h)
      = peak (withStored p 0 (outputSet h p f) f (creditsSpent p f rest (atTick t c h))) 0x4200_1A v := by
  obtain ⟨t, c, ticked, -, time⟩ := takeTick_atTick inputs h
  refine ⟨t, c, totalOccupancy (withStored p 0 (outputSet h p f) f (creditsSpent p f rest (atTick t c h))), time, ?_⟩
  rw [ticked, creditedFrameStart_starts (h := atTick t c h) internal runs queue out enough cells]
  exact storeFrame_unarmed (h := creditsSpent p f rest (atTick t c h)) u ..

theorem creditedFrameStart_waits (inputs : List TickInput) (out : outputSet h p f ≠ [])
    (short : creditsHeld h p (clsNum f.cls) < frameCells f ∨ hasCells h (frameCells f) = false) :
    creditedFrameStart p (takeTick inputs h) = takeTick inputs h := by
  obtain ⟨t, c, ticked, -⟩ := takeTick_atTick inputs h
  rw [ticked, creditedFrameStart_front (h := atTick t c h) internal runs queue, outputSet_atTick, if_neg (by simpa using out)]
  exact if_pos short

theorem creditedFrameStart_nowhere (inputs : List TickInput) (nowhere : outputSet h p f = []) :
    ∃ t c, creditedFrameStart p (takeTick inputs h) = noOutput f { atTick t c h with portQ := tabSet h.portQ p rest } := by
  obtain ⟨t, c, ticked, -⟩ := takeTick_atTick inputs h
  refine ⟨t, c, ?_⟩
  rw [ticked, creditedFrameStart_front (h := atTick t c h) internal runs queue, outputSet_atTick, nowhere]
  rfl

end

/-- The command at a port with a frame in front takes that frame's arrival from its tick. -/
theorem exec_creditedFrameStart {p : Fin 8} {f : Frame} {rest : List Frame} {s : State} (queue : portFrames s.hub p = f :: rest) :
    exec (.creditedFrameStart p) s
      = .next { s with hub := creditedFrameStart p (takeTick [.arrival p f] s.hub) } := by
  have ran : exec (.creditedFrameStart p) s
      = .next { s with hub := creditedFrameStart p (takeTick ((portFrames s.hub p).head?.toList.map (.arrival p)) s.hub) } := rfl
  rw [ran, queue]
  rfl

theorem exec_outputCreditReturn (p : Fin 8) (cls : Cls) (s : State) : exec (.outputCreditReturn p cls) s
    = .next { s with hub := outputCreditReturn p (clsNum cls) (takeTick [.credit p (clsNum cls)] s.hub) } := rfl

theorem outUsed_outputCreditReturn (p c : Nat) (h : Hub) :
    tabGet 0 (outputCreditReturn p c h).belfry.outUsed (pcKey p c) = tabGet 0 h.belfry.outUsed (pcKey p c) - 1 :=
  tabGet_tabSet_self ..

/-- A frame without an output is discarded and counted by why it has none; it touches one counter at the most. -/
theorem noOutput_cases (f : Frame) (h : Hub) :
    (f.dst = hubNumber h ∧ noOutput f h = bump h 0x4200_17)
    ∨ (f.dst ≠ hubNumber h ∧ (dualSent f = true ∨ mode h = 2 ∧ isExpress f = true) ∧ noOutput f h = h)
    ∨ (f.dst ≠ hubNumber h ∧ ¬ (dualSent f = true ∨ mode h = 2 ∧ isExpress f = true) ∧ noOutput f h = bump h 0x4100_16) := by
  have silent : (dualSent f || (mode h == 2 && isExpress f)) = true ↔ dualSent f = true ∨ mode h = 2 ∧ isExpress f = true := by simp
  unfold noOutput
  split
  · next own => exact .inl ⟨own, rfl⟩
  · next away =>
    split
    · next quiet => exact .inr (.inl ⟨away, silent.1 quiet, rfl⟩)
    · next counted => exact .inr (.inr ⟨away, fun quiet => counted (silent.2 quiet), rfl⟩)

/-- A discard leaves ports and buffer as they are. -/
theorem noOutput_portQ_belfry (f : Frame) (h : Hub) : (noOutput f h).portQ = h.portQ ∧ (noOutput f h).belfry = h.belfry := by
  rcases noOutput_cases f h with ⟨-, e⟩ | ⟨-, -, e⟩ | ⟨-, -, e⟩ <;> rw [e] <;> exact ⟨rfl, rfl⟩

end Sys2Proof.Machine

open Sys2Proof Sys2Proof.Machine

/-- Settles O17: the command's tick leaves all that admission goes by, so the frame in front is stored by `withStored`, refused by
`refuseRing`, kept waiting, or discarded with its count. -/
theorem belfryAdmitsFramesWhole : Obligations.BelfryAdmitsFramesWhole := by
  unfold Obligations.BelfryAdmitsFramesWhole
  refine ⟨fun inputs h => ?tick, fun port f g s front runs charge noPush out cells unarmed => ?admitted,
    fun port f s front runs out no => ?refused, fun port f s front runs nowhere => ?noRoute,
    fun port f s other => ?other,
    fun p f rest s internal runs queue out unarmed enough cells => ?started,
    fun p f rest s internal runs queue out short => ?waits,
    fun p f rest s internal runs queue nowhere => ?discarded, fun p cls s => ?returned⟩
  case tick =>
    obtain ⟨t, c, ticked, taken, time⟩ := takeTick_atTick inputs h
    rw [ticked]
    exact ⟨taken, congrArg (· / 2 ^ 32) time, rfl⟩
  case admitted =>
    obtain ⟨t, c, v, time, stored⟩ := ringFrameAdmit_stored front runs [.arrival (portNum port) f] charge noPush out cells unarmed
    rw [exec_ringFrameAdmit, stored]
    refine ⟨_, storedFrame (portNum port) g (outputSet s.hub (portNum port) f) f (frontTaken (portNum port) f (atTick t c s.hub)),
      rfl, rfl, rfl, rfl, rfl, rfl, rfl, rfl, congrArg (· / 2 ^ 32) time, rfl, rfl,
      classCells_withStored .., rfl, ?_, KeptBut.of_dict (kept_peak _ _ v) (by simp)⟩
    obtain ⟨b, d, only⟩ := peak_withStored_only (portNum port) g (outputSet s.hub (portNum port) f) f
      (frontTaken (portNum port) f (atTick t c s.hub)) 0x4200_1A v
    rw [only]
    rfl
  case refused =>
    obtain ⟨t, c, judged⟩ := ringFrameAdmit_refused front runs [.arrival (portNum port) f] out no
    rw [exec_ringFrameAdmit, judged]
    refine ⟨_, rfl, ?_, rd_refuseRing .., congrArg Ring.arrived (refuseRing_ring ..), KeptBut.of_dict (kept_refuseRing _ _ _) (by simp)⟩
    exact congrArg (fun b : Belfry => { b with tick := s.hub.belfry.tick }) (refuseRing_belfry ..)
  case noRoute =>
    obtain ⟨t, c, judged⟩ := ringFrameAdmit_nowhere front runs [.arrival (portNum port) f] nowhere
    rw [exec_ringFrameAdmit, judged]
    exact ⟨_, rfl, rfl, rd_bump_of_dict (by simp) _, rfl, KeptBut.of_dict (kept_wr _ _ _) (by simp)⟩
  case other => rw [exec_ringFrameAdmit, ringFrameAdmit_other _ other]
  case started =>
    obtain ⟨t, c, v, time, stored⟩ := creditedFrameStart_stored internal runs queue [.arrival p f] out enough cells unarmed
    rw [exec_creditedFrameStart queue, stored]
    refine ⟨_, storedFrame p 0 (outputSet s.hub p f) f (creditsSpent p f rest (atTick t c s.hub)),
      rfl, rfl, rfl, rfl, rfl, rfl, congrArg (· / 2 ^ 32) time, creditsHeld_creditsSpent .., portFrames_creditsSpent _ f _ _, ?_,
      KeptBut.of_dict (kept_peak _ _ v) (by simp)⟩
    obtain ⟨b, d, only⟩ := peak_withStored_only p 0 (outputSet s.hub p f) f (creditsSpent p f rest (atTick t c s.hub)) 0x4200_1A v
    rw [only]
    rfl
  case waits =>
    rw [exec_creditedFrameStart queue, creditedFrameStart_waits internal runs queue [.arrival p f] out short]
  case discarded =>
    obtain ⟨t, c, dropped⟩ := creditedFrameStart_nowhere internal runs queue [.arrival p f] nowhere
    obtain ⟨ports, buffer⟩ := noOutput_portQ_belfry f { atTick t c s.hub with portQ := tabSet s.hub.portQ p rest }
    rw [exec_creditedFrameStart queue, dropped]
    refine ⟨_, rfl, ?_, ?_, ?_⟩
    · exact (congrArg (fun q => tabGet [] q p) ports).trans (tabGet_tabSet_self ..)
    · exact congrArg (fun b : Belfry => { b with tick := s.hub.belfry.tick }) buffer
    · rcases noOutput_cases f { atTick t c s.hub with portQ := tabSet s.hub.portQ p rest } with
        ⟨own, e⟩ | ⟨away, quiet, e⟩ | ⟨away, loud, e⟩
      · rw [e]
        exact ⟨fun _ => ⟨rd_bump_of_dict rfl _, KeptBut.of_dict (kept_wr _ _ _) rfl⟩, fun away => absurd own away, fun away => absurd own away⟩
      · rw [e]
        refine ⟨fun own => absurd own away, fun _ _ => rfl, fun _ single noStop => ?_⟩
        rcases quiet with dual | ⟨commission, express⟩
        · rw [single] at dual; cases dual
        · rcases noStop with other | preemptable
          · exact absurd commission other
          · rw [preemptable] at express; cases express
      · rw [e]
        exact ⟨fun own => absurd own away, fun _ quiet => absurd quiet loud,
          fun _ _ _ => ⟨rd_bump_of_dict rfl _, KeptBut.of_dict (kept_wr _ _ _) rfl⟩⟩
  case returned =>
    obtain ⟨t, c, ticked, -⟩ := takeTick_atTick [.credit p (clsNum cls)] s.hub
    rw [exec_outputCreditReturn, ticked]
    refine ⟨_, rfl, ?_, rfl⟩
    exact outUsed_outputCreditReturn p (clsNum cls) (atTick t c s.hub)

end

section
/-! SUPPORT. Dome's way of a frame (R207, R605 to R614): what the crossing back to Belfry, sealing, the receive contexts and opening write and
leave. Elaborated one after the other, as above. -/
set_option Elab.async false

namespace Sys2Proof.Machine

/-! ### Frames at the ports that events do not use -/

theorem raiseLocal_portQ (h : Hub) (e i v : Nat) : (raiseLocal h e i v).portQ = h.portQ := by
  unfold raiseLocal
  dsimp only
  split
  · rw [requestMsix_portQ, pushLog, wrs_portQ, wr_portQ]
  · rw [pushLog, wrs_portQ, wr_portQ]

theorem portFrames_ringEventFrame {p : Nat} (n : p ≠ 6) (h : Hub) (c e i v : Nat) :
    portFrames (ringEventFrame h c e i v) p = portFrames h p := by
  unfold ringEventFrame
  split
  · exact congrArg (fun q => tabGet [] q p) (raiseLocal_portQ _ _ _ _)
  · dsimp only
    unfold originate
    split
    · rfl
    · exact tabGet_tabSet_ne _ _ _ _ _ n

/-- An event's ring frame waits at port 6; the frames at the other ports are as before. -/
theorem portFrames_raiseEvent {p : Nat} (n : p ≠ 6) (h : Hub) (e i v : Nat) : portFrames (raiseEvent h e i v) p = portFrames h p := by
  have here : portFrames (raiseLocal h e i v) p = portFrames h p := congrArg (fun q => tabGet [] q p) (raiseLocal_portQ _ _ _ _)
  unfold raiseEvent
  dsimp only
  split
  · rw [portFrames_ringEventFrame n, here]
  · exact here

theorem portFrames_raiseKeyed {p : Nat} (n : p ≠ 6) (h : Hub) (k e i v q : Nat) :
    portFrames (raiseKeyed h k e i v q) p = portFrames h p := by
  unfold raiseKeyed
  split
  · rfl
  · rw [portFrames_raiseEvent n]
    rfl

theorem portFrames_enqueue (h : Hub) (p : Nat) (f : Frame) : portFrames (enqueue h p f) p = portFrames h p ++ [f] := tabGet_tabSet_self ..

/-- Where nothing is remembered of earlier ones, a limited event is raised. -/
theorem eventPending_raise16ms {h : Hub} (fresh : h.watch.rates = []) (e i v c : Nat) (l : e < 256) :
    eventPending (raise16ms h e i v c) e = true := by
  unfold raise16ms raiseLimited raiseKeyed
  rw [fresh, if_neg (by simp [tabHas])]
  exact eventPending_raiseEvent _ _ _ _ _ l (.inl rfl)

/-! ### The crossing from Dome to Belfry -/

/-- The crossing from Dome to Belfry takes a frame as it is. -/
def ExitClear (h : Hub) : Prop := crossingShut h 0x12 0 = false ∧ (crossing h 0x12 0).entries = [] ∧ h.watch.armed = []

/-- Whether it does rests on the crossings, the injections and the mode. -/
theorem ExitClear.congr {g h : Hub} (x : ExitClear h) (crossings : g.crossings = h.crossings) (armed : g.watch.armed = h.watch.armed)
    (same : mode g = mode h) : ExitClear g := by
  have one : crossing g 0x12 0 = crossing h 0x12 0 := congrArg (fun c => tabGet crossingInit c _) crossings
  have shut : crossingShut g 0x12 0 = crossingShut h 0x12 0 := by
    have closed : ∀ y : Hub, crossingClosed y 0x12 0 = (mode y == 6) := fun y => by
      simp [crossingClosed, islandClosed, islandDomain, domainClosed]
    unfold crossingShut
    rw [one, closed, closed, same]
  unfold ExitClear
  rw [shut, one, armed]
  exact x

theorem ExitClear.wr {h : Hub} (x : ExitClear h) {k : Nat} (v : Nat) (n : k ≠ 0x2000_01) : ExitClear (wr h k v) :=
  x.congr rfl rfl (rd_wr_ne h k _ v (Ne.symm n))

theorem ExitClear.bump {h : Hub} (x : ExitClear h) {k : Nat} (n : k ≠ 0x2000_01) : ExitClear (bump h k) := x.wr _ n

theorem ExitClear.raiseEvent {h : Hub} (x : ExitClear h) {e : Nat} (i v : Nat) (l : e < 256) : ExitClear (raiseEvent h e i v) :=
  x.congr (raiseEvent_crossings h e i v) (raiseEvent_watch_armed h e i v) (rd_raiseEvent_of h e i v _ l (by decide))

theorem ExitClear.dome {h : Hub} (x : ExitClear h) (d : Dome) : ExitClear { h with dome := d } := x

theorem ExitClear.ring {h : Hub} (x : ExitClear h) (r : Ring) : ExitClear { h with ring := r } := x

/-! ### The frame in front -/

theorem domeTakes_other {act : Frame → Hub → Hub} {f : Frame} {h : Hub} (other : domeFront h ≠ some f) : domeTakes act f h = h :=
  if_neg other

/-- Over a clear crossing the frame in front comes to Dome as it is. -/
theorem domeTakes_front {act : Frame → Hub → Hub} {f : Frame} {h : Hub} (front : domeFront h = some f)
    (o : crossingShut h 0 0x12 = false) (e : (crossing h 0 0x12).entries = []) (u : h.watch.armed = []) :
    domeTakes act f h = domeActs act f (domeTaken f h) := by
  unfold domeTakes
  rw [if_pos front]
  exact sendOver_clear 0 0x12 (domeActs act) f (domeTaken f h) o e u

theorem domeTakes_ready {act : Frame → Hub → Hub} {f : Frame} {h : Hub} (r : DomeReady f h) : domeTakes act f h = act f (domeTaken f h) := by
  obtain ⟨front, clean, o, e, -, -, u⟩ := r
  rw [domeTakes_front front o e u]
  exact if_pos clean

theorem ExitClear_of_ready {f : Frame} {h : Hub} (r : DomeReady f h) : ExitClear (domeTaken f h) := by
  obtain ⟨-, -, -, -, o, e, u⟩ := r
  exact ⟨o, e, u⟩

theorem exec_sealFrame (f : Frame) (s : State) : exec (.sealFrame f) s = .next { s with hub := domeTakes sealFrame f s.hub } := rfl

theorem exec_openFrame (f : Frame) (s : State) : exec (.openFrame f) s = .next { s with hub := domeTakes openAndDeliver f s.hub } := rfl

theorem exec_sealFrame_ready {f : Frame} {s : State} (r : DomeReady f s.hub) :
    exec (.sealFrame f) s = .next { s with hub := sealFrame f (domeTaken f s.hub) } := by rw [exec_sealFrame, domeTakes_ready r]

theorem exec_openFrame_ready {f : Frame} {s : State} (r : DomeReady f s.hub) :
    exec (.openFrame f) s = .next { s with hub := openAndDeliver f (domeTaken f s.hub) } := by rw [exec_openFrame, domeTakes_ready r]

/-! ### Send contexts (R605 to R607) -/

theorem clsNum_le (c : Cls) : clsNum c ≤ 3 := by cases c <;> decide

/-- The counter at which a send context stands at its next frame: 0 where that frame brings it to a new epoch (R606). -/
def sendCounter (t : Nat) (h : Hub) : Nat := if tabGet (2 ^ 32) h.dome.sendEpoch t = h.dome.epoch then rd h (0x4B00_06 + t) else 0

theorem rd_sendContext (t : Nat) (h : Hub) : rd (sendContext t h) (0x4B00_06 + t) = sendCounter t h := by
  unfold sendContext sendCounter
  split
  · rfl
  · exact rd_wr_self ..

/-- A send context that changes its epoch touches the register of its counter and its epoch. -/
theorem sendContext_only (t : Nat) (h : Hub) :
    sendContext t h = { h with dict := (sendContext t h).dict, dome := { h.dome with sendEpoch := (sendContext t h).dome.sendEpoch } } := by
  unfold sendContext
  split <;> rfl

theorem kept_sendContext (t : Nat) (h : Hub) : KeptBut [(0x4B00_06 + t, 0x4B00_06 + t)] h (sendContext t h) := by
  unfold sendContext
  split
  · exact .refl _ h
  · exact KeptBut.of_dict (kept_wr _ _ _) rfl

/-- The hub once a frame has taken the counter `c` of its context. -/
def counterSpent (t c : Nat) (h : Hub) : Hub := bump (wr (sendContext t h) (0x4B00_06 + t) (c + 1)) 0x4B00_0B

theorem counterSpent_only (t c : Nat) (h : Hub) : counterSpent t c h
    = { h with dict := (counterSpent t c h).dict, dome := { h.dome with sendEpoch := (counterSpent t c h).dome.sendEpoch } } :=
  congrArg (fun x => bump (wr x (0x4B00_06 + t) (c + 1)) 0x4B00_0B) (sendContext_only t h)

theorem counterSpent_dome (t c : Nat) (h : Hub) :
    (counterSpent t c h).dome = { h.dome with sendEpoch := (counterSpent t c h).dome.sendEpoch } :=
  congrArg Hub.dome (counterSpent_only t c h)

theorem portFrames_counterSpent (t c p : Nat) (h : Hub) : portFrames (counterSpent t c h) p = portFrames h p :=
  (congrArg (portFrames · p) (counterSpent_only t c h) :)

theorem kept_counterSpent (t c : Nat) (h : Hub) :
    KeptBut [(0x4B00_06 + t, 0x4B00_06 + t), (0x4B00_0B, 0x4B00_0B)] h (counterSpent t c h) :=
  (((kept_sendContext t h).mono fun _ m => List.mem_cons.2 (.inl (List.mem_singleton.1 m))).wr _ _
    ⟨_, List.mem_cons_self, Nat.le_refl _, Nat.le_refl _⟩).bump _ ⟨_, List.mem_cons_of_mem _ List.mem_cons_self, Nat.le_refl _, Nat.le_refl _⟩

section
variable {t : Nat} (l : t ≤ 3)
include l

theorem rd_counterSpent_counter {c : Nat} (bound : c < 2 ^ 48 - 1) (h : Hub) : rd (counterSpent t c h) (0x4B00_06 + t) = c + 1 := by
  unfold counterSpent
  rw [rd_bump_ne _ (by omega), rd_wr_self]
  omega

theorem rd_counterSpent_sealed (c : Nat) (h : Hub) : rd (counterSpent t c h) 0x4B00_0B = min (rd h 0x4B00_0B + 1) (2 ^ 32 - 1) := by
  have before : rd (sendContext t h) 0x4B00_0B = rd h 0x4B00_0B := (kept_sendContext t h).rd_eq _ fun e m => by
    rw [List.mem_singleton.1 m]
    simp only
    omega
  unfold counterSpent
  rw [rd_bump_self, rd_wr_ne _ _ _ _ (by omega), before]

theorem ExitClear_counterSpent (c : Nat) {h : Hub} (x : ExitClear h) : ExitClear (counterSpent t c h) := by
  refine x.congr (congrArg Hub.crossings (counterSpent_only t c h) :) (congrArg (fun y : Hub => y.watch.armed) (counterSpent_only t c h) :) ?_
  exact (kept_counterSpent t c h).rd_eq _ (by simp; omega)

end

/-! ### The epoch after a context's 2 to the 47th frame (R606) -/

/-- The hub in epoch e, before the rekey is counted and told. -/
def epochTaken (e : Nat) (h : Hub) : Hub :=
  { h with dome := { h.dome with
      epoch := e, epochValid := true, next := none, writing := false, rekeying := false, persisted := true, exhausted := [], challenges := 0 } }

/-- The hub in wait of the ceiling's flash writes for epoch e. -/
def epochWaits (e : Nat) (h : Hub) : Hub := { h with dome := { h.dome with next := some e, rekeying := true, writing := true } }

section
variable {h : Hub} (idle : h.dome.next = none) (valid : h.dome.epochValid = true) (room : h.dome.epoch + 1 < 2 ^ 32)
include idle valid room

theorem advanceEpoch_below (below : h.dome.epoch + 1 < h.dome.ceiling) :
    advanceEpoch true h = raiseEvent (bump (epochTaken (h.dome.epoch + 1) h) 0x4B00_11) 0x81 0 0 := by
  unfold advanceEpoch
  rw [if_neg (not_not.2 idle), if_neg (by simp [valid]; omega)]
  dsimp only
  rw [if_pos valid, if_pos below]
  rfl

theorem advanceEpoch_above (above : h.dome.ceiling ≤ h.dome.epoch + 1) : advanceEpoch true h = epochWaits (h.dome.epoch + 1) h := by
  unfold advanceEpoch
  rw [if_neg (not_not.2 idle), if_neg (by simp [valid]; omega)]
  dsimp only
  rw [if_pos valid, if_neg (Nat.not_lt.2 above), decide_eq_true above]
  rfl

theorem portFrames_advanceEpoch : portFrames (advanceEpoch true h) 5 = portFrames h 5 := by
  rcases Nat.lt_or_ge (h.dome.epoch + 1) h.dome.ceiling with below | above
  · rw [advanceEpoch_below idle valid room below, portFrames_raiseEvent (by decide)]
    rfl
  · rw [advanceEpoch_above idle valid room above]
    rfl

theorem ExitClear_advanceEpoch (x : ExitClear h) : ExitClear (advanceEpoch true h) := by
  rcases Nat.lt_or_ge (h.dome.epoch + 1) h.dome.ceiling with below | above
  · rw [advanceEpoch_below idle valid room below]
    exact ((x.dome _).bump (by decide)).raiseEvent _ _ (by decide)
  · rw [advanceEpoch_above idle valid room above]
    exact x

end

/-! ### Sealing (R607, R608) -/

/-- What SEAL_FRAME has done once the sealing of the frame is known: a frame that leaves Dome waits at Belfry's Dome port. -/
theorem sealFrame_leaves {f g : Frame} {h a : Hub} (sealed : sealing f h = (some g, a)) (clear : ExitClear a) :
    sealFrame f h = enqueue a 5 g := by
  obtain ⟨o, e, u⟩ := clear
  unfold sealFrame
  rw [sealed]
  exact sendOver_clear 0x12 0 (fun x b => enqueue b 5 x) g a o e u

theorem sealFrame_stops {f : Frame} {h a : Hub} (sealed : sealing f h = (none, a)) : sealFrame f h = a := by
  unfold sealFrame
  rw [sealed]

theorem srk_of_sealNeeded {h : Hub} {f : Frame} (need : sealNeeded h f = true) : ∃ k, h.dome.srk = some k := by
  unfold sealNeeded at need
  exact Option.isSome_iff_exists.1 (Bool.and_eq_true_iff.1 need).2

/-- Dome seals nothing before it serves, and nothing it should seal before the epoch is persisted. -/
theorem sealing_waits {f : Frame} {h : Hub} (waits : domeServes h = false ∨ sealNeeded h f = true ∧ h.dome.persisted = false) :
    sealing f h = (none, h) := by
  unfold sealing
  rcases serves : domeServes h with _ | _
  · exact if_pos (by decide)
  · rcases waits with idle | ⟨need, early⟩
    · rw [idle] at serves
      cases serves
    · obtain ⟨k, srk⟩ := srk_of_sealNeeded need
      simp [srk, need, early]

theorem sealing_open {f : Frame} {h : Hub} (serves : domeServes h = true) (free : sealNeeded h f = false) : sealing f h = (some f, h) := by
  unfold sealing
  rw [if_neg (by simp [serves])]
  split
  · rfl
  · simp [free]

/-- A send context that changes its epoch changes nothing that the sealing of a frame rests on. -/
theorem sealedFrame_sendContext {t : Nat} (l : t ≤ 3) (h : Hub) (key : List Byte) (c : Nat) (f : Frame) :
    sealedFrame (sendContext t h) key c f = sealedFrame h key c f := by
  have level : protection (sendContext t h) f.cls = protection h f.cls := (kept_sendContext t h).rd_eq _ fun e m => by
    have := clsNum_le f.cls
    rw [List.mem_singleton.1 m]
    simp only
    omega
  have epoch : (sendContext t h).dome.epoch = h.dome.epoch := (congrArg (fun x : Hub => x.dome.epoch) (sendContext_only t h) :)
  unfold sealedFrame
  rw [level, epoch]

theorem hubNumber_sendContext {t : Nat} (l : t ≤ 3) (h : Hub) : hubNumber (sendContext t h) = hubNumber h :=
  (kept_sendContext t h).rd_eq _ (by simp; omega)

/-- The ring traffic key under which this hub seals a frame: of hub, class and epoch (R605, R608). -/
def sealKey (k : List Byte) (f : Frame) (h : Hub) : List Byte := ringKey k (hubNumber h) (clsNum f.cls) h.dome.epoch

section
variable {f : Frame} {t c : Nat} {h : Hub} {k : List Byte} (serves : domeServes h = true) (need : sealNeeded h f = true)
  (persisted : h.dome.persisted = true) (srk : h.dome.srk = some k) (ofClass : t = clsNum f.cls) (next : c = sendCounter t h)
include serves need persisted srk ofClass next

/-- A frame to be sealed takes the next counter of its context, or finds the context exhausted. -/
theorem sealing_needed : sealing f h =
    if t ∈ h.dome.exhausted ∨ 2 ^ 48 - 1 ≤ c then (none, exhaust t (sendContext t h))
    else (some (sealedFrame h (sealKey k f h) c f),
      if c + 1 = 2 ^ 47 then advanceEpoch true (counterSpent t c h) else counterSpent t c h) := by
  have low : t ≤ 3 := ofClass ▸ clsNum_le f.cls
  have epoch : (sendContext t h).dome.epoch = h.dome.epoch := (congrArg (fun x : Hub => x.dome.epoch) (sendContext_only t h) :)
  have used : (sendContext t h).dome.exhausted = h.dome.exhausted := (congrArg (fun x : Hub => x.dome.exhausted) (sendContext_only t h) :)
  unfold sealing
  rw [if_neg (by simp [serves]), srk]
  simp only [need, persisted, rd_sendContext, not_true_eq_false, if_false, List.contains_iff_mem, used, epoch, ← ofClass, ← next,
    hubNumber_sendContext low, sealedFrame_sendContext low]
  unfold sealKey
  rw [← ofClass]
  rfl

theorem sealFrame_exhausted (out : t ∈ h.dome.exhausted ∨ c = 2 ^ 48 - 1) : sealFrame f h = exhaust t (sendContext t h) := by
  refine sealFrame_stops ((sealing_needed serves need persisted srk ofClass next).trans ?_)
  rw [if_pos (out.imp_right fun e => Nat.le_of_eq e.symm)]

section
variable (clear : ExitClear h) (fit : t ∉ h.dome.exhausted)
include clear fit

theorem sealFrame_next (bound : c < 2 ^ 48 - 1) (early : c + 1 ≠ 2 ^ 47) :
    sealFrame f h = enqueue (counterSpent t c h) 5 (sealedFrame h (sealKey k f h) c f) := by
  refine sealFrame_leaves ((sealing_needed serves need persisted srk ofClass next).trans ?_)
    (ExitClear_counterSpent (ofClass ▸ clsNum_le f.cls) c clear)
  rw [if_neg (not_or.2 ⟨fit, Nat.not_le.2 bound⟩), if_neg early]

/-- The frame that takes the last counter before 2 to the 47th asks for a new epoch as it leaves. -/
theorem sealFrame_due (due : c + 1 = 2 ^ 47) (idle : h.dome.next = none) (valid : h.dome.epochValid = true)
    (room : h.dome.epoch + 1 < 2 ^ 32) :
    sealFrame f h = enqueue (advanceEpoch true (counterSpent t c h)) 5 (sealedFrame h (sealKey k f h) c f) := by
  have same := counterSpent_dome t c h
  refine sealFrame_leaves ((sealing_needed serves need persisted srk ofClass next).trans ?_)
    (ExitClear_advanceEpoch (by rw [same]; exact idle) (by rw [same]; exact valid) (by rw [same]; exact room)
      (ExitClear_counterSpent (ofClass ▸ clsNum_le f.cls) c clear))
  rw [if_neg (not_or.2 ⟨fit, by omega⟩), if_pos due]

end

end

/-- What sealing writes into a frame and what it leaves. -/
theorem sealedFrame_fields (h : Hub) (key : List Byte) (c : Nat) (f : Frame) :
    (sealedFrame h key c f).secured = true ∧ (sealedFrame h key c f).confidential = (protection h f.cls == 2)
      ∧ (sealedFrame h key c f).slot = clsNum f.cls ∧ (sealedFrame h key c f).epoch = h.dome.epoch ∧ (sealedFrame h key c f).counter = c
      ∧ { sealedFrame h key c f with
          secured := f.secured, confidential := f.confidential, slot := f.slot, epoch := f.epoch, counter := f.counter,
          tag := f.tag, payload := f.payload } = f
      ∧ (sealedFrame h key c f).payload
        = (if protection h f.cls = 2 then applyStream key { sealedFrame h key c f with payload := f.payload } else f.payload)
      ∧ (sealedFrame h key c f).tag = frameTag key (sealedFrame h key c f) := by
  unfold sealedFrame
  by_cases gcm : protection h f.cls = 2
  · have on : (protection h f.cls == 2) = true := beq_iff_eq.2 gcm
    simp only [on, if_pos gcm]
    exact ⟨rfl, rfl, rfl, rfl, rfl, rfl, rfl, rfl⟩
  · have off : (protection h f.cls == 2) = false := beq_eq_false_iff_ne.2 gcm
    simp only [off, if_neg gcm]
    exact ⟨rfl, rfl, rfl, rfl, rfl, rfl, rfl, rfl⟩

/-! ### A context exhausted -/

/-- The hub with a send context marked EXHAUSTED, before the discard is counted and told. -/
def contextEnded (t : Nat) (h : Hub) : Hub := { h with dome := { h.dome with exhausted := t :: h.dome.exhausted.filter (· != t) } }

section
variable (t : Nat) (h : Hub)

theorem exhaust_eq : exhaust t h = raiseEvent (bump (contextEnded t h) 0x4B00_12) 0x82 t 0 := rfl

theorem portFrames_exhaust : portFrames (exhaust t h) 5 = portFrames h 5 := by
  rw [exhaust_eq, portFrames_raiseEvent (by decide)]
  rfl

theorem mem_exhaust : t ∈ (exhaust t h).dome.exhausted := by
  rw [exhaust_eq, raiseEvent_dome]
  exact List.mem_cons_self

theorem eventPending_exhaust : eventPending (exhaust t h) 0x82 = true := eventPending_raiseEvent _ _ _ _ _ (by decide) (.inl rfl)

theorem rd_exhaust : rd (exhaust t h) 0x4B00_12 = min (rd h 0x4B00_12 + 1) (2 ^ 32 - 1) := by
  rw [exhaust_eq, rd_raiseEvent_of _ _ _ _ _ (by decide) (by decide)]
  exact rd_bump_of_dict rfl _

theorem kept_exhaust : KeptBut ((0x4B00_12, 0x4B00_12) :: eventRanges) h (exhaust t h) := by
  have ended : KeptBut ((0x4B00_12, 0x4B00_12) :: eventRanges) h (contextEnded t h) := (KeptBut.refl _ h).same rfl
  rw [exhaust_eq]
  exact (ended.bump _ ⟨_, List.mem_cons_self, Nat.le_refl _, Nat.le_refl _⟩).after_raiseEvent _ _ _ (by decide)
    fun _ m => List.mem_cons_of_mem _ m

end

/-- The registers that the discard of a frame whose context is exhausted may write. -/
theorem kept_sendContext_exhaust (t : Nat) (h : Hub) :
    KeptBut ((0x4B00_06 + t, 0x4B00_06 + t) :: (0x4B00_12, 0x4B00_12) :: eventRanges) h (exhaust t (sendContext t h)) :=
  ((kept_sendContext t h).mono fun _ m => List.mem_cons.2 (.inl (List.mem_singleton.1 m))).trans
    ((kept_exhaust t _).mono fun _ m => List.mem_cons_of_mem _ m)

/-! ### What the duplicate check and Belfry's Dome port do with an opened frame -/

/-- A frame that Dome has let through enters Belfry at the Dome port once the duplicate check has passed it. -/
def entered (g : Frame) (h : Hub) : Hub := if (dupCheck g h).1 then enqueue (dupCheck g h).2 5 g else (dupCheck g h).2

/-- What the duplicate check does: it notes a frame it passes in its records, and counts another. -/
theorem dupCheck_cases (g : Frame) (h : Hub) : (∃ r, dupCheck g h = (true, { h with ring := r }))
    ∨ ∃ k, (k = 0x4100_0B ∨ k = 0x4100_0C) ∧ dupCheck g h = (false, bump h k) := by
  unfold dupCheck
  split
  · exact .inl ⟨h.ring, rfl⟩
  · dsimp only
    split
    · exact .inl ⟨_, rfl⟩
    · exact .inr ⟨_, .inl rfl, rfl⟩
    · exact .inr ⟨_, .inr rfl, rfl⟩

/-- Its verdict rests on the frame's header and the records, not on the payload. -/
theorem dupCheck_payload (f : Frame) (ws : List Word) {a h : Hub} (ring : a.ring = h.ring) :
    (dupCheck { f with payload := ws } a).1 = (dupCheck f h).1 := by
  unfold dupCheck
  rw [ring]
  change (if ¬ dualSent f = true ∨ f.src = 0 then (true, a) else _).1 = _
  split
  · rfl
  · dsimp only
    split <;> rfl

theorem entered_dome (g : Frame) (h : Hub) : (entered g h).dome = h.dome := by
  unfold entered
  rcases dupCheck_cases g h with ⟨r, e⟩ | ⟨k, -, e⟩ <;> rw [e] <;> rfl

theorem rd_entered (g : Frame) (h : Hub) {k : Nat} (n : k ≠ 0x4100_0B ∧ k ≠ 0x4100_0C) : rd (entered g h) k = rd h k := by
  unfold entered
  rcases dupCheck_cases g h with ⟨r, e⟩ | ⟨j, counts, e⟩ <;> rw [e]
  · rfl
  · exact rd_bump_ne h (by omega)

/-- A frame that passes is the last at the port, and no register is written. -/
theorem entered_passed {g : Frame} {h : Hub} (pass : (dupCheck g h).1 = true) :
    portFrames (entered g h) 5 = portFrames h 5 ++ [g] ∧ (entered g h).dict = h.dict := by
  unfold entered
  rw [if_pos pass]
  rcases dupCheck_cases g h with ⟨r, e⟩ | ⟨k, -, e⟩
  · rw [e]
    exact ⟨portFrames_enqueue .., rfl⟩
  · rw [e] at pass
    cases pass

theorem openAndDeliver_passes {f g : Frame} {h a : Hub} (opened : openFrame f h = (some g, a)) (clear : ExitClear a) :
    openAndDeliver f h = entered g a := by
  unfold openAndDeliver entered
  rw [opened]
  dsimp only
  rcases dupCheck_cases g a with ⟨r, e⟩ | ⟨k, -, e⟩ <;> rw [e]
  · obtain ⟨o, i, u⟩ := clear.ring r
    exact sendOver_clear 0x12 0 (fun x b => enqueue b 5 x) g _ o i u
  · rfl

theorem openAndDeliver_stops {f : Frame} {h a : Hub} (opened : openFrame f h = (none, a)) : openAndDeliver f h = a := by
  unfold openAndDeliver
  rw [opened]

/-! ### Receive contexts (R611, R613, R614) -/

theorem findContext_some {l : List RxContext} {s t : Nat} {c : RxContext} (found : findContext l s t = some c) : c.src = s ∧ c.slot = t := by
  have hit := List.find?_some found
  simpa using hit

/-- A context put in the hardware slots is the one found there. -/
theorem findContext_putContext {c : RxContext} {s t : Nat} (own : c.src = s ∧ c.slot = t) (h : Hub) :
    findContext (putContext c h).dome.hardware s t = some c := by
  obtain ⟨rfl, rfl⟩ := own
  unfold findContext putContext
  exact List.find?_cons_of_pos (by simp)

/-- It leaves the private store. -/
theorem findContext_inner_putContext {c : RxContext} {s t : Nat} (own : c.src = s ∧ c.slot = t) (h : Hub) :
    findContext (putContext c h).dome.inner s t = none := by
  obtain ⟨rfl, rfl⟩ := own
  have other : ∀ l, ∀ x ∈ dropContext l c.src c.slot, ¬ (x.src == c.src && x.slot == c.slot) = true := by
    intro l x m
    have kept := (List.mem_filter.1 m).2
    simpa [Decidable.imp_iff_not_or] using kept
  refine List.find?_eq_none.2 fun x m => ?_
  rcases List.mem_append.1 (List.mem_of_mem_take m) with lost | inner
  · exact other _ x (List.mem_of_mem_drop (i := 59) lost)
  · exact other _ x inner

section
variable {s t : Nat} {c : RxContext} {h : Hub}

theorem lookContext_hardware (found : findContext h.dome.hardware s t = some c) : lookContext s t h = (some c, putContext c h) := by
  unfold lookContext
  rw [found]

theorem lookContext_inner (absent : findContext h.dome.hardware s t = none) (found : findContext h.dome.inner s t = some c) :
    lookContext s t h = (some c, putContext c (bump h 0x4B00_10)) := by
  unfold lookContext
  rw [absent, found]

theorem lookContext_none (absent : findContext h.dome.hardware s t = none) (unheld : findContext h.dome.inner s t = none) :
    lookContext s t h = (none, h) := by
  unfold lookContext
  rw [absent, unheld]

end

theorem keyChoice_old {c : RxContext} {e : Nat} (le : e ≤ c.epoch) (n : e ≠ c.epoch) (p : c.prev ≠ some e) :
    keyChoice (some c) e = .old := by simp [keyChoice, Nat.not_lt.2 le, n, p]

theorem keyChoice_held {c : RxContext} {e : Nat} (le : e ≤ c.epoch) (own : e = c.epoch ∨ c.prev = some e) :
    keyChoice (some c) e = .held := by simp [keyChoice, Nat.not_lt.2 le, own]

theorem keyChoice_candidate {c : RxContext} {e : Nat} (lt : c.epoch < e) : keyChoice (some c) e = .candidate := if_pos lt

/-! ### Opening (R611) -/

/-- The ring traffic key that a secured frame names. -/
def frameKey (k : List Byte) (f : Frame) : List Byte := ringKey k f.src f.slot f.epoch

/-- A verified frame as it leaves Dome. -/
def openedFrame (k : List Byte) (f : Frame) : Frame := if f.confidential then { f with payload := applyStream (frameKey k f) f } else f

/-- The hub once a verified frame has been counted and handed on. -/
def delivered (k : List Byte) (f : Frame) (h : Hub) : Hub := entered (openedFrame k f) (bump h 0x4B00_0C)

/-- A frame whose tag does not verify is counted and told (R612). -/
def tagFailed (f : Frame) (h : Hub) : Hub := raise16ms (bump h 0x4B00_0D) 0x83 f.src 0 0

theorem dupCheck_openedFrame (k : List Byte) (f : Frame) {a h : Hub} (ring : a.ring = h.ring) :
    (dupCheck (openedFrame k f) a).1 = (dupCheck f h).1 := by
  unfold openedFrame
  split
  · exact dupCheck_payload f _ ring
  · exact dupCheck_payload f f.payload ring

section
variable (k : List Byte) (f : Frame) (h : Hub)

theorem delivered_dome : (delivered k f h).dome = h.dome := entered_dome ..

theorem rd_delivered {j : Nat} (n : j ≠ 0x4100_0B ∧ j ≠ 0x4100_0C ∧ j ≠ 0x4B00_0C) : rd (delivered k f h) j = rd h j := by
  obtain ⟨twice, late, told⟩ := n
  exact (rd_entered _ _ ⟨twice, late⟩).trans (rd_bump_ne h told)

variable {k f h} {a : Hub} (ring : a.ring = h.ring) (pass : (dupCheck f h).1 = true)
include ring pass

theorem dupCheck_counted : (dupCheck (openedFrame k f) (bump a 0x4B00_0C)).1 = true := by
  rw [dupCheck_openedFrame k f (a := bump a 0x4B00_0C) ring, pass]

theorem portFrames_delivered : portFrames (delivered k f a) 5 = portFrames a 5 ++ [openedFrame k f] :=
  (entered_passed (dupCheck_counted ring pass)).1

theorem delivered_dict : (delivered k f a).dict = (bump a 0x4B00_0C).dict := (entered_passed (dupCheck_counted ring pass)).2

theorem rd_delivered_opened : rd (delivered k f a) 0x4B00_0C = min (rd a 0x4B00_0C + 1) (2 ^ 32 - 1) :=
  (rd_dict _ _ (delivered_dict ring pass) _).trans (rd_bump_self a _)

theorem kept_delivered : KeptBut [(0x4B00_0C, 0x4B00_0C)] a (delivered k f a) := (kept_wr a 0x4B00_0C _).same (delivered_dict ring pass)

end

section
variable (f : Frame) (h : Hub)

theorem tagFailed_dome : (tagFailed f h).dome = h.dome := raiseKeyed_dome ..

theorem portFrames_tagFailed : portFrames (tagFailed f h) 5 = portFrames h 5 := portFrames_raiseKeyed (by decide) ..

theorem rd_tagFailed : rd (tagFailed f h) 0x4B00_0D = min (rd h 0x4B00_0D + 1) (2 ^ 32 - 1) :=
  (rd_raiseKeyed_of _ _ _ _ _ _ _ (by decide) (by decide)).trans (rd_bump_self _ _)

theorem eventPending_tagFailed (fresh : h.watch.rates = []) : eventPending (tagFailed f h) 0x83 = true :=
  eventPending_raise16ms (h := bump h 0x4B00_0D) fresh _ _ _ _ (by decide)

theorem kept_tagFailed : KeptBut ((0x4B00_0D, 0x4B00_0D) :: eventRanges) h (tagFailed f h) :=
  ((kept_wr h _ _).mono fun _ m => List.mem_cons.2 (.inl (List.mem_singleton.1 m))).trans
    ((kept_raiseKeyed _ _ _ _ _ _ (by decide)).mono fun _ m => List.mem_cons_of_mem _ m)

theorem rd_tagFailed_of {k : Nat} (n : k ≠ 0x4B00_0D) (o : eventKey k = false) : rd (tagFailed f h) k = rd h k :=
  (rd_raiseKeyed_of _ _ _ _ _ _ _ (by decide) o).trans (rd_bump_ne h n)

end

/-- The hub once the tag has been compared: `good` where it verifies under the key the frame names, `bad` where it does not, each before
the outcome is counted. -/
def tagJudged (k : List Byte) (f : Frame) (good bad : Hub) : Hub :=
  if frameTag (frameKey k f) f = f.tag then delivered k f good else tagFailed f bad

section
variable {k : List Byte} {f : Frame} (good bad : Hub)

theorem tagJudged_good (g : frameTag (frameKey k f) f = f.tag) : tagJudged k f good bad = delivered k f good := if_pos g

theorem tagJudged_bad (b : frameTag (frameKey k f) f ≠ f.tag) : tagJudged k f good bad = tagFailed f bad := if_neg b

theorem tagJudged_dome : (tagJudged k f good bad).dome = if frameTag (frameKey k f) f = f.tag then good.dome else bad.dome := by
  split
  · next g => rw [tagJudged_good _ _ g, delivered_dome]
  · next b => rw [tagJudged_bad _ _ b, tagFailed_dome]

/-- A register beside those that the outcome is counted and told in. -/
theorem rd_tagJudged {j v : Nat} (n : j ≠ 0x4100_0B ∧ j ≠ 0x4100_0C ∧ j ≠ 0x4B00_0C) (m : j ≠ 0x4B00_0D) (o : eventKey j = false)
    (g : rd good j = v) (b : rd bad j = v) : rd (tagJudged k f good bad) j = v := by
  unfold tagJudged
  split
  · exact (rd_delivered k f good n).trans g
  · exact (rd_tagFailed_of f bad m o).trans b

end

theorem openFrame_keyless {f : Frame} {h : Hub} (srk : h.dome.srk = none) (sec : f.secured = true) :
    openFrame f h = (none, bump h 0x4B00_0D) := by
  unfold openFrame
  rw [srk]
  exact if_pos sec

theorem openFrame_unsealed {f : Frame} {h : Hub} {k : List Byte} (srk : h.dome.srk = some k) (plain : f.secured = false)
    (guarded : protection h f.cls ≠ 0) (own : sourceZeroControl f = false) : openFrame f h = (none, bump h 0x4B00_0E) := by
  unfold openFrame
  rw [srk]
  simp [plain, guarded, own]

theorem openFrame_free {f : Frame} {h : Hub} (plain : f.secured = false)
    (free : h.dome.srk = none ∨ protection h f.cls = 0 ∨ sourceZeroControl f = true) : openFrame f h = (some f, h) := by
  unfold openFrame
  split
  · exact if_neg (by simp [plain])
  · next srk =>
    rw [srk] at free
    have unguarded : ¬ (protection h f.cls ≠ 0 ∧ ¬ sourceZeroControl f = true) := by
      rcases free with keyless | none | control
      · cases keyless
      · exact fun ⟨guarded, _⟩ => guarded none
      · exact fun ⟨_, other⟩ => other control
    rw [if_neg (by simp [plain]), if_neg unguarded]

section
variable {f : Frame} {h : Hub} {k : List Byte} (srk : h.dome.srk = some k) (serves : domeServes h = true) (sec : f.secured = true)
include srk serves sec

theorem openFrame_secured : openFrame f h = openSecured k f h := by
  unfold openFrame
  rw [srk]
  simp [sec, serves]

theorem openAndDeliver_old {c : Option RxContext} {b : Hub} (look : lookContext f.src f.slot h = (c, b))
    (choice : keyChoice c f.epoch = .old) : openAndDeliver f h = bump b 0x4B00_0D := by
  refine openAndDeliver_stops ((openFrame_secured srk serves sec).trans ?_)
  unfold openSecured
  rw [look]
  simp only [choice]

/-- A frame under a held key. -/
theorem openAndDeliver_held {c : Option RxContext} {b : Hub} (look : lookContext f.src f.slot h = (c, b))
    (choice : keyChoice c f.epoch = .held) (clear : ExitClear b) : openAndDeliver f h = tagJudged k f b b := by
  have ran : openFrame f h = if frameTag (frameKey k f) f = f.tag then (some (openedFrame k f), bump b 0x4B00_0C) else (none, tagFailed f b) := by
    rw [openFrame_secured srk serves sec]
    unfold openSecured
    rw [look]
    simp only [choice, ite_not]
    rfl
  unfold tagJudged
  split
  · next good => exact openAndDeliver_passes (ran.trans (if_pos good)) (clear.bump (by decide))
  · next bad => exact openAndDeliver_stops (ran.trans (if_neg bad))

/-- A frame under a candidate key: the context takes the epoch only once the tag has verified. -/
theorem openAndDeliver_candidate {c : Option RxContext} {b : Hub} (look : lookContext f.src f.slot h = (c, b))
    (choice : keyChoice c f.epoch = .candidate) (clear : ExitClear b) : openAndDeliver f h =
      tagJudged k f (putContext (adopted c f.src f.slot f.epoch) (bump b 0x4B00_0F)) (bump b 0x4B00_0F) := by
  have ran : openFrame f h = if frameTag (frameKey k f) f = f.tag then
      (some (openedFrame k f), bump (putContext (adopted c f.src f.slot f.epoch) (bump b 0x4B00_0F)) 0x4B00_0C)
      else (none, tagFailed f (bump b 0x4B00_0F)) := by
    rw [openFrame_secured srk serves sec]
    unfold openSecured
    rw [look]
    simp only [choice, ite_not]
    rfl
  unfold tagJudged
  split
  · next good => exact openAndDeliver_passes (ran.trans (if_pos good)) (((clear.bump (by decide)).dome _).bump (by decide))
  · next bad => exact openAndDeliver_stops (ran.trans (if_neg bad))

end

/-! ### The end of the grace time (R611) -/

/-- A context whose grace time ends keeps no previous epoch; any other stays as it is. -/
def graceEnded (src slot : Nat) (c : RxContext) : RxContext := if c.src = src ∧ c.slot = slot then { c with prev := none } else c

theorem exec_epochGraceExpiry (src slot : Nat) (s : State) : exec (.epochGraceExpiry src slot) s = .next { s with hub :=
    { s.hub with dome := { s.hub.dome with
        hardware := s.hub.dome.hardware.map (graceEnded src slot), inner := s.hub.dome.inner.map (graceEnded src slot) } } } := rfl

theorem graceEnded_name (src slot : Nat) (c : RxContext) :
    ((graceEnded src slot c).src, (graceEnded src slot c).slot, (graceEnded src slot c).epoch) = (c.src, c.slot, c.epoch) := by
  unfold graceEnded
  split <;> rfl

theorem graceEnded_prev {src slot : Nat} {c : RxContext} (own : (graceEnded src slot c).src = src) (same : (graceEnded src slot c).slot = slot) :
    (graceEnded src slot c).prev = none := by
  unfold graceEnded at *
  split at own
  · next hit => rw [if_pos hit]
  · next miss =>
    rw [if_neg miss] at same
    exact absurd ⟨own, same⟩ miss

/-! ### SEAL_FRAME of a frame to be sealed -/

section
variable {f : Frame} {t c : Nat} {k : List Byte} {s : State} (r : DomeReady f s.hub) (serves : domeServes s.hub = true)
  (need : sealNeeded s.hub f = true) (persisted : s.hub.dome.persisted = true) (srk : s.hub.dome.srk = some k) (ofClass : t = clsNum f.cls)
  (next : c = sendCounter t s.hub)
include r serves need persisted srk ofClass next

/-- With the next counter to hand the frame leaves sealed under it. -/
theorem exec_sealFrame_next (fit : t ∉ s.hub.dome.exhausted) (bound : c < 2 ^ 48 - 1) (early : c + 1 ≠ 2 ^ 47) :
    exec (.sealFrame f) s = .next { s with
      hub := enqueue (counterSpent t c (domeTaken f s.hub)) 5 (sealedFrame s.hub (sealKey k f s.hub) c f) } := by
  rw [exec_sealFrame_ready r, sealFrame_next (h := domeTaken f s.hub) serves need persisted srk ofClass next (ExitClear_of_ready r) fit bound early]
  rfl

theorem exec_sealFrame_due (fit : t ∉ s.hub.dome.exhausted) (due : c + 1 = 2 ^ 47) (idle : s.hub.dome.next = none)
    (valid : s.hub.dome.epochValid = true) (room : s.hub.dome.epoch + 1 < 2 ^ 32) :
    exec (.sealFrame f) s = .next { s with
      hub := enqueue (advanceEpoch true (counterSpent t c (domeTaken f s.hub))) 5 (sealedFrame s.hub (sealKey k f s.hub) c f) } := by
  rw [exec_sealFrame_ready r,
    sealFrame_due (h := domeTaken f s.hub) serves need persisted srk ofClass next (ExitClear_of_ready r) fit due idle valid room]
  rfl

theorem exec_sealFrame_exhausted (out : t ∈ s.hub.dome.exhausted ∨ c = 2 ^ 48 - 1) :
    exec (.sealFrame f) s = .next { s with hub := exhaust t (sendContext t (domeTaken f s.hub)) } := by
  rw [exec_sealFrame_ready r, sealFrame_exhausted (h := domeTaken f s.hub) serves need persisted srk ofClass next out]

end

/-- A new epoch asked for by the frame that took the last counter before 2 to the 47th: taken at once below the ceiling, waited for
from there on. -/
theorem advanceEpoch_counterSpent {t c : Nat} {h : Hub} (idle : h.dome.next = none) (valid : h.dome.epochValid = true)
    (room : h.dome.epoch + 1 < 2 ^ 32) :
    portFrames (advanceEpoch true (counterSpent t c h)) 5 = portFrames h 5
      ∧ (h.dome.epoch + 1 < h.dome.ceiling → (advanceEpoch true (counterSpent t c h)).dome.epoch = h.dome.epoch + 1
        ∧ eventPending (advanceEpoch true (counterSpent t c h)) 0x81 = true)
      ∧ (h.dome.ceiling ≤ h.dome.epoch + 1 → (advanceEpoch true (counterSpent t c h)).dome.epoch = h.dome.epoch
        ∧ (advanceEpoch true (counterSpent t c h)).dome.writing = true
        ∧ (advanceEpoch true (counterSpent t c h)).dome.next = some (h.dome.epoch + 1)) := by
  have same := counterSpent_dome t c h
  have ports := portFrames_counterSpent t c 5 h
  generalize counterSpent t c h = spent at same ports
  have epoch : spent.dome.epoch = h.dome.epoch := by rw [same]
  have ceiling : spent.dome.ceiling = h.dome.ceiling := by rw [same]
  replace idle : spent.dome.next = none := by rw [same]; exact idle
  replace valid : spent.dome.epochValid = true := by rw [same]; exact valid
  rw [← epoch] at room
  rw [← epoch, ← ceiling]
  refine ⟨(portFrames_advanceEpoch idle valid room).trans ports, fun below => ?_, fun above => ?_⟩
  · rw [advanceEpoch_below idle valid room below, raiseEvent_dome]
    exact ⟨rfl, eventPending_raiseEvent _ _ _ _ _ (by decide) (.inl rfl)⟩
  · rw [advanceEpoch_above idle valid room above]
    exact ⟨rfl, rfl, rfl⟩

theorem exhaust_sendContext {t : Nat} (low : t ≤ 3) (h : Hub) :
    portFrames (exhaust t (sendContext t h)) 5 = portFrames h 5
      ∧ rd (exhaust t (sendContext t h)) 0x4B00_12 = min (rd h 0x4B00_12 + 1) (2 ^ 32 - 1) := by
  refine ⟨(portFrames_exhaust t _).trans (congrArg (portFrames · 5) (sendContext_only t h) :), ?_⟩
  rw [rd_exhaust, (kept_sendContext t h).rd_eq 0x4B00_12 (by simp; omega)]

/-! ### OPEN_FRAME of a secured frame -/

section
variable {f : Frame} {k : List Byte} {s : State} (r : DomeReady f s.hub) (srk : s.hub.dome.srk = some k) (serves : domeServes s.hub = true)
  (sec : f.secured = true)
include r srk serves sec

theorem exec_openFrame_held {c : Option RxContext} {b : Hub} (look : lookContext f.src f.slot (domeTaken f s.hub) = (c, b))
    (choice : keyChoice c f.epoch = .held) (clear : ExitClear b) : exec (.openFrame f) s = .next { s with hub := tagJudged k f b b } := by
  rw [exec_openFrame_ready r, openAndDeliver_held (h := domeTaken f s.hub) srk serves sec look choice clear]

theorem exec_openFrame_candidate {c : Option RxContext} {b : Hub} (look : lookContext f.src f.slot (domeTaken f s.hub) = (c, b))
    (choice : keyChoice c f.epoch = .candidate) (clear : ExitClear b) : exec (.openFrame f) s = .next { s with
      hub := tagJudged k f (putContext (adopted c f.src f.slot f.epoch) (bump b 0x4B00_0F)) (bump b 0x4B00_0F) } := by
  rw [exec_openFrame_ready r, openAndDeliver_candidate (h := domeTaken f s.hub) srk serves sec look choice clear]

theorem exec_openFrame_old {c : Option RxContext} {b : Hub} (look : lookContext f.src f.slot (domeTaken f s.hub) = (c, b))
    (choice : keyChoice c f.epoch = .old) : exec (.openFrame f) s = .next { s with hub := bump b 0x4B00_0D } := by
  rw [exec_openFrame_ready r, openAndDeliver_old (h := domeTaken f s.hub) srk serves sec look choice]

end

/-! ### What the hub is like once the tag has been compared -/

/-- Two hubs with the same registers, frames at the internal ports and ring records: what Dome and Belfry hold may differ. -/
structure SameButDome (a h : Hub) : Prop where
  dict : a.dict = h.dict
  ports : a.portQ = h.portQ
  ring : a.ring = h.ring

theorem sameButDome_putContext (c : RxContext) (f : Frame) (h : Hub) : SameButDome (putContext c (domeTaken f h)) h := ⟨rfl, rfl, rfl⟩

section
variable {a h : Hub} (x : SameButDome a h)
include x

theorem SameButDome.portFrames_eq : portFrames a 5 = portFrames h 5 := congrArg (fun q => tabGet [] q 5) x.ports

theorem SameButDome.rd_eq (j : Nat) : rd a j = rd h j := rd_dict a h x.dict j

theorem SameButDome.tagFailed (f : Frame) : portFrames (tagFailed f a) 5 = portFrames h 5
    ∧ rd (Machine.tagFailed f a) 0x4B00_0D = min (rd h 0x4B00_0D + 1) (2 ^ 32 - 1)
    ∧ KeptBut ((0x4B00_0D, 0x4B00_0D) :: eventRanges) h (Machine.tagFailed f a) :=
  ⟨(portFrames_tagFailed f a).trans x.portFrames_eq, by rw [rd_tagFailed, x.rd_eq], (kept_tagFailed f a).of_dict x.dict⟩

theorem SameButDome.delivered {f : Frame} (pass : (dupCheck f h).1 = true) (k : List Byte) :
    portFrames (delivered k f a) 5 = portFrames h 5 ++ [openedFrame k f]
    ∧ rd (Machine.delivered k f a) 0x4B00_0C = min (rd h 0x4B00_0C + 1) (2 ^ 32 - 1)
    ∧ KeptBut [(0x4B00_0C, 0x4B00_0C)] h (Machine.delivered k f a) :=
  ⟨by rw [portFrames_delivered x.ring pass, x.portFrames_eq], by rw [rd_delivered_opened x.ring pass, x.rd_eq],
    (kept_delivered x.ring pass).of_dict x.dict⟩

end

section
variable {k : List Byte} {f : Frame} {c : RxContext}

/-- Under a held key the context stands as it was found, whatever comes of the tag. -/
theorem findContext_tagJudged_held (own : c.src = f.src ∧ c.slot = f.slot) (h : Hub) :
    findContext (tagJudged k f (putContext c h) (putContext c h)).dome.hardware f.src f.slot = some c
      ∧ findContext (tagJudged k f (putContext c h) (putContext c h)).dome.inner f.src f.slot = none := by
  rw [tagJudged_dome, ite_self]
  exact ⟨findContext_putContext own h, findContext_inner_putContext own h⟩

/-- Under a candidate key the context takes the frame's epoch once the tag has verified, and else stays as it was found. -/
theorem findContext_tagJudged_candidate {b : Hub} (found : findContext b.dome.hardware f.src f.slot = some c) :
    findContext (tagJudged k f (putContext (adopted (some c) f.src f.slot f.epoch) (bump b 0x4B00_0F)) (bump b 0x4B00_0F)).dome.hardware
        f.src f.slot
      = some (if frameTag (frameKey k f) f = f.tag then { src := f.src, slot := f.slot, epoch := f.epoch, prev := some c.epoch } else c) := by
  rw [tagJudged_dome]
  split
  · exact findContext_putContext ⟨rfl, rfl⟩ _
  · exact found

/-- The key of a candidate is counted (R614). -/
theorem rd_tagJudged_candidate (x : RxContext) (b : Hub) :
    rd (tagJudged k f (putContext x (bump b 0x4B00_0F)) (bump b 0x4B00_0F)) 0x4B00_0F = min (rd b 0x4B00_0F + 1) (2 ^ 32 - 1) :=
  rd_tagJudged _ _ (by decide) (by decide) (by decide) (rd_bump_self b 0x4B00_0F) (rd_bump_self b 0x4B00_0F)

end

end Sys2Proof.Machine

open Sys2Proof Sys2Proof.Machine

/-- Settles O48: over clear crossings SEAL_FRAME is `sealing` and OPEN_FRAME is `openFrame`, and each clause is what the case of sealing, of
the receive context or of the key comes to. -/
theorem domeSealsAndOpensFrames : Obligations.DomeSealsAndOpensFrames := by
  unfold Obligations.DomeSealsAndOpensFrames
  refine ⟨fun f s other => ?other, fun f s front poisoned o e u => ?poisoned, fun f s r => ⟨fun waits => ?waits, fun serves free => ?free⟩,
    fun f t c k s r serves need persisted srk ofClass next => ?sealing, fun f s h r taken => ?unsecured,
    fun f k c s r srk serves sec found le => ?known, fun f k s r srk serves sec absent => ?unheld,
    fun f k c s r srk serves sec found lt => ?newer, fun src slot s => ?grace⟩
  case other => exact ⟨by rw [exec_sealFrame, domeTakes_other other], by rw [exec_openFrame, domeTakes_other other]⟩
  case poisoned =>
    have discarded : ∀ act, domeTakes act f s.hub = bump (domeTaken f s.hub) 0x4200_17 := fun act =>
      (domeTakes_front front o e u).trans (if_neg poisoned)
    exact ⟨by rw [exec_sealFrame, discarded], by rw [exec_openFrame, discarded]⟩
  case waits => rw [exec_sealFrame_ready r, sealFrame_stops (sealing_waits (h := domeTaken f s.hub) waits)]
  case free =>
    rw [exec_sealFrame_ready r, sealFrame_leaves (sealing_open (h := domeTaken f s.hub) serves free) (ExitClear_of_ready r)]
  case sealing =>
    have low : t ≤ 3 := ofClass ▸ clsNum_le f.cls
    refine ⟨fun fit bound early => ?_, fun fit due idle valid room => ?_, fun out => ?_⟩
    · obtain ⟨secured, confidential, slot, epoch, counter, rest, payload, tag⟩ := sealedFrame_fields s.hub (sealKey k f s.hub) c f
      subst ofClass
      rw [exec_sealFrame_next r serves need persisted srk rfl next fit bound early]
      refine ⟨_, sealedFrame s.hub (sealKey k f s.hub) c f, rfl, ?_, secured, confidential, slot, epoch, counter, rest, payload, tag,
        ?_, ?_, ?_, ?_⟩
      · exact (portFrames_enqueue _ 5 _).trans (by rw [portFrames_counterSpent]; rfl)
      · exact rd_counterSpent_counter low bound (domeTaken f s.hub)
      · exact rd_counterSpent_sealed low c (domeTaken f s.hub)
      · exact counterSpent_dome (clsNum f.cls) c (domeTaken f s.hub)
      · exact kept_counterSpent (clsNum f.cls) c (domeTaken f s.hub)
    · obtain ⟨ports, below, above⟩ := advanceEpoch_counterSpent (t := t) (c := c) (h := domeTaken f s.hub) idle valid room
      obtain ⟨-, -, -, epoch, -⟩ := sealedFrame_fields s.hub (sealKey k f s.hub) c f
      exact ⟨_, sealedFrame s.hub (sealKey k f s.hub) c f, exec_sealFrame_due r serves need persisted srk ofClass next fit due idle valid room,
        (portFrames_enqueue _ 5 _).trans (congrArg (· ++ _) ports), epoch, below, above⟩
    · obtain ⟨ports, discards⟩ := exhaust_sendContext low (domeTaken f s.hub)
      exact ⟨_, exec_sealFrame_exhausted r serves need persisted srk ofClass next out, ports, mem_exhaust t _, discards,
        eventPending_exhaust t _, kept_sendContext_exhaust t (domeTaken f s.hub)⟩
  case unsecured =>
    subst taken
    refine ⟨fun srk sec => ?_, fun k srk plain guarded own => ?_, fun plain free => ?_⟩
    · rw [exec_openFrame_ready r, openAndDeliver_stops (openFrame_keyless (h := domeTaken f s.hub) srk sec)]
    · rw [exec_openFrame_ready r, openAndDeliver_stops (openFrame_unsealed (h := domeTaken f s.hub) srk plain guarded own)]
    · rw [exec_openFrame_ready r, openAndDeliver_passes (openFrame_free (h := domeTaken f s.hub) plain free) (ExitClear_of_ready r)]
      rfl
  case known =>
    have look : lookContext f.src f.slot (domeTaken f s.hub) = (some c, putContext c (domeTaken f s.hub)) := lookContext_hardware found
    have alike := sameButDome_putContext c f s.hub
    refine ⟨fun old gone => exec_openFrame_old r srk serves sec look (keyChoice_old le old gone), fun own =>
      ⟨_, exec_openFrame_held r srk serves sec look (keyChoice_held le own) ((ExitClear_of_ready r).dome _),
        (findContext_tagJudged_held (findContext_some found) _).1, fun bad => ?_, fun good pass => ?_⟩⟩
    · obtain ⟨ports, counted, kept⟩ := alike.tagFailed f
      dsimp only
      rw [tagJudged_bad _ _ bad]
      exact ⟨ports, counted, eventPending_tagFailed f (putContext c (domeTaken f s.hub)), kept⟩
    · dsimp only
      rw [tagJudged_good _ _ good]
      exact alike.delivered pass k
  case unheld =>
    refine ⟨fun unheld => ?_, fun c held le => ?_⟩
    · have look : lookContext f.src f.slot (domeTaken f s.hub) = (none, domeTaken f s.hub) := lookContext_none absent unheld
      have counted := rd_tagJudged_candidate (k := k) (f := f) (adopted none f.src f.slot f.epoch) (domeTaken f s.hub)
      refine ⟨_, exec_openFrame_candidate r srk serves sec look rfl (ExitClear_of_ready r), counted, fun bad => ?_, fun good pass => ?_⟩
      · dsimp only
        rw [tagJudged_bad _ _ bad, tagFailed_dome, portFrames_tagFailed]
        exact ⟨rfl, rfl⟩
      · have ring : (putContext (adopted none f.src f.slot f.epoch) (bump (domeTaken f s.hub) 0x4B00_0F)).ring = s.hub.ring := rfl
        dsimp only
        rw [tagJudged_good _ _ good, delivered_dome, portFrames_delivered ring pass, List.length_append]
        exact ⟨findContext_putContext (c := adopted none f.src f.slot f.epoch) ⟨rfl, rfl⟩ _, rfl⟩
    · have look : lookContext f.src f.slot (domeTaken f s.hub) = (some c, putContext c (bump (domeTaken f s.hub) 0x4B00_10)) :=
        lookContext_inner absent held
      have named := findContext_some held
      have fetched : rd (putContext c (bump (domeTaken f s.hub) 0x4B00_10)) 0x4B00_10 = min (rd s.hub 0x4B00_10 + 1) (2 ^ 32 - 1) :=
        rd_bump_self (domeTaken f s.hub) 0x4B00_10
      by_cases own : f.epoch = c.epoch ∨ c.prev = some f.epoch
      · obtain ⟨hardware, inner⟩ := findContext_tagJudged_held (k := k) named (bump (domeTaken f s.hub) 0x4B00_10)
        exact ⟨_, exec_openFrame_held r srk serves sec look (keyChoice_held le own) (((ExitClear_of_ready r).bump (by decide)).dome _),
          hardware, inner, rd_tagJudged _ _ (by decide) (by decide) (by decide) fetched fetched⟩
      · obtain ⟨old, gone⟩ := not_or.1 own
        exact ⟨_, exec_openFrame_old r srk serves sec look (keyChoice_old le old gone), findContext_putContext named _,
          findContext_inner_putContext named _, (rd_bump_ne _ (by decide)).trans fetched⟩
  case newer =>
    have look : lookContext f.src f.slot (domeTaken f s.hub) = (some c, putContext c (domeTaken f s.hub)) := lookContext_hardware found
    exact ⟨_, exec_openFrame_candidate r srk serves sec look (keyChoice_candidate lt) ((ExitClear_of_ready r).dome _),
      rd_tagJudged_candidate _ (putContext c (domeTaken f s.hub)),
      findContext_tagJudged_candidate (findContext_putContext (findContext_some found) _)⟩
  case grace =>
    rw [exec_epochGraceExpiry]
    refine ⟨_, rfl, rfl, fun c m => ?_, ?_⟩
    · rw [← List.map_append] at m
      obtain ⟨x, -, rfl⟩ := List.mem_map.1 m
      exact graceEnded_prev
    · rw [List.map_map]
      exact List.map_congr_left fun x _ => graceEnded_name src slot x

end
